-- ==== Sys2Proof/Word.lean ====
section
/-! DEFINITION. Words and bytes of the module, and the sorted association list that every sparse piece of state uses. -/

set_option Elab.async false

namespace Sys2Proof

/-- One byte. -/
abbrev Byte := BitVec 8

/-- One 32-bit register (R20). -/
abbrev Word := BitVec 32

/-- One 128-bit instruction word of a stream (chapter 07). -/
abbrev IWord := BitVec 128

/-- The 512 data bits of a queue beat (R162). -/
abbrev Beat512 := BitVec 512

/-- A finite map from numbers, kept as pairs with strictly rising keys. -/
abbrev NMap (α : Type) := List (Nat × α)

end Sys2Proof
end

