-- ==== Sys2Proof/Types.lean ====
section
/-! DEFINITION. The operands of commands: agents, targets, banks, readings, and the configuration record in structured form. -/

set_option Elab.async false

namespace Sys2Proof

/-- A core by its die and its index. -/
structure CoreId where
  d : Nat
  c : Nat
  deriving DecidableEq, Repr

/-- rs1 of an Xkeavo instruction (R239): the register's number, and the value that the firmware left in it. -/
structure XReg where
  num : Nat
  val : Nat
  deriving DecidableEq, Repr

/-- rd and imm[11:0] of an Xkeavo instruction (R239). -/
structure XDest where
  rd : Nat
  imm : Nat
  deriving DecidableEq, Repr

/-- rs1 and imm[11:0] of an Xkeavo instruction (R239). -/
structure XSrc where
  rs : XReg
  imm : Nat
  deriving DecidableEq, Repr

/-- How a transfer that a routine issued has ended (R245): the engine, DE1 or DE0, and the status. -/
structure DmaEnd where
  de1 : Bool
  status : Nat
  deriving DecidableEq, Repr

/-- Who makes an access, posts a notice or issues a sequence. -/
inductive Agent where
  /-- an engine of core `c` of die `d`: 0 AE, 1 XS, 2 ME, 3 VE, 4 DE0, 5 DE1 (R27) -/
  | engine (d c unit : Nat)
  /-- the control core of core `c` of die `d` -/
  | cc (d c : Nat)
  /-- the attention sequencer of cluster `k` of die `d` -/
  | aseq (d k : Nat)
  /-- the KV ring logic, walkers and far-tier engine of die `d` -/
  | kvm (d : Nat)
  /-- the loader on D0 -/
  | loader
  /-- the collective engine of die `d` -/
  | coll (d : Nat)
  /-- the safety manager on D0 -/
  | mgmt
  /-- the fault collector of die `d` (R291) -/
  | fcu (d : Nat)
  /-- the host on port `port`, with requester ID `rid` -/
  | host (port rid : Nat)
  /-- the Caravan agent with address `src` (R407), whose request with tag `tag` addressed die `d` -/
  | peer (src d tag : Nat)
  deriving DecidableEq, Repr

/-- What an access names. -/
inductive Target where
  /-- a module physical address (R41) -/
  | phys (a : Nat)
  /-- a host physical address of a CXL.mem request (R391) -/
  | hpa (a : Nat)
  /-- offset `off` in BAR `n`, n = 0, 2 or 4 (R384) -/
  | bar (n off : Nat)
  /-- offset `off` in Ongor's DVSEC `id` of the port's configuration space (R399) -/
  | cfg (id off : Nat)
  deriving DecidableEq, Repr

/-- A bank of a stack: core die 0 to 15 are data dies, 16 is the parity die with banks 64 to 67 its spares (R64). -/
structure BankId where
  stk : Nat
  die : Nat
  bank : Nat
  deriving DecidableEq, Repr

/-- The unit that a fault record names in UNIT (R472): a core, a stack controller, an optical engine, a fabric port, a
cluster, a sensor, a link end, or the die. -/
inductive FaultUnit where
  | core (c : Nat)
  | sc (j : Nat)
  | oe (i : Nat)
  | fport (p : Nat)
  | cluster (k : Nat)
  | sensor (i : Nat)
  | linkEnd (l : Nat)
  | die
  deriving DecidableEq, Repr

/-- One reading of a sensor, in 1/16 °C (R483). -/
structure SensorReading where
  d : Nat
  idx : Nat
  temp : Int
  deriving DecidableEq, Repr

/-- What start-up finds in a stack at step 6 of R432: whether its channels calibrate, and the faulty wires per channel,
as (channel, data wires, control wires). -/
structure StackTest where
  calibrated : Bool
  wires : List (Nat × Nat × Nat)
  deriving DecidableEq, Repr

/-- Symbol errors that a scrub finds in one column of a row position: the core die (16 is the parity die), the column and
the number of symbols in error (R86). -/
structure ColumnError where
  die : Nat
  column : Nat
  symbols : Nat
  deriving DecidableEq, Repr

/-- A member of a collective group (R423): a module, and die × 256 + agent within it, the agent of a die being 0x60. -/
structure Member where
  module : Nat
  agent : Nat
  deriving DecidableEq, Repr

/-- Where the far-tier region lies (R320). -/
inductive FarHome where
  | host (port : Nat)
  | peer (module : Nat)
  deriving DecidableEq, Repr

/-- One entry of a section of the configuration record (R437). The spec gives no bytes for entries (DESIGN CHOICE log 13) (DESIGN CHOICE log
55). -/
inductive Entry where
  /-- Module section: module number, group, partition, FAULT pin mode, automatic-reset seconds, expected straps -/
  | module (number group partition faultMode restart strap : Nat)
  /-- Host ports section: HP_CFG fields and Subsystem IDs of one port -/
  | hostPort (port allowed regs subVendor subId : Nat)
  /-- Host ports section: one range of a port's window -/
  | range (port base size : Nat)
  /-- Firewalls section: SEQW_RANGEn of a die -/
  | seqw (d n en owner first last : Nat)
  /-- Firewalls section: LDR_SUBMIT_BINDn -/
  | submitBind (n en internal caravan hosts : Nat)
  /-- Firewalls section: the far-tier region -/
  | farTier (home : FarHome) (base slotSize slotCount : Nat) (dieCounts : List Nat)
  /-- Stacks section: the RWL registers of one stack's controller, as words -/
  | stack (stk idle budget srEntry tsense age scrub share : Nat)
  /-- KV section: a frame pool, its frame size in KiB, its metadata rows MP and its banks -/
  | pool (frameKiB mp : Nat) (banks : List BankId)
  /-- KV section: the KV structures region -/
  | kvRegion (base size : Nat)
  /-- KV section: KVM_POOL_LOW of a die -/
  | poolLow (d low : Nat)
  /-- KV section: ASEQ_CORESk of a die -/
  | aseqCores (d k mask : Nat)
  /-- Loader section: the task heap -/
  | heap (base size : Nat)
  /-- Loader section: the loader area -/
  | loaderArea (base size : Nat)
  /-- Fabric section: the peer of a fabric port (R405) -/
  | fabricPort (port peer : Nat)
  /-- Fabric section: a module of the system with its group and partition (R405, R417) -/
  | systemModule (number group partition : Nat)
  /-- Fabric section: a routing entry, whether `member` of the own group holds a link to `group` (R418) -/
  | route (group member : Nat)
  /-- Fabric section: the mask of partitions that may reach this module (R417) -/
  | partitionMask (mask : Nat)
  /-- Fabric section: a Caravan window (R417) -/
  | caravanWindow (base size mask : Nat)
  /-- Fabric section: a collective group (R423) -/
  | collGroup (members : List Member)
  /-- Fabric section: CF_TIMEOUT of a die -/
  | cfTimeout (d coll req : Nat)
  /-- Fabric section: CF_AGE of a die -/
  | cfAge (d age : Nat)
  /-- Fabric section: OE_CAL_CFG of an optical engine -/
  | oeCal (e period : Nat)
  /-- Fabric section: whether a fabric port or a host-lane group runs in keep-alive or the slow host mode (R362) -/
  | laneMode (fabric : Bool) (port mode : Nat)
  /-- Cores section: ME_MIRAGE_CFG of a core -/
  | mirage (d c tol rate : Nat)
  /-- Cores section: SYNC_STALL_CFG of a core -/
  | stallCfg (d c interval : Nat)
  /-- Owner keys section: an ML-DSA-44 public key -/
  | ownerKey (key : List Byte)
  /-- Power section: PTM_VDDL.TARGET, PTM_CFG.VDDQ and PTM_CFG.PERIOD of a die -/
  | power (d target vddq period : Nat)
  deriving DecidableEq, Repr

/-- One section of the record: its TYPE, its declared BYTES, the bytes its entries take, and the entries in stored order. -/
structure Section where
  type : Nat
  bytes : Nat
  used : Nat
  entries : List Entry
  deriving DecidableEq, Repr

/-- A configuration record (R437): header fields, sections, and the number of bytes before the signature (DESIGN CHOICE log 13) (DESIGN
CHOICE log 55). -/
structure Record where
  magic : Nat
  format : Nat
  nsect : Nat
  bytes : Nat
  reserved : Nat
  sections : List Section
  deriving DecidableEq, Repr

end Sys2Proof
end

