-- ==== Sys2Proof/Syntax.lean ====
section
/-! DEFINITION. The commands: one constructor per row of spec/opcode_table.json, with the operands that tell which unit acts
and what arrives from outside. Commands without operands stand last. -/

set_option Elab.async false

namespace Sys2Proof

/-- A command or event of the module (DESIGN CHOICE log 1; DESIGN CHOICE log 25). -/
inductive Instr where
  /-- NRESET_LOW (R499): nRESET held low for at least 10 µs on the auxiliary timebase causes a module reset and the rails are removed in
  order. -/
  | nresetLow (ns : Nat)
  /-- NRESET_RISE (R432): The rising edge of nRESET with the input in range marks t0 and starts the start-up sequence. -/
  | nresetRise (v10 : Nat)
  /-- BOOT_FIRMWARE_VERIFY (R435): D0's boot ROM reads the firmware image and checks its format, key digest, ML-DSA signature, SVN floor and
  segment digests. -/
  | bootFirmwareVerify (sigOk : Bool)
  /-- RAILS_UP (R478): The intermediate bus and each die's rails come up in order, followed by one reading of every sensor. -/
  | railsUp (ambient : Int) (readings : List SensorReading)
  /-- CONFIG_LOAD (R439): Firmware is loaded into every die and control core, and the configuration record is checked. -/
  | configLoad (sigOk : Bool)
  /-- STACK_INIT (R432): Each stack calibrates its channels, tests its TSVs, applies the repair log and is cleared with parity. -/
  | stackInit (stk : Nat) (found : StackTest)
  /-- INPUT_SAMPLE (R476): The 10 µs input sample checks the input range and lowers the power cap when input power is above 97 % of the limit. -/
  | inputSample (v10 a10 : Nat)
  /-- DIE_POWER_SAMPLE (R481): The 10 µs die power sample lowers the die cap by 10 mV while the die draws above 410 W. -/
  | diePowerSample (d w stacksW : Nat)
  /-- DIE_CAP_RAISE (R481): Each 1 ms below 380 W, the die cap rises by 10 mV. -/
  | dieCapRaise (d : Nat)
  /-- THROTTLE_LOOP_DEMAND (R484): Each PTM_CFG.PERIOD, the PTM demands a reading of every sensor of the die and its stacks. -/
  | throttleLoopDemand (d : Nat)
  /-- SENSOR_CONVERSION_DONE (R484): A 24 µs conversion completes, and the reading is cross-checked, trims are applied and thresholds and
  caps are acted on. -/
  | sensorConversionDone (d idx : Nat) (temp : Int)
  /-- PTM_TSENSE_REQ_WRITE (R497): A write to PTM_TSENSE_REQ demands one reading of the named sensor, or sets ERR. -/
  | ptmTsenseReqWrite (d : Nat) (value : Word)
  /-- PLDM_SET_STATE_EFFECTER (R493): A PLDM SetStateEffecterStates over I3C requests Dormant or wake. -/
  | pldmSetStateEffecter (on : Bool)
  /-- FAULT_RECORD (R456): An FCU records a detected fault in its log ring, counts it by class and applies the class reaction. -/
  | faultRecord (d id : Nat) (unit : FaultUnit) (task detail : Nat)
  /-- FCU_LOCKSTEP (R469): A mismatch between D0's and D1's decisions, or silence on the safety ring, raises a class M fault. -/
  | fcuLockstep (d : Nat)
  /-- FCU_SELF (R468): A disagreement or parity error in the collector registers raises a class M fault. -/
  | fcuSelf (d : Nat)
  /-- TIMEBASE_CHECK (R459): Each 100 µs window compares the timekeeping oscillator with the safety island's, and raises FCU_TIMEBASE above
  1 %. -/
  | timebaseCheck (d ppm : Nat)
  /-- FCU_PIN_HOLD_WRITE (R471): A write of HOLD drives the FAULT pin low, or releases it. -/
  | fcuPinHoldWrite (value : Word)
  /-- CORE_LOGIC_TEST_DONE (R462): A core logic test ends, and the core is retired or returned to service. -/
  | coreLogicTestDone (d c : Nat) (pass : Bool)
  /-- BAU_SELFTEST_DONE (R461): A bank arithmetic self-test ends, failing groups move to substitute units and the suspect mark clears. -/
  | bauSelftestDone (stk : Nat) (failed : List Nat)
  /-- NOC_PARITY (R463): A parity error at a link or segment receiver is recorded, and the link or segment retrains once. -/
  | nocParity (d : Nat) (linkEnd : Option Nat) (victim : Option (Agent × Target × Bool))
  /-- LINK_RETRAIN_DONE (R463): A die-to-die link or segment retrain completes, and held accesses cross it. -/
  | linkRetrainDone (d : Nat) (linkEnd : Option Nat) (ok : Bool)
  /-- DDL_LINK_DOWN (R463): A second parity error within 1 s, or a retrain over 20 µs, takes the link down, and traffic detours. -/
  | ddlLinkDown (dl : Nat)
  /-- MEMORY_READ (R49): A read reaches the order point of its stack, and returns the last accepted write, poison, or the R42 outcome. -/
  | memoryRead (ag : Agent) (t : Target) (len : Nat) (hold : Nat)
  /-- MEMORY_WRITE (R49): A write is accepted at its order point, becomes visible and is acknowledged, with cross-die parity kept. -/
  | memoryWrite (ag : Agent) (t : Target) (data : List Byte) (poison : Bool)
  /-- DIRECTORY_RECALL (R53): A full directory recalls its least recently allocated line with a back-invalidate snoop, and frees the entry
  on response. -/
  | directoryRecall (d : Nat)
  /-- HOST_CACHE_RESPONSE (R56): A host's answer to a RdShared, RdOwn or back-invalidate completes the internal access or recall that waited
  for it. -/
  | hostCacheResponse (port line : Nat) (data : Option (List Byte))
  /-- OPEN_DONE (R68): A bank reports that a row is open, and the controller sends its next command. -/
  | openDone (b : BankId)
  /-- COLUMN_DONE (R68): A bank reports that a column read, write or arithmetic step has finished. -/
  | columnDone (b : BankId) (symbols : Nat)
  /-- CLOSE_DONE (R68): A bank reports that its row is closed, and held requests or the sequence continue. -/
  | closeDone (b : BankId)
  /-- REFRESH_DONE (R68): A bank reports that a refresh event has completed. -/
  | refreshDone (b : BankId)
  /-- RESULT_READY (R68): A BAU's result FIFO holds a line, which the controller writes or forwards. -/
  | resultReady (b : BankId)
  /-- EV_ERROR (R68): A bank reports an uncorrectable column or a command parity failure. -/
  | evError (b : BankId) (column : Bool)
  /-- SELF_REFRESH_ENTERED (R84): The stack reports self-refresh entered, and the controller stops its oscillators. -/
  | selfRefreshEntered (stk : Nat)
  /-- SELF_REFRESH_EXIT_DONE (R84): The stack reports exit done, and the controller restarts its oscillators and accepts requests. -/
  | selfRefreshExitDone (stk : Nat)
  /-- CHANNEL_HANDSHAKE_TIMEOUT (R69): A handshake incomplete for 1 µs, or a CA or EV parity failure, marks the channel faulty, and TSV
  repair follows. -/
  | channelHandshakeTimeout (stk ch : Nat)
  /-- TSV_REPAIR (R89): A faulty wire is remapped to a spare TSV, retested, and the channel resumes. -/
  | tsvRepair (stk ch : Nat) (control : Bool)
  /-- REQUEST_AGE_LIMIT (R74): A request that reaches its source's age limit becomes urgent. -/
  | requestAgeLimit (b : BankId) (n : Nat)
  /-- IDLE_TIMER_EXPIRY (R76): A bank's idle timer expires, and the controller closes the open row. -/
  | idleTimerExpiry (b : BankId)
  /-- REFRESH_DUE (R81): A bank's refresh falls due, and it is performed, postponed as debt or forced as a burst of nine. -/
  | refreshDue (b : BankId)
  /-- STACK_TSENSE_DEMAND (R80): The refresh scheduler demands a reading of every sensor of the stack at SC_TSENSE_PERIOD. -/
  | stackTsenseDemand (stk : Nat)
  /-- TSENSE_OVERDUE (R80): A reading missing for two periods sets the 0.975 µs refresh interval. -/
  | tsenseOverdue (stk : Nat)
  /-- SR_ENTRY_DELAY_EXPIRY (R84): A stack that stays without requests for SC_SR_ENTRY.DELAY closes rows, pays debts and is sent the
  self-refresh command. -/
  | srEntryDelayExpiry (stk : Nat)
  /-- SCRUB_POSITION (R86): Patrol scrub reads one row position on all dies and the parity die, corrects it and advances. -/
  | scrubPosition (stk : Nat) (errors : List ColumnError) (behind : Bool)
  /-- BANK_RETIRE (R89): A failed bank is served by reconstruction and its copy into a spare bank begins. -/
  | bankRetire (b : BankId)
  /-- BANK_COPY_COMPLETE (R89): A bank copy into a spare completes, and the logical bank is redirected. -/
  | bankCopyComplete (b : BankId)
  /-- DIE_RETIRE (R89): A failed data core die is logged in flash, served by reconstruction, and its rebuild into the parity die starts. -/
  | dieRetire (stk die : Nat)
  /-- REBUILD_POSITION (R92): The rebuild writes one row position's reconstructed row into the parity die and advances the pointer. -/
  | rebuildPosition (stk : Nat)
  /-- PARITY_DIE_FAIL (R505): The parity die fails, and the stack loses parity and the lines that depended on it. -/
  | parityDieFail (stk : Nat)
  /-- BANK_SEQUENCE (R148): A sequence descriptor is accepted, checked, granted a token and run through its operations to result return and
  completion. -/
  | bankSequence (src : Agent) (desc inline : List Byte)
  /-- ACT_TOKEN_GRANT (R150): A free activation token is granted by age, then per-source minimum, then oldest request. -/
  | actTokenGrant (stk : Nat)
  /-- SEQW_DESCRIPTOR_WRITE (R156): A host's 64-byte write to a sequence-window slot starts a sequence, is discarded with OVERRUN, or marks
  the slot malformed. -/
  | seqwDescriptorWrite (ag : Agent) (d slot off : Nat) (data : List Byte)
  /-- SEQUENCE_COMPLETE (R156): A sequence completes, its slot becomes DONE, and the doorbell rings when NOTIFY is set. -/
  | sequenceComplete (id : Nat)
  /-- BLOCK (R191): Opens a block once both streams finished the previous one, and sets the token counters from the presets. -/
  | block (d c : Nat) (x : Bool)
  /-- ENDBLOCK (R181): Closes a replay, with the balance check of the finished replay. -/
  | endblock (d c : Nat) (x : Bool)
  /-- END (R177): Stops the stream. -/
  | streamEnd (d c : Nat) (x : Bool)
  /-- REPLAY_BOUNDARY (R179): A stream moves into the next replay, with the lead stream forming its slot and waiting at the lead limit. -/
  | replayBoundary (d c : Nat) (x : Bool)
  /-- PATCH_APPLY (R180): The control core applies a replay's patch entries to the slot being formed, after any running routine. -/
  | patchApply (d c : Nat)
  /-- LOAD (R171): Walks a pattern and pushes the bytes read into a queue. -/
  | load (d c : Nat)
  /-- STORE (R194): Pops beats from a queue and writes them along a pattern, optionally to LAST. -/
  | store (d c : Nat)
  /-- XFER (R197): Hands a transfer descriptor to DE0 or DE1, optionally behind a fence. -/
  | xfer (d c : Nat)
  /-- WAIT (R278): Waits on a full/empty word and passes when it is full, emptying it with CONSUME. -/
  | wait (d c : Nat)
  /-- SIGNAL (R279): Sets a full/empty word full after earlier writes are acknowledged, and releases waiters. -/
  | signal (d c : Nat)
  /-- BARRIER (R283): The AE releases its writes, arrives at a barrier word and waits for the round. -/
  | barrier (d c : Nat)
  /-- MMA (R220): Runs a matrix product on the matrix engine over column and depth tiles, and pushes the converted outputs. -/
  | mma (d c : Nat)
  /-- VADD (R228): Vector add. -/
  | vadd (d c : Nat)
  /-- VSUB (R228): Vector subtract. -/
  | vsub (d c : Nat)
  /-- VMUL (R228): Vector multiply. -/
  | vmul (d c : Nat)
  /-- VFMA (R228): Vector fused multiply-add with one rounding. -/
  | vfma (d c : Nat)
  /-- VMAX (R228): Lane-wise maximum. -/
  | vmax (d c : Nat)
  /-- VMIN (R228): Lane-wise minimum. -/
  | vmin (d c : Nat)
  /-- VADDI (R228): Adds an immediate to each lane. -/
  | vaddi (d c : Nat)
  /-- VMULI (R228): Multiplies each lane by an immediate. -/
  | vmuli (d c : Nat)
  /-- VEXP (R228): Lane-wise exponential. -/
  | vexp (d c : Nat)
  /-- VRECIP (R228): Lane-wise reciprocal. -/
  | vrecip (d c : Nat)
  /-- VRSQRT (R228): Lane-wise reciprocal square root. -/
  | vrsqrt (d c : Nat)
  /-- VACT (R205): Applies the activation function that the immediate selects. -/
  | vact (d c : Nat)
  /-- VCMP (R205): Lane-wise compare giving 1 or 0. -/
  | vcmp (d c : Nat)
  /-- VSEL (R228): Lane-wise select on C. -/
  | vsel (d c : Nat)
  /-- VCOPY (R228): Copies vectors. -/
  | vcopy (d c : Nat)
  /-- VRED (R229): Reduces groups of G vectors by sum, product, max, min, mean, argmax or argmin. -/
  | vred (d c : Nat)
  /-- VSOFTMAX (R229): Softmax over each group of G vectors. -/
  | vsoftmax (d c : Nat)
  /-- VCVT (R110): Converts rows to or from a narrow format, with scale choice and saturation. -/
  | vcvt (d c : Nat)
  /-- VPERM (R230): Permutes lanes by INT32 indices. -/
  | vperm (d c : Nat)
  /-- VGATHER (R231): Gathers scratchpad table elements through queued indices. -/
  | vgather (d c : Nat)
  /-- OCALL (R250): Hands a call record to the dispatcher and holds the execute stream until the routine returns. -/
  | ocall (d c : Nat)
  /-- OCALL_RETURN (R250): A routine returns, its beat counts are checked, the OCALL retires and its token is credited. -/
  | ocallReturn (d c status : Nat)
  /-- QUEUE_BEAT_ACCEPT (R168): A push or pop that waited at a queue handshake completes, one beat each step. -/
  | queueBeatAccept (d c q : Nat)
  /-- TOKEN_CREDIT (R175): An emitted token is credited when its LAST beat or last write is accepted at its destination. -/
  | tokenCredit (d c : Nat)
  /-- STREAM_FAULT (R183): A stream fault stops both streams, is recorded, and interrupts the control core to abort. -/
  | streamFault (d c kind : Nat) (x : Bool) (q cls : Nat)
  /-- MIRAGE_CHECK (R120): The VE recomputes a sampled tile and compares it, raising NUM_MIRAGE on a failure. -/
  | mirageCheck (d c : Nat)
  /-- KPOP (R239): The CC pops one beat into data memory. -/
  | kpop (d c : Nat) (rs : XReg) (f : XDest)
  /-- KPUSH (R239): The CC pushes 64 bytes as one beat; `q` is imm[4:0] and `side` imm[11:5]. -/
  | kpush (d c rd rs1 v q side : Nat)
  /-- KPWR (R240): Writes a parameter register or stride, or a slot being formed; `n` is imm[5:0] and `side` imm[11:6]. -/
  | kpwr (d c rs1 v n side : Nat)
  /-- KPRD (R239): Reads a parameter register or stride into data memory. -/
  | kprd (d c rs1 imm v : Nat)
  /-- KSUMPOP (R241): Discards the head of the summary FIFO. -/
  | ksumpop (core : CoreId) (f : XDest)
  /-- KWAIT (R278): The CC waits on a full/empty word. -/
  | kwait (d c : Nat) (rs : XReg) (imm : Nat)
  /-- KSIGNAL (R279): The CC sets a full/empty word full. -/
  | ksignal (d c : Nat) (f : XSrc)
  /-- KBARRIER (R283): The CC takes part in a barrier. -/
  | kbarrier (d c : Nat) (rs : XReg) (imm : Nat)
  /-- BARRIER_LEAVE (R282): A participant leaves a completed round, and ROUND advances when the last one leaves. -/
  | barrierLeave (d c off : Nat) (who : Nat)
  /-- DMA_BARRIER_ARRIVE (R283): A DMA engine arrives at a barrier once every earlier transfer and walk has completed. -/
  | dmaBarrierArrive (d c : Nat) (de1 : Bool)
  /-- SYNC_STALL (R287): The stall timer reaches its interval without progress, waits are latched, and the task aborts. -/
  | syncStall (d c : Nat)
  /-- RUN (R243): Empties the summary FIFO and starts both streams at a pair, waiting until both reach END. -/
  | run (d c : Nat)
  /-- BRANCH (R243): Pops the head summary and branches on flags or VALUE. -/
  | branch (d c : Nat)
  /-- JUMP (R243): Continues the control list at the target. -/
  | jump (d c : Nat)
  /-- LOOP (R243): Arms, decrements or disarms a counter and loops. -/
  | loop (d c : Nat)
  /-- CALL (R243): Calls a routine from the control list and waits for it. -/
  | call (d c : Nat)
  /-- SETP (R243): Writes a parameter register from the control list. -/
  | setp (d c : Nat)
  /-- DONE (R351): Ends the core's part of the run after its mirage checks and transfers complete. -/
  | done (d c : Nat)
  /-- NOP (R247): Routine that does nothing. -/
  | nop (d c : Nat)
  /-- SAMPLE (R247): Samples a token index from FP32 logits, failing on a NaN. -/
  | sample (d c : Nat)
  /-- ARGMAX (R247): Returns the index of the largest logit. -/
  | argmax (d c : Nat)
  /-- RMSNORM_FB (R247): Fall-back RMS normalisation in FP32. -/
  | rmsnormFb (d c : Nat)
  /-- LAYERNORM_FB (R247): Fall-back layer normalisation in FP32. -/
  | layernormFb (d c : Nat)
  /-- SEED (R247): Sets the seed for SAMPLE. -/
  | seed (d c : Nat)
  /-- POST_NOTICE (R248): Posts a notice for the core's stream and pushes the result. -/
  | postNotice (d c : Nat)
  /-- POST_NOTICE_RETRY (R248): With WAIT, posts again every 1 µs while the slot is full, for up to 1 ms. -/
  | postNoticeRetry (d c : Nat) (last : Bool)
  /-- CC_ABORT_INTERRUPT (R253): The abort interrupt ends the routines, with shared KV changes finished first. -/
  | ccAbortInterrupt (d c : Nat)
  /-- CC_NOTICE_DISPATCH (R245): After the running routine, the dispatcher runs the routine bound to a mailbox slot for its next notice. -/
  | ccNoticeDispatch (d c : Nat)
  /-- CC_DMA_ERROR_INTERRUPT (R245): A failed DMA completion is returned to the routine that issued it. -/
  | ccDmaErrorInterrupt (d c : Nat) (x : DmaEnd)
  /-- DMA_COPY (R268): Copies tensor elements, with same-layout copies as if through a buffer. -/
  | dmaCopy (d c : Nat) (de1 : Bool) (n : Nat)
  /-- PERMUTE (R266): Copies with permuted dimensions, at one sixteenth of the streaming rate. -/
  | permute (d c : Nat) (de1 : Bool) (n : Nat)
  /-- GATHER (R269): Gathers source rows through an INT32 index tensor. -/
  | gather (d c : Nat) (de1 : Bool) (n : Nat)
  /-- DMA_FILL (R266): Fills the destination slice with an 8-byte pattern. -/
  | dmaFill (d c : Nat) (de1 : Bool) (n : Nat)
  /-- BSEQ (R270): Forwards sequence descriptors to stack controllers after window checks. -/
  | bseq (d c : Nat) (de1 : Bool) (n : Nat)
  /-- TRANSFER_COMPLETE (R272): A transfer completes, its record is written and its word is set full with SIGNAL. -/
  | transferComplete (d c : Nat) (de1 : Bool) (n : Nat)
  /-- NOTICE_POST (R293): An internal agent posts a 16-byte notice into a slot, or is refused with a bus error. -/
  | noticePost (ag : Agent) (d k slot pointer tag : Nat)
  /-- NOTICE_REPOST (R293): A refused hardware sender posts again once the slot has emptied. -/
  | noticeRepost (n : Nat)
  /-- HOST_CAS_POST (R295): A host's 32-byte CAS AtomicOp posts a notice, with SENDER written by the module. -/
  | hostCasPost (port off size : Nat) (compare swap : Nat) (rid : Nat)
  /-- NOTICE_TAKE (R294): A CC or ASEQ receiver takes a notice and empties the slot in one operation. -/
  | noticeTake (d k recv : Nat)
  /-- MAILBOX_HOST_READ (R294): A host reads a notice with one aligned 16-byte read, or the read is refused. -/
  | mailboxHostRead (port off len : Nat)
  /-- MAILBOX_HOST_FREE (R294): A host frees its slot with a 16-byte write of zeros. -/
  | mailboxHostFree (port off : Nat) (data : List Byte)
  /-- DIETIME_LO_READ (R301): A read of MBX_DIETIME_LO latches the high half. -/
  | dietimeLoRead (d : Nat)
  /-- OPEN (R314): Opens a FREE sequence and allocates its page table. -/
  | kvOpen (d c : Nat)
  /-- RESERVE (R314): Reserves frames for tokens and writes the frame list. -/
  | reserve (d c : Nat)
  /-- COMMIT (R314): Sets LENGTH, makes the pages present, and activates the sequence. -/
  | commit (d c : Nat)
  /-- SHARE (R314): Opens a sequence sharing a source's prefix pages by reference. -/
  | share (d c : Nat)
  /-- KV_FREE (R314): Frees a sequence's references, frames and page table. -/
  | kvFree (d c : Nat)
  /-- KV_PREFETCH (R314): Starts the prefetch of every spilled page of a sequence. -/
  | kvPrefetch (d c : Nat)
  /-- KV_ALLOC_PAGE (R316): Allocates one frame per plane for a page that a new token opens. -/
  | kvAllocPage (d c : Nat)
  /-- KV_FRAME_DESC (R316): Pins a page's frame and creates a dynamic BANK descriptor. -/
  | kvFrameDesc (d c : Nat)
  /-- KV_RELEASE_DESC (R316): Invalidates a dynamic descriptor and unpins its frame. -/
  | kvReleaseDesc (d c : Nat)
  /-- KV_POST_STEP (R316): Posts a step notice to an ASEQ slot of its own die. -/
  | kvPostStep (d c : Nat)
  /-- FRAME_PIN (R310): The ring logic pins a frame in IN_USE, or reports it not present. -/
  | framePin (pool bank band slot : Nat)
  /-- FRAME_UNPIN (R317): The ring logic unpins a frame and reclaims an ORPHAN at zero pins. -/
  | frameUnpin (pool bank band slot : Nat)
  /-- COPY_ON_WRITE (R317): A write into a shared frame copies the slot to a new frame and repoints the writer. -/
  | copyOnWrite (model seq plane page : Nat)
  /-- LAB_INVALIDATE (R311): A page-table entry is invalidated in every look-aside buffer before it changes. -/
  | labInvalidate (model seq plane page : Nat)
  /-- SPILL_START (R320): Below the watermark, the far-tier engine starts spilling the oldest eligible frame. -/
  | spillStart (d : Nat)
  /-- SPILL_COMPLETE (R320): A spill's writes are acknowledged, the entry becomes spilled and the frame FREE, or a poisoned read abandons it. -/
  | spillComplete (d n : Nat)
  /-- PREFETCH_START (R321): A prefetch allocates a FILLING frame and reads the far slot. -/
  | prefetchStart (model seq plane page : Nat)
  /-- PREFETCH_COMPLETE (R321): A prefetch's writes are acknowledged after a good CRC, and the entry becomes present. -/
  | prefetchComplete (d n : Nat) (data : List Byte)
  /-- FAR_TIER_PROBE (R322): Every 100 ms after the cause ends, a probe tries to make the far tier reachable again. -/
  | farTierProbe (ok : Bool)
  /-- STEP_DECODE (R326): Appends the new token and then attends over the pages of each row. -/
  | stepDecode (d k n : Nat)
  /-- STEP_ATTEND (R326): Attends over the pages of each row without appending. -/
  | stepAttend (d k n : Nat)
  /-- STEP_APPEND (R326): Appends the new token of each row only. -/
  | stepAppend (d k n : Nat)
  /-- PARTIAL_MERGE (R330): An arriving partial is merged at the merge unit, the die ASEQ or the home ASEQ. -/
  | partialMerge (d k n i : Nat)
  /-- STEP_COMPLETE (R38): With every row done and output writes acknowledged, the header is written and the completion notice sent. -/
  | stepComplete (d k n : Nat)
  /-- CORE_MODE (R332): A page on a stack that cannot take bank sequences is attended by reserved cores. -/
  | coreMode (d k n i : Nat)
  /-- LDR_LOAD (R345): Copies and verifies a task image, then places and writes it, or rejects it. -/
  | ldrLoad (fill : List (List Byte))
  /-- RUN_END (R351): When every core has taken DONE, the run ends and the START is answered OK. -/
  | runEnd (task : Nat)
  /-- TASK_ABORT (R353): A fault aborts a run, and the START is answered REFUSED. -/
  | taskAbort (task fault d c : Nat)
  /-- STREAM_BUFFER_FETCH (R350): A moved allocation is fetched from the far tier into a stream-buffer half. -/
  | streamBufferFetch (task alloc : Nat) (data : List Byte)
  /-- LIGHT_DETECT (R370): A receiver declares light on a lane. -/
  | lightDetect (e lane : Nat)
  /-- TS1 (R370): A training sequence carries the peer's identity, lanes, mode, equalisation request and countdown. -/
  | ts1 (e lane : Nat) (data : List Byte)
  /-- TS2 (R370): After 16 consecutive TS2 and one AM deskew, the port is up. -/
  | ts2 (e lane : Nat) (data : List Byte)
  /-- RATE_CHANGE (R370): At the end of the TS1 countdown, both ends switch to the port's mode. -/
  | rateChange (port : Nat)
  /-- LANE_TRAIN_TIMEOUT (R371): A lane failing a training step within 5 ms is replaced by a spare. -/
  | laneTrainTimeout (e lane : Nat)
  /-- PORT_TRAIN_RESTART (R371): A port not up within 100 ms restarts training at step 2. -/
  | portTrainRestart (port : Nat)
  /-- AM (R366): An alignment marker deskews the port's lanes. -/
  | am (e lane : Nat) (data : List Byte)
  /-- IDLE (R365): Idle control block. -/
  | idle (e lane : Nat)
  /-- FLIT_RECEIVE (R368): A flit is checked and accepted in order, or NAKed, and the frames it carries are delivered. -/
  | flitReceive (port : Nat) (data : List Byte)
  /-- REPLAY_TIMEOUT (R368): With no ACK progress for 5 µs, the sender resends from the oldest outstanding flit. -/
  | replayTimeout (port : Nat)
  /-- LANE_FAIL (R372): A physical lane is declared failed, and a swap begins or the port narrows. -/
  | laneFail (e lane : Nat)
  /-- SWAP_REQ (R373): A swap request moves a logical lane to a spare, with crossing requests resolved. -/
  | swapReq (e : Nat) (data : List Byte)
  /-- SWAP_ACK (R373): A swap acknowledgement completes the swap, followed by a NAK and replay. -/
  | swapAck (e : Nat) (data : List Byte)
  /-- LASER_FAIL (R378): A failed laser triggers HOLD and a move of its wavelength to the spare laser. -/
  | laserFail (e w : Nat)
  /-- HOLD (R378): A HOLD control block suspends swaps and NAKs for a wavelength. -/
  | hold (e : Nat) (data : List Byte)
  /-- HOLD_EXPIRY (R378): The hold time ends. -/
  | holdExpiry (e w : Nat)
  /-- CALIBRATION_STEP (R379): Each PERIOD, the next lane moves to a spare for recalibration, and failed lanes are retested. -/
  | calibrationStep (e : Nat)
  /-- CAL_MOVE (R379): A hitless move switches at the end of the countdown. -/
  | calMove (e : Nat) (data : List Byte)
  /-- CALIBRATION_COMPLETE (R379): A recalibrated lane moves back to its physical lane. -/
  | calibrationComplete (e : Nat)
  /-- WAKE_BLOCK (R381): A WAKE control block wakes a keep-alive fabric port. -/
  | wakeBlock (port : Nat)
  /-- EIDLE (R380): Signals PCIe electrical idle on a host lane. -/
  | eidle (e lane : Nat)
  /-- FILL_BLOCK (R380): Fills host-lane capacity without PCIe bits. -/
  | fillBlock (e lane : Nat)
  /-- HOST_LINK_UP (R387): A host link trains, and the generation and protocols are decided. -/
  | hostLinkUp (port : Nat) (partner speed width : Nat)
  /-- HDM_DECODER_COMMIT (R391): A decoder commit succeeds or sets Error Not Committed. -/
  | hdmDecoderCommit (port n : Nat) (base size ways gran skip : Nat)
  /-- BIAS_FLIP_DEVICE (R394): START with TARGET 1 moves pages to device bias after host lines are obtained. -/
  | biasFlipDevice (port : Nat)
  /-- BIAS_FLIP_HOST (R394): START with TARGET 0 moves pages to host bias after running sequences end. -/
  | biasFlipHost (port : Nat)
  /-- BIAS_PAGE_FLIPPED (R394): A page's flip completes, BIAS_DONE rises, and BUSY clears after the last page. -/
  | biasPageFlipped (port : Nat)
  /-- HOT_RESET (R397): A hot reset or link down retrains the link, uncommits decoders and aborts the port's work. -/
  | hotReset (port : Nat)
  /-- FLR (R397): A function level reset aborts the port's work without touching the link. -/
  | flr (port : Nat)
  /-- CXL_RESET (R397): A CXL Reset drops the port's directory entries and aborts its work. -/
  | cxlReset (port : Nat)
  /-- HOST_FLUSH_TIMEOUT (R396): A flushing read without completion in 10 ms makes the far tier unreachable. -/
  | hostFlushTimeout (port : Nat)
  /-- BEGIN (R451): Starts an image or record transfer. -/
  | begin (path kind value : Nat)
  /-- DATA (R451): Carries transfer bytes at the expected offset. -/
  | data (path kind value : Nat) (data : List Byte)
  /-- TRANSFER_END (R450): Checks the staged image or record, and stores a record. -/
  | transferEnd (path kind : Nat) (sigOk : Bool) (rec : Option Record)
  /-- TRANSFER_STATUS (R451): Reports the transfer's status. -/
  | transferStatus (path kind : Nat)
  /-- GET_VERSION (R449): SPDM version request. -/
  | getVersion (path : Nat)
  /-- GET_CAPABILITIES (R449): SPDM capabilities request. -/
  | getCapabilities (path : Nat)
  /-- NEGOTIATE_ALGORITHMS (R449): SPDM algorithm negotiation for ML-DSA-44 and SHA3-256. -/
  | negotiateAlgorithms (path : Nat)
  /-- GET_DIGESTS (R449): SPDM certificate digests. -/
  | getDigests (path : Nat)
  /-- GET_CERTIFICATE (R449): SPDM certificate chain of slot 0. -/
  | getCertificate (path slot off len : Nat)
  /-- CHALLENGE (R449): SPDM challenge signed with the identity key. -/
  | challenge (path slot : Nat)
  /-- GET_MEASUREMENTS (R449): SPDM measurement blocks. -/
  | getMeasurements (path index : Nat)
  /-- READ (R411): A Caravan read request is checked and answered with READ_RSP. -/
  | read (port : Nat) (frame : List Byte)
  /-- WRITE (R411): A Caravan write is accepted at the order points and answered with WRITE_RSP. -/
  | write (port : Nat) (frame : List Byte)
  /-- NOTICE (R409): A Caravan notice frame posts into a slot, and NOTICE_RSP gives the status. -/
  | notice (port : Nat) (frame : List Byte)
  /-- READ_RSP (R409): Read response that completes a requester's read. -/
  | readRsp (port : Nat) (frame : List Byte)
  /-- WRITE_RSP (R409): Write response that acknowledges a requester's write. -/
  | writeRsp (port : Nat) (frame : List Byte)
  /-- NOTICE_RSP (R409): Notice response carrying the post status. -/
  | noticeRsp (port : Nat) (frame : List Byte)
  /-- CREDIT (R412): Returns buffer credits per class and VC. -/
  | credit (port : Nat) (frame : List Byte)
  /-- DOWN (R422): Marks a module down and spreads the mark to group members. -/
  | down (port : Nat) (frame : List Byte)
  /-- UP (R422): Clears a module's down mark. -/
  | up (port : Nat) (frame : List Byte)
  /-- FRAME_PROMOTE (R413): A frame that waits longer than CF_AGE at an output is promoted. -/
  | framePromote (port n : Nat)
  /-- REQUEST_TIMEOUT (R416): A request unanswered within CF_TIMEOUT.REQ is counted and its destination treated as unreachable. -/
  | requestTimeout (n : Nat)
  /-- ALLREDUCE (R424): Ring reduce and gather over the group. -/
  | allreduce (d slot : Nat)
  /-- REDUCESCATTER (R424): Ring reduce leaving each member its chunk. -/
  | reducescatter (d slot : Nat)
  /-- ALLGATHER (R424): Ring gather of every member's chunk. -/
  | allgather (d slot : Nat)
  /-- HEADMERGE (R425): Binomial-tree merge of softmax partials to the root. -/
  | headmerge (d slot : Nat)
  /-- COLL (R426): A collective frame delivers a chunk or partial, or an abort, to its member. -/
  | coll (port : Nat) (frame : List Byte)
  /-- COLL_TIMEOUT (R427): No expected COLL frame within CF_TIMEOUT.COLL completes the collective REFUSED. -/
  | collTimeout (d n : Nat)
  /-- MGMT_GO (R442): A GO write submits the record at BTS_MGMT_ADDR, or is discarded with ERR_BUSY or ERR_ADDR. -/
  | mgmtGo (port : Nat) (value : Word)
  /-- MCTP_MANAGEMENT (R442): A management request arrives as an MCTP message over I3C. -/
  | mctpManagement (rec sig : List Byte)
  /-- SET (R444): Writes an RWL register of a stopped unit under an owner signature. -/
  | set (sigOk : Bool)
  /-- MEMORY_SELFTEST_DONE (R447): A destructive memory test ends with spares applied and the stack cleared. -/
  | memorySelftestDone (stk : Nat) (failedDies : List Nat)
  /-- FW_COMMIT (R450): Writes the staged image to flash and reads it back. -/
  | fwCommit (sigOk : Bool)
  /-- SVN_COMMIT (R436): Raises the fused SVN floor to the running image's SVN. -/
  | svnCommit (sigOk : Bool)
  /-- RESET (R454): An owner-signed module reset request. -/
  | reset (sigOk : Bool)
  /-- RECOVERY_IMAGE (R453): In recovery, an image received by DOE or Caravan is checked, written to flash, and the module resets. -/
  | recoveryImage (sigOk : Bool)
  /-- ENTDAA (R500): I3C dynamic address assignment. -/
  | entdaa (addr : Nat)
  /-- REGISTER_WRITE (R19): A write to a register without a row of its own acts by its access type, discarding reserved encodings. -/
  | registerWrite (ag : Agent) (addr : Nat) (value : Word)
  /-- BUS_MASTER_ENABLE_WRITE (R395): A host sets or clears Bus Master Enable in its port's configuration space, which releases or holds the
  module's MSI-X writes, far-tier traffic and loader reads on that port. -/
  | busMasterEnableWrite (port : Nat) (on : Bool)
  /-- BLOCK_ALIGNMENT_FOUND (R364): A host-mode lane receiver finds block alignment from the header bits, and the module reports a receiver
  present on that lane. -/
  | blockAlignmentFound (e lane : Nat)
  /-- SELFTEST_IDLE_WAIT_EXPIRY (R447): A core SELFTEST that has waited 1 s without its core reading Idle completes with REFUSED, reason
  0x0095. -/
  | selftestIdleWaitExpiry (d c : Nat)
  /-- LASER_RELOCK (R378): The spare laser of a wavelength reaches lock after the switch, its lanes carry traffic again and the replay
  completes within 30 µs. -/
  | laserRelock (e w : Nat)
  /-- AUX_POWER_UP (R492): The auxiliary supply comes up, the safety islands and D0's boot ROM are powered, and the module enters Standby. -/
  | auxPowerUp
  /-- AUX_POWER_LOSS (R454): Loss of auxiliary power causes a module reset with cause 0x0. -/
  | auxPowerLoss
  /-- WARMUP_STALLED (R490): After 600 s in Warm-up, PTM_STATUS.WARMUP_STALLED is set. -/
  | warmupStalled
  /-- LASER_START (R432): The lasers of every optical engine start, and host lanes begin training. -/
  | laserStart
  /-- LASER_LOCK (R432): The lasers reach wavelength lock, and fabric ports begin training. -/
  | laserLock
  /-- ENTER_READY (R432): Once steps 3 and 6 are done, Memory_Active is set on every host port and the module enters Ready. -/
  | enterReady
  /-- POWER_CAP_RAISE (R480): Each 1 ms below 90 % of the input limit, the power cap of every die rises by 10 mV. -/
  | powerCapRaise
  /-- PHASE_FAIL (R482): A failed power phase is shed, PTM_PHASE is recorded and the phase limit is recomputed. -/
  | phaseFail
  /-- ENTER_DORMANT (R493): A Dormant request is refused or accepted, and an accepted one puts stacks, ports and VDDL into their dormant
  settings. -/
  | enterDormant
  /-- DORMANT_ENTRY_COMPLETE (R493): Dormant entry completes within 8 ms, and the module wakes at once if work was held. -/
  | dormantEntryComplete
  /-- WAKE (R496): A wake cause restores the phases and VDDL, takes stacks out of self-refresh and retrains links. -/
  | wake
  /-- WAKE_COMPLETE (R496): The module reaches Ready after wake, and held traffic is served. -/
  | wakeComplete
  /-- SAFE_STATE_ENTRY (R465): A class M fault is sent on the safety ring, decided and compared, and the module stops work, blocks writes
  and enters Safe. -/
  | safeStateEntry
  /-- AUTOMATIC_RESET (R467): FCU_SAFE_CFG.RESTART seconds after entering Safe, once temperatures and input are in range, the module resets
  with cause 0x4. -/
  | automaticReset
  /-- FAULT_LOG_FLUSH (R472): D0 writes pending class N, D and M records to the flash fault log, at most once per second and at once for
  class M. -/
  | faultLogFlush
  /-- HEARTBEAT_TOGGLE (R470): In heartbeat mode, the FAULT pin toggles to form a 1 kHz square wave. -/
  | heartbeatToggle
  /-- FAULT_PULSE_END (R470): In pulse mode, after at least 500 µs low, FAULT returns high unless HOLD is 1. -/
  | faultPulseEnd
  /-- FAR_TIER_UNREACHABLE (R322): The far tier becomes unreachable, transfers in flight are abandoned and waiting rows refused. -/
  | farTierUnreachable
  /-- LDR_START (R351): Prepares every core of a task and starts a run. -/
  | ldrStart
  /-- LDR_ABORT (R353): Abandons a LOAD or aborts a run across all its cores. -/
  | ldrAbort
  /-- LDR_RELEASE (R355): Frees a task's sequences, allocations, cores and ID. -/
  | ldrRelease
  /-- MGMT_STOP (R445): Stops a port, stack, cluster or core. -/
  | mgmtStop
  /-- MGMT_START (R444): Restarts a stopped unit. -/
  | mgmtStart
  /-- SELFTEST (R447): Starts a port, core, bank arithmetic or memory self-test. -/
  | selftest
  /-- TSENSE (R446): Demands one reading of the unit's hottest sensor. -/
  | tsense
  /-- SETDASA (R500): I3C static address assignment at 0x50 plus STRAP. -/
  | setdasa
  deriving DecidableEq, Repr

end Sys2Proof
end

