-- ==== Sys2Proof/Decode.lean ====
section
/-! DEFINITION. The command that a word spells. The table gives no row any bits, so no word spells a command. -/

set_option Elab.async false

namespace Sys2Proof

/-- The command whose bits are `w`: none for every word (DESIGN CHOICE log 24). -/
def decodeTableWord (_nbits _w : Nat) : Option Instr := none

end Sys2Proof
end

