-- ==== Sys2Proof/Config.lean ====
section
/-! DEFINITION. What an implementation fixes and the spec leaves open: opaque constants, so that no proof can see a value. -/

set_option Elab.async false

namespace Sys2Proof.Config

/-- The logic sensor nearest to the timekeeping oscillator and voltage references of a die (R486 names no position) (DESIGN CHOICE log 31). -/
opaque trimSensor : Nat → Nat

/-- A fresh value for each counter reading (DESIGN CHOICE log 10). -/
opaque freeValue : Nat → Nat

/-- SHA3-256 (FIPS 202), which the spec names and does not define (DESIGN CHOICE log 12). -/
opaque sha3Digest : List Byte → BitVec 256

/-- A SHA3-256 digest as a little-endian number. -/
def sha3 (bs : List Byte) : Nat := (sha3Digest bs).toNat

/-- Ongor's firmware-signing key, an ML-DSA-44 public key of 1,312 bytes (R434) (DESIGN CHOICE log 12). -/
opaque firmwareKey : Vector Byte 1312

/-- The digest of that key, fixed in the ROM (R435) (DESIGN CHOICE log 12). -/
def romKeyDigest : Nat := sha3 firmwareKey.toList

/-- The SHA3-256 digest of the boot ROM (R449) (DESIGN CHOICE log 12). -/
opaque romDigest : Nat

/-- The escape bitmap word (R113) of a bank sequence's rows that covers blocks 64w to 64w + 63, from its escape area and w. The descriptor
names the area of the entries and not where the bitmap lies (DESIGN CHOICE log 17). -/
opaque escapeWord : List Byte → Nat → Nat

/-- The escape entries of an area that a sequence's rows need (DESIGN CHOICE log 17). -/
opaque escapeCount : List Byte → Nat

/-- The bytes of a poisoned line as a reader sees them for which no rule states what follows, from the counter of free values and the address
(DESIGN CHOICE log 68). -/
opaque poisonBytes : Nat → Nat → Nat

/-- Which of the results within its bound a function gives for an operand (R125, R228, DESIGN CHOICE log 11). -/
opaque ulp : Nat → Nat → Nat

/-- Which of SAMPLE's unmasked logits is drawn, from the logits, the sampling block, the seed and a fresh number (DESIGN CHOICE log 14). -/
opaque sampleIndex : List Nat → List Byte → Nat → Nat → Nat

/-- The row length that the argument block of a fall-back normalisation gives (DESIGN CHOICE log 14). -/
opaque normRow : List Byte → Nat

/-- Which of a task's models a mailbox slot is bound to, by die, cluster and slot: a BIND entry has no field for it (R323) (DESIGN CHOICE
log 59). -/
opaque slotModel : Nat → Nat → Nat → Nat

/-- The FP32 word of ε that the argument block of a fall-back normalisation gives (DESIGN CHOICE log 14). -/
opaque normEps : List Byte → Nat

end Sys2Proof.Config
end

