-- ==== Sys2Proof/Machine/Maps.lean ====
section
/-! DEFINITION. Operations on sorted association lists, on bit fields and on little-endian bytes. -/

set_option Elab.async false

namespace Sys2Proof

/-- The value at key `k`, or `d` where the map has none. -/
def mget {α : Type} (d : α) : NMap α → Nat → α
  | [], _ => d
  | (j, v) :: m, k => if j = k then v else if k < j then d else mget d m k

/-- The value at key `k`, if any. -/
def mfind {α : Type} : NMap α → Nat → Option α
  | [], _ => none
  | (j, v) :: m, k => if j = k then some v else if k < j then none else mfind m k

/-- The map with `v` at key `k`. -/
def mput {α : Type} : NMap α → Nat → α → NMap α
  | [], k, v => [(k, v)]
  | (j, w) :: m, k, v =>
    if j = k then (k, v) :: m else if k < j then (k, v) :: (j, w) :: m else (j, w) :: mput m k v

/-- The map without key `k`. -/
def mdel {α : Type} : NMap α → Nat → NMap α
  | [], _ => []
  | (j, w) :: m, k => if j = k then m else if k < j then (j, w) :: m else (j, w) :: mdel m k

/-- The map that reads `v` at `k`, where a missing key reads `d`: writing `d` removes the entry. -/
def mset {α : Type} [DecidableEq α] (d : α) (m : NMap α) (k : Nat) (v : α) : NMap α :=
  if v = d then mdel m k else mput m k v

/-- Whether every key of the map lies above `k`. -/
def mAbove {α : Type} (k : Nat) : NMap α → Bool
  | [] => true
  | (j, _) :: _ => decide (k < j)

/-- The canonical form: keys strictly rising and no entry equal to the default `d`. -/
def mwf {α : Type} [DecidableEq α] (d : α) : NMap α → Bool
  | [] => true
  | (j, v) :: m => mAbove j m && decide (v ≠ d) && mwf d m

/-- 1 for true. -/
def flag (b : Bool) : Nat := if b then 1 else 0

/-- Bits [hi:lo] of `n`, numbered as R18 numbers them. -/
def bits (n hi lo : Nat) : Nat := (n >>> lo) % 2 ^ (hi + 1 - lo)

/-- Bit `i` of `n`. -/
def bit (n i : Nat) : Bool := bits n i i == 1

/-- `n` with bits [hi:lo] replaced by the low bits of `v`. -/
def setBits (n hi lo v : Nat) : Nat :=
  (n >>> (hi + 1)) <<< (hi + 1) + (v % 2 ^ (hi + 1 - lo)) <<< lo + n % 2 ^ lo

/-- The number that bytes spell, least significant first. -/
def leNat : List Byte → Nat
  | [] => 0
  | b :: bs => b.toNat + 256 * leNat bs

/-- The `k` little-endian bytes of `n`. -/
def leBytes : Nat → Nat → List Byte
  | 0, _ => []
  | k + 1, n => BitVec.ofNat 8 n :: leBytes k (n / 256)

/-- `len` bytes of `bs` from offset `off`, as a little-endian number (bytes past the end read 0). -/
def field (bs : List Byte) (off len : Nat) : Nat := leNat ((bs.drop off).take len)

/-- The list with the entries from `off` on replaced by `new`, up to the list's length. -/
def splice {α : Type} (l : List α) (off : Nat) (new : List α) : List α :=
  (l.take off ++ new.take (l.length - off)) ++ l.drop (off + new.length)

/-- The list padded with `d` to length `n`, or cut to it. -/
def padTo {α : Type} (n : Nat) (d : α) (l : List α) : List α := (l ++ List.replicate (n - l.length) d).take n

/-- The list with entry `i` replaced by its image under `f`. -/
def modAt {α : Type} (f : α → α) : List α → Nat → List α
  | [], _ => []
  | a :: l, 0 => f a :: l
  | a :: l, i + 1 => a :: modAt f l i

/-- The list without its first entry that satisfies `p`. -/
def dropFirst {α : Type} (p : α → Bool) : List α → List α
  | [] => []
  | a :: l => if p a then l else a :: dropFirst p l

/-- Smaller of a number and a bound, for counters that saturate. -/
def satTo (bound n : Nat) : Nat := if n ≤ bound then n else bound

/-- `n` rounded down to a multiple of `k`. -/
def alignDown (n k : Nat) : Nat := n / k * k

/-- `n` rounded up to a multiple of `k`. -/
def alignUp (n k : Nat) : Nat := (n + k - 1) / k * k

/-- The number of one bits among the low `k` bits of `n`. -/
def popCount : Nat → Nat → Nat
  | 0, _ => 0
  | k + 1, n => n % 2 + popCount k (n / 2)

/-- The numbers below `n` whose bit of `m` is 1. -/
def bitSet (n m : Nat) : List Nat := (List.range n).filter fun i => bit m i

/-- The number with exactly the listed bits set. -/
def ofBitSet : List Nat → Nat
  | [] => 0
  | i :: l => (ofBitSet l) ||| 2 ^ i

end Sys2Proof
end

