-- ==== Sys2Proof/Machine/Regs.lean ====
section
/-! DEFINITION. The register map: every register that the chapters name, where it lies in a die's register space (R18, R22),
its fields with their access types (R19) and reset values. -/

set_option Elab.async false

namespace Sys2Proof

/-- The access types of R19. -/
inductive Access where
  | ro
  | rw
  | rw1c
  | wo
  | rwl
  deriving DecidableEq, Repr

/-- One named field of a register: bits [hi:lo], its access type and its reset value. -/
structure RegField where
  hi : Nat
  lo : Nat
  acc : Access
  rst : Nat
  deriving DecidableEq, Repr

/-- The registers of a die's register space, under the names the chapters give them. -/
inductive Reg where
  /-- chapter 00, R7 -/
  | BTS_FUSE_GRADE
  /-- chapter 00, R7 -/
  | BTS_FUSE_CORE_LO
  /-- chapter 00, R7 -/
  | BTS_FUSE_CORE_HI
  /-- chapter 00, R7 -/
  | BTS_FUSE_DE1_LO
  /-- chapter 00, R7 -/
  | BTS_FUSE_DE1_HI
  /-- chapter 02, R63 -/
  | NOC_DIR_STATUS
  /-- chapter 02, R63 -/
  | NOC_MAPERR_INFO
  /-- chapter 02, R63 -/
  | NOC_MAPERR_ADDR_LO
  /-- chapter 02, R63 -/
  | NOC_MAPERR_ADDR_HI
  /-- chapter 03, R96 -/
  | SC_STATUS
  /-- chapter 03, R96 -/
  | SC_REBUILD_PROGRESS
  /-- chapter 03, R96 -/
  | SC_IDLE_TIMER
  /-- chapter 03, R96 -/
  | SC_ACT_BUDGET
  /-- chapter 03, R96 -/
  | SC_ACT_HELD
  /-- chapter 03, R96 -/
  | SC_REFRESH_DEBT
  /-- chapter 03, R96 -/
  | SC_SR_ENTRY
  /-- chapter 03, R96 -/
  | SC_TSENSE_PERIOD
  /-- chapter 03, R96 -/
  | SC_AGE_LIMIT
  /-- chapter 03, R96 -/
  | SC_SCRUB_PERIOD
  /-- chapter 03, R96 -/
  | SC_SCRUB_STATUS
  /-- chapter 03, R96 -/
  | SC_ECC_COUNT
  /-- chapter 03, R96 -/
  | SC_POISON_COUNT
  /-- chapter 03, R96 -/
  | SC_TSV_STATUS
  /-- chapter 04, R128 -/
  | ME_SENT_SAT
  /-- chapter 04, R128 -/
  | ME_SENT_SCALE
  /-- chapter 04, R128 -/
  | VE_SENT_SAT
  /-- chapter 04, R128 -/
  | VE_SENT_SCALE
  /-- chapter 04, R128 -/
  | ME_MIRAGE_CFG
  /-- chapter 04, R128 -/
  | ME_MIRAGE_CHECKED
  /-- chapter 04, R129 -/
  | SC_BAU_SENT
  /-- chapter 05, R160 -/
  | SC_ACT_SHARE
  /-- chapter 05, R161 -/
  | SEQW_RANGE
  /-- chapter 05, R161 -/
  | SEQW_ERR
  /-- chapter 06, R184 -/
  | SFE_STATUS
  /-- chapter 06, R184 -/
  | SFE_REPLAY_A
  /-- chapter 06, R184 -/
  | SFE_REPLAY_X
  /-- chapter 06, R184 -/
  | SFE_FAULT_INFO
  /-- chapter 06, R184 -/
  | SFE_FAULT_REPLAY
  /-- chapter 06, R184 -/
  | SFE_TOKEN_COUNT
  /-- chapter 06, R184 -/
  | SPM_QUEUE_NONEMPTY
  /-- chapter 06, R184 -/
  | SPM_ECC_COUNT
  /-- chapter 08, R235 -/
  | VE_RANGE_COUNT
  /-- chapter 08, R235 -/
  | VE_FAULT_INFO
  /-- chapter 08, R235 -/
  | VE_FAULT_VECTOR
  /-- chapter 08, R235 -/
  | VE_FAULT_VALUE
  /-- chapter 09, R254 -/
  | CC_STATUS
  /-- chapter 09, R254 -/
  | CC_OASIS_VERSION
  /-- chapter 09, R254 -/
  | CC_CALL
  /-- chapter 09, R254 -/
  | CC_FAULT_INFO
  /-- chapter 09, R254 -/
  | CC_FAULT_REPLAY
  /-- chapter 10, R275 -/
  | DE_STATUS
  /-- chapter 10, R275 -/
  | DE_ERROR
  /-- chapter 10, R275 -/
  | DE_ERROR_TAG
  /-- chapter 10, R275 -/
  | DE_BYTES
  /-- chapter 11, R299 -/
  | SYNC_STALL_CFG
  /-- chapter 11, R299 -/
  | SYNC_STALL_INFO
  /-- chapter 11, R299 -/
  | SYNC_STALL_ARG_A
  /-- chapter 11, R299 -/
  | SYNC_STALL_ARG_X
  /-- chapter 11, R300 -/
  | MBX_NOTICE
  /-- chapter 11, R300 -/
  | MBX_BIND
  /-- chapter 11, R300 -/
  | MBX_FULL
  /-- chapter 11, R300 -/
  | MBX_REJECT
  /-- chapter 11, R301 -/
  | MBX_DIETIME_LO
  /-- chapter 11, R301 -/
  | MBX_DIETIME_HI
  /-- chapter 12, R333 -/
  | KVM_POOL_FREE
  /-- chapter 12, R333 -/
  | KVM_POOL_LOW
  /-- chapter 12, R333 -/
  | KVM_FAR_STATUS
  /-- chapter 12, R333 -/
  | KVM_FAR_COUNT
  /-- chapter 12, R333 -/
  | KVM_CRC_ERR
  /-- chapter 12, R333 -/
  | KVM_LAB_STAT
  /-- chapter 12, R334 -/
  | ASEQ_STATUS
  /-- chapter 12, R334 -/
  | ASEQ_CORES
  /-- chapter 12, R334 -/
  | ASEQ_ERR
  /-- chapter 13, R357 -/
  | LDR_STATUS
  /-- chapter 13, R357 -/
  | LDR_REJ_LAST
  /-- chapter 13, R357 -/
  | LDR_SUBMIT_BIND
  /-- chapter 13, R357 -/
  | LDR_TASK_STATE
  /-- chapter 14, R383 -/
  | OE_STATUS
  /-- chapter 14, R383 -/
  | OE_LANE_MAP
  /-- chapter 14, R383 -/
  | OE_LANE_FAILED_LO
  /-- chapter 14, R383 -/
  | OE_LANE_FAILED_HI
  /-- chapter 14, R383 -/
  | OE_FEC_CORR
  /-- chapter 14, R383 -/
  | OE_FEC_UNCORR
  /-- chapter 14, R383 -/
  | OE_REPLAY
  /-- chapter 14, R383 -/
  | OE_SWAP_COUNT
  /-- chapter 14, R383 -/
  | OE_CAL_CFG
  /-- chapter 15, R403 -/
  | HP_CFG
  /-- chapter 15, R403 -/
  | HP_STATUS
  /-- chapter 16, R429 -/
  | CF_ID
  /-- chapter 16, R429 -/
  | CF_PORT_STATUS
  /-- chapter 16, R429 -/
  | CF_TIMEOUT
  /-- chapter 16, R429 -/
  | CF_AGE
  /-- chapter 16, R429 -/
  | CF_ERR
  /-- chapter 16, R429 -/
  | CF_DENIED
  /-- chapter 16, R429 -/
  | CF_COLL_STATUS
  /-- chapter 16, R430 -/
  | DDL_STATUS
  /-- chapter 17, R455 -/
  | BTS_BOOT_STATUS
  /-- chapter 17, R455 -/
  | BTS_RESET_CAUSE
  /-- chapter 17, R455 -/
  | BTS_FW_VERSION
  /-- chapter 17, R455 -/
  | BTS_SVN
  /-- chapter 17, R455 -/
  | BTS_MGMT_ADDR_LO
  /-- chapter 17, R455 -/
  | BTS_MGMT_ADDR_HI
  /-- chapter 17, R455 -/
  | BTS_MGMT_CTL
  /-- chapter 17, R455 -/
  | BTS_MGMT_STATUS
  /-- chapter 18, R474 -/
  | FCU_STATUS
  /-- chapter 18, R474 -/
  | FCU_COUNT_C
  /-- chapter 18, R474 -/
  | FCU_COUNT_N
  /-- chapter 18, R474 -/
  | FCU_COUNT_D
  /-- chapter 18, R474 -/
  | FCU_LOG_HEAD
  /-- chapter 18, R474 -/
  | FCU_LOG_SEL
  /-- chapter 18, R474 -/
  | FCU_LOG_DATA
  /-- chapter 18, R474 -/
  | FCU_PIN_CFG
  /-- chapter 18, R474 -/
  | FCU_PIN_HOLD
  /-- chapter 18, R474 -/
  | FCU_SAFE_CFG
  /-- chapter 18, R474 -/
  | FCU_CORE_RETIRED_LO
  /-- chapter 18, R474 -/
  | FCU_CORE_RETIRED_HI
  /-- chapter 18, R474 -/
  | FCU_SUSPECT
  /-- chapter 18, R474 -/
  | FCU_FLOG_SEL
  /-- chapter 18, R474 -/
  | FCU_FLOG_COUNT
  /-- chapter 18, R474 -/
  | FCU_FLOG_DATA
  /-- chapter 19, R497 -/
  | PTM_STATE
  /-- chapter 19, R497 -/
  | PTM_STATUS
  /-- chapter 19, R497 -/
  | PTM_VDDL
  /-- chapter 19, R497 -/
  | PTM_CFG
  /-- chapter 19, R497 -/
  | PTM_TSENSE_REQ
  /-- chapter 19, R497 -/
  | PTM_TSENSE_DATA
  /-- chapter 19, R497 -/
  | PTM_TEMP_MAX
  /-- chapter 19, R497 -/
  | PTM_EXCLUDED
  /-- chapter 19, R497 -/
  | PTM_DIE_POWER
  /-- chapter 19, R498 -/
  | PTM_STATE_CTL
  /-- chapter 19, R498 -/
  | PTM_INPUT
  /-- chapter 19, R498 -/
  | PTM_INPUT_POWER
  deriving DecidableEq, Repr

/-- Where a register lies: `base`, then `units` copies `unitStride` bytes apart (stacks, cores, clusters or engines of the
die), each an array of `count` registers `stride` bytes apart. `d0` marks registers that act on D0 only. -/
structure RegRow where
  base : Nat
  units : Nat
  unitStride : Nat
  count : Nat
  stride : Nat
  d0 : Bool
  fields : List RegField
  deriving DecidableEq, Repr

/-- The row of each register, from its chapter's register section (DESIGN CHOICE log 3). -/
def Reg.row : Reg → RegRow
  | .BTS_FUSE_GRADE => ⟨0x300100, 1, 0x0, 1, 0x0, false, [⟨7, 0, .ro, 0x0⟩]⟩
  | .BTS_FUSE_CORE_LO => ⟨0x300104, 1, 0x0, 1, 0x0, false, [⟨31, 0, .ro, 0x0⟩]⟩
  | .BTS_FUSE_CORE_HI => ⟨0x300108, 1, 0x0, 1, 0x0, false, [⟨31, 0, .ro, 0x0⟩]⟩
  | .BTS_FUSE_DE1_LO => ⟨0x30010c, 1, 0x0, 1, 0x0, false, [⟨31, 0, .ro, 0x0⟩]⟩
  | .BTS_FUSE_DE1_HI => ⟨0x300110, 1, 0x0, 1, 0x0, false, [⟨31, 0, .ro, 0x0⟩]⟩
  | .NOC_DIR_STATUS => ⟨0xe00200, 1, 0x0, 1, 0x0, false, [⟨31, 31, .ro, 0x0⟩, ⟨22, 0, .ro, 0x0⟩]⟩
  | .NOC_MAPERR_INFO => ⟨0xe00210, 1, 0x0, 1, 0x0, false, [⟨31, 31, .rw1c, 0x0⟩, ⟨30, 30, .rw1c, 0x0⟩, ⟨11, 8, .ro, 0x0⟩, ⟨7, 7, .ro, 0x0⟩, ⟨6, 0, .ro, 0x0⟩]⟩
  | .NOC_MAPERR_ADDR_LO => ⟨0xe00214, 1, 0x0, 1, 0x0, false, [⟨31, 0, .ro, 0x0⟩]⟩
  | .NOC_MAPERR_ADDR_HI => ⟨0xe00218, 1, 0x0, 1, 0x0, false, [⟨15, 0, .ro, 0x0⟩]⟩
  | .SC_STATUS => ⟨0x600000, 4, 0x10000, 1, 0x0, false, [⟨27, 24, .ro, 0x6⟩, ⟨23, 23, .ro, 0x1⟩, ⟨20, 16, .ro, 0x1f⟩, ⟨15, 12, .ro, 0x0⟩]⟩
  | .SC_REBUILD_PROGRESS => ⟨0x600004, 4, 0x10000, 1, 0x0, false, [⟨22, 0, .ro, 0x0⟩]⟩
  | .SC_IDLE_TIMER => ⟨0x600010, 4, 0x10000, 1, 0x0, false, [⟨8, 0, .rwl, 0x18⟩]⟩
  | .SC_ACT_BUDGET => ⟨0x600014, 4, 0x10000, 1, 0x0, false, [⟨25, 16, .ro, 0x200⟩, ⟨9, 0, .rwl, 0x200⟩]⟩
  | .SC_ACT_HELD => ⟨0x600018, 4, 0x10000, 1, 0x0, false, [⟨9, 0, .ro, 0x0⟩]⟩
  | .SC_REFRESH_DEBT => ⟨0x600020, 4, 0x10000, 1, 0x0, false, [⟨23, 20, .ro, 0x0⟩, ⟨19, 18, .ro, 0x0⟩, ⟨15, 0, .rw1c, 0x0⟩]⟩
  | .SC_SR_ENTRY => ⟨0x600024, 4, 0x10000, 1, 0x0, false, [⟨11, 0, .rwl, 0xa⟩]⟩
  | .SC_TSENSE_PERIOD => ⟨0x600028, 4, 0x10000, 1, 0x0, false, [⟨7, 0, .rwl, 0xa⟩]⟩
  | .SC_AGE_LIMIT => ⟨0x600030, 4, 0x10000, 1, 0x0, false, [⟨23, 16, .rwl, 0x28⟩, ⟨15, 8, .rwl, 0x14⟩, ⟨7, 0, .rwl, 0x14⟩]⟩
  | .SC_SCRUB_PERIOD => ⟨0x600034, 4, 0x10000, 1, 0x0, false, [⟨4, 0, .rwl, 0x18⟩]⟩
  | .SC_SCRUB_STATUS => ⟨0x600038, 4, 0x10000, 1, 0x0, false, [⟨31, 31, .ro, 0x0⟩, ⟨22, 0, .ro, 0x0⟩]⟩
  | .SC_ECC_COUNT => ⟨0x600040, 4, 0x10000, 1, 0x0, false, [⟨31, 16, .rw1c, 0x0⟩, ⟨15, 0, .rw1c, 0x0⟩]⟩
  | .SC_POISON_COUNT => ⟨0x600044, 4, 0x10000, 1, 0x0, false, [⟨15, 0, .ro, 0x0⟩]⟩
  | .SC_TSV_STATUS => ⟨0x600048, 4, 0x10000, 1, 0x0, false, [⟨22, 16, .ro, 0x0⟩, ⟨8, 0, .ro, 0x0⟩]⟩
  | .ME_SENT_SAT => ⟨0x1038000, 64, 0x40000, 1, 0x0, false, [⟨31, 0, .rw1c, 0x0⟩]⟩
  | .ME_SENT_SCALE => ⟨0x1038004, 64, 0x40000, 1, 0x0, false, [⟨31, 0, .rw1c, 0x0⟩]⟩
  | .VE_SENT_SAT => ⟨0x1038010, 64, 0x40000, 1, 0x0, false, [⟨31, 0, .rw1c, 0x0⟩]⟩
  | .VE_SENT_SCALE => ⟨0x1038014, 64, 0x40000, 1, 0x0, false, [⟨31, 0, .rw1c, 0x0⟩]⟩
  | .ME_MIRAGE_CFG => ⟨0x1038020, 64, 0x40000, 1, 0x0, false, [⟨12, 8, .rwl, 0xa⟩, ⟨3, 0, .rwl, 0x8⟩]⟩
  | .ME_MIRAGE_CHECKED => ⟨0x1038024, 64, 0x40000, 1, 0x0, false, [⟨31, 0, .rw1c, 0x0⟩]⟩
  | .SC_BAU_SENT => ⟨0x600050, 4, 0x10000, 1, 0x0, false, [⟨31, 16, .rw1c, 0x0⟩, ⟨15, 0, .rw1c, 0x0⟩]⟩
  | .SC_ACT_SHARE => ⟨0x600060, 4, 0x10000, 1, 0x0, false, [⟨23, 16, .rwl, 0x10⟩, ⟨15, 8, .rwl, 0x10⟩, ⟨7, 0, .rwl, 0x20⟩]⟩
  | .SEQW_RANGE => ⟨0x640000, 1, 0x0, 8, 0x4, false, [⟨31, 31, .rwl, 0x0⟩, ⟨27, 24, .rwl, 0x0⟩, ⟨23, 12, .rwl, 0x0⟩, ⟨11, 0, .rwl, 0x0⟩]⟩
  | .SEQW_ERR => ⟨0x640020, 1, 0x0, 1, 0x0, false, [⟨31, 16, .rw1c, 0x0⟩, ⟨15, 0, .rw1c, 0x0⟩]⟩
  | .SFE_STATUS => ⟨0x1030000, 64, 0x40000, 1, 0x0, false, [⟨31, 28, .ro, 0x0⟩, ⟨17, 16, .ro, 0x0⟩, ⟨7, 0, .ro, 0x0⟩]⟩
  | .SFE_REPLAY_A => ⟨0x1030004, 64, 0x40000, 1, 0x0, false, [⟨23, 0, .ro, 0x0⟩]⟩
  | .SFE_REPLAY_X => ⟨0x1030008, 64, 0x40000, 1, 0x0, false, [⟨23, 0, .ro, 0x0⟩]⟩
  | .SFE_FAULT_INFO => ⟨0x1030010, 64, 0x40000, 1, 0x0, false, [⟨31, 31, .rw1c, 0x0⟩, ⟨27, 24, .ro, 0x0⟩, ⟨23, 23, .ro, 0x0⟩, ⟨20, 16, .ro, 0x0⟩, ⟨15, 12, .ro, 0x0⟩, ⟨11, 0, .ro, 0x0⟩]⟩
  | .SFE_FAULT_REPLAY => ⟨0x1030014, 64, 0x40000, 1, 0x0, false, [⟨23, 0, .ro, 0x0⟩]⟩
  | .SFE_TOKEN_COUNT => ⟨0x1030020, 64, 0x40000, 4, 0x4, false, [⟨31, 24, .ro, 0x0⟩, ⟨23, 16, .ro, 0x0⟩, ⟨15, 8, .ro, 0x0⟩, ⟨7, 0, .ro, 0x0⟩]⟩
  | .SPM_QUEUE_NONEMPTY => ⟨0x1030030, 64, 0x40000, 1, 0x0, false, [⟨31, 0, .ro, 0x0⟩]⟩
  | .SPM_ECC_COUNT => ⟨0x1030034, 64, 0x40000, 1, 0x0, false, [⟨31, 16, .rw1c, 0x0⟩, ⟨15, 0, .rw1c, 0x0⟩]⟩
  | .VE_RANGE_COUNT => ⟨0x1038030, 64, 0x40000, 1, 0x0, false, [⟨31, 0, .rw1c, 0x0⟩]⟩
  | .VE_FAULT_INFO => ⟨0x1038034, 64, 0x40000, 1, 0x0, false, [⟨31, 31, .rw1c, 0x0⟩, ⟨17, 12, .ro, 0x0⟩, ⟨11, 0, .ro, 0x0⟩]⟩
  | .VE_FAULT_VECTOR => ⟨0x1038038, 64, 0x40000, 1, 0x0, false, [⟨23, 0, .ro, 0x0⟩]⟩
  | .VE_FAULT_VALUE => ⟨0x103803c, 64, 0x40000, 1, 0x0, false, [⟨31, 0, .ro, 0x0⟩]⟩
  | .CC_STATUS => ⟨0x1039000, 64, 0x40000, 1, 0x0, false, [⟨31, 28, .ro, 0x0⟩, ⟨20, 16, .ro, 0x0⟩, ⟨9, 0, .ro, 0x0⟩]⟩
  | .CC_OASIS_VERSION => ⟨0x1039004, 64, 0x40000, 1, 0x0, false, [⟨31, 16, .ro, 0x0⟩, ⟨15, 0, .ro, 0x0⟩]⟩
  | .CC_CALL => ⟨0x1039008, 64, 0x40000, 1, 0x0, false, [⟨31, 31, .ro, 0x0⟩, ⟨30, 28, .ro, 0x0⟩, ⟨11, 0, .ro, 0x0⟩]⟩
  | .CC_FAULT_INFO => ⟨0x1039010, 64, 0x40000, 1, 0x0, false, [⟨31, 31, .rw1c, 0x0⟩, ⟨27, 24, .ro, 0x0⟩, ⟨23, 12, .ro, 0x0⟩, ⟨11, 0, .ro, 0x0⟩]⟩
  | .CC_FAULT_REPLAY => ⟨0x1039014, 64, 0x40000, 1, 0x0, false, [⟨23, 0, .ro, 0x0⟩]⟩
  | .DE_STATUS => ⟨0x103a000, 64, 0x40000, 2, 0x20, false, [⟨31, 28, .ro, 0x0⟩, ⟨20, 16, .ro, 0x0⟩]⟩
  | .DE_ERROR => ⟨0x103a004, 64, 0x40000, 2, 0x20, false, [⟨31, 31, .rw1c, 0x0⟩, ⟨26, 24, .ro, 0x0⟩, ⟨15, 0, .ro, 0x0⟩]⟩
  | .DE_ERROR_TAG => ⟨0x103a008, 64, 0x40000, 2, 0x20, false, [⟨15, 0, .ro, 0x0⟩]⟩
  | .DE_BYTES => ⟨0x103a00c, 64, 0x40000, 2, 0x20, false, [⟨31, 0, .rw1c, 0x0⟩]⟩
  | .SYNC_STALL_CFG => ⟨0x103f000, 64, 0x40000, 1, 0x0, false, [⟨9, 0, .rwl, 0x64⟩]⟩
  | .SYNC_STALL_INFO => ⟨0x103f004, 64, 0x40000, 1, 0x0, false, [⟨31, 31, .rw1c, 0x0⟩, ⟨27, 24, .ro, 0x0⟩, ⟨23, 20, .ro, 0x0⟩, ⟨19, 16, .ro, 0x0⟩, ⟨15, 12, .ro, 0x0⟩, ⟨11, 8, .ro, 0x0⟩]⟩
  | .SYNC_STALL_ARG_A => ⟨0x103f008, 64, 0x40000, 1, 0x0, false, [⟨22, 0, .ro, 0x0⟩]⟩
  | .SYNC_STALL_ARG_X => ⟨0x103f00c, 64, 0x40000, 1, 0x0, false, [⟨22, 0, .ro, 0x0⟩]⟩
  | .MBX_NOTICE => ⟨0x500000, 4, 0x10000, 1024, 0x4, false, [⟨31, 0, .ro, 0x0⟩]⟩
  | .MBX_BIND => ⟨0x501000, 4, 0x10000, 256, 0x4, false, [⟨31, 31, .ro, 0x0⟩, ⟨30, 29, .ro, 0x0⟩, ⟨28, 24, .ro, 0x0⟩, ⟨23, 13, .ro, 0x0⟩, ⟨10, 10, .ro, 0x0⟩, ⟨9, 9, .ro, 0x0⟩, ⟨7, 0, .ro, 0x0⟩]⟩
  | .MBX_FULL => ⟨0x501400, 4, 0x10000, 8, 0x4, false, [⟨31, 0, .ro, 0x0⟩]⟩
  | .MBX_REJECT => ⟨0x501420, 4, 0x10000, 1, 0x0, false, [⟨31, 16, .rw1c, 0x0⟩, ⟨15, 8, .rw1c, 0x0⟩, ⟨7, 0, .rw1c, 0x0⟩]⟩
  | .MBX_DIETIME_LO => ⟨0x5f0000, 1, 0x0, 1, 0x0, false, [⟨31, 0, .ro, 0x0⟩]⟩
  | .MBX_DIETIME_HI => ⟨0x5f0004, 1, 0x0, 1, 0x0, false, [⟨31, 0, .ro, 0x0⟩]⟩
  | .KVM_POOL_FREE => ⟨0x800000, 1, 0x0, 1, 0x0, false, [⟨25, 0, .ro, 0x0⟩]⟩
  | .KVM_POOL_LOW => ⟨0x800004, 1, 0x0, 1, 0x0, false, [⟨25, 0, .rwl, 0x400⟩]⟩
  | .KVM_FAR_STATUS => ⟨0x800010, 1, 0x0, 1, 0x0, false, [⟨31, 31, .ro, 0x0⟩, ⟨30, 30, .ro, 0x0⟩, ⟨15, 8, .ro, 0x0⟩, ⟨7, 0, .ro, 0x0⟩]⟩
  | .KVM_FAR_COUNT => ⟨0x800014, 1, 0x0, 1, 0x0, false, [⟨31, 16, .rw1c, 0x0⟩, ⟨15, 0, .rw1c, 0x0⟩]⟩
  | .KVM_CRC_ERR => ⟨0x800018, 1, 0x0, 1, 0x0, false, [⟨15, 0, .rw1c, 0x0⟩]⟩
  | .KVM_LAB_STAT => ⟨0x800100, 1, 0x0, 4, 0x4, false, [⟨31, 16, .rw1c, 0x0⟩, ⟨15, 0, .rw1c, 0x0⟩]⟩
  | .ASEQ_STATUS => ⟨0x900000, 4, 0x1000, 1, 0x0, false, [⟨31, 28, .ro, 0x0⟩, ⟨8, 0, .ro, 0x0⟩]⟩
  | .ASEQ_CORES => ⟨0x900004, 4, 0x1000, 1, 0x0, false, [⟨15, 0, .rwl, 0x0⟩]⟩
  | .ASEQ_ERR => ⟨0x900008, 4, 0x1000, 1, 0x0, false, [⟨31, 31, .rw1c, 0x0⟩, ⟨26, 24, .ro, 0x0⟩, ⟨15, 0, .ro, 0x0⟩]⟩
  | .LDR_STATUS => ⟨0x400000, 1, 0x0, 1, 0x0, true, [⟨31, 28, .ro, 0x0⟩, ⟨22, 16, .ro, 0x0⟩, ⟨4, 0, .ro, 0x0⟩]⟩
  | .LDR_REJ_LAST => ⟨0x400010, 1, 0x0, 1, 0x0, true, [⟨15, 0, .ro, 0x0⟩]⟩
  | .LDR_SUBMIT_BIND => ⟨0x400100, 1, 0x0, 16, 0x4, true, [⟨31, 31, .rwl, 0x0⟩, ⟨10, 10, .rwl, 0x0⟩, ⟨9, 9, .rwl, 0x0⟩, ⟨7, 0, .rwl, 0x0⟩]⟩
  | .LDR_TASK_STATE => ⟨0x400200, 1, 0x0, 8, 0x4, true, [⟨31, 0, .ro, 0x0⟩]⟩
  | .OE_STATUS => ⟨0xc00000, 2, 0x10000, 1, 0x0, false, [⟨31, 28, .ro, 0x0⟩, ⟨27, 24, .ro, 0x4⟩, ⟨23, 20, .ro, 0x0⟩, ⟨19, 16, .ro, 0x0⟩, ⟨3, 0, .ro, 0x0⟩]⟩
  | .OE_LANE_MAP => ⟨0xc00010, 2, 0x10000, 8, 0x4, false, [⟨31, 0, .ro, 0x0⟩]⟩
  | .OE_LANE_FAILED_LO => ⟨0xc00030, 2, 0x10000, 1, 0x0, false, [⟨31, 0, .ro, 0x0⟩]⟩
  | .OE_LANE_FAILED_HI => ⟨0xc00034, 2, 0x10000, 1, 0x0, false, [⟨3, 0, .ro, 0x0⟩]⟩
  | .OE_FEC_CORR => ⟨0xc00040, 2, 0x10000, 1, 0x0, false, [⟨31, 0, .rw1c, 0x0⟩]⟩
  | .OE_FEC_UNCORR => ⟨0xc00044, 2, 0x10000, 1, 0x0, false, [⟨31, 0, .rw1c, 0x0⟩]⟩
  | .OE_REPLAY => ⟨0xc00048, 2, 0x10000, 1, 0x0, false, [⟨31, 16, .rw1c, 0x0⟩, ⟨15, 0, .rw1c, 0x0⟩]⟩
  | .OE_SWAP_COUNT => ⟨0xc0004c, 2, 0x10000, 1, 0x0, false, [⟨31, 16, .rw1c, 0x0⟩, ⟨15, 0, .rw1c, 0x0⟩]⟩
  | .OE_CAL_CFG => ⟨0xc00050, 2, 0x10000, 1, 0x0, false, [⟨7, 0, .rwl, 0xa⟩]⟩
  | .HP_CFG => ⟨0xa00000, 1, 0x0, 1, 0x0, false, [⟨5, 4, .rwl, 0x0⟩, ⟨2, 0, .rwl, 0x0⟩]⟩
  | .HP_STATUS => ⟨0xa00004, 1, 0x0, 1, 0x0, false, [⟨31, 28, .ro, 0x0⟩, ⟨27, 24, .ro, 0x0⟩, ⟨23, 16, .ro, 0x0⟩, ⟨15, 15, .ro, 0x0⟩, ⟨14, 14, .ro, 0x0⟩]⟩
  | .CF_ID => ⟨0xb00000, 1, 0x0, 1, 0x0, false, [⟨31, 28, .ro, 0x0⟩, ⟨25, 16, .ro, 0x0⟩, ⟨13, 0, .ro, 0x0⟩]⟩
  | .CF_PORT_STATUS => ⟨0xb00010, 1, 0x0, 6, 0x4, false, [⟨31, 28, .ro, 0x0⟩, ⟨27, 27, .ro, 0x0⟩, ⟨13, 0, .ro, 0x0⟩]⟩
  | .CF_TIMEOUT => ⟨0xb00040, 1, 0x0, 1, 0x0, false, [⟨15, 8, .rwl, 0xa⟩, ⟨7, 0, .rwl, 0xa⟩]⟩
  | .CF_AGE => ⟨0xb00044, 1, 0x0, 1, 0x0, false, [⟨7, 0, .rwl, 0x14⟩]⟩
  | .CF_ERR => ⟨0xb00050, 1, 0x0, 1, 0x0, false, [⟨31, 16, .rw1c, 0x0⟩, ⟨15, 0, .rw1c, 0x0⟩]⟩
  | .CF_DENIED => ⟨0xb00054, 1, 0x0, 1, 0x0, false, [⟨31, 16, .rw1c, 0x0⟩, ⟨15, 8, .rw1c, 0x0⟩, ⟨7, 0, .rw1c, 0x0⟩]⟩
  | .CF_COLL_STATUS => ⟨0xb00060, 1, 0x0, 1, 0x0, false, [⟨20, 16, .ro, 0x0⟩, ⟨6, 0, .ro, 0x0⟩]⟩
  | .DDL_STATUS => ⟨0xd00000, 1, 0x0, 1, 0x0, false, [⟨31, 0, .ro, 0x0⟩]⟩
  | .BTS_BOOT_STATUS => ⟨0x300000, 1, 0x0, 1, 0x0, false, [⟨31, 28, .ro, 0x0⟩, ⟨27, 27, .ro, 0x0⟩, ⟨26, 26, .ro, 0x0⟩, ⟨25, 25, .ro, 0x0⟩, ⟨15, 0, .ro, 0x0⟩]⟩
  | .BTS_RESET_CAUSE => ⟨0x300004, 1, 0x0, 1, 0x0, false, [⟨2, 0, .ro, 0x0⟩]⟩
  | .BTS_FW_VERSION => ⟨0x300008, 1, 0x0, 1, 0x0, false, [⟨31, 0, .ro, 0x0⟩]⟩
  | .BTS_SVN => ⟨0x30000c, 1, 0x0, 1, 0x0, false, [⟨13, 8, .ro, 0x0⟩, ⟨5, 0, .ro, 0x0⟩]⟩
  | .BTS_MGMT_ADDR_LO => ⟨0x300010, 1, 0x0, 1, 0x0, true, [⟨31, 0, .rw, 0x0⟩]⟩
  | .BTS_MGMT_ADDR_HI => ⟨0x300014, 1, 0x0, 1, 0x0, true, [⟨15, 0, .rw, 0x0⟩]⟩
  | .BTS_MGMT_CTL => ⟨0x300018, 1, 0x0, 1, 0x0, true, [⟨0, 0, .wo, 0x0⟩]⟩
  | .BTS_MGMT_STATUS => ⟨0x30001c, 1, 0x0, 1, 0x0, true, [⟨31, 31, .ro, 0x0⟩, ⟨30, 30, .rw1c, 0x0⟩, ⟨29, 29, .rw1c, 0x0⟩, ⟨28, 28, .rw1c, 0x0⟩]⟩
  | .FCU_STATUS => ⟨0x100000, 1, 0x0, 1, 0x0, false, [⟨31, 31, .ro, 0x0⟩, ⟨15, 0, .ro, 0x0⟩]⟩
  | .FCU_COUNT_C => ⟨0x100004, 1, 0x0, 1, 0x0, false, [⟨31, 0, .rw1c, 0x0⟩]⟩
  | .FCU_COUNT_N => ⟨0x100008, 1, 0x0, 1, 0x0, false, [⟨31, 0, .rw1c, 0x0⟩]⟩
  | .FCU_COUNT_D => ⟨0x10000c, 1, 0x0, 1, 0x0, false, [⟨31, 0, .rw1c, 0x0⟩]⟩
  | .FCU_LOG_HEAD => ⟨0x100010, 1, 0x0, 1, 0x0, false, [⟨31, 31, .rw1c, 0x0⟩, ⟨4, 0, .ro, 0x0⟩]⟩
  | .FCU_LOG_SEL => ⟨0x100014, 1, 0x0, 1, 0x0, false, [⟨4, 0, .rw, 0x0⟩]⟩
  | .FCU_LOG_DATA => ⟨0x100020, 1, 0x0, 8, 0x4, false, [⟨31, 0, .ro, 0x0⟩]⟩
  | .FCU_PIN_CFG => ⟨0x100040, 1, 0x0, 1, 0x0, true, [⟨0, 0, .ro, 0x0⟩]⟩
  | .FCU_PIN_HOLD => ⟨0x100044, 1, 0x0, 1, 0x0, true, [⟨0, 0, .rw, 0x0⟩]⟩
  | .FCU_SAFE_CFG => ⟨0x100048, 1, 0x0, 1, 0x0, true, [⟨15, 0, .ro, 0x0⟩]⟩
  | .FCU_CORE_RETIRED_LO => ⟨0x100050, 1, 0x0, 1, 0x0, false, [⟨31, 0, .ro, 0x0⟩]⟩
  | .FCU_CORE_RETIRED_HI => ⟨0x100054, 1, 0x0, 1, 0x0, false, [⟨31, 0, .ro, 0x0⟩]⟩
  | .FCU_SUSPECT => ⟨0x100058, 1, 0x0, 1, 0x0, false, [⟨3, 0, .ro, 0x0⟩]⟩
  | .FCU_FLOG_SEL => ⟨0x100060, 1, 0x0, 1, 0x0, true, [⟨14, 0, .rw, 0x0⟩]⟩
  | .FCU_FLOG_COUNT => ⟨0x100064, 1, 0x0, 1, 0x0, true, [⟨15, 0, .ro, 0x0⟩]⟩
  | .FCU_FLOG_DATA => ⟨0x100080, 1, 0x0, 8, 0x4, true, [⟨31, 0, .ro, 0x0⟩]⟩
  | .PTM_STATE => ⟨0x200000, 1, 0x0, 1, 0x0, false, [⟨31, 28, .ro, 0x2⟩, ⟨27, 27, .rw1c, 0x0⟩]⟩
  | .PTM_STATUS => ⟨0x200008, 1, 0x0, 1, 0x0, false, [⟨31, 31, .ro, 0x0⟩, ⟨30, 30, .ro, 0x0⟩, ⟨29, 29, .ro, 0x0⟩, ⟨28, 28, .ro, 0x0⟩, ⟨27, 24, .ro, 0x0⟩, ⟨23, 23, .ro, 0x0⟩, ⟨22, 22, .ro, 0x0⟩, ⟨4, 0, .ro, 0x0⟩]⟩
  | .PTM_VDDL => ⟨0x20000c, 1, 0x0, 1, 0x0, false, [⟨25, 16, .ro, 0x0⟩, ⟨9, 0, .rwl, 0x2ee⟩]⟩
  | .PTM_CFG => ⟨0x200010, 1, 0x0, 1, 0x0, false, [⟨25, 16, .rwl, 0x3e8⟩, ⟨7, 0, .rwl, 0xa⟩]⟩
  | .PTM_TSENSE_REQ => ⟨0x200020, 1, 0x0, 1, 0x0, false, [⟨7, 0, .wo, 0x0⟩]⟩
  | .PTM_TSENSE_DATA => ⟨0x200024, 1, 0x0, 1, 0x0, false, [⟨31, 31, .ro, 0x0⟩, ⟨30, 30, .ro, 0x0⟩, ⟨29, 29, .ro, 0x0⟩, ⟨28, 28, .rw1c, 0x0⟩, ⟨23, 16, .ro, 0x0⟩, ⟨15, 0, .ro, 0x0⟩]⟩
  | .PTM_TEMP_MAX => ⟨0x200028, 1, 0x0, 1, 0x0, false, [⟨31, 16, .ro, 0x0⟩, ⟨15, 0, .ro, 0x0⟩]⟩
  | .PTM_EXCLUDED => ⟨0x20002c, 1, 0x0, 1, 0x0, false, [⟨23, 16, .ro, 0x0⟩, ⟨6, 0, .ro, 0x0⟩]⟩
  | .PTM_DIE_POWER => ⟨0x200030, 1, 0x0, 1, 0x0, false, [⟨31, 16, .ro, 0x0⟩, ⟨15, 0, .ro, 0x0⟩]⟩
  | .PTM_STATE_CTL => ⟨0x200004, 1, 0x0, 1, 0x0, true, [⟨1, 0, .wo, 0x0⟩]⟩
  | .PTM_INPUT => ⟨0x200040, 1, 0x0, 1, 0x0, true, [⟨31, 16, .ro, 0x0⟩, ⟨15, 0, .ro, 0x0⟩]⟩
  | .PTM_INPUT_POWER => ⟨0x200044, 1, 0x0, 1, 0x0, true, [⟨31, 16, .ro, 0x15e0⟩, ⟨15, 0, .ro, 0x0⟩]⟩

/-- Every register, in the order of the map above. -/
def Reg.all : List Reg :=
  [.BTS_FUSE_GRADE, .BTS_FUSE_CORE_LO, .BTS_FUSE_CORE_HI, .BTS_FUSE_DE1_LO, .BTS_FUSE_DE1_HI, .NOC_DIR_STATUS, .NOC_MAPERR_INFO, .NOC_MAPERR_ADDR_LO, .NOC_MAPERR_ADDR_HI, .SC_STATUS, .SC_REBUILD_PROGRESS, .SC_IDLE_TIMER, .SC_ACT_BUDGET, .SC_ACT_HELD, .SC_REFRESH_DEBT, .SC_SR_ENTRY, .SC_TSENSE_PERIOD, .SC_AGE_LIMIT, .SC_SCRUB_PERIOD, .SC_SCRUB_STATUS] ++
  [.SC_ECC_COUNT, .SC_POISON_COUNT, .SC_TSV_STATUS, .ME_SENT_SAT, .ME_SENT_SCALE, .VE_SENT_SAT, .VE_SENT_SCALE, .ME_MIRAGE_CFG, .ME_MIRAGE_CHECKED, .SC_BAU_SENT, .SC_ACT_SHARE, .SEQW_RANGE, .SEQW_ERR, .SFE_STATUS, .SFE_REPLAY_A, .SFE_REPLAY_X, .SFE_FAULT_INFO, .SFE_FAULT_REPLAY, .SFE_TOKEN_COUNT, .SPM_QUEUE_NONEMPTY] ++
  [.SPM_ECC_COUNT, .VE_RANGE_COUNT, .VE_FAULT_INFO, .VE_FAULT_VECTOR, .VE_FAULT_VALUE, .CC_STATUS, .CC_OASIS_VERSION, .CC_CALL, .CC_FAULT_INFO, .CC_FAULT_REPLAY, .DE_STATUS, .DE_ERROR, .DE_ERROR_TAG, .DE_BYTES, .SYNC_STALL_CFG, .SYNC_STALL_INFO, .SYNC_STALL_ARG_A, .SYNC_STALL_ARG_X, .MBX_NOTICE, .MBX_BIND] ++
  [.MBX_FULL, .MBX_REJECT, .MBX_DIETIME_LO, .MBX_DIETIME_HI, .KVM_POOL_FREE, .KVM_POOL_LOW, .KVM_FAR_STATUS, .KVM_FAR_COUNT, .KVM_CRC_ERR, .KVM_LAB_STAT, .ASEQ_STATUS, .ASEQ_CORES, .ASEQ_ERR, .LDR_STATUS, .LDR_REJ_LAST, .LDR_SUBMIT_BIND, .LDR_TASK_STATE, .OE_STATUS, .OE_LANE_MAP, .OE_LANE_FAILED_LO] ++
  [.OE_LANE_FAILED_HI, .OE_FEC_CORR, .OE_FEC_UNCORR, .OE_REPLAY, .OE_SWAP_COUNT, .OE_CAL_CFG, .HP_CFG, .HP_STATUS, .CF_ID, .CF_PORT_STATUS, .CF_TIMEOUT, .CF_AGE, .CF_ERR, .CF_DENIED, .CF_COLL_STATUS, .DDL_STATUS, .BTS_BOOT_STATUS, .BTS_RESET_CAUSE, .BTS_FW_VERSION, .BTS_SVN] ++
  [.BTS_MGMT_ADDR_LO, .BTS_MGMT_ADDR_HI, .BTS_MGMT_CTL, .BTS_MGMT_STATUS, .FCU_STATUS, .FCU_COUNT_C, .FCU_COUNT_N, .FCU_COUNT_D, .FCU_LOG_HEAD, .FCU_LOG_SEL, .FCU_LOG_DATA, .FCU_PIN_CFG, .FCU_PIN_HOLD, .FCU_SAFE_CFG, .FCU_CORE_RETIRED_LO, .FCU_CORE_RETIRED_HI, .FCU_SUSPECT, .FCU_FLOG_SEL, .FCU_FLOG_COUNT, .FCU_FLOG_DATA] ++
  [.PTM_STATE, .PTM_STATUS, .PTM_VDDL, .PTM_CFG, .PTM_TSENSE_REQ, .PTM_TSENSE_DATA, .PTM_TEMP_MAX, .PTM_EXCLUDED, .PTM_DIE_POWER, .PTM_STATE_CTL, .PTM_INPUT, .PTM_INPUT_POWER]

/-- A field of a register, by name. -/
structure RF where
  reg : Reg
  hi : Nat
  lo : Nat
  deriving DecidableEq, Repr

/-- BTS_FUSE_GRADE.GRADE (R7). -/
def BTS_FUSE_GRADE.GRADE : RF := ⟨.BTS_FUSE_GRADE, 7, 0⟩
/-- BTS_FUSE_CORE_LO.PRESENT (R7). -/
def BTS_FUSE_CORE_LO.PRESENT : RF := ⟨.BTS_FUSE_CORE_LO, 31, 0⟩
/-- BTS_FUSE_CORE_HI.PRESENT (R7). -/
def BTS_FUSE_CORE_HI.PRESENT : RF := ⟨.BTS_FUSE_CORE_HI, 31, 0⟩
/-- BTS_FUSE_DE1_LO.PRESENT (R7). -/
def BTS_FUSE_DE1_LO.PRESENT : RF := ⟨.BTS_FUSE_DE1_LO, 31, 0⟩
/-- BTS_FUSE_DE1_HI.PRESENT (R7). -/
def BTS_FUSE_DE1_HI.PRESENT : RF := ⟨.BTS_FUSE_DE1_HI, 31, 0⟩
/-- NOC_DIR_STATUS.FULL (R63). -/
def NOC_DIR_STATUS.FULL : RF := ⟨.NOC_DIR_STATUS, 31, 31⟩
/-- NOC_DIR_STATUS.USED (R63). -/
def NOC_DIR_STATUS.USED : RF := ⟨.NOC_DIR_STATUS, 22, 0⟩
/-- NOC_MAPERR_INFO.VALID (R63). -/
def NOC_MAPERR_INFO.VALID : RF := ⟨.NOC_MAPERR_INFO, 31, 31⟩
/-- NOC_MAPERR_INFO.OVERRUN (R63). -/
def NOC_MAPERR_INFO.OVERRUN : RF := ⟨.NOC_MAPERR_INFO, 30, 30⟩
/-- NOC_MAPERR_INFO.SOURCE (R63). -/
def NOC_MAPERR_INFO.SOURCE : RF := ⟨.NOC_MAPERR_INFO, 11, 8⟩
/-- NOC_MAPERR_INFO.WRITE (R63). -/
def NOC_MAPERR_INFO.WRITE : RF := ⟨.NOC_MAPERR_INFO, 7, 7⟩
/-- NOC_MAPERR_INFO.AGENT (R63). -/
def NOC_MAPERR_INFO.AGENT : RF := ⟨.NOC_MAPERR_INFO, 6, 0⟩
/-- NOC_MAPERR_ADDR_LO.ADDR (R63). -/
def NOC_MAPERR_ADDR_LO.ADDR : RF := ⟨.NOC_MAPERR_ADDR_LO, 31, 0⟩
/-- NOC_MAPERR_ADDR_HI.ADDR (R63). -/
def NOC_MAPERR_ADDR_HI.ADDR : RF := ⟨.NOC_MAPERR_ADDR_HI, 15, 0⟩
/-- SC_STATUS.STATE (R96). -/
def SC_STATUS.STATE : RF := ⟨.SC_STATUS, 27, 24⟩
/-- SC_STATUS.PARITY_VALID (R96). -/
def SC_STATUS.PARITY_VALID : RF := ⟨.SC_STATUS, 23, 23⟩
/-- SC_STATUS.RETIRED_DIE (R96). -/
def SC_STATUS.RETIRED_DIE : RF := ⟨.SC_STATUS, 20, 16⟩
/-- SC_STATUS.SPARE_BANKS (R96). -/
def SC_STATUS.SPARE_BANKS : RF := ⟨.SC_STATUS, 15, 12⟩
/-- SC_REBUILD_PROGRESS.POINTER (R96). -/
def SC_REBUILD_PROGRESS.POINTER : RF := ⟨.SC_REBUILD_PROGRESS, 22, 0⟩
/-- SC_IDLE_TIMER.TICKS (R96). -/
def SC_IDLE_TIMER.TICKS : RF := ⟨.SC_IDLE_TIMER, 8, 0⟩
/-- SC_ACT_BUDGET.EFFECTIVE (R96). -/
def SC_ACT_BUDGET.EFFECTIVE : RF := ⟨.SC_ACT_BUDGET, 25, 16⟩
/-- SC_ACT_BUDGET.LIMIT (R96). -/
def SC_ACT_BUDGET.LIMIT : RF := ⟨.SC_ACT_BUDGET, 9, 0⟩
/-- SC_ACT_HELD.HELD (R96). -/
def SC_ACT_HELD.HELD : RF := ⟨.SC_ACT_HELD, 9, 0⟩
/-- SC_REFRESH_DEBT.MAX_DEBT (R96). -/
def SC_REFRESH_DEBT.MAX_DEBT : RF := ⟨.SC_REFRESH_DEBT, 23, 20⟩
/-- SC_REFRESH_DEBT.RATE (R96). -/
def SC_REFRESH_DEBT.RATE : RF := ⟨.SC_REFRESH_DEBT, 19, 18⟩
/-- SC_REFRESH_DEBT.FORCED (R96). -/
def SC_REFRESH_DEBT.FORCED : RF := ⟨.SC_REFRESH_DEBT, 15, 0⟩
/-- SC_SR_ENTRY.DELAY (R96). -/
def SC_SR_ENTRY.DELAY : RF := ⟨.SC_SR_ENTRY, 11, 0⟩
/-- SC_TSENSE_PERIOD.PERIOD (R96). -/
def SC_TSENSE_PERIOD.PERIOD : RF := ⟨.SC_TSENSE_PERIOD, 7, 0⟩
/-- SC_AGE_LIMIT.BSEQ (R96). -/
def SC_AGE_LIMIT.BSEQ : RF := ⟨.SC_AGE_LIMIT, 23, 16⟩
/-- SC_AGE_LIMIT.INTERNAL (R96). -/
def SC_AGE_LIMIT.INTERNAL : RF := ⟨.SC_AGE_LIMIT, 15, 8⟩
/-- SC_AGE_LIMIT.HOST (R96). -/
def SC_AGE_LIMIT.HOST : RF := ⟨.SC_AGE_LIMIT, 7, 0⟩
/-- SC_SCRUB_PERIOD.HOURS (R96). -/
def SC_SCRUB_PERIOD.HOURS : RF := ⟨.SC_SCRUB_PERIOD, 4, 0⟩
/-- SC_SCRUB_STATUS.BEHIND (R96). -/
def SC_SCRUB_STATUS.BEHIND : RF := ⟨.SC_SCRUB_STATUS, 31, 31⟩
/-- SC_SCRUB_STATUS.POSITION (R96). -/
def SC_SCRUB_STATUS.POSITION : RF := ⟨.SC_SCRUB_STATUS, 22, 0⟩
/-- SC_ECC_COUNT.CORRECTED (R96). -/
def SC_ECC_COUNT.CORRECTED : RF := ⟨.SC_ECC_COUNT, 31, 16⟩
/-- SC_ECC_COUNT.RECONSTRUCTED (R96). -/
def SC_ECC_COUNT.RECONSTRUCTED : RF := ⟨.SC_ECC_COUNT, 15, 0⟩
/-- SC_POISON_COUNT.POISONED (R96). -/
def SC_POISON_COUNT.POISONED : RF := ⟨.SC_POISON_COUNT, 15, 0⟩
/-- SC_TSV_STATUS.EXHAUSTED (R96). -/
def SC_TSV_STATUS.EXHAUSTED : RF := ⟨.SC_TSV_STATUS, 22, 16⟩
/-- SC_TSV_STATUS.SPARES_USED (R96). -/
def SC_TSV_STATUS.SPARES_USED : RF := ⟨.SC_TSV_STATUS, 8, 0⟩
/-- ME_SENT_SAT.COUNT (R128). -/
def ME_SENT_SAT.COUNT : RF := ⟨.ME_SENT_SAT, 31, 0⟩
/-- ME_SENT_SCALE.COUNT (R128). -/
def ME_SENT_SCALE.COUNT : RF := ⟨.ME_SENT_SCALE, 31, 0⟩
/-- VE_SENT_SAT.COUNT (R128). -/
def VE_SENT_SAT.COUNT : RF := ⟨.VE_SENT_SAT, 31, 0⟩
/-- VE_SENT_SCALE.COUNT (R128). -/
def VE_SENT_SCALE.COUNT : RF := ⟨.VE_SENT_SCALE, 31, 0⟩
/-- ME_MIRAGE_CFG.TOL (R128). -/
def ME_MIRAGE_CFG.TOL : RF := ⟨.ME_MIRAGE_CFG, 12, 8⟩
/-- ME_MIRAGE_CFG.RATE (R128). -/
def ME_MIRAGE_CFG.RATE : RF := ⟨.ME_MIRAGE_CFG, 3, 0⟩
/-- ME_MIRAGE_CHECKED.COUNT (R128). -/
def ME_MIRAGE_CHECKED.COUNT : RF := ⟨.ME_MIRAGE_CHECKED, 31, 0⟩
/-- SC_BAU_SENT.OVERFLOW (R129). -/
def SC_BAU_SENT.OVERFLOW : RF := ⟨.SC_BAU_SENT, 31, 16⟩
/-- SC_BAU_SENT.NAN (R129). -/
def SC_BAU_SENT.NAN : RF := ⟨.SC_BAU_SENT, 15, 0⟩
/-- SC_ACT_SHARE.HOST_MIN (R160). -/
def SC_ACT_SHARE.HOST_MIN : RF := ⟨.SC_ACT_SHARE, 23, 16⟩
/-- SC_ACT_SHARE.CORE_MIN (R160). -/
def SC_ACT_SHARE.CORE_MIN : RF := ⟨.SC_ACT_SHARE, 15, 8⟩
/-- SC_ACT_SHARE.ASEQ_MIN (R160). -/
def SC_ACT_SHARE.ASEQ_MIN : RF := ⟨.SC_ACT_SHARE, 7, 0⟩
/-- SEQW_RANGE.EN (R161). -/
def SEQW_RANGE.EN : RF := ⟨.SEQW_RANGE, 31, 31⟩
/-- SEQW_RANGE.OWNER (R161). -/
def SEQW_RANGE.OWNER : RF := ⟨.SEQW_RANGE, 27, 24⟩
/-- SEQW_RANGE.LAST (R161). -/
def SEQW_RANGE.LAST : RF := ⟨.SEQW_RANGE, 23, 12⟩
/-- SEQW_RANGE.FIRST (R161). -/
def SEQW_RANGE.FIRST : RF := ⟨.SEQW_RANGE, 11, 0⟩
/-- SEQW_ERR.OVERRUN (R161). -/
def SEQW_ERR.OVERRUN : RF := ⟨.SEQW_ERR, 31, 16⟩
/-- SEQW_ERR.MALFORMED (R161). -/
def SEQW_ERR.MALFORMED : RF := ⟨.SEQW_ERR, 15, 0⟩
/-- SFE_STATUS.STATE (R184). -/
def SFE_STATUS.STATE : RF := ⟨.SFE_STATUS, 31, 28⟩
/-- SFE_STATUS.LEAD (R184). -/
def SFE_STATUS.LEAD : RF := ⟨.SFE_STATUS, 17, 16⟩
/-- SFE_STATUS.BLOCK (R184). -/
def SFE_STATUS.BLOCK : RF := ⟨.SFE_STATUS, 7, 0⟩
/-- SFE_REPLAY_A.REPLAY (R184). -/
def SFE_REPLAY_A.REPLAY : RF := ⟨.SFE_REPLAY_A, 23, 0⟩
/-- SFE_REPLAY_X.REPLAY (R184). -/
def SFE_REPLAY_X.REPLAY : RF := ⟨.SFE_REPLAY_X, 23, 0⟩
/-- SFE_FAULT_INFO.VALID (R184). -/
def SFE_FAULT_INFO.VALID : RF := ⟨.SFE_FAULT_INFO, 31, 31⟩
/-- SFE_FAULT_INFO.KIND (R184). -/
def SFE_FAULT_INFO.KIND : RF := ⟨.SFE_FAULT_INFO, 27, 24⟩
/-- SFE_FAULT_INFO.STREAM (R184). -/
def SFE_FAULT_INFO.STREAM : RF := ⟨.SFE_FAULT_INFO, 23, 23⟩
/-- SFE_FAULT_INFO.QUEUE (R184). -/
def SFE_FAULT_INFO.QUEUE : RF := ⟨.SFE_FAULT_INFO, 20, 16⟩
/-- SFE_FAULT_INFO.CLASS (R184). -/
def SFE_FAULT_INFO.CLASS : RF := ⟨.SFE_FAULT_INFO, 15, 12⟩
/-- SFE_FAULT_INFO.INDEX (R184). -/
def SFE_FAULT_INFO.INDEX : RF := ⟨.SFE_FAULT_INFO, 11, 0⟩
/-- SFE_FAULT_REPLAY.REPLAY (R184). -/
def SFE_FAULT_REPLAY.REPLAY : RF := ⟨.SFE_FAULT_REPLAY, 23, 0⟩
/-- SFE_TOKEN_COUNT.TC3 (R184). -/
def SFE_TOKEN_COUNT.TC3 : RF := ⟨.SFE_TOKEN_COUNT, 31, 24⟩
/-- SFE_TOKEN_COUNT.TC2 (R184). -/
def SFE_TOKEN_COUNT.TC2 : RF := ⟨.SFE_TOKEN_COUNT, 23, 16⟩
/-- SFE_TOKEN_COUNT.TC1 (R184). -/
def SFE_TOKEN_COUNT.TC1 : RF := ⟨.SFE_TOKEN_COUNT, 15, 8⟩
/-- SFE_TOKEN_COUNT.TC0 (R184). -/
def SFE_TOKEN_COUNT.TC0 : RF := ⟨.SFE_TOKEN_COUNT, 7, 0⟩
/-- SPM_QUEUE_NONEMPTY.NONEMPTY (R184). -/
def SPM_QUEUE_NONEMPTY.NONEMPTY : RF := ⟨.SPM_QUEUE_NONEMPTY, 31, 0⟩
/-- SPM_ECC_COUNT.CORRECTED (R184). -/
def SPM_ECC_COUNT.CORRECTED : RF := ⟨.SPM_ECC_COUNT, 31, 16⟩
/-- SPM_ECC_COUNT.UNCORRECTABLE (R184). -/
def SPM_ECC_COUNT.UNCORRECTABLE : RF := ⟨.SPM_ECC_COUNT, 15, 0⟩
/-- VE_RANGE_COUNT.COUNT (R235). -/
def VE_RANGE_COUNT.COUNT : RF := ⟨.VE_RANGE_COUNT, 31, 0⟩
/-- VE_FAULT_INFO.VALID (R235). -/
def VE_FAULT_INFO.VALID : RF := ⟨.VE_FAULT_INFO, 31, 31⟩
/-- VE_FAULT_INFO.LANE (R235). -/
def VE_FAULT_INFO.LANE : RF := ⟨.VE_FAULT_INFO, 17, 12⟩
/-- VE_FAULT_INFO.INSN (R235). -/
def VE_FAULT_INFO.INSN : RF := ⟨.VE_FAULT_INFO, 11, 0⟩
/-- VE_FAULT_VECTOR.VECTOR (R235). -/
def VE_FAULT_VECTOR.VECTOR : RF := ⟨.VE_FAULT_VECTOR, 23, 0⟩
/-- VE_FAULT_VALUE.INDEX (R235). -/
def VE_FAULT_VALUE.INDEX : RF := ⟨.VE_FAULT_VALUE, 31, 0⟩
/-- CC_STATUS.STATE (R254). -/
def CC_STATUS.STATE : RF := ⟨.CC_STATUS, 31, 28⟩
/-- CC_STATUS.SUMMARIES (R254). -/
def CC_STATUS.SUMMARIES : RF := ⟨.CC_STATUS, 20, 16⟩
/-- CC_STATUS.ENTRY (R254). -/
def CC_STATUS.ENTRY : RF := ⟨.CC_STATUS, 9, 0⟩
/-- CC_OASIS_VERSION.MAJOR (R254). -/
def CC_OASIS_VERSION.MAJOR : RF := ⟨.CC_OASIS_VERSION, 31, 16⟩
/-- CC_OASIS_VERSION.MINOR (R254). -/
def CC_OASIS_VERSION.MINOR : RF := ⟨.CC_OASIS_VERSION, 15, 0⟩
/-- CC_CALL.ACTIVE (R254). -/
def CC_CALL.ACTIVE : RF := ⟨.CC_CALL, 31, 31⟩
/-- CC_CALL.SOURCE (R254). -/
def CC_CALL.SOURCE : RF := ⟨.CC_CALL, 30, 28⟩
/-- CC_CALL.ID (R254). -/
def CC_CALL.ID : RF := ⟨.CC_CALL, 11, 0⟩
/-- CC_FAULT_INFO.VALID (R254). -/
def CC_FAULT_INFO.VALID : RF := ⟨.CC_FAULT_INFO, 31, 31⟩
/-- CC_FAULT_INFO.KIND (R254). -/
def CC_FAULT_INFO.KIND : RF := ⟨.CC_FAULT_INFO, 27, 24⟩
/-- CC_FAULT_INFO.ID (R254). -/
def CC_FAULT_INFO.ID : RF := ⟨.CC_FAULT_INFO, 23, 12⟩
/-- CC_FAULT_INFO.DETAIL (R254). -/
def CC_FAULT_INFO.DETAIL : RF := ⟨.CC_FAULT_INFO, 11, 0⟩
/-- CC_FAULT_REPLAY.REPLAY (R254). -/
def CC_FAULT_REPLAY.REPLAY : RF := ⟨.CC_FAULT_REPLAY, 23, 0⟩
/-- DE_STATUS.STATE (R275). -/
def DE_STATUS.STATE : RF := ⟨.DE_STATUS, 31, 28⟩
/-- DE_STATUS.QUEUED (R275). -/
def DE_STATUS.QUEUED : RF := ⟨.DE_STATUS, 20, 16⟩
/-- DE_ERROR.VALID (R275). -/
def DE_ERROR.VALID : RF := ⟨.DE_ERROR, 31, 31⟩
/-- DE_ERROR.STATUS (R275). -/
def DE_ERROR.STATUS : RF := ⟨.DE_ERROR, 26, 24⟩
/-- DE_ERROR.REASON (R275). -/
def DE_ERROR.REASON : RF := ⟨.DE_ERROR, 15, 0⟩
/-- DE_ERROR_TAG.TAG (R275). -/
def DE_ERROR_TAG.TAG : RF := ⟨.DE_ERROR_TAG, 15, 0⟩
/-- DE_BYTES.BYTES (R275). -/
def DE_BYTES.BYTES : RF := ⟨.DE_BYTES, 31, 0⟩
/-- SYNC_STALL_CFG.INTERVAL (R299). -/
def SYNC_STALL_CFG.INTERVAL : RF := ⟨.SYNC_STALL_CFG, 9, 0⟩
/-- SYNC_STALL_INFO.VALID (R299). -/
def SYNC_STALL_INFO.VALID : RF := ⟨.SYNC_STALL_INFO, 31, 31⟩
/-- SYNC_STALL_INFO.AE (R299). -/
def SYNC_STALL_INFO.AE : RF := ⟨.SYNC_STALL_INFO, 27, 24⟩
/-- SYNC_STALL_INFO.XS (R299). -/
def SYNC_STALL_INFO.XS : RF := ⟨.SYNC_STALL_INFO, 23, 20⟩
/-- SYNC_STALL_INFO.CC (R299). -/
def SYNC_STALL_INFO.CC : RF := ⟨.SYNC_STALL_INFO, 19, 16⟩
/-- SYNC_STALL_INFO.DE0 (R299). -/
def SYNC_STALL_INFO.DE0 : RF := ⟨.SYNC_STALL_INFO, 15, 12⟩
/-- SYNC_STALL_INFO.DE1 (R299). -/
def SYNC_STALL_INFO.DE1 : RF := ⟨.SYNC_STALL_INFO, 11, 8⟩
/-- SYNC_STALL_ARG_A.ARG (R299). -/
def SYNC_STALL_ARG_A.ARG : RF := ⟨.SYNC_STALL_ARG_A, 22, 0⟩
/-- SYNC_STALL_ARG_X.ARG (R299). -/
def SYNC_STALL_ARG_X.ARG : RF := ⟨.SYNC_STALL_ARG_X, 22, 0⟩
/-- MBX_NOTICE.DATA (R300). -/
def MBX_NOTICE.DATA : RF := ⟨.MBX_NOTICE, 31, 0⟩
/-- MBX_BIND.EN (R300). -/
def MBX_BIND.EN : RF := ⟨.MBX_BIND, 31, 31⟩
/-- MBX_BIND.RECV (R300). -/
def MBX_BIND.RECV : RF := ⟨.MBX_BIND, 30, 29⟩
/-- MBX_BIND.TARGET (R300). -/
def MBX_BIND.TARGET : RF := ⟨.MBX_BIND, 28, 24⟩
/-- MBX_BIND.VECTOR (R300). -/
def MBX_BIND.VECTOR : RF := ⟨.MBX_BIND, 23, 13⟩
/-- MBX_BIND.INTERNAL (R300). -/
def MBX_BIND.INTERNAL : RF := ⟨.MBX_BIND, 10, 10⟩
/-- MBX_BIND.CARAVAN (R300). -/
def MBX_BIND.CARAVAN : RF := ⟨.MBX_BIND, 9, 9⟩
/-- MBX_BIND.HOSTS (R300). -/
def MBX_BIND.HOSTS : RF := ⟨.MBX_BIND, 7, 0⟩
/-- MBX_FULL.FULL (R300). -/
def MBX_FULL.FULL : RF := ⟨.MBX_FULL, 31, 0⟩
/-- MBX_REJECT.FULL (R300). -/
def MBX_REJECT.FULL : RF := ⟨.MBX_REJECT, 31, 16⟩
/-- MBX_REJECT.DENIED (R300). -/
def MBX_REJECT.DENIED : RF := ⟨.MBX_REJECT, 15, 8⟩
/-- MBX_REJECT.BAD (R300). -/
def MBX_REJECT.BAD : RF := ⟨.MBX_REJECT, 7, 0⟩
/-- MBX_DIETIME_LO.COUNT (R301). -/
def MBX_DIETIME_LO.COUNT : RF := ⟨.MBX_DIETIME_LO, 31, 0⟩
/-- MBX_DIETIME_HI.COUNT (R301). -/
def MBX_DIETIME_HI.COUNT : RF := ⟨.MBX_DIETIME_HI, 31, 0⟩
/-- KVM_POOL_FREE.FREE (R333). -/
def KVM_POOL_FREE.FREE : RF := ⟨.KVM_POOL_FREE, 25, 0⟩
/-- KVM_POOL_LOW.LOW (R333). -/
def KVM_POOL_LOW.LOW : RF := ⟨.KVM_POOL_LOW, 25, 0⟩
/-- KVM_FAR_STATUS.CONFIGURED (R333). -/
def KVM_FAR_STATUS.CONFIGURED : RF := ⟨.KVM_FAR_STATUS, 31, 31⟩
/-- KVM_FAR_STATUS.UNREACHABLE (R333). -/
def KVM_FAR_STATUS.UNREACHABLE : RF := ⟨.KVM_FAR_STATUS, 30, 30⟩
/-- KVM_FAR_STATUS.SPILLS (R333). -/
def KVM_FAR_STATUS.SPILLS : RF := ⟨.KVM_FAR_STATUS, 15, 8⟩
/-- KVM_FAR_STATUS.FETCHES (R333). -/
def KVM_FAR_STATUS.FETCHES : RF := ⟨.KVM_FAR_STATUS, 7, 0⟩
/-- KVM_FAR_COUNT.SPILLED (R333). -/
def KVM_FAR_COUNT.SPILLED : RF := ⟨.KVM_FAR_COUNT, 31, 16⟩
/-- KVM_FAR_COUNT.FETCHED (R333). -/
def KVM_FAR_COUNT.FETCHED : RF := ⟨.KVM_FAR_COUNT, 15, 0⟩
/-- KVM_CRC_ERR.COUNT (R333). -/
def KVM_CRC_ERR.COUNT : RF := ⟨.KVM_CRC_ERR, 15, 0⟩
/-- KVM_LAB_STAT.MISSES (R333). -/
def KVM_LAB_STAT.MISSES : RF := ⟨.KVM_LAB_STAT, 31, 16⟩
/-- KVM_LAB_STAT.INVALS (R333). -/
def KVM_LAB_STAT.INVALS : RF := ⟨.KVM_LAB_STAT, 15, 0⟩
/-- ASEQ_STATUS.STATE (R334). -/
def ASEQ_STATUS.STATE : RF := ⟨.ASEQ_STATUS, 31, 28⟩
/-- ASEQ_STATUS.QUEUED (R334). -/
def ASEQ_STATUS.QUEUED : RF := ⟨.ASEQ_STATUS, 8, 0⟩
/-- ASEQ_CORES.MASK (R334). -/
def ASEQ_CORES.MASK : RF := ⟨.ASEQ_CORES, 15, 0⟩
/-- ASEQ_ERR.VALID (R334). -/
def ASEQ_ERR.VALID : RF := ⟨.ASEQ_ERR, 31, 31⟩
/-- ASEQ_ERR.STATUS (R334). -/
def ASEQ_ERR.STATUS : RF := ⟨.ASEQ_ERR, 26, 24⟩
/-- ASEQ_ERR.REASON (R334). -/
def ASEQ_ERR.REASON : RF := ⟨.ASEQ_ERR, 15, 0⟩
/-- LDR_STATUS.STATE (R357). -/
def LDR_STATUS.STATE : RF := ⟨.LDR_STATUS, 31, 28⟩
/-- LDR_STATUS.TASKS (R357). -/
def LDR_STATUS.TASKS : RF := ⟨.LDR_STATUS, 22, 16⟩
/-- LDR_STATUS.QUEUED (R357). -/
def LDR_STATUS.QUEUED : RF := ⟨.LDR_STATUS, 4, 0⟩
/-- LDR_REJ_LAST.REJ (R357). -/
def LDR_REJ_LAST.REJ : RF := ⟨.LDR_REJ_LAST, 15, 0⟩
/-- LDR_SUBMIT_BIND.EN (R357). -/
def LDR_SUBMIT_BIND.EN : RF := ⟨.LDR_SUBMIT_BIND, 31, 31⟩
/-- LDR_SUBMIT_BIND.INTERNAL (R357). -/
def LDR_SUBMIT_BIND.INTERNAL : RF := ⟨.LDR_SUBMIT_BIND, 10, 10⟩
/-- LDR_SUBMIT_BIND.CARAVAN (R357). -/
def LDR_SUBMIT_BIND.CARAVAN : RF := ⟨.LDR_SUBMIT_BIND, 9, 9⟩
/-- LDR_SUBMIT_BIND.HOSTS (R357). -/
def LDR_SUBMIT_BIND.HOSTS : RF := ⟨.LDR_SUBMIT_BIND, 7, 0⟩
/-- OE_STATUS.STATE (R383). -/
def OE_STATUS.STATE : RF := ⟨.OE_STATUS, 31, 28⟩
/-- OE_STATUS.SPARES_FREE (R383). -/
def OE_STATUS.SPARES_FREE : RF := ⟨.OE_STATUS, 27, 24⟩
/-- OE_STATUS.LASER_SPARE (R383). -/
def OE_STATUS.LASER_SPARE : RF := ⟨.OE_STATUS, 23, 20⟩
/-- OE_STATUS.LASER_FAILED (R383). -/
def OE_STATUS.LASER_FAILED : RF := ⟨.OE_STATUS, 19, 16⟩
/-- OE_STATUS.UP (R383). -/
def OE_STATUS.UP : RF := ⟨.OE_STATUS, 3, 0⟩
/-- OE_LANE_FAILED_LO.FAILED (R383). -/
def OE_LANE_FAILED_LO.FAILED : RF := ⟨.OE_LANE_FAILED_LO, 31, 0⟩
/-- OE_LANE_FAILED_HI.FAILED (R383). -/
def OE_LANE_FAILED_HI.FAILED : RF := ⟨.OE_LANE_FAILED_HI, 3, 0⟩
/-- OE_FEC_CORR.COUNT (R383). -/
def OE_FEC_CORR.COUNT : RF := ⟨.OE_FEC_CORR, 31, 0⟩
/-- OE_FEC_UNCORR.COUNT (R383). -/
def OE_FEC_UNCORR.COUNT : RF := ⟨.OE_FEC_UNCORR, 31, 0⟩
/-- OE_REPLAY.REPLAYS (R383). -/
def OE_REPLAY.REPLAYS : RF := ⟨.OE_REPLAY, 31, 16⟩
/-- OE_REPLAY.RETRAINS (R383). -/
def OE_REPLAY.RETRAINS : RF := ⟨.OE_REPLAY, 15, 0⟩
/-- OE_SWAP_COUNT.FAULT (R383). -/
def OE_SWAP_COUNT.FAULT : RF := ⟨.OE_SWAP_COUNT, 31, 16⟩
/-- OE_SWAP_COUNT.CAL (R383). -/
def OE_SWAP_COUNT.CAL : RF := ⟨.OE_SWAP_COUNT, 15, 0⟩
/-- OE_CAL_CFG.PERIOD (R383). -/
def OE_CAL_CFG.PERIOD : RF := ⟨.OE_CAL_CFG, 7, 0⟩
/-- HP_CFG.REGS (R403). -/
def HP_CFG.REGS : RF := ⟨.HP_CFG, 5, 4⟩
/-- HP_CFG.ALLOWED (R403). -/
def HP_CFG.ALLOWED : RF := ⟨.HP_CFG, 2, 0⟩
/-- HP_STATUS.PROTO (R403). -/
def HP_STATUS.PROTO : RF := ⟨.HP_STATUS, 31, 28⟩
/-- HP_STATUS.SPEED (R403). -/
def HP_STATUS.SPEED : RF := ⟨.HP_STATUS, 27, 24⟩
/-- HP_STATUS.WIDTH (R403). -/
def HP_STATUS.WIDTH : RF := ⟨.HP_STATUS, 23, 16⟩
/-- HP_STATUS.IO_ONLY (R403). -/
def HP_STATUS.IO_ONLY : RF := ⟨.HP_STATUS, 15, 15⟩
/-- HP_STATUS.DORMANT (R403). -/
def HP_STATUS.DORMANT : RF := ⟨.HP_STATUS, 14, 14⟩
/-- CF_ID.PARTITION (R429). -/
def CF_ID.PARTITION : RF := ⟨.CF_ID, 31, 28⟩
/-- CF_ID.GROUP (R429). -/
def CF_ID.GROUP : RF := ⟨.CF_ID, 25, 16⟩
/-- CF_ID.MODULE (R429). -/
def CF_ID.MODULE : RF := ⟨.CF_ID, 13, 0⟩
/-- CF_PORT_STATUS.STATE (R429). -/
def CF_PORT_STATUS.STATE : RF := ⟨.CF_PORT_STATUS, 31, 28⟩
/-- CF_PORT_STATUS.ROLE (R429). -/
def CF_PORT_STATUS.ROLE : RF := ⟨.CF_PORT_STATUS, 27, 27⟩
/-- CF_PORT_STATUS.PEER (R429). -/
def CF_PORT_STATUS.PEER : RF := ⟨.CF_PORT_STATUS, 13, 0⟩
/-- CF_TIMEOUT.COLL (R429). -/
def CF_TIMEOUT.COLL : RF := ⟨.CF_TIMEOUT, 15, 8⟩
/-- CF_TIMEOUT.REQ (R429). -/
def CF_TIMEOUT.REQ : RF := ⟨.CF_TIMEOUT, 7, 0⟩
/-- CF_AGE.AGE (R429). -/
def CF_AGE.AGE : RF := ⟨.CF_AGE, 7, 0⟩
/-- CF_ERR.ECRC (R429). -/
def CF_ERR.ECRC : RF := ⟨.CF_ERR, 31, 16⟩
/-- CF_ERR.TIMEOUT (R429). -/
def CF_ERR.TIMEOUT : RF := ⟨.CF_ERR, 15, 0⟩
/-- CF_DENIED.PARTITION (R429). -/
def CF_DENIED.PARTITION : RF := ⟨.CF_DENIED, 31, 16⟩
/-- CF_DENIED.SOURCE (R429). -/
def CF_DENIED.SOURCE : RF := ⟨.CF_DENIED, 15, 8⟩
/-- CF_DENIED.DISCARD (R429). -/
def CF_DENIED.DISCARD : RF := ⟨.CF_DENIED, 7, 0⟩
/-- CF_COLL_STATUS.ACTIVE (R429). -/
def CF_COLL_STATUS.ACTIVE : RF := ⟨.CF_COLL_STATUS, 20, 16⟩
/-- CF_COLL_STATUS.WAITING (R429). -/
def CF_COLL_STATUS.WAITING : RF := ⟨.CF_COLL_STATUS, 6, 0⟩
/-- BTS_BOOT_STATUS.STEP (R455). -/
def BTS_BOOT_STATUS.STEP : RF := ⟨.BTS_BOOT_STATUS, 31, 28⟩
/-- BTS_BOOT_STATUS.LOCKED (R455). -/
def BTS_BOOT_STATUS.LOCKED : RF := ⟨.BTS_BOOT_STATUS, 27, 27⟩
/-- BTS_BOOT_STATUS.REFUSED (R455). -/
def BTS_BOOT_STATUS.REFUSED : RF := ⟨.BTS_BOOT_STATUS, 26, 26⟩
/-- BTS_BOOT_STATUS.RECOVERY (R455). -/
def BTS_BOOT_STATUS.RECOVERY : RF := ⟨.BTS_BOOT_STATUS, 25, 25⟩
/-- BTS_BOOT_STATUS.REFUSAL (R455). -/
def BTS_BOOT_STATUS.REFUSAL : RF := ⟨.BTS_BOOT_STATUS, 15, 0⟩
/-- BTS_RESET_CAUSE.CAUSE (R455). -/
def BTS_RESET_CAUSE.CAUSE : RF := ⟨.BTS_RESET_CAUSE, 2, 0⟩
/-- BTS_FW_VERSION.VERSION (R455). -/
def BTS_FW_VERSION.VERSION : RF := ⟨.BTS_FW_VERSION, 31, 0⟩
/-- BTS_SVN.FLOOR (R455). -/
def BTS_SVN.FLOOR : RF := ⟨.BTS_SVN, 13, 8⟩
/-- BTS_SVN.IMAGE (R455). -/
def BTS_SVN.IMAGE : RF := ⟨.BTS_SVN, 5, 0⟩
/-- BTS_MGMT_ADDR_LO.ADDR (R455). -/
def BTS_MGMT_ADDR_LO.ADDR : RF := ⟨.BTS_MGMT_ADDR_LO, 31, 0⟩
/-- BTS_MGMT_ADDR_HI.ADDR (R455). -/
def BTS_MGMT_ADDR_HI.ADDR : RF := ⟨.BTS_MGMT_ADDR_HI, 15, 0⟩
/-- BTS_MGMT_CTL.GO (R455). -/
def BTS_MGMT_CTL.GO : RF := ⟨.BTS_MGMT_CTL, 0, 0⟩
/-- BTS_MGMT_STATUS.BUSY (R455). -/
def BTS_MGMT_STATUS.BUSY : RF := ⟨.BTS_MGMT_STATUS, 31, 31⟩
/-- BTS_MGMT_STATUS.DONE (R455). -/
def BTS_MGMT_STATUS.DONE : RF := ⟨.BTS_MGMT_STATUS, 30, 30⟩
/-- BTS_MGMT_STATUS.ERR_BUSY (R455). -/
def BTS_MGMT_STATUS.ERR_BUSY : RF := ⟨.BTS_MGMT_STATUS, 29, 29⟩
/-- BTS_MGMT_STATUS.ERR_ADDR (R455). -/
def BTS_MGMT_STATUS.ERR_ADDR : RF := ⟨.BTS_MGMT_STATUS, 28, 28⟩
/-- FCU_STATUS.SAFE (R474). -/
def FCU_STATUS.SAFE : RF := ⟨.FCU_STATUS, 31, 31⟩
/-- FCU_STATUS.FIRST_M (R474). -/
def FCU_STATUS.FIRST_M : RF := ⟨.FCU_STATUS, 15, 0⟩
/-- FCU_COUNT_C.COUNT (R474). -/
def FCU_COUNT_C.COUNT : RF := ⟨.FCU_COUNT_C, 31, 0⟩
/-- FCU_COUNT_N.COUNT (R474). -/
def FCU_COUNT_N.COUNT : RF := ⟨.FCU_COUNT_N, 31, 0⟩
/-- FCU_COUNT_D.COUNT (R474). -/
def FCU_COUNT_D.COUNT : RF := ⟨.FCU_COUNT_D, 31, 0⟩
/-- FCU_LOG_HEAD.OVERRUN (R474). -/
def FCU_LOG_HEAD.OVERRUN : RF := ⟨.FCU_LOG_HEAD, 31, 31⟩
/-- FCU_LOG_HEAD.NEXT (R474). -/
def FCU_LOG_HEAD.NEXT : RF := ⟨.FCU_LOG_HEAD, 4, 0⟩
/-- FCU_LOG_SEL.SLOT (R474). -/
def FCU_LOG_SEL.SLOT : RF := ⟨.FCU_LOG_SEL, 4, 0⟩
/-- FCU_LOG_DATA.DATA (R474). -/
def FCU_LOG_DATA.DATA : RF := ⟨.FCU_LOG_DATA, 31, 0⟩
/-- FCU_PIN_CFG.MODE (R474). -/
def FCU_PIN_CFG.MODE : RF := ⟨.FCU_PIN_CFG, 0, 0⟩
/-- FCU_PIN_HOLD.HOLD (R474). -/
def FCU_PIN_HOLD.HOLD : RF := ⟨.FCU_PIN_HOLD, 0, 0⟩
/-- FCU_SAFE_CFG.RESTART (R474). -/
def FCU_SAFE_CFG.RESTART : RF := ⟨.FCU_SAFE_CFG, 15, 0⟩
/-- FCU_CORE_RETIRED_LO.RETIRED (R474). -/
def FCU_CORE_RETIRED_LO.RETIRED : RF := ⟨.FCU_CORE_RETIRED_LO, 31, 0⟩
/-- FCU_CORE_RETIRED_HI.RETIRED (R474). -/
def FCU_CORE_RETIRED_HI.RETIRED : RF := ⟨.FCU_CORE_RETIRED_HI, 31, 0⟩
/-- FCU_SUSPECT.BAU (R474). -/
def FCU_SUSPECT.BAU : RF := ⟨.FCU_SUSPECT, 3, 0⟩
/-- FCU_FLOG_SEL.INDEX (R474). -/
def FCU_FLOG_SEL.INDEX : RF := ⟨.FCU_FLOG_SEL, 14, 0⟩
/-- FCU_FLOG_COUNT.COUNT (R474). -/
def FCU_FLOG_COUNT.COUNT : RF := ⟨.FCU_FLOG_COUNT, 15, 0⟩
/-- FCU_FLOG_DATA.DATA (R474). -/
def FCU_FLOG_DATA.DATA : RF := ⟨.FCU_FLOG_DATA, 31, 0⟩
/-- PTM_STATE.STATE (R497). -/
def PTM_STATE.STATE : RF := ⟨.PTM_STATE, 31, 28⟩
/-- PTM_STATE.REFUSED (R497). -/
def PTM_STATE.REFUSED : RF := ⟨.PTM_STATE, 27, 27⟩
/-- PTM_STATUS.WARN (R497). -/
def PTM_STATUS.WARN : RF := ⟨.PTM_STATUS, 31, 31⟩
/-- PTM_STATUS.LOGIC_THROTTLE (R497). -/
def PTM_STATUS.LOGIC_THROTTLE : RF := ⟨.PTM_STATUS, 30, 30⟩
/-- PTM_STATUS.POWER_CAP (R497). -/
def PTM_STATUS.POWER_CAP : RF := ⟨.PTM_STATUS, 29, 29⟩
/-- PTM_STATUS.DIE_CAP (R497). -/
def PTM_STATUS.DIE_CAP : RF := ⟨.PTM_STATUS, 28, 28⟩
/-- PTM_STATUS.STACK_THROTTLE (R497). -/
def PTM_STATUS.STACK_THROTTLE : RF := ⟨.PTM_STATUS, 27, 24⟩
/-- PTM_STATUS.WARMUP_STALLED (R497). -/
def PTM_STATUS.WARMUP_STALLED : RF := ⟨.PTM_STATUS, 23, 23⟩
/-- PTM_STATUS.BUS_LOST (R497). -/
def PTM_STATUS.BUS_LOST : RF := ⟨.PTM_STATUS, 22, 22⟩
/-- PTM_STATUS.PHASES_FAILED (R497). -/
def PTM_STATUS.PHASES_FAILED : RF := ⟨.PTM_STATUS, 4, 0⟩
/-- PTM_VDDL.NOW (R497). -/
def PTM_VDDL.NOW : RF := ⟨.PTM_VDDL, 25, 16⟩
/-- PTM_VDDL.TARGET (R497). -/
def PTM_VDDL.TARGET : RF := ⟨.PTM_VDDL, 9, 0⟩
/-- PTM_CFG.VDDQ (R497). -/
def PTM_CFG.VDDQ : RF := ⟨.PTM_CFG, 25, 16⟩
/-- PTM_CFG.PERIOD (R497). -/
def PTM_CFG.PERIOD : RF := ⟨.PTM_CFG, 7, 0⟩
/-- PTM_TSENSE_REQ.SENSOR (R497). -/
def PTM_TSENSE_REQ.SENSOR : RF := ⟨.PTM_TSENSE_REQ, 7, 0⟩
/-- PTM_TSENSE_DATA.VALID (R497). -/
def PTM_TSENSE_DATA.VALID : RF := ⟨.PTM_TSENSE_DATA, 31, 31⟩
/-- PTM_TSENSE_DATA.BUSY (R497). -/
def PTM_TSENSE_DATA.BUSY : RF := ⟨.PTM_TSENSE_DATA, 30, 30⟩
/-- PTM_TSENSE_DATA.EXCLUDED (R497). -/
def PTM_TSENSE_DATA.EXCLUDED : RF := ⟨.PTM_TSENSE_DATA, 29, 29⟩
/-- PTM_TSENSE_DATA.ERR (R497). -/
def PTM_TSENSE_DATA.ERR : RF := ⟨.PTM_TSENSE_DATA, 28, 28⟩
/-- PTM_TSENSE_DATA.SENSOR (R497). -/
def PTM_TSENSE_DATA.SENSOR : RF := ⟨.PTM_TSENSE_DATA, 23, 16⟩
/-- PTM_TSENSE_DATA.TEMP (R497). -/
def PTM_TSENSE_DATA.TEMP : RF := ⟨.PTM_TSENSE_DATA, 15, 0⟩
/-- PTM_TEMP_MAX.LOGIC (R497). -/
def PTM_TEMP_MAX.LOGIC : RF := ⟨.PTM_TEMP_MAX, 31, 16⟩
/-- PTM_TEMP_MAX.STACK (R497). -/
def PTM_TEMP_MAX.STACK : RF := ⟨.PTM_TEMP_MAX, 15, 0⟩
/-- PTM_EXCLUDED.STACKS (R497). -/
def PTM_EXCLUDED.STACKS : RF := ⟨.PTM_EXCLUDED, 23, 16⟩
/-- PTM_EXCLUDED.LOGIC (R497). -/
def PTM_EXCLUDED.LOGIC : RF := ⟨.PTM_EXCLUDED, 6, 0⟩
/-- PTM_DIE_POWER.STACKS (R497). -/
def PTM_DIE_POWER.STACKS : RF := ⟨.PTM_DIE_POWER, 31, 16⟩
/-- PTM_DIE_POWER.DIE (R497). -/
def PTM_DIE_POWER.DIE : RF := ⟨.PTM_DIE_POWER, 15, 0⟩
/-- PTM_STATE_CTL.REQ (R498). -/
def PTM_STATE_CTL.REQ : RF := ⟨.PTM_STATE_CTL, 1, 0⟩
/-- PTM_INPUT.CURRENT (R498). -/
def PTM_INPUT.CURRENT : RF := ⟨.PTM_INPUT, 31, 16⟩
/-- PTM_INPUT.VOLTAGE (R498). -/
def PTM_INPUT.VOLTAGE : RF := ⟨.PTM_INPUT, 15, 0⟩
/-- PTM_INPUT_POWER.LIMIT (R498). -/
def PTM_INPUT_POWER.LIMIT : RF := ⟨.PTM_INPUT_POWER, 31, 16⟩
/-- PTM_INPUT_POWER.POWER (R498). -/
def PTM_INPUT_POWER.POWER : RF := ⟨.PTM_INPUT_POWER, 15, 0⟩

end Sys2Proof
end

