-- ==== Sys2Proof/Machine/CoreParts.lean ====
section
/-! DEFINITION. The state types of cores and mailboxes: streams, queues, jobs, the control core, DMA engines and notices
(chapters 06 to 11). -/

set_option Elab.async false

namespace Sys2Proof.Machine

open Sys2Proof

/-- A queue beat (R166): 64 data bytes, LAST, and the token class when TV is 1. -/
structure Beat where
  data : List Byte
  last : Bool
  tok : Option Nat
  deriving DecidableEq, Repr

/-- An operand that an issued instruction pops (R169): its queue, the beats left to pop or none for "to LAST", the step of the engine at
which it pops (R220), the beats popped so far, and whether it has them all. -/
structure Pop where
  q : Nat
  need : Option Nat
  phase : Nat
  got : List (List Byte)
  done : Bool
  deriving DecidableEq, Repr

/-- What a VE instruction's summary holds so far (R233, R234): the flags as bits, the first element that set one, COUNT and VALUE. -/
structure Tally where
  flags : Nat
  first : Nat
  count : Nat
  value : Nat
  deriving DecidableEq, Repr

/-- An instruction that has issued and not retired (R170, R174): the stream (true for the execute stream), its index, word and replay; the
base address, and a second slot value where it names one (VL, extent, argument); whether DE0 runs its walk; the bytes of a walk, or the
beats of another instruction, that have crossed its queue; its operands; the vectors, groups or tiles done (R226, R227) and whether all
results are formed; bytes of a word access (R173) or of a row (R206) that wait for the rest of it, and the row's scale bytes; the
beats that it still pushes, and where; and its summary so far. -/
structure Job where
  id : Nat
  x : Bool
  index : Nat
  word : Nat
  replay : Nat
  base : Nat
  arg : Nat
  de0 : Bool
  pos : Nat
  pops : List Pop
  units : Nat
  formed : Bool
  tail : List Byte
  scales : List Byte
  pushes : List (List Byte)
  pushQ : Option Nat
  tally : Tally
  deriving DecidableEq, Repr

/-- A replay slot (R178): the replay it holds, its parameter values, beats pushed and popped per queue, tokens emitted and consumed per
class. -/
structure RSlot where
  replay : Nat
  params : List Nat
  pushed : NMap Nat
  popped : NMap Nat
  emitted : NMap Nat
  consumed : NMap Nat
  deriving DecidableEq, Repr

/-- A stream (R177, R178): whether it runs, the index of its next instruction, whether it stands in a block, the index after the block's
BLOCK, the block's replay count, its current replay, whether it has reached the ENDBLOCK of that replay, and the blocks it has opened. -/
structure Stream where
  running : Bool
  pc : Nat
  inBlock : Bool
  start : Nat
  replays : Nat
  replay : Nat
  closed : Bool
  blocks : Nat
  deriving DecidableEq, Repr

/-- What holds the head of an engine's queue or a routine: a full/empty word (R278), a barrier word at which it has arrived, or a full one
at which it waits to arrive with its mask (R282, R283), or a KPOP or KPUSH that waits at its queue (R240). The offset is that of the word in
the scratchpad. -/
inductive Hold where
  | word (off : Nat) (consume : Bool)
  | barrier (off : Nat)
  | arrive (off mask : Nat)
  | pop (q : Nat)
  | push (q : Nat)
  deriving DecidableEq, Repr

/-- A token due for credit (R211): its class, and the replay, stream and index of the instruction that emitted it. -/
structure Credit where
  cls : Nat
  replay : Nat
  x : Bool
  index : Nat
  deriving DecidableEq, Repr

/-- A SIGNAL that has issued and not yet set its word (R199): the word's offset, the instruction's word, index and replay, and the numbers of
the next job and the next transfer when it issued, below which lie the writes it waits for. -/
structure Sig where
  off : Nat
  word : Nat
  index : Nat
  replay : Nat
  jobs : Nat
  xfers : Nat
  deriving DecidableEq, Repr

/-- The tile that the array keeps (R223): format, K and N of its MMA, and the weights of the last tile loaded. -/
structure Tile where
  fmt : Nat
  k : Nat
  n : Nat
  bytes : List Byte
  deriving DecidableEq, Repr

/-- A sampled tile in the check buffer (R118, R226): whether a failing element, by the comparison of R119, was found; the instruction's
index and replay. -/
structure Check where
  fails : Bool
  index : Nat
  replay : Nat
  deriving DecidableEq, Repr

/-- A routine call (R245, R250): source 0 OCALL, 1 CALL, 2 notice; routine, argument, replay; the mailbox slot and notice that called it; the
beats that it popped from QIN, whether LAST was among them, the beats that it pushed to QOUT and whether the last of them carried LAST,
and a queue that it used without its OCALL's leave (R251); and its status once it has run. -/
structure Call where
  source : Nat
  id : Nat
  arg : Nat
  replay : Nat
  notice : Option (Nat × List Byte)
  popped : Nat
  poppedLast : Bool
  pushed : Nat
  pushedLast : Bool
  stray : Option Nat
  status : Option Nat
  deriving DecidableEq, Repr

/-- The control core (R236 to R254): data memory, the general registers x0 to x31 and mcause, summary FIFO, what the dispatcher does besides
a routine (0 idle, 1 control list, 3 waiting in RUN, 4 faulted), the control list's place, entry and LOOP counters, the routine that runs,
an OCALL whose routine has not started, the last routine, the seed of SAMPLE, what a KWAIT or KBARRIER waits on, an abort interrupt not yet
taken, the status of a failed transfer of its own that waits to be returned to its routine, and the one last returned, how many times
POST_NOTICE has tried, whether this try is its last, and the stall record of R288 (DESIGN CHOICE log 54). -/
structure Ctl where
  dmem : NMap Byte
  xregs : List Nat
  mcause : Nat
  fifo : List Nat
  mode : Nat
  listAt : Nat
  entry : Nat
  counters : NMap Nat
  call : Option Call
  due : Option Call
  lastSource : Nat
  lastId : Nat
  seed : Nat
  hold : Option Hold
  abortDue : Bool
  dmaDue : Option Nat
  dmaStatus : Option Nat
  postTries : Nat
  postLast : Bool
  stall : List Byte
  deriving DecidableEq, Repr

/-- A transfer, memory walk or barrier marker that a DMA engine has accepted (R272, R273, R283): the transfer descriptor and the tensor
descriptors as they stood, or the walk's job, or the marker's word; whether a fence precedes it; the token it emits; then its progress:
whether it ran, status, reason, flags, bytes and count, and for BSEQ the next descriptor's place and address and the sequence in flight. -/
structure Xfer where
  id : Nat
  desc : List Byte
  src : List Byte
  dst : List Byte
  idx : List Byte
  walk : Option Nat
  marker : Option Nat
  arrived : Bool
  fence : Bool
  index : Nat
  replay : Nat
  tok : Option Nat
  ran : Bool
  status : Nat
  reason : Nat
  flags : Nat
  bytes : Nat
  count : Nat
  next : Nat
  nextAt : Nat
  seq : Option Nat
  deriving DecidableEq, Repr

/-- A core (R162). `full` holds the numbers of the scratchpad words whose full/empty bit is 1; `windows` the allocation windows of R172,
`staging` the staging range of R221; `pairs` the entry points; `checked` the next replay that the SFE checks (R181); `patchDue` a replay
whose patch entries are not yet applied, with the block's patch list; `faulted` the fault that stopped the streams; `dpins` the frames
that dynamic descriptors pin, by entry; `hold` what the access stream waits on, with the waiting instruction's word and replay; `steps`
the strides as the open block took them, and `written` the parameter registers that KPWR wrote during it (R240); `signals` the SIGNALs that
wait for earlier writes (R199). -/
structure Core where
  amem : NMap IWord
  xmem : NMap IWord
  pats : NMap (List Byte)
  params : List Nat
  strides : List Nat
  slots : NMap RSlot
  counters : NMap Nat
  bounds : NMap Nat
  queues : NMap (List Beat)
  full : List Nat
  windows : List (Nat × Nat)
  staging : Nat × Nat
  pairs : NMap (Nat × Nat)
  sa : Stream
  sx : Stream
  jobs : List Job
  jobNext : Nat
  credits : List Credit
  checked : Nat
  presets : NMap Nat
  patchAt : Nat
  patchCount : Nat
  patchDue : Option Nat
  hold : Option (Hold × Nat × Nat)
  steps : List Nat
  written : List Nat
  signals : List Sig
  tile : Option Tile
  tiles : Nat
  checks : List Check
  cc : Ctl
  desc : NMap (List Byte)
  dpins : NMap Nat
  de0 : List Xfer
  de1 : List Xfer
  xferNext : Nat
  task : Option Nat
  faulted : Option Nat
  deriving DecidableEq, Repr

/-- A stream that stands still. -/
def freshStream : Stream := ⟨false, 0, false, 0, 0, 0, false, 0⟩

/-- A control core with nothing to do (DESIGN CHOICE log 8). -/
def freshCtl : Ctl where
  dmem := []
  xregs := List.replicate 32 0
  mcause := 0
  fifo := []
  mode := 0
  listAt := 0
  entry := 0
  counters := []
  call := none
  due := none
  lastSource := 0
  lastId := 0
  seed := 0
  hold := none
  abortDue := false
  dmaDue := none
  dmaStatus := none
  postTries := 0
  postLast := false
  stall := []

/-- A core that no task has used since module reset (DESIGN CHOICE log 8). -/
def freshCore : Core where
  amem := []
  xmem := []
  pats := []
  params := List.replicate 64 0
  strides := List.replicate 64 0
  slots := []
  counters := []
  bounds := []
  queues := []
  full := []
  windows := []
  staging := (0, 0)
  pairs := []
  sa := freshStream
  sx := freshStream
  jobs := []
  jobNext := 0
  credits := []
  checked := 0
  presets := []
  patchAt := 0
  patchCount := 0
  patchDue := none
  hold := none
  steps := []
  written := []
  signals := []
  tile := none
  tiles := 0
  checks := []
  cc := freshCtl
  desc := []
  dpins := []
  de0 := []
  de1 := []
  xferNext := 0
  task := none
  faulted := none

/-- A notice in mailbox slot `n` of cluster `k` of die `d`, or in submission slot `n` of the loader when `d` is 8; its 16 bytes (R290). -/
structure Notice where
  d : Nat
  k : Nat
  n : Nat
  bytes : List Byte
  deriving DecidableEq, Repr

/-- Where a reply or completion notice goes (R313): a local slot, or a Caravan notice to slot `slot` of agent `agent` of die `die`. -/
inductive Dest where
  | local_ (d k slot : Nat)
  | caravan (module die agent slot : Nat)
  deriving DecidableEq, Repr

/-- A notice that a hardware sender still has to post (R293): the sender (as R291 encodes it), the destination, pointer and tag. -/
structure Kept where
  sender : Nat
  dest : Dest
  pointer : Nat
  tag : Nat
  deriving DecidableEq, Repr

end Sys2Proof.Machine
end

