-- ==== Sys2Proof/Machine/Round.lean ====
section
/-! DEFINITION. Exact rationals rounded to a binary grid, to nearest with ties to even: the one rounding that every format uses. -/

set_option Elab.async false

namespace Sys2Proof

/-- floor(log2 (n / d)) for positive n and d. -/
def ratLog (n d : Nat) : Int :=
  let e : Int := (Nat.log2 n : Int) - (Nat.log2 d : Int)
  let ge := fun (k : Int) => if 0 ≤ k then decide (d * 2 ^ k.toNat ≤ n) else decide (d ≤ n * 2 ^ (-k).toNat)
  if ge e then e else e - 1

/-- n / d rounded to an integer, to nearest with ties to even. -/
def divRne (n d : Nat) : Nat :=
  let q := n / d
  let r := n % d
  if 2 * r < d then q else if d < 2 * r then q + 1 else if q % 2 = 0 then q else q + 1

/-- n / d rounded to `p` significant bits with no unit below 2 ^ emin: the value is `m * 2 ^ q`. -/
def roundRat (p : Nat) (emin : Int) (n d : Nat) : Nat × Int :=
  if n = 0 then (0, emin)
  else
    let q0 := ratLog n d - (p : Int) + 1
    let q := if q0 < emin then emin else q0
    let m := if 0 ≤ q then divRne n (d * 2 ^ q.toNat) else divRne (n * 2 ^ (-q).toNat) d
    if m = 2 ^ p then (2 ^ (p - 1), q + 1) else (m, q)

/-- The encoding of a rounded magnitude in a format with `p` significant bits and exponent bias `bias`, without its sign:
a result whose biased exponent exceeds `emax` is the format's infinity. -/
def encodeMag (p bias emax : Nat) (mq : Nat × Int) : Nat :=
  let m := mq.1
  let e := mq.2 + (p : Int) - 1 + (bias : Int)
  if m < 2 ^ (p - 1) then m
  else if (emax : Int) < e then (emax + 1) * 2 ^ (p - 1)
  else e.toNat * 2 ^ (p - 1) + (m - 2 ^ (p - 1))

/-- The FP32 encoding of n / d, to nearest with ties to even, gradual underflow and overflow to infinity. -/
def f32OfRat (neg : Bool) (n d : Nat) : Nat :=
  encodeMag 24 127 254 (roundRat 24 (-149) n d) + (if neg then 2 ^ 31 else 0)

/-- The FP32 encoding of a temperature in 1/16 °C. -/
def f32OfTemp (t : Int) : Nat := f32OfRat (decide (t < 0)) t.natAbs 16

/-- The FP32 encoding of a voltage in units of 10 mV. -/
def f32OfVolt (v10 : Nat) : Nat := f32OfRat false v10 100

end Sys2Proof
end

