-- ==== Sys2Proof/Machine/Float.lean ====
section
/-! DEFINITION. Arithmetic on binary floating-point numbers: exact values, one rounding per step, canonical NaN, and the functions
that the spec bounds in units of the last place (R104, R105, R125, R228). -/

set_option Elab.async false

namespace Sys2Proof

/-- The value of an encoding: NaN, an infinity, or ± mag × 2^exp exactly. -/
inductive Num where
  | nan
  | inf (neg : Bool)
  | fin (neg : Bool) (mag : Nat) (exp : Int)
  deriving DecidableEq, Repr

namespace Num

/-- Plus zero. -/
def zero : Num := .fin false 0 0

/-- One. -/
def one : Num := .fin false 1 0

/-- The integer `n` times 2^e. -/
def ofInt (n e : Int) : Num := .fin (decide (n < 0)) n.natAbs e

/-- The negation. -/
def neg : Num → Num
  | nan => nan
  | inf n => inf (!n)
  | fin n m e => fin (!n) m e

/-- Whether the value is NaN. -/
def isNan : Num → Bool
  | nan => true
  | _ => false

/-- Whether the value is an infinity. -/
def isInf : Num → Bool
  | inf _ => true
  | _ => false

/-- Whether the value is finite. -/
def isFin : Num → Bool
  | fin _ _ _ => true
  | _ => false

/-- The exact product; 0 × ∞ is NaN (R104). -/
def mul : Num → Num → Num
  | nan, _ => nan
  | _, nan => nan
  | inf a, inf b => inf (a != b)
  | inf a, fin b m _ => if m = 0 then nan else inf (a != b)
  | fin a m _, inf b => if m = 0 then nan else inf (a != b)
  | fin a m e, fin b n f => fin (a != b) (m * n) (e + f)

/-- A signed magnitude as an integer. -/
def signed (n : Bool) (m : Nat) : Int := if n then -(m : Int) else (m : Int)

/-- The exact sum; ∞ − ∞ is NaN, and a zero sum is negative only when both terms are negative (R104). -/
def add : Num → Num → Num
  | nan, _ => nan
  | _, nan => nan
  | inf a, inf b => if a = b then inf a else nan
  | inf a, fin _ _ _ => inf a
  | fin _ _ _, inf b => inf b
  | fin a m e, fin b n f =>
    let g := min e f
    let s := signed a (m * 2 ^ (e - g).toNat) + signed b (n * 2 ^ (f - g).toNat)
    if s = 0 then fin (a && b) 0 g else fin (decide (s < 0)) s.natAbs g

/-- The exact difference. -/
def sub (x y : Num) : Num := x.add y.neg

/-- The exact sum of a list. -/
def sum : List Num → Num
  | [] => zero
  | x :: xs => add x (sum xs)

/-- Whether the magnitude is zero. -/
def isZero : Num → Bool
  | fin _ m _ => decide (m = 0)
  | _ => false

/-- Whether `x` is less than `y`; false when either is NaN. -/
def lt : Num → Num → Bool
  | nan, _ => false
  | _, nan => false
  | inf a, inf b => a && !b
  | inf a, fin _ _ _ => a
  | fin _ _ _, inf b => !b
  | fin a m e, fin b n f =>
    let g := min e f
    decide (signed a (m * 2 ^ (e - g).toNat) < signed b (n * 2 ^ (f - g).toNat))

/-- Whether `x` equals `y`; false when either is NaN, and true for zeros of either sign. -/
def eq (x y : Num) : Bool := !x.isNan && !y.isNan && !x.lt y && !y.lt x

/-- Whether `x` is at most `y`; false when either is NaN. -/
def le (x y : Num) : Bool := x.lt y || x.eq y

/-- The magnitude. -/
def abs : Num → Num
  | nan => nan
  | inf _ => inf false
  | fin _ m e => fin false m e

end Num

/-! ### IEEE encodings -/

/-- A binary format: exponent bits and mantissa bits. -/
structure FFmt where
  eb : Nat
  mb : Nat
  deriving DecidableEq, Repr

/-- binary32, BF16 and binary16 (R97). -/
def fp32 : FFmt := ⟨8, 23⟩
def bf16 : FFmt := ⟨8, 7⟩
def fp16 : FFmt := ⟨5, 10⟩

/-- The exponent bias of a format. -/
def FFmt.bias (f : FFmt) : Nat := 2 ^ (f.eb - 1) - 1

/-- The greatest exponent field. -/
def FFmt.top (f : FFmt) : Nat := 2 ^ f.eb - 1

/-- The value of an encoding whose all-ones exponent is infinity or NaN. -/
def FFmt.decode (f : FFmt) (w : Nat) : Num :=
  let neg := bit w (f.eb + f.mb)
  let e := bits w (f.eb + f.mb - 1) f.mb
  let m := w % 2 ^ f.mb
  if e = f.top then (if m = 0 then .inf neg else .nan)
  else if e = 0 then .fin neg m (1 - (f.bias : Int) - f.mb)
  else .fin neg (2 ^ f.mb + m) ((e : Int) - f.bias - f.mb)

/-- The canonical NaN of a format (R104). -/
def FFmt.nan (f : FFmt) : Nat := f.top * 2 ^ f.mb + 2 ^ (f.mb - 1)

/-- An infinity's encoding. -/
def FFmt.inf (f : FFmt) (neg : Bool) : Nat := f.top * 2 ^ f.mb + (if neg then 2 ^ (f.eb + f.mb) else 0)

/-- A value rounded once to a format, to nearest with ties to even (R104). -/
def FFmt.encode (f : FFmt) : Num → Nat
  | .nan => f.nan
  | .inf neg => f.inf neg
  | .fin neg m e =>
    let n := if 0 ≤ e then m * 2 ^ e.toNat else m
    let d := if 0 ≤ e then 1 else 2 ^ (-e).toNat
    encodeMag (f.mb + 1) f.bias (f.top - 1) (roundRat (f.mb + 1) (1 - (f.bias : Int) - f.mb) n d) +
      (if neg then 2 ^ (f.eb + f.mb) else 0)

/-- The value of an FP32 word. -/
def f32 (w : Nat) : Num := fp32.decode w

/-- A value rounded to an FP32 word. -/
def to32 (x : Num) : Nat := fp32.encode x

/-- FP32 words that rules name: minus infinity, plus infinity, NaN and one. -/
def negInf32 : Nat := 0xFF800000
def posInf32 : Nat := 0x7F800000
def nan32 : Nat := 0x7FC00000
def one32 : Nat := 0x3F800000

/-- FP32 addition, subtraction and multiplication, and fused multiply-add, each rounded once. -/
def f32Add (a b : Nat) : Nat := to32 ((f32 a).add (f32 b))
def f32Sub (a b : Nat) : Nat := to32 ((f32 a).sub (f32 b))
def f32Mul (a b : Nat) : Nat := to32 ((f32 a).mul (f32 b))
def f32Fma (a b c : Nat) : Nat := to32 (((f32 a).mul (f32 b)).add (f32 c))

/-- Whether an FP32 word is NaN. -/
def f32IsNan (a : Nat) : Bool := (f32 a).isNan

/-- The larger of two FP32 words, NaN if either is NaN (R105). Plus zero counts as larger than minus zero. -/
def f32Max (a b : Nat) : Nat :=
  if f32IsNan a || f32IsNan b then nan32
  else if (f32 a).lt (f32 b) then b
  else if (f32 b).lt (f32 a) then a
  else if bit a 31 then b else a

/-- The smaller of two FP32 words, NaN if either is NaN. -/
def f32Min (a b : Nat) : Nat :=
  if f32IsNan a || f32IsNan b then nan32
  else if (f32 a).lt (f32 b) then a
  else if (f32 b).lt (f32 a) then b
  else if bit a 31 then a else b

/-- n / d of two FP32 words, correctly rounded; 0 / 0 and ∞ / ∞ are NaN (R104, R125). -/
def f32Div (a b : Nat) : Nat :=
  match f32 a, f32 b with
  | .nan, _ => nan32
  | _, .nan => nan32
  | .inf _, .inf _ => nan32
  | .inf x, .fin y _ _ => fp32.inf (x != y)
  | .fin x _ _, .inf y => if x != y then 2 ^ 31 else 0
  | .fin x m e, .fin y n f =>
    if n = 0 then (if m = 0 then nan32 else fp32.inf (x != y))
    else
      let k := e - f
      f32OfRat (x != y) (if 0 ≤ k then m * 2 ^ k.toNat else m) (if 0 ≤ k then n else n * 2 ^ (-k).toNat)

/-! ### Functions with a bound in units of the last place (DESIGN CHOICE log 11) -/

/-- An FP32 word moved by `δ` units in the last place along the order of values, between the infinities (DESIGN CHOICE log 11). -/
def stepUlp (w : Nat) (δ : Int) : Nat :=
  if δ = 0 then w
  else
    let key : Int := if bit w 31 then -((w - 2 ^ 31 : Nat) : Int) else (w : Int)
    let k := max (-(posInf32 : Int)) (min (posInf32 : Int) (key + δ))
    if k < 0 then 2 ^ 31 + k.natAbs else k.toNat

/-- The FP32 words within `b` units in the last place of n / d, about its rounded word `w`, whose unit is 2^e: the error is that from the
exact value (R125, R228) (DESIGN CHOICE log 11). -/
def ulpWords (b : Nat) (neg : Bool) (n d w : Nat) (e : Int) : List Nat :=
  ((List.range (2 * b + 1)).map fun i => stepUlp w ((i : Int) - (b : Int))).filter fun y =>
    (((f32 y).mul (.fin false d 0)).sub (.fin neg n 0)).abs.le (.fin false (b * d) e)

/-- The result of function `fn` for operand `x` whose exact value is n / d: a word within `b` units in the last place of it, which one being
free; a value that rounds to an infinity gives that infinity (DESIGN CHOICE log 11). -/
def freeUlp (fn b x : Nat) (neg : Bool) (n d : Nat) : Nat :=
  let w := f32OfRat neg n d
  match f32 w with
  | .fin _ _ e =>
    let ws := ulpWords b neg n d w e
    (ws[Config.ulp fn x % ws.length]?).getD w
  | _ => w

/-- m × 2^e as a fraction. -/
def ratOf (m : Nat) (e : Int) : Nat × Nat := (if 0 ≤ e then m * 2 ^ e.toNat else m, if 0 ≤ e then 1 else 2 ^ (-e).toNat)

/-- ln 2 in units of 2^−640, and in units of 2^−p. -/
def ln2Wide : Nat :=
  3162442850577000144542819255265044123884198300717798677536341180773118696995660441338367561063358767323571958122307070903190084685977847936741854327993944726832264493303953239866611699627604094
def ln2Fix (p : Nat) : Nat := ln2Wide / 2 ^ (640 - p)

/-- Σ rⁿ / n! in units of 2^−p for r in the same units, with `k` terms, from term `t` of number `n`. -/
def expTaylor (p r : Nat) : Nat → Nat → Nat → Nat
  | 0, _, _ => 0
  | k + 1, n, t => t + expTaylor p r k (n + 1) (t * r / 2 ^ p / (n + 1))

/-- exp of m × 2^e (negated when `neg`) as a fraction, but for error far below a unit in the last place. -/
def expRat (neg : Bool) (m : Nat) (e : Int) : Nat × Nat :=
  let x : Nat := if 0 ≤ e + 160 then m * 2 ^ (e + 160).toNat else m / 2 ^ (-(e + 160)).toNat
  if 200 * 2 ^ 160 < x then (if neg then (1, 2 ^ 200) else (2 ^ 200, 1))
  else
    let k : Int := if neg then -((x / ln2Fix 160 + 1 : Nat) : Int) else ((x / ln2Fix 160 : Nat) : Int)
    let r : Nat := if neg then (x / ln2Fix 160 + 1) * ln2Fix 160 - x else x % ln2Fix 160
    ratOf (expTaylor 160 r 60 0 (2 ^ 160)) (k - 160)

/-- exp in FP32 within 2 units in the last place; exp(±0) is 1, exp(−∞) is +0 (R124, R125). `who` names the unit (DESIGN CHOICE log 11). -/
def f32Exp (who a : Nat) : Nat :=
  match f32 a with
  | .nan => nan32
  | .inf neg => if neg then 0 else posInf32
  | .fin neg m e => if m = 0 then one32 else
      let x := expRat neg m e
      let w := freeUlp who 2 a false x.1 x.2
      if bit w 31 then 0 else w

/-- Σ z^(2i+1) / (2i + 1) in units of 2^−p, z² = `zz`, with `k` terms, from odd power `t` and `n`. -/
def lnSeries (p zz : Nat) : Nat → Nat → Nat → Nat
  | 0, _, _ => 0
  | k + 1, n, t => t / n + lnSeries p zz k (n + 2) (t * zz / 2 ^ p)

/-- ln of a positive m × 2^e in units of 2^−p. -/
def lnFix (p m : Nat) (e : Int) : Int :=
  let g := Nat.log2 m
  let k : Int := e + g
  let f := m * 2 ^ p / 2 ^ g
  let z := (f - 2 ^ p) * 2 ^ p / (f + 2 ^ p)
  k * (ln2Fix p : Int) + 2 * (lnSeries p (z * z / 2 ^ p) (p / 3 + 4) 1 z : Int)

/-- ln in FP32 within 2 units in the last place; ln of zero is −∞ and of a negative number NaN (R125) (DESIGN CHOICE log 11). -/
def f32Ln (who a : Nat) : Nat :=
  match f32 a with
  | .nan => nan32
  | .inf neg => if neg then nan32 else posInf32
  | .fin neg m e =>
    if m = 0 then negInf32
    else if neg then nan32
    else if a = one32 then 0
    else
      let x := lnFix 160 m e
      freeUlp who 2 a (decide (x < 0)) x.natAbs (2 ^ 160)

/-- The integer square root by Newton steps from above. -/
def isqrtFrom (n : Nat) : Nat → Nat → Nat
  | 0, x => x
  | k + 1, x => let y := (x + n / x) / 2; if y < x then isqrtFrom n k y else x

/-- The integer square root. -/
def isqrt (n : Nat) : Nat := if n = 0 then 0 else isqrtFrom n 64 (2 ^ (Nat.log2 n / 2 + 1))

/-- 1/√(m × 2^e) for a positive m, as a fraction: √(2^(−e) / m), scaled by 2^300 with an even exponent. -/
def rsqrtRat (m : Nat) (e : Int) : Nat × Nat :=
  let e' : Int := if e % 2 = 0 then e else e - 1
  let m' := if e % 2 = 0 then m else 2 * m
  let s := 2 * (Nat.log2 m' + 200)
  ratOf (isqrt (2 ^ s / m')) (-((s / 2 : Nat) : Int) - e' / 2)

/-- 1/√x in FP32 within `b` units in the last place (R228): +∞ of +0, −∞ of −0, NaN of a negative number (DESIGN CHOICE log 11). -/
def f32Rsqrt (who b a : Nat) : Nat :=
  match f32 a with
  | .nan => nan32
  | .inf neg => if neg then nan32 else 0
  | .fin neg m e =>
    if m = 0 then fp32.inf neg
    else if neg then nan32
    else
      let x := rsqrtRat m e
      freeUlp who b a false x.1 x.2

/-- 1/x in FP32 within `b` units in the last place; of ±0 it is ±∞ and of ±∞ it is ±0. -/
def f32Recip (who b a : Nat) : Nat :=
  match f32 a with
  | .nan => nan32
  | .inf neg => if neg then 2 ^ 31 else 0
  | .fin neg m e =>
    if m = 0 then fp32.inf neg
    else freeUlp who b a neg (if e ≤ 0 then 2 ^ (-e).toNat else 1) (if 0 ≤ e then m * 2 ^ e.toNat else m)

end Sys2Proof
end

