-- ==== Sys2Proof/Machine/Formats.lean ====
section
/-! DEFINITION. The element encodings, block scales and escape entries, dot products by groups, and conversion into narrow formats
(R97 to R103, R106 to R115). -/

set_option Elab.async false

namespace Sys2Proof

/-- The element encodings, by the format codes of R133 and R201 (INT32 is code 0xC of R258). -/
inductive Enc where
  | fp4
  | e4m3
  | e5m2
  | int8
  | bf16
  | fp16
  | fp32
  | k2
  | kt
  | raw
  | e2m3
  | e3m2
  | int32
  deriving DecidableEq, Repr

/-- The encoding of a format code. -/
def encOf (c : Nat) : Option Enc :=
  match c with
  | 0x0 => some .fp4
  | 0x1 => some .e4m3
  | 0x2 => some .e5m2
  | 0x3 => some .int8
  | 0x4 => some .bf16
  | 0x5 => some .fp16
  | 0x6 => some .fp32
  | 0x7 => some .k2
  | 0x8 => some .kt
  | 0x9 => some .raw
  | 0xA => some .e2m3
  | 0xB => some .e3m2
  | 0xC => some .int32
  | _ => none

/-- The bits of one element; KT packs five into a byte (R98). -/
def Enc.width : Enc → Nat
  | .fp4 => 4
  | .e4m3 | .e5m2 | .int8 | .raw => 8
  | .bf16 | .fp16 => 16
  | .fp32 | .int32 => 32
  | .k2 => 2
  | .kt => 8
  | .e2m3 | .e3m2 => 6

/-- The elements of a block, 0 where the encoding is not blocked (R98). -/
def Enc.block : Enc → Nat
  | .fp4 | .e4m3 | .e5m2 | .int8 | .k2 | .e2m3 | .e3m2 => 32
  | .kt => 80
  | .bf16 | .fp16 | .fp32 | .raw | .int32 => 0

/-- Whether the encoding is blocked. -/
def Enc.blocked (c : Enc) : Bool := decide (c.block ≠ 0)

/-- The bytes that `n` elements take (R98, R99, R103). -/
def Enc.bytes (c : Enc) (n : Nat) : Nat := if c = .kt then (n + 4) / 5 else (c.width * n + 7) / 8

/-- A small float of the OCP encodings: exponent bits, mantissa bits and bias; no infinities or NaN (R97). -/
def miniDecode (eb mb bias w : Nat) : Num :=
  let neg := bit w (eb + mb)
  let e := bits w (eb + mb - 1) mb
  let m := w % 2 ^ mb
  if e = 0 then .fin neg m (1 - (bias : Int) - mb) else .fin neg (2 ^ mb + m) ((e : Int) - bias - mb)

/-- An E4M3 value: 0x7F and 0xFF are NaN (R97). -/
def e4m3Decode (w : Nat) : Num := if w % 128 = 0x7F then .nan else miniDecode 4 3 7 w

/-- A signed value of `k` bits. -/
def toSigned (k w : Nat) : Int := if bit w (k - 1) then (w % 2 ^ k : Nat) - (2 ^ k : Int) else (w % 2 ^ k : Nat)

/-- The value of one element code, before its block scale (R97, R101 to R103). K2 codes carry the half of R102. For KT the code is the
trit, or 3 in a reserved byte. -/
def Enc.value : Enc → Nat → Num
  | .fp4, w => miniDecode 2 1 1 w
  | .e2m3, w => miniDecode 2 3 1 w
  | .e3m2, w => miniDecode 3 2 3 w
  | .e4m3, w => e4m3Decode w
  | .e5m2, w => FFmt.decode ⟨5, 2⟩ w
  | .int8, w => Num.ofInt (toSigned 8 w) (-6)
  | .bf16, w => Sys2Proof.bf16.decode w
  | .fp16, w => Sys2Proof.fp16.decode w
  | .fp32, w => Sys2Proof.fp32.decode w
  | .k2, w => Num.ofInt (2 * (w : Int) - 3) (-1)
  | .kt, w => if w = 3 then .nan else Num.ofInt ((w : Int) - 1) 0
  | .raw, w => Num.ofInt w 0
  | .int32, w => Num.ofInt (toSigned 32 w) 0

/-- The trits of a KT byte, 3 for each of a reserved byte (R103). -/
def ktTrits (b : Nat) : List Nat :=
  if 0xF3 ≤ b then [3, 3, 3, 3, 3] else [b % 3, b / 3 % 3, b / 9 % 3, b / 27 % 3, b / 81 % 3]

/-- The codes of the first `n` elements of packed bytes (R99, R103). -/
def Enc.codes (c : Enc) (bs : List Byte) (n : Nat) : List Nat :=
  if c = .kt then (bs.flatMap fun b => ktTrits b.toNat).take n
  else let x := leNat (bs.take (c.bytes n)); (List.range n).map fun i => x >>> (c.width * i) % 2 ^ c.width

/-- A block's scale: E8M0 with 0xFF NaN (R100), or E4M3 for K2 and KT (R102, R103). -/
def Enc.scale (c : Enc) (b : Nat) : Num :=
  match c with
  | .k2 | .kt => e4m3Decode b
  | _ => if b = 0xFF then .nan else .fin false 1 ((b : Int) - 127)

/-- An element as arithmetic meets it: its value, its block's number, and its block's scale (1 where there is none). -/
structure Elem where
  v : Num
  blk : Nat
  scale : Num
  deriving DecidableEq, Repr

/-- The element's scaled value. -/
def Elem.num (x : Elem) : Num := x.v.mul x.scale

/-- `n` elements from packed bytes, the first of block `b0`, with the scale bytes of consecutive blocks. -/
def Enc.elems (c : Enc) (bs scales : List Byte) (b0 n : Nat) : List Elem :=
  (c.codes bs n).zipIdx.map fun wi =>
    if c.blocked then
      let k := wi.2 / c.block
      ⟨c.value wi.1, b0 + k, c.scale (scales[k]?.getD 0).toNat⟩
    else ⟨c.value wi.1, 0, .one⟩

/-- The elements of an escape entry for one block (R114): E4M3 elements, with one E8M0 scale, or three for a KT block. `b` numbers
the block apart from every other. -/
def escapeElems (kt : Bool) (entry : List Byte) (b : Nat) : List Elem :=
  let n := if kt then 80 else 32
  (Enc.codes .e4m3 entry n).zipIdx.map fun wi =>
    ⟨e4m3Decode wi.1, b * 4 + wi.2 / 32, Enc.scale .e4m3 (entry[n + wi.2 / 32]?.getD 0).toNat⟩

/-- A block that reads as NaN (R115). -/
def nanElems (kt : Bool) (b : Nat) : List Elem := List.replicate (if kt then 80 else 32) ⟨.nan, b, .one⟩

/-! ### Accumulation -/

/-- An FP32 accumulator with its counts: scale overflows and saturations (R109). -/
structure Acc where
  w : Nat
  ovf : Nat
  sat : Nat
  deriving DecidableEq, Repr

/-- A start value for an accumulation. -/
def Acc.start (w : Nat) : Acc := ⟨w, 0, 0⟩

/-- An exact value added with one rounding; `group` marks a group's scaled sum, whose own overflow counts apart (R107 to R109). -/
def Acc.add (group : Bool) (a : Acc) (t : Num) : Acc :=
  if group && t.isFin && (f32 (to32 t)).isInf then ⟨to32 ((f32 a.w).add (f32 (to32 t))), a.ovf + 1, a.sat⟩
  else
    let r := to32 ((f32 a.w).add t)
    ⟨r, a.ovf, if (f32 a.w).isFin && t.isFin && (f32 r).isInf then a.sat + 1 else a.sat⟩

/-- The products of paired elements summed exactly to the group's end and added there, scaled by both scales (R106, R107). `g` is the open
group: its exact sum and its scales. -/
def groupDot (a : Acc) (g : Option (Num × Nat × Nat × Num)) : List (Elem × Elem) → Acc
  | [] => match g with
    | some (s, _, _, k) => a.add true (s.mul k)
    | none => a
  | (x, y) :: ps =>
    let p := x.v.mul y.v
    match g with
    | some (s, b, c, k) =>
      if x.blk = b ∧ y.blk = c then groupDot a (some (s.add p, b, c, k)) ps
      else groupDot (a.add true (s.mul k)) (some (p, x.blk, y.blk, x.scale.mul y.scale)) ps
    | none => groupDot a (some (p, x.blk, y.blk, x.scale.mul y.scale)) ps

/-- The products of paired elements added one by one (R108, R132). -/
def productDot (a : Acc) : List (Elem × Elem) → Acc
  | [] => a
  | (x, y) :: ps => productDot (a.add false (x.num.mul y.num)) ps

/-- A dot product: by groups where both operands are blocked, by products otherwise. -/
def dot (blocked : Bool) (a : Acc) (xs ys : List Elem) : Acc :=
  if blocked then groupDot a none (xs.zip ys) else productDot a (xs.zip ys)

/-! ### Conversion into narrow formats (R110 to R112) -/

/-- The largest finite magnitude of a blocked encoding, and its significant bits and least exponent unit (R97). -/
def Enc.narrow : Enc → Option (Num × Nat × Int)
  | .fp4 => some (.fin false 6 0, 2, -1)
  | .e2m3 => some (.fin false 15 (-1), 4, -3)
  | .e3m2 => some (.fin false 28 0, 3, -4)
  | .e4m3 => some (.fin false 448 0, 4, -9)
  | .e5m2 => some (.fin false 57344 0, 3, -16)
  | .int8 => some (.fin false 127 (-6), 8, -6)
  | _ => none

/-- A finite magnitude m × 2^e rounded to nearest even in an encoding's grid. -/
def gridRound (p : Nat) (emin : Int) (m : Nat) (e : Int) : Nat × Int :=
  roundRat p emin (if 0 ≤ e then m * 2 ^ e.toNat else m) (if 0 ≤ e then 1 else 2 ^ (-e).toNat)

/-- The code of a rounded magnitude in a small float of the OCP encodings. -/
def miniCode (p bias : Nat) (mq : Nat × Int) : Nat :=
  if mq.1 < 2 ^ (p - 1) then mq.1 else (mq.2 + (p : Int) - 1 + bias).toNat * 2 ^ (p - 1) + (mq.1 - 2 ^ (p - 1))

/-- The code of a rounded magnitude with its sign. -/
def Enc.code (c : Enc) (neg : Bool) (mq : Nat × Int) : Nat :=
  let s := fun (b : Nat) => if neg then 2 ^ b else 0
  match c with
  | .fp4 => miniCode 2 1 mq + s 3
  | .e2m3 => miniCode 4 1 mq + s 5
  | .e3m2 => miniCode 3 3 mq + s 5
  | .e4m3 => miniCode 4 7 mq + s 7
  | .e5m2 => miniCode 3 15 mq + s 7
  | .int8 => let n := mq.1 * 2 ^ (mq.2 + 6).toNat; if neg then (256 - n) % 256 else n
  | _ => 0

/-- The smallest X, searched upward from `x`, for which `a` / 2^X rounds to at most the encoding's largest finite value (R110). -/
def scaleSearch (c : Enc) (m : Nat) (e : Int) : Nat → Int → Int
  | 0, x => x
  | k + 1, x =>
    match c.narrow with
    | some (big, p, emin) =>
      let r := gridRound p emin m (e - x)
      if (Num.fin false r.1 r.2).le big then x else scaleSearch c m e k (x + 1)
    | none => x

/-- The scale exponent X of R110 for a block whose largest finite magnitude is m × 2^e, with m ≠ 0: searched from far below its answer and
kept within −127 to 127. -/
def scaleExp (c : Enc) (m : Nat) (e : Int) : Int :=
  let start := (Nat.log2 m : Int) + e - 17
  max (-127) (min 127 (scaleSearch c m e 24 start))

/-- The result of converting one block: scale byte, element codes, saturations, scale overflows, and the NAN and SAT flags. -/
structure Converted where
  scale : Nat
  codes : List Nat
  sat : Nat
  ovf : Nat
  nan : Bool
  satAt : List Nat
  nanAt : List Nat
  deriving DecidableEq, Repr

/-- Whether an encoding has NaN encodings, and whether it has infinities (R97). -/
def Enc.hasNan (c : Enc) : Bool := c = .e4m3 || c = .e5m2
def Enc.hasInf (c : Enc) : Bool := c = .e5m2

/-- One element converted with scale exponent `x`, as (code, saturations, scale overflow, NaN) (R110, R111). -/
def convertElem (c : Enc) (x : Int) (v : Num) : Nat × Nat × Bool × Bool :=
  match c.narrow with
  | none => (0, 0, false, false)
  | some (big, p, emin) =>
    let bigMq : Nat × Int := match big with | .fin _ m e => gridRound p emin m e | _ => (0, 0)
    match v with
    | .nan => (if c = .e4m3 then 0x7F else 0x7E, 0, false, true)
    | .inf neg =>
      if c.hasInf then (0x7C + (if neg then 128 else 0), 0, false, false) else (c.code neg bigMq, 1, true, false)
    | .fin neg m e =>
      let r := gridRound p emin m (e - x)
      if (Num.fin false r.1 r.2).le big then (c.code neg r, 0, false, false)
      else if c.hasInf then (0x7C + (if neg then 128 else 0), 1, false, false)
      else (c.code neg bigMq, 1, false, false)

/-- The largest finite magnitude of a list, zero when there is none. -/
def maxFinite : List Num → Num
  | [] => .zero
  | v :: vs => let r := maxFinite vs; if v.isFin && r.lt v.abs then v.abs else r

/-- The indices of a list whose entries satisfy `p`. -/
def indicesOf {α : Type} (p : α → Bool) (l : List α) : List Nat := (l.zipIdx.filter fun xi => p xi.1).map (·.2)

/-- A block of values converted into a blocked encoding (R110 to R112) (DESIGN CHOICE log 61). -/
def convertBlock (c : Enc) (vs : List Num) : Converted :=
  let anyNan := vs.any Num.isNan
  if anyNan && !c.hasNan then ⟨0xFF, List.replicate vs.length 0, 0, 0, true, [], indicesOf Num.isNan vs⟩
  else
    let (scale, x) : Nat × Int := match maxFinite vs with
      | .fin _ m e => if m = 0 then (0, 0) else let x := scaleExp c m e; ((x + 127).toNat, x)
      | _ => (0, 0)
    let rs := vs.map (convertElem c x)
    ⟨scale, rs.map (·.1), (rs.map (·.2.1)).sum, if rs.any (·.2.2.1) then 1 else 0, anyNan,
      indicesOf (fun r => decide (r.2.1 ≠ 0)) rs, indicesOf Num.isNan vs⟩

/-- Element codes packed least significant first (R99). -/
def packCodes (w : Nat) (cs : List Nat) : Nat := cs.foldr (fun c n => c % 2 ^ w + 2 ^ w * n) 0

/-- The bytes of packed element codes. -/
def Enc.pack (c : Enc) (cs : List Nat) : List Byte := leBytes (c.bytes cs.length) (packCodes c.width cs)

/-! ### Softmax partials (R124 to R126) -/

/-- A partial: m, l and o in FP32. -/
structure Partial where
  m : Nat
  l : Nat
  o : List Nat
  deriving DecidableEq, Repr

/-- The partial over no score (R124). -/
def Partial.empty (n : Nat) : Partial := ⟨negInf32, 0, List.replicate n 0⟩

/-- The merge of two partials by unit `who` (R124): m is NaN if either is; with m at −∞ the result is empty. -/
def Partial.merge (who : Nat) (p q : Partial) : Partial :=
  let m := f32Max p.m q.m
  if m = negInf32 then Partial.empty (max p.o.length q.o.length)
  else
    let a := f32Exp who (f32Sub p.m m)
    let b := f32Exp who (f32Sub q.m m)
    let n := max p.o.length q.o.length
    ⟨m, f32Add (f32Mul a p.l) (f32Mul b q.l),
      (List.range n).map fun i => f32Add (f32Mul a (p.o[i]?.getD 0)) (f32Mul b (q.o[i]?.getD 0))⟩

/-- The log-sum-exp of a partial, in the cases of R125. -/
def Partial.lse (who : Nat) (p : Partial) : Nat :=
  if f32IsNan p.m || f32IsNan p.l then nan32
  else if (f32 p.l).isZero then negInf32
  else f32Add p.m (f32Ln who p.l)

/-- The normalised output of a partial, in the cases of R125. -/
def Partial.out (p : Partial) : List Nat :=
  if f32IsNan p.m || f32IsNan p.l then p.o.map fun _ => nan32
  else if (f32 p.l).isZero then p.o.map fun _ => 0
  else p.o.map fun x => f32Div x p.l

end Sys2Proof
end

