-- ==== Sys2Proof/Machine/FabricParts.lean ====
section
/-! DEFINITION. The state types of the optical engines, the lane layer and the Caravan fabric (chapters 14 and 16). -/

set_option Elab.async false

namespace Sys2Proof.Machine

open Sys2Proof

/-- What a fabric port does (R370, R406, R381): dark or down, training, up, refused as miscabled, or in keep-alive. -/
inductive PortPhase where
  | down | training | up | miscabled | keepAlive
  deriving DecidableEq, Repr

/-- A physical lane of an engine (R370 to R372, R377, R380): whether it sees light, has received TS1, a countdown and a satisfied
equalisation request, the TS2 blocks in a row, the last marker count, the block alignment and electrical idle of a host lane; then whether
it has failed, how often, and its passes in a row since. -/
structure Lane where
  lit : Bool
  ts1 : Bool
  countdown : Bool
  eqOk : Bool
  ts2 : Nat
  am : Option Nat
  aligned : Bool
  eidle : Bool
  failed : Bool
  fails : Nat
  passes : Nat
  deriving DecidableEq, Repr

/-- A lane that nothing has used since module reset. -/
def freshLane : Lane := ⟨false, false, false, false, 0, none, false, false, false, 0, 0⟩

/-- A calibration (R379): the logical lane, its own physical lane, the spare that carries it, and whether the peer makes the moves. -/
structure Calibration where
  logical : Nat
  own : Nat
  spare : Nat
  byPeer : Bool
  deriving DecidableEq, Repr

/-- An optical engine (R358 to R379): the physical lane of each logical lane, wavelengths on their spare laser, wavelengths with both
lasers failed, wavelengths that are switching, wavelengths that a peer holds, the next lane to calibrate and the calibration under way. -/
structure Engine where
  map : List Nat
  spare : List Nat
  dark : List Nat
  relock : List Nat
  held : List Nat
  calNext : Nat
  cal : Option Calibration
  deriving DecidableEq, Repr

/-- An engine that nothing has used since module reset: every logical lane on its own physical lane (R383). -/
def freshEngine : Engine := ⟨List.range 32, [], [], [], [], 0, none⟩

/-- A swap that this end has requested (R373): logical lane, the physical lane that it leaves, spare and reason. -/
structure Swap where
  logical : Nat
  old : Nat
  spare : Nat
  reason : Nat
  deriving DecidableEq, Repr

/-- A flit sent and not acknowledged (R367, R368): its number, whether it carries data, and its 240 payload bytes. -/
structure Flit where
  seq : Nat
  data : Bool
  payload : List Byte
  deriving DecidableEq, Repr

/-- A frame in a port's buffer that waits to leave (R412, R413): its bytes, its virtual channel, the time since which it waits, and the
port, class and channel whose receive buffer it occupies, if it came in on one. -/
structure OutFrame where
  bytes : List Byte
  vc : Nat
  time : Nat
  from_ : Option (Nat × Nat × Nat)
  deriving DecidableEq, Repr

/-- A lane group: a fabric port, or the lanes of a host port (chapters 14 and 16). `rate` is whether the lanes have changed to the port's
mode; `eq` whether this end's own equalisation is satisfied; `half` the half that a narrow port uses (R376); `peer` the module, die and
engine learned, with the code of TS1 bits [15:14]; then the state of R368, the bytes of a frame that has begun, the frames that wait, and
the credits held by 3 × class + channel (R412). -/
structure FPort where
  phase : PortPhase
  rate : Bool
  eq : Bool
  half : Option Nat
  peer : Nat
  peerKind : Nat
  peerDie : Nat
  peerEngine : Nat
  epoch : Nat
  swap : Option Swap
  txNext : Nat
  rxNext : Nat
  flits : List Flit
  naked : Bool
  resends : Nat
  rxBytes : List Byte
  out : List OutFrame
  credits : NMap Nat
  deriving DecidableEq, Repr

/-- A port that nothing has used since module reset. -/
def freshFPort : FPort where
  phase := .down
  rate := false
  eq := false
  half := none
  peer := 0
  peerKind := 0
  peerDie := 0
  peerEngine := 0
  epoch := 0
  swap := none
  txNext := 0
  rxNext := 0
  flits := []
  naked := false
  resends := 0
  rxBytes := []
  out := []
  credits := []

/-- A request of this module that no response has answered, or whose response its requester has not yet used (R409, R416): the die and
agent that sent it, its tag, type and destination, the address and length, what it serves as (kind, unit, item, offset), and the status
and data of its response. -/
structure CReq where
  tag : Nat
  d : Nat
  agent : Nat
  kind : Nat
  dst : Nat
  addr : Nat
  len : Nat
  owner : Nat × Nat × Nat × Nat
  result : Option (Nat × List Byte)
  deriving DecidableEq, Repr

/-- A collective that runs on a die's engine (R423 to R427): its notice's slot, pointer, tag and sender; its descriptor; the group's size
and this member's index; phase 0 reduce, 1 gather, 2 head merge; the step of the phase; the chunks held, by number, as words; what has
arrived of the expected chunk, as (offset, words); the partial, and the children that have arrived. -/
structure Coll where
  d : Nat
  slot : Nat
  pointer : Nat
  tag : Nat
  sender : Nat
  desc : List Byte
  p : Nat
  index : Nat
  phase : Nat
  step : Nat
  chunks : NMap (List Nat)
  got : List (Nat × List Nat)
  part : Partial
  kids : List Nat
  deriving DecidableEq, Repr

/-- A collective frame whose collective its member has not started, or that comes before its step: the die, its bytes, and the buffer it
occupies (R426). -/
structure CollFrame where
  d : Nat
  bytes : List Byte
  from_ : Option (Nat × Nat × Nat)
  deriving DecidableEq, Repr

/-- The fabric as a whole: lanes by engine × 64 + physical lane, engines, ports (0 to 47 fabric, 48 to 55 the lanes of a host port), modules
marked down (R422), requests, the next tag, collectives and their waiting frames. -/
structure Fabric where
  lanes : NMap Lane
  engines : NMap Engine
  ports : NMap FPort
  down : List Nat
  reqs : List CReq
  tagNext : Nat
  colls : List Coll
  collBuf : List CollFrame
  deriving DecidableEq, Repr

/-- The fabric after module reset (DESIGN CHOICE log 9). -/
def freshFabric : Fabric := ⟨[], [], [], [], [], 0, [], []⟩

end Sys2Proof.Machine
end

