-- ==== Sys2Proof/Machine/KvParts.lean ====
section
/-! DEFINITION. The state types of the KV manager, the attention sequencers and the loader (chapters 12 and 13). -/

set_option Elab.async false

namespace Sys2Proof.Machine

open Sys2Proof

/-- A page-table entry by sequence, plane and index (R311). -/
structure PageId where
  seq : Nat
  plane : Nat
  index : Nat
  deriving DecidableEq, Repr

/-- A spill or a prefetch in flight (R320, R321): its die and number, page, entry, frame and far slot; when it was asked for; whether it has
started; and the CRC of a spill's slot. -/
structure FarJob where
  id : Nat
  d : Nat
  spill : Bool
  page : PageId
  n : Nat
  frame : Nat
  slot : Nat
  time : Nat
  crc : Nat
  deriving DecidableEq, Repr

/-- A bank sequence that a step row waits for: its identity, its query head and its stack; and the frame whose band's rotation area it
holds (R327, R329). -/
structure RowSeq where
  id : Nat
  head : Nat
  stk : Nat
  area : Option (BankId × Nat)
  deriving DecidableEq, Repr

/-- A partial on its way (R330): its query head, where it stands (0 at its stack's merge unit, 1 at the ASEQ of its die, 2 at the home
ASEQ), the stack or die, and its value. -/
structure RowPart where
  head : Nat
  level : Nat
  at_ : Nat
  part : Partial
  deriving DecidableEq, Repr

/-- A page of a row that one query head has still to be scored against (R327, R332): the query head, its KV head group and KV head, the page
number and the frame. -/
structure HeadPage where
  head : Nat
  group : Nat
  h : Nat
  n : Nat
  frame : Nat
  deriving DecidableEq, Repr

/-- A row of a step (R324 to R326): its 32 bytes as read, the steps of R326 that are done, the precedence of its failure in R325 (99 for
none) with its status and reason, APPENDED, LENGTH after the append, the frame that it holds pinned for each page, pages whose transfers it
waits for, bank sequences to issue and in flight, pages to run in core mode, and partials. -/
structure StepRow where
  bytes : List Byte
  phase : Nat
  prec : Nat
  status : Nat
  reason : Nat
  appended : Bool
  length : Nat
  pins : List (PageId × Nat)
  waits : List PageId
  todo : List HeadPage
  core : List HeadPage
  seqs : List RowSeq
  parts : List RowPart
  deriving DecidableEq, Repr

/-- A row as read, of which nothing has been done. -/
def freshRow (bytes : List Byte) : StepRow := ⟨bytes, 0, 99, 0, 0, false, 0, [], [], [], [], [], []⟩

/-- A step that an attention sequencer has accepted and not completed (R323 to R326): die, cluster, pointer, tag and sender of its notice,
its header as read, the model's record, its rows, the reason of a failure at precedence 1, and whether its header is written and its completion
notice posted, or kept to be posted (R40). -/
structure Step where
  d : Nat
  k : Nat
  id : Nat
  pointer : Nat
  tag : Nat
  sender : Nat
  header : List Byte
  model : Nat
  rows : List StepRow
  failed : Option Nat
  ended : Bool
  deriving DecidableEq, Repr

/-- A KV request that KV_SERVICE has begun and that waits for frames or transfers (R314): the core that serves it, its record, its tag, and
the pages that it holds pinned. -/
structure KvWait where
  d : Nat
  c : Nat
  pointer : Nat
  pins : List Nat
  deriving DecidableEq, Repr

/-- The KV manager (chapter 12). The structures themselves lie in memory (R302); here stand the ranges in use of the structures region,
the numbers of the frames that are not FREE, the look-aside buffers by die × 4 + cluster (most recent first), far slots in use, transfers,
whether the far tier is unreachable, dies whose engine spills towards its upper mark, dies on which an allocation waits for a spill and pages
whose prefetch waits for a frame (R312, R320, R321), steps, and requests that wait. -/
structure Kv where
  ranges : List (Nat × Nat)
  used : List Nat
  labs : NMap (List PageId)
  farUsed : List Nat
  farJobs : List FarJob
  farNext : Nat
  unreachable : Bool
  spilling : List Nat
  hungry : List Nat
  wanted : List PageId
  steps : List Step
  stepNext : Nat
  waits : List KvWait
  deriving DecidableEq, Repr

/-- The KV manager after module reset (DESIGN CHOICE log 9). -/
def freshKv : Kv := ⟨[], [], [], [], [], 0, false, [], [], [], [], 0, []⟩

/-- A task's state (R337, R357). -/
inductive TaskState where
  | loading | loaded | running | aborting
  deriving DecidableEq, Repr

/-- A START or ABORT that waits for its reply: the address and tag of its request, and the sender of its notice. -/
structure LdrReq where
  pointer : Nat
  tag : Nat
  sender : Nat
  deriving DecidableEq, Repr

/-- A half of a stream buffer (R350): the allocation it holds, whether its fetch still runs, and the order of its last read. -/
structure Half where
  alloc : Option Nat
  fetching : Bool
  used : Nat
  deriving DecidableEq, Repr

/-- A task (R337): its state, the sender that posted its LOAD, the image as the loader keeps it and the loader-area space of the copy, the
base of each allocation, allocations moved to the weight reserve with their far offset, the stream buffer's base and half size and its two
halves, its model records' addresses, the requests that wait, the cores that took DONE, and the run report of R354. -/
structure Task where
  id : Nat
  state : TaskState
  owner : Nat
  image : List Byte
  bases : List Nat
  moved : List (Nat × Nat)
  buffer : Option (Nat × Nat)
  halves : List Half
  models : List Nat
  load : Option LdrReq
  start : Option LdrReq
  aborts : List LdrReq
  done : List Nat
  report : List Byte
  deriving DecidableEq, Repr

/-- The loader (chapter 13): tasks by identifier, and the code of the last rejected LOAD. -/
structure Loader where
  tasks : List Task
  rejLast : Nat
  deriving DecidableEq, Repr

/-- The loader after module reset (DESIGN CHOICE log 9). -/
def freshLoader : Loader := ⟨[], 0⟩

end Sys2Proof.Machine
end

