-- ==== Sys2Proof/Machine/SysParts.lean ====
section
/-! DEFINITION. The state types of the module as a whole: power, start-up, fuses, flash, management, faults, memory, stacks and
host ports (chapters 00, 02, 03, 15, 17, 18, 19). -/

set_option Elab.async false

namespace Sys2Proof.Machine

open Sys2Proof

/-- The module states of R492, with the two transitions that PTM_STATE.STATE names (R497). -/
inductive Mode where
  | off | standby | booting | warmUp | ready | dormant | maintenance | safe | enteringDormant | waking
  deriving DecidableEq, Repr

/-- The level of the open-drain FAULT pin (R470, R499). -/
inductive PinLevel where
  | hiZ | low | high
  deriving DecidableEq, Repr

/-- A sensor's latest reading in 1/16 °C, whether R485 excluded it, and how many throttle-loop readings in a row were at
least 5 °C (R490, counted up to 2). -/
structure Sensor where
  temp : Int
  excluded : Bool
  warm : Nat
  deriving DecidableEq, Repr

/-- Who demanded a reading (R484). -/
inductive DemandBy where
  | loop | refresh | host | mgmt
  deriving DecidableEq, Repr

/-- A demand on sensor `idx` of die `d` that waits for the end of a conversion. -/
structure Demand where
  d : Nat
  idx : Nat
  by_ : DemandBy
  deriving DecidableEq, Repr

/-- Power, temperature, states and pins (chapter 19). Voltages are in mV. -/
structure Power where
  mode : Mode
  aux : Bool
  nresetHigh : Bool
  deferred : Bool
  strapPins : Nat
  straps : Nat
  rails : Bool
  busShut : Bool
  powerCap : Nat
  dieCap : NMap Nat
  vddq : NMap Nat
  ambient : Option Int
  sensors : NMap Sensor
  demands : List Demand
  trim : NMap Int
  heldWork : Bool
  phasesOn : Nat
  pin : PinLevel
  pulse : Bool
  i3cStatic : Option Nat
  i3cDynamic : Option Nat
  deriving DecidableEq, Repr

/-- The fuses (R1, R2, R3, R7, R436, R438, R448): the grade, the map of present cores of each die, and what boot code blows. DE1 needs no
map of its own: the grade decides whether present cores have it (DESIGN CHOICE log 4). -/
structure Fuses where
  grade : Nat
  core : NMap Nat
  ownerDigest : Option Nat
  svnBits : Nat
  seed : List Byte
  deriving DecidableEq, Repr

/-- An entry of the repair log in flash (R89, R95, R505). -/
inductive Repair where
  | tsv (stk ch : Nat) (control : Bool)
  | bank (stk die bank : Nat)
  | die (stk die : Nat)
  | parity (stk : Nat)
  deriving DecidableEq, Repr

/-- The NOR flash die (R431). The fault log holds the newest record first (R472) (DESIGN CHOICE log 5). -/
structure Flash where
  fw : List Byte
  record : Option Record
  recordBytes : List Byte
  cert : List Byte
  repair : List Repair
  nonce : Nat
  log : List (List Byte)
  boots : Nat
  deriving DecidableEq, Repr

/-- An image or record transfer in progress (R451): its path, kind, total bytes and the bytes received. -/
structure Transfer where
  path : Nat
  kind : Nat
  total : Nat
  got : List Byte
  deriving DecidableEq, Repr

/-- Start-up, recovery and update (R432, R441, R449, R450, R453): the record's digest and the SVN floor as step 3 found them, which steps are
done, the image that runs, the image staged, and the Caravan notice frame that posted it in recovery. `ccCode` is the Oasis firmware that
the instruction memory of every present core's control core holds (R236, R237): boot code writes the same bytes into each (DESIGN CHOICE
log 54). -/
structure Boot where
  lastStep : Nat
  fwOk : Bool
  railsUp : Bool
  configOk : Bool
  refused : Bool
  refusal : Nat
  locked : Bool
  recovery : Bool
  lasersOn : Bool
  lasersLocked : Bool
  cause : Nat
  imageHeader : List Byte
  oasisVersion : Nat
  ccCode : List Byte
  recordDigest : Nat
  floorAtStart : Nat
  transfer : Option Transfer
  staged : Option (List Byte)
  recoveryPost : Option (List Byte)
  deriving DecidableEq, Repr

/-- A management request (R442): the host port that wrote GO, or none over I3C; its module address; its 64 bytes; and the
signature, none when it could not be read. -/
structure MgmtReq where
  port : Option Nat
  addr : Nat
  bytes : List Byte
  sig : Option (List Byte)
  deriving DecidableEq, Repr

/-- A unit that R443 names by KIND and UNIT. -/
structure UnitId where
  kind : Nat
  unit : Nat
  deriving DecidableEq, Repr

/-- A self-test in progress (R447): its unit, whether it is the memory test, and whether a management request waits for it
(otherwise the fault collector started it, R461, R462). -/
structure SelfTest where
  unit : UnitId
  memory : Bool
  byMgmt : Bool
  started : Bool
  deriving DecidableEq, Repr

/-- The safety manager's management and attestation state (R442 to R449). SPDM stages per responder path: 0 fresh, 1 after
GET_VERSION, 2 after GET_CAPABILITIES, 3 after NEGOTIATE_ALGORITHMS. -/
structure Mgmt where
  queue : List MgmtReq
  stopped : List UnitId
  tests : List SelfTest
  spdm : NMap Nat
  deriving DecidableEq, Repr

/-- A die's fault collector (R472): its 32-slot log ring, the slots not yet read through FCU_LOG_SEL, and the number of
records since module reset. -/
structure Ring where
  slots : NMap (List Byte)
  unread : List Nat
  seq : Nat
  deriving DecidableEq, Repr

/-- Fault collection and the safety manager (chapter 18). `safetyRing` holds class M faults sent and not yet decided, as (die,
identifier), first received first. `lastD` holds, per core, the time of its last class D fault and whether another fell within
the hour before it (R462). `linkParity`, `retraining` and `linksDown` name die-to-die links DLn by n, and the segment of die d
by 16 + d (R463). -/
structure Fcu where
  rings : NMap Ring
  toFlash : List (List Byte)
  lost : Nat
  safetyRing : List (Nat × Nat)
  lastD : NMap (Nat × Bool)
  linkParity : NMap Nat
  retraining : List Nat
  linksDown : List Nat
  safeSince : Option Nat
  deriving DecidableEq, Repr

/-- A line that hosts on CXL 3.1 ports hold: its number and, for each port, whether it holds the line exclusively (R53). -/
structure DirEntry where
  line : Nat
  ports : List (Nat × Bool)
  deriving DecidableEq, Repr

/-- What the module asks of a host about a line (R53, R56, R394). -/
inductive SnoopKind where
  | backInvalidate | rdShared | rdOwn
  deriving DecidableEq, Repr

/-- A request to the host on `port` about a line that waits for its answer. -/
structure Snoop where
  port : Nat
  line : Nat
  kind : SnoopKind
  deriving DecidableEq, Repr

/-- A memory access (R49): a read of `len` bytes, with `hold` 0 for none, 1 for a shared and 2 for an exclusive line that a
CXL 3.1 host will keep, or a write. -/
inductive AccessOp where
  | read (len hold : Nat)
  | write (data : List Byte) (poison : Bool)
  deriving DecidableEq, Repr

/-- An access that waits, for a stack, a bank, a link, the end of Dormant or a host's answer. -/
structure HeldAccess where
  ag : Agent
  tgt : Target
  op : AccessOp
  deriving DecidableEq, Repr

/-- Memory as the order points hold it: bytes by address, poisoned lines (line number = placed address / 64, rising), the
directory, host requests in flight, lines obtained from hosts, those of them obtained for writing, and held accesses. -/
structure Memory where
  cells : List (Nat × Byte)
  poison : List Nat
  dir : List DirEntry
  snoops : List Snoop
  obtained : List Nat
  owned : List Nat
  held : List HeldAccess
  deriving DecidableEq, Repr

/-- Lines without working storage (R94): those of a data die, or of one of its banks, at row positions from `fromPos` on and
below `toPos`. -/
structure Lost where
  die : Nat
  bank : Option Nat
  fromPos : Nat
  toPos : Nat
  deriving DecidableEq, Repr

/-- A spare bank in use for a logical bank; its copy is complete when `done` (R89). -/
structure Spare where
  die : Nat
  bank : Nat
  done : Bool
  deriving DecidableEq, Repr

/-- The spare TSVs that a channel has used, the wires beyond them that failed, and whether the controller holds its requests
(R69, R89, R90). -/
structure Channel where
  dataUsed : Nat
  controlUsed : Nat
  dataLost : Nat
  controlLost : Nat
  faulty : Bool
  deriving DecidableEq, Repr

/-- The phases of self-refresh (R84): awake, waiting for the entry delay, command sent, asleep, waking. -/
inductive SrPhase where
  | awake | waiting | commanded | asleep | waking
  deriving DecidableEq, Repr

/-- The command that a bank runs (R68): opening a row, a column step of the request at place `n` of its queue, closing, or one
refresh event. -/
inductive BankCmd where
  | opening (row : Nat)
  | column (n : Nat)
  | closing
  | refreshing
  deriving DecidableEq, Repr

/-- A request in a bank's queue (R73, R74): row, next column, columns left, whether it writes, its source (0 host, 1 internal,
2 sequence), its acceptance time, whether it is urgent, and for a sequence that waits for its token which one it is (R148 step 1). -/
structure BankReq where
  row : Nat
  col : Nat
  columns : Nat
  write : Bool
  source : Nat
  time : Nat
  urgent : Bool
  seq : Option Nat
  deriving DecidableEq, Repr

/-- A bank's controller state: open row, command outstanding, queue in acceptance order, the row whose writes keep it in
in-order mode (R75), refresh debt, refreshes left of a forced burst (R82), and whether the idle timer runs (R76). -/
structure Bank where
  openRow : Option Nat
  cmd : Option BankCmd
  queue : List BankReq
  inOrder : Option Nat
  debt : Nat
  burst : Nat
  idle : Bool
  deriving DecidableEq, Repr

/-- A stack and its controller (chapters 03 and 05). `rate` is 0, 1 or 2 for the three intervals of R79 and `lastTemp` the stack temperature
at the previous scheduled reading (R80). -/
structure Stack where
  calibrated : Bool
  cleared : Bool
  stopped : Bool
  sr : SrPhase
  parity : Bool
  parityFailed : Bool
  retired : Option Nat
  rebuild : Option Nat
  lost : List Lost
  spares : List Spare
  recon : List (Nat × Nat)
  degraded : Bool
  failed : Bool
  channels : NMap Channel
  substitutes : List Nat
  rate : Nat
  lastTemp : Option Int
  overdue : Bool
  deriving DecidableEq, Repr

/-- A stack that nothing has touched since module reset: not yet calibrated or cleared (SC_STATUS.STATE 0x6) (DESIGN CHOICE log 9). -/
def freshStack : Stack where
  calibrated := false
  cleared := false
  stopped := false
  sr := .awake
  parity := true
  parityFailed := false
  retired := none
  rebuild := none
  lost := []
  spares := []
  recon := []
  degraded := false
  failed := false
  channels := []
  substitutes := []
  rate := 0
  lastTemp := none
  overdue := false

/-- A bank with its row closed and nothing to do. -/
def freshBank : Bank := ⟨none, none, [], none, 0, 0, false⟩

/-- A channel that has used no spare. -/
def freshChannel : Channel := ⟨0, 0, 0, 0, false⟩

/-- What a bank arithmetic unit holds (R130, R131): the issuer, its BSEQ transfer and the descriptors so far; whether the unit stands
between two descriptors of a CONT chain, whose bank and token it keeps (R148 step 9, R152); latch (none when empty), accumulators A0 to
A15, valid score entries with one more than the highest written, and the partial with OLEN; the buffers (empty lists when empty); the sum
of the last group with its mod-3 residue (none when empty or not finite); and the result lines in its FIFO, at most eight. The numbers are
FP32 words. -/
structure Bau where
  owner : Agent
  xfer : Option Nat
  chain : Nat
  kept : Bool
  latch : Option (List Byte)
  acc : List Nat
  score : NMap Nat
  high : Nat
  m : Nat
  l : Nat
  o : List Nat
  olen : Nat
  column : List Byte
  scale : List Byte
  segments : List Byte
  escapes : List Byte
  group : Option (Bool × Nat × Int)
  residue : Nat
  fifo : List (List Byte)
  deriving DecidableEq, Repr

/-- A bank sequence that the stack controller has accepted and not completed (R148): its issuer, descriptor and inline blocks, the
sequence-window slot it came through as (die, slot), the BSEQ transfer it belongs to, its acceptance time, whether the next descriptor of
its transfer continues it, whether it holds a token and with it its bank, the column steps it has done, whether it has run to its end, and
then its status, reason, flags and result stream, and the result lines that the controller has taken from the unit's FIFO; `overrun` once
a descriptor write was discarded (R158). -/
structure SeqJob where
  id : Nat
  src : Agent
  desc : List Byte
  inline : List Byte
  slot : Option (Nat × Nat)
  xfer : Option Nat
  time : Nat
  keep : Bool
  token : Bool
  steps : Nat
  ran : Bool
  status : Nat
  reason : Nat
  flags : Nat
  stream : List Nat
  taken : Nat
  overrun : Bool
  deriving DecidableEq, Repr

/-- A sequence-window slot (R156): 0 IDLE, 1 RUNNING, 2 DONE; and its result line. -/
structure SeqSlot where
  state : Nat
  line : List Byte
  deriving DecidableEq, Repr

/-- An HDM decoder (R391): host base, size, interleave ways and granularity, DPA skip, whether it is committed, and Error Not
Committed. -/
structure Decoder where
  base : Nat
  size : Nat
  ways : Nat
  gran : Nat
  skip : Nat
  committed : Bool
  error : Bool
  deriving DecidableEq, Repr

/-- A bias flip in progress (R394). -/
structure Flip where
  toDevice : Bool
  next : Nat
  last : Nat
  deriving DecidableEq, Repr

/-- A host port (chapter 15): protocol 0 to 5 as HP_STATUS.PROTO, speed and width codes, and what the host has set.
`devBias` holds the bias changes as (first page, last page, towards device), the latest first; `msixPending`
the vectors pending in the PBA, `msixTable` the bytes written to the MSI-X table, `lanesSeen` the lanes with a receiver present. -/
structure HostPort where
  proto : Nat
  speed : Nat
  width : Nat
  ioOnly : Bool
  heldDown : Bool
  dormant : Bool
  busMaster : Bool
  decoders : NMap Decoder
  range1 : Nat
  memInfoValid : Bool
  memActive : Bool
  devBias : List (Nat × Nat × Bool)
  flip : Option Flip
  biasPage : Nat
  biasCount : Nat
  biasTarget : Bool
  errRange : Bool
  errBusy : Bool
  biasDone : Nat
  msixPending : List Nat
  msixTable : NMap Byte
  lanesSeen : List Nat
  deriving DecidableEq, Repr

/-- An answer to an access or request: data with the offsets of its poisoned lines, completion, bus error, Unsupported
Request, Completer Abort, poison, or a status of R157 with its reason. -/
inductive Reply where
  | data (bytes : List Byte) (poisoned : List Nat)
  | done
  | busError
  | unsupported
  | abort
  | poison
  | status (code reason : Nat)
  deriving DecidableEq, Repr

/-- What the module puts on its interfaces. -/
inductive Sent where
  | reply (whom : Agent) (r : Reply)
  | msix (port vector : Nat)
  | snoop (port line : Nat) (kind : SnoopKind)
  | hostRead (port addr len : Nat)
  | hostWrite (port addr : Nat) (data : List Byte)
  | frame (d : Nat) (bytes : List Byte)
  | flit (port : Nat) (bytes : List Byte)
  | block (e lane : Nat) (bytes : List Byte)
  | aer (port : Nat)
  | doe (path : Nat) (bytes : List Byte)
  | i3c (bytes : List Byte)
  | pldmEvent (d : Nat)
  deriving DecidableEq, Repr

end Sys2Proof.Machine
end

