-- ==== Sys2Proof/Machine/State.lean ====
section
/-! DEFINITION. The state of the module as plain data, the reasons a step can stop, and the state right after reset. -/

set_option Elab.async false

namespace Sys2Proof.Machine

/-- The module. -/
structure State where
  /-- commands that wait, first in first out (DESIGN CHOICE log 24) -/
  pending : List Instr
  /-- counter that makes each free value fresh (DESIGN CHOICE log 10) -/
  free : Nat
  /-- what the module has put on its interfaces, oldest first (DESIGN CHOICE log 24) -/
  sent : List Sent
  /-- 64-bit die time counts, in ticks of 10 ns, by die (R289) -/
  dieTime : NMap Nat
  power : Power
  fuses : Fuses
  flash : Flash
  boot : Boot
  mgmt : Mgmt
  fcu : Fcu
  /-- the configuration record that boot code loaded and locked (R440) -/
  cfg : Option Record
  /-- registers that differ from their reset value, by die × 2^28 + offset (R18) -/
  regs : NMap Word
  mem : Memory
  stackMap : NMap Stack
  /-- banks by (stack × 17 + die) × 128 + bank -/
  banks : NMap Bank
  /-- arithmetic units inside a CONT chain, by the same key -/
  baus : NMap Bau
  /-- sequences accepted and not complete, oldest first, and the next sequence's identity -/
  seqs : List SeqJob
  seqNext : Nat
  /-- sequence-window slots by die × 4096 + slot -/
  slots : NMap SeqSlot
  ports : NMap HostPort
  /-- cores by die × 64 + core -/
  cores : NMap Core
  /-- notices in mailbox and submission slots, in the order they were accepted, and those of hardware senders that wait -/
  notices : List Notice
  kept : List Kept
  kv : Kv
  ldr : Loader
  fab : Fabric
  deriving DecidableEq, Repr

/-- Faults that stop the model. No rule of the spec stops the module without a next state (R465 leads to Safe), so no meaning
raises one. -/
inductive Fault where
  /-- raised by nothing; safe -/
  | noneRaised
  deriving DecidableEq, Repr

/-- Refusals. -/
inductive Refusal where
  /-- raised by an arm of `exec` whose command has no meaning yet; safe -/
  | notModelled (mnemonic : String)
  deriving DecidableEq, Repr

/-- The machine right after a module reset: registers at their reset values (an empty `regs` reads them), memory with nothing listed, the
module in Booting (PTM_STATE resets to 0x2). Values that the spec does not give are those of logs 4 to 10 (DESIGN CHOICE) (DESIGN CHOICE log
3; DESIGN CHOICE log 5; DESIGN CHOICE log 6; DESIGN CHOICE log 9). -/
def State.reset : State where
  pending := []
  free := 0
  sent := []
  dieTime := []
  power :=
    { mode := .booting, aux := true, nresetHigh := true, deferred := false, strapPins := 7, straps := 7, rails := false
      busShut := false, powerCap := 850, dieCap := [], vddq := [], ambient := none, sensors := [], demands := []
      trim := [], heldWork := false, phasesOn := 18, pin := .low, pulse := false, i3cStatic := none, i3cDynamic := none }
  fuses := { grade := 0x41, core := [], ownerDigest := none, svnBits := 0, seed := List.replicate 32 0 }
  flash := { fw := [], record := none, recordBytes := [], cert := [], repair := [], nonce := 0, log := [], boots := 1 }
  boot :=
    { lastStep := 0, fwOk := false, railsUp := false, configOk := false, refused := false, refusal := 0, locked := false
      recovery := false, lasersOn := false, lasersLocked := false, cause := 0, imageHeader := [], oasisVersion := 0, ccCode := [], recordDigest := 0, floorAtStart := 0
      transfer := none, staged := none, recoveryPost := none }
  mgmt := { queue := [], stopped := [], tests := [], spdm := [] }
  fcu :=
    { rings := [], toFlash := [], lost := 0, safetyRing := [], lastD := [], linkParity := [], retraining := []
      linksDown := [], safeSince := none }
  cfg := none
  regs := []
  mem := { cells := [], poison := [], dir := [], snoops := [], obtained := [], owned := [], held := [] }
  stackMap := []
  banks := []
  baus := []
  seqs := []
  seqNext := 0
  slots := []
  ports := []
  cores := []
  notices := []
  kept := []
  kv := freshKv
  ldr := freshLoader
  fab := freshFabric

end Sys2Proof.Machine
end

