-- ==== Sys2Proof/Machine/RegOps.lean ====
section
/-! DEFINITION. Reading and writing the stored value of a register and of its named fields. -/

set_option Elab.async false

namespace Sys2Proof.Machine

open Sys2Proof

/-- The die-relative offset of register `r`, copy `u`, array element `i`. -/
def regOff (r : Reg) (u i : Nat) : Nat := r.row.base + u * r.row.unitStride + i * r.row.stride

/-- The key of a register of die `d` in `State.regs`. -/
def regKey (d : Nat) (r : Reg) (u i : Nat) : Nat := d * 2 ^ 28 + regOff r u i

/-- The word that the fields' reset values spell (DESIGN CHOICE log 3). -/
def resetWord (fs : List RegField) : Nat :=
  match fs with
  | [] => 0
  | f :: fs => f.rst * 2 ^ f.lo + resetWord fs

/-- The stored value of a register: its reset value until something writes it. -/
def State.reg (s : State) (d : Nat) (r : Reg) (u i : Nat) : Word :=
  mget (BitVec.ofNat 32 (resetWord r.row.fields)) s.regs (regKey d r u i)

/-- The state with a register's stored value replaced. -/
def State.setReg (s : State) (d : Nat) (r : Reg) (u i : Nat) (w : Word) : State :=
  { s with regs := mput s.regs (regKey d r u i) w }

/-- The stored value of a field. -/
def State.fld (s : State) (d u i : Nat) (f : RF) : Nat := bits (s.reg d f.reg u i).toNat f.hi f.lo

/-- The state with a field's stored value replaced. -/
def State.setFld (s : State) (d u i : Nat) (f : RF) (v : Nat) : State :=
  s.setReg d f.reg u i (BitVec.ofNat 32 (setBits (s.reg d f.reg u i).toNat f.hi f.lo v))

/-- The state with a counter field raised by `n`, saturating at the field's greatest value. -/
def State.countFld (s : State) (d u i : Nat) (f : RF) (n : Nat) : State :=
  s.setFld d u i f (satTo (2 ^ (f.hi + 1 - f.lo) - 1) (s.fld d u i f + n))

/-- The copy and element of register `r` that lies at offset `off`, if one does. -/
def regIndex (r : Reg) (off : Nat) : Option (Nat × Nat) :=
  if off < r.row.base then none
  else
    let q := off - r.row.base
    let u := if r.row.units ≤ 1 then 0 else q / r.row.unitStride
    let p := if r.row.units ≤ 1 then q else q % r.row.unitStride
    let i := if r.row.count ≤ 1 then 0 else p / r.row.stride
    let e := if r.row.count ≤ 1 then p else p % r.row.stride
    if u < r.row.units ∧ i < r.row.count ∧ e = 0 then some (u, i) else none

/-- The first register of the list that lies at `off`. -/
def regFind (off : Nat) : List Reg → Option (Reg × Nat × Nat)
  | [] => none
  | r :: rs =>
    match regIndex r off with
    | some (u, i) => some (r, u, i)
    | none => regFind off rs

/-- The register at die-relative offset `off`, if the chapters name one there (R22) (DESIGN CHOICE log 56). -/
def regAt (off : Nat) : Option (Reg × Nat × Nat) := if off % 4 = 0 then regFind off Reg.all else none

/-- The number whose bits are 1 in every named field of the listed access types. -/
def fieldMask (accs : List Access) : List RegField → Nat
  | [] => 0
  | f :: fs => (if accs.contains f.acc then (2 ^ (f.hi + 1 - f.lo) - 1) * 2 ^ f.lo else 0) ||| fieldMask accs fs

/-- Whether a write of `v` would place no reserved encoding in any RW or RWL field (R21), as each register's section says. -/
def legalWrite (r : Reg) (v : Nat) : Bool :=
  let f := fun (x : RF) => bits v x.hi x.lo
  match r with
  | .SC_IDLE_TIMER => decide (4 ≤ f SC_IDLE_TIMER.TICKS ∧ f SC_IDLE_TIMER.TICKS ≤ 0x190)
  | .SC_ACT_BUDGET => decide (0x40 ≤ f SC_ACT_BUDGET.LIMIT ∧ f SC_ACT_BUDGET.LIMIT ≤ 0x200)
  | .SC_SR_ENTRY => decide (1 ≤ f SC_SR_ENTRY.DELAY ∧ f SC_SR_ENTRY.DELAY ≤ 0xFA0)
  | .SC_TSENSE_PERIOD => decide (2 ≤ f SC_TSENSE_PERIOD.PERIOD ∧ f SC_TSENSE_PERIOD.PERIOD ≤ 0xA)
  | .SC_AGE_LIMIT => decide (f SC_AGE_LIMIT.BSEQ ≠ 0 ∧ f SC_AGE_LIMIT.INTERNAL ≠ 0 ∧ f SC_AGE_LIMIT.HOST ≠ 0)
  | .SC_SCRUB_PERIOD => decide (1 ≤ f SC_SCRUB_PERIOD.HOURS ∧ f SC_SCRUB_PERIOD.HOURS ≤ 0x18)
  | .SC_ACT_SHARE =>
    decide (f SC_ACT_SHARE.HOST_MIN ≤ 0x40 ∧ f SC_ACT_SHARE.CORE_MIN ≤ 0x40 ∧ f SC_ACT_SHARE.ASEQ_MIN ≤ 0x40)
  | .SEQW_RANGE => decide (f SEQW_RANGE.OWNER ≤ 7 ∧ f SEQW_RANGE.FIRST ≤ f SEQW_RANGE.LAST)
  | .ME_MIRAGE_CFG =>
    decide (4 ≤ f ME_MIRAGE_CFG.TOL ∧ f ME_MIRAGE_CFG.TOL ≤ 0x14
      ∧ (f ME_MIRAGE_CFG.RATE = 0 ∨ (6 ≤ f ME_MIRAGE_CFG.RATE ∧ f ME_MIRAGE_CFG.RATE ≤ 0xC)))
  | .SYNC_STALL_CFG => decide (1 ≤ f SYNC_STALL_CFG.INTERVAL ∧ f SYNC_STALL_CFG.INTERVAL ≤ 0x3E8)
  | .HP_CFG => decide (f HP_CFG.REGS ≠ 3 ∧ f HP_CFG.ALLOWED ≤ 3)
  | .CF_TIMEOUT => decide (f CF_TIMEOUT.COLL ≠ 0 ∧ f CF_TIMEOUT.REQ ≠ 0)
  | .CF_AGE => decide (f CF_AGE.AGE ≠ 0)
  | .PTM_VDDL =>
    decide (0x258 ≤ f PTM_VDDL.TARGET ∧ f PTM_VDDL.TARGET ≤ 0x352 ∧ f PTM_VDDL.TARGET % 10 = 0)
  | .PTM_CFG =>
    decide (0x3B6 ≤ f PTM_CFG.VDDQ ∧ f PTM_CFG.VDDQ % 10 = 0 ∧ 2 ≤ f PTM_CFG.PERIOD ∧ f PTM_CFG.PERIOD ≤ 0x14)
  | _ => true

/-- What a write of `v` by the access types of R19 leaves in a register that reads `old`: RW fields take the value, RW1C
fields lose the bits written 1, and, where `rwl` allows it, RWL fields take the value; every other bit stays. -/
def mergeWrite (fs : List RegField) (rwl : Bool) (old v : Nat) : Nat :=
  let take := fieldMask (if rwl then [.rw, .rwl] else [.rw]) fs
  let clear := fieldMask [.rw1c] fs
  ((old ^^^ (old &&& take)) ||| (v &&& take)) ^^^ (((old ^^^ (old &&& take)) ||| (v &&& take)) &&& (v &&& clear))

/-- Whether a register holds a field that software may write into at all outside SET: a write to any other is discarded. -/
def hasRwl (fs : List RegField) : Bool := fs.any fun f => f.acc = .rwl

end Sys2Proof.Machine
end

