-- ==== Sys2Proof/Machine/FaultOps.lean ====
section
/-! DEFINITION. Recording a fault (chapter 18): identifiers, the 32-byte record, the log ring, the class counters, the flash log
and the safety ring. -/

set_option Elab.async false

namespace Sys2Proof.Machine

open Sys2Proof

/-- The class of a fault identifier, bits [15:14]: 0 C, 1 N, 2 D, 3 M (R456). -/
def faultClass (id : Nat) : Nat := bits id 15 14

/-- The fault identifiers that the module raises (R457). -/
def faultIds : List Nat :=
  [0x0101, 0x0102, 0x0103, 0x0104, 0x0105, 0x0106, 0x0107, 0x4101, 0x4102, 0x8201, 0x8202, 0x8203, 0x0301,
   0x4301, 0x4302, 0x4303, 0x4304, 0x4305, 0x4306, 0x4307, 0x4401, 0x4501, 0x4601, 0x4602, 0x4603] ++
  [0x4701, 0x4702, 0x4703, 0x4801, 0x0901, 0x0902, 0x4901, 0x4902, 0x4A01, 0x4A02, 0x4B01, 0x0C01, 0x0C02,
   0xCC01, 0xCC02, 0xCC03, 0xCC04, 0xCD01, 0xCD02, 0xCD03, 0x4E01, 0x8F01, 0x4F02, 0xCF03]

/-- The UNIT code of a record (R472). -/
def unitCode : FaultUnit → Nat
  | .core c => c
  | .sc j => j
  | .oe i => i
  | .fport p => p
  | .cluster k => k
  | .sensor i => i
  | .linkEnd l => l
  | .die => 0xFFFF

/-- The 32 bytes of a fault record (R472). -/
def faultRecordBytes (id d flags unit task time detail seq boot : Nat) : List Byte :=
  leBytes 2 id ++ leBytes 1 d ++ leBytes 1 flags ++ leBytes 2 unit ++ leBytes 1 task ++ leBytes 1 0 ++
  leBytes 8 time ++ leBytes 8 detail ++ leBytes 4 seq ++ leBytes 4 boot

/-- A die's fault collector before any record. -/
def emptyRing : Ring := ⟨[], [], 0⟩

/-- The die time of die `d` (R289). -/
def State.time (s : State) (d : Nat) : Nat := mget 0 s.dieTime d

/-- The waiting records written to the flash fault log, newest first, the oldest beyond 32,768 overwritten (R472). -/
def State.flushLog (s : State) : State :=
  { s with
    flash := { s.flash with log := (s.fcu.toFlash.reverse ++ s.flash.log).take 32768 }
    fcu := { s.fcu with toFlash := [] } }

/-- A record put in line for the flash log: at most 256 wait, further ones are counted and the next stored one carries OVERRUN
(R472). -/
def State.toFlashLog (s : State) (mk : Nat → List Byte) : State :=
  if s.fcu.toFlash.length < 256 then
    { s with fcu := { s.fcu with toFlash := s.fcu.toFlash ++ [mk (if s.fcu.lost = 0 then 0 else 2)], lost := 0 } }
  else { s with fcu := { s.fcu with lost := s.fcu.lost + 1 } }

/-- The class counter that a fault raises (R474). A class M fault is not counted. -/
def State.countClass (s : State) (d cls : Nat) : State :=
  if cls = 0 then s.countFld d 0 0 FCU_COUNT_C.COUNT 1
  else if cls = 1 then s.countFld d 0 0 FCU_COUNT_N.COUNT 1
  else if cls = 2 then s.countFld d 0 0 FCU_COUNT_D.COUNT 1
  else s

/-- A record written into the next slot of die `d`'s ring; overwriting one that was not read sets OVERRUN (R472, R474). -/
def State.ringPut (s : State) (d : Nat) (bytes : List Byte) : State :=
  let rg := mget emptyRing s.fcu.rings d
  let slot := s.fld d 0 0 FCU_LOG_HEAD.NEXT
  let s := if rg.unread.contains slot then s.setFld d 0 0 FCU_LOG_HEAD.OVERRUN 1 else s
  let s := s.setFld d 0 0 FCU_LOG_HEAD.NEXT ((slot + 1) % 32)
  let rg' : Ring := ⟨mput rg.slots slot bytes, slot :: rg.unread.filter (· ≠ slot), rg.seq + 1⟩
  { s with fcu := { s.fcu with rings := mput s.fcu.rings d rg' } }

/-- Whether a class M fault that arrives now is the first one (R465, FCU_STATUS.FIRST_M). -/
def State.noMYet (s : State) : Bool := decide (s.power.mode ≠ .safe) && s.fcu.safetyRing.isEmpty

/-- A fault detected on die `d`: recorded in the ring, counted by class and, for classes N, D and M, put in line for the flash
log, at once for class M, which also goes on the safety ring unless the module is already in Safe (R456, R465, R472). -/
def State.raise (s : State) (d id : Nat) (u : FaultUnit) (task detail : Nat) : State :=
  if s.power.mode = .off then s
  else
    let cls := faultClass id
    let seq := (mget emptyRing s.fcu.rings d).seq + 1
    let first := if cls = 3 && s.noMYet then 1 else 0
    let rec_ := fun ovr => faultRecordBytes id d (first + ovr) (unitCode u) task (s.time d) detail seq s.flash.boots
    let s := (s.ringPut d (rec_ 0)).countClass d cls
    let s := if cls = 0 then s else s.toFlashLog rec_
    if cls = 3 then
      let s := s.flushLog
      if s.power.mode = .safe then s
      else { s with fcu := { s.fcu with safetyRing := s.fcu.safetyRing ++ [(d, id)] } }
    else s

/-- The state with one more message put on an interface. -/
def State.send (s : State) (m : Sent) : State := { s with sent := s.sent ++ [m] }

/-- A command that acts only where its conditions hold: elsewhere it is an event that the module cannot produce, and it changes
nothing (DESIGN CHOICE log 2). -/
def State.when (s : State) (c : Bool) (f : State → State) : State := if c then f s else s

/-- `State.when` for a proposition (DESIGN CHOICE log 2). -/
def State.whenP (s : State) (p : Prop) [Decidable p] (f : State → State) : State := if p then f s else s

end Sys2Proof.Machine
end

