-- ==== Sys2Proof/Machine/PowerOps.lean ====
section
/-! DEFINITION. Voltages, limits, sensors and thresholds (chapter 19), and what follows from a reading. -/

set_option Elab.async false

namespace Sys2Proof.Machine

open Sys2Proof

/-- The state with its power part replaced by its image. -/
def State.onPower (s : State) (f : Power → Power) : State := { s with power := f s.power }

/-- The stack controller's state of stack `stk`. -/
def State.stack (s : State) (stk : Nat) : Stack := mget freshStack s.stackMap stk

/-- The state with a stack replaced. -/
def State.setStack (s : State) (stk : Nat) (st : Stack) : State := { s with stackMap := mput s.stackMap stk st }

/-- The state with a stack replaced by its image. -/
def State.onStack (s : State) (stk : Nat) (f : Stack → Stack) : State := s.setStack stk (f (s.stack stk))

/-! ### Sensors -/

/-- The latest reading of sensor `idx` of die `d`, none before the first readings of R478. -/
def State.sensor (s : State) (d idx : Nat) : Option Sensor :=
  match mfind s.power.sensors (d * 256 + idx) with
  | some x => some x
  | none => s.power.ambient.map fun t => ⟨t, false, 0⟩

/-- The temperature of a sensor that has a reading and is not excluded (R485). -/
def State.validTemp (s : State) (d idx : Nat) : Option Int :=
  match s.sensor d idx with
  | some x => if x.excluded then none else some x.temp
  | none => none

/-- The greatest of a list, if any. -/
def maxOf : List Int → Option Int
  | [] => none
  | t :: ts => some (ts.foldl max t)

/-- The logic temperature of a die: its hottest valid logic sensor (R487), in 1/16 °C (DESIGN CHOICE log 34). -/
def State.logicTemp (s : State) (d : Nat) : Option Int := maxOf ((List.range 0x60).filterMap (s.validTemp d))

/-- The sensor indexes of stack controller `j`'s stack (R483). -/
def stackSensors (j : Nat) : List Nat := (List.range 38).map (0x60 + 38 * j + ·)

/-- The stack temperature: the highest valid reading of its sensors (R70), in 1/16 °C. -/
def State.stackTemp (s : State) (stk : Nat) : Option Int :=
  maxOf ((stackSensors (stk % 4)).filterMap (s.validTemp (stk / 4)))

/-- The neighbours of a sensor (R483). -/
def neighbours (idx : Nat) : List Nat :=
  if idx < 0x60 then
    let r := idx / 12
    let c := idx % 12
    (List.range 0x60).filter fun o =>
      let r' := o / 12
      let c' := o % 12
      decide (o ≠ idx ∧ r' ≤ r + 1 ∧ r ≤ r' + 1 ∧ c' ≤ c + 1 ∧ c ≤ c' + 1)
  else
    let base := 0x60 + 38 * ((idx - 0x60) / 38)
    let n := (idx - 0x60) % 38
    if n < 4 then ((List.range 4).filter (· ≠ n)).map (base + ·)
    else
      let c := (n - 4) / 2
      let t := (n - 4) % 2
      [base + 4 + 2 * c + (1 - t)] ++ (if c < 16 then [base + 4 + 2 * (c + 1) + t] else []) ++
        [if c = 0 then base + t else base + 4 + 2 * (c - 1) + t]

/-- A list of temperatures with `t` put in its place. -/
def insertTemp (t : Int) : List Int → List Int
  | [] => [t]
  | u :: us => if t ≤ u then t :: u :: us else u :: insertTemp t us

/-- Twice the median: twice the middle reading, or the sum of the two middle ones. -/
def twiceMedian (ts : List Int) : Option Int :=
  let l := ts.foldr insertTemp []
  let n := l.length
  if n = 0 then none
  else if n % 2 = 1 then (l[n / 2]?).map (2 * ·)
  else
    match l[n / 2 - 1]?, l[n / 2]? with
    | some a, some b => some (a + b)
    | _, _ => none

/-- Whether a reading lies more than 6 °C from the median of its neighbours' latest valid readings (R485). -/
def State.outlier (s : State) (d idx : Nat) (t : Int) : Bool :=
  match twiceMedian ((neighbours idx).filterMap (s.validTemp d)) with
  | some m => decide (192 < (2 * t - m).natAbs)
  | none => false

/-- The number of excluded sensors of die `d` among `is`. -/
def State.excludedOf (s : State) (d : Nat) (is : List Nat) : Nat :=
  (is.filter fun i => match s.sensor d i with | some x => x.excluded | none => false).length

/-- Whether die `d`, or the stack that holds sensor `idx`, has lost too many sensors (R485). -/
def State.sensorsLost (s : State) (d idx : Nat) : Bool :=
  if idx < 0x60 then decide (24 < s.excludedOf d (List.range 0x60))
  else decide (9 < s.excludedOf d (stackSensors ((idx - 0x60) / 38)))

/-! ### Limits and voltages -/

/-- The phase limit of R482 in W, with `f` phases failed. -/
def phaseLimit (f : Nat) : Nat := if f < 3 then 5600 else (18 - f) * 5600 / 16

/-- The input limit of R480 in W, for an input of `v10` × 10 mV and `f` failed phases: V × 100 A is `v10` W. -/
def inputLimit (v10 f : Nat) : Nat := min (min 5600 v10) (phaseLimit f)

/-- Failed phases, as PTM_STATUS of D0 counts them. -/
def State.phasesFailed (s : State) : Nat := s.fld 0 0 0 PTM_STATUS.PHASES_FAILED

/-- PTM_VDDL.TARGET of a die in mV. -/
def State.vddlTarget (s : State) (d : Nat) : Nat := s.fld d 0 0 PTM_VDDL.TARGET

/-- The thermal cap of a die (R488): TARGET lowered by 10 mV for each whole degree over 100 °C. -/
def State.thermalCap (s : State) (d : Nat) : Nat :=
  match s.logicTemp d with
  | some t => s.vddlTarget d - 10 * ((t - 1600) / 16).toNat
  | none => s.vddlTarget d

/-- The die cap of R481, 850 mV until a sample lowers it (DESIGN CHOICE log 6). -/
def State.dieCapOf (s : State) (d : Nat) : Nat := mget 850 s.power.dieCap d

/-- VDDL of a die now (R478, R481, R489, R493): 0 without rails; the floor of 600 mV in Safe, Warm-up and Dormant; otherwise the
smallest of TARGET and the three caps, and never below 600 mV (DESIGN CHOICE log 6; DESIGN CHOICE log 34). -/
def State.vddlNow (s : State) (d : Nat) : Nat :=
  if s.power.rails then
    match s.power.mode with
    | .safe => 600
    | .warmUp => 600
    | .dormant => 600
    | _ => max 600 (min (min (s.vddlTarget d) (s.thermalCap d)) (min s.power.powerCap (s.dieCapOf d)))
  else 0

/-- The intermediate bus shut and every rail removed, with the contents of memory lost (R479, R482, R489). -/
def State.shutBus (s : State) : State :=
  { s with
    power := { s.power with rails := false, busShut := true, demands := [] }
    mem := { s.mem with cells := [], poison := [] } }

/-! ### Readings -/

/-- The reading stored, with its warm-up count unchanged. -/
def State.storeTemp (s : State) (d idx : Nat) (t : Int) : State :=
  let old := (s.sensor d idx).getD ⟨t, false, 0⟩
  s.onPower fun p => { p with sensors := mput p.sensors (d * 256 + idx) { old with temp := t } }

/-- The sensor excluded until module reset, PTM_SENSOR recorded, and PTM_SENSORS_LOST raised past the limits (R485). -/
def State.excludeSensor (s : State) (d idx : Nat) (t : Int) : State :=
  let s := s.onPower fun p => { p with sensors := mput p.sensors (d * 256 + idx) ⟨t, true, 0⟩ }
  let s := s.raise d 0x0C01 (.sensor idx) 0 (f32OfTemp t)
  if s.sensorsLost d idx then s.raise d 0xCC01 .die 0 (f32OfTemp t) else s

/-- The refresh rate code for a stack temperature: 0 up to 85 °C, 1 up to 95 °C, 2 above (R79). -/
def refreshRate (t : Int) : Nat := if t ≤ 1360 then 0 else if t ≤ 1520 then 1 else 2

/-- The refresh rate code that readings at least 2 °C below each threshold allow (R80). -/
def refreshRateDown (t : Int) : Nat := if t ≤ 1328 then 0 else if t ≤ 1488 then 1 else 2

/-- The critical and operating-minimum thresholds of R487, acted on for one valid reading. -/
def State.thresholds (s : State) (d idx : Nat) (t : Int) : State :=
  let crit : Int := if idx < 0x60 then 1840 else 1680
  let shut : Int := if idx < 0x60 then 2000 else 1840
  let s := if crit ≤ t then s.raise d 0xCC02 (.sensor idx) 0 (f32OfTemp t) else s
  let s :=
    if t < 0 ∧ s.power.mode ≠ .standby ∧ s.power.mode ≠ .warmUp then s.raise d 0xCC03 (.sensor idx) 0 (f32OfTemp t) else s
  if s.power.mode = .safe ∧ shut ≤ t ∧ s.power.rails then s.shutBus else s

/-- A stack above a refresh threshold takes the shorter interval at once (R80). -/
def State.quicken (s : State) (stk : Nat) : State :=
  let st := s.stack stk
  match s.stackTemp stk with
  | some u => if st.rate < refreshRate u then s.setStack stk { st with rate := refreshRate u, lastTemp := none } else s
  | none => s

/-- What a reading does, whoever demanded it (R484, R485, R487): it is stored and cross-checked; a valid one meets the thresholds,
a rise of the logic temperature to 95 °C is a PLDM event, and a stack above a refresh threshold takes the shorter interval at
once (R80). -/
def State.reading (s : State) (d idx : Nat) (t : Int) : State :=
  let warned := match s.logicTemp d with | some u => decide (1520 ≤ u) | none => false
  let excluded := match s.sensor d idx with | some x => x.excluded | none => false
  let s := s.storeTemp d idx t
  if excluded then s
  else if s.outlier d idx t then s.excludeSensor d idx t
  else
    let s := s.thresholds d idx t
    let warns := match s.logicTemp d with | some u => decide (1520 ≤ u) | none => false
    let s := if warns && !warned then s.send (.pldmEvent d) else s
    if idx < 0x60 then s else s.quicken (4 * d + (idx - 0x60) / 38)

/-- The sensors of die `d` that the throttle loop demands: all of them (R484). -/
def loopSensors : List Nat := List.range 0xF8

/-- A demand added for each listed sensor, unless the same source already waits on it. -/
def State.demand (s : State) (d : Nat) (is : List Nat) (who : DemandBy) : State :=
  s.onPower fun p => { p with demands := p.demands ++ (is.map fun i => ⟨d, i, who⟩).filter fun x => !p.demands.contains x }

/-- Whether a sensor is converting. -/
def State.converting (s : State) (d idx : Nat) : Bool := s.power.demands.any fun x => x.d = d && x.idx = idx

/-- Whether the source waits on sensor `idx` of die `d`. -/
def State.demandedBy (s : State) (d idx : Nat) (who : DemandBy) : Bool := s.power.demands.contains ⟨d, idx, who⟩

/-- The demands on a sensor met. -/
def State.dropDemands (s : State) (d idx : Nat) : State :=
  s.onPower fun p => { p with demands := p.demands.filter fun x => !(x.d = d && x.idx = idx) }

/-- Whether a source still waits on one of the listed sensors of die `d`. -/
def State.waitsOn (s : State) (d : Nat) (is : List Nat) (who : DemandBy) : Bool :=
  s.power.demands.any fun x => x.d = d && x.by_ = who && is.contains x.idx

/-- The hottest temperature of a die's four stacks. -/
def State.stacksTemp (s : State) (d : Nat) : Option Int := maxOf ((List.range 4).filterMap fun j => s.stackTemp (4 * d + j))

/-- A temperature as the signed 16-bit field that PTM_TEMP_MAX and PTM_TSENSE_DATA show. -/
def temp16 (t : Int) : Nat := (t % 65536).toNat

/-- One throttle-loop reading of a sensor counted for the end of Warm-up (R490). -/
def State.countWarm (s : State) (d idx : Nat) (t : Int) : State :=
  match s.sensor d idx with
  | some x =>
    let n := if 80 ≤ t then satTo 2 (x.warm + 1) else 0
    s.onPower fun p => { p with sensors := mput p.sensors (d * 256 + idx) { x with warm := n } }
  | none => s

/-- Whether every valid sensor of the module has read at least 5 °C in two throttle-loop readings in a row (R490). -/
def State.warmedUp (s : State) : Bool :=
  (List.range 8).all fun d => loopSensors.all fun i =>
    match s.sensor d i with
    | some x => x.excluded || decide (2 ≤ x.warm)
    | none => false

/-- The end of a die's throttle-loop reading: PTM_TEMP_MAX shows it, and the timekeeping oscillator, heartbeat divider and
voltage references are trimmed from the nearest valid sensor (R486). -/
def State.loopDone (s : State) (d : Nat) : State :=
  let s := s.setFld d 0 0 PTM_TEMP_MAX.LOGIC (temp16 ((s.logicTemp d).getD 0))
  let s := s.setFld d 0 0 PTM_TEMP_MAX.STACK (temp16 ((s.stacksTemp d).getD 0))
  s.onPower fun p => { p with trim := mput p.trim d ((s.validTemp d (Config.trimSensor d)).getD 0) }

/-- The end of a scheduled reading of a stack (R80): overdue ends, and a longer interval returns after two consecutive readings
at least 2 °C below its threshold. -/
def State.stackRead (s : State) (stk : Nat) : State :=
  let st := s.stack stk
  match s.stackTemp stk with
  | some t =>
    let rate := match st.lastTemp with | some u => min st.rate (refreshRateDown (max t u)) | none => st.rate
    s.setStack stk { st with rate := max rate (refreshRate t), lastTemp := some t, overdue := false }
  | none => s

/-- The reading that a host demanded through PTM_TSENSE_REQ (R497). -/
def State.hostReading (s : State) (d idx : Nat) (t : Int) : State :=
  let ex := match s.sensor d idx with | some x => x.excluded | none => false
  let s := s.setFld d 0 0 PTM_TSENSE_DATA.VALID 1
  let s := s.setFld d 0 0 PTM_TSENSE_DATA.BUSY 0
  let s := s.setFld d 0 0 PTM_TSENSE_DATA.EXCLUDED (if ex then 1 else 0)
  let s := s.setFld d 0 0 PTM_TSENSE_DATA.SENSOR idx
  s.setFld d 0 0 PTM_TSENSE_DATA.TEMP (temp16 t)

/-- A write of SENSOR to PTM_TSENSE_REQ (R497): a reserved index, or one written while BUSY, is discarded with ERR. -/
def State.tsenseReq (s : State) (d v : Nat) : State :=
  let i := bits v 7 0
  if 0xF8 ≤ i ∨ s.fld d 0 0 PTM_TSENSE_DATA.BUSY = 1 then s.setFld d 0 0 PTM_TSENSE_DATA.ERR 1
  else
    let s := s.setFld d 0 0 PTM_TSENSE_DATA.VALID 0
    let s := s.setFld d 0 0 PTM_TSENSE_DATA.BUSY 1
    let s := s.setFld d 0 0 PTM_TSENSE_DATA.SENSOR i
    s.demand d [i] .host

end Sys2Proof.Machine
end

