-- ==== Sys2Proof/Machine/MemMap.lean ====
section
/-! DEFINITION. The module physical address map, its two memory views, and what may reach which location (chapters 01, 02). -/

set_option Elab.async false

namespace Sys2Proof.Machine

open Sys2Proof

/-- The base of the placed view (R41). -/
def placedBase : Nat := 0x100000000000

/-- The placed-view address of a byte by its coordinates (R44). -/
def placedAddr (stk die bank row byte : Nat) : Nat :=
  placedBase + stk * 2 ^ 37 + die * 2 ^ 33 + bank * 2 ^ 27 + row * 2 ^ 10 + byte

/-- The placed-view address of a spread-view address below 0x0300_0000_0000 (R43). -/
def spreadToPlaced (a : Nat) : Nat :=
  let g := a / 4096
  let j := g / 32
  placedAddr (g % 32) (j / 64 % 16) (j % 64) (j / 1024 * 4 + bits a 11 10) (a % 1024)

/-- What an address names (R41). -/
inductive Loc where
  /-- a byte of a stack, by its placed address -/
  | mem (p : Nat)
  /-- a byte of a scratchpad or cluster buffer -/
  | spm (a : Nat)
  /-- offset `off` of die `d`'s sequence windows -/
  | seqw (d off : Nat)
  /-- offset `off` of die `d`'s register space -/
  | reg (d off : Nat)
  /-- unmapped or unpopulated (R42) -/
  | bad
  deriving DecidableEq, Repr

/-- The present cores of each cluster in a grade (R2). -/
def coresPerCluster (grade : Nat) : Nat := if grade = 0x41 then 16 else if grade = 0x42 then 14 else 12

/-- The core map of a die, all present where no fuse is blown. -/
def Fuses.dieCores (f : Fuses) (d : Nat) : Nat := mget (2 ^ 64 - 1) f.core d % 2 ^ 64

/-- Whether the fuses are those of a part: one of the three grades, with its number of present cores in every cluster (R1, R2, R3) (DESIGN
CHOICE log 4). -/
def Fuses.legal (f : Fuses) : Bool :=
  [0x41, 0x42, 0x43].contains f.grade && (List.range 8).all fun d => (List.range 4).all fun k =>
    popCount 16 (bits (f.dieCores d) (16 * k + 15) (16 * k)) = coresPerCluster f.grade

/-- Whether core `c` of die `d` is present (R7). -/
def State.corePresent (s : State) (d c : Nat) : Bool := decide (d < 8 ∧ c < 64) && bit (s.fuses.dieCores d) c

/-- Whether DE1 of core `c` of die `d` is present: in every present core, but in none of grade -C (R2). -/
def State.de1Present (s : State) (d c : Nat) : Bool := s.corePresent d c && decide (s.fuses.grade ≠ 0x43)

/-- Where an offset within a die's 1 GiB of scratchpads and cluster buffers lies (R46). -/
def State.spmAt (s : State) (d off : Nat) : Bool :=
  if off < 0x20000000 then s.corePresent d (off / 0x800000) && decide (off % 0x800000 < 0x600000)
  else decide (off < 0x28000000)

/-- The location that a module physical address names (R41 to R46). -/
def State.resolve (s : State) (a : Nat) : Loc :=
  if a < 0x030000000000 then .mem (spreadToPlaced a)
  else if a < 0x100000000000 then .bad
  else if a < 0x140000000000 then (if bits a 26 10 < 0x18000 then .mem a else .bad)
  else if a < 0x200000000000 then .bad
  else if a < 0x200200000000 then
    (if s.spmAt ((a - 0x200000000000) / 2 ^ 30) (a % 2 ^ 30) then .spm a else .bad)
  else if a < 0x300000000000 then .bad
  else if a < 0x300800000000 then .seqw ((a - 0x300000000000) / 2 ^ 32) (a % 2 ^ 32)
  else if a < 0x3F0000000000 then .bad
  else if a < 0x3F0080000000 then .reg ((a - 0x3F0000000000) / 2 ^ 28) (a % 2 ^ 28)
  else .bad

/-- The stack, core die, bank and row of a placed address (R44). -/
def placedStack (p : Nat) : Nat := bits p 41 37
def placedDie (p : Nat) : Nat := bits p 36 33
def placedBank (p : Nat) : Nat := bits p 32 27
def placedRow (p : Nat) : Nat := bits p 26 10

/-- The bank that holds a placed address. -/
def bankOf (p : Nat) : BankId := ⟨placedStack p, placedDie p, placedBank p⟩

/-- The key of a bank in `State.banks`. -/
def bankKey (b : BankId) : Nat := (b.stk * 17 + b.die) * 128 + b.bank

/-- The bank of a key of `State.banks`. -/
def keyBank (k : Nat) : BankId := ⟨k / 128 / 17, k / 128 % 17, k % 128⟩

/-- The number of a row position: row × 64 + bank (R86). -/
def rowPos (p : Nat) : Nat := placedRow p * 64 + placedBank p

/-- The pieces of `n` bytes at address `a` that lie in one 64-byte line each (R48), as (address, length). -/
def linePieces : Nat → Nat → Nat → List (Nat × Nat)
  | 0, _, _ => []
  | fuel + 1, a, n =>
    if n = 0 then []
    else
      let k := min n (64 - a % 64)
      (a, k) :: linePieces fuel (a + k) (n - k)

/-- The line pieces of an access of `n` bytes at `a`. -/
def piecesOf (a n : Nat) : List (Nat × Nat) := linePieces (n / 64 + 2) a n

/-- The windows of a host port: the ranges of the record, in stored order (R58, R386). -/
def recordEntries (r : Record) (type : Nat) : List Entry :=
  (r.sections.filter fun x => x.type = type).flatMap (·.entries)

/-- The entries of a section of the loaded record. -/
def State.entries (s : State) (type : Nat) : List Entry :=
  match s.cfg with
  | some r => recordEntries r type
  | none => []

/-- The window ranges of a port, as (base, size). -/
def windowsOf (es : List Entry) (port : Nat) : List (Nat × Nat) :=
  es.filterMap fun e => match e with
    | .range p b n => if p = port then some (b, n) else none
    | _ => none

/-- The window of a host port in the loaded record. -/
def State.window (s : State) (port : Nat) : List (Nat × Nat) := windowsOf (s.entries 0x0002) port

/-- The size of a port's DPA space (R386). -/
def dpaSize (w : List (Nat × Nat)) : Nat := (w.map (·.2)).sum

/-- The module address of a DPA (R386). -/
def dpaToAddr : List (Nat × Nat) → Nat → Option Nat
  | [], _ => none
  | (b, n) :: w, a => if a < n then some (b + a) else dpaToAddr w (a - n)

/-- The DPA of a module memory address within a port's window, comparing placed addresses (R386, R394). -/
def State.addrToDpa (s : State) (w : List (Nat × Nat)) (a : Nat) : Option Nat :=
  match w with
  | [] => none
  | (b, n) :: w =>
    if b ≤ a ∧ a < b + n then some (a - b)
    else (s.addrToDpa w a).map (n + ·)

/-- The spread-view address of a placed address: the inverse of R43. -/
def placedToSpread (p : Nat) : Nat :=
  let j := placedRow p / 4 * 1024 + placedDie p * 64 + placedBank p
  (j * 32 + placedStack p) * 4096 + (placedRow p % 4) * 1024 + p % 1024

/-- The DPA under which a port's window holds the byte at placed address `p`, in either view. -/
def State.dpaOfPlaced (s : State) (port p : Nat) : Option Nat :=
  match s.addrToDpa (s.window port) p with
  | some x => some x
  | none => s.addrToDpa (s.window port) (placedToSpread p)

/-- Whether a port's window holds the byte at placed address `p`, in either view (R58). -/
def State.inWindow (s : State) (port p : Nat) : Bool := (s.dpaOfPlaced port p).isSome

/-- The Caravan windows of the loaded record, as (base, size, partition mask) (R417). -/
def State.caravanWindows (s : State) : List (Nat × Nat × Nat) :=
  (s.entries 0x0007).filterMap fun e => match e with
    | .caravanWindow b n m => some (b, n, m)
    | _ => none

/-- The partition of a module of the system (R417), none where the record does not name the module. -/
def State.partitionOf (s : State) (m : Nat) : Option Nat :=
  (s.entries 0x0007).findSome? fun e => match e with
    | .systemModule n _ p => if n = m then some p else none
    | _ => none

/-- The same memory byte's address in the other view. -/
def otherView (a : Nat) : Nat := if a < 0x030000000000 then spreadToPlaced a else placedToSpread a

/-- Whether the bytes [a, a + n) of memory lie within [base, base + size), each line in the view it is given in or in the
other. -/
def bytesWithin (base size a n : Nat) : Bool :=
  (piecesOf a n).all fun p =>
    decide (base ≤ p.1 ∧ p.1 + p.2 ≤ base + size) ||
    decide (base ≤ otherView p.1 ∧ otherView p.1 + p.2 ≤ base + size)

/-- Whether all of [a, a + n) lies within one Caravan window that admits the partition (R417). -/
def State.caravanAdmits (s : State) (part a n : Nat) : Bool :=
  s.caravanWindows.any fun w => bit w.2.2 part && bytesWithin w.1 w.2.1 a n

/-- The die on which an agent's accesses are decoded. -/
def agentDie : Agent → Nat
  | .engine d _ _ => d
  | .cc d _ => d
  | .aseq d _ => d
  | .kvm d => d
  | .loader => 0
  | .coll d => d
  | .mgmt => 0
  | .fcu d => d
  | .host p _ => p
  | .peer _ d _ => d

/-- NOC_MAPERR_INFO.SOURCE and AGENT for an agent (R63, DESIGN CHOICE log 18). -/
def mapErrSource : Agent → Nat × Nat
  | .engine _ c _ => (0, c)
  | .cc _ c => (1, c)
  | .aseq _ _ => (2, 0)
  | .kvm _ => (2, 0)
  | .loader => (2, 0)
  | .mgmt => (2, 0)
  | .fcu _ => (2, 0)
  | .coll _ => (4, 0)
  | .host p _ => (3, p)
  | .peer _ _ _ => (4, 0)

/-- Whether an agent is one of the module's own (R46, R50). -/
def agentInternal : Agent → Bool
  | .host _ _ => false
  | .peer _ _ _ => false
  | _ => true

/-- The first access handled under R42 recorded on the decoding die, a further one marked OVERRUN (R42, R63). -/
def State.mapErr (s : State) (ag : Agent) (write : Bool) (a : Nat) : State :=
  let d := agentDie ag
  if s.fld d 0 0 NOC_MAPERR_INFO.VALID = 1 then s.setFld d 0 0 NOC_MAPERR_INFO.OVERRUN 1
  else
    let s := s.setFld d 0 0 NOC_MAPERR_INFO.VALID 1
    let s := s.setFld d 0 0 NOC_MAPERR_INFO.SOURCE (mapErrSource ag).1
    let s := s.setFld d 0 0 NOC_MAPERR_INFO.WRITE (if write then 1 else 0)
    let s := s.setFld d 0 0 NOC_MAPERR_INFO.AGENT (mapErrSource ag).2
    let s := s.setFld d 0 0 NOC_MAPERR_ADDR_LO.ADDR (a % 2 ^ 32)
    s.setFld d 0 0 NOC_MAPERR_ADDR_HI.ADDR (a / 2 ^ 32 % 2 ^ 16)

/-! ### Die-to-die links -/

/-- The two dies that link DLn joins (R25). -/
def linkDies (n : Nat) : Nat × Nat := if n < 3 then (n, n + 1) else if n < 6 then (n + 1, n + 2) else (n - 6, n - 2)

/-- The links along a row from column `c` to column `c'` (row 0 is D0 to D3). -/
def rowLinks (row c c' : Nat) : List Nat :=
  (List.range 3).filterMap fun i => if min c c' ≤ i ∧ i < max c c' then some (row * 3 + i) else none

/-- The path between two dies: along the row to the target's column, then across the rows (R420). -/
def directPath (d d' : Nat) : List Nat :=
  rowLinks (d / 4) (d % 4) (d' % 4) ++ (if d / 4 = d' / 4 then [] else [6 + d' % 4])

/-- The detour by the other row (R420). -/
def detourPath (d d' : Nat) : List Nat :=
  if d / 4 = d' / 4 then [6 + d % 4] ++ rowLinks (1 - d / 4) (d % 4) (d' % 4) ++ [6 + d' % 4]
  else [6 + d % 4] ++ rowLinks (d' / 4) (d % 4) (d' % 4)

/-- The path that traffic between two dies takes now. -/
def State.path (s : State) (d d' : Nat) : List Nat :=
  if (directPath d d').any (s.fcu.linksDown.contains ·) then detourPath d d' else directPath d d'

/-- The dies whose on-die networks traffic between two dies crosses: both ends and every die in between (R25). -/
def State.pathDies (s : State) (d d' : Nat) : List Nat :=
  [d, d'] ++ (s.path d d').flatMap fun l => [(linkDies l).1, (linkDies l).2]

/-- Whether traffic between two dies waits: a link on its path, or the on-die network of a die on the way, retrains, or the detour is
down as well (R25, R463). -/
def State.pathHeld (s : State) (d d' : Nat) : Bool :=
  (s.path d d').any (fun l => s.fcu.retraining.contains l || s.fcu.linksDown.contains l) ||
    (s.pathDies d d').any fun x => s.fcu.retraining.contains (16 + x)

end Sys2Proof.Machine
end

