-- ==== Sys2Proof/Machine/FabricOps.lean ====
section
/-! DEFINITION. Caravan frames, credits, routing and flits as ports send them (chapter 16, R366 to R368). -/

set_option Elab.async false

namespace Sys2Proof.Machine

open Sys2Proof

/-! ### CRC-32C -/

/-- One bit of a reflected CRC-32C. -/
def crcBit (c : Nat) : Nat := if c % 2 = 1 then (c / 2) ^^^ 0x82F63B78 else c / 2

/-- `n` bits of it. -/
def crcBits : Nat → Nat → Nat
  | 0, c => c
  | n + 1, c => crcBits n (crcBit c)

/-- The register after bytes. -/
def crcRun : Nat → List Byte → Nat
  | c, [] => c
  | c, b :: bs => crcRun (crcBits 8 (c ^^^ b.toNat)) bs

/-- CRC-32C. -/
def crc32c (bs : List Byte) : Nat := crcRun 0xFFFFFFFF bs ^^^ 0xFFFFFFFF

/-! ### Frames (R407 to R409) -/

def frType (f : List Byte) : Nat := field f 0 1
def frClass (f : List Byte) : Nat := bits (field f 1 1) 1 0
def frBytes (f : List Byte) : Nat := 32 + 64 * (bits (field f 2 2) 4 0 + 1)
def frDst (f : List Byte) : Nat := field f 4 4
def frSrc (f : List Byte) : Nat := field f 8 4
def frTag (f : List Byte) : Nat := field f 0x0C 2
def frStatus (f : List Byte) : Nat := field f 0x0E 1
def frOpt (f : List Byte) : Nat := field f 0x0F 1
def frAddr (f : List Byte) : Nat := bits (field f 0x10 8) 47 0
def frHops (f : List Byte) : Nat := field f 0x18 1
def frVia (f : List Byte) : Nat := bits (field f 0x1A 2) 9 0
def frPayload (f : List Byte) : List Byte := f.drop 32

/-- The end-to-end check of R408. -/
def frEcrc (f : List Byte) : Nat := crc32c (f.take 0x18 ++ f.drop 32)

/-- A Caravan address (R407), and its parts. -/
def carAddr (m d a : Nat) : Nat := m * 2048 + d * 256 + a
def carModule (x : Nat) : Nat := bits x 24 11
def carDie (x : Nat) : Nat := bits x 10 8
def carAgent (x : Nat) : Nat := bits x 7 0

/-- The frame class of a type (R409). -/
def classOf (ty : Nat) : Nat := if ty < 0x10 then 0 else if ty < 0x20 then 1 else if ty < 0x30 then 2 else 3

/-- A frame (R408) with a payload of 64 to 2,048 bytes. -/
def mkFrame (ty dst src tag status opt addr : Nat) (payload : List Byte) : List Byte :=
  let head := leBytes 1 ty ++ leBytes 1 (classOf ty) ++ leBytes 2 (payload.length / 64 - 1) ++ leBytes 4 dst ++ leBytes 4 src ++
    leBytes 2 tag ++ leBytes 1 status ++ leBytes 1 opt ++ leBytes 8 addr
  head ++ leBytes 4 0 ++ leBytes 4 (crc32c (head ++ payload)) ++ payload

/-- 64 zero bytes. -/
def zeroPayload : List Byte := List.replicate 64 0

/-- The response to a request frame (R409). -/
def mkResponse (ty dst src tag status addr : Nat) (data : List Byte) : List Byte :=
  mkFrame ty dst src tag status 0 addr (if ty = 0x11 ∧ status = 0 then data else zeroPayload)

/-! ### The module's place in the system (R405, R417) -/

/-- This module's number and group. -/
def State.moduleNo (s : State) : Nat :=
  ((s.entries 0x0001).findSome? fun e => match e with | .module n _ _ _ _ _ => some n | _ => none).getD 0
def State.groupNo (s : State) : Nat :=
  ((s.entries 0x0001).findSome? fun e => match e with | .module _ g _ _ _ _ => some g | _ => none).getD 0

/-- The group of a module that the record names. -/
def State.groupOfModule (s : State) (m : Nat) : Option Nat :=
  (s.entries 0x0007).findSome? fun e => match e with | .systemModule n g _ => if n = m then some g else none | _ => none

/-- The groups that the record names. -/
def State.groups (s : State) : List Nat :=
  ((s.entries 0x0007).filterMap fun e => match e with | .systemModule _ g _ => some g | _ => none).eraseDups

/-- The peer that the record names for a fabric port. -/
def State.namedPeer (s : State) (p : Nat) : Option Nat :=
  (s.entries 0x0007).findSome? fun e => match e with | .fabricPort q m => if q = p then some m else none | _ => none

/-- The members of the own group that hold a link to group `g`. -/
def State.routeMembers (s : State) (g : Nat) : List Nat :=
  (s.entries 0x0007).filterMap fun e => match e with | .route h m => if h = g then some m else none | _ => none

/-! ### Ports -/

/-- The state with the fabric replaced by its image. -/
def State.onFab (s : State) (f : Fabric → Fabric) : State := { s with fab := f s.fab }

/-- A lane group. -/
def State.fport (s : State) (p : Nat) : FPort := mget freshFPort s.fab.ports p

/-- The state with a lane group replaced by its image. -/
def State.onFPort (s : State) (p : Nat) (f : FPort → FPort) : State :=
  s.onFab fun x => { x with ports := mput x.ports p (f (s.fport p)) }

/-- Whether a fabric port joins two groups (R404). -/
def globalPort (p : Nat) : Bool := p % 3 = 2

/-- Whether frames cross a port: it is up or in keep-alive, its unit is not stopped, and its peer is not marked down (R381, R421, R445). -/
def State.portCarries (s : State) (p : Nat) : Bool :=
  decide (p < 48) && (decide ((s.fport p).phase = .up) || decide ((s.fport p).phase = .keepAlive)) && !s.mgmt.stopped.contains ⟨2, p⟩ && !s.fab.down.contains (s.fport p).peer

/-- The credit units of a frame (R412). -/
def frUnits (f : List Byte) : Nat := f.length / 32

/-- The occupancy of a class at a port (R418). -/
def State.occupancy (s : State) (cls p : Nat) : Nat :=
  (((s.fport p).out.filter fun x => frClass x.bytes = cls).map fun x => frUnits x.bytes).sum

/-- The least occupied of some ports, the lowest number among equals. -/
def State.leastPort (s : State) (cls : Nat) : List Nat → Option Nat
  | [] => none
  | p :: ps =>
    match s.leastPort cls ps with
    | some q => if s.occupancy cls p ≤ s.occupancy cls q then some p else some q
    | none => some p

/-- The ports that R418 considers towards a module of group `g`, by way of group `t` (DESIGN CHOICE log 49). -/
def State.routePorts (s : State) (dst t : Nat) : List Nat :=
  let live := (List.range 48).filter s.portCarries
  if t = s.groupNo then live.filter fun p => !globalPort p && (s.fport p).peer = dst
  else
    let direct := live.filter fun p => globalPort p && s.groupOfModule (s.fport p).peer = some t
    if direct.isEmpty then live.filter fun p => !globalPort p && (s.routeMembers t).contains (s.fport p).peer
    else direct

/-! ### Sending -/

/-- The 256 bytes of a flit (R367). -/
def flitBytes (x : Flit) (ack : Nat) (nak : Bool) : List Byte :=
  let b := x.payload ++ leBytes 2 (x.seq + (if x.data then 0 else 0x1000)) ++
    leBytes 2 (ack % 4096 + 0x1000 + (if nak then 0x2000 else 0)) ++ List.replicate 8 0
  b ++ leBytes 4 (crc32c b)

/-- The last flit number accepted in order. -/
def FPort.ack (x : FPort) : Nat := (x.rxNext + 4095) % 4096

/-- A new flit sent on a port and kept until it is acknowledged (R368). -/
def State.sendFlit (s : State) (p : Nat) (data : Bool) (payload : List Byte) (nak : Bool) : State :=
  let x := s.fport p
  let fl : Flit := ⟨x.txNext, data, padTo 240 0 payload⟩
  (s.onFPort p fun x => { x with txNext := (x.txNext + 1) % 4096, flits := x.flits ++ [fl] }).send (.flit p (flitBytes fl x.ack nak))

/-- A frame sent as consecutive flits, the rest of the last one padding (R410). -/
def State.sendFlits (s : State) (p : Nat) : Nat → List Byte → State
  | 0, _ => s
  | n + 1, bs => if bs.isEmpty then s else (s.sendFlit p true (bs.take 240) false).sendFlits p n (bs.drop 240)

/-- The rank of a frame in arbitration (R413). -/
def frRank (f : List Byte) : Nat :=
  if frClass f = 3 then 0 else if bit (frHops f) 7 then 1 else if frClass f = 1 then 2 else if frClass f = 2 then 3 else 4

/-- Whether a port holds the credits for a frame (R412): CREDIT frames take none. -/
def FPort.affords (x : FPort) (o : OutFrame) : Bool :=
  decide (frType o.bytes = 0x31) || decide (frUnits o.bytes ≤ mget 0 x.credits (3 * frClass o.bytes + o.vc))

/-- The frame that leaves next (R413): the first of the best rank among those that hold credits. -/
def bestOut (x : FPort) : List OutFrame → Option OutFrame
  | [] => none
  | o :: os =>
    match bestOut x os with
    | some b => if x.affords o && decide (frRank o.bytes ≤ frRank b.bytes) then some o else some b
    | none => if x.affords o then some o else none

/-- Flits that a frame takes. -/
def flitsOf (f : List Byte) : Nat := (f.length + 239) / 240

/-- A CREDIT payload that returns `n` units of class and channel index `i` (R412). -/
def creditPayload (i n : Nat) : List Byte := padTo 64 0 (List.replicate (2 * i) 0 ++ leBytes 2 n)

/-- The link agents' addresses of a port's two ends. -/
def State.linkFrame (s : State) (p ty : Nat) (payload : List Byte) : List Byte :=
  mkFrame ty (carAddr (s.fport p).peer (s.fport p).peerDie 0xFF) (carAddr s.moduleNo (p / 6) 0xFF) 0 0 0 0 payload

/-- A frame as it leaves by a port (R418): one more hop, and one more global hop after a global one. -/
def hopped (f : List Byte) (global : Bool) : List Byte :=
  let h := frHops f
  splice f 0x18 (leBytes 1 (setBits (setBits h 3 0 (bits h 3 0 + 1)) 5 4 (bits h 5 4 + (if global then 1 else 0))))

/-- A frame put in a port's buffer. -/
def State.queueFrame (s : State) (p : Nat) (f : List Byte) (vc : Nat) (from_ : Option (Nat × Nat × Nat)) : State :=
  let t := s.time (p / 6)
  s.onFPort p fun x => { x with out := x.out ++ [⟨f, vc, t, from_⟩] }

/-- The receive buffer that a frame leaves is credited to its sender (R412). -/
def State.freeBuffer (s : State) (from_ : Option (Nat × Nat × Nat)) (units : Nat) : State :=
  match from_ with
  | some (p, cls, vc) => if s.portCarries p then s.queueFrame p (s.linkFrame p 0x31 (creditPayload (3 * cls + vc) units)) 0 none else s
  | none => s

/-- What a port can send, sent (R368, R373, R378, R412, R413): frames for which it holds credits, while at most 2,048 flits are outstanding and
neither a swap nor a laser switch is under way (DESIGN CHOICE log 48). -/
def State.pump (s : State) (p : Nat) : Nat → State
  | 0 => s
  | n + 1 =>
    let x := s.fport p
    if !s.portCarries p || x.swap.isSome || !(mget freshEngine s.fab.engines (p / 3)).relock.isEmpty then s
    else
      match bestOut x x.out with
      | none => s
      | some o =>
        if 2048 < x.flits.length + flitsOf o.bytes then s
        else
          let cost := if frType o.bytes = 0x31 then 0 else frUnits o.bytes
          let i := 3 * frClass o.bytes + o.vc
          let s := s.onFPort p fun x => { x with
            out := dropFirst (· == o) x.out
            credits := mput x.credits i (mget 0 x.credits i - cost) }
          let s := s.sendFlits p (flitsOf o.bytes) (hopped o.bytes (globalPort p))
          ((s.freeBuffer o.from_ (frUnits o.bytes)).pump p n)

/-- Every port sends what it can. -/
def State.pumpAll (s : State) : State :=
  (s.fab.ports.map (·.1)).foldl (fun s p => s.pump p ((s.fport p).out.length + 1)) s

/-- The port of the loopback: frames of this module to itself wait there until a tick delivers them (DESIGN CHOICE log 21). -/
def loopPort : Nat := 63

/-- The choice of R418, made once where a frame enters the fabric: minimal, or by way of a group that a free value chooses (DESIGN CHOICE
log 16). -/
def State.chooseRoute (s : State) (f : List Byte) (g : Nat) : State × List Byte :=
  if frClass f = 3 ∨ g = s.groupNo then (s, f)
  else
    let others := s.groups.filter fun h => h ≠ g ∧ h ≠ s.groupNo
    let k := Config.freeValue s.free % others.length
    let s := { s with free := s.free + 1 }
    match others[k]? with
    | none => (s, f)
    | some via =>
      let cls := frClass f
      let occ := fun ps => match s.leastPort cls ps with | some p => some (s.occupancy cls p) | none => none
      match occ (s.routePorts (carModule (frDst f)) g), occ (s.routePorts (carModule (frDst f)) via) with
      | some qmin, some qnon =>
        if 2 * qnon + 64 < qmin then (s, splice (splice f 0x18 (leBytes 1 (setBits (frHops f) 6 6 1))) 0x1A (leBytes 2 via)) else (s, f)
      | none, some _ => (s, splice (splice f 0x18 (leBytes 1 (setBits (frHops f) 6 6 1))) 0x1A (leBytes 2 via))
      | _, none => (s, f)

/-- The response type of a request type. -/
def rspType (ty : Nat) : Nat := ty + 0x10

/-- A frame forwarded (R418 to R422): towards its destination by the least occupied port; without a live port it is lost, and what it
occupied is freed. A frame to this module goes to the loopback. -/
def State.forwardTo (s : State) (f : List Byte) (from_ : Option (Nat × Nat × Nat)) : State :=
  let dst := carModule (frDst f)
  if dst = s.moduleNo then s.onFPort loopPort fun x => { x with out := x.out ++ [⟨f, 0, 0, from_⟩] }
  else
    match s.groupOfModule dst with
    | none => s.freeBuffer from_ (frUnits f)
    | some g =>
      let h := frHops f
      let t := if bit h 6 && decide (bits h 5 4 = 0) then frVia f else g
      match s.leastPort (frClass f) (s.routePorts dst t) with
      | some p => (s.queueFrame p f (if frClass f = 3 then 0 else bits h 5 4) from_).pumpAll
      | none => s.freeBuffer from_ (frUnits f)

/-- A frame forwarded unless its destination is marked down: then a request is answered REFUSED and anything else discarded (R422). -/
def State.forward (s : State) (f : List Byte) (from_ : Option (Nat × Nat × Nat)) : State :=
  let dst := carModule (frDst f)
  if s.fab.down.contains dst then
    let s := s.freeBuffer from_ (frUnits f)
    if frClass f = 0 then
      s.forwardTo (mkResponse (rspType (frType f)) (frSrc f) (frDst f) (frTag f) 5 (frAddr f) []) none
    else s
  else s.forwardTo f from_

/-- A frame that this module sends (R418). -/
def State.sendFrame (s : State) (f : List Byte) : State :=
  match s.groupOfModule (carModule (frDst f)) with
  | some g => let r := s.chooseRoute f g
              r.1.forward r.2 none
  | none => s.forward f none

/-- A request that an agent of die `d` sends, kept until its response has been used (R409, R416). -/
def State.request (s : State) (d agent kind dst opt addr len : Nat) (payload : List Byte) (owner : Nat × Nat × Nat × Nat) : State :=
  let tag := s.fab.tagNext % 65536
  let q : CReq := ⟨tag, d, agent, kind, dst, addr, len, owner, none⟩
  (s.onFab fun x => { x with reqs := x.reqs ++ [q], tagNext := tag + 1 }).sendFrame
    (mkFrame kind dst (carAddr s.moduleNo d agent) tag 0 opt addr payload)

/-- A READ of a multiple of 64 bytes up to 2,048 (R409). -/
def State.requestRead (s : State) (d agent dst addr len : Nat) (owner : Nat × Nat × Nat × Nat) : State :=
  s.request d agent 1 dst (len / 64 - 1) addr len zeroPayload owner

/-- A WRITE of a multiple of 64 bytes up to 2,048. -/
def State.requestWrite (s : State) (d agent dst addr : Nat) (data : List Byte) (owner : Nat × Nat × Nat × Nat) : State :=
  s.request d agent 2 dst 0 addr data.length data owner

/-- The requests of an owner. -/
def State.reqsOf (s : State) (owner : Nat × Nat × Nat × Nat → Bool) : List CReq := s.fab.reqs.filter fun q => owner q.owner

/-- The state without the requests of an owner. -/
def State.dropReqs (s : State) (owner : Nat × Nat × Nat × Nat → Bool) : State :=
  s.onFab fun x => { x with reqs := x.reqs.filter fun q => !owner q.owner }

/-! ### Answers to accesses -/

/-- The STATUS that a response carries for an answer (R157, R409). -/
def replyStatus : Reply → Nat
  | .data _ bad => if bad.isEmpty then 0 else 4
  | .done => 0
  | .poison => 4
  | .status c _ => c
  | .busError => 3
  | .unsupported => 3
  | .abort => 5

/-- An access answered; a peer's by a response frame with its tag and address (R411). -/
def State.answer (s : State) (x : HeldAccess) (r : Reply) : State :=
  let s := s.send (.reply x.ag r)
  match x.ag, x.tgt with
  | .peer src d tag, .phys a =>
    let ty := match x.op with | .read _ _ => 0x11 | .write _ _ => 0x12
    let data := match r with | .data b _ => b | _ => []
    s.sendFrame (mkResponse ty src (carAddr s.moduleNo d 0x50) tag (replyStatus r) a data)
  | _, _ => s

end Sys2Proof.Machine
end

