-- ==== Sys2Proof/Machine/MemOps.lean ====
section
/-! DEFINITION. The bytes of memory as the order points hold them: reading, writing, poison, storage that is lost, host copies and
the directory, and what makes an access wait (chapters 02, 03). -/

set_option Elab.async false

namespace Sys2Proof.Machine

open Sys2Proof

/-- The state with its memory part replaced by its image. -/
def State.onMem (s : State) (f : Memory → Memory) : State := { s with mem := f s.mem }

/-! ### Bytes -/

/-- The byte that an unlisted address reads as: stacks are cleared at start-up (R432), scratchpads read 0 (DESIGN CHOICE log 7). -/
def blankByte : Byte := 0

/-- The byte held at a location (DESIGN CHOICE log 7). -/
def State.byteAt (s : State) : Loc → Byte
  | .mem p => mget blankByte s.mem.cells p
  | .spm a => mget blankByte s.mem.cells a
  | _ => blankByte

/-- The byte that a module physical address reads, whichever view names it (R45, R47). -/
def State.readByte (s : State) (a : Nat) : Byte := s.byteAt (s.resolve a)

/-- The `n` bytes at a module physical address. -/
def State.readBytes (s : State) (a n : Nat) : List Byte := (List.range n).map fun i => s.readByte (a + i)

/-- The little-endian number of `n` bytes at an address. -/
def State.readNat (s : State) (a n : Nat) : Nat := leNat (s.readBytes a n)

/-- The cells with one byte written; the canonical form is kept (DESIGN CHOICE log 7). -/
def writeCell (cells : List (Nat × Byte)) (k : Nat) (b : Byte) : List (Nat × Byte) := mset blankByte cells k b

/-- The cells with bytes written from key `k` on. -/
def writeCells (cells : List (Nat × Byte)) (k : Nat) : List Byte → List (Nat × Byte)
  | [] => cells
  | b :: bs => writeCells (writeCell cells k b) (k + 1) bs

/-- A sorted list of numbers with `k` in it. -/
def insertNat (k : Nat) : List Nat → List Nat
  | [] => [k]
  | j :: l => if k < j then k :: j :: l else if k = j then j :: l else j :: insertNat k l

/-- Whether a list of numbers is strictly rising. -/
def risingNat : List Nat → Bool
  | [] => true
  | [_] => true
  | j :: k :: l => decide (j < k) && risingNat (k :: l)

/-- The canonical form of memory: cells with rising addresses and no entry equal to what an unlisted address reads as, and the
numbers of the poisoned lines rising (DESIGN CHOICE log 7). -/
def Memory.wf (m : Memory) : Bool := mwf blankByte m.cells && risingNat m.poison

/-- Whether the lost region `r` covers bank `bank` of die `die` at row position `pos`. -/
def Lost.covers (r : Lost) (die bank pos : Nat) : Bool :=
  r.die = die && (match r.bank with | some b => b = bank | none => true) && decide (r.fromPos ≤ pos ∧ pos < r.toPos)

/-- Whether the lost region `r` covers placed address `p`. -/
def lostCovers (r : Lost) (p : Nat) : Bool := r.covers (placedDie p) (placedBank p) (rowPos p)

/-- Whether the line at a placed address has no working storage (R94). -/
def State.noStorage (s : State) (p : Nat) : Bool := (s.stack (placedStack p)).lost.any (lostCovers · p)

/-- Whether the line that holds placed address `p` is poisoned (R61, R94). -/
def State.linePoisoned (s : State) (p : Nat) : Bool := s.mem.poison.contains (p / 64) || s.noStorage p

/-- Whether the line that an address names is poisoned. -/
def State.poisonedAt (s : State) (a : Nat) : Bool :=
  match s.resolve a with
  | .mem p => s.linePoisoned p
  | _ => false

/-- Whether any line of [a, a + n) is poisoned. -/
def State.anyPoison (s : State) (a n : Nat) : Bool := (piecesOf a n).any fun p => s.poisonedAt p.1

/-- The `n` bytes at an address as an agent reads them: the bytes of a poisoned line are open (R61, DESIGN CHOICE log 68). -/
def State.seen (s : State) (a n : Nat) : List Byte :=
  (piecesOf a n).flatMap fun p => if s.poisonedAt p.1 then leBytes p.2 (Config.poisonBytes s.free p.1) else s.readBytes p.1 p.2

/-- The line at placed address `p` marked poisoned (R61). -/
def State.poisonLine (s : State) (p : Nat) : State :=
  s.onMem fun m => { m with poison := insertNat (p / 64) m.poison }

/-- A write within one line of memory, at placed address `p` (R61, R94, R393): a line without working storage keeps nothing; a
write that carries poison poisons the line; a whole line clears its poison; a partial write leaves it. -/
def State.writeLine (s : State) (p : Nat) (data : List Byte) (poison : Bool) : State :=
  if s.noStorage p then s
  else
    let whole := decide (p % 64 = 0 ∧ data.length = 64)
    s.onMem fun m => { m with
      cells := writeCells m.cells p data
      poison := if poison then insertNat (p / 64) m.poison
                else if whole then m.poison.filter (· ≠ p / 64) else m.poison }

/-- A write of bytes within one line at a module physical address. -/
def State.writePiece (s : State) (a : Nat) (data : List Byte) (poison : Bool) : State :=
  match s.resolve a with
  | .mem p => s.writeLine p data poison
  | .spm k => s.onMem fun m => { m with cells := writeCells m.cells k data }
  | _ => s

/-- Bytes written over the listed line pieces. -/
def State.writePieces (s : State) (poison : Bool) : List (Nat × Nat) → List Byte → State
  | [], _ => s
  | (a, k) :: ps, bs => (s.writePiece a (bs.take k) poison).writePieces poison ps (bs.drop k)

/-- Bytes written from a module physical address on, line by line (R48). -/
def State.writeBytes (s : State) (a : Nat) (data : List Byte) : State := s.writePieces false (piecesOf a data.length) data

/-! ### What an agent reaches -/

/-- Whether an agent reaches the location: scratchpads and cluster buffers only from the module's own engines and control cores
(R46); memory from a host within its port's window (R58) and from a peer within a Caravan window (checked for the whole request,
R417). -/
def State.reaches (s : State) (ag : Agent) : Loc → Bool
  | .mem p => match ag with
    | .host port _ => s.inWindow port p
    | _ => true
  | .spm _ => agentInternal ag
  | _ => false

/-- Whether an agent reaches every byte of [a, a + n). -/
def State.reachable (s : State) (ag : Agent) (a n : Nat) : Bool :=
  ((piecesOf a n).all fun p => s.reaches ag (s.resolve p.1)) &&
    (match ag with
     | .peer src _ _ => match s.partitionOf (bits src 24 11) with
       | some q => s.caravanAdmits q a n
       | none => false
     | _ => true)

/-! ### Host copies -/

/-- The directory entry of a line, if any (R53). -/
def State.dirOf (s : State) (line : Nat) : Option DirEntry := s.mem.dir.find? fun e => e.line = line

/-- The ports, other than `except_`, that hold a line in a way that an access conflicts with: exclusively for a read, at all for
a write (R53, R54). -/
def State.holders (s : State) (line : Nat) (write : Bool) (except_ : Option Nat) : List Nat :=
  match s.dirOf line with
  | some e => (e.ports.filter fun q => (write || q.2) && some q.1 ≠ except_).map (·.1)
  | none => []

/-- Whether a port runs HDM-D, CXL 1.1 or 2.0, with coherence enabled (R55, R59). -/
def biasPort (p : HostPort) : Bool := (p.proto = 3 || p.proto = 4) && !p.ioOnly

/-- A host port that nothing has touched since module reset (R394: every page in host bias). -/
def freshPort : HostPort where
  proto := 0
  speed := 0
  width := 0
  ioOnly := false
  heldDown := false
  dormant := false
  busMaster := false
  decoders := []
  range1 := 0
  memInfoValid := false
  memActive := false
  devBias := []
  flip := none
  biasPage := 0
  biasCount := 0
  biasTarget := false
  errRange := false
  errBusy := false
  biasDone := 0
  msixPending := []
  msixTable := []
  lanesSeen := []

/-- Host port `p`. -/
def State.port (s : State) (p : Nat) : HostPort := mget freshPort s.ports p

/-- The state with a host port replaced by its image. -/
def State.onPort (s : State) (p : Nat) (f : HostPort → HostPort) : State := { s with ports := mput s.ports p (f (s.port p)) }

/-- Whether a DPA page is in device bias after the listed changes, the latest first; every page starts in host bias (R394). -/
def biasOfPage (page : Nat) : List (Nat × Nat × Bool) → Bool
  | [] => false
  | (a, b, dev) :: rs => if a ≤ page ∧ page ≤ b then dev else biasOfPage page rs

/-- Whether a DPA page of a port is in device bias. -/
def inDevBias (p : HostPort) (page : Nat) : Bool := biasOfPage page p.devBias

/-- The port, if any, that holds placed address `p` in a host-bias page (R55, R56). Such a range is exclusive to one port. -/
def State.hostBiasPort (s : State) (p : Nat) : Option Nat :=
  (List.range 8).find? fun q =>
    biasPort (s.port q) && (match s.dpaOfPlaced q p with | some x => !inDevBias (s.port q) (x / 4096) | none => false)

/-- The requests to hosts that an access by `ag` to the line at placed address `p` needs before it can be served: back-
invalidate snoops of conflicting holders (R53), and RdShared or RdOwn for a line of a host-bias page that an internal agent or
peer touches (R56), unless the line has just been obtained, for a write with RdOwn. -/
def State.needs (s : State) (ag : Agent) (p : Nat) (write : Bool) : List Snoop :=
  let line := p / 64
  let self := match ag with | .host q _ => some q | _ => none
  let recalls := (s.holders line write self).map fun q => (⟨q, line, .backInvalidate⟩ : Snoop)
  let bias := match self, s.hostBiasPort p with
    | none, some q =>
      if (if write then s.mem.owned else s.mem.obtained).contains line then [] else [⟨q, line, if write then .rdOwn else .rdShared⟩]
    | _, _ => []
  recalls ++ bias

/-- The requests not yet in flight are issued (DESIGN CHOICE log 52). -/
def State.issueSnoops (s : State) : List Snoop → State
  | [] => s
  | x :: xs =>
    if s.mem.snoops.contains x then s.issueSnoops xs
    else ((s.onMem fun m => { m with snoops := m.snoops ++ [x] }).send (.snoop x.port x.line x.kind)).issueSnoops xs

/-! ### What makes an access wait -/

/-- The bank and base row that a sequence descriptor names in BANKROW (R136). -/
def descBank (desc : List Byte) : BankId :=
  ⟨bits (field desc 0x08 4) 31 27, bits (field desc 0x08 4) 26 23, bits (field desc 0x08 4) 22 17⟩
def descRow (desc : List Byte) : Nat := bits (field desc 0x08 4) 16 0

/-- Whether a bank sequence holds a bank (R147), or a CONT chain keeps it between two of its descriptors (R148 step 9, R152). -/
def State.seqHolds (s : State) (b : BankId) : Bool :=
  (s.seqs.any fun j => j.token && decide (descBank j.desc = b)) ||
    (match mfind s.baus (bankKey b) with | some x => x.kept | none => false)

/-- The channel that serves a bank (R65). -/
def channelOf (b : BankId) : Nat := 16 * (b.die / 4) + b.bank / 4

/-- Whether the channel of a bank is held as faulty (R69). -/
def State.channelHeld (s : State) (b : BankId) : Bool :=
  (mget freshChannel (s.stack b.stk).channels (channelOf b)).faulty

/-- Whether the stack controller can serve the bank now: it has left Clearing and self-refresh (R84, R85), no sequence holds the
bank (R147), no forced refresh burst runs on it (R82), its channel is whole (R69), and the links between are up (R463). -/
def State.bankServes (s : State) (d : Nat) (b : BankId) : Bool :=
  (s.stack b.stk).cleared &&
    (match (s.stack b.stk).sr with | .awake => true | .waiting => true | _ => false) &&
    !s.seqHolds b && decide ((mget freshBank s.banks (bankKey b)).burst = 0) && !s.channelHeld b && !s.pathHeld d (b.stk / 4)

/-- The placed addresses of the memory lines that an access of `n` bytes at `a` touches. -/
def State.memLines (s : State) (a n : Nat) : List Nat :=
  (piecesOf a n).filterMap fun p => match s.resolve p.1 with | .mem q => some q | _ => none

/-- Whether an internal access can be served at once: every bank serves and no host has to be asked. -/
def State.ready (s : State) (ag : Agent) (a n : Nat) (write : Bool) : Bool :=
  (s.memLines a n).all fun p => s.bankServes (agentDie ag) (bankOf p) && (s.needs ag p write).isEmpty

/-- The host requests that an access needs, issued (R53, R56). -/
def State.ask (s : State) (ag : Agent) (a n : Nat) (write : Bool) : State :=
  s.issueSnoops ((s.memLines a n).flatMap fun p => s.needs ag p write)

/-- Lines obtained from a host are used up by the access they were obtained for (R56). -/
def State.useObtained (s : State) (a n : Nat) : State :=
  let ls := (s.memLines a n).map (· / 64)
  s.onMem fun m => { m with
    obtained := m.obtained.filter fun l => !ls.contains l
    owned := m.owned.filter fun l => !ls.contains l }

/-- A fresh number for a value that the spec leaves open (DESIGN CHOICE log 10), with the counter advanced. -/
def State.fresh (s : State) : Nat × State := (Config.freeValue s.free, { s with free := s.free + 1 })

end Sys2Proof.Machine
end

