-- ==== Sys2Proof/Machine/StackOps.lean ====
section
/-! DEFINITION. The stack controller: a bank's command order, refresh, the column code, spares, retirement, rebuild and
self-refresh (chapter 03). -/

set_option Elab.async false

namespace Sys2Proof.Machine

open Sys2Proof

/-- A bank's controller state. -/
def State.bank (s : State) (b : BankId) : Bank := mget freshBank s.banks (bankKey b)

/-- The state with a bank replaced. -/
def State.setBank (s : State) (b : BankId) (x : Bank) : State := { s with banks := mput s.banks (bankKey b) x }

/-- The state with a bank replaced by its image. -/
def State.onBank (s : State) (b : BankId) (f : Bank → Bank) : State := s.setBank b (f (s.bank b))

/-! ### Serving a bank's queue -/

/-- The place of the first request of the queue that satisfies `p`. -/
def firstIdx (p : BankReq → Bool) : Nat → List BankReq → Option Nat
  | _, [] => none
  | n, r :: rs => if p r then some n else firstIdx p (n + 1) rs

/-- The place of the request of those that satisfy `p` which R73 and R75 put first: in in-order mode the oldest; otherwise the oldest
urgent one, then the oldest hit on the open row, then the oldest. -/
def Bank.first (x : Bank) (p : BankReq → Bool) : Option Nat :=
  if x.inOrder.isSome then firstIdx p 0 x.queue
  else
    match firstIdx (fun r => p r && r.urgent) 0 x.queue with
    | some n => some n
    | none =>
      match firstIdx (fun r => p r && r.seq.isNone && decide (x.openRow = some r.row)) 0 x.queue with
      | some n => some n
      | none => firstIdx p 0 x.queue

/-- Whether two requests write one line. -/
def BankReq.sameLine (r q : BankReq) : Bool := r.write && q.write && decide (q.row = r.row ∧ q.col / 2 = r.col / 2)

/-- The place of the request that the bank serves next (R73, R75). Writes to one line keep their order, and a sequence that waits for its
token holds nothing up (R150). -/
def Bank.pick (x : Bank) : Option Nat :=
  match x.first fun r => r.seq.isNone with
  | some n =>
    (match x.queue[n]? with
     | some r => if r.write then firstIdx (fun q => q.seq.isNone && r.sameLine q) 0 x.queue else some n
     | none => some n)
  | none => none

/-- A refresh begins once the row is closed, where the allowance admits one (R81 to R83). -/
def Bank.refreshNext (x : Bank) (allowed : Bool) : Bank :=
  match x.openRow with
  | some _ => { x with cmd := some .closing, idle := false }
  | none => if allowed then { x with cmd := some .refreshing, idle := false } else { x with idle := false }

/-- The next command of a bank that has none outstanding (R68, R73, R76, R81, R82): a forced burst closes the row and refreshes; a bank
that a sequence holds closes its row for it; requests open their row or close another; a bank without requests pays its debt once its
row is closed, and otherwise its idle timer runs (DESIGN CHOICE log 35). `held` says whether a sequence holds the bank, `allowed` whether
one more refresh may start (R83). -/
def Bank.advance (x : Bank) (held allowed : Bool) : Bank :=
  if x.cmd.isSome then x
  else if x.burst ≠ 0 then x.refreshNext allowed
  else if held then (if x.openRow.isSome then { x with cmd := some .closing, idle := false } else { x with idle := false })
  else
    match x.pick with
    | some n =>
      let row := match x.queue[n]? with | some r => r.row | none => 0
      (match x.openRow with
       | some r => if r = row then { x with cmd := some (.column n), idle := false } else { x with cmd := some .closing, idle := false }
       | none => { x with cmd := some (.opening row), idle := false })
    | none => if x.debt ≠ 0 then x.refreshNext allowed else { x with idle := x.openRow.isSome }

/-- A request accepted into the bank's queue: a read to a row with a pending write puts the bank in in-order mode (R75). -/
def Bank.accept (x : Bank) (r : BankReq) : Bank :=
  let mode := if !r.write && r.seq.isNone && x.queue.any (fun q => q.write && q.row = r.row) then
      (if x.inOrder.isSome then x.inOrder else some r.row) else x.inOrder
  { x with queue := x.queue ++ [r], inOrder := mode, idle := false }

/-- In-order mode ends when no write to its row is pending (R75). -/
def Bank.settle (x : Bank) : Bank :=
  match x.inOrder with
  | some row => if x.queue.any (fun q => q.write && q.row = row) then x else { x with inOrder := none }
  | none => x

/-- Open-done (R68). -/
def Bank.openDone (x : Bank) : Bank :=
  match x.cmd with
  | some (.opening row) => { x with cmd := none, openRow := some row }
  | _ => x

/-- Column-done: the request served goes on to its next column and leaves the queue with its last (R68). -/
def Bank.columnDone (x : Bank) : Bank :=
  match x.cmd with
  | some (.column n) =>
    let q := match x.queue[n]? with
      | some r => if r.columns ≤ 1 then x.queue.eraseIdx n
        else modAt (fun r => { r with col := r.col + 1, columns := r.columns - 1 }) x.queue n
      | none => x.queue
    { x with cmd := none, queue := q }.settle
  | _ => x

/-- Close-done (R68). -/
def Bank.closeDone (x : Bank) : Bank :=
  match x.cmd with
  | some .closing => { x with cmd := none, openRow := none }
  | _ => x

/-- Refresh-done: one refresh of a burst, or one refresh of the debt, is paid (R81, R82). -/
def Bank.refreshDone (x : Bank) : Bank :=
  match x.cmd with
  | some .refreshing => { x with cmd := none, burst := x.burst - 1, debt := if x.burst = 0 then x.debt - 1 else x.debt }
  | _ => x

/-- Whether the bank has everything done that a command of a sequence would have to wait for. -/
def Bank.quiet (x : Bank) : Bool := x.cmd.isNone && decide (x.burst = 0) && x.openRow.isNone

/-- The banks of a stack that have any state, with their keys. -/
def State.banksOf (s : State) (stk : Nat) : List (Nat × Bank) := s.banks.filter fun kb => kb.1 / 128 / 17 = stk

/-- Whether one more bank may start a refresh: one that holds a token refreshes under it, the others under the allowance of 128 (R83). -/
def State.refreshAllowed (s : State) (b : BankId) : Bool :=
  s.seqHolds b || decide (((s.banksOf b.stk).filter fun kb => decide (kb.2.cmd = some .refreshing) && !s.seqHolds (keyBank kb.1)).length < 128)

/-- The state with a bank replaced and sent its next command, unless its channel is held as faulty (R68, R69). -/
def State.drive (s : State) (b : BankId) (x : Bank) : State :=
  s.setBank b (if s.channelHeld b then x else x.advance (s.seqHolds b) (s.refreshAllowed b))

/-- A refresh that waited for the allowance starts (R83). -/
def State.nextRefresh (s : State) (stk : Nat) : State :=
  match (s.banksOf stk).find? fun kb => kb.2.cmd.isNone && (decide (kb.2.burst ≠ 0) || (decide (kb.2.debt ≠ 0) && kb.2.pick.isNone)) with
  | some kb => s.drive (keyBank kb.1) kb.2
  | none => s

/-- Whether the bank holds a row for a request (R81), or is in a burst already. -/
def Bank.busy (x : Bank) : Bool :=
  x.pick.isSome || x.burst ≠ 0 || (match x.cmd with | some (.opening _) => true | some (.column _) => true | _ => false)

/-- A refresh falls due on a bank that nothing holds or that a sequence holds (R81, R82): on a debt of eight it is forced, as a burst of
nine; otherwise it is postponed while a row is held, and performed at once on an idle bank. -/
def Bank.refreshDue (x : Bank) (held : Bool) : Bank :=
  if 8 ≤ x.debt then { x with debt := 0, burst := 9 }
  else if x.busy || held then { x with debt := x.debt + 1 }
  else { x with burst := 1 }

/-- The highest refresh debt of any bank of a stack (SC_REFRESH_DEBT.MAX_DEBT). -/
def State.maxDebt (s : State) (stk : Nat) : Nat := ((s.banksOf stk).map fun kb => kb.2.debt).foldl max 0

/-! ### The column code and cross-die parity -/

/-- The stack controller of a stack, as a fault record names it. -/
def scUnit (stk : Nat) : FaultUnit := .sc (stk % 4)

/-- Whether a data die holds its own row at a position: its bank is not served by reconstruction, it is not the retired die, and the row
is not lost. -/
def Stack.holdsRow (st : Stack) (die bank pos : Nat) : Bool :=
  !st.recon.contains (die, bank) && decide (st.retired ≠ some die) && !(st.lost.any fun r => r.covers die bank pos)

/-- Whether parity can recover a column of bank `bank` of die `die` at row position `pos` (R72, R92): parity is kept there, and every
other data die holds its row. -/
def Stack.recoverable (st : Stack) (die bank pos : Nat) : Bool :=
  st.parity && (match st.rebuild with | some p => decide (p ≤ pos) | none => true) &&
    (List.range 16).all fun d => decide (d = die) || st.holdsRow d bank pos

/-- What the order point does about `symbols` in error in one column at placed address `p` (R71, R72, R61): one symbol is
corrected; more make the column uncorrectable, recovered from parity or, failing that, its line is poisoned. -/
def State.columnError (s : State) (p symbols : Nat) : State :=
  let stk := placedStack p
  let d := stk / 4
  let j := stk % 4
  if symbols = 0 then s
  else if symbols = 1 then
    (s.countFld d j 0 SC_ECC_COUNT.CORRECTED 1).raise d 0x0101 (scUnit stk) 0 (alignDown p 1024)
  else if (s.stack stk).recoverable (placedDie p) (placedBank p) (rowPos p) then
    (s.countFld d j 0 SC_ECC_COUNT.RECONSTRUCTED 1).raise d 0x0102 (scUnit stk) 0 (alignDown p 1024)
  else s.poisonLine p

/-! ### Spares, retirement and rebuild -/

/-- Row positions of a stack (R86). -/
def rowPositions : Nat := 6291456

/-- A repair-log entry added in flash (R95). -/
def State.logRepair (s : State) (r : Repair) : State := { s with flash := { s.flash with repair := s.flash.repair ++ [r] } }

/-- The stack reports Failed and SC_STACK_FAILED is recorded (R94, R505). -/
def State.stackFailed (s : State) (stk : Nat) : State :=
  (s.onStack stk fun st => { st with failed := true }).raise (stk / 4) 0x4101 (scUnit stk) 0 (placedAddr stk 0 0 0 0)

/-- A spare bank that stands in for a logical bank with its copy complete. -/
def Stack.spared (st : Stack) (die bank : Nat) : Bool := st.spares.any fun x => x.done && x.die = die && x.bank = bank

/-- The part of a region of a data die that the die itself held: what no spare stands in for. -/
def Stack.ownRegions (st : Stack) (die : Nat) (bank : Option Nat) (fromPos toPos : Nat) : List Lost :=
  match bank with
  | some b => if st.spared die b then [] else [⟨die, some b, fromPos, toPos⟩]
  | none =>
    if st.spares.any (fun x => x.done && x.die = die) then
      ((List.range 64).filter fun b => !st.spared die b).map fun b => ⟨die, some b, fromPos, toPos⟩
    else [⟨die, none, fromPos, toPos⟩]

/-- Whether a bank of a data die is out of service already: a spare stands in for it, it is served by reconstruction, its die is
retired, or its lines are lost. -/
def Stack.bankOut (st : Stack) (die bank : Nat) : Bool :=
  st.spared die bank || st.recon.contains (die, bank) || decide (st.retired = some die) ||
    st.lost.any fun r => r.die = die && (r.bank = none || r.bank = some bank) && decide (r.fromPos = 0 ∧ r.toPos = rowPositions)

/-- A bank put on reconstruction, with a spare bank to be copied into while one of the four is free (R89, R91). -/
def Stack.reconstruct (st : Stack) (die bank : Nat) : Stack :=
  { st with
    recon := st.recon ++ [(die, bank)]
    spares := if st.spares.length < 4 then st.spares ++ [⟨die, bank, false⟩] else st.spares
    degraded := st.degraded || decide (4 ≤ st.spares.length) }

/-- Banks whose lines are lost: they leave reconstruction, and the spares that they were being copied into are given up. -/
def Stack.lose (st : Stack) (rs : List Lost) (banks : List (Nat × Nat)) : Stack :=
  { st with
    lost := st.lost ++ rs
    recon := st.recon.filter fun q => !banks.contains q
    spares := st.spares.filter fun x => x.done || !banks.contains (x.die, x.bank) }

/-- A bank that failed (R89, R91, R94): with parity it is served by reconstruction, logged, and copied into a free spare bank,
or permanently reconstructed after the fourth. What no parity recovers is lost: the whole bank without parity, of both banks where the
same bank of another die is reconstructed already, during a rebuild of another die also that die's rows not yet rebuilt, and otherwise
the rows that another die has lost (DESIGN CHOICE log 35). -/
def State.retireBank (s : State) (stk die bank : Nat) : State :=
  let st := s.stack stk
  if st.bankOut die bank then s
  else
    let s := s.logRepair (.bank stk die bank)
    let own : Lost := ⟨die, some bank, 0, rowPositions⟩
    let twins := st.recon.filter fun q => q.2 = bank
    let at_ := placedAddr stk die bank 0 0
    if !st.parity then (s.onStack stk fun st => st.lose [own] []).stackFailed stk
    else
      match st.retired, st.rebuild with
      | some r, some p => (s.onStack stk fun st => st.lose (own :: st.ownRegions r (some bank) p rowPositions) []).stackFailed stk
      | _, _ =>
        if !twins.isEmpty then
          (s.onStack stk fun st => st.lose (own :: twins.map fun q => ⟨q.1, some bank, 0, rowPositions⟩) twins).stackFailed stk
        else
          let gone := (st.lost.filter fun r => r.die ≠ die && (r.bank = none || r.bank = some bank)).map fun r =>
            ({ r with die := die, bank := some bank } : Lost)
          let s := (s.onStack stk fun st => (st.reconstruct die bank).lose gone []).raise (stk / 4) 0x0105 (scUnit stk) 0 at_
          if gone.isEmpty then s else s.stackFailed stk

/-- A data core die that failed (R89, R92, R94, R95): with parity its rebuild starts, and it loses only what another die has lost or a
reconstructed bank of another die needs; otherwise what the die held is lost. A running rebuild's die then loses the positions at or
above the pointer, and banks served by reconstruction lose what only that die could give. -/
def State.retireDie (s : State) (stk die : Nat) : State :=
  let st := s.stack stk
  if st.retired = some die ∨ st.lost.any (fun r => r.die = die && r.bank = none && decide (r.fromPos = 0 ∧ r.toPos = rowPositions)) then s
  else
    let s := s.logRepair (.die stk die)
    let whole := fun (q : Nat × Nat) => (⟨q.1, some q.2, 0, rowPositions⟩ : Lost)
    let own := st.recon.filter fun q => q.1 = die
    if st.parity && st.retired.isNone then
      let crossed := st.recon.filter fun q => q.1 ≠ die && !st.spared die q.2
      let rs := (crossed.flatMap fun q => [whole q, whole (die, q.2)]) ++
        (st.lost.filter fun r => r.die ≠ die).flatMap fun r => st.ownRegions die r.bank r.fromPos r.toPos
      let s := s.onStack stk fun st => { st.lose rs (crossed ++ own) with retired := some die, rebuild := some 0 }
      let s := s.raise (stk / 4) 0x0106 (scUnit stk) 0 (placedAddr stk die 0 0 0)
      if rs.isEmpty then s else s.stackFailed stk
    else
      let first := match st.retired, st.rebuild with
        | some r, some p => st.ownRegions r none p rowPositions
        | _, _ => []
      let rs := st.ownRegions die none 0 rowPositions ++ first ++ (st.recon.filter fun q => q.1 ≠ die).map whole
      let s := s.onStack stk fun st => { st.lose rs st.recon with parity := false, rebuild := none }
      s.stackFailed stk

/-- The failure of the parity die (R505). -/
def State.parityDieFails (s : State) (stk : Nat) : State :=
  let st := s.stack stk
  if st.parityFailed then s
  else
    let s := s.logRepair (.parity stk)
    let spareLost := (st.spares.filter (·.done)).map fun x => (⟨x.die, some x.bank, 0, rowPositions⟩ : Lost)
    let reconLost := st.recon.map fun q => (⟨q.1, some q.2, 0, rowPositions⟩ : Lost)
    let dieLost := match st.retired with | some r => [(⟨r, none, 0, rowPositions⟩ : Lost)] | none => []
    let all := spareLost ++ reconLost ++ dieLost
    let s := s.onStack stk fun st => { st with
      parity := false
      parityFailed := true
      spares := []
      recon := []
      rebuild := none
      degraded := true
      lost := st.lost ++ all }
    let s := s.raise (stk / 4) 0x0107 (scUnit stk) 0 (placedAddr stk 0 0 0 0)
    if all.isEmpty then s else s.stackFailed stk

/-- One row position rebuilt (R92, R93): the pointer advances, the position counts as scrubbed (R86), and after the last the
parity die stands in without parity. -/
def State.rebuildStep (s : State) (stk : Nat) : State :=
  let st := s.stack stk
  match st.rebuild with
  | some p =>
    let s := s.setFld (stk / 4) (stk % 4) 0 SC_REBUILD_PROGRESS.POINTER (p + 1)
    let s := if s.fld (stk / 4) (stk % 4) 0 SC_SCRUB_STATUS.POSITION = p then
        s.setFld (stk / 4) (stk % 4) 0 SC_SCRUB_STATUS.POSITION ((p + 1) % rowPositions) else s
    if p + 1 < rowPositions then s.setStack stk { st with rebuild := some (p + 1) }
    else s.setStack stk { st with rebuild := none, parity := false, degraded := true }
  | none => s

/-! ### Wires -/

/-- A faulty wire of a channel repaired, or run without a spare (R89, R90): with a free spare TSV it is remapped and logged; a
data wire beyond the spares is corrected by the code from then on, and a control wire beyond them puts the channel's sixteen banks on
reconstruction (DESIGN CHOICE log 35). -/
def State.repairWire (s : State) (stk ch : Nat) (control : Bool) : State :=
  let c := mget freshChannel (s.stack stk).channels ch
  let put := fun (s : State) (c : Channel) => s.onStack stk fun st => { st with channels := mput st.channels ch { c with faulty := false } }
  let note := fun (s : State) (id : Nat) => s.raise (stk / 4) id (scUnit stk) 0 0
  if control then
    if c.controlUsed < 2 then
      note ((put s { c with controlUsed := c.controlUsed + 1 }).logRepair (.tsv stk ch true)) 0x0103
    else
      let s := note (put s { c with controlLost := c.controlLost + 1 }) 0x0104
      let s := s.onStack stk fun st => { st with degraded := true }
      let banks := (List.range 16).map fun i => (4 * (ch / 16) + i / 4, 4 * (ch % 16) + i % 4)
      if (s.stack stk).parity && (s.stack stk).rebuild.isNone then
        banks.foldl (fun s q => if (s.stack stk).bankOut q.1 q.2 then s
          else ((s.logRepair (.bank stk q.1 q.2)).onStack stk fun st => st.reconstruct q.1 q.2).raise (stk / 4) 0x0105 (scUnit stk) 0
            (placedAddr stk q.1 q.2 0 0)) s
      else banks.foldl (fun s q => s.retireBank stk q.1 q.2) s
  else
    if c.dataUsed < 4 then
      note ((put s { c with dataUsed := c.dataUsed + 1 }).logRepair (.tsv stk ch false)) 0x0103
    else
      let s := put s { c with dataLost := c.dataLost + 1 }
      note (s.onStack stk fun st => { st with degraded := true }) 0x0104

/-- Spare TSVs of a stack in use, and channels with none left (SC_TSV_STATUS). -/
def Stack.sparesUsed (st : Stack) : Nat := (st.channels.map fun c => c.2.dataUsed + c.2.controlUsed).sum
def Stack.exhausted (st : Stack) : Nat := (st.channels.filter fun c => c.2.dataUsed = 4 && c.2.controlUsed = 2).length

/-! ### Status -/

/-- SC_STATUS.STATE (R96, R445): Clearing until the stack is initialised, then Stopped, Self-refresh, Failed, Rebuilding, Degraded
or Normal. -/
def Stack.state (st : Stack) : Nat :=
  if !st.cleared && !st.failed then 6
  else if st.stopped then 4
  else if st.sr = .asleep || st.sr = .waking then 5
  else if st.failed then 3
  else if st.rebuild.isSome then 2
  else if st.degraded then 1
  else 0

/-- SC_STATUS.RETIRED_DIE (R96, R505). -/
def Stack.retiredDie (st : Stack) : Nat :=
  match st.retired with
  | some r => r
  | none => if st.parityFailed then 0x10 else 0x1F

/-- SC_ACT_BUDGET.EFFECTIVE (R78). -/
def State.actEffective (s : State) (stk : Nat) : Nat :=
  let lim := s.fld (stk / 4) (stk % 4) 0 SC_ACT_BUDGET.LIMIT
  match s.stackTemp stk with
  | some t => if t ≤ 1520 then lim else max (min lim 64) (lim - 32 * ((t - 1520) / 16).toNat)
  | none => lim

/-- Activation tokens held: one per sequence that has one, and one per chain that keeps its own between two descriptors (R77, R148 step 9,
R152). -/
def State.actHeld (s : State) (stk : Nat) : Nat :=
  (s.seqs.filter fun j => j.token && decide ((descBank j.desc).stk = stk)).length +
    (s.baus.filter fun kb => kb.2.kept && decide ((keyBank kb.1).stk = stk)).length

/-- The poison count of a stack, saturating; a region without storage alone exceeds it (SC_POISON_COUNT). -/
def State.poisonCount (s : State) (stk : Nat) : Nat :=
  if (s.stack stk).lost.isEmpty then satTo 0xFFFF (s.mem.poison.filter fun l => placedStack (l * 64) = stk).length else 0xFFFF

/-! ### Initialisation at step 6 -/

/-- The repair log applied to a freshly cleared stack (R95, R505) (DESIGN CHOICE log 33; DESIGN CHOICE log 35). -/
def Stack.applyLog (stk : Nat) (st : Stack) : List Repair → Stack
  | [] => st
  | .tsv k ch ctl :: rs =>
    if k = stk then
      let c := mget freshChannel st.channels ch
      let c' := if ctl then { c with controlUsed := satTo 2 (c.controlUsed + 1) } else { c with dataUsed := satTo 4 (c.dataUsed + 1) }
      Stack.applyLog stk { st with channels := mput st.channels ch c' } rs
    else Stack.applyLog stk st rs
  | .bank k d b :: rs =>
    if k = stk then
      if !st.parityFailed && decide (st.spares.length < 4) then
        Stack.applyLog stk { st with spares := st.spares ++ [⟨d, b, true⟩] } rs
      else if !st.parity then Stack.applyLog stk { st with lost := st.lost ++ [⟨d, some b, 0, rowPositions⟩], failed := true } rs
      else Stack.applyLog stk { st with recon := st.recon ++ [(d, b)], degraded := true } rs
    else Stack.applyLog stk st rs
  | .die k d :: rs =>
    if k = stk then
      if st.parityFailed || st.retired.isSome then
        Stack.applyLog stk { st with lost := st.lost ++ [⟨d, none, 0, rowPositions⟩], failed := true
                                     retired := if st.retired.isSome then st.retired else some d } rs
      else Stack.applyLog stk { st with retired := some d, parity := false, degraded := true } rs
    else Stack.applyLog stk st rs
  | .parity _ :: rs => Stack.applyLog stk st rs

/-- A stack as step 6 of R432 leaves it: the parity die's failure first, then the other entries of the repair log, then the wires
found faulty; a stack that does not calibrate reports Failed without memory (R433). -/
def Stack.initialised (stk : Nat) (log : List Repair) (st : Stack) (t : StackTest) : Stack :=
  if !t.calibrated then
    { st with failed := true, cleared := true, lost := (List.range 16).map fun d => ⟨d, none, 0, rowPositions⟩ }
  else
    let dead := log.any fun r => match r with | .parity k => k = stk | _ => false
    let st := if dead then { st with parity := false, parityFailed := true, degraded := true } else st
    { Stack.applyLog stk st log with cleared := true, calibrated := true }

end Sys2Proof.Machine
end

