-- ==== Sys2Proof/Machine/HostOps.lean ====
section
/-! DEFINITION. Host ports: decoders, the DPA space, bias, the DVSECs and MSI-X (chapter 15, R298). -/

set_option Elab.async false

namespace Sys2Proof.Machine

open Sys2Proof

/-- The DPA at which decoder `n` of a port begins, where the previous decoder in decoder order ends plus its DPA Skip, and its
length (R391). -/
def decoderEnd (p : HostPort) : Nat → Nat
  | 0 => 0
  | n + 1 =>
    match mfind p.decoders n with
    | some x => if x.committed then decoderEnd p n + x.skip + x.size / x.ways else decoderEnd p n
    | none => decoderEnd p n

/-- The DPA that a committed decoder gives a host physical address (R391): its offset with the other ways' granules left out. -/
def decoderDpa (p : HostPort) (n : Nat) (x : Decoder) (a : Nat) : Option Nat :=
  if x.committed ∧ x.base ≤ a ∧ a < x.base + x.size then
    let o := a - x.base
    some (decoderEnd p n + x.skip + o / (x.ways * x.gran) * x.gran + o % x.gran)
  else none

/-- The DPA of a host physical address: through DVSEC Range 1 on a CXL 1.1 port, through the decoders on CXL 2.0 and 3.1 (DEDUCED log 20). -/
def State.hpaToDpa (s : State) (port a : Nat) : Option Nat :=
  let p := s.port port
  if p.ioOnly then none
  else if p.proto = 3 then
    (if p.range1 ≤ a ∧ a < p.range1 + dpaSize (s.window port) then some (a - p.range1) else none)
  else if p.proto = 4 ∨ p.proto = 5 then p.decoders.findSome? fun nx => decoderDpa p nx.1 nx.2 a
  else none

/-- Whether a decoder commit succeeds (R391, R59): ways 1, 2, 4, 8 or 16, granularity 256 B to 16 KiB, within the DPA space, and
disjoint from the DPA ranges of the other committed decoders. -/
def State.commitOk (s : State) (port n : Nat) (x : Decoder) : Bool :=
  let p := s.port port
  let lo := decoderEnd p n + x.skip
  let hi := lo + x.size / x.ways
  decide (x.ways = 1 ∨ x.ways = 2 ∨ x.ways = 4 ∨ x.ways = 8 ∨ x.ways = 16) &&
    (List.range 7).any (fun k => x.gran = 256 * 2 ^ k) &&
    !p.ioOnly && decide (hi ≤ dpaSize (s.window port)) &&
    (List.range 4).all fun m => match mfind p.decoders m with
      | some y => m = n || !y.committed ||
          decide (hi ≤ decoderEnd p m + y.skip ∨ decoderEnd p m + y.skip + y.size / y.ways ≤ lo)
      | none => true

/-- An MSI-X message (R298, R395): sent while Bus Master Enable is 1, pending in the PBA otherwise; none in Safe (R466). -/
def State.raiseMsix (s : State) (port vector : Nat) : State :=
  if s.power.mode = .safe then s
  else if (s.port port).busMaster then s.send (.msix port vector)
  else s.onPort port fun p => { p with msixPending := insertNat vector p.msixPending }

/-- HP_STATUS (R403). -/
def hpStatus (p : HostPort) : Nat :=
  p.proto * 2 ^ 28 + p.speed * 2 ^ 24 + p.width * 2 ^ 16 + (if p.ioOnly then 2 ^ 15 else 0) + (if p.dormant then 2 ^ 14 else 0)

/-- The low or high half of the core map that BTS_FUSE_CORE reports (R7) (DESIGN CHOICE log 4). -/
def State.fuseCore (s : State) (d : Nat) : Nat := s.fuses.dieCores d

/-- DE1 of the present cores, as BTS_FUSE_DE1 reports it: that of every present core, and of none in grade -C (R2, R7) (DESIGN CHOICE log 4). -/
def State.fuseDe1 (s : State) (d : Nat) : Nat := if s.fuses.grade = 0x43 then 0 else s.fuseCore d

/-- The half of a 64-bit value that register `h` of a LO and HI pair shows. -/
def half (v h : Nat) : Nat := if h = 0 then v % 2 ^ 32 else v / 2 ^ 32 % 2 ^ 32

/-- A read of Ongor's DVSECs on a port (R400, R401, R402). -/
def State.cfgRead (s : State) (port id off : Nat) : Option Nat :=
  let p := s.port port
  if id = 1 then
    (if off = 0x0C then some (s.fuses.grade * 2 ^ 16 + s.power.straps * 2 ^ 8 + port)
     else if off = 0x10 then some (s.reg port .HP_CFG 0 0).toNat
     else if off = 0x14 then some (hpStatus p)
     else if 0x18 ≤ off ∧ off < 0x58 ∧ off % 4 = 0 then some (half (s.fuseCore ((off - 0x18) / 8)) ((off - 0x18) / 4 % 2))
     else if 0x58 ≤ off ∧ off < 0x98 ∧ off % 4 = 0 then some (half (s.fuseDe1 ((off - 0x58) / 8)) ((off - 0x58) / 4 % 2))
     else none)
  else if id = 2 then
    (let w := s.window port
     if off = 0x0C then some w.length
     else if 0x10 ≤ off ∧ off < 0x90 ∧ off % 4 = 0 then
       (match w[(off - 0x10) / 16]? with
        | some (b, n) => let k := (off - 0x10) / 4 % 4
                         some (if k < 2 then half b k else half n (k - 2))
        | none => some 0)
     else none)
  else if id = 3 then
    (if off = 0x0C then some p.biasPage
     else if off = 0x10 then some p.biasCount
     else if off = 0x14 then some (if p.biasTarget then 2 else 0)
     else if off = 0x18 then
       some ((if p.flip.isSome then 2 ^ 31 else 0) + (if p.errRange then 2 ^ 30 else 0) + (if p.errBusy then 2 ^ 29 else 0))
     else if off = 0x1C then some p.biasDone
     else none)
  else none

/-- START of a bias flip (R394, steps 2 and 3): refused with ERR_BUSY while one runs, and with ERR_RANGE beyond the DPA space or on
a port without HDM-D. -/
def State.biasStart (s : State) (port : Nat) : State :=
  let p := s.port port
  if p.flip.isSome then s.onPort port fun p => { p with errBusy := true }
  else if !biasPort p || decide (dpaSize (s.window port) < (p.biasPage + p.biasCount + 1) * 4096) then
    s.onPort port fun p => { p with errRange := true }
  else s.onPort port fun p => { p with
    flip := some ⟨p.biasTarget, p.biasPage, p.biasPage + p.biasCount⟩
    biasDone := 0 }

/-- A write of the Bias DVSEC (R402); the other DVSECs hold only RO registers. -/
def State.cfgWrite (s : State) (port id off v : Nat) : State :=
  if id = 3 then
    (if off = 0x0C then s.onPort port fun p => { p with biasPage := v % 2 ^ 30 }
     else if off = 0x10 then s.onPort port fun p => { p with biasCount := v % 2 ^ 30 }
     else if off = 0x14 then
       (let busy := (s.port port).flip.isSome
        let s := if bit v 0 && busy then s else s.onPort port fun p => { p with biasTarget := bit v 1 }
        if bit v 0 then s.biasStart port else s)
     else if off = 0x18 then s.onPort port fun p => { p with
         errRange := p.errRange && !bit v 30
         errBusy := p.errBusy && !bit v 29 }
     else s)
  else s

/-- The placed addresses of the lines of a 4 KiB DPA page, by the port's window. -/
def State.pageLines (s : State) (port page : Nat) : List Nat :=
  (List.range 64).filterMap fun i =>
    match dpaToAddr (s.window port) (page * 4096 + i * 64) with
    | some a => (match s.resolve a with | .mem p => some p | _ => none)
    | none => none

/-- The page of a running flip that is next. -/
def State.flipPage (s : State) (port : Nat) : Option (Nat × Bool) := (s.port port).flip.map fun f => (f.next, f.toDevice)

/-- Whether the flip of a page may complete now (R394 step 4): towards device bias once every line has been obtained, towards host
bias once no bank sequence holds a row of it. -/
def State.pageFlips (s : State) (port page : Nat) (toDevice : Bool) : Bool :=
  if toDevice then (s.pageLines port page).all fun p => s.mem.owned.contains (p / 64)
  else (s.pageLines port page).all fun p => !s.seqHolds (bankOf p)

/-- The requests that a flip towards device bias makes for its next page (R394 step 4) (DESIGN CHOICE log 52). -/
def State.flipAsk (s : State) (port : Nat) : State :=
  match s.flipPage port with
  | some (page, true) =>
    s.issueSnoops (((s.pageLines port page).filter fun p => !s.mem.owned.contains (p / 64)).map fun p => ⟨port, p / 64, .rdOwn⟩)
  | _ => s

/-- A page's flip completes (R394 step 5): BIAS_DONE rises, and BUSY clears after the last page. -/
def State.flipDone (s : State) (port : Nat) : State :=
  match (s.port port).flip with
  | some f =>
    let ls := (s.pageLines port f.next).map (· / 64)
    let s := s.onMem fun m => { m with
      obtained := m.obtained.filter fun l => !ls.contains l
      owned := m.owned.filter fun l => !ls.contains l }
    s.onPort port fun p => { p with
      devBias := (f.next, f.next, f.toDevice) :: p.devBias
      biasDone := p.biasDone + 1
      flip := if f.next < f.last then some { f with next := f.next + 1 } else none }
  | none => s

/-- Directory entries of a port dropped (R397). -/
def State.dropDir (s : State) (port : Nat) : State :=
  s.onMem fun m => { m with
    dir := (m.dir.map fun e => { e with ports := e.ports.filter fun q => q.1 ≠ port }).filter fun e => !e.ports.isEmpty
    snoops := m.snoops.filter fun x => x.port ≠ port }

/-- Held accesses of a port abandoned (R397). -/
def State.dropHeld (s : State) (port : Nat) : State :=
  s.onMem fun m => { m with held := m.held.filter fun x => match x.ag with | .host p _ => p ≠ port | _ => true }

/-- Whether bytes [lo, lo + n) of one row, given by its placed address, lie in spread range `sp`. -/
def rowInSpread (sp : Nat × Nat) (p n : Nat) : Bool :=
  decide (placedToSpread p < sp.1 + sp.2 ∧ sp.1 < placedToSpread p + n)

/-- Whether the bytes [a, b) of one bank of the placed view share a byte with spread range `sp`: the first and last row byte by
byte, and between them the rows nearest above the range's start, since a bank's rows rise in the spread view (R43). -/
def bankInSpread (sp : Nat × Nat) (a b : Nat) : Bool :=
  let bank := alignDown a (2 ^ 27)
  let q := (sp.1 - placedToSpread bank) / 2 ^ 27
  rowInSpread sp a (min b (alignDown a 1024 + 1024) - a) ||
    rowInSpread sp (max a (alignDown (b - 1) 1024)) (b - max a (alignDown (b - 1) 1024)) ||
    ([alignUp a 1024 / 1024 % 131072] ++ (List.range 6).map (4 * q + ·)).any fun r =>
      decide (alignUp a 1024 ≤ bank + r * 1024 ∧ bank + r * 1024 + 1024 ≤ b) && rowInSpread sp (bank + r * 1024) 1024

/-- Whether a placed-view range shares a byte with spread range `sp`, bank by bank. -/
def placedInSpread (sp pl : Nat × Nat) : Bool :=
  (List.range ((pl.2 + 2 ^ 27 - 1) / 2 ^ 27 + 1)).any fun i =>
    let lo := max pl.1 (alignDown pl.1 (2 ^ 27) + i * 2 ^ 27)
    let hi := min (pl.1 + pl.2) (alignDown lo (2 ^ 27) + 0x18000 * 1024)
    decide (lo < hi) && bankInSpread sp lo hi

/-- Whether two memory ranges share a byte, compared on the underlying bytes (R58). -/
def rangesShare (a b : Nat × Nat) : Bool :=
  if decide (a.1 < 0x030000000000) = decide (b.1 < 0x030000000000) then decide (a.1 < b.1 + b.2 ∧ b.1 < a.1 + a.2)
  else if a.1 < 0x030000000000 then placedInSpread a b
  else placedInSpread b a

/-- Whether two windows share any byte. -/
def windowsShare (a b : List (Nat × Nat)) : Bool := a.any fun x => b.any fun y => rangesShare x y

end Sys2Proof.Machine
end

