-- ==== Sys2Proof/Machine/MailboxOps.lean ====
section
/-! DEFINITION. Mailboxes (R290 to R298): posting, keeping and taking notices, host accesses to slots, reply targets. A slot is (d, k, n): cluster `k` of
die `d`; the collective engine of die `d` when `k` is 4 (R423); a loader submission slot when `d` is 8 (R335). -/

set_option Elab.async false

namespace Sys2Proof.Machine

open Sys2Proof

/-! ### Senders (R291) -/

/-- The sender identity of a control core, an attention sequencer, a KV manager and a host's or peer's request. -/
def senderCc (d c : Nat) : Nat := 0x10000000 + d * 2 ^ 25 + c * 2 ^ 16
def senderAseq (d k : Nat) : Nat := 0x20000000 + d * 2 ^ 25 + k * 2 ^ 16
def senderKv (d k : Nat) : Nat := 0x30000000 + d * 2 ^ 25 + k * 2 ^ 16
def senderFar (d : Nat) : Nat := 0x30000000 + d * 2 ^ 25 + 2 ^ 15
def senderLoader : Nat := 0x50000000
def senderColl (d : Nat) : Nat := 0x60000000 + d * 2 ^ 25
def senderHost (port rid : Nat) : Nat := 0x80000000 + port * 2 ^ 16 + rid % 2 ^ 16
def senderPeer (src : Nat) : Nat := 0x90000000 + src % 2 ^ 25

/-- The identity that a post by an agent carries. -/
def senderOf : Agent → Nat
  | .engine d c _ => senderCc d c
  | .cc d c => senderCc d c
  | .aseq d k => senderAseq d k
  | .kvm d => senderFar d
  | .loader => senderLoader
  | .coll d => senderColl d
  | .mgmt => 0x40000000
  | .fcu d => 0x40000000 + d * 2 ^ 25
  | .host p rid => senderHost p rid
  | .peer src _ _ => senderPeer src

/-- The kind of a sender: 8 host, 9 Caravan peer, below that the module's own. -/
def senderKind (w : Nat) : Nat := bits w 31 28
def senderPort (w : Nat) : Nat := bits w 18 16

/-- The die and Caravan agent of a sender of this module (R291, R407). -/
def senderAgent (w : Nat) : Nat × Nat :=
  let d := bits w 27 25
  let k := bits w 17 16
  match senderKind w with
  | 1 => (d, bits w 21 16)
  | 2 => (d, 0x44 + k)
  | 3 => (d, if bit w 15 then 0x4C else 0x48 + k)
  | 5 => (0, 0xF0)
  | _ => (d, 0x60)

/-- The agent whose reach a sender's records have (R506). -/
def posterAgent (w : Nat) : Agent :=
  match senderKind w with
  | 8 => .host (senderPort w) 0
  | 9 => .peer (bits w 24 0) 0 0
  | _ => .loader

/-- Whether a poster reaches every byte of [a, a + n) (R506). -/
def State.posterReaches (s : State) (w a n : Nat) : Bool := s.reachable (posterAgent w) a n

/-! ### Notices (R290) -/

/-- The 16 bytes of a notice. -/
def noticeBytes (pointer tag sender : Nat) : List Byte := leBytes 8 pointer ++ leBytes 4 tag ++ leBytes 4 sender

def Notice.pointer (x : Notice) : Nat := field x.bytes 0 8
def Notice.tag (x : Notice) : Nat := field x.bytes 8 4
def Notice.sender (x : Notice) : Nat := field x.bytes 12 4

/-- The notice in a slot. -/
def State.noticeAt (s : State) (d k n : Nat) : Option Notice := s.notices.find? fun x => x.d = d && x.k = k && x.n = n

/-- A slot emptied. -/
def State.emptySlot (s : State) (d k n : Nat) : State :=
  { s with notices := s.notices.filter fun x => !(x.d = d && x.k = k && x.n = n) }

/-- Whether a slot exists. -/
def slotExists (d k n : Nat) : Bool :=
  decide (d < 8 ∧ k < 4 ∧ n < 256) || decide (d < 8 ∧ k = 4 ∧ n < 64) || decide (d = 8 ∧ k = 0 ∧ n < 16)

/-- The binding of a slot: MBX_BINDn, LDR_SUBMIT_BINDn, or that of a collective slot, open to peers and internal agents (R423). -/
def State.binding (s : State) (d k n : Nat) : Nat :=
  if d = 8 then (s.reg 0 .LDR_SUBMIT_BIND 0 n).toNat
  else if k = 4 then 0x80000600
  else (s.reg d .MBX_BIND k n).toNat

/-- The receiver kind of a mailbox binding, its target and vector (R300). -/
def bindRecv (w : Nat) : Nat := bits w 30 29
def bindTarget (w : Nat) : Nat := bits w 28 24
def bindVector (w : Nat) : Nat := bits w 23 13

/-- The mask of partitions that may reach this module (R417). -/
def State.partitionMask (s : State) : Nat :=
  ((s.entries 0x0007).findSome? fun e => match e with | .partitionMask m => some m | _ => none).getD 0

/-- Whether a Caravan source's partition lies in the module's mask (R417). -/
def State.partitionOk (s : State) (src : Nat) : Bool :=
  match s.partitionOf (carModule src) with
  | some p => bit s.partitionMask p
  | none => false

/-- Whether a binding lets a sender post (R292, R417). -/
def State.mayPost (s : State) (bind sender : Nat) : Bool :=
  bit bind 31 && (if senderKind sender = 8 then bit bind (senderPort sender)
    else if senderKind sender = 9 then bit bind 9 && s.partitionOk (bits sender 24 0)
    else bit bind 10)

/-- How a post ends (R293). -/
inductive PostResult where
  | ok | full | denied
  deriving DecidableEq, Repr

/-- A refused post counted (R293), for a mailbox block's slot. -/
def State.countReject (s : State) (d k : Nat) (f : RF) : State := if d < 8 ∧ k < 4 then s.countFld d k 0 f 1 else s

/-- What an accepted notice does besides: a host's doorbell (R298), or the wake of a module in Dormant (R496). -/
def State.doorbell (s : State) (d k n : Nat) : State :=
  let b := s.binding d k n
  if d < 8 ∧ k < 4 then
    (if bindRecv b = 2 then s.raiseMsix (bindTarget b % 8) (bindVector b) else s)
  else if s.power.mode = .enteringDormant ∨ s.power.mode = .dormant then s.onPower fun p => { p with heldWork := true }
  else s

/-- A post (R293): the state, and how it ended. In Safe every post is refused and none is counted (R466) (DESIGN CHOICE log 26). -/
def State.post (s : State) (sender d k n pointer tag : Nat) : State × PostResult :=
  if s.power.mode = .safe then (s, .denied)
  else if !slotExists d k n || !s.mayPost (s.binding d k n) sender then (s.countReject d k MBX_REJECT.DENIED, .denied)
  else if (s.noticeAt d k n).isSome then (s.countReject d k MBX_REJECT.FULL, .full)
  else
    let x : Notice := ⟨d, k, n, noticeBytes pointer tag sender⟩
    (({ s with notices := s.notices ++ [x] } : State).doorbell d k n, .ok)

/-! ### Notices of hardware senders (R293, R313) -/

/-- A reply target decoded: none for KIND 0x0. -/
def replyDest (r : Nat) : Option Dest :=
  match bits r 63 60 with
  | 1 => some (.local_ (bits r 12 10) (bits r 9 8) (bits r 7 0))
  | 2 => some (.caravan (bits r 45 32) (bits r 26 24) (bits r 23 16) (bits r 7 0))
  | _ => none

/-- Whether a reply target's kind is defined and the bits it does not use are 0 (R313). -/
def replyOk (r : Nat) : Bool :=
  match bits r 63 60 with
  | 0 => decide (r = 0)
  | 1 => decide (bits r 59 13 = 0)
  | 2 => decide (bits r 59 46 = 0 ∧ bits r 31 27 = 0 ∧ bits r 15 8 = 0)
  | _ => false

/-- The payload of a NOTICE frame (R409). -/
def noticePayload (pointer tag : Nat) : List Byte := padTo 64 0 (leBytes 8 pointer ++ leBytes 4 tag)

/-- The agent whose writes a notice of a sender of this module announces (R51). -/
def senderWriter (w : Nat) : Agent :=
  match senderKind w with
  | 1 => .cc (bits w 27 25) (bits w 21 16)
  | 2 => .aseq (bits w 27 25) (bits w 17 16)
  | 3 => .kvm (bits w 27 25)
  | 5 => .loader
  | 6 => .coll (bits w 27 25)
  | _ => .fcu (bits w 27 25)

/-- Whether a write that an agent issued before still waits to be acknowledged at its order point (R51). -/
def State.writePending (s : State) (ag : Agent) : Bool := s.mem.held.any fun h => decide (h.ag = ag) && (match h.op with | .write _ _ => true | _ => false)

/-- What becomes of a notice of a sender of this module that its slot refuses (R293): a control core's store fails with a bus error, and a
hardware sender keeps the notice. -/
def State.refused (s : State) (x : Kept) (keep : State → State) : State :=
  if senderKind x.sender = 1 then s.send (.reply (senderWriter x.sender) .busError) else keep s

/-- A notice that a sender of this module posts: to a local slot, delivered once the sender's earlier writes are acknowledged (R51) and kept
until then, or to be posted again when it is refused (R293); or as a NOTICE frame, kept until its response arrives. Nothing is kept in Safe
(R466). -/
def State.postNotice (s : State) (sender : Nat) (dest : Dest) (pointer tag : Nat) : State :=
  let x : Kept := ⟨sender, dest, pointer, tag⟩
  if s.power.mode ≠ .safe ∧ s.writePending (senderWriter sender) = true then { s with kept := s.kept ++ [x] }
  else
    match dest with
    | .local_ d k n =>
      (match s.post sender d k n pointer tag with
       | (s, .ok) => s
       | (s, _) => if s.power.mode = .safe then s else s.refused x fun s => { s with kept := s.kept ++ [x] })
    | .caravan m d a slot =>
      if s.power.mode = .safe then s
      else s.request (senderAgent sender).1 (senderAgent sender).2 3 (carAddr m d a) slot 0 64 (noticePayload pointer tag)
        (9, sender, pointer, tag)

/-- Whether the completion notice of a step is still kept to be posted (R293). -/
def State.noticeKept (s : State) (x : Step) : Bool :=
  s.kept.any fun n => decide (n.sender = senderAseq x.d x.k ∧ n.pointer = x.pointer ∧ n.tag = x.tag)

/-- The steps that have not sent their completion notices (R40). -/
def State.liveSteps (s : State) : List Step := s.kv.steps.filter fun x => !x.ended || s.noticeKept x

/-- A reply posted to the target of a record (R313). -/
def State.replyTo (s : State) (sender r pointer tag : Nat) : State :=
  match replyDest r with
  | some dest => s.postNotice sender dest pointer tag
  | none => s

/-- A kept notice posted again once the slot has emptied (R293): only the first of its sender, so that they go in the order in which they
were refused, and not before its sender's writes (R51). -/
def State.repost (s : State) (i : Nat) : State :=
  match s.kept[i]? with
  | none => s
  | some x =>
    if ((s.kept.take i).any fun y => y.sender = x.sender) || s.writePending (senderWriter x.sender) then s
    else
      match x.dest with
      | .caravan _ _ _ _ => { s with kept := s.kept.eraseIdx i }.postNotice x.sender x.dest x.pointer x.tag
      | .local_ d k n =>
        if senderKind x.sender ≠ 1 ∧ (s.noticeAt d k n).isSome then s
        else
          match s.post x.sender d k n x.pointer x.tag with
          | (s, .ok) => { s with kept := s.kept.eraseIdx i }
          | (s, _) => if senderKind x.sender = 1 then ({ s with kept := s.kept.eraseIdx i } : State).refused x id else s

/-! ### Host accesses (R294, R295) -/

/-- The slot at an offset of a port's mailbox region. -/
def regionSlot (off : Nat) : Nat × Nat × Nat :=
  if off < 0x20000 then (off / 0x4000, off / 0x1000 % 4, off % 0x1000 / 16) else (8, 0, (off - 0x20000) / 16)

/-- A malformed host request counted (R294, R295); one for a loader slot, which has no block of its own, in the block of D0.K0 (DESIGN
CHOICE log 22). -/
def State.countBad (s : State) (d k : Nat) : State := s.countReject (d % 8) k MBX_REJECT.BAD

/-- A host's CAS to the mailbox region (R295). -/
def State.hostCas (s : State) (port off size compare swap rid : Nat) : State :=
  let (d, k, n) := regionSlot off
  let whom := Agent.host port rid
  if s.power.mode = .safe then s.send (.reply whom .abort)
  else if size ≠ 32 ∨ compare ≠ 0 ∨ off % 16 ≠ 0 ∨ 0x20100 ≤ off then (s.countBad d k).send (.reply whom .unsupported)
  else
    match s.post (senderHost port rid) d k n (swap % 2 ^ 64) (swap / 2 ^ 64 % 2 ^ 32) with
    | (s, .ok) => s.send (.reply whom (.data (List.replicate 16 0) []))
    | (s, .full) => s.send (.reply whom .abort)
    | (s, .denied) => s.send (.reply whom .unsupported)

/-- Whether a slot is bound to a port as receiver. -/
def State.hostSlot (s : State) (port d k n : Nat) : Bool :=
  decide (d < 8 ∧ k < 4) && bit (s.binding d k n) 31 && decide (bindRecv (s.binding d k n) = 2 ∧ bindTarget (s.binding d k n) = port)

/-- A host's read or write of the mailbox region (R294). -/
def State.mailboxAccess (s : State) (x : HeldAccess) (port off : Nat) (um : State) : State :=
  let (d, k, n) := regionSlot off
  if 0x20100 < off + (match x.op with | .read n _ => n | .write b _ => b.length) then um
  else
    let own := decide (off % 16 = 0) && s.hostSlot port d k n
    match x.op with
    | .read len _ =>
      if own && decide (len = 16) then
        s.answer x (.data (match s.noticeAt d k n with | some z => z.bytes | none => List.replicate 16 0) [])
      else (s.countBad d k).answer x .unsupported
    | .write data _ =>
      if own && decide (data = List.replicate 16 0) then (s.emptySlot d k n).answer x .done
      else (s.countBad d k).answer x .done

/-- A port's mailboxes after a hot reset or FLR (R296): slots bound to it as receiver are empty. -/
def State.resetMailboxes (s : State) (port : Nat) : State :=
  { s with notices := s.notices.filter fun x => !s.hostSlot port x.d x.k x.n }

/-- The mailbox registers that show notices (R300, R301). -/
def State.mailboxView (s : State) (d : Nat) (r : Reg) (u i : Nat) : Option Nat :=
  match r with
  | .MBX_NOTICE => some (match s.noticeAt d u (i / 4) with | some x => field x.bytes (i % 4 * 4) 4 | none => 0)
  | .MBX_FULL => some (ofBitSet ((List.range 32).filter fun b => (s.noticeAt d u (32 * i + b)).isSome))
  | .MBX_DIETIME_LO => some (s.time d % 2 ^ 32)
  | _ => none

end Sys2Proof.Machine
end

