-- ==== Sys2Proof/Machine/OpticsOps.lean ====
section
/-! DEFINITION. Lane groups: lanes, maps, what ports do when they go down, sleep, wake and train (chapter 14). -/

set_option Elab.async false

namespace Sys2Proof.Machine

open Sys2Proof

/-- An engine, and a physical lane of it. -/
def State.engine (s : State) (e : Nat) : Engine := mget freshEngine s.fab.engines e
def State.lane (s : State) (e n : Nat) : Lane := mget freshLane s.fab.lanes (e * 64 + n)

/-- The state with an engine or a lane replaced by its image. -/
def State.onEngine (s : State) (e : Nat) (f : Engine → Engine) : State :=
  s.onFab fun x => { x with engines := mput x.engines e (f (s.engine e)) }
def State.onLane (s : State) (e n : Nat) (f : Lane → Lane) : State :=
  s.onFab fun x => { x with lanes := mput x.lanes (e * 64 + n) (f (s.lane e n)) }

/-- The lane group of a logical lane of an engine (R28): FP(3e) to FP(3e + 2), then host port e / 2 as 48 + e / 2. -/
def groupPort (e logical : Nat) : Nat := if logical < 24 then 3 * e + logical / 8 else 48 + e / 2

/-- The engines of a lane group, and its first logical lane. -/
def portEngines (p : Nat) : List Nat := if p < 48 then [p / 3] else [2 * (p - 48), 2 * (p - 48) + 1]
def portBase (p : Nat) : Nat := if p < 48 then 8 * (p % 3) else 24

/-- The physical lane of a logical lane. -/
def State.physOf (s : State) (e logical : Nat) : Nat := ((s.engine e).map[logical]?).getD logical

/-- The logical lane that a physical lane carries, if any. -/
def State.logicalOf (s : State) (e n : Nat) : Option Nat := (List.range 32).find? fun i => s.physOf e i = n

/-- The (engine, physical lane) pairs of a lane group, in logical order; only the half that a narrow port uses (R376). -/
def State.portLanes (s : State) (p : Nat) : List (Nat × Nat) :=
  (portEngines p).flatMap fun e => ((List.range 8).filter fun i => match (s.fport p).half with
    | some h => i / 4 = h
    | none => true).map fun i => (e, s.physOf e (portBase p + i))

/-- Spare lanes that are free: not failed and carrying nothing, in ascending order (R372, R377). A lane that failed a second time stays
failed; a lane that a calibration or a pending swap uses is not free. -/
def State.freeSpares (s : State) (e : Nat) : List Nat :=
  (List.range 36).filter fun n => !(s.lane e n).failed && (s.logicalOf e n).isNone &&
    (match (s.engine e).cal with | some c => c.own ≠ n && c.spare ≠ n | none => true) &&
    [3 * e, 3 * e + 1, 3 * e + 2, 48 + e / 2].all fun p => match (s.fport p).swap with
      | some w => !((portEngines p).contains e && s.physOf e w.logical = w.old && w.spare = n)
      | none => true

/-- The logical lane's entry of the map replaced. -/
def State.mapLane (s : State) (e logical n : Nat) : State :=
  s.onEngine e fun x => { x with map := x.map.set logical n }

/-- The training state of a group's lanes cleared, to start again at step `2` of R370; lit lanes stay lit. -/
def State.clearLanes (s : State) (p : Nat) : State :=
  (s.portLanes p).foldl (fun s en => s.onLane en.1 en.2 fun l =>
    { l with ts1 := false, countdown := false, eqOk := false, ts2 := 0, am := none, aligned := false, eidle := false }) s

/-- TS1 or TS2 bytes that the module sends on a lane (R365): module and kind, die, engine, physical and logical lane, mode, equalisation
request and countdown. -/
def State.tsBlock (s : State) (ty e n logical mode eq count : Nat) : List Byte :=
  padTo 32 0 (leBytes 1 ty ++ leBytes 2 (s.moduleNo % 2 ^ 14) ++ leBytes 1 (e / 2) ++ leBytes 1 e ++ leBytes 1 n ++ leBytes 1 logical ++
    leBytes 1 mode ++ leBytes 1 eq ++ leBytes 2 count)

/-- The mode code of a group (R362, R365): fabric 0, host 1, keep-alive 2, as the record sets it. -/
def State.modeOf (s : State) (p : Nat) : Nat :=
  if 48 ≤ p then 1
  else match (s.entries 0x0007).findSome? fun e => match e with | .laneMode true q m => if q = p then some m else none | _ => none with
    | some m => if m = 0 then 0 else 2
    | none => 0

/-- A block sent on every lane of a group. -/
def State.sendBlocks (s : State) (p : Nat) (mk : Nat → Nat → List Byte) : State :=
  (s.portLanes p).foldl (fun s en => s.send (.block en.1 en.2 (mk en.1 en.2))) s

/-- A control block (R365) with its bytes from byte 1 on. -/
def ctlBlock (ty : Nat) (rest : List Byte) : List Byte := padTo 32 0 (leBytes 1 ty ++ rest)

/-- A port that goes down (R421): what its replay buffer held is lost; frames that wait to leave are routed anew. -/
def State.linkLost (s : State) (p : Nat) (phase : PortPhase) : State :=
  let waiting := (s.fport p).out
  let s := s.onFPort p fun x => { freshFPort with phase := phase, epoch := x.epoch, half := x.half }
  waiting.foldl (fun s o => if frClass o.bytes = 3 then s.freeBuffer o.from_ (frUnits o.bytes) else s.forward o.bytes o.from_) s

/-- Whether a lane group trains (R371, R405, R432, R441, R445, R453): host lanes once lasers emit; fabric ports, once the wavelengths are
locked, where the record names the peer and the unit is not stopped, in recovery FP0 to FP5 only. -/
def State.mayTrain (s : State) (p : Nat) : Bool :=
  if p < 48 then
    s.boot.lasersLocked && (s.namedPeer p).isSome && !s.mgmt.stopped.contains ⟨2, p⟩ && (!s.boot.recovery || decide (p < 6))
  else s.boot.lasersOn && decide (p < 56)

/-- A TS1 sent on a lane of a group (R365, R370), in keep-alive mode until the rate change. -/
def State.sendTs1 (s : State) (p e n eq count : Nat) : State :=
  let mode := if (s.fport p).rate then s.modeOf p else 2
  s.send (.block e n (s.tsBlock 3 e n ((s.logicalOf e n).getD n) mode eq count))

/-- Training from step 2 of R370 (R371): TS1 on every lane that sees light. -/
def State.trainPort (s : State) (p : Nat) : State :=
  let s := (s.linkLost p .training).clearLanes p
  (s.portLanes p).foldl (fun s en => if (s.lane en.1 en.2).lit then s.sendTs1 p en.1 en.2 0 0xFFFF else s) s

/-- A retrain, counted (R368, R383). -/
def State.retrainPort (s : State) (p : Nat) : State :=
  if 48 ≤ p then s else (s.countFld (p / 6) (p % 6 / 3) 0 OE_REPLAY.RETRAINS 1).trainPort p

/-- STOP of a fabric port: down, and routing skips it (R445). -/
def State.fabricDown (s : State) (p : Nat) : State := s.linkLost p .down

/-- START of a fabric port: it trains again. -/
def State.fabricRestart (s : State) (p : Nat) : State :=
  if s.mayTrain p then s.trainPort p else s

/-- Every port's lanes to their dormant settings (R381, R398): fabric ports that are up keep logical lane 0; host links run x1. -/
def State.keepAlivePorts (s : State) : State :=
  let s := (List.range 48).foldl (fun s p => if (s.fport p).phase = .up then s.onFPort p fun x => { x with phase := .keepAlive } else s) s
  { s with ports := s.ports.map fun kp => (kp.1, if kp.2.proto = 0 then kp.2 else { kp.2 with dormant := true }) }

/-- Ports wake (R381, R398): WAKE goes out on lane 0, and the lanes retrain from step 3 of R370 with their stored equalisation. -/
def State.wakePorts (s : State) : State :=
  let s := (List.range 48).foldl (fun s p =>
    if (s.fport p).phase = .keepAlive then
      let s := match (s.portLanes p).head? with | some en => s.send (.block en.1 en.2 (ctlBlock 9 [])) | none => s
      let s := (s.clearLanes p).onFPort p fun x => { x with phase := .training, rate := false, eq := true }
      let f := s.fresh
      (f.2.portLanes p).foldl (fun s en =>
        (s.onLane en.1 en.2 fun l => { l with ts1 := true }).sendTs1 p en.1 en.2 0 (f.1 % 0xFFFF)) f.2
    else s) s
  { s with ports := s.ports.map fun kp => (kp.1, { kp.2 with dormant := false }) }

/-- DOWN on every port that is up, with this module's number (R422, R465). -/
def State.sendDowns (s : State) : State :=
  (List.range 48).foldl (fun s p =>
    if (s.fport p).phase = .up then
      (s.queueFrame p (s.linkFrame p 0x32 (padTo 64 0 (leBytes 2 s.moduleNo))) 0 none).pump p ((s.fport p).out.length + 1)
    else s) s

/-! ### Calibration moves (R379) -/

/-- The registers' copy for engine `e`: die e / 2, copy e % 2. -/
def State.oeCount (s : State) (e : Nat) (f : RF) : State := s.countFld (e / 2) (e % 2) 0 f 1

/-- The state with a port's epoch raised (R365). -/
def State.nextEpoch (s : State) (p : Nat) : State := s.onFPort p fun x => { x with epoch := (x.epoch + 1) % 256 }

/-- A hitless move of a logical lane that this end makes: CAL_MOVE with a countdown of at least 16 codewords on every lane of the port, and
at its end the lane on the target. -/
def State.moveLane (s : State) (e logical target : Nat) : State :=
  let p := groupPort e logical
  let s := s.nextEpoch p
  let f := s.fresh
  let s := f.2
  let s := s.sendBlocks p fun _ _ =>
    ctlBlock 7 (leBytes 1 logical ++ leBytes 1 target ++ leBytes 1 (s.fport p).epoch ++ leBytes 2 (16 + f.1 % 0xFFF0))
  (s.mapLane e logical target).oeCount e OE_SWAP_COUNT.CAL

/-- The self-test of a fabric port (R447): every lane of the port in turn moves to a free spare, while two are free, is recalibrated and moves
back. -/
def State.portSelftest (s : State) (p : Nat) : State :=
  (s.portLanes p).foldl (fun s en =>
    match s.logicalOf en.1 en.2, s.freeSpares en.1 with
    | some i, a :: _ :: _ => if (s.fport p).phase = .up then (s.moveLane en.1 i a).moveLane en.1 i en.2 else s
    | _, _ => s) s

/-! ### Registers (R383, R429, R430) -/

/-- OE_STATUS.STATE (R383). -/
def State.oeState (s : State) (e : Nat) : Nat :=
  let ps := (List.range 3).map fun i => s.fport (3 * e + i)
  let host := decide ((s.port (e / 2)).proto ≠ 0)
  if !s.boot.lasersOn then 0
  else if !s.boot.lasersLocked then 1
  else if ps.any fun x => x.phase = .keepAlive then 5
  else if (ps.any fun x => x.phase = .up && x.half.isSome) || !(s.engine e).dark.isEmpty then 4
  else if (ps.any fun x => x.phase = .up) || host then 3
  else 2

/-- CF_PORT_STATUSn.STATE (R429). -/
def State.cfState (s : State) (p : Nat) : Nat :=
  let x := s.fport p
  match x.phase with
  | .down => 0
  | .training => 1
  | .up => if s.fab.down.contains x.peer then 6 else if x.half.isSome then 3 else 2
  | .miscabled => 4
  | .keepAlive => 5

/-- The link ends of a die (R25, R430), in ascending link number. -/
def dieLinks (d : Nat) : List Nat := (List.range 10).filter fun n => (linkDies n).1 = d || (linkDies n).2 = d

/-- DDL_STATUS (R430). -/
def State.ddlStatus (s : State) (d : Nat) : Nat :=
  ((List.range 3).map fun j => (match (dieLinks d)[j]? with
    | some n => (if s.fcu.linksDown.contains n then 1 else 2) * 16 + n
    | none => 15) * 2 ^ (8 * j)).sum

/-- The registers of chapters 14 and 16 that show a state held elsewhere. -/
def State.fabricView (s : State) (d : Nat) (r : Reg) (u i : Nat) : Option Nat :=
  let e := 2 * d + u
  match r with
  | .OE_STATUS =>
    some (s.oeState e * 2 ^ 28 + min 4 (s.freeSpares e).length * 2 ^ 24 + ofBitSet (s.engine e).spare.reverse * 2 ^ 20 +
      ofBitSet (s.engine e).dark * 2 ^ 16 +
      ofBitSet ((List.range 3).filter fun j => (s.fport (3 * e + j)).phase = .up) + 8 * flag (decide ((s.port d).proto ≠ 0)))
  | .OE_LANE_MAP => some (((List.range 4).map fun j => s.physOf e (4 * i + j) * 2 ^ (8 * j)).sum)
  | .OE_LANE_FAILED_LO => some (ofBitSet ((List.range 32).filter fun n => (s.lane e n).failed))
  | .OE_LANE_FAILED_HI => some (ofBitSet ((List.range 4).filter fun n => (s.lane e (32 + n)).failed))
  | .CF_ID => some ((s.partitionOf s.moduleNo).getD 0 * 2 ^ 28 + s.groupNo * 2 ^ 16 + s.moduleNo)
  | .CF_PORT_STATUS =>
    let p := 6 * d + i
    some (s.cfState p * 2 ^ 28 + flag (globalPort p) * 2 ^ 27 + if s.cfState p < 2 then 0 else (s.fport p).peer)
  | .CF_COLL_STATUS =>
    let n := (s.fab.colls.filter fun c => c.d = d).length
    some (n * 2 ^ 16 + (s.notices.filter fun x => x.d = d && x.k = 4).length)
  | .DDL_STATUS => some (s.ddlStatus d)
  | _ => none

end Sys2Proof.Machine
end

