-- ==== Sys2Proof/Machine/BauOps.lean ====
section
/-! DEFINITION. Bank sequence descriptors, the checks before a token, and the bank arithmetic (R130 to R146). -/

set_option Elab.async false

namespace Sys2Proof.Machine

open Sys2Proof

/-! ### Descriptors (R136, R137) -/

/-- An operation word (R137): code, X, first row offset, rows, first column, columns less one, PARAM. -/
structure SeqOp where
  op : Nat
  x : Bool
  rowFirst : Nat
  rows : Nat
  colFirst : Nat
  colLast : Nat
  param : Nat
  word : Nat
  deriving DecidableEq, Repr

/-- The fields of an operation word. -/
def seqOp (w : Nat) : SeqOp :=
  ⟨bits w 63 59, bit w 58, bits w 57 50, bits w 49 42 + 1, bits w 41 37, bits w 36 32, bits w 31 0, w⟩

/-- Columns per vector, 0 for the reserved code (R138). -/
def SeqOp.kcols (o : SeqOp) : Nat := match bits o.param 1 0 with | 0 => 1 | 1 => 2 | 2 => 4 | _ => 0

/-- SBASE, WFIRST, or the count field of SMAX. -/
def SeqOp.base (o : SeqOp) : Nat := bits o.param 15 8

/-- Vectors of a vector operation. -/
def SeqOp.vectors (o : SeqOp) : Nat := if o.kcols = 0 then 0 else o.rows * ((o.colLast + 1) / o.kcols)

/-- The named fields of a descriptor (R136). -/
structure Desc where
  bytes : List Byte
  deriving DecidableEq, Repr

namespace Desc

def ctrl (d : Desc) : Nat := field d.bytes 0x02 1
def tag (d : Desc) : Nat := field d.bytes 0x00 2
def ret (d : Desc) : Nat := bits d.ctrl 6 4
def load (d : Desc) : Bool := bit d.ctrl 3
def inline (d : Desc) : Bool := bit d.ctrl 2
def notify (d : Desc) : Bool := bit d.ctrl 1
def cont (d : Desc) : Bool := bit d.ctrl 0
def latFmt (d : Desc) : Nat := bits (field d.bytes 0x03 1) 7 4
def colFmt (d : Desc) : Nat := bits (field d.bytes 0x03 1) 3 0
def mask (d : Desc) : Nat := field d.bytes 0x04 1
def maskSeg (d : Desc) : Bool := bit d.mask 1
def maskPos (d : Desc) : Bool := bit d.mask 0
def qseg (d : Desc) : Nat := field d.bytes 0x05 1
def toMem (d : Desc) : Bool := bit (field d.bytes 0x06 1) 0
def bank (d : Desc) : BankId := descBank d.bytes
def row (d : Desc) : Nat := descRow d.bytes
def qpos (d : Desc) : Nat := bits (field d.bytes 0x14 4) 19 0
def kpos (d : Desc) : Nat := bits (field d.bytes 0x18 4) 19 0
def lopos (d : Desc) : Nat := bits (field d.bytes 0x1C 4) 19 0
def operand (d : Desc) : Nat := field d.bytes 0x20 8
def result (d : Desc) : Nat := field d.bytes 0x28 8

/-- A signed row offset, none at 0x8000 (R136). -/
def off (d : Desc) (at_ : Nat) : Option Int :=
  let w := field d.bytes at_ 2
  if w = 0x8000 then none else some (toSigned 16 w)
def scaleOff (d : Desc) : Option Int := d.off 0x0C
def segOff (d : Desc) : Option Int := d.off 0x0E
def rotOff (d : Desc) : Option Int := d.off 0x10
def escOff (d : Desc) : Option Int := d.off 0x12

/-- The operations. -/
def ops (d : Desc) : List SeqOp :=
  if bit d.ctrl 7 then [seqOp (field d.bytes 0x30 8), seqOp (field d.bytes 0x38 8)] else [seqOp (field d.bytes 0x30 8)]

/-- The column and latch encodings, where their codes name one (R133). -/
def col (d : Desc) : Option Enc := if d.colFmt ≤ 9 then encOf d.colFmt else none
def lat (d : Desc) : Option Enc := if d.latFmt ≤ 6 then encOf d.latFmt else none

end Desc

/-- Elements per column, blocks per row, rows per scale row, and latch elements (R133). -/
def colElems : Enc → Nat
  | .fp4 => 64
  | .e4m3 | .e5m2 | .int8 | .raw => 32
  | .bf16 | .fp16 => 16
  | .fp32 => 8
  | .k2 => 128
  | .kt => 160
  | _ => 0
def rowBlocks : Enc → Nat
  | .fp4 => 64
  | .e4m3 | .e5m2 | .int8 => 32
  | .k2 => 128
  | .kt => 64
  | _ => 0
def scaleRows : Enc → Nat
  | .fp4 => 16
  | .e4m3 | .e5m2 | .int8 => 32
  | .k2 => 8
  | .kt => 16
  | _ => 1
def latchElems : Enc → Nat
  | .fp4 => 256
  | .e4m3 | .e5m2 | .int8 => 128
  | .bf16 | .fp16 => 64
  | .fp32 => 32
  | _ => 0

/-- Operation codes (R138). -/
def opLATCH : Nat := 1
def opDOT : Nat := 2
def opMV : Nat := 3
def opSMAX : Nat := 4
def opWACC : Nat := 5
def opSACC : Nat := 6
def opCOPY : Nat := 7
def opFILL : Nat := 8
def opCMP : Nat := 9
def opTOPK : Nat := 10

/-- Vector operations, operations without rows, and operations that decode column elements. -/
def SeqOp.isVector (o : SeqOp) : Bool := [opDOT, opMV, opWACC, opCMP].contains o.op
def SeqOp.rowless (o : SeqOp) : Bool := o.op = opLATCH || o.op = opSMAX
def SeqOp.decodes (o : SeqOp) : Bool := [opDOT, opMV, opWACC, opSACC].contains o.op

/-- SACC's UNIT, HALF and LIDX (R138, R141). -/
def SeqOp.unit (o : SeqOp) : Bool := bit o.param 8
def SeqOp.half (o : SeqOp) : Nat := bits o.param 9 9
def SeqOp.lidx (o : SeqOp) : Nat := bits o.param 7 0

/-- Whether the operation reads the latch (R145, precedence 7). -/
def SeqOp.readsLatch (o : SeqOp) : Bool :=
  [opDOT, opMV, opFILL, opCMP].contains o.op || (o.op = opSACC && !o.unit)

/-- The row offsets of the operation's range. -/
def SeqOp.offsets (o : SeqOp) : List Nat := (List.range o.rows).map (o.rowFirst + ·)

/-- COPY's signed destination offset (R141). -/
def SeqOp.dest (o : SeqOp) : Int := toSigned 16 (bits o.param 15 0)

/-- The bits of PARAM that an operation defines (R138). -/
def paramMask (op : Nat) : Nat :=
  if op = opLATCH ∨ op = opSMAX ∨ op = opCOPY then 0xFFFF
  else if op = opDOT ∨ op = opMV ∨ op = opWACC then 0xFF03
  else if op = opSACC then 0x3FF
  else if op = opCMP then 0x3
  else if op = opTOPK then 0xFFFFFFFF
  else 0

/-- The latch blocks that a sequence loads: block 0 at the start, and those that LATCH names. -/
def Desc.blocks (d : Desc) : List Nat :=
  (if d.load || d.inline then [0] else []) ++ (d.ops.filter (·.op = opLATCH)).map fun o => bits o.param 15 0

/-- Whether LATFMT is used (R145). -/
def Desc.latchUsed (d : Desc) : Bool := d.load || d.inline || d.ops.any fun o => o.op = opLATCH || o.readsLatch

/-- Whether COLFMT is used (R145). -/
def Desc.colUsed (d : Desc) : Bool := d.ops.any fun o => o.decodes || o.op = opTOPK

/-- Whether OPERAND_ADDR is used (R145). -/
def Desc.operandUsed (d : Desc) : Bool := !d.inline && (d.load || d.ops.any (·.op = opLATCH))

/-- The rows, as offsets from the base row, that a sequence names (R137) (DESIGN CHOICE log 17). -/
def Desc.rowOffsets (d : Desc) : List Int :=
  let seg := if d.maskSeg then d.segOff.toList else []
  let esc := d.escOff.toList
  seg ++ esc ++ d.ops.flatMap fun o =>
    if o.rowless ∨ 10 < o.op ∨ o.op = 0 then []
    else
      let rows := o.offsets.map fun (r : Nat) => (r : Int)
      let dest := if o.op = opCOPY then rows.map (· + o.dest) else []
      let scale := match d.col, d.scaleOff with
        | some c, some k => if o.decodes && c.blocked then o.offsets.map fun r => k + (r / scaleRows c : Nat) else []
        | _, _ => []
      let rot := match d.rotOff with
        | some k => if o.op = opDOT && o.x && o.vectors ≠ 0 then
            (List.range ((o.base + o.vectors - 1) / 2 - o.base / 2 + 1)).map fun i => k + (o.base / 2 + i : Nat)
          else []
        | none => []
      rows ++ dest ++ scale ++ rot

/-- The rows that a sequence touches, each once. -/
def Desc.rows (d : Desc) : List Nat := ((d.rowOffsets.map fun k => ((d.row : Int) + k).toNat)).eraseDups

/-- Whether a sequence writes rows. -/
def Desc.writesRows (d : Desc) : Bool := d.ops.any fun o => o.op = opCOPY || o.op = opFILL

/-! ### The checks of R145 -/

/-- The scratchpad of an absent core lies at an address (R46, R145 precedence 2). -/
def State.absentPad (s : State) (a : Nat) : Bool :=
  decide (0x200000000000 ≤ a ∧ a < 0x200200000000) &&
    (let o := (a - 0x200000000000) % 2 ^ 30
     decide (o < 0x20000000) && !s.corePresent ((a - 0x200000000000) / 2 ^ 30) (o / 0x800000))

/-- Precedence 3: reserved codes and bits, misaligned addresses, and a second operation that CTRL does not announce. -/
def Desc.reservedBad (d : Desc) : Bool :=
  decide (5 < d.ret ∨ 4 ≤ d.mask ∨ 2 ≤ field d.bytes 0x06 1 ∨ field d.bytes 0x07 1 ≠ 0) ||
    decide (2 ^ 20 ≤ field d.bytes 0x14 4 ∨ 2 ^ 20 ≤ field d.bytes 0x18 4 ∨ 2 ^ 20 ≤ field d.bytes 0x1C 4) ||
    (!bit d.ctrl 7 && decide (field d.bytes 0x38 8 ≠ 0)) ||
    (d.colUsed && d.col.isNone) || (d.latchUsed && d.lat.isNone) ||
    (d.toMem && decide (d.result % 64 ≠ 0)) || (d.operandUsed && decide (d.operand % 256 ≠ 0)) ||
    d.ops.any fun o =>
      decide (o.op = 0 ∨ 10 < o.op ∨ o.param &&& paramMask o.op ≠ o.param) ||
        (o.x && o.op ≠ opDOT && o.op ≠ opWACC) || (o.rowless && decide (bits o.word 57 32 ≠ 0)) ||
        (o.isVector && decide (o.kcols = 0))

/-- The elements of one vector of an operation. -/
def SeqOp.vecElems (o : SeqOp) (c : Enc) : Nat := o.kcols * colElems c

/-- Whether DOT and MV accept the pair of formats (R135). -/
def pairOk (c l : Enc) : Bool :=
  match c with
  | .fp4 | .k2 | .kt => l = .fp4
  | .e4m3 | .e5m2 | .int8 => l = .e4m3 || l = .e5m2 || l = .int8
  | .bf16 | .fp16 => l = .bf16 || l = .fp16
  | .fp32 => l = .fp32
  | _ => false

/-- Precedence 4: formats and vector lengths (R135, R139 to R142). -/
def Desc.formatsOk (d : Desc) : Bool :=
  d.ops.all fun o =>
    match d.col with
    | none => !(o.decodes || o.op = opTOPK)
    | some c =>
      if o.op = opDOT ∨ o.op = opMV then
        (match d.lat with
         | some l => pairOk c l && decide (o.vecElems c ≤ latchElems l)
         | none => false) &&
          (!(o.op = opDOT && o.x) || decide (o.vecElems c ≤ 128 ∧ o.vecElems c % 2 = 0))
      else if o.op = opWACC then !(c = .k2 || c = .kt || c = .raw)
      else if o.op = opSACC then [Enc.bf16, .fp16, .fp32, .e4m3, .e5m2, .int8].contains c
      else if o.op = opTOPK then [Enc.bf16, .fp16, .fp32].contains c
      else true

/-- Precedence 5: rows of the bank, and latch and score indices. -/
def Desc.indicesOk (d : Desc) : Bool :=
  (d.rowOffsets.all fun k => decide (0 ≤ (d.row : Int) + k ∧ (d.row : Int) + k < 0x18000)) &&
    d.ops.all fun o =>
      if o.op = opDOT ∨ o.op = opMV ∨ o.op = opWACC then decide (o.base + o.vectors ≤ 256)
      else if o.op = opSMAX then decide (bits o.param 7 0 + o.base + 1 ≤ 256)
      else if o.op = opSACC ∧ o.unit = false then
        (match d.lat with | some l => decide (o.lidx + o.rows ≤ latchElems l) | none => false)
      else true

/-- Precedence 6: columns. -/
def Desc.columnsOk (d : Desc) : Bool :=
  d.ops.all fun o =>
    o.rowless || (decide (o.colFirst + o.colLast ≤ 31) &&
      (!o.isVector || decide (o.colFirst % o.kcols = 0 ∧ (o.colLast + 1) % o.kcols = 0)) &&
      (o.op ≠ opCOPY || decide (o.colFirst = 0 ∧ o.colLast = 31)))

/-- Whether every operation that reads the latch finds it filled. -/
def latchFilled : Bool → List SeqOp → Bool
  | _, [] => true
  | f, o :: os => (f || !o.readsLatch) && latchFilled (f || o.op = opLATCH) os

/-- Precedence 7: a row or operand that the descriptor does not provide. `held` says whether a CONT predecessor filled the latch. -/
def Desc.provided (d : Desc) (held : Bool) : Bool :=
  (!d.maskSeg || d.segOff.isSome) &&
    (d.ops.all fun o =>
      (!(o.decodes && (match d.col with | some c => c.blocked | none => false)) || d.scaleOff.isSome) &&
        (!(o.op = opDOT && o.x) || d.rotOff.isSome)) &&
    latchFilled (d.load || d.inline || held) d.ops

/-- Precedence 9: OLEN above 128 or changing, from the OLEN that a CONT predecessor left (R140). -/
def Desc.olenOk (d : Desc) (olen : Nat) : Bool :=
  let ns := (d.ops.filter (·.op = opWACC)).map fun o => match d.col with | some c => o.vecElems c | none => 0
  ns.all fun n => decide (n ≤ 128) && (olen = 0 || olen = n) && ns.all (· = n)

/-- The most result lines that the sequence writes (R143, R144). -/
def Desc.maxWords (d : Desc) (high olen : Nat) : Nat :=
  match d.ret with
  | 1 => 16
  | 2 => (d.ops.map fun o => if o.op = opDOT ∨ o.op = opMV then o.base + o.vectors else 0).foldl max high
  | 3 => 2 + (d.ops.map fun o => if o.op = opWACC then (match d.col with | some c => o.vecElems c | none => 0) else 0).foldl max olen
  | 4 => 3
  | 5 => 129
  | _ => 0

/-- The used address ranges of a sequence, as (address, bytes) (DESIGN CHOICE log 64). -/
def Desc.spans (d : Desc) (high olen : Nat) : List (Nat × Nat) :=
  (if d.inline then [] else d.blocks.eraseDups.map fun k => (d.operand + 256 * k, 256)) ++
    (if d.toMem then [(d.result, 64 * max 1 ((d.maxWords high olen + 15) / 16))] else [])

/-- The die of a host's sequence windows through which the issuer came, if it is a host. -/
def hostOf : Agent → Option Nat
  | .host p _ => some p
  | _ => none

/-- The placed address of a row of a descriptor's bank. -/
def Desc.rowAddr (d : Desc) (r : Nat) : Nat := placedAddr d.bank.stk d.bank.die d.bank.bank r 0

/-- The placed addresses of the lines of the rows that a sequence touches. -/
def Desc.rowLines (d : Desc) : List Nat := d.rows.flatMap fun r => (List.range 16).map fun i => d.rowAddr r + 64 * i

/-- The arithmetic unit's state at the start of a sequence (R131). -/
def freshBau (owner : Agent) (xfer : Option Nat) : Bau :=
  ⟨owner, xfer, 0, false, none, List.replicate 16 0, [], 0, negInf32, 0, List.replicate 128 0, 0, [], [], [], [], none, 0, []⟩

/-- The state that a CONT descriptor of a BSEQ transfer of `src` continues, if the transfer's descriptor before it kept its bank for it
(R131, R152) (DESIGN CHOICE log 36). -/
def State.contBau (s : State) (src : Agent) (xfer : Option Nat) (d : Desc) : Option Bau :=
  match mfind s.baus (bankKey d.bank) with
  | some b => if b.kept && decide (b.owner = src ∧ b.xfer = xfer) && xfer.isSome then some b else none
  | none => none

/-- The first of the conditions of R145, from precedence 2 on, that a descriptor meets, as (status, reason). `slot` is the die and slot of
a host's descriptor, `xfer` the BSEQ transfer of an engine's. -/
def State.seqCheck (s : State) (src : Agent) (slot : Option (Nat × Nat)) (xfer : Option Nat) (d : Desc) : Option (Nat × Nat) :=
  let prev := if d.cont then s.contBau src xfer d else none
  let high := (prev.map (·.high)).getD 0
  let olen := (prev.map (·.olen)).getD 0
  let host := hostOf src
  let used := (if d.operandUsed then [d.operand] else []) ++ (if d.toMem then [d.result] else [])
  if used.any s.absentPad then some (1, 0x0030)
  else if d.reservedBad || (match prev with | some b => decide (16 ≤ b.chain) | none => false) then some (3, 0x0002)
  else if !d.formatsOk then some (3, 0x0003)
  else if !d.indicesOk then some (3, 0x0004)
  else if !d.columnsOk then some (3, 0x0005)
  else if !d.provided (match prev with | some b => b.latch.isSome | none => false) then some (3, 0x000B)
  else if (match d.escOff with
      | some k => decide ((match d.col with | some .kt => 8 | _ => 16) <
          Config.escapeCount (s.readBytes (d.rowAddr ((d.row : Int) + k).toNat) 1024))
      | none => false) then some (3, 0x0006)
  else if !d.olenOk olen then some (3, 0x0007)
  else if (d.spans high olen).any (fun x => !s.reachable src x.1 x.2) ||
      (match host with | some p => d.rows.any fun r => !s.inWindow p (d.rowAddr r) | none => false) then some (3, 0x0008)
  else if host.isSome && (d.cont || d.inline || (match slot with | some (die, _) => decide (d.bank.stk / 4 ≠ die) | none => false)) then
    some (3, 0x0009)
  else if d.cont && prev.isNone then some (3, 0x000A)
  else if d.rowLines.any fun p => (s.hostBiasPort p).isSome then some (5, 0x0010)
  else if (s.stack d.bank.stk).stopped || !(s.stack d.bank.stk).cleared then some (2, 0x0011)
  else none

/-! ### Arithmetic -/

/-- A sequence as it runs: the memory it works on, the unit's state, the columns read so far with the last one's placed address, and what
it has found (R130, R142, R143). It stops at its column number `limit`, or at the first of the row at `badRow`, where that one fails.
`stop` holds the reason of a POISON (R146). -/
structure BauRun where
  s : State
  bau : Bau
  limit : Option Nat
  badRow : Option Nat
  steps : Nat
  last : Nat
  cmpEq : Nat
  cmpFirst : Nat
  cmpCount : Nat
  found : Nat
  cands : List (Nat × Nat)
  nan : Bool
  soft : Bool
  ovf : Nat
  stop : Option Nat

/-- The run without more work once it has stopped. -/
def BauRun.andThen (r : BauRun) (f : BauRun → BauRun) : BauRun := if r.stop.isSome then r else f r

/-- `n` bytes of a row of the bank. -/
def BauRun.rowBytes (r : BauRun) (d : Desc) (off : Int) (byte n : Nat) : List Byte :=
  (List.range n).map fun i => r.s.byteAt (.mem (d.rowAddr ((d.row : Int) + off).toNat + byte + i))

/-- The columns of [c, c + n) of a row read up to the first that fails: a poisoned line, a column that cannot be recovered, or a
residue or combining fault in its row (R146). What it answers says how many were read. -/
def BauRun.reads (r : BauRun) (d : Desc) (off : Int) (c n : Nat) : Nat × BauRun :=
  let row := d.rowAddr ((d.row : Int) + off).toNat
  let a := row + 32 * c
  if n = 0 then (0, r)
  else if r.badRow = some row then (0, { r with last := a, stop := some 0x0021 })
  else
    match (List.range n).find? fun i => r.s.linePoisoned (a + 32 * i) || decide (r.limit = some (r.steps + i)) with
    | some i => (i, { r with steps := r.steps + i, last := a + 32 * i, stop := some 0x0020 })
    | none => (n, { r with
        steps := r.steps + n
        last := a + 32 * (n - 1)
        bau := { r.bau with column := r.rowBytes d off (32 * (c + n - 1)) 32 } })

/-- A read of columns [c, c + n) of a row (DESIGN CHOICE log 63). -/
def BauRun.touch (r : BauRun) (d : Desc) (off : Int) (c n : Nat) : BauRun := (r.reads d off c n).2

/-- Bytes written to a row from `byte` on (R61, R141). -/
def BauRun.writeRow (r : BauRun) (d : Desc) (off : Int) (byte : Nat) (data : List Byte) : BauRun :=
  { r with s := r.s.writeBytes (d.rowAddr ((d.row : Int) + off).toNat + byte) data }

/-- The 256-byte form of an operand block. -/
def latchBlock (b : List Byte) : List Byte := padTo 256 0 b

/-- Operand block `k` (R136, R152): inline, or at OPERAND_ADDR, whose poisoned lines stop the sequence. -/
def BauRun.loadLatch (r : BauRun) (d : Desc) (inline : List Byte) (k : Nat) : BauRun :=
  if d.inline then { r with bau := { r.bau with latch := some (latchBlock ((inline.drop (256 * k)).take 256)) } }
  else
    let a := d.operand + 256 * k
    if r.s.anyPoison a 256 then { r with stop := some 0x0020 }
    else { r with bau := { r.bau with latch := some (r.s.readBytes a 256) } }

/-- The latch's elements (R133). -/
def BauRun.latchVals (r : BauRun) (d : Desc) : List Elem :=
  match d.lat, r.bau.latch with
  | some c, some b => c.elems b (b.drop 128) 0 (latchElems c)
  | _, _ => []

/-- The encodings that may have escapes (R114, R261). -/
def escapable (c : Enc) : Bool := c = .fp4 || c = .k2 || c = .kt

/-- The index of the escape entry of block `b` of a sequence's rows, where it is escaped (R113, R114): BASE and the escaped blocks below it
in its bitmap word (DESIGN CHOICE log 17). -/
def bauEscape (area : List Byte) (b : Nat) : Option Nat :=
  let w := Config.escapeWord area (b / 64)
  if bit w (b % 64) then some (bits w 95 64 + popCount (b % 64) (bits w 63 0 % 2 ^ (b % 64))) else none

/-- The elements of block `j` of the row at offset `o`: its escape entry where it is escaped, NaN where the index lies beyond the area's
entries (R114, R115), or its own bytes and scale (R134) (DESIGN CHOICE log 17). -/
def BauRun.blockVals (r : BauRun) (d : Desc) (c : Enc) (o j : Nat) (data : List Byte) : List Elem :=
  let kt := decide (c = .kt)
  let own := fun (_ : Unit) =>
    let sc := match d.scaleOff with
      | some k => r.rowBytes d (k + (o / scaleRows c : Nat)) (o % scaleRows c * rowBlocks c + j) 1
      | none => []
    c.elems data sc j c.block
  match if d.escOff.isSome && escapable c then bauEscape r.bau.escapes (o * rowBlocks c + j) else none with
  | none => own ()
  | some i =>
    let size := if kt then 128 else 64
    if i < Config.escapeCount r.bau.escapes ∧ (i + 1) * size ≤ 1024 then
      escapeElems kt ((r.bau.escapes.drop (i * size)).take size) j
    else nanElems kt j

/-- The elements of `n` columns from column `c0` of the row at offset `o` (R133). -/
def BauRun.colVals (r : BauRun) (d : Desc) (c : Enc) (o c0 n : Nat) : List Elem :=
  if c.blocked then
    let per := colElems c / c.block
    let size := 32 / per
    (List.range (n * per)).flatMap fun t => r.blockVals d c o (c0 * per + t) (r.rowBytes d o (32 * c0 + size * t) size)
  else c.elems (r.rowBytes d o (32 * c0) (32 * n)) [] 0 (n * colElems c)

/-- The scale row of a row, loaded whole: a poisoned line of it stops the sequence (R146, R149). -/
def BauRun.scaleRow (r : BauRun) (d : Desc) (o : Nat) : BauRun :=
  match d.col, d.scaleOff with
  | some c, some k =>
    if c.blocked then
      let off := k + (o / scaleRows c : Nat)
      (r.touch d off 0 32).andThen fun r => { r with bau := { r.bau with scale := r.rowBytes d off 0 1024 } }
    else r
  | _, _ => r

/-- Whether score entry `i` is masked (R139). -/
def BauRun.masked (r : BauRun) (d : Desc) (i : Nat) : Bool :=
  (d.maskPos && !decide (d.lopos ≤ d.kpos + i ∧ d.kpos + i ≤ d.qpos)) ||
    (d.maskSeg && decide ((r.bau.segments[i]?.getD 0).toNat ≠ d.qseg))

/-- A score entry written. -/
def BauRun.setScore (r : BauRun) (i w : Nat) : BauRun :=
  { r with bau := { r.bau with score := mput r.bau.score i w, high := max r.bau.high (i + 1) } }

/-- A key rotated for score entry `i` (R139): each step in FP32. -/
def BauRun.rotate (r : BauRun) (d : Desc) (i : Nat) (vs : List Elem) : List Elem × BauRun :=
  match d.rotOff with
  | none => (vs, r)
  | some k =>
    let off := k + (i / 2 : Nat)
    let r := r.touch d off (16 * (i % 2)) 16
    let t := r.rowBytes d off (512 * (i % 2)) 512
    let ks := vs.map fun e => to32 e.num
    let h := ks.length / 2
    let at_ := fun (j : Nat) => ks[j]?.getD 0
    let cos := fun (j : Nat) => field t (4 * j) 4
    let sin := fun (j : Nat) => field t (256 + 4 * j) 4
    let lo := (List.range h).map fun j => f32Sub (f32Mul (at_ j) (cos j)) (f32Mul (at_ (j + h)) (sin j))
    let hi := (List.range h).map fun j => f32Add (f32Mul (at_ (j + h)) (cos j)) (f32Mul (at_ j) (sin j))
    ((lo ++ hi).map fun w => ⟨f32 w, 0, .one⟩, r)

/-- The max-exp-sum update over entries F to F + N − 1 (R140). -/
def BauRun.smax (r : BauRun) (f n : Nat) : BauRun :=
  let r := { r with soft := true }
  let ents := (List.range n).filterMap fun i => (mfind r.bau.score (f + i)).map fun w => (f + i, w)
  let m := ents.foldl (fun m e => f32Max m e.2) r.bau.m
  if m = negInf32 then r
  else
    let a := f32Exp 0 (f32Sub r.bau.m m)
    let ws := ents.map fun e => (e.1, f32Exp 0 (f32Sub e.2 m))
    let b := r.bau
    { r with bau := { b with
        m := m
        l := ws.foldl (fun l e => f32Add l e.2) (f32Mul a b.l)
        o := b.o.map (f32Mul a)
        score := ws.foldl (fun sc e => mput sc e.1 e.2) b.score } }

/-- The exact sum of the last group of a vector's products, as sign, magnitude and exponent (R106, R107, R130). -/
def lastGroup (ps : List (Elem × Elem)) : Option (Bool × Nat × Int) :=
  match ps.getLast? with
  | none => none
  | some (x, y) =>
    match (ps.filter fun p => decide (p.1.blk = x.blk ∧ p.2.blk = y.blk)).foldl (fun (a : Num) p => a.add (p.1.v.mul p.2.v)) .zero with
    | .fin s m e => some (s, m, e)
    | _ => none

/-- One vector of DOT, MV or WACC (R138 to R140): row offset `o`, first column `c0`, entry `i` (DESIGN CHOICE log 63). -/
def BauRun.vector (r : BauRun) (d : Desc) (c : Enc) (op : SeqOp) (o c0 i : Nat) : BauRun :=
  r.andThen fun r =>
    (r.touch d o c0 op.kcols).andThen fun r =>
      if op.op = opDOT ∧ r.masked d i then r
      else if op.op = opWACC then
        (match mfind r.bau.score i with
         | none => r
         | some w =>
           let vs := r.colVals d c o c0 op.kcols
           let rs := (r.bau.o.take r.bau.olen).zip vs |>.map fun x =>
             (Acc.start x.1).add c.blocked (((f32 w).mul x.2.v).mul x.2.scale)
           { r with
             bau := { r.bau with o := rs.map (·.w) ++ r.bau.o.drop r.bau.olen }
             ovf := r.ovf + (rs.map (·.ovf)).sum })
      else
        let vs := r.colVals d c o c0 op.kcols
        let rot := op.op = opDOT && op.x
        let (vs, r) := if rot then r.rotate d i vs else (vs, r)
        r.andThen fun r =>
          let start := if op.op = opMV then (mfind r.bau.score i).getD 0 else 0
          let a := dot (c.blocked && !rot) (Acc.start start) (r.latchVals d) vs
          let r := r.setScore i a.w
          let g := if c.blocked && !rot then lastGroup (vs.zip (r.latchVals d)) else none
          { r with ovf := r.ovf + a.ovf, bau := { r.bau with group := g, residue := match g with | some x => x.2.1 % 3 | none => 0 } }

/-- DOT, MV and WACC over their rows and columns (R138). -/
def BauRun.vectors (r : BauRun) (d : Desc) (c : Enc) (op : SeqOp) : BauRun :=
  let per := (op.colLast + 1) / op.kcols
  let r := if op.op = opWACC then { r with soft := true, bau := { r.bau with olen := op.vecElems c } } else r
  let r := if op.op = opWACC ∧ op.x = true then r.smax op.base op.vectors else r
  (List.range op.rows).foldl (fun r k =>
    let o := op.rowFirst + k
    (r.andThen fun r => r.scaleRow d o).andThen fun r =>
      (List.range per).foldl (fun r v => r.vector d c op o (op.colFirst + v * op.kcols) (op.base + k * per + v)) r) r

/-- SACC (R141). -/
def BauRun.sacc (r : BauRun) (d : Desc) (c : Enc) (op : SeqOp) : BauRun :=
  (List.range op.rows).foldl (fun r k =>
    let o := op.rowFirst + k
    (r.andThen fun r => r.scaleRow d o).andThen fun r =>
      let sc : Num := if op.unit then .one else match (r.latchVals d)[op.lidx + k]? with | some e => e.num | none => .zero
      (List.range (op.colLast + 1)).foldl (fun r v =>
        r.andThen fun r =>
          (r.touch d o (op.colFirst + v) 1).andThen fun r =>
            let vs := r.colVals d c o (op.colFirst + v) 1
            let vs := if c.blocked then (vs.drop (16 * op.half)).take 16 else vs
            let rs := r.bau.acc.zip vs |>.map fun x => (Acc.start x.1).add c.blocked ((sc.mul x.2.v).mul x.2.scale)
            { r with
              bau := { r.bau with acc := rs.map (·.w) ++ r.bau.acc.drop rs.length }
              ovf := r.ovf + (rs.map (·.ovf)).sum }) r) r

/-- COPY (R141): rows in descending order when the destination lies above; at a poisoned column the part before it is kept (R146). -/
def BauRun.copy (r : BauRun) (d : Desc) (op : SeqOp) : BauRun :=
  let os := if 0 < op.dest then op.offsets.reverse else op.offsets
  os.foldl (fun r o =>
    r.andThen fun r =>
      let x := r.reads d o 0 32
      x.2.writeRow d ((o : Int) + op.dest) 0 (r.rowBytes d o 0 (32 * x.1))) r

/-- FILL (R138): latch bits [255:0] to every column in range, one column step each; a step that fails ends it there (R146). -/
def BauRun.fill (r : BauRun) (d : Desc) (op : SeqOp) : BauRun :=
  let pat := (r.bau.latch.getD []).take 32
  let n := op.colLast + 1
  op.offsets.foldl (fun r (o : Nat) =>
    r.andThen fun r =>
      let row := d.rowAddr (d.row + o)
      let k := match r.limit with | some l => min n (l - r.steps) | none => n
      let r := r.writeRow d (o : Int) (32 * op.colFirst) ((List.replicate (if r.badRow = some row then 0 else k) pat).flatten)
      if r.badRow = some row then { r with last := row + 32 * op.colFirst, stop := some 0x0021 }
      else if k < n then { r with steps := r.steps + k, last := row + 32 * (op.colFirst + k), stop := some 0x0020 }
      else { r with steps := r.steps + n, last := row + 32 * op.colLast }) r

/-- CMP (R138, R143) (DESIGN CHOICE log 62). -/
def BauRun.cmp (r : BauRun) (d : Desc) (op : SeqOp) : BauRun :=
  let pat := (r.bau.latch.getD []).take (32 * op.kcols)
  let per := (op.colLast + 1) / op.kcols
  (List.range op.rows).foldl (fun r k =>
    (List.range per).foldl (fun r v =>
      r.andThen fun r =>
        let o := op.rowFirst + k
        let c := op.colFirst + v * op.kcols
        (r.touch d o c op.kcols).andThen fun r =>
          let eq := decide (r.rowBytes d o (32 * c) (32 * op.kcols) = pat)
          { r with
            cmpCount := r.cmpCount + 1
            cmpEq := if eq then r.cmpEq + 1 else r.cmpEq
            cmpFirst := if !eq && r.cmpFirst = 0xFFFFFFFF then k * per + v else r.cmpFirst }) r) r

/-- TOPK (R142) (DESIGN CHOICE log 62). -/
def BauRun.topk (r : BauRun) (d : Desc) (c : Enc) (op : SeqOp) : BauRun :=
  let n := colElems c
  (List.range op.rows).foldl (fun r k =>
    (List.range (op.colLast + 1)).foldl (fun r v =>
      r.andThen fun r =>
        let o := op.rowFirst + k
        (r.touch d o (op.colFirst + v) 1).andThen fun r =>
          (r.colVals d c o (op.colFirst + v) 1).zipIdx.foldl (fun r ei =>
            let x := ei.1.v
            if x.isNan then { r with nan := true }
            else if (f32 op.param).le x then
              { r with
                found := r.found + 1
                cands := if r.cands.length < 64 then r.cands ++ [((k * (op.colLast + 1) + v) * n + ei.2, to32 x)] else r.cands }
            else r) r) r) r

/-- One operation (R138). -/
def BauRun.op (r : BauRun) (d : Desc) (inline : List Byte) (op : SeqOp) : BauRun :=
  r.andThen fun r =>
    if op.op = opLATCH then r.loadLatch d inline (bits op.param 15 0)
    else if op.op = opSMAX then r.smax (bits op.param 7 0) (op.base + 1)
    else if op.op = opCOPY then r.copy d op
    else if op.op = opFILL then r.fill d op
    else if op.op = opCMP then r.cmp d op
    else match d.col with
      | none => r
      | some c =>
        if op.op = opSACC then r.sacc d c op
        else if op.op = opTOPK then r.topk d c op
        else r.vectors d c op

/-- The result stream (R143). -/
def BauRun.stream (r : BauRun) (d : Desc) : List Nat :=
  match d.ret with
  | 1 => r.bau.acc
  | 2 => (List.range r.bau.high).map fun i => mget negInf32 r.bau.score i
  | 3 => [r.bau.m, r.bau.l] ++ r.bau.o.take r.bau.olen
  | 4 => [r.cmpEq, r.cmpFirst, r.cmpCount]
  | 5 => r.found :: r.cands.flatMap fun c => [c.1, c.2]
  | _ => []

/-- The words of a stream that are NaN results (R129, R132). -/
def nanWords (d : Desc) (ws : List Nat) : Nat := if 1 ≤ d.ret ∧ d.ret ≤ 3 then (ws.filter f32IsNan).length else 0

/-- A sequence run from step 5 to step 7 of R148: buffers and latch, each operation, the stream. A `limit` or `badRow` ends it at a column
that fails. -/
def runBau (s : State) (d : Desc) (inline : List Byte) (bau : Bau) (limit badRow : Option Nat) : BauRun :=
  let r : BauRun := ⟨s, bau, limit, badRow, 0, d.rowAddr d.row, 0, 0xFFFFFFFF, 0, 0, [], false, false, 0, none⟩
  let r := match d.escOff with
    | some k => (r.touch d k 0 32).andThen fun r => { r with bau := { r.bau with escapes := r.rowBytes d k 0 1024 } }
    | none => r
  let r := r.andThen fun r => match d.maskSeg, d.segOff with
    | true, some k => (r.touch d k 0 8).andThen fun r => { r with bau := { r.bau with segments := r.rowBytes d k 0 256 } }
    | _, _ => r
  let r := r.andThen fun r => if d.inline || d.load then r.loadLatch d inline 0 else r
  d.ops.foldl (fun r o => r.op d inline o) r

end Sys2Proof.Machine
end

