-- ==== Sys2Proof/Machine/SeqOps.lean ====
section
/-! DEFINITION. How the stack controller accepts, grants, runs and finishes bank sequences (R144 to R159). -/

set_option Elab.async false

namespace Sys2Proof.Machine

open Sys2Proof

/-- The descriptor of a sequence. -/
def SeqJob.d (j : SeqJob) : Desc := ⟨j.desc⟩

/-- The source of a sequence for R150: 0 attention sequencers, 1 cores, 2 hosts. -/
def seqSource : Agent → Nat
  | .host _ _ => 2
  | .aseq _ _ => 0
  | _ => 1

/-- The state with the sequence `id` replaced by its image. -/
def State.onSeq (s : State) (id : Nat) (f : SeqJob → SeqJob) : State :=
  { s with seqs := s.seqs.map fun j => if j.id = id then f j else j }

/-- The sequence with an identity. -/
def State.seqOf (s : State) (id : Nat) : Option SeqJob := s.seqs.find? fun j => j.id = id

/-- The host requests that a sequence still needs before it may run (R54, R56): lines of its rows that a host holds modified or
exclusive, or at all where the sequence writes rows, and lines of its operand blocks. -/
def State.seqNeeds (s : State) (src : Agent) (d : Desc) : List Snoop :=
  (d.rowLines.flatMap fun p => (s.holders (p / 64) d.writesRows none).map fun q => (⟨q, p / 64, .backInvalidate⟩ : Snoop)) ++
    if d.inline then []
    else d.blocks.eraseDups.flatMap fun k => (s.memLines (d.operand + 256 * k) 256).flatMap fun p => s.needs src p false

/-- A request that reaches a stack before EV 0x7 ends its entry into self-refresh (R84, R85). A stack that stays told to sleep waits anew. -/
def State.sleepInterrupted (s : State) (stk : Nat) : State :=
  let st := s.stack stk
  let sr := match st.sr with
    | .waiting => if decide (s.power.mode = .ready) && !st.stopped then SrPhase.awake else .waiting
    | .commanded => if decide (s.power.mode = .ready) && !st.stopped then .awake else .waiting
    | x => x
  if sr = st.sr then s else s.setStack stk { st with sr := sr }

/-- A sequence that reaches a stack keeps it awake (R85), and in Dormant it is work that wakes the module (R494, R496). -/
def State.seqArrives (s : State) (stk : Nat) : State :=
  let s := s.sleepInterrupted stk
  if s.power.mode = .enteringDormant ∨ s.power.mode = .dormant then s.onPower fun p => { p with heldWork := true } else s

/-- Whether a chain of a transfer stands between two descriptors at a bank. -/
def Bau.chainOf (b : Bau) (src : Agent) (xfer : Option Nat) : Bool := b.kept && decide (b.owner = src ∧ b.xfer = xfer)

/-- The chains of a transfer ended: their units are reset and their banks, with the tokens, given back (R131, R152). -/
def State.endChains (s : State) (p : Bau → Bool) : State :=
  let banks := (s.baus.filter fun kb => p kb.2).map fun kb => keyBank kb.1
  banks.foldl (fun s b => s.drive b (s.bank b)) { s with baus := s.baus.filter fun kb => !p kb.2 }

/-- The place of a sequence in its bank's queue (R73, R148 step 1). -/
def SeqJob.request (j : SeqJob) : BankReq := ⟨j.d.row, 0, 0, false, 2, j.time, false, some j.id⟩

/-- A sequence accepted (R148 steps 1 to 3): checked, and either complete with the first condition of R145 that it meets, or in its bank's
queue, waiting for a token with its recalls under way. A descriptor that continues a chain takes over the token and the bank of its
predecessor (R152); one that does not, or that fails, ends the chain. -/
def State.acceptSeq (s : State) (src : Agent) (desc inline : List Byte) (slot : Option (Nat × Nat)) (xfer : Option Nat) (keep : Bool) : State :=
  let d : Desc := ⟨padTo 64 0 desc⟩
  let bad := s.seqCheck src slot xfer d
  let goesOn := bad.isNone && d.cont
  let j : SeqJob := {
    id := s.seqNext
    src := src
    desc := d.bytes
    inline := inline
    slot := slot
    xfer := xfer
    time := s.time (d.bank.stk / 4)
    keep := keep
    token := goesOn
    steps := 0
    ran := bad.isSome
    status := (bad.map (·.1)).getD 0
    reason := (bad.map (·.2)).getD 0
    flags := 0
    stream := []
    taken := 0
    overrun := false }
  let s := { s with seqs := s.seqs ++ [j], seqNext := s.seqNext + 1 }
  let s := if goesOn then
      { s with baus := s.baus.map fun kb => if kb.2.chainOf src xfer && decide (kb.1 = bankKey d.bank) then (kb.1, { kb.2 with kept := false }) else kb }
    else if xfer.isSome then s.endChains fun b => b.chainOf src xfer
    else s
  match bad with
  | some _ => s
  | none =>
    let s := (s.seqArrives d.bank.stk).issueSnoops (s.seqNeeds src d)
    if goesOn then s else s.drive d.bank ((s.bank d.bank).accept j.request)

/-! ### Granting and running -/

/-- Tokens that a source holds on a stack, those of its chains between two descriptors among them. -/
def State.sourceHeld (s : State) (stk src : Nat) : Nat :=
  (s.seqs.filter fun j => j.token && decide (j.d.bank.stk = stk ∧ seqSource j.src = src)).length +
    (s.baus.filter fun kb => kb.2.kept && decide ((keyBank kb.1).stk = stk ∧ seqSource kb.2.owner = src)).length

/-- The minimum of a source (R150, R160). -/
def State.sourceMin (s : State) (stk src : Nat) : Nat :=
  s.fld (stk / 4) (stk % 4) 0
    (if src = 0 then SC_ACT_SHARE.ASEQ_MIN else if src = 1 then SC_ACT_SHARE.CORE_MIN else SC_ACT_SHARE.HOST_MIN)

/-- Whether a bank arithmetic self-test of a stack runs (R332, R447). -/
def State.bauTesting (s : State) (stk : Nat) : Bool := s.mgmt.tests.any fun t => t.unit = ⟨3, stk⟩ && !t.memory && t.started

/-- Whether reconstructed data serves a bank (R151): it is served by reconstruction, or lies on the die whose contents the parity die
holds, and no spare bank stands in for it. -/
def Stack.reconServed (st : Stack) (b : BankId) : Bool :=
  !st.spared b.die b.bank && (st.recon.contains (b.die, b.bank) || decide (st.retired = some b.die))

/-- Whether a sequence on a bank runs on one of the stack's four substitute units (R27, R151): reconstructed data serves it, or its bank
group failed its self-test (R461). -/
def Stack.substituted (st : Stack) (b : BankId) : Bool := st.reconServed b || st.substitutes.contains (b.bank / 4)

/-- Substitute units of a stack that sequences hold. -/
def State.substitutesHeld (s : State) (stk : Nat) : Nat :=
  (s.seqs.filter fun j => j.token && decide (j.d.bank.stk = stk) && (s.stack stk).substituted j.d.bank).length +
    (s.baus.filter fun kb => kb.2.kept && decide ((keyBank kb.1).stk = stk) && (s.stack stk).substituted (keyBank kb.1)).length

/-- Whether a sequence is what its bank would serve next (R73, R148 step 1). -/
def State.seqFirst (s : State) (j : SeqJob) : Bool :=
  let x := s.bank j.d.bank
  match x.first fun _ => true with
  | some n => (match x.queue[n]? with | some r => decide (r.seq = some j.id) | none => false)
  | none => false

/-- Whether a sequence could take a token now (R73, R147, R148 steps 3 and 4): its stack and bank serve, it is first in its bank's queue,
the host copies of its rows have been recalled, and a substitute unit is free where it needs one. -/
def State.seqFree (s : State) (j : SeqJob) : Bool :=
  let stk := j.d.bank.stk
  decide ((s.stack stk).sr = .awake) && !(s.stack stk).stopped && s.bankServes (agentDie j.src) j.d.bank && s.seqFirst j &&
    (s.seqNeeds j.src j.d).isEmpty && (!(s.stack stk).substituted j.d.bank || decide (s.substitutesHeld stk < 4))

/-- The request that receives the next free token of a stack (R150). -/
def State.seqPick (s : State) (stk : Nat) : Option SeqJob :=
  let q := s.seqs.filter fun j => !j.token && !j.ran && decide (j.d.bank.stk = stk) && s.seqFree j
  let old := s.fld (stk / 4) (stk % 4) 0 SC_AGE_LIMIT.BSEQ * 10
  match q.find? fun j => decide (j.time + old < s.time (stk / 4)) with
  | some j => some j
  | none =>
    match q.find? fun j => decide (s.sourceHeld stk (seqSource j.src) < s.sourceMin stk (seqSource j.src)) with
    | some j => some j
    | none => q.head?

/-- A sequence out of its bank's queue. -/
def State.unqueue (s : State) (j : SeqJob) : State :=
  let x := s.bank j.d.bank
  s.drive j.d.bank { x with queue := x.queue.filter fun r => r.seq ≠ some j.id }

/-- A token given to a sequence: it leaves its bank's queue and holds the bank, whose open row is closed (R147, R148 step 4). One whose rows
have come into a host-bias page since its checks ends as R56 says. -/
def State.giveToken (s : State) (j : SeqJob) : State :=
  if j.d.rowLines.any fun p => (s.hostBiasPort p).isSome then
    (s.onSeq j.id fun j => { j with ran := true, status := 5, reason := 0x0010 }).unqueue j
  else (s.onSeq j.id fun j => { j with token := true }).unqueue j

/-- The token event of a stack (R148, R150): a free token goes to the request that R150 picks; requests to hosts that the waiting sequences
of the stack still need are made. -/
def State.grant (s : State) (stk : Nat) : State :=
  match if s.actHeld stk < s.actEffective stk ∧ s.bauTesting stk = false then s.seqPick stk else none with
  | some j => s.giveToken j
  | none => s.issueSnoops ((s.seqs.filter fun j => !j.ran && decide (j.d.bank.stk = stk)).flatMap fun j => s.seqNeeds j.src j.d)

/-- Whether a sequence with a token may work on its bank now: the bank is quiet, no burst runs, its stack is awake, its channel whole and
the lines it needs are there (R54, R68, R69, R82, R146). -/
def State.seqRuns (s : State) (j : SeqJob) : Bool :=
  j.token && !j.ran && (s.bank j.d.bank).quiet && decide ((s.stack j.d.bank.stk).sr = .awake) && !s.channelHeld j.d.bank &&
    (s.seqNeeds j.src j.d).isEmpty

/-- Result lines of 64 bytes (R144): sixteen words each, the last filled with zeros. -/
def resultLines (ws : List Nat) : List Byte :=
  let bs := ws.flatMap (leBytes 4)
  padTo ((ws.length + 15) / 16 * 64) 0 bs

/-- Lines of a stream. -/
def lineCount (ws : List Nat) : Nat := (ws.length + 15) / 16

/-- Line `i` of a stream. -/
def resultLineAt (ws : List Nat) (i : Nat) : List Byte := ((resultLines ws).drop (64 * i)).take 64

/-- The arithmetic unit as a sequence finds it: what its chain left, or reset (R131). -/
def State.bauFor (s : State) (j : SeqJob) : Bau :=
  match if j.d.cont then mfind s.baus (bankKey j.d.bank) else none with
  | some b => { b with chain := b.chain + 1, kept := false }
  | none => { freshBau j.src j.xfer with chain := 1 }

/-- A sequence run to its end (R148 steps 5 to 7), or to the column at which `limit` or `badRow` end it with POISON (R146): the unit keeps its
state, the stream's first lines are in the FIFO, and the flags are those of R157 (DESIGN CHOICE log 36) (DESIGN CHOICE log 65). -/
def State.runSeq (s : State) (j : SeqJob) (limit badRow : Option Nat) : State :=
  let d := j.d
  let r := runBau s d j.inline (s.bauFor j) limit badRow
  let stk := d.bank.stk
  let ws := r.stream d
  let recon := 16 * flag ((s.stack stk).reconServed d.bank)
  let s := if d.inline then r.s else d.blocks.eraseDups.foldl (fun s k => s.useObtained (d.operand + 256 * k) 256) r.s
  let s := s.countFld (stk / 4) (stk % 4) 0 SC_BAU_SENT.OVERFLOW r.ovf
  match (match r.stop with | some why => some why | none => if limit.isSome then some 0x0020 else if badRow.isSome then some 0x0021 else none) with
  | some why => s.onSeq j.id fun j => { j with ran := true, status := 4, reason := why, flags := recon, stream := [] }
  | none =>
    let s := s.countFld (stk / 4) (stk % 4) 0 SC_BAU_SENT.NAN (nanWords d ws)
    let flags := flag (r.nan || decide (nanWords d ws ≠ 0)) + 2 * flag (r.soft && decide (r.bau.m = negInf32)) +
      4 * flag (!d.toMem && decide (12 < ws.length)) + recon + 32 * flag (decide (64 < r.found))
    let s := s.onSeq j.id fun j => { j with ran := true, flags := flags, stream := ws }
    { s with baus := mput s.baus (bankKey d.bank) { r.bau with fifo := (List.range (min 8 (lineCount ws))).map (resultLineAt ws) } }

/-- A sequence runs if it may; otherwise the lines that it needs are asked for. -/
def State.seqStart (s : State) (j : SeqJob) : State :=
  if s.seqRuns j then s.runSeq j none none
  else if j.token && !j.ran then s.issueSnoops (s.seqNeeds j.src j.d) else s

/-! ### Errors while a sequence runs -/

/-- The sequence that has a bank's token. -/
def State.seqAt (s : State) (b : BankId) : Option SeqJob := s.seqs.find? fun j => j.token && decide (j.d.bank = b)

/-- A column step of the sequence that holds a bank finishes, with `symbols` in error (R68, R71, R72, R146): corrected, recovered from parity,
or the end of the sequence with POISON at that column (DESIGN CHOICE log 36). -/
def State.seqColumn (s : State) (b : BankId) (symbols : Nat) : State :=
  match s.seqAt b with
  | none => s
  | some j =>
    if s.seqRuns j then
      let p := (runBau s j.d j.inline (s.bauFor j) (some j.steps) none).last
      if 1 < symbols ∧ (s.stack b.stk).recoverable b.die b.bank (rowPos p) = false then
        (s.runSeq j (some j.steps) none).columnError p symbols
      else (s.columnError p symbols).onSeq j.id fun j => { j with steps := j.steps + 1 }
    else s

/-- A residue or combining fault in the bank arithmetic of the row at a placed address (R116, R117, R146): the sequence that holds the
bank ends there with POISON (DESIGN CHOICE log 36). -/
def State.seqFault (s : State) (p : Nat) : State :=
  match s.seqAt (bankOf p) with
  | none => s
  | some j => if s.seqRuns j then s.runSeq j none (some (alignDown p 1024)) else s

/-! ### Completion -/

/-- The 64-byte result line of R157. -/
def SeqJob.resultLine (j : SeqJob) : List Byte :=
  leBytes 2 j.d.tag ++ leBytes 1 2 ++ leBytes 1 j.status ++ leBytes 2 j.reason ++ leBytes 1 (j.flags + 8 * flag j.overrun) ++
    leBytes 1 0 ++ leBytes 4 j.stream.length ++ leBytes 4 0 ++ padTo 48 0 ((j.stream.take 12).flatMap (leBytes 4))

/-- Whether a sequence writes result lines: with TOMEM, when it ran OK, and not for an attention sequencer (R144, R146, R153). -/
def SeqJob.writesResult (j : SeqJob) : Bool :=
  j.d.toMem && decide (j.status = 0 ∧ j.stream ≠ []) && decide (seqSource j.src ≠ 0)

/-- The requests to hosts that hold the result lines which a sequence writes (R53, R144). -/
def State.resultNeeds (s : State) (j : SeqJob) : List Snoop :=
  if j.writesResult then (s.memLines j.d.result (64 * lineCount j.stream)).flatMap fun p => s.needs j.src p true else []

/-- The controller takes the oldest line of the FIFO, and the unit pushes its next one (R144, R148 steps 7 and 8). -/
def State.takeLine (s : State) (j : SeqJob) : State :=
  match mfind s.baus (bankKey j.d.bank) with
  | some b =>
    (match b.fifo with
     | [] => s
     | _ :: rest =>
       let more := if j.taken + 8 < lineCount j.stream then [resultLineAt j.stream (j.taken + 8)] else []
       let s := { s with baus := mput s.baus (bankKey j.d.bank) { b with fifo := rest ++ more } }
       (s.onSeq j.id fun j => { j with taken := j.taken + 1 }).issueSnoops (s.resultNeeds j))
  | none => s

/-- Result-ready (EV 0x5) for the sequence `j`: it has run, and a line leaves the FIFO. -/
def State.resultReady (s : State) (j : SeqJob) : State :=
  let s := s.seqStart j
  match s.seqOf j.id with
  | some j => if j.ran then s.takeLine j else s
  | none => s

/-- The result lines written and acknowledged, the token and the bank returned except within a chain (R144, R147, R148 steps 8
and 9). The job is dropped from those accepted. -/
def State.endSeq (s : State) (j : SeqJob) : State :=
  let s := if j.writesResult then
      (s.writeBytes j.d.result (resultLines j.stream)).useObtained j.d.result (64 * lineCount j.stream) else s
  let s := { s with seqs := s.seqs.filter fun x => x.id ≠ j.id }
  if !j.token then s
  else if j.keep && decide (j.status = 0) then
    { s with baus := s.baus.map fun kb => if kb.1 = bankKey j.d.bank then (kb.1, { kb.2 with kept := true }) else kb }
  else
    let s := { s with baus := mdel s.baus (bankKey j.d.bank) }
    s.drive j.d.bank (s.bank j.d.bank)

/-- Whether a sequence may complete: it has run, no burst keeps its bank, the controller has taken every result line, and those that it
writes can be written now. -/
def State.seqEnds (s : State) (j : SeqJob) : Bool :=
  j.ran && (!j.token || decide ((s.bank j.d.bank).burst = 0)) && decide (lineCount j.stream ≤ j.taken) && (s.resultNeeds j).isEmpty &&
    (!j.writesResult || (s.memLines j.d.result (64 * lineCount j.stream)).all fun p =>
      decide (bankOf p = j.d.bank) || s.bankServes (agentDie j.src) (bankOf p))

/-! ### Sequence windows (R154 to R159) -/

/-- A slot that nothing has used since module reset (R156; the line reads zeros, DESIGN CHOICE log 9). -/
def freshSlot : SeqSlot := ⟨0, List.replicate 64 0⟩

/-- A slot. -/
def State.slot (s : State) (d n : Nat) : SeqSlot := mget freshSlot s.slots (d * 4096 + n)

/-- The state with a slot replaced. -/
def State.setSlot (s : State) (d n : Nat) (x : SeqSlot) : State := { s with slots := mput s.slots (d * 4096 + n) x }

/-- The range of a die that covers a slot, if one is enabled for it (R155, R161). -/
def State.slotRange (s : State) (d n : Nat) : Option Nat :=
  (List.range 8).find? fun i =>
    decide (s.fld d 0 i SEQW_RANGE.EN = 1 ∧ s.fld d 0 i SEQW_RANGE.FIRST ≤ n ∧ n ≤ s.fld d 0 i SEQW_RANGE.LAST)

/-- Whether a port owns a slot. -/
def State.ownsSlot (s : State) (port d n : Nat) : Bool :=
  match s.slotRange d n with
  | some i => decide (s.fld d 0 i SEQW_RANGE.OWNER = port)
  | none => false

/-- The line of a slot that runs (R157). -/
def runningLine (tag : Nat) : List Byte := leBytes 2 tag ++ leBytes 1 1 ++ List.replicate 61 0

/-- The line of a slot after a malformed write (R157, R158). -/
def malformedLine : List Byte :=
  leBytes 2 0xFFFF ++ leBytes 1 2 ++ leBytes 1 3 ++ leBytes 2 1 ++ List.replicate 58 0

/-- A write to the descriptor line of a slot by its owner (R154, R156, R158) (DESIGN CHOICE log 66). -/
def State.slotWrite (s : State) (ag : Agent) (d n off : Nat) (data : List Byte) : State :=
  if (s.slot d n).state = 1 then
    { (s.countFld d 0 0 SEQW_ERR.OVERRUN 1) with
      seqs := s.seqs.map fun j => if j.slot = some (d, n) then { j with overrun := true } else j }
  else if off = 0 ∧ data.length = 64 then
    (s.setSlot d n ⟨1, runningLine (field data 0 2)⟩).acceptSeq ag data [] (some (d, n)) none false
  else (s.countFld d 0 0 SEQW_ERR.MALFORMED 1).setSlot d n ⟨2, malformedLine⟩

/-- A slot whose sequence completes becomes DONE, and its doorbell rings when NOTIFY is set (R156, R298). -/
def State.slotDone (s : State) (j : SeqJob) : State :=
  match j.slot, j.src with
  | some (d, n), .host port _ =>
    let s := s.setSlot d n ⟨2, j.resultLine⟩
    if j.d.notify then
      (match s.slotRange d n with
       | some i => s.raiseMsix port (8 * d + i)
       | none => s)
    else s
  | _, _ => s

/-- The slots of a port after a hot reset or FLR (R159): IDLE, their sequences running on without a doorbell. -/
def State.resetSlots (s : State) (port : Nat) : State :=
  { s with
    slots := s.slots.filter fun kx => !s.ownsSlot port (kx.1 / 4096) (kx.1 % 4096)
    seqs := s.seqs.map fun j => match j.slot, j.src with
      | some _, .host p _ => if p = port then { j with slot := none } else j
      | _, _ => j }

/-- An access of a port to its sequence windows (R42, R154 to R158, R398): `um` is the outcome of R42, `hold` that of waiting in Dormant. Safe
returns poisoned data and discards writes (R466). -/
def State.seqwAccess (s : State) (x : HeldAccess) (d off : Nat) (um hold : State) : State :=
  let n := off / 2 ^ 20
  let o := off % 2 ^ 20
  let len := match x.op with | .read n _ => n | .write b _ => b.length
  match x.ag with
  | .host port _ =>
    if s.power.mode = .safe then
      (match x.op with
       | .read k _ => s.answer x (.data (List.replicate k 0) (List.range ((k + 63) / 64)))
       | .write _ _ => s.answer x .done)
    else if !(decide (d < 8 ∧ n < 4096)) || !s.ownsSlot port d n || decide (0x80 < o + len) then um
    else if s.power.mode = .enteringDormant ∨ s.power.mode = .dormant then hold
    else
      match x.op with
      | .read k _ => s.answer x (.data (((List.replicate 64 0 ++ (s.slot d n).line).drop o).take k) [])
      | .write data _ => if o < 0x40 then (s.slotWrite x.ag d n o data).answer x .done else s.answer x .done
  | _ => um

end Sys2Proof.Machine
end

