-- ==== Sys2Proof/Machine/Activity.lean ====
section
/-! DEFINITION. What the whole module is doing (R493). -/

set_option Elab.async false

namespace Sys2Proof.Machine

open Sys2Proof

/-- Whether a task is LOADING or RUNNING, or a bank sequence, attention step, collective, bias flip, far-tier transfer or management
request is in progress (R493). -/
def State.workInProgress (s : State) : Bool :=
  (s.ldr.tasks.any fun t => t.state ≠ .loaded) || !s.seqs.isEmpty || !s.liveSteps.isEmpty || !s.fab.colls.isEmpty ||
    (s.ports.any fun kp => kp.2.flip.isSome) || !s.kv.farJobs.isEmpty || !s.mgmt.queue.isEmpty

end Sys2Proof.Machine
end

