-- ==== Sys2Proof/Machine/ConfigCheck.lean ====
section
/-! DEFINITION. The checks of the configuration record at boot step 3 (R437 to R439) and the rules that it may break: R58, R150,
R161, R302, R320, R341, R386, R405 and R417. -/

set_option Elab.async false

namespace Sys2Proof.Machine

open Sys2Proof

/-- The section that an entry belongs to (R437). -/
def entrySection : Entry → Nat
  | .module _ _ _ _ _ _ => 0x0001
  | .hostPort _ _ _ _ _ => 0x0002
  | .range _ _ _ => 0x0002
  | .seqw _ _ _ _ _ _ => 0x0003
  | .submitBind _ _ _ _ _ => 0x0003
  | .farTier _ _ _ _ _ => 0x0003
  | .stack _ _ _ _ _ _ _ _ => 0x0004
  | .pool _ _ _ => 0x0005
  | .kvRegion _ _ => 0x0005
  | .poolLow _ _ => 0x0005
  | .aseqCores _ _ _ => 0x0005
  | .heap _ _ => 0x0006
  | .loaderArea _ _ => 0x0006
  | .fabricPort _ _ => 0x0007
  | .systemModule _ _ _ => 0x0007
  | .route _ _ => 0x0007
  | .partitionMask _ => 0x0007
  | .caravanWindow _ _ _ => 0x0007
  | .collGroup _ => 0x0007
  | .cfTimeout _ _ _ => 0x0007
  | .cfAge _ _ => 0x0007
  | .oeCal _ _ => 0x0007
  | .laneMode _ _ _ => 0x0007
  | .mirage _ _ _ _ => 0x0008
  | .stallCfg _ _ _ => 0x0008
  | .ownerKey _ => 0x0009
  | .power _ _ _ _ => 0x000A

/-- Whether a range lies in memory addresses of one view (R41). -/
def memoryRange (base size : Nat) : Bool :=
  decide (0 < size) &&
    (decide (base + size ≤ 0x030000000000) || decide (placedBase ≤ base ∧ base + size ≤ 0x140000000000))

/-- Whether a bank is a data bank of the placed view (R64). -/
def dataBank (b : BankId) : Bool := decide (b.stk < 32 ∧ b.die < 16 ∧ b.bank < 64)

/-- The words that a stack entry places in the registers of its controller (R96, R160). -/
def stackWords (idle budget srEntry tsense age scrub share : Nat) : List (Reg × Nat) :=
  [(.SC_IDLE_TIMER, idle), (.SC_ACT_BUDGET, budget), (.SC_SR_ENTRY, srEntry), (.SC_TSENSE_PERIOD, tsense),
   (.SC_AGE_LIMIT, age), (.SC_SCRUB_PERIOD, scrub), (.SC_ACT_SHARE, share)]

/-- The minima of SC_ACT_SHARE together (R150). -/
def shareSum (share : Nat) : Nat :=
  bits share SC_ACT_SHARE.HOST_MIN.hi SC_ACT_SHARE.HOST_MIN.lo + bits share SC_ACT_SHARE.CORE_MIN.hi SC_ACT_SHARE.CORE_MIN.lo +
    bits share SC_ACT_SHARE.ASEQ_MIN.hi SC_ACT_SHARE.ASEQ_MIN.lo

/-- Whether the values of one entry lie in the ranges that their rules allow, taken alone (R439). -/
def entryLegal : Entry → Bool
  | .module number group partition faultMode restart strap =>
    decide (number < 16384 ∧ group < 1024 ∧ partition < 16 ∧ faultMode ≤ 1 ∧ restart < 65536 ∧ strap ≤ 7)
  | .hostPort port allowed regs subVendor subId =>
    decide (port < 8 ∧ allowed ≤ 3 ∧ regs ≤ 2 ∧ subVendor < 65536 ∧ subId < 65536)
  | .range port base size => decide (port < 8 ∧ base % 0x10000000 = 0 ∧ size % 0x10000000 = 0) && memoryRange base size
  | .seqw d n en owner first last =>
    decide (d < 8 ∧ n < 8 ∧ en ≤ 1 ∧ owner ≤ 7 ∧ first ≤ last ∧ last < 4096)
  | .submitBind n en internal caravan hosts => decide (n < 16 ∧ en ≤ 1 ∧ internal ≤ 1 ∧ caravan ≤ 1 ∧ hosts < 256)
  | .farTier home _ slotSize slotCount dieCounts =>
    (match home with | .host p => decide (p < 8) | .peer m => decide (m < 16384)) &&
      decide (0 < slotSize ∧ dieCounts.length = 8 ∧ dieCounts.sum ≤ slotCount)
  | .stack stk idle budget srEntry tsense age scrub share =>
    decide (stk < 32) && (stackWords idle budget srEntry tsense age scrub share).all (fun x => legalWrite x.1 x.2) &&
      decide (shareSum share ≤ 64)
  | .pool frameKiB mp banks =>
    [16, 32, 64, 128].contains frameKiB && decide (1 ≤ mp ∧ mp ≤ 5) && banks.all dataBank
  | .kvRegion base size => memoryRange base size
  | .poolLow d low => decide (d < 8 ∧ low < 2 ^ 26)
  | .aseqCores d k mask => decide (d < 8 ∧ k < 4 ∧ mask < 65536)
  | .heap base size => decide (0 < size ∧ base + size ≤ 0x030000000000)
  | .loaderArea base size => memoryRange base size
  | .fabricPort port peer => decide (port < 48 ∧ peer < 16384)
  | .systemModule number group partition => decide (number < 16384 ∧ group < 1024 ∧ partition < 16)
  | .route group member => decide (group < 1024 ∧ member < 16384)
  | .partitionMask mask => decide (mask < 65536)
  | .caravanWindow base size mask => memoryRange base size && decide (mask < 65536)
  | .collGroup members => decide (members.length ≤ 16384)
  | .cfTimeout d coll req => decide (d < 8 ∧ 1 ≤ coll ∧ coll ≤ 255 ∧ 1 ≤ req ∧ req ≤ 255)
  | .cfAge d age => decide (d < 8 ∧ 1 ≤ age ∧ age ≤ 255)
  | .oeCal e period => decide (e < 16 ∧ period ≤ 255)
  | .laneMode fabric port mode => decide (mode ≤ 1) && decide (if fabric then port < 48 else port < 8)
  | .mirage d c tol rate => decide (d < 8 ∧ c < 64) && legalWrite .ME_MIRAGE_CFG (tol * 256 + rate) && decide (tol < 32 ∧ rate < 16)
  | .stallCfg d c interval => decide (d < 8 ∧ c < 64 ∧ 1 ≤ interval ∧ interval ≤ 0x3E8)
  | .ownerKey key => decide (key.length = 1312)
  | .power d target vddq period =>
    decide (d < 8 ∧ target < 1024 ∧ period < 256) && legalWrite .PTM_VDDL target &&
      decide (950 ≤ vddq ∧ vddq ≤ 1050 ∧ vddq % 10 = 0 ∧ 2 ≤ period ∧ period ≤ 0x14)

/-! ### Pools -/

/-- The rows of a frame of `kib` KiB, and the pitch of its pool with a metadata allowance of `mp` rows (R302, R305). -/
def poolPitch (kib mp : Nat) : Nat := kib + mp

/-- Slots per band and per bank of a pool (R305). -/
def bandSlots (kib mp : Nat) : Nat := 32640 / poolPitch kib mp

/-- The frames of a pool. -/
def poolFrames (kib mp : Nat) (banks : List BankId) : Nat := banks.length * 3 * bandSlots kib mp

/-- The frames of all pools among entries. -/
def framesOf (es : List Entry) : Nat :=
  (es.map fun e => match e with | .pool k m bs => poolFrames k m bs | _ => 0).sum

/-- The placed range of a bank's populated rows. -/
def bankRange (b : BankId) : Nat × Nat := (placedAddr b.stk b.die b.bank 0 0, 0x18000 * 1024)

/-! ### Rules between entries -/

/-- HP_CFG.ALLOWED that the record gives a port. -/
def allowedIn (es : List Entry) (port : Nat) : Nat :=
  (es.findSome? fun e => match e with
    | .hostPort p a _ _ _ => if p = port then some a else none
    | _ => none).getD 0

/-- Whether a port is configured for CXL 1.1 or 2.0. -/
def biasConfigured (es : List Entry) (port : Nat) : Bool := allowedIn es port = 1 || allowedIn es port = 2

/-- The memory ranges that an entry reserves for pools, the KV structures region, the heap and the loader area, with a kind. -/
def reservedRanges : Entry → List (Nat × Nat)
  | .pool _ _ bs => bs.map bankRange
  | .kvRegion b n => [(b, n)]
  | .heap b n => [(b, n)]
  | .loaderArea b n => [(b, n)]
  | _ => []

/-- Whether two entries conflict: windows of one byte on a CXL 1.1 or 2.0 port (R58), overlapping enabled sequence ranges of a die
(R161), a Caravan window on such a port's window (R417), a KV region that lies in a pool bank or a port window (R302), the task heap or
loader area on another reserved range (R341), a far slot smaller than a pool's pitch (R320), and a setting given twice. -/
def entriesConflict (all : List Entry) (a b : Entry) : Bool :=
  match a, b with
  | .range p x n, .range q y m =>
    p ≠ q && (biasConfigured all p || biasConfigured all q) && rangesShare (x, n) (y, m)
  | .seqw d n en _ f l, .seqw d' n' en' _ f' l' =>
    d = d' && (n = n' || (en = 1 && en' = 1 && decide (f ≤ l' ∧ f' ≤ l)))
  | .range p x n, .caravanWindow y m _ => biasConfigured all p && rangesShare (x, n) (y, m)
  | .range _ x n, .kvRegion y m => rangesShare (x, n) (y, m)
  | .farTier _ _ size _ _, .pool k mp _ => decide (size < alignUp (poolPitch k mp * 1024) 4096)
  | .module _ _ _ _ _ _, .module _ _ _ _ _ _ => true
  | .hostPort p _ _ _ _, .hostPort q _ _ _ _ => p = q
  | .submitBind n _ _ _ _, .submitBind m _ _ _ _ => n = m
  | .stack n _ _ _ _ _ _ _, .stack m _ _ _ _ _ _ _ => n = m
  | .fabricPort p _, .fabricPort q _ => p = q
  | .systemModule n _ _, .systemModule m _ _ => n = m
  | .farTier _ _ _ _ _, .farTier _ _ _ _ _ => true
  | .kvRegion _ _, .kvRegion _ _ => true
  | .heap _ _, .heap _ _ => true
  | .loaderArea _ _, .loaderArea _ _ => true
  | .partitionMask _, .partitionMask _ => true
  | .pool _ _ xs, .kvRegion y m => xs.any fun x => rangesShare (bankRange x) (y, m)
  | .kvRegion y m, .pool _ _ xs => xs.any fun x => rangesShare (bankRange x) (y, m)
  | .pool _ _ xs, .pool _ _ ys => xs.any ys.contains
  | a, .heap y m => (reservedRanges a).any fun x => rangesShare x (y, m)
  | a, .loaderArea y m => (reservedRanges a).any fun x => rangesShare x (y, m)
  | _, _ => false

/-- How many entries of each limited kind a record may hold: ranges of one port (R58), pools (R302), Caravan windows (R417),
collective groups (R423), owner keys (R437) and modules (R405). -/
def overLimit (earlier : List Entry) (e : Entry) : Bool :=
  match e with
  | .range p _ _ => decide (8 ≤ (windowsOf earlier p).length)
  | .pool _ _ _ => decide (8 ≤ (earlier.filter fun x => match x with | .pool _ _ _ => true | _ => false).length)
  | .caravanWindow _ _ _ => decide (16 ≤ (earlier.filter fun x => match x with | .caravanWindow _ _ _ => true | _ => false).length)
  | .collGroup _ => decide (256 ≤ (earlier.filter fun x => match x with | .collGroup _ => true | _ => false).length)
  | .ownerKey _ => decide (4 ≤ (earlier.filter fun x => match x with | .ownerKey _ => true | _ => false).length)
  | .systemModule _ _ _ => decide (16384 ≤ (earlier.filter fun x => match x with | .systemModule _ _ _ => true | _ => false).length)
  | _ => false

/-- Whether a record defines a frame pool. -/
def definesPool (es : List Entry) : Bool := es.any fun e => match e with | .pool _ _ _ => true | _ => false

/-- Whether the pools so far hold more than 2^26 frames, or the KV structures region is no larger than their descriptors (R302). -/
def poolsTooLarge (es : List Entry) : Bool :=
  decide (2 ^ 26 < framesOf es) ||
    es.any fun e => match e with | .kvRegion _ n => decide (n ≤ framesOf es * 32) && definesPool es | _ => false

/-- Whether entry `e` breaks a rule, alone, against the straps, or with an entry before it in section order. -/
def entryBreaks (straps : Nat) (all earlier : List Entry) (type : Nat) (e : Entry) : Bool :=
  entrySection e ≠ type || !entryLegal e || overLimit earlier e || earlier.any (fun x => entriesConflict all x e) ||
    (match e with
     | .module _ _ _ _ _ strap => decide (strap ≠ straps)
     | .pool _ _ _ => poolsTooLarge (earlier ++ [e])
     | .kvRegion _ _ => poolsTooLarge (earlier ++ [e])
     | _ => false)

/-- The refusal of the first entry that breaks a rule, as (section TYPE, entry index) (DESIGN CHOICE log 28). -/
def firstBreak (straps : Nat) (all earlier : List Entry) (type : Nat) : Nat → List Entry → Option (Nat × Nat)
  | _, [] => none
  | i, e :: es =>
    if entryBreaks straps all earlier type e then some (type, i)
    else firstBreak straps all (earlier ++ [e]) type (i + 1) es

/-- `firstBreak` over sections in order of TYPE. -/
def firstBreakIn (straps : Nat) (all : List Entry) : List Entry → List Section → Option (Nat × Nat)
  | _, [] => none
  | earlier, x :: xs =>
    match firstBreak straps all earlier x.type 0 x.entries with
    | some b => some b
    | none => firstBreakIn straps all (earlier ++ x.entries) xs

/-! ### The fabric checks of R405 -/

/-- The modules of group `g` that the record names. -/
def groupMembers (es : List Entry) (g : Nat) : List Nat :=
  es.filterMap fun e => match e with | .systemModule n h _ => if h = g then some n else none | _ => none

/-- The group of a module that the record names. -/
def groupOf (es : List Entry) (m : Nat) : Option Nat :=
  es.findSome? fun e => match e with | .systemModule n g _ => if n = m then some g else none | _ => none

/-- The groups that the record names. -/
def groupsNamed (es : List Entry) : List Nat :=
  (es.filterMap fun e => match e with | .systemModule _ g _ => some g | _ => none).eraseDups

/-- Whether a fabric port is global (R404). -/
def portGlobal (p : Nat) : Bool := p % 3 = 2

/-- The named ports, as (port, peer). -/
def namedPorts (es : List Entry) : List (Nat × Nat) :=
  es.filterMap fun e => match e with | .fabricPort p q => some (p, q) | _ => none

/-- The position of the first named port whose peer is not a module of the group that its role asks for (R405). -/
def wrongPeer (all : List Entry) (number group : Nat) : Nat → List Entry → Option Nat
  | _, [] => none
  | i, e :: es =>
    match e with
    | .fabricPort p q =>
      let ok : Bool := match groupOf all q with
        | some g => if portGlobal p then decide (g ≠ group) else decide (g = group ∧ q ≠ number)
        | none => false
      if ok then wrongPeer all number group (i + 1) es else some i
    | _ => wrongPeer all number group (i + 1) es

/-- Whether the named local ports reach every other member of the group, with counts that differ by at most one, and the routes reach
every other group (R405). -/
def fabricSpread (all : List Entry) (number group : Nat) : Bool :=
  let members := groupMembers all group
  let others := members.filter (· ≠ number)
  let count := fun m => ((namedPorts all).filter fun p => !portGlobal p.1 && p.2 = m).length
  let counts := others.map count
  let direct := fun g => (namedPorts all).any fun p => portGlobal p.1 && groupOf all p.2 = some g
  let routed := fun g => all.any fun e => match e with | .route h _ => h = g | _ => false
  decide (2 ≤ members.length ∧ members.length ≤ 33) && counts.all (fun c => decide (1 ≤ c)) &&
    counts.all (fun c => counts.all fun c' => decide (c ≤ c' + 1)) &&
    (groupsNamed all).all fun g => g = group || direct g || routed g

/-- The refusal of R405, if any. A record that names no module and no port of a system makes no such check. -/
def fabricRefusal (r : Record) (all : List Entry) : Option (Nat × Nat) :=
  let es := recordEntries r 0x0007
  let own := all.findSome? fun e => match e with | .module n g _ _ _ _ => some (n, g) | _ => none
  if (groupsNamed es).isEmpty && (namedPorts es).isEmpty then none
  else match own with
    | some (n, g) =>
      (match wrongPeer es n g 0 es with
       | some i => some (0x0007, i)
       | none => if fabricSpread es n g then none else some (0x0007, 0xFF))
    | none => some (0x0007, 0xFF)

/-! ### The whole record -/

/-- Whether the header holds its values (R437). The number of bytes that BYTES counts is that of the stored form (DESIGN CHOICE log 13). -/
def headerOk (r : Record) : Bool :=
  decide (r.magic = 0x4647434B ∧ r.format = 1 ∧ r.nsect = r.sections.length ∧ r.bytes ≤ 0x400000 ∧ r.reserved = 0)

/-- The sections in order of TYPE, each with the sections of equal TYPE in stored order. -/
def sortSections : List Section → List Section
  | [] => []
  | x :: xs => ins x (sortSections xs)
where
  /-- a section put before those of greater TYPE -/
  ins (x : Section) : List Section → List Section
    | [] => [x]
    | y :: ys => if x.type ≤ y.type then x :: y :: ys else y :: ins x ys

/-- The first section at fault as a whole: a required one missing, one that occurs twice, a reserved TYPE, a BYTES that does not fit,
or no owner key (R437, R455). -/
def sectionFault (r : Record) : Option Nat :=
  match [0x0001, 0x0002, 0x0009].find? fun t => !(r.sections.any fun x => x.type = t) with
  | some t => some t
  | none =>
    (r.sections.find? fun x =>
      decide (x.type = 0 ∨ 0x000A < x.type ∨ x.used ≠ x.bytes) ||
        decide (1 < (r.sections.filter fun y => y.type = x.type).length) ||
        (x.type = 0x0009 && x.entries.isEmpty)).map (·.type)

/-- The owner key 0 of a record (R437). -/
def ownerKey0 (r : Record) : List Byte :=
  ((recordEntries r 0x0009).findSome? fun e => match e with | .ownerKey k => some k | _ => none).getD []

/-- The checks of R437 and R438 on a record whose signature verifies with its own owner key 0 when `sigOk`: refused against a fused
OWNER_DIGEST of another key. -/
def recordTrusted (f : Fuses) (r : Record) (sigOk : Bool) : Bool :=
  headerOk r && sigOk && (match f.ownerDigest with | none => true | some d => d = Config.sha3 (ownerKey0 r))

/-- BTS_BOOT_STATUS.REFUSAL for a refused record, none for an accepted one (R439, R455). Where a record breaks several rules the first is
named: header and signature, then whole sections, then entries in order of TYPE and position, then the system checks of R405 (DESIGN CHOICE
log 13; DESIGN CHOICE log 28). -/
def recordRefusal (f : Fuses) (straps : Nat) (r : Record) (sigOk : Bool) : Option Nat :=
  if !recordTrusted f r sigOk then some 0xFFFF
  else
    match sectionFault r with
    | some t => some (t % 256 * 256 + 0xFF)
    | none =>
      let secs := sortSections r.sections
      let all := secs.flatMap (·.entries)
      match firstBreakIn straps all [] secs with
      | some (t, i) => some (t * 256 + min i 0xFE)
      | none =>
        if definesPool all && !(all.any fun e => match e with | .kvRegion _ _ => true | _ => false) then some 0x05FF
        else match fabricRefusal r all with
          | some (t, i) => some (t * 256 + min i 0xFF)
          | none => none

end Sys2Proof.Machine
end

