-- ==== Sys2Proof/Machine/Pools.lean ====
section
/-! DEFINITION. Frame pools and the far-tier region as the configuration record gives them (R302 to R305, R320). -/

set_option Elab.async false

namespace Sys2Proof.Machine

open Sys2Proof

/-! ### Pools and frames (R302 to R305) -/

/-- A frame pool of the record: its index, frame size in KiB, metadata rows and banks. -/
structure Pool where
  index : Nat
  kib : Nat
  mp : Nat
  banks : List BankId
  deriving DecidableEq, Repr

/-- The frame pools. -/
def State.pools (s : State) : List Pool :=
  ((s.entries 0x0005).filterMap fun e => match e with | .pool k m b => some (k, m, b) | _ => none).zipIdx.map fun x =>
    ⟨x.2, x.1.1, x.1.2.1, x.1.2.2⟩

/-- The frames of one bank of a pool. -/
def Pool.perBank (p : Pool) : Nat := 3 * bandSlots p.kib p.mp

/-- The bytes of a slot. -/
def Pool.slotBytes (p : Pool) : Nat := poolPitch p.kib p.mp * 1024

/-- A bank of a pool and the number of its first frame. -/
structure PoolBank where
  first : Nat
  pool : Pool
  bank : BankId
  deriving DecidableEq, Repr

/-- Every bank of the pools in the order in which frames are numbered, from frame `n` on. -/
def poolBanks : List Pool → Nat → List PoolBank
  | [], _ => []
  | p :: ps, n => (p.banks.zipIdx.map fun b => ⟨n + b.2 * p.perBank, p, b.1⟩) ++ poolBanks ps (n + p.banks.length * p.perBank)

/-- The banks of the pools. -/
def State.poolBanks (s : State) : List PoolBank := Machine.poolBanks s.pools 0

/-- The bank of a frame. -/
def State.frameBank (s : State) (f : Nat) : Option PoolBank := s.poolBanks.find? fun b => decide (b.first ≤ f ∧ f < b.first + b.pool.perBank)

/-- The number of slot `slot` of band `band` of the `bank`-th bank of a pool (R302, R305). -/
def State.frameAt (s : State) (pool bank band slot : Nat) : Option Nat :=
  ((s.poolBanks.filter fun b => b.pool.index = pool)[bank]?).bind fun b =>
    let n := bandSlots b.pool.kib b.pool.mp
    if band < 3 ∧ slot < n then some (b.first + band * n + slot) else none

/-- The band of a frame of a bank, and its first row (R305). -/
def PoolBank.band (b : PoolBank) (f : Nat) : Nat := (f - b.first) / bandSlots b.pool.kib b.pool.mp
def PoolBank.row (b : PoolBank) (f : Nat) : Nat :=
  b.band f * 0x8000 + 128 + (f - b.first) % bandSlots b.pool.kib b.pool.mp * poolPitch b.pool.kib b.pool.mp

/-- The placed address of a frame's slot. -/
def State.frameAddr (s : State) (f : Nat) : Nat :=
  match s.frameBank f with
  | some b => placedAddr b.bank.stk b.bank.die b.bank.bank (b.row f) 0
  | none => 0

/-- The bytes of a frame's slot, the stack that holds it, and its die. -/
def State.slotLen (s : State) (f : Nat) : Nat := match s.frameBank f with | some b => b.pool.slotBytes | none => 0
def State.frameStack (s : State) (f : Nat) : Nat := match s.frameBank f with | some b => b.bank.stk | none => 0
def State.frameDie (s : State) (f : Nat) : Nat := s.frameStack f / 4

/-- Free frames on a die's stacks (R333). -/
def State.poolFree (s : State) (d : Nat) : Nat :=
  ((s.poolBanks.filter fun b => b.bank.stk / 4 = d).map (·.pool.perBank)).sum - (s.kv.used.filter fun f => s.frameDie f = d).length

/-! ### The far-tier region (R320) -/

/-- The far-tier region: its home, base, slot size, slot count and the dies' counts. -/
def State.far (s : State) : Option (FarHome × Nat × Nat × Nat × List Nat) :=
  (s.entries 0x0003).findSome? fun e => match e with | .farTier h b n c ds => some (h, b, n, c, ds) | _ => none

end Sys2Proof.Machine
end

