-- ==== Sys2Proof/Machine/StreamEnc.lean ====
section
/-! DEFINITION. Stream instructions, version 1: the fields of an instruction word, its operands and their beats, and pattern-table entries
(chapter 07, R171, R202, R206). A word is numbered as R185 numbers it. -/

set_option Elab.async false

namespace Sys2Proof.Enc7

open Sys2Proof

/-! ### Token fields and opcodes (R186, R187) -/

def opc (w : Nat) : Nat := bits w 127 120
def opBLOCK : Nat := 0x01
def opENDBLOCK : Nat := 0x02
def opEND : Nat := 0x03
def opLOAD : Nat := 0x10
def opSTORE : Nat := 0x11
def opXFER : Nat := 0x18
def opWAIT : Nat := 0x1C
def opSIGNAL : Nat := 0x1D
def opBARRIER : Nat := 0x1E
def opMMA : Nat := 0x40
def opVOP : Nat := 0x50
def opVGATHER : Nat := 0x51
def opOCALL : Nat := 0x60

/-- Whether the instruction carries token fields: all but BLOCK, ENDBLOCK and END. -/
def hasTokens (w : Nat) : Bool := decide (4 ≤ opc w)

/-- The class that the instruction requires, and the class that it emits. -/
def requires (w : Nat) : Option Nat := if hasTokens w && bit w 119 then some (bits w 118 115) else none
def emits (w : Nat) : Option Nat := if hasTokens w && bit w 114 then some (bits w 113 110) else none

/-! ### BLOCK (R190, R191) -/

def replays (w : Nat) : Nat := bits w 119 96 + 1
def pcount (w : Nat) : Nat := bits w 31 21
def plist (w : Nat) : Nat := bits w 20 9

/-- The presets that a BLOCK word gives, as (class, preset): classes T0 to T7 in the access stream, T8 to T15 in the execute stream. -/
def presets (x : Bool) (w : Nat) : List (Nat × Nat) :=
  (List.range 8).map fun n => (n + (if x then 8 else 0), bits w (8 * n + 39) (8 * n + 32))

/-! ### LOAD and STORE (R193), XFER (R197), WAIT, SIGNAL and BARRIER (R198) -/

def pat (w : Nat) : Nat := bits w 109 104
def walkPreg (w : Nat) : Nat := bits w 103 98
def walkQueue (w : Nat) : Nat := bits w 97 93
def toLast (w : Nat) : Bool := bit w 92
def walkOffset (w : Nat) : Int := toSigned 48 (bits w 91 44)

def xferEngine (w : Nat) : Bool := bit w 109
def xferFence (w : Nat) : Bool := bit w 108
def xferPreg (w : Nat) : Nat := bits w 107 102
def xferOffset (w : Nat) : Int := toSigned 32 (bits w 101 70)

def syncPreg (w : Nat) : Nat := bits w 109 104
def syncOffset (w : Nat) : Int := toSigned 32 (bits w 103 72)
def syncConsume (w : Nat) : Bool := bit w 71

/-- The participants of a BARRIER in the bit order of R281: 0 AE, 1 DE0, 2 DE1, 3 CC. -/
def syncMask (w : Nat) : Nat := bits w 70 67

/-! ### MMA (R200, R201) -/

def mQA (w : Nat) : Nat := bits w 109 105
def mQW (w : Nat) : Nat := bits w 104 100
def mQO (w : Nat) : Nat := bits w 99 95
def mQE (w : Nat) : Nat := bits w 94 90
def mQC (w : Nat) : Nat := bits w 89 85
def mEsc (w : Nat) : Bool := bit w 84
def mAcc (w : Nat) : Bool := bit w 83
def mKeep (w : Nat) : Bool := bit w 82
def mAfmt (w : Nat) : Nat := bits w 81 78
def mWfmt (w : Nat) : Nat := bits w 77 74
def mOfmt (w : Nat) : Nat := bits w 73 72
def mM (w : Nat) : Nat := bits w 71 56 + 1
def mK (w : Nat) : Nat := 32 * (bits w 55 45 + 1)
def mN (w : Nat) : Nat := bits w 44 29 + 1

/-- Row bytes r(K) of a format (R201, R219). -/
def rowBytes (c : Enc) (k : Nat) : Nat := c.bytes k + (if c.blocked then k / c.block else 0)

/-- Row bytes by format code. -/
def rowBytesOf (code k : Nat) : Nat := match encOf code with | some c => rowBytes c k | none => 0

/-- Bytes of one output element (R202). -/
def outBytes (w : Nat) : Nat := if mOfmt w = 0 then 4 else 2

/-- Beats of `n` bytes. -/
def beats (n : Nat) : Nat := (n + 63) / 64

/-- Resident depth D (R201, R217), and tile depth T (R217). -/
def residentDepth (code : Nat) : Nat :=
  match code with | 0 => 128 | 0xA => 128 | 0xB => 128 | 1 => 64 | 2 => 64 | 3 => 64 | 4 => 32 | 5 => 32 | 7 => 256 | 8 => 160 | _ => 0
def tileDepth (code : Nat) : Nat := if code = 8 then 256 else residentDepth code

/-! ### VOP (R204 to R206) and VGATHER (R208) -/

def vFn (w : Nat) : Nat := bits w 109 102
def vType (w : Nat) : Nat := bits w 101 99
def vVlReg (w : Nat) : Bool := bit w 98
def vVl (w : Nat) : Nat := bits w 97 91
def vNvec (w : Nat) : Nat := bits w 90 67 + 1
def vAV (w : Nat) : Bool := bit w 66
def vQA (w : Nat) : Nat := bits w 65 61
def vBV (w : Nat) : Bool := bit w 60
def vQB (w : Nat) : Nat := bits w 59 55
def vCV (w : Nat) : Bool := bit w 54
def vQC (w : Nat) : Nat := bits w 53 49
def vDV (w : Nat) : Bool := bit w 48
def vQD (w : Nat) : Nat := bits w 47 43
def vSumm (w : Nat) : Bool := bit w 42
def vImm (w : Nat) : Nat := bits w 31 0

/-- G of VRED, VSOFTMAX and VCVT (R205). -/
def vG (w : Nat) : Nat := bits w 31 8 + 1

/-- Beats of one vector of a lane type, and the bytes of a lane. -/
def vecBeats (t : Nat) : Nat := if t = 1 ∨ t = 2 then 2 else 4
def laneBytes (t : Nat) : Nat := if t = 1 ∨ t = 2 then 2 else 4

/-- Format code and direction of VCVT. -/
def cvtFmt (w : Nat) : Nat := bits w 3 0
def cvtFrom (w : Nat) : Bool := bit w 4

/-- VL of a VOP (R207): the word's, or a slot value's low 32 bits, taken as 64 above that; and whether it was clamped. -/
def vopVl (w slot : Nat) : Nat × Bool :=
  if vVlReg w then (min 64 (slot % 2 ^ 32), decide (64 < slot % 2 ^ 32)) else (vVl w, false)

/-- Bytes of one VCVT row of G vectors of `vl` lanes (R206). -/
def cvtRow (w vl : Nat) : Nat := rowBytesOf (cvtFmt w) (vG w * vl)

/-- Whether a VCVT's format keeps scale bytes behind its elements (R219). -/
def cvtBlocked (w : Nat) : Bool := match encOf (cvtFmt w) with | some c => c.blocked | none => false

/-- Whether the beats of an instruction depend on a register's value: a VCVT whose VL a register gives (R206, R207). -/
def vlOpen (w : Nat) : Bool := decide (opc w = opVOP ∧ vFn w = 0x12) && vVlReg w

/-- Bytes of one VRED result (R206). -/
def redBytes (w : Nat) : Nat := if bits w 3 0 = 5 ∨ bits w 3 0 = 6 then 4 else laneBytes (vType w)

def gQI (w : Nat) : Nat := bits w 109 105
def gQD (w : Nat) : Nat := bits w 104 100
def gTpreg (w : Nat) : Nat := bits w 99 94
def gToff (w : Nat) : Int := toSigned 24 (bits w 93 70)
def gXpreg (w : Nat) : Nat := bits w 69 64
def gEsize (w : Nat) : Nat := bits w 63 62
def gStrict (w : Nat) : Bool := bit w 61
def gSumm (w : Nat) : Bool := bit w 60
def gVl (w : Nat) : Nat := bits w 59 53
def gNvec (w : Nat) : Nat := bits w 52 29 + 1

/-- Element bytes and destination beats per vector of VGATHER. -/
def gBytes (w : Nat) : Nat := match gEsize w with | 0 => 4 | 1 => 2 | _ => 64
def gBeats (w : Nat) : Nat := match gEsize w with | 0 => 4 | 1 => 2 | _ => 64

/-! ### OCALL (R209) -/

def oId (w : Nat) : Nat := bits w 109 98
def oArgp (w : Nat) : Nat := bits w 97 92
def oInv (w : Nat) : Bool := bit w 91
def oQin (w : Nat) : Nat := bits w 90 86
def oInBeats (w : Nat) : Nat := bits w 85 59
def oOutv (w : Nat) : Bool := bit w 58
def oQout (w : Nat) : Nat := bits w 57 53
def oOutBeats (w : Nat) : Nat := bits w 52 26

/-! ### Pattern-table entries (R171, R195) -/

/-- Run, and count and stride of level `k`. -/
def patRun (e : List Byte) : Nat := bits (field e 0 8) 11 0 + 1
def patCount (e : List Byte) (k : Nat) : Nat := bits (field e (8 + 8 * k) 8) 63 48 + 1
def patStride (e : List Byte) (k : Nat) : Int := toSigned 41 (bits (field e (8 + 8 * k) 8) 40 0)

/-- Accesses and bytes of a walk. -/
def patAccesses (e : List Byte) : Nat := ((List.range 6).map (patCount e)).foldl (· * ·) 1
def patBytes (e : List Byte) : Nat := patRun e * patAccesses e

/-- The offset of access `i` of a walk from its base, level 0 innermost, from level `k` on. -/
def walkFrom (e : List Byte) : Nat → Nat → Nat → Int
  | 0, _, _ => 0
  | fuel + 1, k, i => (i % patCount e k : Nat) * patStride e k + walkFrom e fuel (k + 1) (i / patCount e k)

/-- The address of access `i` of a walk, modulo 2^64 (R194). -/
def walkAddr (e : List Byte) (base i : Nat) : Nat := (((base : Int) + walkFrom e 6 0 i) % (2 ^ 64 : Int)).toNat

/-- The word access of a walk in which byte `pos` lies, from that byte on: its address, and its bytes that belong to one access and one
64-byte word (R173). -/
def walkWord (e : List Byte) (base pos : Nat) : Nat × Nat :=
  let a := (walkAddr e base (pos / patRun e) + pos % patRun e) % 2 ^ 64
  (a, min (patRun e - pos % patRun e) (64 - a % 64))

/-- The word accesses of a walk from byte `pos` on until byte `stop` is reached or the walk ends, as (address, length). -/
def walkWords (e : List Byte) (base stop : Nat) : Nat → Nat → List (Nat × Nat)
  | 0, _ => []
  | fuel + 1, pos =>
    if stop ≤ pos ∨ patBytes e ≤ pos then []
    else
      let x := walkWord e base pos
      x :: walkWords e base stop fuel (pos + x.2)

/-! ### Operands (R189, R202, R206, R208, R209) -/

/-- The queue that an instruction pushes. -/
def pushesTo (w : Nat) : Option Nat :=
  let o := opc w
  if o = opLOAD then some (walkQueue w)
  else if o = opMMA then some (mQO w)
  else if o = opVOP then (if vDV w then some (vQD w) else none)
  else if o = opVGATHER then some (gQD w)
  else if o = opOCALL then (if oOutv w then some (oQout w) else none)
  else none

/-- The source beats of a VOP's operand A, and of B, at a vector length. -/
def vopABeats (w vl : Nat) : Nat :=
  if vFn w = 0x12 ∧ cvtFrom w = true then vNvec w / vG w * beats (cvtRow w vl)
  else if vFn w = 0x12 then vNvec w * 4
  else vNvec w * vecBeats (vType w)
def vopBBeats (w : Nat) : Nat := if vFn w = 0x13 then vNvec w * 4 else vNvec w * vecBeats (vType w)

/-- The operands that an instruction pops, as (queue, beats or none for "to LAST", the engine's step at which it pops them): `e` is the
pattern entry of a STORE, `slot` the slot value of a VL register (R194, R202, R206 to R209). The steps of an MMA are those of R220, 0 for
its first; it pops QE in steps 2, 3 and 6. -/
def popsFrom (w slot : Nat) (e : List Byte) : List (Nat × Option Nat × Nat) :=
  let o := opc w
  if o = opSTORE then [(walkQueue w, if toLast w then none else some (beats (patBytes e)), 0)]
  else if o = opMMA then
    [(mQA w, some (mM w * beats (rowBytesOf (mAfmt w) (mK w))), 0)] ++
    (if mAcc w then [(mQC w, some (mM w * beats (mN w * 4)), 1)] else []) ++
    (if mEsc w then [(mQE w, none, 2)] else []) ++
    (if mKeep w then [] else [(mQW w, some (beats (mN w * rowBytesOf (mWfmt w) (mK w))), 3)])
  else if o = opVOP then
    (if vAV w then [(vQA w, some (vopABeats w (vopVl w slot).1), 0)] else []) ++
    (if vBV w then [(vQB w, some (vopBBeats w), 0)] else []) ++
    (if vCV w then [(vQC w, some (vNvec w * vecBeats (vType w)), 0)] else [])
  else if o = opVGATHER then [(gQI w, some (gNvec w * 4), 0)]
  else if o = opOCALL then
    (if oInv w then [(oQin w, if oInBeats w = 0 then none else some (oInBeats w), 0)] else [])
  else []

/-- The beats that an instruction pushes, where the word and a slot value fix them (R194, R202, R206 to R209). -/
def pushBeats (w slot : Nat) (e : List Byte) : Option Nat :=
  let o := opc w
  if o = opLOAD then some (beats (patBytes e))
  else if o = opMMA then some (mM w * beats (mN w * outBytes w))
  else if o = opVOP then
    (if !vDV w then some 0
     else if vFn w = 0x10 then some (beats (vNvec w / vG w * redBytes w))
     else if vFn w = 0x12 then
       (if cvtFrom w then some (vNvec w * 4) else some (vNvec w / vG w * beats (cvtRow w (vopVl w slot).1)))
     else some (vNvec w * vecBeats (vType w)))
  else if o = opVGATHER then some (gNvec w * gBeats w)
  else if o = opOCALL then (if oOutv w then (if oOutBeats w = 0 then none else some (oOutBeats w)) else some 0)
  else some 0

/-- The units in which the VE works (R227, R229): the groups of a VRED or VSOFTMAX, the vectors of any other instruction; none for other
engines. -/
def veUnits (w : Nat) : Nat :=
  if opc w = opVGATHER then gNvec w
  else if opc w = opVOP then (if vFn w = 0x10 ∨ vFn w = 0x11 then vNvec w / vG w else vNvec w)
  else 0

/-- The beats of operand A, B or C (`op` 0, 1 or 2), or of a gather's indices, that the first `u` units need (R206). -/
def veNeed (w vl op u : Nat) : Nat :=
  if opc w = opVGATHER then 4 * u
  else if vFn w = 0x10 ∨ vFn w = 0x11 then u * vG w * vecBeats (vType w)
  else if vFn w = 0x12 ∧ cvtFrom w = true then
    (if u % vG w = 0 then u / vG w * beats (cvtRow w vl)
     else u / vG w * beats (cvtRow w vl) + if cvtBlocked w then beats (cvtRow w vl) else beats (u % vG w * vl * 2))
  else if vFn w = 0x12 ∨ (vFn w = 0x13 ∧ op = 1) then 4 * u
  else u * vecBeats (vType w)

/-- The place of a VOP's operand among its pops: 0 for A, 1 for B, 2 for C. -/
def vopPlace (w i : Nat) : Nat :=
  if opc w = opVGATHER then 0 else (((if vAV w then [0] else []) ++ (if vBV w then [1] else []) ++ if vCV w then [2] else [])[i]?).getD 0

/-- The engine that runs an instruction: 0 AE, 2 ME, 3 VE, 6 the control core. -/
def engineOf (w : Nat) : Nat :=
  if opc w < 0x40 then 0 else if opc w = opMMA then 2 else if opc w = opOCALL then 6 else 3

end Sys2Proof.Enc7
end

