-- ==== Sys2Proof/Machine/VectorOps.lean ====
section
/-! DEFINITION. The arithmetic of the vector engine: what a VOP computes from the vectors that it pops (R121 to R123, R204 to R207,
R227 to R230, R233, R234). -/

set_option Elab.async false

namespace Sys2Proof.Enc7

open Sys2Proof

/-! ### Activation functions (R205, R228): exact to far below a unit in the last place, then within 4 units (DESIGN CHOICE log 11) -/

/-- √(2/π) in units of 2^−160. -/
def sqrt2piFix : Nat := 1166109592014436081468383460887399764390691815009

/-- exp of −x or x, x in units of 2^−160, as mantissa and exponent. -/
def expFix (neg : Bool) (x : Nat) : Nat × Int :=
  let l := ln2Fix 160
  if neg then (expTaylor 160 ((x / l + 1) * l - x) 60 0 (2 ^ 160), -((x / l + 1 : Nat) : Int) - 160)
  else (expTaylor 160 (x % l) 60 0 (2 ^ 160), ((x / l : Nat) : Int) - 160)

/-- A magnitude m × 2^e in units of 2^−160. -/
def fix160 (m : Nat) (e : Int) : Nat := if 0 ≤ e + 160 then m * 2 ^ (e + 160).toNat else m / 2 ^ (-(e + 160)).toNat

/-- n × 2^e / d as an FP32 word, rounded once. -/
def ratWord (neg : Bool) (n : Nat) (e : Int) (d : Nat) : Nat :=
  f32OfRat neg (if 0 ≤ e then n * 2 ^ e.toNat else n) (if 0 ≤ e then d else d * 2 ^ (-e).toNat)

/-- (m × 2^e) × sigmoid(±x) as a fraction, x in units of 2^−160: sigmoid(−x) = E / (1 + E) with E = exp(−x). -/
def timesSigmoid (m : Nat) (e : Int) (neg : Bool) (x : Nat) : Nat × Nat :=
  let k := ratOf m e
  if 300 * 2 ^ 160 < x then (if neg then (k.1, k.2 * 2 ^ 400) else k)
  else
    let (q, qe) := expFix true x
    -- E = q × 2^qe with qe < 0, so 1 + E = (2^−qe + q) × 2^qe
    let one := 2 ^ (-qe).toNat
    (k.1 * (if neg then q else one), k.2 * (one + q))

/-- The activation functions, by their IMM code: ReLU, SiLU, GELU in its tanh form, sigmoid, tanh (DESIGN CHOICE log 11). -/
def vact (code a : Nat) : Nat :=
  match f32 a with
  | .nan => nan32
  | .inf neg =>
    if code = 3 then (if neg then 0 else one32)
    else if code = 4 then (if neg then one32 + 2 ^ 31 else one32)
    else if neg then (if code = 0 then 0 else 2 ^ 31) else posInf32
  | .fin neg m e =>
    if code = 0 then (if neg then 0 else a)
    else
      let x := fix160 m e
      let own := ratOf m e
      let r : Nat × Nat :=
        if code = 1 then timesSigmoid m e neg x
        else if code = 2 then
          -- x · sigmoid(2y), y = √(2/π) (x + 0.044715 x³)
          (if 300 * 2 ^ 160 < x then (if neg then (own.1, own.2 * 2 ^ 400) else own)
           else
             let cube := x * x / 2 ^ 160 * x / 2 ^ 160
             timesSigmoid m e neg (2 * (sqrt2piFix * (x + cube * 44715 / 1000000) / 2 ^ 160)))
        else if code = 3 then timesSigmoid 1 0 neg x
        else if x < 2 ^ 140 then own
        else if 300 * 2 ^ 160 < x then (1, 1)
        else
          let (q, qe) := expFix true (2 * x)
          let one := 2 ^ (-qe).toNat
          (one - q, one + q)
      freeUlp (16 + code) 4 a (neg && decide (code ≠ 3)) r.1 r.2

/-! ### Lanes -/

/-- The lane types of R204: FP32, BF16, FP16 and INT32. A lane's bits as an FP32 word, exactly. -/
def laneTo32 (t raw : Nat) : Nat := if t = 1 then raw * 65536 else if t = 2 then to32 (fp16.decode raw) else raw

/-- The binary format of a lane type. -/
def laneFmt (t : Nat) : FFmt := if t = 1 then bf16 else if t = 2 then fp16 else fp32

/-- An FP32 word rounded once into a lane type, a NaN written as the canonical one (R104, R228). -/
def laneOf32 (t w : Nat) : Nat := (laneFmt t).encode (f32 w)

/-- Whether a lane is NaN, and whether it is infinite. -/
def laneNan (t raw : Nat) : Bool := t ≠ 3 && ((laneFmt t).decode raw).isNan
def laneInf (t raw : Nat) : Bool := t ≠ 3 && ((laneFmt t).decode raw).isInf
def laneFin (t raw : Nat) : Bool := t = 3 || ((laneFmt t).decode raw).isFin

/-- One in a lane type. -/
def laneOne (t : Nat) : Nat := if t = 3 then 1 else (laneFmt t).encode .one

/-- The 64 lanes of vector `i` of an operand (DESIGN CHOICE log 27). -/
def lanes (bytes i : Nat) (bs : List Byte) : List Nat :=
  (List.range 64).map fun j => field bs ((i * 64 + j) * bytes) bytes

/-- A flag of R233, by its bit in the summary less 104: 0 NAN, 1 EMPTY, 2 SAT, 3 RANGE, 4 OVF; with the element that set it, if one did. -/
structure Flag where
  bit : Nat
  at_ : Option Nat
  deriving DecidableEq, Repr

/-- What a unit of an instruction of the vector engine produces: bytes that it pushes, scale bytes that follow its row's elements, flags, COUNT
and VALUE, and counts for VE_SENT_SAT, VE_SENT_SCALE and VE_RANGE_COUNT. -/
structure VOut where
  bytes : List Byte
  scales : List Byte
  flags : List Flag
  count : Nat
  value : Nat
  sat : Nat
  scale : Nat
  range : Nat
  deriving DecidableEq, Repr

/-- Nothing produced. -/
def VOut.none_ : VOut := ⟨[], [], [], 0, 0, 0, 0, 0⟩

/-- The flags of a lane written at element `p`: NaN, or an infinity that finite operands gave (R105, R228) (DESIGN CHOICE log 27). -/
def laneFlags (t : Nat) (fin : Bool) (raw p : Nat) : List Flag :=
  if laneNan t raw then [⟨0, some p⟩] else if fin && laneInf t raw then [⟨4, some p⟩] else []

/-- The result of a lane-wise floating-point function on FP32 words. `i` is IMM. -/
def laneFn (fn imm a b c : Nat) : Nat :=
  match fn with
  | 0x01 => f32Add a b
  | 0x02 => f32Sub a b
  | 0x03 => f32Mul a b
  | 0x04 => f32Fma a b c
  | 0x05 => f32Max a b
  | 0x06 => f32Min a b
  | 0x07 => f32Add a imm
  | 0x08 => f32Mul a imm
  | 0x09 => f32Exp 8 a
  | 0x0A => f32Recip 9 1 a
  | 0x0B => f32Rsqrt 10 1 a
  | 0x0C => vact (imm % 256) a
  | _ => a

/-- The result of a lane-wise function on INT32 lanes, modulo 2^32 (R228). -/
def intFn (fn imm a b : Nat) : Nat :=
  match fn with
  | 0x01 => (a + b) % 2 ^ 32
  | 0x02 => (a + 2 ^ 32 - b) % 2 ^ 32
  | 0x03 => a * b % 2 ^ 32
  | 0x05 => if toSigned 32 a < toSigned 32 b then b else a
  | 0x06 => if toSigned 32 a < toSigned 32 b then a else b
  | 0x07 => (a + imm) % 2 ^ 32
  | 0x08 => a * imm % 2 ^ 32
  | _ => a

/-- Whether the comparison of VCMP holds (R205): on numbers, or on signed integers. -/
def cmpHolds (t code a b : Nat) : Bool :=
  let (lt, eq) : Bool × Bool :=
    if t = 3 then (decide (toSigned 32 a < toSigned 32 b), decide (a = b))
    else (((f32 (laneTo32 t a)).lt (f32 (laneTo32 t b))), ((f32 (laneTo32 t a)).eq (f32 (laneTo32 t b))))
  match code % 8 with
  | 0 => eq
  | 1 => !eq
  | 2 => lt
  | 3 => lt || eq
  | 4 => !lt && !eq
  | _ => !lt

/-- A lane moved unchanged, a NaN written as the canonical one (R228). -/
def moved (t raw : Nat) : Nat := if laneNan t raw then (laneFmt t).nan else raw

/-- The result of one lane of the functions 0x01 to 0x0F, with its flags (R205, R228). -/
def laneResult (t fn imm a b c p : Nat) : Nat × List Flag :=
  if fn = 0x0D then
    (if laneNan t a || laneNan t b then ((laneFmt t).nan, [⟨0, some p⟩])
     else (if cmpHolds t imm a b then laneOne t else 0, []))
  else if fn = 0x0E then
    (let r := if laneNan t c then (laneFmt t).nan
       else if t = 3 then (if c = 0 then b else a)
       else if ((laneFmt t).decode c).isZero then moved t b else moved t a
     (r, laneFlags t false r p))
  else if fn = 0x0F then (moved t a, laneFlags t false (moved t a) p)
  else if t = 3 then (intFn fn imm a b, [])
  else
    let r := laneOf32 t (laneFn fn imm (laneTo32 t a) (laneTo32 t b) (laneTo32 t c))
    let two := decide (fn ≤ 0x06)
    let fin := laneFin t a && (!two || laneFin t b) && (decide (fn ≠ 0x04) || laneFin t c) &&
      (decide (fn ≠ 0x07 ∧ fn ≠ 0x08) || (f32 imm).isFin)
    (r, laneFlags t fin r p)

/-- The lane-wise functions on vector `i` (R206, R227): lanes at or beyond VL are written as zero. -/
def elementwise (w vl i : Nat) (a b c : List Byte) : VOut :=
  let t := vType w
  let n := laneBytes t
  let rs := (lanes n i a).zipIdx.map fun xj =>
    if xj.2 < vl then
      laneResult t (vFn w) (vImm w) xj.1 (field b ((i * 64 + xj.2) * n) n) (field c ((i * 64 + xj.2) * n) n) (i * 64 + xj.2)
    else (0, [])
  let ones := if vFn w = 0x0D then (rs.filter fun r => r.1 = laneOne t && r.2.isEmpty).length else 0
  { VOut.none_ with bytes := rs.flatMap fun r => leBytes n r.1, flags := rs.flatMap (·.2), value := ones }

/-- VPERM on vector `i` (R230). -/
def vperm (w vl i : Nat) (a b : List Byte) : VOut :=
  let t := vType w
  let n := laneBytes t
  let src := lanes n i a
  let rs := (List.range 64).map fun j =>
    let k := field b ((i * 64 + j) * 4) 4
    if vl ≤ j then (0, [])
    else if k < vl then (moved t (src[k]?.getD 0), laneFlags t false (moved t (src[k]?.getD 0)) (i * 64 + j))
    else (0, [(⟨3, some (i * 64 + j)⟩ : Flag)])
  let bad := (rs.filter fun r => r.2.any fun f => f.bit = 3).length
  { VOut.none_ with bytes := rs.flatMap fun r => leBytes n r.1, flags := rs.flatMap (·.2), count := bad, range := bad }

/-! ### Reductions (R122, R123, R229) -/

/-- The unmasked elements of group `g`, with their element numbers. -/
def groupElems (t vl g size : Nat) (a : List Byte) : List (Nat × Nat) :=
  (List.range size).flatMap fun j => ((lanes (laneBytes t) (g * size + j) a).take vl).zipIdx.map fun xk =>
    (xk.1, (g * size + j) * 64 + xk.2)

/-- A floating-point fold with one rounding per step, starting from the first element; its result and the flag of the element at which it
became infinite from finite values (DESIGN CHOICE log 27). -/
def foldF (f : Nat → Nat → Nat) : Nat → List (Nat × Nat) → Nat × List Flag
  | acc, [] => (acc, [])
  | acc, (x, p) :: xs =>
    let r := f acc x
    let rest := foldF f r xs
    (rest.1, (if (f32 acc).isFin && (f32 x).isFin && (f32 r).isInf then [⟨4, some p⟩] else []) ++ rest.2)

/-- The position in a list of the extreme element (the first NaN, or the first of the largest or smallest). -/
def argBest (lt : Nat → Nat → Bool) : List Nat → Nat
  | [] => 0
  | x :: xs =>
    let k := argBest lt xs
    match xs[k]? with
    | some y => if lt x y then k + 1 else 0
    | none => 0

/-- An FP32 word divided by a number, correctly rounded. -/
def f32DivNat (a n : Nat) : Nat :=
  match f32 a with
  | .fin neg m e => ratWord neg m e n
  | _ => if f32IsNan a then nan32 else a

/-- The value of a floating-point reduction as an FP32 word, or of an index reduction as an index, with its flags (R122, R123, R229). -/
def reduceF (op vl : Nat) (xs : List (Nat × Nat)) : Nat × List Flag :=
  let nans := xs.filter fun x => f32IsNan x.1
  let nanFlags := nans.map fun x => (⟨0, some x.2⟩ : Flag)
  match xs with
  | [] => (match op with | 0 => 0 | 1 => one32 | 2 => negInf32 | 3 => posInf32 | 4 => 0 | _ => 0xFFFFFFFF, [⟨1, none⟩])
  | (x, _) :: rest =>
    if op = 5 ∨ op = 6 then
      let k := match indicesOf (fun (y : Nat × Nat) => f32IsNan y.1) xs with
        | i :: _ => i
        | [] => argBest (fun y z => if op = 5 then (f32 y).lt (f32 z) else (f32 z).lt (f32 y)) (xs.map (·.1))
      (if vl = 0 then 0xFFFFFFFF else k, nanFlags)
    else
      let f := match op with | 1 => f32Mul | 2 => f32Max | 3 => f32Min | _ => f32Add
      let r := foldF f x rest
      let v := if op = 4 then f32DivNat r.1 xs.length else r.1
      let made := if f32IsNan v && nans.isEmpty then (match xs.getLast? with | some y => [(⟨0, some y.2⟩ : Flag)] | none => []) else []
      (if f32IsNan v then nan32 else v, nanFlags ++ made ++ r.2)

/-- The value of an INT32 reduction: sum modulo 2^32, extremes as signed integers; over no element the index of none, or the open value
`open_` that R122 does not state (DESIGN CHOICE log 27). -/
def reduceI (op open_ : Nat) (xs : List (Nat × Nat)) : Nat × List Flag :=
  match xs with
  | [] => (if op = 5 ∨ op = 6 then 0xFFFFFFFF else open_ % 2 ^ 32, [⟨1, none⟩])
  | (x, _) :: rest =>
    let lt := fun y z => if op = 5 ∨ op = 2 then decide (toSigned 32 y < toSigned 32 z) else decide (toSigned 32 z < toSigned 32 y)
    if op = 5 ∨ op = 6 then (argBest lt (xs.map (·.1)), [])
    else if op = 2 ∨ op = 3 then (rest.foldl (fun acc y => if lt acc y.1 then y.1 else acc) x, [])
    else (rest.foldl (fun acc y => (acc + y.1) % 2 ^ 32) x, [])

/-- VRED on group `g` (R229): its result, to be packed behind those of the groups before it. -/
def vred (w vl g open_ : Nat) (a : List Byte) : VOut :=
  let t := vType w
  let op := bits (vImm w) 3 0
  let xs := groupElems t vl g (vG w) a
  if t = 3 then
    let r := reduceI op open_ xs
    { VOut.none_ with bytes := leBytes 4 r.1, flags := r.2, value := r.1 }
  else
    let r := reduceF op vl (xs.map fun x => (laneTo32 t x.1, x.2))
    if op = 5 ∨ op = 6 then { VOut.none_ with bytes := leBytes 4 r.1, flags := r.2, value := r.1 }
    else
      let raw := laneOf32 t r.1
      let beyond := if (f32 r.1).isFin && laneInf t raw then
          (match xs.getLast? with | some y => [(⟨4, some y.2⟩ : Flag)] | none => []) else []
      { VOut.none_ with bytes := leBytes (laneBytes t) raw, flags := r.2 ++ beyond, value := laneTo32 t raw }

/-- VSOFTMAX on group `g` (R126, R229): the group's partial in order, then exp(s − m) / l for each element. -/
def vsoftmax (w vl g : Nat) (a : List Byte) : VOut :=
  let t := vType w
  let n := laneBytes t
  let xs := (groupElems t vl g (vG w) a).map fun x => laneTo32 t x.1
  let p := xs.foldl (fun p x => Partial.merge 11 p ⟨x, one32, []⟩) (Partial.empty 0)
  let out := fun (x : Nat) =>
    if f32IsNan p.m || f32IsNan p.l then nan32
    else if (f32 p.l).isZero then 0
    else f32Div (f32Exp 11 (f32Sub x p.m)) p.l
  let vs := (List.range (vG w)).flatMap fun j => (lanes n (g * vG w + j) a).zipIdx.map fun xk =>
    if xk.2 < vl then
      let r := laneOf32 t (out (laneTo32 t xk.1))
      (r, laneFlags t false r ((g * vG w + j) * 64 + xk.2))
    else (0, [])
  { VOut.none_ with
    bytes := vs.flatMap fun r => leBytes n r.1
    flags := vs.flatMap (·.2) ++ if xs.isEmpty then [(⟨1, none⟩ : Flag)] else []
    value := p.lse 11 }

/-! ### Conversion (R98 to R103, R110 to R112, R206) -/

/-- FP32 words of whole blocks converted into a format, with their flags by element number `at_` (R110 to R112, R219): element bytes, and the
blocks' scale bytes. -/
def convertVec (c : Enc) (at_ : Nat → Nat) (xs : List Nat) : VOut :=
  if c.blocked then
    let blocks := (List.range (xs.length / c.block)).map fun j =>
      (j, convertBlock c (((xs.drop (j * c.block)).take c.block).map f32))
    { VOut.none_ with
      bytes := c.pack (blocks.flatMap (·.2.codes))
      scales := blocks.flatMap fun b => leBytes 1 b.2.scale
      flags := blocks.flatMap fun b => (b.2.nanAt.map fun i => ⟨0, some (at_ (b.1 * c.block + i))⟩) ++
        b.2.satAt.map fun i => ⟨2, some (at_ (b.1 * c.block + i))⟩
      sat := (blocks.map (·.2.sat)).sum
      scale := (blocks.map (·.2.ovf)).sum }
  else
    let f := if c = .fp16 then fp16 else bf16
    let rs := xs.zipIdx.map fun xi =>
      let raw := f.encode (f32 xi.1)
      let sat := (f32 xi.1).isFin && (f.decode raw).isInf
      (raw, (if f32IsNan xi.1 then [(⟨0, some (at_ xi.2)⟩ : Flag)] else []) ++ (if sat then [(⟨2, some (at_ xi.2)⟩ : Flag)] else []), flag sat)
    { VOut.none_ with
      bytes := rs.flatMap fun r => leBytes 2 r.1
      flags := rs.flatMap (·.2.1)
      sat := (rs.map (·.2.2)).sum }

/-- The elements of a row of `k` elements in the layout of R219, as FP32 words. -/
def rowWords (c : Enc) (row : List Byte) (k : Nat) : List Nat :=
  (c.elems row (row.drop (c.bytes k)) 0 k).map fun x => to32 x.num

/-- VCVT on vector `v` (R205, R206): a vector of a row's elements as FP32, or the elements and scales of a vector of FP32. FP32 stands for
itself. -/
def vcvt (w vl v : Nat) (a : List Byte) : VOut :=
  match encOf (cvtFmt w) with
  | none => VOut.none_
  | some c =>
    if cvtFrom w then
      let n := beats (cvtRow w vl) * 64
      let ws := ((rowWords c ((a.drop (v / vG w * n)).take n) (vG w * vl)).drop (v % vG w * vl)).take vl
      { VOut.none_ with
        bytes := padTo 256 0 (ws.flatMap (leBytes 4))
        flags := ws.zipIdx.flatMap fun xi => if f32IsNan xi.1 then [(⟨0, some (v * 64 + xi.2)⟩ : Flag)] else [] }
    else
      let out := convertVec c (fun i => v * 64 + i) ((lanes 4 v a).take vl)
      { out with value := out.sat }

/-! ### Instructions -/

/-- What unit `u` of a VOP produces from its operands' bytes, at the vector length that the word or `slot` gives; `open_` is the value that no
rule states. -/
def vop (w slot open_ u : Nat) (a b c : List Byte) : VOut :=
  let (vl, clamped) := vopVl w slot
  let out :=
    if vFn w = 0x10 then vred w vl u open_ a
    else if vFn w = 0x11 then vsoftmax w vl u a
    else if vFn w = 0x12 then vcvt w vl u a
    else if vFn w = 0x13 then vperm w vl u a b
    else elementwise w vl u a b c
  if clamped then { out with flags := out.flags ++ [⟨3, none⟩] } else out

/-- Whether unit `u` ends an instruction's run of packed bytes: a row of a VCVT to a format (R206), or the instruction. -/
def unitCloses (w u : Nat) : Bool :=
  decide (u + 1 = veUnits w) || (decide (opc w = opVOP ∧ vFn w = 0x12) && !cvtFrom w && decide ((u + 1) % vG w = 0))

/-- An empty summary. -/
def noTally : Machine.Tally := ⟨0, 0xFFFFFFFF, 0, 0⟩

/-- A summary with what one more unit adds (R233, R234): VCMP and VCVT sum their VALUE, a reduction keeps its last group's. -/
def tallyAdd (x : Machine.Tally) (w : Nat) (o : VOut) : Machine.Tally where
  flags := x.flags ||| ofBitSet ((o.flags.map (·.bit)).eraseDups)
  first := (o.flags.filterMap (·.at_)).foldl min x.first
  count := x.count + o.count
  value := if opc w = opVOP ∧ (vFn w = 0x0D ∨ vFn w = 0x12) then x.value + o.value else o.value

/-- The summary of an instruction (R233) (DESIGN CHOICE log 27). -/
def summaryOf (w : Nat) (x : Machine.Tally) : Nat :=
  opc w * 2 ^ 120 + (if opc w = opVOP then vFn w else 0) * 2 ^ 112 + x.flags * 2 ^ 104 + satTo 0xFFFFFFFF x.count * 2 ^ 64 +
    x.first * 2 ^ 32 + x.value % 2 ^ 32

/-- Whether an instruction pushes a summary (R233). -/
def wantsSummary (w : Nat) : Bool := if opc w = opVGATHER then gSumm w else decide (opc w = opVOP) && vSumm w

end Sys2Proof.Enc7
end

