-- ==== Sys2Proof/Machine/MatrixOps.lean ====
section
/-! DEFINITION. The arithmetic of the matrix engine: what an MMA computes from the beats that it pops, and the mirage check of its sampled
tiles (R106 to R109, R113 to R115, R118, R119, R219 to R226). -/

set_option Elab.async false

namespace Sys2Proof.Enc7

open Sys2Proof

/-! ### Operands -/

/-- The row of index `i` of an operand whose rows start on new beats. -/
def beatRow (bs : List Byte) (bytes i : Nat) : List Byte := (bs.drop (i * 64 * beats bytes)).take bytes

/-- A row's elements, block numbers kept apart by factors of four so that escape entries can number their own scales. -/
def rowElems (c : Enc) (row : List Byte) (k : Nat) : List Elem :=
  (c.elems row (row.drop (c.bytes k)) 0 k).map fun x => { x with blk := x.blk * 4 }

/-- The escape stream of an MMA (R224): its bitmap words and its entries. -/
structure Esc where
  words : List Byte
  entries : List Byte
  deriving DecidableEq, Repr

/-- The parts of QE's bytes: ceil(blocks / 64) words of 16 bytes, four to a beat, then the entries. -/
def escOf (qe : List Byte) (blocks : Nat) : Esc :=
  let n := (blocks + 63) / 64
  ⟨padTo (16 * n) 0 qe, qe.drop (64 * ((n + 3) / 4))⟩

/-- The entry of block `b`, none where it is not escaped (R113, R114, R224); an entry past the stream's end is some empty list. -/
def Esc.entry (x : Esc) (kt : Bool) (b : Nat) : Option (List Byte) :=
  let map := field x.words (16 * (b / 64)) 8
  let base := field x.words (16 * (b / 64) + 8) 4
  let first := field x.words 8 4
  if bit map (b % 64) then
    let i := base + popCount (b % 64) map - first
    let n := if kt then 128 else 64
    some (if first ≤ base + popCount (b % 64) map ∧ (i + 1) * n ≤ x.entries.length then (x.entries.drop (i * n)).take n else [])
  else none

/-- A weight column's elements with escaped blocks replaced (R115, R224). -/
def weightCol (c : Enc) (k n : Nat) (col : List Byte) (esc : Option Esc) : List Elem :=
  let xs := rowElems c col k
  match esc with
  | none => xs
  | some e =>
    let per := k / c.block
    (List.range per).flatMap fun j =>
      match e.entry (c = .kt) (n * per + j) with
      | none => (xs.drop (j * c.block)).take c.block
      | some [] => nanElems (c = .kt) (4 * j)
      | some b => escapeElems (c = .kt) b j

/-! ### Results (R220, R225) -/

/-- What an MMA produces: the bytes that it pushes, and its counts for ME_SENT_SCALE and ME_SENT_SAT. -/
structure MOut where
  bytes : List Byte
  scale : Nat
  sat : Nat
  deriving DecidableEq, Repr

/-- The operands of an MMA: activation rows, starting accumulators by row and column, and weight columns. -/
structure MIn where
  rows : List (List Elem)
  start : List (List Nat)
  cols : List (List Elem)
  deriving DecidableEq, Repr

/-- The operands from the bytes popped; `kept` is the weight stream of the tile that the array keeps. -/
def mmaIn (w : Nat) (qa qc qw qe : List Byte) : Option MIn :=
  match encOf (mAfmt w), encOf (mWfmt w) with
  | some ca, some cw =>
    let ra := rowBytes ca (mK w)
    let rw_ := rowBytes cw (mK w)
    let esc := if mEsc w then some (escOf qe (mN w * (mK w / cw.block))) else none
    some {
      rows := (List.range (mM w)).map fun i => rowElems ca (beatRow qa ra i) (mK w)
      start := (List.range (mM w)).map fun i => (List.range (mN w)).map fun n =>
        if mAcc w then field (beatRow qc (4 * mN w) i) (4 * n) 4 else 0
      cols := (List.range (mN w)).map fun n => weightCol cw (mK w) n ((qw.drop (n * rw_)).take rw_) esc }
  | _, _ => none

/-- Whether the formats of an MMA form groups (R106, R108). -/
def mmaBlocked (w : Nat) : Bool := decide (mWfmt w ≠ 4 ∧ mWfmt w ≠ 5)

/-- An output element: the accumulator rounded once into OFMT, with the saturation that the rounding counts (R225). -/
def mmaElem (ofmt : Nat) (a : Acc) : List Byte × Nat :=
  if ofmt = 0 then (leBytes 4 a.w, 0)
  else
    let f := if ofmt = 1 then bf16 else fp16
    let r := f.encode (f32 a.w)
    (leBytes 2 r, flag ((f32 a.w).isFin && (f.decode r).isInf))

/-- The outputs of an MMA (R220, R225). -/
def mma (w : Nat) (x : MIn) : MOut :=
  let rows := (x.rows.zip x.start).map fun rs =>
    let accs := (x.cols.zip rs.2).map fun cs => dot (mmaBlocked w) (Acc.start cs.2) rs.1 cs.1
    let es := accs.map (mmaElem (mOfmt w))
    (padTo (64 * beats (mN w * outBytes w)) 0 (es.flatMap (·.1)), (accs.map (·.ovf)).sum, (accs.map (·.sat)).sum + (es.map (·.2)).sum)
  ⟨rows.flatMap (·.1), (rows.map (·.2.1)).sum, (rows.map (·.2.2)).sum⟩

/-! ### Tiles (R217, R220, R226) -/

/-- The width of a column tile (R220). -/
def colTile (w : Nat) : Nat :=
  let c := rowBytesOf (mWfmt w) (mK w) + if mEsc w then 2 * mK w else 0
  min 128 (524288 / c)

/-- Depth tiles, row groups and column tiles of an MMA, the tiles of one column tile, and all its tiles (R220, R226). -/
def mmaDepths (w : Nat) : Nat := (mK w + tileDepth (mWfmt w) - 1) / tileDepth (mWfmt w)
def mmaGroups (w : Nat) : Nat := (mM w + 15) / 16
def mmaCols (w : Nat) : Nat := (mN w + colTile w - 1) / colTile w
def mmaPerCol (w : Nat) : Nat := mmaDepths w * mmaGroups w
def mmaTiles (w : Nat) : Nat := mmaCols w * mmaPerCol w

/-- Tile `n` of an MMA in issue order, as (first column, columns, first K, depth, first row, rows). -/
def mmaTile (w n : Nat) : Nat × Nat × Nat × Nat × Nat × Nat :=
  let cw := colTile w
  let t := tileDepth (mWfmt w)
  let i := n / mmaPerCol w
  let j := n % mmaPerCol w / mmaGroups w
  let r := n % mmaGroups w
  (i * cw, min cw (mN w - i * cw), j * t, min t (mK w - j * t), r * 16, min 16 (mM w - r * 16))

/-- QW beats that fill the first `c` column tiles (R219, R220). -/
def colBeats (w c : Nat) : Nat := beats (min (mN w) (c * colTile w) * rowBytesOf (mWfmt w) (mK w))

/-- Blocks of one weight column, QE beats of the bitmap part, and bytes of one entry (R114, R224). -/
def escPer (w : Nat) : Nat := mK w / (if mWfmt w = 8 then 80 else 32)
def escMapBeats (w : Nat) : Nat := ((mN w * escPer w + 63) / 64 + 3) / 4
def escBytes (w : Nat) : Nat := if mWfmt w = 8 then 128 else 64

/-- QE beats that hold the bitmap part and the escape entries of the first `c` column tiles, read from the bitmap part `qe` (R220, R224). -/
def escBeats (w c : Nat) (qe : List Byte) : Nat :=
  let x := escOf qe (mN w * escPer w)
  let first := field x.words 8 4
  let ends := (List.range (min (mN w) (c * colTile w) * escPer w)).map fun b =>
    let map := field x.words (16 * (b / 64)) 8
    let i := field x.words (16 * (b / 64) + 8) 4 + popCount (b % 64) map
    if bit map (b % 64) ∧ first ≤ i then i - first + 1 else 0
  escMapBeats w + beats (ends.foldl max 0 * escBytes w)

/-- The bytes of depth `k0` to `k0 + kn` of one weight column: its elements, then the scales of its blocks (R219). -/
def colPart (c : Enc) (k k0 kn : Nat) (col : List Byte) : List Byte :=
  ((col.take (c.bytes (k0 + kn))).drop (c.bytes k0)) ++
    (if c.blocked then ((col.drop (c.bytes k)).take ((k0 + kn + c.block - 1) / c.block)).drop (k0 / c.block) else [])

/-- The weights of the last tile that an MMA loads into the array, which keeps them (R223), from its weight stream. -/
def lastTile (w : Nat) (qw : List Byte) : List Byte :=
  match encOf (mWfmt w) with
  | none => []
  | some c =>
    let (c0, cn, k0, kn, _, _) := mmaTile w (mmaTiles w - 1)
    let n := rowBytes c (mK w)
    (List.range cn).flatMap fun j => colPart c (mK w) k0 kn ((qw.drop ((c0 + j) * n)).take n)

/-! ### Staging (R221, R229) -/

/-- Staging bytes that an MMA needs: activations beyond 524,288 bytes, accumulators beyond 65,536 and bitmap bytes beyond 64 KiB. -/
def mmaStaging (w : Nat) : Nat :=
  let bitmap := if mEsc w then 16 * ((mN w * escPer w + 63) / 64) else 0
  (mM w * 64 * beats (rowBytesOf (mAfmt w) (mK w)) - 524288) + 4 * (mM w * mN w - 65536) + (bitmap - 65536)

/-- Staging bytes that a VSOFTMAX needs beyond its group buffer of 256 FP32 vectors. -/
def softmaxStaging (w : Nat) : Nat := if vFn w = 0x11 then (vG w - 256) * 256 else 0

/-! ### The mirage check (R118, R119, R226) -/

/-- The reference sum of R118: each element times its scale in FP32, products and sums in FP32 in ascending K. -/
def refSum (xs ys : List Elem) : Nat :=
  (xs.zip ys).foldl (fun acc p => f32Add acc (f32Mul (to32 p.1.num) (to32 p.2.num))) 0

/-- Whether an element passes (R119), with A the largest finite |y| of the tile. -/
def miragePass (tol : Nat) (a : Num) (x y : Nat) : Bool :=
  let fx := f32 x
  let fy := f32 y
  if fx.isNan && fy.isNan then true
  else if fx.isInf && fy.isInf then decide (x = y)
  else fx.isFin && fy.isFin &&
    ((fx.sub fy).abs.mul (.fin false 1 tol)).le (fy.abs.add (a.mul (.fin false 1 (-8))))

/-- Whether a tile fails its check. -/
def tileFails (w tol : Nat) (x : MIn) (t : Nat × Nat × Nat × Nat × Nat × Nat) : Bool :=
  let (c0, cn, k0, kn, r0, rn) := t
  let cut := fun (l : List Elem) => (l.drop k0).take kn
  let pairs := ((x.rows.drop r0).take rn).flatMap fun r => ((x.cols.drop c0).take cn).map fun c =>
    ((dot (mmaBlocked w) (Acc.start 0) (cut r) (cut c)).w, refSum (cut r) (cut c))
  let a := maxFinite (pairs.map fun p => f32 p.2)
  pairs.any fun p => !miragePass tol a p.1 p.2

/-- The tiles that an engine runs before its next sampled one: one in every 2^RATE tiles is sampled, of which `before` have been counted
(DEDUCED log 23); none for a RATE of 0, which samples none. -/
def tilesBefore (rate before : Nat) : Option Nat := if rate = 0 then none else some (2 ^ rate - 1 - before % 2 ^ rate)

end Sys2Proof.Enc7
end

