-- ==== Sys2Proof/Machine/CoreOps.lean ====
section
/-! DEFINITION. Cores: windows, stream faults, replay slots, tokens, queues, jobs and the replay check (chapters 06 to 08). -/

set_option Elab.async false

namespace Sys2Proof.Machine

open Sys2Proof Enc7

/-- A core. -/
def State.core (s : State) (d c : Nat) : Core := mget freshCore s.cores (d * 64 + c)

/-- The state with a core replaced by its image. -/
def State.onCore (s : State) (d c : Nat) (f : Core → Core) : State := { s with cores := mput s.cores (d * 64 + c) (f (s.core d c)) }

/-- The state with the control core's part replaced. -/
def State.onCc (s : State) (d c : Nat) (f : Ctl → Ctl) : State := s.onCore d c fun k => { k with cc := f k.cc }

/-- The base of a core's scratchpad and its size; the base of a cluster's buffer and its size (R46). -/
def spmBase (d c : Nat) : Nat := 0x200000000000 + d * 2 ^ 30 + c * 0x800000
def spmSize : Nat := 0x600000
def bufBase (d k : Nat) : Nat := 0x200000000000 + d * 2 ^ 30 + 0x20000000 + k * 0x2000000
def bufSize : Nat := 0x2000000

/-- Whether [a, a + n) lies in a core's own scratchpad. -/
def inSpm (d c a n : Nat) : Bool := decide (spmBase d c ≤ a ∧ a + n ≤ spmBase d c + spmSize)

/-- Whether [a, a + n) lies in memory in either view. -/
def State.allMem (s : State) (a n : Nat) : Bool := (piecesOf a n).all fun p => match s.resolve p.1 with | .mem _ => true | _ => false

/-- Whether [a, a + n) lies in one window: memory by its bytes in either view, anything else by address. -/
def rangeHolds (base size a n : Nat) : Bool :=
  if 0x200000000000 ≤ a then decide (base ≤ a ∧ a + n ≤ base + size) else bytesWithin base size a n

/-- Whether every address of [a, a + n) lies in an allocation window of a core, line by line (R172). -/
def Core.windowed (k : Core) (a n : Nat) : Bool :=
  decide (a + n ≤ 2 ^ 48) && (piecesOf a n).all fun p => k.windows.any fun w => rangeHolds w.1 w.2 p.1 p.2

/-- Whether the access engine may access [a, a + n): its own scratchpad, its cluster's buffer or memory, within a window (R172). -/
def State.aeReaches (s : State) (d c a n : Nat) : Bool :=
  (s.core d c).windowed a n &&
    (inSpm d c a n || decide (bufBase d (c / 16) ≤ a ∧ a + n ≤ bufBase d (c / 16) + bufSize) || s.allMem a n)

/-- The task of a core, 0 for none. -/
def Core.taskNo (k : Core) : Nat := k.task.getD 0

/-- Stream `x` of a core, false for the access stream. -/
def Core.stream (k : Core) (x : Bool) : Stream := if x then k.sx else k.sa

/-- The core with a stream replaced by its image. -/
def Core.onStream (k : Core) (x : Bool) (f : Stream → Stream) : Core := if x then { k with sx := f k.sx } else { k with sa := f k.sa }

/-- The pattern entry of a LOAD or STORE. -/
def Core.pattern (k : Core) (w : Nat) : List Byte := padTo 64 0 (mget [] k.pats (pat w))

/-! ### Faults of a core (R182, R183) -/

/-- The bytes of a word that DE0's STORE walks still hold written: walks in flight are completed before a fault is recorded (R183)
(DESIGN CHOICE log 37). -/
def State.flushWalks (s : State) (d c : Nat) : State :=
  ((s.core d c).jobs.filter fun j => j.de0 && decide (opc j.word = opSTORE ∧ j.tail ≠ [])).foldl (fun s j =>
    let a := (walkWord ((s.core d c).pattern j.word) j.base (j.pos - j.tail.length)).1
    if s.aeReaches d c a j.tail.length then s.writeBytes a j.tail else s) s

/-- Both streams stop at once, issued instructions are abandoned but for DE0's walks in flight, and the control core is interrupted to abort the
task (R183). -/
def State.stopCore (s : State) (d c id : Nat) : State :=
  (s.flushWalks d c).onCore d c fun k => { k with
    sa := { k.sa with running := false }
    sx := { k.sx with running := false }
    jobs := []
    de0 := k.de0.filter fun x => x.walk.isNone
    hold := none
    signals := []
    faulted := some (k.faulted.getD id)
    cc := { k.cc with abortDue := true } }

/-- A class N fault of a core that aborts its task (R183). -/
def State.coreFault (s : State) (d c id detail : Nat) : State :=
  (s.raise d id (.core c) (s.core d c).taskNo detail).stopCore d c id

/-- What SFE_FAULT_INFO holds for a stream fault (R184). -/
def faultInfo (kind : Nat) (x : Bool) (q cls index : Nat) : Nat := 2 ^ 31 + kind * 2 ^ 24 + flag x * 2 ^ 23 + q * 2 ^ 16 + cls * 2 ^ 12 + index % 4096

/-- A stream fault recorded in SFE_FAULT_INFO and SFE_FAULT_REPLAY (R183, R184). -/
def State.recordStream (s : State) (d c info replay : Nat) : State :=
  (s.setReg d .SFE_FAULT_INFO c 0 (BitVec.ofNat 32 info)).setReg d .SFE_FAULT_REPLAY c 0 (BitVec.ofNat 32 replay)

/-- A stream fault (R182 to R184): recorded, raised, and the streams stopped. -/
def State.streamFault (s : State) (d c kind : Nat) (x : Bool) (q cls index replay : Nat) : State :=
  if (s.core d c).faulted.isSome then s
  else
    let info := faultInfo kind x q cls index
    (s.recordStream d c info replay).coreFault d c (0x4300 + kind) (info + replay * 2 ^ 32)

/-! ### Instructions, slots and tokens -/

/-- The word at index `i` of a stream's instruction memory. -/
def Core.fetch (k : Core) (x : Bool) (i : Nat) : Nat := (mget (0 : IWord) (if x then k.xmem else k.amem) i).toNat

/-- The word that a stream issues next. -/
def Core.next (k : Core) (x : Bool) : Nat := k.fetch x (k.stream x).pc

/-- A replay slot before any use. -/
def freshSlotR : RSlot := ⟨0, [], [], [], [], []⟩

/-- The slot of replay `r` (R178). -/
def Core.slot (k : Core) (r : Nat) : RSlot := mget freshSlotR k.slots (r % 4)

/-- The core with a replay's slot replaced by its image. -/
def Core.onSlot (k : Core) (r : Nat) (f : RSlot → RSlot) : Core := { k with slots := mput k.slots (r % 4) (f (k.slot r)) }

/-- The value of Pn in the slot of replay `r`. -/
def Core.preg (k : Core) (r n : Nat) : Nat := ((k.slot r).params[n]?).getD 0

/-- A 64-bit register value plus a signed offset. -/
def plusOff (v : Nat) (o : Int) : Nat := (((v : Int) + o) % (2 ^ 64 : Int)).toNat

/-- One more in a count. -/
def bump (m : NMap Nat) (k : Nat) : NMap Nat := mput m k (mget 0 m k + 1)

/-- Counts against the replay of an instruction (R178). -/
def Core.countPush (k : Core) (r q : Nat) : Core := k.onSlot r fun z => { z with pushed := bump z.pushed q }
def Core.countPop (k : Core) (r q : Nat) : Core := k.onSlot r fun z => { z with popped := bump z.popped q }
def Core.countEmit (k : Core) (r t : Nat) : Core := k.onSlot r fun z => { z with emitted := bump z.emitted t }

/-- The token of an instruction consumed as it issues (R175). -/
def Core.consume (k : Core) (r w : Nat) : Core :=
  match requires w with
  | some t => { k.onSlot r (fun z => { z with consumed := bump z.consumed t }) with counters := mput k.counters t (mget 0 k.counters t - 1) }
  | none => k

/-- A token credited, or SFE_TOKEN_OVERFLOW (R175, R176). -/
def State.credit (s : State) (d c cls replay : Nat) (x : Bool) (index : Nat) : State :=
  let k := s.core d c
  if mget 0 k.bounds cls ≤ mget 0 k.counters cls then s.streamFault d c 2 x 0 cls index replay
  else s.onCore d c fun k => ({ k with counters := bump k.counters cls } : Core).countEmit replay cls

/-- A token due for credit by TOKEN_CREDIT (R175, R211). -/
def Core.due (k : Core) (w replay : Nat) (x : Bool) (index : Nat) : Core :=
  match emits w with
  | some t => { k with credits := k.credits ++ [(⟨t, replay, x, index⟩ : Credit)] }
  | none => k

/-- Whether an instruction's token is available (R175). -/
def Core.tokenOk (k : Core) (w : Nat) : Bool := match requires w with | some t => decide (1 ≤ mget 0 k.counters t) | none => true

/-- Whether an OCALL of the execute stream has not returned (R250). -/
def Core.inOcall (k : Core) : Bool := k.jobs.any fun j => j.x && opc j.word = opOCALL

/-- Whether a stream issues an instruction with opcode `o` now, the engine's own conditions apart (R170, R174, R180). -/
def Core.issues (k : Core) (x : Bool) (o : Nat) : Bool :=
  let st := k.stream x
  st.running && st.inBlock && !st.closed && k.faulted.isNone && decide (k.patchDue ≠ some st.replay) && decide (opc (k.next x) = o) &&
    k.tokenOk (k.next x) && (if x then !k.inOcall else k.hold.isNone)

/-- A stream's next instruction taken: its token consumed and the index advanced. -/
def Core.issued (k : Core) (x : Bool) : Core :=
  (k.consume (k.stream x).replay (k.next x)).onStream x fun st => { st with pc := st.pc + 1 }

/-- The job of a stream's next instruction. -/
def Core.newJob (k : Core) (x : Bool) (base arg : Nat) (de0 : Bool) (e : List Byte) : Job where
  id := k.jobNext
  x := x
  index := (k.stream x).pc
  word := k.next x
  replay := (k.stream x).replay
  base := base
  arg := arg
  de0 := de0
  pos := 0
  pops := (popsFrom (k.next x) arg e).map fun p => ⟨p.1, p.2.1, p.2.2, [], decide (p.2.1 = some 0)⟩
  units := 0
  formed := false
  tail := []
  scales := []
  pushes := []
  pushQ := pushesTo (k.next x)
  tally := noTally

/-- The core with a job added behind those that run. -/
def Core.addJob (k : Core) (j : Job) : Core := { k with jobs := k.jobs ++ [j], jobNext := k.jobNext + 1 }

/-- The core with a job replaced by its image. -/
def Core.onJob (k : Core) (id : Nat) (f : Job → Job) : Core := { k with jobs := k.jobs.map fun j => if j.id = id then f j else j }

/-- Whether an engine has accepted the LAST pop of its previous instruction (R174). -/
def Core.engineFree (k : Core) (e : Nat) : Bool := (k.jobs.filter fun j => j.x && engineOf j.word = e).all fun j => j.pops.all (·.done)

/-! ### Pattern walks -/

/-- The place in a walk of its next word access: behind the bytes that a LOAD has read, at the start of those that a STORE holds. -/
def Job.wordPos (j : Job) : Nat := if opc j.word = opLOAD then j.pos + j.tail.length else j.pos - j.tail.length

/-- The word accesses of a walk's next beat (R173): those that a LOAD has to read for it, or those that a STORE completes with it; `last`
says that the walk ends with this beat. -/
def Core.walkNext (k : Core) (j : Job) (last : Bool) : List (Nat × Nat) :=
  let ps := walkWords (k.pattern j.word) j.base (j.pos + 64) 128 j.wordPos
  if opc j.word = opLOAD ∨ last then ps
  else
    let past := j.wordPos + (ps.map (·.2)).sum - (j.pos + 64)
    if past = 0 then ps else ps.dropLast

/-- Whether DE0 runs a job's walk now: it is at the head of its queue (R172). -/
def Core.walkTurn (k : Core) (j : Job) : Bool :=
  !j.de0 || (match k.de0.head? with | some x => x.walk = some j.id | none => false)

/-- DE0's item for a walk. -/
def walkXfer (id job index replay : Nat) : Xfer where
  id := id
  desc := []
  src := []
  dst := []
  idx := []
  walk := some job
  marker := none
  arrived := false
  fence := false
  index := index
  replay := replay
  tok := none
  ran := false
  status := 0
  reason := 0
  flags := 0
  bytes := 0
  count := 0
  next := 0
  nextAt := 0
  seq := none

/-- Whether the pieces of a walk can be accessed now: scratchpads and buffers at once, memory as its order points serve it. -/
def State.walkReady (s : State) (d c : Nat) (ps : List (Nat × Nat)) (write : Bool) : Bool :=
  ps.all fun p => s.ready (.engine d c 4) p.1 p.2 write

/-- The host requests that a walk's next pieces need, issued. -/
def State.walkAsk (s : State) (d c : Nat) (ps : List (Nat × Nat)) (write : Bool) : State :=
  ps.foldl (fun s p => s.ask (.engine d c 4) p.1 p.2 write) s

/-- A walk that is over leaves DE0's queue. -/
def Core.dropWalk (k : Core) (id : Nat) : Core := { k with de0 := k.de0.filter fun x => x.walk ≠ some id }

/-- A read of a poisoned line by DE0 or DE1: the class N fault of R61, which aborts the task (R272). -/
def State.poisonRead (s : State) (d c a : Nat) : State :=
  s.coreFault d c 0x4102 (match s.resolve a with | .mem p => p / 64 * 64 | _ => 0)

/-! ### Pushes pending (R168) -/

/-- Whether some instruction of a stream from index `i` up to the block's ENDBLOCK pushes queue `q`. -/
def Core.pushesFrom (k : Core) (x : Bool) (q : Nat) : Nat → Nat → Bool
  | 0, _ => false
  | n + 1, i =>
    let w := k.fetch x i
    if opc w = opENDBLOCK ∨ opc w = opEND then false else decide (pushesTo w = some q) || k.pushesFrom x q n (i + 1)

/-- The index after a stream's BLOCK: of the block that it runs, or of the one that it opens next. -/
def Core.blockStart (k : Core) (x : Bool) : Nat := if (k.stream x).inBlock then (k.stream x).start else (k.stream x).pc + 1

/-- Whether a stream's program of the block pushes a queue. -/
def Core.produces (k : Core) (x : Bool) (q : Nat) : Bool := k.pushesFrom x q 4096 (k.blockStart x)

/-- Whether a stream still has to issue an instruction of replay `r` that pushes a queue: it has not issued all of that replay, or has not yet
opened the block in which its partner stands. -/
def Core.toPush (k : Core) (x : Bool) (q r : Nat) : Bool :=
  let st := k.stream x
  st.running && k.produces x q &&
    (if st.inBlock then decide (st.replay < r) || (decide (st.replay = r) && !st.closed && k.pushesFrom x q 4096 st.pc)
     else (k.stream !x).inBlock)

/-- Whether pushes to a queue are pending for a pop of replay `r` (R168): an issued instruction of replay `r` or before that pushes it has not
retired, or a stream still has to issue one. -/
def Core.pending (k : Core) (q r : Nat) : Bool :=
  (k.jobs.any fun j => decide (j.pushQ = some q ∧ j.replay ≤ r)) || k.toPush false q r || k.toPush true q r

/-! ### Results -/

/-- The bytes of operand `i` of a job. -/
def Job.operand (j : Job) (i : Nat) : List Byte := match j.pops[i]? with | some p => p.got.flatten | none => []

/-- Bytes as beats, the last filled with zeros (R169). -/
def toBeats (bs : List Byte) : Nat → List (List Byte)
  | 0 => []
  | n + 1 => if bs.isEmpty then [] else padTo 64 0 (bs.take 64) :: toBeats (bs.drop 64) n

/-- Whether an earlier instruction of a job's engine has not retired. -/
def Core.behind (k : Core) (j : Job) : Bool := (k.jobs.takeWhile fun y => y.id ≠ j.id).any fun y => y.x && engineOf y.word = engineOf j.word

/-- The places of QC, QE and QW among the operands of an MMA. -/
def placeQC : Nat := 1
def placeQE (w : Nat) : Nat := if mAcc w then 2 else 1
def placeQW (w : Nat) : Nat := placeQE w + if mEsc w then 1 else 0

/-- Beats that a job has popped of operand `i`, and whether it has all of them. -/
def Job.popped (j : Job) (i : Nat) : Nat := match j.pops[i]? with | some p => p.got.length | none => 0
def Job.poppedAll (j : Job) (i : Nat) : Bool := match j.pops[i]? with | some p => p.done | none => true

/-- Whether an MMA has its activations and starting accumulators (R220 steps 1 and 2). -/
def Job.mmaBegun (j : Job) : Bool := j.poppedAll 0 && (!mAcc j.word || j.poppedAll placeQC)

/-- The column tile on which the array works. -/
def Job.mmaCol (j : Job) : Nat := j.units / mmaPerCol j.word

/-- QE beats that an MMA needs for its first `c` column tiles. -/
def Job.escNeed (j : Job) (c : Nat) : Nat :=
  if j.popped (placeQE j.word) < escMapBeats j.word then escMapBeats j.word else escBeats j.word c (j.operand (placeQE j.word))

/-- Whether the weights and escape entries of an MMA's first `c` column tiles are in the weight store (R220 step 4). -/
def Job.mmaFilled (j : Job) (c : Nat) : Bool :=
  let w := j.word
  (mKeep w || j.poppedAll (placeQW w) || decide (colBeats w c ≤ j.popped (placeQW w))) &&
    (!mEsc w || j.poppedAll (placeQE w) || decide (j.escNeed c ≤ j.popped (placeQE w)))

/-- Whether an MMA pops operand `i` now, by the steps of R220: weights and escape entries for the column tile on which the array works and
the one after it, the rest of QE once every output row is pushed. -/
def Core.mmaPops (k : Core) (j : Job) (i phase : Nat) : Bool :=
  let w := j.word
  let map := !mEsc w || j.poppedAll (placeQE w) || decide (escMapBeats w ≤ j.popped (placeQE w))
  if phase = 0 then (k.jobs.takeWhile fun y => y.id ≠ j.id).all fun y => decide (opc y.word ≠ opMMA) || y.formed
  else if k.behind j then false
  else if phase = 1 then j.poppedAll 0
  else if !j.mmaBegun then false
  else if phase = 2 then !map || decide (j.popped i < j.escNeed (j.mmaCol + 2)) || (j.formed && j.pushes.isEmpty)
  else map && decide (j.popped i < colBeats w (j.mmaCol + 2))

/-- The tiles that the array runs next (R226): how many without a check, and whether a sampled one follows them. The array stops at the end of
the column tile, and before a sampled tile while the check buffer holds two. -/
def Core.mmaSpan (k : Core) (rate : Nat) (j : Job) : Nat × Bool :=
  let m := mmaPerCol j.word * (j.mmaCol + 1) - j.units
  match tilesBefore rate k.tiles with
  | none => (m, false)
  | some n => if m ≤ n then (m, false) else (n, decide (k.checks.length < 2))

/-- The operands of an MMA as far as they are popped. -/
def Core.mmaOperands (k : Core) (j : Job) : Option MIn :=
  let w := j.word
  mmaIn w (j.operand 0) (if mAcc w then j.operand placeQC else [])
    (if mKeep w then (match k.tile with | some t => t.bytes | none => []) else j.operand (placeQW w))
    (if mEsc w then j.operand (placeQE w) else [])

/-- Free bytes written to `n` bytes of a core's staging range from `off` on: the excess of an engine's stores, whose layout no rule states
(R221, R229) (DESIGN CHOICE log 27). -/
def State.stage (s : State) (d c off n : Nat) : State :=
  if n = 0 then s else s.fresh.2.writeBytes ((s.core d c).staging.1 + off) (leBytes n s.fresh.1)

/-- An MMA's output rows formed (R220 step 6, R223, R225, R128): its output beats, the kept tile and the sentinels. -/
def State.formMma (s : State) (d c : Nat) (j : Job) : State :=
  let w := j.word
  match (s.core d c).mmaOperands j with
  | none => s.onCore d c fun k => k.onJob j.id fun j => { j with formed := true }
  | some x =>
    let out := mma w x
    let s := (s.countFld d c 0 ME_SENT_SCALE.COUNT out.scale).countFld d c 0 ME_SENT_SAT.COUNT out.sat
    s.onCore d c fun k =>
      { k.onJob j.id (fun j => { j with formed := true, pushes := toBeats out.bytes (out.bytes.length / 64 + 1) }) with
        tile := if mKeep w then k.tile else some ⟨mWfmt w, mK w, mN w, lastTile w (j.operand (placeQW w))⟩ }

/-- The array's work on an MMA (R220 step 5, R226): its next tiles, with the check of a sampled one, or its output rows after the last
(DEDUCED log 23). -/
def State.workMma (s : State) (d c : Nat) (j : Job) : State :=
  let w := j.word
  let k := s.core d c
  if mmaTiles w ≤ j.units then s.formMma d c j
  else
    let x := k.mmaSpan (s.fld d c 0 ME_MIRAGE_CFG.RATE) j
    let check : List Check :=
      if x.2 then
        (match k.mmaOperands j with
         | some o => [⟨tileFails w (s.fld d c 0 ME_MIRAGE_CFG.TOL) o (mmaTile w (j.units + x.1)), j.index, j.replay⟩]
         | none => [])
      else []
    let n := x.1 + flag x.2
    (if j.units = 0 then s.stage d c 0 (mmaStaging w) else s).onCore d c fun k =>
      { k.onJob j.id (fun j => { j with units := j.units + n }) with tiles := k.tiles + n, checks := k.checks ++ check }

/-- The bytes of a unit put behind a job's earlier ones: whole beats to push, and what waits for more of its row (R206, R227). -/
def Job.put (j : Job) (dv closes last : Bool) (out : VOut) : Job :=
  let bytes := j.tail ++ out.bytes
  let scales := j.scales ++ out.scales
  let ready := if closes then bytes ++ scales else bytes.take (bytes.length / 64 * 64)
  { j with
    units := j.units + 1
    formed := last
    tail := if closes then [] else bytes.drop (bytes.length / 64 * 64)
    scales := if closes then [] else scales
    pushes := if dv then toBeats ready (ready.length / 64 + 1) else []
    tally := tallyAdd j.tally j.word out }

/-- A unit's output as its job's next results, and the counts of R128 and R235. -/
def State.formOut (s : State) (d c : Nat) (j : Job) (dv : Bool) (out : VOut) : State :=
  let s := (s.countFld d c 0 VE_SENT_SAT.COUNT out.sat).countFld d c 0 VE_SENT_SCALE.COUNT out.scale
  let s := s.countFld d c 0 VE_RANGE_COUNT.COUNT out.range
  s.onCore d c fun k => k.onJob j.id fun j => j.put dv (unitCloses j.word j.units) (j.units + 1 = veUnits j.word) out

/-- The next vector or group of a VOP (R227 to R234), with the value that no rule states free, and a group beyond VSOFTMAX's buffer at the high
end of the staging range (R229). -/
def State.formVop (s : State) (d c : Nat) (j : Job) : State :=
  let w := j.word
  let iB := if vAV w then 1 else 0
  let iC := iB + if vBV w then 1 else 0
  let out := vop w j.arg s.fresh.1 j.units (if vAV w then j.operand 0 else []) (if vBV w then j.operand iB else [])
    (if vCV w then j.operand iC else [])
  (s.fresh.2.stage d c ((s.core d c).staging.2 - softmaxStaging w) (softmaxStaging w)).formOut d c j (vDV w) out

/-- One lane of a gather (R231): the element at its index, whether the index is out of extent, and the address it reads, if any. -/
def gatherLane (table extent size index : Nat) : Option Nat :=
  if index < 2 ^ 31 ∧ index < extent then some ((table + index * size) % 2 ^ 64) else none

/-- The lanes of vector `v` of a gather that VL covers, as (element number, index), in lane order. -/
def gatherIndices (w v : Nat) (qi : List Byte) : List (Nat × Nat) :=
  ((lanes 4 v qi).take (gVl w)).zipIdx.map fun xl => (v * 64 + xl.2, xl.1)

/-- The next vector of a VGATHER (R231, R232): zero elements for out-of-extent indices, or with STRICT VE_GATHER_RANGE at the first; an
address outside the core's scratchpad or windows is SFE_ADDR. -/
def State.formGather (s : State) (d c : Nat) (j : Job) : State :=
  let w := j.word
  let k := s.core d c
  let size := gBytes w
  let ixs := gatherIndices w j.units (j.operand 0)
  let at_ := fun (i : Nat) => gatherLane j.base (j.arg % 2 ^ 32) size i
  let stop := ixs.find? fun ei => match at_ ei.2 with
    | none => gStrict w
    | some a => !(inSpm d c a size && k.windowed a size && (size ≠ 64 || a % 64 = 0))
  match stop with
  | some (e, i) =>
    if (at_ i).isSome then s.streamFault d c 6 true 0 0 j.index j.replay
    else
      let info := 2 ^ 31 + e % 64 * 2 ^ 12 + j.index % 4096
      let s := ((s.setReg d .VE_FAULT_INFO c 0 (BitVec.ofNat 32 info)).setReg d .VE_FAULT_VECTOR c 0 (BitVec.ofNat 32 (e / 64))).setReg
        d .VE_FAULT_VALUE c 0 (BitVec.ofNat 32 i)
      s.coreFault d c 0x4401 (info + e / 64 * 2 ^ 32)
  | none =>
    let lane := fun (l : Nat) =>
      if l < gVl w then
        match at_ (field (j.operand 0) ((j.units * 64 + l) * 4) 4) with
        | some a => s.seen a size
        | none => List.replicate size 0
      else List.replicate size 0
    let bad := ixs.filter fun ei => (at_ ei.2).isNone
    s.formOut d c j true
      { VOut.none_ with
        bytes := (List.range 64).flatMap lane
        flags := bad.map fun ei => ⟨3, some ei.1⟩
        count := bad.length
        range := bad.length }

/-- An engine's next work on a job (DESIGN CHOICE log 27). -/
def State.formJob (s : State) (d c : Nat) (j : Job) : State :=
  if opc j.word = opMMA then s.workMma d c j
  else if opc j.word = opVOP then s.formVop d c j
  else if opc j.word = opVGATHER then s.formGather d c j
  else s

/-- Whether an instruction of the VE pops operand `i` now: as far as the vector or group that it works on next needs (R227). -/
def Job.vePops (j : Job) (i : Nat) : Bool :=
  decide (j.popped i < veNeed j.word (vopVl j.word j.arg).1 (vopPlace j.word i) (j.units + 1))

/-- Whether the VE can work on a job now (R120, R227): its next unit is popped and the last one pushed, no check waits, and no earlier
instruction of the engine is under way. -/
def Core.veReady (k : Core) (j : Job) : Bool :=
  decide (j.units < veUnits j.word) && j.pushes.isEmpty && k.checks.isEmpty && !k.behind j &&
    (j.pops.zipIdx.all fun pi => !j.vePops pi.2)

/-- Whether the ME can work on a job now (R220, R226). -/
def Core.meReady (k : Core) (rate : Nat) (j : Job) : Bool :=
  !j.formed && !k.behind j && j.mmaBegun &&
    (decide (mmaTiles j.word ≤ j.units) ||
      (j.mmaFilled (j.mmaCol + 1) && (decide (0 < (k.mmaSpan rate j).1) || (k.mmaSpan rate j).2)))

/-- The first job on which an engine can work now. -/
def State.formable (s : State) (d c : Nat) : Option Job :=
  let k := s.core d c
  k.jobs.find? fun j =>
    if opc j.word = opMMA then k.meReady (s.fld d c 0 ME_MIRAGE_CFG.RATE) j
    else (decide (opc j.word = opVOP ∨ opc j.word = opVGATHER)) && k.veReady j

/-! ### Retirement and the replay check -/

/-- Whether a job is over: everything popped, formed and pushed, and room for its summary; an engine ends its instructions in order. -/
def Core.jobOver (k : Core) (j : Job) : Bool :=
  let o := opc j.word
  if o = opOCALL then false
  else if o = opLOAD then decide (patBytes (k.pattern j.word) ≤ j.pos)
  else if o = opSTORE then j.pops.all (·.done)
  else j.formed && j.pushes.isEmpty && j.pops.all (·.done) && !k.behind j && (!wantsSummary j.word || decide (k.cc.fifo.length < 16))

/-- Whether a job's token travels in no beat (R211): a STORE's, and that of an instruction that pushes nothing. -/
def Job.tokenLeft (j : Job) : Bool := decide (opc j.word = opSTORE) || (decide (opc j.word ≠ opLOAD) && (j.pushQ.isNone || decide (j.pos = 0)))

/-- A job that is over retires: its summary enters the FIFO, and a token that no beat carried becomes due (R175, R211, R233). -/
def Core.retire (k : Core) (j : Job) : Core :=
  let k := { k with jobs := k.jobs.filter (·.id ≠ j.id) }
  let k := if j.de0 then k.dropWalk j.id else k
  let k := if wantsSummary j.word then { k with cc := { k.cc with fifo := k.cc.fifo ++ [summaryOf j.word j.tally] } } else k
  if j.tokenLeft then k.due j.word j.replay j.x j.index else k

/-! ### Full and empty words (R276 to R280) -/

/-- Whether the word at a scratchpad offset is full. -/
def Core.isFull (k : Core) (off : Nat) : Bool := k.full.contains (off / 64)

/-- The core with a word set full or empty. -/
def Core.setWord (k : Core) (off : Nat) (full : Bool) : Core :=
  { k with full := if full then insertNat (off / 64) k.full else k.full.filter (· ≠ off / 64) }

/-- Whether the agent that `hold` stops waits on the word at `off`, and whether it consumes. -/
def holdsOn (h : Option Hold) (off : Nat) : Option Bool :=
  match h with
  | some (.word o cons) => if o / 64 = off / 64 then some cons else none
  | _ => none

/-- The access engine's WAIT passes: its token becomes due (R211). -/
def Core.passAe (k : Core) (off : Nat) (cons : Bool) : Core :=
  let k := if cons then k.setWord off false else k
  match k.hold with
  | some (_, w, r) => ({ k with hold := none } : Core).due w r false (k.sa.pc - 1)
  | none => k

/-- A routine's KWAIT passes. -/
def Core.passCc (k : Core) (off : Nat) (cons : Bool) : Core :=
  let k := if cons then k.setWord off false else k
  { k with cc := { k.cc with hold := none } }

/-- The waiters of a word that has become full released (R278): with two, a free value stands for the bank's round-robin order, and the
first that consumes ends the release (DESIGN CHOICE log 37). -/
def State.releaseWord (s : State) (d c off : Nat) : State :=
  let k := s.core d c
  match holdsOn (k.hold.map (·.1)) off, holdsOn k.cc.hold off with
  | none, none => s
  | some a, none => s.onCore d c (·.passAe off a)
  | none, some b => s.onCore d c (·.passCc off b)
  | some a, some b =>
    let f := s.fresh
    if f.1 % 2 = 0 then f.2.onCore d c fun k => if a then k.passAe off a else (k.passAe off a).passCc off b
    else f.2.onCore d c fun k => if b then k.passCc off b else (k.passCc off b).passAe off a

/-- A signal (R279, R280): the word becomes full and waiters are released; a full one is SYNC_OVERFLOW. -/
def State.signalWord (s : State) (d c off : Nat) : State :=
  if (s.core d c).isFull off then s.coreFault d c 0x4701 0 else (s.onCore d c (·.setWord off true)).releaseWord d c off

/-- Whether the writes of the access-stream instructions before job number `jobs` and transfer number `xfers` have been acknowledged
(R199). -/
def Core.writtenBefore (k : Core) (jobs xfers : Nat) : Bool :=
  (k.jobs.all fun j => j.x || opc j.word ≠ opSTORE || decide (jobs ≤ j.id)) &&
    ((k.de0 ++ k.de1).all fun x => x.walk.isSome || x.marker.isSome || decide (xfers ≤ x.id))

/-- Whether every write of earlier access-stream instructions has been acknowledged (R199). -/
def Core.aeWritten (k : Core) : Bool := k.writtenBefore k.jobNext k.xferNext

/-- The first SIGNAL whose earlier writes are acknowledged (R199, R279). -/
def Core.signalDue (k : Core) : Option Sig := k.signals.find? fun g => k.writtenBefore g.jobs g.xfers

/-- A SIGNAL sets its word, and its token becomes due (R199, R211). -/
def State.setSignal (s : State) (d c : Nat) (g : Sig) : State :=
  (s.onCore d c fun k => ({ k with signals := k.signals.erase g } : Core).due g.word g.replay false g.index).signalWord d c g.off

/-! ### The replay check (R181) -/

/-- Whether a stream has finished replay `r`. -/
def Stream.finished (st : Stream) (r : Nat) : Bool := decide (r < st.replay) || (decide (st.replay = r) && st.closed)

/-- Whether nothing of replay `r` is still under way. -/
def Core.settled (k : Core) (r : Nat) : Bool :=
  (k.jobs.all fun j => j.replay ≠ r) && (k.credits.all fun x => x.replay ≠ r) && (k.signals.all fun x => x.replay ≠ r) &&
    ((k.de0 ++ k.de1).all fun x => x.replay ≠ r || x.tok.isNone)

/-- The block left after the check of its last replay (R179, R181): registers keep that replay's values but those that KPWR wrote, counters
are 0, and both streams stand after their ENDBLOCK. -/
def Core.leaveBlock (k : Core) (r : Nat) : Core :=
  { k with
    params := (k.params.zipIdx).map fun vi => if k.written.contains vi.2 then vi.1 else k.preg r vi.2
    counters := []
    written := []
    slots := []
    presets := []
    sa := { k.sa with inBlock := false, closed := false }
    sx := { k.sx with inBlock := false, closed := false } }

/-- The first queue, and the first class, in which a replay does not balance (R181). -/
def RSlot.queueOff (z : RSlot) : Option Nat := (List.range 32).find? fun q => mget 0 z.pushed q ≠ mget 0 z.popped q
def RSlot.classOff (z : RSlot) : Option Nat := (List.range 16).find? fun t => mget 0 z.emitted t ≠ mget 0 z.consumed t

/-- The index of the ENDBLOCK of a stream's block, from index `i` on. -/
def Core.endIndex (k : Core) (x : Bool) : Nat → Nat → Nat
  | 0, i => i
  | n + 1, i => if opc (k.fetch x i) = opENDBLOCK then i else k.endIndex x n (i + 1)

/-- A balance fault. R184 gives it no instruction: which stream's ENDBLOCK it names is a free value (DESIGN CHOICE log 37). -/
def State.balanceFault (s : State) (d c kind q cls r : Nat) : State :=
  let f := s.fresh
  let x := decide (f.1 % 2 = 1)
  f.2.streamFault d c kind x q cls ((s.core d c).endIndex x 4096 ((s.core d c).stream x).start) r

/-- The SFE's check of the replays that both streams have finished (R181), up to `n` of them (DESIGN CHOICE log 67). -/
def State.checkReplays (s : State) (d c : Nat) : Nat → State
  | 0 => s
  | n + 1 =>
    let k := s.core d c
    let r := k.checked
    if k.sa.inBlock && k.sx.inBlock && k.sa.finished r && k.sx.finished r && k.settled r && k.faulted.isNone then
      match (k.slot r).queueOff, (k.slot r).classOff with
      | some q, _ => s.balanceFault d c 3 q 0 r
      | none, some t => s.balanceFault d c 4 0 t r
      | none, none =>
        if r + 1 = k.sa.replays then s.onCore d c fun k => { k.leaveBlock r with checked := 0 }
        else (s.onCore d c fun k => { k with checked := r + 1 }).checkReplays d c n
    else s

/-- What follows of itself after a step of a core: engines work, jobs that are over retire, SIGNALs whose writes are acknowledged set their
words, and replays are checked. -/
def State.settleCore (s : State) (d c : Nat) : Nat → State
  | 0 => s
  | n + 1 =>
    let k := s.core d c
    match s.formable d c with
    | some j =>
      let s' := s.formJob d c j
      if (s'.core d c).faulted.isSome then s' else s'.settleCore d c n
    | none =>
      match k.jobs.find? k.jobOver with
      | some j => (s.onCore d c fun k => k.retire j).settleCore d c n
      | none =>
        match k.signalDue with
        | some g =>
          let s' := s.setSignal d c g
          if (s'.core d c).faulted.isSome then s' else s'.settleCore d c n
        | none => s.checkReplays d c 4

/-- `settleCore` with enough rounds for every unit of every job and every SIGNAL. -/
def State.settle (s : State) (d c : Nat) : State :=
  let k := s.core d c
  s.settleCore d c (2 * k.jobs.length + k.signals.length + 4 + (k.jobs.map fun j => if opc j.word = opMMA then mmaTiles j.word else veUnits j.word).sum)

end Sys2Proof.Machine
end

