-- ==== Sys2Proof/Machine/TaskMap.lean ====
section
/-! DEFINITION. Reading a task image (R338 to R340), what a task holds, and its stream buffer (R350). -/

set_option Elab.async false

namespace Sys2Proof.Machine

open Sys2Proof

/-! ### Images (R338) -/

/-- `n` bytes of an image from offset `off`. -/
def imgBytes (img : List Byte) (off n : Nat) : List Byte := (img.drop off).take n

/-- Section entry `i`, as (TYPE, COUNT, OFFSET, BYTES). -/
def imgSection (img : List Byte) (i : Nat) : Nat × Nat × Nat × Nat :=
  let e := imgBytes img (0x40 + 16 * i) 16
  (field e 0 1, field e 4 4, field e 8 4, field e 12 4)

/-- The section entries. -/
def imgSections (img : List Byte) : List (Nat × Nat × Nat × Nat) := (List.range (field img 6 2)).map (imgSection img)

/-- The entry size of a section type; 0 for a reserved type. -/
def entrySize : Nat → Nat
  | 1 => 128
  | 2 => 80
  | 3 => 32
  | 4 => 64
  | 5 => 8
  | 6 => 16
  | _ => 0

/-- The entries of the section of a type. -/
def imgEntries (img : List Byte) (type : Nat) : List (List Byte) :=
  match (imgSections img).find? fun x => x.1 = type with
  | some (_, n, off, _) => (List.range n).map fun i => imgBytes img (off + i * entrySize type) (entrySize type)
  | none => []

/-! ### Core records (R339), allocations (R340), tensors and bindings (R338) -/

def crDie (r : List Byte) : Nat := field r 0 1
def crCore (r : List Byte) : Nat := field r 1 1
def crPairs (r : List Byte) : Nat := field r 2 1
def crACount (r : List Byte) : Nat := field r 4 2
def crXCount (r : List Byte) : Nat := field r 6 2
def crAOff (r : List Byte) : Nat := field r 8 4
def crXOff (r : List Byte) : Nat := field r 0x0C 4
def crPatOff (r : List Byte) : Nat := field r 0x10 4
def crPregOff (r : List Byte) : Nat := field r 0x14 4
def crTregOff (r : List Byte) : Nat := field r 0x18 4
def crPairsOff (r : List Byte) : Nat := field r 0x1C 4
def crClist (r : List Byte) : Nat := field r 0x20 2
def crStaging (r : List Byte) : Nat := field r 0x24 4
def crWindow (r : List Byte) (i : Nat) : Nat := field r (0x40 + 2 * i) 2

def alKind (a : List Byte) : Nat := field a 0 1
def alInit (a : List Byte) : Nat := field a 1 1
def alStream (a : List Byte) : Bool := bit (field a 2 1) 0
def alLayer (a : List Byte) : Nat := field a 4 2
def alBytes (a : List Byte) : Nat := field a 8 8
def alAddr (a : List Byte) : Nat := field a 0x10 8
def alSrc (a : List Byte) : Nat := field a 0x18 8

def tnDie (t : List Byte) : Nat := field t 0 1
def tnCore (t : List Byte) : Nat := field t 1 1
def tnEntry (t : List Byte) : Nat := field t 2 1
def tnBase (t : List Byte) : Nat := field t 4 2
def tnRegion (t : List Byte) : Nat := field t 6 2
def tnDesc (t : List Byte) : List Byte := (t.drop 16).take 64

def bdDie (b : List Byte) : Nat := field b 0 1
def bdCluster (b : List Byte) : Nat := field b 1 1
def bdSlot (b : List Byte) : Nat := field b 2 1
def bdWord (b : List Byte) : Nat := field b 4 4

/-! ### Tasks -/

/-- The task with an identifier. -/
def State.task (s : State) (id : Nat) : Option Task := s.ldr.tasks.find? fun t => t.id = id

/-- The state with a task replaced by its image. -/
def State.onTask (s : State) (id : Nat) (f : Task → Task) : State :=
  { s with ldr := { s.ldr with tasks := s.ldr.tasks.map fun t => if t.id = id then f t else t } }

/-- The cores of a task, in core-record order. -/
def Task.cores (t : Task) : List (Nat × Nat) := (imgEntries t.image 1).map fun r => (crDie r, crCore r)

/-- The allocations of a task. -/
def Task.allocs (t : Task) : List (List Byte) := imgEntries t.image 3

/-- The running task whose image binds a mailbox slot. -/
def State.slotTask (s : State) (d k n : Nat) : Option Task :=
  s.ldr.tasks.find? fun t => decide (t.state = .running) &&
    (imgEntries t.image 5).any fun b => decide (bdDie b = d ∧ bdCluster b = k ∧ bdSlot b = n)

/-- Whether a core's FCU_CORE_RETIRED bit is set (R462). -/
def State.coreRetired (s : State) (d c : Nat) : Bool :=
  if c < 32 then bit (s.fld d 0 0 FCU_CORE_RETIRED_LO.RETIRED) c else bit (s.fld d 0 0 FCU_CORE_RETIRED_HI.RETIRED) (c - 32)

/-! ### Stream buffers (R350) -/

/-- The moved allocation that holds a far-tier offset, as (index, offset within it). -/
def Task.movedAt (t : Task) (off : Nat) : Option (Nat × Nat) :=
  t.moved.findSome? fun m =>
    let n := match t.allocs[m.1]? with | some a => alBytes a | none => 0
    if m.2 ≤ off ∧ off < m.2 + n then some (m.1, off - m.2) else none

/-- Where the half that holds an allocation, and no fetch, stands in the buffer. -/
def Task.halfOf (t : Task) (alloc : Nat) : Option Nat :=
  (List.range 2).find? fun i => match t.halves[i]? with | some h => decide (h.alloc = some alloc) && !h.fetching | none => false

/-- The address from which a read of a far-tier offset is served; none while the buffer does not hold its allocation. -/
def State.streamAddr (s : State) (task off : Nat) : Option Nat :=
  match s.task task with
  | none => none
  | some t =>
    match t.movedAt off, t.buffer with
    | some (i, o), some (base, half) => (t.halfOf i).map fun h => base + h * half + o
    | _, _ => none

/-- The layer of an allocation. -/
def Task.layerOf (t : Task) (i : Nat) : Nat := match t.allocs[i]? with | some a => alLayer a | none => 0

/-- The moved allocation after `i` in ascending LAYER, ties in ascending index, wrapping to the first. -/
def Task.nextMoved (t : Task) (i : Nat) : Option Nat :=
  let key := fun (j : Nat) => t.layerOf j * 65536 + j
  let least := fun (l : List Nat) => l.foldl (fun (b : Option Nat) j => match b with
    | some x => if key j < key x then some j else some x
    | none => some j) none
  let all := t.moved.map (·.1)
  match least (all.filter fun j => key i < key j) with
  | some j => some j
  | none => least all

/-- A fetch of an allocation into half `h` begun, unless that half is being filled. -/
def Task.fetchInto (t : Task) (h alloc : Nat) : Task :=
  { t with halves := modAt (fun x => if x.fetching then x else { x with alloc := some alloc, fetching := true }) t.halves h }

/-- What a read of a moved allocation starts: from the buffer, the fetch of the next one into the other half; otherwise its own fetch into
the half read least recently. -/
def Task.streamRead (t : Task) (alloc : Nat) : Task :=
  let stamp := (t.halves.map (·.used)).foldl max 0 + 1
  match t.halfOf alloc with
  | some h =>
    let t := { t with halves := modAt (fun x => { x with used := stamp }) t.halves h }
    (match t.nextMoved alloc with
     | some j => if t.halves.any fun x => x.alloc = some j then t else t.fetchInto (1 - h) j
     | none => t)
  | none =>
    if t.halves.any fun x => x.alloc = some alloc then t
    else
      let u : Nat → Nat := fun i => match t.halves[i]? with | some x => x.used | none => 0
      t.fetchInto (if u 0 ≤ u 1 then 0 else 1) alloc

/-- The moved allocations that far-tier offsets name are needed for reading. -/
def State.streamRead (s : State) (task : Nat) (ps : List (Nat × Nat)) : State :=
  match s.task task with
  | none => s
  | some t => ((ps.filterMap fun p => (t.movedAt p.1).map (·.1)).eraseDups).foldl (fun s i => s.onTask task fun t => t.streamRead i) s

end Sys2Proof.Machine
end

