-- ==== Sys2Proof/Machine/CoreView.lean ====
section
/-! DEFINITION. What the registers of cores, the KV manager, the attention sequencers and the loader read (R184, R254, R275, R333, R334,
R357). -/

set_option Elab.async false

namespace Sys2Proof.Machine

open Sys2Proof

/-- SFE_STATUS.STATE and the register (R184). -/
def Core.sfeState (k : Core) : Nat :=
  if k.faulted.isSome then 3
  else if k.sa.running || k.sx.running then (if k.patchDue.isSome || k.inOcall then 2 else 1)
  else 0

/-- The replay in which a stream stands: 0 before its BLOCK. -/
def Core.replayOf (k : Core) (x : Bool) : Nat := if (k.stream x).inBlock then (k.stream x).replay else 0

/-- Replays by which the lead stream is ahead. -/
def Core.lead (k : Core) : Nat := max (k.replayOf false) (k.replayOf true) - min (k.replayOf false) (k.replayOf true)

/-- SFE_STATUS. -/
def Core.sfeStatus (k : Core) : Nat := k.sfeState * 2 ^ 28 + min 3 k.lead * 2 ^ 16 + satTo 255 k.sx.blocks

/-- SFE_TOKEN_COUNTn. -/
def Core.tokenWord (k : Core) (n : Nat) : Nat := ((List.range 4).map fun j => mget 0 k.counters (4 * n + j) * 2 ^ (8 * j)).sum

/-- SPM_QUEUE_NONEMPTY. -/
def Core.nonempty (k : Core) : Nat := ofBitSet ((List.range 32).filter fun q => mget [] k.queues q ≠ [])


/-- CC_STATUS (R254). -/
def Core.ccStatus (k : Core) : Nat :=
  (if k.cc.mode = 4 then 4 else if k.cc.call.isSome then 2 else k.cc.mode) * 2 ^ 28 + k.cc.fifo.length * 2 ^ 16 + k.cc.entry

/-- CC_CALL (R254). -/
def Core.ccCall (k : Core) : Nat := flag k.cc.call.isSome * 2 ^ 31 + k.cc.lastSource * 2 ^ 28 + k.cc.lastId

/-- DE_STATUS of an engine (R275) (DESIGN CHOICE log 51). -/
def deStatus (xs : List Xfer) : Nat :=
  (if xs.isEmpty then 0 else 1) * 2 ^ 28 + (xs.filter fun x => x.walk.isNone && x.marker.isNone).length * 2 ^ 16

/-- Whether a register lies in the block of a core that is fused off (R184). -/
def State.absentBlock (s : State) (d : Nat) (r : Reg) (u : Nat) : Bool :=
  decide (0x1000000 ≤ r.row.base) && !bit (s.fuseCore d) u

/-- Whether a register is one of a fused DE1 (R275). -/
def State.absentDe1 (s : State) (d : Nat) (r : Reg) (u i : Nat) : Bool :=
  match r with
  | .DE_STATUS | .DE_ERROR | .DE_ERROR_TAG | .DE_BYTES => decide (i = 1) && !bit (s.fuseDe1 d) u
  | _ => false

/-- What a register of an absent unit reads: STATE 0x7 where the register has that field, and otherwise 0. -/
def absentValue : Reg → Nat
  | .SFE_STATUS | .CC_STATUS | .DE_STATUS => 0x70000000
  | _ => 0

/-- ASEQ_STATUS of a cluster (R334) (DESIGN CHOICE log 51). -/
def State.aseqStatus (s : State) (d k : Nat) : Nat :=
  let steps := s.liveSteps.filter fun x => x.d = d && x.k = k
  let st := if steps.isEmpty then 0
    else if steps.any fun x => x.rows.any fun w => !w.waits.isEmpty then 2
    else if steps.any fun x => x.rows.any fun w => !w.core.isEmpty then 3
    else 1
  st * 2 ^ 28 + steps.length

/-- The code of a task's state in LDR_TASK_STATE. -/
def taskCode : TaskState → Nat
  | .loading => 1
  | .loaded => 2
  | .running => 3
  | .aborting => 4

/-- LDR_STATUS (R357) (DESIGN CHOICE log 51). -/
def State.ldrStatus (s : State) : Nat :=
  let has := fun (x : TaskState) => s.ldr.tasks.any fun t => t.state = x
  (if has .aborting then 3 else if has .loading then 1 else 0) * 2 ^ 28 + s.ldr.tasks.length * 2 ^ 16 +
    (s.notices.filter fun x => x.d = 8).length

/-- The registers of chapters 06, 09, 10, 12 and 13 that show a state held elsewhere (DESIGN CHOICE log 51). -/
def State.coreView (s : State) (d : Nat) (r : Reg) (u i : Nat) : Option Nat :=
  if s.absentBlock d r u || s.absentDe1 d r u i then some (absentValue r)
  else
    let k := s.core d u
    match r with
    | .SFE_STATUS => some k.sfeStatus
    | .SFE_REPLAY_A => some k.sa.replay
    | .SFE_REPLAY_X => some k.sx.replay
    | .SFE_TOKEN_COUNT => some (k.tokenWord i)
    | .SPM_QUEUE_NONEMPTY => some k.nonempty
    | .CC_STATUS => some k.ccStatus
    | .CC_OASIS_VERSION => some s.boot.oasisVersion
    | .CC_CALL => some k.ccCall
    | .DE_STATUS => some (deStatus (if i = 0 then k.de0 else k.de1))
    | .KVM_POOL_FREE => some (s.poolFree d)
    | .KVM_FAR_STATUS =>
      let n := fun (sp : Bool) => satTo 255 (s.kv.farJobs.filter fun j => j.d = d && j.spill = sp).length
      some (flag s.far.isSome * 2 ^ 31 + flag s.kv.unreachable * 2 ^ 30 + n true * 2 ^ 8 + n false)
    | .ASEQ_STATUS => some (s.aseqStatus d u)
    | .LDR_STATUS => some s.ldrStatus
    | .LDR_REJ_LAST => some s.ldr.rejLast
    | .LDR_TASK_STATE =>
      some (((List.range 8).map fun j => match s.task (8 * i + j + 1) with | some t => taskCode t.state * 2 ^ (4 * j) | none => 0).sum)
    | _ => none

end Sys2Proof.Machine
end

