-- ==== Sys2Proof/Machine/RegView.lean ====
section
/-! DEFINITION. What a register reads, and what a write to one does by its access type (R19 to R22). -/

set_option Elab.async false

namespace Sys2Proof.Machine

open Sys2Proof

/-- PTM_STATE.STATE (R497). In Off nothing reads it. -/
def modeCode : Mode → Nat
  | .off => 0
  | .standby => 1
  | .booting => 2
  | .warmUp => 3
  | .ready => 4
  | .dormant => 5
  | .maintenance => 6
  | .safe => 7
  | .enteringDormant => 8
  | .waking => 9

/-- PTM_STATUS of a die (R497). -/
def State.ptmStatus (s : State) (d : Nat) : Nat :=
  let hot := fun (x : Int) => match s.logicTemp d with | some t => flag (decide (x ≤ t)) | none => 0
  let stk := fun j => match s.stackTemp (4 * d + j) with | some t => flag (decide (1520 < t)) | none => 0
  hot 1520 * 2 ^ 31 + hot 1616 * 2 ^ 30 + flag (decide (s.power.powerCap < s.vddlTarget d)) * 2 ^ 29 +
    flag (decide (s.dieCapOf d < s.vddlTarget d)) * 2 ^ 28 +
    (stk 0 + 2 * stk 1 + 4 * stk 2 + 8 * stk 3) * 2 ^ 24 +
    (if d = 0 then s.fld 0 0 0 PTM_STATUS.WARMUP_STALLED * 2 ^ 23 + s.fld 0 0 0 PTM_STATUS.BUS_LOST * 2 ^ 22 + s.phasesFailed else 0)

/-- BTS_BOOT_STATUS (R455) (DESIGN CHOICE log 31). -/
def bootStatus (b : Boot) : Nat :=
  b.lastStep * 2 ^ 28 + flag b.locked * 2 ^ 27 + flag b.refused * 2 ^ 26 + flag b.recovery * 2 ^ 25 + b.refusal

/-- The fused SVN floor: the number of blown bits (R436). -/
def Fuses.svnFloor (f : Fuses) : Nat := popCount 64 f.svnBits

/-- Word `w` of a 32-byte record, 0 where there is none. -/
def recordWord (r : Option (List Byte)) (w : Nat) : Nat := match r with | some b => field b (4 * w) 4 | none => 0

/-- The value of the registers of chapters 00, 02, 03, 15, 17, 18 and 19 that show a state held elsewhere; none for the others (DESIGN
CHOICE log 31). -/
def State.sysView (s : State) (d : Nat) (r : Reg) (u i : Nat) : Option Nat :=
  let stk := 4 * d + u
  match r with
  | .BTS_FUSE_GRADE => some s.fuses.grade
  | .BTS_FUSE_CORE_LO => some (half (s.fuseCore d) 0)
  | .BTS_FUSE_CORE_HI => some (half (s.fuseCore d) 1)
  | .BTS_FUSE_DE1_LO => some (half (s.fuseDe1 d) 0)
  | .BTS_FUSE_DE1_HI => some (half (s.fuseDe1 d) 1)
  | .NOC_DIR_STATUS =>
    let n := (s.mem.dir.filter fun e => placedStack (e.line * 64) / 4 = d).length
    some (flag (decide (4194304 ≤ n)) * 2 ^ 31 + n)
  | .SC_STATUS =>
    let st := s.stack stk
    some (st.state * 2 ^ 24 + flag st.parity * 2 ^ 23 + st.retiredDie * 2 ^ 16 + st.spares.length * 2 ^ 12)
  | .SC_ACT_BUDGET => some (s.actEffective stk * 2 ^ 16 + s.fld d u 0 SC_ACT_BUDGET.LIMIT)
  | .SC_ACT_HELD => some (s.actHeld stk)
  | .SC_REFRESH_DEBT =>
    some (s.maxDebt stk * 2 ^ 20 + (if (s.stack stk).overdue then 3 else (s.stack stk).rate) * 2 ^ 18 +
      s.fld d u 0 SC_REFRESH_DEBT.FORCED)
  | .SC_POISON_COUNT => some (s.poisonCount stk)
  | .SC_TSV_STATUS => some ((s.stack stk).exhausted * 2 ^ 16 + (s.stack stk).sparesUsed)
  | .HP_STATUS => some (hpStatus (s.port d))
  | .BTS_BOOT_STATUS => some (bootStatus s.boot)
  | .BTS_RESET_CAUSE => some s.boot.cause
  | .BTS_FW_VERSION => some (field s.boot.imageHeader 0x0C 4)
  | .BTS_SVN => some (min 63 s.fuses.svnFloor * 2 ^ 8 + field s.boot.imageHeader 0x08 4 % 64)
  | .BTS_MGMT_STATUS =>
    some (setBits (s.reg d r u i).toNat 31 31 (flag (s.mgmt.queue.any fun q => q.port.isSome)))
  | .FCU_LOG_DATA => some (recordWord (mfind (mget emptyRing s.fcu.rings d).slots (s.fld d 0 0 FCU_LOG_SEL.SLOT)) i)
  | .FCU_FLOG_COUNT => some s.flash.log.length
  | .FCU_FLOG_DATA => some (recordWord (s.flash.log[s.fld d 0 0 FCU_FLOG_SEL.INDEX]?) i)
  | .PTM_STATE => some (modeCode s.power.mode * 2 ^ 28 + s.fld d 0 0 PTM_STATE.REFUSED * 2 ^ 27)
  | .PTM_STATUS => some (s.ptmStatus d)
  | .PTM_VDDL => some (s.vddlNow d * 2 ^ 16 + s.vddlTarget d)
  | .PTM_EXCLUDED =>
    some (((List.range 4).map fun j => s.excludedOf d (stackSensors j)).sum * 2 ^ 16 + s.excludedOf d (List.range 0x60))
  | _ => none

/-- The value of a register that shows a state held elsewhere. -/
def State.view (s : State) (d : Nat) (r : Reg) (u i : Nat) : Option Nat :=
  (((s.coreView d r u i).or (s.sysView d r u i)).or (s.mailboxView d r u i)).or (s.fabricView d r u i)

/-- What a register reads (R19): 0 on a die where it does not act and in WO fields, otherwise the state it shows or its stored
value. -/
def State.regValue (s : State) (d : Nat) (r : Reg) (u i : Nat) : Nat :=
  if r.row.d0 && decide (d ≠ 0) then 0
  else
    let v := match s.view d r u i with | some v => v | none => (s.reg d r u i).toNat
    v &&& fieldMask [.ro, .rw, .rw1c, .rwl] r.row.fields

/-- What reading a register does besides: a record read through FCU_LOG_SEL is no longer unread (R474), and reading
MBX_DIETIME_LO latches the high half (R301). -/
def State.regReadEffect (s : State) (d : Nat) (r : Reg) : State :=
  match r with
  | .FCU_LOG_DATA =>
    let rg := mget emptyRing s.fcu.rings d
    let slot := s.fld d 0 0 FCU_LOG_SEL.SLOT
    { s with fcu := { s.fcu with rings := mput s.fcu.rings d { rg with unread := rg.unread.filter (· ≠ slot) } } }
  | .MBX_DIETIME_LO => s.setFld d 0 0 MBX_DIETIME_HI.COUNT (s.time d / 2 ^ 32)
  | _ => s

end Sys2Proof.Machine
end

