-- ==== Sys2Proof/Machine/SysOps.lean ====
section
/-! DEFINITION. Module reset, the FAULT pin, Dormant and wake, and the arrival of management requests (chapters 17 to 19). -/

set_option Elab.async false

namespace Sys2Proof.Machine

open Sys2Proof

/-- The state with its boot part replaced by its image. -/
def State.onBoot (s : State) (f : Boot → Boot) : State := { s with boot := f s.boot }

/-- The state with its management part replaced by its image. -/
def State.onMgmt (s : State) (f : Mgmt → Mgmt) : State := { s with mgmt := f s.mgmt }

/-- The state with its fault-collection part replaced by its image. -/
def State.onFcu (s : State) (f : Fcu → Fcu) : State := { s with fcu := f s.fcu }

/-! ### The FAULT pin -/

/-- The level at which D0 holds the FAULT pin now (R470, R471): high impedance in Off; low while HOLD is 1 and before boot step 3;
in Safe low, but high in pulse mode once the pulse has ended; otherwise high in pulse mode and the square wave's level in
heartbeat mode. -/
def State.pinLevel (s : State) : PinLevel :=
  if s.power.mode = .off then .hiZ
  else if s.fld 0 0 0 FCU_PIN_HOLD.HOLD = 1 then .low
  else if !s.boot.locked then .low
  else if s.power.mode = .safe then (if s.fld 0 0 0 FCU_PIN_CFG.MODE = 1 ∧ !s.power.pulse then .high else .low)
  else if s.fld 0 0 0 FCU_PIN_CFG.MODE = 1 then .high
  else s.power.pin

/-- The FAULT pin driven. -/
def State.drivePin (s : State) : State := let l := s.pinLevel; s.onPower fun p => { p with pin := l }

/-- A write of FCU_PIN_HOLD on D0 (R471). -/
def State.writeHold (s : State) (v : Nat) : State := (s.setFld 0 0 0 FCU_PIN_HOLD.HOLD (v % 2)).drivePin

/-! ### Module reset -/

/-- A module reset (R454): everything as State.reset leaves it, but fuses, the flash with its waiting records saved (R467), the
pins, and one more reset counted; `mode` is Booting, Standby or Off (DESIGN CHOICE log 33). -/
def State.moduleReset (s : State) (cause : Nat) (mode : Mode) : State :=
  let f := s.flushLog.flash
  { State.reset with
    pending := s.pending
    free := s.free
    sent := s.sent
    fuses := s.fuses
    flash := { f with boots := f.boots + 1 }
    power := { State.reset.power with
      mode := mode
      aux := decide (mode ≠ .off)
      nresetHigh := s.power.nresetHigh
      strapPins := s.power.strapPins
      straps := s.power.strapPins
      pin := if mode = .off then .hiZ else .low }
    boot := { State.reset.boot with cause := cause } }

/-- t0 (R432, R500): the straps are latched and start-up begins (DESIGN CHOICE log 33). -/
def State.t0 (s : State) : State :=
  s.onPower fun p => { p with mode := .booting, deferred := false, straps := p.strapPins }

/-! ### Dormant and wake -/

/-- Every stack that serves is told to enter self-refresh (R84, R493). -/
def State.sleepStacks (s : State) : State :=
  (List.range 32).foldl (fun s k => if (s.stack k).cleared && (s.stack k).sr = .awake then s.onStack k fun st => { st with sr := .waiting } else s) s

/-- Every sleeping stack that management has not stopped is woken; one that has not been sent the command yet stays awake
(R84, R85, R496). -/
def State.wakeStacks (s : State) : State :=
  (List.range 32).foldl (fun s k =>
    let st := s.stack k
    if st.stopped then s
    else match st.sr with
      | .asleep => s.setStack k { st with sr := .waking }
      | .waiting => s.setStack k { st with sr := .awake }
      | _ => s) s

/-- A request for Dormant (R493): refused unless the module is Ready with no work in progress; accepted, stacks go to
self-refresh and ports to their dormant settings. -/
def State.requestDormant (s : State) : State :=
  if s.power.mode = .ready ∧ !s.workInProgress then
    let s := s.onPower fun p => { p with mode := .enteringDormant }
    s.sleepStacks.keepAlivePorts
  else s.setFld 0 0 0 PTM_STATE.REFUSED 1

/-- Wake begins (R496): phases and VDDL are restored, stacks leave self-refresh, links retrain. During entry it is remembered
until entry completes (R494). -/
def State.wakeUp (s : State) : State :=
  if s.power.mode = .dormant then
    let s := s.onPower fun p => { p with mode := .waking, phasesOn := 18, heldWork := false }
    s.wakeStacks.wakePorts
  else if s.power.mode = .enteringDormant then s.onPower fun p => { p with heldWork := true }
  else s

/-- A write of PTM_STATE_CTL.REQ on D0 (R498). -/
def State.stateCtl (s : State) (v : Nat) : State :=
  if bits v 1 0 = 1 then s.wakeUp else if bits v 1 0 = 2 then s.requestDormant else s

/-- Dormant entry completes once every stack sleeps (R493 step 4, R494): held work wakes the module at once. -/
def State.dormantEntered (s : State) : State :=
  if s.power.mode = .enteringDormant ∧ (List.range 32).all (fun k => decide ((s.stack k).sr ≠ .waiting ∧ (s.stack k).sr ≠ .commanded)) then
    let held := s.power.heldWork
    let s := s.onPower fun p => { p with mode := .dormant, phasesOn := 4 }
    if held then s.wakeUp else s
  else s

/-! ### Management requests arrive -/

/-- Whether every byte of [a, a + n) is memory that a host port's window holds. -/
def State.hostReads (s : State) (port a n : Nat) : Bool := s.reachable (.host port 0) a n

/-- A GO written by the host on `port` (R442): discarded with ERR_BUSY while a request is served, consumed with ERR_ADDR and DONE
when the record cannot be read, and otherwise queued with the record and, for a signed operation, its signature. -/
def State.mgmtGo (s : State) (port : Nat) : State :=
  if s.mgmt.queue.any (fun q => q.port.isSome) then s.setFld 0 0 0 BTS_MGMT_STATUS.ERR_BUSY 1
  else
    let a := s.fld 0 0 0 BTS_MGMT_ADDR_LO.ADDR + s.fld 0 0 0 BTS_MGMT_ADDR_HI.ADDR * 2 ^ 32
    if !s.hostReads port a 64 then
      let s := s.setFld 0 0 0 BTS_MGMT_STATUS.ERR_ADDR 1
      let s := s.setFld 0 0 0 BTS_MGMT_STATUS.DONE 1
      s.mapErr (.host port 0) false a
    else
      let r := s.seen a 64
      let sa := field r 0x20 8
      let sig := if s.hostReads port sa 2420 then some (s.seen sa 2420) else none
      s.onMgmt fun m => { m with queue := m.queue ++ [⟨some port, a, r, sig⟩] }

/-- A management request over I3C (R442). -/
def State.mgmtI3c (s : State) (rec_ sig : List Byte) : State :=
  s.onMgmt fun m => { m with queue := m.queue ++ [⟨none, 0, padTo 64 0 rec_, some sig⟩] }

end Sys2Proof.Machine
end

