-- ==== Sys2Proof/Machine/Access.lean ====
section
/-! DEFINITION. A memory access at its order point: where it goes, what makes it wait, what it does and how it is answered
(R42, R47 to R61, R385, R389, R391, R393, R466, R494, R495). -/

set_option Elab.async false

namespace Sys2Proof.Machine

open Sys2Proof

/-! ### Registers -/

/-- The registers that a write of 1 to the VALID bit of `r` clears whole. -/
def recordRegs : Reg → List Reg
  | .NOC_MAPERR_INFO => [.NOC_MAPERR_ADDR_LO, .NOC_MAPERR_ADDR_HI]
  | .SFE_FAULT_INFO => [.SFE_FAULT_INFO, .SFE_FAULT_REPLAY]
  | .VE_FAULT_INFO => [.VE_FAULT_INFO, .VE_FAULT_VECTOR, .VE_FAULT_VALUE]
  | .CC_FAULT_INFO => [.CC_FAULT_INFO, .CC_FAULT_REPLAY]
  | .DE_ERROR => [.DE_ERROR, .DE_ERROR_TAG]
  | .SYNC_STALL_INFO => [.SYNC_STALL_INFO, .SYNC_STALL_ARG_A, .SYNC_STALL_ARG_X]
  | .ASEQ_ERR => [.ASEQ_ERR]
  | _ => []

/-- The record of `r` cleared (R63, R184, R235, R254, R275, R287, R334); of NOC_MAPERR_INFO also OVERRUN. -/
def State.clearRecord (s : State) (d : Nat) (r : Reg) (u i : Nat) : State :=
  let s := if r = .NOC_MAPERR_INFO then s.setFld d u i NOC_MAPERR_INFO.OVERRUN 0 else s
  (recordRegs r).foldl (fun s q => s.setReg d q u i 0) s

/-- A write to a register by its access types (R19, R20, R21): one that would place a reserved encoding is discarded whole; RWL
fields take it only before the boot lock; registers with an effect of their own act. `port` is the host port it came through. -/
def State.regWrite (s : State) (port : Option Nat) (d : Nat) (r : Reg) (u i v : Nat) : State :=
  if r.row.d0 && decide (d ≠ 0) then s
  else if s.power.mode = .safe ∧ r ≠ .FCU_PIN_HOLD then s
  else if s.absentBlock d r u || s.absentDe1 d r u i then s
  else
    match r with
    | .PTM_TSENSE_REQ => s.tsenseReq d v
    | .FCU_PIN_HOLD => s.writeHold v
    | .PTM_STATE_CTL => s.stateCtl v
    | .BTS_MGMT_CTL => if bit v 0 then (match port with | some p => s.mgmtGo p | none => s) else s
    | .BTS_MGMT_ADDR_LO => s.setFld 0 0 0 BTS_MGMT_ADDR_LO.ADDR (v / 64 * 64)
    | _ =>
      if legalWrite r v then
        let s := s.setReg d r u i (BitVec.ofNat 32 (mergeWrite r.row.fields (!s.boot.locked) (s.reg d r u i).toNat v))
        if bit v 31 then s.clearRecord d r u i else s
      else s

/-! ### Answers -/

/-- The answer to an access handled under R42, by source; `mem` marks a CXL.mem request. -/
def unmappedReply (ag : Agent) (mem write : Bool) (len : Nat) : Reply :=
  match ag with
  | .host _ _ => if mem then (if write then .done else .data (List.replicate len 0) (List.range ((len + 63) / 64))) else .unsupported
  | .peer _ _ _ => .status 3 0
  | _ => .busError

/-- Whether an operation writes, and its length. -/
def opWrites : AccessOp → Bool
  | .read _ _ => false
  | .write _ _ => true
def opLen : AccessOp → Nat
  | .read n _ => n
  | .write b _ => b.length

/-- An access handled under R42: no effect, answered by source and, unless it met a stopped stack (R445), recorded. -/
def State.unmapped (s : State) (x : HeldAccess) (mem record : Bool) (a : Nat) : State :=
  let s := if record then s.mapErr x.ag (opWrites x.op) a else s
  s.answer x (unmappedReply x.ag mem (opWrites x.op) (opLen x.op))

/-! ### Serving memory -/

/-- An address that names nothing: that of a piece which lies beyond the DPA space or that no decoder claims. -/
def noAddr : Nat := 2 ^ 48

/-- The pieces of a host access by DPA, each within one line, as module addresses. -/
def State.dpaPieces (s : State) (port dpa n : Nat) : List (Nat × Nat) :=
  (piecesOf dpa n).map fun p => ((dpaToAddr (s.window port) p.1).getD noAddr, p.2)

/-- The pieces of a CXL.mem access by host address. -/
def State.hpaPieces (s : State) (port a n : Nat) : List (Nat × Nat) :=
  (piecesOf a n).map fun p => (((s.hpaToDpa port p.1).bind (dpaToAddr (s.window port))).getD noAddr, p.2)

/-- The requests of a served access in its banks' queues (R73, R74): one per line, with the columns it touches. The lines that hosts gave
for it are used up (R56). -/
def State.enqueue (s : State) (ag : Agent) (write : Bool) (ps : List (Nat × Nat)) : State :=
  (ps.flatMap fun p => piecesOf p.1 p.2).foldl (fun s p =>
    match s.resolve p.1 with
    | .mem q =>
      let b := bankOf q
      let r : BankReq := ⟨placedRow q, q % 1024 / 32, (q % 32 + p.2 + 31) / 32, write, if agentInternal ag then 1 else 0,
        s.time (placedStack q / 4), false, none⟩
      (s.drive b ((s.bank b).accept r)).useObtained p.1 p.2
    | _ => s) s

/-- The line of a read that a CXL 3.1 host keeps, tracked by its home (R53): a new entry goes last. -/
def State.track (s : State) (port line : Nat) (excl : Bool) : State :=
  match s.dirOf line with
  | some _ => s.onMem fun m => { m with dir := m.dir.map fun e =>
      if e.line = line then { e with ports := (port, excl) :: e.ports.filter fun q => q.1 ≠ port } else e }
  | none => s.onMem fun m => { m with dir := m.dir ++ [⟨line, [(port, excl)]⟩] }

/-- The lines that a die's home directory tracks, and whether it is full (R53). -/
def State.dirCount (s : State) (d : Nat) : Nat := (s.mem.dir.filter fun e => placedStack (e.line * 64) / 4 = d).length
def State.dirFull (s : State) (d : Nat) : Bool := decide (4194304 ≤ s.dirCount d)

/-- The ports whose hold on the least recently allocated line of die `d` a full directory recalls (R53). -/
def State.recallOldest (s : State) (d : Nat) : State :=
  match s.mem.dir.find? fun e => placedStack (e.line * 64) / 4 = d with
  | some e => s.issueSnoops (e.ports.map fun q => ⟨q.1, e.line, .backInvalidate⟩)
  | none => s

/-- The memory lines of pieces, by placed address. -/
def State.pieceLines (s : State) (ps : List (Nat × Nat)) : List Nat :=
  ps.filterMap fun p => match s.resolve p.1 with | .mem q => some q | _ => none

/-- The access put among those that wait; in Dormant it is work that wakes the module (R85, R147, R463, R494, R496) (DESIGN CHOICE log 52). -/
def State.hold (s : State) (x : HeldAccess) : State :=
  let s := s.onMem fun m => { m with held := m.held ++ [x] }
  if s.power.mode = .enteringDormant ∨ s.power.mode = .dormant then s.onPower fun p => { p with heldWork := true } else s

/-- Requests that reach stacks before they sleep keep them awake (R85). -/
def State.keepAwake (s : State) (ps : List (Nat × Nat)) : State :=
  (s.pieceLines ps).foldl (fun s p => s.sleepInterrupted (placedStack p)) s

/-- Whether an access of `ag` has an effect on a piece: it reaches it, and the piece's stack is not stopped (R42, R445). -/
def State.pieceOk (s : State) (ag : Agent) (p : Nat × Nat) : Bool :=
  s.reaches ag (s.resolve p.1) &&
    (match s.resolve p.1 with | .mem q => !(s.stack (placedStack q)).stopped | _ => true)

/-- Whether an access takes its lines for itself: a write, or a read of a host that will hold them exclusively (R53). -/
def opOwns : AccessOp → Bool
  | .read _ hold => decide (hold = 2)
  | .write _ _ => true

/-- The access served at its order point (R48, R49, R61, R393): each of its lines is an access of its own, and those that `ok` does not name
have no effect. `answer` is given where some line is not served, unless the access is a CXL.mem read, which reads poison there (DESIGN
CHOICE log 26). -/
def State.serve (s : State) (x : HeldAccess) (mem : Bool) (ps : List (Nat × Nat)) (ok : Nat × Nat → Bool) (answer : Reply) : State :=
  let good := ps.filter ok
  let part := !ps.all ok
  match x.op with
  | .read n hold =>
    let bytes := ps.flatMap fun p => if ok p then s.seen p.1 p.2 else List.replicate p.2 0
    let bad := (List.range ps.length).filter fun i => match ps[i]? with | some p => !ok p || s.poisonedAt p.1 | none => false
    let s := s.enqueue x.ag false good
    let s := match x.ag, hold with
      | .host port _, h + 1 =>
        if (s.port port).proto = 5 then
          (s.pieceLines good).foldl (fun (s : State) p => s.track port (p / 64) (decide (h + 1 = 2))) s else s
      | _, _ => s
    let s := match x.ag with
      | .engine d c u =>
        if 4 ≤ u ∧ !bad.isEmpty then
          s.raise d 0x4102 (.core c) 0 ((s.pieceLines good)[0]?.getD 0 / 64 * 64)
        else s
      | _ => s
    s.answer x (if part && !mem then answer else .data (bytes.take n) bad)
  | .write data poison =>
    let s := s.writePieces poison (ps.map fun p => if ok p then p else (noAddr, p.2)) data
    (s.enqueue x.ag true good).answer x (if part then answer else .done)

/-- The address that a record of R63 holds for a piece: its module address, or where it has none the address as the access gave it
(DESIGN CHOICE log 57). -/
def pieceAddr (x : HeldAccess) (p : Nat × Nat) : Nat :=
  if p.1 = noAddr then (match x.tgt with | .phys a => a | .hpa a => a | .bar _ off => off | .cfg _ off => off) else p.1

/-- An access to memory by its line pieces (R48): a line that the agent does not reach, or of a stopped stack, is handled under R42 while
the others take effect; the access is held while a bank does not serve, a host must answer or the directory is full. -/
def State.accessPieces (s : State) (x : HeldAccess) (mem : Bool) (ps : List (Nat × Nat)) : State :=
  let ok := s.pieceOk x.ag
  let good := ps.filter ok
  let miss := ps.find? fun p => !s.reaches x.ag (s.resolve p.1)
  let um := fun (s : State) => match miss with | some p => s.mapErr x.ag (opWrites x.op) (pieceAddr x p) | none => s
  let answer := unmappedReply x.ag mem (opWrites x.op) (opLen x.op)
  if good.isEmpty ∨ (!ps.all ok ∧ !mem ∧ !opWrites x.op) then (um s).answer x answer
  else
    let lines := s.pieceLines good
    let s := s.keepAwake good
    if !agentInternal x.ag && (s.power.mode = .dormant || s.power.mode = .enteringDormant) then s.hold x
    else if !(lines.all fun p => s.bankServes (agentDie x.ag) (bankOf p)) then s.hold x
    else
      let needs := lines.flatMap fun p => s.needs x.ag p (opOwns x.op)
      if !needs.isEmpty then (s.issueSnoops needs).hold x
      else
        let newLines := match x.op with
          | .read _ (_ + 1) => (lines.map (· / 64)).eraseDups.filter fun l => (s.dirOf l).isNone
          | _ => []
        let home := fun (l : Nat) => placedStack (l * 64) / 4
        match newLines.find? fun l => decide (4194304 < s.dirCount (home l) + (newLines.filter fun m => home m = home l).length) with
        | some l => (s.recallOldest (home l)).hold x
        | none => (um s).serve x mem ps ok answer

/-! ### Sequence windows, registers and configuration space -/

/-- A sequence-window access by a port that owns the slot, or R42 (R154 to R158): reads of the descriptor or result line. Writes
of descriptors are SEQW_DESCRIPTOR_WRITE. -/
def State.accessSeqw (s : State) (x : HeldAccess) (d off : Nat) : State :=
  s.seqwAccess x d off (s.unmapped x false true (0x300000000000 + d * 2 ^ 32 + off)) (s.hold x)

/-- An access to register space (R20, R22, R385): one aligned word, or no effect and an error. -/
def State.accessReg (s : State) (x : HeldAccess) (d off : Nat) : State :=
  let port := match x.ag with | .host p _ => some p | _ => none
  let err := s.answer x (if agentInternal x.ag then .busError else .unsupported)
  if off % 4 ≠ 0 ∨ opLen x.op ≠ 4 then err
  else
    match regAt off with
    | none => s.unmapped x false true (0x3F0000000000 + d * 2 ^ 28 + off)
    | some (r, u, i) =>
      match x.op with
      | .read _ _ => (s.regReadEffect d r).answer x (.data (leBytes 4 (s.regValue d r u i)) [])
      | .write data _ => (s.regWrite port d r u i (leNat data)).answer x (.done)

/-- An access of a host to register space through BAR0 (R385). -/
def State.accessBarReg (s : State) (x : HeldAccess) (port o : Nat) : State :=
  let regs := s.fld port 0 0 HP_CFG.REGS
  if regs = 0 ∨ 0x80000000 ≤ o then s.unmapped x false true (0x3F0000000000 + o)
  else if regs = 1 ∧ opWrites x.op then s.answer x (.unsupported)
  else s.accessReg x (o / 2 ^ 28) (o % 2 ^ 28)

/-- The pending-bit array of MSI-X: bit v of byte v / 8 (R298, R395). -/
def pbaByte (p : HostPort) (k : Nat) : Byte :=
  BitVec.ofNat 8 (ofBitSet ((p.msixPending.filter fun v => v / 8 = k).map (· % 8)))

/-- An access to BAR0 (R384): the MSI-X table and PBA, register space, and the mailbox region; the CXL component registers are the
standard's and this manual gives them no layout, so they read free bytes and take writes without effect here (DESIGN CHOICE log 19). -/
def State.accessBar0 (s : State) (x : HeldAccess) (port off : Nat) : State :=
  let n := opLen x.op
  if off + n ≤ 0x10000 then
    (match x.op with
     | .read n _ => let f := s.fresh
                    f.2.answer x (.data (leBytes n f.1) [])
     | .write _ _ => s.answer x (.done))
  else if 0x10000 ≤ off ∧ off + n ≤ 0x18000 then
    (match x.op with
     | .read n _ => s.answer x (.data ((List.range n).map fun i => mget 0 (s.port port).msixTable (off - 0x10000 + i)) [])
     | .write data _ =>
       (s.onPort port fun p => { p with msixTable := writeCells p.msixTable (off - 0x10000) data }).answer x (.done))
  else if 0x18000 ≤ off ∧ off + n ≤ 0x18100 then
    (match x.op with
     | .read n _ => s.answer x (.data ((List.range n).map fun i => pbaByte (s.port port) (off - 0x18000 + i)) [])
     | .write _ _ => s.answer x (.done))
  else if 0x100000 ≤ off ∧ off + n ≤ 0x120100 then s.mailboxAccess x port (off - 0x100000) (s.unmapped x false true off)
  else if 0x80000000 ≤ off then s.accessBarReg x port (off - 0x80000000)
  else s.unmapped x false true off

/-- An access to a port's configuration space (R399). -/
def State.accessCfg (s : State) (x : HeldAccess) (id off : Nat) : State :=
  match x.ag with
  | .host port _ =>
    (match x.op with
     | .read _ _ => s.answer x (.data (leBytes 4 ((s.cfgRead port id off).getD 0)) [])
     | .write data _ => ((s.cfgWrite port id off (leNat data)).flipAsk port).answer x (.done))
  | _ => s

/-! ### Accesses -/

/-- An access while the module is in Safe (R466): host memory reads return poisoned data, writes are discarded, requests of
internal agents have been abandoned and fail, and peers are refused. Registers and configuration space are served. -/
def State.accessSafe (s : State) (x : HeldAccess) : State :=
  match x.ag with
  | .host port _ =>
    (match x.tgt with
     | .cfg id off => s.accessCfg x id off
     | .bar 0 off =>
       if 0x80000000 ≤ off then s.accessBarReg x port (off - 0x80000000)
       else if 0x100000 ≤ off ∧ off + opLen x.op ≤ 0x120100 then
         (if opWrites x.op then s.answer x (.abort) else s.mailboxAccess x port (off - 0x100000) (s.unmapped x false true off))
       else s.accessBar0 x port off
     | _ =>
       (match x.op with
        | .read n _ => s.answer x (.data (List.replicate n 0) (List.range ((n + 63) / 64)))
        | .write _ _ => s.answer x (.done)))
  | .peer _ _ _ => s.answer x (.status 5 0x00A0)
  | _ => s.answer x (.busError)

/-- An access to a module physical address (DESIGN CHOICE log 26). -/
def State.accessPhys (s : State) (x : HeldAccess) (a : Nat) : State :=
  let whole := match x.ag with
    | .peer _ _ _ => s.reachable x.ag a (opLen x.op)
    | _ => true
  match s.resolve a with
  | .reg d off => if agentInternal x.ag then s.accessReg x d off else s.unmapped x false true a
  | .seqw _ _ => s.unmapped x false true a
  | _ => if whole then s.accessPieces x false (piecesOf a (opLen x.op)) else s.unmapped x false true a

/-- Whether a target is reached with PCIe's or CXL.io's ordering. -/
def ioTarget : Target → Bool
  | .bar _ _ => true
  | .cfg _ _ => true
  | _ => false

/-- Whether an earlier posted write of the same port still waits, which neither a read nor a write by CXL.io or PCIe passes (R52). In
Dormant the port answers all but memory traffic (R495). -/
def State.portWaits (s : State) (x : HeldAccess) : Bool :=
  match x.ag with
  | .host port _ => ioTarget x.tgt && decide (s.power.mode ≠ .dormant ∧ s.power.mode ≠ .enteringDormant) &&
      s.mem.held.any fun h => (match h.ag with | .host q _ => decide (q = port) | _ => false) && ioTarget h.tgt && opWrites h.op
  | _ => false

/-- An access of any agent (DESIGN CHOICE log 57). -/
def State.access (s : State) (x : HeldAccess) : State :=
  if s.power.mode = .off ∨ s.power.mode = .standby then s
  else if s.power.mode = .safe then s.accessSafe x
  else if s.portWaits x then s.hold x
  else
    match x.tgt, x.ag with
    | .cfg id off, _ => s.accessCfg x id off
    | .phys a, .host _ _ => s.unmapped x false true a
    | .phys a, _ => s.accessPhys x a
    | .bar n off, .host port _ =>
      if n = 0 then s.accessBar0 x port off
      else if n = 2 then
        (if off < 0x800000000 then s.accessSeqw x (off / 2 ^ 32) (off % 2 ^ 32) else s.unmapped x false true off)
      else if n = 4 then
        (if (s.port port).proto ≠ 1 ∧ (s.port port).proto ≠ 2 then s.answer x (.unsupported)
         else s.accessPieces x false (s.dpaPieces port off (opLen x.op)))
      else s.unmapped x false true off
    | .hpa a, .host port _ =>
      s.accessPieces x true (s.hpaPieces port a (opLen x.op))
    | _, _ => s

/-- The held accesses tried again, oldest first; one that must still wait is held again (R85, R147, R463). -/
def State.retry (s : State) : State :=
  let xs := s.mem.held
  xs.foldl (fun s x => s.access x) (s.onMem fun m => { m with held := [] })

end Sys2Proof.Machine
end

