-- ==== Sys2Proof/Machine/SyncOps.lean ====
section
/-! DEFINITION. Queues as beats cross them, full and empty words, and barriers (R166 to R173, R276 to R284). -/

set_option Elab.async false

namespace Sys2Proof.Machine

open Sys2Proof Enc7

/-! ### Beats -/

/-- The job, with the place of its operand, that pops a queue next: consumers pop in program order (R167). -/
def Core.popper (k : Core) (q : Nat) : Option (Job × Nat) :=
  k.jobs.findSome? fun j => (j.pops.findIdx? fun p => !p.done && p.q = q).map fun i => (j, i)

/-- Whether a job pops its operand `i` now: an MMA has reached that step (R220), the VE needs the beat for its next vector or group (R227),
a STORE's turn at DE0 has come (R172), or an OCALL's routine runs (R250). -/
def Core.popsNow (k : Core) (j : Job) (i : Nat) : Bool :=
  let o := opc j.word
  if o = opSTORE then k.walkTurn j
  else if o = opOCALL then (match k.cc.call with | some x => decide (x.source = 0) && x.status.isNone | none => false)
  else if o = opMMA then (match j.pops[i]? with | some p => k.mmaPops j i p.phase | none => false)
  else j.vePops i

/-- Operand `i` of a job with one more beat popped: done at LAST where it pops to LAST, otherwise at its count (R169). -/
def Job.take (j : Job) (i : Nat) (b : Beat) : Job :=
  { j with pops := modAt (fun p => { p with
      got := p.got ++ [if opc j.word = opSTORE then [] else b.data]
      done := match p.need with | none => b.last | some n => decide (n ≤ p.got.length + 1) }) j.pops i }

/-- The head beat of a queue leaves it for operand `i` of a job. -/
def Core.popBeat (k : Core) (j : Job) (i q : Nat) (b : Beat) : Core :=
  ({ k with queues := mput k.queues q ((mget [] k.queues q).drop 1) } : Core).onJob j.id (·.take i b) |>.countPop j.replay q

/-- Bytes written to word accesses in order, as (address, length) (R171, R194). -/
def State.storeWords (s : State) : List (Nat × Nat) → List Byte → State
  | [], _ => s
  | (a, n) :: ps, data => (s.writeBytes a (data.take n)).storeWords ps (data.drop n)

/-- Word accesses as far as `n` bytes go. -/
def cutWords (n : Nat) : List (Nat × Nat) → List (Nat × Nat)
  | [] => []
  | (a, k) :: ps => if n = 0 then [] else (a, min k n) :: cutWords (n - k) ps

/-- A beat of a STORE: the word accesses that it completes are written whole (R173), the rest of its bytes wait for theirs; beyond the walk's
end they are discarded. SFE_ADDR where an address lies outside R172; a wait where memory does not serve. -/
def State.popStore (s : State) (d c q : Nat) (j : Job) (i : Nat) (b : Beat) : State :=
  let k := s.core d c
  let data := j.tail ++ b.data.take (patBytes (k.pattern j.word) - j.pos)
  let ps := cutWords data.length (k.walkNext j (b.last && toLast j.word))
  if !(ps.all fun p => s.aeReaches d c p.1 p.2) then s.streamFault d c 6 j.x 0 0 j.index j.replay
  else if !s.walkReady d c ps true then s.walkAsk d c ps true
  else
    let s := (s.storeWords ps data).enqueue (.engine d c 4) true ps
    s.onCore d c fun k => (k.popBeat j i q b).onJob j.id fun j =>
      { j with pos := min (j.pos + 64) (patBytes (k.pattern j.word)), tail := data.drop (ps.map (·.2)).sum }

/-- One pop of a queue, or SFE_UNDERFLOW (R168). -/
def State.popStep (s : State) (d c q : Nat) : State :=
  let k := s.core d c
  match k.popper q with
  | none => s
  | some (j, i) =>
    if !k.popsNow j i then s
    else
      match mget [] k.queues q with
      | [] => if k.pending q j.replay then s else s.streamFault d c 1 j.x q 0 j.index j.replay
      | b :: _ =>
        if opc j.word = opSTORE then s.popStore d c q j i b else s.onCore d c fun k => k.popBeat j i q b

/-- A beat enters a queue for an instruction; its token is credited there (R175). -/
def State.pushBeat (s : State) (d c q : Nat) (j : Job) (data : List Byte) (last : Bool) : State :=
  let tok := if last && decide (opc j.word ≠ opOCALL) then emits j.word else none
  let b : Beat := ⟨padTo 64 0 data, last, tok⟩
  let s := s.onCore d c fun k => ({ k with queues := mput k.queues q (mget [] k.queues q ++ [b]) } : Core).countPush j.replay q
  match tok with
  | some t => s.credit d c t j.replay j.x j.index
  | none => s

/-- Whether a job has pushes left. -/
def Core.pushesLeft (k : Core) (j : Job) : Bool :=
  if opc j.word = opLOAD then decide (j.pos < patBytes (k.pattern j.word)) else !j.formed || !j.pushes.isEmpty

/-- A beat of a LOAD: 64 bytes of its walk; each word access is read whole (R173), and what the beat does not take of the last one is kept. -/
def State.pushLoad (s : State) (d c q : Nat) (j : Job) : State :=
  let k := s.core d c
  let ps := k.walkNext j false
  if !k.walkTurn j then s
  else if !(ps.all fun p => s.aeReaches d c p.1 p.2) then s.streamFault d c 6 j.x 0 0 j.index j.replay
  else if !s.walkReady d c ps false then s.walkAsk d c ps false
  else
    match ps.find? fun p => s.anyPoison p.1 p.2 with
    | some p => s.poisonRead d c p.1
    | none =>
      let data := j.tail ++ ps.flatMap fun p => s.readBytes p.1 p.2
      let last := decide (patBytes (k.pattern j.word) ≤ j.pos + 64)
      let s := s.enqueue (.engine d c 4) false ps
      let s := s.onCore d c fun k => k.onJob j.id fun j => { j with pos := j.pos + 64, tail := data.drop 64 }
      s.pushBeat d c q j (data.take 64) last

/-- One push to a queue that is not full (R167, R168): producers push in program order. -/
def State.pushStep (s : State) (d c q : Nat) : State :=
  let k := s.core d c
  if 32 ≤ (mget [] k.queues q).length then s
  else
    match k.jobs.find? fun j => decide (j.pushQ = some q) && k.pushesLeft j with
    | none => s
    | some j =>
      if opc j.word = opLOAD then s.pushLoad d c q j
      else
        match j.pushes with
        | [] => s
        | data :: rest =>
          let last := rest.isEmpty && j.formed
          let s := s.onCore d c fun k => k.onJob j.id fun j => { j with pushes := rest, pos := j.pos + 1 }
          let s := if opc j.word = opOCALL then s.onCc d c fun m => { m with call := m.call.map fun x =>
              { x with pushed := x.pushed + 1, pushedLast := last } } else s
          s.pushBeat d c q j data last

/-- A queue's step: one pop is served and one push accepted (R168). -/
def State.queueStep (s : State) (d c q : Nat) : State :=
  if (s.core d c).faulted.isSome then s
  else
    let s := s.popStep d c q
    if (s.core d c).faulted.isSome then s
    else
      let s := s.pushStep d c q
      if (s.core d c).faulted.isSome then s else s.settle d c

/-! ### Barriers (R281 to R284) -/

/-- The scratchpad offset of the word that the access stream's next WAIT, SIGNAL or BARRIER names. -/
def Core.syncAt (k : Core) (d c : Nat) : Nat :=
  plusOff (k.preg k.sa.replay (syncPreg (k.next false))) (syncOffset (k.next false)) - spmBase d c

/-- The offset of a WAIT, SIGNAL or BARRIER's word, none where it lies outside the core's scratchpad or windows or is misaligned (R213). -/
def Core.syncOff (k : Core) (d c : Nat) : Option Nat :=
  let w := k.next false
  let a := plusOff (k.preg k.sa.replay (syncPreg w)) (syncOffset w)
  if a % 64 = 0 && inSpm d c a 64 && k.windowed a 64 then some (a - spmBase d c) else none

/-- A barrier word. -/
structure Barrier where
  round : Nat
  mask : Nat
  arrived : Nat
  leaving : Nat
  rest : Nat
  deriving DecidableEq, Repr

/-- The barrier word at an offset of a core's scratchpad. -/
def State.barrier (s : State) (d c off : Nat) : Barrier :=
  let b := s.readBytes (spmBase d c + alignDown off 64) 64
  ⟨field b 0 4, field b 4 1, field b 5 1, field b 6 1, field b 7 57⟩

/-- The state with a barrier word written, and its full/empty bit. -/
def State.setBarrier (s : State) (d c off : Nat) (b : Barrier) (full : Bool) : State :=
  (s.writeBytes (spmBase d c + alignDown off 64) (leBytes 4 b.round ++ leBytes 1 b.mask ++ leBytes 1 b.arrived ++ leBytes 1 b.leaving ++
    List.replicate 57 0)).onCore d c (·.setWord off full)

/-- Whether `a` has no bit outside `b`. -/
def subMask (a b : Nat) : Bool := a &&& b = a

/-- Whether a word's state is one that R282 lists. -/
def Barrier.legal (b : Barrier) (full : Bool) : Bool :=
  decide (b.rest = 0 ∧ b.mask < 16) && subMask b.arrived b.mask && subMask b.leaving b.mask &&
    (if full then decide (b.arrived = 0 ∧ b.leaving ≠ 0) else decide (b.leaving = 0))

/-- An arrival of participant bit `p` with mask `m` (R282, R284): none while the word is full; otherwise the state after it, or
SYNC_BARRIER. -/
def State.arrive (s : State) (d c off p m : Nat) : Option State :=
  let b := s.barrier d c off
  let full := (s.core d c).isFull off
  let bad := s.coreFault d c 0x4702 0
  if !b.legal full then some bad
  else if full then none
  else if !bit m p || decide (b.arrived ≠ 0 ∧ b.mask ≠ m) || bit b.arrived p then some bad
  else
    let a := b.arrived + 2 ^ p
    if a = m then some ((s.setBarrier d c off ⟨b.round, m, 0, m, 0⟩ true).releaseWord d c (alignDown off 64))
    else some (s.setBarrier d c off ⟨b.round, m, a, 0, 0⟩ false)

/-- A leave of participant bit `p` (R282, R284): a word that is not full, or whose LEAVING does not name `p`, is in no state that R282 lists
for it. -/
def State.leave (s : State) (d c off p : Nat) : State :=
  let b := s.barrier d c off
  let full := (s.core d c).isFull off
  if !b.legal full || !full || !bit b.leaving p then s.coreFault d c 0x4702 0
  else if b.leaving = 2 ^ p then s.setBarrier d c off ⟨(b.round + 1) % 2 ^ 32, b.mask, 0, 0, 0⟩ false
  else s.setBarrier d c off { b with leaving := b.leaving - 2 ^ p } true

end Sys2Proof.Machine
end

