-- ==== Sys2Proof/Machine/DmaOps.lean ====
section
/-! DEFINITION. Tensor descriptors, transfer checks and the moves of a transfer (chapter 10). -/

set_option Elab.async false

namespace Sys2Proof.Machine

open Sys2Proof Enc7

/-! ### Tensor descriptors (R258 to R261) -/

def tLayout (t : List Byte) : Nat := field t 0 1 % 16
def tFmt (t : List Byte) : Nat := field t 1 1 % 16
def tNdim (t : List Byte) : Nat := field t 2 1
def tEsc (t : List Byte) : Nat := field t 3 1
def tPeer (t : List Byte) : Nat := field t 4 2 % 2 ^ 14
def tSpace (t : List Byte) : Nat := field t 4 2 / 2 ^ 14
def tBase (t : List Byte) : Nat := field t 8 8 % 2 ^ 48
def tSize (t : List Byte) (k : Nat) : Nat := field t (0x10 + 3 * k) 3 + 1
def tStride (t : List Byte) (k : Nat) : Int := toSigned 40 (field t (0x22 + 5 * (k - 1)) 5)

/-- Whether an entry holds a tensor. -/
def tValid (t : List Byte) : Bool := !t.isEmpty && decide (tLayout t < 4)

/-- The encoding of a tensor's elements. -/
def tEnc (t : List Byte) : Enc := (encOf (tFmt t)).getD .raw

/-- Vectors in a row of a BANK tensor, and its data rows (R260). -/
def tKcols (t : List Byte) : Nat := tSize t 0 / max 1 (colElems (tEnc t))
def tPerRow (t : List Byte) : Nat := 32 / max 1 (tKcols t)
def tDataRows (t : List Byte) : Nat := (tSize t 1 + tPerRow t - 1) / max 1 (tPerRow t)

/-- The address of outer index vector `ix` (dimension k at place k − 1) from dimension `k` on. -/
def tOuter (t : List Byte) : Nat → List Nat → Int
  | _, [] => 0
  | k, i :: ix => (i : Int) * tStride t k + tOuter t (k + 1) ix

/-- The bytes that elements [f, f + n) of the row at `ix` occupy: their element bytes, and for blocked formats their scale bytes (R259,
R260, R134, R219). -/
def tPieces (t : List Byte) (ix : List Nat) (f n : Nat) : List (Nat × Nat) :=
  let c := tEnc t
  let at_ := fun (o : Int) => (((tBase t : Int) + o) % (2 ^ 64 : Int)).toNat
  if tLayout t = 2 then
    let v := ix.headD 0
    let row := at_ (tOuter t 2 (ix.drop 1))
    let o := v / tPerRow t
    let c0 := v % tPerRow t * tKcols t
    let elems := (row + 1024 * o + 32 * c0 + c.bytes f, c.bytes n)
    if c.blocked then
      let per := rowBlocks c / 32
      [elems, (row + 1024 * (tDataRows t + o / scaleRows c) + o % scaleRows c * rowBlocks c + c0 * per + f / c.block, n / c.block)]
    else [elems]
  else
    let row := at_ (tOuter t 1 ix)
    let elems := (row + c.bytes f, c.bytes n)
    if c.blocked then [elems, (row + c.bytes (tSize t 0) + f / c.block, n / c.block)] else [elems]

/-- Index vectors over dimensions with the given first indices and counts, innermost fastest. -/
def indexVectors : List (Nat × Nat) → List (List Nat)
  | [] => [[]]
  | (f, n) :: ds => (indexVectors ds).flatMap fun ix => (List.range n).map fun i => (f + i) :: ix

/-- The rows of the slice of a tensor that takes `n` outermost indices from `first` on (0 for the whole), as (outer indices, first element,
elements). -/
def tRows (t : List Byte) (first n : Nat) : List (List Nat × Nat × Nat) :=
  let nd := tNdim t
  let outer := fun (k : Nat) => if k + 1 = nd ∧ n ≠ 0 then (first, n) else (0, tSize t k)
  if nd ≤ 1 then [([], (outer 0).1, (outer 0).2)]
  else (indexVectors ((List.range (nd - 1)).map fun k => outer (k + 1))).map fun ix => (ix, 0, tSize t 0)

/-- The pieces of a slice, in row order. -/
def tSlice (t : List Byte) (first n : Nat) : List (List (Nat × Nat)) := (tRows t first n).map fun r => tPieces t r.1 r.2.1 r.2.2

/-- The lowest and one past the highest byte of pieces (R263). -/
def reachOf (ps : List (Nat × Nat)) : Nat × Nat :=
  ps.foldl (fun r p => (min r.1 p.1, max r.2 (p.1 + p.2))) ((ps.headD (0, 0)).1, 0)

/-- A list of (stride, size) pairs with one more in order of stride. -/
def insertDim (x : Nat × Nat) : List (Nat × Nat) → List (Nat × Nat)
  | [] => [x]
  | y :: ys => if x.1 ≤ y.1 then x :: y :: ys else y :: insertDim x ys

/-- The span of a tensor's dimension `k` and those inside it, with dimensions ordered by |STRIDE|: whether none aliases (R264). -/
def tAliasFree (t : List Byte) : Bool :=
  let first := if tLayout t = 2 then 2 else 1
  let inner : Nat := if tLayout t = 2 then 1024 * (tDataRows t + (if (tEnc t).blocked then (tDataRows t + scaleRows (tEnc t) - 1) / scaleRows (tEnc t) else 0))
    else (tPieces t (List.replicate (tNdim t - 1) 0) 0 (tSize t 0)).foldl (fun n p => n + p.2) 0
  let dims := ((List.range (tNdim t)).filter fun k => first ≤ k && decide (1 < tSize t k)).map fun k => ((tStride t k).natAbs, tSize t k)
  let sorted := dims.foldr insertDim []
  (sorted.foldl (fun (acc : Bool × Nat) d => (acc.1 && decide (acc.2 ≤ d.1), d.1 * (d.2 - 1) + acc.2)) (true, inner)).1

/-! ### Transfer descriptors (R265) -/

def Xfer.type (x : Xfer) : Nat := field x.desc 0 1
def Xfer.strict (x : Xfer) : Bool := bit (field x.desc 1 1) 0
def Xfer.signals (x : Xfer) : Bool := bit (field x.desc 1 1) 1
def Xfer.records (x : Xfer) : Bool := bit (field x.desc 1 1) 2
def Xfer.tag (x : Xfer) : Nat := field x.desc 6 2
def Xfer.perm (x : Xfer) (k : Nat) : Nat := bits (field x.desc 8 3) (3 * k + 2) (3 * k)
def Xfer.srcFirst (x : Xfer) : Nat := field x.desc 0x10 4
def Xfer.dstFirst (x : Xfer) : Nat := field x.desc 0x14 4
def Xfer.nouter (x : Xfer) : Nat := field x.desc 0x18 4
def Xfer.cmpl (x : Xfer) : Nat := field x.desc 0x20 8
def Xfer.opnd (x : Xfer) : Nat := field x.desc 0x28 8

/-- Whether a transfer's record address is one (R264). -/
def Xfer.cmplOk (x : Xfer) (d c : Nat) : Bool := decide (x.cmpl % 64 = 0) && inSpm d c x.cmpl 64

/-- DESC_FIELD of a transfer. -/
def Xfer.fieldBad (x : Xfer) : Bool :=
  let ty := x.type
  let f := field x.desc 1 1
  !(decide (1 ≤ ty ∧ ty ≤ 5 ∧ f < 8 ∧ field x.desc 5 1 = 0 ∧ field x.desc 0x0B 5 = 0 ∧ field x.desc 0x1C 4 = 0 ∧ field x.desc 0x30 16 = 0)) ||
    (x.strict && decide (ty ≠ 3)) || (decide (4 ≤ ty) && decide (field x.desc 2 1 ≠ 0)) || (decide (ty = 5) && decide (field x.desc 3 1 ≠ 0)) ||
    (decide (ty ≠ 3) && decide (field x.desc 4 1 ≠ 0)) || (decide (ty ≠ 2) && decide (field x.desc 8 3 ≠ 0)) ||
    (decide (ty = 5) && !(decide (1 ≤ x.nouter ∧ x.nouter ≤ 256))) ||
    (decide (ty = 2) && (decide (x.nouter ≠ 0 ∨ x.srcFirst ≠ 0 ∨ x.dstFirst ≠ 0 ∨ field x.desc 8 3 ≥ 2 ^ 18) ||
      !((List.range 6).all fun k => decide (x.perm k < 6) && (decide (k < tNdim x.dst) || decide (x.perm k = k))) ||
      ((tEnc x.dst).blocked && decide (x.perm 0 ≠ 0)) ||
      decide (((List.range 6).map x.perm).eraseDups.length ≠ 6)))

/-- Whether a slice of `n` outermost indices from `first` exceeds its tensor. -/
def sliceBad (t : List Byte) (first n : Nat) : Bool :=
  let last := tSize t (tNdim t - 1)
  if n = 0 then decide (first ≠ 0) else decide (last < first + n)

/-- Outermost indices that a GATHER moves. -/
def Xfer.gathered (x : Xfer) : Nat := if x.nouter = 0 then tSize x.idx 0 else x.nouter

/-- DESC_INDEX: entries of the wrong kind, shapes that disagree under R266, or slices beyond their tensors. -/
def Xfer.indexBad (x : Xfer) : Bool :=
  let s := x.src
  let t := x.dst
  let inner := fun (n : Nat) => (List.range (n - 1)).all fun k => decide (tSize s k = tSize t k)
  match x.type with
  | 1 => !tValid s || !tValid t || decide (tNdim s ≠ tNdim t) || !inner (tNdim t) || sliceBad s x.srcFirst x.nouter ||
      sliceBad t x.dstFirst x.nouter || (decide (x.nouter = 0) && decide (tSize s (tNdim s - 1) ≠ tSize t (tNdim t - 1)))
  | 2 => !tValid s || !tValid t || decide (tNdim s ≠ tNdim t) ||
      !((List.range (tNdim t)).all fun k => decide (tSize t k = tSize s (x.perm k)))
  | 3 => !tValid s || !tValid t || !tValid x.idx || decide (tNdim x.idx ≠ 1 ∨ tFmt x.idx ≠ 12 ∨ tLayout x.idx ≠ 0) ||
      decide (tNdim s ≠ tNdim t) || !inner (tNdim t) || sliceBad t x.dstFirst x.gathered || decide (tSize x.idx 0 < x.gathered)
  | 4 => !tValid t || sliceBad t x.dstFirst x.nouter
  | _ => false

/-- Whether a COPY moves between tensors of one layout, format, sizes and strides (R267). -/
def Xfer.sameLayout (x : Xfer) : Bool :=
  decide (x.type = 1 ∧ tLayout x.src = tLayout x.dst ∧ tFmt x.src = tFmt x.dst) &&
    decide ((x.src.drop 0x10).take 43 = (x.dst.drop 0x10).take 43)

/-- Whether two reaches given as (low, high) share a byte: in memory by the bytes that either view names (R43, R44, R47), elsewhere by
address. -/
def reachesMeet (a b : Nat × Nat) : Bool :=
  if a.1 < 0x200000000000 ∧ b.1 < 0x200000000000 then rangesShare (a.1, a.2 - a.1) (b.1, b.2 - b.1)
  else decide (a.1 < b.2 ∧ b.1 < a.2)

/-- The destination's pieces, and the source's. -/
def Xfer.dstSlice (x : Xfer) : List (List (Nat × Nat)) :=
  tSlice x.dst x.dstFirst (if x.type = 3 then x.gathered else x.nouter)
def Xfer.srcSlice (x : Xfer) : List (List (Nat × Nat)) := if x.type = 3 then tSlice x.src 0 0 else tSlice x.src x.srcFirst x.nouter

/-- Whether source and destination lie in one address space: both local, or both in one peer. -/
def sameSpace (s t : List Byte) : Bool := decide (tSpace s = tSpace t ∧ tPeer s = tPeer t)

/-- DESC_OVERLAP (R267). -/
def Xfer.overlapBad (x : Xfer) : Bool :=
  if x.sameLayout ∨ 4 ≤ x.type then false
  else
    let dst := reachOf x.dstSlice.flatten
    (sameSpace x.src x.dst && reachesMeet dst (reachOf x.srcSlice.flatten)) ||
      (decide (x.type = 3) && sameSpace x.idx x.dst && reachesMeet dst (reachOf (tSlice x.idx 0 0).flatten))

/-- The first transfer check of R262 that fails, as its code (DESIGN CHOICE log 38). -/
def Xfer.check (x : Xfer) (d c : Nat) : Option Nat :=
  let both := decide (x.type ≤ 3) && tValid x.src && tValid x.dst
  if x.fieldBad || (decide (x.type = 5) && !inSpm d c x.opnd 64) then some 0x0040
  else if both && decide (tFmt x.src ≠ tFmt x.dst) then some 0x0041
  else if (x.records || x.signals) && !x.cmplOk d c then some 0x0043
  else if decide (x.type ≤ 4) && tValid x.dst && !tAliasFree x.dst then some 0x0045
  else if decide (x.type ≤ 4) && ((tValid x.dst && decide (tSpace x.dst = 1)) || (decide (x.type = 3) && decide (tSpace x.idx ≠ 0))) then
    some 0x0047
  else if x.indexBad then some 0x0048
  else if x.overlapBad then some 0x0049
  else none

/-! ### Moves -/

/-- Bytes of one source line that a transfer moves to one place; no source where zeros are written (R269). -/
structure Move where
  src : Option (Nat × Nat)
  dst : Nat × Nat
  deriving DecidableEq, Repr

/-- Source pieces moved to destination pieces of the same total length in order, each move within one source line. -/
def splitMoves : Nat → List (Nat × Nat) → List (Nat × Nat) → List Move
  | 0, _, _ => []
  | n + 1, (a, k) :: ss, (b, m) :: ts =>
    let c := min (min k m) (64 - a % 64)
    ⟨some (a, c), (b, c)⟩ ::
      splitMoves n (if k = c then ss else (a + c, k - c) :: ss) (if m = c then ts else (b + c, m - c) :: ts)
  | _, _, _ => []

/-- Bytes of pieces. -/
def piecesLen (ps : List (Nat × Nat)) : Nat := (ps.map (·.2)).sum

/-- The moves of one row. -/
def rowMoves (src dst : List (Nat × Nat)) : List Move := splitMoves (piecesLen dst + src.length + dst.length) src dst

/-- A move put in its place by destination address. -/
def insertMove (m : Move) : List Move → List Move
  | [] => [m]
  | n :: ns => if m.dst.1 ≤ n.dst.1 then m :: n :: ns else n :: insertMove m ns

/-- The signed index of element `j` of a GATHER's index tensor, as a natural number when it names a source index (R269) (DESIGN CHOICE log
38). -/
def State.gatherIndex (s : State) (x : Xfer) (j : Nat) : Option Nat :=
  let w := s.readNat (tBase x.idx + 4 * j) 4
  if w < 2 ^ 31 ∧ w < tSize x.src (tNdim x.src - 1) then some w else none

/-- Whether element `j` of a GATHER's index tensor lies in a poisoned line (R61). -/
def State.indexPoisoned (s : State) (x : Xfer) (j : Nat) : Bool := s.anyPoison (tBase x.idx + 4 * j) 4

/-- The index at which a GATHER stops: the first in a poisoned line, or with STRICT the first out of range (R269, R272). -/
def State.gatherStop (s : State) (x : Xfer) : Option Nat :=
  (List.range x.gathered).find? fun j => s.indexPoisoned x j || (x.strict && (s.gatherIndex x j).isNone)

/-- The indices that a GATHER serves. -/
def State.gatherServed (s : State) (x : Xfer) : List Nat := List.range ((s.gatherStop x).getD x.gathered)

/-- Indices out of range that a GATHER serves with zeros. -/
def State.gatherOut (s : State) (x : Xfer) : Nat := ((s.gatherServed x).filter fun j => (s.gatherIndex x j).isNone).length

/-- The moves of a COPY, PERMUTE or GATHER in order (R266): in row order, but for a same-layout copy in the order of destination
addresses, descending where the destination lies above the source (R268). -/
def State.moves (s : State) (x : Xfer) : List Move :=
  match x.type with
  | 1 =>
    let ms := (x.srcSlice.zip x.dstSlice).flatMap fun p => rowMoves p.1 p.2
    if !x.sameLayout then ms
    else
      let up := ms.foldr insertMove []
      if (reachOf x.srcSlice.flatten).1 < (reachOf x.dstSlice.flatten).1 then up.reverse else up
  | 2 =>
    (tRows x.dst 0 0).flatMap fun r =>
      let srcAt := fun (ix : List Nat) => (List.range (tNdim x.src)).map fun k =>
        match (List.range (tNdim x.src)).find? fun m => x.perm m = k with
        | some m => (ix[m]?).getD 0
        | none => 0
      if x.perm 0 = 0 then
        let j := srcAt (0 :: r.1)
        rowMoves (tPieces x.src (j.drop 1) 0 (tSize x.src 0)) (tPieces x.dst r.1 0 (tSize x.dst 0))
      else (List.range (tSize x.dst 0)).flatMap fun i =>
        let j := srcAt (i :: r.1)
        rowMoves (tPieces x.src (j.drop 1) (j.headD 0) 1) (tPieces x.dst r.1 i 1)
  | 3 =>
    (s.gatherServed x).flatMap fun j =>
      let dst := tSlice x.dst (x.dstFirst + j) 1
      match s.gatherIndex x j with
      | some i => ((tSlice x.src i 1).zip dst).flatMap fun p => rowMoves p.1 p.2
      | none => dst.flatten.map fun p => ⟨none, p⟩
  | _ => []

/-- The source pieces that a transfer fetches: those of its moves, and of a GATHER each source row once in every window of 64 consecutive
indices (R269). -/
def State.fetches (s : State) (x : Xfer) : List (Nat × Nat) :=
  if x.type = 3 then
    let js := s.gatherServed x
    (List.range ((js.length + 63) / 64)).flatMap fun w =>
      (((js.drop (64 * w)).take 64).filterMap (s.gatherIndex x)).eraseDups.flatMap fun i => (tSlice x.src i 1).flatten
  else (s.moves x).filterMap (·.src)

/-- Bytes written over pieces in order. -/
def State.putPieces (s : State) (ps : List (Nat × Nat)) (data : List Byte) : State :=
  match ps with
  | [] => s
  | (a, n) :: ps => (s.writeBytes a (data.take n)).putPieces ps (data.drop n)

/-- The 64-byte lines that pieces touch. -/
def linesOf (ps : List (Nat × Nat)) : List Nat := (ps.flatMap fun p => (piecesOf p.1 p.2).map fun q => alignDown q.1 64).eraseDups

/-- The lines of which pieces cover only a part. -/
def partLines (ps : List (Nat × Nat)) : List Nat :=
  (linesOf ps).filter fun l => decide (((ps.flatMap fun p => piecesOf p.1 p.2).filter fun q => alignDown q.1 64 = l).foldl (fun n q => n + q.2) 0 < 64)

end Sys2Proof.Machine
end

