-- ==== Sys2Proof/Machine/KvOps.lean ====
section
/-! DEFINITION. The KV manager's structures and the operations of its ring logic: pools and frames, models, length tables, page tables,
look-aside buffers, allocation, references and pins, and far-tier transfers (R302 to R312, R317 to R322). -/

set_option Elab.async false

namespace Sys2Proof.Machine

open Sys2Proof

/-- The state with the KV manager's part replaced by its image. -/
def State.onKv (s : State) (f : Kv → Kv) : State := { s with kv := f s.kv }

/-- An effect that needs accesses to memory, as (address, length, write): it takes place once all can be served, and until then the
requests to hosts that they need are out (R53, R56). -/
def State.withMem (s : State) (ag : Agent) (ps : List (Nat × Nat × Bool)) (f : State → State) : State :=
  if ps.all fun p => s.ready ag p.1 p.2.1 p.2.2 then ps.foldl (fun s p => s.useObtained p.1 p.2.1) (f s)
  else ps.foldl (fun s p => s.ask ag p.1 p.2.1 p.2.2) s

/-! ### Frame descriptors (R309) -/

/-- The KV structures region, as (base, size). -/
def State.kvRegion (s : State) : Nat × Nat :=
  ((s.entries 0x0005).findSome? fun e => match e with | .kvRegion b n => some (b, n) | _ => none).getD (0, 0)

/-- The bytes of the frame descriptors. -/
def State.kvFrameBytes (s : State) : Nat := (s.pools.map fun p => p.banks.length * p.perBank).sum * 32

/-- A field of a frame's descriptor, and the state with it written. -/
def State.fd (s : State) (f off n : Nat) : Nat := s.readNat (s.kvRegion.1 + 32 * f + off) n
def State.setFd (s : State) (f off n v : Nat) : State := s.writeBytes (s.kvRegion.1 + 32 * f + off) (leBytes n v)

/-- STATE, NOSPILL, REFS and PINS of a frame. -/
def State.fdState (s : State) (f : Nat) : Nat := s.fd f 0 1
def State.noSpill (s : State) (f : Nat) : Bool := bit (s.fd f 1 1) 0
def State.refs (s : State) (f : Nat) : Nat := s.fd f 4 4
def State.pinsOf (s : State) (f : Nat) : Nat := s.fd f 8 4

/-- A frame with its state, its owner and one reference. -/
def State.ownFrame (s : State) (f state : Nat) (pg : PageId) : State :=
  let s := ((s.setFd f 0 1 state).setFd f 2 2 pg.plane).setFd f 4 4 1
  let s := ((s.setFd f 0x0C 2 pg.seq).setFd f 0x0E 2 pg.index).setFd f 0x10 8 (s.frameAddr f)
  s.onKv fun x => { x with used := insertNat f x.used }

/-- A frame reclaimed: FREE, its flag cleared (R309, R317). -/
def State.reclaim (s : State) (f : Nat) : State :=
  (((s.setFd f 0 2 0).setFd f 4 4 0).setFd f 8 4 0).onKv fun x => { x with used := x.used.filter (· ≠ f) }

/-! ### Models and sequences (R306, R307) -/

/-- A KV model record (R306). -/
structure KvModel where
  addr : Nat
  fmt : Nat
  kc : Nat
  h : Nat
  g : Nat
  layers : Nat
  ngroups : Nat
  smscale : Nat
  ropeBase : Nat
  ropeScale : Nat
  seqBase : Nat
  nseq : Nat
  lt : Nat
  sset : Nat
  pool : Nat
  lookahead : Nat
  deriving DecidableEq, Repr

/-- A record's fields. -/
def kvModel (addr : Nat) (b : List Byte) : KvModel where
  addr := addr
  fmt := field b 0 1
  kc := field b 1 1
  h := field b 2 1
  g := field b 3 1
  layers := field b 4 2
  ngroups := field b 6 2
  smscale := field b 8 4
  ropeBase := field b 0x0C 4
  ropeScale := field b 0x10 4
  seqBase := field b 0x14 2
  nseq := field b 0x16 2
  lt := field b 0x18 8
  sset := field b 0x20 8
  pool := field b 0x28 1
  lookahead := field b 0x29 1

namespace KvModel

/-- The encoding, the head dimension D, scale rows per head, data rows and used rows of a slot (R303, R304). -/
def enc (m : KvModel) : Enc := (encOf m.fmt).getD .bf16
def dim (m : KvModel) : Nat := m.kc * colElems m.enc
def scaleRowsPerHead (m : KvModel) : Nat := if m.enc.blocked then (16 * m.kc + scaleRows m.enc - 1) / scaleRows m.enc else 0
def frameRows (m : KvModel) : Nat := 16 * m.kc * m.h
def metaRows (m : KvModel) : Nat := 1 + m.h * m.scaleRowsPerHead
def planes (m : KvModel) : Nat := m.layers * m.ngroups
def heads (m : KvModel) : Nat := m.ngroups * m.h * m.g

/-- Whether a sequence ID is one of the model's. -/
def holds (m : KvModel) (seq : Nat) : Bool := decide (m.seqBase ≤ seq ∧ seq < m.seqBase + m.nseq)

end KvModel

/-- The model whose record lies at an address. -/
def State.model (s : State) (addr : Nat) : KvModel := kvModel addr (s.readBytes addr 64)

/-- The models of all tasks, and the one that holds a sequence. -/
def State.models (s : State) : List KvModel := (s.ldr.tasks.flatMap (·.models)).map s.model
def State.modelOf (s : State) (seq : Nat) : Option KvModel := s.models.find? (·.holds seq)

/-- A row of a length table (R307). -/
structure SeqRow where
  at_ : Nat
  length : Nat
  state : Nat
  flags : Nat
  pagesMax : Nat
  pt : Nat
  window : Nat
  home : Nat
  start : Nat
  reserved : Nat
  deriving DecidableEq, Repr

/-- The row of a sequence of a model. -/
def State.seqRow (s : State) (m : KvModel) (seq : Nat) : SeqRow :=
  let a := m.lt + (seq - m.seqBase) * 32
  let b := s.readBytes a 32
  ⟨a, field b 0 4, field b 4 1, field b 5 1, field b 6 2, field b 8 8, field b 0x10 4, field b 0x14 1, field b 0x15 1, field b 0x18 4⟩

namespace SeqRow

def windowed (r : SeqRow) : Bool := bit r.flags 0
def packed (r : SeqRow) : Bool := bit r.flags 1
def fallback (r : SeqRow) : Bool := bit r.flags 2

end SeqRow

/-- The ring length of a window (R307). -/
def ringLen (w : Nat) : Nat := (w + 255) / 256 + 1

/-- The entry index of page `n`, and the page that an index holds now. -/
def SeqRow.indexOf (r : SeqRow) (n : Nat) : Nat := if r.windowed then n % ringLen r.window else n
def SeqRow.pageAt (r : SeqRow) (i : Nat) : Nat :=
  if r.windowed then
    let last := (r.length - 1) / 256
    let back := (last + ringLen r.window - i % ringLen r.window) % ringLen r.window
    if back ≤ last then last - back else i
  else i

/-- The field writes of a row. -/
def State.setRow (s : State) (r : SeqRow) (off n v : Nat) : State := s.writeBytes (r.at_ + off) (leBytes n v)

/-! ### Page-table entries (R308) -/

/-- The address of an entry; 0 for a sequence that no model holds. -/
def State.entryAddr (s : State) (pg : PageId) : Nat :=
  match s.modelOf pg.seq with
  | some m => let r := s.seqRow m pg.seq
              r.pt + (pg.plane * r.pagesMax + pg.index) * 16
  | none => 0

/-- An entry's first word, its far slot and its CRC; the state with an entry written. -/
def State.entryWord (s : State) (pg : PageId) : Nat := s.readNat (s.entryAddr pg) 8
def State.entrySlot (s : State) (pg : PageId) : Nat := s.readNat (s.entryAddr pg + 8) 4
def State.entryCrc (s : State) (pg : PageId) : Nat := s.readNat (s.entryAddr pg + 12) 4
def State.setEntry (s : State) (pg : PageId) (word slot crc : Nat) : State :=
  s.writeBytes (s.entryAddr pg) (leBytes 8 word ++ leBytes 4 slot ++ leBytes 4 crc)

def enPresent (w : Nat) : Bool := bit w 63
def enFar (w : Nat) : Bool := bit w 62
def enMoving (w : Nat) : Bool := bit w 61
def enPoison (w : Nat) : Bool := bit w 60
def enFrame (w : Nat) : Nat := bits w 57 32

/-- The first words of the legal combinations. -/
def wordPresent (f : Nat) : Nat := 2 ^ 63 + f * 2 ^ 32
def wordSpilling : Nat := 2 ^ 61
def wordSpilled : Nat := 2 ^ 62
def wordFetching : Nat := 2 ^ 62 + 2 ^ 61
def wordPoisoned : Nat := 2 ^ 60

/-- Every entry of a sequence, plane by plane. -/
def seqPages (m : KvModel) (r : SeqRow) (seq : Nat) : List PageId :=
  (List.range m.planes).flatMap fun p => (List.range r.pagesMax).map fun i => ⟨seq, p, i⟩

/-- The entry of any sequence that names a frame. -/
def State.ownerOf (s : State) (f : Nat) : Option PageId :=
  s.models.findSome? fun m => (List.range m.nseq).findSome? fun i =>
    let seq := m.seqBase + i
    let r := s.seqRow m seq
    if r.state = 0 then none
    else (seqPages m r seq).find? fun pg => let w := s.entryWord pg; enPresent w && decide (enFrame w = f)

/-! ### Look-aside buffers (R311) -/

/-- An entry invalidated in every look-aside buffer of the module, each that held it counted. -/
def State.labInvalidate (s : State) (pg : PageId) : State :=
  (List.range 32).foldl (fun s c =>
    if (mget [] s.kv.labs c).contains pg then
      (s.countFld (c / 4) (c % 4) 0 KVM_LAB_STAT.INVALS 1).onKv fun x => { x with labs := mput x.labs c ((mget [] x.labs c).filter (· ≠ pg)) }
    else s) s

/-- A page resolved by the walker of a cluster: the entry's word, with the buffer of 64 present entries and its misses as the look-up leaves
them. -/
def State.walk (s : State) (d k : Nat) (pg : PageId) : Nat × State :=
  let c := d * 4 + k
  let w := s.entryWord pg
  let lab := mget [] s.kv.labs c
  let s := if lab.contains pg then s else s.countFld d k 0 KVM_LAB_STAT.MISSES 1
  let s := if enPresent w then s.onKv fun x => { x with labs := mput x.labs c ((pg :: lab.filter (· ≠ pg)).take 64) } else s
  (w, s)

/-! ### Pins and references (R310, R317) -/

/-- A pin, which succeeds only on a frame IN_USE. -/
def State.pin (s : State) (f : Nat) : Option State :=
  if s.fdState f = 2 then some ((s.setFd f 8 4 (s.pinsOf f + 1)).setFd f 0x18 4 (s.time (s.frameDie f) / 2 ^ 16 % 2 ^ 32)) else none

/-- An unpin; the last one of an ORPHAN reclaims it. -/
def State.unpin (s : State) (f : Nat) : State :=
  let n := s.pinsOf f - 1
  let s := s.setFd f 8 4 n
  if n = 0 ∧ s.fdState f = 5 then s.reclaim f else s

/-- One reference more. -/
def State.addRef (s : State) (f : Nat) : State := s.setFd f 4 4 (s.refs f + 1)

/-- One reference less, after the entry that held it has changed: the last one reclaims the frame, or leaves an ORPHAN while it is pinned;
a single one left owns it. -/
def State.dropRef (s : State) (f : Nat) : State :=
  let n := s.refs f - 1
  let s := s.setFd f 4 4 n
  if n = 0 then (if s.pinsOf f = 0 then s.reclaim f else s.setFd f 0 1 5)
  else if n = 1 then
    (match s.ownerOf f with
     | some pg => ((s.setFd f 2 2 pg.plane).setFd f 0x0C 2 pg.seq).setFd f 0x0E 2 pg.index
     | none => s)
  else s

/-! ### The far tier's place (R320) -/

/-- The host port behind which the far tier lies. -/
def State.farPort (s : State) : Option Nat := match s.far with | some (.host p, _) => some p | _ => none

/-- The first far slot of a die, and its count. -/
def State.farRange (s : State) (d : Nat) : Nat × Nat :=
  match s.far with
  | some (_, _, _, _, ds) => ((ds.take d).sum, (ds[d]?).getD 0)
  | none => (0, 0)

/-- The lowest free far slot of a die. -/
def State.farSlot (s : State) (d : Nat) : Option Nat :=
  let r := s.farRange d
  ((List.range r.2).find? fun i => !s.kv.farUsed.contains (r.1 + i)).map (r.1 + ·)

/-- The die that owns a far slot. -/
def State.farDie (s : State) (slot : Nat) : Nat :=
  ((List.range 8).find? fun d => let r := s.farRange d; decide (r.1 ≤ slot ∧ slot < r.1 + r.2)).getD 0

/-- The address of a byte of the region. -/
def State.farAddr (s : State) (off : Nat) : Nat := match s.far with | some (_, b, _) => b + off | none => 0
def State.farSlotAddr (s : State) (slot : Nat) : Nat := match s.far with | some (_, b, n, _) => b + slot * n | none => 0

/-- The pieces of at most 2,048 bytes that Caravan requests for a range take. -/
def farChunks (n : Nat) : List (Nat × Nat) := (List.range ((n + 2047) / 2048)).map fun i => (i * 2048, min 2048 (n - i * 2048))

/-- The owner of a far-tier transfer's requests. -/
def farOwner (id off : Nat) : Nat × Nat × Nat × Nat := (13, id, 0, off)
def farOwns (id : Nat) (o : Nat × Nat × Nat × Nat) : Bool := decide (o.1 = 13 ∧ o.2.1 = id)

/-- The writes of far-tier data by die `d`: posted to a host and followed by a read of their last line (R396), or WRITEs to a peer (DESIGN
CHOICE log 43). -/
def State.farWrite (s : State) (d id at_ : Nat) (data : List Byte) : State :=
  match s.far with
  | some (.host p, _) => (s.send (.hostWrite p at_ data)).send (.hostRead p (alignDown (at_ + data.length - 1) 64) 4)
  | some (.peer m, _) => (farChunks data.length).foldl (fun s c =>
      s.requestWrite d 0x4C (carAddr m 0 0x50) (at_ + c.1) ((data.drop c.1).take c.2) (farOwner id c.1)) s
  | none => s

/-- The reads of `n` bytes of far-tier data by die `d` (DESIGN CHOICE log 43). -/
def State.farRead (s : State) (d id at_ n : Nat) : State :=
  match s.far with
  | some (.host p, _) => s.send (.hostRead p at_ n)
  | some (.peer m, _) => (farChunks n).foldl (fun s c => s.requestRead d 0x4C (carAddr m 0 0x50) (at_ + c.1) c.2 (farOwner id c.1)) s
  | none => s

/-- The outcome of a transfer's requests to a peer: none while a response is missing, else the first status other than OK and the data read.
A host answers outside the model. -/
def State.farResult (s : State) (id : Nat) : Option (Nat × List Byte) :=
  let rs := s.reqsOf (farOwns id)
  if rs.any (·.result.isNone) then none
  else some ((rs.findSome? fun r => match r.result with | some (st, _) => if st = 0 then none else some st | none => none).getD 0,
    rs.flatMap fun r => match r.result with | some (_, b) => padTo r.len 0 b | none => [])

/-! ### Allocation (R312) -/

/-- The stacks that take pages of a plane, in ascending order. -/
def State.stackSet (s : State) (m : KvModel) (plane : Nat) : List Nat := bitSet 32 (s.readNat (m.sset + 4 * plane) 4)

/-- Frames in use in a bank of a pool. -/
def State.usedIn (s : State) (b : PoolBank) : Nat := (s.kv.used.filter fun f => b.first ≤ f && f < b.first + b.pool.perBank).length

/-- The lowest free frame of a bank: lowest band, then lowest slot. -/
def State.freeIn (s : State) (b : PoolBank) : Option Nat :=
  ((List.range b.pool.perBank).find? fun i => !s.kv.used.contains (b.first + i)).map (b.first + ·)

/-- The bank of a list with the most free slots, the first among equals. -/
def State.emptiest (s : State) : List PoolBank → Option PoolBank
  | [] => none
  | b :: bs =>
    match s.emptiest bs with
    | some c => if s.usedIn b ≤ s.usedIn c then some b else some c
    | none => some b

/-- The frame for page `n` of a plane: the stacks of its set in turn from START + n, the emptiest pool bank of the stack, its lowest slot. -/
def State.pickFrame (s : State) (m : KvModel) (plane start n : Nat) : Option Nat :=
  let st := s.stackSet m plane
  (List.range st.length).findSome? fun i =>
    match st[(start + n + i) % st.length]? with
    | some k => (s.emptiest (s.poolBanks.filter fun b => b.pool.index = m.pool && b.bank.stk = k)).bind s.freeIn
    | none => none

/-- Whether a frame may be spilled (R320). -/
def State.spillable (s : State) (f : Nat) : Bool := decide (s.fdState f = 2 ∧ s.refs f = 1 ∧ s.pinsOf f = 0) && !s.noSpill f

/-- Whether a die's engine can spill at all: a reachable far tier with a free slot of the die's. -/
def State.tierOpen (s : State) (d : Nat) : Bool := s.far.isSome && !s.kv.unreachable && (s.farSlot d).isSome

/-- Whether a spill under way or still possible can free a frame for a plane. -/
def State.mayFree (s : State) (m : KvModel) (plane : Nat) : Bool :=
  let st := s.stackSet m plane
  s.kv.used.any fun f =>
    (match s.frameBank f with | some b => decide (b.pool.index = m.pool) && st.contains b.bank.stk | none => false) &&
      (decide (s.fdState f = 3) || (s.spillable f && s.tierOpen (s.frameDie f)))

/-- The dies of a plane's stacks noted as having an allocation that waits for a spill. -/
def State.starve (s : State) (m : KvModel) (plane : Nat) : State :=
  s.onKv fun x => { x with hungry := ((s.stackSet m plane).map (· / 4)).foldl (fun l d => insertNat d l) x.hungry }

/-- A frame taken for a page, in a state of R309. -/
def State.takeFrame (s : State) (m : KvModel) (start n state : Nat) (pg : PageId) : Option (Nat × State) :=
  (s.pickFrame m pg.plane start n).map fun f => (f, s.ownFrame f state pg)

/-! ### Copy-on-write (R317) -/

/-- The bytes of a slot copied to another, with its poisoned lines. -/
def State.copySlot (s : State) (src dst n : Nat) : State :=
  (List.range (n / 64)).foldl (fun s' i => s'.writePiece (dst + 64 * i) (s.readBytes (src + 64 * i) 64) (s.poisonedAt (src + 64 * i))) s

/-- The writer's page gets its own copy of a shared frame, in the same bank where one is free; none where no frame is. -/
def State.copyOnWrite (s : State) (m : KvModel) (start n : Nat) (pg : PageId) : Option State :=
  let f := enFrame (s.entryWord pg)
  let own := (s.frameBank f).bind s.freeIn
  (if own.isSome then own else s.pickFrame m pg.plane start n).map fun g =>
    let s := (s.ownFrame g 2 pg).copySlot (s.frameAddr f) (s.frameAddr g) (s.slotLen f)
    ((s.labInvalidate pg).setEntry pg (wordPresent g) 0 0).dropRef f

/-! ### Transfers (R320 to R322) -/

/-- The transfer of an entry. -/
def State.jobOf (s : State) (pg : PageId) : Option FarJob := s.kv.farJobs.find? fun j => j.page = pg

/-- A transfer begun. -/
def State.addJob (s : State) (d : Nat) (spill : Bool) (pg : PageId) (n frame slot crc : Nat) : State :=
  let t := s.time d
  s.onKv fun x => { x with
    farJobs := x.farJobs ++ [(⟨x.farNext, d, spill, pg, n, frame, slot, t, crc⟩ : FarJob)]
    farNext := x.farNext + 1
    farUsed := insertNat slot x.farUsed }

/-- A transfer over, with its requests. -/
def State.endJob (s : State) (j : FarJob) : State :=
  (s.dropReqs (farOwns j.id)).onKv fun x => { x with farJobs := x.farJobs.filter (·.id ≠ j.id) }

/-- A far slot freed. -/
def State.freeSlot (s : State) (slot : Nat) : State := s.onKv fun x => { x with farUsed := x.farUsed.filter (· ≠ slot) }

/-- The prefetch of a spilled page (R321): a frame in FILLING on the stack that the page number gives, the entry fetching, the slot read; none
where no frame is free. -/
def State.fetch (s : State) (pg : PageId) : Option State :=
  match s.modelOf pg.seq with
  | none => none
  | some m =>
    let r := s.seqRow m pg.seq
    let n := r.pageAt pg.index
    let slot := s.entrySlot pg
    (s.takeFrame m r.start n 4 pg).map fun fs =>
      let s := (fs.2.setEntry pg wordFetching slot (s.entryCrc pg)).onKv fun x => { x with wanted := x.wanted.filter (· ≠ pg) }
      let d := s.farDie slot
      let id := s.kv.farNext
      (s.addJob d false pg n fs.1 slot 0).farRead d id (s.farSlotAddr slot) (s.slotLen fs.1)

/-- The prefetch of a page asked for (R312, R321): begun where the page is spilled and the tier reachable, or, without a frame, noted to begin
once a spill has freed one; none where no spill can. -/
def State.askPage (s : State) (pg : PageId) : Option State :=
  if s.entryWord pg ≠ wordSpilled ∨ s.kv.unreachable then some s
  else match s.fetch pg, s.modelOf pg.seq with
    | some t, _ => some t
    | none, some m =>
      if s.mayFree m pg.plane then
        some ((s.starve m pg.plane).onKv fun x => { x with wanted := if x.wanted.contains pg then x.wanted else x.wanted ++ [pg] })
      else none
    | none, none => none

/-- The prefetches of pages asked for, and whether each can get a frame. -/
def askNext (a : State × Bool) (pg : PageId) : State × Bool := match a.1.askPage pg with | some t => (t, a.2) | none => (a.1, false)
def State.askPages (s : State) (pages : List PageId) : State × Bool := pages.foldl askNext (s, true)

/-! ### Freeing a sequence (R314) -/

/-- An entry's reference dropped, unless a transfer is in flight on it. -/
def State.dropEntry (s : State) (pg : PageId) : State :=
  let w := s.entryWord pg
  if w = 0 ∨ enMoving w then s
  else
    let slot := s.entrySlot pg
    let s := (if enPresent w then s.labInvalidate pg else s).setEntry pg 0 0 0
    let s := s.onKv fun x => { x with wanted := x.wanted.filter (· ≠ pg) }
    if enPresent w then s.dropRef (enFrame w) else if enFar w then s.freeSlot slot else s

/-- The frames reserved for a sequence. -/
def State.reservedFor (s : State) (seq : Nat) : List Nat := s.kv.used.filter fun f => decide (s.fdState f = 1 ∧ s.fd f 0x0C 2 = seq)

/-- Whether a step runs on a sequence: one that has not completed, with a row of the sequence that has passed its checks (R314, R325). -/
def State.stepping (s : State) (seq : Nat) : Bool :=
  s.kv.steps.any fun x => !x.ended && x.rows.any fun r => decide (r.phase ≠ 0 ∧ (r.prec < 2 ∨ 5 < r.prec) ∧ field r.bytes 0 2 = seq)

/-- CLOSING ends (R314): with no transfer and no step of the sequence running, the page table is released and the row is FREE. -/
def State.endClosing (s : State) (seq : Nat) : State :=
  match s.modelOf seq with
  | none => s
  | some m =>
    let r := s.seqRow m seq
    if r.state = 3 ∧ !s.stepping seq ∧ (s.kv.farJobs.all fun j => j.page.seq ≠ seq) then
      (s.setRow r 4 1 0).onKv fun x => { x with ranges := x.ranges.filter fun y => y.1 ≠ r.pt }
    else s

/-- A sequence freed: CLOSING, every reference dropped but those of pages in flight, reserved frames reclaimed. -/
def State.freeSeq (s : State) (seq : Nat) : State :=
  match s.modelOf seq with
  | none => s
  | some m =>
    let r := s.seqRow m seq
    if r.state = 0 then s
    else
      let s := s.setRow r 4 1 3
      let s := (seqPages m r seq).foldl (fun s pg => s.dropEntry pg) s
      let s := (s.reservedFor seq).foldl (fun s f => s.reclaim f) s
      s.endClosing seq

/-- The end of a transfer on a page of a closing sequence: its reference is dropped too. -/
def State.afterJob (s : State) (pg : PageId) : State :=
  match s.modelOf pg.seq with
  | some m => if (s.seqRow m pg.seq).state = 3 then (s.dropEntry pg).endClosing pg.seq else s
  | none => s

/-! ### An unreachable far tier (R322) -/

/-- A transfer abandoned: a spill leaves its page present in its frame, a prefetch releases its frame and leaves its page spilled. -/
def State.abandonJob (s : State) (j : FarJob) : State :=
  let s := s.endJob j
  let s :=
    if j.spill then ((s.setFd j.frame 0 1 2).setEntry j.page (wordPresent j.frame) 0 0).freeSlot j.slot
    else (s.setEntry j.page wordSpilled j.slot (s.entryCrc j.page)).reclaim j.frame
  s.afterJob j.page

/-- Rows that wait for a prefetch in flight complete with REFUSED, reason 0x0050. -/
def refuseWaiting (jobs : List FarJob) (r : StepRow) : StepRow :=
  if r.phase < 9 ∧ (jobs.any fun j => !j.spill && r.waits.contains j.page) ∧ 7 < r.prec then { r with prec := 7, status := 5, reason := 0x0050 } else r

/-- The far tier becomes unreachable. -/
def State.farUnreachable (s : State) : State :=
  if s.far.isNone ∨ s.kv.unreachable then s
  else
    let jobs := s.kv.farJobs
    let s := s.onKv fun x => { x with
      unreachable := true
      wanted := []
      steps := x.steps.map fun y => { y with rows := y.rows.map (refuseWaiting jobs) } }
    jobs.foldl (fun s j => s.abandonJob j) s

/-- Whether the cause of an unreachable far tier has ended. -/
def State.causeEnded (s : State) : Bool :=
  match s.far with
  | some (.host p, _) => decide ((s.port p).proto ≠ 0) && (s.port p).busMaster
  | some (.peer m, _) => !s.fab.down.contains m && (match s.groupOfModule m with
    | some g => !(s.routePorts m g).isEmpty
    | none => false)
  | none => false

/-! ### Replies (R313) -/

/-- A reply to the target of a record, where that target is well formed. -/
def State.replyIf (s : State) (sender target pointer tag : Nat) : State := if replyOk target then s.replyTo sender target pointer tag else s

end Sys2Proof.Machine
end

