-- ==== Sys2Proof/Machine/Verifier.lean ====
section
/-! DEFINITION. The verifier of task images, steps 1 to 3 of R345: format, grade, records and instructions (R188 to R210, R244). -/

set_option Elab.async false

namespace Sys2Proof.Machine

open Sys2Proof Enc7

/-! ### Rejections -/

/-- A rejection (R347): its code and detail, and the item that it names. -/
structure Reject where
  code : Nat
  detail : Nat := 0
  sect : Nat := 0xFF
  die : Nat := 0xFF
  core : Nat := 0xFF
  stream : Nat := 0xFF
  index : Nat := 0xFFFFFFFF
  block : Nat := 0xFFFF
  shortfall : Nat := 0
  deriving DecidableEq, Repr

/-- The order of items within a step (R345): die, core, stream, index, then the code; a field that does not apply comes last (DESIGN CHOICE
log 45). -/
def Reject.key (r : Reject) : Nat := (((r.die * 256 + r.core) * 256 + r.stream) * 2 ^ 32 + r.index) * 2 ^ 16 + r.code

/-- The first of a step's failures, in the order of items (DESIGN CHOICE log 45). -/
def firstReject : List Reject → Option Reject
  | [] => none
  | r :: rs =>
    match firstReject rs with
    | some q => if r.key ≤ q.key then some r else some q
    | none => some r

/-- A failure where a condition does not hold. -/
def unless_ (ok : Bool) (r : Reject) : List Reject := if ok then [] else [r]

/-! ### What an image holds for a core -/

/-- A core of an image: its record's index and bytes, its two programs, pattern entries, control region and token bounds. -/
structure CoreImg where
  ri : Nat
  cr : List Byte
  a : List Nat
  x : List Nat
  pats : List (List Byte)
  region : List Byte
  bounds : List Nat
  deriving DecidableEq, Repr

/-- Instruction words of an image from an offset. -/
def imgWords (img : List Byte) (off n : Nat) : List Nat := (List.range n).map fun i => field (imgBytes img (off + 16 * i) 16) 0 16

/-- The token bounds of core record `i`, 0 where the image has no TOKENS section. -/
def imgBounds (img : List Byte) (i : Nat) : List Nat :=
  match (imgEntries img 6)[i]? with
  | some b => (List.range 16).map fun t => field b t 1
  | none => List.replicate 16 0

/-- The cores of an image, in record order. -/
def coreImgs (img : List Byte) : List CoreImg :=
  (imgEntries img 1).zipIdx.map fun ri =>
    let r := ri.1
    { ri := ri.2
      cr := r
      a := imgWords img (crAOff r) (crACount r)
      x := imgWords img (crXOff r) (crXCount r)
      pats := (List.range 64).map fun i => imgBytes img (crPatOff r + 64 * i) 64
      region := imgBytes img (crTregOff r) 0xC000
      bounds := imgBounds img ri.2 }

namespace CoreImg

def die (k : CoreImg) : Nat := crDie k.cr
def core (k : CoreImg) : Nat := crCore k.cr

/-- The words of a stream. -/
def words (k : CoreImg) (x : Bool) : List Nat := if x then k.x else k.a

/-- A rejection that names the core's record. -/
def rejRecord (k : CoreImg) (code : Nat) : Reject := { code := code, sect := 1, die := k.die, core := k.core, index := k.ri }

/-- A rejection that names an instruction. -/
def rejInsn (k : CoreImg) (code : Nat) (x : Bool) (i : Nat) : Reject :=
  { code := code, sect := 1, die := k.die, core := k.core, stream := flag x, index := i }

/-- The number of a block within its stream: the BLOCKs before index `i`. -/
def blockNo (k : CoreImg) (x : Bool) (i : Nat) : Nat := (((k.words x).take i).filter fun w => opc w = opBLOCK).length

end CoreImg

/-! ### Step 1: format (R338) -/

/-- Whether two ranges given as (offset, length) share a byte. -/
def spansMeet (a b : Nat × Nat) : Bool := decide (a.1 < b.1 + b.2 ∧ b.1 < a.1 + a.2 ∧ a.2 ≠ 0 ∧ b.2 ≠ 0)

/-- Whether section entry `i` breaks R338. -/
def sectionBad (img : List Byte) (i : Nat) : Bool :=
  let e := imgBytes img (0x40 + 16 * i) 16
  let (ty, n, off, len) := imgSection img i
  let limit := if ty = 1 then 512 else if ty = 3 then 4096 else if ty = 4 then 16 else 2 ^ 32
  !(decide (field e 1 3 = 0 ∧ 1 ≤ ty ∧ ty ≤ 6 ∧ off % 64 = 0 ∧ off + len ≤ img.length ∧ len = n * entrySize ty ∧ n ≤ limit)) ||
    ((imgSections img).zipIdx.any fun y => decide (y.2 < i) && (decide (y.1.1 = ty) || spansMeet (off, len) (y.1.2.2.1, y.1.2.2.2)))

/-- Whether the header breaks R338. -/
def headerBad (img : List Byte) (bytes area : Nat) : Bool :=
  let n := field img 6 2
  !(decide (field img 0 4 = 0x4954474B ∧ 1 ≤ n ∧ n ≤ 6 ∧ field img 8 4 = bytes ∧ bytes ≤ area ∧ 0x40 + 16 * n ≤ img.length ∧
      field img 0x18 40 = 0 ∧ field img 0x0C 4 = crc32c (splice img 0x0C (leBytes 4 0)))) ||
    !((imgSections img).any fun y => y.1 = 1) ||
    ((imgSections img).any fun y => decide (y.1 = 6 ∧ y.2.1 ≠ (imgEntries img 1).length))

/-- Step 1 of R345. -/
def verifyFormat (img : List Byte) (bytes area : Nat) : Option Reject :=
  match (List.range (field img 6 2)).find? (sectionBad img) with
  | some i => some { code := 0x0101, sect := (imgSection img i).1, index := i }
  | none =>
    if headerBad img bytes area then some { code := 0x0101 }
    else if field img 4 2 ≠ 1 then some { code := 0x0102 }
    else firstReject ((coreImgs img).flatMap fun k => unless_ (decide (crACount k.cr ≤ 4096 ∧ crXCount k.cr ≤ 4096)) (k.rejRecord 0x0103))

/-! ### Step 2: grade (R197, R198, R346) -/

/-- Whether an instruction names DE1. -/
def namesDe1 (w : Nat) : Bool := (decide (opc w = opXFER) && xferEngine w) || (decide (opc w = opBARRIER) && bit (syncMask w) 2)

/-- Step 2 of R345. -/
def State.verifyGrade (s : State) (img : List Byte) : Option Reject :=
  firstReject ((coreImgs img).flatMap fun k =>
    if 8 ≤ k.die ∨ 64 ≤ k.core then []
    else
      let de1 := s.de1Present k.die k.core
      unless_ (s.corePresent k.die k.core) (k.rejRecord 0x0104) ++
        k.a.zipIdx.flatMap fun wi => unless_ (de1 || !namesDe1 wi.1) (k.rejInsn 0x0104 false wi.2))

/-! ### Step 3: fields of an instruction (R186 to R210) -/

/-- Whether an opcode may stand in a stream (R187). -/
def opLegal (x : Bool) (o : Nat) : Bool :=
  [opBLOCK, opENDBLOCK, opEND].contains o ||
    (if x then [opMMA, opVOP, opVGATHER, opOCALL] else [opLOAD, opSTORE, opXFER, opWAIT, opSIGNAL, opBARRIER]).contains o

/-- A field that its valid bit leaves unused is 0. -/
def unusedOk (v : Bool) (f : Nat) : Bool := v || decide (f = 0)

/-- The token fields of R186. -/
def tokensOk (w : Nat) : Bool := unusedOk (bit w 119) (bits w 118 115) && unusedOk (bit w 114) (bits w 113 110)

/-- The formats that an MMA pairs (R201). -/
def mmaPairOk (a w : Nat) : Bool :=
  if [0, 1, 2, 3, 0xA, 0xB].contains a then [0, 1, 2, 3, 7, 8, 0xA, 0xB].contains w else [4, 5].contains a && [4, 5].contains w

/-- MMA (R200, R201, R203); `prev` is the nearest earlier MMA of the block. -/
def mmaOk (prev : Option Nat) (w : Nat) : Bool :=
  decide (bits w 28 0 = 0 ∧ mOfmt w ≠ 3) && unusedOk (!mKeep w) (mQW w) && unusedOk (mEsc w) (mQE w) && unusedOk (mAcc w) (mQC w) &&
    mmaPairOk (mAfmt w) (mWfmt w) && (decide (mWfmt w ≠ 8) || decide (mK w % 160 = 0)) &&
    (!mEsc w || ([0, 7, 8, 0xA, 0xB].contains (mWfmt w) && !mKeep w)) &&
    (!mKeep w || (decide (mN w ≤ 128 ∧ mK w ≤ residentDepth (mWfmt w)) && (match prev with
      | some v => decide (mWfmt v = mWfmt w ∧ mK v = mK w ∧ mN v = mN w) && !mKeep v && !mEsc v
      | none => false)))

/-- IMM of a VOP (R205). -/
def vopImmOk (fn imm : Nat) : Bool :=
  if fn = 7 ∨ fn = 8 then true
  else if fn = 0x0C then decide (imm ≤ 4)
  else if fn = 0x0D then decide (imm ≤ 5)
  else if fn = 0x10 then decide (bits imm 3 0 ≤ 6 ∧ bits imm 7 4 = 0)
  else if fn = 0x11 then decide (bits imm 7 0 = 0)
  else if fn = 0x12 then decide (bits imm 7 5 = 0) && [0, 1, 2, 3, 4, 5, 0xA, 0xB].contains (bits imm 3 0)
  else decide (imm = 0)

/-- Whether a function takes INT32 (R205). -/
def vopInt (fn imm : Nat) : Bool :=
  [1, 2, 3, 5, 6, 7, 8, 0xD, 0xE, 0xF, 0x13].contains fn || (decide (fn = 0x10) && [0, 2, 3, 5, 6].contains (bits imm 3 0))

/-- VOP (R204, R205). -/
def vopOk (w : Nat) : Bool :=
  let fn := vFn w
  let needB := [1, 2, 3, 4, 5, 6, 0xD, 0xE, 0x13].contains fn
  let needC := [4, 0xE].contains fn
  decide (1 ≤ fn ∧ fn ≤ 0x13 ∧ vType w ≤ 3 ∧ bits w 41 32 = 0) &&
    (if vVlReg w then !bit w 97 else decide (1 ≤ vVl w ∧ vVl w ≤ 64)) &&
    vAV w && decide (vBV w = needB ∧ vCV w = needC) && (vDV w || vSumm w) &&
    unusedOk (vBV w) (vQB w) && unusedOk (vCV w) (vQC w) && unusedOk (vDV w) (vQD w) &&
    vopImmOk fn (vImm w) && (decide (vType w ≠ 3) || vopInt fn (vImm w)) &&
    (!([0x10, 0x11, 0x12].contains fn) || decide (vNvec w % vG w = 0)) &&
    (decide (fn ≠ 0x12) || (decide (vType w = 0) && ([4, 5].contains (cvtFmt w) || (!vVlReg w && [32, 64].contains (vVl w)))))

/-- The fields of an instruction (R188 to R209). The fields that an execute-stream BLOCK keeps 0 belong to R192. -/
def fieldsOk (x : Bool) (prev : Option Nat) (w : Nat) : Bool :=
  let o := opc w
  if o = opBLOCK then
    decide (bits w 8 0 = 0) && (x || (decide (pcount w ≤ 0x400 ∧ plist w + pcount w ≤ 0x1000) && unusedOk (pcount w ≠ 0) (plist w)))
  else if o = opENDBLOCK ∨ o = opEND then decide (bits w 119 0 = 0)
  else tokensOk w &&
    (if o = opLOAD then decide (bits w 43 0 = 0) && !toLast w
     else if o = opSTORE then decide (bits w 43 0 = 0)
     else if o = opXFER then decide (bits w 69 0 = 0)
     else if o = opWAIT then decide (bits w 66 0 = 0 ∧ syncMask w = 0)
     else if o = opSIGNAL then decide (bits w 66 0 = 0 ∧ syncMask w = 0) && !syncConsume w
     else if o = opBARRIER then decide (bits w 66 0 = 0) && !syncConsume w && bit (syncMask w) 0 && decide (2 ≤ popCount 4 (syncMask w))
     else if o = opMMA then mmaOk prev w
     else if o = opVOP then vopOk w
     else if o = opVGATHER then decide (bits w 28 0 = 0 ∧ gEsize w ≠ 3 ∧ 1 ≤ gVl w ∧ gVl w ≤ 64)
     else if o = opOCALL then
       decide (bits w 25 0 = 0 ∧ oInBeats w ≤ 0x4000000 ∧ oOutBeats w ≤ 0x4000000) && unusedOk (oInv w) (oQin w) && unusedOk (oOutv w) (oQout w)
     else true)

/-- The patch entries of a BLOCK (R180), as the control region holds them. -/
def CoreImg.patches (k : CoreImg) (w : Nat) : List (List Byte) := (List.range (pcount w)).map fun i => imgBytes k.region (plist w * 16 + 16 * i) 16

/-- Whether the patch entries of a BLOCK that lie in the task region are legal and sorted (R180); a list that runs past the region is left to
REJ_ALLOC (R238). -/
def patchesOk (w : Nat) (list : List (List Byte)) : Bool :=
  let ps := list.take (0xC00 - plist w)
  (ps.all fun p => decide (field p 0 4 < replays w ∧ field p 4 1 < 64 ∧ field p 5 1 ≤ 1 ∧ field p 6 2 = 0)) &&
    ((ps.zip (ps.drop 1)).all fun pq => field pq.1 0 4 ≤ field pq.2 0 4)

/-! ### Step 3: routines (R210, R247, R249, R316) -/

/-- The routines of Oasis 1.0. -/
def routineIds : List Nat := [0x001, 0x010, 0x011, 0x020, 0x021, 0x030, 0x040, 0x100, 0x101, 0x102, 0x103, 0x104]

/-- Whether an OCALL agrees with its routine's declaration. -/
def ocallOk (w : Nat) : Bool :=
  let id := oId w
  let noIn := !oInv w && decide (oInBeats w = 0)
  let noOut := !oOutv w && decide (oOutBeats w = 0)
  let four := oOutv w && decide (oOutBeats w = 4)
  if [0x001, 0x102, 0x103, 0x104].contains id then noIn && noOut
  else if [0x010, 0x011].contains id then oInv w && four
  else if [0x020, 0x021].contains id then oInv w && oOutv w && decide (oInBeats w ≠ 0 ∧ oOutBeats w = oInBeats w)
  else if id = 0x040 then noIn && four
  else false

/-! ### Step 3: blocks (R192) and queues (R167, R210) -/

/-- A block of a program: the index and word of its BLOCK, and the instructions inside as (index, word). -/
structure Blk where
  start : Nat
  word : Nat
  body : List (Nat × Nat)
  deriving DecidableEq, Repr

/-- The indices and words of a program: from its entry point to the first END, none where there is no END. -/
def program (ws : List Nat) : Nat → Nat → Option (List (Nat × Nat))
  | 0, _ => none
  | fuel + 1, i =>
    match ws[i]? with
    | none => none
    | some w => if opc w = opEND then some [(i, w)] else (program ws fuel (i + 1)).map ((i, w) :: ·)

/-- The blocks of a program, and the indices of instructions that stand outside one, or of a BLOCK that no ENDBLOCK follows. -/
def splitBlocks : List (Nat × Nat) → Option Blk → List Blk × List Nat
  | [], none => ([], [])
  | [], some b => ([], [b.start])
  | (i, w) :: l, cur =>
    match cur with
    | none =>
      if opc w = opEND then ([], [])
      else if opc w = opBLOCK then splitBlocks l (some ⟨i, w, []⟩)
      else ((splitBlocks l none).1, i :: (splitBlocks l none).2)
    | some b =>
      if opc w = opEND then ([], [b.start])
      else if opc w = opENDBLOCK then (b :: (splitBlocks l none).1, (splitBlocks l none).2)
      else if opc w = opBLOCK then ((splitBlocks l (some b)).1, i :: (splitBlocks l (some b)).2)
      else splitBlocks l (some { b with body := b.body ++ [(i, w)] })

/-- Entry point `p` of a core: the two entry indices. -/
def pairEntry (img : List Byte) (k : CoreImg) (p : Nat) : Nat × Nat :=
  let e := imgBytes img (crPairsOff k.cr + 4 * p) 4
  (field e 0 2, field e 2 2)

/-- The program of a stream from an entry index. -/
def CoreImg.program (k : CoreImg) (x : Bool) (entry : Nat) : Option (List (Nat × Nat)) := Machine.program (k.words x) (k.words x).length entry

/-- The blocks of a pair, side by side. -/
def CoreImg.pairBlocks (k : CoreImg) (e : Nat × Nat) : List (Blk × Blk) :=
  match k.program false e.1, k.program true e.2 with
  | some a, some x => (splitBlocks a none).1.zip (splitBlocks x none).1
  | _, _ => []

/-- The breaches of R192 by the blocks of a pair. -/
def CoreImg.verifyPair (k : CoreImg) (e : Nat × Nat) : List Reject :=
  let at_ := fun (x : Bool) (i : Nat) => { k.rejInsn 0x0107 x i with block := k.blockNo x i }
  let own := fun (x : Bool) (entry : Nat) => match k.program x entry with
    | none => [at_ x entry]
    | some p => (splitBlocks p none).2.map (at_ x)
  let both := match k.program false e.1, k.program true e.2 with
    | some a, some x =>
      let ba := (splitBlocks a none).1
      let bx := (splitBlocks x none).1
      ((ba.zip bx).filterMap fun ab => if replays ab.1.word = replays ab.2.word then none else some (at_ false ab.1.start)) ++
        ((ba.drop bx.length).take 1).map (fun b => at_ false b.start) ++ ((bx.drop ba.length).take 1).map fun b => at_ true b.start
    | _, _ => []
  own false e.1 ++ own true e.2 ++ both

/-- The instructions of a block of both streams, as (stream, index, word), the access stream's first. -/
def blockInsns (b : Blk × Blk) : List (Bool × Nat × Nat) := (b.1.body.map fun iw => (false, iw)) ++ b.2.body.map fun iw => (true, iw)

/-- The engines that push, and that pop, a queue in a block. -/
def pushersOf (b : Blk × Blk) (q : Nat) : List Nat :=
  (((blockInsns b).filter fun y => pushesTo y.2.2 = some q).map fun y => engineOf y.2.2).eraseDups
def poppersOf (b : Blk × Blk) (q : Nat) : List Nat :=
  (((blockInsns b).filter fun y => (popsFrom y.2.2 64 []).any fun p => p.1 = q).map fun y => engineOf y.2.2).eraseDups

/-- Whether a queue has one producing and one consuming engine, and they differ (R167). -/
def queueOk (b : Blk × Blk) (q : Nat) : Bool :=
  decide ((pushersOf b q).length = 1 ∧ (poppersOf b q).length = 1 ∧ pushersOf b q ≠ poppersOf b q)

/-- Whether every consumer of a queue is a STORE or an OCALL that pops to LAST (R210). -/
def lastConsumers (b : Blk × Blk) (q : Nat) : Bool :=
  ((blockInsns b).filter fun y => (popsFrom y.2.2 64 []).any fun p => p.1 = q).all fun y =>
    (decide (opc y.2.2 = opSTORE) && toLast y.2.2) || decide (opc y.2.2 = opOCALL ∧ oInBeats y.2.2 = 0)

/-- The breaches of R167 and R210 in a block. -/
def CoreImg.verifyQueues (k : CoreImg) (b : Blk × Blk) : List Reject :=
  (blockInsns b).flatMap fun y =>
    let w := y.2.2
    let named := (pushesTo w).toList ++ (popsFrom w 64 []).map (·.1)
    unless_ (named.all (queueOk b) && (!(decide (opc w = opOCALL) && oOutv w && decide (oOutBeats w = 0)) || lastConsumers b (oQout w)))
      (k.rejInsn 0x010A y.1 y.2.1)

/-! ### Step 3: control lists (R242 to R244) -/

/-- Control-list entry `i`. -/
def CoreImg.listEntry (k : CoreImg) (i : Nat) : List Byte := imgBytes k.region (16 * crClist k.cr + 16 * i) 16

/-- The target of an entry that has one. -/
def listTarget (e : List Byte) : Option Nat := if [2, 3, 4].contains (field e 0 1) then some (field e 2 2) else none

/-- The list's length: the shortest prefix that ends with DONE or JUMP and holds all of its own targets; none where no such list of at most
1,024 entries lies in the region. -/
def CoreImg.listLength (k : CoreImg) : Nat → Nat → Nat → Option Nat
  | 0, _, _ => none
  | fuel + 1, i, need =>
    let e := k.listEntry i
    let need := max need ((listTarget e).getD 0)
    if 0xC000 < 16 * crClist k.cr + 16 * i + 16 then none
    else if (field e 0 1 = 3 ∨ field e 0 1 = 7) ∧ need ≤ i then some (i + 1)
    else k.listLength fuel (i + 1) need

/-- The summaries that one run of a pair pushes (R244). -/
def CoreImg.summaries (k : CoreImg) (e : Nat × Nat) : Nat :=
  ((k.pairBlocks e).map fun b =>
    (b.2.body.filter fun iw => (decide (opc iw.2 = opVOP) && vSumm iw.2) || (decide (opc iw.2 = opVGATHER) && gSumm iw.2)).length * replays b.2.word).sum

/-- Whether an entry's fields are legal (R243, R244); a CALL of a routine that the library does not hold is left to REJ_ROUTINE. -/
def CoreImg.listEntryOk (k : CoreImg) (img e : List Byte) : Bool :=
  let a := field e 1 1
  let b := field e 2 2
  let c := field e 4 4
  let d := field e 8 8
  match field e 0 1 with
  | 1 => decide (a < crPairs k.cr ∧ b = 0 ∧ c = 0 ∧ d = 0) && decide (k.summaries (pairEntry img k a) ≤ 16)
  | 2 => decide (a ≤ 7 ∧ b ≤ 0x3FF ∧ d = 0)
  | 3 => decide (a = 0 ∧ b ≤ 0x3FF ∧ c = 0 ∧ d = 0)
  | 4 => decide (a ≤ 7 ∧ b ≤ 0x3FF ∧ 1 ≤ c ∧ d = 0)
  | 5 => decide (a = 0 ∧ c = 0) && (!routineIds.contains b || [0x001, 0x030].contains b)
  | 6 => decide (a < 64 ∧ b = 0 ∧ c = 0)
  | 7 => decide (a = 0 ∧ b = 0 ∧ c = 0 ∧ d = 0)
  | _ => false

/-- The breaches of R244 and R249 by a control list. One that starts outside the region is left to REJ_ALLOC (DESIGN CHOICE log 45). -/
def CoreImg.verifyList (k : CoreImg) (img : List Byte) : List Reject :=
  let at_ := fun (code i : Nat) => { k.rejRecord code with index := i }
  if 0xC000 ≤ 16 * crClist k.cr then []
  else
    let n := k.listLength 1024 0 0
    let m := n.getD (min 1024 ((0xC000 - 16 * crClist k.cr) / 16))
    ((List.range m).flatMap fun i =>
      let e := k.listEntry i
      unless_ (k.listEntryOk img e) (at_ 0x0109 i) ++
        unless_ (decide (field e 0 1 ≠ 5) || routineIds.contains (field e 2 2)) (at_ 0x0108 i)) ++ unless_ n.isSome (at_ 0x0109 (m - 1))

/-! ### Step 3: records, tensors, allocations, bindings, models -/

/-- Whether `n` bytes at an offset of a record lie in the image. -/
def inImage (img : List Byte) (off n : Nat) : Bool := decide (off + n ≤ img.length)

/-- Whether an allocation index is one of the image's or names none. -/
def allocIndexOk (img : List Byte) (i : Nat) : Bool := decide (i = 0xFFFF) || decide (i < (imgEntries img 3).length)

/-- Whether an index names a STREAM allocation. -/
def streamAlloc (img : List Byte) (i : Nat) : Bool := match (imgEntries img 3)[i]? with | some a => alStream a | none => false

/-- The allocation to which Pn is relocated (R339). -/
def crRelocOf (img : List Byte) (r : List Byte) (n : Nat) : Nat := field (imgBytes img (crPregOff r + 1024 + 2 * n) 2) 0 2

/-- The windows of a core, as allocation indices. -/
def crWindows (r : List Byte) : List Nat := ((List.range 16).map (crWindow r)).filter (· ≠ 0xFFFF)

/-- Whether a core record keeps R339, and its relocations and windows R343. -/
def CoreImg.recordOk (k : CoreImg) (img : List Byte) : Bool :=
  let r := k.cr
  decide (k.die < 8 ∧ k.core < 64 ∧ 1 ≤ crPairs r ∧ crPairs r ≤ 16 ∧ field r 3 1 = 0 ∧ field r 0x22 2 = 0 ∧ field r 0x28 24 = 0 ∧
    field r 0x60 32 = 0) &&
    inImage img (crAOff r) (16 * crACount r) && inImage img (crXOff r) (16 * crXCount r) && inImage img (crPatOff r) 4096 &&
    inImage img (crPregOff r) 1152 && inImage img (crTregOff r) 0xC000 && inImage img (crPairsOff r) (4 * crPairs r) &&
    ((List.range 64).all fun n => allocIndexOk img (crRelocOf img r n) && !streamAlloc img (crRelocOf img r n)) &&
    ((crWindows r).all fun i => !streamAlloc img i) &&
    ((coreImgs img).all fun j => decide (k.ri ≤ j.ri) || decide ((j.die, j.core) ≠ (k.die, k.core)))

/-- Whether an allocation keeps R340 and R343. -/
def State.allocOk (s : State) (a : List Byte) : Bool :=
  decide ((alKind a = 1 ∨ alKind a = 2) ∧ alInit a ≤ 3 ∧ field a 2 1 ≤ 1 ∧ field a 3 1 = 0 ∧ field a 6 2 = 0 ∧ alBytes a % 4096 = 0 ∧
    alBytes a ≠ 0 ∧ (if alKind a = 1 then alAddr a % 4096 = 0 else alAddr a = 0) ∧ (2 ≤ alInit a ∨ alSrc a = 0)) &&
    (decide (alInit a ≠ 2) || s.allMem (alSrc a) (alBytes a)) && (!alStream a || decide (alKind a = 2 ∧ 2 ≤ alInit a))

/-- Whether a TENSOR header keeps R338. -/
def tensorOk (img t : List Byte) : Bool :=
  decide (tnEntry t ≤ 0xBF ∧ field t 3 1 = 0 ∧ field t 8 8 = 0) && allocIndexOk img (tnBase t) && allocIndexOk img (tnRegion t) &&
    ((coreImgs img).any fun k => decide (k.die = tnDie t ∧ k.core = tnCore t))

/-- Whether a BIND entry keeps R338 and R300; `reach` says whether a host port's window reaches the task's allocations (R292). -/
def bindOk (reach : Nat → Bool) (b : List Byte) : Bool :=
  let w := bdWord b
  decide (bdDie b < 8 ∧ bdCluster b < 4 ∧ field b 3 1 = 0 ∧ bit w 31 = false ∧ bits w 12 11 = 0 ∧ bit w 8 = false) &&
    (match bits w 30 29 with
     | 0 => decide (bits w 28 24 < 16 ∧ bits w 23 13 = 0)
     | 1 => decide (bits w 28 24 = 0 ∧ bits w 23 13 = 0)
     | 2 => decide (bits w 28 24 < 8 ∧ 0x40 ≤ bits w 23 13) && reach (bits w 28 24)
     | _ => false)

/-- Whether an FP32 word is finite. -/
def f32Finite (x : Nat) : Bool := decide (bits x 30 23 ≠ 255)

/-- Whether a model record keeps R306, R303 and R304 as far as its pool is configured. -/
def State.modelOk (s : State) (b : List Byte) : Bool :=
  let m := kvModel 0 b
  decide (m.fmt ≤ 5 ∧ (m.kc = 1 ∨ m.kc = 2 ∨ (m.kc = 4 ∧ m.fmt ≠ 0)) ∧ (m.h = 1 ∨ m.h = 2) ∧ 1 ≤ m.g ∧ m.g ≤ 16 ∧ 1 ≤ m.layers ∧
    1 ≤ m.ngroups ∧ m.layers * m.ngroups ≤ 65536 ∧ 1 ≤ m.nseq ∧ m.nseq ≤ 4096 ∧ m.seqBase + m.nseq ≤ 65536 ∧ m.lt = 0 ∧ m.pool ≤ 7 ∧
    m.lookahead ≤ 8 ∧ field b 0x2A 22 = 0) &&
    f32Finite m.smscale && f32Finite m.ropeBase && decide (m.ropeBase < 2 ^ 31) && f32Finite m.ropeScale &&
    (match s.pools.find? fun p => p.index = m.pool with
     | some p => decide (p.kib = m.frameRows ∧ m.metaRows ≤ p.mp)
     | none => true)

/-- Whether two models' sequence IDs overlap. -/
def seqsMeet (a b : KvModel) : Bool := spansMeet (a.seqBase, a.nseq) (b.seqBase, b.nseq)

/-- The MMA before index `i` in its block: the nearest one back to a BLOCK. -/
def prevMma (ws : List Nat) (i : Nat) : Option Nat :=
  ((ws.take i).reverse.find? fun w => opc w = opMMA || opc w = opBLOCK).bind fun w => if opc w = opMMA then some w else none

/-- The failures of a core's instructions by opcode, field and routine, and of execute-stream BLOCKs that name a patch list (R192). -/
def CoreImg.verifyWords (k : CoreImg) (x : Bool) : List Reject :=
  (k.words x).zipIdx.flatMap fun wi =>
    let w := wi.1
    let at_ := fun code => k.rejInsn code x wi.2
    unless_ (opLegal x (opc w)) (at_ 0x0105) ++
      unless_ (fieldsOk x (prevMma (k.words x) wi.2) w && (x || decide (opc w ≠ opBLOCK) || patchesOk w (k.patches w))) (at_ 0x0106) ++
      unless_ (!(x && decide (opc w = opBLOCK)) || decide (pcount w = 0 ∧ plist w = 0)) { at_ 0x0107 with block := k.blockNo x wi.2 } ++
      unless_ (decide (opc w ≠ opOCALL) || ocallOk w) (at_ 0x0108)

/-- The pairs of a core. -/
def CoreImg.pairs (k : CoreImg) (img : List Byte) : List (Nat × Nat) := (List.range (crPairs k.cr)).map (pairEntry img k)

/-- Step 3 of R345. -/
def State.verifyRecords (s : State) (img : List Byte) (reach : Nat → Bool) : Option Reject :=
  let cores := (coreImgs img).flatMap fun k =>
    unless_ (k.recordOk img) (k.rejRecord 0x0106) ++
      unless_ ((imgEntries img 6).isEmpty || k.bounds.all (1 ≤ ·)) { k.rejRecord 0x0106 with sect := 6 } ++
      k.verifyWords false ++ k.verifyWords true ++
      ((k.pairs img).flatMap fun e => k.verifyPair e ++ (k.pairBlocks e).flatMap k.verifyQueues) ++ k.verifyList img
  let tensors := (imgEntries img 2).zipIdx.flatMap fun ti =>
    unless_ (tensorOk img ti.1) { code := 0x0106, sect := 2, die := tnDie ti.1, core := tnCore ti.1, index := ti.2 }
  let allocs := (imgEntries img 3).zipIdx.flatMap fun ai => unless_ (s.allocOk ai.1) { code := 0x0106, sect := 3, index := ai.2 }
  let models := (imgEntries img 4).zipIdx.flatMap fun mi =>
    unless_ (s.modelOk mi.1 && ((imgEntries img 4).take mi.2).all fun o => !seqsMeet (kvModel 0 o) (kvModel 0 mi.1))
      { code := 0x0106, sect := 4, index := mi.2 }
  let binds := (imgEntries img 5).zipIdx.flatMap fun bi =>
    unless_ (bindOk reach bi.1) { code := 0x0106, sect := 5, die := bdDie bi.1, index := bi.2 }
  firstReject (cores ++ tensors ++ allocs ++ models ++ binds)

end Sys2Proof.Machine
end

