-- ==== Sys2Proof/Machine/Balance.lean ====
section
/-! DEFINITION. The verifier of task images, steps 4 to 6 of R345: patterns, descriptors, allocations, balance and the token graph (R194 to R196,
R212, R221, R238, R258 to R264, R285, R286, R341 to R344). -/

set_option Elab.async false

namespace Sys2Proof.Machine

open Sys2Proof Enc7

/-! ### Patterns (R194 to R196) -/

/-- The pattern entries that a core's instructions name. -/
def CoreImg.patsNamed (k : CoreImg) : List Nat := ((k.a.filter fun w => opc w = opLOAD || opc w = opSTORE).map pat).eraseDups

/-- Whether a named entry keeps R195 and R196 and its bytes R194. -/
def patternOk (e : List Byte) : Bool :=
  decide (field e 0 8 < 2 ^ 12 ∧ field e 56 8 = 0 ∧ patBytes e ≤ 2 ^ 32) &&
    (List.range 6).all fun l =>
      let w := field e (8 + 8 * l) 8
      decide (bits w 47 41 = 0 ∧ bits w 40 0 ≠ 0x10000000000) && (decide (patCount e l ≠ 1) || decide (bits w 40 0 = 0))

/-- REJ_PATTERN: entries named that are not legal, and entries that no instruction names and that are not zero. -/
def CoreImg.verifyPatterns (k : CoreImg) : List Reject :=
  k.pats.zipIdx.flatMap fun ei =>
    unless_ (if k.patsNamed.contains ei.2 then patternOk ei.1 else ei.1.all (· == 0)) { k.rejRecord 0x010B with index := ei.2 }

/-! ### Allocation windows (R341 to R344) -/

/-- Bytes of allocation `i`. -/
def allocLen (img : List Byte) (i : Nat) : Nat := match (imgEntries img 3)[i]? with | some a => alBytes a | none => 0

/-- The windows of a core whose bases the image fixes, as (base, size). -/
def fixedWindows (img : List Byte) (r : List Byte) : List (Nat × Nat) :=
  (crWindows r).filterMap fun i => match (imgEntries img 3)[i]? with
    | some a => if alKind a = 1 then some (alAddr a, alBytes a) else none
    | none => none

/-- Whether every address of [a, a + n) lies in the core's windows, or, as an offset, in allocation `al`, which is one of them (R172). -/
def withinWindow (img : List Byte) (r : List Byte) (al : Option Nat) (a n : Nat) : Bool :=
  match al with
  | some i => (crWindows r).contains i && decide (a + n ≤ allocLen img i)
  | none => (piecesOf a n).all fun p => (fixedWindows img r).any fun w => rangeHolds w.1 w.2 p.1 p.2

/-- The task heap (R341). -/
def State.heap (s : State) : Nat × Nat :=
  ((s.entries 0x0006).findSome? fun e => match e with | .heap b n => some (b, n) | _ => none).getD (0, 0)

/-- Whether a FIXED allocation lies where R341 allows it, clear of its core's staging range (R221). -/
def State.fixedOk (s : State) (img a : List Byte) : Bool :=
  let lo := alAddr a
  let n := alBytes a
  let h := s.heap
  decide (h.1 ≤ lo ∧ lo + n ≤ h.1 + h.2) ||
    (coreImgs img).any fun k =>
      (decide (spmBase k.die k.core ≤ lo ∧ lo + n ≤ spmBase k.die k.core + spmSize - crStaging k.cr)) ||
        decide (bufBase k.die (k.core / 16) ≤ lo ∧ lo + n ≤ bufBase k.die (k.core / 16) + bufSize)

/-! ### Staging (R221, R229) -/

/-- The largest need of a list. -/
def greatest (l : List Nat) : Nat := l.foldl max 0

/-- Whether a core's staging range is legal and holds both engines' largest needs. -/
def CoreImg.stagingOk (k : CoreImg) : Bool :=
  let n := crStaging k.cr
  decide (n % 64 = 0 ∧ n ≤ 0x100000) &&
    decide (greatest ((k.x.filter fun w => opc w = opMMA).map mmaStaging) + greatest ((k.x.filter fun w => opc w = opVOP).map softmaxStaging) ≤ n)

/-! ### Addresses that the image fixes (R194, R342) -/

/-- A parameter register's value as the image gives it: relocated to an allocation, or absolute. -/
structure PVal where
  al : Option Nat
  v : Nat
  deriving DecidableEq, Repr

/-- The registers and strides with which a core starts (R339). -/
def initParams (img r : List Byte) : List PVal :=
  (List.range 64).map fun n =>
    let i := crRelocOf img r n
    ⟨if i = 0xFFFF then none else some i, field (imgBytes img (crPregOff r + 16 * n) 8) 0 8⟩
def initStrides (img r : List Byte) : List Nat := (List.range 64).map fun n => field (imgBytes img (crPregOff r + 16 * n + 8) 8) 0 8

/-- Registers after one patch entry (R180). -/
def patchVal (ps : List PVal) (e : List Byte) : List PVal :=
  let n := field e 4 1 % 64
  let v := field e 8 8
  modAt (fun x => if field e 5 1 = 0 then ⟨none, v⟩ else { x with v := (x.v + v) % 2 ^ 64 }) ps n

/-- The registers of a replay (R179): the strides added after the first, then the patch entries of the replay. -/
def replayVals (strides : List Nat) (patches : List (List Byte)) (ps : List PVal) (r : Nat) : List PVal :=
  let ps := if r = 0 then ps else (ps.zip strides).map fun x => { x.1 with v := (x.1.v + x.2) % 2 ^ 64 }
  (patches.filter fun e => field e 0 4 = r).foldl patchVal ps

/-- Register `n` plus an offset, as an address or an offset within its allocation. -/
def pvalPlus (ps : List PVal) (n : Nat) (o : Int) : PVal :=
  match ps[n]? with
  | some x => { x with v := plusOff x.v o }
  | none => ⟨none, plusOff 0 o⟩

/-- Whether the addresses of an instruction with these registers stay in the core's windows. -/
def CoreImg.addressesOk (k : CoreImg) (img : List Byte) (ps : List PVal) (w : Nat) : Bool :=
  let o := opc w
  let ok := fun (x : PVal) (n : Nat) => withinWindow img k.cr x.al x.v n
  if o = opLOAD ∨ o = opSTORE then
    let e := (k.pats[pat w]?).getD []
    let b := pvalPlus ps (walkPreg w) (walkOffset w)
    (List.range (patAccesses e)).all fun i => ok ⟨b.al, walkAddr e b.v i⟩ (patRun e)
  else if o = opXFER then ok (pvalPlus ps (xferPreg w) (xferOffset w)) 64
  else if o = opWAIT ∨ o = opSIGNAL ∨ o = opBARRIER then ok (pvalPlus ps (syncPreg w) (syncOffset w)) 64
  else if o = opVGATHER then ok (pvalPlus ps (gTpreg w) (gToff w)) ((pvalPlus ps (gXpreg w) 0).v % 2 ^ 32 * gBytes w)
  else true

/-- The replays of a block, from the registers before it: the failures, and the registers of the last replay. -/
def CoreImg.verifyReplays (k : CoreImg) (img : List Byte) (b : Blk × Blk) (ps : List PVal) : List Reject × List PVal :=
  (List.range (replays b.1.word)).foldl (fun (acc : List Reject × List PVal) r =>
    let ps := replayVals (initStrides img k.cr) (k.patches b.1.word) acc.2 r
    (acc.1 ++ (blockInsns b).flatMap fun y => unless_ (k.addressesOk img ps y.2.2) (k.rejInsn 0x010D y.1 y.2.1), ps)) ([], ps)

/-- One run of a pair: the failures, and the registers that it leaves. -/
def CoreImg.verifyRun (k : CoreImg) (img : List Byte) (p : Nat) (ps : List PVal) : List Reject × List PVal :=
  (k.pairBlocks (pairEntry img k p)).foldl (fun (acc : List Reject × List PVal) b =>
    let z := k.verifyReplays img b acc.2
    (acc.1 ++ z.1, z.2)) ([], ps)

/-- A point that a control list can reach: its entry, the armed LOOP counters, and the registers. -/
structure ListPoint where
  entry : Nat
  loops : NMap Nat
  ps : List PVal
  deriving DecidableEq, Repr

/-- One entry of a control list (R243): the failures of its replays, and the points that follow it. Either side of a BRANCH may follow. -/
def CoreImg.listStep (k : CoreImg) (img : List Byte) (z : ListPoint) : List Reject × List ListPoint :=
  let e := k.listEntry z.entry
  let a := field e 1 1
  let next := { z with entry := z.entry + 1 }
  let jump := { z with entry := field e 2 2 }
  match field e 0 1 with
  | 1 => let r := k.verifyRun img a z.ps
         (r.1, [{ next with ps := r.2 }])
  | 2 => ([], [next, jump])
  | 3 => ([], [jump])
  | 4 => let n := (mfind z.loops a).getD (field e 4 4 - 1)
         ([], [if n = 0 then { next with loops := mdel z.loops a } else { jump with loops := mput z.loops a (n - 1) }])
  | 5 => ([], [next])
  | 6 => ([], [{ next with ps := modAt (fun _ => ⟨none, field e 8 8⟩) z.ps a }])
  | _ => ([], [])

/-- The failures of every replay that a control list can reach from the points given, each point taken once. -/
def CoreImg.listReplays (k : CoreImg) (img : List Byte) : Nat → List ListPoint → List ListPoint → List Reject
  | 0, _, _ => []
  | _, _, [] => []
  | fuel + 1, met, z :: todo =>
    if met.contains z then k.listReplays img fuel met todo
    else
      let r := k.listStep img z
      r.1 ++ k.listReplays img fuel (z :: met) (r.2 ++ todo)

/-- The runs of a control list from its first entry: LOOPs as they count, both sides of every BRANCH, every replay (R194). The number of points
taken is bounded at 2^64 (DESIGN CHOICE log 45). -/
def CoreImg.verifyRuns (k : CoreImg) (img : List Byte) : List Reject :=
  k.listReplays img (2 ^ 64) [] [⟨0, [], initParams img k.cr⟩]

/-- Patch lists and the control list lie in the task region (R238). -/
def CoreImg.verifyRegion (k : CoreImg) : List Reject :=
  unless_ (16 * crClist k.cr < 0xC000) (k.rejRecord 0x010D) ++
    k.a.zipIdx.flatMap fun wi =>
      unless_ (decide (opc wi.1 ≠ opBLOCK) || decide ((plist wi.1 + pcount wi.1) * 16 ≤ 0xC000)) (k.rejInsn 0x010D false wi.2)

/-! ### Static descriptors (R258 to R264, R271, R343) -/

/-- The descriptor of a core's entry `e` among the TENSOR entries. -/
def tensorAt (img : List Byte) (d c e : Nat) : Option (List Byte) :=
  (imgEntries img 2).find? fun t => decide (tnDie t = d ∧ tnCore t = c ∧ tnEntry t = e)

/-- Rows of a BANK slice: data rows and scale rows. -/
def bankRows (t : List Byte) : Nat :=
  tDataRows t + if (tEnc t).blocked then (tDataRows t + scaleRows (tEnc t) - 1) / max 1 (scaleRows (tEnc t)) else 0

/-- Bytes of one row of a tensor, or of a BANK slice. -/
def tRowBytes (t : List Byte) : Nat :=
  if tLayout t = 2 then bankRows t * 1024 else rowBytes (tEnc t) (tSize t 0)

/-- The first dimension that has an address of its own. -/
def tOuterDim (t : List Byte) : Nat := if tLayout t = 2 then 2 else 1

/-- The reach of a tensor as offsets from its base (R263): lowest, and one past the highest. -/
def tReach (t : List Byte) : Int × Int :=
  let spans := ((List.range (tNdim t)).filter fun k => tOuterDim t ≤ k).map fun k => (tSize t k - 1 : Nat) * tStride t k
  (spans.foldl (fun n x => n + min 0 x) 0, spans.foldl (fun n x => n + max 0 x) 0 + tRowBytes t)

/-- DESC_FIELD of an entry. -/
def descFieldBad (t : List Byte) : Bool :=
  if field t 0 1 = 0x0F then
    !(decide (field t 1 7 = 0 ∧ field t 0x1C 36 = 0 ∧ field t 8 8 < 2 ^ 48 ∧ field t 0x10 8 < 2 ^ 48))
  else
    !(decide (field t 0 1 ≤ 3 ∧ field t 1 1 ≤ 0xC ∧ 1 ≤ tNdim t ∧ tNdim t ≤ 6 ∧ tSpace t ≠ 3 ∧ (tSpace t = 2 ∨ tPeer t = 0) ∧ field t 6 2 = 0 ∧
        field t 8 8 < 2 ^ 48 ∧ field t 0x3B 5 = 0)) ||
      !((List.range 6).all fun k => decide (k < tNdim t) || decide (field t (0x10 + 3 * k) 3 = 0)) ||
      !((List.range 5).all fun k => decide (k + 1 < tNdim t) || decide (field t (0x22 + 5 * k) 5 = 0))

/-- Whether a format is allowed in a tensor's layout (R259, R260). -/
def descFormatOk (t : List Byte) : Bool :=
  match tLayout t with
  | 0 => !(tEnc t).blocked
  | 1 => (tEnc t).blocked
  | 2 => decide (tFmt t ≤ 9)
  | _ => true

/-- Whether SIZE0, a BANK tensor's slices and the reach are legal (R259, R260). -/
def descShapeOk (t : List Byte) (absolute : Bool) : Bool :=
  let r := tReach t
  decide (r.2 - r.1 ≤ (2 : Int) ^ 48) &&
    (if tLayout t = 2 then
       absolute && decide (tSize t 0 % colElems (tEnc t) = 0) && [1, 2, 4].contains (tKcols t) && decide (tStride t 1 = 0) &&
         ((indexVectors ((List.range (tNdim t - 2)).map fun k => (0, tSize t (k + 2)))).all fun ix =>
           let a := (((tBase t : Int) + tOuter t 2 ix) % (2 ^ 64 : Int)).toNat
           decide (placedRow a + bankRows t ≤ 0x18000))
     else if (tEnc t).blocked then decide (tSize t 0 % (if tFmt t = 8 then 80 else 32) = 0)
     else true)

/-- The base of a descriptor where the image fixes it: absolute, or in a FIXED allocation. -/
def fixedBase (img : List Byte) (al : Nat) (t : List Byte) : Option Nat :=
  if al = 0xFFFF then some (tBase t)
  else match (imgEntries img 3)[al]? with
    | some a => if alKind a = 1 then some (alAddr a + tBase t) else none
    | none => none

/-- Whether the alignments of R259 and R260 hold, with the base where the image fixes it: a grant lies in the spread view. -/
def descAlignOk (t : List Byte) (base : Option Nat) : Bool :=
  let strides := ((List.range (tNdim t)).filter fun k => tOuterDim t ≤ k).map (tStride t)
  match tLayout t with
  | 2 => decide (tBase t % 1024 = 0 ∧ placedBase ≤ tBase t ∧ tBase t < 0x140000000000) && strides.all fun x => decide (x % 1024 = 0)
  | 3 => decide (tBase t % 4096 = 0) && base.all fun a => decide (a < 0x030000000000) && strides.all fun x => decide (x % 4096 = 0)
  | _ => true

/-- Whether [a, a + n), an address or an offset in allocation `al`, lies in one allocation that the core's descriptors may name: one of its
windows, or a STREAM allocation (R263, R343, R344). -/
def descWithin (img r : List Byte) (al : Nat) (a n : Nat) : Bool :=
  if al = 0xFFFF then ((fixedWindows img r).any fun w => rangeHolds w.1 w.2 a n) && decide (a + n ≤ 2 ^ 48)
  else decide (a + n ≤ allocLen img al) && (streamAlloc img al || (crWindows r).contains al)

/-- Whether the reach lies in the allocation of R263. The image format lists no peer grant, so that a peer tensor needs only to name memory
of the peer; no far-tier range but a STREAM allocation is declared (DESIGN CHOICE log 58). -/
def State.descAllocOk (s : State) (img r : List Byte) (al : Nat) (t : List Byte) : Bool :=
  let z := tReach t
  let lo := (tBase t : Int) + z.1
  decide (0 ≤ lo) &&
    (match tSpace t with
     | 0 => descWithin img r al lo.toNat (z.2 - z.1).toNat
     | 1 => streamAlloc img al && descWithin img r al lo.toNat (z.2 - z.1).toNat
     | _ => decide (al = 0xFFFF) && s.allMem lo.toNat (z.2 - z.1).toNat)

/-- The blocks of a tensor, and the bytes of its escape bitmap (R113). -/
def tBlocks (t : List Byte) : Nat :=
  (((List.range (tNdim t)).map (tSize t)).foldl (· * ·) 1) / (if tFmt t = 8 then 80 else 32)

/-- Whether a tensor's escape record is valid, allowed, and its bitmap and region in an allocation (R261). -/
def descEscapeOk (img r t : List Byte) (e : Option (List Byte)) : Bool :=
  match e with
  | none => false
  | some h =>
    let x := tnDesc h
    decide (tLayout x = 15) && !descFieldBad x &&
      (if tLayout t = 2 then [0, 7, 8].contains (tFmt t) else decide (tLayout t ≠ 0) && [0, 7, 8, 0xA, 0xB].contains (tFmt t)) &&
      descWithin img r (tnBase h) (field x 8 8) (16 * ((tBlocks t + 63) / 64)) &&
      descWithin img r (tnRegion h) (field x 0x10 8) (field x 0x18 4 * if tFmt t = 8 then 128 else 64)

/-- The first check of R262 that a static entry fails, as its code. -/
def State.descCheck (s : State) (img r h : List Byte) : Option Nat :=
  let t := tnDesc h
  let absolute := decide (tnBase h = 0xFFFF)
  if descFieldBad t then some 0x0040
  else if tLayout t = 15 then none
  else if !descFormatOk t then some 0x0041
  else if !descShapeOk t absolute then some 0x0042
  else if !descAlignOk t (fixedBase img (tnBase h) t) then some 0x0043
  else if !s.descAllocOk img r (tnBase h) t then some 0x0044
  else if tEsc t ≠ 0 && !descEscapeOk img r t (tensorAt img (tnDie h) (tnCore h) (tEsc t)) then some 0x0046
  else if tLayout t = 2 && tSpace t ≠ 0 then some 0x0047
  else none

/-- REJ_DESC. -/
def State.verifyDescs (s : State) (img : List Byte) (k : CoreImg) : List Reject :=
  ((imgEntries img 2).filter fun t => decide (tnDie t = k.die ∧ tnCore t = k.core)).filterMap fun h =>
    (s.descCheck img k.cr h).map fun why =>
      { code := 0x010C, detail := why, sect := 2, die := k.die, core := k.core, index := tnEntry h }

/-- Step 4 of R345. -/
def State.verifyAllocs (s : State) (img : List Byte) : Option Reject :=
  firstReject (((coreImgs img).flatMap fun k =>
    k.verifyPatterns ++ s.verifyDescs img k ++
      unless_ (k.stagingOk && (crWindows k.cr).all (allocIndexOk img)) (k.rejRecord 0x010D) ++
      k.verifyRegion ++ k.verifyRuns img) ++
    (imgEntries img 3).zipIdx.flatMap fun ai =>
      unless_ (decide (alKind ai.1 ≠ 1) || s.fixedOk img ai.1) { code := 0x010D, sect := 3, index := ai.2 })

/-! ### Step 5: balance (R212) -/

/-- The beats left in a run of pushes after `n` fixed ones leave it: each push is one LAST-ended group, none for a number that the word does not
fix. -/
def dropBeats : Nat → List (Option Nat) → Option (List (Option Nat))
  | n, [] => if n = 0 then some [] else none
  | n, none :: ms => if n = 0 then some (none :: ms) else none
  | n, some m :: ms => if n < m then some (some (m - n) :: ms) else dropBeats (n - m) ms

/-- Whether pops, in program order, take exactly what was pushed; a pop to LAST takes the rest of its producer's group. -/
def beatsMatch : List (Option Nat) → List (Option Nat) → Bool
  | ms, [] => ms.isEmpty
  | ms, none :: ps => match ms with
    | [] => false
    | _ :: ms => beatsMatch ms ps
  | ms, some n :: ps => match dropBeats n ms with
    | some ms => beatsMatch ms ps
    | none => false

/-- The pattern entry of an instruction. -/
def CoreImg.patOf (k : CoreImg) (w : Nat) : List Byte := (k.pats[pat w]?).getD []

/-- Whether an instruction pushes or pops a queue. -/
def touchesQueue (w q : Nat) : Bool := decide (pushesTo w = some q) || (popsFrom w 64 []).any fun p => p.1 = q

/-- Whether a queue balances in a block. Beats that depend on a register's value are left to the check of each replay (R181, R213)
(DESIGN CHOICE log 44). -/
def CoreImg.queueBalanced (k : CoreImg) (b : Blk × Blk) (q : Nat) : Bool :=
  ((blockInsns b).any fun y => vlOpen y.2.2 && touchesQueue y.2.2 q) ||
  beatsMatch (((blockInsns b).filter fun y => pushesTo y.2.2 = some q).map fun y => pushBeats y.2.2 64 (k.patOf y.2.2))
    ((blockInsns b).flatMap fun y => ((popsFrom y.2.2 64 (k.patOf y.2.2)).filter fun p => p.1 = q).map fun p => p.2.1)

/-- The BLOCKs of a core whose presets lie above their classes' bounds (R188, R191). -/
def CoreImg.verifyPresets (k : CoreImg) (x : Bool) : List Reject :=
  (k.words x).zipIdx.flatMap fun wi =>
    unless_ (decide (opc wi.1 ≠ opBLOCK) || (presets x wi.1).all fun p => decide (p.2 ≤ (k.bounds[p.1]?).getD 0))
      { k.rejInsn 0x010F x wi.2 with block := k.blockNo x wi.2 }

/-- The presets of a block. -/
def blockPresets (b : Blk × Blk) : List (Nat × Nat) := presets false b.1.word ++ presets true b.2.word

/-- The tokens of a class that a block's instructions emit, and require. -/
def emitsOf (b : Blk × Blk) (t : Nat) : Nat := ((blockInsns b).filter fun y => emits y.2.2 = some t).length
def requiresOf (b : Blk × Blk) (t : Nat) : Nat := ((blockInsns b).filter fun y => requires y.2.2 = some t).length

/-- Step 5 of R345. -/
def verifyBalance (img : List Byte) : Option Reject :=
  firstReject ((coreImgs img).flatMap fun k => k.verifyPresets false ++ k.verifyPresets true ++
    (k.pairs img).flatMap fun e => (k.pairBlocks e).flatMap fun b =>
      let at_ := fun code => { k.rejRecord code with index := b.1.start, stream := 0, block := k.blockNo false b.1.start }
      unless_ ((List.range 32).all (k.queueBalanced b)) (at_ 0x010E) ++
        unless_ ((List.range 16).all fun t => decide (emitsOf b t = requiresOf b t)) (at_ 0x010F))

/-! ### Step 6: the token graph (R285, R286) -/

/-- The edges of a block's static token graph; instruction `i` of the block has the nodes 2i for issue and 2i + 1 for complete. -/
def CoreImg.graph (k : CoreImg) (b : Blk × Blk) : List (Nat × Nat) :=
  let is := (blockInsns b).zipIdx.map fun y => (y.2, y.1.1, y.1.2.2)
  let order := is.flatMap fun p => is.flatMap fun q =>
    if decide (p.1 < q.1) && p.2.1 == q.2.1 then
      (if p.2.1 then
        (if engineOf p.2.2 = engineOf q.2.2 ∨ opc p.2.2 = opOCALL then [(2 * p.1 + 1, 2 * q.1)] else [(2 * p.1, 2 * q.1)])
       else [(2 * p.1, 2 * q.1)])
    else []
  let beatsE := is.flatMap fun p => is.flatMap fun c =>
    match pushesTo p.2.2 with
    | some q =>
      if (popsFrom c.2.2 64 []).any fun o => o.1 = q then
        (2 * p.1, 2 * c.1 + 1) :: (match pushBeats p.2.2 64 (k.patOf p.2.2) with
          | some n => if 32 < n then [(2 * c.1, 2 * p.1 + 1)] else []
          | none => [(2 * c.1, 2 * p.1 + 1)])
      else []
    | none => []
  let tokens := (List.range 16).flatMap fun t =>
    let p := ((blockPresets b).find? fun x => x.1 = t).map (·.2) |>.getD 0
    let rq := is.filter fun y => requires y.2.2 = some t
    let em := is.filter fun y => emits y.2.2 = some t
    let one := fun (l : List (Nat × Bool × Nat)) => (l.all fun y => y.2.1) || l.all fun y => !y.2.1
    if one rq && one em then
      (rq.zipIdx.drop p).filterMap fun yj => (em[yj.2 - p]?).map fun e => (2 * e.1 + 1, 2 * yj.1.1)
    else if rq.length ≤ p then []
    else rq.flatMap fun y => em.map fun e => (2 * e.1 + 1, 2 * y.1)
  (is.map fun y => (2 * y.1, 2 * y.1 + 1)) ++ order ++ beatsE ++ tokens

/-- The nodes that edges reach from `seen` in at most `n` rounds. -/
def reachIn (edges : List (Nat × Nat)) : Nat → List Nat → List Nat
  | 0, seen => seen
  | n + 1, seen =>
    let new := ((edges.filter fun e => seen.contains e.1 && !seen.contains e.2).map (·.2)).eraseDups
    if new.isEmpty then seen else reachIn edges n (seen ++ new)

/-- Whether a node lies on a cycle. -/
def onCycle (edges : List (Nat × Nat)) (n : Nat) : Bool :=
  (reachIn edges edges.length ((edges.filter fun e => e.1 = n).map (·.2)).eraseDups).contains n

/-- Step 6 of R345: the first instruction on a cycle. -/
def verifyGraph (img : List Byte) : Option Reject :=
  firstReject ((coreImgs img).flatMap fun k => (k.pairs img).flatMap fun e => (k.pairBlocks e).flatMap fun b =>
    let g := k.graph b
    ((blockInsns b).zipIdx.filter fun y => onCycle g (2 * y.2)).map fun y =>
      { k.rejInsn 0x0110 y.1.1 y.1.2.1 with block := k.blockNo y.1.1 (if y.1.1 then b.2.start else b.1.start) })

end Sys2Proof.Machine
end

