-- ==== Sys2Proof/Machine/Streams.lean ====
section
/-! DEFINITION. The commands of the two streams: blocks and replays, walks, waits, and the steps of queues and tokens (chapters 06, 07, 11). -/

set_option Elab.async false

namespace Sys2Proof.Machine

open Sys2Proof Host Enc7

/-! ### Blocks and replays -/

/-- Whether a stream stands at its next BLOCK. -/
def Core.atBlock (k : Core) (x : Bool) : Bool := (k.stream x).running && !(k.stream x).inBlock && decide (opc (k.next x) = opBLOCK)

/-- Entries of the block's patch list, as (replay, register, operation, value) (R180). -/
def Core.patches (k : Core) : List (Nat × Nat × Nat × Nat) :=
  (List.range k.patchCount).map fun i =>
    let b := (List.range 16).map fun j => mget (0 : Byte) k.cc.dmem (k.patchAt * 16 + i * 16 + j)
    (field b 0 4, field b 4 1 % 64, field b 5 1, field b 8 8)

/-- The replay marked as waiting for its patch entries, if it has any. -/
def Core.markPatches (k : Core) (r : Nat) : Core :=
  if k.patches.any fun p => p.1 = r then { k with patchDue := some r } else k

/-- The SFE opens a block for both streams (R179, R181, R191): counters and presets from both words, slot 0 from the current values, the
strides as they stand (R240), and the patch list. -/
def Core.openBlock (k : Core) : Core :=
  let ps := Enc7.presets false (k.next false) ++ Enc7.presets true (k.next true)
  let m := ps.foldl (fun m tp => mput m tp.1 tp.2) []
  ({ k with
    counters := m
    presets := m
    slots := [(0, { freshSlotR with params := k.params })]
    checked := 0
    steps := k.strides
    written := []
    patchAt := plist (k.next false)
    patchCount := pcount (k.next false)
    patchDue := none } : Core).markPatches 0

/-- A stream passes its BLOCK. -/
def Core.passBlock (k : Core) (x : Bool) : Core :=
  let n := replays (k.next x)
  k.onStream x fun st => { st with
    inBlock := true
    pc := st.pc + 1
    start := st.pc + 1
    replays := n
    replay := 0
    closed := false
    blocks := st.blocks + 1 }

/-- SFE_BLOCK_MISMATCH at a stream's BLOCK. -/
def State.blockMismatch (s : State) (d c : Nat) (x : Bool) : State :=
  s.streamFault d c 5 x 0 0 ((s.core d c).stream x).pc 0

/-- BLOCK (R177, R191): the first stream passes once both stand at a BLOCK with equal replay counts, the other follows; a stream whose
partner has stopped or opens another count is SFE_BLOCK_MISMATCH. -/
def execBlock (d c : Nat) (x : Bool) (s : State) : Outcome State Fault Refusal :=
  .next (
    let k := s.core d c
    let o := k.stream !x
    s.when (k.atBlock x && k.faulted.isNone) fun s =>
      if o.inBlock then
        (if o.blocks = (k.stream x).blocks + 1 then s.onCore d c (·.passBlock x) else s)
      else if k.atBlock !x then
        (if replays (k.next x) = replays (k.next !x) then s.onCore d c fun k => k.openBlock.passBlock x else s.blockMismatch d c x)
      else if !o.running || decide (opc (k.next !x) = opEND) then s.blockMismatch d c x
      else s)

/-- ENDBLOCK (R181): a stream closes its replay; the SFE checks every replay that both have finished. -/
def execEndblock (d c : Nat) (x : Bool) (s : State) : Outcome State Fault Refusal :=
  .next (
    let k := s.core d c
    let st := k.stream x
    s.when (st.running && st.inBlock && !st.closed && decide (opc (k.next x) = opENDBLOCK) && k.faulted.isNone &&
        decide (k.patchDue ≠ some st.replay) && (if x then !k.inOcall else k.hold.isNone)) fun s =>
      (s.onCore d c fun k => k.onStream x fun st => { st with closed := true, pc := st.pc + 1 }).settle d c)

/-- END (R177, R243): a stream stops; once both have, a control list that waits in RUN goes on. -/
def execStreamEnd (d c : Nat) (x : Bool) (s : State) : Outcome State Fault Refusal :=
  .next (
    let k := s.core d c
    let st := k.stream x
    s.when (st.running && !st.inBlock && decide (opc (k.next x) = opEND) && k.faulted.isNone) fun s =>
      s.onCore d c fun k =>
        let k := k.onStream x fun st => { st with running := false }
        if !k.sa.running && !k.sx.running && decide (k.cc.mode = 3) then { k with cc := { k.cc with mode := 1, entry := k.cc.entry + 1 } }
        else k)

/-- Replay `r`'s values from those of the replay before it (R179). -/
def Core.formSlot (k : Core) (r : Nat) : Core :=
  let old := (k.slot (r - 1)).params
  let z : RSlot := { freshSlotR with replay := r, params := (old.zip k.steps).map fun vs => (vs.1 + vs.2) % 2 ^ 64 }
  { k with slots := mput k.slots (r % 4) z }

/-- Whether a replay's slot has been formed in this block. -/
def Core.formed (k : Core) (r : Nat) : Bool := match mfind k.slots (r % 4) with | some z => z.replay = r | none => false

/-- REPLAY_BOUNDARY (R178 to R180): a stream that has closed replay r moves into r + 1; the lead stream forms its slot, within three replays of
the last one checked, and waits for patch entries. -/
def execReplayBoundary (d c : Nat) (x : Bool) (s : State) : Outcome State Fault Refusal :=
  .next (
    let k := s.core d c
    let st := k.stream x
    let r := st.replay + 1
    s.when (st.running && st.inBlock && st.closed && k.faulted.isNone && decide (r < st.replays ∧ r < k.checked + 4)) fun s =>
      s.onCore d c fun k =>
        let k := if k.formed r then k else (k.formSlot r).markPatches r
        k.onStream x fun st => { st with replay := r, pc := st.start, closed := false })

/-- A patch entry applied to a slot's values (R180). -/
def patchOne (ps : List Nat) (p : Nat × Nat × Nat × Nat) : List Nat :=
  if p.2.2.1 = 0 then ps.set p.2.1 p.2.2.2 else modAt (fun v => (v + p.2.2.2) % 2 ^ 64) ps p.2.1

/-- The interrupts that a control core's mie lets through (R245): those of priorities 1 to 3 at any time, those of priorities 4 to 7 while no
routine runs. -/
def Core.mie (k : Core) : Nat := ofBitSet ([16, 17, 20, 23] ++ if k.cc.call.isNone then [18, 19, 21, 22] else [])

/-- The interrupts that are pending in a control core's mip (R245): an abort request, a stream fault or VE_GATHER_RANGE by what stopped the
streams, a failed transfer of its own, a notice bound to it, patch entries that are due, and an OCALL. -/
def Core.mip (k : Core) (notice : Bool) : Nat :=
  let f := k.faulted.getD 0
  ofBitSet ((if k.cc.abortDue then [if f / 256 = 0x43 then 16 else if f = 0x4401 then 17 else 23] else []) ++
    (if k.cc.dmaDue.isSome then [18] else []) ++ (if notice then [19] else []) ++ (if k.patchDue.isSome then [21] else []) ++
    if k.cc.due.isSome then [22] else [])

/-- Whether a control core takes an interrupt now. -/
def Core.takes (k : Core) (code : Nat) (notice : Bool) : Bool := bit k.mie code && bit (k.mip notice) code

/-- The control core with an interrupt taken: its mcause. -/
def Ctl.took (m : Ctl) (code : Nat) : Ctl := { m with mcause := 2 ^ 31 + code }

/-- What a free dispatcher takes of itself once no patches are due (R245): an OCALL whose routine has not started, or else the status of a failed
transfer of its own, which goes back to the routine that issued it. -/
def Core.dispatch (k : Core) : Core :=
  if k.patchDue.isSome then k
  else
    match k.cc.due with
    | some x =>
      if k.takes 22 false then
        { k with cc := { (k.cc.took 22) with call := some x, due := none, lastSource := x.source, lastId := x.id } }
      else k
    | none => if k.takes 18 false then { k with cc := { (k.cc.took 18) with dmaStatus := k.cc.dmaDue, dmaDue := none } } else k

/-- PATCH_APPLY (R180): outside any routine, the control core applies the due replay's entries in list order. -/
def execPatchApply (d c : Nat) (s : State) : Outcome State Fault Refusal :=
  .next (
    let k := s.core d c
    match k.patchDue with
    | none => s
    | some r =>
      s.when (k.takes 21 false && k.faulted.isNone) fun s => s.onCore d c fun k =>
        let ps := k.patches.filter fun p => p.1 = r
        ({ k.onSlot r (fun z => { z with params := ps.foldl patchOne z.params }) with patchDue := none, cc := k.cc.took 21 } : Core).dispatch)

/-! ### The access stream -/

/-- A walk that DE0 runs is put among its transfers (R172). -/
def Core.walkJob (k : Core) (j : Job) (de0 : Bool) : Core :=
  if de0 then { k with de0 := k.de0 ++ [walkXfer k.xferNext j.id j.index j.replay], xferNext := k.xferNext + 1 } else k

/-- A LOAD or STORE issued on a walker (R170 to R172, R194): its base from the replay's slot; a walk in memory goes to DE0. -/
def State.issueWalk (s : State) (d c : Nat) (o : Nat) : State :=
  let k := s.core d c
  s.when (k.issues false o && decide ((k.jobs.filter fun j => !j.x).length < 4)) fun s =>
    let w := k.next false
    let base := plusOff (k.preg k.sa.replay (walkPreg w)) (walkOffset w)
    let de0 := match s.resolve (walkAddr (k.pattern w) base 0) with | .mem _ => true | _ => false
    let j := k.newJob false base 0 de0 (k.pattern w)
    s.onCore d c fun k => ((k.issued false).addJob j).walkJob j de0

/-- LOAD (R171). -/
def execLoad (d c : Nat) (s : State) : Outcome State Fault Refusal := .next (s.issueWalk d c opLOAD)

/-- STORE (R171, R194). -/
def execStore (d c : Nat) (s : State) : Outcome State Fault Refusal := .next (s.issueWalk d c opSTORE)

/-- The word that a WAIT, SIGNAL or BARRIER names, or SFE_ADDR (R213). -/
def State.syncWord (s : State) (d c : Nat) (f : Nat → State → State) : State :=
  match (s.core d c).syncOff d c with
  | some off => f off s
  | none => s.streamFault d c 6 false 0 0 (s.core d c).sa.pc (s.core d c).sa.replay

/-- WAIT (R278): passes on a full word, emptying it with CONSUME; on an empty one it holds the stream. -/
def execWait (d c : Nat) (s : State) : Outcome State Fault Refusal :=
  .next (
    let k := s.core d c
    s.when (k.issues false opWAIT) fun s => s.syncWord d c fun off s =>
      s.onCore d c fun k =>
        let w := k.next false
        let k := { k.issued false with hold := some (.word off (syncConsume w), w, k.sa.replay) }
        if k.isFull off then k.passAe off (syncConsume w) else k)

/-- SIGNAL (R199, R279, R280): it issues at once and holds no later instruction; its word becomes full, and waiters pass, once earlier writes
are acknowledged. -/
def execSignal (d c : Nat) (s : State) : Outcome State Fault Refusal :=
  .next (
    let k := s.core d c
    s.when (k.issues false opSIGNAL) fun s => s.syncWord d c fun off s =>
      (s.onCore d c fun k =>
        let g : Sig := ⟨off, k.next false, k.sa.pc, k.sa.replay, k.jobNext, k.xferNext⟩
        { k.issued false with signals := k.signals ++ [g] }).settle d c)

/-- DMA items that count towards an engine's 16 places (R273, R283). -/
def Core.engineItems (k : Core) (de1 : Bool) : Nat := ((if de1 then k.de1 else k.de0).filter fun x => x.walk.isNone).length

/-- Whether each engine that a barrier's mask names has room for its marker. -/
def Core.markerRoom (k : Core) (m : Nat) : Bool :=
  (!bit m 1 || decide (k.engineItems false < 16)) && (!bit m 2 || decide (k.engineItems true < 16))

/-- A barrier marker put in an engine's queue. -/
def Core.addMarker (k : Core) (de1 : Bool) (off m : Nat) : Core :=
  let x := { walkXfer k.xferNext 0 (k.sa.pc - 1) k.sa.replay with walk := none, marker := some off, count := m }
  let k := { k with xferNext := k.xferNext + 1 }
  if de1 then { k with de1 := k.de1 ++ [x] } else { k with de0 := k.de0 ++ [x] }

/-- BARRIER (R283): with earlier writes acknowledged and room for a marker in each engine that the mask names, the access engine arrives and
waits for its round; a full word makes it wait before that. -/
def execBarrier (d c : Nat) (s : State) : Outcome State Fault Refusal :=
  .next (
    let k := s.core d c
    let w := k.next false
    let m := syncMask w
    s.when (k.issues false opBARRIER && k.aeWritten && k.markerRoom m) fun s => s.syncWord d c fun off s =>
      match s.arrive d c off 0 m with
      | none => s
      | some s =>
        if (s.core d c).faulted.isSome then s
        else s.onCore d c fun k =>
          let k := { k.issued false with hold := some (.barrier off, w, k.sa.replay) }
          let k := if bit m 1 then k.addMarker false off m else k
          if bit m 2 then k.addMarker true off m else k)

/-- A control core that waits for the barrier word at `off` to empty arrives there (R282). -/
def State.ccArrives (s : State) (d c off : Nat) : State :=
  match (s.core d c).cc.hold with
  | some (.arrive o m) =>
    if o = off then
      (match s.arrive d c off 3 m with
       | none => s
       | some s => if (s.core d c).faulted.isSome then s else s.onCc d c fun x => { x with hold := some (.barrier off) })
    else s
  | _ => s

/-- BARRIER_LEAVE (R282, R283): participant `who` (0 AE, 1 DE0, 2 DE1, 3 CC), released by a complete round, leaves the word at `off`. -/
def execBarrierLeave (d c off who : Nat) (s : State) : Outcome State Fault Refusal :=
  .next (
    let k := s.core d c
    let off := alignDown off 64
    let at_ := fun (h : Option Hold) => match h with | some (.barrier o) => decide (o = off) | _ => false
    let head := fun (q : List Xfer) => match q.head? with | some x => decide (x.marker = some off) && x.arrived | none => false
    let ready := if who = 0 then at_ (k.hold.map (·.1)) else if who = 1 then head k.de0 else if who = 2 then head k.de1
      else decide (who = 3) && at_ k.cc.hold
    let b := s.barrier d c off
    s.when (ready && (!b.legal (k.isFull off) || k.isFull off)) fun s =>
      let s := s.leave d c off who
      if (s.core d c).faulted.isSome then s
      else
        let s := s.onCore d c fun k =>
          if who = 0 then
            (match k.hold with
             | some (_, w, r) => ({ k with hold := none } : Core).due w r false (k.sa.pc - 1)
             | none => k)
          else if who = 1 then { k with de0 := k.de0.drop 1 }
          else if who = 2 then { k with de1 := k.de1.drop 1 }
          else { k with cc := { k.cc with hold := none } }
        s.ccArrives d c off)

/-- DMA_BARRIER_ARRIVE (R283): an engine whose earlier work has completed arrives for the marker at the head of its queue. -/
def execDmaBarrierArrive (d c : Nat) (de1 : Bool) (s : State) : Outcome State Fault Refusal :=
  .next (
    let k := s.core d c
    match (if de1 then k.de1 else k.de0).head? with
    | some x =>
      (match x.marker with
       | some off =>
         if x.arrived then s
         else
           match s.arrive d c off (if de1 then 2 else 1) x.count with
           | none => s
           | some s =>
             if (s.core d c).faulted.isSome then s
             else s.onCore d c fun k =>
               if de1 then { k with de1 := modAt (fun x => { x with arrived := true }) k.de1 0 }
               else { k with de0 := modAt (fun x => { x with arrived := true }) k.de0 0 }
       | none => s)
    | none => s)

/-! ### Queues and tokens -/

/-- QUEUE_BEAT_ACCEPT (R168): a step of queue `q`. -/
def execQueueBeatAccept (d c q : Nat) (s : State) : Outcome State Fault Refusal := .next (s.whenP (q < 32) fun s => s.queueStep d c q)

/-- TOKEN_CREDIT (R175, R176, R211): the first token that is due is credited. -/
def execTokenCredit (d c : Nat) (s : State) : Outcome State Fault Refusal :=
  .next (match (s.core d c).credits with
    | [] => s
    | x :: xs =>
      if (s.core d c).faulted.isSome then s
      else
        let s := (s.onCore d c fun k => { k with credits := xs }).credit d c x.cls x.replay x.x x.index
        if (s.core d c).faulted.isSome then s else s.settle d c)

/-- The instruction to which an uncorrectable word is put down (R184), as (index, replay): the oldest one of the stream that has not retired,
or else the next (DESIGN CHOICE log 37). -/
def Core.readerOf (k : Core) (x : Bool) : Nat × Nat :=
  match k.jobs.find? fun j => j.x = x with
  | some j => (j.index, j.replay)
  | none => ((k.stream x).pc, (k.stream x).replay)

/-- SFE_SPM_UNCORRECTABLE (R165, R182): counted, recorded and raised whoever read the word; where no task uses the core there is none to
abort. -/
def State.spmFault (s : State) (d c : Nat) (x : Bool) : State :=
  let k := s.core d c
  let r := k.readerOf x
  let s := s.countFld d c 0 SPM_ECC_COUNT.UNCORRECTABLE 1
  if k.task.isSome then s.streamFault d c 7 x 0 0 r.1 r.2
  else (s.recordStream d c (faultInfo 7 x 0 0 r.1) r.2).raise d 0x4307 (.core c) 0 (faultInfo 7 x 0 0 r.1 + r.2 * 2 ^ 32)

/-- STREAM_FAULT (R165, R182, R183): an uncorrectable scratchpad word or beat (kind 7), or the underflow of a pop (kind 1). Every other kind
is raised by the step that meets it. -/
def execStreamFault (d c kind : Nat) (x : Bool) (q _cls : Nat) (s : State) : Outcome State Fault Refusal :=
  .next (
    let k := s.core d c
    if kind = 7 then s.spmFault d c x
    else if kind = 1 ∧ mget [] k.queues q = [] then s.popStep d c q
    else s)

end Sys2Proof.Machine
end

