-- ==== Sys2Proof/Machine/CtlOps.lean ====
section
/-! DEFINITION. The control core: its data memory, faults of routines, returns, and what waits show in a stall (chapter 09, R287, R288). -/

set_option Elab.async false

namespace Sys2Proof.Machine

open Sys2Proof Enc7

/-- `n` bytes of a control core's data memory, and the state with bytes written there (R236). -/
def Ctl.bytes (m : Ctl) (a n : Nat) : List Byte := (List.range n).map fun i => mget 0 m.dmem (a + i)
def Ctl.write (m : Ctl) (a : Nat) (bs : List Byte) : Ctl := { m with dmem := writeCells m.dmem a (bs.take (0x10000 - a)) }

/-- The general registers (R236): x0 reads 0 and discards what is written to it. The value of rs1 is what the firmware's instructions before
this one left there (DESIGN CHOICE log 54). -/
def Ctl.setX (m : Ctl) (n v : Nat) : Ctl := if n = 0 then m else { m with xregs := m.xregs.set n (v % 2 ^ 32) }
def Ctl.x (m : Ctl) (n : Nat) : Nat := if n = 0 then 0 else (m.xregs[n]?).getD 0

/-- The control-status registers that the spec names (R241, R245): the head of the summary FIFO by words, 0 while the FIFO is empty, mie, mip
and mcause (DESIGN CHOICE log 54). -/
def Core.csr (k : Core) (notice : Bool) (n : Nat) : Nat :=
  if 0xFC0 ≤ n ∧ n ≤ 0xFC3 then k.cc.fifo.headD 0 / 2 ^ (32 * (n - 0xFC0)) % 2 ^ 32
  else if n = 0x304 then k.mie
  else if n = 0x344 then k.mip notice
  else if n = 0x342 then k.cc.mcause
  else 0

/-- A fault of the control core (R244, R251, R252, R254): recorded in CC_FAULT_INFO, raised, and the task is due for abort. -/
def State.ccFault (s : State) (d c kind id detail replay : Nat) : State :=
  let info := 2 ^ 31 + kind * 2 ^ 24 + id % 4096 * 2 ^ 12 + detail % 4096
  let s := (s.setReg d .CC_FAULT_INFO c 0 (BitVec.ofNat 32 info)).setReg d .CC_FAULT_REPLAY c 0 (BitVec.ofNat 32 replay)
  (s.onCc d c fun m => { m with mode := 4 }).coreFault d c (0x4600 + kind) (info + replay * 2 ^ 32)

/-- The replay that a call's fault records: that of an OCALL, 0 otherwise. -/
def Call.faultReplay (x : Call) : Nat := if x.source = 0 then x.replay else 0

/-- OASIS_FAIL of a routine (R252). -/
def State.oasisFail (s : State) (d c : Nat) (x : Call) (status : Nat) : State := s.ccFault d c 1 x.id status x.faultReplay

/-- A routine ends with a status: an OCALL's waits for OCALL_RETURN; a CALL's lets the control list go on (R243); a notice's is over.
A nonzero status of these two is OASIS_FAIL at once. -/
def State.routineEnds (s : State) (d c status : Nat) : State :=
  match (s.core d c).cc.call with
  | none => s
  | some x =>
    if x.source = 0 then s.onCc d c fun m => { m with call := some { x with status := some status } }
    else
      let s := s.onCore d c fun k => ({ k with cc := { k.cc with
        call := none
        entry := if x.source = 1 then k.cc.entry + 1 else k.cc.entry } } : Core).dispatch
      if status = 0 then s else s.oasisFail d c x status

/-- Whether a control core waits on a word or at a barrier; a KPOP or KPUSH at its queue is tried again. -/
def Ctl.held (m : Ctl) : Bool :=
  match m.hold with
  | some (.word _ _) => true
  | some (.barrier _) => true
  | some (.arrive _ _) => true
  | _ => false

/-- The routine that runs, when it has not ended and nothing holds the control core. -/
def Core.routine (k : Core) : Option Call :=
  match k.cc.call with
  | some x => if x.status.isNone && !k.cc.held && k.faulted.isNone then some x else none
  | none => none

/-- An illegal Xkeavo operand (R239): OASIS_FAIL of the routine, or of the dispatcher outside any, with a status that no rule states (DESIGN
CHOICE log 37). -/
def State.illegalX (s : State) (d c : Nat) : State :=
  let f := s.fresh
  if (s.core d c).faulted.isSome then s
  else
    match (s.core d c).cc.call with
    | some x => f.2.oasisFail d c x (1 + f.1 % 4095)
    | none => f.2.ccFault d c 1 0 (1 + f.1 % 4095) 0

/-- The OCALL that the running routine serves. -/
def Core.ocallJob (k : Core) : Option Job := k.jobs.find? fun j => j.x && opc j.word = opOCALL

/-- Words as the beats of one INT32 vector whose lane 0 holds `v` (R247, R248). -/
def laneZero (v : Nat) : List (List Byte) := toBeats (padTo 256 0 (leBytes 4 v)) 4

/-- The running OCALL's results formed, and its routine over. -/
def State.routinePushes (s : State) (d c : Nat) (out : List (List Byte)) : State :=
  (s.onCore d c fun k => match k.ocallJob with
    | some j => k.onJob j.id fun j => { j with formed := true, pushes := out }
    | none => k).routineEnds d c 0

/-- The 32-bit words of the operand that an OCALL's routine has popped, once it has all of it. -/
def Core.ocallInput (k : Core) : Option (List Nat) :=
  match k.ocallJob with
  | some j =>
    (match j.pops[0]? with
     | some p => if p.done then some (p.got.flatMap fun b => (List.range 16).map fun i => field b (4 * i) 4) else none
     | none => some [])
  | none => none

/-! ### Stalls -/

/-- What a stream waits on, as (code, argument) of R299. -/
def Core.waitCode (k : Core) (d c : Nat) (x : Bool) : Nat × Nat :=
  let st := k.stream x
  let w := k.next x
  let h : Option Hold := if x then none else k.hold.map (·.1)
  match h with
  | some (.word off _) => (4, off)
  | some (.barrier off) => (5, off)
  | _ =>
    if !st.running then (0, 0)
    else if st.inBlock && decide (k.patchDue = some st.replay) then (6, 0)
    else if x && k.inOcall then (6, 0)
    else if st.inBlock && st.closed then (if st.replay + 1 < st.replays ∧ k.checked + 4 ≤ st.replay + 1 then (7, 0) else (0, 0))
    else if st.inBlock && !k.tokenOk w then (1, (requires w).getD 0)
    else if !x && st.inBlock && decide (opc w = opXFER ∧ 16 ≤ k.engineItems (xferEngine w)) then (8, 0)
    else if !x && st.inBlock && decide (opc w = opBARRIER) && k.aeWritten && !k.markerRoom (syncMask w) then (8, 0)
    else if !x && st.inBlock && decide (opc w = opBARRIER) && k.aeWritten && k.isFull (k.syncAt d c) then (5, k.syncAt d c)
    else
      let js := k.jobs.filter fun j => j.x = x
      match js.findSome? fun j => (j.pops.find? fun p => !p.done && decide (mget [] k.queues p.q = [])).map (·.q) with
      | some q => (3, q)
      | none =>
        match js.find? fun j => match j.pushQ with | some q => k.pushesLeft j && decide (32 ≤ (mget [] k.queues q).length) | none => false with
        | some j => (2, j.pushQ.getD 0)
        | none => (0, 0)

/-- What the control core waits on: a word, a barrier, or a beat of a KPOP, a KPUSH or the OCALL that it serves. -/
def Core.ccWait (k : Core) : Nat :=
  match k.cc.hold with
  | some (.word _ _) => 4
  | some (.barrier _) => 5
  | some (.arrive _ _) => 5
  | some (.pop _) => 3
  | some (.push _) => 2
  | none =>
    match k.cc.call, k.ocallJob with
    | some x, some j =>
      if x.source ≠ 0 then 0
      else if j.pops.any fun p => !p.done && decide (mget [] k.queues p.q = []) then 3
      else if !j.pushes.isEmpty then 2
      else 0
    | _, _ => 0

/-- What an engine waits on: the barrier of the marker at its head, at which it has arrived or whose word is full; or, for a walk, a full or an
empty queue. -/
def Core.engineWait (k : Core) (q : List Xfer) : Nat :=
  match q.head? with
  | none => 0
  | some x =>
    match x.marker, x.walk with
    | some off, _ => if x.arrived || k.isFull off then 5 else 0
    | none, some id =>
      (match k.jobs.find? fun j => j.id = id with
       | some j =>
         if opc j.word = opLOAD then (if 32 ≤ (mget [] k.queues (walkQueue j.word)).length then 2 else 0)
         else if mget [] k.queues (walkQueue j.word) = [] then 3 else 0
       | none => 0)
    | none, none => 0

/-- SYNC_STALL_INFO as the detector latches it (R288). -/
def Core.stallInfo (k : Core) (d c : Nat) : Nat :=
  2 ^ 31 + (k.waitCode d c false).1 * 2 ^ 24 + (k.waitCode d c true).1 * 2 ^ 20 + k.ccWait * 2 ^ 16 + k.engineWait k.de0 * 2 ^ 12 +
    k.engineWait k.de1 * 2 ^ 8

/-- The stall record of R288, in the order in which that rule lists its registers. -/
def Core.stallRecord (k : Core) (info a x : Nat) : List Byte :=
  ([k.sfeStatus, k.sa.replay, k.sx.replay, k.tokenWord 0, k.tokenWord 1, k.tokenWord 2, k.tokenWord 3, k.nonempty, info, a, x]).flatMap
    (leBytes 4)

end Sys2Proof.Machine
end

