-- ==== Sys2Proof/Machine/KvService.lean ====
section
/-! DEFINITION. The requests that KV_SERVICE carries out, the KV routines that streams call, and operations of the ring logic (R310 to R317). -/

set_option Elab.async false

namespace Sys2Proof.Machine

open Sys2Proof Host

/-! ### Requests (R313, R314) -/

/-- A request that KV_SERVICE serves: the core, the sender and tag of the notice, the pointer, the record, and the models of the task that binds
the slot. -/
structure KvReq where
  d : Nat
  c : Nat
  sender : Nat
  tag : Nat
  pointer : Nat
  rec_ : List Byte
  models : List KvModel
  deriving DecidableEq, Repr

namespace KvReq

def op (q : KvReq) : Nat := field q.rec_ 0 1
def flags (q : KvReq) : Nat := field q.rec_ 1 1
def seq (q : KvReq) : Nat := field q.rec_ 2 2
def n (q : KvReq) : Nat := field q.rec_ 4 4
def aux (q : KvReq) : Nat := field q.rec_ 8 2
def home (q : KvReq) : Nat := field q.rec_ 0x0A 1
def list (q : KvReq) : Nat := field q.rec_ 0x10 8
def reply (q : KvReq) : Nat := field q.rec_ 0x18 8

/-- The model that holds SEQ. -/
def model (q : KvReq) : Option KvModel := q.models.find? (·.holds q.seq)

/-- Step 1 of R314: a reserved value, a nonzero reserved field, or a value outside the range of R307. -/
def fieldBad (q : KvReq) : Bool :=
  !(decide (1 ≤ q.op ∧ q.op ≤ 6 ∧ field q.rec_ 0x0B 5 = 0 ∧ field q.rec_ 0x21 1 = 0 ∧ field q.rec_ 0x24 28 = 0)) || !replyOk q.reply ||
    (if q.op = 1 then
       !(decide (q.flags < 8 ∧ 1 ≤ q.aux ∧ q.aux ≤ 4096 ∧ q.home < 32)) ||
         (bit q.flags 0 && !(decide (1 ≤ q.n ∧ q.n ≤ 1048576 ∧ ringLen q.n ≤ q.aux)))
     else decide (q.flags ≠ 0 ∨ q.home ≠ 0)) ||
    (decide (q.op ≠ 1 ∧ q.op ≠ 4) && decide (q.aux ≠ 0)) || (decide (q.op ≠ 2) && decide (q.list ≠ 0))

/-- The new pages of a RESERVE in one plane, as page numbers: those of the tokens reserved, or of the window's tokens (R314, R315). -/
def newPages (q : KvReq) (r : SeqRow) : List Nat :=
  let first := if r.windowed then (q.n - r.window) / 256 else (r.reserved + 255) / 256
  let last := if r.windowed then (q.n + 255) / 256 else (r.reserved + q.n + 255) / 256
  (List.range (last - first)).map (first + ·)

/-- The words of the frame list in one plane. -/
def listWords (q : KvReq) (r : SeqRow) : Nat := if r.windowed then (q.n + 255) / 256 else (q.newPages r).length

end KvReq

/-- The request that the routine of a core serves now. -/
def State.kvReq (s : State) (d c : Nat) : Option KvReq :=
  match (s.core d c).routine with
  | some x =>
    (match x.notice with
     | some (slot, note) =>
       if x.source = 2 ∧ x.id = 0x100 then
         some ⟨d, c, field note 12 4, field note 8 4, x.arg, s.seen x.arg 64,
           (match s.slotTask d (c / 16) slot with | some t => t.models.map s.model | none => [])⟩
       else none
     | none => none)
  | none => none

/-- The first of steps 1 to 4 of R314 that a request fails, as (status, reason); `state` is the STATE that the table requires, none for any but
FREE. -/
def State.kvCheck (s : State) (q : KvReq) (state : Option Nat) : Option (Nat × Nat) :=
  if q.fieldBad then some (3, 0x0002)
  else
    match q.model with
    | none => some (3, 0x0064)
    | some m =>
      let r := s.seqRow m q.seq
      let bytes := m.planes * q.listWords r * 8
      if q.op = 4 ∧ m.holds q.aux = false then some (3, 0x0064)
      else if q.op = 2 ∧ bytes ≠ 0 ∧ !(s.allMem q.list bytes && (senderKind q.sender ≠ 8 || s.posterReaches q.sender q.list bytes)) then
        some (3, 0x0008)
      else if (match state with | some st => decide (r.state ≠ st) | none => decide (r.state = 0)) then some (5, 0x0069)
      else if q.op = 4 ∧ (s.seqRow m q.aux).state ≠ 2 then some (5, 0x0069)
      else none

/-- Frames pinned for a request unpinned, and the request no longer waiting. -/
def State.kvUnwait (s : State) (d c : Nat) : State :=
  let ws := s.kv.waits.filter fun w => w.d = d && w.c = c
  let s := s.onKv fun x => { x with waits := x.waits.filter fun w => !(w.d = d && w.c = c) }
  (ws.flatMap (·.pins)).foldl (fun s f => s.unpin f) s

/-- A request completes: STATUS and REASON written, the reply posted, and the routine over (R313). -/
def State.kvDone (s : State) (q : KvReq) (status reason : Nat) : State :=
  let s := (s.kvUnwait q.d q.c).writeBytes (q.pointer + 0x20) (leBytes 1 status)
  let s := s.writeBytes (q.pointer + 0x22) (leBytes 2 reason)
  (s.replyIf (senderKv q.d (q.c / 16)) q.reply q.pointer q.tag).routineEnds q.d q.c 0

/-- A request of one operation: checked, then carried out with its model and row. -/
def State.kvServe (s : State) (d c op : Nat) (state : Option Nat) (f : KvReq → KvModel → SeqRow → State → State) : State :=
  match s.kvReq d c with
  | none => s
  | some q =>
    if q.op ≠ op then s
    else s.withMem (.cc d c) [(q.pointer, 64, true)] fun s =>
      match s.kvCheck q state, q.model with
      | some (st, why), _ => s.kvDone q st why
      | none, some m => f q m (s.seqRow m q.seq) s
      | none, none => s

/-- A page table's place in the KV structures region: the lowest 64-byte aligned one that fits behind the frame descriptors (DESIGN CHOICE
log 41). -/
def State.kvSpace (s : State) (n : Nat) : Option Nat :=
  let r := s.kvRegion
  let cands := (r.1 + s.kvFrameBytes) :: s.kv.ranges.map fun y => y.1 + y.2
  let ok := fun (a : Nat) => decide (r.1 + s.kvFrameBytes ≤ a ∧ a + n ≤ r.1 + r.2) && s.kv.ranges.all fun y => decide (a + n ≤ y.1 ∨ y.1 + y.2 ≤ a)
  ((cands.map (alignUp · 64)).filter ok).foldl (fun (b : Option Nat) a => match b with | some x => some (min x a) | none => some a) none

/-- A row opened with its page table of zeros. START is a value that the spec leaves open (DESIGN CHOICE log 15) (DESIGN CHOICE log 41). -/
def State.openRow (s : State) (m : KvModel) (r : SeqRow) (flags pagesMax window home length reserved state : Nat) : Option State :=
  let n := m.planes * pagesMax * 16
  (s.kvSpace n).map fun a =>
    let f := s.fresh
    let s := f.2.onKv fun x => { x with ranges := x.ranges ++ [(a, n)] }
    (s.writeBytes a (List.replicate n 0)).writeBytes r.at_
      (leBytes 4 length ++ leBytes 1 state ++ leBytes 1 flags ++ leBytes 2 pagesMax ++ leBytes 8 a ++ leBytes 4 window ++ leBytes 1 home ++
        leBytes 1 f.1 ++ leBytes 2 0 ++ leBytes 4 reserved ++ leBytes 4 0)

/-- OPEN (DESIGN CHOICE log 41). -/
def execKvOpen (d c : Nat) (s : State) : Outcome State Fault Refusal :=
  .next (s.kvServe d c 1 (some 0) fun q m r s =>
    match s.openRow m r q.flags q.aux (if bit q.flags 0 then q.n else 0) q.home 0 0 1 with
    | some s => s.kvDone q 0 0
    | none => s.kvDone q 5 0x0068)

/-- Frames reserved for pages given as (plane, page), with their slot addresses, or the first plane that has none. -/
def State.reserveAll (s : State) (m : KvModel) (r : SeqRow) (seq : Nat) : List (Nat × Nat) → Except Nat (State × List Nat)
  | [] => .ok (s, [])
  | (p, n) :: ps =>
    match s.takeFrame m r.start n 1 ⟨seq, p, r.indexOf n⟩ with
    | none => .error p
    | some (f, s) => match s.reserveAll m r seq ps with
      | .ok x => .ok (x.1, x.1.frameAddr f :: x.2)
      | .error p => .error p

/-- The frame list: in each plane one word for each page of the list, 0 for a page without a frame (R314, R315). -/
def frameList (words skip : Nat) (addrs : List Nat) : Nat → List Byte
  | 0 => []
  | planes + 1 =>
    let own := words - skip
    ((List.replicate skip 0 ++ addrs.take own).flatMap (leBytes 8)) ++ frameList words skip (addrs.drop own) planes

/-- RESERVE (R314, R315): without a frame it waits while a spill can free one (DESIGN CHOICE log 41). -/
def execReserve (d c : Nat) (s : State) : Outcome State Fault Refusal :=
  .next (s.kvServe d c 2 (some 1) fun q m r s =>
    let pages := q.newPages r
    if 1048576 < r.reserved + q.n then s.kvDone q 5 0x0061
    else if !r.windowed && pages.any (r.pagesMax ≤ ·) then s.kvDone q 5 0x0062
    else if r.windowed ∧ r.reserved ≠ 0 then s.kvDone q 5 0x006A
    else
      let plan := (List.range m.planes).flatMap fun p => pages.map fun n => (p, n)
      match s.reserveAll m r q.seq plan with
      | .error p => if s.mayFree m p then s.starve m p else s.kvDone q 5 0x0063
      | .ok (t, addrs) =>
        let words := q.listWords r
        let bytes := frameList words (words - pages.length) addrs m.planes
        s.withMem (.cc d c) [(q.list, bytes.length, true)] fun _ =>
          ((t.writeBytes q.list bytes).setRow r 0x18 4 (r.reserved + q.n)).kvDone q 0 0)

/-- COMMIT: pages with tokens become present, other reserved frames are released, and the sequence is ACTIVE. -/
def execCommit (d c : Nat) (s : State) : Outcome State Fault Refusal :=
  .next (s.kvServe d c 3 (some 1) fun q m r s =>
    if r.windowed ∧ q.n ≠ r.reserved then s.kvDone q 5 0x006A
    else if !r.windowed && decide (r.reserved < q.n) then s.kvDone q 3 0x0002
    else
      let s := (s.reservedFor q.seq).foldl (fun s f =>
        let pg : PageId := ⟨q.seq, s.fd f 2 2, s.fd f 0x0E 2 % 4096⟩
        if r.windowed ∨ pg.index < (q.n + 255) / 256 then (s.setFd f 0 1 2).setEntry pg (wordPresent f) 0 0 else s.reclaim f) s
      let r := s.seqRow m q.seq
      ((s.setRow r 0 4 q.n).setRow r 4 1 2).kvDone q 0 0)

/-- The frames that a waiting request holds pinned. -/
def State.waitPins (s : State) (d c : Nat) : List Nat := (s.kv.waits.filter fun w => w.d = d && w.c = c).flatMap (·.pins)

/-- Source pages that a SHARE waits for brought nearer: present ones pinned, and the prefetches of spilled ones asked for; whether each can get
a frame. -/
def State.gatherPages (s : State) (q : KvReq) (pages : List PageId) : State × Bool :=
  (pages.foldl (fun s pg =>
    let w := s.entryWord pg
    if !enPresent w || (s.waitPins q.d q.c).contains (enFrame w) then s
    else match s.pin (enFrame w) with
      | some t => t.onKv fun x => { x with waits := x.waits ++ [⟨q.d, q.c, q.pointer, [enFrame w]⟩] }
      | none => s) s).askPages pages

/-- SHARE: once every source page stands in a frame, pinned, the sequence opens with a reference to each (DESIGN CHOICE log 41). -/
def execShare (d c : Nat) (s : State) : Outcome State Fault Refusal :=
  .next (s.kvServe d c 4 (some 0) fun q m r s =>
    let src := s.seqRow m q.aux
    let pages := (List.range m.planes).flatMap fun p => (List.range ((q.n + 255) / 256)).map fun i => (⟨q.aux, p, i⟩ : PageId)
    if src.length < q.n then s.kvDone q 3 0x0002
    else if src.windowed then s.kvDone q 5 0x006A
    else if pages.any fun pg => enPoison (s.entryWord pg) then s.kvDone q 4 0x0020
    else
      let a := s.gatherPages q pages
      let s := a.1
      if !a.2 then s.kvDone q 5 0x0063
      else if pages.any fun pg => s.entryWord pg = wordSpilled then (if s.kv.unreachable then s.kvDone q 5 0x0050 else s)
      else if pages.any fun pg => !enPresent (s.entryWord pg) then s
      else
        match s.openRow m r src.flags src.pagesMax 0 src.home q.n q.n 2 with
        | none => s.kvDone q 5 0x0068
        | some s =>
          (pages.foldl (fun s pg =>
            let f := enFrame (s.entryWord pg)
            (s.addRef f).setEntry { pg with seq := q.seq } (wordPresent f) 0 0) s).kvDone q 0 0)

/-- FREE. -/
def execKvFree (d c : Nat) (s : State) : Outcome State Fault Refusal :=
  .next (s.kvServe d c 5 none fun q _ _ s => (s.freeSeq q.seq).kvDone q 0 0)

/-- PREFETCH: the prefetch of every spilled page begins. Pages without a frame wait for a spill, and the request with them; where no spill
can free one it is REFUSED, reason 0x0063 (R312) (DESIGN CHOICE log 41). -/
def execKvPrefetch (d c : Nat) (s : State) : Outcome State Fault Refusal :=
  .next (s.kvServe d c 6 (some 2) fun q m r s =>
    let pages := seqPages m r q.seq
    let a := s.askPages pages
    if !a.2 then a.1.kvDone q 5 0x0063
    else if pages.any a.1.kv.wanted.contains then a.1
    else a.1.kvDone q 0 0)

/-! ### Routines that streams call (R316) -/

/-- A KV routine ends with a status: an OCALL's pushes nothing. -/
def State.kvRoutineEnds (s : State) (d c : Nat) (x : Call) (status : Nat) : State :=
  if x.source = 0 ∧ status = 0 then s.routinePushes d c [] else s.routineEnds d c status

/-- A KV routine's step. -/
def State.kvRoutine (s : State) (d c id : Nat) (f : Call → State → State) : State :=
  match (s.core d c).routine with
  | some x => if x.id = id ∧ x.source ≠ 2 then f x s else s
  | none => s

/-- A failure with a status that no rule states. -/
def State.kvRoutineFails (s : State) (d c : Nat) (x : Call) : State :=
  let f := s.fresh
  f.2.kvRoutineEnds d c x (1 + f.1 % 4095)

/-- The BANK descriptor of a frame (R256, R260): the model's vectors, keys and values of every head, in the order of the rows. -/
def frameDesc (m : KvModel) (addr : Nat) : List Byte :=
  leBytes 1 2 ++ leBytes 1 m.fmt ++ leBytes 1 2 ++ leBytes 5 0 ++ leBytes 8 addr ++ leBytes 3 (m.dim - 1) ++ leBytes 3 (512 * m.h - 1) ++
    List.replicate 42 0

/-- Whether an accepted transfer that has not completed names a descriptor entry (R257). -/
def Core.entryBusy (k : Core) (e : Nat) : Bool :=
  (k.de0 ++ k.de1).any fun x =>
    x.walk.isNone && x.marker.isNone && (match field x.desc 0 1 with
      | 1 | 2 => decide (field x.desc 2 1 = e ∨ field x.desc 3 1 = e)
      | 3 => decide (field x.desc 2 1 = e ∨ field x.desc 3 1 = e ∨ field x.desc 4 1 = e)
      | 4 => decide (field x.desc 3 1 = e)
      | _ => false)

/-- The frame that a dynamic descriptor of a core pins unpinned. -/
def State.dropDynamic (s : State) (d c e : Nat) : State :=
  match mfind (s.core d c).dpins e with
  | some f => (s.unpin f).onCore d c fun k => { k with desc := mdel k.desc e, dpins := mdel k.dpins e }
  | none => s

/-- The first check of R262 that a frame's descriptor fails; its allocation is the frame's slot (DESIGN CHOICE log 58). -/
def State.frameDescBad (s : State) (f : Nat) (t : List Byte) : Option Nat :=
  let z := tReach t
  let lo := (tBase t : Int) + z.1
  if descFieldBad t then some 0x0040
  else if !descFormatOk t then some 0x0041
  else if !descShapeOk t true then some 0x0042
  else if !descAlignOk t (some (tBase t)) then some 0x0043
  else if !(decide (s.frameAddr f ≤ lo ∧ lo + (z.2 - z.1) ≤ s.frameAddr f + s.slotLen f)) then some 0x0044
  else none

/-- KV_FRAME_DESC: the page's frame is pinned, once it is present, and an entry describes it after the checks of R262, whose code is the
status of a failure (R256). A poisoned page is status 0x020, an unreachable one 0x050, and one that can get no frame 0x063 (DESIGN CHOICE
log 39). -/
def execKvFrameDesc (d c : Nat) (s : State) : Outcome State Fault Refusal :=
  .next (s.kvRoutine d c 0x102 fun x s =>
    let pg : PageId := ⟨bits x.arg 63 48, bits x.arg 47 32, bits x.arg 27 16⟩
    let e := bits x.arg 7 0
    match s.modelOf pg.seq with
    | none => s.kvRoutineFails d c x
    | some m =>
      let r := s.seqRow m pg.seq
      let w := s.entryWord pg
      if e < 0xC0 ∨ r.state = 0 ∨ m.planes ≤ pg.plane ∨ r.pagesMax ≤ pg.index ∨ w = 0 then s.kvRoutineFails d c x
      else if enPoison w then s.kvRoutineEnds d c x 0x020
      else if w = wordSpilled ∧ s.kv.unreachable then s.kvRoutineEnds d c x 0x050
      else if !enPresent w then (match s.askPage pg with | some s => s | none => s.kvRoutineEnds d c x 0x063)
      else if (s.core d c).entryBusy e then s
      else if let some why := s.frameDescBad (enFrame w) (frameDesc m (s.frameAddr (enFrame w))) then s.kvRoutineEnds d c x why
      else
        match (s.walk d (c / 16) pg).2.pin (enFrame w) with
        | none => s
        | some s =>
          ((s.dropDynamic d c e).onCore d c fun k => { k with
            desc := mput k.desc e (frameDesc m (s.frameAddr (enFrame w)))
            dpins := mput k.dpins e (enFrame w) }).kvRoutineEnds d c x 0)

/-- KV_RELEASE_DESC: once no accepted transfer names the entry, it is invalid and its frame unpinned (DESIGN CHOICE log 39). -/
def execKvReleaseDesc (d c : Nat) (s : State) : Outcome State Fault Refusal :=
  .next (s.kvRoutine d c 0x103 fun x s =>
    if (s.core d c).entryBusy (bits x.arg 7 0) then s else (s.dropDynamic d c (bits x.arg 7 0)).kvRoutineEnds d c x 0)

/-- KV_POST_STEP: the notice at ARG is posted to the slot that follows it, of a cluster of the own die; a slot whose receiver is no attention
sequencer, or a refused post, fails (DESIGN CHOICE log 39). -/
def execKvPostStep (d c : Nat) (s : State) : Outcome State Fault Refusal :=
  .next (s.kvRoutine d c 0x104 fun x s =>
    let b := (s.core d c).cc.bytes x.arg 18
    let slot := field b 16 2
    if 4 ≤ slot / 256 ∨ bindRecv (s.binding d (slot / 256) (slot % 256)) ≠ 1 then s.kvRoutineFails d c x
    else match s.post (senderCc d c) d (slot / 256) (slot % 256) (field b 0 8) (field b 8 4) with
      | (s, .ok) => s.kvRoutineEnds d c x 0
      | (s, _) => s.kvRoutineFails d c x)

/-! ### The ring logic's own operations -/

/-- A page of an open sequence of a model. -/
def State.pageIn (s : State) (model seq plane page : Nat) : Option (KvModel × SeqRow × PageId) :=
  match s.modelOf seq with
  | none => none
  | some m =>
    let r := s.seqRow m seq
    if m.addr = model ∧ r.state ≠ 0 ∧ plane < m.planes ∧ r.indexOf page < r.pagesMax then some (m, r, ⟨seq, plane, r.indexOf page⟩) else none

/-- FRAME_PIN (R310): only a frame IN_USE takes the pin. -/
def execFramePin (pool bank band slot : Nat) (s : State) : Outcome State Fault Refusal :=
  .next (match s.frameAt pool bank band slot with
    | some f => (s.pin f).getD s
    | none => s)

/-- FRAME_UNPIN (R317): a frame that is pinned loses one pin, and an ORPHAN its last one and itself. -/
def execFrameUnpin (pool bank band slot : Nat) (s : State) : Outcome State Fault Refusal :=
  .next (match s.frameAt pool bank band slot with
    | some f => if s.pinsOf f ≠ 0 then s.unpin f else s
    | none => s)

/-- COPY_ON_WRITE (R317). -/
def execCopyOnWrite (model seq plane page : Nat) (s : State) : Outcome State Fault Refusal :=
  .next (match s.pageIn model seq plane page with
    | some (m, r, pg) =>
      let w := s.entryWord pg
      if enPresent w ∧ 1 < s.refs (enFrame w) then (s.copyOnWrite m r.start page pg).getD s else s
    | none => s)

/-- LAB_INVALIDATE (R311). -/
def execLabInvalidate (model seq plane page : Nat) (s : State) : Outcome State Fault Refusal :=
  .next (match s.pageIn model seq plane page with
    | some (_, _, pg) => s.labInvalidate pg
    | none => s)

end Sys2Proof.Machine
end

