-- ==== Sys2Proof/Machine/CollOps.lean ====
section
/-! DEFINITION. The collective engines (R423 to R427). -/

set_option Elab.async false

namespace Sys2Proof.Machine

open Sys2Proof

/-! ### The descriptor (R423) -/

def Coll.op (c : Coll) : Nat := field c.desc 0 1
def Coll.dtype (c : Coll) : Nat := field c.desc 1 1
def Coll.redop (c : Coll) : Nat := field c.desc 2 1
def Coll.group (c : Coll) : Nat := field c.desc 3 1
def Coll.collId (c : Coll) : Nat := field c.desc 4 4
def Coll.count (c : Coll) : Nat := field c.desc 8 4
def Coll.root (c : Coll) : Nat := field c.desc 0x0C 2
def Coll.norm (c : Coll) : Bool := bit (field c.desc 0x0E 1) 0
def Coll.src (c : Coll) : Nat := field c.desc 0x10 8
def Coll.dst (c : Coll) : Nat := field c.desc 0x18 8
def Coll.reply (c : Coll) : Nat := field c.desc 0x20 8

/-- Bytes of an element of DTYPE. -/
def Coll.esz (c : Coll) : Nat := if c.dtype = 4 ∨ c.dtype = 5 then 2 else 4

/-- The collective groups of the record, in stored order (R423) (DESIGN CHOICE log 50). -/
def State.collGroups (s : State) : List (List Member) :=
  (s.entries 0x0007).filterMap fun e => match e with | .collGroup ms => some ms | _ => none

/-- The members of a group; none where it is not configured. -/
def State.collMembers (s : State) (g : Nat) : List Member := (s.collGroups[g]?).getD []

/-- The Caravan address of a member. -/
def memberAddr (m : Member) : Nat := m.module * 2048 + m.agent % 2048

/-- The address of member `i` of a collective's group. -/
def State.memberOf (s : State) (c : Coll) (i : Nat) : Option Nat := ((s.collMembers c.group)[i]?).map memberAddr

/-- The index of this die's collective engine in a group. -/
def State.memberIndex (s : State) (d g : Nat) : Option Nat :=
  (s.collMembers g).findIdx? fun m => memberAddr m = carAddr s.moduleNo d 0x60

/-! ### Numbers (R105, R424) -/

/-- An element of DTYPE as it travels in the reduce phase: FP32, or the INT32 word. -/
def widen (dtype w : Nat) : Nat :=
  if dtype = 4 then to32 (bf16.decode w) else if dtype = 5 then to32 (fp16.decode w) else w

/-- A word of the reduce phase rounded once into DTYPE. -/
def narrow (dtype w : Nat) : Nat :=
  if dtype = 4 then bf16.encode (f32 w) else if dtype = 5 then fp16.encode (f32 w) else w

/-- Two words combined by REDOP. -/
def combine (dtype redop a b : Nat) : Nat :=
  if dtype = 0xC then
    (if redop = 0 then (a + b) % 2 ^ 32
     else if redop = 1 then (if toSigned 32 a ≤ toSigned 32 b then b else a)
     else (if toSigned 32 a ≤ toSigned 32 b then a else b))
  else if redop = 0 then f32Add a b
  else if redop = 1 then f32Max a b
  else f32Min a b

/-- Words of `e` bytes, and their bytes. -/
def wordsOf (e : Nat) : Nat → List Byte → List Nat
  | 0, _ => []
  | n + 1, bs => leNat (bs.take e) :: wordsOf e n (bs.drop e)
def bytesOf (e : Nat) (ws : List Nat) : List Byte := ws.flatMap (leBytes e)

/-! ### Chunks (R424) -/

/-- The first element and the length of chunk `k`. -/
def Coll.chunk (c : Coll) (k : Nat) : Nat × Nat :=
  if c.op = 1 then
    let q := (c.count + c.p - 1) / c.p
    (k * q, min q (c.count - k * q))
  else (k * c.count, c.count)

/-- This member's own input of chunk `k`, in DTYPE; of an ALLGATHER its only chunk. -/
def State.collInput (s : State) (c : Coll) (k : Nat) : List Nat :=
  let (first, n) := if c.op = 3 then (0, c.count) else c.chunk k
  wordsOf c.esz n (s.seen (c.src + first * c.esz) (n * c.esz))

/-- Chunk `k` written to DST, in DTYPE. -/
def State.collWrite (s : State) (c : Coll) (k : Nat) (ws : List Nat) : State :=
  let first := if c.op = 2 then 0 else (c.chunk k).1
  s.writeBytes (c.dst + first * c.esz) (bytesOf c.esz ws)

/-- The chunk that this member sends in its step, and the one it receives. -/
def Coll.sends (c : Coll) : Nat := (c.index + 2 * c.p - c.step - (if c.phase = 0 then 1 else 0)) % c.p
def Coll.gets (c : Coll) : Nat := (c.index + 2 * c.p - c.step - (if c.phase = 0 then 2 else 1)) % c.p

/-! ### Frames (R426) -/

/-- A COLL frame to a member: 64 bytes that describe its part of the collective, then the data. -/
def State.sendColl (s : State) (c : Coll) (whom opt chunk first n : Nat) (data : List Byte) : State :=
  match s.memberOf c whom with
  | none => s
  | some dst =>
    let head := padTo 64 0 (c.desc.take 3 ++ leBytes 1 0 ++ leBytes 4 c.count ++ leBytes 4 chunk ++ leBytes 4 first ++ leBytes 4 n)
    s.sendFrame (mkFrame 0x21 dst (carAddr s.moduleNo c.d 0x60) (c.step % 65536) 0 opt (c.group * 2 ^ 40 + c.collId * 2 ^ 8)
      (head ++ padTo (alignUp data.length 64) 0 data))

/-- A chunk in frames of at most 1,984 data bytes; an empty chunk in one frame without data (DESIGN CHOICE log 50). -/
def State.sendParts (s : State) (c : Coll) (e k : Nat) : Nat → Nat → List Nat → State
  | 0, _, _ => s
  | fuel + 1, first, ws =>
    let n := 1984 / e
    let s := s.sendColl c ((c.index + 1) % c.p) c.phase k first (min n ws.length) (bytesOf e (ws.take n))
    if ws.length ≤ n then s else s.sendParts c e k fuel (first + n) (ws.drop n)

/-- The chunk of this member's step sent to the next member. -/
def State.sendChunk (s : State) (c : Coll) : State :=
  let k := c.sends
  let ws := if c.phase = 0 ∧ c.step = 0 then (s.collInput c k).map (widen c.dtype) else mget [] c.chunks k
  s.sendParts c (if c.phase = 0 then 4 else c.esz) k (ws.length / 496 + 1) 0 ws

/-! ### The tree of a head merge (R425) -/

/-- The place of member `i` relative to the root, and the member at a place. -/
def Coll.place (c : Coll) (i : Nat) : Nat := (i + c.p - c.root) % c.p
def Coll.memberAt (c : Coll) (r : Nat) : Nat := (r + c.root) % c.p

/-- The lowest set bit of a number below 2^15. -/
def lowBit (r : Nat) : Nat := ((List.range 15).find? fun k => bit r k).getD 15

/-- The parent of this member, none for the root, and its children, as member indexes. -/
def Coll.parent (c : Coll) : Option Nat :=
  let r := c.place c.index
  if r = 0 then none else some (c.memberAt (r - 2 ^ lowBit r))
def Coll.children (c : Coll) : List Nat :=
  let r := c.place c.index
  (((List.range (lowBit r)).map fun k => r + 2 ^ k).filter (· < c.p)).map c.memberAt

/-- The partial of a record (R324). -/
def recordPartial (d : Nat) (bs : List Byte) : Partial := ⟨field bs 0 4, field bs 4 4, wordsOf 4 d (bs.drop 8)⟩
def partialRecord (p : Partial) : List Byte := leBytes 4 p.m ++ leBytes 4 p.l ++ bytesOf 4 p.o

/-! ### Completion (R427) -/

/-- The state with a running collective replaced by its image. -/
def State.onColl (s : State) (c : Coll) (f : Coll → Coll) : State :=
  s.onFab fun x => { x with colls := x.colls.map fun y => if y.d = c.d ∧ y.group = c.group ∧ y.collId = c.collId then f y else y }

/-- STATUS and REASON of a collective written, and its reply sent (R427). -/
def State.reportColl (s : State) (c : Coll) (status reason : Nat) : State :=
  let s := s.writeBytes (c.pointer + 0x28) (leBytes 1 status)
  let s := s.writeBytes (c.pointer + 0x2A) (leBytes 2 reason)
  s.replyIf (senderColl c.d) c.reply c.pointer c.tag

/-- A running collective completed: the engine's place is free. -/
def State.endColl (s : State) (c : Coll) (status reason : Nat) : State :=
  let s := s.onFab fun x => { x with colls := x.colls.filter fun y => !(y.d = c.d && y.group = c.group && y.collId = c.collId) }
  s.reportColl c status reason

/-- An abort frame to members. -/
def State.sendAborts (s : State) (c : Coll) (whom : List Nat) : State :=
  (whom.eraseDups.filter (· ≠ c.index)).foldl (fun s i => s.sendColl c i 3 0 0 0 []) s

/-- The ring neighbours of a member, or its parent and children. -/
def Coll.neighbours (c : Coll) : List Nat :=
  if c.op = 4 then c.parent.toList ++ c.children else [(c.index + c.p - 1) % c.p, (c.index + 1) % c.p]

/-- Where an abort that came from member `i` goes on, in the same direction. -/
def Coll.onward (c : Coll) (i : Nat) : List Nat :=
  if c.op = 4 then (if c.parent = some i then c.children else c.parent.toList)
  else if i = (c.index + c.p - 1) % c.p then [(c.index + 1) % c.p]
  else [(c.index + c.p - 1) % c.p]

/-! ### Progress -/

/-- The gather phase begun with this member's own chunk, in DTYPE. -/
def State.startGather (s : State) (c : Coll) (ws : List Nat) : State :=
  let s := s.collWrite c c.index ws
  if c.p = 1 then s.endColl c 0 0
  else
    let c' := { c with phase := 1, step := 0, chunks := [(c.index, ws)], got := [] }
    (s.onColl c fun _ => c').sendChunk c'

/-- The reduce phase ended with this member's chunk reduced. -/
def State.endReduce (s : State) (c : Coll) (ws : List Nat) : State :=
  let raw := ws.map (narrow c.dtype)
  if c.op = 2 then (s.collWrite c c.index raw).endColl c 0 0 else s.startGather c raw

/-- The words received of a chunk, in order of their offsets. -/
def gotWords (got : List (Nat × List Nat)) : Nat → Nat → List Nat
  | 0, _ => []
  | fuel + 1, off => match got.find? fun x => x.1 = off ∧ x.2.length ≠ 0 with
    | some x => x.2 ++ gotWords got fuel (off + x.2.length)
    | none => []

/-- The expected chunk has arrived whole: it is combined or written, and the next step begins. -/
def State.chunkDone (s : State) (c : Coll) : State :=
  let k := c.gets
  let ws := gotWords c.got (c.got.length + 1) 0
  if c.phase = 0 then
    let own := (s.collInput c k).map (widen c.dtype)
    let ws := (ws.zip own).map fun x => combine c.dtype c.redop x.1 x.2
    if c.step + 2 = c.p then s.endReduce c ws
    else
      let c' := { c with step := c.step + 1, chunks := [(k, ws)], got := [] }
      (s.onColl c fun _ => c').sendChunk c'
  else
    let s := s.collWrite c k ws
    if c.step + 2 = c.p then s.endColl c 0 0
    else
      let c' := { c with step := c.step + 1, chunks := [(k, ws)], got := [] }
      (s.onColl c fun _ => c').sendChunk c'

/-- A head merge with every child's partial merged: the result goes to the parent, or the root writes it (R125, R425). -/
def State.mergeDone (s : State) (c : Coll) : State :=
  match c.parent with
  | some i => (s.sendColl c i 2 0 0 (c.count + 2) (partialRecord c.part)).endColl c 0 0
  | none =>
    let out := if c.norm then bytesOf 4 c.part.out ++ leBytes 4 (c.part.lse 12) else partialRecord c.part
    (s.writeBytes c.dst out).endColl c 0 0

/-! ### Frames received (R426, R427) -/

def collOpt (f : List Byte) : Nat := frOpt f
def collHead (f : List Byte) (off n : Nat) : Nat := field (frPayload f) off n

/-- The running collective of a die that a frame belongs to. -/
def State.collOf (s : State) (d : Nat) (f : List Byte) : Option Coll :=
  s.fab.colls.find? fun c => decide (c.d = d ∧ c.group = bits (frAddr f) 47 40 ∧ c.collId = bits (frAddr f) 39 8)

/-- Whether a frame's OP, DTYPE, REDOP and COUNT are those of this member's descriptor. -/
def Coll.agrees (c : Coll) (f : List Byte) : Bool := decide ((frPayload f).take 3 = c.desc.take 3 ∧ collHead f 4 4 = c.count)

/-- The member that sent a frame. -/
def State.collFrom (s : State) (c : Coll) (f : List Byte) : Option Nat := (s.collMembers c.group).findIdx? fun m => memberAddr m = frSrc f

/-- Whether a frame of the ring comes before its step, in phase and step order. -/
def Coll.early (c : Coll) (f : List Byte) : Bool :=
  c.op ≠ 4 && decide (collOpt f < 2) && decide (c.phase * 65536 + c.step < collOpt f * 65536 + frTag f) && c.agrees f

/-- Data words of a frame. -/
def collData (e : Nat) (f : List Byte) : List Nat := wordsOf e (collHead f 16 4) ((frPayload f).drop 64)

/-- A frame of a running collective acted on: an abort, a disagreement, the expected chunk or partial; anything else is dropped (DESIGN
CHOICE log 50). -/
def State.takeColl (s : State) (c : Coll) (f : List Byte) : State :=
  match s.collFrom c f with
  | none => s
  | some i =>
    if collOpt f = 3 then (s.sendAborts c (c.onward i)).endColl c 3 0x0080
    else if !c.agrees f then (s.sendAborts c c.neighbours).endColl c 3 0x0080
    else if c.op = 4 then
      (if collOpt f = 2 ∧ c.children.contains i = true ∧ c.kids.contains i = false then
         let c' := { c with kids := c.kids ++ [i], part := c.part.merge 12 (recordPartial c.count ((frPayload f).drop 64)) }
         let s := s.onColl c fun _ => c'
         if c.children.all c'.kids.contains then s.mergeDone c' else s
       else s)
    else
      let e := if c.phase = 0 then 4 else c.esz
      let n := (c.chunk c.gets).2
      let first := collHead f 12 4
      if i = (c.index + c.p - 1) % c.p ∧ collOpt f = c.phase ∧ frTag f = c.step % 65536 ∧ collHead f 8 4 = c.gets ∧
          first + collHead f 16 4 ≤ n ∧ (c.got.all fun x => decide (x.1 ≠ first)) = true then
        let c' := { c with got := c.got ++ [(first, collData e f)] }
        let s := s.onColl c fun _ => c'
        if (c'.got.map (·.2.length)).sum = n then s.chunkDone c' else s
      else s

/-- The first waiting frame of a die that can be acted on: one whose collective runs and whose step has come, behind no frame of a collective
that has not started (DESIGN CHOICE log 50). -/
def State.collReady (s : State) (d : Nat) : List CollFrame → Option CollFrame
  | [] => none
  | x :: xs =>
    if x.d ≠ d then s.collReady d xs
    else match s.collOf d x.bytes with
      | none => none
      | some c => if c.early x.bytes then s.collReady d xs else some x

/-- What waits in a die's collective buffer and can go on, acted on. -/
def State.drainColl (s : State) (d : Nat) : Nat → State
  | 0 => s
  | n + 1 =>
    match s.collReady d s.fab.collBuf with
    | none => s
    | some x =>
      let s := s.onFab fun y => { y with collBuf := dropFirst (· == x) y.collBuf }
      let s := s.freeBuffer x.from_ (frUnits x.bytes)
      (match s.collOf d x.bytes with
       | some c => (s.takeColl c x.bytes).drainColl d n
       | none => s)

/-- A COLL frame delivered to a die. -/
def State.recvColl (s : State) (d : Nat) (f : List Byte) (from_ : Option (Nat × Nat × Nat)) : State :=
  let s := s.onFab fun x => { x with collBuf := x.collBuf ++ [⟨d, f, from_⟩] }
  s.drainColl d s.fab.collBuf.length

/-! ### Starting (R423, R427) -/

/-- Whether a descriptor holds a reserved value or a nonzero reserved field (DESIGN CHOICE log 50). -/
def collBad (c : Coll) : Bool :=
  let hm := decide (c.op = 4)
  !decide (1 ≤ c.op ∧ c.op ≤ 4) ||
    !(if hm then decide (c.dtype = 6) else [4, 5, 6, 0xC].contains c.dtype) ||
    !(if c.op = 3 ∨ c.op = 4 then decide (c.redop = 0) else decide (c.redop ≤ 2)) ||
    (hm && !decide (1 ≤ c.count ∧ c.count ≤ 128)) ||
    (if hm then decide (0 < c.p ∧ c.p ≤ c.root) else decide (c.root ≠ 0)) ||
    decide (field c.desc 0x0E 1 / 2 ≠ 0 ∨ field c.desc 0x0F 1 ≠ 0 ∨ field c.desc 0x29 1 ≠ 0 ∨ field c.desc 0x2C 20 ≠ 0) ||
    !replyOk c.reply

/-- The bytes at SRC and at DST that a collective of P members uses. -/
def Coll.srcBytes (c : Coll) : Nat :=
  if c.op = 4 then (c.count + 2) * 4 else if c.op = 2 then c.p * c.count * c.esz else c.count * c.esz
def Coll.dstBytes (c : Coll) : Nat :=
  if c.op = 4 then (if c.index ≠ c.root then 0 else if c.norm then (c.count + 1) * 4 else (c.count + 2) * 4)
  else if c.op = 3 then c.p * c.count * c.esz else c.count * c.esz

/-- The first status of R427 that applies before a collective starts. -/
def State.collFault (s : State) (c : Coll) (member : Bool) : Option (Nat × Nat) :=
  if collBad c then some (3, 0x0002)
  else if !s.posterReaches c.sender c.src c.srcBytes || !s.posterReaches c.sender c.dst c.dstBytes then some (3, 0x0008)
  else if !member || (s.fab.colls.any fun y => y.d = c.d && y.group = c.group && y.collId = c.collId) then some (3, 0x0081)
  else if (s.collMembers c.group).any fun m => s.fab.down.contains m.module then some (5, 0x0050)
  else none

/-- A collective started (R424, R425). -/
def State.runColl (s : State) (c : Coll) : State :=
  let c := if c.op = 4 then { c with part := recordPartial c.count (s.seen c.src c.srcBytes) } else c
  let s := s.onFab fun x => { x with colls := x.colls ++ [c] }
  let s :=
    if c.op = 4 then (if c.children.isEmpty then s.mergeDone c else s)
    else if c.op = 3 then s.startGather c (s.collInput c c.index)
    else if c.p = 1 then s.endReduce c ((s.collInput c 0).map (widen c.dtype))
    else s.sendChunk c
  s.drainColl c.d s.fab.collBuf.length

/-- The notice of a slot of a die's collective engine taken, when its descriptor's OP is `op`; a reserved OP counts as ALLREDUCE's. At most 16
collectives run at once (DESIGN CHOICE log 50). -/
def State.startColl (s : State) (d slot op : Nat) : State :=
  match s.noticeAt d 4 slot with
  | none => s
  | some x =>
    if s.power.mode = .safe ∨ 16 ≤ (s.fab.colls.filter fun y => y.d = d).length then s
    else if !s.posterReaches x.sender x.pointer 64 then (s.emptySlot d 4 slot).mapErr (.coll d) false x.pointer
    else s.withMem (.coll d) [(x.pointer, 64, true)] fun s =>
      let desc := s.seen x.pointer 64
      let o := field desc 0 1
      if ¬(o = op ∨ (op = 1 ∧ ¬(1 ≤ o ∧ o ≤ 4))) then s
      else
        let g := field desc 3 1
        let c : Coll := {
          d := d
          slot := slot
          pointer := x.pointer
          tag := x.tag
          sender := x.sender
          desc := desc
          p := (s.collMembers g).length
          index := (s.memberIndex d g).getD 0
          phase := 0
          step := 0
          chunks := []
          got := []
          part := Partial.empty 0
          kids := [] }
        match s.collFault c (s.memberIndex d g).isSome with
        | some (st, reason) => (s.emptySlot d 4 slot).reportColl c st reason
        | none =>
          s.withMem (.coll d) [(c.src, c.srcBytes, false), (c.dst, c.dstBytes, true)] fun s => (s.emptySlot d 4 slot).runColl c
end Sys2Proof.Machine
end

