-- ==== Sys2Proof/Machine/LaneOps.lean ====
section
/-! DEFINITION. Training, swaps and replay (R366 to R379). -/

set_option Elab.async false

namespace Sys2Proof.Machine

open Sys2Proof

/-! ### Replay (R368) -/

/-- Every outstanding flit sent again, with the latest ACK. -/
def State.resendFlits (s : State) (p : Nat) : State :=
  let x := s.fport p
  x.flits.foldl (fun s fl => s.send (.flit p (flitBytes fl x.ack false))) s

/-- A replay, counted; after eight without progress the port retrains instead. -/
def State.replayPort (s : State) (p : Nat) : State :=
  let x := s.fport p
  if x.flits.isEmpty then s
  else if 8 ≤ x.resends then s.retrainPort p
  else ((s.onFPort p fun x => { x with resends := x.resends + 1 }).oeCount (p / 3) OE_REPLAY.REPLAYS).resendFlits p

/-- A NAK with the last in-order ACK, in a null flit: one until the flit after ACK arrives (DESIGN CHOICE log 48). -/
def State.sendNak (s : State) (p : Nat) : State :=
  if 2048 ≤ (s.fport p).flits.length then s else (s.sendFlit p false [] true).onFPort p fun x => { x with naked := true }

/-- What a received ACK frees; with NAK the sender resends from the flit after it (DESIGN CHOICE log 48). -/
def State.takeAck (s : State) (p ack : Nat) (nak : Bool) : State :=
  let fl := (s.fport p).flits
  let s := match fl.findIdx? fun f => f.seq = ack with
    | some i => s.onFPort p fun x => { x with flits := fl.drop (i + 1), resends := 0 }
    | none => s
  if nak then s.replayPort p else s

/-- Whether a HOLD of a peer bars NAKs of a port (R378). -/
def State.nakHeld (s : State) (p : Nat) : Bool := !(s.engine (p / 3)).held.isEmpty

/-! ### Training (R370, R371) -/

/-- The units that this module grants a port's sender, by 3 × class + channel (R412). -/
def grantUnits (p : Nat) : List Nat :=
  let n := fun (u : Nat) => [u, u, if globalPort p then 0 else u]
  n 3072 ++ n 3072 ++ n 1536 ++ [256, 0, 0]

/-- A port comes up (R370, R412, R422): flits start at 0, the buffers are granted, a peer's down mark is cleared and UP sent. -/
def State.portUp (s : State) (p : Nat) : State :=
  let s := s.onFPort p fun x => { x with
    phase := .up
    swap := none
    txNext := 0
    rxNext := 0
    flits := []
    naked := false
    resends := 0
    rxBytes := []
    credits := [] }
  let peer := (s.fport p).peer
  let s := s.queueFrame p (s.linkFrame p 0x31 (padTo 64 0 ((grantUnits p).flatMap (leBytes 2)))) 0 none
  let s :=
    if s.fab.down.contains peer then
      let s := s.onFab fun x => { x with down := x.down.filter (· ≠ peer) }
      s.queueFrame p (s.linkFrame p 0x33 (padTo 64 0 (leBytes 2 peer))) 0 none
    else s
  s.pumpAll

/-- Step 5 of R370: with this end satisfied, 16 TS2 in a row on every lane and one AM deskew, the port is up. -/
def State.tryUp (s : State) (p : Nat) : State :=
  let x := s.fport p
  let lanes := (s.portLanes p).map fun en => s.lane en.1 en.2
  let am := (lanes.head?.bind (·.am))
  if p < 48 ∧ x.phase = .training ∧ x.rate = true ∧ x.eq = true ∧ am.isSome = true ∧
      (lanes.all fun l => decide (16 ≤ l.ts2 ∧ l.am = am)) = true then s.portUp p
  else s

/-- TS2 on every lane once both ends are satisfied. -/
def State.sendTs2 (s : State) (p : Nat) : State :=
  s.sendBlocks p fun e n => s.tsBlock 4 e n ((s.logicalOf e n).getD n) (s.modeOf p) 0 0

/-- What this end answers to a TS1 of a lane (R370): before the rate change a countdown once every lane's peer is known; after it the
receiver's next equalisation request, whose value the spec leaves to the lane, and TS2 once both ends are satisfied. -/
def State.answerTs1 (s : State) (p e n : Nat) : State :=
  let lanes := (s.portLanes p).map fun en => s.lane en.1 en.2
  if (s.fport p).rate then
    let f := s.fresh
    let req := if (s.fport p).eq then 0 else f.1 % 256
    let s := (f.2.onFPort p fun x => { x with eq := x.eq || decide (req = 0) }).sendTs1 p e n req 0xFFFF
    if (s.fport p).eq && lanes.all (·.eqOk) then s.sendTs2 p else s
  else
    let f := s.fresh
    f.2.sendTs1 p e n 0 (if lanes.all (·.ts1) then f.1 % 0xFFFF else 0xFFFF)

/-! ### Failed lanes (R372 to R377) -/

/-- A physical lane declared failed. -/
def State.failLane (s : State) (e n : Nat) : State :=
  s.onLane e n fun l => { freshLane with failed := true, fails := l.fails + 1 }

/-- The number of a host lane within its port. -/
def hostLane (e logical : Nat) : Nat := e % 2 * 8 + (logical - 24)

/-- The widest PCIe link whose lanes, from lane 0 on, have not failed (R376, DEDUCED log 40). -/
def State.hostWidth (s : State) (hp : Nat) : Nat :=
  let good := fun (i : Nat) => let e := 2 * hp + i / 8; !(s.lane e (s.physOf e (24 + i % 8))).failed
  let w := (s.port hp).width
  (([16, 8, 4, 2, 1].filter fun k => decide (k ≤ w) && (List.range k).all good).head?).getD 0

/-- A failed logical lane for which no spare is free (R376): a fabric port narrows to the half that holds no failed lane and retrains, or
goes down; a PCIe link narrows. -/
def State.narrowPort (s : State) (p e logical : Nat) : State :=
  if p < 48 then
    let good := fun (h : Nat) => (List.range 4).all fun i => !(s.lane e (s.physOf e (portBase p + 4 * h + i))).failed
    let halves := match (s.fport p).half with | some h => [h] | none => [0, 1]
    match halves.find? good with
    | some h => ((s.onFPort p fun x => { x with half := some h }).raise (e / 2) 0x4901 (.oe (e % 2)) 0 logical).retrainPort p
    | none => (s.raise (e / 2) 0x4902 (.oe (e % 2)) 0 logical).linkLost p .down
  else
    let hp := p - 48
    let w := s.hostWidth hp
    let s := s.raise (e / 2) 0x0901 (.oe (e % 2)) 0 logical
    s.onPort hp fun x => if w = 0 then { x with proto := 0 } else { x with width := w }

/-- The first logical lane of a group whose physical lane has failed, as (engine, logical, physical). -/
def State.brokenLane (s : State) (p : Nat) : Option (Nat × Nat × Nat) :=
  ((s.portLanes p).find? fun en => (s.lane en.1 en.2).failed).bind fun en => (s.logicalOf en.1 en.2).map fun i => (en.1, i, en.2)

/-- A swap begun (R373 step 1): SWAP_REQ on every healthy lane of the group (DESIGN CHOICE log 47). -/
def State.requestSwap (s : State) (p e logical old spare reason : Nat) : State :=
  let s := (s.nextEpoch p).onFPort p fun x => { x with swap := some ⟨logical, old, spare, reason⟩ }
  let s := s.raise (e / 2) 0x0901 (.oe (e % 2)) 0 logical
  let b := ctlBlock 5 (leBytes 1 logical ++ leBytes 1 spare ++ leBytes 1 (s.fport p).epoch ++ leBytes 1 reason)
  (s.portLanes p).foldl (fun s en => if en.1 = e ∧ (s.lane en.1 en.2).failed = false then s.send (.block en.1 en.2 b) else s) s

/-- Whether a calibration of this engine stands at a lane that fails: the lane then returns to its own physical lane, with reason 0x02. -/
def Engine.returns (x : Engine) (logical phys : Nat) : Option Nat :=
  match x.cal with
  | some c => if c.logical = logical ∧ c.spare = phys then some c.own else none
  | none => none

/-- The swaps that a group's failed lanes ask for, one at a time (R373, R376, R379). -/
def State.repairPort (s : State) (p : Nat) : State :=
  let x := s.fport p
  if x.swap.isSome ∨ ¬(x.phase = .up ∨ x.phase = .keepAlive) then s
  else
    match s.brokenLane p with
    | none => s
    | some (e, i, n) =>
      match (s.engine e).returns i n with
      | some own => (s.onEngine e fun x => { x with cal := none }).requestSwap p e i n own 2
      | none =>
        match (s.freeSpares e).head? with
        | some t => s.requestSwap p e i n t 1
        | none => s.narrowPort p e i

/-- What ends a swap of either end: the map, the count, and on a host lane the Receiver Error (R373, R380). -/
def State.swapped (s : State) (p e logical spare : Nat) : State :=
  let s := (s.mapLane e logical spare).oeCount e OE_SWAP_COUNT.FAULT
  if p < 48 then s else s.send (.aer (p - 48))

end Sys2Proof.Machine
end

