-- ==== Sys2Proof/Machine/CaravanOps.lean ====
section
/-! DEFINITION. Frames as they arrive: checks, delivery and forwarding (R407 to R418, R422, R453). -/

set_option Elab.async false

namespace Sys2Proof.Machine

open Sys2Proof

/-- The class and virtual channel whose receive buffer a frame occupied on a port (R412, R418); CREDIT frames occupy none. -/
def arrivedOn (p : Nat) (f : List Byte) : Option (Nat × Nat × Nat) :=
  if 48 ≤ p ∨ frType f = 0x31 then none
  else some (p, frClass f, if frClass f = 3 then 0 else bits (frHops f) 5 4 - (if globalPort p then 1 else 0))

/-- The frame types (R409). -/
def frameTypes : List Nat := [0x01, 0x02, 0x03, 0x11, 0x12, 0x13, 0x21, 0x31, 0x32, 0x33]

/-- Whether an agent of a die receives a type of frame (R407). Responses go to whichever agent asked. -/
def agentTakes (d a ty : Nat) : Bool :=
  if ty = 0x01 ∨ ty = 0x02 then decide (a = 0x50)
  else if ty = 0x03 then decide (0x40 ≤ a ∧ a ≤ 0x43 ∨ a = 0x60 ∨ (a = 0xF0 ∧ d = 0))
  else if ty = 0x21 then decide (a = 0x60)
  else if 0x31 ≤ ty then decide (a = 0xFF)
  else decide (a < 0x40 ∨ 0x44 ≤ a ∧ a ≤ 0x4C ∨ a = 0x60 ∨ (a = 0xF0 ∧ d = 0))

/-- A request answered (R409, R411). -/
def State.respond (s : State) (f : List Byte) (status : Nat) : State :=
  s.sendFrame (mkResponse (rspType (frType f)) (frSrc f) (frDst f) (frTag f) status (frAddr f) [])

/-- A Caravan request wakes a module in Dormant (R496). -/
def State.heldWork (s : State) : State :=
  if s.power.mode = .enteringDormant ∨ s.power.mode = .dormant then s.onPower fun p => { p with heldWork := true } else s

/-! ### Requests (R411, R417, R453) -/

/-- The bytes into which a peer writes a firmware image in recovery (R453). -/
def recoveryBase : Nat := 0x100000000000
def inRecoveryArea (a n : Nat) : Bool := decide (recoveryBase ≤ a ∧ a + n ≤ recoveryBase + 0x800000)

/-- A READ or WRITE delivered to a die's memory agent. An address that is not aligned is answered with RANGE (DESIGN CHOICE log 32). -/
def State.recvMemory (s : State) (f : List Byte) : State :=
  let d := carDie (frDst f)
  let ag := Agent.peer (frSrc f) d (frTag f)
  let a := frAddr f
  if a % 64 ≠ 0 then s.respond f 3
  else if frType f = 1 then s.access ⟨ag, .phys a, .read (64 * (bits (frOpt f) 4 0 + 1)) 0⟩
  else if s.boot.recovery && inRecoveryArea a (frPayload f).length then (s.writeBytes a (frPayload f)).respond f 0
  else s.access ⟨ag, .phys a, .write (frPayload f) false⟩

/-- A notice's slot: a mailbox block's, the collective engine's, or the loader's (R407). -/
def noticeSlot (d a slot : Nat) : Nat × Nat × Nat :=
  if a = 0xF0 then (8, 0, slot) else if a = 0x60 then (d, 4, slot) else (d, a - 0x40, slot)

/-- A NOTICE delivered (R293, R453): posted and answered OK, BUSY or RANGE. In recovery the notice that names the image waits for
RECOVERY_IMAGE. -/
def State.recvNotice (s : State) (f : List Byte) : State :=
  let pointer := field (frPayload f) 0 8
  let tag := field (frPayload f) 8 4
  let (d, k, n) := noticeSlot (carDie (frDst f)) (carAgent (frDst f)) (frOpt f)
  if s.boot.recovery ∧ d = 8 ∧ n = 0 ∧ pointer = recoveryBase ∧ tag ≤ 0x800000 then
    s.onBoot fun b => { b with recoveryPost := some f, staged := some (s.seen pointer tag) }
  else
    match s.post (senderPeer (frSrc f)) d k n pointer tag with
    | (s, .ok) => s.respond f 0
    | (s, .full) => s.respond f 2
    | (s, .denied) => s.respond f 3

/-- A request delivered: REFUSED in Safe (R466), RANGE from a partition outside the module's mask (R417). -/
def State.recvRequest (s : State) (f : List Byte) : State :=
  let d := carDie (frDst f)
  if s.power.mode = .safe then s.respond f 5
  else if !s.partitionOk (frSrc f) then (s.countFld d 0 0 CF_DENIED.PARTITION 1).respond f 3
  else
    let s := s.heldWork
    if frType f = 3 then s.recvNotice f else s.recvMemory f

/-! ### Responses (R293, R416) -/

/-- The end of a request of this module: the response of a notice ends the notice, or has its sender post it again; that of another request
waits for its requester. -/
def State.endRequest (s : State) (q : CReq) (status : Nat) (data : List Byte) : State :=
  if q.owner.1 = 9 then
    let s := s.onFab fun x => { x with reqs := x.reqs.filter fun y => y.tag ≠ q.tag }
    if status = 0 ∨ s.power.mode = .safe then s
    else
      let dest := Dest.caravan (carModule q.dst) (carDie q.dst) (carAgent q.dst) q.addr
      { s with kept := s.kept ++ [⟨q.owner.2.1, dest, q.owner.2.2.1, q.owner.2.2.2⟩] }
  else s.onFab fun x => { x with reqs := x.reqs.map fun y => if y.tag = q.tag then { y with result := some (status, data) } else y }

/-- A response delivered; one that answers no open request is dropped (DESIGN CHOICE log 49). -/
def State.recvResponse (s : State) (f : List Byte) : State :=
  match s.fab.reqs.find? fun q => q.result.isNone && decide (q.tag = frTag f ∧ q.dst = frSrc f ∧ rspType q.kind = frType f) with
  | some q => s.endRequest q (frStatus f) (frPayload f)
  | none => s

/-! ### Link agents (R412, R422) -/

/-- CREDIT: units returned for each class and channel of a port. -/
def State.recvCredit (s : State) (p : Nat) (f : List Byte) : State :=
  let add := fun (m : NMap Nat) (i : Nat) => mput m i (mget 0 m i + field (frPayload f) (2 * i) 2)
  (s.onFPort p fun x => { x with credits := (List.range 12).foldl add x.credits }).pumpAll

/-- DOWN or UP sent once on each of the module's local ports (R422). -/
def State.spread (s : State) (ty m : Nat) : State :=
  ((List.range 48).foldl (fun s p =>
    if !globalPort p ∧ s.portCarries p then s.queueFrame p (s.linkFrame p ty (padTo 64 0 (leBytes 2 m))) 0 none else s) s).pumpAll

/-- Frames that wait at ports to a module are routed anew. -/
def State.rerouteFrom (s : State) (m : Nat) : State :=
  (List.range 48).foldl (fun s p =>
    let x := s.fport p
    if x.peer = m ∧ !x.out.isEmpty then
      x.out.foldl (fun s o => if frClass o.bytes = 3 then s.freeBuffer o.from_ (frUnits o.bytes) else s.forward o.bytes o.from_)
        (s.onFPort p fun x => { x with out := [] })
    else s) s

/-- What a module marked down ends: collectives with it as a member (R427), and a far tier in it (R428). -/
def State.moduleLost (s : State) (m : Nat) : State :=
  let s := (s.fab.colls.filter fun c => (s.collMembers c.group).any fun x => x.module = m).foldl (fun s c => s.endColl c 5 0x0050) s
  match s.far with
  | some (.peer n, _) => if n = m then s.farUnreachable else s
  | _ => s

/-- DOWN (R422) (DESIGN CHOICE log 49). -/
def State.recvDown (s : State) (p : Nat) (f : List Byte) : State :=
  let m := field (frPayload f) 0 2
  if bits (frHops f) 3 0 ≠ 1 ∨ m = s.moduleNo ∨ s.fab.down.contains m = true then s
  else
    let s := s.onFab fun x => { x with down := x.down ++ [m] }
    let s := if p < 48 ∧ globalPort p then s.spread 0x32 m else s
    (s.rerouteFrom m).moduleLost m

/-- UP (R422). -/
def State.recvUp (s : State) (p : Nat) (f : List Byte) : State :=
  let m := field (frPayload f) 0 2
  if bits (frHops f) 3 0 ≠ 1 ∨ s.fab.down.contains m = false then s
  else
    let s := s.onFab fun x => { x with down := x.down.filter (· ≠ m) }
    if p < 48 ∧ globalPort p then s.spread 0x33 m else s.pumpAll

/-! ### Delivery -/

/-- A frame delivered to an agent of a die, and its receive buffer freed (DESIGN CHOICE log 49). -/
def State.deliver (s : State) (p : Nat) (f : List Byte) (from_ : Option (Nat × Nat × Nat)) : State :=
  let d := carDie (frDst f)
  let ty := frType f
  let free := fun (s : State) => s.freeBuffer from_ (frUnits f)
  if frEcrc f ≠ field f 0x1C 4 then
    free ((s.countFld d 0 0 CF_ERR.ECRC 1).raise d 0x4A02 (.fport (p % 6)) 0 (if p < 48 then (s.fport p).peer else s.moduleNo))
  else if !agentTakes d (carAgent (frDst f)) ty then free (s.countFld d 0 0 CF_DENIED.DISCARD 1)
  else if frClass f = 0 then free (s.recvRequest f)
  else if s.power.mode = .safe ∧ ty ≠ 0x31 then free s
  else if ty = 0x21 then s.recvColl d f from_
  else if ty = 0x31 then s.recvCredit p f
  else if ty = 0x32 then free (s.recvDown p f)
  else if ty = 0x33 then free (s.recvUp p f)
  else free (s.recvResponse f)

/-- The die of a port, at which a frame that goes no further is counted. -/
def portDie (p : Nat) : Nat := if p < 48 then p / 6 else 0

/-- A frame received on a port (R409, R414, R415, R418): discarded and counted, delivered, or forwarded (DESIGN CHOICE log 49). -/
def State.recvFrame (s : State) (p : Nat) (f : List Byte) (from_ : Option (Nat × Nat × Nat)) : State :=
  let hops := bits (frHops f) 3 0
  let drop := fun (r : RF) => (s.countFld (portDie p) 0 0 r 1).freeBuffer from_ (frUnits f)
  if !frameTypes.contains (frType f) ∨ frClass f ≠ classOf (frType f) ∨ 6 < hops then drop CF_DENIED.DISCARD
  else if p < 48 ∧ hops = 1 ∧ carModule (frSrc f) ≠ (s.fport p).peer then drop CF_DENIED.SOURCE
  else if carModule (frDst f) = s.moduleNo then s.deliver p f from_
  else if s.power.mode = .safe then
    (if frClass f = 0 then (s.respond f 5).freeBuffer from_ (frUnits f) else s.freeBuffer from_ (frUnits f))
  else s.forward f from_

/-- The oldest frame of the loopback, delivered (DESIGN CHOICE log 21). -/
def State.loopStep (s : State) : State :=
  match (s.fport loopPort).out with
  | [] => s
  | o :: os => (s.onFPort loopPort fun x => { x with out := os }).deliver loopPort o.bytes o.from_

/-! ### Flits (R366 to R368, R410) -/

/-- The frames that a stream of payload bytes completes, and the bytes of one that has begun: a PAD byte where a frame would start ends the
flit's frames. -/
def parseFrames : Nat → List Byte → List (List Byte) × List Byte
  | 0, bs => ([], bs)
  | n + 1, bs =>
    if bs.isEmpty ∨ frType bs = 0 then ([], [])
    else if bs.length < 32 ∨ bs.length < frBytes bs then ([], bs)
    else
      let r := parseFrames n (bs.drop (frBytes bs))
      (bs.take (frBytes bs) :: r.1, r.2)

/-- A flit received: what cannot be accepted draws one NAK; an accepted one frees what it acknowledges, and its frames are delivered. While a
swap of the port runs nothing is accepted (R372) (DESIGN CHOICE log 48). -/
def State.takeFlit (s : State) (p : Nat) (b : List Byte) : State :=
  let x := s.fport p
  if x.swap.isSome then s
  else if crc32c (b.take 252) ≠ field b 252 4 ∨ bits (field b 240 2) 11 0 ≠ x.rxNext then
    (if x.naked || s.nakHeld p then s else s.sendNak p)
  else
    let s := s.onFPort p fun x => { x with rxNext := (x.rxNext + 1) % 4096, naked := false }
    let w := field b 242 2
    let s := if bit w 12 then s.takeAck p (bits w 11 0) (bit w 13) else s
    if bits (field b 240 2) 15 12 ≠ 0 then s.pump p ((s.fport p).out.length + 1)
    else
      let r := parseFrames 8 (x.rxBytes ++ b.take 240)
      let before := (s.fport p).txNext
      let s := s.onFPort p fun x => { x with rxBytes := r.2 }
      let s := (r.1.foldl (fun s f => s.recvFrame p f (arrivedOn p f)) s).pump p ((s.fport p).out.length + 1)
      if (s.fport p).txNext = before ∧ (s.fport p).flits.length < 2048 ∧ s.portCarries p = true then s.sendFlit p false [] false else s

end Sys2Proof.Machine
end

