-- ==== Sys2Proof/Machine/Clock.lean ====
section
/-! DEFINITION. What happens with time alone: the die time counts and the loopback of frames (R289, R407, DESIGN CHOICE log 21). -/

set_option Elab.async false

namespace Sys2Proof.Machine

open Sys2Proof

/-- Every die's count one tick of 10 ns on, while the module has auxiliary power and is out of Standby (DESIGN CHOICE log 21). -/
def State.countTime (s : State) : State :=
  if s.power.mode = .off ∨ s.power.mode = .standby then s
  else { s with dieTime := (List.range 8).foldl (fun m d => mput m d ((mget 0 m d + 1) % 2 ^ 64)) s.dieTime }

/-- One tick (DESIGN CHOICE log 1; DESIGN CHOICE log 21). -/
def State.tick (s : State) : State := s.countTime.loopStep

end Sys2Proof.Machine
end

