-- ==== Sys2Proof/Machine/Dma.lean ====
section
/-! DEFINITION. The commands of the DMA engines: accepting, running and completing transfers (chapter 10). -/

set_option Elab.async false

namespace Sys2Proof.Machine

open Sys2Proof Host Enc7

/-- The transfers of an engine. -/
def Core.engine (k : Core) (de1 : Bool) : List Xfer := if de1 then k.de1 else k.de0

/-- The state with a transfer of an engine replaced by its image. -/
def State.onXfer (s : State) (d c : Nat) (de1 : Bool) (id : Nat) (f : Xfer → Xfer) : State :=
  s.onCore d c fun k =>
    let g := fun (x : Xfer) => if x.id = id then f x else x
    if de1 then { k with de1 := k.de1.map g } else { k with de0 := k.de0.map g }

/-- A transfer that ends without further effect (DESIGN CHOICE log 38). -/
def State.xferEnds (s : State) (d c : Nat) (de1 : Bool) (id status reason : Nat) : State :=
  s.onXfer d c de1 id fun x => { x with ran := true, status := status, reason := reason }

/-- XFER (R197, R273): the descriptor is accepted by an engine with a free place, with the tensor descriptors as they stand, and its checks of
R262 are made; a descriptor outside the scratchpad or windows is SFE_ADDR. -/
def execXfer (d c : Nat) (s : State) : Outcome State Fault Refusal :=
  .next (
    let k := s.core d c
    let w := k.next false
    let de1 := xferEngine w
    s.when (k.issues false opXFER && decide (k.engineItems de1 < 16) && (!de1 || s.de1Present d c)) fun s =>
      let a := plusOff (k.preg k.sa.replay (xferPreg w)) (xferOffset w)
      if !(decide (a % 64 = 0) && inSpm d c a 64 && k.windowed a 64) then s.streamFault d c 6 false 0 0 k.sa.pc k.sa.replay
      else
        let desc := s.readBytes a 64
        let entry := fun (at_ : Nat) => mget [] k.desc (field desc at_ 1)
        let x : Xfer := { walkXfer k.xferNext 0 k.sa.pc k.sa.replay with
          desc := desc
          src := entry 2
          dst := entry 3
          idx := entry 4
          walk := none
          fence := xferFence w
          tok := emits w
          nextAt := field desc 0x28 8
          count := if field desc 0 1 = 5 then 0xFFFFFFFF else 0 }
        let bad := x.check d c
        let x := { x with ran := bad.isSome, status := if bad.isSome then 3 else 0, reason := bad.getD 0 }
        s.onCore d c fun k =>
          let k := { k.issued false with xferNext := k.xferNext + 1 }
          if de1 then { k with de1 := k.de1 ++ [x] } else { k with de0 := k.de0 ++ [x] })

/-- Whether neither a barrier nor a fence stands between item `n` of an engine and earlier work (R50, R273, R283). -/
def Core.unfenced (k : Core) (de1 : Bool) (n : Nat) : Bool :=
  ((k.engine de1).take n).all (·.marker.isNone) &&
    !(((k.engine de1).take (n + 1)).zipIdx.any fun y => y.1.fence && decide (0 < y.2))

/-- Item `n` of an engine when it is a transfer of the given type that may run. -/
def Core.runnable (k : Core) (de1 : Bool) (n type : Nat) : Option Xfer :=
  match (k.engine de1)[n]? with
  | some x => if x.walk.isNone && x.marker.isNone && !x.ran && decide (x.type = type) && k.unfenced de1 n then some x else none
  | none => none

/-! ### Peers and the far tier -/

/-- The identity of a transfer's requests for a line: reads of the source (0) or of the destination (1), and writes (2). -/
def dmaOwner (d c : Nat) (de1 : Bool) (id kind line : Nat) : Nat × Nat × Nat × Nat := (10 + kind, (d * 64 + c) * 2 + flag de1, id, line)

/-- Whether an owner is a transfer's. -/
def dmaOwns (d c : Nat) (de1 : Bool) (id : Nat) (o : Nat × Nat × Nat × Nat) : Bool :=
  decide (10 ≤ o.1 ∧ o.1 ≤ 12 ∧ o.2.1 = (d * 64 + c) * 2 + flag de1 ∧ o.2.2.1 = id)

/-- The Caravan address of a peer's memory, by the die that owns the line. -/
def peerMem (m line : Nat) : Nat :=
  carAddr m (placedStack (if line < 0x030000000000 then spreadToPlaced line else line) / 4 % 8) 0x50

/-- READs of lines of a peer, for those not yet requested. -/
def State.askPeer (s : State) (d c : Nat) (de1 : Bool) (id kind m : Nat) : List Nat → State
  | [] => s
  | l :: ls =>
    let o := dmaOwner d c de1 id kind l
    let s := if (s.reqsOf (· == o)).isEmpty then s.requestRead d c (peerMem m l) l 64 o else s
    s.askPeer d c de1 id kind m ls

/-- The responses to a transfer's requests: none while one is missing, otherwise the first status other than OK. -/
def State.peerStatus (s : State) (d c : Nat) (de1 : Bool) (id : Nat) : Option Nat :=
  let rs := s.reqsOf (dmaOwns d c de1 id)
  if rs.any (·.result.isNone) then none
  else some ((rs.findSome? fun r => match r.result with | some (st, _) => if st = 0 then none else some st | none => none).getD 0)

/-- The first status other than OK of a transfer's READs of destination lines, 0 for none. -/
def State.targetStatus (s : State) (d c : Nat) (de1 : Bool) (id : Nat) : Nat :=
  ((s.reqsOf fun o => dmaOwns d c de1 id o && decide (o.1 = 11)).findSome? fun r => match r.result with
    | some (st, _) => if st = 0 then none else some st
    | none => none).getD 0

/-- The response to a transfer's READ of the line that holds an address. -/
def State.peerLine (s : State) (d c : Nat) (de1 : Bool) (id kind a : Nat) : Option (Nat × List Byte) :=
  ((s.reqsOf (· == dmaOwner d c de1 id kind (alignDown a 64))).head?).bind (·.result)

/-- A byte of a peer's line that a READ returned. -/
def State.peerByte (s : State) (d c : Nat) (de1 : Bool) (id kind a : Nat) : Byte :=
  match s.peerLine d c de1 id kind a with
  | some (_, data) => (data[a % 64]?).getD 0
  | none => 0

/-- The status and reason of a transfer that its peer's response ends (R272, R416). -/
def peerEnd (st : Nat) : Nat × Nat := if st = 4 then (4, 0x0020) else if st = 5 then (5, 0x0050) else (st, 0)

/-- Where a transfer reads source pieces from the module's own memory: far-tier sources from the task's stream buffer (R350); none while the
buffer does not hold them. -/
def State.srcLocal (s : State) (task : Nat) (x : Xfer) (ps : List (Nat × Nat)) : Option (List (Nat × Nat)) :=
  if tSpace x.src = 1 then ps.mapM fun p => (s.streamAddr task p.1).map fun a => (a, p.2) else some ps

/-! ### Running -/

/-- Moves made locally: `src` gives each one's bytes in the state that the moves before it leave. -/
def State.applyMoves (s : State) (src : State → Move → List Byte) : List Move → State
  | [] => s
  | m :: ms => (s.writeBytes m.dst.1 (src s m)).applyMoves src ms

/-- The byte that a list of written ranges leaves at an address, the last one winning. -/
def writtenAt (ws : List (Nat × List Byte)) (a : Nat) : Option Byte :=
  ws.foldl (fun (acc : Option Byte) w => if w.1 ≤ a ∧ a < w.1 + w.2.length then w.2[a - w.1]? else acc) none

/-- WRITEs of a peer's lines. -/
def State.writePeer (s : State) (d c : Nat) (de1 : Bool) (id m : Nat) (ws : List (Nat × List Byte)) : List Nat → State
  | [] => s
  | l :: ls =>
    let data := (List.range 64).map fun i => (writtenAt ws (l + i)).getD (s.peerByte d c de1 id 1 (l + i))
    (s.requestWrite d c (peerMem m l) l data (dmaOwner d c de1 id 2 l)).writePeer d c de1 id m ws ls

/-- Whether reconstructed data serves a read of the line at a placed address (R60, R92): its bank is served by reconstruction, or its die is
being rebuilt and its row is not yet. -/
def State.reconLine (s : State) (p : Nat) : Bool :=
  let st := s.stack (placedStack p)
  st.recon.contains (placedDie p, placedBank p) ||
    (decide (st.retired = some (placedDie p)) && !st.spared (placedDie p) (placedBank p) &&
      (match st.rebuild with | some pos => decide (pos ≤ rowPos p) | none => false))

/-- Whether reconstructed data serves a read of pieces. -/
def State.reconRead (s : State) (ps : List (Nat × Nat)) : Bool := ps.any fun p => (s.memLines p.1 p.2).any s.reconLine

/-- How the read of a move's source ends: with the status other than OK that a peer gave for its line, or POISON for a poisoned line. -/
def State.moveStatus (s : State) (d c : Nat) (de1 : Bool) (x : Xfer) (m : Move) : Nat :=
  match m.src with
  | none => 0
  | some p =>
    if tSpace x.src = 2 then (match s.peerLine d c de1 x.id 0 p.1 with | some (st, _) => st | none => 0)
    else if ((s.srcLocal (s.core d c).taskNo x [p]).getD []).any fun q => s.anyPoison q.1 q.2 then 4
    else 0

/-- The bytes of a move: zeros, a peer's line, or memory as it was before a same-layout copy and as it is during any other transfer
(R268). -/
def State.moveBytes (s0 : State) (d c : Nat) (de1 : Bool) (x : Xfer) (s : State) (m : Move) : List Byte :=
  match m.src with
  | none => List.replicate m.dst.2 0
  | some p =>
    if tSpace x.src = 2 then (List.range p.2).map fun i => s0.peerByte d c de1 x.id 0 (p.1 + i)
    else ((s0.srcLocal (s0.core d c).taskNo x [p]).getD []).flatMap fun q => (if x.sameLayout then s0 else s).readBytes q.1 q.2

/-- The address of the poisoned line at which a transfer stops: the source of the move that stops it, or the index after those served. -/
def State.poisonAt (s : State) (x : Xfer) (task : Nat) (m : Option Move) : Nat :=
  match m.bind (·.src) with
  | some p => (((s.srcLocal task x [p]).getD []).headD p).1
  | none => tBase x.idx + 4 * (s.gatherServed x).length

/-- A transfer's moves made (R266 to R269, R272): up to the first whose source is poisoned or refused, which ends it with the writes made so
far. A poisoned index ends a GATHER after the indices before it. -/
def State.runMoves (s : State) (d c : Nat) (de1 : Bool) (x : Xfer) (flags count : Nat) : State :=
  let all := s.moves x
  let bad := all.findIdx? fun m => decide (s.moveStatus d c de1 x m ≠ 0)
  let ms := match bad with | some i => all.take i | none => all
  let stop := bad.bind fun i => all[i]?
  let st := match stop with
    | some m => s.moveStatus d c de1 x m
    | none => match s.gatherStop x with
      | some j => if decide (x.type = 3) && s.indexPoisoned x j then 4 else 0
      | none => 0
  let peer := decide (tSpace x.dst = 2)
  let t := if peer then
      s.writePeer d c de1 x.id (tPeer x.dst) (ms.map fun m => (m.dst.1, s.moveBytes d c de1 x s m)) (linesOf (ms.map (·.dst)))
    else s.applyMoves (fun t m => s.moveBytes d c de1 x t m) ms
  let t := t.onXfer d c de1 x.id fun y => { y with
    ran := !peer
    status := (peerEnd st).1
    reason := (peerEnd st).2
    flags := flags
    bytes := piecesLen (ms.map (·.dst))
    count := count
    next := 1 }
  if st = 4 then t.poisonRead d c (s.poisonAt x (s.core d c).taskNo stop) else t

/-- Whether any stack on the way of local pieces is stopped: then the engine receives a bus error (R445). -/
def State.stoppedPieces (s : State) (ps : List (Nat × Nat)) : Bool :=
  ps.any fun p => (s.memLines p.1 p.2).any fun q => (s.stack (placedStack q)).stopped

/-- The requests that a transfer's pieces need: the peer's source lines, far-tier parts of a stream buffer, and the destination lines of a
peer that are written in part. -/
def State.xferAsk (s : State) (d c : Nat) (de1 : Bool) (x : Xfer) (srcPs dstPs : List (Nat × Nat)) : State :=
  let s := if tSpace x.src = 2 then s.askPeer d c de1 x.id 0 (tPeer x.src) (linesOf srcPs) else s
  let s := if tSpace x.src = 1 then s.streamRead (s.core d c).taskNo srcPs else s
  if tSpace x.dst = 2 then s.askPeer d c de1 x.id 1 (tPeer x.dst) (partLines dstPs) else s

/-- DE_GATHER_RANGE (R269): the engine writes nothing further, and the task is aborted. -/
def State.gatherFault (s : State) (d c : Nat) (de1 : Bool) : State :=
  (s.coreFault d c 0x4501 0).onCore d c fun k => if de1 then { k with de1 := [] } else { k with de0 := [] }

/-- The moves of a transfer whose pieces are all ready: of a GATHER up to where it stops. -/
def State.xferMove (s : State) (d c : Nat) (de1 : Bool) (x : Xfer) (src dst idx : List (Nat × Nat)) : State :=
  let out := if x.type = 3 then s.gatherOut x else 0
  let recon := 16 * flag (s.reconRead (src ++ idx))
  let strict := decide (x.type = 3) && (match s.gatherStop x with | some j => !s.indexPoisoned x j | none => false)
  let s := ((s.enqueue (.engine d c (4 + flag de1)) false idx).enqueue (.engine d c (4 + flag de1)) false src).enqueue
    (.engine d c (4 + flag de1)) true dst
  let s := s.runMoves d c de1 x (flag (decide (out ≠ 0)) + recon) out
  let s := if tSpace x.dst = 2 then s else s.dropReqs (dmaOwns d c de1 x.id)
  if strict && (s.core d c).faulted.isNone then s.gatherFault d c de1 else s

/-- The end of a transfer whose writes to a peer have been acknowledged, with the first status other than OK. -/
def State.xferAcked (s : State) (d c : Nat) (de1 : Bool) (x : Xfer) : State :=
  match s.peerStatus d c de1 x.id with
  | none => s
  | some st =>
    let s := s.dropReqs (dmaOwns d c de1 x.id)
    if x.status ≠ 0 ∨ st = 0 then s.onXfer d c de1 x.id fun x => { x with ran := true }
    else s.xferEnds d c de1 x.id (peerEnd st).1 (peerEnd st).2

/-- A COPY, PERMUTE or GATHER: requests to peers first, then the moves once everything that they touch is ready, then the peer's
acknowledgements. A source in a far tier that is unreachable ends it with REFUSED (R272) (DESIGN CHOICE log 38). -/
def State.runXfer (s : State) (d c : Nat) (de1 : Bool) (n type : Nat) : State :=
  match (s.core d c).runnable de1 n type with
  | none => s
  | some x =>
    if x.next = 1 then s.xferAcked d c de1 x
    else
      let idxPs := if type = 3 then [(tBase x.idx, 4 * x.gathered)] else []
      if !s.walkReady d c idxPs false then s.walkAsk d c idxPs false
      else
        let srcPs := s.fetches x
        let dstPs := (s.moves x).map (·.dst)
        let localDst := if tSpace x.dst = 2 then [] else dstPs
        let s := s.xferAsk d c de1 x srcPs dstPs
        match (if tSpace x.src = 2 then some [] else s.srcLocal (s.core d c).taskNo x srcPs) with
        | none => if s.kv.unreachable then (s.dropReqs (dmaOwns d c de1 x.id)).xferEnds d c de1 x.id 5 0x0050 else s
        | some localSrc =>
          match s.peerStatus d c de1 x.id, s.targetStatus d c de1 x.id with
          | none, _ => s
          | some _, st + 1 => (s.dropReqs (dmaOwns d c de1 x.id)).xferEnds d c de1 x.id (peerEnd (st + 1)).1 (peerEnd (st + 1)).2
          | some _, 0 =>
            if s.stoppedPieces (localSrc ++ localDst ++ idxPs) then
              let f := s.fresh
              f.2.xferEnds d c de1 x.id 3 (f.1 % 2 ^ 16)
            else if !s.walkReady d c localSrc false || !s.walkReady d c localDst true then
              (s.walkAsk d c localSrc false).walkAsk d c localDst true
            else s.xferMove d c de1 x localSrc localDst idxPs

/-- DMA_COPY (R266 to R268): item `n` of an engine. -/
def execDmaCopy (d c : Nat) (de1 : Bool) (n : Nat) (s : State) : Outcome State Fault Refusal := .next (s.runXfer d c de1 n 1)

/-- PERMUTE (R266). -/
def execPermute (d c : Nat) (de1 : Bool) (n : Nat) (s : State) : Outcome State Fault Refusal := .next (s.runXfer d c de1 n 2)

/-- GATHER (R266, R269). -/
def execGather (d c : Nat) (de1 : Bool) (n : Nat) (s : State) : Outcome State Fault Refusal := .next (s.runXfer d c de1 n 3)

/-- DMA_FILL (R266): every destination byte takes the pattern byte of its offset, modulo 8, from the slice's first byte. -/
def execDmaFill (d c : Nat) (de1 : Bool) (n : Nat) (s : State) : Outcome State Fault Refusal :=
  .next (match (s.core d c).runnable de1 n 4 with
    | none => s
    | some x =>
      let dst := x.dstSlice.flatten
      let first := (dst.headD (0, 0)).1
      let pat := (x.desc.drop 0x28).take 8
      let byte := fun (a : Nat) => (pat[((a : Int) - first).emod 8 |>.toNat]?).getD 0
      if x.next = 1 then s.xferAcked d c de1 x
      else if tSpace x.dst = 2 then
        let s := s.askPeer d c de1 x.id 1 (tPeer x.dst) (partLines dst)
        match s.peerStatus d c de1 x.id with
        | none => s
        | some 0 =>
          let ws := dst.map fun p => (p.1, (List.range p.2).map fun i => byte (p.1 + i))
          (s.writePeer d c de1 x.id (tPeer x.dst) ws (linesOf dst)).onXfer d c de1 x.id fun x =>
            { x with next := 1, bytes := piecesLen dst }
        | some st => (s.dropReqs (dmaOwns d c de1 x.id)).xferEnds d c de1 x.id (peerEnd st).1 (peerEnd st).2
      else if s.stoppedPieces dst then
        let f := s.fresh
        f.2.xferEnds d c de1 x.id 3 (f.1 % 2 ^ 16)
      else if !s.walkReady d c dst true then s.walkAsk d c dst true
      else
        let s := s.enqueue (.engine d c (4 + flag de1)) true dst
        let s := s.putPieces dst (dst.flatMap fun p => (List.range p.2).map fun i => byte (p.1 + i))
        s.onXfer d c de1 x.id fun x => { x with ran := true, bytes := piecesLen dst })

/-! ### Bank sequences (R152, R270) -/

/-- The bytes of the inline blocks that follow a descriptor. -/
def inlineLen (d : Desc) : Nat := if d.inline then 256 * (d.blocks.foldl max 0 + 1) else 0

/-- Whether every row, operand block and result line that a descriptor of transfer `id` names lies in the core's windows. -/
def State.seqWindows (s : State) (d c : Nat) (src : Agent) (id : Nat) (q : Desc) : Bool :=
  let k := s.core d c
  let prev := if q.cont then s.contBau src (some id) q else none
  (q.rows.all fun r => k.windowed (q.rowAddr r) 1024) &&
    ((q.spans (match prev with | some b => b.high | none => 0) (match prev with | some b => b.olen | none => 0)).all fun p =>
      k.windowed p.1 p.2)

/-- A BSEQ transfer that forwards nothing more: a chain of its that still keeps a bank ends. -/
def State.bseqEnds (s : State) (d c : Nat) (de1 : Bool) (x : Xfer) (f : Xfer → Xfer) : State :=
  (s.endChains fun b => b.chainOf (.engine d c (4 + flag de1)) (some x.id)).onXfer d c de1 x.id fun x => { f x with ran := true }

/-- BSEQ (R131, R152, R270): the engine forwards the transfer's next descriptor, or ends with RANGE, reason 0x0008, at one that leaves the
scratchpad or names anything outside the windows; after the last descriptor, and after a sequence that did not end OK, the transfer has run.
A descriptor that the next one continues on the same bank keeps its bank and token (DESIGN CHOICE log 38). -/
def execBseq (d c : Nat) (de1 : Bool) (n : Nat) (s : State) : Outcome State Fault Refusal :=
  .next (match (s.core d c).runnable de1 n 5 with
    | none => s
    | some x =>
      if x.seq.isSome then s
      else if x.nouter ≤ x.next ∨ x.status ≠ 0 then s.bseqEnds d c de1 x id
      else
        let src := Agent.engine d c (4 + flag de1)
        let q : Desc := ⟨s.readBytes x.nextAt 64⟩
        let len := inlineLen q
        if !inSpm d c x.nextAt (64 + len) || !s.seqWindows d c src x.id q then
          s.bseqEnds d c de1 x fun x => { x with status := 3, reason := 0x0008, count := x.next }
        else
          let follow : Desc := ⟨s.readBytes (x.nextAt + 64 + len) 64⟩
          let keep := decide (x.next + 1 < x.nouter) && follow.cont && decide (follow.bank = q.bank)
          let id := s.seqNext
          (s.acceptSeq src q.bytes (s.readBytes (x.nextAt + 64) len) none (some x.id) keep).onXfer d c de1 x.id fun x =>
            { x with next := x.next + 1, nextAt := x.nextAt + 64 + len, seq := some id })

/-- A bank sequence of a core's transfer has completed (R270): the record keeps the first status other than OK. -/
def State.bseqDone (s : State) (d c u : Nat) (j : SeqJob) : State :=
  s.onCore d c fun k =>
    let g := fun (x : Xfer) =>
      if x.seq = some j.id then
        { x with
          seq := none
          status := if x.status = 0 then j.status else x.status
          reason := if x.status = 0 then j.reason else x.reason
          count := if x.status = 0 ∧ j.status ≠ 0 then x.next - 1 else x.count
          flags := x.flags ||| (j.flags &&& 16)
          bytes := x.bytes + if j.writesResult then (resultLines j.stream).length else 0 }
      else x
    if u = 5 then { k with de1 := k.de1.map g } else { k with de0 := k.de0.map g }

/-! ### Completion -/

/-- The completion record of R272. -/
def Xfer.record (x : Xfer) : List Byte :=
  leBytes 2 x.tag ++ leBytes 1 x.status ++ leBytes 1 x.flags ++ leBytes 2 x.reason ++ leBytes 2 0 ++ leBytes 4 (satTo 0xFFFFFFFF x.bytes) ++
    leBytes 4 x.count ++ List.replicate 48 0

/-- TRANSFER_COMPLETE (R272): a transfer that has run completes: its record is written, then its word signalled, its token is due, and a
status other than OK is kept in DE_ERRORn (DESIGN CHOICE log 38). -/
def execTransferComplete (d c : Nat) (de1 : Bool) (n : Nat) (s : State) : Outcome State Fault Refusal :=
  .next (match ((s.core d c).engine de1)[n]? with
    | none => s
    | some x =>
      s.when (x.ran && x.walk.isNone && x.marker.isNone && x.seq.isNone && (s.core d c).unfenced de1 n) fun s =>
        let e := flag de1
        let s := s.onCore d c fun k =>
          let k := if de1 then { k with de1 := k.de1.filter (·.id ≠ x.id) } else { k with de0 := k.de0.filter (·.id ≠ x.id) }
          match x.tok with
          | some t => { k with credits := k.credits ++ [(⟨t, x.replay, false, x.index⟩ : Credit)] }
          | none => k
        let s := s.countFld d c e DE_BYTES.BYTES (x.bytes / 64)
        let s := if x.status = 0 ∨ s.fld d c e DE_ERROR.VALID = 1 then s
          else (s.setReg d .DE_ERROR c e (BitVec.ofNat 32 (2 ^ 31 + x.status * 2 ^ 24 + x.reason))).setReg
            d .DE_ERROR_TAG c e (BitVec.ofNat 32 x.tag)
        let s := if x.records && x.cmplOk d c then s.writeBytes x.cmpl x.record else s
        let s := if x.signals && x.cmplOk d c then s.signalWord d c (x.cmpl - spmBase d c) else s
        if (s.core d c).faulted.isSome then s else s.settle d c)

end Sys2Proof.Machine
end

