-- ==== Sys2Proof/Machine/FarTier.lean ====
section
/-! DEFINITION. The commands of the far-tier engines: spills, prefetches, and reachability (R62, R320 to R322). -/

set_option Elab.async false

namespace Sys2Proof.Machine

open Sys2Proof Host

/-- Whether a die's engine is due to spill (R320): from below the watermark up to 256 above it, and while an allocation waits (R312) (DESIGN
CHOICE log 43). -/
def State.spillDue (s : State) (d : Nat) : Bool :=
  let low := s.fld d 0 0 KVM_POOL_LOW.LOW
  decide (s.poolFree d < low) || (s.kv.spilling.contains d && decide (s.poolFree d < low + 256)) || s.kv.hungry.contains d

/-- The frame that a die's engine spills next: the oldest LASTUSE, then the lowest number. -/
def State.spillNext (s : State) (d : Nat) : Option Nat :=
  (s.kv.used.filter fun f => s.frameDie f = d && s.spillable f).foldl (fun (b : Option Nat) f => match b with
    | some g => if s.fd g 0x18 4 ≤ s.fd f 0x18 4 then some g else some f
    | none => some f) none

/-- Whether any line of a frame's slot is poisoned. -/
def State.slotPoisoned (s : State) (f : Nat) : Bool := s.anyPoison (s.frameAddr f) (s.slotLen f)

/-- SPILL_START (R320, R62): frame and entry are marked in one operation, the entry is invalidated in every look-aside buffer, and the slot's
writes to the far tier go out. -/
def execSpillStart (d : Nat) (s : State) : Outcome State Fault Refusal :=
  .next (s.when (decide (d < 8 ∧ s.power.mode ≠ .safe) && s.tierOpen d && s.spillDue d) fun s =>
    match s.spillNext d, s.farSlot d with
    | some f, some slot =>
      let a := s.frameAddr f
      let len := s.slotLen f
      let pg : PageId := ⟨s.fd f 0x0C 2, s.fd f 2 2, s.fd f 0x0E 2 % 4096⟩
      s.withMem (.kvm d) [(a, len, false)] fun s =>
        let data := s.readBytes a len
        let s := if s.poolFree d < s.fld d 0 0 KVM_POOL_LOW.LOW then s.onKv fun x => { x with spilling := insertNat d x.spilling } else s
        let s := ((s.setFd f 0 1 3).setEntry pg wordSpilling 0 0).labInvalidate pg
        let id := s.kv.farNext
        let n := match s.modelOf pg.seq with | some m => (s.seqRow m pg.seq).pageAt pg.index | none => pg.index
        let t := s.addJob d true pg n f slot (crc32c data)
        if s.slotPoisoned f then t else t.farWrite d id (s.farSlotAddr slot) data
    | _, _ => s)

/-- A die's transfers of one direction, oldest first. -/
def State.farJobs (s : State) (d : Nat) (spill : Bool) : List FarJob := s.kv.farJobs.filter fun j => j.d = d && j.spill == spill

/-- Whether a spill of a die has waited longer than 1 ms and is served next (R321). -/
def State.spillOld (s : State) (d : Nat) : Bool := (s.farJobs d true).any fun j => decide (j.time + 100000 < s.time d)

/-- The die's wish for spills after a frame has become FREE. -/
def State.spillSated (s : State) (d : Nat) : State :=
  s.onKv fun x => { x with
    hungry := x.hungry.filter (· ≠ d)
    spilling := if s.poolFree d < s.fld d 0 0 KVM_POOL_LOW.LOW + 256 then x.spilling else x.spilling.filter (· ≠ d) }

/-- SPILL_COMPLETE (R320, R428): spill `n` of a die. Poison read from its slot abandons it with NOSPILL set; otherwise, with every write
acknowledged, the entry is spilled and the frame FREE, and a response other than OK makes the tier unreachable. Prefetches come first until
it is 1 ms old (DESIGN CHOICE log 43). -/
def execSpillComplete (d n : Nat) (s : State) : Outcome State Fault Refusal :=
  .next (match (s.farJobs d true)[n]? with
    | none => s
    | some j =>
      if s.slotPoisoned j.frame then
        let s := s.abandonJob j
        if s.fdState j.frame = 2 then s.setFd j.frame 1 1 1 else s
      else if !(s.farJobs d false).isEmpty && !s.spillOld d then s
      else
        match s.farResult j.id with
        | none => s
        | some (0, _) =>
          let s := ((s.endJob j).setEntry j.page wordSpilled j.slot j.crc).reclaim j.frame
          ((s.countFld d 0 0 KVM_FAR_COUNT.SPILLED 1).spillSated d).afterJob j.page
        | some _ => s.farUnreachable)

/-- PREFETCH_START (R321): the prefetch of a page for which a row, a lookahead or a request waits begins, once a frame is free. -/
def execPrefetchStart (model seq plane page : Nat) (s : State) : Outcome State Fault Refusal :=
  .next (s.whenP (s.power.mode ≠ .safe) fun s => match s.pageIn model seq plane page with
    | some (_, _, pg) => if s.kv.wanted.contains pg then (s.askPage pg).getD s else s
    | none => s)

/-- PREFETCH_COMPLETE (R321, R322, R428): prefetch `n` of a die, with the data that a host's memory returned. A peer's response other than
OK makes the tier unreachable; data whose CRC differs poisons the page; otherwise the frame is written and, once its writes are accepted,
the page is present (DESIGN CHOICE log 43). -/
def execPrefetchComplete (d n : Nat) (data : List Byte) (s : State) : Outcome State Fault Refusal :=
  .next (match (s.farJobs d false)[n]? with
    | none => s
    | some j =>
      if s.spillOld d then s
      else
        match s.farResult j.id with
        | none => s
        | some (_ + 1, _) => s.farUnreachable
        | some (0, peer) =>
          let bytes := match s.farPort with | some _ => data | none => peer
          let a := s.frameAddr j.frame
          if bytes.length ≠ s.slotLen j.frame then s
          else if crc32c bytes ≠ s.entryCrc j.page then
            let s := (((s.endJob j).setEntry j.page wordPoisoned 0 0).reclaim j.frame).freeSlot j.slot
            ((s.countFld d 0 0 KVM_CRC_ERR.COUNT 1).raise d 0x4801 .die 0 0).afterJob j.page
          else s.withMem (.kvm d) [(a, bytes.length, true)] fun s =>
            let s := ((s.endJob j).writeBytes a bytes).setFd j.frame 0 1 2
            let s := (s.setEntry j.page (wordPresent j.frame) 0 0).freeSlot j.slot
            (s.countFld d 0 0 KVM_FAR_COUNT.FETCHED 1).afterJob j.page)

/-- FAR_TIER_UNREACHABLE (R322): a completion or a timeout of R396 or R416 that makes the tier unreachable. -/
def execFarTierUnreachable (s : State) : Outcome State Fault Refusal := .next s.farUnreachable

/-- The owner of a probe's READ. -/
def probeOwner : Nat × Nat × Nat × Nat := (15, 0, 0, 0)

/-- FAR_TIER_PROBE (R322): 100 ms after the cause has ended or the last probe, the probe goes out; when it succeeds the tier is reachable. The
outcome of a host's probe is `ok`; a peer's is the response to its READ. -/
def execFarTierProbe (ok : Bool) (s : State) : Outcome State Fault Refusal :=
  .next (s.when (s.kv.unreachable && s.causeEnded) fun s =>
    let open_ := fun (s : State) => s.onKv fun x => { x with unreachable := false }
    match s.far with
    | some (.host p, b, _) => let s := s.send (.hostRead p b 4); if ok then open_ s else s
    | some (.peer m, b, _) =>
      (match (s.reqsOf (· == probeOwner)).head? with
       | none => s.requestRead 0 0x4C (carAddr m 0 0x50) b 64 probeOwner
       | some q => match q.result with
         | none => s
         | some (st, _) => let s := s.dropReqs (· == probeOwner); if st = 0 then open_ s else s)
    | none => s)

end Sys2Proof.Machine
end

