-- ==== Sys2Proof/Machine/Rotary.lean ====
section
/-! DEFINITION. Rotary angles, their cosines and sines, and the preparation of queries (R139, R328, R329). -/

set_option Elab.async false

namespace Sys2Proof

/-- 2π in units of 2^−640. -/
def twoPiWide : Nat :=
  28666659853523134911551461403598599662252263045802836659421747388496407511715807789956919957897674076674368940721578204610504546180385418061528496856585552960464204952655104371159003977752734552

/-- Σ ± r^n / n! over every second n, in units of 2^−160: `k` terms from term `t` of number `n`. -/
def altTaylor (r : Nat) : Nat → Nat → Nat → Int
  | 0, _, _ => 0
  | k + 1, n, t => (t : Int) - altTaylor r k (n + 2) (t * r / 2 ^ 160 * r / 2 ^ 160 / ((n + 1) * (n + 2)))

/-- The cosine and sine of an angle below one turn, in units of 2^−160. -/
def cosFix (a : Nat) : Int := altTaylor a 40 0 (2 ^ 160)
def sinFix (a : Nat) : Int := altTaylor a 40 1 a

/-- base^(−2j/D) for a positive base, in units of 2^−640. -/
def ropeFactor (base j dim : Nat) : Nat :=
  match f32 base with
  | .fin _ m e =>
    let x : Int := -(2 * (j : Int) * lnFix 640 m e / (dim : Int))
    let k := x / (ln2Wide : Int)
    let v := expTaylor 640 (x - k * (ln2Wide : Int)).toNat 140 0 (2 ^ 640)
    if 0 ≤ k then v * 2 ^ k.toNat else v / 2 ^ (-k).toNat
  | _ => 0

/-- The angle position × scale × base^(−2j/D) in units of 2^−640, and whether it is negative; the scale is the FP32 word of ROPE_SCALE, or that
of 1 (DESIGN CHOICE log 11). -/
def ropeAngle (pos scale base j dim : Nat) : Nat × Bool :=
  match f32 scale with
  | .fin neg m e =>
    let v := pos * m * ropeFactor base j dim
    (if 0 ≤ e then v * 2 ^ e.toNat else v / 2 ^ (-e).toNat, neg)
  | _ => (0, false)

/-- The FP32 cosine and sine of a rotary angle, within 2 units in the last place (R328): the angle less whole turns, which lies below 2^300
for every position, scale and base, so that its error stays below 2^−300 (DESIGN CHOICE log 11). -/
def ropeCosSin (pos scale base j dim : Nat) : Nat × Nat :=
  let a := ropeAngle pos scale base j dim
  let key := (((pos * 2 ^ 32 + scale) * 2 ^ 32 + base) * 256 + j) * 256 + dim
  let r := a.1 % twoPiWide / 2 ^ 480
  let c := cosFix r
  let s := if a.2 then -sinFix r else sinFix r
  (freeUlp 100 2 key (decide (c < 0)) c.natAbs (2 ^ 160), freeUlp 101 2 key (decide (s < 0)) s.natAbs (2 ^ 160))

/-- FP32 words rotated at a position, pair (j, j + D/2) by its angle (R139). -/
def rotateAt (pos scale base : Nat) (ws : List Nat) : List Nat :=
  let h := ws.length / 2
  let at_ := fun (j : Nat) => ws[j]?.getD 0
  let cs := (List.range h).map fun j => ropeCosSin pos scale base j ws.length
  let c := fun (j : Nat) => (cs[j]?.getD (0, 0)).1
  let s := fun (j : Nat) => (cs[j]?.getD (0, 0)).2
  ((List.range h).map fun j => f32Sub (f32Mul (at_ j) (c j)) (f32Mul (at_ (j + h)) (s j))) ++
    (List.range h).map fun j => f32Add (f32Mul (at_ (j + h)) (c j)) (f32Mul (at_ j) (s j))

/-- The FP32 words of a vector of `n` elements of QFMT: 4 BF16, otherwise FP32. -/
def queryWords (fmt n : Nat) (bs : List Byte) : List Nat :=
  (List.range n).map fun i => if fmt = 4 then field bs (2 * i) 2 * 2 ^ 16 else field bs (4 * i) 4

/-- A row of lists cut into blocks of `b`. -/
def blocksOf {α : Type} (b : Nat) : Nat → List α → List (List α)
  | 0, _ => []
  | n + 1, l => if l.isEmpty then [] else l.take b :: blocksOf b n (l.drop b)

/-- The latch block that holds FP32 words in an encoding: elements from byte 0, scale bytes from byte 128 (R136, R110 to R112). -/
def latchOf (c : Enc) (ws : List Nat) : List Byte :=
  if c.blocked then
    let bs := (blocksOf c.block ws.length ws).map fun b => convertBlock c (b.map f32)
    padTo 256 0 (padTo 128 0 (c.pack (bs.flatMap (·.codes))) ++ bs.flatMap fun b => leBytes 1 b.scale)
  else padTo 256 0 (ws.flatMap fun w => leBytes 2 ((if c = .fp16 then fp16 else bf16).encode (f32 w)))

/-- A rotation-table entry: 64 cosines, then 64 sines, 0 for every j ≥ D/2 (R139, R329). -/
def rotaryEntry (pos scale base dim : Nat) : List Byte :=
  let cs := (List.range 64).map fun j => if j < dim / 2 then ropeCosSin pos scale base j dim else (0, 0)
  (cs.flatMap fun c => leBytes 4 c.1) ++ cs.flatMap fun c => leBytes 4 c.2

end Sys2Proof
end

