-- ==== Sys2Proof/Machine/StepOps.lean ====
section
/-! DEFINITION. Attention steps: headers and rows, their checks, and what each row does (R323 to R332). -/

set_option Elab.async false

namespace Sys2Proof.Machine

open Sys2Proof

/-! ### Headers and rows (R323, R324) -/

namespace Step

def kind (x : Step) : Nat := field x.header 0 1
def flags (x : Step) : Nat := field x.header 1 1
def layer (x : Step) : Nat := field x.header 2 2
def nrows (x : Step) : Nat := field x.header 4 2
def qfmt (x : Step) : Nat := field x.header 6 1
def ofmt (x : Step) : Nat := field x.header 7 1
def rowsAddr (x : Step) : Nat := field x.header 8 8
def outAddr (x : Step) : Nat := field x.header 0x10 8
def reply (x : Step) : Nat := field x.header 0x18 8
def peer (x : Step) : Bool := bit (field x.header 0x26 2) 15
def peerModule (x : Step) : Nat := field x.header 0x26 2 % 2 ^ 14

/-- Whether a step appends, and whether it attends. -/
def appends (x : Step) : Bool := x.kind ≠ 2
def attends (x : Step) : Bool := x.kind ≠ 3

/-- The reserved and misaligned values of precedence 1 of R325. -/
def headerBad (x : Step) (layers : Nat) : Bool :=
  !(decide (1 ≤ x.kind ∧ x.kind ≤ 3 ∧ x.flags < 4 ∧ x.layer < layers ∧ 1 ≤ x.nrows ∧ x.nrows ≤ 4096)) ||
    !(decide (x.qfmt = 4 ∨ x.qfmt = 6)) || !(decide (4 ≤ x.ofmt ∧ x.ofmt ≤ 6)) || decide (x.rowsAddr % 64 ≠ 0 ∨ x.outAddr % 64 ≠ 0) ||
    !replyOk x.reply || bit (field x.header 0x26 2) 14 || (x.peer && decide (senderKind x.sender ≠ 9)) ||
    decide (field x.header 0x21 1 ≠ 0 ∨ field x.header 0x28 24 ≠ 0)

end Step

namespace StepRow

def seq (r : StepRow) : Nat := field r.bytes 0 2
def qseg (r : StepRow) : Nat := field r.bytes 2 1
/-- The address of a row's query vectors, which lie at a 64-byte pitch (DESIGN CHOICE log 42). -/
def qAddr (r : StepRow) : Nat := field r.bytes 8 8
def kvAddr (r : StepRow) : Nat := field r.bytes 0x10 8

end StepRow

/-- The pitch of query vectors, of key and value rows, and of output records. -/
def queryPitch (x : Step) (m : KvModel) : Nat := alignUp (m.dim * (if x.qfmt = 4 then 2 else 4)) 64
def kvPitch (m : KvModel) : Nat := alignUp (Enc7.rowBytes m.enc m.dim) 64
def outPitch (x : Step) (m : KvModel) : Nat :=
  if bit x.flags 1 then alignUp ((2 + m.dim) * 4) 64 else alignUp (m.dim * (if x.ofmt = 6 then 4 else 2) + 4) 64

/-- A step of a cluster by its place among those accepted, and the state with a step or one of its rows replaced. -/
def State.stepAt (s : State) (d k n : Nat) : Option Step := (s.liveSteps.filter fun x => x.d = d && x.k = k)[n]?
def State.onStep (s : State) (id : Nat) (f : Step → Step) : State :=
  s.onKv fun x => { x with steps := x.steps.map fun y => if y.id = id then f y else y }
def State.onRow (s : State) (id i : Nat) (f : StepRow → StepRow) : State := s.onStep id fun x => { x with rows := modAt f x.rows i }
def State.rowAt (s : State) (id i : Nat) : Option StepRow := (s.kv.steps.find? fun x => x.id = id).bind fun x => x.rows[i]?

/-- A failure of R325 noted in a row: the lowest precedence stays (DESIGN CHOICE log 42). -/
def StepRow.fail (r : StepRow) (prec status reason : Nat) : StepRow :=
  if prec < r.prec then { r with prec := prec, status := status, reason := reason } else r

/-- Whether an earlier step of the same sequence and layer, whose completion notice has not been sent, holds a step back (R40). -/
def State.stepHeld (s : State) (x : Step) : Bool :=
  s.liveSteps.any fun y => decide (y.d = x.d ∧ y.k = x.k ∧ y.id < x.id ∧ y.layer = x.layer) && y.failed.isNone &&
    x.rows.any fun r => y.rows.any fun q => r.seq = q.seq

/-- The planes of a step's layer, by group. -/
def layerPlanes (x : Step) (m : KvModel) : List Nat := (List.range m.ngroups).map fun g => x.layer * m.ngroups + g

/-! ### Checks (R325) -/

/-- Precedence 5 of R325: an append that R39 and R319 refuse. -/
def Step.lengthFail (x : Step) (r : SeqRow) : Option (Nat × Nat × Nat) :=
  if x.appends && decide (1048576 < r.length + 1) then some (5, 5, 0x0061)
  else if x.appends && !r.windowed && decide (r.pagesMax ≤ r.length / 256) then some (5, 5, 0x0062)
  else none

/-- Precedence 2 to 5 of R325 for row `i` (DESIGN CHOICE log 42). -/
def State.rowCheck (s : State) (x : Step) (i : Nat) (w : StepRow) : Option (Nat × Nat × Nat) :=
  let m := s.model x.model
  let r := s.seqRow m w.seq
  let q := queryPitch x m * m.heads
  let v := kvPitch m * (m.ngroups * m.h * 2)
  let o := outPitch x m * m.heads
  if !m.holds w.seq || decide (r.home % 32 ≠ x.d * 4 + x.k) || (x.rows.take i).any fun y => y.seq = w.seq then some (2, 3, 0x0064)
  else if w.qAddr % 64 ≠ 0 ∨ w.kvAddr % 64 ≠ 0 then some (3, 3, 0x0002)
  else if (x.attends && !s.posterReaches x.sender w.qAddr q) || (x.appends && !s.posterReaches x.sender w.kvAddr v) ||
      (x.attends && !x.peer && !s.posterReaches x.sender (x.outAddr + i * o) o) then some (3, 3, 0x0008)
  else if r.state ≠ 2 then some (4, 5, 0x0060)
  else x.lengthFail r

/-- The positions that a row attends to, as one past QPOS and LOPOS, for a length after its append (R318, R326). -/
def lowPos (r : SeqRow) (length : Nat) : Nat := if r.windowed then length - r.window else 0

/-- The pages that hold a position from LOPOS to QPOS. -/
def readPages (r : SeqRow) (length : Nat) : List Nat :=
  let lo := lowPos r length
  if length ≤ lo then [] else (List.range ((length - 1) / 256 + 1 - lo / 256)).map (lo / 256 + ·)

/-- Whether a stack cannot take bank sequences now (R332): its bank arithmetic is under test or due for one (DESIGN CHOICE log 42). -/
def State.needsCore (s : State) (stk : Nat) : Bool := s.mgmt.tests.any fun t => decide (t.unit = ⟨3, stk⟩) && !t.memory

/-- Whether core mode is needed for a page of a row and no core is reserved (R325, precedence 8). -/
def State.coreLacking (s : State) (x : Step) (m : KvModel) (r : SeqRow) (seq length : Nat) : Bool :=
  decide (s.fld x.d x.k 0 ASEQ_CORES.MASK = 0) &&
    (layerPlanes x m).any fun p => (readPages r length).any fun n =>
      let w := s.entryWord ⟨seq, p, r.indexOf n⟩
      enPresent w && s.needsCore (s.frameStack (enFrame w))

/-! ### Step 3: the page of the new token -/

/-- What stands in the way of a page: failures of R325, and pages whose transfers it waits for. -/
structure Blocked where
  fails : List (Nat × Nat × Nat)
  waits : List PageId
  held : Bool
  deriving DecidableEq, Repr

/-- A page that a row needs, for writing when `write`: what blocks it, with its prefetch begun where it is spilled. -/
def State.needPage (s : State) (d k : Nat) (write : Bool) (b : Blocked) (pg : PageId) : State × Blocked :=
  let (w, s) := s.walk d k pg
  if w = 0 then (s, { b with fails := b.fails ++ [(7, 5, 0x0066)] })
  else if enPoison w then (s, { b with fails := b.fails ++ [(if write then 9 else 10, 4, 0x0020)] })
  else if enPresent w then (s, b)
  else if w = wordSpilled then
    (if s.kv.unreachable then (s, { b with fails := b.fails ++ [(7, 5, 0x0050)] })
     else match s.askPage pg with
       | some t => if t.entryWord pg = wordSpilled then (t, { b with held := true }) else (t, { b with waits := b.waits ++ [pg] })
       | none => (s, { b with fails := b.fails ++ [(6, 5, 0x0063)] }))
  else (s, { b with waits := b.waits ++ [pg] })

/-- The pages that a row needs. -/
def State.needPages (s : State) (d k : Nat) (write : Bool) (pgs : List PageId) : State × Blocked :=
  pgs.foldl (fun a pg => a.1.needPage d k write a.2 pg) (s, ⟨[], [], false⟩)

/-- Shared pages copied before a write (R317), or the first plane without a frame. -/
def State.copyShared (s : State) (m : KvModel) (r : SeqRow) (n : Nat) : List PageId → Except Nat State
  | [] => .ok s
  | pg :: pgs =>
    if 1 < s.refs (enFrame (s.entryWord pg)) then
      (match s.copyOnWrite m r.start n pg with
       | some s => s.copyShared m r n pgs
       | none => .error pg.plane)
    else s.copyShared m r n pgs

/-- A new page for a page number in planes of the model (R316): present frames, or the first plane without one. -/
def State.allocPages (s : State) (m : KvModel) (r : SeqRow) (seq n : Nat) : List Nat → Except Nat State
  | [] => .ok s
  | p :: ps =>
    let pg : PageId := ⟨seq, p, r.indexOf n⟩
    match s.takeFrame m r.start n 2 pg with
    | none => .error p
    | some (f, s) => (s.setEntry pg (wordPresent f) 0 0).allocPages m r seq n ps

/-- The ring entries of page n − R made ready for page `n` (R318): a frame that is this entry's alone is reused in place, and any other state
receives a new frame; or the first plane without one. -/
def State.ringPages (s : State) (m : KvModel) (r : SeqRow) (seq n : Nat) : List Nat → Except Nat State
  | [] => .ok s
  | p :: ps =>
    let pg : PageId := ⟨seq, p, r.indexOf n⟩
    let w := s.entryWord pg
    let f := enFrame w
    if enPresent w ∧ s.refs f = 1 ∧ s.pinsOf f = 0 then (s.labInvalidate pg).ringPages m r seq n ps
    else
      match (s.dropEntry pg).takeFrame m r.start n 2 pg with
      | none => .error p
      | some (g, s) => (s.setEntry pg (wordPresent g) 0 0).ringPages m r seq n ps

/-- The failure of a row at the lowest precedence among some. -/
def failAll (r : StepRow) (fs : List (Nat × Nat × Nat)) : StepRow := fs.foldl (fun r f => r.fail f.1 f.2.1 f.2.2) r

/-- Frames sought for a row (R312): with all found the row goes on as `f` says; otherwise it waits for a spill, or fails where none can free
one. -/
def State.orStarve (s : State) (x : Step) (i : Nat) (m : KvModel) (got : Except Nat State) (fails : List (Nat × Nat × Nat))
    (f : State → State) : State :=
  match got with
  | .ok t => if fails = [] then f t else s.onRow x.id i fun w => failAll w fails
  | .error p => if s.mayFree m p then s.starve m p else s.onRow x.id i fun w => failAll w ((6, 5, 0x0063) :: fails)

/-- The planes of the model whose page of a new token does not exist yet. -/
def State.newPlanes (s : State) (m : KvModel) (r : SeqRow) (seq n : Nat) : List Nat :=
  (List.range m.planes).filter fun p => s.entryWord ⟨seq, p, r.indexOf n⟩ = 0

/-- Step 3 of R326 up to the page: its failures at precedence 5 to 9, its waits, and the page resolved for the LENGTH that it finds. A page
that the new token opens is asked of KV_ALLOC_PAGE, or taken from the ring. -/
def State.resolvePage (s : State) (x : Step) (i : Nat) (w : StepRow) : State :=
  let m := s.model x.model
  let r := s.seqRow m w.seq
  let n := r.length / 256
  let opens := decide (r.length % 256 = 0)
  let late := if x.attends && s.coreLacking x m r w.seq (r.length + 1) then [(8, 2, 0x0065)] else []
  let pgs := (layerPlanes x m).map fun p => (⟨w.seq, p, r.indexOf n⟩ : PageId)
  let resolved := fun (phase : Nat) (s : State) => s.onRow x.id i fun w => { w with phase := phase, waits := [], length := r.length }
  match x.lengthFail r with
  | some f => s.onRow x.id i fun w => w.fail f.1 f.2.1 f.2.2
  | none =>
    if opens && r.windowed && decide (ringLen r.window ≤ n) then
      let all := (List.range m.planes).map fun p => (⟨w.seq, p, r.indexOf n⟩ : PageId)
      if all.any fun pg => enMoving (s.entryWord pg) then s
      else s.orStarve x i m (s.ringPages m r w.seq n (List.range m.planes)) late (resolved 3)
    else if opens && pgs.any fun pg => s.entryWord pg = 0 then
      s.orStarve x i m (s.allocPages m r w.seq n (s.newPlanes m r w.seq n)) late fun _ => resolved 2 s
    else
      let a := s.needPages x.d x.k true pgs
      let b := a.2
      if b.waits ≠ [] ∨ b.held then a.1.onRow x.id i fun w => { w with waits := b.waits }
      else
        let copied := a.1.copyShared m r n (pgs.filter fun pg => enPresent (a.1.entryWord pg))
        a.1.orStarve x i m copied (b.fails ++ late) (resolved 3)

/-- The rows of a slot that a token's key, or its value, takes for head `h`: (address of its data, of its scale bytes), by token offset `t`
(R304, R134). -/
def slotPlace (m : KvModel) (slot h t : Nat) (value : Bool) : Nat × Nat :=
  let per := 32 / m.kc
  let o := t / per + (if value then 8 * m.kc else 0)
  let j := t % per * m.kc * (rowBlocks m.enc / 32)
  (slot + 1024 * (h * 16 * m.kc + o) + t % per * m.kc * 32,
    slot + 1024 * (m.frameRows + 1 + h * m.scaleRowsPerHead + o / max 1 (scaleRows m.enc)) + o % max 1 (scaleRows m.enc) * rowBlocks m.enc + j)

/-- The bytes that an append writes, as (address, bytes): key, value and scale bytes of each head, and the segment byte of each plane. -/
def State.appendWrites (s : State) (x : Step) (w : StepRow) (m : KvModel) (r : SeqRow) : List (Nat × List Byte) :=
  let t := r.length % 256
  let data := m.enc.bytes m.dim
  let scales := if m.enc.blocked then m.dim / m.enc.block else 0
  (List.range m.ngroups).flatMap fun g =>
    let slot := s.frameAddr (enFrame (s.entryWord ⟨w.seq, x.layer * m.ngroups + g, r.indexOf (r.length / 256)⟩))
    ((List.range m.h).flatMap fun h => [false, true].flatMap fun v =>
      let src := s.seen (w.kvAddr + kvPitch m * (2 * (g * m.h + h) + flag v)) (data + scales)
      let at_ := slotPlace m slot h t v
      [(at_.1, src.take data)] ++ (if scales = 0 then [] else [(at_.2, src.drop data)])) ++
      [(slot + 1024 * m.frameRows + t, leBytes 1 w.qseg)]

/-- Step 3 of R326: the token's bytes written and LENGTH raised by 1. A LENGTH that another layer's step has raised since sends the row back to
its page (R39, R40) (DESIGN CHOICE log 41). -/
def State.appendToken (s : State) (x : Step) (i : Nat) (w : StepRow) : State :=
  let m := s.model x.model
  let r := s.seqRow m w.seq
  let ws := s.appendWrites x w m r
  let v := kvPitch m * (m.ngroups * m.h * 2)
  if r.length ≠ w.length then s.onRow x.id i fun w => { w with phase := 1 }
  else s.withMem (.aseq x.d x.k) ((w.kvAddr, v, false) :: ws.map fun y => (y.1, y.2.length, true)) fun s =>
    let s := ws.foldl (fun s y => s.writeBytes y.1 y.2) s
    (s.setRow r 0 4 (r.length + 1)).onRow x.id i fun w => { w with phase := 4, appended := true, length := r.length + 1 }

/-! ### Step 4: pins -/

/-- A page of a row pinned once, where it is present. -/
def State.pinPage (s : State) (x : Step) (i n : Nat) (r : SeqRow) (pg : PageId) : State :=
  let key : PageId := { pg with index := n }
  match s.rowAt x.id i with
  | none => s
  | some w =>
    let e := s.entryWord { pg with index := r.indexOf n }
    if (w.pins.any fun y => y.1 = key) || !enPresent e then s
    else match s.pin (enFrame e) with
      | some s => s.onRow x.id i fun w => { w with pins := w.pins ++ [(key, enFrame e)] }
      | none => s

/-- Step 4 of R326: every page of the layer that holds a position from LOPOS to QPOS resolved and pinned; the query heads that it needs are
then due. -/
def State.pinPages (s : State) (x : Step) (i : Nat) (w : StepRow) : State :=
  let m := s.model x.model
  let r := s.seqRow m w.seq
  let ns := readPages r w.length
  let todo := (layerPlanes x m).flatMap fun p => ns.map fun n => (p, n)
  let open_ := todo.filter fun y => !(w.pins.any fun z => z.1 = ⟨w.seq, y.1, y.2⟩)
  let a := s.needPages x.d x.k false (open_.map fun y => ⟨w.seq, y.1, r.indexOf y.2⟩)
  let b := a.2
  let fails := b.fails ++ if !x.appends && s.coreLacking x m r w.seq w.length then [(8, 2, 0x0065)] else []
  let s := open_.foldl (fun s y => s.pinPage x i y.2 r ⟨w.seq, y.1, r.indexOf y.2⟩) a.1
  if fails ≠ [] then s.onRow x.id i fun w => failAll w fails
  else
    s.onRow x.id i fun w =>
      if w.pins.length = todo.length then
        { w with
          phase := 5
          waits := []
          todo := (List.range m.heads).flatMap fun q =>
            let g := q / (m.h * m.g)
            ns.filterMap fun n =>
              (w.pins.find? fun z => z.1 = ⟨w.seq, x.layer * m.ngroups + g, n⟩).map fun z => ⟨q, g, q / m.g % m.h, n, z.2⟩ }
      else { w with waits := b.waits }

/-! ### Steps 5 and 6: bank sequences -/

/-- The position of the query, QPOS. -/
def qposOf (w : StepRow) : Nat := w.length - 1

/-- Whether keys are rotated by the bank for a sequence (R329). -/
def rotates (m : KvModel) (r : SeqRow) : Bool := r.fallback && !(f32 m.ropeBase).isZero

/-- A query head prepared (R328, R329). -/
def State.prepared (s : State) (x : Step) (w : StepRow) (m : KvModel) (r : SeqRow) (q : Nat) : List Byte :=
  let a := w.qAddr + queryPitch x m * q
  let ws := (queryWords x.qfmt m.dim (s.seen a (queryPitch x m))).map (f32Mul · m.smscale)
  let ws := if (f32 m.ropeBase).isZero then ws else rotateAt (qposOf w) (if r.fallback then m.ropeScale else one32) m.ropeBase ws
  latchOf m.enc ws

/-- An operation word (R137) over whole rows. -/
def opWord (op : Nat) (x : Bool) (rowFirst rows param : Nat) : Nat :=
  op * 2 ^ 59 + flag x * 2 ^ 58 + rowFirst * 2 ^ 50 + (rows - 1) * 2 ^ 42 + 31 * 2 ^ 32 + param

/-- A signed 16-bit row offset. -/
def rowOff (o : Int) : List Byte := leBytes 2 ((o % 65536).toNat)

/-- The descriptor of R327 for a page and a query head. -/
def State.stepDesc (s : State) (w : StepRow) (m : KvModel) (r : SeqRow) (t : HeadPage) : List Byte :=
  match s.frameBank t.frame with
  | none => []
  | some b =>
    let row := b.row t.frame + t.h * 16 * m.kc
    let kpos := 256 * t.n
    let lo := lowPos r w.length
    let r0 := (lo - kpos) * m.kc / 32
    let r1 := min 255 (qposOf w - kpos) * m.kc / 32
    let sbase := r0 * 32 / m.kc
    let param := (match m.kc with | 1 => 0 | 2 => 1 | _ => 2) + sbase * 256
    leBytes 2 0 ++ leBytes 1 0xB4 ++ leBytes 1 (m.fmt * 17) ++ leBytes 1 (1 + 2 * flag r.packed) ++ leBytes 1 w.qseg ++ leBytes 2 0 ++
      leBytes 4 (b.bank.stk * 2 ^ 27 + b.bank.die * 2 ^ 23 + b.bank.bank * 2 ^ 17 + row) ++
      (if m.enc.blocked then rowOff ((m.frameRows + 1 + t.h * m.scaleRowsPerHead : Nat) - (t.h * 16 * m.kc : Nat)) else leBytes 2 0x8000) ++
      rowOff ((m.frameRows : Int) - (t.h * 16 * m.kc : Nat)) ++
      (if rotates m r then rowOff ((b.band t.frame * 0x8000 : Nat) - (row : Int)) else leBytes 2 0x8000) ++ leBytes 2 0x8000 ++
      leBytes 4 (qposOf w) ++ leBytes 4 kpos ++ leBytes 4 lo ++ leBytes 8 0 ++ leBytes 8 0 ++
      leBytes 8 (opWord 2 (rotates m r) r0 (r1 - r0 + 1) param) ++ leBytes 8 (opWord 5 true (8 * m.kc + r0) (r1 - r0 + 1) param)

/-- The rotation areas that fall-back sequences hold (R329). -/
def State.areas (s : State) : List (BankId × Nat) := s.kv.steps.flatMap fun x => x.rows.flatMap fun w => w.seqs.filterMap (·.area)

/-- The rotation area of a frame's band. -/
def State.areaOf (s : State) (f : Nat) : Option (BankId × Nat) := (s.frameBank f).map fun b => (b.bank, b.band f)

/-- The 128 rows of a rotation area written for a page (R329). -/
def State.writeArea (s : State) (m : KvModel) (area : BankId × Nat) (n : Nat) : State :=
  let a := placedAddr area.1.stk area.1.die area.1.bank (area.2 * 0x8000) 0
  (List.range 256).foldl (fun s i => s.writeBytes (a + 512 * i) (rotaryEntry (256 * n + i) m.ropeScale m.ropeBase m.dim)) s

/-- One bank sequence of a row issued, unless its band's rotation area is held (R327, R329). -/
def State.issueOne (s : State) (x : Step) (i : Nat) (m : KvModel) (r : SeqRow) (t : HeadPage) : State :=
  match s.rowAt x.id i with
  | none => s
  | some w =>
    let area := if rotates m r then s.areaOf t.frame else none
    if (match area with | some a => s.areas.contains a | none => false) then s
    else
      let s := match area with | some a => s.writeArea m a t.n | none => s
      let stk := s.frameStack t.frame
      let id := s.seqNext
      (s.acceptSeq (.aseq (stk / 4) x.k) (s.stepDesc w m r t) (s.prepared x w m r t.head) none none false).onRow x.id i fun w =>
        { w with todo := w.todo.filter (· ≠ t), seqs := w.seqs ++ [(⟨id, t.head, stk, area⟩ : RowSeq)] }

/-- Steps 5 and 6 of R326: pages of stacks that cannot take bank sequences go to core mode, and the others' sequences are issued. -/
def State.issueRow (s : State) (x : Step) (i : Nat) (w : StepRow) : State :=
  let m := s.model x.model
  let r := s.seqRow m w.seq
  let slow := w.todo.filter fun t => s.needsCore (s.frameStack t.frame)
  let lacks := decide (s.fld x.d x.k 0 ASEQ_CORES.MASK = 0)
  if slow ≠ [] ∧ lacks ∧ !w.appended then s.onRow x.id i fun w => w.fail 8 2 0x0065
  else
    let bytes := queryPitch x m * m.heads
    s.withMem (.aseq x.d x.k) [(w.qAddr, bytes, false)] fun s =>
      let s := s.onRow x.id i fun w => { w with
        todo := if lacks then w.todo else w.todo.filter fun t => !slow.contains t
        core := if lacks then w.core else w.core ++ slow }
      (w.todo.filter fun t => !slow.contains t).foldl (fun s t => s.issueOne x i m r t) s

/-! ### Step 7: results -/

/-- Whether every sequence and core of a row is done and each head's partials have become one at the home sequencer. -/
def StepRow.gathered (w : StepRow) : Bool :=
  w.todo.isEmpty && w.core.isEmpty && w.seqs.isEmpty && w.parts.all fun p => p.level = 2 && (w.parts.filter fun y => y.head = p.head).length = 1

/-- The output record of a query head (R324, R331). -/
def outRecord (x : Step) (m : KvModel) (p : Partial) : List Byte :=
  if bit x.flags 1 then padTo (outPitch x m) 0 (leBytes 4 p.m ++ leBytes 4 p.l ++ p.o.flatMap (leBytes 4))
  else
    let e := fun (w : Nat) => if x.ofmt = 6 then leBytes 4 w else leBytes 2 ((if x.ofmt = 5 then fp16 else bf16).encode (f32 w))
    padTo (outPitch x m) 0 (p.out.flatMap e ++ leBytes 4 (if bit x.flags 0 then p.lse 1 else 0))

/-- The output records of a row. -/
def outRow (x : Step) (m : KvModel) (w : StepRow) : List Byte :=
  (List.range m.heads).flatMap fun q => outRecord x m (match w.parts.find? fun p => p.head = q with
    | some p => p.part
    | none => Partial.empty m.dim)

/-- The owner of the writes of a row's output to a peer. -/
def outOwner (id i off : Nat) : Nat × Nat × Nat × Nat := (14, id, i, off)
def outOwns (id i : Nat) (o : Nat × Nat × Nat × Nat) : Bool := decide (o.1 = 14 ∧ o.2.1 = id ∧ o.2.2.1 = i)

/-- Step 7 of R326: the output records written, or sent to a peer and acknowledged; a response other than OK becomes the row's status. The frames
name die 0 and the memory agent 0x50 of the peer (DESIGN CHOICE log 60). -/
def State.writeOut (s : State) (x : Step) (i : Nat) (w : StepRow) : State :=
  let m := s.model x.model
  let data := outRow x m w
  let a := x.outAddr + i * data.length
  if x.peer then
    if w.phase = 6 then
      ((farChunks data.length).foldl (fun s c =>
        s.requestWrite x.d (0x44 + x.k) (carAddr x.peerModule 0 0x50) (a + c.1) ((data.drop c.1).take c.2) (outOwner x.id i c.1)) s).onRow
        x.id i fun w => { w with phase := 7 }
    else
      let rs := s.reqsOf (outOwns x.id i)
      if rs.any (·.result.isNone) then s
      else
        let st := (rs.findSome? fun q => match q.result with | some (st, _) => if st = 0 then none else some st | none => none).getD 0
        (s.dropReqs (outOwns x.id i)).onRow x.id i fun w =>
          let w := if st = 0 then w else w.fail 12 st (if st = 5 then 0x0050 else if st = 4 then 0x0020 else 0)
          { w with phase := 8 }
  else
    s.withMem (.aseq x.d x.k) [(a, data.length, true)] fun s => (s.writeBytes a data).onRow x.id i fun w => { w with phase := 8 }

/-- Step 8 of R326: every frame unpinned, STATUS, ROWFLAGS and REASON written. -/
def State.endRow (s : State) (x : Step) (i : Nat) (w : StepRow) : State :=
  s.withMem (.aseq x.d x.k) [(x.rowsAddr + 32 * i, 32, true)] fun s =>
    let s := w.pins.foldl (fun s p => s.unpin p.2) s
    let s := s.writeBytes (x.rowsAddr + 32 * i + 4) (leBytes 1 w.status ++ leBytes 1 (flag w.appended) ++ leBytes 2 w.reason)
    s.onRow x.id i fun w => { w with phase := 9, pins := [], waits := [], parts := [] }

/-! ### A row's next event -/

/-- The row takes its next event of R326, if it can. -/
def State.rowNext (s : State) (x : Step) (i : Nat) (w : StepRow) : State :=
  let m := s.model x.model
  if w.phase = 9 then s
  else if w.prec < 99 then
    if w.phase ≤ 6 ∧ w.seqs ≠ [] then s.onRow x.id i fun w => { w with todo := [], core := [] }
    else s.endRow x i w
  else
    match w.phase with
    | 0 =>
      (match s.rowCheck x i w with
       | some f => s.onRow x.id i fun w => w.fail f.1 f.2.1 f.2.2
       | none =>
         let r := s.seqRow m w.seq
         let ahead := (seqPages m r w.seq).filter fun pg =>
           decide ((x.layer + 1) * m.ngroups ≤ pg.plane ∧ pg.plane < (x.layer + 1 + m.lookahead) * m.ngroups)
         (s.askPages ahead).1.onRow x.id i fun w => { w with phase := if x.appends then 1 else 4, length := r.length })
    | 1 => s.resolvePage x i w
    | 3 => s.appendToken x i w
    | 4 => if x.attends then s.pinPages x i w else s.onRow x.id i fun w => { w with phase := 8 }
    | 5 => s.issueRow x i w |>.onRow x.id i fun w => if w.todo.isEmpty && w.prec = 99 then { w with phase := 6 } else w
    | 6 => if w.gathered then s.writeOut x i w else s
    | 7 => s.writeOut x i w
    | 8 => s.endRow x i w
    | _ => s

/-- A row's events, up to `n` of them. -/
def State.rowRun (s : State) (x : Step) (i : Nat) : Nat → State
  | 0 => s
  | n + 1 =>
    match s.rowAt x.id i with
    | some w => (s.rowNext x i w).rowRun x i n
    | none => s

/-- The rows of a step of a kind run as far as they can (R326); a step waits for an earlier one of the same sequence and layer (R40). -/
def State.stepRun (s : State) (d k n kind : Nat) : State :=
  match s.stepAt d k n with
  | none => s
  | some x =>
    if x.kind ≠ kind ∨ x.failed.isSome ∨ s.stepHeld x ∨ s.power.mode = .safe then s
    else (List.range x.rows.length).foldl (fun s i => s.rowRun x i 10) s

/-! ### Bank sequences that complete -/

/-- The failure of a row by a bank sequence's status (R325, precedence 10 to 12). -/
def seqFail (w : StepRow) (status reason : Nat) : StepRow :=
  if status = 0 then w
  else if status = 4 ∧ reason = 0x0020 then w.fail 10 4 0x0020
  else if status = 4 ∧ reason = 0x0021 then w.fail 11 4 0x0021
  else w.fail 12 status reason

/-- The partial of a result stream (R143). -/
def partialOf (ws : List Nat) : Partial := ⟨ws.headD negInf32, (ws[1]?).getD 0, ws.drop 2⟩

/-- A completed sequence's partial at its stack's merge unit, or its status in its row. -/
def rowSeqDone (j : SeqJob) (w : StepRow) : StepRow :=
  match w.seqs.find? fun y => y.id = j.id with
  | none => w
  | some y =>
    let w := seqFail { w with seqs := w.seqs.filter fun y => y.id ≠ j.id } j.status j.reason
    if j.status = 0 then { w with parts := w.parts ++ [(⟨y.head, 0, y.stk, partialOf j.stream⟩ : RowPart)] } else w

/-- A sequence of an attention sequencer has completed. -/
def State.aseqDone (s : State) (j : SeqJob) : State :=
  s.onKv fun x => { x with steps := x.steps.map fun y => { y with rows := y.rows.map (rowSeqDone j) } }

/-! ### Merging (R330) -/

/-- Whether a partial has met all that its place merges: no sequence of its head on its stack, or on its die's stacks with their partials, is
still to come. -/
def StepRow.complete (w : StepRow) (stackOf : Nat → Nat) (p : RowPart) : Bool :=
  let at_ := fun (stk : Nat) => if p.level = 0 then decide (stk = p.at_) else decide (stk / 4 = p.at_)
  (w.seqs.all fun y => y.head ≠ p.head || !at_ y.stk) && (w.todo.all fun t => t.head ≠ p.head || !at_ (stackOf t.frame)) &&
    (p.level = 0 || w.parts.all fun y => decide (y.head ≠ p.head ∨ y.level ≠ 0) || !at_ y.at_)

/-- Partial `i` of a row merged into another at its place, or forwarded: from the merge unit to its die's sequencer, and from there by the
head-merge collective to the home sequencer. -/
def StepRow.mergePart (w : StepRow) (stackOf : Nat → Nat) (i : Nat) : StepRow :=
  match w.parts[i]? with
  | none => w
  | some p =>
    let others := w.parts.eraseIdx i
    match others.findIdx? fun y => decide (y.head = p.head ∧ y.level = p.level ∧ y.at_ = p.at_) with
    | some j => { w with parts := modAt (fun y => { y with part := y.part.merge (1 + p.level) p.part }) others j }
    | none =>
      if p.level = 2 ∨ !w.complete stackOf p then w
      else { w with parts := others ++ [if p.level = 0 then { p with level := 1, at_ := p.at_ / 4 } else { p with level := 2, at_ := 0 }] }

/-- Partial `i` of a step, counted over its rows. -/
def mergeIn (stackOf : Nat → Nat) : List StepRow → Nat → List StepRow
  | [], _ => []
  | w :: ws, i => if i < w.parts.length then w.mergePart stackOf i :: ws else w :: mergeIn stackOf ws (i - w.parts.length)

/-! ### Core mode (R332) -/

/-- The partial of a page and query head computed by a core, under R124: the operations of R327 on the page as its DMA reads it (DESIGN
CHOICE log 42). -/
def State.corePartial (s : State) (x : Step) (w : StepRow) (m : KvModel) (r : SeqRow) (t : HeadPage) : Except Nat Partial :=
  let s := match (if rotates m r then s.areaOf t.frame else none) with | some a => s.writeArea m a t.n | none => s
  let run := runBau s ⟨s.stepDesc w m r t⟩ (s.prepared x w m r t.head) (freshBau (.aseq x.d x.k) none) none none
  match run.stop with
  | some why => .error why
  | none => .ok (partialOf (run.stream ⟨s.stepDesc w m r t⟩))

/-- The partial of a contiguous range of pages, merged in page order. -/
def State.coreRange (s : State) (x : Step) (w : StepRow) (m : KvModel) (r : SeqRow) : List HeadPage → Except Nat Partial
  | [] => .ok (Partial.empty m.dim)
  | t :: ts =>
    match s.corePartial x w m r t, s.coreRange x w m r ts with
    | .ok p, .ok q => .ok (if ts.isEmpty then p else p.merge 4 q)
    | .error e, _ => .error e
    | _, .error e => .error e

/-- One query head of row `i` run in core mode: its pages split along the sequence over the reserved cores. -/
def State.coreMode (s : State) (x : Step) (i : Nat) (w : StepRow) : State :=
  let m := s.model x.model
  let r := s.seqRow m w.seq
  let cores := popCount 16 (s.fld x.d x.k 0 ASEQ_CORES.MASK)
  match w.core.head? with
  | none => s
  | some t =>
    if cores = 0 then s
    else
      let mine := w.core.filter fun y => y.head = t.head
      let size := (mine.length + cores - 1) / cores
      let ranges := blocksOf size mine.length mine
      s.withMem (.engine x.d (16 * x.k) 4) (mine.map fun y => (s.frameAddr y.frame, s.slotLen y.frame, false)) fun s =>
        s.onRow x.id i fun w =>
          let w := { w with core := w.core.filter fun y => y.head ≠ t.head }
          ranges.foldl (fun w ts => match s.coreRange x w m r ts with
            | .ok p => { w with parts := w.parts ++ [(⟨t.head, 2, 0, p⟩ : RowPart)] }
            | .error why => seqFail w 4 why) w

end Sys2Proof.Machine
end

