-- ==== Sys2Proof/Machine/BankSeq.lean ====
section
/-! DEFINITION. The commands of bank sequences and sequence windows (chapter 05). -/

set_option Elab.async false

namespace Sys2Proof.Machine

open Sys2Proof Host

/-- BANK_SEQUENCE (R148): a descriptor of an internal agent reaches the stack controller, which checks and accepts it. Hosts issue theirs through
sequence windows, and an attention sequencer's and a DMA engine's come of steps and BSEQ transfers as well. -/
def execBankSequence (src : Agent) (desc inline : List Byte) (s : State) : Outcome State Fault Refusal :=
  .next (s.when (agentInternal src && decide (s.power.mode ≠ .safe ∧ s.power.mode ≠ .off ∧ s.power.mode ≠ .standby)) fun s =>
    s.acceptSeq src desc inline none none false)

/-- ACT_TOKEN_GRANT (R148, R150): a stack grants a free token, or lets a sequence with a token run. -/
def execActTokenGrant (stk : Nat) (s : State) : Outcome State Fault Refusal := .next (s.whenP (stk < 32 ∧ s.power.mode ≠ .safe) fun s => s.grant stk)

/-- SEQW_DESCRIPTOR_WRITE (R154 to R158): a write to a sequence-window slot, by a host through BAR 2. -/
def execSeqwDescriptorWrite (ag : Agent) (d slot off : Nat) (data : List Byte) (s : State) : Outcome State Fault Refusal :=
  .next (match ag with
    | .host port _ => s.whenP (port < 8) fun s => s.access ⟨ag, .bar 2 (d * 2 ^ 32 + slot * 2 ^ 20 + off), .write data false⟩
    | _ => s.access ⟨ag, .phys (0x300000000000 + d * 2 ^ 32 + slot * 2 ^ 20 + off), .write data false⟩)

/-- A completed sequence's result given to its issuer. -/
def State.seqDeliver (s : State) (j : SeqJob) : State :=
  match j.src with
  | .engine d c u =>
    if ((s.core d c).de0 ++ (s.core d c).de1).any fun x => x.seq = some j.id then s.bseqDone d c u j else s.send (.reply j.src (.data j.resultLine []))
  | .aseq _ _ =>
    if s.kv.steps.any fun x => x.rows.any fun w => w.seqs.any fun y => y.id = j.id then s.aseqDone j
    else s.send (.reply j.src (.data j.resultLine []))
  | .host _ _ => s
  | _ => s.send (.reply j.src (.data j.resultLine []))

/-- A sequence that has run and whose result lines are accepted completes (R148 steps 8 to 10): its token and bank are free except within a
chain, its slot is DONE and its doorbell rings. Until then the hosts that hold its result lines are asked for them. -/
def State.completeSeq (s : State) (j : SeqJob) : State :=
  if s.seqEnds j then (((s.endSeq j).slotDone j).seqDeliver j).retry else s.issueSnoops (s.resultNeeds j)

/-- SEQUENCE_COMPLETE (R148 steps 6 to 10, R156): the sequence runs, where its bank lets it, and completes. -/
def execSequenceComplete (id : Nat) (s : State) : Outcome State Fault Refusal :=
  .next (match s.seqOf id with
    | none => s
    | some j =>
      let s := s.seqStart j
      match s.seqOf id with
      | some j => s.completeSeq j
      | none => s)

end Sys2Proof.Machine
end

