-- ==== Sys2Proof/Machine/Firmware.lean ====
section
/-! DEFINITION. The firmware image and its checks (R434 to R436). -/

set_option Elab.async false

namespace Sys2Proof.Machine

open Sys2Proof

/-- A segment entry of the image (R434): TYPE, OFFSET, BYTES and DIGEST. -/
structure FwSegment where
  type : Nat
  offset : Nat
  bytes : Nat
  digest : Nat
  deriving DecidableEq, Repr

/-- The four segment entries of an image. -/
def fwSegments (img : List Byte) : List FwSegment :=
  (List.range 4).map fun i =>
    let e := 0x20 + 48 * i
    ⟨field img e 2, field img (e + 4) 4, field img (e + 8) 4, field img (e + 16) 32⟩

/-- Whether two segments overlap. -/
def segOverlap (a b : FwSegment) : Bool := decide (a.offset < b.offset + b.bytes ∧ b.offset < a.offset + a.bytes)

/-- The Oasis library of an image (R434, segment type 0x0002), as far as it fits an instruction memory of 32 KiB (R236). -/
def fwOasis (img : List Byte) : List Byte :=
  match (fwSegments img).find? fun x => x.type = 2 with
  | some x => ((img.drop x.offset).take x.bytes).take 0x8000
  | none => []

/-- The layout checks of R434 and R435: MAGIC, FORMAT, NSEG, BYTES and SVN hold their values, reserved bytes are 0, each segment type
occurs once, and every segment lies within the image without overlapping another. -/
def fwLayoutOk (img : List Byte) : Bool :=
  let segs := fwSegments img
  let bytes := field img 0x10 4
  decide (field img 0 4 = 0x5746474B ∧ field img 4 2 = 1 ∧ field img 6 2 = 4 ∧ field img 8 4 ≤ 63) &&
    decide (0xF74 ≤ bytes ∧ bytes ≤ 0x800000 ∧ bytes = img.length ∧ field img 0x14 12 = 0) &&
    [1, 2, 3, 4].all (fun t => (segs.filter fun x => x.type = t).length = 1) &&
    segs.all (fun x => decide (0xF74 ≤ x.offset ∧ x.offset + x.bytes ≤ bytes)) &&
    (List.range 4).all (fun i => (List.range i).all fun j =>
      match segs[i]?, segs[j]? with
      | some a, some b => !segOverlap a b
      | _, _ => false)

/-- The digest checks of R435: of PUBKEY against the ROM, and of each segment. -/
def fwDigestsOk (img : List Byte) : Bool :=
  decide (Config.sha3 ((img.drop 0xA54).take 1312) = Config.romKeyDigest) &&
    (fwSegments img).all fun x => decide (Config.sha3 ((img.drop x.offset).take x.bytes) = x.digest)

/-- Whether R435 accepts an image apart from its SVN. `sigOk` is the outcome of the ML-DSA-44 verification (DESIGN CHOICE log 12). -/
def fwAccepted (img : List Byte) (sigOk : Bool) : Bool := fwLayoutOk img && fwDigestsOk img && sigOk

/-- The image's security version. -/
def fwSvn (img : List Byte) : Nat := field img 8 4

/-- Whether the image may run: accepted, and its SVN at least the fused floor (R435, R436). -/
def State.fwRuns (s : State) (img : List Byte) (sigOk : Bool) : Bool := fwAccepted img sigOk && decide (s.fuses.svnFloor ≤ fwSvn img)

end Sys2Proof.Machine
end

