-- ==== Sys2Proof/Machine/MgmtOps.lean ====
section
/-! DEFINITION. Management requests: the record, who is served, and how a request completes (R442 to R447). -/

set_option Elab.async false

namespace Sys2Proof.Machine

open Sys2Proof

/-- Fields of a request record (R443). -/
def MgmtReq.op (q : MgmtReq) : Nat := field q.bytes 0 1
def MgmtReq.kind (q : MgmtReq) : Nat := field q.bytes 1 1
def MgmtReq.unit (q : MgmtReq) : Nat := field q.bytes 2 2
def MgmtReq.reg (q : MgmtReq) : Nat := field q.bytes 8 4
def MgmtReq.value (q : MgmtReq) : Nat := field q.bytes 0x0C 4
def MgmtReq.nonce (q : MgmtReq) : Nat := field q.bytes 0x18 8
def MgmtReq.key (q : MgmtReq) : Nat := field q.bytes 0x28 1

/-- The record as the safety manager answers it: STATUS, REASON and RESULT written (R443). -/
def mgmtAnswer (r : List Byte) (status reason result : Nat) : List Byte :=
  splice (splice (splice r 0x04 (leBytes 1 status)) 0x06 (leBytes 2 reason)) 0x10 (leBytes 8 result)

/-- The request that is served now: the oldest (R442). -/
def State.mgmtHead (s : State) : Option MgmtReq := s.mgmt.queue.head?

/-- The request at the head completes (R442, R443): its answer is written to its record with DONE set, or returned over I3C. -/
def State.mgmtComplete (s : State) (status reason result : Nat) : State :=
  match s.mgmt.queue with
  | [] => s
  | q :: qs =>
    let s := s.onMgmt fun m => { m with queue := qs }
    let r := mgmtAnswer q.bytes status reason result
    match q.port with
    | some _ =>
      let s := s.writeBytes (q.addr + 0x04) ((r.drop 0x04).take 4)
      let s := s.writeBytes (q.addr + 0x10) ((r.drop 0x10).take 8)
      s.setFld 0 0 0 BTS_MGMT_STATUS.DONE 1
    | none => s.send (.i3c r)

/-- Whether a unit exists and is not fused off (R6, R444); none for a reserved KIND. -/
def State.unitPresent (s : State) (kind unit : Nat) : Option Bool :=
  if kind = 1 then some (decide (unit < 8))
  else if kind = 2 then some (decide (unit < 48))
  else if kind = 3 then some (decide (unit < 32))
  else if kind = 4 then some (decide (unit < 32))
  else if kind = 5 then some (s.corePresent (unit / 64) (unit % 64))
  else if kind = 6 then some (decide (unit = 0))
  else none

/-- Whether a unit is stopped (R445). -/
def State.unitStopped (s : State) (kind unit : Nat) : Bool := s.mgmt.stopped.contains ⟨kind, unit⟩

/-- The reserved fields of a request that must be 0, and REG and VALUE where the operation does not use them (R443). -/
def mgmtReservedOk (q : MgmtReq) : Bool := decide (field q.bytes 5 1 = 0 ∧ field q.bytes 0x29 23 = 0)

/-- Serving begins for operation `op` (R444): the head must carry it, in Safe only TSENSE and RESET are served (R466), a reserved
KIND is RANGE, reason 0x0002, and an absent unit is ABSENT. -/
def State.mgmtServe (s : State) (op : Nat) (f : MgmtReq → State → State) : State :=
  match s.mgmtHead with
  | none => s
  | some q =>
    if q.op ≠ op then s
    else if s.power.mode = .safe ∧ op ≠ 5 ∧ op ≠ 8 then s.mgmtComplete 5 0x00A0 0
    else match s.unitPresent q.kind q.unit with
      | none => s.mgmtComplete 3 0x0002 0
      | some false => s.mgmtComplete 1 0 0
      | some true => f q s

/-- A signed operation (R442, R444): a signature that is missing, or does not verify with the owner key that KEY names, is REFUSED,
reason 0x0090; a nonce at or below the last accepted one is REFUSED, reason 0x0094; otherwise the nonce is kept in flash. -/
def State.mgmtSigned (s : State) (q : MgmtReq) (sigOk : Bool) (f : State → State) : State :=
  if q.sig.isNone ∨ !sigOk ∨ 3 < q.key ∨ ((s.entries 0x0009).length ≤ q.key) then s.mgmtComplete 5 0x0090 0
  else if q.nonce ≤ s.flash.nonce then s.mgmtComplete 5 0x0094 0
  else f { s with flash := { s.flash with nonce := q.nonce } }

/-- The hottest valid sensor of a unit by the latest readings (R444, R446): a stack's, the die's for a host port, fabric port, cluster
or core, and the module's hottest for the module, as (die, index) (DESIGN CHOICE log 34). -/
def State.hottest (s : State) (kind unit : Nat) : Nat × Nat :=
  let cands := match kind with
    | 3 => (stackSensors (unit % 4)).map fun i => (unit / 4, i)
    | 1 => (List.range 0x60).map fun i => (unit, i)
    | 2 => (List.range 0x60).map fun i => (unit / 6, i)
    | 4 => (List.range 0x60).map fun i => (unit / 4, i)
    | 5 => (List.range 0x60).map fun i => (unit / 64, i)
    | _ => (List.range 8).flatMap fun d => loopSensors.map fun i => (d, i)
  (cands.foldl (fun (best : Option (Int × Nat × Nat)) c =>
    match s.validTemp c.1 c.2, best with
    | some t, some (b, bc) => if b < t then some (t, c) else some (b, bc)
    | some t, none => some (t, c)
    | none, best => best) none).elim (0, 0) (·.2)

/-- The reading that a TSENSE at the head waited for (R446): RESULT holds FP32 °C. -/
def State.mgmtReading (s : State) (t : Int) : State :=
  match s.mgmtHead with
  | some q => if q.op = 5 then s.mgmtComplete 0 0 (f32OfTemp t) else s
  | none => s

end Sys2Proof.Machine
end

