-- ==== Sys2Proof/Machine/TaskOps.lean ====
section
/-! DEFINITION. What ends work: a core left idle, a run aborted, a task released, the work of a port after a reset, and of the module in Safe
(R183, R296, R351, R353, R355, R356, R397, R465). -/

set_option Elab.async false

namespace Sys2Proof.Machine

open Sys2Proof

/-! ### Owners (R337) -/

/-- The owner that a sender stands for: a host port, a Caravan peer or an internal agent. -/
def posterOwner (sender : Nat) : Nat := if senderKind sender = 8 then senderHost (senderPort sender) 0 else sender

/-! ### Cores -/

/-- A core whose control core takes the abort interrupt (R183, R245): queues are empty, counters 0, nothing runs on the control core. -/
def Core.abortCc (k : Core) : Core :=
  { k with
    queues := []
    counters := []
    patchDue := none
    hold := none
    cc := { k.cc with
      mode := if k.cc.mode = 4 then 4 else 0
      fifo := []
      counters := []
      call := none
      due := none
      hold := none
      abortDue := false
      dmaDue := none
      dmaStatus := none
      postTries := 0
      postLast := false } }

/-- A core that stands idle: streams stopped, nothing issued, and its engines' transfers abandoned (R353 steps 3 and 4). -/
def Core.idle (k : Core) : Core :=
  { k.abortCc with
    sa := { k.sa with running := false }
    sx := { k.sx with running := false }
    jobs := []
    credits := []
    signals := []
    slots := []
    presets := []
    checks := []
    tile := none
    de0 := []
    de1 := []
    faulted := none
    cc := { k.abortCc.cc with mode := 0 } }

/-- A core's descriptors invalid, and every frame pinned through KV_FRAME_DESC unpinned (R255, R353 step 5). -/
def State.dropDescs (s : State) (d c : Nat) : State :=
  (((s.core d c).dpins.map (·.1)).foldl (fun s e => s.dropDynamic d c e) s).onCore d c fun k => { k with desc := [], dpins := [] }

/-- The Caravan requests of a core's engines and of its control core no longer waited for. -/
def State.dropCoreReqs (s : State) (d c : Nat) : State :=
  s.dropReqs fun o => (decide (o.1 = 8 ∧ o.2.1 = d * 64 + c)) || decide (10 ≤ o.1 ∧ o.1 ≤ 12 ∧ o.2.1 / 2 = d * 64 + c)

/-- Whether an agent is a DMA engine of a core. -/
def engineOfCore (d c : Nat) : Agent → Bool
  | .engine e b _ => decide (e = d ∧ b = c)
  | _ => false

/-- The chains of a core's transfers ended: bank sequences that a stack controller has accepted run to completion, and keep no bank after
that (R353 step 4). -/
def State.dropChains (s : State) (d c : Nat) : State :=
  { (s.endChains fun b => b.kept && engineOfCore d c b.owner) with
    seqs := s.seqs.map fun j => if engineOfCore d c j.src then { j with keep := false } else j }

/-- A core's part of an aborted run ended. -/
def State.abortCore (s : State) (d c : Nat) : State :=
  (((((s.kvUnwait d c).dropCoreReqs d c).dropChains d c).dropDescs d c).onCore d c fun k => k.idle)

/-! ### Runs -/

/-- A task's slots unbound, and the notices left in them discarded (R292). -/
def State.unbind (s : State) (t : Task) : State :=
  (imgEntries t.image 5).foldl (fun s b =>
    (s.setReg (bdDie b) .MBX_BIND (bdCluster b) (bdSlot b) 0).emptySlot (bdDie b) (bdCluster b) (bdSlot b)) s

/-- Every sequence of a task's models in one of some states freed, or all that are not FREE. -/
def State.freeModels (s : State) (t : Task) (state : Nat → Bool) : State :=
  (t.models.map s.model).foldl (fun s m =>
    (List.range m.nseq).foldl (fun s i =>
      if state (s.seqRow m (m.seqBase + i)).state then s.freeSeq (m.seqBase + i) else s) s) s

/-- Steps 1 to 5 of R353 (DESIGN CHOICE log 44). -/
def State.abortRun (s : State) (id : Nat) : State :=
  match s.task id with
  | none => s
  | some t =>
    let s := (s.onTask id fun t => { t with state := .aborting }).unbind t
    let s := t.cores.foldl (fun s dc => s.abortCore dc.1 dc.2) s
    s.freeModels t fun st => decide (st = 1)

/-- The end of a run (R223, R351): slots unbound, unless its abort has done so (R353 step 1), descriptors invalid and kept tiles discarded, the
task LOADED. -/
def State.finishRun (s : State) (id : Nat) : State :=
  match s.task id with
  | none => s
  | some t =>
    let s := if t.state = .running then s.unbind t else s
    (t.cores.foldl (fun s dc => (s.dropDescs dc.1 dc.2).onCore dc.1 dc.2 fun k => { k with tile := none }) s).onTask id fun t =>
      { t with state := .loaded, start := none, aborts := [], done := [], report := [] }

/-- A task freed (R355): its sequences, model records and length tables, allocations, reserve and cores. -/
def State.freeTask (s : State) (id : Nat) : State :=
  match s.task id with
  | none => s
  | some t =>
    let s := s.freeModels t fun st => decide (st ≠ 0)
    let places := (t.models.map s.model).flatMap fun m => [m.addr, m.lt]
    let s := s.onKv fun x => { x with ranges := x.ranges.filter fun y => !places.contains y.1 }
    let s := t.cores.foldl (fun s dc => s.onCore dc.1 dc.2 fun k => { k with task := none, desc := [] }) s
    { s with ldr := { s.ldr with tasks := s.ldr.tasks.filter fun u => u.id ≠ id } }

/-! ### Ports and Safe -/

/-- A task of a port that is reset (R356): a LOAD abandoned, a run aborted, the task released, all without a reply. -/
def State.endPortTask (s : State) (t : Task) : State :=
  match t.state with
  | .loading => { s with ldr := { s.ldr with tasks := s.ldr.tasks.filter fun u => u.id ≠ t.id } }
  | .running => ((s.abortRun t.id).finishRun t.id).freeTask t.id
  | .aborting => (s.finishRun t.id).freeTask t.id
  | .loaded => s.freeTask t.id

/-- The work of a port after a hot reset, FLR or CXL Reset (R159, R296, R356): its sequence slots, mailboxes and tasks. -/
def State.abortPortWork (s : State) (port : Nat) : State :=
  let s := (s.ldr.tasks.filter fun t => t.owner = senderHost port 0).foldl (fun s t => s.endPortTask t) s
  (s.resetSlots port).resetMailboxes port

/-- The effects of a hot reset or link down on a port (R397): link, decoders and Range 1, directory, and the port's work (DESIGN CHOICE log
52). -/
def State.hotReset (s : State) (port : Nat) : State :=
  let s := s.onPort port fun p => { p with
    proto := 0
    speed := 0
    width := 0
    ioOnly := false
    decoders := []
    range1 := 0
    flip := none
    lanesSeen := [] }
  ((s.dropDir port).dropHeld port).abortPortWork port

/-- Work abandoned on entry into Safe (R465 step 5, R466): streams, engines, sequencers, sequences, transfers and notices of hardware senders. -/
def State.abandonWork (s : State) : State :=
  let s := s.fab.collBuf.foldl (fun s x => s.freeBuffer x.from_ (frUnits x.bytes)) s
  let s := { s with
    cores := s.cores.map fun (kc : Nat × Core) => (kc.1, kc.2.idle)
    seqs := []
    baus := []
    kept := [] }
  let s := s.onKv fun x => { x with steps := [], farJobs := [], waits := [], spilling := [], hungry := [] }
  s.onFab fun x => { x with reqs := [], colls := [], collBuf := [] }

/-- A fault of a core that runs a task stops its streams and is due for TASK_ABORT (R183, R353). -/
def State.taskFault (s : State) (id d c : Nat) : State := s.stopCore d c id

/-! ### Units in use (R445, R447) -/

/-- Whether a loaded task uses a core, or a core of a cluster. -/
def State.coreTasked (s : State) (d c : Nat) : Bool := s.ldr.tasks.any fun t => decide (t.state ≠ .loading) && t.cores.contains (d, c)
def State.clusterTasked (s : State) (d k : Nat) : Bool :=
  s.ldr.tasks.any fun t => decide (t.state ≠ .loading) && t.cores.any fun x => decide (x.1 = d ∧ x.2 / 16 = k)

/-- Whether a core's streams and control core are idle (R447). -/
def State.coreIdle (s : State) (d c : Nat) : Bool :=
  let k := s.core d c
  !k.sa.running && !k.sx.running && k.faulted.isNone && decide (k.cc.mode = 0) && k.cc.call.isNone

end Sys2Proof.Machine
end

