-- ==== Sys2Proof/Machine/Boot.lean ====
section
/-! DEFINITION. The commands of start-up (R432, R433, R435, R438 to R441). -/

set_option Elab.async false

namespace Sys2Proof.Machine

open Sys2Proof Host

/-- The step that start-up has just completed (BTS_BOOT_STATUS.STEP). -/
def State.stepDone (s : State) (n : Nat) : State := s.onBoot fun b => { b with lastStep := n }

/-- A stack cleared, with everything as its repair log leaves it (R95, R432 step 6). -/
def State.initStack (s : State) (stk : Nat) (t : StackTest) : State :=
  let s := s.setStack stk (Stack.initialised stk s.flash.repair { freshStack with rate := (s.stack stk).rate } t)
  s.onMem fun m => { m with
    cells := m.cells.filter fun c => !(decide (placedBase ≤ c.1 ∧ c.1 < 0x140000000000 ∧ placedStack c.1 = stk))
    poison := m.poison.filter fun l => placedStack (l * 64) ≠ stk }

/-- Recovery (R453): Maintenance, with D0's rails, stacks S0 to S3, and every host port as plain PCIe. The partition masks of the
stored record hold when that record verifies (`trusted`) (DESIGN CHOICE log 33). -/
def State.enterRecovery (s : State) (trusted : Bool) : State :=
  let s := s.onPower fun p => { p with mode := .maintenance, rails := true }
  let s := s.onBoot fun b => { b with recovery := true, lasersOn := true, lasersLocked := true }
  let s := if trusted then { s with cfg := s.flash.record } else s
  (List.range 4).foldl (fun s k => s.initStack k ⟨true, []⟩) s

/-- BOOT_FIRMWARE_VERIFY (R432 step 1, R433, R435, R452, R453): the boot ROM checks the image in flash; one that may not run puts the
module in recovery. `sigOk` is whether the image's signature verifies, and the stored record's (DESIGN CHOICE log 12). -/
def execBootFirmwareVerify (sigOk : Bool) (s : State) : Outcome State Fault Refusal :=
  .next (s.whenP (s.power.mode = .booting ∧ s.boot.fwOk = false) fun s =>
    if s.fwRuns s.flash.fw sigOk then
      (s.onBoot fun b => { b with fwOk := true, imageHeader := s.flash.fw.take 0xE0 }).stepDone 1
    else s.enterRecovery (match s.flash.record with | some r => recordTrusted s.fuses r true | none => false))

/-! ### The settings of the record -/

/-- The settings that one entry of an accepted record writes (R437, R440); windows, tables and pools stay in the record. A VDDQ that the ten
bits of PTM_CFG.VDDQ cannot hold leaves the field, so that no reserved encoding stands there (R21) (DESIGN CHOICE log 31). -/
def State.applyEntry (s : State) : Entry → State
  | .module number group partition faultMode restart _ =>
    let s := (List.range 8).foldl (fun s d =>
      ((s.setFld d 0 0 CF_ID.MODULE number).setFld d 0 0 CF_ID.GROUP group).setFld d 0 0 CF_ID.PARTITION partition) s
    (s.setFld 0 0 0 FCU_PIN_CFG.MODE faultMode).setFld 0 0 0 FCU_SAFE_CFG.RESTART restart
  | .hostPort port allowed regs _ _ => (s.setFld port 0 0 HP_CFG.ALLOWED allowed).setFld port 0 0 HP_CFG.REGS regs
  | .seqw d n en owner first last =>
    (((s.setFld d 0 n SEQW_RANGE.EN en).setFld d 0 n SEQW_RANGE.OWNER owner).setFld d 0 n SEQW_RANGE.LAST last).setFld d 0 n
      SEQW_RANGE.FIRST first
  | .submitBind n en internal caravan hosts =>
    (((s.setFld 0 0 n LDR_SUBMIT_BIND.EN en).setFld 0 0 n LDR_SUBMIT_BIND.INTERNAL internal).setFld 0 0 n
      LDR_SUBMIT_BIND.CARAVAN caravan).setFld 0 0 n LDR_SUBMIT_BIND.HOSTS hosts
  | .stack stk idle budget srEntry tsense age scrub share =>
    (stackWords idle budget srEntry tsense age scrub share).foldl (fun s x =>
      s.setReg (stk / 4) x.1 (stk % 4) 0
        (BitVec.ofNat 32 (mergeWrite x.1.row.fields true (s.reg (stk / 4) x.1 (stk % 4) 0).toNat x.2))) s
  | .poolLow d low => s.setFld d 0 0 KVM_POOL_LOW.LOW low
  | .aseqCores d k mask => s.setFld d k 0 ASEQ_CORES.MASK mask
  | .cfTimeout d coll req => (s.setFld d 0 0 CF_TIMEOUT.COLL coll).setFld d 0 0 CF_TIMEOUT.REQ req
  | .cfAge d age => s.setFld d 0 0 CF_AGE.AGE age
  | .oeCal e period => s.setFld (e / 2) (e % 2) 0 OE_CAL_CFG.PERIOD period
  | .mirage d c tol rate => (s.setFld d c 0 ME_MIRAGE_CFG.TOL tol).setFld d c 0 ME_MIRAGE_CFG.RATE rate
  | .stallCfg d c interval => s.setFld d c 0 SYNC_STALL_CFG.INTERVAL interval
  | .power d target vddq period =>
    let s := (s.setFld d 0 0 PTM_VDDL.TARGET target).setFld d 0 0 PTM_CFG.PERIOD period
    (if vddq < 1024 then s.setFld d 0 0 PTM_CFG.VDDQ vddq else s).onPower fun p => { p with vddq := mput p.vddq d vddq }
  | .range _ _ _ | .farTier _ _ _ _ _ | .pool _ _ _ | .kvRegion _ _ | .heap _ _ | .loaderArea _ _ | .fabricPort _ _
  | .systemModule _ _ _ | .route _ _ | .partitionMask _ | .caravanWindow _ _ _ | .collGroup _ | .laneMode _ _ _ | .ownerKey _ => s

/-- The boot lock set (R440), from which the FAULT pin follows its mode (R470). -/
def State.lockBoot (s : State) : State := ((s.onBoot fun b => { b with locked := true }).stepDone 3).drivePin

/-- The record refused (R441): REFUSED and REFUSAL, a record in the fault log, and every host port plain PCIe with read-only registers; the
module stays in Booting. The identifier of that log record is free: no identifier of R457 names a refusal (DESIGN CHOICE log 28). -/
def State.refuseConfig (s : State) (code : Nat) : State :=
  let (id, s) := s.fresh
  let s := s.onBoot fun b => { b with refused := true, refusal := code }
  let s := (List.range 8).foldl (fun s p => (s.setFld p 0 0 HP_CFG.ALLOWED 0).setFld p 0 0 HP_CFG.REGS 1) s
  let s := s.toFlashLog fun ovr => faultRecordBytes id 0 ovr 0xFFFF 0 (s.time 0) code 0 s.flash.boots
  s.lockBoot

/-- OWNER_DIGEST blown from a verified record's owner key 0 when it is blank (R438). -/
def State.blowOwner (s : State) (r : Record) : State :=
  match s.fuses.ownerDigest with
  | none => { s with fuses := { s.fuses with ownerDigest := some (Config.sha3 (ownerKey0 r)) } }
  | some _ => s

/-- CONFIG_LOAD (R432 step 3, R438 to R441): Oasis 1.0 is loaded into the control cores, and the record in flash is checked; an
accepted one writes the RWL registers and the protection set-up, and the boot lock is set. `sigOk` is whether the record's signature
verifies with its own owner key 0 (DESIGN CHOICE log 31). -/
def execConfigLoad (sigOk : Bool) (s : State) : Outcome State Fault Refusal :=
  .next (s.whenP (s.power.mode = .booting ∧ s.boot.railsUp = true ∧ s.boot.locked = false) fun s =>
    let s := s.onBoot fun b => { b with
      oasisVersion := 0x00010000
      ccCode := (fwOasis s.flash.fw).take 0x8000
      recordDigest := Config.sha3 s.flash.recordBytes
      floorAtStart := s.fuses.svnFloor }
    match s.flash.record with
    | none => s.refuseConfig 0xFFFF
    | some r =>
      let s' := if recordTrusted s.fuses r sigOk then s.blowOwner r else s
      match recordRefusal s.fuses s.power.straps r sigOk with
      | some code => s'.refuseConfig code
      | none =>
        let s := { s' with cfg := some r }
        let s := (r.sections.flatMap (·.entries)).foldl State.applyEntry s
        (s.onBoot fun b => { b with configOk := true }).lockBoot)

/-- LASER_START (R432 step 4): lasers start and host lanes begin training; after a refusal only the host ports come up (R441). -/
def execLaserStart (s : State) : Outcome State Fault Refusal :=
  .next (s.whenP (s.power.mode = .booting ∧ s.boot.locked = true ∧ s.boot.lasersOn = false) fun s =>
    let s := s.onBoot fun b => { b with lasersOn := true }
    if s.boot.refused then s else s.stepDone 4)

/-- LASER_LOCK (R432 step 5): wavelength lock, and fabric ports train. Fabric ports stay dark after a refusal (R441). -/
def execLaserLock (s : State) : Outcome State Fault Refusal :=
  .next (s.whenP ((s.power.mode = .booting ∨ s.power.mode = .ready) ∧ s.boot.lasersOn = true ∧ s.boot.lasersLocked = false ∧
      s.boot.configOk = true) fun s =>
    let s := s.onBoot fun b => { b with lasersLocked := true }
    let s := (List.range 48).foldl (fun s p => if s.mayTrain p then s.trainPort p else s) s
    if s.power.mode = .ready then s else s.stepDone 5)

/-- STACK_INIT (R95, R432 step 6, R433, R505): one stack calibrates, its wires are tested and repaired, the repair log is applied and
it is cleared; one that does not calibrate reports Failed. Stacks are not cleared after a refusal (R441). -/
def execStackInit (stk : Nat) (found : StackTest) (s : State) : Outcome State Fault Refusal :=
  .next (s.whenP (stk < 32 ∧ s.power.mode = .booting ∧ s.boot.railsUp = true ∧ s.boot.refused = false ∧
      (s.stack stk).cleared = false) fun s =>
    let s := s.initStack stk found
    let s := found.wires.foldl (fun s w =>
      let s := (List.range w.2.1).foldl (fun s _ => s.repairWire stk w.1 false) s
      (List.range w.2.2).foldl (fun s _ => s.repairWire stk w.1 true) s) s
    let s := if (s.stack stk).failed then s.raise (stk / 4) 0x4101 (scUnit stk) 0 (placedAddr stk 0 0 0 0) else s
    if (List.range 32).all fun k => (s.stack k).cleared then s.stepDone 6 else s)

/-- The descriptors of every frame of the pools: FREE, with the address of its slot (R302, R309). -/
def State.initFrames (s : State) : State :=
  (s.poolBanks.flatMap fun b => (List.range b.pool.perBank).map (b.first + ·)).foldl (fun s f => s.setFd f 0x10 8 (s.frameAddr f)) s

/-- ENTER_READY (R309, R392, R432 step 7): with steps 3 and 6 done, the frame descriptors stand in the cleared stacks, Memory_Active is set
on every host port and the module is in Ready. -/
def execEnterReady (s : State) : Outcome State Fault Refusal :=
  .next (s.whenP (s.power.mode = .booting ∧ s.boot.configOk = true ∧ ((List.range 32).all fun k => (s.stack k).cleared) = true)
    fun s =>
      let s := (List.range 8).foldl (fun s p => if (s.port p).proto = 0 then s else s.onPort p fun x => { x with memActive := true }) s
      (s.initFrames.onPower fun p => { p with mode := .ready }).stepDone 7)

end Sys2Proof.Machine
end

