-- ==== Sys2Proof/Machine/Trust.lean ====
section
/-! DEFINITION. Image and record transfers, attestation, and the I3C address (R448 to R452, R500). -/

set_option Elab.async false

namespace Sys2Proof.Machine

open Sys2Proof Host

/-! ### Transfers (R451) -/

/-- Whether DOE of a host port is served: the link is up in a state that serves it. -/
def State.doeServed (s : State) (path : Nat) : Bool :=
  decide (path < 8 ∧ (s.port path).proto ≠ 0) &&
    (match s.power.mode with | .off => false | .standby => false | .warmUp => false | _ => true)

/-- The response object of a transfer command: CMD and KIND echoed, STATUS and REASON (R451). -/
def State.doeAnswer (s : State) (path cmd kind status reason : Nat) : State :=
  s.send (.doe path (leBytes 1 cmd ++ leBytes 1 kind ++ leBytes 2 status ++ leBytes 4 reason))

/-- The most bytes that a transfer of a kind holds: the staging memory (R450) or the record's region (R431) (DESIGN CHOICE log 29). -/
def transferMax (kind : Nat) : Nat := if kind = 1 then 0x800000 else 0x400000

/-- BEGIN (R451): starts or restarts the port's transfer, or is BUSY while another port's runs. A reserved KIND, or a size beyond the
region, is RANGE, reason 0x0002. A firmware transfer empties the staging memory (DESIGN CHOICE log 29). -/
def execBegin (path kind value : Nat) (s : State) : Outcome State Fault Refusal :=
  .next (s.when (s.doeServed path) fun s =>
    let other := match s.boot.transfer with | some t => decide (t.path ≠ path) | none => false
    if other then s.doeAnswer path 1 kind 2 0
    else if kind ≠ 1 ∧ kind ≠ 2 ∨ transferMax kind < value then s.doeAnswer path 1 kind 3 0x0002
    else
      let s := s.onBoot fun b => { b with
        transfer := some ⟨path, kind, value, []⟩
        staged := if kind = 1 then none else b.staged }
      s.doeAnswer path 1 kind 0 0)

/-- DATA (R451): 4 to 4,096 bytes at the offset that equals the bytes received so far; anything else is RANGE, reason 0x0002 (DESIGN CHOICE
log 29). -/
def execData (path kind value : Nat) (data : List Byte) (s : State) : Outcome State Fault Refusal :=
  .next (s.when (s.doeServed path) fun s =>
    match s.boot.transfer with
    | some t =>
      if t.path = path ∧ t.kind = kind ∧ value = t.got.length ∧ 4 ≤ data.length ∧ data.length ≤ 4096 ∧
          t.got.length + data.length ≤ t.total then
        (s.onBoot fun b => { b with transfer := some { t with got := t.got ++ data } }).doeAnswer path 2 kind 0 0
      else if t.path ≠ path then s.doeAnswer path 2 kind 2 0
      else s.doeAnswer path 2 kind 3 0x0002
    | none => s.doeAnswer path 2 kind 3 0x0002)

/-- Whether the boot ROM takes a firmware image now (R452): in recovery, or in Booting after a refused record. -/
def State.romTakesImage (s : State) : Bool := s.boot.recovery || (s.power.mode = .booting && s.boot.refused)

/-- END of a firmware transfer (R435, R450): the image is staged, or the staging memory emptied. -/
def State.endImage (s : State) (t : Transfer) (sigOk : Bool) : State :=
  if t.got.length ≠ t.total ∨ !fwAccepted t.got sigOk then
    (s.onBoot fun b => { b with staged := none }).doeAnswer t.path 3 1 3 0x0098
  else if fwSvn t.got < s.fuses.svnFloor then (s.onBoot fun b => { b with staged := none }).doeAnswer t.path 3 1 5 0x0099
  else (s.onBoot fun b => { b with staged := some t.got }).doeAnswer t.path 3 1 0 0

/-- END of a record transfer (R437, R438, R451): checked and stored in flash at once. `parsed` is the record that the bytes spell (DESIGN
CHOICE log 13). -/
def State.endRecord (s : State) (t : Transfer) (sigOk : Bool) (parsed : Option Record) : State :=
  match parsed with
  | some r =>
    if t.got.length = t.total ∧ recordTrusted s.fuses r sigOk = true ∧ sectionFault r = none then
      let s := match s.fuses.ownerDigest with
        | none => { s with fuses := { s.fuses with ownerDigest := some (Config.sha3 (ownerKey0 r)) } }
        | some _ => s
      ({ s with flash := { s.flash with record := some r, recordBytes := t.got } }).doeAnswer t.path 3 2 0 0
    else s.doeAnswer t.path 3 2 3 0x0098
  | none => s.doeAnswer t.path 3 2 3 0x0098

/-- TRANSFER_END (R450, R451) (DESIGN CHOICE log 13; DESIGN CHOICE log 29). -/
def execTransferEnd (path kind : Nat) (sigOk : Bool) (parsed : Option Record) (s : State) : Outcome State Fault Refusal :=
  .next (s.when (s.doeServed path) fun s =>
    match s.boot.transfer with
    | some t =>
      if t.path ≠ path then s.doeAnswer path 3 kind 2 0
      else if t.kind ≠ kind then s.doeAnswer path 3 kind 3 0x0002
      else
        let s := s.onBoot fun b => { b with transfer := none }
        if kind = 1 then s.endImage t sigOk else s.endRecord t sigOk parsed
    | none => s.doeAnswer path 3 kind 3 0x0002)

/-- TRANSFER_STATUS (R451): BUSY while a transfer runs, OK otherwise (DESIGN CHOICE log 29). -/
def execTransferStatus (path kind : Nat) (s : State) : Outcome State Fault Refusal :=
  .next (s.when (s.doeServed path) fun s => s.doeAnswer path 4 kind (if s.boot.transfer.isSome then 2 else 0) 0)

/-! ### Attestation (R448, R449; the layouts of answers as DSP0274 has them: PRESUMED log 30) -/

/-- Whether SPDM is served on a path: a host port's DOE, or I3C as path 8 in every state but Off. -/
def State.spdmServed (s : State) (path : Nat) : Bool := s.doeServed path || (path = 8 && s.power.mode ≠ .off)

/-- A request that needs stage `need` of the connection (DSP0274): earlier it is answered ERROR, UnexpectedRequest. -/
def State.spdmAt (s : State) (path need : Nat) (f : State → State) : State :=
  s.when (s.spdmServed path) fun s =>
    if mget 0 s.mgmt.spdm path < need then s.send (.doe path [0x13, 0x7F, 0x04, 0]) else f s

/-- The stage of a connection set. -/
def State.spdmStage (s : State) (path n : Nat) : State := { s with mgmt := { s.mgmt with spdm := mput s.mgmt.spdm path n } }

/-- GET_VERSION (R449): SPDM 1.3; the connection starts again (PRESUMED log 30). -/
def execGetVersion (path : Nat) (s : State) : Outcome State Fault Refusal :=
  .next (s.spdmAt path 0 fun s => (s.spdmStage path 1).send (.doe path [0x10, 0x04, 0, 0, 0, 1, 0x00, 0x13]))

/-- GET_CAPABILITIES (R449): certificates, challenge and signed measurements; no sessions and no key exchange (PRESUMED log 30). -/
def execGetCapabilities (path : Nat) (s : State) : Outcome State Fault Refusal :=
  .next (s.spdmAt path 1 fun s => (s.spdmStage path (max 2 (mget 0 s.mgmt.spdm path))).send (.doe path ([0x13, 0x61, 0, 0] ++ leBytes 4 0x16)))

/-- NEGOTIATE_ALGORITHMS (R449): BaseAsymAlgo none, the extended algorithm of PCI-SIG, Ongor's Vendor ID and 0x0001 (ML-DSA-44), and
SHA3-256 (PRESUMED log 30). -/
def execNegotiateAlgorithms (path : Nat) (s : State) : Outcome State Fault Refusal :=
  .next (s.spdmAt path 2 fun s =>
    (s.spdmStage path 3).send (.doe path ([0x13, 0x63, 0, 0] ++ leBytes 4 0 ++ leBytes 2 0x1F6E ++ leBytes 2 0x0001 ++ leBytes 4 8 ++ leBytes 4 8)))

/-- GET_DIGESTS (R449): the digest of slot 0's chain (PRESUMED log 30). -/
def execGetDigests (path : Nat) (s : State) : Outcome State Fault Refusal :=
  .next (s.spdmAt path 3 fun s => s.send (.doe path ([0x13, 0x01, 0, 1] ++ leBytes 32 (Config.sha3 s.flash.cert))))

/-- GET_CERTIFICATE (R448, R449): `len` bytes of slot 0's chain from `off`, with the length that remains; another slot is ERROR (PRESUMED
log 30). -/
def execGetCertificate (path slot off len : Nat) (s : State) : Outcome State Fault Refusal :=
  .next (s.spdmAt path 3 fun s =>
    if slot = 0 then
      let part := (s.flash.cert.drop off).take len
      s.send (.doe path ([0x13, 0x02, 0, 0] ++ leBytes 2 part.length ++ leBytes 2 (s.flash.cert.length - off - part.length) ++ part))
    else s.send (.doe path [0x13, 0x7F, 0x01, 0]))

/-- A signature by the identity key (FIPS 204): its bytes are free here (DESIGN CHOICE log 12). -/
def State.identitySignature (s : State) : List Byte × State := let f := s.fresh; (leBytes 2420 f.1, f.2)

/-- CHALLENGE (R449): the digest of slot 0's chain, signed with the identity key (PRESUMED log 30). -/
def execChallenge (path slot : Nat) (s : State) : Outcome State Fault Refusal :=
  .next (s.spdmAt path 3 fun s =>
    if slot = 0 then
      let sig := s.identitySignature
      sig.2.send (.doe path ([0x13, 0x03, 0, 1] ++ leBytes 32 (Config.sha3 s.flash.cert) ++ sig.1))
    else s.send (.doe path [0x13, 0x7F, 0x01, 0]))

/-- The value of a measurement block (R449). Blocks 1 to 5 hold what step 3 found. -/
def State.measurement (s : State) (index : Nat) : List Byte :=
  match index with
  | 1 => leBytes 32 Config.romDigest
  | 2 => leBytes 32 (Config.sha3 s.boot.imageHeader)
  | 3 => leBytes 1 (fwSvn s.boot.imageHeader) ++ leBytes 1 s.boot.floorAtStart
  | 4 => leBytes 32 s.boot.recordDigest
  | 5 => leBytes 4 s.fuses.grade ++ (List.range 8).flatMap (fun d => leBytes 8 (s.fuseCore d)) ++
      (List.range 8).flatMap (fun d => leBytes 8 (s.fuseDe1 d))
  | 6 => (List.range 32).flatMap fun k => leBytes 4 (s.regValue (k / 4) .SC_STATUS (k % 4) 0)
  | _ => []

/-- GET_MEASUREMENTS (R449): index 0 asks for the number of blocks, 1 to 6 for a block, 0xFF for all; signed (PRESUMED log 30). -/
def execGetMeasurements (path index : Nat) (s : State) : Outcome State Fault Refusal :=
  .next (s.spdmAt path 3 fun s =>
    let sig := s.identitySignature
    if index = 0 then s.send (.doe path [0x13, 0x60, 6, 0])
    else if index ≤ 6 then sig.2.send (.doe path ([0x13, 0x60, 0, 0, BitVec.ofNat 8 index] ++ s.measurement index ++ sig.1))
    else if index = 0xFF then
      sig.2.send (.doe path ([0x13, 0x60, 0, 0, 6] ++ [1, 2, 3, 4, 5, 6].flatMap s.measurement ++ sig.1))
    else s.send (.doe path [0x13, 0x7F, 0x01, 0]))

/-! ### I3C (R500) -/

/-- SETDASA (R500): the static address 0x50 + STRAP becomes the device's dynamic address. -/
def execSetdasa (s : State) : Outcome State Fault Refusal :=
  .next (s.whenP (s.power.mode ≠ .off ∧ s.power.i3cDynamic = none) fun s =>
    s.onPower fun p => { p with i3cStatic := some (0x50 + p.straps), i3cDynamic := some (0x50 + p.straps) })

/-- ENTDAA (R500): the module takes the dynamic address that the controller gives it. -/
def execEntdaa (addr : Nat) (s : State) : Outcome State Fault Refusal :=
  .next (s.whenP (s.power.mode ≠ .off ∧ s.power.i3cDynamic = none ∧ addr < 128) fun s =>
    s.onPower fun p => { p with i3cDynamic := some addr })

end Sys2Proof.Machine
end

