-- ==== Sys2Proof/Machine/Caravan.lean ====
section
/-! DEFINITION. The commands of the fabric and of the collectives (chapter 16), flits (R368), writes of registers (R19), and
the end of recovery (R453). -/

set_option Elab.async false

namespace Sys2Proof.Machine

open Sys2Proof Host

/-- FLIT_RECEIVE (R366 to R368, R410, R414, R415, R418). -/
def execFlitReceive (port : Nat) (data : List Byte) (s : State) : Outcome State Fault Refusal :=
  .next (s.whenP (port < 48 ∧ data.length = 256 ∧ ((s.fport port).phase = .up ∨ (s.fport port).phase = .keepAlive)) fun s => s.takeFlit port data)

/-- A whole frame of a type received on a port that carries frames. -/
def State.frameIn (s : State) (port ty : Nat) (f : List Byte) : State :=
  s.whenP (port < 48 ∧ ((s.fport port).phase = .up ∨ (s.fport port).phase = .keepAlive) ∧ 96 ≤ f.length ∧ f.length = frBytes f ∧ frType f = ty)
    fun s => (s.recvFrame port f (arrivedOn port f)).pumpAll

/-- READ (R409, R411, R417). -/
def execRead (port : Nat) (f : List Byte) (s : State) : Outcome State Fault Refusal := .next (s.frameIn port 0x01 f)

/-- WRITE (R409, R411, R417). -/
def execWrite (port : Nat) (f : List Byte) (s : State) : Outcome State Fault Refusal := .next (s.frameIn port 0x02 f)

/-- NOTICE (R293, R409, R417). -/
def execNotice (port : Nat) (f : List Byte) (s : State) : Outcome State Fault Refusal := .next (s.frameIn port 0x03 f)

/-- READ_RSP (R409, R416). -/
def execReadRsp (port : Nat) (f : List Byte) (s : State) : Outcome State Fault Refusal := .next (s.frameIn port 0x11 f)

/-- WRITE_RSP (R409, R416, R428). -/
def execWriteRsp (port : Nat) (f : List Byte) (s : State) : Outcome State Fault Refusal := .next (s.frameIn port 0x12 f)

/-- NOTICE_RSP (R293, R409, R416). -/
def execNoticeRsp (port : Nat) (f : List Byte) (s : State) : Outcome State Fault Refusal := .next (s.frameIn port 0x13 f)

/-- CREDIT (R412). -/
def execCredit (port : Nat) (f : List Byte) (s : State) : Outcome State Fault Refusal := .next (s.frameIn port 0x31 f)

/-- DOWN (R422, R427, R428). -/
def execDown (port : Nat) (f : List Byte) (s : State) : Outcome State Fault Refusal := .next (s.frameIn port 0x32 f)

/-- UP (R422). -/
def execUp (port : Nat) (f : List Byte) (s : State) : Outcome State Fault Refusal := .next (s.frameIn port 0x33 f)

/-- COLL (R424 to R427). -/
def execColl (port : Nat) (f : List Byte) (s : State) : Outcome State Fault Refusal := .next (s.frameIn port 0x21 f)

/-- FRAME_PROMOTE (R413): frame `n` of a port's output has waited longer than CF_AGE.AGE. -/
def execFramePromote (port n : Nat) (s : State) : Outcome State Fault Refusal :=
  .next (s.whenP (port < 48 ∧ n < (s.fport port).out.length) fun s =>
    (s.onFPort port fun x => { x with
      out := modAt (fun o => { o with bytes := splice o.bytes 0x18 (leBytes 1 (setBits (frHops o.bytes) 7 7 1)) }) x.out n }).pumpAll)

/-- REQUEST_TIMEOUT (R416): request `n` of the module has had no response within CF_TIMEOUT.REQ; it counts and ends REFUSED. -/
def execRequestTimeout (n : Nat) (s : State) : Outcome State Fault Refusal :=
  .next (match s.fab.reqs[n]? with
    | none => s
    | some q => s.whenP (q.result = none) fun s => (s.countFld q.d 0 0 CF_ERR.TIMEOUT 1).endRequest q 5 [])

/-! ### Collectives -/

/-- ALLREDUCE (R424). -/
def execAllreduce (d slot : Nat) (s : State) : Outcome State Fault Refusal := .next (s.startColl d slot 1)

/-- REDUCESCATTER (R424). -/
def execReducescatter (d slot : Nat) (s : State) : Outcome State Fault Refusal := .next (s.startColl d slot 2)

/-- ALLGATHER (R424). -/
def execAllgather (d slot : Nat) (s : State) : Outcome State Fault Refusal := .next (s.startColl d slot 3)

/-- HEADMERGE (R425). -/
def execHeadmerge (d slot : Nat) (s : State) : Outcome State Fault Refusal := .next (s.startColl d slot 4)

/-- COLL_TIMEOUT (R427): collective `n` of a die's engine has had no expected frame within CF_TIMEOUT.COLL. -/
def execCollTimeout (d n : Nat) (s : State) : Outcome State Fault Refusal :=
  .next (match (s.fab.colls.filter fun c => c.d = d)[n]? with
    | none => s
    | some c => s.endColl c 5 0x0050)

/-! ### Registers -/

/-- REGISTER_WRITE (R19 to R22, R385): a write of one word of register space: a host's through BAR0, an internal agent's by address. -/
def execRegisterWrite (ag : Agent) (addr : Nat) (value : Word) (s : State) : Outcome State Fault Refusal :=
  .next (s.whenP (0x3F0000000000 ≤ addr ∧ addr < 0x3F0080000000) fun s =>
    let tgt := match ag with
      | .host _ _ => Target.bar 0 (0x80000000 + (addr - 0x3F0000000000))
      | _ => Target.phys addr
    s.access ⟨ag, tgt, .write (leBytes 4 value.toNat) false⟩)

/-! ### Recovery (R452, R453) -/

/-- RECOVERY_IMAGE (R435, R453): the ROM checks the image that a transfer or a Caravan peer has brought, writes it to flash and resets the
module; a Caravan post whose image fails is answered RANGE (DESIGN CHOICE log 49). -/
def execRecoveryImage (sigOk : Bool) (s : State) : Outcome State Fault Refusal :=
  .next (match s.boot.staged with
    | none => s
    | some img => s.when s.romTakesImage fun s =>
      let answer := fun (s : State) (st : Nat) => match s.boot.recoveryPost with | some f => s.respond f st | none => s
      if s.fwRuns img sigOk then
        let s := answer s 0
        ({ s with flash := { s.flash with fw := img } }).moduleReset 3 .booting
      else (answer s 3).onBoot fun b => { b with staged := none, recoveryPost := none })

end Sys2Proof.Machine
end

