-- ==== Sys2Proof/Machine/Control.lean ====
section
/-! DEFINITION. The commands of the control core: Xkeavo instructions, control lists, general Oasis routines and interrupts (chapter 09, R287,
R288). -/

set_option Elab.async false

namespace Sys2Proof.Machine

open Sys2Proof Host Enc7

/-! ### Xkeavo (R239 to R241) -/

/-- An Xkeavo instruction (R239): rs1 holds the value `v` that the firmware left there, and x0 reads 0. -/
def State.xkeavo (s : State) (d c rs1 v : Nat) (f : Nat → State → State) : State :=
  let s := s.onCc d c fun m => m.setX rs1 v
  f ((s.core d c).cc.x rs1) s

/-- The queue fields of the OCALL that a routine serves, as (pops, QIN, pushes, QOUT). -/
def Core.ocallQueues (k : Core) : Bool × Nat × Bool × Nat :=
  match k.ocallJob with
  | some j => (oInv j.word, oQin j.word, oOutv j.word, oQout j.word)
  | none => (false, 0, false, 0)

/-- A call with one more beat that its routine has popped from queue `q`, or pushed to it (R251). -/
def Core.callPops (k : Core) (x : Call) (q : Nat) (last : Bool) : Call :=
  let o := k.ocallQueues
  if x.source ≠ 0 then x
  else if o.1 && decide (o.2.1 = q) then { x with popped := x.popped + 1, poppedLast := last }
  else { x with stray := some (x.stray.getD q) }
def Core.callPushes (k : Core) (x : Call) (q : Nat) (last : Bool) : Call :=
  let o := k.ocallQueues
  if x.source ≠ 0 then x
  else if o.2.2.1 && decide (o.2.2.2 = q) then { x with pushed := x.pushed + 1, pushedLast := last }
  else { x with stray := some (x.stray.getD q) }

/-- KPOP (R239, R240): one beat of the queue in imm[4:0] into the 64 bytes at rs1; the sideband goes to rd (DESIGN CHOICE log 54). -/
def execKpop (d c : Nat) (rs : XReg) (f : XDest) (s : State) : Outcome State Fault Refusal :=
  .next (
    match (s.core d c).routine with
    | none => s
    | some x => s.xkeavo d c rs.num rs.val fun a s =>
      let k := s.core d c
      let q := f.imm % 32
      if a % 64 ≠ 0 ∨ 0x10000 < a + 64 ∨ 32 ≤ f.imm then s.illegalX d c
      else
        match mget [] k.queues q with
        | [] =>
          if k.pending q x.replay then s.onCc d c fun m => { m with hold := some (.pop q) }
          else s.streamFault d c 1 true q 0 (match k.ocallJob with | some j => j.index | none => 0) x.replay
        | b :: bs =>
          (s.onCore d c fun k =>
            let m := (k.cc.write a b.data).setX f.rd (flag b.last * 32 + (match b.tok with | some t => 16 + t | none => 0))
            let k := { k with
              queues := mput k.queues q bs
              cc := { m with call := some (k.callPops x q b.last), hold := none } }
            if x.source = 0 then k.countPop x.replay q else k).settle d c)

/-- KPUSH (R239, R240): the 64 bytes at rs1 as one beat of queue `q`, imm[4:0], with LAST, TV and TOKEN from `side`, imm[11:5], waiting while it is
full; rd must be x0. -/
def execKpush (d c rd rs1 v q side : Nat) (s : State) : Outcome State Fault Refusal :=
  .next (
    match (s.core d c).routine with
    | none => s
    | some x => s.xkeavo d c rs1 v fun a s =>
      let k := s.core d c
      let q := q % 32
      let token := bits side 5 2
      if a % 64 ≠ 0 ∨ 0x10000 < a + 64 ∨ 64 ≤ side ∨ rd ≠ 0 then s.illegalX d c
      else if 32 ≤ (mget [] k.queues q).length then s.onCc d c fun m => { m with hold := some (.push q) }
      else
        let b : Beat := ⟨k.cc.bytes a 64, bit side 0, if bit side 1 then some token else none⟩
        let s := s.onCore d c fun k =>
          let k := { k with
            queues := mput k.queues q (mget [] k.queues q ++ [b])
            cc := { k.cc with call := some (k.callPushes x q b.last), hold := none } }
          if x.source = 0 then k.countPush x.replay q else k
        let s := if bit side 1 then s.credit d c token x.replay true (match k.ocallJob with | some j => j.index | none => 0) else s
        if (s.core d c).faulted.isSome then s else s.settle d c)

/-- A parameter register written with a value (R239, R240) (DESIGN CHOICE log 37). -/
def Core.kpwr (k : Core) (v n : Nat) (ps slot : Bool) : Core :=
  if ps then { k with strides := k.strides.set n v }
  else if slot then
    (match k.patchDue with
     | some r => k.onSlot r fun z => { z with params := z.params.set n v }
     | none => k)
  else { k with params := k.params.set n v, written := if k.sa.inBlock || k.sx.inBlock then insertNat n k.written else k.written }

/-- KPWR (R239, R240): the 8 bytes at rs1 to Pn or PSn, `n` in imm[5:0] and PS in imm[6], the lowest bit of `side`; with SLOT, imm[7], to Pn of the
slot being formed, which is legal only while patches are applied. -/
def execKpwr (d c rs1 v n side : Nat) (s : State) : Outcome State Fault Refusal :=
  .next (s.xkeavo d c rs1 v fun a s =>
    if 0x10000 < a + 8 ∨ 4 ≤ side ∨ (bit side 1 = true ∧ (bit side 0 = true ∨ (s.core d c).patchDue.isNone = true)) then s.illegalX d c
    else s.onCore d c fun k => k.kpwr (leNat (k.cc.bytes a 8)) (n % 64) (bit side 0) (bit side 1))

/-- KPRD (R239): the current Pn or PSn into the 8 bytes at rs1. -/
def execKprd (d c rs1 imm v : Nat) (s : State) : Outcome State Fault Refusal :=
  .next (s.xkeavo d c rs1 v fun a s =>
    if 0x10000 < a + 8 ∨ 0x80 ≤ imm then s.illegalX d c
    else s.onCore d c fun k =>
      { k with cc := k.cc.write a (leBytes 8 (((if bit imm 6 then k.strides else k.params)[imm % 64]?).getD 0)) })

/-- KSUMPOP (R239, R241): the head of the summary FIFO discarded; rd is 1 when there was one. -/
def execKsumpop (core : CoreId) (f : XDest) (s : State) : Outcome State Fault Refusal :=
  .next (
    if f.imm ≠ 0 then s.illegalX core.d core.c
    else (s.onCc core.d core.c fun m => { m with fifo := m.fifo.drop 1 }.setX f.rd (flag (!m.fifo.isEmpty))).settle core.d core.c)

/-- KWAIT (R239, R278): imm[0] is CONSUME. -/
def execKwait (d c : Nat) (rs : XReg) (imm : Nat) (s : State) : Outcome State Fault Refusal :=
  .next (
    match (s.core d c).routine with
    | none => s
    | some _ => s.xkeavo d c rs.num rs.val fun off s =>
      if off % 64 ≠ 0 ∨ spmSize ≤ off ∨ 2 ≤ imm then s.illegalX d c
      else s.onCore d c fun k =>
        if k.isFull off then k.passCc off (bit imm 0) else { k with cc := { k.cc with hold := some (.word off (bit imm 0)) } })

/-- KSIGNAL (R239, R279, R280). -/
def execKsignal (d c : Nat) (f : XSrc) (s : State) : Outcome State Fault Refusal :=
  .next (
    match (s.core d c).routine with
    | none => s
    | some _ => s.xkeavo d c f.rs.num f.rs.val fun off s =>
      if off % 64 ≠ 0 ∨ spmSize ≤ off ∨ f.imm ≠ 0 then s.illegalX d c else s.signalWord d c off)

/-- KBARRIER (R239, R283): the control core arrives with the mask in imm[3:0], or waits while the word is full. -/
def execKbarrier (d c : Nat) (rs : XReg) (imm : Nat) (s : State) : Outcome State Fault Refusal :=
  .next (
    match (s.core d c).routine with
    | none => s
    | some _ => s.xkeavo d c rs.num rs.val fun off s =>
      if off % 64 ≠ 0 ∨ spmSize ≤ off ∨ 16 ≤ imm then s.illegalX d c
      else (s.onCc d c fun m => { m with hold := some (.arrive off imm) }).ccArrives d c off)

/-! ### Control lists (R242 to R244) -/

/-- The control-list entry that is executed. -/
def Ctl.entryBytes (m : Ctl) : List Byte := m.bytes (m.listAt + 16 * m.entry) 16

/-- The fields of an entry. -/
def enOp (e : List Byte) : Nat := field e 0 1
def enA (e : List Byte) : Nat := field e 1 1
def enB (e : List Byte) : Nat := field e 2 2
def enC (e : List Byte) : Nat := field e 4 4
def enD (e : List Byte) : Nat := field e 8 8

/-- An entry executed: the control list runs, no routine is called, and the entry holds operation `op`. -/
def State.listStep (s : State) (d c op : Nat) (f : List Byte → State → State) : State :=
  let k := s.core d c
  let e := k.cc.entryBytes
  s.when (decide (k.cc.mode = 1) && k.cc.call.isNone && k.faulted.isNone && decide (enOp e = op)) (f e)

/-- The dispatcher goes on at entry `n`. -/
def Ctl.goto (m : Ctl) (n : Nat) : Ctl := { m with entry := n }

/-- RUN (R243): the summary FIFO is emptied and both streams start at the pair's entry points. -/
def execRun (d c : Nat) (s : State) : Outcome State Fault Refusal :=
  .next (s.listStep d c 1 fun e s =>
    s.onCore d c fun k =>
      let p := mget (0, 0) k.pairs (enA e)
      { k with
        sa := { freshStream with running := true, pc := p.1 }
        sx := { freshStream with running := true, pc := p.2 }
        checked := 0
        cc := { k.cc with fifo := [], mode := 3 } })

/-- Whether a BRANCH's condition holds for a summary (R243). -/
def branchTaken (a cc sum : Nat) : Bool :=
  let flags := bits sum 108 104 &&& cc % 32
  let v := bits sum 31 0
  match a with
  | 0 => decide (flags ≠ 0)
  | 1 => decide (flags = 0)
  | 2 => decide (v = cc)
  | 3 => decide (v ≠ cc)
  | 4 => decide (v < cc)
  | 5 => decide (cc ≤ v)
  | 6 => (f32 v).lt (f32 cc)
  | 7 => !(f32 v).isNan && !(f32 cc).isNan && !(f32 v).lt (f32 cc)
  | _ => false

/-- BRANCH (R243, R244): the head summary is popped and decides; an empty FIFO is CC_SUMMARY_EMPTY. -/
def execBranch (d c : Nat) (s : State) : Outcome State Fault Refusal :=
  .next (s.listStep d c 2 fun e s =>
    let m := (s.core d c).cc
    match m.fifo with
    | [] => s.ccFault d c 3 0 m.entry 0
    | sum :: rest =>
      (s.onCc d c fun m => ({ m with fifo := rest } : Ctl).goto (if branchTaken (enA e) (enC e) sum then enB e else m.entry + 1)).settle d c)

/-- JUMP (R243). -/
def execJump (d c : Nat) (s : State) : Outcome State Fault Refusal :=
  .next (s.listStep d c 3 fun e s => s.onCc d c fun m => m.goto (enB e))

/-- LOOP (R243): a disarmed counter is armed with C − 1; a nonzero one is decremented and taken back to B; otherwise it is disarmed. -/
def execLoop (d c : Nat) (s : State) : Outcome State Fault Refusal :=
  .next (s.listStep d c 4 fun e s => s.onCc d c fun m =>
    let v := (mfind m.counters (enA e)).getD (enC e - 1)
    if v = 0 then ({ m with counters := mdel m.counters (enA e) } : Ctl).goto (m.entry + 1)
    else ({ m with counters := mput m.counters (enA e) (v - 1) } : Ctl).goto (enB e))

/-- CALL (R243): the routine runs with the entry's argument; the list goes on when it returns. -/
def execCall (d c : Nat) (s : State) : Outcome State Fault Refusal :=
  .next (s.listStep d c 5 fun e s => s.onCc d c fun m =>
    { m with call := some ⟨1, enB e, enD e, 0, none, 0, false, 0, false, none, none⟩, lastSource := 1, lastId := enB e })

/-- SETP (R243): the value into Pn. -/
def execSetp (d c : Nat) (s : State) : Outcome State Fault Refusal :=
  .next (s.listStep d c 6 fun e s => s.onCore d c fun k =>
    let k := k.kpwr (enD e) (enA e) false false
    { k with cc := k.cc.goto (k.cc.entry + 1) })

/-- The core's part of its task noted as done. -/
def State.coreDone (s : State) (d c : Nat) : State :=
  { s with ldr := { s.ldr with tasks := s.ldr.tasks.map fun t =>
      if (s.core d c).task = some t.id then { t with done := insertNat (d * 64 + c) t.done } else t } }

/-- DONE (R120, R243): once every mirage check has passed and every accepted transfer has completed, the core's part of the task ends. -/
def execDone (d c : Nat) (s : State) : Outcome State Fault Refusal :=
  .next (s.listStep d c 7 fun _ s =>
    let k := s.core d c
    if k.checks.isEmpty && k.de0.isEmpty && k.de1.isEmpty then
      (s.onCc d c fun m => { m with mode := 0, counters := [] }).coreDone d c
    else s)

/-! ### General routines (R247, R248) -/

/-- A routine's step: it runs with this ID and has not ended. -/
def State.inRoutine (s : State) (d c id : Nat) (f : Call → State → State) : State :=
  match (s.core d c).routine with
  | some x => if x.id = id then f x s else s
  | none => s

/-- NOP. -/
def execNop (d c : Nat) (s : State) : Outcome State Fault Refusal :=
  .next (s.inRoutine d c 0x001 fun x s => if x.source = 0 then s.routinePushes d c [] else s.routineEnds d c 0)

/-- The index that a routine pushes for its logits, or its failure on a NaN (R247). -/
def State.tokenRoutine (s : State) (d c id : Nat) (pick : Call → State → List Nat → Nat × State) : State :=
  s.inRoutine d c id fun x s =>
    match (s.core d c).ocallInput with
    | none => s
    | some logits =>
      if logits.any f32IsNan then s.routineEnds d c 1
      else if logits.all (· = negInf32) then s.routinePushes d c (laneZero 0xFFFFFFFF)
      else
        let r := pick x s logits
        r.2.routinePushes d c (laneZero r.1)

/-- SAMPLE (R247, DESIGN CHOICE log 14): the index of an unmasked logit; the spec states no algorithm, so which one is open. -/
def execSample (d c : Nat) (s : State) : Outcome State Fault Refusal :=
  .next (s.tokenRoutine d c 0x010 fun x s logits =>
    let ok := indicesOf (· ≠ negInf32) logits
    let m := (s.core d c).cc
    let f := s.fresh
    ((ok[Config.sampleIndex logits (m.bytes x.arg 64) m.seed f.1 % ok.length]?).getD 0, f.2))

/-- ARGMAX (R247, R123). -/
def execArgmax (d c : Nat) (s : State) : Outcome State Fault Refusal :=
  .next (s.tokenRoutine d c 0x011 fun _ s logits => (argBest (fun a b => (f32 a).lt (f32 b)) logits, s))

/-- Rows of `n` words. -/
def rowsOf (n : Nat) : Nat → List Nat → List (List Nat)
  | 0, _ => []
  | fuel + 1, ws => if ws.isEmpty then [] else ws.take n :: rowsOf n fuel (ws.drop n)

/-- The mean of FP32 words, summed exactly, as an FP32 word; NaN or an infinity where a term is one. -/
def meanWord (xs : List Num) : Nat :=
  match Num.sum xs with
  | .fin neg m e => let x := ratOf m e
                    f32OfRat neg x.1 (x.2 * xs.length)
  | y => to32 y

/-- 1/√(mean of squares + ε) of FP32 values within 1 unit in the last place (R228): the squares are summed exactly, so that no sum overflows
(DESIGN CHOICE log 14). -/
def rmsScale (eps : Nat) (xs : List Num) : Nat :=
  match (Num.sum (xs.map fun x => x.mul x)).add ((f32 eps).mul (.fin false xs.length 0)) with
  | .fin neg m e =>
    if m = 0 then posInf32
    else if neg then nan32
    else
      -- √(n / (m × 2^e)) = n / √(n × m × 2^e)
      let r := rsqrtRat (xs.length * m) e
      freeUlp 12 1 ((xs.map to32).foldl (fun a w => a * 2 ^ 32 + w) eps) false (xs.length * r.1) r.2
  | .inf _ => 0
  | .nan => nan32

/-- A row normalised in FP32 (R247): x / √(mean x² + ε), for a LAYERNORM of x less the row's mean; a row that holds a NaN gives NaNs (R105)
(DESIGN CHOICE log 14). -/
def normRowOf (layer : Bool) (eps : Nat) (row : List Nat) : List Nat :=
  let xs := row.map f32
  if xs.any Num.isNan then row.map fun _ => nan32
  else
    let ys := if layer then row.map fun w => f32Sub w (meanWord xs) else row
    let r := rmsScale eps (ys.map f32)
    ys.map fun y => f32Mul y r

/-- A fall-back normalisation (R247): as many beats as it pops; the argument names ε and the row length, whose places in the block no rule states
(DESIGN CHOICE log 14). -/
def State.normFallback (s : State) (d c id : Nat) : State :=
  s.inRoutine d c id fun x s =>
    match (s.core d c).ocallInput with
    | none => s
    | some ws =>
      let blk := (s.core d c).cc.bytes x.arg 64
      let out := (rowsOf (Config.normRow blk + 1) ws.length ws).flatMap (normRowOf (id = 0x021) (Config.normEps blk % 2 ^ 32))
      s.routinePushes d c (toBeats (out.flatMap (leBytes 4)) (ws.length / 16 + 1))

/-- RMSNORM_FB. -/
def execRmsnormFb (d c : Nat) (s : State) : Outcome State Fault Refusal := .next (s.normFallback d c 0x020)

/-- LAYERNORM_FB. -/
def execLayernormFb (d c : Nat) (s : State) : Outcome State Fault Refusal := .next (s.normFallback d c 0x021)

/-- SEED (R247): the seed of later SAMPLEs. -/
def execSeed (d c : Nat) (s : State) : Outcome State Fault Refusal :=
  .next (s.inRoutine d c 0x030 fun x s => (s.onCc d c fun m => { m with seed := x.arg }).routineEnds d c 0)

/-- Whether a post block holds no reserved value (R248). -/
def postOk (b : List Byte) : Bool :=
  let kind := field b 0x0C 1
  let slot := field b 0x0D 1
  let wher := field b 0x0E 1
  decide (1 ≤ kind ∧ kind ≤ 3 ∧ field b 0x0F 1 < 2 ∧ field b 0x13 1 = 0 ∧ field b 0x15 11 = 0) &&
    (if kind = 1 then decide (wher < 32 ∧ field b 0x10 2 = 0 ∧ field b 0x12 1 = 0)
     else if kind = 2 then decide (slot < 16 ∧ wher = 0 ∧ field b 0x10 2 = 0 ∧ field b 0x12 1 = 0)
     else decide (wher < 8 ∧ field b 0x10 2 < 2 ^ 14))

/-- The outcome written into RESULT and pushed. -/
def State.postEnds (s : State) (d c at_ code : Nat) : State :=
  (s.onCc d c fun m => { m.write (at_ + 0x14) (leBytes 1 code) with postTries := 0, postLast := false }).routinePushes d c (laneZero code)

/-- The owner of the Caravan notice of a POST_NOTICE. -/
def postOwner (d c : Nat) : Nat × Nat × Nat × Nat := (8, d * 64 + c, 0, 0)

/-- One attempt of POST_NOTICE (R51, R248), once the control core's earlier writes are visible: a full slot is tried again with WAIT unless
this was the last attempt; a Caravan notice waits for its response. -/
def State.postTry (s : State) (d c at_ : Nat) (last : Bool) : State :=
  let b := (s.core d c).cc.bytes at_ 32
  let last := last || (s.core d c).cc.postLast
  let full := fun (s : State) =>
    if field b 0x0F 1 = 1 ∧ last = false then s.onCc d c fun m => { m with postTries := 1 } else s.postEnds d c at_ 2
  if s.writePending (.cc d c) then s
  else if field b 0x0C 1 = 3 then
    match (s.reqsOf (· == postOwner d c)).head? with
    | none =>
      (s.request d c 3 (carAddr (field b 0x10 2) (field b 0x0E 1) (field b 0x12 1)) (field b 0x0D 1) 0 64
        (noticePayload (field b 0 8) (field b 8 4)) (postOwner d c)).onCc d c fun m => { m with postTries := 0, postLast := last }
    | some q =>
      match q.result with
      | none => s
      | some (st, _) =>
        let s := s.dropReqs (· == postOwner d c)
        if st = 2 then full s else s.postEnds d c at_ st
  else
    let (dd, kk) := if field b 0x0C 1 = 1 then (field b 0x0E 1 / 4, field b 0x0E 1 % 4) else (8, 0)
    match s.post (senderCc d c) dd kk (field b 0x0D 1) (field b 0 8) (field b 8 4) with
    | (s, .ok) => s.postEnds d c at_ 0
    | (s, .full) => full s
    | (s, .denied) => s.postEnds d c at_ 3

/-- POST_NOTICE (R248): a reserved value, or a block outside the task region, is status 0x001; otherwise the first attempt, or for a Caravan
notice its response (DESIGN CHOICE log 39). -/
def execPostNotice (d c : Nat) (s : State) : Outcome State Fault Refusal :=
  .next (s.inRoutine d c 0x040 fun x s =>
    if 0xC000 < x.arg + 32 ∨ postOk ((s.core d c).cc.bytes x.arg 32) = false then s.routineEnds d c 1
    else if (s.core d c).cc.postTries = 0 then s.postTry d c x.arg false
    else s)

/-- POST_NOTICE_RETRY (R248): with WAIT, another attempt after 1 µs; `last` once 1 ms has passed since the first. -/
def execPostNoticeRetry (d c : Nat) (last : Bool) (s : State) : Outcome State Fault Refusal :=
  .next (s.inRoutine d c 0x040 fun x s => if (s.core d c).cc.postTries = 0 then s else s.postTry d c x.arg last)

/-! ### Returns and interrupts -/

/-- The queue in which a returning routine's counts differ from its OCALL's (R251): QIN, by its beats or, with a count of 0, by its LAST; a
queue that it used without the OCALL naming it; or QOUT. -/
def queueOff (j : Job) (x : Call) : Option Nat :=
  let w := j.word
  let last := j.poppedAll 0 || x.poppedLast
  if oInv w && (if oInBeats w = 0 then !last else decide (x.popped + j.popped 0 ≠ oInBeats w)) then some (oQin w)
  else if x.stray.isSome then x.stray
  else if oOutv w && (if oOutBeats w = 0 then !x.pushedLast else decide (x.pushed ≠ oOutBeats w)) then some (oQout w)
  else none

/-- OCALL_RETURN (R250 to R252): the routine that serves the OCALL returns. Status 0 needs a routine that ended so and has pushed its beats: then
counts are checked, the OCALL retires and its token is due. Any other status is OASIS_FAIL. -/
def execOcallReturn (d c status : Nat) (s : State) : Outcome State Fault Refusal :=
  .next (
    let k := s.core d c
    match k.cc.call, k.ocallJob with
    | some x, some j =>
      if x.source ≠ 0 ∨ k.faulted.isSome = true ∨ k.cc.held = true then s
      else if status ≠ 0 then (if x.status = none ∨ x.status = some status then s.oasisFail d c x status else s)
      else if x.status = some 0 ∧ j.pushes = [] then
        match queueOff j x with
        | some q => s.ccFault d c 2 x.id q x.replay
        | none =>
          (s.onCore d c fun k =>
            ({ k with jobs := k.jobs.filter (·.id ≠ j.id), cc := { k.cc with call := none } } : Core).due j.word j.replay true j.index
              |>.dispatch).settle d c
      else s
    | _, _ => s)

/-- SYNC_STALL (R287, R288): the timer reaches its interval while the streams run; the waits are latched, the stall record is kept, and the
task is due for abort. -/
def execSyncStall (d c : Nat) (s : State) : Outcome State Fault Refusal :=
  .next (
    let k := s.core d c
    s.when (decide (k.sfeState = 1 ∨ k.sfeState = 2)) fun s =>
      let arg := fun (x : Bool) => (k.waitCode d c x).2
      let info := k.stallInfo d c
      let s := ((s.setReg d .SYNC_STALL_INFO c 0 (BitVec.ofNat 32 info)).setReg d .SYNC_STALL_ARG_A c 0 (BitVec.ofNat 32 (arg false))).setReg
        d .SYNC_STALL_ARG_X c 0 (BitVec.ofNat 32 (arg true))
      (s.onCc d c fun m => { m.took 20 with stall := k.stallRecord info (arg false) (arg true) }).coreFault d c 0x4703 info)

/-- CC_DMA_ERROR_INTERRUPT (R245): a transfer that the control core issued has completed with a status other than OK. While a routine runs it
waits; then the status is returned to the routine that issued the transfer (DESIGN CHOICE log 54). -/
def execCcDmaErrorInterrupt (d c : Nat) (x : DmaEnd) (s : State) : Outcome State Fault Refusal :=
  .next (s.whenP (x.status ≠ 0) fun s => s.onCore d c fun k =>
    ({ k with cc := { k.cc with dmaDue := some (k.cc.dmaDue.getD x.status) } } : Core).dispatch)

end Sys2Proof.Machine
end

