-- ==== Sys2Proof/Machine/Faults.lean ====
section
/-! DEFINITION. The commands of fault collection and the safe state (chapter 18). -/

set_option Elab.async false

namespace Sys2Proof.Machine

open Sys2Proof Host

/-- A core retired until module reset (R462). -/
def State.retireCore (s : State) (d c : Nat) : State :=
  let f := if c < 32 then FCU_CORE_RETIRED_LO.RETIRED else FCU_CORE_RETIRED_HI.RETIRED
  let s := s.setFld d 0 0 f (s.fld d 0 0 f ||| 2 ^ (c % 32))
  s.raise d 0x4E01 (.core c) 0 0

/-- Ticks of 10 ns in one hour. -/
def hourTicks : Nat := 360000000000

/-- A class D fault in a core (R461, R462): its time is kept, with whether another fell within the hour before, the core stops as
under STOP, and its logic test starts. -/
def State.coreFaulted (s : State) (d c : Nat) : State :=
  let k := d * 64 + c
  let now := s.time d
  let twice := match mfind s.fcu.lastD k with | some (t, _) => decide (now ≤ t + hourTicks) | none => false
  let s := s.onFcu fun f => { f with lastD := mput f.lastD k (now, twice) }
  let t : SelfTest := ⟨⟨5, k⟩, false, false, true⟩
  if s.mgmt.tests.any (fun x => x.unit = ⟨5, k⟩ && !x.byMgmt) || s.coreRetired d c then s
  else s.onMgmt fun m => { m with tests := m.tests ++ [t] }

/-- A class D fault in a bank arithmetic unit, substitute unit or merge unit (R461): the stack's BAUs are suspect and the bank
arithmetic self-test starts. -/
def State.bauFaulted (s : State) (d j : Nat) : State :=
  let s := s.setFld d 0 0 FCU_SUSPECT.BAU (s.fld d 0 0 FCU_SUSPECT.BAU ||| 2 ^ j)
  let t : SelfTest := ⟨⟨3, 4 * d + j⟩, false, false, true⟩
  if s.mgmt.tests.any (fun x => x.unit = ⟨3, 4 * d + j⟩ && !x.memory) then s
  else s.onMgmt fun m => { m with tests := m.tests ++ [t] }

/-- A fault and the reaction that its class asks of the FCU (R456): class D in a core or in bank arithmetic is contained under R461 and
R462, and a bank sequence that meets it completes with POISON (R146); a fault with a task is due for TASK_ABORT under its owning rule; class
M goes to the safety ring. -/
def State.raiseAndReact (s : State) (d id : Nat) (u : FaultUnit) (task detail : Nat) : State :=
  let s := match u with | .core c => if id = 0x0301 then s.countFld d c 0 SPM_ECC_COUNT.CORRECTED 1 else s | _ => s
  let s := s.raise d id u task detail
  if faultClass id = 2 then
    match u with
    | .core c => (s.coreFaulted d c).taskFault id d c
    | .sc j => (if id = 0x8201 ∨ id = 0x8202 then s.seqFault detail else s).bauFaulted d j
    | _ => s
  else if faultClass id = 1 then
    match u with
    | .core c => s.taskFault id d c
    | _ => s
  else s

/-- FAULT_RECORD (R456, R458, R472): an identifier of R457 detected on a die. -/
def execFaultRecord (d id : Nat) (unit : FaultUnit) (task detail : Nat) (s : State) : Outcome State Fault Refusal :=
  .next (s.whenP (d < 8 ∧ faultIds.contains id = true) fun s => s.raiseAndReact d id unit task detail)

/-- SAFE_STATE_ENTRY (R465, R466): the first class M fault on the safety ring is decided; every die stops work, writes are blocked
and rows closed, work is abandoned, host ports report the error, FAULT changes and DOWN is sent on every fabric port that is up. -/
def execSafeStateEntry (s : State) : Outcome State Fault Refusal :=
  .next (match s.fcu.safetyRing with
    | [] => s
    | (_, id) :: _ =>
      if s.power.mode = .safe ∨ s.power.mode = .off then s
      else
        let s := (List.range 8).foldl (fun s d => (s.setFld d 0 0 FCU_STATUS.SAFE 1).setFld d 0 0 FCU_STATUS.FIRST_M id) s
        let s := s.sendDowns
        let s := s.abandonWork
        let now := s.time 0
        let s := s.onFcu fun f => { f with safetyRing := [], safeSince := some now }
        let s := { s with banks := [] }
        let s := s.onMem fun m => { m with held := [], snoops := [], obtained := [], owned := [] }
        let s := s.sleepStacks
        let s := s.onPower fun p => { p with mode := .safe, pulse := true }
        let s := (List.range 8).foldl (fun s p => s.send (.aer p)) s
        s.drivePin)

/-- FCU_LOCKSTEP (R469): a mismatch of D0's and D1's decisions, or silence of a die's safety ring connection. -/
def execFcuLockstep (d : Nat) (s : State) : Outcome State Fault Refusal :=
  .next (s.whenP (d < 8) fun s => s.raise d 0xCD01 .die 0 0)

/-- FCU_SELF (R468): collector registers disagree or fail parity. -/
def execFcuSelf (d : Nat) (s : State) : Outcome State Fault Refusal :=
  .next (s.whenP (d < 8) fun s => s.raise d 0xCD02 .die 0 0)

/-- TIMEBASE_CHECK (R459): a 100 µs window in which the two oscillators differed by `ppm`; above 1 % it is FCU_TIMEBASE. -/
def execTimebaseCheck (d ppm : Nat) (s : State) : Outcome State Fault Refusal :=
  .next (s.whenP (d < 8 ∧ 10000 < ppm) fun s => s.raise d 0xCD03 .die 0 0)

/-- Whether temperatures and input allow the automatic reset (R467). -/
def State.restartReady (s : State) : Bool :=
  let v := s.fld 0 0 0 PTM_INPUT.VOLTAGE
  decide (s.fld 0 0 0 FCU_SAFE_CFG.RESTART ≠ 0) && !s.power.busShut && decide (4400 ≤ v ∧ v ≤ 6000) &&
    (List.range 8).all fun d => loopSensors.all fun i =>
      match s.validTemp d i with
      | some t => decide (80 ≤ t) && (if i < 0x60 then decide (t < 1520) else decide (t ≤ 1520))
      | none => true

/-- AUTOMATIC_RESET (R467): RESTART seconds after entry into Safe, a module reset with cause 0x4. -/
def execAutomaticReset (s : State) : Outcome State Fault Refusal :=
  .next (s.when (decide (s.power.mode = .safe) && s.restartReady) fun s => s.moduleReset 4 .booting)

/-- FAULT_LOG_FLUSH (R472): D0 writes the waiting records to flash. -/
def execFaultLogFlush (s : State) : Outcome State Fault Refusal := .next s.flushLog

/-- HEARTBEAT_TOGGLE (R470): the square wave's next half period, in heartbeat mode from boot step 3, outside Safe and HOLD. -/
def execHeartbeatToggle (s : State) : Outcome State Fault Refusal :=
  .next (s.whenP (s.boot.locked = true ∧ s.power.mode ≠ .safe ∧ s.power.mode ≠ .off ∧ s.fld 0 0 0 FCU_PIN_CFG.MODE = 0 ∧
      s.fld 0 0 0 FCU_PIN_HOLD.HOLD = 0) fun s =>
    s.onPower fun p => { p with pin := if p.pin = .high then .low else .high })

/-- FAULT_PULSE_END (R470): after at least 500 µs low in pulse mode, FAULT returns high unless HOLD is 1. -/
def execFaultPulseEnd (s : State) : Outcome State Fault Refusal :=
  .next (s.whenP (s.power.mode = .safe ∧ s.power.pulse = true) fun s => (s.onPower fun p => { p with pulse := false }).drivePin)

/-- FCU_PIN_HOLD_WRITE (R471): a write of FCU_PIN_HOLD on D0, in every state. -/
def execFcuPinHoldWrite (value : Word) (s : State) : Outcome State Fault Refusal :=
  .next (s.whenP (s.power.mode ≠ .off) fun s => s.writeHold value.toNat)

/-- CORE_LOGIC_TEST_DONE (R447, R462): the test of core `c` ends. After a class D fault, a core that fails, or that had another
within the hour, is retired; one that fails under SELFTEST is handled as a core fault. -/
def execCoreLogicTestDone (d c : Nat) (pass : Bool) (s : State) : Outcome State Fault Refusal :=
  .next (match s.mgmt.tests.find? fun t => t.unit = ⟨5, d * 64 + c⟩ && t.started with
    | none => s
    | some t =>
      let s := s.onMgmt fun m => { m with tests := m.tests.filter (· ≠ t) }
      let twice := match mfind s.fcu.lastD (d * 64 + c) with | some (_, b) => b | none => false
      let s := if !pass || (twice && !t.byMgmt) then s.retireCore d c else s
      if t.byMgmt then s.mgmtComplete 0 0 (if pass then 0 else 1) else s)

/-- BAU_SELFTEST_DONE (R447, R461): the bank arithmetic test of a stack ends; failing bank groups move to the substitute units
until module reset, the suspect mark clears, and tokens are granted again. -/
def execBauSelftestDone (stk : Nat) (failed : List Nat) (s : State) : Outcome State Fault Refusal :=
  .next (match s.mgmt.tests.find? fun t => t.unit = ⟨3, stk⟩ && !t.memory with
    | none => s
    | some t =>
      let gs := failed.filter (· < 16)
      let s := s.onMgmt fun m => { m with tests := m.tests.filter (· ≠ t) }
      let s := s.onStack stk fun st => { st with substitutes := gs.foldl (fun l g => insertNat g l) st.substitutes }
      let d := stk / 4
      let s := s.setFld d 0 0 FCU_SUSPECT.BAU (s.fld d 0 0 FCU_SUSPECT.BAU &&& (15 - 2 ^ (stk % 4)))
      if t.byMgmt then s.mgmtComplete 0 0 (ofBitSet gs) else s)

/-- The identity under which a link or an on-die segment retrains: DLn by n, die d's segment by 16 + d. -/
def linkName (d : Nat) (linkEnd : Option Nat) : Option Nat :=
  match linkEnd with
  | some e => (dieLinks d)[e]?
  | none => some (16 + d)

/-- A link taken down (R463): DDL_LINK_DOWN on each of its dies, and DDL_ISOLATED for a die with none left; waiting traffic takes the
detour. -/
def State.linkDown (s : State) (n : Nat) : State :=
  if s.fcu.linksDown.contains n then s
  else
    let s := s.onFcu fun f => { f with linksDown := insertNat n f.linksDown, retraining := f.retraining.filter (· ≠ n) }
    let note := fun (s : State) (d : Nat) =>
      let s := s.raise d 0x4F02 (.linkEnd ((dieLinks d).findIdx (· = n))) 0 0
      if (dieLinks d).all (s.fcu.linksDown.contains ·) then s.raise d 0xCF03 .die 0 0 else s
    (note (note s (linkDies n).1) (linkDies n).2).retry

/-- NOC_PARITY (R459, R461, R463): a parity error where die `d` receives, on its link end or an on-die segment. The access that
carried the data completes POISON at its requester; the link or segment retrains once, and a second error on a link within 1 s takes it
down. -/
def execNocParity (d : Nat) (linkEnd : Option Nat) (victim : Option (Agent × Target × Bool)) (s : State) : Outcome State Fault Refusal :=
  .next (match linkName d linkEnd with
    | none => s
    | some n =>
      s.whenP (d < 8) fun s =>
        let unit := match linkEnd with | some e => FaultUnit.linkEnd e | none => FaultUnit.die
        let s := s.raise d 0x8F01 unit 0 0
        let s := match victim with
          | some (ag, tgt, rd) =>
            s.answer ⟨ag, tgt, if rd then .read 64 0 else .write [] false⟩ (match ag with
              | .host _ _ => .poison
              | .peer _ _ _ => .status 4 0
              | _ => .busError)
          | none => s
        let now := s.time d
        let again := match mfind s.fcu.linkParity n with | some t => decide (now ≤ t + 100000000) | none => false
        let s := s.onFcu fun f => { f with linkParity := mput f.linkParity n now }
        if again && linkEnd.isSome then s.linkDown n
        else if s.fcu.linksDown.contains n then s
        else s.onFcu fun f => { f with retraining := insertNat n f.retraining })

/-- LINK_RETRAIN_DONE (R463): a retrain ends within 20 µs and held accesses cross, or it does not and a link goes down. -/
def execLinkRetrainDone (d : Nat) (linkEnd : Option Nat) (ok : Bool) (s : State) : Outcome State Fault Refusal :=
  .next (match linkName d linkEnd with
    | none => s
    | some n =>
      s.when (s.fcu.retraining.contains n) fun s =>
        if ok || linkEnd.isNone then (s.onFcu fun f => { f with retraining := f.retraining.filter (· ≠ n) }).retry
        else s.linkDown n)

/-- DDL_LINK_DOWN (R463): link DLn goes down after a second error or a retrain over 20 µs. -/
def execDdlLinkDown (dl : Nat) (s : State) : Outcome State Fault Refusal :=
  .next (s.whenP (dl < 10 ∧ (mfind s.fcu.linkParity dl).isSome = true) fun s => s.linkDown dl)

end Sys2Proof.Machine
end

