-- ==== Sys2Proof/Machine/Execute.lean ====
section
/-! DEFINITION. The commands that the execute stream issues to the matrix and vector engines, and the mirage check (chapters 07, 08). -/

set_option Elab.async false

namespace Sys2Proof.Machine

open Sys2Proof Host Enc7

/-- An instruction of the execute stream issued to its engine (R174): with a second slot value, and a base for a gather's table. -/
def State.issueX (s : State) (d c o : Nat) (fnOk : Nat → Bool) (base arg : Core → Nat → Nat) : State :=
  let k := s.core d c
  let w := k.next true
  s.when (k.issues true o && fnOk w && k.engineFree (engineOf w)) fun s =>
    let j := k.newJob true (base k w) (arg k w) false []
    (s.onCore d c fun k => (k.issued true).addJob j).settle d c

/-- A VOP with function code `fn` issued; its VL register read from the replay's slot (R207). -/
def State.issueVop (s : State) (d c fn : Nat) : State :=
  s.issueX d c opVOP (fun w => vFn w = fn) (fun _ _ => 0) fun k w => k.preg k.sx.replay (vVl w % 64)

/-- MMA (R220). -/
def execMma (d c : Nat) (s : State) : Outcome State Fault Refusal :=
  .next (s.issueX d c opMMA (fun _ => true) (fun _ _ => 0) fun _ _ => 0)

/-- VADD (R205, R228): elementwise sum, FN 0x01. -/
def execVadd (d c : Nat) (s : State) : Outcome State Fault Refusal := .next (s.issueVop d c 0x01)

/-- VSUB (R205, R228): elementwise difference, FN 0x02. -/
def execVsub (d c : Nat) (s : State) : Outcome State Fault Refusal := .next (s.issueVop d c 0x02)

/-- VMUL (R205, R228): elementwise product, FN 0x03. -/
def execVmul (d c : Nat) (s : State) : Outcome State Fault Refusal := .next (s.issueVop d c 0x03)

/-- VFMA (R205, R228): fused multiply-add, FN 0x04. -/
def execVfma (d c : Nat) (s : State) : Outcome State Fault Refusal := .next (s.issueVop d c 0x04)

/-- VMAX (R205, R228): elementwise maximum, FN 0x05. -/
def execVmax (d c : Nat) (s : State) : Outcome State Fault Refusal := .next (s.issueVop d c 0x05)

/-- VMIN (R205, R228): elementwise minimum, FN 0x06. -/
def execVmin (d c : Nat) (s : State) : Outcome State Fault Refusal := .next (s.issueVop d c 0x06)

/-- VADDI (R205, R228): sum with the immediate, FN 0x07. -/
def execVaddi (d c : Nat) (s : State) : Outcome State Fault Refusal := .next (s.issueVop d c 0x07)

/-- VMULI (R205, R228): product with the immediate, FN 0x08. -/
def execVmuli (d c : Nat) (s : State) : Outcome State Fault Refusal := .next (s.issueVop d c 0x08)

/-- VEXP (R205, R228): exponential, FN 0x09. -/
def execVexp (d c : Nat) (s : State) : Outcome State Fault Refusal := .next (s.issueVop d c 0x09)

/-- VRECIP (R205, R228): reciprocal, FN 0x0A. -/
def execVrecip (d c : Nat) (s : State) : Outcome State Fault Refusal := .next (s.issueVop d c 0x0A)

/-- VRSQRT (R205, R228): reciprocal square root, FN 0x0B. -/
def execVrsqrt (d c : Nat) (s : State) : Outcome State Fault Refusal := .next (s.issueVop d c 0x0B)

/-- VACT (R205, R228): activation function, FN 0x0C. -/
def execVact (d c : Nat) (s : State) : Outcome State Fault Refusal := .next (s.issueVop d c 0x0C)

/-- VCMP (R205, R228): compare, FN 0x0D. -/
def execVcmp (d c : Nat) (s : State) : Outcome State Fault Refusal := .next (s.issueVop d c 0x0D)

/-- VSEL (R205, R228): select, FN 0x0E. -/
def execVsel (d c : Nat) (s : State) : Outcome State Fault Refusal := .next (s.issueVop d c 0x0E)

/-- VCOPY (R205, R228): copy, FN 0x0F. -/
def execVcopy (d c : Nat) (s : State) : Outcome State Fault Refusal := .next (s.issueVop d c 0x0F)

/-- VRED (R205, R228): reduction, FN 0x10. -/
def execVred (d c : Nat) (s : State) : Outcome State Fault Refusal := .next (s.issueVop d c 0x10)

/-- VSOFTMAX (R205, R228): softmax, FN 0x11. -/
def execVsoftmax (d c : Nat) (s : State) : Outcome State Fault Refusal := .next (s.issueVop d c 0x11)

/-- VCVT (R205, R228): conversion, FN 0x12. -/
def execVcvt (d c : Nat) (s : State) : Outcome State Fault Refusal := .next (s.issueVop d c 0x12)

/-- VPERM (R205, R228): permutation, FN 0x13. -/
def execVperm (d c : Nat) (s : State) : Outcome State Fault Refusal := .next (s.issueVop d c 0x13)

/-- VGATHER (R208, R231): the table's base is a slot value plus an offset, its extent a slot value. -/
def execVgather (d c : Nat) (s : State) : Outcome State Fault Refusal :=
  .next (s.issueX d c opVGATHER (fun _ => true) (fun k w => plusOff (k.preg k.sx.replay (gTpreg w)) (gToff w))
    fun k w => k.preg k.sx.replay (gXpreg w))

/-- OCALL (R250): a call record goes to the dispatcher; the instruction stays issued until the routine returns. -/
def execOcall (d c : Nat) (s : State) : Outcome State Fault Refusal :=
  .next (
    let k := s.core d c
    s.when (k.issues true opOCALL) fun s =>
      let w := k.next true
      let r := k.sx.replay
      let arg := k.preg r (oArgp w)
      let j := k.newJob true 0 arg false []
      let x : Call := ⟨0, oId w, arg, r, none, 0, false, 0, false, none, none⟩
      s.onCore d c fun k =>
        let k := (k.issued true).addJob j
        ({ k with cc := { k.cc with due := some x } } : Core).dispatch)

/-- MIRAGE_CHECK (R118 to R120, R226): the vector engine ends the oldest check; a failing element is NUM_MIRAGE (DEDUCED log 23; DESIGN
CHOICE log 37). -/
def execMirageCheck (d c : Nat) (s : State) : Outcome State Fault Refusal :=
  .next (
    let k := s.core d c
    match k.checks with
    | [] => s
    | x :: xs =>
      let s := (s.onCore d c fun k => { k with checks := xs }).settle d c
      if x.fails then s.raiseAndReact d 0x8203 (.core c) k.taskNo (x.index % 4096 + x.replay * 2 ^ 12)
      else s.countFld d c 0 ME_MIRAGE_CHECKED.COUNT 1)

end Sys2Proof.Machine
end

