-- ==== Sys2Proof/Machine/HostPortCmds.lean ====
section
/-! DEFINITION. The commands of host ports (chapter 15, R55, R59). -/

set_option Elab.async false

namespace Sys2Proof.Machine

open Sys2Proof Host

/-- The protocol that a link partner and HP_CFG.ALLOWED give (R387, R388): partner 0 PCIe non-Flit, 1 PCIe Flit, 2 CXL 1.1, 3 CXL
2.0, 4 CXL 3.1; speed 1 to 6. A partner of a later CXL generation also speaks the earlier ones, and plain PCIe to such a partner runs
in Flit mode where it is CXL 3.1. CXL 3.1 below 64 GT/s runs CXL 2.0. -/
def trainedProto (allowed partner speed : Nat) : Nat :=
  let g := min allowed (partner - 1)
  if g = 0 then (if partner = 0 ∨ partner = 2 ∨ partner = 3 then 1 else 2)
  else if g = 1 then 3
  else if g = 2 then 4
  else if speed = 6 then 5 else 4

/-- Whether a port's window shares a byte with another port's window or a Caravan window (R59, R417). -/
def State.windowShared (s : State) (port : Nat) : Bool :=
  let w := s.window port
  ((List.range 8).any fun q => decide (q ≠ port) && windowsShare w (s.window q)) ||
    windowsShare w (s.caravanWindows.map fun c => (c.1, c.2.1))

/-- HOST_LINK_UP (R59, R387, R388, R392): a host link trains with a partner of the given kind at a speed code and width. A port
trained to CXL 1.1 or 2.0 below its configuration, with a shared window, serves CXL.io only and HP_IO_ONLY is recorded. -/
def execHostLinkUp (port partner speed width : Nat) (s : State) : Outcome State Fault Refusal :=
  .next (s.whenP (port < 8 ∧ partner ≤ 4 ∧ 1 ≤ speed ∧ speed ≤ 6 ∧ [1, 2, 4, 8, 16].contains width = true ∧
      s.boot.lasersOn = true ∧ (s.port port).heldDown = false ∧ (s.port port).proto = 0) fun s =>
    let allowed := s.fld port 0 0 HP_CFG.ALLOWED
    let proto := trainedProto allowed partner speed
    let speed := if (proto = 3 ∨ proto = 4 ∨ proto = 1) ∧ 5 < speed then 5 else speed
    let below := decide ((proto = 3 ∨ proto = 4) ∧ (allowed = 0 ∨ allowed = 3)) && s.windowShared port
    let s := s.onPort port fun p => { p with
      proto := proto
      speed := speed
      width := width
      ioOnly := below
      memInfoValid := true
      memActive := decide (s.power.mode = .ready) }
    if below then s.raise port 0x4B01 .die 0 0 else s)

/-- HDM_DECODER_COMMIT (R58, R391): the host programs decoder `n` and commits it; a commit that fails sets Error Not Committed. A committed
decoder is locked. On a CXL 1.1 port decoder 0 stands for DVSEC Range 1, whose base the host sets (DEDUCED log 20) (DESIGN CHOICE log 19).
-/
def execHdmDecoderCommit (port n base size ways gran skip : Nat) (s : State) : Outcome State Fault Refusal :=
  .next (s.whenP (port < 8 ∧ n < 4 ∧ ((mfind (s.port port).decoders n).elim true fun x => !x.committed) = true) fun s =>
    let x : Decoder := ⟨base, size, ways, gran, skip, true, false⟩
    if (s.port port).proto = 3 ∧ n = 0 then s.onPort port fun p => { p with range1 := base }
    else
    let ok := (decide ((s.port port).proto = 4 ∨ (s.port port).proto = 5)) && s.commitOk port n x
    s.onPort port fun p => { p with decoders := mput p.decoders n (if ok then x else { x with committed := false, error := true }) })

/-- BIAS_FLIP_DEVICE (R394): START with TARGET 1. -/
def execBiasFlipDevice (port : Nat) (s : State) : Outcome State Fault Refusal :=
  .next (s.whenP (port < 8) fun s => (s.cfgWrite port 3 0x14 3).flipAsk port)

/-- BIAS_FLIP_HOST (R394): START with TARGET 0. -/
def execBiasFlipHost (port : Nat) (s : State) : Outcome State Fault Refusal :=
  .next (s.whenP (port < 8) fun s => s.cfgWrite port 3 0x14 1)

/-- BIAS_PAGE_FLIPPED (R394): the next page of a running flip completes once its lines are obtained, or no sequence holds a row of
it. -/
def execBiasPageFlipped (port : Nat) (s : State) : Outcome State Fault Refusal :=
  .next (match s.flipPage port with
    | some (page, dev) => s.when (s.pageFlips port page dev) fun s => (s.flipDone port).flipAsk port
    | none => s)

/-- HOT_RESET (R397): the link trains again, decoders and DVSEC Range 1 are cleared, directory entries are dropped, and the
port's work is aborted. A port that management holds down stays down. -/
def execHotReset (port : Nat) (s : State) : Outcome State Fault Refusal := .next (s.whenP (port < 8) fun s => s.hotReset port)

/-- FLR (R397): the port's work is aborted without touching the link. -/
def execFlr (port : Nat) (s : State) : Outcome State Fault Refusal :=
  .next (s.whenP (port < 8) fun s => (s.dropHeld port).abortPortWork port)

/-- CXL_RESET (R397): the port's directory entries are dropped and its work is aborted. -/
def execCxlReset (port : Nat) (s : State) : Outcome State Fault Refusal :=
  .next (s.whenP (port < 8) fun s => ((s.dropDir port).dropHeld port).abortPortWork port)

/-- HOST_FLUSH_TIMEOUT (R396, R322): a flushing read of the far tier's port without completion makes the far tier unreachable. -/
def execHostFlushTimeout (port : Nat) (s : State) : Outcome State Fault Refusal :=
  .next (s.whenP (port < 8 ∧ s.farPort = some port) fun s => s.farUnreachable)

/-- BUS_MASTER_ENABLE_WRITE (R395): set, the port's pending MSI-X messages are sent, lowest vector first; cleared, its requests
are held and a far tier behind it is unreachable. -/
def execBusMasterEnableWrite (port : Nat) (on : Bool) (s : State) : Outcome State Fault Refusal :=
  .next (s.whenP (port < 8) fun s =>
    let pend := (s.port port).msixPending
    let s := s.onPort port fun p => { p with busMaster := on, msixPending := if on then [] else p.msixPending }
    if on then pend.foldl (fun s v => s.send (.msix port v)) s
    else if s.farPort = some port then s.farUnreachable else s)

end Sys2Proof.Machine
end

