-- ==== Sys2Proof/Machine/Placement.lean ====
section
/-! DEFINITION. The verifier's last step: where a task's cores, allocations, stream buffer, moved weights and models go (R341, R345 step 7, R348). -/

set_option Elab.async false

namespace Sys2Proof.Machine

open Sys2Proof Enc7

/-! ### First fit -/

/-- The lowest base, a multiple of `k` and at least `lo`, at which `n` bytes end by `hi` and meet none of the busy ranges. -/
def firstFit (k : Nat) (busy : List (Nat × Nat)) (lo hi n : Nat) : Option Nat :=
  let cands := (lo :: busy.map fun b => b.1 + b.2).map (alignUp · k)
  let ok := fun (a : Nat) => decide (lo ≤ a ∧ a + n ≤ hi) && busy.all fun b => !spansMeet (a, n) b
  (cands.filter ok).foldl (fun (b : Option Nat) a => match b with | some x => some (min x a) | none => some a) none

/-- Sizes placed in order, each where it fits first, or left out: the bases, none for one left out. -/
def placeAll (k : Nat) (busy : List (Nat × Nat)) (lo hi : Nat) : List Nat → List (Option Nat)
  | [] => []
  | n :: ns =>
    match firstFit k busy lo hi n with
    | some a => some a :: placeAll k ((a, n) :: busy) lo hi ns
    | none => none :: placeAll k busy lo hi ns

/-! ### What other tasks hold -/

/-- The ranges that a task's allocations and stream buffer occupy. -/
def Task.ranges (t : Task) : List (Nat × Nat) :=
  (((t.allocs.zip t.bases).zipIdx.filter fun x => !t.moved.any fun m => m.1 = x.2).map fun x => (x.1.2, alBytes x.1.1)) ++
    match t.buffer with | some (b, half) => [(b, 2 * half)] | none => []

/-- The tasks that are loaded, other than the one being verified. -/
def State.otherTasks (s : State) : List Task := s.ldr.tasks.filter fun t => t.state ≠ .loading

/-- The weight reserve (R348): the bytes of the far-tier region behind the dies' slots, as (first offset, end), and the slot size. -/
def State.reserve (s : State) : Nat × Nat × Nat :=
  match s.far with
  | some (_, _, n, c, ds) => (ds.sum * n, c * n, n)
  | none => (0, 0, 1)

/-- The ranges of the reserve that tasks hold. -/
def State.reserveBusy (s : State) : List (Nat × Nat) :=
  s.otherTasks.flatMap fun t => t.moved.map fun m => (m.2, alignUp (match t.allocs[m.1]? with | some a => alBytes a | none => 0) s.reserve.2.2)

/-! ### R348 -/

/-- Indices in descending order of a key. -/
def insertDown (key : Nat → Nat) (i : Nat) : List Nat → List Nat
  | [] => [i]
  | j :: l => if key j ≤ key i then i :: j :: l else j :: insertDown key i l

/-- STREAM allocations in the order in which they move: descending LAYER, ties in descending index. -/
def moveOrder (as : List (List Byte)) : List Nat :=
  let key := fun i => (match as[i]? with | some a => alLayer a | none => 0) * 65536 + i
  ((List.range as.length).filter fun i => match as[i]? with | some a => alStream a | none => false).foldr (insertDown key) []

/-- A try at placing the grants with some allocations moved: a base for each grant that stays, then one for the stream buffer. -/
structure Try where
  grants : List (Nat × Nat)
  bases : List (Option Nat)
  half : Nat
  deriving DecidableEq, Repr

/-- The try: grants in ascending order of index, then a buffer of twice the largest moved allocation. -/
def State.tryPlace (s : State) (as : List (List Byte)) (moved : List Nat) : Try :=
  let busy := s.otherTasks.flatMap Task.ranges ++ (as.filter fun a => alKind a = 1).map fun a => (alAddr a, alBytes a)
  let gs := (as.zipIdx.filter fun x => decide (alKind x.1 = 2) && !moved.contains x.2).map fun x => (x.2, alBytes x.1)
  let half := greatest (moved.map fun i => match as[i]? with | some a => alBytes a | none => 0)
  ⟨gs, placeAll 4096 busy s.heap.1 (s.heap.1 + s.heap.2) (gs.map (·.2) ++ if half = 0 then [] else [2 * half]), half⟩

/-- Bytes that a try could not place. -/
def Try.missing (t : Try) : Nat :=
  ((t.bases.zip (t.grants.map (·.2) ++ if t.half = 0 then [] else [2 * t.half])).map fun x => if x.1.isSome then 0 else x.2).sum

/-- The fewest moves, up to all, after which everything fits: their number and the try. -/
def State.firstFitting (s : State) (as : List (List Byte)) (order : List Nat) : Option (Nat × Try) :=
  (List.range (order.length + 1)).findSome? fun n =>
    let t := s.tryPlace as (order.take n)
    if t.missing = 0 then some (n, t) else none

/-- Where a task goes: bases of its allocations, moved allocations with their far-tier offsets, and the stream buffer. -/
structure Plan where
  bases : List Nat
  moved : List (Nat × Nat)
  buffer : Option (Nat × Nat)
  deriving DecidableEq, Repr

/-- The plan of R341 and R348, or the detail and shortfall of its REJ_CAPACITY (DESIGN CHOICE log 44). -/
def State.plan (s : State) (img : List Byte) : Except (Nat × Nat) Plan :=
  let as := imgEntries img 3
  let order := moveOrder as
  match s.firstFitting as order with
  | none => .error (0x0000, (s.tryPlace as order).missing)
  | some (n, t) =>
    let moved := (order.take n).reverse
    let r := s.reserve
    let sizes := moved.map fun i => alignUp (allocLen img i) r.2.2
    let offs := placeAll r.2.2 s.reserveBusy r.1 r.2.1 sizes
    let short := ((offs.zip sizes).map fun x => if x.1.isSome then 0 else x.2).sum
    if short ≠ 0 then .error (0x0001, short)
    else
      let base := fun (i : Nat) (a : List Byte) =>
        if alKind a = 1 then alAddr a
        else match t.grants.findIdx? fun g => g.1 = i with
          | some j => ((t.bases[j]?).getD none).getD 0
          | none => 0
      .ok {
        bases := as.zipIdx.map fun x => base x.2 x.1
        moved := moved.zip (offs.map (·.getD 0))
        buffer := if t.half = 0 then none else ((t.bases[t.grants.length]?).getD none).map fun b => (b, t.half) }

/-- Whether a host port's window reaches the task's memory allocations (R292): FIXED ones, and grants where they fit. An allocation that
moves to the far tier has no module address to reach (DESIGN CHOICE log 45). -/
def State.portReaches (s : State) (img : List Byte) (port : Nat) : Bool :=
  let at_ := fun (i : Nat) (a : List Byte) =>
    if alKind a = 1 then some (alAddr a)
    else match s.plan img with
      | .ok p => if p.moved.any fun m => m.1 = i then none else p.bases[i]?
      | .error _ => none
  (imgEntries img 3).zipIdx.all fun x => (at_ x.2 x.1).all fun a =>
    decide (0x200000000000 ≤ a) || s.reachable (.host port 0) a (alBytes x.1)

/-! ### Step 7 of R345 -/

/-- Whether the loader may place a core: no loaded task holds it, no sequencer reserves it, and it is neither retired, stopped, in a stopped
cluster nor under test. -/
def State.corePlaceable (s : State) (d c : Nat) : Bool :=
  !(s.otherTasks.any fun t => t.cores.contains (d, c)) && !bit (s.reg d .ASEQ_CORES (c / 16) 0).toNat (c % 16) && !s.coreRetired d c &&
    !s.mgmt.stopped.contains ⟨4, d * 4 + c / 16⟩ && !s.mgmt.stopped.contains ⟨5, d * 64 + c⟩ && !s.mgmt.tests.any fun t => t.unit = ⟨5, d * 64 + c⟩

/-- The KV structures region with room taken for a model record and its length table. -/
def State.takeModel (s : State) (b : List Byte) : Option (Nat × Nat × State) :=
  let n := (kvModel 0 b).nseq * 32
  (s.kvSpace 64).bind fun a =>
    let s := s.onKv fun x => { x with ranges := x.ranges ++ [(a, 64)] }
    (s.kvSpace n).map fun l => (a, l, s.onKv fun x => { x with ranges := x.ranges ++ [(l, n)] })

/-- The models of an image that find no room, in order. -/
def State.noRoom (s : State) : List (List Byte × Nat) → List (Nat × Nat)
  | [] => []
  | (b, i) :: l =>
    match s.takeModel b with
    | some (_, _, s) => s.noRoom l
    | none => (i, 64 + (kvModel 0 b).nseq * 32) :: s.noRoom l

/-- Step 7 of R345. -/
def State.verifyPlace (s : State) (img : List Byte) : Option Reject :=
  let cores := (coreImgs img).flatMap fun k => unless_ (s.corePlaceable k.die k.core) (k.rejRecord 0x0111)
  let taken := s.otherTasks.flatMap Task.ranges
  let allocs := (imgEntries img 3).zipIdx.flatMap fun x =>
    unless_ (decide (alKind x.1 ≠ 1) || taken.all fun r => !spansMeet (alAddr x.1, alBytes x.1) r) { code := 0x0111, sect := 3, index := x.2 }
  let binds := (imgEntries img 5).zipIdx.flatMap fun x =>
    unless_ (!bit (s.binding (bdDie x.1) (bdCluster x.1) (bdSlot x.1)) 31)
      { code := 0x0111, sect := 5, die := bdDie x.1, index := x.2 }
  let models := (imgEntries img 4).zipIdx.flatMap fun x =>
    let m := kvModel 0 x.1
    unless_ ((s.models.all fun o => !seqsMeet o m) && s.pools.any fun p => p.index = m.pool) { code := 0x0111, sect := 4, index := x.2 }
  let room := (s.noRoom (imgEntries img 4).zipIdx).map fun x =>
    ({ code := 0x0112, detail := 2, sect := 4, index := x.1, shortfall := x.2 } : Reject)
  let plan := match s.plan img with
    | .error (why, short) => [({ code := 0x0112, detail := why, sect := 3, shortfall := short } : Reject)]
    | .ok _ => []
  firstReject (cores ++ allocs ++ binds ++ models ++ plan ++ room)

/-- The verifier (R345): the first failure of the first step that has one (DESIGN CHOICE log 45). -/
def State.verify (s : State) (img : List Byte) (bytes area : Nat) : Option Reject :=
  (verifyFormat img bytes area) <|> (s.verifyGrade img) <|> (s.verifyRecords img (s.portReaches img)) <|> (s.verifyAllocs img) <|>
    (verifyBalance img) <|> (verifyGraph img) <|> (s.verifyPlace img)

/-! ### The report (R347) -/

/-- The report of a rejected LOAD. -/
def Reject.report (r : Reject) : List Byte :=
  padTo 64 0 (leBytes 2 r.code ++ leBytes 2 r.detail ++ leBytes 1 r.sect ++ leBytes 1 r.die ++ leBytes 1 r.core ++ leBytes 1 r.stream ++
    leBytes 4 r.index ++ leBytes 2 r.block ++ leBytes 1 0xFF ++ leBytes 1 0xFF ++ leBytes 8 r.shortfall ++ leBytes 2 0xFFFF)

/-- The estimate of R348 from the moved bytes, in units of 1/256: the moved bytes take one ns per 128 behind a host port, per 1,200 in a
peer (DESIGN CHOICE log 45). -/
def State.slowdown (s : State) (pass moved : Nat) : Nat :=
  let rate := match s.far with | some (.host _, _) => 128 | _ => 1200
  if pass = 0 then 0 else (256 * max (pass * rate) moved + pass * rate - 1) / (pass * rate)

/-- The report of an accepted LOAD. -/
def acceptReport (task streamed slow : Nat) : List Byte :=
  padTo 64 0 (leBytes 2 0 ++ leBytes 2 0 ++ leBytes 4 0xFFFFFFFF ++ leBytes 4 0xFFFFFFFF ++ leBytes 2 0xFFFF ++ leBytes 1 task ++
    leBytes 1 streamed ++ leBytes 8 0 ++ leBytes 2 slow)

end Sys2Proof.Machine
end

