-- ==== Sys2Proof/Machine/LdrOps.lean ====
section
/-! DEFINITION. The loader's operations: taking requests, replying, filling memory, writing a task into its cores, and preparing a run (R335 to R337,
R342, R349, R351). -/

set_option Elab.async false

namespace Sys2Proof.Machine

open Sys2Proof

/-! ### Requests (R336, R337) -/

/-- A request: its notice and the 128 bytes of its record. -/
structure LdrCmd where
  x : Notice
  b : List Byte
  deriving DecidableEq, Repr

namespace LdrCmd

def op (q : LdrCmd) : Nat := field q.b 0 1
def task (q : LdrCmd) : Nat := field q.b 1 1
def bytes (q : LdrCmd) : Nat := field q.b 4 4
def addr (q : LdrCmd) : Nat := field q.b 8 8

/-- A reserved OP, a nonzero reserved field or a value outside its range. -/
def fieldBad (q : LdrCmd) : Bool :=
  !(decide (1 ≤ q.op ∧ q.op ≤ 4 ∧ field q.b 2 2 = 0 ∧ field q.b 0x18 8 = 0 ∧ field q.b 0x21 1 = 0 ∧ field q.b 0x24 28 = 0)) ||
    !replyOk (field q.b 0x10 8) ||
    (if q.op = 1 then decide (q.task ≠ 0 ∨ q.addr % 64 ≠ 0) else decide (q.task = 0 ∨ 64 < q.task ∨ q.bytes ≠ 0 ∨ q.addr ≠ 0))

/-- The request as something that waits for its reply. -/
def req (q : LdrCmd) : LdrReq := ⟨q.x.pointer, q.x.tag, q.x.sender⟩

end LdrCmd

/-- A reply: STATUS, REASON and the report written, and a notice to the record's reply target (R313, R336). -/
def State.ldrReply (s : State) (q : LdrReq) (status reason : Nat) (report : List Byte) : State :=
  let s := ((s.writeBytes (q.pointer + 0x20) (leBytes 1 status)).writeBytes (q.pointer + 0x22) (leBytes 2 reason)).writeBytes
    (q.pointer + 0x40) report
  s.replyIf senderLoader (leNat (s.seen (q.pointer + 0x10) 8)) q.pointer q.tag

/-- Replies to several requests once their records can be written. -/
def State.ldrReplies (s : State) (qs : List LdrReq) (f : State → State) : State :=
  s.withMem .loader (qs.map fun q => (q.pointer, 128, true)) f

/-- A notice whose record the poster may not reach consumed (R506). -/
def State.ldrUnreadable (s : State) (x : Notice) : State := (s.emptySlot 8 0 x.n).mapErr .loader false x.pointer

/-- The first waiting notice, its record read, taken for operations that satisfy `op` (R335); a LOAD under way holds it back. -/
def State.ldrTake (s : State) (op : Nat → Bool) (f : LdrCmd → State → State) : State :=
  match s.notices.find? fun x => x.d = 8 with
  | none => s
  | some x =>
    if s.power.mode = .safe ∨ (s.ldr.tasks.any fun t => t.state = .loading) then s
    else if !s.posterReaches x.sender x.pointer 128 then s.ldrUnreadable x
    else s.withMem .loader [(x.pointer, 128, true)] fun s =>
      let q : LdrCmd := ⟨x, s.seen x.pointer 128⟩
      if !op q.op then s
      else
        let s := s.emptySlot 8 0 x.n
        if q.fieldBad then s.ldrReply q.req 3 0x0002 [] else f q s

/-- A request on a task: refused to any poster but its owner, and in a state that its operation does not list (R337). -/
def State.ldrOwned (s : State) (q : LdrCmd) (states : List TaskState) (f : Task → State → State) : State :=
  match s.task q.task with
  | none => s.ldrReply q.req 5 0x0073 []
  | some t =>
    if t.owner ≠ posterOwner q.x.sender then s.ldrReply q.req 5 0x0072 []
    else if !states.contains t.state then s.ldrReply q.req 5 0x0073 []
    else f t s

/-! ### Ranges of memory -/

/-- The offset in [a, a + n), an address range in either view, of the byte at a cell's key. -/
def cellOffset (a n k : Nat) : Option Nat :=
  if a ≤ k ∧ k < a + n then some (k - a)
  else if a < 0x030000000000 ∧ k < 0x200000000000 ∧ a ≤ placedToSpread k ∧ placedToSpread k < a + n then some (placedToSpread k - a)
  else none

/-- The stacks that hold a byte of a range of memory. -/
def rangeStacks (a n : Nat) : List Nat :=
  if n = 0 ∨ 0x200000000000 ≤ a then []
  else if a < 0x030000000000 then (List.range (min 32 ((a + n - 1) / 4096 - a / 4096 + 1))).map fun i => (a / 4096 + i) % 32
  else (List.range (placedStack (a + n - 1) - placedStack a + 1)).map fun i => placedStack a + i

/-- Whether a bank holds a byte of a range of memory. -/
def bankMeets (a n : Nat) (b : BankId) : Bool := rangesShare (a, n) (placedAddr b.stk b.die b.bank 0 0, 0x18000 * 1024)

/-- The banks that a sequence or chain holds, or that a forced refresh burst keeps (R82, R147). -/
def State.keptBanks (s : State) : List BankId :=
  ((s.seqs.filter (·.token)).map fun j => descBank j.desc) ++ ((s.baus.filter fun kb => kb.2.kept).map fun kb => keyBank kb.1) ++
    (s.banks.filter fun kb => kb.2.burst ≠ 0).map fun kb => keyBank kb.1

/-- The banks of a stack whose channel is held as faulty (R65, R69). -/
def State.faultyBanks (s : State) (stk : Nat) : List BankId :=
  ((s.stack stk).channels.filter fun c => c.2.faulty).flatMap fun c =>
    (List.range 16).map fun i => ⟨stk, 4 * (c.1 / 16) + i / 4, 4 * (c.1 % 16) + i % 4⟩

/-- The requests to hosts that an access to a whole range needs (R53, R56): for the lines that a directory tracks, and line by line where
the range meets a window whose pages may be in host bias. -/
def State.rangeNeeds (s : State) (ag : Agent) (a n : Nat) (write : Bool) : List Snoop :=
  if (List.range 8).any fun q => biasPort (s.port q) && windowsShare [(a, n)] (s.window q) then
    (s.memLines a n).flatMap fun p => s.needs ag p write
  else (s.mem.dir.filter fun e => (cellOffset a n (e.line * 64)).isSome).flatMap fun e => s.needs ag (e.line * 64) write

/-- Whether a whole range can be accessed now: `State.ready` said of a range by the banks, stacks and lines that could make it wait (R26). -/
def State.rangeReady (s : State) (ag : Agent) (a n : Nat) (write : Bool) : Bool :=
  ((rangeStacks a n).all fun stk =>
    (s.stack stk).cleared && (match (s.stack stk).sr with | .awake => true | .waiting => true | _ => false) &&
      !s.pathHeld (agentDie ag) (stk / 4) && !(s.faultyBanks stk).any (bankMeets a n)) &&
    !s.keptBanks.any (bankMeets a n) && (s.rangeNeeds ag a n write).isEmpty

/-- An effect on whole ranges, as (address, length, write): once all can be accessed; until then the requests to hosts that they need are
out. -/
def State.withRanges (s : State) (ag : Agent) (ps : List (Nat × Nat × Bool)) (f : State → State) : State :=
  if ps.all fun p => s.rangeReady ag p.1 p.2.1 p.2.2 then
    ps.foldl (fun s p => s.onMem fun m => { m with
      obtained := m.obtained.filter fun l => (cellOffset p.1 p.2.1 (l * 64)).isNone
      owned := m.owned.filter fun l => (cellOffset p.1 p.2.1 (l * 64)).isNone }) (f s)
  else ps.foldl (fun s p => s.issueSnoops (s.rangeNeeds ag p.1 p.2.1 p.2.2)) s

/-- A range of memory, scratchpad or cluster buffer cleared to zero, with its poison. -/
def State.clearRange (s : State) (a n : Nat) : State :=
  s.onMem fun m => { m with
    cells := m.cells.filter fun kv => (cellOffset a n kv.1).isNone
    poison := m.poison.filter fun l => (cellOffset a n (l * 64)).isNone }

/-- Line `l` of memory in a range, by its offset, with what stands in it. -/
def State.rangeLines (s : State) (a n : Nat) : List (Nat × List Byte × Bool) :=
  (((s.mem.cells.filterMap fun kv => cellOffset a n kv.1) ++ (s.mem.poison.filterMap fun l => cellOffset a n (l * 64))).map fun o => alignDown o 64)
    |>.eraseDups.map fun o => (o, s.readBytes (a + o) 64, s.poisonedAt (a + o))

/-- A range copied: the lines that hold anything but zeros move, the rest is cleared. -/
def State.copyRange (s : State) (src dst n : Nat) : State :=
  (s.rangeLines src n).foldl (fun s l => s.writePiece (dst + l.1) l.2.1 l.2.2) (s.clearRange dst n)

/-- Bytes placed over a cleared range. -/
def State.fillRange (s : State) (dst n : Nat) (data : List Byte) : State := (s.clearRange dst n).writeBytes dst (data.take n)

/-! ### Filling allocations (R340, R349) -/

/-- The owner of the writes into the weight reserve. -/
def reserveOwner : Nat := 2 ^ 32

/-- An allocation filled where it stays: left, cleared, copied from module memory, or copied from the owner, whose bytes are `data`; an internal
owner's SRC is an address of this module. -/
def State.fillAlloc (s : State) (owner : Nat) (a : List Byte) (base : Nat) (data : List Byte) : State :=
  match alInit a with
  | 1 => s.clearRange base (alBytes a)
  | 2 => s.copyRange (alSrc a) base (alBytes a)
  | 3 => if 8 ≤ senderKind owner then s.fillRange base (alBytes a) data else s.copyRange (alSrc a) base (alBytes a)
  | _ => s

/-- A moved allocation copied into the weight reserve. -/
def State.fillMoved (s : State) (owner : Nat) (a : List Byte) (off : Nat) (data : List Byte) : State :=
  let bytes := if alInit a = 3 ∧ 8 ≤ senderKind owner then padTo (alBytes a) 0 data else s.seen (alSrc a) (alBytes a)
  (s.farWrite 0 reserveOwner (s.farAddr off) bytes).dropReqs (farOwns reserveOwner)

/-- What the loader asks of the owner for an allocation with INIT 0x03: reads from the host behind its port. -/
def State.askOwner (s : State) (owner : Nat) (a : List Byte) : State :=
  if alInit a = 3 ∧ senderKind owner = 8 then s.send (.hostRead (senderPort owner) (alSrc a) (alBytes a)) else s

/-- The ranges of memory that filling an allocation reads and writes. -/
def fillRanges (owner : Nat) (moved : Bool) (a : List Byte) (base : Nat) : List (Nat × Nat × Bool) :=
  let src := if alInit a = 2 ∨ alInit a = 3 ∧ senderKind owner < 8 then [(alSrc a, alBytes a, false)] else []
  src ++ if moved ∨ alInit a = 0 then [] else [(base, alBytes a, true)]

/-- The ranges that filling all allocations of a plan reads and writes. -/
def Plan.ranges (p : Plan) (owner : Nat) (as : List (List Byte × Nat)) : List (Nat × Nat × Bool) :=
  as.flatMap fun a => fillRanges owner (p.moved.any fun m => m.1 = a.2) a.1 ((p.bases[a.2]?).getD 0)

/-- The allocations filled in index order; the owner's data come in the order of the allocations that take them. -/
def State.fillAll (s : State) (owner : Nat) (p : Plan) : List (List Byte × Nat) → List (List Byte) → State
  | [], _ => s
  | (a, i) :: l, fill =>
    let data := if alInit a = 3 then fill.headD [] else []
    let s := s.askOwner owner a
    let s := match p.moved.find? fun m => m.1 = i with
      | some m => s.fillMoved owner a m.2 data
      | none => s.fillAlloc owner a ((p.bases[i]?).getD 0) data
    s.fillAll owner p l (if alInit a = 3 then fill.drop 1 else fill)

/-! ### Models (R306) -/

/-- The model records of an image written into the KV structures region, with empty length tables: their addresses. -/
def State.putModels (s : State) : List (List Byte) → State × List Nat
  | [] => (s, [])
  | b :: l =>
    match s.takeModel b with
    | none => s.putModels l
    | some (a, lt, s) =>
      let s := ((s.writeBytes a b).writeBytes (a + 0x18) (leBytes 8 lt)).writeBytes lt (List.replicate ((kvModel 0 b).nseq * 32) 0)
      ((s.putModels l).1, a :: (s.putModels l).2)

/-! ### Descriptors (R342, R349) -/

/-- An address field relocated: the base of an allocation added to bits [47:0]. -/
def relocate (base v : Nat) : Nat := v / 2 ^ 48 * 2 ^ 48 + (v + base) % 2 ^ 48

/-- The base of allocation `i`, 0 for none. -/
def Task.baseOf (t : Task) (i : Nat) : Nat := if i = 0xFFFF then 0 else (t.bases[i]?).getD 0

/-- A static descriptor of a task relocated (R342, R349): a tensor that names a moved allocation lies in the far tier at its offset; an escape
record has its bitmap and its region relocated each by its own allocation (R261). -/
def Task.descBytes (t : Task) (h : List Byte) : List Byte :=
  let x := tnDesc h
  let far := fun (i : Nat) => (t.moved.find? fun m => m.1 = i).map (·.2)
  let at_ := fun (i : Nat) => (far i).getD (t.baseOf i)
  let y := splice x 8 (leBytes 8 (relocate (at_ (tnBase h)) (field x 8 8)))
  if tLayout x = 15 then splice y 0x10 (leBytes 8 (relocate (at_ (tnRegion h)) (field x 0x10 8)))
  else if (far (tnBase h)).isSome then splice y 4 (leBytes 2 0x4000)
  else y

/-- The static descriptors of a core of a task. -/
def Task.descs (t : Task) (d c : Nat) : NMap (List Byte) :=
  ((imgEntries t.image 2).filter fun h => decide (tnDie h = d ∧ tnCore h = c)).foldl (fun m h => mput m (tnEntry h) (t.descBytes h)) []

/-! ### Cores (R349, R351) -/

/-- Numbered words as an instruction memory. -/
def wordMap (ws : List Nat) : NMap IWord := ws.zipIdx.map fun wi => (wi.2, BitVec.ofNat 128 wi.1)

/-- What a LOAD writes into a core: instruction memories, patterns, bounds, entry points, windows, staging range and descriptors. -/
def Task.loadCore (t : Task) (k : CoreImg) (c : Core) : Core :=
  { c with
    amem := wordMap k.a
    xmem := wordMap k.x
    pats := k.pats.zipIdx.map fun e => (e.2, e.1)
    bounds := k.bounds.zipIdx.map fun b => (b.2, b.1)
    windows := (crWindows k.cr).map fun i => (t.baseOf i, match t.allocs[i]? with | some a => alBytes a | none => 0)
    staging := (spmBase k.die k.core + spmSize - crStaging k.cr, crStaging k.cr)
    pairs := (k.pairs t.image).zipIdx.map fun e => (e.2, e.1)
    desc := t.descs k.die k.core
    task := some t.id }

/-- The initial registers of a core, relocated. -/
def Task.coreParams (t : Task) (k : CoreImg) : List Nat :=
  (initParams t.image k.cr).map fun p => match p.al with
    | some i => (p.v + t.baseOf i) % 2 ^ 64
    | none => p.v

/-- What a START prepares in a core (R351): registers and strides, the task region, descriptors, empty words, queues and counters, and a
dispatcher at the start of the control list. -/
def Task.startCore (t : Task) (k : CoreImg) (c : Core) : Core :=
  { c.idle with
    params := t.coreParams k
    strides := initStrides t.image k.cr
    full := []
    written := []
    checked := 0
    desc := t.descs k.die k.core
    dpins := []
    sa := freshStream
    sx := freshStream
    cc := { c.idle.cc with
      dmem := writeCells c.cc.dmem 0 k.region
      mode := 1
      listAt := 16 * crClist k.cr
      entry := 0
      seed := 0
      stall := [] } }

/-! ### Runs (R351, R352, R354) -/

/-- The run report. -/
def runReport (fault die core info replay : Nat) (stall : List Byte) : List Byte :=
  padTo 64 0 (leBytes 2 fault ++ leBytes 1 die ++ leBytes 1 core ++ leBytes 4 info ++ leBytes 4 replay ++ leBytes 4 0 ++ padTo 44 0 stall)

/-- The report of a run without a fault. -/
def cleanReport : List Byte := runReport 0 0xFF 0xFF 0 0 []

/-- The report of a run that a fault of core (d, c) ended: the registers of that core as the fault decides. -/
def State.faultReport (s : State) (fault d c : Nat) : List Byte :=
  let fam := fault / 256
  let info := if fam = 0x43 then (s.reg d .SFE_FAULT_INFO c 0).toNat else if fault = 0x4401 then (s.reg d .VE_FAULT_INFO c 0).toNat
    else if fam = 0x46 then (s.reg d .CC_FAULT_INFO c 0).toNat else 0
  let replay := if fam = 0x43 then (s.reg d .SFE_FAULT_REPLAY c 0).toNat else if fam = 0x46 then (s.reg d .CC_FAULT_REPLAY c 0).toNat else 0
  runReport fault d c info replay (if fault = 0x4703 then (s.core d c).cc.stall else [])

/-- Whether a core logic test that the fault collector started runs on a core (R352). -/
def State.coreTesting (s : State) (d c : Nat) : Bool := s.mgmt.tests.any fun t => t.unit = ⟨5, d * 64 + c⟩ && !t.byMgmt

/-- The first core of a task that is retired or under test, with the fault that the report names. -/
def State.startBlocked (s : State) (t : Task) : Option (Nat × Nat × Nat) :=
  (t.cores.find? fun dc => s.coreRetired dc.1 dc.2 || s.coreTesting dc.1 dc.2).map fun dc =>
    (if s.coreRetired dc.1 dc.2 then 0x4E01 else 0, dc.1, dc.2)

/-- A task's slots bound as its image says, with EN set (R292, R351). -/
def State.bind (s : State) (t : Task) : State :=
  (imgEntries t.image 5).foldl (fun s b =>
    s.setReg (bdDie b) .MBX_BIND (bdCluster b) (bdSlot b) (BitVec.ofNat 32 (2 ^ 31 + bdWord b % 2 ^ 31))) s

/-- Every core of a run prepared and started. -/
def State.startCores (s : State) (t : Task) : State :=
  (coreImgs t.image).foldl (fun s k => s.onCore k.die k.core (t.startCore k)) (s.bind t)

/-- Whether every core of a task has taken DONE. -/
def Task.allDone (t : Task) : Bool := t.cores.all fun dc => t.done.contains (dc.1 * 64 + dc.2)

end Sys2Proof.Machine
end

