-- ==== Sys2Proof/Machine/LdrCmds.lean ====
section
/-! DEFINITION. The commands of the loader and the abort interrupt of a control core (R183, R245, R253, R335 to R357). -/

set_option Elab.async false

namespace Sys2Proof.Machine

open Sys2Proof Host

/-! ### LOAD (R337, R345 to R349) -/

/-- The loader area (R341). -/
def State.loaderArea (s : State) : Nat × Nat :=
  ((s.entries 0x0006).findSome? fun e => match e with | .loaderArea b n => some (b, n) | _ => none).getD (0, 0)

/-- Bytes of the loader area that images fill. -/
def State.areaUsed (s : State) : Nat := (s.ldr.tasks.map fun t => t.image.length).sum

/-- A task that a LOAD makes LOADING. -/
def freshTask (id : Nat) (q : LdrCmd) (image : List Byte) : Task where
  id := id
  state := .loading
  owner := posterOwner q.x.sender
  image := image
  bases := []
  moved := []
  buffer := none
  halves := []
  models := []
  load := some q.req
  start := none
  aborts := []
  done := []
  report := []

/-- A LOAD taken: its image copied, and the task LOADING; or refused at once (DESIGN CHOICE log 44). -/
def State.ldrBegin (s : State) (q : LdrCmd) : State :=
  if q.op ≠ 1 then s.ldrReply q.req 3 0x0002 []
  else if !(s.allMem q.addr q.bytes && s.posterReaches q.x.sender q.addr q.bytes) then s.ldrReply q.req 3 0x0008 []
  else
    match (List.range 64).find? fun i => !s.ldr.tasks.any fun t => t.id = i + 1 with
    | none => s.ldrReply q.req 5 0x0076 []
    | some i =>
      if s.loaderArea.2 < s.areaUsed + q.bytes then s.ldrReply q.req 5 0x0076 []
      else { s with ldr := { s.ldr with tasks := s.ldr.tasks ++ [freshTask (i + 1) q (s.seen q.addr q.bytes)] } }

/-- A LOADING task removed. -/
def State.dropTask (s : State) (id : Nat) : State := { s with ldr := { s.ldr with tasks := s.ldr.tasks.filter fun t => t.id ≠ id } }

/-- An accepted task written and LOADED (R349): models, allocations and cores. -/
def State.ldrAccept (s : State) (t : Task) (q : LdrReq) (p : Plan) (fill : List (List Byte)) : State :=
  let img := t.image
  let m := s.putModels (imgEntries img 4)
  let s := m.1.fillAll t.owner p (imgEntries img 3).zipIdx fill
  let t := { t with
    state := .loaded
    bases := p.bases
    moved := p.moved
    buffer := p.buffer
    halves := if p.buffer.isSome then [⟨none, false, 0⟩, ⟨none, false, 0⟩] else []
    models := m.2
    load := none }
  let s := s.onTask t.id fun _ => t
  let s := (coreImgs img).foldl (fun s k => s.onCore k.die k.core (t.loadCore k)) s
  let moved := (p.moved.map fun m => allocLen img m.1).sum
  let slow := s.slowdown (field img 0x10 8) moved
  let f := s.fresh
  let s := if slow < 65536 then s else f.2
  s.ldrReply q 0 0 (acceptReport t.id p.moved.length (if slow < 65536 then slow else f.1 % 65536))

/-- The verdict on a LOADING task, and what follows from it (DESIGN CHOICE log 44). -/
def State.ldrDecide (s : State) (t : Task) (q : LdrReq) (fill : List (List Byte)) : State :=
  match s.verify t.image t.image.length s.loaderArea.2, s.plan t.image with
  | none, .ok p => s.withRanges .loader (p.ranges t.owner (imgEntries t.image 3).zipIdx) fun s => s.ldrAccept t q p fill
  | some r, _ =>
    let s := s.dropTask t.id
    ({ s with ldr := { s.ldr with rejLast := r.code } } : State).ldrReply q 5 0x0070 r.report
  | none, .error _ => s

/-- LDR_LOAD: with no LOAD under way, the next notice is taken when it is a LOAD (or names no operation); otherwise the LOAD under way is
verified, placed and written, and replied to. `fill` gives what the owner holds for the allocations with INIT 0x03 (DESIGN CHOICE log 44).
-/
def execLdrLoad (fill : List (List Byte)) (s : State) : Outcome State Fault Refusal :=
  .next (match s.ldr.tasks.find? fun t => t.state = .loading with
    | none => s.ldrTake (fun op => decide (op = 1 ∨ op = 0 ∨ 4 < op)) fun q s => s.ldrBegin q
    | some t =>
      (match t.load with
       | some q => s.ldrReplies [q] fun s => s.ldrDecide t q fill
       | none => s))

/-! ### START, runs and ABORT (R351 to R354) -/

/-- LDR_START: every core of the task prepared and started, unless one is retired or under test. -/
def execLdrStart (s : State) : Outcome State Fault Refusal :=
  .next (s.ldrTake (fun op => decide (op = 2)) fun q s => s.ldrOwned q [.loaded] fun t s =>
    match s.startBlocked t with
    | some (fault, d, c) => s.ldrReply q.req 5 0x0077 (runReport fault d c 0 0 [])
    | none => (s.startCores t).onTask t.id fun t => { t with state := .running, start := some q.req, done := [] })

/-- The first ABORT among the waiting notices, with its record (R335). -/
def State.abortWaiting (s : State) : Option LdrCmd :=
  (s.notices.filter fun x => x.d = 8).findSome? fun x =>
    let q : LdrCmd := ⟨x, s.seen x.pointer 128⟩
    if s.posterReaches x.sender x.pointer 128 ∧ q.op = 3 then some q else none

/-- LDR_ABORT: taken ahead of its turn. A LOAD is abandoned, a loaded task stays, and a run is due for TASK_ABORT. -/
def execLdrAbort (s : State) : Outcome State Fault Refusal :=
  .next (match s.abortWaiting with
    | none => s
    | some q =>
      if s.power.mode = .safe then s
      else
        let load := (s.task q.task).bind (·.load)
        s.ldrReplies (q.req :: load.toList) fun s =>
          let s := s.emptySlot 8 0 q.x.n
          if q.fieldBad then s.ldrReply q.req 3 0x0002 []
          else s.ldrOwned q [.loading, .loaded, .running] fun t s =>
            match t.state with
            | .loading =>
              let s := match t.load with | some r => s.ldrReply r 5 0x0071 [] | none => s
              (s.dropTask t.id).ldrReply q.req 0 0 []
            | .running => s.onTask t.id fun t => { t with aborts := t.aborts ++ [q.req] }
            | _ => s.ldrReply q.req 0 0 [])

/-- LDR_RELEASE (R355). -/
def execLdrRelease (s : State) : Outcome State Fault Refusal :=
  .next (s.ldrTake (fun op => decide (op = 4)) fun q s => s.ldrOwned q [.loaded] fun t s => (s.freeTask t.id).ldrReply q.req 0 0 [])

/-- RUN_END (R351): every core of a running task has taken DONE: the run ends, and the START and any ABORT are answered OK. -/
def execRunEnd (task : Nat) (s : State) : Outcome State Fault Refusal :=
  .next (match s.task task with
    | none => s
    | some t =>
      s.when (decide (t.state = .running) && t.allDone) fun s =>
        s.ldrReplies (t.start.toList ++ t.aborts) fun s =>
          let s := s.finishRun task
          let s := match t.start with | some q => s.ldrReply q 0 0 cleanReport | none => s
          t.aborts.foldl (fun s q => s.ldrReply q 0 0 []) s)

/-- TASK_ABORT (R353): a run that an ABORT, or fault `fault` of core (d, c), ends. Its slots, cores, transfers, descriptors, pins and OPEN
sequences go at once; the task is LOADED when its requests have been answered. -/
def execTaskAbort (task fault d c : Nat) (s : State) : Outcome State Fault Refusal :=
  .next (match s.task task with
    | none => s
    | some t =>
      let s :=
        if t.state = .running ∧ t.allDone = false then
          (if fault = 0 ∧ t.aborts.isEmpty = false then
            (s.abortRun task).onTask task fun t => { t with report := cleanReport }
           else if fault ≠ 0 ∧ t.cores.contains (d, c) = true ∧ (s.core d c).faulted = some fault then
            (let r := s.faultReport fault d c
             (s.abortRun task).onTask task fun t => { t with report := r })
           else s)
        else s
      (match s.task task with
       | none => s
       | some t =>
         s.when (decide (t.state = .aborting)) fun s => s.ldrReplies (t.start.toList ++ t.aborts) fun s =>
           let s := s.finishRun task
           let why := if field t.report 0 2 = 0 then 0x0075 else 0x0074
           let s := match t.start with | some q => s.ldrReply q 5 why t.report | none => s
           t.aborts.foldl (fun s q => s.ldrReply q 0 0 []) s))

/-- CC_ABORT_INTERRUPT (R183, R245, R253): the control core of a core whose task is to be aborted abandons its routine, whose changes of shared
state are whole, and empties queues and counters. -/
def execCcAbortInterrupt (d c : Nat) (s : State) : Outcome State Fault Refusal :=
  .next (s.when (s.core d c).cc.abortDue fun s => ((s.kvUnwait d c).onCore d c fun k =>
    let k' := k.abortCc
    { k' with cc := k'.cc.took (if k.takes 16 false then 16 else if k.takes 17 false then 17 else 23) }))

/-! ### Stream buffers (R350) -/

/-- STREAM_BUFFER_FETCH (R350): a fetch completes: the moved allocation's bytes stand in its half (DESIGN CHOICE log 44). -/
def execStreamBufferFetch (task alloc : Nat) (data : List Byte) (s : State) : Outcome State Fault Refusal :=
  .next (match s.task task with
    | none => s
    | some t =>
      match t.buffer, t.halves.findIdx? fun h => decide (h.alloc = some alloc) && h.fetching with
      | some (base, half), some i =>
        s.withRanges (.kvm ((t.cores.headD (0, 0)).1)) [(base + i * half, half, true)] fun s =>
          (s.fillRange (base + i * half) half data).onTask task fun t =>
            { t with halves := modAt (fun h => { h with fetching := false }) t.halves i }
      | _, _ => s)

end Sys2Proof.Machine
end

