-- ==== Sys2Proof/Machine/Mailbox.lean ====
section
/-! DEFINITION. The commands of the mailboxes, taking a notice apart (chapter 11). -/

set_option Elab.async false

namespace Sys2Proof.Machine

open Sys2Proof Host

/-- NOTICE_POST (R51, R292, R293): an internal agent posts; firmware receives a bus error when the post is refused, and a hardware sender keeps
its notice. Stream and DMA engines do not post: streams post through routines only. -/
def execNoticePost (ag : Agent) (d k slot pointer tag : Nat) (s : State) : Outcome State Fault Refusal :=
  .next (s.when (agentInternal ag) fun s =>
    match ag with
    | .engine _ _ _ => s
    | _ => s.postNotice (senderOf ag) (.local_ d k slot) pointer tag)

/-- NOTICE_REPOST (R293): kept notice `n` is posted again, in the order in which its sender's posts were refused. -/
def execNoticeRepost (n : Nat) (s : State) : Outcome State Fault Refusal := .next (s.repost n)

/-- HOST_CAS_POST (R295): a host's compare-and-swap on the mailbox region. -/
def execHostCasPost (port off size : Nat) (compare swap : Nat) (rid : Nat) (s : State) : Outcome State Fault Refusal :=
  .next (s.whenP (port < 8 ∧ s.power.mode ≠ .off ∧ s.power.mode ≠ .standby) fun s => s.hostCas port off size compare swap rid)

/-- MAILBOX_HOST_READ (R294): a host's read of the mailbox region. -/
def execMailboxHostRead (port off len : Nat) (s : State) : Outcome State Fault Refusal :=
  .next (s.whenP (port < 8) fun s => s.access ⟨.host port 0, .bar 0 (0x100000 + off), .read len 0⟩)

/-- MAILBOX_HOST_FREE (R294): a host's write to the mailbox region. -/
def execMailboxHostFree (port off : Nat) (data : List Byte) (s : State) : Outcome State Fault Refusal :=
  .next (s.whenP (port < 8) fun s => s.access ⟨.host port 0, .bar 0 (0x100000 + off), .write data false⟩)

/-- DIETIME_LO_READ (R301): the low half is read and the high half latched. -/
def execDietimeLoRead (d : Nat) (s : State) : Outcome State Fault Refusal := .next (s.whenP (d < 8) fun s => s.regReadEffect d .MBX_DIETIME_LO)

end Sys2Proof.Machine
end

