-- ==== Sys2Proof/Machine/Memory.lean ====
section
/-! DEFINITION. The memory commands: reads, writes, the directory and hosts' answers (chapter 02). -/

set_option Elab.async false

namespace Sys2Proof.Machine

open Sys2Proof Host

/-- MEMORY_READ (R42, R49, R52, R61): a read of `len` bytes; `hold` 1 or 2 is a CXL 3.1 host taking the line shared or exclusive. -/
def execMemoryRead (ag : Agent) (t : Target) (len hold : Nat) (s : State) : Outcome State Fault Refusal :=
  .next (s.access ⟨ag, t, .read len hold⟩)

/-- MEMORY_WRITE (R42, R49, R61, R393): a write, possibly carrying poison. -/
def execMemoryWrite (ag : Agent) (t : Target) (data : List Byte) (poison : Bool) (s : State) : Outcome State Fault Refusal :=
  .next (s.access ⟨ag, t, .write data poison⟩)

/-- DIRECTORY_RECALL (R53): a full directory recalls the least recently allocated line it tracks. -/
def execDirectoryRecall (d : Nat) (s : State) : Outcome State Fault Refusal :=
  .next (s.when (s.dirFull d) fun s => s.recallOldest d)

/-- A host's hold on a line dropped from the directory (R53). -/
def State.dropHold (s : State) (port line : Nat) : State :=
  s.onMem fun m => { m with
    dir := (m.dir.map fun e => if e.line = line then { e with ports := e.ports.filter fun q => q.1 ≠ port } else e).filter
      fun e => !e.ports.isEmpty }

/-- HOST_CACHE_RESPONSE (R53, R56, R394): the host answers a request about a line, with the data of a modified line; the entry is
freed or the line obtained, a flip that waited may go on, and accesses that waited are tried again. -/
def execHostCacheResponse (port line : Nat) (data : Option (List Byte)) (s : State) : Outcome State Fault Refusal :=
  .next (match s.mem.snoops.find? fun x => x.port = port && x.line = line with
    | none => s
    | some x =>
      let s := s.onMem fun m => { m with snoops := m.snoops.filter (· ≠ x) }
      let s := match data with
        | some b => s.writeLine (line * 64) (padTo 64 0 b) false
        | none => s
      let s := if x.kind = .backInvalidate then s.dropHold port line
        else s.onMem fun m => { m with
          obtained := insertNat line m.obtained
          owned := if x.kind = .rdOwn then insertNat line m.owned else m.owned }
      s.retry)

end Sys2Proof.Machine
end

