-- ==== Sys2Proof/Machine/Mgmt.lean ====
section
/-! DEFINITION. The management commands (R442 to R447, R450, R454). -/

set_option Elab.async false

namespace Sys2Proof.Machine

open Sys2Proof Host

/-- Operations that no command serves: a reserved OP completes with RANGE, reason 0x0002 (R444). -/
def State.mgmtReserved (s : State) : State :=
  match s.mgmtHead with
  | some q => if q.op = 0 ∨ 8 < q.op then s.mgmtComplete 3 0x0002 0 else s
  | none => s

/-- MGMT_GO (R442): a host whose port has HP_CFG.REGS 0b10 writes BTS_MGMT_CTL of D0. In Safe the write is not taken (R466). -/
def execMgmtGo (port : Nat) (value : Word) (s : State) : Outcome State Fault Refusal :=
  .next (s.whenP (port < 8 ∧ s.fld port 0 0 HP_CFG.REGS = 2 ∧ bit value.toNat 0 = true ∧ s.power.mode ≠ .safe ∧
      s.power.mode ≠ .off ∧ s.power.mode ≠ .standby) fun s => (s.mgmtGo port).mgmtReserved)

/-- MCTP_MANAGEMENT (R442): a request record over I3C, with the signature after it. -/
def execMctpManagement (bytes sig : List Byte) (s : State) : Outcome State Fault Refusal :=
  .next (s.whenP (s.power.mode ≠ .off) fun s => (s.mgmtI3c bytes sig).mgmtReserved)

/-- Whether a loaded task uses a cluster or core, so that its STOP is refused (R445). -/
def State.unitInUse (s : State) (kind unit : Nat) : Bool :=
  if kind = 4 then s.clusterTasked (unit / 4) (unit % 4) else if kind = 5 then s.coreTasked (unit / 64) (unit % 64) else false

/-- MGMT_STOP (R445). -/
def execMgmtStop (s : State) : Outcome State Fault Refusal :=
  .next (s.mgmtServe 1 fun q s =>
    if q.kind = 6 then s.mgmtComplete 3 0x0002 0
    else if s.unitInUse q.kind q.unit then s.mgmtComplete 5 0x0097 0
    else if q.kind = 3 ∧ (s.stack q.unit).state = 2 then s.mgmtComplete 2 0x0096 0
    else
      let s := if s.unitStopped q.kind q.unit then s
        else s.onMgmt fun m => { m with stopped := m.stopped ++ [⟨q.kind, q.unit⟩] }
      let s :=
        if q.kind = 1 then (s.onPort q.unit fun p => { p with heldDown := true }).hotReset q.unit
        else if q.kind = 2 then s.fabricDown q.unit
        else if q.kind = 3 then s.onStack q.unit fun st =>
          { st with stopped := true, sr := if st.sr = .awake then .waiting else st.sr }
        else s
      s.mgmtComplete 0 0 0)

/-- MGMT_START (R444): a stopped unit restarts with its current settings; a stack wakes and its rebuild, if a die failed, begins. -/
def execMgmtStart (s : State) : Outcome State Fault Refusal :=
  .next (s.mgmtServe 2 fun q s =>
    if q.kind = 6 then s.mgmtComplete 3 0x0002 0
    else
      let s := s.onMgmt fun m => { m with stopped := m.stopped.filter (· ≠ ⟨q.kind, q.unit⟩) }
      let s :=
        if q.kind = 1 then s.onPort q.unit fun p => { p with heldDown := false }
        else if q.kind = 2 then s.fabricRestart q.unit
        else if q.kind = 3 then s.onStack q.unit fun st =>
          { st with
            stopped := false
            sr := match st.sr with | .asleep => .waking | .waiting => .awake | x => x }
        else s
      s.mgmtComplete 0 0 0)

/-- Whether register `r`, copy `u`, element `i` of die `d` lies in the blocks of a unit (R444). -/
def unitOwns (kind unit d : Nat) (r : Reg) (u : Nat) : Bool :=
  let o := r.row.base
  if kind = 1 then decide (d = unit ∧ 0xA00000 ≤ o ∧ o < 0xB00000)
  else if kind = 2 then decide (d = unit / 6 ∧ ((0xB00000 ≤ o ∧ o < 0xC00000) ∨ (0xC00000 ≤ o ∧ o < 0xD00000 ∧ u = unit % 6 / 3)))
  else if kind = 3 then decide (d = unit / 4 ∧ 0x600000 ≤ o ∧ o < 0x640000 ∧ u = unit % 4)
  else if kind = 4 then decide (d = unit / 4 ∧ 0x900000 ≤ o ∧ o < 0xA00000 ∧ u = unit % 4)
  else if kind = 5 then decide (d = unit / 64 ∧ 0x1000000 ≤ o ∧ o < 0x2000000 ∧ u = unit % 64)
  else false

/-- Registers of the protection set-up, which SET may not change (R440, R444). -/
def protectedReg : Reg → Bool
  | .SEQW_RANGE => true
  | .LDR_SUBMIT_BIND => true
  | .HP_CFG => true
  | _ => false

/-- SET (R444, R21): VALUE is written to an RWL register of a stopped unit. -/
def execSet (sigOk : Bool) (s : State) : Outcome State Fault Refusal :=
  .next (s.mgmtServe 3 fun q s =>
    s.mgmtSigned q sigOk fun s =>
      let d := bits q.reg 30 28
      match regAt (bits q.reg 27 0) with
      | none => s.mgmtComplete 3 0x0091 0
      | some (r, u, i) =>
        if protectedReg r then s.mgmtComplete 5 0x0093 0
        else if !s.unitStopped q.kind q.unit then s.mgmtComplete 5 0x0092 0
        else if !hasRwl r.row.fields || !unitOwns q.kind q.unit d r u then s.mgmtComplete 3 0x0091 0
        else if !legalWrite r q.value then s.mgmtComplete 3 0x0002 0
        else (s.setReg d r u i (BitVec.ofNat 32 (mergeWrite r.row.fields true (s.reg d r u i).toNat q.value))).mgmtComplete 0 0 0)

/-- SELFTEST (R447): served on a unit in service as its table decides; the request completes when the test does. -/
def execSelftest (s : State) : Outcome State Fault Refusal :=
  .next (s.mgmtServe 4 fun q s =>
    let waiting := s.mgmt.tests.any fun t => t.byMgmt
    if waiting then s
    else if q.kind = 2 then
      let f := (s.portSelftest q.unit).fresh
      f.2.mgmtComplete 0 0 (f.1 % 256)
    else if q.kind = 5 then
      s.onMgmt fun m => { m with tests := m.tests ++ [⟨⟨5, q.unit⟩, false, true, s.coreIdle (q.unit / 64) (q.unit % 64)⟩] }
    else if q.kind = 3 then
      (if bit q.reg 0 then
        (if (s.stack q.unit).stopped then s.onMgmt fun m => { m with tests := m.tests ++ [⟨⟨3, q.unit⟩, true, true, true⟩] }
         else s.mgmtComplete 2 0x0096 0)
       else s.onMgmt fun m => { m with tests := m.tests ++ [⟨⟨3, q.unit⟩, false, true, true⟩] })
    else s.mgmtComplete 3 0x0002 0)

/-- MEMORY_SELFTEST_DONE (R447): the destructive test of a stopped stack ends: failing core dies are retired under R89, the stack is
cleared, and RESULT names the dies. -/
def execMemorySelftestDone (stk : Nat) (failedDies : List Nat) (s : State) : Outcome State Fault Refusal :=
  .next (match s.mgmt.tests.find? fun t => t.unit = ⟨3, stk⟩ && t.memory with
    | none => s
    | some t =>
      let s := s.onMgmt fun m => { m with tests := m.tests.filter (· ≠ t) }
      let s := failedDies.foldl (fun s d =>
        if d < 16 then s.retireDie stk d else if d = 16 then s.parityDieFails stk else s) s
      let s := s.onMem fun m => { m with
        cells := m.cells.filter fun c => !(placedBase ≤ c.1 && c.1 < 0x140000000000 && placedStack c.1 = stk)
        poison := m.poison.filter fun l => placedStack (l * 64) ≠ stk }
      s.mgmtComplete 0 0 (ofBitSet (failedDies.filter (· < 17))))

/-- SELFTEST_IDLE_WAIT_EXPIRY (R447): a core SELFTEST that waited 1 s completes REFUSED, reason 0x0095; one whose core reads Idle
starts instead. -/
def execSelftestIdleWaitExpiry (d c : Nat) (s : State) : Outcome State Fault Refusal :=
  .next (match s.mgmt.tests.find? fun t => t.unit = ⟨5, d * 64 + c⟩ && t.byMgmt && !t.started with
    | none => s
    | some t =>
      let s := s.onMgmt fun m => { m with tests := m.tests.filter (· ≠ t) }
      if s.coreIdle d c then s.onMgmt fun m => { m with tests := m.tests ++ [{ t with started := true }] }
      else s.mgmtComplete 5 0x0095 0)

/-- TSENSE (R444, R446, R484): a reading of the unit's hottest sensor is demanded, and the request completes with it. With the bus
shut no sensor converts (R489), and the request waits. -/
def execTsense (s : State) : Outcome State Fault Refusal :=
  .next (s.mgmtServe 5 fun q s =>
    if s.power.rails then (let h := s.hottest q.kind q.unit; s.demand h.1 [h.2] .mgmt) else s)

/-- FW_COMMIT (R450): the staged image is written to flash, with VALUE its SVN; none staged is REFUSED, reason 0x009A. -/
def execFwCommit (sigOk : Bool) (s : State) : Outcome State Fault Refusal :=
  .next (s.mgmtServe 6 fun q s =>
    s.mgmtSigned q sigOk fun s =>
      match s.boot.staged with
      | none => s.mgmtComplete 5 0x009A 0
      | some img =>
        if q.value = fwSvn img then ({ s with flash := { s.flash with fw := img } }).mgmtComplete 0 0 0
        else s.mgmtComplete 3 0x0002 0)

/-- SVN_COMMIT (R436, R444): the fused floor rises to the running image's SVN, when VALUE equals it. -/
def execSvnCommit (sigOk : Bool) (s : State) : Outcome State Fault Refusal :=
  .next (s.mgmtServe 7 fun q s =>
    s.mgmtSigned q sigOk fun s =>
      let svn := fwSvn s.boot.imageHeader
      if q.value = svn then
        (if s.fuses.svnFloor < svn then { s with fuses := { s.fuses with svnBits := 2 ^ svn - 1 } } else s).mgmtComplete 0 0 0
      else s.mgmtComplete 3 0x0002 0)

/-- RESET (R454, R467): an owner-signed module reset with cause 0x2; the answer leaves first. -/
def execReset (sigOk : Bool) (s : State) : Outcome State Fault Refusal :=
  .next (s.mgmtServe 8 fun q s =>
    s.mgmtSigned q sigOk fun s => (s.mgmtComplete 0 0 0).moduleReset 2 .booting)

end Sys2Proof.Machine
end

