-- ==== Sys2Proof/Machine/Optics.lean ====
section
/-! DEFINITION. The commands of lanes, ports and lasers (chapter 14). Blocks are operands as their 32 bytes, byte 0 the TYPE (R365). -/

set_option Elab.async false

namespace Sys2Proof.Machine

open Sys2Proof Host

/-- Whether a control block of a type can arrive on a lane: the lane exists and sees light. -/
def State.blockOn (s : State) (e lane ty : Nat) (data : List Byte) : Bool :=
  decide (e < 16 ∧ lane < 36 ∧ data.length = 32 ∧ field data 0 1 = ty) && (s.lane e lane).lit

/-! ### Training (R370, R371, R406) -/

/-- LIGHT_DETECT (R370 step 1): a lane that sees light sends TS1 where its group trains; spares train with the port. -/
def execLightDetect (e lane : Nat) (s : State) : Outcome State Fault Refusal :=
  .next (s.whenP (e < 16 ∧ lane < 36 ∧ s.boot.lasersOn = true ∧ (s.lane e lane).lit = false) fun s =>
    let s := s.onLane e lane fun l => { l with lit := true }
    match s.logicalOf e lane with
    | none => if s.boot.lasersLocked then s.send (.block e lane (s.tsBlock 3 e lane lane 2 0 0xFFFF)) else s
    | some i =>
      let p := groupPort e i
      if s.mayTrain p then
        let s := if (s.fport p).phase = .down then s.onFPort p fun x => { x with phase := .training } else s
        if (s.fport p).phase = .training then s.sendTs1 p e lane 0 0xFFFF else s
      else s)

/-- The peer's identity from a TS1 (R365). -/
def FPort.learn (x : FPort) (data : List Byte) : FPort :=
  { x with
    phase := .training
    peer := bits (field data 1 2) 13 0
    peerKind := bits (field data 1 2) 15 14
    peerDie := field data 3 1
    peerEngine := field data 4 1 }

/-- A TS1 on a lane of a group: a group that was up retrains with its peer, a peer that is not the named one keeps a fabric port out of
service, and otherwise the lane's progress is noted and answered (DESIGN CHOICE log 46). -/
def State.takeTs1 (s : State) (p e lane : Nat) (data : List Byte) : State :=
  let m := bits (field data 1 2) 13 0
  let s := match (s.fport p).phase with
    | .up => s.trainPort p
    | .keepAlive => s.trainPort p
    | _ => s
  if p < 48 ∧ (s.namedPeer p ≠ some m ∨ bits (field data 1 2) 15 14 ≠ 0) then
    (if (s.fport p).phase = .miscabled then s
     else (s.onFPort p fun x => { x.learn data with phase := .miscabled }).raise (p / 6) 0x4A01 (.fport (p % 6)) 0 m)
  else
    let s := s.onFPort p fun x => x.learn data
    let s := s.onLane e lane fun l => { l with
      ts1 := true
      countdown := decide (field data 9 2 ≠ 0xFFFF)
      eqOk := decide (field data 8 1 = 0)
      ts2 := 0 }
    s.answerTs1 p e lane

/-- TS1 (R370, R371, R406). A free spare whose TS1 names a logical lane carries that lane from then on. -/
def execTs1 (e lane : Nat) (data : List Byte) (s : State) : Outcome State Fault Refusal :=
  .next (s.when (s.blockOn e lane 3 data) fun s =>
    let i := field data 6 1
    let s := if i < 32 ∧ (s.freeSpares e).contains lane = true ∧ (s.fport (groupPort e i)).phase = .training then s.mapLane e i lane else s
    match s.logicalOf e lane with
    | none => s.onLane e lane fun l => { l with ts1 := true }
    | some i => if s.mayTrain (groupPort e i) then s.takeTs1 (groupPort e i) e lane data else s)

/-- RATE_CHANGE (R362, R370 step 3): the lanes go to the port's mode. A fabric-mode port equalises, unless it holds stored settings; a
keep-alive port goes on to TS2; host lanes enter host mode (DESIGN CHOICE log 46). -/
def execRateChange (port : Nat) (s : State) : Outcome State Fault Refusal :=
  .next (s.whenP (port < 56 ∧ (s.fport port).phase = .training ∧ (s.fport port).rate = false ∧
      ((s.portLanes port).all fun en => (s.lane en.1 en.2).ts1 && (s.lane en.1 en.2).countdown) = true) fun s =>
    let mode := s.modeOf port
    let s := (s.portLanes port).foldl (fun s en => s.onLane en.1 en.2 fun l =>
      { l with countdown := false, eqOk := decide (mode ≠ 0), ts2 := 0, am := none }) s
    if 48 ≤ port then s.onFPort port fun x => { x with rate := true, phase := .up }
    else if mode ≠ 0 then (s.onFPort port fun x => { x with rate := true, eq := true }).sendTs2 port
    else
      let s := s.onFPort port fun x => { x with rate := true }
      (s.portLanes port).foldl (fun s en => s.answerTs1 port en.1 en.2) s)

/-- TS2 (R370 step 5) (DESIGN CHOICE log 46). -/
def execTs2 (e lane : Nat) (data : List Byte) (s : State) : Outcome State Fault Refusal :=
  .next (s.when (s.blockOn e lane 4 data) fun s =>
    match s.logicalOf e lane with
    | none => s
    | some i =>
      let p := groupPort e i
      s.whenP ((s.fport p).phase = .training ∧ (s.fport p).rate = true) fun s =>
        (s.onLane e lane fun l => { l with ts2 := satTo 16 (l.ts2 + 1) }).tryUp p)

/-- LANE_TRAIN_TIMEOUT (R371): a lane that fails a step before its port is up is replaced by the lowest free spare, which trains in its place;
without one R376 applies (DESIGN CHOICE log 46). -/
def execLaneTrainTimeout (e lane : Nat) (s : State) : Outcome State Fault Refusal :=
  .next (s.whenP (e < 16 ∧ lane < 36 ∧ (s.lane e lane).failed = false) fun s =>
    match s.logicalOf e lane with
    | none => s.when s.boot.lasersLocked fun s => s.failLane e lane
    | some i =>
      let p := groupPort e i
      s.whenP ((s.fport p).phase = .training) fun s =>
        let s := s.failLane e lane
        match (s.freeSpares e).head? with
        | some t =>
          let s := s.mapLane e i t
          if (s.lane e t).lit then s.sendTs1 p e t 0 0xFFFF else s
        | none => s.narrowPort p e i)

/-- PORT_TRAIN_RESTART (R371): a port not up within 100 ms starts again at step 2. -/
def execPortTrainRestart (port : Nat) (s : State) : Outcome State Fault Refusal :=
  .next (s.whenP (port < 56 ∧ (s.fport port).phase = .training) fun s => s.trainPort port)

/-- AM (R366): the marker count by which a port deskews its lanes (DESIGN CHOICE log 46). -/
def execAm (e lane : Nat) (data : List Byte) (s : State) : Outcome State Fault Refusal :=
  .next (s.when (s.blockOn e lane 2 data) fun s =>
    let s := s.onLane e lane fun l => { l with am := some (field data 2 2) }
    match s.logicalOf e lane with
    | some i => if field data 1 1 = i then s.tryUp (groupPort e i) else s
    | none => s)

/-- IDLE (R365): breaks a run of TS2 and does nothing else. -/
def execIdle (e lane : Nat) (s : State) : Outcome State Fault Refusal :=
  .next (s.whenP (e < 16 ∧ lane < 36) fun s => s.onLane e lane fun l => { l with ts2 := 0 })

/-! ### Replay -/

/-- REPLAY_TIMEOUT (R368): no ACK progress for 5 µs with flits outstanding. -/
def execReplayTimeout (port : Nat) (s : State) : Outcome State Fault Refusal :=
  .next (s.whenP (port < 48 ∧ ((s.fport port).phase = .up ∨ (s.fport port).phase = .keepAlive)) fun s => s.replayPort port)

/-! ### Spare lanes (R372 to R377) -/

/-- LANE_FAIL (R364, R372): the receiver declares a physical lane failed. A lane whose wavelength a peer holds is left alone (R378). -/
def execLaneFail (e lane : Nat) (s : State) : Outcome State Fault Refusal :=
  .next (s.whenP (e < 16 ∧ lane < 36 ∧ s.boot.lasersOn = true ∧ (s.lane e lane).failed = false ∧
      (s.engine e).held.contains (lane % 4) = false) fun s =>
    let s := s.failLane e lane
    let s := match (s.engine e).cal with
      | some c => if c.own = lane then s.onEngine e fun x => { x with cal := none } else s
      | none => s
    match s.logicalOf e lane with
    | none => s
    | some i =>
      let p := groupPort e i
      let s := if 24 ≤ i then s.onPort (e / 2) fun x => { x with lanesSeen := x.lanesSeen.filter (· ≠ hostLane e i) } else s
      s.repairPort p)

/-- Whether the request of this end stands when two cross (R374). -/
def State.standsOver (s : State) (p e : Nat) : Bool :=
  let x := s.fport p
  let mine := (s.moduleNo * 8 + e / 2) * 16 + e
  let theirs := (x.peer * 8 + x.peerDie % 8) * 16 + x.peerEngine % 16
  decide (x.peerKind = 1 ∨ mine < theirs)

/-- Whether a block's epoch is newer than a port's, modulo 256 (R365). -/
def newer (old new : Nat) : Bool := let k := (new + 256 - old) % 256; decide (0 < k ∧ k < 128)

/-- SWAP_REQ (R373 step 2, R374): the lane moves to the spare, an AM burst goes out on it and SWAP_ACK returns; of crossing requests the one
of the lower identity stands (DESIGN CHOICE log 47). -/
def execSwapReq (e : Nat) (data : List Byte) (s : State) : Outcome State Fault Refusal :=
  .next (s.whenP (e < 16 ∧ data.length = 32 ∧ field data 0 1 = 5) fun s =>
    let i := field data 1 1
    let spare := field data 2 1
    let ep := field data 3 1
    let p := groupPort e i
    let x := s.fport p
    let crossing := x.swap.isSome && decide (ep = x.epoch)
    let ok := decide (i < 32 ∧ spare < 36 ∧ (x.phase = .up ∨ x.phase = .keepAlive)) && (newer x.epoch ep || crossing) &&
      (s.logicalOf e spare).isNone && !(x.swap.isSome && s.standsOver p e)
    s.when ok fun s =>
      let old := s.physOf e i
      let s := if (s.lane e old).failed then s else s.failLane e old
      let s := match (s.engine e).cal with
        | some c => if c.logical = i then s.onEngine e fun x => { x with cal := none } else s
        | none => s
      let s := (s.onFPort p fun x => { x with swap := none, epoch := ep }).swapped p e i spare
      let s := s.raise (e / 2) 0x0901 (.oe (e % 2)) 0 i
      let f := s.fresh
      let s := (List.range 4).foldl (fun s k => s.send (.block e spare (ctlBlock 2 (leBytes 1 i ++ leBytes 2 (f.1 + k))))) f.2
      let s := s.sendBlocks p fun _ _ => ctlBlock 6 ((data.drop 1).take 4)
      s.repairPort p)

/-- SWAP_ACK (R373 steps 3 and 4): the spare carries the lane, and NAK has the peer replay. -/
def execSwapAck (e : Nat) (data : List Byte) (s : State) : Outcome State Fault Refusal :=
  .next (s.whenP (e < 16 ∧ data.length = 32 ∧ field data 0 1 = 6) fun s =>
    let i := field data 1 1
    let p := groupPort e i
    match (s.fport p).swap with
    | none => s
    | some w =>
      s.whenP (i < 32 ∧ w.logical = i ∧ w.old = s.physOf e i ∧ w.spare = field data 2 1 ∧ (s.fport p).epoch = field data 3 1) fun s =>
        let s := (s.onFPort p fun x => { x with swap := none }).swapped p e i w.spare
        let s := if p < 48 then (s.sendNak p).pumpAll else s
        s.repairPort p)

/-! ### Lasers (R378) -/

/-- LASER_FAIL (R361, R378): HOLD goes out and the wavelength moves to its spare laser; when that has failed too, its nine lanes fail
together (DESIGN CHOICE log 47). -/
def execLaserFail (e w : Nat) (s : State) : Outcome State Fault Refusal :=
  .next (s.whenP (e < 16 ∧ w < 4 ∧ s.boot.lasersOn = true ∧ (s.engine e).dark.contains w = false) fun s =>
    if (s.engine e).spare.contains w then
      let s := s.onEngine e fun x => { x with
        dark := x.dark ++ [w]
        relock := x.relock.filter (· ≠ w)
        cal := match x.cal with | some c => if c.own % 4 = w then none else some c | none => none }
      let s := ((List.range 36).filter fun n => n % 4 = w && !(s.lane e n).failed).foldl (fun s n => s.failLane e n) s
      [3 * e, 3 * e + 1, 3 * e + 2, 48 + e / 2].foldl (fun s p => s.repairPort p) s
    else
      let f := s.fresh
      let s := f.2.raise (e / 2) 0x0902 (.oe (e % 2)) 0 (f.1 % 65536)
      let s := [3 * e, 3 * e + 1, 3 * e + 2, 48 + e / 2].foldl (fun s p =>
        if (s.fport p).phase = .up then
          (s.portLanes p).foldl (fun s en =>
            if en.1 = e ∧ en.2 % 4 ≠ w then s.send (.block e en.2 (ctlBlock 8 (leBytes 1 w ++ leBytes 2 40))) else s) s
        else s) s
      s.onEngine e fun x => { x with spare := x.spare ++ [w], relock := x.relock ++ [w] })

/-- LASER_RELOCK (R378): the spare laser is locked, and the wavelength's lanes carry traffic again. -/
def execLaserRelock (e w : Nat) (s : State) : Outcome State Fault Refusal :=
  .next (s.whenP (e < 16 ∧ (s.engine e).relock.contains w = true) fun s =>
    (s.onEngine e fun x => { x with relock := x.relock.filter (· ≠ w) }).pumpAll)

/-- HOLD (R378): no swap of the wavelength's lanes is requested and no NAK sent until the hold ends (DESIGN CHOICE log 47). -/
def execHold (e : Nat) (data : List Byte) (s : State) : Outcome State Fault Refusal :=
  .next (s.whenP (e < 16 ∧ data.length = 32 ∧ field data 0 1 = 8 ∧ field data 1 1 < 4 ∧ (s.engine e).held.contains (field data 1 1) = false)
    fun s => s.onEngine e fun x => { x with held := x.held ++ [field data 1 1] })

/-- HOLD_EXPIRY (R378): the hold time of a wavelength ends. -/
def execHoldExpiry (e w : Nat) (s : State) : Outcome State Fault Refusal :=
  .next (s.whenP (e < 16) fun s => s.onEngine e fun x => { x with held := x.held.filter (· ≠ w) })

/-! ### Calibration (R377, R379) -/

/-- A retest of a failed lane (R377): whether it passes is the lane's; the third pass in a row makes it a free spare. A lane that failed twice,
or whose wavelength is dark, is not retested. -/
def State.retestLane (s : State) (e n : Nat) : State :=
  let l := s.lane e n
  if l.failed ∧ l.fails < 2 ∧ (s.engine e).dark.contains (n % 4) = false then
    let f := s.fresh
    f.2.onLane e n fun l => if f.1 % 2 = 1 then (if 2 ≤ l.passes then { l with failed := false, passes := 0 } else { l with passes := l.passes + 1 })
      else { l with passes := 0 }
  else s

/-- Whether a logical lane is active: its port is up and uses it. -/
def State.laneActive (s : State) (e i : Nat) : Bool :=
  let p := groupPort e i
  if i < 24 then decide ((s.fport p).phase = .up) && (s.portLanes p).contains (e, s.physOf e i) else decide ((s.port (e / 2)).proto ≠ 0)

/-- CALIBRATION_STEP (R377, R379): failed lanes are retested, and while two spares are free the next active logical lane moves to one. -/
def execCalibrationStep (e : Nat) (s : State) : Outcome State Fault Refusal :=
  .next (s.whenP (e < 16 ∧ s.boot.lasersLocked = true ∧ s.fld (e / 2) (e % 2) 0 OE_CAL_CFG.PERIOD ≠ 0 ∧ (s.engine e).cal = none) fun s =>
    let s := (List.range 36).foldl (fun s n => s.retestLane e n) s
    let from_ := (s.engine e).calNext
    let next := ((List.range 32).map fun j => (from_ + j) % 32).find? (s.laneActive e)
    match next, s.freeSpares e with
    | some i, a :: _ :: _ =>
      let own := s.physOf e i
      (s.moveLane e i a).onEngine e fun x => { x with cal := some ⟨i, own, a, false⟩, calNext := (i + 1) % 32 }
    | _, _ => s)

/-- CALIBRATION_COMPLETE (R379): the recalibrated lane moves back. -/
def execCalibrationComplete (e : Nat) (s : State) : Outcome State Fault Refusal :=
  .next (match (s.engine e).cal with
    | some c => s.whenP (c.byPeer = false) fun s => (s.moveLane e c.logical c.own).onEngine e fun x => { x with cal := none }
    | none => s)

/-- CAL_MOVE (R379): the peer moves a lane; both ends switch at the end of the countdown (DESIGN CHOICE log 47). -/
def execCalMove (e : Nat) (data : List Byte) (s : State) : Outcome State Fault Refusal :=
  .next (s.whenP (e < 16 ∧ data.length = 32 ∧ field data 0 1 = 7) fun s =>
    let i := field data 1 1
    let t := field data 2 1
    let p := groupPort e i
    let own := s.physOf e i
    s.when (decide (i < 32 ∧ t < 36) && newer (s.fport p).epoch (field data 3 1) && (s.logicalOf e t).isNone) fun s =>
      let s := (s.onFPort p fun x => { x with epoch := field data 3 1 }).oeCount e OE_SWAP_COUNT.CAL
      (s.mapLane e i t).onEngine e fun x => { x with cal := match x.cal with
        | some c => if c.byPeer && decide (c.logical = i ∧ c.own = t) then none else some c
        | none => some ⟨i, own, t, true⟩ })

/-! ### Keep-alive and host lanes (R380, R381) -/

/-- WAKE_BLOCK (R381, R496): a WAKE on a keep-alive port wakes the module. -/
def execWakeBlock (port : Nat) (s : State) : Outcome State Fault Refusal :=
  .next (s.whenP (port < 48 ∧ (s.fport port).phase = .keepAlive) fun s => s.wakeUp)

/-- BLOCK_ALIGNMENT_FOUND (R364, R380): a host lane with light and block alignment reports a receiver present. -/
def execBlockAlignmentFound (e lane : Nat) (s : State) : Outcome State Fault Refusal :=
  .next (s.whenP (e < 16 ∧ lane < 36 ∧ (s.lane e lane).lit = true) fun s =>
    match s.logicalOf e lane with
    | none => s
    | some i => s.whenP (24 ≤ i ∧ (s.fport (groupPort e i)).rate = true) fun s =>
      (s.onLane e lane fun l => { l with aligned := true }).onPort (e / 2) fun x =>
        { x with lanesSeen := hostLane e i :: x.lanesSeen.filter (· ≠ hostLane e i) })

/-- EIDLE (R380): electrical idle of the PCIe lane. -/
def execEidle (e lane : Nat) (s : State) : Outcome State Fault Refusal :=
  .next (s.whenP (e < 16 ∧ lane < 36 ∧ (s.lane e lane).aligned = true) fun s => s.onLane e lane fun l => { l with eidle := true })

/-- FILL_BLOCK (R380): capacity without PCIe bits, on a lane that is not in electrical idle (DESIGN CHOICE log 47). -/
def execFillBlock (e lane : Nat) (s : State) : Outcome State Fault Refusal :=
  .next (s.whenP (e < 16 ∧ lane < 36 ∧ (s.lane e lane).aligned = true) fun s => s.onLane e lane fun l => { l with eidle := false })

end Sys2Proof.Machine
end

