-- ==== Sys2Proof/Machine/Power.lean ====
section
/-! DEFINITION. The commands of power, heat and module states (chapter 19, and R432 where the pins start it). -/

set_option Elab.async false

namespace Sys2Proof.Machine

open Sys2Proof Host

/-- AUX_POWER_UP (R475, R492): from Off, the safety islands and the boot ROM are powered and the module is in Standby. -/
def execAuxPowerUp (s : State) : Outcome State Fault Refusal :=
  .next (s.whenP (s.power.mode = .off) fun s => s.moduleReset 0 .standby)

/-- AUX_POWER_LOSS (R454, R475, R492): a module reset with cause 0x0, and the module is Off. -/
def execAuxPowerLoss (s : State) : Outcome State Fault Refusal :=
  .next (s.whenP (s.power.mode ≠ .off) fun s => s.moduleReset 0 .off)

/-- NRESET_LOW (R454, R479, R499): nRESET held low for `ns`; below 10 µs it is ignored, from 10 µs on it is a module reset with
cause 0x1, the rails go and the module is in Standby. -/
def execNresetLow (ns : Nat) (s : State) : Outcome State Fault Refusal :=
  .next (s.whenP (s.power.mode ≠ .off ∧ 10000 ≤ ns) fun s =>
    (s.moduleReset 1 .standby).onPower fun p => { p with nresetHigh := false })

/-- NRESET_RISE (R432, R476, R500): the rising edge in Standby, with the input at `v10` × 10 mV: within 44 to 60 V it is t0, and
between 36 and 44 V t0 is deferred (DESIGN CHOICE log 33). -/
def execNresetRise (v10 : Nat) (s : State) : Outcome State Fault Refusal :=
  .next (s.whenP (s.power.mode = .standby ∧ s.power.nresetHigh = false) fun s =>
    let s := s.onPower fun p => { p with nresetHigh := true }
    if 4400 ≤ v10 ∧ v10 ≤ 6000 then s.t0
    else s.onPower fun p => { p with deferred := true })

/-- INPUT_SAMPLE (R476, R480): voltage in 10 mV and current in 10 mA are stored, a deferred t0 comes once the input is in range, an
input out of range outside Standby raises PTM_INPUT, and the power cap falls by 10 mV above 97 % of the input limit. -/
def execInputSample (v10 a10 : Nat) (s : State) : Outcome State Fault Refusal :=
  .next (s.whenP (s.power.mode ≠ .off) fun s =>
    let inRange := decide (4400 ≤ v10 ∧ v10 ≤ 6000)
    let limit := inputLimit v10 s.phasesFailed
    let s := s.setFld 0 0 0 PTM_INPUT.VOLTAGE v10
    let s := s.setFld 0 0 0 PTM_INPUT.CURRENT a10
    let s := s.setFld 0 0 0 PTM_INPUT_POWER.POWER (v10 * a10 / 10000)
    let s := s.setFld 0 0 0 PTM_INPUT_POWER.LIMIT limit
    if s.power.mode = .standby then (if s.power.deferred && inRange then s.t0 else s)
    else
      let s := if inRange then s else s.raise 0 0xCC04 .die 0 (f32OfVolt v10)
      if limit * 9700 < v10 * a10 then s.onPower fun p => { p with powerCap := max 600 (p.powerCap - 10) } else s)

/-- POWER_CAP_RAISE (R480): after 1 ms below 90 % of the input limit the power cap rises by 10 mV, up to 850 mV. -/
def execPowerCapRaise (s : State) : Outcome State Fault Refusal :=
  .next (s.whenP (s.fld 0 0 0 PTM_INPUT.VOLTAGE * s.fld 0 0 0 PTM_INPUT.CURRENT < 9000 * s.fld 0 0 0 PTM_INPUT_POWER.LIMIT)
    fun s => s.onPower fun p => { p with powerCap := min 850 (p.powerCap + 10) })

/-- DIE_POWER_SAMPLE (R481, R497): the powers of a die and of its stacks in W; above 410 W the die cap falls by 10 mV. -/
def execDiePowerSample (d w stacksW : Nat) (s : State) : Outcome State Fault Refusal :=
  .next (s.whenP (d < 8 ∧ s.power.rails = true) fun s =>
    let s := s.setFld d 0 0 PTM_DIE_POWER.DIE w
    let s := s.setFld d 0 0 PTM_DIE_POWER.STACKS stacksW
    if 410 < w then s.onPower fun p => { p with dieCap := mput p.dieCap d (max 600 (s.dieCapOf d - 10)) } else s)

/-- DIE_CAP_RAISE (R481): after 1 ms below 380 W the die cap rises by 10 mV, up to 850 mV. -/
def execDieCapRaise (d : Nat) (s : State) : Outcome State Fault Refusal :=
  .next (s.whenP (d < 8 ∧ s.power.rails = true ∧ s.fld d 0 0 PTM_DIE_POWER.DIE < 380) fun s =>
    s.onPower fun p => { p with dieCap := mput p.dieCap d (min 850 (s.dieCapOf d + 10)) })

/-- PHASE_FAIL (R464, R482): the phase is shed and PTM_PHASE recorded, the phase limit is recomputed, and with fewer than 11 phases left the
intermediate bus is shut, with BUS_LOST, and the module is in Standby, or stays in Safe, until module reset (DESIGN CHOICE log 34). -/
def execPhaseFail (s : State) : Outcome State Fault Refusal :=
  .next (s.whenP (s.power.mode ≠ .off ∧ s.phasesFailed < 18) fun s =>
    let f := s.phasesFailed + 1
    let v := s.fld 0 0 0 PTM_INPUT.VOLTAGE
    let s := s.setFld 0 0 0 PTM_STATUS.PHASES_FAILED f
    let s := s.setFld 0 0 0 PTM_INPUT_POWER.LIMIT (if v = 0 then phaseLimit f else inputLimit v f)
    let s := s.raise 0 0x0C02 .die 0 (f32OfVolt v)
    if 18 - f < 11 then
      let s := s.shutBus.setFld 0 0 0 PTM_STATUS.BUS_LOST 1
      if s.power.mode = .safe then s else s.onPower fun p => { p with mode := .standby }
    else s)

/-- THROTTLE_LOOP_DEMAND (R484): the loop demands every sensor of the die and its stacks. -/
def execThrottleLoopDemand (d : Nat) (s : State) : Outcome State Fault Refusal :=
  .next (s.whenP (d < 8 ∧ s.power.rails = true) fun s => s.demand d loopSensors .loop)

/-- What the end of a conversion means to the throttle loop (R486, R490): the warm-up count, the end of a die's loop, and the end
of Warm-up. -/
def State.loopReading (s : State) (d idx : Nat) (t : Int) : State :=
  let s := s.countWarm d idx t
  if s.waitsOn d loopSensors .loop then s
  else
    let s := s.loopDone d
    if s.power.mode = .warmUp ∧ s.warmedUp then s.onPower fun p => { p with mode := .booting } else s

/-- SENSOR_CONVERSION_DONE (R484 to R490): a sensor that was converting gives its reading, in 1/16 °C, to every source that
demanded it. -/
def execSensorConversionDone (d idx : Nat) (temp : Int) (s : State) : Outcome State Fault Refusal :=
  .next (s.whenP (d < 8 ∧ s.converting d idx = true ∧ s.power.rails = true) fun s =>
    let loop := s.demandedBy d idx .loop
    let refresh := s.demandedBy d idx .refresh
    let host := s.demandedBy d idx .host
    let mgmt := s.demandedBy d idx .mgmt
    let stk := 4 * d + (idx - 0x60) / 38
    let s := (s.dropDemands d idx).reading d idx temp
    let s := if host then s.hostReading d idx temp else s
    let s := if refresh && !s.waitsOn d (stackSensors (stk % 4)) .refresh then s.stackRead stk else s
    let s := if mgmt then s.mgmtReading temp else s
    if loop then s.loopReading d idx temp else s)

/-- PTM_TSENSE_REQ_WRITE (R497): a write of PTM_TSENSE_REQ on a die. -/
def execPtmTsenseReqWrite (d : Nat) (value : Word) (s : State) : Outcome State Fault Refusal :=
  .next (s.whenP (d < 8 ∧ s.power.rails = true ∧ s.power.mode ≠ .safe) fun s => s.tsenseReq d value.toNat)

/-- ENTER_DORMANT (R493): a request for Dormant through PTM_STATE_CTL. -/
def execEnterDormant (s : State) : Outcome State Fault Refusal :=
  .next (s.whenP (s.power.mode ≠ .off ∧ s.power.mode ≠ .safe) fun s => s.requestDormant)

/-- PLDM_SET_STATE_EFFECTER (R493, R496): the power-state effecter set to off asks for Dormant, set to on it wakes the module. -/
def execPldmSetStateEffecter (on : Bool) (s : State) : Outcome State Fault Refusal :=
  .next (s.whenP (s.power.mode ≠ .off ∧ s.power.mode ≠ .safe) fun s => if on then s.wakeUp else s.requestDormant)

/-- DORMANT_ENTRY_COMPLETE (R493, R494). -/
def execDormantEntryComplete (s : State) : Outcome State Fault Refusal := .next s.dormantEntered

/-- WAKE (R496): a wake cause in Dormant. -/
def execWake (s : State) : Outcome State Fault Refusal := .next s.wakeUp

/-- WAKE_COMPLETE (R496): the module is in Ready and held traffic is served. -/
def execWakeComplete (s : State) : Outcome State Fault Refusal :=
  .next (s.whenP (s.power.mode = .waking) fun s => (s.onPower fun p => { p with mode := .ready }).retry)

/-- WARMUP_STALLED (R490): after 600 s in Warm-up. -/
def execWarmupStalled (s : State) : Outcome State Fault Refusal :=
  .next (s.whenP (s.power.mode = .warmUp) fun s => s.setFld 0 0 0 PTM_STATUS.WARMUP_STALLED 1)

/-- RAILS_UP (R432 step 2, R478, R490): the bus and each die's rails come up in order and every sensor is read once: the listed readings,
and `ambient` for the others. Thresholds and refresh intervals follow at once (R80, R487); a valid sensor below 5 °C starts Warm-up (DESIGN
CHOICE log 34). -/
def execRailsUp (ambient : Int) (readings : List SensorReading) (s : State) : Outcome State Fault Refusal :=
  .next (s.whenP (s.power.mode = .booting ∧ s.boot.fwOk = true ∧ s.boot.railsUp = false) fun s =>
    let s := s.onPower fun p => { p with rails := true, busShut := false, ambient := some ambient, sensors := [] }
    let s := s.onBoot fun b => { b with railsUp := true, lastStep := 2 }
    let s := readings.foldl (fun s r => if r.d < 8 ∧ r.idx < 0xF8 then s.storeTemp r.d r.idx r.temp else s) s
    let s := readings.foldl (fun s r =>
      if r.d < 8 ∧ r.idx < 0xF8 ∧ s.outlier r.d r.idx r.temp = true then s.excludeSensor r.d r.idx r.temp else s) s
    let cold := decide (ambient < 80) || readings.any fun r =>
      match s.validTemp r.d r.idx with | some t => decide (t < 80) | none => false
    let hot := if 1680 ≤ ambient then (List.range 8).flatMap fun d => loopSensors.map fun i => (d, i) else readings.map fun r => (r.d, r.idx)
    let s := hot.foldl (fun s r =>
      match s.validTemp r.1 r.2 with
      | some t => if 0 ≤ t then s.thresholds r.1 r.2 t else s
      | none => s) s
    let s := (List.range 32).foldl (fun s stk => s.quicken stk) s
    if cold then s.onPower fun p => { p with mode := .warmUp } else s)

end Sys2Proof.Machine
end

