-- ==== Sys2Proof/Machine/StackCmds.lean ====
section
/-! DEFINITION. The commands of stacks and their controllers (chapter 03). -/

set_option Elab.async false

namespace Sys2Proof.Machine

open Sys2Proof Host

/-- Whether a bank exists: a data bank, a parity bank or a spare bank (R64). -/
def bankExists (b : BankId) : Bool :=
  decide (b.stk < 32) && (decide (b.die < 16 ∧ b.bank < 64) || decide (b.die = 16 ∧ b.bank < 68))

/-- Whether a bank has `c` outstanding. -/
def State.awaits (s : State) (b : BankId) (p : BankCmd → Bool) : Bool :=
  match (s.bank b).cmd with
  | some c => p c
  | none => false

/-- A completion event of a bank (R68): the state after its command, and the bank's next command. -/
def State.bankEvent (s : State) (b : BankId) (p : BankCmd → Bool) (f : Bank → Bank) : State :=
  s.when (s.awaits b p) fun s => s.drive b (f (s.bank b))

/-- OPEN_DONE (R68): the row is open and the controller sends the bank's next command. -/
def execOpenDone (b : BankId) (s : State) : Outcome State Fault Refusal :=
  .next (s.bankEvent b (fun c => match c with | .opening _ => true | _ => false) Bank.openDone)

/-- The placed address of the column that a bank's column command works on. -/
def State.columnAddr (s : State) (b : BankId) : Nat :=
  let x := s.bank b
  match x.cmd with
  | some (.column n) =>
    (match x.queue[n]? with
     | some r => placedAddr b.stk b.die b.bank r.row (32 * r.col)
     | none => placedAddr b.stk b.die b.bank 0 0)
  | _ => placedAddr b.stk b.die b.bank 0 0

/-- A column command that completes with `symbols` in error (R68, R71, R72). -/
def State.columnEvent (s : State) (b : BankId) (symbols : Nat) : State :=
  let s := s.columnError (s.columnAddr b) symbols
  s.drive b (s.bank b).columnDone

/-- Whether a bank has a column command outstanding. -/
def isColumn : BankCmd → Bool
  | .column _ => true
  | _ => false

/-- COLUMN_DONE (R68, R71, R72, R146): a column step has finished, with `symbols` in error. A column of a sequence that cannot be
recovered ends it with POISON. -/
def execColumnDone (b : BankId) (symbols : Nat) (s : State) : Outcome State Fault Refusal :=
  .next (if s.awaits b isColumn then s.columnEvent b symbols
    else if s.seqHolds b then s.seqColumn b symbols
    else s)

/-- CLOSE_DONE (R68, R76): the row is closed; held requests or the next command follow. -/
def execCloseDone (b : BankId) (s : State) : Outcome State Fault Refusal :=
  .next (s.bankEvent b (fun c => match c with | .closing => true | _ => false) Bank.closeDone)

/-- REFRESH_DONE (R68, R81 to R83): the bank goes on, a refresh that waited for the allowance starts, and after a burst the accesses that
waited for it are served. -/
def execRefreshDone (b : BankId) (s : State) : Outcome State Fault Refusal :=
  .next (s.when (s.awaits b fun c => match c with | .refreshing => true | _ => false) fun s =>
    ((s.drive b (s.bank b).refreshDone).nextRefresh b.stk).retry)

/-- RESULT_READY (R68, R144, R148 steps 7 and 8): the bank's arithmetic unit holds a result line, which the controller takes to write or
forward; the hosts that hold the line it will write are asked for it. -/
def execResultReady (b : BankId) (s : State) : Outcome State Fault Refusal :=
  .next (match s.seqs.find? fun j => j.token && decide (j.d.bank = b) with
    | some j => s.resultReady j
    | none => s)

/-- EV_ERROR (R68, R69, R72): an uncorrectable column, recovered from parity or poisoned, or a command parity failure, after which
the channel is treated as faulty. The banks of the parity die are served through no channel and take no requests (R65). -/
def execEvError (b : BankId) (column : Bool) (s : State) : Outcome State Fault Refusal :=
  .next (s.whenP (b.stk < 32 ∧ b.die < 16 ∧ b.bank < 64) fun s =>
    if column then
      (if s.awaits b isColumn then s.columnEvent b 4 else if s.seqHolds b then s.seqColumn b 4 else s)
    else s.onStack b.stk fun st => { st with
      channels := mput st.channels (channelOf b) { mget freshChannel st.channels (channelOf b) with faulty := true } })

/-- SELF_REFRESH_ENTERED (R84): EV 0x7 after the command. A stack that has been started again, or whose module has left Dormant, since
the command is woken at once. -/
def execSelfRefreshEntered (stk : Nat) (s : State) : Outcome State Fault Refusal :=
  .next (s.whenP (stk < 32 ∧ (s.stack stk).sr = .commanded) fun s => s.onStack stk fun st => { st with
    sr := if st.stopped || [.enteringDormant, .dormant, .safe].contains s.power.mode then .asleep else .waking })

/-- SELF_REFRESH_EXIT_DONE (R84, R85): EV 0x8; held requests are served. -/
def execSelfRefreshExitDone (stk : Nat) (s : State) : Outcome State Fault Refusal :=
  .next (s.whenP (stk < 32 ∧ (s.stack stk).sr = .waking) fun s => (s.onStack stk fun st => { st with sr := .awake }).retry)

/-- CHANNEL_HANDSHAKE_TIMEOUT (R69): the channel is faulty and its requests are held. -/
def execChannelHandshakeTimeout (stk ch : Nat) (s : State) : Outcome State Fault Refusal :=
  .next (s.whenP (stk < 32 ∧ ch < 64) fun s => s.onStack stk fun st => { st with
    channels := mput st.channels ch { mget freshChannel st.channels ch with faulty := true } })

/-- The sixteen banks of a channel (R65). -/
def channelBanks (stk ch : Nat) : List BankId := (List.range 16).map fun i => ⟨stk, 4 * (ch / 16) + i / 4, 4 * (ch % 16) + i % 4⟩

/-- TSV_REPAIR (R69, R89, R90, R464): the faulty wire of a channel is remapped to a spare, or runs without one, and the channel
resumes: its banks' held commands are sent and its held requests served. -/
def execTsvRepair (stk ch : Nat) (control : Bool) (s : State) : Outcome State Fault Refusal :=
  .next (s.whenP (stk < 32 ∧ ch < 64) fun s =>
    ((channelBanks stk ch).foldl (fun s b => s.drive b (s.bank b)) (s.repairWire stk ch control)).retry)

/-- REQUEST_AGE_LIMIT (R74): request `n` of a bank's queue becomes urgent. -/
def execRequestAgeLimit (b : BankId) (n : Nat) (s : State) : Outcome State Fault Refusal :=
  .next (s.whenP (n < (s.bank b).queue.length) fun s =>
    let x := s.bank b
    s.drive b { x with queue := modAt (fun r => { r with urgent := true }) x.queue n })

/-- IDLE_TIMER_EXPIRY (R76): the controller closes the row of an idle bank that no sequence holds. -/
def execIdleTimerExpiry (b : BankId) (s : State) : Outcome State Fault Refusal :=
  .next (s.whenP ((s.bank b).idle = true ∧ (s.bank b).cmd = none ∧ s.seqHolds b = false ∧ s.channelHeld b = false) fun s =>
    s.onBank b fun x => { x with cmd := some .closing, idle := false })

/-- REFRESH_DUE (R81, R82): performed on an idle bank, postponed as debt on one that holds a row, and on a debt of eight forced as a
burst of nine. A stack in self-refresh refreshes itself (R84). -/
def execRefreshDue (b : BankId) (s : State) : Outcome State Fault Refusal :=
  .next (s.whenP (bankExists b = true ∧ (s.stack b.stk).sr ≠ .asleep ∧ (s.stack b.stk).sr ≠ .waking) fun s =>
    let x := s.bank b
    let s := if 8 ≤ x.debt then s.countFld (b.stk / 4) (b.stk % 4) 0 SC_REFRESH_DEBT.FORCED 1 else s
    s.drive b (x.refreshDue (s.seqHolds b)))

/-- STACK_TSENSE_DEMAND (R80, R484): the refresh scheduler demands every sensor of the stack, unless it sleeps. -/
def execStackTsenseDemand (stk : Nat) (s : State) : Outcome State Fault Refusal :=
  .next (s.whenP (stk < 32 ∧ s.power.rails = true ∧ (s.stack stk).sr ≠ .asleep) fun s =>
    s.demand (stk / 4) (stackSensors (stk % 4)) .refresh)

/-- TSENSE_OVERDUE (R80): a scheduled reading missing for two periods sets the 0.975 µs interval until one arrives. -/
def execTsenseOverdue (stk : Nat) (s : State) : Outcome State Fault Refusal :=
  .next (s.whenP (stk < 32 ∧ (s.stack stk).sr ≠ .asleep) fun s => s.onStack stk fun st => { st with overdue := true })

/-- SR_ENTRY_DELAY_EXPIRY (R84): a stack that stayed without requests closes its rows, pays its debts and is sent the self-refresh
command; one whose banks have requests, or on which a sequence runs, waits on. -/
def execSrEntryDelayExpiry (stk : Nat) (s : State) : Outcome State Fault Refusal :=
  .next (s.whenP (stk < 32 ∧ (s.stack stk).sr = .waiting ∧ (s.banksOf stk).all (fun kb => kb.2.queue.isEmpty) = true ∧
      s.actHeld stk = 0) fun s =>
    { (s.onStack stk fun st => { st with sr := .commanded }) with banks := s.banks.filter fun kb => kb.1 / 128 / 17 ≠ stk })

/-- Whether the parity die stands in for a retired data die at row position `pos` (R92, R93). -/
def Stack.standIn (st : Stack) (pos : Nat) : Option Nat :=
  match st.retired, st.rebuild with
  | some r, some p => if pos < p then some r else none
  | some r, none => if st.parityFailed then none else some r
  | none, _ => none

/-- What scrub does about one column in error (R86, R87): 0 symbols stand for a parity check that fails while every column decodes,
whose parity is recomputed. A column of the parity die is the retired die's where it stands in for that die (R93). -/
def State.scrubError (s : State) (stk pos : Nat) (e : ColumnError) : State :=
  let st := s.stack stk
  let at_ := fun (die : Nat) => placedAddr stk die (pos % 64) (pos / 64) (32 * (e.column % 32))
  let recount := fun (s : State) =>
    (s.countFld (stk / 4) (stk % 4) 0 SC_ECC_COUNT.RECONSTRUCTED 1).raise (stk / 4) 0x0102 (scUnit stk) 0 (alignDown (at_ (min e.die 15)) 1024)
  let kept := st.parity && (st.standIn pos).isNone
  if e.symbols = 0 then (if kept then recount s else s)
  else if e.die < 16 then s.columnError (at_ e.die) e.symbols
  else
    match st.standIn pos with
    | some r => s.columnError (at_ r) e.symbols
    | none => if !kept then s else if 1 < e.symbols then recount s else s.columnError (at_ 15) 1

/-- Whether the banks of a row position, on all seventeen dies, can be read for scrub (R73 rank 4, R77, R147): no sequence holds one, no
burst runs, and none has requests or a command; once scrub is behind, its requests are urgent and wait only for older urgent ones
(R88). -/
def State.scrubTurn (s : State) (stk pos : Nat) : Bool :=
  let behind := decide (s.fld (stk / 4) (stk % 4) 0 SC_SCRUB_STATUS.BEHIND = 1)
  (List.range 17).all fun die =>
    let b : BankId := ⟨stk, die, pos % 64⟩
    let x := s.bank b
    !s.seqHolds b && decide (x.burst = 0) &&
      (if behind then x.queue.all (fun r => !r.urgent) else x.cmd.isNone && x.pick.isNone)

/-- SCRUB_POSITION (R73, R86 to R88): when its banks can be read, the row position that SC_SCRUB_STATUS.POSITION names is read on all dies
and corrected, and the position advances. BEHIND shows whether scrub is more than 1 % of the period late. -/
def execScrubPosition (stk : Nat) (errors : List ColumnError) (behind : Bool) (s : State) : Outcome State Fault Refusal :=
  .next (s.whenP (stk < 32 ∧ (s.stack stk).cleared = true ∧ (s.stack stk).sr ≠ .asleep ∧ (s.stack stk).sr ≠ .waking) fun s =>
    let d := stk / 4
    let j := stk % 4
    let pos := s.fld d j 0 SC_SCRUB_STATUS.POSITION
    let s := s.when (s.scrubTurn stk pos) fun s =>
      (errors.foldl (fun s e => s.scrubError stk pos e) s).setFld d j 0 SC_SCRUB_STATUS.POSITION ((pos + 1) % rowPositions)
    s.setFld d j 0 SC_SCRUB_STATUS.BEHIND (flag behind))

/-- BANK_RETIRE (R89, R91, R94): a data bank fails. -/
def execBankRetire (b : BankId) (s : State) : Outcome State Fault Refusal :=
  .next (s.whenP (b.stk < 32 ∧ b.die < 16 ∧ b.bank < 64) fun s => s.retireBank b.stk b.die b.bank)

/-- BANK_COPY_COMPLETE (R45, R60, R89): the copy into a spare bank completes and the logical bank is redirected. -/
def execBankCopyComplete (b : BankId) (s : State) : Outcome State Fault Refusal :=
  .next (s.when ((s.stack b.stk).spares.contains ⟨b.die, b.bank, false⟩) fun s =>
    s.onStack b.stk fun st => { st with
      spares := st.spares.map fun x => if x = ⟨b.die, b.bank, false⟩ then { x with done := true } else x
      recon := st.recon.filter (· ≠ (b.die, b.bank)) })

/-- DIE_RETIRE (R89, R92, R94): a data core die fails. -/
def execDieRetire (stk die : Nat) (s : State) : Outcome State Fault Refusal :=
  .next (s.whenP (stk < 32 ∧ die < 16) fun s => s.retireDie stk die)

/-- REBUILD_POSITION (R92, R93): the rebuild's next row position, which no sequence holds and no burst keeps; on a stopped stack it
begins at the START (R445). -/
def execRebuildPosition (stk : Nat) (s : State) : Outcome State Fault Refusal :=
  .next (s.whenP (stk < 32 ∧ (s.stack stk).stopped = false) fun s =>
    match (s.stack stk).rebuild with
    | some p => s.when ((List.range 17).all fun die => !s.seqHolds ⟨stk, die, p % 64⟩ && decide ((s.bank ⟨stk, die, p % 64⟩).burst = 0)) fun s =>
        s.rebuildStep stk
    | none => s)

/-- PARITY_DIE_FAIL (R89, R505). -/
def execParityDieFail (stk : Nat) (s : State) : Outcome State Fault Refusal :=
  .next (s.whenP (stk < 32) fun s => s.parityDieFails stk)

end Sys2Proof.Machine
end

