-- ==== Sys2Proof/Machine/Steps.lean ====
section
/-! DEFINITION. The commands of the attention sequencers and the notices that control cores and sequencers take (R35 to R40, R245, R294, R316,
R323 to R332, R506). -/

set_option Elab.async false

namespace Sys2Proof.Machine

open Sys2Proof Host

/-! ### Notices taken (R294, R506) -/

/-- The oldest notice in the slots of a cluster that are bound to a receiver: 0 with a core's index, or 1 for the attention sequencer. -/
def State.nextNotice (s : State) (d k recv target : Nat) : Option Notice :=
  s.notices.find? fun x => decide (x.d = d ∧ x.k = k) &&
    (let b := s.binding d k x.n
     bit b 31 && decide (bindRecv b = recv) && (recv = 1 || decide (bindTarget b = target)))

/-- A control core takes its next notice and runs KV_SERVICE for it: when no routine runs or waits and no patches are due (R245). A record that
the poster may not reach consumes the notice, and one with a reserved OP completes at once (R314). -/
def State.ccTake (s : State) (d c : Nat) : State :=
  let k := s.core d c
  match s.nextNotice d (c / 16) 0 (c % 16) with
  | none => s
  | some x =>
    if !s.corePresent d c || !k.takes 19 true || k.cc.due.isSome || k.faulted.isSome || k.patchDue.isSome || decide (s.power.mode = .safe) then s
    else if !s.posterReaches x.sender x.pointer 64 then (s.emptySlot d (c / 16) x.n).mapErr (.cc d c) false x.pointer
    else s.withMem (.cc d c) [(x.pointer, 64, false)] fun s =>
      let s := (s.emptySlot d (c / 16) x.n).onCc d c fun m =>
        { m.took 19 with
          call := some ⟨2, 0x100, x.pointer, 0, some (x.n, x.bytes), 0, false, 0, false, none, none⟩
          lastSource := 2
          lastId := 0x100 }
      match s.kvReq d c with
      | some q => if 1 ≤ q.op ∧ q.op ≤ 6 then s else s.kvDone q 3 0x0002
      | none => s

/-- CC_NOTICE_DISPATCH (R245). -/
def execCcNoticeDispatch (d c : Nat) (s : State) : Outcome State Fault Refusal := .next (s.ccTake d c)

/-- The model to which a slot is bound (R323): the task's only one, or one of its models that the spec leaves open (DESIGN CHOICE log 59). -/
def State.slotModel (s : State) (d k slot : Nat) : Option KvModel :=
  (s.slotTask d k slot).bind fun t => match t.models with
    | [a] => some (s.model a)
    | as => (as[Config.slotModel d k slot % as.length]?).map s.model

/-- A step accepted (R35, R326 step 1): the header and the rows are read, and a failure at precedence 1 of R325 noted. -/
def State.aseqTake (s : State) (d k : Nat) : State :=
  match s.nextNotice d k 1 0 with
  | none => s
  | some x =>
    if 256 ≤ (s.liveSteps.filter fun y => y.d = d && y.k = k).length ∨ s.power.mode = .safe then s
    else if !s.posterReaches x.sender x.pointer 64 then (s.emptySlot d k x.n).mapErr (.aseq d k) false x.pointer
    else s.withMem (.aseq d k) [(x.pointer, 64, false)] fun s =>
      let h := s.seen x.pointer 64
      let m := (s.slotModel d k x.n).getD (kvModel 0 [])
      let st : Step := {
        d := d
        k := k
        id := s.kv.stepNext
        pointer := x.pointer
        tag := x.tag
        sender := x.sender
        header := h
        model := m.addr
        rows := []
        failed := none
        ended := false }
      let n := st.nrows
      let failed := if st.headerBad m.layers then some 0x0002
        else if !s.posterReaches x.sender st.rowsAddr (32 * n) then some 0x0008 else none
      let live := s.liveSteps
      let rows := if failed.isSome then [] else (List.range n).map fun i => freshRow (s.seen (st.rowsAddr + 32 * i) 32)
      (s.emptySlot d k x.n).onKv fun y => { y with
        steps := live ++ [{ st with rows := rows, failed := failed }]
        stepNext := y.stepNext + 1 }

/-- NOTICE_TAKE (R294): receiver `recv` of a cluster takes its next notice: core C(16k + recv), or its attention sequencer when `recv` is 16. -/
def execNoticeTake (d k recv : Nat) (s : State) : Outcome State Fault Refusal :=
  .next (if recv < 16 then s.ccTake d (16 * k + recv) else if recv = 16 then s.aseqTake d k else s)

/-! ### Steps -/

/-- STEP_DECODE (R326): step `n` of a cluster appends and then attends, each of its rows as far as it can go. -/
def execStepDecode (d k n : Nat) (s : State) : Outcome State Fault Refusal := .next (s.stepRun d k n 1)

/-- STEP_ATTEND (R326). -/
def execStepAttend (d k n : Nat) (s : State) : Outcome State Fault Refusal := .next (s.stepRun d k n 2)

/-- STEP_APPEND (R326). -/
def execStepAppend (d k n : Nat) (s : State) : Outcome State Fault Refusal := .next (s.stepRun d k n 3)

/-- The first row of a cluster's steps that waits for KV_ALLOC_PAGE. -/
def State.allocRow (s : State) (d k : Nat) : Option (Step × Nat × StepRow) :=
  (s.kv.steps.filter fun x => x.d = d && x.k = k).findSome? fun x =>
    (x.rows.zipIdx.find? fun w => decide (w.1.phase = 2 ∧ w.1.prec = 99)).map fun w => (x, w.2, w.1)

/-- KV_ALLOC_PAGE (R316): one frame for the page of the new token in every plane of the model, on a control core of the home cluster; without a
frame it waits while a spill can free one, and otherwise the row fails. A LENGTH that has risen since sends the row back to its page. -/
def execKvAllocPage (d c : Nat) (s : State) : Outcome State Fault Refusal :=
  .next (match s.allocRow d (c / 16) with
    | none => s
    | some (x, i, w) =>
      s.when (s.corePresent d c && (s.core d c).cc.call.isNone) fun s =>
        let m := s.model x.model
        let r := s.seqRow m w.seq
        let n := r.length / 256
        if r.length ≠ w.length then s.onRow x.id i fun w => { w with phase := 1 }
        else s.orStarve x i m (s.allocPages m r w.seq n (s.newPlanes m r w.seq n)) [] fun s =>
          s.onRow x.id i fun w => { w with phase := 3 })

/-- PARTIAL_MERGE (R330): partial `i` of a step merges into another at its place, or is forwarded. -/
def execPartialMerge (d k n i : Nat) (s : State) : Outcome State Fault Refusal :=
  .next (match s.stepAt d k n with
    | none => s
    | some x => s.onStep x.id fun y => { y with rows := mergeIn s.frameStack y.rows i })

/-- CORE_MODE (R332): the reserved cores compute the next query head of row `i`. -/
def execCoreMode (d k n i : Nat) (s : State) : Outcome State Fault Refusal :=
  .next (match s.stepAt d k n with
    | none => s
    | some x => match x.rows[i]? with
      | some w => s.coreMode x i w
      | none => s)

/-- The status and reason of a step, and the rows that are not OK (R325). -/
def Step.outcome (x : Step) : Nat × Nat × Nat :=
  match x.failed with
  | some why => (3, why, x.nrows)
  | none =>
    let bad := x.rows.filter fun w => w.status ≠ 0
    match bad with
    | [] => (0, 0, 0)
    | w :: _ => (w.status, w.reason, bad.length)

/-- The rows that a header failed with reason 0x0002 fails, where the header names rows that the poster reaches (R325) (DESIGN CHOICE log 42). -/
def State.failedRows (s : State) (x : Step) : List Nat :=
  if x.failed = some 0x0002 ∧ x.rowsAddr % 64 = 0 ∧ 1 ≤ x.nrows ∧ x.nrows ≤ 4096 ∧ s.posterReaches x.sender x.rowsAddr (32 * x.nrows) then
    (List.range x.nrows).map fun i => x.rowsAddr + 32 * i
  else []

/-- STEP_COMPLETE (R38, R326): with every row done, the header is written, the completion notice sent, and a status other than OK latched in
ASEQ_ERR. -/
def execStepComplete (d k n : Nat) (s : State) : Outcome State Fault Refusal :=
  .next (match s.stepAt d k n with
    | none => s
    | some x =>
      s.when (!x.ended && x.rows.all fun w => w.phase = 9) fun s =>
        let bad := s.failedRows x
        s.withMem (.aseq d k) ((x.pointer, 64, true) :: bad.map fun a => (a, 32, true)) fun s =>
          let o := x.outcome
          let s := bad.foldl (fun s a => s.writeBytes (a + 4) (leBytes 1 3 ++ leBytes 1 0 ++ leBytes 2 0x0002)) s
          let s := s.writeBytes (x.pointer + 0x20) (leBytes 1 o.1)
          let s := s.writeBytes (x.pointer + 0x22) (leBytes 2 o.2.1 ++ leBytes 2 o.2.2)
          let s := if o.1 = 0 ∨ s.fld d k 0 ASEQ_ERR.VALID = 1 then s
            else s.setReg d .ASEQ_ERR k 0 (BitVec.ofNat 32 (2 ^ 31 + o.1 * 2 ^ 24 + o.2.1))
          let s := x.rows.foldl (fun s w => s.endClosing w.seq) (s.onStep x.id fun y => { y with ended := true })
          s.replyIf (senderAseq d k) x.reply x.pointer x.tag)

end Sys2Proof.Machine
end

