-- ==== Sys2Proof/Machine/Dispatch.lean ====
section
/-! DEFINITION. Which meaning each command has: one arm per constructor of Instr. -/

namespace Sys2Proof.Machine

open Sys2Proof

/-- The effect of a command on everything but the queue. -/
def exec (i : Instr) (s : State) : Host.Outcome State Fault Refusal :=
  match i with
  | .auxPowerUp => Sys2Proof.Machine.execAuxPowerUp s
  | .auxPowerLoss => Sys2Proof.Machine.execAuxPowerLoss s
  | .nresetLow ns => Sys2Proof.Machine.execNresetLow ns s
  | .nresetRise v10 => Sys2Proof.Machine.execNresetRise v10 s
  | .bootFirmwareVerify sigOk => Sys2Proof.Machine.execBootFirmwareVerify sigOk s
  | .railsUp ambient readings => Sys2Proof.Machine.execRailsUp ambient readings s
  | .warmupStalled => Sys2Proof.Machine.execWarmupStalled s
  | .configLoad sigOk => Sys2Proof.Machine.execConfigLoad sigOk s
  | .laserStart => Sys2Proof.Machine.execLaserStart s
  | .laserLock => Sys2Proof.Machine.execLaserLock s
  | .stackInit stk found => Sys2Proof.Machine.execStackInit stk found s
  | .enterReady => Sys2Proof.Machine.execEnterReady s
  | .inputSample v10 a10 => Sys2Proof.Machine.execInputSample v10 a10 s
  | .powerCapRaise => Sys2Proof.Machine.execPowerCapRaise s
  | .diePowerSample d w stacksW => Sys2Proof.Machine.execDiePowerSample d w stacksW s
  | .dieCapRaise d => Sys2Proof.Machine.execDieCapRaise d s
  | .phaseFail => Sys2Proof.Machine.execPhaseFail s
  | .throttleLoopDemand d => Sys2Proof.Machine.execThrottleLoopDemand d s
  | .sensorConversionDone d idx temp => Sys2Proof.Machine.execSensorConversionDone d idx temp s
  | .ptmTsenseReqWrite d value => Sys2Proof.Machine.execPtmTsenseReqWrite d value s
  | .enterDormant => Sys2Proof.Machine.execEnterDormant s
  | .pldmSetStateEffecter on => Sys2Proof.Machine.execPldmSetStateEffecter on s
  | .dormantEntryComplete => Sys2Proof.Machine.execDormantEntryComplete s
  | .wake => Sys2Proof.Machine.execWake s
  | .wakeComplete => Sys2Proof.Machine.execWakeComplete s
  | .faultRecord d id unit task detail => Sys2Proof.Machine.execFaultRecord d id unit task detail s
  | .safeStateEntry => Sys2Proof.Machine.execSafeStateEntry s
  | .fcuLockstep d => Sys2Proof.Machine.execFcuLockstep d s
  | .fcuSelf d => Sys2Proof.Machine.execFcuSelf d s
  | .timebaseCheck d ppm => Sys2Proof.Machine.execTimebaseCheck d ppm s
  | .automaticReset => Sys2Proof.Machine.execAutomaticReset s
  | .faultLogFlush => Sys2Proof.Machine.execFaultLogFlush s
  | .heartbeatToggle => Sys2Proof.Machine.execHeartbeatToggle s
  | .faultPulseEnd => Sys2Proof.Machine.execFaultPulseEnd s
  | .fcuPinHoldWrite value => Sys2Proof.Machine.execFcuPinHoldWrite value s
  | .coreLogicTestDone d c pass => Sys2Proof.Machine.execCoreLogicTestDone d c pass s
  | .bauSelftestDone stk failed => Sys2Proof.Machine.execBauSelftestDone stk failed s
  | .nocParity d linkEnd victim => Sys2Proof.Machine.execNocParity d linkEnd victim s
  | .linkRetrainDone d linkEnd ok => Sys2Proof.Machine.execLinkRetrainDone d linkEnd ok s
  | .ddlLinkDown dl => Sys2Proof.Machine.execDdlLinkDown dl s
  | .memoryRead ag t len hold => Sys2Proof.Machine.execMemoryRead ag t len hold s
  | .memoryWrite ag t data poison => Sys2Proof.Machine.execMemoryWrite ag t data poison s
  | .directoryRecall d => Sys2Proof.Machine.execDirectoryRecall d s
  | .hostCacheResponse port line data => Sys2Proof.Machine.execHostCacheResponse port line data s
  | .openDone b => Sys2Proof.Machine.execOpenDone b s
  | .columnDone b symbols => Sys2Proof.Machine.execColumnDone b symbols s
  | .closeDone b => Sys2Proof.Machine.execCloseDone b s
  | .refreshDone b => Sys2Proof.Machine.execRefreshDone b s
  | .resultReady b => Sys2Proof.Machine.execResultReady b s
  | .evError b column => Sys2Proof.Machine.execEvError b column s
  | .selfRefreshEntered stk => Sys2Proof.Machine.execSelfRefreshEntered stk s
  | .selfRefreshExitDone stk => Sys2Proof.Machine.execSelfRefreshExitDone stk s
  | .channelHandshakeTimeout stk ch => Sys2Proof.Machine.execChannelHandshakeTimeout stk ch s
  | .tsvRepair stk ch control => Sys2Proof.Machine.execTsvRepair stk ch control s
  | .requestAgeLimit b n => Sys2Proof.Machine.execRequestAgeLimit b n s
  | .idleTimerExpiry b => Sys2Proof.Machine.execIdleTimerExpiry b s
  | .refreshDue b => Sys2Proof.Machine.execRefreshDue b s
  | .stackTsenseDemand stk => Sys2Proof.Machine.execStackTsenseDemand stk s
  | .tsenseOverdue stk => Sys2Proof.Machine.execTsenseOverdue stk s
  | .srEntryDelayExpiry stk => Sys2Proof.Machine.execSrEntryDelayExpiry stk s
  | .scrubPosition stk errors behind => Sys2Proof.Machine.execScrubPosition stk errors behind s
  | .bankRetire b => Sys2Proof.Machine.execBankRetire b s
  | .bankCopyComplete b => Sys2Proof.Machine.execBankCopyComplete b s
  | .dieRetire stk die => Sys2Proof.Machine.execDieRetire stk die s
  | .rebuildPosition stk => Sys2Proof.Machine.execRebuildPosition stk s
  | .parityDieFail stk => Sys2Proof.Machine.execParityDieFail stk s
  | .bankSequence src desc inline => Sys2Proof.Machine.execBankSequence src desc inline s
  | .actTokenGrant stk => Sys2Proof.Machine.execActTokenGrant stk s
  | .seqwDescriptorWrite ag d slot off data => Sys2Proof.Machine.execSeqwDescriptorWrite ag d slot off data s
  | .sequenceComplete id => Sys2Proof.Machine.execSequenceComplete id s
  | .block d c x => Sys2Proof.Machine.execBlock d c x s
  | .endblock d c x => Sys2Proof.Machine.execEndblock d c x s
  | .streamEnd d c x => Sys2Proof.Machine.execStreamEnd d c x s
  | .replayBoundary d c x => Sys2Proof.Machine.execReplayBoundary d c x s
  | .patchApply d c => Sys2Proof.Machine.execPatchApply d c s
  | .load d c => Sys2Proof.Machine.execLoad d c s
  | .store d c => Sys2Proof.Machine.execStore d c s
  | .xfer d c => Sys2Proof.Machine.execXfer d c s
  | .wait d c => Sys2Proof.Machine.execWait d c s
  | .signal d c => Sys2Proof.Machine.execSignal d c s
  | .barrier d c => Sys2Proof.Machine.execBarrier d c s
  | .mma d c => Sys2Proof.Machine.execMma d c s
  | .vadd d c => Sys2Proof.Machine.execVadd d c s
  | .vsub d c => Sys2Proof.Machine.execVsub d c s
  | .vmul d c => Sys2Proof.Machine.execVmul d c s
  | .vfma d c => Sys2Proof.Machine.execVfma d c s
  | .vmax d c => Sys2Proof.Machine.execVmax d c s
  | .vmin d c => Sys2Proof.Machine.execVmin d c s
  | .vaddi d c => Sys2Proof.Machine.execVaddi d c s
  | .vmuli d c => Sys2Proof.Machine.execVmuli d c s
  | .vexp d c => Sys2Proof.Machine.execVexp d c s
  | .vrecip d c => Sys2Proof.Machine.execVrecip d c s
  | .vrsqrt d c => Sys2Proof.Machine.execVrsqrt d c s
  | .vact d c => Sys2Proof.Machine.execVact d c s
  | .vcmp d c => Sys2Proof.Machine.execVcmp d c s
  | .vsel d c => Sys2Proof.Machine.execVsel d c s
  | .vcopy d c => Sys2Proof.Machine.execVcopy d c s
  | .vred d c => Sys2Proof.Machine.execVred d c s
  | .vsoftmax d c => Sys2Proof.Machine.execVsoftmax d c s
  | .vcvt d c => Sys2Proof.Machine.execVcvt d c s
  | .vperm d c => Sys2Proof.Machine.execVperm d c s
  | .vgather d c => Sys2Proof.Machine.execVgather d c s
  | .ocall d c => Sys2Proof.Machine.execOcall d c s
  | .ocallReturn d c status => Sys2Proof.Machine.execOcallReturn d c status s
  | .queueBeatAccept d c q => Sys2Proof.Machine.execQueueBeatAccept d c q s
  | .tokenCredit d c => Sys2Proof.Machine.execTokenCredit d c s
  | .streamFault d c kind x q cls => Sys2Proof.Machine.execStreamFault d c kind x q cls s
  | .mirageCheck d c => Sys2Proof.Machine.execMirageCheck d c s
  | .kpop d c rs f => Sys2Proof.Machine.execKpop d c rs f s
  | .kpush d c rd rs1 v q side => Sys2Proof.Machine.execKpush d c rd rs1 v q side s
  | .kpwr d c rs1 v n side => Sys2Proof.Machine.execKpwr d c rs1 v n side s
  | .kprd d c rs1 imm v => Sys2Proof.Machine.execKprd d c rs1 imm v s
  | .ksumpop core f => Sys2Proof.Machine.execKsumpop core f s
  | .kwait d c rs imm => Sys2Proof.Machine.execKwait d c rs imm s
  | .ksignal d c f => Sys2Proof.Machine.execKsignal d c f s
  | .kbarrier d c rs imm => Sys2Proof.Machine.execKbarrier d c rs imm s
  | .barrierLeave d c off who => Sys2Proof.Machine.execBarrierLeave d c off who s
  | .dmaBarrierArrive d c de1 => Sys2Proof.Machine.execDmaBarrierArrive d c de1 s
  | .syncStall d c => Sys2Proof.Machine.execSyncStall d c s
  | .run d c => Sys2Proof.Machine.execRun d c s
  | .branch d c => Sys2Proof.Machine.execBranch d c s
  | .jump d c => Sys2Proof.Machine.execJump d c s
  | .loop d c => Sys2Proof.Machine.execLoop d c s
  | .call d c => Sys2Proof.Machine.execCall d c s
  | .setp d c => Sys2Proof.Machine.execSetp d c s
  | .done d c => Sys2Proof.Machine.execDone d c s
  | .nop d c => Sys2Proof.Machine.execNop d c s
  | .sample d c => Sys2Proof.Machine.execSample d c s
  | .argmax d c => Sys2Proof.Machine.execArgmax d c s
  | .rmsnormFb d c => Sys2Proof.Machine.execRmsnormFb d c s
  | .layernormFb d c => Sys2Proof.Machine.execLayernormFb d c s
  | .seed d c => Sys2Proof.Machine.execSeed d c s
  | .postNotice d c => Sys2Proof.Machine.execPostNotice d c s
  | .postNoticeRetry d c last => Sys2Proof.Machine.execPostNoticeRetry d c last s
  | .ccAbortInterrupt d c => Sys2Proof.Machine.execCcAbortInterrupt d c s
  | .ccNoticeDispatch d c => Sys2Proof.Machine.execCcNoticeDispatch d c s
  | .ccDmaErrorInterrupt d c x => Sys2Proof.Machine.execCcDmaErrorInterrupt d c x s
  | .dmaCopy d c de1 n => Sys2Proof.Machine.execDmaCopy d c de1 n s
  | .permute d c de1 n => Sys2Proof.Machine.execPermute d c de1 n s
  | .gather d c de1 n => Sys2Proof.Machine.execGather d c de1 n s
  | .dmaFill d c de1 n => Sys2Proof.Machine.execDmaFill d c de1 n s
  | .bseq d c de1 n => Sys2Proof.Machine.execBseq d c de1 n s
  | .transferComplete d c de1 n => Sys2Proof.Machine.execTransferComplete d c de1 n s
  | .noticePost ag d k slot pointer tag => Sys2Proof.Machine.execNoticePost ag d k slot pointer tag s
  | .noticeRepost n => Sys2Proof.Machine.execNoticeRepost n s
  | .hostCasPost port off size compare swap rid => Sys2Proof.Machine.execHostCasPost port off size compare swap rid s
  | .noticeTake d k recv => Sys2Proof.Machine.execNoticeTake d k recv s
  | .mailboxHostRead port off len => Sys2Proof.Machine.execMailboxHostRead port off len s
  | .mailboxHostFree port off data => Sys2Proof.Machine.execMailboxHostFree port off data s
  | .dietimeLoRead d => Sys2Proof.Machine.execDietimeLoRead d s
  | .kvOpen d c => Sys2Proof.Machine.execKvOpen d c s
  | .reserve d c => Sys2Proof.Machine.execReserve d c s
  | .commit d c => Sys2Proof.Machine.execCommit d c s
  | .share d c => Sys2Proof.Machine.execShare d c s
  | .kvFree d c => Sys2Proof.Machine.execKvFree d c s
  | .kvPrefetch d c => Sys2Proof.Machine.execKvPrefetch d c s
  | .kvAllocPage d c => Sys2Proof.Machine.execKvAllocPage d c s
  | .kvFrameDesc d c => Sys2Proof.Machine.execKvFrameDesc d c s
  | .kvReleaseDesc d c => Sys2Proof.Machine.execKvReleaseDesc d c s
  | .kvPostStep d c => Sys2Proof.Machine.execKvPostStep d c s
  | .framePin pool bank band slot => Sys2Proof.Machine.execFramePin pool bank band slot s
  | .frameUnpin pool bank band slot => Sys2Proof.Machine.execFrameUnpin pool bank band slot s
  | .copyOnWrite model seq plane page => Sys2Proof.Machine.execCopyOnWrite model seq plane page s
  | .labInvalidate model seq plane page => Sys2Proof.Machine.execLabInvalidate model seq plane page s
  | .spillStart d => Sys2Proof.Machine.execSpillStart d s
  | .spillComplete d n => Sys2Proof.Machine.execSpillComplete d n s
  | .prefetchStart model seq plane page => Sys2Proof.Machine.execPrefetchStart model seq plane page s
  | .prefetchComplete d n data => Sys2Proof.Machine.execPrefetchComplete d n data s
  | .farTierUnreachable => Sys2Proof.Machine.execFarTierUnreachable s
  | .farTierProbe ok => Sys2Proof.Machine.execFarTierProbe ok s
  | .stepDecode d k n => Sys2Proof.Machine.execStepDecode d k n s
  | .stepAttend d k n => Sys2Proof.Machine.execStepAttend d k n s
  | .stepAppend d k n => Sys2Proof.Machine.execStepAppend d k n s
  | .partialMerge d k n j => Sys2Proof.Machine.execPartialMerge d k n j s
  | .stepComplete d k n => Sys2Proof.Machine.execStepComplete d k n s
  | .coreMode d k n j => Sys2Proof.Machine.execCoreMode d k n j s
  | .ldrLoad fill => Sys2Proof.Machine.execLdrLoad fill s
  | .ldrStart => Sys2Proof.Machine.execLdrStart s
  | .ldrAbort => Sys2Proof.Machine.execLdrAbort s
  | .ldrRelease => Sys2Proof.Machine.execLdrRelease s
  | .runEnd task => Sys2Proof.Machine.execRunEnd task s
  | .taskAbort task fault d c => Sys2Proof.Machine.execTaskAbort task fault d c s
  | .streamBufferFetch task alloc data => Sys2Proof.Machine.execStreamBufferFetch task alloc data s
  | .lightDetect e lane => Sys2Proof.Machine.execLightDetect e lane s
  | .ts1 e lane data => Sys2Proof.Machine.execTs1 e lane data s
  | .ts2 e lane data => Sys2Proof.Machine.execTs2 e lane data s
  | .rateChange port => Sys2Proof.Machine.execRateChange port s
  | .laneTrainTimeout e lane => Sys2Proof.Machine.execLaneTrainTimeout e lane s
  | .portTrainRestart port => Sys2Proof.Machine.execPortTrainRestart port s
  | .am e lane data => Sys2Proof.Machine.execAm e lane data s
  | .idle e lane => Sys2Proof.Machine.execIdle e lane s
  | .flitReceive port data => Sys2Proof.Machine.execFlitReceive port data s
  | .replayTimeout port => Sys2Proof.Machine.execReplayTimeout port s
  | .laneFail e lane => Sys2Proof.Machine.execLaneFail e lane s
  | .swapReq e data => Sys2Proof.Machine.execSwapReq e data s
  | .swapAck e data => Sys2Proof.Machine.execSwapAck e data s
  | .laserFail e w => Sys2Proof.Machine.execLaserFail e w s
  | .hold e data => Sys2Proof.Machine.execHold e data s
  | .holdExpiry e w => Sys2Proof.Machine.execHoldExpiry e w s
  | .calibrationStep e => Sys2Proof.Machine.execCalibrationStep e s
  | .calMove e data => Sys2Proof.Machine.execCalMove e data s
  | .calibrationComplete e => Sys2Proof.Machine.execCalibrationComplete e s
  | .wakeBlock port => Sys2Proof.Machine.execWakeBlock port s
  | .eidle e lane => Sys2Proof.Machine.execEidle e lane s
  | .fillBlock e lane => Sys2Proof.Machine.execFillBlock e lane s
  | .hostLinkUp port partner speed width => Sys2Proof.Machine.execHostLinkUp port partner speed width s
  | .hdmDecoderCommit port n base size ways gran skip => Sys2Proof.Machine.execHdmDecoderCommit port n base size ways gran skip s
  | .biasFlipDevice port => Sys2Proof.Machine.execBiasFlipDevice port s
  | .biasFlipHost port => Sys2Proof.Machine.execBiasFlipHost port s
  | .biasPageFlipped port => Sys2Proof.Machine.execBiasPageFlipped port s
  | .hotReset port => Sys2Proof.Machine.execHotReset port s
  | .flr port => Sys2Proof.Machine.execFlr port s
  | .cxlReset port => Sys2Proof.Machine.execCxlReset port s
  | .hostFlushTimeout port => Sys2Proof.Machine.execHostFlushTimeout port s
  | .begin path kind value => Sys2Proof.Machine.execBegin path kind value s
  | .data path kind value data => Sys2Proof.Machine.execData path kind value data s
  | .transferEnd path kind sigOk rec => Sys2Proof.Machine.execTransferEnd path kind sigOk rec s
  | .transferStatus path kind => Sys2Proof.Machine.execTransferStatus path kind s
  | .getVersion path => Sys2Proof.Machine.execGetVersion path s
  | .getCapabilities path => Sys2Proof.Machine.execGetCapabilities path s
  | .negotiateAlgorithms path => Sys2Proof.Machine.execNegotiateAlgorithms path s
  | .getDigests path => Sys2Proof.Machine.execGetDigests path s
  | .getCertificate path slot off len => Sys2Proof.Machine.execGetCertificate path slot off len s
  | .challenge path slot => Sys2Proof.Machine.execChallenge path slot s
  | .getMeasurements path index => Sys2Proof.Machine.execGetMeasurements path index s
  | .read port frame => Sys2Proof.Machine.execRead port frame s
  | .write port frame => Sys2Proof.Machine.execWrite port frame s
  | .notice port frame => Sys2Proof.Machine.execNotice port frame s
  | .readRsp port frame => Sys2Proof.Machine.execReadRsp port frame s
  | .writeRsp port frame => Sys2Proof.Machine.execWriteRsp port frame s
  | .noticeRsp port frame => Sys2Proof.Machine.execNoticeRsp port frame s
  | .credit port frame => Sys2Proof.Machine.execCredit port frame s
  | .down port frame => Sys2Proof.Machine.execDown port frame s
  | .up port frame => Sys2Proof.Machine.execUp port frame s
  | .framePromote port n => Sys2Proof.Machine.execFramePromote port n s
  | .requestTimeout n => Sys2Proof.Machine.execRequestTimeout n s
  | .allreduce d slot => Sys2Proof.Machine.execAllreduce d slot s
  | .reducescatter d slot => Sys2Proof.Machine.execReducescatter d slot s
  | .allgather d slot => Sys2Proof.Machine.execAllgather d slot s
  | .headmerge d slot => Sys2Proof.Machine.execHeadmerge d slot s
  | .coll port frame => Sys2Proof.Machine.execColl port frame s
  | .collTimeout d n => Sys2Proof.Machine.execCollTimeout d n s
  | .mgmtGo port value => Sys2Proof.Machine.execMgmtGo port value s
  | .mctpManagement rec sig => Sys2Proof.Machine.execMctpManagement rec sig s
  | .mgmtStop => Sys2Proof.Machine.execMgmtStop s
  | .mgmtStart => Sys2Proof.Machine.execMgmtStart s
  | .set sigOk => Sys2Proof.Machine.execSet sigOk s
  | .selftest => Sys2Proof.Machine.execSelftest s
  | .memorySelftestDone stk failedDies => Sys2Proof.Machine.execMemorySelftestDone stk failedDies s
  | .tsense => Sys2Proof.Machine.execTsense s
  | .fwCommit sigOk => Sys2Proof.Machine.execFwCommit sigOk s
  | .svnCommit sigOk => Sys2Proof.Machine.execSvnCommit sigOk s
  | .reset sigOk => Sys2Proof.Machine.execReset sigOk s
  | .recoveryImage sigOk => Sys2Proof.Machine.execRecoveryImage sigOk s
  | .setdasa => Sys2Proof.Machine.execSetdasa s
  | .entdaa addr => Sys2Proof.Machine.execEntdaa addr s
  | .registerWrite ag addr value => Sys2Proof.Machine.execRegisterWrite ag addr value s
  | .busMasterEnableWrite port on => Sys2Proof.Machine.execBusMasterEnableWrite port on s
  | .blockAlignmentFound e lane => Sys2Proof.Machine.execBlockAlignmentFound e lane s
  | .selftestIdleWaitExpiry d c => Sys2Proof.Machine.execSelftestIdleWaitExpiry d c s
  | .laserRelock e w => Sys2Proof.Machine.execLaserRelock e w s

end Sys2Proof.Machine
end

