-- ==== Sys2Proof/Machine/Step.lean ====
section
/-! DEFINITION. One step: the command at the front of the queue, or one tick of the clocks. -/

set_option Elab.async false

namespace Sys2Proof.Machine

open Sys2Proof

/-- The state with a word's command put at the front of its queue; unchanged where the word spells none (DESIGN CHOICE log 24). -/
def State.withFetchWord (s : State) (nbits w : Nat) : State :=
  match decodeTableWord nbits w with
  | some c => { s with pending := c :: s.pending }
  | none => s

/-- A step takes the command at the front of the queue and runs it on the state with the rest; on an empty queue the clocks tick (DESIGN
CHOICE log 21) (DESIGN CHOICE log 1; DESIGN CHOICE log 24; DESIGN CHOICE log 53). -/
def step (s : State) : Host.Outcome State Fault Refusal :=
  match s.pending with
  | c :: cs => exec c { s with pending := cs }
  | [] => .next s.tick

end Sys2Proof.Machine
end

