-- ==== Sys2Proof/Machine/Part.lean ====
section
/-! DEFINITION. The parts of the state, by which statements say what a command leaves alone. -/

set_option Elab.async false

namespace Sys2Proof.Machine

open Sys2Proof

/-- The parts of the state other than the queue. -/
inductive Part where
  | free | sent | dieTime | power | fuses | flash | boot | mgmt | fcu | cfg | regs | mem | stackMap | banks | baus | seqs | seqNext | slots | ports | cores | notices | kept | kv | ldr | fab
  deriving DecidableEq, Repr

/-- Whether a part is the same in two states. -/
def Part.same : Part → State → State → Prop
  | .free, s, t => t.free = s.free
  | .sent, s, t => t.sent = s.sent
  | .dieTime, s, t => t.dieTime = s.dieTime
  | .power, s, t => t.power = s.power
  | .fuses, s, t => t.fuses = s.fuses
  | .flash, s, t => t.flash = s.flash
  | .boot, s, t => t.boot = s.boot
  | .mgmt, s, t => t.mgmt = s.mgmt
  | .fcu, s, t => t.fcu = s.fcu
  | .cfg, s, t => t.cfg = s.cfg
  | .regs, s, t => t.regs = s.regs
  | .mem, s, t => t.mem = s.mem
  | .stackMap, s, t => t.stackMap = s.stackMap
  | .banks, s, t => t.banks = s.banks
  | .baus, s, t => t.baus = s.baus
  | .seqs, s, t => t.seqs = s.seqs
  | .seqNext, s, t => t.seqNext = s.seqNext
  | .slots, s, t => t.slots = s.slots
  | .ports, s, t => t.ports = s.ports
  | .cores, s, t => t.cores = s.cores
  | .notices, s, t => t.notices = s.notices
  | .kept, s, t => t.kept = s.kept
  | .kv, s, t => t.kv = s.kv
  | .ldr, s, t => t.ldr = s.ldr
  | .fab, s, t => t.fab = s.fab

end Sys2Proof.Machine
end

