-- ==== Sys2Proof/Safety.lean ====
section
/-! DEFINITION. What a safe run keeps, and conditions that several statements share. -/

set_option Elab.async false

namespace Sys2Proof.Machine

open Sys2Proof

/-- A whole frame on a port that carries frames, of the type that its command names. -/
def State.frameOn (s : State) (p ty : Nat) (f : List Byte) : Prop :=
  p < 48 ∧ ((s.fport p).phase = .up ∨ (s.fport p).phase = .keepAlive) ∧ 96 ≤ f.length ∧ f.length = frBytes f ∧ frType f = ty

/-- A whole frame that passes the checks of its receiver (R408, R409, R414, R415) and is for an agent of this module that takes it. -/
def State.delivers (s : State) (p ty : Nat) (f : List Byte) : Prop :=
  s.frameOn p ty f ∧ frClass f = classOf ty ∧ bits (frHops f) 3 0 ≤ 6 ∧ (bits (frHops f) 3 0 = 1 → carModule (frSrc f) = (s.fport p).peer) ∧
    carModule (frDst f) = s.moduleNo ∧ frEcrc f = field f 0x1C 4 ∧ agentTakes (carDie (frDst f)) (carAgent (frDst f)) ty = true

/-- The parts of the state that a command may change. Every other part it leaves as it is. -/
def touches : Instr → List Part
  | .auxPowerUp | .auxPowerLoss | .nresetLow .. | .automaticReset =>
    [.dieTime, .power, .flash, .boot, .mgmt, .fcu, .cfg, .regs, .mem, .stackMap, .banks, .baus, .seqs, .seqNext, .slots, .ports, .cores, .notices, .kept, .kv, .ldr, .fab]
  | .nresetRise .. | .powerCapRaise | .dieCapRaise .. | .throttleLoopDemand .. | .heartbeatToggle | .faultPulseEnd | .stackTsenseDemand ..
    | .setdasa | .entdaa .. =>
    [.power]
  | .bootFirmwareVerify .. =>
    [.power, .boot, .cfg, .mem, .stackMap]
  | .railsUp .. =>
    [.power, .flash, .boot, .fcu, .regs, .mem, .stackMap]
  | .warmupStalled =>
    [.regs]
  | .configLoad .. =>
    [.free, .power, .fuses, .boot, .fcu, .cfg, .regs]
  | .laserStart =>
    [.boot]
  | .laserLock =>
    [.sent, .boot, .fab]
  | .stackInit .. =>
    [.flash, .boot, .fcu, .regs, .mem, .stackMap]
  | .enterReady =>
    [.power, .boot, .mem, .ports]
  | .inputSample .. =>
    [.power, .flash, .fcu, .regs]
  | .diePowerSample .. | .ptmTsenseReqWrite .. | .fcuPinHoldWrite .. =>
    [.power, .regs]
  | .phaseFail =>
    [.power, .flash, .fcu, .regs, .mem]
  | .sensorConversionDone .. =>
    [.sent, .power, .flash, .mgmt, .fcu, .regs, .mem, .stackMap]
  | .enterDormant =>
    [.power, .regs, .stackMap, .ports, .fab]
  | .pldmSetStateEffecter .. =>
    [.free, .sent, .power, .regs, .stackMap, .ports, .fab]
  | .dormantEntryComplete | .wake | .wakeBlock .. =>
    [.free, .sent, .power, .stackMap, .ports, .fab]
  | .wakeComplete | .nocParity .. | .linkRetrainDone .. | .ddlLinkDown .. | .memoryRead .. | .memoryWrite .. | .hostCacheResponse ..
    | .refreshDone .. | .selfRefreshExitDone .. | .tsvRepair .. | .seqwDescriptorWrite .. | .mailboxHostRead .. | .mailboxHostFree ..
    | .registerWrite .. =>
    [.free, .sent, .power, .flash, .mgmt, .fcu, .regs, .mem, .stackMap, .banks, .baus, .seqs, .seqNext, .slots, .ports, .notices, .fab]
  | .faultRecord .. =>
    [.flash, .mgmt, .fcu, .regs, .mem, .baus, .seqs, .cores]
  | .safeStateEntry =>
    [.sent, .power, .fcu, .regs, .mem, .stackMap, .banks, .baus, .seqs, .cores, .kept, .kv, .fab]
  | .fcuLockstep .. | .fcuSelf .. | .timebaseCheck .. =>
    [.flash, .fcu, .regs]
  | .faultLogFlush =>
    [.flash, .fcu]
  | .coreLogicTestDone .. =>
    [.sent, .flash, .mgmt, .fcu, .regs, .mem]
  | .bauSelftestDone .. =>
    [.sent, .mgmt, .regs, .mem, .stackMap]
  | .directoryRecall .. =>
    [.sent, .mem]
  | .openDone .. | .closeDone .. | .requestAgeLimit .. | .idleTimerExpiry .. =>
    [.banks]
  | .columnDone .. =>
    [.flash, .fcu, .regs, .mem, .banks, .baus, .seqs]
  | .resultReady .. =>
    [.sent, .regs, .mem, .baus, .seqs]
  | .evError .. =>
    [.flash, .fcu, .regs, .mem, .stackMap, .banks, .baus, .seqs]
  | .selfRefreshEntered .. | .channelHandshakeTimeout .. | .tsenseOverdue .. | .bankCopyComplete .. =>
    [.stackMap]
  | .refreshDue .. =>
    [.regs, .banks]
  | .srEntryDelayExpiry .. =>
    [.stackMap, .banks]
  | .scrubPosition .. =>
    [.flash, .fcu, .regs, .mem]
  | .bankRetire .. | .dieRetire .. | .parityDieFail .. =>
    [.flash, .fcu, .regs, .stackMap]
  | .rebuildPosition .. =>
    [.regs, .stackMap]
  | .bankSequence .. =>
    [.free, .sent, .power, .mem, .stackMap, .banks, .baus, .seqs, .seqNext, .fab]
  | .actTokenGrant .. =>
    [.sent, .mem, .banks, .seqs]
  | .sequenceComplete .. =>
    [.free, .sent, .power, .flash, .mgmt, .fcu, .regs, .mem, .stackMap, .banks, .baus, .seqs, .seqNext, .slots, .ports, .cores, .notices, .kv, .fab]
  | .block .. | .xfer .. | .wait .. | .syncStall .. | .nop .. | .argmax .. | .rmsnormFb .. | .layernormFb .. | .seed .. =>
    [.flash, .fcu, .regs, .mem, .cores]
  | .endblock .. | .signal .. | .barrier .. | .ocallReturn .. | .tokenCredit .. | .kpop .. | .kpush .. | .kpwr .. | .kprd .. | .ksumpop ..
    | .kwait .. | .ksignal .. | .kbarrier .. | .barrierLeave .. | .dmaBarrierArrive .. | .branch .. | .sample .. | .transferComplete .. =>
    [.free, .flash, .fcu, .regs, .mem, .cores]
  | .streamEnd .. | .replayBoundary .. | .patchApply .. | .ccDmaErrorInterrupt .. =>
    [.cores]
  | .load .. | .store .. | .ocall .. =>
    [.cores, .kv]
  | .mma .. | .vadd .. | .vsub .. | .vmul .. | .vfma .. | .vmax .. | .vmin .. | .vaddi .. | .vmuli .. | .vexp .. | .vrecip .. | .vrsqrt ..
    | .vact .. | .vcmp .. | .vsel .. | .vcopy .. | .vred .. | .vsoftmax .. | .vcvt .. | .vperm .. | .vgather .. =>
    [.free, .flash, .fcu, .regs, .mem, .cores, .kv]
  | .queueBeatAccept .. =>
    [.free, .sent, .flash, .fcu, .regs, .mem, .banks, .cores]
  | .streamFault .. =>
    [.sent, .flash, .fcu, .regs, .mem, .banks, .cores]
  | .mirageCheck .. =>
    [.free, .flash, .mgmt, .fcu, .regs, .mem, .baus, .seqs, .cores]
  | .run .. | .jump .. | .loop .. | .call .. | .setp .. =>
    [.mem, .cores]
  | .done .. =>
    [.mem, .cores, .ldr]
  | .postNotice .. | .postNoticeRetry .. =>
    [.free, .sent, .power, .flash, .fcu, .regs, .mem, .ports, .cores, .notices, .fab]
  | .ccAbortInterrupt .. =>
    [.mem, .cores, .kv]
  | .ccNoticeDispatch .. | .noticeTake .. | .kvOpen .. | .reserve .. | .commit .. | .share .. | .kvFree .. | .kvPrefetch .. =>
    [.free, .sent, .power, .flash, .fcu, .regs, .mem, .ports, .cores, .notices, .kept, .kv, .fab]
  | .dmaCopy .. | .permute .. | .gather .. =>
    [.free, .sent, .flash, .fcu, .regs, .mem, .banks, .cores, .ldr, .fab]
  | .dmaFill .. =>
    [.free, .sent, .mem, .banks, .cores, .fab]
  | .bseq .. =>
    [.free, .sent, .power, .mem, .stackMap, .banks, .baus, .seqs, .seqNext, .cores, .fab]
  | .noticePost .. | .noticeRepost .. | .allreduce .. | .reducescatter .. | .allgather .. | .headmerge .. | .collTimeout .. =>
    [.free, .sent, .power, .regs, .mem, .ports, .notices, .kept, .fab]
  | .hostCasPost .. =>
    [.sent, .power, .regs, .mem, .ports, .notices]
  | .dietimeLoRead .. =>
    [.fcu, .regs]
  | .kvAllocPage .. | .frameUnpin .. =>
    [.mem, .kv]
  | .kvFrameDesc .. =>
    [.free, .sent, .flash, .fcu, .regs, .mem, .cores, .kv, .fab]
  | .kvReleaseDesc .. =>
    [.flash, .fcu, .regs, .mem, .cores, .kv]
  | .kvPostStep .. =>
    [.free, .sent, .power, .flash, .fcu, .regs, .mem, .ports, .cores, .notices]
  | .framePin .. =>
    [.mem]
  | .copyOnWrite .. =>
    [.regs, .mem, .kv]
  | .labInvalidate .. =>
    [.regs, .kv]
  | .spillStart .. =>
    [.free, .sent, .regs, .mem, .kv, .fab]
  | .spillComplete .. | .farTierUnreachable | .hostFlushTimeout .. =>
    [.regs, .mem, .kv, .fab]
  | .prefetchStart .. =>
    [.free, .sent, .mem, .kv, .fab]
  | .prefetchComplete .. =>
    [.sent, .flash, .fcu, .regs, .mem, .kv, .fab]
  | .farTierProbe .. =>
    [.free, .sent, .kv, .fab]
  | .stepDecode .. | .stepAttend .. | .stepAppend .. =>
    [.free, .sent, .power, .regs, .mem, .stackMap, .banks, .baus, .seqs, .seqNext, .kv, .fab]
  | .partialMerge .. =>
    [.kv]
  | .stepComplete .. =>
    [.free, .sent, .power, .regs, .mem, .ports, .notices, .kept, .kv, .fab]
  | .coreMode .. =>
    [.sent, .mem, .kv]
  | .ldrLoad .. | .ldrRelease | .runEnd .. =>
    [.free, .sent, .power, .regs, .mem, .ports, .cores, .notices, .kept, .kv, .ldr, .fab]
  | .ldrStart =>
    [.free, .sent, .power, .regs, .mem, .ports, .cores, .notices, .kept, .ldr, .fab]
  | .ldrAbort =>
    [.free, .sent, .power, .regs, .mem, .ports, .notices, .kept, .ldr, .fab]
  | .taskAbort .. =>
    [.free, .sent, .power, .regs, .mem, .banks, .baus, .seqs, .ports, .cores, .notices, .kept, .kv, .ldr, .fab]
  | .streamBufferFetch .. =>
    [.sent, .mem, .ldr]
  | .lightDetect .. | .ts2 .. | .portTrainRestart .. | .am .. | .framePromote .. | .laserRelock .. =>
    [.sent, .fab]
  | .ts1 .. =>
    [.free, .sent, .flash, .fcu, .regs, .fab]
  | .rateChange .. =>
    [.free, .sent, .fab]
  | .laneTrainTimeout .. | .laneFail .. | .swapAck .. =>
    [.sent, .flash, .fcu, .regs, .ports, .fab]
  | .idle .. | .hold .. | .holdExpiry .. | .eidle .. | .fillBlock .. =>
    [.fab]
  | .flitReceive .. | .read .. | .write .. | .notice .. | .readRsp .. | .writeRsp .. | .noticeRsp .. | .credit .. | .down .. | .up .. | .coll .. =>
    [.free, .sent, .power, .flash, .boot, .mgmt, .fcu, .regs, .mem, .stackMap, .banks, .baus, .seqs, .seqNext, .slots, .ports, .notices, .kept, .kv, .fab]
  | .replayTimeout .. =>
    [.sent, .regs, .fab]
  | .swapReq .. | .laserFail .. =>
    [.free, .sent, .flash, .fcu, .regs, .ports, .fab]
  | .calibrationStep .. | .calibrationComplete .. =>
    [.free, .sent, .regs, .fab]
  | .calMove .. =>
    [.regs, .fab]
  | .hostLinkUp .. =>
    [.flash, .fcu, .regs, .ports]
  | .hdmDecoderCommit .. | .biasFlipHost .. =>
    [.ports]
  | .biasFlipDevice .. | .biasPageFlipped .. =>
    [.sent, .mem, .ports]
  | .hotReset .. =>
    [.regs, .mem, .banks, .baus, .seqs, .slots, .ports, .cores, .notices, .kv, .ldr, .fab]
  | .flr .. | .cxlReset .. =>
    [.regs, .mem, .banks, .baus, .seqs, .slots, .cores, .notices, .kv, .ldr, .fab]
  | .begin .. | .data .. =>
    [.sent, .boot]
  | .transferEnd .. =>
    [.sent, .fuses, .flash, .boot]
  | .transferStatus .. | .getDigests .. | .getCertificate .. =>
    [.sent]
  | .getVersion .. | .getCapabilities .. | .negotiateAlgorithms .. =>
    [.sent, .mgmt]
  | .challenge .. | .getMeasurements .. =>
    [.free, .sent]
  | .requestTimeout .. =>
    [.regs, .kept, .fab]
  | .mgmtGo .. | .mctpManagement .. | .selftestIdleWaitExpiry .. =>
    [.sent, .mgmt, .regs, .mem]
  | .mgmtStop =>
    [.sent, .mgmt, .regs, .mem, .stackMap, .banks, .baus, .seqs, .slots, .ports, .cores, .notices, .kv, .ldr, .fab]
  | .mgmtStart =>
    [.sent, .mgmt, .regs, .mem, .stackMap, .ports, .fab]
  | .set .. | .fwCommit .. =>
    [.sent, .flash, .mgmt, .regs, .mem]
  | .selftest =>
    [.free, .sent, .mgmt, .regs, .mem, .fab]
  | .memorySelftestDone .. =>
    [.sent, .flash, .mgmt, .fcu, .regs, .mem, .stackMap]
  | .tsense =>
    [.sent, .power, .mgmt, .regs, .mem]
  | .svnCommit .. =>
    [.sent, .fuses, .flash, .mgmt, .regs, .mem]
  | .reset .. =>
    [.sent, .dieTime, .power, .flash, .boot, .mgmt, .fcu, .cfg, .regs, .mem, .stackMap, .banks, .baus, .seqs, .seqNext, .slots, .ports, .cores, .notices, .kept, .kv, .ldr, .fab]
  | .recoveryImage .. =>
    [.free, .sent, .dieTime, .power, .flash, .boot, .mgmt, .fcu, .cfg, .regs, .mem, .stackMap, .banks, .baus, .seqs, .seqNext, .slots, .ports, .cores, .notices, .kept, .kv, .ldr, .fab]
  | .busMasterEnableWrite .. =>
    [.sent, .regs, .mem, .ports, .kv, .fab]
  | .blockAlignmentFound .. =>
    [.ports, .fab]

end Sys2Proof.Machine
end

