-- ==== Sys2Proof/Certificates/Slice0/Obligations.lean ====
section
/-! DEFINITION. The statements for the provers. -/

set_option Elab.async false

open Sys2Proof Sys2Proof.Machine

/-! ### The queue and the whole machine -/

/-- For every command and state, a step with the command at the front of the queue is the command's effect on the state with the queue's rest. -/
def Obligations.StepRunsTheFrontCommand : Prop :=  ∀ (c : Instr) (s : State), step { s with pending := c :: s.pending } = exec c s

/-- On an empty queue with nothing in the loopback a step advances the clocks alone (the model's choice, log 21): each die's count by one tick, modulo
2^64, unless the module is Off or in Standby. -/
def Obligations.EmptyQueueTicks : Prop :=  ∀ s : State, s.pending = [] → (s.fport loopPort).out = [] →
    ∃ t, step s = .next t ∧ t = { s with dieTime := t.dieTime } ∧
      (s.power.mode = .off ∨ s.power.mode = .standby → t.dieTime = s.dieTime) ∧
      (s.power.mode ≠ .off → s.power.mode ≠ .standby → ∀ d, d < 8 → t.time d = (s.time d + 1) % 2 ^ 64) ∧
      ∀ d, 8 ≤ d → t.time d = s.time d

/-- No step stops the module: whatever the state and the command, there is a next state. A step takes exactly the front command from the queue and takes back nothing
that the module has sent. -/
def Obligations.EveryStepTakesOneCommand : Prop :=
  (∀ s : State, ∃ t, step s = .next t) ∧
  (∀ s t : State, step s = .next t → t.pending = s.pending.tail ∧ s.sent <+: t.sent)

/-- Every step keeps memory in its canonical form. -/
def Obligations.StepKeepsMemoryCanonical : Prop :=  ∀ s t : State, s.mem.wf = true → step s = .next t → t.mem.wf = true

/-- Right after module reset memory is in its canonical form with nothing listed. -/
def Obligations.ResetMemoryIsCanonical : Prop :=  State.reset.mem.wf = true ∧ State.reset.mem.cells = [] ∧ State.reset.mem.poison = []

/-- Fuses only burn (R2, R436, R439): no step changes the grade, the core maps or the seed, an owner digest once burned stays, and core maps that have the number of cores the
grade gives keep it. Resets are counted up in flash. -/
def Obligations.StepKeepsFuses : Prop :=  ∀ s t : State, step s = .next t →
    t.fuses.grade = s.fuses.grade ∧ t.fuses.core = s.fuses.core ∧ t.fuses.seed = s.fuses.seed ∧ t.fuses.legal = s.fuses.legal ∧
      (s.fuses.ownerDigest ≠ none → t.fuses.ownerDigest = s.fuses.ownerDigest) ∧ s.flash.boots ≤ t.flash.boots

/-- R436: the floor is the number of blown bits of its field; it rises only by an owner-signed SVN_COMMIT request, and then only to the SVN of the running image; the boot
ROM does not run an image below the floor. -/
def Obligations.VersionFloorRisesOnlyBySvnCommit : Prop :=  (∀ f : Fuses, f.svnFloor = ((List.range 64).filter fun i => f.svnBits.testBit i).length) ∧
  (∀ s t : State, step s = .next t → t.fuses.svnBits ≠ s.fuses.svnBits →
    (∃ cs q, s.pending = .svnCommit true :: cs ∧ s.mgmt.queue.head? = some q ∧ q.op = 7 ∧ q.sig ≠ none) ∧
      s.fuses.svnFloor < fwSvn s.boot.imageHeader ∧ t.fuses.svnFloor = min 64 (fwSvn s.boot.imageHeader)) ∧
  (∀ (s : State) (sigOk : Bool), s.power.mode = .booting → s.boot.fwOk = false → fwSvn s.flash.fw < s.fuses.svnFloor →
    ∃ t, exec (.bootFirmwareVerify sigOk) s = .next t ∧ t.boot.fwOk = false ∧ t.boot.imageHeader = s.boot.imageHeader ∧ t.power.mode = .maintenance)

/-- A module reset (R454): what it clears, what it saves, and what stays. -/
def Obligations.ModuleResetLeaves : Prop :=  ∀ (s : State) (cause : Nat) (mode : Mode),
    ∃ t, t = s.moduleReset cause mode ∧ t.pending = s.pending ∧ t.sent = s.sent ∧ t.fuses = s.fuses ∧
      t.flash = { s.flash with log := (s.fcu.toFlash.reverse ++ s.flash.log).take 32768, boots := s.flash.boots + 1 } ∧
      t.power.mode = mode ∧ t.power.straps = s.power.strapPins ∧ t.power.rails = false ∧ t.power.sensors = [] ∧
      t.boot = { State.reset.boot with cause := cause } ∧ t.mgmt = State.reset.mgmt ∧ t.fcu = State.reset.fcu ∧
      t.dieTime = [] ∧ t.cfg = none ∧ t.regs = [] ∧ t.mem = State.reset.mem ∧ t.stackMap = [] ∧ t.banks = [] ∧ t.baus = [] ∧ t.seqs = [] ∧
      t.slots = [] ∧ t.ports = [] ∧ t.cores = [] ∧ t.notices = [] ∧ t.kept = [] ∧ t.kv = freshKv ∧ t.ldr = freshLoader ∧ t.fab = freshFabric

/-- A field of a register reads back the low bits of what was written to it, and every other field of that register and every other register stays (R18). Bytes written
at a spread or placed address of memory, or to a scratchpad, read back, and every other byte reads as before (R45, R47, R48). The line pieces of an access cover it:
reading them one after another reads its bytes in order (R48). -/
def Obligations.StoredValuesReadBack : Prop :=
  ((∀ (s : State) (d u i v : Nat) (f : RF), f.lo ≤ f.hi → f.hi < 32 →
    (s.setFld d u i f v).fld d u i f = v % 2 ^ (f.hi + 1 - f.lo)) ∧
  (∀ (s : State) (d u i v : Nat) (f g : RF), f.lo ≤ f.hi → f.hi < 32 → g.reg = f.reg → (g.hi < f.lo ∧ g.lo ≤ g.hi ∨ f.hi < g.lo) →
    (s.setFld d u i f v).fld d u i g = s.fld d u i g) ∧
  (∀ (s : State) (d u i d' u' i' v : Nat) (f g : RF), regKey d' g.reg u' i' ≠ regKey d f.reg u i →
    (s.setFld d u i f v).fld d' u' i' g = s.fld d' u' i' g)) ∧
  ((∀ (s : State) (p : Nat) (data : List Byte) (poison : Bool), s.mem.wf = true → s.noStorage p = false →
    (∀ i b, data[i]? = some b → (s.writeLine p data poison).byteAt (.mem (p + i)) = b) ∧
    (∀ q, (q < p ∨ p + data.length ≤ q) → (s.writeLine p data poison).byteAt (.mem q) = s.byteAt (.mem q))) ∧
  (∀ (s : State) (p : Nat) (data : List Byte) (poison : Bool), s.noStorage p = true → s.writeLine p data poison = s)) ∧
  ((∀ (s : State) (a n : Nat), ((piecesOf a n).flatMap fun p => s.readBytes p.1 p.2) = s.readBytes a n) ∧
  ∀ a n, ∀ p ∈ piecesOf a n, 0 < p.2 ∧ p.1 % 64 + p.2 ≤ 64)

/-! ### Power, start-up and states -/

/-- Supply and nRESET (R454, R475, R476, R479, R492, R500): the auxiliary supply's rise and loss and a long nRESET reset the module, the rising edge of nRESET in Standby
starts the boot when the input is in its operating range and defers it otherwise (above the range too, by the model's choice, log 33), a deferred boot starts with the
first sample in range, and a short pulse is ignored. Off answers to the supply alone. -/
def Obligations.SupplyAndResetPins : Prop :=  (∀ s : State, s.power.mode = .off → exec .auxPowerUp s = .next (s.moduleReset 0 .standby)) ∧
  (∀ s : State, s.power.mode ≠ .off → exec .auxPowerUp s = .next s) ∧
  (∀ s : State, s.power.mode ≠ .off → exec .auxPowerLoss s = .next (s.moduleReset 0 .off)) ∧
  (∀ s : State, s.power.mode = .off → exec .auxPowerLoss s = .next s) ∧
  (∀ (s : State) (ns : Nat), s.power.mode ≠ .off → 10000 ≤ ns →
    exec (.nresetLow ns) s = .next { s.moduleReset 1 .standby with power := { (s.moduleReset 1 .standby).power with nresetHigh := false } }) ∧
  (∀ (s : State) (ns : Nat), s.power.mode = .off ∨ ns < 10000 → exec (.nresetLow ns) s = .next s) ∧
  (∀ (s : State) (v : Nat), s.power.mode = .standby → s.power.nresetHigh = false → 4400 ≤ v → v ≤ 6000 →
    exec (.nresetRise v) s = .next { s with power := { s.power with
      mode := .booting, nresetHigh := true, deferred := false, straps := s.power.strapPins } }) ∧
  (∀ (s : State) (v : Nat), s.power.mode = .standby → s.power.nresetHigh = false → v < 4400 ∨ 6000 < v →
    exec (.nresetRise v) s = .next { s with power := { s.power with nresetHigh := true, deferred := true } }) ∧
  (∀ (s : State) (v : Nat), s.power.mode ≠ .standby ∨ s.power.nresetHigh = true → exec (.nresetRise v) s = .next s) ∧
  (∀ (s : State) (v a : Nat), s.power.mode = .standby → s.power.deferred = true → 4400 ≤ v → v ≤ 6000 →
    ∃ t, exec (.inputSample v a) s = .next t ∧ t = { s with regs := t.regs, power := { s.power with
      mode := .booting, deferred := false, straps := s.power.strapPins } }) ∧
  (∀ (s : State) (v a : Nat), s.power.mode = .standby → s.power.deferred = false ∨ v < 4400 ∨ 6000 < v →
    ∃ t, exec (.inputSample v a) s = .next t ∧ t = { s with regs := t.regs })

/-- Boot steps 1, 2 and 3 (R432, R433, R438 to R441, R453, R490): firmware that may run leads to step 1 and other firmware to recovery; the rails come up in step 2,
cold sensors meaning Warm-up; step 3 takes a record that no rule refuses and locks it, and refuses any other with its code. Boot steps 4 to 7, the last of which leaves
every frame's descriptor in memory, and the stall of Warm-up (R95, R309, R392, R432, R433, R441, R490). -/
def Obligations.BootRunsItsSteps : Prop :=
  ((∀ (s : State) (sigOk : Bool), s.power.mode = .booting → s.boot.fwOk = false → s.fwRuns s.flash.fw sigOk = true →
    exec (.bootFirmwareVerify sigOk) s = .next { s with boot := { s.boot with fwOk := true, imageHeader := s.flash.fw.take 0xE0, lastStep := 1 } }) ∧
  (∀ (s : State) (sigOk : Bool), s.power.mode = .booting → s.boot.fwOk = false → s.fwRuns s.flash.fw sigOk = false →
    ∃ t, exec (.bootFirmwareVerify sigOk) s = .next t ∧ t.power = { s.power with mode := .maintenance, rails := true } ∧
      t.boot = { s.boot with recovery := true, lasersOn := true, lasersLocked := true } ∧ t.flash = s.flash ∧ t.fuses = s.fuses) ∧
  (∀ (s : State) (ambient : Int) (rs : List SensorReading), s.power.mode = .booting → s.boot.fwOk = true → s.boot.railsUp = false →
    ∃ t, exec (.railsUp ambient rs) s = .next t ∧ t.boot = { s.boot with railsUp := true, lastStep := 2 } ∧ t.power.rails = true ∧
      t.power.busShut = false ∧ t.power.ambient = some ambient ∧ (ambient < 80 → t.power.mode = .warmUp) ∧ t.mem = s.mem ∧ t.cfg = s.cfg) ∧
  (∀ (s : State) (sigOk : Bool) (r : Record), s.power.mode = .booting → s.boot.railsUp = true → s.boot.locked = false →
    s.flash.record = some r → recordRefusal s.fuses s.power.straps r sigOk = none →
    ∃ t, exec (.configLoad sigOk) s = .next t ∧ t.cfg = some r ∧ t.boot.configOk = true ∧ t.boot.locked = true ∧ t.boot.lastStep = 3 ∧
      t.boot.refused = s.boot.refused ∧ t.power.mode = .booting ∧ t.mem = s.mem ∧ t.flash = s.flash) ∧
  (∀ (s : State) (sigOk : Bool) (r : Record) (code : Nat), s.power.mode = .booting → s.boot.railsUp = true → s.boot.locked = false →
    s.flash.record = some r → recordRefusal s.fuses s.power.straps r sigOk = some code →
    ∃ t, exec (.configLoad sigOk) s = .next t ∧ t.cfg = s.cfg ∧ t.boot.configOk = s.boot.configOk ∧ t.boot.locked = true ∧ t.boot.refused = true ∧
      t.boot.refusal = code ∧ t.power.mode = .booting ∧ t.fcu.rings = s.fcu.rings ∧ ∀ p, p < 8 → t.fld p 0 0 HP_CFG.ALLOWED = 0 ∧ t.fld p 0 0 HP_CFG.REGS = 1)) ∧
  ((∀ s : State, s.power.mode = .booting → s.boot.locked = true → s.boot.lasersOn = false →
    exec .laserStart s = .next { s with boot := { s.boot with lasersOn := true, lastStep := if s.boot.refused then s.boot.lastStep else 4 } }) ∧
  (∀ s : State, s.power.mode = .booting → s.boot.lasersOn = true → s.boot.lasersLocked = false → s.boot.configOk = true →
    ∃ t, exec .laserLock s = .next t ∧ t.boot = { s.boot with lasersLocked := true, lastStep := 5 } ∧
      t = { s with boot := t.boot, fab := t.fab, sent := t.sent }) ∧
  (∀ (s : State) (stk : Nat) (found : StackTest), stk < 32 → s.power.mode = .booting → s.boot.railsUp = true → s.boot.refused = false →
    (s.stack stk).cleared = false → s.mem.wf = true →
    ∃ t, exec (.stackInit stk found) s = .next t ∧ (t.stack stk).cleared = true ∧ (t.stack stk).calibrated = found.calibrated ∧
      (found.calibrated = false → (t.stack stk).failed = true) ∧ (∀ k, k ≠ stk → t.stack k = s.stack k) ∧
      (∀ q, placedBase ≤ q → q < 0x140000000000 → placedStack q = stk → t.byteAt (.mem q) = blankByte) ∧
      (∀ q, placedStack q ≠ stk → t.byteAt (.mem q) = s.byteAt (.mem q))) ∧
  (∀ s : State, s.power.mode = .booting → s.boot.configOk = true → (∀ k, k < 32 → (s.stack k).cleared = true) →
    ∃ t, exec .enterReady s = .next t ∧ t.power = { s.power with mode := .ready } ∧ t.boot = { s.boot with lastStep := 7 } ∧
      (∀ p, p < 8 → (s.port p).proto ≠ 0 → t.port p = { s.port p with memActive := true }) ∧
      (∀ p, p < 8 → (s.port p).proto = 0 → t.port p = s.port p) ∧ t.mem = s.initFrames.mem ∧
      t = { s with power := t.power, boot := t.boot, ports := t.ports, mem := t.mem }) ∧
  (∀ s : State, s.power.mode = .warmUp → exec .warmupStalled s = .next (s.setFld 0 0 0 PTM_STATUS.WARMUP_STALLED 1)))

/-- The input, the dies' power and the phases (R476, R480, R481, R482). -/
def Obligations.PowerSamplesMoveTheCaps : Prop :=  (∀ (s : State) (v a : Nat), s.power.mode ≠ .off → s.power.mode ≠ .standby → 4400 ≤ v → v ≤ 6000 →
    ∃ t, exec (.inputSample v a) s = .next t ∧
      t.regs = ((((s.setFld 0 0 0 PTM_INPUT.VOLTAGE v).setFld 0 0 0 PTM_INPUT.CURRENT a).setFld 0 0 0 PTM_INPUT_POWER.POWER (v * a / 10000)).setFld
        0 0 0 PTM_INPUT_POWER.LIMIT (inputLimit v s.phasesFailed)).regs ∧
      t.power = { s.power with powerCap := if inputLimit v s.phasesFailed * 9700 < v * a then max 600 (s.power.powerCap - 10) else s.power.powerCap } ∧
      t = { s with regs := t.regs, power := t.power }) ∧
  (∀ s : State, s.fld 0 0 0 PTM_INPUT.VOLTAGE * s.fld 0 0 0 PTM_INPUT.CURRENT < 9000 * s.fld 0 0 0 PTM_INPUT_POWER.LIMIT →
    exec .powerCapRaise s = .next { s with power := { s.power with powerCap := min 850 (s.power.powerCap + 10) } }) ∧
  (∀ (s : State) (d w x : Nat), d < 8 → s.power.rails = true →
    ∃ t, exec (.diePowerSample d w x) s = .next t ∧ t.regs = ((s.setFld d 0 0 PTM_DIE_POWER.DIE w).setFld d 0 0 PTM_DIE_POWER.STACKS x).regs ∧
      t.dieCapOf d = (if 410 < w then max 600 (s.dieCapOf d - 10) else s.dieCapOf d) ∧ (∀ e, e ≠ d → t.dieCapOf e = s.dieCapOf e) ∧
      t = { s with regs := t.regs, power := { s.power with dieCap := t.power.dieCap } }) ∧
  (∀ (s : State) (d : Nat), d < 8 → s.power.rails = true → s.fld d 0 0 PTM_DIE_POWER.DIE < 380 →
    ∃ t, exec (.dieCapRaise d) s = .next t ∧ t.dieCapOf d = min 850 (s.dieCapOf d + 10) ∧ (∀ e, e ≠ d → t.dieCapOf e = s.dieCapOf e) ∧
      t = { s with power := { s.power with dieCap := t.power.dieCap } }) ∧
  (∀ s : State, s.power.mode ≠ .off → s.power.mode ≠ .safe → s.phasesFailed < 7 →
    ∃ t, exec .phaseFail s = .next t ∧ t.power = s.power ∧ t.mem = s.mem ∧ t = { s with regs := t.regs, fcu := t.fcu, flash := t.flash }) ∧
  (∀ s : State, s.power.mode ≠ .off → s.power.mode ≠ .safe → 7 ≤ s.phasesFailed → s.phasesFailed < 18 →
    ∃ t, exec .phaseFail s = .next t ∧ t.power = { s.power with rails := false, busShut := true, demands := [], mode := .standby } ∧
      t.mem = { s.mem with cells := [], poison := [] })

/-- R488: a die's thermal cap is PTM_VDDL.TARGET lowered by 10 mV for each whole degree of logic temperature over 100 °C (in sixteenths); at the default target it reaches
0.60 V at 115 °C, where a reading that is no outlier raises the class M fault that leads to Safe. -/
def Obligations.ThermalCapFollowsLogicTemperature : Prop :=  (∀ (s : State) (d : Nat) (t : Int), s.logicTemp d = some t →
    s.thermalCap d = s.vddlTarget d - 10 * ((t - 1600) / 16).toNat) ∧
  (∀ (s : State) (d : Nat), s.vddlTarget d = 750 → s.logicTemp d = some 1840 → s.thermalCap d = 600) ∧
  (∀ (s : State) (d idx : Nat) (t : Int), idx < 0x60 → 1840 ≤ t → s.power.mode ≠ .safe → s.power.mode ≠ .off →
    (d, 0xCC02) ∈ (s.thresholds d idx t).fcu.safetyRing)

/-- Sensors (R484, R485, R497): the loop demands every sensor of the die, a host one of them, and the end of a conversion answers those who demanded it. -/
def Obligations.SensorsAreDemandedAndRead : Prop :=  (∀ (s : State) (d : Nat), d < 8 → s.power.rails = true → s.power.demands = [] →
    exec (.throttleLoopDemand d) s = .next { s with power := { s.power with demands := (List.range 0xF8).map fun i => ⟨d, i, .loop⟩ } }) ∧
  (∀ (s : State) (d : Nat) (v : Word), d < 8 → s.power.rails = true → s.power.mode ≠ .safe → bits v.toNat 7 0 < 0xF8 →
    s.fld d 0 0 PTM_TSENSE_DATA.BUSY ≠ 1 → s.power.demands.contains ⟨d, bits v.toNat 7 0, .host⟩ = false →
    ∃ t, exec (.ptmTsenseReqWrite d v) s = .next t ∧ t.power.demands = s.power.demands ++ [⟨d, bits v.toNat 7 0, .host⟩] ∧
      t.fld d 0 0 PTM_TSENSE_DATA.BUSY = 1 ∧ t.fld d 0 0 PTM_TSENSE_DATA.VALID = 0 ∧ t.fld d 0 0 PTM_TSENSE_DATA.SENSOR = bits v.toNat 7 0 ∧
      t = { s with regs := t.regs, power := { s.power with demands := t.power.demands } }) ∧
  (∀ (s : State) (d : Nat) (v : Word), d < 8 → s.power.rails = true → s.power.mode ≠ .safe →
    (0xF8 ≤ bits v.toNat 7 0 ∨ s.fld d 0 0 PTM_TSENSE_DATA.BUSY = 1) →
    exec (.ptmTsenseReqWrite d v) s = .next (s.setFld d 0 0 PTM_TSENSE_DATA.ERR 1)) ∧
  (∀ (s : State) (d idx : Nat) (temp : Int), d < 8 → idx < 0x60 → s.power.rails = true → s.power.mode = .ready → s.power.demands = [⟨d, idx, .host⟩] →
    0 ≤ temp → temp < 1520 → (∀ x, s.sensor d idx = some x → x.excluded = false) → s.outlier d idx temp = false →
    ∃ t, exec (.sensorConversionDone d idx temp) s = .next t ∧ t.validTemp d idx = some temp ∧ t.power.demands = [] ∧
      t.fld d 0 0 PTM_TSENSE_DATA.VALID = 1 ∧ t.fld d 0 0 PTM_TSENSE_DATA.BUSY = 0 ∧ t.fld d 0 0 PTM_TSENSE_DATA.TEMP = temp.toNat ∧
      t.fld d 0 0 PTM_TSENSE_DATA.SENSOR = idx ∧ t.mem = s.mem ∧ t.fcu = s.fcu ∧ t.power.mode = .ready)

/-- Dormant (R493, R494, R496): asked for by register or PLDM, refused while work is in progress, entered once every stack sleeps, left on a wake cause. -/
def Obligations.DormantIsEnteredAndLeft : Prop :=  (∀ s : State, s.power.mode = .ready → s.workInProgress = false →
    ∃ t, exec .enterDormant s = .next t ∧ exec (.pldmSetStateEffecter false) s = .next t ∧ t.power = { s.power with mode := .enteringDormant } ∧
      (∀ k, k < 32 → (s.stack k).cleared = true → (s.stack k).sr = .awake → t.stack k = { s.stack k with sr := .waiting }) ∧
      t.mem = s.mem ∧ t.regs = s.regs) ∧
  (∀ s : State, s.power.mode = .ready → s.workInProgress = true →
    exec .enterDormant s = .next (s.setFld 0 0 0 PTM_STATE.REFUSED 1)) ∧
  (∀ s : State, s.power.mode = .enteringDormant → (∀ k, k < 32 → (s.stack k).sr ≠ .waiting ∧ (s.stack k).sr ≠ .commanded) → s.power.heldWork = false →
    exec .dormantEntryComplete s = .next { s with power := { s.power with mode := .dormant, phasesOn := 4 } }) ∧
  (∀ s : State, s.power.mode = .dormant →
    ∃ t, exec .wake s = .next t ∧ exec (.pldmSetStateEffecter true) s = .next t ∧
      t.power = { s.power with mode := .waking, phasesOn := 18, heldWork := false } ∧
      (∀ k, k < 32 → (s.stack k).stopped = false → (s.stack k).sr = .asleep → t.stack k = { s.stack k with sr := .waking }) ∧ t.mem = s.mem) ∧
  (∀ s : State, s.power.mode = .enteringDormant →
    exec .wake s = .next { s with power := { s.power with heldWork := true } }) ∧
  (∀ s : State, s.power.mode = .waking →
    exec .wakeComplete s = .next ({ s with power := { s.power with mode := .ready } } : State).retry)

/-! ### Faults and the safe state -/

/-- A fault detected outside Off (R456, R465, R472, R474): its record goes into the ring slot that NEXT names, the sequence number and NEXT advance, a class M fault goes on the safety
ring unless the module is in Safe, and at once into the flash log; a class C fault stays out of the flash log. Nothing else changes. -/
def Obligations.FaultIsRecordedAndReported : Prop :=  ∀ (s : State) (d id : Nat) (u : FaultUnit) (task detail : Nat), s.power.mode ≠ .off →
    ∃ t r, t = s.raise d id u task detail ∧ t = { s with regs := t.regs, flash := t.flash, fcu := t.fcu } ∧
      mfind (mget emptyRing t.fcu.rings d).slots (s.fld d 0 0 FCU_LOG_HEAD.NEXT) = some r ∧ r.length = 32 ∧
      field r 0x00 2 = id % 2 ^ 16 ∧ field r 0x02 1 = d % 2 ^ 8 ∧ field r 0x04 2 = unitCode u % 2 ^ 16 ∧ field r 0x06 1 = task % 2 ^ 8 ∧
      field r 0x08 8 = s.time d % 2 ^ 64 ∧ field r 0x10 8 = detail % 2 ^ 64 ∧ field r 0x1C 4 = s.flash.boots % 2 ^ 32 ∧
      (mget emptyRing t.fcu.rings d).seq = (mget emptyRing s.fcu.rings d).seq + 1 ∧
      t.fld d 0 0 FCU_LOG_HEAD.NEXT = (s.fld d 0 0 FCU_LOG_HEAD.NEXT + 1) % 32 ∧
      t.fcu.safetyRing = (if faultClass id = 3 ∧ s.power.mode ≠ .safe then s.fcu.safetyRing ++ [(d, id)] else s.fcu.safetyRing) ∧
      (faultClass id = 3 → t.fcu.toFlash = []) ∧ (faultClass id ≠ 3 → t.flash = s.flash) ∧ (faultClass id = 0 → t.fcu.toFlash = s.fcu.toFlash)

/-- FAULT_RECORD and the collectors' own checks (R456, R459, R461, R468, R469): class C and M faults are recorded and nothing more; a class D fault in a core or in bank
arithmetic also starts the unit's test. The tests that faults and SELFTEST start come to an end (R447, R461, R462): a core that fails is retired, failing bank groups
move to the substitute units. -/
def Obligations.DetectedFaultsReactAndTestsEnd : Prop :=
  ((∀ (s : State) (d id : Nat) (u : FaultUnit) (task detail : Nat), d < 8 → faultIds.contains id = true → faultClass id = 0 ∨ faultClass id = 3 →
    (∀ c, u = .core c → id ≠ 0x0301) → exec (.faultRecord d id u task detail) s = .next (s.raise d id u task detail)) ∧
  (∀ (s : State) (d c id task detail : Nat), d < 8 → faultIds.contains id = true → faultClass id = 2 → s.coreRetired d c = false →
    ∃ t, exec (.faultRecord d id (.core c) task detail) s = .next t ∧ (∃ x ∈ t.mgmt.tests, x.unit = ⟨5, d * 64 + c⟩ ∧ x.byMgmt = false) ∧ t.mem = s.mem) ∧
  (∀ (s : State) (d j id task detail : Nat), d < 8 → faultIds.contains id = true → faultClass id = 2 →
    ∃ t, exec (.faultRecord d id (.sc j) task detail) s = .next t ∧ (∃ x ∈ t.mgmt.tests, x.unit = ⟨3, 4 * d + j⟩ ∧ x.memory = false) ∧ t.mem = s.mem) ∧
  (∀ (s : State) (d : Nat), d < 8 → exec (.fcuLockstep d) s = .next (s.raise d 0xCD01 .die 0 0) ∧ exec (.fcuSelf d) s = .next (s.raise d 0xCD02 .die 0 0)) ∧
  (∀ (s : State) (d ppm : Nat), d < 8 → 10000 < ppm → exec (.timebaseCheck d ppm) s = .next (s.raise d 0xCD03 .die 0 0)) ∧
  (∀ (s : State) (d ppm : Nat), ppm ≤ 10000 → exec (.timebaseCheck d ppm) s = .next s)) ∧
  ((∀ (s : State) (d c : Nat) (x : SelfTest), (s.mgmt.tests.find? fun t => t.unit = ⟨5, d * 64 + c⟩ && t.started) = some x → x.byMgmt = false →
    (∀ y, mfind s.fcu.lastD (d * 64 + c) = some y → y.2 = false) →
    exec (.coreLogicTestDone d c true) s = .next { s with mgmt := { s.mgmt with tests := s.mgmt.tests.filter (· ≠ x) } }) ∧
  (∀ (s : State) (d c : Nat) (x : SelfTest), d < 8 → c < 64 → (s.mgmt.tests.find? fun t => t.unit = ⟨5, d * 64 + c⟩ && t.started) = some x → x.byMgmt = false →
    ∃ t, exec (.coreLogicTestDone d c false) s = .next t ∧ t.coreRetired d c = true ∧ t.mgmt = { s.mgmt with tests := s.mgmt.tests.filter (· ≠ x) } ∧
      t = { s with mgmt := t.mgmt, regs := t.regs, fcu := t.fcu, flash := t.flash }) ∧
  (∀ (s : State) (stk : Nat) (failed : List Nat) (x : SelfTest), stk < 32 → (s.mgmt.tests.find? fun t => t.unit = ⟨3, stk⟩ && !t.memory) = some x → x.byMgmt = false →
    ∃ t, exec (.bauSelftestDone stk failed) s = .next t ∧ t.mgmt = { s.mgmt with tests := s.mgmt.tests.filter (· ≠ x) } ∧
      (∀ g, g ∈ (t.stack stk).substitutes ↔ g ∈ (s.stack stk).substitutes ∨ g ∈ failed ∧ g < 16) ∧
      (t.fld (stk / 4) 0 0 FCU_SUSPECT.BAU).testBit (stk % 4) = false ∧ t = { s with mgmt := t.mgmt, stackMap := t.stackMap, regs := t.regs }))

/-- Safe is entered for the first class M fault on the safety ring, and left by the automatic reset (R465, R466, R467). The flash log, the heartbeat and the pulse
(R470, R472). In Safe (R466) host reads of memory return poisoned data and host writes are discarded. -/
def Obligations.SafeStateIsEnteredServedAndLeft : Prop :=
  ((∀ (s : State) (d id : Nat) (rest : List (Nat × Nat)), s.fcu.safetyRing = (d, id) :: rest → s.power.mode ≠ .safe → s.power.mode ≠ .off →
    ∃ t, exec .safeStateEntry s = .next t ∧ t.power.mode = .safe ∧ t.power.pulse = true ∧ t.fcu.safetyRing = [] ∧ t.banks = [] ∧
      t.mem = { s.mem with held := [], snoops := [], obtained := [], owned := [] } ∧ (∀ p, p < 8 → Sent.aer p ∈ t.sent) ∧
      ∀ e, e < 8 → t.fld e 0 0 FCU_STATUS.SAFE = 1 ∧ t.fld e 0 0 FCU_STATUS.FIRST_M = id % 2 ^ 16) ∧
  (∀ s : State, s.power.mode = .safe → s.restartReady = true → exec .automaticReset s = .next (s.moduleReset 4 .booting)) ∧
  (∀ s : State, s.power.mode = .safe → s.restartReady = false → exec .automaticReset s = .next s) ∧
  (∀ s : State, s.fld 0 0 0 FCU_SAFE_CFG.RESTART = 0 ∨ s.power.busShut = true → s.restartReady = false)) ∧
  ((∀ s : State, exec .faultLogFlush s = .next { s with
    flash := { s.flash with log := (s.fcu.toFlash.reverse ++ s.flash.log).take 32768 }, fcu := { s.fcu with toFlash := [] } }) ∧
  (∀ s : State, s.boot.locked = true → s.power.mode ≠ .safe → s.power.mode ≠ .off → s.fld 0 0 0 FCU_PIN_CFG.MODE = 0 → s.fld 0 0 0 FCU_PIN_HOLD.HOLD = 0 →
    exec .heartbeatToggle s = .next { s with power := { s.power with pin := if s.power.pin = .high then .low else .high } }) ∧
  (∀ s : State, s.power.mode = .safe → s.power.pulse = true → s.boot.locked = true → s.fld 0 0 0 FCU_PIN_CFG.MODE = 1 → s.fld 0 0 0 FCU_PIN_HOLD.HOLD = 0 →
    exec .faultPulseEnd s = .next { s with power := { s.power with pulse := false, pin := .high } })) ∧
  ((∀ (s : State) (port rid a n hold : Nat), s.power.mode = .safe →
    exec (.memoryRead (.host port rid) (.hpa a) n hold) s =
      .next { s with sent := s.sent ++ [.reply (.host port rid) (.data (List.replicate n 0) (List.range ((n + 63) / 64)))] }) ∧
  (∀ (s : State) (port rid a : Nat) (data : List Byte) (poison : Bool), s.power.mode = .safe →
    exec (.memoryWrite (.host port rid) (.hpa a) data poison) s = .next { s with sent := s.sent ++ [.reply (.host port rid) .done] }))

/-- R471: while HOLD is 1 the pin is driven low in every state (in Off nothing drives it) and in either mode: by a write that sets HOLD, by a square wave that goes on, after a
pulse, and on entry to Safe; a write of 0 lets the pin follow its mode again, and module reset clears HOLD. -/
def Obligations.PinHoldKeepsFaultLow : Prop :=  (∀ s : State, s.fld 0 0 0 FCU_PIN_HOLD.HOLD = 1 → s.pinLevel = if s.power.mode = .off then .hiZ else .low) ∧
  (∀ s : State, s.power.pin = .low → s.fld 0 0 0 FCU_PIN_HOLD.HOLD = 1 → exec .heartbeatToggle s = .next s) ∧
  (∀ s : State, s.power.mode ≠ .off → s.power.mode ≠ .safe → s.fcu.safetyRing ≠ [] → s.fld 0 0 0 FCU_PIN_HOLD.HOLD = 1 →
    ∃ t, exec .safeStateEntry s = .next t ∧ t.power.mode = .safe ∧ t.power.pin = .low ∧ t.fld 0 0 0 FCU_PIN_HOLD.HOLD = 1) ∧
  (∀ s : State, s.power.mode = .safe → s.power.pulse = true → s.fld 0 0 0 FCU_PIN_HOLD.HOLD = 1 →
    exec .faultPulseEnd s = .next { s with power := { s.power with pulse := false, pin := .low } }) ∧
  (∀ (s : State) (v : Word), s.power.mode ≠ .off →
    ∃ t, exec (.fcuPinHoldWrite v) s = .next t ∧ t.fld 0 0 0 FCU_PIN_HOLD.HOLD = v.toNat % 2 ∧ (v.toNat % 2 = 1 → t.power.pin = .low) ∧
      (v.toNat % 2 = 0 → t.power.pin = (s.setFld 0 0 0 FCU_PIN_HOLD.HOLD 0).pinLevel) ∧
      t = { s with regs := t.regs, power := { s.power with pin := t.power.pin } }) ∧
  (∀ (s : State) (v : Word), s.power.mode = .off → exec (.fcuPinHoldWrite v) s = .next s) ∧
  (∀ (s : State) (cause : Nat) (mode : Mode), (s.moduleReset cause mode).fld 0 0 0 FCU_PIN_HOLD.HOLD = 0)

/-- Links (R459, R461, R463): a parity error is recorded and the link or segment retrains; the retrain's end lets held accesses cross; a second error on a link within a second takes it down. -/
def Obligations.LinksRetrainAndGoDown : Prop :=  (∀ (s : State) (d n : Nat) (e : Option Nat), d < 8 → linkName d e = some n → s.fcu.linksDown.contains n = false →
    (∀ x, mfind s.fcu.linkParity n = some x → x + 100000000 < s.time d) →
    ∃ t, exec (.nocParity d e none) s = .next t ∧ n ∈ t.fcu.retraining ∧ mfind t.fcu.linkParity n = some (s.time d) ∧
      t = { s with regs := t.regs, flash := t.flash, fcu := t.fcu }) ∧
  (∀ (s : State) (d n l x : Nat), d < 8 → linkName d (some l) = some n → s.fcu.linksDown.contains n = false → mfind s.fcu.linkParity n = some x →
    s.time d ≤ x + 100000000 →
    ∃ u : State, exec (.nocParity d (some l) none) s = .next u.retry ∧ n ∈ u.fcu.linksDown ∧ n ∉ u.fcu.retraining ∧
      u = { s with regs := u.regs, flash := u.flash, fcu := u.fcu }) ∧
  (∀ (s : State) (d n : Nat) (e : Option Nat), linkName d e = some n → s.fcu.retraining.contains n = true →
    exec (.linkRetrainDone d e true) s = .next ({ s with fcu := { s.fcu with retraining := s.fcu.retraining.filter (· ≠ n) } } : State).retry) ∧
  (∀ (s : State) (n : Nat), n < 10 → (mfind s.fcu.linkParity n).isSome = true → s.fcu.linksDown.contains n = false →
    ∃ u : State, exec (.ddlLinkDown n) s = .next u.retry ∧ n ∈ u.fcu.linksDown ∧ n ∉ u.fcu.retraining ∧ u = { s with regs := u.regs, flash := u.flash, fcu := u.fcu })

/-! ### Memory and registers -/

/-- Reads and writes of memory by the module's own agents (R42, R46, R48, R49, R61): where the whole access is reached, its stacks run and its banks serve, a read answers the bytes that
memory holds and leaves them, a write stores its bytes and answers; an access with a line that is not reached, or lies in a stopped stack, answers a bus error, a read without effect, a write on the
other lines alone. -/
def Obligations.MemoryIsReadAndWritten : Prop :=  (∀ (s : State) (ag : Agent) (a n : Nat), s.power.mode = .ready → agentInternal ag = true → 0 < n →
    (∀ p ∈ piecesOf a n, s.reaches ag (s.resolve p.1) = true) → (∀ q ∈ s.memLines a n, (s.stack (placedStack q)).stopped = false) →
    s.ready ag a n false = true → s.anyPoison a n = false →
    ∃ t, exec (.memoryRead ag (.phys a) n 0) s = .next t ∧ t.sent = s.sent ++ [.reply ag (.data (s.readBytes a n) [])] ∧
      t.mem.cells = s.mem.cells ∧ t.mem.poison = s.mem.poison ∧ t.regs = s.regs ∧ t.power = s.power) ∧
  (∀ (s : State) (ag : Agent) (a : Nat) (data : List Byte) (poison : Bool), s.power.mode = .ready → agentInternal ag = true → 0 < data.length →
    (∀ p ∈ piecesOf a data.length, s.reaches ag (s.resolve p.1) = true) → (∀ q ∈ s.memLines a data.length, (s.stack (placedStack q)).stopped = false) →
    s.ready ag a data.length true = true →
    ∃ t, exec (.memoryWrite ag (.phys a) data poison) s = .next t ∧ t.sent = s.sent ++ [.reply ag .done] ∧
      t.mem.cells = (s.writePieces poison (piecesOf a data.length) data).mem.cells ∧
      t.mem.poison = (s.writePieces poison (piecesOf a data.length) data).mem.poison ∧ t.regs = s.regs ∧ t.power = s.power) ∧
  (∀ (s : State) (ag : Agent) (a n hold : Nat), s.power.mode = .ready → agentInternal ag = true → a < 0x300000000000 ∨ 0x3F0080000000 ≤ a →
    (∃ p ∈ piecesOf a n, s.pieceOk ag p = false) →
    ∃ t, exec (.memoryRead ag (.phys a) n hold) s = .next t ∧ t.sent = s.sent ++ [.reply ag .busError] ∧ t = { s with sent := t.sent, regs := t.regs }) ∧
  (∀ (s : State) (ag : Agent) (a : Nat) (data : List Byte) (poison : Bool), s.power.mode = .ready → agentInternal ag = true → 0 < data.length →
    a < 0x300000000000 ∨ 0x3F0080000000 ≤ a → (∀ p ∈ piecesOf a data.length, s.pieceOk ag p = false) →
    ∃ t, exec (.memoryWrite ag (.phys a) data poison) s = .next t ∧ t.sent = s.sent ++ [.reply ag .busError] ∧ t = { s with sent := t.sent, regs := t.regs }) ∧
  (∀ (s : State) (ag : Agent) (a : Nat) (data : List Byte) (poison : Bool), s.power.mode = .ready → agentInternal ag = true →
    a < 0x300000000000 ∨ 0x3F0080000000 ≤ a → (∃ p ∈ piecesOf a data.length, s.pieceOk ag p = true) → (∃ p ∈ piecesOf a data.length, s.pieceOk ag p = false) →
    (∀ q ∈ s.pieceLines ((piecesOf a data.length).filter (s.pieceOk ag)), s.bankServes (agentDie ag) (bankOf q) = true ∧ s.needs ag q true = []) →
    ∃ t ps, exec (.memoryWrite ag (.phys a) data poison) s = .next t ∧ t.sent = s.sent ++ [.reply ag .busError] ∧
      ps = (piecesOf a data.length).map (fun p => if s.pieceOk ag p then p else (noAddr, p.2)) ∧
      t.mem.cells = (s.writePieces poison ps data).mem.cells ∧ t.mem.poison = (s.writePieces poison ps data).mem.poison ∧ t.power = s.power)

/-- R20: an access to register space that is not one aligned 32-bit word has no effect; an internal agent receives a bus error, a host Unsupported Request. -/
def Obligations.RegisterSpaceTakesAlignedWordsOnly : Prop :=  (∀ (s : State) (ag : Agent) (a d off n hold : Nat), s.power.mode ≠ .off → s.power.mode ≠ .standby → agentInternal ag = true → s.resolve a = .reg d off →
    off % 4 ≠ 0 ∨ n ≠ 4 → exec (.memoryRead ag (.phys a) n hold) s = .next { s with sent := s.sent ++ [.reply ag .busError] }) ∧
  (∀ (s : State) (ag : Agent) (a d off : Nat) (data : List Byte) (poison : Bool), s.power.mode ≠ .off → s.power.mode ≠ .standby → agentInternal ag = true →
    s.resolve a = .reg d off → off % 4 ≠ 0 ∨ data.length ≠ 4 →
    exec (.memoryWrite ag (.phys a) data poison) s = .next { s with sent := s.sent ++ [.reply ag .busError] }) ∧
  (∀ (s : State) (port rid o n hold : Nat), s.power.mode ≠ .off → s.power.mode ≠ .standby → o < 0x80000000 → s.fld port 0 0 HP_CFG.REGS ≠ 0 →
    (∀ h ∈ s.mem.held, ∀ i, h.ag ≠ .host port i) →
    o % 4 ≠ 0 ∨ n ≠ 4 →
    exec (.memoryRead (.host port rid) (.bar 0 (0x80000000 + o)) n hold) s = .next { s with sent := s.sent ++ [.reply (.host port rid) .unsupported] }) ∧
  (∀ (s : State) (port rid o : Nat) (data : List Byte) (poison : Bool), s.power.mode ≠ .off → s.power.mode ≠ .standby → o < 0x80000000 →
    s.fld port 0 0 HP_CFG.REGS ≠ 0 → (∀ h ∈ s.mem.held, ∀ i, h.ag ≠ .host port i) → o % 4 ≠ 0 ∨ data.length ≠ 4 →
    exec (.memoryWrite (.host port rid) (.bar 0 (0x80000000 + o)) data poison) s = .next { s with sent := s.sent ++ [.reply (.host port rid) .unsupported] })

/-- The directory and hosts' answers (R53, R56): a full directory asks back the holders of its oldest line; an answer with a modified line writes it back, ends the request, and lets waiting
accesses go on. -/
def Obligations.HostsGiveLinesBack : Prop :=  (∀ (s : State) (d : Nat) (e : DirEntry), s.dirFull d = true → (s.mem.dir.find? fun x => placedStack (x.line * 64) / 4 = d) = some e →
    ∃ t, exec (.directoryRecall d) s = .next t ∧ (∀ q ∈ e.ports, (⟨q.1, e.line, .backInvalidate⟩ : Snoop) ∈ t.mem.snoops) ∧
      t = { s with sent := t.sent, mem := { s.mem with snoops := t.mem.snoops } }) ∧
  (∀ (s : State) (port line : Nat) (b : List Byte) (x : Snoop), (s.mem.snoops.find? fun y => y.port = port && y.line = line) = some x → x.kind = .backInvalidate →
    ∃ u : State, exec (.hostCacheResponse port line (some b)) s = .next u.retry ∧ x ∉ u.mem.snoops ∧
      u.mem.cells = (s.writeLine (line * 64) (padTo 64 0 b) false).mem.cells ∧ (∀ e ∈ u.mem.dir, e.line = line → ∀ q ∈ e.ports, q.1 ≠ port)) ∧
  (∀ (s : State) (port line : Nat) (x : Snoop), (s.mem.snoops.find? fun y => y.port = port && y.line = line) = some x → x.kind ≠ .backInvalidate →
    ∃ u : State, exec (.hostCacheResponse port line none) s = .next u.retry ∧ x ∉ u.mem.snoops ∧ line ∈ u.mem.obtained ∧ u.mem.cells = s.mem.cells)

/-! ### Stacks and bank sequences -/

/-- A bank's completion events (R68, R71, R72, R73, R76, R81, R82, R83, R144): each ends the command that it answers, and only then the bank's next command is chosen;
an event that answers nothing changes nothing. A corrected column is counted and recorded, one that parity recovers is too, and any other poisons its own line. A result
line that is ready leaves the unit's FIFO, and the next one enters it. Refresh debt and timers of a bank (R74, R76, R81, R82, R84): a refresh that falls due while the
bank is busy is postponed, on a debt of eight it is forced as a burst of nine, on an idle bank it is performed, and a stack in self-refresh refreshes itself; an old
request becomes urgent; the idle timer closes the row. -/
def Obligations.BankEventsRefreshAndTimers : Prop :=
  ((∀ (s : State) (b : BankId) (row : Nat), (s.bank b).cmd = some (.opening row) →
    exec (.openDone b) s = .next (s.drive b { s.bank b with cmd := none, openRow := some row })) ∧
  (∀ (s : State) (b : BankId) (n : Nat) (r : BankReq), (s.bank b).cmd = some (.column n) → (s.bank b).queue[n]? = some r → r.columns ≤ 1 →
    exec (.columnDone b 0) s = .next (s.drive b ({ s.bank b with cmd := none, queue := (s.bank b).queue.eraseIdx n } : Bank).settle)) ∧
  (∀ (s : State) (b : BankId) (n : Nat) (r : BankReq), (s.bank b).cmd = some (.column n) → (s.bank b).queue[n]? = some r → 1 < r.columns →
    exec (.columnDone b 0) s = .next (s.drive b ({ s.bank b with
      cmd := none, queue := modAt (fun r => { r with col := r.col + 1, columns := r.columns - 1 }) (s.bank b).queue n } : Bank).settle)) ∧
  (∀ (s : State) (b : BankId) (n : Nat), (s.bank b).cmd = some (.column n) → b.stk < 32 → placedStack (s.columnAddr b) = b.stk →
    exec (.columnDone b 1) s = .next (((s.countFld (b.stk / 4) (b.stk % 4) 0 SC_ECC_COUNT.CORRECTED 1).raise (b.stk / 4) 0x0101 (.sc (b.stk % 4)) 0
      (alignDown (s.columnAddr b) 1024)).drive b (s.bank b).columnDone)) ∧
  (∀ (s : State) (b : BankId) (n symbols : Nat), (s.bank b).cmd = some (.column n) → b.stk < 32 → placedStack (s.columnAddr b) = b.stk → 2 ≤ symbols →
    (s.stack b.stk).recoverable (placedDie (s.columnAddr b)) (placedBank (s.columnAddr b)) (rowPos (s.columnAddr b)) = true →
    exec (.columnDone b symbols) s = .next (((s.countFld (b.stk / 4) (b.stk % 4) 0 SC_ECC_COUNT.RECONSTRUCTED 1).raise (b.stk / 4) 0x0102 (.sc (b.stk % 4)) 0
      (alignDown (s.columnAddr b) 1024)).drive b (s.bank b).columnDone)) ∧
  (∀ (s : State) (b : BankId) (n symbols : Nat), (s.bank b).cmd = some (.column n) → b.stk < 32 → placedStack (s.columnAddr b) = b.stk → 2 ≤ symbols →
    (s.stack b.stk).recoverable (placedDie (s.columnAddr b)) (placedBank (s.columnAddr b)) (rowPos (s.columnAddr b)) = false →
    exec (.columnDone b symbols) s = .next ((s.poisonLine (s.columnAddr b)).drive b (s.bank b).columnDone)) ∧
  (∀ (s : State) (b : BankId), (s.bank b).cmd = some .closing →
    exec (.closeDone b) s = .next (s.drive b { s.bank b with cmd := none, openRow := none })) ∧
  (∀ (s : State) (b : BankId), (s.bank b).cmd = some .refreshing → (s.bank b).burst ≠ 0 →
    exec (.refreshDone b) s = .next ((s.drive b { s.bank b with cmd := none, burst := (s.bank b).burst - 1 }).nextRefresh b.stk).retry) ∧
  (∀ (s : State) (b : BankId), (s.bank b).cmd = some .refreshing → (s.bank b).burst = 0 →
    exec (.refreshDone b) s = .next ((s.drive b { s.bank b with cmd := none, debt := (s.bank b).debt - 1 }).nextRefresh b.stk).retry) ∧
  (∀ (s : State) (b : BankId) (j : SeqJob) (x : Bau) (l : List Byte) (rest : List (List Byte)), s.seqAt b = some j → s.seqOf j.id = some j → j.ran = true →
    mfind s.baus (bankKey b) = some x → x.fifo = l :: rest →
    ∃ t, exec (.resultReady b) s = .next t ∧ t.seqOf j.id = some { j with taken := j.taken + 1 } ∧
      mfind t.baus (bankKey b) = some { x with fifo := rest ++ if j.taken + 8 < lineCount j.stream then [resultLineAt j.stream (j.taken + 8)] else [] } ∧
      t = { s with baus := t.baus, seqs := t.seqs, sent := t.sent, mem := { s.mem with snoops := t.mem.snoops } }) ∧
  (∀ (s : State) (b : BankId), (∀ j ∈ s.seqs, j.token = false) → exec (.resultReady b) s = .next s) ∧
  (∀ (s : State) (b : BankId), (s.bank b).cmd = none → exec (.openDone b) s = .next s ∧ exec (.closeDone b) s = .next s ∧ exec (.refreshDone b) s = .next s)) ∧
  ((∀ (s : State) (b : BankId), bankExists b = true → (s.stack b.stk).sr = .awake → (s.bank b).busy = true ∨ s.seqHolds b = true → (s.bank b).debt < 8 →
    exec (.refreshDue b) s = .next (s.drive b { s.bank b with debt := (s.bank b).debt + 1 })) ∧
  (∀ (s : State) (b : BankId), bankExists b = true → (s.stack b.stk).sr = .awake → 8 ≤ (s.bank b).debt →
    exec (.refreshDue b) s = .next ((s.countFld (b.stk / 4) (b.stk % 4) 0 SC_REFRESH_DEBT.FORCED 1).drive b { s.bank b with debt := 0, burst := 9 })) ∧
  (∀ (s : State) (b : BankId), bankExists b = true → (s.stack b.stk).sr = .awake → (s.bank b).busy = false → s.seqHolds b = false → (s.bank b).debt < 8 →
    exec (.refreshDue b) s = .next (s.drive b { s.bank b with burst := 1 })) ∧
  (∀ (s : State) (b : BankId), (s.stack b.stk).sr = .asleep ∨ (s.stack b.stk).sr = .waking → exec (.refreshDue b) s = .next s) ∧
  (∀ (s : State) (b : BankId) (n : Nat), n < (s.bank b).queue.length →
    exec (.requestAgeLimit b n) s = .next (s.drive b { s.bank b with queue := modAt (fun r => { r with urgent := true }) (s.bank b).queue n })) ∧
  (∀ (s : State) (b : BankId), (s.bank b).idle = true → (s.bank b).cmd = none → s.seqHolds b = false → s.channelHeld b = false →
    exec (.idleTimerExpiry b) s = .next (s.setBank b { s.bank b with cmd := some .closing, idle := false })))

/-- The request that a bank serves next (R73, R75, R147, R150): in in-order mode the oldest; else the oldest urgent one, else the oldest hit on the open row, else the oldest; a write
waits for older writes to its line, and a sequence that waits for its token holds nothing up. What a bank with no command outstanding is sent (R68, R76, R81, R82, R83). -/
def Obligations.BanksServeInRankOrder : Prop :=  (∀ (x : Bank) (p : BankReq → Bool) (n : Nat), x.first p = some n → ∃ r, x.queue[n]? = some r ∧ p r = true ∧
    ((x.inOrder.isSome = true ∧ ∀ m r', m < n → x.queue[m]? = some r' → p r' = false) ∨
     (x.inOrder = none ∧ r.urgent = true ∧ ∀ m r', m < n → x.queue[m]? = some r' → p r' = true → r'.urgent = false) ∨
     (x.inOrder = none ∧ (∀ r' ∈ x.queue, p r' = true → r'.urgent = false) ∧ r.seq = none ∧ x.openRow = some r.row ∧
       ∀ m r', m < n → x.queue[m]? = some r' → p r' = true → r'.seq = none → x.openRow ≠ some r'.row) ∨
     (x.inOrder = none ∧ (∀ r' ∈ x.queue, p r' = true → r'.urgent = false ∧ (r'.seq = none → x.openRow ≠ some r'.row)) ∧
       ∀ m r', m < n → x.queue[m]? = some r' → p r' = false))) ∧
  (∀ (x : Bank) (n : Nat), x.pick = some n → ∃ k q r, (x.first fun r => r.seq.isNone) = some k ∧ x.queue[k]? = some q ∧ x.queue[n]? = some r ∧ r.seq = none ∧
    (n = k ∨ n < k ∧ q.sameLine r = true) ∧ ∀ m r', m < n → x.queue[m]? = some r' → r'.seq = none → q.sameLine r' = false) ∧
  (∀ x : Bank, x.pick = none ↔ ∀ r ∈ x.queue, r.seq ≠ none) ∧
  (∀ (x : Bank) (held allowed : Bool), x.cmd = none → x.burst ≠ 0 →
    (x.advance held allowed).cmd = if x.openRow.isSome then some .closing else if allowed then some .refreshing else none) ∧
  (∀ (x : Bank) (allowed : Bool), x.cmd = none → x.burst = 0 → (x.advance true allowed).cmd = if x.openRow.isSome then some .closing else none) ∧
  (∀ (x : Bank) (n : Nat) (r : BankReq) (allowed : Bool), x.cmd = none → x.burst = 0 → x.pick = some n → x.queue[n]? = some r →
    (x.advance false allowed).cmd = some (if x.openRow = some r.row then .column n else if x.openRow = none then .opening r.row else .closing)) ∧
  (∀ (x : Bank) (allowed : Bool), x.cmd = none → x.burst = 0 → x.pick = none →
    (x.advance false allowed).cmd = if x.debt = 0 then none else if x.openRow.isSome then some .closing else if allowed then some .refreshing else none) ∧
  ∀ (x : Bank) (held allowed : Bool), x.cmd.isSome = true → x.advance held allowed = x

/-- Self-refresh (R80, R84, R85): entered after the delay when nothing waits on the stack, and left at once where the stack no longer has to sleep, with the held
requests served; the temperature readings of a stack that is awake. Channels and wires (R65, R68, R69, R72, R89, R90): a channel whose handshake or command parity fails
is treated as faulty; an uncorrectable column is what COLUMN_DONE makes of four symbols in error; the repair remaps the wire to a free spare, logs it, and the channel's
banks and held requests go on. -/
def Obligations.StacksSleepAndChannelsAreRepaired : Prop :=
  ((∀ (s : State) (k : Nat), k < 32 → (s.stack k).sr = .waiting → (∀ kb ∈ s.banksOf k, kb.2.queue = []) → s.actHeld k = 0 →
    ∃ t, exec (.srEntryDelayExpiry k) s = .next t ∧ (t.stack k).sr = .commanded ∧ t.banksOf k = [] ∧ t = { s with stackMap := t.stackMap, banks := t.banks }) ∧
  (∀ (s : State) (k : Nat), k < 32 → (s.stack k).sr = .commanded →
    (s.stack k).stopped = true ∨ s.power.mode = .enteringDormant ∨ s.power.mode = .dormant ∨ s.power.mode = .safe →
    exec (.selfRefreshEntered k) s = .next (s.setStack k { s.stack k with sr := .asleep })) ∧
  (∀ (s : State) (k : Nat), k < 32 → (s.stack k).sr = .commanded → (s.stack k).stopped = false → s.power.mode = .ready →
    exec (.selfRefreshEntered k) s = .next (s.setStack k { s.stack k with sr := .waking })) ∧
  (∀ (s : State) (k : Nat), k < 32 → (s.stack k).sr = .waking → exec (.selfRefreshExitDone k) s = .next (s.setStack k { s.stack k with sr := .awake }).retry) ∧
  (∀ (s : State) (k : Nat), k < 32 → (s.stack k).sr ≠ .asleep → exec (.tsenseOverdue k) s = .next (s.setStack k { s.stack k with overdue := true })) ∧
  (∀ (s : State) (k : Nat), k < 32 → s.power.rails = true → (s.stack k).sr ≠ .asleep →
    exec (.stackTsenseDemand k) s = .next (s.demand (k / 4) (stackSensors (k % 4)) .refresh))) ∧
  ((∀ (s : State) (k ch : Nat), k < 32 → ch < 64 → ∃ t, exec (.channelHandshakeTimeout k ch) s = .next t ∧ t = { s with stackMap := t.stackMap } ∧
    t.stack k = { s.stack k with channels := mput (s.stack k).channels ch { mget freshChannel (s.stack k).channels ch with faulty := true } }) ∧
  (∀ (s : State) (b : BankId), b.stk < 32 → b.die < 16 → b.bank < 64 → ∃ t, exec (.evError b false) s = .next t ∧ t = { s with stackMap := t.stackMap } ∧
    t.stack b.stk = { s.stack b.stk with channels := mput (s.stack b.stk).channels (channelOf b) { mget freshChannel (s.stack b.stk).channels (channelOf b) with faulty := true } }) ∧
  (∀ (s : State) (b : BankId), b.stk < 32 → b.die < 16 → b.bank < 64 → exec (.evError b true) s = exec (.columnDone b 4) s) ∧
  (∀ (s : State) (k ch : Nat) (c : Channel), k < 32 → ch < 64 → c = mget freshChannel (s.stack k).channels ch → c.dataUsed < 4 →
    ∃ u : State, exec (.tsvRepair k ch false) s = .next u.retry ∧
      u.stack k = { s.stack k with channels := mput (s.stack k).channels ch { c with dataUsed := c.dataUsed + 1, faulty := false } } ∧
      u.flash.repair = s.flash.repair ++ [.tsv k ch false] ∧ (∀ q, q ∉ (channelBanks k ch).map bankKey → mfind u.banks q = mfind s.banks q) ∧
      u = { s with stackMap := u.stackMap, banks := u.banks, regs := u.regs, fcu := u.fcu, flash := u.flash }) ∧
  (∀ (s : State) (k ch : Nat) (c : Channel), k < 32 → ch < 64 → c = mget freshChannel (s.stack k).channels ch → 4 ≤ c.dataUsed →
    ∃ u : State, exec (.tsvRepair k ch false) s = .next u.retry ∧
      u.stack k = { s.stack k with degraded := true, channels := mput (s.stack k).channels ch { c with dataLost := c.dataLost + 1, faulty := false } } ∧
      (∀ q, q ∉ (channelBanks k ch).map bankKey → mfind u.banks q = mfind s.banks q) ∧
      u = { s with stackMap := u.stackMap, banks := u.banks, regs := u.regs, fcu := u.fcu, flash := u.flash }) ∧
  (∀ (s : State) (k ch : Nat) (c : Channel), k < 32 → ch < 64 → c = mget freshChannel (s.stack k).channels ch → c.controlUsed < 2 →
    ∃ u : State, exec (.tsvRepair k ch true) s = .next u.retry ∧
      u.stack k = { s.stack k with channels := mput (s.stack k).channels ch { c with controlUsed := c.controlUsed + 1, faulty := false } } ∧
      u.flash.repair = s.flash.repair ++ [.tsv k ch true] ∧ (∀ q, q ∉ (channelBanks k ch).map bankKey → mfind u.banks q = mfind s.banks q) ∧
      u = { s with stackMap := u.stackMap, banks := u.banks, regs := u.regs, fcu := u.fcu, flash := u.flash }))

/-- Patrol scrub and rebuild advance position by position (R73, R86, R88, R92, R93): scrub wraps after the last position, waits while a bank of its position is at work,
and never waits on idle banks; when the rebuild completes, the parity die stands in and parity protection ends. Retirement (R89, R91, R92, R94, R95, R505): a failed
bank that parity can recover is served by reconstruction and copied into a free spare bank, and one that nothing recovers is lost; a first failed data die starts its
rebuild; a failed parity die ends parity; each is entered in the repair log. -/
def Obligations.StacksAreScrubbedRebuiltAndRetired : Prop :=
  ((∀ (s : State) (k : Nat) (behind : Bool), k < 32 → (s.stack k).cleared = true → (s.stack k).sr = .awake → ∃ t, exec (.scrubPosition k [] behind) s = .next t ∧
    t.fld (k / 4) (k % 4) 0 SC_SCRUB_STATUS.POSITION = (if s.scrubTurn k (s.fld (k / 4) (k % 4) 0 SC_SCRUB_STATUS.POSITION)
      then (s.fld (k / 4) (k % 4) 0 SC_SCRUB_STATUS.POSITION + 1) % 6291456 else s.fld (k / 4) (k % 4) 0 SC_SCRUB_STATUS.POSITION) ∧
    t.fld (k / 4) (k % 4) 0 SC_SCRUB_STATUS.BEHIND = (if behind then 1 else 0) ∧ t = { s with regs := t.regs }) ∧
  (∀ (s : State) (k pos : Nat), (∀ b : BankId, b.stk = k → s.seqHolds b = false ∧ (s.bank b).burst = 0 ∧ (s.bank b).cmd = none ∧ (s.bank b).queue = []) →
    s.scrubTurn k pos = true) ∧
  (∀ (s : State) (k p : Nat), k < 32 → (s.stack k).stopped = false → (s.stack k).rebuild = some p → p + 1 < 6291456 →
    (∀ die, die < 17 → s.seqHolds ⟨k, die, p % 64⟩ = false ∧ (s.bank ⟨k, die, p % 64⟩).burst = 0) →
    ∃ t, exec (.rebuildPosition k) s = .next t ∧ t.stack k = { s.stack k with rebuild := some (p + 1) } ∧
      t.fld (k / 4) (k % 4) 0 SC_REBUILD_PROGRESS.POINTER = p + 1 ∧ t = { s with regs := t.regs, stackMap := t.stackMap }) ∧
  (∀ (s : State) (k : Nat), k < 32 → (s.stack k).stopped = false → (s.stack k).rebuild = some 6291455 →
    (∀ die, die < 17 → s.seqHolds ⟨k, die, 63⟩ = false ∧ (s.bank ⟨k, die, 63⟩).burst = 0) →
    ∃ t, exec (.rebuildPosition k) s = .next t ∧
      t.stack k = { s.stack k with rebuild := none, parity := false, degraded := true } ∧
      t = { s with regs := t.regs, stackMap := t.stackMap })) ∧
  ((∀ (s : State) (b : BankId), b.stk < 32 → b.die < 16 → b.bank < 64 → (s.stack b.stk).bankOut b.die b.bank = false → (s.stack b.stk).parity = true →
    (s.stack b.stk).rebuild = none → (∀ q ∈ (s.stack b.stk).recon, q.2 ≠ b.bank) → (s.stack b.stk).lost = [] →
    ∃ t, exec (.bankRetire b) s = .next t ∧ (b.die, b.bank) ∈ (t.stack b.stk).recon ∧ t.flash.repair = s.flash.repair ++ [.bank b.stk b.die b.bank] ∧
      ((s.stack b.stk).spares.length < 4 → (t.stack b.stk).spares = (s.stack b.stk).spares ++ [⟨b.die, b.bank, false⟩] ∧ (t.stack b.stk).degraded = (s.stack b.stk).degraded) ∧
      (4 ≤ (s.stack b.stk).spares.length → (t.stack b.stk).spares = (s.stack b.stk).spares ∧ (t.stack b.stk).degraded = true) ∧
      t = { s with stackMap := t.stackMap, regs := t.regs, fcu := t.fcu, flash := t.flash }) ∧
  (∀ (s : State) (b : BankId), b.stk < 32 → b.die < 16 → b.bank < 64 → (s.stack b.stk).bankOut b.die b.bank = false → (s.stack b.stk).parity = false →
    ∃ t, exec (.bankRetire b) s = .next t ∧ (t.stack b.stk).failed = true ∧ (⟨b.die, some b.bank, 0, rowPositions⟩ : Lost) ∈ (t.stack b.stk).lost ∧
      t.flash.repair = s.flash.repair ++ [.bank b.stk b.die b.bank] ∧ t = { s with stackMap := t.stackMap, regs := t.regs, fcu := t.fcu, flash := t.flash }) ∧
  (∀ (s : State) (b : BankId), (⟨b.die, b.bank, false⟩ : Spare) ∈ (s.stack b.stk).spares →
    ∃ t, exec (.bankCopyComplete b) s = .next t ∧ (t.stack b.stk).spared b.die b.bank = true ∧ (b.die, b.bank) ∉ (t.stack b.stk).recon ∧ t = { s with stackMap := t.stackMap }) ∧
  (∀ (s : State) (k die : Nat), k < 32 → die < 16 → (s.stack k).retired = none → (s.stack k).lost = [] → (s.stack k).recon = [] → (s.stack k).parity = true →
    ∃ t, exec (.dieRetire k die) s = .next t ∧ t.stack k = { s.stack k with retired := some die, rebuild := some 0 } ∧
      t.flash.repair = s.flash.repair ++ [.die k die] ∧ t = { s with stackMap := t.stackMap, regs := t.regs, fcu := t.fcu, flash := t.flash }) ∧
  (∀ (s : State) (k : Nat), k < 32 → (s.stack k).parityFailed = false → ∃ t, exec (.parityDieFail k) s = .next t ∧
      t.flash.repair = s.flash.repair ++ [.parity k] ∧ (t.stack k).parity = false ∧ (t.stack k).parityFailed = true ∧ (t.stack k).degraded = true ∧ (t.stack k).rebuild = none ∧
      (t.stack k).spares = [] ∧ (t.stack k).recon = [] ∧
      ((s.stack k).spares = [] → (s.stack k).recon = [] → (s.stack k).retired = none → (t.stack k).lost = (s.stack k).lost ∧ (t.stack k).failed = (s.stack k).failed) ∧
      t = { s with stackMap := t.stackMap, regs := t.regs, fcu := t.fcu, flash := t.flash }))

/-- Bank sequences (R56, R73, R145, R147, R148, R150): a descriptor that fails no check joins its bank's queue, with the next identity, its recalls under way; one that
fails is answered with the first condition that it meets; a token that is free goes to the request that is picked, which then holds its bank, unless its rows have come
into a host-bias page; a sequence that may run runs, and one that has run returns its token and its bank. Sequence windows (R52, R154, R156, R157, R158): the owner's
aligned 64-byte write, which no earlier access of its port waits before, starts a sequence and the slot reads as running; a write of another length makes the slot DONE
with RANGE; a write to a slot that runs is an overrun and the sequence goes on. -/
def Obligations.SequencesRunFromDescriptorsAndSlots : Prop :=
  ((∀ (s : State) (src : Agent) (desc inline : List Byte) (st why : Nat), agentInternal src = true → s.power.mode = .ready →
    s.seqCheck src none none ⟨padTo 64 0 desc⟩ = some (st, why) →
    ∃ t j, exec (.bankSequence src desc inline) s = .next t ∧ t = { s with seqs := s.seqs ++ [j], seqNext := s.seqNext + 1 } ∧
      j.id = s.seqNext ∧ j.src = src ∧ j.desc = padTo 64 0 desc ∧ j.ran = true ∧ j.token = false ∧ j.status = st ∧ j.reason = why) ∧
  (∀ (s : State) (src : Agent) (desc inline : List Byte), agentInternal src = true → s.power.mode = .ready →
    s.seqCheck src none none ⟨padTo 64 0 desc⟩ = none → (⟨padTo 64 0 desc⟩ : Desc).cont = false →
    ∃ t j, exec (.bankSequence src desc inline) s = .next t ∧ t.seqs = s.seqs ++ [j] ∧ t.seqNext = s.seqNext + 1 ∧
      j.id = s.seqNext ∧ j.src = src ∧ j.desc = padTo 64 0 desc ∧ j.inline = inline ∧ j.ran = false ∧ j.token = false ∧
      (t.bank j.d.bank).queue = (s.bank j.d.bank).queue ++ [j.request] ∧
      t = { s with seqs := t.seqs, seqNext := t.seqNext, stackMap := t.stackMap, banks := t.banks, sent := t.sent, mem := { s.mem with snoops := t.mem.snoops } }) ∧
  (∀ (s : State) (k : Nat) (j : SeqJob), k < 32 → s.power.mode ≠ .safe → s.actHeld k < s.actEffective k → s.bauTesting k = false → s.seqPick k = some j →
    (∀ p ∈ j.d.rowLines, s.hostBiasPort p = none) →
    ∃ t, exec (.actTokenGrant k) s = .next t ∧ t.seqs = s.seqs.map (fun i => if i.id = j.id then { i with token := true } else i) ∧
      (t.bank j.d.bank).queue = (s.bank j.d.bank).queue.filter (fun r => r.seq ≠ some j.id) ∧ t.seqHolds j.d.bank = true ∧ t = { s with seqs := t.seqs, banks := t.banks }) ∧
  (∀ (s : State) (k : Nat) (j : SeqJob) (p : Nat), k < 32 → s.power.mode ≠ .safe → s.actHeld k < s.actEffective k → s.bauTesting k = false → s.seqPick k = some j →
    p ∈ j.d.rowLines → (s.hostBiasPort p).isSome = true →
    ∃ t, exec (.actTokenGrant k) s = .next t ∧ t.seqs = s.seqs.map (fun i => if i.id = j.id then { i with ran := true, status := 5, reason := 0x0010 } else i) ∧
      (t.bank j.d.bank).queue = (s.bank j.d.bank).queue.filter (fun r => r.seq ≠ some j.id) ∧ t = { s with seqs := t.seqs, banks := t.banks }) ∧
  (∀ (s : State) (id : Nat) (j : SeqJob), s.seqOf id = some j → s.seqRuns j = true →
    ∃ u i, u = s.runSeq j none none ∧ u.seqOf id = some i ∧ i.ran = true ∧ exec (.sequenceComplete id) s = .next (u.completeSeq i)) ∧
  (∀ (s : State) (id : Nat) (j : SeqJob), s.seqOf id = some j → s.seqEnds j = true →
    ∃ u : State, exec (.sequenceComplete id) s = .next u.retry ∧ u = ((s.endSeq j).slotDone j).seqDeliver j ∧
      (s.endSeq j).seqs = s.seqs.filter (fun x => x.id ≠ j.id))) ∧
  ((∀ (s : State) (p rid d n : Nat) (data : List Byte), p < 8 → d < 8 → n < 4096 → s.power.mode = .ready → (∀ h ∈ s.mem.held, ∀ i, h.ag ≠ .host p i) →
    s.ownsSlot p d n = true → (s.slot d n).state ≠ 1 → data.length = 64 →
    ∃ t, exec (.seqwDescriptorWrite (.host p rid) d n 0 data) s = .next t ∧ t.sent.getLast? = some (.reply (.host p rid) .done) ∧
      t.slot d n = ⟨1, leBytes 2 (field data 0 2) ++ leBytes 1 1 ++ List.replicate 61 0⟩ ∧ t.seqs.length = s.seqs.length + 1 ∧ t.mem.cells = s.mem.cells) ∧
  (∀ (s : State) (p rid d n : Nat) (data : List Byte), p < 8 → d < 8 → n < 4096 → s.power.mode = .ready → (∀ h ∈ s.mem.held, ∀ i, h.ag ≠ .host p i) →
    s.ownsSlot p d n = true → (s.slot d n).state ≠ 1 → data.length < 64 →
    ∃ t, exec (.seqwDescriptorWrite (.host p rid) d n 0 data) s = .next t ∧ t.sent = s.sent ++ [.reply (.host p rid) .done] ∧
      t.slot d n = ⟨2, leBytes 2 0xFFFF ++ leBytes 1 2 ++ leBytes 1 3 ++ leBytes 2 1 ++ List.replicate 58 0⟩ ∧ t = { s with regs := t.regs, slots := t.slots, sent := t.sent }) ∧
  (∀ (s : State) (p rid d n off : Nat) (data : List Byte), p < 8 → d < 8 → n < 4096 → off < 64 → off + data.length ≤ 128 → s.power.mode = .ready →
    (∀ h ∈ s.mem.held, ∀ i, h.ag ≠ .host p i) → s.ownsSlot p d n = true →
    (s.slot d n).state = 1 → ∃ t, exec (.seqwDescriptorWrite (.host p rid) d n off data) s = .next t ∧ t.sent = s.sent ++ [.reply (.host p rid) .done] ∧
      (∀ j ∈ t.seqs, j.slot = some (d, n) → j.overrun = true) ∧ t = { s with regs := t.regs, seqs := t.seqs, sent := t.sent }))

/-! ### The two streams -/

/-- Blocks (R177, R179, R181, R191): both streams stand at a BLOCK with equal replay counts, the first opens it (replay 0 takes the current parameter values) and the other follows; with
unequal counts the block mismatch fault stops both. A stream that finds END stops. -/
def Obligations.StreamsOpenBlocksTogether : Prop :=  (∀ (s : State) (d c : Nat) (x : Bool) (k : Core), k = s.core d c → k.atBlock x = true → k.faulted = none → (k.stream !x).inBlock = false → k.atBlock (!x) = true →
    Enc7.replays (k.next x) = Enc7.replays (k.next !x) →
    ∃ t, exec (.block d c x) s = .next t ∧ (t.core d c).stream x = { k.stream x with inBlock := true, pc := (k.stream x).pc + 1, start := (k.stream x).pc + 1, replays := Enc7.replays (k.next x), replay := 0, closed := false, blocks := (k.stream x).blocks + 1 } ∧
      (t.core d c).stream (!x) = k.stream (!x) ∧ (∀ n, (t.core d c).preg 0 n = (k.params[n]?).getD 0) ∧ (t.core d c).steps = k.strides ∧
      (t.core d c).written = [] ∧ t = { s with cores := t.cores }) ∧
  (∀ (s : State) (d c : Nat) (x : Bool) (k : Core), k = s.core d c → k.atBlock x = true → k.faulted = none → (k.stream !x).inBlock = true →
    (k.stream !x).blocks = (k.stream x).blocks + 1 →
    ∃ t, exec (.block d c x) s = .next t ∧ t.core d c = k.onStream x (fun _ => (t.core d c).stream x) ∧ ((t.core d c).stream x).inBlock = true ∧
      ((t.core d c).stream x).pc = (k.stream x).pc + 1 ∧ ((t.core d c).stream x).replay = 0 ∧ t = { s with cores := t.cores }) ∧
  (∀ (s : State) (d c : Nat) (x : Bool) (k : Core), k = s.core d c → k.atBlock x = true → k.faulted = none → (k.stream !x).inBlock = false → k.atBlock (!x) = true →
    Enc7.replays (k.next x) ≠ Enc7.replays (k.next !x) →
    exec (.block d c x) s = .next (s.streamFault d c 5 x 0 0 (k.stream x).pc 0)) ∧
  (∀ (s : State) (d c : Nat) (x : Bool) (k : Core), k = s.core d c → (k.stream x).running = true → (k.stream x).inBlock = false → k.faulted = none →
    Enc7.opc (k.next x) = Enc7.opEND → ∃ t, exec (.streamEnd d c x) s = .next t ∧ ((t.core d c).stream x).running = false ∧ t = { s with cores := t.cores } ∧
      ((k.stream !x).running = true → (t.core d c).cc = k.cc) ∧
      ((k.stream !x).running = false → k.cc.mode = 3 → (t.core d c).cc = { k.cc with mode := 1, entry := k.cc.entry + 1 }))

/-- Replays (R178 to R181): a stream that closes its replay moves into the next one, within three of the last replay that was checked; the lead stream forms the slot by adding the strides; the
control core applies the patch entries of the due replay, in list order, when no routine runs. -/
def Obligations.ReplaysAdvanceAndArePatched : Prop :=  (∀ (s : State) (d c : Nat) (x : Bool) (k : Core), k = s.core d c → (k.stream x).running = true → (k.stream x).inBlock = true → (k.stream x).closed = false →
    Enc7.opc (k.next x) = Enc7.opENDBLOCK → k.faulted = none → k.patchDue = none → k.inOcall = false → k.hold = none →
    exec (.endblock d c x) s = .next ((s.onCore d c fun k => k.onStream x fun st => { st with closed := true, pc := st.pc + 1 }).settle d c)) ∧
  (∀ (s : State) (d c r : Nat) (x : Bool) (k : Core), k = s.core d c → (k.stream x).running = true → (k.stream x).inBlock = true → (k.stream x).closed = true →
    k.faulted = none → r = (k.stream x).replay + 1 → r < (k.stream x).replays → r < k.checked + 4 →
    ∃ t, exec (.replayBoundary d c x) s = .next t ∧ (t.core d c).stream x = { k.stream x with replay := r, pc := (k.stream x).start, closed := false } ∧
      (∀ n v w, k.formed r = false → (k.slot (r - 1)).params[n]? = some v → k.steps[n]? = some w → (t.core d c).preg r n = (v + w) % 2 ^ 64) ∧
      (k.formed r = true → (t.core d c).slots = k.slots) ∧ t = { s with cores := t.cores }) ∧
  (∀ (s : State) (d c : Nat) (x : Bool), (s.core d c).checked + 4 ≤ ((s.core d c).stream x).replay + 1 → exec (.replayBoundary d c x) s = .next s) ∧
  (∀ (s : State) (d c r : Nat) (k : Core), k = s.core d c → k.patchDue = some r → k.cc.call = none → k.faulted = none →
    ∃ t, exec (.patchApply d c) s = .next t ∧ (t.core d c).patchDue = none ∧
      ((t.core d c).slot r).params = (k.patches.filter fun p => p.1 = r).foldl patchOne (k.slot r).params ∧ t = { s with cores := t.cores }) ∧
  (∀ (ps : List Nat) (r n v w : Nat), ps[n]? = some w →
    (patchOne ps (r, n, 0, v))[n]? = some v ∧ (patchOne ps (r, n, 1, v))[n]? = some ((w + v) % 2 ^ 64) ∧
      ∀ op m, m ≠ n → (patchOne ps (r, n, op, v))[m]? = ps[m]?)

/-- LOAD and STORE (R170 to R172, R175, R194): while fewer than four walkers are busy the instruction issues with its base from the replay's slot; a walk in memory joins DE0's queue. -/
def Obligations.WalksIssueWithTheirBase : Prop :=  ∀ p ∈ [(Instr.load, Enc7.opLOAD), (Instr.store, Enc7.opSTORE)], ∀ (s : State) (d c : Nat) (k : Core), k = s.core d c → k.issues false p.2 = true →
    (k.jobs.filter fun j => !j.x).length < 4 →
    ∃ t j, exec (p.1 d c) s = .next t ∧ (t.core d c).jobs = k.jobs ++ [j] ∧ j.x = false ∧ j.word = k.next false ∧ j.replay = k.sa.replay ∧
      j.base = plusOff (k.preg k.sa.replay (Enc7.walkPreg (k.next false))) (Enc7.walkOffset (k.next false)) ∧ j.pos = 0 ∧ (t.core d c).sa.pc = k.sa.pc + 1 ∧
      (j.de0 = true → ∃ x, (t.core d c).de0 = k.de0 ++ [x] ∧ x.walk = some j.id) ∧ (j.de0 = false → (t.core d c).de0 = k.de0) ∧
      (j.de0 = true ↔ ∃ q, s.resolve (Enc7.walkAddr (k.pattern (k.next false)) j.base 0) = .mem q) ∧ t = { s with cores := t.cores }

/-- WAIT and SIGNAL (R199, R213, R278 to R280): a wait passes a full word, emptying it when it consumes, and holds the access stream at an empty one; a signal issues at
once and fills its word once the writes before it are acknowledged, or is the overflow fault on a full one; a word outside the windows is the address fault. Barriers
(R282, R283): the access engine's arrival; the last participant's arrival fills the word; a released participant leaves, and when the last has left the round rises by
one and the word is empty; a DMA engine arrives for the marker at the head of its queue. -/
def Obligations.WaitsSignalsAndBarriers : Prop :=
  ((∀ (s : State) (d c off : Nat) (k : Core), k = s.core d c → k.issues false Enc7.opWAIT = true → k.syncOff d c = some off → k.isFull off = true →
    ∃ t, exec (.wait d c) s = .next t ∧ (t.core d c).hold = none ∧ (t.core d c).sa.pc = k.sa.pc + 1 ∧
      (t.core d c).isFull off = (!Enc7.syncConsume (k.next false)) ∧ t = { s with cores := t.cores }) ∧
  (∀ (s : State) (d c off : Nat) (k : Core), k = s.core d c → k.issues false Enc7.opWAIT = true → k.syncOff d c = some off → k.isFull off = false →
    ∃ t, exec (.wait d c) s = .next t ∧ (t.core d c).hold = some (.word off (Enc7.syncConsume (k.next false)), k.next false, k.sa.replay) ∧
      (t.core d c).sa.pc = k.sa.pc + 1 ∧ (t.core d c).full = k.full ∧ t = { s with cores := t.cores }) ∧
  (∀ (s : State) (d c off : Nat) (k : Core), k = s.core d c → k.issues false Enc7.opSIGNAL = true → k.syncOff d c = some off →
    ∃ (u : State) (g : Sig), exec (.signal d c) s = .next (u.settle d c) ∧ g.off = off ∧ g.word = k.next false ∧ g.replay = k.sa.replay ∧
      (u.core d c).signals = k.signals ++ [g] ∧ (u.core d c).sa.pc = k.sa.pc + 1 ∧ (u.core d c).hold = none ∧ (u.core d c).full = k.full ∧
      g ∈ (u.core d c).signals ∧ ((u.core d c).writtenBefore g.jobs g.xfers = true ↔ k.aeWritten = true) ∧ u = { s with cores := u.cores }) ∧
  (∀ (s : State) (d c off : Nat) (k : Core), k = s.core d c → k.issues false Enc7.opSIGNAL = true → k.syncOff d c = some off → k.jobs = [] → k.signals = [] →
    k.de0 = [] → k.de1 = [] → k.checked = k.sa.replay → k.isFull off = false → k.cc.hold = none →
    ∃ t, exec (.signal d c) s = .next t ∧ (t.core d c).isFull off = true ∧ (∀ o, o / 64 ≠ off / 64 → (t.core d c).isFull o = k.isFull o) ∧
      (t.core d c).sa.pc = k.sa.pc + 1 ∧ t = { s with cores := t.cores }) ∧
  (∀ (s : State) (d c off : Nat) (k : Core), k = s.core d c → k.issues false Enc7.opSIGNAL = true → k.syncOff d c = some off → k.jobs = [] → k.signals = [] →
    k.de0 = [] → k.de1 = [] → k.isFull off = true →
    ∃ t, exec (.signal d c) s = .next t ∧ (t.core d c).faulted = some 0x4701 ∧ (t.core d c).sa.running = false ∧ (t.core d c).sx.running = false ∧
      (t.core d c).cc.abortDue = true ∧ (t.core d c).full = k.full ∧ t.mem = s.mem) ∧
  (∀ p ∈ [(Instr.wait, Enc7.opWAIT), (Instr.signal, Enc7.opSIGNAL)], ∀ (s : State) (d c : Nat) (k : Core), k = s.core d c → k.issues false p.2 = true →
    k.syncOff d c = none → exec (p.1 d c) s = .next (s.streamFault d c 6 false 0 0 k.sa.pc k.sa.replay))) ∧
  ((∀ (s : State) (d c off : Nat) (k : Core) (b : Barrier) (m : Nat), k = s.core d c → s.corePresent d c = true → s.mem.wf = true → k.issues false Enc7.opBARRIER = true →
    k.aeWritten = true → k.de0 = [] → k.de1 = [] → k.syncOff d c = some off → b = s.barrier d c off → m = Enc7.syncMask (k.next false) → b.legal false = true →
    k.isFull off = false → m.testBit 0 = true → b.arrived.testBit 0 = false → (b.arrived = 0 ∨ b.mask = m) → k.cc.hold = none →
    ∃ t, exec (.barrier d c) s = .next t ∧ (t.core d c).hold = some (.barrier off, k.next false, k.sa.replay) ∧ (t.core d c).sa.pc = k.sa.pc + 1 ∧
      t.barrier d c off = (if b.arrived + 1 = m then ⟨b.round, m, 0, m, 0⟩ else ⟨b.round, m, b.arrived + 1, 0, 0⟩) ∧
      ((t.core d c).isFull off = true ↔ b.arrived + 1 = m) ∧ (∀ a, a < spmBase d c + off ∨ spmBase d c + off + 64 ≤ a → t.readByte a = s.readByte a) ∧
      ((t.core d c).de0 ≠ [] ↔ m.testBit 1 = true) ∧ ((t.core d c).de1 ≠ [] ↔ m.testBit 2 = true)) ∧
  (∀ (s : State) (d c off : Nat) (k : Core) (b : Barrier) (w r : Nat), k = s.core d c → s.corePresent d c = true → s.mem.wf = true → k.faulted = none → off % 64 = 0 →
    off + 64 ≤ spmSize → k.hold = some (.barrier off, w, r) → b = s.barrier d c off → b.legal true = true → k.isFull off = true → b.leaving.testBit 0 = true →
    (∀ x, k.cc.hold ≠ some (.arrive off x)) →
    ∃ t, exec (.barrierLeave d c off 0) s = .next t ∧ (t.core d c).hold = none ∧
      t.barrier d c off = (if b.leaving = 1 then ⟨(b.round + 1) % 2 ^ 32, b.mask, 0, 0, 0⟩ else { b with leaving := b.leaving - 1 }) ∧
      ((t.core d c).isFull off = false ↔ b.leaving = 1)) ∧
  (∀ (s : State) (d c off : Nat) (de1 : Bool) (k : Core) (x : Xfer) (rest : List Xfer) (b : Barrier) (p : Nat), k = s.core d c → s.corePresent d c = true → s.mem.wf = true →
    k.faulted = none → off % 64 = 0 → off + 64 ≤ spmSize → (if de1 then k.de1 else k.de0) = x :: rest → x.marker = some off → x.arrived = false → p = (if de1 then 2 else 1) →
    b = s.barrier d c off → b.legal false = true → k.isFull off = false → x.count < 16 → x.count.testBit p = true → b.arrived.testBit p = false →
    (b.arrived = 0 ∨ b.mask = x.count) →
    ∃ t, exec (.dmaBarrierArrive d c de1) s = .next t ∧ (if de1 then (t.core d c).de1 else (t.core d c).de0) = { x with arrived := true } :: rest ∧
      t.barrier d c off = (if b.arrived + 2 ^ p = x.count then ⟨b.round, x.count, 0, x.count, 0⟩ else ⟨b.round, x.count, b.arrived + 2 ^ p, 0, 0⟩)))

/-- Queues and tokens (R166 to R168, R175, R176): a step of a queue serves one pop and then accepts one push. A pop takes the head beat; a push adds one behind the rest, unless 32 stand
there; a pop that finds its queue empty with no push pending is the underflow fault, and a step with neither leaves the queue; a credit counts its token, and one above the
class's bound is the overflow fault. -/
def Obligations.QueuesAndTokensCount : Prop :=  (∀ (s : State) (d c q : Nat) (k : Core), q < 32 → k = s.core d c → k.faulted = none →
    exec (.queueBeatAccept d c q) s = .next (if ((s.popStep d c q).core d c).faulted.isSome then s.popStep d c q
      else if (((s.popStep d c q).pushStep d c q).core d c).faulted.isSome then (s.popStep d c q).pushStep d c q
      else ((s.popStep d c q).pushStep d c q).settle d c)) ∧
  (∀ (s : State) (d c q i : Nat) (k : Core) (j : Job) (b : Beat) (rest : List Beat), q < 32 → k = s.core d c → k.faulted = none → k.popper q = some (j, i) →
    k.popsNow j i = true → mget [] k.queues q = b :: rest → Enc7.opc j.word ≠ Enc7.opSTORE → (∀ y ∈ k.jobs, y.pushQ ≠ some q) →
    ∃ u : State, exec (.queueBeatAccept d c q) s = .next (u.settle d c) ∧ mget [] (u.core d c).queues q = rest ∧
      mget 0 ((u.core d c).slot j.replay).popped q = mget 0 (k.slot j.replay).popped q + 1 ∧ u = { s with cores := u.cores }) ∧
  (∀ (s : State) (d c q i : Nat) (k : Core) (j : Job), q < 32 → k = s.core d c → d < 8 → c < 64 → k.faulted = none → k.popper q = some (j, i) → k.popsNow j i = true →
    mget [] k.queues q = [] → k.pending q j.replay = false →
    exec (.queueBeatAccept d c q) s = .next (s.streamFault d c 1 j.x q 0 j.index j.replay)) ∧
  (∀ (s : State) (d c q : Nat) (k : Core) (j : Job) (data : List Byte) (rest : List (List Byte)), q < 32 → k = s.core d c → k.faulted = none → k.popper q = none →
    (mget [] k.queues q).length < 32 → (k.jobs.find? fun y => decide (y.pushQ = some q) && k.pushesLeft y) = some j → Enc7.opc j.word ≠ Enc7.opLOAD →
    Enc7.opc j.word ≠ Enc7.opOCALL → j.pushes = data :: rest → Enc7.emits j.word = none →
    ∃ u : State, exec (.queueBeatAccept d c q) s = .next (u.settle d c) ∧
      mget [] (u.core d c).queues q = mget [] k.queues q ++ [⟨padTo 64 0 data, rest.isEmpty && j.formed, none⟩] ∧
      mget 0 ((u.core d c).slot j.replay).pushed q = mget 0 (k.slot j.replay).pushed q + 1 ∧ u = { s with cores := u.cores }) ∧
  (∀ (s : State) (d c q : Nat) (k : Core), q < 32 → k = s.core d c → k.faulted = none → k.popper q = none →
    32 ≤ (mget [] k.queues q).length ∨ (∀ y ∈ k.jobs, y.pushQ ≠ some q) → exec (.queueBeatAccept d c q) s = .next (s.settle d c)) ∧
  (∀ (s : State) (d c : Nat) (x : Credit) (rest : List Credit), (s.core d c).credits = x :: rest → (s.core d c).faulted = none →
    mget 0 (s.core d c).counters x.cls < mget 0 (s.core d c).bounds x.cls →
    ∃ u : State, exec (.tokenCredit d c) s = .next (u.settle d c) ∧ (u.core d c).credits = rest ∧
      mget 0 (u.core d c).counters x.cls = mget 0 (s.core d c).counters x.cls + 1 ∧ u = { s with cores := u.cores }) ∧
  (∀ (s : State) (d c : Nat) (x : Credit) (rest : List Credit), (s.core d c).credits = x :: rest → (s.core d c).faulted = none →
    mget 0 (s.core d c).bounds x.cls ≤ mget 0 (s.core d c).counters x.cls →
    ∃ t, exec (.tokenCredit d c) s = .next t ∧ (t.core d c).faulted = some 0x4302 ∧ (t.core d c).counters = (s.core d c).counters)

/-- A stream fault (R165, R182 to R184): recorded in SFE_FAULT_INFO, both streams stop at once with their issued instructions abandoned, and the control core is interrupted; an uncorrectable
word of a core without a task is recorded alone; a stall latches what each stream waits on (R287, R288). -/
def Obligations.StreamFaultsStopBothStreams : Prop :=  (∀ (s : State) (d c kind : Nat) (x : Bool) (q cls index replay : Nat), d < 8 → c < 64 → s.power.mode = .ready → (s.core d c).faulted = none →
    kind < 8 → q < 32 → cls < 16 → replay < 2 ^ 32 →
    ∃ t, t = s.streamFault d c kind x q cls index replay ∧ (t.core d c).faulted = some (0x4300 + kind) ∧ (t.core d c).sa.running = false ∧ (t.core d c).sx.running = false ∧
      (t.core d c).jobs = [] ∧ (t.core d c).cc.abortDue = true ∧
      t.fld d c 0 SFE_FAULT_INFO.VALID = 1 ∧ t.fld d c 0 SFE_FAULT_INFO.KIND = kind ∧
      t.fld d c 0 SFE_FAULT_INFO.INDEX = index % 4096 ∧ (t.reg d .SFE_FAULT_REPLAY c 0).toNat = replay ∧
      ((∀ j ∈ (s.core d c).jobs, j.tail = []) → t.mem = s.mem) ∧ t = { s with mem := t.mem, cores := t.cores, regs := t.regs, fcu := t.fcu, flash := t.flash }) ∧
  (∀ (s : State) (d c q cls : Nat) (x : Bool) (k : Core), k = s.core d c → k.task.isSome = true → exec (.streamFault d c 7 x q cls) s = .next
    ((s.countFld d c 0 SPM_ECC_COUNT.UNCORRECTABLE 1).streamFault d c 7 x 0 0 (k.readerOf x).1 (k.readerOf x).2)) ∧
  (∀ (s : State) (d c q cls : Nat) (x : Bool) (k : Core), d < 8 → c < 64 → k = s.core d c → k.task = none →
    ∃ t, exec (.streamFault d c 7 x q cls) s = .next t ∧ t.cores = s.cores ∧ t.fld d c 0 SFE_FAULT_INFO.VALID = 1 ∧ t.fld d c 0 SFE_FAULT_INFO.KIND = 7 ∧
      t = { s with regs := t.regs, fcu := t.fcu, flash := t.flash }) ∧
  (∀ (s : State) (d c : Nat), d < 8 → c < 64 → (s.core d c).sfeState = 1 ∨ (s.core d c).sfeState = 2 → (s.core d c).faulted = none →
    ∃ t, exec (.syncStall d c) s = .next t ∧ (t.core d c).faulted = some 0x4703 ∧ (t.core d c).sa.running = false ∧ (t.core d c).sx.running = false ∧
      (t.core d c).cc.abortDue = true ∧ (t.reg d .SYNC_STALL_INFO c 0).toNat = (s.core d c).stallInfo d c % 2 ^ 32 ∧
      ((∀ j ∈ (s.core d c).jobs, j.tail = []) → t.mem = s.mem) ∧ t = { s with mem := t.mem, cores := t.cores, regs := t.regs, fcu := t.fcu, flash := t.flash })

/-! ### The matrix and vector engines, and the formats they read -/

/-- The instructions of the execute stream (R174, R175, R178, R205, R207, R208, R220, R231, R250): each issues in order once its token is there and its engine is free, with its values
from the replay's slot; the oldest mirage check ends in its count or its fault, and the engine goes on (R118, R226); a routine's return retires its OCALL (R250, R251). -/
def Obligations.ExecuteInstructionsIssue : Prop :=  (∀ p ∈ [(Instr.vadd, 0x01), (Instr.vsub, 0x02), (Instr.vmul, 0x03), (Instr.vfma, 0x04), (Instr.vmax, 0x05), (Instr.vmin, 0x06), (Instr.vaddi, 0x07), (Instr.vmuli, 0x08),
      (Instr.vexp, 0x09), (Instr.vrecip, 0x0A), (Instr.vrsqrt, 0x0B), (Instr.vact, 0x0C), (Instr.vcmp, 0x0D), (Instr.vsel, 0x0E), (Instr.vcopy, 0x0F), (Instr.vred, 0x10),
      (Instr.vsoftmax, 0x11), (Instr.vcvt, 0x12), (Instr.vperm, 0x13)],
    ∀ (s : State) (d c : Nat) (k : Core), k = s.core d c → k.issues true Enc7.opVOP = true → Enc7.vFn (k.next true) = p.2 → k.engineFree (Enc7.engineOf (k.next true)) = true →
      ∃ (u : State) (j : Job), exec (p.1 d c) s = .next (u.settle d c) ∧ (u.core d c).jobs = k.jobs ++ [j] ∧ j.x = true ∧ j.word = k.next true ∧ j.replay = k.sx.replay ∧
        j.arg = k.preg k.sx.replay (Enc7.vVl (k.next true) % 64) ∧ j.formed = false ∧ (u.core d c).sx.pc = k.sx.pc + 1 ∧
        (∀ t, Enc7.requires (k.next true) = some t → mget 0 (u.core d c).counters t = mget 0 k.counters t - 1) ∧ u = { s with cores := u.cores }) ∧
  (∀ (s : State) (d c : Nat) (k : Core), k = s.core d c → k.issues true Enc7.opMMA = true → k.engineFree (Enc7.engineOf (k.next true)) = true →
    ∃ (u : State) (j : Job), exec (.mma d c) s = .next (u.settle d c) ∧ (u.core d c).jobs = k.jobs ++ [j] ∧ j.x = true ∧ j.word = k.next true ∧ j.replay = k.sx.replay ∧
      (u.core d c).sx.pc = k.sx.pc + 1 ∧ u = { s with cores := u.cores }) ∧
  (∀ (s : State) (d c : Nat) (k : Core), k = s.core d c → k.issues true Enc7.opVGATHER = true → k.engineFree (Enc7.engineOf (k.next true)) = true →
    ∃ (u : State) (j : Job), exec (.vgather d c) s = .next (u.settle d c) ∧ (u.core d c).jobs = k.jobs ++ [j] ∧ j.x = true ∧ j.word = k.next true ∧
      j.base = plusOff (k.preg k.sx.replay (Enc7.gTpreg (k.next true))) (Enc7.gToff (k.next true)) ∧ j.arg = k.preg k.sx.replay (Enc7.gXpreg (k.next true)) ∧
      (u.core d c).sx.pc = k.sx.pc + 1 ∧ u = { s with cores := u.cores }) ∧
  (∀ (s : State) (d c : Nat) (k : Core), k = s.core d c → k.issues true Enc7.opOCALL = true → k.cc.call = none → k.patchDue = none →
    ∃ t, exec (.ocall d c) s = .next t ∧ (t.core d c).inOcall = true ∧ (t.core d c).sx.pc = k.sx.pc + 1 ∧ (t.core d c).cc.lastId = Enc7.oId (k.next true) ∧
      (t.core d c).cc.lastSource = 0 ∧ (t.core d c).cc.call = some ⟨0, Enc7.oId (k.next true), k.preg k.sx.replay (Enc7.oArgp (k.next true)), k.sx.replay, none, 0, false, 0, false, none, none⟩ ∧
      t = { s with cores := t.cores }) ∧
  (∀ (s : State) (d c : Nat) (k : Core) (x : Call) (j : Job), k = s.core d c → k.cc.call = some x → k.ocallJob = some j → x.source = 0 → k.faulted = none → k.cc.hold = none →
    x.status = some 0 → j.pushes = [] → queueOff j x = none →
    ∃ u : State, exec (.ocallReturn d c 0) s = .next (u.settle d c) ∧ (u.core d c).jobs = k.jobs.filter (fun i => i.id ≠ j.id) ∧ (k.cc.due = none → (u.core d c).cc.call = none) ∧
      (∀ t, Enc7.emits j.word = some t → (⟨t, j.replay, true, j.index⟩ : Credit) ∈ (u.core d c).credits) ∧ u = { s with cores := u.cores }) ∧
  (∀ (s : State) (d c : Nat) (x : Check) (rest : List Check), (s.core d c).checks = x :: rest → x.fails = false →
    exec (.mirageCheck d c) s = .next (((s.onCore d c fun k => { k with checks := rest }).settle d c).countFld d c 0 ME_MIRAGE_CHECKED.COUNT 1)) ∧
  (∀ (s : State) (d c : Nat) (x : Check) (rest : List Check), (s.core d c).checks = x :: rest → x.fails = false → (s.core d c).jobs = [] → (s.core d c).signals = [] →
    (s.core d c).sa.inBlock = false → ∃ t, exec (.mirageCheck d c) s = .next t ∧ (t.core d c).checks = rest ∧ t = { s with cores := t.cores, regs := t.regs } ∧
      t.fld d c 0 ME_MIRAGE_CHECKED.COUNT = min (2 ^ 32 - 1) (s.fld d c 0 ME_MIRAGE_CHECKED.COUNT + 1)) ∧
  (∀ (s : State) (d c : Nat) (x : Check) (rest : List Check), (s.core d c).checks = x :: rest → x.fails = true →
    exec (.mirageCheck d c) s = .next (((s.onCore d c fun k => { k with checks := rest }).settle d c).raiseAndReact d 0x8203 (.core c) (s.core d c).taskNo
      (x.index % 4096 + x.replay * 2 ^ 12)))

/-- What the vector engine computes on the INT32 lanes of its vector i (R206, R228): sums, differences and products wrap modulo 2^32, extremes are those of signed
integers, and lanes at or beyond VL are written as zero. Blocked formats (R99 to R103): element i of a block is the i-th field of its element bytes read as one
little-endian integer; a KT byte holds five trits, and a reserved one five NaNs; the scale bytes; the value of a K2 weight. -/
def Obligations.LanesAndFormatsCompute : Prop :=
  (∀ (w slot free : Nat) (a b c : List Byte) (i j vl x y r : Nat), Enc7.vType w = 3 → j < 64 → vl = (Enc7.vopVl w slot).1 →
    x = field a ((i * 64 + j) * 4) 4 → y = field b ((i * 64 + j) * 4) 4 → r = field (Enc7.vop w slot free i a b c).bytes (j * 4) 4 →
    (Enc7.vFn w < 0x10 → vl ≤ j → r = 0) ∧
    (j < vl → (Enc7.vFn w = 1 → r = (x + y) % 2 ^ 32) ∧ (Enc7.vFn w = 2 → r = (x + 2 ^ 32 - y) % 2 ^ 32) ∧ (Enc7.vFn w = 3 → r = x * y % 2 ^ 32) ∧
      (Enc7.vFn w = 5 → r = if toSigned 32 x < toSigned 32 y then y else x) ∧ (Enc7.vFn w = 6 → r = if toSigned 32 x < toSigned 32 y then x else y) ∧
      (Enc7.vFn w = 7 → r = (x + Enc7.vImm w) % 2 ^ 32) ∧ (Enc7.vFn w = 8 → r = x * Enc7.vImm w % 2 ^ 32) ∧ (Enc7.vFn w = 0x0F → r = x))) ∧
  ((∀ (c : Enc) (bs : List Byte) (n i : Nat), c ≠ .kt → i < n → (c.codes bs n)[i]? = some (leNat (bs.take (c.bytes n)) / 2 ^ (c.width * i) % 2 ^ c.width)) ∧
  (∀ t0 t1 t2 t3 t4 : Nat, t0 < 3 → t1 < 3 → t2 < 3 → t3 < 3 → t4 < 3 → ktTrits (t0 + 3 * t1 + 9 * t2 + 27 * t3 + 81 * t4) = [t0, t1, t2, t3, t4]) ∧
  (∀ b, 0xF3 ≤ b → b < 256 → ∀ t ∈ ktTrits b, Enc.kt.value t = .nan) ∧
  (∀ e, e < 0xFF → Enc.fp4.scale e = .fin false 1 ((e : Int) - 127)) ∧ Enc.fp4.scale 0xFF = .nan ∧ Enc.k2.scale 0x7F = .nan ∧ Enc.k2.scale 0xFF = .nan ∧
  (∀ (bs scales : List Byte) (b0 n i : Nat), i < n → (scales[i / 32]?.getD 0 = 0x7F ∨ scales[i / 32]?.getD 0 = 0xFF) →
    ((Enc.k2.elems bs scales b0 n)[i]?.map Elem.num) = some .nan) ∧
  (Enc.k2.value 0, Enc.k2.value 1, Enc.k2.value 2, Enc.k2.value 3) = (.fin true 3 (-1), .fin true 1 (-1), .fin false 1 (-1), .fin false 3 (-1)))

/-! ### The control core -/

/-- The Xkeavo instructions of the control core (R168, R236, R239 to R241, R278 to R280, R283): rs1 holds the value `v` that the command carries, x0 reads 0 and discards what is
written to it. A pop takes the head beat and writes its sideband to rd, and a push adds a beat; they wait for a beat that is pending and for room; parameters and strides are written
and read, a slot while patches are applied; the summary FIFO is popped; waits, signals and barriers act on their word; an operand that is illegal faults the routine. -/
def Obligations.XkeavoInstructionsRun : Prop :=  (∀ (s : State) (d c rd rs1 imm v a : Nat) (k : Core) (x : Call) (b : Beat) (rest : List Beat), k = s.core d c → k.routine = some x → a = (k.cc.setX rs1 v).x rs1 →
    a % 64 = 0 → a + 64 ≤ 0x10000 → imm < 32 → rd < 32 → k.cc.xregs.length = 32 → mget [] k.queues imm = b :: rest → b.data.length = 64 → mwf blankByte k.cc.dmem = true →
    ∃ u : State, exec (.kpop d c ⟨rs1, v⟩ ⟨rd, imm⟩) s = .next (u.settle d c) ∧ mget [] (u.core d c).queues imm = rest ∧ (u.core d c).cc.bytes a 64 = b.data ∧
      (u.core d c).cc.hold = none ∧ (rd ≠ 0 → (u.core d c).cc.x rd = ((if b.last then 32 else 0) + (match b.tok with | some t => 16 + t | none => 0)) % 2 ^ 32) ∧
      u = { s with cores := u.cores }) ∧
  (∀ (s : State) (d c rd rs1 imm v a : Nat) (k : Core) (x : Call), k = s.core d c → k.routine = some x → a = (k.cc.setX rs1 v).x rs1 →
    a % 64 = 0 → a + 64 ≤ 0x10000 → imm < 32 → mget [] k.queues imm = [] →
    (k.pending imm x.replay = true → ∃ t, exec (.kpop d c ⟨rs1, v⟩ ⟨rd, imm⟩) s = .next t ∧ (t.core d c).cc.hold = some (.pop imm) ∧ (t.core d c).queues = k.queues ∧
      t = { s with cores := t.cores }) ∧
    (k.pending imm x.replay = false → ∃ t, exec (.kpop d c ⟨rs1, v⟩ ⟨rd, imm⟩) s = .next t ∧ (t.core d c).faulted = some 0x4301 ∧ (t.core d c).sa.running = false ∧
      (t.core d c).sx.running = false)) ∧
  (∀ (s : State) (d c rs1 v a q side : Nat) (k : Core) (x : Call), k = s.core d c → k.routine = some x → a = (k.cc.setX rs1 v).x rs1 → a % 64 = 0 → a + 64 ≤ 0x10000 →
    q < 32 → side < 64 → bit side 1 = false → (mget [] k.queues q).length < 32 →
    ∃ u : State, exec (.kpush d c 0 rs1 v q side) s = .next (u.settle d c) ∧ mget [] (u.core d c).queues q = mget [] k.queues q ++ [⟨k.cc.bytes a 64, bit side 0, none⟩] ∧
      (u.core d c).cc.hold = none ∧ (x.source = 0 → k.ocallQueues.2.2 = (true, q) →
        (u.core d c).cc.call = some { x with pushed := x.pushed + 1, pushedLast := bit side 0 }) ∧ u = { s with cores := u.cores }) ∧
  (∀ (s : State) (d c rs1 v a q side : Nat) (k : Core) (x : Call), k = s.core d c → k.routine = some x → a = (k.cc.setX rs1 v).x rs1 → a % 64 = 0 → a + 64 ≤ 0x10000 →
    q < 32 → side < 64 → 32 ≤ (mget [] k.queues q).length →
    ∃ t, exec (.kpush d c 0 rs1 v q side) s = .next t ∧ (t.core d c).cc.hold = some (.push q) ∧ (t.core d c).queues = k.queues ∧ t = { s with cores := t.cores }) ∧
  (∀ (s : State) (d c rd rs1 v q side : Nat) (k : Core) (x : Call), k = s.core d c → k.routine = some x →
    rd ≠ 0 ∨ 64 ≤ side ∨ (k.cc.setX rs1 v).x rs1 % 64 ≠ 0 ∨ 0x10000 < (k.cc.setX rs1 v).x rs1 + 64 →
    ∃ t, exec (.kpush d c rd rs1 v q side) s = .next t ∧ (t.core d c).faulted = some 0x4601 ∧ (t.core d c).cc.mode = 4 ∧ (t.core d c).cc.abortDue = true) ∧
  (∀ (s : State) (d c rs1 v n a w : Nat) (k : Core), k = s.core d c → a = (k.cc.setX rs1 v).x rs1 → n < 64 → a + 8 ≤ 0x10000 → w = leNat (k.cc.bytes a 8) →
    (∃ t, exec (.kpwr d c rs1 v n 1) s = .next t ∧ t.core d c = { k with cc := k.cc.setX rs1 v, strides := k.strides.set n w } ∧ t = { s with cores := t.cores }) ∧
    (k.sa.inBlock = false → k.sx.inBlock = false → ∃ t, exec (.kpwr d c rs1 v n 0) s = .next t ∧
      t.core d c = { k with cc := k.cc.setX rs1 v, params := k.params.set n w } ∧ t = { s with cores := t.cores }) ∧
    (k.sa.inBlock = true ∨ k.sx.inBlock = true → ∃ t, exec (.kpwr d c rs1 v n 0) s = .next t ∧
      t.core d c = { k with cc := k.cc.setX rs1 v, params := k.params.set n w, written := insertNat n k.written } ∧ t = { s with cores := t.cores }) ∧
    (∀ r, k.patchDue = some r → ∃ t, exec (.kpwr d c rs1 v n 2) s = .next t ∧ ((t.core d c).slot r).params = (k.slot r).params.set n w ∧
      (t.core d c).params = k.params ∧ (t.core d c).strides = k.strides ∧ t = { s with cores := t.cores })) ∧
  (∀ (s : State) (d c rs1 imm v a w : Nat) (k : Core), k = s.core d c → a = (k.cc.setX rs1 v).x rs1 → a + 8 ≤ 0x10000 → imm < 128 →
    (if 64 ≤ imm then k.strides[imm - 64]? else k.params[imm]?) = some w → w < 2 ^ 64 → mwf blankByte k.cc.dmem = true →
    ∃ t, exec (.kprd d c rs1 imm v) s = .next t ∧ leNat ((t.core d c).cc.bytes a 8) = w ∧ (t.core d c).params = k.params ∧ (t.core d c).strides = k.strides ∧
      t = { s with cores := t.cores }) ∧
  (∀ (s : State) (d c rd v : Nat) (rest : List Nat), (s.core d c).cc.fifo = v :: rest → rd < 32 → (s.core d c).cc.xregs.length = 32 →
    ∃ u : State, exec (.ksumpop ⟨d, c⟩ ⟨rd, 0⟩) s = .next (u.settle d c) ∧ (u.core d c).cc.fifo = rest ∧ (rd ≠ 0 → (u.core d c).cc.x rd = 1) ∧ u = { s with cores := u.cores }) ∧
  (∀ (s : State) (d c rd : Nat), (s.core d c).cc.fifo = [] → rd < 32 → ∃ u : State, exec (.ksumpop ⟨d, c⟩ ⟨rd, 0⟩) s = .next (u.settle d c) ∧ (u.core d c).cc.fifo = [] ∧
    (u.core d c).cc.x rd = 0 ∧ u = { s with cores := u.cores }) ∧
  (∀ (s : State) (d c rs1 imm v off : Nat) (k : Core) (x : Call), k = s.core d c → k.routine = some x → off = (k.cc.setX rs1 v).x rs1 → off % 64 = 0 → off < spmSize → imm < 2 →
    ∃ t, exec (.kwait d c ⟨rs1, v⟩ imm) s = .next t ∧ t = { s with cores := t.cores } ∧
      (k.isFull off = true → (t.core d c).cc.hold = none ∧ (t.core d c).isFull off = !bit imm 0) ∧
      (k.isFull off = false → (t.core d c).cc.hold = some (.word off (bit imm 0)) ∧ (t.core d c).full = k.full)) ∧
  (∀ (s : State) (d c rs1 v off : Nat) (k : Core) (x : Call), k = s.core d c → k.routine = some x → off = (k.cc.setX rs1 v).x rs1 → off % 64 = 0 → off < spmSize →
    k.isFull off = false → k.hold = none →
    ∃ t, exec (.ksignal d c ⟨⟨rs1, v⟩, 0⟩) s = .next t ∧ (t.core d c).isFull off = true ∧ t = { s with cores := t.cores }) ∧
  (∀ (s : State) (d c rs1 mask v off : Nat) (k : Core) (x : Call) (b : Barrier), k = s.core d c → k.routine = some x → off = (k.cc.setX rs1 v).x rs1 → off % 64 = 0 →
    off < spmSize → mask < 16 → s.corePresent d c = true → s.mem.wf = true → b = s.barrier d c off → b.legal false = true → k.isFull off = false → mask.testBit 3 = true →
    b.arrived.testBit 3 = false → b.arrived = 0 ∨ b.mask = mask →
    ∃ t, exec (.kbarrier d c ⟨rs1, v⟩ mask) s = .next t ∧ (t.core d c).cc.hold = some (.barrier off) ∧
      t.barrier d c off = (if b.arrived + 8 = mask then ⟨b.round, mask, 0, mask, 0⟩ else ⟨b.round, mask, b.arrived + 8, 0, 0⟩)) ∧
  (∀ (s : State) (d c rs1 mask v off : Nat) (k : Core) (x : Call), k = s.core d c → k.routine = some x → off = (k.cc.setX rs1 v).x rs1 → off % 64 = 0 →
    off < spmSize → mask < 16 → (s.barrier d c off).legal true = true → k.isFull off = true →
    ∃ t, exec (.kbarrier d c ⟨rs1, v⟩ mask) s = .next t ∧ (t.core d c).cc.hold = some (.arrive off mask) ∧ t.mem = s.mem ∧ t = { s with cores := t.cores })

/-- The control list (R242 to R244): the entry at the dispatcher's place runs when the list runs and no routine is called. -/
def Obligations.ControlListsRun : Prop :=  (∀ (s : State) (d c : Nat) (k : Core) (e : List Byte), k = s.core d c → e = k.cc.entryBytes → k.cc.mode = 1 → k.cc.call = none → k.faulted = none →
    (enOp e = 1 → ∃ t, exec (.run d c) s = .next t ∧ (t.core d c).sa = { freshStream with running := true, pc := (mget (0, 0) k.pairs (enA e)).1 } ∧
      (t.core d c).sx = { freshStream with running := true, pc := (mget (0, 0) k.pairs (enA e)).2 } ∧ (t.core d c).cc = { k.cc with fifo := [], mode := 3 } ∧ t = { s with cores := t.cores }) ∧
    (enOp e = 2 → ∀ v rest, k.cc.fifo = v :: rest → exec (.branch d c) s = .next ((s.onCc d c fun m =>
      { m with fifo := rest, entry := if branchTaken (enA e) (enC e) v then enB e else m.entry + 1 }).settle d c)) ∧
    (enOp e = 2 → k.cc.fifo = [] → exec (.branch d c) s = .next (s.ccFault d c 3 0 k.cc.entry 0)) ∧
    (enOp e = 3 → exec (.jump d c) s = .next (s.onCc d c fun m => { m with entry := enB e })) ∧
    (enOp e = 4 → ∃ t, exec (.loop d c) s = .next t ∧ t = { s with cores := t.cores } ∧
      (∀ v, (mfind k.cc.counters (enA e)).getD (enC e - 1) = v + 1 → (t.core d c).cc = { k.cc with counters := mput k.cc.counters (enA e) v, entry := enB e }) ∧
      ((mfind k.cc.counters (enA e)).getD (enC e - 1) = 0 → (t.core d c).cc = { k.cc with counters := mdel k.cc.counters (enA e), entry := k.cc.entry + 1 })) ∧
    (enOp e = 5 → exec (.call d c) s = .next (s.onCc d c fun m =>
      { m with call := some ⟨1, enB e, enD e, 0, none, 0, false, 0, false, none, none⟩, lastSource := 1, lastId := enB e })) ∧
    (enOp e = 6 → k.sa.inBlock = false → k.sx.inBlock = false → exec (.setp d c) s = .next (s.onCore d c fun k =>
      { k with params := k.params.set (enA e) (enD e), cc := { k.cc with entry := k.cc.entry + 1 } })) ∧
    (enOp e = 7 → k.checks = [] → k.de0 = [] → k.de1 = [] → ∃ t, exec (.done d c) s = .next t ∧ (t.core d c).cc = { k.cc with mode := 0, counters := [] } ∧
      t = { s with cores := t.cores, ldr := { s.ldr with tasks := t.ldr.tasks } } ∧ (∀ x ∈ s.ldr.tasks, k.task = some x.id → ∃ y ∈ t.ldr.tasks, y.id = x.id ∧ d * 64 + c ∈ y.done))) ∧
  (∀ (a c v : Nat), branchTaken 2 c v = decide (v % 2 ^ 32 = c) ∧ branchTaken 4 c v = decide (v % 2 ^ 32 < c) ∧ branchTaken 5 c v = !branchTaken 4 c v ∧
    branchTaken 1 c v = !branchTaken 0 c v ∧ branchTaken 3 c v = !branchTaken 2 c v ∧ (8 ≤ a → branchTaken a c v = false))

/-- The general routines and the interrupts of the control core (R245, R247, R248, R250, R252): NOP and SEED end with status 0; ARGMAX and SAMPLE fail on a NaN and push no index where every
logit is masked; a normalisation pushes as many beats as it popped and a row with a NaN is NaN throughout; POST_NOTICE ends with its post's outcome; an OCALL keeps its status until its return, a
CALL lets the list go on; a failed transfer's status is taken when no routine runs; the abort interrupt empties what the core holds. -/
def Obligations.RoutinesEndWithTheirStatus : Prop :=  (∀ (s : State) (d c : Nat) (x : Call), (s.core d c).routine = some x → x.id = 0x001 → x.source ≠ 0 → exec (.nop d c) s = .next (s.routineEnds d c 0)) ∧
  (∀ (s : State) (d c : Nat) (x : Call), (s.core d c).routine = some x → x.id = 0x001 → x.source = 0 → exec (.nop d c) s = .next (s.routinePushes d c [])) ∧
  (∀ (s : State) (d c : Nat) (x : Call), (s.core d c).routine = some x → x.id = 0x030 →
    exec (.seed d c) s = .next ((s.onCc d c fun m => { m with seed := x.arg }).routineEnds d c 0)) ∧
  (∀ p ∈ [(Instr.sample, 0x010), (Instr.argmax, 0x011)], ∀ (s : State) (d c : Nat) (x : Call) (ws : List Nat), (s.core d c).routine = some x → x.id = p.2 →
    (s.core d c).ocallInput = some ws →
    ((∃ w ∈ ws, f32IsNan w = true) → exec (p.1 d c) s = .next (s.routineEnds d c 1)) ∧
    ((∀ w ∈ ws, w = negInf32) → exec (p.1 d c) s = .next (s.routinePushes d c (laneZero 0xFFFFFFFF)))) ∧
  (∀ (s : State) (d c : Nat) (x : Call) (ws : List Nat), (s.core d c).routine = some x → x.id = 0x011 → (s.core d c).ocallInput = some ws → (∀ w ∈ ws, f32IsNan w = false) →
    (∃ w ∈ ws, w ≠ negInf32) → ∃ i, exec (.argmax d c) s = .next (s.routinePushes d c (laneZero i)) ∧ i < ws.length ∧
      (∀ (j v w : Nat), ws[i]? = some v → ws[j]? = some w → (f32 v).lt (f32 w) = false) ∧ ∀ (j v w : Nat), j < i → ws[i]? = some v → ws[j]? = some w → (f32 w).lt (f32 v) = true) ∧
  (∀ (s : State) (d c : Nat) (x : Call) (ws : List Nat), (s.core d c).routine = some x → x.id = 0x010 → (s.core d c).ocallInput = some ws → (∀ w ∈ ws, f32IsNan w = false) →
    (∃ w ∈ ws, w ≠ negInf32) → ∃ (i w : Nat), exec (.sample d c) s = .next (({ s with free := s.free + 1 } : State).routinePushes d c (laneZero i)) ∧ ws[i]? = some w ∧ w ≠ negInf32) ∧
  (∀ p ∈ [(Instr.rmsnormFb, 0x020), (Instr.layernormFb, 0x021)], ∀ (s : State) (d c n : Nat) (x : Call) (ws : List Nat), (s.core d c).routine = some x → x.id = p.2 →
    (s.core d c).ocallInput = some ws → ws.length = 16 * n → ∃ out, exec (p.1 d c) s = .next (s.routinePushes d c out) ∧ out.length = n ∧ (∀ b ∈ out, b.length = 64)) ∧
  (∀ (layer : Bool) (eps : Nat) (row : List Nat), (normRowOf layer eps row).length = row.length ∧
    ((∃ w ∈ row, (f32 w).isNan = true) → normRowOf layer eps row = List.replicate row.length nan32)) ∧
  (∀ (s : State) (d c st : Nat) (x : Call), (s.core d c).cc.call = some x →
    (x.source = 0 → s.routineEnds d c st = s.onCc d c fun m => { m with call := some { x with status := some st } }) ∧
    (x.source = 1 → st = 0 → (s.core d c).patchDue.isSome = true →
      s.routineEnds d c st = s.onCc d c fun m => { m with call := none, entry := m.entry + 1 })) ∧
  (∀ (s : State) (d c : Nat) (x : Call), (s.core d c).routine = some x → x.id = 0x040 →
    0xC000 < x.arg + 32 ∨ postOk ((s.core d c).cc.bytes x.arg 32) = false →
    exec (.postNotice d c) s = .next (s.routineEnds d c 1)) ∧
  (∀ (s : State) (d c dd kk slot : Nat) (x : Call) (b : List Byte) (u : State), (s.core d c).routine = some x → x.id = 0x040 → b = (s.core d c).cc.bytes x.arg 32 → postOk b = true →
    x.arg + 32 ≤ 0xC000 → s.writePending (.cc d c) = false → field b 0x0C 1 = 1 → dd = field b 0x0E 1 / 4 → kk = field b 0x0E 1 % 4 → slot = field b 0x0D 1 →
    s.post (senderCc d c) dd kk slot (field b 0 8) (field b 8 4) = (u, .ok) →
    ((s.core d c).cc.postTries = 0 → exec (.postNotice d c) s = .next (u.postEnds d c x.arg 0)) ∧
    ∀ last, (s.core d c).cc.postTries ≠ 0 → exec (.postNoticeRetry d c last) s = .next (u.postEnds d c x.arg 0)) ∧
  (∀ (s : State) (d c st : Nat) (de1 : Bool) (k : Core), k = s.core d c → st ≠ 0 → k.patchDue = none → k.cc.due = none → k.cc.dmaDue = none →
    ∃ t, exec (.ccDmaErrorInterrupt d c ⟨de1, st⟩) s = .next t ∧ t = { s with cores := t.cores } ∧
      (k.cc.call = none → (t.core d c).cc = { k.cc with dmaStatus := some st, mcause := 2 ^ 31 + 18 }) ∧
      (k.cc.call.isSome = true → (t.core d c).cc = { k.cc with dmaDue := some st })) ∧
  (∀ (s : State) (d c : Nat), (s.core d c).cc.abortDue = true → ∃ t, exec (.ccAbortInterrupt d c) s = .next t ∧ (t.core d c).queues = [] ∧ (t.core d c).counters = [] ∧
    (t.core d c).cc.call = none ∧ (t.core d c).cc.abortDue = false ∧
    (∀ f, (s.core d c).faulted = some f → f / 256 = 0x43 → (t.core d c).cc.mcause = 2 ^ 31 + 16) ∧ t.regs = s.regs ∧ t.sent = s.sent)

/-! ### DMA engines and mailboxes -/

/-- Transfers (R50, R60, R131, R197, R213, R262, R266 to R270, R272, R273): an engine with a free place accepts a descriptor with the tensor descriptors as they stand;
COPY, PERMUTE and GATHER within the module make their moves in order, the source read whole first where both layouts are the same; a FILL writes its pattern; a BSEQ
forwards its next bank sequence, and has run after the last or after one that did not end OK; nothing runs past a fence or a barrier's marker. The completion of a
transfer (R272, R273): once no fence stands before it, it leaves its engine, its token is due, its record is written and then its word is signalled, a full word being
the overflow fault (R280); the first status other than OK is kept in DE_ERROR. -/
def Obligations.TransfersMoveTheirBytesInOrder : Prop :=
  ((∀ (s : State) (d c : Nat) (k : Core) (w a : Nat), k = s.core d c → k.issues false Enc7.opXFER = true → w = k.next false → k.engineItems (Enc7.xferEngine w) < 16 →
    (Enc7.xferEngine w = true → s.de1Present d c = true) → a = plusOff (k.preg k.sa.replay (Enc7.xferPreg w)) (Enc7.xferOffset w) → a % 64 = 0 → inSpm d c a 64 = true →
    k.windowed a 64 = true →
    ∃ t x, exec (.xfer d c) s = .next t ∧ (t.core d c).engine (Enc7.xferEngine w) = k.engine (Enc7.xferEngine w) ++ [x] ∧ x.desc = s.readBytes a 64 ∧
      x.src = mget [] k.desc (field x.desc 2 1) ∧ x.dst = mget [] k.desc (field x.desc 3 1) ∧ x.idx = mget [] k.desc (field x.desc 4 1) ∧ x.fence = Enc7.xferFence w ∧
      x.tok = Enc7.emits w ∧ x.ran = (x.check d c).isSome ∧ x.status = (if (x.check d c).isSome then 3 else 0) ∧ x.reason = (x.check d c).getD 0 ∧
      (t.core d c).sa.pc = k.sa.pc + 1 ∧ t = { s with cores := t.cores }) ∧
  (∀ p ∈ [(Instr.dmaCopy, 1), (Instr.permute, 2), (Instr.gather, 3)], ∀ (s : State) (d c n out : Nat) (de1 : Bool) (x : Xfer) (ms : List Move) (ix : List (Nat × Nat)),
    (s.core d c).runnable de1 n p.2 = some x → x.next ≠ 1 → tSpace x.src = 0 → tSpace x.dst = 0 → s.reqsOf (dmaOwns d c de1 x.id) = [] → ms = s.moves x →
    ix = (if p.2 = 3 then [(tBase x.idx, 4 * x.gathered)] else []) → out = (if p.2 = 3 then s.gatherOut x else 0) → (p.2 = 3 → s.gatherStop x = none) →
    s.stoppedPieces (s.fetches x ++ ms.map (·.dst) ++ ix) = false → s.walkReady d c ix false = true → s.walkReady d c (s.fetches x) false = true →
    s.walkReady d c (ms.map (·.dst)) true = true → (∀ m ∈ ms, ∀ q, m.src = some q → s.anyPoison q.1 q.2 = false) →
    ∃ t, exec (p.1 d c de1 n) s = .next t ∧
      t.mem.cells = (ms.foldl (fun (u : State) m => u.writeBytes m.dst.1 (match m.src with
        | some q => (if x.sameLayout then s else u).readBytes q.1 q.2
        | none => List.replicate m.dst.2 0)) s).mem.cells ∧
      ((t.core d c).engine de1)[n]? = some { x with
        ran := true, status := 0, reason := 0, flags := (if out = 0 then 0 else 1) + (if s.reconRead (s.fetches x ++ ix) then 16 else 0), count := out, next := 1
        bytes := piecesLen (ms.map (·.dst)) }) ∧
  (∀ (s : State) (d c n : Nat) (de1 : Bool) (x : Xfer) (ps : List (Nat × Nat)) (first : Nat), (s.core d c).runnable de1 n 4 = some x → x.next ≠ 1 → tSpace x.dst = 0 →
    ps = x.dstSlice.flatten → first = (ps.headD (0, 0)).1 → s.stoppedPieces ps = false → s.walkReady d c ps true = true →
    ∃ t, exec (.dmaFill d c de1 n) s = .next t ∧
      t.mem.cells = (s.putPieces ps (ps.flatMap fun q => (List.range q.2).map fun i =>
        ((((x.desc.drop 0x28).take 8)[(((q.1 + i : Nat) : Int) - first).emod 8 |>.toNat]?).getD 0))).mem.cells ∧
      ((t.core d c).engine de1)[n]? = some { x with ran := true, bytes := piecesLen ps }) ∧
  (∀ (s : State) (d c n : Nat) (de1 : Bool) (x : Xfer) (q : Desc), (s.core d c).runnable de1 n 5 = some x → x.seq = none → x.status = 0 → x.next < x.nouter →
    q = ⟨s.readBytes x.nextAt 64⟩ → inSpm d c x.nextAt (64 + inlineLen q) = true → s.seqWindows d c (.engine d c (4 + flag de1)) x.id q = true →
    ∃ t y, exec (.bseq d c de1 n) s = .next t ∧ t.seqs.length = s.seqs.length + 1 ∧ t.seqNext = s.seqNext + 1 ∧ ((t.core d c).engine de1)[n]? = some y ∧ y.seq = some s.seqNext ∧
      y.next = x.next + 1 ∧ y.nextAt = x.nextAt + 64 + inlineLen q ∧ t.mem.cells = s.mem.cells) ∧
  (∀ (s : State) (d c n : Nat) (de1 : Bool) (x : Xfer), (s.core d c).runnable de1 n 5 = some x → x.seq = none → x.nouter ≤ x.next ∨ x.status ≠ 0 →
    ∃ t, exec (.bseq d c de1 n) s = .next t ∧ ((t.core d c).engine de1)[n]? = some { x with ran := true } ∧ t = { s with cores := t.cores, baus := t.baus, banks := t.banks }) ∧
  (∀ p ∈ [(Instr.dmaCopy, 1), (Instr.permute, 2), (Instr.gather, 3), (Instr.dmaFill, 4), (Instr.bseq, 5)], ∀ (s : State) (d c n : Nat) (de1 : Bool),
    (s.core d c).unfenced de1 n = false → exec (p.1 d c de1 n) s = .next s)) ∧
  ((∀ (s : State) (d c n : Nat) (de1 : Bool) (x : Xfer), ((s.core d c).engine de1)[n]? = some x → x.ran = true → x.walk = none → x.marker = none → x.seq = none →
    (s.core d c).unfenced de1 n = true → (s.core d c).faulted = none → x.records = false → x.signals = false →
    ∃ u : State, exec (.transferComplete d c de1 n) s = .next (u.settle d c) ∧ (u.core d c).engine de1 = ((s.core d c).engine de1).filter (fun y => y.id ≠ x.id) ∧
      (u.core d c).credits = (s.core d c).credits ++ (match x.tok with | some k => [⟨k, x.replay, false, x.index⟩] | none => []) ∧ u = { s with cores := u.cores, regs := u.regs }) ∧
  (∀ (s : State) (d c n : Nat) (de1 : Bool) (x : Xfer), ((s.core d c).engine de1)[n]? = some x → x.ran = true → x.walk = none → x.marker = none → x.seq = none →
    (s.core d c).unfenced de1 n = true → (s.core d c).faulted = none → x.records = true → x.signals = false → x.cmplOk d c = true →
    ∃ u : State, exec (.transferComplete d c de1 n) s = .next (u.settle d c) ∧ u.mem.cells = (s.writeBytes x.cmpl (leBytes 2 x.tag ++ leBytes 1 x.status ++ leBytes 1 x.flags ++
      leBytes 2 x.reason ++ leBytes 2 0 ++ leBytes 4 (min 0xFFFFFFFF x.bytes) ++ leBytes 4 x.count ++ List.replicate 48 0)).mem.cells) ∧
  (∀ (s : State) (d c n : Nat) (de1 : Bool) (x : Xfer), ((s.core d c).engine de1)[n]? = some x → x.ran = true → x.walk = none → x.marker = none → x.seq = none →
    (s.core d c).unfenced de1 n = true → (s.core d c).faulted = none → x.signals = true → x.cmplOk d c = true → (s.core d c).isFull (x.cmpl - spmBase d c) = false →
    ∃ u : State, exec (.transferComplete d c de1 n) s = .next (u.settle d c) ∧ u.mem.cells = (if x.records then s.writeBytes x.cmpl x.record else s).mem.cells ∧
      ((s.core d c).hold = none → (s.core d c).cc.hold = none → (u.core d c).isFull (x.cmpl - spmBase d c) = true)) ∧
  (∀ (s : State) (d c n : Nat) (de1 : Bool) (x : Xfer), ((s.core d c).engine de1)[n]? = some x → x.ran = true → x.walk = none → x.marker = none → x.seq = none →
    (s.core d c).unfenced de1 n = true → (s.core d c).faulted = none → x.signals = true → x.cmplOk d c = true → (s.core d c).isFull (x.cmpl - spmBase d c) = true →
    ∃ t, exec (.transferComplete d c de1 n) s = .next t ∧ (t.core d c).faulted = some 0x4701 ∧ (t.core d c).sa.running = false ∧ (t.core d c).sx.running = false) ∧
  (∀ (s : State) (d c n : Nat) (de1 : Bool) (x : Xfer), d < 8 → c < 64 → ((s.core d c).engine de1)[n]? = some x → x.ran = true → x.walk = none → x.marker = none → x.seq = none →
    (s.core d c).unfenced de1 n = true → (s.core d c).faulted = none → x.records = false → x.signals = false → 0 < x.status → x.status < 8 → x.reason < 2 ^ 16 →
    s.fld d c (flag de1) DE_ERROR.VALID = 0 →
    ∃ u : State, exec (.transferComplete d c de1 n) s = .next (u.settle d c) ∧ u.fld d c (flag de1) DE_ERROR.VALID = 1 ∧ u.fld d c (flag de1) DE_ERROR.STATUS = x.status ∧
      u.fld d c (flag de1) DE_ERROR.REASON = x.reason) ∧
  (∀ (s : State) (d c n : Nat) (de1 : Bool), (s.core d c).unfenced de1 n = false → exec (.transferComplete d c de1 n) s = .next s))

/-- Mailboxes (R51, R290 to R295, R301): a post that the slot's binding admits fills an empty slot with the notice of its sender; a refused one is counted and changes
no slot; a post waits for the sender's earlier writes; a control core's refused post fails, and a hardware sender keeps the notice until its slot is empty; stream and
DMA engines do not post; a host posts by compare-and-swap, reads a slot bound to its port, and frees it by writing zeros; the low half of the die time is read with the
high half latched. Notices taken (R245, R294, R314, R323): the attention sequencer accepts a step with its header and rows as read, the next identity and the failure of
precedence 1 that it has; a control core's KV service is called with the record. A record that its poster may not reach consumes the notice and counts an address error. -/
def Obligations.NoticesFillSlotsAndStartWork : Prop :=
  ((∀ (s : State) (d k n from_ pointer tag : Nat), s.power.mode = .ready → slotExists d k n = true → s.mayPost (s.binding d k n) from_ = true → s.noticeAt d k n = none →
    (s.post from_ d k n pointer tag).2 = .ok ∧ (s.post from_ d k n pointer tag).1.notices = s.notices ++ [⟨d, k, n, leBytes 8 pointer ++ leBytes 4 tag ++ leBytes 4 from_⟩]) ∧
  (∀ (s : State) (d k n from_ pointer tag : Nat), s.power.mode = .ready → slotExists d k n = true → s.mayPost (s.binding d k n) from_ = true → s.noticeAt d k n ≠ none →
    (s.post from_ d k n pointer tag).2 = .full ∧ (s.post from_ d k n pointer tag).1 = { s with regs := (s.post from_ d k n pointer tag).1.regs }) ∧
  (∀ (s : State) (d k n from_ pointer tag : Nat), s.power.mode = .ready → slotExists d k n = false ∨ s.mayPost (s.binding d k n) from_ = false →
    (s.post from_ d k n pointer tag).2 = .denied ∧ (s.post from_ d k n pointer tag).1 = { s with regs := (s.post from_ d k n pointer tag).1.regs }) ∧
  (∀ (s u : State) (d c d' k n pointer tag : Nat) (r : PostResult), d < 8 → c < 64 → s.power.mode = .ready → s.writePending (.cc d c) = false →
    s.post (senderCc d c) d' k n pointer tag = (u, r) →
    exec (.noticePost (.cc d c) d' k n pointer tag) s = .next (if r = .ok then u else { u with sent := u.sent ++ [.reply (.cc d c) .busError] })) ∧
  (∀ (s u : State) (d q d' k n pointer tag : Nat) (r : PostResult), d < 8 → q < 4 → s.power.mode = .ready → s.writePending (.aseq d q) = false →
    s.post (senderAseq d q) d' k n pointer tag = (u, r) →
    exec (.noticePost (.aseq d q) d' k n pointer tag) s = .next (if r = .ok then u else { u with kept := u.kept ++ [⟨senderAseq d q, .local_ d' k n, pointer, tag⟩] })) ∧
  (∀ (s : State) (d c d' k n pointer tag : Nat), d < 8 → c < 64 → s.power.mode = .ready → s.writePending (.cc d c) = true →
    exec (.noticePost (.cc d c) d' k n pointer tag) s = .next { s with kept := s.kept ++ [⟨senderCc d c, .local_ d' k n, pointer, tag⟩] }) ∧
  (∀ (s : State) (d c e d' k n pointer tag : Nat), exec (.noticePost (.engine d c e) d' k n pointer tag) s = .next s) ∧
  (∀ (s u : State) (i d k n from_ pointer tag : Nat), s.kept[i]? = some ⟨from_, .local_ d k n, pointer, tag⟩ → (∀ y ∈ s.kept.take i, y.sender ≠ from_) →
    s.writePending (senderWriter from_) = false → s.noticeAt d k n = none →
    s.post from_ d k n pointer tag = (u, .ok) → exec (.noticeRepost i) s = .next { u with kept := s.kept.eraseIdx i }) ∧
  (∀ (s : State) (i d k n from_ pointer tag : Nat), s.kept[i]? = some ⟨from_, .local_ d k n, pointer, tag⟩ → senderKind from_ ≠ 1 → s.noticeAt d k n ≠ none →
    exec (.noticeRepost i) s = .next s) ∧
  (∀ (s : State) (port off swap rid d k n : Nat), port < 8 → s.power.mode = .ready → off % 16 = 0 → off < 0x20100 → (d, k, n) = regionSlot off →
    ∃ t, exec (.hostCasPost port off 32 0 swap rid) s = .next t ∧
      (slotExists d k n = true → s.mayPost (s.binding d k n) (senderHost port rid) = true → s.noticeAt d k n = none →
        t.sent.getLast? = some (.reply (.host port rid) (.data (List.replicate 16 0) [])) ∧
        t.notices = s.notices ++ [⟨d, k, n, leBytes 8 (swap % 2 ^ 64) ++ leBytes 4 (swap / 2 ^ 64 % 2 ^ 32) ++ leBytes 4 (senderHost port rid)⟩]) ∧
      (slotExists d k n = true → s.mayPost (s.binding d k n) (senderHost port rid) = true → s.noticeAt d k n ≠ none →
        t.sent = s.sent ++ [.reply (.host port rid) .abort] ∧ t.notices = s.notices)) ∧
  (∀ (s : State) (port off d k n : Nat), port < 8 → s.power.mode = .ready → (∀ h ∈ s.mem.held, ∀ i, h.ag ≠ .host port i) → off % 16 = 0 → off < 0x20000 → (d, k, n) = regionSlot off → s.hostSlot port d k n = true →
    (exec (.mailboxHostRead port off 16) s = .next { s with
      sent := s.sent ++ [.reply (.host port 0) (.data (match s.noticeAt d k n with | some z => z.bytes | none => List.replicate 16 0) [])] }) ∧
    (∃ t, exec (.mailboxHostFree port off (List.replicate 16 0)) s = .next t ∧ t.noticeAt d k n = none ∧ t = { s with notices := t.notices, sent := s.sent ++ [.reply (.host port 0) .done] } ∧
      ∀ z ∈ s.notices, (z.d, z.k, z.n) ≠ (d, k, n) → z ∈ t.notices)) ∧
  (∀ (s : State) (d : Nat), d < 8 → ∃ t, exec (.dietimeLoRead d) s = .next t ∧ (t.reg d .MBX_DIETIME_HI 0 0).toNat = s.time d / 2 ^ 32 % 2 ^ 32 ∧ t = { s with regs := t.regs })) ∧
  ((∀ (s : State) (d k : Nat) (x : Notice), s.nextNotice d k 1 0 = some x → (s.liveSteps.filter fun y => y.d = d && y.k = k).length < 256 → s.power.mode ≠ .safe →
    s.posterReaches x.sender x.pointer 64 = true → s.ready (.aseq d k) x.pointer 64 false = true →
    ∃ t y, exec (.noticeTake d k 16) s = .next t ∧ t.kv.steps = s.liveSteps ++ [y] ∧ y.d = d ∧ y.k = k ∧ y.id = s.kv.stepNext ∧ y.pointer = x.pointer ∧ y.tag = x.tag ∧
      y.sender = x.sender ∧ y.header = s.seen x.pointer 64 ∧ y.ended = false ∧ (∀ m, s.slotModel d k x.n = some m → y.model = m.addr ∧
        y.failed = if y.headerBad m.layers then some 0x0002 else if !s.posterReaches x.sender y.rowsAddr (32 * y.nrows) then some 0x0008 else none) ∧
      (y.failed = none → y.rows = (List.range y.nrows).map fun i => freshRow (s.seen (y.rowsAddr + 32 * i) 32)) ∧
      t.kv.stepNext = s.kv.stepNext + 1 ∧ t.noticeAt d k x.n = none ∧ t.mem.cells = s.mem.cells ∧ t.regs = s.regs) ∧
  (∀ (s : State) (d k i : Nat) (x : Notice) (c : Instr), i < 16 → k < 4 → c = .noticeTake d k i ∨ c = .ccNoticeDispatch d (16 * k + i) → s.nextNotice d k 0 i = some x →
    s.corePresent d (16 * k + i) = true → (s.core d (16 * k + i)).takes 19 true = true → (s.core d (16 * k + i)).cc.due = none → (s.core d (16 * k + i)).faulted = none →
    (s.core d (16 * k + i)).patchDue = none → s.power.mode ≠ .safe →
    (s.posterReaches x.sender x.pointer 64 = true → s.ready (.cc d (16 * k + i)) x.pointer 64 false = true → 1 ≤ field (s.seen x.pointer 64) 0 1 →
      field (s.seen x.pointer 64) 0 1 ≤ 6 →
      ∃ t, exec c s = .next t ∧ (t.core d (16 * k + i)).cc.call = some ⟨2, 0x100, x.pointer, 0, some (x.n, x.bytes), 0, false, 0, false, none, none⟩ ∧ t.noticeAt d k x.n = none ∧
        t.mem.cells = s.mem.cells ∧ t.regs = s.regs) ∧
    (s.posterReaches x.sender x.pointer 64 = false → exec c s = .next ((s.emptySlot d k x.n).mapErr (.cc d (16 * k + i)) false x.pointer))) ∧
  (∀ (s : State) (d k : Nat) (x : Notice), s.nextNotice d k 1 0 = some x → (s.liveSteps.filter fun y => y.d = d && y.k = k).length < 256 → s.power.mode ≠ .safe →
    s.posterReaches x.sender x.pointer 64 = false → exec (.noticeTake d k 16) s = .next ((s.emptySlot d k x.n).mapErr (.aseq d k) false x.pointer)))

/-! ### Attention steps and the KV manager -/

/-- Attention steps (R38, R40, R316, R325, R326, R330, R332): a step runs its rows unless an earlier one of the same sequence and layer holds it; a row keeps its failure of lowest precedence; the
append writes the token and raises LENGTH by one, or looks for its page again where LENGTH has risen; KV_ALLOC_PAGE opens the page in every plane; a step that is done writes its outcome into its
header, latches a failure and sends its notice, and only then stops holding others. -/
def Obligations.AttentionStepsRunTheirRows : Prop :=  (∀ p ∈ [(Instr.stepDecode, 1), (Instr.stepAttend, 2), (Instr.stepAppend, 3)], ∀ (s : State) (d k n : Nat) (x : Step), s.stepAt d k n = some x → x.kind = p.2 → x.failed = none →
    s.power.mode ≠ .safe →
    (s.stepHeld x = false → exec (p.1 d k n) s = .next ((List.range x.rows.length).foldl (fun s i => s.rowRun x i 10) s)) ∧
    (s.stepHeld x = true → exec (p.1 d k n) s = .next s)) ∧
  (∀ (s : State) (x y : Step) (v w : StepRow), y ∈ s.liveSteps → y.d = x.d → y.k = x.k → y.id < x.id → y.layer = x.layer → y.failed = none → v ∈ y.rows → w ∈ x.rows → v.seq = w.seq →
    s.stepHeld x = true) ∧
  (∀ (s : State) (y : Step), y ∈ s.kv.steps → y.ended = false ∨ s.noticeKept y = true → y ∈ s.liveSteps) ∧
  (∀ (s : State) (x : Step) (i : Nat) (w : StepRow) (f : Nat × Nat × Nat), w.phase = 0 → w.prec = 99 → s.rowCheck x i w = some f →
    s.rowNext x i w = s.onRow x.id i fun w => w.fail f.1 f.2.1 f.2.2) ∧
  (∀ (w : StepRow) (a b c a' b' c' : Nat), a < a' → (w.fail a b c).fail a' b' c' = w.fail a b c) ∧
  (∀ (s : State) (x : Step) (i : Nat) (w : StepRow) (m : KvModel) (r : SeqRow) (ws : List (Nat × List Byte)) (acc : List (Nat × Nat × Bool)), w.phase = 3 → w.prec = 99 →
    m = s.model x.model → r = s.seqRow m w.seq → ws = s.appendWrites x w m r →
    acc = (w.kvAddr, kvPitch m * (m.ngroups * m.h * 2), false) :: ws.map (fun y => (y.1, y.2.length, true)) →
    (r.length = w.length → (∀ a ∈ acc, s.ready (.aseq x.d x.k) a.1 a.2.1 a.2.2 = true) →
      s.rowNext x i w = acc.foldl (fun s a => s.useObtained a.1 a.2.1)
        (((ws.foldl (fun s y => s.writeBytes y.1 y.2) s).setRow r 0 4 (r.length + 1)).onRow x.id i fun w => { w with phase := 4, appended := true, length := r.length + 1 })) ∧
    (r.length ≠ w.length → s.rowNext x i w = s.onRow x.id i fun w => { w with phase := 1 })) ∧
  (∀ (s : State) (d c i : Nat) (x : Step) (w : StepRow) (m : KvModel) (r : SeqRow) (got : Except Nat State), s.allocRow d (c / 16) = some (x, i, w) → s.corePresent d c = true →
    (s.core d c).cc.call = none → m = s.model x.model → r = s.seqRow m w.seq → got = s.allocPages m r w.seq (r.length / 256) (s.newPlanes m r w.seq (r.length / 256)) →
    (r.length = w.length → (∀ u, got = .ok u → exec (.kvAllocPage d c) s = .next (u.onRow x.id i fun w => { w with phase := 3 })) ∧
      (∀ p, got = .error p → s.mayFree m p = true → exec (.kvAllocPage d c) s = .next (s.starve m p)) ∧
      (∀ p, got = .error p → s.mayFree m p = false → exec (.kvAllocPage d c) s = .next (s.onRow x.id i fun w => w.fail 6 5 0x0063))) ∧
    (r.length ≠ w.length → exec (.kvAllocPage d c) s = .next (s.onRow x.id i fun w => { w with phase := 1 }))) ∧
  (∀ (s : State) (d k n i : Nat) (x : Step), s.stepAt d k n = some x →
    exec (.partialMerge d k n i) s = .next (s.onStep x.id fun y => { y with rows := mergeIn s.frameStack y.rows i })) ∧
  (∀ (s : State) (d k n i : Nat) (x : Step) (w : StepRow) (t : HeadPage) (rest : List HeadPage), s.stepAt d k n = some x → x.rows[i]? = some w → w.core = t :: rest →
    popCount 16 (s.fld x.d x.k 0 ASEQ_CORES.MASK) ≠ 0 → (∀ y ∈ w.core, s.ready (.engine x.d (16 * x.k) 4) (s.frameAddr y.frame) (s.slotLen y.frame) false = true) →
    ∃ t', exec (.coreMode d k n i) s = .next t' ∧ t'.mem.cells = s.mem.cells ∧ (∀ z ∈ t'.kv.steps, z.id = x.id → ∀ v, z.rows[i]? = some v → ∀ y ∈ v.core, y.head ≠ t.head)) ∧
  (∀ (s v u : State) (d k n : Nat) (x : Step) (bad : List Nat) (acc : List (Nat × Nat × Bool)), s.stepAt d k n = some x → x.ended = false → (∀ w ∈ x.rows, w.phase = 9) → bad = s.failedRows x →
    acc = (x.pointer, 64, true) :: bad.map (fun a => (a, 32, true)) → (∀ a ∈ acc, s.ready (.aseq d k) a.1 a.2.1 a.2.2 = true) →
    v = ((bad.foldl (fun s a => s.writeBytes (a + 4) (leBytes 1 3 ++ leBytes 1 0 ++ leBytes 2 0x0002)) s).writeBytes (x.pointer + 0x20) (leBytes 1 x.outcome.1)).writeBytes
      (x.pointer + 0x22) (leBytes 2 x.outcome.2.1 ++ leBytes 2 x.outcome.2.2) →
    (x.outcome.1 = 0 ∨ v.fld d k 0 ASEQ_ERR.VALID = 1 → u = v) →
    (x.outcome.1 ≠ 0 → v.fld d k 0 ASEQ_ERR.VALID = 0 → u = v.setReg d .ASEQ_ERR k 0 (BitVec.ofNat 32 (2 ^ 31 + x.outcome.1 * 2 ^ 24 + x.outcome.2.1))) →
    exec (.stepComplete d k n) s = .next (acc.foldl (fun s a => s.useObtained a.1 a.2.1)
      ((x.rows.foldl (fun s w => s.endClosing w.seq) (u.onStep x.id fun y => { y with ended := true })).replyIf (senderAseq d k) x.reply x.pointer x.tag))) ∧
  (∀ x : Step, x.failed = none → (∀ w ∈ x.rows, w.status = 0) → x.outcome = (0, 0, 0))

/-- KV requests (R312 to R316): a request that fails a check completes with its status and changes no structure; otherwise its operation is carried out and completes with OK, or waits while a
spill can free a frame that it lacks, or is REFUSED, reason 0x0063. -/
def Obligations.KvRequestsAreServed : Prop :=  (∀ p ∈ [(Instr.kvOpen, 1, some 0), (Instr.reserve, 2, some 1), (Instr.commit, 3, some 1), (Instr.share, 4, some 0), (Instr.kvFree, 5, none), (Instr.kvPrefetch, 6, some 2)],
    ∀ (s : State) (d c : Nat) (q : KvReq) (st why : Nat), s.kvReq d c = some q → q.op = p.2.1 → s.ready (.cc d c) q.pointer 64 true = true → s.kvCheck q p.2.2 = some (st, why) →
      exec (p.1 d c) s = .next ((s.kvDone q st why).useObtained q.pointer 64)) ∧
  (∀ (s v : State) (d c : Nat) (q : KvReq) (m : KvModel), s.kvReq d c = some q → q.op = 1 → s.ready (.cc d c) q.pointer 64 true = true → s.kvCheck q (some 0) = none →
    q.model = some m → s.openRow m (s.seqRow m q.seq) q.flags q.aux (if bit q.flags 0 then q.n else 0) q.home 0 0 1 = some v →
    exec (.kvOpen d c) s = .next ((v.kvDone q 0 0).useObtained q.pointer 64)) ∧
  (∀ (s : State) (d c : Nat) (q : KvReq) (m : KvModel) (r : SeqRow) (got : Except Nat (State × List Nat)), s.kvReq d c = some q → q.op = 2 →
    s.ready (.cc d c) q.pointer 64 true = true → s.kvCheck q (some 1) = none → q.model = some m → r = s.seqRow m q.seq → (r.windowed = true → r.reserved = 0) →
    r.reserved + q.n ≤ 1048576 → (r.windowed = false → ∀ n ∈ q.newPages r, n < r.pagesMax) →
    got = s.reserveAll m r q.seq ((List.range m.planes).flatMap fun p => (q.newPages r).map fun n => (p, n)) →
    (∀ (v : State) (addrs : List Nat) (bytes : List Byte), got = .ok (v, addrs) → bytes = frameList (q.listWords r) (q.listWords r - (q.newPages r).length) addrs m.planes →
      s.ready (.cc d c) q.list bytes.length true = true →
      exec (.reserve d c) s = .next (((((v.writeBytes q.list bytes).setRow r 0x18 4 (r.reserved + q.n)).kvDone q 0 0).useObtained q.list bytes.length).useObtained q.pointer 64)) ∧
    (∀ p, got = .error p → s.mayFree m p = true → exec (.reserve d c) s = .next ((s.starve m p).useObtained q.pointer 64)) ∧
    (∀ p, got = .error p → s.mayFree m p = false → exec (.reserve d c) s = .next ((s.kvDone q 5 0x0063).useObtained q.pointer 64))) ∧
  (∀ (s v : State) (d c : Nat) (q : KvReq) (m : KvModel) (r : SeqRow), s.kvReq d c = some q → q.op = 3 → s.ready (.cc d c) q.pointer 64 true = true → s.kvCheck q (some 1) = none →
    q.model = some m → r = s.seqRow m q.seq → (r.windowed = true → q.n = r.reserved) → q.n ≤ r.reserved →
    v = (s.reservedFor q.seq).foldl (fun s f =>
      if r.windowed = true ∨ s.fd f 0x0E 2 % 4096 < (q.n + 255) / 256 then
        (s.setFd f 0 1 2).setEntry ⟨q.seq, s.fd f 2 2, s.fd f 0x0E 2 % 4096⟩ (wordPresent f) 0 0 else s.reclaim f) s →
    exec (.commit d c) s = .next ((((v.setRow (v.seqRow m q.seq) 0 4 q.n).setRow (v.seqRow m q.seq) 4 1 2).kvDone q 0 0).useObtained q.pointer 64)) ∧
  (∀ (s v w : State) (d c : Nat) (q : KvReq) (m : KvModel) (src : SeqRow) (pages : List PageId), s.kvReq d c = some q → q.op = 4 → s.ready (.cc d c) q.pointer 64 true = true →
    s.kvCheck q (some 0) = none → q.model = some m → src = s.seqRow m q.aux → q.n ≤ src.length → src.windowed = false →
    pages = ((List.range m.planes).flatMap fun p => (List.range ((q.n + 255) / 256)).map fun i => (⟨q.aux, p, i⟩ : PageId)) →
    (∀ pg ∈ pages, enPoison (s.entryWord pg) = false) → s.gatherPages q pages = (v, true) → (∀ pg ∈ pages, enPresent (v.entryWord pg) = true) →
    v.openRow m (s.seqRow m q.seq) src.flags src.pagesMax 0 src.home q.n q.n 2 = some w →
    exec (.share d c) s = .next (((pages.foldl (fun s pg =>
      (s.addRef (enFrame (s.entryWord pg))).setEntry { pg with seq := q.seq } (wordPresent (enFrame (s.entryWord pg))) 0 0) w).kvDone q 0 0).useObtained q.pointer 64)) ∧
  (∀ (s : State) (d c : Nat) (q : KvReq) (m : KvModel), s.kvReq d c = some q → q.op = 5 → s.ready (.cc d c) q.pointer 64 true = true → s.kvCheck q none = none → q.model = some m →
    exec (.kvFree d c) s = .next (((s.freeSeq q.seq).kvDone q 0 0).useObtained q.pointer 64)) ∧
  (∀ (s v : State) (d c : Nat) (q : KvReq) (m : KvModel) (ok : Bool), s.kvReq d c = some q → q.op = 6 → s.ready (.cc d c) q.pointer 64 true = true → s.kvCheck q (some 2) = none →
    q.model = some m → s.askPages (seqPages m (s.seqRow m q.seq) q.seq) = (v, ok) →
    (ok = true → (∀ pg ∈ seqPages m (s.seqRow m q.seq) q.seq, pg ∉ v.kv.wanted) → exec (.kvPrefetch d c) s = .next ((v.kvDone q 0 0).useObtained q.pointer 64)) ∧
    (ok = false → exec (.kvPrefetch d c) s = .next ((v.kvDone q 5 0x0063).useObtained q.pointer 64)))

/-- Routines on pages, pins, copies and look-aside buffers (R256, R262, R310, R311, R316, R317): a dynamic descriptor that passes the creation checks describes a pinned
frame until it is released, and one that fails them ends the routine with its code; KV_POST_STEP posts to a slot of an attention sequencer; only a frame IN_USE takes a
pin; a shared page is copied for its writer; an invalidated entry stands in no look-aside buffer. The far tier (R62, R320 to R322, R428): a spill marks its page as
moving, a spill whose writes are acknowledged leaves the page spilled and its frame free; a prefetch that something waits for brings a spilled page back, and data whose
CRC differs poisons the page; a response other than OK makes the tier unreachable, and a probe that succeeds makes it reachable. -/
def Obligations.PagesArePinnedCopiedSpilledAndReturned : Prop :=
  ((∀ (s : State) (d c f : Nat) (x : Call) (pg : PageId) (e : Nat) (m : KvModel), (s.core d c).routine = some x → x.id = 0x102 → x.source ≠ 2 →
    pg = ⟨bits x.arg 63 48, bits x.arg 47 32, bits x.arg 27 16⟩ → e = bits x.arg 7 0 → s.modelOf pg.seq = some m → 0xC0 ≤ e → (s.seqRow m pg.seq).state ≠ 0 → pg.plane < m.planes →
    pg.index < (s.seqRow m pg.seq).pagesMax → enPresent (s.entryWord pg) = true → enPoison (s.entryWord pg) = false → (s.core d c).entryBusy e = false → f = enFrame (s.entryWord pg) →
    (∀ v, s.frameDescBad f (frameDesc m (s.frameAddr f)) = none → (s.walk d (c / 16) pg).2.pin f = some v →
      exec (.kvFrameDesc d c) s = .next (((v.dropDynamic d c e).onCore d c fun k =>
        { k with desc := mput k.desc e (frameDesc m (v.frameAddr f)), dpins := mput k.dpins e f }).kvRoutineEnds d c x 0)) ∧
    (∀ why, s.frameDescBad f (frameDesc m (s.frameAddr f)) = some why → exec (.kvFrameDesc d c) s = .next (s.kvRoutineEnds d c x why))) ∧
  (∀ (s : State) (d c : Nat) (x : Call), (s.core d c).routine = some x → x.id = 0x103 → x.source ≠ 2 → (s.core d c).entryBusy (bits x.arg 7 0) = false →
    (∀ f, mfind (s.core d c).dpins (bits x.arg 7 0) = some f →
      exec (.kvReleaseDesc d c) s = .next (((s.unpin f).onCore d c fun k => { k with desc := mdel k.desc (bits x.arg 7 0), dpins := mdel k.dpins (bits x.arg 7 0) }).kvRoutineEnds d c x 0)) ∧
    (mfind (s.core d c).dpins (bits x.arg 7 0) = none → exec (.kvReleaseDesc d c) s = .next (s.kvRoutineEnds d c x 0))) ∧
  (∀ (s u : State) (d c slot : Nat) (x : Call) (b : List Byte), (s.core d c).routine = some x → x.id = 0x104 → x.source ≠ 2 → b = (s.core d c).cc.bytes x.arg 18 → slot = field b 16 2 →
    slot / 256 < 4 → bindRecv (s.binding d (slot / 256) (slot % 256)) = 1 →
    s.post (senderCc d c) d (slot / 256) (slot % 256) (field b 0 8) (field b 8 4) = (u, .ok) → exec (.kvPostStep d c) s = .next (u.kvRoutineEnds d c x 0)) ∧
  (∀ (s : State) (pool bank band slot f : Nat), s.frameAt pool bank band slot = some f →
    (∀ u, s.pin f = some u → exec (.framePin pool bank band slot) s = .next u) ∧ (s.fdState f ≠ 2 → exec (.framePin pool bank band slot) s = .next s) ∧
    (s.pinsOf f ≠ 0 → exec (.frameUnpin pool bank band slot) s = .next (s.unpin f))) ∧
  (∀ (s u : State) (model seq plane page : Nat) (m : KvModel) (r : SeqRow) (pg : PageId), s.pageIn model seq plane page = some (m, r, pg) → enPresent (s.entryWord pg) = true →
    (1 < s.refs (enFrame (s.entryWord pg)) → s.copyOnWrite m r.start page pg = some u → exec (.copyOnWrite model seq plane page) s = .next u) ∧
    (s.refs (enFrame (s.entryWord pg)) ≤ 1 → exec (.copyOnWrite model seq plane page) s = .next s)) ∧
  (∀ (s : State) (model seq plane page : Nat) (m : KvModel) (r : SeqRow) (pg : PageId), s.pageIn model seq plane page = some (m, r, pg) →
    ∃ t, exec (.labInvalidate model seq plane page) s = .next t ∧ (∀ c, c < 32 → pg ∉ mget [] t.kv.labs c ∧ ∀ q, q ≠ pg → (q ∈ mget [] t.kv.labs c ↔ q ∈ mget [] s.kv.labs c)) ∧
      t = { s with regs := t.regs, kv := { s.kv with labs := t.kv.labs } }) ∧
  (∀ (s : State) (f : Nat), s.fdState f ≠ 2 → s.pin f = none)) ∧
  ((∀ (s : State) (d f slot : Nat), d < 8 → s.power.mode ≠ .safe → s.tierOpen d = true → s.spillDue d = true → s.spillNext d = some f → s.farSlot d = some slot →
    s.ready (.kvm d) (s.frameAddr f) (s.slotLen f) false = true →
    ∃ t j, exec (.spillStart d) s = .next t ∧ t.kv.farJobs = s.kv.farJobs ++ [j] ∧ j.d = d ∧ j.spill = true ∧ j.frame = f ∧ j.slot = slot ∧ j.id = s.kv.farNext ∧
      j.crc = crc32c (s.readBytes (s.frameAddr f) (s.slotLen f)) ∧ j.page = ⟨s.fd f 0x0C 2, s.fd f 2 2, s.fd f 0x0E 2 % 4096⟩ ∧ slot ∈ t.kv.farUsed ∧
      (∀ c, c < 32 → j.page ∉ mget [] t.kv.labs c)) ∧
  (∀ (s : State) (d n : Nat) (j : FarJob), (s.farJobs d true)[n]? = some j →
    (s.slotPoisoned j.frame = true → (s.abandonJob j).fdState j.frame = 2 → exec (.spillComplete d n) s = .next ((s.abandonJob j).setFd j.frame 1 1 1)) ∧
    (s.slotPoisoned j.frame = false → s.farJobs d false = [] ∨ s.spillOld d = true →
      (∀ data, s.farResult j.id = some (0, data) →
        exec (.spillComplete d n) s = .next ((((((s.endJob j).setEntry j.page wordSpilled j.slot j.crc).reclaim j.frame).countFld d 0 0 KVM_FAR_COUNT.SPILLED 1).spillSated d).afterJob j.page)) ∧
      (∀ st data, st ≠ 0 → s.farResult j.id = some (st, data) → exec (.spillComplete d n) s = .next s.farUnreachable))) ∧
  (∀ (s u : State) (model seq plane page : Nat) (m : KvModel) (r : SeqRow) (pg : PageId), s.power.mode ≠ .safe → s.pageIn model seq plane page = some (m, r, pg) →
    (pg ∈ s.kv.wanted → s.askPage pg = some u → exec (.prefetchStart model seq plane page) s = .next u) ∧
    (pg ∉ s.kv.wanted → exec (.prefetchStart model seq plane page) s = .next s)) ∧
  (∀ (s : State) (pg : PageId), s.entryWord pg = wordSpilled → s.kv.unreachable = false → ∀ u, s.fetch pg = some u → s.askPage pg = some u) ∧
  (∀ (s : State) (d n : Nat) (j : FarJob) (data old bytes : List Byte), (s.farJobs d false)[n]? = some j → s.spillOld d = false → s.farResult j.id = some (0, old) →
    (s.farPort.isSome = true ∧ bytes = data) ∨ (s.farPort = none ∧ bytes = old) → bytes.length = s.slotLen j.frame →
    (crc32c bytes ≠ s.entryCrc j.page → exec (.prefetchComplete d n data) s = .next
      (((((((s.endJob j).setEntry j.page wordPoisoned 0 0).reclaim j.frame).freeSlot j.slot).countFld d 0 0 KVM_CRC_ERR.COUNT 1).raise d 0x4801 .die 0 0).afterJob j.page)) ∧
    (crc32c bytes = s.entryCrc j.page → s.ready (.kvm d) (s.frameAddr j.frame) bytes.length true = true → exec (.prefetchComplete d n data) s = .next
      ((((((((s.endJob j).writeBytes (s.frameAddr j.frame) bytes).setFd j.frame 0 1 2).setEntry j.page (wordPresent j.frame) 0 0).freeSlot j.slot).countFld d 0 0
        KVM_FAR_COUNT.FETCHED 1).afterJob j.page).useObtained (s.frameAddr j.frame) bytes.length))) ∧
  (∀ (s : State) (d n st : Nat) (j : FarJob) (data old : List Byte), (s.farJobs d false)[n]? = some j → s.spillOld d = false → s.farResult j.id = some (st, old) → st ≠ 0 →
    exec (.prefetchComplete d n data) s = .next s.farUnreachable) ∧
  (∀ s : State, (s.far.isSome = true → ∃ t, exec .farTierUnreachable s = .next t ∧ t.kv.unreachable = true ∧ t.sent = s.sent) ∧
    (s.far = none → exec .farTierUnreachable s = .next s)) ∧
  (∀ (s : State) (p b : Nat) (rest : Nat × Nat × List Nat), s.kv.unreachable = true → s.causeEnded = true → s.far = some (FarHome.host p, b, rest) →
    exec (.farTierProbe true) s = .next { s with sent := s.sent ++ [.hostRead p b 4], kv := { s.kv with unreachable := false } } ∧
    exec (.farTierProbe false) s = .next { s with sent := s.sent ++ [.hostRead p b 4] }) ∧
  (∀ (s : State) (m b : Nat) (rest : Nat × Nat × List Nat) (ok : Bool), s.kv.unreachable = true → s.causeEnded = true → s.far = some (FarHome.peer m, b, rest) →
    (s.reqsOf (· == probeOwner) = [] → exec (.farTierProbe ok) s = .next (s.requestRead 0 0x4C (carAddr m 0 0x50) b 64 probeOwner)) ∧
    (∀ q qs st data, s.reqsOf (· == probeOwner) = q :: qs → q.result = some (st, data) →
      exec (.farTierProbe ok) s = .next { s.dropReqs (· == probeOwner) with kv := { s.kv with unreachable := st != 0 } })))

/-! ### The loader -/

/-- LOAD (R335, R337, R345 to R349): the oldest waiting notice is taken, its image copied and the task LOADING; a verified image that has its place becomes LOADED, and
a rejected one leaves nothing but its code and its reply. START, ABORT, RELEASE and the ends of a run (R337, R350 to R355): a START prepares and starts every core or
names the core that stands in its way; an ABORT answers for a loaded task, abandons a LOAD, or waits for a running one; RELEASE frees the task; a run that every core
has finished, or that a fault has ended, answers its START; a fetch fills its half of the buffer. -/
def Obligations.TasksAreLoadedRunAndEnded : Prop :=
  ((∀ (s : State) (x : Notice) (q : LdrCmd) (fill : List (List Byte)), (s.notices.find? fun y => y.d = 8) = some x → s.power.mode ≠ .safe → (∀ t ∈ s.ldr.tasks, t.state ≠ .loading) →
    s.posterReaches x.sender x.pointer 128 = true → s.ready .loader x.pointer 128 true = true → q = ⟨x, s.seen x.pointer 128⟩ → q.op = 1 → q.fieldBad = false →
    exec (.ldrLoad fill) s = .next (((s.emptySlot 8 0 x.n).ldrBegin q).useObtained x.pointer 128)) ∧
  (∀ (s : State) (q : LdrCmd) (i : Nat), q.op = 1 → s.allMem q.addr q.bytes = true → s.posterReaches q.x.sender q.addr q.bytes = true →
    ((List.range 64).find? fun i => !s.ldr.tasks.any fun t => t.id = i + 1) = some i → s.areaUsed + q.bytes ≤ s.loaderArea.2 →
    ∃ y, s.ldrBegin q = { s with ldr := { s.ldr with tasks := s.ldr.tasks ++ [y] } } ∧ y.id = i + 1 ∧ y.state = .loading ∧ y.image = s.seen q.addr q.bytes ∧
      y.owner = posterOwner q.x.sender ∧ y.load = some q.req) ∧
  (∀ (s : State) (x : Task) (q : LdrReq) (fill : List (List Byte)) (r : Reject), (s.ldr.tasks.find? fun y => y.state = .loading) = some x → x.load = some q →
    s.ready .loader q.pointer 128 true = true → s.verify x.image x.image.length s.loaderArea.2 = some r →
    exec (.ldrLoad fill) s = .next ((({ s with ldr := { s.ldr with tasks := s.ldr.tasks.filter (fun y => y.id ≠ x.id), rejLast := r.code } } : State).ldrReply q 5 0x0070 r.report).useObtained q.pointer 128)) ∧
  (∀ (s : State) (x : Task) (q : LdrReq) (fill : List (List Byte)) (p : Plan), (s.ldr.tasks.find? fun y => y.state = .loading) = some x → x.load = some q →
    s.ready .loader q.pointer 128 true = true → s.verify x.image x.image.length s.loaderArea.2 = none → s.plan x.image = .ok p →
    (∀ z ∈ p.ranges x.owner (imgEntries x.image 3).zipIdx, s.rangeReady .loader z.1 z.2.1 z.2.2 = true) →
    ∃ t u : State, exec (.ldrLoad fill) s = .next t ∧ t = { u with mem := { u.mem with obtained := t.mem.obtained, owned := t.mem.owned } } ∧ u = s.ldrAccept x q p fill ∧
      ∃ y ∈ t.ldr.tasks, y.id = x.id ∧ y.state = .loaded ∧ y.bases = p.bases ∧ y.moved = p.moved ∧ y.load = none)) ∧
  ((∀ (s v : State) (x : Notice) (q : LdrCmd) (y : Task), (s.notices.find? fun z => z.d = 8) = some x → s.power.mode ≠ .safe → (∀ t ∈ s.ldr.tasks, t.state ≠ .loading) →
    s.posterReaches x.sender x.pointer 128 = true → s.ready .loader x.pointer 128 true = true → q = ⟨x, s.seen x.pointer 128⟩ → q.fieldBad = false →
    v = s.emptySlot 8 0 x.n → s.task q.task = some y → y.owner = posterOwner x.sender → y.state = .loaded →
    (q.op = 2 → v.startBlocked y = none → exec .ldrStart s = .next (((v.startCores y).onTask y.id fun t => { t with state := .running, start := some q.req, done := [] }).useObtained x.pointer 128)) ∧
    (q.op = 2 → ∀ fault d c, v.startBlocked y = some (fault, d, c) → exec .ldrStart s = .next ((v.ldrReply q.req 5 0x0077 (runReport fault d c 0 0 [])).useObtained x.pointer 128)) ∧
    (q.op = 4 → exec .ldrRelease s = .next (((v.freeTask y.id).ldrReply q.req 0 0 []).useObtained x.pointer 128))) ∧
  (∀ (s : State) (q : LdrCmd) (y : Task), s.abortWaiting = some q → s.power.mode ≠ .safe → s.task q.task = some y → s.ready .loader q.req.pointer 128 true = true →
    (∀ r, y.load = some r → s.ready .loader r.pointer 128 true = true) → q.fieldBad = false → y.owner = posterOwner q.x.sender →
    (y.state = .loaded → exec .ldrAbort s = .next (y.load.toList.foldl (fun s r => s.useObtained r.pointer 128) (((s.emptySlot 8 0 q.x.n).ldrReply q.req 0 0 []).useObtained q.req.pointer 128))) ∧
    (y.state = .running → exec .ldrAbort s = .next (y.load.toList.foldl (fun s r => s.useObtained r.pointer 128) (((s.emptySlot 8 0 q.x.n).onTask y.id fun t => { t with aborts := t.aborts ++ [q.req] }).useObtained q.req.pointer 128))) ∧
    (∀ r, y.state = .loading → y.load = some r → exec .ldrAbort s = .next ((((((s.emptySlot 8 0 q.x.n).ldrReply r 5 0x0071 []).dropTask y.id).ldrReply q.req 0 0 []).useObtained q.req.pointer 128).useObtained r.pointer 128))) ∧
  (∀ (s : State) (id : Nat) (y : Task) (r : LdrReq), s.task id = some y → y.state = .running → y.allDone = true → y.start = some r → y.aborts = [] →
    s.ready .loader r.pointer 128 true = true → exec (.runEnd id) s = .next (((s.finishRun id).ldrReply r 0 0 cleanReport).useObtained r.pointer 128)) ∧
  (∀ (s v : State) (id fault d c : Nat) (y z : Task) (r : LdrReq), s.task id = some y → y.state = .running → y.allDone = false → fault ≠ 0 → (d, c) ∈ y.cores →
    (s.core d c).faulted = some fault → y.start = some r → y.aborts = [] → v = (s.abortRun id).onTask id (fun t => { t with report := s.faultReport fault d c }) → v.task id = some z →
    z.state = .aborting → z.start = some r → z.aborts = [] → z.report = s.faultReport fault d c → field z.report 0 2 ≠ 0 → v.ready .loader r.pointer 128 true = true →
    exec (.taskAbort id fault d c) s = .next (((v.finishRun id).ldrReply r 5 0x0074 (s.faultReport fault d c)).useObtained r.pointer 128)) ∧
  (∀ (s v : State) (id d c : Nat) (y z : Task) (r q : LdrReq), s.task id = some y → y.state = .running → y.allDone = false → y.start = some r → y.aborts = [q] →
    v = (s.abortRun id).onTask id (fun t => { t with report := cleanReport }) → v.task id = some z → z.state = .aborting → z.start = some r → z.aborts = [q] → z.report = cleanReport →
    v.ready .loader r.pointer 128 true = true → v.ready .loader q.pointer 128 true = true →
    exec (.taskAbort id 0 d c) s =
      .next (((((v.finishRun id).ldrReply r 5 0x0075 cleanReport).ldrReply q 0 0 []).useObtained r.pointer 128).useObtained q.pointer 128)) ∧
  (∀ (s : State) (id alloc base half i : Nat) (data : List Byte) (y : Task), s.task id = some y → y.buffer = some (base, half) →
    (y.halves.findIdx? fun h => decide (h.alloc = some alloc) && h.fetching) = some i →
    s.rangeReady (.kvm ((y.cores.headD (0, 0)).1)) (base + i * half) half true = true →
    ∃ t u : State, exec (.streamBufferFetch id alloc data) s = .next t ∧ t = { u with mem := { u.mem with obtained := t.mem.obtained, owned := t.mem.owned } } ∧
      u = (s.fillRange (base + i * half) half data).onTask id fun t => { t with halves := modAt (fun h => { h with fetching := false }) t.halves i }))

/-! ### Lanes, ports and lasers -/

/-- Training of a lane group (R362, R366, R370, R371, R406): light has the lane send TS1; a TS1 is noted and names the peer, and on a fabric port whose record names another peer it is a miscabling;
at the end of the countdown the lanes go to the port's mode; the sixteenth TS2 and an equal marker count on every lane bring a fabric port up. -/
def Obligations.LanesTrainIntoPorts : Prop :=  (∀ (s : State) (e lane : Nat), e < 16 → lane < 36 → s.boot.lasersOn = true → (s.lane e lane).lit = false → s.logicalOf e lane = none →
    ∃ t, exec (.lightDetect e lane) s = .next t ∧ t.lane e lane = { s.lane e lane with lit := true } ∧ t = { s with sent := t.sent, fab := t.fab } ∧
      t.sent = (if s.boot.lasersLocked then s.sent ++ [.block e lane (s.tsBlock 3 e lane lane 2 0 0xFFFF)] else s.sent)) ∧
  (∀ (s : State) (e lane i : Nat), e < 16 → lane < 36 → s.boot.lasersOn = true → (s.lane e lane).lit = false → s.logicalOf e lane = some i →
    s.mayTrain (groupPort e i) = true → (s.fport (groupPort e i)).phase = .down →
    ∃ t, exec (.lightDetect e lane) s = .next t ∧ t.lane e lane = { s.lane e lane with lit := true } ∧ (t.fport (groupPort e i)).phase = .training ∧
      t.sent = s.sent ++ [.block e lane (s.tsBlock 3 e lane i (if (s.fport (groupPort e i)).rate then s.modeOf (groupPort e i) else 2) 0 0xFFFF)] ∧
      t = { s with sent := t.sent, fab := t.fab }) ∧
  (∀ (s : State) (e lane i p : Nat) (b : List Byte), s.blockOn e lane 3 b = true → s.logicalOf e lane = some i → p = groupPort e i → s.mayTrain p = true →
    (s.fport p).phase = .down ∨ (s.fport p).phase = .training ∨ (s.fport p).phase = .miscabled →
    (p < 48 → s.namedPeer p = some (bits (field b 1 2) 13 0) ∧ bits (field b 1 2) 15 14 = 0) →
    ∃ t, exec (.ts1 e lane b) s = .next t ∧ (t.fport p).phase = .training ∧ (t.fport p).peer = bits (field b 1 2) 13 0 ∧ (t.fport p).peerDie = field b 3 1 ∧
      (t.fport p).peerEngine = field b 4 1 ∧
      t.lane e lane = { s.lane e lane with ts1 := true, countdown := decide (field b 9 2 ≠ 0xFFFF), eqOk := decide (field b 8 1 = 0), ts2 := 0 } ∧
      t = { s with free := t.free, sent := t.sent, fab := t.fab }) ∧
  (∀ (s : State) (e lane i p m : Nat) (b : List Byte), s.blockOn e lane 3 b = true → s.logicalOf e lane = some i → p = groupPort e i → s.mayTrain p = true → p < 48 →
    (s.fport p).phase = .down ∨ (s.fport p).phase = .training → m = bits (field b 1 2) 13 0 → s.namedPeer p ≠ some m ∨ bits (field b 1 2) 15 14 ≠ 0 →
    ∃ u : State, exec (.ts1 e lane b) s = .next (u.raise (p / 6) 0x4A01 (.fport (p % 6)) 0 m) ∧ (u.fport p).phase = .miscabled ∧ (u.fport p).peer = m ∧
      u = { s with fab := u.fab }) ∧
  (∀ (s : State) (p : Nat), p < 56 → (s.fport p).phase = .training → (s.fport p).rate = false →
    (∀ en ∈ s.portLanes p, (s.lane en.1 en.2).ts1 = true ∧ (s.lane en.1 en.2).countdown = true) →
    ∃ t, exec (.rateChange p) s = .next t ∧ (t.fport p).rate = true ∧ (t.fport p).phase = (if 48 ≤ p then .up else .training) ∧
      (p < 48 → s.modeOf p ≠ 0 → (t.fport p).eq = true) ∧ (∀ en ∈ s.portLanes p, (t.lane en.1 en.2).countdown = false ∧ (t.lane en.1 en.2).ts2 = 0) ∧
      t = { s with free := t.free, sent := t.sent, fab := t.fab }) ∧
  (∀ (s : State) (e lane i p : Nat) (b : List Byte), s.blockOn e lane 4 b = true → s.logicalOf e lane = some i → p = groupPort e i →
    (s.fport p).phase = .training → (s.fport p).rate = true →
    ∃ t, exec (.ts2 e lane b) s = .next t ∧ t.lane e lane = { s.lane e lane with ts2 := min 16 ((s.lane e lane).ts2 + 1) } ∧
      ((s.fport p).eq = false ∨ 48 ≤ p → (t.fport p).phase = .training) ∧
      ((∃ a, p < 48 ∧ (s.fport p).eq = true ∧ (e, lane) ∈ s.portLanes p ∧ 15 ≤ (s.lane e lane).ts2 ∧ ∀ en ∈ s.portLanes p, (s.lane en.1 en.2).am = some a ∧
        (en ≠ (e, lane) → 16 ≤ (s.lane en.1 en.2).ts2)) → (t.fport p).phase = .up) ∧ t = { s with sent := t.sent, fab := t.fab }) ∧
  (∀ (s : State) (e lane i : Nat) (b : List Byte), s.blockOn e lane 2 b = true → s.logicalOf e lane = some i → (s.fport (groupPort e i)).phase ≠ .training →
    ∃ t, exec (.am e lane b) s = .next t ∧ t.lane e lane = { s.lane e lane with am := some (field b 2 2) } ∧ t = { s with fab := t.fab }) ∧
  (∀ (s : State) (e lane : Nat), e < 16 → lane < 36 →
    ∃ t, exec (.idle e lane) s = .next t ∧ t.lane e lane = { s.lane e lane with ts2 := 0 } ∧ t = { s with fab := t.fab }) ∧
  (∀ (s : State) (e lane i x p : Nat), e < 16 → lane < 36 → (s.lane e lane).failed = false → s.logicalOf e lane = some i → p = groupPort e i →
    (s.fport p).phase = .training → (s.engine e).map.length = 32 → (s.freeSpares e).head? = some x →
    ∃ t, exec (.laneTrainTimeout e lane) s = .next t ∧ (t.lane e lane).failed = true ∧ t.physOf e i = x ∧ (∀ j, j ≠ i → t.physOf e j = s.physOf e j) ∧
      t = { s with sent := t.sent, fab := t.fab }) ∧
  (∀ (s : State) (p : Nat), p < 56 → (s.fport p).phase = .training →
    ∃ t, exec (.portTrainRestart p) s = .next t ∧ (t.fport p).phase = .training ∧ (t.fport p).rate = false ∧
      (∀ en ∈ s.portLanes p, (t.lane en.1 en.2).ts1 = false ∧ (t.lane en.1 en.2).ts2 = 0 ∧ (t.lane en.1 en.2).am = none) ∧
      (∀ en ∈ s.portLanes p, (s.lane en.1 en.2).lit = true →
        Sent.block en.1 en.2 (s.tsBlock 3 en.1 en.2 ((s.logicalOf en.1 en.2).getD en.2) 2 0 0xFFFF) ∈ t.sent) ∧
      t = { s with sent := t.sent, fab := t.fab })

/-- Replay, wake and host lanes (R364, R368, R380, R381, R496): without ACK progress every outstanding flit goes out again with the latest ACK, a port after eight replays trains anew; a WAKE on a keep-alive
port wakes the module; a host lane with block alignment reports its receiver, and enters and leaves electrical idle. -/
def Obligations.PortsReplayAndWake : Prop :=  (∀ (s : State) (p : Nat), p < 48 → (s.fport p).phase = .up ∨ (s.fport p).phase = .keepAlive → (s.fport p).flits ≠ [] → (s.fport p).resends < 8 →
    ∃ t, exec (.replayTimeout p) s = .next t ∧ t.fport p = { s.fport p with resends := (s.fport p).resends + 1 } ∧
      t.sent = s.sent ++ (s.fport p).flits.map (fun fl => Sent.flit p (flitBytes fl (s.fport p).ack false)) ∧
      t.regs = (s.countFld (p / 6) (p / 3 % 2) 0 OE_REPLAY.REPLAYS 1).regs ∧ t = { s with sent := t.sent, regs := t.regs, fab := t.fab }) ∧
  (∀ (s : State) (p : Nat), p < 48 → (s.fport p).phase = .up → (s.fport p).flits ≠ [] → 8 ≤ (s.fport p).resends →
    ∃ t, exec (.replayTimeout p) s = .next t ∧ (t.fport p).phase = .training ∧ t.regs = (s.countFld (p / 6) (p % 6 / 3) 0 OE_REPLAY.RETRAINS 1).regs ∧
      t = { s with sent := t.sent, regs := t.regs, fab := t.fab }) ∧
  (∀ (s : State) (p : Nat), p < 48 → (s.fport p).phase = .keepAlive → s.power.mode = .dormant →
    ∃ t, exec (.wakeBlock p) s = .next t ∧ t.power = { s.power with mode := .waking, phasesOn := 18, heldWork := false } ∧ (t.fport p).phase = .training ∧ t.mem = s.mem) ∧
  (∀ (s : State) (e lane i : Nat), e < 16 → lane < 36 → (s.lane e lane).lit = true → s.logicalOf e lane = some i → 24 ≤ i → (s.fport (groupPort e i)).rate = true →
    ∃ t, exec (.blockAlignmentFound e lane) s = .next t ∧ t.lane e lane = { s.lane e lane with aligned := true } ∧ hostLane e i ∈ (t.port (e / 2)).lanesSeen ∧
      t = { s with fab := t.fab, ports := t.ports }) ∧
  (∀ (s : State) (e lane : Nat), e < 16 → lane < 36 → (s.lane e lane).aligned = true →
    (∃ t, exec (.eidle e lane) s = .next t ∧ t.lane e lane = { s.lane e lane with eidle := true } ∧ t = { s with fab := t.fab }) ∧
    ∃ t, exec (.fillBlock e lane) s = .next t ∧ t.lane e lane = { s.lane e lane with eidle := false } ∧ t = { s with fab := t.fab })

/-- Spare lanes and calibration (R372 to R374, R376, R377, R379): a failed lane of an up port asks for the lowest free spare; the peer's request moves the lane and is
answered; the answer ends the swap, with a NAK; without a spare the port narrows; a calibration moves an active lane away and back. Lasers (R361, R378): the first
failure of a wavelength's laser puts the spare in and holds the peer, the second darkens the wavelength and its nine lanes; the relocked spare carries traffic again; a
peer's hold stands until it expires. -/
def Obligations.FailedLanesAndLasersAreReplaced : Prop :=
  ((∀ (s : State) (e lane i x p : Nat), e < 16 → lane < 36 → s.boot.lasersOn = true → (s.lane e lane).failed = false → (s.engine e).held.contains (lane % 4) = false →
    (s.engine e).cal = none → s.logicalOf e lane = some i → i < 24 → p = groupPort e i → (s.fport p).phase = .up → (s.fport p).swap = none → (e, lane) ∈ s.portLanes p →
    (∀ en ∈ s.portLanes p, (s.lane en.1 en.2).failed = false) → (s.freeSpares e).head? = some x →
    ∃ t, exec (.laneFail e lane) s = .next t ∧ (t.lane e lane).failed = true ∧ (t.fport p).swap = some ⟨i, lane, x, 1⟩ ∧
      (t.fport p).epoch = ((s.fport p).epoch + 1) % 256 ∧
      (∀ en ∈ s.portLanes p, en ≠ (e, lane) → Sent.block en.1 en.2 (ctlBlock 5 (leBytes 1 i ++ leBytes 1 x ++ leBytes 1 (t.fport p).epoch ++ leBytes 1 1)) ∈ t.sent) ∧
      t = { s with sent := t.sent, flash := t.flash, fcu := t.fcu, regs := t.regs, fab := t.fab }) ∧
  (∀ (s : State) (e lane : Nat), e < 16 → lane < 36 → s.boot.lasersOn = true → (s.lane e lane).failed = false → (s.engine e).held.contains (lane % 4) = false →
    (s.engine e).cal = none → s.logicalOf e lane = none →
    ∃ t, exec (.laneFail e lane) s = .next t ∧ t.lane e lane = { freshLane with failed := true, fails := (s.lane e lane).fails + 1 } ∧ t = { s with fab := t.fab }) ∧
  (∀ (s : State) (e i x ep p : Nat) (b : List Byte), e < 16 → b.length = 32 → field b 0 1 = 5 → field b 1 1 = i → field b 2 1 = x → field b 3 1 = ep → i < 24 → x < 36 →
    p = groupPort e i → (s.fport p).phase = .up → (s.fport p).swap = none → newer (s.fport p).epoch ep = true → s.logicalOf e x = none → (s.engine e).cal = none →
    (s.engine e).map.length = 32 → (s.engine e).map.Nodup → (s.lane e x).failed = false → (∀ en ∈ s.portLanes p, en.2 ≠ s.physOf e i → (s.lane en.1 en.2).failed = false) →
    ∃ t, exec (.swapReq e b) s = .next t ∧ t.physOf e i = x ∧ (t.lane e (s.physOf e i)).failed = true ∧ (t.fport p).epoch = ep ∧ (t.fport p).swap = none ∧
      (∀ en ∈ t.portLanes p, Sent.block en.1 en.2 (ctlBlock 6 ((b.drop 1).take 4)) ∈ t.sent) ∧ t.mem = s.mem) ∧
  (∀ (s : State) (e i p : Nat) (b : List Byte) (w : Swap), e < 16 → b.length = 32 → field b 0 1 = 6 → field b 1 1 = i → i < 24 → p = groupPort e i →
    (s.fport p).phase = .up → (s.fport p).swap = some w → w.logical = i → w.old = s.physOf e i → w.spare = field b 2 1 → (s.fport p).epoch = field b 3 1 → w.spare < 36 →
    (s.engine e).map.length = 32 → (s.engine e).map.Nodup → s.logicalOf e w.spare = none → (s.lane e w.spare).failed = false → (∀ en ∈ s.portLanes p, en.2 ≠ w.old → (s.lane en.1 en.2).failed = false) →
    (s.fport p).flits.length < 2048 →
    ∃ t, exec (.swapAck e b) s = .next t ∧ t.physOf e i = w.spare ∧ (t.fport p).swap = none ∧ (t.fport p).naked = true ∧
      t.regs = (s.countFld (e / 2) (e % 2) 0 OE_SWAP_COUNT.FAULT 1).regs ∧ t = { s with sent := t.sent, regs := t.regs, fab := t.fab }) ∧
  (∀ (s : State) (e p i h : Nat), p < 48 → (s.fport p).half = none → h < 2 →
    (∀ k, k < 2 → ((List.range 4).all fun j => !(s.lane e (s.physOf e (portBase p + 4 * k + j))).failed) = decide (k = h)) →
    ((s.narrowPort p e i).fport p).half = some h ∧ ((s.narrowPort p e i).fport p).phase = .training) ∧
  (∀ (s : State) (e i x y : Nat) (rest : List Nat), e < 16 → s.boot.lasersLocked = true → s.fld (e / 2) (e % 2) 0 OE_CAL_CFG.PERIOD ≠ 0 → (s.engine e).cal = none →
    (s.engine e).map.length = 32 → (∀ n, n < 36 → (s.lane e n).failed = false) →
    ((List.range 32).map fun j => ((s.engine e).calNext + j) % 32).find? (s.laneActive e) = some i → s.freeSpares e = x :: y :: rest →
    ∃ t, exec (.calibrationStep e) s = .next t ∧ t.physOf e i = x ∧ (t.engine e).cal = some ⟨i, s.physOf e i, x, false⟩ ∧ (t.engine e).calNext = (i + 1) % 32 ∧
      t = { s with free := t.free, sent := t.sent, regs := t.regs, fab := t.fab }) ∧
  (∀ (s : State) (e : Nat) (c : Calibration), (s.engine e).cal = some c → c.byPeer = false → c.logical < 32 → (s.engine e).map.length = 32 →
    ∃ t, exec (.calibrationComplete e) s = .next t ∧ t.physOf e c.logical = c.own ∧ (t.engine e).cal = none ∧
      t = { s with free := t.free, sent := t.sent, regs := t.regs, fab := t.fab }) ∧
  (∀ (s : State) (e i x : Nat) (b : List Byte), e < 16 → b.length = 32 → field b 0 1 = 7 → field b 1 1 = i → field b 2 1 = x → i < 32 → x < 36 →
    newer (s.fport (groupPort e i)).epoch (field b 3 1) = true → s.logicalOf e x = none → (s.engine e).cal = none → (s.engine e).map.length = 32 →
    ∃ t, exec (.calMove e b) s = .next t ∧ t.physOf e i = x ∧ (t.engine e).cal = some ⟨i, s.physOf e i, x, true⟩ ∧
      (t.fport (groupPort e i)).epoch = field b 3 1 ∧ t = { s with regs := t.regs, fab := t.fab })) ∧
  ((∀ (s : State) (e w : Nat), e < 16 → w < 4 → s.boot.lasersOn = true → w ∉ (s.engine e).dark → w ∉ (s.engine e).spare →
    ∃ t, exec (.laserFail e w) s = .next t ∧ (t.engine e).spare = (s.engine e).spare ++ [w] ∧ (t.engine e).relock = (s.engine e).relock ++ [w] ∧
      (∀ p, p = 3 * e ∨ p = 3 * e + 1 ∨ p = 3 * e + 2 → (s.fport p).phase = .up → ∀ en ∈ s.portLanes p, en.2 % 4 ≠ w →
        Sent.block en.1 en.2 (ctlBlock 8 (leBytes 1 w ++ leBytes 2 40)) ∈ t.sent) ∧ t.fab.lanes = s.fab.lanes ∧
      t = { s with free := t.free, sent := t.sent, flash := t.flash, fcu := t.fcu, regs := t.regs, fab := t.fab }) ∧
  (∀ (s : State) (e w : Nat), e < 16 → w < 4 → s.boot.lasersOn = true → w ∉ (s.engine e).dark → w ∈ (s.engine e).spare →
    ∃ t, exec (.laserFail e w) s = .next t ∧ w ∈ (t.engine e).dark ∧ w ∉ (t.engine e).relock ∧ (∀ n, n < 36 → n % 4 = w → (t.lane e n).failed = true) ∧ t.mem = s.mem) ∧
  (∀ (s : State) (e w : Nat), e < 16 → w ∈ (s.engine e).relock →
    ∃ t, exec (.laserRelock e w) s = .next t ∧ (t.engine e).relock = (s.engine e).relock.filter (· ≠ w) ∧ t = { s with sent := t.sent, fab := t.fab }) ∧
  (∀ (s : State) (e w : Nat) (b : List Byte), e < 16 → b.length = 32 → field b 0 1 = 8 → field b 1 1 = w → w < 4 → w ∉ (s.engine e).held →
    ∃ t, exec (.hold e b) s = .next t ∧ t.engine e = { s.engine e with held := (s.engine e).held ++ [w] } ∧ t = { s with fab := t.fab }) ∧
  (∀ (s : State) (e w : Nat), e < 16 →
    ∃ t, exec (.holdExpiry e w) s = .next t ∧ t.engine e = { s.engine e with held := (s.engine e).held.filter (· ≠ w) } ∧ t = { s with fab := t.fab }))

/-! ### Host ports -/

/-- Links, decoders, resets and Bus Master Enable (R58, R59, R159, R296, R322, R356, R387, R388, R391, R392, R395 to R397). -/
def Obligations.HostPortsComeUpAndReset : Prop :=  (∀ (s : State) (p partner speed width proto : Nat), p < 8 → partner ≤ 4 → 1 ≤ speed → speed ≤ 6 → [1, 2, 4, 8, 16].contains width = true → s.boot.lasersOn = true →
    (s.port p).heldDown = false → (s.port p).proto = 0 → proto = trainedProto (s.fld p 0 0 HP_CFG.ALLOWED) partner speed →
    ∃ t, exec (.hostLinkUp p partner speed width) s = .next t ∧ (t.port p).proto = proto ∧ (t.port p).width = width ∧ (t.port p).memInfoValid = true ∧
      (t.port p).speed = (if (proto = 1 ∨ proto = 3 ∨ proto = 4) ∧ 5 < speed then 5 else speed) ∧ ((t.port p).memActive = true ↔ s.power.mode = .ready) ∧
      ((t.port p).ioOnly = true ↔ (proto = 3 ∨ proto = 4) ∧ (s.fld p 0 0 HP_CFG.ALLOWED = 0 ∨ s.fld p 0 0 HP_CFG.ALLOWED = 3) ∧ s.windowShared p = true) ∧
      ((t.port p).ioOnly = false → t = { s with ports := t.ports }) ∧ t = { s with ports := t.ports, regs := t.regs, flash := t.flash, fcu := t.fcu }) ∧
  (∀ allowed partner speed : Nat, 1 ≤ speed → speed ≤ 6 → partner ≤ 4 → allowed ≤ 3 →
    (trainedProto allowed partner speed = 5 ↔ allowed = 3 ∧ partner = 4 ∧ speed = 6) ∧
    (trainedProto allowed partner speed = 3 ↔ 1 ≤ allowed ∧ 2 ≤ partner ∧ (allowed = 1 ∨ partner = 2)) ∧
    (trainedProto allowed partner speed = 1 ∨ trainedProto allowed partner speed = 2 ↔ allowed = 0 ∨ partner ≤ 1)) ∧
  (∀ (s : State) (p n base size ways gran skip : Nat) (ok : Bool), p < 8 → n < 4 → mfind (s.port p).decoders n = none → (s.port p).proto = 4 ∨ (s.port p).proto = 5 →
    ok = s.commitOk p n ⟨base, size, ways, gran, skip, true, false⟩ →
    ∃ t, exec (.hdmDecoderCommit p n base size ways gran skip) s = .next t ∧
      mfind (t.port p).decoders n = some ⟨base, size, ways, gran, skip, ok, !ok⟩ ∧ t = { s with ports := t.ports }) ∧
  (∀ (s : State) (p n base size ways gran skip : Nat) (x : Decoder), mfind (s.port p).decoders n = some x → x.committed = true →
    exec (.hdmDecoderCommit p n base size ways gran skip) s = .next s) ∧
  (∀ (s : State) (p : Nat), p < 8 → (∀ y ∈ s.ldr.tasks, y.owner ≠ senderHost p 0) →
    ∃ t, exec (.hotReset p) s = .next t ∧ (t.port p).proto = 0 ∧ (t.port p).decoders = [] ∧ (t.port p).range1 = 0 ∧ (t.port p).flip = none ∧
      (∀ q, q ≠ p → t.port q = s.port q) ∧ (∀ x ∈ t.mem.dir, ∀ q ∈ x.ports, q.1 ≠ p) ∧ (∀ x ∈ t.mem.snoops, x.port ≠ p) ∧
      (∀ x ∈ t.mem.held, ∀ rid, x.ag ≠ .host p rid) ∧ t.mem.cells = s.mem.cells ∧
      (∀ x ∈ t.notices, s.hostSlot p x.d x.k x.n = false) ∧ (∀ x ∈ t.slots, s.ownsSlot p (x.1 / 4096) (x.1 % 4096) = false) ∧
      t = { s with ports := t.ports, mem := t.mem, notices := t.notices, slots := t.slots, seqs := t.seqs }) ∧
  (∀ (s : State) (p : Nat), p < 8 → (∀ y ∈ s.ldr.tasks, y.owner ≠ senderHost p 0) →
    ∃ t, exec (.flr p) s = .next t ∧ t.ports = s.ports ∧ t.mem = { s.mem with held := t.mem.held } ∧ (∀ x ∈ t.mem.held, ∀ rid, x.ag ≠ .host p rid) ∧
      (∀ x ∈ t.notices, s.hostSlot p x.d x.k x.n = false) ∧ t = { s with mem := t.mem, notices := t.notices, slots := t.slots, seqs := t.seqs }) ∧
  (∀ (s : State) (p : Nat), p < 8 → (∀ y ∈ s.ldr.tasks, y.owner ≠ senderHost p 0) →
    ∃ t, exec (.cxlReset p) s = .next t ∧ t.ports = s.ports ∧ (∀ x ∈ t.mem.dir, ∀ q ∈ x.ports, q.1 ≠ p) ∧ (∀ x ∈ t.mem.held, ∀ rid, x.ag ≠ .host p rid) ∧
      t.mem.cells = s.mem.cells ∧ t = { s with mem := t.mem, notices := t.notices, slots := t.slots, seqs := t.seqs }) ∧
  (∀ (s : State) (p : Nat) (c : Instr), p < 8 → c = .hotReset p ∨ c = .flr p ∨ c = .cxlReset p → ∃ t, exec c s = .next t ∧ ∀ y ∈ t.ldr.tasks, y.owner ≠ senderHost p 0) ∧
  (∀ (s : State) (p : Nat), p < 8 → s.farPort = some p →
    (∃ t, exec (.hostFlushTimeout p) s = .next t ∧ t.kv.unreachable = true) ∧ ∃ t, exec (.busMasterEnableWrite p false) s = .next t ∧ t.kv.unreachable = true ∧
      (t.port p).busMaster = false) ∧
  (∀ (s : State) (p : Nat), p < 8 → s.farPort ≠ some p →
    exec (.hostFlushTimeout p) s = .next s ∧ exec (.busMasterEnableWrite p false) s = .next (s.onPort p fun x => { x with busMaster := false })) ∧
  (∀ (s : State) (p : Nat), p < 8 →
    ∃ t, exec (.busMasterEnableWrite p true) s = .next t ∧ t.port p = { s.port p with busMaster := true, msixPending := [] } ∧
      t.sent = s.sent ++ (s.port p).msixPending.map (fun v => Sent.msix p v) ∧ t = { s with ports := t.ports, sent := t.sent })

/-- Bias flips (R394): START takes the pages named, or sets its error; a page flips towards device bias once its lines are obtained, and towards host bias once no sequence holds a row of it. -/
def Obligations.BiasFlipsPageByPage : Prop :=  (∀ (s : State) (p : Nat), p < 8 → (s.port p).flip = none → biasPort (s.port p) = true → ((s.port p).biasPage + (s.port p).biasCount + 1) * 4096 ≤ dpaSize (s.window p) →
    (∃ t, exec (.biasFlipDevice p) s = .next t ∧ (t.port p).flip = some ⟨true, (s.port p).biasPage, (s.port p).biasPage + (s.port p).biasCount⟩ ∧ (t.port p).biasDone = 0 ∧
      (∀ q ∈ s.pageLines p (s.port p).biasPage, q / 64 ∉ s.mem.owned → (⟨p, q / 64, .rdOwn⟩ : Snoop) ∈ t.mem.snoops) ∧
      t = { s with ports := t.ports, sent := t.sent, mem := { s.mem with snoops := t.mem.snoops } }) ∧
    ∃ t, exec (.biasFlipHost p) s = .next t ∧ (t.port p).flip = some ⟨false, (s.port p).biasPage, (s.port p).biasPage + (s.port p).biasCount⟩ ∧ (t.port p).biasDone = 0 ∧
      t = { s with ports := t.ports }) ∧
  (∀ (s : State) (p : Nat), p < 8 → (s.port p).flip = none → biasPort (s.port p) = false ∨ dpaSize (s.window p) < ((s.port p).biasPage + (s.port p).biasCount + 1) * 4096 →
    (∃ t, exec (.biasFlipDevice p) s = .next t ∧ t.port p = { s.port p with biasTarget := true, errRange := true } ∧ t = { s with ports := t.ports }) ∧
    ∃ t, exec (.biasFlipHost p) s = .next t ∧ t.port p = { s.port p with biasTarget := false, errRange := true } ∧ t = { s with ports := t.ports }) ∧
  (∀ (s : State) (p : Nat), p < 8 → (s.port p).flip.isSome = true →
    (∃ t, exec (.biasFlipDevice p) s = .next t ∧ t.port p = { s.port p with errBusy := true } ∧ t.regs = s.regs) ∧
    ∃ t, exec (.biasFlipHost p) s = .next t ∧ t.port p = { s.port p with errBusy := true } ∧ t = { s with ports := t.ports }) ∧
  (∀ (s : State) (p : Nat) (f : Flip), (s.port p).flip = some f → s.pageFlips p f.next f.toDevice = true →
    ∃ t, exec (.biasPageFlipped p) s = .next t ∧ (t.port p).devBias = (f.next, f.next, f.toDevice) :: (s.port p).devBias ∧ (t.port p).biasDone = (s.port p).biasDone + 1 ∧
      (t.port p).flip = (if f.next < f.last then some { f with next := f.next + 1 } else none) ∧
      t = { s with ports := t.ports, sent := t.sent, mem := { s.mem with snoops := t.mem.snoops, obtained := t.mem.obtained, owned := t.mem.owned } }) ∧
  (∀ (s : State) (p : Nat) (f : Flip), (s.port p).flip = some f → s.pageFlips p f.next f.toDevice = false → exec (.biasPageFlipped p) s = .next s) ∧
  ∀ (s : State) (p page : Nat),
    (s.pageFlips p page true = true ↔ ∀ q ∈ s.pageLines p page, q / 64 ∈ s.mem.owned) ∧
    (s.pageFlips p page false = true ↔ ∀ q ∈ s.pageLines p page, s.seqHolds (bankOf q) = false)

/-! ### Transfers, attestation and the I3C address -/

/-- Transfers of images and records over DOE (R437, R438, R450 to R453): BEGIN starts one, DATA carries the next bytes, END checks and stages or stores, STATUS tells whether one runs; the boot ROM writes
an image that verifies and resets. -/
def Obligations.TransfersStageAndStore : Prop :=  (∀ (s : State) (p kind n : Nat), s.doeServed p = true → (∀ x, s.boot.transfer = some x → x.path = p) → kind = 1 ∨ kind = 2 → n ≤ transferMax kind →
    ∃ t, exec (.begin p kind n) s = .next t ∧ t.boot = { s.boot with transfer := some ⟨p, kind, n, []⟩, staged := if kind = 1 then none else s.boot.staged } ∧
      t.sent = s.sent ++ [.doe p (leBytes 1 1 ++ leBytes 1 kind ++ leBytes 2 0 ++ leBytes 4 0)] ∧ t = { s with boot := t.boot, sent := t.sent }) ∧
  (∀ (s : State) (p kind n : Nat) (x : Transfer), s.doeServed p = true → s.boot.transfer = some x → x.path ≠ p →
    exec (.begin p kind n) s = .next (s.doeAnswer p 1 kind 2 0)) ∧
  (∀ (s : State) (p kind n : Nat), s.doeServed p = true → (∀ x, s.boot.transfer = some x → x.path = p) → (kind ≠ 1 ∧ kind ≠ 2) ∨ transferMax kind < n →
    exec (.begin p kind n) s = .next (s.doeAnswer p 1 kind 3 0x0002)) ∧
  (∀ (s : State) (b : List Byte) (x : Transfer), s.doeServed x.path = true → s.boot.transfer = some x → 4 ≤ b.length → b.length ≤ 4096 → x.got.length + b.length ≤ x.total →
    ∃ t, exec (.data x.path x.kind x.got.length b) s = .next t ∧ t.boot = { s.boot with transfer := some { x with got := x.got ++ b } } ∧
      t.sent = s.sent ++ [.doe x.path (leBytes 1 2 ++ leBytes 1 x.kind ++ leBytes 2 0 ++ leBytes 4 0)] ∧ t = { s with boot := t.boot, sent := t.sent }) ∧
  (∀ (s : State) (off : Nat) (b : List Byte) (x : Transfer), s.doeServed x.path = true → s.boot.transfer = some x → off ≠ x.got.length →
    exec (.data x.path x.kind off b) s = .next (s.doeAnswer x.path 2 x.kind 3 0x0002)) ∧
  (∀ (s : State) (sigOk : Bool) (r : Option Record) (x : Transfer), s.doeServed x.path = true → s.boot.transfer = some x → x.kind = 1 → x.got.length = x.total →
    ∃ t, exec (.transferEnd x.path 1 sigOk r) s = .next t ∧ t.boot.transfer = none ∧
      t.boot.staged = (if fwAccepted x.got sigOk = true ∧ s.fuses.svnFloor ≤ fwSvn x.got then some x.got else none) ∧ t.flash = s.flash ∧
      t = { s with boot := t.boot, sent := t.sent }) ∧
  (∀ (s : State) (sigOk : Bool) (r : Record) (x : Transfer), s.doeServed x.path = true → s.boot.transfer = some x → x.kind = 2 → x.got.length = x.total →
    recordTrusted s.fuses r sigOk = true → sectionFault r = none →
    ∃ t, exec (.transferEnd x.path 2 sigOk (some r)) s = .next t ∧ t.boot = { s.boot with transfer := none } ∧
      t.flash = { s.flash with record := some r, recordBytes := x.got } ∧ t.fuses = { s.fuses with ownerDigest := t.fuses.ownerDigest } ∧
      t.fuses.ownerDigest = (if s.fuses.ownerDigest = none then some (Config.sha3 (ownerKey0 r)) else s.fuses.ownerDigest) ∧
      t = { s with boot := t.boot, sent := t.sent, flash := t.flash, fuses := t.fuses }) ∧
  (∀ (s : State) (sigOk : Bool) (r : Option Record) (x : Transfer), s.doeServed x.path = true → s.boot.transfer = some x → x.kind = 2 →
    (∀ y, r = some y → recordTrusted s.fuses y sigOk = false) →
    ∃ t, exec (.transferEnd x.path 2 sigOk r) s = .next t ∧ t.flash = s.flash ∧ t.fuses = s.fuses ∧
      t.sent = s.sent ++ [.doe x.path (leBytes 1 3 ++ leBytes 1 2 ++ leBytes 2 3 ++ leBytes 4 0x0098)]) ∧
  (∀ (s : State) (p kind : Nat), s.doeServed p = true →
    exec (.transferStatus p kind) s = .next (s.doeAnswer p 4 kind (if s.boot.transfer.isSome then 2 else 0) 0)) ∧
  (∀ (s : State) (sigOk : Bool) (img : List Byte), s.boot.staged = some img → s.romTakesImage = true → s.boot.recoveryPost = none → s.fwRuns img sigOk = true →
    exec (.recoveryImage sigOk) s = .next (({ s with flash := { s.flash with fw := img } } : State).moduleReset 3 .booting)) ∧
  (∀ (s : State) (sigOk : Bool) (img : List Byte), s.boot.staged = some img → s.romTakesImage = true → s.boot.recoveryPost = none → s.fwRuns img sigOk = false →
    exec (.recoveryImage sigOk) s = .next { s with boot := { s.boot with staged := none, recoveryPost := none } })

/-- Attestation and the I3C address (R448, R449, R500): each request is answered at its stage of the connection, with the version, what it can do and the algorithms, the digest of slot 0's chain, its bytes,
the number of measurement blocks, or one of them, signed; the address is taken once. The bytes around these are the model's layout (PRESUMED). -/
def Obligations.AttestationAnswersAndAddressIsTaken : Prop :=  (∀ (s : State) (p n : Nat) (c : Instr), (c, n) ∈ [(Instr.getCapabilities p, 1), (.negotiateAlgorithms p, 2), (.getDigests p, 3), (.challenge p 0, 3), (.getMeasurements p 0xFF, 3)] →
    s.spdmServed p = true → mget 0 s.mgmt.spdm p < n → exec c s = .next { s with sent := s.sent ++ [.doe p [0x13, 0x7F, 0x04, 0]] }) ∧
  (∀ (s : State) (p : Nat), s.spdmServed p = true →
    ∃ t, exec (.getVersion p) s = .next t ∧ mget 0 t.mgmt.spdm p = 1 ∧ t.sent = s.sent ++ [.doe p [0x10, 0x04, 0, 0, 0, 1, 0x00, 0x13]] ∧ t = { s with mgmt := { s.mgmt with spdm := t.mgmt.spdm }, sent := t.sent }) ∧
  (∀ (s : State) (p : Nat), s.spdmServed p = true → mget 0 s.mgmt.spdm p = 1 →
    ∃ t, exec (.getCapabilities p) s = .next t ∧ mget 0 t.mgmt.spdm p = 2 ∧ t.sent = s.sent ++ [.doe p ([0x13, 0x61, 0, 0] ++ leBytes 4 0x16)] ∧ t = { s with mgmt := { s.mgmt with spdm := t.mgmt.spdm }, sent := t.sent }) ∧
  (∀ (s : State) (p : Nat), s.spdmServed p = true → 2 ≤ mget 0 s.mgmt.spdm p →
    ∃ t, exec (.negotiateAlgorithms p) s = .next t ∧ mget 0 t.mgmt.spdm p = 3 ∧
      t.sent = s.sent ++ [.doe p ([0x13, 0x63, 0, 0] ++ leBytes 4 0 ++ leBytes 2 0x1F6E ++ leBytes 2 0x0001 ++ leBytes 4 8 ++ leBytes 4 8)] ∧ t = { s with mgmt := { s.mgmt with spdm := t.mgmt.spdm }, sent := t.sent }) ∧
  (∀ (s : State) (p off len : Nat), s.spdmServed p = true → mget 0 s.mgmt.spdm p = 3 →
    exec (.getDigests p) s = .next { s with sent := s.sent ++ [.doe p ([0x13, 0x01, 0, 1] ++ leBytes 32 (Config.sha3 s.flash.cert))] } ∧
    (∃ h, h.length = 8 ∧ exec (.getCertificate p 0 off len) s = .next { s with sent := s.sent ++ [.doe p (h ++ (s.flash.cert.drop off).take len)] }) ∧
    (∃ t h sig, exec (.challenge p 0) s = .next t ∧ h.length = 4 ∧ sig.length = 2420 ∧
      t = { s with free := t.free, sent := s.sent ++ [.doe p (h ++ leBytes 32 (Config.sha3 s.flash.cert) ++ sig)] }) ∧
    exec (.getMeasurements p 0) s = .next { s with sent := s.sent ++ [.doe p [0x13, 0x60, 6, 0]] } ∧
    (∀ i, 1 ≤ i → i ≤ 6 → ∃ t h sig, exec (.getMeasurements p i) s = .next t ∧ h.length = 5 ∧ sig.length = 2420 ∧
      t = { s with free := t.free, sent := s.sent ++ [.doe p (h ++ s.measurement i ++ sig)] })) ∧
  (∀ s : State, s.power.mode ≠ .off → s.power.i3cDynamic = none →
    exec .setdasa s = .next { s with power := { s.power with i3cStatic := some (0x50 + s.power.straps), i3cDynamic := some (0x50 + s.power.straps) } } ∧
    ∀ a, a < 128 → exec (.entdaa a) s = .next { s with power := { s.power with i3cDynamic := some a } }) ∧
  (∀ (s : State) (a x : Nat), s.power.i3cDynamic = some x → exec .setdasa s = .next s ∧ exec (.entdaa a) s = .next s)

/-! ### The fabric -/

/-- Frames as they arrive (R409, R412, R414 to R418, R422, R466): a frame of a wrong class is discarded and counted, one with a bad check recorded; credits add up; DOWN
and UP of a neighbour mark and clear a module; responses end their requests, and a notice that was turned away is kept. Flits, promotion and timeouts (R367, R368, R413,
R416): a flit out of order or with a bad check is not accepted and draws one NAK; a null flit in order is accepted; a frame that waited too long goes up in rank; a
request without a response ends REFUSED and is counted. -/
def Obligations.FramesAndFlitsAreCheckedAndDelivered : Prop :=
  ((∀ (s : State) (p ty : Nat) (f : List Byte) (c : Instr), (c, ty) ∈ [(Instr.read p f, 0x01), (.write p f, 0x02), (.notice p f, 0x03), (.readRsp p f, 0x11), (.writeRsp p f, 0x12),
      (.noticeRsp p f, 0x13), (.coll p f, 0x21), (.credit p f, 0x31), (.down p f, 0x32), (.up p f, 0x33)] → s.frameOn p ty f → frClass f ≠ classOf ty →
    ∃ t, exec c s = .next t ∧ t.regs = (s.countFld (p / 6) 0 0 CF_DENIED.DISCARD 1).regs ∧ t = { s with regs := t.regs, sent := t.sent, fab := t.fab }) ∧
  (∀ (s : State) (p ty d : Nat) (f : List Byte) (c : Instr), (c, ty) ∈ [(Instr.read p f, 0x01), (.write p f, 0x02), (.notice p f, 0x03), (.readRsp p f, 0x11), (.writeRsp p f, 0x12),
      (.noticeRsp p f, 0x13), (.coll p f, 0x21), (.credit p f, 0x31), (.down p f, 0x32), (.up p f, 0x33)] → s.frameOn p ty f → frClass f = classOf ty → bits (frHops f) 3 0 ≤ 6 →
    (bits (frHops f) 3 0 = 1 → carModule (frSrc f) = (s.fport p).peer) → carModule (frDst f) = s.moduleNo → d = carDie (frDst f) → frEcrc f ≠ field f 0x1C 4 →
    ∃ t u : State, exec c s = .next t ∧ u = (s.countFld d 0 0 CF_ERR.ECRC 1).raise d 0x4A02 (.fport (p % 6)) 0 (s.fport p).peer ∧
      t = { u with sent := t.sent, fab := t.fab }) ∧
  (∀ (s : State) (p : Nat) (f : List Byte), s.delivers p 0x31 f → (∀ q, (s.fport q).out = []) →
    ∃ t, exec (.credit p f) s = .next t ∧
      (∀ i, i < 12 → mget 0 (t.fport p).credits i = mget 0 (s.fport p).credits i + field (frPayload f) (2 * i) 2) ∧ t = { s with sent := t.sent, fab := t.fab }) ∧
  (∀ (s : State) (p m : Nat) (f : List Byte), s.delivers p 0x32 f → s.power.mode ≠ .safe → bits (frHops f) 3 0 = 1 → m = field (frPayload f) 0 2 → m ≠ s.moduleNo →
    ∃ t, exec (.down p f) s = .next t ∧ m ∈ t.fab.down ∧ ∀ n ∈ s.fab.down, n ∈ t.fab.down) ∧
  (∀ (s : State) (p m : Nat) (f : List Byte), s.delivers p 0x33 f → s.power.mode ≠ .safe → bits (frHops f) 3 0 = 1 → m = field (frPayload f) 0 2 →
    ∃ t, exec (.up p f) s = .next t ∧ m ∉ t.fab.down ∧ (∀ n ∈ s.fab.down, n ≠ m → n ∈ t.fab.down) ∧ t = { s with sent := t.sent, fab := t.fab }) ∧
  (∀ (s : State) (p ty : Nat) (f : List Byte) (q : CReq) (c : Instr), (c, ty) ∈ [(Instr.readRsp p f, 0x11), (.writeRsp p f, 0x12)] → s.delivers p ty f → s.power.mode ≠ .safe →
    (s.fab.reqs.find? fun r => r.result.isNone && decide (r.tag = frTag f ∧ r.dst = frSrc f ∧ rspType r.kind = ty)) = some q → q.owner.1 ≠ 9 →
    ∃ t, exec c s = .next t ∧ t.fab.reqs = s.fab.reqs.map (fun r => if r.tag = q.tag then { r with result := some (frStatus f, frPayload f) } else r) ∧
      t = { s with sent := t.sent, fab := t.fab }) ∧
  (∀ (s : State) (p : Nat) (f : List Byte) (q : CReq), s.delivers p 0x13 f → s.power.mode ≠ .safe →
    (s.fab.reqs.find? fun r => r.result.isNone && decide (r.tag = frTag f ∧ r.dst = frSrc f ∧ rspType r.kind = 0x13)) = some q → q.owner.1 = 9 →
    ∃ t, exec (.noticeRsp p f) s = .next t ∧ t.fab.reqs = s.fab.reqs.filter (fun r => r.tag ≠ q.tag) ∧
      t.kept = (if frStatus f = 0 then s.kept else s.kept ++ [⟨q.owner.2.1, .caravan (carModule q.dst) (carDie q.dst) (carAgent q.dst) q.addr, q.owner.2.2.1, q.owner.2.2.2⟩]) ∧
      t = { s with sent := t.sent, kept := t.kept, fab := t.fab })) ∧
  ((∀ (s : State) (p : Nat) (b : List Byte), p < 48 → b.length = 256 → (s.fport p).phase = .up → (s.fport p).swap = none →
    crc32c (b.take 252) ≠ field b 252 4 ∨ bits (field b 240 2) 11 0 ≠ (s.fport p).rxNext → (s.fport p).naked = false → (s.engine (p / 3)).held = [] → (s.fport p).flits.length < 2048 →
    ∃ t, exec (.flitReceive p b) s = .next t ∧ (t.fport p).rxNext = (s.fport p).rxNext ∧ (t.fport p).naked = true ∧
      t.sent = s.sent ++ [.flit p (flitBytes ⟨(s.fport p).txNext, false, padTo 240 0 []⟩ (s.fport p).ack true)] ∧ t = { s with sent := t.sent, fab := t.fab }) ∧
  (∀ (s : State) (p : Nat) (b : List Byte), p < 48 → b.length = 256 → (s.fport p).phase = .up → (s.fport p).swap = none →
    crc32c (b.take 252) ≠ field b 252 4 ∨ bits (field b 240 2) 11 0 ≠ (s.fport p).rxNext → (s.fport p).naked = true → exec (.flitReceive p b) s = .next s) ∧
  (∀ (s : State) (p : Nat) (b : List Byte), p < 48 → b.length = 256 → (s.fport p).phase = .up → (s.fport p).swap = none → crc32c (b.take 252) = field b 252 4 →
    bits (field b 240 2) 11 0 = (s.fport p).rxNext → bits (field b 240 2) 15 12 ≠ 0 → bit (field b 242 2) 13 = false →
    ∃ t, exec (.flitReceive p b) s = .next t ∧ (t.fport p).rxNext = ((s.fport p).rxNext + 1) % 4096 ∧ (t.fport p).naked = false ∧ t = { s with sent := t.sent, fab := t.fab }) ∧
  (∀ (s : State) (p n : Nat), p < 48 → n < (s.fport p).out.length → s.portCarries p = false →
    ∃ t, exec (.framePromote p n) s = .next t ∧ (∀ o, (s.fport p).out[n]? = some o →
      (t.fport p).out[n]? = some { o with bytes := splice o.bytes 0x18 (leBytes 1 (setBits (frHops o.bytes) 7 7 1)) }) ∧ t = { s with sent := t.sent, fab := t.fab }) ∧
  (∀ (s : State) (n : Nat) (q : CReq), s.fab.reqs[n]? = some q → q.result = none → q.owner.1 ≠ 9 →
    ∃ t, exec (.requestTimeout n) s = .next t ∧ t.regs = (s.countFld q.d 0 0 CF_ERR.TIMEOUT 1).regs ∧
      t.fab.reqs = s.fab.reqs.map (fun r => if r.tag = q.tag then { r with result := some (5, []) } else r) ∧ t = { s with regs := t.regs, fab := t.fab }))

/-- Requests of other modules (R409, R411, R417): from a partition in the mask, a READ answers the bytes of memory in its window and a WRITE stores its payload; a NOTICE is posted; from any other partition
the request is counted and changes nothing else. -/
def Obligations.PeersReadWriteAndPost : Prop :=  (∀ (s : State) (p d a n : Nat) (f : List Byte) (ag : Agent), s.delivers p 0x01 f → s.power.mode = .ready → s.partitionOk (frSrc f) = true → d = carDie (frDst f) → a = frAddr f →
    a % 64 = 0 → n = 64 * (bits (frOpt f) 4 0 + 1) → ag = .peer (frSrc f) d (frTag f) → s.reachable ag a n = true →
    (∀ q ∈ s.memLines a n, (s.stack (placedStack q)).stopped = false) → s.ready ag a n false = true → s.anyPoison a n = false →
    ∃ t, exec (.read p f) s = .next t ∧ Sent.reply ag (.data (s.readBytes a n) []) ∈ t.sent ∧ t.mem.cells = s.mem.cells ∧ t.mem.poison = s.mem.poison ∧ t.regs = s.regs) ∧
  (∀ (s : State) (p d a : Nat) (f b : List Byte) (ag : Agent), s.delivers p 0x02 f → s.power.mode = .ready → s.partitionOk (frSrc f) = true → s.boot.recovery = false →
    d = carDie (frDst f) → a = frAddr f → a % 64 = 0 → b = frPayload f → ag = .peer (frSrc f) d (frTag f) → s.reachable ag a b.length = true →
    (∀ q ∈ s.memLines a b.length, (s.stack (placedStack q)).stopped = false) → s.ready ag a b.length true = true →
    ∃ t, exec (.write p f) s = .next t ∧ Sent.reply ag .done ∈ t.sent ∧ t.mem.cells = (s.writePieces false (piecesOf a b.length) b).mem.cells ∧
      t.mem.poison = (s.writePieces false (piecesOf a b.length) b).mem.poison ∧ t.regs = s.regs) ∧
  (∀ (s u : State) (p d k n : Nat) (f : List Byte) (r : PostResult), s.delivers p 0x03 f → s.power.mode = .ready → s.partitionOk (frSrc f) = true → s.boot.recovery = false →
    noticeSlot (carDie (frDst f)) (carAgent (frDst f)) (frOpt f) = (d, k, n) →
    s.post (senderPeer (frSrc f)) d k n (field (frPayload f) 0 8) (field (frPayload f) 8 4) = (u, r) →
    ∃ t, exec (.notice p f) s = .next t ∧ t = { u with free := t.free, sent := t.sent, fab := t.fab }) ∧
  (∀ (s : State) (p ty d : Nat) (f : List Byte) (c : Instr), (c, ty) ∈ [(Instr.read p f, 0x01), (.write p f, 0x02), (.notice p f, 0x03)] → s.delivers p ty f → s.power.mode = .ready →
    d = carDie (frDst f) → s.partitionOk (frSrc f) = false →
    ∃ t, exec c s = .next t ∧ t.regs = (s.countFld d 0 0 CF_DENIED.PARTITION 1).regs ∧ t = { s with free := t.free, sent := t.sent, regs := t.regs, fab := t.fab })

/-- Collectives (R423 to R427): a descriptor that names nothing reserved and nothing out of reach starts its collective, any other completes with the first status that applies; a missing frame ends it REFUSED and an
abort of a member ends it RANGE; the partial of a child is merged into this member's; words are combined as REDOP says. -/
def Obligations.CollectivesStartMergeAndEnd : Prop :=  (∀ (s : State) (d n op : Nat) (x : Notice) (k : Coll) (c : Instr), (c, op) ∈ [(Instr.allreduce d n, 1), (.reducescatter d n, 2), (.allgather d n, 3), (.headmerge d n, 4)] →
    s.noticeAt d 4 n = some x → s.power.mode ≠ .safe → (s.fab.colls.filter fun y => y.d = d).length < 16 → s.posterReaches x.sender x.pointer 64 = true →
    s.ready (.coll d) x.pointer 64 true = true → k.d = d → k.slot = n → k.pointer = x.pointer → k.tag = x.tag → k.sender = x.sender → k.desc = s.seen x.pointer 64 →
    k.op = op → k.p = (s.collMembers k.group).length → k.index = (s.memberIndex d k.group).getD 0 → k.phase = 0 → k.step = 0 → k.chunks = [] → k.got = [] → k.part = Partial.empty 0 →
    k.kids = [] →
    (s.collFault k (s.memberIndex d k.group).isSome = none → s.ready (.coll d) k.src k.srcBytes false = true → s.ready (.coll d) k.dst k.dstBytes true = true →
      exec c s = .next (((((s.emptySlot d 4 n).runColl k).useObtained k.src k.srcBytes).useObtained k.dst k.dstBytes).useObtained x.pointer 64)) ∧
    ∀ st reason, s.collFault k (s.memberIndex d k.group).isSome = some (st, reason) →
      exec c s = .next (((s.emptySlot d 4 n).reportColl k st reason).useObtained x.pointer 64)) ∧
  (∀ (s : State) (d n : Nat) (k : Coll), (s.fab.colls.filter fun c => c.d = d)[n]? = some k →
    exec (.collTimeout d n) s = .next (s.endColl k 5 0x0050) ∧ ∀ y ∈ (s.endColl k 5 0x0050).fab.colls, ¬(y.d = d ∧ y.group = k.group ∧ y.collId = k.collId)) ∧
  (∀ (s : State) (p d i : Nat) (f : List Byte) (k : Coll), s.delivers p 0x21 f → s.power.mode = .ready → d = carDie (frDst f) → s.fab.collBuf = [] → s.collOf d f = some k →
    s.collFrom k f = some i → collOpt f = 3 → ∃ t, exec (.coll p f) s = .next t ∧ ∀ y ∈ t.fab.colls, ¬(y.d = k.d ∧ y.group = k.group ∧ y.collId = k.collId)) ∧
  (∀ (s : State) (p d i j : Nat) (f : List Byte) (k : Coll), s.delivers p 0x21 f → s.power.mode = .ready → d = carDie (frDst f) → s.fab.collBuf = [] → s.collOf d f = some k →
    s.collFrom k f = some i → k.agrees f = true → k.op = 4 → collOpt f = 2 → i ∈ k.children → i ∉ k.kids → j ∈ k.children → j ≠ i → j ∉ k.kids →
    ∃ t, exec (.coll p f) s = .next t ∧ t.fab.colls = (s.fab.colls.map fun y => if y.d = k.d ∧ y.group = k.group ∧ y.collId = k.collId then
      { k with kids := k.kids ++ [i], part := k.part.merge 12 (recordPartial k.count ((frPayload f).drop 64)) } else y) ∧ t = { s with sent := t.sent, fab := t.fab }) ∧
  (∀ a b : Nat, a < 2 ^ 32 → b < 2 ^ 32 → combine 0xC 0 a b = (a + b) % 2 ^ 32 ∧ toSigned 32 (combine 0xC 1 a b) = max (toSigned 32 a) (toSigned 32 b) ∧
    toSigned 32 (combine 0xC 2 a b) = min (toSigned 32 a) (toSigned 32 b)) ∧
  (∀ (c : Coll) (i : Nat), c.op = 1 → 0 < c.p → i < c.count → ∃ k, k < c.p ∧ (c.chunk k).1 ≤ i ∧ i < (c.chunk k).1 + (c.chunk k).2 ∧
    ∀ m, m < c.p → (c.chunk m).1 ≤ i ∧ i < (c.chunk m).1 + (c.chunk m).2 → m = k)

/-! ### Management -/

/-- Management requests (R442, R443, R444, R466): one host request at a time joins the queue, from an address that its port reads; requests over I3C join it as they come; a completed request leaves the queue with
STATUS, REASON and RESULT in its record, over I3C or in memory with DONE set; an absent unit is ABSENT, a unit kind that does not exist RANGE, and Safe serves only TSENSE and RESET. -/
def Obligations.ManagementIsServedInOrder : Prop :=  (∀ (s : State) (p a : Nat) (v : Word), p < 8 → s.fld p 0 0 HP_CFG.REGS = 2 → bit v.toNat 0 = true → s.power.mode = .ready → s.mgmt.queue = [] →
    a = s.fld 0 0 0 BTS_MGMT_ADDR_LO.ADDR + s.fld 0 0 0 BTS_MGMT_ADDR_HI.ADDR * 2 ^ 32 →
    (s.hostReads p a 64 = true → 1 ≤ field (s.seen a 64) 0 1 → field (s.seen a 64) 0 1 ≤ 8 → ∃ sig, exec (.mgmtGo p v) s = .next { s with
      mgmt := { s.mgmt with queue := [⟨some p, a, s.seen a 64, sig⟩] } }) ∧
    (s.hostReads p a 64 = false → ∃ t, exec (.mgmtGo p v) s = .next t ∧ t.fld 0 0 0 BTS_MGMT_STATUS.ERR_ADDR = 1 ∧ t.fld 0 0 0 BTS_MGMT_STATUS.DONE = 1 ∧ t = { s with regs := t.regs })) ∧
  (∀ (s : State) (p : Nat) (v : Word) (q : MgmtReq) (qs : List MgmtReq), p < 8 → s.fld p 0 0 HP_CFG.REGS = 2 → bit v.toNat 0 = true → s.power.mode = .ready → s.mgmt.queue = q :: qs →
    q.port.isSome = true → 1 ≤ q.op → q.op ≤ 8 → exec (.mgmtGo p v) s = .next (s.setFld 0 0 0 BTS_MGMT_STATUS.ERR_BUSY 1)) ∧
  (∀ (s : State) (b sig : List Byte), s.power.mode ≠ .off → s.mgmt.queue = [] → 1 ≤ field (padTo 64 0 b) 0 1 → field (padTo 64 0 b) 0 1 ≤ 8 →
    exec (.mctpManagement b sig) s = .next { s with mgmt := { s.mgmt with queue := [⟨none, 0, padTo 64 0 b, some sig⟩] } }) ∧
  (∀ (s : State) (b sig : List Byte), s.power.mode ≠ .off → s.mgmt.queue = [] → field (padTo 64 0 b) 0 1 = 0 ∨ 8 < field (padTo 64 0 b) 0 1 →
    exec (.mctpManagement b sig) s = .next { s with sent := s.sent ++ [.i3c (mgmtAnswer (padTo 64 0 b) 3 0x0002 0)] }) ∧
  (∀ (s : State) (q : MgmtReq) (qs : List MgmtReq) (st reason result : Nat), s.mgmt.queue = q :: qs →
    (q.port = none → s.mgmtComplete st reason result = { s with
      mgmt := { s.mgmt with queue := qs }, sent := s.sent ++ [.i3c (mgmtAnswer q.bytes st reason result)] }) ∧
    (q.port ≠ none → ∃ t, t = s.mgmtComplete st reason result ∧ t.mgmt = { s.mgmt with queue := qs } ∧ t.fld 0 0 0 BTS_MGMT_STATUS.DONE = 1 ∧
      t = { s with mgmt := t.mgmt, mem := t.mem, regs := t.regs })) ∧
  (∀ (b : List Byte) (st reason result : Nat), b.length = 64 → field (mgmtAnswer b st reason result) 4 1 = st % 2 ^ 8 ∧ field (mgmtAnswer b st reason result) 6 2 = reason % 2 ^ 16 ∧
    field (mgmtAnswer b st reason result) 0x10 8 = result % 2 ^ 64 ∧ field (mgmtAnswer b st reason result) 0x18 8 = field b 0x18 8) ∧
  (∀ (s : State) (op : Nat) (c : Instr) (q : MgmtReq), (c, op) ∈ [(Instr.mgmtStop, 1), (.mgmtStart, 2), (.set true, 3), (.selftest, 4), (.tsense, 5), (.fwCommit true, 6), (.svnCommit true, 7), (.reset true, 8)] →
    s.mgmt.queue.head? = some q → q.op = op → s.power.mode = .ready →
    (s.unitPresent q.kind q.unit = some false → exec c s = .next (s.mgmtComplete 1 0 0)) ∧ (s.unitPresent q.kind q.unit = none → exec c s = .next (s.mgmtComplete 3 0x0002 0))) ∧
  (∀ (s : State) (op : Nat) (c : Instr) (q : MgmtReq), (c, op) ∈ [(Instr.mgmtStop, 1), (.mgmtStart, 2), (.set true, 3), (.selftest, 4), (.fwCommit true, 6), (.svnCommit true, 7)] →
    s.mgmt.queue.head? = some q → q.op = op → s.power.mode = .safe → exec c s = .next (s.mgmtComplete 5 0x00A0 0))

/-- STOP, START, SELFTEST and TSENSE (R444 to R447): a unit in use is not stopped; a stopped port's link goes down, a stopped stack sleeps; START undoes it; a test waits its turn and completes with its outcome; a sensor is
demanded for TSENSE. -/
def Obligations.UnitsAreStoppedStartedAndTested : Prop :=  (∀ (s : State) (q : MgmtReq) (qs : List MgmtReq), s.mgmt.queue = q :: qs → q.op = 1 → s.power.mode = .ready → s.unitPresent q.kind q.unit = some true → q.kind ≠ 6 →
    (s.unitInUse q.kind q.unit = true → exec .mgmtStop s = .next (s.mgmtComplete 5 0x0097 0)) ∧
    (q.kind = 4 ∨ q.kind = 5 → s.unitInUse q.kind q.unit = false → s.unitStopped q.kind q.unit = false →
      exec .mgmtStop s = .next (({ s with mgmt := { s.mgmt with stopped := s.mgmt.stopped ++ [⟨q.kind, q.unit⟩] } } : State).mgmtComplete 0 0 0)) ∧
    (q.kind = 1 → ∃ t, exec .mgmtStop s = .next t ∧ (t.port q.unit).heldDown = true ∧ (t.port q.unit).proto = 0 ∧ t.unitStopped 1 q.unit = true ∧ t.mgmt.queue = qs) ∧
    (q.kind = 2 → ∃ t, exec .mgmtStop s = .next t ∧ (t.fport q.unit).phase = .down ∧ t.unitStopped 2 q.unit = true ∧ t.mgmt.queue = qs) ∧
    (q.kind = 3 → (s.stack q.unit).state ≠ 2 → ∃ t, exec .mgmtStop s = .next t ∧ (t.stack q.unit).stopped = true ∧ (t.stack q.unit).sr ≠ .awake ∧ t.unitStopped 3 q.unit = true ∧
      t.mgmt.queue = qs)) ∧
  (∀ (s : State) (q : MgmtReq) (qs : List MgmtReq), s.mgmt.queue = q :: qs → q.op = 2 → s.power.mode = .ready → s.unitPresent q.kind q.unit = some true →
    (q.kind = 4 ∨ q.kind = 5 → exec .mgmtStart s = .next (({ s with mgmt := { s.mgmt with stopped := s.mgmt.stopped.filter (· ≠ ⟨q.kind, q.unit⟩) } } : State).mgmtComplete 0 0 0)) ∧
    (q.kind = 1 → ∃ t, exec .mgmtStart s = .next t ∧ (t.port q.unit).heldDown = false ∧ t.unitStopped 1 q.unit = false ∧ t.mgmt.queue = qs) ∧
    (q.kind = 3 → ∃ t, exec .mgmtStart s = .next t ∧ (t.stack q.unit).stopped = false ∧ (t.stack q.unit).sr ≠ .asleep ∧ (t.stack q.unit).sr ≠ .waiting ∧ t.unitStopped 3 q.unit = false ∧
      t.mgmt.queue = qs)) ∧
  (∀ (s : State) (q : MgmtReq) (qs : List MgmtReq), s.mgmt.queue = q :: qs → q.op = 4 → s.power.mode = .ready → s.unitPresent q.kind q.unit = some true → (∀ x ∈ s.mgmt.tests, x.byMgmt = false) →
    (q.kind = 5 → exec .selftest s = .next { s with mgmt := { s.mgmt with tests := s.mgmt.tests ++ [⟨⟨5, q.unit⟩, false, true, s.coreIdle (q.unit / 64) (q.unit % 64)⟩] } }) ∧
    (q.kind = 3 → bit q.reg 0 = true → (s.stack q.unit).stopped = false → exec .selftest s = .next (s.mgmtComplete 2 0x0096 0)) ∧
    (q.kind = 3 → bit q.reg 0 = true → (s.stack q.unit).stopped = true →
      exec .selftest s = .next { s with mgmt := { s.mgmt with tests := s.mgmt.tests ++ [⟨⟨3, q.unit⟩, true, true, true⟩] } }) ∧
    (q.kind = 2 → ∃ t, exec .selftest s = .next t ∧ t.mgmt.queue = qs) ∧ (q.kind = 6 → exec .selftest s = .next (s.mgmtComplete 3 0x0002 0))) ∧
  (∀ (s : State) (d c : Nat) (x : SelfTest), (s.mgmt.tests.find? fun y => y.unit = ⟨5, d * 64 + c⟩ && y.byMgmt && !y.started) = some x → s.coreIdle d c = false →
    exec (.selftestIdleWaitExpiry d c) s = .next (({ s with mgmt := { s.mgmt with tests := s.mgmt.tests.filter (· ≠ x) } } : State).mgmtComplete 5 0x0095 0)) ∧
  (∀ (s : State) (k : Nat) (dies : List Nat) (x : SelfTest) (q : MgmtReq) (qs : List MgmtReq), s.mem.wf = true → (s.mgmt.tests.find? fun y => y.unit = ⟨3, k⟩ && y.memory) = some x →
    s.mgmt.queue = q :: qs → q.port = none →
    ∃ t, exec (.memorySelftestDone k dies) s = .next t ∧ t.mgmt = { s.mgmt with tests := s.mgmt.tests.filter (· ≠ x), queue := qs } ∧
      Sent.i3c (mgmtAnswer q.bytes 0 0 (ofBitSet (dies.filter (· < 17)))) ∈ t.sent ∧
      ∀ a, placedBase ≤ a → a < 0x140000000000 → placedStack a = k → t.byteAt (.mem a) = blankByte) ∧
  (∀ (s : State) (q : MgmtReq), s.mgmt.queue.head? = some q → q.op = 5 → s.unitPresent q.kind q.unit = some true → s.power.rails = true →
    ∃ t, exec .tsense s = .next t ∧ (⟨(s.hottest q.kind q.unit).1, (s.hottest q.kind q.unit).2, .mgmt⟩ : Demand) ∈ t.power.demands ∧
      t = { s with power := { s.power with demands := t.power.demands } })

/-- Requests that the owner signs (R21, R436, R444, R450, R454): without a signature that verifies, or with a nonce that was used, they are refused; otherwise the nonce is kept, SET writes the locked fields of a stopped
unit's register, FW_COMMIT writes the staged image to flash, SVN_COMMIT burns the running image's SVN, and RESET resets. -/
def Obligations.SignedRequestsTakeEffect : Prop :=  (∀ (s : State) (op : Nat) (sigOk : Bool) (c : Instr) (q : MgmtReq), (c, op) ∈ [(Instr.set sigOk, 3), (.fwCommit sigOk, 6), (.svnCommit sigOk, 7), (.reset sigOk, 8)] →
    s.mgmt.queue.head? = some q → q.op = op → s.power.mode = .ready → s.unitPresent q.kind q.unit = some true →
    (q.sig = none ∨ sigOk = false ∨ (s.entries 0x0009).length ≤ q.key → exec c s = .next (s.mgmtComplete 5 0x0090 0)) ∧
    (q.sig ≠ none → sigOk = true → q.key ≤ 3 → q.key < (s.entries 0x0009).length → q.nonce ≤ s.flash.nonce → exec c s = .next (s.mgmtComplete 5 0x0094 0))) ∧
  (∀ (s v : State) (q : MgmtReq), s.mgmt.queue.head? = some q → s.power.mode = .ready → s.unitPresent q.kind q.unit = some true → q.sig ≠ none → q.key ≤ 3 →
    q.key < (s.entries 0x0009).length → s.flash.nonce < q.nonce → v = { s with flash := { s.flash with nonce := q.nonce } } →
    (∀ r u i, q.op = 3 → regAt (bits q.reg 27 0) = some (r, u, i) →
      (protectedReg r = true → exec (.set true) s = .next (v.mgmtComplete 5 0x0093 0)) ∧
      (protectedReg r = false → s.unitStopped q.kind q.unit = false → exec (.set true) s = .next (v.mgmtComplete 5 0x0092 0)) ∧
      (protectedReg r = false → s.unitStopped q.kind q.unit = true → hasRwl r.row.fields = true → unitOwns q.kind q.unit (bits q.reg 30 28) r u = true → legalWrite r q.value = true →
        exec (.set true) s = .next ((v.setReg (bits q.reg 30 28) r u i
          (BitVec.ofNat 32 (mergeWrite r.row.fields true (s.reg (bits q.reg 30 28) r u i).toNat q.value))).mgmtComplete 0 0 0))) ∧
    (q.op = 6 → s.boot.staged = none → exec (.fwCommit true) s = .next (v.mgmtComplete 5 0x009A 0)) ∧
    (∀ img, q.op = 6 → s.boot.staged = some img → q.value = fwSvn img →
      exec (.fwCommit true) s = .next (({ v with flash := { v.flash with fw := img } } : State).mgmtComplete 0 0 0)) ∧
    (q.op = 7 → q.value = fwSvn s.boot.imageHeader → s.fuses.svnFloor < q.value → q.value ≤ 64 →
      ∃ u : State, exec (.svnCommit true) s = .next (u.mgmtComplete 0 0 0) ∧ u = { v with fuses := { v.fuses with svnBits := u.fuses.svnBits } } ∧ u.fuses.svnFloor = q.value) ∧
    (q.op = 7 → q.value ≠ fwSvn s.boot.imageHeader → exec (.svnCommit true) s = .next (v.mgmtComplete 3 0x0002 0)) ∧
    (q.op = 8 → exec (.reset true) s = .next ((v.mgmtComplete 0 0 0).moduleReset 2 .booting)))

/-! ### Registers and frames -/

/-- Writes of registers (R19 to R22, R385): a word that would place a reserved encoding is discarded whole; of any other, RW fields take the value, RW1C fields lose the bits written 1, RWL fields take it before the boot
lock only, and RO and WO fields stay; a record's VALID cleared clears the record. A host's write needs HP_CFG.REGS 2, and passes no write of its port that waits (R52). -/
def Obligations.RegisterWritesFollowTheirAccess : Prop :=  (∀ (s w : State) (ag : Agent) (d off u i : Nat) (r : Reg) (v : Word), s.power.mode = .ready → d < 8 → off < 2 ^ 28 → regAt off = some (r, u, i) →
    (agentInternal ag = true ∨ ∃ p rid, ag = .host p rid ∧ s.fld p 0 0 HP_CFG.REGS = 2 ∧ ∀ h ∈ s.mem.held, ∀ n, h.ag ≠ .host p n) → (r.row.d0 = true → d = 0) → s.absentBlock d r u = false → s.absentDe1 d r u i = false →
    r ∉ [Reg.PTM_TSENSE_REQ, .FCU_PIN_HOLD, .PTM_STATE_CTL, .BTS_MGMT_CTL, .BTS_MGMT_ADDR_LO] →
    w = s.setReg d r u i (BitVec.ofNat 32 (mergeWrite r.row.fields (!s.boot.locked) (s.reg d r u i).toNat v.toNat)) →
    (legalWrite r v.toNat = true → bit v.toNat 31 = false ∨ recordRegs r = [] →
      exec (.registerWrite ag (0x3F0000000000 + d * 2 ^ 28 + off) v) s = .next { w with sent := s.sent ++ [.reply ag .done] }) ∧
    (legalWrite r v.toNat = true → bit v.toNat 31 = true → ∃ t, exec (.registerWrite ag (0x3F0000000000 + d * 2 ^ 28 + off) v) s = .next t ∧
      (∀ q ∈ recordRegs r, t.reg d q u i = 0) ∧ t = { s with regs := t.regs, sent := s.sent ++ [.reply ag .done] }) ∧
    (legalWrite r v.toNat = false → exec (.registerWrite ag (0x3F0000000000 + d * 2 ^ 28 + off) v) s = .next { s with sent := s.sent ++ [.reply ag .done] })) ∧
  (∀ (s : State) (p rid o : Nat) (v : Word), s.power.mode = .ready → o < 0x80000000 → s.fld p 0 0 HP_CFG.REGS = 1 → (∀ h ∈ s.mem.held, ∀ n, h.ag ≠ .host p n) →
    exec (.registerWrite (.host p rid) (0x3F0000000000 + o) v) s = .next { s with sent := s.sent ++ [.reply (.host p rid) .unsupported] }) ∧
  (∀ (s : State) (ag : Agent) (d off : Nat) (v : Word), s.power.mode = .ready → agentInternal ag = true → d < 8 → off < 2 ^ 28 → off % 4 = 0 → regAt off = none →
    ∃ t, exec (.registerWrite ag (0x3F0000000000 + d * 2 ^ 28 + off) v) s = .next t ∧ t.sent = s.sent ++ [.reply ag .busError] ∧ t = { s with regs := t.regs, sent := t.sent }) ∧
  (∀ (r : Reg) (f : RegField) (rwl : Bool) (old v k : Nat), f ∈ r.row.fields → f.lo ≤ k → k ≤ f.hi →
    (mergeWrite r.row.fields rwl old v).testBit k = (match f.acc with
      | .ro => old.testBit k
      | .rw => v.testBit k
      | .rw1c => old.testBit k && !v.testBit k
      | .wo => old.testBit k
      | .rwl => if rwl then v.testBit k else old.testBit k)) ∧
  (∀ (s : State) (d u i k : Nat) (r : Reg), (∀ f ∈ r.row.fields, f.acc ≠ .wo → k < f.lo ∨ f.hi < k) → (s.regValue d r u i).testBit k = false)

/-- The frame of every command: it leaves the queue and every part of the state that `touches` does not name for it exactly as they were. -/
def Obligations.CommandsChangeOnlyTheirParts : Prop :=  ∀ (c : Instr) (s t : State) (p : Part), exec c s = .next t → t.pending = s.pending ∧ (p ∉ touches c → p.same s t)
end

