-- ==== Sys2Proof/Laws/Maps.lean ====
section
/-! SUPPORT. What the operations on sorted maps and on the poison list do: they read back what was written, leave every other key alone, and keep the canonical form. -/

set_option Elab.async false

namespace Sys2Proof

variable {α : Type}

theorem mAbove_mono {k j : Nat} (h : k ≤ j) {m : NMap α} (a : mAbove j m = true) : mAbove k m = true := by
  cases m with
  | nil => rfl
  | cons x m => simp only [mAbove, decide_eq_true_eq] at *; omega

theorem mAbove_mput {i k : Nat} {v : α} {m : NMap α} (a : mAbove i m = true) (h : i < k) : mAbove i (mput m k v) = true := by
  cases m with
  | nil => simpa [mput, mAbove] using h
  | cons x m =>
    obtain ⟨j, w⟩ := x
    simp only [mAbove, decide_eq_true_eq] at a
    simp only [mput]
    split
    · simpa [mAbove] using h
    · split <;> simp [mAbove] <;> omega

variable [DecidableEq α] {d : α}

theorem mwf_cons {j : Nat} {v : α} {m : NMap α} :
    mwf d ((j, v) :: m) = true ↔ mAbove j m = true ∧ v ≠ d ∧ mwf d m = true := by
  simp [mwf, and_assoc]

theorem mwf_mput {m : NMap α} {k : Nat} {v : α} (h : mwf d m = true) (hv : v ≠ d) : mwf d (mput m k v) = true := by
  induction m with
  | nil => simp [mput, mwf, mAbove, hv]
  | cons x m ih =>
    obtain ⟨j, w⟩ := x
    obtain ⟨a, hw, hm⟩ := mwf_cons.1 h
    simp only [mput]
    split
    · subst_vars; exact mwf_cons.2 ⟨a, hv, hm⟩
    · split
      · exact mwf_cons.2 ⟨by simpa [mAbove], hv, h⟩
      · exact mwf_cons.2 ⟨mAbove_mput a (by omega), hw, ih hm⟩

theorem mAbove_mdel {i k : Nat} {m : NMap α} (h : mwf d m = true) (a : mAbove i m = true) : mAbove i (mdel m k) = true := by
  cases m with
  | nil => rfl
  | cons x m =>
    obtain ⟨j, w⟩ := x
    obtain ⟨b, -, -⟩ := mwf_cons.1 h
    have hij : i < j := by simpa [mAbove] using a
    simp only [mdel]
    split
    · exact mAbove_mono (Nat.le_of_lt hij) b
    · split <;> simp [mAbove, hij]

theorem mwf_mdel {m : NMap α} {k : Nat} (h : mwf d m = true) : mwf d (mdel m k) = true := by
  induction m with
  | nil => rfl
  | cons x m ih =>
    obtain ⟨j, w⟩ := x
    obtain ⟨a, hw, hm⟩ := mwf_cons.1 h
    simp only [mdel]
    split
    · exact hm
    · split
      · exact h
      · exact mwf_cons.2 ⟨mAbove_mdel hm a, hw, ih hm⟩

theorem mwf_mset {m : NMap α} {k : Nat} {v : α} (h : mwf d m = true) : mwf d (mset d m k v) = true := by
  unfold mset
  split
  · exact mwf_mdel h
  · exact mwf_mput h ‹_›

theorem mAbove_filter {i : Nat} {f : Nat × α → Bool} {m : NMap α} (h : mwf d m = true) (a : mAbove i m = true) :
    mAbove i (m.filter f) = true := by
  induction m with
  | nil => rfl
  | cons x m ih =>
    obtain ⟨j, w⟩ := x
    obtain ⟨b, -, hm⟩ := mwf_cons.1 h
    have hij : i < j := by simpa [mAbove] using a
    rw [List.filter_cons]
    split
    · simpa [mAbove] using hij
    · exact ih hm (mAbove_mono (Nat.le_of_lt hij) b)

theorem mwf_filter {f : Nat × α → Bool} {m : NMap α} (h : mwf d m = true) : mwf d (m.filter f) = true := by
  induction m with
  | nil => rfl
  | cons x m ih =>
    obtain ⟨j, w⟩ := x
    obtain ⟨b, hw, hm⟩ := mwf_cons.1 h
    rw [List.filter_cons]
    split
    · exact mwf_cons.2 ⟨mAbove_filter hm b, hw, ih hm⟩
    · exact ih hm

/-! ### Reading after writing -/

omit [DecidableEq α] in
theorem mget_mput_self {m : NMap α} {k : Nat} {v d : α} : mget d (mput m k v) k = v := by
  induction m with
  | nil => simp [mput, mget]
  | cons x m ih =>
    obtain ⟨j, w⟩ := x
    simp only [mput]
    split
    · simp [mget]
    · split
      · simp [mget]
      · rename_i h1 h2; simp [mget, h1, h2, ih]

omit [DecidableEq α] in
theorem mget_above {m : NMap α} {k : Nat} {d : α} (a : mAbove k m = true) : mget d m k = d := by
  cases m with
  | nil => rfl
  | cons x m =>
    simp only [mAbove, decide_eq_true_eq] at a
    simp [mget, Nat.ne_of_gt a, a]

omit [DecidableEq α] in
theorem mget_mput_ne {m : NMap α} {k i : Nat} {v d : α} (h : i ≠ k) : mget d (mput m k v) i = mget d m i := by
  induction m with
  | nil => simp only [mput, mget]; split <;> rename_i e <;> simp_all
  | cons x m ih =>
    obtain ⟨j, w⟩ := x
    simp only [mput]
    split
    · subst_vars
      simp only [mget, if_neg (Ne.symm h)]
    · split
      · rename_i h1 h2
        simp only [mget, if_neg (Ne.symm h)]
        by_cases h3 : i < k
        · have : ¬ j = i := by omega
          have : i < j := by omega
          simp [*]
        · simp [h3]
      · simp only [mget, ih]

theorem mget_mdel_ne {m : NMap α} {k i : Nat} (hw : mwf d m = true) (h : i ≠ k) : mget d (mdel m k) i = mget d m i := by
  induction m with
  | nil => rfl
  | cons x m ih =>
    obtain ⟨j, w⟩ := x
    obtain ⟨b, -, hm⟩ := mwf_cons.1 hw
    simp only [mdel]
    split
    · subst_vars
      simp only [mget, if_neg (Ne.symm h)]
      split
      · exact mget_above (mAbove_mono (Nat.le_of_lt ‹_›) b)
      · rfl
    · split
      · rfl
      · simp only [mget, ih hm]

theorem mget_mdel_self {m : NMap α} {k : Nat} (hw : mwf d m = true) : mget d (mdel m k) k = d := by
  induction m with
  | nil => rfl
  | cons x m ih =>
    obtain ⟨j, w⟩ := x
    obtain ⟨b, -, hm⟩ := mwf_cons.1 hw
    simp only [mdel]
    split
    · subst_vars; exact mget_above b
    · split
      · rename_i h1 h2; simp [mget, h1, h2]
      · rename_i h1 h2; simp [mget, h1, h2, ih hm]

theorem mget_mset_self {m : NMap α} {k : Nat} {v : α} (hw : mwf d m = true) : mget d (mset d m k v) k = v := by
  unfold mset
  split
  · subst_vars; exact mget_mdel_self hw
  · exact mget_mput_self

theorem mget_mset_ne {m : NMap α} {k i : Nat} {v : α} (hw : mwf d m = true) (h : i ≠ k) :
    mget d (mset d m k v) i = mget d m i := by
  unfold mset
  split
  · exact mget_mdel_ne hw h
  · exact mget_mput_ne h

/-! ### The poison list -/

namespace Machine

theorem risingNat_tail {j : Nat} {l : List Nat} (h : risingNat (j :: l) = true) : risingNat l = true := by
  cases l with
  | nil => rfl
  | cons k l => simp only [risingNat, Bool.and_eq_true] at h; exact h.2

theorem risingNat_cons {j : Nat} {l : List Nat} : risingNat (j :: l) = true ↔ (∀ k ∈ l, j < k) ∧ risingNat l = true := by
  induction l generalizing j with
  | nil => simp [risingNat]
  | cons k l ih =>
    simp only [risingNat, Bool.and_eq_true, decide_eq_true_eq, ih, List.mem_cons, forall_eq_or_imp]
    constructor
    · rintro ⟨h, a, b⟩; exact ⟨⟨h, fun i hi => Nat.lt_trans h (a i hi)⟩, a, b⟩
    · rintro ⟨⟨h, -⟩, a, b⟩; exact ⟨h, a, b⟩

theorem mem_insertNat {k i : Nat} {l : List Nat} : i ∈ insertNat k l ↔ i = k ∨ i ∈ l := by
  induction l with
  | nil => simp [insertNat]
  | cons j l ih =>
    simp only [insertNat]
    split
    · simp
    · split
      · subst_vars; simp
      · simp only [List.mem_cons, ih]; exact or_left_comm

theorem risingNat_insertNat {k : Nat} {l : List Nat} (h : risingNat l = true) : risingNat (insertNat k l) = true := by
  induction l with
  | nil => rfl
  | cons j l ih =>
    obtain ⟨a, b⟩ := risingNat_cons.1 h
    simp only [insertNat]
    split
    · rename_i hk
      exact risingNat_cons.2 ⟨by simp only [List.mem_cons, forall_eq_or_imp]; exact ⟨hk, fun i hi => Nat.lt_trans hk (a i hi)⟩, h⟩
    · split
      · exact h
      · refine risingNat_cons.2 ⟨fun i hi => ?_, ih b⟩
        rcases mem_insertNat.1 hi with rfl | hi
        · omega
        · exact a i hi

theorem risingNat_filter {f : Nat → Bool} {l : List Nat} (h : risingNat l = true) : risingNat (l.filter f) = true := by
  induction l with
  | nil => rfl
  | cons j l ih =>
    obtain ⟨a, b⟩ := risingNat_cons.1 h
    rw [List.filter_cons]
    split
    · exact risingNat_cons.2 ⟨fun i hi => a i (List.mem_filter.1 hi).1, ih b⟩
    · exact ih b

/-! ### Memory keeps its canonical form -/

theorem Memory.wf_iff {m : Memory} : m.wf = true ↔ mwf blankByte m.cells = true ∧ risingNat m.poison = true := by
  simp [Memory.wf]

/-- The canonical form speaks of the cells and of the poison list only. -/
theorem Memory.wf_same {m n : Memory} (c : n.cells = m.cells) (p : n.poison = m.poison) (h : m.wf = true) : n.wf = true := by
  simpa [Memory.wf, c, p] using h

theorem mwf_writeCell {k : Nat} {b : Byte} {cells : List (Nat × Byte)} (h : mwf blankByte cells = true) :
    mwf blankByte (writeCell cells k b) = true := mwf_mset h

theorem mwf_writeCells {k : Nat} {bs : List Byte} {cells : List (Nat × Byte)} (h : mwf blankByte cells = true) :
    mwf blankByte (writeCells cells k bs) = true := by
  induction bs generalizing cells k with
  | nil => exact h
  | cons b bs ih => exact ih (mwf_mset h)

/-- Bytes outside the written range read as before. -/
theorem mget_writeCells_out {k i : Nat} {bs : List Byte} {cells : List (Nat × Byte)} (h : mwf blankByte cells = true)
    (o : i < k ∨ k + bs.length ≤ i) : mget blankByte (writeCells cells k bs) i = mget blankByte cells i := by
  induction bs generalizing cells k with
  | nil => rfl
  | cons b bs ih =>
    simp only [List.length_cons] at o
    rw [writeCells, ih (mwf_writeCell h) (by omega)]
    exact mget_mset_ne h (by omega)

/-- A written byte reads back. -/
theorem mget_writeCells_in {k i : Nat} {bs : List Byte} {cells : List (Nat × Byte)} (h : mwf blankByte cells = true)
    (hi : i < bs.length) : mget blankByte (writeCells cells k bs) (k + i) = bs[i] := by
  induction bs generalizing cells k i with
  | nil => simp at hi
  | cons b bs ih =>
    cases i with
    | zero =>
      rw [writeCells, mget_writeCells_out (mwf_writeCell h) (by omega)]
      exact mget_mset_self h
    | succ i =>
      have := ih (cells := writeCell cells k b) (k := k + 1) (i := i) (mwf_mset h) (by simpa using hi)
      rw [show k + (i + 1) = k + 1 + i by omega]
      simpa [writeCells] using this

end Machine

end Sys2Proof
end

