-- ==== Sys2Proof/Laws/Keeps.lean ====
section
/-! SUPPORT. What an operation of the module can do, as one relation between the state before and after: it touches only the named parts of the state and never the queue, memory
keeps its canonical form, nothing sent is taken back, fuses only burn, resets and free values are counted up. -/

set_option Elab.async false
set_option linter.unusedTactic false
set_option linter.unreachableTactic false
set_option linter.unusedVariables false

namespace Sys2Proof.Machine

open Sys2Proof

/-- The fuses `t` may be reached from the fuses `s`: grade, cores and seed as they were, an owner digest once burned stays, and the security
version floor stands; only SVN_COMMIT raises it. -/
structure Fuses.Burns (s t : Fuses) : Prop where
  grade : t.grade = s.grade
  core : t.core = s.core
  seed : t.seed = s.seed
  digest : s.ownerDigest ≠ none → t.ownerDigest = s.ownerDigest
  svn : t.svnBits = s.svnBits

theorem Fuses.Burns.rfl {f : Fuses} : f.Burns f := ⟨.refl _, .refl _, .refl _, fun _ => .refl _, .refl _⟩

theorem Fuses.Burns.trans {f g h : Fuses} (a : f.Burns g) (b : g.Burns h) : f.Burns h :=
  ⟨b.grade.trans a.grade, b.core.trans a.core, b.seed.trans a.seed,
    fun n => (b.digest (by rw [a.digest n]; exact n)).trans (a.digest n), b.svn.trans a.svn⟩

/-- Burning the owner digest of blank fuses. -/
theorem Fuses.Burns.owner {f : Fuses} {g : Nat} (h : f.ownerDigest = none) : f.Burns { f with ownerDigest := some g } :=
  ⟨.refl _, .refl _, .refl _, fun n => absurd h n, .refl _⟩

theorem popCount_ones {k n : Nat} : popCount k (2 ^ n - 1) = min k n := by
  induction k generalizing n with
  | zero => simp [popCount]
  | succ k ih =>
    cases n with
    | zero => have := ih (n := 0); simp [popCount] at *; exact this
    | succ n =>
      have h1 : (2 ^ (n + 1) - 1) / 2 = 2 ^ n - 1 := by omega
      have h2 : (2 ^ (n + 1) - 1) % 2 = 1 := by have := Nat.two_pow_pos n; omega
      simp only [popCount, h1, h2, ih]; omega

theorem popCount_le {k n : Nat} : popCount k n ≤ k := by
  induction k generalizing n with
  | zero => simp [popCount]
  | succ k ih => have := ih (n := n / 2); simp only [popCount]; omega

/-- `t` follows from `s` by operations that touch only the parts that `F` names, and that undo nothing. -/
structure Keeps (F : Part → Bool) (s t : State) : Prop where
  pending : t.pending = s.pending
  mem : s.mem.wf = true → t.mem.wf = true
  sent : s.sent <+: t.sent
  fuses : s.fuses.Burns t.fuses
  boots : s.flash.boots ≤ t.flash.boots
  free : s.free ≤ t.free
  frame : ∀ p, F p = false → p.same s t

namespace Keeps

variable {F : Part → Bool} {r s t : State}

theorem rfl : Keeps F s s :=
  ⟨.refl _, id, List.prefix_refl _, .rfl, Nat.le_refl _, Nat.le_refl _, fun p _ => by cases p <;> exact .refl _⟩

theorem trans (a : Keeps F r s) (b : Keeps F s t) : Keeps F r t :=
  ⟨b.pending.trans a.pending, fun h => b.mem (a.mem h), a.sent.trans b.sent, a.fuses.trans b.fuses, Nat.le_trans a.boots b.boots,
    Nat.le_trans a.free b.free, fun p h => by
      have x := a.frame p h
      have y := b.frame p h
      cases p <;> exact Eq.trans y x⟩

theorem dieTime_set {x} (h : Keeps F r s) (o : F .dieTime = true) : Keeps F r ⟨s.pending, s.free, s.sent, x, s.power, s.fuses, s.flash, s.boot, s.mgmt, s.fcu, s.cfg, s.regs, s.mem, s.stackMap, s.banks, s.baus, s.seqs, s.seqNext, s.slots, s.ports, s.cores, s.notices, s.kept, s.kv, s.ldr, s.fab⟩ :=
  ⟨h.pending, h.mem, h.sent, h.fuses, h.boots, h.free, fun p n => by
    have x := h.frame p n
    cases p <;> first | exact x | exact absurd n (by simp [*])⟩

theorem power_set {x} (h : Keeps F r s) (o : F .power = true) : Keeps F r ⟨s.pending, s.free, s.sent, s.dieTime, x, s.fuses, s.flash, s.boot, s.mgmt, s.fcu, s.cfg, s.regs, s.mem, s.stackMap, s.banks, s.baus, s.seqs, s.seqNext, s.slots, s.ports, s.cores, s.notices, s.kept, s.kv, s.ldr, s.fab⟩ :=
  ⟨h.pending, h.mem, h.sent, h.fuses, h.boots, h.free, fun p n => by
    have x := h.frame p n
    cases p <;> first | exact x | exact absurd n (by simp [*])⟩

theorem boot_set {x} (h : Keeps F r s) (o : F .boot = true) : Keeps F r ⟨s.pending, s.free, s.sent, s.dieTime, s.power, s.fuses, s.flash, x, s.mgmt, s.fcu, s.cfg, s.regs, s.mem, s.stackMap, s.banks, s.baus, s.seqs, s.seqNext, s.slots, s.ports, s.cores, s.notices, s.kept, s.kv, s.ldr, s.fab⟩ :=
  ⟨h.pending, h.mem, h.sent, h.fuses, h.boots, h.free, fun p n => by
    have x := h.frame p n
    cases p <;> first | exact x | exact absurd n (by simp [*])⟩

theorem mgmt_set {x} (h : Keeps F r s) (o : F .mgmt = true) : Keeps F r ⟨s.pending, s.free, s.sent, s.dieTime, s.power, s.fuses, s.flash, s.boot, x, s.fcu, s.cfg, s.regs, s.mem, s.stackMap, s.banks, s.baus, s.seqs, s.seqNext, s.slots, s.ports, s.cores, s.notices, s.kept, s.kv, s.ldr, s.fab⟩ :=
  ⟨h.pending, h.mem, h.sent, h.fuses, h.boots, h.free, fun p n => by
    have x := h.frame p n
    cases p <;> first | exact x | exact absurd n (by simp [*])⟩

theorem fcu_set {x} (h : Keeps F r s) (o : F .fcu = true) : Keeps F r ⟨s.pending, s.free, s.sent, s.dieTime, s.power, s.fuses, s.flash, s.boot, s.mgmt, x, s.cfg, s.regs, s.mem, s.stackMap, s.banks, s.baus, s.seqs, s.seqNext, s.slots, s.ports, s.cores, s.notices, s.kept, s.kv, s.ldr, s.fab⟩ :=
  ⟨h.pending, h.mem, h.sent, h.fuses, h.boots, h.free, fun p n => by
    have x := h.frame p n
    cases p <;> first | exact x | exact absurd n (by simp [*])⟩

theorem cfg_set {x} (h : Keeps F r s) (o : F .cfg = true) : Keeps F r ⟨s.pending, s.free, s.sent, s.dieTime, s.power, s.fuses, s.flash, s.boot, s.mgmt, s.fcu, x, s.regs, s.mem, s.stackMap, s.banks, s.baus, s.seqs, s.seqNext, s.slots, s.ports, s.cores, s.notices, s.kept, s.kv, s.ldr, s.fab⟩ :=
  ⟨h.pending, h.mem, h.sent, h.fuses, h.boots, h.free, fun p n => by
    have x := h.frame p n
    cases p <;> first | exact x | exact absurd n (by simp [*])⟩

theorem regs_set {x} (h : Keeps F r s) (o : F .regs = true) : Keeps F r ⟨s.pending, s.free, s.sent, s.dieTime, s.power, s.fuses, s.flash, s.boot, s.mgmt, s.fcu, s.cfg, x, s.mem, s.stackMap, s.banks, s.baus, s.seqs, s.seqNext, s.slots, s.ports, s.cores, s.notices, s.kept, s.kv, s.ldr, s.fab⟩ :=
  ⟨h.pending, h.mem, h.sent, h.fuses, h.boots, h.free, fun p n => by
    have x := h.frame p n
    cases p <;> first | exact x | exact absurd n (by simp [*])⟩

theorem stackMap_set {x} (h : Keeps F r s) (o : F .stackMap = true) : Keeps F r ⟨s.pending, s.free, s.sent, s.dieTime, s.power, s.fuses, s.flash, s.boot, s.mgmt, s.fcu, s.cfg, s.regs, s.mem, x, s.banks, s.baus, s.seqs, s.seqNext, s.slots, s.ports, s.cores, s.notices, s.kept, s.kv, s.ldr, s.fab⟩ :=
  ⟨h.pending, h.mem, h.sent, h.fuses, h.boots, h.free, fun p n => by
    have x := h.frame p n
    cases p <;> first | exact x | exact absurd n (by simp [*])⟩

theorem banks_set {x} (h : Keeps F r s) (o : F .banks = true) : Keeps F r ⟨s.pending, s.free, s.sent, s.dieTime, s.power, s.fuses, s.flash, s.boot, s.mgmt, s.fcu, s.cfg, s.regs, s.mem, s.stackMap, x, s.baus, s.seqs, s.seqNext, s.slots, s.ports, s.cores, s.notices, s.kept, s.kv, s.ldr, s.fab⟩ :=
  ⟨h.pending, h.mem, h.sent, h.fuses, h.boots, h.free, fun p n => by
    have x := h.frame p n
    cases p <;> first | exact x | exact absurd n (by simp [*])⟩

theorem baus_set {x} (h : Keeps F r s) (o : F .baus = true) : Keeps F r ⟨s.pending, s.free, s.sent, s.dieTime, s.power, s.fuses, s.flash, s.boot, s.mgmt, s.fcu, s.cfg, s.regs, s.mem, s.stackMap, s.banks, x, s.seqs, s.seqNext, s.slots, s.ports, s.cores, s.notices, s.kept, s.kv, s.ldr, s.fab⟩ :=
  ⟨h.pending, h.mem, h.sent, h.fuses, h.boots, h.free, fun p n => by
    have x := h.frame p n
    cases p <;> first | exact x | exact absurd n (by simp [*])⟩

theorem seqs_set {x} (h : Keeps F r s) (o : F .seqs = true) : Keeps F r ⟨s.pending, s.free, s.sent, s.dieTime, s.power, s.fuses, s.flash, s.boot, s.mgmt, s.fcu, s.cfg, s.regs, s.mem, s.stackMap, s.banks, s.baus, x, s.seqNext, s.slots, s.ports, s.cores, s.notices, s.kept, s.kv, s.ldr, s.fab⟩ :=
  ⟨h.pending, h.mem, h.sent, h.fuses, h.boots, h.free, fun p n => by
    have x := h.frame p n
    cases p <;> first | exact x | exact absurd n (by simp [*])⟩

theorem seqNext_set {x} (h : Keeps F r s) (o : F .seqNext = true) : Keeps F r ⟨s.pending, s.free, s.sent, s.dieTime, s.power, s.fuses, s.flash, s.boot, s.mgmt, s.fcu, s.cfg, s.regs, s.mem, s.stackMap, s.banks, s.baus, s.seqs, x, s.slots, s.ports, s.cores, s.notices, s.kept, s.kv, s.ldr, s.fab⟩ :=
  ⟨h.pending, h.mem, h.sent, h.fuses, h.boots, h.free, fun p n => by
    have x := h.frame p n
    cases p <;> first | exact x | exact absurd n (by simp [*])⟩

theorem slots_set {x} (h : Keeps F r s) (o : F .slots = true) : Keeps F r ⟨s.pending, s.free, s.sent, s.dieTime, s.power, s.fuses, s.flash, s.boot, s.mgmt, s.fcu, s.cfg, s.regs, s.mem, s.stackMap, s.banks, s.baus, s.seqs, s.seqNext, x, s.ports, s.cores, s.notices, s.kept, s.kv, s.ldr, s.fab⟩ :=
  ⟨h.pending, h.mem, h.sent, h.fuses, h.boots, h.free, fun p n => by
    have x := h.frame p n
    cases p <;> first | exact x | exact absurd n (by simp [*])⟩

theorem ports_set {x} (h : Keeps F r s) (o : F .ports = true) : Keeps F r ⟨s.pending, s.free, s.sent, s.dieTime, s.power, s.fuses, s.flash, s.boot, s.mgmt, s.fcu, s.cfg, s.regs, s.mem, s.stackMap, s.banks, s.baus, s.seqs, s.seqNext, s.slots, x, s.cores, s.notices, s.kept, s.kv, s.ldr, s.fab⟩ :=
  ⟨h.pending, h.mem, h.sent, h.fuses, h.boots, h.free, fun p n => by
    have x := h.frame p n
    cases p <;> first | exact x | exact absurd n (by simp [*])⟩

theorem cores_set {x} (h : Keeps F r s) (o : F .cores = true) : Keeps F r ⟨s.pending, s.free, s.sent, s.dieTime, s.power, s.fuses, s.flash, s.boot, s.mgmt, s.fcu, s.cfg, s.regs, s.mem, s.stackMap, s.banks, s.baus, s.seqs, s.seqNext, s.slots, s.ports, x, s.notices, s.kept, s.kv, s.ldr, s.fab⟩ :=
  ⟨h.pending, h.mem, h.sent, h.fuses, h.boots, h.free, fun p n => by
    have x := h.frame p n
    cases p <;> first | exact x | exact absurd n (by simp [*])⟩

theorem notices_set {x} (h : Keeps F r s) (o : F .notices = true) : Keeps F r ⟨s.pending, s.free, s.sent, s.dieTime, s.power, s.fuses, s.flash, s.boot, s.mgmt, s.fcu, s.cfg, s.regs, s.mem, s.stackMap, s.banks, s.baus, s.seqs, s.seqNext, s.slots, s.ports, s.cores, x, s.kept, s.kv, s.ldr, s.fab⟩ :=
  ⟨h.pending, h.mem, h.sent, h.fuses, h.boots, h.free, fun p n => by
    have x := h.frame p n
    cases p <;> first | exact x | exact absurd n (by simp [*])⟩

theorem kept_set {x} (h : Keeps F r s) (o : F .kept = true) : Keeps F r ⟨s.pending, s.free, s.sent, s.dieTime, s.power, s.fuses, s.flash, s.boot, s.mgmt, s.fcu, s.cfg, s.regs, s.mem, s.stackMap, s.banks, s.baus, s.seqs, s.seqNext, s.slots, s.ports, s.cores, s.notices, x, s.kv, s.ldr, s.fab⟩ :=
  ⟨h.pending, h.mem, h.sent, h.fuses, h.boots, h.free, fun p n => by
    have x := h.frame p n
    cases p <;> first | exact x | exact absurd n (by simp [*])⟩

theorem kv_set {x} (h : Keeps F r s) (o : F .kv = true) : Keeps F r ⟨s.pending, s.free, s.sent, s.dieTime, s.power, s.fuses, s.flash, s.boot, s.mgmt, s.fcu, s.cfg, s.regs, s.mem, s.stackMap, s.banks, s.baus, s.seqs, s.seqNext, s.slots, s.ports, s.cores, s.notices, s.kept, x, s.ldr, s.fab⟩ :=
  ⟨h.pending, h.mem, h.sent, h.fuses, h.boots, h.free, fun p n => by
    have x := h.frame p n
    cases p <;> first | exact x | exact absurd n (by simp [*])⟩

theorem ldr_set {x} (h : Keeps F r s) (o : F .ldr = true) : Keeps F r ⟨s.pending, s.free, s.sent, s.dieTime, s.power, s.fuses, s.flash, s.boot, s.mgmt, s.fcu, s.cfg, s.regs, s.mem, s.stackMap, s.banks, s.baus, s.seqs, s.seqNext, s.slots, s.ports, s.cores, s.notices, s.kept, s.kv, x, s.fab⟩ :=
  ⟨h.pending, h.mem, h.sent, h.fuses, h.boots, h.free, fun p n => by
    have x := h.frame p n
    cases p <;> first | exact x | exact absurd n (by simp [*])⟩

theorem fab_set {x} (h : Keeps F r s) (o : F .fab = true) : Keeps F r ⟨s.pending, s.free, s.sent, s.dieTime, s.power, s.fuses, s.flash, s.boot, s.mgmt, s.fcu, s.cfg, s.regs, s.mem, s.stackMap, s.banks, s.baus, s.seqs, s.seqNext, s.slots, s.ports, s.cores, s.notices, s.kept, s.kv, s.ldr, x⟩ :=
  ⟨h.pending, h.mem, h.sent, h.fuses, h.boots, h.free, fun p n => by
    have x := h.frame p n
    cases p <;> first | exact x | exact absurd n (by simp [*])⟩

theorem sent_add {x} (h : Keeps F r s) (o : F .sent = true) : Keeps F r ⟨s.pending, s.free, s.sent ++ x, s.dieTime, s.power, s.fuses, s.flash, s.boot, s.mgmt, s.fcu, s.cfg, s.regs, s.mem, s.stackMap, s.banks, s.baus, s.seqs, s.seqNext, s.slots, s.ports, s.cores, s.notices, s.kept, s.kv, s.ldr, s.fab⟩ :=
  ⟨h.pending, h.mem, h.sent.trans (List.prefix_append _ _), h.fuses, h.boots, h.free, fun p n => by
    have x := h.frame p n
    cases p <;> first | exact x | exact absurd n (by simp [*])⟩

theorem fuse {x} (h : Keeps F r s) (b : s.fuses.Burns x) (o : F .fuses = true) : Keeps F r ⟨s.pending, s.free, s.sent, s.dieTime, s.power, x, s.flash, s.boot, s.mgmt, s.fcu, s.cfg, s.regs, s.mem, s.stackMap, s.banks, s.baus, s.seqs, s.seqNext, s.slots, s.ports, s.cores, s.notices, s.kept, s.kv, s.ldr, s.fab⟩ :=
  ⟨h.pending, h.mem, h.sent, h.fuses.trans b, h.boots, h.free, fun p n => by
    have x := h.frame p n
    cases p <;> first | exact x | exact absurd n (by simp [*])⟩

theorem flash {x} (h : Keeps F r s) (b : s.flash.boots ≤ x.boots) (o : F .flash = true) : Keeps F r ⟨s.pending, s.free, s.sent, s.dieTime, s.power, s.fuses, x, s.boot, s.mgmt, s.fcu, s.cfg, s.regs, s.mem, s.stackMap, s.banks, s.baus, s.seqs, s.seqNext, s.slots, s.ports, s.cores, s.notices, s.kept, s.kv, s.ldr, s.fab⟩ :=
  ⟨h.pending, h.mem, h.sent, h.fuses, Nat.le_trans h.boots b, h.free, fun p n => by
    have x := h.frame p n
    cases p <;> first | exact x | exact absurd n (by simp [*])⟩

theorem used {x} (h : Keeps F r s) (b : s.free ≤ x) (o : F .free = true) : Keeps F r ⟨s.pending, x, s.sent, s.dieTime, s.power, s.fuses, s.flash, s.boot, s.mgmt, s.fcu, s.cfg, s.regs, s.mem, s.stackMap, s.banks, s.baus, s.seqs, s.seqNext, s.slots, s.ports, s.cores, s.notices, s.kept, s.kv, s.ldr, s.fab⟩ :=
  ⟨h.pending, h.mem, h.sent, h.fuses, h.boots, Nat.le_trans h.free b, fun p n => by
    have x := h.frame p n
    cases p <;> first | exact x | exact absurd n (by simp [*])⟩

theorem mem_set {x} (h : Keeps F r s) (b : s.mem.wf = true → x.wf = true) (o : F .mem = true) : Keeps F r ⟨s.pending, s.free, s.sent, s.dieTime, s.power, s.fuses, s.flash, s.boot, s.mgmt, s.fcu, s.cfg, s.regs, x, s.stackMap, s.banks, s.baus, s.seqs, s.seqNext, s.slots, s.ports, s.cores, s.notices, s.kept, s.kv, s.ldr, s.fab⟩ :=
  ⟨h.pending, fun w => b (h.mem w), h.sent, h.fuses, h.boots, h.free, fun p n => by
    have x := h.frame p n
    cases p <;> first | exact x | exact absurd n (by simp [*])⟩

/-- Several parts at once. -/
theorem several {x0 x1 x2 x3 x4 x5 x6 x7 x8 x9 x10 x11 x12 x13 x14 x15 x16 x17 x18 x19} (h : Keeps F r s)
    (ox0 : F .dieTime = true ∨ x0 = s.dieTime)
    (ox1 : F .power = true ∨ x1 = s.power)
    (ox2 : F .boot = true ∨ x2 = s.boot)
    (ox3 : F .mgmt = true ∨ x3 = s.mgmt)
    (ox4 : F .fcu = true ∨ x4 = s.fcu)
    (ox5 : F .cfg = true ∨ x5 = s.cfg)
    (ox6 : F .regs = true ∨ x6 = s.regs)
    (ox7 : F .stackMap = true ∨ x7 = s.stackMap)
    (ox8 : F .banks = true ∨ x8 = s.banks)
    (ox9 : F .baus = true ∨ x9 = s.baus)
    (ox10 : F .seqs = true ∨ x10 = s.seqs)
    (ox11 : F .seqNext = true ∨ x11 = s.seqNext)
    (ox12 : F .slots = true ∨ x12 = s.slots)
    (ox13 : F .ports = true ∨ x13 = s.ports)
    (ox14 : F .cores = true ∨ x14 = s.cores)
    (ox15 : F .notices = true ∨ x15 = s.notices)
    (ox16 : F .kept = true ∨ x16 = s.kept)
    (ox17 : F .kv = true ∨ x17 = s.kv)
    (ox18 : F .ldr = true ∨ x18 = s.ldr)
    (ox19 : F .fab = true ∨ x19 = s.fab)
    : Keeps F r ⟨s.pending, s.free, s.sent, x0, x1, s.fuses, s.flash, x2, x3, x4, x5, x6, s.mem, x7, x8, x9, x10, x11, x12, x13, x14, x15, x16, x17, x18, x19⟩ :=
  ⟨h.pending, h.mem, h.sent, h.fuses, h.boots, h.free, fun p n => by
    have x := h.frame p n
    cases p
    · exact x
    · exact x
    · exact ((ox0.resolve_left (by simp [n])).trans x)
    · exact ((ox1.resolve_left (by simp [n])).trans x)
    · exact x
    · exact x
    · exact ((ox2.resolve_left (by simp [n])).trans x)
    · exact ((ox3.resolve_left (by simp [n])).trans x)
    · exact ((ox4.resolve_left (by simp [n])).trans x)
    · exact ((ox5.resolve_left (by simp [n])).trans x)
    · exact ((ox6.resolve_left (by simp [n])).trans x)
    · exact x
    · exact ((ox7.resolve_left (by simp [n])).trans x)
    · exact ((ox8.resolve_left (by simp [n])).trans x)
    · exact ((ox9.resolve_left (by simp [n])).trans x)
    · exact ((ox10.resolve_left (by simp [n])).trans x)
    · exact ((ox11.resolve_left (by simp [n])).trans x)
    · exact ((ox12.resolve_left (by simp [n])).trans x)
    · exact ((ox13.resolve_left (by simp [n])).trans x)
    · exact ((ox14.resolve_left (by simp [n])).trans x)
    · exact ((ox15.resolve_left (by simp [n])).trans x)
    · exact ((ox16.resolve_left (by simp [n])).trans x)
    · exact ((ox17.resolve_left (by simp [n])).trans x)
    · exact ((ox18.resolve_left (by simp [n])).trans x)
    · exact ((ox19.resolve_left (by simp [n])).trans x)⟩

theorem foldl {α : Type} {f : State → α → State} {l : List α} (hf : ∀ t x, Keeps F r t → Keeps F r (f t x)) (h : Keeps F r s) :
    Keeps F r (l.foldl f s) := by
  induction l generalizing s with
  | nil => exact h
  | cons x l ih => exact ih (hf _ _ h)

theorem getD {o : Option State} (ho : ∀ t, o = some t → Keeps F r t) (h : Keeps F r s) : Keeps F r (o.getD s) := by
  cases e : o with
  | none => exact h
  | some t => exact ho t e

theorem ite {p : Prop} [Decidable p] {a b : State} (ha : p → Keeps F r a) (hb : ¬p → Keeps F r b) : Keeps F r (if p then a else b) := by
  split
  · exact ha ‹_›
  · exact hb ‹_›

end Keeps

/-- The command is carried out, and does only this. -/
def Good (F : Part → Bool) (s : State) (o : Host.Outcome State Fault Refusal) : Prop := ∃ t, o = .next t ∧ Keeps F s t

theorem Good.next {F : Part → Bool} {s t : State} (h : Keeps F s t) : Good F s (.next t) := ⟨t, .refl _, h⟩

end Sys2Proof.Machine
end

