-- ==== Sys2Proof/Laws/KeepsRegOps.lean ====
section
/-! SUPPORT. The operations of Machine/RegOps.lean undo nothing (Laws/Keeps.lean). -/

set_option Elab.async false
set_option linter.unusedTactic false
set_option linter.unreachableTactic false
set_option linter.unusedVariables false

namespace Sys2Proof.Machine

open Sys2Proof

theorem State.setReg_keeps {F : Part → Bool} {s₀ : State} {s : State} {d : Nat} {r : Reg} {u i : Nat} {w : Word} (h : Keeps F s₀ s) (f_regs : F .regs = true := by with_reducible assumption) : Keeps F s₀ (State.setReg s d r u i w) := by
  unfold State.setReg
  repeat' first
    | with_reducible assumption
    | intro _
    | with_reducible apply Keeps.ite
    | split
    | with_reducible apply Keeps.regs_set
    | dsimp only

theorem State.setFld_keeps {F : Part → Bool} {s₀ : State} {s : State} {d u i : Nat} {f : RF} {v : Nat} (h : Keeps F s₀ s) (f_regs : F .regs = true := by with_reducible assumption) : Keeps F s₀ (State.setFld s d u i f v) := by
  unfold State.setFld
  repeat' first
    | with_reducible assumption
    | with_reducible apply State.setReg_keeps
    | intro _
    | with_reducible apply Keeps.ite
    | split
    | dsimp only

theorem State.countFld_keeps {F : Part → Bool} {s₀ : State} {s : State} {d u i : Nat} {f : RF} {n : Nat} (h : Keeps F s₀ s) (f_regs : F .regs = true := by with_reducible assumption) : Keeps F s₀ (State.countFld s d u i f n) := by
  unfold State.countFld
  repeat' first
    | with_reducible assumption
    | with_reducible apply State.setFld_keeps
    | intro _
    | with_reducible apply Keeps.ite
    | split
    | dsimp only

end Sys2Proof.Machine
end

