-- ==== Sys2Proof/Laws/KeepsFaultOps.lean ====
section
/-! SUPPORT. The operations of Machine/FaultOps.lean undo nothing (Laws/Keeps.lean). -/

set_option Elab.async false
set_option linter.unusedTactic false
set_option linter.unreachableTactic false
set_option linter.unusedVariables false

namespace Sys2Proof.Machine

open Sys2Proof

theorem State.flushLog_keeps {F : Part → Bool} {s₀ s : State} (h : Keeps F s₀ s) (f_flash : F .flash = true := by with_reducible assumption) (f_fcu : F .fcu = true := by with_reducible assumption) : Keeps F s₀ (State.flushLog s) := by
  refine ⟨h.pending, h.mem, h.sent, h.fuses, h.boots, h.free, fun p n => ?_⟩
  have x := h.frame p n
  cases p <;> first | exact x | exact absurd n (by simp [*])

theorem State.toFlashLog_keeps {F : Part → Bool} {s₀ : State} {s : State} {mk : Nat → List Byte} (h : Keeps F s₀ s) (f_fcu : F .fcu = true := by with_reducible assumption) : Keeps F s₀ (State.toFlashLog s mk) := by
  unfold State.toFlashLog
  repeat' first
    | with_reducible assumption
    | intro _
    | with_reducible apply Keeps.ite
    | split
    | with_reducible apply Keeps.fcu_set
    | dsimp only

theorem State.countClass_keeps {F : Part → Bool} {s₀ : State} {s : State} {d cls : Nat} (h : Keeps F s₀ s) (f_regs : F .regs = true := by with_reducible assumption) : Keeps F s₀ (State.countClass s d cls) := by
  unfold State.countClass
  repeat' first
    | with_reducible assumption
    | with_reducible apply State.countFld_keeps
    | intro _
    | with_reducible apply Keeps.ite
    | split
    | dsimp only

theorem State.ringPut_keeps {F : Part → Bool} {s₀ : State} {s : State} {d : Nat} {bytes : List Byte} (h : Keeps F s₀ s) (f_fcu : F .fcu = true := by with_reducible assumption) (f_regs : F .regs = true := by with_reducible assumption) : Keeps F s₀ (State.ringPut s d bytes) := by
  unfold State.ringPut
  repeat' first
    | with_reducible assumption
    | with_reducible apply State.setFld_keeps
    | intro _
    | with_reducible apply Keeps.ite
    | split
    | with_reducible apply Keeps.fcu_set
    | dsimp only

theorem State.raise_keeps {F : Part → Bool} {s₀ : State} {s : State} {d id : Nat} {u : FaultUnit} {task detail : Nat} (h : Keeps F s₀ s) (f_flash : F .flash = true := by with_reducible assumption) (f_fcu : F .fcu = true := by with_reducible assumption) (f_regs : F .regs = true := by with_reducible assumption) : Keeps F s₀ (State.raise s d id u task detail) := by
  unfold State.raise
  repeat' first
    | with_reducible assumption
    | with_reducible apply State.countClass_keeps
    | with_reducible apply State.flushLog_keeps
    | with_reducible apply State.ringPut_keeps
    | with_reducible apply State.toFlashLog_keeps
    | intro _
    | with_reducible apply Keeps.ite
    | split
    | with_reducible apply Keeps.fcu_set
    | dsimp only

theorem State.send_keeps {F : Part → Bool} {s₀ s : State} {m : Sent} (h : Keeps F s₀ s) (f_sent : F .sent = true := by with_reducible assumption) : Keeps F s₀ (State.send s m) :=
  Keeps.sent_add h f_sent

theorem State.when_keeps {F : Part → Bool} {s₀ s : State} {c : Bool} {f : State → State} (h : Keeps F s₀ s) (hf : ∀ t, Keeps F s₀ t → Keeps F s₀ (f t)) : Keeps F s₀ (State.when s c f) := by
  unfold State.when
  split
  · exact hf _ h
  · exact h

theorem State.whenP_keeps {F : Part → Bool} {s₀ s : State} {p : Prop} [Decidable p] {f : State → State} (h : Keeps F s₀ s) (hf : ∀ t, Keeps F s₀ t → Keeps F s₀ (f t)) : Keeps F s₀ (State.whenP s p f) := by
  unfold State.whenP
  split
  · exact hf _ h
  · exact h

end Sys2Proof.Machine
end

