-- ==== Sys2Proof/Laws/KeepsPowerOps.lean ====
section
/-! SUPPORT. The operations of Machine/PowerOps.lean undo nothing (Laws/Keeps.lean). -/

set_option Elab.async false
set_option linter.unusedTactic false
set_option linter.unreachableTactic false
set_option linter.unusedVariables false

namespace Sys2Proof.Machine

open Sys2Proof

theorem State.onPower_keeps {F : Part → Bool} {s₀ : State} {s : State} {f : Power → Power} (h : Keeps F s₀ s) (f_power : F .power = true := by with_reducible assumption) : Keeps F s₀ (State.onPower s f) := by
  unfold State.onPower
  repeat' first
    | with_reducible assumption
    | intro _
    | with_reducible apply Keeps.ite
    | split
    | with_reducible apply Keeps.power_set
    | dsimp only

theorem State.setStack_keeps {F : Part → Bool} {s₀ : State} {s : State} {stk : Nat} {st : Stack} (h : Keeps F s₀ s) (f_stackMap : F .stackMap = true := by with_reducible assumption) : Keeps F s₀ (State.setStack s stk st) := by
  unfold State.setStack
  repeat' first
    | with_reducible assumption
    | intro _
    | with_reducible apply Keeps.ite
    | split
    | with_reducible apply Keeps.stackMap_set
    | dsimp only

theorem State.onStack_keeps {F : Part → Bool} {s₀ : State} {s : State} {stk : Nat} {f : Stack → Stack} (h : Keeps F s₀ s) (f_stackMap : F .stackMap = true := by with_reducible assumption) : Keeps F s₀ (State.onStack s stk f) := by
  unfold State.onStack
  repeat' first
    | with_reducible assumption
    | with_reducible apply State.setStack_keeps
    | intro _
    | with_reducible apply Keeps.ite
    | split
    | dsimp only

theorem State.shutBus_keeps {F : Part → Bool} {s₀ s : State} (h : Keeps F s₀ s) (f_power : F .power = true := by with_reducible assumption) (f_mem : F .mem = true := by with_reducible assumption) : Keeps F s₀ (State.shutBus s) := by
  refine ⟨h.pending, fun _ => rfl, h.sent, h.fuses, h.boots, h.free, fun p n => ?_⟩
  have x := h.frame p n
  cases p <;> first | exact x | exact absurd n (by simp [*])

theorem State.storeTemp_keeps {F : Part → Bool} {s₀ : State} {s : State} {d idx : Nat} {t : Int} (h : Keeps F s₀ s) (f_power : F .power = true := by with_reducible assumption) : Keeps F s₀ (State.storeTemp s d idx t) := by
  unfold State.storeTemp
  repeat' first
    | with_reducible assumption
    | with_reducible apply State.onPower_keeps
    | intro _
    | with_reducible apply Keeps.ite
    | split
    | dsimp only

theorem State.excludeSensor_keeps {F : Part → Bool} {s₀ : State} {s : State} {d idx : Nat} {t : Int} (h : Keeps F s₀ s) (f_power : F .power = true := by with_reducible assumption) (f_flash : F .flash = true := by with_reducible assumption) (f_fcu : F .fcu = true := by with_reducible assumption) (f_regs : F .regs = true := by with_reducible assumption) : Keeps F s₀ (State.excludeSensor s d idx t) := by
  unfold State.excludeSensor
  repeat' first
    | with_reducible assumption
    | with_reducible apply State.onPower_keeps
    | with_reducible apply State.raise_keeps
    | intro _
    | with_reducible apply Keeps.ite
    | split
    | dsimp only

theorem State.thresholds_keeps {F : Part → Bool} {s₀ : State} {s : State} {d idx : Nat} {t : Int} (h : Keeps F s₀ s) (f_power : F .power = true := by with_reducible assumption) (f_flash : F .flash = true := by with_reducible assumption) (f_fcu : F .fcu = true := by with_reducible assumption) (f_regs : F .regs = true := by with_reducible assumption) (f_mem : F .mem = true := by with_reducible assumption) : Keeps F s₀ (State.thresholds s d idx t) := by
  unfold State.thresholds
  repeat' first
    | with_reducible assumption
    | with_reducible apply State.raise_keeps
    | with_reducible apply State.shutBus_keeps
    | intro _
    | with_reducible apply Keeps.ite
    | split
    | dsimp only

theorem State.quicken_keeps {F : Part → Bool} {s₀ : State} {s : State} {stk : Nat} (h : Keeps F s₀ s) (f_stackMap : F .stackMap = true := by with_reducible assumption) : Keeps F s₀ (State.quicken s stk) := by
  unfold State.quicken
  repeat' first
    | with_reducible assumption
    | with_reducible apply State.setStack_keeps
    | intro _
    | with_reducible apply Keeps.ite
    | split
    | dsimp only

theorem State.reading_keeps {F : Part → Bool} {s₀ : State} {s : State} {d idx : Nat} {t : Int} (h : Keeps F s₀ s) (f_sent : F .sent = true := by with_reducible assumption) (f_power : F .power = true := by with_reducible assumption) (f_flash : F .flash = true := by with_reducible assumption) (f_fcu : F .fcu = true := by with_reducible assumption) (f_regs : F .regs = true := by with_reducible assumption) (f_mem : F .mem = true := by with_reducible assumption) (f_stackMap : F .stackMap = true := by with_reducible assumption) : Keeps F s₀ (State.reading s d idx t) := by
  unfold State.reading
  repeat' first
    | with_reducible assumption
    | with_reducible apply State.excludeSensor_keeps
    | with_reducible apply State.quicken_keeps
    | with_reducible apply State.send_keeps
    | with_reducible apply State.storeTemp_keeps
    | with_reducible apply State.thresholds_keeps
    | intro _
    | with_reducible apply Keeps.ite
    | split
    | dsimp only

theorem State.demand_keeps {F : Part → Bool} {s₀ : State} {s : State} {d : Nat} {is : List Nat} {who : DemandBy} (h : Keeps F s₀ s) (f_power : F .power = true := by with_reducible assumption) : Keeps F s₀ (State.demand s d is who) := by
  unfold State.demand
  repeat' first
    | with_reducible assumption
    | with_reducible apply State.onPower_keeps
    | intro _
    | with_reducible apply Keeps.ite
    | split
    | dsimp only

theorem State.dropDemands_keeps {F : Part → Bool} {s₀ : State} {s : State} {d idx : Nat} (h : Keeps F s₀ s) (f_power : F .power = true := by with_reducible assumption) : Keeps F s₀ (State.dropDemands s d idx) := by
  unfold State.dropDemands
  repeat' first
    | with_reducible assumption
    | with_reducible apply State.onPower_keeps
    | intro _
    | with_reducible apply Keeps.ite
    | split
    | dsimp only

theorem State.countWarm_keeps {F : Part → Bool} {s₀ : State} {s : State} {d idx : Nat} {t : Int} (h : Keeps F s₀ s) (f_power : F .power = true := by with_reducible assumption) : Keeps F s₀ (State.countWarm s d idx t) := by
  unfold State.countWarm
  repeat' first
    | with_reducible assumption
    | with_reducible apply State.onPower_keeps
    | intro _
    | with_reducible apply Keeps.ite
    | split
    | dsimp only

theorem State.loopDone_keeps {F : Part → Bool} {s₀ : State} {s : State} {d : Nat} (h : Keeps F s₀ s) (f_power : F .power = true := by with_reducible assumption) (f_regs : F .regs = true := by with_reducible assumption) : Keeps F s₀ (State.loopDone s d) := by
  unfold State.loopDone
  repeat' first
    | with_reducible assumption
    | with_reducible apply State.onPower_keeps
    | with_reducible apply State.setFld_keeps
    | intro _
    | with_reducible apply Keeps.ite
    | split
    | dsimp only

theorem State.stackRead_keeps {F : Part → Bool} {s₀ : State} {s : State} {stk : Nat} (h : Keeps F s₀ s) (f_stackMap : F .stackMap = true := by with_reducible assumption) : Keeps F s₀ (State.stackRead s stk) := by
  unfold State.stackRead
  repeat' first
    | with_reducible assumption
    | with_reducible apply State.setStack_keeps
    | intro _
    | with_reducible apply Keeps.ite
    | split
    | dsimp only

theorem State.hostReading_keeps {F : Part → Bool} {s₀ : State} {s : State} {d idx : Nat} {t : Int} (h : Keeps F s₀ s) (f_regs : F .regs = true := by with_reducible assumption) : Keeps F s₀ (State.hostReading s d idx t) := by
  unfold State.hostReading
  repeat' first
    | with_reducible assumption
    | with_reducible apply State.setFld_keeps
    | intro _
    | with_reducible apply Keeps.ite
    | split
    | dsimp only

theorem State.tsenseReq_keeps {F : Part → Bool} {s₀ : State} {s : State} {d v : Nat} (h : Keeps F s₀ s) (f_power : F .power = true := by with_reducible assumption) (f_regs : F .regs = true := by with_reducible assumption) : Keeps F s₀ (State.tsenseReq s d v) := by
  unfold State.tsenseReq
  repeat' first
    | with_reducible assumption
    | with_reducible apply State.demand_keeps
    | with_reducible apply State.setFld_keeps
    | intro _
    | with_reducible apply Keeps.ite
    | split
    | dsimp only

end Sys2Proof.Machine
end

