-- ==== Sys2Proof/Laws/KeepsMemMap.lean ====
section
/-! SUPPORT. The operations of Machine/MemMap.lean undo nothing (Laws/Keeps.lean). -/

set_option Elab.async false
set_option linter.unusedTactic false
set_option linter.unreachableTactic false
set_option linter.unusedVariables false

namespace Sys2Proof.Machine

open Sys2Proof

theorem State.mapErr_keeps {F : Part → Bool} {s₀ : State} {s : State} {ag : Agent} {write : Bool} {a : Nat} (h : Keeps F s₀ s) (f_regs : F .regs = true := by with_reducible assumption) : Keeps F s₀ (State.mapErr s ag write a) := by
  unfold State.mapErr
  repeat' first
    | with_reducible assumption
    | with_reducible apply State.setFld_keeps
    | intro _
    | with_reducible apply Keeps.ite
    | split
    | dsimp only

end Sys2Proof.Machine
end

