-- ==== Sys2Proof/Laws/KeepsFabricOps.lean ====
section
/-! SUPPORT. The operations of Machine/FabricOps.lean undo nothing (Laws/Keeps.lean). -/

set_option Elab.async false
set_option linter.unusedTactic false
set_option linter.unreachableTactic false
set_option linter.unusedVariables false

namespace Sys2Proof.Machine

open Sys2Proof

theorem State.onFab_keeps {F : Part → Bool} {s₀ : State} {s : State} {f : Fabric → Fabric} (h : Keeps F s₀ s) (f_fab : F .fab = true := by with_reducible assumption) : Keeps F s₀ (State.onFab s f) := by
  unfold State.onFab
  repeat' first
    | with_reducible assumption
    | intro _
    | with_reducible apply Keeps.ite
    | split
    | with_reducible apply Keeps.fab_set
    | dsimp only

theorem State.onFPort_keeps {F : Part → Bool} {s₀ : State} {s : State} {p : Nat} {f : FPort → FPort} (h : Keeps F s₀ s) (f_fab : F .fab = true := by with_reducible assumption) : Keeps F s₀ (State.onFPort s p f) := by
  unfold State.onFPort
  repeat' first
    | with_reducible assumption
    | with_reducible apply State.onFab_keeps
    | intro _
    | with_reducible apply Keeps.ite
    | split
    | dsimp only

theorem State.sendFlit_keeps {F : Part → Bool} {s₀ : State} {s : State} {p : Nat} {data : Bool} {payload : List Byte} {nak : Bool} (h : Keeps F s₀ s) (f_sent : F .sent = true := by with_reducible assumption) (f_fab : F .fab = true := by with_reducible assumption) : Keeps F s₀ (State.sendFlit s p data payload nak) := by
  unfold State.sendFlit
  repeat' first
    | with_reducible assumption
    | with_reducible apply State.onFPort_keeps
    | with_reducible apply State.send_keeps
    | intro _
    | with_reducible apply Keeps.ite
    | split
    | dsimp only

theorem State.sendFlits_keeps {F : Part → Bool} {s₀ s : State} {p n : Nat} {bs : List Byte} (h : Keeps F s₀ s) (f_sent : F .sent = true := by with_reducible assumption) (f_fab : F .fab = true := by with_reducible assumption) : Keeps F s₀ (s.sendFlits p n bs) := by
  induction n generalizing s bs with
  | zero => exact h
  | succ n ih =>
    rw [State.sendFlits]
    repeat' first
      | with_reducible assumption
      | with_reducible apply State.sendFlit_keeps
      | with_reducible apply ih
      | intro _
      | with_reducible apply Keeps.ite
      | split
      | dsimp only


theorem State.queueFrame_keeps {F : Part → Bool} {s₀ : State} {s : State} {p : Nat} {f : List Byte} {vc : Nat} {from_ : Option (Nat × Nat × Nat)} (h : Keeps F s₀ s) (f_fab : F .fab = true := by with_reducible assumption) : Keeps F s₀ (State.queueFrame s p f vc from_) := by
  unfold State.queueFrame
  repeat' first
    | with_reducible assumption
    | with_reducible apply State.onFPort_keeps
    | intro _
    | with_reducible apply Keeps.ite
    | split
    | dsimp only

theorem State.freeBuffer_keeps {F : Part → Bool} {s₀ : State} {s : State} {from_ : Option (Nat × Nat × Nat)} {units : Nat} (h : Keeps F s₀ s) (f_fab : F .fab = true := by with_reducible assumption) : Keeps F s₀ (State.freeBuffer s from_ units) := by
  unfold State.freeBuffer
  repeat' first
    | with_reducible assumption
    | with_reducible apply State.queueFrame_keeps
    | intro _
    | with_reducible apply Keeps.ite
    | split
    | dsimp only

theorem State.pump_keeps {F : Part → Bool} {s₀ s : State} {p n : Nat} (h : Keeps F s₀ s) (f_sent : F .sent = true := by with_reducible assumption) (f_fab : F .fab = true := by with_reducible assumption) : Keeps F s₀ (s.pump p n) := by
  induction n generalizing s with
  | zero => exact h
  | succ n ih =>
    rw [State.pump]
    repeat' first
      | with_reducible assumption
      | with_reducible apply State.freeBuffer_keeps
      | with_reducible apply State.onFPort_keeps
      | with_reducible apply State.sendFlits_keeps
      | with_reducible apply ih
      | intro _
      | with_reducible apply Keeps.ite
      | split
      | dsimp only


theorem State.pumpAll_keeps {F : Part → Bool} {s₀ : State} {s : State} (h : Keeps F s₀ s) (f_sent : F .sent = true := by with_reducible assumption) (f_fab : F .fab = true := by with_reducible assumption) : Keeps F s₀ (State.pumpAll s) := by
  unfold State.pumpAll
  repeat' first
    | with_reducible assumption
    | with_reducible apply Keeps.foldl
    | with_reducible apply State.pump_keeps
    | intro _
    | with_reducible apply Keeps.ite
    | split
    | dsimp only

theorem State.chooseRoute_keeps {F : Part → Bool} {s₀ s : State} {f : List Byte} {g : Nat} (h : Keeps F s₀ s) (f_free : F .free = true := by with_reducible assumption) : Keeps F s₀ (s.chooseRoute f g).1 := by
  have h' : Keeps F s₀ { s with free := s.free + 1 } := Keeps.used h (Nat.le_add_right _ _) f_free
  unfold State.chooseRoute
  split
  · exact h
  · generalize ({ s with free := s.free + 1 } : State) = t at h' ⊢
    dsimp only
    repeat' split
    all_goals exact h'

theorem State.chooseRoute_keeps_of {F : Part → Bool} {s₀ s t : State} {f : List Byte} {g : Nat} {x : List Byte} (h : Keeps F s₀ s) (e : s.chooseRoute f g = (t, x)) (f_free : F .free = true := by with_reducible assumption) : Keeps F s₀ t := by
  have : Keeps F s₀ (s.chooseRoute f g).1 := State.chooseRoute_keeps h
  rw [e] at this
  exact this

theorem State.forwardTo_keeps {F : Part → Bool} {s₀ : State} {s : State} {f : List Byte} {from_ : Option (Nat × Nat × Nat)} (h : Keeps F s₀ s) (f_sent : F .sent = true := by with_reducible assumption) (f_fab : F .fab = true := by with_reducible assumption) : Keeps F s₀ (State.forwardTo s f from_) := by
  unfold State.forwardTo
  repeat' first
    | with_reducible assumption
    | with_reducible apply State.freeBuffer_keeps
    | with_reducible apply State.onFPort_keeps
    | with_reducible apply State.pumpAll_keeps
    | with_reducible apply State.queueFrame_keeps
    | intro _
    | with_reducible apply Keeps.ite
    | split
    | dsimp only

theorem State.forward_keeps {F : Part → Bool} {s₀ : State} {s : State} {f : List Byte} {from_ : Option (Nat × Nat × Nat)} (h : Keeps F s₀ s) (f_sent : F .sent = true := by with_reducible assumption) (f_fab : F .fab = true := by with_reducible assumption) : Keeps F s₀ (State.forward s f from_) := by
  unfold State.forward
  repeat' first
    | with_reducible assumption
    | with_reducible apply State.forwardTo_keeps
    | with_reducible apply State.freeBuffer_keeps
    | intro _
    | with_reducible apply Keeps.ite
    | split
    | dsimp only

theorem State.sendFrame_keeps {F : Part → Bool} {s₀ : State} {s : State} {f : List Byte} (h : Keeps F s₀ s) (f_free : F .free = true := by with_reducible assumption) (f_sent : F .sent = true := by with_reducible assumption) (f_fab : F .fab = true := by with_reducible assumption) : Keeps F s₀ (State.sendFrame s f) := by
  unfold State.sendFrame
  repeat' first
    | with_reducible assumption
    | with_reducible apply State.chooseRoute_keeps
    | refine State.chooseRoute_keeps_of ?_ (by with_reducible assumption)
    | with_reducible apply State.forward_keeps
    | intro _
    | with_reducible apply Keeps.ite
    | split
    | dsimp only

theorem State.request_keeps {F : Part → Bool} {s₀ : State} {s : State} {d agent kind dst opt addr len : Nat} {payload : List Byte} {owner : Nat × Nat × Nat × Nat} (h : Keeps F s₀ s) (f_free : F .free = true := by with_reducible assumption) (f_sent : F .sent = true := by with_reducible assumption) (f_fab : F .fab = true := by with_reducible assumption) : Keeps F s₀ (State.request s d agent kind dst opt addr len payload owner) := by
  unfold State.request
  repeat' first
    | with_reducible assumption
    | with_reducible apply State.onFab_keeps
    | with_reducible apply State.sendFrame_keeps
    | intro _
    | with_reducible apply Keeps.ite
    | split
    | dsimp only

theorem State.requestRead_keeps {F : Part → Bool} {s₀ : State} {s : State} {d agent dst addr len : Nat} {owner : Nat × Nat × Nat × Nat} (h : Keeps F s₀ s) (f_free : F .free = true := by with_reducible assumption) (f_sent : F .sent = true := by with_reducible assumption) (f_fab : F .fab = true := by with_reducible assumption) : Keeps F s₀ (State.requestRead s d agent dst addr len owner) := by
  unfold State.requestRead
  repeat' first
    | with_reducible assumption
    | with_reducible apply State.request_keeps
    | intro _
    | with_reducible apply Keeps.ite
    | split
    | dsimp only

theorem State.requestWrite_keeps {F : Part → Bool} {s₀ : State} {s : State} {d agent dst addr : Nat} {data : List Byte} {owner : Nat × Nat × Nat × Nat} (h : Keeps F s₀ s) (f_free : F .free = true := by with_reducible assumption) (f_sent : F .sent = true := by with_reducible assumption) (f_fab : F .fab = true := by with_reducible assumption) : Keeps F s₀ (State.requestWrite s d agent dst addr data owner) := by
  unfold State.requestWrite
  repeat' first
    | with_reducible assumption
    | with_reducible apply State.request_keeps
    | intro _
    | with_reducible apply Keeps.ite
    | split
    | dsimp only

theorem State.dropReqs_keeps {F : Part → Bool} {s₀ : State} {s : State} {owner : Nat × Nat × Nat × Nat → Bool} (h : Keeps F s₀ s) (f_fab : F .fab = true := by with_reducible assumption) : Keeps F s₀ (State.dropReqs s owner) := by
  unfold State.dropReqs
  repeat' first
    | with_reducible assumption
    | with_reducible apply State.onFab_keeps
    | intro _
    | with_reducible apply Keeps.ite
    | split
    | dsimp only

theorem State.answer_keeps {F : Part → Bool} {s₀ : State} {s : State} {x : HeldAccess} {r : Reply} (h : Keeps F s₀ s) (f_free : F .free = true := by with_reducible assumption) (f_sent : F .sent = true := by with_reducible assumption) (f_mem : F .mem = true := by with_reducible assumption) (f_fab : F .fab = true := by with_reducible assumption) : Keeps F s₀ (State.answer s x r) := by
  unfold State.answer
  repeat' first
    | with_reducible assumption
    | with_reducible apply State.send_keeps
    | with_reducible apply State.sendFrame_keeps
    | intro _
    | with_reducible apply Keeps.ite
    | split
    | dsimp only

end Sys2Proof.Machine
end

