-- ==== Sys2Proof/Laws/KeepsMemOps.lean ====
section
/-! SUPPORT. The operations of Machine/MemOps.lean undo nothing (Laws/Keeps.lean). -/

set_option Elab.async false
set_option linter.unusedTactic false
set_option linter.unreachableTactic false
set_option linter.unusedVariables false

namespace Sys2Proof.Machine

open Sys2Proof

theorem State.onMem_keeps {F : Part → Bool} {s₀ s : State} {f : Memory → Memory} (h : Keeps F s₀ s) (hf : s.mem.wf = true → (f s.mem).wf = true) (f_mem : F .mem = true := by with_reducible assumption) : Keeps F s₀ (State.onMem s f) :=
  Keeps.mem_set h hf f_mem

theorem State.poisonLine_keeps {F : Part → Bool} {s₀ s : State} {p : Nat} (h : Keeps F s₀ s) (f_mem : F .mem = true := by with_reducible assumption) : Keeps F s₀ (State.poisonLine s p) :=
  State.onMem_keeps h fun w => Memory.wf_iff.2 ⟨(Memory.wf_iff.1 w).1, risingNat_insertNat (Memory.wf_iff.1 w).2⟩

theorem State.writeLine_keeps {F : Part → Bool} {s₀ s : State} {p : Nat} {data : List Byte} {poison : Bool} (h : Keeps F s₀ s) (f_mem : F .mem = true := by with_reducible assumption) : Keeps F s₀ (State.writeLine s p data poison) := by
  unfold State.writeLine
  split
  · exact h
  · refine State.onMem_keeps h fun w => ?_
    obtain ⟨c, q⟩ := Memory.wf_iff.1 w
    refine Memory.wf_iff.2 ⟨mwf_writeCells c, ?_⟩
    dsimp only
    split
    · exact risingNat_insertNat q
    · split
      · exact risingNat_filter q
      · exact q

theorem State.writePiece_keeps {F : Part → Bool} {s₀ s : State} {a : Nat} {data : List Byte} {poison : Bool} (h : Keeps F s₀ s) (f_mem : F .mem = true := by with_reducible assumption) : Keeps F s₀ (State.writePiece s a data poison) := by
  unfold State.writePiece
  split
  · exact State.writeLine_keeps h
  · exact State.onMem_keeps h fun w => Memory.wf_iff.2 ⟨mwf_writeCells (Memory.wf_iff.1 w).1, (Memory.wf_iff.1 w).2⟩
  · exact h

theorem State.writePieces_keeps {F : Part → Bool} {s₀ s : State} {poison : Bool} {ps : List (Nat × Nat)} {bs : List Byte} (h : Keeps F s₀ s) (f_mem : F .mem = true := by with_reducible assumption) : Keeps F s₀ (s.writePieces poison ps bs) := by
  induction ps generalizing s bs with
  | nil => exact h
  | cons x ps ih =>
    rw [State.writePieces]
    repeat' first
      | with_reducible assumption
      | with_reducible apply State.writePiece_keeps
      | with_reducible apply ih
      | intro _
      | with_reducible apply Keeps.ite
      | split
      | dsimp only


theorem State.writeBytes_keeps {F : Part → Bool} {s₀ : State} {s : State} {a : Nat} {data : List Byte} (h : Keeps F s₀ s) (f_mem : F .mem = true := by with_reducible assumption) : Keeps F s₀ (State.writeBytes s a data) := by
  unfold State.writeBytes
  repeat' first
    | with_reducible assumption
    | with_reducible apply State.writePieces_keeps
    | intro _
    | with_reducible apply Keeps.ite
    | split
    | dsimp only

theorem State.onPort_keeps {F : Part → Bool} {s₀ : State} {s : State} {p : Nat} {f : HostPort → HostPort} (h : Keeps F s₀ s) (f_ports : F .ports = true := by with_reducible assumption) : Keeps F s₀ (State.onPort s p f) := by
  unfold State.onPort
  repeat' first
    | with_reducible assumption
    | intro _
    | with_reducible apply Keeps.ite
    | split
    | with_reducible apply Keeps.ports_set
    | dsimp only

theorem State.issueSnoops_keeps {F : Part → Bool} {s₀ s : State} {l : List Snoop} (h : Keeps F s₀ s) (f_sent : F .sent = true := by with_reducible assumption) (f_mem : F .mem = true := by with_reducible assumption) : Keeps F s₀ (s.issueSnoops l) := by
  induction l generalizing s with
  | nil => exact h
  | cons x l ih =>
    rw [State.issueSnoops]
    repeat' first
      | with_reducible assumption
      | with_reducible apply State.onMem_keeps
      | exact Memory.wf_same (by with_reducible rfl) (by with_reducible rfl)
      | with_reducible apply State.send_keeps
      | with_reducible apply ih
      | intro _
      | with_reducible apply Keeps.ite
      | split
      | dsimp only


theorem State.ask_keeps {F : Part → Bool} {s₀ : State} {s : State} {ag : Agent} {a n : Nat} {write : Bool} (h : Keeps F s₀ s) (f_sent : F .sent = true := by with_reducible assumption) (f_mem : F .mem = true := by with_reducible assumption) : Keeps F s₀ (State.ask s ag a n write) := by
  unfold State.ask
  repeat' first
    | with_reducible assumption
    | with_reducible apply State.issueSnoops_keeps
    | intro _
    | with_reducible apply Keeps.ite
    | split
    | dsimp only

theorem State.useObtained_keeps {F : Part → Bool} {s₀ : State} {s : State} {a n : Nat} (h : Keeps F s₀ s) (f_mem : F .mem = true := by with_reducible assumption) : Keeps F s₀ (State.useObtained s a n) := by
  unfold State.useObtained
  repeat' first
    | with_reducible assumption
    | with_reducible apply State.onMem_keeps
    | exact Memory.wf_same (by with_reducible rfl) (by with_reducible rfl)
    | intro _
    | with_reducible apply Keeps.ite
    | split
    | dsimp only

theorem State.fresh_keeps {F : Part → Bool} {s₀ s : State} (h : Keeps F s₀ s) (f_free : F .free = true := by with_reducible assumption) : Keeps F s₀ (State.fresh s).2 :=
  Keeps.used h (Nat.le_succ _) f_free

theorem State.fresh_keeps_of {F : Part → Bool} {s₀ s t : State} {n : Nat} (h : Keeps F s₀ s) (e : State.fresh s = (n, t)) (f_free : F .free = true := by with_reducible assumption) : Keeps F s₀ t := by
  have := State.fresh_keeps h
  rw [e] at this
  exact this

end Sys2Proof.Machine
end

