-- ==== Sys2Proof/Laws/KeepsStackOps.lean ====
section
/-! SUPPORT. The operations of Machine/StackOps.lean undo nothing (Laws/Keeps.lean). -/

set_option Elab.async false
set_option linter.unusedTactic false
set_option linter.unreachableTactic false
set_option linter.unusedVariables false

namespace Sys2Proof.Machine

open Sys2Proof

theorem State.setBank_keeps {F : Part → Bool} {s₀ : State} {s : State} {b : BankId} {x : Bank} (h : Keeps F s₀ s) (f_banks : F .banks = true := by with_reducible assumption) : Keeps F s₀ (State.setBank s b x) := by
  unfold State.setBank
  repeat' first
    | with_reducible assumption
    | intro _
    | with_reducible apply Keeps.ite
    | split
    | with_reducible apply Keeps.banks_set
    | dsimp only

theorem State.onBank_keeps {F : Part → Bool} {s₀ : State} {s : State} {b : BankId} {f : Bank → Bank} (h : Keeps F s₀ s) (f_banks : F .banks = true := by with_reducible assumption) : Keeps F s₀ (State.onBank s b f) := by
  unfold State.onBank
  repeat' first
    | with_reducible assumption
    | with_reducible apply State.setBank_keeps
    | intro _
    | with_reducible apply Keeps.ite
    | split
    | dsimp only

theorem State.drive_keeps {F : Part → Bool} {s₀ : State} {s : State} {b : BankId} {x : Bank} (h : Keeps F s₀ s) (f_banks : F .banks = true := by with_reducible assumption) : Keeps F s₀ (State.drive s b x) := by
  unfold State.drive
  repeat' first
    | with_reducible assumption
    | with_reducible apply State.setBank_keeps
    | intro _
    | with_reducible apply Keeps.ite
    | split
    | dsimp only

theorem State.nextRefresh_keeps {F : Part → Bool} {s₀ : State} {s : State} {stk : Nat} (h : Keeps F s₀ s) (f_banks : F .banks = true := by with_reducible assumption) : Keeps F s₀ (State.nextRefresh s stk) := by
  unfold State.nextRefresh
  repeat' first
    | with_reducible assumption
    | with_reducible apply State.drive_keeps
    | intro _
    | with_reducible apply Keeps.ite
    | split
    | dsimp only

theorem State.columnError_keeps {F : Part → Bool} {s₀ : State} {s : State} {p symbols : Nat} (h : Keeps F s₀ s) (f_flash : F .flash = true := by with_reducible assumption) (f_fcu : F .fcu = true := by with_reducible assumption) (f_regs : F .regs = true := by with_reducible assumption) (f_mem : F .mem = true := by with_reducible assumption) : Keeps F s₀ (State.columnError s p symbols) := by
  unfold State.columnError
  repeat' first
    | with_reducible assumption
    | with_reducible apply State.countFld_keeps
    | with_reducible apply State.poisonLine_keeps
    | with_reducible apply State.raise_keeps
    | intro _
    | with_reducible apply Keeps.ite
    | split
    | dsimp only

theorem State.logRepair_keeps {F : Part → Bool} {s₀ : State} {s : State} {r : Repair} (h : Keeps F s₀ s) (f_flash : F .flash = true := by with_reducible assumption) : Keeps F s₀ (State.logRepair s r) := by
  unfold State.logRepair
  repeat' first
    | with_reducible assumption
    | intro _
    | with_reducible apply Keeps.ite
    | split
    | refine Keeps.flash ?_ (Nat.le_refl _) (by with_reducible assumption)
    | dsimp only

theorem State.stackFailed_keeps {F : Part → Bool} {s₀ : State} {s : State} {stk : Nat} (h : Keeps F s₀ s) (f_flash : F .flash = true := by with_reducible assumption) (f_fcu : F .fcu = true := by with_reducible assumption) (f_regs : F .regs = true := by with_reducible assumption) (f_stackMap : F .stackMap = true := by with_reducible assumption) : Keeps F s₀ (State.stackFailed s stk) := by
  unfold State.stackFailed
  repeat' first
    | with_reducible assumption
    | with_reducible apply State.onStack_keeps
    | with_reducible apply State.raise_keeps
    | intro _
    | with_reducible apply Keeps.ite
    | split
    | dsimp only

theorem State.retireBank_keeps {F : Part → Bool} {s₀ : State} {s : State} {stk die bank : Nat} (h : Keeps F s₀ s) (f_flash : F .flash = true := by with_reducible assumption) (f_fcu : F .fcu = true := by with_reducible assumption) (f_regs : F .regs = true := by with_reducible assumption) (f_stackMap : F .stackMap = true := by with_reducible assumption) : Keeps F s₀ (State.retireBank s stk die bank) := by
  unfold State.retireBank
  repeat' first
    | with_reducible assumption
    | with_reducible apply State.logRepair_keeps
    | with_reducible apply State.onStack_keeps
    | with_reducible apply State.raise_keeps
    | with_reducible apply State.stackFailed_keeps
    | intro _
    | with_reducible apply Keeps.ite
    | split
    | dsimp only

theorem State.retireDie_keeps {F : Part → Bool} {s₀ : State} {s : State} {stk die : Nat} (h : Keeps F s₀ s) (f_flash : F .flash = true := by with_reducible assumption) (f_fcu : F .fcu = true := by with_reducible assumption) (f_regs : F .regs = true := by with_reducible assumption) (f_stackMap : F .stackMap = true := by with_reducible assumption) : Keeps F s₀ (State.retireDie s stk die) := by
  unfold State.retireDie
  repeat' first
    | with_reducible assumption
    | with_reducible apply State.logRepair_keeps
    | with_reducible apply State.onStack_keeps
    | with_reducible apply State.raise_keeps
    | with_reducible apply State.stackFailed_keeps
    | intro _
    | with_reducible apply Keeps.ite
    | split
    | dsimp only

theorem State.parityDieFails_keeps {F : Part → Bool} {s₀ : State} {s : State} {stk : Nat} (h : Keeps F s₀ s) (f_flash : F .flash = true := by with_reducible assumption) (f_fcu : F .fcu = true := by with_reducible assumption) (f_regs : F .regs = true := by with_reducible assumption) (f_stackMap : F .stackMap = true := by with_reducible assumption) : Keeps F s₀ (State.parityDieFails s stk) := by
  unfold State.parityDieFails
  repeat' first
    | with_reducible assumption
    | with_reducible apply State.logRepair_keeps
    | with_reducible apply State.onStack_keeps
    | with_reducible apply State.raise_keeps
    | with_reducible apply State.stackFailed_keeps
    | intro _
    | with_reducible apply Keeps.ite
    | split
    | dsimp only

theorem State.rebuildStep_keeps {F : Part → Bool} {s₀ : State} {s : State} {stk : Nat} (h : Keeps F s₀ s) (f_regs : F .regs = true := by with_reducible assumption) (f_stackMap : F .stackMap = true := by with_reducible assumption) : Keeps F s₀ (State.rebuildStep s stk) := by
  unfold State.rebuildStep
  repeat' first
    | with_reducible assumption
    | with_reducible apply State.setFld_keeps
    | with_reducible apply State.setStack_keeps
    | intro _
    | with_reducible apply Keeps.ite
    | split
    | dsimp only

theorem State.repairWire_keeps {F : Part → Bool} {s₀ : State} {s : State} {stk ch : Nat} {control : Bool} (h : Keeps F s₀ s) (f_flash : F .flash = true := by with_reducible assumption) (f_fcu : F .fcu = true := by with_reducible assumption) (f_regs : F .regs = true := by with_reducible assumption) (f_stackMap : F .stackMap = true := by with_reducible assumption) : Keeps F s₀ (State.repairWire s stk ch control) := by
  unfold State.repairWire
  repeat' first
    | with_reducible assumption
    | with_reducible apply Keeps.foldl
    | with_reducible apply State.logRepair_keeps
    | with_reducible apply State.onStack_keeps
    | with_reducible apply State.raise_keeps
    | with_reducible apply State.retireBank_keeps
    | intro _
    | with_reducible apply Keeps.ite
    | split
    | dsimp only

end Sys2Proof.Machine
end

