-- ==== Sys2Proof/Laws/KeepsHostOps.lean ====
section
/-! SUPPORT. The operations of Machine/HostOps.lean undo nothing (Laws/Keeps.lean). -/

set_option Elab.async false
set_option linter.unusedTactic false
set_option linter.unreachableTactic false
set_option linter.unusedVariables false

namespace Sys2Proof.Machine

open Sys2Proof

theorem State.raiseMsix_keeps {F : Part → Bool} {s₀ : State} {s : State} {port vector : Nat} (h : Keeps F s₀ s) (f_sent : F .sent = true := by with_reducible assumption) (f_mem : F .mem = true := by with_reducible assumption) (f_ports : F .ports = true := by with_reducible assumption) : Keeps F s₀ (State.raiseMsix s port vector) := by
  unfold State.raiseMsix
  repeat' first
    | with_reducible assumption
    | with_reducible apply State.onPort_keeps
    | with_reducible apply State.send_keeps
    | intro _
    | with_reducible apply Keeps.ite
    | split
    | dsimp only

theorem State.biasStart_keeps {F : Part → Bool} {s₀ : State} {s : State} {port : Nat} (h : Keeps F s₀ s) (f_ports : F .ports = true := by with_reducible assumption) : Keeps F s₀ (State.biasStart s port) := by
  unfold State.biasStart
  repeat' first
    | with_reducible assumption
    | with_reducible apply State.onPort_keeps
    | intro _
    | with_reducible apply Keeps.ite
    | split
    | dsimp only

theorem State.cfgWrite_keeps {F : Part → Bool} {s₀ : State} {s : State} {port id off v : Nat} (h : Keeps F s₀ s) (f_ports : F .ports = true := by with_reducible assumption) : Keeps F s₀ (State.cfgWrite s port id off v) := by
  unfold State.cfgWrite
  repeat' first
    | with_reducible assumption
    | with_reducible apply State.biasStart_keeps
    | with_reducible apply State.onPort_keeps
    | intro _
    | with_reducible apply Keeps.ite
    | split
    | dsimp only

theorem State.flipAsk_keeps {F : Part → Bool} {s₀ : State} {s : State} {port : Nat} (h : Keeps F s₀ s) (f_sent : F .sent = true := by with_reducible assumption) (f_mem : F .mem = true := by with_reducible assumption) : Keeps F s₀ (State.flipAsk s port) := by
  unfold State.flipAsk
  repeat' first
    | with_reducible assumption
    | with_reducible apply State.issueSnoops_keeps
    | intro _
    | with_reducible apply Keeps.ite
    | split
    | dsimp only

theorem State.flipDone_keeps {F : Part → Bool} {s₀ : State} {s : State} {port : Nat} (h : Keeps F s₀ s) (f_mem : F .mem = true := by with_reducible assumption) (f_ports : F .ports = true := by with_reducible assumption) : Keeps F s₀ (State.flipDone s port) := by
  unfold State.flipDone
  repeat' first
    | with_reducible assumption
    | with_reducible apply State.onMem_keeps
    | exact Memory.wf_same (by with_reducible rfl) (by with_reducible rfl)
    | with_reducible apply State.onPort_keeps
    | intro _
    | with_reducible apply Keeps.ite
    | split
    | dsimp only

theorem State.dropDir_keeps {F : Part → Bool} {s₀ : State} {s : State} {port : Nat} (h : Keeps F s₀ s) (f_mem : F .mem = true := by with_reducible assumption) : Keeps F s₀ (State.dropDir s port) := by
  unfold State.dropDir
  repeat' first
    | with_reducible assumption
    | with_reducible apply State.onMem_keeps
    | exact Memory.wf_same (by with_reducible rfl) (by with_reducible rfl)
    | intro _
    | with_reducible apply Keeps.ite
    | split
    | dsimp only

theorem State.dropHeld_keeps {F : Part → Bool} {s₀ : State} {s : State} {port : Nat} (h : Keeps F s₀ s) (f_mem : F .mem = true := by with_reducible assumption) : Keeps F s₀ (State.dropHeld s port) := by
  unfold State.dropHeld
  repeat' first
    | with_reducible assumption
    | with_reducible apply State.onMem_keeps
    | exact Memory.wf_same (by with_reducible rfl) (by with_reducible rfl)
    | intro _
    | with_reducible apply Keeps.ite
    | split
    | dsimp only

end Sys2Proof.Machine
end

