-- ==== Sys2Proof/Laws/KeepsMailboxOps.lean ====
section
/-! SUPPORT. The operations of Machine/MailboxOps.lean undo nothing (Laws/Keeps.lean). -/

set_option Elab.async false
set_option linter.unusedTactic false
set_option linter.unreachableTactic false
set_option linter.unusedVariables false

namespace Sys2Proof.Machine

open Sys2Proof

theorem State.emptySlot_keeps {F : Part → Bool} {s₀ : State} {s : State} {d k n : Nat} (h : Keeps F s₀ s) (f_notices : F .notices = true := by with_reducible assumption) : Keeps F s₀ (State.emptySlot s d k n) := by
  unfold State.emptySlot
  repeat' first
    | with_reducible assumption
    | intro _
    | with_reducible apply Keeps.ite
    | split
    | with_reducible apply Keeps.notices_set
    | dsimp only

theorem State.countReject_keeps {F : Part → Bool} {s₀ : State} {s : State} {d k : Nat} {f : RF} (h : Keeps F s₀ s) (f_regs : F .regs = true := by with_reducible assumption) : Keeps F s₀ (State.countReject s d k f) := by
  unfold State.countReject
  repeat' first
    | with_reducible assumption
    | with_reducible apply State.countFld_keeps
    | intro _
    | with_reducible apply Keeps.ite
    | split
    | dsimp only

theorem State.doorbell_keeps {F : Part → Bool} {s₀ : State} {s : State} {d k n : Nat} (h : Keeps F s₀ s) (f_sent : F .sent = true := by with_reducible assumption) (f_power : F .power = true := by with_reducible assumption) (f_mem : F .mem = true := by with_reducible assumption) (f_ports : F .ports = true := by with_reducible assumption) : Keeps F s₀ (State.doorbell s d k n) := by
  unfold State.doorbell
  repeat' first
    | with_reducible assumption
    | with_reducible apply State.onPower_keeps
    | with_reducible apply State.raiseMsix_keeps
    | intro _
    | with_reducible apply Keeps.ite
    | split
    | dsimp only

theorem State.post_keeps {F : Part → Bool} {s₀ s : State} {sender d k n pointer tag : Nat} (h : Keeps F s₀ s) (f_sent : F .sent = true := by with_reducible assumption) (f_power : F .power = true := by with_reducible assumption) (f_regs : F .regs = true := by with_reducible assumption) (f_mem : F .mem = true := by with_reducible assumption) (f_ports : F .ports = true := by with_reducible assumption) (f_notices : F .notices = true := by with_reducible assumption) : Keeps F s₀ (s.post sender d k n pointer tag).1 := by
  unfold State.post
  repeat' first
    | with_reducible assumption
    | with_reducible apply State.countReject_keeps
    | with_reducible apply State.doorbell_keeps
    | intro _
    | with_reducible apply Keeps.ite
    | split
    | with_reducible apply Keeps.notices_set
    | dsimp only


theorem State.post_keeps_of {F : Part → Bool} {s₀ s t : State} {sender d k n pointer tag : Nat} {x : PostResult} (h : Keeps F s₀ s) (e : s.post sender d k n pointer tag = (t, x)) (f_sent : F .sent = true := by with_reducible assumption) (f_power : F .power = true := by with_reducible assumption) (f_regs : F .regs = true := by with_reducible assumption) (f_mem : F .mem = true := by with_reducible assumption) (f_ports : F .ports = true := by with_reducible assumption) (f_notices : F .notices = true := by with_reducible assumption) : Keeps F s₀ t := by
  have : Keeps F s₀ (s.post sender d k n pointer tag).1 := State.post_keeps h
  rw [e] at this
  exact this

theorem State.refused_keeps {F : Part → Bool} {s₀ : State} {s : State} {x : Kept} {keep : State → State} (h : Keeps F s₀ s) (kkeep : ∀ t, Keeps F s₀ t → Keeps F s₀ (keep t)) (f_sent : F .sent = true := by with_reducible assumption) : Keeps F s₀ (State.refused s x keep) := by
  unfold State.refused
  repeat' first
    | with_reducible assumption
    | with_reducible apply State.send_keeps
    | with_reducible apply kkeep
    | intro _
    | with_reducible apply Keeps.ite
    | split
    | dsimp only

theorem State.postNotice_keeps {F : Part → Bool} {s₀ : State} {s : State} {sender : Nat} {dest : Dest} {pointer tag : Nat} (h : Keeps F s₀ s) (f_free : F .free = true := by with_reducible assumption) (f_sent : F .sent = true := by with_reducible assumption) (f_power : F .power = true := by with_reducible assumption) (f_regs : F .regs = true := by with_reducible assumption) (f_mem : F .mem = true := by with_reducible assumption) (f_ports : F .ports = true := by with_reducible assumption) (f_notices : F .notices = true := by with_reducible assumption) (f_kept : F .kept = true := by with_reducible assumption) (f_fab : F .fab = true := by with_reducible assumption) : Keeps F s₀ (State.postNotice s sender dest pointer tag) := by
  unfold State.postNotice
  repeat' first
    | with_reducible assumption
    | with_reducible apply State.post_keeps
    | refine State.post_keeps_of ?_ (by with_reducible assumption)
    | with_reducible apply State.refused_keeps
    | with_reducible apply State.request_keeps
    | intro _
    | with_reducible apply Keeps.ite
    | split
    | with_reducible apply Keeps.kept_set
    | dsimp only

theorem State.replyTo_keeps {F : Part → Bool} {s₀ : State} {s : State} {sender r pointer tag : Nat} (h : Keeps F s₀ s) (f_free : F .free = true := by with_reducible assumption) (f_sent : F .sent = true := by with_reducible assumption) (f_power : F .power = true := by with_reducible assumption) (f_regs : F .regs = true := by with_reducible assumption) (f_mem : F .mem = true := by with_reducible assumption) (f_ports : F .ports = true := by with_reducible assumption) (f_notices : F .notices = true := by with_reducible assumption) (f_kept : F .kept = true := by with_reducible assumption) (f_fab : F .fab = true := by with_reducible assumption) : Keeps F s₀ (State.replyTo s sender r pointer tag) := by
  unfold State.replyTo
  repeat' first
    | with_reducible assumption
    | with_reducible apply State.postNotice_keeps
    | intro _
    | with_reducible apply Keeps.ite
    | split
    | dsimp only

theorem State.repost_keeps {F : Part → Bool} {s₀ s : State} {i : Nat} (h : Keeps F s₀ s) (f_free : F .free = true := by with_reducible assumption) (f_sent : F .sent = true := by with_reducible assumption) (f_power : F .power = true := by with_reducible assumption) (f_regs : F .regs = true := by with_reducible assumption) (f_mem : F .mem = true := by with_reducible assumption) (f_ports : F .ports = true := by with_reducible assumption) (f_notices : F .notices = true := by with_reducible assumption) (f_kept : F .kept = true := by with_reducible assumption) (f_fab : F .fab = true := by with_reducible assumption) : Keeps F s₀ (State.repost s i) := by
  unfold State.repost
  split
  · exact h
  · split
    · exact h
    · split
      · exact State.postNotice_keeps (Keeps.kept_set h f_kept)
      · split
        · exact h
        · split
          · exact Keeps.kept_set (State.post_keeps_of h (by with_reducible assumption)) f_kept
          · split
            · exact State.refused_keeps (Keeps.kept_set (State.post_keeps_of h (by with_reducible assumption)) f_kept) fun _ k => k
            · exact State.post_keeps_of h (by with_reducible assumption)

theorem State.countBad_keeps {F : Part → Bool} {s₀ : State} {s : State} {d k : Nat} (h : Keeps F s₀ s) (f_regs : F .regs = true := by with_reducible assumption) : Keeps F s₀ (State.countBad s d k) := by
  unfold State.countBad
  repeat' first
    | with_reducible assumption
    | with_reducible apply State.countReject_keeps
    | intro _
    | with_reducible apply Keeps.ite
    | split
    | dsimp only

theorem State.hostCas_keeps {F : Part → Bool} {s₀ : State} {s : State} {port off size compare swap rid : Nat} (h : Keeps F s₀ s) (f_sent : F .sent = true := by with_reducible assumption) (f_power : F .power = true := by with_reducible assumption) (f_regs : F .regs = true := by with_reducible assumption) (f_mem : F .mem = true := by with_reducible assumption) (f_ports : F .ports = true := by with_reducible assumption) (f_notices : F .notices = true := by with_reducible assumption) : Keeps F s₀ (State.hostCas s port off size compare swap rid) := by
  unfold State.hostCas
  repeat' first
    | with_reducible assumption
    | with_reducible apply State.countBad_keeps
    | with_reducible apply State.post_keeps
    | refine State.post_keeps_of ?_ (by with_reducible assumption)
    | with_reducible apply State.send_keeps
    | intro _
    | with_reducible apply Keeps.ite
    | split
    | dsimp only

theorem State.mailboxAccess_keeps {F : Part → Bool} {s₀ : State} {s : State} {x : HeldAccess} {port off : Nat} {um : State} (h : Keeps F s₀ s) (kum : Keeps F s₀ um) (f_free : F .free = true := by with_reducible assumption) (f_sent : F .sent = true := by with_reducible assumption) (f_regs : F .regs = true := by with_reducible assumption) (f_mem : F .mem = true := by with_reducible assumption) (f_notices : F .notices = true := by with_reducible assumption) (f_fab : F .fab = true := by with_reducible assumption) : Keeps F s₀ (State.mailboxAccess s x port off um) := by
  unfold State.mailboxAccess
  repeat' first
    | with_reducible assumption
    | with_reducible apply State.answer_keeps
    | with_reducible apply State.countBad_keeps
    | with_reducible apply State.emptySlot_keeps
    | intro _
    | with_reducible apply Keeps.ite
    | split
    | dsimp only

theorem State.resetMailboxes_keeps {F : Part → Bool} {s₀ : State} {s : State} {port : Nat} (h : Keeps F s₀ s) (f_notices : F .notices = true := by with_reducible assumption) : Keeps F s₀ (State.resetMailboxes s port) := by
  unfold State.resetMailboxes
  repeat' first
    | with_reducible assumption
    | intro _
    | with_reducible apply Keeps.ite
    | split
    | with_reducible apply Keeps.notices_set
    | dsimp only

end Sys2Proof.Machine
end

