-- ==== Sys2Proof/Laws/KeepsOpticsOps.lean ====
section
/-! SUPPORT. The operations of Machine/OpticsOps.lean undo nothing (Laws/Keeps.lean). -/

set_option Elab.async false
set_option linter.unusedTactic false
set_option linter.unreachableTactic false
set_option linter.unusedVariables false

namespace Sys2Proof.Machine

open Sys2Proof

theorem State.onEngine_keeps {F : Part → Bool} {s₀ : State} {s : State} {e : Nat} {f : Engine → Engine} (h : Keeps F s₀ s) (f_fab : F .fab = true := by with_reducible assumption) : Keeps F s₀ (State.onEngine s e f) := by
  unfold State.onEngine
  repeat' first
    | with_reducible assumption
    | with_reducible apply State.onFab_keeps
    | intro _
    | with_reducible apply Keeps.ite
    | split
    | dsimp only

theorem State.onLane_keeps {F : Part → Bool} {s₀ : State} {s : State} {e n : Nat} {f : Lane → Lane} (h : Keeps F s₀ s) (f_fab : F .fab = true := by with_reducible assumption) : Keeps F s₀ (State.onLane s e n f) := by
  unfold State.onLane
  repeat' first
    | with_reducible assumption
    | with_reducible apply State.onFab_keeps
    | intro _
    | with_reducible apply Keeps.ite
    | split
    | dsimp only

theorem State.mapLane_keeps {F : Part → Bool} {s₀ : State} {s : State} {e logical n : Nat} (h : Keeps F s₀ s) (f_fab : F .fab = true := by with_reducible assumption) : Keeps F s₀ (State.mapLane s e logical n) := by
  unfold State.mapLane
  repeat' first
    | with_reducible assumption
    | with_reducible apply State.onEngine_keeps
    | intro _
    | with_reducible apply Keeps.ite
    | split
    | dsimp only

theorem State.clearLanes_keeps {F : Part → Bool} {s₀ : State} {s : State} {p : Nat} (h : Keeps F s₀ s) (f_fab : F .fab = true := by with_reducible assumption) : Keeps F s₀ (State.clearLanes s p) := by
  unfold State.clearLanes
  repeat' first
    | with_reducible assumption
    | with_reducible apply Keeps.foldl
    | with_reducible apply State.onLane_keeps
    | intro _
    | with_reducible apply Keeps.ite
    | split
    | dsimp only

theorem State.sendBlocks_keeps {F : Part → Bool} {s₀ : State} {s : State} {p : Nat} {mk : Nat → Nat → List Byte} (h : Keeps F s₀ s) (f_sent : F .sent = true := by with_reducible assumption) : Keeps F s₀ (State.sendBlocks s p mk) := by
  unfold State.sendBlocks
  repeat' first
    | with_reducible assumption
    | with_reducible apply Keeps.foldl
    | with_reducible apply State.send_keeps
    | intro _
    | with_reducible apply Keeps.ite
    | split
    | dsimp only

theorem State.linkLost_keeps {F : Part → Bool} {s₀ : State} {s : State} {p : Nat} {phase : PortPhase} (h : Keeps F s₀ s) (f_sent : F .sent = true := by with_reducible assumption) (f_fab : F .fab = true := by with_reducible assumption) : Keeps F s₀ (State.linkLost s p phase) := by
  unfold State.linkLost
  repeat' first
    | with_reducible assumption
    | with_reducible apply Keeps.foldl
    | with_reducible apply State.forward_keeps
    | with_reducible apply State.freeBuffer_keeps
    | with_reducible apply State.onFPort_keeps
    | intro _
    | with_reducible apply Keeps.ite
    | split
    | dsimp only

theorem State.sendTs1_keeps {F : Part → Bool} {s₀ : State} {s : State} {p e n eq count : Nat} (h : Keeps F s₀ s) (f_sent : F .sent = true := by with_reducible assumption) : Keeps F s₀ (State.sendTs1 s p e n eq count) := by
  unfold State.sendTs1
  repeat' first
    | with_reducible assumption
    | with_reducible apply State.send_keeps
    | intro _
    | with_reducible apply Keeps.ite
    | split
    | dsimp only

theorem State.trainPort_keeps {F : Part → Bool} {s₀ : State} {s : State} {p : Nat} (h : Keeps F s₀ s) (f_sent : F .sent = true := by with_reducible assumption) (f_fab : F .fab = true := by with_reducible assumption) : Keeps F s₀ (State.trainPort s p) := by
  unfold State.trainPort
  repeat' first
    | with_reducible assumption
    | with_reducible apply Keeps.foldl
    | with_reducible apply State.clearLanes_keeps
    | with_reducible apply State.linkLost_keeps
    | with_reducible apply State.sendTs1_keeps
    | intro _
    | with_reducible apply Keeps.ite
    | split
    | dsimp only

theorem State.retrainPort_keeps {F : Part → Bool} {s₀ : State} {s : State} {p : Nat} (h : Keeps F s₀ s) (f_sent : F .sent = true := by with_reducible assumption) (f_regs : F .regs = true := by with_reducible assumption) (f_fab : F .fab = true := by with_reducible assumption) : Keeps F s₀ (State.retrainPort s p) := by
  unfold State.retrainPort
  repeat' first
    | with_reducible assumption
    | with_reducible apply State.countFld_keeps
    | with_reducible apply State.trainPort_keeps
    | intro _
    | with_reducible apply Keeps.ite
    | split
    | dsimp only

theorem State.fabricDown_keeps {F : Part → Bool} {s₀ : State} {s : State} {p : Nat} (h : Keeps F s₀ s) (f_sent : F .sent = true := by with_reducible assumption) (f_fab : F .fab = true := by with_reducible assumption) : Keeps F s₀ (State.fabricDown s p) := by
  unfold State.fabricDown
  repeat' first
    | with_reducible assumption
    | with_reducible apply State.linkLost_keeps
    | intro _
    | with_reducible apply Keeps.ite
    | split
    | dsimp only

theorem State.fabricRestart_keeps {F : Part → Bool} {s₀ : State} {s : State} {p : Nat} (h : Keeps F s₀ s) (f_sent : F .sent = true := by with_reducible assumption) (f_fab : F .fab = true := by with_reducible assumption) : Keeps F s₀ (State.fabricRestart s p) := by
  unfold State.fabricRestart
  repeat' first
    | with_reducible assumption
    | with_reducible apply State.trainPort_keeps
    | intro _
    | with_reducible apply Keeps.ite
    | split
    | dsimp only

theorem State.keepAlivePorts_keeps {F : Part → Bool} {s₀ : State} {s : State} (h : Keeps F s₀ s) (f_ports : F .ports = true := by with_reducible assumption) (f_fab : F .fab = true := by with_reducible assumption) : Keeps F s₀ (State.keepAlivePorts s) := by
  unfold State.keepAlivePorts
  repeat' first
    | with_reducible assumption
    | with_reducible apply Keeps.foldl
    | with_reducible apply State.onFPort_keeps
    | intro _
    | with_reducible apply Keeps.ite
    | split
    | with_reducible apply Keeps.ports_set
    | dsimp only

theorem State.wakePorts_keeps {F : Part → Bool} {s₀ : State} {s : State} (h : Keeps F s₀ s) (f_free : F .free = true := by with_reducible assumption) (f_sent : F .sent = true := by with_reducible assumption) (f_ports : F .ports = true := by with_reducible assumption) (f_fab : F .fab = true := by with_reducible assumption) : Keeps F s₀ (State.wakePorts s) := by
  unfold State.wakePorts
  repeat' first
    | with_reducible assumption
    | with_reducible apply Keeps.foldl
    | with_reducible apply State.clearLanes_keeps
    | with_reducible apply State.fresh_keeps
    | refine State.fresh_keeps_of ?_ (by with_reducible assumption)
    | with_reducible apply State.onFPort_keeps
    | with_reducible apply State.onLane_keeps
    | with_reducible apply State.send_keeps
    | with_reducible apply State.sendTs1_keeps
    | intro _
    | with_reducible apply Keeps.ite
    | split
    | with_reducible apply Keeps.ports_set
    | dsimp only

theorem State.sendDowns_keeps {F : Part → Bool} {s₀ : State} {s : State} (h : Keeps F s₀ s) (f_sent : F .sent = true := by with_reducible assumption) (f_fab : F .fab = true := by with_reducible assumption) : Keeps F s₀ (State.sendDowns s) := by
  unfold State.sendDowns
  repeat' first
    | with_reducible assumption
    | with_reducible apply Keeps.foldl
    | with_reducible apply State.pump_keeps
    | with_reducible apply State.queueFrame_keeps
    | intro _
    | with_reducible apply Keeps.ite
    | split
    | dsimp only

theorem State.oeCount_keeps {F : Part → Bool} {s₀ : State} {s : State} {e : Nat} {f : RF} (h : Keeps F s₀ s) (f_regs : F .regs = true := by with_reducible assumption) : Keeps F s₀ (State.oeCount s e f) := by
  unfold State.oeCount
  repeat' first
    | with_reducible assumption
    | with_reducible apply State.countFld_keeps
    | intro _
    | with_reducible apply Keeps.ite
    | split
    | dsimp only

theorem State.nextEpoch_keeps {F : Part → Bool} {s₀ : State} {s : State} {p : Nat} (h : Keeps F s₀ s) (f_fab : F .fab = true := by with_reducible assumption) : Keeps F s₀ (State.nextEpoch s p) := by
  unfold State.nextEpoch
  repeat' first
    | with_reducible assumption
    | with_reducible apply State.onFPort_keeps
    | intro _
    | with_reducible apply Keeps.ite
    | split
    | dsimp only

theorem State.moveLane_keeps {F : Part → Bool} {s₀ : State} {s : State} {e logical target : Nat} (h : Keeps F s₀ s) (f_free : F .free = true := by with_reducible assumption) (f_sent : F .sent = true := by with_reducible assumption) (f_regs : F .regs = true := by with_reducible assumption) (f_fab : F .fab = true := by with_reducible assumption) : Keeps F s₀ (State.moveLane s e logical target) := by
  unfold State.moveLane
  repeat' first
    | with_reducible assumption
    | with_reducible apply State.fresh_keeps
    | refine State.fresh_keeps_of ?_ (by with_reducible assumption)
    | with_reducible apply State.mapLane_keeps
    | with_reducible apply State.nextEpoch_keeps
    | with_reducible apply State.oeCount_keeps
    | with_reducible apply State.sendBlocks_keeps
    | intro _
    | with_reducible apply Keeps.ite
    | split
    | dsimp only

theorem State.portSelftest_keeps {F : Part → Bool} {s₀ : State} {s : State} {p : Nat} (h : Keeps F s₀ s) (f_free : F .free = true := by with_reducible assumption) (f_sent : F .sent = true := by with_reducible assumption) (f_regs : F .regs = true := by with_reducible assumption) (f_fab : F .fab = true := by with_reducible assumption) : Keeps F s₀ (State.portSelftest s p) := by
  unfold State.portSelftest
  repeat' first
    | with_reducible assumption
    | with_reducible apply Keeps.foldl
    | with_reducible apply State.moveLane_keeps
    | intro _
    | with_reducible apply Keeps.ite
    | split
    | dsimp only

end Sys2Proof.Machine
end

