-- ==== Sys2Proof/Laws/KeepsBauOps.lean ====
section
/-! SUPPORT. The operations of Machine/BauOps.lean undo nothing (Laws/Keeps.lean). -/

set_option Elab.async false
set_option linter.unusedTactic false
set_option linter.unreachableTactic false
set_option linter.unusedVariables false

namespace Sys2Proof.Machine

open Sys2Proof

theorem foldl_keeps {F : Part → Bool} {s₀ : State} {α : Type} {f : BauRun → α → BauRun} {l : List α} {r : BauRun} (h : Keeps F s₀ r.s) (hf : ∀ t x, Keeps F s₀ t.s → Keeps F s₀ (f t x).s) :
    Keeps F s₀ (l.foldl f r).s := by
  induction l generalizing r with
  | nil => exact h
  | cons x l ih => exact ih (hf _ _ h)

theorem BauRun.andThen_keeps {F : Part → Bool} {s₀ : State} {r : BauRun} {f : BauRun → BauRun} (h : Keeps F s₀ r.s) (hf : ∀ t, Keeps F s₀ t.s → Keeps F s₀ (f t).s) : Keeps F s₀ (r.andThen f).s := by
  unfold BauRun.andThen
  split
  · exact h
  · exact hf _ h

theorem BauRun.reads_keeps {F : Part → Bool} {s₀ : State} {r : BauRun} {d : Desc} {off : Int} {c n : Nat} (h : Keeps F s₀ r.s) : Keeps F s₀ (r.reads d off c n).2.s := by
  unfold BauRun.reads
  repeat' first
    | with_reducible assumption
    | intro _
    | with_reducible apply Keeps.ite
    | split
    | dsimp only


theorem BauRun.reads_keeps_of {F : Part → Bool} {s₀ : State} {r t : BauRun} {d : Desc} {off : Int} {c n k : Nat} (h : Keeps F s₀ r.s) (e : r.reads d off c n = (k, t)) : Keeps F s₀ t.s := by
  have : Keeps F s₀ (r.reads d off c n).2.s := BauRun.reads_keeps h
  rw [e] at this
  exact this

theorem BauRun.touch_keeps {F : Part → Bool} {s₀ : State} {r : BauRun} {d : Desc} {off : Int} {c n : Nat} (h : Keeps F s₀ r.s) : Keeps F s₀ (BauRun.touch r d off c n).s := by
  unfold BauRun.touch
  repeat' first
    | with_reducible assumption
    | with_reducible apply BauRun.reads_keeps
    | refine BauRun.reads_keeps_of ?_ (by with_reducible assumption)
    | with_reducible apply foldl_keeps
    | intro _
    | with_reducible apply Keeps.ite
    | split
    | dsimp only

theorem BauRun.writeRow_keeps {F : Part → Bool} {s₀ : State} {r : BauRun} {d : Desc} {off : Int} {byte : Nat} {data : List Byte} (h : Keeps F s₀ r.s) (f_mem : F .mem = true := by with_reducible assumption) : Keeps F s₀ (BauRun.writeRow r d off byte data).s := by
  unfold BauRun.writeRow
  repeat' first
    | with_reducible assumption
    | with_reducible apply State.writeBytes_keeps
    | with_reducible apply foldl_keeps
    | intro _
    | with_reducible apply Keeps.ite
    | split
    | dsimp only

theorem BauRun.loadLatch_keeps {F : Part → Bool} {s₀ : State} {r : BauRun} {d : Desc} {inline : List Byte} {k : Nat} (h : Keeps F s₀ r.s) : Keeps F s₀ (BauRun.loadLatch r d inline k).s := by
  unfold BauRun.loadLatch
  repeat' first
    | with_reducible assumption
    | with_reducible apply foldl_keeps
    | intro _
    | with_reducible apply Keeps.ite
    | split
    | dsimp only

theorem BauRun.scaleRow_keeps {F : Part → Bool} {s₀ : State} {r : BauRun} {d : Desc} {o : Nat} (h : Keeps F s₀ r.s) : Keeps F s₀ (BauRun.scaleRow r d o).s := by
  unfold BauRun.scaleRow
  repeat' first
    | with_reducible assumption
    | with_reducible apply BauRun.andThen_keeps
    | with_reducible apply BauRun.touch_keeps
    | with_reducible apply foldl_keeps
    | intro _
    | with_reducible apply Keeps.ite
    | split
    | dsimp only

theorem BauRun.setScore_keeps {F : Part → Bool} {s₀ : State} {r : BauRun} {i w : Nat} (h : Keeps F s₀ r.s) : Keeps F s₀ (BauRun.setScore r i w).s := by
  unfold BauRun.setScore
  repeat' first
    | with_reducible assumption
    | with_reducible apply foldl_keeps
    | intro _
    | with_reducible apply Keeps.ite
    | split
    | dsimp only

theorem BauRun.rotate_keeps {F : Part → Bool} {s₀ : State} {r : BauRun} {d : Desc} {i : Nat} {vs : List Elem} (h : Keeps F s₀ r.s) : Keeps F s₀ (r.rotate d i vs).2.s := by
  unfold BauRun.rotate
  repeat' first
    | with_reducible assumption
    | with_reducible apply BauRun.touch_keeps
    | intro _
    | with_reducible apply Keeps.ite
    | split
    | dsimp only


theorem BauRun.smax_keeps {F : Part → Bool} {s₀ : State} {r : BauRun} {f n : Nat} (h : Keeps F s₀ r.s) : Keeps F s₀ (BauRun.smax r f n).s := by
  unfold BauRun.smax
  repeat' first
    | with_reducible assumption
    | with_reducible apply Keeps.foldl
    | with_reducible apply foldl_keeps
    | intro _
    | with_reducible apply Keeps.ite
    | split
    | dsimp only

theorem BauRun.vector_keeps {F : Part → Bool} {s₀ : State} {r : BauRun} {d : Desc} {c : Enc} {op : SeqOp} {o c0 i : Nat} (h : Keeps F s₀ r.s) (f_mem : F .mem = true := by with_reducible assumption) : Keeps F s₀ (BauRun.vector r d c op o c0 i).s := by
  unfold BauRun.vector
  repeat' first
    | with_reducible assumption
    | with_reducible apply BauRun.andThen_keeps
    | with_reducible apply BauRun.rotate_keeps
    | with_reducible apply BauRun.setScore_keeps
    | with_reducible apply BauRun.touch_keeps
    | with_reducible apply foldl_keeps
    | intro _
    | with_reducible apply Keeps.ite
    | split
    | dsimp only

theorem BauRun.vectors_keeps {F : Part → Bool} {s₀ : State} {r : BauRun} {d : Desc} {c : Enc} {op : SeqOp} (h : Keeps F s₀ r.s) (f_mem : F .mem = true := by with_reducible assumption) : Keeps F s₀ (BauRun.vectors r d c op).s := by
  unfold BauRun.vectors
  repeat' first
    | with_reducible assumption
    | with_reducible apply Keeps.foldl
    | with_reducible apply BauRun.andThen_keeps
    | with_reducible apply BauRun.scaleRow_keeps
    | with_reducible apply BauRun.smax_keeps
    | with_reducible apply BauRun.vector_keeps
    | with_reducible apply foldl_keeps
    | intro _
    | with_reducible apply Keeps.ite
    | split
    | dsimp only

theorem BauRun.sacc_keeps {F : Part → Bool} {s₀ : State} {r : BauRun} {d : Desc} {c : Enc} {op : SeqOp} (h : Keeps F s₀ r.s) (f_mem : F .mem = true := by with_reducible assumption) : Keeps F s₀ (BauRun.sacc r d c op).s := by
  unfold BauRun.sacc
  repeat' first
    | with_reducible assumption
    | with_reducible apply Keeps.foldl
    | with_reducible apply BauRun.andThen_keeps
    | with_reducible apply BauRun.scaleRow_keeps
    | with_reducible apply BauRun.touch_keeps
    | with_reducible apply foldl_keeps
    | intro _
    | with_reducible apply Keeps.ite
    | split
    | dsimp only

theorem BauRun.copy_keeps {F : Part → Bool} {s₀ : State} {r : BauRun} {d : Desc} {op : SeqOp} (h : Keeps F s₀ r.s) (f_mem : F .mem = true := by with_reducible assumption) : Keeps F s₀ (BauRun.copy r d op).s := by
  unfold BauRun.copy
  repeat' first
    | with_reducible assumption
    | with_reducible apply Keeps.foldl
    | with_reducible apply BauRun.andThen_keeps
    | with_reducible apply BauRun.reads_keeps
    | refine BauRun.reads_keeps_of ?_ (by with_reducible assumption)
    | with_reducible apply BauRun.writeRow_keeps
    | with_reducible apply foldl_keeps
    | intro _
    | with_reducible apply Keeps.ite
    | split
    | dsimp only

theorem BauRun.fill_keeps {F : Part → Bool} {s₀ : State} {r : BauRun} {d : Desc} {op : SeqOp} (h : Keeps F s₀ r.s) (f_mem : F .mem = true := by with_reducible assumption) : Keeps F s₀ (BauRun.fill r d op).s := by
  unfold BauRun.fill
  repeat' first
    | with_reducible assumption
    | with_reducible apply Keeps.foldl
    | with_reducible apply BauRun.andThen_keeps
    | with_reducible apply BauRun.writeRow_keeps
    | with_reducible apply foldl_keeps
    | intro _
    | with_reducible apply Keeps.ite
    | split
    | dsimp only

theorem BauRun.cmp_keeps {F : Part → Bool} {s₀ : State} {r : BauRun} {d : Desc} {op : SeqOp} (h : Keeps F s₀ r.s) (f_mem : F .mem = true := by with_reducible assumption) : Keeps F s₀ (BauRun.cmp r d op).s := by
  unfold BauRun.cmp
  repeat' first
    | with_reducible assumption
    | with_reducible apply Keeps.foldl
    | with_reducible apply BauRun.andThen_keeps
    | with_reducible apply BauRun.touch_keeps
    | with_reducible apply foldl_keeps
    | intro _
    | with_reducible apply Keeps.ite
    | split
    | dsimp only

theorem BauRun.topk_keeps {F : Part → Bool} {s₀ : State} {r : BauRun} {d : Desc} {c : Enc} {op : SeqOp} (h : Keeps F s₀ r.s) (f_mem : F .mem = true := by with_reducible assumption) : Keeps F s₀ (BauRun.topk r d c op).s := by
  unfold BauRun.topk
  repeat' first
    | with_reducible assumption
    | with_reducible apply Keeps.foldl
    | with_reducible apply BauRun.andThen_keeps
    | with_reducible apply BauRun.touch_keeps
    | with_reducible apply foldl_keeps
    | intro _
    | with_reducible apply Keeps.ite
    | split
    | dsimp only

theorem BauRun.op_keeps {F : Part → Bool} {s₀ : State} {r : BauRun} {d : Desc} {inline : List Byte} {op : SeqOp} (h : Keeps F s₀ r.s) (f_mem : F .mem = true := by with_reducible assumption) : Keeps F s₀ (BauRun.op r d inline op).s := by
  unfold BauRun.op
  repeat' first
    | with_reducible assumption
    | with_reducible apply BauRun.andThen_keeps
    | with_reducible apply BauRun.cmp_keeps
    | with_reducible apply BauRun.copy_keeps
    | with_reducible apply BauRun.fill_keeps
    | with_reducible apply BauRun.loadLatch_keeps
    | with_reducible apply BauRun.sacc_keeps
    | with_reducible apply BauRun.smax_keeps
    | with_reducible apply BauRun.topk_keeps
    | with_reducible apply BauRun.vectors_keeps
    | with_reducible apply foldl_keeps
    | intro _
    | with_reducible apply Keeps.ite
    | split
    | dsimp only

theorem runBau_keeps {F : Part → Bool} {s₀ s : State} {d : Desc} {inline : List Byte} {bau : Bau} {limit badRow : Option Nat} (h : Keeps F s₀ s) (f_mem : F .mem = true := by with_reducible assumption) : Keeps F s₀ (runBau s d inline bau limit badRow).s := by
  unfold runBau
  repeat' first
    | with_reducible assumption
    | with_reducible apply Keeps.foldl
    | with_reducible apply BauRun.andThen_keeps
    | with_reducible apply BauRun.loadLatch_keeps
    | with_reducible apply BauRun.op_keeps
    | with_reducible apply BauRun.touch_keeps
    | with_reducible apply foldl_keeps
    | intro _
    | with_reducible apply Keeps.ite
    | split
    | dsimp only


end Sys2Proof.Machine
end

