-- ==== Sys2Proof/Laws/KeepsSeqOps.lean ====
section
/-! SUPPORT. The operations of Machine/SeqOps.lean undo nothing (Laws/Keeps.lean). -/

set_option Elab.async false
set_option linter.unusedTactic false
set_option linter.unreachableTactic false
set_option linter.unusedVariables false

namespace Sys2Proof.Machine

open Sys2Proof

theorem State.onSeq_keeps {F : Part → Bool} {s₀ : State} {s : State} {id : Nat} {f : SeqJob → SeqJob} (h : Keeps F s₀ s) (f_seqs : F .seqs = true := by with_reducible assumption) : Keeps F s₀ (State.onSeq s id f) := by
  unfold State.onSeq
  repeat' first
    | with_reducible assumption
    | intro _
    | with_reducible apply Keeps.ite
    | split
    | with_reducible apply Keeps.seqs_set
    | dsimp only

theorem State.sleepInterrupted_keeps {F : Part → Bool} {s₀ : State} {s : State} {stk : Nat} (h : Keeps F s₀ s) (f_stackMap : F .stackMap = true := by with_reducible assumption) : Keeps F s₀ (State.sleepInterrupted s stk) := by
  unfold State.sleepInterrupted
  repeat' first
    | with_reducible assumption
    | with_reducible apply State.setStack_keeps
    | intro _
    | with_reducible apply Keeps.ite
    | split
    | dsimp only

theorem State.seqArrives_keeps {F : Part → Bool} {s₀ : State} {s : State} {stk : Nat} (h : Keeps F s₀ s) (f_power : F .power = true := by with_reducible assumption) (f_stackMap : F .stackMap = true := by with_reducible assumption) : Keeps F s₀ (State.seqArrives s stk) := by
  unfold State.seqArrives
  repeat' first
    | with_reducible assumption
    | with_reducible apply State.onPower_keeps
    | with_reducible apply State.sleepInterrupted_keeps
    | intro _
    | with_reducible apply Keeps.ite
    | split
    | dsimp only

theorem State.endChains_keeps {F : Part → Bool} {s₀ : State} {s : State} {p : Bau → Bool} (h : Keeps F s₀ s) (f_banks : F .banks = true := by with_reducible assumption) (f_baus : F .baus = true := by with_reducible assumption) : Keeps F s₀ (State.endChains s p) := by
  unfold State.endChains
  repeat' first
    | with_reducible assumption
    | with_reducible apply Keeps.foldl
    | with_reducible apply State.drive_keeps
    | intro _
    | with_reducible apply Keeps.ite
    | split
    | with_reducible apply Keeps.baus_set
    | dsimp only

theorem State.acceptSeq_keeps {F : Part → Bool} {s₀ : State} {s : State} {src : Agent} {desc inline : List Byte} {slot : Option (Nat × Nat)} {xfer : Option Nat} {keep : Bool} (h : Keeps F s₀ s) (f_free : F .free = true := by with_reducible assumption) (f_sent : F .sent = true := by with_reducible assumption) (f_power : F .power = true := by with_reducible assumption) (f_mem : F .mem = true := by with_reducible assumption) (f_stackMap : F .stackMap = true := by with_reducible assumption) (f_banks : F .banks = true := by with_reducible assumption) (f_baus : F .baus = true := by with_reducible assumption) (f_seqs : F .seqs = true := by with_reducible assumption) (f_seqNext : F .seqNext = true := by with_reducible assumption) (f_fab : F .fab = true := by with_reducible assumption) : Keeps F s₀ (State.acceptSeq s src desc inline slot xfer keep) := by
  unfold State.acceptSeq
  repeat' first
    | with_reducible assumption
    | with_reducible apply State.drive_keeps
    | with_reducible apply State.endChains_keeps
    | with_reducible apply State.issueSnoops_keeps
    | with_reducible apply State.request_keeps
    | with_reducible apply State.seqArrives_keeps
    | intro _
    | with_reducible apply Keeps.ite
    | split
    | with_reducible apply Keeps.baus_set
    | with_reducible apply Keeps.seqNext_set
    | with_reducible apply Keeps.seqs_set
    | with_reducible exact Or.inr rfl
    | exact Or.inl (by with_reducible assumption)
    | with_reducible apply Keeps.several
    | dsimp only

theorem State.unqueue_keeps {F : Part → Bool} {s₀ : State} {s : State} {j : SeqJob} (h : Keeps F s₀ s) (f_banks : F .banks = true := by with_reducible assumption) : Keeps F s₀ (State.unqueue s j) := by
  unfold State.unqueue
  repeat' first
    | with_reducible assumption
    | with_reducible apply State.drive_keeps
    | intro _
    | with_reducible apply Keeps.ite
    | split
    | dsimp only

theorem State.giveToken_keeps {F : Part → Bool} {s₀ : State} {s : State} {j : SeqJob} (h : Keeps F s₀ s) (f_banks : F .banks = true := by with_reducible assumption) (f_seqs : F .seqs = true := by with_reducible assumption) : Keeps F s₀ (State.giveToken s j) := by
  unfold State.giveToken
  repeat' first
    | with_reducible assumption
    | with_reducible apply State.onSeq_keeps
    | with_reducible apply State.unqueue_keeps
    | intro _
    | with_reducible apply Keeps.ite
    | split
    | dsimp only

theorem State.grant_keeps {F : Part → Bool} {s₀ : State} {s : State} {stk : Nat} (h : Keeps F s₀ s) (f_sent : F .sent = true := by with_reducible assumption) (f_mem : F .mem = true := by with_reducible assumption) (f_banks : F .banks = true := by with_reducible assumption) (f_seqs : F .seqs = true := by with_reducible assumption) : Keeps F s₀ (State.grant s stk) := by
  unfold State.grant
  repeat' first
    | with_reducible assumption
    | with_reducible apply State.giveToken_keeps
    | with_reducible apply State.issueSnoops_keeps
    | intro _
    | with_reducible apply Keeps.ite
    | split
    | dsimp only

theorem State.runSeq_keeps {F : Part → Bool} {s₀ : State} {s : State} {j : SeqJob} {limit badRow : Option Nat} (h : Keeps F s₀ s) (f_regs : F .regs = true := by with_reducible assumption) (f_mem : F .mem = true := by with_reducible assumption) (f_baus : F .baus = true := by with_reducible assumption) (f_seqs : F .seqs = true := by with_reducible assumption) : Keeps F s₀ (State.runSeq s j limit badRow) := by
  unfold State.runSeq
  repeat' first
    | with_reducible assumption
    | with_reducible apply Keeps.foldl
    | with_reducible apply State.countFld_keeps
    | with_reducible apply State.onSeq_keeps
    | with_reducible apply runBau_keeps
    | with_reducible apply State.useObtained_keeps
    | intro _
    | with_reducible apply Keeps.ite
    | split
    | with_reducible apply Keeps.baus_set
    | dsimp only

theorem State.seqStart_keeps {F : Part → Bool} {s₀ : State} {s : State} {j : SeqJob} (h : Keeps F s₀ s) (f_sent : F .sent = true := by with_reducible assumption) (f_regs : F .regs = true := by with_reducible assumption) (f_mem : F .mem = true := by with_reducible assumption) (f_baus : F .baus = true := by with_reducible assumption) (f_seqs : F .seqs = true := by with_reducible assumption) : Keeps F s₀ (State.seqStart s j) := by
  unfold State.seqStart
  repeat' first
    | with_reducible assumption
    | with_reducible apply State.issueSnoops_keeps
    | with_reducible apply State.runSeq_keeps
    | intro _
    | with_reducible apply Keeps.ite
    | split
    | dsimp only

theorem State.seqColumn_keeps {F : Part → Bool} {s₀ : State} {s : State} {b : BankId} {symbols : Nat} (h : Keeps F s₀ s) (f_flash : F .flash = true := by with_reducible assumption) (f_fcu : F .fcu = true := by with_reducible assumption) (f_regs : F .regs = true := by with_reducible assumption) (f_mem : F .mem = true := by with_reducible assumption) (f_baus : F .baus = true := by with_reducible assumption) (f_seqs : F .seqs = true := by with_reducible assumption) : Keeps F s₀ (State.seqColumn s b symbols) := by
  unfold State.seqColumn
  repeat' first
    | with_reducible assumption
    | with_reducible apply State.columnError_keeps
    | with_reducible apply State.onSeq_keeps
    | with_reducible apply runBau_keeps
    | with_reducible apply State.runSeq_keeps
    | intro _
    | with_reducible apply Keeps.ite
    | split
    | dsimp only

theorem State.seqFault_keeps {F : Part → Bool} {s₀ : State} {s : State} {p : Nat} (h : Keeps F s₀ s) (f_regs : F .regs = true := by with_reducible assumption) (f_mem : F .mem = true := by with_reducible assumption) (f_baus : F .baus = true := by with_reducible assumption) (f_seqs : F .seqs = true := by with_reducible assumption) : Keeps F s₀ (State.seqFault s p) := by
  unfold State.seqFault
  repeat' first
    | with_reducible assumption
    | with_reducible apply State.runSeq_keeps
    | intro _
    | with_reducible apply Keeps.ite
    | split
    | dsimp only

theorem State.takeLine_keeps {F : Part → Bool} {s₀ : State} {s : State} {j : SeqJob} (h : Keeps F s₀ s) (f_sent : F .sent = true := by with_reducible assumption) (f_mem : F .mem = true := by with_reducible assumption) (f_baus : F .baus = true := by with_reducible assumption) (f_seqs : F .seqs = true := by with_reducible assumption) : Keeps F s₀ (State.takeLine s j) := by
  unfold State.takeLine
  repeat' first
    | with_reducible assumption
    | with_reducible apply State.issueSnoops_keeps
    | with_reducible apply State.onSeq_keeps
    | intro _
    | with_reducible apply Keeps.ite
    | split
    | with_reducible apply Keeps.baus_set
    | dsimp only

theorem State.resultReady_keeps {F : Part → Bool} {s₀ : State} {s : State} {j : SeqJob} (h : Keeps F s₀ s) (f_sent : F .sent = true := by with_reducible assumption) (f_regs : F .regs = true := by with_reducible assumption) (f_mem : F .mem = true := by with_reducible assumption) (f_baus : F .baus = true := by with_reducible assumption) (f_seqs : F .seqs = true := by with_reducible assumption) : Keeps F s₀ (State.resultReady s j) := by
  unfold State.resultReady
  repeat' first
    | with_reducible assumption
    | with_reducible apply State.seqStart_keeps
    | with_reducible apply State.takeLine_keeps
    | intro _
    | with_reducible apply Keeps.ite
    | split
    | dsimp only

theorem State.endSeq_keeps {F : Part → Bool} {s₀ : State} {s : State} {j : SeqJob} (h : Keeps F s₀ s) (f_mem : F .mem = true := by with_reducible assumption) (f_banks : F .banks = true := by with_reducible assumption) (f_baus : F .baus = true := by with_reducible assumption) (f_seqs : F .seqs = true := by with_reducible assumption) : Keeps F s₀ (State.endSeq s j) := by
  unfold State.endSeq
  repeat' first
    | with_reducible assumption
    | with_reducible apply State.drive_keeps
    | with_reducible apply State.useObtained_keeps
    | with_reducible apply State.writeBytes_keeps
    | intro _
    | with_reducible apply Keeps.ite
    | split
    | with_reducible apply Keeps.baus_set
    | with_reducible apply Keeps.seqs_set
    | with_reducible exact Or.inr rfl
    | exact Or.inl (by with_reducible assumption)
    | with_reducible apply Keeps.several
    | dsimp only

theorem State.setSlot_keeps {F : Part → Bool} {s₀ : State} {s : State} {d n : Nat} {x : SeqSlot} (h : Keeps F s₀ s) (f_slots : F .slots = true := by with_reducible assumption) : Keeps F s₀ (State.setSlot s d n x) := by
  unfold State.setSlot
  repeat' first
    | with_reducible assumption
    | intro _
    | with_reducible apply Keeps.ite
    | split
    | with_reducible apply Keeps.slots_set
    | dsimp only

theorem State.slotWrite_keeps {F : Part → Bool} {s₀ : State} {s : State} {ag : Agent} {d n off : Nat} {data : List Byte} (h : Keeps F s₀ s) (f_free : F .free = true := by with_reducible assumption) (f_sent : F .sent = true := by with_reducible assumption) (f_power : F .power = true := by with_reducible assumption) (f_regs : F .regs = true := by with_reducible assumption) (f_mem : F .mem = true := by with_reducible assumption) (f_stackMap : F .stackMap = true := by with_reducible assumption) (f_banks : F .banks = true := by with_reducible assumption) (f_baus : F .baus = true := by with_reducible assumption) (f_seqs : F .seqs = true := by with_reducible assumption) (f_seqNext : F .seqNext = true := by with_reducible assumption) (f_slots : F .slots = true := by with_reducible assumption) (f_fab : F .fab = true := by with_reducible assumption) : Keeps F s₀ (State.slotWrite s ag d n off data) := by
  unfold State.slotWrite
  repeat' first
    | with_reducible assumption
    | with_reducible apply State.acceptSeq_keeps
    | with_reducible apply State.countFld_keeps
    | with_reducible apply State.setSlot_keeps
    | intro _
    | with_reducible apply Keeps.ite
    | split
    | with_reducible apply Keeps.seqs_set
    | dsimp only

theorem State.slotDone_keeps {F : Part → Bool} {s₀ : State} {s : State} {j : SeqJob} (h : Keeps F s₀ s) (f_sent : F .sent = true := by with_reducible assumption) (f_mem : F .mem = true := by with_reducible assumption) (f_slots : F .slots = true := by with_reducible assumption) (f_ports : F .ports = true := by with_reducible assumption) : Keeps F s₀ (State.slotDone s j) := by
  unfold State.slotDone
  repeat' first
    | with_reducible assumption
    | with_reducible apply State.raiseMsix_keeps
    | with_reducible apply State.setSlot_keeps
    | intro _
    | with_reducible apply Keeps.ite
    | split
    | dsimp only

theorem State.resetSlots_keeps {F : Part → Bool} {s₀ : State} {s : State} {port : Nat} (h : Keeps F s₀ s) (f_seqs : F .seqs = true := by with_reducible assumption) (f_slots : F .slots = true := by with_reducible assumption) : Keeps F s₀ (State.resetSlots s port) := by
  unfold State.resetSlots
  repeat' first
    | with_reducible assumption
    | intro _
    | with_reducible apply Keeps.ite
    | split
    | with_reducible apply Keeps.seqs_set
    | with_reducible apply Keeps.slots_set
    | with_reducible exact Or.inr rfl
    | exact Or.inl (by with_reducible assumption)
    | with_reducible apply Keeps.several
    | dsimp only

theorem State.seqwAccess_keeps {F : Part → Bool} {s₀ : State} {s : State} {x : HeldAccess} {d off : Nat} {um hold : State} (h : Keeps F s₀ s) (kum : Keeps F s₀ um) (khold : Keeps F s₀ hold) (f_free : F .free = true := by with_reducible assumption) (f_sent : F .sent = true := by with_reducible assumption) (f_power : F .power = true := by with_reducible assumption) (f_regs : F .regs = true := by with_reducible assumption) (f_mem : F .mem = true := by with_reducible assumption) (f_stackMap : F .stackMap = true := by with_reducible assumption) (f_banks : F .banks = true := by with_reducible assumption) (f_baus : F .baus = true := by with_reducible assumption) (f_seqs : F .seqs = true := by with_reducible assumption) (f_seqNext : F .seqNext = true := by with_reducible assumption) (f_slots : F .slots = true := by with_reducible assumption) (f_fab : F .fab = true := by with_reducible assumption) : Keeps F s₀ (State.seqwAccess s x d off um hold) := by
  unfold State.seqwAccess
  repeat' first
    | with_reducible assumption
    | with_reducible apply State.answer_keeps
    | with_reducible apply BauRun.op_keeps
    | with_reducible apply State.slotWrite_keeps
    | intro _
    | with_reducible apply Keeps.ite
    | split
    | dsimp only

end Sys2Proof.Machine
end

