-- ==== Sys2Proof/Laws/KeepsCoreOps.lean ====
section
/-! SUPPORT. The operations of Machine/CoreOps.lean undo nothing (Laws/Keeps.lean). -/

set_option Elab.async false
set_option linter.unusedTactic false
set_option linter.unreachableTactic false
set_option linter.unusedVariables false

namespace Sys2Proof.Machine

open Sys2Proof Enc7

theorem State.onCore_keeps {F : Part → Bool} {s₀ : State} {s : State} {d c : Nat} {f : Core → Core} (h : Keeps F s₀ s) (f_cores : F .cores = true := by with_reducible assumption) : Keeps F s₀ (State.onCore s d c f) := by
  unfold State.onCore
  repeat' first
    | with_reducible assumption
    | intro _
    | with_reducible apply Keeps.ite
    | split
    | with_reducible apply Keeps.cores_set
    | dsimp only

theorem State.onCc_keeps {F : Part → Bool} {s₀ : State} {s : State} {d c : Nat} {f : Ctl → Ctl} (h : Keeps F s₀ s) (f_cores : F .cores = true := by with_reducible assumption) : Keeps F s₀ (State.onCc s d c f) := by
  unfold State.onCc
  repeat' first
    | with_reducible assumption
    | with_reducible apply State.onCore_keeps
    | intro _
    | with_reducible apply Keeps.ite
    | split
    | dsimp only

theorem State.flushWalks_keeps {F : Part → Bool} {s₀ : State} {s : State} {d c : Nat} (h : Keeps F s₀ s) (f_mem : F .mem = true := by with_reducible assumption) : Keeps F s₀ (State.flushWalks s d c) := by
  unfold State.flushWalks
  repeat' first
    | with_reducible assumption
    | with_reducible apply Keeps.foldl
    | with_reducible apply State.writeBytes_keeps
    | intro _
    | with_reducible apply Keeps.ite
    | split
    | dsimp only

theorem State.stopCore_keeps {F : Part → Bool} {s₀ : State} {s : State} {d c id : Nat} (h : Keeps F s₀ s) (f_mem : F .mem = true := by with_reducible assumption) (f_cores : F .cores = true := by with_reducible assumption) : Keeps F s₀ (State.stopCore s d c id) := by
  unfold State.stopCore
  repeat' first
    | with_reducible assumption
    | with_reducible apply State.flushWalks_keeps
    | with_reducible apply State.onCore_keeps
    | intro _
    | with_reducible apply Keeps.ite
    | split
    | dsimp only

theorem State.coreFault_keeps {F : Part → Bool} {s₀ : State} {s : State} {d c id detail : Nat} (h : Keeps F s₀ s) (f_flash : F .flash = true := by with_reducible assumption) (f_fcu : F .fcu = true := by with_reducible assumption) (f_regs : F .regs = true := by with_reducible assumption) (f_mem : F .mem = true := by with_reducible assumption) (f_cores : F .cores = true := by with_reducible assumption) : Keeps F s₀ (State.coreFault s d c id detail) := by
  unfold State.coreFault
  repeat' first
    | with_reducible assumption
    | with_reducible apply State.raise_keeps
    | with_reducible apply State.stopCore_keeps
    | intro _
    | with_reducible apply Keeps.ite
    | split
    | dsimp only

theorem State.recordStream_keeps {F : Part → Bool} {s₀ : State} {s : State} {d c info replay : Nat} (h : Keeps F s₀ s) (f_regs : F .regs = true := by with_reducible assumption) : Keeps F s₀ (State.recordStream s d c info replay) := by
  unfold State.recordStream
  repeat' first
    | with_reducible assumption
    | with_reducible apply State.setReg_keeps
    | intro _
    | with_reducible apply Keeps.ite
    | split
    | dsimp only

theorem State.streamFault_keeps {F : Part → Bool} {s₀ : State} {s : State} {d c kind : Nat} {x : Bool} {q cls index replay : Nat} (h : Keeps F s₀ s) (f_flash : F .flash = true := by with_reducible assumption) (f_fcu : F .fcu = true := by with_reducible assumption) (f_regs : F .regs = true := by with_reducible assumption) (f_mem : F .mem = true := by with_reducible assumption) (f_cores : F .cores = true := by with_reducible assumption) : Keeps F s₀ (State.streamFault s d c kind x q cls index replay) := by
  unfold State.streamFault
  repeat' first
    | with_reducible assumption
    | with_reducible apply State.coreFault_keeps
    | with_reducible apply State.recordStream_keeps
    | intro _
    | with_reducible apply Keeps.ite
    | split
    | dsimp only

theorem State.credit_keeps {F : Part → Bool} {s₀ : State} {s : State} {d c cls replay : Nat} {x : Bool} {index : Nat} (h : Keeps F s₀ s) (f_flash : F .flash = true := by with_reducible assumption) (f_fcu : F .fcu = true := by with_reducible assumption) (f_regs : F .regs = true := by with_reducible assumption) (f_mem : F .mem = true := by with_reducible assumption) (f_cores : F .cores = true := by with_reducible assumption) : Keeps F s₀ (State.credit s d c cls replay x index) := by
  unfold State.credit
  repeat' first
    | with_reducible assumption
    | with_reducible apply State.onCore_keeps
    | with_reducible apply State.streamFault_keeps
    | intro _
    | with_reducible apply Keeps.ite
    | split
    | dsimp only

theorem State.walkAsk_keeps {F : Part → Bool} {s₀ : State} {s : State} {d c : Nat} {ps : List (Nat × Nat)} {write : Bool} (h : Keeps F s₀ s) (f_sent : F .sent = true := by with_reducible assumption) (f_mem : F .mem = true := by with_reducible assumption) : Keeps F s₀ (State.walkAsk s d c ps write) := by
  unfold State.walkAsk
  repeat' first
    | with_reducible assumption
    | with_reducible apply Keeps.foldl
    | with_reducible apply State.ask_keeps
    | intro _
    | with_reducible apply Keeps.ite
    | split
    | dsimp only

theorem State.poisonRead_keeps {F : Part → Bool} {s₀ : State} {s : State} {d c a : Nat} (h : Keeps F s₀ s) (f_flash : F .flash = true := by with_reducible assumption) (f_fcu : F .fcu = true := by with_reducible assumption) (f_regs : F .regs = true := by with_reducible assumption) (f_mem : F .mem = true := by with_reducible assumption) (f_cores : F .cores = true := by with_reducible assumption) : Keeps F s₀ (State.poisonRead s d c a) := by
  unfold State.poisonRead
  repeat' first
    | with_reducible assumption
    | with_reducible apply State.coreFault_keeps
    | intro _
    | with_reducible apply Keeps.ite
    | split
    | dsimp only

theorem State.stage_keeps {F : Part → Bool} {s₀ : State} {s : State} {d c off n : Nat} (h : Keeps F s₀ s) (f_free : F .free = true := by with_reducible assumption) (f_mem : F .mem = true := by with_reducible assumption) : Keeps F s₀ (State.stage s d c off n) := by
  unfold State.stage
  repeat' first
    | with_reducible assumption
    | with_reducible apply State.fresh_keeps
    | refine State.fresh_keeps_of ?_ (by with_reducible assumption)
    | with_reducible apply State.writeBytes_keeps
    | intro _
    | with_reducible apply Keeps.ite
    | split
    | dsimp only

theorem State.formMma_keeps {F : Part → Bool} {s₀ : State} {s : State} {d c : Nat} {j : Job} (h : Keeps F s₀ s) (f_regs : F .regs = true := by with_reducible assumption) (f_cores : F .cores = true := by with_reducible assumption) : Keeps F s₀ (State.formMma s d c j) := by
  unfold State.formMma
  repeat' first
    | with_reducible assumption
    | with_reducible apply State.countFld_keeps
    | with_reducible apply State.onCore_keeps
    | intro _
    | with_reducible apply Keeps.ite
    | split
    | dsimp only

theorem State.workMma_keeps {F : Part → Bool} {s₀ : State} {s : State} {d c : Nat} {j : Job} (h : Keeps F s₀ s) (f_free : F .free = true := by with_reducible assumption) (f_regs : F .regs = true := by with_reducible assumption) (f_mem : F .mem = true := by with_reducible assumption) (f_cores : F .cores = true := by with_reducible assumption) : Keeps F s₀ (State.workMma s d c j) := by
  unfold State.workMma
  repeat' first
    | with_reducible assumption
    | with_reducible apply State.formMma_keeps
    | with_reducible apply State.onCore_keeps
    | with_reducible apply State.stage_keeps
    | intro _
    | with_reducible apply Keeps.ite
    | split
    | dsimp only

theorem State.formOut_keeps {F : Part → Bool} {s₀ : State} {s : State} {d c : Nat} {j : Job} {dv : Bool} {out : VOut} (h : Keeps F s₀ s) (f_regs : F .regs = true := by with_reducible assumption) (f_cores : F .cores = true := by with_reducible assumption) : Keeps F s₀ (State.formOut s d c j dv out) := by
  unfold State.formOut
  repeat' first
    | with_reducible assumption
    | with_reducible apply State.countFld_keeps
    | with_reducible apply State.onCore_keeps
    | intro _
    | with_reducible apply Keeps.ite
    | split
    | dsimp only

theorem State.formVop_keeps {F : Part → Bool} {s₀ : State} {s : State} {d c : Nat} {j : Job} (h : Keeps F s₀ s) (f_free : F .free = true := by with_reducible assumption) (f_regs : F .regs = true := by with_reducible assumption) (f_mem : F .mem = true := by with_reducible assumption) (f_cores : F .cores = true := by with_reducible assumption) : Keeps F s₀ (State.formVop s d c j) := by
  unfold State.formVop
  repeat' first
    | with_reducible assumption
    | with_reducible apply State.formOut_keeps
    | with_reducible apply State.fresh_keeps
    | refine State.fresh_keeps_of ?_ (by with_reducible assumption)
    | with_reducible apply State.stage_keeps
    | intro _
    | with_reducible apply Keeps.ite
    | split
    | dsimp only

theorem State.formGather_keeps {F : Part → Bool} {s₀ : State} {s : State} {d c : Nat} {j : Job} (h : Keeps F s₀ s) (f_flash : F .flash = true := by with_reducible assumption) (f_fcu : F .fcu = true := by with_reducible assumption) (f_regs : F .regs = true := by with_reducible assumption) (f_mem : F .mem = true := by with_reducible assumption) (f_cores : F .cores = true := by with_reducible assumption) : Keeps F s₀ (State.formGather s d c j) := by
  unfold State.formGather
  repeat' first
    | with_reducible assumption
    | with_reducible apply State.coreFault_keeps
    | with_reducible apply State.formOut_keeps
    | with_reducible apply State.setReg_keeps
    | with_reducible apply State.streamFault_keeps
    | intro _
    | with_reducible apply Keeps.ite
    | split
    | dsimp only

theorem State.formJob_keeps {F : Part → Bool} {s₀ : State} {s : State} {d c : Nat} {j : Job} (h : Keeps F s₀ s) (f_free : F .free = true := by with_reducible assumption) (f_flash : F .flash = true := by with_reducible assumption) (f_fcu : F .fcu = true := by with_reducible assumption) (f_regs : F .regs = true := by with_reducible assumption) (f_mem : F .mem = true := by with_reducible assumption) (f_cores : F .cores = true := by with_reducible assumption) : Keeps F s₀ (State.formJob s d c j) := by
  unfold State.formJob
  repeat' first
    | with_reducible assumption
    | with_reducible apply State.formGather_keeps
    | with_reducible apply State.formVop_keeps
    | with_reducible apply State.workMma_keeps
    | intro _
    | with_reducible apply Keeps.ite
    | split
    | dsimp only

theorem State.releaseWord_keeps {F : Part → Bool} {s₀ : State} {s : State} {d c off : Nat} (h : Keeps F s₀ s) (f_free : F .free = true := by with_reducible assumption) (f_cores : F .cores = true := by with_reducible assumption) : Keeps F s₀ (State.releaseWord s d c off) := by
  unfold State.releaseWord
  repeat' first
    | with_reducible assumption
    | with_reducible apply State.fresh_keeps
    | refine State.fresh_keeps_of ?_ (by with_reducible assumption)
    | with_reducible apply State.onCore_keeps
    | intro _
    | with_reducible apply Keeps.ite
    | split
    | dsimp only

theorem State.signalWord_keeps {F : Part → Bool} {s₀ : State} {s : State} {d c off : Nat} (h : Keeps F s₀ s) (f_free : F .free = true := by with_reducible assumption) (f_flash : F .flash = true := by with_reducible assumption) (f_fcu : F .fcu = true := by with_reducible assumption) (f_regs : F .regs = true := by with_reducible assumption) (f_mem : F .mem = true := by with_reducible assumption) (f_cores : F .cores = true := by with_reducible assumption) : Keeps F s₀ (State.signalWord s d c off) := by
  unfold State.signalWord
  repeat' first
    | with_reducible assumption
    | with_reducible apply State.coreFault_keeps
    | with_reducible apply State.onCore_keeps
    | with_reducible apply State.releaseWord_keeps
    | intro _
    | with_reducible apply Keeps.ite
    | split
    | dsimp only

theorem State.setSignal_keeps {F : Part → Bool} {s₀ : State} {s : State} {d c : Nat} {g : Sig} (h : Keeps F s₀ s) (f_free : F .free = true := by with_reducible assumption) (f_flash : F .flash = true := by with_reducible assumption) (f_fcu : F .fcu = true := by with_reducible assumption) (f_regs : F .regs = true := by with_reducible assumption) (f_mem : F .mem = true := by with_reducible assumption) (f_cores : F .cores = true := by with_reducible assumption) : Keeps F s₀ (State.setSignal s d c g) := by
  unfold State.setSignal
  repeat' first
    | with_reducible assumption
    | with_reducible apply State.onCore_keeps
    | with_reducible apply State.signalWord_keeps
    | intro _
    | with_reducible apply Keeps.ite
    | split
    | dsimp only

theorem State.balanceFault_keeps {F : Part → Bool} {s₀ : State} {s : State} {d c kind q cls r : Nat} (h : Keeps F s₀ s) (f_free : F .free = true := by with_reducible assumption) (f_flash : F .flash = true := by with_reducible assumption) (f_fcu : F .fcu = true := by with_reducible assumption) (f_regs : F .regs = true := by with_reducible assumption) (f_mem : F .mem = true := by with_reducible assumption) (f_cores : F .cores = true := by with_reducible assumption) : Keeps F s₀ (State.balanceFault s d c kind q cls r) := by
  unfold State.balanceFault
  repeat' first
    | with_reducible assumption
    | with_reducible apply State.fresh_keeps
    | refine State.fresh_keeps_of ?_ (by with_reducible assumption)
    | with_reducible apply State.streamFault_keeps
    | intro _
    | with_reducible apply Keeps.ite
    | split
    | dsimp only

theorem State.checkReplays_keeps {F : Part → Bool} {s₀ s : State} {d c n : Nat} (h : Keeps F s₀ s) (f_free : F .free = true := by with_reducible assumption) (f_flash : F .flash = true := by with_reducible assumption) (f_fcu : F .fcu = true := by with_reducible assumption) (f_regs : F .regs = true := by with_reducible assumption) (f_mem : F .mem = true := by with_reducible assumption) (f_cores : F .cores = true := by with_reducible assumption) : Keeps F s₀ (s.checkReplays d c n) := by
  induction n generalizing s with
  | zero => exact h
  | succ n ih =>
    rw [State.checkReplays]
    repeat' first
      | with_reducible assumption
      | with_reducible apply State.balanceFault_keeps
      | with_reducible apply State.onCore_keeps
      | with_reducible apply ih
      | intro _
      | with_reducible apply Keeps.ite
      | split
      | dsimp only


theorem State.settleCore_keeps {F : Part → Bool} {s₀ s : State} {d c n : Nat} (h : Keeps F s₀ s) (f_free : F .free = true := by with_reducible assumption) (f_flash : F .flash = true := by with_reducible assumption) (f_fcu : F .fcu = true := by with_reducible assumption) (f_regs : F .regs = true := by with_reducible assumption) (f_mem : F .mem = true := by with_reducible assumption) (f_cores : F .cores = true := by with_reducible assumption) : Keeps F s₀ (s.settleCore d c n) := by
  induction n generalizing s with
  | zero => exact h
  | succ n ih =>
    rw [State.settleCore]
    repeat' first
      | with_reducible assumption
      | with_reducible apply State.checkReplays_keeps
      | with_reducible apply State.formJob_keeps
      | with_reducible apply State.onCore_keeps
      | with_reducible apply State.setSignal_keeps
      | with_reducible apply ih
      | intro _
      | with_reducible apply Keeps.ite
      | split
      | dsimp only


theorem State.settle_keeps {F : Part → Bool} {s₀ : State} {s : State} {d c : Nat} (h : Keeps F s₀ s) (f_free : F .free = true := by with_reducible assumption) (f_flash : F .flash = true := by with_reducible assumption) (f_fcu : F .fcu = true := by with_reducible assumption) (f_regs : F .regs = true := by with_reducible assumption) (f_mem : F .mem = true := by with_reducible assumption) (f_cores : F .cores = true := by with_reducible assumption) : Keeps F s₀ (State.settle s d c) := by
  unfold State.settle
  repeat' first
    | with_reducible assumption
    | with_reducible apply State.settleCore_keeps
    | intro _
    | with_reducible apply Keeps.ite
    | split
    | dsimp only

end Sys2Proof.Machine
end

