-- ==== Sys2Proof/Laws/KeepsTaskMap.lean ====
section
/-! SUPPORT. The operations of Machine/TaskMap.lean undo nothing (Laws/Keeps.lean). -/

set_option Elab.async false
set_option linter.unusedTactic false
set_option linter.unreachableTactic false
set_option linter.unusedVariables false

namespace Sys2Proof.Machine

open Sys2Proof

theorem State.onTask_keeps {F : Part → Bool} {s₀ : State} {s : State} {id : Nat} {f : Task → Task} (h : Keeps F s₀ s) (f_ldr : F .ldr = true := by with_reducible assumption) : Keeps F s₀ (State.onTask s id f) := by
  unfold State.onTask
  repeat' first
    | with_reducible assumption
    | intro _
    | with_reducible apply Keeps.ite
    | split
    | with_reducible apply Keeps.ldr_set
    | dsimp only

theorem State.streamRead_keeps {F : Part → Bool} {s₀ : State} {s : State} {task : Nat} {ps : List (Nat × Nat)} (h : Keeps F s₀ s) (f_ldr : F .ldr = true := by with_reducible assumption) : Keeps F s₀ (State.streamRead s task ps) := by
  unfold State.streamRead
  repeat' first
    | with_reducible assumption
    | with_reducible apply Keeps.foldl
    | with_reducible apply State.onTask_keeps
    | intro _
    | with_reducible apply Keeps.ite
    | split
    | dsimp only

end Sys2Proof.Machine
end

