-- ==== Sys2Proof/Laws/KeepsRegView.lean ====
section
/-! SUPPORT. The operations of Machine/RegView.lean undo nothing (Laws/Keeps.lean). -/

set_option Elab.async false
set_option linter.unusedTactic false
set_option linter.unreachableTactic false
set_option linter.unusedVariables false

namespace Sys2Proof.Machine

open Sys2Proof

theorem State.regReadEffect_keeps {F : Part → Bool} {s₀ : State} {s : State} {d : Nat} {r : Reg} (h : Keeps F s₀ s) (f_fcu : F .fcu = true := by with_reducible assumption) (f_regs : F .regs = true := by with_reducible assumption) : Keeps F s₀ (State.regReadEffect s d r) := by
  unfold State.regReadEffect
  repeat' first
    | with_reducible assumption
    | with_reducible apply State.setFld_keeps
    | intro _
    | with_reducible apply Keeps.ite
    | split
    | with_reducible apply Keeps.fcu_set
    | dsimp only

end Sys2Proof.Machine
end

