-- ==== Sys2Proof/Laws/KeepsSysOps.lean ====
section
/-! SUPPORT. The operations of Machine/SysOps.lean undo nothing (Laws/Keeps.lean). -/

set_option Elab.async false
set_option linter.unusedTactic false
set_option linter.unreachableTactic false
set_option linter.unusedVariables false

namespace Sys2Proof.Machine

open Sys2Proof

theorem State.onBoot_keeps {F : Part → Bool} {s₀ : State} {s : State} {f : Boot → Boot} (h : Keeps F s₀ s) (f_boot : F .boot = true := by with_reducible assumption) : Keeps F s₀ (State.onBoot s f) := by
  unfold State.onBoot
  repeat' first
    | with_reducible assumption
    | intro _
    | with_reducible apply Keeps.ite
    | split
    | with_reducible apply Keeps.boot_set
    | dsimp only

theorem State.onMgmt_keeps {F : Part → Bool} {s₀ : State} {s : State} {f : Mgmt → Mgmt} (h : Keeps F s₀ s) (f_mgmt : F .mgmt = true := by with_reducible assumption) : Keeps F s₀ (State.onMgmt s f) := by
  unfold State.onMgmt
  repeat' first
    | with_reducible assumption
    | intro _
    | with_reducible apply Keeps.ite
    | split
    | with_reducible apply Keeps.mgmt_set
    | dsimp only

theorem State.onFcu_keeps {F : Part → Bool} {s₀ : State} {s : State} {f : Fcu → Fcu} (h : Keeps F s₀ s) (f_fcu : F .fcu = true := by with_reducible assumption) : Keeps F s₀ (State.onFcu s f) := by
  unfold State.onFcu
  repeat' first
    | with_reducible assumption
    | intro _
    | with_reducible apply Keeps.ite
    | split
    | with_reducible apply Keeps.fcu_set
    | dsimp only

theorem State.drivePin_keeps {F : Part → Bool} {s₀ : State} {s : State} (h : Keeps F s₀ s) (f_power : F .power = true := by with_reducible assumption) : Keeps F s₀ (State.drivePin s) := by
  unfold State.drivePin
  repeat' first
    | with_reducible assumption
    | with_reducible apply State.onPower_keeps
    | intro _
    | with_reducible apply Keeps.ite
    | split
    | dsimp only

theorem State.writeHold_keeps {F : Part → Bool} {s₀ : State} {s : State} {v : Nat} (h : Keeps F s₀ s) (f_power : F .power = true := by with_reducible assumption) (f_regs : F .regs = true := by with_reducible assumption) : Keeps F s₀ (State.writeHold s v) := by
  unfold State.writeHold
  repeat' first
    | with_reducible assumption
    | with_reducible apply State.drivePin_keeps
    | with_reducible apply State.setFld_keeps
    | intro _
    | with_reducible apply Keeps.ite
    | split
    | dsimp only

theorem State.moduleReset_keeps {F : Part → Bool} {s₀ s : State} {cause : Nat} {mode : Mode} (h : Keeps F s₀ s) (f_dieTime : F .dieTime = true := by with_reducible assumption) (f_power : F .power = true := by with_reducible assumption) (f_flash : F .flash = true := by with_reducible assumption) (f_boot : F .boot = true := by with_reducible assumption) (f_mgmt : F .mgmt = true := by with_reducible assumption) (f_fcu : F .fcu = true := by with_reducible assumption) (f_cfg : F .cfg = true := by with_reducible assumption) (f_regs : F .regs = true := by with_reducible assumption) (f_mem : F .mem = true := by with_reducible assumption) (f_stackMap : F .stackMap = true := by with_reducible assumption) (f_banks : F .banks = true := by with_reducible assumption) (f_baus : F .baus = true := by with_reducible assumption) (f_seqs : F .seqs = true := by with_reducible assumption) (f_seqNext : F .seqNext = true := by with_reducible assumption) (f_slots : F .slots = true := by with_reducible assumption) (f_ports : F .ports = true := by with_reducible assumption) (f_cores : F .cores = true := by with_reducible assumption) (f_notices : F .notices = true := by with_reducible assumption) (f_kept : F .kept = true := by with_reducible assumption) (f_kv : F .kv = true := by with_reducible assumption) (f_ldr : F .ldr = true := by with_reducible assumption) (f_fab : F .fab = true := by with_reducible assumption) : Keeps F s₀ (State.moduleReset s cause mode) := by
  refine ⟨h.pending, fun _ => rfl, h.sent, h.fuses, Nat.le_succ_of_le h.boots, h.free, fun p n => ?_⟩
  have x := h.frame p n
  cases p <;> first | exact x | exact absurd n (by simp [*])

theorem State.t0_keeps {F : Part → Bool} {s₀ : State} {s : State} (h : Keeps F s₀ s) (f_power : F .power = true := by with_reducible assumption) : Keeps F s₀ (State.t0 s) := by
  unfold State.t0
  repeat' first
    | with_reducible assumption
    | with_reducible apply State.onPower_keeps
    | intro _
    | with_reducible apply Keeps.ite
    | split
    | dsimp only

theorem State.sleepStacks_keeps {F : Part → Bool} {s₀ : State} {s : State} (h : Keeps F s₀ s) (f_stackMap : F .stackMap = true := by with_reducible assumption) : Keeps F s₀ (State.sleepStacks s) := by
  unfold State.sleepStacks
  repeat' first
    | with_reducible assumption
    | with_reducible apply Keeps.foldl
    | with_reducible apply State.onStack_keeps
    | intro _
    | with_reducible apply Keeps.ite
    | split
    | dsimp only

theorem State.wakeStacks_keeps {F : Part → Bool} {s₀ : State} {s : State} (h : Keeps F s₀ s) (f_stackMap : F .stackMap = true := by with_reducible assumption) : Keeps F s₀ (State.wakeStacks s) := by
  unfold State.wakeStacks
  repeat' first
    | with_reducible assumption
    | with_reducible apply Keeps.foldl
    | with_reducible apply State.setStack_keeps
    | intro _
    | with_reducible apply Keeps.ite
    | split
    | dsimp only

theorem State.requestDormant_keeps {F : Part → Bool} {s₀ : State} {s : State} (h : Keeps F s₀ s) (f_power : F .power = true := by with_reducible assumption) (f_regs : F .regs = true := by with_reducible assumption) (f_stackMap : F .stackMap = true := by with_reducible assumption) (f_ports : F .ports = true := by with_reducible assumption) (f_fab : F .fab = true := by with_reducible assumption) : Keeps F s₀ (State.requestDormant s) := by
  unfold State.requestDormant
  repeat' first
    | with_reducible assumption
    | with_reducible apply State.keepAlivePorts_keeps
    | with_reducible apply State.onPower_keeps
    | with_reducible apply State.setFld_keeps
    | with_reducible apply State.sleepStacks_keeps
    | intro _
    | with_reducible apply Keeps.ite
    | split
    | dsimp only

theorem State.wakeUp_keeps {F : Part → Bool} {s₀ : State} {s : State} (h : Keeps F s₀ s) (f_free : F .free = true := by with_reducible assumption) (f_sent : F .sent = true := by with_reducible assumption) (f_power : F .power = true := by with_reducible assumption) (f_stackMap : F .stackMap = true := by with_reducible assumption) (f_ports : F .ports = true := by with_reducible assumption) (f_fab : F .fab = true := by with_reducible assumption) : Keeps F s₀ (State.wakeUp s) := by
  unfold State.wakeUp
  repeat' first
    | with_reducible assumption
    | with_reducible apply State.onPower_keeps
    | with_reducible apply State.wakePorts_keeps
    | with_reducible apply State.wakeStacks_keeps
    | intro _
    | with_reducible apply Keeps.ite
    | split
    | dsimp only

theorem State.stateCtl_keeps {F : Part → Bool} {s₀ : State} {s : State} {v : Nat} (h : Keeps F s₀ s) (f_free : F .free = true := by with_reducible assumption) (f_sent : F .sent = true := by with_reducible assumption) (f_power : F .power = true := by with_reducible assumption) (f_regs : F .regs = true := by with_reducible assumption) (f_stackMap : F .stackMap = true := by with_reducible assumption) (f_ports : F .ports = true := by with_reducible assumption) (f_fab : F .fab = true := by with_reducible assumption) : Keeps F s₀ (State.stateCtl s v) := by
  unfold State.stateCtl
  repeat' first
    | with_reducible assumption
    | with_reducible apply State.requestDormant_keeps
    | with_reducible apply State.wakeUp_keeps
    | intro _
    | with_reducible apply Keeps.ite
    | split
    | dsimp only

theorem State.dormantEntered_keeps {F : Part → Bool} {s₀ : State} {s : State} (h : Keeps F s₀ s) (f_free : F .free = true := by with_reducible assumption) (f_sent : F .sent = true := by with_reducible assumption) (f_power : F .power = true := by with_reducible assumption) (f_stackMap : F .stackMap = true := by with_reducible assumption) (f_ports : F .ports = true := by with_reducible assumption) (f_fab : F .fab = true := by with_reducible assumption) : Keeps F s₀ (State.dormantEntered s) := by
  unfold State.dormantEntered
  repeat' first
    | with_reducible assumption
    | with_reducible apply State.onPower_keeps
    | with_reducible apply State.wakeUp_keeps
    | intro _
    | with_reducible apply Keeps.ite
    | split
    | dsimp only

theorem State.mgmtGo_keeps {F : Part → Bool} {s₀ : State} {s : State} {port : Nat} (h : Keeps F s₀ s) (f_mgmt : F .mgmt = true := by with_reducible assumption) (f_regs : F .regs = true := by with_reducible assumption) : Keeps F s₀ (State.mgmtGo s port) := by
  unfold State.mgmtGo
  repeat' first
    | with_reducible assumption
    | with_reducible apply State.mapErr_keeps
    | with_reducible apply State.onMgmt_keeps
    | with_reducible apply State.setFld_keeps
    | intro _
    | with_reducible apply Keeps.ite
    | split
    | dsimp only

theorem State.mgmtI3c_keeps {F : Part → Bool} {s₀ : State} {s : State} {rec_ sig : List Byte} (h : Keeps F s₀ s) (f_mgmt : F .mgmt = true := by with_reducible assumption) : Keeps F s₀ (State.mgmtI3c s rec_ sig) := by
  unfold State.mgmtI3c
  repeat' first
    | with_reducible assumption
    | with_reducible apply State.onMgmt_keeps
    | intro _
    | with_reducible apply Keeps.ite
    | split
    | dsimp only

end Sys2Proof.Machine
end

