-- ==== Sys2Proof/Laws/KeepsAccess.lean ====
section
/-! SUPPORT. The operations of Machine/Access.lean undo nothing (Laws/Keeps.lean). -/

set_option Elab.async false
set_option linter.unusedTactic false
set_option linter.unreachableTactic false
set_option linter.unusedVariables false

namespace Sys2Proof.Machine

open Sys2Proof

theorem State.clearRecord_keeps {F : Part → Bool} {s₀ : State} {s : State} {d : Nat} {r : Reg} {u i : Nat} (h : Keeps F s₀ s) (f_regs : F .regs = true := by with_reducible assumption) : Keeps F s₀ (State.clearRecord s d r u i) := by
  unfold State.clearRecord
  repeat' first
    | with_reducible assumption
    | with_reducible apply Keeps.foldl
    | with_reducible apply State.setFld_keeps
    | with_reducible apply State.setReg_keeps
    | intro _
    | with_reducible apply Keeps.ite
    | split
    | dsimp only

theorem State.regWrite_keeps {F : Part → Bool} {s₀ : State} {s : State} {port : Option Nat} {d : Nat} {r : Reg} {u i v : Nat} (h : Keeps F s₀ s) (f_free : F .free = true := by with_reducible assumption) (f_sent : F .sent = true := by with_reducible assumption) (f_power : F .power = true := by with_reducible assumption) (f_mgmt : F .mgmt = true := by with_reducible assumption) (f_regs : F .regs = true := by with_reducible assumption) (f_stackMap : F .stackMap = true := by with_reducible assumption) (f_ports : F .ports = true := by with_reducible assumption) (f_fab : F .fab = true := by with_reducible assumption) : Keeps F s₀ (State.regWrite s port d r u i v) := by
  unfold State.regWrite
  repeat' first
    | with_reducible assumption
    | with_reducible apply State.clearRecord_keeps
    | with_reducible apply State.mgmtGo_keeps
    | with_reducible apply State.setFld_keeps
    | with_reducible apply State.setReg_keeps
    | with_reducible apply State.stateCtl_keeps
    | with_reducible apply State.tsenseReq_keeps
    | with_reducible apply State.writeHold_keeps
    | intro _
    | with_reducible apply Keeps.ite
    | split
    | dsimp only

theorem State.unmapped_keeps {F : Part → Bool} {s₀ : State} {s : State} {x : HeldAccess} {mem record : Bool} {a : Nat} (h : Keeps F s₀ s) (f_free : F .free = true := by with_reducible assumption) (f_sent : F .sent = true := by with_reducible assumption) (f_regs : F .regs = true := by with_reducible assumption) (f_mem : F .mem = true := by with_reducible assumption) (f_fab : F .fab = true := by with_reducible assumption) : Keeps F s₀ (State.unmapped s x mem record a) := by
  unfold State.unmapped
  repeat' first
    | with_reducible assumption
    | with_reducible apply State.answer_keeps
    | with_reducible apply State.mapErr_keeps
    | with_reducible apply BauRun.op_keeps
    | intro _
    | with_reducible apply Keeps.ite
    | split
    | dsimp only

theorem State.enqueue_keeps {F : Part → Bool} {s₀ : State} {s : State} {ag : Agent} {write : Bool} {ps : List (Nat × Nat)} (h : Keeps F s₀ s) (f_mem : F .mem = true := by with_reducible assumption) (f_banks : F .banks = true := by with_reducible assumption) : Keeps F s₀ (State.enqueue s ag write ps) := by
  unfold State.enqueue
  repeat' first
    | with_reducible assumption
    | with_reducible apply Keeps.foldl
    | with_reducible apply State.drive_keeps
    | with_reducible apply State.useObtained_keeps
    | intro _
    | with_reducible apply Keeps.ite
    | split
    | dsimp only

theorem State.track_keeps {F : Part → Bool} {s₀ : State} {s : State} {port line : Nat} {excl : Bool} (h : Keeps F s₀ s) (f_mem : F .mem = true := by with_reducible assumption) : Keeps F s₀ (State.track s port line excl) := by
  unfold State.track
  repeat' first
    | with_reducible assumption
    | with_reducible apply State.onMem_keeps
    | exact Memory.wf_same (by with_reducible rfl) (by with_reducible rfl)
    | intro _
    | with_reducible apply Keeps.ite
    | split
    | dsimp only

theorem State.recallOldest_keeps {F : Part → Bool} {s₀ : State} {s : State} {d : Nat} (h : Keeps F s₀ s) (f_sent : F .sent = true := by with_reducible assumption) (f_mem : F .mem = true := by with_reducible assumption) : Keeps F s₀ (State.recallOldest s d) := by
  unfold State.recallOldest
  repeat' first
    | with_reducible assumption
    | with_reducible apply State.issueSnoops_keeps
    | intro _
    | with_reducible apply Keeps.ite
    | split
    | dsimp only

theorem State.hold_keeps {F : Part → Bool} {s₀ : State} {s : State} {x : HeldAccess} (h : Keeps F s₀ s) (f_power : F .power = true := by with_reducible assumption) (f_mem : F .mem = true := by with_reducible assumption) : Keeps F s₀ (State.hold s x) := by
  unfold State.hold
  repeat' first
    | with_reducible assumption
    | with_reducible apply State.onMem_keeps
    | exact Memory.wf_same (by with_reducible rfl) (by with_reducible rfl)
    | with_reducible apply State.onPower_keeps
    | intro _
    | with_reducible apply Keeps.ite
    | split
    | dsimp only

theorem State.keepAwake_keeps {F : Part → Bool} {s₀ : State} {s : State} {ps : List (Nat × Nat)} (h : Keeps F s₀ s) (f_stackMap : F .stackMap = true := by with_reducible assumption) : Keeps F s₀ (State.keepAwake s ps) := by
  unfold State.keepAwake
  repeat' first
    | with_reducible assumption
    | with_reducible apply Keeps.foldl
    | with_reducible apply State.sleepInterrupted_keeps
    | intro _
    | with_reducible apply Keeps.ite
    | split
    | dsimp only

theorem State.serve_keeps {F : Part → Bool} {s₀ : State} {s : State} {x : HeldAccess} {mem : Bool} {ps : List (Nat × Nat)} {ok : Nat × Nat → Bool} {answer : Reply} (h : Keeps F s₀ s) (f_free : F .free = true := by with_reducible assumption) (f_sent : F .sent = true := by with_reducible assumption) (f_flash : F .flash = true := by with_reducible assumption) (f_fcu : F .fcu = true := by with_reducible assumption) (f_regs : F .regs = true := by with_reducible assumption) (f_mem : F .mem = true := by with_reducible assumption) (f_banks : F .banks = true := by with_reducible assumption) (f_fab : F .fab = true := by with_reducible assumption) : Keeps F s₀ (State.serve s x mem ps ok answer) := by
  unfold State.serve
  repeat' first
    | with_reducible assumption
    | with_reducible apply Keeps.foldl
    | with_reducible apply State.answer_keeps
    | with_reducible apply State.enqueue_keeps
    | with_reducible apply State.hold_keeps
    | with_reducible apply BauRun.op_keeps
    | with_reducible apply State.raise_keeps
    | with_reducible apply State.track_keeps
    | with_reducible apply State.writePieces_keeps
    | intro _
    | with_reducible apply Keeps.ite
    | split
    | dsimp only

theorem State.accessPieces_keeps {F : Part → Bool} {s₀ : State} {s : State} {x : HeldAccess} {mem : Bool} {ps : List (Nat × Nat)} (h : Keeps F s₀ s) (f_free : F .free = true := by with_reducible assumption) (f_sent : F .sent = true := by with_reducible assumption) (f_power : F .power = true := by with_reducible assumption) (f_flash : F .flash = true := by with_reducible assumption) (f_fcu : F .fcu = true := by with_reducible assumption) (f_regs : F .regs = true := by with_reducible assumption) (f_mem : F .mem = true := by with_reducible assumption) (f_stackMap : F .stackMap = true := by with_reducible assumption) (f_banks : F .banks = true := by with_reducible assumption) (f_fab : F .fab = true := by with_reducible assumption) : Keeps F s₀ (State.accessPieces s x mem ps) := by
  unfold State.accessPieces
  repeat' first
    | with_reducible assumption
    | with_reducible apply State.answer_keeps
    | with_reducible apply State.hold_keeps
    | with_reducible apply State.issueSnoops_keeps
    | with_reducible apply State.keepAwake_keeps
    | with_reducible apply State.mapErr_keeps
    | with_reducible apply BauRun.op_keeps
    | with_reducible apply State.recallOldest_keeps
    | with_reducible apply State.serve_keeps
    | intro _
    | with_reducible apply Keeps.ite
    | split
    | dsimp only

theorem State.accessSeqw_keeps {F : Part → Bool} {s₀ : State} {s : State} {x : HeldAccess} {d off : Nat} (h : Keeps F s₀ s) (f_free : F .free = true := by with_reducible assumption) (f_sent : F .sent = true := by with_reducible assumption) (f_power : F .power = true := by with_reducible assumption) (f_regs : F .regs = true := by with_reducible assumption) (f_mem : F .mem = true := by with_reducible assumption) (f_stackMap : F .stackMap = true := by with_reducible assumption) (f_banks : F .banks = true := by with_reducible assumption) (f_baus : F .baus = true := by with_reducible assumption) (f_seqs : F .seqs = true := by with_reducible assumption) (f_seqNext : F .seqNext = true := by with_reducible assumption) (f_slots : F .slots = true := by with_reducible assumption) (f_fab : F .fab = true := by with_reducible assumption) : Keeps F s₀ (State.accessSeqw s x d off) := by
  unfold State.accessSeqw
  repeat' first
    | with_reducible assumption
    | with_reducible apply State.hold_keeps
    | with_reducible apply State.seqwAccess_keeps
    | with_reducible apply State.unmapped_keeps
    | intro _
    | with_reducible apply Keeps.ite
    | split
    | dsimp only

theorem State.accessReg_keeps {F : Part → Bool} {s₀ : State} {s : State} {x : HeldAccess} {d off : Nat} (h : Keeps F s₀ s) (f_free : F .free = true := by with_reducible assumption) (f_sent : F .sent = true := by with_reducible assumption) (f_power : F .power = true := by with_reducible assumption) (f_mgmt : F .mgmt = true := by with_reducible assumption) (f_fcu : F .fcu = true := by with_reducible assumption) (f_regs : F .regs = true := by with_reducible assumption) (f_mem : F .mem = true := by with_reducible assumption) (f_stackMap : F .stackMap = true := by with_reducible assumption) (f_ports : F .ports = true := by with_reducible assumption) (f_fab : F .fab = true := by with_reducible assumption) : Keeps F s₀ (State.accessReg s x d off) := by
  unfold State.accessReg
  repeat' first
    | with_reducible assumption
    | with_reducible apply State.answer_keeps
    | with_reducible apply BauRun.op_keeps
    | with_reducible apply State.regReadEffect_keeps
    | with_reducible apply State.regWrite_keeps
    | with_reducible apply State.unmapped_keeps
    | intro _
    | with_reducible apply Keeps.ite
    | split
    | dsimp only

theorem State.accessBarReg_keeps {F : Part → Bool} {s₀ : State} {s : State} {x : HeldAccess} {port o : Nat} (h : Keeps F s₀ s) (f_free : F .free = true := by with_reducible assumption) (f_sent : F .sent = true := by with_reducible assumption) (f_power : F .power = true := by with_reducible assumption) (f_mgmt : F .mgmt = true := by with_reducible assumption) (f_fcu : F .fcu = true := by with_reducible assumption) (f_regs : F .regs = true := by with_reducible assumption) (f_mem : F .mem = true := by with_reducible assumption) (f_stackMap : F .stackMap = true := by with_reducible assumption) (f_ports : F .ports = true := by with_reducible assumption) (f_fab : F .fab = true := by with_reducible assumption) : Keeps F s₀ (State.accessBarReg s x port o) := by
  unfold State.accessBarReg
  repeat' first
    | with_reducible assumption
    | with_reducible apply State.accessReg_keeps
    | with_reducible apply State.answer_keeps
    | with_reducible apply BauRun.op_keeps
    | with_reducible apply State.unmapped_keeps
    | intro _
    | with_reducible apply Keeps.ite
    | split
    | dsimp only

theorem State.accessBar0_keeps {F : Part → Bool} {s₀ : State} {s : State} {x : HeldAccess} {port off : Nat} (h : Keeps F s₀ s) (f_free : F .free = true := by with_reducible assumption) (f_sent : F .sent = true := by with_reducible assumption) (f_power : F .power = true := by with_reducible assumption) (f_mgmt : F .mgmt = true := by with_reducible assumption) (f_fcu : F .fcu = true := by with_reducible assumption) (f_regs : F .regs = true := by with_reducible assumption) (f_mem : F .mem = true := by with_reducible assumption) (f_stackMap : F .stackMap = true := by with_reducible assumption) (f_ports : F .ports = true := by with_reducible assumption) (f_notices : F .notices = true := by with_reducible assumption) (f_fab : F .fab = true := by with_reducible assumption) : Keeps F s₀ (State.accessBar0 s x port off) := by
  unfold State.accessBar0
  repeat' first
    | with_reducible assumption
    | with_reducible apply State.accessBarReg_keeps
    | with_reducible apply State.answer_keeps
    | with_reducible apply State.fresh_keeps
    | refine State.fresh_keeps_of ?_ (by with_reducible assumption)
    | with_reducible apply State.mailboxAccess_keeps
    | with_reducible apply State.onPort_keeps
    | with_reducible apply BauRun.op_keeps
    | with_reducible apply State.unmapped_keeps
    | intro _
    | with_reducible apply Keeps.ite
    | split
    | dsimp only

theorem State.accessCfg_keeps {F : Part → Bool} {s₀ : State} {s : State} {x : HeldAccess} {id off : Nat} (h : Keeps F s₀ s) (f_free : F .free = true := by with_reducible assumption) (f_sent : F .sent = true := by with_reducible assumption) (f_mem : F .mem = true := by with_reducible assumption) (f_ports : F .ports = true := by with_reducible assumption) (f_fab : F .fab = true := by with_reducible assumption) : Keeps F s₀ (State.accessCfg s x id off) := by
  unfold State.accessCfg
  repeat' first
    | with_reducible assumption
    | with_reducible apply State.answer_keeps
    | with_reducible apply State.cfgWrite_keeps
    | with_reducible apply State.flipAsk_keeps
    | with_reducible apply BauRun.op_keeps
    | intro _
    | with_reducible apply Keeps.ite
    | split
    | dsimp only

theorem State.accessSafe_keeps {F : Part → Bool} {s₀ : State} {s : State} {x : HeldAccess} (h : Keeps F s₀ s) (f_free : F .free = true := by with_reducible assumption) (f_sent : F .sent = true := by with_reducible assumption) (f_power : F .power = true := by with_reducible assumption) (f_mgmt : F .mgmt = true := by with_reducible assumption) (f_fcu : F .fcu = true := by with_reducible assumption) (f_regs : F .regs = true := by with_reducible assumption) (f_mem : F .mem = true := by with_reducible assumption) (f_stackMap : F .stackMap = true := by with_reducible assumption) (f_ports : F .ports = true := by with_reducible assumption) (f_notices : F .notices = true := by with_reducible assumption) (f_fab : F .fab = true := by with_reducible assumption) : Keeps F s₀ (State.accessSafe s x) := by
  unfold State.accessSafe
  repeat' first
    | with_reducible assumption
    | with_reducible apply State.accessBar0_keeps
    | with_reducible apply State.accessBarReg_keeps
    | with_reducible apply State.accessCfg_keeps
    | with_reducible apply State.answer_keeps
    | with_reducible apply State.mailboxAccess_keeps
    | with_reducible apply BauRun.op_keeps
    | with_reducible apply State.unmapped_keeps
    | intro _
    | with_reducible apply Keeps.ite
    | split
    | dsimp only

theorem State.accessPhys_keeps {F : Part → Bool} {s₀ : State} {s : State} {x : HeldAccess} {a : Nat} (h : Keeps F s₀ s) (f_free : F .free = true := by with_reducible assumption) (f_sent : F .sent = true := by with_reducible assumption) (f_power : F .power = true := by with_reducible assumption) (f_flash : F .flash = true := by with_reducible assumption) (f_mgmt : F .mgmt = true := by with_reducible assumption) (f_fcu : F .fcu = true := by with_reducible assumption) (f_regs : F .regs = true := by with_reducible assumption) (f_mem : F .mem = true := by with_reducible assumption) (f_stackMap : F .stackMap = true := by with_reducible assumption) (f_banks : F .banks = true := by with_reducible assumption) (f_ports : F .ports = true := by with_reducible assumption) (f_fab : F .fab = true := by with_reducible assumption) : Keeps F s₀ (State.accessPhys s x a) := by
  unfold State.accessPhys
  repeat' first
    | with_reducible assumption
    | with_reducible apply State.accessPieces_keeps
    | with_reducible apply State.accessReg_keeps
    | with_reducible apply BauRun.op_keeps
    | with_reducible apply State.unmapped_keeps
    | intro _
    | with_reducible apply Keeps.ite
    | split
    | dsimp only

theorem State.access_keeps {F : Part → Bool} {s₀ : State} {s : State} {x : HeldAccess} (h : Keeps F s₀ s) (f_free : F .free = true := by with_reducible assumption) (f_sent : F .sent = true := by with_reducible assumption) (f_power : F .power = true := by with_reducible assumption) (f_flash : F .flash = true := by with_reducible assumption) (f_mgmt : F .mgmt = true := by with_reducible assumption) (f_fcu : F .fcu = true := by with_reducible assumption) (f_regs : F .regs = true := by with_reducible assumption) (f_mem : F .mem = true := by with_reducible assumption) (f_stackMap : F .stackMap = true := by with_reducible assumption) (f_banks : F .banks = true := by with_reducible assumption) (f_baus : F .baus = true := by with_reducible assumption) (f_seqs : F .seqs = true := by with_reducible assumption) (f_seqNext : F .seqNext = true := by with_reducible assumption) (f_slots : F .slots = true := by with_reducible assumption) (f_ports : F .ports = true := by with_reducible assumption) (f_notices : F .notices = true := by with_reducible assumption) (f_fab : F .fab = true := by with_reducible assumption) : Keeps F s₀ (State.access s x) := by
  unfold State.access
  repeat' first
    | with_reducible assumption
    | with_reducible apply State.accessBar0_keeps
    | with_reducible apply State.accessCfg_keeps
    | with_reducible apply State.accessPhys_keeps
    | with_reducible apply State.accessPieces_keeps
    | with_reducible apply State.accessSafe_keeps
    | with_reducible apply State.accessSeqw_keeps
    | with_reducible apply State.answer_keeps
    | with_reducible apply State.hold_keeps
    | with_reducible apply BauRun.op_keeps
    | with_reducible apply State.unmapped_keeps
    | intro _
    | with_reducible apply Keeps.ite
    | split
    | dsimp only

theorem State.retry_keeps {F : Part → Bool} {s₀ : State} {s : State} (h : Keeps F s₀ s) (f_free : F .free = true := by with_reducible assumption) (f_sent : F .sent = true := by with_reducible assumption) (f_power : F .power = true := by with_reducible assumption) (f_flash : F .flash = true := by with_reducible assumption) (f_mgmt : F .mgmt = true := by with_reducible assumption) (f_fcu : F .fcu = true := by with_reducible assumption) (f_regs : F .regs = true := by with_reducible assumption) (f_mem : F .mem = true := by with_reducible assumption) (f_stackMap : F .stackMap = true := by with_reducible assumption) (f_banks : F .banks = true := by with_reducible assumption) (f_baus : F .baus = true := by with_reducible assumption) (f_seqs : F .seqs = true := by with_reducible assumption) (f_seqNext : F .seqNext = true := by with_reducible assumption) (f_slots : F .slots = true := by with_reducible assumption) (f_ports : F .ports = true := by with_reducible assumption) (f_notices : F .notices = true := by with_reducible assumption) (f_fab : F .fab = true := by with_reducible assumption) : Keeps F s₀ (State.retry s) := by
  unfold State.retry
  repeat' first
    | with_reducible assumption
    | with_reducible apply Keeps.foldl
    | with_reducible apply State.access_keeps
    | with_reducible apply State.onMem_keeps
    | exact Memory.wf_same (by with_reducible rfl) (by with_reducible rfl)
    | intro _
    | with_reducible apply Keeps.ite
    | split
    | dsimp only

end Sys2Proof.Machine
end

