-- ==== Sys2Proof/Laws/KeepsSyncOps.lean ====
section
/-! SUPPORT. The operations of Machine/SyncOps.lean undo nothing (Laws/Keeps.lean). -/

set_option Elab.async false
set_option linter.unusedTactic false
set_option linter.unreachableTactic false
set_option linter.unusedVariables false

namespace Sys2Proof.Machine

open Sys2Proof

theorem State.storeWords_keeps {F : Part → Bool} {s₀ s : State} {ps : List (Nat × Nat)} {data : List Byte} (h : Keeps F s₀ s) (f_mem : F .mem = true := by with_reducible assumption) : Keeps F s₀ (s.storeWords ps data) := by
  induction ps generalizing s data with
  | nil => exact h
  | cons x ps ih =>
    rw [State.storeWords]
    repeat' first
      | with_reducible assumption
      | with_reducible apply State.writeBytes_keeps
      | with_reducible apply ih
      | intro _
      | with_reducible apply Keeps.ite
      | split
      | dsimp only


theorem State.popStore_keeps {F : Part → Bool} {s₀ : State} {s : State} {d c q : Nat} {j : Job} {i : Nat} {b : Beat} (h : Keeps F s₀ s) (f_sent : F .sent = true := by with_reducible assumption) (f_flash : F .flash = true := by with_reducible assumption) (f_fcu : F .fcu = true := by with_reducible assumption) (f_regs : F .regs = true := by with_reducible assumption) (f_mem : F .mem = true := by with_reducible assumption) (f_banks : F .banks = true := by with_reducible assumption) (f_cores : F .cores = true := by with_reducible assumption) : Keeps F s₀ (State.popStore s d c q j i b) := by
  unfold State.popStore
  repeat' first
    | with_reducible assumption
    | with_reducible apply State.enqueue_keeps
    | with_reducible apply State.onCore_keeps
    | with_reducible apply State.storeWords_keeps
    | with_reducible apply State.streamFault_keeps
    | with_reducible apply State.walkAsk_keeps
    | intro _
    | with_reducible apply Keeps.ite
    | split
    | dsimp only

theorem State.popStep_keeps {F : Part → Bool} {s₀ : State} {s : State} {d c q : Nat} (h : Keeps F s₀ s) (f_sent : F .sent = true := by with_reducible assumption) (f_flash : F .flash = true := by with_reducible assumption) (f_fcu : F .fcu = true := by with_reducible assumption) (f_regs : F .regs = true := by with_reducible assumption) (f_mem : F .mem = true := by with_reducible assumption) (f_banks : F .banks = true := by with_reducible assumption) (f_cores : F .cores = true := by with_reducible assumption) : Keeps F s₀ (State.popStep s d c q) := by
  unfold State.popStep
  repeat' first
    | with_reducible assumption
    | with_reducible apply State.onCore_keeps
    | with_reducible apply State.popStore_keeps
    | with_reducible apply State.streamFault_keeps
    | intro _
    | with_reducible apply Keeps.ite
    | split
    | dsimp only

theorem State.pushBeat_keeps {F : Part → Bool} {s₀ : State} {s : State} {d c q : Nat} {j : Job} {data : List Byte} {last : Bool} (h : Keeps F s₀ s) (f_flash : F .flash = true := by with_reducible assumption) (f_fcu : F .fcu = true := by with_reducible assumption) (f_regs : F .regs = true := by with_reducible assumption) (f_mem : F .mem = true := by with_reducible assumption) (f_cores : F .cores = true := by with_reducible assumption) : Keeps F s₀ (State.pushBeat s d c q j data last) := by
  unfold State.pushBeat
  repeat' first
    | with_reducible assumption
    | with_reducible apply State.credit_keeps
    | with_reducible apply State.onCore_keeps
    | intro _
    | with_reducible apply Keeps.ite
    | split
    | dsimp only

theorem State.pushLoad_keeps {F : Part → Bool} {s₀ : State} {s : State} {d c q : Nat} {j : Job} (h : Keeps F s₀ s) (f_sent : F .sent = true := by with_reducible assumption) (f_flash : F .flash = true := by with_reducible assumption) (f_fcu : F .fcu = true := by with_reducible assumption) (f_regs : F .regs = true := by with_reducible assumption) (f_mem : F .mem = true := by with_reducible assumption) (f_banks : F .banks = true := by with_reducible assumption) (f_cores : F .cores = true := by with_reducible assumption) : Keeps F s₀ (State.pushLoad s d c q j) := by
  unfold State.pushLoad
  repeat' first
    | with_reducible assumption
    | with_reducible apply State.enqueue_keeps
    | with_reducible apply State.onCore_keeps
    | with_reducible apply State.poisonRead_keeps
    | with_reducible apply State.pushBeat_keeps
    | with_reducible apply State.streamFault_keeps
    | with_reducible apply State.walkAsk_keeps
    | intro _
    | with_reducible apply Keeps.ite
    | split
    | dsimp only

theorem State.pushStep_keeps {F : Part → Bool} {s₀ : State} {s : State} {d c q : Nat} (h : Keeps F s₀ s) (f_sent : F .sent = true := by with_reducible assumption) (f_flash : F .flash = true := by with_reducible assumption) (f_fcu : F .fcu = true := by with_reducible assumption) (f_regs : F .regs = true := by with_reducible assumption) (f_mem : F .mem = true := by with_reducible assumption) (f_banks : F .banks = true := by with_reducible assumption) (f_cores : F .cores = true := by with_reducible assumption) : Keeps F s₀ (State.pushStep s d c q) := by
  unfold State.pushStep
  repeat' first
    | with_reducible assumption
    | with_reducible apply State.onCc_keeps
    | with_reducible apply State.onCore_keeps
    | with_reducible apply State.pushBeat_keeps
    | with_reducible apply State.pushLoad_keeps
    | intro _
    | with_reducible apply Keeps.ite
    | split
    | dsimp only

theorem State.queueStep_keeps {F : Part → Bool} {s₀ : State} {s : State} {d c q : Nat} (h : Keeps F s₀ s) (f_free : F .free = true := by with_reducible assumption) (f_sent : F .sent = true := by with_reducible assumption) (f_flash : F .flash = true := by with_reducible assumption) (f_fcu : F .fcu = true := by with_reducible assumption) (f_regs : F .regs = true := by with_reducible assumption) (f_mem : F .mem = true := by with_reducible assumption) (f_banks : F .banks = true := by with_reducible assumption) (f_cores : F .cores = true := by with_reducible assumption) : Keeps F s₀ (State.queueStep s d c q) := by
  unfold State.queueStep
  repeat' first
    | with_reducible assumption
    | with_reducible apply State.popStep_keeps
    | with_reducible apply State.pushStep_keeps
    | with_reducible apply State.settle_keeps
    | intro _
    | with_reducible apply Keeps.ite
    | split
    | dsimp only

theorem State.setBarrier_keeps {F : Part → Bool} {s₀ : State} {s : State} {d c off : Nat} {b : Barrier} {full : Bool} (h : Keeps F s₀ s) (f_mem : F .mem = true := by with_reducible assumption) (f_cores : F .cores = true := by with_reducible assumption) : Keeps F s₀ (State.setBarrier s d c off b full) := by
  unfold State.setBarrier
  repeat' first
    | with_reducible assumption
    | with_reducible apply State.onCore_keeps
    | with_reducible apply State.writeBytes_keeps
    | intro _
    | with_reducible apply Keeps.ite
    | split
    | dsimp only

theorem State.arrive_keeps {F : Part → Bool} {s₀ s t : State} {d c off p m : Nat} (h : Keeps F s₀ s) (e : s.arrive d c off p m = some t) (f_free : F .free = true := by with_reducible assumption) (f_flash : F .flash = true := by with_reducible assumption) (f_fcu : F .fcu = true := by with_reducible assumption) (f_regs : F .regs = true := by with_reducible assumption) (f_mem : F .mem = true := by with_reducible assumption) (f_cores : F .cores = true := by with_reducible assumption) : Keeps F s₀ t := by
  unfold State.arrive at e
  dsimp only at e
  repeat' split at e
  all_goals first | rw [← Option.some.inj e] | exact (nomatch e)
  repeat' first
    | with_reducible assumption
    | with_reducible apply State.coreFault_keeps
    | with_reducible apply State.releaseWord_keeps
    | with_reducible apply State.setBarrier_keeps
    | intro _
    | with_reducible apply Keeps.ite
    | split
    | dsimp only


theorem State.leave_keeps {F : Part → Bool} {s₀ : State} {s : State} {d c off p : Nat} (h : Keeps F s₀ s) (f_flash : F .flash = true := by with_reducible assumption) (f_fcu : F .fcu = true := by with_reducible assumption) (f_regs : F .regs = true := by with_reducible assumption) (f_mem : F .mem = true := by with_reducible assumption) (f_cores : F .cores = true := by with_reducible assumption) : Keeps F s₀ (State.leave s d c off p) := by
  unfold State.leave
  repeat' first
    | with_reducible assumption
    | with_reducible apply State.coreFault_keeps
    | with_reducible apply State.setBarrier_keeps
    | intro _
    | with_reducible apply Keeps.ite
    | split
    | dsimp only

end Sys2Proof.Machine
end

