-- ==== Sys2Proof/Laws/KeepsDmaOps.lean ====
section
/-! SUPPORT. The operations of Machine/DmaOps.lean undo nothing (Laws/Keeps.lean). -/

set_option Elab.async false
set_option linter.unusedTactic false
set_option linter.unreachableTactic false
set_option linter.unusedVariables false

namespace Sys2Proof.Machine

open Sys2Proof

theorem State.putPieces_keeps {F : Part → Bool} {s₀ s : State} {ps : List (Nat × Nat)} {data : List Byte} (h : Keeps F s₀ s) (f_mem : F .mem = true := by with_reducible assumption) : Keeps F s₀ (s.putPieces ps data) := by
  induction ps generalizing s data with
  | nil => exact h
  | cons x ps ih =>
    rw [State.putPieces]
    repeat' first
      | with_reducible assumption
      | with_reducible apply State.writeBytes_keeps
      | with_reducible apply ih
      | intro _
      | with_reducible apply Keeps.ite
      | split
      | dsimp only


end Sys2Proof.Machine
end

