-- ==== Sys2Proof/Laws/KeepsStreams.lean ====
section
/-! SUPPORT. The operations of Machine/Streams.lean undo nothing (Laws/Keeps.lean). -/

set_option Elab.async false
set_option linter.unusedTactic false
set_option linter.unreachableTactic false
set_option linter.unusedVariables false

namespace Sys2Proof.Machine

open Sys2Proof

theorem State.blockMismatch_keeps {F : Part → Bool} {s₀ : State} {s : State} {d c : Nat} {x : Bool} (h : Keeps F s₀ s) (f_flash : F .flash = true := by with_reducible assumption) (f_fcu : F .fcu = true := by with_reducible assumption) (f_regs : F .regs = true := by with_reducible assumption) (f_mem : F .mem = true := by with_reducible assumption) (f_cores : F .cores = true := by with_reducible assumption) : Keeps F s₀ (State.blockMismatch s d c x) := by
  unfold State.blockMismatch
  repeat' first
    | with_reducible assumption
    | with_reducible apply State.streamFault_keeps
    | intro _
    | with_reducible apply Keeps.ite
    | split
    | dsimp only

theorem execBlock_good {F : Part → Bool} {d c : Nat} {x : Bool} {s : State} (f_flash : F .flash = true := by with_reducible assumption) (f_fcu : F .fcu = true := by with_reducible assumption) (f_regs : F .regs = true := by with_reducible assumption) (f_mem : F .mem = true := by with_reducible assumption) (f_cores : F .cores = true := by with_reducible assumption) : Good F s (execBlock d c x s) := by
  unfold execBlock
  repeat' first
    | with_reducible assumption
    | with_reducible apply State.blockMismatch_keeps
    | with_reducible apply State.onCore_keeps
    | with_reducible apply State.when_keeps
    | with_reducible apply Good.next
    | with_reducible exact Keeps.rfl
    | intro _
    | with_reducible apply Keeps.ite
    | split
    | dsimp only

theorem execEndblock_good {F : Part → Bool} {d c : Nat} {x : Bool} {s : State} (f_free : F .free = true := by with_reducible assumption) (f_flash : F .flash = true := by with_reducible assumption) (f_fcu : F .fcu = true := by with_reducible assumption) (f_regs : F .regs = true := by with_reducible assumption) (f_mem : F .mem = true := by with_reducible assumption) (f_cores : F .cores = true := by with_reducible assumption) : Good F s (execEndblock d c x s) := by
  unfold execEndblock
  repeat' first
    | with_reducible assumption
    | with_reducible apply State.hold_keeps
    | with_reducible apply State.onCore_keeps
    | with_reducible apply State.settle_keeps
    | with_reducible apply State.when_keeps
    | with_reducible apply Good.next
    | with_reducible exact Keeps.rfl
    | intro _
    | with_reducible apply Keeps.ite
    | split
    | dsimp only

theorem execStreamEnd_good {F : Part → Bool} {d c : Nat} {x : Bool} {s : State} (f_cores : F .cores = true := by with_reducible assumption) : Good F s (execStreamEnd d c x s) := by
  unfold execStreamEnd
  repeat' first
    | with_reducible assumption
    | with_reducible apply State.onCore_keeps
    | with_reducible apply State.when_keeps
    | with_reducible apply Good.next
    | with_reducible exact Keeps.rfl
    | intro _
    | with_reducible apply Keeps.ite
    | split
    | dsimp only

theorem execReplayBoundary_good {F : Part → Bool} {d c : Nat} {x : Bool} {s : State} (f_cores : F .cores = true := by with_reducible assumption) : Good F s (execReplayBoundary d c x s) := by
  unfold execReplayBoundary
  repeat' first
    | with_reducible assumption
    | with_reducible apply State.onCore_keeps
    | with_reducible apply State.when_keeps
    | with_reducible apply Good.next
    | with_reducible exact Keeps.rfl
    | intro _
    | with_reducible apply Keeps.ite
    | split
    | dsimp only

theorem execPatchApply_good {F : Part → Bool} {d c : Nat} {s : State} (f_cores : F .cores = true := by with_reducible assumption) : Good F s (execPatchApply d c s) := by
  unfold execPatchApply
  repeat' first
    | with_reducible assumption
    | with_reducible apply Keeps.foldl
    | with_reducible apply State.onCore_keeps
    | with_reducible apply State.when_keeps
    | with_reducible apply Good.next
    | with_reducible exact Keeps.rfl
    | intro _
    | with_reducible apply Keeps.ite
    | split
    | dsimp only

theorem State.issueWalk_keeps {F : Part → Bool} {s₀ : State} {s : State} {d c : Nat} {o : Nat} (h : Keeps F s₀ s) (f_cores : F .cores = true := by with_reducible assumption) (f_kv : F .kv = true := by with_reducible assumption) : Keeps F s₀ (State.issueWalk s d c o) := by
  unfold State.issueWalk
  repeat' first
    | with_reducible assumption
    | with_reducible apply State.addJob_keeps
    | with_reducible apply State.onCore_keeps
    | with_reducible apply State.when_keeps
    | intro _
    | with_reducible apply Keeps.ite
    | split
    | dsimp only

theorem execLoad_good {F : Part → Bool} {d c : Nat} {s : State} (f_cores : F .cores = true := by with_reducible assumption) (f_kv : F .kv = true := by with_reducible assumption) : Good F s (execLoad d c s) := by
  unfold execLoad
  repeat' first
    | with_reducible assumption
    | with_reducible apply State.issueWalk_keeps
    | with_reducible apply Good.next
    | with_reducible exact Keeps.rfl
    | intro _
    | with_reducible apply Keeps.ite
    | split
    | dsimp only

theorem execStore_good {F : Part → Bool} {d c : Nat} {s : State} (f_cores : F .cores = true := by with_reducible assumption) (f_kv : F .kv = true := by with_reducible assumption) : Good F s (execStore d c s) := by
  unfold execStore
  repeat' first
    | with_reducible assumption
    | with_reducible apply State.issueWalk_keeps
    | with_reducible apply Good.next
    | with_reducible exact Keeps.rfl
    | intro _
    | with_reducible apply Keeps.ite
    | split
    | dsimp only

theorem State.syncWord_keeps {F : Part → Bool} {s₀ : State} {s : State} {d c : Nat} {f : Nat → State → State} (h : Keeps F s₀ s) (kf : ∀ x0 t, Keeps F s₀ t → Keeps F s₀ (f x0 t)) (f_flash : F .flash = true := by with_reducible assumption) (f_fcu : F .fcu = true := by with_reducible assumption) (f_regs : F .regs = true := by with_reducible assumption) (f_mem : F .mem = true := by with_reducible assumption) (f_cores : F .cores = true := by with_reducible assumption) : Keeps F s₀ (State.syncWord s d c f) := by
  unfold State.syncWord
  repeat' first
    | with_reducible assumption
    | with_reducible apply State.streamFault_keeps
    | with_reducible apply kf
    | intro _
    | with_reducible apply Keeps.ite
    | split
    | dsimp only

theorem execWait_good {F : Part → Bool} {d c : Nat} {s : State} (f_flash : F .flash = true := by with_reducible assumption) (f_fcu : F .fcu = true := by with_reducible assumption) (f_regs : F .regs = true := by with_reducible assumption) (f_mem : F .mem = true := by with_reducible assumption) (f_cores : F .cores = true := by with_reducible assumption) : Good F s (execWait d c s) := by
  unfold execWait
  repeat' first
    | with_reducible assumption
    | with_reducible apply State.hold_keeps
    | with_reducible apply State.onCore_keeps
    | with_reducible apply State.syncWord_keeps
    | with_reducible apply State.when_keeps
    | with_reducible apply Good.next
    | with_reducible exact Keeps.rfl
    | intro _
    | with_reducible apply Keeps.ite
    | split
    | dsimp only

theorem execSignal_good {F : Part → Bool} {d c : Nat} {s : State} (f_free : F .free = true := by with_reducible assumption) (f_flash : F .flash = true := by with_reducible assumption) (f_fcu : F .fcu = true := by with_reducible assumption) (f_regs : F .regs = true := by with_reducible assumption) (f_mem : F .mem = true := by with_reducible assumption) (f_cores : F .cores = true := by with_reducible assumption) : Good F s (execSignal d c s) := by
  unfold execSignal
  repeat' first
    | with_reducible assumption
    | with_reducible apply State.onCore_keeps
    | with_reducible apply State.settle_keeps
    | with_reducible apply State.syncWord_keeps
    | with_reducible apply State.when_keeps
    | with_reducible apply Good.next
    | with_reducible exact Keeps.rfl
    | intro _
    | with_reducible apply Keeps.ite
    | split
    | dsimp only

theorem execBarrier_good {F : Part → Bool} {d c : Nat} {s : State} (f_free : F .free = true := by with_reducible assumption) (f_flash : F .flash = true := by with_reducible assumption) (f_fcu : F .fcu = true := by with_reducible assumption) (f_regs : F .regs = true := by with_reducible assumption) (f_mem : F .mem = true := by with_reducible assumption) (f_cores : F .cores = true := by with_reducible assumption) : Good F s (execBarrier d c s) := by
  unfold execBarrier
  repeat' first
    | with_reducible assumption
    | refine State.arrive_keeps ?_ (by with_reducible assumption)
    | with_reducible apply State.hold_keeps
    | with_reducible apply State.onCore_keeps
    | with_reducible apply State.syncWord_keeps
    | with_reducible apply State.when_keeps
    | with_reducible apply Good.next
    | with_reducible exact Keeps.rfl
    | intro _
    | with_reducible apply Keeps.ite
    | split
    | dsimp only

theorem State.ccArrives_keeps {F : Part → Bool} {s₀ : State} {s : State} {d c off : Nat} (h : Keeps F s₀ s) (f_free : F .free = true := by with_reducible assumption) (f_flash : F .flash = true := by with_reducible assumption) (f_fcu : F .fcu = true := by with_reducible assumption) (f_regs : F .regs = true := by with_reducible assumption) (f_mem : F .mem = true := by with_reducible assumption) (f_cores : F .cores = true := by with_reducible assumption) : Keeps F s₀ (State.ccArrives s d c off) := by
  unfold State.ccArrives
  repeat' first
    | with_reducible assumption
    | refine State.arrive_keeps ?_ (by with_reducible assumption)
    | with_reducible apply State.hold_keeps
    | with_reducible apply State.onCc_keeps
    | intro _
    | with_reducible apply Keeps.ite
    | split
    | dsimp only

theorem execBarrierLeave_good {F : Part → Bool} {d c off who : Nat} {s : State} (f_free : F .free = true := by with_reducible assumption) (f_flash : F .flash = true := by with_reducible assumption) (f_fcu : F .fcu = true := by with_reducible assumption) (f_regs : F .regs = true := by with_reducible assumption) (f_mem : F .mem = true := by with_reducible assumption) (f_cores : F .cores = true := by with_reducible assumption) : Good F s (execBarrierLeave d c off who s) := by
  unfold execBarrierLeave
  repeat' first
    | with_reducible assumption
    | with_reducible apply State.ccArrives_keeps
    | with_reducible apply State.hold_keeps
    | with_reducible apply State.leave_keeps
    | with_reducible apply State.onCore_keeps
    | with_reducible apply State.when_keeps
    | with_reducible apply Good.next
    | with_reducible exact Keeps.rfl
    | intro _
    | with_reducible apply Keeps.ite
    | split
    | dsimp only

theorem execDmaBarrierArrive_good {F : Part → Bool} {d c : Nat} {de1 : Bool} {s : State} (f_free : F .free = true := by with_reducible assumption) (f_flash : F .flash = true := by with_reducible assumption) (f_fcu : F .fcu = true := by with_reducible assumption) (f_regs : F .regs = true := by with_reducible assumption) (f_mem : F .mem = true := by with_reducible assumption) (f_cores : F .cores = true := by with_reducible assumption) : Good F s (execDmaBarrierArrive d c de1 s) := by
  unfold execDmaBarrierArrive
  repeat' first
    | with_reducible assumption
    | refine State.arrive_keeps ?_ (by with_reducible assumption)
    | with_reducible apply State.onCore_keeps
    | with_reducible apply Good.next
    | with_reducible exact Keeps.rfl
    | intro _
    | with_reducible apply Keeps.ite
    | split
    | dsimp only

theorem execQueueBeatAccept_good {F : Part → Bool} {d c q : Nat} {s : State} (f_free : F .free = true := by with_reducible assumption) (f_sent : F .sent = true := by with_reducible assumption) (f_flash : F .flash = true := by with_reducible assumption) (f_fcu : F .fcu = true := by with_reducible assumption) (f_regs : F .regs = true := by with_reducible assumption) (f_mem : F .mem = true := by with_reducible assumption) (f_banks : F .banks = true := by with_reducible assumption) (f_cores : F .cores = true := by with_reducible assumption) : Good F s (execQueueBeatAccept d c q s) := by
  unfold execQueueBeatAccept
  repeat' first
    | with_reducible assumption
    | with_reducible apply State.queueStep_keeps
    | with_reducible apply State.whenP_keeps
    | with_reducible apply Good.next
    | with_reducible exact Keeps.rfl
    | intro _
    | with_reducible apply Keeps.ite
    | split
    | dsimp only

theorem execTokenCredit_good {F : Part → Bool} {d c : Nat} {s : State} (f_free : F .free = true := by with_reducible assumption) (f_flash : F .flash = true := by with_reducible assumption) (f_fcu : F .fcu = true := by with_reducible assumption) (f_regs : F .regs = true := by with_reducible assumption) (f_mem : F .mem = true := by with_reducible assumption) (f_cores : F .cores = true := by with_reducible assumption) : Good F s (execTokenCredit d c s) := by
  unfold execTokenCredit
  repeat' first
    | with_reducible assumption
    | with_reducible apply State.credit_keeps
    | with_reducible apply State.onCore_keeps
    | with_reducible apply State.settle_keeps
    | with_reducible apply Good.next
    | with_reducible exact Keeps.rfl
    | intro _
    | with_reducible apply Keeps.ite
    | split
    | dsimp only

theorem State.spmFault_keeps {F : Part → Bool} {s₀ : State} {s : State} {d c : Nat} {x : Bool} (h : Keeps F s₀ s) (f_flash : F .flash = true := by with_reducible assumption) (f_fcu : F .fcu = true := by with_reducible assumption) (f_regs : F .regs = true := by with_reducible assumption) (f_mem : F .mem = true := by with_reducible assumption) (f_cores : F .cores = true := by with_reducible assumption) : Keeps F s₀ (State.spmFault s d c x) := by
  unfold State.spmFault
  repeat' first
    | with_reducible assumption
    | with_reducible apply State.countFld_keeps
    | with_reducible apply State.raise_keeps
    | with_reducible apply State.recordStream_keeps
    | with_reducible apply State.streamFault_keeps
    | intro _
    | with_reducible apply Keeps.ite
    | split
    | dsimp only

theorem execStreamFault_good {F : Part → Bool} {d c kind : Nat} {x : Bool} {q _cls : Nat} {s : State} (f_sent : F .sent = true := by with_reducible assumption) (f_flash : F .flash = true := by with_reducible assumption) (f_fcu : F .fcu = true := by with_reducible assumption) (f_regs : F .regs = true := by with_reducible assumption) (f_mem : F .mem = true := by with_reducible assumption) (f_banks : F .banks = true := by with_reducible assumption) (f_cores : F .cores = true := by with_reducible assumption) : Good F s (execStreamFault d c kind x q _cls s) := by
  unfold execStreamFault
  repeat' first
    | with_reducible assumption
    | with_reducible apply State.popStep_keeps
    | with_reducible apply State.spmFault_keeps
    | with_reducible apply Good.next
    | with_reducible exact Keeps.rfl
    | intro _
    | with_reducible apply Keeps.ite
    | split
    | dsimp only

end Sys2Proof.Machine
end

