-- ==== Sys2Proof/Laws/KeepsDma.lean ====
section
/-! SUPPORT. The operations of Machine/Dma.lean undo nothing (Laws/Keeps.lean). -/

set_option Elab.async false
set_option linter.unusedTactic false
set_option linter.unreachableTactic false
set_option linter.unusedVariables false

namespace Sys2Proof.Machine

open Sys2Proof

theorem State.onXfer_keeps {F : Part → Bool} {s₀ : State} {s : State} {d c : Nat} {de1 : Bool} {id : Nat} {f : Xfer → Xfer} (h : Keeps F s₀ s) (f_cores : F .cores = true := by with_reducible assumption) : Keeps F s₀ (State.onXfer s d c de1 id f) := by
  unfold State.onXfer
  repeat' first
    | with_reducible assumption
    | with_reducible apply State.onCore_keeps
    | intro _
    | with_reducible apply Keeps.ite
    | split
    | dsimp only

theorem State.xferEnds_keeps {F : Part → Bool} {s₀ : State} {s : State} {d c : Nat} {de1 : Bool} {id status reason : Nat} (h : Keeps F s₀ s) (f_cores : F .cores = true := by with_reducible assumption) : Keeps F s₀ (State.xferEnds s d c de1 id status reason) := by
  unfold State.xferEnds
  repeat' first
    | with_reducible assumption
    | with_reducible apply State.onXfer_keeps
    | intro _
    | with_reducible apply Keeps.ite
    | split
    | dsimp only

theorem execXfer_good {F : Part → Bool} {d c : Nat} {s : State} (f_flash : F .flash = true := by with_reducible assumption) (f_fcu : F .fcu = true := by with_reducible assumption) (f_regs : F .regs = true := by with_reducible assumption) (f_mem : F .mem = true := by with_reducible assumption) (f_cores : F .cores = true := by with_reducible assumption) : Good F s (execXfer d c s) := by
  unfold execXfer
  repeat' first
    | with_reducible assumption
    | with_reducible apply State.onCore_keeps
    | with_reducible apply State.streamFault_keeps
    | with_reducible apply State.walk_keeps
    | refine State.walk_keeps_of ?_ (by with_reducible assumption)
    | with_reducible apply State.when_keeps
    | with_reducible apply Good.next
    | with_reducible exact Keeps.rfl
    | intro _
    | with_reducible apply Keeps.ite
    | split
    | dsimp only

theorem State.askPeer_keeps {F : Part → Bool} {s₀ s : State} {d c : Nat} {de1 : Bool} {id kind m : Nat} {l : List Nat} (h : Keeps F s₀ s) (f_free : F .free = true := by with_reducible assumption) (f_sent : F .sent = true := by with_reducible assumption) (f_fab : F .fab = true := by with_reducible assumption) : Keeps F s₀ (s.askPeer d c de1 id kind m l) := by
  induction l generalizing s with
  | nil => exact h
  | cons x l ih =>
    rw [State.askPeer]
    repeat' first
      | with_reducible assumption
      | with_reducible apply State.requestRead_keeps
      | with_reducible apply ih
      | intro _
      | with_reducible apply Keeps.ite
      | split
      | dsimp only


theorem State.applyMoves_keeps {F : Part → Bool} {s₀ s : State} {src : State → Move → List Byte} {l : List Move} (h : Keeps F s₀ s) (f_mem : F .mem = true := by with_reducible assumption) : Keeps F s₀ (s.applyMoves src l) := by
  induction l generalizing s with
  | nil => exact h
  | cons m l ih =>
    rw [State.applyMoves]
    repeat' first
      | with_reducible assumption
      | with_reducible apply State.writeBytes_keeps
      | with_reducible apply ih
      | intro _
      | with_reducible apply Keeps.ite
      | split
      | dsimp only


theorem State.writePeer_keeps {F : Part → Bool} {s₀ s : State} {d c : Nat} {de1 : Bool} {id m : Nat} {ws : List (Nat × List Byte)} {l : List Nat} (h : Keeps F s₀ s) (f_free : F .free = true := by with_reducible assumption) (f_sent : F .sent = true := by with_reducible assumption) (f_fab : F .fab = true := by with_reducible assumption) : Keeps F s₀ (s.writePeer d c de1 id m ws l) := by
  induction l generalizing s with
  | nil => exact h
  | cons x l ih =>
    rw [State.writePeer]
    repeat' first
      | with_reducible assumption
      | with_reducible apply State.requestWrite_keeps
      | with_reducible apply ih
      | intro _
      | with_reducible apply Keeps.ite
      | split
      | dsimp only


theorem State.runMoves_keeps {F : Part → Bool} {s₀ : State} {s : State} {d c : Nat} {de1 : Bool} {x : Xfer} {flags count : Nat} (h : Keeps F s₀ s) (f_free : F .free = true := by with_reducible assumption) (f_sent : F .sent = true := by with_reducible assumption) (f_flash : F .flash = true := by with_reducible assumption) (f_fcu : F .fcu = true := by with_reducible assumption) (f_regs : F .regs = true := by with_reducible assumption) (f_mem : F .mem = true := by with_reducible assumption) (f_cores : F .cores = true := by with_reducible assumption) (f_fab : F .fab = true := by with_reducible assumption) : Keeps F s₀ (State.runMoves s d c de1 x flags count) := by
  unfold State.runMoves
  repeat' first
    | with_reducible assumption
    | with_reducible apply State.applyMoves_keeps
    | with_reducible apply State.onXfer_keeps
    | with_reducible apply State.poisonRead_keeps
    | with_reducible apply State.writePeer_keeps
    | intro _
    | with_reducible apply Keeps.ite
    | split
    | dsimp only

theorem State.xferAsk_keeps {F : Part → Bool} {s₀ : State} {s : State} {d c : Nat} {de1 : Bool} {x : Xfer} {srcPs dstPs : List (Nat × Nat)} (h : Keeps F s₀ s) (f_free : F .free = true := by with_reducible assumption) (f_sent : F .sent = true := by with_reducible assumption) (f_ldr : F .ldr = true := by with_reducible assumption) (f_fab : F .fab = true := by with_reducible assumption) : Keeps F s₀ (State.xferAsk s d c de1 x srcPs dstPs) := by
  unfold State.xferAsk
  repeat' first
    | with_reducible assumption
    | with_reducible apply State.askPeer_keeps
    | with_reducible apply State.streamRead_keeps
    | intro _
    | with_reducible apply Keeps.ite
    | split
    | dsimp only

theorem State.gatherFault_keeps {F : Part → Bool} {s₀ : State} {s : State} {d c : Nat} {de1 : Bool} (h : Keeps F s₀ s) (f_flash : F .flash = true := by with_reducible assumption) (f_fcu : F .fcu = true := by with_reducible assumption) (f_regs : F .regs = true := by with_reducible assumption) (f_mem : F .mem = true := by with_reducible assumption) (f_cores : F .cores = true := by with_reducible assumption) : Keeps F s₀ (State.gatherFault s d c de1) := by
  unfold State.gatherFault
  repeat' first
    | with_reducible assumption
    | with_reducible apply State.coreFault_keeps
    | with_reducible apply State.onCore_keeps
    | intro _
    | with_reducible apply Keeps.ite
    | split
    | dsimp only

theorem State.xferMove_keeps {F : Part → Bool} {s₀ : State} {s : State} {d c : Nat} {de1 : Bool} {x : Xfer} {src dst idx : List (Nat × Nat)} (h : Keeps F s₀ s) (f_free : F .free = true := by with_reducible assumption) (f_sent : F .sent = true := by with_reducible assumption) (f_flash : F .flash = true := by with_reducible assumption) (f_fcu : F .fcu = true := by with_reducible assumption) (f_regs : F .regs = true := by with_reducible assumption) (f_mem : F .mem = true := by with_reducible assumption) (f_banks : F .banks = true := by with_reducible assumption) (f_cores : F .cores = true := by with_reducible assumption) (f_fab : F .fab = true := by with_reducible assumption) : Keeps F s₀ (State.xferMove s d c de1 x src dst idx) := by
  unfold State.xferMove
  repeat' first
    | with_reducible assumption
    | with_reducible apply State.dropReqs_keeps
    | with_reducible apply State.enqueue_keeps
    | with_reducible apply State.gatherFault_keeps
    | with_reducible apply State.runMoves_keeps
    | intro _
    | with_reducible apply Keeps.ite
    | split
    | dsimp only

theorem State.xferAcked_keeps {F : Part → Bool} {s₀ : State} {s : State} {d c : Nat} {de1 : Bool} {x : Xfer} (h : Keeps F s₀ s) (f_cores : F .cores = true := by with_reducible assumption) (f_fab : F .fab = true := by with_reducible assumption) : Keeps F s₀ (State.xferAcked s d c de1 x) := by
  unfold State.xferAcked
  repeat' first
    | with_reducible assumption
    | with_reducible apply State.dropReqs_keeps
    | with_reducible apply State.onXfer_keeps
    | with_reducible apply State.xferEnds_keeps
    | intro _
    | with_reducible apply Keeps.ite
    | split
    | dsimp only

theorem State.runXfer_keeps {F : Part → Bool} {s₀ : State} {s : State} {d c : Nat} {de1 : Bool} {n type : Nat} (h : Keeps F s₀ s) (f_free : F .free = true := by with_reducible assumption) (f_sent : F .sent = true := by with_reducible assumption) (f_flash : F .flash = true := by with_reducible assumption) (f_fcu : F .fcu = true := by with_reducible assumption) (f_regs : F .regs = true := by with_reducible assumption) (f_mem : F .mem = true := by with_reducible assumption) (f_banks : F .banks = true := by with_reducible assumption) (f_cores : F .cores = true := by with_reducible assumption) (f_ldr : F .ldr = true := by with_reducible assumption) (f_fab : F .fab = true := by with_reducible assumption) : Keeps F s₀ (State.runXfer s d c de1 n type) := by
  unfold State.runXfer
  repeat' first
    | with_reducible assumption
    | with_reducible apply State.dropReqs_keeps
    | with_reducible apply State.fresh_keeps
    | refine State.fresh_keeps_of ?_ (by with_reducible assumption)
    | with_reducible apply State.walkAsk_keeps
    | with_reducible apply State.xferAcked_keeps
    | with_reducible apply State.xferAsk_keeps
    | with_reducible apply State.xferEnds_keeps
    | with_reducible apply State.xferMove_keeps
    | intro _
    | with_reducible apply Keeps.ite
    | split
    | dsimp only

theorem execDmaCopy_good {F : Part → Bool} {d c : Nat} {de1 : Bool} {n : Nat} {s : State} (f_free : F .free = true := by with_reducible assumption) (f_sent : F .sent = true := by with_reducible assumption) (f_flash : F .flash = true := by with_reducible assumption) (f_fcu : F .fcu = true := by with_reducible assumption) (f_regs : F .regs = true := by with_reducible assumption) (f_mem : F .mem = true := by with_reducible assumption) (f_banks : F .banks = true := by with_reducible assumption) (f_cores : F .cores = true := by with_reducible assumption) (f_ldr : F .ldr = true := by with_reducible assumption) (f_fab : F .fab = true := by with_reducible assumption) : Good F s (execDmaCopy d c de1 n s) := by
  unfold execDmaCopy
  repeat' first
    | with_reducible assumption
    | with_reducible apply State.runXfer_keeps
    | with_reducible apply Good.next
    | with_reducible exact Keeps.rfl
    | intro _
    | with_reducible apply Keeps.ite
    | split
    | dsimp only

theorem execPermute_good {F : Part → Bool} {d c : Nat} {de1 : Bool} {n : Nat} {s : State} (f_free : F .free = true := by with_reducible assumption) (f_sent : F .sent = true := by with_reducible assumption) (f_flash : F .flash = true := by with_reducible assumption) (f_fcu : F .fcu = true := by with_reducible assumption) (f_regs : F .regs = true := by with_reducible assumption) (f_mem : F .mem = true := by with_reducible assumption) (f_banks : F .banks = true := by with_reducible assumption) (f_cores : F .cores = true := by with_reducible assumption) (f_ldr : F .ldr = true := by with_reducible assumption) (f_fab : F .fab = true := by with_reducible assumption) : Good F s (execPermute d c de1 n s) := by
  unfold execPermute
  repeat' first
    | with_reducible assumption
    | with_reducible apply State.runXfer_keeps
    | with_reducible apply Good.next
    | with_reducible exact Keeps.rfl
    | intro _
    | with_reducible apply Keeps.ite
    | split
    | dsimp only

theorem execGather_good {F : Part → Bool} {d c : Nat} {de1 : Bool} {n : Nat} {s : State} (f_free : F .free = true := by with_reducible assumption) (f_sent : F .sent = true := by with_reducible assumption) (f_flash : F .flash = true := by with_reducible assumption) (f_fcu : F .fcu = true := by with_reducible assumption) (f_regs : F .regs = true := by with_reducible assumption) (f_mem : F .mem = true := by with_reducible assumption) (f_banks : F .banks = true := by with_reducible assumption) (f_cores : F .cores = true := by with_reducible assumption) (f_ldr : F .ldr = true := by with_reducible assumption) (f_fab : F .fab = true := by with_reducible assumption) : Good F s (execGather d c de1 n s) := by
  unfold execGather
  repeat' first
    | with_reducible assumption
    | with_reducible apply State.runXfer_keeps
    | with_reducible apply Good.next
    | with_reducible exact Keeps.rfl
    | intro _
    | with_reducible apply Keeps.ite
    | split
    | dsimp only

theorem execDmaFill_good {F : Part → Bool} {d c : Nat} {de1 : Bool} {n : Nat} {s : State} (f_free : F .free = true := by with_reducible assumption) (f_sent : F .sent = true := by with_reducible assumption) (f_mem : F .mem = true := by with_reducible assumption) (f_banks : F .banks = true := by with_reducible assumption) (f_cores : F .cores = true := by with_reducible assumption) (f_fab : F .fab = true := by with_reducible assumption) : Good F s (execDmaFill d c de1 n s) := by
  unfold execDmaFill
  repeat' first
    | with_reducible assumption
    | with_reducible apply State.askPeer_keeps
    | with_reducible apply State.dropReqs_keeps
    | with_reducible apply State.enqueue_keeps
    | with_reducible apply State.fresh_keeps
    | refine State.fresh_keeps_of ?_ (by with_reducible assumption)
    | with_reducible apply State.onXfer_keeps
    | with_reducible apply State.putPieces_keeps
    | with_reducible apply State.walkAsk_keeps
    | with_reducible apply State.writePeer_keeps
    | with_reducible apply State.xferAcked_keeps
    | with_reducible apply State.xferEnds_keeps
    | with_reducible apply Good.next
    | with_reducible exact Keeps.rfl
    | intro _
    | with_reducible apply Keeps.ite
    | split
    | dsimp only

theorem State.bseqEnds_keeps {F : Part → Bool} {s₀ : State} {s : State} {d c : Nat} {de1 : Bool} {x : Xfer} {f : Xfer → Xfer} (h : Keeps F s₀ s) (f_banks : F .banks = true := by with_reducible assumption) (f_baus : F .baus = true := by with_reducible assumption) (f_cores : F .cores = true := by with_reducible assumption) : Keeps F s₀ (State.bseqEnds s d c de1 x f) := by
  unfold State.bseqEnds
  repeat' first
    | with_reducible assumption
    | with_reducible apply State.endChains_keeps
    | with_reducible apply State.onXfer_keeps
    | intro _
    | with_reducible apply Keeps.ite
    | split
    | dsimp only

theorem execBseq_good {F : Part → Bool} {d c : Nat} {de1 : Bool} {n : Nat} {s : State} (f_free : F .free = true := by with_reducible assumption) (f_sent : F .sent = true := by with_reducible assumption) (f_power : F .power = true := by with_reducible assumption) (f_mem : F .mem = true := by with_reducible assumption) (f_stackMap : F .stackMap = true := by with_reducible assumption) (f_banks : F .banks = true := by with_reducible assumption) (f_baus : F .baus = true := by with_reducible assumption) (f_seqs : F .seqs = true := by with_reducible assumption) (f_seqNext : F .seqNext = true := by with_reducible assumption) (f_cores : F .cores = true := by with_reducible assumption) (f_fab : F .fab = true := by with_reducible assumption) : Good F s (execBseq d c de1 n s) := by
  unfold execBseq
  repeat' first
    | with_reducible assumption
    | with_reducible apply State.acceptSeq_keeps
    | with_reducible apply State.bseqEnds_keeps
    | with_reducible apply State.onXfer_keeps
    | with_reducible apply Good.next
    | with_reducible exact Keeps.rfl
    | intro _
    | with_reducible apply Keeps.ite
    | split
    | dsimp only

theorem State.bseqDone_keeps {F : Part → Bool} {s₀ : State} {s : State} {d c u : Nat} {j : SeqJob} (h : Keeps F s₀ s) (f_cores : F .cores = true := by with_reducible assumption) : Keeps F s₀ (State.bseqDone s d c u j) := by
  unfold State.bseqDone
  repeat' first
    | with_reducible assumption
    | with_reducible apply State.onCore_keeps
    | intro _
    | with_reducible apply Keeps.ite
    | split
    | dsimp only

theorem execTransferComplete_good {F : Part → Bool} {d c : Nat} {de1 : Bool} {n : Nat} {s : State} (f_free : F .free = true := by with_reducible assumption) (f_flash : F .flash = true := by with_reducible assumption) (f_fcu : F .fcu = true := by with_reducible assumption) (f_regs : F .regs = true := by with_reducible assumption) (f_mem : F .mem = true := by with_reducible assumption) (f_cores : F .cores = true := by with_reducible assumption) : Good F s (execTransferComplete d c de1 n s) := by
  unfold execTransferComplete
  repeat' first
    | with_reducible assumption
    | with_reducible apply State.countFld_keeps
    | with_reducible apply State.onCore_keeps
    | with_reducible apply State.setReg_keeps
    | with_reducible apply State.settle_keeps
    | with_reducible apply State.signalWord_keeps
    | with_reducible apply State.walk_keeps
    | refine State.walk_keeps_of ?_ (by with_reducible assumption)
    | with_reducible apply State.when_keeps
    | with_reducible apply State.writeBytes_keeps
    | with_reducible apply Good.next
    | with_reducible exact Keeps.rfl
    | intro _
    | with_reducible apply Keeps.ite
    | split
    | dsimp only

end Sys2Proof.Machine
end

