-- ==== Sys2Proof/Laws/KeepsCtlOps.lean ====
section
/-! SUPPORT. The operations of Machine/CtlOps.lean undo nothing (Laws/Keeps.lean). -/

set_option Elab.async false
set_option linter.unusedTactic false
set_option linter.unreachableTactic false
set_option linter.unusedVariables false

namespace Sys2Proof.Machine

open Sys2Proof

theorem State.ccFault_keeps {F : Part → Bool} {s₀ : State} {s : State} {d c kind id detail replay : Nat} (h : Keeps F s₀ s) (f_flash : F .flash = true := by with_reducible assumption) (f_fcu : F .fcu = true := by with_reducible assumption) (f_regs : F .regs = true := by with_reducible assumption) (f_mem : F .mem = true := by with_reducible assumption) (f_cores : F .cores = true := by with_reducible assumption) : Keeps F s₀ (State.ccFault s d c kind id detail replay) := by
  unfold State.ccFault
  repeat' first
    | with_reducible assumption
    | with_reducible apply State.coreFault_keeps
    | with_reducible apply State.onCc_keeps
    | with_reducible apply State.setReg_keeps
    | intro _
    | with_reducible apply Keeps.ite
    | split
    | dsimp only

theorem State.oasisFail_keeps {F : Part → Bool} {s₀ : State} {s : State} {d c : Nat} {x : Call} {status : Nat} (h : Keeps F s₀ s) (f_flash : F .flash = true := by with_reducible assumption) (f_fcu : F .fcu = true := by with_reducible assumption) (f_regs : F .regs = true := by with_reducible assumption) (f_mem : F .mem = true := by with_reducible assumption) (f_cores : F .cores = true := by with_reducible assumption) : Keeps F s₀ (State.oasisFail s d c x status) := by
  unfold State.oasisFail
  repeat' first
    | with_reducible assumption
    | with_reducible apply State.ccFault_keeps
    | intro _
    | with_reducible apply Keeps.ite
    | split
    | dsimp only

theorem State.routineEnds_keeps {F : Part → Bool} {s₀ : State} {s : State} {d c status : Nat} (h : Keeps F s₀ s) (f_flash : F .flash = true := by with_reducible assumption) (f_fcu : F .fcu = true := by with_reducible assumption) (f_regs : F .regs = true := by with_reducible assumption) (f_mem : F .mem = true := by with_reducible assumption) (f_cores : F .cores = true := by with_reducible assumption) : Keeps F s₀ (State.routineEnds s d c status) := by
  unfold State.routineEnds
  repeat' first
    | with_reducible assumption
    | with_reducible apply State.oasisFail_keeps
    | with_reducible apply State.onCc_keeps
    | with_reducible apply State.onCore_keeps
    | intro _
    | with_reducible apply Keeps.ite
    | split
    | dsimp only

theorem State.illegalX_keeps {F : Part → Bool} {s₀ : State} {s : State} {d c : Nat} (h : Keeps F s₀ s) (f_free : F .free = true := by with_reducible assumption) (f_flash : F .flash = true := by with_reducible assumption) (f_fcu : F .fcu = true := by with_reducible assumption) (f_regs : F .regs = true := by with_reducible assumption) (f_mem : F .mem = true := by with_reducible assumption) (f_cores : F .cores = true := by with_reducible assumption) : Keeps F s₀ (State.illegalX s d c) := by
  unfold State.illegalX
  repeat' first
    | with_reducible assumption
    | with_reducible apply State.ccFault_keeps
    | with_reducible apply State.fresh_keeps
    | refine State.fresh_keeps_of ?_ (by with_reducible assumption)
    | with_reducible apply State.oasisFail_keeps
    | intro _
    | with_reducible apply Keeps.ite
    | split
    | dsimp only

theorem State.routinePushes_keeps {F : Part → Bool} {s₀ : State} {s : State} {d c : Nat} {out : List (List Byte)} (h : Keeps F s₀ s) (f_flash : F .flash = true := by with_reducible assumption) (f_fcu : F .fcu = true := by with_reducible assumption) (f_regs : F .regs = true := by with_reducible assumption) (f_mem : F .mem = true := by with_reducible assumption) (f_cores : F .cores = true := by with_reducible assumption) : Keeps F s₀ (State.routinePushes s d c out) := by
  unfold State.routinePushes
  repeat' first
    | with_reducible assumption
    | with_reducible apply State.onCore_keeps
    | with_reducible apply State.routineEnds_keeps
    | intro _
    | with_reducible apply Keeps.ite
    | split
    | dsimp only

end Sys2Proof.Machine
end

