-- ==== Sys2Proof/Laws/KeepsKvOps.lean ====
section
/-! SUPPORT. The operations of Machine/KvOps.lean undo nothing (Laws/Keeps.lean). -/

set_option Elab.async false
set_option linter.unusedTactic false
set_option linter.unreachableTactic false
set_option linter.unusedVariables false

namespace Sys2Proof.Machine

open Sys2Proof

theorem State.onKv_keeps {F : Part → Bool} {s₀ : State} {s : State} {f : Kv → Kv} (h : Keeps F s₀ s) (f_kv : F .kv = true := by with_reducible assumption) : Keeps F s₀ (State.onKv s f) := by
  unfold State.onKv
  repeat' first
    | with_reducible assumption
    | intro _
    | with_reducible apply Keeps.ite
    | split
    | with_reducible apply Keeps.kv_set
    | dsimp only

theorem State.withMem_keeps {F : Part → Bool} {s₀ : State} {s : State} {ag : Agent} {ps : List (Nat × Nat × Bool)} {f : State → State} (h : Keeps F s₀ s) (kf : ∀ t, Keeps F s₀ t → Keeps F s₀ (f t)) (f_sent : F .sent = true := by with_reducible assumption) (f_mem : F .mem = true := by with_reducible assumption) : Keeps F s₀ (State.withMem s ag ps f) := by
  unfold State.withMem
  repeat' first
    | with_reducible assumption
    | with_reducible apply Keeps.foldl
    | with_reducible apply State.ask_keeps
    | with_reducible apply State.useObtained_keeps
    | with_reducible apply kf
    | intro _
    | with_reducible apply Keeps.ite
    | split
    | dsimp only

theorem State.setFd_keeps {F : Part → Bool} {s₀ : State} {s : State} {f off n v : Nat} (h : Keeps F s₀ s) (f_mem : F .mem = true := by with_reducible assumption) : Keeps F s₀ (State.setFd s f off n v) := by
  unfold State.setFd
  repeat' first
    | with_reducible assumption
    | with_reducible apply State.writeBytes_keeps
    | intro _
    | with_reducible apply Keeps.ite
    | split
    | dsimp only

theorem State.ownFrame_keeps {F : Part → Bool} {s₀ : State} {s : State} {f state : Nat} {pg : PageId} (h : Keeps F s₀ s) (f_mem : F .mem = true := by with_reducible assumption) (f_kv : F .kv = true := by with_reducible assumption) : Keeps F s₀ (State.ownFrame s f state pg) := by
  unfold State.ownFrame
  repeat' first
    | with_reducible assumption
    | with_reducible apply State.onKv_keeps
    | with_reducible apply State.setFd_keeps
    | intro _
    | with_reducible apply Keeps.ite
    | split
    | dsimp only

theorem State.reclaim_keeps {F : Part → Bool} {s₀ : State} {s : State} {f : Nat} (h : Keeps F s₀ s) (f_mem : F .mem = true := by with_reducible assumption) (f_kv : F .kv = true := by with_reducible assumption) : Keeps F s₀ (State.reclaim s f) := by
  unfold State.reclaim
  repeat' first
    | with_reducible assumption
    | with_reducible apply State.onKv_keeps
    | with_reducible apply State.setFd_keeps
    | intro _
    | with_reducible apply Keeps.ite
    | split
    | dsimp only

theorem State.setRow_keeps {F : Part → Bool} {s₀ : State} {s : State} {r : SeqRow} {off n v : Nat} (h : Keeps F s₀ s) (f_mem : F .mem = true := by with_reducible assumption) : Keeps F s₀ (State.setRow s r off n v) := by
  unfold State.setRow
  repeat' first
    | with_reducible assumption
    | with_reducible apply State.writeBytes_keeps
    | intro _
    | with_reducible apply Keeps.ite
    | split
    | dsimp only

theorem State.setEntry_keeps {F : Part → Bool} {s₀ : State} {s : State} {pg : PageId} {word slot crc : Nat} (h : Keeps F s₀ s) (f_mem : F .mem = true := by with_reducible assumption) : Keeps F s₀ (State.setEntry s pg word slot crc) := by
  unfold State.setEntry
  repeat' first
    | with_reducible assumption
    | with_reducible apply State.writeBytes_keeps
    | intro _
    | with_reducible apply Keeps.ite
    | split
    | dsimp only

theorem State.labInvalidate_keeps {F : Part → Bool} {s₀ : State} {s : State} {pg : PageId} (h : Keeps F s₀ s) (f_regs : F .regs = true := by with_reducible assumption) (f_kv : F .kv = true := by with_reducible assumption) : Keeps F s₀ (State.labInvalidate s pg) := by
  unfold State.labInvalidate
  repeat' first
    | with_reducible assumption
    | with_reducible apply Keeps.foldl
    | with_reducible apply State.countFld_keeps
    | with_reducible apply State.onKv_keeps
    | intro _
    | with_reducible apply Keeps.ite
    | split
    | dsimp only

theorem State.walk_keeps {F : Part → Bool} {s₀ s : State} {d k : Nat} {pg : PageId} (h : Keeps F s₀ s) (f_regs : F .regs = true := by with_reducible assumption) (f_kv : F .kv = true := by with_reducible assumption) : Keeps F s₀ (s.walk d k pg).2 := by
  unfold State.walk
  repeat' first
    | with_reducible assumption
    | with_reducible apply State.countFld_keeps
    | with_reducible apply State.onKv_keeps
    | intro _
    | with_reducible apply Keeps.ite
    | split
    | dsimp only


theorem State.walk_keeps_of {F : Part → Bool} {s₀ s t : State} {d k : Nat} {pg : PageId} {x : Nat} (h : Keeps F s₀ s) (e : s.walk d k pg = (x, t)) (f_regs : F .regs = true := by with_reducible assumption) (f_kv : F .kv = true := by with_reducible assumption) : Keeps F s₀ t := by
  have : Keeps F s₀ (s.walk d k pg).2 := State.walk_keeps h
  rw [e] at this
  exact this

theorem State.pin_keeps {F : Part → Bool} {s₀ s t : State} {f : Nat} (h : Keeps F s₀ s) (e : s.pin f = some t) (f_mem : F .mem = true := by with_reducible assumption) : Keeps F s₀ t := by
  unfold State.pin at e
  repeat' split at e
  all_goals first | rw [← Option.some.inj e] | exact (nomatch e)
  repeat' first
    | with_reducible assumption
    | with_reducible apply State.setFd_keeps
    | intro _
    | with_reducible apply Keeps.ite
    | split
    | dsimp only


theorem State.unpin_keeps {F : Part → Bool} {s₀ : State} {s : State} {f : Nat} (h : Keeps F s₀ s) (f_mem : F .mem = true := by with_reducible assumption) (f_kv : F .kv = true := by with_reducible assumption) : Keeps F s₀ (State.unpin s f) := by
  unfold State.unpin
  repeat' first
    | with_reducible assumption
    | with_reducible apply State.reclaim_keeps
    | with_reducible apply State.setFd_keeps
    | intro _
    | with_reducible apply Keeps.ite
    | split
    | dsimp only

theorem State.addRef_keeps {F : Part → Bool} {s₀ : State} {s : State} {f : Nat} (h : Keeps F s₀ s) (f_mem : F .mem = true := by with_reducible assumption) : Keeps F s₀ (State.addRef s f) := by
  unfold State.addRef
  repeat' first
    | with_reducible assumption
    | with_reducible apply State.setFd_keeps
    | intro _
    | with_reducible apply Keeps.ite
    | split
    | dsimp only

theorem State.dropRef_keeps {F : Part → Bool} {s₀ : State} {s : State} {f : Nat} (h : Keeps F s₀ s) (f_mem : F .mem = true := by with_reducible assumption) (f_kv : F .kv = true := by with_reducible assumption) : Keeps F s₀ (State.dropRef s f) := by
  unfold State.dropRef
  repeat' first
    | with_reducible assumption
    | with_reducible apply State.reclaim_keeps
    | with_reducible apply State.setFd_keeps
    | intro _
    | with_reducible apply Keeps.ite
    | split
    | dsimp only

theorem State.farWrite_keeps {F : Part → Bool} {s₀ : State} {s : State} {d id at_ : Nat} {data : List Byte} (h : Keeps F s₀ s) (f_free : F .free = true := by with_reducible assumption) (f_sent : F .sent = true := by with_reducible assumption) (f_fab : F .fab = true := by with_reducible assumption) : Keeps F s₀ (State.farWrite s d id at_ data) := by
  unfold State.farWrite
  repeat' first
    | with_reducible assumption
    | with_reducible apply Keeps.foldl
    | with_reducible apply State.requestWrite_keeps
    | with_reducible apply State.send_keeps
    | intro _
    | with_reducible apply Keeps.ite
    | split
    | dsimp only

theorem State.farRead_keeps {F : Part → Bool} {s₀ : State} {s : State} {d id at_ n : Nat} (h : Keeps F s₀ s) (f_free : F .free = true := by with_reducible assumption) (f_sent : F .sent = true := by with_reducible assumption) (f_fab : F .fab = true := by with_reducible assumption) : Keeps F s₀ (State.farRead s d id at_ n) := by
  unfold State.farRead
  repeat' first
    | with_reducible assumption
    | with_reducible apply Keeps.foldl
    | with_reducible apply State.requestRead_keeps
    | with_reducible apply State.send_keeps
    | intro _
    | with_reducible apply Keeps.ite
    | split
    | dsimp only

theorem State.starve_keeps {F : Part → Bool} {s₀ : State} {s : State} {m : KvModel} {plane : Nat} (h : Keeps F s₀ s) (f_kv : F .kv = true := by with_reducible assumption) : Keeps F s₀ (State.starve s m plane) := by
  unfold State.starve
  repeat' first
    | with_reducible assumption
    | with_reducible apply Keeps.foldl
    | with_reducible apply State.onKv_keeps
    | intro _
    | with_reducible apply Keeps.ite
    | split
    | dsimp only

theorem State.takeFrame_keeps {F : Part → Bool} {s₀ s t : State} {m : KvModel} {start n state f : Nat} {pg : PageId} (h : Keeps F s₀ s) (e : s.takeFrame m start n state pg = some (f, t)) (f_mem : F .mem = true := by with_reducible assumption) (f_kv : F .kv = true := by with_reducible assumption) : Keeps F s₀ t := by
  unfold State.takeFrame at e
  simp only [Option.map_eq_some_iff, Prod.mk.injEq] at e
  obtain ⟨_, _, _, rfl⟩ := e
  repeat' first
    | with_reducible assumption
    | with_reducible apply State.ownFrame_keeps
    | intro _
    | with_reducible apply Keeps.ite
    | split
    | dsimp only


theorem State.copySlot_keeps {F : Part → Bool} {s₀ : State} {s : State} {src dst n : Nat} (h : Keeps F s₀ s) (f_mem : F .mem = true := by with_reducible assumption) : Keeps F s₀ (State.copySlot s src dst n) := by
  unfold State.copySlot
  repeat' first
    | with_reducible assumption
    | with_reducible apply Keeps.foldl
    | with_reducible apply State.writePiece_keeps
    | intro _
    | with_reducible apply Keeps.ite
    | split
    | dsimp only

theorem State.copyOnWrite_keeps {F : Part → Bool} {s₀ s t : State} {m : KvModel} {start n : Nat} {pg : PageId} (h : Keeps F s₀ s) (e : s.copyOnWrite m start n pg = some t) (f_regs : F .regs = true := by with_reducible assumption) (f_mem : F .mem = true := by with_reducible assumption) (f_kv : F .kv = true := by with_reducible assumption) : Keeps F s₀ t := by
  unfold State.copyOnWrite at e
  simp only [Option.map_eq_some_iff] at e
  obtain ⟨_, _, rfl⟩ := e
  repeat' first
    | with_reducible assumption
    | with_reducible apply State.copySlot_keeps
    | with_reducible apply State.dropRef_keeps
    | with_reducible apply State.labInvalidate_keeps
    | with_reducible apply State.ownFrame_keeps
    | with_reducible apply State.setEntry_keeps
    | intro _
    | with_reducible apply Keeps.ite
    | split
    | dsimp only


theorem State.addJob_keeps {F : Part → Bool} {s₀ : State} {s : State} {d : Nat} {spill : Bool} {pg : PageId} {n frame slot crc : Nat} (h : Keeps F s₀ s) (f_kv : F .kv = true := by with_reducible assumption) : Keeps F s₀ (State.addJob s d spill pg n frame slot crc) := by
  unfold State.addJob
  repeat' first
    | with_reducible assumption
    | with_reducible apply State.onKv_keeps
    | intro _
    | with_reducible apply Keeps.ite
    | split
    | dsimp only

theorem State.endJob_keeps {F : Part → Bool} {s₀ : State} {s : State} {j : FarJob} (h : Keeps F s₀ s) (f_kv : F .kv = true := by with_reducible assumption) (f_fab : F .fab = true := by with_reducible assumption) : Keeps F s₀ (State.endJob s j) := by
  unfold State.endJob
  repeat' first
    | with_reducible assumption
    | with_reducible apply State.dropReqs_keeps
    | with_reducible apply State.onKv_keeps
    | intro _
    | with_reducible apply Keeps.ite
    | split
    | dsimp only

theorem State.freeSlot_keeps {F : Part → Bool} {s₀ : State} {s : State} {slot : Nat} (h : Keeps F s₀ s) (f_kv : F .kv = true := by with_reducible assumption) : Keeps F s₀ (State.freeSlot s slot) := by
  unfold State.freeSlot
  repeat' first
    | with_reducible assumption
    | with_reducible apply State.onKv_keeps
    | intro _
    | with_reducible apply Keeps.ite
    | split
    | dsimp only

theorem State.fetch_keeps {F : Part → Bool} {s₀ s t : State} {pg : PageId} (h : Keeps F s₀ s) (e : s.fetch pg = some t) (f_free : F .free = true := by with_reducible assumption) (f_sent : F .sent = true := by with_reducible assumption) (f_mem : F .mem = true := by with_reducible assumption) (f_kv : F .kv = true := by with_reducible assumption) (f_fab : F .fab = true := by with_reducible assumption) : Keeps F s₀ t := by
  unfold State.fetch at e
  split at e
  · cases e
  · simp only [Option.map_eq_some_iff] at e
    obtain ⟨⟨f, u⟩, eu, rfl⟩ := e
    have hu : Keeps F s₀ u := State.takeFrame_keeps h eu
    repeat' first
      | with_reducible assumption
      | with_reducible apply State.addJob_keeps
      | with_reducible apply State.farRead_keeps
      | with_reducible apply State.onKv_keeps
      | with_reducible apply State.setEntry_keeps
      | refine State.takeFrame_keeps ?_ (by with_reducible assumption)
      | intro _
      | with_reducible apply Keeps.ite
      | split
      | dsimp only


theorem State.fetch_getD_keeps {F : Part → Bool} {s₀ s : State} {pg : PageId} (h : Keeps F s₀ s) (f_free : F .free = true := by with_reducible assumption) (f_sent : F .sent = true := by with_reducible assumption) (f_mem : F .mem = true := by with_reducible assumption) (f_kv : F .kv = true := by with_reducible assumption) (f_fab : F .fab = true := by with_reducible assumption) : Keeps F s₀ ((s.fetch pg).getD s) := by
  cases e : s.fetch pg with
  | none => exact h
  | some t => exact State.fetch_keeps h e

theorem State.askPage_keeps {F : Part → Bool} {s₀ s t : State} {pg : PageId} (h : Keeps F s₀ s) (e : s.askPage pg = some t) (f_free : F .free = true := by with_reducible assumption) (f_sent : F .sent = true := by with_reducible assumption) (f_mem : F .mem = true := by with_reducible assumption) (f_kv : F .kv = true := by with_reducible assumption) (f_fab : F .fab = true := by with_reducible assumption) : Keeps F s₀ t := by
  unfold State.askPage at e
  split at e
  · cases e; exact h
  · split at e
    · cases e; exact State.fetch_keeps h (by with_reducible assumption)
    · split at e
      · cases e
        exact State.onKv_keeps (State.starve_keeps h)
      · cases e
    · cases e

theorem State.askPage_getD_keeps {F : Part → Bool} {s₀ s : State} {pg : PageId} (h : Keeps F s₀ s) (f_free : F .free = true := by with_reducible assumption) (f_sent : F .sent = true := by with_reducible assumption) (f_mem : F .mem = true := by with_reducible assumption) (f_kv : F .kv = true := by with_reducible assumption) (f_fab : F .fab = true := by with_reducible assumption) : Keeps F s₀ ((s.askPage pg).getD s) := by
  cases e : s.askPage pg with
  | none => exact h
  | some t => exact State.askPage_keeps h e

theorem askNext_keeps {F : Part → Bool} {s₀ : State} {a : State × Bool} {pg : PageId} (h : Keeps F s₀ a.1) (f_free : F .free = true := by with_reducible assumption) (f_sent : F .sent = true := by with_reducible assumption) (f_mem : F .mem = true := by with_reducible assumption) (f_kv : F .kv = true := by with_reducible assumption) (f_fab : F .fab = true := by with_reducible assumption) : Keeps F s₀ (askNext a pg).1 := by
  unfold askNext
  split
  · exact State.askPage_keeps h (by with_reducible assumption)
  · exact h

theorem State.askPages_keeps {F : Part → Bool} {s₀ s : State} {pages : List PageId} (h : Keeps F s₀ s) (f_free : F .free = true := by with_reducible assumption) (f_sent : F .sent = true := by with_reducible assumption) (f_mem : F .mem = true := by with_reducible assumption) (f_kv : F .kv = true := by with_reducible assumption) (f_fab : F .fab = true := by with_reducible assumption) : Keeps F s₀ (s.askPages pages).1 := by
  have go : ∀ (l : List PageId) (a : State × Bool), Keeps F s₀ a.1 → Keeps F s₀ (l.foldl askNext a).1 := by
    intro l
    induction l with
    | nil => exact fun _ h => h
    | cons pg l ih =>
      intro a h
      rw [List.foldl_cons]
      exact ih (askNext a pg) (askNext_keeps (a := a) (pg := pg) h)
  exact go pages (s, true) h

theorem State.dropEntry_keeps {F : Part → Bool} {s₀ : State} {s : State} {pg : PageId} (h : Keeps F s₀ s) (f_regs : F .regs = true := by with_reducible assumption) (f_mem : F .mem = true := by with_reducible assumption) (f_kv : F .kv = true := by with_reducible assumption) : Keeps F s₀ (State.dropEntry s pg) := by
  unfold State.dropEntry
  repeat' first
    | with_reducible assumption
    | with_reducible apply State.dropRef_keeps
    | with_reducible apply State.freeSlot_keeps
    | with_reducible apply State.labInvalidate_keeps
    | with_reducible apply State.onKv_keeps
    | with_reducible apply State.setEntry_keeps
    | intro _
    | with_reducible apply Keeps.ite
    | split
    | dsimp only

theorem State.endClosing_keeps {F : Part → Bool} {s₀ : State} {s : State} {seq : Nat} (h : Keeps F s₀ s) (f_mem : F .mem = true := by with_reducible assumption) (f_kv : F .kv = true := by with_reducible assumption) : Keeps F s₀ (State.endClosing s seq) := by
  unfold State.endClosing
  repeat' first
    | with_reducible assumption
    | with_reducible apply State.onKv_keeps
    | with_reducible apply State.setRow_keeps
    | intro _
    | with_reducible apply Keeps.ite
    | split
    | dsimp only

theorem State.freeSeq_keeps {F : Part → Bool} {s₀ : State} {s : State} {seq : Nat} (h : Keeps F s₀ s) (f_regs : F .regs = true := by with_reducible assumption) (f_mem : F .mem = true := by with_reducible assumption) (f_kv : F .kv = true := by with_reducible assumption) : Keeps F s₀ (State.freeSeq s seq) := by
  unfold State.freeSeq
  repeat' first
    | with_reducible assumption
    | with_reducible apply Keeps.foldl
    | with_reducible apply State.dropEntry_keeps
    | with_reducible apply State.endClosing_keeps
    | with_reducible apply State.reclaim_keeps
    | with_reducible apply State.setRow_keeps
    | intro _
    | with_reducible apply Keeps.ite
    | split
    | dsimp only

theorem State.afterJob_keeps {F : Part → Bool} {s₀ : State} {s : State} {pg : PageId} (h : Keeps F s₀ s) (f_regs : F .regs = true := by with_reducible assumption) (f_mem : F .mem = true := by with_reducible assumption) (f_kv : F .kv = true := by with_reducible assumption) : Keeps F s₀ (State.afterJob s pg) := by
  unfold State.afterJob
  repeat' first
    | with_reducible assumption
    | with_reducible apply State.dropEntry_keeps
    | with_reducible apply State.endClosing_keeps
    | intro _
    | with_reducible apply Keeps.ite
    | split
    | dsimp only

theorem State.abandonJob_keeps {F : Part → Bool} {s₀ : State} {s : State} {j : FarJob} (h : Keeps F s₀ s) (f_regs : F .regs = true := by with_reducible assumption) (f_mem : F .mem = true := by with_reducible assumption) (f_kv : F .kv = true := by with_reducible assumption) (f_fab : F .fab = true := by with_reducible assumption) : Keeps F s₀ (State.abandonJob s j) := by
  unfold State.abandonJob
  repeat' first
    | with_reducible assumption
    | with_reducible apply State.afterJob_keeps
    | with_reducible apply State.endJob_keeps
    | with_reducible apply State.freeSlot_keeps
    | with_reducible apply State.reclaim_keeps
    | with_reducible apply State.setEntry_keeps
    | with_reducible apply State.setFd_keeps
    | intro _
    | with_reducible apply Keeps.ite
    | split
    | dsimp only

theorem State.farUnreachable_keeps {F : Part → Bool} {s₀ : State} {s : State} (h : Keeps F s₀ s) (f_regs : F .regs = true := by with_reducible assumption) (f_mem : F .mem = true := by with_reducible assumption) (f_kv : F .kv = true := by with_reducible assumption) (f_fab : F .fab = true := by with_reducible assumption) : Keeps F s₀ (State.farUnreachable s) := by
  unfold State.farUnreachable
  repeat' first
    | with_reducible assumption
    | with_reducible apply Keeps.foldl
    | with_reducible apply State.abandonJob_keeps
    | with_reducible apply State.onKv_keeps
    | intro _
    | with_reducible apply Keeps.ite
    | split
    | dsimp only

theorem State.replyIf_keeps {F : Part → Bool} {s₀ : State} {s : State} {sender target pointer tag : Nat} (h : Keeps F s₀ s) (f_free : F .free = true := by with_reducible assumption) (f_sent : F .sent = true := by with_reducible assumption) (f_power : F .power = true := by with_reducible assumption) (f_regs : F .regs = true := by with_reducible assumption) (f_mem : F .mem = true := by with_reducible assumption) (f_ports : F .ports = true := by with_reducible assumption) (f_notices : F .notices = true := by with_reducible assumption) (f_kept : F .kept = true := by with_reducible assumption) (f_fab : F .fab = true := by with_reducible assumption) : Keeps F s₀ (State.replyIf s sender target pointer tag) := by
  unfold State.replyIf
  repeat' first
    | with_reducible assumption
    | with_reducible apply State.replyTo_keeps
    | intro _
    | with_reducible apply Keeps.ite
    | split
    | dsimp only

end Sys2Proof.Machine
end

