-- ==== Sys2Proof/Laws/KeepsKvService.lean ====
section
/-! SUPPORT. The operations of Machine/KvService.lean undo nothing (Laws/Keeps.lean). -/

set_option Elab.async false
set_option linter.unusedTactic false
set_option linter.unreachableTactic false
set_option linter.unusedVariables false

namespace Sys2Proof.Machine

open Sys2Proof

theorem State.kvUnwait_keeps {F : Part → Bool} {s₀ : State} {s : State} {d c : Nat} (h : Keeps F s₀ s) (f_mem : F .mem = true := by with_reducible assumption) (f_kv : F .kv = true := by with_reducible assumption) : Keeps F s₀ (State.kvUnwait s d c) := by
  unfold State.kvUnwait
  repeat' first
    | with_reducible assumption
    | with_reducible apply Keeps.foldl
    | with_reducible apply State.onKv_keeps
    | with_reducible apply State.unpin_keeps
    | intro _
    | with_reducible apply Keeps.ite
    | split
    | dsimp only

theorem State.kvDone_keeps {F : Part → Bool} {s₀ : State} {s : State} {q : KvReq} {status reason : Nat} (h : Keeps F s₀ s) (f_free : F .free = true := by with_reducible assumption) (f_sent : F .sent = true := by with_reducible assumption) (f_power : F .power = true := by with_reducible assumption) (f_flash : F .flash = true := by with_reducible assumption) (f_fcu : F .fcu = true := by with_reducible assumption) (f_regs : F .regs = true := by with_reducible assumption) (f_mem : F .mem = true := by with_reducible assumption) (f_ports : F .ports = true := by with_reducible assumption) (f_cores : F .cores = true := by with_reducible assumption) (f_notices : F .notices = true := by with_reducible assumption) (f_kept : F .kept = true := by with_reducible assumption) (f_kv : F .kv = true := by with_reducible assumption) (f_fab : F .fab = true := by with_reducible assumption) : Keeps F s₀ (State.kvDone s q status reason) := by
  unfold State.kvDone
  repeat' first
    | with_reducible assumption
    | with_reducible apply State.kvUnwait_keeps
    | with_reducible apply State.replyIf_keeps
    | with_reducible apply State.routineEnds_keeps
    | with_reducible apply State.writeBytes_keeps
    | intro _
    | with_reducible apply Keeps.ite
    | split
    | dsimp only

theorem State.kvServe_keeps {F : Part → Bool} {s₀ : State} {s : State} {d c op : Nat} {state : Option Nat} {f : KvReq → KvModel → SeqRow → State → State} (h : Keeps F s₀ s) (kf : ∀ x0 x1 x2 t, Keeps F s₀ t → Keeps F s₀ (f x0 x1 x2 t)) (f_free : F .free = true := by with_reducible assumption) (f_sent : F .sent = true := by with_reducible assumption) (f_power : F .power = true := by with_reducible assumption) (f_flash : F .flash = true := by with_reducible assumption) (f_fcu : F .fcu = true := by with_reducible assumption) (f_regs : F .regs = true := by with_reducible assumption) (f_mem : F .mem = true := by with_reducible assumption) (f_ports : F .ports = true := by with_reducible assumption) (f_cores : F .cores = true := by with_reducible assumption) (f_notices : F .notices = true := by with_reducible assumption) (f_kept : F .kept = true := by with_reducible assumption) (f_kv : F .kv = true := by with_reducible assumption) (f_fab : F .fab = true := by with_reducible assumption) : Keeps F s₀ (State.kvServe s d c op state f) := by
  unfold State.kvServe
  repeat' first
    | with_reducible assumption
    | with_reducible apply State.kvDone_keeps
    | with_reducible apply BauRun.op_keeps
    | with_reducible apply State.withMem_keeps
    | with_reducible apply kf
    | intro _
    | with_reducible apply Keeps.ite
    | split
    | dsimp only

theorem State.openRow_keeps {F : Part → Bool} {s₀ s t : State} {m : KvModel} {w : SeqRow} {flags pagesMax window home length reserved state : Nat} (h : Keeps F s₀ s) (e : s.openRow m w flags pagesMax window home length reserved state = some t) (f_free : F .free = true := by with_reducible assumption) (f_mem : F .mem = true := by with_reducible assumption) (f_kv : F .kv = true := by with_reducible assumption) : Keeps F s₀ t := by
  unfold State.openRow at e
  simp only [Option.map_eq_some_iff] at e
  obtain ⟨_, _, rfl⟩ := e
  repeat' first
    | with_reducible assumption
    | with_reducible apply State.fresh_keeps
    | refine State.fresh_keeps_of ?_ (by with_reducible assumption)
    | with_reducible apply State.onKv_keeps
    | with_reducible apply State.writeBytes_keeps
    | intro _
    | with_reducible apply Keeps.ite
    | split
    | dsimp only


theorem execKvOpen_good {F : Part → Bool} {d c : Nat} {s : State} (f_free : F .free = true := by with_reducible assumption) (f_sent : F .sent = true := by with_reducible assumption) (f_power : F .power = true := by with_reducible assumption) (f_flash : F .flash = true := by with_reducible assumption) (f_fcu : F .fcu = true := by with_reducible assumption) (f_regs : F .regs = true := by with_reducible assumption) (f_mem : F .mem = true := by with_reducible assumption) (f_ports : F .ports = true := by with_reducible assumption) (f_cores : F .cores = true := by with_reducible assumption) (f_notices : F .notices = true := by with_reducible assumption) (f_kept : F .kept = true := by with_reducible assumption) (f_kv : F .kv = true := by with_reducible assumption) (f_fab : F .fab = true := by with_reducible assumption) : Good F s (execKvOpen d c s) := by
  unfold execKvOpen
  repeat' first
    | with_reducible assumption
    | with_reducible apply State.kvDone_keeps
    | with_reducible apply State.kvServe_keeps
    | refine State.openRow_keeps ?_ (by with_reducible assumption)
    | with_reducible apply Good.next
    | with_reducible exact Keeps.rfl
    | intro _
    | with_reducible apply Keeps.ite
    | split
    | dsimp only

theorem State.reserveAll_keeps {F : Part → Bool} {s₀ s t : State} {m : KvModel} {w : SeqRow} {seq : Nat} {l : List (Nat × Nat)} {x : List Nat} (h : Keeps F s₀ s) (e : s.reserveAll m w seq l = .ok (t, x)) (f_mem : F .mem = true := by with_reducible assumption) (f_kv : F .kv = true := by with_reducible assumption) : Keeps F s₀ t := by
  induction l generalizing s t x with
  | nil => cases e; exact h
  | cons p l ih =>
    rw [State.reserveAll] at e
    split at e
    · cases e
    · split at e
      · next y ey =>
        cases e
        exact ih (State.takeFrame_keeps h (by with_reducible assumption)) ey
      · cases e

theorem execReserve_good {F : Part → Bool} {d c : Nat} {s : State} (f_free : F .free = true := by with_reducible assumption) (f_sent : F .sent = true := by with_reducible assumption) (f_power : F .power = true := by with_reducible assumption) (f_flash : F .flash = true := by with_reducible assumption) (f_fcu : F .fcu = true := by with_reducible assumption) (f_regs : F .regs = true := by with_reducible assumption) (f_mem : F .mem = true := by with_reducible assumption) (f_ports : F .ports = true := by with_reducible assumption) (f_cores : F .cores = true := by with_reducible assumption) (f_notices : F .notices = true := by with_reducible assumption) (f_kept : F .kept = true := by with_reducible assumption) (f_kv : F .kv = true := by with_reducible assumption) (f_fab : F .fab = true := by with_reducible assumption) : Good F s (execReserve d c s) := by
  unfold execReserve
  repeat' first
    | with_reducible assumption
    | with_reducible apply State.kvDone_keeps
    | with_reducible apply State.kvServe_keeps
    | refine State.reserveAll_keeps ?_ (by with_reducible assumption)
    | with_reducible apply State.setRow_keeps
    | with_reducible apply State.starve_keeps
    | with_reducible apply State.withMem_keeps
    | with_reducible apply State.writeBytes_keeps
    | with_reducible apply Good.next
    | with_reducible exact Keeps.rfl
    | intro _
    | with_reducible apply Keeps.ite
    | split
    | dsimp only

theorem execCommit_good {F : Part → Bool} {d c : Nat} {s : State} (f_free : F .free = true := by with_reducible assumption) (f_sent : F .sent = true := by with_reducible assumption) (f_power : F .power = true := by with_reducible assumption) (f_flash : F .flash = true := by with_reducible assumption) (f_fcu : F .fcu = true := by with_reducible assumption) (f_regs : F .regs = true := by with_reducible assumption) (f_mem : F .mem = true := by with_reducible assumption) (f_ports : F .ports = true := by with_reducible assumption) (f_cores : F .cores = true := by with_reducible assumption) (f_notices : F .notices = true := by with_reducible assumption) (f_kept : F .kept = true := by with_reducible assumption) (f_kv : F .kv = true := by with_reducible assumption) (f_fab : F .fab = true := by with_reducible assumption) : Good F s (execCommit d c s) := by
  unfold execCommit
  repeat' first
    | with_reducible assumption
    | with_reducible apply Keeps.foldl
    | with_reducible apply State.kvDone_keeps
    | with_reducible apply State.kvServe_keeps
    | with_reducible apply State.reclaim_keeps
    | with_reducible apply State.setEntry_keeps
    | with_reducible apply State.setFd_keeps
    | with_reducible apply State.setRow_keeps
    | with_reducible apply Good.next
    | with_reducible exact Keeps.rfl
    | intro _
    | with_reducible apply Keeps.ite
    | split
    | dsimp only

theorem State.gatherPages_keeps {F : Part → Bool} {s₀ s : State} {q : KvReq} {pages : List PageId} (h : Keeps F s₀ s) (f_free : F .free = true := by with_reducible assumption) (f_sent : F .sent = true := by with_reducible assumption) (f_mem : F .mem = true := by with_reducible assumption) (f_kv : F .kv = true := by with_reducible assumption) (f_fab : F .fab = true := by with_reducible assumption) : Keeps F s₀ (s.gatherPages q pages).1 := by
  unfold State.gatherPages
  repeat' first
    | with_reducible assumption
    | with_reducible apply Keeps.foldl
    | with_reducible apply State.askPages_keeps
    | with_reducible apply State.onKv_keeps
    | refine State.pin_keeps ?_ (by with_reducible assumption)
    | intro _
    | with_reducible apply Keeps.ite
    | split
    | dsimp only


theorem execShare_good {F : Part → Bool} {d c : Nat} {s : State} (f_free : F .free = true := by with_reducible assumption) (f_sent : F .sent = true := by with_reducible assumption) (f_power : F .power = true := by with_reducible assumption) (f_flash : F .flash = true := by with_reducible assumption) (f_fcu : F .fcu = true := by with_reducible assumption) (f_regs : F .regs = true := by with_reducible assumption) (f_mem : F .mem = true := by with_reducible assumption) (f_ports : F .ports = true := by with_reducible assumption) (f_cores : F .cores = true := by with_reducible assumption) (f_notices : F .notices = true := by with_reducible assumption) (f_kept : F .kept = true := by with_reducible assumption) (f_kv : F .kv = true := by with_reducible assumption) (f_fab : F .fab = true := by with_reducible assumption) : Good F s (execShare d c s) := by
  unfold execShare
  repeat' first
    | with_reducible assumption
    | with_reducible apply Keeps.foldl
    | with_reducible apply State.addRef_keeps
    | with_reducible apply State.gatherPages_keeps
    | with_reducible apply State.kvDone_keeps
    | with_reducible apply State.kvServe_keeps
    | refine State.openRow_keeps ?_ (by with_reducible assumption)
    | with_reducible apply State.setEntry_keeps
    | with_reducible apply Good.next
    | with_reducible exact Keeps.rfl
    | intro _
    | with_reducible apply Keeps.ite
    | split
    | dsimp only

theorem execKvFree_good {F : Part → Bool} {d c : Nat} {s : State} (f_free : F .free = true := by with_reducible assumption) (f_sent : F .sent = true := by with_reducible assumption) (f_power : F .power = true := by with_reducible assumption) (f_flash : F .flash = true := by with_reducible assumption) (f_fcu : F .fcu = true := by with_reducible assumption) (f_regs : F .regs = true := by with_reducible assumption) (f_mem : F .mem = true := by with_reducible assumption) (f_ports : F .ports = true := by with_reducible assumption) (f_cores : F .cores = true := by with_reducible assumption) (f_notices : F .notices = true := by with_reducible assumption) (f_kept : F .kept = true := by with_reducible assumption) (f_kv : F .kv = true := by with_reducible assumption) (f_fab : F .fab = true := by with_reducible assumption) : Good F s (execKvFree d c s) := by
  unfold execKvFree
  repeat' first
    | with_reducible assumption
    | with_reducible apply State.freeSeq_keeps
    | with_reducible apply State.kvDone_keeps
    | with_reducible apply State.kvServe_keeps
    | with_reducible apply Good.next
    | with_reducible exact Keeps.rfl
    | intro _
    | with_reducible apply Keeps.ite
    | split
    | dsimp only

theorem execKvPrefetch_good {F : Part → Bool} {d c : Nat} {s : State} (f_free : F .free = true := by with_reducible assumption) (f_sent : F .sent = true := by with_reducible assumption) (f_power : F .power = true := by with_reducible assumption) (f_flash : F .flash = true := by with_reducible assumption) (f_fcu : F .fcu = true := by with_reducible assumption) (f_regs : F .regs = true := by with_reducible assumption) (f_mem : F .mem = true := by with_reducible assumption) (f_ports : F .ports = true := by with_reducible assumption) (f_cores : F .cores = true := by with_reducible assumption) (f_notices : F .notices = true := by with_reducible assumption) (f_kept : F .kept = true := by with_reducible assumption) (f_kv : F .kv = true := by with_reducible assumption) (f_fab : F .fab = true := by with_reducible assumption) : Good F s (execKvPrefetch d c s) := by
  unfold execKvPrefetch
  repeat' first
    | with_reducible assumption
    | with_reducible apply State.askPages_keeps
    | with_reducible apply State.kvDone_keeps
    | with_reducible apply State.kvServe_keeps
    | with_reducible apply Good.next
    | with_reducible exact Keeps.rfl
    | intro _
    | with_reducible apply Keeps.ite
    | split
    | dsimp only

theorem State.kvRoutineEnds_keeps {F : Part → Bool} {s₀ : State} {s : State} {d c : Nat} {x : Call} {status : Nat} (h : Keeps F s₀ s) (f_flash : F .flash = true := by with_reducible assumption) (f_fcu : F .fcu = true := by with_reducible assumption) (f_regs : F .regs = true := by with_reducible assumption) (f_mem : F .mem = true := by with_reducible assumption) (f_cores : F .cores = true := by with_reducible assumption) : Keeps F s₀ (State.kvRoutineEnds s d c x status) := by
  unfold State.kvRoutineEnds
  repeat' first
    | with_reducible assumption
    | with_reducible apply State.routineEnds_keeps
    | with_reducible apply State.routinePushes_keeps
    | intro _
    | with_reducible apply Keeps.ite
    | split
    | dsimp only

theorem State.kvRoutine_keeps {F : Part → Bool} {s₀ : State} {s : State} {d c id : Nat} {f : Call → State → State} (h : Keeps F s₀ s) (kf : ∀ x0 t, Keeps F s₀ t → Keeps F s₀ (f x0 t)) : Keeps F s₀ (State.kvRoutine s d c id f) := by
  unfold State.kvRoutine
  repeat' first
    | with_reducible assumption
    | with_reducible apply kf
    | intro _
    | with_reducible apply Keeps.ite
    | split
    | dsimp only

theorem State.kvRoutineFails_keeps {F : Part → Bool} {s₀ : State} {s : State} {d c : Nat} {x : Call} (h : Keeps F s₀ s) (f_free : F .free = true := by with_reducible assumption) (f_flash : F .flash = true := by with_reducible assumption) (f_fcu : F .fcu = true := by with_reducible assumption) (f_regs : F .regs = true := by with_reducible assumption) (f_mem : F .mem = true := by with_reducible assumption) (f_cores : F .cores = true := by with_reducible assumption) : Keeps F s₀ (State.kvRoutineFails s d c x) := by
  unfold State.kvRoutineFails
  repeat' first
    | with_reducible assumption
    | with_reducible apply State.fresh_keeps
    | refine State.fresh_keeps_of ?_ (by with_reducible assumption)
    | with_reducible apply State.kvRoutineEnds_keeps
    | intro _
    | with_reducible apply Keeps.ite
    | split
    | dsimp only

theorem State.dropDynamic_keeps {F : Part → Bool} {s₀ : State} {s : State} {d c e : Nat} (h : Keeps F s₀ s) (f_mem : F .mem = true := by with_reducible assumption) (f_cores : F .cores = true := by with_reducible assumption) (f_kv : F .kv = true := by with_reducible assumption) : Keeps F s₀ (State.dropDynamic s d c e) := by
  unfold State.dropDynamic
  repeat' first
    | with_reducible assumption
    | with_reducible apply State.onCore_keeps
    | with_reducible apply State.unpin_keeps
    | intro _
    | with_reducible apply Keeps.ite
    | split
    | dsimp only

theorem execKvFrameDesc_good {F : Part → Bool} {d c : Nat} {s : State} (f_free : F .free = true := by with_reducible assumption) (f_sent : F .sent = true := by with_reducible assumption) (f_flash : F .flash = true := by with_reducible assumption) (f_fcu : F .fcu = true := by with_reducible assumption) (f_regs : F .regs = true := by with_reducible assumption) (f_mem : F .mem = true := by with_reducible assumption) (f_cores : F .cores = true := by with_reducible assumption) (f_kv : F .kv = true := by with_reducible assumption) (f_fab : F .fab = true := by with_reducible assumption) : Good F s (execKvFrameDesc d c s) := by
  unfold execKvFrameDesc
  repeat' first
    | with_reducible assumption
    | refine State.askPage_keeps ?_ (by with_reducible assumption)
    | with_reducible apply State.askPage_getD_keeps
    | with_reducible apply State.dropDynamic_keeps
    | with_reducible apply State.kvRoutine_keeps
    | with_reducible apply State.kvRoutineEnds_keeps
    | with_reducible apply State.kvRoutineFails_keeps
    | with_reducible apply State.onCore_keeps
    | refine State.pin_keeps ?_ (by with_reducible assumption)
    | with_reducible apply State.walk_keeps
    | refine State.walk_keeps_of ?_ (by with_reducible assumption)
    | with_reducible apply Good.next
    | with_reducible exact Keeps.rfl
    | intro _
    | with_reducible apply Keeps.ite
    | split
    | dsimp only

theorem execKvReleaseDesc_good {F : Part → Bool} {d c : Nat} {s : State} (f_flash : F .flash = true := by with_reducible assumption) (f_fcu : F .fcu = true := by with_reducible assumption) (f_regs : F .regs = true := by with_reducible assumption) (f_mem : F .mem = true := by with_reducible assumption) (f_cores : F .cores = true := by with_reducible assumption) (f_kv : F .kv = true := by with_reducible assumption) : Good F s (execKvReleaseDesc d c s) := by
  unfold execKvReleaseDesc
  repeat' first
    | with_reducible assumption
    | with_reducible apply State.dropDynamic_keeps
    | with_reducible apply State.kvRoutine_keeps
    | with_reducible apply State.kvRoutineEnds_keeps
    | with_reducible apply Good.next
    | with_reducible exact Keeps.rfl
    | intro _
    | with_reducible apply Keeps.ite
    | split
    | dsimp only

theorem execKvPostStep_good {F : Part → Bool} {d c : Nat} {s : State} (f_free : F .free = true := by with_reducible assumption) (f_sent : F .sent = true := by with_reducible assumption) (f_power : F .power = true := by with_reducible assumption) (f_flash : F .flash = true := by with_reducible assumption) (f_fcu : F .fcu = true := by with_reducible assumption) (f_regs : F .regs = true := by with_reducible assumption) (f_mem : F .mem = true := by with_reducible assumption) (f_ports : F .ports = true := by with_reducible assumption) (f_cores : F .cores = true := by with_reducible assumption) (f_notices : F .notices = true := by with_reducible assumption) : Good F s (execKvPostStep d c s) := by
  unfold execKvPostStep
  repeat' first
    | with_reducible assumption
    | with_reducible apply State.kvRoutine_keeps
    | with_reducible apply State.kvRoutineEnds_keeps
    | with_reducible apply State.kvRoutineFails_keeps
    | with_reducible apply State.post_keeps
    | refine State.post_keeps_of ?_ (by with_reducible assumption)
    | with_reducible apply Good.next
    | with_reducible exact Keeps.rfl
    | intro _
    | with_reducible apply Keeps.ite
    | split
    | dsimp only

theorem execFramePin_good {F : Part → Bool} {pool bank band slot : Nat} {s : State} (f_mem : F .mem = true := by with_reducible assumption) : Good F s (execFramePin pool bank band slot s) := by
  unfold execFramePin
  repeat' first
    | with_reducible assumption
    | with_reducible apply Keeps.getD
    | refine State.pin_keeps ?_ (by with_reducible assumption)
    | with_reducible apply Good.next
    | with_reducible exact Keeps.rfl
    | intro _
    | with_reducible apply Keeps.ite
    | split
    | dsimp only

theorem execFrameUnpin_good {F : Part → Bool} {pool bank band slot : Nat} {s : State} (f_mem : F .mem = true := by with_reducible assumption) (f_kv : F .kv = true := by with_reducible assumption) : Good F s (execFrameUnpin pool bank band slot s) := by
  unfold execFrameUnpin
  repeat' first
    | with_reducible assumption
    | with_reducible apply State.unpin_keeps
    | with_reducible apply Good.next
    | with_reducible exact Keeps.rfl
    | intro _
    | with_reducible apply Keeps.ite
    | split
    | dsimp only

theorem execCopyOnWrite_good {F : Part → Bool} {model seq plane page : Nat} {s : State} (f_regs : F .regs = true := by with_reducible assumption) (f_mem : F .mem = true := by with_reducible assumption) (f_kv : F .kv = true := by with_reducible assumption) : Good F s (execCopyOnWrite model seq plane page s) := by
  unfold execCopyOnWrite
  repeat' first
    | with_reducible assumption
    | with_reducible apply Keeps.getD
    | refine State.copyOnWrite_keeps ?_ (by with_reducible assumption)
    | with_reducible apply Good.next
    | with_reducible exact Keeps.rfl
    | intro _
    | with_reducible apply Keeps.ite
    | split
    | dsimp only

theorem execLabInvalidate_good {F : Part → Bool} {model seq plane page : Nat} {s : State} (f_regs : F .regs = true := by with_reducible assumption) (f_kv : F .kv = true := by with_reducible assumption) : Good F s (execLabInvalidate model seq plane page s) := by
  unfold execLabInvalidate
  repeat' first
    | with_reducible assumption
    | with_reducible apply State.labInvalidate_keeps
    | with_reducible apply Good.next
    | with_reducible exact Keeps.rfl
    | intro _
    | with_reducible apply Keeps.ite
    | split
    | dsimp only

end Sys2Proof.Machine
end

