-- ==== Sys2Proof/Laws/KeepsFarTier.lean ====
section
/-! SUPPORT. The operations of Machine/FarTier.lean undo nothing (Laws/Keeps.lean). -/

set_option Elab.async false
set_option linter.unusedTactic false
set_option linter.unreachableTactic false
set_option linter.unusedVariables false

namespace Sys2Proof.Machine

open Sys2Proof

theorem execSpillStart_good {F : Part → Bool} {d : Nat} {s : State} (f_free : F .free = true := by with_reducible assumption) (f_sent : F .sent = true := by with_reducible assumption) (f_regs : F .regs = true := by with_reducible assumption) (f_mem : F .mem = true := by with_reducible assumption) (f_kv : F .kv = true := by with_reducible assumption) (f_fab : F .fab = true := by with_reducible assumption) : Good F s (execSpillStart d s) := by
  unfold execSpillStart
  repeat' first
    | with_reducible assumption
    | with_reducible apply State.addJob_keeps
    | with_reducible apply State.farWrite_keeps
    | with_reducible apply State.labInvalidate_keeps
    | with_reducible apply State.onKv_keeps
    | with_reducible apply State.setEntry_keeps
    | with_reducible apply State.setFd_keeps
    | with_reducible apply State.when_keeps
    | with_reducible apply State.withMem_keeps
    | with_reducible apply Good.next
    | with_reducible exact Keeps.rfl
    | intro _
    | with_reducible apply Keeps.ite
    | split
    | dsimp only

theorem State.spillSated_keeps {F : Part → Bool} {s₀ : State} {s : State} {d : Nat} (h : Keeps F s₀ s) (f_kv : F .kv = true := by with_reducible assumption) : Keeps F s₀ (State.spillSated s d) := by
  unfold State.spillSated
  repeat' first
    | with_reducible assumption
    | with_reducible apply State.onKv_keeps
    | intro _
    | with_reducible apply Keeps.ite
    | split
    | dsimp only

theorem execSpillComplete_good {F : Part → Bool} {d n : Nat} {s : State} (f_regs : F .regs = true := by with_reducible assumption) (f_mem : F .mem = true := by with_reducible assumption) (f_kv : F .kv = true := by with_reducible assumption) (f_fab : F .fab = true := by with_reducible assumption) : Good F s (execSpillComplete d n s) := by
  unfold execSpillComplete
  repeat' first
    | with_reducible assumption
    | with_reducible apply State.abandonJob_keeps
    | with_reducible apply State.afterJob_keeps
    | with_reducible apply State.countFld_keeps
    | with_reducible apply State.endJob_keeps
    | with_reducible apply State.farUnreachable_keeps
    | with_reducible apply State.reclaim_keeps
    | with_reducible apply State.setEntry_keeps
    | with_reducible apply State.setFd_keeps
    | with_reducible apply State.spillSated_keeps
    | with_reducible apply Good.next
    | with_reducible exact Keeps.rfl
    | intro _
    | with_reducible apply Keeps.ite
    | split
    | dsimp only

theorem execPrefetchStart_good {F : Part → Bool} {model seq plane page : Nat} {s : State} (f_free : F .free = true := by with_reducible assumption) (f_sent : F .sent = true := by with_reducible assumption) (f_mem : F .mem = true := by with_reducible assumption) (f_kv : F .kv = true := by with_reducible assumption) (f_fab : F .fab = true := by with_reducible assumption) : Good F s (execPrefetchStart model seq plane page s) := by
  unfold execPrefetchStart
  repeat' first
    | with_reducible assumption
    | with_reducible apply Keeps.getD
    | refine State.askPage_keeps ?_ (by with_reducible assumption)
    | with_reducible apply State.askPage_getD_keeps
    | with_reducible apply State.whenP_keeps
    | with_reducible apply Good.next
    | with_reducible exact Keeps.rfl
    | intro _
    | with_reducible apply Keeps.ite
    | split
    | dsimp only

theorem execPrefetchComplete_good {F : Part → Bool} {d n : Nat} {data : List Byte} {s : State} (f_sent : F .sent = true := by with_reducible assumption) (f_flash : F .flash = true := by with_reducible assumption) (f_fcu : F .fcu = true := by with_reducible assumption) (f_regs : F .regs = true := by with_reducible assumption) (f_mem : F .mem = true := by with_reducible assumption) (f_kv : F .kv = true := by with_reducible assumption) (f_fab : F .fab = true := by with_reducible assumption) : Good F s (execPrefetchComplete d n data s) := by
  unfold execPrefetchComplete
  repeat' first
    | with_reducible assumption
    | with_reducible apply State.afterJob_keeps
    | with_reducible apply State.countFld_keeps
    | with_reducible apply State.endJob_keeps
    | with_reducible apply State.farUnreachable_keeps
    | with_reducible apply State.freeSlot_keeps
    | with_reducible apply State.raise_keeps
    | with_reducible apply State.reclaim_keeps
    | with_reducible apply State.setEntry_keeps
    | with_reducible apply State.setFd_keeps
    | with_reducible apply State.withMem_keeps
    | with_reducible apply State.writeBytes_keeps
    | with_reducible apply Good.next
    | with_reducible exact Keeps.rfl
    | intro _
    | with_reducible apply Keeps.ite
    | split
    | dsimp only

theorem execFarTierUnreachable_good {F : Part → Bool} {s : State} (f_regs : F .regs = true := by with_reducible assumption) (f_mem : F .mem = true := by with_reducible assumption) (f_kv : F .kv = true := by with_reducible assumption) (f_fab : F .fab = true := by with_reducible assumption) : Good F s (execFarTierUnreachable s) := by
  unfold execFarTierUnreachable
  repeat' first
    | with_reducible assumption
    | with_reducible apply State.farUnreachable_keeps
    | with_reducible apply Good.next
    | with_reducible exact Keeps.rfl
    | intro _
    | with_reducible apply Keeps.ite
    | split
    | dsimp only

theorem execFarTierProbe_good {F : Part → Bool} {ok : Bool} {s : State} (f_free : F .free = true := by with_reducible assumption) (f_sent : F .sent = true := by with_reducible assumption) (f_kv : F .kv = true := by with_reducible assumption) (f_fab : F .fab = true := by with_reducible assumption) : Good F s (execFarTierProbe ok s) := by
  unfold execFarTierProbe
  repeat' first
    | with_reducible assumption
    | with_reducible apply State.dropReqs_keeps
    | with_reducible apply State.onKv_keeps
    | with_reducible apply State.requestRead_keeps
    | with_reducible apply State.send_keeps
    | with_reducible apply State.when_keeps
    | with_reducible apply Good.next
    | with_reducible exact Keeps.rfl
    | intro _
    | with_reducible apply Keeps.ite
    | split
    | dsimp only

end Sys2Proof.Machine
end

