-- ==== Sys2Proof/Laws/KeepsStepOps.lean ====
section
/-! SUPPORT. The operations of Machine/StepOps.lean undo nothing (Laws/Keeps.lean). -/

set_option Elab.async false
set_option linter.unusedTactic false
set_option linter.unreachableTactic false
set_option linter.unusedVariables false

namespace Sys2Proof.Machine

open Sys2Proof

theorem State.onStep_keeps {F : Part → Bool} {s₀ : State} {s : State} {id : Nat} {f : Step → Step} (h : Keeps F s₀ s) (f_kv : F .kv = true := by with_reducible assumption) : Keeps F s₀ (State.onStep s id f) := by
  unfold State.onStep
  repeat' first
    | with_reducible assumption
    | with_reducible apply State.onKv_keeps
    | intro _
    | with_reducible apply Keeps.ite
    | split
    | dsimp only

theorem State.onRow_keeps {F : Part → Bool} {s₀ : State} {s : State} {id i : Nat} {f : StepRow → StepRow} (h : Keeps F s₀ s) (f_kv : F .kv = true := by with_reducible assumption) : Keeps F s₀ (State.onRow s id i f) := by
  unfold State.onRow
  repeat' first
    | with_reducible assumption
    | with_reducible apply State.onStep_keeps
    | intro _
    | with_reducible apply Keeps.ite
    | split
    | dsimp only

theorem State.needPage_keeps {F : Part → Bool} {s₀ s : State} {d k : Nat} {write : Bool} {b : Blocked} {pg : PageId} (h : Keeps F s₀ s) (f_free : F .free = true := by with_reducible assumption) (f_sent : F .sent = true := by with_reducible assumption) (f_regs : F .regs = true := by with_reducible assumption) (f_mem : F .mem = true := by with_reducible assumption) (f_kv : F .kv = true := by with_reducible assumption) (f_fab : F .fab = true := by with_reducible assumption) : Keeps F s₀ (s.needPage d k write b pg).1 := by
  unfold State.needPage
  repeat' first
    | with_reducible assumption
    | refine State.askPage_keeps ?_ (by with_reducible assumption)
    | with_reducible apply State.askPage_getD_keeps
    | with_reducible apply State.walk_keeps
    | refine State.walk_keeps_of ?_ (by with_reducible assumption)
    | intro _
    | with_reducible apply Keeps.ite
    | split
    | dsimp only


theorem State.needPage_keeps_of {F : Part → Bool} {s₀ s t : State} {d k : Nat} {write : Bool} {b : Blocked} {pg : PageId} {x : Blocked} (h : Keeps F s₀ s) (e : s.needPage d k write b pg = (t, x)) (f_free : F .free = true := by with_reducible assumption) (f_sent : F .sent = true := by with_reducible assumption) (f_regs : F .regs = true := by with_reducible assumption) (f_mem : F .mem = true := by with_reducible assumption) (f_kv : F .kv = true := by with_reducible assumption) (f_fab : F .fab = true := by with_reducible assumption) : Keeps F s₀ t := by
  have : Keeps F s₀ (s.needPage d k write b pg).1 := State.needPage_keeps h
  rw [e] at this
  exact this

theorem State.needPages_keeps {F : Part → Bool} {s₀ s : State} {d k : Nat} {write : Bool} {pgs : List PageId} (h : Keeps F s₀ s) (f_free : F .free = true := by with_reducible assumption) (f_sent : F .sent = true := by with_reducible assumption) (f_regs : F .regs = true := by with_reducible assumption) (f_mem : F .mem = true := by with_reducible assumption) (f_kv : F .kv = true := by with_reducible assumption) (f_fab : F .fab = true := by with_reducible assumption) : Keeps F s₀ (s.needPages d k write pgs).1 := by
  have go : ∀ (l : List PageId) (a : State × Blocked), Keeps F s₀ a.1 → Keeps F s₀ (l.foldl (fun a pg => a.1.needPage d k write a.2 pg) a).1 := by
    intro l
    induction l with
    | nil => exact fun _ h => h
    | cons pg l ih =>
      intro a h
      rw [List.foldl_cons]
      exact ih (State.needPage a.1 d k write a.2 pg) (State.needPage_keeps (s := a.1) (d := d) (k := k) (write := write) (b := a.2) (pg := pg) h)
  exact go pgs _ h

theorem State.needPages_keeps_of {F : Part → Bool} {s₀ s t : State} {d k : Nat} {write : Bool} {pgs : List PageId} {x : Blocked} (h : Keeps F s₀ s) (e : s.needPages d k write pgs = (t, x)) (f_free : F .free = true := by with_reducible assumption) (f_sent : F .sent = true := by with_reducible assumption) (f_regs : F .regs = true := by with_reducible assumption) (f_mem : F .mem = true := by with_reducible assumption) (f_kv : F .kv = true := by with_reducible assumption) (f_fab : F .fab = true := by with_reducible assumption) : Keeps F s₀ t := by
  have : Keeps F s₀ (s.needPages d k write pgs).1 := State.needPages_keeps h
  rw [e] at this
  exact this

theorem State.copyShared_keeps {F : Part → Bool} {s₀ s t : State} {m : KvModel} {w : SeqRow} {n : Nat} {l : List PageId} (h : Keeps F s₀ s) (e : s.copyShared m w n l = .ok t) (f_regs : F .regs = true := by with_reducible assumption) (f_mem : F .mem = true := by with_reducible assumption) (f_kv : F .kv = true := by with_reducible assumption) : Keeps F s₀ t := by
  induction l generalizing s with
  | nil => cases e; exact h
  | cons p l ih =>
    rw [State.copyShared] at e
    split at e
    · split at e
      · next u eu => exact ih (State.copyOnWrite_keeps h eu) e
      · cases e
    · exact ih h e

theorem State.allocPages_keeps {F : Part → Bool} {s₀ s t : State} {m : KvModel} {w : SeqRow} {seq n : Nat} {l : List Nat} (h : Keeps F s₀ s) (e : s.allocPages m w seq n l = .ok t) (f_mem : F .mem = true := by with_reducible assumption) (f_kv : F .kv = true := by with_reducible assumption) : Keeps F s₀ t := by
  induction l generalizing s with
  | nil => cases e; exact h
  | cons p l ih =>
    rw [State.allocPages] at e
    split at e
    · cases e
    · exact ih (State.setEntry_keeps (State.takeFrame_keeps h (by with_reducible assumption))) e

theorem State.ringPages_keeps {F : Part → Bool} {s₀ s t : State} {m : KvModel} {w : SeqRow} {seq n : Nat} {l : List Nat} (h : Keeps F s₀ s) (e : s.ringPages m w seq n l = .ok t) (f_regs : F .regs = true := by with_reducible assumption) (f_mem : F .mem = true := by with_reducible assumption) (f_kv : F .kv = true := by with_reducible assumption) : Keeps F s₀ t := by
  induction l generalizing s with
  | nil => cases e; exact h
  | cons p l ih =>
    rw [State.ringPages] at e
    split at e
    · exact ih (State.labInvalidate_keeps h) e
    · split at e
      · cases e
      · exact ih (State.setEntry_keeps (State.takeFrame_keeps (State.dropEntry_keeps h) (by with_reducible assumption))) e

theorem State.orStarve_keeps {F : Part → Bool} {s₀ s : State} {x : Step} {i : Nat} {m : KvModel} {got : Except Nat State} {fails : List (Nat × Nat × Nat)} {f : State → State} (h : Keeps F s₀ s) (hg : ∀ t, got = .ok t → Keeps F s₀ t) (hf : ∀ t, Keeps F s₀ t → Keeps F s₀ (f t)) (f_kv : F .kv = true := by with_reducible assumption) : Keeps F s₀ (s.orStarve x i m got fails f) := by
  unfold State.orStarve
  split
  · split
    · exact hf _ (hg _ rfl)
    · exact State.onRow_keeps h
  · split
    · exact State.starve_keeps h
    · exact State.onRow_keeps h

theorem State.resolvePage_keeps {F : Part → Bool} {s₀ : State} {s : State} {x : Step} {i : Nat} {w : StepRow} (h : Keeps F s₀ s) (f_free : F .free = true := by with_reducible assumption) (f_sent : F .sent = true := by with_reducible assumption) (f_regs : F .regs = true := by with_reducible assumption) (f_mem : F .mem = true := by with_reducible assumption) (f_kv : F .kv = true := by with_reducible assumption) (f_fab : F .fab = true := by with_reducible assumption) : Keeps F s₀ (State.resolvePage s x i w) := by
  unfold State.resolvePage
  repeat' first
    | with_reducible assumption
    | refine State.allocPages_keeps ?_ (by with_reducible assumption)
    | refine State.copyShared_keeps ?_ (by with_reducible assumption)
    | with_reducible apply State.needPages_keeps
    | refine State.needPages_keeps_of ?_ (by with_reducible assumption)
    | with_reducible apply State.onRow_keeps
    | with_reducible apply State.orStarve_keeps
    | refine State.ringPages_keeps ?_ (by with_reducible assumption)
    | intro _
    | with_reducible apply Keeps.ite
    | split
    | dsimp only

theorem State.appendToken_keeps {F : Part → Bool} {s₀ : State} {s : State} {x : Step} {i : Nat} {w : StepRow} (h : Keeps F s₀ s) (f_sent : F .sent = true := by with_reducible assumption) (f_mem : F .mem = true := by with_reducible assumption) (f_kv : F .kv = true := by with_reducible assumption) : Keeps F s₀ (State.appendToken s x i w) := by
  unfold State.appendToken
  repeat' first
    | with_reducible assumption
    | with_reducible apply Keeps.foldl
    | with_reducible apply State.onRow_keeps
    | with_reducible apply State.setRow_keeps
    | with_reducible apply State.withMem_keeps
    | with_reducible apply State.writeBytes_keeps
    | intro _
    | with_reducible apply Keeps.ite
    | split
    | dsimp only

theorem State.pinPage_keeps {F : Part → Bool} {s₀ : State} {s : State} {x : Step} {i n : Nat} {r : SeqRow} {pg : PageId} (h : Keeps F s₀ s) (f_mem : F .mem = true := by with_reducible assumption) (f_kv : F .kv = true := by with_reducible assumption) : Keeps F s₀ (State.pinPage s x i n r pg) := by
  unfold State.pinPage
  repeat' first
    | with_reducible assumption
    | with_reducible apply State.onRow_keeps
    | refine State.pin_keeps ?_ (by with_reducible assumption)
    | intro _
    | with_reducible apply Keeps.ite
    | split
    | dsimp only

theorem State.pinPages_keeps {F : Part → Bool} {s₀ : State} {s : State} {x : Step} {i : Nat} {w : StepRow} (h : Keeps F s₀ s) (f_free : F .free = true := by with_reducible assumption) (f_sent : F .sent = true := by with_reducible assumption) (f_regs : F .regs = true := by with_reducible assumption) (f_mem : F .mem = true := by with_reducible assumption) (f_kv : F .kv = true := by with_reducible assumption) (f_fab : F .fab = true := by with_reducible assumption) : Keeps F s₀ (State.pinPages s x i w) := by
  unfold State.pinPages
  repeat' first
    | with_reducible assumption
    | with_reducible apply Keeps.foldl
    | with_reducible apply State.needPages_keeps
    | refine State.needPages_keeps_of ?_ (by with_reducible assumption)
    | with_reducible apply State.onRow_keeps
    | with_reducible apply State.pinPage_keeps
    | intro _
    | with_reducible apply Keeps.ite
    | split
    | dsimp only

theorem State.writeArea_keeps {F : Part → Bool} {s₀ : State} {s : State} {m : KvModel} {area : BankId × Nat} {n : Nat} (h : Keeps F s₀ s) (f_mem : F .mem = true := by with_reducible assumption) : Keeps F s₀ (State.writeArea s m area n) := by
  unfold State.writeArea
  repeat' first
    | with_reducible assumption
    | with_reducible apply Keeps.foldl
    | with_reducible apply State.writeBytes_keeps
    | intro _
    | with_reducible apply Keeps.ite
    | split
    | dsimp only

theorem State.issueOne_keeps {F : Part → Bool} {s₀ : State} {s : State} {x : Step} {i : Nat} {m : KvModel} {r : SeqRow} {t : HeadPage} (h : Keeps F s₀ s) (f_free : F .free = true := by with_reducible assumption) (f_sent : F .sent = true := by with_reducible assumption) (f_power : F .power = true := by with_reducible assumption) (f_mem : F .mem = true := by with_reducible assumption) (f_stackMap : F .stackMap = true := by with_reducible assumption) (f_banks : F .banks = true := by with_reducible assumption) (f_baus : F .baus = true := by with_reducible assumption) (f_seqs : F .seqs = true := by with_reducible assumption) (f_seqNext : F .seqNext = true := by with_reducible assumption) (f_kv : F .kv = true := by with_reducible assumption) (f_fab : F .fab = true := by with_reducible assumption) : Keeps F s₀ (State.issueOne s x i m r t) := by
  unfold State.issueOne
  repeat' first
    | with_reducible assumption
    | with_reducible apply State.acceptSeq_keeps
    | with_reducible apply State.onRow_keeps
    | with_reducible apply State.writeArea_keeps
    | intro _
    | with_reducible apply Keeps.ite
    | split
    | dsimp only

theorem State.issueRow_keeps {F : Part → Bool} {s₀ : State} {s : State} {x : Step} {i : Nat} {w : StepRow} (h : Keeps F s₀ s) (f_free : F .free = true := by with_reducible assumption) (f_sent : F .sent = true := by with_reducible assumption) (f_power : F .power = true := by with_reducible assumption) (f_mem : F .mem = true := by with_reducible assumption) (f_stackMap : F .stackMap = true := by with_reducible assumption) (f_banks : F .banks = true := by with_reducible assumption) (f_baus : F .baus = true := by with_reducible assumption) (f_seqs : F .seqs = true := by with_reducible assumption) (f_seqNext : F .seqNext = true := by with_reducible assumption) (f_kv : F .kv = true := by with_reducible assumption) (f_fab : F .fab = true := by with_reducible assumption) : Keeps F s₀ (State.issueRow s x i w) := by
  unfold State.issueRow
  repeat' first
    | with_reducible assumption
    | with_reducible apply Keeps.foldl
    | with_reducible apply State.issueOne_keeps
    | with_reducible apply State.onRow_keeps
    | with_reducible apply State.withMem_keeps
    | intro _
    | with_reducible apply Keeps.ite
    | split
    | dsimp only

theorem State.writeOut_keeps {F : Part → Bool} {s₀ : State} {s : State} {x : Step} {i : Nat} {w : StepRow} (h : Keeps F s₀ s) (f_free : F .free = true := by with_reducible assumption) (f_sent : F .sent = true := by with_reducible assumption) (f_mem : F .mem = true := by with_reducible assumption) (f_kv : F .kv = true := by with_reducible assumption) (f_fab : F .fab = true := by with_reducible assumption) : Keeps F s₀ (State.writeOut s x i w) := by
  unfold State.writeOut
  repeat' first
    | with_reducible assumption
    | with_reducible apply Keeps.foldl
    | with_reducible apply State.dropReqs_keeps
    | with_reducible apply State.onRow_keeps
    | with_reducible apply State.requestWrite_keeps
    | with_reducible apply State.withMem_keeps
    | with_reducible apply State.writeBytes_keeps
    | intro _
    | with_reducible apply Keeps.ite
    | split
    | dsimp only

theorem State.endRow_keeps {F : Part → Bool} {s₀ : State} {s : State} {x : Step} {i : Nat} {w : StepRow} (h : Keeps F s₀ s) (f_sent : F .sent = true := by with_reducible assumption) (f_mem : F .mem = true := by with_reducible assumption) (f_kv : F .kv = true := by with_reducible assumption) : Keeps F s₀ (State.endRow s x i w) := by
  unfold State.endRow
  repeat' first
    | with_reducible assumption
    | with_reducible apply Keeps.foldl
    | with_reducible apply State.onRow_keeps
    | with_reducible apply State.unpin_keeps
    | with_reducible apply State.withMem_keeps
    | with_reducible apply State.writeBytes_keeps
    | intro _
    | with_reducible apply Keeps.ite
    | split
    | dsimp only

theorem State.rowNext_keeps {F : Part → Bool} {s₀ : State} {s : State} {x : Step} {i : Nat} {w : StepRow} (h : Keeps F s₀ s) (f_free : F .free = true := by with_reducible assumption) (f_sent : F .sent = true := by with_reducible assumption) (f_power : F .power = true := by with_reducible assumption) (f_regs : F .regs = true := by with_reducible assumption) (f_mem : F .mem = true := by with_reducible assumption) (f_stackMap : F .stackMap = true := by with_reducible assumption) (f_banks : F .banks = true := by with_reducible assumption) (f_baus : F .baus = true := by with_reducible assumption) (f_seqs : F .seqs = true := by with_reducible assumption) (f_seqNext : F .seqNext = true := by with_reducible assumption) (f_kv : F .kv = true := by with_reducible assumption) (f_fab : F .fab = true := by with_reducible assumption) : Keeps F s₀ (State.rowNext s x i w) := by
  unfold State.rowNext
  repeat' first
    | with_reducible assumption
    | with_reducible apply State.appendToken_keeps
    | with_reducible apply State.askPages_keeps
    | with_reducible apply State.endRow_keeps
    | with_reducible apply State.issueRow_keeps
    | with_reducible apply State.onRow_keeps
    | with_reducible apply State.pinPages_keeps
    | with_reducible apply State.resolvePage_keeps
    | with_reducible apply State.writeOut_keeps
    | intro _
    | with_reducible apply Keeps.ite
    | split
    | dsimp only

theorem State.rowRun_keeps {F : Part → Bool} {s₀ s : State} {x : Step} {i n : Nat} (h : Keeps F s₀ s) (f_free : F .free = true := by with_reducible assumption) (f_sent : F .sent = true := by with_reducible assumption) (f_power : F .power = true := by with_reducible assumption) (f_regs : F .regs = true := by with_reducible assumption) (f_mem : F .mem = true := by with_reducible assumption) (f_stackMap : F .stackMap = true := by with_reducible assumption) (f_banks : F .banks = true := by with_reducible assumption) (f_baus : F .baus = true := by with_reducible assumption) (f_seqs : F .seqs = true := by with_reducible assumption) (f_seqNext : F .seqNext = true := by with_reducible assumption) (f_kv : F .kv = true := by with_reducible assumption) (f_fab : F .fab = true := by with_reducible assumption) : Keeps F s₀ (s.rowRun x i n) := by
  induction n generalizing s with
  | zero => exact h
  | succ n ih =>
    rw [State.rowRun]
    repeat' first
      | with_reducible assumption
      | with_reducible apply State.rowNext_keeps
      | with_reducible apply ih
      | intro _
      | with_reducible apply Keeps.ite
      | split
      | dsimp only


theorem State.stepRun_keeps {F : Part → Bool} {s₀ : State} {s : State} {d k n kind : Nat} (h : Keeps F s₀ s) (f_free : F .free = true := by with_reducible assumption) (f_sent : F .sent = true := by with_reducible assumption) (f_power : F .power = true := by with_reducible assumption) (f_regs : F .regs = true := by with_reducible assumption) (f_mem : F .mem = true := by with_reducible assumption) (f_stackMap : F .stackMap = true := by with_reducible assumption) (f_banks : F .banks = true := by with_reducible assumption) (f_baus : F .baus = true := by with_reducible assumption) (f_seqs : F .seqs = true := by with_reducible assumption) (f_seqNext : F .seqNext = true := by with_reducible assumption) (f_kv : F .kv = true := by with_reducible assumption) (f_fab : F .fab = true := by with_reducible assumption) : Keeps F s₀ (State.stepRun s d k n kind) := by
  unfold State.stepRun
  repeat' first
    | with_reducible assumption
    | with_reducible apply Keeps.foldl
    | with_reducible apply State.rowRun_keeps
    | intro _
    | with_reducible apply Keeps.ite
    | split
    | dsimp only

theorem State.aseqDone_keeps {F : Part → Bool} {s₀ : State} {s : State} {j : SeqJob} (h : Keeps F s₀ s) (f_kv : F .kv = true := by with_reducible assumption) : Keeps F s₀ (State.aseqDone s j) := by
  unfold State.aseqDone
  repeat' first
    | with_reducible assumption
    | with_reducible apply State.onKv_keeps
    | intro _
    | with_reducible apply Keeps.ite
    | split
    | dsimp only

theorem State.coreMode_keeps {F : Part → Bool} {s₀ : State} {s : State} {x : Step} {i : Nat} {w : StepRow} (h : Keeps F s₀ s) (f_sent : F .sent = true := by with_reducible assumption) (f_mem : F .mem = true := by with_reducible assumption) (f_kv : F .kv = true := by with_reducible assumption) : Keeps F s₀ (State.coreMode s x i w) := by
  unfold State.coreMode
  repeat' first
    | with_reducible assumption
    | with_reducible apply Keeps.foldl
    | with_reducible apply State.onRow_keeps
    | with_reducible apply State.withMem_keeps
    | intro _
    | with_reducible apply Keeps.ite
    | split
    | dsimp only

end Sys2Proof.Machine
end

