-- ==== Sys2Proof/Laws/KeepsBankSeq.lean ====
section
/-! SUPPORT. The operations of Machine/BankSeq.lean undo nothing (Laws/Keeps.lean). -/

set_option Elab.async false
set_option linter.unusedTactic false
set_option linter.unreachableTactic false
set_option linter.unusedVariables false

namespace Sys2Proof.Machine

open Sys2Proof

theorem execBankSequence_good {F : Part → Bool} {src : Agent} {desc inline : List Byte} {s : State} (f_free : F .free = true := by with_reducible assumption) (f_sent : F .sent = true := by with_reducible assumption) (f_power : F .power = true := by with_reducible assumption) (f_mem : F .mem = true := by with_reducible assumption) (f_stackMap : F .stackMap = true := by with_reducible assumption) (f_banks : F .banks = true := by with_reducible assumption) (f_baus : F .baus = true := by with_reducible assumption) (f_seqs : F .seqs = true := by with_reducible assumption) (f_seqNext : F .seqNext = true := by with_reducible assumption) (f_fab : F .fab = true := by with_reducible assumption) : Good F s (execBankSequence src desc inline s) := by
  unfold execBankSequence
  repeat' first
    | with_reducible assumption
    | with_reducible apply State.acceptSeq_keeps
    | with_reducible apply State.when_keeps
    | with_reducible apply Good.next
    | with_reducible exact Keeps.rfl
    | intro _
    | with_reducible apply Keeps.ite
    | split
    | dsimp only

theorem execActTokenGrant_good {F : Part → Bool} {stk : Nat} {s : State} (f_sent : F .sent = true := by with_reducible assumption) (f_mem : F .mem = true := by with_reducible assumption) (f_banks : F .banks = true := by with_reducible assumption) (f_seqs : F .seqs = true := by with_reducible assumption) : Good F s (execActTokenGrant stk s) := by
  unfold execActTokenGrant
  repeat' first
    | with_reducible assumption
    | with_reducible apply State.grant_keeps
    | with_reducible apply State.whenP_keeps
    | with_reducible apply Good.next
    | with_reducible exact Keeps.rfl
    | intro _
    | with_reducible apply Keeps.ite
    | split
    | dsimp only

theorem execSeqwDescriptorWrite_good {F : Part → Bool} {ag : Agent} {d slot off : Nat} {data : List Byte} {s : State} (f_free : F .free = true := by with_reducible assumption) (f_sent : F .sent = true := by with_reducible assumption) (f_power : F .power = true := by with_reducible assumption) (f_flash : F .flash = true := by with_reducible assumption) (f_mgmt : F .mgmt = true := by with_reducible assumption) (f_fcu : F .fcu = true := by with_reducible assumption) (f_regs : F .regs = true := by with_reducible assumption) (f_mem : F .mem = true := by with_reducible assumption) (f_stackMap : F .stackMap = true := by with_reducible assumption) (f_banks : F .banks = true := by with_reducible assumption) (f_baus : F .baus = true := by with_reducible assumption) (f_seqs : F .seqs = true := by with_reducible assumption) (f_seqNext : F .seqNext = true := by with_reducible assumption) (f_slots : F .slots = true := by with_reducible assumption) (f_ports : F .ports = true := by with_reducible assumption) (f_notices : F .notices = true := by with_reducible assumption) (f_fab : F .fab = true := by with_reducible assumption) : Good F s (execSeqwDescriptorWrite ag d slot off data s) := by
  unfold execSeqwDescriptorWrite
  repeat' first
    | with_reducible assumption
    | with_reducible apply State.access_keeps
    | with_reducible apply State.whenP_keeps
    | with_reducible apply Good.next
    | with_reducible exact Keeps.rfl
    | intro _
    | with_reducible apply Keeps.ite
    | split
    | dsimp only

theorem State.seqDeliver_keeps {F : Part → Bool} {s₀ : State} {s : State} {j : SeqJob} (h : Keeps F s₀ s) (f_sent : F .sent = true := by with_reducible assumption) (f_cores : F .cores = true := by with_reducible assumption) (f_kv : F .kv = true := by with_reducible assumption) : Keeps F s₀ (State.seqDeliver s j) := by
  unfold State.seqDeliver
  repeat' first
    | with_reducible assumption
    | with_reducible apply State.aseqDone_keeps
    | with_reducible apply State.bseqDone_keeps
    | with_reducible apply State.send_keeps
    | intro _
    | with_reducible apply Keeps.ite
    | split
    | dsimp only

theorem State.completeSeq_keeps {F : Part → Bool} {s₀ : State} {s : State} {j : SeqJob} (h : Keeps F s₀ s) (f_free : F .free = true := by with_reducible assumption) (f_sent : F .sent = true := by with_reducible assumption) (f_power : F .power = true := by with_reducible assumption) (f_flash : F .flash = true := by with_reducible assumption) (f_mgmt : F .mgmt = true := by with_reducible assumption) (f_fcu : F .fcu = true := by with_reducible assumption) (f_regs : F .regs = true := by with_reducible assumption) (f_mem : F .mem = true := by with_reducible assumption) (f_stackMap : F .stackMap = true := by with_reducible assumption) (f_banks : F .banks = true := by with_reducible assumption) (f_baus : F .baus = true := by with_reducible assumption) (f_seqs : F .seqs = true := by with_reducible assumption) (f_seqNext : F .seqNext = true := by with_reducible assumption) (f_slots : F .slots = true := by with_reducible assumption) (f_ports : F .ports = true := by with_reducible assumption) (f_cores : F .cores = true := by with_reducible assumption) (f_notices : F .notices = true := by with_reducible assumption) (f_kv : F .kv = true := by with_reducible assumption) (f_fab : F .fab = true := by with_reducible assumption) : Keeps F s₀ (State.completeSeq s j) := by
  unfold State.completeSeq
  repeat' first
    | with_reducible assumption
    | with_reducible apply State.endSeq_keeps
    | with_reducible apply State.issueSnoops_keeps
    | with_reducible apply State.retry_keeps
    | with_reducible apply State.seqDeliver_keeps
    | with_reducible apply State.slotDone_keeps
    | intro _
    | with_reducible apply Keeps.ite
    | split
    | dsimp only

theorem execSequenceComplete_good {F : Part → Bool} {id : Nat} {s : State} (f_free : F .free = true := by with_reducible assumption) (f_sent : F .sent = true := by with_reducible assumption) (f_power : F .power = true := by with_reducible assumption) (f_flash : F .flash = true := by with_reducible assumption) (f_mgmt : F .mgmt = true := by with_reducible assumption) (f_fcu : F .fcu = true := by with_reducible assumption) (f_regs : F .regs = true := by with_reducible assumption) (f_mem : F .mem = true := by with_reducible assumption) (f_stackMap : F .stackMap = true := by with_reducible assumption) (f_banks : F .banks = true := by with_reducible assumption) (f_baus : F .baus = true := by with_reducible assumption) (f_seqs : F .seqs = true := by with_reducible assumption) (f_seqNext : F .seqNext = true := by with_reducible assumption) (f_slots : F .slots = true := by with_reducible assumption) (f_ports : F .ports = true := by with_reducible assumption) (f_cores : F .cores = true := by with_reducible assumption) (f_notices : F .notices = true := by with_reducible assumption) (f_kv : F .kv = true := by with_reducible assumption) (f_fab : F .fab = true := by with_reducible assumption) : Good F s (execSequenceComplete id s) := by
  unfold execSequenceComplete
  repeat' first
    | with_reducible assumption
    | with_reducible apply State.completeSeq_keeps
    | with_reducible apply State.seqStart_keeps
    | with_reducible apply Good.next
    | with_reducible exact Keeps.rfl
    | intro _
    | with_reducible apply Keeps.ite
    | split
    | dsimp only

end Sys2Proof.Machine
end

