-- ==== Sys2Proof/Laws/KeepsMgmtOps.lean ====
section
/-! SUPPORT. The operations of Machine/MgmtOps.lean undo nothing (Laws/Keeps.lean). -/

set_option Elab.async false
set_option linter.unusedTactic false
set_option linter.unreachableTactic false
set_option linter.unusedVariables false

namespace Sys2Proof.Machine

open Sys2Proof

theorem State.mgmtComplete_keeps {F : Part → Bool} {s₀ : State} {s : State} {status reason result : Nat} (h : Keeps F s₀ s) (f_sent : F .sent = true := by with_reducible assumption) (f_mgmt : F .mgmt = true := by with_reducible assumption) (f_regs : F .regs = true := by with_reducible assumption) (f_mem : F .mem = true := by with_reducible assumption) : Keeps F s₀ (State.mgmtComplete s status reason result) := by
  unfold State.mgmtComplete
  repeat' first
    | with_reducible assumption
    | with_reducible apply State.onMgmt_keeps
    | with_reducible apply State.send_keeps
    | with_reducible apply State.setFld_keeps
    | with_reducible apply State.writeBytes_keeps
    | intro _
    | with_reducible apply Keeps.ite
    | split
    | dsimp only

theorem State.mgmtServe_keeps {F : Part → Bool} {s₀ : State} {s : State} {op : Nat} {f : MgmtReq → State → State} (h : Keeps F s₀ s) (kf : ∀ x0 t, Keeps F s₀ t → Keeps F s₀ (f x0 t)) (f_sent : F .sent = true := by with_reducible assumption) (f_mgmt : F .mgmt = true := by with_reducible assumption) (f_regs : F .regs = true := by with_reducible assumption) (f_mem : F .mem = true := by with_reducible assumption) : Keeps F s₀ (State.mgmtServe s op f) := by
  unfold State.mgmtServe
  repeat' first
    | with_reducible assumption
    | with_reducible apply State.mgmtComplete_keeps
    | with_reducible apply BauRun.op_keeps
    | with_reducible apply kf
    | intro _
    | with_reducible apply Keeps.ite
    | split
    | dsimp only

theorem State.mgmtSigned_keeps {F : Part → Bool} {s₀ : State} {s : State} {q : MgmtReq} {sigOk : Bool} {f : State → State} (h : Keeps F s₀ s) (kf : ∀ t, Keeps F s₀ t → Keeps F s₀ (f t)) (f_sent : F .sent = true := by with_reducible assumption) (f_flash : F .flash = true := by with_reducible assumption) (f_mgmt : F .mgmt = true := by with_reducible assumption) (f_regs : F .regs = true := by with_reducible assumption) (f_mem : F .mem = true := by with_reducible assumption) : Keeps F s₀ (State.mgmtSigned s q sigOk f) := by
  unfold State.mgmtSigned
  repeat' first
    | with_reducible assumption
    | with_reducible apply State.mgmtComplete_keeps
    | with_reducible apply kf
    | intro _
    | with_reducible apply Keeps.ite
    | split
    | refine Keeps.flash ?_ (Nat.le_refl _) (by with_reducible assumption)
    | dsimp only

theorem State.mgmtReading_keeps {F : Part → Bool} {s₀ : State} {s : State} {t : Int} (h : Keeps F s₀ s) (f_sent : F .sent = true := by with_reducible assumption) (f_mgmt : F .mgmt = true := by with_reducible assumption) (f_regs : F .regs = true := by with_reducible assumption) (f_mem : F .mem = true := by with_reducible assumption) : Keeps F s₀ (State.mgmtReading s t) := by
  unfold State.mgmtReading
  repeat' first
    | with_reducible assumption
    | with_reducible apply State.mgmtComplete_keeps
    | with_reducible apply BauRun.op_keeps
    | intro _
    | with_reducible apply Keeps.ite
    | split
    | dsimp only

end Sys2Proof.Machine
end

