-- ==== Sys2Proof/Laws/KeepsTaskOps.lean ====
section
/-! SUPPORT. The operations of Machine/TaskOps.lean undo nothing (Laws/Keeps.lean). -/

set_option Elab.async false
set_option linter.unusedTactic false
set_option linter.unreachableTactic false
set_option linter.unusedVariables false

namespace Sys2Proof.Machine

open Sys2Proof

theorem State.dropDescs_keeps {F : Part → Bool} {s₀ : State} {s : State} {d c : Nat} (h : Keeps F s₀ s) (f_mem : F .mem = true := by with_reducible assumption) (f_cores : F .cores = true := by with_reducible assumption) (f_kv : F .kv = true := by with_reducible assumption) : Keeps F s₀ (State.dropDescs s d c) := by
  unfold State.dropDescs
  repeat' first
    | with_reducible assumption
    | with_reducible apply Keeps.foldl
    | with_reducible apply State.dropDynamic_keeps
    | with_reducible apply State.onCore_keeps
    | intro _
    | with_reducible apply Keeps.ite
    | split
    | dsimp only

theorem State.dropCoreReqs_keeps {F : Part → Bool} {s₀ : State} {s : State} {d c : Nat} (h : Keeps F s₀ s) (f_fab : F .fab = true := by with_reducible assumption) : Keeps F s₀ (State.dropCoreReqs s d c) := by
  unfold State.dropCoreReqs
  repeat' first
    | with_reducible assumption
    | with_reducible apply State.dropReqs_keeps
    | intro _
    | with_reducible apply Keeps.ite
    | split
    | dsimp only

theorem State.dropChains_keeps {F : Part → Bool} {s₀ : State} {s : State} {d c : Nat} (h : Keeps F s₀ s) (f_banks : F .banks = true := by with_reducible assumption) (f_baus : F .baus = true := by with_reducible assumption) (f_seqs : F .seqs = true := by with_reducible assumption) : Keeps F s₀ (State.dropChains s d c) := by
  unfold State.dropChains
  repeat' first
    | with_reducible assumption
    | with_reducible apply State.endChains_keeps
    | intro _
    | with_reducible apply Keeps.ite
    | split
    | with_reducible apply Keeps.seqs_set
    | dsimp only

theorem State.abortCore_keeps {F : Part → Bool} {s₀ : State} {s : State} {d c : Nat} (h : Keeps F s₀ s) (f_mem : F .mem = true := by with_reducible assumption) (f_banks : F .banks = true := by with_reducible assumption) (f_baus : F .baus = true := by with_reducible assumption) (f_seqs : F .seqs = true := by with_reducible assumption) (f_cores : F .cores = true := by with_reducible assumption) (f_kv : F .kv = true := by with_reducible assumption) (f_fab : F .fab = true := by with_reducible assumption) : Keeps F s₀ (State.abortCore s d c) := by
  unfold State.abortCore
  repeat' first
    | with_reducible assumption
    | with_reducible apply State.dropChains_keeps
    | with_reducible apply State.dropCoreReqs_keeps
    | with_reducible apply State.dropDescs_keeps
    | with_reducible apply State.kvUnwait_keeps
    | with_reducible apply State.onCore_keeps
    | intro _
    | with_reducible apply Keeps.ite
    | split
    | dsimp only

theorem State.unbind_keeps {F : Part → Bool} {s₀ : State} {s : State} {t : Task} (h : Keeps F s₀ s) (f_regs : F .regs = true := by with_reducible assumption) (f_notices : F .notices = true := by with_reducible assumption) : Keeps F s₀ (State.unbind s t) := by
  unfold State.unbind
  repeat' first
    | with_reducible assumption
    | with_reducible apply Keeps.foldl
    | with_reducible apply State.emptySlot_keeps
    | with_reducible apply State.setReg_keeps
    | intro _
    | with_reducible apply Keeps.ite
    | split
    | dsimp only

theorem State.freeModels_keeps {F : Part → Bool} {s₀ : State} {s : State} {t : Task} {state : Nat → Bool} (h : Keeps F s₀ s) (f_regs : F .regs = true := by with_reducible assumption) (f_mem : F .mem = true := by with_reducible assumption) (f_kv : F .kv = true := by with_reducible assumption) : Keeps F s₀ (State.freeModels s t state) := by
  unfold State.freeModels
  repeat' first
    | with_reducible assumption
    | with_reducible apply Keeps.foldl
    | with_reducible apply State.freeSeq_keeps
    | intro _
    | with_reducible apply Keeps.ite
    | split
    | dsimp only

theorem State.abortRun_keeps {F : Part → Bool} {s₀ : State} {s : State} {id : Nat} (h : Keeps F s₀ s) (f_regs : F .regs = true := by with_reducible assumption) (f_mem : F .mem = true := by with_reducible assumption) (f_banks : F .banks = true := by with_reducible assumption) (f_baus : F .baus = true := by with_reducible assumption) (f_seqs : F .seqs = true := by with_reducible assumption) (f_cores : F .cores = true := by with_reducible assumption) (f_notices : F .notices = true := by with_reducible assumption) (f_kv : F .kv = true := by with_reducible assumption) (f_ldr : F .ldr = true := by with_reducible assumption) (f_fab : F .fab = true := by with_reducible assumption) : Keeps F s₀ (State.abortRun s id) := by
  unfold State.abortRun
  repeat' first
    | with_reducible assumption
    | with_reducible apply Keeps.foldl
    | with_reducible apply State.abortCore_keeps
    | with_reducible apply State.freeModels_keeps
    | with_reducible apply State.onTask_keeps
    | with_reducible apply State.unbind_keeps
    | intro _
    | with_reducible apply Keeps.ite
    | split
    | dsimp only

theorem State.finishRun_keeps {F : Part → Bool} {s₀ : State} {s : State} {id : Nat} (h : Keeps F s₀ s) (f_regs : F .regs = true := by with_reducible assumption) (f_mem : F .mem = true := by with_reducible assumption) (f_cores : F .cores = true := by with_reducible assumption) (f_notices : F .notices = true := by with_reducible assumption) (f_kv : F .kv = true := by with_reducible assumption) (f_ldr : F .ldr = true := by with_reducible assumption) : Keeps F s₀ (State.finishRun s id) := by
  unfold State.finishRun
  repeat' first
    | with_reducible assumption
    | with_reducible apply Keeps.foldl
    | with_reducible apply State.dropDescs_keeps
    | with_reducible apply State.onCore_keeps
    | with_reducible apply State.onTask_keeps
    | with_reducible apply State.unbind_keeps
    | intro _
    | with_reducible apply Keeps.ite
    | split
    | dsimp only

theorem State.freeTask_keeps {F : Part → Bool} {s₀ : State} {s : State} {id : Nat} (h : Keeps F s₀ s) (f_regs : F .regs = true := by with_reducible assumption) (f_mem : F .mem = true := by with_reducible assumption) (f_cores : F .cores = true := by with_reducible assumption) (f_kv : F .kv = true := by with_reducible assumption) (f_ldr : F .ldr = true := by with_reducible assumption) : Keeps F s₀ (State.freeTask s id) := by
  unfold State.freeTask
  repeat' first
    | with_reducible assumption
    | with_reducible apply Keeps.foldl
    | with_reducible apply State.freeModels_keeps
    | with_reducible apply State.onCore_keeps
    | with_reducible apply State.onKv_keeps
    | intro _
    | with_reducible apply Keeps.ite
    | split
    | with_reducible apply Keeps.ldr_set
    | dsimp only

theorem State.endPortTask_keeps {F : Part → Bool} {s₀ : State} {s : State} {t : Task} (h : Keeps F s₀ s) (f_regs : F .regs = true := by with_reducible assumption) (f_mem : F .mem = true := by with_reducible assumption) (f_banks : F .banks = true := by with_reducible assumption) (f_baus : F .baus = true := by with_reducible assumption) (f_seqs : F .seqs = true := by with_reducible assumption) (f_cores : F .cores = true := by with_reducible assumption) (f_notices : F .notices = true := by with_reducible assumption) (f_kv : F .kv = true := by with_reducible assumption) (f_ldr : F .ldr = true := by with_reducible assumption) (f_fab : F .fab = true := by with_reducible assumption) : Keeps F s₀ (State.endPortTask s t) := by
  unfold State.endPortTask
  repeat' first
    | with_reducible assumption
    | with_reducible apply State.abortRun_keeps
    | with_reducible apply State.finishRun_keeps
    | with_reducible apply State.freeTask_keeps
    | intro _
    | with_reducible apply Keeps.ite
    | split
    | with_reducible apply Keeps.ldr_set
    | dsimp only

theorem State.abortPortWork_keeps {F : Part → Bool} {s₀ : State} {s : State} {port : Nat} (h : Keeps F s₀ s) (f_regs : F .regs = true := by with_reducible assumption) (f_mem : F .mem = true := by with_reducible assumption) (f_banks : F .banks = true := by with_reducible assumption) (f_baus : F .baus = true := by with_reducible assumption) (f_seqs : F .seqs = true := by with_reducible assumption) (f_slots : F .slots = true := by with_reducible assumption) (f_cores : F .cores = true := by with_reducible assumption) (f_notices : F .notices = true := by with_reducible assumption) (f_kv : F .kv = true := by with_reducible assumption) (f_ldr : F .ldr = true := by with_reducible assumption) (f_fab : F .fab = true := by with_reducible assumption) : Keeps F s₀ (State.abortPortWork s port) := by
  unfold State.abortPortWork
  repeat' first
    | with_reducible assumption
    | with_reducible apply Keeps.foldl
    | with_reducible apply State.endPortTask_keeps
    | with_reducible apply State.resetMailboxes_keeps
    | with_reducible apply State.resetSlots_keeps
    | intro _
    | with_reducible apply Keeps.ite
    | split
    | dsimp only

theorem State.hotReset_keeps {F : Part → Bool} {s₀ : State} {s : State} {port : Nat} (h : Keeps F s₀ s) (f_regs : F .regs = true := by with_reducible assumption) (f_mem : F .mem = true := by with_reducible assumption) (f_banks : F .banks = true := by with_reducible assumption) (f_baus : F .baus = true := by with_reducible assumption) (f_seqs : F .seqs = true := by with_reducible assumption) (f_slots : F .slots = true := by with_reducible assumption) (f_ports : F .ports = true := by with_reducible assumption) (f_cores : F .cores = true := by with_reducible assumption) (f_notices : F .notices = true := by with_reducible assumption) (f_kv : F .kv = true := by with_reducible assumption) (f_ldr : F .ldr = true := by with_reducible assumption) (f_fab : F .fab = true := by with_reducible assumption) : Keeps F s₀ (State.hotReset s port) := by
  unfold State.hotReset
  repeat' first
    | with_reducible assumption
    | with_reducible apply State.abortPortWork_keeps
    | with_reducible apply State.dropDir_keeps
    | with_reducible apply State.dropHeld_keeps
    | with_reducible apply State.onPort_keeps
    | intro _
    | with_reducible apply Keeps.ite
    | split
    | dsimp only

theorem State.abandonWork_keeps {F : Part → Bool} {s₀ : State} {s : State} (h : Keeps F s₀ s) (f_baus : F .baus = true := by with_reducible assumption) (f_seqs : F .seqs = true := by with_reducible assumption) (f_cores : F .cores = true := by with_reducible assumption) (f_kept : F .kept = true := by with_reducible assumption) (f_kv : F .kv = true := by with_reducible assumption) (f_fab : F .fab = true := by with_reducible assumption) : Keeps F s₀ (State.abandonWork s) := by
  unfold State.abandonWork
  repeat' first
    | with_reducible assumption
    | with_reducible apply Keeps.foldl
    | with_reducible apply State.freeBuffer_keeps
    | with_reducible apply State.onFab_keeps
    | with_reducible apply State.onKv_keeps
    | intro _
    | with_reducible apply Keeps.ite
    | split
    | with_reducible apply Keeps.baus_set
    | with_reducible apply Keeps.cores_set
    | with_reducible apply Keeps.kept_set
    | with_reducible apply Keeps.seqs_set
    | with_reducible exact Or.inr rfl
    | exact Or.inl (by with_reducible assumption)
    | with_reducible apply Keeps.several
    | dsimp only

theorem State.taskFault_keeps {F : Part → Bool} {s₀ : State} {s : State} {id d c : Nat} (h : Keeps F s₀ s) (f_mem : F .mem = true := by with_reducible assumption) (f_cores : F .cores = true := by with_reducible assumption) : Keeps F s₀ (State.taskFault s id d c) := by
  unfold State.taskFault
  repeat' first
    | with_reducible assumption
    | with_reducible apply State.stopCore_keeps
    | intro _
    | with_reducible apply Keeps.ite
    | split
    | dsimp only

end Sys2Proof.Machine
end

