-- ==== Sys2Proof/Laws/KeepsBoot.lean ====
section
/-! SUPPORT. The operations of Machine/Boot.lean undo nothing (Laws/Keeps.lean). -/

set_option Elab.async false
set_option linter.unusedTactic false
set_option linter.unreachableTactic false
set_option linter.unusedVariables false

namespace Sys2Proof.Machine

open Sys2Proof

theorem State.stepDone_keeps {F : Part → Bool} {s₀ : State} {s : State} {n : Nat} (h : Keeps F s₀ s) (f_boot : F .boot = true := by with_reducible assumption) : Keeps F s₀ (State.stepDone s n) := by
  unfold State.stepDone
  repeat' first
    | with_reducible assumption
    | with_reducible apply State.onBoot_keeps
    | intro _
    | with_reducible apply Keeps.ite
    | split
    | dsimp only

theorem State.initStack_keeps {F : Part → Bool} {s₀ : State} {s : State} {stk : Nat} {t : StackTest} (h : Keeps F s₀ s) (f_mem : F .mem = true := by with_reducible assumption) (f_stackMap : F .stackMap = true := by with_reducible assumption) : Keeps F s₀ (State.initStack s stk t) := by
  unfold State.initStack
  repeat' first
    | with_reducible assumption
    | with_reducible apply State.onMem_keeps
    | exact Memory.wf_same (by with_reducible rfl) (by with_reducible rfl)
    | with_reducible apply State.setStack_keeps
    | exact fun w => Memory.wf_iff.2 ⟨mwf_filter (Memory.wf_iff.1 w).1, risingNat_filter (Memory.wf_iff.1 w).2⟩
    | intro _
    | with_reducible apply Keeps.ite
    | split
    | dsimp only

theorem State.enterRecovery_keeps {F : Part → Bool} {s₀ : State} {s : State} {trusted : Bool} (h : Keeps F s₀ s) (f_power : F .power = true := by with_reducible assumption) (f_boot : F .boot = true := by with_reducible assumption) (f_cfg : F .cfg = true := by with_reducible assumption) (f_mem : F .mem = true := by with_reducible assumption) (f_stackMap : F .stackMap = true := by with_reducible assumption) : Keeps F s₀ (State.enterRecovery s trusted) := by
  unfold State.enterRecovery
  repeat' first
    | with_reducible assumption
    | with_reducible apply Keeps.foldl
    | with_reducible apply State.initStack_keeps
    | with_reducible apply State.onBoot_keeps
    | with_reducible apply State.onPower_keeps
    | intro _
    | with_reducible apply Keeps.ite
    | split
    | with_reducible apply Keeps.cfg_set
    | dsimp only

theorem execBootFirmwareVerify_good {F : Part → Bool} {sigOk : Bool} {s : State} (f_power : F .power = true := by with_reducible assumption) (f_boot : F .boot = true := by with_reducible assumption) (f_cfg : F .cfg = true := by with_reducible assumption) (f_mem : F .mem = true := by with_reducible assumption) (f_stackMap : F .stackMap = true := by with_reducible assumption) : Good F s (execBootFirmwareVerify sigOk s) := by
  unfold execBootFirmwareVerify
  repeat' first
    | with_reducible assumption
    | with_reducible apply State.enterRecovery_keeps
    | with_reducible apply State.onBoot_keeps
    | with_reducible apply State.stepDone_keeps
    | with_reducible apply State.whenP_keeps
    | with_reducible apply Good.next
    | with_reducible exact Keeps.rfl
    | intro _
    | with_reducible apply Keeps.ite
    | split
    | dsimp only

theorem State.applyEntry_keeps {F : Part → Bool} {s₀ s : State} {e : Entry} (h : Keeps F s₀ s) (f_power : F .power = true := by with_reducible assumption) (f_regs : F .regs = true := by with_reducible assumption) : Keeps F s₀ (s.applyEntry e) := by
  cases e
  all_goals rw [State.applyEntry]
  repeat' first
    | with_reducible assumption
    | with_reducible apply Keeps.foldl
    | with_reducible apply State.onPower_keeps
    | with_reducible apply State.setFld_keeps
    | with_reducible apply State.setReg_keeps
    | intro _
    | with_reducible apply Keeps.ite
    | split
    | dsimp only


theorem State.lockBoot_keeps {F : Part → Bool} {s₀ : State} {s : State} (h : Keeps F s₀ s) (f_power : F .power = true := by with_reducible assumption) (f_boot : F .boot = true := by with_reducible assumption) : Keeps F s₀ (State.lockBoot s) := by
  unfold State.lockBoot
  repeat' first
    | with_reducible assumption
    | with_reducible apply State.drivePin_keeps
    | with_reducible apply State.onBoot_keeps
    | with_reducible apply State.stepDone_keeps
    | intro _
    | with_reducible apply Keeps.ite
    | split
    | dsimp only

theorem State.refuseConfig_keeps {F : Part → Bool} {s₀ : State} {s : State} {code : Nat} (h : Keeps F s₀ s) (f_free : F .free = true := by with_reducible assumption) (f_power : F .power = true := by with_reducible assumption) (f_boot : F .boot = true := by with_reducible assumption) (f_fcu : F .fcu = true := by with_reducible assumption) (f_regs : F .regs = true := by with_reducible assumption) : Keeps F s₀ (State.refuseConfig s code) := by
  unfold State.refuseConfig
  repeat' first
    | with_reducible assumption
    | with_reducible apply Keeps.foldl
    | with_reducible apply State.fresh_keeps
    | refine State.fresh_keeps_of ?_ (by with_reducible assumption)
    | with_reducible apply State.lockBoot_keeps
    | with_reducible apply State.onBoot_keeps
    | with_reducible apply State.refused_keeps
    | with_reducible apply State.setFld_keeps
    | with_reducible apply State.toFlashLog_keeps
    | intro _
    | with_reducible apply Keeps.ite
    | split
    | dsimp only

theorem State.blowOwner_keeps {F : Part → Bool} {s₀ : State} {s : State} {r : Record} (h : Keeps F s₀ s) (f_fuses : F .fuses = true := by with_reducible assumption) : Keeps F s₀ (State.blowOwner s r) := by
  unfold State.blowOwner
  repeat' first
    | with_reducible assumption
    | intro _
    | with_reducible apply Keeps.ite
    | split
    | refine Keeps.fuse ?_ (Fuses.Burns.owner (by assumption)) (by with_reducible assumption)
    | dsimp only

theorem execConfigLoad_good {F : Part → Bool} {sigOk : Bool} {s : State} (f_free : F .free = true := by with_reducible assumption) (f_power : F .power = true := by with_reducible assumption) (f_fuses : F .fuses = true := by with_reducible assumption) (f_boot : F .boot = true := by with_reducible assumption) (f_fcu : F .fcu = true := by with_reducible assumption) (f_cfg : F .cfg = true := by with_reducible assumption) (f_regs : F .regs = true := by with_reducible assumption) : Good F s (execConfigLoad sigOk s) := by
  unfold execConfigLoad
  repeat' first
    | with_reducible assumption
    | with_reducible apply Keeps.foldl
    | with_reducible apply State.applyEntry_keeps
    | with_reducible apply State.blowOwner_keeps
    | with_reducible apply State.lockBoot_keeps
    | with_reducible apply State.onBoot_keeps
    | with_reducible apply State.refuseConfig_keeps
    | with_reducible apply State.whenP_keeps
    | with_reducible apply Good.next
    | with_reducible exact Keeps.rfl
    | intro _
    | with_reducible apply Keeps.ite
    | split
    | with_reducible apply Keeps.cfg_set
    | dsimp only

theorem execLaserStart_good {F : Part → Bool} {s : State} (f_boot : F .boot = true := by with_reducible assumption) : Good F s (execLaserStart s) := by
  unfold execLaserStart
  repeat' first
    | with_reducible assumption
    | with_reducible apply State.onBoot_keeps
    | with_reducible apply State.refused_keeps
    | with_reducible apply State.stepDone_keeps
    | with_reducible apply State.whenP_keeps
    | with_reducible apply Good.next
    | with_reducible exact Keeps.rfl
    | intro _
    | with_reducible apply Keeps.ite
    | split
    | dsimp only

theorem execLaserLock_good {F : Part → Bool} {s : State} (f_sent : F .sent = true := by with_reducible assumption) (f_boot : F .boot = true := by with_reducible assumption) (f_fab : F .fab = true := by with_reducible assumption) : Good F s (execLaserLock s) := by
  unfold execLaserLock
  repeat' first
    | with_reducible assumption
    | with_reducible apply Keeps.foldl
    | with_reducible apply State.onBoot_keeps
    | with_reducible apply State.stepDone_keeps
    | with_reducible apply State.trainPort_keeps
    | with_reducible apply State.whenP_keeps
    | with_reducible apply Good.next
    | with_reducible exact Keeps.rfl
    | intro _
    | with_reducible apply Keeps.ite
    | split
    | dsimp only

theorem execStackInit_good {F : Part → Bool} {stk : Nat} {found : StackTest} {s : State} (f_flash : F .flash = true := by with_reducible assumption) (f_boot : F .boot = true := by with_reducible assumption) (f_fcu : F .fcu = true := by with_reducible assumption) (f_regs : F .regs = true := by with_reducible assumption) (f_mem : F .mem = true := by with_reducible assumption) (f_stackMap : F .stackMap = true := by with_reducible assumption) : Good F s (execStackInit stk found s) := by
  unfold execStackInit
  repeat' first
    | with_reducible assumption
    | with_reducible apply Keeps.foldl
    | with_reducible apply State.initStack_keeps
    | with_reducible apply State.raise_keeps
    | with_reducible apply State.refused_keeps
    | with_reducible apply State.repairWire_keeps
    | with_reducible apply State.stepDone_keeps
    | with_reducible apply State.whenP_keeps
    | with_reducible apply Good.next
    | with_reducible exact Keeps.rfl
    | intro _
    | with_reducible apply Keeps.ite
    | split
    | dsimp only

theorem State.initFrames_keeps {F : Part → Bool} {s₀ : State} {s : State} (h : Keeps F s₀ s) (f_mem : F .mem = true := by with_reducible assumption) : Keeps F s₀ (State.initFrames s) := by
  unfold State.initFrames
  repeat' first
    | with_reducible assumption
    | with_reducible apply Keeps.foldl
    | with_reducible apply State.setFd_keeps
    | intro _
    | with_reducible apply Keeps.ite
    | split
    | dsimp only

theorem execEnterReady_good {F : Part → Bool} {s : State} (f_power : F .power = true := by with_reducible assumption) (f_boot : F .boot = true := by with_reducible assumption) (f_mem : F .mem = true := by with_reducible assumption) (f_ports : F .ports = true := by with_reducible assumption) : Good F s (execEnterReady s) := by
  unfold execEnterReady
  repeat' first
    | with_reducible assumption
    | with_reducible apply Keeps.foldl
    | with_reducible apply State.initFrames_keeps
    | with_reducible apply State.onPort_keeps
    | with_reducible apply State.onPower_keeps
    | with_reducible apply State.stepDone_keeps
    | with_reducible apply State.whenP_keeps
    | with_reducible apply Good.next
    | with_reducible exact Keeps.rfl
    | intro _
    | with_reducible apply Keeps.ite
    | split
    | dsimp only

end Sys2Proof.Machine
end

