-- ==== Sys2Proof/Laws/KeepsCollOps.lean ====
section
/-! SUPPORT. The operations of Machine/CollOps.lean undo nothing (Laws/Keeps.lean). -/

set_option Elab.async false
set_option linter.unusedTactic false
set_option linter.unreachableTactic false
set_option linter.unusedVariables false

namespace Sys2Proof.Machine

open Sys2Proof

theorem State.collWrite_keeps {F : Part → Bool} {s₀ : State} {s : State} {c : Coll} {k : Nat} {ws : List Nat} (h : Keeps F s₀ s) (f_mem : F .mem = true := by with_reducible assumption) : Keeps F s₀ (State.collWrite s c k ws) := by
  unfold State.collWrite
  repeat' first
    | with_reducible assumption
    | with_reducible apply BauRun.op_keeps
    | with_reducible apply State.writeBytes_keeps
    | intro _
    | with_reducible apply Keeps.ite
    | split
    | dsimp only

theorem State.sendColl_keeps {F : Part → Bool} {s₀ : State} {s : State} {c : Coll} {whom opt chunk first n : Nat} {data : List Byte} (h : Keeps F s₀ s) (f_free : F .free = true := by with_reducible assumption) (f_sent : F .sent = true := by with_reducible assumption) (f_fab : F .fab = true := by with_reducible assumption) : Keeps F s₀ (State.sendColl s c whom opt chunk first n data) := by
  unfold State.sendColl
  repeat' first
    | with_reducible assumption
    | with_reducible apply State.sendFrame_keeps
    | intro _
    | with_reducible apply Keeps.ite
    | split
    | dsimp only

theorem State.sendParts_keeps {F : Part → Bool} {s₀ s : State} {c : Coll} {e k n first : Nat} {ws : List Nat} (h : Keeps F s₀ s) (f_free : F .free = true := by with_reducible assumption) (f_sent : F .sent = true := by with_reducible assumption) (f_fab : F .fab = true := by with_reducible assumption) : Keeps F s₀ (s.sendParts c e k n first ws) := by
  induction n generalizing s first ws with
  | zero => exact h
  | succ n ih =>
    rw [State.sendParts]
    repeat' first
      | with_reducible assumption
      | with_reducible apply State.sendColl_keeps
      | with_reducible apply ih
      | intro _
      | with_reducible apply Keeps.ite
      | split
      | dsimp only


theorem State.sendChunk_keeps {F : Part → Bool} {s₀ : State} {s : State} {c : Coll} (h : Keeps F s₀ s) (f_free : F .free = true := by with_reducible assumption) (f_sent : F .sent = true := by with_reducible assumption) (f_fab : F .fab = true := by with_reducible assumption) : Keeps F s₀ (State.sendChunk s c) := by
  unfold State.sendChunk
  repeat' first
    | with_reducible assumption
    | with_reducible apply State.sendParts_keeps
    | intro _
    | with_reducible apply Keeps.ite
    | split
    | dsimp only

theorem State.onColl_keeps {F : Part → Bool} {s₀ : State} {s : State} {c : Coll} {f : Coll → Coll} (h : Keeps F s₀ s) (f_fab : F .fab = true := by with_reducible assumption) : Keeps F s₀ (State.onColl s c f) := by
  unfold State.onColl
  repeat' first
    | with_reducible assumption
    | with_reducible apply State.onFab_keeps
    | intro _
    | with_reducible apply Keeps.ite
    | split
    | dsimp only

theorem State.reportColl_keeps {F : Part → Bool} {s₀ : State} {s : State} {c : Coll} {status reason : Nat} (h : Keeps F s₀ s) (f_free : F .free = true := by with_reducible assumption) (f_sent : F .sent = true := by with_reducible assumption) (f_power : F .power = true := by with_reducible assumption) (f_regs : F .regs = true := by with_reducible assumption) (f_mem : F .mem = true := by with_reducible assumption) (f_ports : F .ports = true := by with_reducible assumption) (f_notices : F .notices = true := by with_reducible assumption) (f_kept : F .kept = true := by with_reducible assumption) (f_fab : F .fab = true := by with_reducible assumption) : Keeps F s₀ (State.reportColl s c status reason) := by
  unfold State.reportColl
  repeat' first
    | with_reducible assumption
    | with_reducible apply State.replyIf_keeps
    | with_reducible apply State.writeBytes_keeps
    | intro _
    | with_reducible apply Keeps.ite
    | split
    | dsimp only

theorem State.endColl_keeps {F : Part → Bool} {s₀ : State} {s : State} {c : Coll} {status reason : Nat} (h : Keeps F s₀ s) (f_free : F .free = true := by with_reducible assumption) (f_sent : F .sent = true := by with_reducible assumption) (f_power : F .power = true := by with_reducible assumption) (f_regs : F .regs = true := by with_reducible assumption) (f_mem : F .mem = true := by with_reducible assumption) (f_ports : F .ports = true := by with_reducible assumption) (f_notices : F .notices = true := by with_reducible assumption) (f_kept : F .kept = true := by with_reducible assumption) (f_fab : F .fab = true := by with_reducible assumption) : Keeps F s₀ (State.endColl s c status reason) := by
  unfold State.endColl
  repeat' first
    | with_reducible assumption
    | with_reducible apply State.onFab_keeps
    | with_reducible apply State.reportColl_keeps
    | intro _
    | with_reducible apply Keeps.ite
    | split
    | dsimp only

theorem State.sendAborts_keeps {F : Part → Bool} {s₀ : State} {s : State} {c : Coll} {whom : List Nat} (h : Keeps F s₀ s) (f_free : F .free = true := by with_reducible assumption) (f_sent : F .sent = true := by with_reducible assumption) (f_fab : F .fab = true := by with_reducible assumption) : Keeps F s₀ (State.sendAborts s c whom) := by
  unfold State.sendAborts
  repeat' first
    | with_reducible assumption
    | with_reducible apply Keeps.foldl
    | with_reducible apply State.sendColl_keeps
    | intro _
    | with_reducible apply Keeps.ite
    | split
    | dsimp only

theorem State.startGather_keeps {F : Part → Bool} {s₀ : State} {s : State} {c : Coll} {ws : List Nat} (h : Keeps F s₀ s) (f_free : F .free = true := by with_reducible assumption) (f_sent : F .sent = true := by with_reducible assumption) (f_power : F .power = true := by with_reducible assumption) (f_regs : F .regs = true := by with_reducible assumption) (f_mem : F .mem = true := by with_reducible assumption) (f_ports : F .ports = true := by with_reducible assumption) (f_notices : F .notices = true := by with_reducible assumption) (f_kept : F .kept = true := by with_reducible assumption) (f_fab : F .fab = true := by with_reducible assumption) : Keeps F s₀ (State.startGather s c ws) := by
  unfold State.startGather
  repeat' first
    | with_reducible assumption
    | with_reducible apply State.collWrite_keeps
    | with_reducible apply State.endColl_keeps
    | with_reducible apply State.onColl_keeps
    | with_reducible apply State.sendChunk_keeps
    | intro _
    | with_reducible apply Keeps.ite
    | split
    | dsimp only

theorem State.endReduce_keeps {F : Part → Bool} {s₀ : State} {s : State} {c : Coll} {ws : List Nat} (h : Keeps F s₀ s) (f_free : F .free = true := by with_reducible assumption) (f_sent : F .sent = true := by with_reducible assumption) (f_power : F .power = true := by with_reducible assumption) (f_regs : F .regs = true := by with_reducible assumption) (f_mem : F .mem = true := by with_reducible assumption) (f_ports : F .ports = true := by with_reducible assumption) (f_notices : F .notices = true := by with_reducible assumption) (f_kept : F .kept = true := by with_reducible assumption) (f_fab : F .fab = true := by with_reducible assumption) : Keeps F s₀ (State.endReduce s c ws) := by
  unfold State.endReduce
  repeat' first
    | with_reducible assumption
    | with_reducible apply State.collWrite_keeps
    | with_reducible apply State.endColl_keeps
    | with_reducible apply BauRun.op_keeps
    | with_reducible apply State.startGather_keeps
    | intro _
    | with_reducible apply Keeps.ite
    | split
    | dsimp only

theorem State.chunkDone_keeps {F : Part → Bool} {s₀ : State} {s : State} {c : Coll} (h : Keeps F s₀ s) (f_free : F .free = true := by with_reducible assumption) (f_sent : F .sent = true := by with_reducible assumption) (f_power : F .power = true := by with_reducible assumption) (f_regs : F .regs = true := by with_reducible assumption) (f_mem : F .mem = true := by with_reducible assumption) (f_ports : F .ports = true := by with_reducible assumption) (f_notices : F .notices = true := by with_reducible assumption) (f_kept : F .kept = true := by with_reducible assumption) (f_fab : F .fab = true := by with_reducible assumption) : Keeps F s₀ (State.chunkDone s c) := by
  unfold State.chunkDone
  repeat' first
    | with_reducible assumption
    | with_reducible apply State.collWrite_keeps
    | with_reducible apply State.endColl_keeps
    | with_reducible apply State.endReduce_keeps
    | with_reducible apply State.onColl_keeps
    | with_reducible apply State.sendChunk_keeps
    | intro _
    | with_reducible apply Keeps.ite
    | split
    | dsimp only

theorem State.mergeDone_keeps {F : Part → Bool} {s₀ : State} {s : State} {c : Coll} (h : Keeps F s₀ s) (f_free : F .free = true := by with_reducible assumption) (f_sent : F .sent = true := by with_reducible assumption) (f_power : F .power = true := by with_reducible assumption) (f_regs : F .regs = true := by with_reducible assumption) (f_mem : F .mem = true := by with_reducible assumption) (f_ports : F .ports = true := by with_reducible assumption) (f_notices : F .notices = true := by with_reducible assumption) (f_kept : F .kept = true := by with_reducible assumption) (f_fab : F .fab = true := by with_reducible assumption) : Keeps F s₀ (State.mergeDone s c) := by
  unfold State.mergeDone
  repeat' first
    | with_reducible assumption
    | with_reducible apply State.endColl_keeps
    | with_reducible apply State.sendColl_keeps
    | with_reducible apply State.writeBytes_keeps
    | intro _
    | with_reducible apply Keeps.ite
    | split
    | dsimp only

theorem State.takeColl_keeps {F : Part → Bool} {s₀ : State} {s : State} {c : Coll} {f : List Byte} (h : Keeps F s₀ s) (f_free : F .free = true := by with_reducible assumption) (f_sent : F .sent = true := by with_reducible assumption) (f_power : F .power = true := by with_reducible assumption) (f_regs : F .regs = true := by with_reducible assumption) (f_mem : F .mem = true := by with_reducible assumption) (f_ports : F .ports = true := by with_reducible assumption) (f_notices : F .notices = true := by with_reducible assumption) (f_kept : F .kept = true := by with_reducible assumption) (f_fab : F .fab = true := by with_reducible assumption) : Keeps F s₀ (State.takeColl s c f) := by
  unfold State.takeColl
  repeat' first
    | with_reducible assumption
    | with_reducible apply State.chunkDone_keeps
    | with_reducible apply State.endColl_keeps
    | with_reducible apply State.mergeDone_keeps
    | with_reducible apply State.onColl_keeps
    | with_reducible apply BauRun.op_keeps
    | with_reducible apply State.sendAborts_keeps
    | intro _
    | with_reducible apply Keeps.ite
    | split
    | dsimp only

theorem State.drainColl_keeps {F : Part → Bool} {s₀ s : State} {d n : Nat} (h : Keeps F s₀ s) (f_free : F .free = true := by with_reducible assumption) (f_sent : F .sent = true := by with_reducible assumption) (f_power : F .power = true := by with_reducible assumption) (f_regs : F .regs = true := by with_reducible assumption) (f_mem : F .mem = true := by with_reducible assumption) (f_ports : F .ports = true := by with_reducible assumption) (f_notices : F .notices = true := by with_reducible assumption) (f_kept : F .kept = true := by with_reducible assumption) (f_fab : F .fab = true := by with_reducible assumption) : Keeps F s₀ (s.drainColl d n) := by
  induction n generalizing s with
  | zero => exact h
  | succ n ih =>
    rw [State.drainColl]
    repeat' first
      | with_reducible assumption
      | with_reducible apply State.freeBuffer_keeps
      | with_reducible apply State.onFab_keeps
      | with_reducible apply State.takeColl_keeps
      | with_reducible apply ih
      | intro _
      | with_reducible apply Keeps.ite
      | split
      | dsimp only


theorem State.recvColl_keeps {F : Part → Bool} {s₀ : State} {s : State} {d : Nat} {f : List Byte} {from_ : Option (Nat × Nat × Nat)} (h : Keeps F s₀ s) (f_free : F .free = true := by with_reducible assumption) (f_sent : F .sent = true := by with_reducible assumption) (f_power : F .power = true := by with_reducible assumption) (f_regs : F .regs = true := by with_reducible assumption) (f_mem : F .mem = true := by with_reducible assumption) (f_ports : F .ports = true := by with_reducible assumption) (f_notices : F .notices = true := by with_reducible assumption) (f_kept : F .kept = true := by with_reducible assumption) (f_fab : F .fab = true := by with_reducible assumption) : Keeps F s₀ (State.recvColl s d f from_) := by
  unfold State.recvColl
  repeat' first
    | with_reducible assumption
    | with_reducible apply State.drainColl_keeps
    | with_reducible apply State.onFab_keeps
    | intro _
    | with_reducible apply Keeps.ite
    | split
    | dsimp only

theorem State.runColl_keeps {F : Part → Bool} {s₀ : State} {s : State} {c : Coll} (h : Keeps F s₀ s) (f_free : F .free = true := by with_reducible assumption) (f_sent : F .sent = true := by with_reducible assumption) (f_power : F .power = true := by with_reducible assumption) (f_regs : F .regs = true := by with_reducible assumption) (f_mem : F .mem = true := by with_reducible assumption) (f_ports : F .ports = true := by with_reducible assumption) (f_notices : F .notices = true := by with_reducible assumption) (f_kept : F .kept = true := by with_reducible assumption) (f_fab : F .fab = true := by with_reducible assumption) : Keeps F s₀ (State.runColl s c) := by
  unfold State.runColl
  repeat' first
    | with_reducible assumption
    | with_reducible apply State.drainColl_keeps
    | with_reducible apply State.endReduce_keeps
    | with_reducible apply State.mergeDone_keeps
    | with_reducible apply State.onFab_keeps
    | with_reducible apply BauRun.op_keeps
    | with_reducible apply State.sendChunk_keeps
    | with_reducible apply State.startGather_keeps
    | intro _
    | with_reducible apply Keeps.ite
    | split
    | dsimp only

theorem State.startColl_keeps {F : Part → Bool} {s₀ : State} {s : State} {d slot op : Nat} (h : Keeps F s₀ s) (f_free : F .free = true := by with_reducible assumption) (f_sent : F .sent = true := by with_reducible assumption) (f_power : F .power = true := by with_reducible assumption) (f_regs : F .regs = true := by with_reducible assumption) (f_mem : F .mem = true := by with_reducible assumption) (f_ports : F .ports = true := by with_reducible assumption) (f_notices : F .notices = true := by with_reducible assumption) (f_kept : F .kept = true := by with_reducible assumption) (f_fab : F .fab = true := by with_reducible assumption) : Keeps F s₀ (State.startColl s d slot op) := by
  unfold State.startColl
  repeat' first
    | with_reducible assumption
    | with_reducible apply State.emptySlot_keeps
    | with_reducible apply State.mapErr_keeps
    | with_reducible apply BauRun.op_keeps
    | with_reducible apply State.reportColl_keeps
    | with_reducible apply State.runColl_keeps
    | with_reducible apply State.withMem_keeps
    | intro _
    | with_reducible apply Keeps.ite
    | split
    | dsimp only

end Sys2Proof.Machine
end

