-- ==== Sys2Proof/Laws/KeepsLaneOps.lean ====
section
/-! SUPPORT. The operations of Machine/LaneOps.lean undo nothing (Laws/Keeps.lean). -/

set_option Elab.async false
set_option linter.unusedTactic false
set_option linter.unreachableTactic false
set_option linter.unusedVariables false

namespace Sys2Proof.Machine

open Sys2Proof

theorem State.resendFlits_keeps {F : Part → Bool} {s₀ : State} {s : State} {p : Nat} (h : Keeps F s₀ s) (f_sent : F .sent = true := by with_reducible assumption) : Keeps F s₀ (State.resendFlits s p) := by
  unfold State.resendFlits
  repeat' first
    | with_reducible assumption
    | with_reducible apply Keeps.foldl
    | with_reducible apply State.send_keeps
    | intro _
    | with_reducible apply Keeps.ite
    | split
    | dsimp only

theorem State.replayPort_keeps {F : Part → Bool} {s₀ : State} {s : State} {p : Nat} (h : Keeps F s₀ s) (f_sent : F .sent = true := by with_reducible assumption) (f_regs : F .regs = true := by with_reducible assumption) (f_fab : F .fab = true := by with_reducible assumption) : Keeps F s₀ (State.replayPort s p) := by
  unfold State.replayPort
  repeat' first
    | with_reducible assumption
    | with_reducible apply State.oeCount_keeps
    | with_reducible apply State.onFPort_keeps
    | with_reducible apply State.resendFlits_keeps
    | with_reducible apply State.retrainPort_keeps
    | intro _
    | with_reducible apply Keeps.ite
    | split
    | dsimp only

theorem State.sendNak_keeps {F : Part → Bool} {s₀ : State} {s : State} {p : Nat} (h : Keeps F s₀ s) (f_sent : F .sent = true := by with_reducible assumption) (f_fab : F .fab = true := by with_reducible assumption) : Keeps F s₀ (State.sendNak s p) := by
  unfold State.sendNak
  repeat' first
    | with_reducible assumption
    | with_reducible apply State.onFPort_keeps
    | with_reducible apply State.sendFlit_keeps
    | intro _
    | with_reducible apply Keeps.ite
    | split
    | dsimp only

theorem State.takeAck_keeps {F : Part → Bool} {s₀ : State} {s : State} {p ack : Nat} {nak : Bool} (h : Keeps F s₀ s) (f_sent : F .sent = true := by with_reducible assumption) (f_regs : F .regs = true := by with_reducible assumption) (f_fab : F .fab = true := by with_reducible assumption) : Keeps F s₀ (State.takeAck s p ack nak) := by
  unfold State.takeAck
  repeat' first
    | with_reducible assumption
    | with_reducible apply State.onFPort_keeps
    | with_reducible apply State.replayPort_keeps
    | intro _
    | with_reducible apply Keeps.ite
    | split
    | dsimp only

theorem State.portUp_keeps {F : Part → Bool} {s₀ : State} {s : State} {p : Nat} (h : Keeps F s₀ s) (f_sent : F .sent = true := by with_reducible assumption) (f_fab : F .fab = true := by with_reducible assumption) : Keeps F s₀ (State.portUp s p) := by
  unfold State.portUp
  repeat' first
    | with_reducible assumption
    | with_reducible apply State.onFPort_keeps
    | with_reducible apply State.onFab_keeps
    | with_reducible apply State.pumpAll_keeps
    | with_reducible apply State.queueFrame_keeps
    | intro _
    | with_reducible apply Keeps.ite
    | split
    | dsimp only

theorem State.tryUp_keeps {F : Part → Bool} {s₀ : State} {s : State} {p : Nat} (h : Keeps F s₀ s) (f_sent : F .sent = true := by with_reducible assumption) (f_fab : F .fab = true := by with_reducible assumption) : Keeps F s₀ (State.tryUp s p) := by
  unfold State.tryUp
  repeat' first
    | with_reducible assumption
    | with_reducible apply State.portUp_keeps
    | intro _
    | with_reducible apply Keeps.ite
    | split
    | dsimp only

theorem State.sendTs2_keeps {F : Part → Bool} {s₀ : State} {s : State} {p : Nat} (h : Keeps F s₀ s) (f_sent : F .sent = true := by with_reducible assumption) : Keeps F s₀ (State.sendTs2 s p) := by
  unfold State.sendTs2
  repeat' first
    | with_reducible assumption
    | with_reducible apply State.sendBlocks_keeps
    | intro _
    | with_reducible apply Keeps.ite
    | split
    | dsimp only

theorem State.answerTs1_keeps {F : Part → Bool} {s₀ : State} {s : State} {p e n : Nat} (h : Keeps F s₀ s) (f_free : F .free = true := by with_reducible assumption) (f_sent : F .sent = true := by with_reducible assumption) (f_fab : F .fab = true := by with_reducible assumption) : Keeps F s₀ (State.answerTs1 s p e n) := by
  unfold State.answerTs1
  repeat' first
    | with_reducible assumption
    | with_reducible apply State.fresh_keeps
    | refine State.fresh_keeps_of ?_ (by with_reducible assumption)
    | with_reducible apply State.onFPort_keeps
    | with_reducible apply State.sendTs1_keeps
    | with_reducible apply State.sendTs2_keeps
    | intro _
    | with_reducible apply Keeps.ite
    | split
    | dsimp only

theorem State.failLane_keeps {F : Part → Bool} {s₀ : State} {s : State} {e n : Nat} (h : Keeps F s₀ s) (f_fab : F .fab = true := by with_reducible assumption) : Keeps F s₀ (State.failLane s e n) := by
  unfold State.failLane
  repeat' first
    | with_reducible assumption
    | with_reducible apply State.onLane_keeps
    | intro _
    | with_reducible apply Keeps.ite
    | split
    | dsimp only

theorem State.narrowPort_keeps {F : Part → Bool} {s₀ : State} {s : State} {p e logical : Nat} (h : Keeps F s₀ s) (f_sent : F .sent = true := by with_reducible assumption) (f_flash : F .flash = true := by with_reducible assumption) (f_fcu : F .fcu = true := by with_reducible assumption) (f_regs : F .regs = true := by with_reducible assumption) (f_ports : F .ports = true := by with_reducible assumption) (f_fab : F .fab = true := by with_reducible assumption) : Keeps F s₀ (State.narrowPort s p e logical) := by
  unfold State.narrowPort
  repeat' first
    | with_reducible assumption
    | with_reducible apply State.linkLost_keeps
    | with_reducible apply State.onFPort_keeps
    | with_reducible apply State.onPort_keeps
    | with_reducible apply State.raise_keeps
    | with_reducible apply State.retrainPort_keeps
    | intro _
    | with_reducible apply Keeps.ite
    | split
    | dsimp only

theorem State.requestSwap_keeps {F : Part → Bool} {s₀ : State} {s : State} {p e logical old spare reason : Nat} (h : Keeps F s₀ s) (f_sent : F .sent = true := by with_reducible assumption) (f_flash : F .flash = true := by with_reducible assumption) (f_fcu : F .fcu = true := by with_reducible assumption) (f_regs : F .regs = true := by with_reducible assumption) (f_fab : F .fab = true := by with_reducible assumption) : Keeps F s₀ (State.requestSwap s p e logical old spare reason) := by
  unfold State.requestSwap
  repeat' first
    | with_reducible assumption
    | with_reducible apply Keeps.foldl
    | with_reducible apply State.nextEpoch_keeps
    | with_reducible apply State.onFPort_keeps
    | with_reducible apply State.raise_keeps
    | with_reducible apply State.send_keeps
    | intro _
    | with_reducible apply Keeps.ite
    | split
    | dsimp only

theorem State.repairPort_keeps {F : Part → Bool} {s₀ : State} {s : State} {p : Nat} (h : Keeps F s₀ s) (f_sent : F .sent = true := by with_reducible assumption) (f_flash : F .flash = true := by with_reducible assumption) (f_fcu : F .fcu = true := by with_reducible assumption) (f_regs : F .regs = true := by with_reducible assumption) (f_ports : F .ports = true := by with_reducible assumption) (f_fab : F .fab = true := by with_reducible assumption) : Keeps F s₀ (State.repairPort s p) := by
  unfold State.repairPort
  repeat' first
    | with_reducible assumption
    | with_reducible apply State.narrowPort_keeps
    | with_reducible apply State.onEngine_keeps
    | with_reducible apply State.requestSwap_keeps
    | intro _
    | with_reducible apply Keeps.ite
    | split
    | dsimp only

theorem State.swapped_keeps {F : Part → Bool} {s₀ : State} {s : State} {p e logical spare : Nat} (h : Keeps F s₀ s) (f_sent : F .sent = true := by with_reducible assumption) (f_regs : F .regs = true := by with_reducible assumption) (f_fab : F .fab = true := by with_reducible assumption) : Keeps F s₀ (State.swapped s p e logical spare) := by
  unfold State.swapped
  repeat' first
    | with_reducible assumption
    | with_reducible apply State.mapLane_keeps
    | with_reducible apply State.oeCount_keeps
    | with_reducible apply State.send_keeps
    | intro _
    | with_reducible apply Keeps.ite
    | split
    | dsimp only

end Sys2Proof.Machine
end

