-- ==== Sys2Proof/Laws/KeepsCaravanOps.lean ====
section
/-! SUPPORT. The operations of Machine/CaravanOps.lean undo nothing (Laws/Keeps.lean). -/

set_option Elab.async false
set_option linter.unusedTactic false
set_option linter.unreachableTactic false
set_option linter.unusedVariables false

namespace Sys2Proof.Machine

open Sys2Proof

theorem State.respond_keeps {F : Part → Bool} {s₀ : State} {s : State} {f : List Byte} {status : Nat} (h : Keeps F s₀ s) (f_free : F .free = true := by with_reducible assumption) (f_sent : F .sent = true := by with_reducible assumption) (f_fab : F .fab = true := by with_reducible assumption) : Keeps F s₀ (State.respond s f status) := by
  unfold State.respond
  repeat' first
    | with_reducible assumption
    | with_reducible apply State.sendFrame_keeps
    | intro _
    | with_reducible apply Keeps.ite
    | split
    | dsimp only

theorem State.heldWork_keeps {F : Part → Bool} {s₀ : State} {s : State} (h : Keeps F s₀ s) (f_power : F .power = true := by with_reducible assumption) : Keeps F s₀ (State.heldWork s) := by
  unfold State.heldWork
  repeat' first
    | with_reducible assumption
    | with_reducible apply State.onPower_keeps
    | intro _
    | with_reducible apply Keeps.ite
    | split
    | dsimp only

theorem State.recvMemory_keeps {F : Part → Bool} {s₀ : State} {s : State} {f : List Byte} (h : Keeps F s₀ s) (f_free : F .free = true := by with_reducible assumption) (f_sent : F .sent = true := by with_reducible assumption) (f_power : F .power = true := by with_reducible assumption) (f_flash : F .flash = true := by with_reducible assumption) (f_mgmt : F .mgmt = true := by with_reducible assumption) (f_fcu : F .fcu = true := by with_reducible assumption) (f_regs : F .regs = true := by with_reducible assumption) (f_mem : F .mem = true := by with_reducible assumption) (f_stackMap : F .stackMap = true := by with_reducible assumption) (f_banks : F .banks = true := by with_reducible assumption) (f_baus : F .baus = true := by with_reducible assumption) (f_seqs : F .seqs = true := by with_reducible assumption) (f_seqNext : F .seqNext = true := by with_reducible assumption) (f_slots : F .slots = true := by with_reducible assumption) (f_ports : F .ports = true := by with_reducible assumption) (f_notices : F .notices = true := by with_reducible assumption) (f_fab : F .fab = true := by with_reducible assumption) : Keeps F s₀ (State.recvMemory s f) := by
  unfold State.recvMemory
  repeat' first
    | with_reducible assumption
    | with_reducible apply State.access_keeps
    | with_reducible apply State.respond_keeps
    | with_reducible apply State.writeBytes_keeps
    | intro _
    | with_reducible apply Keeps.ite
    | split
    | dsimp only

theorem State.recvNotice_keeps {F : Part → Bool} {s₀ : State} {s : State} {f : List Byte} (h : Keeps F s₀ s) (f_free : F .free = true := by with_reducible assumption) (f_sent : F .sent = true := by with_reducible assumption) (f_power : F .power = true := by with_reducible assumption) (f_boot : F .boot = true := by with_reducible assumption) (f_regs : F .regs = true := by with_reducible assumption) (f_mem : F .mem = true := by with_reducible assumption) (f_ports : F .ports = true := by with_reducible assumption) (f_notices : F .notices = true := by with_reducible assumption) (f_fab : F .fab = true := by with_reducible assumption) : Keeps F s₀ (State.recvNotice s f) := by
  unfold State.recvNotice
  repeat' first
    | with_reducible assumption
    | with_reducible apply State.onBoot_keeps
    | with_reducible apply State.post_keeps
    | refine State.post_keeps_of ?_ (by with_reducible assumption)
    | with_reducible apply State.respond_keeps
    | intro _
    | with_reducible apply Keeps.ite
    | split
    | dsimp only

theorem State.recvRequest_keeps {F : Part → Bool} {s₀ : State} {s : State} {f : List Byte} (h : Keeps F s₀ s) (f_free : F .free = true := by with_reducible assumption) (f_sent : F .sent = true := by with_reducible assumption) (f_power : F .power = true := by with_reducible assumption) (f_flash : F .flash = true := by with_reducible assumption) (f_boot : F .boot = true := by with_reducible assumption) (f_mgmt : F .mgmt = true := by with_reducible assumption) (f_fcu : F .fcu = true := by with_reducible assumption) (f_regs : F .regs = true := by with_reducible assumption) (f_mem : F .mem = true := by with_reducible assumption) (f_stackMap : F .stackMap = true := by with_reducible assumption) (f_banks : F .banks = true := by with_reducible assumption) (f_baus : F .baus = true := by with_reducible assumption) (f_seqs : F .seqs = true := by with_reducible assumption) (f_seqNext : F .seqNext = true := by with_reducible assumption) (f_slots : F .slots = true := by with_reducible assumption) (f_ports : F .ports = true := by with_reducible assumption) (f_notices : F .notices = true := by with_reducible assumption) (f_fab : F .fab = true := by with_reducible assumption) : Keeps F s₀ (State.recvRequest s f) := by
  unfold State.recvRequest
  repeat' first
    | with_reducible assumption
    | with_reducible apply State.countFld_keeps
    | with_reducible apply State.heldWork_keeps
    | with_reducible apply State.recvMemory_keeps
    | with_reducible apply State.recvNotice_keeps
    | with_reducible apply State.respond_keeps
    | intro _
    | with_reducible apply Keeps.ite
    | split
    | dsimp only

theorem State.endRequest_keeps {F : Part → Bool} {s₀ : State} {s : State} {q : CReq} {status : Nat} {data : List Byte} (h : Keeps F s₀ s) (f_kept : F .kept = true := by with_reducible assumption) (f_fab : F .fab = true := by with_reducible assumption) : Keeps F s₀ (State.endRequest s q status data) := by
  unfold State.endRequest
  repeat' first
    | with_reducible assumption
    | with_reducible apply State.onFab_keeps
    | intro _
    | with_reducible apply Keeps.ite
    | split
    | with_reducible apply Keeps.kept_set
    | dsimp only

theorem State.recvResponse_keeps {F : Part → Bool} {s₀ : State} {s : State} {f : List Byte} (h : Keeps F s₀ s) (f_kept : F .kept = true := by with_reducible assumption) (f_fab : F .fab = true := by with_reducible assumption) : Keeps F s₀ (State.recvResponse s f) := by
  unfold State.recvResponse
  repeat' first
    | with_reducible assumption
    | with_reducible apply State.endRequest_keeps
    | intro _
    | with_reducible apply Keeps.ite
    | split
    | dsimp only

theorem State.recvCredit_keeps {F : Part → Bool} {s₀ : State} {s : State} {p : Nat} {f : List Byte} (h : Keeps F s₀ s) (f_sent : F .sent = true := by with_reducible assumption) (f_fab : F .fab = true := by with_reducible assumption) : Keeps F s₀ (State.recvCredit s p f) := by
  unfold State.recvCredit
  repeat' first
    | with_reducible assumption
    | with_reducible apply Keeps.foldl
    | with_reducible apply State.onFPort_keeps
    | with_reducible apply State.pumpAll_keeps
    | intro _
    | with_reducible apply Keeps.ite
    | split
    | dsimp only

theorem State.spread_keeps {F : Part → Bool} {s₀ : State} {s : State} {ty m : Nat} (h : Keeps F s₀ s) (f_sent : F .sent = true := by with_reducible assumption) (f_fab : F .fab = true := by with_reducible assumption) : Keeps F s₀ (State.spread s ty m) := by
  unfold State.spread
  repeat' first
    | with_reducible assumption
    | with_reducible apply Keeps.foldl
    | with_reducible apply State.pumpAll_keeps
    | with_reducible apply State.queueFrame_keeps
    | intro _
    | with_reducible apply Keeps.ite
    | split
    | dsimp only

theorem State.rerouteFrom_keeps {F : Part → Bool} {s₀ : State} {s : State} {m : Nat} (h : Keeps F s₀ s) (f_sent : F .sent = true := by with_reducible assumption) (f_fab : F .fab = true := by with_reducible assumption) : Keeps F s₀ (State.rerouteFrom s m) := by
  unfold State.rerouteFrom
  repeat' first
    | with_reducible assumption
    | with_reducible apply Keeps.foldl
    | with_reducible apply State.forward_keeps
    | with_reducible apply State.freeBuffer_keeps
    | with_reducible apply State.onFPort_keeps
    | intro _
    | with_reducible apply Keeps.ite
    | split
    | dsimp only

theorem State.moduleLost_keeps {F : Part → Bool} {s₀ : State} {s : State} {m : Nat} (h : Keeps F s₀ s) (f_free : F .free = true := by with_reducible assumption) (f_sent : F .sent = true := by with_reducible assumption) (f_power : F .power = true := by with_reducible assumption) (f_regs : F .regs = true := by with_reducible assumption) (f_mem : F .mem = true := by with_reducible assumption) (f_ports : F .ports = true := by with_reducible assumption) (f_notices : F .notices = true := by with_reducible assumption) (f_kept : F .kept = true := by with_reducible assumption) (f_kv : F .kv = true := by with_reducible assumption) (f_fab : F .fab = true := by with_reducible assumption) : Keeps F s₀ (State.moduleLost s m) := by
  unfold State.moduleLost
  repeat' first
    | with_reducible assumption
    | with_reducible apply Keeps.foldl
    | with_reducible apply State.endColl_keeps
    | with_reducible apply State.farUnreachable_keeps
    | intro _
    | with_reducible apply Keeps.ite
    | split
    | dsimp only

theorem State.recvDown_keeps {F : Part → Bool} {s₀ : State} {s : State} {p : Nat} {f : List Byte} (h : Keeps F s₀ s) (f_free : F .free = true := by with_reducible assumption) (f_sent : F .sent = true := by with_reducible assumption) (f_power : F .power = true := by with_reducible assumption) (f_regs : F .regs = true := by with_reducible assumption) (f_mem : F .mem = true := by with_reducible assumption) (f_ports : F .ports = true := by with_reducible assumption) (f_notices : F .notices = true := by with_reducible assumption) (f_kept : F .kept = true := by with_reducible assumption) (f_kv : F .kv = true := by with_reducible assumption) (f_fab : F .fab = true := by with_reducible assumption) : Keeps F s₀ (State.recvDown s p f) := by
  unfold State.recvDown
  repeat' first
    | with_reducible assumption
    | with_reducible apply State.moduleLost_keeps
    | with_reducible apply State.onFab_keeps
    | with_reducible apply State.rerouteFrom_keeps
    | with_reducible apply State.spread_keeps
    | intro _
    | with_reducible apply Keeps.ite
    | split
    | dsimp only

theorem State.recvUp_keeps {F : Part → Bool} {s₀ : State} {s : State} {p : Nat} {f : List Byte} (h : Keeps F s₀ s) (f_sent : F .sent = true := by with_reducible assumption) (f_fab : F .fab = true := by with_reducible assumption) : Keeps F s₀ (State.recvUp s p f) := by
  unfold State.recvUp
  repeat' first
    | with_reducible assumption
    | with_reducible apply State.onFab_keeps
    | with_reducible apply State.pumpAll_keeps
    | with_reducible apply State.spread_keeps
    | intro _
    | with_reducible apply Keeps.ite
    | split
    | dsimp only

theorem State.deliver_keeps {F : Part → Bool} {s₀ : State} {s : State} {p : Nat} {f : List Byte} {from_ : Option (Nat × Nat × Nat)} (h : Keeps F s₀ s) (f_free : F .free = true := by with_reducible assumption) (f_sent : F .sent = true := by with_reducible assumption) (f_power : F .power = true := by with_reducible assumption) (f_flash : F .flash = true := by with_reducible assumption) (f_boot : F .boot = true := by with_reducible assumption) (f_mgmt : F .mgmt = true := by with_reducible assumption) (f_fcu : F .fcu = true := by with_reducible assumption) (f_regs : F .regs = true := by with_reducible assumption) (f_mem : F .mem = true := by with_reducible assumption) (f_stackMap : F .stackMap = true := by with_reducible assumption) (f_banks : F .banks = true := by with_reducible assumption) (f_baus : F .baus = true := by with_reducible assumption) (f_seqs : F .seqs = true := by with_reducible assumption) (f_seqNext : F .seqNext = true := by with_reducible assumption) (f_slots : F .slots = true := by with_reducible assumption) (f_ports : F .ports = true := by with_reducible assumption) (f_notices : F .notices = true := by with_reducible assumption) (f_kept : F .kept = true := by with_reducible assumption) (f_kv : F .kv = true := by with_reducible assumption) (f_fab : F .fab = true := by with_reducible assumption) : Keeps F s₀ (State.deliver s p f from_) := by
  unfold State.deliver
  repeat' first
    | with_reducible assumption
    | with_reducible apply State.countFld_keeps
    | with_reducible apply State.freeBuffer_keeps
    | with_reducible apply State.raise_keeps
    | with_reducible apply State.recvColl_keeps
    | with_reducible apply State.recvCredit_keeps
    | with_reducible apply State.recvDown_keeps
    | with_reducible apply State.recvRequest_keeps
    | with_reducible apply State.recvResponse_keeps
    | with_reducible apply State.recvUp_keeps
    | intro _
    | with_reducible apply Keeps.ite
    | split
    | refine Keeps.used ?_ (Nat.le_add_right _ _) (by with_reducible assumption)
    | dsimp only

theorem State.recvFrame_keeps {F : Part → Bool} {s₀ : State} {s : State} {p : Nat} {f : List Byte} {from_ : Option (Nat × Nat × Nat)} (h : Keeps F s₀ s) (f_free : F .free = true := by with_reducible assumption) (f_sent : F .sent = true := by with_reducible assumption) (f_power : F .power = true := by with_reducible assumption) (f_flash : F .flash = true := by with_reducible assumption) (f_boot : F .boot = true := by with_reducible assumption) (f_mgmt : F .mgmt = true := by with_reducible assumption) (f_fcu : F .fcu = true := by with_reducible assumption) (f_regs : F .regs = true := by with_reducible assumption) (f_mem : F .mem = true := by with_reducible assumption) (f_stackMap : F .stackMap = true := by with_reducible assumption) (f_banks : F .banks = true := by with_reducible assumption) (f_baus : F .baus = true := by with_reducible assumption) (f_seqs : F .seqs = true := by with_reducible assumption) (f_seqNext : F .seqNext = true := by with_reducible assumption) (f_slots : F .slots = true := by with_reducible assumption) (f_ports : F .ports = true := by with_reducible assumption) (f_notices : F .notices = true := by with_reducible assumption) (f_kept : F .kept = true := by with_reducible assumption) (f_kv : F .kv = true := by with_reducible assumption) (f_fab : F .fab = true := by with_reducible assumption) : Keeps F s₀ (State.recvFrame s p f from_) := by
  unfold State.recvFrame
  repeat' first
    | with_reducible assumption
    | with_reducible apply State.countFld_keeps
    | with_reducible apply State.deliver_keeps
    | with_reducible apply State.forward_keeps
    | with_reducible apply State.freeBuffer_keeps
    | with_reducible apply State.respond_keeps
    | intro _
    | with_reducible apply Keeps.ite
    | split
    | dsimp only

theorem State.loopStep_keeps {F : Part → Bool} {s₀ : State} {s : State} (h : Keeps F s₀ s) (f_free : F .free = true := by with_reducible assumption) (f_sent : F .sent = true := by with_reducible assumption) (f_power : F .power = true := by with_reducible assumption) (f_flash : F .flash = true := by with_reducible assumption) (f_boot : F .boot = true := by with_reducible assumption) (f_mgmt : F .mgmt = true := by with_reducible assumption) (f_fcu : F .fcu = true := by with_reducible assumption) (f_regs : F .regs = true := by with_reducible assumption) (f_mem : F .mem = true := by with_reducible assumption) (f_stackMap : F .stackMap = true := by with_reducible assumption) (f_banks : F .banks = true := by with_reducible assumption) (f_baus : F .baus = true := by with_reducible assumption) (f_seqs : F .seqs = true := by with_reducible assumption) (f_seqNext : F .seqNext = true := by with_reducible assumption) (f_slots : F .slots = true := by with_reducible assumption) (f_ports : F .ports = true := by with_reducible assumption) (f_notices : F .notices = true := by with_reducible assumption) (f_kept : F .kept = true := by with_reducible assumption) (f_kv : F .kv = true := by with_reducible assumption) (f_fab : F .fab = true := by with_reducible assumption) : Keeps F s₀ (State.loopStep s) := by
  unfold State.loopStep
  repeat' first
    | with_reducible assumption
    | with_reducible apply State.deliver_keeps
    | with_reducible apply State.onFPort_keeps
    | intro _
    | with_reducible apply Keeps.ite
    | split
    | dsimp only

theorem State.takeFlit_keeps {F : Part → Bool} {s₀ : State} {s : State} {p : Nat} {b : List Byte} (h : Keeps F s₀ s) (f_free : F .free = true := by with_reducible assumption) (f_sent : F .sent = true := by with_reducible assumption) (f_power : F .power = true := by with_reducible assumption) (f_flash : F .flash = true := by with_reducible assumption) (f_boot : F .boot = true := by with_reducible assumption) (f_mgmt : F .mgmt = true := by with_reducible assumption) (f_fcu : F .fcu = true := by with_reducible assumption) (f_regs : F .regs = true := by with_reducible assumption) (f_mem : F .mem = true := by with_reducible assumption) (f_stackMap : F .stackMap = true := by with_reducible assumption) (f_banks : F .banks = true := by with_reducible assumption) (f_baus : F .baus = true := by with_reducible assumption) (f_seqs : F .seqs = true := by with_reducible assumption) (f_seqNext : F .seqNext = true := by with_reducible assumption) (f_slots : F .slots = true := by with_reducible assumption) (f_ports : F .ports = true := by with_reducible assumption) (f_notices : F .notices = true := by with_reducible assumption) (f_kept : F .kept = true := by with_reducible assumption) (f_kv : F .kv = true := by with_reducible assumption) (f_fab : F .fab = true := by with_reducible assumption) : Keeps F s₀ (State.takeFlit s p b) := by
  unfold State.takeFlit
  repeat' first
    | with_reducible assumption
    | with_reducible apply Keeps.foldl
    | with_reducible apply State.onFPort_keeps
    | with_reducible apply State.pump_keeps
    | with_reducible apply State.recvFrame_keeps
    | with_reducible apply State.sendFlit_keeps
    | with_reducible apply State.sendNak_keeps
    | with_reducible apply State.takeAck_keeps
    | intro _
    | with_reducible apply Keeps.ite
    | split
    | dsimp only

end Sys2Proof.Machine
end

