-- ==== Sys2Proof/Laws/KeepsTrust.lean ====
section
/-! SUPPORT. The operations of Machine/Trust.lean undo nothing (Laws/Keeps.lean). -/

set_option Elab.async false
set_option linter.unusedTactic false
set_option linter.unreachableTactic false
set_option linter.unusedVariables false

namespace Sys2Proof.Machine

open Sys2Proof

theorem State.doeAnswer_keeps {F : Part → Bool} {s₀ : State} {s : State} {path cmd kind status reason : Nat} (h : Keeps F s₀ s) (f_sent : F .sent = true := by with_reducible assumption) : Keeps F s₀ (State.doeAnswer s path cmd kind status reason) := by
  unfold State.doeAnswer
  repeat' first
    | with_reducible assumption
    | with_reducible apply State.send_keeps
    | intro _
    | with_reducible apply Keeps.ite
    | split
    | dsimp only

theorem execBegin_good {F : Part → Bool} {path kind value : Nat} {s : State} (f_sent : F .sent = true := by with_reducible assumption) (f_boot : F .boot = true := by with_reducible assumption) : Good F s (execBegin path kind value s) := by
  unfold execBegin
  repeat' first
    | with_reducible assumption
    | with_reducible apply State.doeAnswer_keeps
    | with_reducible apply State.onBoot_keeps
    | with_reducible apply State.when_keeps
    | with_reducible apply Good.next
    | with_reducible exact Keeps.rfl
    | intro _
    | with_reducible apply Keeps.ite
    | split
    | dsimp only

theorem execData_good {F : Part → Bool} {path kind value : Nat} {data : List Byte} {s : State} (f_sent : F .sent = true := by with_reducible assumption) (f_boot : F .boot = true := by with_reducible assumption) : Good F s (execData path kind value data s) := by
  unfold execData
  repeat' first
    | with_reducible assumption
    | with_reducible apply State.doeAnswer_keeps
    | with_reducible apply State.onBoot_keeps
    | with_reducible apply State.when_keeps
    | with_reducible apply Good.next
    | with_reducible exact Keeps.rfl
    | intro _
    | with_reducible apply Keeps.ite
    | split
    | dsimp only

theorem State.endImage_keeps {F : Part → Bool} {s₀ : State} {s : State} {t : Transfer} {sigOk : Bool} (h : Keeps F s₀ s) (f_sent : F .sent = true := by with_reducible assumption) (f_boot : F .boot = true := by with_reducible assumption) : Keeps F s₀ (State.endImage s t sigOk) := by
  unfold State.endImage
  repeat' first
    | with_reducible assumption
    | with_reducible apply State.doeAnswer_keeps
    | with_reducible apply State.onBoot_keeps
    | intro _
    | with_reducible apply Keeps.ite
    | split
    | dsimp only

theorem State.endRecord_keeps {F : Part → Bool} {s₀ : State} {s : State} {t : Transfer} {sigOk : Bool} {parsed : Option Record} (h : Keeps F s₀ s) (f_sent : F .sent = true := by with_reducible assumption) (f_fuses : F .fuses = true := by with_reducible assumption) (f_flash : F .flash = true := by with_reducible assumption) : Keeps F s₀ (State.endRecord s t sigOk parsed) := by
  unfold State.endRecord
  repeat' first
    | with_reducible assumption
    | with_reducible apply State.doeAnswer_keeps
    | intro _
    | with_reducible apply Keeps.ite
    | split
    | refine Keeps.flash ?_ (Nat.le_refl _) (by with_reducible assumption)
    | refine Keeps.fuse ?_ (Fuses.Burns.owner (by assumption)) (by with_reducible assumption)
    | dsimp only

theorem execTransferEnd_good {F : Part → Bool} {path kind : Nat} {sigOk : Bool} {parsed : Option Record} {s : State} (f_sent : F .sent = true := by with_reducible assumption) (f_fuses : F .fuses = true := by with_reducible assumption) (f_flash : F .flash = true := by with_reducible assumption) (f_boot : F .boot = true := by with_reducible assumption) : Good F s (execTransferEnd path kind sigOk parsed s) := by
  unfold execTransferEnd
  repeat' first
    | with_reducible assumption
    | with_reducible apply State.doeAnswer_keeps
    | with_reducible apply State.endImage_keeps
    | with_reducible apply State.endRecord_keeps
    | with_reducible apply State.onBoot_keeps
    | with_reducible apply State.when_keeps
    | with_reducible apply Good.next
    | with_reducible exact Keeps.rfl
    | intro _
    | with_reducible apply Keeps.ite
    | split
    | dsimp only

theorem execTransferStatus_good {F : Part → Bool} {path kind : Nat} {s : State} (f_sent : F .sent = true := by with_reducible assumption) : Good F s (execTransferStatus path kind s) := by
  unfold execTransferStatus
  repeat' first
    | with_reducible assumption
    | with_reducible apply State.doeAnswer_keeps
    | with_reducible apply State.when_keeps
    | with_reducible apply Good.next
    | with_reducible exact Keeps.rfl
    | intro _
    | with_reducible apply Keeps.ite
    | split
    | dsimp only

theorem State.spdmAt_keeps {F : Part → Bool} {s₀ : State} {s : State} {path need : Nat} {f : State → State} (h : Keeps F s₀ s) (kf : ∀ t, Keeps F s₀ t → Keeps F s₀ (f t)) (f_sent : F .sent = true := by with_reducible assumption) : Keeps F s₀ (State.spdmAt s path need f) := by
  unfold State.spdmAt
  repeat' first
    | with_reducible assumption
    | with_reducible apply State.send_keeps
    | with_reducible apply State.when_keeps
    | with_reducible apply kf
    | intro _
    | with_reducible apply Keeps.ite
    | split
    | dsimp only

theorem State.spdmStage_keeps {F : Part → Bool} {s₀ : State} {s : State} {path n : Nat} (h : Keeps F s₀ s) (f_mgmt : F .mgmt = true := by with_reducible assumption) : Keeps F s₀ (State.spdmStage s path n) := by
  unfold State.spdmStage
  repeat' first
    | with_reducible assumption
    | intro _
    | with_reducible apply Keeps.ite
    | split
    | with_reducible apply Keeps.mgmt_set
    | dsimp only

theorem execGetVersion_good {F : Part → Bool} {path : Nat} {s : State} (f_sent : F .sent = true := by with_reducible assumption) (f_mgmt : F .mgmt = true := by with_reducible assumption) : Good F s (execGetVersion path s) := by
  unfold execGetVersion
  repeat' first
    | with_reducible assumption
    | with_reducible apply State.send_keeps
    | with_reducible apply State.spdmAt_keeps
    | with_reducible apply State.spdmStage_keeps
    | with_reducible apply Good.next
    | with_reducible exact Keeps.rfl
    | intro _
    | with_reducible apply Keeps.ite
    | split
    | dsimp only

theorem execGetCapabilities_good {F : Part → Bool} {path : Nat} {s : State} (f_sent : F .sent = true := by with_reducible assumption) (f_mgmt : F .mgmt = true := by with_reducible assumption) : Good F s (execGetCapabilities path s) := by
  unfold execGetCapabilities
  repeat' first
    | with_reducible assumption
    | with_reducible apply State.send_keeps
    | with_reducible apply State.spdmAt_keeps
    | with_reducible apply State.spdmStage_keeps
    | with_reducible apply Good.next
    | with_reducible exact Keeps.rfl
    | intro _
    | with_reducible apply Keeps.ite
    | split
    | dsimp only

theorem execNegotiateAlgorithms_good {F : Part → Bool} {path : Nat} {s : State} (f_sent : F .sent = true := by with_reducible assumption) (f_mgmt : F .mgmt = true := by with_reducible assumption) : Good F s (execNegotiateAlgorithms path s) := by
  unfold execNegotiateAlgorithms
  repeat' first
    | with_reducible assumption
    | with_reducible apply State.send_keeps
    | with_reducible apply State.spdmAt_keeps
    | with_reducible apply State.spdmStage_keeps
    | with_reducible apply Good.next
    | with_reducible exact Keeps.rfl
    | intro _
    | with_reducible apply Keeps.ite
    | split
    | dsimp only

theorem execGetDigests_good {F : Part → Bool} {path : Nat} {s : State} (f_sent : F .sent = true := by with_reducible assumption) : Good F s (execGetDigests path s) := by
  unfold execGetDigests
  repeat' first
    | with_reducible assumption
    | with_reducible apply State.send_keeps
    | with_reducible apply State.spdmAt_keeps
    | with_reducible apply Good.next
    | with_reducible exact Keeps.rfl
    | intro _
    | with_reducible apply Keeps.ite
    | split
    | dsimp only

theorem execGetCertificate_good {F : Part → Bool} {path slot off len : Nat} {s : State} (f_sent : F .sent = true := by with_reducible assumption) : Good F s (execGetCertificate path slot off len s) := by
  unfold execGetCertificate
  repeat' first
    | with_reducible assumption
    | with_reducible apply State.send_keeps
    | with_reducible apply State.spdmAt_keeps
    | with_reducible apply Good.next
    | with_reducible exact Keeps.rfl
    | intro _
    | with_reducible apply Keeps.ite
    | split
    | dsimp only

theorem State.identitySignature_keeps {F : Part → Bool} {s₀ s : State}  (h : Keeps F s₀ s) (f_free : F .free = true := by with_reducible assumption) : Keeps F s₀ (s.identitySignature).2 := by
  unfold State.identitySignature
  repeat' first
    | with_reducible assumption
    | with_reducible apply State.fresh_keeps
    | refine State.fresh_keeps_of ?_ (by with_reducible assumption)
    | intro _
    | with_reducible apply Keeps.ite
    | split
    | dsimp only


theorem State.identitySignature_keeps_of {F : Part → Bool} {s₀ s t : State}  {x : List Byte} (h : Keeps F s₀ s) (e : s.identitySignature = (x, t)) (f_free : F .free = true := by with_reducible assumption) : Keeps F s₀ t := by
  have : Keeps F s₀ (s.identitySignature).2 := State.identitySignature_keeps h
  rw [e] at this
  exact this

theorem execChallenge_good {F : Part → Bool} {path slot : Nat} {s : State} (f_free : F .free = true := by with_reducible assumption) (f_sent : F .sent = true := by with_reducible assumption) : Good F s (execChallenge path slot s) := by
  unfold execChallenge
  repeat' first
    | with_reducible assumption
    | with_reducible apply State.identitySignature_keeps
    | refine State.identitySignature_keeps_of ?_ (by with_reducible assumption)
    | with_reducible apply State.send_keeps
    | with_reducible apply State.spdmAt_keeps
    | with_reducible apply Good.next
    | with_reducible exact Keeps.rfl
    | intro _
    | with_reducible apply Keeps.ite
    | split
    | dsimp only

theorem execGetMeasurements_good {F : Part → Bool} {path index : Nat} {s : State} (f_free : F .free = true := by with_reducible assumption) (f_sent : F .sent = true := by with_reducible assumption) : Good F s (execGetMeasurements path index s) := by
  unfold execGetMeasurements
  repeat' first
    | with_reducible assumption
    | with_reducible apply State.identitySignature_keeps
    | refine State.identitySignature_keeps_of ?_ (by with_reducible assumption)
    | with_reducible apply State.send_keeps
    | with_reducible apply State.spdmAt_keeps
    | with_reducible apply Good.next
    | with_reducible exact Keeps.rfl
    | intro _
    | with_reducible apply Keeps.ite
    | split
    | dsimp only

theorem execSetdasa_good {F : Part → Bool} {s : State} (f_power : F .power = true := by with_reducible assumption) : Good F s (execSetdasa s) := by
  unfold execSetdasa
  repeat' first
    | with_reducible assumption
    | with_reducible apply State.onPower_keeps
    | with_reducible apply State.whenP_keeps
    | with_reducible apply Good.next
    | with_reducible exact Keeps.rfl
    | intro _
    | with_reducible apply Keeps.ite
    | split
    | dsimp only

theorem execEntdaa_good {F : Part → Bool} {addr : Nat} {s : State} (f_power : F .power = true := by with_reducible assumption) : Good F s (execEntdaa addr s) := by
  unfold execEntdaa
  repeat' first
    | with_reducible assumption
    | with_reducible apply State.onPower_keeps
    | with_reducible apply State.whenP_keeps
    | with_reducible apply Good.next
    | with_reducible exact Keeps.rfl
    | intro _
    | with_reducible apply Keeps.ite
    | split
    | dsimp only

end Sys2Proof.Machine
end

