-- ==== Sys2Proof/Laws/KeepsControl.lean ====
section
/-! SUPPORT. The operations of Machine/Control.lean undo nothing (Laws/Keeps.lean). -/

set_option Elab.async false
set_option linter.unusedTactic false
set_option linter.unreachableTactic false
set_option linter.unusedVariables false

namespace Sys2Proof.Machine

open Sys2Proof

theorem State.xkeavo_keeps {F : Part → Bool} {s₀ : State} {s : State} {d c rs1 v : Nat} {f : Nat → State → State} (h : Keeps F s₀ s) (kf : ∀ x0 t, Keeps F s₀ t → Keeps F s₀ (f x0 t)) (f_cores : F .cores = true := by with_reducible assumption) : Keeps F s₀ (State.xkeavo s d c rs1 v f) := by
  unfold State.xkeavo
  repeat' first
    | with_reducible assumption
    | with_reducible apply State.onCc_keeps
    | with_reducible apply kf
    | intro _
    | with_reducible apply Keeps.ite
    | split
    | dsimp only

theorem execKpop_good {F : Part → Bool} {d c : Nat} {rs : XReg} {f : XDest} {s : State} (f_free : F .free = true := by with_reducible assumption) (f_flash : F .flash = true := by with_reducible assumption) (f_fcu : F .fcu = true := by with_reducible assumption) (f_regs : F .regs = true := by with_reducible assumption) (f_mem : F .mem = true := by with_reducible assumption) (f_cores : F .cores = true := by with_reducible assumption) : Good F s (execKpop d c rs f s) := by
  unfold execKpop
  repeat' first
    | with_reducible assumption
    | with_reducible apply State.hold_keeps
    | with_reducible apply State.illegalX_keeps
    | with_reducible apply State.onCc_keeps
    | with_reducible apply State.onCore_keeps
    | with_reducible apply State.settle_keeps
    | with_reducible apply State.streamFault_keeps
    | with_reducible apply State.xkeavo_keeps
    | with_reducible apply Good.next
    | with_reducible exact Keeps.rfl
    | intro _
    | with_reducible apply Keeps.ite
    | split
    | dsimp only

theorem execKpush_good {F : Part → Bool} {d c rd rs1 v q side : Nat} {s : State} (f_free : F .free = true := by with_reducible assumption) (f_flash : F .flash = true := by with_reducible assumption) (f_fcu : F .fcu = true := by with_reducible assumption) (f_regs : F .regs = true := by with_reducible assumption) (f_mem : F .mem = true := by with_reducible assumption) (f_cores : F .cores = true := by with_reducible assumption) : Good F s (execKpush d c rd rs1 v q side s) := by
  unfold execKpush
  repeat' first
    | with_reducible assumption
    | with_reducible apply State.credit_keeps
    | with_reducible apply State.hold_keeps
    | with_reducible apply State.illegalX_keeps
    | with_reducible apply State.onCc_keeps
    | with_reducible apply State.onCore_keeps
    | with_reducible apply State.settle_keeps
    | with_reducible apply State.xkeavo_keeps
    | with_reducible apply Good.next
    | with_reducible exact Keeps.rfl
    | intro _
    | with_reducible apply Keeps.ite
    | split
    | dsimp only

theorem execKpwr_good {F : Part → Bool} {d c rs1 v n side : Nat} {s : State} (f_free : F .free = true := by with_reducible assumption) (f_flash : F .flash = true := by with_reducible assumption) (f_fcu : F .fcu = true := by with_reducible assumption) (f_regs : F .regs = true := by with_reducible assumption) (f_mem : F .mem = true := by with_reducible assumption) (f_cores : F .cores = true := by with_reducible assumption) : Good F s (execKpwr d c rs1 v n side s) := by
  unfold execKpwr
  repeat' first
    | with_reducible assumption
    | with_reducible apply State.illegalX_keeps
    | with_reducible apply State.onCore_keeps
    | with_reducible apply State.xkeavo_keeps
    | with_reducible apply Good.next
    | with_reducible exact Keeps.rfl
    | intro _
    | with_reducible apply Keeps.ite
    | split
    | dsimp only

theorem execKprd_good {F : Part → Bool} {d c rs1 imm v : Nat} {s : State} (f_free : F .free = true := by with_reducible assumption) (f_flash : F .flash = true := by with_reducible assumption) (f_fcu : F .fcu = true := by with_reducible assumption) (f_regs : F .regs = true := by with_reducible assumption) (f_mem : F .mem = true := by with_reducible assumption) (f_cores : F .cores = true := by with_reducible assumption) : Good F s (execKprd d c rs1 imm v s) := by
  unfold execKprd
  repeat' first
    | with_reducible assumption
    | with_reducible apply State.illegalX_keeps
    | with_reducible apply State.onCore_keeps
    | with_reducible apply State.xkeavo_keeps
    | with_reducible apply Good.next
    | with_reducible exact Keeps.rfl
    | intro _
    | with_reducible apply Keeps.ite
    | split
    | dsimp only

theorem execKsumpop_good {F : Part → Bool} {core : CoreId} {f : XDest} {s : State} (f_free : F .free = true := by with_reducible assumption) (f_flash : F .flash = true := by with_reducible assumption) (f_fcu : F .fcu = true := by with_reducible assumption) (f_regs : F .regs = true := by with_reducible assumption) (f_mem : F .mem = true := by with_reducible assumption) (f_cores : F .cores = true := by with_reducible assumption) : Good F s (execKsumpop core f s) := by
  unfold execKsumpop
  repeat' first
    | with_reducible assumption
    | with_reducible apply State.illegalX_keeps
    | with_reducible apply State.onCc_keeps
    | with_reducible apply State.settle_keeps
    | with_reducible apply Good.next
    | with_reducible exact Keeps.rfl
    | intro _
    | with_reducible apply Keeps.ite
    | split
    | dsimp only

theorem execKwait_good {F : Part → Bool} {d c : Nat} {rs : XReg} {imm : Nat} {s : State} (f_free : F .free = true := by with_reducible assumption) (f_flash : F .flash = true := by with_reducible assumption) (f_fcu : F .fcu = true := by with_reducible assumption) (f_regs : F .regs = true := by with_reducible assumption) (f_mem : F .mem = true := by with_reducible assumption) (f_cores : F .cores = true := by with_reducible assumption) : Good F s (execKwait d c rs imm s) := by
  unfold execKwait
  repeat' first
    | with_reducible assumption
    | with_reducible apply State.hold_keeps
    | with_reducible apply State.illegalX_keeps
    | with_reducible apply State.onCore_keeps
    | with_reducible apply State.xkeavo_keeps
    | with_reducible apply Good.next
    | with_reducible exact Keeps.rfl
    | intro _
    | with_reducible apply Keeps.ite
    | split
    | dsimp only

theorem execKsignal_good {F : Part → Bool} {d c : Nat} {f : XSrc} {s : State} (f_free : F .free = true := by with_reducible assumption) (f_flash : F .flash = true := by with_reducible assumption) (f_fcu : F .fcu = true := by with_reducible assumption) (f_regs : F .regs = true := by with_reducible assumption) (f_mem : F .mem = true := by with_reducible assumption) (f_cores : F .cores = true := by with_reducible assumption) : Good F s (execKsignal d c f s) := by
  unfold execKsignal
  repeat' first
    | with_reducible assumption
    | with_reducible apply State.illegalX_keeps
    | with_reducible apply State.signalWord_keeps
    | with_reducible apply State.xkeavo_keeps
    | with_reducible apply Good.next
    | with_reducible exact Keeps.rfl
    | intro _
    | with_reducible apply Keeps.ite
    | split
    | dsimp only

theorem execKbarrier_good {F : Part → Bool} {d c : Nat} {rs : XReg} {imm : Nat} {s : State} (f_free : F .free = true := by with_reducible assumption) (f_flash : F .flash = true := by with_reducible assumption) (f_fcu : F .fcu = true := by with_reducible assumption) (f_regs : F .regs = true := by with_reducible assumption) (f_mem : F .mem = true := by with_reducible assumption) (f_cores : F .cores = true := by with_reducible assumption) : Good F s (execKbarrier d c rs imm s) := by
  unfold execKbarrier
  repeat' first
    | with_reducible assumption
    | refine State.arrive_keeps ?_ (by with_reducible assumption)
    | with_reducible apply State.ccArrives_keeps
    | with_reducible apply State.hold_keeps
    | with_reducible apply State.illegalX_keeps
    | with_reducible apply State.onCc_keeps
    | with_reducible apply State.xkeavo_keeps
    | with_reducible apply Good.next
    | with_reducible exact Keeps.rfl
    | intro _
    | with_reducible apply Keeps.ite
    | split
    | dsimp only

theorem State.listStep_keeps {F : Part → Bool} {s₀ : State} {s : State} {d c op : Nat} {f : List Byte → State → State} (h : Keeps F s₀ s) (kf : ∀ x0 t, Keeps F s₀ t → Keeps F s₀ (f x0 t)) (f_mem : F .mem = true := by with_reducible assumption) : Keeps F s₀ (State.listStep s d c op f) := by
  unfold State.listStep
  repeat' first
    | with_reducible assumption
    | with_reducible apply BauRun.op_keeps
    | with_reducible apply State.when_keeps
    | with_reducible apply kf
    | intro _
    | with_reducible apply Keeps.ite
    | split
    | dsimp only

theorem execRun_good {F : Part → Bool} {d c : Nat} {s : State} (f_mem : F .mem = true := by with_reducible assumption) (f_cores : F .cores = true := by with_reducible assumption) : Good F s (execRun d c s) := by
  unfold execRun
  repeat' first
    | with_reducible assumption
    | with_reducible apply State.listStep_keeps
    | with_reducible apply State.onCore_keeps
    | with_reducible apply Good.next
    | with_reducible exact Keeps.rfl
    | intro _
    | with_reducible apply Keeps.ite
    | split
    | dsimp only

theorem execBranch_good {F : Part → Bool} {d c : Nat} {s : State} (f_free : F .free = true := by with_reducible assumption) (f_flash : F .flash = true := by with_reducible assumption) (f_fcu : F .fcu = true := by with_reducible assumption) (f_regs : F .regs = true := by with_reducible assumption) (f_mem : F .mem = true := by with_reducible assumption) (f_cores : F .cores = true := by with_reducible assumption) : Good F s (execBranch d c s) := by
  unfold execBranch
  repeat' first
    | with_reducible assumption
    | with_reducible apply State.ccFault_keeps
    | with_reducible apply State.listStep_keeps
    | with_reducible apply State.onCc_keeps
    | with_reducible apply State.settle_keeps
    | with_reducible apply Good.next
    | with_reducible exact Keeps.rfl
    | intro _
    | with_reducible apply Keeps.ite
    | split
    | dsimp only

theorem execJump_good {F : Part → Bool} {d c : Nat} {s : State} (f_mem : F .mem = true := by with_reducible assumption) (f_cores : F .cores = true := by with_reducible assumption) : Good F s (execJump d c s) := by
  unfold execJump
  repeat' first
    | with_reducible assumption
    | with_reducible apply State.listStep_keeps
    | with_reducible apply State.onCc_keeps
    | with_reducible apply Good.next
    | with_reducible exact Keeps.rfl
    | intro _
    | with_reducible apply Keeps.ite
    | split
    | dsimp only

theorem execLoop_good {F : Part → Bool} {d c : Nat} {s : State} (f_mem : F .mem = true := by with_reducible assumption) (f_cores : F .cores = true := by with_reducible assumption) : Good F s (execLoop d c s) := by
  unfold execLoop
  repeat' first
    | with_reducible assumption
    | with_reducible apply State.listStep_keeps
    | with_reducible apply State.onCc_keeps
    | with_reducible apply Good.next
    | with_reducible exact Keeps.rfl
    | intro _
    | with_reducible apply Keeps.ite
    | split
    | dsimp only

theorem execCall_good {F : Part → Bool} {d c : Nat} {s : State} (f_mem : F .mem = true := by with_reducible assumption) (f_cores : F .cores = true := by with_reducible assumption) : Good F s (execCall d c s) := by
  unfold execCall
  repeat' first
    | with_reducible assumption
    | with_reducible apply State.listStep_keeps
    | with_reducible apply State.onCc_keeps
    | with_reducible apply Good.next
    | with_reducible exact Keeps.rfl
    | intro _
    | with_reducible apply Keeps.ite
    | split
    | dsimp only

theorem execSetp_good {F : Part → Bool} {d c : Nat} {s : State} (f_mem : F .mem = true := by with_reducible assumption) (f_cores : F .cores = true := by with_reducible assumption) : Good F s (execSetp d c s) := by
  unfold execSetp
  repeat' first
    | with_reducible assumption
    | with_reducible apply State.listStep_keeps
    | with_reducible apply State.onCore_keeps
    | with_reducible apply Good.next
    | with_reducible exact Keeps.rfl
    | intro _
    | with_reducible apply Keeps.ite
    | split
    | dsimp only

theorem State.coreDone_keeps {F : Part → Bool} {s₀ : State} {s : State} {d c : Nat} (h : Keeps F s₀ s) (f_ldr : F .ldr = true := by with_reducible assumption) : Keeps F s₀ (State.coreDone s d c) := by
  unfold State.coreDone
  repeat' first
    | with_reducible assumption
    | intro _
    | with_reducible apply Keeps.ite
    | split
    | with_reducible apply Keeps.ldr_set
    | dsimp only

theorem execDone_good {F : Part → Bool} {d c : Nat} {s : State} (f_mem : F .mem = true := by with_reducible assumption) (f_cores : F .cores = true := by with_reducible assumption) (f_ldr : F .ldr = true := by with_reducible assumption) : Good F s (execDone d c s) := by
  unfold execDone
  repeat' first
    | with_reducible assumption
    | with_reducible apply State.coreDone_keeps
    | with_reducible apply State.listStep_keeps
    | with_reducible apply State.onCc_keeps
    | with_reducible apply Good.next
    | with_reducible exact Keeps.rfl
    | intro _
    | with_reducible apply Keeps.ite
    | split
    | dsimp only

theorem State.inRoutine_keeps {F : Part → Bool} {s₀ : State} {s : State} {d c id : Nat} {f : Call → State → State} (h : Keeps F s₀ s) (kf : ∀ x0 t, Keeps F s₀ t → Keeps F s₀ (f x0 t)) : Keeps F s₀ (State.inRoutine s d c id f) := by
  unfold State.inRoutine
  repeat' first
    | with_reducible assumption
    | with_reducible apply kf
    | intro _
    | with_reducible apply Keeps.ite
    | split
    | dsimp only

theorem execNop_good {F : Part → Bool} {d c : Nat} {s : State} (f_flash : F .flash = true := by with_reducible assumption) (f_fcu : F .fcu = true := by with_reducible assumption) (f_regs : F .regs = true := by with_reducible assumption) (f_mem : F .mem = true := by with_reducible assumption) (f_cores : F .cores = true := by with_reducible assumption) : Good F s (execNop d c s) := by
  unfold execNop
  repeat' first
    | with_reducible assumption
    | with_reducible apply State.inRoutine_keeps
    | with_reducible apply State.routineEnds_keeps
    | with_reducible apply State.routinePushes_keeps
    | with_reducible apply Good.next
    | with_reducible exact Keeps.rfl
    | intro _
    | with_reducible apply Keeps.ite
    | split
    | dsimp only

theorem State.tokenRoutine_keeps {F : Part → Bool} {s₀ s : State} {d c id : Nat} {pick : Call → State → List Nat → Nat × State} (h : Keeps F s₀ s) (hp : ∀ x t l, Keeps F s₀ t → Keeps F s₀ (pick x t l).2) (f_flash : F .flash = true := by with_reducible assumption) (f_fcu : F .fcu = true := by with_reducible assumption) (f_regs : F .regs = true := by with_reducible assumption) (f_mem : F .mem = true := by with_reducible assumption) (f_cores : F .cores = true := by with_reducible assumption) : Keeps F s₀ (s.tokenRoutine d c id pick) := by
  unfold State.tokenRoutine
  repeat' first
    | with_reducible assumption
    | with_reducible apply State.inRoutine_keeps
    | with_reducible apply State.routineEnds_keeps
    | with_reducible apply State.routinePushes_keeps
    | with_reducible apply hp
    | intro _
    | with_reducible apply Keeps.ite
    | split
    | dsimp only


theorem execSample_good {F : Part → Bool} {d c : Nat} {s : State} (f_free : F .free = true := by with_reducible assumption) (f_flash : F .flash = true := by with_reducible assumption) (f_fcu : F .fcu = true := by with_reducible assumption) (f_regs : F .regs = true := by with_reducible assumption) (f_mem : F .mem = true := by with_reducible assumption) (f_cores : F .cores = true := by with_reducible assumption) : Good F s (execSample d c s) := by
  unfold execSample
  repeat' first
    | with_reducible assumption
    | with_reducible apply State.fresh_keeps
    | refine State.fresh_keeps_of ?_ (by with_reducible assumption)
    | with_reducible apply State.tokenRoutine_keeps
    | with_reducible apply Good.next
    | with_reducible exact Keeps.rfl
    | intro _
    | with_reducible apply Keeps.ite
    | split
    | dsimp only

theorem execArgmax_good {F : Part → Bool} {d c : Nat} {s : State} (f_flash : F .flash = true := by with_reducible assumption) (f_fcu : F .fcu = true := by with_reducible assumption) (f_regs : F .regs = true := by with_reducible assumption) (f_mem : F .mem = true := by with_reducible assumption) (f_cores : F .cores = true := by with_reducible assumption) : Good F s (execArgmax d c s) := by
  unfold execArgmax
  repeat' first
    | with_reducible assumption
    | with_reducible apply State.tokenRoutine_keeps
    | with_reducible apply Good.next
    | with_reducible exact Keeps.rfl
    | intro _
    | with_reducible apply Keeps.ite
    | split
    | dsimp only

theorem State.normFallback_keeps {F : Part → Bool} {s₀ : State} {s : State} {d c id : Nat} (h : Keeps F s₀ s) (f_flash : F .flash = true := by with_reducible assumption) (f_fcu : F .fcu = true := by with_reducible assumption) (f_regs : F .regs = true := by with_reducible assumption) (f_mem : F .mem = true := by with_reducible assumption) (f_cores : F .cores = true := by with_reducible assumption) : Keeps F s₀ (State.normFallback s d c id) := by
  unfold State.normFallback
  repeat' first
    | with_reducible assumption
    | with_reducible apply State.inRoutine_keeps
    | with_reducible apply State.routinePushes_keeps
    | intro _
    | with_reducible apply Keeps.ite
    | split
    | dsimp only

theorem execRmsnormFb_good {F : Part → Bool} {d c : Nat} {s : State} (f_flash : F .flash = true := by with_reducible assumption) (f_fcu : F .fcu = true := by with_reducible assumption) (f_regs : F .regs = true := by with_reducible assumption) (f_mem : F .mem = true := by with_reducible assumption) (f_cores : F .cores = true := by with_reducible assumption) : Good F s (execRmsnormFb d c s) := by
  unfold execRmsnormFb
  repeat' first
    | with_reducible assumption
    | with_reducible apply State.normFallback_keeps
    | with_reducible apply Good.next
    | with_reducible exact Keeps.rfl
    | intro _
    | with_reducible apply Keeps.ite
    | split
    | dsimp only

theorem execLayernormFb_good {F : Part → Bool} {d c : Nat} {s : State} (f_flash : F .flash = true := by with_reducible assumption) (f_fcu : F .fcu = true := by with_reducible assumption) (f_regs : F .regs = true := by with_reducible assumption) (f_mem : F .mem = true := by with_reducible assumption) (f_cores : F .cores = true := by with_reducible assumption) : Good F s (execLayernormFb d c s) := by
  unfold execLayernormFb
  repeat' first
    | with_reducible assumption
    | with_reducible apply State.normFallback_keeps
    | with_reducible apply Good.next
    | with_reducible exact Keeps.rfl
    | intro _
    | with_reducible apply Keeps.ite
    | split
    | dsimp only

theorem execSeed_good {F : Part → Bool} {d c : Nat} {s : State} (f_flash : F .flash = true := by with_reducible assumption) (f_fcu : F .fcu = true := by with_reducible assumption) (f_regs : F .regs = true := by with_reducible assumption) (f_mem : F .mem = true := by with_reducible assumption) (f_cores : F .cores = true := by with_reducible assumption) : Good F s (execSeed d c s) := by
  unfold execSeed
  repeat' first
    | with_reducible assumption
    | with_reducible apply State.inRoutine_keeps
    | with_reducible apply State.onCc_keeps
    | with_reducible apply State.routineEnds_keeps
    | with_reducible apply Good.next
    | with_reducible exact Keeps.rfl
    | intro _
    | with_reducible apply Keeps.ite
    | split
    | dsimp only

theorem State.postEnds_keeps {F : Part → Bool} {s₀ : State} {s : State} {d c at_ code : Nat} (h : Keeps F s₀ s) (f_flash : F .flash = true := by with_reducible assumption) (f_fcu : F .fcu = true := by with_reducible assumption) (f_regs : F .regs = true := by with_reducible assumption) (f_mem : F .mem = true := by with_reducible assumption) (f_cores : F .cores = true := by with_reducible assumption) : Keeps F s₀ (State.postEnds s d c at_ code) := by
  unfold State.postEnds
  repeat' first
    | with_reducible assumption
    | with_reducible apply State.onCc_keeps
    | with_reducible apply State.routinePushes_keeps
    | intro _
    | with_reducible apply Keeps.ite
    | split
    | dsimp only

theorem State.postTry_keeps {F : Part → Bool} {s₀ : State} {s : State} {d c at_ : Nat} {last : Bool} (h : Keeps F s₀ s) (f_free : F .free = true := by with_reducible assumption) (f_sent : F .sent = true := by with_reducible assumption) (f_power : F .power = true := by with_reducible assumption) (f_flash : F .flash = true := by with_reducible assumption) (f_fcu : F .fcu = true := by with_reducible assumption) (f_regs : F .regs = true := by with_reducible assumption) (f_mem : F .mem = true := by with_reducible assumption) (f_ports : F .ports = true := by with_reducible assumption) (f_cores : F .cores = true := by with_reducible assumption) (f_notices : F .notices = true := by with_reducible assumption) (f_fab : F .fab = true := by with_reducible assumption) : Keeps F s₀ (State.postTry s d c at_ last) := by
  unfold State.postTry
  repeat' first
    | with_reducible assumption
    | with_reducible apply State.dropReqs_keeps
    | with_reducible apply State.onCc_keeps
    | with_reducible apply State.post_keeps
    | refine State.post_keeps_of ?_ (by with_reducible assumption)
    | with_reducible apply State.postEnds_keeps
    | with_reducible apply State.request_keeps
    | intro _
    | with_reducible apply Keeps.ite
    | split
    | dsimp only

theorem execPostNotice_good {F : Part → Bool} {d c : Nat} {s : State} (f_free : F .free = true := by with_reducible assumption) (f_sent : F .sent = true := by with_reducible assumption) (f_power : F .power = true := by with_reducible assumption) (f_flash : F .flash = true := by with_reducible assumption) (f_fcu : F .fcu = true := by with_reducible assumption) (f_regs : F .regs = true := by with_reducible assumption) (f_mem : F .mem = true := by with_reducible assumption) (f_ports : F .ports = true := by with_reducible assumption) (f_cores : F .cores = true := by with_reducible assumption) (f_notices : F .notices = true := by with_reducible assumption) (f_fab : F .fab = true := by with_reducible assumption) : Good F s (execPostNotice d c s) := by
  unfold execPostNotice
  repeat' first
    | with_reducible assumption
    | with_reducible apply State.inRoutine_keeps
    | with_reducible apply State.postTry_keeps
    | with_reducible apply State.routineEnds_keeps
    | with_reducible apply Good.next
    | with_reducible exact Keeps.rfl
    | intro _
    | with_reducible apply Keeps.ite
    | split
    | dsimp only

theorem execPostNoticeRetry_good {F : Part → Bool} {d c : Nat} {last : Bool} {s : State} (f_free : F .free = true := by with_reducible assumption) (f_sent : F .sent = true := by with_reducible assumption) (f_power : F .power = true := by with_reducible assumption) (f_flash : F .flash = true := by with_reducible assumption) (f_fcu : F .fcu = true := by with_reducible assumption) (f_regs : F .regs = true := by with_reducible assumption) (f_mem : F .mem = true := by with_reducible assumption) (f_ports : F .ports = true := by with_reducible assumption) (f_cores : F .cores = true := by with_reducible assumption) (f_notices : F .notices = true := by with_reducible assumption) (f_fab : F .fab = true := by with_reducible assumption) : Good F s (execPostNoticeRetry d c last s) := by
  unfold execPostNoticeRetry
  repeat' first
    | with_reducible assumption
    | with_reducible apply State.inRoutine_keeps
    | with_reducible apply State.postTry_keeps
    | with_reducible apply Good.next
    | with_reducible exact Keeps.rfl
    | intro _
    | with_reducible apply Keeps.ite
    | split
    | dsimp only

theorem execOcallReturn_good {F : Part → Bool} {d c status : Nat} {s : State} (f_free : F .free = true := by with_reducible assumption) (f_flash : F .flash = true := by with_reducible assumption) (f_fcu : F .fcu = true := by with_reducible assumption) (f_regs : F .regs = true := by with_reducible assumption) (f_mem : F .mem = true := by with_reducible assumption) (f_cores : F .cores = true := by with_reducible assumption) : Good F s (execOcallReturn d c status s) := by
  unfold execOcallReturn
  repeat' first
    | with_reducible assumption
    | with_reducible apply State.ccFault_keeps
    | with_reducible apply State.oasisFail_keeps
    | with_reducible apply State.onCore_keeps
    | with_reducible apply State.settle_keeps
    | with_reducible apply Good.next
    | with_reducible exact Keeps.rfl
    | intro _
    | with_reducible apply Keeps.ite
    | split
    | dsimp only

theorem execSyncStall_good {F : Part → Bool} {d c : Nat} {s : State} (f_flash : F .flash = true := by with_reducible assumption) (f_fcu : F .fcu = true := by with_reducible assumption) (f_regs : F .regs = true := by with_reducible assumption) (f_mem : F .mem = true := by with_reducible assumption) (f_cores : F .cores = true := by with_reducible assumption) : Good F s (execSyncStall d c s) := by
  unfold execSyncStall
  repeat' first
    | with_reducible assumption
    | with_reducible apply State.coreFault_keeps
    | with_reducible apply State.onCc_keeps
    | with_reducible apply State.setReg_keeps
    | with_reducible apply State.when_keeps
    | with_reducible apply Good.next
    | with_reducible exact Keeps.rfl
    | intro _
    | with_reducible apply Keeps.ite
    | split
    | dsimp only

theorem execCcDmaErrorInterrupt_good {F : Part → Bool} {d c : Nat} {x : DmaEnd} {s : State} (f_cores : F .cores = true := by with_reducible assumption) : Good F s (execCcDmaErrorInterrupt d c x s) := by
  unfold execCcDmaErrorInterrupt
  repeat' first
    | with_reducible assumption
    | with_reducible apply State.onCore_keeps
    | with_reducible apply State.whenP_keeps
    | with_reducible apply Good.next
    | with_reducible exact Keeps.rfl
    | intro _
    | with_reducible apply Keeps.ite
    | split
    | dsimp only

end Sys2Proof.Machine
end

