-- ==== Sys2Proof/Laws/KeepsFaults.lean ====
section
/-! SUPPORT. The operations of Machine/Faults.lean undo nothing (Laws/Keeps.lean). -/

set_option Elab.async false
set_option linter.unusedTactic false
set_option linter.unreachableTactic false
set_option linter.unusedVariables false

namespace Sys2Proof.Machine

open Sys2Proof

theorem State.retireCore_keeps {F : Part → Bool} {s₀ : State} {s : State} {d c : Nat} (h : Keeps F s₀ s) (f_flash : F .flash = true := by with_reducible assumption) (f_fcu : F .fcu = true := by with_reducible assumption) (f_regs : F .regs = true := by with_reducible assumption) : Keeps F s₀ (State.retireCore s d c) := by
  unfold State.retireCore
  repeat' first
    | with_reducible assumption
    | with_reducible apply State.raise_keeps
    | with_reducible apply State.setFld_keeps
    | intro _
    | with_reducible apply Keeps.ite
    | split
    | dsimp only

theorem State.coreFaulted_keeps {F : Part → Bool} {s₀ : State} {s : State} {d c : Nat} (h : Keeps F s₀ s) (f_mgmt : F .mgmt = true := by with_reducible assumption) (f_fcu : F .fcu = true := by with_reducible assumption) : Keeps F s₀ (State.coreFaulted s d c) := by
  unfold State.coreFaulted
  repeat' first
    | with_reducible assumption
    | with_reducible apply State.onFcu_keeps
    | with_reducible apply State.onMgmt_keeps
    | intro _
    | with_reducible apply Keeps.ite
    | split
    | dsimp only

theorem State.bauFaulted_keeps {F : Part → Bool} {s₀ : State} {s : State} {d j : Nat} (h : Keeps F s₀ s) (f_mgmt : F .mgmt = true := by with_reducible assumption) (f_regs : F .regs = true := by with_reducible assumption) : Keeps F s₀ (State.bauFaulted s d j) := by
  unfold State.bauFaulted
  repeat' first
    | with_reducible assumption
    | with_reducible apply State.onMgmt_keeps
    | with_reducible apply State.setFld_keeps
    | intro _
    | with_reducible apply Keeps.ite
    | split
    | dsimp only

theorem State.raiseAndReact_keeps {F : Part → Bool} {s₀ : State} {s : State} {d id : Nat} {u : FaultUnit} {task detail : Nat} (h : Keeps F s₀ s) (f_flash : F .flash = true := by with_reducible assumption) (f_mgmt : F .mgmt = true := by with_reducible assumption) (f_fcu : F .fcu = true := by with_reducible assumption) (f_regs : F .regs = true := by with_reducible assumption) (f_mem : F .mem = true := by with_reducible assumption) (f_baus : F .baus = true := by with_reducible assumption) (f_seqs : F .seqs = true := by with_reducible assumption) (f_cores : F .cores = true := by with_reducible assumption) : Keeps F s₀ (State.raiseAndReact s d id u task detail) := by
  unfold State.raiseAndReact
  repeat' first
    | with_reducible assumption
    | with_reducible apply State.bauFaulted_keeps
    | with_reducible apply State.coreFaulted_keeps
    | with_reducible apply State.countFld_keeps
    | with_reducible apply State.raise_keeps
    | with_reducible apply State.seqFault_keeps
    | with_reducible apply State.taskFault_keeps
    | intro _
    | with_reducible apply Keeps.ite
    | split
    | dsimp only

theorem execFaultRecord_good {F : Part → Bool} {d id : Nat} {unit : FaultUnit} {task detail : Nat} {s : State} (f_flash : F .flash = true := by with_reducible assumption) (f_mgmt : F .mgmt = true := by with_reducible assumption) (f_fcu : F .fcu = true := by with_reducible assumption) (f_regs : F .regs = true := by with_reducible assumption) (f_mem : F .mem = true := by with_reducible assumption) (f_baus : F .baus = true := by with_reducible assumption) (f_seqs : F .seqs = true := by with_reducible assumption) (f_cores : F .cores = true := by with_reducible assumption) : Good F s (execFaultRecord d id unit task detail s) := by
  unfold execFaultRecord
  repeat' first
    | with_reducible assumption
    | with_reducible apply State.raiseAndReact_keeps
    | with_reducible apply State.whenP_keeps
    | with_reducible apply Good.next
    | with_reducible exact Keeps.rfl
    | intro _
    | with_reducible apply Keeps.ite
    | split
    | dsimp only

theorem execSafeStateEntry_good {F : Part → Bool} {s : State} (f_sent : F .sent = true := by with_reducible assumption) (f_power : F .power = true := by with_reducible assumption) (f_fcu : F .fcu = true := by with_reducible assumption) (f_regs : F .regs = true := by with_reducible assumption) (f_mem : F .mem = true := by with_reducible assumption) (f_stackMap : F .stackMap = true := by with_reducible assumption) (f_banks : F .banks = true := by with_reducible assumption) (f_baus : F .baus = true := by with_reducible assumption) (f_seqs : F .seqs = true := by with_reducible assumption) (f_cores : F .cores = true := by with_reducible assumption) (f_kept : F .kept = true := by with_reducible assumption) (f_kv : F .kv = true := by with_reducible assumption) (f_fab : F .fab = true := by with_reducible assumption) : Good F s (execSafeStateEntry s) := by
  unfold execSafeStateEntry
  repeat' first
    | with_reducible assumption
    | with_reducible apply Keeps.foldl
    | with_reducible apply State.abandonWork_keeps
    | with_reducible apply State.drivePin_keeps
    | with_reducible apply State.onFcu_keeps
    | with_reducible apply State.onMem_keeps
    | exact Memory.wf_same (by with_reducible rfl) (by with_reducible rfl)
    | with_reducible apply State.onPower_keeps
    | with_reducible apply State.send_keeps
    | with_reducible apply State.sendDowns_keeps
    | with_reducible apply State.setFld_keeps
    | with_reducible apply State.sleepStacks_keeps
    | with_reducible apply Good.next
    | with_reducible exact Keeps.rfl
    | intro _
    | with_reducible apply Keeps.ite
    | split
    | with_reducible apply Keeps.banks_set
    | dsimp only

theorem execFcuLockstep_good {F : Part → Bool} {d : Nat} {s : State} (f_flash : F .flash = true := by with_reducible assumption) (f_fcu : F .fcu = true := by with_reducible assumption) (f_regs : F .regs = true := by with_reducible assumption) : Good F s (execFcuLockstep d s) := by
  unfold execFcuLockstep
  repeat' first
    | with_reducible assumption
    | with_reducible apply State.raise_keeps
    | with_reducible apply State.whenP_keeps
    | with_reducible apply Good.next
    | with_reducible exact Keeps.rfl
    | intro _
    | with_reducible apply Keeps.ite
    | split
    | dsimp only

theorem execFcuSelf_good {F : Part → Bool} {d : Nat} {s : State} (f_flash : F .flash = true := by with_reducible assumption) (f_fcu : F .fcu = true := by with_reducible assumption) (f_regs : F .regs = true := by with_reducible assumption) : Good F s (execFcuSelf d s) := by
  unfold execFcuSelf
  repeat' first
    | with_reducible assumption
    | with_reducible apply State.raise_keeps
    | with_reducible apply State.whenP_keeps
    | with_reducible apply Good.next
    | with_reducible exact Keeps.rfl
    | intro _
    | with_reducible apply Keeps.ite
    | split
    | dsimp only

theorem execTimebaseCheck_good {F : Part → Bool} {d ppm : Nat} {s : State} (f_flash : F .flash = true := by with_reducible assumption) (f_fcu : F .fcu = true := by with_reducible assumption) (f_regs : F .regs = true := by with_reducible assumption) : Good F s (execTimebaseCheck d ppm s) := by
  unfold execTimebaseCheck
  repeat' first
    | with_reducible assumption
    | with_reducible apply State.raise_keeps
    | with_reducible apply State.whenP_keeps
    | with_reducible apply Good.next
    | with_reducible exact Keeps.rfl
    | intro _
    | with_reducible apply Keeps.ite
    | split
    | dsimp only

theorem execAutomaticReset_good {F : Part → Bool} {s : State} (f_dieTime : F .dieTime = true := by with_reducible assumption) (f_power : F .power = true := by with_reducible assumption) (f_flash : F .flash = true := by with_reducible assumption) (f_boot : F .boot = true := by with_reducible assumption) (f_mgmt : F .mgmt = true := by with_reducible assumption) (f_fcu : F .fcu = true := by with_reducible assumption) (f_cfg : F .cfg = true := by with_reducible assumption) (f_regs : F .regs = true := by with_reducible assumption) (f_mem : F .mem = true := by with_reducible assumption) (f_stackMap : F .stackMap = true := by with_reducible assumption) (f_banks : F .banks = true := by with_reducible assumption) (f_baus : F .baus = true := by with_reducible assumption) (f_seqs : F .seqs = true := by with_reducible assumption) (f_seqNext : F .seqNext = true := by with_reducible assumption) (f_slots : F .slots = true := by with_reducible assumption) (f_ports : F .ports = true := by with_reducible assumption) (f_cores : F .cores = true := by with_reducible assumption) (f_notices : F .notices = true := by with_reducible assumption) (f_kept : F .kept = true := by with_reducible assumption) (f_kv : F .kv = true := by with_reducible assumption) (f_ldr : F .ldr = true := by with_reducible assumption) (f_fab : F .fab = true := by with_reducible assumption) : Good F s (execAutomaticReset s) := by
  unfold execAutomaticReset
  repeat' first
    | with_reducible assumption
    | with_reducible apply State.moduleReset_keeps
    | with_reducible apply State.when_keeps
    | with_reducible apply Good.next
    | with_reducible exact Keeps.rfl
    | intro _
    | with_reducible apply Keeps.ite
    | split
    | dsimp only

theorem execFaultLogFlush_good {F : Part → Bool} {s : State} (f_flash : F .flash = true := by with_reducible assumption) (f_fcu : F .fcu = true := by with_reducible assumption) : Good F s (execFaultLogFlush s) := by
  unfold execFaultLogFlush
  repeat' first
    | with_reducible assumption
    | with_reducible apply State.flushLog_keeps
    | with_reducible apply Good.next
    | with_reducible exact Keeps.rfl
    | intro _
    | with_reducible apply Keeps.ite
    | split
    | dsimp only

theorem execHeartbeatToggle_good {F : Part → Bool} {s : State} (f_power : F .power = true := by with_reducible assumption) : Good F s (execHeartbeatToggle s) := by
  unfold execHeartbeatToggle
  repeat' first
    | with_reducible assumption
    | with_reducible apply State.onPower_keeps
    | refine State.pin_keeps ?_ (by with_reducible assumption)
    | with_reducible apply State.whenP_keeps
    | with_reducible apply Good.next
    | with_reducible exact Keeps.rfl
    | intro _
    | with_reducible apply Keeps.ite
    | split
    | dsimp only

theorem execFaultPulseEnd_good {F : Part → Bool} {s : State} (f_power : F .power = true := by with_reducible assumption) : Good F s (execFaultPulseEnd s) := by
  unfold execFaultPulseEnd
  repeat' first
    | with_reducible assumption
    | with_reducible apply State.drivePin_keeps
    | with_reducible apply State.onPower_keeps
    | with_reducible apply State.whenP_keeps
    | with_reducible apply Good.next
    | with_reducible exact Keeps.rfl
    | intro _
    | with_reducible apply Keeps.ite
    | split
    | dsimp only

theorem execFcuPinHoldWrite_good {F : Part → Bool} {value : Word} {s : State} (f_power : F .power = true := by with_reducible assumption) (f_regs : F .regs = true := by with_reducible assumption) : Good F s (execFcuPinHoldWrite value s) := by
  unfold execFcuPinHoldWrite
  repeat' first
    | with_reducible assumption
    | with_reducible apply State.whenP_keeps
    | with_reducible apply State.writeHold_keeps
    | with_reducible apply Good.next
    | with_reducible exact Keeps.rfl
    | intro _
    | with_reducible apply Keeps.ite
    | split
    | dsimp only

theorem execCoreLogicTestDone_good {F : Part → Bool} {d c : Nat} {pass : Bool} {s : State} (f_sent : F .sent = true := by with_reducible assumption) (f_flash : F .flash = true := by with_reducible assumption) (f_mgmt : F .mgmt = true := by with_reducible assumption) (f_fcu : F .fcu = true := by with_reducible assumption) (f_regs : F .regs = true := by with_reducible assumption) (f_mem : F .mem = true := by with_reducible assumption) : Good F s (execCoreLogicTestDone d c pass s) := by
  unfold execCoreLogicTestDone
  repeat' first
    | with_reducible assumption
    | with_reducible apply State.mgmtComplete_keeps
    | with_reducible apply State.onMgmt_keeps
    | with_reducible apply State.retireCore_keeps
    | with_reducible apply Good.next
    | with_reducible exact Keeps.rfl
    | intro _
    | with_reducible apply Keeps.ite
    | split
    | dsimp only

theorem execBauSelftestDone_good {F : Part → Bool} {stk : Nat} {failed : List Nat} {s : State} (f_sent : F .sent = true := by with_reducible assumption) (f_mgmt : F .mgmt = true := by with_reducible assumption) (f_regs : F .regs = true := by with_reducible assumption) (f_mem : F .mem = true := by with_reducible assumption) (f_stackMap : F .stackMap = true := by with_reducible assumption) : Good F s (execBauSelftestDone stk failed s) := by
  unfold execBauSelftestDone
  repeat' first
    | with_reducible assumption
    | with_reducible apply Keeps.foldl
    | with_reducible apply State.mgmtComplete_keeps
    | with_reducible apply State.onMgmt_keeps
    | with_reducible apply State.onStack_keeps
    | with_reducible apply State.setFld_keeps
    | with_reducible apply Good.next
    | with_reducible exact Keeps.rfl
    | intro _
    | with_reducible apply Keeps.ite
    | split
    | dsimp only

theorem State.linkDown_keeps {F : Part → Bool} {s₀ : State} {s : State} {n : Nat} (h : Keeps F s₀ s) (f_free : F .free = true := by with_reducible assumption) (f_sent : F .sent = true := by with_reducible assumption) (f_power : F .power = true := by with_reducible assumption) (f_flash : F .flash = true := by with_reducible assumption) (f_mgmt : F .mgmt = true := by with_reducible assumption) (f_fcu : F .fcu = true := by with_reducible assumption) (f_regs : F .regs = true := by with_reducible assumption) (f_mem : F .mem = true := by with_reducible assumption) (f_stackMap : F .stackMap = true := by with_reducible assumption) (f_banks : F .banks = true := by with_reducible assumption) (f_baus : F .baus = true := by with_reducible assumption) (f_seqs : F .seqs = true := by with_reducible assumption) (f_seqNext : F .seqNext = true := by with_reducible assumption) (f_slots : F .slots = true := by with_reducible assumption) (f_ports : F .ports = true := by with_reducible assumption) (f_notices : F .notices = true := by with_reducible assumption) (f_fab : F .fab = true := by with_reducible assumption) : Keeps F s₀ (State.linkDown s n) := by
  unfold State.linkDown
  repeat' first
    | with_reducible assumption
    | with_reducible apply State.onFcu_keeps
    | with_reducible apply State.raise_keeps
    | with_reducible apply State.retry_keeps
    | intro _
    | with_reducible apply Keeps.ite
    | split
    | dsimp only

theorem execNocParity_good {F : Part → Bool} {d : Nat} {linkEnd : Option Nat} {victim : Option (Agent × Target × Bool)} {s : State} (f_free : F .free = true := by with_reducible assumption) (f_sent : F .sent = true := by with_reducible assumption) (f_power : F .power = true := by with_reducible assumption) (f_flash : F .flash = true := by with_reducible assumption) (f_mgmt : F .mgmt = true := by with_reducible assumption) (f_fcu : F .fcu = true := by with_reducible assumption) (f_regs : F .regs = true := by with_reducible assumption) (f_mem : F .mem = true := by with_reducible assumption) (f_stackMap : F .stackMap = true := by with_reducible assumption) (f_banks : F .banks = true := by with_reducible assumption) (f_baus : F .baus = true := by with_reducible assumption) (f_seqs : F .seqs = true := by with_reducible assumption) (f_seqNext : F .seqNext = true := by with_reducible assumption) (f_slots : F .slots = true := by with_reducible assumption) (f_ports : F .ports = true := by with_reducible assumption) (f_notices : F .notices = true := by with_reducible assumption) (f_fab : F .fab = true := by with_reducible assumption) : Good F s (execNocParity d linkEnd victim s) := by
  unfold execNocParity
  repeat' first
    | with_reducible assumption
    | with_reducible apply State.answer_keeps
    | with_reducible apply State.linkDown_keeps
    | with_reducible apply State.onFcu_keeps
    | with_reducible apply State.raise_keeps
    | with_reducible apply State.whenP_keeps
    | with_reducible apply Good.next
    | with_reducible exact Keeps.rfl
    | intro _
    | with_reducible apply Keeps.ite
    | split
    | dsimp only

theorem execLinkRetrainDone_good {F : Part → Bool} {d : Nat} {linkEnd : Option Nat} {ok : Bool} {s : State} (f_free : F .free = true := by with_reducible assumption) (f_sent : F .sent = true := by with_reducible assumption) (f_power : F .power = true := by with_reducible assumption) (f_flash : F .flash = true := by with_reducible assumption) (f_mgmt : F .mgmt = true := by with_reducible assumption) (f_fcu : F .fcu = true := by with_reducible assumption) (f_regs : F .regs = true := by with_reducible assumption) (f_mem : F .mem = true := by with_reducible assumption) (f_stackMap : F .stackMap = true := by with_reducible assumption) (f_banks : F .banks = true := by with_reducible assumption) (f_baus : F .baus = true := by with_reducible assumption) (f_seqs : F .seqs = true := by with_reducible assumption) (f_seqNext : F .seqNext = true := by with_reducible assumption) (f_slots : F .slots = true := by with_reducible assumption) (f_ports : F .ports = true := by with_reducible assumption) (f_notices : F .notices = true := by with_reducible assumption) (f_fab : F .fab = true := by with_reducible assumption) : Good F s (execLinkRetrainDone d linkEnd ok s) := by
  unfold execLinkRetrainDone
  repeat' first
    | with_reducible assumption
    | with_reducible apply State.linkDown_keeps
    | with_reducible apply State.onFcu_keeps
    | with_reducible apply State.retry_keeps
    | with_reducible apply State.when_keeps
    | with_reducible apply Good.next
    | with_reducible exact Keeps.rfl
    | intro _
    | with_reducible apply Keeps.ite
    | split
    | dsimp only

theorem execDdlLinkDown_good {F : Part → Bool} {dl : Nat} {s : State} (f_free : F .free = true := by with_reducible assumption) (f_sent : F .sent = true := by with_reducible assumption) (f_power : F .power = true := by with_reducible assumption) (f_flash : F .flash = true := by with_reducible assumption) (f_mgmt : F .mgmt = true := by with_reducible assumption) (f_fcu : F .fcu = true := by with_reducible assumption) (f_regs : F .regs = true := by with_reducible assumption) (f_mem : F .mem = true := by with_reducible assumption) (f_stackMap : F .stackMap = true := by with_reducible assumption) (f_banks : F .banks = true := by with_reducible assumption) (f_baus : F .baus = true := by with_reducible assumption) (f_seqs : F .seqs = true := by with_reducible assumption) (f_seqNext : F .seqNext = true := by with_reducible assumption) (f_slots : F .slots = true := by with_reducible assumption) (f_ports : F .ports = true := by with_reducible assumption) (f_notices : F .notices = true := by with_reducible assumption) (f_fab : F .fab = true := by with_reducible assumption) : Good F s (execDdlLinkDown dl s) := by
  unfold execDdlLinkDown
  repeat' first
    | with_reducible assumption
    | with_reducible apply State.linkDown_keeps
    | with_reducible apply State.whenP_keeps
    | with_reducible apply Good.next
    | with_reducible exact Keeps.rfl
    | intro _
    | with_reducible apply Keeps.ite
    | split
    | dsimp only

end Sys2Proof.Machine
end

