-- ==== Sys2Proof/Laws/KeepsExecute.lean ====
section
/-! SUPPORT. The operations of Machine/Execute.lean undo nothing (Laws/Keeps.lean). -/

set_option Elab.async false
set_option linter.unusedTactic false
set_option linter.unreachableTactic false
set_option linter.unusedVariables false

namespace Sys2Proof.Machine

open Sys2Proof

theorem State.issueX_keeps {F : Part → Bool} {s₀ : State} {s : State} {d c o : Nat} {fnOk : Nat → Bool} {base arg : Core → Nat → Nat} (h : Keeps F s₀ s) (f_free : F .free = true := by with_reducible assumption) (f_flash : F .flash = true := by with_reducible assumption) (f_fcu : F .fcu = true := by with_reducible assumption) (f_regs : F .regs = true := by with_reducible assumption) (f_mem : F .mem = true := by with_reducible assumption) (f_cores : F .cores = true := by with_reducible assumption) (f_kv : F .kv = true := by with_reducible assumption) : Keeps F s₀ (State.issueX s d c o fnOk base arg) := by
  unfold State.issueX
  repeat' first
    | with_reducible assumption
    | with_reducible apply State.addJob_keeps
    | with_reducible apply State.onCore_keeps
    | with_reducible apply State.settle_keeps
    | with_reducible apply State.when_keeps
    | intro _
    | with_reducible apply Keeps.ite
    | split
    | dsimp only

theorem State.issueVop_keeps {F : Part → Bool} {s₀ : State} {s : State} {d c fn : Nat} (h : Keeps F s₀ s) (f_free : F .free = true := by with_reducible assumption) (f_flash : F .flash = true := by with_reducible assumption) (f_fcu : F .fcu = true := by with_reducible assumption) (f_regs : F .regs = true := by with_reducible assumption) (f_mem : F .mem = true := by with_reducible assumption) (f_cores : F .cores = true := by with_reducible assumption) (f_kv : F .kv = true := by with_reducible assumption) : Keeps F s₀ (State.issueVop s d c fn) := by
  unfold State.issueVop
  repeat' first
    | with_reducible assumption
    | with_reducible apply State.issueX_keeps
    | intro _
    | with_reducible apply Keeps.ite
    | split
    | dsimp only

theorem execMma_good {F : Part → Bool} {d c : Nat} {s : State} (f_free : F .free = true := by with_reducible assumption) (f_flash : F .flash = true := by with_reducible assumption) (f_fcu : F .fcu = true := by with_reducible assumption) (f_regs : F .regs = true := by with_reducible assumption) (f_mem : F .mem = true := by with_reducible assumption) (f_cores : F .cores = true := by with_reducible assumption) (f_kv : F .kv = true := by with_reducible assumption) : Good F s (execMma d c s) := by
  unfold execMma
  repeat' first
    | with_reducible assumption
    | with_reducible apply State.issueX_keeps
    | with_reducible apply Good.next
    | with_reducible exact Keeps.rfl
    | intro _
    | with_reducible apply Keeps.ite
    | split
    | dsimp only

theorem execVadd_good {F : Part → Bool} {d c : Nat} {s : State} (f_free : F .free = true := by with_reducible assumption) (f_flash : F .flash = true := by with_reducible assumption) (f_fcu : F .fcu = true := by with_reducible assumption) (f_regs : F .regs = true := by with_reducible assumption) (f_mem : F .mem = true := by with_reducible assumption) (f_cores : F .cores = true := by with_reducible assumption) (f_kv : F .kv = true := by with_reducible assumption) : Good F s (execVadd d c s) := by
  unfold execVadd
  repeat' first
    | with_reducible assumption
    | with_reducible apply State.issueVop_keeps
    | with_reducible apply Good.next
    | with_reducible exact Keeps.rfl
    | intro _
    | with_reducible apply Keeps.ite
    | split
    | dsimp only

theorem execVsub_good {F : Part → Bool} {d c : Nat} {s : State} (f_free : F .free = true := by with_reducible assumption) (f_flash : F .flash = true := by with_reducible assumption) (f_fcu : F .fcu = true := by with_reducible assumption) (f_regs : F .regs = true := by with_reducible assumption) (f_mem : F .mem = true := by with_reducible assumption) (f_cores : F .cores = true := by with_reducible assumption) (f_kv : F .kv = true := by with_reducible assumption) : Good F s (execVsub d c s) := by
  unfold execVsub
  repeat' first
    | with_reducible assumption
    | with_reducible apply State.issueVop_keeps
    | with_reducible apply Good.next
    | with_reducible exact Keeps.rfl
    | intro _
    | with_reducible apply Keeps.ite
    | split
    | dsimp only

theorem execVmul_good {F : Part → Bool} {d c : Nat} {s : State} (f_free : F .free = true := by with_reducible assumption) (f_flash : F .flash = true := by with_reducible assumption) (f_fcu : F .fcu = true := by with_reducible assumption) (f_regs : F .regs = true := by with_reducible assumption) (f_mem : F .mem = true := by with_reducible assumption) (f_cores : F .cores = true := by with_reducible assumption) (f_kv : F .kv = true := by with_reducible assumption) : Good F s (execVmul d c s) := by
  unfold execVmul
  repeat' first
    | with_reducible assumption
    | with_reducible apply State.issueVop_keeps
    | with_reducible apply Good.next
    | with_reducible exact Keeps.rfl
    | intro _
    | with_reducible apply Keeps.ite
    | split
    | dsimp only

theorem execVfma_good {F : Part → Bool} {d c : Nat} {s : State} (f_free : F .free = true := by with_reducible assumption) (f_flash : F .flash = true := by with_reducible assumption) (f_fcu : F .fcu = true := by with_reducible assumption) (f_regs : F .regs = true := by with_reducible assumption) (f_mem : F .mem = true := by with_reducible assumption) (f_cores : F .cores = true := by with_reducible assumption) (f_kv : F .kv = true := by with_reducible assumption) : Good F s (execVfma d c s) := by
  unfold execVfma
  repeat' first
    | with_reducible assumption
    | with_reducible apply State.issueVop_keeps
    | with_reducible apply Good.next
    | with_reducible exact Keeps.rfl
    | intro _
    | with_reducible apply Keeps.ite
    | split
    | dsimp only

theorem execVmax_good {F : Part → Bool} {d c : Nat} {s : State} (f_free : F .free = true := by with_reducible assumption) (f_flash : F .flash = true := by with_reducible assumption) (f_fcu : F .fcu = true := by with_reducible assumption) (f_regs : F .regs = true := by with_reducible assumption) (f_mem : F .mem = true := by with_reducible assumption) (f_cores : F .cores = true := by with_reducible assumption) (f_kv : F .kv = true := by with_reducible assumption) : Good F s (execVmax d c s) := by
  unfold execVmax
  repeat' first
    | with_reducible assumption
    | with_reducible apply State.issueVop_keeps
    | with_reducible apply Good.next
    | with_reducible exact Keeps.rfl
    | intro _
    | with_reducible apply Keeps.ite
    | split
    | dsimp only

theorem execVmin_good {F : Part → Bool} {d c : Nat} {s : State} (f_free : F .free = true := by with_reducible assumption) (f_flash : F .flash = true := by with_reducible assumption) (f_fcu : F .fcu = true := by with_reducible assumption) (f_regs : F .regs = true := by with_reducible assumption) (f_mem : F .mem = true := by with_reducible assumption) (f_cores : F .cores = true := by with_reducible assumption) (f_kv : F .kv = true := by with_reducible assumption) : Good F s (execVmin d c s) := by
  unfold execVmin
  repeat' first
    | with_reducible assumption
    | with_reducible apply State.issueVop_keeps
    | with_reducible apply Good.next
    | with_reducible exact Keeps.rfl
    | intro _
    | with_reducible apply Keeps.ite
    | split
    | dsimp only

theorem execVaddi_good {F : Part → Bool} {d c : Nat} {s : State} (f_free : F .free = true := by with_reducible assumption) (f_flash : F .flash = true := by with_reducible assumption) (f_fcu : F .fcu = true := by with_reducible assumption) (f_regs : F .regs = true := by with_reducible assumption) (f_mem : F .mem = true := by with_reducible assumption) (f_cores : F .cores = true := by with_reducible assumption) (f_kv : F .kv = true := by with_reducible assumption) : Good F s (execVaddi d c s) := by
  unfold execVaddi
  repeat' first
    | with_reducible assumption
    | with_reducible apply State.issueVop_keeps
    | with_reducible apply Good.next
    | with_reducible exact Keeps.rfl
    | intro _
    | with_reducible apply Keeps.ite
    | split
    | dsimp only

theorem execVmuli_good {F : Part → Bool} {d c : Nat} {s : State} (f_free : F .free = true := by with_reducible assumption) (f_flash : F .flash = true := by with_reducible assumption) (f_fcu : F .fcu = true := by with_reducible assumption) (f_regs : F .regs = true := by with_reducible assumption) (f_mem : F .mem = true := by with_reducible assumption) (f_cores : F .cores = true := by with_reducible assumption) (f_kv : F .kv = true := by with_reducible assumption) : Good F s (execVmuli d c s) := by
  unfold execVmuli
  repeat' first
    | with_reducible assumption
    | with_reducible apply State.issueVop_keeps
    | with_reducible apply Good.next
    | with_reducible exact Keeps.rfl
    | intro _
    | with_reducible apply Keeps.ite
    | split
    | dsimp only

theorem execVexp_good {F : Part → Bool} {d c : Nat} {s : State} (f_free : F .free = true := by with_reducible assumption) (f_flash : F .flash = true := by with_reducible assumption) (f_fcu : F .fcu = true := by with_reducible assumption) (f_regs : F .regs = true := by with_reducible assumption) (f_mem : F .mem = true := by with_reducible assumption) (f_cores : F .cores = true := by with_reducible assumption) (f_kv : F .kv = true := by with_reducible assumption) : Good F s (execVexp d c s) := by
  unfold execVexp
  repeat' first
    | with_reducible assumption
    | with_reducible apply State.issueVop_keeps
    | with_reducible apply Good.next
    | with_reducible exact Keeps.rfl
    | intro _
    | with_reducible apply Keeps.ite
    | split
    | dsimp only

theorem execVrecip_good {F : Part → Bool} {d c : Nat} {s : State} (f_free : F .free = true := by with_reducible assumption) (f_flash : F .flash = true := by with_reducible assumption) (f_fcu : F .fcu = true := by with_reducible assumption) (f_regs : F .regs = true := by with_reducible assumption) (f_mem : F .mem = true := by with_reducible assumption) (f_cores : F .cores = true := by with_reducible assumption) (f_kv : F .kv = true := by with_reducible assumption) : Good F s (execVrecip d c s) := by
  unfold execVrecip
  repeat' first
    | with_reducible assumption
    | with_reducible apply State.issueVop_keeps
    | with_reducible apply Good.next
    | with_reducible exact Keeps.rfl
    | intro _
    | with_reducible apply Keeps.ite
    | split
    | dsimp only

theorem execVrsqrt_good {F : Part → Bool} {d c : Nat} {s : State} (f_free : F .free = true := by with_reducible assumption) (f_flash : F .flash = true := by with_reducible assumption) (f_fcu : F .fcu = true := by with_reducible assumption) (f_regs : F .regs = true := by with_reducible assumption) (f_mem : F .mem = true := by with_reducible assumption) (f_cores : F .cores = true := by with_reducible assumption) (f_kv : F .kv = true := by with_reducible assumption) : Good F s (execVrsqrt d c s) := by
  unfold execVrsqrt
  repeat' first
    | with_reducible assumption
    | with_reducible apply State.issueVop_keeps
    | with_reducible apply Good.next
    | with_reducible exact Keeps.rfl
    | intro _
    | with_reducible apply Keeps.ite
    | split
    | dsimp only

theorem execVact_good {F : Part → Bool} {d c : Nat} {s : State} (f_free : F .free = true := by with_reducible assumption) (f_flash : F .flash = true := by with_reducible assumption) (f_fcu : F .fcu = true := by with_reducible assumption) (f_regs : F .regs = true := by with_reducible assumption) (f_mem : F .mem = true := by with_reducible assumption) (f_cores : F .cores = true := by with_reducible assumption) (f_kv : F .kv = true := by with_reducible assumption) : Good F s (execVact d c s) := by
  unfold execVact
  repeat' first
    | with_reducible assumption
    | with_reducible apply State.issueVop_keeps
    | with_reducible apply Good.next
    | with_reducible exact Keeps.rfl
    | intro _
    | with_reducible apply Keeps.ite
    | split
    | dsimp only

theorem execVcmp_good {F : Part → Bool} {d c : Nat} {s : State} (f_free : F .free = true := by with_reducible assumption) (f_flash : F .flash = true := by with_reducible assumption) (f_fcu : F .fcu = true := by with_reducible assumption) (f_regs : F .regs = true := by with_reducible assumption) (f_mem : F .mem = true := by with_reducible assumption) (f_cores : F .cores = true := by with_reducible assumption) (f_kv : F .kv = true := by with_reducible assumption) : Good F s (execVcmp d c s) := by
  unfold execVcmp
  repeat' first
    | with_reducible assumption
    | with_reducible apply State.issueVop_keeps
    | with_reducible apply Good.next
    | with_reducible exact Keeps.rfl
    | intro _
    | with_reducible apply Keeps.ite
    | split
    | dsimp only

theorem execVsel_good {F : Part → Bool} {d c : Nat} {s : State} (f_free : F .free = true := by with_reducible assumption) (f_flash : F .flash = true := by with_reducible assumption) (f_fcu : F .fcu = true := by with_reducible assumption) (f_regs : F .regs = true := by with_reducible assumption) (f_mem : F .mem = true := by with_reducible assumption) (f_cores : F .cores = true := by with_reducible assumption) (f_kv : F .kv = true := by with_reducible assumption) : Good F s (execVsel d c s) := by
  unfold execVsel
  repeat' first
    | with_reducible assumption
    | with_reducible apply State.issueVop_keeps
    | with_reducible apply Good.next
    | with_reducible exact Keeps.rfl
    | intro _
    | with_reducible apply Keeps.ite
    | split
    | dsimp only

theorem execVcopy_good {F : Part → Bool} {d c : Nat} {s : State} (f_free : F .free = true := by with_reducible assumption) (f_flash : F .flash = true := by with_reducible assumption) (f_fcu : F .fcu = true := by with_reducible assumption) (f_regs : F .regs = true := by with_reducible assumption) (f_mem : F .mem = true := by with_reducible assumption) (f_cores : F .cores = true := by with_reducible assumption) (f_kv : F .kv = true := by with_reducible assumption) : Good F s (execVcopy d c s) := by
  unfold execVcopy
  repeat' first
    | with_reducible assumption
    | with_reducible apply State.issueVop_keeps
    | with_reducible apply Good.next
    | with_reducible exact Keeps.rfl
    | intro _
    | with_reducible apply Keeps.ite
    | split
    | dsimp only

theorem execVred_good {F : Part → Bool} {d c : Nat} {s : State} (f_free : F .free = true := by with_reducible assumption) (f_flash : F .flash = true := by with_reducible assumption) (f_fcu : F .fcu = true := by with_reducible assumption) (f_regs : F .regs = true := by with_reducible assumption) (f_mem : F .mem = true := by with_reducible assumption) (f_cores : F .cores = true := by with_reducible assumption) (f_kv : F .kv = true := by with_reducible assumption) : Good F s (execVred d c s) := by
  unfold execVred
  repeat' first
    | with_reducible assumption
    | with_reducible apply State.issueVop_keeps
    | with_reducible apply Good.next
    | with_reducible exact Keeps.rfl
    | intro _
    | with_reducible apply Keeps.ite
    | split
    | dsimp only

theorem execVsoftmax_good {F : Part → Bool} {d c : Nat} {s : State} (f_free : F .free = true := by with_reducible assumption) (f_flash : F .flash = true := by with_reducible assumption) (f_fcu : F .fcu = true := by with_reducible assumption) (f_regs : F .regs = true := by with_reducible assumption) (f_mem : F .mem = true := by with_reducible assumption) (f_cores : F .cores = true := by with_reducible assumption) (f_kv : F .kv = true := by with_reducible assumption) : Good F s (execVsoftmax d c s) := by
  unfold execVsoftmax
  repeat' first
    | with_reducible assumption
    | with_reducible apply State.issueVop_keeps
    | with_reducible apply Good.next
    | with_reducible exact Keeps.rfl
    | intro _
    | with_reducible apply Keeps.ite
    | split
    | dsimp only

theorem execVcvt_good {F : Part → Bool} {d c : Nat} {s : State} (f_free : F .free = true := by with_reducible assumption) (f_flash : F .flash = true := by with_reducible assumption) (f_fcu : F .fcu = true := by with_reducible assumption) (f_regs : F .regs = true := by with_reducible assumption) (f_mem : F .mem = true := by with_reducible assumption) (f_cores : F .cores = true := by with_reducible assumption) (f_kv : F .kv = true := by with_reducible assumption) : Good F s (execVcvt d c s) := by
  unfold execVcvt
  repeat' first
    | with_reducible assumption
    | with_reducible apply State.issueVop_keeps
    | with_reducible apply Good.next
    | with_reducible exact Keeps.rfl
    | intro _
    | with_reducible apply Keeps.ite
    | split
    | dsimp only

theorem execVperm_good {F : Part → Bool} {d c : Nat} {s : State} (f_free : F .free = true := by with_reducible assumption) (f_flash : F .flash = true := by with_reducible assumption) (f_fcu : F .fcu = true := by with_reducible assumption) (f_regs : F .regs = true := by with_reducible assumption) (f_mem : F .mem = true := by with_reducible assumption) (f_cores : F .cores = true := by with_reducible assumption) (f_kv : F .kv = true := by with_reducible assumption) : Good F s (execVperm d c s) := by
  unfold execVperm
  repeat' first
    | with_reducible assumption
    | with_reducible apply State.issueVop_keeps
    | with_reducible apply Good.next
    | with_reducible exact Keeps.rfl
    | intro _
    | with_reducible apply Keeps.ite
    | split
    | dsimp only

theorem execVgather_good {F : Part → Bool} {d c : Nat} {s : State} (f_free : F .free = true := by with_reducible assumption) (f_flash : F .flash = true := by with_reducible assumption) (f_fcu : F .fcu = true := by with_reducible assumption) (f_regs : F .regs = true := by with_reducible assumption) (f_mem : F .mem = true := by with_reducible assumption) (f_cores : F .cores = true := by with_reducible assumption) (f_kv : F .kv = true := by with_reducible assumption) : Good F s (execVgather d c s) := by
  unfold execVgather
  repeat' first
    | with_reducible assumption
    | with_reducible apply State.issueX_keeps
    | with_reducible apply Good.next
    | with_reducible exact Keeps.rfl
    | intro _
    | with_reducible apply Keeps.ite
    | split
    | dsimp only

theorem execOcall_good {F : Part → Bool} {d c : Nat} {s : State} (f_cores : F .cores = true := by with_reducible assumption) (f_kv : F .kv = true := by with_reducible assumption) : Good F s (execOcall d c s) := by
  unfold execOcall
  repeat' first
    | with_reducible assumption
    | with_reducible apply State.addJob_keeps
    | with_reducible apply State.onCore_keeps
    | with_reducible apply State.when_keeps
    | with_reducible apply Good.next
    | with_reducible exact Keeps.rfl
    | intro _
    | with_reducible apply Keeps.ite
    | split
    | dsimp only

theorem execMirageCheck_good {F : Part → Bool} {d c : Nat} {s : State} (f_free : F .free = true := by with_reducible assumption) (f_flash : F .flash = true := by with_reducible assumption) (f_mgmt : F .mgmt = true := by with_reducible assumption) (f_fcu : F .fcu = true := by with_reducible assumption) (f_regs : F .regs = true := by with_reducible assumption) (f_mem : F .mem = true := by with_reducible assumption) (f_baus : F .baus = true := by with_reducible assumption) (f_seqs : F .seqs = true := by with_reducible assumption) (f_cores : F .cores = true := by with_reducible assumption) : Good F s (execMirageCheck d c s) := by
  unfold execMirageCheck
  repeat' first
    | with_reducible assumption
    | with_reducible apply State.countFld_keeps
    | with_reducible apply State.onCore_keeps
    | with_reducible apply State.raiseAndReact_keeps
    | with_reducible apply State.settle_keeps
    | with_reducible apply Good.next
    | with_reducible exact Keeps.rfl
    | intro _
    | with_reducible apply Keeps.ite
    | split
    | dsimp only

end Sys2Proof.Machine
end

