-- ==== Sys2Proof/Laws/KeepsHostPortCmds.lean ====
section
/-! SUPPORT. The operations of Machine/HostPortCmds.lean undo nothing (Laws/Keeps.lean). -/

set_option Elab.async false
set_option linter.unusedTactic false
set_option linter.unreachableTactic false
set_option linter.unusedVariables false

namespace Sys2Proof.Machine

open Sys2Proof

theorem execHostLinkUp_good {F : Part → Bool} {port partner speed width : Nat} {s : State} (f_flash : F .flash = true := by with_reducible assumption) (f_fcu : F .fcu = true := by with_reducible assumption) (f_regs : F .regs = true := by with_reducible assumption) (f_ports : F .ports = true := by with_reducible assumption) : Good F s (execHostLinkUp port partner speed width s) := by
  unfold execHostLinkUp
  repeat' first
    | with_reducible assumption
    | with_reducible apply State.onPort_keeps
    | with_reducible apply State.raise_keeps
    | with_reducible apply State.whenP_keeps
    | with_reducible apply Good.next
    | with_reducible exact Keeps.rfl
    | intro _
    | with_reducible apply Keeps.ite
    | split
    | dsimp only

theorem execHdmDecoderCommit_good {F : Part → Bool} {port n base size ways gran skip : Nat} {s : State} (f_ports : F .ports = true := by with_reducible assumption) : Good F s (execHdmDecoderCommit port n base size ways gran skip s) := by
  unfold execHdmDecoderCommit
  repeat' first
    | with_reducible assumption
    | with_reducible apply State.onPort_keeps
    | with_reducible apply State.whenP_keeps
    | with_reducible apply Good.next
    | with_reducible exact Keeps.rfl
    | intro _
    | with_reducible apply Keeps.ite
    | split
    | dsimp only

theorem execBiasFlipDevice_good {F : Part → Bool} {port : Nat} {s : State} (f_sent : F .sent = true := by with_reducible assumption) (f_mem : F .mem = true := by with_reducible assumption) (f_ports : F .ports = true := by with_reducible assumption) : Good F s (execBiasFlipDevice port s) := by
  unfold execBiasFlipDevice
  repeat' first
    | with_reducible assumption
    | with_reducible apply State.cfgWrite_keeps
    | with_reducible apply State.flipAsk_keeps
    | with_reducible apply State.whenP_keeps
    | with_reducible apply Good.next
    | with_reducible exact Keeps.rfl
    | intro _
    | with_reducible apply Keeps.ite
    | split
    | dsimp only

theorem execBiasFlipHost_good {F : Part → Bool} {port : Nat} {s : State} (f_ports : F .ports = true := by with_reducible assumption) : Good F s (execBiasFlipHost port s) := by
  unfold execBiasFlipHost
  repeat' first
    | with_reducible assumption
    | with_reducible apply State.cfgWrite_keeps
    | with_reducible apply State.whenP_keeps
    | with_reducible apply Good.next
    | with_reducible exact Keeps.rfl
    | intro _
    | with_reducible apply Keeps.ite
    | split
    | dsimp only

theorem execBiasPageFlipped_good {F : Part → Bool} {port : Nat} {s : State} (f_sent : F .sent = true := by with_reducible assumption) (f_mem : F .mem = true := by with_reducible assumption) (f_ports : F .ports = true := by with_reducible assumption) : Good F s (execBiasPageFlipped port s) := by
  unfold execBiasPageFlipped
  repeat' first
    | with_reducible assumption
    | with_reducible apply State.flipAsk_keeps
    | with_reducible apply State.flipDone_keeps
    | with_reducible apply State.when_keeps
    | with_reducible apply Good.next
    | with_reducible exact Keeps.rfl
    | intro _
    | with_reducible apply Keeps.ite
    | split
    | dsimp only

theorem execHotReset_good {F : Part → Bool} {port : Nat} {s : State} (f_regs : F .regs = true := by with_reducible assumption) (f_mem : F .mem = true := by with_reducible assumption) (f_banks : F .banks = true := by with_reducible assumption) (f_baus : F .baus = true := by with_reducible assumption) (f_seqs : F .seqs = true := by with_reducible assumption) (f_slots : F .slots = true := by with_reducible assumption) (f_ports : F .ports = true := by with_reducible assumption) (f_cores : F .cores = true := by with_reducible assumption) (f_notices : F .notices = true := by with_reducible assumption) (f_kv : F .kv = true := by with_reducible assumption) (f_ldr : F .ldr = true := by with_reducible assumption) (f_fab : F .fab = true := by with_reducible assumption) : Good F s (execHotReset port s) := by
  unfold execHotReset
  repeat' first
    | with_reducible assumption
    | with_reducible apply State.hotReset_keeps
    | with_reducible apply State.whenP_keeps
    | with_reducible apply Good.next
    | with_reducible exact Keeps.rfl
    | intro _
    | with_reducible apply Keeps.ite
    | split
    | dsimp only

theorem execFlr_good {F : Part → Bool} {port : Nat} {s : State} (f_regs : F .regs = true := by with_reducible assumption) (f_mem : F .mem = true := by with_reducible assumption) (f_banks : F .banks = true := by with_reducible assumption) (f_baus : F .baus = true := by with_reducible assumption) (f_seqs : F .seqs = true := by with_reducible assumption) (f_slots : F .slots = true := by with_reducible assumption) (f_cores : F .cores = true := by with_reducible assumption) (f_notices : F .notices = true := by with_reducible assumption) (f_kv : F .kv = true := by with_reducible assumption) (f_ldr : F .ldr = true := by with_reducible assumption) (f_fab : F .fab = true := by with_reducible assumption) : Good F s (execFlr port s) := by
  unfold execFlr
  repeat' first
    | with_reducible assumption
    | with_reducible apply State.abortPortWork_keeps
    | with_reducible apply State.dropHeld_keeps
    | with_reducible apply State.whenP_keeps
    | with_reducible apply Good.next
    | with_reducible exact Keeps.rfl
    | intro _
    | with_reducible apply Keeps.ite
    | split
    | dsimp only

theorem execCxlReset_good {F : Part → Bool} {port : Nat} {s : State} (f_regs : F .regs = true := by with_reducible assumption) (f_mem : F .mem = true := by with_reducible assumption) (f_banks : F .banks = true := by with_reducible assumption) (f_baus : F .baus = true := by with_reducible assumption) (f_seqs : F .seqs = true := by with_reducible assumption) (f_slots : F .slots = true := by with_reducible assumption) (f_cores : F .cores = true := by with_reducible assumption) (f_notices : F .notices = true := by with_reducible assumption) (f_kv : F .kv = true := by with_reducible assumption) (f_ldr : F .ldr = true := by with_reducible assumption) (f_fab : F .fab = true := by with_reducible assumption) : Good F s (execCxlReset port s) := by
  unfold execCxlReset
  repeat' first
    | with_reducible assumption
    | with_reducible apply State.abortPortWork_keeps
    | with_reducible apply State.dropDir_keeps
    | with_reducible apply State.dropHeld_keeps
    | with_reducible apply State.whenP_keeps
    | with_reducible apply Good.next
    | with_reducible exact Keeps.rfl
    | intro _
    | with_reducible apply Keeps.ite
    | split
    | dsimp only

theorem execHostFlushTimeout_good {F : Part → Bool} {port : Nat} {s : State} (f_regs : F .regs = true := by with_reducible assumption) (f_mem : F .mem = true := by with_reducible assumption) (f_kv : F .kv = true := by with_reducible assumption) (f_fab : F .fab = true := by with_reducible assumption) : Good F s (execHostFlushTimeout port s) := by
  unfold execHostFlushTimeout
  repeat' first
    | with_reducible assumption
    | with_reducible apply State.farUnreachable_keeps
    | with_reducible apply State.whenP_keeps
    | with_reducible apply Good.next
    | with_reducible exact Keeps.rfl
    | intro _
    | with_reducible apply Keeps.ite
    | split
    | dsimp only

theorem execBusMasterEnableWrite_good {F : Part → Bool} {port : Nat} {on : Bool} {s : State} (f_sent : F .sent = true := by with_reducible assumption) (f_regs : F .regs = true := by with_reducible assumption) (f_mem : F .mem = true := by with_reducible assumption) (f_ports : F .ports = true := by with_reducible assumption) (f_kv : F .kv = true := by with_reducible assumption) (f_fab : F .fab = true := by with_reducible assumption) : Good F s (execBusMasterEnableWrite port on s) := by
  unfold execBusMasterEnableWrite
  repeat' first
    | with_reducible assumption
    | with_reducible apply Keeps.foldl
    | with_reducible apply State.farUnreachable_keeps
    | with_reducible apply State.onPort_keeps
    | with_reducible apply State.send_keeps
    | with_reducible apply State.whenP_keeps
    | with_reducible apply Good.next
    | with_reducible exact Keeps.rfl
    | intro _
    | with_reducible apply Keeps.ite
    | split
    | dsimp only

end Sys2Proof.Machine
end

