-- ==== Sys2Proof/Laws/KeepsPlacement.lean ====
section
/-! SUPPORT. The operations of Machine/Placement.lean undo nothing (Laws/Keeps.lean). -/

set_option Elab.async false
set_option linter.unusedTactic false
set_option linter.unreachableTactic false
set_option linter.unusedVariables false

namespace Sys2Proof.Machine

open Sys2Proof

theorem State.takeModel_keeps {F : Part → Bool} {s₀ s t : State} {b : List Byte} {x y : Nat} (h : Keeps F s₀ s) (e : s.takeModel b = some (x, y, t)) (f_regs : F .regs = true := by with_reducible assumption) (f_kv : F .kv = true := by with_reducible assumption) : Keeps F s₀ t := by
  unfold State.takeModel at e
  simp only [Option.bind_eq_some_iff, Option.map_eq_some_iff, Prod.mk.injEq] at e
  obtain ⟨_, _, _, _, _, _, rfl⟩ := e
  repeat' first
    | with_reducible assumption
    | with_reducible apply State.onKv_keeps
    | intro _
    | with_reducible apply Keeps.ite
    | split
    | dsimp only


end Sys2Proof.Machine
end

