-- ==== Sys2Proof/Laws/KeepsLdrOps.lean ====
section
/-! SUPPORT. The operations of Machine/LdrOps.lean undo nothing (Laws/Keeps.lean). -/

set_option Elab.async false
set_option linter.unusedTactic false
set_option linter.unreachableTactic false
set_option linter.unusedVariables false

namespace Sys2Proof.Machine

open Sys2Proof

theorem State.ldrReply_keeps {F : Part → Bool} {s₀ : State} {s : State} {q : LdrReq} {status reason : Nat} {report : List Byte} (h : Keeps F s₀ s) (f_free : F .free = true := by with_reducible assumption) (f_sent : F .sent = true := by with_reducible assumption) (f_power : F .power = true := by with_reducible assumption) (f_regs : F .regs = true := by with_reducible assumption) (f_mem : F .mem = true := by with_reducible assumption) (f_ports : F .ports = true := by with_reducible assumption) (f_notices : F .notices = true := by with_reducible assumption) (f_kept : F .kept = true := by with_reducible assumption) (f_fab : F .fab = true := by with_reducible assumption) : Keeps F s₀ (State.ldrReply s q status reason report) := by
  unfold State.ldrReply
  repeat' first
    | with_reducible assumption
    | with_reducible apply State.replyIf_keeps
    | with_reducible apply State.writeBytes_keeps
    | intro _
    | with_reducible apply Keeps.ite
    | split
    | dsimp only

theorem State.ldrReplies_keeps {F : Part → Bool} {s₀ : State} {s : State} {qs : List LdrReq} {f : State → State} (h : Keeps F s₀ s) (kf : ∀ t, Keeps F s₀ t → Keeps F s₀ (f t)) (f_sent : F .sent = true := by with_reducible assumption) (f_mem : F .mem = true := by with_reducible assumption) : Keeps F s₀ (State.ldrReplies s qs f) := by
  unfold State.ldrReplies
  repeat' first
    | with_reducible assumption
    | with_reducible apply State.withMem_keeps
    | with_reducible apply kf
    | intro _
    | with_reducible apply Keeps.ite
    | split
    | dsimp only

theorem State.ldrUnreadable_keeps {F : Part → Bool} {s₀ : State} {s : State} {x : Notice} (h : Keeps F s₀ s) (f_regs : F .regs = true := by with_reducible assumption) (f_notices : F .notices = true := by with_reducible assumption) : Keeps F s₀ (State.ldrUnreadable s x) := by
  unfold State.ldrUnreadable
  repeat' first
    | with_reducible assumption
    | with_reducible apply State.emptySlot_keeps
    | with_reducible apply State.mapErr_keeps
    | intro _
    | with_reducible apply Keeps.ite
    | split
    | dsimp only

theorem State.ldrTake_keeps {F : Part → Bool} {s₀ : State} {s : State} {op : Nat → Bool} {f : LdrCmd → State → State} (h : Keeps F s₀ s) (kf : ∀ x0 t, Keeps F s₀ t → Keeps F s₀ (f x0 t)) (f_free : F .free = true := by with_reducible assumption) (f_sent : F .sent = true := by with_reducible assumption) (f_power : F .power = true := by with_reducible assumption) (f_regs : F .regs = true := by with_reducible assumption) (f_mem : F .mem = true := by with_reducible assumption) (f_ports : F .ports = true := by with_reducible assumption) (f_notices : F .notices = true := by with_reducible assumption) (f_kept : F .kept = true := by with_reducible assumption) (f_fab : F .fab = true := by with_reducible assumption) : Keeps F s₀ (State.ldrTake s op f) := by
  unfold State.ldrTake
  repeat' first
    | with_reducible assumption
    | with_reducible apply State.emptySlot_keeps
    | with_reducible apply State.ldrReply_keeps
    | with_reducible apply State.ldrUnreadable_keeps
    | with_reducible apply BauRun.op_keeps
    | with_reducible apply State.withMem_keeps
    | with_reducible apply kf
    | intro _
    | with_reducible apply Keeps.ite
    | split
    | dsimp only

theorem State.ldrOwned_keeps {F : Part → Bool} {s₀ : State} {s : State} {q : LdrCmd} {states : List TaskState} {f : Task → State → State} (h : Keeps F s₀ s) (kf : ∀ x0 t, Keeps F s₀ t → Keeps F s₀ (f x0 t)) (f_free : F .free = true := by with_reducible assumption) (f_sent : F .sent = true := by with_reducible assumption) (f_power : F .power = true := by with_reducible assumption) (f_regs : F .regs = true := by with_reducible assumption) (f_mem : F .mem = true := by with_reducible assumption) (f_ports : F .ports = true := by with_reducible assumption) (f_notices : F .notices = true := by with_reducible assumption) (f_kept : F .kept = true := by with_reducible assumption) (f_fab : F .fab = true := by with_reducible assumption) : Keeps F s₀ (State.ldrOwned s q states f) := by
  unfold State.ldrOwned
  repeat' first
    | with_reducible assumption
    | with_reducible apply State.ldrReply_keeps
    | with_reducible apply kf
    | intro _
    | with_reducible apply Keeps.ite
    | split
    | dsimp only

theorem State.withRanges_keeps {F : Part → Bool} {s₀ : State} {s : State} {ag : Agent} {ps : List (Nat × Nat × Bool)} {f : State → State} (h : Keeps F s₀ s) (kf : ∀ t, Keeps F s₀ t → Keeps F s₀ (f t)) (f_sent : F .sent = true := by with_reducible assumption) (f_mem : F .mem = true := by with_reducible assumption) : Keeps F s₀ (State.withRanges s ag ps f) := by
  unfold State.withRanges
  repeat' first
    | with_reducible assumption
    | with_reducible apply Keeps.foldl
    | with_reducible apply State.issueSnoops_keeps
    | with_reducible apply State.onMem_keeps
    | exact Memory.wf_same (by with_reducible rfl) (by with_reducible rfl)
    | with_reducible apply kf
    | intro _
    | with_reducible apply Keeps.ite
    | split
    | dsimp only

theorem State.clearRange_keeps {F : Part → Bool} {s₀ : State} {s : State} {a n : Nat} (h : Keeps F s₀ s) (f_mem : F .mem = true := by with_reducible assumption) : Keeps F s₀ (State.clearRange s a n) := by
  unfold State.clearRange
  repeat' first
    | with_reducible assumption
    | with_reducible apply State.onMem_keeps
    | exact Memory.wf_same (by with_reducible rfl) (by with_reducible rfl)
    | exact fun w => Memory.wf_iff.2 ⟨mwf_filter (Memory.wf_iff.1 w).1, risingNat_filter (Memory.wf_iff.1 w).2⟩
    | intro _
    | with_reducible apply Keeps.ite
    | split
    | dsimp only

theorem State.copyRange_keeps {F : Part → Bool} {s₀ : State} {s : State} {src dst n : Nat} (h : Keeps F s₀ s) (f_mem : F .mem = true := by with_reducible assumption) : Keeps F s₀ (State.copyRange s src dst n) := by
  unfold State.copyRange
  repeat' first
    | with_reducible assumption
    | with_reducible apply Keeps.foldl
    | with_reducible apply State.clearRange_keeps
    | with_reducible apply State.writePiece_keeps
    | intro _
    | with_reducible apply Keeps.ite
    | split
    | dsimp only

theorem State.fillRange_keeps {F : Part → Bool} {s₀ : State} {s : State} {dst n : Nat} {data : List Byte} (h : Keeps F s₀ s) (f_mem : F .mem = true := by with_reducible assumption) : Keeps F s₀ (State.fillRange s dst n data) := by
  unfold State.fillRange
  repeat' first
    | with_reducible assumption
    | with_reducible apply State.clearRange_keeps
    | with_reducible apply State.writeBytes_keeps
    | intro _
    | with_reducible apply Keeps.ite
    | split
    | dsimp only

theorem State.fillAlloc_keeps {F : Part → Bool} {s₀ : State} {s : State} {owner : Nat} {a : List Byte} {base : Nat} {data : List Byte} (h : Keeps F s₀ s) (f_mem : F .mem = true := by with_reducible assumption) : Keeps F s₀ (State.fillAlloc s owner a base data) := by
  unfold State.fillAlloc
  repeat' first
    | with_reducible assumption
    | with_reducible apply State.clearRange_keeps
    | with_reducible apply State.copyRange_keeps
    | with_reducible apply State.fillRange_keeps
    | intro _
    | with_reducible apply Keeps.ite
    | split
    | dsimp only

theorem State.fillMoved_keeps {F : Part → Bool} {s₀ : State} {s : State} {owner : Nat} {a : List Byte} {off : Nat} {data : List Byte} (h : Keeps F s₀ s) (f_free : F .free = true := by with_reducible assumption) (f_sent : F .sent = true := by with_reducible assumption) (f_fab : F .fab = true := by with_reducible assumption) : Keeps F s₀ (State.fillMoved s owner a off data) := by
  unfold State.fillMoved
  repeat' first
    | with_reducible assumption
    | with_reducible apply State.dropReqs_keeps
    | with_reducible apply State.farWrite_keeps
    | intro _
    | with_reducible apply Keeps.ite
    | split
    | dsimp only

theorem State.askOwner_keeps {F : Part → Bool} {s₀ : State} {s : State} {owner : Nat} {a : List Byte} (h : Keeps F s₀ s) (f_sent : F .sent = true := by with_reducible assumption) : Keeps F s₀ (State.askOwner s owner a) := by
  unfold State.askOwner
  repeat' first
    | with_reducible assumption
    | with_reducible apply State.send_keeps
    | intro _
    | with_reducible apply Keeps.ite
    | split
    | dsimp only

theorem State.fillAll_keeps {F : Part → Bool} {s₀ s : State} {owner : Nat} {p : Plan} {l : List (List Byte × Nat)} {fill : List (List Byte)} (h : Keeps F s₀ s) (f_free : F .free = true := by with_reducible assumption) (f_sent : F .sent = true := by with_reducible assumption) (f_mem : F .mem = true := by with_reducible assumption) (f_fab : F .fab = true := by with_reducible assumption) : Keeps F s₀ (s.fillAll owner p l fill) := by
  induction l generalizing s fill with
  | nil => exact h
  | cons x l ih =>
    rw [State.fillAll]
    repeat' first
      | with_reducible assumption
      | with_reducible apply State.askOwner_keeps
      | with_reducible apply BauRun.fill_keeps
      | with_reducible apply State.fillAlloc_keeps
      | with_reducible apply State.fillMoved_keeps
      | with_reducible apply ih
      | intro _
      | with_reducible apply Keeps.ite
      | split
      | dsimp only


theorem State.putModels_keeps {F : Part → Bool} {s₀ s : State} {l : List (List Byte)} (h : Keeps F s₀ s) (f_regs : F .regs = true := by with_reducible assumption) (f_mem : F .mem = true := by with_reducible assumption) (f_kv : F .kv = true := by with_reducible assumption) : Keeps F s₀ (s.putModels l).1 := by
  induction l generalizing s with
  | nil => exact h
  | cons b l ih =>
    rw [State.putModels]
    repeat' first
      | with_reducible assumption
      | refine State.takeModel_keeps ?_ (by with_reducible assumption)
      | with_reducible apply State.writeBytes_keeps
      | with_reducible apply ih
      | intro _
      | with_reducible apply Keeps.ite
      | split
      | dsimp only


theorem State.bind_keeps {F : Part → Bool} {s₀ : State} {s : State} {t : Task} (h : Keeps F s₀ s) (f_regs : F .regs = true := by with_reducible assumption) : Keeps F s₀ (State.bind s t) := by
  unfold State.bind
  repeat' first
    | with_reducible assumption
    | with_reducible apply Keeps.foldl
    | with_reducible apply State.setReg_keeps
    | intro _
    | with_reducible apply Keeps.ite
    | split
    | dsimp only

theorem State.startCores_keeps {F : Part → Bool} {s₀ : State} {s : State} {t : Task} (h : Keeps F s₀ s) (f_regs : F .regs = true := by with_reducible assumption) (f_cores : F .cores = true := by with_reducible assumption) : Keeps F s₀ (State.startCores s t) := by
  unfold State.startCores
  repeat' first
    | with_reducible assumption
    | with_reducible apply Keeps.foldl
    | with_reducible apply State.bind_keeps
    | with_reducible apply State.onCore_keeps
    | intro _
    | with_reducible apply Keeps.ite
    | split
    | dsimp only

end Sys2Proof.Machine
end

