-- ==== Sys2Proof/Laws/KeepsLdrCmds.lean ====
section
/-! SUPPORT. The operations of Machine/LdrCmds.lean undo nothing (Laws/Keeps.lean). -/

set_option Elab.async false
set_option linter.unusedTactic false
set_option linter.unreachableTactic false
set_option linter.unusedVariables false

namespace Sys2Proof.Machine

open Sys2Proof

theorem State.ldrBegin_keeps {F : Part → Bool} {s₀ : State} {s : State} {q : LdrCmd} (h : Keeps F s₀ s) (f_free : F .free = true := by with_reducible assumption) (f_sent : F .sent = true := by with_reducible assumption) (f_power : F .power = true := by with_reducible assumption) (f_regs : F .regs = true := by with_reducible assumption) (f_mem : F .mem = true := by with_reducible assumption) (f_ports : F .ports = true := by with_reducible assumption) (f_notices : F .notices = true := by with_reducible assumption) (f_kept : F .kept = true := by with_reducible assumption) (f_ldr : F .ldr = true := by with_reducible assumption) (f_fab : F .fab = true := by with_reducible assumption) : Keeps F s₀ (State.ldrBegin s q) := by
  unfold State.ldrBegin
  repeat' first
    | with_reducible assumption
    | with_reducible apply State.ldrReply_keeps
    | with_reducible apply BauRun.op_keeps
    | intro _
    | with_reducible apply Keeps.ite
    | split
    | with_reducible apply Keeps.ldr_set
    | dsimp only

theorem State.dropTask_keeps {F : Part → Bool} {s₀ : State} {s : State} {id : Nat} (h : Keeps F s₀ s) (f_ldr : F .ldr = true := by with_reducible assumption) : Keeps F s₀ (State.dropTask s id) := by
  unfold State.dropTask
  repeat' first
    | with_reducible assumption
    | intro _
    | with_reducible apply Keeps.ite
    | split
    | with_reducible apply Keeps.ldr_set
    | dsimp only

theorem State.ldrAccept_keeps {F : Part → Bool} {s₀ : State} {s : State} {t : Task} {q : LdrReq} {p : Plan} {fill : List (List Byte)} (h : Keeps F s₀ s) (f_free : F .free = true := by with_reducible assumption) (f_sent : F .sent = true := by with_reducible assumption) (f_power : F .power = true := by with_reducible assumption) (f_regs : F .regs = true := by with_reducible assumption) (f_mem : F .mem = true := by with_reducible assumption) (f_ports : F .ports = true := by with_reducible assumption) (f_cores : F .cores = true := by with_reducible assumption) (f_notices : F .notices = true := by with_reducible assumption) (f_kept : F .kept = true := by with_reducible assumption) (f_kv : F .kv = true := by with_reducible assumption) (f_ldr : F .ldr = true := by with_reducible assumption) (f_fab : F .fab = true := by with_reducible assumption) : Keeps F s₀ (State.ldrAccept s t q p fill) := by
  unfold State.ldrAccept
  repeat' first
    | with_reducible assumption
    | with_reducible apply Keeps.foldl
    | with_reducible apply BauRun.fill_keeps
    | with_reducible apply State.fillAll_keeps
    | with_reducible apply State.fresh_keeps
    | refine State.fresh_keeps_of ?_ (by with_reducible assumption)
    | with_reducible apply State.ldrReply_keeps
    | with_reducible apply State.onCore_keeps
    | with_reducible apply State.onTask_keeps
    | with_reducible apply State.putModels_keeps
    | intro _
    | with_reducible apply Keeps.ite
    | split
    | dsimp only

theorem State.ldrDecide_keeps {F : Part → Bool} {s₀ : State} {s : State} {t : Task} {q : LdrReq} {fill : List (List Byte)} (h : Keeps F s₀ s) (f_free : F .free = true := by with_reducible assumption) (f_sent : F .sent = true := by with_reducible assumption) (f_power : F .power = true := by with_reducible assumption) (f_regs : F .regs = true := by with_reducible assumption) (f_mem : F .mem = true := by with_reducible assumption) (f_ports : F .ports = true := by with_reducible assumption) (f_cores : F .cores = true := by with_reducible assumption) (f_notices : F .notices = true := by with_reducible assumption) (f_kept : F .kept = true := by with_reducible assumption) (f_kv : F .kv = true := by with_reducible assumption) (f_ldr : F .ldr = true := by with_reducible assumption) (f_fab : F .fab = true := by with_reducible assumption) : Keeps F s₀ (State.ldrDecide s t q fill) := by
  unfold State.ldrDecide
  repeat' first
    | with_reducible assumption
    | with_reducible apply State.dropTask_keeps
    | with_reducible apply BauRun.fill_keeps
    | with_reducible apply State.ldrAccept_keeps
    | with_reducible apply State.ldrReply_keeps
    | with_reducible apply State.withRanges_keeps
    | intro _
    | with_reducible apply Keeps.ite
    | split
    | with_reducible apply Keeps.ldr_set
    | dsimp only

theorem execLdrLoad_good {F : Part → Bool} {fill : List (List Byte)} {s : State} (f_free : F .free = true := by with_reducible assumption) (f_sent : F .sent = true := by with_reducible assumption) (f_power : F .power = true := by with_reducible assumption) (f_regs : F .regs = true := by with_reducible assumption) (f_mem : F .mem = true := by with_reducible assumption) (f_ports : F .ports = true := by with_reducible assumption) (f_cores : F .cores = true := by with_reducible assumption) (f_notices : F .notices = true := by with_reducible assumption) (f_kept : F .kept = true := by with_reducible assumption) (f_kv : F .kv = true := by with_reducible assumption) (f_ldr : F .ldr = true := by with_reducible assumption) (f_fab : F .fab = true := by with_reducible assumption) : Good F s (execLdrLoad fill s) := by
  unfold execLdrLoad
  repeat' first
    | with_reducible assumption
    | with_reducible apply BauRun.fill_keeps
    | with_reducible apply State.ldrBegin_keeps
    | with_reducible apply State.ldrDecide_keeps
    | with_reducible apply State.ldrReplies_keeps
    | with_reducible apply State.ldrTake_keeps
    | with_reducible apply BauRun.op_keeps
    | with_reducible apply Good.next
    | with_reducible exact Keeps.rfl
    | intro _
    | with_reducible apply Keeps.ite
    | split
    | dsimp only

theorem execLdrStart_good {F : Part → Bool} {s : State} (f_free : F .free = true := by with_reducible assumption) (f_sent : F .sent = true := by with_reducible assumption) (f_power : F .power = true := by with_reducible assumption) (f_regs : F .regs = true := by with_reducible assumption) (f_mem : F .mem = true := by with_reducible assumption) (f_ports : F .ports = true := by with_reducible assumption) (f_cores : F .cores = true := by with_reducible assumption) (f_notices : F .notices = true := by with_reducible assumption) (f_kept : F .kept = true := by with_reducible assumption) (f_ldr : F .ldr = true := by with_reducible assumption) (f_fab : F .fab = true := by with_reducible assumption) : Good F s (execLdrStart s) := by
  unfold execLdrStart
  repeat' first
    | with_reducible assumption
    | with_reducible apply State.ldrOwned_keeps
    | with_reducible apply State.ldrReply_keeps
    | with_reducible apply State.ldrTake_keeps
    | with_reducible apply State.onTask_keeps
    | with_reducible apply BauRun.op_keeps
    | with_reducible apply State.startCores_keeps
    | with_reducible apply Good.next
    | with_reducible exact Keeps.rfl
    | intro _
    | with_reducible apply Keeps.ite
    | split
    | dsimp only

theorem execLdrAbort_good {F : Part → Bool} {s : State} (f_free : F .free = true := by with_reducible assumption) (f_sent : F .sent = true := by with_reducible assumption) (f_power : F .power = true := by with_reducible assumption) (f_regs : F .regs = true := by with_reducible assumption) (f_mem : F .mem = true := by with_reducible assumption) (f_ports : F .ports = true := by with_reducible assumption) (f_notices : F .notices = true := by with_reducible assumption) (f_kept : F .kept = true := by with_reducible assumption) (f_ldr : F .ldr = true := by with_reducible assumption) (f_fab : F .fab = true := by with_reducible assumption) : Good F s (execLdrAbort s) := by
  unfold execLdrAbort
  repeat' first
    | with_reducible assumption
    | with_reducible apply State.bind_keeps
    | with_reducible apply State.dropTask_keeps
    | with_reducible apply State.emptySlot_keeps
    | with_reducible apply State.ldrOwned_keeps
    | with_reducible apply State.ldrReplies_keeps
    | with_reducible apply State.ldrReply_keeps
    | with_reducible apply State.onTask_keeps
    | with_reducible apply Good.next
    | with_reducible exact Keeps.rfl
    | intro _
    | with_reducible apply Keeps.ite
    | split
    | dsimp only

theorem execLdrRelease_good {F : Part → Bool} {s : State} (f_free : F .free = true := by with_reducible assumption) (f_sent : F .sent = true := by with_reducible assumption) (f_power : F .power = true := by with_reducible assumption) (f_regs : F .regs = true := by with_reducible assumption) (f_mem : F .mem = true := by with_reducible assumption) (f_ports : F .ports = true := by with_reducible assumption) (f_cores : F .cores = true := by with_reducible assumption) (f_notices : F .notices = true := by with_reducible assumption) (f_kept : F .kept = true := by with_reducible assumption) (f_kv : F .kv = true := by with_reducible assumption) (f_ldr : F .ldr = true := by with_reducible assumption) (f_fab : F .fab = true := by with_reducible assumption) : Good F s (execLdrRelease s) := by
  unfold execLdrRelease
  repeat' first
    | with_reducible assumption
    | with_reducible apply State.freeTask_keeps
    | with_reducible apply State.ldrOwned_keeps
    | with_reducible apply State.ldrReply_keeps
    | with_reducible apply State.ldrTake_keeps
    | with_reducible apply BauRun.op_keeps
    | with_reducible apply Good.next
    | with_reducible exact Keeps.rfl
    | intro _
    | with_reducible apply Keeps.ite
    | split
    | dsimp only

theorem execRunEnd_good {F : Part → Bool} {task : Nat} {s : State} (f_free : F .free = true := by with_reducible assumption) (f_sent : F .sent = true := by with_reducible assumption) (f_power : F .power = true := by with_reducible assumption) (f_regs : F .regs = true := by with_reducible assumption) (f_mem : F .mem = true := by with_reducible assumption) (f_ports : F .ports = true := by with_reducible assumption) (f_cores : F .cores = true := by with_reducible assumption) (f_notices : F .notices = true := by with_reducible assumption) (f_kept : F .kept = true := by with_reducible assumption) (f_kv : F .kv = true := by with_reducible assumption) (f_ldr : F .ldr = true := by with_reducible assumption) (f_fab : F .fab = true := by with_reducible assumption) : Good F s (execRunEnd task s) := by
  unfold execRunEnd
  repeat' first
    | with_reducible assumption
    | with_reducible apply Keeps.foldl
    | with_reducible apply State.finishRun_keeps
    | with_reducible apply State.ldrReplies_keeps
    | with_reducible apply State.ldrReply_keeps
    | with_reducible apply State.when_keeps
    | with_reducible apply Good.next
    | with_reducible exact Keeps.rfl
    | intro _
    | with_reducible apply Keeps.ite
    | split
    | dsimp only

theorem execTaskAbort_good {F : Part → Bool} {task fault d c : Nat} {s : State} (f_free : F .free = true := by with_reducible assumption) (f_sent : F .sent = true := by with_reducible assumption) (f_power : F .power = true := by with_reducible assumption) (f_regs : F .regs = true := by with_reducible assumption) (f_mem : F .mem = true := by with_reducible assumption) (f_banks : F .banks = true := by with_reducible assumption) (f_baus : F .baus = true := by with_reducible assumption) (f_seqs : F .seqs = true := by with_reducible assumption) (f_ports : F .ports = true := by with_reducible assumption) (f_cores : F .cores = true := by with_reducible assumption) (f_notices : F .notices = true := by with_reducible assumption) (f_kept : F .kept = true := by with_reducible assumption) (f_kv : F .kv = true := by with_reducible assumption) (f_ldr : F .ldr = true := by with_reducible assumption) (f_fab : F .fab = true := by with_reducible assumption) : Good F s (execTaskAbort task fault d c s) := by
  unfold execTaskAbort
  repeat' first
    | with_reducible assumption
    | with_reducible apply Keeps.foldl
    | with_reducible apply State.abortRun_keeps
    | with_reducible apply State.finishRun_keeps
    | with_reducible apply State.ldrReplies_keeps
    | with_reducible apply State.ldrReply_keeps
    | with_reducible apply State.onTask_keeps
    | with_reducible apply State.when_keeps
    | with_reducible apply Good.next
    | with_reducible exact Keeps.rfl
    | intro _
    | with_reducible apply Keeps.ite
    | split
    | dsimp only

theorem execCcAbortInterrupt_good {F : Part → Bool} {d c : Nat} {s : State} (f_mem : F .mem = true := by with_reducible assumption) (f_cores : F .cores = true := by with_reducible assumption) (f_kv : F .kv = true := by with_reducible assumption) : Good F s (execCcAbortInterrupt d c s) := by
  unfold execCcAbortInterrupt
  repeat' first
    | with_reducible assumption
    | with_reducible apply State.kvUnwait_keeps
    | with_reducible apply State.onCore_keeps
    | with_reducible apply State.when_keeps
    | with_reducible apply Good.next
    | with_reducible exact Keeps.rfl
    | intro _
    | with_reducible apply Keeps.ite
    | split
    | dsimp only

theorem execStreamBufferFetch_good {F : Part → Bool} {task alloc : Nat} {data : List Byte} {s : State} (f_sent : F .sent = true := by with_reducible assumption) (f_mem : F .mem = true := by with_reducible assumption) (f_ldr : F .ldr = true := by with_reducible assumption) : Good F s (execStreamBufferFetch task alloc data s) := by
  unfold execStreamBufferFetch
  repeat' first
    | with_reducible assumption
    | with_reducible apply State.fillRange_keeps
    | with_reducible apply State.onTask_keeps
    | with_reducible apply State.withRanges_keeps
    | with_reducible apply Good.next
    | with_reducible exact Keeps.rfl
    | intro _
    | with_reducible apply Keeps.ite
    | split
    | dsimp only

end Sys2Proof.Machine
end

