-- ==== Sys2Proof/Laws/KeepsMgmt.lean ====
section
/-! SUPPORT. The operations of Machine/Mgmt.lean undo nothing (Laws/Keeps.lean). -/

set_option Elab.async false
set_option linter.unusedTactic false
set_option linter.unreachableTactic false
set_option linter.unusedVariables false

namespace Sys2Proof.Machine

open Sys2Proof

theorem State.mgmtReserved_keeps {F : Part → Bool} {s₀ : State} {s : State} (h : Keeps F s₀ s) (f_sent : F .sent = true := by with_reducible assumption) (f_mgmt : F .mgmt = true := by with_reducible assumption) (f_regs : F .regs = true := by with_reducible assumption) (f_mem : F .mem = true := by with_reducible assumption) : Keeps F s₀ (State.mgmtReserved s) := by
  unfold State.mgmtReserved
  repeat' first
    | with_reducible assumption
    | with_reducible apply State.mgmtComplete_keeps
    | with_reducible apply BauRun.op_keeps
    | intro _
    | with_reducible apply Keeps.ite
    | split
    | dsimp only

theorem execMgmtGo_good {F : Part → Bool} {port : Nat} {value : Word} {s : State} (f_sent : F .sent = true := by with_reducible assumption) (f_mgmt : F .mgmt = true := by with_reducible assumption) (f_regs : F .regs = true := by with_reducible assumption) (f_mem : F .mem = true := by with_reducible assumption) : Good F s (execMgmtGo port value s) := by
  unfold execMgmtGo
  repeat' first
    | with_reducible assumption
    | with_reducible apply State.mgmtGo_keeps
    | with_reducible apply State.mgmtReserved_keeps
    | with_reducible apply State.whenP_keeps
    | with_reducible apply Good.next
    | with_reducible exact Keeps.rfl
    | intro _
    | with_reducible apply Keeps.ite
    | split
    | dsimp only

theorem execMctpManagement_good {F : Part → Bool} {bytes sig : List Byte} {s : State} (f_sent : F .sent = true := by with_reducible assumption) (f_mgmt : F .mgmt = true := by with_reducible assumption) (f_regs : F .regs = true := by with_reducible assumption) (f_mem : F .mem = true := by with_reducible assumption) : Good F s (execMctpManagement bytes sig s) := by
  unfold execMctpManagement
  repeat' first
    | with_reducible assumption
    | with_reducible apply State.mgmtI3c_keeps
    | with_reducible apply State.mgmtReserved_keeps
    | with_reducible apply State.whenP_keeps
    | with_reducible apply Good.next
    | with_reducible exact Keeps.rfl
    | intro _
    | with_reducible apply Keeps.ite
    | split
    | dsimp only

theorem execMgmtStop_good {F : Part → Bool} {s : State} (f_sent : F .sent = true := by with_reducible assumption) (f_mgmt : F .mgmt = true := by with_reducible assumption) (f_regs : F .regs = true := by with_reducible assumption) (f_mem : F .mem = true := by with_reducible assumption) (f_stackMap : F .stackMap = true := by with_reducible assumption) (f_banks : F .banks = true := by with_reducible assumption) (f_baus : F .baus = true := by with_reducible assumption) (f_seqs : F .seqs = true := by with_reducible assumption) (f_slots : F .slots = true := by with_reducible assumption) (f_ports : F .ports = true := by with_reducible assumption) (f_cores : F .cores = true := by with_reducible assumption) (f_notices : F .notices = true := by with_reducible assumption) (f_kv : F .kv = true := by with_reducible assumption) (f_ldr : F .ldr = true := by with_reducible assumption) (f_fab : F .fab = true := by with_reducible assumption) : Good F s (execMgmtStop s) := by
  unfold execMgmtStop
  repeat' first
    | with_reducible assumption
    | with_reducible apply State.fabricDown_keeps
    | with_reducible apply State.hotReset_keeps
    | with_reducible apply State.mgmtComplete_keeps
    | with_reducible apply State.mgmtServe_keeps
    | with_reducible apply State.onMgmt_keeps
    | with_reducible apply State.onPort_keeps
    | with_reducible apply State.onStack_keeps
    | with_reducible apply Good.next
    | with_reducible exact Keeps.rfl
    | intro _
    | with_reducible apply Keeps.ite
    | split
    | dsimp only

theorem execMgmtStart_good {F : Part → Bool} {s : State} (f_sent : F .sent = true := by with_reducible assumption) (f_mgmt : F .mgmt = true := by with_reducible assumption) (f_regs : F .regs = true := by with_reducible assumption) (f_mem : F .mem = true := by with_reducible assumption) (f_stackMap : F .stackMap = true := by with_reducible assumption) (f_ports : F .ports = true := by with_reducible assumption) (f_fab : F .fab = true := by with_reducible assumption) : Good F s (execMgmtStart s) := by
  unfold execMgmtStart
  repeat' first
    | with_reducible assumption
    | with_reducible apply State.fabricRestart_keeps
    | with_reducible apply State.mgmtComplete_keeps
    | with_reducible apply State.mgmtServe_keeps
    | with_reducible apply State.onMgmt_keeps
    | with_reducible apply State.onPort_keeps
    | with_reducible apply State.onStack_keeps
    | with_reducible apply Good.next
    | with_reducible exact Keeps.rfl
    | intro _
    | with_reducible apply Keeps.ite
    | split
    | dsimp only

theorem execSet_good {F : Part → Bool} {sigOk : Bool} {s : State} (f_sent : F .sent = true := by with_reducible assumption) (f_flash : F .flash = true := by with_reducible assumption) (f_mgmt : F .mgmt = true := by with_reducible assumption) (f_regs : F .regs = true := by with_reducible assumption) (f_mem : F .mem = true := by with_reducible assumption) : Good F s (execSet sigOk s) := by
  unfold execSet
  repeat' first
    | with_reducible assumption
    | with_reducible apply State.mgmtComplete_keeps
    | with_reducible apply State.mgmtServe_keeps
    | with_reducible apply State.mgmtSigned_keeps
    | with_reducible apply State.setReg_keeps
    | with_reducible apply Good.next
    | with_reducible exact Keeps.rfl
    | intro _
    | with_reducible apply Keeps.ite
    | split
    | dsimp only

theorem execSelftest_good {F : Part → Bool} {s : State} (f_free : F .free = true := by with_reducible assumption) (f_sent : F .sent = true := by with_reducible assumption) (f_mgmt : F .mgmt = true := by with_reducible assumption) (f_regs : F .regs = true := by with_reducible assumption) (f_mem : F .mem = true := by with_reducible assumption) (f_fab : F .fab = true := by with_reducible assumption) : Good F s (execSelftest s) := by
  unfold execSelftest
  repeat' first
    | with_reducible assumption
    | with_reducible apply State.fresh_keeps
    | refine State.fresh_keeps_of ?_ (by with_reducible assumption)
    | with_reducible apply State.mgmtComplete_keeps
    | with_reducible apply State.mgmtServe_keeps
    | with_reducible apply State.onMgmt_keeps
    | with_reducible apply State.portSelftest_keeps
    | with_reducible apply Good.next
    | with_reducible exact Keeps.rfl
    | intro _
    | with_reducible apply Keeps.ite
    | split
    | dsimp only

theorem execMemorySelftestDone_good {F : Part → Bool} {stk : Nat} {failedDies : List Nat} {s : State} (f_sent : F .sent = true := by with_reducible assumption) (f_flash : F .flash = true := by with_reducible assumption) (f_mgmt : F .mgmt = true := by with_reducible assumption) (f_fcu : F .fcu = true := by with_reducible assumption) (f_regs : F .regs = true := by with_reducible assumption) (f_mem : F .mem = true := by with_reducible assumption) (f_stackMap : F .stackMap = true := by with_reducible assumption) : Good F s (execMemorySelftestDone stk failedDies s) := by
  unfold execMemorySelftestDone
  repeat' first
    | with_reducible assumption
    | with_reducible apply Keeps.foldl
    | with_reducible apply State.mgmtComplete_keeps
    | with_reducible apply State.onMem_keeps
    | exact Memory.wf_same (by with_reducible rfl) (by with_reducible rfl)
    | with_reducible apply State.onMgmt_keeps
    | with_reducible apply State.parityDieFails_keeps
    | with_reducible apply State.retireDie_keeps
    | with_reducible apply Good.next
    | with_reducible exact Keeps.rfl
    | exact fun w => Memory.wf_iff.2 ⟨mwf_filter (Memory.wf_iff.1 w).1, risingNat_filter (Memory.wf_iff.1 w).2⟩
    | intro _
    | with_reducible apply Keeps.ite
    | split
    | dsimp only

theorem execSelftestIdleWaitExpiry_good {F : Part → Bool} {d c : Nat} {s : State} (f_sent : F .sent = true := by with_reducible assumption) (f_mgmt : F .mgmt = true := by with_reducible assumption) (f_regs : F .regs = true := by with_reducible assumption) (f_mem : F .mem = true := by with_reducible assumption) : Good F s (execSelftestIdleWaitExpiry d c s) := by
  unfold execSelftestIdleWaitExpiry
  repeat' first
    | with_reducible assumption
    | with_reducible apply State.mgmtComplete_keeps
    | with_reducible apply State.onMgmt_keeps
    | with_reducible apply Good.next
    | with_reducible exact Keeps.rfl
    | intro _
    | with_reducible apply Keeps.ite
    | split
    | dsimp only

theorem execTsense_good {F : Part → Bool} {s : State} (f_sent : F .sent = true := by with_reducible assumption) (f_power : F .power = true := by with_reducible assumption) (f_mgmt : F .mgmt = true := by with_reducible assumption) (f_regs : F .regs = true := by with_reducible assumption) (f_mem : F .mem = true := by with_reducible assumption) : Good F s (execTsense s) := by
  unfold execTsense
  repeat' first
    | with_reducible assumption
    | with_reducible apply State.demand_keeps
    | with_reducible apply State.mgmtServe_keeps
    | with_reducible apply Good.next
    | with_reducible exact Keeps.rfl
    | intro _
    | with_reducible apply Keeps.ite
    | split
    | dsimp only

theorem execFwCommit_good {F : Part → Bool} {sigOk : Bool} {s : State} (f_sent : F .sent = true := by with_reducible assumption) (f_flash : F .flash = true := by with_reducible assumption) (f_mgmt : F .mgmt = true := by with_reducible assumption) (f_regs : F .regs = true := by with_reducible assumption) (f_mem : F .mem = true := by with_reducible assumption) : Good F s (execFwCommit sigOk s) := by
  unfold execFwCommit
  repeat' first
    | with_reducible assumption
    | with_reducible apply State.mgmtComplete_keeps
    | with_reducible apply State.mgmtServe_keeps
    | with_reducible apply State.mgmtSigned_keeps
    | with_reducible apply Good.next
    | with_reducible exact Keeps.rfl
    | intro _
    | with_reducible apply Keeps.ite
    | split
    | refine Keeps.flash ?_ (Nat.le_refl _) (by with_reducible assumption)
    | dsimp only

theorem execReset_good {F : Part → Bool} {sigOk : Bool} {s : State} (f_sent : F .sent = true := by with_reducible assumption) (f_dieTime : F .dieTime = true := by with_reducible assumption) (f_power : F .power = true := by with_reducible assumption) (f_flash : F .flash = true := by with_reducible assumption) (f_boot : F .boot = true := by with_reducible assumption) (f_mgmt : F .mgmt = true := by with_reducible assumption) (f_fcu : F .fcu = true := by with_reducible assumption) (f_cfg : F .cfg = true := by with_reducible assumption) (f_regs : F .regs = true := by with_reducible assumption) (f_mem : F .mem = true := by with_reducible assumption) (f_stackMap : F .stackMap = true := by with_reducible assumption) (f_banks : F .banks = true := by with_reducible assumption) (f_baus : F .baus = true := by with_reducible assumption) (f_seqs : F .seqs = true := by with_reducible assumption) (f_seqNext : F .seqNext = true := by with_reducible assumption) (f_slots : F .slots = true := by with_reducible assumption) (f_ports : F .ports = true := by with_reducible assumption) (f_cores : F .cores = true := by with_reducible assumption) (f_notices : F .notices = true := by with_reducible assumption) (f_kept : F .kept = true := by with_reducible assumption) (f_kv : F .kv = true := by with_reducible assumption) (f_ldr : F .ldr = true := by with_reducible assumption) (f_fab : F .fab = true := by with_reducible assumption) : Good F s (execReset sigOk s) := by
  unfold execReset
  repeat' first
    | with_reducible assumption
    | with_reducible apply State.mgmtComplete_keeps
    | with_reducible apply State.mgmtServe_keeps
    | with_reducible apply State.mgmtSigned_keeps
    | with_reducible apply State.moduleReset_keeps
    | with_reducible apply Good.next
    | with_reducible exact Keeps.rfl
    | intro _
    | with_reducible apply Keeps.ite
    | split
    | dsimp only

end Sys2Proof.Machine
end

