-- ==== Sys2Proof/Laws/KeepsOptics.lean ====
section
/-! SUPPORT. The operations of Machine/Optics.lean undo nothing (Laws/Keeps.lean). -/

set_option Elab.async false
set_option linter.unusedTactic false
set_option linter.unreachableTactic false
set_option linter.unusedVariables false

namespace Sys2Proof.Machine

open Sys2Proof

theorem execLightDetect_good {F : Part → Bool} {e lane : Nat} {s : State} (f_sent : F .sent = true := by with_reducible assumption) (f_fab : F .fab = true := by with_reducible assumption) : Good F s (execLightDetect e lane s) := by
  unfold execLightDetect
  repeat' first
    | with_reducible assumption
    | with_reducible apply State.onFPort_keeps
    | with_reducible apply State.onLane_keeps
    | with_reducible apply State.send_keeps
    | with_reducible apply State.sendTs1_keeps
    | with_reducible apply State.whenP_keeps
    | with_reducible apply Good.next
    | with_reducible exact Keeps.rfl
    | intro _
    | with_reducible apply Keeps.ite
    | split
    | dsimp only

theorem State.takeTs1_keeps {F : Part → Bool} {s₀ : State} {s : State} {p e lane : Nat} {data : List Byte} (h : Keeps F s₀ s) (f_free : F .free = true := by with_reducible assumption) (f_sent : F .sent = true := by with_reducible assumption) (f_flash : F .flash = true := by with_reducible assumption) (f_fcu : F .fcu = true := by with_reducible assumption) (f_regs : F .regs = true := by with_reducible assumption) (f_fab : F .fab = true := by with_reducible assumption) : Keeps F s₀ (State.takeTs1 s p e lane data) := by
  unfold State.takeTs1
  repeat' first
    | with_reducible assumption
    | with_reducible apply State.answerTs1_keeps
    | with_reducible apply State.onFPort_keeps
    | with_reducible apply State.onLane_keeps
    | with_reducible apply State.raise_keeps
    | with_reducible apply State.trainPort_keeps
    | intro _
    | with_reducible apply Keeps.ite
    | split
    | dsimp only

theorem execTs1_good {F : Part → Bool} {e lane : Nat} {data : List Byte} {s : State} (f_free : F .free = true := by with_reducible assumption) (f_sent : F .sent = true := by with_reducible assumption) (f_flash : F .flash = true := by with_reducible assumption) (f_fcu : F .fcu = true := by with_reducible assumption) (f_regs : F .regs = true := by with_reducible assumption) (f_fab : F .fab = true := by with_reducible assumption) : Good F s (execTs1 e lane data s) := by
  unfold execTs1
  repeat' first
    | with_reducible assumption
    | with_reducible apply State.mapLane_keeps
    | with_reducible apply State.onLane_keeps
    | with_reducible apply State.takeTs1_keeps
    | with_reducible apply State.when_keeps
    | with_reducible apply Good.next
    | with_reducible exact Keeps.rfl
    | intro _
    | with_reducible apply Keeps.ite
    | split
    | dsimp only

theorem execRateChange_good {F : Part → Bool} {port : Nat} {s : State} (f_free : F .free = true := by with_reducible assumption) (f_sent : F .sent = true := by with_reducible assumption) (f_fab : F .fab = true := by with_reducible assumption) : Good F s (execRateChange port s) := by
  unfold execRateChange
  repeat' first
    | with_reducible assumption
    | with_reducible apply Keeps.foldl
    | with_reducible apply State.answerTs1_keeps
    | with_reducible apply State.onFPort_keeps
    | with_reducible apply State.onLane_keeps
    | with_reducible apply State.sendTs2_keeps
    | with_reducible apply State.whenP_keeps
    | with_reducible apply Good.next
    | with_reducible exact Keeps.rfl
    | intro _
    | with_reducible apply Keeps.ite
    | split
    | dsimp only

theorem execTs2_good {F : Part → Bool} {e lane : Nat} {data : List Byte} {s : State} (f_sent : F .sent = true := by with_reducible assumption) (f_fab : F .fab = true := by with_reducible assumption) : Good F s (execTs2 e lane data s) := by
  unfold execTs2
  repeat' first
    | with_reducible assumption
    | with_reducible apply State.onLane_keeps
    | with_reducible apply State.tryUp_keeps
    | with_reducible apply State.when_keeps
    | with_reducible apply State.whenP_keeps
    | with_reducible apply Good.next
    | with_reducible exact Keeps.rfl
    | intro _
    | with_reducible apply Keeps.ite
    | split
    | dsimp only

theorem execLaneTrainTimeout_good {F : Part → Bool} {e lane : Nat} {s : State} (f_sent : F .sent = true := by with_reducible assumption) (f_flash : F .flash = true := by with_reducible assumption) (f_fcu : F .fcu = true := by with_reducible assumption) (f_regs : F .regs = true := by with_reducible assumption) (f_ports : F .ports = true := by with_reducible assumption) (f_fab : F .fab = true := by with_reducible assumption) : Good F s (execLaneTrainTimeout e lane s) := by
  unfold execLaneTrainTimeout
  repeat' first
    | with_reducible assumption
    | with_reducible apply State.failLane_keeps
    | with_reducible apply State.mapLane_keeps
    | with_reducible apply State.narrowPort_keeps
    | with_reducible apply State.sendTs1_keeps
    | with_reducible apply State.when_keeps
    | with_reducible apply State.whenP_keeps
    | with_reducible apply Good.next
    | with_reducible exact Keeps.rfl
    | intro _
    | with_reducible apply Keeps.ite
    | split
    | dsimp only

theorem execPortTrainRestart_good {F : Part → Bool} {port : Nat} {s : State} (f_sent : F .sent = true := by with_reducible assumption) (f_fab : F .fab = true := by with_reducible assumption) : Good F s (execPortTrainRestart port s) := by
  unfold execPortTrainRestart
  repeat' first
    | with_reducible assumption
    | with_reducible apply State.trainPort_keeps
    | with_reducible apply State.whenP_keeps
    | with_reducible apply Good.next
    | with_reducible exact Keeps.rfl
    | intro _
    | with_reducible apply Keeps.ite
    | split
    | dsimp only

theorem execAm_good {F : Part → Bool} {e lane : Nat} {data : List Byte} {s : State} (f_sent : F .sent = true := by with_reducible assumption) (f_fab : F .fab = true := by with_reducible assumption) : Good F s (execAm e lane data s) := by
  unfold execAm
  repeat' first
    | with_reducible assumption
    | with_reducible apply State.onLane_keeps
    | with_reducible apply State.tryUp_keeps
    | with_reducible apply State.when_keeps
    | with_reducible apply Good.next
    | with_reducible exact Keeps.rfl
    | intro _
    | with_reducible apply Keeps.ite
    | split
    | dsimp only

theorem execIdle_good {F : Part → Bool} {e lane : Nat} {s : State} (f_fab : F .fab = true := by with_reducible assumption) : Good F s (execIdle e lane s) := by
  unfold execIdle
  repeat' first
    | with_reducible assumption
    | with_reducible apply State.onLane_keeps
    | with_reducible apply State.whenP_keeps
    | with_reducible apply Good.next
    | with_reducible exact Keeps.rfl
    | intro _
    | with_reducible apply Keeps.ite
    | split
    | dsimp only

theorem execReplayTimeout_good {F : Part → Bool} {port : Nat} {s : State} (f_sent : F .sent = true := by with_reducible assumption) (f_regs : F .regs = true := by with_reducible assumption) (f_fab : F .fab = true := by with_reducible assumption) : Good F s (execReplayTimeout port s) := by
  unfold execReplayTimeout
  repeat' first
    | with_reducible assumption
    | with_reducible apply State.replayPort_keeps
    | with_reducible apply State.whenP_keeps
    | with_reducible apply Good.next
    | with_reducible exact Keeps.rfl
    | intro _
    | with_reducible apply Keeps.ite
    | split
    | dsimp only

theorem execLaneFail_good {F : Part → Bool} {e lane : Nat} {s : State} (f_sent : F .sent = true := by with_reducible assumption) (f_flash : F .flash = true := by with_reducible assumption) (f_fcu : F .fcu = true := by with_reducible assumption) (f_regs : F .regs = true := by with_reducible assumption) (f_ports : F .ports = true := by with_reducible assumption) (f_fab : F .fab = true := by with_reducible assumption) : Good F s (execLaneFail e lane s) := by
  unfold execLaneFail
  repeat' first
    | with_reducible assumption
    | with_reducible apply State.failLane_keeps
    | with_reducible apply State.onEngine_keeps
    | with_reducible apply State.onPort_keeps
    | with_reducible apply State.repairPort_keeps
    | with_reducible apply State.whenP_keeps
    | with_reducible apply Good.next
    | with_reducible exact Keeps.rfl
    | intro _
    | with_reducible apply Keeps.ite
    | split
    | dsimp only

theorem execSwapReq_good {F : Part → Bool} {e : Nat} {data : List Byte} {s : State} (f_free : F .free = true := by with_reducible assumption) (f_sent : F .sent = true := by with_reducible assumption) (f_flash : F .flash = true := by with_reducible assumption) (f_fcu : F .fcu = true := by with_reducible assumption) (f_regs : F .regs = true := by with_reducible assumption) (f_ports : F .ports = true := by with_reducible assumption) (f_fab : F .fab = true := by with_reducible assumption) : Good F s (execSwapReq e data s) := by
  unfold execSwapReq
  repeat' first
    | with_reducible assumption
    | with_reducible apply Keeps.foldl
    | with_reducible apply State.failLane_keeps
    | with_reducible apply State.fresh_keeps
    | refine State.fresh_keeps_of ?_ (by with_reducible assumption)
    | with_reducible apply State.onEngine_keeps
    | with_reducible apply State.onFPort_keeps
    | with_reducible apply State.raise_keeps
    | with_reducible apply State.repairPort_keeps
    | with_reducible apply State.send_keeps
    | with_reducible apply State.sendBlocks_keeps
    | with_reducible apply State.swapped_keeps
    | with_reducible apply State.when_keeps
    | with_reducible apply State.whenP_keeps
    | with_reducible apply Good.next
    | with_reducible exact Keeps.rfl
    | intro _
    | with_reducible apply Keeps.ite
    | split
    | dsimp only

theorem execSwapAck_good {F : Part → Bool} {e : Nat} {data : List Byte} {s : State} (f_sent : F .sent = true := by with_reducible assumption) (f_flash : F .flash = true := by with_reducible assumption) (f_fcu : F .fcu = true := by with_reducible assumption) (f_regs : F .regs = true := by with_reducible assumption) (f_ports : F .ports = true := by with_reducible assumption) (f_fab : F .fab = true := by with_reducible assumption) : Good F s (execSwapAck e data s) := by
  unfold execSwapAck
  repeat' first
    | with_reducible assumption
    | with_reducible apply State.onFPort_keeps
    | with_reducible apply State.pumpAll_keeps
    | with_reducible apply State.repairPort_keeps
    | with_reducible apply State.sendNak_keeps
    | with_reducible apply State.swapped_keeps
    | with_reducible apply State.whenP_keeps
    | with_reducible apply Good.next
    | with_reducible exact Keeps.rfl
    | intro _
    | with_reducible apply Keeps.ite
    | split
    | dsimp only

theorem execLaserFail_good {F : Part → Bool} {e w : Nat} {s : State} (f_free : F .free = true := by with_reducible assumption) (f_sent : F .sent = true := by with_reducible assumption) (f_flash : F .flash = true := by with_reducible assumption) (f_fcu : F .fcu = true := by with_reducible assumption) (f_regs : F .regs = true := by with_reducible assumption) (f_ports : F .ports = true := by with_reducible assumption) (f_fab : F .fab = true := by with_reducible assumption) : Good F s (execLaserFail e w s) := by
  unfold execLaserFail
  repeat' first
    | with_reducible assumption
    | with_reducible apply Keeps.foldl
    | with_reducible apply State.failLane_keeps
    | with_reducible apply State.fresh_keeps
    | refine State.fresh_keeps_of ?_ (by with_reducible assumption)
    | with_reducible apply State.onEngine_keeps
    | with_reducible apply State.raise_keeps
    | with_reducible apply State.repairPort_keeps
    | with_reducible apply State.send_keeps
    | with_reducible apply State.whenP_keeps
    | with_reducible apply Good.next
    | with_reducible exact Keeps.rfl
    | intro _
    | with_reducible apply Keeps.ite
    | split
    | dsimp only

theorem execLaserRelock_good {F : Part → Bool} {e w : Nat} {s : State} (f_sent : F .sent = true := by with_reducible assumption) (f_fab : F .fab = true := by with_reducible assumption) : Good F s (execLaserRelock e w s) := by
  unfold execLaserRelock
  repeat' first
    | with_reducible assumption
    | with_reducible apply State.onEngine_keeps
    | with_reducible apply State.pumpAll_keeps
    | with_reducible apply State.whenP_keeps
    | with_reducible apply Good.next
    | with_reducible exact Keeps.rfl
    | intro _
    | with_reducible apply Keeps.ite
    | split
    | dsimp only

theorem execHold_good {F : Part → Bool} {e : Nat} {data : List Byte} {s : State} (f_fab : F .fab = true := by with_reducible assumption) : Good F s (execHold e data s) := by
  unfold execHold
  repeat' first
    | with_reducible assumption
    | with_reducible apply State.onEngine_keeps
    | with_reducible apply State.whenP_keeps
    | with_reducible apply Good.next
    | with_reducible exact Keeps.rfl
    | intro _
    | with_reducible apply Keeps.ite
    | split
    | dsimp only

theorem execHoldExpiry_good {F : Part → Bool} {e w : Nat} {s : State} (f_fab : F .fab = true := by with_reducible assumption) : Good F s (execHoldExpiry e w s) := by
  unfold execHoldExpiry
  repeat' first
    | with_reducible assumption
    | with_reducible apply State.onEngine_keeps
    | with_reducible apply State.whenP_keeps
    | with_reducible apply Good.next
    | with_reducible exact Keeps.rfl
    | intro _
    | with_reducible apply Keeps.ite
    | split
    | dsimp only

theorem State.retestLane_keeps {F : Part → Bool} {s₀ : State} {s : State} {e n : Nat} (h : Keeps F s₀ s) (f_free : F .free = true := by with_reducible assumption) (f_fab : F .fab = true := by with_reducible assumption) : Keeps F s₀ (State.retestLane s e n) := by
  unfold State.retestLane
  repeat' first
    | with_reducible assumption
    | with_reducible apply State.fresh_keeps
    | refine State.fresh_keeps_of ?_ (by with_reducible assumption)
    | with_reducible apply State.onLane_keeps
    | intro _
    | with_reducible apply Keeps.ite
    | split
    | dsimp only

theorem execCalibrationStep_good {F : Part → Bool} {e : Nat} {s : State} (f_free : F .free = true := by with_reducible assumption) (f_sent : F .sent = true := by with_reducible assumption) (f_regs : F .regs = true := by with_reducible assumption) (f_fab : F .fab = true := by with_reducible assumption) : Good F s (execCalibrationStep e s) := by
  unfold execCalibrationStep
  repeat' first
    | with_reducible assumption
    | with_reducible apply Keeps.foldl
    | with_reducible apply State.moveLane_keeps
    | with_reducible apply State.onEngine_keeps
    | with_reducible apply State.retestLane_keeps
    | with_reducible apply State.whenP_keeps
    | with_reducible apply Good.next
    | with_reducible exact Keeps.rfl
    | intro _
    | with_reducible apply Keeps.ite
    | split
    | dsimp only

theorem execCalibrationComplete_good {F : Part → Bool} {e : Nat} {s : State} (f_free : F .free = true := by with_reducible assumption) (f_sent : F .sent = true := by with_reducible assumption) (f_regs : F .regs = true := by with_reducible assumption) (f_fab : F .fab = true := by with_reducible assumption) : Good F s (execCalibrationComplete e s) := by
  unfold execCalibrationComplete
  repeat' first
    | with_reducible assumption
    | with_reducible apply State.moveLane_keeps
    | with_reducible apply State.onEngine_keeps
    | with_reducible apply State.whenP_keeps
    | with_reducible apply Good.next
    | with_reducible exact Keeps.rfl
    | intro _
    | with_reducible apply Keeps.ite
    | split
    | dsimp only

theorem execCalMove_good {F : Part → Bool} {e : Nat} {data : List Byte} {s : State} (f_regs : F .regs = true := by with_reducible assumption) (f_fab : F .fab = true := by with_reducible assumption) : Good F s (execCalMove e data s) := by
  unfold execCalMove
  repeat' first
    | with_reducible assumption
    | with_reducible apply State.mapLane_keeps
    | with_reducible apply State.oeCount_keeps
    | with_reducible apply State.onEngine_keeps
    | with_reducible apply State.onFPort_keeps
    | with_reducible apply State.when_keeps
    | with_reducible apply State.whenP_keeps
    | with_reducible apply Good.next
    | with_reducible exact Keeps.rfl
    | intro _
    | with_reducible apply Keeps.ite
    | split
    | dsimp only

theorem execWakeBlock_good {F : Part → Bool} {port : Nat} {s : State} (f_free : F .free = true := by with_reducible assumption) (f_sent : F .sent = true := by with_reducible assumption) (f_power : F .power = true := by with_reducible assumption) (f_stackMap : F .stackMap = true := by with_reducible assumption) (f_ports : F .ports = true := by with_reducible assumption) (f_fab : F .fab = true := by with_reducible assumption) : Good F s (execWakeBlock port s) := by
  unfold execWakeBlock
  repeat' first
    | with_reducible assumption
    | with_reducible apply State.wakeUp_keeps
    | with_reducible apply State.whenP_keeps
    | with_reducible apply Good.next
    | with_reducible exact Keeps.rfl
    | intro _
    | with_reducible apply Keeps.ite
    | split
    | dsimp only

theorem execBlockAlignmentFound_good {F : Part → Bool} {e lane : Nat} {s : State} (f_ports : F .ports = true := by with_reducible assumption) (f_fab : F .fab = true := by with_reducible assumption) : Good F s (execBlockAlignmentFound e lane s) := by
  unfold execBlockAlignmentFound
  repeat' first
    | with_reducible assumption
    | with_reducible apply State.onLane_keeps
    | with_reducible apply State.onPort_keeps
    | with_reducible apply State.whenP_keeps
    | with_reducible apply Good.next
    | with_reducible exact Keeps.rfl
    | intro _
    | with_reducible apply Keeps.ite
    | split
    | dsimp only

theorem execEidle_good {F : Part → Bool} {e lane : Nat} {s : State} (f_fab : F .fab = true := by with_reducible assumption) : Good F s (execEidle e lane s) := by
  unfold execEidle
  repeat' first
    | with_reducible assumption
    | with_reducible apply State.onLane_keeps
    | with_reducible apply State.whenP_keeps
    | with_reducible apply Good.next
    | with_reducible exact Keeps.rfl
    | intro _
    | with_reducible apply Keeps.ite
    | split
    | dsimp only

theorem execFillBlock_good {F : Part → Bool} {e lane : Nat} {s : State} (f_fab : F .fab = true := by with_reducible assumption) : Good F s (execFillBlock e lane s) := by
  unfold execFillBlock
  repeat' first
    | with_reducible assumption
    | with_reducible apply State.onLane_keeps
    | with_reducible apply State.whenP_keeps
    | with_reducible apply Good.next
    | with_reducible exact Keeps.rfl
    | intro _
    | with_reducible apply Keeps.ite
    | split
    | dsimp only

end Sys2Proof.Machine
end

