-- ==== Sys2Proof/Laws/KeepsStackCmds.lean ====
section
/-! SUPPORT. The operations of Machine/StackCmds.lean undo nothing (Laws/Keeps.lean). -/

set_option Elab.async false
set_option linter.unusedTactic false
set_option linter.unreachableTactic false
set_option linter.unusedVariables false

namespace Sys2Proof.Machine

open Sys2Proof

theorem State.bankEvent_keeps {F : Part → Bool} {s₀ : State} {s : State} {b : BankId} {p : BankCmd → Bool} {f : Bank → Bank} (h : Keeps F s₀ s) (f_banks : F .banks = true := by with_reducible assumption) : Keeps F s₀ (State.bankEvent s b p f) := by
  unfold State.bankEvent
  repeat' first
    | with_reducible assumption
    | with_reducible apply State.drive_keeps
    | with_reducible apply State.when_keeps
    | intro _
    | with_reducible apply Keeps.ite
    | split
    | dsimp only

theorem execOpenDone_good {F : Part → Bool} {b : BankId} {s : State} (f_banks : F .banks = true := by with_reducible assumption) : Good F s (execOpenDone b s) := by
  unfold execOpenDone
  repeat' first
    | with_reducible assumption
    | with_reducible apply State.bankEvent_keeps
    | with_reducible apply Good.next
    | with_reducible exact Keeps.rfl
    | intro _
    | with_reducible apply Keeps.ite
    | split
    | dsimp only

theorem State.columnEvent_keeps {F : Part → Bool} {s₀ : State} {s : State} {b : BankId} {symbols : Nat} (h : Keeps F s₀ s) (f_flash : F .flash = true := by with_reducible assumption) (f_fcu : F .fcu = true := by with_reducible assumption) (f_regs : F .regs = true := by with_reducible assumption) (f_mem : F .mem = true := by with_reducible assumption) (f_banks : F .banks = true := by with_reducible assumption) : Keeps F s₀ (State.columnEvent s b symbols) := by
  unfold State.columnEvent
  repeat' first
    | with_reducible assumption
    | with_reducible apply State.columnError_keeps
    | with_reducible apply State.drive_keeps
    | intro _
    | with_reducible apply Keeps.ite
    | split
    | dsimp only

theorem execColumnDone_good {F : Part → Bool} {b : BankId} {symbols : Nat} {s : State} (f_flash : F .flash = true := by with_reducible assumption) (f_fcu : F .fcu = true := by with_reducible assumption) (f_regs : F .regs = true := by with_reducible assumption) (f_mem : F .mem = true := by with_reducible assumption) (f_banks : F .banks = true := by with_reducible assumption) (f_baus : F .baus = true := by with_reducible assumption) (f_seqs : F .seqs = true := by with_reducible assumption) : Good F s (execColumnDone b symbols s) := by
  unfold execColumnDone
  repeat' first
    | with_reducible assumption
    | with_reducible apply State.columnEvent_keeps
    | with_reducible apply State.seqColumn_keeps
    | with_reducible apply Good.next
    | with_reducible exact Keeps.rfl
    | intro _
    | with_reducible apply Keeps.ite
    | split
    | dsimp only

theorem execCloseDone_good {F : Part → Bool} {b : BankId} {s : State} (f_banks : F .banks = true := by with_reducible assumption) : Good F s (execCloseDone b s) := by
  unfold execCloseDone
  repeat' first
    | with_reducible assumption
    | with_reducible apply State.bankEvent_keeps
    | with_reducible apply Good.next
    | with_reducible exact Keeps.rfl
    | intro _
    | with_reducible apply Keeps.ite
    | split
    | dsimp only

theorem execRefreshDone_good {F : Part → Bool} {b : BankId} {s : State} (f_free : F .free = true := by with_reducible assumption) (f_sent : F .sent = true := by with_reducible assumption) (f_power : F .power = true := by with_reducible assumption) (f_flash : F .flash = true := by with_reducible assumption) (f_mgmt : F .mgmt = true := by with_reducible assumption) (f_fcu : F .fcu = true := by with_reducible assumption) (f_regs : F .regs = true := by with_reducible assumption) (f_mem : F .mem = true := by with_reducible assumption) (f_stackMap : F .stackMap = true := by with_reducible assumption) (f_banks : F .banks = true := by with_reducible assumption) (f_baus : F .baus = true := by with_reducible assumption) (f_seqs : F .seqs = true := by with_reducible assumption) (f_seqNext : F .seqNext = true := by with_reducible assumption) (f_slots : F .slots = true := by with_reducible assumption) (f_ports : F .ports = true := by with_reducible assumption) (f_notices : F .notices = true := by with_reducible assumption) (f_fab : F .fab = true := by with_reducible assumption) : Good F s (execRefreshDone b s) := by
  unfold execRefreshDone
  repeat' first
    | with_reducible assumption
    | with_reducible apply State.drive_keeps
    | with_reducible apply State.nextRefresh_keeps
    | with_reducible apply State.retry_keeps
    | with_reducible apply State.when_keeps
    | with_reducible apply Good.next
    | with_reducible exact Keeps.rfl
    | intro _
    | with_reducible apply Keeps.ite
    | split
    | dsimp only

theorem execResultReady_good {F : Part → Bool} {b : BankId} {s : State} (f_sent : F .sent = true := by with_reducible assumption) (f_regs : F .regs = true := by with_reducible assumption) (f_mem : F .mem = true := by with_reducible assumption) (f_baus : F .baus = true := by with_reducible assumption) (f_seqs : F .seqs = true := by with_reducible assumption) : Good F s (execResultReady b s) := by
  unfold execResultReady
  repeat' first
    | with_reducible assumption
    | with_reducible apply State.resultReady_keeps
    | with_reducible apply Good.next
    | with_reducible exact Keeps.rfl
    | intro _
    | with_reducible apply Keeps.ite
    | split
    | dsimp only

theorem execEvError_good {F : Part → Bool} {b : BankId} {column : Bool} {s : State} (f_flash : F .flash = true := by with_reducible assumption) (f_fcu : F .fcu = true := by with_reducible assumption) (f_regs : F .regs = true := by with_reducible assumption) (f_mem : F .mem = true := by with_reducible assumption) (f_stackMap : F .stackMap = true := by with_reducible assumption) (f_banks : F .banks = true := by with_reducible assumption) (f_baus : F .baus = true := by with_reducible assumption) (f_seqs : F .seqs = true := by with_reducible assumption) : Good F s (execEvError b column s) := by
  unfold execEvError
  repeat' first
    | with_reducible assumption
    | with_reducible apply State.columnEvent_keeps
    | with_reducible apply State.onStack_keeps
    | with_reducible apply State.seqColumn_keeps
    | with_reducible apply State.whenP_keeps
    | with_reducible apply Good.next
    | with_reducible exact Keeps.rfl
    | intro _
    | with_reducible apply Keeps.ite
    | split
    | dsimp only

theorem execSelfRefreshEntered_good {F : Part → Bool} {stk : Nat} {s : State} (f_stackMap : F .stackMap = true := by with_reducible assumption) : Good F s (execSelfRefreshEntered stk s) := by
  unfold execSelfRefreshEntered
  repeat' first
    | with_reducible assumption
    | with_reducible apply State.onStack_keeps
    | with_reducible apply State.whenP_keeps
    | with_reducible apply Good.next
    | with_reducible exact Keeps.rfl
    | intro _
    | with_reducible apply Keeps.ite
    | split
    | dsimp only

theorem execSelfRefreshExitDone_good {F : Part → Bool} {stk : Nat} {s : State} (f_free : F .free = true := by with_reducible assumption) (f_sent : F .sent = true := by with_reducible assumption) (f_power : F .power = true := by with_reducible assumption) (f_flash : F .flash = true := by with_reducible assumption) (f_mgmt : F .mgmt = true := by with_reducible assumption) (f_fcu : F .fcu = true := by with_reducible assumption) (f_regs : F .regs = true := by with_reducible assumption) (f_mem : F .mem = true := by with_reducible assumption) (f_stackMap : F .stackMap = true := by with_reducible assumption) (f_banks : F .banks = true := by with_reducible assumption) (f_baus : F .baus = true := by with_reducible assumption) (f_seqs : F .seqs = true := by with_reducible assumption) (f_seqNext : F .seqNext = true := by with_reducible assumption) (f_slots : F .slots = true := by with_reducible assumption) (f_ports : F .ports = true := by with_reducible assumption) (f_notices : F .notices = true := by with_reducible assumption) (f_fab : F .fab = true := by with_reducible assumption) : Good F s (execSelfRefreshExitDone stk s) := by
  unfold execSelfRefreshExitDone
  repeat' first
    | with_reducible assumption
    | with_reducible apply State.onStack_keeps
    | with_reducible apply State.retry_keeps
    | with_reducible apply State.whenP_keeps
    | with_reducible apply Good.next
    | with_reducible exact Keeps.rfl
    | intro _
    | with_reducible apply Keeps.ite
    | split
    | dsimp only

theorem execChannelHandshakeTimeout_good {F : Part → Bool} {stk ch : Nat} {s : State} (f_stackMap : F .stackMap = true := by with_reducible assumption) : Good F s (execChannelHandshakeTimeout stk ch s) := by
  unfold execChannelHandshakeTimeout
  repeat' first
    | with_reducible assumption
    | with_reducible apply State.onStack_keeps
    | with_reducible apply State.whenP_keeps
    | with_reducible apply Good.next
    | with_reducible exact Keeps.rfl
    | intro _
    | with_reducible apply Keeps.ite
    | split
    | dsimp only

theorem execTsvRepair_good {F : Part → Bool} {stk ch : Nat} {control : Bool} {s : State} (f_free : F .free = true := by with_reducible assumption) (f_sent : F .sent = true := by with_reducible assumption) (f_power : F .power = true := by with_reducible assumption) (f_flash : F .flash = true := by with_reducible assumption) (f_mgmt : F .mgmt = true := by with_reducible assumption) (f_fcu : F .fcu = true := by with_reducible assumption) (f_regs : F .regs = true := by with_reducible assumption) (f_mem : F .mem = true := by with_reducible assumption) (f_stackMap : F .stackMap = true := by with_reducible assumption) (f_banks : F .banks = true := by with_reducible assumption) (f_baus : F .baus = true := by with_reducible assumption) (f_seqs : F .seqs = true := by with_reducible assumption) (f_seqNext : F .seqNext = true := by with_reducible assumption) (f_slots : F .slots = true := by with_reducible assumption) (f_ports : F .ports = true := by with_reducible assumption) (f_notices : F .notices = true := by with_reducible assumption) (f_fab : F .fab = true := by with_reducible assumption) : Good F s (execTsvRepair stk ch control s) := by
  unfold execTsvRepair
  repeat' first
    | with_reducible assumption
    | with_reducible apply Keeps.foldl
    | with_reducible apply State.drive_keeps
    | with_reducible apply State.repairWire_keeps
    | with_reducible apply State.retry_keeps
    | with_reducible apply State.whenP_keeps
    | with_reducible apply Good.next
    | with_reducible exact Keeps.rfl
    | intro _
    | with_reducible apply Keeps.ite
    | split
    | dsimp only

theorem execRequestAgeLimit_good {F : Part → Bool} {b : BankId} {n : Nat} {s : State} (f_banks : F .banks = true := by with_reducible assumption) : Good F s (execRequestAgeLimit b n s) := by
  unfold execRequestAgeLimit
  repeat' first
    | with_reducible assumption
    | with_reducible apply State.drive_keeps
    | with_reducible apply State.whenP_keeps
    | with_reducible apply Good.next
    | with_reducible exact Keeps.rfl
    | intro _
    | with_reducible apply Keeps.ite
    | split
    | dsimp only

theorem execIdleTimerExpiry_good {F : Part → Bool} {b : BankId} {s : State} (f_banks : F .banks = true := by with_reducible assumption) : Good F s (execIdleTimerExpiry b s) := by
  unfold execIdleTimerExpiry
  repeat' first
    | with_reducible assumption
    | with_reducible apply State.onBank_keeps
    | with_reducible apply State.whenP_keeps
    | with_reducible apply Good.next
    | with_reducible exact Keeps.rfl
    | intro _
    | with_reducible apply Keeps.ite
    | split
    | dsimp only

theorem execRefreshDue_good {F : Part → Bool} {b : BankId} {s : State} (f_regs : F .regs = true := by with_reducible assumption) (f_banks : F .banks = true := by with_reducible assumption) : Good F s (execRefreshDue b s) := by
  unfold execRefreshDue
  repeat' first
    | with_reducible assumption
    | with_reducible apply State.countFld_keeps
    | with_reducible apply State.drive_keeps
    | with_reducible apply State.whenP_keeps
    | with_reducible apply Good.next
    | with_reducible exact Keeps.rfl
    | intro _
    | with_reducible apply Keeps.ite
    | split
    | dsimp only

theorem execStackTsenseDemand_good {F : Part → Bool} {stk : Nat} {s : State} (f_power : F .power = true := by with_reducible assumption) : Good F s (execStackTsenseDemand stk s) := by
  unfold execStackTsenseDemand
  repeat' first
    | with_reducible assumption
    | with_reducible apply State.demand_keeps
    | with_reducible apply State.whenP_keeps
    | with_reducible apply Good.next
    | with_reducible exact Keeps.rfl
    | intro _
    | with_reducible apply Keeps.ite
    | split
    | dsimp only

theorem execTsenseOverdue_good {F : Part → Bool} {stk : Nat} {s : State} (f_stackMap : F .stackMap = true := by with_reducible assumption) : Good F s (execTsenseOverdue stk s) := by
  unfold execTsenseOverdue
  repeat' first
    | with_reducible assumption
    | with_reducible apply State.onStack_keeps
    | with_reducible apply State.whenP_keeps
    | with_reducible apply Good.next
    | with_reducible exact Keeps.rfl
    | intro _
    | with_reducible apply Keeps.ite
    | split
    | dsimp only

theorem execSrEntryDelayExpiry_good {F : Part → Bool} {stk : Nat} {s : State} (f_stackMap : F .stackMap = true := by with_reducible assumption) (f_banks : F .banks = true := by with_reducible assumption) : Good F s (execSrEntryDelayExpiry stk s) := by
  unfold execSrEntryDelayExpiry
  repeat' first
    | with_reducible assumption
    | with_reducible apply State.onStack_keeps
    | with_reducible apply State.whenP_keeps
    | with_reducible apply Good.next
    | with_reducible exact Keeps.rfl
    | intro _
    | with_reducible apply Keeps.ite
    | split
    | with_reducible apply Keeps.banks_set
    | dsimp only

theorem State.scrubError_keeps {F : Part → Bool} {s₀ : State} {s : State} {stk pos : Nat} {e : ColumnError} (h : Keeps F s₀ s) (f_flash : F .flash = true := by with_reducible assumption) (f_fcu : F .fcu = true := by with_reducible assumption) (f_regs : F .regs = true := by with_reducible assumption) (f_mem : F .mem = true := by with_reducible assumption) : Keeps F s₀ (State.scrubError s stk pos e) := by
  unfold State.scrubError
  repeat' first
    | with_reducible assumption
    | with_reducible apply State.columnError_keeps
    | with_reducible apply State.countFld_keeps
    | with_reducible apply State.raise_keeps
    | intro _
    | with_reducible apply Keeps.ite
    | split
    | dsimp only

theorem execScrubPosition_good {F : Part → Bool} {stk : Nat} {errors : List ColumnError} {behind : Bool} {s : State} (f_flash : F .flash = true := by with_reducible assumption) (f_fcu : F .fcu = true := by with_reducible assumption) (f_regs : F .regs = true := by with_reducible assumption) (f_mem : F .mem = true := by with_reducible assumption) : Good F s (execScrubPosition stk errors behind s) := by
  unfold execScrubPosition
  repeat' first
    | with_reducible assumption
    | with_reducible apply Keeps.foldl
    | with_reducible apply State.scrubError_keeps
    | with_reducible apply State.setFld_keeps
    | with_reducible apply State.when_keeps
    | with_reducible apply State.whenP_keeps
    | with_reducible apply Good.next
    | with_reducible exact Keeps.rfl
    | intro _
    | with_reducible apply Keeps.ite
    | split
    | dsimp only

theorem execBankRetire_good {F : Part → Bool} {b : BankId} {s : State} (f_flash : F .flash = true := by with_reducible assumption) (f_fcu : F .fcu = true := by with_reducible assumption) (f_regs : F .regs = true := by with_reducible assumption) (f_stackMap : F .stackMap = true := by with_reducible assumption) : Good F s (execBankRetire b s) := by
  unfold execBankRetire
  repeat' first
    | with_reducible assumption
    | with_reducible apply State.retireBank_keeps
    | with_reducible apply State.whenP_keeps
    | with_reducible apply Good.next
    | with_reducible exact Keeps.rfl
    | intro _
    | with_reducible apply Keeps.ite
    | split
    | dsimp only

theorem execBankCopyComplete_good {F : Part → Bool} {b : BankId} {s : State} (f_stackMap : F .stackMap = true := by with_reducible assumption) : Good F s (execBankCopyComplete b s) := by
  unfold execBankCopyComplete
  repeat' first
    | with_reducible assumption
    | with_reducible apply State.onStack_keeps
    | with_reducible apply State.when_keeps
    | with_reducible apply Good.next
    | with_reducible exact Keeps.rfl
    | intro _
    | with_reducible apply Keeps.ite
    | split
    | dsimp only

theorem execDieRetire_good {F : Part → Bool} {stk die : Nat} {s : State} (f_flash : F .flash = true := by with_reducible assumption) (f_fcu : F .fcu = true := by with_reducible assumption) (f_regs : F .regs = true := by with_reducible assumption) (f_stackMap : F .stackMap = true := by with_reducible assumption) : Good F s (execDieRetire stk die s) := by
  unfold execDieRetire
  repeat' first
    | with_reducible assumption
    | with_reducible apply State.retireDie_keeps
    | with_reducible apply State.whenP_keeps
    | with_reducible apply Good.next
    | with_reducible exact Keeps.rfl
    | intro _
    | with_reducible apply Keeps.ite
    | split
    | dsimp only

theorem execRebuildPosition_good {F : Part → Bool} {stk : Nat} {s : State} (f_regs : F .regs = true := by with_reducible assumption) (f_stackMap : F .stackMap = true := by with_reducible assumption) : Good F s (execRebuildPosition stk s) := by
  unfold execRebuildPosition
  repeat' first
    | with_reducible assumption
    | with_reducible apply State.rebuildStep_keeps
    | with_reducible apply State.when_keeps
    | with_reducible apply State.whenP_keeps
    | with_reducible apply Good.next
    | with_reducible exact Keeps.rfl
    | intro _
    | with_reducible apply Keeps.ite
    | split
    | dsimp only

theorem execParityDieFail_good {F : Part → Bool} {stk : Nat} {s : State} (f_flash : F .flash = true := by with_reducible assumption) (f_fcu : F .fcu = true := by with_reducible assumption) (f_regs : F .regs = true := by with_reducible assumption) (f_stackMap : F .stackMap = true := by with_reducible assumption) : Good F s (execParityDieFail stk s) := by
  unfold execParityDieFail
  repeat' first
    | with_reducible assumption
    | with_reducible apply State.parityDieFails_keeps
    | with_reducible apply State.whenP_keeps
    | with_reducible apply Good.next
    | with_reducible exact Keeps.rfl
    | intro _
    | with_reducible apply Keeps.ite
    | split
    | dsimp only

end Sys2Proof.Machine
end

