-- ==== Sys2Proof/Laws/KeepsSteps.lean ====
section
/-! SUPPORT. The operations of Machine/Steps.lean undo nothing (Laws/Keeps.lean). -/

set_option Elab.async false
set_option linter.unusedTactic false
set_option linter.unreachableTactic false
set_option linter.unusedVariables false

namespace Sys2Proof.Machine

open Sys2Proof

theorem State.ccTake_keeps {F : Part → Bool} {s₀ : State} {s : State} {d c : Nat} (h : Keeps F s₀ s) (f_free : F .free = true := by with_reducible assumption) (f_sent : F .sent = true := by with_reducible assumption) (f_power : F .power = true := by with_reducible assumption) (f_flash : F .flash = true := by with_reducible assumption) (f_fcu : F .fcu = true := by with_reducible assumption) (f_regs : F .regs = true := by with_reducible assumption) (f_mem : F .mem = true := by with_reducible assumption) (f_ports : F .ports = true := by with_reducible assumption) (f_cores : F .cores = true := by with_reducible assumption) (f_notices : F .notices = true := by with_reducible assumption) (f_kept : F .kept = true := by with_reducible assumption) (f_kv : F .kv = true := by with_reducible assumption) (f_fab : F .fab = true := by with_reducible assumption) : Keeps F s₀ (State.ccTake s d c) := by
  unfold State.ccTake
  repeat' first
    | with_reducible assumption
    | with_reducible apply State.emptySlot_keeps
    | with_reducible apply State.kvDone_keeps
    | with_reducible apply State.mapErr_keeps
    | with_reducible apply State.onCc_keeps
    | with_reducible apply BauRun.op_keeps
    | with_reducible apply State.withMem_keeps
    | intro _
    | with_reducible apply Keeps.ite
    | split
    | dsimp only

theorem execCcNoticeDispatch_good {F : Part → Bool} {d c : Nat} {s : State} (f_free : F .free = true := by with_reducible assumption) (f_sent : F .sent = true := by with_reducible assumption) (f_power : F .power = true := by with_reducible assumption) (f_flash : F .flash = true := by with_reducible assumption) (f_fcu : F .fcu = true := by with_reducible assumption) (f_regs : F .regs = true := by with_reducible assumption) (f_mem : F .mem = true := by with_reducible assumption) (f_ports : F .ports = true := by with_reducible assumption) (f_cores : F .cores = true := by with_reducible assumption) (f_notices : F .notices = true := by with_reducible assumption) (f_kept : F .kept = true := by with_reducible assumption) (f_kv : F .kv = true := by with_reducible assumption) (f_fab : F .fab = true := by with_reducible assumption) : Good F s (execCcNoticeDispatch d c s) := by
  unfold execCcNoticeDispatch
  repeat' first
    | with_reducible assumption
    | with_reducible apply State.ccTake_keeps
    | with_reducible apply Good.next
    | with_reducible exact Keeps.rfl
    | intro _
    | with_reducible apply Keeps.ite
    | split
    | dsimp only

theorem State.aseqTake_keeps {F : Part → Bool} {s₀ : State} {s : State} {d k : Nat} (h : Keeps F s₀ s) (f_sent : F .sent = true := by with_reducible assumption) (f_regs : F .regs = true := by with_reducible assumption) (f_mem : F .mem = true := by with_reducible assumption) (f_notices : F .notices = true := by with_reducible assumption) (f_kv : F .kv = true := by with_reducible assumption) : Keeps F s₀ (State.aseqTake s d k) := by
  unfold State.aseqTake
  repeat' first
    | with_reducible assumption
    | with_reducible apply State.emptySlot_keeps
    | with_reducible apply State.mapErr_keeps
    | with_reducible apply State.onKv_keeps
    | with_reducible apply State.withMem_keeps
    | intro _
    | with_reducible apply Keeps.ite
    | split
    | dsimp only

theorem execNoticeTake_good {F : Part → Bool} {d k recv : Nat} {s : State} (f_free : F .free = true := by with_reducible assumption) (f_sent : F .sent = true := by with_reducible assumption) (f_power : F .power = true := by with_reducible assumption) (f_flash : F .flash = true := by with_reducible assumption) (f_fcu : F .fcu = true := by with_reducible assumption) (f_regs : F .regs = true := by with_reducible assumption) (f_mem : F .mem = true := by with_reducible assumption) (f_ports : F .ports = true := by with_reducible assumption) (f_cores : F .cores = true := by with_reducible assumption) (f_notices : F .notices = true := by with_reducible assumption) (f_kept : F .kept = true := by with_reducible assumption) (f_kv : F .kv = true := by with_reducible assumption) (f_fab : F .fab = true := by with_reducible assumption) : Good F s (execNoticeTake d k recv s) := by
  unfold execNoticeTake
  repeat' first
    | with_reducible assumption
    | with_reducible apply State.aseqTake_keeps
    | with_reducible apply State.ccTake_keeps
    | with_reducible apply Good.next
    | with_reducible exact Keeps.rfl
    | intro _
    | with_reducible apply Keeps.ite
    | split
    | dsimp only

theorem execStepDecode_good {F : Part → Bool} {d k n : Nat} {s : State} (f_free : F .free = true := by with_reducible assumption) (f_sent : F .sent = true := by with_reducible assumption) (f_power : F .power = true := by with_reducible assumption) (f_regs : F .regs = true := by with_reducible assumption) (f_mem : F .mem = true := by with_reducible assumption) (f_stackMap : F .stackMap = true := by with_reducible assumption) (f_banks : F .banks = true := by with_reducible assumption) (f_baus : F .baus = true := by with_reducible assumption) (f_seqs : F .seqs = true := by with_reducible assumption) (f_seqNext : F .seqNext = true := by with_reducible assumption) (f_kv : F .kv = true := by with_reducible assumption) (f_fab : F .fab = true := by with_reducible assumption) : Good F s (execStepDecode d k n s) := by
  unfold execStepDecode
  repeat' first
    | with_reducible assumption
    | with_reducible apply State.stepRun_keeps
    | with_reducible apply Good.next
    | with_reducible exact Keeps.rfl
    | intro _
    | with_reducible apply Keeps.ite
    | split
    | dsimp only

theorem execStepAttend_good {F : Part → Bool} {d k n : Nat} {s : State} (f_free : F .free = true := by with_reducible assumption) (f_sent : F .sent = true := by with_reducible assumption) (f_power : F .power = true := by with_reducible assumption) (f_regs : F .regs = true := by with_reducible assumption) (f_mem : F .mem = true := by with_reducible assumption) (f_stackMap : F .stackMap = true := by with_reducible assumption) (f_banks : F .banks = true := by with_reducible assumption) (f_baus : F .baus = true := by with_reducible assumption) (f_seqs : F .seqs = true := by with_reducible assumption) (f_seqNext : F .seqNext = true := by with_reducible assumption) (f_kv : F .kv = true := by with_reducible assumption) (f_fab : F .fab = true := by with_reducible assumption) : Good F s (execStepAttend d k n s) := by
  unfold execStepAttend
  repeat' first
    | with_reducible assumption
    | with_reducible apply State.stepRun_keeps
    | with_reducible apply Good.next
    | with_reducible exact Keeps.rfl
    | intro _
    | with_reducible apply Keeps.ite
    | split
    | dsimp only

theorem execStepAppend_good {F : Part → Bool} {d k n : Nat} {s : State} (f_free : F .free = true := by with_reducible assumption) (f_sent : F .sent = true := by with_reducible assumption) (f_power : F .power = true := by with_reducible assumption) (f_regs : F .regs = true := by with_reducible assumption) (f_mem : F .mem = true := by with_reducible assumption) (f_stackMap : F .stackMap = true := by with_reducible assumption) (f_banks : F .banks = true := by with_reducible assumption) (f_baus : F .baus = true := by with_reducible assumption) (f_seqs : F .seqs = true := by with_reducible assumption) (f_seqNext : F .seqNext = true := by with_reducible assumption) (f_kv : F .kv = true := by with_reducible assumption) (f_fab : F .fab = true := by with_reducible assumption) : Good F s (execStepAppend d k n s) := by
  unfold execStepAppend
  repeat' first
    | with_reducible assumption
    | with_reducible apply State.stepRun_keeps
    | with_reducible apply Good.next
    | with_reducible exact Keeps.rfl
    | intro _
    | with_reducible apply Keeps.ite
    | split
    | dsimp only

theorem execKvAllocPage_good {F : Part → Bool} {d c : Nat} {s : State} (f_mem : F .mem = true := by with_reducible assumption) (f_kv : F .kv = true := by with_reducible assumption) : Good F s (execKvAllocPage d c s) := by
  unfold execKvAllocPage
  repeat' first
    | with_reducible assumption
    | refine State.allocPages_keeps ?_ (by with_reducible assumption)
    | with_reducible apply State.onRow_keeps
    | with_reducible apply State.orStarve_keeps
    | with_reducible apply State.when_keeps
    | with_reducible apply Good.next
    | with_reducible exact Keeps.rfl
    | intro _
    | with_reducible apply Keeps.ite
    | split
    | dsimp only

theorem execPartialMerge_good {F : Part → Bool} {d k n i : Nat} {s : State} (f_kv : F .kv = true := by with_reducible assumption) : Good F s (execPartialMerge d k n i s) := by
  unfold execPartialMerge
  repeat' first
    | with_reducible assumption
    | with_reducible apply State.onStep_keeps
    | with_reducible apply Good.next
    | with_reducible exact Keeps.rfl
    | intro _
    | with_reducible apply Keeps.ite
    | split
    | dsimp only

theorem execCoreMode_good {F : Part → Bool} {d k n i : Nat} {s : State} (f_sent : F .sent = true := by with_reducible assumption) (f_mem : F .mem = true := by with_reducible assumption) (f_kv : F .kv = true := by with_reducible assumption) : Good F s (execCoreMode d k n i s) := by
  unfold execCoreMode
  repeat' first
    | with_reducible assumption
    | with_reducible apply State.coreMode_keeps
    | with_reducible apply Good.next
    | with_reducible exact Keeps.rfl
    | intro _
    | with_reducible apply Keeps.ite
    | split
    | dsimp only

theorem execStepComplete_good {F : Part → Bool} {d k n : Nat} {s : State} (f_free : F .free = true := by with_reducible assumption) (f_sent : F .sent = true := by with_reducible assumption) (f_power : F .power = true := by with_reducible assumption) (f_regs : F .regs = true := by with_reducible assumption) (f_mem : F .mem = true := by with_reducible assumption) (f_ports : F .ports = true := by with_reducible assumption) (f_notices : F .notices = true := by with_reducible assumption) (f_kept : F .kept = true := by with_reducible assumption) (f_kv : F .kv = true := by with_reducible assumption) (f_fab : F .fab = true := by with_reducible assumption) : Good F s (execStepComplete d k n s) := by
  unfold execStepComplete
  repeat' first
    | with_reducible assumption
    | with_reducible apply Keeps.foldl
    | with_reducible apply State.endClosing_keeps
    | with_reducible apply State.onStep_keeps
    | with_reducible apply State.replyIf_keeps
    | with_reducible apply State.setReg_keeps
    | with_reducible apply State.when_keeps
    | with_reducible apply State.withMem_keeps
    | with_reducible apply State.writeBytes_keeps
    | with_reducible apply Good.next
    | with_reducible exact Keeps.rfl
    | intro _
    | with_reducible apply Keeps.ite
    | split
    | dsimp only

end Sys2Proof.Machine
end

