-- ==== Sys2Proof/Laws/Reads.lean ====
section
/-! SUPPORT. What an agent reads from memory. -/

set_option Elab.async false

namespace Sys2Proof.Laws

open Sys2Proof Sys2Proof.Machine

/-- Memory without poison in a range reads there as it is stored. -/
theorem seen_of_clean (s : State) (a n : Nat) (h : s.anyPoison a n = false) :
    s.seen a n = (piecesOf a n).flatMap fun p => s.readBytes p.1 p.2 := by
  have h' : ∀ p ∈ piecesOf a n, s.poisonedAt p.1 = false := by simpa [State.anyPoison] using h
  exact List.flatMap_congr fun p hp => by rw [if_neg (by simp [h' p hp])]

end Sys2Proof.Laws
end

