-- ==== Sys2Proof/Laws/State.lean ====
section
/-! SUPPORT. One lemma for each field and each update of State, true by rfl, and what registers and bit fields read after they are written. -/

set_option Elab.async false

namespace Sys2Proof.Machine

open Sys2Proof

variable {s : State}

/-! ### onPower -/

@[simp] theorem State.onPower_pending {f : Power → Power} : (s.onPower f).pending = s.pending := rfl
@[simp] theorem State.onPower_free {f : Power → Power} : (s.onPower f).free = s.free := rfl
@[simp] theorem State.onPower_sent {f : Power → Power} : (s.onPower f).sent = s.sent := rfl
@[simp] theorem State.onPower_dieTime {f : Power → Power} : (s.onPower f).dieTime = s.dieTime := rfl
@[simp] theorem State.onPower_power {f : Power → Power} : (s.onPower f).power = f s.power := rfl
@[simp] theorem State.onPower_fuses {f : Power → Power} : (s.onPower f).fuses = s.fuses := rfl
@[simp] theorem State.onPower_flash {f : Power → Power} : (s.onPower f).flash = s.flash := rfl
@[simp] theorem State.onPower_boot {f : Power → Power} : (s.onPower f).boot = s.boot := rfl
@[simp] theorem State.onPower_mgmt {f : Power → Power} : (s.onPower f).mgmt = s.mgmt := rfl
@[simp] theorem State.onPower_fcu {f : Power → Power} : (s.onPower f).fcu = s.fcu := rfl
@[simp] theorem State.onPower_cfg {f : Power → Power} : (s.onPower f).cfg = s.cfg := rfl
@[simp] theorem State.onPower_regs {f : Power → Power} : (s.onPower f).regs = s.regs := rfl
@[simp] theorem State.onPower_mem {f : Power → Power} : (s.onPower f).mem = s.mem := rfl
@[simp] theorem State.onPower_stacks {f : Power → Power} : (s.onPower f).stackMap = s.stackMap := rfl
@[simp] theorem State.onPower_banks {f : Power → Power} : (s.onPower f).banks = s.banks := rfl
@[simp] theorem State.onPower_baus {f : Power → Power} : (s.onPower f).baus = s.baus := rfl
@[simp] theorem State.onPower_seqs {f : Power → Power} : (s.onPower f).seqs = s.seqs := rfl
@[simp] theorem State.onPower_seqNext {f : Power → Power} : (s.onPower f).seqNext = s.seqNext := rfl
@[simp] theorem State.onPower_slots {f : Power → Power} : (s.onPower f).slots = s.slots := rfl
@[simp] theorem State.onPower_ports {f : Power → Power} : (s.onPower f).ports = s.ports := rfl
@[simp] theorem State.onPower_cores {f : Power → Power} : (s.onPower f).cores = s.cores := rfl
@[simp] theorem State.onPower_notices {f : Power → Power} : (s.onPower f).notices = s.notices := rfl
@[simp] theorem State.onPower_kept {f : Power → Power} : (s.onPower f).kept = s.kept := rfl
@[simp] theorem State.onPower_kv {f : Power → Power} : (s.onPower f).kv = s.kv := rfl
@[simp] theorem State.onPower_ldr {f : Power → Power} : (s.onPower f).ldr = s.ldr := rfl
@[simp] theorem State.onPower_fab {f : Power → Power} : (s.onPower f).fab = s.fab := rfl

/-! ### onBoot -/

@[simp] theorem State.onBoot_pending {f : Boot → Boot} : (s.onBoot f).pending = s.pending := rfl
@[simp] theorem State.onBoot_free {f : Boot → Boot} : (s.onBoot f).free = s.free := rfl
@[simp] theorem State.onBoot_sent {f : Boot → Boot} : (s.onBoot f).sent = s.sent := rfl
@[simp] theorem State.onBoot_dieTime {f : Boot → Boot} : (s.onBoot f).dieTime = s.dieTime := rfl
@[simp] theorem State.onBoot_power {f : Boot → Boot} : (s.onBoot f).power = s.power := rfl
@[simp] theorem State.onBoot_fuses {f : Boot → Boot} : (s.onBoot f).fuses = s.fuses := rfl
@[simp] theorem State.onBoot_flash {f : Boot → Boot} : (s.onBoot f).flash = s.flash := rfl
@[simp] theorem State.onBoot_boot {f : Boot → Boot} : (s.onBoot f).boot = f s.boot := rfl
@[simp] theorem State.onBoot_mgmt {f : Boot → Boot} : (s.onBoot f).mgmt = s.mgmt := rfl
@[simp] theorem State.onBoot_fcu {f : Boot → Boot} : (s.onBoot f).fcu = s.fcu := rfl
@[simp] theorem State.onBoot_cfg {f : Boot → Boot} : (s.onBoot f).cfg = s.cfg := rfl
@[simp] theorem State.onBoot_regs {f : Boot → Boot} : (s.onBoot f).regs = s.regs := rfl
@[simp] theorem State.onBoot_mem {f : Boot → Boot} : (s.onBoot f).mem = s.mem := rfl
@[simp] theorem State.onBoot_stacks {f : Boot → Boot} : (s.onBoot f).stackMap = s.stackMap := rfl
@[simp] theorem State.onBoot_banks {f : Boot → Boot} : (s.onBoot f).banks = s.banks := rfl
@[simp] theorem State.onBoot_baus {f : Boot → Boot} : (s.onBoot f).baus = s.baus := rfl
@[simp] theorem State.onBoot_seqs {f : Boot → Boot} : (s.onBoot f).seqs = s.seqs := rfl
@[simp] theorem State.onBoot_seqNext {f : Boot → Boot} : (s.onBoot f).seqNext = s.seqNext := rfl
@[simp] theorem State.onBoot_slots {f : Boot → Boot} : (s.onBoot f).slots = s.slots := rfl
@[simp] theorem State.onBoot_ports {f : Boot → Boot} : (s.onBoot f).ports = s.ports := rfl
@[simp] theorem State.onBoot_cores {f : Boot → Boot} : (s.onBoot f).cores = s.cores := rfl
@[simp] theorem State.onBoot_notices {f : Boot → Boot} : (s.onBoot f).notices = s.notices := rfl
@[simp] theorem State.onBoot_kept {f : Boot → Boot} : (s.onBoot f).kept = s.kept := rfl
@[simp] theorem State.onBoot_kv {f : Boot → Boot} : (s.onBoot f).kv = s.kv := rfl
@[simp] theorem State.onBoot_ldr {f : Boot → Boot} : (s.onBoot f).ldr = s.ldr := rfl
@[simp] theorem State.onBoot_fab {f : Boot → Boot} : (s.onBoot f).fab = s.fab := rfl

/-! ### onMgmt -/

@[simp] theorem State.onMgmt_pending {f : Mgmt → Mgmt} : (s.onMgmt f).pending = s.pending := rfl
@[simp] theorem State.onMgmt_free {f : Mgmt → Mgmt} : (s.onMgmt f).free = s.free := rfl
@[simp] theorem State.onMgmt_sent {f : Mgmt → Mgmt} : (s.onMgmt f).sent = s.sent := rfl
@[simp] theorem State.onMgmt_dieTime {f : Mgmt → Mgmt} : (s.onMgmt f).dieTime = s.dieTime := rfl
@[simp] theorem State.onMgmt_power {f : Mgmt → Mgmt} : (s.onMgmt f).power = s.power := rfl
@[simp] theorem State.onMgmt_fuses {f : Mgmt → Mgmt} : (s.onMgmt f).fuses = s.fuses := rfl
@[simp] theorem State.onMgmt_flash {f : Mgmt → Mgmt} : (s.onMgmt f).flash = s.flash := rfl
@[simp] theorem State.onMgmt_boot {f : Mgmt → Mgmt} : (s.onMgmt f).boot = s.boot := rfl
@[simp] theorem State.onMgmt_mgmt {f : Mgmt → Mgmt} : (s.onMgmt f).mgmt = f s.mgmt := rfl
@[simp] theorem State.onMgmt_fcu {f : Mgmt → Mgmt} : (s.onMgmt f).fcu = s.fcu := rfl
@[simp] theorem State.onMgmt_cfg {f : Mgmt → Mgmt} : (s.onMgmt f).cfg = s.cfg := rfl
@[simp] theorem State.onMgmt_regs {f : Mgmt → Mgmt} : (s.onMgmt f).regs = s.regs := rfl
@[simp] theorem State.onMgmt_mem {f : Mgmt → Mgmt} : (s.onMgmt f).mem = s.mem := rfl
@[simp] theorem State.onMgmt_stacks {f : Mgmt → Mgmt} : (s.onMgmt f).stackMap = s.stackMap := rfl
@[simp] theorem State.onMgmt_banks {f : Mgmt → Mgmt} : (s.onMgmt f).banks = s.banks := rfl
@[simp] theorem State.onMgmt_baus {f : Mgmt → Mgmt} : (s.onMgmt f).baus = s.baus := rfl
@[simp] theorem State.onMgmt_seqs {f : Mgmt → Mgmt} : (s.onMgmt f).seqs = s.seqs := rfl
@[simp] theorem State.onMgmt_seqNext {f : Mgmt → Mgmt} : (s.onMgmt f).seqNext = s.seqNext := rfl
@[simp] theorem State.onMgmt_slots {f : Mgmt → Mgmt} : (s.onMgmt f).slots = s.slots := rfl
@[simp] theorem State.onMgmt_ports {f : Mgmt → Mgmt} : (s.onMgmt f).ports = s.ports := rfl
@[simp] theorem State.onMgmt_cores {f : Mgmt → Mgmt} : (s.onMgmt f).cores = s.cores := rfl
@[simp] theorem State.onMgmt_notices {f : Mgmt → Mgmt} : (s.onMgmt f).notices = s.notices := rfl
@[simp] theorem State.onMgmt_kept {f : Mgmt → Mgmt} : (s.onMgmt f).kept = s.kept := rfl
@[simp] theorem State.onMgmt_kv {f : Mgmt → Mgmt} : (s.onMgmt f).kv = s.kv := rfl
@[simp] theorem State.onMgmt_ldr {f : Mgmt → Mgmt} : (s.onMgmt f).ldr = s.ldr := rfl
@[simp] theorem State.onMgmt_fab {f : Mgmt → Mgmt} : (s.onMgmt f).fab = s.fab := rfl

/-! ### onFcu -/

@[simp] theorem State.onFcu_pending {f : Fcu → Fcu} : (s.onFcu f).pending = s.pending := rfl
@[simp] theorem State.onFcu_free {f : Fcu → Fcu} : (s.onFcu f).free = s.free := rfl
@[simp] theorem State.onFcu_sent {f : Fcu → Fcu} : (s.onFcu f).sent = s.sent := rfl
@[simp] theorem State.onFcu_dieTime {f : Fcu → Fcu} : (s.onFcu f).dieTime = s.dieTime := rfl
@[simp] theorem State.onFcu_power {f : Fcu → Fcu} : (s.onFcu f).power = s.power := rfl
@[simp] theorem State.onFcu_fuses {f : Fcu → Fcu} : (s.onFcu f).fuses = s.fuses := rfl
@[simp] theorem State.onFcu_flash {f : Fcu → Fcu} : (s.onFcu f).flash = s.flash := rfl
@[simp] theorem State.onFcu_boot {f : Fcu → Fcu} : (s.onFcu f).boot = s.boot := rfl
@[simp] theorem State.onFcu_mgmt {f : Fcu → Fcu} : (s.onFcu f).mgmt = s.mgmt := rfl
@[simp] theorem State.onFcu_fcu {f : Fcu → Fcu} : (s.onFcu f).fcu = f s.fcu := rfl
@[simp] theorem State.onFcu_cfg {f : Fcu → Fcu} : (s.onFcu f).cfg = s.cfg := rfl
@[simp] theorem State.onFcu_regs {f : Fcu → Fcu} : (s.onFcu f).regs = s.regs := rfl
@[simp] theorem State.onFcu_mem {f : Fcu → Fcu} : (s.onFcu f).mem = s.mem := rfl
@[simp] theorem State.onFcu_stacks {f : Fcu → Fcu} : (s.onFcu f).stackMap = s.stackMap := rfl
@[simp] theorem State.onFcu_banks {f : Fcu → Fcu} : (s.onFcu f).banks = s.banks := rfl
@[simp] theorem State.onFcu_baus {f : Fcu → Fcu} : (s.onFcu f).baus = s.baus := rfl
@[simp] theorem State.onFcu_seqs {f : Fcu → Fcu} : (s.onFcu f).seqs = s.seqs := rfl
@[simp] theorem State.onFcu_seqNext {f : Fcu → Fcu} : (s.onFcu f).seqNext = s.seqNext := rfl
@[simp] theorem State.onFcu_slots {f : Fcu → Fcu} : (s.onFcu f).slots = s.slots := rfl
@[simp] theorem State.onFcu_ports {f : Fcu → Fcu} : (s.onFcu f).ports = s.ports := rfl
@[simp] theorem State.onFcu_cores {f : Fcu → Fcu} : (s.onFcu f).cores = s.cores := rfl
@[simp] theorem State.onFcu_notices {f : Fcu → Fcu} : (s.onFcu f).notices = s.notices := rfl
@[simp] theorem State.onFcu_kept {f : Fcu → Fcu} : (s.onFcu f).kept = s.kept := rfl
@[simp] theorem State.onFcu_kv {f : Fcu → Fcu} : (s.onFcu f).kv = s.kv := rfl
@[simp] theorem State.onFcu_ldr {f : Fcu → Fcu} : (s.onFcu f).ldr = s.ldr := rfl
@[simp] theorem State.onFcu_fab {f : Fcu → Fcu} : (s.onFcu f).fab = s.fab := rfl

/-! ### onMem -/

@[simp] theorem State.onMem_pending {f : Memory → Memory} : (s.onMem f).pending = s.pending := rfl
@[simp] theorem State.onMem_free {f : Memory → Memory} : (s.onMem f).free = s.free := rfl
@[simp] theorem State.onMem_sent {f : Memory → Memory} : (s.onMem f).sent = s.sent := rfl
@[simp] theorem State.onMem_dieTime {f : Memory → Memory} : (s.onMem f).dieTime = s.dieTime := rfl
@[simp] theorem State.onMem_power {f : Memory → Memory} : (s.onMem f).power = s.power := rfl
@[simp] theorem State.onMem_fuses {f : Memory → Memory} : (s.onMem f).fuses = s.fuses := rfl
@[simp] theorem State.onMem_flash {f : Memory → Memory} : (s.onMem f).flash = s.flash := rfl
@[simp] theorem State.onMem_boot {f : Memory → Memory} : (s.onMem f).boot = s.boot := rfl
@[simp] theorem State.onMem_mgmt {f : Memory → Memory} : (s.onMem f).mgmt = s.mgmt := rfl
@[simp] theorem State.onMem_fcu {f : Memory → Memory} : (s.onMem f).fcu = s.fcu := rfl
@[simp] theorem State.onMem_cfg {f : Memory → Memory} : (s.onMem f).cfg = s.cfg := rfl
@[simp] theorem State.onMem_regs {f : Memory → Memory} : (s.onMem f).regs = s.regs := rfl
@[simp] theorem State.onMem_mem {f : Memory → Memory} : (s.onMem f).mem = f s.mem := rfl
@[simp] theorem State.onMem_stacks {f : Memory → Memory} : (s.onMem f).stackMap = s.stackMap := rfl
@[simp] theorem State.onMem_banks {f : Memory → Memory} : (s.onMem f).banks = s.banks := rfl
@[simp] theorem State.onMem_baus {f : Memory → Memory} : (s.onMem f).baus = s.baus := rfl
@[simp] theorem State.onMem_seqs {f : Memory → Memory} : (s.onMem f).seqs = s.seqs := rfl
@[simp] theorem State.onMem_seqNext {f : Memory → Memory} : (s.onMem f).seqNext = s.seqNext := rfl
@[simp] theorem State.onMem_slots {f : Memory → Memory} : (s.onMem f).slots = s.slots := rfl
@[simp] theorem State.onMem_ports {f : Memory → Memory} : (s.onMem f).ports = s.ports := rfl
@[simp] theorem State.onMem_cores {f : Memory → Memory} : (s.onMem f).cores = s.cores := rfl
@[simp] theorem State.onMem_notices {f : Memory → Memory} : (s.onMem f).notices = s.notices := rfl
@[simp] theorem State.onMem_kept {f : Memory → Memory} : (s.onMem f).kept = s.kept := rfl
@[simp] theorem State.onMem_kv {f : Memory → Memory} : (s.onMem f).kv = s.kv := rfl
@[simp] theorem State.onMem_ldr {f : Memory → Memory} : (s.onMem f).ldr = s.ldr := rfl
@[simp] theorem State.onMem_fab {f : Memory → Memory} : (s.onMem f).fab = s.fab := rfl

/-! ### onPort -/

@[simp] theorem State.onPort_pending {p : Nat} {f : HostPort → HostPort} : (s.onPort p f).pending = s.pending := rfl
@[simp] theorem State.onPort_free {p : Nat} {f : HostPort → HostPort} : (s.onPort p f).free = s.free := rfl
@[simp] theorem State.onPort_sent {p : Nat} {f : HostPort → HostPort} : (s.onPort p f).sent = s.sent := rfl
@[simp] theorem State.onPort_dieTime {p : Nat} {f : HostPort → HostPort} : (s.onPort p f).dieTime = s.dieTime := rfl
@[simp] theorem State.onPort_power {p : Nat} {f : HostPort → HostPort} : (s.onPort p f).power = s.power := rfl
@[simp] theorem State.onPort_fuses {p : Nat} {f : HostPort → HostPort} : (s.onPort p f).fuses = s.fuses := rfl
@[simp] theorem State.onPort_flash {p : Nat} {f : HostPort → HostPort} : (s.onPort p f).flash = s.flash := rfl
@[simp] theorem State.onPort_boot {p : Nat} {f : HostPort → HostPort} : (s.onPort p f).boot = s.boot := rfl
@[simp] theorem State.onPort_mgmt {p : Nat} {f : HostPort → HostPort} : (s.onPort p f).mgmt = s.mgmt := rfl
@[simp] theorem State.onPort_fcu {p : Nat} {f : HostPort → HostPort} : (s.onPort p f).fcu = s.fcu := rfl
@[simp] theorem State.onPort_cfg {p : Nat} {f : HostPort → HostPort} : (s.onPort p f).cfg = s.cfg := rfl
@[simp] theorem State.onPort_regs {p : Nat} {f : HostPort → HostPort} : (s.onPort p f).regs = s.regs := rfl
@[simp] theorem State.onPort_mem {p : Nat} {f : HostPort → HostPort} : (s.onPort p f).mem = s.mem := rfl
@[simp] theorem State.onPort_stacks {p : Nat} {f : HostPort → HostPort} : (s.onPort p f).stackMap = s.stackMap := rfl
@[simp] theorem State.onPort_banks {p : Nat} {f : HostPort → HostPort} : (s.onPort p f).banks = s.banks := rfl
@[simp] theorem State.onPort_baus {p : Nat} {f : HostPort → HostPort} : (s.onPort p f).baus = s.baus := rfl
@[simp] theorem State.onPort_seqs {p : Nat} {f : HostPort → HostPort} : (s.onPort p f).seqs = s.seqs := rfl
@[simp] theorem State.onPort_seqNext {p : Nat} {f : HostPort → HostPort} : (s.onPort p f).seqNext = s.seqNext := rfl
@[simp] theorem State.onPort_slots {p : Nat} {f : HostPort → HostPort} : (s.onPort p f).slots = s.slots := rfl
@[simp] theorem State.onPort_ports {p : Nat} {f : HostPort → HostPort} : (s.onPort p f).ports = mput s.ports p (f (s.port p)) := rfl
@[simp] theorem State.onPort_cores {p : Nat} {f : HostPort → HostPort} : (s.onPort p f).cores = s.cores := rfl
@[simp] theorem State.onPort_notices {p : Nat} {f : HostPort → HostPort} : (s.onPort p f).notices = s.notices := rfl
@[simp] theorem State.onPort_kept {p : Nat} {f : HostPort → HostPort} : (s.onPort p f).kept = s.kept := rfl
@[simp] theorem State.onPort_kv {p : Nat} {f : HostPort → HostPort} : (s.onPort p f).kv = s.kv := rfl
@[simp] theorem State.onPort_ldr {p : Nat} {f : HostPort → HostPort} : (s.onPort p f).ldr = s.ldr := rfl
@[simp] theorem State.onPort_fab {p : Nat} {f : HostPort → HostPort} : (s.onPort p f).fab = s.fab := rfl

/-! ### setStack -/

@[simp] theorem State.setStack_pending {n : Nat} {x : Stack} : (s.setStack n x).pending = s.pending := rfl
@[simp] theorem State.setStack_free {n : Nat} {x : Stack} : (s.setStack n x).free = s.free := rfl
@[simp] theorem State.setStack_sent {n : Nat} {x : Stack} : (s.setStack n x).sent = s.sent := rfl
@[simp] theorem State.setStack_dieTime {n : Nat} {x : Stack} : (s.setStack n x).dieTime = s.dieTime := rfl
@[simp] theorem State.setStack_power {n : Nat} {x : Stack} : (s.setStack n x).power = s.power := rfl
@[simp] theorem State.setStack_fuses {n : Nat} {x : Stack} : (s.setStack n x).fuses = s.fuses := rfl
@[simp] theorem State.setStack_flash {n : Nat} {x : Stack} : (s.setStack n x).flash = s.flash := rfl
@[simp] theorem State.setStack_boot {n : Nat} {x : Stack} : (s.setStack n x).boot = s.boot := rfl
@[simp] theorem State.setStack_mgmt {n : Nat} {x : Stack} : (s.setStack n x).mgmt = s.mgmt := rfl
@[simp] theorem State.setStack_fcu {n : Nat} {x : Stack} : (s.setStack n x).fcu = s.fcu := rfl
@[simp] theorem State.setStack_cfg {n : Nat} {x : Stack} : (s.setStack n x).cfg = s.cfg := rfl
@[simp] theorem State.setStack_regs {n : Nat} {x : Stack} : (s.setStack n x).regs = s.regs := rfl
@[simp] theorem State.setStack_mem {n : Nat} {x : Stack} : (s.setStack n x).mem = s.mem := rfl
@[simp] theorem State.setStack_stacks {n : Nat} {x : Stack} : (s.setStack n x).stackMap = mput s.stackMap n x := rfl
@[simp] theorem State.setStack_banks {n : Nat} {x : Stack} : (s.setStack n x).banks = s.banks := rfl
@[simp] theorem State.setStack_baus {n : Nat} {x : Stack} : (s.setStack n x).baus = s.baus := rfl
@[simp] theorem State.setStack_seqs {n : Nat} {x : Stack} : (s.setStack n x).seqs = s.seqs := rfl
@[simp] theorem State.setStack_seqNext {n : Nat} {x : Stack} : (s.setStack n x).seqNext = s.seqNext := rfl
@[simp] theorem State.setStack_slots {n : Nat} {x : Stack} : (s.setStack n x).slots = s.slots := rfl
@[simp] theorem State.setStack_ports {n : Nat} {x : Stack} : (s.setStack n x).ports = s.ports := rfl
@[simp] theorem State.setStack_cores {n : Nat} {x : Stack} : (s.setStack n x).cores = s.cores := rfl
@[simp] theorem State.setStack_notices {n : Nat} {x : Stack} : (s.setStack n x).notices = s.notices := rfl
@[simp] theorem State.setStack_kept {n : Nat} {x : Stack} : (s.setStack n x).kept = s.kept := rfl
@[simp] theorem State.setStack_kv {n : Nat} {x : Stack} : (s.setStack n x).kv = s.kv := rfl
@[simp] theorem State.setStack_ldr {n : Nat} {x : Stack} : (s.setStack n x).ldr = s.ldr := rfl
@[simp] theorem State.setStack_fab {n : Nat} {x : Stack} : (s.setStack n x).fab = s.fab := rfl

/-! ### setReg -/

@[simp] theorem State.setReg_pending {d : Nat} {r : Reg} {u i : Nat} {w : Word} : (s.setReg d r u i w).pending = s.pending := rfl
@[simp] theorem State.setReg_free {d : Nat} {r : Reg} {u i : Nat} {w : Word} : (s.setReg d r u i w).free = s.free := rfl
@[simp] theorem State.setReg_sent {d : Nat} {r : Reg} {u i : Nat} {w : Word} : (s.setReg d r u i w).sent = s.sent := rfl
@[simp] theorem State.setReg_dieTime {d : Nat} {r : Reg} {u i : Nat} {w : Word} : (s.setReg d r u i w).dieTime = s.dieTime := rfl
@[simp] theorem State.setReg_power {d : Nat} {r : Reg} {u i : Nat} {w : Word} : (s.setReg d r u i w).power = s.power := rfl
@[simp] theorem State.setReg_fuses {d : Nat} {r : Reg} {u i : Nat} {w : Word} : (s.setReg d r u i w).fuses = s.fuses := rfl
@[simp] theorem State.setReg_flash {d : Nat} {r : Reg} {u i : Nat} {w : Word} : (s.setReg d r u i w).flash = s.flash := rfl
@[simp] theorem State.setReg_boot {d : Nat} {r : Reg} {u i : Nat} {w : Word} : (s.setReg d r u i w).boot = s.boot := rfl
@[simp] theorem State.setReg_mgmt {d : Nat} {r : Reg} {u i : Nat} {w : Word} : (s.setReg d r u i w).mgmt = s.mgmt := rfl
@[simp] theorem State.setReg_fcu {d : Nat} {r : Reg} {u i : Nat} {w : Word} : (s.setReg d r u i w).fcu = s.fcu := rfl
@[simp] theorem State.setReg_cfg {d : Nat} {r : Reg} {u i : Nat} {w : Word} : (s.setReg d r u i w).cfg = s.cfg := rfl
@[simp] theorem State.setReg_regs {d : Nat} {r : Reg} {u i : Nat} {w : Word} : (s.setReg d r u i w).regs = mput s.regs (regKey d r u i) w := rfl
@[simp] theorem State.setReg_mem {d : Nat} {r : Reg} {u i : Nat} {w : Word} : (s.setReg d r u i w).mem = s.mem := rfl
@[simp] theorem State.setReg_stacks {d : Nat} {r : Reg} {u i : Nat} {w : Word} : (s.setReg d r u i w).stackMap = s.stackMap := rfl
@[simp] theorem State.setReg_banks {d : Nat} {r : Reg} {u i : Nat} {w : Word} : (s.setReg d r u i w).banks = s.banks := rfl
@[simp] theorem State.setReg_baus {d : Nat} {r : Reg} {u i : Nat} {w : Word} : (s.setReg d r u i w).baus = s.baus := rfl
@[simp] theorem State.setReg_seqs {d : Nat} {r : Reg} {u i : Nat} {w : Word} : (s.setReg d r u i w).seqs = s.seqs := rfl
@[simp] theorem State.setReg_seqNext {d : Nat} {r : Reg} {u i : Nat} {w : Word} : (s.setReg d r u i w).seqNext = s.seqNext := rfl
@[simp] theorem State.setReg_slots {d : Nat} {r : Reg} {u i : Nat} {w : Word} : (s.setReg d r u i w).slots = s.slots := rfl
@[simp] theorem State.setReg_ports {d : Nat} {r : Reg} {u i : Nat} {w : Word} : (s.setReg d r u i w).ports = s.ports := rfl
@[simp] theorem State.setReg_cores {d : Nat} {r : Reg} {u i : Nat} {w : Word} : (s.setReg d r u i w).cores = s.cores := rfl
@[simp] theorem State.setReg_notices {d : Nat} {r : Reg} {u i : Nat} {w : Word} : (s.setReg d r u i w).notices = s.notices := rfl
@[simp] theorem State.setReg_kept {d : Nat} {r : Reg} {u i : Nat} {w : Word} : (s.setReg d r u i w).kept = s.kept := rfl
@[simp] theorem State.setReg_kv {d : Nat} {r : Reg} {u i : Nat} {w : Word} : (s.setReg d r u i w).kv = s.kv := rfl
@[simp] theorem State.setReg_ldr {d : Nat} {r : Reg} {u i : Nat} {w : Word} : (s.setReg d r u i w).ldr = s.ldr := rfl
@[simp] theorem State.setReg_fab {d : Nat} {r : Reg} {u i : Nat} {w : Word} : (s.setReg d r u i w).fab = s.fab := rfl

/-! ### setFld -/

@[simp] theorem State.setFld_pending {d u i : Nat} {f : RF} {v : Nat} : (s.setFld d u i f v).pending = s.pending := rfl
@[simp] theorem State.setFld_free {d u i : Nat} {f : RF} {v : Nat} : (s.setFld d u i f v).free = s.free := rfl
@[simp] theorem State.setFld_sent {d u i : Nat} {f : RF} {v : Nat} : (s.setFld d u i f v).sent = s.sent := rfl
@[simp] theorem State.setFld_dieTime {d u i : Nat} {f : RF} {v : Nat} : (s.setFld d u i f v).dieTime = s.dieTime := rfl
@[simp] theorem State.setFld_power {d u i : Nat} {f : RF} {v : Nat} : (s.setFld d u i f v).power = s.power := rfl
@[simp] theorem State.setFld_fuses {d u i : Nat} {f : RF} {v : Nat} : (s.setFld d u i f v).fuses = s.fuses := rfl
@[simp] theorem State.setFld_flash {d u i : Nat} {f : RF} {v : Nat} : (s.setFld d u i f v).flash = s.flash := rfl
@[simp] theorem State.setFld_boot {d u i : Nat} {f : RF} {v : Nat} : (s.setFld d u i f v).boot = s.boot := rfl
@[simp] theorem State.setFld_mgmt {d u i : Nat} {f : RF} {v : Nat} : (s.setFld d u i f v).mgmt = s.mgmt := rfl
@[simp] theorem State.setFld_fcu {d u i : Nat} {f : RF} {v : Nat} : (s.setFld d u i f v).fcu = s.fcu := rfl
@[simp] theorem State.setFld_cfg {d u i : Nat} {f : RF} {v : Nat} : (s.setFld d u i f v).cfg = s.cfg := rfl
@[simp] theorem State.setFld_mem {d u i : Nat} {f : RF} {v : Nat} : (s.setFld d u i f v).mem = s.mem := rfl
@[simp] theorem State.setFld_stacks {d u i : Nat} {f : RF} {v : Nat} : (s.setFld d u i f v).stackMap = s.stackMap := rfl
@[simp] theorem State.setFld_banks {d u i : Nat} {f : RF} {v : Nat} : (s.setFld d u i f v).banks = s.banks := rfl
@[simp] theorem State.setFld_baus {d u i : Nat} {f : RF} {v : Nat} : (s.setFld d u i f v).baus = s.baus := rfl
@[simp] theorem State.setFld_seqs {d u i : Nat} {f : RF} {v : Nat} : (s.setFld d u i f v).seqs = s.seqs := rfl
@[simp] theorem State.setFld_seqNext {d u i : Nat} {f : RF} {v : Nat} : (s.setFld d u i f v).seqNext = s.seqNext := rfl
@[simp] theorem State.setFld_slots {d u i : Nat} {f : RF} {v : Nat} : (s.setFld d u i f v).slots = s.slots := rfl
@[simp] theorem State.setFld_ports {d u i : Nat} {f : RF} {v : Nat} : (s.setFld d u i f v).ports = s.ports := rfl
@[simp] theorem State.setFld_cores {d u i : Nat} {f : RF} {v : Nat} : (s.setFld d u i f v).cores = s.cores := rfl
@[simp] theorem State.setFld_notices {d u i : Nat} {f : RF} {v : Nat} : (s.setFld d u i f v).notices = s.notices := rfl
@[simp] theorem State.setFld_kept {d u i : Nat} {f : RF} {v : Nat} : (s.setFld d u i f v).kept = s.kept := rfl
@[simp] theorem State.setFld_kv {d u i : Nat} {f : RF} {v : Nat} : (s.setFld d u i f v).kv = s.kv := rfl
@[simp] theorem State.setFld_ldr {d u i : Nat} {f : RF} {v : Nat} : (s.setFld d u i f v).ldr = s.ldr := rfl
@[simp] theorem State.setFld_fab {d u i : Nat} {f : RF} {v : Nat} : (s.setFld d u i f v).fab = s.fab := rfl

/-! ### countFld -/

@[simp] theorem State.countFld_pending {d u i : Nat} {f : RF} {n : Nat} : (s.countFld d u i f n).pending = s.pending := rfl
@[simp] theorem State.countFld_free {d u i : Nat} {f : RF} {n : Nat} : (s.countFld d u i f n).free = s.free := rfl
@[simp] theorem State.countFld_sent {d u i : Nat} {f : RF} {n : Nat} : (s.countFld d u i f n).sent = s.sent := rfl
@[simp] theorem State.countFld_dieTime {d u i : Nat} {f : RF} {n : Nat} : (s.countFld d u i f n).dieTime = s.dieTime := rfl
@[simp] theorem State.countFld_power {d u i : Nat} {f : RF} {n : Nat} : (s.countFld d u i f n).power = s.power := rfl
@[simp] theorem State.countFld_fuses {d u i : Nat} {f : RF} {n : Nat} : (s.countFld d u i f n).fuses = s.fuses := rfl
@[simp] theorem State.countFld_flash {d u i : Nat} {f : RF} {n : Nat} : (s.countFld d u i f n).flash = s.flash := rfl
@[simp] theorem State.countFld_boot {d u i : Nat} {f : RF} {n : Nat} : (s.countFld d u i f n).boot = s.boot := rfl
@[simp] theorem State.countFld_mgmt {d u i : Nat} {f : RF} {n : Nat} : (s.countFld d u i f n).mgmt = s.mgmt := rfl
@[simp] theorem State.countFld_fcu {d u i : Nat} {f : RF} {n : Nat} : (s.countFld d u i f n).fcu = s.fcu := rfl
@[simp] theorem State.countFld_cfg {d u i : Nat} {f : RF} {n : Nat} : (s.countFld d u i f n).cfg = s.cfg := rfl
@[simp] theorem State.countFld_mem {d u i : Nat} {f : RF} {n : Nat} : (s.countFld d u i f n).mem = s.mem := rfl
@[simp] theorem State.countFld_stacks {d u i : Nat} {f : RF} {n : Nat} : (s.countFld d u i f n).stackMap = s.stackMap := rfl
@[simp] theorem State.countFld_banks {d u i : Nat} {f : RF} {n : Nat} : (s.countFld d u i f n).banks = s.banks := rfl
@[simp] theorem State.countFld_baus {d u i : Nat} {f : RF} {n : Nat} : (s.countFld d u i f n).baus = s.baus := rfl
@[simp] theorem State.countFld_seqs {d u i : Nat} {f : RF} {n : Nat} : (s.countFld d u i f n).seqs = s.seqs := rfl
@[simp] theorem State.countFld_seqNext {d u i : Nat} {f : RF} {n : Nat} : (s.countFld d u i f n).seqNext = s.seqNext := rfl
@[simp] theorem State.countFld_slots {d u i : Nat} {f : RF} {n : Nat} : (s.countFld d u i f n).slots = s.slots := rfl
@[simp] theorem State.countFld_ports {d u i : Nat} {f : RF} {n : Nat} : (s.countFld d u i f n).ports = s.ports := rfl
@[simp] theorem State.countFld_cores {d u i : Nat} {f : RF} {n : Nat} : (s.countFld d u i f n).cores = s.cores := rfl
@[simp] theorem State.countFld_notices {d u i : Nat} {f : RF} {n : Nat} : (s.countFld d u i f n).notices = s.notices := rfl
@[simp] theorem State.countFld_kept {d u i : Nat} {f : RF} {n : Nat} : (s.countFld d u i f n).kept = s.kept := rfl
@[simp] theorem State.countFld_kv {d u i : Nat} {f : RF} {n : Nat} : (s.countFld d u i f n).kv = s.kv := rfl
@[simp] theorem State.countFld_ldr {d u i : Nat} {f : RF} {n : Nat} : (s.countFld d u i f n).ldr = s.ldr := rfl
@[simp] theorem State.countFld_fab {d u i : Nat} {f : RF} {n : Nat} : (s.countFld d u i f n).fab = s.fab := rfl

/-! ### send -/

@[simp] theorem State.send_pending {m : Sent} : (s.send m).pending = s.pending := rfl
@[simp] theorem State.send_free {m : Sent} : (s.send m).free = s.free := rfl
@[simp] theorem State.send_sent {m : Sent} : (s.send m).sent = s.sent ++ [m] := rfl
@[simp] theorem State.send_dieTime {m : Sent} : (s.send m).dieTime = s.dieTime := rfl
@[simp] theorem State.send_power {m : Sent} : (s.send m).power = s.power := rfl
@[simp] theorem State.send_fuses {m : Sent} : (s.send m).fuses = s.fuses := rfl
@[simp] theorem State.send_flash {m : Sent} : (s.send m).flash = s.flash := rfl
@[simp] theorem State.send_boot {m : Sent} : (s.send m).boot = s.boot := rfl
@[simp] theorem State.send_mgmt {m : Sent} : (s.send m).mgmt = s.mgmt := rfl
@[simp] theorem State.send_fcu {m : Sent} : (s.send m).fcu = s.fcu := rfl
@[simp] theorem State.send_cfg {m : Sent} : (s.send m).cfg = s.cfg := rfl
@[simp] theorem State.send_regs {m : Sent} : (s.send m).regs = s.regs := rfl
@[simp] theorem State.send_mem {m : Sent} : (s.send m).mem = s.mem := rfl
@[simp] theorem State.send_stacks {m : Sent} : (s.send m).stackMap = s.stackMap := rfl
@[simp] theorem State.send_banks {m : Sent} : (s.send m).banks = s.banks := rfl
@[simp] theorem State.send_baus {m : Sent} : (s.send m).baus = s.baus := rfl
@[simp] theorem State.send_seqs {m : Sent} : (s.send m).seqs = s.seqs := rfl
@[simp] theorem State.send_seqNext {m : Sent} : (s.send m).seqNext = s.seqNext := rfl
@[simp] theorem State.send_slots {m : Sent} : (s.send m).slots = s.slots := rfl
@[simp] theorem State.send_ports {m : Sent} : (s.send m).ports = s.ports := rfl
@[simp] theorem State.send_cores {m : Sent} : (s.send m).cores = s.cores := rfl
@[simp] theorem State.send_notices {m : Sent} : (s.send m).notices = s.notices := rfl
@[simp] theorem State.send_kept {m : Sent} : (s.send m).kept = s.kept := rfl
@[simp] theorem State.send_kv {m : Sent} : (s.send m).kv = s.kv := rfl
@[simp] theorem State.send_ldr {m : Sent} : (s.send m).ldr = s.ldr := rfl
@[simp] theorem State.send_fab {m : Sent} : (s.send m).fab = s.fab := rfl

/-! ### onFab -/

@[simp] theorem State.onFab_pending {f : Fabric → Fabric} : (s.onFab f).pending = s.pending := rfl
@[simp] theorem State.onFab_free {f : Fabric → Fabric} : (s.onFab f).free = s.free := rfl
@[simp] theorem State.onFab_sent {f : Fabric → Fabric} : (s.onFab f).sent = s.sent := rfl
@[simp] theorem State.onFab_dieTime {f : Fabric → Fabric} : (s.onFab f).dieTime = s.dieTime := rfl
@[simp] theorem State.onFab_power {f : Fabric → Fabric} : (s.onFab f).power = s.power := rfl
@[simp] theorem State.onFab_fuses {f : Fabric → Fabric} : (s.onFab f).fuses = s.fuses := rfl
@[simp] theorem State.onFab_flash {f : Fabric → Fabric} : (s.onFab f).flash = s.flash := rfl
@[simp] theorem State.onFab_boot {f : Fabric → Fabric} : (s.onFab f).boot = s.boot := rfl
@[simp] theorem State.onFab_mgmt {f : Fabric → Fabric} : (s.onFab f).mgmt = s.mgmt := rfl
@[simp] theorem State.onFab_fcu {f : Fabric → Fabric} : (s.onFab f).fcu = s.fcu := rfl
@[simp] theorem State.onFab_cfg {f : Fabric → Fabric} : (s.onFab f).cfg = s.cfg := rfl
@[simp] theorem State.onFab_regs {f : Fabric → Fabric} : (s.onFab f).regs = s.regs := rfl
@[simp] theorem State.onFab_mem {f : Fabric → Fabric} : (s.onFab f).mem = s.mem := rfl
@[simp] theorem State.onFab_stacks {f : Fabric → Fabric} : (s.onFab f).stackMap = s.stackMap := rfl
@[simp] theorem State.onFab_banks {f : Fabric → Fabric} : (s.onFab f).banks = s.banks := rfl
@[simp] theorem State.onFab_baus {f : Fabric → Fabric} : (s.onFab f).baus = s.baus := rfl
@[simp] theorem State.onFab_seqs {f : Fabric → Fabric} : (s.onFab f).seqs = s.seqs := rfl
@[simp] theorem State.onFab_seqNext {f : Fabric → Fabric} : (s.onFab f).seqNext = s.seqNext := rfl
@[simp] theorem State.onFab_slots {f : Fabric → Fabric} : (s.onFab f).slots = s.slots := rfl
@[simp] theorem State.onFab_ports {f : Fabric → Fabric} : (s.onFab f).ports = s.ports := rfl
@[simp] theorem State.onFab_cores {f : Fabric → Fabric} : (s.onFab f).cores = s.cores := rfl
@[simp] theorem State.onFab_notices {f : Fabric → Fabric} : (s.onFab f).notices = s.notices := rfl
@[simp] theorem State.onFab_kept {f : Fabric → Fabric} : (s.onFab f).kept = s.kept := rfl
@[simp] theorem State.onFab_kv {f : Fabric → Fabric} : (s.onFab f).kv = s.kv := rfl
@[simp] theorem State.onFab_ldr {f : Fabric → Fabric} : (s.onFab f).ldr = s.ldr := rfl
@[simp] theorem State.onFab_fab {f : Fabric → Fabric} : (s.onFab f).fab = f s.fab := rfl

/-! ### onKv -/

@[simp] theorem State.onKv_pending {f : Kv → Kv} : (s.onKv f).pending = s.pending := rfl
@[simp] theorem State.onKv_free {f : Kv → Kv} : (s.onKv f).free = s.free := rfl
@[simp] theorem State.onKv_sent {f : Kv → Kv} : (s.onKv f).sent = s.sent := rfl
@[simp] theorem State.onKv_dieTime {f : Kv → Kv} : (s.onKv f).dieTime = s.dieTime := rfl
@[simp] theorem State.onKv_power {f : Kv → Kv} : (s.onKv f).power = s.power := rfl
@[simp] theorem State.onKv_fuses {f : Kv → Kv} : (s.onKv f).fuses = s.fuses := rfl
@[simp] theorem State.onKv_flash {f : Kv → Kv} : (s.onKv f).flash = s.flash := rfl
@[simp] theorem State.onKv_boot {f : Kv → Kv} : (s.onKv f).boot = s.boot := rfl
@[simp] theorem State.onKv_mgmt {f : Kv → Kv} : (s.onKv f).mgmt = s.mgmt := rfl
@[simp] theorem State.onKv_fcu {f : Kv → Kv} : (s.onKv f).fcu = s.fcu := rfl
@[simp] theorem State.onKv_cfg {f : Kv → Kv} : (s.onKv f).cfg = s.cfg := rfl
@[simp] theorem State.onKv_regs {f : Kv → Kv} : (s.onKv f).regs = s.regs := rfl
@[simp] theorem State.onKv_mem {f : Kv → Kv} : (s.onKv f).mem = s.mem := rfl
@[simp] theorem State.onKv_stacks {f : Kv → Kv} : (s.onKv f).stackMap = s.stackMap := rfl
@[simp] theorem State.onKv_banks {f : Kv → Kv} : (s.onKv f).banks = s.banks := rfl
@[simp] theorem State.onKv_baus {f : Kv → Kv} : (s.onKv f).baus = s.baus := rfl
@[simp] theorem State.onKv_seqs {f : Kv → Kv} : (s.onKv f).seqs = s.seqs := rfl
@[simp] theorem State.onKv_seqNext {f : Kv → Kv} : (s.onKv f).seqNext = s.seqNext := rfl
@[simp] theorem State.onKv_slots {f : Kv → Kv} : (s.onKv f).slots = s.slots := rfl
@[simp] theorem State.onKv_ports {f : Kv → Kv} : (s.onKv f).ports = s.ports := rfl
@[simp] theorem State.onKv_cores {f : Kv → Kv} : (s.onKv f).cores = s.cores := rfl
@[simp] theorem State.onKv_notices {f : Kv → Kv} : (s.onKv f).notices = s.notices := rfl
@[simp] theorem State.onKv_kept {f : Kv → Kv} : (s.onKv f).kept = s.kept := rfl
@[simp] theorem State.onKv_kv {f : Kv → Kv} : (s.onKv f).kv = f s.kv := rfl
@[simp] theorem State.onKv_ldr {f : Kv → Kv} : (s.onKv f).ldr = s.ldr := rfl
@[simp] theorem State.onKv_fab {f : Kv → Kv} : (s.onKv f).fab = s.fab := rfl

/-! ### onCore -/

@[simp] theorem State.onCore_pending {d c : Nat} {f : Core → Core} : (s.onCore d c f).pending = s.pending := rfl
@[simp] theorem State.onCore_free {d c : Nat} {f : Core → Core} : (s.onCore d c f).free = s.free := rfl
@[simp] theorem State.onCore_sent {d c : Nat} {f : Core → Core} : (s.onCore d c f).sent = s.sent := rfl
@[simp] theorem State.onCore_dieTime {d c : Nat} {f : Core → Core} : (s.onCore d c f).dieTime = s.dieTime := rfl
@[simp] theorem State.onCore_power {d c : Nat} {f : Core → Core} : (s.onCore d c f).power = s.power := rfl
@[simp] theorem State.onCore_fuses {d c : Nat} {f : Core → Core} : (s.onCore d c f).fuses = s.fuses := rfl
@[simp] theorem State.onCore_flash {d c : Nat} {f : Core → Core} : (s.onCore d c f).flash = s.flash := rfl
@[simp] theorem State.onCore_boot {d c : Nat} {f : Core → Core} : (s.onCore d c f).boot = s.boot := rfl
@[simp] theorem State.onCore_mgmt {d c : Nat} {f : Core → Core} : (s.onCore d c f).mgmt = s.mgmt := rfl
@[simp] theorem State.onCore_fcu {d c : Nat} {f : Core → Core} : (s.onCore d c f).fcu = s.fcu := rfl
@[simp] theorem State.onCore_cfg {d c : Nat} {f : Core → Core} : (s.onCore d c f).cfg = s.cfg := rfl
@[simp] theorem State.onCore_regs {d c : Nat} {f : Core → Core} : (s.onCore d c f).regs = s.regs := rfl
@[simp] theorem State.onCore_mem {d c : Nat} {f : Core → Core} : (s.onCore d c f).mem = s.mem := rfl
@[simp] theorem State.onCore_stacks {d c : Nat} {f : Core → Core} : (s.onCore d c f).stackMap = s.stackMap := rfl
@[simp] theorem State.onCore_banks {d c : Nat} {f : Core → Core} : (s.onCore d c f).banks = s.banks := rfl
@[simp] theorem State.onCore_baus {d c : Nat} {f : Core → Core} : (s.onCore d c f).baus = s.baus := rfl
@[simp] theorem State.onCore_seqs {d c : Nat} {f : Core → Core} : (s.onCore d c f).seqs = s.seqs := rfl
@[simp] theorem State.onCore_seqNext {d c : Nat} {f : Core → Core} : (s.onCore d c f).seqNext = s.seqNext := rfl
@[simp] theorem State.onCore_slots {d c : Nat} {f : Core → Core} : (s.onCore d c f).slots = s.slots := rfl
@[simp] theorem State.onCore_ports {d c : Nat} {f : Core → Core} : (s.onCore d c f).ports = s.ports := rfl
@[simp] theorem State.onCore_cores {d c : Nat} {f : Core → Core} : (s.onCore d c f).cores = mput s.cores (d * 64 + c) (f (s.core d c)) := rfl
@[simp] theorem State.onCore_notices {d c : Nat} {f : Core → Core} : (s.onCore d c f).notices = s.notices := rfl
@[simp] theorem State.onCore_kept {d c : Nat} {f : Core → Core} : (s.onCore d c f).kept = s.kept := rfl
@[simp] theorem State.onCore_kv {d c : Nat} {f : Core → Core} : (s.onCore d c f).kv = s.kv := rfl
@[simp] theorem State.onCore_ldr {d c : Nat} {f : Core → Core} : (s.onCore d c f).ldr = s.ldr := rfl
@[simp] theorem State.onCore_fab {d c : Nat} {f : Core → Core} : (s.onCore d c f).fab = s.fab := rfl

/-! ### setBank -/

@[simp] theorem State.setBank_pending {b : BankId} {x : Bank} : (s.setBank b x).pending = s.pending := rfl
@[simp] theorem State.setBank_free {b : BankId} {x : Bank} : (s.setBank b x).free = s.free := rfl
@[simp] theorem State.setBank_sent {b : BankId} {x : Bank} : (s.setBank b x).sent = s.sent := rfl
@[simp] theorem State.setBank_dieTime {b : BankId} {x : Bank} : (s.setBank b x).dieTime = s.dieTime := rfl
@[simp] theorem State.setBank_power {b : BankId} {x : Bank} : (s.setBank b x).power = s.power := rfl
@[simp] theorem State.setBank_fuses {b : BankId} {x : Bank} : (s.setBank b x).fuses = s.fuses := rfl
@[simp] theorem State.setBank_flash {b : BankId} {x : Bank} : (s.setBank b x).flash = s.flash := rfl
@[simp] theorem State.setBank_boot {b : BankId} {x : Bank} : (s.setBank b x).boot = s.boot := rfl
@[simp] theorem State.setBank_mgmt {b : BankId} {x : Bank} : (s.setBank b x).mgmt = s.mgmt := rfl
@[simp] theorem State.setBank_fcu {b : BankId} {x : Bank} : (s.setBank b x).fcu = s.fcu := rfl
@[simp] theorem State.setBank_cfg {b : BankId} {x : Bank} : (s.setBank b x).cfg = s.cfg := rfl
@[simp] theorem State.setBank_regs {b : BankId} {x : Bank} : (s.setBank b x).regs = s.regs := rfl
@[simp] theorem State.setBank_mem {b : BankId} {x : Bank} : (s.setBank b x).mem = s.mem := rfl
@[simp] theorem State.setBank_stacks {b : BankId} {x : Bank} : (s.setBank b x).stackMap = s.stackMap := rfl
@[simp] theorem State.setBank_banks {b : BankId} {x : Bank} : (s.setBank b x).banks = mput s.banks (bankKey b) x := rfl
@[simp] theorem State.setBank_baus {b : BankId} {x : Bank} : (s.setBank b x).baus = s.baus := rfl
@[simp] theorem State.setBank_seqs {b : BankId} {x : Bank} : (s.setBank b x).seqs = s.seqs := rfl
@[simp] theorem State.setBank_seqNext {b : BankId} {x : Bank} : (s.setBank b x).seqNext = s.seqNext := rfl
@[simp] theorem State.setBank_slots {b : BankId} {x : Bank} : (s.setBank b x).slots = s.slots := rfl
@[simp] theorem State.setBank_ports {b : BankId} {x : Bank} : (s.setBank b x).ports = s.ports := rfl
@[simp] theorem State.setBank_cores {b : BankId} {x : Bank} : (s.setBank b x).cores = s.cores := rfl
@[simp] theorem State.setBank_notices {b : BankId} {x : Bank} : (s.setBank b x).notices = s.notices := rfl
@[simp] theorem State.setBank_kept {b : BankId} {x : Bank} : (s.setBank b x).kept = s.kept := rfl
@[simp] theorem State.setBank_kv {b : BankId} {x : Bank} : (s.setBank b x).kv = s.kv := rfl
@[simp] theorem State.setBank_ldr {b : BankId} {x : Bank} : (s.setBank b x).ldr = s.ldr := rfl
@[simp] theorem State.setBank_fab {b : BankId} {x : Bank} : (s.setBank b x).fab = s.fab := rfl

/-! ### onSeq -/

@[simp] theorem State.onSeq_pending {n : Nat} {f : SeqJob → SeqJob} : (s.onSeq n f).pending = s.pending := rfl
@[simp] theorem State.onSeq_free {n : Nat} {f : SeqJob → SeqJob} : (s.onSeq n f).free = s.free := rfl
@[simp] theorem State.onSeq_sent {n : Nat} {f : SeqJob → SeqJob} : (s.onSeq n f).sent = s.sent := rfl
@[simp] theorem State.onSeq_dieTime {n : Nat} {f : SeqJob → SeqJob} : (s.onSeq n f).dieTime = s.dieTime := rfl
@[simp] theorem State.onSeq_power {n : Nat} {f : SeqJob → SeqJob} : (s.onSeq n f).power = s.power := rfl
@[simp] theorem State.onSeq_fuses {n : Nat} {f : SeqJob → SeqJob} : (s.onSeq n f).fuses = s.fuses := rfl
@[simp] theorem State.onSeq_flash {n : Nat} {f : SeqJob → SeqJob} : (s.onSeq n f).flash = s.flash := rfl
@[simp] theorem State.onSeq_boot {n : Nat} {f : SeqJob → SeqJob} : (s.onSeq n f).boot = s.boot := rfl
@[simp] theorem State.onSeq_mgmt {n : Nat} {f : SeqJob → SeqJob} : (s.onSeq n f).mgmt = s.mgmt := rfl
@[simp] theorem State.onSeq_fcu {n : Nat} {f : SeqJob → SeqJob} : (s.onSeq n f).fcu = s.fcu := rfl
@[simp] theorem State.onSeq_cfg {n : Nat} {f : SeqJob → SeqJob} : (s.onSeq n f).cfg = s.cfg := rfl
@[simp] theorem State.onSeq_regs {n : Nat} {f : SeqJob → SeqJob} : (s.onSeq n f).regs = s.regs := rfl
@[simp] theorem State.onSeq_mem {n : Nat} {f : SeqJob → SeqJob} : (s.onSeq n f).mem = s.mem := rfl
@[simp] theorem State.onSeq_stacks {n : Nat} {f : SeqJob → SeqJob} : (s.onSeq n f).stackMap = s.stackMap := rfl
@[simp] theorem State.onSeq_banks {n : Nat} {f : SeqJob → SeqJob} : (s.onSeq n f).banks = s.banks := rfl
@[simp] theorem State.onSeq_baus {n : Nat} {f : SeqJob → SeqJob} : (s.onSeq n f).baus = s.baus := rfl
@[simp] theorem State.onSeq_seqNext {n : Nat} {f : SeqJob → SeqJob} : (s.onSeq n f).seqNext = s.seqNext := rfl
@[simp] theorem State.onSeq_slots {n : Nat} {f : SeqJob → SeqJob} : (s.onSeq n f).slots = s.slots := rfl
@[simp] theorem State.onSeq_ports {n : Nat} {f : SeqJob → SeqJob} : (s.onSeq n f).ports = s.ports := rfl
@[simp] theorem State.onSeq_cores {n : Nat} {f : SeqJob → SeqJob} : (s.onSeq n f).cores = s.cores := rfl
@[simp] theorem State.onSeq_notices {n : Nat} {f : SeqJob → SeqJob} : (s.onSeq n f).notices = s.notices := rfl
@[simp] theorem State.onSeq_kept {n : Nat} {f : SeqJob → SeqJob} : (s.onSeq n f).kept = s.kept := rfl
@[simp] theorem State.onSeq_kv {n : Nat} {f : SeqJob → SeqJob} : (s.onSeq n f).kv = s.kv := rfl
@[simp] theorem State.onSeq_ldr {n : Nat} {f : SeqJob → SeqJob} : (s.onSeq n f).ldr = s.ldr := rfl
@[simp] theorem State.onSeq_fab {n : Nat} {f : SeqJob → SeqJob} : (s.onSeq n f).fab = s.fab := rfl

/-! ### setSlot -/

@[simp] theorem State.setSlot_pending {d n : Nat} {x : SeqSlot} : (s.setSlot d n x).pending = s.pending := rfl
@[simp] theorem State.setSlot_free {d n : Nat} {x : SeqSlot} : (s.setSlot d n x).free = s.free := rfl
@[simp] theorem State.setSlot_sent {d n : Nat} {x : SeqSlot} : (s.setSlot d n x).sent = s.sent := rfl
@[simp] theorem State.setSlot_dieTime {d n : Nat} {x : SeqSlot} : (s.setSlot d n x).dieTime = s.dieTime := rfl
@[simp] theorem State.setSlot_power {d n : Nat} {x : SeqSlot} : (s.setSlot d n x).power = s.power := rfl
@[simp] theorem State.setSlot_fuses {d n : Nat} {x : SeqSlot} : (s.setSlot d n x).fuses = s.fuses := rfl
@[simp] theorem State.setSlot_flash {d n : Nat} {x : SeqSlot} : (s.setSlot d n x).flash = s.flash := rfl
@[simp] theorem State.setSlot_boot {d n : Nat} {x : SeqSlot} : (s.setSlot d n x).boot = s.boot := rfl
@[simp] theorem State.setSlot_mgmt {d n : Nat} {x : SeqSlot} : (s.setSlot d n x).mgmt = s.mgmt := rfl
@[simp] theorem State.setSlot_fcu {d n : Nat} {x : SeqSlot} : (s.setSlot d n x).fcu = s.fcu := rfl
@[simp] theorem State.setSlot_cfg {d n : Nat} {x : SeqSlot} : (s.setSlot d n x).cfg = s.cfg := rfl
@[simp] theorem State.setSlot_regs {d n : Nat} {x : SeqSlot} : (s.setSlot d n x).regs = s.regs := rfl
@[simp] theorem State.setSlot_mem {d n : Nat} {x : SeqSlot} : (s.setSlot d n x).mem = s.mem := rfl
@[simp] theorem State.setSlot_stacks {d n : Nat} {x : SeqSlot} : (s.setSlot d n x).stackMap = s.stackMap := rfl
@[simp] theorem State.setSlot_banks {d n : Nat} {x : SeqSlot} : (s.setSlot d n x).banks = s.banks := rfl
@[simp] theorem State.setSlot_baus {d n : Nat} {x : SeqSlot} : (s.setSlot d n x).baus = s.baus := rfl
@[simp] theorem State.setSlot_seqs {d n : Nat} {x : SeqSlot} : (s.setSlot d n x).seqs = s.seqs := rfl
@[simp] theorem State.setSlot_seqNext {d n : Nat} {x : SeqSlot} : (s.setSlot d n x).seqNext = s.seqNext := rfl
@[simp] theorem State.setSlot_slots {d n : Nat} {x : SeqSlot} : (s.setSlot d n x).slots = mput s.slots (d * 4096 + n) x := rfl
@[simp] theorem State.setSlot_ports {d n : Nat} {x : SeqSlot} : (s.setSlot d n x).ports = s.ports := rfl
@[simp] theorem State.setSlot_cores {d n : Nat} {x : SeqSlot} : (s.setSlot d n x).cores = s.cores := rfl
@[simp] theorem State.setSlot_notices {d n : Nat} {x : SeqSlot} : (s.setSlot d n x).notices = s.notices := rfl
@[simp] theorem State.setSlot_kept {d n : Nat} {x : SeqSlot} : (s.setSlot d n x).kept = s.kept := rfl
@[simp] theorem State.setSlot_kv {d n : Nat} {x : SeqSlot} : (s.setSlot d n x).kv = s.kv := rfl
@[simp] theorem State.setSlot_ldr {d n : Nat} {x : SeqSlot} : (s.setSlot d n x).ldr = s.ldr := rfl
@[simp] theorem State.setSlot_fab {d n : Nat} {x : SeqSlot} : (s.setSlot d n x).fab = s.fab := rfl

/-! ### onTask -/

@[simp] theorem State.onTask_pending {n : Nat} {f : Task → Task} : (s.onTask n f).pending = s.pending := rfl
@[simp] theorem State.onTask_free {n : Nat} {f : Task → Task} : (s.onTask n f).free = s.free := rfl
@[simp] theorem State.onTask_sent {n : Nat} {f : Task → Task} : (s.onTask n f).sent = s.sent := rfl
@[simp] theorem State.onTask_dieTime {n : Nat} {f : Task → Task} : (s.onTask n f).dieTime = s.dieTime := rfl
@[simp] theorem State.onTask_power {n : Nat} {f : Task → Task} : (s.onTask n f).power = s.power := rfl
@[simp] theorem State.onTask_fuses {n : Nat} {f : Task → Task} : (s.onTask n f).fuses = s.fuses := rfl
@[simp] theorem State.onTask_flash {n : Nat} {f : Task → Task} : (s.onTask n f).flash = s.flash := rfl
@[simp] theorem State.onTask_boot {n : Nat} {f : Task → Task} : (s.onTask n f).boot = s.boot := rfl
@[simp] theorem State.onTask_mgmt {n : Nat} {f : Task → Task} : (s.onTask n f).mgmt = s.mgmt := rfl
@[simp] theorem State.onTask_fcu {n : Nat} {f : Task → Task} : (s.onTask n f).fcu = s.fcu := rfl
@[simp] theorem State.onTask_cfg {n : Nat} {f : Task → Task} : (s.onTask n f).cfg = s.cfg := rfl
@[simp] theorem State.onTask_regs {n : Nat} {f : Task → Task} : (s.onTask n f).regs = s.regs := rfl
@[simp] theorem State.onTask_mem {n : Nat} {f : Task → Task} : (s.onTask n f).mem = s.mem := rfl
@[simp] theorem State.onTask_stacks {n : Nat} {f : Task → Task} : (s.onTask n f).stackMap = s.stackMap := rfl
@[simp] theorem State.onTask_banks {n : Nat} {f : Task → Task} : (s.onTask n f).banks = s.banks := rfl
@[simp] theorem State.onTask_baus {n : Nat} {f : Task → Task} : (s.onTask n f).baus = s.baus := rfl
@[simp] theorem State.onTask_seqs {n : Nat} {f : Task → Task} : (s.onTask n f).seqs = s.seqs := rfl
@[simp] theorem State.onTask_seqNext {n : Nat} {f : Task → Task} : (s.onTask n f).seqNext = s.seqNext := rfl
@[simp] theorem State.onTask_slots {n : Nat} {f : Task → Task} : (s.onTask n f).slots = s.slots := rfl
@[simp] theorem State.onTask_ports {n : Nat} {f : Task → Task} : (s.onTask n f).ports = s.ports := rfl
@[simp] theorem State.onTask_cores {n : Nat} {f : Task → Task} : (s.onTask n f).cores = s.cores := rfl
@[simp] theorem State.onTask_notices {n : Nat} {f : Task → Task} : (s.onTask n f).notices = s.notices := rfl
@[simp] theorem State.onTask_kept {n : Nat} {f : Task → Task} : (s.onTask n f).kept = s.kept := rfl
@[simp] theorem State.onTask_kv {n : Nat} {f : Task → Task} : (s.onTask n f).kv = s.kv := rfl
@[simp] theorem State.onTask_fab {n : Nat} {f : Task → Task} : (s.onTask n f).fab = s.fab := rfl

/-! ### Commands that act only where their conditions hold -/

theorem State.whenP_pos {p : Prop} [Decidable p] {f : State → State} (h : p) : s.whenP p f = f s := if_pos h

theorem State.whenP_neg {p : Prop} [Decidable p] {f : State → State} (h : ¬p) : s.whenP p f = s := if_neg h

theorem State.when_pos {c : Bool} {f : State → State} (h : c = true) : s.when c f = f s := by subst h; rfl

theorem State.when_neg {c : Bool} {f : State → State} (h : c = false) : s.when c f = s := by subst h; rfl

/-! ### Registers and their fields -/

theorem State.reg_setReg_self {d : Nat} {r : Reg} {u i : Nat} {w : Word} : (s.setReg d r u i w).reg d r u i = w := mget_mput_self

theorem State.reg_setReg_ne {d d' : Nat} {r r' : Reg} {u u' i i' : Nat} {w : Word} (h : regKey d' r' u' i' ≠ regKey d r u i) :
    (s.setReg d r u i w).reg d' r' u' i' = s.reg d' r' u' i' := mget_mput_ne h

/-- What a field replaced leaves: the bits above it, the new value's low bits, the bits below. -/
theorem setBits_div {n hi lo v : Nat} (h : lo ≤ hi) :
    setBits n hi lo v % 2 ^ lo = n % 2 ^ lo ∧ setBits n hi lo v / 2 ^ lo % 2 ^ (hi + 1 - lo) = v % 2 ^ (hi + 1 - lo) ∧
      setBits n hi lo v / 2 ^ (hi + 1) = n / 2 ^ (hi + 1) := by
  obtain ⟨k, rfl⟩ : ∃ k, hi = lo + k := ⟨hi - lo, by omega⟩
  have e1 : lo + k + 1 - lo = k + 1 := by omega
  have e2 : lo + k + 1 = lo + (k + 1) := by omega
  have hl : n % 2 ^ lo < 2 ^ lo := Nat.mod_lt _ (Nat.two_pow_pos _)
  have hv : v % 2 ^ (k + 1) < 2 ^ (k + 1) := Nat.mod_lt _ (Nat.two_pow_pos _)
  have p : setBits n (lo + k) lo v = n % 2 ^ lo + 2 ^ lo * (v % 2 ^ (k + 1) + 2 ^ (k + 1) * (n / 2 ^ (lo + k + 1))) := by
    simp only [setBits, Nat.shiftLeft_eq, Nat.shiftRight_eq_div_pow, e1]
    rw [Nat.mul_add, ← Nat.mul_assoc, ← Nat.pow_add, ← e2, Nat.mul_comm (2 ^ lo) (v % _), Nat.mul_comm (2 ^ (lo + k + 1))]
    omega
  rw [p, e1]
  refine ⟨?_, ?_, ?_⟩
  · rw [Nat.add_mul_mod_self_left, Nat.mod_mod]
  · rw [Nat.add_mul_div_left _ _ (Nat.two_pow_pos _), Nat.div_eq_of_lt hl, Nat.zero_add, Nat.add_mul_mod_self_left, Nat.mod_mod]
  · have d : ∀ x, x / 2 ^ (lo + (k + 1)) = x / 2 ^ lo / 2 ^ (k + 1) := fun x => by rw [Nat.pow_add, Nat.div_div_eq_div_mul]
    rw [e2, d (_ + _), Nat.add_mul_div_left _ _ (Nat.two_pow_pos _), Nat.div_eq_of_lt hl, Nat.zero_add,
      Nat.add_mul_div_left _ _ (Nat.two_pow_pos _), Nat.div_eq_of_lt hv, Nat.zero_add]

theorem bits_eq {n hi lo : Nat} : bits n hi lo = n / 2 ^ lo % 2 ^ (hi + 1 - lo) := by simp [bits, Nat.shiftRight_eq_div_pow]

/-- A field written reads as the low bits of what was written. -/
theorem bits_setBits {n hi lo v : Nat} (h : lo ≤ hi) : bits (setBits n hi lo v) hi lo = v % 2 ^ (hi + 1 - lo) := by
  rw [bits_eq]; exact (setBits_div h).2.1

/-- Bits below a written field stay. -/
theorem bits_setBits_low {n hi lo v h l : Nat} (w : lo ≤ hi) (o : h < lo) (hl : l ≤ h) : bits (setBits n hi lo v) h l = bits n h l := by
  have e : lo = l + (h + 1 - l) + (lo - h - 1) := by omega
  have key : ∀ x, x / 2 ^ l % 2 ^ (h + 1 - l) = x % 2 ^ lo % 2 ^ (l + (h + 1 - l)) / 2 ^ l := by
    intro x
    rw [Nat.mod_mod_of_dvd x (Nat.pow_dvd_pow 2 (by omega)), Nat.pow_add, Nat.mod_mul_right_div_self]
  rw [bits_eq, bits_eq, key, key n, (setBits_div w).1]

/-- Bits above a written field stay. -/
theorem bits_setBits_high {n hi lo v h l : Nat} (w : lo ≤ hi) (o : hi < l) : bits (setBits n hi lo v) h l = bits n h l := by
  have e : 2 ^ l = 2 ^ (hi + 1) * 2 ^ (l - (hi + 1)) := by rw [← Nat.pow_add]; congr 1; omega
  have key : ∀ x : Nat, x / 2 ^ l = x / 2 ^ (hi + 1) / 2 ^ (l - (hi + 1)) := fun x => by rw [e, Nat.div_div_eq_div_mul]
  rw [bits_eq, bits_eq, key, key n, (setBits_div w).2.2]

theorem setBits_lt {n hi lo v : Nat} (w : lo ≤ hi) (h : hi < 32) (hn : n < 2 ^ 32) : setBits n hi lo v < 2 ^ 32 := by
  have a := (setBits_div (n := n) (v := v) w).2.2
  have e : 2 ^ 32 = 2 ^ (32 - (hi + 1)) * 2 ^ (hi + 1) := by rw [← Nat.pow_add]; congr 1; omega
  rw [e, ← Nat.div_lt_iff_lt_mul (Nat.two_pow_pos _), a, Nat.div_lt_iff_lt_mul (Nat.two_pow_pos _), ← e]
  exact hn

theorem State.reg_setFld_toNat {d u i : Nat} {f : RF} {v : Nat} (w : f.lo ≤ f.hi) (h : f.hi < 32) :
    ((s.setFld d u i f v).reg d f.reg u i).toNat = setBits (s.reg d f.reg u i).toNat f.hi f.lo v := by
  rw [State.setFld, State.reg_setReg_self, BitVec.toNat_ofNat, Nat.mod_eq_of_lt (setBits_lt w h (s.reg d f.reg u i).isLt)]

/-- A field written reads as the low bits of what was written. -/
theorem State.fld_setFld_self {d u i : Nat} {f : RF} {v : Nat} (w : f.lo ≤ f.hi) (h : f.hi < 32) :
    (s.setFld d u i f v).fld d u i f = v % 2 ^ (f.hi + 1 - f.lo) := by
  rw [State.fld, State.reg_setFld_toNat w h, bits_setBits w]

/-- Another field of the same register stays. -/
theorem State.fld_setFld_other {d u i : Nat} {f g : RF} {v : Nat} (w : f.lo ≤ f.hi) (h : f.hi < 32) (r : g.reg = f.reg)
    (o : g.hi < f.lo ∧ g.lo ≤ g.hi ∨ f.hi < g.lo) : (s.setFld d u i f v).fld d u i g = s.fld d u i g := by
  rw [State.fld, r, State.reg_setFld_toNat w h]
  rcases o with ⟨o, l⟩ | o
  · rw [bits_setBits_low w o l, State.fld, r]
  · rw [bits_setBits_high w o, State.fld, r]

/-- Every other register stays. -/
theorem State.fld_setFld_ne {d u i d' u' i' : Nat} {f g : RF} {v : Nat} (h : regKey d' g.reg u' i' ≠ regKey d f.reg u i) :
    (s.setFld d u i f v).fld d' u' i' g = s.fld d' u' i' g := by
  rw [State.fld, State.setFld, State.reg_setReg_ne h, State.fld]

end Sys2Proof.Machine
end

