-- ==== Sys2Proof/WellFormed.lean ====
section
/-! DEFINITION. Which operands a command can have: units that the module has, and blocks, flits and frames of the sizes and types that
their commands name. -/

set_option Elab.async false

namespace Sys2Proof

/-- Eight dies of 64 core positions in four clusters (R2, R3). -/
def dieOk (d : Nat) : Bool := decide (d < 8)
def coreOk (c : Nat) : Bool := decide (c < 64)
def clusterOk (k : Nat) : Bool := decide (k < 4)

/-- The fields of an Xkeavo instruction in the I-type layout (R239): rd, rs1, imm, and the value of rs1. -/
def iTypeOk (rd rs1 imm v : Nat) : Bool := decide (rd < 32 ∧ rs1 < 32 ∧ imm < 2 ^ 12 ∧ v < 2 ^ 32)

/-- A core's 32 queues (R166). -/
def queueOk (q : Nat) : Bool := decide (q < 32)

/-- 32 stacks of 16 data dies and a parity die, with 64 channels (R64). -/
def stackOk (stk : Nat) : Bool := decide (stk < 32)
def stackDieOk (die : Nat) : Bool := decide (die < 17)
def channelOk (ch : Nat) : Bool := decide (ch < 64)

/-- Ten die-to-die links (R25). -/
def linkOk (n : Nat) : Bool := decide (n < 10)

/-- A bank of a stack (R64). -/
def BankId.ok (b : BankId) : Bool := stackOk b.stk && (decide (b.die < 16 ∧ b.bank < 64) || decide (b.die = 16 ∧ b.bank < 68))

/-- Sixteen optical engines of 36 physical lanes and four wavelengths (R28, R358). -/
def engineOk (e : Nat) : Bool := decide (e < 16)
def laneOk (n : Nat) : Bool := decide (n < 36)
def wavelengthOk (w : Nat) : Bool := decide (w < 4)

/-- 48 fabric ports, 8 host ports, and their lane groups (R28). -/
def fabricPortOk (p : Nat) : Bool := decide (p < 48)
def hostPortOk (p : Nat) : Bool := decide (p < 8)
def groupOk (p : Nat) : Bool := decide (p < 56)

/-- A responder path: a host port's DOE, or I3C as 8 (R449, R451). -/
def pathOk (p : Nat) : Bool := decide (p < 9)

/-- A slot of a mailbox block, of a collective engine, or of the loader (R290, R335, R423). -/
def slotOk (d k n : Nat) : Bool :=
  decide (d < 8 ∧ k < 4 ∧ n < 256) || decide (d < 8 ∧ k = 4 ∧ n < 64) || decide (d = 8 ∧ k = 0 ∧ n < 16)
def collSlotOk (n : Nat) : Bool := decide (n < 64)
def windowSlotOk (n : Nat) : Bool := decide (n < 4096)

/-- A receiver of a cluster: a core's control core, or 16 for the attention sequencer (R294). -/
def receiverOk (r : Nat) : Bool := decide (r ≤ 16)

/-- An agent of the module, a host or a peer. -/
def Agent.ok : Agent → Bool
  | .engine d c u => dieOk d && coreOk c && decide (u < 6)
  | .cc d c => dieOk d && coreOk c
  | .aseq d k => dieOk d && clusterOk k
  | .kvm d => dieOk d
  | .loader => true
  | .coll d => dieOk d
  | .mgmt => true
  | .fcu d => dieOk d
  | .host p rid => hostPortOk p && decide (rid < 65536)
  | .peer src d tag => decide (src < 2 ^ 25) && dieOk d && decide (tag < 65536)

/-- The 32 bytes of a control block of a TYPE (R365). -/
def blockOk (ty : Nat) (b : List Byte) : Bool := decide (b.length = 32) && b.head? == some (BitVec.ofNat 8 ty)

/-- The bytes of a flit (R367). -/
def flitOk (b : List Byte) : Bool := decide (b.length = 256)

/-- A frame of a type: a 32-byte header and 64 to 2,048 bytes of payload in multiples of 64 (R408). -/
def frameOk (ty : Nat) (f : List Byte) : Bool :=
  decide (96 ≤ f.length ∧ f.length ≤ 2080 ∧ f.length % 64 = 32) && f.head? == some (BitVec.ofNat 8 ty)

/-- Whether a command's operands name units that exist and carry what the command is (DESIGN CHOICE log 25). -/
def Instr.wf : Instr → Bool
  | .auxPowerUp => true
  | .auxPowerLoss => true
  | .nresetLow _ => true
  | .nresetRise _ => true
  | .bootFirmwareVerify _ => true
  | .railsUp _ _ => true
  | .warmupStalled => true
  | .configLoad _ => true
  | .laserStart => true
  | .laserLock => true
  | .stackInit stk _ => stackOk stk
  | .enterReady => true
  | .inputSample _ _ => true
  | .powerCapRaise => true
  | .diePowerSample d _ _ => dieOk d
  | .dieCapRaise d => dieOk d
  | .phaseFail => true
  | .throttleLoopDemand d => dieOk d
  | .sensorConversionDone d _ _ => dieOk d
  | .ptmTsenseReqWrite d _ => dieOk d
  | .enterDormant => true
  | .pldmSetStateEffecter _ => true
  | .dormantEntryComplete => true
  | .wake => true
  | .wakeComplete => true
  | .faultRecord d _ _ _ _ => dieOk d
  | .safeStateEntry => true
  | .fcuLockstep d => dieOk d
  | .fcuSelf d => dieOk d
  | .timebaseCheck d _ => dieOk d
  | .automaticReset => true
  | .faultLogFlush => true
  | .heartbeatToggle => true
  | .faultPulseEnd => true
  | .fcuPinHoldWrite _ => true
  | .coreLogicTestDone d c _ => dieOk d && coreOk c
  | .bauSelftestDone stk _ => stackOk stk
  | .nocParity d _ _ => dieOk d
  | .linkRetrainDone d _ _ => dieOk d
  | .ddlLinkDown dl => linkOk dl
  | .memoryRead ag _ _ _ => ag.ok
  | .memoryWrite ag _ _ _ => ag.ok
  | .directoryRecall d => dieOk d
  | .hostCacheResponse port _ _ => hostPortOk port
  | .openDone b => b.ok
  | .columnDone b _ => b.ok
  | .closeDone b => b.ok
  | .refreshDone b => b.ok
  | .resultReady b => b.ok
  | .evError b _ => b.ok
  | .selfRefreshEntered stk => stackOk stk
  | .selfRefreshExitDone stk => stackOk stk
  | .channelHandshakeTimeout stk ch => stackOk stk && channelOk ch
  | .tsvRepair stk ch _ => stackOk stk && channelOk ch
  | .requestAgeLimit b _ => b.ok
  | .idleTimerExpiry b => b.ok
  | .refreshDue b => b.ok
  | .stackTsenseDemand stk => stackOk stk
  | .tsenseOverdue stk => stackOk stk
  | .srEntryDelayExpiry stk => stackOk stk
  | .scrubPosition stk _ _ => stackOk stk
  | .bankRetire b => b.ok
  | .bankCopyComplete b => b.ok
  | .dieRetire stk die => stackOk stk && stackDieOk die
  | .rebuildPosition stk => stackOk stk
  | .parityDieFail stk => stackOk stk
  | .bankSequence src _ _ => src.ok
  | .actTokenGrant stk => stackOk stk
  | .seqwDescriptorWrite ag d slot _ _ => ag.ok && dieOk d && windowSlotOk slot
  | .sequenceComplete _ => true
  | .block d c _ => dieOk d && coreOk c
  | .endblock d c _ => dieOk d && coreOk c
  | .streamEnd d c _ => dieOk d && coreOk c
  | .replayBoundary d c _ => dieOk d && coreOk c
  | .patchApply d c => dieOk d && coreOk c
  | .load d c => dieOk d && coreOk c
  | .store d c => dieOk d && coreOk c
  | .xfer d c => dieOk d && coreOk c
  | .wait d c => dieOk d && coreOk c
  | .signal d c => dieOk d && coreOk c
  | .barrier d c => dieOk d && coreOk c
  | .mma d c => dieOk d && coreOk c
  | .vadd d c => dieOk d && coreOk c
  | .vsub d c => dieOk d && coreOk c
  | .vmul d c => dieOk d && coreOk c
  | .vfma d c => dieOk d && coreOk c
  | .vmax d c => dieOk d && coreOk c
  | .vmin d c => dieOk d && coreOk c
  | .vaddi d c => dieOk d && coreOk c
  | .vmuli d c => dieOk d && coreOk c
  | .vexp d c => dieOk d && coreOk c
  | .vrecip d c => dieOk d && coreOk c
  | .vrsqrt d c => dieOk d && coreOk c
  | .vact d c => dieOk d && coreOk c
  | .vcmp d c => dieOk d && coreOk c
  | .vsel d c => dieOk d && coreOk c
  | .vcopy d c => dieOk d && coreOk c
  | .vred d c => dieOk d && coreOk c
  | .vsoftmax d c => dieOk d && coreOk c
  | .vcvt d c => dieOk d && coreOk c
  | .vperm d c => dieOk d && coreOk c
  | .vgather d c => dieOk d && coreOk c
  | .ocall d c => dieOk d && coreOk c
  | .ocallReturn d c _ => dieOk d && coreOk c
  | .queueBeatAccept d c q => dieOk d && coreOk c && queueOk q
  | .tokenCredit d c => dieOk d && coreOk c
  | .streamFault d c _ _ q _ => dieOk d && coreOk c && queueOk q
  | .mirageCheck d c => dieOk d && coreOk c
  | .kpop d c rs f => dieOk d && coreOk c && iTypeOk f.rd rs.num f.imm rs.val
  | .kpush d c rd rs1 v q side => dieOk d && coreOk c && iTypeOk rd rs1 0 v && decide (q < 32 ∧ side < 128)
  | .kpwr d c rs1 v n side => dieOk d && coreOk c && iTypeOk 0 rs1 0 v && decide (n < 64 ∧ side < 64)
  | .kprd d c rs1 imm v => dieOk d && coreOk c && iTypeOk 0 rs1 imm v
  | .ksumpop k f => dieOk k.d && coreOk k.c && iTypeOk f.rd 0 f.imm 0
  | .kwait d c rs imm => dieOk d && coreOk c && iTypeOk 0 rs.num imm rs.val
  | .ksignal d c f => dieOk d && coreOk c && iTypeOk 0 f.rs.num f.imm f.rs.val
  | .kbarrier d c rs imm => dieOk d && coreOk c && iTypeOk 0 rs.num imm rs.val
  | .barrierLeave d c _ _ => dieOk d && coreOk c
  | .dmaBarrierArrive d c _ => dieOk d && coreOk c
  | .syncStall d c => dieOk d && coreOk c
  | .run d c => dieOk d && coreOk c
  | .branch d c => dieOk d && coreOk c
  | .jump d c => dieOk d && coreOk c
  | .loop d c => dieOk d && coreOk c
  | .call d c => dieOk d && coreOk c
  | .setp d c => dieOk d && coreOk c
  | .done d c => dieOk d && coreOk c
  | .nop d c => dieOk d && coreOk c
  | .sample d c => dieOk d && coreOk c
  | .argmax d c => dieOk d && coreOk c
  | .rmsnormFb d c => dieOk d && coreOk c
  | .layernormFb d c => dieOk d && coreOk c
  | .seed d c => dieOk d && coreOk c
  | .postNotice d c => dieOk d && coreOk c
  | .postNoticeRetry d c _ => dieOk d && coreOk c
  | .ccAbortInterrupt d c => dieOk d && coreOk c
  | .ccNoticeDispatch d c => dieOk d && coreOk c
  | .ccDmaErrorInterrupt d c x => dieOk d && coreOk c && decide (x.status < 256)
  | .dmaCopy d c _ _ => dieOk d && coreOk c
  | .permute d c _ _ => dieOk d && coreOk c
  | .gather d c _ _ => dieOk d && coreOk c
  | .dmaFill d c _ _ => dieOk d && coreOk c
  | .bseq d c _ _ => dieOk d && coreOk c
  | .transferComplete d c _ _ => dieOk d && coreOk c
  | .noticePost ag d k slot _ _ => ag.ok && slotOk d k slot
  | .noticeRepost _ => true
  | .hostCasPost port _ _ _ _ _ => hostPortOk port
  | .noticeTake d k recv => dieOk d && clusterOk k && receiverOk recv
  | .mailboxHostRead port _ _ => hostPortOk port
  | .mailboxHostFree port _ _ => hostPortOk port
  | .dietimeLoRead d => dieOk d
  | .kvOpen d c => dieOk d && coreOk c
  | .reserve d c => dieOk d && coreOk c
  | .commit d c => dieOk d && coreOk c
  | .share d c => dieOk d && coreOk c
  | .kvFree d c => dieOk d && coreOk c
  | .kvPrefetch d c => dieOk d && coreOk c
  | .kvAllocPage d c => dieOk d && coreOk c
  | .kvFrameDesc d c => dieOk d && coreOk c
  | .kvReleaseDesc d c => dieOk d && coreOk c
  | .kvPostStep d c => dieOk d && coreOk c
  | .framePin pool _ band _ => decide (pool < 8 ∧ band < 3)
  | .frameUnpin pool _ band _ => decide (pool < 8 ∧ band < 3)
  | .copyOnWrite _ _ _ _ => true
  | .labInvalidate _ _ _ _ => true
  | .spillStart d => dieOk d
  | .spillComplete d _ => dieOk d
  | .prefetchStart _ _ _ _ => true
  | .prefetchComplete d _ _ => dieOk d
  | .farTierUnreachable => true
  | .farTierProbe _ => true
  | .stepDecode d k _ => dieOk d && clusterOk k
  | .stepAttend d k _ => dieOk d && clusterOk k
  | .stepAppend d k _ => dieOk d && clusterOk k
  | .partialMerge d k _ _ => dieOk d && clusterOk k
  | .stepComplete d k _ => dieOk d && clusterOk k
  | .coreMode d k _ _ => dieOk d && clusterOk k
  | .ldrLoad _ => true
  | .ldrStart => true
  | .ldrAbort => true
  | .ldrRelease => true
  | .runEnd _ => true
  | .taskAbort _ _ d c => dieOk d && coreOk c
  | .streamBufferFetch _ _ _ => true
  | .lightDetect e lane => engineOk e && laneOk lane
  | .ts1 e lane bytes => engineOk e && laneOk lane && blockOk 3 bytes
  | .ts2 e lane bytes => engineOk e && laneOk lane && blockOk 4 bytes
  | .rateChange port => groupOk port
  | .laneTrainTimeout e lane => engineOk e && laneOk lane
  | .portTrainRestart port => groupOk port
  | .am e lane bytes => engineOk e && laneOk lane && blockOk 2 bytes
  | .idle e lane => engineOk e && laneOk lane
  | .flitReceive port bytes => fabricPortOk port && flitOk bytes
  | .replayTimeout port => fabricPortOk port
  | .laneFail e lane => engineOk e && laneOk lane
  | .swapReq e bytes => engineOk e && blockOk 5 bytes
  | .swapAck e bytes => engineOk e && blockOk 6 bytes
  | .laserFail e w => engineOk e && wavelengthOk w
  | .hold e bytes => engineOk e && blockOk 8 bytes
  | .holdExpiry e w => engineOk e && wavelengthOk w
  | .calibrationStep e => engineOk e
  | .calMove e bytes => engineOk e && blockOk 7 bytes
  | .calibrationComplete e => engineOk e
  | .wakeBlock port => fabricPortOk port
  | .eidle e lane => engineOk e && laneOk lane
  | .fillBlock e lane => engineOk e && laneOk lane
  | .hostLinkUp port _ _ _ => hostPortOk port
  | .hdmDecoderCommit port _ _ _ _ _ _ => hostPortOk port
  | .biasFlipDevice port => hostPortOk port
  | .biasFlipHost port => hostPortOk port
  | .biasPageFlipped port => hostPortOk port
  | .hotReset port => hostPortOk port
  | .flr port => hostPortOk port
  | .cxlReset port => hostPortOk port
  | .hostFlushTimeout port => hostPortOk port
  | .begin path _ _ => pathOk path
  | .data path _ _ _ => pathOk path
  | .transferEnd path _ _ _ => pathOk path
  | .transferStatus path _ => pathOk path
  | .getVersion path => pathOk path
  | .getCapabilities path => pathOk path
  | .negotiateAlgorithms path => pathOk path
  | .getDigests path => pathOk path
  | .getCertificate path _ _ _ => pathOk path
  | .challenge path _ => pathOk path
  | .getMeasurements path _ => pathOk path
  | .read port frame => fabricPortOk port && frameOk 0x01 frame
  | .write port frame => fabricPortOk port && frameOk 0x02 frame
  | .notice port frame => fabricPortOk port && frameOk 0x03 frame
  | .readRsp port frame => fabricPortOk port && frameOk 0x11 frame
  | .writeRsp port frame => fabricPortOk port && frameOk 0x12 frame
  | .noticeRsp port frame => fabricPortOk port && frameOk 0x13 frame
  | .credit port frame => fabricPortOk port && frameOk 0x31 frame
  | .down port frame => fabricPortOk port && frameOk 0x32 frame
  | .up port frame => fabricPortOk port && frameOk 0x33 frame
  | .framePromote port _ => fabricPortOk port
  | .requestTimeout _ => true
  | .allreduce d slot => dieOk d && collSlotOk slot
  | .reducescatter d slot => dieOk d && collSlotOk slot
  | .allgather d slot => dieOk d && collSlotOk slot
  | .headmerge d slot => dieOk d && collSlotOk slot
  | .coll port frame => fabricPortOk port && frameOk 0x21 frame
  | .collTimeout d _ => dieOk d
  | .mgmtGo port _ => hostPortOk port
  | .mctpManagement _ _ => true
  | .mgmtStop => true
  | .mgmtStart => true
  | .set _ => true
  | .selftest => true
  | .memorySelftestDone stk _ => stackOk stk
  | .tsense => true
  | .fwCommit _ => true
  | .svnCommit _ => true
  | .reset _ => true
  | .recoveryImage _ => true
  | .setdasa => true
  | .entdaa _ => true
  | .registerWrite ag _ _ => ag.ok
  | .busMasterEnableWrite port _ => hostPortOk port
  | .blockAlignmentFound e lane => engineOk e && laneOk lane
  | .selftestIdleWaitExpiry d c => dieOk d && coreOk c
  | .laserRelock e w => engineOk e && wavelengthOk w

end Sys2Proof
end

