-- ==== Sys2Proof/Tests/Slice0.lean ====
section
/-! SUPPORT. Tests: ill-formed commands that the checks refuse, small one-step tests with results taken from the spec, and for every
statement with hypotheses a state and operands that meet them, clause by clause. -/

namespace Sys2Proof.Tests

open Sys2Proof Sys2Proof.Machine

set_option Elab.async false

/-! ### Helpers -/

/-- The state of a next outcome. -/
def nx : Host.Outcome State Fault Refusal → State
  | .next t => t
  | _ => State.reset

theorem nx_eq {o : Host.Outcome State Fault Refusal} (h : (match o with | .next _ => true | _ => false) = true) : o = .next (nx o) := by
  cases o <;> simp_all [nx]

theorem some_get2 {α β : Type} {o : Option (α × β)} {h : o.isSome = true} : o = some ((o.get h).1, (o.get h).2) := (Option.some_get h).symm
theorem some_get3 {α β γ : Type} {o : Option (α × β × γ)} {h : o.isSome = true} : o = some ((o.get h).1, (o.get h).2.1, (o.get h).2.2) := (Option.some_get h).symm
theorem some_get {α : Type} {o : Option α} {h : o.isSome = true} : o = some (o.get h) := (Option.some_get h).symm

/-- What a computation that succeeds gives, and the pair that it gives. -/
def okOf {ε α : Type} (d : α) : Except ε α → α
  | .ok x => x
  | .error _ => d
def isOk {ε α : Type} : Except ε α → Bool
  | .ok _ => true
  | .error _ => false
def failsWith {α : Type} (p : Nat) : Except Nat α → Bool
  | .ok _ => false
  | .error q => q == p
theorem ok_of {ε α : Type} (d : α) {x : Except ε α} (h : isOk x = true) : x = .ok (okOf d x) := by
  cases x <;> simp_all [okOf, isOk]
theorem ok_of2 {ε α β : Type} (d : α × β) {x : Except ε (α × β)} (h : isOk x = true) : x = .ok ((okOf d x).1, (okOf d x).2) := ok_of d h
theorem error_of {α : Type} {p : Nat} {x : Except Nat α} (h : failsWith p x = true) : x = .error p := by
  cases x <;> simp_all [failsWith]
theorem none_ne {α : Type} {o : Option α} {x : α} (h : o.isNone = true) : o ≠ some x := by cases o <;> simp_all
theorem pair_of {α β : Type} {x : α × β} {b : β} (h : x.2 = b) : x = (x.1, b) := by rw [← h]

/-! helpers -/
def inMode (m : Mode) : State := { State.reset with power := { State.reset.power with mode := m } }
def readyS : State := { inMode .ready with power := { (inMode .ready).power with rails := true }, boot := { State.reset.boot with lastStep := 7, fwOk := true, railsUp := true, configOk := true, locked := true, lasersOn := true, lasersLocked := true } }
def bootS (b : Boot) : State := { State.reset with boot := b }
def key0 : List Byte := List.replicate 1312 1
def es1 : List Entry := [.module 0 0 0 0 0 7]
def es2 : List Entry := [.hostPort 0 3 2 0 0, .range 0 0x030000000 0x10000000]
def record0 : Record := ⟨0x4647434B, 1, 3, 1400, 0, [⟨1, 16, 16, es1⟩, ⟨2, 16, 16, es2⟩, ⟨9, 1312, 1312, [.ownerKey key0]⟩]⟩
def memS : State := { readyS with mem := { readyS.mem with cells := [(0x100000000001, 7)], poison := [] } }
def stbyS : State := { State.reset with power := { State.reset.power with mode := .standby, nresetHigh := false } }
def svnReq : MgmtReq := ⟨none, 0, [7, 6] ++ List.replicate 10 0 ++ [9, 0, 0, 0] ++ List.replicate 8 0 ++ [1] ++ List.replicate 39 0, some [1]⟩
def svnS : State := { readyS with pending := [.svnCommit true, .reset true], boot := { readyS.boot with imageHeader := List.replicate 8 0 ++ [9] }, mgmt := { readyS.mgmt with queue := [svnReq] }, cfg := some record0 }
def sensedS : State := { readyS with power := { readyS.power with sensors := [(7 * 256 + 3, ⟨1840, false, 0⟩)] } }
def cleared : Stack := { freshStack with cleared := true, calibrated := true }
def allStacks : NMap Stack := (List.range 32).map fun k => (k, cleared)
def fullS : State := { readyS with stackMap := allStacks, cfg := some record0, ports := [(0, { freshPort with proto := 5, memActive := true })], mem := { readyS.mem with cells := [(0x100000000001, 7), (0x120000000000, 9)] }, dieTime := (List.range 8).map fun d => (d, 200000000) }
def testS (k u : Nat) (m : Bool) : State := { fullS with mgmt := { fullS.mgmt with tests := [⟨⟨k, u⟩, m, false, true⟩] } }
def safeS : State := { fullS with power := { fullS.power with mode := .safe, pulse := true }, fcu := { fullS.fcu with safeSince := some 0 } }
def bk : BankId := ⟨31, 15, 63⟩
def req (row cols : Nat) (u : Bool) : BankReq := ⟨row, 0, cols, false, 1, 5, u, none⟩
def bankS (b : Bank) : State := { fullS with banks := [(bankKey bk, b)] }
def smaxDesc : List Byte := leBytes 2 0x1234 ++ [0, 0, 0, 0, 0, 0] ++ leBytes 4 (31 * 2^27 + 15 * 2^23 + 63 * 2^17 + 5) ++ leBytes 2 0x8000 ++ leBytes 2 0x8000 ++ leBytes 2 0x8000 ++ leBytes 2 0x8000 ++ List.replicate 28 0 ++ leBytes 8 (4 * 2^59) ++ List.replicate 8 0
def jobS (token ran : Bool) : SeqJob := ⟨3, .loader, smaxDesc, [], some (7, 4095), none, 5, false, token, 0, ran, 0, 0, 0, [], 0, false⟩
def holdS : State := { fullS with seqs := [jobS true false], seqNext := 4 }
def seqwS : State := (((fullS.setFld 7 0 7 SEQW_RANGE.EN 1).setFld 7 0 7 SEQW_RANGE.LAST 4095).setFld 7 0 7 SEQW_RANGE.FIRST 4000).setFld 7 0 7 SEQW_RANGE.OWNER 7
def stackS (st : Stack) : State := { fullS with stackMap := mput allStacks 31 st }
def wd (op x : Nat) : IWord := BitVec.ofNat 128 (op * 2 ^ 120 + x)
def ps64 (v : Nat) : List Nat := List.replicate 64 v
def core0 : Core := { freshCore with params := ps64 5, strides := ps64 3, windows := [(spmBase 7 63, spmSize)], task := some 7, bounds := [(15, 2), (3, 9)], slots := [(1, ⟨1, ps64 7, [], [], [], []⟩), (2, ⟨2, ps64 (spmBase 7 63 + 64), [], [], [], []⟩)] }
def coreS (k : Core) : State := { fullS with cores := [(7 * 64 + 63, k)] }
def strm (pc : Nat) (cl : Bool) : Stream := ⟨true, pc, true, 1, 4, 2, cl, 1⟩
def outS (pc bl : Nat) : Stream := ⟨true, pc, false, 0, 0, 0, false, bl⟩
def aS (op x : Nat) : Core := { core0 with sa := strm 4095 false, sx := strm 4095 true, amem := [(4095, wd op x)] }
def xS (op x : Nat) : Core := { core0 with sx := strm 4095 false, sa := strm 4095 true, xmem := [(4095, wd op x)] }
def rS (k : Core) : State := coreS { k with cc := { k.cc with call := some ⟨0, 4, 5, 2, none, 0, false, 0, false, none, none⟩ } }
def rC : Call := ⟨0, 4, 5, 2, none, 0, false, 0, false, none, none⟩
def ent (op a b c d : Nat) : NMap Byte := writeCells [] (0x100 + 16 * 3) (leBytes 1 op ++ leBytes 1 a ++ leBytes 2 b ++ leBytes 4 c ++ leBytes 8 d)
def lS (op a b c d : Nat) (k : Core) : State := coreS { k with cc := { freshCtl with dmem := ent op a b c d, mode := 1, listAt := 0x100, entry := 3, fifo := [7, 9] } }
def es5 : List Entry := [.pool 16 1 [bk, ⟨30, 0, 0⟩], .kvRegion 0x100000100000 0x100000]
def es3 : List Entry := [.farTier (.host 3) 0x8000000000 0x8000 16 [1, 1, 1, 1, 1, 1, 1, 9]]
def es7 : List Entry := [.partitionMask 1]
def record1 : Record := ⟨0x4647434B, 1, 3, 1400, 0, [⟨1, 16, 16, es1⟩, ⟨2, 16, 16, es2⟩, ⟨3, 16, 16, es3⟩, ⟨5, 16, 16, es5⟩, ⟨7, 16, 16, es7⟩, ⟨9, 1312, 1312, [.ownerKey key0]⟩]⟩
def modelBytes : List Byte := leBytes 1 4 ++ leBytes 1 1 ++ leBytes 1 1 ++ leBytes 1 1 ++ leBytes 2 1 ++ leBytes 2 2 ++ leBytes 4 0x3F800000 ++ leBytes 4 0 ++ leBytes 4 0 ++ leBytes 2 5 ++ leBytes 2 4 ++ leBytes 8 0x100000002000 ++ leBytes 8 0x100000004000 ++ leBytes 1 0 ++ leBytes 1 1
def rowBytes (length state flags pmax pt window home start res : Nat) : List Byte := leBytes 4 length ++ leBytes 1 state ++ leBytes 1 flags ++ leBytes 2 pmax ++ leBytes 8 pt ++ leBytes 4 window ++ leBytes 1 home ++ leBytes 1 start ++ leBytes 2 0 ++ leBytes 4 res
def fdBytes (state flags plane refs pins seq index lastuse : Nat) : List Byte := leBytes 1 state ++ leBytes 1 flags ++ leBytes 2 plane ++ leBytes 4 refs ++ leBytes 4 pins ++ leBytes 2 seq ++ leBytes 2 index ++ leBytes 8 0 ++ leBytes 4 lastuse
def task0 : Task := { id := 7, state := .running, owner := 0x80000003, image := [], bases := [], moved := [], buffer := none, halves := [], models := [0x100000001000], load := none, start := none, aborts := [], done := [], report := [] }
def cellsAt (a : Nat) : List Byte → List (Nat × Byte)
  | [] => []
  | b :: bs => if b = 0 then cellsAt (a + 1) bs else (a, b) :: cellsAt (a + 1) bs
def put (s : State) (a : Nat) (bs : List Byte) : State := if placedBase ≤ a ∧ a < 0x140000000000 then { s with mem := { s.mem with cells := s.mem.cells.filter (·.1 < a) ++ cellsAt a bs ++ s.mem.cells.filter (a + bs.length ≤ ·.1) } } else s.writeBytes a bs
def kvBase : State := { fullS with cfg := some record1, ldr := { fullS.ldr with tasks := [task0] } }
/-- rows: sequence 5 open, plain, LENGTH 300, PAGES_MAX 4; sequence 6 open, 1 -/
def kvS : State := put (put (put (put kvBase 0x100000001000 modelBytes) 0x100000002000 (rowBytes 300 2 0 4 0x100000100400 0 31 0 0)) 0x100000004000 (leBytes 4 (2 ^ 31) ++ leBytes 4 (2 ^ 31 + 2 ^ 30))) 0x100000100400 []
def kvP (f : Nat) (fd : List Byte) (pg w slot crc : Nat) (s : State) : State := ({ (put (put s (0x100000100000 + 32 * f) fd) (0x100000100400 + 16 * pg) (leBytes 8 w ++ leBytes 4 slot ++ leBytes 4 crc)) with kv := { s.kv with used := insertNat f s.kv.used } } : State)
/-! core routines -/
def J60 (got : List (List Byte)) : Job := { id := 4, x := true, index := 9, word := (wd 0x60 (2 ^ 91)).toNat, replay := 2, base := 0, arg := 0, de0 := false, pos := 0, pops := [⟨31, some 1, 0, got, true⟩], units := 0, formed := false, tail := [], scales := [], pushes := [], pushQ := none, tally := Enc7.noTally }
def beatOf (ws : List Nat) : List Byte := ws.flatMap (leBytes 4)
def callS (source id arg : Nat) (k : Core) : State := coreS { k with cc := { k.cc with call := some ⟨source, id, arg, 2, none, 0, false, 0, false, none, none⟩ } }
def rtS (source id : Nat) (ws : List Nat) : State := callS source id 0x40 { xS 0x60 0 with jobs := [J60 [beatOf ws]] }
def logits : List Nat := [0x3F800000, negInf32, 0x40000000, 0x40000000, 0xBF800000, 0, 0x80000000, 1, 2, 3, 4, 5, 6, 7, 8, 9]
def postBlk (kind slot wher wait : Nat) : NMap Byte := writeCells [] 0x40 (leBytes 8 77 ++ leBytes 4 88 ++ leBytes 1 kind ++ leBytes 1 slot ++ leBytes 1 wher ++ leBytes 1 wait)
def bindW (recv target mask : Nat) : BitVec 32 := BitVec.ofNat 32 (2 ^ 31 + recv * 2 ^ 29 + target * 2 ^ 24 + mask)
def bound (s : State) (d k n recv target mask : Nat) : State := s.setReg d .MBX_BIND k n (bindW recv target mask)
def noted (s : State) (d k n : Nat) (ptr : Nat) (sender : Nat) : State := { s with notices := [⟨d, k, n, leBytes 8 ptr ++ leBytes 4 5 ++ leBytes 4 sender⟩] }
/-! transfers -/
def tens (layout fmt ndim space base : Nat) (sizes : List Nat) (strides : List Int) : List Byte := padTo 64 0 (padTo 0x22 0 (leBytes 1 layout ++ leBytes 1 fmt ++ leBytes 1 ndim ++ leBytes 1 0 ++ leBytes 2 (space * 2 ^ 14) ++ leBytes 2 0 ++ leBytes 8 base ++ sizes.flatMap fun n => leBytes 3 (n - 1)) ++ strides.flatMap fun o => leBytes 5 ((o % 2 ^ 40).toNat))
def xdesc (ty fl src dst idx tag : Nat) (perm srcF dstF nouter cmpl opnd : Nat) : List Byte := padTo 64 0 (leBytes 1 ty ++ leBytes 1 fl ++ leBytes 1 src ++ leBytes 1 dst ++ leBytes 1 idx ++ leBytes 1 0 ++ leBytes 2 tag ++ leBytes 3 perm ++ leBytes 5 0 ++ leBytes 4 srcF ++ leBytes 4 dstF ++ leBytes 4 nouter ++ leBytes 4 0 ++ leBytes 8 cmpl ++ leBytes 8 opnd)
def xf (desc src dst idx : List Byte) : Xfer := { walkXfer 5 0 9 2 with walk := none, desc := desc, src := src, dst := dst, idx := idx, nextAt := field desc 0x28 8, count := if field desc 0 1 = 5 then 0xFFFFFFFF else 0 }
def spm : Nat := spmBase 7 63
def T1 : List Byte := tens 0 12 2 0 (spm + 0x1000) [4, 3] [16]
def T2 : List Byte := tens 0 12 2 0 (spm + 0x2000) [4, 3] [16]
def IX : List Byte := tens 0 12 1 0 (spm + 0x3000) [2] []
def datS (k : Core) : State := put (put (coreS k) (spm + 0x1000) ((List.range 48).map fun n => BitVec.ofNat 8 (n + 1))) (spm + 0x3000) (leBytes 4 2 ++ leBytes 4 9)
/-! attention steps -/
def hdr (kind : Nat) : List Byte := padTo 64 0 (leBytes 1 kind ++ leBytes 1 0 ++ leBytes 2 0 ++ leBytes 2 1 ++ leBytes 1 4 ++ leBytes 1 4 ++ leBytes 8 0x100000006000 ++ leBytes 8 0x100000007000)
def srow (seq : Nat) : List Byte := padTo 32 0 (leBytes 2 seq ++ leBytes 6 0 ++ leBytes 8 0x100000008000 ++ leBytes 8 0x100000009000)
def step0 (kind : Nat) (rows : List StepRow) : Step := ⟨7, 3, 9, 0x100000005000, 4, senderCc 7 63, hdr kind, 0x100000001000, rows, none, false⟩
def stS (s : State) (x : Step) : State := { s with kv := { s.kv with steps := [{ x with k := 2, id := 8 }, x], stepNext := 10 } }
def rw0 (seq : Nat) : StepRow := freshRow (srow seq)
def fdIn (plane refs pins seq index : Nat) : List Byte := fdBytes 2 0 plane refs pins seq index 0
/-- pages 1 of planes 0 and 1 of sequence 5 in frames 3 and 5760 -/
def kvS2 : State := kvP 3 (fdIn 0 1 0 5 1) 1 (wordPresent 3) 0 0 (kvP 5760 (fdIn 1 1 0 5 1) 5 (wordPresent 5760) 0 0 kvS)
/-! KV requests: sequence 6 FREE, 7 OPEN -/
def reqB (op flags seq n aux home list reply : Nat) : List Byte := padTo 64 0 (leBytes 1 op ++ leBytes 1 flags ++ leBytes 2 seq ++ leBytes 4 n ++ leBytes 2 aux ++ leBytes 1 home ++ leBytes 5 0 ++ leBytes 8 list ++ leBytes 8 reply)
def rqS (s : State) (rec_ : List Byte) : State := put ({ s with cores := [(7 * 64 + 63, { core0 with cc := { freshCtl with call := some ⟨2, 0x100, 0x100000000040, 0, some (255, leBytes 8 0x100000000040 ++ leBytes 4 5 ++ leBytes 4 (senderCc 7 62)), 0, false, 0, false, none, none⟩ } })] } : State) 0x100000000040 rec_
def bindImg : List Byte := leBytes 6 0 ++ leBytes 2 1 ++ List.replicate 56 0 ++ (leBytes 4 5 ++ leBytes 4 1 ++ leBytes 4 0x50 ++ leBytes 4 8) ++ ([7, 3, 255, 0] ++ leBytes 4 0)
def kvT (s : State) : State := { s with ldr := { s.ldr with tasks := [{ task0 with image := bindImg }] } }
/-- with sequence 7 OPEN (PAGES_MAX 3, table at 0x100000100800) and sequence 8 SHARED-able -/
def kvS3 : State := put (kvT kvS2) (0x100000002000 + 64) (rowBytes 0 1 0 3 0x100000100800 0 31 0 0)
def kc (s : State) (id arg : Nat) (k : Core) : State := { s with cores := [(7 * 64 + 63, { k with cc := { k.cc with call := some ⟨1, id, arg, 0, none, 0, false, 0, false, none, none⟩ } })] }
def farJ (spill : Bool) (idx : Nat) : FarJob := ⟨4, 7, spill, ⟨5, 0, idx⟩, idx, 3, 9, 100, 0x1234⟩
def jobF (s : State) (j : FarJob) : State := { s with kv := { s.kv with farJobs := [j], farNext := 5, farUsed := [9] } }
/-! tasks -/
def es6 : List Entry := [.heap 0x100001000000 0x100000, .loaderArea 0x100002000000 0x10000]
def record2 : Record := { record1 with sections := record1.sections.take 4 ++ [⟨6, 16, 16, es6⟩] ++ record1.sections.drop 4 }
def imgRaw (crc : Nat) : List Byte := leBytes 4 0x4954474B ++ leBytes 2 1 ++ leBytes 2 2 ++ leBytes 4 0xA0 ++ leBytes 4 crc ++ List.replicate 48 0 ++ (leBytes 4 1 ++ leBytes 4 0 ++ leBytes 4 0x40 ++ leBytes 4 0) ++ (leBytes 4 3 ++ leBytes 4 1 ++ leBytes 4 0x80 ++ leBytes 4 32) ++ List.replicate 32 0 ++ (leBytes 1 2 ++ leBytes 1 1 ++ leBytes 6 0 ++ leBytes 8 4096 ++ leBytes 16 0)
def okImg : List Byte := imgRaw (crc32c (imgRaw 0))
def ldReq (op task bytes addr : Nat) : List Byte := padTo 128 0 (leBytes 1 op ++ leBytes 1 task ++ leBytes 2 0 ++ leBytes 4 bytes ++ leBytes 8 addr)
def nx8 : Notice := ⟨8, 0, 15, leBytes 8 0x10000000A000 ++ leBytes 4 5 ++ leBytes 4 (senderCc 7 62)⟩
def lq : LdrReq := ⟨0x10000000A000, 5, senderCc 7 62⟩
def lq2 : LdrReq := ⟨0x10000000B000, 6, senderCc 7 62⟩
def tk (st : TaskState) : Task := { task0 with id := 64, state := st, owner := senderCc 7 62, image := okImg, models := [] }
def ldS (rec_ : List Byte) (ts : List Task) : State := put ({ fullS with cfg := some record2, notices := [nx8], ldr := { fullS.ldr with tasks := ts } } : State) 0x10000000A000 rec_
/-- a task of one core, D7.C63 -/
def coreImg : List Byte := leBytes 6 0 ++ leBytes 2 1 ++ List.replicate 56 0 ++ (leBytes 4 1 ++ leBytes 4 1 ++ leBytes 4 0x80 ++ leBytes 4 128) ++ List.replicate 48 0 ++ [7, 63, 1] ++ List.replicate 125 0
/-! optics -/
def es7b : List Entry := [.partitionMask 1, .fabricPort 47 9, .fabricPort 46 8, .fabricPort 45 7, .systemModule 9 0 0, .systemModule 8 0 0, .systemModule 7 0 0, .systemModule 0 0 0]
def record3 : Record := { record2 with sections := record2.sections.map fun x => if x.type = 7 then { x with entries := es7b } else x }
def optS (ports : NMap FPort) (engines : NMap Engine) (lanes : NMap Lane) : State := { fullS with cfg := some record3, fab := { fullS.fab with ports := ports, engines := engines, lanes := lanes } }
def lit0 : Lane := { freshLane with lit := true }
def lanesOf (l : Lane) (ns : List Nat) : NMap Lane := ns.map fun n => (15 * 64 + n, l)
def upP : FPort := { freshFPort with phase := .up, rate := true, eq := true, peer := 9, peerKind := 0, peerDie := 3, peerEngine := 6, epoch := 4, credits := (List.range 12).map fun k => (k, 256) }
def trP : FPort := { freshFPort with phase := .training, peer := 9 }
def ts (ty m : Nat) (logical eq count : Nat) : List Byte := padTo 32 0 (leBytes 1 ty ++ leBytes 2 m ++ leBytes 1 3 ++ leBytes 1 6 ++ leBytes 1 23 ++ leBytes 1 logical ++ leBytes 1 0 ++ leBytes 1 eq ++ leBytes 2 count)
def flit0 (n : Nat) : Flit := ⟨n, true, List.replicate 240 7⟩
def mf (ty die agent : Nat) (tag status addr : Nat) (payload : List Byte) (hops : Nat) : List Byte := splice (mkFrame ty (carAddr 0 die agent) (carAddr 9 3 0x40) tag status 0 addr payload) 0x18 (leBytes 1 hops)
def frS : State := optS [(47, upP)] [] []
def reqF (kind : Nat) (owner : Nat) : CReq := ⟨7, 7, 0x44, kind, carAddr 9 3 0x40, 0x55, 64, (owner, 1, 2, 3), none⟩
def goodFlit (seq ctl : Nat) : List Byte := let b := List.replicate 240 (0 : Byte) ++ leBytes 2 (ctl * 4096 + seq) ++ leBytes 10 0; b ++ leBytes 4 (crc32c b)
def hpS (x : HostPort) : State := { kvS with ports := [(7, x)], cfg := some { record3 with sections := record3.sections.map fun s => if s.type = 2 then { s with entries := [.hostPort 7 3 2 0 0, .range 7 0x030000000 0x2000] } else s } }
def biasP : HostPort := { freshPort with proto := 4, biasPage := 0, biasCount := 1 }
/-! peers, collectives -/
def grpA : List Member := [⟨0, 7 * 256 + 0x60⟩]
def grpB : List Member := [⟨9, 3 * 256 + 0x60⟩, ⟨0, 7 * 256 + 0x60⟩, ⟨8, 0x60⟩, ⟨7, 0x60⟩]
def es7c : List Entry := es7b ++ [.caravanWindow 0x10000000A000 0x10000 1, .collGroup grpA, .collGroup grpB, .systemModule 6 0 1, .fabricPort 44 6]
def record4 : Record := { record3 with sections := record3.sections.map fun x => if x.type = 7 then { x with entries := es7c } else x }
def peS : State := { frS with cfg := some record4 }
def mfn (ty die agent : Nat) (slot addr : Nat) (payload : List Byte) : List Byte := mkFrame ty (carAddr 0 die agent) (carAddr 9 3 0x40) 5 0 slot addr payload
def mf6 (ty : Nat) : List Byte := mkFrame ty (carAddr 0 7 0x50) (carAddr 6 3 0x40) 5 0 0 0x10000000A040 (List.replicate 64 3)
def cdesc (op dt redop grp id count root norm src dst reply : Nat) : List Byte := padTo 64 0 (leBytes 1 op ++ leBytes 1 dt ++ leBytes 1 redop ++ leBytes 1 grp ++ leBytes 4 id ++ leBytes 4 count ++ leBytes 2 root ++ leBytes 1 norm ++ leBytes 1 0 ++ leBytes 8 src ++ leBytes 8 dst ++ leBytes 8 reply)
def coS (desc : List Byte) : State := put ({ peS with notices := [⟨7, 4, 3, leBytes 8 0x10000000A000 ++ leBytes 4 5 ++ leBytes 4 (senderCc 7 62)⟩] } : State) 0x10000000A000 desc
def ck (desc : List Byte) : Coll := ⟨7, 3, 0x10000000A000, 5, senderCc 7 62, desc, ((coS desc).collMembers (field desc 3 1)).length, ((coS desc).memberIndex 7 (field desc 3 1)).getD 0, 0, 0, [], [], Partial.empty 0, []⟩
def runS (ks : List Coll) : State := { peS with fab := { peS.fab with colls := ks } }
def cframe (desc : List Byte) (opt chunk first n tag : Nat) (src : Nat) (data : List Byte) : List Byte := mkFrame 0x21 (carAddr 0 7 0x60) src tag 0 opt (field desc 3 1 * 2 ^ 40 + field desc 4 4 * 2 ^ 8) (padTo 64 0 (desc.take 3 ++ [0] ++ leBytes 4 (field desc 8 4) ++ leBytes 4 chunk ++ leBytes 4 first ++ leBytes 4 n) ++ data)
def hmD : List Byte := cdesc 4 6 0 1 77 14 1 0 0x10000000B000 0x10000000C000 0
def mreq (port : Option Nat) (op kind unit reg value nonce key : Nat) (sig : Option (List Byte)) : MgmtReq := ⟨port, 0x10000000A000, padTo 64 0 (leBytes 1 op ++ leBytes 1 kind ++ leBytes 2 unit ++ leBytes 4 0 ++ leBytes 4 reg ++ leBytes 4 value ++ leBytes 8 0 ++ leBytes 8 nonce ++ leBytes 8 0 ++ leBytes 1 key), sig⟩
def mgS (q : List MgmtReq) : State := { peS with mgmt := { peS.mgmt with queue := q } }
/-- A page whose CRC-32C is known: the first four bytes empty the register and zeros keep it empty. -/
def page0 : List Byte := List.replicate 4 255 ++ List.replicate 17404 0
theorem crcRun_zeros (n : Nat) : crcRun 0 (List.replicate n 0) = 0 := by
  induction n with
  | zero => rfl
  | succ n ih => exact ih
theorem crcRun_ones (l : List Byte) : crcRun 0xFFFFFFFF (List.replicate 4 255 ++ l) = crcRun 0 l :=
  congrArg (fun c => crcRun c l) (by decide : crcRun 0xFFFFFFFF (List.replicate 4 255) = 0)
theorem page0_crc : crc32c page0 = 0xFFFFFFFF := by
  rw [crc32c, page0, crcRun_ones, crcRun_zeros]; decide
theorem page0_length : page0.length = 17408 := by rw [page0, List.length_append, List.length_replicate, List.length_replicate]
def H0 : List Byte := leBytes 4 0x5746474B ++ leBytes 2 1 ++ leBytes 2 4 ++ leBytes 4 63 ++ leBytes 4 0 ++ leBytes 4 0xF74 ++ leBytes 12 0
def seg0 (t : Nat) : List Byte := leBytes 2 t ++ leBytes 2 0 ++ leBytes 4 0xF74 ++ leBytes 4 0 ++ leBytes 4 0 ++ leBytes 32 (Config.sha3 [])
/-- A firmware image of four empty segments that the ROM accepts. -/
def image0 : List Byte := H0 ++ seg0 1 ++ seg0 2 ++ seg0 3 ++ seg0 4 ++ List.replicate 2420 0 ++ Config.firmwareKey.toList
theorem image0_head : (H0 ++ seg0 1 ++ seg0 2 ++ seg0 3 ++ seg0 4 ++ List.replicate 2420 0).length = 0xA54 := by
  simp only [List.length_append, List.length_replicate]; decide +kernel
theorem image0_length : image0.length = 0xF74 := by
  rw [image0, List.length_append, image0_head, Vector.length_toList]
theorem image0_key : (image0.drop 0xA54).take 1312 = Config.firmwareKey.toList := by
  rw [image0, List.drop_left' image0_head, List.take_of_length_le (Nat.le_of_eq Vector.length_toList)]
theorem leNat_leBytes (n v : Nat) : leNat (leBytes n v) = v % 2 ^ (8 * n) := by
  induction n generalizing v with
  | zero => simp [leBytes, leNat, Nat.mod_one]
  | succ n ih =>
    have h : 2 ^ (8 * (n + 1)) = 256 * 2 ^ (8 * n) := by rw [Nat.mul_succ, Nat.pow_add]; omega
    rw [leBytes, leNat, ih, h, Nat.mod_mul, BitVec.toNat_ofNat]
theorem image0_segs : fwSegments image0 = [⟨1, 0xF74, 0, leNat (leBytes 32 (Config.sha3 []))⟩, ⟨2, 0xF74, 0, leNat (leBytes 32 (Config.sha3 []))⟩, ⟨3, 0xF74, 0, leNat (leBytes 32 (Config.sha3 []))⟩, ⟨4, 0xF74, 0, leNat (leBytes 32 (Config.sha3 []))⟩] := by rfl
theorem image0_layout : fwLayoutOk image0 = true := by
  simp only [fwLayoutOk, image0_length, image0_segs]; decide +kernel
theorem image0_digests : fwDigestsOk image0 = true := by
  have h : leNat (leBytes 32 (Config.sha3 [])) = Config.sha3 [] := by
    rw [leNat_leBytes]; exact Nat.mod_eq_of_lt (Config.sha3Digest []).isLt
  simp only [fwDigestsOk, image0_key, image0_segs, h, List.take_zero, List.all_cons, List.all_nil, Bool.and_true, Bool.and_eq_true, decide_eq_true_eq, Config.romKeyDigest, and_self]
def fwS : State := { State.reset with fuses := { State.reset.fuses with svnBits := 2 ^ 63 - 1 }, flash := { State.reset.flash with fw := image0 } }
theorem image0_runs (s : State) (h : s.fuses.svnFloor ≤ 63) : s.fwRuns image0 true = true := by
  have e : fwSvn image0 = 63 := by rfl
  simp only [State.fwRuns, fwAccepted, image0_layout, image0_digests, e, h, decide_true, Bool.and_self]
def recS : State := { readyS with power := { readyS.power with mode := .booting }, boot := { readyS.boot with staged := some image0, recovery := true } }
theorem ports_fr (q : Nat) : (frS.fport q).out = [] := by
  change (mget freshFPort [(47, upP)] q).out = []
  simp only [mget]
  split
  · rfl
  · split <;> rfl
def dir0 : DirEntry := ⟨placedAddr 31 15 63 0 0 / 64, [(7, true)]⟩
def dirS : State := { fullS with mem := { fullS.mem with dir := List.replicate 4194304 dir0 } }
def heldW (s : State) (ag : Agent) : State := { s with mem := { s.mem with held := [⟨ag, .phys 0x100000000000, .write (List.replicate 64 0) false⟩] } }
/-- pools of three frames a bank: all of stack 31's are used, and the first is being spilled; or stack 31 has no bank of the pool -/
def recPool (kib mp : Nat) (banks : List BankId) : Record := { record1 with sections := record1.sections.map fun x => if x.type = 5 then { x with entries := [.pool kib mp banks, .kvRegion 0x100000100000 0x100000] } else x }
def kvSmall (banks : List BankId) (s : State) : State := put ({ s with cfg := some (recPool 16 32000 banks), kv := { s.kv with used := [0, 1, 2] } }) 0x100000100000 (fdBytes 3 0 0 1 0 5 1 0)
/-- the far tier at module 9 -/
def farPeer (r : Record) : Record := { r with sections := r.sections.map fun x => if x.type = 3 then { x with entries := [.farTier (.peer 9) 0x8000000000 0x8000 16 [1, 1, 1, 1, 1, 1, 1, 9]] } else x }
def withReqs (s : State) (rs : List CReq) : State := { s with fab := { s.fab with reqs := rs } }
def farReq (id st : Nat) (b : List Byte) : CReq := { (⟨7, 7, 0x4C, 1, carAddr 9 0 0x50, 0x8000000000, b.length, (13, id, 0, 0), some (st, b)⟩ : CReq) with d := 7 }
def probeS : State := { frS with cfg := some (farPeer { record3 with sections := record3.sections.map fun x => if x.type = 7 then { x with entries := [.partitionMask 1, .fabricPort 47 9, .systemModule 9 1 0, .systemModule 0 0 0] } else x }), kv := { frS.kv with unreachable := true } }


/-! ### Ill-formed commands, one for each check -/

theorem test_ill_formed_commands_are_refused :
    (Instr.dietimeLoRead 8).wf = false ∧ (Instr.nop 0 64).wf = false ∧ (Instr.stepDecode 0 4 0).wf = false ∧
    (Instr.queueBeatAccept 0 0 32).wf = false ∧ (Instr.refreshDue ⟨0, 16, 68⟩).wf = false ∧ (Instr.refreshDue ⟨0, 15, 64⟩).wf = false ∧
    (Instr.parityDieFail 32).wf = false ∧ (Instr.dieRetire 0 17).wf = false ∧ (Instr.tsvRepair 0 64 false).wf = false ∧
    (Instr.ddlLinkDown 10).wf = false ∧ (Instr.calibrationComplete 16).wf = false ∧ (Instr.lightDetect 0 36).wf = false ∧
    (Instr.laserFail 0 4).wf = false ∧ (Instr.replayTimeout 48).wf = false ∧ (Instr.flr 8).wf = false ∧ (Instr.rateChange 56).wf = false ∧
    (Instr.getVersion 9).wf = false ∧ (Instr.noticePost .loader 8 0 16 0 0).wf = false ∧ (Instr.noticePost .loader 7 4 64 0 0).wf = false ∧
    (Instr.allreduce 0 64).wf = false ∧ (Instr.seqwDescriptorWrite .loader 0 4096 0 []).wf = false ∧ (Instr.noticeTake 0 0 17).wf = false ∧
    (Instr.memoryRead (.engine 0 0 6) (.phys 0) 64 0).wf = false ∧ (Instr.memoryRead (.peer (2 ^ 25) 0 0) (.phys 0) 64 0).wf = false ∧
    (Instr.ts1 0 0 (List.replicate 32 4)).wf = false ∧ (Instr.hold 0 (List.replicate 31 8)).wf = false ∧
    (Instr.flitReceive 0 (List.replicate 255 0)).wf = false ∧ (Instr.read 0 (List.replicate 97 1)).wf = false ∧
    (Instr.write 0 (List.replicate 96 1)).wf = false := by decide +kernel

theorem test_well_formed_commands_at_the_bounds :
    (Instr.nop 7 63).wf = true ∧ (Instr.refreshDue ⟨31, 16, 67⟩).wf = true ∧ (Instr.lightDetect 15 35).wf = true ∧ (Instr.rateChange 55).wf = true ∧
    (Instr.getVersion 8).wf = true ∧ (Instr.noticePost .loader 8 0 15 0 0).wf = true ∧ (Instr.read 47 (List.replicate 96 1)).wf = true := by decide +kernel

/-! ### The table gives no bits -/

theorem test_no_word_spells_a_command : decodeTableWord 128 (2 ^ 128 - 1) = none ∧ State.reset.withFetchWord 8 3 = State.reset := by decide +kernel

/-! ### The spec's worked examples -/

/-- spec/02: one address in both views. -/
theorem test_spread_address_in_both_views :
    spreadToPlaced 0x12345678 = 0x10A8D0002678 ∧ State.reset.resolve 0x12345678 = State.reset.resolve 0x10A8D0002678 ∧
    placedStack 0x10A8D0002678 = 5 ∧ placedDie 0x10A8D0002678 = 4 ∧ placedBank 0x10A8D0002678 = 26 ∧ placedRow 0x10A8D0002678 = 9 := by decide +kernel

/-- spec/04: the K2 byte 0xB4 and the KT byte 0xC9, before their scales. -/
theorem test_k2_and_kt_bytes :
    Enc.k2.codes [0xB4] 4 = [0, 1, 3, 2] ∧ ktTrits 0xC9 = [0, 1, 1, 1, 2] ∧ Enc.kt.value 0 = .fin true 1 0 ∧
    fp32.encode ((Enc.k2.value 0).mul (.fin false 1 0)) = 0xBFC00000 ∧ fp32.encode (Enc.k2.scale 0x38) = 0x3F800000 ∧
    fp32.encode (Enc.kt.scale 0x30) = 0x3F000000 := by decide +kernel

/-- spec/04: the fully masked partial leaves the other unchanged, and two of them merge to (−∞, 0, 0). -/
theorem test_masked_partials_merge :
    Partial.merge 0 ⟨0x40000000, 0x3FC00000, [0x40400000]⟩ ⟨0xFF800000, 0, [0]⟩ = ⟨0x40000000, 0x3FC00000, [0x40400000]⟩ ∧
    Partial.merge 0 ⟨0xFF800000, 0, [0]⟩ ⟨0xFF800000, 0, [0]⟩ = ⟨0xFF800000, 0, [0]⟩ ∧
    Partial.out ⟨0xFF800000, 0, [0]⟩ = [0] ∧ Partial.lse 0 ⟨0xFF800000, 0, [0]⟩ = 0xFF800000 := by decide +kernel

/-- spec/07: the words of the eight-layer block, decoded field by field. -/
theorem test_stream_words :
    Enc7.replays 0x01000007000000000000000100500000 = 8 ∧ Enc7.pcount 0x01000007000000000000000100500000 = 2 ∧
    Enc7.plist 0x01000007000000000000000100500000 = 0x800 ∧ Enc7.requires 0x10800104000000000000000000000000 = some 0 ∧
    Enc7.pat 0x10800104000000000000000000000000 = 1 ∧ Enc7.walkPreg 0x10800104000000000000000000000000 = 1 ∧
    Enc7.emits 0x11040108600000000000000000000000 = some 0 ∧ Enc7.walkPreg 0x11040108600000000000000000000000 = 2 ∧
    Enc7.walkQueue 0x11040108600000000000000000000000 = 3 ∧ Enc7.mQW 0x40000011000040000003E07FE0000000 = 1 ∧
    Enc7.mQO 0x40000011000040000003E07FE0000000 = 2 ∧ Enc7.mAfmt 0x40000011000040000003E07FE0000000 = 1 ∧
    Enc7.mM 0x40000011000040000003E07FE0000000 = 1 ∧ Enc7.mK 0x40000011000040000003E07FE0000000 = 1024 ∧
    Enc7.mN 0x40000011000040000003E07FE0000000 = 1024 ∧ Enc7.vFn 0x500004820000007C4001180000000F01 = 0x12 ∧
    Enc7.vVl 0x500004820000007C4001180000000F01 = 64 ∧ Enc7.vNvec 0x500004820000007C4001180000000F01 = 16 ∧
    Enc7.vQA 0x500004820000007C4001180000000F01 = 2 ∧ Enc7.vQD 0x500004820000007C4001180000000F01 = 3 := by decide +kernel

/-- spec/11: the host on HP2 posts to slot 5 of D3.K1; the second CAS is refused and counted. -/
def casS : State := readyS.setReg 3 .MBX_BIND 1 5 0x84000004#32
def casTwice : State := nx (exec (.hostCasPost 2 0xD050 32 0 (0x11 * 2 ^ 64 + 0x123400000) 0x300) (nx (exec (.hostCasPost 2 0xD050 32 0 (0x11 * 2 ^ 64 + 0x123400000) 0x300) casS)))
theorem test_host_posts_a_step_notice :
    casTwice.notices = [⟨3, 1, 5, [0, 0, 0x40, 0x23, 1, 0, 0, 0, 0x11, 0, 0, 0, 0, 3, 2, 0x80]⟩] ∧
    casTwice.sent = [.reply (.host 2 0x300) (.data (List.replicate 16 0) []), .reply (.host 2 0x300) .abort] ∧
    casTwice.fld 3 1 0 MBX_REJECT.FULL = 1 := by decide +kernel

/-- spec/12: the descriptor address of frame 0x02C4F's slot, S2, die 7, bank 0x15, row 0x31E. -/
theorem test_frame_slot_address : placedAddr 2 7 0x15 0x31E 0 = 0x104EA80C7800 := by decide +kernel

/-! ### One step each -/

/-- R499, R457: auxiliary power comes up into Standby; a step on the command is the command's effect. -/
theorem test_aux_power_up : (nx (step { State.reset with power := { State.reset.power with mode := .off }, pending := [.auxPowerUp] })).power.mode = .standby := by decide +kernel

/-- R471: the pin is held low while HOLD is set, and released. -/
theorem test_pin_hold : (nx (exec (.fcuPinHoldWrite 1#32) readyS)).fld 0 0 0 FCU_PIN_HOLD.HOLD = 1 := by decide +kernel

/-- R45: a write through the spread view is read through the placed view. -/
theorem test_write_is_read_in_the_other_view : (fullS.writeBytes 0x12345678 [0xAB]).readByte 0x10A8D0002678 = 0xAB := by decide +kernel

/-- R18, R20: an internal access to an unlisted register offset is a bus error. -/
theorem test_unlisted_register : (nx (exec (.registerWrite (.cc 7 63) 0x3F007FFFFFFC 1#32) fullS)).sent.getLast? = some (.reply (.cc 7 63) .busError) := by decide +kernel



/-! ### Witnesses: for every clause of every statement, a state and operands that meet its hypotheses together -/

theorem witness_EmptyQueueTicks : ∃ (s : State), s.pending = [] ∧ (s.fport loopPort).out = [] :=
  ⟨readyS, by and_intros <;> decide +kernel⟩

theorem witness_EveryStepTakesOneCommand : ∃ (s : State) (t : State), step s = .next t :=
  ⟨{ readyS with pending := [.inputSample 4800 100] }, nx (step ({ readyS with pending := [.inputSample 4800 100] })), nx_eq (by decide +kernel)⟩

theorem witness_StepKeepsMemoryCanonical : ∃ (s : State) (t : State), s.mem.wf = true ∧ step s = .next t :=
  ⟨{ readyS with pending := [.memoryWrite .loader (.phys 64) [1, 0, 3] false] }, nx (step ({ readyS with pending := [.memoryWrite .loader (.phys 64) [1, 0, 3] false] })), by decide +kernel, nx_eq (by decide +kernel)⟩

theorem witness_StepKeepsFuses : ∃ (s : State) (t : State), step s = .next t :=
  ⟨{ readyS with pending := [.auxPowerLoss] }, nx (step ({ readyS with pending := [.auxPowerLoss] })), nx_eq (by decide +kernel)⟩

theorem witness_VersionFloorRisesOnlyBySvnCommit :
    (∃ (s : State) (t : State), step s = .next t ∧ t.fuses.svnBits ≠ s.fuses.svnBits) ∧
    (∃ (s : State), s.power.mode = .booting ∧ s.boot.fwOk = false ∧ fwSvn s.flash.fw < s.fuses.svnFloor) :=
  ⟨⟨svnS, nx (step svnS), nx_eq (by decide +kernel), by decide +kernel⟩,
    ⟨{ State.reset with fuses := { State.reset.fuses with svnBits := 3 }, flash := { State.reset.flash with fw := List.replicate 8 0 ++ [1] } }, by and_intros <;> decide +kernel⟩⟩

theorem witness_StoredValuesReadBack :
    (∃ (f : RF), f.lo ≤ f.hi ∧ f.hi < 32) ∧
    (∃ (f : RF) (g : RF), f.lo ≤ f.hi ∧ f.hi < 32 ∧ g.reg = f.reg ∧ ((g.hi < f.lo ∧ g.lo ≤ g.hi ∨ f.hi < g.lo))) ∧
    (∃ (d : Nat) (u : Nat) (i : Nat) (d' : Nat) (u' : Nat) (i' : Nat) (f : RF) (g : RF), regKey d' g.reg u' i' ≠ regKey d f.reg u i) ∧
    (∃ (s : State) (p : Nat) (data : List Byte) (i : Nat) (b : Nat), s.mem.wf = true ∧ s.noStorage p = false ∧ data[i]? = some b) ∧
    (∃ (s : State) (p : Nat) (data : List Byte) (q : Nat), s.mem.wf = true ∧ s.noStorage p = false ∧ ((q < p ∨ p + data.length ≤ q))) ∧
    (∃ (s : State) (p : Nat), s.noStorage p = true) ∧
    (∃ (a : Nat) (n : Nat) (p : _), p ∈ piecesOf a n) :=
  ⟨⟨PTM_STATUS.WARMUP_STALLED, by and_intros <;> decide +kernel⟩,
    ⟨NOC_MAPERR_INFO.VALID, NOC_MAPERR_INFO.OVERRUN, by and_intros <;> decide +kernel⟩,
    ⟨7, 3, 1, 6, 3, 1, NOC_MAPERR_INFO.VALID, NOC_MAPERR_INFO.OVERRUN, by decide +kernel⟩,
    ⟨memS, 0x100000000000, [1, 2, 0], 2, 0, by and_intros <;> decide +kernel⟩,
    ⟨memS, 0x100000000000, [1, 2, 0], 0x0FFFFFFFFFFF, by and_intros <;> decide +kernel⟩,
    ⟨{ memS with stackMap := [(0, { freshStack with lost := [⟨0, none, 0, 98304⟩] })] }, 0x100000000000, by decide +kernel⟩,
    ⟨100, 200, (100, 28), by decide +kernel⟩⟩

theorem witness_SupplyAndResetPins :
    (∃ (s : State), s.power.mode = .off) ∧
    (∃ (s : State), s.power.mode ≠ .off) ∧
    (∃ (s : State), s.power.mode ≠ .off) ∧
    (∃ (s : State), s.power.mode = .off) ∧
    (∃ (s : State) (ns : Nat), s.power.mode ≠ .off ∧ 10000 ≤ ns) ∧
    (∃ (s : State) (ns : Nat), (s.power.mode = .off ∨ ns < 10000)) ∧
    (∃ (s : State) (v : Nat), s.power.mode = .standby ∧ s.power.nresetHigh = false ∧ 4400 ≤ v ∧ v ≤ 6000) ∧
    (∃ (s : State) (v : Nat), s.power.mode = .standby ∧ s.power.nresetHigh = false ∧ (v < 4400 ∨ 6000 < v)) ∧
    (∃ (s : State), (s.power.mode ≠ .standby ∨ s.power.nresetHigh = true)) ∧
    (∃ (s : State) (v : Nat), s.power.mode = .standby ∧ s.power.deferred = true ∧ 4400 ≤ v ∧ v ≤ 6000) ∧
    (∃ (s : State) (v : Nat), s.power.mode = .standby ∧ (s.power.deferred = false ∨ v < 4400 ∨ 6000 < v)) :=
  ⟨⟨inMode .off, by decide +kernel⟩,
    ⟨readyS, by decide +kernel⟩,
    ⟨readyS, by decide +kernel⟩,
    ⟨inMode .off, by decide +kernel⟩,
    ⟨readyS, 10000, by and_intros <;> decide +kernel⟩,
    ⟨readyS, 9999, by decide +kernel⟩,
    ⟨stbyS, 4400, by and_intros <;> decide +kernel⟩,
    ⟨stbyS, 4399, by and_intros <;> decide +kernel⟩,
    ⟨readyS, by decide +kernel⟩,
    ⟨{ stbyS with power := { stbyS.power with nresetHigh := true, deferred := true } }, 4400, by and_intros <;> decide +kernel⟩,
    ⟨stbyS, 4400, by and_intros <;> decide +kernel⟩⟩

def wBoRuItSt1_3_s : State := bootS { State.reset.boot with fwOk := true }
def wBoRuItSt1_4_s : State := { bootS { State.reset.boot with fwOk := true, railsUp := true } with flash := { State.reset.flash with record := some record0 } }
def wBoRuItSt1_4_r : Record := (wBoRuItSt1_4_s.flash.record).get (by decide +kernel)
def wBoRuItSt1_5_s : State := { bootS { State.reset.boot with fwOk := true, railsUp := true } with flash := { State.reset.flash with record := some record0 } }
def wBoRuItSt1_5_r : Record := (wBoRuItSt1_5_s.flash.record).get (by decide +kernel)
def wBoRuItSt2_1_s : State := bootS { State.reset.boot with locked := true }
def wBoRuItSt2_2_s : State := bootS { State.reset.boot with lasersOn := true, configOk := true }
def wBoRuItSt2_3_s : State := bootS { State.reset.boot with railsUp := true }
def wBoRuItSt2_4_s : State := { bootS { State.reset.boot with configOk := true } with stackMap := (List.range 32).map fun k => (k, { freshStack with cleared := true }), ports := [(2, { freshPort with proto := 5 })] }
def wBoRuItSt2_5_s : State := inMode .warmUp
theorem witness_BootRunsItsSteps :
    (∃ (s : State) (sigOk : Bool), s.power.mode = .booting ∧ s.boot.fwOk = false ∧ s.fwRuns s.flash.fw sigOk = true) ∧
    (∃ (s : State) (sigOk : Bool), s.power.mode = .booting ∧ s.boot.fwOk = false ∧ s.fwRuns s.flash.fw sigOk = false) ∧
    (∃ (s : State), s.power.mode = .booting ∧ s.boot.fwOk = true ∧ s.boot.railsUp = false) ∧
    (∃ (s : State) (sigOk : Bool) (r : Record), s.power.mode = .booting ∧ s.boot.railsUp = true ∧ s.boot.locked = false ∧ s.flash.record = some r ∧ recordRefusal s.fuses s.power.straps r sigOk = none) ∧
    (∃ (s : State) (sigOk : Bool) (r : Record) (code : Nat), s.power.mode = .booting ∧ s.boot.railsUp = true ∧ s.boot.locked = false ∧ s.flash.record = some r ∧ recordRefusal s.fuses s.power.straps r sigOk = some code) ∧
    (∃ (s : State), s.power.mode = .booting ∧ s.boot.locked = true ∧ s.boot.lasersOn = false) ∧
    (∃ (s : State), s.power.mode = .booting ∧ s.boot.lasersOn = true ∧ s.boot.lasersLocked = false ∧ s.boot.configOk = true) ∧
    (∃ (s : State) (stk : Nat), stk < 32 ∧ s.power.mode = .booting ∧ s.boot.railsUp = true ∧ s.boot.refused = false ∧ (s.stack stk).cleared = false ∧ s.mem.wf = true) ∧
    (∃ (s : State), s.power.mode = .booting ∧ s.boot.configOk = true ∧ ((∀ k, k < 32 → (s.stack k).cleared = true))) ∧
    (∃ (s : State), s.power.mode = .warmUp) :=
  ⟨⟨fwS, true, by decide +kernel, by decide +kernel, image0_runs fwS (by decide +kernel)⟩,
    ⟨State.reset, false, by and_intros <;> decide +kernel⟩,
    ⟨wBoRuItSt1_3_s, by and_intros <;> decide +kernel⟩,
    ⟨wBoRuItSt1_4_s, true, wBoRuItSt1_4_r, by decide +kernel, by decide +kernel, by decide +kernel, some_get, by decide +kernel⟩,
    ⟨wBoRuItSt1_5_s, false, wBoRuItSt1_5_r, 0xFFFF, by decide +kernel, by decide +kernel, by decide +kernel, some_get, by decide +kernel⟩,
    ⟨wBoRuItSt2_1_s, by and_intros <;> decide +kernel⟩,
    ⟨wBoRuItSt2_2_s, by and_intros <;> decide +kernel⟩,
    ⟨wBoRuItSt2_3_s, 31, by and_intros <;> decide +kernel⟩,
    ⟨wBoRuItSt2_4_s, by and_intros <;> decide +kernel⟩,
    ⟨wBoRuItSt2_5_s, by decide +kernel⟩⟩

theorem witness_PowerSamplesMoveTheCaps :
    (∃ (s : State) (v : Nat), s.power.mode ≠ .off ∧ s.power.mode ≠ .standby ∧ 4400 ≤ v ∧ v ≤ 6000) ∧
    (∃ (s : State), s.fld 0 0 0 PTM_INPUT.VOLTAGE * s.fld 0 0 0 PTM_INPUT.CURRENT < 9000 * s.fld 0 0 0 PTM_INPUT_POWER.LIMIT) ∧
    (∃ (s : State) (d : Nat), d < 8 ∧ s.power.rails = true) ∧
    (∃ (s : State) (d : Nat), d < 8 ∧ s.power.rails = true ∧ s.fld d 0 0 PTM_DIE_POWER.DIE < 380) ∧
    (∃ (s : State), s.power.mode ≠ .off ∧ s.power.mode ≠ .safe ∧ s.phasesFailed < 7) ∧
    (∃ (s : State), s.power.mode ≠ .off ∧ s.power.mode ≠ .safe ∧ 7 ≤ s.phasesFailed ∧ s.phasesFailed < 18) :=
  ⟨⟨readyS, 6000, by and_intros <;> decide +kernel⟩,
    ⟨readyS.setFld 0 0 0 PTM_INPUT_POWER.LIMIT 1, by decide +kernel⟩,
    ⟨readyS, 7, by and_intros <;> decide +kernel⟩,
    ⟨readyS, 7, by and_intros <;> decide +kernel⟩,
    ⟨readyS, by and_intros <;> decide +kernel⟩,
    ⟨readyS.setFld 0 0 0 PTM_STATUS.PHASES_FAILED 7, by and_intros <;> decide +kernel⟩⟩

theorem witness_ThermalCapFollowsLogicTemperature :
    (∃ (s : State) (d : Nat) (t : Int), s.logicTemp d = some t) ∧
    (∃ (s : State) (d : Nat), s.vddlTarget d = 750 ∧ s.logicTemp d = some 1840) ∧
    (∃ (s : State) (idx : Nat) (t : Int), idx < 0x60 ∧ 1840 ≤ t ∧ s.power.mode ≠ .safe ∧ s.power.mode ≠ .off) :=
  ⟨⟨sensedS, 7, (sensedS.logicTemp 7).get (by decide +kernel), some_get⟩,
    ⟨sensedS, 7, by and_intros <;> decide +kernel⟩,
    ⟨readyS, 0x5F, 1840, by and_intros <;> decide +kernel⟩⟩

theorem witness_SensorsAreDemandedAndRead :
    (∃ (s : State) (d : Nat), d < 8 ∧ s.power.rails = true ∧ s.power.demands = []) ∧
    (∃ (s : State) (d : Nat) (v : Word), d < 8 ∧ s.power.rails = true ∧ s.power.mode ≠ .safe ∧ bits v.toNat 7 0 < 0xF8 ∧ s.fld d 0 0 PTM_TSENSE_DATA.BUSY ≠ 1 ∧ s.power.demands.contains ⟨d, bits v.toNat 7 0, .host⟩ = false) ∧
    (∃ (s : State) (d : Nat) (v : Word), d < 8 ∧ s.power.rails = true ∧ s.power.mode ≠ .safe ∧ ((0xF8 ≤ bits v.toNat 7 0 ∨ s.fld d 0 0 PTM_TSENSE_DATA.BUSY = 1))) ∧
    (∃ (s : State) (d : Nat) (idx : Nat) (temp : Int), d < 8 ∧ idx < 0x60 ∧ s.power.rails = true ∧ s.power.mode = .ready ∧ s.power.demands = [⟨d, idx, .host⟩] ∧ 0 ≤ temp ∧ temp < 1520 ∧ ((∀ x, s.sensor d idx = some x → x.excluded = false)) ∧ s.outlier d idx temp = false) :=
  ⟨⟨readyS, 7, by and_intros <;> decide +kernel⟩,
    ⟨readyS, 7, 0xF7, by and_intros <;> decide +kernel⟩,
    ⟨readyS, 7, 0xF8, by and_intros <;> decide +kernel⟩,
    ⟨{ fullS with power := { fullS.power with demands := [⟨7, 0x5F, .host⟩] } }, 7, 0x5F, 1519, by and_intros <;> decide +kernel⟩⟩

theorem witness_DormantIsEnteredAndLeft :
    (∃ (s : State), s.power.mode = .ready ∧ s.workInProgress = false) ∧
    (∃ (s : State), s.power.mode = .ready ∧ s.workInProgress = true) ∧
    (∃ (s : State), s.power.mode = .enteringDormant ∧ ((∀ k, k < 32 → (s.stack k).sr ≠ .waiting ∧ (s.stack k).sr ≠ .commanded)) ∧ s.power.heldWork = false) ∧
    (∃ (s : State), s.power.mode = .dormant) ∧
    (∃ (s : State), s.power.mode = .enteringDormant) ∧
    (∃ (s : State), s.power.mode = .waking) :=
  ⟨⟨fullS, by and_intros <;> decide +kernel⟩,
    ⟨{ fullS with mgmt := { fullS.mgmt with queue := [svnReq] } }, by and_intros <;> decide +kernel⟩,
    ⟨{ fullS with power := { fullS.power with mode := .enteringDormant } }, by and_intros <;> decide +kernel⟩,
    ⟨{ fullS with power := { fullS.power with mode := .dormant }, stackMap := [(31, { cleared with sr := .asleep })] }, by decide +kernel⟩,
    ⟨inMode .enteringDormant, by decide +kernel⟩,
    ⟨inMode .waking, by decide +kernel⟩⟩

theorem witness_FaultIsRecordedAndReported : ∃ (s : State), s.power.mode ≠ .off :=
  ⟨fullS, by decide +kernel⟩

theorem witness_DetectedFaultsReactAndTestsEnd :
    (∃ (d : Nat) (id : Nat) (u : FaultUnit), d < 8 ∧ faultIds.contains id = true ∧ (faultClass id = 0 ∨ faultClass id = 3) ∧ ((∀ c, u = .core c → id ≠ 0x0301))) ∧
    (∃ (s : State) (d : Nat) (c : Nat) (id : Nat), d < 8 ∧ faultIds.contains id = true ∧ faultClass id = 2 ∧ s.coreRetired d c = false) ∧
    (∃ (d : Nat) (id : Nat), d < 8 ∧ faultIds.contains id = true ∧ faultClass id = 2) ∧
    (∃ (d : Nat), d < 8) ∧
    (∃ (d : Nat) (ppm : Nat), d < 8 ∧ 10000 < ppm) ∧
    (∃ (ppm : Nat), ppm ≤ 10000) ∧
    (∃ (s : State) (d : Nat) (c : Nat) (x : SelfTest), (s.mgmt.tests.find? fun t => t.unit = ⟨5, d * 64 + c⟩ && t.started) = some x ∧ x.byMgmt = false ∧ ((∀ y, mfind s.fcu.lastD (d * 64 + c) = some y → y.2 = false))) ∧
    (∃ (s : State) (d : Nat) (c : Nat) (x : SelfTest), d < 8 ∧ c < 64 ∧ (s.mgmt.tests.find? fun t => t.unit = ⟨5, d * 64 + c⟩ && t.started) = some x ∧ x.byMgmt = false) ∧
    (∃ (s : State) (stk : Nat) (x : SelfTest), stk < 32 ∧ (s.mgmt.tests.find? fun t => t.unit = ⟨3, stk⟩ && !t.memory) = some x ∧ x.byMgmt = false) :=
  ⟨⟨7, 0xCF03, .core 63, by decide +kernel, by decide +kernel, by decide +kernel, by intro c _; decide⟩,
    ⟨fullS, 7, 63, 0x8201, by and_intros <;> decide +kernel⟩,
    ⟨7, 0x8F01, by and_intros <;> decide +kernel⟩,
    ⟨7, by decide +kernel⟩,
    ⟨7, 10001, by and_intros <;> decide +kernel⟩,
    ⟨10000, by decide +kernel⟩,
    ⟨testS 5 511 false, 7, 63, ⟨⟨5, 511⟩, false, false, true⟩, by and_intros <;> decide +kernel⟩,
    ⟨testS 5 511 false, 7, 63, ⟨⟨5, 511⟩, false, false, true⟩, by and_intros <;> decide +kernel⟩,
    ⟨testS 3 31 false, 31, ⟨⟨3, 31⟩, false, false, true⟩, by and_intros <;> decide +kernel⟩⟩

theorem witness_SafeStateIsEnteredServedAndLeft :
    (∃ (s : State) (d : Nat) (id : Nat) (rest : List (Nat × Nat)), s.fcu.safetyRing = (d, id) :: rest ∧ s.power.mode ≠ .safe ∧ s.power.mode ≠ .off) ∧
    (∃ (s : State), s.power.mode = .safe ∧ s.restartReady = true) ∧
    (∃ (s : State), s.power.mode = .safe ∧ s.restartReady = false) ∧
    (∃ (s : State), (s.fld 0 0 0 FCU_SAFE_CFG.RESTART = 0 ∨ s.power.busShut = true)) ∧
    (∃ (s : State), s.boot.locked = true ∧ s.power.mode ≠ .safe ∧ s.power.mode ≠ .off ∧ s.fld 0 0 0 FCU_PIN_CFG.MODE = 0 ∧ s.fld 0 0 0 FCU_PIN_HOLD.HOLD = 0) ∧
    (∃ (s : State), s.power.mode = .safe ∧ s.power.pulse = true ∧ s.boot.locked = true ∧ s.fld 0 0 0 FCU_PIN_CFG.MODE = 1 ∧ s.fld 0 0 0 FCU_PIN_HOLD.HOLD = 0) ∧
    (∃ (s : State), s.power.mode = .safe) ∧
    (∃ (s : State), s.power.mode = .safe) :=
  ⟨⟨{ fullS with fcu := { fullS.fcu with safetyRing := [(7, 0xCC02), (1, 0xCD01)] } }, 7, 0xCC02, [(1, 0xCD01)], by and_intros <;> decide +kernel⟩,
    ⟨(safeS.setFld 0 0 0 FCU_SAFE_CFG.RESTART 1).setFld 0 0 0 PTM_INPUT.VOLTAGE 6000, by and_intros <;> decide +kernel⟩,
    ⟨safeS, by and_intros <;> decide +kernel⟩,
    ⟨safeS.setFld 0 0 0 FCU_SAFE_CFG.RESTART 0, by decide +kernel⟩,
    ⟨fullS.setFld 0 0 0 FCU_PIN_CFG.MODE 0, by and_intros <;> decide +kernel⟩,
    ⟨safeS.setFld 0 0 0 FCU_PIN_CFG.MODE 1, by and_intros <;> decide +kernel⟩,
    ⟨safeS, by decide +kernel⟩,
    ⟨safeS, by decide +kernel⟩⟩

theorem witness_PinHoldKeepsFaultLow :
    (∃ (s : State), s.fld 0 0 0 FCU_PIN_HOLD.HOLD = 1) ∧
    (∃ (s : State), s.power.pin = .low ∧ s.fld 0 0 0 FCU_PIN_HOLD.HOLD = 1) ∧
    (∃ (s : State), s.power.mode ≠ .off ∧ s.power.mode ≠ .safe ∧ s.fcu.safetyRing ≠ [] ∧ s.fld 0 0 0 FCU_PIN_HOLD.HOLD = 1) ∧
    (∃ (s : State), s.power.mode = .safe ∧ s.power.pulse = true ∧ s.fld 0 0 0 FCU_PIN_HOLD.HOLD = 1) ∧
    (∃ (s : State), s.power.mode ≠ .off) ∧
    (∃ (s : State), s.power.mode = .off) :=
  ⟨⟨safeS.setFld 0 0 0 FCU_PIN_HOLD.HOLD 1, by decide +kernel⟩,
    ⟨{ fullS with power := { fullS.power with pin := .low }, regs := (fullS.setFld 0 0 0 FCU_PIN_HOLD.HOLD 1).regs }, by and_intros <;> decide +kernel⟩,
    ⟨{ (fullS.setFld 0 0 0 FCU_PIN_HOLD.HOLD 1) with fcu := { fullS.fcu with safetyRing := [(7, 0xCC02), (1, 0xCD01)] } }, by and_intros <;> decide +kernel⟩,
    ⟨safeS.setFld 0 0 0 FCU_PIN_HOLD.HOLD 1, by and_intros <;> decide +kernel⟩,
    ⟨safeS, by decide +kernel⟩,
    ⟨inMode .off, by decide +kernel⟩⟩

theorem witness_LinksRetrainAndGoDown :
    (∃ (s : State) (d : Nat) (n : Nat) (e : Option Nat), d < 8 ∧ linkName d e = some n ∧ s.fcu.linksDown.contains n = false ∧ ((∀ x, mfind s.fcu.linkParity n = some x → x + 100000000 < s.time d))) ∧
    (∃ (s : State) (d : Nat) (n : Nat) (l : Nat) (x : Nat), d < 8 ∧ linkName d (some l) = some n ∧ s.fcu.linksDown.contains n = false ∧ mfind s.fcu.linkParity n = some x ∧ s.time d ≤ x + 100000000) ∧
    (∃ (s : State) (d : Nat) (n : Nat) (e : Option Nat), linkName d e = some n ∧ s.fcu.retraining.contains n = true) ∧
    (∃ (s : State) (n : Nat), n < 10 ∧ (mfind s.fcu.linkParity n).isSome = true ∧ s.fcu.linksDown.contains n = false) :=
  ⟨⟨fullS, 7, 23, none, by and_intros <;> decide +kernel⟩,
    ⟨{ fullS with fcu := { fullS.fcu with linkParity := [((dieLinks 7).head!, 100000000)] } }, 7, (dieLinks 7).head!, 0, 100000000, by and_intros <;> decide +kernel⟩,
    ⟨{ fullS with fcu := { fullS.fcu with retraining := [23] } }, 7, 23, none, by and_intros <;> decide +kernel⟩,
    ⟨{ fullS with fcu := { fullS.fcu with linkParity := [(9, 100000000)] } }, 9, by and_intros <;> decide +kernel⟩⟩

theorem witness_MemoryIsReadAndWritten :
    (∃ (s : State) (ag : Agent) (a : Nat) (n : Nat), s.power.mode = .ready ∧ agentInternal ag = true ∧ 0 < n ∧ (∀ p ∈ piecesOf a n, s.reaches ag (s.resolve p.1) = true) ∧ (∀ q ∈ s.memLines a n, (s.stack (placedStack q)).stopped = false) ∧ s.ready ag a n false = true ∧ s.anyPoison a n = false) ∧
    (∃ (s : State) (ag : Agent) (a : Nat) (data : List Byte), s.power.mode = .ready ∧ agentInternal ag = true ∧ 0 < data.length ∧ (∀ p ∈ piecesOf a data.length, s.reaches ag (s.resolve p.1) = true) ∧ (∀ q ∈ s.memLines a data.length, (s.stack (placedStack q)).stopped = false) ∧ s.ready ag a data.length true = true) ∧
    (∃ (s : State) (ag : Agent) (a : Nat) (n : Nat), s.power.mode = .ready ∧ agentInternal ag = true ∧ (a < 0x300000000000 ∨ 0x3F0080000000 ≤ a) ∧ (∃ p ∈ piecesOf a n, s.pieceOk ag p = false)) ∧
    (∃ (s : State) (ag : Agent) (a : Nat) (data : List Byte), s.power.mode = .ready ∧ agentInternal ag = true ∧ 0 < data.length ∧ (a < 0x300000000000 ∨ 0x3F0080000000 ≤ a) ∧ (∀ p ∈ piecesOf a data.length, s.pieceOk ag p = false)) ∧
    (∃ (s : State) (ag : Agent) (a : Nat) (data : List Byte), s.power.mode = .ready ∧ agentInternal ag = true ∧ (a < 0x300000000000 ∨ 0x3F0080000000 ≤ a) ∧ (∃ p ∈ piecesOf a data.length, s.pieceOk ag p = true) ∧ (∃ p ∈ piecesOf a data.length, s.pieceOk ag p = false) ∧ (∀ q ∈ s.pieceLines ((piecesOf a data.length).filter (s.pieceOk ag)), s.bankServes (agentDie ag) (bankOf q) = true ∧ s.needs ag q true = [])) :=
  ⟨⟨fullS, .engine 7 63 5, 0x100000000001, 200, by and_intros <;> decide +kernel⟩,
    ⟨fullS, .engine 7 63 5, 0x100000000001, List.replicate 100 5, by and_intros <;> decide +kernel⟩,
    ⟨fullS, .engine 7 63 5, 0x030000000000, 1, by and_intros <;> decide +kernel⟩,
    ⟨fullS, .engine 7 63 5, 0x030000000000, [1], by and_intros <;> decide +kernel⟩,
    ⟨fullS, .loader, 0x0FFFFFFFFFF0, List.replicate 100 5, by and_intros <;> decide +kernel⟩⟩

theorem witness_RegisterSpaceTakesAlignedWordsOnly :
    (∃ (s : State) (ag : Agent) (a : Nat) (d : Nat) (off : Nat) (n : Nat), s.power.mode ≠ .off ∧ s.power.mode ≠ .standby ∧ agentInternal ag = true ∧ s.resolve a = .reg d off ∧ (off % 4 ≠ 0 ∨ n ≠ 4)) ∧
    (∃ (s : State) (ag : Agent) (a : Nat) (d : Nat) (off : Nat) (data : List Byte), s.power.mode ≠ .off ∧ s.power.mode ≠ .standby ∧ agentInternal ag = true ∧ s.resolve a = .reg d off ∧ (off % 4 ≠ 0 ∨ data.length ≠ 4)) ∧
    (∃ (s : State) (port : Nat) (o : Nat) (n : Nat), s.power.mode ≠ .off ∧ s.power.mode ≠ .standby ∧ o < 0x80000000 ∧ s.fld port 0 0 HP_CFG.REGS ≠ 0 ∧ (∀ h ∈ s.mem.held, ∀ i, h.ag ≠ .host port i) ∧ (o % 4 ≠ 0 ∨ n ≠ 4)) ∧
    (∃ (s : State) (port : Nat) (o : Nat) (data : List Byte), s.power.mode ≠ .off ∧ s.power.mode ≠ .standby ∧ o < 0x80000000 ∧ s.fld port 0 0 HP_CFG.REGS ≠ 0 ∧ (∀ h ∈ s.mem.held, ∀ i, h.ag ≠ .host port i) ∧ (o % 4 ≠ 0 ∨ data.length ≠ 4)) :=
  ⟨⟨safeS, .engine 7 63 5, 0x3F007FFFFFFE, 7, 0xFFFFFFE, 4, by and_intros <;> decide +kernel⟩,
    ⟨fullS, .engine 7 63 5, 0x3F007FFFFFFC, 7, 0xFFFFFFC, [1, 2], by and_intros <;> decide +kernel⟩,
    ⟨fullS.setFld 0 0 0 HP_CFG.REGS 2, 0, 0x7FFFFFFE, 4, by decide +kernel, by decide +kernel, by decide +kernel, (by decide +kernel), (by intro h hm; cases hm), by decide +kernel⟩,
    ⟨safeS.setFld 7 0 0 HP_CFG.REGS 1, 7, 0x7FFFFFFC, [1], by decide +kernel, by decide +kernel, by decide +kernel, (by decide +kernel), (by intro h hm; cases hm), by decide +kernel⟩⟩

theorem witness_HostsGiveLinesBack :
    (∃ (s : State) (d : Nat) (e : DirEntry), s.dirFull d = true ∧ (s.mem.dir.find? fun x => placedStack (x.line * 64) / 4 = d) = some e) ∧
    (∃ (s : State) (port : Nat) (line : Nat) (x : Snoop), (s.mem.snoops.find? fun y => y.port = port && y.line = line) = some x ∧ x.kind = .backInvalidate) ∧
    (∃ (s : State) (port : Nat) (line : Nat) (x : Snoop), (s.mem.snoops.find? fun y => y.port = port && y.line = line) = some x ∧ x.kind ≠ .backInvalidate) :=
  ⟨⟨dirS, 7, dir0, by
    have h : placedStack (dir0.line * 64) / 4 = 7 := by decide +kernel
    simp only [State.dirFull, State.dirCount, dirS, List.filter_replicate, h, decide_true, if_true, List.length_replicate, Nat.le_refl], by decide +kernel⟩,
    ⟨{ fullS with mem := { fullS.mem with snoops := [⟨7, 0x4000000000, .backInvalidate⟩], dir := [⟨0x4000000000, [(7, true)]⟩] } }, 7, 0x4000000000, ⟨7, 0x4000000000, .backInvalidate⟩, by and_intros <;> decide +kernel⟩,
    ⟨{ fullS with mem := { fullS.mem with snoops := [⟨7, 0x4000000000, .rdOwn⟩], dir := [⟨0x4000000000, [(7, true)]⟩] } }, 7, 0x4000000000, ⟨7, 0x4000000000, .rdOwn⟩, by and_intros <;> decide +kernel⟩⟩

theorem witness_BankEventsRefreshAndTimers :
    (∃ (s : State) (b : BankId) (row : Nat), (s.bank b).cmd = some (.opening row)) ∧
    (∃ (s : State) (b : BankId) (n : Nat) (r : BankReq), (s.bank b).cmd = some (.column n) ∧ (s.bank b).queue[n]? = some r ∧ r.columns ≤ 1) ∧
    (∃ (s : State) (b : BankId) (n : Nat) (r : BankReq), (s.bank b).cmd = some (.column n) ∧ (s.bank b).queue[n]? = some r ∧ 1 < r.columns) ∧
    (∃ (s : State) (b : BankId) (n : Nat), (s.bank b).cmd = some (.column n) ∧ b.stk < 32 ∧ placedStack (s.columnAddr b) = b.stk) ∧
    (∃ (s : State) (b : BankId) (n : Nat) (symbols : Nat), (s.bank b).cmd = some (.column n) ∧ b.stk < 32 ∧ placedStack (s.columnAddr b) = b.stk ∧ 2 ≤ symbols ∧ (s.stack b.stk).recoverable (placedDie (s.columnAddr b)) (placedBank (s.columnAddr b)) (rowPos (s.columnAddr b)) = true) ∧
    (∃ (s : State) (b : BankId) (n : Nat) (symbols : Nat), (s.bank b).cmd = some (.column n) ∧ b.stk < 32 ∧ placedStack (s.columnAddr b) = b.stk ∧ 2 ≤ symbols ∧ (s.stack b.stk).recoverable (placedDie (s.columnAddr b)) (placedBank (s.columnAddr b)) (rowPos (s.columnAddr b)) = false) ∧
    (∃ (s : State) (b : BankId), (s.bank b).cmd = some .closing) ∧
    (∃ (s : State) (b : BankId), (s.bank b).cmd = some .refreshing ∧ (s.bank b).burst ≠ 0) ∧
    (∃ (s : State) (b : BankId), (s.bank b).cmd = some .refreshing ∧ (s.bank b).burst = 0) ∧
    (∃ (s : State) (b : BankId) (j : SeqJob) (x : Bau) (l : List Byte) (rest : List (List Byte)), s.seqAt b = some j ∧ s.seqOf j.id = some j ∧ j.ran = true ∧ mfind s.baus (bankKey b) = some x ∧ x.fifo = l :: rest) ∧
    (∃ (s : State), (∀ j ∈ s.seqs, j.token = false)) ∧
    (∃ (s : State) (b : BankId), (s.bank b).cmd = none) ∧
    (∃ (s : State) (b : BankId), bankExists b = true ∧ (s.stack b.stk).sr = .awake ∧ ((s.bank b).busy = true ∨ s.seqHolds b = true) ∧ (s.bank b).debt < 8) ∧
    (∃ (s : State) (b : BankId), bankExists b = true ∧ (s.stack b.stk).sr = .awake ∧ 8 ≤ (s.bank b).debt) ∧
    (∃ (s : State) (b : BankId), bankExists b = true ∧ (s.stack b.stk).sr = .awake ∧ (s.bank b).busy = false ∧ s.seqHolds b = false ∧ (s.bank b).debt < 8) ∧
    (∃ (s : State) (b : BankId), ((s.stack b.stk).sr = .asleep ∨ (s.stack b.stk).sr = .waking)) ∧
    (∃ (s : State) (b : BankId) (n : Nat), n < (s.bank b).queue.length) ∧
    (∃ (s : State) (b : BankId), (s.bank b).idle = true ∧ (s.bank b).cmd = none ∧ s.seqHolds b = false ∧ s.channelHeld b = false) :=
  ⟨⟨bankS { freshBank with cmd := some (.opening 5), queue := [req 4 1 false, req 5 2 false] }, bk, 5, by decide +kernel⟩,
    ⟨bankS { freshBank with cmd := some (.column 1), openRow := some 5, queue := [req 4 1 false, req 5 1 false] }, bk, 1, (((bankS { freshBank with cmd := some (.column 1), openRow := some 5, queue := [req 4 1 false, req 5 1 false] }).bank bk).queue[1]?).get (by decide +kernel), by decide +kernel, some_get, by decide +kernel⟩,
    ⟨bankS { freshBank with cmd := some (.column 1), openRow := some 5, queue := [req 4 1 false, req 5 3 false] }, bk, 1, (((bankS { freshBank with cmd := some (.column 1), openRow := some 5, queue := [req 4 1 false, req 5 3 false] }).bank bk).queue[1]?).get (by decide +kernel), by decide +kernel, some_get, by decide +kernel⟩,
    ⟨bankS { freshBank with cmd := some (.column 1), openRow := some 5, queue := [req 4 1 false, req 5 3 false] }, bk, 1, by and_intros <;> decide +kernel⟩,
    ⟨bankS { freshBank with cmd := some (.column 1), openRow := some 5, queue := [req 4 1 false, req 5 3 false] }, bk, 1, 2, by and_intros <;> decide +kernel⟩,
    ⟨({ bankS { freshBank with cmd := some (.column 1), openRow := some 5, queue := [req 4 1 false, req 5 3 false] } with stackMap := mput allStacks 31 { cleared with parity := false, parityFailed := true } } : State), bk, 1, 2, by and_intros <;> decide +kernel⟩,
    ⟨bankS { freshBank with cmd := some .closing, openRow := some 5, queue := [req 4 1 false] }, bk, by decide +kernel⟩,
    ⟨bankS { freshBank with cmd := some .refreshing, burst := 3, queue := [req 4 1 false] }, bk, by and_intros <;> decide +kernel⟩,
    ⟨bankS { freshBank with cmd := some .refreshing, debt := 3, queue := [req 4 1 false] }, bk, by and_intros <;> decide +kernel⟩,
    ⟨{ fullS with seqs := [{ jobS true true with stream := List.replicate 144 7, taken := 0 }], baus := [(bankKey bk, { freshBau .loader none with fifo := [List.replicate 64 1, List.replicate 64 2] })] }, bk, { jobS true true with stream := List.replicate 144 7, taken := 0 }, { freshBau .loader none with fifo := [List.replicate 64 1, List.replicate 64 2] }, List.replicate 64 1, [List.replicate 64 2], by and_intros <;> decide +kernel⟩,
    ⟨fullS, by decide +kernel⟩,
    ⟨holdS, bk, by decide +kernel⟩,
    ⟨bankS { freshBank with debt := 7, queue := [req 5 1 false], cmd := some (.opening 5) }, bk, by and_intros <;> decide +kernel⟩,
    ⟨bankS { freshBank with debt := 8, cmd := some .closing, queue := [req 5 1 false] }, bk, by and_intros <;> decide +kernel⟩,
    ⟨bankS { freshBank with debt := 7, openRow := some 5 }, bk, by and_intros <;> decide +kernel⟩,
    ⟨stackS { cleared with sr := .asleep }, bk, by decide +kernel⟩,
    ⟨bankS { freshBank with queue := [req 5 1 false, req 6 1 false] }, bk, 1, by decide +kernel⟩,
    ⟨bankS { freshBank with idle := true, openRow := some 5 }, bk, by and_intros <;> decide +kernel⟩⟩

theorem witness_BanksServeInRankOrder :
    (∃ (x : Bank) (p : BankReq → Bool) (n : Nat), x.first p = some n) ∧
    (∃ (x : Bank) (n : Nat), x.pick = some n) ∧
    (∃ (x : Bank), x.cmd = none ∧ x.burst ≠ 0) ∧
    (∃ (x : Bank), x.cmd = none ∧ x.burst = 0) ∧
    (∃ (x : Bank) (n : Nat) (r : BankReq), x.cmd = none ∧ x.burst = 0 ∧ x.pick = some n ∧ x.queue[n]? = some r) ∧
    (∃ (x : Bank), x.cmd = none ∧ x.burst = 0 ∧ x.pick = none) ∧
    (∃ (x : Bank), x.cmd.isSome = true) :=
  ⟨⟨{ freshBank with queue := [req 1 1 false, req 2 1 true, req 3 1 true] }, (fun r => r.seq.isNone), 1, by decide +kernel⟩,
    ⟨{ freshBank with queue := [req 1 1 false, req 2 1 true, req 3 1 true] }, 1, by decide +kernel⟩,
    ⟨{ freshBank with burst := 1 }, by and_intros <;> decide +kernel⟩,
    ⟨{ freshBank with queue := [req 1 1 false], debt := 3 }, by and_intros <;> decide +kernel⟩,
    ⟨{ freshBank with queue := [req 1 1 false, req 2 1 true, req 3 1 true] }, 1, (({ freshBank with queue := [req 1 1 false, req 2 1 true, req 3 1 true] }).queue[1]?).get (by decide +kernel), by decide +kernel, by decide +kernel, by decide +kernel, some_get⟩,
    ⟨{ freshBank with debt := 0 }, by and_intros <;> decide +kernel⟩,
    ⟨{ freshBank with cmd := some .closing, queue := [req 1 1 false] }, by decide +kernel⟩⟩

theorem witness_StacksSleepAndChannelsAreRepaired :
    (∃ (s : State) (k : Nat), k < 32 ∧ (s.stack k).sr = .waiting ∧ (∀ kb ∈ s.banksOf k, kb.2.queue = []) ∧ s.actHeld k = 0) ∧
    (∃ (s : State) (k : Nat), k < 32 ∧ (s.stack k).sr = .commanded ∧ ((s.stack k).stopped = true ∨ s.power.mode = .enteringDormant ∨ s.power.mode = .dormant ∨ s.power.mode = .safe)) ∧
    (∃ (s : State) (k : Nat), k < 32 ∧ (s.stack k).sr = .commanded ∧ (s.stack k).stopped = false ∧ s.power.mode = .ready) ∧
    (∃ (s : State) (k : Nat), k < 32 ∧ (s.stack k).sr = .waking) ∧
    (∃ (s : State) (k : Nat), k < 32 ∧ (s.stack k).sr ≠ .asleep) ∧
    (∃ (s : State) (k : Nat), k < 32 ∧ s.power.rails = true ∧ (s.stack k).sr ≠ .asleep) ∧
    (∃ (k : Nat) (ch : Nat), k < 32 ∧ ch < 64) ∧
    (∃ (b : BankId), b.stk < 32 ∧ b.die < 16 ∧ b.bank < 64) ∧
    (∃ (b : BankId), b.stk < 32 ∧ b.die < 16 ∧ b.bank < 64) ∧
    (∃ (s : State) (k : Nat) (ch : Nat) (c : Channel), k < 32 ∧ ch < 64 ∧ c = mget freshChannel (s.stack k).channels ch ∧ c.dataUsed < 4) ∧
    (∃ (s : State) (k : Nat) (ch : Nat) (c : Channel), k < 32 ∧ ch < 64 ∧ c = mget freshChannel (s.stack k).channels ch ∧ 4 ≤ c.dataUsed) ∧
    (∃ (s : State) (k : Nat) (ch : Nat) (c : Channel), k < 32 ∧ ch < 64 ∧ c = mget freshChannel (s.stack k).channels ch ∧ c.controlUsed < 2) :=
  ⟨⟨stackS { cleared with sr := .waiting }, 31, by and_intros <;> decide +kernel⟩,
    ⟨stackS { cleared with sr := .commanded, stopped := true }, 31, by and_intros <;> decide +kernel⟩,
    ⟨stackS { cleared with sr := .commanded }, 31, by and_intros <;> decide +kernel⟩,
    ⟨stackS { cleared with sr := .waking }, 31, by and_intros <;> decide +kernel⟩,
    ⟨fullS, 31, by and_intros <;> decide +kernel⟩,
    ⟨fullS, 31, by and_intros <;> decide +kernel⟩,
    ⟨31, 63, by and_intros <;> decide +kernel⟩,
    ⟨bk, by and_intros <;> decide +kernel⟩,
    ⟨bk, by and_intros <;> decide +kernel⟩,
    ⟨stackS { cleared with channels := [(63, { freshChannel with dataUsed := 3, faulty := true })] }, 31, 63, { freshChannel with dataUsed := 3, faulty := true }, by and_intros <;> decide +kernel⟩,
    ⟨stackS { cleared with channels := [(63, { freshChannel with dataUsed := 4, faulty := true })] }, 31, 63, { freshChannel with dataUsed := 4, faulty := true }, by and_intros <;> decide +kernel⟩,
    ⟨stackS { cleared with channels := [(63, { freshChannel with controlUsed := 1, faulty := true })] }, 31, 63, { freshChannel with controlUsed := 1, faulty := true }, by and_intros <;> decide +kernel⟩⟩

theorem witness_StacksAreScrubbedRebuiltAndRetired :
    (∃ (s : State) (k : Nat), k < 32 ∧ (s.stack k).cleared = true ∧ (s.stack k).sr = .awake) ∧
    (∃ (s : State) (k : Nat), ((∀ b : BankId, b.stk = k → s.seqHolds b = false ∧ (s.bank b).burst = 0 ∧ (s.bank b).cmd = none ∧ (s.bank b).queue = []))) ∧
    (∃ (s : State) (k : Nat) (p : Nat), k < 32 ∧ (s.stack k).stopped = false ∧ (s.stack k).rebuild = some p ∧ p + 1 < 6291456 ∧ ((∀ die, die < 17 → s.seqHolds ⟨k, die, p % 64⟩ = false ∧ (s.bank ⟨k, die, p % 64⟩).burst = 0))) ∧
    (∃ (s : State) (k : Nat), k < 32 ∧ (s.stack k).stopped = false ∧ (s.stack k).rebuild = some 6291455 ∧ ((∀ die, die < 17 → s.seqHolds ⟨k, die, 63⟩ = false ∧ (s.bank ⟨k, die, 63⟩).burst = 0))) ∧
    (∃ (s : State) (b : BankId), b.stk < 32 ∧ b.die < 16 ∧ b.bank < 64 ∧ (s.stack b.stk).bankOut b.die b.bank = false ∧ (s.stack b.stk).parity = true ∧ (s.stack b.stk).rebuild = none ∧ (∀ q ∈ (s.stack b.stk).recon, q.2 ≠ b.bank) ∧ (s.stack b.stk).lost = []) ∧
    (∃ (s : State) (b : BankId), b.stk < 32 ∧ b.die < 16 ∧ b.bank < 64 ∧ (s.stack b.stk).bankOut b.die b.bank = false ∧ (s.stack b.stk).parity = false) ∧
    (∃ (s : State) (b : BankId), (⟨b.die, b.bank, false⟩ : Spare) ∈ (s.stack b.stk).spares) ∧
    (∃ (s : State) (k : Nat) (die : Nat), k < 32 ∧ die < 16 ∧ (s.stack k).retired = none ∧ (s.stack k).lost = [] ∧ (s.stack k).recon = [] ∧ (s.stack k).parity = true) ∧
    (∃ (s : State) (k : Nat), k < 32 ∧ (s.stack k).parityFailed = false) :=
  ⟨⟨fullS, 31, by and_intros <;> decide +kernel⟩,
    ⟨fullS, 31, fun b _ => ⟨rfl, rfl, rfl, rfl⟩⟩,
    ⟨stackS { cleared with retired := some 3, rebuild := some 6291454 }, 31, 6291454, by and_intros <;> decide +kernel⟩,
    ⟨stackS { cleared with retired := some 3, rebuild := some 6291455 }, 31, by and_intros <;> decide +kernel⟩,
    ⟨fullS, bk, by and_intros <;> decide +kernel⟩,
    ⟨stackS { cleared with parity := false, parityFailed := true }, bk, by and_intros <;> decide +kernel⟩,
    ⟨stackS { cleared with spares := [⟨15,63,false⟩], recon := [(15, 63)] }, bk, by decide +kernel⟩,
    ⟨fullS, 31, 15, by and_intros <;> decide +kernel⟩,
    ⟨fullS, 31, by and_intros <;> decide +kernel⟩⟩

theorem witness_SequencesRunFromDescriptorsAndSlots :
    (∃ (s : State) (src : Agent) (desc : List Byte) (st : Nat) (why : Nat), agentInternal src = true ∧ s.power.mode = .ready ∧ s.seqCheck src none none ⟨padTo 64 0 desc⟩ = some (st, why)) ∧
    (∃ (s : State) (src : Agent) (desc : List Byte), agentInternal src = true ∧ s.power.mode = .ready ∧ s.seqCheck src none none ⟨padTo 64 0 desc⟩ = none ∧ (⟨padTo 64 0 desc⟩ : Desc).cont = false) ∧
    (∃ (s : State) (k : Nat) (j : SeqJob), k < 32 ∧ s.power.mode ≠ .safe ∧ s.actHeld k < s.actEffective k ∧ s.bauTesting k = false ∧ s.seqPick k = some j ∧ (∀ p ∈ j.d.rowLines, s.hostBiasPort p = none)) ∧
    (∃ (s : State) (k : Nat) (j : SeqJob) (p : Nat), k < 32 ∧ s.power.mode ≠ .safe ∧ s.actHeld k < s.actEffective k ∧ s.bauTesting k = false ∧ s.seqPick k = some j ∧ p ∈ j.d.rowLines ∧ (s.hostBiasPort p).isSome = true) ∧
    (∃ (s : State) (id : Nat) (j : SeqJob), s.seqOf id = some j ∧ s.seqRuns j = true) ∧
    (∃ (s : State) (id : Nat) (j : SeqJob), s.seqOf id = some j ∧ s.seqEnds j = true) ∧
    (∃ (s : State) (p : Nat) (d : Nat) (n : Nat) (data : List Byte), p < 8 ∧ d < 8 ∧ n < 4096 ∧ s.power.mode = .ready ∧ (∀ h ∈ s.mem.held, ∀ i, h.ag ≠ .host p i) ∧ s.ownsSlot p d n = true ∧ (s.slot d n).state ≠ 1 ∧ data.length = 64) ∧
    (∃ (s : State) (p : Nat) (d : Nat) (n : Nat) (data : List Byte), p < 8 ∧ d < 8 ∧ n < 4096 ∧ s.power.mode = .ready ∧ (∀ h ∈ s.mem.held, ∀ i, h.ag ≠ .host p i) ∧ s.ownsSlot p d n = true ∧ (s.slot d n).state ≠ 1 ∧ data.length < 64) ∧
    (∃ (s : State) (p : Nat) (d : Nat) (n : Nat) (off : Nat) (data : List Byte), p < 8 ∧ d < 8 ∧ n < 4096 ∧ off < 64 ∧ off + data.length ≤ 128 ∧ s.power.mode = .ready ∧ (∀ h ∈ s.mem.held, ∀ i, h.ag ≠ .host p i) ∧ s.ownsSlot p d n = true ∧ (s.slot d n).state = 1) :=
  ⟨⟨fullS, .loader, List.replicate 64 0, 3, 2, by and_intros <;> decide +kernel⟩,
    ⟨fullS, .loader, smaxDesc, by and_intros <;> decide +kernel⟩,
    ⟨{ fullS with seqs := [jobS false false], seqNext := 4, banks := [(bankKey bk, { freshBank with queue := [(jobS false false).request] })] }, 31, jobS false false, by and_intros <;> decide +kernel⟩,
    ⟨({ fullS with seqs := [{ jobS false false with desc := splice smaxDesc 18 [0, 0] }], seqNext := 4, banks := [(bankKey bk, { freshBank with queue := [(jobS false false).request] })], ports := [(7, biasP)], cfg := some { record0 with sections := record0.sections.map fun x => if x.type = 2 then { x with entries := [.hostPort 7 3 2 0 0, .range 7 (placedAddr 31 15 63 0 0) 0x20000] } else x } } : State), 31, { jobS false false with desc := splice smaxDesc 18 [0, 0] }, placedAddr 31 15 63 5 0, by and_intros <;> decide +kernel⟩,
    ⟨{ fullS with seqs := [jobS true false], seqNext := 4, baus := [(bankKey bk, freshBau .loader none)] }, 3, jobS true false, by and_intros <;> decide +kernel⟩,
    ⟨{ fullS with seqs := [jobS true true], seqNext := 4 }, 3, jobS true true, by and_intros <;> decide +kernel⟩,
    ⟨seqwS, 7, 7, 4095, smaxDesc, by decide +kernel, by decide +kernel, by decide +kernel, (by decide +kernel), (by intro h hm; cases hm), by and_intros <;> decide +kernel⟩,
    ⟨seqwS, 7, 7, 4095, smaxDesc.drop 1, by decide +kernel, by decide +kernel, by decide +kernel, (by decide +kernel), (by intro h hm; cases hm), by and_intros <;> decide +kernel⟩,
    ⟨{ seqwS with slots := [(7 * 4096 + 4095, ⟨1, []⟩)], seqs := [jobS true false] }, 7, 7, 4095, 63, [1], by decide +kernel, by decide +kernel, by decide +kernel, (by decide +kernel), by decide +kernel, by decide +kernel, (by intro h hm; cases hm), by and_intros <;> decide +kernel⟩⟩

theorem witness_StreamsOpenBlocksTogether :
    (∃ (s : State) (d : Nat) (c : Nat) (x : Bool) (k : Core), k = s.core d c ∧ k.atBlock x = true ∧ k.faulted = none ∧ (k.stream !x).inBlock = false ∧ k.atBlock (!x) = true ∧ Enc7.replays (k.next x) = Enc7.replays (k.next !x)) ∧
    (∃ (s : State) (d : Nat) (c : Nat) (x : Bool) (k : Core), k = s.core d c ∧ k.atBlock x = true ∧ k.faulted = none ∧ (k.stream !x).inBlock = true ∧ (k.stream !x).blocks = (k.stream x).blocks + 1) ∧
    (∃ (s : State) (d : Nat) (c : Nat) (x : Bool) (k : Core), k = s.core d c ∧ k.atBlock x = true ∧ k.faulted = none ∧ (k.stream !x).inBlock = false ∧ k.atBlock (!x) = true ∧ Enc7.replays (k.next x) ≠ Enc7.replays (k.next !x)) ∧
    (∃ (s : State) (d : Nat) (c : Nat) (x : Bool) (k : Core), k = s.core d c ∧ (k.stream x).running = true ∧ (k.stream x).inBlock = false ∧ k.faulted = none ∧ Enc7.opc (k.next x) = Enc7.opEND) :=
  ⟨⟨coreS ({ core0 with sa := outS 4094 3, sx := outS 4094 3, amem := [(4094, wd 1 (3 * 2 ^ 96 + 9 * 2 ^ 32))], xmem := [(4094, wd 1 (3 * 2 ^ 96 + 9 * 2 ^ 32))] }), 7, 63, false, (coreS ({ core0 with sa := outS 4094 3, sx := outS 4094 3, amem := [(4094, wd 1 (3 * 2 ^ 96 + 9 * 2 ^ 32))], xmem := [(4094, wd 1 (3 * 2 ^ 96 + 9 * 2 ^ 32))] })).core 7 63, by and_intros <;> decide +kernel⟩,
    ⟨coreS ({ core0 with sa := outS 4094 0, sx := strm 5 false, amem := [(4094, wd 1 (3 * 2 ^ 96 + 9 * 2 ^ 32))] }), 7, 63, false, (coreS ({ core0 with sa := outS 4094 0, sx := strm 5 false, amem := [(4094, wd 1 (3 * 2 ^ 96 + 9 * 2 ^ 32))] })).core 7 63, by and_intros <;> decide +kernel⟩,
    ⟨coreS ({ core0 with sa := outS 4094 3, sx := outS 4094 3, amem := [(4094, wd 1 (3 * 2 ^ 96 + 9 * 2 ^ 32))], xmem := [(4094, wd 1 (9 * 2 ^ 96))] }), 7, 63, true, (coreS ({ core0 with sa := outS 4094 3, sx := outS 4094 3, amem := [(4094, wd 1 (3 * 2 ^ 96 + 9 * 2 ^ 32))], xmem := [(4094, wd 1 (9 * 2 ^ 96))] })).core 7 63, by and_intros <;> decide +kernel⟩,
    ⟨coreS ({ core0 with sa := outS 4095 3, sx := outS 1 3, amem := [(4095, wd 3 0)], cc := { freshCtl with mode := 3, entry := 4 } }), 7, 63, false, (coreS ({ core0 with sa := outS 4095 3, sx := outS 1 3, amem := [(4095, wd 3 0)], cc := { freshCtl with mode := 3, entry := 4 } })).core 7 63, by and_intros <;> decide +kernel⟩⟩

theorem witness_ReplaysAdvanceAndArePatched :
    (∃ (s : State) (d : Nat) (c : Nat) (x : Bool) (k : Core), k = s.core d c ∧ (k.stream x).running = true ∧ (k.stream x).inBlock = true ∧ (k.stream x).closed = false ∧ Enc7.opc (k.next x) = Enc7.opENDBLOCK ∧ k.faulted = none ∧ k.patchDue = none ∧ k.inOcall = false ∧ k.hold = none) ∧
    (∃ (s : State) (d : Nat) (c : Nat) (r : Nat) (x : Bool) (k : Core), k = s.core d c ∧ (k.stream x).running = true ∧ (k.stream x).inBlock = true ∧ (k.stream x).closed = true ∧ k.faulted = none ∧ r = (k.stream x).replay + 1 ∧ r < (k.stream x).replays ∧ r < k.checked + 4) ∧
    (∃ (s : State) (d : Nat) (c : Nat) (x : Bool), (s.core d c).checked + 4 ≤ ((s.core d c).stream x).replay + 1) ∧
    (∃ (s : State) (d : Nat) (c : Nat) (r : Nat) (k : Core), k = s.core d c ∧ k.patchDue = some r ∧ k.cc.call = none ∧ k.faulted = none) ∧
    (∃ (ps : List Nat) (n : Nat) (w : Nat), ps[n]? = some w) :=
  ⟨⟨coreS (aS 2 0), 7, 63, false, (coreS (aS 2 0)).core 7 63, by and_intros <;> decide +kernel⟩,
    ⟨coreS ({ aS 2 0 with sa := strm 4095 true }), 7, 63, (((coreS ({ aS 2 0 with sa := strm 4095 true })).core 7 63).stream false).replay + 1, false, (coreS ({ aS 2 0 with sa := strm 4095 true })).core 7 63, by decide +kernel, by decide +kernel, by decide +kernel, (by decide +kernel), by decide +kernel, rfl, by and_intros <;> decide +kernel⟩,
    ⟨coreS ({ aS 2 0 with sa := { strm 4095 true with replay := 9 }, checked := 6 }), 7, 63, false, by decide +kernel⟩,
    ⟨coreS ({ aS 2 0 with patchDue := some 2, patchAt := 4, patchCount := 2, cc := { freshCtl with dmem := [(64,2),(68,63),(72,9)] } }), 7, 63, (((coreS ({ aS 2 0 with patchDue := some 2, patchAt := 4, patchCount := 2, cc := { freshCtl with dmem := [(64,2),(68,63),(72,9)] } })).core 7 63).patchDue).get (by decide +kernel), (coreS ({ aS 2 0 with patchDue := some 2, patchAt := 4, patchCount := 2, cc := { freshCtl with dmem := [(64,2),(68,63),(72,9)] } })).core 7 63, by decide +kernel, some_get, by and_intros <;> decide +kernel⟩,
    ⟨[1,2,3], 2, (([1,2,3])[2]?).get (by decide +kernel), some_get⟩⟩

theorem witness_WalksIssueWithTheirBase : ∃ (p : _) (s : State) (d : Nat) (c : Nat) (k : Core), p ∈ [(Instr.load, Enc7.opLOAD), (Instr.store, Enc7.opSTORE)] ∧ k = s.core d c ∧ k.issues false p.2 = true ∧ (k.jobs.filter fun j => !j.x).length < 4 :=
  ⟨(Instr.load, Enc7.opLOAD), coreS ({ aS Enc7.opLOAD (63 * 2 ^ 104 + 63 * 2 ^ 98) with pats := [(63, leBytes 8 127)] }), 7, 63, (coreS ({ aS Enc7.opLOAD (63 * 2 ^ 104 + 63 * 2 ^ 98) with pats := [(63, leBytes 8 127)] })).core 7 63, by simp, by and_intros <;> decide +kernel⟩

theorem witness_WaitsSignalsAndBarriers :
    (∃ (s : State) (d : Nat) (c : Nat) (off : Nat) (k : Core), k = s.core d c ∧ k.issues false Enc7.opWAIT = true ∧ k.syncOff d c = some off ∧ k.isFull off = true) ∧
    (∃ (s : State) (d : Nat) (c : Nat) (off : Nat) (k : Core), k = s.core d c ∧ k.issues false Enc7.opWAIT = true ∧ k.syncOff d c = some off ∧ k.isFull off = false) ∧
    (∃ (s : State) (d : Nat) (c : Nat) (off : Nat) (k : Core), k = s.core d c ∧ k.issues false Enc7.opSIGNAL = true ∧ k.syncOff d c = some off) ∧
    (∃ (s : State) (d : Nat) (c : Nat) (off : Nat) (k : Core), k = s.core d c ∧ k.issues false Enc7.opSIGNAL = true ∧ k.syncOff d c = some off ∧ k.jobs = [] ∧ k.signals = [] ∧ k.de0 = [] ∧ k.de1 = [] ∧ k.checked = k.sa.replay ∧ k.isFull off = false ∧ k.cc.hold = none) ∧
    (∃ (s : State) (d : Nat) (c : Nat) (off : Nat) (k : Core), k = s.core d c ∧ k.issues false Enc7.opSIGNAL = true ∧ k.syncOff d c = some off ∧ k.jobs = [] ∧ k.signals = [] ∧ k.de0 = [] ∧ k.de1 = [] ∧ k.isFull off = true) ∧
    (∃ (p : _) (s : State) (d : Nat) (c : Nat) (k : Core), p ∈ [(Instr.wait, Enc7.opWAIT), (Instr.signal, Enc7.opSIGNAL)] ∧ k = s.core d c ∧ k.issues false p.2 = true ∧ k.syncOff d c = none) ∧
    (∃ (s : State) (d : Nat) (c : Nat) (off : Nat) (k : Core) (b : Barrier) (m : Nat), k = s.core d c ∧ s.corePresent d c = true ∧ s.mem.wf = true ∧ k.issues false Enc7.opBARRIER = true ∧ k.aeWritten = true ∧ k.de0 = [] ∧ k.de1 = [] ∧ k.syncOff d c = some off ∧ b = s.barrier d c off ∧ m = Enc7.syncMask (k.next false) ∧ b.legal false = true ∧ k.isFull off = false ∧ m.testBit 0 = true ∧ b.arrived.testBit 0 = false ∧ ((b.arrived = 0 ∨ b.mask = m)) ∧ k.cc.hold = none) ∧
    (∃ (s : State) (d : Nat) (c : Nat) (off : Nat) (k : Core) (b : Barrier) (w : Nat) (r : Nat), k = s.core d c ∧ s.corePresent d c = true ∧ s.mem.wf = true ∧ k.faulted = none ∧ off % 64 = 0 ∧ off + 64 ≤ spmSize ∧ k.hold = some (.barrier off, w, r) ∧ b = s.barrier d c off ∧ b.legal true = true ∧ k.isFull off = true ∧ b.leaving.testBit 0 = true ∧ (∀ x, k.cc.hold ≠ some (.arrive off x))) ∧
    (∃ (s : State) (d : Nat) (c : Nat) (off : Nat) (de1 : Bool) (k : Core) (x : Xfer) (rest : List Xfer) (b : Barrier) (p : Nat), k = s.core d c ∧ s.corePresent d c = true ∧ s.mem.wf = true ∧ k.faulted = none ∧ off % 64 = 0 ∧ off + 64 ≤ spmSize ∧ (if de1 then k.de1 else k.de0) = x :: rest ∧ x.marker = some off ∧ x.arrived = false ∧ p = (if de1 then 2 else 1) ∧ b = s.barrier d c off ∧ b.legal false = true ∧ k.isFull off = false ∧ x.count < 16 ∧ x.count.testBit p = true ∧ b.arrived.testBit p = false ∧ ((b.arrived = 0 ∨ b.mask = x.count))) :=
  ⟨⟨coreS ({ aS Enc7.opWAIT (63 * 2 ^ 104 + 64 * 2 ^ 72 + 0 * 2 ^ 71 + 0 * 2 ^ 67) with sa := strm 4095 false, full := [2] }), 7, 63, 128, (coreS ({ aS Enc7.opWAIT (63 * 2 ^ 104 + 64 * 2 ^ 72 + 0 * 2 ^ 71 + 0 * 2 ^ 67) with sa := strm 4095 false, full := [2] })).core 7 63, by and_intros <;> decide +kernel⟩,
    ⟨coreS ({ aS Enc7.opWAIT (63 * 2 ^ 104 + 64 * 2 ^ 72 + 1 * 2 ^ 71 + 0 * 2 ^ 67) with sa := strm 4095 false }), 7, 63, 128, (coreS ({ aS Enc7.opWAIT (63 * 2 ^ 104 + 64 * 2 ^ 72 + 1 * 2 ^ 71 + 0 * 2 ^ 67) with sa := strm 4095 false })).core 7 63, by and_intros <;> decide +kernel⟩,
    ⟨coreS ({ aS Enc7.opSIGNAL (63 * 2 ^ 104 + 64 * 2 ^ 72 + 1 * 2 ^ 71 + 0 * 2 ^ 67) with sa := strm 4095 false }), 7, 63, 128, (coreS ({ aS Enc7.opSIGNAL (63 * 2 ^ 104 + 64 * 2 ^ 72 + 1 * 2 ^ 71 + 0 * 2 ^ 67) with sa := strm 4095 false })).core 7 63, by and_intros <;> decide +kernel⟩,
    ⟨coreS ({ aS Enc7.opSIGNAL (63 * 2 ^ 104 + 64 * 2 ^ 72 + 1 * 2 ^ 71 + 0 * 2 ^ 67) with sa := strm 4095 false, checked := 2 }), 7, 63, 128, (coreS ({ aS Enc7.opSIGNAL (63 * 2 ^ 104 + 64 * 2 ^ 72 + 1 * 2 ^ 71 + 0 * 2 ^ 67) with sa := strm 4095 false, checked := 2 })).core 7 63, by and_intros <;> decide +kernel⟩,
    ⟨coreS ({ aS Enc7.opSIGNAL (63 * 2 ^ 104 + 64 * 2 ^ 72 + 1 * 2 ^ 71 + 0 * 2 ^ 67) with sa := strm 4095 false, full := [2] }), 7, 63, 128, (coreS ({ aS Enc7.opSIGNAL (63 * 2 ^ 104 + 64 * 2 ^ 72 + 1 * 2 ^ 71 + 0 * 2 ^ 67) with sa := strm 4095 false, full := [2] })).core 7 63, by and_intros <;> decide +kernel⟩,
    ⟨(Instr.wait, Enc7.opWAIT), coreS ({ aS Enc7.opWAIT (63 * 2 ^ 104 + 64 * 2 ^ 72 + 1 * 2 ^ 71 + 0 * 2 ^ 67) with sa := strm 4095 false, windows := [] }), 7, 63, (coreS ({ aS Enc7.opWAIT (63 * 2 ^ 104 + 64 * 2 ^ 72 + 1 * 2 ^ 71 + 0 * 2 ^ 67) with sa := strm 4095 false, windows := [] })).core 7 63, by simp, by and_intros <;> decide +kernel⟩,
    ⟨coreS ({ aS Enc7.opBARRIER (63 * 2 ^ 104 + 64 * 2 ^ 72 + 0 * 2 ^ 71 + 1 * 2 ^ 67) with sa := strm 4095 false }), 7, 63, 128, (coreS ({ aS Enc7.opBARRIER (63 * 2 ^ 104 + 64 * 2 ^ 72 + 0 * 2 ^ 71 + 1 * 2 ^ 67) with sa := strm 4095 false })).core 7 63, (coreS ({ aS Enc7.opBARRIER (63 * 2 ^ 104 + 64 * 2 ^ 72 + 0 * 2 ^ 71 + 1 * 2 ^ 67) with sa := strm 4095 false })).barrier 7 63 128, Enc7.syncMask (((coreS ({ aS Enc7.opBARRIER (63 * 2 ^ 104 + 64 * 2 ^ 72 + 0 * 2 ^ 71 + 1 * 2 ^ 67) with sa := strm 4095 false })).core 7 63).next false), by decide +kernel, by decide +kernel, by decide +kernel, (by decide +kernel), by decide +kernel, by decide +kernel, by decide +kernel, (by decide +kernel), by decide +kernel, rfl, by and_intros <;> decide +kernel⟩,
    ⟨(coreS { core0 with sa := strm 4095 false, hold := some (.barrier 128, 5, 2) }).setBarrier 7 63 128 ⟨7, 15, 0, 1, 0⟩ true, 7, 63, 128, ((coreS { core0 with sa := strm 4095 false, hold := some (.barrier 128, 5, 2) }).setBarrier 7 63 128 ⟨7, 15, 0, 1, 0⟩ true).core 7 63, ((coreS { core0 with sa := strm 4095 false, hold := some (.barrier 128, 5, 2) }).setBarrier 7 63 128 ⟨7, 15, 0, 1, 0⟩ true).barrier 7 63 128, 5, 2, by decide +kernel, by decide +kernel, by decide +kernel, (by decide +kernel), by decide +kernel, by decide +kernel, by decide +kernel, (by decide +kernel), by decide +kernel, by decide +kernel, by decide +kernel, fun _ => none_ne (by decide +kernel)⟩,
    ⟨coreS { core0 with de0 := [{ walkXfer 0 0 1 2 with walk := none, marker := some 128, count := 2 }] }, 7, 63, 128, false, (coreS { core0 with de0 := [{ walkXfer 0 0 1 2 with walk := none, marker := some 128, count := 2 }] }).core 7 63, { walkXfer 0 0 1 2 with walk := none, marker := some 128, count := 2 }, [], (coreS { core0 with de0 := [{ walkXfer 0 0 1 2 with walk := none, marker := some 128, count := 2 }] }).barrier 7 63 128, 1, by and_intros <;> decide +kernel⟩⟩

theorem witness_QueuesAndTokensCount :
    (∃ (s : State) (d : Nat) (c : Nat) (q : Nat) (k : Core), q < 32 ∧ k = s.core d c ∧ k.faulted = none) ∧
    (∃ (s : State) (d : Nat) (c : Nat) (q : Nat) (i : Nat) (k : Core) (j : Job) (b : Beat) (rest : List Beat), q < 32 ∧ k = s.core d c ∧ k.faulted = none ∧ k.popper q = some (j, i) ∧ k.popsNow j i = true ∧ mget [] k.queues q = b :: rest ∧ Enc7.opc j.word ≠ Enc7.opSTORE ∧ (∀ y ∈ k.jobs, y.pushQ ≠ some q)) ∧
    (∃ (s : State) (d : Nat) (c : Nat) (q : Nat) (i : Nat) (k : Core) (j : Job), q < 32 ∧ k = s.core d c ∧ d < 8 ∧ c < 64 ∧ k.faulted = none ∧ k.popper q = some (j, i) ∧ k.popsNow j i = true ∧ mget [] k.queues q = [] ∧ k.pending q j.replay = false) ∧
    (∃ (s : State) (d : Nat) (c : Nat) (q : Nat) (k : Core) (j : Job) (data : List Byte) (rest : List (List Byte)), q < 32 ∧ k = s.core d c ∧ k.faulted = none ∧ k.popper q = none ∧ (mget [] k.queues q).length < 32 ∧ (k.jobs.find? fun y => decide (y.pushQ = some q) && k.pushesLeft y) = some j ∧ Enc7.opc j.word ≠ Enc7.opLOAD ∧ Enc7.opc j.word ≠ Enc7.opOCALL ∧ j.pushes = data :: rest ∧ Enc7.emits j.word = none) ∧
    (∃ (s : State) (d : Nat) (c : Nat) (q : Nat) (k : Core), q < 32 ∧ k = s.core d c ∧ k.faulted = none ∧ k.popper q = none ∧ (32 ≤ (mget [] k.queues q).length ∨ (∀ y ∈ k.jobs, y.pushQ ≠ some q))) ∧
    (∃ (s : State) (d : Nat) (c : Nat) (x : Credit) (rest : List Credit), (s.core d c).credits = x :: rest ∧ (s.core d c).faulted = none ∧ mget 0 (s.core d c).counters x.cls < mget 0 (s.core d c).bounds x.cls) ∧
    (∃ (s : State) (d : Nat) (c : Nat) (x : Credit) (rest : List Credit), (s.core d c).credits = x :: rest ∧ (s.core d c).faulted = none ∧ mget 0 (s.core d c).bounds x.cls ≤ mget 0 (s.core d c).counters x.cls) :=
  ⟨⟨coreS (xS 0x50 0), 7, 63, 31, (coreS (xS 0x50 0)).core 7 63, by and_intros <;> decide +kernel⟩,
    ⟨coreS ({ xS 0x50 0 with jobs := [{ id := 4, x := true, index := 9, word := (wd 0x50 (0)).toNat, replay := 2, base := 0, arg := 0, de0 := false, pos := 0, pops := [⟨31, some 2, 0, [], false⟩], units := 0, formed := false, tail := [], scales := [], pushes := [], pushQ := none, tally := Enc7.noTally }], queues := [(31, [⟨List.replicate 64 9, true, none⟩, ⟨List.replicate 64 9, true, none⟩])] }), 7, 63, 31, 0, (coreS ({ xS 0x50 0 with jobs := [{ id := 4, x := true, index := 9, word := (wd 0x50 (0)).toNat, replay := 2, base := 0, arg := 0, de0 := false, pos := 0, pops := [⟨31, some 2, 0, [], false⟩], units := 0, formed := false, tail := [], scales := [], pushes := [], pushQ := none, tally := Enc7.noTally }], queues := [(31, [⟨List.replicate 64 9, true, none⟩, ⟨List.replicate 64 9, true, none⟩])] })).core 7 63, { id := 4, x := true, index := 9, word := (wd 0x50 (0)).toNat, replay := 2, base := 0, arg := 0, de0 := false, pos := 0, pops := [⟨31, some 2, 0, [], false⟩], units := 0, formed := false, tail := [], scales := [], pushes := [], pushQ := none, tally := Enc7.noTally }, ⟨List.replicate 64 9, true, none⟩, [⟨List.replicate 64 9, true, none⟩], by and_intros <;> decide +kernel⟩,
    ⟨coreS ({ xS 0x50 0 with sa := strm 2 false, jobs := [{ id := 4, x := true, index := 9, word := (wd 0x50 (0)).toNat, replay := 2, base := 0, arg := 0, de0 := false, pos := 0, pops := [⟨31, some 2, 0, [], false⟩], units := 0, formed := false, tail := [], scales := [], pushes := [], pushQ := none, tally := Enc7.noTally }], amem := [(1, wd 0x10 (31 * 2 ^ 93)), (2, wd 2 0)], xmem := [(1, wd 2 0)] }), 7, 63, 31, 0, (coreS ({ xS 0x50 0 with sa := strm 2 false, jobs := [{ id := 4, x := true, index := 9, word := (wd 0x50 (0)).toNat, replay := 2, base := 0, arg := 0, de0 := false, pos := 0, pops := [⟨31, some 2, 0, [], false⟩], units := 0, formed := false, tail := [], scales := [], pushes := [], pushQ := none, tally := Enc7.noTally }], amem := [(1, wd 0x10 (31 * 2 ^ 93)), (2, wd 2 0)], xmem := [(1, wd 2 0)] })).core 7 63, { id := 4, x := true, index := 9, word := (wd 0x50 (0)).toNat, replay := 2, base := 0, arg := 0, de0 := false, pos := 0, pops := [⟨31, some 2, 0, [], false⟩], units := 0, formed := false, tail := [], scales := [], pushes := [], pushQ := none, tally := Enc7.noTally }, by and_intros <;> decide +kernel⟩,
    ⟨coreS ({ xS 0x50 0 with jobs := [{ id := 4, x := true, index := 9, word := (wd 0x50 (0)).toNat, replay := 2, base := 0, arg := 0, de0 := false, pos := 0, pops := [], units := 0, formed := false, tail := [], scales := [], pushes := [[1]], pushQ := some 31, tally := Enc7.noTally }] }), 7, 63, 31, (coreS ({ xS 0x50 0 with jobs := [{ id := 4, x := true, index := 9, word := (wd 0x50 (0)).toNat, replay := 2, base := 0, arg := 0, de0 := false, pos := 0, pops := [], units := 0, formed := false, tail := [], scales := [], pushes := [[1]], pushQ := some 31, tally := Enc7.noTally }] })).core 7 63, { id := 4, x := true, index := 9, word := (wd 0x50 (0)).toNat, replay := 2, base := 0, arg := 0, de0 := false, pos := 0, pops := [], units := 0, formed := false, tail := [], scales := [], pushes := [[1]], pushQ := some 31, tally := Enc7.noTally }, [1], [], by and_intros <;> decide +kernel⟩,
    ⟨coreS ({ xS 0x50 0 with queues := [(31, List.replicate 32 ⟨List.replicate 64 9, true, none⟩)] }), 7, 63, 31, (coreS ({ xS 0x50 0 with queues := [(31, List.replicate 32 ⟨List.replicate 64 9, true, none⟩)] })).core 7 63, by and_intros <;> decide +kernel⟩,
    ⟨coreS ({ xS 0x50 0 with credits := [⟨15, 2, true, 3⟩], counters := [(15, 1)] }), 7, 63, ⟨15, 2, true, 3⟩, [], by and_intros <;> decide +kernel⟩,
    ⟨coreS ({ xS 0x50 0 with credits := [⟨15, 2, true, 3⟩], counters := [(15, 2)] }), 7, 63, ⟨15, 2, true, 3⟩, [], by and_intros <;> decide +kernel⟩⟩

theorem witness_StreamFaultsStopBothStreams :
    (∃ (s : State) (d : Nat) (c : Nat) (kind : Nat) (q : Nat) (cls : Nat) (replay : Nat), d < 8 ∧ c < 64 ∧ s.power.mode = .ready ∧ (s.core d c).faulted = none ∧ kind < 8 ∧ q < 32 ∧ cls < 16 ∧ replay < 2 ^ 32) ∧
    (∃ (s : State) (d : Nat) (c : Nat) (k : Core), k = s.core d c ∧ k.task.isSome = true) ∧
    (∃ (s : State) (d : Nat) (c : Nat) (k : Core), d < 8 ∧ c < 64 ∧ k = s.core d c ∧ k.task = none) ∧
    (∃ (s : State) (d : Nat) (c : Nat), d < 8 ∧ c < 64 ∧ ((s.core d c).sfeState = 1 ∨ (s.core d c).sfeState = 2) ∧ (s.core d c).faulted = none) :=
  ⟨⟨coreS (xS 0x50 0), 7, 63, 7, 31, 15, 2^32-1, by and_intros <;> decide +kernel⟩,
    ⟨coreS (xS 0x50 0), 7, 63, (coreS (xS 0x50 0)).core 7 63, by and_intros <;> decide +kernel⟩,
    ⟨coreS ({ xS 0x50 0 with task := none }), 7, 63, (coreS ({ xS 0x50 0 with task := none })).core 7 63, by and_intros <;> decide +kernel⟩,
    ⟨coreS (xS 0x50 0), 7, 63, by and_intros <;> decide +kernel⟩⟩

theorem witness_ExecuteInstructionsIssue :
    (∃ (p : _) (s : State) (d : Nat) (c : Nat) (k : Core), p ∈ [(Instr.vadd, 0x01), (Instr.vsub, 0x02), (Instr.vmul, 0x03), (Instr.vfma, 0x04), (Instr.vmax, 0x05), (Instr.vmin, 0x06), (Instr.vaddi, 0x07), (Instr.vmuli, 0x08), (Instr.vexp, 0x09), (Instr.vrecip, 0x0A), (Instr.vrsqrt, 0x0B), (Instr.vact, 0x0C), (Instr.vcmp, 0x0D), (Instr.vsel, 0x0E), (Instr.vcopy, 0x0F), (Instr.vred, 0x10), (Instr.vsoftmax, 0x11), (Instr.vcvt, 0x12), (Instr.vperm, 0x13)] ∧ k = s.core d c ∧ k.issues true Enc7.opVOP = true ∧ Enc7.vFn (k.next true) = p.2 ∧ k.engineFree (Enc7.engineOf (k.next true)) = true) ∧
    (∃ (s : State) (d : Nat) (c : Nat) (k : Core), k = s.core d c ∧ k.issues true Enc7.opMMA = true ∧ k.engineFree (Enc7.engineOf (k.next true)) = true) ∧
    (∃ (s : State) (d : Nat) (c : Nat) (k : Core), k = s.core d c ∧ k.issues true Enc7.opVGATHER = true ∧ k.engineFree (Enc7.engineOf (k.next true)) = true) ∧
    (∃ (s : State) (d : Nat) (c : Nat) (k : Core), k = s.core d c ∧ k.issues true Enc7.opOCALL = true ∧ k.cc.call = none ∧ k.patchDue = none) ∧
    (∃ (s : State) (d : Nat) (c : Nat) (k : Core) (x : Call) (j : Job), k = s.core d c ∧ k.cc.call = some x ∧ k.ocallJob = some j ∧ x.source = 0 ∧ k.faulted = none ∧ k.cc.hold = none ∧ x.status = some 0 ∧ j.pushes = [] ∧ queueOff j x = none) ∧
    (∃ (s : State) (d : Nat) (c : Nat) (x : Check) (rest : List Check), (s.core d c).checks = x :: rest ∧ x.fails = false) ∧
    (∃ (s : State) (d : Nat) (c : Nat) (x : Check) (rest : List Check), (s.core d c).checks = x :: rest ∧ x.fails = false ∧ (s.core d c).jobs = [] ∧ (s.core d c).signals = [] ∧ (s.core d c).sa.inBlock = false) ∧
    (∃ (s : State) (d : Nat) (c : Nat) (x : Check) (rest : List Check), (s.core d c).checks = x :: rest ∧ x.fails = true) :=
  ⟨⟨((Instr.vadd, 1) : (Nat → Nat → Instr) × Nat), coreS ({ xS Enc7.opVOP (1 * 2 ^ 102 + 2 ^ 66 + 2 ^ 118 + 2 ^ 115 + 2 ^ 119 + 31 * 2 ^ 61) with counters := [(9, 3)] }), 7, 63, (coreS ({ xS Enc7.opVOP (1 * 2 ^ 102 + 2 ^ 66 + 2 ^ 118 + 2 ^ 115 + 2 ^ 119 + 31 * 2 ^ 61) with counters := [(9, 3)] })).core 7 63, by simp, by and_intros <;> decide +kernel⟩,
    ⟨coreS ({ xS Enc7.opMMA 0 with counters := [(9, 3)] }), 7, 63, (coreS ({ xS Enc7.opMMA 0 with counters := [(9, 3)] })).core 7 63, by and_intros <;> decide +kernel⟩,
    ⟨coreS ({ xS Enc7.opVGATHER 0 with counters := [(9, 3)] }), 7, 63, (coreS ({ xS Enc7.opVGATHER 0 with counters := [(9, 3)] })).core 7 63, by and_intros <;> decide +kernel⟩,
    ⟨coreS (xS Enc7.opOCALL (4095 * 2 ^ 98 + 63 * 2 ^ 92)), 7, 63, (coreS (xS Enc7.opOCALL (4095 * 2 ^ 98 + 63 * 2 ^ 92))).core 7 63, by and_intros <;> decide +kernel⟩,
    ⟨coreS ({ xS 0x50 0 with jobs := [{ id := 4, x := true, index := 9, word := (wd 0x60 (2 ^ 114)).toNat, replay := 2, base := 0, arg := 0, de0 := false, pos := 0, pops := [], units := 0, formed := false, tail := [], scales := [], pushes := [], pushQ := none, tally := Enc7.noTally }], cc := { freshCtl with call := some ⟨0, 4, 5, 2, none, 0, false, 0, false, none, some 0⟩ } }), 7, 63, (coreS ({ xS 0x50 0 with jobs := [{ id := 4, x := true, index := 9, word := (wd 0x60 (2 ^ 114)).toNat, replay := 2, base := 0, arg := 0, de0 := false, pos := 0, pops := [], units := 0, formed := false, tail := [], scales := [], pushes := [], pushQ := none, tally := Enc7.noTally }], cc := { freshCtl with call := some ⟨0, 4, 5, 2, none, 0, false, 0, false, none, some 0⟩ } })).core 7 63, ⟨0, 4, 5, 2, none, 0, false, 0, false, none, some 0⟩, { id := 4, x := true, index := 9, word := (wd 0x60 (2 ^ 114)).toNat, replay := 2, base := 0, arg := 0, de0 := false, pos := 0, pops := [], units := 0, formed := false, tail := [], scales := [], pushes := [], pushQ := none, tally := Enc7.noTally }, by and_intros <;> decide +kernel⟩,
    ⟨coreS ({ xS 0x50 0 with checks := [⟨false, 1, 2⟩, ⟨true, 1, 2⟩] }), 7, 63, ⟨false, 1, 2⟩, [⟨true, 1, 2⟩], by and_intros <;> decide +kernel⟩,
    ⟨coreS ({ xS 0x50 0 with checks := [⟨false, 1, 2⟩], sa := freshStream }), 7, 63, ⟨false, 1, 2⟩, [], by and_intros <;> decide +kernel⟩,
    ⟨coreS ({ xS 0x50 0 with checks := [⟨true, 1, 2⟩, ⟨true, 1, 2⟩] }), 7, 63, ⟨true, 1, 2⟩, [⟨true, 1, 2⟩], by and_intros <;> decide +kernel⟩⟩

theorem witness_LanesAndFormatsCompute :
    (∃ (w : Nat) (slot : Nat) (free : Nat) (a : List Byte) (b : List Byte) (c : List Byte) (i : Nat) (j : Nat) (vl : Nat) (x : Nat) (y : Nat) (r : Nat), Enc7.vType w = 3 ∧ j < 64 ∧ vl = (Enc7.vopVl w slot).1 ∧ x = field a ((i * 64 + j) * 4) 4 ∧ y = field b ((i * 64 + j) * 4) 4 ∧ r = field (Enc7.vop w slot free i a b c).bytes (j * 4) 4 ∧ Enc7.vFn w < 0x10 ∧ vl ≤ j) ∧
    (∃ (w : Nat) (slot : Nat) (free : Nat) (a : List Byte) (b : List Byte) (c : List Byte) (i : Nat) (j : Nat) (vl : Nat) (x : Nat) (y : Nat) (r : Nat), Enc7.vType w = 3 ∧ j < 64 ∧ vl = (Enc7.vopVl w slot).1 ∧ x = field a ((i * 64 + j) * 4) 4 ∧ y = field b ((i * 64 + j) * 4) 4 ∧ r = field (Enc7.vop w slot free i a b c).bytes (j * 4) 4 ∧ j < vl ∧ Enc7.vFn w = 1) ∧
    (∃ (w : Nat) (slot : Nat) (free : Nat) (a : List Byte) (b : List Byte) (c : List Byte) (i : Nat) (j : Nat) (vl : Nat) (x : Nat) (y : Nat) (r : Nat), Enc7.vType w = 3 ∧ j < 64 ∧ vl = (Enc7.vopVl w slot).1 ∧ x = field a ((i * 64 + j) * 4) 4 ∧ y = field b ((i * 64 + j) * 4) 4 ∧ r = field (Enc7.vop w slot free i a b c).bytes (j * 4) 4 ∧ j < vl ∧ Enc7.vFn w = 2) ∧
    (∃ (w : Nat) (slot : Nat) (free : Nat) (a : List Byte) (b : List Byte) (c : List Byte) (i : Nat) (j : Nat) (vl : Nat) (x : Nat) (y : Nat) (r : Nat), Enc7.vType w = 3 ∧ j < 64 ∧ vl = (Enc7.vopVl w slot).1 ∧ x = field a ((i * 64 + j) * 4) 4 ∧ y = field b ((i * 64 + j) * 4) 4 ∧ r = field (Enc7.vop w slot free i a b c).bytes (j * 4) 4 ∧ j < vl ∧ Enc7.vFn w = 3) ∧
    (∃ (w : Nat) (slot : Nat) (free : Nat) (a : List Byte) (b : List Byte) (c : List Byte) (i : Nat) (j : Nat) (vl : Nat) (x : Nat) (y : Nat) (r : Nat), Enc7.vType w = 3 ∧ j < 64 ∧ vl = (Enc7.vopVl w slot).1 ∧ x = field a ((i * 64 + j) * 4) 4 ∧ y = field b ((i * 64 + j) * 4) 4 ∧ r = field (Enc7.vop w slot free i a b c).bytes (j * 4) 4 ∧ j < vl ∧ Enc7.vFn w = 5) ∧
    (∃ (w : Nat) (slot : Nat) (free : Nat) (a : List Byte) (b : List Byte) (c : List Byte) (i : Nat) (j : Nat) (vl : Nat) (x : Nat) (y : Nat) (r : Nat), Enc7.vType w = 3 ∧ j < 64 ∧ vl = (Enc7.vopVl w slot).1 ∧ x = field a ((i * 64 + j) * 4) 4 ∧ y = field b ((i * 64 + j) * 4) 4 ∧ r = field (Enc7.vop w slot free i a b c).bytes (j * 4) 4 ∧ j < vl ∧ Enc7.vFn w = 6) ∧
    (∃ (w : Nat) (slot : Nat) (free : Nat) (a : List Byte) (b : List Byte) (c : List Byte) (i : Nat) (j : Nat) (vl : Nat) (x : Nat) (y : Nat) (r : Nat), Enc7.vType w = 3 ∧ j < 64 ∧ vl = (Enc7.vopVl w slot).1 ∧ x = field a ((i * 64 + j) * 4) 4 ∧ y = field b ((i * 64 + j) * 4) 4 ∧ r = field (Enc7.vop w slot free i a b c).bytes (j * 4) 4 ∧ j < vl ∧ Enc7.vFn w = 7) ∧
    (∃ (w : Nat) (slot : Nat) (free : Nat) (a : List Byte) (b : List Byte) (c : List Byte) (i : Nat) (j : Nat) (vl : Nat) (x : Nat) (y : Nat) (r : Nat), Enc7.vType w = 3 ∧ j < 64 ∧ vl = (Enc7.vopVl w slot).1 ∧ x = field a ((i * 64 + j) * 4) 4 ∧ y = field b ((i * 64 + j) * 4) 4 ∧ r = field (Enc7.vop w slot free i a b c).bytes (j * 4) 4 ∧ j < vl ∧ Enc7.vFn w = 8) ∧
    (∃ (w : Nat) (slot : Nat) (free : Nat) (a : List Byte) (b : List Byte) (c : List Byte) (i : Nat) (j : Nat) (vl : Nat) (x : Nat) (y : Nat) (r : Nat), Enc7.vType w = 3 ∧ j < 64 ∧ vl = (Enc7.vopVl w slot).1 ∧ x = field a ((i * 64 + j) * 4) 4 ∧ y = field b ((i * 64 + j) * 4) 4 ∧ r = field (Enc7.vop w slot free i a b c).bytes (j * 4) 4 ∧ j < vl ∧ Enc7.vFn w = 0x0F) ∧
    (∃ (c : Enc) (n : Nat) (i : Nat), c ≠ .kt ∧ i < n) ∧
    (∃ (t0 : Nat) (t1 : Nat) (t2 : Nat) (t3 : Nat) (t4 : Nat), t0 < 3 ∧ t1 < 3 ∧ t2 < 3 ∧ t3 < 3 ∧ t4 < 3) ∧
    (∃ b t : Nat, 0xF3 ≤ b ∧ b < 256 ∧ t ∈ ktTrits b) ∧
    (∃ (e : Nat), e < 0xFF) ∧
    (∃ (scales : List Byte) (n : Nat) (i : Nat), i < n ∧ ((scales[i / 32]?.getD 0 = 0x7F ∨ scales[i / 32]?.getD 0 = 0xFF))) :=
  ⟨⟨(3 * 2 ^ 99 + 1 * 2 ^ 102 + 5 * 2 ^ 91 + 2 ^ 67 + 2 ^ 66 + 2 ^ 60 + 0xFFFFFFF0), 0, 0, (((List.range 128).map fun q => leBytes 4 ((q * 2654435769 + 17) % 2 ^ 32)).flatten), (((List.range 128).map fun q => leBytes 4 ((q * 2246822519 + 4000000000) % 2 ^ 32)).flatten), [], 1, 63, 5, field ((((List.range 128).map fun q => leBytes 4 ((q * 2654435769 + 17) % 2 ^ 32)).flatten)) ((1 * 64 + 63) * 4) 4, field ((((List.range 128).map fun q => leBytes 4 ((q * 2246822519 + 4000000000) % 2 ^ 32)).flatten)) ((1 * 64 + 63) * 4) 4, field (Enc7.vop ((3 * 2 ^ 99 + 1 * 2 ^ 102 + 5 * 2 ^ 91 + 2 ^ 67 + 2 ^ 66 + 2 ^ 60 + 0xFFFFFFF0)) 0 0 1 ((((List.range 128).map fun q => leBytes 4 ((q * 2654435769 + 17) % 2 ^ 32)).flatten)) ((((List.range 128).map fun q => leBytes 4 ((q * 2246822519 + 4000000000) % 2 ^ 32)).flatten)) ([])).bytes (63 * 4) 4, by decide +kernel, by decide +kernel, by decide +kernel, (by decide +kernel), by decide +kernel, rfl, by and_intros <;> decide +kernel⟩,
    ⟨(3 * 2 ^ 99 + 1 * 2 ^ 102 + 5 * 2 ^ 91 + 2 ^ 67 + 2 ^ 66 + 2 ^ 60 + 0xFFFFFFF0), 0, 0, (((List.range 128).map fun q => leBytes 4 ((q * 2654435769 + 17) % 2 ^ 32)).flatten), (((List.range 128).map fun q => leBytes 4 ((q * 2246822519 + 4000000000) % 2 ^ 32)).flatten), [], 1, 4, 5, field ((((List.range 128).map fun q => leBytes 4 ((q * 2654435769 + 17) % 2 ^ 32)).flatten)) ((1 * 64 + 4) * 4) 4, field ((((List.range 128).map fun q => leBytes 4 ((q * 2246822519 + 4000000000) % 2 ^ 32)).flatten)) ((1 * 64 + 4) * 4) 4, field (Enc7.vop ((3 * 2 ^ 99 + 1 * 2 ^ 102 + 5 * 2 ^ 91 + 2 ^ 67 + 2 ^ 66 + 2 ^ 60 + 0xFFFFFFF0)) 0 0 1 ((((List.range 128).map fun q => leBytes 4 ((q * 2654435769 + 17) % 2 ^ 32)).flatten)) ((((List.range 128).map fun q => leBytes 4 ((q * 2246822519 + 4000000000) % 2 ^ 32)).flatten)) ([])).bytes (4 * 4) 4, by decide +kernel, by decide +kernel, by decide +kernel, (by decide +kernel), by decide +kernel, rfl, by and_intros <;> decide +kernel⟩,
    ⟨(3 * 2 ^ 99 + 2 * 2 ^ 102 + 5 * 2 ^ 91 + 2 ^ 67 + 2 ^ 66 + 2 ^ 60 + 0xFFFFFFF0), 0, 0, (((List.range 128).map fun q => leBytes 4 ((q * 2654435769 + 17) % 2 ^ 32)).flatten), (((List.range 128).map fun q => leBytes 4 ((q * 2246822519 + 4000000000) % 2 ^ 32)).flatten), [], 1, 4, 5, field ((((List.range 128).map fun q => leBytes 4 ((q * 2654435769 + 17) % 2 ^ 32)).flatten)) ((1 * 64 + 4) * 4) 4, field ((((List.range 128).map fun q => leBytes 4 ((q * 2246822519 + 4000000000) % 2 ^ 32)).flatten)) ((1 * 64 + 4) * 4) 4, field (Enc7.vop ((3 * 2 ^ 99 + 2 * 2 ^ 102 + 5 * 2 ^ 91 + 2 ^ 67 + 2 ^ 66 + 2 ^ 60 + 0xFFFFFFF0)) 0 0 1 ((((List.range 128).map fun q => leBytes 4 ((q * 2654435769 + 17) % 2 ^ 32)).flatten)) ((((List.range 128).map fun q => leBytes 4 ((q * 2246822519 + 4000000000) % 2 ^ 32)).flatten)) ([])).bytes (4 * 4) 4, by decide +kernel, by decide +kernel, by decide +kernel, (by decide +kernel), by decide +kernel, rfl, by and_intros <;> decide +kernel⟩,
    ⟨(3 * 2 ^ 99 + 3 * 2 ^ 102 + 5 * 2 ^ 91 + 2 ^ 67 + 2 ^ 66 + 2 ^ 60 + 0xFFFFFFF0), 0, 0, (((List.range 128).map fun q => leBytes 4 ((q * 2654435769 + 17) % 2 ^ 32)).flatten), (((List.range 128).map fun q => leBytes 4 ((q * 2246822519 + 4000000000) % 2 ^ 32)).flatten), [], 1, 4, 5, field ((((List.range 128).map fun q => leBytes 4 ((q * 2654435769 + 17) % 2 ^ 32)).flatten)) ((1 * 64 + 4) * 4) 4, field ((((List.range 128).map fun q => leBytes 4 ((q * 2246822519 + 4000000000) % 2 ^ 32)).flatten)) ((1 * 64 + 4) * 4) 4, field (Enc7.vop ((3 * 2 ^ 99 + 3 * 2 ^ 102 + 5 * 2 ^ 91 + 2 ^ 67 + 2 ^ 66 + 2 ^ 60 + 0xFFFFFFF0)) 0 0 1 ((((List.range 128).map fun q => leBytes 4 ((q * 2654435769 + 17) % 2 ^ 32)).flatten)) ((((List.range 128).map fun q => leBytes 4 ((q * 2246822519 + 4000000000) % 2 ^ 32)).flatten)) ([])).bytes (4 * 4) 4, by decide +kernel, by decide +kernel, by decide +kernel, (by decide +kernel), by decide +kernel, rfl, by and_intros <;> decide +kernel⟩,
    ⟨(3 * 2 ^ 99 + 5 * 2 ^ 102 + 5 * 2 ^ 91 + 2 ^ 67 + 2 ^ 66 + 2 ^ 60 + 0xFFFFFFF0), 0, 0, (((List.range 128).map fun q => leBytes 4 ((q * 2654435769 + 17) % 2 ^ 32)).flatten), (((List.range 128).map fun q => leBytes 4 ((q * 2246822519 + 4000000000) % 2 ^ 32)).flatten), [], 1, 4, 5, field ((((List.range 128).map fun q => leBytes 4 ((q * 2654435769 + 17) % 2 ^ 32)).flatten)) ((1 * 64 + 4) * 4) 4, field ((((List.range 128).map fun q => leBytes 4 ((q * 2246822519 + 4000000000) % 2 ^ 32)).flatten)) ((1 * 64 + 4) * 4) 4, field (Enc7.vop ((3 * 2 ^ 99 + 5 * 2 ^ 102 + 5 * 2 ^ 91 + 2 ^ 67 + 2 ^ 66 + 2 ^ 60 + 0xFFFFFFF0)) 0 0 1 ((((List.range 128).map fun q => leBytes 4 ((q * 2654435769 + 17) % 2 ^ 32)).flatten)) ((((List.range 128).map fun q => leBytes 4 ((q * 2246822519 + 4000000000) % 2 ^ 32)).flatten)) ([])).bytes (4 * 4) 4, by decide +kernel, by decide +kernel, by decide +kernel, (by decide +kernel), by decide +kernel, rfl, by and_intros <;> decide +kernel⟩,
    ⟨(3 * 2 ^ 99 + 6 * 2 ^ 102 + 5 * 2 ^ 91 + 2 ^ 67 + 2 ^ 66 + 2 ^ 60 + 0xFFFFFFF0), 0, 0, (((List.range 128).map fun q => leBytes 4 ((q * 2654435769 + 17) % 2 ^ 32)).flatten), (((List.range 128).map fun q => leBytes 4 ((q * 2246822519 + 4000000000) % 2 ^ 32)).flatten), [], 1, 4, 5, field ((((List.range 128).map fun q => leBytes 4 ((q * 2654435769 + 17) % 2 ^ 32)).flatten)) ((1 * 64 + 4) * 4) 4, field ((((List.range 128).map fun q => leBytes 4 ((q * 2246822519 + 4000000000) % 2 ^ 32)).flatten)) ((1 * 64 + 4) * 4) 4, field (Enc7.vop ((3 * 2 ^ 99 + 6 * 2 ^ 102 + 5 * 2 ^ 91 + 2 ^ 67 + 2 ^ 66 + 2 ^ 60 + 0xFFFFFFF0)) 0 0 1 ((((List.range 128).map fun q => leBytes 4 ((q * 2654435769 + 17) % 2 ^ 32)).flatten)) ((((List.range 128).map fun q => leBytes 4 ((q * 2246822519 + 4000000000) % 2 ^ 32)).flatten)) ([])).bytes (4 * 4) 4, by decide +kernel, by decide +kernel, by decide +kernel, (by decide +kernel), by decide +kernel, rfl, by and_intros <;> decide +kernel⟩,
    ⟨(3 * 2 ^ 99 + 7 * 2 ^ 102 + 5 * 2 ^ 91 + 2 ^ 67 + 2 ^ 66 + 2 ^ 60 + 0xFFFFFFF0), 0, 0, (((List.range 128).map fun q => leBytes 4 ((q * 2654435769 + 17) % 2 ^ 32)).flatten), (((List.range 128).map fun q => leBytes 4 ((q * 2246822519 + 4000000000) % 2 ^ 32)).flatten), [], 1, 4, 5, field ((((List.range 128).map fun q => leBytes 4 ((q * 2654435769 + 17) % 2 ^ 32)).flatten)) ((1 * 64 + 4) * 4) 4, field ((((List.range 128).map fun q => leBytes 4 ((q * 2246822519 + 4000000000) % 2 ^ 32)).flatten)) ((1 * 64 + 4) * 4) 4, field (Enc7.vop ((3 * 2 ^ 99 + 7 * 2 ^ 102 + 5 * 2 ^ 91 + 2 ^ 67 + 2 ^ 66 + 2 ^ 60 + 0xFFFFFFF0)) 0 0 1 ((((List.range 128).map fun q => leBytes 4 ((q * 2654435769 + 17) % 2 ^ 32)).flatten)) ((((List.range 128).map fun q => leBytes 4 ((q * 2246822519 + 4000000000) % 2 ^ 32)).flatten)) ([])).bytes (4 * 4) 4, by decide +kernel, by decide +kernel, by decide +kernel, (by decide +kernel), by decide +kernel, rfl, by and_intros <;> decide +kernel⟩,
    ⟨(3 * 2 ^ 99 + 8 * 2 ^ 102 + 5 * 2 ^ 91 + 2 ^ 67 + 2 ^ 66 + 2 ^ 60 + 0xFFFFFFF0), 0, 0, (((List.range 128).map fun q => leBytes 4 ((q * 2654435769 + 17) % 2 ^ 32)).flatten), (((List.range 128).map fun q => leBytes 4 ((q * 2246822519 + 4000000000) % 2 ^ 32)).flatten), [], 1, 4, 5, field ((((List.range 128).map fun q => leBytes 4 ((q * 2654435769 + 17) % 2 ^ 32)).flatten)) ((1 * 64 + 4) * 4) 4, field ((((List.range 128).map fun q => leBytes 4 ((q * 2246822519 + 4000000000) % 2 ^ 32)).flatten)) ((1 * 64 + 4) * 4) 4, field (Enc7.vop ((3 * 2 ^ 99 + 8 * 2 ^ 102 + 5 * 2 ^ 91 + 2 ^ 67 + 2 ^ 66 + 2 ^ 60 + 0xFFFFFFF0)) 0 0 1 ((((List.range 128).map fun q => leBytes 4 ((q * 2654435769 + 17) % 2 ^ 32)).flatten)) ((((List.range 128).map fun q => leBytes 4 ((q * 2246822519 + 4000000000) % 2 ^ 32)).flatten)) ([])).bytes (4 * 4) 4, by decide +kernel, by decide +kernel, by decide +kernel, (by decide +kernel), by decide +kernel, rfl, by and_intros <;> decide +kernel⟩,
    ⟨(3 * 2 ^ 99 + 15 * 2 ^ 102 + 5 * 2 ^ 91 + 2 ^ 67 + 2 ^ 66 + 2 ^ 60 + 0xFFFFFFF0), 0, 0, (((List.range 128).map fun q => leBytes 4 ((q * 2654435769 + 17) % 2 ^ 32)).flatten), (((List.range 128).map fun q => leBytes 4 ((q * 2246822519 + 4000000000) % 2 ^ 32)).flatten), [], 1, 4, 5, field ((((List.range 128).map fun q => leBytes 4 ((q * 2654435769 + 17) % 2 ^ 32)).flatten)) ((1 * 64 + 4) * 4) 4, field ((((List.range 128).map fun q => leBytes 4 ((q * 2246822519 + 4000000000) % 2 ^ 32)).flatten)) ((1 * 64 + 4) * 4) 4, field (Enc7.vop ((3 * 2 ^ 99 + 15 * 2 ^ 102 + 5 * 2 ^ 91 + 2 ^ 67 + 2 ^ 66 + 2 ^ 60 + 0xFFFFFFF0)) 0 0 1 ((((List.range 128).map fun q => leBytes 4 ((q * 2654435769 + 17) % 2 ^ 32)).flatten)) ((((List.range 128).map fun q => leBytes 4 ((q * 2246822519 + 4000000000) % 2 ^ 32)).flatten)) ([])).bytes (4 * 4) 4, by decide +kernel, by decide +kernel, by decide +kernel, (by decide +kernel), by decide +kernel, rfl, by and_intros <;> decide +kernel⟩,
    ⟨.bf16, 3, 2, by and_intros <;> decide +kernel⟩,
    ⟨2, 1, 0, 2, 2, by and_intros <;> decide +kernel⟩,
    ⟨255, (ktTrits 255).headD 0, by decide +kernel, by decide +kernel, by decide +kernel⟩,
    ⟨0xFE, by decide +kernel⟩,
    ⟨[0x7F,0xFF], 40, 39, by and_intros <;> decide +kernel⟩⟩

theorem witness_XkeavoInstructionsRun :
    (∃ (s : State) (d : Nat) (c : Nat) (rd : Nat) (rs1 : Nat) (imm : Nat) (v : Nat) (a : Nat) (k : Core) (x : Call) (b : Beat) (rest : List Beat), k = s.core d c ∧ k.routine = some x ∧ a = (k.cc.setX rs1 v).x rs1 ∧ a % 64 = 0 ∧ a + 64 ≤ 0x10000 ∧ imm < 32 ∧ rd < 32 ∧ k.cc.xregs.length = 32 ∧ mget [] k.queues imm = b :: rest ∧ b.data.length = 64 ∧ mwf blankByte k.cc.dmem = true) ∧
    (∃ (s : State) (d : Nat) (c : Nat) (rs1 : Nat) (imm : Nat) (v : Nat) (a : Nat) (k : Core) (x : Call), k = s.core d c ∧ k.routine = some x ∧ a = (k.cc.setX rs1 v).x rs1 ∧ a % 64 = 0 ∧ a + 64 ≤ 0x10000 ∧ imm < 32 ∧ mget [] k.queues imm = [] ∧ k.pending imm x.replay = true) ∧
    (∃ (s : State) (d : Nat) (c : Nat) (rs1 : Nat) (imm : Nat) (v : Nat) (a : Nat) (k : Core) (x : Call), k = s.core d c ∧ k.routine = some x ∧ a = (k.cc.setX rs1 v).x rs1 ∧ a % 64 = 0 ∧ a + 64 ≤ 0x10000 ∧ imm < 32 ∧ mget [] k.queues imm = [] ∧ k.pending imm x.replay = false) ∧
    (∃ (s : State) (d : Nat) (c : Nat) (rs1 : Nat) (v : Nat) (a : Nat) (q : Nat) (side : Nat) (k : Core) (x : Call), k = s.core d c ∧ k.routine = some x ∧ a = (k.cc.setX rs1 v).x rs1 ∧ a % 64 = 0 ∧ a + 64 ≤ 0x10000 ∧ q < 32 ∧ side < 64 ∧ bit side 1 = false ∧ (mget [] k.queues q).length < 32) ∧
    (∃ (s : State) (d : Nat) (c : Nat) (rs1 : Nat) (v : Nat) (a : Nat) (q : Nat) (side : Nat) (k : Core) (x : Call), k = s.core d c ∧ k.routine = some x ∧ a = (k.cc.setX rs1 v).x rs1 ∧ a % 64 = 0 ∧ a + 64 ≤ 0x10000 ∧ q < 32 ∧ side < 64 ∧ 32 ≤ (mget [] k.queues q).length) ∧
    (∃ (s : State) (d : Nat) (c : Nat) (rd : Nat) (rs1 : Nat) (v : Nat) (side : Nat) (k : Core) (x : Call), k = s.core d c ∧ k.routine = some x ∧ (rd ≠ 0 ∨ 64 ≤ side ∨ (k.cc.setX rs1 v).x rs1 % 64 ≠ 0 ∨ 0x10000 < (k.cc.setX rs1 v).x rs1 + 64)) ∧
    (∃ (s : State) (d : Nat) (c : Nat) (rs1 : Nat) (v : Nat) (n : Nat) (a : Nat) (w : Nat) (k : Core), k = s.core d c ∧ a = (k.cc.setX rs1 v).x rs1 ∧ n < 64 ∧ a + 8 ≤ 0x10000 ∧ w = leNat (k.cc.bytes a 8)) ∧
    (∃ (s : State) (d : Nat) (c : Nat) (rs1 : Nat) (v : Nat) (n : Nat) (a : Nat) (w : Nat) (k : Core), k = s.core d c ∧ a = (k.cc.setX rs1 v).x rs1 ∧ n < 64 ∧ a + 8 ≤ 0x10000 ∧ w = leNat (k.cc.bytes a 8) ∧ k.sa.inBlock = false ∧ k.sx.inBlock = false) ∧
    (∃ (s : State) (d : Nat) (c : Nat) (rs1 : Nat) (v : Nat) (n : Nat) (a : Nat) (w : Nat) (k : Core), k = s.core d c ∧ a = (k.cc.setX rs1 v).x rs1 ∧ n < 64 ∧ a + 8 ≤ 0x10000 ∧ w = leNat (k.cc.bytes a 8) ∧ (k.sa.inBlock = true ∨ k.sx.inBlock = true)) ∧
    (∃ (s : State) (d : Nat) (c : Nat) (rs1 : Nat) (v : Nat) (n : Nat) (a : Nat) (w : Nat) (k : Core) (r : _), k = s.core d c ∧ a = (k.cc.setX rs1 v).x rs1 ∧ n < 64 ∧ a + 8 ≤ 0x10000 ∧ w = leNat (k.cc.bytes a 8) ∧ k.patchDue = some r) ∧
    (∃ (s : State) (d : Nat) (c : Nat) (rs1 : Nat) (imm : Nat) (v : Nat) (a : Nat) (w : Nat) (k : Core), k = s.core d c ∧ a = (k.cc.setX rs1 v).x rs1 ∧ a + 8 ≤ 0x10000 ∧ imm < 128 ∧ (if 64 ≤ imm then k.strides[imm - 64]? else k.params[imm]?) = some w ∧ w < 2 ^ 64 ∧ mwf blankByte k.cc.dmem = true) ∧
    (∃ (s : State) (d : Nat) (c : Nat) (rd : Nat) (v : Nat) (rest : List Nat), (s.core d c).cc.fifo = v :: rest ∧ rd < 32 ∧ (s.core d c).cc.xregs.length = 32) ∧
    (∃ (s : State) (d : Nat) (c : Nat) (rd : Nat), (s.core d c).cc.fifo = [] ∧ rd < 32) ∧
    (∃ (s : State) (d : Nat) (c : Nat) (rs1 : Nat) (imm : Nat) (v : Nat) (off : Nat) (k : Core) (x : Call), k = s.core d c ∧ k.routine = some x ∧ off = (k.cc.setX rs1 v).x rs1 ∧ off % 64 = 0 ∧ off < spmSize ∧ imm < 2) ∧
    (∃ (s : State) (d : Nat) (c : Nat) (rs1 : Nat) (v : Nat) (off : Nat) (k : Core) (x : Call), k = s.core d c ∧ k.routine = some x ∧ off = (k.cc.setX rs1 v).x rs1 ∧ off % 64 = 0 ∧ off < spmSize ∧ k.isFull off = false ∧ k.hold = none) ∧
    (∃ (s : State) (d : Nat) (c : Nat) (rs1 : Nat) (mask : Nat) (v : Nat) (off : Nat) (k : Core) (x : Call) (b : Barrier), k = s.core d c ∧ k.routine = some x ∧ off = (k.cc.setX rs1 v).x rs1 ∧ off % 64 = 0 ∧ off < spmSize ∧ mask < 16 ∧ s.corePresent d c = true ∧ s.mem.wf = true ∧ b = s.barrier d c off ∧ b.legal false = true ∧ k.isFull off = false ∧ mask.testBit 3 = true ∧ b.arrived.testBit 3 = false ∧ (b.arrived = 0 ∨ b.mask = mask)) ∧
    (∃ (s : State) (d : Nat) (c : Nat) (rs1 : Nat) (mask : Nat) (v : Nat) (off : Nat) (k : Core) (x : Call), k = s.core d c ∧ k.routine = some x ∧ off = (k.cc.setX rs1 v).x rs1 ∧ off % 64 = 0 ∧ off < spmSize ∧ mask < 16 ∧ (s.barrier d c off).legal true = true ∧ k.isFull off = true) :=
  ⟨⟨rS ({ xS 0x60 0 with queues := [(31, [⟨(List.range 64).map fun n => BitVec.ofNat 8 n, true, some 15⟩])] }), 7, 63, 0, 31, 31, 0xFFC0, 0xFFC0, (rS ({ xS 0x60 0 with queues := [(31, [⟨(List.range 64).map fun n => BitVec.ofNat 8 n, true, some 15⟩])] })).core 7 63, rC, ⟨(List.range 64).map fun n => BitVec.ofNat 8 n, true, some 15⟩, [], by and_intros <;> decide +kernel⟩,
    ⟨rS ({ xS 0x60 0 with sa := strm 2 false, sx := { strm 1 false with replay := 2 }, amem := [(1, wd 0x10 (31 * 2 ^ 93)), (2, wd 0x10 (31 * 2 ^ 93)), (3, wd 2 0)], xmem := [(1, wd 2 0)] }), 7, 63, 31, 31, 0xFFC0, 0xFFC0, (rS ({ xS 0x60 0 with sa := strm 2 false, sx := { strm 1 false with replay := 2 }, amem := [(1, wd 0x10 (31 * 2 ^ 93)), (2, wd 0x10 (31 * 2 ^ 93)), (3, wd 2 0)], xmem := [(1, wd 2 0)] })).core 7 63, rC, by and_intros <;> decide +kernel⟩,
    ⟨rS ({ xS 0x60 0 with amem := [], sa := freshStream, sx := freshStream }), 7, 63, 31, 31, 0xFFC0, 0xFFC0, (rS ({ xS 0x60 0 with amem := [], sa := freshStream, sx := freshStream })).core 7 63, rC, by and_intros <;> decide +kernel⟩,
    ⟨rS ({ xS 0x60 0 with queues := [(31, [⟨(List.range 64).map fun n => BitVec.ofNat 8 n, true, some 15⟩])] }), 7, 63, 31, 0xFFC0, 0xFFC0, 31, 0, (rS ({ xS 0x60 0 with queues := [(31, [⟨(List.range 64).map fun n => BitVec.ofNat 8 n, true, some 15⟩])] })).core 7 63, rC, by and_intros <;> decide +kernel⟩,
    ⟨rS ({ xS 0x60 0 with queues := [(31, List.replicate 32 (⟨(List.range 64).map fun n => BitVec.ofNat 8 n, true, some 15⟩))] }), 7, 63, 31, 0xFFC0, 0xFFC0, 31, 0, (rS ({ xS 0x60 0 with queues := [(31, List.replicate 32 (⟨(List.range 64).map fun n => BitVec.ofNat 8 n, true, some 15⟩))] })).core 7 63, rC, by and_intros <;> decide +kernel⟩,
    ⟨rS (xS 0x60 0), 7, 63, 1, 31, 0, 0, (rS (xS 0x60 0)).core 7 63, rC, by and_intros <;> decide +kernel⟩,
    ⟨rS ({ xS 0x60 0 with cc := { freshCtl with dmem := [(0xFFF8, 7)] } }), 7, 63, 31, 0xFFF8, 63, 0xFFF8, leNat (((rS ({ xS 0x60 0 with cc := { freshCtl with dmem := [(0xFFF8, 7)] } })).core 7 63).cc.bytes 0xFFF8 8), (rS ({ xS 0x60 0 with cc := { freshCtl with dmem := [(0xFFF8, 7)] } })).core 7 63, by decide +kernel, by decide +kernel, by decide +kernel, (by decide +kernel), rfl⟩,
    ⟨rS ({ freshCore with params := ps64 1, cc := { freshCtl with dmem := [(0xFFF8, 7)] } }), 7, 63, 31, 0xFFF8, 63, 0xFFF8, leNat (((rS ({ freshCore with params := ps64 1, cc := { freshCtl with dmem := [(0xFFF8, 7)] } })).core 7 63).cc.bytes 0xFFF8 8), (rS ({ freshCore with params := ps64 1, cc := { freshCtl with dmem := [(0xFFF8, 7)] } })).core 7 63, by decide +kernel, by decide +kernel, by decide +kernel, (by decide +kernel), rfl, by and_intros <;> decide +kernel⟩,
    ⟨rS ({ xS 0x60 0 with cc := { freshCtl with dmem := [(0xFFF8, 7)] } }), 7, 63, 31, 0xFFF8, 63, 0xFFF8, leNat (((rS ({ xS 0x60 0 with cc := { freshCtl with dmem := [(0xFFF8, 7)] } })).core 7 63).cc.bytes 0xFFF8 8), (rS ({ xS 0x60 0 with cc := { freshCtl with dmem := [(0xFFF8, 7)] } })).core 7 63, by decide +kernel, by decide +kernel, by decide +kernel, (by decide +kernel), rfl, by decide +kernel⟩,
    ⟨rS ({ xS 0x60 0 with patchDue := some 2, cc := { freshCtl with dmem := [(0xFFF8, 7)] } }), 7, 63, 31, 0xFFF8, 63, 0xFFF8, leNat (((rS ({ xS 0x60 0 with patchDue := some 2, cc := { freshCtl with dmem := [(0xFFF8, 7)] } })).core 7 63).cc.bytes 0xFFF8 8), (rS ({ xS 0x60 0 with patchDue := some 2, cc := { freshCtl with dmem := [(0xFFF8, 7)] } })).core 7 63, (((rS ({ xS 0x60 0 with patchDue := some 2, cc := { freshCtl with dmem := [(0xFFF8, 7)] } })).core 7 63).patchDue).get (by decide +kernel), by decide +kernel, by decide +kernel, by decide +kernel, (by decide +kernel), rfl, some_get⟩,
    ⟨rS ({ xS 0x60 0 with cc := { freshCtl with dmem := [(0xFFF8, 7)] } }), 7, 63, 31, 63, 0xFFF8, 0xFFF8, ((if 64 ≤ 63 then ((rS ({ xS 0x60 0 with cc := { freshCtl with dmem := [(0xFFF8, 7)] } })).core 7 63).strides[63 - 64]? else ((rS ({ xS 0x60 0 with cc := { freshCtl with dmem := [(0xFFF8, 7)] } })).core 7 63).params[63]?)).get (by decide +kernel), (rS ({ xS 0x60 0 with cc := { freshCtl with dmem := [(0xFFF8, 7)] } })).core 7 63, by decide +kernel, by decide +kernel, by decide +kernel, (by decide +kernel), some_get, by and_intros <;> decide +kernel⟩,
    ⟨rS ({ xS 0x60 0 with cc := { freshCtl with fifo := [4, 5] } }), 7, 63, 0, 4, [5], by and_intros <;> decide +kernel⟩,
    ⟨rS (xS 0x60 0), 7, 63, 0, by and_intros <;> decide +kernel⟩,
    ⟨rS ({ xS 0x60 0 with full := [2] }), 7, 63, 31, 1, 128, 128, (rS ({ xS 0x60 0 with full := [2] })).core 7 63, rC, by and_intros <;> decide +kernel⟩,
    ⟨rS (xS 0x60 0), 7, 63, 31, (spmSize - 64), (spmSize - 64), (rS (xS 0x60 0)).core 7 63, rC, by and_intros <;> decide +kernel⟩,
    ⟨rS (xS 0x60 0), 7, 63, 31, 8, 128, 128, (rS (xS 0x60 0)).core 7 63, rC, (rS (xS 0x60 0)).barrier 7 63 128, by and_intros <;> decide +kernel⟩,
    ⟨(rS { xS 0x60 0 with full := [2] }).setBarrier 7 63 128 ⟨7, 15, 0, 9, 0⟩ true, 7, 63, 31, 15, 128, 128, ((rS { xS 0x60 0 with full := [2] }).setBarrier 7 63 128 ⟨7, 15, 0, 9, 0⟩ true).core 7 63, rC, by and_intros <;> decide +kernel⟩⟩

theorem witness_ControlListsRun :
    (∃ (s : State) (d : Nat) (c : Nat) (k : Core) (e : List Byte), k = s.core d c ∧ e = k.cc.entryBytes ∧ k.cc.mode = 1 ∧ k.cc.call = none ∧ k.faulted = none ∧ enOp e = 1) ∧
    (∃ (s : State) (d : Nat) (c : Nat) (k : Core) (e : List Byte) (v : Nat) (rest : _), k = s.core d c ∧ e = k.cc.entryBytes ∧ k.cc.mode = 1 ∧ k.cc.call = none ∧ k.faulted = none ∧ enOp e = 2 ∧ k.cc.fifo = v :: rest) ∧
    (∃ (s : State) (d : Nat) (c : Nat) (k : Core) (e : List Byte), k = s.core d c ∧ e = k.cc.entryBytes ∧ k.cc.mode = 1 ∧ k.cc.call = none ∧ k.faulted = none ∧ enOp e = 2 ∧ k.cc.fifo = []) ∧
    (∃ (s : State) (d : Nat) (c : Nat) (k : Core) (e : List Byte), k = s.core d c ∧ e = k.cc.entryBytes ∧ k.cc.mode = 1 ∧ k.cc.call = none ∧ k.faulted = none ∧ enOp e = 3) ∧
    (∃ (s : State) (d : Nat) (c : Nat) (k : Core) (e : List Byte), k = s.core d c ∧ e = k.cc.entryBytes ∧ k.cc.mode = 1 ∧ k.cc.call = none ∧ k.faulted = none ∧ enOp e = 4) ∧
    (∃ (s : State) (d : Nat) (c : Nat) (k : Core) (e : List Byte), k = s.core d c ∧ e = k.cc.entryBytes ∧ k.cc.mode = 1 ∧ k.cc.call = none ∧ k.faulted = none ∧ enOp e = 5) ∧
    (∃ (s : State) (d : Nat) (c : Nat) (k : Core) (e : List Byte), k = s.core d c ∧ e = k.cc.entryBytes ∧ k.cc.mode = 1 ∧ k.cc.call = none ∧ k.faulted = none ∧ enOp e = 6 ∧ k.sa.inBlock = false ∧ k.sx.inBlock = false) ∧
    (∃ (s : State) (d : Nat) (c : Nat) (k : Core) (e : List Byte), k = s.core d c ∧ e = k.cc.entryBytes ∧ k.cc.mode = 1 ∧ k.cc.call = none ∧ k.faulted = none ∧ enOp e = 7 ∧ k.checks = [] ∧ k.de0 = [] ∧ k.de1 = []) :=
  ⟨⟨lS 1 255 0 0 0 ({ xS 0x60 0 with pairs := [(255, 3, 4095)] }), 7, 63, (lS 1 255 0 0 0 ({ xS 0x60 0 with pairs := [(255, 3, 4095)] })).core 7 63, ((lS 1 255 0 0 0 ({ xS 0x60 0 with pairs := [(255, 3, 4095)] })).core 7 63).cc.entryBytes, by and_intros <;> decide +kernel⟩,
    ⟨lS 2 0 9 7 0 (core0), 7, 63, (lS 2 0 9 7 0 (core0)).core 7 63, ((lS 2 0 9 7 0 (core0)).core 7 63).cc.entryBytes, 7, [9], by and_intros <;> decide +kernel⟩,
    ⟨({ lS 2 0 9 7 0 core0 with cores := [(7 * 64 + 63, { (lS 2 0 9 7 0 core0).core 7 63 with cc := { ((lS 2 0 9 7 0 core0).core 7 63).cc with fifo := [] } })] } : State), 7, 63, (({ lS 2 0 9 7 0 core0 with cores := [(7 * 64 + 63, { (lS 2 0 9 7 0 core0).core 7 63 with cc := { ((lS 2 0 9 7 0 core0).core 7 63).cc with fifo := [] } })] } : State)).core 7 63, ((({ lS 2 0 9 7 0 core0 with cores := [(7 * 64 + 63, { (lS 2 0 9 7 0 core0).core 7 63 with cc := { ((lS 2 0 9 7 0 core0).core 7 63).cc with fifo := [] } })] } : State)).core 7 63).cc.entryBytes, by and_intros <;> decide +kernel⟩,
    ⟨lS 3 0 65535 0 0 (xS 0x60 0), 7, 63, (lS 3 0 65535 0 0 (xS 0x60 0)).core 7 63, ((lS 3 0 65535 0 0 (xS 0x60 0)).core 7 63).cc.entryBytes, by and_intros <;> decide +kernel⟩,
    ⟨lS 4 3 1 1 0 (xS 0x60 0), 7, 63, (lS 4 3 1 1 0 (xS 0x60 0)).core 7 63, ((lS 4 3 1 1 0 (xS 0x60 0)).core 7 63).cc.entryBytes, by and_intros <;> decide +kernel⟩,
    ⟨lS 5 0 4095 0 77 (xS 0x60 0), 7, 63, (lS 5 0 4095 0 77 (xS 0x60 0)).core 7 63, ((lS 5 0 4095 0 77 (xS 0x60 0)).core 7 63).cc.entryBytes, by and_intros <;> decide +kernel⟩,
    ⟨lS 6 63 0 0 (2 ^ 64 - 1) { core0 with sa := outS 1 2, sx := freshStream }, 7, 63, (lS 6 63 0 0 (2 ^ 64 - 1) { core0 with sa := outS 1 2, sx := freshStream }).core 7 63, ((lS 6 63 0 0 (2 ^ 64 - 1) { core0 with sa := outS 1 2, sx := freshStream }).core 7 63).cc.entryBytes, by and_intros <;> decide +kernel⟩,
    ⟨lS 7 0 0 0 0 (core0), 7, 63, (lS 7 0 0 0 0 (core0)).core 7 63, ((lS 7 0 0 0 0 (core0)).core 7 63).cc.entryBytes, by and_intros <;> decide +kernel⟩⟩

theorem witness_RoutinesEndWithTheirStatus :
    (∃ (s : State) (d : Nat) (c : Nat) (x : Call), (s.core d c).routine = some x ∧ x.id = 0x001 ∧ x.source ≠ 0) ∧
    (∃ (s : State) (d : Nat) (c : Nat) (x : Call), (s.core d c).routine = some x ∧ x.id = 0x001 ∧ x.source = 0) ∧
    (∃ (s : State) (d : Nat) (c : Nat) (x : Call), (s.core d c).routine = some x ∧ x.id = 0x030) ∧
    (∃ (p : _) (s : State) (d : Nat) (c : Nat) (x : Call) (ws : List Nat), p ∈ [(Instr.sample, 0x010), (Instr.argmax, 0x011)] ∧ (s.core d c).routine = some x ∧ x.id = p.2 ∧ (s.core d c).ocallInput = some ws ∧ (∃ w ∈ ws, f32IsNan w = true)) ∧
    (∃ (p : _) (s : State) (d : Nat) (c : Nat) (x : Call) (ws : List Nat), p ∈ [(Instr.sample, 0x010), (Instr.argmax, 0x011)] ∧ (s.core d c).routine = some x ∧ x.id = p.2 ∧ (s.core d c).ocallInput = some ws ∧ (∀ w ∈ ws, w = negInf32)) ∧
    (∃ (s : State) (d : Nat) (c : Nat) (x : Call) (ws : List Nat), (s.core d c).routine = some x ∧ x.id = 0x011 ∧ (s.core d c).ocallInput = some ws ∧ (∀ w ∈ ws, f32IsNan w = false) ∧ (∃ w ∈ ws, w ≠ negInf32)) ∧
    (∃ (s : State) (d : Nat) (c : Nat) (x : Call) (ws : List Nat), (s.core d c).routine = some x ∧ x.id = 0x010 ∧ (s.core d c).ocallInput = some ws ∧ (∀ w ∈ ws, f32IsNan w = false) ∧ (∃ w ∈ ws, w ≠ negInf32)) ∧
    (∃ (p : _) (s : State) (d : Nat) (c : Nat) (n : Nat) (x : Call) (ws : List Nat), p ∈ [(Instr.rmsnormFb, 0x020), (Instr.layernormFb, 0x021)] ∧ (s.core d c).routine = some x ∧ x.id = p.2 ∧ (s.core d c).ocallInput = some ws ∧ ws.length = 16 * n) ∧
    (∃ (s : State) (d : Nat) (c : Nat) (x : Call), (s.core d c).cc.call = some x ∧ x.source = 0) ∧
    (∃ (s : State) (d : Nat) (c : Nat) (st : Nat) (x : Call), (s.core d c).cc.call = some x ∧ x.source = 1 ∧ st = 0 ∧ (s.core d c).patchDue.isSome = true) ∧
    (∃ (s : State) (d : Nat) (c : Nat) (x : Call), (s.core d c).routine = some x ∧ x.id = 0x040 ∧ (0xC000 < x.arg + 32 ∨ postOk ((s.core d c).cc.bytes x.arg 32) = false)) ∧
    (∃ (s : State) (d : Nat) (c : Nat) (dd : Nat) (kk : Nat) (slot : Nat) (x : Call) (b : List Byte) (u : State), (s.core d c).routine = some x ∧ x.id = 0x040 ∧ b = (s.core d c).cc.bytes x.arg 32 ∧ postOk b = true ∧ x.arg + 32 ≤ 0xC000 ∧ s.writePending (.cc d c) = false ∧ field b 0x0C 1 = 1 ∧ dd = field b 0x0E 1 / 4 ∧ kk = field b 0x0E 1 % 4 ∧ slot = field b 0x0D 1 ∧ s.post (senderCc d c) dd kk slot (field b 0 8) (field b 8 4) = (u, .ok) ∧ (s.core d c).cc.postTries = 0) ∧
    (∃ (s : State) (d : Nat) (c : Nat) (dd : Nat) (kk : Nat) (slot : Nat) (x : Call) (b : List Byte) (u : State), (s.core d c).routine = some x ∧ x.id = 0x040 ∧ b = (s.core d c).cc.bytes x.arg 32 ∧ postOk b = true ∧ x.arg + 32 ≤ 0xC000 ∧ s.writePending (.cc d c) = false ∧ field b 0x0C 1 = 1 ∧ dd = field b 0x0E 1 / 4 ∧ kk = field b 0x0E 1 % 4 ∧ slot = field b 0x0D 1 ∧ s.post (senderCc d c) dd kk slot (field b 0 8) (field b 8 4) = (u, .ok) ∧ (s.core d c).cc.postTries ≠ 0) ∧
    (∃ (s : State) (d : Nat) (c : Nat) (st : Nat) (k : Core), k = s.core d c ∧ st ≠ 0 ∧ k.patchDue = none ∧ k.cc.due = none ∧ k.cc.dmaDue = none) ∧
    (∃ (s : State) (d : Nat) (c : Nat), (s.core d c).cc.abortDue = true) :=
  ⟨⟨callS 1 1 0x40 (xS 0x60 0), 7, 63, ⟨1, 1, 0x40, 2, none, 0, false, 0, false, none, none⟩, by and_intros <;> decide +kernel⟩,
    ⟨rtS 0 1 logits, 7, 63, ⟨0, 1, 0x40, 2, none, 0, false, 0, false, none, none⟩, by and_intros <;> decide +kernel⟩,
    ⟨callS 1 0x30 0x40 (xS 0x60 0), 7, 63, ⟨1, 48, 0x40, 2, none, 0, false, 0, false, none, none⟩, by and_intros <;> decide +kernel⟩,
    ⟨((Instr.sample, 16) : (Nat → Nat → Instr) × Nat), rtS 0 16 (0x7FC00000 :: logits.drop 1), 7, 63, ⟨0, 16, 0x40, 2, none, 0, false, 0, false, none, none⟩, (((rtS 0 16 (0x7FC00000 :: logits.drop 1)).core 7 63).ocallInput).get (by decide +kernel), by simp, by decide +kernel, by decide +kernel, some_get, by decide +kernel⟩,
    ⟨((Instr.sample, 16) : (Nat → Nat → Instr) × Nat), rtS 0 16 (List.replicate 16 negInf32), 7, 63, ⟨0, 16, 0x40, 2, none, 0, false, 0, false, none, none⟩, (((rtS 0 16 (List.replicate 16 negInf32)).core 7 63).ocallInput).get (by decide +kernel), by simp, by decide +kernel, by decide +kernel, some_get, by decide +kernel⟩,
    ⟨rtS 0 17 logits, 7, 63, ⟨0, 17, 0x40, 2, none, 0, false, 0, false, none, none⟩, (((rtS 0 17 logits).core 7 63).ocallInput).get (by decide +kernel), by decide +kernel, by decide +kernel, some_get, by and_intros <;> decide +kernel⟩,
    ⟨rtS 0 16 logits, 7, 63, ⟨0, 16, 0x40, 2, none, 0, false, 0, false, none, none⟩, (((rtS 0 16 logits).core 7 63).ocallInput).get (by decide +kernel), by decide +kernel, by decide +kernel, some_get, by and_intros <;> decide +kernel⟩,
    ⟨((Instr.rmsnormFb, 32) : (Nat → Nat → Instr) × Nat), rtS 0 32 logits, 7, 63, 1, ⟨0, 32, 0x40, 2, none, 0, false, 0, false, none, none⟩, (((rtS 0 32 logits).core 7 63).ocallInput).get (by decide +kernel), by simp, by decide +kernel, by decide +kernel, some_get, by decide +kernel⟩,
    ⟨callS 0 1 0x40 (xS 0x60 0), 7, 63, ⟨0, 1, 0x40, 2, none, 0, false, 0, false, none, none⟩, by and_intros <;> decide +kernel⟩,
    ⟨callS 1 1 0x40 { xS 0x60 0 with patchDue := some 2, cc := { freshCtl with mode := 1, entry := 4 } }, 7, 63, 0, ⟨1, 1, 0x40, 2, none, 0, false, 0, false, none, none⟩, by and_intros <;> decide +kernel⟩,
    ⟨callS 0 0x40 0x40 { xS 0x60 0 with cc := { freshCtl with dmem := postBlk 4 0 0 0 } }, 7, 63, ⟨0, 64, 0x40, 2, none, 0, false, 0, false, none, none⟩, by and_intros <;> decide +kernel⟩,
    ⟨bound (callS 0 0x40 0x40 { xS 0x60 0 with cc := { freshCtl with dmem := postBlk 1 255 31 1 } }) 7 3 255 0 15 (2 ^ 10), 7, 63, 7, 3, 255, ⟨0, 64, 0x40, 2, none, 0, false, 0, false, none, none⟩, ((bound (callS 0 0x40 0x40 { xS 0x60 0 with cc := { freshCtl with dmem := postBlk 1 255 31 1 } }) 7 3 255 0 15 (2 ^ 10)).core 7 63).cc.bytes 0x40 32, ((bound (callS 0 0x40 0x40 { xS 0x60 0 with cc := { freshCtl with dmem := postBlk 1 255 31 1 } }) 7 3 255 0 15 (2 ^ 10)).post (senderCc 7 63) 7 3 255 (field (((bound (callS 0 0x40 0x40 { xS 0x60 0 with cc := { freshCtl with dmem := postBlk 1 255 31 1 } }) 7 3 255 0 15 (2 ^ 10)).core 7 63).cc.bytes 0x40 32) 0 8) (field (((bound (callS 0 0x40 0x40 { xS 0x60 0 with cc := { freshCtl with dmem := postBlk 1 255 31 1 } }) 7 3 255 0 15 (2 ^ 10)).core 7 63).cc.bytes 0x40 32) 8 4)).1, by and_intros <;> decide +kernel⟩,
    ⟨bound (callS 0 0x40 0x40 { xS 0x60 0 with cc := { freshCtl with dmem := postBlk 1 255 31 1, postTries := 1 } }) 7 3 255 0 15 (2 ^ 10), 7, 63, 7, 3, 255, ⟨0, 64, 0x40, 2, none, 0, false, 0, false, none, none⟩, ((bound (callS 0 0x40 0x40 { xS 0x60 0 with cc := { freshCtl with dmem := postBlk 1 255 31 1, postTries := 1 } }) 7 3 255 0 15 (2 ^ 10)).core 7 63).cc.bytes 0x40 32, ((bound (callS 0 0x40 0x40 { xS 0x60 0 with cc := { freshCtl with dmem := postBlk 1 255 31 1, postTries := 1 } }) 7 3 255 0 15 (2 ^ 10)).post (senderCc 7 63) 7 3 255 (field (((bound (callS 0 0x40 0x40 { xS 0x60 0 with cc := { freshCtl with dmem := postBlk 1 255 31 1, postTries := 1 } }) 7 3 255 0 15 (2 ^ 10)).core 7 63).cc.bytes 0x40 32) 0 8) (field (((bound (callS 0 0x40 0x40 { xS 0x60 0 with cc := { freshCtl with dmem := postBlk 1 255 31 1, postTries := 1 } }) 7 3 255 0 15 (2 ^ 10)).core 7 63).cc.bytes 0x40 32) 8 4)).1, by and_intros <;> decide +kernel⟩,
    ⟨callS 1 0x30 0x40 (xS 0x60 0), 7, 63, 3, (callS 1 0x30 0x40 (xS 0x60 0)).core 7 63, by and_intros <;> decide +kernel⟩,
    ⟨callS 1 0x30 0x40 { xS 0x60 0 with faulted := some 0x4301, counters := [(3, 4)], queues := [(3, [⟨[], true, none⟩])], cc := { freshCtl with abortDue := true } }, 7, 63, by decide +kernel⟩⟩

theorem witness_TransfersMoveTheirBytesInOrder :
    (∃ (s : State) (d : Nat) (c : Nat) (k : Core) (w : Nat) (a : Nat), k = s.core d c ∧ k.issues false Enc7.opXFER = true ∧ w = k.next false ∧ k.engineItems (Enc7.xferEngine w) < 16 ∧ ((Enc7.xferEngine w = true → s.de1Present d c = true)) ∧ a = plusOff (k.preg k.sa.replay (Enc7.xferPreg w)) (Enc7.xferOffset w) ∧ a % 64 = 0 ∧ inSpm d c a 64 = true ∧ k.windowed a 64 = true) ∧
    (∃ (p : _) (s : State) (d : Nat) (c : Nat) (n : Nat) (out : Nat) (de1 : Bool) (x : Xfer) (ms : List Move) (ix : List (Nat × Nat)), p ∈ [(Instr.dmaCopy, 1), (Instr.permute, 2), (Instr.gather, 3)] ∧ (s.core d c).runnable de1 n p.2 = some x ∧ x.next ≠ 1 ∧ tSpace x.src = 0 ∧ tSpace x.dst = 0 ∧ s.reqsOf (dmaOwns d c de1 x.id) = [] ∧ ms = s.moves x ∧ ix = (if p.2 = 3 then [(tBase x.idx, 4 * x.gathered)] else []) ∧ out = (if p.2 = 3 then s.gatherOut x else 0) ∧ ((p.2 = 3 → s.gatherStop x = none)) ∧ s.stoppedPieces (s.fetches x ++ ms.map (·.dst) ++ ix) = false ∧ s.walkReady d c ix false = true ∧ s.walkReady d c (s.fetches x) false = true ∧ s.walkReady d c (ms.map (·.dst)) true = true ∧ ((∀ m ∈ ms, ∀ q, m.src = some q → s.anyPoison q.1 q.2 = false))) ∧
    (∃ (s : State) (d : Nat) (c : Nat) (n : Nat) (de1 : Bool) (x : Xfer) (ps : List (Nat × Nat)) (first : Nat), (s.core d c).runnable de1 n 4 = some x ∧ x.next ≠ 1 ∧ tSpace x.dst = 0 ∧ ps = x.dstSlice.flatten ∧ first = (ps.headD (0, 0)).1 ∧ s.stoppedPieces ps = false ∧ s.walkReady d c ps true = true) ∧
    (∃ (s : State) (d : Nat) (c : Nat) (n : Nat) (de1 : Bool) (x : Xfer) (q : Desc), (s.core d c).runnable de1 n 5 = some x ∧ x.seq = none ∧ x.status = 0 ∧ x.next < x.nouter ∧ q = ⟨s.readBytes x.nextAt 64⟩ ∧ inSpm d c x.nextAt (64 + inlineLen q) = true ∧ s.seqWindows d c (.engine d c (4 + flag de1)) x.id q = true) ∧
    (∃ (s : State) (d : Nat) (c : Nat) (n : Nat) (de1 : Bool) (x : Xfer), (s.core d c).runnable de1 n 5 = some x ∧ x.seq = none ∧ (x.nouter ≤ x.next ∨ x.status ≠ 0)) ∧
    (∃ (p : _) (s : State) (d : Nat) (c : Nat) (n : Nat) (de1 : Bool), p ∈ [(Instr.dmaCopy, 1), (Instr.permute, 2), (Instr.gather, 3), (Instr.dmaFill, 4), (Instr.bseq, 5)] ∧ (s.core d c).unfenced de1 n = false) ∧
    (∃ (s : State) (d : Nat) (c : Nat) (n : Nat) (de1 : Bool) (x : Xfer), ((s.core d c).engine de1)[n]? = some x ∧ x.ran = true ∧ x.walk = none ∧ x.marker = none ∧ x.seq = none ∧ (s.core d c).unfenced de1 n = true ∧ (s.core d c).faulted = none ∧ x.records = false ∧ x.signals = false) ∧
    (∃ (s : State) (d : Nat) (c : Nat) (n : Nat) (de1 : Bool) (x : Xfer), ((s.core d c).engine de1)[n]? = some x ∧ x.ran = true ∧ x.walk = none ∧ x.marker = none ∧ x.seq = none ∧ (s.core d c).unfenced de1 n = true ∧ (s.core d c).faulted = none ∧ x.records = true ∧ x.signals = false ∧ x.cmplOk d c = true) ∧
    (∃ (s : State) (d : Nat) (c : Nat) (n : Nat) (de1 : Bool) (x : Xfer), ((s.core d c).engine de1)[n]? = some x ∧ x.ran = true ∧ x.walk = none ∧ x.marker = none ∧ x.seq = none ∧ (s.core d c).unfenced de1 n = true ∧ (s.core d c).faulted = none ∧ x.signals = true ∧ x.cmplOk d c = true ∧ (s.core d c).isFull (x.cmpl - spmBase d c) = false) ∧
    (∃ (s : State) (d : Nat) (c : Nat) (n : Nat) (de1 : Bool) (x : Xfer), ((s.core d c).engine de1)[n]? = some x ∧ x.ran = true ∧ x.walk = none ∧ x.marker = none ∧ x.seq = none ∧ (s.core d c).unfenced de1 n = true ∧ (s.core d c).faulted = none ∧ x.signals = true ∧ x.cmplOk d c = true ∧ (s.core d c).isFull (x.cmpl - spmBase d c) = true) ∧
    (∃ (s : State) (d : Nat) (c : Nat) (n : Nat) (de1 : Bool) (x : Xfer), d < 8 ∧ c < 64 ∧ ((s.core d c).engine de1)[n]? = some x ∧ x.ran = true ∧ x.walk = none ∧ x.marker = none ∧ x.seq = none ∧ (s.core d c).unfenced de1 n = true ∧ (s.core d c).faulted = none ∧ x.records = false ∧ x.signals = false ∧ 0 < x.status ∧ x.status < 8 ∧ x.reason < 2 ^ 16 ∧ s.fld d c (flag de1) DE_ERROR.VALID = 0) ∧
    (∃ (s : State) (d : Nat) (c : Nat) (n : Nat) (de1 : Bool), (s.core d c).unfenced de1 n = false) :=
  ⟨⟨put (coreS { aS Enc7.opXFER (63 * 2 ^ 102 + 2 ^ 108 + 2 ^ 114 + 15 * 2 ^ 110 + 0 * 2 ^ 109) with desc := [(254, T1), (255, T2), (253, IX)] }) (spm + 64) ((xdesc 1 0 254 255 0 9 0 0 0 0 0 0)), 7, 63, (put (coreS { aS Enc7.opXFER (63 * 2 ^ 102 + 2 ^ 108 + 2 ^ 114 + 15 * 2 ^ 110 + 0 * 2 ^ 109) with desc := [(254, T1), (255, T2), (253, IX)] }) (spm + 64) ((xdesc 1 0 254 255 0 9 0 0 0 0 0 0))).core 7 63, ((put (coreS { aS Enc7.opXFER (63 * 2 ^ 102 + 2 ^ 108 + 2 ^ 114 + 15 * 2 ^ 110 + 0 * 2 ^ 109) with desc := [(254, T1), (255, T2), (253, IX)] }) (spm + 64) ((xdesc 1 0 254 255 0 9 0 0 0 0 0 0))).core 7 63).next false, spm + 64, by decide +kernel, by decide +kernel, rfl, by and_intros <;> decide +kernel⟩,
    ⟨((Instr.dmaCopy, 1) : (Nat → Nat → Bool → Nat → Instr) × Nat), datS { core0 with de0 := [(xf (xdesc 1 0 254 255 0 9 0 0 0 0 0 0) T1 T2 [])] }, 7, 63, 0, 0, false, (xf (xdesc 1 0 254 255 0 9 0 0 0 0 0 0) T1 T2 []), (datS { core0 with de0 := [(xf (xdesc 1 0 254 255 0 9 0 0 0 0 0 0) T1 T2 [])] }).moves ((xf (xdesc 1 0 254 255 0 9 0 0 0 0 0 0) T1 T2 [])), (if (((Instr.dmaCopy, 1) : (Nat → Nat → Bool → Nat → Instr) × Nat)).2 = 3 then [(tBase ((xf (xdesc 1 0 254 255 0 9 0 0 0 0 0 0) T1 T2 [])).idx, 4 * ((xf (xdesc 1 0 254 255 0 9 0 0 0 0 0 0) T1 T2 [])).gathered)] else []), by simp, by and_intros <;> decide +kernel⟩,
    ⟨datS { core0 with de0 := [(xf (xdesc 4 0 0 255 0 9 0 0 1 2 0 0x0807060504030201) [] T2 [])] }, 7, 63, 0, false, (xf (xdesc 4 0 0 255 0 9 0 0 1 2 0 0x0807060504030201) [] T2 []), ((xf (xdesc 4 0 0 255 0 9 0 0 1 2 0 0x0807060504030201) [] T2 [])).dstSlice.flatten, ((((xf (xdesc 4 0 0 255 0 9 0 0 1 2 0 0x0807060504030201) [] T2 [])).dstSlice.flatten).headD (0, 0)).1, by and_intros <;> decide +kernel⟩,
    ⟨put (datS { core0 with windows := [(0x100000000000, 2 ^ 43), (spm, spmSize)], de0 := [(xf (xdesc 5 0 0 0 0 9 0 0 0 2 0 (spm + 0x4000)) [] [] [])] }) (spm + 0x4000) smaxDesc, 7, 63, 0, false, (xf (xdesc 5 0 0 0 0 9 0 0 0 2 0 (spm + 0x4000)) [] [] []), ⟨(put (datS { core0 with windows := [(0x100000000000, 2 ^ 43), (spm, spmSize)], de0 := [(xf (xdesc 5 0 0 0 0 9 0 0 0 2 0 (spm + 0x4000)) [] [] [])] }) (spm + 0x4000) smaxDesc).readBytes ((xf (xdesc 5 0 0 0 0 9 0 0 0 2 0 (spm + 0x4000)) [] [] [])).nextAt 64⟩, by decide +kernel, by decide +kernel, by decide +kernel, (by decide +kernel), rfl, by and_intros <;> decide +kernel⟩,
    ⟨datS { core0 with de0 := [({ (xf (xdesc 5 0 0 0 0 9 0 0 0 2 0 (spm + 0x4000)) [] [] []) with next := 2 } : Xfer)] }, 7, 63, 0, false, ({ (xf (xdesc 5 0 0 0 0 9 0 0 0 2 0 (spm + 0x4000)) [] [] []) with next := 2 } : Xfer), by and_intros <;> decide +kernel⟩,
    ⟨((Instr.dmaCopy, 1) : (Nat → Nat → Bool → Nat → Instr) × Nat), datS { core0 with de0 := [walkXfer 0 0 1 2, { (xf (xdesc 1 0 254 255 0 9 0 0 0 0 0 0) T1 T2 []) with fence := true }] }, 7, 63, 1, false, by simp, by decide +kernel⟩,
    ⟨coreS { core0 with de0 := [({ xf (xdesc 1 0 254 255 0 9 0 0 0 0 (spm + 128) 0) T1 T2 [] with ran := true, status := 0, reason := 0, tok := some 15, bytes := 48 } : Xfer)] }, 7, 63, 0, false, ({ xf (xdesc 1 0 254 255 0 9 0 0 0 0 (spm + 128) 0) T1 T2 [] with ran := true, status := 0, reason := 0, tok := some 15, bytes := 48 } : Xfer), by and_intros <;> decide +kernel⟩,
    ⟨coreS { core0 with de0 := [({ xf (xdesc 1 4 254 255 0 9 0 0 0 0 (spm + 128) 0) T1 T2 [] with ran := true, status := 3, reason := 65535, tok := some 15, bytes := 48 } : Xfer)] }, 7, 63, 0, false, ({ xf (xdesc 1 4 254 255 0 9 0 0 0 0 (spm + 128) 0) T1 T2 [] with ran := true, status := 3, reason := 65535, tok := some 15, bytes := 48 } : Xfer), by and_intros <;> decide +kernel⟩,
    ⟨coreS { core0 with de0 := [({ xf (xdesc 1 2 254 255 0 9 0 0 0 0 (spm + 128) 0) T1 T2 [] with ran := true, status := 0, reason := 0, tok := some 15, bytes := 48 } : Xfer)] }, 7, 63, 0, false, ({ xf (xdesc 1 2 254 255 0 9 0 0 0 0 (spm + 128) 0) T1 T2 [] with ran := true, status := 0, reason := 0, tok := some 15, bytes := 48 } : Xfer), by and_intros <;> decide +kernel⟩,
    ⟨coreS { core0 with de0 := [({ xf (xdesc 1 2 254 255 0 9 0 0 0 0 (spm + 128) 0) T1 T2 [] with ran := true, status := 3, reason := 65535, tok := some 15, bytes := 48 } : Xfer)], full := [2] }, 7, 63, 0, false, ({ xf (xdesc 1 2 254 255 0 9 0 0 0 0 (spm + 128) 0) T1 T2 [] with ran := true, status := 3, reason := 65535, tok := some 15, bytes := 48 } : Xfer), by and_intros <;> decide +kernel⟩,
    ⟨coreS { core0 with de0 := [({ xf (xdesc 1 0 254 255 0 9 0 0 0 0 (spm + 128) 0) T1 T2 [] with ran := true, status := 7, reason := 65535, tok := some 15, bytes := 48 } : Xfer)] }, 7, 63, 0, false, ({ xf (xdesc 1 0 254 255 0 9 0 0 0 0 (spm + 128) 0) T1 T2 [] with ran := true, status := 7, reason := 65535, tok := some 15, bytes := 48 } : Xfer), by and_intros <;> decide +kernel⟩,
    ⟨datS { core0 with de0 := [walkXfer 0 0 1 2, { (xf (xdesc 1 0 254 255 0 9 0 0 0 0 0 0) T1 T2 []) with fence := true }] }, 7, 63, 1, false, by decide +kernel⟩⟩

theorem witness_NoticesFillSlotsAndStartWork :
    (∃ (s : State) (d : Nat) (k : Nat) (n : Nat) (from_ : Nat), s.power.mode = .ready ∧ slotExists d k n = true ∧ s.mayPost (s.binding d k n) from_ = true ∧ s.noticeAt d k n = none) ∧
    (∃ (s : State) (d : Nat) (k : Nat) (n : Nat) (from_ : Nat), s.power.mode = .ready ∧ slotExists d k n = true ∧ s.mayPost (s.binding d k n) from_ = true ∧ s.noticeAt d k n ≠ none) ∧
    (∃ (s : State) (d : Nat) (k : Nat) (n : Nat) (from_ : Nat), s.power.mode = .ready ∧ (slotExists d k n = false ∨ s.mayPost (s.binding d k n) from_ = false)) ∧
    (∃ (s : State) (u : State) (d : Nat) (c : Nat) (d' : Nat) (k : Nat) (n : Nat) (pointer : Nat) (tag : Nat) (r : PostResult), d < 8 ∧ c < 64 ∧ s.power.mode = .ready ∧ s.writePending (.cc d c) = false ∧ s.post (senderCc d c) d' k n pointer tag = (u, r)) ∧
    (∃ (s : State) (u : State) (d : Nat) (q : Nat) (d' : Nat) (k : Nat) (n : Nat) (pointer : Nat) (tag : Nat) (r : PostResult), d < 8 ∧ q < 4 ∧ s.power.mode = .ready ∧ s.writePending (.aseq d q) = false ∧ s.post (senderAseq d q) d' k n pointer tag = (u, r)) ∧
    (∃ (s : State) (d : Nat) (c : Nat), d < 8 ∧ c < 64 ∧ s.power.mode = .ready ∧ s.writePending (.cc d c) = true) ∧
    (∃ (s : State) (u : State) (i : Nat) (d : Nat) (k : Nat) (n : Nat) (from_ : Nat) (pointer : Nat) (tag : Nat), s.kept[i]? = some ⟨from_, .local_ d k n, pointer, tag⟩ ∧ (∀ y ∈ s.kept.take i, y.sender ≠ from_) ∧ s.writePending (senderWriter from_) = false ∧ s.noticeAt d k n = none ∧ s.post from_ d k n pointer tag = (u, .ok)) ∧
    (∃ (s : State) (i : Nat) (d : Nat) (k : Nat) (n : Nat) (from_ : Nat) (pointer : Nat) (tag : Nat), s.kept[i]? = some ⟨from_, .local_ d k n, pointer, tag⟩ ∧ senderKind from_ ≠ 1 ∧ s.noticeAt d k n ≠ none) ∧
    (∃ (s : State) (port : Nat) (off : Nat) (d : Nat) (k : Nat) (n : Nat), port < 8 ∧ s.power.mode = .ready ∧ off % 16 = 0 ∧ off < 0x20100 ∧ (d, k, n) = regionSlot off) ∧
    (∃ (s : State) (port : Nat) (off : Nat) (d : Nat) (k : Nat) (n : Nat), port < 8 ∧ s.power.mode = .ready ∧ (∀ h ∈ s.mem.held, ∀ i, h.ag ≠ .host port i) ∧ off % 16 = 0 ∧ off < 0x20000 ∧ (d, k, n) = regionSlot off ∧ s.hostSlot port d k n = true) ∧
    (∃ (s : State) (port : Nat) (off : Nat) (d : Nat) (k : Nat) (n : Nat), port < 8 ∧ s.power.mode = .ready ∧ (∀ h ∈ s.mem.held, ∀ i, h.ag ≠ .host port i) ∧ off % 16 = 0 ∧ off < 0x20000 ∧ (d, k, n) = regionSlot off ∧ s.hostSlot port d k n = true) ∧
    (∃ (d : Nat), d < 8) ∧
    (∃ (s : State) (d : Nat) (k : Nat) (x : Notice), s.nextNotice d k 1 0 = some x ∧ (s.liveSteps.filter fun y => y.d = d && y.k = k).length < 256 ∧ s.power.mode ≠ .safe ∧ s.posterReaches x.sender x.pointer 64 = true ∧ s.ready (.aseq d k) x.pointer 64 false = true) ∧
    (∃ (s : State) (d : Nat) (k : Nat) (i : Nat) (x : Notice) (c : Instr), i < 16 ∧ k < 4 ∧ (c = .noticeTake d k i ∨ c = .ccNoticeDispatch d (16 * k + i)) ∧ s.nextNotice d k 0 i = some x ∧ s.corePresent d (16 * k + i) = true ∧ (s.core d (16 * k + i)).takes 19 true = true ∧ (s.core d (16 * k + i)).cc.due = none ∧ (s.core d (16 * k + i)).faulted = none ∧ (s.core d (16 * k + i)).patchDue = none ∧ s.power.mode ≠ .safe ∧ s.posterReaches x.sender x.pointer 64 = true ∧ s.ready (.cc d (16 * k + i)) x.pointer 64 false = true ∧ 1 ≤ field (s.seen x.pointer 64) 0 1 ∧ field (s.seen x.pointer 64) 0 1 ≤ 6) ∧
    (∃ (s : State) (d : Nat) (k : Nat) (i : Nat) (x : Notice) (c : Instr), i < 16 ∧ k < 4 ∧ (c = .noticeTake d k i ∨ c = .ccNoticeDispatch d (16 * k + i)) ∧ s.nextNotice d k 0 i = some x ∧ s.corePresent d (16 * k + i) = true ∧ (s.core d (16 * k + i)).takes 19 true = true ∧ (s.core d (16 * k + i)).cc.due = none ∧ (s.core d (16 * k + i)).faulted = none ∧ (s.core d (16 * k + i)).patchDue = none ∧ s.power.mode ≠ .safe ∧ s.posterReaches x.sender x.pointer 64 = false) ∧
    (∃ (s : State) (d : Nat) (k : Nat) (x : Notice), s.nextNotice d k 1 0 = some x ∧ (s.liveSteps.filter fun y => y.d = d && y.k = k).length < 256 ∧ s.power.mode ≠ .safe ∧ s.posterReaches x.sender x.pointer 64 = false) :=
  ⟨⟨bound fullS 7 3 255 0 15 (2 ^ 10), 7, 3, 255, senderCc 7 63, by and_intros <;> decide +kernel⟩,
    ⟨noted (bound fullS 7 3 255 0 15 (2 ^ 10)) 7 3 255 64 0, 7, 3, 255, senderCc 7 63, by and_intros <;> decide +kernel⟩,
    ⟨bound fullS 7 3 255 0 15 (2 ^ 9), 7, 3, 255, senderCc 7 63, by and_intros <;> decide +kernel⟩,
    ⟨bound fullS 7 3 255 0 15 (2 ^ 10), ((bound fullS 7 3 255 0 15 (2 ^ 10)).post (senderCc 7 63) 7 3 255 64 1).1, 7, 63, 7, 3, 255, 64, 1, ((bound fullS 7 3 255 0 15 (2 ^ 10)).post (senderCc 7 63) 7 3 255 64 1).2, by and_intros <;> decide +kernel⟩,
    ⟨bound fullS 7 3 255 0 15 (2 ^ 10), ((bound fullS 7 3 255 0 15 (2 ^ 10)).post (senderAseq 7 3) 7 3 255 64 1).1, 7, 3, 7, 3, 255, 64, 1, ((bound fullS 7 3 255 0 15 (2 ^ 10)).post (senderAseq 7 3) 7 3 255 64 1).2, by and_intros <;> decide +kernel⟩,
    ⟨heldW (bound fullS 7 3 255 0 15 (2 ^ 10)) (.cc 7 63), 7, 63, by and_intros <;> decide +kernel⟩,
    ⟨({ bound fullS 7 3 255 0 15 (2 ^ 10) with kept := [⟨1, .local_ 0 0 0, 1, 1⟩, ⟨senderAseq 7 3, .local_ 7 3 255, 64, 9⟩] } : State), ((({ bound fullS 7 3 255 0 15 (2 ^ 10) with kept := [⟨1, .local_ 0 0 0, 1, 1⟩, ⟨senderAseq 7 3, .local_ 7 3 255, 64, 9⟩] } : State)).post (senderAseq 7 3) 7 3 255 64 9).1, 1, 7, 3, 255, senderAseq 7 3, 64, 9, by and_intros <;> decide +kernel⟩,
    ⟨({ noted (bound fullS 7 3 255 0 15 (2 ^ 10)) 7 3 255 64 0 with kept := [⟨1, .local_ 0 0 0, 1, 1⟩, ⟨senderAseq 7 3, .local_ 7 3 255, 64, 9⟩] } : State), 1, 7, 3, 255, senderAseq 7 3, 64, 9, by and_intros <;> decide +kernel⟩,
    ⟨bound fullS 7 3 255 2 7 (2 ^ 7), 7, 0x1FFF0, 7, 3, 255, by and_intros <;> decide +kernel⟩,
    ⟨bound fullS 7 3 255 2 7 (2 ^ 7), 7, 0x1FFF0, 7, 3, 255, by decide +kernel, by decide +kernel, (by intro h hm; cases hm), by and_intros <;> decide +kernel⟩,
    ⟨({ noted (bound fullS 7 3 255 2 7 (2 ^ 7)) 7 3 255 64 0 with notices := (noted fullS 7 3 255 64 0).notices ++ (noted fullS 7 3 254 64 0).notices } : State), 7, 0x1FFF0, 7, 3, 255, by decide +kernel, by decide +kernel, (by intro h hm; cases hm), by and_intros <;> decide +kernel⟩,
    ⟨7, by decide +kernel⟩,
    ⟨bound (noted (put kvS 0x100000005000 (leBytes 1 1 ++ leBytes 1 0 ++ leBytes 2 0 ++ leBytes 2 1 ++ leBytes 1 4 ++ leBytes 1 4 ++ leBytes 8 0x100000006000)) 7 3 255 0x100000005000 (senderCc 7 63)) 7 3 255 1 0 (2 ^ 10), 7, 3, ⟨7, 3, 255, leBytes 8 0x100000005000 ++ leBytes 4 5 ++ leBytes 4 (senderCc 7 63)⟩, by and_intros <;> decide +kernel⟩,
    ⟨noted (put (bound kvS 7 3 255 0 15 (2 ^ 10)) 0x100000005000 [6]) 7 3 255 0x100000005000 (senderCc 7 63), 7, 3, 15, ⟨7, 3, 255, leBytes 8 0x100000005000 ++ leBytes 4 5 ++ leBytes 4 (senderCc 7 63)⟩, .noticeTake 7 3 15, by and_intros <;> decide +kernel⟩,
    ⟨noted (put (bound kvS 7 3 255 0 15 (2 ^ 10)) 0x100000005000 [6]) 7 3 255 0x900000000000 (senderHost 3 9), 7, 3, 15, ⟨7, 3, 255, leBytes 8 0x900000000000 ++ leBytes 4 5 ++ leBytes 4 (senderHost 3 9)⟩, .noticeTake 7 3 15, by and_intros <;> decide +kernel⟩,
    ⟨bound (noted fullS 7 3 255 0x900000000000 (senderHost 3 9)) 7 3 255 1 0 8, 7, 3, ⟨7, 3, 255, leBytes 8 0x900000000000 ++ leBytes 4 5 ++ leBytes 4 (senderHost 3 9)⟩, by and_intros <;> decide +kernel⟩⟩

def wAtStRuThRo1_1_s : State := stS kvS2 (step0 1 [rw0 5, rw0 9])
def wAtStRuThRo1_1_x : Step := step0 1 [rw0 5, rw0 9]
def wAtStRuThRo1_2_s : State := ({ kvS2 with kv := { kvS2.kv with steps := [{ step0 1 [rw0 5] with id := 3 }, step0 1 [rw0 5, rw0 9]] } } : State)
def wAtStRuThRo1_2_x : Step := step0 1 [rw0 5, rw0 9]
def wAtStRuThRo2_s : State := ({ kvS2 with kv := { kvS2.kv with steps := [{ step0 1 [rw0 5] with id := 3 }, step0 1 [rw0 5, rw0 9]] } } : State)
def wAtStRuThRo2_x : Step := step0 1 [rw0 5, rw0 9]
def wAtStRuThRo2_y : Step := { step0 1 [rw0 5] with id := 3 }
def wAtStRuThRo2_v : StepRow := rw0 5
def wAtStRuThRo2_w : StepRow := rw0 5
def wAtStRuThRo3_s : State := stS kvS2 (step0 1 [rw0 5])
def wAtStRuThRo3_y : Step := step0 1 [rw0 5]
def wAtStRuThRo4_s : State := stS kvS2 (step0 1 [rw0 9])
def wAtStRuThRo4_x : Step := step0 1 [rw0 9]
def wAtStRuThRo4_w : StepRow := rw0 9
def wAtStRuThRo4_f : Nat × Nat × Nat := (2, 3, 0x0064)
def wAtStRuThRo6_1_s : State := stS kvS2 (step0 1 [{ rw0 5 with phase := 3, length := 300 }])
def wAtStRuThRo6_1_x : Step := step0 1 [{ rw0 5 with phase := 3, length := 300 }]
def wAtStRuThRo6_1_w : StepRow := ({ rw0 5 with phase := 3, length := 300 } : StepRow)
def wAtStRuThRo6_1_m : KvModel := wAtStRuThRo6_1_s.model wAtStRuThRo6_1_x.model
def wAtStRuThRo6_1_r : SeqRow := wAtStRuThRo6_1_s.seqRow wAtStRuThRo6_1_m wAtStRuThRo6_1_w.seq
def wAtStRuThRo6_1_ws : List (Nat × List Byte) := wAtStRuThRo6_1_s.appendWrites wAtStRuThRo6_1_x wAtStRuThRo6_1_w wAtStRuThRo6_1_m wAtStRuThRo6_1_r
def wAtStRuThRo6_1_acc : List (Nat × Nat × Bool) := (wAtStRuThRo6_1_w.kvAddr, kvPitch wAtStRuThRo6_1_m * (wAtStRuThRo6_1_m.ngroups * wAtStRuThRo6_1_m.h * 2), false) :: wAtStRuThRo6_1_ws.map (fun y => (y.1, y.2.length, true))
def wAtStRuThRo6_2_s : State := stS kvS2 (step0 1 [{ rw0 5 with phase := 3, length := 299 }])
def wAtStRuThRo6_2_x : Step := step0 1 [{ rw0 5 with phase := 3, length := 299 }]
def wAtStRuThRo6_2_w : StepRow := ({ rw0 5 with phase := 3, length := 299 } : StepRow)
def wAtStRuThRo6_2_m : KvModel := wAtStRuThRo6_2_s.model wAtStRuThRo6_2_x.model
def wAtStRuThRo6_2_r : SeqRow := wAtStRuThRo6_2_s.seqRow wAtStRuThRo6_2_m wAtStRuThRo6_2_w.seq
def wAtStRuThRo6_2_ws : List (Nat × List Byte) := wAtStRuThRo6_2_s.appendWrites wAtStRuThRo6_2_x wAtStRuThRo6_2_w wAtStRuThRo6_2_m wAtStRuThRo6_2_r
def wAtStRuThRo6_2_acc : List (Nat × Nat × Bool) := (wAtStRuThRo6_2_w.kvAddr, kvPitch wAtStRuThRo6_2_m * (wAtStRuThRo6_2_m.ngroups * wAtStRuThRo6_2_m.h * 2), false) :: wAtStRuThRo6_2_ws.map (fun y => (y.1, y.2.length, true))
def wAtStRuThRo7_1_1_s : State := stS (kvS) (step0 1 [{ rw0 5 with phase := 2, length := 300 }])
def wAtStRuThRo7_1_1_x : Step := step0 1 [{ rw0 5 with phase := 2, length := 300 }]
def wAtStRuThRo7_1_1_w : StepRow := ({ rw0 5 with phase := 2, length := 300 } : StepRow)
def wAtStRuThRo7_1_1_m : KvModel := wAtStRuThRo7_1_1_s.model wAtStRuThRo7_1_1_x.model
def wAtStRuThRo7_1_1_r : SeqRow := wAtStRuThRo7_1_1_s.seqRow wAtStRuThRo7_1_1_m wAtStRuThRo7_1_1_w.seq
def wAtStRuThRo7_1_1_got : Except Nat State := wAtStRuThRo7_1_1_s.allocPages wAtStRuThRo7_1_1_m wAtStRuThRo7_1_1_r wAtStRuThRo7_1_1_w.seq (wAtStRuThRo7_1_1_r.length / 256) (wAtStRuThRo7_1_1_s.newPlanes wAtStRuThRo7_1_1_m wAtStRuThRo7_1_1_r wAtStRuThRo7_1_1_w.seq (wAtStRuThRo7_1_1_r.length / 256))
def wAtStRuThRo7_1_2_s : State := stS (kvSmall [bk, ⟨30, 0, 0⟩] kvS) (step0 1 [{ rw0 5 with phase := 2, length := 300 }])
def wAtStRuThRo7_1_2_x : Step := step0 1 [{ rw0 5 with phase := 2, length := 300 }]
def wAtStRuThRo7_1_2_w : StepRow := ({ rw0 5 with phase := 2, length := 300 } : StepRow)
def wAtStRuThRo7_1_2_m : KvModel := wAtStRuThRo7_1_2_s.model wAtStRuThRo7_1_2_x.model
def wAtStRuThRo7_1_2_r : SeqRow := wAtStRuThRo7_1_2_s.seqRow wAtStRuThRo7_1_2_m wAtStRuThRo7_1_2_w.seq
def wAtStRuThRo7_1_2_got : Except Nat State := wAtStRuThRo7_1_2_s.allocPages wAtStRuThRo7_1_2_m wAtStRuThRo7_1_2_r wAtStRuThRo7_1_2_w.seq (wAtStRuThRo7_1_2_r.length / 256) (wAtStRuThRo7_1_2_s.newPlanes wAtStRuThRo7_1_2_m wAtStRuThRo7_1_2_r wAtStRuThRo7_1_2_w.seq (wAtStRuThRo7_1_2_r.length / 256))
def wAtStRuThRo7_1_3_s : State := stS (kvSmall [⟨30, 0, 0⟩] kvS) (step0 1 [{ rw0 5 with phase := 2, length := 300 }])
def wAtStRuThRo7_1_3_x : Step := step0 1 [{ rw0 5 with phase := 2, length := 300 }]
def wAtStRuThRo7_1_3_w : StepRow := ({ rw0 5 with phase := 2, length := 300 } : StepRow)
def wAtStRuThRo7_1_3_m : KvModel := wAtStRuThRo7_1_3_s.model wAtStRuThRo7_1_3_x.model
def wAtStRuThRo7_1_3_r : SeqRow := wAtStRuThRo7_1_3_s.seqRow wAtStRuThRo7_1_3_m wAtStRuThRo7_1_3_w.seq
def wAtStRuThRo7_1_3_got : Except Nat State := wAtStRuThRo7_1_3_s.allocPages wAtStRuThRo7_1_3_m wAtStRuThRo7_1_3_r wAtStRuThRo7_1_3_w.seq (wAtStRuThRo7_1_3_r.length / 256) (wAtStRuThRo7_1_3_s.newPlanes wAtStRuThRo7_1_3_m wAtStRuThRo7_1_3_r wAtStRuThRo7_1_3_w.seq (wAtStRuThRo7_1_3_r.length / 256))
def wAtStRuThRo7_2_s : State := stS (kvS) (step0 1 [{ rw0 5 with phase := 2, length := 299 }])
def wAtStRuThRo7_2_x : Step := step0 1 [{ rw0 5 with phase := 2, length := 299 }]
def wAtStRuThRo7_2_w : StepRow := ({ rw0 5 with phase := 2, length := 299 } : StepRow)
def wAtStRuThRo7_2_m : KvModel := wAtStRuThRo7_2_s.model wAtStRuThRo7_2_x.model
def wAtStRuThRo7_2_r : SeqRow := wAtStRuThRo7_2_s.seqRow wAtStRuThRo7_2_m wAtStRuThRo7_2_w.seq
def wAtStRuThRo7_2_got : Except Nat State := wAtStRuThRo7_2_s.allocPages wAtStRuThRo7_2_m wAtStRuThRo7_2_r wAtStRuThRo7_2_w.seq (wAtStRuThRo7_2_r.length / 256) (wAtStRuThRo7_2_s.newPlanes wAtStRuThRo7_2_m wAtStRuThRo7_2_r wAtStRuThRo7_2_w.seq (wAtStRuThRo7_2_r.length / 256))
def wAtStRuThRo8_s : State := stS kvS2 (step0 1 [{ rw0 5 with parts := [⟨0, 2, 0, ⟨0x3F800000, 0x3F800000, List.replicate 16 0⟩⟩, ⟨0, 2, 0, ⟨0x3F800000, 0x3F800000, List.replicate 16 0⟩⟩] }])
def wAtStRuThRo8_x : Step := step0 1 [{ rw0 5 with parts := [⟨0, 2, 0, ⟨0x3F800000, 0x3F800000, List.replicate 16 0⟩⟩, ⟨0, 2, 0, ⟨0x3F800000, 0x3F800000, List.replicate 16 0⟩⟩] }]
def wAtStRuThRo9_s : State := (stS kvS2 (step0 1 [{ rw0 5 with core := [⟨0, 0, 0, 1, 3⟩] }])).setFld 7 3 0 ASEQ_CORES.MASK 1
def wAtStRuThRo9_x : Step := step0 1 [{ rw0 5 with core := [⟨0, 0, 0, 1, 3⟩] }]
def wAtStRuThRo9_w : StepRow := (wAtStRuThRo9_x.rows[0]?).get (by decide +kernel)
def wAtStRuThRo9_t : HeadPage := ⟨0, 0, 0, 1, 3⟩
def wAtStRuThRo9_rest : List HeadPage := []
def wAtStRuThRo10_s : State := (stS kvS2 (step0 1 [{ rw0 5 with phase := 9 }]))
def wAtStRuThRo10_x : Step := step0 1 [{ rw0 5 with phase := 9 }]
def wAtStRuThRo10_bad : List Nat := wAtStRuThRo10_s.failedRows wAtStRuThRo10_x
def wAtStRuThRo10_v : State := ((wAtStRuThRo10_bad.foldl (fun wAtStRuThRo10_s a => wAtStRuThRo10_s.writeBytes (a + 4) (leBytes 1 3 ++ leBytes 1 0 ++ leBytes 2 0x0002)) wAtStRuThRo10_s).writeBytes (wAtStRuThRo10_x.pointer + 0x20) (leBytes 1 wAtStRuThRo10_x.outcome.1)).writeBytes (wAtStRuThRo10_x.pointer + 0x22) (leBytes 2 wAtStRuThRo10_x.outcome.2.1 ++ leBytes 2 wAtStRuThRo10_x.outcome.2.2)
def wAtStRuThRo10_acc : List (Nat × Nat × Bool) := (wAtStRuThRo10_x.pointer, 64, true) :: wAtStRuThRo10_bad.map (fun a => (a, 32, true))
def wAtStRuThRo11_x : Step := step0 1 [rw0 5, rw0 9]
theorem witness_AttentionStepsRunTheirRows :
    (∃ (p : _) (s : State) (d : Nat) (k : Nat) (n : Nat) (x : Step), p ∈ [(Instr.stepDecode, 1), (Instr.stepAttend, 2), (Instr.stepAppend, 3)] ∧ s.stepAt d k n = some x ∧ x.kind = p.2 ∧ x.failed = none ∧ s.power.mode ≠ .safe ∧ s.stepHeld x = false) ∧
    (∃ (p : _) (s : State) (d : Nat) (k : Nat) (n : Nat) (x : Step), p ∈ [(Instr.stepDecode, 1), (Instr.stepAttend, 2), (Instr.stepAppend, 3)] ∧ s.stepAt d k n = some x ∧ x.kind = p.2 ∧ x.failed = none ∧ s.power.mode ≠ .safe ∧ s.stepHeld x = true) ∧
    (∃ (s : State) (x : Step) (y : Step) (v : StepRow) (w : StepRow), y ∈ s.liveSteps ∧ y.d = x.d ∧ y.k = x.k ∧ y.id < x.id ∧ y.layer = x.layer ∧ y.failed = none ∧ v ∈ y.rows ∧ w ∈ x.rows ∧ v.seq = w.seq) ∧
    (∃ (s : State) (y : Step), y ∈ s.kv.steps ∧ (y.ended = false ∨ s.noticeKept y = true)) ∧
    (∃ (s : State) (x : Step) (i : Nat) (w : StepRow) (f : Nat × Nat × Nat), w.phase = 0 ∧ w.prec = 99 ∧ s.rowCheck x i w = some f) ∧
    (∃ (a : Nat) (a' : Nat), a < a') ∧
    (∃ (s : State) (x : Step) (w : StepRow) (m : KvModel) (r : SeqRow) (ws : List (Nat × List Byte)) (acc : List (Nat × Nat × Bool)), w.phase = 3 ∧ w.prec = 99 ∧ m = s.model x.model ∧ r = s.seqRow m w.seq ∧ ws = s.appendWrites x w m r ∧ acc = (w.kvAddr, kvPitch m * (m.ngroups * m.h * 2), false) :: ws.map (fun y => (y.1, y.2.length, true)) ∧ r.length = w.length ∧ (∀ a ∈ acc, s.ready (.aseq x.d x.k) a.1 a.2.1 a.2.2 = true)) ∧
    (∃ (s : State) (x : Step) (w : StepRow) (m : KvModel) (r : SeqRow) (ws : List (Nat × List Byte)) (acc : List (Nat × Nat × Bool)), w.phase = 3 ∧ w.prec = 99 ∧ m = s.model x.model ∧ r = s.seqRow m w.seq ∧ ws = s.appendWrites x w m r ∧ acc = (w.kvAddr, kvPitch m * (m.ngroups * m.h * 2), false) :: ws.map (fun y => (y.1, y.2.length, true)) ∧ r.length ≠ w.length) ∧
    (∃ (s : State) (d : Nat) (c : Nat) (i : Nat) (x : Step) (w : StepRow) (m : KvModel) (r : SeqRow) (got : Except Nat State) (u : _), s.allocRow d (c / 16) = some (x, i, w) ∧ s.corePresent d c = true ∧ (s.core d c).cc.call = none ∧ m = s.model x.model ∧ r = s.seqRow m w.seq ∧ got = s.allocPages m r w.seq (r.length / 256) (s.newPlanes m r w.seq (r.length / 256)) ∧ r.length = w.length ∧ got = .ok u) ∧
    (∃ (s : State) (d : Nat) (c : Nat) (i : Nat) (x : Step) (w : StepRow) (m : KvModel) (r : SeqRow) (got : Except Nat State) (p : Nat), s.allocRow d (c / 16) = some (x, i, w) ∧ s.corePresent d c = true ∧ (s.core d c).cc.call = none ∧ m = s.model x.model ∧ r = s.seqRow m w.seq ∧ got = s.allocPages m r w.seq (r.length / 256) (s.newPlanes m r w.seq (r.length / 256)) ∧ r.length = w.length ∧ got = .error p ∧ s.mayFree m p = true) ∧
    (∃ (s : State) (d : Nat) (c : Nat) (i : Nat) (x : Step) (w : StepRow) (m : KvModel) (r : SeqRow) (got : Except Nat State) (p : Nat), s.allocRow d (c / 16) = some (x, i, w) ∧ s.corePresent d c = true ∧ (s.core d c).cc.call = none ∧ m = s.model x.model ∧ r = s.seqRow m w.seq ∧ got = s.allocPages m r w.seq (r.length / 256) (s.newPlanes m r w.seq (r.length / 256)) ∧ r.length = w.length ∧ got = .error p ∧ s.mayFree m p = false) ∧
    (∃ (s : State) (d : Nat) (c : Nat) (i : Nat) (x : Step) (w : StepRow) (m : KvModel) (r : SeqRow) (got : Except Nat State), s.allocRow d (c / 16) = some (x, i, w) ∧ s.corePresent d c = true ∧ (s.core d c).cc.call = none ∧ m = s.model x.model ∧ r = s.seqRow m w.seq ∧ got = s.allocPages m r w.seq (r.length / 256) (s.newPlanes m r w.seq (r.length / 256)) ∧ r.length ≠ w.length) ∧
    (∃ (s : State) (d : Nat) (k : Nat) (n : Nat) (x : Step), s.stepAt d k n = some x) ∧
    (∃ (s : State) (d : Nat) (k : Nat) (n : Nat) (i : Nat) (x : Step) (w : StepRow) (t : HeadPage) (rest : List HeadPage), s.stepAt d k n = some x ∧ x.rows[i]? = some w ∧ w.core = t :: rest ∧ popCount 16 (s.fld x.d x.k 0 ASEQ_CORES.MASK) ≠ 0 ∧ (∀ y ∈ w.core, s.ready (.engine x.d (16 * x.k) 4) (s.frameAddr y.frame) (s.slotLen y.frame) false = true)) ∧
    (∃ (s : State) (v : State) (u : State) (d : Nat) (k : Nat) (n : Nat) (x : Step) (bad : List Nat) (acc : List (Nat × Nat × Bool)), s.stepAt d k n = some x ∧ x.ended = false ∧ (∀ w ∈ x.rows, w.phase = 9) ∧ bad = s.failedRows x ∧ acc = (x.pointer, 64, true) :: bad.map (fun a => (a, 32, true)) ∧ (∀ a ∈ acc, s.ready (.aseq d k) a.1 a.2.1 a.2.2 = true) ∧ v = ((bad.foldl (fun s a => s.writeBytes (a + 4) (leBytes 1 3 ++ leBytes 1 0 ++ leBytes 2 0x0002)) s).writeBytes (x.pointer + 0x20) (leBytes 1 x.outcome.1)).writeBytes (x.pointer + 0x22) (leBytes 2 x.outcome.2.1 ++ leBytes 2 x.outcome.2.2) ∧ ((x.outcome.1 = 0 ∨ v.fld d k 0 ASEQ_ERR.VALID = 1 → u = v)) ∧ ((x.outcome.1 ≠ 0 → v.fld d k 0 ASEQ_ERR.VALID = 0 → u = v.setReg d .ASEQ_ERR k 0 (BitVec.ofNat 32 (2 ^ 31 + x.outcome.1 * 2 ^ 24 + x.outcome.2.1))))) ∧
    (∃ (x : Step), x.failed = none ∧ (∀ w ∈ x.rows, w.status = 0)) :=
  ⟨⟨((Instr.stepDecode, 1) : (Nat → Nat → Nat → Instr) × Nat), wAtStRuThRo1_1_s, 7, 3, 0, wAtStRuThRo1_1_x, by simp, by and_intros <;> decide +kernel⟩,
    ⟨((Instr.stepDecode, 1) : (Nat → Nat → Nat → Instr) × Nat), wAtStRuThRo1_2_s, 7, 3, 1, wAtStRuThRo1_2_x, by simp, by and_intros <;> decide +kernel⟩,
    ⟨wAtStRuThRo2_s, wAtStRuThRo2_x, wAtStRuThRo2_y, wAtStRuThRo2_v, wAtStRuThRo2_w, by and_intros <;> decide +kernel⟩,
    ⟨wAtStRuThRo3_s, wAtStRuThRo3_y, by and_intros <;> decide +kernel⟩,
    ⟨wAtStRuThRo4_s, wAtStRuThRo4_x, 0, wAtStRuThRo4_w, wAtStRuThRo4_f, by and_intros <;> decide +kernel⟩,
    ⟨3, 4, by decide +kernel⟩,
    ⟨wAtStRuThRo6_1_s, wAtStRuThRo6_1_x, wAtStRuThRo6_1_w, wAtStRuThRo6_1_m, wAtStRuThRo6_1_r, wAtStRuThRo6_1_ws, wAtStRuThRo6_1_acc, by decide +kernel, by decide +kernel, by unfold wAtStRuThRo6_1_m; rfl, by unfold wAtStRuThRo6_1_r; rfl, by unfold wAtStRuThRo6_1_ws; rfl, by unfold wAtStRuThRo6_1_acc; rfl, by and_intros <;> decide +kernel⟩,
    ⟨wAtStRuThRo6_2_s, wAtStRuThRo6_2_x, wAtStRuThRo6_2_w, wAtStRuThRo6_2_m, wAtStRuThRo6_2_r, wAtStRuThRo6_2_ws, wAtStRuThRo6_2_acc, by decide +kernel, by decide +kernel, by unfold wAtStRuThRo6_2_m; rfl, by unfold wAtStRuThRo6_2_r; rfl, by unfold wAtStRuThRo6_2_ws; rfl, by unfold wAtStRuThRo6_2_acc; rfl, by decide +kernel⟩,
    ⟨wAtStRuThRo7_1_1_s, 7, 63, 0, wAtStRuThRo7_1_1_x, wAtStRuThRo7_1_1_w, wAtStRuThRo7_1_1_m, wAtStRuThRo7_1_1_r, wAtStRuThRo7_1_1_got, okOf State.reset (wAtStRuThRo7_1_1_got), by decide +kernel, by decide +kernel, by decide +kernel, by unfold wAtStRuThRo7_1_1_m; rfl, by unfold wAtStRuThRo7_1_1_r; rfl, by unfold wAtStRuThRo7_1_1_got; rfl, by decide +kernel, ok_of _ (by decide +kernel)⟩,
    ⟨wAtStRuThRo7_1_2_s, 7, 63, 0, wAtStRuThRo7_1_2_x, wAtStRuThRo7_1_2_w, wAtStRuThRo7_1_2_m, wAtStRuThRo7_1_2_r, wAtStRuThRo7_1_2_got, 0, by decide +kernel, by decide +kernel, by decide +kernel, by unfold wAtStRuThRo7_1_2_m; rfl, by unfold wAtStRuThRo7_1_2_r; rfl, by unfold wAtStRuThRo7_1_2_got; rfl, by decide +kernel, error_of (by decide +kernel), by decide +kernel⟩,
    ⟨wAtStRuThRo7_1_3_s, 7, 63, 0, wAtStRuThRo7_1_3_x, wAtStRuThRo7_1_3_w, wAtStRuThRo7_1_3_m, wAtStRuThRo7_1_3_r, wAtStRuThRo7_1_3_got, 0, by decide +kernel, by decide +kernel, by decide +kernel, by unfold wAtStRuThRo7_1_3_m; rfl, by unfold wAtStRuThRo7_1_3_r; rfl, by unfold wAtStRuThRo7_1_3_got; rfl, by decide +kernel, error_of (by decide +kernel), by decide +kernel⟩,
    ⟨wAtStRuThRo7_2_s, 7, 63, 0, wAtStRuThRo7_2_x, wAtStRuThRo7_2_w, wAtStRuThRo7_2_m, wAtStRuThRo7_2_r, wAtStRuThRo7_2_got, by decide +kernel, by decide +kernel, by decide +kernel, by unfold wAtStRuThRo7_2_m; rfl, by unfold wAtStRuThRo7_2_r; rfl, by unfold wAtStRuThRo7_2_got; rfl, by decide +kernel⟩,
    ⟨wAtStRuThRo8_s, 7, 3, 0, wAtStRuThRo8_x, by decide +kernel⟩,
    ⟨wAtStRuThRo9_s, 7, 3, 0, 0, wAtStRuThRo9_x, wAtStRuThRo9_w, wAtStRuThRo9_t, wAtStRuThRo9_rest, by decide +kernel, some_get, by and_intros <;> decide +kernel⟩,
    ⟨wAtStRuThRo10_s, wAtStRuThRo10_v, wAtStRuThRo10_v, 7, 3, 0, wAtStRuThRo10_x, wAtStRuThRo10_bad, wAtStRuThRo10_acc, by decide +kernel, by decide +kernel, by decide +kernel, by unfold wAtStRuThRo10_bad; rfl, by unfold wAtStRuThRo10_acc; rfl, by decide +kernel, by unfold wAtStRuThRo10_v; rfl, by and_intros <;> decide +kernel⟩,
    ⟨wAtStRuThRo11_x, by and_intros <;> decide +kernel⟩⟩

def wKvReArSe1_s : State := rqS kvS3 (reqB 1 0 8 0 0 0 0 0)
def wKvReArSe1_q : KvReq := (wKvReArSe1_s.kvReq 7 63).get (by decide +kernel)
def wKvReArSe2_s : State := rqS kvS3 (reqB 1 0 8 5 2 31 0 0)
def wKvReArSe2_q : KvReq := (wKvReArSe2_s.kvReq 7 63).get (by decide +kernel)
def wKvReArSe2_m : KvModel := (wKvReArSe2_q.model).get (by decide +kernel)
def wKvReArSe2_v : State := (wKvReArSe2_s.openRow wKvReArSe2_m (wKvReArSe2_s.seqRow wKvReArSe2_m wKvReArSe2_q.seq) wKvReArSe2_q.flags wKvReArSe2_q.aux (if bit wKvReArSe2_q.flags 0 then wKvReArSe2_q.n else 0) wKvReArSe2_q.home 0 0 1).get (by decide +kernel)
def wKvReArSe3_1_s : State := rqS (kvS3) (reqB 2 0 7 257 0 0 0x10000000C000 0)
def wKvReArSe3_1_q : KvReq := (wKvReArSe3_1_s.kvReq 7 63).get (by decide +kernel)
def wKvReArSe3_1_m : KvModel := (wKvReArSe3_1_q.model).get (by decide +kernel)
def wKvReArSe3_1_r : SeqRow := wKvReArSe3_1_s.seqRow wKvReArSe3_1_m wKvReArSe3_1_q.seq
def wKvReArSe3_1_got : Except Nat (State × List Nat) := wKvReArSe3_1_s.reserveAll wKvReArSe3_1_m wKvReArSe3_1_r wKvReArSe3_1_q.seq ((List.range wKvReArSe3_1_m.planes).flatMap fun p₁ => (wKvReArSe3_1_q.newPages wKvReArSe3_1_r).map fun n => (p₁, n))
def wKvReArSe3_1_v : State := (okOf (State.reset, []) (wKvReArSe3_1_got)).1
def wKvReArSe3_1_addrs : List Nat := (okOf (State.reset, []) (wKvReArSe3_1_got)).2
def wKvReArSe3_1_bytes : List Byte := frameList (wKvReArSe3_1_q.listWords wKvReArSe3_1_r) (wKvReArSe3_1_q.listWords wKvReArSe3_1_r - (wKvReArSe3_1_q.newPages wKvReArSe3_1_r).length) wKvReArSe3_1_addrs wKvReArSe3_1_m.planes
def wKvReArSe3_2_s : State := rqS (kvSmall [bk, ⟨30, 0, 0⟩] kvS3) (reqB 2 0 7 257 0 0 0x10000000C000 0)
def wKvReArSe3_2_q : KvReq := (wKvReArSe3_2_s.kvReq 7 63).get (by decide +kernel)
def wKvReArSe3_2_m : KvModel := (wKvReArSe3_2_q.model).get (by decide +kernel)
def wKvReArSe3_2_r : SeqRow := wKvReArSe3_2_s.seqRow wKvReArSe3_2_m wKvReArSe3_2_q.seq
def wKvReArSe3_2_got : Except Nat (State × List Nat) := wKvReArSe3_2_s.reserveAll wKvReArSe3_2_m wKvReArSe3_2_r wKvReArSe3_2_q.seq ((List.range wKvReArSe3_2_m.planes).flatMap fun p₁ => (wKvReArSe3_2_q.newPages wKvReArSe3_2_r).map fun n => (p₁, n))
def wKvReArSe3_3_s : State := rqS (kvSmall [⟨30, 0, 0⟩] kvS3) (reqB 2 0 7 257 0 0 0x10000000C000 0)
def wKvReArSe3_3_q : KvReq := (wKvReArSe3_3_s.kvReq 7 63).get (by decide +kernel)
def wKvReArSe3_3_m : KvModel := (wKvReArSe3_3_q.model).get (by decide +kernel)
def wKvReArSe3_3_r : SeqRow := wKvReArSe3_3_s.seqRow wKvReArSe3_3_m wKvReArSe3_3_q.seq
def wKvReArSe3_3_got : Except Nat (State × List Nat) := wKvReArSe3_3_s.reserveAll wKvReArSe3_3_m wKvReArSe3_3_r wKvReArSe3_3_q.seq ((List.range wKvReArSe3_3_m.planes).flatMap fun p₁ => (wKvReArSe3_3_q.newPages wKvReArSe3_3_r).map fun n => (p₁, n))
def wKvReArSe4_s : State := rqS (put (kvP 7 (fdBytes 1 0 1 1 0 7 1 0) 100 0 0 0 (kvP 6 (fdBytes 1 0 0 1 0 7 0 0) 101 0 0 0 kvS3)) (0x100000002000 + 64) (rowBytes 0 1 0 3 0x100000100800 0 31 0 300)) (reqB 3 0 7 256 0 0 0 0)
def wKvReArSe4_q : KvReq := (wKvReArSe4_s.kvReq 7 63).get (by decide +kernel)
def wKvReArSe4_m : KvModel := (wKvReArSe4_q.model).get (by decide +kernel)
def wKvReArSe4_r : SeqRow := wKvReArSe4_s.seqRow wKvReArSe4_m wKvReArSe4_q.seq
def wKvReArSe4_v : State := (wKvReArSe4_s.reservedFor wKvReArSe4_q.seq).foldl (fun wKvReArSe4_s f => if wKvReArSe4_r.windowed = true ∨ wKvReArSe4_s.fd f 0x0E 2 % 4096 < (wKvReArSe4_q.n + 255) / 256 then (wKvReArSe4_s.setFd f 0 1 2).setEntry ⟨wKvReArSe4_q.seq, wKvReArSe4_s.fd f 2 2, wKvReArSe4_s.fd f 0x0E 2 % 4096⟩ (wordPresent f) 0 0 else wKvReArSe4_s.reclaim f) wKvReArSe4_s
def wKvReArSe5_s : State := rqS (kvP 3 (fdIn 0 1 0 5 1) 1 (wordPresent 3) 0 0 (kvP 5760 (fdIn 1 1 0 5 1) 5 (wordPresent 5760) 0 0 (kvP 4 (fdIn 0 1 0 5 0) 0 (wordPresent 4) 0 0 (kvP 5761 (fdIn 1 1 0 5 0) 4 (wordPresent 5761) 0 0 (kvT kvS))))) (reqB 4 0 8 300 5 0 0 0)
def wKvReArSe5_q : KvReq := (wKvReArSe5_s.kvReq 7 63).get (by decide +kernel)
def wKvReArSe5_m : KvModel := (wKvReArSe5_q.model).get (by decide +kernel)
def wKvReArSe5_src : SeqRow := wKvReArSe5_s.seqRow wKvReArSe5_m wKvReArSe5_q.aux
def wKvReArSe5_pages : List PageId := ((List.range wKvReArSe5_m.planes).flatMap fun p₁ => (List.range ((wKvReArSe5_q.n + 255) / 256)).map fun i => (⟨wKvReArSe5_q.aux, p₁, i⟩ : PageId))
def wKvReArSe5_v : State := (wKvReArSe5_s.gatherPages wKvReArSe5_q wKvReArSe5_pages).1
def wKvReArSe5_w : State := (wKvReArSe5_v.openRow wKvReArSe5_m (wKvReArSe5_s.seqRow wKvReArSe5_m wKvReArSe5_q.seq) wKvReArSe5_src.flags wKvReArSe5_src.pagesMax 0 wKvReArSe5_src.home wKvReArSe5_q.n wKvReArSe5_q.n 2).get (by decide +kernel)
def wKvReArSe6_s : State := rqS kvS3 (reqB 5 0 5 0 0 0 0 (2 ^ 60 + 31 * 2 ^ 8 + 255))
def wKvReArSe6_q : KvReq := (wKvReArSe6_s.kvReq 7 63).get (by decide +kernel)
def wKvReArSe6_m : KvModel := (wKvReArSe6_q.model).get (by decide +kernel)
def wKvReArSe7_1_s : State := rqS (kvS3) (reqB 6 0 5 0 0 0 0 (2 ^ 60 + 31 * 2 ^ 8 + 255))
def wKvReArSe7_1_q : KvReq := (wKvReArSe7_1_s.kvReq 7 63).get (by decide +kernel)
def wKvReArSe7_1_m : KvModel := (wKvReArSe7_1_q.model).get (by decide +kernel)
def wKvReArSe7_1_v : State := (wKvReArSe7_1_s.askPages (seqPages wKvReArSe7_1_m (wKvReArSe7_1_s.seqRow wKvReArSe7_1_m wKvReArSe7_1_q.seq) wKvReArSe7_1_q.seq)).1
def wKvReArSe7_1_ok : Bool := (wKvReArSe7_1_s.askPages (seqPages wKvReArSe7_1_m (wKvReArSe7_1_s.seqRow wKvReArSe7_1_m wKvReArSe7_1_q.seq) wKvReArSe7_1_q.seq)).2
def wKvReArSe7_2_s : State := rqS (put (kvSmall [⟨30, 0, 0⟩] kvS3) (0x100000100400 + 16) (leBytes 8 wordSpilled ++ leBytes 4 9)) (reqB 6 0 5 0 0 0 0 (2 ^ 60 + 31 * 2 ^ 8 + 255))
def wKvReArSe7_2_q : KvReq := (wKvReArSe7_2_s.kvReq 7 63).get (by decide +kernel)
def wKvReArSe7_2_m : KvModel := (wKvReArSe7_2_q.model).get (by decide +kernel)
def wKvReArSe7_2_v : State := (wKvReArSe7_2_s.askPages (seqPages wKvReArSe7_2_m (wKvReArSe7_2_s.seqRow wKvReArSe7_2_m wKvReArSe7_2_q.seq) wKvReArSe7_2_q.seq)).1
def wKvReArSe7_2_ok : Bool := (wKvReArSe7_2_s.askPages (seqPages wKvReArSe7_2_m (wKvReArSe7_2_s.seqRow wKvReArSe7_2_m wKvReArSe7_2_q.seq) wKvReArSe7_2_q.seq)).2
theorem witness_KvRequestsAreServed :
    (∃ (p : _) (s : State) (d : Nat) (c : Nat) (q : KvReq) (st : Nat) (why : Nat), p ∈ [(Instr.kvOpen, 1, some 0), (Instr.reserve, 2, some 1), (Instr.commit, 3, some 1), (Instr.share, 4, some 0), (Instr.kvFree, 5, none), (Instr.kvPrefetch, 6, some 2)] ∧ s.kvReq d c = some q ∧ q.op = p.2.1 ∧ s.ready (.cc d c) q.pointer 64 true = true ∧ s.kvCheck q p.2.2 = some (st, why)) ∧
    (∃ (s : State) (v : State) (d : Nat) (c : Nat) (q : KvReq) (m : KvModel), s.kvReq d c = some q ∧ q.op = 1 ∧ s.ready (.cc d c) q.pointer 64 true = true ∧ s.kvCheck q (some 0) = none ∧ q.model = some m ∧ s.openRow m (s.seqRow m q.seq) q.flags q.aux (if bit q.flags 0 then q.n else 0) q.home 0 0 1 = some v) ∧
    (∃ (s : State) (d : Nat) (c : Nat) (q : KvReq) (m : KvModel) (r : SeqRow) (got : Except Nat (State × List Nat)) (v : State) (addrs : List Nat) (bytes : List Byte), s.kvReq d c = some q ∧ q.op = 2 ∧ s.ready (.cc d c) q.pointer 64 true = true ∧ s.kvCheck q (some 1) = none ∧ q.model = some m ∧ r = s.seqRow m q.seq ∧ ((r.windowed = true → r.reserved = 0)) ∧ r.reserved + q.n ≤ 1048576 ∧ ((r.windowed = false → ∀ n ∈ q.newPages r, n < r.pagesMax)) ∧ got = s.reserveAll m r q.seq ((List.range m.planes).flatMap fun p => (q.newPages r).map fun n => (p, n)) ∧ got = .ok (v, addrs) ∧ bytes = frameList (q.listWords r) (q.listWords r - (q.newPages r).length) addrs m.planes ∧ s.ready (.cc d c) q.list bytes.length true = true) ∧
    (∃ (s : State) (d : Nat) (c : Nat) (q : KvReq) (m : KvModel) (r : SeqRow) (got : Except Nat (State × List Nat)) (p : Nat), s.kvReq d c = some q ∧ q.op = 2 ∧ s.ready (.cc d c) q.pointer 64 true = true ∧ s.kvCheck q (some 1) = none ∧ q.model = some m ∧ r = s.seqRow m q.seq ∧ ((r.windowed = true → r.reserved = 0)) ∧ r.reserved + q.n ≤ 1048576 ∧ ((r.windowed = false → ∀ n ∈ q.newPages r, n < r.pagesMax)) ∧ got = s.reserveAll m r q.seq ((List.range m.planes).flatMap fun p => (q.newPages r).map fun n => (p, n)) ∧ got = .error p ∧ s.mayFree m p = true) ∧
    (∃ (s : State) (d : Nat) (c : Nat) (q : KvReq) (m : KvModel) (r : SeqRow) (got : Except Nat (State × List Nat)) (p : Nat), s.kvReq d c = some q ∧ q.op = 2 ∧ s.ready (.cc d c) q.pointer 64 true = true ∧ s.kvCheck q (some 1) = none ∧ q.model = some m ∧ r = s.seqRow m q.seq ∧ ((r.windowed = true → r.reserved = 0)) ∧ r.reserved + q.n ≤ 1048576 ∧ ((r.windowed = false → ∀ n ∈ q.newPages r, n < r.pagesMax)) ∧ got = s.reserveAll m r q.seq ((List.range m.planes).flatMap fun p => (q.newPages r).map fun n => (p, n)) ∧ got = .error p ∧ s.mayFree m p = false) ∧
    (∃ (s : State) (v : State) (d : Nat) (c : Nat) (q : KvReq) (m : KvModel) (r : SeqRow), s.kvReq d c = some q ∧ q.op = 3 ∧ s.ready (.cc d c) q.pointer 64 true = true ∧ s.kvCheck q (some 1) = none ∧ q.model = some m ∧ r = s.seqRow m q.seq ∧ ((r.windowed = true → q.n = r.reserved)) ∧ q.n ≤ r.reserved ∧ (v = (s.reservedFor q.seq).foldl (fun s f => if r.windowed = true ∨ s.fd f 0x0E 2 % 4096 < (q.n + 255) / 256 then (s.setFd f 0 1 2).setEntry ⟨q.seq, s.fd f 2 2, s.fd f 0x0E 2 % 4096⟩ (wordPresent f) 0 0 else s.reclaim f) s)) ∧
    (∃ (s : State) (v : State) (w : State) (d : Nat) (c : Nat) (q : KvReq) (m : KvModel) (src : SeqRow) (pages : List PageId), s.kvReq d c = some q ∧ q.op = 4 ∧ s.ready (.cc d c) q.pointer 64 true = true ∧ s.kvCheck q (some 0) = none ∧ q.model = some m ∧ src = s.seqRow m q.aux ∧ q.n ≤ src.length ∧ src.windowed = false ∧ pages = ((List.range m.planes).flatMap fun p => (List.range ((q.n + 255) / 256)).map fun i => (⟨q.aux, p, i⟩ : PageId)) ∧ (∀ pg ∈ pages, enPoison (s.entryWord pg) = false) ∧ s.gatherPages q pages = (v, true) ∧ (∀ pg ∈ pages, enPresent (v.entryWord pg) = true) ∧ v.openRow m (s.seqRow m q.seq) src.flags src.pagesMax 0 src.home q.n q.n 2 = some w) ∧
    (∃ (s : State) (d : Nat) (c : Nat) (q : KvReq) (m : KvModel), s.kvReq d c = some q ∧ q.op = 5 ∧ s.ready (.cc d c) q.pointer 64 true = true ∧ s.kvCheck q none = none ∧ q.model = some m) ∧
    (∃ (s : State) (v : State) (d : Nat) (c : Nat) (q : KvReq) (m : KvModel) (ok : Bool), s.kvReq d c = some q ∧ q.op = 6 ∧ s.ready (.cc d c) q.pointer 64 true = true ∧ s.kvCheck q (some 2) = none ∧ q.model = some m ∧ s.askPages (seqPages m (s.seqRow m q.seq) q.seq) = (v, ok) ∧ ok = true ∧ (∀ pg ∈ seqPages m (s.seqRow m q.seq) q.seq, pg ∉ v.kv.wanted)) ∧
    (∃ (s : State) (v : State) (d : Nat) (c : Nat) (q : KvReq) (m : KvModel) (ok : Bool), s.kvReq d c = some q ∧ q.op = 6 ∧ s.ready (.cc d c) q.pointer 64 true = true ∧ s.kvCheck q (some 2) = none ∧ q.model = some m ∧ s.askPages (seqPages m (s.seqRow m q.seq) q.seq) = (v, ok) ∧ ok = false) :=
  ⟨⟨((Instr.kvOpen, 1, some 0) : (Nat → Nat → Instr) × Nat × Option Nat), wKvReArSe1_s, 7, 63, wKvReArSe1_q, 3, 0x0002, by simp, some_get, by and_intros <;> decide +kernel⟩,
    ⟨wKvReArSe2_s, wKvReArSe2_v, 7, 63, wKvReArSe2_q, wKvReArSe2_m, some_get, by decide +kernel, by decide +kernel, by decide +kernel, some_get, some_get⟩,
    ⟨wKvReArSe3_1_s, 7, 63, wKvReArSe3_1_q, wKvReArSe3_1_m, wKvReArSe3_1_r, wKvReArSe3_1_got, wKvReArSe3_1_v, wKvReArSe3_1_addrs, wKvReArSe3_1_bytes, some_get, by decide +kernel, by decide +kernel, by decide +kernel, some_get, by unfold wKvReArSe3_1_r; rfl, by decide +kernel, by decide +kernel, by decide +kernel, by unfold wKvReArSe3_1_got; rfl, ok_of2 _ (by decide +kernel), by unfold wKvReArSe3_1_bytes; rfl, by decide +kernel⟩,
    ⟨wKvReArSe3_2_s, 7, 63, wKvReArSe3_2_q, wKvReArSe3_2_m, wKvReArSe3_2_r, wKvReArSe3_2_got, 0, some_get, by decide +kernel, by decide +kernel, by decide +kernel, some_get, by unfold wKvReArSe3_2_r; rfl, by decide +kernel, by decide +kernel, by decide +kernel, by unfold wKvReArSe3_2_got; rfl, error_of (by decide +kernel), by decide +kernel⟩,
    ⟨wKvReArSe3_3_s, 7, 63, wKvReArSe3_3_q, wKvReArSe3_3_m, wKvReArSe3_3_r, wKvReArSe3_3_got, 0, some_get, by decide +kernel, by decide +kernel, by decide +kernel, some_get, by unfold wKvReArSe3_3_r; rfl, by decide +kernel, by decide +kernel, by decide +kernel, by unfold wKvReArSe3_3_got; rfl, error_of (by decide +kernel), by decide +kernel⟩,
    ⟨wKvReArSe4_s, wKvReArSe4_v, 7, 63, wKvReArSe4_q, wKvReArSe4_m, wKvReArSe4_r, some_get, by decide +kernel, by decide +kernel, by decide +kernel, some_get, by unfold wKvReArSe4_r; rfl, by decide +kernel, by decide +kernel, by unfold wKvReArSe4_v; rfl⟩,
    ⟨wKvReArSe5_s, wKvReArSe5_v, wKvReArSe5_w, 7, 63, wKvReArSe5_q, wKvReArSe5_m, wKvReArSe5_src, wKvReArSe5_pages, some_get, by decide +kernel, by decide +kernel, by decide +kernel, some_get, by unfold wKvReArSe5_src; rfl, by decide +kernel, by decide +kernel, by unfold wKvReArSe5_pages; rfl, by decide +kernel, pair_of (by decide +kernel), by decide +kernel, some_get⟩,
    ⟨wKvReArSe6_s, 7, 63, wKvReArSe6_q, wKvReArSe6_m, some_get, by decide +kernel, by decide +kernel, by decide +kernel, some_get⟩,
    ⟨wKvReArSe7_1_s, wKvReArSe7_1_v, 7, 63, wKvReArSe7_1_q, wKvReArSe7_1_m, wKvReArSe7_1_ok, some_get, by decide +kernel, by decide +kernel, by decide +kernel, some_get, by unfold wKvReArSe7_1_v wKvReArSe7_1_ok; exact Prod.mk.eta.symm, by and_intros <;> decide +kernel⟩,
    ⟨wKvReArSe7_2_s, wKvReArSe7_2_v, 7, 63, wKvReArSe7_2_q, wKvReArSe7_2_m, wKvReArSe7_2_ok, some_get, by decide +kernel, by decide +kernel, by decide +kernel, some_get, by unfold wKvReArSe7_2_v wKvReArSe7_2_ok; exact Prod.mk.eta.symm, by decide +kernel⟩⟩

def wPaArPiCoSpAnRe1_1_1_s : State := kc kvS2 0x102 (5 * 2 ^ 48 + 1 * 2 ^ 32 + 1 * 2 ^ 16 + 255) core0
def wPaArPiCoSpAnRe1_1_1_x : Call := ⟨1, 0x102, 5 * 2 ^ 48 + 1 * 2 ^ 32 + 1 * 2 ^ 16 + 255, 0, none, 0, false, 0, false, none, none⟩
def wPaArPiCoSpAnRe1_1_1_pg : PageId := ⟨5, 1, 1⟩
def wPaArPiCoSpAnRe1_1_1_m : KvModel := (wPaArPiCoSpAnRe1_1_1_s.modelOf wPaArPiCoSpAnRe1_1_1_pg.seq).get (by decide +kernel)
def wPaArPiCoSpAnRe1_1_2_s : State := kc ({ kvS2 with cfg := some (recPool 1 1 [bk, ⟨30, 0, 0⟩]) } : State) 0x102 (5 * 2 ^ 48 + 1 * 2 ^ 32 + 1 * 2 ^ 16 + 255) core0
def wPaArPiCoSpAnRe1_1_2_x : Call := ⟨1, 0x102, 5 * 2 ^ 48 + 1 * 2 ^ 32 + 1 * 2 ^ 16 + 255, 0, none, 0, false, 0, false, none, none⟩
def wPaArPiCoSpAnRe1_1_2_pg : PageId := ⟨5, 1, 1⟩
def wPaArPiCoSpAnRe1_1_2_m : KvModel := (wPaArPiCoSpAnRe1_1_2_s.modelOf wPaArPiCoSpAnRe1_1_2_pg.seq).get (by decide +kernel)
def wPaArPiCoSpAnRe1_2_1_s : State := kc kvS2 0x103 255 { core0 with dpins := [(255, 5760)], desc := [(255, T1)] }
def wPaArPiCoSpAnRe1_2_1_x : Call := ⟨1, 0x103, 255, 0, none, 0, false, 0, false, none, none⟩
def wPaArPiCoSpAnRe1_2_2_s : State := kc kvS2 0x103 255 { core0 with desc := [(255, T1)] }
def wPaArPiCoSpAnRe1_2_2_x : Call := ⟨1, 0x103, 255, 0, none, 0, false, 0, false, none, none⟩
def wPaArPiCoSpAnRe1_3_s : State := kc (bound kvS2 7 3 255 1 0 (2 ^ 10)) 0x104 0x40 { core0 with cc := { freshCtl with dmem := writeCells [] 0x40 (leBytes 8 77 ++ leBytes 4 88 ++ leBytes 4 0 ++ leBytes 2 (3 * 256 + 255)) } }
def wPaArPiCoSpAnRe1_3_u : State := (wPaArPiCoSpAnRe1_3_s.post (senderCc 7 63) 7 3 255 77 88).1
def wPaArPiCoSpAnRe1_3_x : Call := ⟨1, 0x104, 0x40, 0, none, 0, false, 0, false, none, none⟩
def wPaArPiCoSpAnRe1_3_b : List Byte := (wPaArPiCoSpAnRe1_3_s.core 7 63).cc.bytes wPaArPiCoSpAnRe1_3_x.arg 18
def wPaArPiCoSpAnRe1_3_slot : Nat := field wPaArPiCoSpAnRe1_3_b 16 2
def wPaArPiCoSpAnRe1_4_3_s : State := (kvP 5760 (fdIn 1 1 1 5 1) 5 (wordPresent 5760) 0 0 kvS2)
def wPaArPiCoSpAnRe1_5_1_s : State := (kvP 5760 (fdIn 1 2 1 5 1) 5 (wordPresent 5760) 0 0 kvS2)
def wPaArPiCoSpAnRe1_5_1_m : KvModel := wPaArPiCoSpAnRe1_5_1_s.model 0x100000001000
def wPaArPiCoSpAnRe1_5_1_r : SeqRow := wPaArPiCoSpAnRe1_5_1_s.seqRow wPaArPiCoSpAnRe1_5_1_m 5
def wPaArPiCoSpAnRe1_5_1_pg : PageId := ⟨5, 1, 1⟩
def wPaArPiCoSpAnRe1_5_1_u : State := (wPaArPiCoSpAnRe1_5_1_s.copyOnWrite wPaArPiCoSpAnRe1_5_1_m wPaArPiCoSpAnRe1_5_1_r.start 1 wPaArPiCoSpAnRe1_5_1_pg).get (by decide +kernel)
def wPaArPiCoSpAnRe1_5_2_m : KvModel := kvS2.model 0x100000001000
def wPaArPiCoSpAnRe1_5_2_r : SeqRow := kvS2.seqRow wPaArPiCoSpAnRe1_5_2_m 5
def wPaArPiCoSpAnRe1_5_2_pg : PageId := ⟨5, 1, 1⟩
def wPaArPiCoSpAnRe1_6_s : State := { kvS2 with kv := { kvS2.kv with labs := [(31, [⟨5, 1, 1⟩, ⟨5, 0, 1⟩]), (0, [⟨5, 0, 1⟩])] } }
def wPaArPiCoSpAnRe1_6_m : KvModel := wPaArPiCoSpAnRe1_6_s.model 0x100000001000
def wPaArPiCoSpAnRe1_6_r : SeqRow := wPaArPiCoSpAnRe1_6_s.seqRow wPaArPiCoSpAnRe1_6_m 5
def wPaArPiCoSpAnRe1_6_pg : PageId := ⟨5, 1, 1⟩
def wPaArPiCoSpAnRe2_1_s : State := { (kvP 5760 (fdIn 1 1 1 5 1) 5 (wordPresent 5760) 0 0 kvS2) with kv := { (kvP 5760 (fdIn 1 1 1 5 1) 5 (wordPresent 5760) 0 0 kvS2).kv with hungry := [7], labs := [(31, [⟨5, 0, 1⟩])] } }
def wPaArPiCoSpAnRe2_2_1_s : State := (jobF (kvP 3 (fdBytes 3 0 0 1 0 5 1 0) 1 wordSpilling 0 0 kvS2) (farJ true 1)).poisonLine (kvS2.frameAddr 3)
def wPaArPiCoSpAnRe2_2_1_j : FarJob := farJ true 1
def wPaArPiCoSpAnRe2_2_2_1_s : State := jobF (kvP 3 (fdBytes 3 0 0 1 0 5 1 0) 1 wordSpilling 0 0 kvS2) (farJ true 1)
def wPaArPiCoSpAnRe2_2_2_1_j : FarJob := farJ true 1
def wPaArPiCoSpAnRe2_2_2_2_s : State := withReqs (jobF (kvP 3 (fdBytes 3 0 0 1 0 5 1 0) 1 wordSpilling 0 0 kvS2) (farJ true 1)) [farReq 4 5 []]
def wPaArPiCoSpAnRe2_2_2_2_j : FarJob := farJ true 1
def wPaArPiCoSpAnRe2_3_1_s : State := ({ kvP 5760 (fdBytes 0 0 0 0 0 0 0 0) 5 wordSpilled 9 0x1234 kvS2 with kv := { kvS2.kv with wanted := [⟨5, 1, 1⟩] } } : State)
def wPaArPiCoSpAnRe2_3_1_m : KvModel := wPaArPiCoSpAnRe2_3_1_s.model 0x100000001000
def wPaArPiCoSpAnRe2_3_1_r : SeqRow := wPaArPiCoSpAnRe2_3_1_s.seqRow wPaArPiCoSpAnRe2_3_1_m 5
def wPaArPiCoSpAnRe2_3_1_pg : PageId := ⟨5, 1, 1⟩
def wPaArPiCoSpAnRe2_3_1_u : State := (wPaArPiCoSpAnRe2_3_1_s.askPage wPaArPiCoSpAnRe2_3_1_pg).get (by decide +kernel)
def wPaArPiCoSpAnRe2_3_2_s : State := kvP 5760 (fdBytes 0 0 0 0 0 0 0 0) 5 wordSpilled 9 0x1234 kvS2
def wPaArPiCoSpAnRe2_3_2_m : KvModel := wPaArPiCoSpAnRe2_3_2_s.model 0x100000001000
def wPaArPiCoSpAnRe2_3_2_r : SeqRow := wPaArPiCoSpAnRe2_3_2_s.seqRow wPaArPiCoSpAnRe2_3_2_m 5
def wPaArPiCoSpAnRe2_3_2_pg : PageId := ⟨5, 1, 1⟩
def wPaArPiCoSpAnRe2_4_s : State := kvP 5760 (fdBytes 0 0 0 0 0 0 0 0) 5 wordSpilled 9 0x1234 kvS2
def wPaArPiCoSpAnRe2_4_pg : PageId := ⟨5, 1, 1⟩
def wPaArPiCoSpAnRe2_5_1_s : State := jobF (kvP 3 (fdBytes 4 0 0 1 0 5 1 0) 1 wordFetching 9 0x1234 kvS2) (farJ false 1)
def wPaArPiCoSpAnRe2_5_1_j : FarJob := farJ false 1
def wPaArPiCoSpAnRe2_5_1_old : List Byte := ([] : List Byte)
def wPaArPiCoSpAnRe2_5_2_s : State := jobF (kvP 3 (fdBytes 4 0 0 1 0 5 1 0) 1 wordFetching 9 0xFFFFFFFF kvS2) (farJ false 1)
def wPaArPiCoSpAnRe2_5_2_j : FarJob := farJ false 1
def wPaArPiCoSpAnRe2_5_2_old : List Byte := ([] : List Byte)
def wPaArPiCoSpAnRe2_6_s : State := withReqs (jobF (kvP 3 (fdBytes 4 0 0 1 0 5 1 0) 1 wordFetching 9 0x1234 kvS2) (farJ false 1)) [farReq 4 5 []]
def wPaArPiCoSpAnRe2_6_j : FarJob := farJ false 1
def wPaArPiCoSpAnRe2_6_old : List Byte := ([] : List Byte)
def wPaArPiCoSpAnRe2_8_s : State := ({ kvS2 with kv := { kvS2.kv with unreachable := true }, ports := [(3, { freshPort with proto := 5, busMaster := true })] } : State)
def wPaArPiCoSpAnRe2_8_rest : Nat × Nat × List Nat := (0x8000, 16, [1, 1, 1, 1, 1, 1, 1, 9])
def wPaArPiCoSpAnRe2_9_1_rest : Nat × Nat × List Nat := (0x8000, 16, [1, 1, 1, 1, 1, 1, 1, 9])
def wPaArPiCoSpAnRe2_9_2_s : State := withReqs probeS [{ farReq 0 0 ([1] : List Byte) with owner := probeOwner }]
def wPaArPiCoSpAnRe2_9_2_rest : Nat × Nat × List Nat := (0x8000, 16, [1, 1, 1, 1, 1, 1, 1, 9])
theorem witness_PagesArePinnedCopiedSpilledAndReturned :
    (∃ (s : State) (d : Nat) (c : Nat) (f : Nat) (x : Call) (pg : PageId) (e : Nat) (m : KvModel) (v : _), (s.core d c).routine = some x ∧ x.id = 0x102 ∧ x.source ≠ 2 ∧ pg = ⟨bits x.arg 63 48, bits x.arg 47 32, bits x.arg 27 16⟩ ∧ e = bits x.arg 7 0 ∧ s.modelOf pg.seq = some m ∧ 0xC0 ≤ e ∧ (s.seqRow m pg.seq).state ≠ 0 ∧ pg.plane < m.planes ∧ pg.index < (s.seqRow m pg.seq).pagesMax ∧ enPresent (s.entryWord pg) = true ∧ enPoison (s.entryWord pg) = false ∧ (s.core d c).entryBusy e = false ∧ f = enFrame (s.entryWord pg) ∧ s.frameDescBad f (frameDesc m (s.frameAddr f)) = none ∧ (s.walk d (c / 16) pg).2.pin f = some v) ∧
    (∃ (s : State) (d : Nat) (c : Nat) (f : Nat) (x : Call) (pg : PageId) (e : Nat) (m : KvModel) (why : Nat), (s.core d c).routine = some x ∧ x.id = 0x102 ∧ x.source ≠ 2 ∧ pg = ⟨bits x.arg 63 48, bits x.arg 47 32, bits x.arg 27 16⟩ ∧ e = bits x.arg 7 0 ∧ s.modelOf pg.seq = some m ∧ 0xC0 ≤ e ∧ (s.seqRow m pg.seq).state ≠ 0 ∧ pg.plane < m.planes ∧ pg.index < (s.seqRow m pg.seq).pagesMax ∧ enPresent (s.entryWord pg) = true ∧ enPoison (s.entryWord pg) = false ∧ (s.core d c).entryBusy e = false ∧ f = enFrame (s.entryWord pg) ∧ s.frameDescBad f (frameDesc m (s.frameAddr f)) = some why) ∧
    (∃ (s : State) (d : Nat) (c : Nat) (x : Call) (f : Nat), (s.core d c).routine = some x ∧ x.id = 0x103 ∧ x.source ≠ 2 ∧ (s.core d c).entryBusy (bits x.arg 7 0) = false ∧ mfind (s.core d c).dpins (bits x.arg 7 0) = some f) ∧
    (∃ (s : State) (d : Nat) (c : Nat) (x : Call), (s.core d c).routine = some x ∧ x.id = 0x103 ∧ x.source ≠ 2 ∧ (s.core d c).entryBusy (bits x.arg 7 0) = false ∧ mfind (s.core d c).dpins (bits x.arg 7 0) = none) ∧
    (∃ (s : State) (u : State) (d : Nat) (c : Nat) (slot : Nat) (x : Call) (b : List Byte), (s.core d c).routine = some x ∧ x.id = 0x104 ∧ x.source ≠ 2 ∧ b = (s.core d c).cc.bytes x.arg 18 ∧ slot = field b 16 2 ∧ slot / 256 < 4 ∧ bindRecv (s.binding d (slot / 256) (slot % 256)) = 1 ∧ s.post (senderCc d c) d (slot / 256) (slot % 256) (field b 0 8) (field b 8 4) = (u, .ok)) ∧
    (∃ (s : State) (pool : Nat) (bank : Nat) (band : Nat) (slot : Nat) (f : Nat) (u : _), s.frameAt pool bank band slot = some f ∧ s.pin f = some u) ∧
    (∃ (s : State) (pool : Nat) (bank : Nat) (band : Nat) (slot : Nat) (f : Nat), s.frameAt pool bank band slot = some f ∧ s.fdState f ≠ 2) ∧
    (∃ (s : State) (pool : Nat) (bank : Nat) (band : Nat) (slot : Nat) (f : Nat), s.frameAt pool bank band slot = some f ∧ s.pinsOf f ≠ 0) ∧
    (∃ (s : State) (u : State) (model : Nat) (seq : Nat) (plane : Nat) (page : Nat) (m : KvModel) (r : SeqRow) (pg : PageId), s.pageIn model seq plane page = some (m, r, pg) ∧ enPresent (s.entryWord pg) = true ∧ 1 < s.refs (enFrame (s.entryWord pg)) ∧ s.copyOnWrite m r.start page pg = some u) ∧
    (∃ (s : State) (model : Nat) (seq : Nat) (plane : Nat) (page : Nat) (m : KvModel) (r : SeqRow) (pg : PageId), s.pageIn model seq plane page = some (m, r, pg) ∧ enPresent (s.entryWord pg) = true ∧ s.refs (enFrame (s.entryWord pg)) ≤ 1) ∧
    (∃ (s : State) (model : Nat) (seq : Nat) (plane : Nat) (page : Nat) (m : KvModel) (r : SeqRow) (pg : PageId), s.pageIn model seq plane page = some (m, r, pg)) ∧
    (∃ (s : State) (f : Nat), s.fdState f ≠ 2) ∧
    (∃ (s : State) (d : Nat) (f : Nat) (slot : Nat), d < 8 ∧ s.power.mode ≠ .safe ∧ s.tierOpen d = true ∧ s.spillDue d = true ∧ s.spillNext d = some f ∧ s.farSlot d = some slot ∧ s.ready (.kvm d) (s.frameAddr f) (s.slotLen f) false = true) ∧
    (∃ (s : State) (d : Nat) (n : Nat) (j : FarJob), (s.farJobs d true)[n]? = some j ∧ s.slotPoisoned j.frame = true ∧ (s.abandonJob j).fdState j.frame = 2) ∧
    (∃ (s : State) (d : Nat) (n : Nat) (j : FarJob) (data : _), (s.farJobs d true)[n]? = some j ∧ s.slotPoisoned j.frame = false ∧ (s.farJobs d false = [] ∨ s.spillOld d = true) ∧ s.farResult j.id = some (0, data)) ∧
    (∃ (s : State) (d : Nat) (n : Nat) (j : FarJob) (st : Nat) (data : _), (s.farJobs d true)[n]? = some j ∧ s.slotPoisoned j.frame = false ∧ (s.farJobs d false = [] ∨ s.spillOld d = true) ∧ st ≠ 0 ∧ s.farResult j.id = some (st, data)) ∧
    (∃ (s : State) (u : State) (model : Nat) (seq : Nat) (plane : Nat) (page : Nat) (m : KvModel) (r : SeqRow) (pg : PageId), s.power.mode ≠ .safe ∧ s.pageIn model seq plane page = some (m, r, pg) ∧ pg ∈ s.kv.wanted ∧ s.askPage pg = some u) ∧
    (∃ (s : State) (model : Nat) (seq : Nat) (plane : Nat) (page : Nat) (m : KvModel) (r : SeqRow) (pg : PageId), s.power.mode ≠ .safe ∧ s.pageIn model seq plane page = some (m, r, pg) ∧ pg ∉ s.kv.wanted) ∧
    (∃ (s : State) (pg : PageId) (u : _), s.entryWord pg = wordSpilled ∧ s.kv.unreachable = false ∧ s.fetch pg = some u) ∧
    (∃ (s : State) (d : Nat) (n : Nat) (j : FarJob) (data : List Byte) (old : List Byte) (bytes : List Byte), (s.farJobs d false)[n]? = some j ∧ s.spillOld d = false ∧ s.farResult j.id = some (0, old) ∧ ((s.farPort.isSome = true ∧ bytes = data) ∨ (s.farPort = none ∧ bytes = old)) ∧ bytes.length = s.slotLen j.frame ∧ crc32c bytes ≠ s.entryCrc j.page) ∧
    (∃ (s : State) (d : Nat) (n : Nat) (j : FarJob) (data : List Byte) (old : List Byte) (bytes : List Byte), (s.farJobs d false)[n]? = some j ∧ s.spillOld d = false ∧ s.farResult j.id = some (0, old) ∧ ((s.farPort.isSome = true ∧ bytes = data) ∨ (s.farPort = none ∧ bytes = old)) ∧ bytes.length = s.slotLen j.frame ∧ crc32c bytes = s.entryCrc j.page ∧ s.ready (.kvm d) (s.frameAddr j.frame) bytes.length true = true) ∧
    (∃ (s : State) (d : Nat) (n : Nat) (st : Nat) (j : FarJob) (old : List Byte), (s.farJobs d false)[n]? = some j ∧ s.spillOld d = false ∧ s.farResult j.id = some (st, old) ∧ st ≠ 0) ∧
    (∃ (s : State), s.far.isSome = true) ∧
    (∃ (s : State), s.far = none) ∧
    (∃ (s : State) (p : Nat) (b : Nat) (rest : Nat × Nat × List Nat), s.kv.unreachable = true ∧ s.causeEnded = true ∧ s.far = some (FarHome.host p, b, rest)) ∧
    (∃ (s : State) (m : Nat) (b : Nat) (rest : Nat × Nat × List Nat), s.kv.unreachable = true ∧ s.causeEnded = true ∧ s.far = some (FarHome.peer m, b, rest) ∧ s.reqsOf (· == probeOwner) = []) ∧
    (∃ (s : State) (m : Nat) (b : Nat) (rest : Nat × Nat × List Nat) (q : _) (qs : _) (st : Nat) (data : _), s.kv.unreachable = true ∧ s.causeEnded = true ∧ s.far = some (FarHome.peer m, b, rest) ∧ s.reqsOf (· == probeOwner) = q :: qs ∧ q.result = some (st, data)) :=
  ⟨⟨wPaArPiCoSpAnRe1_1_1_s, 7, 63, 5760, wPaArPiCoSpAnRe1_1_1_x, wPaArPiCoSpAnRe1_1_1_pg, 255, wPaArPiCoSpAnRe1_1_1_m, ((wPaArPiCoSpAnRe1_1_1_s.walk 7 (63 / 16) wPaArPiCoSpAnRe1_1_1_pg).2.pin 5760).get (by decide +kernel), by decide +kernel, by decide +kernel, by decide +kernel, (by decide +kernel), by decide +kernel, some_get, by decide +kernel, by decide +kernel, by decide +kernel, (by decide +kernel), by decide +kernel, by decide +kernel, by decide +kernel, (by decide +kernel), by decide +kernel, some_get⟩,
    ⟨wPaArPiCoSpAnRe1_1_2_s, 7, 63, 5760, wPaArPiCoSpAnRe1_1_2_x, wPaArPiCoSpAnRe1_1_2_pg, 255, wPaArPiCoSpAnRe1_1_2_m, 0x0044, by decide +kernel, by decide +kernel, by decide +kernel, (by decide +kernel), by decide +kernel, some_get, by and_intros <;> decide +kernel⟩,
    ⟨wPaArPiCoSpAnRe1_2_1_s, 7, 63, wPaArPiCoSpAnRe1_2_1_x, 5760, by and_intros <;> decide +kernel⟩,
    ⟨wPaArPiCoSpAnRe1_2_2_s, 7, 63, wPaArPiCoSpAnRe1_2_2_x, by and_intros <;> decide +kernel⟩,
    ⟨wPaArPiCoSpAnRe1_3_s, wPaArPiCoSpAnRe1_3_u, 7, 63, wPaArPiCoSpAnRe1_3_slot, wPaArPiCoSpAnRe1_3_x, wPaArPiCoSpAnRe1_3_b, by and_intros <;> decide +kernel⟩,
    ⟨kvS2, 0, 1, 0, 0, 5760, (kvS2.pin 5760).get (by decide +kernel), by decide +kernel, some_get⟩,
    ⟨kvS2, 0, 0, 0, 9, 9, by and_intros <;> decide +kernel⟩,
    ⟨wPaArPiCoSpAnRe1_4_3_s, 0, 1, 0, 0, 5760, by and_intros <;> decide +kernel⟩,
    ⟨wPaArPiCoSpAnRe1_5_1_s, wPaArPiCoSpAnRe1_5_1_u, 0x100000001000, 5, 1, 1, wPaArPiCoSpAnRe1_5_1_m, wPaArPiCoSpAnRe1_5_1_r, wPaArPiCoSpAnRe1_5_1_pg, by decide +kernel, by decide +kernel, by decide +kernel, some_get⟩,
    ⟨kvS2, 0x100000001000, 5, 1, 1, wPaArPiCoSpAnRe1_5_2_m, wPaArPiCoSpAnRe1_5_2_r, wPaArPiCoSpAnRe1_5_2_pg, by and_intros <;> decide +kernel⟩,
    ⟨wPaArPiCoSpAnRe1_6_s, 0x100000001000, 5, 1, 1, wPaArPiCoSpAnRe1_6_m, wPaArPiCoSpAnRe1_6_r, wPaArPiCoSpAnRe1_6_pg, by decide +kernel⟩,
    ⟨kvS2, 9, by decide +kernel⟩,
    ⟨wPaArPiCoSpAnRe2_1_s, 7, 3, 7, by and_intros <;> decide +kernel⟩,
    ⟨wPaArPiCoSpAnRe2_2_1_s, 7, 0, wPaArPiCoSpAnRe2_2_1_j, by and_intros <;> decide +kernel⟩,
    ⟨wPaArPiCoSpAnRe2_2_2_1_s, 7, 0, wPaArPiCoSpAnRe2_2_2_1_j, ([] : List Byte), by and_intros <;> decide +kernel⟩,
    ⟨wPaArPiCoSpAnRe2_2_2_2_s, 7, 0, wPaArPiCoSpAnRe2_2_2_2_j, 5, ([] : List Byte), by and_intros <;> decide +kernel⟩,
    ⟨wPaArPiCoSpAnRe2_3_1_s, wPaArPiCoSpAnRe2_3_1_u, 0x100000001000, 5, 1, 1, wPaArPiCoSpAnRe2_3_1_m, wPaArPiCoSpAnRe2_3_1_r, wPaArPiCoSpAnRe2_3_1_pg, by decide +kernel, by decide +kernel, by decide +kernel, some_get⟩,
    ⟨wPaArPiCoSpAnRe2_3_2_s, 0x100000001000, 5, 1, 1, wPaArPiCoSpAnRe2_3_2_m, wPaArPiCoSpAnRe2_3_2_r, wPaArPiCoSpAnRe2_3_2_pg, by and_intros <;> decide +kernel⟩,
    ⟨wPaArPiCoSpAnRe2_4_s, wPaArPiCoSpAnRe2_4_pg, (wPaArPiCoSpAnRe2_4_s.fetch wPaArPiCoSpAnRe2_4_pg).get (by decide +kernel), by decide +kernel, by decide +kernel, some_get⟩,
    ⟨wPaArPiCoSpAnRe2_5_1_s, 7, 0, wPaArPiCoSpAnRe2_5_1_j, page0, wPaArPiCoSpAnRe2_5_1_old, page0, by decide +kernel, by decide +kernel, by decide +kernel, Or.inl ⟨by decide +kernel, rfl⟩, by rw [page0_length]; decide +kernel, by rw [page0_crc]; decide +kernel⟩,
    ⟨wPaArPiCoSpAnRe2_5_2_s, 7, 0, wPaArPiCoSpAnRe2_5_2_j, page0, wPaArPiCoSpAnRe2_5_2_old, page0, by decide +kernel, by decide +kernel, by decide +kernel, Or.inl ⟨by decide +kernel, rfl⟩, by rw [page0_length]; decide +kernel, by rw [page0_crc]; decide +kernel, by rw [page0_length]; decide +kernel⟩,
    ⟨wPaArPiCoSpAnRe2_6_s, 7, 0, 5, wPaArPiCoSpAnRe2_6_j, wPaArPiCoSpAnRe2_6_old, by and_intros <;> decide +kernel⟩,
    ⟨kvS2, by decide +kernel⟩,
    ⟨fullS, by decide +kernel⟩,
    ⟨wPaArPiCoSpAnRe2_8_s, 3, 0x8000000000, wPaArPiCoSpAnRe2_8_rest, by and_intros <;> decide +kernel⟩,
    ⟨probeS, 9, 0x8000000000, wPaArPiCoSpAnRe2_9_1_rest, by and_intros <;> decide +kernel⟩,
    ⟨wPaArPiCoSpAnRe2_9_2_s, 9, 0x8000000000, wPaArPiCoSpAnRe2_9_2_rest, { farReq 0 0 ([1] : List Byte) with owner := probeOwner }, ([] : List CReq), 0, ([1] : List Byte), by and_intros <;> decide +kernel⟩⟩

def wTaArLoRuAnEn1_1_s : State := put (ldS (ldReq 1 0 0xA0 0x10000000D000) []) 0x10000000D000 okImg
def wTaArLoRuAnEn1_1_q : LdrCmd := ⟨nx8, wTaArLoRuAnEn1_1_s.seen nx8.pointer 128⟩
def wTaArLoRuAnEn1_2_s : State := put (ldS (ldReq 1 0 0xA0 0x10000000D000) [{ tk .loaded with id := 1 }]) 0x10000000D000 okImg
def wTaArLoRuAnEn1_2_q : LdrCmd := ⟨nx8, wTaArLoRuAnEn1_2_s.readBytes nx8.pointer 128⟩
def wTaArLoRuAnEn1_3_s : State := ldS (ldReq 1 0 0xA0 0x10000000D000) [{ tk .loading with image := bindImg, load := some lq }]
def wTaArLoRuAnEn1_3_x : Task := { tk .loading with image := bindImg, load := some lq }
def wTaArLoRuAnEn1_3_q : LdrReq := (wTaArLoRuAnEn1_3_x.load).get (by decide +kernel)
def wTaArLoRuAnEn1_3_r : Reject := (wTaArLoRuAnEn1_3_s.verify wTaArLoRuAnEn1_3_x.image wTaArLoRuAnEn1_3_x.image.length wTaArLoRuAnEn1_3_s.loaderArea.2).get (by decide +kernel)
def wTaArLoRuAnEn1_4_s : State := ldS (ldReq 1 0 0xA0 0x10000000D000) [{ tk .loading with load := some lq }]
def wTaArLoRuAnEn1_4_x : Task := { tk .loading with load := some lq }
def wTaArLoRuAnEn1_4_q : LdrReq := (wTaArLoRuAnEn1_4_x.load).get (by decide +kernel)
def wTaArLoRuAnEn1_4_p : Plan := okOf (⟨[], [], none⟩ : Plan) (wTaArLoRuAnEn1_4_s.plan wTaArLoRuAnEn1_4_x.image)
def wTaArLoRuAnEn2_1_1_s : State := ldS (ldReq 2 64 0 0) [tk .loaded]
def wTaArLoRuAnEn2_1_1_v : State := wTaArLoRuAnEn2_1_1_s.emptySlot 8 0 nx8.n
def wTaArLoRuAnEn2_1_1_q : LdrCmd := ⟨nx8, wTaArLoRuAnEn2_1_1_s.seen nx8.pointer 128⟩
def wTaArLoRuAnEn2_1_1_y : Task := tk .loaded
def wTaArLoRuAnEn2_1_2_s : State := (ldS (ldReq 2 64 0 0) [{ tk .loaded with image := coreImg }]).setFld 7 0 0 FCU_CORE_RETIRED_HI.RETIRED (2 ^ 31)
def wTaArLoRuAnEn2_1_2_v : State := wTaArLoRuAnEn2_1_2_s.emptySlot 8 0 nx8.n
def wTaArLoRuAnEn2_1_2_q : LdrCmd := ⟨nx8, wTaArLoRuAnEn2_1_2_s.seen nx8.pointer 128⟩
def wTaArLoRuAnEn2_1_2_y : Task := { tk .loaded with image := coreImg }
def wTaArLoRuAnEn2_1_3_s : State := ldS (ldReq 4 64 0 0) [tk .loaded]
def wTaArLoRuAnEn2_1_3_v : State := wTaArLoRuAnEn2_1_3_s.emptySlot 8 0 nx8.n
def wTaArLoRuAnEn2_1_3_q : LdrCmd := ⟨nx8, wTaArLoRuAnEn2_1_3_s.seen nx8.pointer 128⟩
def wTaArLoRuAnEn2_1_3_y : Task := tk .loaded
def wTaArLoRuAnEn2_2_1_s : State := ldS (ldReq 3 64 0 0) [tk .loaded]
def wTaArLoRuAnEn2_2_1_q : LdrCmd := (wTaArLoRuAnEn2_2_1_s.abortWaiting).get (by decide +kernel)
def wTaArLoRuAnEn2_2_1_y : Task := tk .loaded
def wTaArLoRuAnEn2_2_2_s : State := ldS (ldReq 3 64 0 0) [tk .running]
def wTaArLoRuAnEn2_2_2_q : LdrCmd := (wTaArLoRuAnEn2_2_2_s.abortWaiting).get (by decide +kernel)
def wTaArLoRuAnEn2_2_2_y : Task := tk .running
def wTaArLoRuAnEn2_2_3_s : State := ldS (ldReq 3 64 0 0) [{ tk .loading with load := some lq2 }]
def wTaArLoRuAnEn2_2_3_q : LdrCmd := (wTaArLoRuAnEn2_2_3_s.abortWaiting).get (by decide +kernel)
def wTaArLoRuAnEn2_2_3_y : Task := { tk .loading with load := some lq2 }
def wTaArLoRuAnEn2_3_s : State := ldS (ldReq 1 0 0 0) [{ tk .running with image := coreImg, start := some lq2, done := [7 * 64 + 63] }]
def wTaArLoRuAnEn2_3_y : Task := { tk .running with image := coreImg, start := some lq2, done := [7 * 64 + 63] }
def wTaArLoRuAnEn2_3_r : LdrReq := (wTaArLoRuAnEn2_3_y.start).get (by decide +kernel)
def wTaArLoRuAnEn2_4_s : State := ({ ldS (ldReq 1 0 0 0) [{ tk .running with image := coreImg, start := some lq2 }] with cores := [(7 * 64 + 63, { core0 with faulted := some 0x4301 })] } : State)
def wTaArLoRuAnEn2_4_v : State := (wTaArLoRuAnEn2_4_s.abortRun 64).onTask 64 (fun t => { t with report := wTaArLoRuAnEn2_4_s.faultReport 0x4301 7 63 })
def wTaArLoRuAnEn2_4_y : Task := { tk .running with image := coreImg, start := some lq2 }
def wTaArLoRuAnEn2_4_z : Task := (wTaArLoRuAnEn2_4_v.task 64).getD task0
def wTaArLoRuAnEn2_4_r : LdrReq := (wTaArLoRuAnEn2_4_y.start).get (by decide +kernel)
def wTaArLoRuAnEn2_5_s : State := ({ ldS (ldReq 1 0 0 0) [{ tk .running with image := coreImg, start := some lq2, aborts := [lq] }] with cores := [(7 * 64 + 63, { core0 with sa := strm 4 false })] } : State)
def wTaArLoRuAnEn2_5_v : State := (wTaArLoRuAnEn2_5_s.abortRun 64).onTask 64 (fun t => { t with report := cleanReport })
def wTaArLoRuAnEn2_5_y : Task := { tk .running with image := coreImg, start := some lq2, aborts := [lq] }
def wTaArLoRuAnEn2_5_z : Task := (wTaArLoRuAnEn2_5_v.task 64).getD task0
def wTaArLoRuAnEn2_5_r : LdrReq := (wTaArLoRuAnEn2_5_y.start).get (by decide +kernel)
def wTaArLoRuAnEn2_6_s : State := ldS (ldReq 1 0 0 0) [{ tk .running with buffer := some (0x100001000000, 4096), halves := [⟨some 3, false, 0⟩, ⟨some 9, true, 0⟩] }]
def wTaArLoRuAnEn2_6_y : Task := { tk .running with buffer := some (0x100001000000, 4096), halves := [⟨some 3, false, 0⟩, ⟨some 9, true, 0⟩] }
theorem witness_TasksAreLoadedRunAndEnded :
    (∃ (s : State) (x : Notice) (q : LdrCmd), (s.notices.find? fun y => y.d = 8) = some x ∧ s.power.mode ≠ .safe ∧ (∀ t ∈ s.ldr.tasks, t.state ≠ .loading) ∧ s.posterReaches x.sender x.pointer 128 = true ∧ s.ready .loader x.pointer 128 true = true ∧ q = ⟨x, s.seen x.pointer 128⟩ ∧ q.op = 1 ∧ q.fieldBad = false) ∧
    (∃ (s : State) (q : LdrCmd) (i : Nat), q.op = 1 ∧ s.allMem q.addr q.bytes = true ∧ s.posterReaches q.x.sender q.addr q.bytes = true ∧ ((List.range 64).find? fun i => !s.ldr.tasks.any fun t => t.id = i + 1) = some i ∧ s.areaUsed + q.bytes ≤ s.loaderArea.2) ∧
    (∃ (s : State) (x : Task) (q : LdrReq) (r : Reject), (s.ldr.tasks.find? fun y => y.state = .loading) = some x ∧ x.load = some q ∧ s.ready .loader q.pointer 128 true = true ∧ s.verify x.image x.image.length s.loaderArea.2 = some r) ∧
    (∃ (s : State) (x : Task) (q : LdrReq) (p : Plan), (s.ldr.tasks.find? fun y => y.state = .loading) = some x ∧ x.load = some q ∧ s.ready .loader q.pointer 128 true = true ∧ s.verify x.image x.image.length s.loaderArea.2 = none ∧ s.plan x.image = .ok p ∧ (∀ z ∈ p.ranges x.owner (imgEntries x.image 3).zipIdx, s.rangeReady .loader z.1 z.2.1 z.2.2 = true)) ∧
    (∃ (s : State) (v : State) (x : Notice) (q : LdrCmd) (y : Task), (s.notices.find? fun z => z.d = 8) = some x ∧ s.power.mode ≠ .safe ∧ (∀ t ∈ s.ldr.tasks, t.state ≠ .loading) ∧ s.posterReaches x.sender x.pointer 128 = true ∧ s.ready .loader x.pointer 128 true = true ∧ q = ⟨x, s.seen x.pointer 128⟩ ∧ q.fieldBad = false ∧ v = s.emptySlot 8 0 x.n ∧ s.task q.task = some y ∧ y.owner = posterOwner x.sender ∧ y.state = .loaded ∧ q.op = 2 ∧ v.startBlocked y = none) ∧
    (∃ (s : State) (v : State) (x : Notice) (q : LdrCmd) (y : Task) (fault : _) (d : Nat) (c : Nat), (s.notices.find? fun z => z.d = 8) = some x ∧ s.power.mode ≠ .safe ∧ (∀ t ∈ s.ldr.tasks, t.state ≠ .loading) ∧ s.posterReaches x.sender x.pointer 128 = true ∧ s.ready .loader x.pointer 128 true = true ∧ q = ⟨x, s.seen x.pointer 128⟩ ∧ q.fieldBad = false ∧ v = s.emptySlot 8 0 x.n ∧ s.task q.task = some y ∧ y.owner = posterOwner x.sender ∧ y.state = .loaded ∧ q.op = 2 ∧ v.startBlocked y = some (fault, d, c)) ∧
    (∃ (s : State) (v : State) (x : Notice) (q : LdrCmd) (y : Task), (s.notices.find? fun z => z.d = 8) = some x ∧ s.power.mode ≠ .safe ∧ (∀ t ∈ s.ldr.tasks, t.state ≠ .loading) ∧ s.posterReaches x.sender x.pointer 128 = true ∧ s.ready .loader x.pointer 128 true = true ∧ q = ⟨x, s.seen x.pointer 128⟩ ∧ q.fieldBad = false ∧ v = s.emptySlot 8 0 x.n ∧ s.task q.task = some y ∧ y.owner = posterOwner x.sender ∧ y.state = .loaded ∧ q.op = 4) ∧
    (∃ (s : State) (q : LdrCmd) (y : Task), s.abortWaiting = some q ∧ s.power.mode ≠ .safe ∧ s.task q.task = some y ∧ s.ready .loader q.req.pointer 128 true = true ∧ ((∀ r, y.load = some r → s.ready .loader r.pointer 128 true = true)) ∧ q.fieldBad = false ∧ y.owner = posterOwner q.x.sender ∧ y.state = .loaded) ∧
    (∃ (s : State) (q : LdrCmd) (y : Task), s.abortWaiting = some q ∧ s.power.mode ≠ .safe ∧ s.task q.task = some y ∧ s.ready .loader q.req.pointer 128 true = true ∧ ((∀ r, y.load = some r → s.ready .loader r.pointer 128 true = true)) ∧ q.fieldBad = false ∧ y.owner = posterOwner q.x.sender ∧ y.state = .running) ∧
    (∃ (s : State) (q : LdrCmd) (y : Task) (r : _), s.abortWaiting = some q ∧ s.power.mode ≠ .safe ∧ s.task q.task = some y ∧ s.ready .loader q.req.pointer 128 true = true ∧ ((∀ r, y.load = some r → s.ready .loader r.pointer 128 true = true)) ∧ q.fieldBad = false ∧ y.owner = posterOwner q.x.sender ∧ y.state = .loading ∧ y.load = some r) ∧
    (∃ (s : State) (id : Nat) (y : Task) (r : LdrReq), s.task id = some y ∧ y.state = .running ∧ y.allDone = true ∧ y.start = some r ∧ y.aborts = [] ∧ s.ready .loader r.pointer 128 true = true) ∧
    (∃ (s : State) (v : State) (id : Nat) (fault : Nat) (d : Nat) (c : Nat) (y : Task) (z : Task) (r : LdrReq), s.task id = some y ∧ y.state = .running ∧ y.allDone = false ∧ fault ≠ 0 ∧ (d, c) ∈ y.cores ∧ (s.core d c).faulted = some fault ∧ y.start = some r ∧ y.aborts = [] ∧ v = (s.abortRun id).onTask id (fun t => { t with report := s.faultReport fault d c }) ∧ v.task id = some z ∧ z.state = .aborting ∧ z.start = some r ∧ z.aborts = [] ∧ z.report = s.faultReport fault d c ∧ field z.report 0 2 ≠ 0 ∧ v.ready .loader r.pointer 128 true = true) ∧
    (∃ (s : State) (v : State) (id : Nat) (y : Task) (z : Task) (r : LdrReq) (q : LdrReq), s.task id = some y ∧ y.state = .running ∧ y.allDone = false ∧ y.start = some r ∧ y.aborts = [q] ∧ v = (s.abortRun id).onTask id (fun t => { t with report := cleanReport }) ∧ v.task id = some z ∧ z.state = .aborting ∧ z.start = some r ∧ z.aborts = [q] ∧ z.report = cleanReport ∧ v.ready .loader r.pointer 128 true = true ∧ v.ready .loader q.pointer 128 true = true) ∧
    (∃ (s : State) (id : Nat) (alloc : Nat) (base : Nat) (half : Nat) (i : Nat) (y : Task), s.task id = some y ∧ y.buffer = some (base, half) ∧ (y.halves.findIdx? fun h => decide (h.alloc = some alloc) && h.fetching) = some i ∧ s.rangeReady (.kvm ((y.cores.headD (0, 0)).1)) (base + i * half) half true = true) :=
  ⟨⟨wTaArLoRuAnEn1_1_s, nx8, wTaArLoRuAnEn1_1_q, by decide +kernel, by decide +kernel, by decide +kernel, (by decide +kernel), by decide +kernel, by unfold wTaArLoRuAnEn1_1_q; rfl, by and_intros <;> decide +kernel⟩,
    ⟨wTaArLoRuAnEn1_2_s, wTaArLoRuAnEn1_2_q, 1, by and_intros <;> decide +kernel⟩,
    ⟨wTaArLoRuAnEn1_3_s, wTaArLoRuAnEn1_3_x, wTaArLoRuAnEn1_3_q, wTaArLoRuAnEn1_3_r, by decide +kernel, some_get, by decide +kernel, some_get⟩,
    ⟨wTaArLoRuAnEn1_4_s, wTaArLoRuAnEn1_4_x, wTaArLoRuAnEn1_4_q, wTaArLoRuAnEn1_4_p, by decide +kernel, some_get, by decide +kernel, by decide +kernel, ok_of _ (by decide +kernel), by decide +kernel⟩,
    ⟨wTaArLoRuAnEn2_1_1_s, wTaArLoRuAnEn2_1_1_v, nx8, wTaArLoRuAnEn2_1_1_q, wTaArLoRuAnEn2_1_1_y, by decide +kernel, by decide +kernel, by decide +kernel, (by decide +kernel), by decide +kernel, by unfold wTaArLoRuAnEn2_1_1_q; rfl, by decide +kernel, by unfold wTaArLoRuAnEn2_1_1_v; rfl, by and_intros <;> decide +kernel⟩,
    ⟨wTaArLoRuAnEn2_1_2_s, wTaArLoRuAnEn2_1_2_v, nx8, wTaArLoRuAnEn2_1_2_q, wTaArLoRuAnEn2_1_2_y, (wTaArLoRuAnEn2_1_2_s.startBlocked wTaArLoRuAnEn2_1_2_y).get!.1, 7, 63, by decide +kernel, by decide +kernel, by decide +kernel, (by decide +kernel), by decide +kernel, by unfold wTaArLoRuAnEn2_1_2_q; rfl, by decide +kernel, by unfold wTaArLoRuAnEn2_1_2_v; rfl, by and_intros <;> decide +kernel⟩,
    ⟨wTaArLoRuAnEn2_1_3_s, wTaArLoRuAnEn2_1_3_v, nx8, wTaArLoRuAnEn2_1_3_q, wTaArLoRuAnEn2_1_3_y, by decide +kernel, by decide +kernel, by decide +kernel, (by decide +kernel), by decide +kernel, by unfold wTaArLoRuAnEn2_1_3_q; rfl, by decide +kernel, by unfold wTaArLoRuAnEn2_1_3_v; rfl, by and_intros <;> decide +kernel⟩,
    ⟨wTaArLoRuAnEn2_2_1_s, wTaArLoRuAnEn2_2_1_q, wTaArLoRuAnEn2_2_1_y, some_get, by and_intros <;> decide +kernel⟩,
    ⟨wTaArLoRuAnEn2_2_2_s, wTaArLoRuAnEn2_2_2_q, wTaArLoRuAnEn2_2_2_y, some_get, by and_intros <;> decide +kernel⟩,
    ⟨wTaArLoRuAnEn2_2_3_s, wTaArLoRuAnEn2_2_3_q, wTaArLoRuAnEn2_2_3_y, (wTaArLoRuAnEn2_2_3_y.load).get (by decide +kernel), some_get, by decide +kernel, by decide +kernel, by decide +kernel, (by decide +kernel), by decide +kernel, by decide +kernel, by decide +kernel, some_get⟩,
    ⟨wTaArLoRuAnEn2_3_s, 64, wTaArLoRuAnEn2_3_y, wTaArLoRuAnEn2_3_r, by decide +kernel, by decide +kernel, by decide +kernel, some_get, by and_intros <;> decide +kernel⟩,
    ⟨wTaArLoRuAnEn2_4_s, wTaArLoRuAnEn2_4_v, 64, 0x4301, 7, 63, wTaArLoRuAnEn2_4_y, wTaArLoRuAnEn2_4_z, wTaArLoRuAnEn2_4_r, by decide +kernel, by decide +kernel, by decide +kernel, (by decide +kernel), by decide +kernel, by decide +kernel, some_get, by decide +kernel, by unfold wTaArLoRuAnEn2_4_v; rfl, by and_intros <;> decide +kernel⟩,
    ⟨wTaArLoRuAnEn2_5_s, wTaArLoRuAnEn2_5_v, 64, wTaArLoRuAnEn2_5_y, wTaArLoRuAnEn2_5_z, wTaArLoRuAnEn2_5_r, lq, by decide +kernel, by decide +kernel, by decide +kernel, some_get, by decide +kernel, by unfold wTaArLoRuAnEn2_5_v; rfl, by and_intros <;> decide +kernel⟩,
    ⟨wTaArLoRuAnEn2_6_s, 64, 9, 0x100001000000, 4096, 1, wTaArLoRuAnEn2_6_y, by and_intros <;> decide +kernel⟩⟩

theorem witness_LanesTrainIntoPorts :
    (∃ (s : State) (e : Nat) (lane : Nat), e < 16 ∧ lane < 36 ∧ s.boot.lasersOn = true ∧ (s.lane e lane).lit = false ∧ s.logicalOf e lane = none) ∧
    (∃ (s : State) (e : Nat) (lane : Nat) (i : Nat), e < 16 ∧ lane < 36 ∧ s.boot.lasersOn = true ∧ (s.lane e lane).lit = false ∧ s.logicalOf e lane = some i ∧ s.mayTrain (groupPort e i) = true ∧ (s.fport (groupPort e i)).phase = .down) ∧
    (∃ (s : State) (e : Nat) (lane : Nat) (i : Nat) (p : Nat) (b : List Byte), s.blockOn e lane 3 b = true ∧ s.logicalOf e lane = some i ∧ p = groupPort e i ∧ s.mayTrain p = true ∧ ((s.fport p).phase = .down ∨ (s.fport p).phase = .training ∨ (s.fport p).phase = .miscabled) ∧ ((p < 48 → s.namedPeer p = some (bits (field b 1 2) 13 0) ∧ bits (field b 1 2) 15 14 = 0))) ∧
    (∃ (s : State) (e : Nat) (lane : Nat) (i : Nat) (p : Nat) (m : Nat) (b : List Byte), s.blockOn e lane 3 b = true ∧ s.logicalOf e lane = some i ∧ p = groupPort e i ∧ s.mayTrain p = true ∧ p < 48 ∧ ((s.fport p).phase = .down ∨ (s.fport p).phase = .training) ∧ m = bits (field b 1 2) 13 0 ∧ (s.namedPeer p ≠ some m ∨ bits (field b 1 2) 15 14 ≠ 0)) ∧
    (∃ (s : State) (p : Nat), p < 56 ∧ (s.fport p).phase = .training ∧ (s.fport p).rate = false ∧ (∀ en ∈ s.portLanes p, (s.lane en.1 en.2).ts1 = true ∧ (s.lane en.1 en.2).countdown = true)) ∧
    (∃ (s : State) (e : Nat) (lane : Nat) (i : Nat) (p : Nat) (b : List Byte), s.blockOn e lane 4 b = true ∧ s.logicalOf e lane = some i ∧ p = groupPort e i ∧ (s.fport p).phase = .training ∧ (s.fport p).rate = true) ∧
    (∃ (s : State) (e : Nat) (lane : Nat) (i : Nat) (b : List Byte), s.blockOn e lane 2 b = true ∧ s.logicalOf e lane = some i ∧ (s.fport (groupPort e i)).phase ≠ .training) ∧
    (∃ (e : Nat) (lane : Nat), e < 16 ∧ lane < 36) ∧
    (∃ (s : State) (e : Nat) (lane : Nat) (i : Nat) (x : Nat) (p : Nat), e < 16 ∧ lane < 36 ∧ (s.lane e lane).failed = false ∧ s.logicalOf e lane = some i ∧ p = groupPort e i ∧ (s.fport p).phase = .training ∧ (s.engine e).map.length = 32 ∧ (s.freeSpares e).head? = some x) ∧
    (∃ (s : State) (p : Nat), p < 56 ∧ (s.fport p).phase = .training) :=
  ⟨⟨optS [] [] ([]), 15, 35, by and_intros <;> decide +kernel⟩,
    ⟨optS [] [] ([]), 15, 23, 23, by and_intros <;> decide +kernel⟩,
    ⟨optS [(47, trP)] [] (lanesOf lit0 [16,17,18,19,20,21,22,23]), 15, 23, 23, 47, ts 3 9 23 0 0xFFFF, by and_intros <;> decide +kernel⟩,
    ⟨optS [(47, trP)] [] (lanesOf lit0 [16,17,18,19,20,21,22,23]), 15, 23, 23, 47, bits (field (ts 3 8 23 0 0xFFFF) 1 2) 13 0, ts 3 8 23 0 0xFFFF, by decide +kernel, by decide +kernel, by decide +kernel, (by decide +kernel), by decide +kernel, by decide +kernel, rfl, by decide +kernel⟩,
    ⟨optS [(47, trP)] [] (lanesOf { lit0 with ts1 := true, countdown := true, eqOk := true, ts2 := 0, am := some 5 } [16,17,18,19,20,21,22] ++ lanesOf { lit0 with ts1 := true, countdown := true, eqOk := true, ts2 := 0, am := some 5 } [23]), 47, by and_intros <;> decide +kernel⟩,
    ⟨optS [(47, { trP with rate := true, eq := true })] [] (lanesOf { lit0 with ts1 := true, countdown := true, eqOk := true, ts2 := 16, am := some 5 } [16,17,18,19,20,21,22] ++ lanesOf { lit0 with ts1 := true, countdown := true, eqOk := true, ts2 := 15, am := some 5 } [23]), 15, 23, 23, 47, ts 4 9 23 0 0, by and_intros <;> decide +kernel⟩,
    ⟨optS [(47, upP)] [] (lanesOf lit0 [23]), 15, 23, 23, padTo 32 0 [2, 23, 0x34, 0x12], by and_intros <;> decide +kernel⟩,
    ⟨15, 35, by and_intros <;> decide +kernel⟩,
    ⟨optS [(47, trP)] [] (lanesOf lit0 [16,17,18,19,20,21,22,23]), 15, 23, 23, 32, 47, by and_intros <;> decide +kernel⟩,
    ⟨optS [(47, { trP with rate := true, eq := true })] [] (lanesOf { lit0 with ts1 := true, countdown := true, eqOk := true, ts2 := 3, am := some 5 } [16,17,18,19,20,21,22] ++ lanesOf { lit0 with ts1 := true, countdown := true, eqOk := true, ts2 := 4, am := some 5 } [23]), 47, by and_intros <;> decide +kernel⟩⟩

theorem witness_PortsReplayAndWake :
    (∃ (s : State) (p : Nat), p < 48 ∧ ((s.fport p).phase = .up ∨ (s.fport p).phase = .keepAlive) ∧ (s.fport p).flits ≠ [] ∧ (s.fport p).resends < 8) ∧
    (∃ (s : State) (p : Nat), p < 48 ∧ (s.fport p).phase = .up ∧ (s.fport p).flits ≠ [] ∧ 8 ≤ (s.fport p).resends) ∧
    (∃ (s : State) (p : Nat), p < 48 ∧ (s.fport p).phase = .keepAlive ∧ s.power.mode = .dormant) ∧
    (∃ (s : State) (e : Nat) (lane : Nat) (i : Nat), e < 16 ∧ lane < 36 ∧ (s.lane e lane).lit = true ∧ s.logicalOf e lane = some i ∧ 24 ≤ i ∧ (s.fport (groupPort e i)).rate = true) ∧
    (∃ (s : State) (e : Nat) (lane : Nat), e < 16 ∧ lane < 36 ∧ (s.lane e lane).aligned = true) ∧
    (∃ (s : State) (e : Nat) (lane : Nat), e < 16 ∧ lane < 36 ∧ (s.lane e lane).aligned = true) :=
  ⟨⟨optS [(47, { upP with phase := .up, flits := [flit0 3, flit0 4], resends := 7, txNext := 5 })] [] ([]), 47, by and_intros <;> decide +kernel⟩,
    ⟨optS [(47, { upP with flits := [flit0 3, flit0 4], resends := 8 })] [] ([]), 47, by and_intros <;> decide +kernel⟩,
    ⟨({ optS [(47, { upP with phase := .keepAlive })] [] ([]) with power := { fullS.power with mode := .dormant } } : State), 47, by and_intros <;> decide +kernel⟩,
    ⟨optS [(55, { upP with rate := true })] [] (lanesOf lit0 [31]), 15, 31, 31, by and_intros <;> decide +kernel⟩,
    ⟨optS [] [] (lanesOf { lit0 with aligned := true } [35]), 15, 35, by and_intros <;> decide +kernel⟩,
    ⟨optS [] [] (lanesOf { lit0 with aligned := true, eidle := true } [35]), 15, 35, by and_intros <;> decide +kernel⟩⟩

theorem witness_FailedLanesAndLasersAreReplaced :
    (∃ (s : State) (e : Nat) (lane : Nat) (i : Nat) (x : Nat) (p : Nat), e < 16 ∧ lane < 36 ∧ s.boot.lasersOn = true ∧ (s.lane e lane).failed = false ∧ (s.engine e).held.contains (lane % 4) = false ∧ (s.engine e).cal = none ∧ s.logicalOf e lane = some i ∧ i < 24 ∧ p = groupPort e i ∧ (s.fport p).phase = .up ∧ (s.fport p).swap = none ∧ (e, lane) ∈ s.portLanes p ∧ (∀ en ∈ s.portLanes p, (s.lane en.1 en.2).failed = false) ∧ (s.freeSpares e).head? = some x) ∧
    (∃ (s : State) (e : Nat) (lane : Nat), e < 16 ∧ lane < 36 ∧ s.boot.lasersOn = true ∧ (s.lane e lane).failed = false ∧ (s.engine e).held.contains (lane % 4) = false ∧ (s.engine e).cal = none ∧ s.logicalOf e lane = none) ∧
    (∃ (s : State) (e : Nat) (i : Nat) (x : Nat) (ep : Nat) (p : Nat) (b : List Byte), e < 16 ∧ b.length = 32 ∧ field b 0 1 = 5 ∧ field b 1 1 = i ∧ field b 2 1 = x ∧ field b 3 1 = ep ∧ i < 24 ∧ x < 36 ∧ p = groupPort e i ∧ (s.fport p).phase = .up ∧ (s.fport p).swap = none ∧ newer (s.fport p).epoch ep = true ∧ s.logicalOf e x = none ∧ (s.engine e).cal = none ∧ (s.engine e).map.length = 32 ∧ (s.engine e).map.Nodup ∧ (s.lane e x).failed = false ∧ ((∀ en ∈ s.portLanes p, en.2 ≠ s.physOf e i → (s.lane en.1 en.2).failed = false))) ∧
    (∃ (s : State) (e : Nat) (i : Nat) (p : Nat) (b : List Byte) (w : Swap), e < 16 ∧ b.length = 32 ∧ field b 0 1 = 6 ∧ field b 1 1 = i ∧ i < 24 ∧ p = groupPort e i ∧ (s.fport p).phase = .up ∧ (s.fport p).swap = some w ∧ w.logical = i ∧ w.old = s.physOf e i ∧ w.spare = field b 2 1 ∧ (s.fport p).epoch = field b 3 1 ∧ w.spare < 36 ∧ (s.engine e).map.length = 32 ∧ (s.engine e).map.Nodup ∧ s.logicalOf e w.spare = none ∧ (s.lane e w.spare).failed = false ∧ ((∀ en ∈ s.portLanes p, en.2 ≠ w.old → (s.lane en.1 en.2).failed = false)) ∧ (s.fport p).flits.length < 2048) ∧
    (∃ (s : State) (e : Nat) (p : Nat) (h : Nat), p < 48 ∧ (s.fport p).half = none ∧ h < 2 ∧ ((∀ k, k < 2 → ((List.range 4).all fun j => !(s.lane e (s.physOf e (portBase p + 4 * k + j))).failed) = decide (k = h)))) ∧
    (∃ (s : State) (e : Nat) (i : Nat) (x : Nat) (y : Nat) (rest : List Nat), e < 16 ∧ s.boot.lasersLocked = true ∧ s.fld (e / 2) (e % 2) 0 OE_CAL_CFG.PERIOD ≠ 0 ∧ (s.engine e).cal = none ∧ (s.engine e).map.length = 32 ∧ ((∀ n, n < 36 → (s.lane e n).failed = false)) ∧ ((List.range 32).map fun j => ((s.engine e).calNext + j) % 32).find? (s.laneActive e) = some i ∧ s.freeSpares e = x :: y :: rest) ∧
    (∃ (s : State) (e : Nat) (c : Calibration), (s.engine e).cal = some c ∧ c.byPeer = false ∧ c.logical < 32 ∧ (s.engine e).map.length = 32) ∧
    (∃ (s : State) (e : Nat) (i : Nat) (x : Nat) (b : List Byte), e < 16 ∧ b.length = 32 ∧ field b 0 1 = 7 ∧ field b 1 1 = i ∧ field b 2 1 = x ∧ i < 32 ∧ x < 36 ∧ newer (s.fport (groupPort e i)).epoch (field b 3 1) = true ∧ s.logicalOf e x = none ∧ (s.engine e).cal = none ∧ (s.engine e).map.length = 32) ∧
    (∃ (s : State) (e : Nat) (w : Nat), e < 16 ∧ w < 4 ∧ s.boot.lasersOn = true ∧ w ∉ (s.engine e).dark ∧ w ∉ (s.engine e).spare) ∧
    (∃ (s : State) (e : Nat) (w : Nat), e < 16 ∧ w < 4 ∧ s.boot.lasersOn = true ∧ w ∉ (s.engine e).dark ∧ w ∈ (s.engine e).spare) ∧
    (∃ (s : State) (e : Nat) (w : Nat), e < 16 ∧ w ∈ (s.engine e).relock) ∧
    (∃ (s : State) (e : Nat) (w : Nat) (b : List Byte), e < 16 ∧ b.length = 32 ∧ field b 0 1 = 8 ∧ field b 1 1 = w ∧ w < 4 ∧ w ∉ (s.engine e).held) ∧
    (∃ (e : Nat), e < 16) :=
  ⟨⟨optS [(47, upP)] [] (lanesOf lit0 [16,17,18,19,20,21,22,23]), 15, 23, 23, 32, 47, by and_intros <;> decide +kernel⟩,
    ⟨optS [] [] ([]), 15, 35, by and_intros <;> decide +kernel⟩,
    ⟨optS [(47, upP)] [] (lanesOf lit0 [16,17,18,19,20,21,22,23]), 15, 23, 35, 5, 47, padTo 32 0 [5, 23, 35, 5, 1], by and_intros <;> decide +kernel⟩,
    ⟨optS [(47, { upP with swap := some ⟨23, 23, 32, 1⟩ })] [] (lanesOf lit0 [16,17,18,19,20,21,22] ++ lanesOf { freshLane with failed := true } [23]), 15, 23, 47, padTo 32 0 [6, 23, 32, 4, 1], (((optS [(47, { upP with swap := some ⟨23, 23, 32, 1⟩ })] [] (lanesOf lit0 [16,17,18,19,20,21,22] ++ lanesOf { freshLane with failed := true } [23])).fport 47).swap).get (by decide +kernel), by decide +kernel, by decide +kernel, by decide +kernel, (by decide +kernel), by decide +kernel, by decide +kernel, by decide +kernel, some_get, by and_intros <;> decide +kernel⟩,
    ⟨optS [(47, upP)] [] (lanesOf { freshLane with failed := true } [23]), 15, 47, 0, by and_intros <;> decide +kernel⟩,
    ⟨((optS [(47, upP)] [(15, { freshEngine with calNext := 17 })] ([])).setFld 7 1 0 OE_CAL_CFG.PERIOD 1), 15, 17, 32, 33, [34, 35], by and_intros <;> decide +kernel⟩,
    ⟨optS [(47, upP)] [(15, { freshEngine with map := (List.range 32).set 17 32, cal := some ⟨17, 17, 32, false⟩ })] ([]), 15, ⟨17, 17, 32, false⟩, by and_intros <;> decide +kernel⟩,
    ⟨optS [(47, upP)] [] ([]), 15, 23, 35, padTo 32 0 [7, 23, 35, 5, 1], by and_intros <;> decide +kernel⟩,
    ⟨optS [(47, upP), (46, upP)] [] ([]), 15, 3, by and_intros <;> decide +kernel⟩,
    ⟨optS [(47, upP), (46, upP)] [(15, { freshEngine with spare := [3], relock := [3] })] (lanesOf lit0 [16,17,18,19,20,21,22,23]), 15, 3, by and_intros <;> decide +kernel⟩,
    ⟨optS [(47, upP)] [(15, { freshEngine with relock := [3] })] ([]), 15, 3, by and_intros <;> decide +kernel⟩,
    ⟨optS [(47, upP)] [] ([]), 15, 3, padTo 32 0 [8, 3, 40, 0], by and_intros <;> decide +kernel⟩,
    ⟨15, by decide +kernel⟩⟩

theorem witness_HostPortsComeUpAndReset :
    (∃ (s : State) (p : Nat) (partner : Nat) (speed : Nat) (width : Nat) (proto : Nat), p < 8 ∧ partner ≤ 4 ∧ 1 ≤ speed ∧ speed ≤ 6 ∧ [1, 2, 4, 8, 16].contains width = true ∧ s.boot.lasersOn = true ∧ (s.port p).heldDown = false ∧ (s.port p).proto = 0 ∧ proto = trainedProto (s.fld p 0 0 HP_CFG.ALLOWED) partner speed) ∧
    (∃ (allowed : Nat) (partner : Nat) (speed : Nat), 1 ≤ speed ∧ speed ≤ 6 ∧ partner ≤ 4 ∧ allowed ≤ 3) ∧
    (∃ (s : State) (p : Nat) (n : Nat) (base : Nat) (size : Nat) (ways : Nat) (gran : Nat) (skip : Nat) (ok : Bool), p < 8 ∧ n < 4 ∧ mfind (s.port p).decoders n = none ∧ ((s.port p).proto = 4 ∨ (s.port p).proto = 5) ∧ ok = s.commitOk p n ⟨base, size, ways, gran, skip, true, false⟩) ∧
    (∃ (s : State) (p : Nat) (n : Nat) (x : Decoder), mfind (s.port p).decoders n = some x ∧ x.committed = true) ∧
    (∃ (s : State) (p : Nat), p < 8 ∧ (∀ y ∈ s.ldr.tasks, y.owner ≠ senderHost p 0)) ∧
    (∃ (s : State) (p : Nat), p < 8 ∧ (∀ y ∈ s.ldr.tasks, y.owner ≠ senderHost p 0)) ∧
    (∃ (s : State) (p : Nat), p < 8 ∧ (∀ y ∈ s.ldr.tasks, y.owner ≠ senderHost p 0)) ∧
    (∃ (p : Nat) (c : Instr), p < 8 ∧ (c = .hotReset p ∨ c = .flr p ∨ c = .cxlReset p)) ∧
    (∃ (s : State) (p : Nat), p < 8 ∧ s.farPort = some p) ∧
    (∃ (s : State) (p : Nat), p < 8 ∧ s.farPort = some p) ∧
    (∃ (s : State) (p : Nat), p < 8 ∧ s.farPort ≠ some p) ∧
    (∃ (p : Nat), p < 8) :=
  ⟨⟨({ fullS with ports := [] } : State).setFld 7 0 0 HP_CFG.ALLOWED 0, 7, 0, 1, 1, trainedProto ((({ fullS with ports := [] } : State).setFld 7 0 0 HP_CFG.ALLOWED 0).fld 7 0 0 HP_CFG.ALLOWED) 0 1, by and_intros <;> decide +kernel⟩,
    ⟨0, 0, 1, by and_intros <;> decide +kernel⟩,
    ⟨({ kvS with ports := [(3, { freshPort with proto := 5, busMaster := true, decoders := [(0, ⟨1, 2, 0, 0, 0, true, false⟩)], range1 := 5, msixPending := [4, 7] })], notices := [⟨7, 3, 255, leBytes 16 5⟩, ⟨7, 3, 254, leBytes 16 5⟩], mem := { kvS.mem with dir := [⟨5, [(3, true), (4, false)]⟩], snoops := [⟨3, 5, .rdOwn⟩], held := [⟨.host 3 9, .bar 0 0, .read 4 0⟩, ⟨.host 4 9, .bar 0 0, .read 4 0⟩] } } : State), 3, 3, 0x40000000, 0x10000000, 0, 0, 0, (({ kvS with ports := [(3, { freshPort with proto := 5, busMaster := true, decoders := [(0, ⟨1, 2, 0, 0, 0, true, false⟩)], range1 := 5, msixPending := [4, 7] })], notices := [⟨7, 3, 255, leBytes 16 5⟩, ⟨7, 3, 254, leBytes 16 5⟩], mem := { kvS.mem with dir := [⟨5, [(3, true), (4, false)]⟩], snoops := [⟨3, 5, .rdOwn⟩], held := [⟨.host 3 9, .bar 0 0, .read 4 0⟩, ⟨.host 4 9, .bar 0 0, .read 4 0⟩] } } : State)).commitOk 3 3 ⟨0x40000000, 0x10000000, 0, 0, 0, true, false⟩, by and_intros <;> decide +kernel⟩,
    ⟨({ kvS with ports := [(3, { freshPort with proto := 5, busMaster := true, decoders := [(0, ⟨1, 2, 0, 0, 0, true, false⟩)], range1 := 5, msixPending := [4, 7] })], notices := [⟨7, 3, 255, leBytes 16 5⟩, ⟨7, 3, 254, leBytes 16 5⟩], mem := { kvS.mem with dir := [⟨5, [(3, true), (4, false)]⟩], snoops := [⟨3, 5, .rdOwn⟩], held := [⟨.host 3 9, .bar 0 0, .read 4 0⟩, ⟨.host 4 9, .bar 0 0, .read 4 0⟩] } } : State), 3, 0, ⟨1, 2, 0, 0, 0, true, false⟩, by and_intros <;> decide +kernel⟩,
    ⟨(bound (bound ({ kvS with ports := [(3, { freshPort with proto := 5, busMaster := true, decoders := [(0, ⟨1, 2, 0, 0, 0, true, false⟩)], range1 := 5, msixPending := [4, 7] })], notices := [⟨7, 3, 255, leBytes 16 5⟩, ⟨7, 3, 254, leBytes 16 5⟩], mem := { kvS.mem with dir := [⟨5, [(3, true), (4, false)]⟩], snoops := [⟨3, 5, .rdOwn⟩], held := [⟨.host 3 9, .bar 0 0, .read 4 0⟩, ⟨.host 4 9, .bar 0 0, .read 4 0⟩] } } : State) 7 3 255 2 3 8) 7 3 254 2 4 16), 3, by and_intros <;> decide +kernel⟩,
    ⟨(bound (bound ({ kvS with ports := [(3, { freshPort with proto := 5, busMaster := true, decoders := [(0, ⟨1, 2, 0, 0, 0, true, false⟩)], range1 := 5, msixPending := [4, 7] })], notices := [⟨7, 3, 255, leBytes 16 5⟩, ⟨7, 3, 254, leBytes 16 5⟩], mem := { kvS.mem with dir := [⟨5, [(3, true), (4, false)]⟩], snoops := [⟨3, 5, .rdOwn⟩], held := [⟨.host 3 9, .bar 0 0, .read 4 0⟩, ⟨.host 4 9, .bar 0 0, .read 4 0⟩] } } : State) 7 3 255 2 3 8) 7 3 254 2 4 16), 3, by and_intros <;> decide +kernel⟩,
    ⟨(bound (bound ({ kvS with ports := [(3, { freshPort with proto := 5, busMaster := true, decoders := [(0, ⟨1, 2, 0, 0, 0, true, false⟩)], range1 := 5, msixPending := [4, 7] })], notices := [⟨7, 3, 255, leBytes 16 5⟩, ⟨7, 3, 254, leBytes 16 5⟩], mem := { kvS.mem with dir := [⟨5, [(3, true), (4, false)]⟩], snoops := [⟨3, 5, .rdOwn⟩], held := [⟨.host 3 9, .bar 0 0, .read 4 0⟩, ⟨.host 4 9, .bar 0 0, .read 4 0⟩] } } : State) 7 3 255 2 3 8) 7 3 254 2 4 16), 3, by and_intros <;> decide +kernel⟩,
    ⟨3, .hotReset 3, by and_intros <;> decide +kernel⟩,
    ⟨({ kvS with ports := [(3, { freshPort with proto := 5, busMaster := true, decoders := [(0, ⟨1, 2, 0, 0, 0, true, false⟩)], range1 := 5, msixPending := [4, 7] })], notices := [⟨7, 3, 255, leBytes 16 5⟩, ⟨7, 3, 254, leBytes 16 5⟩], mem := { kvS.mem with dir := [⟨5, [(3, true), (4, false)]⟩], snoops := [⟨3, 5, .rdOwn⟩], held := [⟨.host 3 9, .bar 0 0, .read 4 0⟩, ⟨.host 4 9, .bar 0 0, .read 4 0⟩] } } : State), 3, by and_intros <;> decide +kernel⟩,
    ⟨({ kvS with ports := [(3, { freshPort with proto := 5, busMaster := true, decoders := [(0, ⟨1, 2, 0, 0, 0, true, false⟩)], range1 := 5, msixPending := [4, 7] })], notices := [⟨7, 3, 255, leBytes 16 5⟩, ⟨7, 3, 254, leBytes 16 5⟩], mem := { kvS.mem with dir := [⟨5, [(3, true), (4, false)]⟩], snoops := [⟨3, 5, .rdOwn⟩], held := [⟨.host 3 9, .bar 0 0, .read 4 0⟩, ⟨.host 4 9, .bar 0 0, .read 4 0⟩] } } : State), 3, by and_intros <;> decide +kernel⟩,
    ⟨({ kvS with ports := [(3, { freshPort with proto := 5, busMaster := true, decoders := [(0, ⟨1, 2, 0, 0, 0, true, false⟩)], range1 := 5, msixPending := [4, 7] })], notices := [⟨7, 3, 255, leBytes 16 5⟩, ⟨7, 3, 254, leBytes 16 5⟩], mem := { kvS.mem with dir := [⟨5, [(3, true), (4, false)]⟩], snoops := [⟨3, 5, .rdOwn⟩], held := [⟨.host 3 9, .bar 0 0, .read 4 0⟩, ⟨.host 4 9, .bar 0 0, .read 4 0⟩] } } : State), 4, by and_intros <;> decide +kernel⟩,
    ⟨3, by decide +kernel⟩⟩

theorem witness_BiasFlipsPageByPage :
    (∃ (s : State) (p : Nat), p < 8 ∧ (s.port p).flip = none ∧ biasPort (s.port p) = true ∧ ((s.port p).biasPage + (s.port p).biasCount + 1) * 4096 ≤ dpaSize (s.window p)) ∧
    (∃ (s : State) (p : Nat), p < 8 ∧ (s.port p).flip = none ∧ biasPort (s.port p) = true ∧ ((s.port p).biasPage + (s.port p).biasCount + 1) * 4096 ≤ dpaSize (s.window p)) ∧
    (∃ (s : State) (p : Nat), p < 8 ∧ (s.port p).flip = none ∧ (biasPort (s.port p) = false ∨ dpaSize (s.window p) < ((s.port p).biasPage + (s.port p).biasCount + 1) * 4096)) ∧
    (∃ (s : State) (p : Nat), p < 8 ∧ (s.port p).flip = none ∧ (biasPort (s.port p) = false ∨ dpaSize (s.window p) < ((s.port p).biasPage + (s.port p).biasCount + 1) * 4096)) ∧
    (∃ (s : State) (p : Nat), p < 8 ∧ (s.port p).flip.isSome = true) ∧
    (∃ (s : State) (p : Nat), p < 8 ∧ (s.port p).flip.isSome = true) ∧
    (∃ (s : State) (p : Nat) (f : Flip), (s.port p).flip = some f ∧ s.pageFlips p f.next f.toDevice = true) ∧
    (∃ (s : State) (p : Nat) (f : Flip), (s.port p).flip = some f ∧ s.pageFlips p f.next f.toDevice = false) :=
  ⟨⟨hpS { biasP with biasDone := 9 }, 7, by and_intros <;> decide +kernel⟩,
    ⟨hpS { biasP with proto := 3 }, 7, by and_intros <;> decide +kernel⟩,
    ⟨hpS { biasP with biasCount := 2 }, 7, by and_intros <;> decide +kernel⟩,
    ⟨hpS { biasP with biasCount := 2 }, 7, by and_intros <;> decide +kernel⟩,
    ⟨hpS { biasP with flip := some ⟨true, 0, 1⟩ }, 7, by and_intros <;> decide +kernel⟩,
    ⟨hpS { biasP with flip := some ⟨true, 0, 1⟩ }, 7, by and_intros <;> decide +kernel⟩,
    ⟨hpS { biasP with flip := some ⟨false, 0, 1⟩ }, 7, ⟨false, 0, 1⟩, by and_intros <;> decide +kernel⟩,
    ⟨hpS { biasP with flip := some ⟨true, 0, 1⟩ }, 7, ⟨true, 0, 1⟩, by and_intros <;> decide +kernel⟩⟩

theorem witness_TransfersStageAndStore :
    (∃ (s : State) (p : Nat) (kind : Nat) (n : Nat), s.doeServed p = true ∧ ((∀ x, s.boot.transfer = some x → x.path = p)) ∧ (kind = 1 ∨ kind = 2) ∧ n ≤ transferMax kind) ∧
    (∃ (s : State) (p : Nat) (x : Transfer), s.doeServed p = true ∧ s.boot.transfer = some x ∧ x.path ≠ p) ∧
    (∃ (s : State) (p : Nat) (kind : Nat) (n : Nat), s.doeServed p = true ∧ ((∀ x, s.boot.transfer = some x → x.path = p)) ∧ ((kind ≠ 1 ∧ kind ≠ 2) ∨ transferMax kind < n)) ∧
    (∃ (s : State) (b : List Byte) (x : Transfer), s.doeServed x.path = true ∧ s.boot.transfer = some x ∧ 4 ≤ b.length ∧ b.length ≤ 4096 ∧ x.got.length + b.length ≤ x.total) ∧
    (∃ (s : State) (off : Nat) (x : Transfer), s.doeServed x.path = true ∧ s.boot.transfer = some x ∧ off ≠ x.got.length) ∧
    (∃ (s : State) (x : Transfer), s.doeServed x.path = true ∧ s.boot.transfer = some x ∧ x.kind = 1 ∧ x.got.length = x.total) ∧
    (∃ (s : State) (sigOk : Bool) (r : Record) (x : Transfer), s.doeServed x.path = true ∧ s.boot.transfer = some x ∧ x.kind = 2 ∧ x.got.length = x.total ∧ recordTrusted s.fuses r sigOk = true ∧ sectionFault r = none) ∧
    (∃ (s : State) (sigOk : Bool) (r : Option Record) (x : Transfer), s.doeServed x.path = true ∧ s.boot.transfer = some x ∧ x.kind = 2 ∧ ((∀ y, r = some y → recordTrusted s.fuses y sigOk = false))) ∧
    (∃ (s : State) (p : Nat), s.doeServed p = true) ∧
    (∃ (s : State) (sigOk : Bool) (img : List Byte), s.boot.staged = some img ∧ s.romTakesImage = true ∧ s.boot.recoveryPost = none ∧ s.fwRuns img sigOk = true) ∧
    (∃ (s : State) (sigOk : Bool) (img : List Byte), s.boot.staged = some img ∧ s.romTakesImage = true ∧ s.boot.recoveryPost = none ∧ s.fwRuns img sigOk = false) :=
  ⟨⟨({ hpS { biasP with proto := 5 } with boot := { fullS.boot with transfer := none, staged := some [1] } } : State), 7, 1, transferMax 1, by and_intros <;> decide +kernel⟩,
    ⟨({ hpS { biasP with proto := 5 } with boot := { fullS.boot with transfer := some ⟨3, 2, 9, [1,2,3,4]⟩, staged := some [1] } } : State), 7, ⟨3, 2, 9, [1,2,3,4]⟩, by and_intros <;> decide +kernel⟩,
    ⟨({ hpS { biasP with proto := 5 } with boot := { fullS.boot with transfer := none, staged := some [1] } } : State), 7, 3, 1, by and_intros <;> decide +kernel⟩,
    ⟨({ hpS { biasP with proto := 5 } with boot := { fullS.boot with transfer := some ⟨7, 2, 8, [1,2,3,4]⟩, staged := some [1] } } : State), [1,2,3,4], ⟨7, 2, 8, [1,2,3,4]⟩, by and_intros <;> decide +kernel⟩,
    ⟨({ hpS { biasP with proto := 5 } with boot := { fullS.boot with transfer := some ⟨7, 2, 8, [1,2,3,4]⟩, staged := some [1] } } : State), 3, ⟨7, 2, 8, [1,2,3,4]⟩, by and_intros <;> decide +kernel⟩,
    ⟨({ hpS { biasP with proto := 5 } with boot := { fullS.boot with transfer := some ⟨7, 1, 4, [1,2,3,4]⟩, staged := some [1] } } : State), ⟨7, 1, 4, [1,2,3,4]⟩, by and_intros <;> decide +kernel⟩,
    ⟨({ hpS { biasP with proto := 5 } with boot := { fullS.boot with transfer := some ⟨7, 2, 4, [1,2,3,4]⟩, staged := some [1] } } : State), true, record0, ⟨7, 2, 4, [1,2,3,4]⟩, by and_intros <;> decide +kernel⟩,
    ⟨({ hpS { biasP with proto := 5 } with boot := { fullS.boot with transfer := some ⟨7, 2, 4, [1,2,3,4]⟩, staged := some [1] } } : State), true, none, ⟨7, 2, 4, [1,2,3,4]⟩, by and_intros <;> decide +kernel⟩,
    ⟨({ hpS { biasP with proto := 5 } with boot := { fullS.boot with transfer := none, staged := some [1] } } : State), 7, by decide +kernel⟩,
    ⟨recS, true, image0, rfl, by decide +kernel, by decide +kernel, image0_runs recS (by decide +kernel)⟩,
    ⟨({ readyS with boot := { readyS.boot with staged := some [1], recovery := true }, power := { readyS.power with mode := .booting } } : State), false, [1], by and_intros <;> decide +kernel⟩⟩

theorem witness_AttestationAnswersAndAddressIsTaken :
    (∃ (s : State) (p : Nat) (n : Nat) (c : Instr), (c, n) ∈ [(Instr.getCapabilities p, 1), (.negotiateAlgorithms p, 2), (.getDigests p, 3), (.challenge p 0, 3), (.getMeasurements p 0xFF, 3)] ∧ s.spdmServed p = true ∧ mget 0 s.mgmt.spdm p < n) ∧
    (∃ (s : State) (p : Nat), s.spdmServed p = true) ∧
    (∃ (s : State) (p : Nat), s.spdmServed p = true ∧ mget 0 s.mgmt.spdm p = 1) ∧
    (∃ (s : State) (p : Nat), s.spdmServed p = true ∧ 2 ≤ mget 0 s.mgmt.spdm p) ∧
    (∃ (s : State) (p : Nat), s.spdmServed p = true ∧ mget 0 s.mgmt.spdm p = 3) ∧
    (∃ (s : State) (p : Nat), s.spdmServed p = true ∧ mget 0 s.mgmt.spdm p = 3) ∧
    (∃ (s : State) (p : Nat), s.spdmServed p = true ∧ mget 0 s.mgmt.spdm p = 3) ∧
    (∃ (s : State) (p : Nat), s.spdmServed p = true ∧ mget 0 s.mgmt.spdm p = 3) ∧
    (∃ (s : State) (p : Nat) (i : Nat), s.spdmServed p = true ∧ mget 0 s.mgmt.spdm p = 3 ∧ 1 ≤ i ∧ i ≤ 6) ∧
    (∃ (s : State), s.power.mode ≠ .off ∧ s.power.i3cDynamic = none) ∧
    (∃ (s : State) (a : Nat), s.power.mode ≠ .off ∧ s.power.i3cDynamic = none ∧ a < 128) ∧
    (∃ (s : State) (x : Nat), s.power.i3cDynamic = some x) :=
  ⟨⟨({ hpS { biasP with proto := 5 } with mgmt := { fullS.mgmt with spdm := [(7, 0)] } } : State), 7, 1, Instr.getCapabilities 7, by simp, by and_intros <;> decide +kernel⟩,
    ⟨({ hpS { biasP with proto := 5 } with mgmt := { fullS.mgmt with spdm := [(8, 3)] } } : State), 8, by decide +kernel⟩,
    ⟨({ hpS { biasP with proto := 5 } with mgmt := { fullS.mgmt with spdm := [(7, 1)] } } : State), 7, by and_intros <;> decide +kernel⟩,
    ⟨({ hpS { biasP with proto := 5 } with mgmt := { fullS.mgmt with spdm := [(7, 2)] } } : State), 7, by and_intros <;> decide +kernel⟩,
    ⟨({ hpS { biasP with proto := 5 } with mgmt := { fullS.mgmt with spdm := [(7, 3)] } } : State), 7, by and_intros <;> decide +kernel⟩,
    ⟨({ ({ hpS { biasP with proto := 5 } with mgmt := { fullS.mgmt with spdm := [(7, 3)] } } : State) with flash := { fullS.flash with cert := [1,2,3,4] } } : State), 7, by and_intros <;> decide +kernel⟩,
    ⟨({ hpS { biasP with proto := 5 } with mgmt := { fullS.mgmt with spdm := [(7, 3)] } } : State), 7, by and_intros <;> decide +kernel⟩,
    ⟨({ hpS { biasP with proto := 5 } with mgmt := { fullS.mgmt with spdm := [(7, 3)] } } : State), 7, by and_intros <;> decide +kernel⟩,
    ⟨({ hpS { biasP with proto := 5 } with mgmt := { fullS.mgmt with spdm := [(7, 3)] } } : State), 7, 1, by and_intros <;> decide +kernel⟩,
    ⟨stbyS, by and_intros <;> decide +kernel⟩,
    ⟨fullS, 127, by and_intros <;> decide +kernel⟩,
    ⟨({ fullS with power := { fullS.power with i3cDynamic := some 9 } } : State), 9, by decide +kernel⟩⟩

theorem witness_FramesAndFlitsAreCheckedAndDelivered :
    (∃ (s : State) (p : Nat) (ty : Nat) (f : List Byte) (c : Instr), (c, ty) ∈ [(Instr.read p f, 0x01), (.write p f, 0x02), (.notice p f, 0x03), (.readRsp p f, 0x11), (.writeRsp p f, 0x12), (.noticeRsp p f, 0x13), (.coll p f, 0x21), (.credit p f, 0x31), (.down p f, 0x32), (.up p f, 0x33)] ∧ s.frameOn p ty f ∧ frClass f ≠ classOf ty) ∧
    (∃ (s : State) (p : Nat) (ty : Nat) (d : Nat) (f : List Byte) (c : Instr), (c, ty) ∈ [(Instr.read p f, 0x01), (.write p f, 0x02), (.notice p f, 0x03), (.readRsp p f, 0x11), (.writeRsp p f, 0x12), (.noticeRsp p f, 0x13), (.coll p f, 0x21), (.credit p f, 0x31), (.down p f, 0x32), (.up p f, 0x33)] ∧ s.frameOn p ty f ∧ frClass f = classOf ty ∧ bits (frHops f) 3 0 ≤ 6 ∧ ((bits (frHops f) 3 0 = 1 → carModule (frSrc f) = (s.fport p).peer)) ∧ carModule (frDst f) = s.moduleNo ∧ d = carDie (frDst f) ∧ frEcrc f ≠ field f 0x1C 4) ∧
    (∃ (s : State) (p : Nat) (f : List Byte), s.delivers p 0x31 f ∧ (∀ q, (s.fport q).out = [])) ∧
    (∃ (s : State) (p : Nat) (m : Nat) (f : List Byte), s.delivers p 0x32 f ∧ s.power.mode ≠ .safe ∧ bits (frHops f) 3 0 = 1 ∧ m = field (frPayload f) 0 2 ∧ m ≠ s.moduleNo) ∧
    (∃ (s : State) (p : Nat) (m : Nat) (f : List Byte), s.delivers p 0x33 f ∧ s.power.mode ≠ .safe ∧ bits (frHops f) 3 0 = 1 ∧ m = field (frPayload f) 0 2) ∧
    (∃ (s : State) (p : Nat) (ty : Nat) (f : List Byte) (q : CReq) (c : Instr), (c, ty) ∈ [(Instr.readRsp p f, 0x11), (.writeRsp p f, 0x12)] ∧ s.delivers p ty f ∧ s.power.mode ≠ .safe ∧ (s.fab.reqs.find? fun r => r.result.isNone && decide (r.tag = frTag f ∧ r.dst = frSrc f ∧ rspType r.kind = ty)) = some q ∧ q.owner.1 ≠ 9) ∧
    (∃ (s : State) (p : Nat) (f : List Byte) (q : CReq), s.delivers p 0x13 f ∧ s.power.mode ≠ .safe ∧ (s.fab.reqs.find? fun r => r.result.isNone && decide (r.tag = frTag f ∧ r.dst = frSrc f ∧ rspType r.kind = 0x13)) = some q ∧ q.owner.1 = 9) ∧
    (∃ (s : State) (p : Nat) (b : List Byte), p < 48 ∧ b.length = 256 ∧ (s.fport p).phase = .up ∧ (s.fport p).swap = none ∧ (crc32c (b.take 252) ≠ field b 252 4 ∨ bits (field b 240 2) 11 0 ≠ (s.fport p).rxNext) ∧ (s.fport p).naked = false ∧ (s.engine (p / 3)).held = [] ∧ (s.fport p).flits.length < 2048) ∧
    (∃ (s : State) (p : Nat) (b : List Byte), p < 48 ∧ b.length = 256 ∧ (s.fport p).phase = .up ∧ (s.fport p).swap = none ∧ (crc32c (b.take 252) ≠ field b 252 4 ∨ bits (field b 240 2) 11 0 ≠ (s.fport p).rxNext) ∧ (s.fport p).naked = true) ∧
    (∃ (s : State) (p : Nat) (b : List Byte), p < 48 ∧ b.length = 256 ∧ (s.fport p).phase = .up ∧ (s.fport p).swap = none ∧ crc32c (b.take 252) = field b 252 4 ∧ bits (field b 240 2) 11 0 = (s.fport p).rxNext ∧ bits (field b 240 2) 15 12 ≠ 0 ∧ bit (field b 242 2) 13 = false) ∧
    (∃ (s : State) (p : Nat) (n : Nat), p < 48 ∧ n < (s.fport p).out.length ∧ s.portCarries p = false) ∧
    (∃ (s : State) (n : Nat) (q : CReq), s.fab.reqs[n]? = some q ∧ q.result = none ∧ q.owner.1 ≠ 9) :=
  ⟨⟨frS, 47, 1, splice (mf 1 7 0x50 5 0 0 (List.replicate 64 3) 0) 1 [1], Instr.read 47 (splice (mf 1 7 0x50 5 0 0 (List.replicate 64 3) 0) 1 [1]), by simp, by simp only [State.frameOn]; decide +kernel, by decide +kernel⟩,
    ⟨frS, 47, 1, 7, splice (mf 1 7 0x50 5 0 0 (List.replicate 64 3) 1) 0x30 [9], Instr.read 47 (splice (mf 1 7 0x50 5 0 0 (List.replicate 64 3) 1) 0x30 [9]), by simp, by simp only [State.frameOn]; decide +kernel, by and_intros <;> decide +kernel⟩,
    ⟨frS, 47, mf 0x31 7 0xFF 5 0 0 (List.replicate 64 3) 0, by simp only [State.delivers, State.frameOn]; decide +kernel, ports_fr⟩,
    ⟨frS, 47, field (frPayload (mf 0x32 7 0xFF 5 0 0 (padTo 64 0 (leBytes 2 8)) 1)) 0 2, mf 0x32 7 0xFF 5 0 0 (padTo 64 0 (leBytes 2 8)) 1, by simp only [State.delivers, State.frameOn]; decide +kernel, by decide +kernel, by decide +kernel, rfl, by decide +kernel⟩,
    ⟨({ frS with fab := { frS.fab with down := [8, 9] } } : State), 47, field (frPayload (mf 0x33 7 0xFF 5 0 0 (padTo 64 0 (leBytes 2 8)) 1)) 0 2, mf 0x33 7 0xFF 5 0 0 (padTo 64 0 (leBytes 2 8)) 1, by simp only [State.delivers, State.frameOn]; decide +kernel, by decide +kernel, by decide +kernel, rfl⟩,
    ⟨({ frS with fab := { frS.fab with reqs := [reqF 1 3] } } : State), 47, 17, mf 17 7 0x44 7 0 0x55 (List.replicate 64 3) 0, (((({ frS with fab := { frS.fab with reqs := [reqF 1 3] } } : State)).fab.reqs.find? fun r => r.result.isNone && decide (r.tag = frTag (mf 17 7 0x44 7 0 0x55 (List.replicate 64 3) 0) ∧ r.dst = frSrc (mf 17 7 0x44 7 0 0x55 (List.replicate 64 3) 0) ∧ rspType r.kind = 17))).get (by decide +kernel), Instr.readRsp 47 (mf 17 7 0x44 7 0 0x55 (List.replicate 64 3) 0), by simp, by simp only [State.delivers, State.frameOn]; decide +kernel, by decide +kernel, some_get, by decide +kernel⟩,
    ⟨({ frS with fab := { frS.fab with reqs := [reqF 3 9] } } : State), 47, mf 0x13 7 0x44 7 0 0x55 (List.replicate 64 3) 0, (((({ frS with fab := { frS.fab with reqs := [reqF 3 9] } } : State)).fab.reqs.find? fun r => r.result.isNone && decide (r.tag = frTag (mf 0x13 7 0x44 7 0 0x55 (List.replicate 64 3) 0) ∧ r.dst = frSrc (mf 0x13 7 0x44 7 0 0x55 (List.replicate 64 3) 0) ∧ rspType r.kind = 0x13))).get (by decide +kernel), by simp only [State.delivers, State.frameOn]; decide +kernel, by decide +kernel, some_get, by decide +kernel⟩,
    ⟨frS, 47, goodFlit 1 4, by and_intros <;> decide +kernel⟩,
    ⟨optS [(47, { upP with naked := true })] [] [], 47, goodFlit 1 4, by and_intros <;> decide +kernel⟩,
    ⟨optS [(47, { upP with rxNext := 0 })] [] [], 47, goodFlit 0 4, by and_intros <;> decide +kernel⟩,
    ⟨optS [(47, { upP with phase := .down, out := [⟨mf 1 7 0x50 5 0 0 (List.replicate 64 3) 0, 0, 3, none⟩, ⟨mf 1 7 0x50 6 0 0 (List.replicate 64 3) 2, 0, 3, none⟩] })] [] [], 47, 1, by and_intros <;> decide +kernel⟩,
    ⟨({ frS with fab := { frS.fab with reqs := [reqF 1 3, { reqF 1 3 with tag := 8 }] } } : State), 1, ((({ frS with fab := { frS.fab with reqs := [reqF 1 3, { reqF 1 3 with tag := 8 }] } } : State)).fab.reqs[1]?).get (by decide +kernel), some_get, by and_intros <;> decide +kernel⟩⟩

theorem witness_PeersReadWriteAndPost :
    (∃ (s : State) (p : Nat) (d : Nat) (a : Nat) (n : Nat) (f : List Byte) (ag : Agent), s.delivers p 0x01 f ∧ s.power.mode = .ready ∧ s.partitionOk (frSrc f) = true ∧ d = carDie (frDst f) ∧ a = frAddr f ∧ a % 64 = 0 ∧ n = 64 * (bits (frOpt f) 4 0 + 1) ∧ ag = .peer (frSrc f) d (frTag f) ∧ s.reachable ag a n = true ∧ (∀ q ∈ s.memLines a n, (s.stack (placedStack q)).stopped = false) ∧ s.ready ag a n false = true ∧ s.anyPoison a n = false) ∧
    (∃ (s : State) (p : Nat) (d : Nat) (a : Nat) (f : List Byte) (b : List Byte) (ag : Agent), s.delivers p 0x02 f ∧ s.power.mode = .ready ∧ s.partitionOk (frSrc f) = true ∧ s.boot.recovery = false ∧ d = carDie (frDst f) ∧ a = frAddr f ∧ a % 64 = 0 ∧ b = frPayload f ∧ ag = .peer (frSrc f) d (frTag f) ∧ s.reachable ag a b.length = true ∧ (∀ q ∈ s.memLines a b.length, (s.stack (placedStack q)).stopped = false) ∧ s.ready ag a b.length true = true) ∧
    (∃ (s : State) (u : State) (p : Nat) (d : Nat) (k : Nat) (n : Nat) (f : List Byte) (r : PostResult), s.delivers p 0x03 f ∧ s.power.mode = .ready ∧ s.partitionOk (frSrc f) = true ∧ s.boot.recovery = false ∧ noticeSlot (carDie (frDst f)) (carAgent (frDst f)) (frOpt f) = (d, k, n) ∧ s.post (senderPeer (frSrc f)) d k n (field (frPayload f) 0 8) (field (frPayload f) 8 4) = (u, r)) ∧
    (∃ (s : State) (p : Nat) (ty : Nat) (d : Nat) (f : List Byte) (c : Instr), (c, ty) ∈ [(Instr.read p f, 0x01), (.write p f, 0x02), (.notice p f, 0x03)] ∧ s.delivers p ty f ∧ s.power.mode = .ready ∧ d = carDie (frDst f) ∧ s.partitionOk (frSrc f) = false) :=
  ⟨⟨peS, 47, 7, 0x10000000A040, 256, splice (mfn 1 7 0x50 3 0x10000000A040 (List.replicate 64 3)) 0xF [3], .peer (frSrc (splice (mfn 1 7 0x50 3 0x10000000A040 (List.replicate 64 3)) 0xF [3])) 7 5, by simp only [State.delivers, State.frameOn]; decide +kernel, by and_intros <;> decide +kernel⟩,
    ⟨peS, 47, 7, 0x10000000A040, mfn 2 7 0x50 3 0x10000000A040 (List.replicate 64 3), (List.replicate 64 3), .peer (frSrc (mfn 2 7 0x50 3 0x10000000A040 (List.replicate 64 3))) 7 5, by simp only [State.delivers, State.frameOn]; decide +kernel, by and_intros <;> decide +kernel⟩,
    ⟨peS, (peS.post (senderPeer (carAddr 9 3 0x40)) 7 3 9 99 7).1, 47, 7, 3, 9, mfn 3 7 0x43 9 0 (padTo 64 0 (leBytes 8 99 ++ leBytes 4 7)), (peS.post (senderPeer (carAddr 9 3 0x40)) 7 3 9 99 7).2, by simp only [State.delivers, State.frameOn]; decide +kernel, by and_intros <;> decide +kernel⟩,
    ⟨peS, 47, 1, 7, mf6 1, Instr.read 47 (mf6 1), by simp, by simp only [State.delivers, State.frameOn]; decide +kernel, by and_intros <;> decide +kernel⟩⟩

theorem witness_CollectivesStartMergeAndEnd :
    (∃ (s : State) (d : Nat) (n : Nat) (op : Nat) (x : Notice) (k : Coll) (c : Instr), (c, op) ∈ [(Instr.allreduce d n, 1), (.reducescatter d n, 2), (.allgather d n, 3), (.headmerge d n, 4)] ∧ s.noticeAt d 4 n = some x ∧ s.power.mode ≠ .safe ∧ (s.fab.colls.filter fun y => y.d = d).length < 16 ∧ s.posterReaches x.sender x.pointer 64 = true ∧ s.ready (.coll d) x.pointer 64 true = true ∧ k.d = d ∧ k.slot = n ∧ k.pointer = x.pointer ∧ k.tag = x.tag ∧ k.sender = x.sender ∧ k.desc = s.seen x.pointer 64 ∧ k.op = op ∧ k.p = (s.collMembers k.group).length ∧ k.index = (s.memberIndex d k.group).getD 0 ∧ k.phase = 0 ∧ k.step = 0 ∧ k.chunks = [] ∧ k.got = [] ∧ k.part = Partial.empty 0 ∧ k.kids = [] ∧ s.collFault k (s.memberIndex d k.group).isSome = none ∧ s.ready (.coll d) k.src k.srcBytes false = true ∧ s.ready (.coll d) k.dst k.dstBytes true = true) ∧
    (∃ (s : State) (d : Nat) (n : Nat) (op : Nat) (x : Notice) (k : Coll) (c : Instr) (st : Nat) (reason : Nat), (c, op) ∈ [(Instr.allreduce d n, 1), (.reducescatter d n, 2), (.allgather d n, 3), (.headmerge d n, 4)] ∧ s.noticeAt d 4 n = some x ∧ s.power.mode ≠ .safe ∧ (s.fab.colls.filter fun y => y.d = d).length < 16 ∧ s.posterReaches x.sender x.pointer 64 = true ∧ s.ready (.coll d) x.pointer 64 true = true ∧ k.d = d ∧ k.slot = n ∧ k.pointer = x.pointer ∧ k.tag = x.tag ∧ k.sender = x.sender ∧ k.desc = s.seen x.pointer 64 ∧ k.op = op ∧ k.p = (s.collMembers k.group).length ∧ k.index = (s.memberIndex d k.group).getD 0 ∧ k.phase = 0 ∧ k.step = 0 ∧ k.chunks = [] ∧ k.got = [] ∧ k.part = Partial.empty 0 ∧ k.kids = [] ∧ s.collFault k (s.memberIndex d k.group).isSome = some (st, reason)) ∧
    (∃ (s : State) (d : Nat) (n : Nat) (k : Coll), (s.fab.colls.filter fun c => c.d = d)[n]? = some k) ∧
    (∃ (s : State) (d : Nat) (n : Nat) (k : Coll) (y : _), (s.fab.colls.filter fun c => c.d = d)[n]? = some k ∧ y ∈ (s.endColl k 5 0x0050).fab.colls) ∧
    (∃ (s : State) (p : Nat) (d : Nat) (i : Nat) (f : List Byte) (k : Coll), s.delivers p 0x21 f ∧ s.power.mode = .ready ∧ d = carDie (frDst f) ∧ s.fab.collBuf = [] ∧ s.collOf d f = some k ∧ s.collFrom k f = some i ∧ collOpt f = 3) ∧
    (∃ (s : State) (p : Nat) (d : Nat) (i : Nat) (j : Nat) (f : List Byte) (k : Coll), s.delivers p 0x21 f ∧ s.power.mode = .ready ∧ d = carDie (frDst f) ∧ s.fab.collBuf = [] ∧ s.collOf d f = some k ∧ s.collFrom k f = some i ∧ k.agrees f = true ∧ k.op = 4 ∧ collOpt f = 2 ∧ i ∈ k.children ∧ i ∉ k.kids ∧ j ∈ k.children ∧ j ≠ i ∧ j ∉ k.kids) ∧
    (∃ (a : Nat) (b : Nat), a < 2 ^ 32 ∧ b < 2 ^ 32) ∧
    (∃ (c : Coll) (i : Nat), c.op = 1 ∧ 0 < c.p ∧ i < c.count) :=
  ⟨⟨coS (cdesc 1 6 1 0 77 14 0 0 0x10000000B000 0x10000000C000 0), 7, 3, 1, ⟨7, 4, 3, leBytes 8 0x10000000A000 ++ leBytes 4 5 ++ leBytes 4 (senderCc 7 62)⟩, ck (cdesc 1 6 1 0 77 14 0 0 0x10000000B000 0x10000000C000 0), Instr.allreduce 7 3, by simp, by and_intros <;> decide +kernel⟩,
    ⟨coS (cdesc 1 9 1 1 77 14 0 0 0x10000000B000 0x10000000C000 0), 7, 3, 1, ⟨7, 4, 3, leBytes 8 0x10000000A000 ++ leBytes 4 5 ++ leBytes 4 (senderCc 7 62)⟩, ck (cdesc 1 9 1 1 77 14 0 0 0x10000000B000 0x10000000C000 0), Instr.allreduce 7 3, 3, 2, by simp, by and_intros <;> decide +kernel⟩,
    ⟨runS [{ ck hmD with d := 3 }, ck hmD], 7, 0, ck hmD, by decide +kernel⟩,
    ⟨runS [{ ck hmD with d := 3 }, ck hmD], 7, 0, ck hmD, { ck hmD with d := 3 }, by and_intros <;> decide +kernel⟩,
    ⟨runS [{ ck hmD with d := 3 }, ck hmD], 47, 7, 0, cframe hmD 3 0 0 0 0 (carAddr 9 3 0x60) [], ck hmD, by simp only [State.delivers, State.frameOn]; decide +kernel, by and_intros <;> decide +kernel⟩,
    ⟨runS [{ ck hmD with d := 3 }, ck hmD], 47, 7, 2, 3, cframe hmD 2 0 0 16 0 (carAddr 8 0 0x60) (beatOf ((List.range 16).map (0x3F800000 + ·))), ck hmD, by simp only [State.delivers, State.frameOn]; decide +kernel, by and_intros <;> decide +kernel⟩,
    ⟨0, 1, by and_intros <;> decide +kernel⟩,
    ⟨{ ck (cdesc 1 6 1 1 77 14 0 0 0x10000000B000 0x10000000C000 0) with p := 4 }, 0, by and_intros <;> decide +kernel⟩⟩

theorem witness_ManagementIsServedInOrder :
    (∃ (s : State) (p : Nat) (a : Nat) (v : Word), p < 8 ∧ s.fld p 0 0 HP_CFG.REGS = 2 ∧ bit v.toNat 0 = true ∧ s.power.mode = .ready ∧ s.mgmt.queue = [] ∧ a = s.fld 0 0 0 BTS_MGMT_ADDR_LO.ADDR + s.fld 0 0 0 BTS_MGMT_ADDR_HI.ADDR * 2 ^ 32 ∧ s.hostReads p a 64 = true ∧ 1 ≤ field (s.seen a 64) 0 1 ∧ field (s.seen a 64) 0 1 ≤ 8) ∧
    (∃ (s : State) (p : Nat) (a : Nat) (v : Word), p < 8 ∧ s.fld p 0 0 HP_CFG.REGS = 2 ∧ bit v.toNat 0 = true ∧ s.power.mode = .ready ∧ s.mgmt.queue = [] ∧ a = s.fld 0 0 0 BTS_MGMT_ADDR_LO.ADDR + s.fld 0 0 0 BTS_MGMT_ADDR_HI.ADDR * 2 ^ 32 ∧ s.hostReads p a 64 = false) ∧
    (∃ (s : State) (p : Nat) (v : Word) (q : MgmtReq) (qs : List MgmtReq), p < 8 ∧ s.fld p 0 0 HP_CFG.REGS = 2 ∧ bit v.toNat 0 = true ∧ s.power.mode = .ready ∧ s.mgmt.queue = q :: qs ∧ q.port.isSome = true ∧ 1 ≤ q.op ∧ q.op ≤ 8) ∧
    (∃ (s : State) (b : List Byte), s.power.mode ≠ .off ∧ s.mgmt.queue = [] ∧ 1 ≤ field (padTo 64 0 b) 0 1 ∧ field (padTo 64 0 b) 0 1 ≤ 8) ∧
    (∃ (s : State) (b : List Byte), s.power.mode ≠ .off ∧ s.mgmt.queue = [] ∧ (field (padTo 64 0 b) 0 1 = 0 ∨ 8 < field (padTo 64 0 b) 0 1)) ∧
    (∃ (s : State) (q : MgmtReq) (qs : List MgmtReq), s.mgmt.queue = q :: qs ∧ q.port = none) ∧
    (∃ (s : State) (q : MgmtReq) (qs : List MgmtReq), s.mgmt.queue = q :: qs ∧ q.port ≠ none) ∧
    (∃ (b : List Byte), b.length = 64) ∧
    (∃ (s : State) (op : Nat) (c : Instr) (q : MgmtReq), (c, op) ∈ [(Instr.mgmtStop, 1), (.mgmtStart, 2), (.set true, 3), (.selftest, 4), (.tsense, 5), (.fwCommit true, 6), (.svnCommit true, 7), (.reset true, 8)] ∧ s.mgmt.queue.head? = some q ∧ q.op = op ∧ s.power.mode = .ready ∧ s.unitPresent q.kind q.unit = some false) ∧
    (∃ (s : State) (op : Nat) (c : Instr) (q : MgmtReq), (c, op) ∈ [(Instr.mgmtStop, 1), (.mgmtStart, 2), (.set true, 3), (.selftest, 4), (.tsense, 5), (.fwCommit true, 6), (.svnCommit true, 7), (.reset true, 8)] ∧ s.mgmt.queue.head? = some q ∧ q.op = op ∧ s.power.mode = .ready ∧ s.unitPresent q.kind q.unit = none) ∧
    (∃ (s : State) (op : Nat) (c : Instr) (q : MgmtReq), (c, op) ∈ [(Instr.mgmtStop, 1), (.mgmtStart, 2), (.set true, 3), (.selftest, 4), (.fwCommit true, 6), (.svnCommit true, 7)] ∧ s.mgmt.queue.head? = some q ∧ q.op = op ∧ s.power.mode = .safe) :=
  ⟨⟨put (((peS.setFld 0 0 0 HP_CFG.REGS 2).setFld 0 0 0 BTS_MGMT_ADDR_LO.ADDR 0x30000040).setFld 0 0 0 BTS_MGMT_ADDR_HI.ADDR 0) 0x30000040 [1], 0, 0x30000040, 1#32, by and_intros <;> decide +kernel⟩,
    ⟨(((peS.setFld 7 0 0 HP_CFG.REGS 2).setFld 0 0 0 BTS_MGMT_ADDR_LO.ADDR 0xA000).setFld 0 0 0 BTS_MGMT_ADDR_HI.ADDR 0x3F00), 7, 0x3F000000A000, 1#32, by and_intros <;> decide +kernel⟩,
    ⟨(mgS [mreq (some 3) 1 4 2 0 0 0 0 none]).setFld 7 0 0 HP_CFG.REGS 2, 7, 1#32, mreq (some 3) 1 4 2 0 0 0 0 none, [], by and_intros <;> decide +kernel⟩,
    ⟨peS, [8, 6], by and_intros <;> decide +kernel⟩,
    ⟨peS, [0], by and_intros <;> decide +kernel⟩,
    ⟨mgS [mreq none 1 4 2 0 0 0 0 none, mreq none 2 4 2 0 0 0 0 none], mreq none 1 4 2 0 0 0 0 none, [mreq none 2 4 2 0 0 0 0 none], by and_intros <;> decide +kernel⟩,
    ⟨mgS [mreq (some 3) 1 4 2 0 0 0 0 none, mreq none 2 4 2 0 0 0 0 none], mreq (some 3) 1 4 2 0 0 0 0 none, [mreq none 2 4 2 0 0 0 0 none], by and_intros <;> decide +kernel⟩,
    ⟨(List.range 64).map (BitVec.ofNat 8), by decide +kernel⟩,
    ⟨mgS [mreq none 1 4 32 0 0 0 0 (some [1])], 1, Instr.mgmtStop, ((mgS [mreq none 1 4 32 0 0 0 0 (some [1])]).mgmt.queue.head?).get (by decide +kernel), by simp, some_get, by and_intros <;> decide +kernel⟩,
    ⟨mgS [mreq none 1 9 0 0 0 0 0 (some [1])], 1, Instr.mgmtStop, ((mgS [mreq none 1 9 0 0 0 0 0 (some [1])]).mgmt.queue.head?).get (by decide +kernel), by simp, some_get, by and_intros <;> decide +kernel⟩,
    ⟨({ mgS [mreq none 1 4 2 0 0 0 0 (some [1])] with power := { peS.power with mode := .safe } } : State), 1, Instr.mgmtStop, ((({ mgS [mreq none 1 4 2 0 0 0 0 (some [1])] with power := { peS.power with mode := .safe } } : State)).mgmt.queue.head?).get (by decide +kernel), by simp, some_get, by and_intros <;> decide +kernel⟩⟩

theorem witness_UnitsAreStoppedStartedAndTested :
    (∃ (s : State) (q : MgmtReq) (qs : List MgmtReq), s.mgmt.queue = q :: qs ∧ q.op = 1 ∧ s.power.mode = .ready ∧ s.unitPresent q.kind q.unit = some true ∧ q.kind ≠ 6 ∧ s.unitInUse q.kind q.unit = true) ∧
    (∃ (s : State) (q : MgmtReq) (qs : List MgmtReq), s.mgmt.queue = q :: qs ∧ q.op = 1 ∧ s.power.mode = .ready ∧ s.unitPresent q.kind q.unit = some true ∧ q.kind ≠ 6 ∧ (q.kind = 4 ∨ q.kind = 5) ∧ s.unitInUse q.kind q.unit = false ∧ s.unitStopped q.kind q.unit = false) ∧
    (∃ (s : State) (q : MgmtReq) (qs : List MgmtReq), s.mgmt.queue = q :: qs ∧ q.op = 1 ∧ s.power.mode = .ready ∧ s.unitPresent q.kind q.unit = some true ∧ q.kind ≠ 6 ∧ q.kind = 1) ∧
    (∃ (s : State) (q : MgmtReq) (qs : List MgmtReq), s.mgmt.queue = q :: qs ∧ q.op = 1 ∧ s.power.mode = .ready ∧ s.unitPresent q.kind q.unit = some true ∧ q.kind ≠ 6 ∧ q.kind = 2) ∧
    (∃ (s : State) (q : MgmtReq) (qs : List MgmtReq), s.mgmt.queue = q :: qs ∧ q.op = 1 ∧ s.power.mode = .ready ∧ s.unitPresent q.kind q.unit = some true ∧ q.kind ≠ 6 ∧ q.kind = 3 ∧ (s.stack q.unit).state ≠ 2) ∧
    (∃ (s : State) (q : MgmtReq) (qs : List MgmtReq), s.mgmt.queue = q :: qs ∧ q.op = 2 ∧ s.power.mode = .ready ∧ s.unitPresent q.kind q.unit = some true ∧ (q.kind = 4 ∨ q.kind = 5)) ∧
    (∃ (s : State) (q : MgmtReq) (qs : List MgmtReq), s.mgmt.queue = q :: qs ∧ q.op = 2 ∧ s.power.mode = .ready ∧ s.unitPresent q.kind q.unit = some true ∧ q.kind = 1) ∧
    (∃ (s : State) (q : MgmtReq) (qs : List MgmtReq), s.mgmt.queue = q :: qs ∧ q.op = 2 ∧ s.power.mode = .ready ∧ s.unitPresent q.kind q.unit = some true ∧ q.kind = 3) ∧
    (∃ (s : State) (q : MgmtReq) (qs : List MgmtReq), s.mgmt.queue = q :: qs ∧ q.op = 4 ∧ s.power.mode = .ready ∧ s.unitPresent q.kind q.unit = some true ∧ (∀ x ∈ s.mgmt.tests, x.byMgmt = false) ∧ q.kind = 5) ∧
    (∃ (s : State) (q : MgmtReq) (qs : List MgmtReq), s.mgmt.queue = q :: qs ∧ q.op = 4 ∧ s.power.mode = .ready ∧ s.unitPresent q.kind q.unit = some true ∧ (∀ x ∈ s.mgmt.tests, x.byMgmt = false) ∧ q.kind = 3 ∧ bit q.reg 0 = true ∧ (s.stack q.unit).stopped = false) ∧
    (∃ (s : State) (q : MgmtReq) (qs : List MgmtReq), s.mgmt.queue = q :: qs ∧ q.op = 4 ∧ s.power.mode = .ready ∧ s.unitPresent q.kind q.unit = some true ∧ (∀ x ∈ s.mgmt.tests, x.byMgmt = false) ∧ q.kind = 3 ∧ bit q.reg 0 = true ∧ (s.stack q.unit).stopped = true) ∧
    (∃ (s : State) (q : MgmtReq) (qs : List MgmtReq), s.mgmt.queue = q :: qs ∧ q.op = 4 ∧ s.power.mode = .ready ∧ s.unitPresent q.kind q.unit = some true ∧ (∀ x ∈ s.mgmt.tests, x.byMgmt = false) ∧ q.kind = 2) ∧
    (∃ (s : State) (q : MgmtReq) (qs : List MgmtReq), s.mgmt.queue = q :: qs ∧ q.op = 4 ∧ s.power.mode = .ready ∧ s.unitPresent q.kind q.unit = some true ∧ (∀ x ∈ s.mgmt.tests, x.byMgmt = false) ∧ q.kind = 6) ∧
    (∃ (s : State) (d : Nat) (c : Nat) (x : SelfTest), (s.mgmt.tests.find? fun y => y.unit = ⟨5, d * 64 + c⟩ && y.byMgmt && !y.started) = some x ∧ s.coreIdle d c = false) ∧
    (∃ (s : State) (k : Nat) (x : SelfTest) (q : MgmtReq) (qs : List MgmtReq), s.mem.wf = true ∧ (s.mgmt.tests.find? fun y => y.unit = ⟨3, k⟩ && y.memory) = some x ∧ s.mgmt.queue = q :: qs ∧ q.port = none) ∧
    (∃ (s : State) (q : MgmtReq), s.mgmt.queue.head? = some q ∧ q.op = 5 ∧ s.unitPresent q.kind q.unit = some true ∧ s.power.rails = true) :=
  ⟨⟨({ mgS [mreq none 1 5 511 0 0 0 0 none] with ldr := { peS.ldr with tasks := [{ tk .running with image := coreImg }] } } : State), mreq none 1 5 511 0 0 0 0 none, [], by and_intros <;> decide +kernel⟩,
    ⟨mgS [mreq none 1 4 31 0 0 0 0 none], mreq none 1 4 31 0 0 0 0 none, [], by and_intros <;> decide +kernel⟩,
    ⟨mgS [mreq none 1 1 7 0 0 0 0 none], mreq none 1 1 7 0 0 0 0 none, [], by and_intros <;> decide +kernel⟩,
    ⟨mgS [mreq none 1 2 47 0 0 0 0 none], mreq none 1 2 47 0 0 0 0 none, [], by and_intros <;> decide +kernel⟩,
    ⟨mgS [mreq none 1 3 31 0 0 0 0 none], mreq none 1 3 31 0 0 0 0 none, [], by and_intros <;> decide +kernel⟩,
    ⟨(let m := mgS [mreq none 2 4 31 0 0 0 0 none]; ({ m with mgmt := { m.mgmt with stopped := [⟨4, 31⟩, ⟨5, 511⟩] } } : State)), mreq none 2 4 31 0 0 0 0 none, [], by and_intros <;> decide +kernel⟩,
    ⟨(let m := mgS [mreq none 2 1 7 0 0 0 0 none]; ({ m with mgmt := { m.mgmt with stopped := [⟨1, 7⟩] } } : State)), mreq none 2 1 7 0 0 0 0 none, [], by and_intros <;> decide +kernel⟩,
    ⟨(let m := mgS [mreq none 2 3 31 0 0 0 0 none]; ({ m with mgmt := { m.mgmt with stopped := [⟨3, 31⟩] } } : State)), mreq none 2 3 31 0 0 0 0 none, [], by and_intros <;> decide +kernel⟩,
    ⟨mgS [mreq none 4 5 511 0 0 0 0 none], mreq none 4 5 511 0 0 0 0 none, [], by and_intros <;> decide +kernel⟩,
    ⟨mgS [mreq none 4 3 31 1 0 0 0 none], mreq none 4 3 31 1 0 0 0 none, [], by and_intros <;> decide +kernel⟩,
    ⟨(let m := mgS [mreq none 4 3 31 1 0 0 0 none]; ({ m with mgmt := { m.mgmt with stopped := [⟨3, 31⟩] }, stackMap := mput m.stackMap 31 { m.stack 31 with stopped := true } } : State)), mreq none 4 3 31 1 0 0 0 none, [], by and_intros <;> decide +kernel⟩,
    ⟨mgS [mreq none 4 2 47 0 0 0 0 none], mreq none 4 2 47 0 0 0 0 none, [], by and_intros <;> decide +kernel⟩,
    ⟨mgS [mreq none 4 6 0 0 0 0 0 none], mreq none 4 6 0 0 0 0 0 none, [], by and_intros <;> decide +kernel⟩,
    ⟨(let m := mgS [mreq none 4 5 511 0 0 0 0 none]; ({ m with mgmt := { m.mgmt with tests := [⟨⟨5, 511⟩, false, true, false⟩] }, cores := [(511, aS 1 1)] } : State)), 7, 63, ⟨⟨5, 511⟩, false, true, false⟩, by and_intros <;> decide +kernel⟩,
    ⟨(let m := mgS [mreq none 4 3 31 1 0 0 0 none]; ({ m with mgmt := { m.mgmt with tests := [⟨⟨3, 31⟩, true, true, true⟩] } } : State)), 31, ⟨⟨3, 31⟩, true, true, true⟩, mreq none 4 3 31 1 0 0 0 none, [], by and_intros <;> decide +kernel⟩,
    ⟨mgS [mreq none 5 1 7 0 0 0 0 none], ((mgS [mreq none 5 1 7 0 0 0 0 none]).mgmt.queue.head?).get (by decide +kernel), some_get, by and_intros <;> decide +kernel⟩⟩

theorem witness_SignedRequestsTakeEffect :
    (∃ (s : State) (op : Nat) (sigOk : Bool) (c : Instr) (q : MgmtReq), (c, op) ∈ [(Instr.set sigOk, 3), (.fwCommit sigOk, 6), (.svnCommit sigOk, 7), (.reset sigOk, 8)] ∧ s.mgmt.queue.head? = some q ∧ q.op = op ∧ s.power.mode = .ready ∧ s.unitPresent q.kind q.unit = some true ∧ (q.sig = none ∨ sigOk = false ∨ (s.entries 0x0009).length ≤ q.key)) ∧
    (∃ (s : State) (op : Nat) (sigOk : Bool) (c : Instr) (q : MgmtReq), (c, op) ∈ [(Instr.set sigOk, 3), (.fwCommit sigOk, 6), (.svnCommit sigOk, 7), (.reset sigOk, 8)] ∧ s.mgmt.queue.head? = some q ∧ q.op = op ∧ s.power.mode = .ready ∧ s.unitPresent q.kind q.unit = some true ∧ q.sig ≠ none ∧ sigOk = true ∧ q.key ≤ 3 ∧ q.key < (s.entries 0x0009).length ∧ q.nonce ≤ s.flash.nonce) ∧
    (∃ (s : State) (v : State) (q : MgmtReq) (r : _) (u : Nat) (i : Nat), s.mgmt.queue.head? = some q ∧ s.power.mode = .ready ∧ s.unitPresent q.kind q.unit = some true ∧ q.sig ≠ none ∧ q.key ≤ 3 ∧ q.key < (s.entries 0x0009).length ∧ s.flash.nonce < q.nonce ∧ v = { s with flash := { s.flash with nonce := q.nonce } } ∧ q.op = 3 ∧ regAt (bits q.reg 27 0) = some (r, u, i) ∧ protectedReg r = true) ∧
    (∃ (s : State) (v : State) (q : MgmtReq) (r : _) (u : Nat) (i : Nat), s.mgmt.queue.head? = some q ∧ s.power.mode = .ready ∧ s.unitPresent q.kind q.unit = some true ∧ q.sig ≠ none ∧ q.key ≤ 3 ∧ q.key < (s.entries 0x0009).length ∧ s.flash.nonce < q.nonce ∧ v = { s with flash := { s.flash with nonce := q.nonce } } ∧ q.op = 3 ∧ regAt (bits q.reg 27 0) = some (r, u, i) ∧ protectedReg r = false ∧ s.unitStopped q.kind q.unit = false) ∧
    (∃ (s : State) (v : State) (q : MgmtReq) (r : _) (u : Nat) (i : Nat), s.mgmt.queue.head? = some q ∧ s.power.mode = .ready ∧ s.unitPresent q.kind q.unit = some true ∧ q.sig ≠ none ∧ q.key ≤ 3 ∧ q.key < (s.entries 0x0009).length ∧ s.flash.nonce < q.nonce ∧ v = { s with flash := { s.flash with nonce := q.nonce } } ∧ q.op = 3 ∧ regAt (bits q.reg 27 0) = some (r, u, i) ∧ protectedReg r = false ∧ s.unitStopped q.kind q.unit = true ∧ hasRwl r.row.fields = true ∧ unitOwns q.kind q.unit (bits q.reg 30 28) r u = true ∧ legalWrite r q.value = true) ∧
    (∃ (s : State) (v : State) (q : MgmtReq), s.mgmt.queue.head? = some q ∧ s.power.mode = .ready ∧ s.unitPresent q.kind q.unit = some true ∧ q.sig ≠ none ∧ q.key ≤ 3 ∧ q.key < (s.entries 0x0009).length ∧ s.flash.nonce < q.nonce ∧ v = { s with flash := { s.flash with nonce := q.nonce } } ∧ q.op = 6 ∧ s.boot.staged = none) ∧
    (∃ (s : State) (v : State) (q : MgmtReq) (img : _), s.mgmt.queue.head? = some q ∧ s.power.mode = .ready ∧ s.unitPresent q.kind q.unit = some true ∧ q.sig ≠ none ∧ q.key ≤ 3 ∧ q.key < (s.entries 0x0009).length ∧ s.flash.nonce < q.nonce ∧ v = { s with flash := { s.flash with nonce := q.nonce } } ∧ q.op = 6 ∧ s.boot.staged = some img ∧ q.value = fwSvn img) ∧
    (∃ (s : State) (v : State) (q : MgmtReq), s.mgmt.queue.head? = some q ∧ s.power.mode = .ready ∧ s.unitPresent q.kind q.unit = some true ∧ q.sig ≠ none ∧ q.key ≤ 3 ∧ q.key < (s.entries 0x0009).length ∧ s.flash.nonce < q.nonce ∧ v = { s with flash := { s.flash with nonce := q.nonce } } ∧ q.op = 7 ∧ q.value = fwSvn s.boot.imageHeader ∧ s.fuses.svnFloor < q.value ∧ q.value ≤ 64) ∧
    (∃ (s : State) (v : State) (q : MgmtReq), s.mgmt.queue.head? = some q ∧ s.power.mode = .ready ∧ s.unitPresent q.kind q.unit = some true ∧ q.sig ≠ none ∧ q.key ≤ 3 ∧ q.key < (s.entries 0x0009).length ∧ s.flash.nonce < q.nonce ∧ v = { s with flash := { s.flash with nonce := q.nonce } } ∧ q.op = 7 ∧ q.value ≠ fwSvn s.boot.imageHeader) ∧
    (∃ (s : State) (v : State) (q : MgmtReq), s.mgmt.queue.head? = some q ∧ s.power.mode = .ready ∧ s.unitPresent q.kind q.unit = some true ∧ q.sig ≠ none ∧ q.key ≤ 3 ∧ q.key < (s.entries 0x0009).length ∧ s.flash.nonce < q.nonce ∧ v = { s with flash := { s.flash with nonce := q.nonce } } ∧ q.op = 8) :=
  ⟨⟨mgS [mreq none 3 4 31 0 0 9 0 none], 3, true, Instr.set true, ((mgS [mreq none 3 4 31 0 0 9 0 none]).mgmt.queue.head?).get (by decide +kernel), by simp, some_get, by and_intros <;> decide +kernel⟩,
    ⟨mgS [mreq none 3 4 31 0 0 0 0 (some [1])], 3, true, Instr.set true, ((mgS [mreq none 3 4 31 0 0 0 0 (some [1])]).mgmt.queue.head?).get (by decide +kernel), by simp, some_get, by and_intros <;> decide +kernel⟩,
    ⟨mgS [mreq none 3 4 31 (7 * 2^28 + Reg.SEQW_RANGE.row.base) 0 9 0 (some [1])], { (mgS [mreq none 3 4 31 (7 * 2^28 + Reg.SEQW_RANGE.row.base) 0 9 0 (some [1])]) with flash := { (mgS [mreq none 3 4 31 (7 * 2^28 + Reg.SEQW_RANGE.row.base) 0 9 0 (some [1])]).flash with nonce := (((mgS [mreq none 3 4 31 (7 * 2^28 + Reg.SEQW_RANGE.row.base) 0 9 0 (some [1])]).mgmt.queue.head?).get (by decide +kernel)).nonce } }, ((mgS [mreq none 3 4 31 (7 * 2^28 + Reg.SEQW_RANGE.row.base) 0 9 0 (some [1])]).mgmt.queue.head?).get (by decide +kernel), Reg.SEQW_RANGE, 0, 0, some_get, by decide +kernel, by decide +kernel, by decide +kernel, (by decide +kernel), by decide +kernel, by decide +kernel, rfl, by and_intros <;> decide +kernel⟩,
    ⟨mgS [mreq none 3 4 31 (7 * 2^28 + Reg.ME_MIRAGE_CFG.row.base) 0 9 0 (some [1])], { (mgS [mreq none 3 4 31 (7 * 2^28 + Reg.ME_MIRAGE_CFG.row.base) 0 9 0 (some [1])]) with flash := { (mgS [mreq none 3 4 31 (7 * 2^28 + Reg.ME_MIRAGE_CFG.row.base) 0 9 0 (some [1])]).flash with nonce := (((mgS [mreq none 3 4 31 (7 * 2^28 + Reg.ME_MIRAGE_CFG.row.base) 0 9 0 (some [1])]).mgmt.queue.head?).get (by decide +kernel)).nonce } }, ((mgS [mreq none 3 4 31 (7 * 2^28 + Reg.ME_MIRAGE_CFG.row.base) 0 9 0 (some [1])]).mgmt.queue.head?).get (by decide +kernel), Reg.ME_MIRAGE_CFG, 0, 0, some_get, by decide +kernel, by decide +kernel, by decide +kernel, (by decide +kernel), by decide +kernel, by decide +kernel, rfl, by and_intros <;> decide +kernel⟩,
    ⟨(let m := mgS [mreq none 3 5 448 (7 * 2^28 + Reg.ME_MIRAGE_CFG.row.base) 0x608 9 0 (some [1])]; ({ m with mgmt := { m.mgmt with stopped := [⟨5, 448⟩] } } : State)), { ((let m := mgS [mreq none 3 5 448 (7 * 2^28 + Reg.ME_MIRAGE_CFG.row.base) 0x608 9 0 (some [1])]; ({ m with mgmt := { m.mgmt with stopped := [⟨5, 448⟩] } } : State))) with flash := { ((let m := mgS [mreq none 3 5 448 (7 * 2^28 + Reg.ME_MIRAGE_CFG.row.base) 0x608 9 0 (some [1])]; ({ m with mgmt := { m.mgmt with stopped := [⟨5, 448⟩] } } : State))).flash with nonce := ((((let m := mgS [mreq none 3 5 448 (7 * 2^28 + Reg.ME_MIRAGE_CFG.row.base) 0x608 9 0 (some [1])]; ({ m with mgmt := { m.mgmt with stopped := [⟨5, 448⟩] } } : State))).mgmt.queue.head?).get (by decide +kernel)).nonce } }, (((let m := mgS [mreq none 3 5 448 (7 * 2^28 + Reg.ME_MIRAGE_CFG.row.base) 0x608 9 0 (some [1])]; ({ m with mgmt := { m.mgmt with stopped := [⟨5, 448⟩] } } : State))).mgmt.queue.head?).get (by decide +kernel), Reg.ME_MIRAGE_CFG, 0, 0, some_get, by decide +kernel, by decide +kernel, by decide +kernel, (by decide +kernel), by decide +kernel, by decide +kernel, rfl, by and_intros <;> decide +kernel⟩,
    ⟨mgS [mreq none 6 4 31 0 0 9 0 (some [1])], { (mgS [mreq none 6 4 31 0 0 9 0 (some [1])]) with flash := { (mgS [mreq none 6 4 31 0 0 9 0 (some [1])]).flash with nonce := (((mgS [mreq none 6 4 31 0 0 9 0 (some [1])]).mgmt.queue.head?).get (by decide +kernel)).nonce } }, ((mgS [mreq none 6 4 31 0 0 9 0 (some [1])]).mgmt.queue.head?).get (by decide +kernel), some_get, by decide +kernel, by decide +kernel, by decide +kernel, (by decide +kernel), by decide +kernel, by decide +kernel, rfl, by and_intros <;> decide +kernel⟩,
    ⟨(let m := mgS [mreq none 6 4 31 0 0 9 0 (some [1])]; ({ m with boot := { m.boot with staged := some [] } } : State)), { ((let m := mgS [mreq none 6 4 31 0 0 9 0 (some [1])]; ({ m with boot := { m.boot with staged := some [] } } : State))) with flash := { ((let m := mgS [mreq none 6 4 31 0 0 9 0 (some [1])]; ({ m with boot := { m.boot with staged := some [] } } : State))).flash with nonce := ((((let m := mgS [mreq none 6 4 31 0 0 9 0 (some [1])]; ({ m with boot := { m.boot with staged := some [] } } : State))).mgmt.queue.head?).get (by decide +kernel)).nonce } }, (((let m := mgS [mreq none 6 4 31 0 0 9 0 (some [1])]; ({ m with boot := { m.boot with staged := some [] } } : State))).mgmt.queue.head?).get (by decide +kernel), ([] : List Byte), some_get, by decide +kernel, by decide +kernel, by decide +kernel, (by decide +kernel), by decide +kernel, by decide +kernel, rfl, by and_intros <;> decide +kernel⟩,
    ⟨(let m := mgS [mreq none 7 4 31 0 1 9 0 (some [1])]; ({ m with boot := { m.boot with imageHeader := List.replicate 8 0 ++ [1] } } : State)), { ((let m := mgS [mreq none 7 4 31 0 1 9 0 (some [1])]; ({ m with boot := { m.boot with imageHeader := List.replicate 8 0 ++ [1] } } : State))) with flash := { ((let m := mgS [mreq none 7 4 31 0 1 9 0 (some [1])]; ({ m with boot := { m.boot with imageHeader := List.replicate 8 0 ++ [1] } } : State))).flash with nonce := ((((let m := mgS [mreq none 7 4 31 0 1 9 0 (some [1])]; ({ m with boot := { m.boot with imageHeader := List.replicate 8 0 ++ [1] } } : State))).mgmt.queue.head?).get (by decide +kernel)).nonce } }, (((let m := mgS [mreq none 7 4 31 0 1 9 0 (some [1])]; ({ m with boot := { m.boot with imageHeader := List.replicate 8 0 ++ [1] } } : State))).mgmt.queue.head?).get (by decide +kernel), some_get, by decide +kernel, by decide +kernel, by decide +kernel, (by decide +kernel), by decide +kernel, by decide +kernel, rfl, by and_intros <;> decide +kernel⟩,
    ⟨(let m := mgS [mreq none 7 4 31 0 8 9 0 (some [1])]; ({ m with boot := { m.boot with imageHeader := List.replicate 8 0 ++ [9] } } : State)), { ((let m := mgS [mreq none 7 4 31 0 8 9 0 (some [1])]; ({ m with boot := { m.boot with imageHeader := List.replicate 8 0 ++ [9] } } : State))) with flash := { ((let m := mgS [mreq none 7 4 31 0 8 9 0 (some [1])]; ({ m with boot := { m.boot with imageHeader := List.replicate 8 0 ++ [9] } } : State))).flash with nonce := ((((let m := mgS [mreq none 7 4 31 0 8 9 0 (some [1])]; ({ m with boot := { m.boot with imageHeader := List.replicate 8 0 ++ [9] } } : State))).mgmt.queue.head?).get (by decide +kernel)).nonce } }, (((let m := mgS [mreq none 7 4 31 0 8 9 0 (some [1])]; ({ m with boot := { m.boot with imageHeader := List.replicate 8 0 ++ [9] } } : State))).mgmt.queue.head?).get (by decide +kernel), some_get, by decide +kernel, by decide +kernel, by decide +kernel, (by decide +kernel), by decide +kernel, by decide +kernel, rfl, by and_intros <;> decide +kernel⟩,
    ⟨mgS [mreq none 8 4 31 0 0 9 0 (some [1])], { (mgS [mreq none 8 4 31 0 0 9 0 (some [1])]) with flash := { (mgS [mreq none 8 4 31 0 0 9 0 (some [1])]).flash with nonce := (((mgS [mreq none 8 4 31 0 0 9 0 (some [1])]).mgmt.queue.head?).get (by decide +kernel)).nonce } }, ((mgS [mreq none 8 4 31 0 0 9 0 (some [1])]).mgmt.queue.head?).get (by decide +kernel), some_get, by decide +kernel, by decide +kernel, by decide +kernel, (by decide +kernel), by decide +kernel, by decide +kernel, rfl, by decide +kernel⟩⟩

theorem witness_RegisterWritesFollowTheirAccess :
    (∃ (s : State) (w : State) (ag : Agent) (d : Nat) (off : Nat) (u : Nat) (i : Nat) (r : Reg) (v : Word), s.power.mode = .ready ∧ d < 8 ∧ off < 2 ^ 28 ∧ regAt off = some (r, u, i) ∧ ((agentInternal ag = true ∨ ∃ p rid, ag = .host p rid ∧ s.fld p 0 0 HP_CFG.REGS = 2 ∧ ∀ h ∈ s.mem.held, ∀ n, h.ag ≠ .host p n)) ∧ ((r.row.d0 = true → d = 0)) ∧ s.absentBlock d r u = false ∧ s.absentDe1 d r u i = false ∧ r ∉ [Reg.PTM_TSENSE_REQ, .FCU_PIN_HOLD, .PTM_STATE_CTL, .BTS_MGMT_CTL, .BTS_MGMT_ADDR_LO] ∧ w = s.setReg d r u i (BitVec.ofNat 32 (mergeWrite r.row.fields (!s.boot.locked) (s.reg d r u i).toNat v.toNat)) ∧ legalWrite r v.toNat = true ∧ (bit v.toNat 31 = false ∨ recordRegs r = [])) ∧
    (∃ (s : State) (w : State) (ag : Agent) (d : Nat) (off : Nat) (u : Nat) (i : Nat) (r : Reg) (v : Word), s.power.mode = .ready ∧ d < 8 ∧ off < 2 ^ 28 ∧ regAt off = some (r, u, i) ∧ ((agentInternal ag = true ∨ ∃ p rid, ag = .host p rid ∧ s.fld p 0 0 HP_CFG.REGS = 2 ∧ ∀ h ∈ s.mem.held, ∀ n, h.ag ≠ .host p n)) ∧ ((r.row.d0 = true → d = 0)) ∧ s.absentBlock d r u = false ∧ s.absentDe1 d r u i = false ∧ r ∉ [Reg.PTM_TSENSE_REQ, .FCU_PIN_HOLD, .PTM_STATE_CTL, .BTS_MGMT_CTL, .BTS_MGMT_ADDR_LO] ∧ w = s.setReg d r u i (BitVec.ofNat 32 (mergeWrite r.row.fields (!s.boot.locked) (s.reg d r u i).toNat v.toNat)) ∧ legalWrite r v.toNat = true ∧ bit v.toNat 31 = true) ∧
    (∃ (s : State) (w : State) (ag : Agent) (d : Nat) (off : Nat) (u : Nat) (i : Nat) (r : Reg) (v : Word), s.power.mode = .ready ∧ d < 8 ∧ off < 2 ^ 28 ∧ regAt off = some (r, u, i) ∧ ((agentInternal ag = true ∨ ∃ p rid, ag = .host p rid ∧ s.fld p 0 0 HP_CFG.REGS = 2 ∧ ∀ h ∈ s.mem.held, ∀ n, h.ag ≠ .host p n)) ∧ ((r.row.d0 = true → d = 0)) ∧ s.absentBlock d r u = false ∧ s.absentDe1 d r u i = false ∧ r ∉ [Reg.PTM_TSENSE_REQ, .FCU_PIN_HOLD, .PTM_STATE_CTL, .BTS_MGMT_CTL, .BTS_MGMT_ADDR_LO] ∧ w = s.setReg d r u i (BitVec.ofNat 32 (mergeWrite r.row.fields (!s.boot.locked) (s.reg d r u i).toNat v.toNat)) ∧ legalWrite r v.toNat = false) ∧
    (∃ (s : State) (p : Nat) (o : Nat), s.power.mode = .ready ∧ o < 0x80000000 ∧ s.fld p 0 0 HP_CFG.REGS = 1 ∧ (∀ h ∈ s.mem.held, ∀ n, h.ag ≠ .host p n)) ∧
    (∃ (s : State) (ag : Agent) (d : Nat) (off : Nat), s.power.mode = .ready ∧ agentInternal ag = true ∧ d < 8 ∧ off < 2 ^ 28 ∧ off % 4 = 0 ∧ regAt off = none) ∧
    (∃ (r : Reg) (f : RegField) (k : Nat), f ∈ r.row.fields ∧ f.lo ≤ k ∧ k ≤ f.hi) ∧
    (∃ (k : Nat) (r : Reg), ((∀ f ∈ r.row.fields, f.acc ≠ .wo → k < f.lo ∨ f.hi < k))) :=
  ⟨⟨peS, peS.setReg 7 Reg.CF_ERR 0 0 (BitVec.ofNat 32 (mergeWrite Reg.CF_ERR.row.fields (!peS.boot.locked) (peS.reg 7 Reg.CF_ERR 0 0).toNat (0xFFFF#32).toNat)), .cc 7 63, 7, Reg.CF_ERR.row.base, 0, 0, Reg.CF_ERR, 0xFFFF#32, by decide +kernel, by decide +kernel, by decide +kernel, (by decide +kernel), Or.inl (by decide +kernel), by decide +kernel, by decide +kernel, by decide +kernel, (by decide +kernel), rfl, by and_intros <;> decide +kernel⟩,
    ⟨((peS.setReg 7 .NOC_MAPERR_INFO 0 0 0xFFFFFFFF#32).setReg 7 .NOC_MAPERR_ADDR_LO 0 0 5#32), (((peS.setReg 7 .NOC_MAPERR_INFO 0 0 0xFFFFFFFF#32).setReg 7 .NOC_MAPERR_ADDR_LO 0 0 5#32)).setReg 7 Reg.NOC_MAPERR_INFO 0 0 (BitVec.ofNat 32 (mergeWrite Reg.NOC_MAPERR_INFO.row.fields (!(((peS.setReg 7 .NOC_MAPERR_INFO 0 0 0xFFFFFFFF#32).setReg 7 .NOC_MAPERR_ADDR_LO 0 0 5#32)).boot.locked) ((((peS.setReg 7 .NOC_MAPERR_INFO 0 0 0xFFFFFFFF#32).setReg 7 .NOC_MAPERR_ADDR_LO 0 0 5#32)).reg 7 Reg.NOC_MAPERR_INFO 0 0).toNat (0x80000000#32).toNat)), .cc 7 63, 7, Reg.NOC_MAPERR_INFO.row.base, 0, 0, Reg.NOC_MAPERR_INFO, 0x80000000#32, by decide +kernel, by decide +kernel, by decide +kernel, (by decide +kernel), Or.inl (by decide +kernel), by decide +kernel, by decide +kernel, by decide +kernel, (by decide +kernel), rfl, by and_intros <;> decide +kernel⟩,
    ⟨peS, peS.setReg 7 Reg.ME_MIRAGE_CFG 0 0 (BitVec.ofNat 32 (mergeWrite Reg.ME_MIRAGE_CFG.row.fields (!peS.boot.locked) (peS.reg 7 Reg.ME_MIRAGE_CFG 0 0).toNat (1#32).toNat)), .cc 7 63, 7, Reg.ME_MIRAGE_CFG.row.base, 0, 0, Reg.ME_MIRAGE_CFG, 1#32, by decide +kernel, by decide +kernel, by decide +kernel, (by decide +kernel), Or.inl (by decide +kernel), by decide +kernel, by decide +kernel, by decide +kernel, (by decide +kernel), rfl, by decide +kernel⟩,
    ⟨peS.setFld 7 0 0 HP_CFG.REGS 1, 7, 0x7FFFFFFC, by decide +kernel, by decide +kernel, by decide +kernel, (by intro h hm; cases hm)⟩,
    ⟨peS, .cc 7 63, 7, 0xFFFFFFC, by and_intros <;> decide +kernel⟩,
    ⟨Reg.CF_ERR, (Reg.CF_ERR.row.fields).head?.getD ⟨0, 0, .ro, 0⟩, ((Reg.CF_ERR.row.fields).head?.getD ⟨0, 0, .ro, 0⟩).lo, by and_intros <;> decide +kernel⟩,
    ⟨31, Reg.HP_CFG, by decide +kernel⟩⟩

theorem witness_CommandsChangeOnlyTheirParts : ∃ (c : Instr) (s t : State), exec c s = .next t :=
  ⟨.auxPowerUp, State.reset, nx (exec .auxPowerUp State.reset), nx_eq (by decide +kernel)⟩

end Sys2Proof.Tests
end

/-! Accesses to register space (R20): how an access reaches it, and what it answers to anything but one aligned word. -/

namespace Sys2Proof.Machine

section Access

variable {s : State} {x : HeldAccess}

/-! ### Answers -/

theorem State.answer_of_internal (hag : agentInternal x.ag = true) (r : Reply) :
    s.answer x r = { s with sent := s.sent ++ [.reply x.ag r] } := by
  obtain ⟨ag, tgt, op⟩ := x
  cases ag with
  | peer => cases hag
  | _ => rfl

theorem State.answer_of_host {port rid : Nat} (hag : x.ag = .host port rid) (r : Reply) :
    s.answer x r = { s with sent := s.sent ++ [.reply (.host port rid) r] } := by
  obtain ⟨ag, tgt, op⟩ := x
  subst hag
  rfl

/-! ### Register space -/

/-- Not one aligned 32-bit word (R20). -/
theorem State.accessReg_of_not_word (d : Nat) {off : Nat} (hw : off % 4 ≠ 0 ∨ opLen x.op ≠ 4) :
    s.accessReg x d off = s.answer x (if agentInternal x.ag then .busError else .unsupported) :=
  if_pos hw

/-- Through BAR0 where HP_CFG.REGS lets the host in, for reads alone or for both (R385). -/
theorem State.accessBarReg_of_not_word {port rid o : Nat} (hag : x.ag = .host port rid)
    (hregs : s.fld port 0 0 HP_CFG.REGS ≠ 0) (ho : o < 0x80000000) (hw : o % 4 ≠ 0 ∨ opLen x.op ≠ 4) :
    s.accessBarReg x port o = s.answer x .unsupported := by
  have hopen : ¬ (s.fld port 0 0 HP_CFG.REGS = 0 ∨ 0x80000000 ≤ o) := by omega
  have hword : o % 2 ^ 28 % 4 ≠ 0 ∨ opLen x.op ≠ 4 := by omega
  unfold State.accessBarReg
  rw [if_neg hopen]
  split
  · rfl
  · rw [State.accessReg_of_not_word _ hword, hag]
    rfl

theorem State.accessBar0_registers (port o : Nat) :
    s.accessBar0 x port (0x80000000 + o) = s.accessBarReg x port o := by
  unfold State.accessBar0
  rw [if_neg (by omega), if_neg (by omega), if_neg (by omega), if_neg (by omega), if_pos (by omega),
    Nat.add_sub_cancel_left]

/-! ### From an access to register space -/

theorem State.portWaits_of_internal (hag : agentInternal x.ag = true) : s.portWaits x = false := by
  obtain ⟨ag, tgt, op⟩ := x
  cases ag with
  | host => cases hag
  | _ => rfl

theorem State.portWaits_of_none_held {port rid : Nat} (hag : x.ag = .host port rid)
    (hheld : ∀ h ∈ s.mem.held, ∀ i, h.ag ≠ .host port i) : s.portWaits x = false := by
  unfold State.portWaits
  rw [hag]
  refine Bool.and_eq_false_imp.2 fun _ => List.any_eq_false.2 fun h hm => ?_
  cases hq : h.ag with
  | host q i =>
    have hport : q ≠ port := by
      rintro rfl
      exact hheld h hm i hq
    simp [hport]
  | _ => simp

theorem State.accessPhys_reg {a d off : Nat} (hag : agentInternal x.ag = true) (ha : s.resolve a = .reg d off) :
    s.accessPhys x a = s.accessReg x d off := by
  unfold State.accessPhys
  rw [ha]
  exact if_pos hag

theorem State.accessSafe_of_internal (hag : agentInternal x.ag = true) : s.accessSafe x = s.answer x .busError := by
  obtain ⟨ag, tgt, op⟩ := x
  cases ag with
  | host => cases hag
  | peer => cases hag
  | _ => rfl

theorem State.accessSafe_barReg (port rid o : Nat) (op : AccessOp) :
    s.accessSafe ⟨.host port rid, .bar 0 (0x80000000 + o), op⟩ =
      s.accessBarReg ⟨.host port rid, .bar 0 (0x80000000 + o), op⟩ port o := by
  refine (if_pos (Nat.le_add_right 0x80000000 o)).trans ?_
  rw [Nat.add_sub_cancel_left]

/-- The access of an internal agent by address: in Safe every one fails (R466). -/
theorem State.access_phys_of_internal {ag : Agent} (a : Nat) (op : AccessOp) (hoff : s.power.mode ≠ .off)
    (hstandby : s.power.mode ≠ .standby) (hag : agentInternal ag = true) :
    s.access ⟨ag, .phys a, op⟩ =
      if s.power.mode = .safe then s.answer ⟨ag, .phys a, op⟩ .busError else s.accessPhys ⟨ag, .phys a, op⟩ a := by
  have hsafe : s.accessSafe ⟨ag, .phys a, op⟩ = s.answer ⟨ag, .phys a, op⟩ .busError :=
    State.accessSafe_of_internal hag
  have hwait : s.portWaits ⟨ag, .phys a, op⟩ = false := State.portWaits_of_internal hag
  unfold State.access
  rw [if_neg (by simp [hoff, hstandby]), hsafe, hwait]
  cases ag with
  | host => cases hag
  | _ => rfl

/-- A host's access to register space through BAR0, served in Safe too (R385, R466). -/
theorem State.access_barReg_of_host {port : Nat} (rid o : Nat) (op : AccessOp) (hoff : s.power.mode ≠ .off)
    (hstandby : s.power.mode ≠ .standby) (hheld : ∀ h ∈ s.mem.held, ∀ i, h.ag ≠ .host port i) :
    s.access ⟨.host port rid, .bar 0 (0x80000000 + o), op⟩ =
      s.accessBarReg ⟨.host port rid, .bar 0 (0x80000000 + o), op⟩ port o := by
  have hwait : s.portWaits ⟨.host port rid, .bar 0 (0x80000000 + o), op⟩ = false :=
    State.portWaits_of_none_held rfl hheld
  unfold State.access
  rw [if_neg (by simp [hoff, hstandby]), State.accessSafe_barReg, hwait]
  split
  · rfl
  · exact State.accessBar0_registers port o

/-! ### Anything but one aligned word -/

theorem State.access_reg_not_word_of_internal {ag : Agent} {op : AccessOp} {a d off : Nat} (hoff : s.power.mode ≠ .off)
    (hstandby : s.power.mode ≠ .standby) (hag : agentInternal ag = true) (ha : s.resolve a = .reg d off)
    (hw : off % 4 ≠ 0 ∨ opLen op ≠ 4) :
    s.access ⟨ag, .phys a, op⟩ = { s with sent := s.sent ++ [.reply ag .busError] } := by
  have hphys : s.accessPhys ⟨ag, .phys a, op⟩ a = s.answer ⟨ag, .phys a, op⟩ .busError := by
    rw [State.accessPhys_reg hag ha, State.accessReg_of_not_word d hw, if_pos hag]
  rw [State.access_phys_of_internal a op hoff hstandby hag, hphys, ite_self, State.answer_of_internal hag]

theorem State.access_reg_not_word_of_host {port rid o : Nat} {op : AccessOp} (hoff : s.power.mode ≠ .off)
    (hstandby : s.power.mode ≠ .standby) (ho : o < 0x80000000) (hregs : s.fld port 0 0 HP_CFG.REGS ≠ 0)
    (hheld : ∀ h ∈ s.mem.held, ∀ i, h.ag ≠ .host port i) (hw : o % 4 ≠ 0 ∨ opLen op ≠ 4) :
    s.access ⟨.host port rid, .bar 0 (0x80000000 + o), op⟩ =
      { s with sent := s.sent ++ [.reply (.host port rid) .unsupported] } := by
  rw [State.access_barReg_of_host rid o op hoff hstandby hheld, State.accessBarReg_of_not_word rfl hregs ho hw,
    State.answer_of_host rfl]

end Access

/-! ### The commands -/

theorem exec_memoryRead_eq_access (ag : Agent) (t : Target) (n hold : Nat) (s : State) :
    exec (.memoryRead ag t n hold) s = .next (s.access ⟨ag, t, .read n hold⟩) := rfl

theorem exec_memoryWrite_eq_access (ag : Agent) (t : Target) (data : List Byte) (poison : Bool) (s : State) :
    exec (.memoryWrite ag t data poison) s = .next (s.access ⟨ag, t, .write data poison⟩) := rfl

/-- Settles O22: on every way to register space (an internal agent's by address, a host's through BAR0, in Safe or not)
the access that is not one aligned word meets an answer alone, whatever its operation. -/
theorem registerSpaceTakesAlignedWordsOnly : Obligations.RegisterSpaceTakesAlignedWordsOnly := by
  unfold Obligations.RegisterSpaceTakesAlignedWordsOnly
  refine ⟨?internalRead, ?internalWrite, ?hostRead, ?hostWrite⟩
  case internalRead =>
    intro s ag a d off n hold hoff hstandby hag ha hw
    rw [exec_memoryRead_eq_access, State.access_reg_not_word_of_internal (op := .read n hold) hoff hstandby hag ha hw]
  case internalWrite =>
    intro s ag a d off data poison hoff hstandby hag ha hw
    rw [exec_memoryWrite_eq_access, State.access_reg_not_word_of_internal (op := .write data poison) hoff hstandby hag ha hw]
  case hostRead =>
    intro s port rid o n hold hoff hstandby ho hregs hheld hw
    rw [exec_memoryRead_eq_access, State.access_reg_not_word_of_host (op := .read n hold) hoff hstandby ho hregs hheld hw]
  case hostWrite =>
    intro s port rid o data poison hoff hstandby ho hregs hheld hw
    rw [exec_memoryWrite_eq_access, State.access_reg_not_word_of_host (op := .write data poison) hoff hstandby ho hregs hheld hw]

end Sys2Proof.Machine

/-! The fused security version floor (R436): who may raise it and to what, and the boot ROM's use of it. -/

namespace Sys2Proof.Machine

open Sys2Proof

section VersionFloor

variable {s t : State}

/-! ### The floor counts blown bits -/

/-- The bits from the lowest up: bit 0 is the remainder by 2, and the others are the bits of half the number. -/
theorem popCount_eq_length_filter_testBit (k n : Nat) : popCount k n = ((List.range k).filter fun i => n.testBit i).length := by
  induction k generalizing n with
  | zero => rfl
  | succ k ih =>
    have hshift : (fun i => n.testBit i) ∘ Nat.succ = fun i => (n / 2).testBit i := by
      funext i
      exact Nat.testBit_succ n i
    have hlow : n % 2 = if n.testBit 0 then 1 else 0 := by
      rcases Nat.mod_two_eq_zero_or_one n with h | h <;> simp [h]
    rw [popCount, ih, List.range_succ_eq_map, List.filter_cons, List.filter_map, hshift, hlow]
    split
    · rw [List.length_cons, List.length_map, Nat.add_comm]
    · rw [List.length_map, Nat.zero_add]

theorem Fuses.svnFloor_of_svnBits_ones {f : Fuses} {n : Nat} (h : f.svnBits = 2 ^ n - 1) : f.svnFloor = min 64 n := by
  rw [Fuses.svnFloor, h, popCount_ones]

/-! ### Every command but SVN_COMMIT leaves the field as it is -/

/-- Every part of the state, where only what no operation undoes matters. -/
@[reducible] def anyPart (_ : Part) : Bool := true

/-- Command by command, by the law of each one's operation; `hopen` is the laws' side condition that a part may be touched. -/
theorem exec_good_of_ne_svnCommit {i : Instr} (h : ∀ sigOk, i ≠ .svnCommit sigOk) : Good anyPart s (exec i s) := by
  have hopen : true = true := rfl
  unfold exec
  cases i with
  | auxPowerUp => exact execAuxPowerUp_good
  | auxPowerLoss => exact execAuxPowerLoss_good
  | nresetLow => exact execNresetLow_good
  | nresetRise => exact execNresetRise_good
  | bootFirmwareVerify => exact execBootFirmwareVerify_good
  | railsUp => exact execRailsUp_good
  | warmupStalled => exact execWarmupStalled_good
  | configLoad => exact execConfigLoad_good
  | laserStart => exact execLaserStart_good
  | laserLock => exact execLaserLock_good
  | stackInit => exact execStackInit_good
  | enterReady => exact execEnterReady_good
  | inputSample => exact execInputSample_good
  | powerCapRaise => exact execPowerCapRaise_good
  | diePowerSample => exact execDiePowerSample_good
  | dieCapRaise => exact execDieCapRaise_good
  | phaseFail => exact execPhaseFail_good
  | throttleLoopDemand => exact execThrottleLoopDemand_good
  | sensorConversionDone => exact execSensorConversionDone_good
  | ptmTsenseReqWrite => exact execPtmTsenseReqWrite_good
  | enterDormant => exact execEnterDormant_good
  | pldmSetStateEffecter => exact execPldmSetStateEffecter_good
  | dormantEntryComplete => exact execDormantEntryComplete_good
  | wake => exact execWake_good
  | wakeComplete => exact execWakeComplete_good
  | faultRecord => exact execFaultRecord_good
  | safeStateEntry => exact execSafeStateEntry_good
  | fcuLockstep => exact execFcuLockstep_good
  | fcuSelf => exact execFcuSelf_good
  | timebaseCheck => exact execTimebaseCheck_good
  | automaticReset => exact execAutomaticReset_good
  | faultLogFlush => exact execFaultLogFlush_good
  | heartbeatToggle => exact execHeartbeatToggle_good
  | faultPulseEnd => exact execFaultPulseEnd_good
  | fcuPinHoldWrite => exact execFcuPinHoldWrite_good
  | coreLogicTestDone => exact execCoreLogicTestDone_good
  | bauSelftestDone => exact execBauSelftestDone_good
  | nocParity => exact execNocParity_good
  | linkRetrainDone => exact execLinkRetrainDone_good
  | ddlLinkDown => exact execDdlLinkDown_good
  | memoryRead => exact execMemoryRead_good
  | memoryWrite => exact execMemoryWrite_good
  | directoryRecall => exact execDirectoryRecall_good
  | hostCacheResponse => exact execHostCacheResponse_good
  | openDone => exact execOpenDone_good
  | columnDone => exact execColumnDone_good
  | closeDone => exact execCloseDone_good
  | refreshDone => exact execRefreshDone_good
  | resultReady => exact execResultReady_good
  | evError => exact execEvError_good
  | selfRefreshEntered => exact execSelfRefreshEntered_good
  | selfRefreshExitDone => exact execSelfRefreshExitDone_good
  | channelHandshakeTimeout => exact execChannelHandshakeTimeout_good
  | tsvRepair => exact execTsvRepair_good
  | requestAgeLimit => exact execRequestAgeLimit_good
  | idleTimerExpiry => exact execIdleTimerExpiry_good
  | refreshDue => exact execRefreshDue_good
  | stackTsenseDemand => exact execStackTsenseDemand_good
  | tsenseOverdue => exact execTsenseOverdue_good
  | srEntryDelayExpiry => exact execSrEntryDelayExpiry_good
  | scrubPosition => exact execScrubPosition_good
  | bankRetire => exact execBankRetire_good
  | bankCopyComplete => exact execBankCopyComplete_good
  | dieRetire => exact execDieRetire_good
  | rebuildPosition => exact execRebuildPosition_good
  | parityDieFail => exact execParityDieFail_good
  | bankSequence => exact execBankSequence_good
  | actTokenGrant => exact execActTokenGrant_good
  | seqwDescriptorWrite => exact execSeqwDescriptorWrite_good
  | sequenceComplete => exact execSequenceComplete_good
  | block => exact execBlock_good
  | endblock => exact execEndblock_good
  | streamEnd => exact execStreamEnd_good
  | replayBoundary => exact execReplayBoundary_good
  | patchApply => exact execPatchApply_good
  | load => exact execLoad_good
  | store => exact execStore_good
  | xfer => exact execXfer_good
  | wait => exact execWait_good
  | signal => exact execSignal_good
  | barrier => exact execBarrier_good
  | mma => exact execMma_good
  | vadd => exact execVadd_good
  | vsub => exact execVsub_good
  | vmul => exact execVmul_good
  | vfma => exact execVfma_good
  | vmax => exact execVmax_good
  | vmin => exact execVmin_good
  | vaddi => exact execVaddi_good
  | vmuli => exact execVmuli_good
  | vexp => exact execVexp_good
  | vrecip => exact execVrecip_good
  | vrsqrt => exact execVrsqrt_good
  | vact => exact execVact_good
  | vcmp => exact execVcmp_good
  | vsel => exact execVsel_good
  | vcopy => exact execVcopy_good
  | vred => exact execVred_good
  | vsoftmax => exact execVsoftmax_good
  | vcvt => exact execVcvt_good
  | vperm => exact execVperm_good
  | vgather => exact execVgather_good
  | ocall => exact execOcall_good
  | ocallReturn => exact execOcallReturn_good
  | queueBeatAccept => exact execQueueBeatAccept_good
  | tokenCredit => exact execTokenCredit_good
  | streamFault _ _ _ _ _ cls => exact execStreamFault_good (_cls := cls)
  | mirageCheck => exact execMirageCheck_good
  | kpop => exact execKpop_good
  | kpush => exact execKpush_good
  | kpwr => exact execKpwr_good
  | kprd => exact execKprd_good
  | ksumpop => exact execKsumpop_good
  | kwait => exact execKwait_good
  | ksignal => exact execKsignal_good
  | kbarrier => exact execKbarrier_good
  | barrierLeave => exact execBarrierLeave_good
  | dmaBarrierArrive => exact execDmaBarrierArrive_good
  | syncStall => exact execSyncStall_good
  | run => exact execRun_good
  | branch => exact execBranch_good
  | jump => exact execJump_good
  | loop => exact execLoop_good
  | call => exact execCall_good
  | setp => exact execSetp_good
  | done => exact execDone_good
  | nop => exact execNop_good
  | sample => exact execSample_good
  | argmax => exact execArgmax_good
  | rmsnormFb => exact execRmsnormFb_good
  | layernormFb => exact execLayernormFb_good
  | seed => exact execSeed_good
  | postNotice => exact execPostNotice_good
  | postNoticeRetry => exact execPostNoticeRetry_good
  | ccAbortInterrupt => exact execCcAbortInterrupt_good
  | ccNoticeDispatch => exact execCcNoticeDispatch_good
  | ccDmaErrorInterrupt => exact execCcDmaErrorInterrupt_good
  | dmaCopy => exact execDmaCopy_good
  | permute => exact execPermute_good
  | gather => exact execGather_good
  | dmaFill => exact execDmaFill_good
  | bseq => exact execBseq_good
  | transferComplete => exact execTransferComplete_good
  | noticePost => exact execNoticePost_good
  | noticeRepost => exact execNoticeRepost_good
  | hostCasPost => exact execHostCasPost_good
  | noticeTake => exact execNoticeTake_good
  | mailboxHostRead => exact execMailboxHostRead_good
  | mailboxHostFree => exact execMailboxHostFree_good
  | dietimeLoRead => exact execDietimeLoRead_good
  | kvOpen => exact execKvOpen_good
  | reserve => exact execReserve_good
  | commit => exact execCommit_good
  | share => exact execShare_good
  | kvFree => exact execKvFree_good
  | kvPrefetch => exact execKvPrefetch_good
  | kvAllocPage => exact execKvAllocPage_good
  | kvFrameDesc => exact execKvFrameDesc_good
  | kvReleaseDesc => exact execKvReleaseDesc_good
  | kvPostStep => exact execKvPostStep_good
  | framePin => exact execFramePin_good
  | frameUnpin => exact execFrameUnpin_good
  | copyOnWrite => exact execCopyOnWrite_good
  | labInvalidate => exact execLabInvalidate_good
  | spillStart => exact execSpillStart_good
  | spillComplete => exact execSpillComplete_good
  | prefetchStart => exact execPrefetchStart_good
  | prefetchComplete => exact execPrefetchComplete_good
  | farTierUnreachable => exact execFarTierUnreachable_good
  | farTierProbe => exact execFarTierProbe_good
  | stepDecode => exact execStepDecode_good
  | stepAttend => exact execStepAttend_good
  | stepAppend => exact execStepAppend_good
  | partialMerge => exact execPartialMerge_good
  | stepComplete => exact execStepComplete_good
  | coreMode => exact execCoreMode_good
  | ldrLoad => exact execLdrLoad_good
  | ldrStart => exact execLdrStart_good
  | ldrAbort => exact execLdrAbort_good
  | ldrRelease => exact execLdrRelease_good
  | runEnd => exact execRunEnd_good
  | taskAbort => exact execTaskAbort_good
  | streamBufferFetch => exact execStreamBufferFetch_good
  | lightDetect => exact execLightDetect_good
  | ts1 => exact execTs1_good
  | ts2 => exact execTs2_good
  | rateChange => exact execRateChange_good
  | laneTrainTimeout => exact execLaneTrainTimeout_good
  | portTrainRestart => exact execPortTrainRestart_good
  | am => exact execAm_good
  | idle => exact execIdle_good
  | flitReceive => exact execFlitReceive_good
  | replayTimeout => exact execReplayTimeout_good
  | laneFail => exact execLaneFail_good
  | swapReq => exact execSwapReq_good
  | swapAck => exact execSwapAck_good
  | laserFail => exact execLaserFail_good
  | hold => exact execHold_good
  | holdExpiry => exact execHoldExpiry_good
  | calibrationStep => exact execCalibrationStep_good
  | calMove => exact execCalMove_good
  | calibrationComplete => exact execCalibrationComplete_good
  | wakeBlock => exact execWakeBlock_good
  | eidle => exact execEidle_good
  | fillBlock => exact execFillBlock_good
  | hostLinkUp => exact execHostLinkUp_good
  | hdmDecoderCommit => exact execHdmDecoderCommit_good
  | biasFlipDevice => exact execBiasFlipDevice_good
  | biasFlipHost => exact execBiasFlipHost_good
  | biasPageFlipped => exact execBiasPageFlipped_good
  | hotReset => exact execHotReset_good
  | flr => exact execFlr_good
  | cxlReset => exact execCxlReset_good
  | hostFlushTimeout => exact execHostFlushTimeout_good
  | begin => exact execBegin_good
  | data => exact execData_good
  | transferEnd => exact execTransferEnd_good
  | transferStatus => exact execTransferStatus_good
  | getVersion => exact execGetVersion_good
  | getCapabilities => exact execGetCapabilities_good
  | negotiateAlgorithms => exact execNegotiateAlgorithms_good
  | getDigests => exact execGetDigests_good
  | getCertificate => exact execGetCertificate_good
  | challenge => exact execChallenge_good
  | getMeasurements => exact execGetMeasurements_good
  | read => exact execRead_good
  | write => exact execWrite_good
  | notice => exact execNotice_good
  | readRsp => exact execReadRsp_good
  | writeRsp => exact execWriteRsp_good
  | noticeRsp => exact execNoticeRsp_good
  | credit => exact execCredit_good
  | down => exact execDown_good
  | up => exact execUp_good
  | framePromote => exact execFramePromote_good
  | requestTimeout => exact execRequestTimeout_good
  | allreduce => exact execAllreduce_good
  | reducescatter => exact execReducescatter_good
  | allgather => exact execAllgather_good
  | headmerge => exact execHeadmerge_good
  | coll => exact execColl_good
  | collTimeout => exact execCollTimeout_good
  | mgmtGo => exact execMgmtGo_good
  | mctpManagement => exact execMctpManagement_good
  | mgmtStop => exact execMgmtStop_good
  | mgmtStart => exact execMgmtStart_good
  | set => exact execSet_good
  | selftest => exact execSelftest_good
  | memorySelftestDone => exact execMemorySelftestDone_good
  | tsense => exact execTsense_good
  | fwCommit => exact execFwCommit_good
  | svnCommit sigOk => exact absurd rfl (h sigOk)
  | reset => exact execReset_good
  | recoveryImage => exact execRecoveryImage_good
  | setdasa => exact execSetdasa_good
  | entdaa => exact execEntdaa_good
  | registerWrite => exact execRegisterWrite_good
  | busMasterEnableWrite => exact execBusMasterEnableWrite_good
  | blockAlignmentFound => exact execBlockAlignmentFound_good
  | selftestIdleWaitExpiry => exact execSelftestIdleWaitExpiry_good
  | laserRelock => exact execLaserRelock_good

theorem exec_svnBits_of_ne_svnCommit {i : Instr} (h : ∀ sigOk, i ≠ .svnCommit sigOk) (hexec : exec i s = .next t) :
    t.fuses.svnBits = s.fuses.svnBits := by
  obtain ⟨u, hu, hkeeps⟩ := exec_good_of_ne_svnCommit (s := s) h
  obtain rfl : t = u := Host.Outcome.next.inj (hexec.symm.trans hu)
  exact hkeeps.fuses.svn

theorem State.tick_svnBits : s.tick.fuses.svnBits = s.fuses.svnBits := by
  have hopen : true = true := rfl
  exact (State.tick_keeps (F := anyPart) .rfl).fuses.svn

/-- A step that changes the field ran an SVN_COMMIT. -/
theorem step_svnBits_ne (hstep : step s = .next t) (hne : t.fuses.svnBits ≠ s.fuses.svnBits) :
    ∃ sigOk cs, s.pending = .svnCommit sigOk :: cs ∧ exec (.svnCommit sigOk) { s with pending := cs } = .next t := by
  unfold step at hstep
  split at hstep
  next c cs hpending =>
    by_cases hc : ∃ sigOk, c = .svnCommit sigOk
    · obtain ⟨sigOk, rfl⟩ := hc
      exact ⟨sigOk, cs, hpending, hstep⟩
    · exact absurd (exec_svnBits_of_ne_svnCommit (not_exists.mp hc) hstep) hne
  next =>
    obtain rfl := Host.Outcome.next.inj hstep
    exact absurd State.tick_svnBits hne

/-! ### A management request changes fuses only where it is served and its signature verifies -/

theorem State.mgmtComplete_fuses (status reason result : Nat) : (s.mgmtComplete status reason result).fuses = s.fuses :=
  (State.mgmtComplete_keeps (F := (· != .fuses)) .rfl rfl rfl rfl rfl).frame .fuses rfl

theorem State.mgmtServe_of_fuses_ne {op : Nat} {f : MgmtReq → State → State} (hne : (s.mgmtServe op f).fuses ≠ s.fuses) :
    ∃ q, s.mgmtHead = some q ∧ q.op = op ∧ s.mgmtServe op f = f q s := by
  unfold State.mgmtServe at hne ⊢
  split at hne
  · exact absurd rfl hne
  next q hhead =>
    split_ifs at hne with hop hsafe
    · exact absurd rfl hne
    · exact absurd (State.mgmtComplete_fuses ..) hne
    split at hne
    · exact absurd (State.mgmtComplete_fuses ..) hne
    · exact absurd (State.mgmtComplete_fuses ..) hne
    · exact ⟨q, hhead, not_not.mp hop, by rw [if_neg hop, if_neg hsafe]⟩

theorem State.mgmtSigned_of_fuses_ne {q : MgmtReq} {sigOk : Bool} {f : State → State}
    (hne : (s.mgmtSigned q sigOk f).fuses ≠ s.fuses) :
    sigOk = true ∧ q.sig ≠ none ∧ s.mgmtSigned q sigOk f = f { s with flash := { s.flash with nonce := q.nonce } } := by
  unfold State.mgmtSigned at hne ⊢
  split_ifs at hne ⊢ with hunsigned hnonce
  · exact absurd (State.mgmtComplete_fuses ..) hne
  · exact absurd (State.mgmtComplete_fuses ..) hne
  · simp only [not_or, Bool.not_eq_true', Bool.not_eq_false, Option.isNone_iff_eq_none] at hunsigned
    obtain ⟨hsig, hok, -⟩ := hunsigned
    exact ⟨by simpa using hok, by simpa using hsig, rfl⟩

/-! ### SVN_COMMIT -/

/-- An SVN_COMMIT that changes fuses served an owner-signed request and blew as many bits as the running image's SVN says. -/
theorem exec_svnCommit_of_fuses_ne {sigOk : Bool} (hexec : exec (.svnCommit sigOk) s = .next t) (hne : t.fuses ≠ s.fuses) :
    sigOk = true ∧ (∃ q, s.mgmt.queue.head? = some q ∧ q.op = 7 ∧ q.sig ≠ none) ∧
      s.fuses.svnFloor < fwSvn s.boot.imageHeader ∧ t.fuses.svnBits = 2 ^ fwSvn s.boot.imageHeader - 1 := by
  obtain rfl := Host.Outcome.next.inj hexec
  obtain ⟨q, hhead, hop, hserve⟩ := State.mgmtServe_of_fuses_ne hne
  rw [hserve] at hne ⊢
  obtain ⟨hok, hsig, hsigned⟩ := State.mgmtSigned_of_fuses_ne hne
  rw [hsigned] at hne ⊢
  refine ⟨hok, ⟨q, hhead, hop, hsig⟩, ?_⟩
  dsimp only at hne ⊢
  split_ifs at hne ⊢ with hvalue hfloor
  · exact ⟨hfloor, congrArg Fuses.svnBits (State.mgmtComplete_fuses ..)⟩
  · exact absurd (State.mgmtComplete_fuses ..) hne
  · exact absurd (State.mgmtComplete_fuses ..) hne

/-! ### The boot ROM and the floor -/

theorem State.fwRuns_eq_false_of_below {img : List Byte} (sigOk : Bool) (h : fwSvn img < s.fuses.svnFloor) : s.fwRuns img sigOk = false := by
  simp [State.fwRuns, h]

/-- What bringing up the recovery stacks may touch. -/
def stackParts (p : Part) : Bool := p = .mem || p = .stackMap

theorem State.initStacks_keeps (stks : List Nat) (x : StackTest) :
    Keeps stackParts s (stks.foldl (fun s k => s.initStack k x) s) :=
  Keeps.foldl (fun _ _ h => State.initStack_keeps h rfl rfl) .rfl

theorem State.enterRecovery_mode (trusted : Bool) : (s.enterRecovery trusted).power.mode = .maintenance := by
  unfold State.enterRecovery
  rw [(State.initStacks_keeps ..).frame .power rfl]
  cases trusted <;> rfl

theorem State.enterRecovery_boot (trusted : Bool) :
    (s.enterRecovery trusted).boot = { s.boot with recovery := true, lasersOn := true, lasersLocked := true } := by
  unfold State.enterRecovery
  rw [(State.initStacks_keeps ..).frame .boot rfl]
  cases trusted <;> rfl

/-- An image below the floor is not run, its signature good or not: the module enters recovery (R436, R453). -/
theorem exec_bootFirmwareVerify_of_below (sigOk : Bool) (hmode : s.power.mode = .booting) (hfw : s.boot.fwOk = false)
    (hbelow : fwSvn s.flash.fw < s.fuses.svnFloor) :
    ∃ trusted, exec (.bootFirmwareVerify sigOk) s = .next (s.enterRecovery trusted) := by
  change ∃ trusted, execBootFirmwareVerify sigOk s = .next (s.enterRecovery trusted)
  rw [execBootFirmwareVerify, State.whenP_pos ⟨hmode, hfw⟩, if_neg (by simp [State.fwRuns_eq_false_of_below sigOk hbelow])]
  exact ⟨_, rfl⟩

end VersionFloor

/-- Settles O7: every command but SVN_COMMIT leaves the field, and SVN_COMMIT blows the bits of the running image's SVN
only where it serves a request whose owner signature verifies. -/
theorem versionFloorRisesOnlyBySvnCommit : Obligations.VersionFloorRisesOnlyBySvnCommit := by
  unfold Obligations.VersionFloorRisesOnlyBySvnCommit
  refine ⟨?floorCounts, ?risesOnlyBySvnCommit, ?belowFloorNotRun⟩
  case floorCounts => exact fun f => popCount_eq_length_filter_testBit 64 f.svnBits
  case risesOnlyBySvnCommit =>
    intro s t hstep hne
    obtain ⟨sigOk, cs, hpending, hexec⟩ := step_svnBits_ne hstep hne
    obtain ⟨rfl, ⟨q, hhead, hop, hsig⟩, hfloor, hbits⟩ :=
      exec_svnCommit_of_fuses_ne hexec fun h => hne (congrArg Fuses.svnBits h)
    exact ⟨⟨cs, q, hpending, hhead, hop, hsig⟩, hfloor, Fuses.svnFloor_of_svnBits_ones hbits⟩
  case belowFloorNotRun =>
    intro s sigOk hmode hfw hbelow
    obtain ⟨trusted, hexec⟩ := exec_bootFirmwareVerify_of_below sigOk hmode hfw hbelow
    have hboot := s.enterRecovery_boot trusted
    exact ⟨s.enterRecovery trusted, hexec, by rw [hboot, hfw], by rw [hboot], s.enterRecovery_mode trusted⟩

end Sys2Proof.Machine

/-! The FAULT pin and FCU_PIN_HOLD.HOLD (R471): the level that HOLD gives the pin, and the commands that drive it. -/

namespace Sys2Proof.Machine

open Sys2Proof

section PinHold

variable {s t : State}

/-! ### The level and the pin driven -/

theorem State.fld_of_regs_eq (h : t.regs = s.regs) (d u i : Nat) (f : RF) : t.fld d u i f = s.fld d u i f := by
  rw [State.fld, State.reg, h, State.fld, State.reg]

theorem State.pinLevel_of_hold (hhold : s.fld 0 0 0 FCU_PIN_HOLD.HOLD = 1) :
    s.pinLevel = if s.power.mode = .off then .hiZ else .low := by
  rw [State.pinLevel, if_pos hhold]

@[simp] theorem State.onPower_fld (g : Power → Power) (d u i : Nat) (f : RF) : (s.onPower g).fld d u i f = s.fld d u i f := rfl

@[simp] theorem State.drivePin_fld (d u i : Nat) (f : RF) : s.drivePin.fld d u i f = s.fld d u i f := rfl

theorem State.drivePin_of_hold (hoff : s.power.mode ≠ .off) (hhold : s.fld 0 0 0 FCU_PIN_HOLD.HOLD = 1) :
    s.drivePin = { s with power := { s.power with pin := .low } } := by
  rw [State.drivePin, State.pinLevel_of_hold hhold, if_neg hoff]
  rfl

/-! ### A write of FCU_PIN_HOLD -/

theorem State.fld_hold_setFld (v : Nat) : (s.setFld 0 0 0 FCU_PIN_HOLD.HOLD v).fld 0 0 0 FCU_PIN_HOLD.HOLD = v % 2 :=
  State.fld_setFld_self (Nat.le_refl 0) (by decide)

theorem State.writeHold_fld (v : Nat) : (s.writeHold v).fld 0 0 0 FCU_PIN_HOLD.HOLD = v % 2 := by
  rw [State.writeHold, State.drivePin_fld, State.fld_hold_setFld, Nat.mod_mod]

theorem State.writeHold_pin (v : Nat) : (s.writeHold v).power.pin = (s.setFld 0 0 0 FCU_PIN_HOLD.HOLD (v % 2)).pinLevel := rfl

theorem State.writeHold_pin_of_odd {v : Nat} (hoff : s.power.mode ≠ .off) (hv : v % 2 = 1) : (s.writeHold v).power.pin = .low := by
  rw [State.writeHold_pin, hv, State.pinLevel_of_hold (State.fld_hold_setFld 1), State.setFld_power, if_neg hoff]

theorem State.writeHold_frame (v : Nat) :
    s.writeHold v = { s with regs := (s.writeHold v).regs, power := { s.power with pin := (s.writeHold v).power.pin } } := rfl

theorem exec_fcuPinHoldWrite_of_not_off (v : Word) (hoff : s.power.mode ≠ .off) :
    exec (.fcuPinHoldWrite v) s = .next (s.writeHold v.toNat) :=
  congrArg Host.Outcome.next (State.whenP_pos hoff)

theorem exec_fcuPinHoldWrite_of_off (v : Word) (hoff : s.power.mode = .off) : exec (.fcuPinHoldWrite v) s = .next s :=
  congrArg Host.Outcome.next (State.whenP_neg (not_not.mpr hoff))

/-! ### The square wave and the end of a pulse -/

theorem exec_heartbeatToggle_of_hold (hhold : s.fld 0 0 0 FCU_PIN_HOLD.HOLD = 1) : exec .heartbeatToggle s = .next s :=
  congrArg Host.Outcome.next (State.whenP_neg fun ⟨_, _, _, _, hfree⟩ => absurd (hhold.symm.trans hfree) (by decide))

theorem exec_faultPulseEnd_of_hold (hsafe : s.power.mode = .safe) (hpulse : s.power.pulse = true)
    (hhold : s.fld 0 0 0 FCU_PIN_HOLD.HOLD = 1) :
    exec .faultPulseEnd s = .next { s with power := { s.power with pulse := false, pin := .low } } := by
  have hoff : (s.onPower fun p => { p with pulse := false }).power.mode ≠ .off := by simp [hsafe]
  refine congrArg Host.Outcome.next ((State.whenP_pos ⟨hsafe, hpulse⟩).trans ?_)
  exact State.drivePin_of_hold hoff hhold

/-! ### Entry to Safe, in its stages -/

/-- FCU_STATUS on every die: Safe, and the class M fault that came first. -/
def State.markSafe (s : State) (id : Nat) : State :=
  (List.range 8).foldl (fun s d => (s.setFld d 0 0 FCU_STATUS.SAFE 1).setFld d 0 0 FCU_STATUS.FIRST_M id) s

/-- DOWN sent, work abandoned, the decision dated, writes blocked, rows closed and stacks put to sleep. -/
def State.quiesce (s : State) : State :=
  let s := s.sendDowns.abandonWork
  let s := s.onFcu fun f => { f with safetyRing := [], safeSince := some (s.time 0) }
  let s := { s with banks := [] }
  let s := s.onMem fun m => { m with held := [], snoops := [], obtained := [], owned := [] }
  s.sleepStacks

/-- The error reported to each host port. -/
def State.reportSafe (s : State) : State := (List.range 8).foldl (fun s p => s.send (.aer p)) s

theorem exec_safeStateEntry_of_ring {d id : Nat} {ring : List (Nat × Nat)} (hoff : s.power.mode ≠ .off)
    (hsafe : s.power.mode ≠ .safe) (hring : s.fcu.safetyRing = (d, id) :: ring) :
    exec .safeStateEntry s =
      .next ((s.markSafe id).quiesce.onPower fun p => { p with mode := .safe, pulse := true }).reportSafe.drivePin := by
  change execSafeStateEntry s = _
  rw [execSafeStateEntry, hring]
  exact congrArg Host.Outcome.next (if_neg (not_or.mpr ⟨hsafe, hoff⟩))

/-- FCU_STATUS of a die is another register than FCU_PIN_HOLD of D0. -/
theorem regKey_fcuPinHold_ne_fcuStatus (d : Nat) : regKey 0 .FCU_PIN_HOLD 0 0 ≠ regKey d .FCU_STATUS 0 0 := by
  have hhold : regKey 0 .FCU_PIN_HOLD 0 0 = 0x100044 := by decide
  have hstatus : regOff .FCU_STATUS 0 0 = 0x100000 := by decide
  rw [hhold, regKey, hstatus]
  omega

theorem State.markSafe_hold (id : Nat) : (s.markSafe id).fld 0 0 0 FCU_PIN_HOLD.HOLD = s.fld 0 0 0 FCU_PIN_HOLD.HOLD := by
  unfold State.markSafe
  refine List.foldlRecOn (motive := fun u : State => u.fld 0 0 0 FCU_PIN_HOLD.HOLD = s.fld 0 0 0 FCU_PIN_HOLD.HOLD) _ _ rfl
    fun u hu d _ => ?_
  rw [State.fld_setFld_ne (regKey_fcuPinHold_ne_fcuStatus d), State.fld_setFld_ne (regKey_fcuPinHold_ne_fcuStatus d), hu]

theorem State.quiesce_keeps : Keeps (· != .regs) s s.quiesce := by
  have hwork : Keeps (· != .regs) s s.sendDowns.abandonWork :=
    State.abandonWork_keeps (State.sendDowns_keeps .rfl rfl rfl) rfl rfl rfl rfl rfl rfl
  unfold State.quiesce
  generalize s.sendDowns.abandonWork = w at hwork ⊢
  exact State.sleepStacks_keeps
    (State.onMem_keeps (Keeps.banks_set (State.onFcu_keeps hwork rfl) rfl) (Memory.wf_same rfl rfl) rfl) rfl

theorem State.reportSafe_keeps : Keeps (· == .sent) s s.reportSafe :=
  Keeps.foldl (fun _ _ h => State.send_keeps h rfl) .rfl

theorem State.quiesce_fld (d u i : Nat) (f : RF) : s.quiesce.fld d u i f = s.fld d u i f :=
  State.fld_of_regs_eq (State.quiesce_keeps.frame .regs rfl) d u i f

theorem State.reportSafe_power : s.reportSafe.power = s.power := State.reportSafe_keeps.frame .power rfl

theorem State.reportSafe_fld (d u i : Nat) (f : RF) : s.reportSafe.fld d u i f = s.fld d u i f :=
  State.fld_of_regs_eq (State.reportSafe_keeps.frame .regs rfl) d u i f

theorem exec_safeStateEntry_of_hold (hoff : s.power.mode ≠ .off) (hsafe : s.power.mode ≠ .safe) (hring : s.fcu.safetyRing ≠ [])
    (hhold : s.fld 0 0 0 FCU_PIN_HOLD.HOLD = 1) :
    ∃ t, exec .safeStateEntry s = .next t ∧ t.power.mode = .safe ∧ t.power.pin = .low ∧ t.fld 0 0 0 FCU_PIN_HOLD.HOLD = 1 := by
  obtain ⟨⟨d, id⟩, ring, hcons⟩ := List.exists_cons_of_ne_nil hring
  have hexec := exec_safeStateEntry_of_ring hoff hsafe hcons
  generalize hu : ((s.markSafe id).quiesce.onPower fun p => { p with mode := .safe, pulse := true }).reportSafe = u at hexec
  have hmode : u.power.mode = .safe := by rw [← hu, State.reportSafe_power, State.onPower_power]
  have hkept : u.fld 0 0 0 FCU_PIN_HOLD.HOLD = 1 :=
    calc u.fld 0 0 0 FCU_PIN_HOLD.HOLD
        = (s.markSafe id).quiesce.fld 0 0 0 FCU_PIN_HOLD.HOLD := by rw [← hu, State.reportSafe_fld, State.onPower_fld]
      _ = s.fld 0 0 0 FCU_PIN_HOLD.HOLD := by rw [State.quiesce_fld, State.markSafe_hold]
      _ = 1 := hhold
  rw [State.drivePin_of_hold (by simp [hmode]) hkept] at hexec
  exact ⟨_, hexec, hmode, rfl, hkept⟩

/-! ### Module reset -/

theorem State.moduleReset_hold (cause : Nat) (mode : Mode) : (s.moduleReset cause mode).fld 0 0 0 FCU_PIN_HOLD.HOLD = 0 := by
  have hregs : (s.moduleReset cause mode).regs = State.reset.regs := rfl
  rw [State.fld_of_regs_eq hregs]
  decide

end PinHold

/-- Settles O19: outside Off, HOLD decides the pin's level before anything else does, and each command that drives the pin
drives it to that level. -/
theorem pinHoldKeepsFaultLow : Obligations.PinHoldKeepsFaultLow := by
  unfold Obligations.PinHoldKeepsFaultLow
  refine ⟨fun _ => State.pinLevel_of_hold, fun _ _ => exec_heartbeatToggle_of_hold, fun _ => exec_safeStateEntry_of_hold,
    fun _ => exec_faultPulseEnd_of_hold, ?write, fun _ => exec_fcuPinHoldWrite_of_off, fun _ => State.moduleReset_hold⟩
  case write =>
    intro s v hoff
    refine ⟨s.writeHold v.toNat, exec_fcuPinHoldWrite_of_not_off v hoff, State.writeHold_fld _, State.writeHold_pin_of_odd hoff, ?_,
      State.writeHold_frame _⟩
    intro hv
    rw [State.writeHold_pin, hv]

end Sys2Proof.Machine

/-! Tools of the proofs that follow: what a law about parts says as one equation, and folds that visit units one by one. -/

namespace Sys2Proof.Machine

open Sys2Proof

section Parts

variable {s t : State} {F : Part → Bool}

/-- The parts that a list names. -/
def oneOf (l : List Part) (p : Part) : Bool := decide (p ∈ l)

/-- The state `s` with the parts that `F` names taken from `t`. -/
def State.graft (F : Part → Bool) (s t : State) : State :=
  { pending := s.pending
    free := bif F .free then t.free else s.free
    sent := bif F .sent then t.sent else s.sent
    dieTime := bif F .dieTime then t.dieTime else s.dieTime
    power := bif F .power then t.power else s.power
    fuses := bif F .fuses then t.fuses else s.fuses
    flash := bif F .flash then t.flash else s.flash
    boot := bif F .boot then t.boot else s.boot
    mgmt := bif F .mgmt then t.mgmt else s.mgmt
    fcu := bif F .fcu then t.fcu else s.fcu
    cfg := bif F .cfg then t.cfg else s.cfg
    regs := bif F .regs then t.regs else s.regs
    mem := bif F .mem then t.mem else s.mem
    stackMap := bif F .stackMap then t.stackMap else s.stackMap
    banks := bif F .banks then t.banks else s.banks
    baus := bif F .baus then t.baus else s.baus
    seqs := bif F .seqs then t.seqs else s.seqs
    seqNext := bif F .seqNext then t.seqNext else s.seqNext
    slots := bif F .slots then t.slots else s.slots
    ports := bif F .ports then t.ports else s.ports
    cores := bif F .cores then t.cores else s.cores
    notices := bif F .notices then t.notices else s.notices
    kept := bif F .kept then t.kept else s.kept
    kv := bif F .kv then t.kv else s.kv
    ldr := bif F .ldr then t.ldr else s.ldr
    fab := bif F .fab then t.fab else s.fab }

/-- A law about parts as an equation: what may not be touched is as it was. -/
theorem Keeps.eq_graft (h : Keeps F s t) : t = s.graft F t := by
  have hpick : ∀ {α : Type} (p : Part) (x y : α), (F p = false → y = x) → y = bif F p then y else x := by
    intro α p x y hxy
    cases hp : F p with
    | false => exact hxy hp
    | true => rfl
  obtain ⟨⟩ := t
  unfold State.graft
  congr 1
  · exact h.pending
  · exact hpick .free _ _ (h.frame .free)
  · exact hpick .sent _ _ (h.frame .sent)
  · exact hpick .dieTime _ _ (h.frame .dieTime)
  · exact hpick .power _ _ (h.frame .power)
  · exact hpick .fuses _ _ (h.frame .fuses)
  · exact hpick .flash _ _ (h.frame .flash)
  · exact hpick .boot _ _ (h.frame .boot)
  · exact hpick .mgmt _ _ (h.frame .mgmt)
  · exact hpick .fcu _ _ (h.frame .fcu)
  · exact hpick .cfg _ _ (h.frame .cfg)
  · exact hpick .regs _ _ (h.frame .regs)
  · exact hpick .mem _ _ (h.frame .mem)
  · exact hpick .stackMap _ _ (h.frame .stackMap)
  · exact hpick .banks _ _ (h.frame .banks)
  · exact hpick .baus _ _ (h.frame .baus)
  · exact hpick .seqs _ _ (h.frame .seqs)
  · exact hpick .seqNext _ _ (h.frame .seqNext)
  · exact hpick .slots _ _ (h.frame .slots)
  · exact hpick .ports _ _ (h.frame .ports)
  · exact hpick .cores _ _ (h.frame .cores)
  · exact hpick .notices _ _ (h.frame .notices)
  · exact hpick .kept _ _ (h.frame .kept)
  · exact hpick .kv _ _ (h.frame .kv)
  · exact hpick .ldr _ _ (h.frame .ldr)
  · exact hpick .fab _ _ (h.frame .fab)

/-- A law about fewer parts. -/
theorem Keeps.widen {l l' : List Part} (h : Keeps (oneOf l) s t) (hl : l ⊆ l') : Keeps (oneOf l') s t :=
  { h with frame := fun p hp => h.frame p (decide_eq_false fun hmem => of_decide_eq_false hp (hl hmem)) }

end Parts

section Folds

variable {σ κ β : Type} {step : σ → κ → σ} {get : σ → β}

/-- What a fold over distinct units leaves at one of them, where each step acts on its own unit alone. -/
theorem foldl_at [DecidableEq κ] {g : β → β} {k : κ} (hself : ∀ s, get (step s k) = g (get s))
    (hother : ∀ s j, j ≠ k → get (step s j) = get s) {l : List κ} (hl : l.Nodup) (s : σ) :
    get (l.foldl step s) = if k ∈ l then g (get s) else get s := by
  induction l generalizing s with
  | nil => rfl
  | cons j l ih =>
    obtain ⟨hj, hl⟩ := List.nodup_cons.1 hl
    rw [List.foldl_cons, ih hl]
    by_cases hk : k = j
    · subst hk
      rw [if_neg hj, if_pos List.mem_cons_self, hself]
    · rw [hother s j (Ne.symm hk)]
      simp [hk]

/-- What no step of a fold changes. -/
theorem foldl_same (hstep : ∀ s j, get (step s j) = get s) (l : List κ) (s : σ) : get (l.foldl step s) = get s := by
  induction l generalizing s with
  | nil => rfl
  | cons j l ih => rw [List.foldl_cons, ih, hstep]

end Folds

end Sys2Proof.Machine

/-! What every command leaves alone and undoes (the frame of each by the parts that `touches` names), and what a step does with the queue. -/

namespace Sys2Proof.Machine

open Sys2Proof

section Frame

variable {s t : State}

/-! ### The frame of a command -/

/-- Whether `touches` names a part for a command. -/
def touched (c : Instr) (p : Part) : Bool := decide (p ∈ touches c)

theorem touched_eq_false {c : Instr} {p : Part} (h : p ∉ touches c) : touched c p = false := decide_eq_false h

/-- Command by command, by the law of each one's operation, whose side conditions say which parts it may touch. -/
theorem exec_good_touched {c : Instr} (h : ∀ sigOk, c ≠ .svnCommit sigOk) : Good (touched c) s (exec c s) := by
  unfold exec
  cases c with
  | auxPowerUp => exact execAuxPowerUp_good rfl rfl rfl rfl rfl rfl rfl rfl rfl rfl rfl rfl rfl rfl rfl rfl rfl rfl rfl rfl rfl rfl
  | auxPowerLoss => exact execAuxPowerLoss_good rfl rfl rfl rfl rfl rfl rfl rfl rfl rfl rfl rfl rfl rfl rfl rfl rfl rfl rfl rfl rfl rfl
  | nresetLow => exact execNresetLow_good rfl rfl rfl rfl rfl rfl rfl rfl rfl rfl rfl rfl rfl rfl rfl rfl rfl rfl rfl rfl rfl rfl
  | nresetRise => exact execNresetRise_good rfl
  | bootFirmwareVerify => exact execBootFirmwareVerify_good rfl rfl rfl rfl rfl
  | railsUp => exact execRailsUp_good rfl rfl rfl rfl rfl rfl rfl
  | warmupStalled => exact execWarmupStalled_good rfl
  | configLoad => exact execConfigLoad_good rfl rfl rfl rfl rfl rfl rfl
  | laserStart => exact execLaserStart_good rfl
  | laserLock => exact execLaserLock_good rfl rfl rfl
  | stackInit => exact execStackInit_good rfl rfl rfl rfl rfl rfl
  | enterReady => exact execEnterReady_good rfl rfl rfl rfl
  | inputSample => exact execInputSample_good rfl rfl rfl rfl
  | powerCapRaise => exact execPowerCapRaise_good rfl
  | diePowerSample => exact execDiePowerSample_good rfl rfl
  | dieCapRaise => exact execDieCapRaise_good rfl
  | phaseFail => exact execPhaseFail_good rfl rfl rfl rfl rfl
  | throttleLoopDemand => exact execThrottleLoopDemand_good rfl
  | sensorConversionDone => exact execSensorConversionDone_good rfl rfl rfl rfl rfl rfl rfl rfl
  | ptmTsenseReqWrite => exact execPtmTsenseReqWrite_good rfl rfl
  | enterDormant => exact execEnterDormant_good rfl rfl rfl rfl rfl
  | pldmSetStateEffecter => exact execPldmSetStateEffecter_good rfl rfl rfl rfl rfl rfl rfl
  | dormantEntryComplete => exact execDormantEntryComplete_good rfl rfl rfl rfl rfl rfl
  | wake => exact execWake_good rfl rfl rfl rfl rfl rfl
  | wakeComplete => exact execWakeComplete_good rfl rfl rfl rfl rfl rfl rfl rfl rfl rfl rfl rfl rfl rfl rfl rfl rfl
  | faultRecord => exact execFaultRecord_good rfl rfl rfl rfl rfl rfl rfl rfl
  | safeStateEntry => exact execSafeStateEntry_good rfl rfl rfl rfl rfl rfl rfl rfl rfl rfl rfl rfl rfl
  | fcuLockstep => exact execFcuLockstep_good rfl rfl rfl
  | fcuSelf => exact execFcuSelf_good rfl rfl rfl
  | timebaseCheck => exact execTimebaseCheck_good rfl rfl rfl
  | automaticReset => exact execAutomaticReset_good rfl rfl rfl rfl rfl rfl rfl rfl rfl rfl rfl rfl rfl rfl rfl rfl rfl rfl rfl rfl rfl rfl
  | faultLogFlush => exact execFaultLogFlush_good rfl rfl
  | heartbeatToggle => exact execHeartbeatToggle_good rfl
  | faultPulseEnd => exact execFaultPulseEnd_good rfl
  | fcuPinHoldWrite => exact execFcuPinHoldWrite_good rfl rfl
  | coreLogicTestDone => exact execCoreLogicTestDone_good rfl rfl rfl rfl rfl rfl
  | bauSelftestDone => exact execBauSelftestDone_good rfl rfl rfl rfl rfl
  | nocParity => exact execNocParity_good rfl rfl rfl rfl rfl rfl rfl rfl rfl rfl rfl rfl rfl rfl rfl rfl rfl
  | linkRetrainDone => exact execLinkRetrainDone_good rfl rfl rfl rfl rfl rfl rfl rfl rfl rfl rfl rfl rfl rfl rfl rfl rfl
  | ddlLinkDown => exact execDdlLinkDown_good rfl rfl rfl rfl rfl rfl rfl rfl rfl rfl rfl rfl rfl rfl rfl rfl rfl
  | memoryRead => exact execMemoryRead_good rfl rfl rfl rfl rfl rfl rfl rfl rfl rfl rfl rfl rfl rfl rfl rfl rfl
  | memoryWrite => exact execMemoryWrite_good rfl rfl rfl rfl rfl rfl rfl rfl rfl rfl rfl rfl rfl rfl rfl rfl rfl
  | directoryRecall => exact execDirectoryRecall_good rfl rfl
  | hostCacheResponse => exact execHostCacheResponse_good rfl rfl rfl rfl rfl rfl rfl rfl rfl rfl rfl rfl rfl rfl rfl rfl rfl
  | openDone => exact execOpenDone_good rfl
  | columnDone => exact execColumnDone_good rfl rfl rfl rfl rfl rfl rfl
  | closeDone => exact execCloseDone_good rfl
  | refreshDone => exact execRefreshDone_good rfl rfl rfl rfl rfl rfl rfl rfl rfl rfl rfl rfl rfl rfl rfl rfl rfl
  | resultReady => exact execResultReady_good rfl rfl rfl rfl rfl
  | evError => exact execEvError_good rfl rfl rfl rfl rfl rfl rfl rfl
  | selfRefreshEntered => exact execSelfRefreshEntered_good rfl
  | selfRefreshExitDone => exact execSelfRefreshExitDone_good rfl rfl rfl rfl rfl rfl rfl rfl rfl rfl rfl rfl rfl rfl rfl rfl rfl
  | channelHandshakeTimeout => exact execChannelHandshakeTimeout_good rfl
  | tsvRepair => exact execTsvRepair_good rfl rfl rfl rfl rfl rfl rfl rfl rfl rfl rfl rfl rfl rfl rfl rfl rfl
  | requestAgeLimit => exact execRequestAgeLimit_good rfl
  | idleTimerExpiry => exact execIdleTimerExpiry_good rfl
  | refreshDue => exact execRefreshDue_good rfl rfl
  | stackTsenseDemand => exact execStackTsenseDemand_good rfl
  | tsenseOverdue => exact execTsenseOverdue_good rfl
  | srEntryDelayExpiry => exact execSrEntryDelayExpiry_good rfl rfl
  | scrubPosition => exact execScrubPosition_good rfl rfl rfl rfl
  | bankRetire => exact execBankRetire_good rfl rfl rfl rfl
  | bankCopyComplete => exact execBankCopyComplete_good rfl
  | dieRetire => exact execDieRetire_good rfl rfl rfl rfl
  | rebuildPosition => exact execRebuildPosition_good rfl rfl
  | parityDieFail => exact execParityDieFail_good rfl rfl rfl rfl
  | bankSequence => exact execBankSequence_good rfl rfl rfl rfl rfl rfl rfl rfl rfl rfl
  | actTokenGrant => exact execActTokenGrant_good rfl rfl rfl rfl
  | seqwDescriptorWrite => exact execSeqwDescriptorWrite_good rfl rfl rfl rfl rfl rfl rfl rfl rfl rfl rfl rfl rfl rfl rfl rfl rfl
  | sequenceComplete => exact execSequenceComplete_good rfl rfl rfl rfl rfl rfl rfl rfl rfl rfl rfl rfl rfl rfl rfl rfl rfl rfl rfl
  | block => exact execBlock_good rfl rfl rfl rfl rfl
  | endblock => exact execEndblock_good rfl rfl rfl rfl rfl rfl
  | streamEnd => exact execStreamEnd_good rfl
  | replayBoundary => exact execReplayBoundary_good rfl
  | patchApply => exact execPatchApply_good rfl
  | load => exact execLoad_good rfl rfl
  | store => exact execStore_good rfl rfl
  | xfer => exact execXfer_good rfl rfl rfl rfl rfl
  | wait => exact execWait_good rfl rfl rfl rfl rfl
  | signal => exact execSignal_good rfl rfl rfl rfl rfl rfl
  | barrier => exact execBarrier_good rfl rfl rfl rfl rfl rfl
  | mma => exact execMma_good rfl rfl rfl rfl rfl rfl rfl
  | vadd => exact execVadd_good rfl rfl rfl rfl rfl rfl rfl
  | vsub => exact execVsub_good rfl rfl rfl rfl rfl rfl rfl
  | vmul => exact execVmul_good rfl rfl rfl rfl rfl rfl rfl
  | vfma => exact execVfma_good rfl rfl rfl rfl rfl rfl rfl
  | vmax => exact execVmax_good rfl rfl rfl rfl rfl rfl rfl
  | vmin => exact execVmin_good rfl rfl rfl rfl rfl rfl rfl
  | vaddi => exact execVaddi_good rfl rfl rfl rfl rfl rfl rfl
  | vmuli => exact execVmuli_good rfl rfl rfl rfl rfl rfl rfl
  | vexp => exact execVexp_good rfl rfl rfl rfl rfl rfl rfl
  | vrecip => exact execVrecip_good rfl rfl rfl rfl rfl rfl rfl
  | vrsqrt => exact execVrsqrt_good rfl rfl rfl rfl rfl rfl rfl
  | vact => exact execVact_good rfl rfl rfl rfl rfl rfl rfl
  | vcmp => exact execVcmp_good rfl rfl rfl rfl rfl rfl rfl
  | vsel => exact execVsel_good rfl rfl rfl rfl rfl rfl rfl
  | vcopy => exact execVcopy_good rfl rfl rfl rfl rfl rfl rfl
  | vred => exact execVred_good rfl rfl rfl rfl rfl rfl rfl
  | vsoftmax => exact execVsoftmax_good rfl rfl rfl rfl rfl rfl rfl
  | vcvt => exact execVcvt_good rfl rfl rfl rfl rfl rfl rfl
  | vperm => exact execVperm_good rfl rfl rfl rfl rfl rfl rfl
  | vgather => exact execVgather_good rfl rfl rfl rfl rfl rfl rfl
  | ocall => exact execOcall_good rfl rfl
  | ocallReturn => exact execOcallReturn_good rfl rfl rfl rfl rfl rfl
  | queueBeatAccept => exact execQueueBeatAccept_good rfl rfl rfl rfl rfl rfl rfl rfl
  | tokenCredit => exact execTokenCredit_good rfl rfl rfl rfl rfl rfl
  | streamFault _ _ _ _ _ cls => exact execStreamFault_good (_cls := cls) rfl rfl rfl rfl rfl rfl rfl
  | mirageCheck => exact execMirageCheck_good rfl rfl rfl rfl rfl rfl rfl rfl rfl
  | kpop => exact execKpop_good rfl rfl rfl rfl rfl rfl
  | kpush => exact execKpush_good rfl rfl rfl rfl rfl rfl
  | kpwr => exact execKpwr_good rfl rfl rfl rfl rfl rfl
  | kprd => exact execKprd_good rfl rfl rfl rfl rfl rfl
  | ksumpop => exact execKsumpop_good rfl rfl rfl rfl rfl rfl
  | kwait => exact execKwait_good rfl rfl rfl rfl rfl rfl
  | ksignal => exact execKsignal_good rfl rfl rfl rfl rfl rfl
  | kbarrier => exact execKbarrier_good rfl rfl rfl rfl rfl rfl
  | barrierLeave => exact execBarrierLeave_good rfl rfl rfl rfl rfl rfl
  | dmaBarrierArrive => exact execDmaBarrierArrive_good rfl rfl rfl rfl rfl rfl
  | syncStall => exact execSyncStall_good rfl rfl rfl rfl rfl
  | run => exact execRun_good rfl rfl
  | branch => exact execBranch_good rfl rfl rfl rfl rfl rfl
  | jump => exact execJump_good rfl rfl
  | loop => exact execLoop_good rfl rfl
  | call => exact execCall_good rfl rfl
  | setp => exact execSetp_good rfl rfl
  | done => exact execDone_good rfl rfl rfl
  | nop => exact execNop_good rfl rfl rfl rfl rfl
  | sample => exact execSample_good rfl rfl rfl rfl rfl rfl
  | argmax => exact execArgmax_good rfl rfl rfl rfl rfl
  | rmsnormFb => exact execRmsnormFb_good rfl rfl rfl rfl rfl
  | layernormFb => exact execLayernormFb_good rfl rfl rfl rfl rfl
  | seed => exact execSeed_good rfl rfl rfl rfl rfl
  | postNotice => exact execPostNotice_good rfl rfl rfl rfl rfl rfl rfl rfl rfl rfl rfl
  | postNoticeRetry => exact execPostNoticeRetry_good rfl rfl rfl rfl rfl rfl rfl rfl rfl rfl rfl
  | ccAbortInterrupt => exact execCcAbortInterrupt_good rfl rfl rfl
  | ccNoticeDispatch => exact execCcNoticeDispatch_good rfl rfl rfl rfl rfl rfl rfl rfl rfl rfl rfl rfl rfl
  | ccDmaErrorInterrupt => exact execCcDmaErrorInterrupt_good rfl
  | dmaCopy => exact execDmaCopy_good rfl rfl rfl rfl rfl rfl rfl rfl rfl rfl
  | permute => exact execPermute_good rfl rfl rfl rfl rfl rfl rfl rfl rfl rfl
  | gather => exact execGather_good rfl rfl rfl rfl rfl rfl rfl rfl rfl rfl
  | dmaFill => exact execDmaFill_good rfl rfl rfl rfl rfl rfl
  | bseq => exact execBseq_good rfl rfl rfl rfl rfl rfl rfl rfl rfl rfl rfl
  | transferComplete => exact execTransferComplete_good rfl rfl rfl rfl rfl rfl
  | noticePost => exact execNoticePost_good rfl rfl rfl rfl rfl rfl rfl rfl rfl
  | noticeRepost => exact execNoticeRepost_good rfl rfl rfl rfl rfl rfl rfl rfl rfl
  | hostCasPost => exact execHostCasPost_good rfl rfl rfl rfl rfl rfl
  | noticeTake => exact execNoticeTake_good rfl rfl rfl rfl rfl rfl rfl rfl rfl rfl rfl rfl rfl
  | mailboxHostRead => exact execMailboxHostRead_good rfl rfl rfl rfl rfl rfl rfl rfl rfl rfl rfl rfl rfl rfl rfl rfl rfl
  | mailboxHostFree => exact execMailboxHostFree_good rfl rfl rfl rfl rfl rfl rfl rfl rfl rfl rfl rfl rfl rfl rfl rfl rfl
  | dietimeLoRead => exact execDietimeLoRead_good rfl rfl
  | kvOpen => exact execKvOpen_good rfl rfl rfl rfl rfl rfl rfl rfl rfl rfl rfl rfl rfl
  | reserve => exact execReserve_good rfl rfl rfl rfl rfl rfl rfl rfl rfl rfl rfl rfl rfl
  | commit => exact execCommit_good rfl rfl rfl rfl rfl rfl rfl rfl rfl rfl rfl rfl rfl
  | share => exact execShare_good rfl rfl rfl rfl rfl rfl rfl rfl rfl rfl rfl rfl rfl
  | kvFree => exact execKvFree_good rfl rfl rfl rfl rfl rfl rfl rfl rfl rfl rfl rfl rfl
  | kvPrefetch => exact execKvPrefetch_good rfl rfl rfl rfl rfl rfl rfl rfl rfl rfl rfl rfl rfl
  | kvAllocPage => exact execKvAllocPage_good rfl rfl
  | kvFrameDesc => exact execKvFrameDesc_good rfl rfl rfl rfl rfl rfl rfl rfl rfl
  | kvReleaseDesc => exact execKvReleaseDesc_good rfl rfl rfl rfl rfl rfl
  | kvPostStep => exact execKvPostStep_good rfl rfl rfl rfl rfl rfl rfl rfl rfl rfl
  | framePin => exact execFramePin_good rfl
  | frameUnpin => exact execFrameUnpin_good rfl rfl
  | copyOnWrite => exact execCopyOnWrite_good rfl rfl rfl
  | labInvalidate => exact execLabInvalidate_good rfl rfl
  | spillStart => exact execSpillStart_good rfl rfl rfl rfl rfl rfl
  | spillComplete => exact execSpillComplete_good rfl rfl rfl rfl
  | prefetchStart => exact execPrefetchStart_good rfl rfl rfl rfl rfl
  | prefetchComplete => exact execPrefetchComplete_good rfl rfl rfl rfl rfl rfl rfl
  | farTierUnreachable => exact execFarTierUnreachable_good rfl rfl rfl rfl
  | farTierProbe => exact execFarTierProbe_good rfl rfl rfl rfl
  | stepDecode => exact execStepDecode_good rfl rfl rfl rfl rfl rfl rfl rfl rfl rfl rfl rfl
  | stepAttend => exact execStepAttend_good rfl rfl rfl rfl rfl rfl rfl rfl rfl rfl rfl rfl
  | stepAppend => exact execStepAppend_good rfl rfl rfl rfl rfl rfl rfl rfl rfl rfl rfl rfl
  | partialMerge => exact execPartialMerge_good rfl
  | stepComplete => exact execStepComplete_good rfl rfl rfl rfl rfl rfl rfl rfl rfl rfl
  | coreMode => exact execCoreMode_good rfl rfl rfl
  | ldrLoad => exact execLdrLoad_good rfl rfl rfl rfl rfl rfl rfl rfl rfl rfl rfl rfl
  | ldrStart => exact execLdrStart_good rfl rfl rfl rfl rfl rfl rfl rfl rfl rfl rfl
  | ldrAbort => exact execLdrAbort_good rfl rfl rfl rfl rfl rfl rfl rfl rfl rfl
  | ldrRelease => exact execLdrRelease_good rfl rfl rfl rfl rfl rfl rfl rfl rfl rfl rfl rfl
  | runEnd => exact execRunEnd_good rfl rfl rfl rfl rfl rfl rfl rfl rfl rfl rfl rfl
  | taskAbort => exact execTaskAbort_good rfl rfl rfl rfl rfl rfl rfl rfl rfl rfl rfl rfl rfl rfl rfl
  | streamBufferFetch => exact execStreamBufferFetch_good rfl rfl rfl
  | lightDetect => exact execLightDetect_good rfl rfl
  | ts1 => exact execTs1_good rfl rfl rfl rfl rfl rfl
  | ts2 => exact execTs2_good rfl rfl
  | rateChange => exact execRateChange_good rfl rfl rfl
  | laneTrainTimeout => exact execLaneTrainTimeout_good rfl rfl rfl rfl rfl rfl
  | portTrainRestart => exact execPortTrainRestart_good rfl rfl
  | am => exact execAm_good rfl rfl
  | idle => exact execIdle_good rfl
  | flitReceive => exact execFlitReceive_good rfl rfl rfl rfl rfl rfl rfl rfl rfl rfl rfl rfl rfl rfl rfl rfl rfl rfl rfl rfl
  | replayTimeout => exact execReplayTimeout_good rfl rfl rfl
  | laneFail => exact execLaneFail_good rfl rfl rfl rfl rfl rfl
  | swapReq => exact execSwapReq_good rfl rfl rfl rfl rfl rfl rfl
  | swapAck => exact execSwapAck_good rfl rfl rfl rfl rfl rfl
  | laserFail => exact execLaserFail_good rfl rfl rfl rfl rfl rfl rfl
  | hold => exact execHold_good rfl
  | holdExpiry => exact execHoldExpiry_good rfl
  | calibrationStep => exact execCalibrationStep_good rfl rfl rfl rfl
  | calMove => exact execCalMove_good rfl rfl
  | calibrationComplete => exact execCalibrationComplete_good rfl rfl rfl rfl
  | wakeBlock => exact execWakeBlock_good rfl rfl rfl rfl rfl rfl
  | eidle => exact execEidle_good rfl
  | fillBlock => exact execFillBlock_good rfl
  | hostLinkUp => exact execHostLinkUp_good rfl rfl rfl rfl
  | hdmDecoderCommit => exact execHdmDecoderCommit_good rfl
  | biasFlipDevice => exact execBiasFlipDevice_good rfl rfl rfl
  | biasFlipHost => exact execBiasFlipHost_good rfl
  | biasPageFlipped => exact execBiasPageFlipped_good rfl rfl rfl
  | hotReset => exact execHotReset_good rfl rfl rfl rfl rfl rfl rfl rfl rfl rfl rfl rfl
  | flr => exact execFlr_good rfl rfl rfl rfl rfl rfl rfl rfl rfl rfl rfl
  | cxlReset => exact execCxlReset_good rfl rfl rfl rfl rfl rfl rfl rfl rfl rfl rfl
  | hostFlushTimeout => exact execHostFlushTimeout_good rfl rfl rfl rfl
  | begin => exact execBegin_good rfl rfl
  | data => exact execData_good rfl rfl
  | transferEnd => exact execTransferEnd_good rfl rfl rfl rfl
  | transferStatus => exact execTransferStatus_good rfl
  | getVersion => exact execGetVersion_good rfl rfl
  | getCapabilities => exact execGetCapabilities_good rfl rfl
  | negotiateAlgorithms => exact execNegotiateAlgorithms_good rfl rfl
  | getDigests => exact execGetDigests_good rfl
  | getCertificate => exact execGetCertificate_good rfl
  | challenge => exact execChallenge_good rfl rfl
  | getMeasurements => exact execGetMeasurements_good rfl rfl
  | read => exact execRead_good rfl rfl rfl rfl rfl rfl rfl rfl rfl rfl rfl rfl rfl rfl rfl rfl rfl rfl rfl rfl
  | write => exact execWrite_good rfl rfl rfl rfl rfl rfl rfl rfl rfl rfl rfl rfl rfl rfl rfl rfl rfl rfl rfl rfl
  | notice => exact execNotice_good rfl rfl rfl rfl rfl rfl rfl rfl rfl rfl rfl rfl rfl rfl rfl rfl rfl rfl rfl rfl
  | readRsp => exact execReadRsp_good rfl rfl rfl rfl rfl rfl rfl rfl rfl rfl rfl rfl rfl rfl rfl rfl rfl rfl rfl rfl
  | writeRsp => exact execWriteRsp_good rfl rfl rfl rfl rfl rfl rfl rfl rfl rfl rfl rfl rfl rfl rfl rfl rfl rfl rfl rfl
  | noticeRsp => exact execNoticeRsp_good rfl rfl rfl rfl rfl rfl rfl rfl rfl rfl rfl rfl rfl rfl rfl rfl rfl rfl rfl rfl
  | credit => exact execCredit_good rfl rfl rfl rfl rfl rfl rfl rfl rfl rfl rfl rfl rfl rfl rfl rfl rfl rfl rfl rfl
  | down => exact execDown_good rfl rfl rfl rfl rfl rfl rfl rfl rfl rfl rfl rfl rfl rfl rfl rfl rfl rfl rfl rfl
  | up => exact execUp_good rfl rfl rfl rfl rfl rfl rfl rfl rfl rfl rfl rfl rfl rfl rfl rfl rfl rfl rfl rfl
  | framePromote => exact execFramePromote_good rfl rfl
  | requestTimeout => exact execRequestTimeout_good rfl rfl rfl
  | allreduce => exact execAllreduce_good rfl rfl rfl rfl rfl rfl rfl rfl rfl
  | reducescatter => exact execReducescatter_good rfl rfl rfl rfl rfl rfl rfl rfl rfl
  | allgather => exact execAllgather_good rfl rfl rfl rfl rfl rfl rfl rfl rfl
  | headmerge => exact execHeadmerge_good rfl rfl rfl rfl rfl rfl rfl rfl rfl
  | coll => exact execColl_good rfl rfl rfl rfl rfl rfl rfl rfl rfl rfl rfl rfl rfl rfl rfl rfl rfl rfl rfl rfl
  | collTimeout => exact execCollTimeout_good rfl rfl rfl rfl rfl rfl rfl rfl rfl
  | mgmtGo => exact execMgmtGo_good rfl rfl rfl rfl
  | mctpManagement => exact execMctpManagement_good rfl rfl rfl rfl
  | mgmtStop => exact execMgmtStop_good rfl rfl rfl rfl rfl rfl rfl rfl rfl rfl rfl rfl rfl rfl rfl
  | mgmtStart => exact execMgmtStart_good rfl rfl rfl rfl rfl rfl rfl
  | set => exact execSet_good rfl rfl rfl rfl rfl
  | selftest => exact execSelftest_good rfl rfl rfl rfl rfl rfl
  | memorySelftestDone => exact execMemorySelftestDone_good rfl rfl rfl rfl rfl rfl rfl
  | tsense => exact execTsense_good rfl rfl rfl rfl rfl
  | fwCommit => exact execFwCommit_good rfl rfl rfl rfl rfl
  | svnCommit sigOk => exact absurd rfl (h sigOk)
  | reset => exact execReset_good rfl rfl rfl rfl rfl rfl rfl rfl rfl rfl rfl rfl rfl rfl rfl rfl rfl rfl rfl rfl rfl rfl rfl
  | recoveryImage => exact execRecoveryImage_good rfl rfl rfl rfl rfl rfl rfl rfl rfl rfl rfl rfl rfl rfl rfl rfl rfl rfl rfl rfl rfl rfl rfl rfl
  | setdasa => exact execSetdasa_good rfl
  | entdaa => exact execEntdaa_good rfl
  | registerWrite => exact execRegisterWrite_good rfl rfl rfl rfl rfl rfl rfl rfl rfl rfl rfl rfl rfl rfl rfl rfl rfl
  | busMasterEnableWrite => exact execBusMasterEnableWrite_good rfl rfl rfl rfl rfl rfl
  | blockAlignmentFound => exact execBlockAlignmentFound_good rfl rfl
  | selftestIdleWaitExpiry => exact execSelftestIdleWaitExpiry_good rfl rfl rfl rfl
  | laserRelock => exact execLaserRelock_good rfl rfl

/-- The state with other bits blown in the security version field, which SVN_COMMIT alone does. -/
def State.withSvn (s : State) (bits : Nat) : State := { s with fuses := { s.fuses with svnBits := bits } }

theorem State.withSvn_self : s.withSvn s.fuses.svnBits = s := rfl

theorem Part.same_withSvn {p : Part} {bits : Nat} (h : p ≠ .fuses) : p.same (s.withSvn bits) t ↔ p.same s t := by
  cases p with
  | fuses => exact absurd rfl h
  | _ => exact Iff.rfl

theorem State.mgmtServe_induction {P : State → Prop} {op : Nat} {f : MgmtReq → State → State} (hself : P s)
    (hdone : ∀ status reason result, P (s.mgmtComplete status reason result)) (hserve : ∀ q, P (f q s)) : P (s.mgmtServe op f) := by
  unfold State.mgmtServe
  split
  · exact hself
  split_ifs
  · exact hself
  · exact hdone ..
  split
  · exact hdone ..
  · exact hdone ..
  · exact hserve _

theorem State.mgmtSigned_induction {P : State → Prop} {q : MgmtReq} {sigOk : Bool} {f : State → State}
    (hdone : ∀ status reason result, P (s.mgmtComplete status reason result))
    (hsigned : P (f { s with flash := { s.flash with nonce := q.nonce } })) : P (s.mgmtSigned q sigOk f) := by
  unfold State.mgmtSigned
  split_ifs
  · exact hdone ..
  · exact hdone ..
  · exact hsigned

theorem execSvnCommit_keeps (sigOk : Bool) :
    ∃ bits t, execSvnCommit sigOk s = .next t ∧ Keeps (touched (.svnCommit sigOk)) (s.withSvn bits) t := by
  have hdone : ∀ (bits : Nat) (u : State), Keeps (touched (.svnCommit sigOk)) (s.withSvn bits) u → ∀ status reason result,
      ∃ bits, Keeps (touched (.svnCommit sigOk)) (s.withSvn bits) (u.mgmtComplete status reason result) :=
    fun bits _ hu _ _ _ => ⟨bits, State.mgmtComplete_keeps hu rfl rfl rfl rfl⟩
  have hkept : ∀ bits x, Keeps (touched (.svnCommit sigOk)) (s.withSvn bits) { s.withSvn bits with flash := { s.flash with nonce := x } } :=
    fun _ _ => Keeps.flash .rfl (Nat.le_refl _) rfl
  have hnow := hdone s.fuses.svnBits s .rfl
  suffices h : ∃ bits, Keeps (touched (.svnCommit sigOk)) (s.withSvn bits) (s.mgmtServe 7 _) from
    h.elim fun bits h => ⟨bits, _, rfl, h⟩
  refine State.mgmtServe_induction (P := fun t => ∃ bits, Keeps _ (s.withSvn bits) t) ⟨s.fuses.svnBits, .rfl⟩ hnow fun q =>
    State.mgmtSigned_induction (P := fun t => ∃ bits, Keeps _ (s.withSvn bits) t) hnow ?_
  dsimp only
  split_ifs
  · exact hdone (2 ^ fwSvn s.boot.imageHeader - 1) _ (hkept _ q.nonce) ..
  · exact hdone s.fuses.svnBits _ (hkept _ q.nonce) ..
  · exact hdone s.fuses.svnBits _ (hkept _ q.nonce) ..

/-- Every command answers a next state, and does only this to the state that it finds. -/
theorem exec_keeps (c : Instr) (s : State) : ∃ bits t, exec c s = .next t ∧ Keeps (touched c) (s.withSvn bits) t := by
  by_cases hc : ∃ sigOk, c = .svnCommit sigOk
  · obtain ⟨sigOk, rfl⟩ := hc
    exact execSvnCommit_keeps sigOk
  · exact ⟨s.fuses.svnBits, exec_good_touched (not_exists.mp hc)⟩

/-! ### A step -/

theorem step_of_pending {c : Instr} {cs : List Instr} (h : s.pending = c :: cs) : step s = exec c { s with pending := cs } := by
  unfold step
  rw [h]

theorem step_of_empty (h : s.pending = []) : step s = .next s.tick := by
  unfold step
  rw [h]

theorem State.tick_keeps_anyPart : Keeps anyPart s s.tick := by
  have hopen : true = true := rfl
  exact State.tick_keeps .rfl

/-- What a step makes of the state without the command that it takes. -/
theorem step_keeps (s : State) : ∃ bits t, step s = .next t ∧ Keeps anyPart { s.withSvn bits with pending := s.pending.tail } t := by
  rcases hp : s.pending with _ | ⟨c, cs⟩
  · refine ⟨s.fuses.svnBits, s.tick, step_of_empty hp, ?_⟩
    have hs : { s.withSvn s.fuses.svnBits with pending := [] } = s := by rw [State.withSvn_self, ← hp]
    rw [List.tail_nil, hs]
    exact State.tick_keeps_anyPart
  · obtain ⟨bits, t, ht, hk⟩ := exec_keeps c { s with pending := cs }
    exact ⟨bits, t, (step_of_pending hp).trans ht, { hk with frame := fun _ h => nomatch h }⟩

theorem step_keeps_of_next (h : step s = .next t) : ∃ bits, Keeps anyPart { s.withSvn bits with pending := s.pending.tail } t := by
  obtain ⟨bits, u, hu, hk⟩ := step_keeps s
  obtain rfl : t = u := Host.Outcome.next.inj (h.symm.trans hu)
  exact ⟨bits, hk⟩

/-! ### A tick -/

theorem State.time_countTime {d : Nat} (hoff : s.power.mode ≠ .off) (hstandby : s.power.mode ≠ .standby) :
    s.countTime.time d = if d < 8 then (s.time d + 1) % 2 ^ 64 else s.time d := by
  have hcount := foldl_at (step := fun m e => mput m e ((mget 0 m e + 1) % 2 ^ 64)) (get := fun m => mget 0 m d)
    (g := fun n => (n + 1) % 2 ^ 64) (fun _ => mget_mput_self) (fun _ _ h => mget_mput_ne h.symm) List.nodup_range (l := .range 8) s.dieTime
  simp only [List.mem_range] at hcount
  unfold State.countTime
  rw [if_neg (by simp [hoff, hstandby])]
  exact hcount

theorem State.loopStep_of_empty (h : (s.fport loopPort).out = []) : s.loopStep = s := by
  unfold State.loopStep
  rw [h]

end Frame

/-- Settles O1: the front of the queue is what a step runs. -/
theorem stepRunsTheFrontCommand : Obligations.StepRunsTheFrontCommand :=
  fun _ _ => step_of_pending rfl

/-- Settles O2: with the loopback empty a tick is the counting of time alone. -/
theorem emptyQueueTicks : Obligations.EmptyQueueTicks := by
  unfold Obligations.EmptyQueueTicks
  intro s hp hout
  have hfab : s.countTime = { s with dieTime := s.countTime.dieTime } := by
    unfold State.countTime
    split <;> rfl
  have htick : s.tick = s.countTime := State.loopStep_of_empty (by rw [hfab]; exact hout)
  refine ⟨s.tick, step_of_empty hp, by rw [htick]; exact hfab, ?stopped, ?counts, ?others⟩
  case stopped => exact fun h => by rw [htick, State.countTime, if_pos h]
  case counts => exact fun hoff hstandby d hd => by rw [htick, State.time_countTime hoff hstandby, if_pos hd]
  case others =>
    intro d hd
    rw [htick]
    by_cases hoff : s.power.mode = .off ∨ s.power.mode = .standby
    · rw [State.countTime, if_pos hoff]
    · obtain ⟨hoff, hstandby⟩ := not_or.1 hoff
      rw [State.time_countTime hoff hstandby, if_neg (by omega)]

/-- Settles O3: every command answers a next state, and takes back nothing sent. -/
theorem everyStepTakesOneCommand : Obligations.EveryStepTakesOneCommand := by
  unfold Obligations.EveryStepTakesOneCommand
  refine ⟨fun s => ?_, fun s t h => ?_⟩
  · obtain ⟨_, t, ht, _⟩ := step_keeps s
    exact ⟨t, ht⟩
  · obtain ⟨_, hk⟩ := step_keeps_of_next h
    exact ⟨hk.pending, hk.sent⟩

/-- Settles O4: every operation that touches memory keeps its cells rising and free of zeros, and its poison rising. -/
theorem stepKeepsMemoryCanonical : Obligations.StepKeepsMemoryCanonical := by
  unfold Obligations.StepKeepsMemoryCanonical
  intro s t hwf h
  obtain ⟨_, hk⟩ := step_keeps_of_next h
  exact hk.mem hwf

/-- Settles O5: at reset no byte and no poison is listed. -/
theorem resetMemoryIsCanonical : Obligations.ResetMemoryIsCanonical := ⟨rfl, rfl, rfl⟩

/-- Settles O6: fuses are only burnt, and `legal` speaks of the grade and the core maps. -/
theorem stepKeepsFuses : Obligations.StepKeepsFuses := by
  unfold Obligations.StepKeepsFuses
  intro s t h
  obtain ⟨_, hk⟩ := step_keeps_of_next h
  obtain ⟨hgrade, hcore, hseed, hdigest, _⟩ := hk.fuses
  refine ⟨hgrade, hcore, hseed, ?_, hdigest, hk.boots⟩
  unfold Fuses.legal Fuses.dieCores
  rw [hgrade, hcore]
  rfl

/-- Settles O60: no operation leaves the parts that `touches` names; fuses are one of them for SVN_COMMIT. -/
theorem commandsChangeOnlyTheirParts : Obligations.CommandsChangeOnlyTheirParts := by
  unfold Obligations.CommandsChangeOnlyTheirParts
  intro c s t p h
  by_cases hc : ∃ sigOk, c = .svnCommit sigOk
  · obtain ⟨sigOk, rfl⟩ := hc
    obtain ⟨_, u, hu, hk⟩ := execSvnCommit_keeps (s := s) sigOk
    obtain rfl : t = u := Host.Outcome.next.inj (h.symm.trans hu)
    refine ⟨hk.pending, fun hp => ?_⟩
    have hfuses : p ≠ .fuses := by
      rintro rfl
      simp [touches] at hp
    exact (Part.same_withSvn hfuses).1 (hk.frame p (touched_eq_false hp))
  · obtain ⟨u, hu, hk⟩ := exec_good_touched (s := s) (not_exists.mp hc)
    obtain rfl : t = u := Host.Outcome.next.inj (h.symm.trans hu)
    exact ⟨hk.pending, fun hp => hk.frame p (touched_eq_false hp)⟩

end Sys2Proof.Machine

/-! What is stored reads back: bytes of a line, and the line pieces of an access. -/

namespace Sys2Proof.Machine

open Sys2Proof

section StoredValues

variable {s : State}

/-! ### Lines -/

theorem State.writeLine_of_noStorage {p : Nat} (data : List Byte) (poison : Bool) (h : s.noStorage p = true) : s.writeLine p data poison = s :=
  if_pos h

theorem State.writeLine_cells {p : Nat} (data : List Byte) (poison : Bool) (h : s.noStorage p = false) :
    (s.writeLine p data poison).mem.cells = writeCells s.mem.cells p data := by
  rw [State.writeLine, if_neg (by simp [h])]
  rfl

theorem State.cells_wf (h : s.mem.wf = true) : mwf blankByte s.mem.cells = true := (Memory.wf_iff.1 h).1

theorem State.byteAt_writeLine_in {p i : Nat} {b : Byte} {data : List Byte} (poison : Bool) (hwf : s.mem.wf = true)
    (hstore : s.noStorage p = false) (hb : data[i]? = some b) : (s.writeLine p data poison).byteAt (.mem (p + i)) = b := by
  obtain ⟨hi, rfl⟩ := List.getElem?_eq_some_iff.1 hb
  rw [State.byteAt, State.writeLine_cells data poison hstore, mget_writeCells_in (State.cells_wf hwf) hi]

theorem State.byteAt_writeLine_out {p q : Nat} {data : List Byte} (poison : Bool) (hwf : s.mem.wf = true)
    (hstore : s.noStorage p = false) (hq : q < p ∨ p + data.length ≤ q) :
    (s.writeLine p data poison).byteAt (.mem q) = s.byteAt (.mem q) := by
  rw [State.byteAt, State.writeLine_cells data poison hstore, mget_writeCells_out (State.cells_wf hwf) hq, State.byteAt]

/-! ### Line pieces -/

theorem State.readBytes_append (a m n : Nat) : s.readBytes a (m + n) = s.readBytes a m ++ s.readBytes (a + m) n := by
  simp only [State.readBytes, List.range_add, List.map_append, List.map_map, Function.comp_def, Nat.add_assoc]

/-- The pieces cover the access where the fuel reaches its last line. -/
theorem State.readBytes_linePieces (fuel : Nat) {a n : Nat} (h : n ≠ 0 → a % 64 + n ≤ 64 * fuel) :
    ((linePieces fuel a n).flatMap fun p => s.readBytes p.1 p.2) = s.readBytes a n := by
  induction fuel generalizing a n with
  | zero =>
    obtain rfl : n = 0 := by omega
    rfl
  | succ fuel ih =>
    rw [linePieces]
    by_cases hn : n = 0
    · rw [if_pos hn, hn]
      rfl
    · generalize hk : min n (64 - a % 64) = k
      have hlast : n - k ≠ 0 → (a + k) % 64 + (n - k) ≤ 64 * fuel := by omega
      have hsum : k + (n - k) = n := by omega
      rw [if_neg hn, List.flatMap_cons, ih hlast, ← State.readBytes_append, hsum]

theorem State.readBytes_piecesOf (a n : Nat) : ((piecesOf a n).flatMap fun p => s.readBytes p.1 p.2) = s.readBytes a n :=
  State.readBytes_linePieces _ (by omega)

/-- A piece is not empty and lies in one line. -/
theorem mem_linePieces {fuel a n : Nat} {p : Nat × Nat} (h : p ∈ linePieces fuel a n) : 0 < p.2 ∧ p.1 % 64 + p.2 ≤ 64 := by
  induction fuel generalizing a n with
  | zero => cases h
  | succ fuel ih =>
    rw [linePieces] at h
    by_cases hn : n = 0
    · rw [if_pos hn] at h
      cases h
    · rw [if_neg hn] at h
      rcases List.mem_cons.1 h with rfl | h
      · dsimp only
        omega
      · exact ih h

end StoredValues

/-- Settles O9: registers by the laws of bit fields, bytes by those of the cells of memory, and the pieces by induction along the lines. -/
theorem storedValuesReadBack : Obligations.StoredValuesReadBack := by
  unfold Obligations.StoredValuesReadBack
  refine ⟨⟨?_, ?_, ?_⟩, ⟨?_, ?_⟩, ?_, ?_⟩
  · exact fun s d u i v f => State.fld_setFld_self
  · exact fun s d u i v f g => State.fld_setFld_other
  · exact fun s d u i d' u' i' v f g => State.fld_setFld_ne
  · exact fun s p data poison hwf hstore => ⟨fun i b => State.byteAt_writeLine_in poison hwf hstore, fun q => State.byteAt_writeLine_out poison hwf hstore⟩
  · exact fun s p data poison => State.writeLine_of_noStorage data poison
  · exact fun s => s.readBytes_piecesOf
  · exact fun a n p => mem_linePieces

end Sys2Proof.Machine

/-! Little-endian fields of records, and recording a fault (R456, R465, R472, R474). -/

namespace Sys2Proof.Machine

open Sys2Proof

/-! ### Little-endian fields -/

@[simp] theorem length_leBytes (k n : Nat) : (leBytes k n).length = k := by
  induction k generalizing n with
  | zero => rfl
  | succ k ih => rw [leBytes, List.length_cons, ih]

theorem leNat_leBytes (k n : Nat) : leNat (leBytes k n) = n % 2 ^ (8 * k) := by
  induction k generalizing n with
  | zero => rw [leBytes, leNat, Nat.mul_zero, Nat.pow_zero, Nat.mod_one]
  | succ k ih =>
    have hbyte : 2 ^ (8 * (k + 1)) = 2 ^ 8 * 2 ^ (8 * k) := by rw [← Nat.pow_add, Nat.mul_succ, Nat.add_comm]
    rw [leBytes, leNat, ih, BitVec.toNat_ofNat, hbyte, Nat.mod_mul]
    rfl

/-- The field that a record starts with. -/
theorem field_leBytes_append (k n : Nat) (rest : List Byte) : field (leBytes k n ++ rest) 0 k = n % 2 ^ (8 * k) := by
  rw [field, List.drop_zero, List.take_append_of_le_length (by simp), List.take_of_length_le (by simp), leNat_leBytes]

/-- A field behind the one that a record starts with. -/
theorem field_append_of_le {l : List Byte} (rest : List Byte) {off len : Nat} (h : l.length ≤ off) :
    field (l ++ rest) off len = field rest (off - l.length) len := by
  rw [field, field, List.drop_append, List.drop_eq_nil_of_le h, List.nil_append]

theorem mfind_mput_self {α : Type} {m : NMap α} {k : Nat} {v : α} : mfind (mput m k v) k = some v := by
  induction m with
  | nil => simp [mput, mfind]
  | cons x m ih =>
    obtain ⟨j, w⟩ := x
    rw [mput]
    split_ifs with hj hk
    · simp [mfind]
    · simp [mfind]
    · rw [mfind, if_neg hj, if_neg hk, ih]

/-! ### Registers of one unit -/

/-- Registers at other offsets are other registers. -/
theorem regKey_ne {d u i u' i' : Nat} {r r' : Reg} (h : regOff r' u' i' ≠ regOff r u i) : regKey d r' u' i' ≠ regKey d r u i := by
  unfold regKey
  omega

/-- Registers of other dies are other registers. -/
theorem regKey_ne_of_die {d d' u i u' i' : Nat} {r r' : Reg} (hd : d' ≠ d) (h : regOff r u i < 2 ^ 28) (h' : regOff r' u' i' < 2 ^ 28) :
    regKey d' r' u' i' ≠ regKey d r u i := by
  unfold regKey
  omega

theorem mfind_mput_ne {α : Type} {m : NMap α} {k i : Nat} {v : α} (h : i ≠ k) : mfind (mput m k v) i = mfind m i := by
  induction m with
  | nil => simp [mput, mfind, h.symm]
  | cons x m ih =>
    obtain ⟨j, w⟩ := x
    rw [mput]
    split_ifs with hj hk
    · subst hj
      rw [mfind, mfind, if_neg h.symm, if_neg h.symm]
    · rw [mfind, if_neg h.symm]
      split_ifs with hi
      · rw [mfind, if_neg (by omega), if_pos (by omega)]
      · rfl
    · rw [mfind, mfind, ih]

section Faults

variable {s : State}

/-! ### The record -/

@[simp] theorem faultRecordBytes_length (id d flags unit task time detail seq boot : Nat) :
    (faultRecordBytes id d flags unit task time detail seq boot).length = 32 := by
  simp [faultRecordBytes]

/-- The fields of a record where R472 places them. -/
theorem field_faultRecordBytes (id d flags unit task time detail seq boot : Nat) :
    let r := faultRecordBytes id d flags unit task time detail seq boot
    field r 0x00 2 = id % 2 ^ 16 ∧ field r 0x02 1 = d % 2 ^ 8 ∧ field r 0x04 2 = unit % 2 ^ 16 ∧ field r 0x06 1 = task % 2 ^ 8 ∧
      field r 0x08 8 = time % 2 ^ 64 ∧ field r 0x10 8 = detail % 2 ^ 64 ∧ field r 0x1C 4 = boot % 2 ^ 32 := by
  have hlast : field (leBytes 4 boot) 0 4 = boot % 2 ^ 32 := by
    rw [← List.append_nil (leBytes 4 boot), field_leBytes_append]
  simp only [faultRecordBytes, List.append_assoc]
  refine ⟨?_, ?_, ?_, ?_, ?_, ?_, ?_⟩ <;> simp [field_append_of_le, field_leBytes_append, hlast]

/-! ### The ring -/

/-- What recording a fault may touch. -/
def faultParts : Part → Bool := oneOf [.flash, .fcu, .regs]

theorem State.raise_keepsFaultParts (d id : Nat) (u : FaultUnit) (task detail : Nat) : Keeps faultParts s (s.raise d id u task detail) :=
  State.raise_keeps .rfl rfl rfl rfl

theorem State.raise_frame (d id : Nat) (u : FaultUnit) (task detail : Nat) :
    s.raise d id u task detail =
      { s with regs := (s.raise d id u task detail).regs, flash := (s.raise d id u task detail).flash,
               fcu := (s.raise d id u task detail).fcu } :=
  (State.raise_keepsFaultParts d id u task detail).eq_graft

theorem State.raise_power (d id : Nat) (u : FaultUnit) (task detail : Nat) : (s.raise d id u task detail).power = s.power :=
  (State.raise_keepsFaultParts d id u task detail).frame .power rfl

theorem State.raise_of_off (d id : Nat) (u : FaultUnit) (task detail : Nat) (h : s.power.mode = .off) : s.raise d id u task detail = s :=
  if_pos h

/-- The record that a fault puts in its ring slot (R472), but for the flag of an overrun. -/
def State.faultRecord (s : State) (d id : Nat) (u : FaultUnit) (task detail ovr : Nat) : List Byte :=
  faultRecordBytes id d ((if faultClass id = 3 && s.noMYet then 1 else 0) + ovr) (unitCode u) task (s.time d) detail
    ((mget emptyRing s.fcu.rings d).seq + 1) s.flash.boots

/-- The ring and the class counter after a fault. -/
def State.logged (s : State) (d id : Nat) (u : FaultUnit) (task detail : Nat) : State :=
  (s.ringPut d (s.faultRecord d id u task detail 0)).countClass d (faultClass id)

/-- The fault's record in line for the flash log too (R472). -/
def State.filed (s : State) (d id : Nat) (u : FaultUnit) (task detail : Nat) : State :=
  (s.logged d id u task detail).toFlashLog (s.faultRecord d id u task detail)

theorem State.filed_flushLog_power (d id : Nat) (u : FaultUnit) (task detail : Nat) :
    (s.filed d id u task detail).flushLog.power = s.power :=
  (State.flushLog_keeps (State.toFlashLog_keeps (State.countClass_keeps (State.ringPut_keeps .rfl rfl rfl) rfl) rfl) rfl rfl :
    Keeps faultParts s _).frame .power rfl

theorem State.raise_eq {d id : Nat} {u : FaultUnit} {task detail : Nat} (hoff : s.power.mode ≠ .off) :
    s.raise d id u task detail =
      let t := if faultClass id = 0 then s.logged d id u task detail else s.filed d id u task detail
      if faultClass id = 3 then
        if t.flushLog.power.mode = .safe then t.flushLog
        else { t.flushLog with fcu := { t.flushLog.fcu with safetyRing := t.flushLog.fcu.safetyRing ++ [(d, id)] } }
      else t :=
  if_neg hoff

theorem State.raise_classC {d id : Nat} {u : FaultUnit} {task detail : Nat} (hoff : s.power.mode ≠ .off) (h : faultClass id = 0) :
    s.raise d id u task detail = s.logged d id u task detail := by
  rw [State.raise_eq hoff, h]
  rfl

theorem State.raise_classND {d id : Nat} {u : FaultUnit} {task detail : Nat} (hoff : s.power.mode ≠ .off) (h0 : faultClass id ≠ 0)
    (h3 : faultClass id ≠ 3) : s.raise d id u task detail = s.filed d id u task detail := by
  rw [State.raise_eq hoff]
  dsimp only
  rw [if_neg h0, if_neg h3]

theorem State.raise_classM_safe {d id : Nat} {u : FaultUnit} {task detail : Nat} (h : faultClass id = 3)
    (hsafe : s.power.mode = .safe) : s.raise d id u task detail = (s.filed d id u task detail).flushLog := by
  have hmode : (s.filed d id u task detail).flushLog.power.mode = .safe := by rw [State.filed_flushLog_power, hsafe]
  rw [State.raise_eq (by simp [hsafe]), h]
  exact if_pos hmode

theorem State.raise_classM {d id : Nat} {u : FaultUnit} {task detail : Nat} (hoff : s.power.mode ≠ .off) (h : faultClass id = 3)
    (hsafe : s.power.mode ≠ .safe) :
    s.raise d id u task detail =
      (s.filed d id u task detail).flushLog.onFcu fun f => { f with safetyRing := f.safetyRing ++ [(d, id)] } := by
  have hmode : (s.filed d id u task detail).flushLog.power.mode ≠ .safe := by rwa [State.filed_flushLog_power]
  rw [State.raise_eq hoff, h]
  exact if_neg hmode

/-! ### What each stage of recording changes -/

theorem State.fld_next_setFld_overrun (d v : Nat) :
    (s.setFld d 0 0 FCU_LOG_HEAD.OVERRUN v).fld d 0 0 FCU_LOG_HEAD.NEXT = s.fld d 0 0 FCU_LOG_HEAD.NEXT :=
  State.fld_setFld_other (by decide) (by decide) rfl (by decide)

theorem State.ringPut_fcu (d : Nat) (bytes : List Byte) :
    (s.ringPut d bytes).fcu = { s.fcu with rings := mput s.fcu.rings d (
      ⟨mput (mget emptyRing s.fcu.rings d).slots (s.fld d 0 0 FCU_LOG_HEAD.NEXT) bytes,
        s.fld d 0 0 FCU_LOG_HEAD.NEXT :: (mget emptyRing s.fcu.rings d).unread.filter (· ≠ s.fld d 0 0 FCU_LOG_HEAD.NEXT),
        (mget emptyRing s.fcu.rings d).seq + 1⟩ : Ring) } := by
  unfold State.ringPut
  dsimp only
  split <;> rfl

theorem State.fld_next_setFld_next (d v : Nat) :
    (s.setFld d 0 0 FCU_LOG_HEAD.NEXT (v % 32)).fld d 0 0 FCU_LOG_HEAD.NEXT = v % 32 := by
  rw [State.fld_setFld_self (by decide) (by decide)]
  exact Nat.mod_mod_of_dvd v (dvd_refl 32)

theorem State.ringPut_regs (d : Nat) (bytes : List Byte) : ∃ t : State,
    (s.ringPut d bytes).regs = (t.setFld d 0 0 FCU_LOG_HEAD.NEXT ((s.fld d 0 0 FCU_LOG_HEAD.NEXT + 1) % 32)).regs := by
  unfold State.ringPut
  dsimp only
  split
  · exact ⟨_, rfl⟩
  · exact ⟨_, rfl⟩

theorem State.ringPut_next (d : Nat) (bytes : List Byte) :
    (s.ringPut d bytes).fld d 0 0 FCU_LOG_HEAD.NEXT = (s.fld d 0 0 FCU_LOG_HEAD.NEXT + 1) % 32 := by
  obtain ⟨t, hregs⟩ := s.ringPut_regs d bytes
  rw [State.fld_of_regs_eq hregs, State.fld_next_setFld_next]

/-- The class counters are other registers than FCU_LOG_HEAD. -/
theorem State.countClass_next (d cls : Nat) :
    (s.countClass d cls).fld d 0 0 FCU_LOG_HEAD.NEXT = s.fld d 0 0 FCU_LOG_HEAD.NEXT := by
  unfold State.countClass
  split_ifs
  · exact State.fld_setFld_ne (regKey_ne (by decide))
  · exact State.fld_setFld_ne (regKey_ne (by decide))
  · exact State.fld_setFld_ne (regKey_ne (by decide))
  · rfl

theorem State.toFlashLog_fcu (mk : Nat → List Byte) :
    (s.toFlashLog mk).fcu.rings = s.fcu.rings ∧ (s.toFlashLog mk).fcu.safetyRing = s.fcu.safetyRing := by
  unfold State.toFlashLog
  split <;> exact ⟨rfl, rfl⟩

theorem State.toFlashLog_regs (mk : Nat → List Byte) : (s.toFlashLog mk).regs = s.regs :=
  (State.toFlashLog_keeps .rfl rfl : Keeps (oneOf [.fcu]) s _).frame .regs rfl

theorem State.toFlashLog_flash (mk : Nat → List Byte) : (s.toFlashLog mk).flash = s.flash :=
  (State.toFlashLog_keeps .rfl rfl : Keeps (oneOf [.fcu]) s _).frame .flash rfl

theorem State.countClass_fcu (d cls : Nat) : (s.countClass d cls).fcu = s.fcu :=
  (State.countClass_keeps .rfl rfl : Keeps (oneOf [.regs]) s _).frame .fcu rfl

theorem State.flushLog_fcu : s.flushLog.fcu = { s.fcu with toFlash := [] } := rfl

theorem State.flushLog_fld (d u i : Nat) (f : RF) : s.flushLog.fld d u i f = s.fld d u i f := State.fld_of_regs_eq rfl ..

theorem State.onFcu_fld (g : Fcu → Fcu) (d u i : Nat) (f : RF) : (s.onFcu g).fld d u i f = s.fld d u i f := State.fld_of_regs_eq rfl ..

variable {d id : Nat} {u : FaultUnit} {task detail : Nat}

theorem State.logged_fcu :
    (s.logged d id u task detail).fcu = (s.ringPut d (s.faultRecord d id u task detail 0)).fcu := State.countClass_fcu ..

theorem State.logged_next :
    (s.logged d id u task detail).fld d 0 0 FCU_LOG_HEAD.NEXT = (s.fld d 0 0 FCU_LOG_HEAD.NEXT + 1) % 32 := by
  rw [State.logged, State.countClass_next, State.ringPut_next]

theorem State.filed_rings : (s.filed d id u task detail).fcu.rings = (s.logged d id u task detail).fcu.rings :=
  (State.toFlashLog_fcu _).1

theorem State.filed_next :
    (s.filed d id u task detail).fld d 0 0 FCU_LOG_HEAD.NEXT = (s.fld d 0 0 FCU_LOG_HEAD.NEXT + 1) % 32 := by
  rw [State.filed, State.fld_of_regs_eq (State.toFlashLog_regs _), State.logged_next]

theorem State.filed_safetyRing : (s.filed d id u task detail).fcu.safetyRing = s.fcu.safetyRing := by
  rw [State.filed, (State.toFlashLog_fcu _).2, State.logged_fcu, State.ringPut_fcu]

/-- Class by class, what a fault leaves in the rings and the flash log (R465, R472). -/
theorem State.raise_cases (hoff : s.power.mode ≠ .off) :
    let t := s.raise d id u task detail
    t.fcu.rings = (s.ringPut d (s.faultRecord d id u task detail 0)).fcu.rings ∧
      t.fld d 0 0 FCU_LOG_HEAD.NEXT = (s.fld d 0 0 FCU_LOG_HEAD.NEXT + 1) % 32 ∧
      t.fcu.safetyRing = (if faultClass id = 3 ∧ s.power.mode ≠ .safe then s.fcu.safetyRing ++ [(d, id)] else s.fcu.safetyRing) ∧
      (faultClass id = 3 → t.fcu.toFlash = []) ∧ (faultClass id ≠ 3 → t.flash = s.flash) ∧
      (faultClass id = 0 → t.fcu.toFlash = s.fcu.toFlash) := by
  have hflash : (s.logged d id u task detail).flash = s.flash :=
    (State.countClass_keeps (State.ringPut_keeps .rfl rfl rfl) rfl : Keeps (oneOf [.fcu, .regs]) s _).frame .flash rfl
  by_cases h0 : faultClass id = 0
  · rw [State.raise_classC hoff h0]
    simp [h0, State.logged_fcu, State.logged_next, State.ringPut_fcu, hflash]
  by_cases h3 : faultClass id = 3
  · by_cases hsafe : s.power.mode = .safe
    · rw [State.raise_classM_safe h3 hsafe]
      simp [h3, hsafe, State.flushLog_fcu, State.flushLog_fld, State.filed_rings, State.logged_fcu, State.filed_next, State.filed_safetyRing]
    · rw [State.raise_classM hoff h3 hsafe]
      simp [h3, hsafe, State.flushLog_fcu, State.flushLog_fld, State.onFcu_fld, State.filed_rings, State.logged_fcu, State.filed_next, State.filed_safetyRing]
  · rw [State.raise_classND hoff h0 h3]
    have hlog : (s.filed d id u task detail).flash = s.flash := (State.toFlashLog_flash _).trans hflash
    simp [h0, h3, State.filed_rings, State.logged_fcu, State.filed_next, State.filed_safetyRing, hlog]

end Faults

/-- Settles O16: the record's fields by its layout, the ring, the safety ring and the flash log class by class. -/
theorem faultIsRecordedAndReported : Obligations.FaultIsRecordedAndReported := by
  unfold Obligations.FaultIsRecordedAndReported
  intro s d id u task detail hoff
  obtain ⟨hrings, hnext, hsafety, htoFlash, hflash, hkept⟩ := State.raise_cases (s := s) (d := d) (id := id) (u := u)
    (task := task) (detail := detail) hoff
  obtain ⟨hid, hdie, hunit, htask, htime, hdetail, hboot⟩ := field_faultRecordBytes id d
    ((if faultClass id = 3 && s.noMYet then 1 else 0) + 0) (unitCode u) task (s.time d) detail
    ((mget emptyRing s.fcu.rings d).seq + 1) s.flash.boots
  rw [State.ringPut_fcu] at hrings
  refine ⟨_, s.faultRecord d id u task detail 0, rfl, State.raise_frame .., ?slot, faultRecordBytes_length .., hid, hdie, hunit, htask,
    htime, hdetail, hboot, ?seq, hnext, hsafety, htoFlash, hflash, hkept⟩
  case slot => rw [hrings, mget_mput_self, mfind_mput_self]
  case seq => rw [hrings, mget_mput_self]

end Sys2Proof.Machine

/-! Supply, reset pins, power samples and caps (R454, R475 to R482, R487, R488, R492, R500). -/

namespace Sys2Proof.Machine

open Sys2Proof

section Power

variable {s : State}

/-! ### The input -/

/-- The registers that an input sample writes (R476, R480). -/
def State.inputRegs (s : State) (v a : Nat) : State :=
  (((s.setFld 0 0 0 PTM_INPUT.VOLTAGE v).setFld 0 0 0 PTM_INPUT.CURRENT a).setFld 0 0 0 PTM_INPUT_POWER.POWER (v * a / 10000)).setFld
    0 0 0 PTM_INPUT_POWER.LIMIT (inputLimit v s.phasesFailed)

theorem State.inputRegs_eq (v a : Nat) : s.inputRegs v a = { s with regs := (s.inputRegs v a).regs } :=
  (State.setFld_keeps (State.setFld_keeps (State.setFld_keeps (State.setFld_keeps .rfl rfl) rfl) rfl) rfl :
    Keeps (oneOf [.regs]) s _).eq_graft

theorem exec_inputSample_of_standby {v a : Nat} (hmode : s.power.mode = .standby) :
    exec (.inputSample v a) s =
      .next (if s.power.deferred && decide (4400 ≤ v ∧ v ≤ 6000) then (s.inputRegs v a).t0 else s.inputRegs v a) := by
  have hoff : s.power.mode ≠ .off := by simp [hmode]
  exact congrArg Host.Outcome.next ((State.whenP_pos hoff).trans (if_pos hmode))

theorem exec_inputSample_of_running {v a : Nat} (hoff : s.power.mode ≠ .off) (hstandby : s.power.mode ≠ .standby)
    (hlow : 4400 ≤ v) (hhigh : v ≤ 6000) :
    exec (.inputSample v a) s =
      .next (if inputLimit v s.phasesFailed * 9700 < v * a then
          (s.inputRegs v a).onPower fun p => { p with powerCap := max 600 (p.powerCap - 10) }
        else s.inputRegs v a) := by
  refine congrArg Host.Outcome.next ((State.whenP_pos hoff).trans ((if_neg hstandby).trans ?_))
  rw [if_pos (decide_eq_true ⟨hlow, hhigh⟩)]
  rfl

/-! ### The caps -/

theorem State.dieCapOf_put {d e v : Nat} :
    (s.onPower fun p => { p with dieCap := mput p.dieCap d v }).dieCapOf e = if e = d then v else s.dieCapOf e := by
  unfold State.dieCapOf
  by_cases h : e = d
  · subst h
    rw [if_pos rfl]
    exact mget_mput_self
  · rw [if_neg h]
    exact mget_mput_ne h

/-- The registers that a power sample of a die writes (R497). -/
def State.diePowerRegs (s : State) (d w x : Nat) : State := (s.setFld d 0 0 PTM_DIE_POWER.DIE w).setFld d 0 0 PTM_DIE_POWER.STACKS x

theorem State.diePowerRegs_eq (d w x : Nat) : s.diePowerRegs d w x = { s with regs := (s.diePowerRegs d w x).regs } :=
  (State.setFld_keeps (State.setFld_keeps .rfl rfl) rfl : Keeps (oneOf [.regs]) s _).eq_graft

theorem exec_diePowerSample_of_rails {d w x : Nat} (hd : d < 8) (hrails : s.power.rails = true) :
    exec (.diePowerSample d w x) s =
      .next (if 410 < w then
          (s.diePowerRegs d w x).onPower fun p => { p with dieCap := mput p.dieCap d (max 600 (s.dieCapOf d - 10)) }
        else s.diePowerRegs d w x) :=
  congrArg Host.Outcome.next (State.whenP_pos ⟨hd, hrails⟩)

/-! ### Phases -/

/-- What the loss of a phase shows: the count, the limit and the fault's record (R482). -/
def State.phaseLost (s : State) : State :=
  ((s.setFld 0 0 0 PTM_STATUS.PHASES_FAILED (s.phasesFailed + 1)).setFld 0 0 0 PTM_INPUT_POWER.LIMIT
    (if s.fld 0 0 0 PTM_INPUT.VOLTAGE = 0 then phaseLimit (s.phasesFailed + 1)
      else inputLimit (s.fld 0 0 0 PTM_INPUT.VOLTAGE) (s.phasesFailed + 1))).raise 0 0x0C02 .die 0
    (f32OfVolt (s.fld 0 0 0 PTM_INPUT.VOLTAGE))

theorem State.phaseLost_keeps : Keeps faultParts s s.phaseLost :=
  State.raise_keeps (State.setFld_keeps (State.setFld_keeps .rfl rfl) rfl) rfl rfl rfl

theorem exec_phaseFail_of_left (hoff : s.power.mode ≠ .off) (hleft : s.phasesFailed < 7) : exec .phaseFail s = .next s.phaseLost :=
  congrArg Host.Outcome.next ((State.whenP_pos ⟨hoff, by omega⟩).trans (if_neg (by omega)))

theorem exec_phaseFail_of_lost (hoff : s.power.mode ≠ .off) (hsafe : s.power.mode ≠ .safe) (hfew : 7 ≤ s.phasesFailed)
    (hleft : s.phasesFailed < 18) :
    exec .phaseFail s =
      .next ((s.phaseLost.shutBus.setFld 0 0 0 PTM_STATUS.BUS_LOST 1).onPower fun p => { p with mode := .standby }) := by
  have hmode : (s.phaseLost.shutBus.setFld 0 0 0 PTM_STATUS.BUS_LOST 1).power.mode ≠ .safe := by
    change s.phaseLost.power.mode ≠ .safe
    rwa [State.phaseLost_keeps.frame .power rfl]
  exact congrArg Host.Outcome.next ((State.whenP_pos ⟨hoff, by omega⟩).trans ((if_pos (by omega)).trans (if_neg hmode)))

/-! ### Thresholds -/

/-- Recording a fault takes nothing off the safety ring. -/
theorem State.mem_safetyRing_raise {x : Nat × Nat} (h : x ∈ s.fcu.safetyRing) (d id : Nat) (u : FaultUnit) (task detail : Nat) :
    x ∈ (s.raise d id u task detail).fcu.safetyRing := by
  by_cases hoff : s.power.mode = .off
  · rwa [State.raise_of_off _ _ _ _ _ hoff]
  · obtain ⟨-, -, hring, -⟩ := State.raise_cases (s := s) (d := d) (id := id) (u := u) (task := task) (detail := detail) hoff
    rw [hring]
    split
    · exact List.mem_append_left _ h
    · exact h

theorem State.mem_safetyRing_raise_classM {d id : Nat} (u : FaultUnit) (task detail : Nat) (hclass : faultClass id = 3)
    (hoff : s.power.mode ≠ .off) (hsafe : s.power.mode ≠ .safe) : (d, id) ∈ (s.raise d id u task detail).fcu.safetyRing := by
  obtain ⟨-, -, hring, -⟩ := State.raise_cases (s := s) (d := d) (id := id) (u := u) (task := task) (detail := detail) hoff
  rw [hring, if_pos ⟨hclass, hsafe⟩]
  exact List.mem_append_right _ List.mem_cons_self

theorem State.thresholds_critical {d idx : Nat} {t : Int} (hidx : idx < 0x60) (ht : 1840 ≤ t) (hsafe : s.power.mode ≠ .safe)
    (hoff : s.power.mode ≠ .off) : (d, 0xCC02) ∈ (s.thresholds d idx t).fcu.safetyRing := by
  have hcritical := State.mem_safetyRing_raise_classM (s := s) (d := d) (id := 0xCC02) (.sensor idx) 0 (f32OfTemp t) (by decide) hoff hsafe
  have hwarm : ¬ (t < 0 ∧ (s.raise d 0xCC02 (.sensor idx) 0 (f32OfTemp t)).power.mode ≠ .standby ∧
      (s.raise d 0xCC02 (.sensor idx) 0 (f32OfTemp t)).power.mode ≠ .warmUp) := by omega
  unfold State.thresholds
  simp only [if_pos hidx, if_pos ht, if_neg hwarm]
  split
  · exact hcritical
  · exact hcritical

end Power

/-- Settles O10: each event by the condition under which it acts. -/
theorem supplyAndResetPins : Obligations.SupplyAndResetPins := by
  unfold Obligations.SupplyAndResetPins
  have hout : ∀ {s : State} {v : Nat}, v < 4400 ∨ 6000 < v → ¬ (4400 ≤ v ∧ v ≤ 6000) := by omega
  refine ⟨?up, ?upIgnored, ?loss, ?lossIgnored, ?reset, ?pulse, ?rise, ?deferred, ?riseIgnored, ?sample, ?sampleIgnored⟩
  case up => exact fun s hoff => congrArg Host.Outcome.next (State.whenP_pos hoff)
  case upIgnored => exact fun s hoff => congrArg Host.Outcome.next (State.whenP_neg hoff)
  case loss => exact fun s hoff => congrArg Host.Outcome.next (State.whenP_pos hoff)
  case lossIgnored => exact fun s hoff => congrArg Host.Outcome.next (State.whenP_neg (not_not.2 hoff))
  case reset => exact fun s ns hoff hns => congrArg Host.Outcome.next (State.whenP_pos ⟨hoff, hns⟩)
  case pulse =>
    intro s ns h
    refine congrArg Host.Outcome.next (State.whenP_neg fun ⟨hoff, hns⟩ => ?_)
    exact h.elim hoff fun hshort => by omega
  case rise =>
    exact fun s v hmode hlow hmin hmax => congrArg Host.Outcome.next ((State.whenP_pos ⟨hmode, hlow⟩).trans (if_pos ⟨hmin, hmax⟩))
  case deferred =>
    exact fun s v hmode hlow hv => congrArg Host.Outcome.next ((State.whenP_pos ⟨hmode, hlow⟩).trans (if_neg (hout (s := s) hv)))
  case riseIgnored =>
    intro s v h
    refine congrArg Host.Outcome.next (State.whenP_neg fun ⟨hmode, hlow⟩ => ?_)
    exact h.elim (fun hne => hne hmode) fun hhigh => by simp [hlow] at hhigh
  case sample =>
    intro s v a hmode hdeferred hmin hmax
    have hstart : (s.power.deferred && decide (4400 ≤ v ∧ v ≤ 6000)) = true := by simp [hdeferred, hmin, hmax]
    refine ⟨_, (exec_inputSample_of_standby hmode).trans (congrArg _ (if_pos hstart)), ?_⟩
    rw [State.inputRegs_eq]
    rfl
  case sampleIgnored =>
    intro s v a hmode h
    have hwait : ¬ (s.power.deferred && decide (4400 ≤ v ∧ v ≤ 6000)) = true := by
      rcases h with h | h
      · simp [h]
      · simp [hout (s := s) h]
    exact ⟨_, (exec_inputSample_of_standby hmode).trans (congrArg _ (if_neg hwait)), State.inputRegs_eq ..⟩

/-- Settles O12: the caps follow the samples, and a lost phase is recorded, the bus shut below 11 of them. -/
theorem powerSamplesMoveTheCaps : Obligations.PowerSamplesMoveTheCaps := by
  unfold Obligations.PowerSamplesMoveTheCaps
  refine ⟨?input, ?raiseCap, ?die, ?raiseDie, ?phase, ?bus⟩
  case input =>
    intro s v a hoff hstandby hlow hhigh
    have hregs : (s.inputRegs v a).regs = _ := rfl
    refine ⟨_, exec_inputSample_of_running hoff hstandby hlow hhigh, ?_⟩
    rw [State.inputRegs_eq]
    split
    · exact ⟨hregs, rfl, rfl⟩
    · exact ⟨hregs, rfl, rfl⟩
  case raiseCap => exact fun s h => congrArg Host.Outcome.next (State.whenP_pos h)
  case die =>
    intro s d w x hd hrails
    have hregs : (s.diePowerRegs d w x).regs = _ := rfl
    refine ⟨_, exec_diePowerSample_of_rails hd hrails, ?_⟩
    rw [State.diePowerRegs_eq]
    split
    · exact ⟨hregs, State.dieCapOf_put.trans (if_pos rfl), fun e he => State.dieCapOf_put.trans (if_neg he), rfl⟩
    · exact ⟨hregs, rfl, fun _ _ => rfl, rfl⟩
  case raiseDie =>
    intro s d hd hrails hlow
    exact ⟨_, congrArg Host.Outcome.next (State.whenP_pos ⟨hd, hrails, hlow⟩), State.dieCapOf_put.trans (if_pos rfl),
      fun e he => State.dieCapOf_put.trans (if_neg he), rfl⟩
  case phase =>
    intro s hoff _ hleft
    have hk := s.phaseLost_keeps
    exact ⟨_, exec_phaseFail_of_left hoff hleft, hk.frame .power rfl, hk.frame .mem rfl, hk.eq_graft⟩
  case bus =>
    intro s hoff hsafe hfew hleft
    have hk := s.phaseLost_keeps
    have hpower : s.phaseLost.power = s.power := hk.frame .power rfl
    have hmem : s.phaseLost.mem = s.mem := hk.frame .mem rfl
    refine ⟨_, exec_phaseFail_of_lost hoff hsafe hfew hleft, ?_, ?_⟩
    · simp [State.shutBus, hpower]
    · simp [State.shutBus, hmem]

/-- Settles O13: the cap by its definition, and the critical threshold by what a class M fault leaves on the safety ring. -/
theorem thermalCapFollowsLogicTemperature : Obligations.ThermalCapFollowsLogicTemperature := by
  unfold Obligations.ThermalCapFollowsLogicTemperature
  have hcap : ∀ (s : State) (d : Nat) (t : Int), s.logicTemp d = some t →
      s.thermalCap d = s.vddlTarget d - 10 * ((t - 1600) / 16).toNat := fun s d t h => by rw [State.thermalCap, h]
  refine ⟨hcap, fun s d htarget htemp => ?_, fun s d idx t => State.thresholds_critical⟩
  rw [hcap s d 1840 htemp, htarget]
  rfl

end Sys2Proof.Machine

/-! Sensors and their readings, and Dormant (R484 to R487, R493, R494, R496, R497). -/

namespace Sys2Proof.Machine

open Sys2Proof

section Units

variable {s : State}

@[simp] theorem State.stack_setStack_self (k : Nat) (x : Stack) : (s.setStack k x).stack k = x := mget_mput_self

theorem State.stack_setStack_ne {k j : Nat} (x : Stack) (h : k ≠ j) : (s.setStack j x).stack k = s.stack k := mget_mput_ne h

theorem State.stack_of_stackMap_eq {t : State} (h : t.stackMap = s.stackMap) (k : Nat) : t.stack k = s.stack k := by
  rw [State.stack, h, State.stack]

end Units

section Sensors

variable {s : State}

/-! ### Demands -/

theorem State.demand_of_none {d : Nat} {is : List Nat} {who : DemandBy} (h : ∀ i ∈ is, s.power.demands.contains ⟨d, i, who⟩ = false) :
    s.demand d is who = s.onPower fun p => { p with demands := p.demands ++ is.map fun i => ⟨d, i, who⟩ } := by
  have hall : ((is.map fun i => (⟨d, i, who⟩ : Demand)).filter fun x => !s.power.demands.contains x) = is.map fun i => ⟨d, i, who⟩ := by
    refine List.filter_eq_self.2 fun x hx => ?_
    obtain ⟨i, hi, rfl⟩ := List.mem_map.1 hx
    rw [h i hi]
    rfl
  unfold State.demand State.onPower
  dsimp only
  rw [hall]

/-! ### PTM_TSENSE_DATA -/

/-- A field of PTM_TSENSE_DATA after the writes of a host's demand. -/
def State.tsenseBusy (s : State) (d i : Nat) : State :=
  ((s.setFld d 0 0 PTM_TSENSE_DATA.VALID 0).setFld d 0 0 PTM_TSENSE_DATA.BUSY 1).setFld d 0 0 PTM_TSENSE_DATA.SENSOR i

theorem State.tsenseBusy_eq (d i : Nat) : s.tsenseBusy d i = { s with regs := (s.tsenseBusy d i).regs } :=
  (State.setFld_keeps (State.setFld_keeps (State.setFld_keeps .rfl rfl) rfl) rfl : Keeps (oneOf [.regs]) s _).eq_graft

theorem State.tsenseBusy_fld {d i : Nat} (hi : i < 0xF8) :
    (s.tsenseBusy d i).fld d 0 0 PTM_TSENSE_DATA.BUSY = 1 ∧ (s.tsenseBusy d i).fld d 0 0 PTM_TSENSE_DATA.VALID = 0 ∧
      (s.tsenseBusy d i).fld d 0 0 PTM_TSENSE_DATA.SENSOR = i := by
  unfold State.tsenseBusy
  simp (disch := decide) only [State.fld_setFld_other, State.fld_setFld_self]
  exact ⟨rfl, rfl, Nat.mod_eq_of_lt (Nat.lt_trans hi (by decide))⟩

theorem State.tsenseReq_of_discarded {d v : Nat} (h : 0xF8 ≤ bits v 7 0 ∨ s.fld d 0 0 PTM_TSENSE_DATA.BUSY = 1) :
    s.tsenseReq d v = s.setFld d 0 0 PTM_TSENSE_DATA.ERR 1 :=
  if_pos h

theorem State.tsenseReq_of_taken {d v : Nat} (hi : bits v 7 0 < 0xF8) (hbusy : s.fld d 0 0 PTM_TSENSE_DATA.BUSY ≠ 1) :
    s.tsenseReq d v = (s.tsenseBusy d (bits v 7 0)).demand d [bits v 7 0] .host :=
  if_neg (by omega)

/-! ### A reading -/

theorem State.sensor_of_sensors_put {p : Power} {k : Nat} {x : Sensor} {d idx : Nat} (hs : s.power = { p with sensors := mput p.sensors k x })
    (h : d * 256 + idx ≠ k) {t : State} (ht : t.power = p) : s.sensor d idx = t.sensor d idx := by
  unfold State.sensor
  rw [hs, ht]
  dsimp only
  rw [mfind_mput_ne h]

theorem State.sensor_storeTemp_ne {d d' idx o : Nat} {t : Int} (h : d' * 256 + o ≠ d * 256 + idx) :
    (s.storeTemp d idx t).sensor d' o = s.sensor d' o :=
  State.sensor_of_sensors_put (t := s) rfl h rfl

theorem State.sensor_storeTemp_self {d idx : Nat} {t : Int} :
    (s.storeTemp d idx t).sensor d idx = some { (s.sensor d idx).getD ⟨t, false, 0⟩ with temp := t } := by
  unfold State.storeTemp
  rw [State.sensor, State.onPower_power, mfind_mput_self]

theorem State.validTemp_storeTemp_self {d idx : Nat} {t : Int} (hkept : ∀ x, s.sensor d idx = some x → x.excluded = false) :
    (s.storeTemp d idx t).validTemp d idx = some t := by
  have hex : ((s.sensor d idx).getD ⟨t, false, 0⟩).excluded = false := by
    cases h : s.sensor d idx with
    | none => rfl
    | some x => exact hkept x h
  rw [State.validTemp, State.sensor_storeTemp_self]
  dsimp only
  rw [hex]
  rfl

theorem State.validTemp_of_power_eq {t : State} (h : t.power = s.power) (d idx : Nat) : t.validTemp d idx = s.validTemp d idx := by
  rw [State.validTemp, State.sensor, h, State.validTemp, State.sensor]

/-- A sensor is not one of its neighbours, so its own reading does not move the median that it is held against. -/
theorem State.outlier_storeTemp {d idx : Nat} {t u : Int} (hidx : idx < 0x60) :
    (s.storeTemp d idx t).outlier d idx u = s.outlier d idx u := by
  have hothers : (neighbours idx).filterMap ((s.storeTemp d idx t).validTemp d) = (neighbours idx).filterMap (s.validTemp d) := by
    refine List.filterMap_congr fun o ho => ?_
    have hne : d * 256 + o ≠ d * 256 + idx := by
      rw [neighbours, if_pos hidx, List.mem_filter] at ho
      have := (of_decide_eq_true ho.2).1
      omega
    rw [State.validTemp, State.sensor_storeTemp_ne hne, State.validTemp]
  rw [State.outlier, hothers, State.outlier]

/-- A reading that meets no threshold. -/
theorem State.thresholds_of_normal {d idx : Nat} {t : Int} (hidx : idx < 0x60) (h0 : 0 ≤ t) (ht : t < 1840) : s.thresholds d idx t = s := by
  unfold State.thresholds
  simp only [if_pos hidx]
  rw [if_neg (by omega), if_neg (by omega), if_neg (by omega)]

/-- What a valid logic reading that meets no threshold leaves: the reading, and perhaps a PLDM event (R484). -/
theorem State.reading_of_normal {d idx : Nat} {t : Int} (hidx : idx < 0x60) (h0 : 0 ≤ t) (ht : t < 1840)
    (hkept : ∀ x, s.sensor d idx = some x → x.excluded = false) (hin : s.outlier d idx t = false) :
    s.reading d idx t = s.storeTemp d idx t ∨ s.reading d idx t = (s.storeTemp d idx t).send (.pldmEvent d) := by
  unfold State.reading
  dsimp only
  rw [State.outlier_storeTemp hidx, hin, State.thresholds_of_normal hidx h0 ht, if_neg, if_neg Bool.false_ne_true, if_pos hidx]
  · split_ifs
    · exact .inr rfl
    · exact .inl rfl
  · rcases hs : s.sensor d idx with _ | x
    · exact Bool.false_ne_true
    · exact ne_true_of_eq_false (hkept x hs)

/-! ### The end of a conversion -/

/-- A conversion that a host alone demanded is read by that host alone (R484, R497). -/
theorem exec_sensorConversionDone_of_host {d idx : Nat} {t : Int} (hd : d < 8) (hrails : s.power.rails = true)
    (hdemand : s.power.demands = [⟨d, idx, .host⟩]) :
    exec (.sensorConversionDone d idx t) s = .next (((s.dropDemands d idx).reading d idx t).hostReading d idx t) := by
  have hconv : s.converting d idx = true := by simp [State.converting, hdemand]
  have hby : ∀ who, s.demandedBy d idx who = decide (who = .host) := by
    intro who
    rw [State.demandedBy, hdemand]
    cases who <;> simp
  refine congrArg Host.Outcome.next ((State.whenP_pos ⟨hd, hconv, hrails⟩).trans ?_)
  simp [hby]

/-- The fields of PTM_TSENSE_DATA after a reading of a sensor that is not excluded (R497). -/
theorem State.hostReading_fld {d idx : Nat} {t : Int} (hidx : idx < 0x60) (h0 : 0 ≤ t) (ht : t < 1520) :
    (s.hostReading d idx t).fld d 0 0 PTM_TSENSE_DATA.VALID = 1 ∧ (s.hostReading d idx t).fld d 0 0 PTM_TSENSE_DATA.BUSY = 0 ∧
      (s.hostReading d idx t).fld d 0 0 PTM_TSENSE_DATA.TEMP = t.toNat ∧ (s.hostReading d idx t).fld d 0 0 PTM_TSENSE_DATA.SENSOR = idx := by
  unfold State.hostReading
  simp (disch := decide) only [State.fld_setFld_other, State.fld_setFld_self]
  refine ⟨rfl, rfl, ?_, Nat.mod_eq_of_lt (Nat.lt_trans hidx (by decide))⟩
  change temp16 t % 65536 = t.toNat
  unfold temp16
  omega

theorem State.hostReading_eq (d idx : Nat) (t : Int) : s.hostReading d idx t = { s with regs := (s.hostReading d idx t).regs } :=
  (State.hostReading_keeps .rfl rfl : Keeps (oneOf [.regs]) s _).eq_graft

end Sensors

/-- Settles O14: demands as lists, the register's fields by the laws of fields, and a normal reading by what it leaves. -/
theorem sensorsAreDemandedAndRead : Obligations.SensorsAreDemandedAndRead := by
  unfold Obligations.SensorsAreDemandedAndRead
  refine ⟨?loop, ?host, ?discarded, ?done⟩
  case loop =>
    intro s d hd hrails hnone
    refine congrArg Host.Outcome.next ((State.whenP_pos ⟨hd, hrails⟩).trans ?_)
    rw [State.demand_of_none (fun _ _ => by rw [hnone]; rfl)]
    unfold State.onPower
    dsimp only
    rw [hnone, List.nil_append]
    rfl
  case host =>
    intro s d v hd hrails hsafe hi hbusy hnew
    obtain ⟨hb, hv, hs⟩ := s.tsenseBusy_fld (d := d) hi
    refine ⟨_, congrArg Host.Outcome.next ((State.whenP_pos ⟨hd, hrails, hsafe⟩).trans (State.tsenseReq_of_taken hi hbusy)), ?_⟩
    have hmore : ∀ i ∈ [bits v.toNat 7 0], (s.tsenseBusy d (bits v.toNat 7 0)).power.demands.contains ⟨d, i, .host⟩ = false := by
      rw [State.tsenseBusy_eq]
      simpa using hnew
    rw [State.demand_of_none hmore]
    rw [State.onPower_fld, State.onPower_fld, State.onPower_fld]
    refine ⟨?_, hb, hv, hs, ?_⟩
    · rw [State.tsenseBusy_eq]
      rfl
    · rw [State.tsenseBusy_eq]
      rfl
  case discarded =>
    exact fun s d v hd hrails hsafe h => congrArg Host.Outcome.next ((State.whenP_pos ⟨hd, hrails, hsafe⟩).trans (State.tsenseReq_of_discarded h))
  case done =>
    intro s d idx t hd hidx hrails hmode hdemand h0 ht hkept hin
    have hstored := State.reading_of_normal (s := s.dropDemands d idx) hidx h0 (by omega) hkept hin
    obtain ⟨hvalid, hbusy, htemp, hsensor⟩ := ((s.dropDemands d idx).reading d idx t).hostReading_fld (d := d) hidx h0 ht
    have hdropped : (s.dropDemands d idx).power.demands = [] := by simp [State.dropDemands, hdemand]
    have hreading : ((s.dropDemands d idx).reading d idx t).validTemp d idx = some t ∧
        ((s.dropDemands d idx).reading d idx t).power.demands = [] ∧ ((s.dropDemands d idx).reading d idx t).mem = s.mem ∧
        ((s.dropDemands d idx).reading d idx t).fcu = s.fcu ∧ ((s.dropDemands d idx).reading d idx t).power.mode = .ready := by
      rcases hstored with h | h
      · rw [h]
        exact ⟨State.validTemp_storeTemp_self hkept, hdropped, rfl, rfl, hmode⟩
      · rw [h]
        exact ⟨(State.validTemp_of_power_eq rfl ..).trans (State.validTemp_storeTemp_self hkept), hdropped, rfl, rfl, hmode⟩
    refine ⟨_, exec_sensorConversionDone_of_host hd hrails hdemand, ?_⟩
    generalize (s.dropDemands d idx).reading d idx t = u at *
    obtain ⟨hvt, hd, hm, hf, hp⟩ := hreading
    rw [State.hostReading_eq] at hvalid hbusy htemp hsensor ⊢
    exact ⟨(State.validTemp_of_power_eq rfl ..).trans hvt, hd, hvalid, hbusy, htemp, hsensor, hm, hf, hp⟩

end Sys2Proof.Machine

/-! Dormant: asked for, entered and left (R493, R494, R496). -/

namespace Sys2Proof.Machine

open Sys2Proof

section Dormant

variable {s : State}

/-- What keeping ports alive leaves of the stacks and of memory. -/
theorem State.keepAlivePorts_keepsParts : Keeps (oneOf [.ports, .fab]) s s.keepAlivePorts := State.keepAlivePorts_keeps .rfl rfl rfl

theorem State.wakePorts_keepsParts : Keeps (oneOf [.free, .sent, .ports, .fab]) s s.wakePorts :=
  State.wakePorts_keeps .rfl rfl rfl rfl rfl

/-- A stack told to enter self-refresh, where it serves. -/
def Stack.told (st : Stack) : Stack := if st.cleared && st.sr = .awake then { st with sr := .waiting } else st

/-- A stack woken, unless management has stopped it. -/
def Stack.woken (st : Stack) : Stack :=
  if st.stopped then st
  else match st.sr with
    | .asleep => { st with sr := .waking }
    | .waiting => { st with sr := .awake }
    | _ => st

theorem State.stack_sleepStacks {k : Nat} (hk : k < 32) : s.sleepStacks.stack k = (s.stack k).told := by
  unfold State.sleepStacks
  refine (foldl_at (get := fun t : State => t.stack k) (g := Stack.told) ?self ?other List.nodup_range s).trans (if_pos (List.mem_range.2 hk))
  case self =>
    intro t
    unfold Stack.told
    split
    · exact State.stack_setStack_self k _
    · rfl
  case other =>
    intro t j hj
    split
    · exact State.stack_setStack_ne _ hj.symm
    · rfl

theorem State.stack_wakeStacks {k : Nat} (hk : k < 32) : s.wakeStacks.stack k = (s.stack k).woken := by
  unfold State.wakeStacks
  refine (foldl_at (get := fun t : State => t.stack k) (g := Stack.woken) ?self ?other List.nodup_range s).trans (if_pos (List.mem_range.2 hk))
  case self =>
    intro t
    unfold Stack.woken
    dsimp only
    split
    · rfl
    · cases (t.stack k).sr with
      | asleep => exact State.stack_setStack_self k _
      | waiting => exact State.stack_setStack_self k _
      | _ => rfl
  case other =>
    intro t j hj
    dsimp only
    split
    · rfl
    · cases (t.stack j).sr with
      | asleep => exact State.stack_setStack_ne _ hj.symm
      | waiting => exact State.stack_setStack_ne _ hj.symm
      | _ => rfl

theorem Stack.told_of_awake {st : Stack} (hclear : st.cleared = true) (hawake : st.sr = .awake) : st.told = { st with sr := .waiting } :=
  if_pos (by simp [hclear, hawake])

theorem Stack.woken_of_asleep {st : Stack} (hrun : st.stopped = false) (hasleep : st.sr = .asleep) : st.woken = { st with sr := .waking } := by
  unfold Stack.woken
  rw [if_neg (by simp [hrun]), hasleep]

/-- The module on its way into Dormant (R493). -/
def State.toDormant (s : State) : State := (s.onPower fun p => { p with mode := .enteringDormant }).sleepStacks.keepAlivePorts

theorem State.requestDormant_of_idle (hmode : s.power.mode = .ready) (hidle : s.workInProgress = false) : s.requestDormant = s.toDormant :=
  if_pos ⟨hmode, by rw [hidle]; rfl⟩

theorem State.toDormant_keeps : Keeps (oneOf [.stackMap, .ports, .fab]) (s.onPower fun p => { p with mode := .enteringDormant }) s.toDormant :=
  State.keepAlivePorts_keeps (State.sleepStacks_keeps .rfl rfl) rfl rfl

/-- The module on its way out of Dormant (R496). -/
def State.awoken (s : State) : State :=
  (s.onPower fun p => { p with mode := .waking, phasesOn := 18, heldWork := false }).wakeStacks.wakePorts

theorem State.wakeUp_of_dormant (hmode : s.power.mode = .dormant) : s.wakeUp = s.awoken := if_pos hmode

theorem State.wakeUp_of_entering (hmode : s.power.mode = .enteringDormant) : s.wakeUp = s.onPower fun p => { p with heldWork := true } := by
  unfold State.wakeUp
  rw [if_neg (by simp [hmode]), if_pos hmode]

theorem State.awoken_keeps : Keeps (oneOf [.free, .sent, .stackMap, .ports, .fab])
    (s.onPower fun p => { p with mode := .waking, phasesOn := 18, heldWork := false }) s.awoken :=
  State.wakePorts_keeps (State.wakeStacks_keeps .rfl rfl) rfl rfl rfl rfl

end Dormant

/-- Settles O15: asking for Dormant and waking act on power, stacks and ports alone, and on each stack by its own state. -/
theorem dormantIsEnteredAndLeft : Obligations.DormantIsEnteredAndLeft := by
  unfold Obligations.DormantIsEnteredAndLeft
  refine ⟨?asked, ?refused, ?entered, ?woken, ?held, ?done⟩
  case asked =>
    intro s hmode hidle
    have hacts : s.power.mode ≠ .off ∧ s.power.mode ≠ .safe := by simp [hmode]
    have hask : s.requestDormant = s.toDormant := State.requestDormant_of_idle hmode hidle
    refine ⟨s.toDormant, congrArg Host.Outcome.next ((State.whenP_pos hacts).trans hask),
      congrArg Host.Outcome.next ((State.whenP_pos hacts).trans hask), ?_, ?_, ?_, ?_⟩
    · exact State.toDormant_keeps.frame .power rfl
    · intro k hk hclear hawake
      exact (State.stack_of_stackMap_eq (State.keepAlivePorts_keepsParts.frame .stackMap rfl) k).trans
        ((State.stack_sleepStacks hk).trans (Stack.told_of_awake hclear hawake))
    · exact State.toDormant_keeps.frame .mem rfl
    · exact State.toDormant_keeps.frame .regs rfl
  case refused =>
    intro s hmode hbusy
    have hacts : s.power.mode ≠ .off ∧ s.power.mode ≠ .safe := by simp [hmode]
    exact congrArg Host.Outcome.next ((State.whenP_pos hacts).trans (if_neg fun h => by simp [hbusy] at h))
  case entered =>
    intro s hmode hasleep hheld
    have hall : (List.range 32).all (fun k => decide ((s.stack k).sr ≠ .waiting ∧ (s.stack k).sr ≠ .commanded)) = true :=
      List.all_eq_true.2 fun k hk => decide_eq_true (hasleep k (List.mem_range.1 hk))
    exact congrArg Host.Outcome.next ((if_pos ⟨hmode, hall⟩).trans (if_neg (by simp [hheld])))
  case woken =>
    intro s hmode
    have hacts : s.power.mode ≠ .off ∧ s.power.mode ≠ .safe := by simp [hmode]
    have hwake : s.wakeUp = s.awoken := State.wakeUp_of_dormant hmode
    refine ⟨s.awoken, congrArg Host.Outcome.next hwake, congrArg Host.Outcome.next ((State.whenP_pos hacts).trans hwake), ?_, ?_, ?_⟩
    · exact State.awoken_keeps.frame .power rfl
    · intro k hk hrun hasleep
      exact (State.stack_of_stackMap_eq (State.wakePorts_keepsParts.frame .stackMap rfl) k).trans
        ((State.stack_wakeStacks hk).trans (Stack.woken_of_asleep hrun hasleep))
    · exact State.awoken_keeps.frame .mem rfl
  case held => exact fun s hmode => congrArg Host.Outcome.next (State.wakeUp_of_entering hmode)
  case done => exact fun s hmode => congrArg Host.Outcome.next (State.whenP_pos hmode)

end Sys2Proof.Machine

/-! Start-up, step by step (R95, R309, R392, R432, R433, R438 to R441, R453, R490). -/

namespace Sys2Proof.Machine

open Sys2Proof

section Boot

variable {s t : State}

/-! ### Step 1 -/

theorem exec_bootFirmwareVerify_of_runs {sigOk : Bool} (hmode : s.power.mode = .booting) (hfw : s.boot.fwOk = false)
    (hruns : s.fwRuns s.flash.fw sigOk = true) :
    exec (.bootFirmwareVerify sigOk) s =
      .next { s with boot := { s.boot with fwOk := true, imageHeader := s.flash.fw.take 0xE0, lastStep := 1 } } :=
  congrArg Host.Outcome.next ((State.whenP_pos ⟨hmode, hfw⟩).trans (if_pos hruns))

theorem exec_bootFirmwareVerify_of_not_runs {sigOk : Bool} (hmode : s.power.mode = .booting) (hfw : s.boot.fwOk = false)
    (hruns : s.fwRuns s.flash.fw sigOk = false) : ∃ trusted, exec (.bootFirmwareVerify sigOk) s = .next (s.enterRecovery trusted) :=
  ⟨_, congrArg Host.Outcome.next ((State.whenP_pos ⟨hmode, hfw⟩).trans (if_neg (by simp [hruns])))⟩

theorem State.enterRecovery_keeps_parts (trusted : Bool) :
    Keeps (oneOf [.cfg, .mem, .stackMap])
      ((s.onPower fun p => { p with mode := .maintenance, rails := true }).onBoot fun b =>
        { b with recovery := true, lasersOn := true, lasersLocked := true }) (s.enterRecovery trusted) := by
  unfold State.enterRecovery
  refine Keeps.foldl (fun _ _ h => State.initStack_keeps h rfl rfl) ?_
  cases trusted with
  | true => exact Keeps.cfg_set .rfl rfl
  | false => exact .rfl

/-! ### Step 2 -/

/-- What the first readings leave as the rails' coming up has set it. -/
structure State.SamePowerUp (s t : State) : Prop where
  boot : t.boot = s.boot
  mem : t.mem = s.mem
  cfg : t.cfg = s.cfg
  mode : t.power.mode = s.power.mode
  rails : t.power.rails = s.power.rails
  busShut : t.power.busShut = s.power.busShut
  ambient : t.power.ambient = s.power.ambient

namespace State.SamePowerUp

theorem rfl : s.SamePowerUp s := ⟨.refl _, .refl _, .refl _, .refl _, .refl _, .refl _, .refl _⟩

theorem trans {u : State} (a : s.SamePowerUp t) (b : t.SamePowerUp u) : s.SamePowerUp u :=
  ⟨b.boot.trans a.boot, b.mem.trans a.mem, b.cfg.trans a.cfg, b.mode.trans a.mode, b.rails.trans a.rails, b.busShut.trans a.busShut,
    b.ambient.trans a.ambient⟩

theorem foldl {α : Type} {f : State → α → State} (hf : ∀ u x, s.SamePowerUp u → u.SamePowerUp (f u x)) (l : List α) (h : s.SamePowerUp t) :
    s.SamePowerUp (l.foldl f t) := by
  induction l generalizing t with
  | nil => exact h
  | cons x l ih => exact ih (h.trans (hf t x h))

theorem of_keeps {F : Part → Bool} (h : Keeps F s t) (hboot : F .boot = false) (hmem : F .mem = false) (hcfg : F .cfg = false)
    (hpower : F .power = false) : s.SamePowerUp t := by
  have hp : t.power = s.power := h.frame .power hpower
  exact ⟨h.frame .boot hboot, h.frame .mem hmem, h.frame .cfg hcfg, by rw [hp], by rw [hp], by rw [hp], by rw [hp]⟩

end State.SamePowerUp

/-- Outside Safe no threshold shuts the bus (R487, R489). -/
theorem State.thresholds_keeps_of_not_safe {d idx : Nat} {x : Int} (h : s.power.mode ≠ .safe) : Keeps faultParts s (s.thresholds d idx x) := by
  have hopen : ∀ {u : State} {p : Prop} [Decidable p], Keeps faultParts s u → Keeps faultParts s (if u.power.mode = .safe ∧ p then u.shutBus else u) := by
    intro u p _ hu
    rw [if_neg (by rw [hu.frame .power rfl]; simp [h])]
    exact hu
  unfold State.thresholds
  exact hopen (Keeps.ite (fun _ => State.raise_keeps (Keeps.ite (fun _ => State.raise_keeps .rfl rfl rfl rfl) fun _ => .rfl) rfl rfl rfl)
    fun _ => Keeps.ite (fun _ => State.raise_keeps .rfl rfl rfl rfl) fun _ => .rfl)

theorem State.samePowerUp_excludeSensor (d idx : Nat) (x : Int) : s.SamePowerUp (s.excludeSensor d idx x) := by
  unfold State.excludeSensor
  have hmark : s.SamePowerUp (s.onPower fun p => { p with sensors := mput p.sensors (d * 256 + idx) ⟨x, true, 0⟩ }) :=
    ⟨.refl _, .refl _, .refl _, .refl _, .refl _, .refl _, .refl _⟩
  refine hmark.trans (.of_keeps (F := faultParts) ?_ rfl rfl rfl rfl)
  exact Keeps.ite (fun _ => State.raise_keeps (State.raise_keeps .rfl rfl rfl rfl) rfl rfl rfl) fun _ => State.raise_keeps .rfl rfl rfl rfl

/-- The rails up and the first readings taken (R478), before Warm-up is decided. -/
def State.railsUp (s : State) (ambient : Int) (rs : List SensorReading) : State :=
  let s := s.onPower fun p => { p with rails := true, busShut := false, ambient := some ambient, sensors := [] }
  let s := s.onBoot fun b => { b with railsUp := true, lastStep := 2 }
  let s := rs.foldl (fun s r => if r.d < 8 ∧ r.idx < 0xF8 then s.storeTemp r.d r.idx r.temp else s) s
  let s := rs.foldl (fun s r =>
    if r.d < 8 ∧ r.idx < 0xF8 ∧ s.outlier r.d r.idx r.temp = true then s.excludeSensor r.d r.idx r.temp else s) s
  let hot := if 1680 ≤ ambient then (List.range 8).flatMap fun d => loopSensors.map fun i => (d, i) else rs.map fun r => (r.d, r.idx)
  let s := hot.foldl (fun s r =>
    match s.validTemp r.1 r.2 with
    | some t => if 0 ≤ t then s.thresholds r.1 r.2 t else s
    | none => s) s
  (List.range 32).foldl (fun s stk => s.quicken stk) s

theorem State.samePowerUp_railsUp (ambient : Int) (rs : List SensorReading) (hmode : s.power.mode = .booting) :
    ((s.onPower fun p => { p with rails := true, busShut := false, ambient := some ambient, sensors := [] }).onBoot fun b =>
      { b with railsUp := true, lastStep := 2 }).SamePowerUp (s.railsUp ambient rs) := by
  unfold State.railsUp
  refine .foldl (fun u k _ => .of_keeps (State.quicken_keeps .rfl rfl : Keeps (oneOf [.stackMap]) u _) rfl rfl rfl rfl) _ ?_
  refine .foldl (fun u r hu => ?_) _ (.foldl (fun u r _ => ?_) _ (.foldl (fun u r _ => ?_) _ .rfl))
  · have hsafe : u.power.mode ≠ .safe := by
      rw [hu.mode]
      change s.power.mode ≠ .safe
      simp [hmode]
    split
    · split
      · exact .of_keeps (State.thresholds_keeps_of_not_safe hsafe) rfl rfl rfl rfl
      · exact .rfl
    · exact .rfl
  · split
    · exact u.samePowerUp_excludeSensor ..
    · exact .rfl
  · split
    · exact ⟨.refl _, .refl _, .refl _, .refl _, .refl _, .refl _, .refl _⟩
    · exact .rfl

theorem exec_railsUp_of_booting {ambient : Int} {rs : List SensorReading} (hmode : s.power.mode = .booting) (hfw : s.boot.fwOk = true)
    (hdown : s.boot.railsUp = false) :
    ∃ cold : Bool, (ambient < 80 → cold = true) ∧
      exec (.railsUp ambient rs) s = .next (if cold then (s.railsUp ambient rs).onPower fun p => { p with mode := .warmUp } else s.railsUp ambient rs) :=
  ⟨_, fun h => by rw [Bool.or_eq_true, decide_eq_true_eq]; exact .inl h, congrArg Host.Outcome.next (State.whenP_pos ⟨hmode, hfw, hdown⟩)⟩

end Boot

end Sys2Proof.Machine

/-! Start-up from the configuration record on (R95, R309, R392, R432, R433, R438 to R441). -/

namespace Sys2Proof.Machine

open Sys2Proof

/-- Entries filtered by their keys read as they were where the key stays, and as the default elsewhere. -/
theorem mget_filter_key {α : Type} [DecidableEq α] {d : α} {m : NMap α} (hm : mwf d m = true) (g : Nat → Bool) (k : Nat) :
    mget d (m.filter fun c => g c.1) k = if g k then mget d m k else d := by
  induction m with
  | nil => exact (ite_self _).symm
  | cons x m ih =>
    obtain ⟨j, v⟩ := x
    obtain ⟨habove, -, hm'⟩ := mwf_cons.1 hm
    have hkeep : mget d ((j, v) :: m.filter fun c => g c.1) k = if j = k then v else if k < j then d else if g k then mget d m k else d := by
      rw [mget, ih hm']
    have hdrop := ih hm'
    rw [List.filter_cons]
    by_cases hj : g j
    · rw [if_pos hj, hkeep, mget]
      split_ifs <;> simp_all
    · rw [if_neg hj, hdrop, mget]
      by_cases hjk : j = k
      · subst hjk
        simp [hj]
      · rw [if_neg hjk]
        by_cases hlt : k < j
        · rw [if_pos hlt, mget_above (mAbove_mono (Nat.le_of_lt hlt) habove)]
        · rw [if_neg hlt]

section Boot

variable {s t : State}

/-! ### Step 3 -/

theorem State.applyEntry_mode (e : Entry) : (s.applyEntry e).power.mode = s.power.mode := by
  cases e with
  | module number group partition faultMode restart straps =>
    have hk : Keeps (oneOf [.regs]) s (s.applyEntry (.module number group partition faultMode restart straps)) :=
      State.setFld_keeps (State.setFld_keeps (Keeps.foldl (fun _ _ h =>
        State.setFld_keeps (State.setFld_keeps (State.setFld_keeps h rfl) rfl) rfl) .rfl) rfl) rfl
    exact congrArg Power.mode (hk.frame .power rfl)
  | stack stk idle budget srEntry tsense age scrub share =>
    have hk : Keeps (oneOf [.regs]) s (s.applyEntry (.stack stk idle budget srEntry tsense age scrub share)) :=
      Keeps.foldl (fun _ _ h => State.setReg_keeps h rfl) .rfl
    exact congrArg Power.mode (hk.frame .power rfl)
  | power d target vddq period =>
    unfold State.applyEntry
    dsimp only
    split <;> rfl
  | _ => rfl

theorem State.applyEntries_keeps (es : List Entry) : Keeps (oneOf [.power, .regs]) s (es.foldl State.applyEntry s) :=
  Keeps.foldl (fun _ _ h => State.applyEntry_keeps h rfl rfl) .rfl

theorem State.applyEntries_mode (es : List Entry) : (es.foldl State.applyEntry s).power.mode = s.power.mode :=
  foldl_same (get := fun u : State => u.power.mode) (fun _ e => State.applyEntry_mode e) es s

theorem State.blowOwner_keepsFuses (r : Record) : Keeps (oneOf [.fuses]) s (s.blowOwner r) := State.blowOwner_keeps .rfl rfl

/-- What step 3 notes of the firmware and the record before it checks the record (R438, R440). -/
def State.noted (s : State) : State :=
  s.onBoot fun b => { b with
    oasisVersion := 0x00010000
    ccCode := (fwOasis s.flash.fw).take 0x8000
    recordDigest := Config.sha3 s.flash.recordBytes
    floorAtStart := s.fuses.svnFloor }

/-- The noted state with the owner's digest blown where the record is trusted (R438). -/
def State.owned (s : State) (r : Record) (sigOk : Bool) : State := if recordTrusted s.fuses r sigOk then s.noted.blowOwner r else s.noted

theorem State.owned_keeps (r : Record) (sigOk : Bool) : Keeps (oneOf [.fuses]) s.noted (s.owned r sigOk) :=
  Keeps.ite (fun _ => State.blowOwner_keepsFuses r) fun _ => .rfl

theorem exec_configLoad_of_record {sigOk : Bool} {r : Record} (hmode : s.power.mode = .booting) (hrails : s.boot.railsUp = true)
    (hlock : s.boot.locked = false) (hrecord : s.flash.record = some r) :
    exec (.configLoad sigOk) s = .next (match recordRefusal s.fuses s.power.straps r sigOk with
      | some code => (s.owned r sigOk).refuseConfig code
      | none =>
        (((r.sections.flatMap (·.entries)).foldl State.applyEntry { s.owned r sigOk with cfg := some r }).onBoot fun b =>
          { b with configOk := true }).lockBoot) := by
  refine congrArg Host.Outcome.next ((State.whenP_pos ⟨hmode, hrails, hlock⟩).trans ?_)
  dsimp only [State.onBoot_flash]
  rw [hrecord]
  rfl

theorem regOff_hpCfg_lt : regOff .HP_CFG 0 0 < 2 ^ 28 := by decide

/-- The fold that makes every host port plain PCIe, at one of its ports (R441). -/
theorem State.plainPorts_fld {p : Nat} (hp : p < 8) :
    let u := (List.range 8).foldl (fun s p => (s.setFld p 0 0 HP_CFG.ALLOWED 0).setFld p 0 0 HP_CFG.REGS 1) s
    (u.fld p 0 0 HP_CFG.ALLOWED, u.fld p 0 0 HP_CFG.REGS) = (0, 1) := by
  refine (foldl_at (get := fun u : State => (u.fld p 0 0 HP_CFG.ALLOWED, u.fld p 0 0 HP_CFG.REGS)) (g := fun _ => (0, 1)) ?self ?other
    List.nodup_range s).trans (if_pos (List.mem_range.2 hp))
  case self =>
    intro u
    have hallowed : ((u.setFld p 0 0 HP_CFG.ALLOWED 0).setFld p 0 0 HP_CFG.REGS 1).fld p 0 0 HP_CFG.ALLOWED = 0 := by
      rw [State.fld_setFld_other (f := HP_CFG.REGS) (g := HP_CFG.ALLOWED) (by decide) (by decide) rfl (by decide),
        State.fld_setFld_self (by decide) (by decide)]
      rfl
    rw [hallowed, State.fld_setFld_self (by decide) (by decide)]
    rfl
  case other =>
    intro u j hj
    have hne : regKey p .HP_CFG 0 0 ≠ regKey j .HP_CFG 0 0 := regKey_ne_of_die hj.symm regOff_hpCfg_lt regOff_hpCfg_lt
    rw [State.fld_setFld_ne hne, State.fld_setFld_ne hne, State.fld_setFld_ne hne, State.fld_setFld_ne hne]

theorem State.lockBoot_keepsParts : Keeps (oneOf [.power, .boot]) s s.lockBoot := State.lockBoot_keeps .rfl rfl rfl

/-- The refused record as the ports, the registers and the fault log show it, before the boot lock (R441). -/
def State.refusedConfig (s : State) (code : Nat) : State :=
  let u := (List.range 8).foldl (fun s p => (s.setFld p 0 0 HP_CFG.ALLOWED 0).setFld p 0 0 HP_CFG.REGS 1)
    (s.fresh.2.onBoot fun b => { b with refused := true, refusal := code })
  u.toFlashLog fun ovr => faultRecordBytes s.fresh.1 0 ovr 0xFFFF 0 (u.time 0) code 0 u.flash.boots

theorem State.refuseConfig_eq (code : Nat) : s.refuseConfig code = (s.refusedConfig code).lockBoot := rfl

theorem State.refusedConfig_keeps (code : Nat) : Keeps (oneOf [.free, .fcu, .regs])
    (s.onBoot fun b => { b with refused := true, refusal := code }) (s.refusedConfig code) := by
  unfold State.refusedConfig
  refine State.toFlashLog_keeps (Keeps.foldl (fun _ _ h => State.setFld_keeps (State.setFld_keeps h rfl) rfl) ?_) rfl
  exact Keeps.used .rfl (Nat.le_succ _) rfl

theorem State.lockBoot_boot : s.lockBoot.boot = { s.boot with locked := true, lastStep := 3 } := rfl

theorem State.lockBoot_mode : s.lockBoot.power.mode = s.power.mode := rfl

/-- A refused record: what it shows, and what it leaves (R441). -/
theorem State.refuseConfig_spec (code : Nat) :
    let t := s.refuseConfig code
    t.cfg = s.cfg ∧ t.boot = { s.boot with refused := true, refusal := code, locked := true, lastStep := 3 } ∧
      t.power.mode = s.power.mode ∧ t.fcu.rings = s.fcu.rings ∧
      ∀ p, p < 8 → t.fld p 0 0 HP_CFG.ALLOWED = 0 ∧ t.fld p 0 0 HP_CFG.REGS = 1 := by
  have hk := s.refusedConfig_keeps code
  have hrings : (s.refusedConfig code).fcu.rings = s.fcu.rings :=
    (State.toFlashLog_fcu _).1.trans (congrArg Fcu.rings
      ((Keeps.foldl (fun _ _ h => State.setFld_keeps (State.setFld_keeps h rfl) rfl) .rfl : Keeps (oneOf [.regs]) _ _).frame .fcu rfl))
  have hregs : ∀ p, p < 8 → (s.refusedConfig code).fld p 0 0 HP_CFG.ALLOWED = 0 ∧ (s.refusedConfig code).fld p 0 0 HP_CFG.REGS = 1 := by
    intro p hp
    have hplain := State.plainPorts_fld (s := s.fresh.2.onBoot fun b => { b with refused := true, refusal := code }) hp
    have hpair := Prod.mk.injEq .. ▸ hplain
    have hlog := State.toFlashLog_regs (s := (List.range 8).foldl (fun s p => (s.setFld p 0 0 HP_CFG.ALLOWED 0).setFld p 0 0 HP_CFG.REGS 1)
      (s.fresh.2.onBoot fun b => { b with refused := true, refusal := code }))
    exact ⟨(State.fld_of_regs_eq (hlog _) ..).trans hpair.1, (State.fld_of_regs_eq (hlog _) ..).trans hpair.2⟩
  have hcfg : (s.refusedConfig code).cfg = s.cfg := hk.frame .cfg rfl
  have hboot : (s.refusedConfig code).boot = { s.boot with refused := true, refusal := code } := hk.frame .boot rfl
  have hpower : (s.refusedConfig code).power = s.power := hk.frame .power rfl
  rw [State.refuseConfig_eq]
  generalize s.refusedConfig code = u at *
  have hlock := u.lockBoot_keepsParts
  refine ⟨(hlock.frame .cfg rfl).trans hcfg, ?boot, ?mode, (congrArg Fcu.rings (hlock.frame .fcu rfl)).trans hrings, fun p hp => ?_⟩
  case boot =>
    rw [State.lockBoot_boot, hboot]
  case mode => rw [State.lockBoot_mode, hpower]
  rw [State.fld_of_regs_eq (hlock.frame .regs rfl), State.fld_of_regs_eq (hlock.frame .regs rfl)]
  exact hregs p hp

/-! ### Steps 4 and 5 -/

theorem State.trainPorts_keeps : Keeps (oneOf [.sent, .fab]) s ((List.range 48).foldl (fun s p => if s.mayTrain p then s.trainPort p else s) s) :=
  Keeps.foldl (fun _ _ h => Keeps.ite (fun _ => State.trainPort_keeps h rfl rfl) fun _ => h) .rfl

/-! ### Step 6 -/

/-- What an operation on stack `stk` leaves of its start-up: its flags and the other stacks. -/
structure State.StackSteady (stk : Nat) (s t : State) : Prop where
  cleared : (t.stack stk).cleared = (s.stack stk).cleared
  calibrated : (t.stack stk).calibrated = (s.stack stk).calibrated
  failed : (s.stack stk).failed = true → (t.stack stk).failed = true
  others : ∀ k, k ≠ stk → t.stack k = s.stack k

/-- A change of one stack that keeps those flags. -/
def Stack.Steady (f : Stack → Stack) : Prop :=
  ∀ st, (f st).cleared = st.cleared ∧ (f st).calibrated = st.calibrated ∧ (st.failed = true → (f st).failed = true)

namespace State.StackSteady

variable {stk : Nat}

theorem rfl : s.StackSteady stk s := ⟨.refl _, .refl _, id, fun _ _ => .refl _⟩

theorem trans {u : State} (a : s.StackSteady stk t) (b : t.StackSteady stk u) : s.StackSteady stk u :=
  ⟨b.cleared.trans a.cleared, b.calibrated.trans a.calibrated, fun h => b.failed (a.failed h),
    fun k hk => (b.others k hk).trans (a.others k hk)⟩

theorem of_stackMap_eq (h : t.stackMap = s.stackMap) : s.StackSteady stk t := by
  have hk : ∀ k, t.stack k = s.stack k := State.stack_of_stackMap_eq h
  exact ⟨by rw [hk], by rw [hk], fun hf => by rwa [hk], fun k _ => hk k⟩

theorem raise (h : s.StackSteady stk t) (d id : Nat) (u : FaultUnit) (task detail : Nat) : s.StackSteady stk (t.raise d id u task detail) :=
  h.trans (of_stackMap_eq ((State.raise_keepsFaultParts d id u task detail).frame .stackMap (.refl _)))

theorem logRepair (h : s.StackSteady stk t) (r : Repair) : s.StackSteady stk (t.logRepair r) := h.trans (of_stackMap_eq (.refl _))

theorem onStack {f : Stack → Stack} (h : s.StackSteady stk t) (hf : Stack.Steady f) : s.StackSteady stk (t.onStack stk f) := by
  obtain ⟨hcleared, hcalibrated, hfailed⟩ := hf (t.stack stk)
  have hself : (t.onStack stk f).stack stk = f (t.stack stk) := State.stack_setStack_self ..
  exact h.trans ⟨by rw [hself, hcleared], by rw [hself, hcalibrated], fun hx => by rw [hself]; exact hfailed hx,
    fun k hk => State.stack_setStack_ne _ hk⟩

theorem foldl {α : Type} {f : State → α → State} (hf : ∀ u x, s.StackSteady stk u → s.StackSteady stk (f u x)) (l : List α)
    (h : s.StackSteady stk t) : s.StackSteady stk (l.foldl f t) := by
  induction l generalizing t with
  | nil => exact h
  | cons x l ih => exact ih (hf t x h)

theorem stackFailed (h : s.StackSteady stk t) : s.StackSteady stk (t.stackFailed stk) := by
  have hfail : Stack.Steady fun st => { st with failed := true } := fun _ => ⟨.refl _, .refl _, fun _ => .refl _⟩
  unfold State.stackFailed
  exact (h.onStack hfail).raise ..

theorem lost (h : s.StackSteady stk t) (f : Stack → List Lost) (banks : List (Nat × Nat)) :
    s.StackSteady stk (t.onStack stk fun st => st.lose (f st) banks) :=
  h.onStack fun _ => ⟨.refl _, .refl _, id⟩

theorem retireBank (h : s.StackSteady stk t) (die bank : Nat) : s.StackSteady stk (t.retireBank stk die bank) := by
  have hrec : ∀ gone, Stack.Steady fun st => (st.reconstruct die bank).lose gone [] := fun _ _ => ⟨.refl _, .refl _, id⟩
  have hlog := h.logRepair (.bank stk die bank)
  unfold State.retireBank
  extract_lets st u own twins at_ gone v
  split
  · exact h
  split
  · exact (hlog.lost (fun _ => _) _).stackFailed
  split
  · exact (hlog.lost (fun _ => _) _).stackFailed
  split
  · exact (hlog.lost (fun _ => _) _).stackFailed
  split
  · exact (hlog.onStack (hrec _)).raise ..
  · exact ((hlog.onStack (hrec _)).raise ..).stackFailed

theorem setChannel (h : s.StackSteady stk t) (ch : Nat) (c : Channel) :
    s.StackSteady stk (t.onStack stk fun st => { st with channels := mput st.channels ch c }) :=
  h.onStack fun _ => ⟨.refl _, .refl _, id⟩

theorem degrade (h : s.StackSteady stk t) : s.StackSteady stk (t.onStack stk fun st => { st with degraded := true }) :=
  h.onStack fun _ => ⟨.refl _, .refl _, id⟩

theorem reconstruct (h : s.StackSteady stk t) (die bank : Nat) : s.StackSteady stk (t.onStack stk fun st => st.reconstruct die bank) :=
  h.onStack fun _ => ⟨.refl _, .refl _, id⟩

theorem repairWire (h : s.StackSteady stk t) (ch : Nat) (control : Bool) : s.StackSteady stk (t.repairWire stk ch control) := by
  unfold State.repairWire
  extract_lets c put note u banks
  split
  · split
    · exact ((h.setChannel _ _).logRepair _).raise ..
    · have hlost : s.StackSteady stk (u.onStack stk fun st => { st with degraded := true }) := ((h.setChannel _ _).raise ..).degrade
      split
      · refine foldl (fun w q hw => ?_) _ hlost
        split
        · exact hw
        · exact ((hw.logRepair _).reconstruct ..).raise ..
      · exact foldl (fun w q hw => hw.retireBank ..) _ hlost
  · split
    · exact ((h.setChannel _ _).logRepair _).raise ..
    · exact ((h.setChannel _ _).degrade).raise ..

end State.StackSteady

end Boot

end Sys2Proof.Machine

/-! What memory reads and writes depend on: its bytes and poison, the fuses that place scratchpads, and the stacks' lost regions. -/

namespace Sys2Proof.Machine

open Sys2Proof

/-- Two states between which no read or write of memory tells. -/
structure State.SameMemory (s t : State) : Prop where
  mem : t.mem = s.mem
  fuses : t.fuses = s.fuses
  lost : ∀ k, (t.stack k).lost = (s.stack k).lost

namespace State.SameMemory

variable {s t : State}

theorem rfl : s.SameMemory s := ⟨.refl _, .refl _, fun _ => .refl _⟩

theorem symm (h : s.SameMemory t) : t.SameMemory s := ⟨h.mem.symm, h.fuses.symm, fun k => (h.lost k).symm⟩

theorem trans {u : State} (a : s.SameMemory t) (b : t.SameMemory u) : s.SameMemory u :=
  ⟨b.mem.trans a.mem, b.fuses.trans a.fuses, fun k => (b.lost k).trans (a.lost k)⟩

theorem of_keeps {F : Part → Bool} (h : Keeps F s t) (hmem : F .mem = false) (hfuses : F .fuses = false) (hstacks : F .stackMap = false) :
    s.SameMemory t :=
  ⟨h.frame .mem hmem, h.frame .fuses hfuses, fun k => congrArg Stack.lost (State.stack_of_stackMap_eq (h.frame .stackMap hstacks) k)⟩

theorem resolve (h : s.SameMemory t) (a : Nat) : t.resolve a = s.resolve a := by
  unfold State.resolve State.spmAt State.corePresent
  rw [h.fuses]

theorem noStorage (h : s.SameMemory t) (p : Nat) : t.noStorage p = s.noStorage p := by
  rw [State.noStorage, h.lost, State.noStorage]

theorem byteAt (h : s.SameMemory t) (l : Loc) : t.byteAt l = s.byteAt l := by
  unfold State.byteAt
  rw [h.mem]

theorem readBytes (h : s.SameMemory t) (a n : Nat) : t.readBytes a n = s.readBytes a n := by
  unfold State.readBytes State.readByte
  simp only [h.resolve, h.byteAt]

theorem readNat (h : s.SameMemory t) (a n : Nat) : t.readNat a n = s.readNat a n := by
  rw [State.readNat, h.readBytes, State.readNat]

theorem poisonedAt (h : s.SameMemory t) (a : Nat) : t.poisonedAt a = s.poisonedAt a := by
  unfold State.poisonedAt State.linePoisoned
  simp only [h.resolve, h.noStorage, h.mem]

theorem anyPoison (h : s.SameMemory t) (a n : Nat) : t.anyPoison a n = s.anyPoison a n := by
  unfold State.anyPoison
  simp only [h.poisonedAt]

theorem onMem (h : s.SameMemory t) (f : Memory → Memory) : (s.onMem f).SameMemory (t.onMem f) :=
  ⟨congrArg f h.mem, h.fuses, h.lost⟩

theorem writePiece (h : s.SameMemory t) (a : Nat) (data : List Byte) (poison : Bool) :
    (s.writePiece a data poison).SameMemory (t.writePiece a data poison) := by
  unfold State.writePiece State.writeLine
  simp only [h.resolve, h.noStorage]
  split
  · split
    · exact h
    · exact h.onMem _
  · exact h.onMem _
  · exact h

theorem writePieces (h : s.SameMemory t) (poison : Bool) (ps : List (Nat × Nat)) (data : List Byte) :
    (s.writePieces poison ps data).SameMemory (t.writePieces poison ps data) := by
  induction ps generalizing s t data with
  | nil => exact h
  | cons p ps ih => exact ih (h.writePiece ..) _

theorem writeBytes (h : s.SameMemory t) (a : Nat) (data : List Byte) : (s.writeBytes a data).SameMemory (t.writeBytes a data) :=
  h.writePieces ..

end State.SameMemory

end Sys2Proof.Machine

/-! Start-up's last steps: stacks cleared, and the module in Ready (R95, R309, R392, R432, R433). -/

namespace Sys2Proof.Machine

open Sys2Proof

section Boot

variable {s t : State}

/-! ### Step 6 -/

/-- The repair of the wires that the test of a stack found faulty (R89, R90). -/
def State.repairFound (s : State) (stk : Nat) (found : StackTest) : State :=
  found.wires.foldl (fun s w =>
    let s := (List.range w.2.1).foldl (fun s _ => s.repairWire stk w.1 false) s
    (List.range w.2.2).foldl (fun s _ => s.repairWire stk w.1 true) s) s

theorem State.repairFound_keeps (stk : Nat) (found : StackTest) : Keeps (oneOf [.flash, .fcu, .regs, .stackMap]) s (s.repairFound stk found) :=
  Keeps.foldl (fun _ _ h => Keeps.foldl (fun _ _ h => State.repairWire_keeps h rfl rfl rfl rfl)
    (Keeps.foldl (fun _ _ h => State.repairWire_keeps h rfl rfl rfl rfl) h)) .rfl

theorem State.repairFound_steady (stk : Nat) (found : StackTest) : s.StackSteady stk (s.repairFound stk found) :=
  .foldl (fun _ _ h => .foldl (fun _ _ h => h.repairWire ..) _ (.foldl (fun _ _ h => h.repairWire ..) _ h)) _ .rfl

/-- A stack that was calibrated and cleared, or failed to calibrate (R433). -/
def State.stackTested (s : State) (stk : Nat) (found : StackTest) : State :=
  let u := (s.initStack stk found).repairFound stk found
  if (u.stack stk).failed then u.raise (stk / 4) 0x4101 (scUnit stk) 0 (placedAddr stk 0 0 0 0) else u

theorem exec_stackInit_of_booting {stk : Nat} {found : StackTest} (hstk : stk < 32) (hmode : s.power.mode = .booting)
    (hrails : s.boot.railsUp = true) (hrefused : s.boot.refused = false) (hclear : (s.stack stk).cleared = false) :
    exec (.stackInit stk found) s = .next
      (if (List.range 32).all fun k => ((s.stackTested stk found).stack k).cleared then (s.stackTested stk found).stepDone 6
        else s.stackTested stk found) :=
  congrArg Host.Outcome.next (State.whenP_pos ⟨hstk, hmode, hrails, hrefused, hclear⟩)

theorem State.initStack_stack_self (stk : Nat) (found : StackTest) :
    (s.initStack stk found).stack stk = Stack.initialised stk s.flash.repair { freshStack with rate := (s.stack stk).rate } found :=
  State.stack_setStack_self ..

theorem State.initStack_stack_ne {stk k : Nat} (found : StackTest) (hk : k ≠ stk) : (s.initStack stk found).stack k = s.stack k :=
  State.stack_setStack_ne _ hk

theorem Stack.initialised_cleared (stk : Nat) (log : List Repair) (st : Stack) (found : StackTest) :
    (Stack.initialised stk log st found).cleared = true := by
  unfold Stack.initialised
  split <;> rfl

theorem Stack.initialised_calibrated (stk : Nat) (log : List Repair) {st : Stack} (found : StackTest) (hst : st.calibrated = false) :
    (Stack.initialised stk log st found).calibrated = found.calibrated := by
  unfold Stack.initialised
  split
  next h => rw [hst]; exact (Bool.not_eq_true' _ ▸ h).symm
  next h => exact (by simpa using h : found.calibrated = true).symm

theorem Stack.initialised_failed (stk : Nat) (log : List Repair) (st : Stack) {found : StackTest} (hfound : found.calibrated = false) :
    (Stack.initialised stk log st found).failed = true := by
  unfold Stack.initialised
  rw [if_pos (by simp [hfound])]

/-- A placed address in the memory of a stack. -/
def inStack (stk q : Nat) : Bool := decide (placedBase ≤ q ∧ q < 0x140000000000 ∧ placedStack q = stk)

theorem State.initStack_byteAt {stk : Nat} (found : StackTest) (hwf : s.mem.wf = true) (q : Nat) :
    (s.initStack stk found).byteAt (.mem q) = if inStack stk q then blankByte else s.byteAt (.mem q) := by
  have hcells : (s.initStack stk found).mem.cells = s.mem.cells.filter fun c => !inStack stk c.1 := rfl
  rw [State.byteAt, hcells, mget_filter_key (State.cells_wf hwf) fun k => !inStack stk k]
  cases inStack stk q <;> rfl

theorem State.stackTested_steady (stk : Nat) (found : StackTest) : (s.initStack stk found).StackSteady stk (s.stackTested stk found) := by
  have hrep := (s.initStack stk found).repairFound_steady stk found
  unfold State.stackTested
  dsimp only
  split
  · exact hrep.raise ..
  · exact hrep

theorem State.stackTested_mem (stk : Nat) (found : StackTest) : (s.stackTested stk found).mem = (s.initStack stk found).mem := by
  have hrep := (s.initStack stk found).repairFound_keeps stk found
  exact ((Keeps.ite (fun _ => State.raise_keeps hrep rfl rfl rfl) fun _ => hrep :
    Keeps (oneOf [.flash, .fcu, .regs, .stackMap]) (s.initStack stk found) (s.stackTested stk found))).frame .mem rfl

/-! ### Step 7 -/

theorem State.initFrames_mem_of_same (h : s.SameMemory t) (hcfg : t.cfg = s.cfg) : t.initFrames.mem = s.initFrames.mem := by
  have hentries : ∀ {u v : State}, v.cfg = u.cfg → ∀ n, v.entries n = u.entries n := fun hc n => by rw [State.entries, hc, State.entries]
  have hbanks : ∀ {u v : State}, v.cfg = u.cfg → v.poolBanks = u.poolBanks := fun hc => by
    rw [State.poolBanks, State.pools, hentries hc, State.poolBanks, State.pools]
  have hstep : ∀ {u v : State} (f : Nat), u.SameMemory v → v.cfg = u.cfg →
      (u.setFd f 0x10 8 (u.frameAddr f)).SameMemory (v.setFd f 0x10 8 (v.frameAddr f)) := by
    intro u v f hs hc
    rw [State.setFd, State.setFd, State.kvRegion, State.kvRegion, State.frameAddr, State.frameAddr, State.frameBank, State.frameBank,
      hentries hc, hbanks hc]
    exact hs.writeBytes ..
  have hcfgStep : ∀ {u : State} (f : Nat), (u.setFd f 0x10 8 (u.frameAddr f)).cfg = u.cfg := fun {u} f =>
    (State.setFd_keeps .rfl rfl : Keeps (oneOf [.mem]) u _).frame .cfg rfl
  have hfold : ∀ (l : List Nat) {u v : State}, u.SameMemory v → v.cfg = u.cfg →
      (l.foldl (fun s f => s.setFd f 0x10 8 (s.frameAddr f)) u).SameMemory (l.foldl (fun s f => s.setFd f 0x10 8 (s.frameAddr f)) v) := by
    intro l
    induction l with
    | nil => exact fun hs _ => hs
    | cons f l ih => exact fun hs hc => ih (hstep f hs hc) (by rw [hcfgStep, hcfgStep, hc])
  unfold State.initFrames
  rw [hbanks hcfg]
  exact (hfold _ h hcfg).mem

/-- Memory_Active set on every host port that has come up (R392). -/
def State.activatePorts (s : State) : State :=
  (List.range 8).foldl (fun s p => if (s.port p).proto = 0 then s else s.onPort p fun x => { x with memActive := true }) s

theorem State.port_onPort_self (p : Nat) (f : HostPort → HostPort) : (s.onPort p f).port p = f (s.port p) := mget_mput_self

theorem State.port_onPort_ne {p q : Nat} (f : HostPort → HostPort) (h : p ≠ q) : (s.onPort q f).port p = s.port p := mget_mput_ne h

theorem State.activatePorts_port {p : Nat} (hp : p < 8) :
    s.activatePorts.port p = if (s.port p).proto = 0 then s.port p else { s.port p with memActive := true } := by
  unfold State.activatePorts
  refine (foldl_at (get := fun u : State => u.port p) (g := fun x => if x.proto = 0 then x else { x with memActive := true }) ?self ?other
    List.nodup_range s).trans (if_pos (List.mem_range.2 hp))
  case self =>
    intro u
    by_cases h : (u.port p).proto = 0
    · rw [if_pos h, if_pos h]
    · rw [if_neg h, if_neg h, State.port_onPort_self]
  case other =>
    intro u j hj
    split
    · rfl
    · exact State.port_onPort_ne _ hj.symm

theorem State.activatePorts_keeps : Keeps (oneOf [.ports]) s s.activatePorts :=
  Keeps.foldl (fun _ _ h => Keeps.ite (fun _ => h) fun _ => State.onPort_keeps h rfl) .rfl

theorem exec_enterReady_of_cleared (hmode : s.power.mode = .booting) (hok : s.boot.configOk = true)
    (hcleared : ∀ k, k < 32 → (s.stack k).cleared = true) :
    exec .enterReady s = .next ((s.activatePorts.initFrames.onPower fun p => { p with mode := .ready }).stepDone 7) :=
  congrArg Host.Outcome.next (State.whenP_pos ⟨hmode, hok, List.all_eq_true.2 fun k hk => hcleared k (List.mem_range.1 hk)⟩)

theorem State.initFrames_keepsMem : Keeps (oneOf [.mem]) s s.initFrames := State.initFrames_keeps .rfl rfl

end Boot

/-- A record that no rule refuses is taken and locked (R438 to R440). -/
theorem exec_configLoad_accepted :
    ∀ (s : State) (sigOk : Bool) (r : Record), s.power.mode = .booting → s.boot.railsUp = true → s.boot.locked = false →
    s.flash.record = some r → recordRefusal s.fuses s.power.straps r sigOk = none →
    ∃ t, exec (.configLoad sigOk) s = .next t ∧ t.cfg = some r ∧ t.boot.configOk = true ∧ t.boot.locked = true ∧ t.boot.lastStep = 3 ∧
      t.boot.refused = s.boot.refused ∧ t.power.mode = .booting ∧ t.mem = s.mem ∧ t.flash = s.flash := by
  intro s sigOk r hmode hrails hlock hrecord haccepted
  have hexec := exec_configLoad_of_record (sigOk := sigOk) hmode hrails hlock hrecord
  rw [haccepted] at hexec
  dsimp only at hexec
  have howned := s.owned_keeps r sigOk
  have hpower : (s.owned r sigOk).power = s.power := (howned.frame .power rfl).trans State.onBoot_power
  have hboot : (s.owned r sigOk).boot = s.noted.boot := howned.frame .boot rfl
  have hmem : (s.owned r sigOk).mem = s.mem := (howned.frame .mem rfl).trans State.onBoot_mem
  have hflash : (s.owned r sigOk).flash = s.flash := (howned.frame .flash rfl).trans State.onBoot_flash
  have hk := State.applyEntries_keeps (s := { s.owned r sigOk with cfg := some r }) (r.sections.flatMap (·.entries))
  have hm := State.applyEntries_mode (s := { s.owned r sigOk with cfg := some r }) (r.sections.flatMap (·.entries))
  refine ⟨_, hexec, ?_⟩
  generalize (r.sections.flatMap (·.entries)).foldl State.applyEntry { s.owned r sigOk with cfg := some r } = u at hk hm ⊢
  have hub : u.boot = s.noted.boot := (hk.frame .boot rfl).trans hboot
  have hum : u.power.mode = .booting := hm.trans ((congrArg Power.mode hpower).trans hmode)
  have hur : u.boot.refused = s.boot.refused := by rw [hub, State.noted, State.onBoot_boot]
  exact ⟨hk.frame .cfg rfl, rfl, rfl, rfl, hur, hum, (hk.frame .mem rfl).trans hmem, (hk.frame .flash rfl).trans hflash⟩

/-- Any other record is refused with its code (R441). -/
theorem exec_configLoad_refused :
    ∀ (s : State) (sigOk : Bool) (r : Record) (code : Nat), s.power.mode = .booting → s.boot.railsUp = true → s.boot.locked = false →
    s.flash.record = some r → recordRefusal s.fuses s.power.straps r sigOk = some code →
    ∃ t, exec (.configLoad sigOk) s = .next t ∧ t.cfg = s.cfg ∧ t.boot.configOk = s.boot.configOk ∧ t.boot.locked = true ∧ t.boot.refused = true ∧
      t.boot.refusal = code ∧ t.power.mode = .booting ∧ t.fcu.rings = s.fcu.rings ∧ ∀ p, p < 8 → t.fld p 0 0 HP_CFG.ALLOWED = 0 ∧ t.fld p 0 0 HP_CFG.REGS = 1 := by
  intro s sigOk r code hmode hrails hlock hrecord hrefused
  have hexec := exec_configLoad_of_record (sigOk := sigOk) hmode hrails hlock hrecord
  rw [hrefused] at hexec
  dsimp only at hexec
  have howned := s.owned_keeps r sigOk
  have hpower : (s.owned r sigOk).power = s.power := (howned.frame .power rfl).trans State.onBoot_power
  have hfcu : (s.owned r sigOk).fcu = s.fcu := (howned.frame .fcu rfl).trans State.onBoot_fcu
  obtain ⟨hcfg, hboot, hm, hrings, hports⟩ := (s.owned r sigOk).refuseConfig_spec code
  have hownedBoot : (s.owned r sigOk).boot = s.noted.boot := howned.frame .boot rfl
  refine ⟨_, hexec, hcfg.trans ((howned.frame .cfg rfl).trans State.onBoot_cfg), ?_, ?_, ?_, ?_, ?_, ?_, hports⟩
  · rw [hboot, hownedBoot]
    rfl
  · rw [hboot]
  · rw [hboot]
  · rw [hboot]
  · rw [hm, hpower, hmode]
  · rw [hrings, hfcu]

/-- A stack is tested, repaired and cleared (R95, R432, R433). -/
theorem exec_stackInit_clears :
    ∀ (s : State) (stk : Nat) (found : StackTest), stk < 32 → s.power.mode = .booting → s.boot.railsUp = true → s.boot.refused = false →
    (s.stack stk).cleared = false → s.mem.wf = true →
    ∃ t, exec (.stackInit stk found) s = .next t ∧ (t.stack stk).cleared = true ∧ (t.stack stk).calibrated = found.calibrated ∧
      (found.calibrated = false → (t.stack stk).failed = true) ∧ (∀ k, k ≠ stk → t.stack k = s.stack k) ∧
      (∀ q, placedBase ≤ q → q < 0x140000000000 → placedStack q = stk → t.byteAt (.mem q) = blankByte) ∧
      (∀ q, placedStack q ≠ stk → t.byteAt (.mem q) = s.byteAt (.mem q)) := by
  intro s stk found hstk hmode hrails hrefused hclear hwf
  have hexec := exec_stackInit_of_booting (found := found) hstk hmode hrails hrefused hclear
  have hsteady := s.stackTested_steady stk found
  have hmem := s.stackTested_mem stk found
  have hbytes : ∀ q, (s.stackTested stk found).byteAt (.mem q) = if inStack stk q then blankByte else s.byteAt (.mem q) := fun q => by
    rw [← State.initStack_byteAt found hwf q, State.byteAt, hmem, State.byteAt]
  refine ⟨_, hexec, ?_⟩
  have hspec : ((s.stackTested stk found).stack stk).cleared = true ∧ ((s.stackTested stk found).stack stk).calibrated = found.calibrated ∧
      (found.calibrated = false → ((s.stackTested stk found).stack stk).failed = true) ∧
      (∀ k, k ≠ stk → (s.stackTested stk found).stack k = s.stack k) ∧
      (∀ q, placedBase ≤ q → q < 0x140000000000 → placedStack q = stk → (s.stackTested stk found).byteAt (.mem q) = blankByte) ∧
      (∀ q, placedStack q ≠ stk → (s.stackTested stk found).byteAt (.mem q) = s.byteAt (.mem q)) := by
    refine ⟨?_, ?_, fun hf => hsteady.failed ?_, fun k hk => ?_, fun q hlo hhi hq => ?_, fun q hq => ?_⟩
    · rw [hsteady.cleared, State.initStack_stack_self, Stack.initialised_cleared]
    · rw [hsteady.calibrated, State.initStack_stack_self, Stack.initialised_calibrated _ _ _ rfl]
    · rw [State.initStack_stack_self, Stack.initialised_failed _ _ _ hf]
    · rw [hsteady.others k hk, State.initStack_stack_ne found hk]
    · rw [hbytes, if_pos (show inStack stk q = true from decide_eq_true ⟨hlo, hhi, hq⟩)]
    · rw [hbytes, if_neg (by simp [inStack, hq])]
  split
  · exact hspec
  · exact hspec

/-- The module in Ready, with every frame's descriptor in memory (R309, R392). -/
theorem exec_enterReady_readies :
    ∀ s : State, s.power.mode = .booting → s.boot.configOk = true → (∀ k, k < 32 → (s.stack k).cleared = true) →
    ∃ t, exec .enterReady s = .next t ∧ t.power = { s.power with mode := .ready } ∧ t.boot = { s.boot with lastStep := 7 } ∧
      (∀ p, p < 8 → (s.port p).proto ≠ 0 → t.port p = { s.port p with memActive := true }) ∧
      (∀ p, p < 8 → (s.port p).proto = 0 → t.port p = s.port p) ∧ t.mem = s.initFrames.mem ∧
      t = { s with power := t.power, boot := t.boot, ports := t.ports, mem := t.mem } := by
  intro s hmode hok hcleared
  have hp := s.activatePorts_keeps
  have hf := s.activatePorts.initFrames_keepsMem
  have hframes : s.activatePorts.initFrames.mem = s.initFrames.mem :=
    State.initFrames_mem_of_same (.of_keeps hp rfl rfl rfl) (hp.frame .cfg rfl)
  have hpower : s.activatePorts.initFrames.power = s.power := (hf.frame .power rfl).trans (hp.frame .power rfl)
  have hboot : s.activatePorts.initFrames.boot = s.boot := (hf.frame .boot rfl).trans (hp.frame .boot rfl)
  have hports : ∀ p, p < 8 → s.activatePorts.initFrames.port p =
      if (s.port p).proto = 0 then s.port p else { s.port p with memActive := true } := fun p hp8 => by
    rw [← State.activatePorts_port hp8, State.port, hf.frame .ports rfl, State.port]
  have hframe : s.activatePorts.initFrames = { s with ports := s.activatePorts.initFrames.ports, mem := s.activatePorts.initFrames.mem } :=
    ((hp.widen (l' := [.ports, .mem]) (by decide)).trans (hf.widen (by decide))).eq_graft
  have hexec := exec_enterReady_of_cleared hmode hok hcleared
  generalize s.activatePorts.initFrames = u at *
  refine ⟨_, hexec, ?_⟩
  have htpower : ((u.onPower fun p => { p with mode := .ready }).stepDone 7).power = { s.power with mode := .ready } := by
    rw [State.stepDone, State.onBoot_power, State.onPower_power, hpower]
  have htboot : ((u.onPower fun p => { p with mode := .ready }).stepDone 7).boot = { s.boot with lastStep := 7 } := by
    rw [State.stepDone, State.onBoot_boot, State.onPower_boot, hboot]
  have htmem : ((u.onPower fun p => { p with mode := .ready }).stepDone 7).mem = u.mem := rfl
  have htports : ((u.onPower fun p => { p with mode := .ready }).stepDone 7).ports = u.ports := rfl
  have htport : ∀ p, ((u.onPower fun p => { p with mode := .ready }).stepDone 7).port p = u.port p := fun _ => rfl
  have hrest : (u.onPower fun p => { p with mode := .ready }).stepDone 7 = { u with
      power := ((u.onPower fun p => { p with mode := .ready }).stepDone 7).power,
      boot := ((u.onPower fun p => { p with mode := .ready }).stepDone 7).boot } := rfl
  generalize (u.onPower fun p => { p with mode := .ready }).stepDone 7 = t at *
  refine ⟨htpower, htboot, fun p hp8 hproto => ?_, fun p hp8 hproto => ?_, htmem.trans hframes, ?_⟩
  · rw [htport, hports p hp8, if_neg hproto]
  · rw [htport, hports p hp8, if_pos hproto]
  · rw [htports, htmem]
    exact hrest.trans (congrArg (fun v : State => { v with power := t.power, boot := t.boot }) hframe)

/-- Settles O11: step by step, by what each leaves. -/
theorem bootRunsItsSteps : Obligations.BootRunsItsSteps := by
  unfold Obligations.BootRunsItsSteps
  refine ⟨⟨?verified, ?recovery, ?rails, ?accepted, ?refused⟩, ⟨?lasers, ?locked, ?stack, ?ready, ?stalled⟩⟩
  case verified => exact fun s sigOk => exec_bootFirmwareVerify_of_runs
  case recovery =>
    intro s sigOk hmode hfw hruns
    obtain ⟨trusted, hexec⟩ := exec_bootFirmwareVerify_of_not_runs hmode hfw hruns
    have hk := s.enterRecovery_keeps_parts trusted
    refine ⟨_, hexec, ?_, s.enterRecovery_boot trusted, ?_, ?_⟩
    · rw [hk.frame .power rfl, State.onBoot_power, State.onPower_power]
    · rw [hk.frame .flash rfl, State.onBoot_flash, State.onPower_flash]
    · rw [hk.frame .fuses rfl, State.onBoot_fuses, State.onPower_fuses]
  case rails =>
    intro s ambient rs hmode hfw hdown
    obtain ⟨cold, hcold, hexec⟩ := exec_railsUp_of_booting (s := s) (ambient := ambient) (rs := rs) hmode hfw hdown
    obtain ⟨hboot, hmem, hcfg, -, hrails, hshut, hambient⟩ := s.samePowerUp_railsUp ambient rs hmode
    refine ⟨_, hexec, ?_⟩
    generalize s.railsUp ambient rs = u at *
    rw [State.onBoot_boot, State.onPower_boot] at hboot
    rw [State.onBoot_mem, State.onPower_mem] at hmem
    rw [State.onBoot_cfg, State.onPower_cfg] at hcfg
    rw [State.onBoot_power, State.onPower_power] at hrails hshut hambient
    cases cold with
    | true => exact ⟨hboot, hrails, hshut, hambient, fun _ => rfl, hmem, hcfg⟩
    | false => exact ⟨hboot, hrails, hshut, hambient, fun h => absurd (hcold h) Bool.false_ne_true, hmem, hcfg⟩
  case accepted => exact exec_configLoad_accepted
  case refused => exact exec_configLoad_refused
  case lasers =>
    intro s hmode hlock hoff
    refine congrArg Host.Outcome.next ((State.whenP_pos ⟨hmode, hlock, hoff⟩).trans ?_)
    by_cases hrefused : s.boot.refused = true
    · exact (if_pos hrefused).trans (by rw [if_pos hrefused]; rfl)
    · exact (if_neg hrefused).trans (by rw [if_neg hrefused]; rfl)
  case locked =>
    intro s hmode hon hunlocked hok
    have hk := (s.onBoot fun b => { b with lasersLocked := true }).trainPorts_keeps
    refine ⟨_, congrArg Host.Outcome.next ((State.whenP_pos ⟨.inl hmode, hon, hunlocked, hok⟩).trans (if_neg ?_)), ?_⟩
    · rw [hk.frame .power rfl]
      simp [hmode]
    · generalize (List.range 48).foldl (fun s p => if State.mayTrain s p then State.trainPort s p else s) _ = u at hk ⊢
      have hboot : u.boot = { s.boot with lasersLocked := true } := hk.frame .boot rfl
      refine ⟨by rw [State.stepDone, State.onBoot_boot, hboot], ?_⟩
      rw [hk.eq_graft]
      rfl
  case stack => exact exec_stackInit_clears
  case ready => exact exec_enterReady_readies
  case stalled => exact fun s hmode => congrArg Host.Outcome.next (State.whenP_pos hmode)

end Sys2Proof.Machine

/-! O17 fails: a class D fault of a core completes DE0's STORE walks in flight (R183), so it may change memory. -/

namespace Sys2Proof.Machine

open Sys2Proof

/-- A STORE of DE0 that has one byte still to write, at the start of the core's scratchpad. -/
def heldStore : Job where
  id := 0
  x := false
  index := 0
  word := Enc7.opSTORE * 2 ^ 120
  replay := 0
  base := spmBase 0 0
  arg := 0
  de0 := true
  pos := 1
  pops := []
  units := 0
  formed := false
  tail := [1]
  scales := []
  pushes := []
  pushQ := none
  tally := Enc7.noTally

/-- Core 0 of die 0 with that STORE in flight, within its window. -/
def storing : State :=
  { State.reset with cores := [(0, { freshCore with jobs := [heldStore], windows := [(spmBase 0 0, 64)] })] }

/-- The memory that a command leaves. -/
def memoryAfter (o : Host.Outcome State Fault Refusal) : Option Memory :=
  match o with
  | .next t => some t.mem
  | _ => none

/-- Refutes O17: the fault's core has a STORE walk in flight, whose last byte is written before the core stops; memory is not what it was. -/
theorem not_detectedFaultsReactAndTestsEnd : ¬ Obligations.DetectedFaultsReactAndTestsEnd := by
  unfold Obligations.DetectedFaultsReactAndTestsEnd
  intro ⟨⟨_, hcore, _⟩, _⟩
  obtain ⟨t, hexec, _, hmem⟩ := hcore storing 0 0 0x8203 0 0 (by decide) (by decide) (by decide) (by decide +kernel)
  have hafter : memoryAfter (exec (.faultRecord 0 0x8203 (.core 0) 0 0) storing) = some storing.mem := by rw [hexec, ← hmem]; rfl
  have hstored : memoryAfter (exec (.faultRecord 0 0x8203 (.core 0) 0 0) storing) ≠ some storing.mem := by decide +kernel
  exact hstored hafter

end Sys2Proof.Machine

/-! Safe (R465 to R467), the flash log, the heartbeat and the pulse (R470, R472), and hosts' accesses in Safe (R466). -/

namespace Sys2Proof.Machine

open Sys2Proof

section Safe

variable {s : State}

/-! ### Entry -/

theorem regOff_fcuStatus_lt : regOff .FCU_STATUS 0 0 < 2 ^ 28 := by decide

theorem State.markSafe_fld {e : Nat} (id : Nat) (he : e < 8) :
    (s.markSafe id).fld e 0 0 FCU_STATUS.SAFE = 1 ∧ (s.markSafe id).fld e 0 0 FCU_STATUS.FIRST_M = id % 2 ^ 16 := by
  have hrange : e ∈ List.range 8 := List.mem_range.2 he
  have hother : ∀ (f : RF), f.reg = .FCU_STATUS → ∀ (u : State) (d : Nat), d ≠ e →
      ((u.setFld d 0 0 FCU_STATUS.SAFE 1).setFld d 0 0 FCU_STATUS.FIRST_M id).fld e 0 0 f = u.fld e 0 0 f := fun f hf u d hd => by
    have hkey : regKey e f.reg 0 0 ≠ regKey d .FCU_STATUS 0 0 := by
      rw [hf]
      exact regKey_ne_of_die hd.symm regOff_fcuStatus_lt regOff_fcuStatus_lt
    rw [State.fld_setFld_ne hkey, State.fld_setFld_ne hkey]
  constructor
  · refine (foldl_at (get := fun u : State => u.fld e 0 0 FCU_STATUS.SAFE) (g := fun _ => 1) (k := e) (fun u => ?_)
      (hother _ rfl) List.nodup_range s).trans (if_pos hrange)
    rw [State.fld_setFld_other (f := FCU_STATUS.FIRST_M) (g := FCU_STATUS.SAFE) (by decide) (by decide) rfl (by decide),
      State.fld_setFld_self (by decide) (by decide)]
    rfl
  · exact (foldl_at (get := fun u : State => u.fld e 0 0 FCU_STATUS.FIRST_M) (g := fun _ => id % 2 ^ 16) (k := e)
      (fun u => State.fld_setFld_self (by decide) (by decide)) (hother _ rfl) List.nodup_range s).trans (if_pos hrange)

theorem State.markSafe_keeps (id : Nat) : Keeps (oneOf [.regs]) s (s.markSafe id) :=
  Keeps.foldl (fun _ _ h => State.setFld_keeps (State.setFld_keeps h rfl) rfl) .rfl

/-- The decision dated, banks and waiting accesses dropped: what `quiesce` does before the stacks sleep. -/
def State.haltAccesses (s : State) : State :=
  ({ s.onFcu fun f => { f with safetyRing := [], safeSince := some (s.time 0) } with banks := [] } : State).onMem
    fun m => { m with held := [], snoops := [], obtained := [], owned := [] }

theorem State.quiesce_eq : s.quiesce = s.sendDowns.abandonWork.haltAccesses.sleepStacks := rfl

theorem State.haltAccesses_spec : s.haltAccesses.fcu.safetyRing = [] ∧ s.haltAccesses.banks = [] ∧
    s.haltAccesses.mem = { s.mem with held := [], snoops := [], obtained := [], owned := [] } := ⟨rfl, rfl, rfl⟩

theorem State.quiesce_spec : s.quiesce.fcu.safetyRing = [] ∧ s.quiesce.banks = [] ∧
    s.quiesce.mem = { s.mem with held := [], snoops := [], obtained := [], owned := [] } := by
  have hwork : Keeps (oneOf [.sent, .baus, .seqs, .cores, .kept, .kv, .fab]) s s.sendDowns.abandonWork :=
    State.abandonWork_keeps (State.sendDowns_keeps .rfl rfl rfl) rfl rfl rfl rfl rfl rfl
  have hmem : s.sendDowns.abandonWork.mem = s.mem := hwork.frame .mem rfl
  rw [State.quiesce_eq, ← hmem]
  generalize s.sendDowns.abandonWork = w
  have hsleep : Keeps (oneOf [.stackMap]) w.haltAccesses w.haltAccesses.sleepStacks := State.sleepStacks_keeps .rfl rfl
  obtain ⟨hring, hbanks, hmem⟩ := w.haltAccesses_spec
  generalize w.haltAccesses = v at hsleep hring hbanks hmem
  exact ⟨(congrArg Fcu.safetyRing (hsleep.frame .fcu rfl)).trans hring, (hsleep.frame .banks rfl).trans hbanks,
    (hsleep.frame .mem rfl).trans hmem⟩

theorem State.mem_sent_reportSafe {p : Nat} (hp : p < 8) : Sent.aer p ∈ s.reportSafe.sent := by
  have hsend : ∀ l : List Nat, ∀ u : State, (l.foldl (fun s p => s.send (.aer p)) u).sent = u.sent ++ l.map Sent.aer := by
    intro l
    induction l with
    | nil => exact fun u => (List.append_nil _).symm
    | cons p l ih =>
      intro u
      rw [List.foldl_cons, ih, State.send, List.map_cons, List.append_assoc]
      rfl
  rw [State.reportSafe, hsend]
  exact List.mem_append_right _ (List.mem_map.2 ⟨p, List.mem_range.2 hp, rfl⟩)

theorem exec_safeStateEntry_enters :
    ∀ (s : State) (d id : Nat) (rest : List (Nat × Nat)), s.fcu.safetyRing = (d, id) :: rest → s.power.mode ≠ .safe → s.power.mode ≠ .off →
    ∃ t, exec .safeStateEntry s = .next t ∧ t.power.mode = .safe ∧ t.power.pulse = true ∧ t.fcu.safetyRing = [] ∧ t.banks = [] ∧
      t.mem = { s.mem with held := [], snoops := [], obtained := [], owned := [] } ∧ (∀ p, p < 8 → Sent.aer p ∈ t.sent) ∧
      ∀ e, e < 8 → t.fld e 0 0 FCU_STATUS.SAFE = 1 ∧ t.fld e 0 0 FCU_STATUS.FIRST_M = id % 2 ^ 16 := by
  intro s d id rest hring hsafe hoff
  have hexec := exec_safeStateEntry_of_ring hoff hsafe hring
  have hmark := fun e => s.markSafe_fld (e := e) id
  have hmarked := (s.markSafe_keeps id).frame .mem rfl
  generalize s.markSafe id = m at *
  obtain ⟨hempty, hbanks, hmem⟩ := m.quiesce_spec
  have hfld := m.quiesce_fld
  generalize m.quiesce = q at *
  have hreport := (q.onPower fun p => { p with mode := .safe, pulse := true }).reportSafe_keeps
  have hsent := fun p => (q.onPower fun p => { p with mode := .safe, pulse := true }).mem_sent_reportSafe (p := p)
  have hpower : (q.onPower fun p => { p with mode := .safe, pulse := true }).reportSafe.power = { q.power with mode := .safe, pulse := true } :=
    (hreport.frame .power rfl).trans State.onPower_power
  have hrest : (q.onPower fun p => { p with mode := .safe, pulse := true }).reportSafe.fcu = q.fcu ∧
      (q.onPower fun p => { p with mode := .safe, pulse := true }).reportSafe.banks = q.banks ∧
      (q.onPower fun p => { p with mode := .safe, pulse := true }).reportSafe.mem = q.mem :=
    ⟨(hreport.frame .fcu rfl).trans State.onPower_fcu, (hreport.frame .banks rfl).trans State.onPower_banks,
      (hreport.frame .mem rfl).trans State.onPower_mem⟩
  have hreg : ∀ d u i f, (q.onPower fun p => { p with mode := .safe, pulse := true }).reportSafe.fld d u i f = q.fld d u i f := fun d u i f => by
    rw [State.reportSafe_fld, State.onPower_fld]
  generalize (q.onPower fun p => { p with mode := .safe, pulse := true }).reportSafe = r at *
  obtain ⟨hfcu, hbank, hrmem⟩ := hrest
  refine ⟨_, hexec, ?_⟩
  rw [State.drivePin]
  refine ⟨?_, ?_, ?_, ?_, ?_, hsent, fun e he => ?_⟩
  · rw [State.onPower_power, hpower]
  · rw [State.onPower_power, hpower]
  · rw [State.onPower_fcu, hfcu, hempty]
  · rw [State.onPower_banks, hbank, hbanks]
  · rw [State.onPower_mem, hrmem, hmem, show m.mem = s.mem from hmarked]
  · rw [State.onPower_fld, hreg, hfld, State.onPower_fld, hreg, hfld]
    exact hmark e he

/-! ### The automatic reset -/

theorem State.restartReady_of_blocked (h : s.fld 0 0 0 FCU_SAFE_CFG.RESTART = 0 ∨ s.power.busShut = true) : s.restartReady = false := by
  rcases h with hoff | hshut
  · simp [State.restartReady, hoff]
  · simp [State.restartReady, hshut]

/-! ### The pin -/

theorem exec_heartbeatToggle_of_mode (hlocked : s.boot.locked = true) (hsafe : s.power.mode ≠ .safe) (hoff : s.power.mode ≠ .off)
    (hmode : s.fld 0 0 0 FCU_PIN_CFG.MODE = 0) (hhold : s.fld 0 0 0 FCU_PIN_HOLD.HOLD = 0) :
    exec .heartbeatToggle s = .next { s with power := { s.power with pin := if s.power.pin = .high then .low else .high } } :=
  congrArg Host.Outcome.next (State.whenP_pos ⟨hlocked, hsafe, hoff, hmode, hhold⟩)

theorem State.pinLevel_of_pulse_end (hsafe : s.power.mode = .safe) (hpulse : s.power.pulse = false) (hlocked : s.boot.locked = true)
    (hmode : s.fld 0 0 0 FCU_PIN_CFG.MODE = 1) (hhold : s.fld 0 0 0 FCU_PIN_HOLD.HOLD = 0) : s.pinLevel = .high := by
  simp [State.pinLevel, hsafe, hpulse, hlocked, hmode, hhold]

theorem exec_faultPulseEnd_of_pulse (hsafe : s.power.mode = .safe) (hpulse : s.power.pulse = true) (hlocked : s.boot.locked = true)
    (hmode : s.fld 0 0 0 FCU_PIN_CFG.MODE = 1) (hhold : s.fld 0 0 0 FCU_PIN_HOLD.HOLD = 0) :
    exec .faultPulseEnd s = .next { s with power := { s.power with pulse := false, pin := .high } } := by
  have hlevel : (s.onPower fun p => { p with pulse := false }).pinLevel = .high :=
    State.pinLevel_of_pulse_end hsafe rfl hlocked hmode hhold
  refine congrArg Host.Outcome.next ((State.whenP_pos ⟨hsafe, hpulse⟩).trans ?_)
  rw [State.drivePin, hlevel]
  rfl

/-! ### Hosts' accesses -/

theorem State.access_of_safe {x : HeldAccess} (h : s.power.mode = .safe) : s.access x = s.accessSafe x := by
  rw [State.access, if_neg (by simp [h]), if_pos h]

end Safe

/-- Settles O18: entry stage by stage, the rest by each command's own condition. -/
theorem safeStateIsEnteredServedAndLeft : Obligations.SafeStateIsEnteredServedAndLeft := by
  unfold Obligations.SafeStateIsEnteredServedAndLeft
  refine ⟨⟨exec_safeStateEntry_enters, ?reset, ?wait, fun s => State.restartReady_of_blocked⟩,
    ⟨fun _ => rfl, fun s => exec_heartbeatToggle_of_mode, fun s => exec_faultPulseEnd_of_pulse⟩, ?read, ?write⟩
  case reset => exact fun s hsafe hready => congrArg Host.Outcome.next (State.when_pos (by simp [hsafe, hready]))
  case wait => exact fun s hsafe hready => congrArg Host.Outcome.next (State.when_neg (by simp [hready]))
  case read => exact fun s port rid a n hold hsafe => congrArg Host.Outcome.next (State.access_of_safe hsafe)
  case write => exact fun s port rid a data poison hsafe => congrArg Host.Outcome.next (State.access_of_safe hsafe)

end Sys2Proof.Machine

/-! Links (R459, R461, R463): parity errors, retraining and links taken down. -/

namespace Sys2Proof.Machine

open Sys2Proof

section Links

variable {s : State}

/-! ### What recording a fault leaves of the FCU -/

/-- What the FCU knows of faults but for the log and the safety ring. -/
structure Fcu.SameLinks (f g : Fcu) : Prop where
  lastD : g.lastD = f.lastD
  linkParity : g.linkParity = f.linkParity
  retraining : g.retraining = f.retraining
  linksDown : g.linksDown = f.linksDown

theorem Fcu.SameLinks.trans {f g h : Fcu} (a : f.SameLinks g) (b : g.SameLinks h) : f.SameLinks h :=
  ⟨b.lastD.trans a.lastD, b.linkParity.trans a.linkParity, b.retraining.trans a.retraining, b.linksDown.trans a.linksDown⟩

theorem State.logged_sameLinks (d id : Nat) (u : FaultUnit) (task detail : Nat) : s.fcu.SameLinks (s.logged d id u task detail).fcu := by
  rw [State.logged, State.countClass_fcu, State.ringPut_fcu]
  exact ⟨rfl, rfl, rfl, rfl⟩

theorem State.filed_sameLinks (d id : Nat) (u : FaultUnit) (task detail : Nat) : s.fcu.SameLinks (s.filed d id u task detail).fcu := by
  refine (s.logged_sameLinks d id u task detail).trans ?_
  unfold State.filed State.toFlashLog
  split <;> exact ⟨rfl, rfl, rfl, rfl⟩

theorem State.raise_sameLinks (d id : Nat) (u : FaultUnit) (task detail : Nat) : s.fcu.SameLinks (s.raise d id u task detail).fcu := by
  by_cases hoff : s.power.mode = .off
  · rw [State.raise_of_off d id u task detail hoff]
    exact ⟨rfl, rfl, rfl, rfl⟩
  have hfiled := s.filed_sameLinks d id u task detail
  by_cases hM : faultClass id = 3
  · by_cases hsafe : s.power.mode = .safe
    · rw [State.raise_classM_safe hM hsafe, State.flushLog_fcu]
      exact hfiled.trans ⟨rfl, rfl, rfl, rfl⟩
    · rw [State.raise_classM hoff hM hsafe, State.onFcu_fcu, State.flushLog_fcu]
      exact hfiled.trans ⟨rfl, rfl, rfl, rfl⟩
  · by_cases hC : faultClass id = 0
    · rw [State.raise_classC hoff hC]
      exact s.logged_sameLinks d id u task detail
    · rw [State.raise_classND hoff hC hM]
      exact hfiled

/-! ### A link taken down -/

/-- The fault of a link that is down on one of its dies, and of a die with no link left (R463). -/
def State.noteDown (s : State) (n d : Nat) : State :=
  let s := s.raise d 0x4F02 (.linkEnd ((dieLinks d).findIdx (· = n))) 0 0
  if (dieLinks d).all (s.fcu.linksDown.contains ·) then s.raise d 0xCF03 .die 0 0 else s

/-- A link taken down, before waiting accesses are tried again. -/
def State.downed (s : State) (n : Nat) : State :=
  ((s.onFcu fun f => { f with linksDown := insertNat n f.linksDown, retraining := f.retraining.filter (· ≠ n) }).noteDown n
    (linkDies n).1).noteDown n (linkDies n).2

theorem State.noteDown_sameLinks (n d : Nat) : s.fcu.SameLinks (s.noteDown n d).fcu := by
  unfold State.noteDown
  dsimp only
  split
  · exact (s.raise_sameLinks ..).trans (State.raise_sameLinks ..)
  · exact s.raise_sameLinks ..

theorem State.noteDown_keeps (n d : Nat) : Keeps faultParts s (s.noteDown n d) := by
  unfold State.noteDown
  dsimp only
  split
  · exact (s.raise_keepsFaultParts ..).trans (State.raise_keepsFaultParts ..)
  · exact s.raise_keepsFaultParts ..

theorem State.downed_keeps (n : Nat) : Keeps faultParts s (s.downed n) :=
  ((State.onFcu_keeps .rfl rfl : Keeps faultParts s _).trans (State.noteDown_keeps ..)).trans (State.noteDown_keeps ..)

theorem State.downed_links (n : Nat) : n ∈ (s.downed n).fcu.linksDown ∧ n ∉ (s.downed n).fcu.retraining := by
  have hsame := (State.noteDown_sameLinks n (linkDies n).1 (s := s.onFcu fun f =>
    { f with linksDown := insertNat n f.linksDown, retraining := f.retraining.filter (· ≠ n) })).trans
    (State.noteDown_sameLinks n (linkDies n).2)
  rw [State.downed, hsame.linksDown, hsame.retraining, State.onFcu_fcu]
  exact ⟨mem_insertNat.2 (.inl rfl), by simp⟩

theorem State.linkDown_of_up {n : Nat} (h : s.fcu.linksDown.contains n = false) : s.linkDown n = (s.downed n).retry := by
  rw [State.linkDown, if_neg (by rw [h]; exact Bool.false_ne_true)]
  rfl

/-! ### Parity errors -/

/-- The unit that a parity error's record names. -/
def parityUnit (linkEnd : Option Nat) : FaultUnit := match linkEnd with | some e => .linkEnd e | none => .die

/-- Whether the last parity error under a name came within a second. -/
def State.parityAgain (s : State) (d n : Nat) : Bool := match mfind s.fcu.linkParity n with | some t => decide (s.time d ≤ t + 100000000) | none => false

/-- A parity error recorded and dated (R459, R463). -/
def State.parityNoted (s : State) (d n : Nat) (linkEnd : Option Nat) : State :=
  (s.raise d 0x8F01 (parityUnit linkEnd) 0 0).onFcu fun f => { f with linkParity := mput f.linkParity n (s.time d) }

theorem State.parityNoted_keeps (d n : Nat) (e : Option Nat) : Keeps faultParts s (s.parityNoted d n e) :=
  (s.raise_keepsFaultParts ..).trans (State.onFcu_keeps .rfl rfl)

theorem State.parityNoted_links (d n : Nat) (e : Option Nat) : (s.parityNoted d n e).fcu.linksDown = s.fcu.linksDown ∧
    mfind (s.parityNoted d n e).fcu.linkParity n = some (s.time d) := by
  rw [State.parityNoted, State.onFcu_fcu]
  exact ⟨(s.raise_sameLinks ..).linksDown, mfind_mput_self⟩

theorem State.time_of_keeps {t : State} (h : Keeps faultParts s t) (d : Nat) : t.time d = s.time d := by
  rw [State.time, h.frame .dieTime rfl, State.time]

theorem State.parityAgain_raise (d n id : Nat) (u : FaultUnit) (task detail : Nat) :
    (s.raise d id u task detail).parityAgain d n = s.parityAgain d n := by
  rw [State.parityAgain, (s.raise_sameLinks d id u task detail).linkParity, State.time_of_keeps (s.raise_keepsFaultParts ..), State.parityAgain]

theorem exec_nocParity_eq {d n : Nat} {e : Option Nat} (hd : d < 8) (hname : linkName d e = some n) :
    exec (.nocParity d e none) s = .next (if s.parityAgain d n && e.isSome then (s.parityNoted d n e).linkDown n
      else if (s.parityNoted d n e).fcu.linksDown.contains n then s.parityNoted d n e
      else (s.parityNoted d n e).onFcu fun f => { f with retraining := insertNat n f.retraining }) := by
  have htime := State.time_of_keeps (s.raise_keepsFaultParts d 0x8F01 (parityUnit e) 0 0) d
  have hagain := s.parityAgain_raise d n 0x8F01 (parityUnit e) 0 0
  change execNocParity d e none s = _
  unfold execNocParity
  rw [hname, ← hagain, State.parityNoted, ← htime]
  exact congrArg Host.Outcome.next (State.whenP_pos hd)

theorem exec_nocParity_retrains :
    ∀ (s : State) (d n : Nat) (e : Option Nat), d < 8 → linkName d e = some n → s.fcu.linksDown.contains n = false →
    (∀ x, mfind s.fcu.linkParity n = some x → x + 100000000 < s.time d) →
    ∃ t, exec (.nocParity d e none) s = .next t ∧ n ∈ t.fcu.retraining ∧ mfind t.fcu.linkParity n = some (s.time d) ∧
      t = { s with regs := t.regs, flash := t.flash, fcu := t.fcu } := by
  intro s d n e hd hname hup hold
  have hfirst : s.parityAgain d n = false := by
    unfold State.parityAgain
    split
    · next x hx => exact decide_eq_false (Nat.not_le.2 (hold x hx))
    · rfl
  obtain ⟨hdown, hparity⟩ := s.parityNoted_links d n e
  have hkeeps := s.parityNoted_keeps d n e
  have hexec := exec_nocParity_eq (s := s) hd hname
  generalize s.parityNoted d n e = u at *
  rw [hfirst, hdown, hup] at hexec
  refine ⟨u.onFcu fun f => { f with retraining := insertNat n f.retraining }, hexec, mem_insertNat.2 (.inl rfl), hparity, ?_⟩
  exact (State.onFcu_keeps hkeeps rfl).eq_graft

theorem exec_nocParity_downs :
    ∀ (s : State) (d n l x : Nat), d < 8 → linkName d (some l) = some n → s.fcu.linksDown.contains n = false → mfind s.fcu.linkParity n = some x →
    s.time d ≤ x + 100000000 →
    ∃ u : State, exec (.nocParity d (some l) none) s = .next u.retry ∧ n ∈ u.fcu.linksDown ∧ n ∉ u.fcu.retraining ∧
      u = { s with regs := u.regs, flash := u.flash, fcu := u.fcu } := by
  intro s d n l x hd hname hup hlast hnear
  have hagain : s.parityAgain d n = true := by
    rw [State.parityAgain, hlast]
    exact decide_eq_true hnear
  have hdown := (s.parityNoted_links d n (some l)).1
  have hkeeps := s.parityNoted_keeps d n (some l)
  have hexec := exec_nocParity_eq (s := s) hd hname
  generalize s.parityNoted d n (some l) = u at *
  obtain ⟨hlinks, hret⟩ := u.downed_links n
  refine ⟨u.downed n, ?_, hlinks, hret, (hkeeps.trans (u.downed_keeps n)).eq_graft⟩
  rw [hexec, hagain, State.linkDown_of_up (by rw [hdown, hup])]
  rfl

end Links

/-- Settles O20: an error is noted first, and the note leaves the links as they are. -/
theorem linksRetrainAndGoDown : Obligations.LinksRetrainAndGoDown := by
  unfold Obligations.LinksRetrainAndGoDown
  refine ⟨exec_nocParity_retrains, exec_nocParity_downs, ?retrained, ?down⟩
  case retrained =>
    intro s d n e hname hret
    change execLinkRetrainDone d e true s = _
    rw [execLinkRetrainDone, hname]
    exact congrArg Host.Outcome.next (State.when_pos hret)
  case down =>
    intro s n hn hparity hup
    obtain ⟨hlinks, hret⟩ := s.downed_links n
    refine ⟨s.downed n, ?_, hlinks, hret, (s.downed_keeps n).eq_graft⟩
    exact congrArg Host.Outcome.next ((State.whenP_pos ⟨hn, hparity⟩).trans (State.linkDown_of_up hup))

end Sys2Proof.Machine

/-! Reads and writes of memory by the module's own agents (R42, R46, R48, R49, R61, R445). -/

namespace Sys2Proof.Machine

open Sys2Proof

/-! ### Pieces within one line -/

theorem piecesOf_piece {a n : Nat} (hn : 0 < n) (hline : a % 64 + n ≤ 64) : piecesOf a n = [(a, n)] := by
  have hmin : min n (64 - a % 64) = n := by omega
  have hrest : linePieces (n / 64 + 1) (a + n) 0 = [] := by rw [linePieces, if_pos rfl]
  rw [piecesOf, linePieces, if_neg (by omega), hmin]
  dsimp only
  rw [Nat.sub_self, hrest]

theorem piecesOf_head {a n : Nat} (hn : 0 < n) : ∃ k ps, piecesOf a n = (a, k) :: ps := by
  rw [piecesOf, linePieces, if_neg (by omega)]
  exact ⟨_, _, rfl⟩

theorem piecesOf_of_mem {a n : Nat} {p : Nat × Nat} (h : p ∈ piecesOf a n) : piecesOf p.1 p.2 = [p] := by
  obtain ⟨hpos, hline⟩ := mem_linePieces h
  exact piecesOf_piece hpos hline

section Reads

variable {s t : State}

theorem State.seen_of_piece {p : Nat × Nat} (hp : piecesOf p.1 p.2 = [p]) (hclean : s.poisonedAt p.1 = false) :
    s.seen p.1 p.2 = s.readBytes p.1 p.2 := by
  rw [State.seen, hp, List.flatMap_singleton, if_neg (by simp [hclean])]

/-- A whole read of lines without poison sees the bytes that memory holds. -/
theorem State.seen_pieces {a n : Nat} (hclean : s.anyPoison a n = false) :
    ((piecesOf a n).flatMap fun p => s.seen p.1 p.2) = s.readBytes a n := by
  rw [← s.readBytes_piecesOf a n]
  have hpieces : ∀ p ∈ piecesOf a n, s.poisonedAt p.1 = false := fun p hp => by
    simpa using List.any_eq_false.1 hclean p hp
  exact List.flatMap_congr fun p hp => State.seen_of_piece (piecesOf_of_mem hp) (hpieces p hp)

/-! ### Requests that keep a stack awake -/

/-- A stack that serves: one that is not told to sleep yet, or has not been sent the command (R85). -/
def SrPhase.serves : SrPhase → Bool
  | .awake => true
  | .waiting => true
  | _ => false

/-- What requests that reach stacks before they sleep may change (R84, R85). -/
structure State.Interrupted (s t : State) : Prop where
  keeps : Keeps (oneOf [.stackMap]) s t
  stack : ∀ k, ∃ r, t.stack k = { s.stack k with sr := r } ∧ ((s.stack k).sr.serves = true → r.serves = true)

theorem State.Interrupted.self : s.Interrupted s := ⟨.rfl, fun _ => ⟨_, .refl _, id⟩⟩

theorem State.Interrupted.trans {u : State} (a : s.Interrupted t) (b : t.Interrupted u) : s.Interrupted u := by
  refine ⟨a.keeps.trans b.keeps, fun k => ?_⟩
  obtain ⟨q, hq, hqs⟩ := a.stack k
  obtain ⟨r, hr, hrs⟩ := b.stack k
  refine ⟨r, by rw [hr, hq], fun h => hrs ?_⟩
  rw [hq]
  exact hqs h

theorem State.setSr_interrupted (k : Nat) (r : SrPhase) (hr : (s.stack k).sr.serves = true → r.serves = true) :
    s.Interrupted (s.setStack k { s.stack k with sr := r }) := by
  refine ⟨State.setStack_keeps .rfl (.refl _), fun j => ?_⟩
  by_cases hj : j = k
  · subst hj
    exact ⟨r, State.stack_setStack_self .., hr⟩
  · exact ⟨_, State.stack_setStack_ne _ hj, id⟩

/-- The self-refresh phase of a stack that a request reaches (R84, R85). -/
def State.reachedSr (s : State) (k : Nat) : SrPhase :=
  match (s.stack k).sr with
  | .waiting => if decide (s.power.mode = .ready) && !(s.stack k).stopped then .awake else .waiting
  | .commanded => if decide (s.power.mode = .ready) && !(s.stack k).stopped then .awake else .waiting
  | x => x

theorem State.sleepInterrupted_eq (k : Nat) : s.sleepInterrupted k =
    if s.reachedSr k = (s.stack k).sr then s else s.setStack k { s.stack k with sr := s.reachedSr k } := rfl

theorem State.reachedSr_serves {k : Nat} (h : (s.stack k).sr.serves = true) : (s.reachedSr k).serves = true := by
  unfold State.reachedSr
  revert h
  cases (s.stack k).sr with
  | waiting =>
    intro _
    dsimp only
    split <;> rfl
  | commanded => exact fun h => absurd h (by decide)
  | awake => exact id
  | asleep => exact id
  | waking => exact id

theorem State.sleepInterrupted_interrupted (k : Nat) : s.Interrupted (s.sleepInterrupted k) := by
  rw [State.sleepInterrupted_eq]
  split
  · exact State.Interrupted.self
  · exact State.setSr_interrupted k _ State.reachedSr_serves

theorem State.keepAwake_interrupted (ps : List (Nat × Nat)) : s.Interrupted (s.keepAwake ps) := by
  unfold State.keepAwake
  exact List.foldlRecOn (motive := fun u : State => s.Interrupted u) _ _ .self fun u hu p _ => hu.trans (u.sleepInterrupted_interrupted _)

/-- The map from addresses to a port's DPAs takes nothing from the state but the window it is given. -/
theorem State.addrToDpa_eq (s t : State) : t.addrToDpa = s.addrToDpa := by
  funext w a
  induction w with
  | nil => rfl
  | cons x w ih => rw [State.addrToDpa, ih, State.addrToDpa]

theorem State.needs_of_eq (hmem : t.mem = s.mem) (hports : t.ports = s.ports) (hcfg : t.cfg = s.cfg) (ag : Agent) (p : Nat) (write : Bool) :
    t.needs ag p write = s.needs ag p write := by
  have hdpa := State.addrToDpa_eq s t
  unfold State.needs State.holders State.dirOf State.hostBiasPort State.dpaOfPlaced State.window State.entries State.port
  simp only [hmem, hports, hcfg, hdpa]

theorem State.bankServes_eq (d : Nat) (b : BankId) : s.bankServes d b =
    ((s.stack b.stk).cleared && (s.stack b.stk).sr.serves && !s.seqHolds b && decide ((mget freshBank s.banks (bankKey b)).burst = 0) &&
      !s.channelHeld b && !s.pathHeld d (b.stk / 4)) := by
  unfold State.bankServes SrPhase.serves
  cases (s.stack b.stk).sr <;> rfl

namespace State.Interrupted

theorem sameMemory (h : s.Interrupted t) : s.SameMemory t :=
  ⟨h.keeps.frame .mem rfl, h.keeps.frame .fuses rfl, fun k => by obtain ⟨r, hr, -⟩ := h.stack k; rw [hr]⟩

theorem eq_set (h : s.Interrupted t) : t = { s with stackMap := t.stackMap } := h.keeps.eq_graft

theorem needs (h : s.Interrupted t) (ag : Agent) (p : Nat) (write : Bool) : t.needs ag p write = s.needs ag p write := by
  exact State.needs_of_eq (h.keeps.frame .mem rfl) (h.keeps.frame .ports rfl) (h.keeps.frame .cfg rfl) ag p write

theorem pieceLines (h : s.Interrupted t) (ps : List (Nat × Nat)) : t.pieceLines ps = s.pieceLines ps := by
  unfold State.pieceLines
  simp only [h.sameMemory.resolve]

theorem bankServes (h : s.Interrupted t) {d : Nat} {b : BankId} (hs : s.bankServes d b = true) : t.bankServes d b = true := by
  obtain ⟨r, hr, hserves⟩ := h.stack b.stk
  rw [State.bankServes_eq] at hs ⊢
  simp only [Bool.and_eq_true] at hs ⊢
  obtain ⟨⟨⟨⟨⟨hcleared, hsr⟩, hseq⟩, hburst⟩, hchannel⟩, hpath⟩ := hs
  have hchan : t.channelHeld b = s.channelHeld b := by rw [State.channelHeld, hr, State.channelHeld]
  refine ⟨⟨⟨⟨⟨?_, ?_⟩, ?_⟩, ?_⟩, ?_⟩, ?_⟩
  · rw [hr]
    exact hcleared
  · rw [hr]
    exact hserves hsr
  · rw [h.eq_set]
    exact hseq
  · rw [h.eq_set]
    exact hburst
  · rw [hchan]
    exact hchannel
  · rw [h.eq_set]
    exact hpath

end State.Interrupted

/-! ### The access at its order point -/

/-- The first line that an access does not reach, recorded (R42, R63). -/
def State.noteMiss (s u : State) (x : HeldAccess) (ps : List (Nat × Nat)) : State :=
  match ps.find? fun p => !s.reaches x.ag (s.resolve p.1) with
  | some p => u.mapErr x.ag (opWrites x.op) (pieceAddr x p)
  | none => u

theorem State.noteMiss_keeps (u : State) (x : HeldAccess) (ps : List (Nat × Nat)) : Keeps (oneOf [.regs]) u (s.noteMiss u x ps) := by
  unfold State.noteMiss
  split
  · exact State.mapErr_keeps .rfl rfl
  · exact .rfl

theorem State.noteMiss_of_reached {u : State} {x : HeldAccess} {ps : List (Nat × Nat)}
    (h : ∀ p ∈ ps, s.reaches x.ag (s.resolve p.1) = true) : s.noteMiss u x ps = u := by
  have hnone : (ps.find? fun p => !s.reaches x.ag (s.resolve p.1)) = none := List.find?_eq_none.2 fun p hp => by simp [h p hp]
  rw [State.noteMiss, hnone]

/-- An access that keeps no line in a host. -/
def AccessOp.keepsNothing : AccessOp → Bool
  | .read _ hold => decide (hold = 0)
  | .write _ _ => true

theorem State.accessPieces_served {x : HeldAccess} {ps : List (Nat × Nat)} (hnow : agentInternal x.ag = true ∨ s.power.mode = .ready)
    (hop : x.op.keepsNothing = true) (hgood : (ps.filter (s.pieceOk x.ag)).isEmpty = false)
    (hwhole : ps.all (s.pieceOk x.ag) = true ∨ opWrites x.op = true)
    (hlines : ∀ q ∈ s.pieceLines (ps.filter (s.pieceOk x.ag)), s.bankServes (agentDie x.ag) (bankOf q) = true ∧ s.needs x.ag q (opOwns x.op) = []) :
    s.accessPieces x false ps = (s.noteMiss (s.keepAwake (ps.filter (s.pieceOk x.ag))) x ps).serve x false ps (s.pieceOk x.ag)
      (unmappedReply x.ag false (opWrites x.op) (opLen x.op)) := by
  have hawake := s.keepAwake_interrupted (ps.filter (s.pieceOk x.ag))
  unfold State.accessPieces
  extract_lets ok good miss um answer lines u needs newLines home
  have hlines' : lines = s.pieceLines good := rfl
  have hserves : (lines.all fun p => u.bankServes (agentDie x.ag) (bankOf p)) = true :=
    List.all_eq_true.2 fun q hq => hawake.bankServes (hlines q hq).1
  have hneeds : needs.isEmpty = true := by
    rw [List.isEmpty_iff, List.flatMap_eq_nil_iff]
    exact fun q hq => (hawake.needs ..).trans (hlines q hq).2
  have hnew : newLines = [] := by
    obtain ⟨ag, tgt, op⟩ := x
    cases op with
    | write data poison => rfl
    | read n hold =>
      cases hold with
      | zero => rfl
      | succ h => exact absurd hop (by simp [AccessOp.keepsNothing])
  have hfirst : ¬(good.isEmpty = true ∨ (!ps.all ok) = true ∧ (!false) = true ∧ (!opWrites x.op) = true) := by
    rintro (h | ⟨hpart, -, hread⟩)
    · rw [hgood] at h
      exact absurd h Bool.false_ne_true
    · rcases hwhole with h | h
      · rw [h] at hpart
        exact absurd hpart (by decide)
      · rw [h] at hread
        exact absurd hread (by decide)
  have hawakes : ¬(!agentInternal x.ag && (u.power.mode = .dormant || u.power.mode = .enteringDormant)) = true := by
    rw [show u.power = s.power from hawake.keeps.frame .power rfl]
    rcases hnow with hint | hready
    · simp [hint]
    · simp [hready]
  rw [if_neg hfirst, if_neg hawakes, if_neg (by simp [hserves]), if_neg (by simp [hneeds]), hnew]
  rfl

theorem State.accessPhys_of_memory {x : HeldAccess} {a : Nat} (hint : agentInternal x.ag = true)
    (hreg : ∀ d off, s.resolve a ≠ .reg d off) (hseqw : ∀ d off, s.resolve a ≠ .seqw d off) :
    s.accessPhys x a = s.accessPieces x false (piecesOf a (opLen x.op)) := by
  unfold State.accessPhys
  dsimp only
  split
  · next h => exact absurd h (hreg _ _)
  · next h => exact absurd h (hseqw _ _)
  · split
    · next h => simp [h, agentInternal] at hint
    · rfl

theorem State.access_memory_of_internal {ag : Agent} {a : Nat} {op : AccessOp} (hmode : s.power.mode = .ready) (hint : agentInternal ag = true)
    (hreg : ∀ d off, s.resolve a ≠ .reg d off) (hseqw : ∀ d off, s.resolve a ≠ .seqw d off) :
    s.access ⟨ag, .phys a, op⟩ = s.accessPieces ⟨ag, .phys a, op⟩ false (piecesOf a (opLen op)) := by
  rw [State.access_phys_of_internal a op (by simp [hmode]) (by simp [hmode]) hint, if_neg (by simp [hmode])]
  exact State.accessPhys_of_memory hint hreg hseqw

theorem State.resolve_of_outside {a : Nat} (ha : a < 0x300000000000 ∨ 0x3F0080000000 ≤ a) :
    (∀ d off, s.resolve a ≠ .reg d off) ∧ ∀ d off, s.resolve a ≠ .seqw d off := by
  unfold State.resolve
  constructor <;> intro d off <;> split_ifs <;> simp <;> omega

theorem State.resolve_of_reached {ag : Agent} {a : Nat} (h : s.reaches ag (s.resolve a) = true) :
    (∀ d off, s.resolve a ≠ .reg d off) ∧ ∀ d off, s.resolve a ≠ .seqw d off := by
  constructor <;> intro d off hl <;> rw [hl] at h <;> exact absurd h Bool.false_ne_true

/-! ### What serving leaves -/

/-- What a served access of an internal agent leaves alone, but for its own writes (R61). -/
structure State.Served (s t : State) : Prop where
  cells : t.mem.cells = s.mem.cells
  poison : t.mem.poison = s.mem.poison
  regs : t.regs = s.regs
  power : t.power = s.power
  sent : t.sent = s.sent

theorem State.Served.trans {u : State} (a : s.Served t) (b : t.Served u) : s.Served u :=
  ⟨b.cells.trans a.cells, b.poison.trans a.poison, b.regs.trans a.regs, b.power.trans a.power, b.sent.trans a.sent⟩

theorem State.Interrupted.served (h : s.Interrupted t) : s.Served t :=
  ⟨congrArg Memory.cells (h.keeps.frame .mem rfl), congrArg Memory.poison (h.keeps.frame .mem rfl), h.keeps.frame .regs rfl,
    h.keeps.frame .power rfl, h.keeps.frame .sent rfl⟩

/-- The queues' requests and the lines used up touch neither bytes nor poison. -/
theorem State.enqueue_served (ag : Agent) (write : Bool) (ps : List (Nat × Nat)) : s.Served (s.enqueue ag write ps) := by
  unfold State.enqueue
  refine List.foldlRecOn (motive := fun u : State => s.Served u) _ _ ⟨rfl, rfl, rfl, rfl, rfl⟩ fun u hu p _ => hu.trans ?_
  split
  · exact ⟨rfl, rfl, rfl, rfl, rfl⟩
  · exact ⟨rfl, rfl, rfl, rfl, rfl⟩

/-- A read of lines that are all served and hold no poison is answered with what they hold. -/
theorem State.serve_read_answer {ag : Agent} {tgt : Target} {n : Nat} {ps : List (Nat × Nat)} {ok : Nat × Nat → Bool} {answer : Reply}
    (hok : ∀ p ∈ ps, ok p = true) (hclean : ∀ p ∈ ps, s.poisonedAt p.1 = false) :
    s.serve ⟨ag, tgt, .read n 0⟩ false ps ok answer =
      (s.enqueue ag false (ps.filter ok)).answer ⟨ag, tgt, .read n 0⟩ (.data ((ps.flatMap fun p => s.seen p.1 p.2).take n) []) := by
  have hall : ps.all ok = true := List.all_eq_true.2 hok
  have hbytes : (ps.flatMap fun p => if ok p then s.seen p.1 p.2 else List.replicate p.2 0) = ps.flatMap fun p => s.seen p.1 p.2 :=
    List.flatMap_congr fun p hp => if_pos (hok p hp)
  unfold State.serve
  extract_lets good part bytes bad u
  have hbad : bad = [] := by
    refine List.filter_eq_nil_iff.2 fun i hi => ?_
    split
    · next p hp => simp [hok p (List.mem_of_getElem? hp), hclean p (List.mem_of_getElem? hp)]
    · simp
  have hpart : part = false := by simp [part, hall]
  rw [← hbytes, hbad, hpart]
  cases ag with
  | engine d c e =>
    dsimp only
    rw [if_neg (by simp)]
    rfl
  | _ => rfl

theorem State.serve_read_clean {ag : Agent} {tgt : Target} {n : Nat} {ps : List (Nat × Nat)} {ok : Nat × Nat → Bool} {answer : Reply}
    (hint : agentInternal ag = true) (hok : ∀ p ∈ ps, ok p = true) (hclean : ∀ p ∈ ps, s.poisonedAt p.1 = false) :
    ∃ t, s.Served t ∧ s.serve ⟨ag, tgt, .read n 0⟩ false ps ok answer =
      { t with sent := t.sent ++ [.reply ag (.data ((ps.flatMap fun p => s.seen p.1 p.2).take n) [])] } := by
  refine ⟨s.enqueue ag false (ps.filter ok), s.enqueue_served .., ?_⟩
  rw [State.serve_read_answer hok hclean]
  exact State.answer_of_internal hint _

theorem State.serve_write {ag : Agent} {tgt : Target} {data : List Byte} {poison : Bool} {ps : List (Nat × Nat)} {ok : Nat × Nat → Bool}
    {answer : Reply} (hint : agentInternal ag = true) :
    ∃ t, (s.writePieces poison (ps.map fun p => if ok p then p else (noAddr, p.2)) data).Served t ∧
      s.serve ⟨ag, tgt, .write data poison⟩ false ps ok answer =
        { t with sent := t.sent ++ [.reply ag (if (!ps.all ok) = true then answer else .done)] } :=
  ⟨_, State.enqueue_served ag true (ps.filter ok), State.answer_of_internal hint _⟩

/-! ### Accesses of which all or some lines are served -/

theorem State.pieceOk_of_reached {ag : Agent} {a n : Nat} (hreach : ∀ p ∈ piecesOf a n, s.reaches ag (s.resolve p.1) = true)
    (hstop : ∀ q ∈ s.memLines a n, (s.stack (placedStack q)).stopped = false) : ∀ p ∈ piecesOf a n, s.pieceOk ag p = true := by
  intro p hp
  rw [State.pieceOk, hreach p hp, Bool.true_and]
  split
  · next q hq =>
    have hmem : q ∈ s.memLines a n := List.mem_filterMap.2 ⟨p, hp, by rw [hq]⟩
    simp [hstop q hmem]
  · rfl

theorem State.reached_head {ag : Agent} {a n : Nat} (hn : 0 < n) (hreach : ∀ p ∈ piecesOf a n, s.reaches ag (s.resolve p.1) = true) :
    s.reaches ag (s.resolve a) = true := by
  obtain ⟨k, ps, hps⟩ := piecesOf_head (a := a) hn
  exact hreach (a, k) (by rw [hps]; exact List.mem_cons_self)

theorem State.lines_of_ready {ag : Agent} {a n : Nat} {write : Bool} (h : s.ready ag a n write = true) :
    ∀ q ∈ s.memLines a n, s.bankServes (agentDie ag) (bankOf q) = true ∧ s.needs ag q write = [] := by
  intro q hq
  have hq := List.all_eq_true.1 h q hq
  rw [Bool.and_eq_true, List.isEmpty_iff] at hq
  exact hq

theorem piecesOf_ne_nil {a n : Nat} (hn : 0 < n) : piecesOf a n ≠ [] := by
  obtain ⟨k, ps, hps⟩ := piecesOf_head (a := a) hn
  simp [hps]

theorem exec_memoryRead_whole :
    ∀ (s : State) (ag : Agent) (a n : Nat), s.power.mode = .ready → agentInternal ag = true → 0 < n →
    (∀ p ∈ piecesOf a n, s.reaches ag (s.resolve p.1) = true) → (∀ q ∈ s.memLines a n, (s.stack (placedStack q)).stopped = false) →
    s.ready ag a n false = true → s.anyPoison a n = false →
    ∃ t, exec (.memoryRead ag (.phys a) n 0) s = .next t ∧ t.sent = s.sent ++ [.reply ag (.data (s.readBytes a n) [])] ∧
      t.mem.cells = s.mem.cells ∧ t.mem.poison = s.mem.poison ∧ t.regs = s.regs ∧ t.power = s.power := by
  intro s ag a n hmode hint hn hreach hstop hready hclean
  have hok := State.pieceOk_of_reached hreach hstop
  have hall : (piecesOf a n).filter (s.pieceOk ag) = piecesOf a n := List.filter_eq_self.2 hok
  obtain ⟨hreg, hseqw⟩ := State.resolve_of_reached (State.reached_head hn hreach)
  have hserved := State.accessPieces_served (s := s) (x := ⟨ag, .phys a, .read n 0⟩) (ps := piecesOf a n) (.inl hint) rfl
    (by rw [hall]; simpa using piecesOf_ne_nil hn) (.inl (List.all_eq_true.2 hok)) (by rw [hall]; exact State.lines_of_ready hready)
  rw [State.noteMiss_of_reached hreach, hall] at hserved
  have hawake := s.keepAwake_interrupted (piecesOf a n)
  generalize s.keepAwake (piecesOf a n) = u at hserved hawake
  have hclean' : u.anyPoison a n = false := by rw [hawake.sameMemory.anyPoison, hclean]
  obtain ⟨t, ht, hserve⟩ := State.serve_read_clean (s := u) (tgt := .phys a) (n := n) (ps := piecesOf a n)
    (answer := unmappedReply ag false false n) hint hok fun p hp => by simpa using List.any_eq_false.1 hclean' p hp
  have hbytes : ((piecesOf a n).flatMap fun p => u.seen p.1 p.2).take n = s.readBytes a n := by
    rw [State.seen_pieces hclean', hawake.sameMemory.readBytes]
    exact List.take_of_length_le (by simp [State.readBytes])
  have hleaves := hawake.served.trans ht
  refine ⟨_, congrArg Host.Outcome.next ((State.access_memory_of_internal hmode hint hreg hseqw).trans (hserved.trans hserve)), ?_,
    hleaves.cells, hleaves.poison, hleaves.regs, hleaves.power⟩
  rw [hbytes, hleaves.sent]

/-- A write of which some line at least takes effect (R48, R49). -/
theorem exec_memoryWrite_served {ag : Agent} {a : Nat} {data : List Byte} (poison : Bool) (hmode : s.power.mode = .ready)
    (hint : agentInternal ag = true) (hreg : ∀ d off, s.resolve a ≠ .reg d off) (hseqw : ∀ d off, s.resolve a ≠ .seqw d off)
    (hgood : ((piecesOf a data.length).filter (s.pieceOk ag)).isEmpty = false)
    (hlines : ∀ q ∈ s.pieceLines ((piecesOf a data.length).filter (s.pieceOk ag)),
      s.bankServes (agentDie ag) (bankOf q) = true ∧ s.needs ag q true = []) :
    ∃ t ps, exec (.memoryWrite ag (.phys a) data poison) s = .next t ∧
      ps = (piecesOf a data.length).map (fun p => if s.pieceOk ag p then p else (noAddr, p.2)) ∧
      t.sent = s.sent ++ [.reply ag (if (!(piecesOf a data.length).all (s.pieceOk ag)) = true then .busError else .done)] ∧
      t.mem.cells = (s.writePieces poison ps data).mem.cells ∧ t.mem.poison = (s.writePieces poison ps data).mem.poison ∧
      t.power = s.power ∧ ((∀ p ∈ piecesOf a data.length, s.reaches ag (s.resolve p.1) = true) → t.regs = s.regs) := by
  have hserved := State.accessPieces_served (s := s) (x := ⟨ag, .phys a, .write data poison⟩) (ps := piecesOf a data.length) (.inl hint) rfl
    hgood (.inr rfl) hlines
  have hawake := s.keepAwake_interrupted ((piecesOf a data.length).filter (s.pieceOk ag))
  generalize s.keepAwake ((piecesOf a data.length).filter (s.pieceOk ag)) = v at hserved hawake
  have hnote := s.noteMiss_keeps v ⟨ag, .phys a, .write data poison⟩ (piecesOf a data.length)
  have hregs : (∀ p ∈ piecesOf a data.length, s.reaches ag (s.resolve p.1) = true) →
      (s.noteMiss v ⟨ag, .phys a, .write data poison⟩ (piecesOf a data.length)).regs = s.regs := fun hreach => by
    rw [State.noteMiss_of_reached hreach, hawake.served.regs]
  generalize s.noteMiss v ⟨ag, .phys a, .write data poison⟩ (piecesOf a data.length) = u at hserved hnote hregs
  have hsame : s.SameMemory u := hawake.sameMemory.trans (.of_keeps hnote rfl rfl rfl)
  have hreply : unmappedReply ag false true data.length = .busError := by
    cases ag with
    | host => cases hint
    | peer => cases hint
    | _ => rfl
  obtain ⟨t, ht, hserve⟩ := State.serve_write (s := u) (tgt := .phys a) (data := data) (poison := poison) (ps := piecesOf a data.length)
    (ok := s.pieceOk ag) (answer := unmappedReply ag false true data.length) hint
  have hwrite : Keeps (oneOf [.mem]) u
      (u.writePieces poison ((piecesOf a data.length).map fun p => if s.pieceOk ag p then p else (noAddr, p.2)) data) :=
    State.writePieces_keeps .rfl rfl
  have hmem := (hsame.writePieces poison ((piecesOf a data.length).map fun p => if s.pieceOk ag p then p else (noAddr, p.2)) data).mem
  generalize hps : ((piecesOf a data.length).map fun p => if s.pieceOk ag p then p else (noAddr, p.2)) = ps at *
  generalize u.writePieces poison ps data = w at *
  have hwsent : w.sent = s.sent := (hwrite.frame .sent rfl).trans ((hnote.frame .sent rfl).trans hawake.served.sent)
  refine ⟨_, ps, congrArg Host.Outcome.next ((State.access_memory_of_internal hmode hint hreg hseqw).trans (hserved.trans hserve)), rfl, ?_, ?_, ?_,
    ?_, fun hreach => ?_⟩
  · rw [hreply, ht.sent, hwsent]
  · exact ht.cells.trans (congrArg Memory.cells hmem)
  · exact ht.poison.trans (congrArg Memory.poison hmem)
  · exact ht.power.trans ((hwrite.frame .power rfl).trans ((hnote.frame .power rfl).trans hawake.served.power))
  · exact ht.regs.trans ((hwrite.frame .regs rfl).trans (hregs hreach))

/-- An access that takes no effect: none of its lines does, or it is a read that misses one (R42). -/
theorem State.accessPieces_refused {x : HeldAccess} {ps : List (Nat × Nat)} (hint : agentInternal x.ag = true)
    (h : (ps.filter (s.pieceOk x.ag)).isEmpty = true ∨ ps.all (s.pieceOk x.ag) = false ∧ opWrites x.op = false) :
    ∃ t, s.accessPieces x false ps = t ∧ t.sent = s.sent ++ [.reply x.ag .busError] ∧ t = { s with sent := t.sent, regs := t.regs } := by
  have hreply : unmappedReply x.ag false (opWrites x.op) (opLen x.op) = .busError := by
    obtain ⟨ag, tgt, op⟩ := x
    cases ag with
    | host => cases hint
    | peer => cases hint
    | _ => rfl
  have hnote := s.noteMiss_keeps s x ps
  have hexec : s.accessPieces x false ps = (s.noteMiss s x ps).answer x .busError := by
    rw [← hreply]
    unfold State.accessPieces
    dsimp only
    rw [if_pos (h.imp id fun ⟨hpart, hread⟩ => by simp [hpart, hread])]
    rfl
  generalize s.noteMiss s x ps = u at hnote hexec
  rw [State.answer_of_internal hint] at hexec
  refine ⟨_, hexec, congrArg (· ++ _) (hnote.frame .sent rfl), ?_⟩
  rw [hnote.eq_graft]
  rfl

end Reads

/-- Settles O21: an access whose lines are served, and one that takes no effect, each at its order point. -/
theorem memoryIsReadAndWritten : Obligations.MemoryIsReadAndWritten := by
  unfold Obligations.MemoryIsReadAndWritten
  refine ⟨exec_memoryRead_whole, ?whole, ?noRead, ?noWrite, ?part⟩
  case whole =>
    intro s ag a data poison hmode hint hn hreach hstop hready
    have hok := State.pieceOk_of_reached hreach hstop
    have hall : (piecesOf a data.length).filter (s.pieceOk ag) = piecesOf a data.length := List.filter_eq_self.2 hok
    have hmap : (piecesOf a data.length).map (fun p => if s.pieceOk ag p then p else (noAddr, p.2)) = piecesOf a data.length :=
      (List.map_congr_left fun p hp => if_pos (hok p hp)).trans (List.map_id _)
    obtain ⟨hreg, hseqw⟩ := State.resolve_of_reached (State.reached_head hn hreach)
    obtain ⟨t, ps, hexec, hps, hsent, hcells, hpoison, hpower, hregs⟩ := exec_memoryWrite_served (s := s) poison hmode hint hreg hseqw
      (by rw [hall]; simpa using piecesOf_ne_nil hn) (by rw [hall]; exact State.lines_of_ready hready)
    rw [hmap] at hps
    subst hps
    exact ⟨t, hexec, by rw [hsent, List.all_eq_true.2 hok]; rfl, hcells, hpoison, hregs hreach, hpower⟩
  case noRead =>
    intro s ag a n hold hmode hint ha ⟨p, hp, hbad⟩
    obtain ⟨hreg, hseqw⟩ := State.resolve_of_outside (s := s) ha
    obtain ⟨t, ht, hsent, hframe⟩ := State.accessPieces_refused (s := s) (x := ⟨ag, .phys a, .read n hold⟩) (ps := piecesOf a n) hint
      (.inr ⟨List.all_eq_false.2 ⟨p, hp, by simp [hbad]⟩, rfl⟩)
    exact ⟨t, congrArg Host.Outcome.next ((State.access_memory_of_internal hmode hint hreg hseqw).trans ht), hsent, hframe⟩
  case noWrite =>
    intro s ag a data poison hmode hint _ ha hbad
    obtain ⟨hreg, hseqw⟩ := State.resolve_of_outside (s := s) ha
    obtain ⟨t, ht, hsent, hframe⟩ := State.accessPieces_refused (s := s) (x := ⟨ag, .phys a, .write data poison⟩)
      (ps := piecesOf a data.length) hint (.inl (List.isEmpty_iff.2 (List.filter_eq_nil_iff.2 fun p hp => by simp [hbad p hp])))
    exact ⟨t, congrArg Host.Outcome.next ((State.access_memory_of_internal hmode hint hreg hseqw).trans ht), hsent, hframe⟩
  case part =>
    intro s ag a data poison hmode hint ha ⟨p, hp, hgood⟩ ⟨q, hq, hbad⟩ hlines
    obtain ⟨hreg, hseqw⟩ := State.resolve_of_outside (s := s) ha
    have hall : (piecesOf a data.length).all (s.pieceOk ag) = false := List.all_eq_false.2 ⟨q, hq, by simp [hbad]⟩
    have hsome : ((piecesOf a data.length).filter (s.pieceOk ag)).isEmpty = false :=
      List.isEmpty_eq_false_iff_exists_mem.2 ⟨p, List.mem_filter.2 ⟨hp, hgood⟩⟩
    obtain ⟨t, ps, hexec, hps, hsent, hcells, hpoison, hpower, -⟩ :=
      exec_memoryWrite_served (s := s) poison hmode hint hreg hseqw hsome hlines
    exact ⟨t, ps, hexec, by rw [hsent, hall]; rfl, hps, hcells, hpoison, hpower⟩

end Sys2Proof.Machine

/-! The directory and hosts' answers (R53, R56). -/

namespace Sys2Proof.Machine

open Sys2Proof

section Hosts

variable {s : State}

/-! ### Requests to hosts -/

theorem State.mem_snoops_issueSnoops_of_mem {x : Snoop} (xs : List Snoop) (h : x ∈ s.mem.snoops) : x ∈ (s.issueSnoops xs).mem.snoops := by
  induction xs generalizing s with
  | nil => exact h
  | cons y xs ih =>
    rw [State.issueSnoops]
    split
    · exact ih h
    · exact ih (List.mem_append_left _ h)

/-- Every request asked for is in flight afterwards. -/
theorem State.mem_snoops_issueSnoops {x : Snoop} {xs : List Snoop} (h : x ∈ xs) : x ∈ (s.issueSnoops xs).mem.snoops := by
  induction xs generalizing s with
  | nil => cases h
  | cons y xs ih =>
    rw [State.issueSnoops]
    split
    · next hin =>
      rcases List.mem_cons.1 h with rfl | h
      · exact State.mem_snoops_issueSnoops_of_mem xs (by simpa using hin)
      · exact ih h
    · rcases List.mem_cons.1 h with rfl | h
      · exact State.mem_snoops_issueSnoops_of_mem xs (List.mem_append_right _ List.mem_cons_self)
      · exact ih h

theorem State.issueSnoops_frame (xs : List Snoop) :
    s.issueSnoops xs = { s with sent := (s.issueSnoops xs).sent, mem := { s.mem with snoops := (s.issueSnoops xs).mem.snoops } } := by
  induction xs generalizing s with
  | nil => rfl
  | cons y xs ih =>
    rw [State.issueSnoops]
    split
    · exact ih
    · exact ih

/-! ### A host's answer -/

/-- The request that is answered, taken back. -/
def State.answered (s : State) (x : Snoop) : State := s.onMem fun m => { m with snoops := m.snoops.filter (· ≠ x) }

theorem State.answered_noStorage (x : Snoop) (p : Nat) : (s.answered x).noStorage p = s.noStorage p := rfl

theorem State.writeLine_answered (x : Snoop) (p : Nat) (data : List Byte) (poison : Bool) :
    ((s.answered x).writeLine p data poison).mem.snoops = s.mem.snoops.filter (· ≠ x) ∧
      ((s.answered x).writeLine p data poison).mem.cells = (s.writeLine p data poison).mem.cells := by
  unfold State.writeLine
  rw [State.answered_noStorage]
  split <;> exact ⟨rfl, rfl⟩

theorem State.dropHold_ports {port line : Nat} {e : DirEntry} (he : e ∈ (s.dropHold port line).mem.dir) (hline : e.line = line) :
    ∀ q ∈ e.ports, q.1 ≠ port := by
  obtain ⟨hmap, -⟩ := List.mem_filter.1 he
  obtain ⟨e', -, rfl⟩ := List.mem_map.1 hmap
  intro q hq
  split at hq
  · simpa using (List.mem_filter.1 hq).2
  · next hother => exact absurd (by rwa [if_neg hother] at hline) hother

end Hosts

/-- Settles O23. -/
theorem hostsGiveLinesBack : Obligations.HostsGiveLinesBack := by
  unfold Obligations.HostsGiveLinesBack
  refine ⟨?full, ?modified, ?obtained⟩
  case full =>
    intro s d e hfull hold
    have hrecall : s.recallOldest d = s.issueSnoops (e.ports.map fun q => ⟨q.1, e.line, .backInvalidate⟩) := by
      rw [State.recallOldest, hold]
    refine ⟨_, congrArg Host.Outcome.next ((State.when_pos hfull).trans hrecall), fun q hq => ?_, State.issueSnoops_frame _⟩
    exact State.mem_snoops_issueSnoops (List.mem_map.2 ⟨q, hq, rfl⟩)
  case modified =>
    intro s port line b x hfind hkind
    obtain ⟨hsnoops, hcells⟩ := s.writeLine_answered x (line * 64) (padTo 64 0 b) false
    have hexec : exec (.hostCacheResponse port line (some b)) s =
        .next (((s.answered x).writeLine (line * 64) (padTo 64 0 b) false).dropHold port line).retry := by
      change execHostCacheResponse port line (some b) s = _
      rw [execHostCacheResponse, hfind]
      dsimp only
      rw [if_pos hkind]
      rfl
    refine ⟨_, hexec, ?_, hcells, fun e he hline => State.dropHold_ports he hline⟩
    change x ∉ ((s.answered x).writeLine (line * 64) (padTo 64 0 b) false).mem.snoops
    rw [hsnoops]
    simp
  case obtained =>
    intro s port line x hfind hkind
    have hexec : exec (.hostCacheResponse port line none) s = .next ((s.answered x).onMem fun m => { m with
        obtained := insertNat line m.obtained
        owned := if x.kind = .rdOwn then insertNat line m.owned else m.owned }).retry := by
      change execHostCacheResponse port line none s = _
      rw [execHostCacheResponse, hfind]
      dsimp only
      rw [if_neg hkind]
      rfl
    exact ⟨_, hexec, by simp [State.answered], mem_insertNat.2 (.inl rfl), rfl⟩

end Sys2Proof.Machine

/-! Banks: their completion events, refresh and timers (R68 to R84, R144). -/

namespace Sys2Proof.Machine

open Sys2Proof

section BankEvents

variable {s : State} {b : BankId}

/-! ### Completion events -/

theorem State.awaits_of_cmd {c : BankCmd} (p : BankCmd → Bool) (h : (s.bank b).cmd = some c) : s.awaits b p = p c := by
  rw [State.awaits, h]

theorem State.awaits_of_none (p : BankCmd → Bool) (h : (s.bank b).cmd = none) : s.awaits b p = false := by
  rw [State.awaits, h]

theorem Bank.openDone_of_opening {x : Bank} {row : Nat} (h : x.cmd = some (.opening row)) : x.openDone = { x with cmd := none, openRow := some row } := by
  rw [Bank.openDone, h]

theorem Bank.closeDone_of_closing {x : Bank} (h : x.cmd = some .closing) : x.closeDone = { x with cmd := none, openRow := none } := by
  rw [Bank.closeDone, h]

theorem Bank.refreshDone_of_burst {x : Bank} (h : x.cmd = some .refreshing) (hburst : x.burst ≠ 0) :
    x.refreshDone = { x with cmd := none, burst := x.burst - 1 } := by
  rw [Bank.refreshDone, h]
  dsimp only
  rw [if_neg hburst]

theorem Bank.refreshDone_of_debt {x : Bank} (h : x.cmd = some .refreshing) (hburst : x.burst = 0) :
    x.refreshDone = { x with cmd := none, debt := x.debt - 1 } := by
  obtain ⟨⟩ := x
  subst hburst
  rw [Bank.refreshDone, h]
  rfl

theorem Bank.columnDone_of_last {x : Bank} {n : Nat} {r : BankReq} (h : x.cmd = some (.column n)) (hr : x.queue[n]? = some r)
    (hlast : r.columns ≤ 1) : x.columnDone = ({ x with cmd := none, queue := x.queue.eraseIdx n } : Bank).settle := by
  rw [Bank.columnDone, h]
  dsimp only
  rw [hr]
  dsimp only
  rw [if_pos hlast]

theorem Bank.columnDone_of_more {x : Bank} {n : Nat} {r : BankReq} (h : x.cmd = some (.column n)) (hr : x.queue[n]? = some r)
    (hmore : 1 < r.columns) : x.columnDone = ({ x with
      cmd := none, queue := modAt (fun r => { r with col := r.col + 1, columns := r.columns - 1 }) x.queue n } : Bank).settle := by
  rw [Bank.columnDone, h]
  dsimp only
  rw [hr]
  dsimp only
  rw [if_neg (Nat.not_le.2 hmore)]

theorem exec_columnDone_of_column {n symbols : Nat} (h : (s.bank b).cmd = some (.column n)) :
    exec (.columnDone b symbols) s = .next ((s.columnError (s.columnAddr b) symbols).drive b (s.bank b).columnDone) := by
  have hbanks : (s.columnError (s.columnAddr b) symbols).banks = s.banks :=
    (State.columnError_keeps .rfl rfl rfl rfl rfl : Keeps (oneOf [.flash, .fcu, .regs, .mem]) s _).frame .banks rfl
  have hbank : (s.columnError (s.columnAddr b) symbols).bank b = s.bank b := by rw [State.bank, hbanks, State.bank]
  refine congrArg Host.Outcome.next ((if_pos (State.awaits_of_cmd isColumn h)).trans ?_)
  rw [State.columnEvent, hbank]

theorem exec_columnDone_of_clean {n : Nat} (h : (s.bank b).cmd = some (.column n)) :
    exec (.columnDone b 0) s = .next (s.drive b (s.bank b).columnDone) :=
  exec_columnDone_of_column h

/-! ### What the column code does with symbols in error (R71, R72) -/

theorem State.columnError_corrected (p : Nat) : s.columnError p 1 =
    (s.countFld (placedStack p / 4) (placedStack p % 4) 0 SC_ECC_COUNT.CORRECTED 1).raise (placedStack p / 4) 0x0101
      (.sc (placedStack p % 4)) 0 (alignDown p 1024) := rfl

theorem State.columnError_recovered {p symbols : Nat} (hsym : 2 ≤ symbols)
    (h : (s.stack (placedStack p)).recoverable (placedDie p) (placedBank p) (rowPos p) = true) : s.columnError p symbols =
    (s.countFld (placedStack p / 4) (placedStack p % 4) 0 SC_ECC_COUNT.RECONSTRUCTED 1).raise (placedStack p / 4) 0x0102
      (.sc (placedStack p % 4)) 0 (alignDown p 1024) :=
  (if_neg (by omega)).trans ((if_neg (by omega)).trans (if_pos h))

theorem State.columnError_poisoned {p symbols : Nat} (hsym : 2 ≤ symbols)
    (h : (s.stack (placedStack p)).recoverable (placedDie p) (placedBank p) (rowPos p) = false) : s.columnError p symbols = s.poisonLine p :=
  (if_neg (by omega)).trans ((if_neg (by omega)).trans (if_neg (by simp [h])))

/-! ### Result lines -/

theorem State.seqStart_of_ran {j : SeqJob} (h : j.ran = true) : s.seqStart j = s := by
  have hruns : s.seqRuns j = false := by simp [State.seqRuns, h]
  rw [State.seqStart, if_neg (by simp [hruns]), if_neg (by simp [h])]

theorem State.seqOf_onSeq {id : Nat} {j : SeqJob} {f : SeqJob → SeqJob} (hf : ∀ x, (f x).id = x.id) (h : s.seqOf id = some j) :
    (s.onSeq id f).seqOf id = some (f j) := by
  have hid : ((fun x : SeqJob => decide (x.id = id)) ∘ fun x : SeqJob => if x.id = id then f x else x) = fun x => decide (x.id = id) := by
    funext x
    simp only [Function.comp]
    split
    · next hx => rw [hf]
    · rfl
  have hj : j.id = id := by simpa using List.find?_some h
  rw [State.seqOf, State.onSeq, List.find?_map, hid, show s.seqs.find? (fun x => decide (x.id = id)) = some j from h, Option.map_some, if_pos hj]

theorem State.takeLine_spec {j : SeqJob} {x : Bau} {l : List Byte} {rest : List (List Byte)} (hseq : s.seqOf j.id = some j)
    (hbau : mfind s.baus (bankKey j.d.bank) = some x) (hfifo : x.fifo = l :: rest) :
    (s.takeLine j).seqOf j.id = some { j with taken := j.taken + 1 } ∧
      mfind (s.takeLine j).baus (bankKey j.d.bank) = some { x with
        fifo := rest ++ if j.taken + 8 < lineCount j.stream then [resultLineAt j.stream (j.taken + 8)] else [] } ∧
      s.takeLine j = { s with baus := (s.takeLine j).baus, seqs := (s.takeLine j).seqs, sent := (s.takeLine j).sent,
                              mem := { s.mem with snoops := (s.takeLine j).mem.snoops } } := by
  obtain ⟨more, hmore⟩ : ∃ more, more = if j.taken + 8 < lineCount j.stream then [resultLineAt j.stream (j.taken + 8)] else [] := ⟨_, rfl⟩
  obtain ⟨needs, htake⟩ : ∃ needs, s.takeLine j = (({ s with baus := mput s.baus (bankKey j.d.bank) { x with fifo := rest ++ more } } : State).onSeq j.id
      fun j => { j with taken := j.taken + 1 }).issueSnoops needs := by
    rw [State.takeLine, hbau]
    dsimp only
    rw [hfifo, hmore]
    exact ⟨_, rfl⟩
  have hlines : (({ s with baus := mput s.baus (bankKey j.d.bank) { x with fifo := rest ++ more } } : State).onSeq j.id
      fun j => { j with taken := j.taken + 1 }).seqOf j.id = some { j with taken := j.taken + 1 } :=
    State.seqOf_onSeq (s := { s with baus := _ }) (fun _ => rfl) hseq
  rw [← hmore, htake, State.issueSnoops_frame]
  exact ⟨hlines, mfind_mput_self, rfl⟩

theorem exec_resultReady_takes :
    ∀ (s : State) (b : BankId) (j : SeqJob) (x : Bau) (l : List Byte) (rest : List (List Byte)), s.seqAt b = some j → s.seqOf j.id = some j → j.ran = true →
    mfind s.baus (bankKey b) = some x → x.fifo = l :: rest →
    ∃ t, exec (.resultReady b) s = .next t ∧ t.seqOf j.id = some { j with taken := j.taken + 1 } ∧
      mfind t.baus (bankKey b) = some { x with fifo := rest ++ if j.taken + 8 < lineCount j.stream then [resultLineAt j.stream (j.taken + 8)] else [] } ∧
      t = { s with baus := t.baus, seqs := t.seqs, sent := t.sent, mem := { s.mem with snoops := t.mem.snoops } } := by
  intro s b j x l rest hat hseq hran hbau hfifo
  have hbank : j.d.bank = b := by
    have hj := List.find?_some hat
    simp only [Bool.and_eq_true, decide_eq_true_eq] at hj
    exact hj.2
  subst hbank
  have hready : s.resultReady j = s.takeLine j := by
    rw [State.resultReady, State.seqStart_of_ran hran, hseq]
    exact if_pos hran
  refine ⟨s.takeLine j, ?_, State.takeLine_spec hseq hbau hfifo⟩
  change execResultReady j.d.bank s = _
  rw [execResultReady, show s.seqs.find? (fun k => k.token && decide (k.d.bank = j.d.bank)) = some j from hat]
  exact congrArg Host.Outcome.next hready

/-! ### Refresh -/

theorem Bank.refreshDue_forced {x : Bank} (held : Bool) (h : 8 ≤ x.debt) : x.refreshDue held = { x with debt := 0, burst := 9 } := if_pos h

theorem Bank.refreshDue_postponed {x : Bank} {held : Bool} (h : x.debt < 8) (hbusy : x.busy = true ∨ held = true) :
    x.refreshDue held = { x with debt := x.debt + 1 } :=
  (if_neg (by omega)).trans (if_pos (by simpa using hbusy))

theorem Bank.refreshDue_performed {x : Bank} {held : Bool} (h : x.debt < 8) (hidle : x.busy = false) (hheld : held = false) :
    x.refreshDue held = { x with burst := 1 } :=
  (if_neg (by omega)).trans (if_neg (by simp [hidle, hheld]))

theorem exec_refreshDue_of_awake (hb : bankExists b = true) (hawake : (s.stack b.stk).sr = .awake) (hdebt : (s.bank b).debt < 8) :
    exec (.refreshDue b) s = .next (s.drive b ((s.bank b).refreshDue (s.seqHolds b))) := by
  refine congrArg Host.Outcome.next ((State.whenP_pos ⟨hb, by simp [hawake], by simp [hawake]⟩).trans ?_)
  dsimp only
  rw [if_neg (by omega)]

theorem exec_refreshDue_of_debt (hb : bankExists b = true) (hawake : (s.stack b.stk).sr = .awake) (hdebt : 8 ≤ (s.bank b).debt) :
    exec (.refreshDue b) s = .next ((s.countFld (b.stk / 4) (b.stk % 4) 0 SC_REFRESH_DEBT.FORCED 1).drive b
      { s.bank b with debt := 0, burst := 9 }) := by
  refine congrArg Host.Outcome.next ((State.whenP_pos ⟨hb, by simp [hawake], by simp [hawake]⟩).trans ?_)
  dsimp only
  rw [if_pos hdebt, Bank.refreshDue_forced _ hdebt]

end BankEvents

/-- Settles O24: each event by the command that it answers. -/
theorem bankEventsRefreshAndTimers : Obligations.BankEventsRefreshAndTimers := by
  unfold Obligations.BankEventsRefreshAndTimers
  refine ⟨⟨?opened, ?last, ?more, ?corrected, ?recovered, ?poisoned, ?closed, ?burst, ?debt, exec_resultReady_takes, ?noSeq, ?none⟩,
    ?postponed, ?forced, ?performed, ?asleep, ?aged, ?idle⟩
  case opened =>
    intro s b row h
    rw [← Bank.openDone_of_opening h]
    exact congrArg Host.Outcome.next (State.when_pos (State.awaits_of_cmd _ h))
  case last => exact fun s b n r h hr hlast => by rw [exec_columnDone_of_clean h, Bank.columnDone_of_last h hr hlast]
  case more => exact fun s b n r h hr hmore => by rw [exec_columnDone_of_clean h, Bank.columnDone_of_more h hr hmore]
  case corrected =>
    intro s b n h _ hstk
    rw [exec_columnDone_of_column h, State.columnError_corrected, hstk]
  case recovered =>
    intro s b n symbols h _ hstk hsym hrec
    rw [exec_columnDone_of_column h, State.columnError_recovered hsym (by rw [hstk]; exact hrec), hstk]
  case poisoned =>
    intro s b n symbols h _ hstk hsym hrec
    rw [exec_columnDone_of_column h, State.columnError_poisoned hsym (by rw [hstk]; exact hrec)]
  case closed =>
    intro s b h
    rw [← Bank.closeDone_of_closing h]
    exact congrArg Host.Outcome.next (State.when_pos (State.awaits_of_cmd _ h))
  case burst =>
    intro s b h hburst
    rw [← Bank.refreshDone_of_burst h hburst]
    exact congrArg Host.Outcome.next (State.when_pos (State.awaits_of_cmd _ h))
  case debt =>
    intro s b h hburst
    rw [← Bank.refreshDone_of_debt h hburst]
    exact congrArg Host.Outcome.next (State.when_pos (State.awaits_of_cmd _ h))
  case noSeq =>
    intro s b hnone
    have hfind : s.seqs.find? (fun j => j.token && decide (j.d.bank = b)) = none := List.find?_eq_none.2 fun j hj => by simp [hnone j hj]
    change execResultReady b s = _
    rw [execResultReady, hfind]
  case none =>
    intro s b h
    exact ⟨congrArg Host.Outcome.next (State.when_neg (State.awaits_of_none _ h)),
      congrArg Host.Outcome.next (State.when_neg (State.awaits_of_none _ h)),
      congrArg Host.Outcome.next (State.when_neg (State.awaits_of_none _ h))⟩
  case postponed => exact fun s b hb hawake hbusy hdebt => by rw [exec_refreshDue_of_awake hb hawake hdebt, Bank.refreshDue_postponed hdebt hbusy]
  case forced => exact fun s b => exec_refreshDue_of_debt
  case performed =>
    exact fun s b hb hawake hidle hheld hdebt => by rw [exec_refreshDue_of_awake hb hawake hdebt, Bank.refreshDue_performed hdebt hidle hheld]
  case asleep =>
    intro s b hsr
    refine congrArg Host.Outcome.next (State.whenP_neg fun ⟨_, hasleep, hwaking⟩ => ?_)
    exact hsr.elim hasleep hwaking
  case aged => exact fun s b n hn => congrArg Host.Outcome.next (State.whenP_pos hn)
  case idle => exact fun s b hidle hcmd hseq hchan => congrArg Host.Outcome.next (State.whenP_pos ⟨hidle, hcmd, hseq, hchan⟩)

end Sys2Proof.Machine

/-! The request that a bank serves next, and what it is sent (R68, R73, R75, R81 to R83, R147, R150). -/

namespace Sys2Proof.Machine

open Sys2Proof

section Rank

/-! ### The first request of a kind -/

theorem firstIdx_eq_findIdx? (p : BankReq → Bool) (k : Nat) (l : List BankReq) : firstIdx p k l = (l.findIdx? p).map (· + k) := by
  induction l generalizing k with
  | nil => rfl
  | cons r l ih =>
    rw [firstIdx, List.findIdx?_cons, ih]
    split
    · simp
    · rw [Option.map_map]
      exact congrArg (Option.map · _) (funext fun n => by simp [Function.comp]; omega)

theorem firstIdx_eq_some {p : BankReq → Bool} {l : List BankReq} {n : Nat} (h : firstIdx p 0 l = some n) :
    ∃ r, l[n]? = some r ∧ p r = true ∧ ∀ m r', m < n → l[m]? = some r' → p r' = false := by
  rw [firstIdx_eq_findIdx?] at h
  have h : l.findIdx? p = some n := by simpa using h
  obtain ⟨hn, hp, hfirst⟩ := List.findIdx?_eq_some_iff_getElem.1 h
  refine ⟨l[n], List.getElem?_eq_getElem hn, hp, fun m r' hm hr => ?_⟩
  obtain ⟨hlt, rfl⟩ := List.getElem?_eq_some_iff.1 hr
  simpa using hfirst m hm

theorem firstIdx_eq_none {p : BankReq → Bool} {l : List BankReq} : firstIdx p 0 l = none ↔ ∀ r ∈ l, p r = false := by
  rw [firstIdx_eq_findIdx?, Option.map_eq_none_iff, List.findIdx?_eq_none_iff]

/-! ### Rank (R73, R75) -/

theorem Bank.first_spec (x : Bank) (p : BankReq → Bool) (n : Nat) (h : x.first p = some n) : ∃ r, x.queue[n]? = some r ∧ p r = true ∧
    ((x.inOrder.isSome = true ∧ ∀ m r', m < n → x.queue[m]? = some r' → p r' = false) ∨
     (x.inOrder = none ∧ r.urgent = true ∧ ∀ m r', m < n → x.queue[m]? = some r' → p r' = true → r'.urgent = false) ∨
     (x.inOrder = none ∧ (∀ r' ∈ x.queue, p r' = true → r'.urgent = false) ∧ r.seq = none ∧ x.openRow = some r.row ∧
       ∀ m r', m < n → x.queue[m]? = some r' → p r' = true → r'.seq = none → x.openRow ≠ some r'.row) ∨
     (x.inOrder = none ∧ (∀ r' ∈ x.queue, p r' = true → r'.urgent = false ∧ (r'.seq = none → x.openRow ≠ some r'.row)) ∧
       ∀ m r', m < n → x.queue[m]? = some r' → p r' = false)) := by
  unfold Bank.first at h
  split at h
  · next horder =>
    obtain ⟨r, hr, hp, hfirst⟩ := firstIdx_eq_some h
    exact ⟨r, hr, hp, .inl ⟨horder, hfirst⟩⟩
  next horder =>
  have horder : x.inOrder = none := by simpa using horder
  split at h
  · next k hk =>
    cases h
    obtain ⟨r, hr, hp, hfirst⟩ := firstIdx_eq_some hk
    rw [Bool.and_eq_true] at hp
    exact ⟨r, hr, hp.1, .inr (.inl ⟨horder, hp.2, fun m r' hm hr' hp' => by simpa [hp'] using hfirst m r' hm hr'⟩)⟩
  next hurgent =>
  have hcalm : ∀ r' ∈ x.queue, p r' = true → r'.urgent = false := fun r' hr' hp' => by simpa [hp'] using firstIdx_eq_none.1 hurgent r' hr'
  split at h
  · next k hk =>
    cases h
    obtain ⟨r, hr, hp, hfirst⟩ := firstIdx_eq_some hk
    simp only [Bool.and_eq_true, Option.isNone_iff_eq_none, decide_eq_true_eq] at hp
    obtain ⟨⟨hp, hseq⟩, hrow⟩ := hp
    exact ⟨r, hr, hp, .inr (.inr (.inl ⟨horder, hcalm, hseq, hrow, fun m r' hm hr' hp' hseq' => by
      simpa [hp', hseq'] using hfirst m r' hm hr'⟩))⟩
  next hhit =>
  obtain ⟨r, hr, hp, hfirst⟩ := firstIdx_eq_some h
  exact ⟨r, hr, hp, .inr (.inr (.inr ⟨horder, fun r' hr' hp' => ⟨hcalm r' hr' hp', fun hseq' => by
    simpa [hp', hseq'] using firstIdx_eq_none.1 hhit r' hr'⟩, hfirst⟩))⟩

theorem Bank.first_eq_none {x : Bank} {p : BankReq → Bool} (h : x.first p = none) : ∀ r ∈ x.queue, p r = false := by
  unfold Bank.first at h
  split at h
  · exact firstIdx_eq_none.1 h
  · split at h
    · cases h
    · split at h
      · cases h
      · exact firstIdx_eq_none.1 h

/-! ### The request served next (R73, R75, R150) -/

theorem BankReq.sameLine_self {q : BankReq} (h : q.write = true) : q.sameLine q = true := by simp [BankReq.sameLine, h]

theorem BankReq.sameLine_of_read {q r : BankReq} (h : q.write = false) : q.sameLine r = false := by simp [BankReq.sameLine, h]

theorem Bank.pick_eq (x : Bank) {k : Nat} {q : BankReq} (hk : (x.first fun r => r.seq.isNone) = some k) (hq : x.queue[k]? = some q) :
    x.pick = if q.write then firstIdx (fun r => r.seq.isNone && q.sameLine r) 0 x.queue else some k := by
  rw [Bank.pick, hk]
  dsimp only
  rw [hq]

theorem Bank.pick_spec (x : Bank) (n : Nat) (h : x.pick = some n) : ∃ k q r, (x.first fun r => r.seq.isNone) = some k ∧
    x.queue[k]? = some q ∧ x.queue[n]? = some r ∧ r.seq = none ∧
    (n = k ∨ n < k ∧ q.sameLine r = true) ∧ ∀ m r', m < n → x.queue[m]? = some r' → r'.seq = none → q.sameLine r' = false := by
  obtain ⟨k, hk⟩ : ∃ k, (x.first fun r => r.seq.isNone) = some k := by
    rw [Bank.pick] at h
    split at h
    · next k hk => exact ⟨k, hk⟩
    · cases h
  obtain ⟨q, hq, hfree, -⟩ := x.first_spec _ _ hk
  have hfree : q.seq = none := by simpa using hfree
  rw [x.pick_eq hk hq] at h
  split at h
  · next hwrite =>
    obtain ⟨r, hr, hp, hfirst⟩ := firstIdx_eq_some h
    simp only [Bool.and_eq_true, Option.isNone_iff_eq_none] at hp
    refine ⟨k, q, r, hk, hq, hr, hp.1, ?_, fun m r' hm hr' hseq' => by simpa [hseq'] using hfirst m r' hm hr'⟩
    rcases Nat.lt_trichotomy n k with hlt | heq | hgt
    · exact .inr ⟨hlt, hp.2⟩
    · exact .inl heq
    · have hself := hfirst k q hgt hq
      rw [hfree, BankReq.sameLine_self hwrite] at hself
      exact absurd hself (by decide)
  · next hread =>
    obtain rfl : k = n := Option.some.inj h
    exact ⟨k, q, q, hk, hq, hq, hfree, .inl rfl, fun m r' _ _ _ => BankReq.sameLine_of_read (by simpa using hread)⟩

theorem Bank.pick_eq_none (x : Bank) : x.pick = none ↔ ∀ r ∈ x.queue, r.seq ≠ none := by
  constructor
  · intro h
    cases hk : x.first fun r => r.seq.isNone with
    | none => exact fun r hr hfree => by simpa [hfree] using Bank.first_eq_none hk r hr
    | some k =>
      obtain ⟨q, hq, hfree, -⟩ := x.first_spec _ _ hk
      rw [x.pick_eq hk hq] at h
      split at h
      · next hwrite =>
        have hself := firstIdx_eq_none.1 h q (List.mem_of_getElem? hq)
        rw [hfree, BankReq.sameLine_self hwrite] at hself
        exact absurd hself (by decide)
      · cases h
  · intro h
    cases hpick : x.pick with
    | none => rfl
    | some n =>
      obtain ⟨_, _, r, _, _, hr, hfree, _⟩ := x.pick_spec n hpick
      exact absurd hfree (h r (List.mem_of_getElem? hr))

/-! ### The bank's next command (R68, R76, R81 to R83) -/

theorem Bank.refreshNext_cmd (x : Bank) (allowed : Bool) (h : x.cmd = none) :
    (x.refreshNext allowed).cmd = if x.openRow.isSome then some .closing else if allowed then some .refreshing else none := by
  unfold Bank.refreshNext
  cases x.openRow with
  | some row => rfl
  | none => cases allowed with
    | true => rfl
    | false => exact h

theorem Bank.advance_of_burst (x : Bank) (held allowed : Bool) (hcmd : x.cmd = none) (hburst : x.burst ≠ 0) :
    x.advance held allowed = x.refreshNext allowed := by
  rw [Bank.advance, if_neg (by simp [hcmd]), if_pos hburst]

theorem Bank.advance_of_held (x : Bank) (allowed : Bool) (hcmd : x.cmd = none) (hburst : x.burst = 0) :
    (x.advance true allowed).cmd = if x.openRow.isSome then some .closing else none := by
  rw [Bank.advance, if_neg (by simp [hcmd]), if_neg (by simp [hburst]), if_pos rfl]
  split
  · rfl
  · exact hcmd

theorem Bank.advance_of_pick (x : Bank) (n : Nat) (r : BankReq) (allowed : Bool) (hcmd : x.cmd = none) (hburst : x.burst = 0)
    (hpick : x.pick = some n) (hr : x.queue[n]? = some r) :
    (x.advance false allowed).cmd = some (if x.openRow = some r.row then .column n else if x.openRow = none then .opening r.row else .closing) := by
  rw [Bank.advance, if_neg (by simp [hcmd]), if_neg (by simp [hburst]), if_neg Bool.false_ne_true, hpick]
  dsimp only
  rw [hr]
  cases hrow : x.openRow with
  | none => rfl
  | some row =>
    dsimp only
    by_cases h : row = r.row
    · rw [if_pos h, if_pos (congrArg some h)]
    · rw [if_neg h, if_neg (fun heq => h (Option.some.inj heq)), if_neg (by simp)]

theorem Bank.advance_of_no_pick (x : Bank) (allowed : Bool) (hcmd : x.cmd = none) (hburst : x.burst = 0) (hpick : x.pick = none) :
    (x.advance false allowed).cmd =
      if x.debt = 0 then none else if x.openRow.isSome then some .closing else if allowed then some .refreshing else none := by
  rw [Bank.advance, if_neg (by simp [hcmd]), if_neg (by simp [hburst]), if_neg Bool.false_ne_true, hpick]
  dsimp only
  by_cases hdebt : x.debt = 0
  · rw [if_neg (not_not.2 hdebt), if_pos hdebt]
    exact hcmd
  · rw [if_pos hdebt, if_neg hdebt, Bank.refreshNext_cmd x allowed hcmd]

end Rank

/-- Settles O25. -/
theorem banksServeInRankOrder : Obligations.BanksServeInRankOrder := by
  unfold Obligations.BanksServeInRankOrder
  refine ⟨Bank.first_spec, Bank.pick_spec, Bank.pick_eq_none, ?burst, Bank.advance_of_held, Bank.advance_of_pick, Bank.advance_of_no_pick,
    ?outstanding⟩
  case burst => exact fun x held allowed hcmd hburst => by rw [x.advance_of_burst held allowed hcmd hburst, x.refreshNext_cmd allowed hcmd]
  case outstanding => exact fun x held allowed h => if_pos h

end Sys2Proof.Machine

/-! Self-refresh, the stack's temperature readings, and faulty channels and wires (R65 to R72, R80 to R90). -/

namespace Sys2Proof.Machine

open Sys2Proof

section Stacks

variable {s : State}

/-! ### Self-refresh -/

theorem State.stack_onStack_self (k : Nat) (f : Stack → Stack) : (s.onStack k f).stack k = f (s.stack k) := State.stack_setStack_self ..

/-- A stack sent the self-refresh command: its banks have nothing left to do (R84). -/
def State.sentToSleep (s : State) (k : Nat) : State :=
  { (s.onStack k fun st => { st with sr := .commanded }) with banks := s.banks.filter fun kb => kb.1 / 128 / 17 ≠ k }

theorem State.sentToSleep_banksOf (k : Nat) : (s.sentToSleep k).banksOf k = [] := by
  rw [State.banksOf, State.sentToSleep, List.filter_filter, List.filter_eq_nil_iff]
  intro kb _
  simp

theorem State.sentToSleep_stack (k : Nat) : (s.sentToSleep k).stack k = { s.stack k with sr := .commanded } :=
  State.stack_onStack_self (s := s) k fun st => { st with sr := .commanded }

theorem exec_srEntryDelayExpiry_of_idle {k : Nat} (hk : k < 32) (hwait : (s.stack k).sr = .waiting)
    (hidle : ∀ kb ∈ s.banksOf k, kb.2.queue = []) (hheld : s.actHeld k = 0) :
    exec (.srEntryDelayExpiry k) s = .next (s.sentToSleep k) :=
  congrArg Host.Outcome.next (State.whenP_pos ⟨hk, hwait, List.all_eq_true.2 fun kb hkb => by rw [hidle kb hkb]; rfl, hheld⟩)

theorem exec_selfRefreshEntered_of_commanded {k : Nat} (hk : k < 32) (hsr : (s.stack k).sr = .commanded) :
    exec (.selfRefreshEntered k) s = .next (s.setStack k { s.stack k with
      sr := if (s.stack k).stopped || [.enteringDormant, .dormant, .safe].contains s.power.mode then .asleep else .waking }) :=
  congrArg Host.Outcome.next (State.whenP_pos ⟨hk, hsr⟩)

theorem exec_selfRefreshEntered_stays {k : Nat} (hk : k < 32) (hsr : (s.stack k).sr = .commanded)
    (h : (s.stack k).stopped = true ∨ s.power.mode = .enteringDormant ∨ s.power.mode = .dormant ∨ s.power.mode = .safe) :
    exec (.selfRefreshEntered k) s = .next (s.setStack k { s.stack k with sr := .asleep }) := by
  have hsleep : ((s.stack k).stopped || [.enteringDormant, .dormant, .safe].contains s.power.mode) = true := by
    rcases h with h | h | h | h <;> simp [h]
  rw [exec_selfRefreshEntered_of_commanded hk hsr, if_pos hsleep]

theorem exec_selfRefreshEntered_leaves {k : Nat} (hk : k < 32) (hsr : (s.stack k).sr = .commanded) (hrun : (s.stack k).stopped = false)
    (hready : s.power.mode = .ready) :
    exec (.selfRefreshEntered k) s = .next (s.setStack k { s.stack k with sr := .waking }) := by
  rw [exec_selfRefreshEntered_of_commanded hk hsr, if_neg (by simp [hrun, hready])]

/-! ### A channel that resumes -/

/-- The banks of a channel sent their next commands. -/
def State.resumeBanks (s : State) (k ch : Nat) : State := (channelBanks k ch).foldl (fun s b => s.drive b (s.bank b)) s

theorem State.resumeBanks_keeps (k ch : Nat) : Keeps (oneOf [.banks]) s (s.resumeBanks k ch) :=
  Keeps.foldl (fun _ _ h => State.drive_keeps h rfl) .rfl

theorem State.resumeBanks_other {k ch q : Nat} (hq : q ∉ (channelBanks k ch).map bankKey) :
    mfind (s.resumeBanks k ch).banks q = mfind s.banks q := by
  refine List.foldlRecOn (motive := fun u : State => mfind u.banks q = mfind s.banks q) _ _ rfl fun u hu b hb => ?_
  have hne : q ≠ bankKey b := fun h => hq (h ▸ List.mem_map_of_mem hb)
  exact (mfind_mput_ne hne).trans hu

theorem exec_tsvRepair_eq {k ch : Nat} (control : Bool) (hk : k < 32) (hch : ch < 64) :
    exec (.tsvRepair k ch control) s = .next ((s.repairWire k ch control).resumeBanks k ch).retry :=
  congrArg Host.Outcome.next (State.whenP_pos ⟨hk, hch⟩)

/-! ### The wire repaired -/

/-- A channel's state after its repair. -/
def State.setChannel (s : State) (k ch : Nat) (c : Channel) : State :=
  s.onStack k fun st => { st with channels := mput st.channels ch { c with faulty := false } }

theorem State.setChannel_stack (k ch : Nat) (c : Channel) :
    (s.setChannel k ch c).stack k = { s.stack k with channels := mput (s.stack k).channels ch { c with faulty := false } } :=
  State.stack_onStack_self ..

theorem State.repairWire_data_spare {k ch : Nat} {c : Channel} (hc : c = mget freshChannel (s.stack k).channels ch) (h : c.dataUsed < 4) :
    s.repairWire k ch false =
      ((s.setChannel k ch { c with dataUsed := c.dataUsed + 1 }).logRepair (.tsv k ch false)).raise (k / 4) 0x0103 (scUnit k) 0 0 := by
  subst hc
  unfold State.repairWire
  dsimp only
  rw [if_neg Bool.false_ne_true, if_pos h]
  rfl

theorem State.repairWire_data_lost {k ch : Nat} {c : Channel} (hc : c = mget freshChannel (s.stack k).channels ch) (h : 4 ≤ c.dataUsed) :
    s.repairWire k ch false =
      ((s.setChannel k ch { c with dataLost := c.dataLost + 1 }).onStack k fun st => { st with degraded := true }).raise (k / 4) 0x0104
        (scUnit k) 0 0 := by
  subst hc
  unfold State.repairWire
  dsimp only
  rw [if_neg Bool.false_ne_true, if_neg (Nat.not_lt.2 h)]
  rfl

theorem State.repairWire_control_spare {k ch : Nat} {c : Channel} (hc : c = mget freshChannel (s.stack k).channels ch) (h : c.controlUsed < 2) :
    s.repairWire k ch true =
      ((s.setChannel k ch { c with controlUsed := c.controlUsed + 1 }).logRepair (.tsv k ch true)).raise (k / 4) 0x0103 (scUnit k) 0 0 := by
  subst hc
  unfold State.repairWire
  dsimp only
  rw [if_pos rfl, if_pos h]
  rfl

theorem State.ringPut_flash (d : Nat) (bytes : List Byte) : (s.ringPut d bytes).flash = s.flash :=
  (State.ringPut_keeps .rfl rfl rfl : Keeps (oneOf [.fcu, .regs]) s _).frame .flash rfl

theorem State.countClass_flash (d cls : Nat) : (s.countClass d cls).flash = s.flash :=
  (State.countClass_keeps .rfl rfl : Keeps (oneOf [.regs]) s _).frame .flash rfl

/-- A class C fault is not written to flash (R456, R472). -/
theorem State.raise_flash_of_classC {d id : Nat} (u : FaultUnit) (task detail : Nat) (h : faultClass id = 0) :
    (s.raise d id u task detail).flash = s.flash := by
  by_cases hoff : s.power.mode = .off
  · rw [State.raise_of_off _ _ _ _ _ hoff]
  · rw [State.raise_classC hoff h, State.logged, State.countClass_flash, State.ringPut_flash]

/-- What the repair of a wire leaves: the fault that reports it touches neither the stack nor the repair log. -/
theorem State.resumed_spec {u : State} {k ch id : Nat} (hid : faultClass id = 0) (hu : Keeps (oneOf [.stackMap, .flash]) s u) :
    let v := (u.raise (k / 4) id (scUnit k) 0 0).resumeBanks k ch
    v.stack k = u.stack k ∧ v.flash = u.flash ∧ (∀ q, q ∉ (channelBanks k ch).map bankKey → mfind v.banks q = mfind s.banks q) ∧
      v = { s with stackMap := v.stackMap, banks := v.banks, regs := v.regs, fcu := v.fcu, flash := v.flash } := by
  have hraise := u.raise_keepsFaultParts (k / 4) id (scUnit k) 0 0
  have hflash := u.raise_flash_of_classC (d := k / 4) (scUnit k) 0 0 hid
  generalize u.raise (k / 4) id (scUnit k) 0 0 = w at hraise hflash ⊢
  have hresume := w.resumeBanks_keeps k ch
  have hbanks : w.banks = s.banks := (hraise.frame .banks rfl).trans (hu.frame .banks rfl)
  have hother : ∀ q, q ∉ (channelBanks k ch).map bankKey → mfind (w.resumeBanks k ch).banks q = mfind s.banks q := fun q hq => by
    rw [State.resumeBanks_other hq, hbanks]
  generalize w.resumeBanks k ch = v at hresume hother ⊢
  refine ⟨?_, (hresume.frame .flash rfl).trans hflash, hother, ?_⟩
  · rw [State.stack_of_stackMap_eq ((hresume.frame .stackMap rfl).trans (hraise.frame .stackMap rfl))]
  · exact (((hu.widen (l' := [.stackMap, .flash, .banks, .regs, .fcu]) (by decide)).trans (hraise.widen (by decide))).trans
      (hresume.widen (by decide))).eq_graft

theorem exec_tsvRepair_data_spare :
    ∀ (s : State) (k ch : Nat) (c : Channel), k < 32 → ch < 64 → c = mget freshChannel (s.stack k).channels ch → c.dataUsed < 4 →
    ∃ u : State, exec (.tsvRepair k ch false) s = .next u.retry ∧
      u.stack k = { s.stack k with channels := mput (s.stack k).channels ch { c with dataUsed := c.dataUsed + 1, faulty := false } } ∧
      u.flash.repair = s.flash.repair ++ [.tsv k ch false] ∧ (∀ q, q ∉ (channelBanks k ch).map bankKey → mfind u.banks q = mfind s.banks q) ∧
      u = { s with stackMap := u.stackMap, banks := u.banks, regs := u.regs, fcu := u.fcu, flash := u.flash } := by
  intro s k ch c hk hch hc hfree
  have hu : Keeps (oneOf [.stackMap, .flash]) s ((s.setChannel k ch { c with dataUsed := c.dataUsed + 1 }).logRepair (.tsv k ch false)) :=
    State.logRepair_keeps (State.onStack_keeps .rfl rfl) rfl
  obtain ⟨hstack, hflash, hbanks, hframe⟩ := State.resumed_spec (k := k) (ch := ch) (id := 0x0103) (by decide) hu
  refine ⟨_, ?_, hstack.trans (State.setChannel_stack ..), congrArg Flash.repair hflash, hbanks, hframe⟩
  rw [exec_tsvRepair_eq false hk hch, State.repairWire_data_spare hc hfree]

theorem exec_tsvRepair_control_spare :
    ∀ (s : State) (k ch : Nat) (c : Channel), k < 32 → ch < 64 → c = mget freshChannel (s.stack k).channels ch → c.controlUsed < 2 →
    ∃ u : State, exec (.tsvRepair k ch true) s = .next u.retry ∧
      u.stack k = { s.stack k with channels := mput (s.stack k).channels ch { c with controlUsed := c.controlUsed + 1, faulty := false } } ∧
      u.flash.repair = s.flash.repair ++ [.tsv k ch true] ∧ (∀ q, q ∉ (channelBanks k ch).map bankKey → mfind u.banks q = mfind s.banks q) ∧
      u = { s with stackMap := u.stackMap, banks := u.banks, regs := u.regs, fcu := u.fcu, flash := u.flash } := by
  intro s k ch c hk hch hc hfree
  have hu : Keeps (oneOf [.stackMap, .flash]) s ((s.setChannel k ch { c with controlUsed := c.controlUsed + 1 }).logRepair (.tsv k ch true)) :=
    State.logRepair_keeps (State.onStack_keeps .rfl rfl) rfl
  obtain ⟨hstack, hflash, hbanks, hframe⟩ := State.resumed_spec (k := k) (ch := ch) (id := 0x0103) (by decide) hu
  refine ⟨_, ?_, hstack.trans (State.setChannel_stack ..), congrArg Flash.repair hflash, hbanks, hframe⟩
  rw [exec_tsvRepair_eq true hk hch, State.repairWire_control_spare hc hfree]

theorem exec_tsvRepair_data_lost :
    ∀ (s : State) (k ch : Nat) (c : Channel), k < 32 → ch < 64 → c = mget freshChannel (s.stack k).channels ch → 4 ≤ c.dataUsed →
    ∃ u : State, exec (.tsvRepair k ch false) s = .next u.retry ∧
      u.stack k = { s.stack k with degraded := true, channels := mput (s.stack k).channels ch { c with dataLost := c.dataLost + 1, faulty := false } } ∧
      (∀ q, q ∉ (channelBanks k ch).map bankKey → mfind u.banks q = mfind s.banks q) ∧
      u = { s with stackMap := u.stackMap, banks := u.banks, regs := u.regs, fcu := u.fcu, flash := u.flash } := by
  intro s k ch c hk hch hc hfull
  have hu : Keeps (oneOf [.stackMap, .flash]) s
      ((s.setChannel k ch { c with dataLost := c.dataLost + 1 }).onStack k fun st => { st with degraded := true }) :=
    State.onStack_keeps (State.onStack_keeps .rfl rfl) rfl
  obtain ⟨hstack, -, hbanks, hframe⟩ := State.resumed_spec (k := k) (ch := ch) (id := 0x0104) (by decide) hu
  refine ⟨_, ?_, ?_, hbanks, hframe⟩
  · rw [exec_tsvRepair_eq false hk hch, State.repairWire_data_lost hc hfull]
  · rw [hstack, State.stack_onStack_self, State.setChannel_stack]

end Stacks

/-- Settles O26. -/
theorem stacksSleepAndChannelsAreRepaired : Obligations.StacksSleepAndChannelsAreRepaired := by
  unfold Obligations.StacksSleepAndChannelsAreRepaired
  refine ⟨⟨?sleep, fun s k => exec_selfRefreshEntered_stays, fun s k => exec_selfRefreshEntered_leaves, ?exit, ?overdue, ?demand⟩,
    ?timeout, ?parity, ?column, exec_tsvRepair_data_spare, exec_tsvRepair_data_lost, exec_tsvRepair_control_spare⟩
  case sleep =>
    intro s k hk hwait hidle hheld
    refine ⟨_, exec_srEntryDelayExpiry_of_idle hk hwait hidle hheld, ?_, State.sentToSleep_banksOf k, rfl⟩
    rw [State.sentToSleep_stack]
  case exit => exact fun s k hk hsr => congrArg Host.Outcome.next (State.whenP_pos ⟨hk, hsr⟩)
  case overdue => exact fun s k hk hsr => congrArg Host.Outcome.next (State.whenP_pos ⟨hk, hsr⟩)
  case demand => exact fun s k hk hrails hsr => congrArg Host.Outcome.next (State.whenP_pos ⟨hk, hrails, hsr⟩)
  case timeout => exact fun s k ch hk hch => ⟨_, congrArg Host.Outcome.next (State.whenP_pos ⟨hk, hch⟩), rfl, State.stack_onStack_self ..⟩
  case parity =>
    exact fun s b hstk hdie hbank => ⟨_, congrArg Host.Outcome.next ((State.whenP_pos ⟨hstk, hdie, hbank⟩).trans (if_neg Bool.false_ne_true)), rfl, State.stack_onStack_self ..⟩
  case column => exact fun s b hstk hdie hbank => congrArg Host.Outcome.next (State.whenP_pos ⟨hstk, hdie, hbank⟩)

end Sys2Proof.Machine

/-! Scrub, rebuild and retirement (R73, R86 to R95, R505). -/

namespace Sys2Proof.Machine

open Sys2Proof

section Scrub

variable {s : State}

/-! ### Patrol scrub -/

/-- What scrub leaves of its status register when no column is in error. -/
def State.scrubbed (s : State) (k : Nat) (behind : Bool) : State :=
  (s.when (s.scrubTurn k (s.fld (k / 4) (k % 4) 0 SC_SCRUB_STATUS.POSITION)) fun t =>
    t.setFld (k / 4) (k % 4) 0 SC_SCRUB_STATUS.POSITION ((s.fld (k / 4) (k % 4) 0 SC_SCRUB_STATUS.POSITION + 1) % rowPositions)).setFld
    (k / 4) (k % 4) 0 SC_SCRUB_STATUS.BEHIND (flag behind)

theorem State.scrubbed_frame (k : Nat) (behind : Bool) : s.scrubbed k behind = { s with regs := (s.scrubbed k behind).regs } :=
  (State.setFld_keeps (State.when_keeps .rfl fun _ h => State.setFld_keeps h rfl) rfl : Keeps (oneOf [.regs]) s _).eq_graft

theorem State.scrubbed_behind (k : Nat) (behind : Bool) :
    (s.scrubbed k behind).fld (k / 4) (k % 4) 0 SC_SCRUB_STATUS.BEHIND = if behind then 1 else 0 := by
  rw [State.scrubbed, State.fld_setFld_self (by decide) (by decide)]
  cases behind <;> rfl

theorem State.scrubbed_position (k : Nat) (behind : Bool) :
    (s.scrubbed k behind).fld (k / 4) (k % 4) 0 SC_SCRUB_STATUS.POSITION =
      if s.scrubTurn k (s.fld (k / 4) (k % 4) 0 SC_SCRUB_STATUS.POSITION)
      then (s.fld (k / 4) (k % 4) 0 SC_SCRUB_STATUS.POSITION + 1) % 6291456 else s.fld (k / 4) (k % 4) 0 SC_SCRUB_STATUS.POSITION := by
  rw [State.scrubbed, State.fld_setFld_other (f := SC_SCRUB_STATUS.BEHIND) (g := SC_SCRUB_STATUS.POSITION) (by decide) (by decide) rfl (by decide)]
  cases s.scrubTurn k (s.fld (k / 4) (k % 4) 0 SC_SCRUB_STATUS.POSITION) with
  | false => rfl
  | true =>
    rw [State.when_pos rfl, State.fld_setFld_self (by decide) (by decide), if_pos rfl]
    exact Nat.mod_eq_of_lt ((Nat.mod_lt _ (by decide)).trans (by decide))

theorem State.scrubTurn_of_idle {k pos : Nat} (h : ∀ b : BankId, b.stk = k → s.seqHolds b = false ∧ (s.bank b).burst = 0 ∧ (s.bank b).cmd = none ∧
    (s.bank b).queue = []) : s.scrubTurn k pos = true := by
  unfold State.scrubTurn
  refine List.all_eq_true.2 fun die _ => ?_
  obtain ⟨hseq, hburst, hcmd, hqueue⟩ := h ⟨k, die, pos % 64⟩ rfl
  have hpick : (s.bank ⟨k, die, pos % 64⟩).pick = none := (Bank.pick_eq_none _).2 fun r hr => by simp [hqueue] at hr
  simp [hseq, hburst, hcmd, hqueue, hpick]

/-! ### Rebuild -/

/-- Registers of a rebuild step: the pointer, and scrub's position where the rebuild does its work (R86). -/
def State.rebuildRegs (s : State) (k p : Nat) : State :=
  let s := s.setFld (k / 4) (k % 4) 0 SC_REBUILD_PROGRESS.POINTER (p + 1)
  if s.fld (k / 4) (k % 4) 0 SC_SCRUB_STATUS.POSITION = p then
    s.setFld (k / 4) (k % 4) 0 SC_SCRUB_STATUS.POSITION ((p + 1) % rowPositions) else s

theorem State.rebuildRegs_keeps (k p : Nat) : Keeps (oneOf [.regs]) s (s.rebuildRegs k p) := by
  unfold State.rebuildRegs
  dsimp only
  split
  · exact State.setFld_keeps (State.setFld_keeps .rfl rfl) rfl
  · exact State.setFld_keeps .rfl rfl

theorem regOff_rebuild_ne (j : Nat) : regOff .SC_REBUILD_PROGRESS j 0 ≠ regOff .SC_SCRUB_STATUS j 0 := by
  have hrebuild : regOff .SC_REBUILD_PROGRESS j 0 = 0x600004 + j * 0x10000 + 0 := rfl
  have hscrub : regOff .SC_SCRUB_STATUS j 0 = 0x600038 + j * 0x10000 + 0 := rfl
  omega

theorem State.rebuildRegs_pointer {k p : Nat} (hp : p + 1 < 2 ^ 23) :
    (s.rebuildRegs k p).fld (k / 4) (k % 4) 0 SC_REBUILD_PROGRESS.POINTER = p + 1 := by
  have hset : (s.setFld (k / 4) (k % 4) 0 SC_REBUILD_PROGRESS.POINTER (p + 1)).fld (k / 4) (k % 4) 0 SC_REBUILD_PROGRESS.POINTER = p + 1 := by
    rw [State.fld_setFld_self (by decide) (by decide)]
    exact Nat.mod_eq_of_lt hp
  unfold State.rebuildRegs
  dsimp only
  split
  · rw [State.fld_setFld_ne (regKey_ne (regOff_rebuild_ne _)), hset]
  · exact hset

theorem exec_rebuildPosition_of_free {k p : Nat} (hk : k < 32) (hrun : (s.stack k).stopped = false) (hreb : (s.stack k).rebuild = some p)
    (hfree : ∀ die, die < 17 → s.seqHolds ⟨k, die, p % 64⟩ = false ∧ (s.bank ⟨k, die, p % 64⟩).burst = 0) :
    exec (.rebuildPosition k) s = .next (s.rebuildStep k) := by
  refine congrArg Host.Outcome.next ((State.whenP_pos ⟨hk, hrun⟩).trans ?_)
  rw [hreb]
  refine State.when_pos (List.all_eq_true.2 fun die hdie => ?_)
  obtain ⟨hseq, hburst⟩ := hfree die (List.mem_range.1 hdie)
  simp [hseq, hburst]

theorem State.rebuildStep_of_more {k p : Nat} (hreb : (s.stack k).rebuild = some p) (hp : p + 1 < rowPositions) :
    s.rebuildStep k = (s.rebuildRegs k p).setStack k { s.stack k with rebuild := some (p + 1) } := by
  unfold State.rebuildStep
  extract_lets st
  rw [show st.rebuild = some p from hreb]
  exact if_pos hp

theorem State.rebuildStep_of_last {k p : Nat} (hreb : (s.stack k).rebuild = some p) (hp : ¬p + 1 < rowPositions) :
    s.rebuildStep k = (s.rebuildRegs k p).setStack k { s.stack k with rebuild := none, parity := false, degraded := true } := by
  unfold State.rebuildStep
  extract_lets st
  rw [show st.rebuild = some p from hreb]
  exact if_neg hp

/-! ### Retirement -/

theorem State.flushLog_repair : s.flushLog.flash.repair = s.flash.repair := rfl

/-- Recording a fault leaves the repair log. -/
theorem State.raise_repair (d id : Nat) (u : FaultUnit) (task detail : Nat) : (s.raise d id u task detail).flash.repair = s.flash.repair := by
  have hlogged : (s.logged d id u task detail).flash = s.flash := by rw [State.logged, State.countClass_flash, State.ringPut_flash]
  have hfiled : (s.filed d id u task detail).flash = s.flash := by rw [State.filed, State.toFlashLog_flash, hlogged]
  have hflush : (s.filed d id u task detail).flushLog.flash.repair = s.flash.repair := by rw [State.flushLog_repair, hfiled]
  by_cases hoff : s.power.mode = .off
  · rw [State.raise_of_off _ _ _ _ _ hoff]
  by_cases hM : faultClass id = 3
  · by_cases hsafe : s.power.mode = .safe
    · rw [State.raise_classM_safe hM hsafe, hflush]
    · rw [State.raise_classM hoff hM hsafe, State.onFcu_flash, hflush]
  · by_cases hC : faultClass id = 0
    · rw [State.raise_classC hoff hC, hlogged]
    · rw [State.raise_classND hoff hC hM, hfiled]

/-- A stack's repair reported: the stack as `f` leaves it, its log entry, and faults raised. -/
structure State.Repaired (s : State) (k : Nat) (r : Repair) (st : Stack) (t : State) : Prop where
  stack : t.stack k = st
  log : t.flash.repair = s.flash.repair ++ [r]
  keeps : Keeps (oneOf [.stackMap, .regs, .fcu, .flash]) s t

theorem State.Repaired.frame {k : Nat} {r : Repair} {st : Stack} {t : State} (h : s.Repaired k r st t) :
    t = { s with stackMap := t.stackMap, regs := t.regs, fcu := t.fcu, flash := t.flash } := h.keeps.eq_graft

theorem State.repaired_onStack (k : Nat) (r : Repair) (f : Stack → Stack) :
    s.Repaired k r (f (s.stack k)) ((s.logRepair r).onStack k f) :=
  ⟨State.stack_onStack_self .., rfl, State.onStack_keeps (State.logRepair_keeps .rfl rfl) rfl⟩

theorem State.Repaired.raise {k : Nat} {r : Repair} {st : Stack} {t : State} (h : s.Repaired k r st t) (d id : Nat) (u : FaultUnit)
    (task detail : Nat) : s.Repaired k r st (t.raise d id u task detail) := by
  have hkeeps := t.raise_keepsFaultParts d id u task detail
  exact ⟨(State.stack_of_stackMap_eq (hkeeps.frame .stackMap rfl) k).trans h.stack, (t.raise_repair ..).trans h.log,
    h.keeps.trans (hkeeps.widen (by decide))⟩

theorem State.Repaired.stackFailed {k : Nat} {r : Repair} {st : Stack} {t : State} (h : s.Repaired k r st t) :
    s.Repaired k r { st with failed := true } (t.stackFailed k) := by
  have hfail : s.Repaired k r { st with failed := true } (t.onStack k fun st => { st with failed := true }) :=
    ⟨by rw [State.stack_onStack_self, h.stack], h.log, State.onStack_keeps h.keeps rfl⟩
  exact hfail.raise ..

theorem exec_bankRetire_of_data {b : BankId} (hstk : b.stk < 32) (hdie : b.die < 16) (hbank : b.bank < 64) :
    exec (.bankRetire b) s = .next (s.retireBank b.stk b.die b.bank) := congrArg Host.Outcome.next (State.whenP_pos ⟨hstk, hdie, hbank⟩)

/-- Losing nothing changes nothing. -/
theorem Stack.lose_nil (st : Stack) : st.lose [] [] = st := by
  simp [Stack.lose]

theorem State.retireBank_recovered {k die bank : Nat} (hin : (s.stack k).bankOut die bank = false) (hparity : (s.stack k).parity = true)
    (hreb : (s.stack k).rebuild = none) (htwins : ∀ q ∈ (s.stack k).recon, q.2 ≠ bank) (hlost : (s.stack k).lost = []) :
    s.Repaired k (.bank k die bank) ((s.stack k).reconstruct die bank) (s.retireBank k die bank) := by
  have htwins : ((s.stack k).recon.filter fun q => q.2 = bank) = [] := List.filter_eq_nil_iff.2 fun q hq => by simp [htwins q hq]
  have hrepaired := (s.repaired_onStack k (.bank k die bank) fun st => (st.reconstruct die bank).lose [] []).raise (k / 4) 0x0105 (scUnit k) 0
    (placedAddr k die bank 0 0)
  rw [Stack.lose_nil] at hrepaired
  unfold State.retireBank
  dsimp only
  rw [if_neg (by simp [hin]), if_neg (by simp [hparity]), hreb, htwins, hlost]
  cases (s.stack k).retired <;> exact hrepaired

theorem State.retireBank_lost {k die bank : Nat} (hin : (s.stack k).bankOut die bank = false) (hparity : (s.stack k).parity = false) :
    s.Repaired k (.bank k die bank) { (s.stack k).lose [⟨die, some bank, 0, rowPositions⟩] [] with failed := true } (s.retireBank k die bank) := by
  unfold State.retireBank
  dsimp only
  rw [if_neg (by simp [hin]), if_pos (by simp [hparity])]
  exact (s.repaired_onStack k _ fun st => st.lose [⟨die, some bank, 0, rowPositions⟩] []).stackFailed

theorem State.retireDie_eq {k die : Nat} (hret : (s.stack k).retired = none) (hlost : (s.stack k).lost = [])
    (hrecon : (s.stack k).recon = []) (hparity : (s.stack k).parity = true) :
    s.retireDie k die = ((s.logRepair (.die k die)).onStack k fun st => { st.lose [] [] with retired := some die, rebuild := some 0 }).raise (k / 4)
      0x0106 (scUnit k) 0 (placedAddr k die 0 0 0) := by
  unfold State.retireDie
  dsimp only
  rw [if_neg (by simp [hret, hlost]), if_pos (by simp [hparity, hret]), hrecon, hlost]
  simp only [List.filter_nil, List.flatMap_nil, List.append_nil, List.isEmpty_nil, if_true]

theorem State.retireDie_first {k die : Nat} (hret : (s.stack k).retired = none) (hlost : (s.stack k).lost = [])
    (hrecon : (s.stack k).recon = []) (hparity : (s.stack k).parity = true) :
    s.Repaired k (.die k die) { s.stack k with retired := some die, rebuild := some 0 } (s.retireDie k die) := by
  have hrepaired := (s.repaired_onStack k (.die k die) fun st => { st.lose [] [] with retired := some die, rebuild := some 0 }).raise (k / 4) 0x0106
    (scUnit k) 0 (placedAddr k die 0 0 0)
  rw [Stack.lose_nil] at hrepaired
  rw [State.retireDie_eq hret hlost hrecon hparity]
  exact hrepaired

/-- What stands on the parity die, and is lost with it (R505). -/
def Stack.onParity (st : Stack) : List Lost :=
  (st.spares.filter (·.done)).map (fun x => (⟨x.die, some x.bank, 0, rowPositions⟩ : Lost)) ++
    st.recon.map (fun q => (⟨q.1, some q.2, 0, rowPositions⟩ : Lost)) ++
    match st.retired with | some r => [(⟨r, none, 0, rowPositions⟩ : Lost)] | none => []

/-- A stack whose parity die failed. -/
def Stack.withoutParity (st : Stack) (all : List Lost) : Stack :=
  { st with
    parity := false
    parityFailed := true
    spares := []
    recon := []
    rebuild := none
    degraded := true
    lost := st.lost ++ all }

/-- The parity die's failure logged and reported. -/
def State.parityLogged (s : State) (k : Nat) (all : List Lost) : State :=
  ((s.logRepair (.parity k)).onStack k fun st => st.withoutParity all).raise (k / 4) 0x0107 (scUnit k) 0 (placedAddr k 0 0 0 0)

theorem State.parityDieFails_eq {k : Nat} (h : (s.stack k).parityFailed = false) :
    s.parityDieFails k = if (s.stack k).onParity.isEmpty then s.parityLogged k (s.stack k).onParity
      else (s.parityLogged k (s.stack k).onParity).stackFailed k :=
  if_neg (by simp [h])

theorem State.parityDieFails_spec {k : Nat} (h : (s.stack k).parityFailed = false) :
    ∃ failed, s.Repaired k (.parity k) { (s.stack k).withoutParity (s.stack k).onParity with failed := failed } (s.parityDieFails k) ∧
      ((s.stack k).onParity = [] → failed = (s.stack k).failed) := by
  have hlogged : s.Repaired k (.parity k) ((s.stack k).withoutParity (s.stack k).onParity) (s.parityLogged k (s.stack k).onParity) :=
    (s.repaired_onStack k (.parity k) fun st => st.withoutParity (s.stack k).onParity).raise ..
  rw [State.parityDieFails_eq h]
  split
  · exact ⟨_, hlogged, fun _ => rfl⟩
  · next hsome => exact ⟨true, hlogged.stackFailed, fun hnil => absurd (by rw [hnil]; rfl) hsome⟩

end Scrub

/-- Settles O27. -/
theorem stacksAreScrubbedRebuiltAndRetired : Obligations.StacksAreScrubbedRebuiltAndRetired := by
  unfold Obligations.StacksAreScrubbedRebuiltAndRetired
  refine ⟨⟨?scrub, fun s k pos => State.scrubTurn_of_idle, ?rebuild, ?rebuilt⟩, ?recovered, ?lost, ?copied, ?die, ?parity⟩
  case scrub =>
    intro s k behind hk hcleared hawake
    refine ⟨s.scrubbed k behind, congrArg Host.Outcome.next ((State.whenP_pos ⟨hk, hcleared, by simp [hawake], by simp [hawake]⟩).trans rfl),
      s.scrubbed_position k behind, s.scrubbed_behind k behind, s.scrubbed_frame k behind⟩
  case rebuild =>
    intro s k p hk hrun hreb hp hfree
    have hkeeps := s.rebuildRegs_keeps k p
    have hpointer := s.rebuildRegs_pointer (k := k) (p := p) (by omega)
    refine ⟨_, (exec_rebuildPosition_of_free hk hrun hreb hfree).trans (congrArg _ (State.rebuildStep_of_more hreb hp)),
      State.stack_setStack_self .., ?_, ?_⟩
    · exact (State.fld_of_regs_eq (s := s.rebuildRegs k p) rfl ..).trans hpointer
    · exact (State.setStack_keeps (hkeeps.widen (l' := [.regs, .stackMap]) (by decide)) rfl).eq_graft
  case rebuilt =>
    intro s k hk hrun hreb hfree
    have hkeeps := s.rebuildRegs_keeps k 6291455
    refine ⟨_, (exec_rebuildPosition_of_free hk hrun hreb hfree).trans (congrArg _ (State.rebuildStep_of_last hreb (by decide))),
      State.stack_setStack_self .., ?_⟩
    exact (State.setStack_keeps (hkeeps.widen (l' := [.regs, .stackMap]) (by decide)) rfl).eq_graft
  case recovered =>
    intro s b hstk hdie hbank hin hparity hreb htwins hlost
    have h := State.retireBank_recovered hin hparity hreb htwins hlost
    refine ⟨_, exec_bankRetire_of_data hstk hdie hbank, ?_, h.log, fun hfree => ?_, fun hfull => ?_, h.frame⟩
    · rw [h.stack]
      exact List.mem_append_right _ List.mem_cons_self
    · rw [h.stack]
      simp [Stack.reconstruct, hfree]
    · rw [h.stack]
      simp [Stack.reconstruct, hfull]
  case lost =>
    intro s b hstk hdie hbank hin hparity
    have h := State.retireBank_lost hin hparity
    refine ⟨_, exec_bankRetire_of_data hstk hdie hbank, by rw [h.stack], ?_, h.log, h.frame⟩
    rw [h.stack]
    exact List.mem_append_right _ List.mem_cons_self
  case copied =>
    intro s b hspare
    refine ⟨_, congrArg Host.Outcome.next (State.when_pos (List.contains_iff_mem.2 hspare)), ?_, ?_, rfl⟩
    · rw [State.stack_onStack_self]
      exact List.any_eq_true.2 ⟨⟨b.die, b.bank, true⟩, List.mem_map.2 ⟨_, hspare, if_pos rfl⟩, by simp⟩
    · rw [State.stack_onStack_self]
      simp
  case die =>
    intro s k die hk hdie hret hlost hrecon hparity
    have h := State.retireDie_first (die := die) hret hlost hrecon hparity
    exact ⟨_, congrArg Host.Outcome.next (State.whenP_pos ⟨hk, hdie⟩), h.stack, h.log, h.frame⟩
  case parity =>
    intro s k hk hfailed
    obtain ⟨failed, h, hsame⟩ := State.parityDieFails_spec hfailed
    refine ⟨_, congrArg Host.Outcome.next (State.whenP_pos hk), h.log, by rw [h.stack]; rfl, by rw [h.stack]; rfl, by rw [h.stack]; rfl,
      by rw [h.stack]; rfl, by rw [h.stack]; rfl, by rw [h.stack]; rfl, fun hspares hrecon hret => ?_, h.frame⟩
    have hnil : (s.stack k).onParity = [] := by simp [Stack.onParity, hspares, hrecon, hret]
    rw [h.stack]
    exact ⟨by simp [Stack.withoutParity, hnil], hsame hnil⟩

end Sys2Proof.Machine

/-! Bank sequences (R56, R73, R145 to R150) and sequence windows (R154 to R158). -/

namespace Sys2Proof.Machine

open Sys2Proof

section Sequences

variable {s : State}

/-! ### A bank's queue -/

theorem Bank.refreshNext_queue (x : Bank) (allowed : Bool) : (x.refreshNext allowed).queue = x.queue := by
  unfold Bank.refreshNext
  split
  · rfl
  · split <;> rfl

/-- The next command leaves the queue as it is. -/
theorem Bank.advance_queue (x : Bank) (held allowed : Bool) : (x.advance held allowed).queue = x.queue := by
  unfold Bank.advance
  split
  · rfl
  split
  · exact x.refreshNext_queue allowed
  split
  · split <;> rfl
  split
  · dsimp only
    cases x.openRow with
    | some row => exact (apply_ite Bank.queue _ _ _).trans (ite_self _)
    | none => rfl
  · split
    · exact x.refreshNext_queue allowed
    · rfl

theorem State.bank_setBank_self (b : BankId) (x : Bank) : (s.setBank b x).bank b = x := mget_mput_self

theorem State.drive_queue (b : BankId) (x : Bank) : ((s.drive b x).bank b).queue = x.queue := by
  rw [State.drive, State.bank_setBank_self]
  split
  · rfl
  · exact x.advance_queue _ _

theorem State.bank_of_banks_eq {t : State} (h : t.banks = s.banks) (b : BankId) : t.bank b = s.bank b := by rw [State.bank, h, State.bank]

/-! ### Acceptance (R148 steps 1 to 3) -/

/-- The job of a descriptor that no transfer issues and no chain continues. -/
def State.newSeq (s : State) (src : Agent) (desc inline : List Byte) (slot : Option (Nat × Nat)) (keep token : Bool) (bad : Option (Nat × Nat)) : SeqJob where
  id := s.seqNext
  src := src
  desc := padTo 64 0 desc
  inline := inline
  slot := slot
  xfer := none
  time := s.time ((⟨padTo 64 0 desc⟩ : Desc).bank.stk / 4)
  keep := keep
  token := token
  steps := 0
  ran := bad.isSome
  status := (bad.map (·.1)).getD 0
  reason := (bad.map (·.2)).getD 0
  flags := 0
  stream := []
  taken := 0
  overrun := false

/-- A job added to those accepted. -/
def State.addSeq (s : State) (j : SeqJob) : State := { s with seqs := s.seqs ++ [j], seqNext := s.seqNext + 1 }

/-- A job whose request joins its bank's queue, its recalls under way. -/
def State.queueSeq (s : State) (j : SeqJob) : State :=
  let t := (s.seqArrives j.d.bank.stk).issueSnoops (s.seqNeeds j.src j.d)
  t.drive j.d.bank ((t.bank j.d.bank).accept j.request)

theorem State.acceptSeq_refused {src : Agent} {desc inline : List Byte} {slot : Option (Nat × Nat)} {keep : Bool} {bad : Nat × Nat}
    (h : s.seqCheck src slot none ⟨padTo 64 0 desc⟩ = some bad) :
    s.acceptSeq src desc inline slot none keep = s.addSeq (s.newSeq src desc inline slot keep false (some bad)) := by
  unfold State.acceptSeq
  dsimp only
  rw [h]
  rfl

theorem State.acceptSeq_accepted {src : Agent} {desc inline : List Byte} {slot : Option (Nat × Nat)} {keep : Bool}
    (h : s.seqCheck src slot none ⟨padTo 64 0 desc⟩ = none) (hcont : (⟨padTo 64 0 desc⟩ : Desc).cont = false) :
    s.acceptSeq src desc inline slot none keep =
      (s.addSeq (s.newSeq src desc inline slot keep false none)).queueSeq (s.newSeq src desc inline slot keep false none) := by
  unfold State.acceptSeq
  dsimp only
  rw [h, hcont]
  rfl

theorem State.seqArrives_of_ready (h : s.power.mode = .ready) (k : Nat) : s.seqArrives k = s.sleepInterrupted k := by
  have hmode : (s.sleepInterrupted k).power.mode = .ready := by
    rw [(State.sleepInterrupted_keeps .rfl rfl : Keeps (oneOf [.stackMap]) s _).frame .power rfl, h]
  rw [State.seqArrives]
  exact if_neg (by simp [hmode])

theorem State.queueSeq_spec (hmode : s.power.mode = .ready) (j : SeqJob) :
    ((s.queueSeq j).bank j.d.bank).queue = (s.bank j.d.bank).queue ++ [j.request] ∧ (s.queueSeq j).mem.cells = s.mem.cells ∧
      s.queueSeq j = { s with stackMap := (s.queueSeq j).stackMap, banks := (s.queueSeq j).banks, sent := (s.queueSeq j).sent,
                              mem := { s.mem with snoops := (s.queueSeq j).mem.snoops } } := by
  have harrives : Keeps (oneOf [.stackMap]) s (s.seqArrives j.d.bank.stk) := by
    rw [State.seqArrives_of_ready hmode]
    exact State.sleepInterrupted_keeps .rfl rfl
  have hbanks := harrives.frame .banks rfl
  have hset := harrives.eq_graft
  unfold State.queueSeq
  dsimp only
  generalize s.seqArrives j.d.bank.stk = u at harrives hbanks hset ⊢
  have hissue := u.issueSnoops_frame (s.seqNeeds j.src j.d)
  generalize u.issueSnoops (s.seqNeeds j.src j.d) = v at hissue ⊢
  have hvbanks : v.banks = s.banks := by rw [hissue]; exact hbanks
  refine ⟨?_, ?_, ?_⟩
  · rw [State.drive_queue, State.bank_of_banks_eq hvbanks, Bank.accept]
  · change v.mem.cells = _
    rw [hissue, hset]
    rfl
  · rw [hissue, hset]
    rfl

theorem exec_bankSequence_of_ready {src : Agent} {desc inline : List Byte} (hint : agentInternal src = true) (hmode : s.power.mode = .ready) :
    exec (.bankSequence src desc inline) s = .next (s.acceptSeq src desc inline none none false) :=
  congrArg Host.Outcome.next (State.when_pos (by simp [hint, hmode]))

/-! ### Tokens (R147, R148 step 4, R150) -/

theorem State.seqPick_mem {k : Nat} {j : SeqJob} (h : s.seqPick k = some j) : j ∈ s.seqs := by
  unfold State.seqPick at h
  dsimp only at h
  have hmem : j ∈ s.seqs.filter fun j => !j.token && !j.ran && decide (j.d.bank.stk = k) && s.seqFree j := by
    split at h
    · next i hi =>
      cases h
      exact List.mem_of_find?_eq_some hi
    · split at h
      · next i hi =>
        cases h
        exact List.mem_of_find?_eq_some hi
      · exact List.mem_of_head? h
  exact (List.mem_filter.1 hmem).1

theorem exec_actTokenGrant_of_pick {k : Nat} {j : SeqJob} (hk : k < 32) (hsafe : s.power.mode ≠ .safe) (hfree : s.actHeld k < s.actEffective k)
    (htest : s.bauTesting k = false) (hpick : s.seqPick k = some j) : exec (.actTokenGrant k) s = .next (s.giveToken j) := by
  refine congrArg Host.Outcome.next ((State.whenP_pos ⟨hk, hsafe⟩).trans ?_)
  rw [State.grant, if_pos ⟨hfree, htest⟩, hpick]

theorem State.unqueue_spec (j : SeqJob) :
    ((s.unqueue j).bank j.d.bank).queue = (s.bank j.d.bank).queue.filter (fun r => r.seq ≠ some j.id) ∧
      s.unqueue j = { s with banks := (s.unqueue j).banks } :=
  ⟨State.drive_queue .., rfl⟩

theorem State.giveToken_of_device {j : SeqJob} (h : ∀ p ∈ j.d.rowLines, s.hostBiasPort p = none) :
    s.giveToken j = (s.onSeq j.id fun j => { j with token := true }).unqueue j :=
  if_neg (by simpa using h)

theorem State.giveToken_of_host {j : SeqJob} {p : Nat} (hp : p ∈ j.d.rowLines) (h : (s.hostBiasPort p).isSome = true) :
    s.giveToken j = (s.onSeq j.id fun j => { j with ran := true, status := 5, reason := 0x0010 }).unqueue j :=
  if_pos (List.any_eq_true.2 ⟨p, hp, h⟩)

theorem State.seqHolds_of_mem {j : SeqJob} (hj : j ∈ s.seqs) (htoken : j.token = true) : s.seqHolds j.d.bank = true :=
  Bool.or_eq_true_iff.2 (.inl (List.any_eq_true.2 ⟨j, hj, by simp [htoken]; rfl⟩))

/-! ### Running and completing (R148 steps 5 to 10) -/

theorem State.runBau_seqs (d : Desc) (inline : List Byte) (bau : Bau) (limit badRow : Option Nat) :
    (runBau s d inline bau limit badRow).s.seqs = s.seqs :=
  (runBau_keeps .rfl rfl : Keeps (oneOf [.mem]) s _).frame .seqs rfl

/-- A run marks its job as run, and changes no other job. -/
theorem State.runSeq_seqs (j : SeqJob) (limit badRow : Option Nat) :
    ∃ f : SeqJob → SeqJob, (s.runSeq j limit badRow).seqs = s.seqs.map (fun x => if x.id = j.id then f x else x) ∧
      ∀ x, (f x).id = x.id ∧ (f x).ran = true := by
  have hrun := s.runBau_seqs j.d j.inline (s.bauFor j) limit badRow
  have huse : ∀ u : State, (j.d.blocks.eraseDups.foldl (fun s k => s.useObtained (j.d.operand + 256 * k) 256) u).seqs = u.seqs := fun u =>
    foldl_same (get := State.seqs) (step := fun s k => s.useObtained (j.d.operand + 256 * k) 256) (fun _ _ => rfl) _ u
  unfold State.runSeq
  dsimp only
  generalize runBau s j.d j.inline (s.bauFor j) limit badRow = r at hrun ⊢
  have hbase : (if j.d.inline = true then r.s else j.d.blocks.eraseDups.foldl (fun s k => s.useObtained (j.d.operand + 256 * k) 256) r.s).seqs = s.seqs := by
    split
    · exact hrun
    · rw [huse, hrun]
  generalize (if j.d.inline = true then r.s else _) = u at hbase ⊢
  rw [← hbase]
  split
  · exact ⟨_, rfl, fun x => ⟨rfl, rfl⟩⟩
  · exact ⟨_, rfl, fun x => ⟨rfl, rfl⟩⟩

theorem State.seqOf_of_map {id : Nat} {j : SeqJob} {t : State} {f : SeqJob → SeqJob} (hf : ∀ x, (f x).id = x.id) (h : s.seqOf id = some j)
    (ht : t.seqs = s.seqs.map fun x => if x.id = id then f x else x) : t.seqOf id = some (f j) := by
  have hon := State.seqOf_onSeq hf h
  rw [State.seqOf, ht]
  exact hon

theorem State.seqOf_id {id : Nat} {j : SeqJob} (h : s.seqOf id = some j) : j.id = id := by simpa using List.find?_some h

theorem exec_sequenceComplete_of_run {id : Nat} {j : SeqJob} (h : s.seqOf id = some j) (hruns : s.seqRuns j = true) :
    ∃ u i, u = s.runSeq j none none ∧ u.seqOf id = some i ∧ i.ran = true ∧ exec (.sequenceComplete id) s = .next (u.completeSeq i) := by
  obtain ⟨f, hseqs, hf⟩ := s.runSeq_seqs j none none
  rw [State.seqOf_id h] at hseqs
  have hi : (s.runSeq j none none).seqOf id = some (f j) := State.seqOf_of_map (fun x => (hf x).1) h hseqs
  refine ⟨_, f j, rfl, hi, (hf j).2, ?_⟩
  have hstart : s.seqStart j = s.runSeq j none none := if_pos hruns
  change execSequenceComplete id s = _
  rw [execSequenceComplete, h]
  dsimp only
  rw [hstart, hi]

theorem State.endSeq_seqs (j : SeqJob) : (s.endSeq j).seqs = s.seqs.filter fun x => x.id ≠ j.id := by
  have hwrite : (if j.writesResult then
      (s.writeBytes j.d.result (resultLines j.stream)).useObtained j.d.result (64 * lineCount j.stream) else s).seqs = s.seqs := by
    split
    · exact (State.useObtained_keeps (State.writeBytes_keeps .rfl rfl) rfl : Keeps (oneOf [.mem]) s _).frame .seqs rfl
    · rfl
  unfold State.endSeq
  generalize (if j.writesResult then _ else s) = u at hwrite ⊢
  dsimp only
  rw [← hwrite]
  split
  · rfl
  · split <;> rfl

theorem exec_sequenceComplete_of_end {id : Nat} {j : SeqJob} (h : s.seqOf id = some j) (hends : s.seqEnds j = true) :
    exec (.sequenceComplete id) s = .next (((s.endSeq j).slotDone j).seqDeliver j).retry := by
  have hran : j.ran = true := by
    simp only [State.seqEnds, Bool.and_eq_true] at hends
    exact hends.1.1.1.1
  change execSequenceComplete id s = _
  rw [execSequenceComplete, h]
  dsimp only
  rw [State.seqStart_of_ran hran, h]
  exact congrArg Host.Outcome.next (if_pos hends)

end Sequences

end Sys2Proof.Machine

/-! Sequence windows (R154 to R158), and what O28 says. -/

namespace Sys2Proof.Machine

open Sys2Proof

section Windows

variable {s : State}

/-! ### Reaching a slot -/

/-- The access of a host to byte `off` of slot `n` of die `d`. -/
def slotAccess (p rid d n off : Nat) (data : List Byte) : HeldAccess := ⟨.host p rid, .bar 2 (d * 2 ^ 32 + n * 2 ^ 20 + off), .write data false⟩

theorem State.access_slot {p rid d n off : Nat} {data : List Byte} (hd : d < 8) (hn : n < 4096) (hoff : off < 2 ^ 20)
    (hmode : s.power.mode = .ready) (hheld : ∀ h ∈ s.mem.held, ∀ i, h.ag ≠ .host p i) :
    s.access (slotAccess p rid d n off data) = s.accessSeqw (slotAccess p rid d n off data) d (n * 2 ^ 20 + off) := by
  have hwaits : s.portWaits (slotAccess p rid d n off data) = false := State.portWaits_of_none_held rfl hheld
  have hdie : (d * 2 ^ 32 + n * 2 ^ 20 + off) / 2 ^ 32 = d := by omega
  have hrest : (d * 2 ^ 32 + n * 2 ^ 20 + off) % 2 ^ 32 = n * 2 ^ 20 + off := by omega
  rw [State.access, if_neg (by simp [hmode]), if_neg (by simp [hmode]), if_neg (by simp [hwaits])]
  have hlt : d * 2 ^ 32 + n * 2 ^ 20 + off < 0x800000000 := by omega
  refine (if_neg (by decide)).trans ((if_pos rfl).trans ((if_pos hlt).trans ?_))
  rw [hdie, hrest]

theorem State.accessSeqw_of_owner {p rid d n off : Nat} {data : List Byte} (hd : d < 8) (hn : n < 4096) (hoff : off < 64)
    (hlen : off + data.length ≤ 128) (hmode : s.power.mode = .ready) (howns : s.ownsSlot p d n = true) :
    s.accessSeqw (slotAccess p rid d n off data) d (n * 2 ^ 20 + off) =
      (s.slotWrite (.host p rid) d n off data).answer (slotAccess p rid d n off data) .done := by
  have hslot : (n * 2 ^ 20 + off) / 2 ^ 20 = n := by omega
  have hrest : (n * 2 ^ 20 + off) % 2 ^ 20 = off := by omega
  have hlen' : ¬0x80 < off + data.length := by omega
  unfold State.accessSeqw State.seqwAccess slotAccess
  dsimp only
  rw [hslot, hrest, if_neg (by simp [hmode]), if_neg (by simp [hd, hn, howns, hlen']), if_neg (by simp [hmode]), if_pos (by omega)]

theorem exec_seqwDescriptorWrite_of_owner {p rid d n off : Nat} {data : List Byte} (hp : p < 8) (hd : d < 8) (hn : n < 4096) (hoff : off < 64)
    (hlen : off + data.length ≤ 128) (hmode : s.power.mode = .ready) (hheld : ∀ h ∈ s.mem.held, ∀ i, h.ag ≠ .host p i)
    (howns : s.ownsSlot p d n = true) :
    exec (.seqwDescriptorWrite (.host p rid) d n off data) s =
      .next ((s.slotWrite (.host p rid) d n off data).send (.reply (.host p rid) .done)) := by
  have haccess := (State.access_slot (rid := rid) (data := data) hd hn (by omega) hmode hheld).trans
    (State.accessSeqw_of_owner (rid := rid) hd hn hoff hlen hmode howns)
  exact congrArg Host.Outcome.next ((State.whenP_pos hp).trans haccess)

/-! ### A descriptor written to a slot -/

theorem State.slot_setSlot_self (d n : Nat) (x : SeqSlot) : (s.setSlot d n x).slot d n = x := mget_mput_self

theorem State.acceptSeq_continued {src : Agent} {desc inline : List Byte} {slot : Option (Nat × Nat)} {keep : Bool}
    (h : s.seqCheck src slot none ⟨padTo 64 0 desc⟩ = none) (hcont : (⟨padTo 64 0 desc⟩ : Desc).cont = true) :
    ∃ baus needs, s.acceptSeq src desc inline slot none keep =
      (({ s.addSeq (s.newSeq src desc inline slot keep true none) with baus := baus } : State).seqArrives
        (⟨padTo 64 0 desc⟩ : Desc).bank.stk).issueSnoops needs := by
  unfold State.acceptSeq
  dsimp only
  rw [h, hcont]
  exact ⟨_, _, rfl⟩

/-- The jobs, the slots and the bytes of memory as another state has them. -/
def State.SameJobs (s t : State) : Prop := t.seqs = s.seqs ∧ t.slots = s.slots ∧ t.mem.cells = s.mem.cells

theorem State.arrives_sameJobs (k : Nat) (needs : List Snoop) : s.SameJobs ((s.seqArrives k).issueSnoops needs) := by
  have harrives : Keeps (oneOf [.power, .stackMap]) s (s.seqArrives k) := State.seqArrives_keeps .rfl rfl rfl
  have hmem : (s.seqArrives k).mem = s.mem := harrives.frame .mem rfl
  have hcells : (s.seqArrives k).mem.cells = s.mem.cells := congrArg Memory.cells hmem
  rw [State.issueSnoops_frame]
  exact ⟨harrives.frame .seqs rfl, harrives.frame .slots rfl, hcells⟩

theorem State.queueSeq_sameJobs (j : SeqJob) : s.SameJobs (s.queueSeq j) := by
  have h := s.arrives_sameJobs j.d.bank.stk (s.seqNeeds j.src j.d)
  unfold State.queueSeq
  dsimp only
  generalize (s.seqArrives j.d.bank.stk).issueSnoops (s.seqNeeds j.src j.d) = u at h ⊢
  exact h

/-- What acceptance adds and leaves, whether the descriptor passes or not. -/
theorem State.acceptSeq_adds {src : Agent} {desc inline : List Byte} {slot : Option (Nat × Nat)} {keep : Bool} :
    (s.acceptSeq src desc inline slot none keep).seqs.length = s.seqs.length + 1 ∧
      (s.acceptSeq src desc inline slot none keep).slots = s.slots ∧
      (s.acceptSeq src desc inline slot none keep).mem.cells = s.mem.cells := by
  have hadd : ∀ j : SeqJob, (s.addSeq j).seqs.length = s.seqs.length + 1 := fun j => List.length_append
  cases h : s.seqCheck src slot none ⟨padTo 64 0 desc⟩ with
  | some bad =>
    rw [State.acceptSeq_refused h]
    exact ⟨hadd _, rfl, rfl⟩
  | none =>
    cases hcont : (⟨padTo 64 0 desc⟩ : Desc).cont with
    | true =>
      obtain ⟨baus, needs, heq⟩ := State.acceptSeq_continued (inline := inline) (keep := keep) h hcont
      obtain ⟨hseqs, hslots, hcells⟩ := State.arrives_sameJobs (s := { s.addSeq (s.newSeq src desc inline slot keep true none) with baus := baus })
        (⟨padTo 64 0 desc⟩ : Desc).bank.stk needs
      rw [heq, hseqs, hslots, hcells]
      exact ⟨hadd _, rfl, rfl⟩
    | false =>
      rw [State.acceptSeq_accepted h hcont]
      generalize s.newSeq src desc inline slot keep false none = j
      obtain ⟨hseqs, hslots, hcells⟩ := (s.addSeq j).queueSeq_sameJobs j
      rw [hseqs, hslots, hcells]
      exact ⟨hadd j, rfl, rfl⟩

theorem State.slotWrite_descriptor {p rid d n : Nat} {data : List Byte} (hidle : (s.slot d n).state ≠ 1) (hlen : data.length = 64) :
    s.slotWrite (.host p rid) d n 0 data =
      (s.setSlot d n ⟨1, runningLine (field data 0 2)⟩).acceptSeq (.host p rid) data [] (some (d, n)) none false :=
  (if_neg hidle).trans (if_pos ⟨rfl, hlen⟩)

theorem State.slotWrite_malformed {p rid d n : Nat} {data : List Byte} (hidle : (s.slot d n).state ≠ 1) (hlen : data.length < 64) :
    s.slotWrite (.host p rid) d n 0 data = (s.countFld d 0 0 SEQW_ERR.MALFORMED 1).setSlot d n ⟨2, malformedLine⟩ :=
  (if_neg hidle).trans (if_neg (by omega))

theorem State.slotWrite_overrun {ag : Agent} {d n off : Nat} {data : List Byte} (hrun : (s.slot d n).state = 1) :
    s.slotWrite ag d n off data = { (s.countFld d 0 0 SEQW_ERR.OVERRUN 1) with
      seqs := s.seqs.map fun j => if j.slot = some (d, n) then { j with overrun := true } else j } :=
  if_pos hrun

end Windows

/-- Settles O28. -/
theorem sequencesRunFromDescriptorsAndSlots : Obligations.SequencesRunFromDescriptorsAndSlots := by
  unfold Obligations.SequencesRunFromDescriptorsAndSlots
  refine ⟨⟨?refused, ?accepted, ?granted, ?biased, fun s id j => exec_sequenceComplete_of_run, ?completes⟩, ?descriptor, ?malformed, ?overrun⟩
  case refused =>
    intro s src desc inline st why hint hmode hbad
    refine ⟨_, s.newSeq src desc inline none false false (some (st, why)), ?_, rfl, rfl, rfl, rfl, rfl, rfl, rfl, rfl⟩
    rw [exec_bankSequence_of_ready hint hmode, State.acceptSeq_refused hbad]
    rfl
  case accepted =>
    intro s src desc inline hint hmode hok hcont
    obtain ⟨hqueue, -, hframe⟩ := State.queueSeq_spec (s := s.addSeq (s.newSeq src desc inline none false false none)) hmode
      (s.newSeq src desc inline none false false none)
    have hexec := (exec_bankSequence_of_ready (inline := inline) hint hmode).trans (congrArg _ (State.acceptSeq_accepted hok hcont))
    generalize (s.addSeq (s.newSeq src desc inline none false false none)).queueSeq (s.newSeq src desc inline none false false none) = t at *
    refine ⟨t, _, hexec, ?_, ?_, rfl, rfl, rfl, rfl, rfl, rfl, hqueue, ?_⟩
    · rw [hframe]
      rfl
    · rw [hframe]
      rfl
    · rw [hframe]
      rfl
  case granted =>
    intro s k j hk hsafe hfree htest hpick hdev
    obtain ⟨hqueue, hframe⟩ := (s.onSeq j.id fun j => { j with token := true }).unqueue_spec j
    have hexec := exec_actTokenGrant_of_pick hk hsafe hfree htest hpick
    rw [State.giveToken_of_device hdev] at hexec
    refine ⟨_, hexec, rfl, hqueue, ?_, hframe⟩
    have hmem : ({ j with token := true } : SeqJob) ∈ ((s.onSeq j.id fun j => { j with token := true }).unqueue j).seqs :=
      List.mem_map.2 ⟨j, State.seqPick_mem hpick, if_pos rfl⟩
    exact State.seqHolds_of_mem (j := { j with token := true }) hmem rfl
  case biased =>
    intro s k j p hk hsafe hfree htest hpick hp hbias
    obtain ⟨hqueue, hframe⟩ := (s.onSeq j.id fun j => { j with ran := true, status := 5, reason := 0x0010 }).unqueue_spec j
    have hexec := exec_actTokenGrant_of_pick hk hsafe hfree htest hpick
    rw [State.giveToken_of_host hp hbias] at hexec
    exact ⟨_, hexec, rfl, hqueue, hframe⟩
  case completes => exact fun s id j h hends => ⟨_, exec_sequenceComplete_of_end h hends, rfl, s.endSeq_seqs j⟩
  case descriptor =>
    intro s p rid d n data hp hd hn hmode hheld howns hidle hlen
    obtain ⟨hseqs, hslots, hcells⟩ := State.acceptSeq_adds (s := s.setSlot d n ⟨1, runningLine (field data 0 2)⟩) (src := .host p rid) (desc := data)
      (inline := []) (slot := some (d, n)) (keep := false)
    have hexec := exec_seqwDescriptorWrite_of_owner (rid := rid) (data := data) hp hd hn (off := 0) (by decide) (by omega) hmode hheld howns
    rw [State.slotWrite_descriptor hidle hlen] at hexec
    refine ⟨_, hexec, List.getLast?_concat, ?_, hseqs, hcells⟩
    change mget freshSlot (State.acceptSeq _ _ _ _ _ _ _).slots _ = _
    rw [hslots]
    exact State.slot_setSlot_self (s := s) ..
  case malformed =>
    intro s p rid d n data hp hd hn hmode hheld howns hidle hlen
    have hexec := exec_seqwDescriptorWrite_of_owner (rid := rid) (data := data) hp hd hn (off := 0) (by decide) (by omega) hmode hheld howns
    rw [State.slotWrite_malformed hidle hlen] at hexec
    exact ⟨_, hexec, rfl, State.slot_setSlot_self (s := s) .., rfl⟩
  case overrun =>
    intro s p rid d n off data hp hd hn hoff hlen hmode hheld howns hrun
    have hexec := exec_seqwDescriptorWrite_of_owner (rid := rid) (data := data) hp hd hn hoff hlen hmode hheld howns
    rw [State.slotWrite_overrun hrun] at hexec
    refine ⟨_, hexec, rfl, fun j hj hslot => ?_, rfl⟩
    obtain ⟨i, -, rfl⟩ := List.mem_map.1 hj
    split at hslot
    · next h => rw [if_pos h]
    · next h => exact absurd hslot h

end Sys2Proof.Machine

/-! Cores, their streams and slots; blocks, replays and walks (R170 to R194). -/

namespace Sys2Proof.Machine

open Sys2Proof Enc7

section Cores

variable {s t : State} {k : Core}

/-! ### A core and its streams -/

@[simp] theorem State.core_onCore_self (d c : Nat) (f : Core → Core) : (s.onCore d c f).core d c = f (s.core d c) := mget_mput_self

theorem State.onCore_frame (d c : Nat) (f : Core → Core) : s.onCore d c f = { s with cores := (s.onCore d c f).cores } := rfl

theorem State.core_of_cores_eq (h : t.cores = s.cores) (d c : Nat) : t.core d c = s.core d c := by rw [State.core, h, State.core]

@[simp] theorem Core.stream_onStream_self (x : Bool) (f : Stream → Stream) : (k.onStream x f).stream x = f (k.stream x) := by cases x <;> rfl

@[simp] theorem Core.stream_onStream_other (x : Bool) (f : Stream → Stream) : (k.onStream x f).stream (!x) = k.stream (!x) := by cases x <;> rfl

/-! ### Sets of bits -/

theorem bit_eq_testBit (n i : Nat) : bit n i = n.testBit i := by
  rw [bit, bits_eq, Nat.testBit_eq_decide_div_mod_eq, show i + 1 - i = 1 by omega, Nat.pow_one]
  exact rfl

theorem testBit_ofBitSet (l : List Nat) (i : Nat) : (ofBitSet l).testBit i = decide (i ∈ l) := by
  induction l with
  | nil => simp [ofBitSet]
  | cons j l ih =>
    rw [ofBitSet, Nat.testBit_or, ih, Nat.testBit_two_pow]
    simp [Bool.or_comm, eq_comm]

/-! ### Blocks (R177, R179, R191) -/

theorem Core.markPatches_frame (r : Nat) : k.markPatches r = { k with patchDue := (k.markPatches r).patchDue } := by
  unfold Core.markPatches
  split <;> rfl

/-- A stream after its BLOCK. -/
def Stream.passed (st : Stream) (n : Nat) : Stream :=
  { st with inBlock := true, pc := st.pc + 1, start := st.pc + 1, replays := n, replay := 0, closed := false, blocks := st.blocks + 1 }

theorem Core.passBlock_eq (x : Bool) : k.passBlock x = k.onStream x fun st => st.passed (replays (k.next x)) := rfl

theorem Core.openBlock_frame : ∃ m due, k.openBlock = { k with
    counters := m, presets := m, slots := [(0, { freshSlotR with params := k.params })], checked := 0, steps := k.strides, written := []
    patchAt := plist (k.next false), patchCount := pcount (k.next false), patchDue := due } := by
  unfold Core.openBlock
  rw [Core.markPatches_frame]
  exact ⟨_, _, rfl⟩

theorem Core.openBlock_passBlock (x : Bool) :
    (k.openBlock.passBlock x).stream x = (k.stream x).passed (replays (k.next x)) ∧ (k.openBlock.passBlock x).stream (!x) = k.stream (!x) ∧
      (∀ n, (k.openBlock.passBlock x).preg 0 n = (k.params[n]?).getD 0) ∧ (k.openBlock.passBlock x).steps = k.strides ∧
      (k.openBlock.passBlock x).written = [] := by
  obtain ⟨m, due, heq⟩ := k.openBlock_frame
  rw [heq]
  refine ⟨?_, ?_, ?_, ?_, ?_⟩ <;> cases x <;> intros <;> rfl

theorem exec_block_of {d c : Nat} {x : Bool} (hat : (s.core d c).atBlock x = true) (hrun : (s.core d c).faulted = none) :
    exec (.block d c x) s = .next (
      if ((s.core d c).stream !x).inBlock then
        (if ((s.core d c).stream !x).blocks = ((s.core d c).stream x).blocks + 1 then s.onCore d c (·.passBlock x) else s)
      else if (s.core d c).atBlock !x then
        (if replays ((s.core d c).next x) = replays ((s.core d c).next !x) then s.onCore d c fun k => k.openBlock.passBlock x
          else s.blockMismatch d c x)
      else if !((s.core d c).stream !x).running || decide (opc ((s.core d c).next !x) = opEND) then s.blockMismatch d c x
      else s) :=
  congrArg Host.Outcome.next (State.when_pos (by simp [hat, hrun]))

/-- A core of which a stream has found END; once both have, a control list that waits in RUN goes on (R177, R243). -/
def Core.ended (k : Core) (x : Bool) : Core :=
  let k := k.onStream x fun st => { st with running := false }
  if !k.sa.running && !k.sx.running && decide (k.cc.mode = 3) then { k with cc := { k.cc with mode := 1, entry := k.cc.entry + 1 } } else k

theorem Core.ended_running (x : Bool) : ((k.ended x).stream x).running = false := by
  unfold Core.ended
  dsimp only
  split
  · cases x <;> rfl
  · cases x <;> rfl

theorem Core.ended_cc_of_running {x : Bool} (h : (k.stream !x).running = true) : (k.ended x).cc = k.cc := by
  have hgo : ((k.onStream x fun st => { st with running := false }).stream !x).running = true := by rw [Core.stream_onStream_other, h]
  unfold Core.ended
  dsimp only
  rw [if_neg]
  · cases x <;> rfl
  · cases x with
    | false => simp [show (k.onStream false fun st => { st with running := false }).sx.running = true from hgo]
    | true => simp [show (k.onStream true fun st => { st with running := false }).sa.running = true from hgo]

theorem Core.ended_cc_of_stopped {x : Bool} (h : (k.stream !x).running = false) (hmode : k.cc.mode = 3) :
    (k.ended x).cc = { k.cc with mode := 1, entry := k.cc.entry + 1 } := by
  have hcc : (k.onStream x fun st => { st with running := false }).cc = k.cc := by cases x <;> rfl
  have hstop : (k.onStream x fun st => { st with running := false }).sa.running = false ∧
      (k.onStream x fun st => { st with running := false }).sx.running = false := by
    cases x with
    | false => exact ⟨rfl, h⟩
    | true => exact ⟨h, rfl⟩
  unfold Core.ended
  dsimp only
  rw [if_pos (by simp [hstop, hcc, hmode]), hcc]

theorem exec_streamEnd_of {d c : Nat} {x : Bool} (hrun : ((s.core d c).stream x).running = true) (hout : ((s.core d c).stream x).inBlock = false)
    (hfault : (s.core d c).faulted = none) (hend : opc ((s.core d c).next x) = opEND) :
    exec (.streamEnd d c x) s = .next (s.onCore d c (·.ended x)) :=
  congrArg Host.Outcome.next (State.when_pos (by simp [hrun, hout, hfault, hend]))

end Cores

/-- Settles O29. -/
theorem streamsOpenBlocksTogether : Obligations.StreamsOpenBlocksTogether := by
  unfold Obligations.StreamsOpenBlocksTogether
  refine ⟨?opens, ?follows, ?mismatch, ?ends⟩
  case opens =>
    intro s d c x k hk hat hfault hout hother hequal
    subst hk
    obtain ⟨hself, hkept, hpreg, hsteps, hwritten⟩ := (s.core d c).openBlock_passBlock x
    have hexec := exec_block_of hat hfault
    rw [if_neg (by simp [hout]), if_pos hother, if_pos hequal] at hexec
    refine ⟨_, hexec, ?_, ?_, ?_, ?_, ?_, State.onCore_frame ..⟩ <;> rw [State.core_onCore_self]
    · exact hself
    · exact hkept
    · exact hpreg
    · exact hsteps
    · exact hwritten
  case follows =>
    intro s d c x k hk hat hfault hin hblocks
    subst hk
    have hexec := exec_block_of hat hfault
    rw [if_pos hin, if_pos hblocks] at hexec
    refine ⟨_, hexec, ?_, ?_, ?_, ?_, State.onCore_frame ..⟩ <;> rw [State.core_onCore_self, Core.passBlock_eq]
    · rw [Core.stream_onStream_self]
      cases x <;> rfl
    · rw [Core.stream_onStream_self]
      rfl
    · rw [Core.stream_onStream_self]
      rfl
    · rw [Core.stream_onStream_self]
      rfl
  case mismatch =>
    intro s d c x k hk hat hfault hout hother hunequal
    subst hk
    rw [exec_block_of hat hfault, if_neg (by simp [hout]), if_pos hother, if_neg hunequal]
    rfl
  case ends =>
    intro s d c x k hk hrun hout hfault hend
    subst hk
    refine ⟨_, exec_streamEnd_of hrun hout hfault hend, ?_, State.onCore_frame .., fun hgo => ?_, fun hstop hmode => ?_⟩ <;>
      rw [State.core_onCore_self]
    · exact Core.ended_running x
    · exact Core.ended_cc_of_running hgo
    · exact Core.ended_cc_of_stopped hstop hmode

end Sys2Proof.Machine

/-! Replays, their slots and patches, and walks (R170 to R181, R194). -/

namespace Sys2Proof.Machine

open Sys2Proof Enc7

section Replays

variable {s : State} {k : Core}

/-! ### The next replay (R178, R179) -/

/-- A stream moved into replay `r`. -/
def Core.enterReplay (k : Core) (x : Bool) (r : Nat) : Core :=
  let k := if k.formed r then k else (k.formSlot r).markPatches r
  k.onStream x fun st => { st with replay := r, pc := st.start, closed := false }

theorem Core.enterReplay_stream (x : Bool) (r : Nat) :
    (k.enterReplay x r).stream x = { k.stream x with replay := r, pc := (k.stream x).start, closed := false } := by
  unfold Core.enterReplay
  dsimp only
  rw [Core.stream_onStream_self]
  split
  · rfl
  · rw [Core.markPatches_frame]
    rfl

theorem Core.onStream_slots (x : Bool) (f : Stream → Stream) : (k.onStream x f).slots = k.slots := by cases x <;> rfl

theorem Core.enterReplay_slots_of_formed {x : Bool} {r : Nat} (h : k.formed r = true) : (k.enterReplay x r).slots = k.slots := by
  unfold Core.enterReplay
  dsimp only
  rw [if_pos h, Core.onStream_slots]

theorem Core.preg_of_slots_eq {l : Core} {m : NMap RSlot} (h : l.slots = m) (r n : Nat) :
    l.preg r n = (((mget freshSlotR m (r % 4)).params)[n]?).getD 0 := by rw [Core.preg, Core.slot, h]

theorem Core.enterReplay_preg {x : Bool} {r n v w : Nat} (h : k.formed r = false) (hv : (k.slot (r - 1)).params[n]? = some v)
    (hw : k.steps[n]? = some w) : (k.enterReplay x r).preg r n = (v + w) % 2 ^ 64 := by
  have hslots : (k.enterReplay x r).slots = (k.formSlot r).slots := by
    unfold Core.enterReplay
    dsimp only
    rw [if_neg (by simp [h]), Core.onStream_slots, Core.markPatches_frame]
  rw [Core.preg_of_slots_eq hslots, Core.formSlot]
  dsimp only
  rw [mget_mput_self, List.getElem?_map, List.getElem?_zip_eq_some (z := (v, w)) |>.2 ⟨hv, hw⟩]
  rfl

/-! ### Patches (R180) -/

theorem getElem?_modAt_self {α : Type} {f : α → α} {l : List α} {i : Nat} {a : α} (h : l[i]? = some a) : (modAt f l i)[i]? = some (f a) := by
  induction l generalizing i with
  | nil => simp at h
  | cons b l ih =>
    cases i with
    | zero =>
      obtain rfl : b = a := by simpa using h
      rfl
    | succ i => exact ih h

theorem getElem?_modAt_ne {α : Type} {f : α → α} {l : List α} {i j : Nat} (h : j ≠ i) : (modAt f l i)[j]? = l[j]? := by
  induction l generalizing i j with
  | nil => rfl
  | cons b l ih =>
    cases i with
    | zero =>
      cases j with
      | zero => exact absurd rfl h
      | succ j => rfl
    | succ i =>
      cases j with
      | zero => rfl
      | succ j => exact ih (by omega)

theorem patchOne_spec (ps : List Nat) (r n v w : Nat) (h : ps[n]? = some w) :
    (patchOne ps (r, n, 0, v))[n]? = some v ∧ (patchOne ps (r, n, 1, v))[n]? = some ((w + v) % 2 ^ 64) ∧
      ∀ op m, m ≠ n → (patchOne ps (r, n, op, v))[m]? = ps[m]? := by
  obtain ⟨hlt, -⟩ := List.getElem?_eq_some_iff.1 h
  refine ⟨List.getElem?_set_self hlt, getElem?_modAt_self h, fun op m hm => ?_⟩
  unfold patchOne
  split
  · exact List.getElem?_set_ne hm.symm
  · exact getElem?_modAt_ne hm

theorem Core.dispatch_frame : k.dispatch = { k with cc := k.dispatch.cc } := by
  unfold Core.dispatch
  split
  · rfl
  · split
    · split <;> rfl
    · split <;> rfl

/-- With no routine running, entries that are due interrupt the control core (R245). -/
theorem Core.takes_patches {r : Nat} (hdue : k.patchDue = some r) (hcall : k.cc.call = none) : k.takes 21 false = true := by
  rw [Core.takes, bit_eq_testBit, bit_eq_testBit, Core.mie, Core.mip, testBit_ofBitSet, testBit_ofBitSet, hdue, hcall]
  simp

/-- A core whose due entries have been applied. -/
def Core.patched (k : Core) (r : Nat) : Core :=
  ({ k.onSlot r (fun z => { z with params := (k.patches.filter fun p => p.1 = r).foldl patchOne z.params }) with
    patchDue := none, cc := k.cc.took 21 } : Core).dispatch

theorem Core.patched_spec (r : Nat) : (k.patched r).patchDue = none ∧
    ((k.patched r).slot r).params = (k.patches.filter fun p => p.1 = r).foldl patchOne (k.slot r).params := by
  unfold Core.patched
  rw [Core.dispatch_frame]
  refine ⟨rfl, ?_⟩
  change (mget freshSlotR (mput k.slots (r % 4) _) (r % 4)).params = _
  rw [mget_mput_self]

theorem exec_patchApply_of_due {d c r : Nat} (hdue : (s.core d c).patchDue = some r) (hcall : (s.core d c).cc.call = none)
    (hfault : (s.core d c).faulted = none) : exec (.patchApply d c) s = .next (s.onCore d c (·.patched r)) := by
  change execPatchApply d c s = _
  rw [execPatchApply]
  dsimp only
  rw [hdue]
  exact congrArg Host.Outcome.next (State.when_pos (by simp [Core.takes_patches hdue hcall, hfault]))

/-! ### Issue (R170, R175) -/

theorem Core.consume_frame (r w : Nat) : k.consume r w = { k with slots := (k.consume r w).slots, counters := (k.consume r w).counters } := by
  unfold Core.consume
  split <;> rfl

/-- An instruction issued takes its token and moves its stream by one; the core's other parts stay. -/
theorem Core.issued_frame (x : Bool) : k.issued x = ({ k with slots := (k.issued x).slots, counters := (k.issued x).counters } : Core).onStream x
    fun st => { st with pc := st.pc + 1 } := by
  unfold Core.issued
  rw [Core.consume_frame]
  cases x <;> rfl

theorem Core.issued_sa : (k.issued false).sa = { k.sa with pc := k.sa.pc + 1 } := by rw [Core.issued_frame]; rfl

theorem Core.issued_jobs (x : Bool) : (k.issued x).jobs = k.jobs := by rw [Core.issued_frame]; cases x <;> rfl

theorem Core.issued_de0 (x : Bool) : (k.issued x).de0 = k.de0 := by rw [Core.issued_frame]; cases x <;> rfl

/-! ### Walks (R170 to R172) -/

/-- The base of the walk that the access stream issues next. -/
def Core.walkBase (k : Core) : Nat := plusOff (k.preg k.sa.replay (walkPreg (k.next false))) (walkOffset (k.next false))

/-- Whether a walk lies in memory, which DE0 reads and writes. -/
def State.inMemory (s : State) (a : Nat) : Bool := match s.resolve a with | .mem _ => true | _ => false

theorem State.inMemory_iff (a : Nat) : s.inMemory a = true ↔ ∃ q, s.resolve a = .mem q := by
  unfold State.inMemory
  cases s.resolve a <;> simp

/-- The job of the walk that the access stream issues next. -/
def Core.nextWalk (k : Core) (s : State) : Job :=
  k.newJob false k.walkBase 0 (s.inMemory (walkAddr (k.pattern (k.next false)) k.walkBase 0)) (k.pattern (k.next false))

/-- A core that has issued the walk of job `j`. -/
def Core.walkIssued (k : Core) (j : Job) (de0 : Bool) : Core := ((k.issued false).addJob j).walkJob j de0

theorem Core.walkIssued_spec (j : Job) (de0 : Bool) : (k.walkIssued j de0).jobs = k.jobs ++ [j] ∧ (k.walkIssued j de0).sa.pc = k.sa.pc + 1 ∧
    (de0 = true → ∃ x, (k.walkIssued j de0).de0 = k.de0 ++ [x] ∧ x.walk = some j.id) ∧
    (de0 = false → (k.walkIssued j de0).de0 = k.de0) := by
  have hjobs : ((k.issued false).addJob j).jobs = k.jobs ++ [j] := congrArg (· ++ [j]) (k.issued_jobs false)
  have hpc : ((k.issued false).addJob j).sa.pc = k.sa.pc + 1 := congrArg Stream.pc k.issued_sa
  have hde0 : ((k.issued false).addJob j).de0 = k.de0 := k.issued_de0 false
  unfold Core.walkIssued
  generalize (k.issued false).addJob j = l at *
  cases de0 with
  | true => exact ⟨hjobs, hpc, fun _ => ⟨_, congrArg (· ++ _) hde0, rfl⟩, fun h => absurd h (by decide)⟩
  | false => exact ⟨hjobs, hpc, fun h => absurd h (by decide), fun _ => hde0⟩

theorem State.issueWalk_of_free {d c o : Nat} (hissues : (s.core d c).issues false o = true)
    (hfree : ((s.core d c).jobs.filter fun j => !j.x).length < 4) :
    s.issueWalk d c o = s.onCore d c fun k => k.walkIssued ((s.core d c).nextWalk s) ((s.core d c).nextWalk s).de0 := by
  unfold State.issueWalk
  dsimp only
  rw [State.when_pos (by simp [hissues, hfree])]
  rfl

end Replays

/-- Settles O30. -/
theorem replaysAdvanceAndArePatched : Obligations.ReplaysAdvanceAndArePatched := by
  unfold Obligations.ReplaysAdvanceAndArePatched
  refine ⟨?closes, ?enters, ?waits, ?patches, patchOne_spec⟩
  case closes =>
    intro s d c x k hk hrun hin hopen hend hfault hdue hocall hhold
    subst hk
    refine congrArg Host.Outcome.next (State.when_pos ?_)
    cases x <;> simp [hrun, hin, hopen, hend, hfault, hdue, hocall, hhold]
  case enters =>
    intro s d c r x k hk hrun hin hclosed hfault hr hlast hnear
    subst hk
    have hexec : exec (.replayBoundary d c x) s = .next (s.onCore d c (·.enterReplay x r)) := by
      subst hr
      exact congrArg Host.Outcome.next (State.when_pos (by simp [hrun, hin, hclosed, hfault, hlast, hnear]))
    refine ⟨_, hexec, ?_, fun n v w hnew hv hw => ?_, fun hformed => ?_, State.onCore_frame ..⟩ <;> rw [State.core_onCore_self]
    · exact Core.enterReplay_stream x r
    · exact Core.enterReplay_preg hnew hv hw
    · exact Core.enterReplay_slots_of_formed hformed
  case waits =>
    intro s d c x hfar
    refine congrArg Host.Outcome.next (State.when_neg ?_)
    have hnot : ¬((s.core d c).stream x).replay + 1 < (s.core d c).checked + 4 := by omega
    simp [hnot]
  case patches =>
    intro s d c r k hk hdue hcall hfault
    subst hk
    obtain ⟨hnone, hparams⟩ := (s.core d c).patched_spec r
    refine ⟨_, exec_patchApply_of_due hdue hcall hfault, ?_, ?_, State.onCore_frame ..⟩ <;> rw [State.core_onCore_self]
    · exact hnone
    · exact hparams

/-- Settles O31: LOAD and STORE issue by the same steps. -/
theorem walksIssueWithTheirBase : Obligations.WalksIssueWithTheirBase := by
  unfold Obligations.WalksIssueWithTheirBase
  intro p hp s d c k hk hissues hfree
  subst hk
  have hexec : exec (p.1 d c) s = .next (s.issueWalk d c p.2) := by
    rcases List.mem_cons.1 hp with rfl | hp
    · rfl
    · obtain rfl := List.mem_singleton.1 hp
      rfl
  rw [State.issueWalk_of_free hissues hfree] at hexec
  obtain ⟨hjobs, hpc, hin, hout⟩ := (s.core d c).walkIssued_spec ((s.core d c).nextWalk s) ((s.core d c).nextWalk s).de0
  refine ⟨_, (s.core d c).nextWalk s, hexec, ?_, rfl, rfl, rfl, rfl, rfl, ?_, fun h => ?_, fun h => ?_, State.inMemory_iff _, State.onCore_frame ..⟩ <;>
    rw [State.core_onCore_self]
  · exact hjobs
  · exact hpc
  · exact hin h
  · exact hout h

end Sys2Proof.Machine

/-! Words of a scratchpad: full and empty words, barrier words, and the waits, signals and barriers on them (R278 to R284). -/

namespace Sys2Proof.Machine

open Sys2Proof Enc7

section Scratchpad

variable {s t : State} {d c off : Nat}

/-! ### Bytes of a scratchpad -/

theorem State.present_bounds (h : s.corePresent d c = true) : d < 8 ∧ c < 64 := by
  unfold State.corePresent at h
  simp only [Bool.and_eq_true, decide_eq_true_eq] at h
  exact h.1

theorem State.resolve_spm (hpres : s.corePresent d c = true) (hoff : off < spmSize) :
    s.resolve (spmBase d c + off) = .spm (spmBase d c + off) := by
  obtain ⟨hd, hc⟩ := State.present_bounds hpres
  have hdie : (spmBase d c + off - 0x200000000000) / 2 ^ 30 = d := by
    unfold spmBase
    unfold spmSize at hoff
    omega
  have hplace : (spmBase d c + off) % 2 ^ 30 = c * 0x800000 + off := by
    unfold spmBase
    unfold spmSize at hoff
    omega
  have hspm : s.spmAt d (c * 0x800000 + off) = true := by
    have hcore : (c * 0x800000 + off) / 0x800000 = c := by
      unfold spmSize at hoff
      omega
    have hin : (c * 0x800000 + off) % 0x800000 < 0x600000 := by
      unfold spmSize at hoff
      omega
    unfold State.spmAt
    rw [if_pos (by unfold spmSize at hoff; omega), hcore, hpres]
    simpa using hin
  have hlow : 0x200000000000 ≤ spmBase d c + off := by
    unfold spmBase
    omega
  have hhigh : spmBase d c + off < 0x200200000000 := by
    unfold spmBase
    unfold spmSize at hoff
    omega
  unfold State.resolve
  rw [if_neg (by omega), if_neg (by omega), if_neg (by omega), if_neg (by omega), if_pos hhigh, hdie, hplace, if_pos hspm]

theorem spreadToPlaced_lt {a : Nat} (h : a < 0x030000000000) : spreadToPlaced a < 0x140000000000 := by
  have hbits : bits a 11 10 < 4 := by
    rw [bits_eq]
    exact Nat.mod_lt _ (by decide)
  unfold spreadToPlaced placedAddr placedBase
  dsimp only
  omega

/-- A byte of memory does not lie where a scratchpad's bytes are kept. -/
theorem State.resolve_mem_lt {a p : Nat} (h : s.resolve a = .mem p) : p < 0x140000000000 := by
  unfold State.resolve at h
  split at h
  · next hlow =>
    cases h
    exact spreadToPlaced_lt hlow
  · split at h
    · cases h
    · split at h
      · next hplaced =>
        split at h
        · cases h
          exact hplaced
        · cases h
      · repeat' split at h
        all_goals cases h

theorem State.resolve_spm_eq {a k : Nat} (h : s.resolve a = .spm k) : k = a := by
  unfold State.resolve at h
  repeat' split at h
  all_goals cases h <;> rfl

/-- A word of a scratchpad written. -/
def State.putWord (s : State) (a : Nat) (data : List Byte) : State := s.onMem fun m => { m with cells := writeCells m.cells a data }

theorem State.writeBytes_word {data : List Byte} (hpres : s.corePresent d c = true) (hoff : off < spmSize) (halign : off % 64 = 0)
    (hlen : data.length = 64) : s.writeBytes (spmBase d c + off) data = s.putWord (spmBase d c + off) data := by
  have hline : (spmBase d c + off) % 64 = 0 := by
    unfold spmBase
    omega
  rw [State.writeBytes, hlen, piecesOf_piece (by decide) (by omega), State.writePieces, State.writePieces, List.take_of_length_le (Nat.le_of_eq hlen),
    State.writePiece, State.resolve_spm hpres hoff]
  rfl

theorem State.putWord_same (a : Nat) (data : List Byte) (x : Nat) : (s.putWord a data).resolve x = s.resolve x := rfl

theorem State.readByte_putWord_in {a i : Nat} {data : List Byte} (hloc : s.resolve (a + i) = .spm (a + i)) (hwf : s.mem.wf = true)
    (hi : i < data.length) : (s.putWord a data).readByte (a + i) = data[i] := by
  rw [State.readByte, State.putWord_same, hloc]
  exact mget_writeCells_in (State.cells_wf hwf) hi

theorem State.readBytes_putWord {a : Nat} {data : List Byte} (hloc : ∀ i < data.length, s.resolve (a + i) = .spm (a + i))
    (hwf : s.mem.wf = true) : (s.putWord a data).readBytes a data.length = data := by
  rw [State.readBytes]
  apply List.ext_getElem
  · simp
  · intro i hi hi'
    rw [List.getElem_map, List.getElem_range]
    exact State.readByte_putWord_in (hloc i hi') hwf hi'

theorem State.resolve_word (hpres : s.corePresent d c = true) (hoff : off + 64 ≤ spmSize) (i : Nat) (hi : i < 64) :
    s.resolve (spmBase d c + off + i) = .spm (spmBase d c + off + i) := by
  rw [Nat.add_assoc]
  exact State.resolve_spm hpres (by omega)

theorem State.readByte_putWord_out {data : List Byte} {a x : Nat} (ha : 0x140000000000 ≤ a) (hout : x < a ∨ a + data.length ≤ x)
    (hwf : s.mem.wf = true) : (s.putWord a data).readByte x = s.readByte x := by
  rw [State.readByte, State.readByte, State.putWord_same]
  cases hloc : s.resolve x with
  | mem p =>
    have hp := State.resolve_mem_lt hloc
    exact mget_writeCells_out (State.cells_wf hwf) (Or.inl (by omega))
  | spm k =>
    obtain rfl := State.resolve_spm_eq hloc
    exact mget_writeCells_out (State.cells_wf hwf) hout
  | seqw _ _ => rfl
  | reg _ _ => rfl
  | bad => rfl

end Scratchpad

end Sys2Proof.Machine

/-! Full and empty words, barrier words, and the waits, signals and barriers on them (R278 to R284). -/

namespace Sys2Proof.Machine

open Sys2Proof Enc7

section Words

variable {s t : State} {k : Core} {d c off : Nat}

/-! ### Full and empty words (R276 to R280) -/

theorem Core.isFull_setWord (full : Bool) : (k.setWord off full).isFull off = full := by
  unfold Core.isFull Core.setWord
  cases full <;> simp [mem_insertNat]

theorem Core.isFull_setWord_ne {o : Nat} (full : Bool) (h : o / 64 ≠ off / 64) : (k.setWord off full).isFull o = k.isFull o := by
  unfold Core.isFull Core.setWord
  cases full <;> simp [mem_insertNat, h]

theorem Core.due_frame (w r : Nat) (x : Bool) (i : Nat) : k.due w r x i = { k with credits := (k.due w r x i).credits } := by
  unfold Core.due
  split <;> rfl

/-- The core of which the access engine goes on. -/
def Core.resumed (k : Core) : Core :=
  match k.hold with
  | some (_, w, r) => ({ k with hold := none } : Core).due w r false (k.sa.pc - 1)
  | none => k

theorem Core.resumed_frame : k.resumed = { k with hold := none, credits := k.resumed.credits } := by
  unfold Core.resumed
  obtain ⟨⟩ := k
  split
  · rw [Core.due_frame]
  · next hnone =>
    dsimp only at hnone
    subst hnone
    rfl

/-- What a release changes of a core. -/
theorem Core.passAe_frame (cons : Bool) :
    k.passAe off cons = { k with full := (k.passAe off cons).full, hold := none, credits := (k.passAe off cons).credits } := by
  have heq : k.passAe off cons = (if cons then k.setWord off false else k).resumed := rfl
  rw [heq, Core.resumed_frame]
  cases cons <;> rfl

theorem Core.passCc_frame (cons : Bool) : k.passCc off cons = { k with full := (k.passCc off cons).full, cc := { k.cc with hold := none } } := by
  unfold Core.passCc
  cases cons <;> rfl

/-- What the release of a word changes of its core. -/
structure Core.Released (k l : Core) : Prop where
  eq : l = { k with full := l.full, hold := l.hold, credits := l.credits, cc := { k.cc with hold := l.cc.hold } }

theorem Core.Released.refl (k : Core) : k.Released k := ⟨rfl⟩

theorem Core.passAe_released (cons : Bool) : k.Released (k.passAe off cons) := ⟨by rw [Core.passAe_frame]⟩

theorem Core.passCc_released (cons : Bool) : k.Released (k.passCc off cons) := ⟨by rw [Core.passCc_frame]⟩

theorem Core.Released.trans {l m : Core} (a : k.Released l) (b : l.Released m) : k.Released m := ⟨by rw [b.eq, a.eq]⟩

theorem State.releaseWord_released (s : State) (d c off : Nat) : (s.core d c).Released ((s.releaseWord d c off).core d c) := by
  have hfresh : s.fresh.2.core d c = s.core d c := rfl
  unfold State.releaseWord
  dsimp only
  split
  · exact .refl _
  · rw [State.core_onCore_self]
    exact Core.passAe_released _
  · rw [State.core_onCore_self]
    exact Core.passCc_released _
  · split
    all_goals
      rw [State.core_onCore_self, hfresh]
      split
    · exact Core.passAe_released _
    · exact (Core.passAe_released _).trans (Core.passCc_released _)
    · exact Core.passCc_released _
    · exact (Core.passCc_released _).trans (Core.passAe_released _)

theorem State.releaseWord_of_free (hold : (s.core d c).hold = none) (hcc : holdsOn (s.core d c).cc.hold off = none) : s.releaseWord d c off = s := by
  unfold State.releaseWord
  dsimp only
  rw [hold, hcc]
  rfl

/-! ### Barrier words (R281 to R284) -/

/-- The bytes of a barrier word. -/
def Barrier.bytes (b : Barrier) : List Byte :=
  leBytes 4 b.round ++ leBytes 1 b.mask ++ leBytes 1 b.arrived ++ leBytes 1 b.leaving ++ List.replicate 57 0

@[simp] theorem Barrier.length_bytes (b : Barrier) : b.bytes.length = 64 := by simp [Barrier.bytes]

/-- Whether the fields of a barrier word fit in its bytes. -/
structure Barrier.Fits (b : Barrier) : Prop where
  round : b.round < 2 ^ 32
  mask : b.mask < 256
  arrived : b.arrived < 256
  leaving : b.leaving < 256
  rest : b.rest = 0

theorem Barrier.fields_bytes {b : Barrier} (h : b.Fits) :
    (⟨field b.bytes 0 4, field b.bytes 4 1, field b.bytes 5 1, field b.bytes 6 1, field b.bytes 7 57⟩ : Barrier) = b := by
  obtain ⟨hround, hmask, harrived, hleaving, hrest⟩ := h
  have hzero : field (List.replicate 57 0) 0 57 = 0 := by decide
  cases b
  simp only [Barrier.bytes, List.append_assoc, Barrier.mk.injEq]
  dsimp only at hround hmask harrived hleaving hrest
  refine ⟨?_, ?_, ?_, ?_, ?_⟩
  · rw [field_leBytes_append]
    exact Nat.mod_eq_of_lt hround
  · rw [field_append_of_le _ (by simp), length_leBytes, field_leBytes_append]
    exact Nat.mod_eq_of_lt hmask
  · rw [field_append_of_le _ (by simp), length_leBytes, field_append_of_le _ (by simp), length_leBytes, field_leBytes_append]
    exact Nat.mod_eq_of_lt harrived
  · rw [field_append_of_le _ (by simp), length_leBytes, field_append_of_le _ (by simp), length_leBytes, field_append_of_le _ (by simp),
      length_leBytes, field_leBytes_append]
    exact Nat.mod_eq_of_lt hleaving
  · rw [field_append_of_le _ (by simp), length_leBytes, field_append_of_le _ (by simp), length_leBytes, field_append_of_le _ (by simp),
      length_leBytes, field_append_of_le _ (by simp), length_leBytes, hrest]
    exact hzero

theorem State.onCore_readBytes (f : Core → Core) (a n : Nat) : (s.onCore d c f).readBytes a n = s.readBytes a n := rfl

theorem State.onCore_readByte (f : Core → Core) (a : Nat) : (s.onCore d c f).readByte a = s.readByte a := rfl

theorem State.putWord_core (a : Nat) (data : List Byte) : (s.putWord a data).core d c = s.core d c := rfl

theorem State.barrier_of_sameMemory (h : s.SameMemory t) (d c off : Nat) : t.barrier d c off = s.barrier d c off := by
  unfold State.barrier
  rw [h.readBytes]

theorem State.setBarrier_eq (hpres : s.corePresent d c = true) (hoff : off + 64 ≤ spmSize) (halign : off % 64 = 0) (b : Barrier) (full : Bool) :
    s.setBarrier d c off b full = (s.putWord (spmBase d c + off) b.bytes).onCore d c (·.setWord off full) := by
  have hdown : alignDown off 64 = off := by
    unfold alignDown
    omega
  unfold State.setBarrier
  rw [hdown]
  exact congrArg (fun u : State => u.onCore d c (·.setWord off full)) (State.writeBytes_word hpres (by omega) halign b.length_bytes)

theorem State.barrier_setBarrier {b : Barrier} (hpres : s.corePresent d c = true) (hwf : s.mem.wf = true) (hoff : off + 64 ≤ spmSize)
    (halign : off % 64 = 0) (hfits : b.Fits) (full : Bool) : (s.setBarrier d c off b full).barrier d c off = b := by
  have hdown : alignDown off 64 = off := by
    unfold alignDown
    omega
  have hread : (s.setBarrier d c off b full).readBytes (spmBase d c + off) 64 = b.bytes := by
    rw [State.setBarrier_eq hpres hoff halign, State.onCore_readBytes]
    have hword := State.readBytes_putWord (s := s) (a := spmBase d c + off) (data := b.bytes)
      (fun i hi => State.resolve_word hpres hoff i (by rwa [Barrier.length_bytes] at hi)) hwf
    rw [Barrier.length_bytes] at hword
    exact hword
  unfold State.barrier
  rw [hdown, hread]
  exact Barrier.fields_bytes hfits

theorem State.core_setBarrier (hpres : s.corePresent d c = true) (hoff : off + 64 ≤ spmSize) (halign : off % 64 = 0) (b : Barrier) (full : Bool) :
    (s.setBarrier d c off b full).core d c = (s.core d c).setWord off full := by
  rw [State.setBarrier_eq hpres hoff halign, State.core_onCore_self, State.putWord_core]

theorem State.readByte_setBarrier_out {b : Barrier} {x : Nat} (hpres : s.corePresent d c = true) (hwf : s.mem.wf = true)
    (hoff : off + 64 ≤ spmSize) (halign : off % 64 = 0) (full : Bool) (hx : x < spmBase d c + off ∨ spmBase d c + off + 64 ≤ x) :
    (s.setBarrier d c off b full).readByte x = s.readByte x := by
  rw [State.setBarrier_eq hpres hoff halign, State.onCore_readByte]
  have hlow : 0x140000000000 ≤ spmBase d c + off := by
    unfold spmBase
    omega
  exact State.readByte_putWord_out hlow (by rwa [Barrier.length_bytes]) hwf

/-! ### Arrivals and leaves -/

theorem lt_of_subMask {a b : Nat} (h : subMask a b = true) : a ≤ b := by
  unfold subMask at h
  exact of_decide_eq_true h ▸ Nat.and_le_right

theorem Barrier.legal_iff {b : Barrier} {full : Bool} : b.legal full = true ↔ b.rest = 0 ∧ b.mask < 16 ∧ subMask b.arrived b.mask = true ∧
    subMask b.leaving b.mask = true ∧ (if full then b.arrived = 0 ∧ b.leaving ≠ 0 else b.leaving = 0) := by
  unfold Barrier.legal
  cases full <;> simp [and_assoc]

/-- The word after participant `p` has arrived with mask `m`. -/
def Barrier.arrives (b : Barrier) (p m : Nat) : Barrier :=
  if b.arrived + 2 ^ p = m then ⟨b.round, m, 0, m, 0⟩ else ⟨b.round, m, b.arrived + 2 ^ p, 0, 0⟩

theorem leNat_lt (bs : List Byte) : leNat bs < 2 ^ (8 * bs.length) := by
  induction bs with
  | nil => decide
  | cons b bs ih =>
    have hbyte : 2 ^ (8 * (b :: bs).length) = 256 * 2 ^ (8 * bs.length) := by
      rw [List.length_cons, Nat.mul_succ, Nat.pow_add, Nat.mul_comm]
    have hb := b.isLt
    rw [leNat, hbyte]
    omega

theorem field_lt (bs : List Byte) (off n : Nat) : field bs off n < 2 ^ (8 * n) :=
  Nat.lt_of_lt_of_le (leNat_lt _) (Nat.pow_le_pow_right (by decide) (Nat.mul_le_mul_left 8 (List.length_take_le _ _)))

theorem State.barrier_round_lt (s : State) (d c off : Nat) : (s.barrier d c off).round < 2 ^ 32 := field_lt _ 0 4

theorem Barrier.arrives_fits {b : Barrier} {p m : Nat} (hround : b.round < 2 ^ 32) (hlegal : b.legal false = true) (hp : p < 4) (hm : m < 16) :
    (b.arrives p m).Fits := by
  obtain ⟨hrest, hmask, harr, hleav, hzero⟩ := Barrier.legal_iff.1 hlegal
  have hle := lt_of_subMask harr
  have hpow : 2 ^ p ≤ 2 ^ 3 := Nat.pow_le_pow_right (by decide) (by omega)
  unfold Barrier.arrives
  split
  · exact ⟨hround, by dsimp only; omega, by dsimp only; omega, by dsimp only; omega, rfl⟩
  · exact ⟨hround, by dsimp only; omega, by dsimp only; omega, by dsimp only; omega, rfl⟩

theorem State.arrive_of_open {p m : Nat} (hlegal : (s.barrier d c off).legal false = true) (hfull : (s.core d c).isFull off = false)
    (hp : m.testBit p = true) (hnew : (s.barrier d c off).arrived.testBit p = false)
    (hmask : (s.barrier d c off).arrived = 0 ∨ (s.barrier d c off).mask = m) :
    s.arrive d c off p m = some (if (s.barrier d c off).arrived + 2 ^ p = m then
      (s.setBarrier d c off ((s.barrier d c off).arrives p m) true).releaseWord d c (alignDown off 64)
      else s.setBarrier d c off ((s.barrier d c off).arrives p m) false) := by
  have hagree : ¬((s.barrier d c off).arrived ≠ 0 ∧ (s.barrier d c off).mask ≠ m) := by
    rintro ⟨hne, hmne⟩
    exact hmask.elim hne hmne
  unfold State.arrive
  dsimp only
  rw [hfull, hlegal]
  simp only [Bool.not_true, Bool.false_eq_true, if_false, bit_eq_testBit, hp, hnew, hagree, decide_false, Bool.or_false]
  unfold Barrier.arrives
  split <;> rfl

theorem State.arrive_of_full {p m : Nat} (hlegal : (s.barrier d c off).legal true = true) (hfull : (s.core d c).isFull off = true) :
    s.arrive d c off p m = none := by
  unfold State.arrive
  dsimp only
  rw [hfull, hlegal]
  rfl

/-- An arrival at an open word: the word after it, and what else of its core may have changed. -/
structure State.Arrived (s t : State) (d c off p m : Nat) : Prop where
  word : t.barrier d c off = (s.barrier d c off).arrives p m
  core : ((s.core d c).setWord off (decide ((s.barrier d c off).arrived + 2 ^ p = m))).Released (t.core d c)
  bytes : ∀ x, x < spmBase d c + off ∨ spmBase d c + off + 64 ≤ x → t.readByte x = s.readByte x
  quiet : (s.core d c).hold = none → holdsOn (s.core d c).cc.hold off = none →
    t.core d c = (s.core d c).setWord off (decide ((s.barrier d c off).arrived + 2 ^ p = m))

theorem State.arrived_of_open {p m : Nat} (hpres : s.corePresent d c = true) (hwf : s.mem.wf = true) (hoff : off + 64 ≤ spmSize)
    (halign : off % 64 = 0) (hpart : p < 4) (hm : m < 16)
    (hlegal : (s.barrier d c off).legal false = true) (hfull : (s.core d c).isFull off = false)
    (hp : m.testBit p = true) (hnew : (s.barrier d c off).arrived.testBit p = false)
    (hmask : (s.barrier d c off).arrived = 0 ∨ (s.barrier d c off).mask = m) : ∃ t, s.arrive d c off p m = some t ∧ s.Arrived t d c off p m := by
  have hdown : alignDown off 64 = off := by
    unfold alignDown
    omega
  have hfits := Barrier.arrives_fits (State.barrier_round_lt s d c off) hlegal hpart hm
  have hcore := fun full => State.core_setBarrier (s := s) hpres hoff halign ((s.barrier d c off).arrives p m) full
  refine ⟨_, State.arrive_of_open hlegal hfull hp hnew hmask, ?_⟩
  rw [hdown]
  by_cases hlast : (s.barrier d c off).arrived + 2 ^ p = m
  · rw [if_pos hlast]
    have hsame : (s.setBarrier d c off ((s.barrier d c off).arrives p m) true).SameMemory
        ((s.setBarrier d c off ((s.barrier d c off).arrives p m) true).releaseWord d c off) :=
      .of_keeps (F := oneOf [.free, .cores]) (State.releaseWord_keeps .rfl rfl rfl) rfl rfl rfl
    refine ⟨?_, ?_, fun x hx => ?_, fun hold hcc => ?_⟩
    · rw [State.barrier_of_sameMemory hsame]
      exact State.barrier_setBarrier hpres hwf hoff halign hfits true
    · rw [decide_eq_true hlast, ← hcore true]
      exact State.releaseWord_released _ d c off
    · have hbytes : _ = _ := congrArg (·.headD 0) (hsame.readBytes x 1)
      exact hbytes.trans (State.readByte_setBarrier_out hpres hwf hoff halign true hx)
    · rw [decide_eq_true hlast, State.releaseWord_of_free, hcore true]
      · rw [hcore true]
        exact hold
      · rw [hcore true]
        exact hcc
  · rw [if_neg hlast]
    refine ⟨State.barrier_setBarrier hpres hwf hoff halign hfits false, ?_, fun x hx => State.readByte_setBarrier_out hpres hwf hoff halign false hx,
      fun _ _ => ?_⟩
    · rw [decide_eq_false hlast, ← hcore false]
      exact .refl _
    · rw [decide_eq_false hlast, hcore false]

end Words

end Sys2Proof.Machine

/-! WAIT, SIGNAL, BARRIER and the engines' part in barriers (R199, R213, R278 to R283). -/

namespace Sys2Proof.Machine

open Sys2Proof Enc7

section Sync

variable {s t : State} {k : Core} {d c off : Nat}

/-! ### A core with nothing under way settles -/

theorem State.settle_of_noJobs (hjobs : (s.core d c).jobs = []) : s.settle d c = s.settleCore d c ((s.core d c).signals.length + 4) := by
  unfold State.settle
  dsimp only
  rw [hjobs]
  simp

theorem State.formable_of_noJobs (hjobs : (s.core d c).jobs = []) : s.formable d c = none := by
  unfold State.formable
  dsimp only
  rw [hjobs]
  rfl

theorem State.settleCore_of_noJobs {n : Nat} (hjobs : (s.core d c).jobs = []) : s.settleCore d c (n + 1) =
    (match (s.core d c).signalDue with
      | some g => if ((s.setSignal d c g).core d c).faulted.isSome then s.setSignal d c g else (s.setSignal d c g).settleCore d c n
      | none => s.checkReplays d c 4) := by
  rw [State.settleCore]
  dsimp only
  rw [State.formable_of_noJobs hjobs, hjobs]
  rfl

/-- No replay is checked while the access stream has not finished it (R181). -/
theorem State.checkReplays_of_unfinished {n : Nat} (h : (s.core d c).sa.finished (s.core d c).checked = false) : s.checkReplays d c n = s := by
  cases n with
  | zero => rfl
  | succ n =>
    rw [State.checkReplays]
    exact if_neg (by simp [h])

/-- No replay is checked outside a block. -/
theorem State.checkReplays_of_outside {n : Nat} (h : (s.core d c).sa.inBlock = false) : s.checkReplays d c n = s := by
  cases n with
  | zero => rfl
  | succ n =>
    rw [State.checkReplays]
    exact if_neg (by simp [h])

theorem Core.signalDue_of_noSignals (h : k.signals = []) : k.signalDue = none := by
  rw [Core.signalDue, h]
  rfl

/-! ### Stops (R183) -/

/-- A core that a fault has stopped. -/
def Core.stopped (k : Core) (id : Nat) : Core :=
  { k with
    sa := { k.sa with running := false }
    sx := { k.sx with running := false }
    jobs := []
    de0 := k.de0.filter fun x => x.walk.isNone
    hold := none
    signals := []
    faulted := some (k.faulted.getD id)
    cc := { k.cc with abortDue := true } }

theorem State.flushWalks_core (s : State) (d c : Nat) (d' c' : Nat) : (s.flushWalks d c).core d' c' = s.core d' c' :=
  State.core_of_cores_eq ((State.flushWalks_keeps (F := oneOf [.mem]) .rfl rfl).frame .cores rfl) d' c'

/-- With no walk holding bytes, a fault writes none. -/
theorem State.flushWalks_of_noTails (h : ∀ j ∈ (s.core d c).jobs, j.tail = []) : s.flushWalks d c = s := by
  unfold State.flushWalks
  rw [List.filter_eq_nil_iff.2 (fun j hj => by simp [h j hj])]
  rfl

theorem State.raise_core (d id : Nat) (u : FaultUnit) (task detail : Nat) (d' c' : Nat) : (s.raise d id u task detail).core d' c' = s.core d' c' :=
  State.core_of_cores_eq ((s.raise_keepsFaultParts d id u task detail).frame .cores rfl) d' c'

theorem State.coreFault_core (s : State) (d c id detail : Nat) : (s.coreFault d c id detail).core d c = (s.core d c).stopped id := by
  have h : s.coreFault d c id detail =
    ((s.raise d id (.core c) (s.core d c).taskNo detail).flushWalks d c).onCore d c (·.stopped id) := rfl
  rw [h, State.core_onCore_self, State.flushWalks_core, State.raise_core]

theorem State.coreFault_mem {id detail : Nat} (h : ∀ j ∈ (s.core d c).jobs, j.tail = []) : (s.coreFault d c id detail).mem = s.mem := by
  have hraise : (s.raise d id (.core c) (s.core d c).taskNo detail).mem = s.mem := (s.raise_keepsFaultParts _ _ _ _ _).frame .mem rfl
  have heq : s.coreFault d c id detail =
    ((s.raise d id (.core c) (s.core d c).taskNo detail).flushWalks d c).onCore d c (·.stopped id) := rfl
  rw [heq, State.flushWalks_of_noTails (by rwa [State.raise_core])]
  exact hraise

/-! ### Waits -/

/-- A core whose access stream has taken its WAIT and waits. -/
def Core.waits (k : Core) (off : Nat) : Core :=
  { k.issued false with hold := some (.word off (syncConsume (k.next false)), k.next false, k.sa.replay) }

theorem Core.issued_full (x : Bool) : (k.issued x).full = k.full := by rw [Core.issued_frame]; cases x <;> rfl

theorem Core.isFull_of_full_eq {l : Core} (h : l.full = k.full) : l.isFull off = k.isFull off := by rw [Core.isFull, h, Core.isFull]

theorem Core.waits_isFull : (k.waits off).isFull off = k.isFull off := Core.isFull_of_full_eq (Core.issued_full false)

theorem Core.issued_pc : (k.issued false).sa.pc = k.sa.pc + 1 := congrArg Stream.pc k.issued_sa

theorem Core.passAe_isFull (cons : Bool) : (k.passAe off cons).isFull off = (if cons then false else k.isFull off) := by
  have heq : k.passAe off cons = (if cons then k.setWord off false else k).resumed := rfl
  rw [heq, Core.resumed_frame]
  cases cons
  · rfl
  · exact Core.isFull_setWord false

theorem exec_wait_of (hissues : (s.core d c).issues false opWAIT = true) (hoff : (s.core d c).syncOff d c = some off) :
    exec (.wait d c) s = .next (s.onCore d c fun k => if (k.waits off).isFull off then (k.waits off).passAe off (syncConsume (k.next false)) else k.waits off) := by
  refine congrArg Host.Outcome.next ((State.when_pos hissues).trans ?_)
  unfold State.syncWord
  rw [hoff]
  rfl

theorem exec_sync_unreached {p : (Nat → Nat → Instr) × Nat} (hp : p ∈ [(Instr.wait, opWAIT), (Instr.signal, opSIGNAL)])
    (hissues : (s.core d c).issues false p.2 = true) (hoff : (s.core d c).syncOff d c = none) :
    exec (p.1 d c) s = .next (s.streamFault d c 6 false 0 0 (s.core d c).sa.pc (s.core d c).sa.replay) := by
  rcases List.mem_cons.1 hp with rfl | hp
  · refine congrArg Host.Outcome.next ((State.when_pos hissues).trans ?_)
    unfold State.syncWord
    rw [hoff]
  · obtain rfl := List.mem_singleton.1 hp
    refine congrArg Host.Outcome.next ((State.when_pos hissues).trans ?_)
    unfold State.syncWord
    rw [hoff]

/-! ### Signals -/

/-- The SIGNAL that the access stream takes next. -/
def Core.nextSignal (k : Core) (off : Nat) : Sig := ⟨off, k.next false, k.sa.pc, k.sa.replay, k.jobNext, k.xferNext⟩

/-- A core whose access stream has taken its SIGNAL. -/
def Core.signalled (k : Core) (off : Nat) : Core := { k.issued false with signals := k.signals ++ [k.nextSignal off] }

theorem exec_signal_of (hissues : (s.core d c).issues false opSIGNAL = true) (hoff : (s.core d c).syncOff d c = some off) :
    exec (.signal d c) s = .next ((s.onCore d c (·.signalled off)).settle d c) := by
  refine congrArg Host.Outcome.next ((State.when_pos hissues).trans ?_)
  unfold State.syncWord
  rw [hoff]
  rfl

/-- What a SIGNAL leaves of its core. -/
theorem Core.signalled_frame : k.signalled off = { k with
    slots := (k.issued false).slots, counters := (k.issued false).counters, sa := { k.sa with pc := k.sa.pc + 1 }
    signals := k.signals ++ [k.nextSignal off] } := by
  unfold Core.signalled
  rw [Core.issued_frame]
  rfl

theorem Core.signalled_spec : (k.signalled off).signals = k.signals ++ [k.nextSignal off] ∧ (k.signalled off).sa = { k.sa with pc := k.sa.pc + 1 } ∧
    (k.signalled off).hold = k.hold ∧ (k.signalled off).full = k.full ∧ (k.signalled off).jobs = k.jobs ∧ (k.signalled off).de0 = k.de0 ∧
    (k.signalled off).de1 = k.de1 ∧ (k.signalled off).cc = k.cc ∧ (k.signalled off).checked = k.checked := by
  rw [Core.signalled_frame]
  exact ⟨rfl, rfl, rfl, rfl, rfl, rfl, rfl, rfl, rfl⟩

theorem Core.writtenBefore_of_eq {l : Core} (hjobs : l.jobs = k.jobs) (hde0 : l.de0 = k.de0) (hde1 : l.de1 = k.de1) (a b : Nat) :
    l.writtenBefore a b = k.writtenBefore a b := by
  unfold Core.writtenBefore
  rw [hjobs, hde0, hde1]

theorem Core.issues_iff {x : Bool} {o : Nat} : k.issues x o = true ↔ (k.stream x).running = true ∧ (k.stream x).inBlock = true ∧
    (k.stream x).closed = false ∧ k.faulted = none ∧ k.patchDue ≠ some (k.stream x).replay ∧ opc (k.next x) = o ∧ k.tokenOk (k.next x) = true ∧
    (if x then k.inOcall = false else k.hold = none) := by
  unfold Core.issues
  cases x <;> simp [and_assoc]

theorem Core.hold_of_issues {o : Nat} (h : k.issues false o = true) : k.hold = none := by
  obtain ⟨-, -, -, -, -, -, -, hold⟩ := Core.issues_iff.1 h
  exact hold

theorem Core.faulted_of_issues {x : Bool} {o : Nat} (h : k.issues x o = true) : k.faulted = none := by
  obtain ⟨-, -, -, hfault, -⟩ := Core.issues_iff.1 h
  exact hfault

theorem Core.open_of_issues {x : Bool} {o : Nat} (h : k.issues x o = true) : (k.stream x).closed = false := by
  obtain ⟨-, -, hopen, -⟩ := Core.issues_iff.1 h
  exact hopen

/-- A signal whose earlier writes are acknowledged is set at once (R199). -/
theorem State.settle_of_dueSignal {g : Sig} (hjobs : (s.core d c).jobs = []) (hde0 : (s.core d c).de0 = []) (hde1 : (s.core d c).de1 = [])
    (hsignals : (s.core d c).signals = [g]) : s.settle d c =
      if ((s.setSignal d c g).core d c).faulted.isSome then s.setSignal d c g else (s.setSignal d c g).settleCore d c 4 := by
  have hdue : (s.core d c).signalDue = some g := by
    unfold Core.signalDue Core.writtenBefore
    rw [hsignals, hjobs, hde0, hde1]
    rfl
  rw [State.settle_of_noJobs hjobs, hsignals, List.length_singleton, show 1 + 4 = 4 + 1 by rfl, State.settleCore_of_noJobs hjobs, hdue]

/-- A core whose signal has set its word. -/
def Core.signalSet (k : Core) (g : Sig) : Core := ({ k with signals := k.signals.erase g } : Core).due g.word g.replay false g.index

theorem Core.signalSet_frame (g : Sig) : k.signalSet g = { k with signals := k.signals.erase g, credits := (k.signalSet g).credits } := by
  unfold Core.signalSet
  rw [Core.due_frame]

theorem Core.signalSet_spec (g : Sig) : (k.signalSet g).signals = k.signals.erase g ∧ (k.signalSet g).full = k.full ∧ (k.signalSet g).sa = k.sa ∧
    (k.signalSet g).jobs = k.jobs ∧ (k.signalSet g).faulted = k.faulted ∧ (k.signalSet g).checked = k.checked := by
  rw [Core.signalSet_frame]
  exact ⟨rfl, rfl, rfl, rfl, rfl, rfl⟩

theorem State.setSignal_of_full {g : Sig} (hfull : (s.core d c).isFull g.off = true) :
    s.setSignal d c g = (s.onCore d c (·.signalSet g)).coreFault d c 0x4701 0 := by
  have hstill : ((s.onCore d c (·.signalSet g)).core d c).isFull g.off = true := by
    rw [State.core_onCore_self, Core.signalSet_frame]
    exact hfull
  exact if_pos hstill

theorem State.setSignal_of_empty {g : Sig} (hfull : (s.core d c).isFull g.off = false) (hold : (s.core d c).hold = none)
    (hcc : holdsOn (s.core d c).cc.hold g.off = none) :
    s.setSignal d c g = (s.onCore d c (·.signalSet g)).onCore d c (·.setWord g.off true) := by
  have hstill : ¬((s.onCore d c (·.signalSet g)).core d c).isFull g.off = true := by
    rw [State.core_onCore_self, Core.signalSet_frame]
    exact Bool.eq_false_iff.1 hfull
  have heq : s.setSignal d c g = (s.onCore d c (·.signalSet g)).signalWord d c g.off := rfl
  rw [heq, State.signalWord, if_neg hstill]
  refine State.releaseWord_of_free ?_ ?_
  all_goals rw [State.core_onCore_self, State.core_onCore_self, Core.signalSet_frame]
  · exact hold
  · exact hcc

theorem State.settle_signal_of_full (hjobs : (s.core d c).jobs = []) (hsignals : (s.core d c).signals = []) (hde0 : (s.core d c).de0 = [])
    (hde1 : (s.core d c).de1 = []) (hfull : (s.core d c).isFull off = true) :
    (s.onCore d c (·.signalled off)).settle d c =
      ((s.onCore d c (·.signalled off)).onCore d c (·.signalSet ((s.core d c).nextSignal off))).coreFault d c 0x4701 0 := by
  obtain ⟨hsig, -, -, hful, hjob, hq0, hq1, -, -⟩ := (s.core d c).signalled_spec (off := off)
  rw [hsignals, List.nil_append] at hsig
  rw [← State.core_onCore_self d c (·.signalled off)] at hsig hful hjob hq0 hq1
  rw [State.settle_of_dueSignal (hjob.trans hjobs) (hq0.trans hde0) (hq1.trans hde1) hsig,
    State.setSignal_of_full ((Core.isFull_of_full_eq hful).trans hfull), State.coreFault_core]
  rfl

/-- A core whose SIGNAL has set its word. -/
def Core.signalPassed (k : Core) (off : Nat) : Core := ((k.signalled off).signalSet (k.nextSignal off)).setWord off true

theorem Core.signalled_faulted : (k.signalled off).faulted = k.faulted := by rw [Core.signalled_frame]

theorem Core.signalPassed_spec : (k.signalPassed off).isFull off = true ∧ (∀ o, o / 64 ≠ off / 64 → (k.signalPassed off).isFull o = k.isFull o) ∧
    (k.signalPassed off).sa = { k.sa with pc := k.sa.pc + 1 } ∧ (k.signalPassed off).faulted = k.faulted ∧ (k.signalPassed off).jobs = k.jobs ∧
    (k.signals = [] → (k.signalPassed off).signals = []) ∧ (k.signalPassed off).checked = k.checked := by
  obtain ⟨hsig, hsa, -, hful, hjob, -, -, -, hchk⟩ := k.signalled_spec (off := off)
  obtain ⟨hsig', hful', hsa', hjob', hfault', hchk'⟩ := (k.signalled off).signalSet_spec (k.nextSignal off)
  refine ⟨Core.isFull_setWord true, fun o ho => ?_, hsa'.trans hsa, hfault'.trans Core.signalled_faulted, hjob'.trans hjob, fun hnone => ?_, hchk'.trans hchk⟩
  · exact (Core.isFull_setWord_ne true ho).trans ((Core.isFull_of_full_eq hful').trans (Core.isFull_of_full_eq hful))
  · refine hsig'.trans ?_
    rw [hsig, hnone, List.nil_append, List.erase_cons_head]

theorem State.core_signalPassed (s : State) (d c off : Nat) : (((s.onCore d c (·.signalled off)).onCore d c
    (·.signalSet ((s.core d c).nextSignal off))).onCore d c (·.setWord off true)).core d c = (s.core d c).signalPassed off := by
  rw [State.core_onCore_self, State.core_onCore_self, State.core_onCore_self]
  rfl

theorem Core.stopped_faulted {id : Nat} (h : k.faulted = none) : (k.stopped id).faulted = some id := by
  rw [Core.stopped, h]
  rfl

theorem Core.stopped_spec (id : Nat) : (k.stopped id).sa.running = false ∧ (k.stopped id).sx.running = false ∧ (k.stopped id).jobs = [] ∧
    (k.stopped id).cc.abortDue = true ∧ (k.stopped id).full = k.full ∧ (k.stopped id).counters = k.counters := ⟨rfl, rfl, rfl, rfl, rfl, rfl⟩

theorem State.settle_signal_of_empty (hold : (s.core d c).hold = none) (hfault : (s.core d c).faulted = none) (hopen : (s.core d c).sa.closed = false)
    (hjobs : (s.core d c).jobs = []) (hsignals : (s.core d c).signals = []) (hde0 : (s.core d c).de0 = []) (hde1 : (s.core d c).de1 = [])
    (hchecked : (s.core d c).checked = (s.core d c).sa.replay) (hfull : (s.core d c).isFull off = false) (hcc : (s.core d c).cc.hold = none) :
    (s.onCore d c (·.signalled off)).settle d c =
      ((s.onCore d c (·.signalled off)).onCore d c (·.signalSet ((s.core d c).nextSignal off))).onCore d c (·.setWord off true) := by
  obtain ⟨hsig, -, hhold, hful, hjob, hq0, hq1, hctl, -⟩ := (s.core d c).signalled_spec (off := off)
  rw [hsignals, List.nil_append] at hsig
  rw [← State.core_onCore_self d c (·.signalled off)] at hsig hhold hful hjob hq0 hq1 hctl
  rw [State.settle_of_dueSignal (hjob.trans hjobs) (hq0.trans hde0) (hq1.trans hde1) hsig,
    State.setSignal_of_empty ((Core.isFull_of_full_eq hful).trans hfull) (hhold.trans hold) (by rw [hctl, hcc]; rfl),
    show ((s.core d c).nextSignal off).off = off from rfl]
  have hcore := State.core_signalPassed s d c off
  obtain ⟨-, -, hsa, hfault', hjob', hsig', hchk⟩ := (s.core d c).signalPassed_spec (off := off)
  rw [← hcore] at hsa hfault' hjob' hsig' hchk
  rw [if_neg (by rw [hfault', hfault]; exact Bool.false_ne_true), State.settleCore_of_noJobs (hjob'.trans hjobs),
    Core.signalDue_of_noSignals (hsig' hsignals)]
  refine State.checkReplays_of_unfinished ?_
  rw [hsa, hchk, hchecked]
  simp [Stream.finished, hopen]

/-! ### Barriers -/

theorem Core.addMarker_frame (de1 : Bool) (m : Nat) : k.addMarker de1 off m =
    { k with xferNext := k.xferNext + 1, de0 := (k.addMarker de1 off m).de0, de1 := (k.addMarker de1 off m).de1 } := by
  cases de1 <;> rfl

/-- A barrier's markers put in the queues of the engines that its mask names. -/
def Core.addMarkers (k : Core) (off m : Nat) : Core :=
  let k := if bit m 1 then k.addMarker false off m else k
  if bit m 2 then k.addMarker true off m else k

theorem Core.addMarkers_frame (m : Nat) : k.addMarkers off m =
    { k with xferNext := (k.addMarkers off m).xferNext, de0 := (k.addMarkers off m).de0, de1 := (k.addMarkers off m).de1 } := by
  unfold Core.addMarkers
  dsimp only
  split
  · split
    · rw [Core.addMarker_frame, Core.addMarker_frame (k := k)]
    · rw [Core.addMarker_frame (k := k)]
  · split
    · rw [Core.addMarker_frame]
    · rfl

theorem Core.addMarkers_queues {m : Nat} (hde0 : k.de0 = []) (hde1 : k.de1 = []) :
    ((k.addMarkers off m).de0 ≠ [] ↔ m.testBit 1 = true) ∧ ((k.addMarkers off m).de1 ≠ [] ↔ m.testBit 2 = true) := by
  unfold Core.addMarkers
  rw [bit_eq_testBit, bit_eq_testBit]
  cases m.testBit 1 <;> cases m.testBit 2 <;> simp [Core.addMarker, hde0, hde1]

/-- A core whose access engine has arrived at a barrier word by instruction `w` and waits for its round. -/
def Core.barrierIssued (k : Core) (off w m : Nat) : Core :=
  ({ k.issued false with hold := some (.barrier off, w, k.sa.replay) } : Core).addMarkers off m

theorem Core.barrierIssued_spec (w m : Nat) : (k.barrierIssued off w m).hold = some (.barrier off, w, k.sa.replay) ∧
    (k.barrierIssued off w m).sa.pc = k.sa.pc + 1 ∧ (k.barrierIssued off w m).full = k.full ∧
    (k.de0 = [] → k.de1 = [] → ((k.barrierIssued off w m).de0 ≠ [] ↔ m.testBit 1 = true) ∧
      ((k.barrierIssued off w m).de1 ≠ [] ↔ m.testBit 2 = true)) := by
  have hde0 : (k.issued false).de0 = k.de0 := k.issued_de0 false
  have hde1 : (k.issued false).de1 = k.de1 := by
    rw [Core.issued_frame]
    rfl
  unfold Core.barrierIssued
  refine ⟨?_, ?_, ?_, fun h0 h1 => Core.addMarkers_queues (hde0.trans h0) (hde1.trans h1)⟩
  all_goals rw [Core.addMarkers_frame]
  · exact Core.issued_pc
  · exact Core.issued_full false

/-- What BARRIER by instruction `w` with mask `m` does after its arrival. -/
def State.barrierGo (s : State) (d c w m off : Nat) : Option State → State
  | none => s
  | some t => if (t.core d c).faulted.isSome then t else t.onCore d c (·.barrierIssued off w m)

theorem State.barrierGo_of_running {w m : Nat} (hfault : (t.core d c).faulted = none) :
    s.barrierGo d c w m off (some t) = t.onCore d c (·.barrierIssued off w m) := if_neg (by simp [hfault])

theorem execBarrier_eq : execBarrier d c s = .next (s.when ((s.core d c).issues false opBARRIER && (s.core d c).aeWritten &&
    (s.core d c).markerRoom (syncMask ((s.core d c).next false))) fun u => u.syncWord d c fun off u =>
      u.barrierGo d c ((s.core d c).next false) (syncMask ((s.core d c).next false)) off
        (u.arrive d c off 0 (syncMask ((s.core d c).next false)))) := by
  unfold execBarrier
  refine congrArg Host.Outcome.next (congrArg (s.when _) (funext fun u => congrArg (u.syncWord d c) (funext fun off => funext fun v => ?_)))
  generalize v.arrive d c off 0 (syncMask ((s.core d c).next false)) = r
  cases r with
  | none => rfl
  | some t =>
    generalize syncMask ((s.core d c).next false) = m
    rfl

theorem State.syncWord_of {f : Nat → State → State} (hoff : (s.core d c).syncOff d c = some off) : s.syncWord d c f = f off s := by
  unfold State.syncWord
  rw [hoff]

theorem exec_barrier_of {m : Nat} (hm : m = syncMask ((s.core d c).next false)) (hissues : (s.core d c).issues false opBARRIER = true)
    (hwritten : (s.core d c).aeWritten = true) (hde0 : (s.core d c).de0 = []) (hde1 : (s.core d c).de1 = [])
    (hoff : (s.core d c).syncOff d c = some off) (harrive : s.arrive d c off 0 m = some t) (hfault : (t.core d c).faulted = none) :
    exec (.barrier d c) s = .next (t.onCore d c (·.barrierIssued off ((s.core d c).next false) m)) := by
  have hroom : (s.core d c).markerRoom m = true := by
    unfold Core.markerRoom Core.engineItems
    simp [hde0, hde1]
  change execBarrier d c s = _
  rw [execBarrier_eq, ← hm, State.when_pos (by rw [hissues, hwritten, hroom]; rfl), State.syncWord_of hoff, harrive, State.barrierGo_of_running hfault]

theorem syncMask_lt (w : Nat) : syncMask w < 16 := by
  unfold syncMask
  rw [bits_eq]
  exact Nat.mod_lt _ (by decide)

theorem inSpm_iff {a n : Nat} : inSpm d c a n = true ↔ spmBase d c ≤ a ∧ a + n ≤ spmBase d c + spmSize := by
  unfold inSpm
  exact decide_eq_true_iff

theorem spmBase_aligned (d c : Nat) : spmBase d c % 64 = 0 := by
  unfold spmBase
  omega

theorem Core.syncOff_address (h : k.syncOff d c = some off) : ∃ a, a % 64 = 0 ∧ inSpm d c a 64 = true ∧ off = a - spmBase d c := by
  unfold Core.syncOff at h
  dsimp only at h
  generalize plusOff _ _ = a at h
  split at h
  · next hplace =>
    simp only [Bool.and_eq_true, decide_eq_true_eq] at hplace
    exact ⟨a, hplace.1.1, hplace.1.2, (Option.some.inj h).symm⟩
  · cases h

theorem Core.syncOff_spec (h : k.syncOff d c = some off) : off % 64 = 0 ∧ off + 64 ≤ spmSize := by
  obtain ⟨a, ha, hin, rfl⟩ := Core.syncOff_address h
  obtain ⟨hlow, hhigh⟩ := inSpm_iff.1 hin
  have hbase := spmBase_aligned d c
  generalize spmBase d c = b at *
  generalize spmSize = n at *
  omega

/-! ### Leaves -/

/-- The word after participant `p` has left. -/
def Barrier.leaves (b : Barrier) (p : Nat) : Barrier :=
  if b.leaving = 2 ^ p then ⟨(b.round + 1) % 2 ^ 32, b.mask, 0, 0, 0⟩ else { b with leaving := b.leaving - 2 ^ p }

theorem Barrier.leaves_fits {b : Barrier} {p : Nat} (hround : b.round < 2 ^ 32) (hlegal : b.legal true = true) : (b.leaves p).Fits := by
  obtain ⟨hrest, hmask, harr, hleav, hzero, -⟩ := Barrier.legal_iff.1 hlegal
  have harr := lt_of_subMask harr
  have hleav := lt_of_subMask hleav
  unfold Barrier.leaves
  split
  · exact ⟨Nat.mod_lt _ (by decide), by dsimp only; omega, Nat.zero_lt_succ _, Nat.zero_lt_succ _, rfl⟩
  · have hless := Nat.sub_le b.leaving (2 ^ p)
    exact ⟨hround, by dsimp only; omega, by dsimp only; omega, by dsimp only; omega, hrest⟩

theorem State.leave_of_complete {p : Nat} (hlegal : (s.barrier d c off).legal true = true) (hfull : (s.core d c).isFull off = true)
    (hp : (s.barrier d c off).leaving.testBit p = true) :
    s.leave d c off p = s.setBarrier d c off ((s.barrier d c off).leaves p) (decide ((s.barrier d c off).leaving ≠ 2 ^ p)) := by
  unfold State.leave
  dsimp only
  rw [hfull, hlegal, bit_eq_testBit, hp]
  unfold Barrier.leaves
  by_cases hlast : (s.barrier d c off).leaving = 2 ^ p <;> simp [hlast]

/-- A state in which the access engine, released by a complete round, has left the word at `off`. -/
def State.aeLeaves (s : State) (d c off : Nat) : State :=
  if (s.core d c).faulted.isSome then s else (s.onCore d c (·.resumed)).ccArrives d c off

theorem exec_barrierLeave_of {w r : Nat} (halign : off % 64 = 0) (hold : (s.core d c).hold = some (.barrier off, w, r))
    (hfull : (s.core d c).isFull off = true) : exec (.barrierLeave d c off 0) s = .next ((s.leave d c off 0).aeLeaves d c off) := by
  have hdown : alignDown off 64 = off := by
    unfold alignDown
    omega
  change execBarrierLeave d c off 0 s = _
  unfold execBarrierLeave
  dsimp only
  rw [hdown, hold]
  exact congrArg Host.Outcome.next (State.when_pos (by simp [hfull]))

theorem State.aeLeaves_of_running (hfault : (s.core d c).faulted = none) (hcc : ∀ x, (s.core d c).cc.hold ≠ some (.arrive off x)) :
    s.aeLeaves d c off = s.onCore d c (·.resumed) := by
  have hcc' : ((s.onCore d c (·.resumed)).core d c).cc = (s.core d c).cc := by rw [State.core_onCore_self, Core.resumed_frame]
  unfold State.aeLeaves
  rw [if_neg (by simp [hfault])]
  unfold State.ccArrives
  rw [hcc']
  split
  · next o m hagain => exact if_neg fun heq => hcc m (by rw [hagain, heq])
  · rfl

theorem Barrier.arrives_zero (b : Barrier) (m : Nat) :
    b.arrives 0 m = if b.arrived + 1 = m then ⟨b.round, m, 0, m, 0⟩ else ⟨b.round, m, b.arrived + 1, 0, 0⟩ := rfl

theorem Barrier.leaves_zero (b : Barrier) :
    b.leaves 0 = if b.leaving = 1 then ⟨(b.round + 1) % 2 ^ 32, b.mask, 0, 0, 0⟩ else { b with leaving := b.leaving - 1 } := rfl

theorem State.onCore_barrier {f : Core → Core} : (s.onCore d c f).barrier d c off = s.barrier d c off := by
  rw [State.barrier, State.onCore_readBytes, State.barrier]

/-! ### Engines at a barrier -/

theorem Core.setWord_spec (off : Nat) (full : Bool) : (k.setWord off full).faulted = k.faulted ∧ (k.setWord off full).sa = k.sa ∧
    (k.setWord off full).de0 = k.de0 ∧ (k.setWord off full).de1 = k.de1 ∧ (k.setWord off full).cc = k.cc := ⟨rfl, rfl, rfl, rfl, rfl⟩

theorem Core.resumed_full : k.resumed.full = k.full := by rw [Core.resumed_frame]

theorem Core.resumed_hold : k.resumed.hold = none := by rw [Core.resumed_frame]

theorem Core.Released.queues {l : Core} {full : Bool} (h : (k.setWord off full).Released l) :
    l.de0 = k.de0 ∧ l.de1 = k.de1 ∧ l.faulted = k.faulted := by
  rw [h.eq]
  exact ⟨rfl, rfl, rfl⟩

/-- A core whose engine has arrived for the marker at its head. -/
def Core.markArrived (k : Core) (de1 : Bool) : Core :=
  if de1 then { k with de1 := modAt (fun x => { x with arrived := true }) k.de1 0 } else { k with de0 := modAt (fun x => { x with arrived := true }) k.de0 0 }

theorem Core.markArrived_engine {de1 : Bool} {x : Xfer} {rest : List Xfer} (h : (if de1 then k.de1 else k.de0) = x :: rest) :
    (if de1 then (k.markArrived de1).de1 else (k.markArrived de1).de0) = { x with arrived := true } :: rest := by
  cases de1
  · exact congrArg (modAt _ · 0) h
  · exact congrArg (modAt _ · 0) h

/-- What an engine of a barrier does after its arrival. -/
def State.engineGo (s : State) (d c : Nat) (de1 : Bool) : Option State → State
  | none => s
  | some t => if (t.core d c).faulted.isSome then t else t.onCore d c (·.markArrived de1)

theorem State.engineGo_of_running {de1 : Bool} (hfault : (t.core d c).faulted = none) :
    s.engineGo d c de1 (some t) = t.onCore d c (·.markArrived de1) := if_neg (by simp [hfault])

theorem exec_dmaBarrierArrive_of {de1 : Bool} {x : Xfer} {rest : List Xfer} (hhead : (if de1 then (s.core d c).de1 else (s.core d c).de0) = x :: rest)
    (hmarker : x.marker = some off) (harrived : x.arrived = false) (harrive : s.arrive d c off (if de1 then 2 else 1) x.count = some t)
    (hfault : (t.core d c).faulted = none) : exec (.dmaBarrierArrive d c de1) s = .next (t.onCore d c (·.markArrived de1)) := by
  rw [← State.engineGo_of_running (s := s) hfault, ← harrive]
  change execDmaBarrierArrive d c de1 s = _
  unfold execDmaBarrierArrive
  refine congrArg Host.Outcome.next ?_
  dsimp only
  generalize (if de1 then (s.core d c).de1 else (s.core d c).de0) = q at *
  subst hhead
  generalize hmark : x.marker = mark at *
  subst hmarker
  dsimp only [List.head?]
  rw [hmark]
  refine (if_neg (by simp [harrived])).trans ?_
  generalize s.arrive d c off (if de1 then 2 else 1) x.count = r
  cases r <;> rfl

end Sync

/-- Settles O32. -/
theorem waitsSignalsAndBarriers : Obligations.WaitsSignalsAndBarriers := by
  unfold Obligations.WaitsSignalsAndBarriers
  refine ⟨⟨?passes, ?waits, ?signal, ?set, ?overflow, ?unreached⟩, ?arrives, ?leaves, ?engine⟩
  case passes =>
    intro s d c off k hk hissues hoff hfull
    subst hk
    have hwaits : ((s.core d c).waits off).isFull off = true := Core.waits_isFull.trans hfull
    refine ⟨_, exec_wait_of hissues hoff, ?_, ?_, ?_, State.onCore_frame ..⟩
    all_goals rw [State.core_onCore_self, if_pos hwaits]
    · rw [Core.passAe_frame]
    · rw [Core.passAe_frame]
      exact Core.issued_pc
    · rw [Core.passAe_isFull, hwaits]
      cases syncConsume ((s.core d c).next false) <;> rfl
  case waits =>
    intro s d c off k hk hissues hoff hfull
    subst hk
    have hwaits : ((s.core d c).waits off).isFull off = false := Core.waits_isFull.trans hfull
    refine ⟨_, exec_wait_of hissues hoff, ?_, ?_, ?_, State.onCore_frame ..⟩
    all_goals rw [State.core_onCore_self, if_neg (Bool.eq_false_iff.1 hwaits)]
    · rfl
    · exact Core.issued_pc
    · exact Core.issued_full false
  case signal =>
    intro s d c off k hk hissues hoff
    subst hk
    obtain ⟨hsignals, hsa, hhold, hfull, hjobs, hde0, hde1, -, -⟩ := (s.core d c).signalled_spec (off := off)
    refine ⟨_, (s.core d c).nextSignal off, exec_signal_of hissues hoff, rfl, rfl, rfl, ?_, ?_, ?_, ?_, ?_, ?_, State.onCore_frame ..⟩
    all_goals rw [State.core_onCore_self]
    · exact hsignals
    · exact congrArg Stream.pc hsa
    · exact hhold.trans (Core.hold_of_issues hissues)
    · exact hfull
    · rw [hsignals]
      exact List.mem_append_right _ (List.mem_singleton.2 rfl)
    · rw [Core.writtenBefore_of_eq hjobs hde0 hde1]
      exact Iff.rfl
  case set =>
    intro s d c off k hk hissues hoff hjobs hsignals hde0 hde1 hchecked hfull hcc
    subst hk
    have hset := State.settle_signal_of_empty (Core.hold_of_issues hissues) (Core.faulted_of_issues hissues) (Core.open_of_issues hissues)
      hjobs hsignals hde0 hde1 hchecked hfull hcc
    obtain ⟨hnow, hothers, hsa, -⟩ := (s.core d c).signalPassed_spec (off := off)
    refine ⟨_, (exec_signal_of hissues hoff).trans (congrArg Host.Outcome.next hset), ?_, fun o ho => ?_, ?_, rfl⟩
    all_goals rw [State.core_signalPassed]
    · exact hnow
    · exact hothers o ho
    · exact congrArg Stream.pc hsa
  case overflow =>
    intro s d c off k hk hissues hoff hjobs hsignals hde0 hde1 hfull
    subst hk
    have hset := State.settle_signal_of_full hjobs hsignals hde0 hde1 hfull
    generalize hv : (s.onCore d c (·.signalled off)).onCore d c (·.signalSet ((s.core d c).nextSignal off)) = v at hset
    have hcore : v.core d c = ((s.core d c).signalled off).signalSet ((s.core d c).nextSignal off) := by
      rw [← hv, State.core_onCore_self, State.core_onCore_self]
    obtain ⟨-, hful, -, hjob, hfault, -⟩ := ((s.core d c).signalled off).signalSet_spec ((s.core d c).nextSignal off)
    obtain ⟨-, -, -, hful', hjob', -⟩ := (s.core d c).signalled_spec (off := off)
    rw [← hcore] at hful hjob hfault
    obtain ⟨hsa, hsx, -, habort, hsame, -⟩ := (v.core d c).stopped_spec 0x4701
    refine ⟨_, (exec_signal_of hissues hoff).trans (congrArg Host.Outcome.next hset), ?_, ?_, ?_, ?_, ?_, ?_⟩
    · rw [State.coreFault_core]
      exact Core.stopped_faulted (hfault.trans (Core.signalled_faulted.trans (Core.faulted_of_issues hissues)))
    · rw [State.coreFault_core]
      exact hsa
    · rw [State.coreFault_core]
      exact hsx
    · rw [State.coreFault_core]
      exact habort
    · rw [State.coreFault_core]
      exact hsame.trans (hful.trans hful')
    · have hmem : v.mem = s.mem := by rw [← hv]; rfl
      exact (State.coreFault_mem (by rw [hjob, hjob', hjobs]; exact fun j hj => absurd hj List.not_mem_nil)).trans hmem
  case unreached =>
    intro p hp s d c k hk hissues hoff
    subst hk
    exact exec_sync_unreached hp hissues hoff
  case arrives =>
    intro s d c off k b m hk hpres hwf hissues hwritten hde0 hde1 hoff hb hm hlegal hfull hp hnew hmask hcc
    subst hk hb
    obtain ⟨halign, hsize⟩ := Core.syncOff_spec hoff
    obtain ⟨t, harrive, hword, -, hbytes, hquiet⟩ :=
      State.arrived_of_open hpres hwf hsize halign (p := 0) (by decide) (hm ▸ syncMask_lt _) hlegal hfull hp hnew hmask
    have hcore := hquiet (Core.hold_of_issues hissues) (by rw [hcc]; rfl)
    rw [Barrier.arrives_zero] at hword
    rw [Nat.pow_zero] at hcore
    obtain ⟨hfault, hsa, hq0, hq1, -⟩ := (s.core d c).setWord_spec off (decide ((s.barrier d c off).arrived + 1 = m))
    rw [← hcore] at hfault hsa hq0 hq1
    have hexec := exec_barrier_of hm hissues hwritten hde0 hde1 hoff harrive (hfault.trans (Core.faulted_of_issues hissues))
    obtain ⟨hhold, hpc, hfulls, hqueues⟩ := (t.core d c).barrierIssued_spec (off := off) ((s.core d c).next false) m
    obtain ⟨hm1, hm2⟩ := hqueues (hq0.trans hde0) (hq1.trans hde1)
    rw [hsa] at hhold hpc
    refine ⟨_, hexec, ?_, ?_, State.onCore_barrier.trans hword, ?_, fun a ha => (State.onCore_readByte ..).trans (hbytes a ha), ?_, ?_⟩
    all_goals rw [State.core_onCore_self]
    · exact hhold
    · exact hpc
    · rw [Core.isFull_of_full_eq hfulls, hcore, Core.isFull_setWord]
      exact decide_eq_true_iff
    · exact hm1
    · exact hm2
  case leaves =>
    intro s d c off k b w r hk hpres hwf hfault halign hsize hold hb hlegal hfull hp hcc
    subst hk hb
    have hleave := State.leave_of_complete (p := 0) hlegal hfull hp
    have hcore : (s.leave d c off 0).core d c = (s.core d c).setWord off (decide ((s.barrier d c off).leaving ≠ 2 ^ 0)) := by
      rw [hleave, State.core_setBarrier hpres hsize halign]
    obtain ⟨hfault', -, -, -, hcc'⟩ := (s.core d c).setWord_spec off (decide ((s.barrier d c off).leaving ≠ 2 ^ 0))
    rw [← hcore] at hfault' hcc'
    have hexec := (exec_barrierLeave_of halign hold hfull).trans (congrArg Host.Outcome.next
      (State.aeLeaves_of_running (hfault'.trans hfault) fun x => by rw [hcc']; exact hcc x))
    refine ⟨_, hexec, ?_, ?_, ?_⟩
    · rw [State.core_onCore_self]
      exact Core.resumed_hold
    · have hword := State.barrier_setBarrier hpres hwf hsize halign (Barrier.leaves_fits (p := 0) (State.barrier_round_lt s d c off) hlegal)
        (decide ((s.barrier d c off).leaving ≠ 2 ^ 0))
      rw [← hleave, Barrier.leaves_zero] at hword
      exact State.onCore_barrier.trans hword
    · have hfulls := Core.isFull_of_full_eq (off := off) (Core.resumed_full (k := (s.leave d c off 0).core d c))
      rw [hcore, Core.isFull_setWord] at hfulls
      rw [State.core_onCore_self, hcore, hfulls]
      simp
  case engine =>
    intro s d c off de1 k x rest b p hk hpres hwf hfault halign hsize hhead hmarker harrived hp hb hlegal hfull hcount hbit hnew hmask
    subst hk hb
    have hp4 : p < 4 := by
      rw [hp]
      split <;> decide
    obtain ⟨t, harrive, hword, hcore, -, -⟩ := State.arrived_of_open hpres hwf hsize halign hp4 hcount hlegal hfull hbit hnew hmask
    obtain ⟨hq0, hq1, hfault'⟩ := hcore.queues
    rw [hp] at harrive
    have hexec := exec_dmaBarrierArrive_of hhead hmarker harrived harrive (hfault'.trans hfault)
    refine ⟨_, hexec, ?_, State.onCore_barrier.trans hword⟩
    rw [State.core_onCore_self]
    refine Core.markArrived_engine ?_
    cases de1
    · exact hq0.trans hhead
    · exact hq1.trans hhead

end Sys2Proof.Machine

/-! Queues, tokens and the faults of streams (R165 to R168, R175, R176, R182 to R184, R287, R288). -/

namespace Sys2Proof.Machine

open Sys2Proof Enc7

section StreamFaults

variable {s t : State} {k : Core} {d c q : Nat}

/-! ### Registers that a fault's record leaves -/

/-- The registers that a fault writes as it is recorded (R472, R474). -/
def logRegs : List Reg := [.FCU_LOG_HEAD, .FCU_COUNT_C, .FCU_COUNT_N, .FCU_COUNT_D]

theorem State.setFld_reg_ne {d' u i u' i' v : Nat} {r : Reg} {f : RF} (h : regKey d' r u' i' ≠ regKey d f.reg u i) :
    (s.setFld d u i f v).reg d' r u' i' = s.reg d' r u' i' := State.reg_setReg_ne h

theorem State.reg_of_regs_eq (h : t.regs = s.regs) (r : Reg) (u i : Nat) : t.reg d r u i = s.reg d r u i := by
  unfold State.reg
  rw [h]

theorem State.ringPut_regs_cases (d : Nat) (bytes : List Byte) :
    (s.ringPut d bytes).regs = (s.setFld d 0 0 FCU_LOG_HEAD.NEXT ((s.fld d 0 0 FCU_LOG_HEAD.NEXT + 1) % 32)).regs ∨
      (s.ringPut d bytes).regs = ((s.setFld d 0 0 FCU_LOG_HEAD.OVERRUN 1).setFld d 0 0 FCU_LOG_HEAD.NEXT
        ((s.fld d 0 0 FCU_LOG_HEAD.NEXT + 1) % 32)).regs := by
  unfold State.ringPut
  dsimp only
  split
  · exact .inr rfl
  · exact .inl rfl

theorem State.ringPut_reg {r : Reg} {u i : Nat} (h : ∀ f ∈ logRegs, regOff r u i ≠ regOff f 0 0) (bytes : List Byte) :
    (s.ringPut d bytes).reg d r u i = s.reg d r u i := by
  have hnext : regKey d r u i ≠ regKey d FCU_LOG_HEAD.NEXT.reg 0 0 := regKey_ne (h FCU_LOG_HEAD.NEXT.reg (by decide))
  have hover : regKey d r u i ≠ regKey d FCU_LOG_HEAD.OVERRUN.reg 0 0 := regKey_ne (h FCU_LOG_HEAD.OVERRUN.reg (by decide))
  obtain hregs | hregs := State.ringPut_regs_cases (s := s) d bytes
  · rw [State.reg_of_regs_eq hregs, State.setFld_reg_ne hnext]
  · rw [State.reg_of_regs_eq hregs, State.setFld_reg_ne hnext, State.setFld_reg_ne hover]

theorem State.countClass_reg {r : Reg} {u i : Nat} (h : ∀ f ∈ logRegs, regOff r u i ≠ regOff f 0 0) (cls : Nat) :
    (s.countClass d cls).reg d r u i = s.reg d r u i := by
  unfold State.countClass
  split_ifs
  · exact State.setFld_reg_ne (regKey_ne (h FCU_COUNT_C.COUNT.reg (by decide)))
  · exact State.setFld_reg_ne (regKey_ne (h FCU_COUNT_N.COUNT.reg (by decide)))
  · exact State.setFld_reg_ne (regKey_ne (h FCU_COUNT_D.COUNT.reg (by decide)))
  · rfl

theorem State.raise_reg {r : Reg} {u i : Nat} (h : ∀ f ∈ logRegs, regOff r u i ≠ regOff f 0 0) (id : Nat) (unit : FaultUnit) (task detail : Nat) :
    (s.raise d id unit task detail).reg d r u i = s.reg d r u i := by
  have hlogged : (s.logged d id unit task detail).reg d r u i = s.reg d r u i := by
    rw [State.logged, State.countClass_reg h, State.ringPut_reg h]
  have hfiled : (s.filed d id unit task detail).reg d r u i = s.reg d r u i := by
    rw [State.filed, State.reg_of_regs_eq (State.toFlashLog_regs _), hlogged]
  by_cases hoff : s.power.mode = .off
  · rw [State.raise_of_off _ _ _ _ _ hoff]
  by_cases h0 : faultClass id = 0
  · rw [State.raise_classC hoff h0, hlogged]
  by_cases h3 : faultClass id = 3
  · by_cases hsafe : s.power.mode = .safe
    · rw [State.raise_classM_safe h3 hsafe]
      exact hfiled
    · rw [State.raise_classM hoff h3 hsafe]
      exact hfiled
  · rw [State.raise_classND hoff h0 h3, hfiled]

/-! ### Stream faults (R182 to R184) -/

theorem State.coreFault_frame (d c id detail : Nat) : s.coreFault d c id detail =
    { s with mem := (s.coreFault d c id detail).mem, cores := (s.coreFault d c id detail).cores, regs := (s.coreFault d c id detail).regs
             fcu := (s.coreFault d c id detail).fcu, flash := (s.coreFault d c id detail).flash } :=
  (State.coreFault_keeps (F := oneOf [.flash, .fcu, .regs, .mem, .cores]) .rfl rfl rfl rfl rfl rfl).eq_graft

theorem State.coreFault_reg {r : Reg} {u i : Nat} (h : ∀ f ∈ logRegs, regOff r u i ≠ regOff f 0 0) (id detail : Nat) :
    (s.coreFault d c id detail).reg d r u i = s.reg d r u i := by
  have hregs : (s.coreFault d c id detail).regs = (s.raise d id (.core c) (s.core d c).taskNo detail).regs :=
    (State.stopCore_keeps (F := oneOf [.mem, .cores]) .rfl rfl rfl).frame .regs rfl
  rw [State.reg_of_regs_eq hregs, State.raise_reg h]

theorem State.streamFault_of_running {kind cls index replay : Nat} {x : Bool} (h : (s.core d c).faulted = none) :
    s.streamFault d c kind x q cls index replay =
      (s.recordStream d c (faultInfo kind x q cls index) replay).coreFault d c (0x4300 + kind) (faultInfo kind x q cls index + replay * 2 ^ 32) :=
  if_neg (by simp [h])

theorem State.recordStream_core (info replay d' c' : Nat) : (s.recordStream d c info replay).core d' c' = s.core d' c' := rfl

theorem State.streamFault_core {kind cls index replay : Nat} {x : Bool} (h : (s.core d c).faulted = none) :
    (s.streamFault d c kind x q cls index replay).core d c = (s.core d c).stopped (0x4300 + kind) := by
  rw [State.streamFault_of_running h, State.coreFault_core, State.recordStream_core]

theorem State.recordStream_info (info replay : Nat) (hc : c < 64) :
    ((s.recordStream d c info replay).reg d .SFE_FAULT_INFO c 0).toNat = info % 2 ^ 32 := by
  have hother : regOff .SFE_FAULT_INFO c 0 ≠ regOff .SFE_FAULT_REPLAY c 0 := by
    revert c
    decide
  rw [State.recordStream, State.reg_setReg_ne (regKey_ne hother), State.reg_setReg_self]
  rfl

theorem State.recordStream_replay (info replay : Nat) :
    ((s.recordStream d c info replay).reg d .SFE_FAULT_REPLAY c 0).toNat = replay % 2 ^ 32 := by
  rw [State.recordStream, State.reg_setReg_self]
  rfl

theorem regOff_streamRegs (hc : c < 64) : ∀ r ∈ [Reg.SFE_FAULT_INFO, .SFE_FAULT_REPLAY, .SYNC_STALL_INFO], ∀ f ∈ logRegs,
    regOff r c 0 ≠ regOff f 0 0 := by
  revert c
  decide

theorem faultInfo_fields {kind cls index : Nat} {x : Bool} (hkind : kind < 8) (hq : q < 32) (hcls : cls < 16) :
    bits (faultInfo kind x q cls index % 2 ^ 32) 31 31 = 1 ∧ bits (faultInfo kind x q cls index % 2 ^ 32) 27 24 = kind ∧
      bits (faultInfo kind x q cls index % 2 ^ 32) 11 0 = index % 4096 := by
  have hflag : flag x ≤ 1 := by cases x <;> decide
  unfold faultInfo
  rw [bits_eq, bits_eq, bits_eq]
  generalize flag x = f at *
  omega

end StreamFaults

end Sys2Proof.Machine

/-! Steps of queues and tokens, and faults that stop both streams (R165 to R168, R175, R176, R182 to R184, R287, R288). -/

namespace Sys2Proof.Machine

open Sys2Proof Enc7

section Queues

variable {s t : State} {k : Core} {d c q : Nat}

/-! ### Queues (R166 to R168) -/

/-- A queue's step after its pop. -/
def State.pushAfter (s : State) (d c q : Nat) : State :=
  if (s.core d c).faulted.isSome then s
  else if ((s.pushStep d c q).core d c).faulted.isSome then s.pushStep d c q else (s.pushStep d c q).settle d c

theorem exec_queueBeatAccept_of (hq : q < 32) (hfault : (s.core d c).faulted = none) :
    exec (.queueBeatAccept d c q) s = .next ((s.popStep d c q).pushAfter d c q) := by
  refine congrArg Host.Outcome.next ((State.whenP_pos hq).trans ?_)
  rw [State.queueStep]
  exact if_neg (by simp [hfault])

theorem State.pushAfter_of_faulted {f : Nat} (h : (s.core d c).faulted = some f) : s.pushAfter d c q = s := if_pos (by simp [h])

theorem State.pushAfter_of_pushed {t : State} (h : (s.core d c).faulted = none) (hpush : s.pushStep d c q = t) (ht : (t.core d c).faulted = none) :
    s.pushAfter d c q = t.settle d c := by
  rw [State.pushAfter, if_neg (by simp [h]), hpush, if_neg (by simp [ht])]

theorem State.pushStep_of_full (h : 32 ≤ (mget [] (s.core d c).queues q).length) : s.pushStep d c q = s := if_pos h

theorem State.pushStep_of_noPusher (h : ∀ y ∈ (s.core d c).jobs, y.pushQ ≠ some q) : s.pushStep d c q = s := by
  have hnone : ((s.core d c).jobs.find? fun j => decide (j.pushQ = some q) && (s.core d c).pushesLeft j) = none :=
    List.find?_eq_none.2 fun y hy => by simp [h y hy]
  unfold State.pushStep
  dsimp only
  rw [hnone]
  split <;> rfl

theorem State.popStep_of_noPopper (h : (s.core d c).popper q = none) : s.popStep d c q = s := by
  unfold State.popStep
  dsimp only
  rw [h]

theorem State.popStep_of_beat {i : Nat} {j : Job} {b : Beat} {rest : List Beat} (hpop : (s.core d c).popper q = some (j, i))
    (hnow : (s.core d c).popsNow j i = true) (hbeat : mget [] (s.core d c).queues q = b :: rest) (hstore : opc j.word ≠ opSTORE) :
    s.popStep d c q = s.onCore d c fun k => k.popBeat j i q b := by
  unfold State.popStep
  dsimp only
  rw [hpop]
  dsimp only
  rw [hnow, hbeat]
  exact if_neg hstore

theorem State.popStep_of_underflow {i : Nat} {j : Job} (hpop : (s.core d c).popper q = some (j, i)) (hnow : (s.core d c).popsNow j i = true)
    (hbeat : mget [] (s.core d c).queues q = []) (hpending : (s.core d c).pending q j.replay = false) :
    s.popStep d c q = s.streamFault d c 1 j.x q 0 j.index j.replay := by
  unfold State.popStep
  dsimp only
  rw [hpop]
  dsimp only
  rw [hnow, hbeat, hpending]
  rfl

theorem mget_bump {m : NMap Nat} {i : Nat} : mget 0 (bump m i) i = mget 0 m i + 1 := mget_mput_self

/-- What a pop changes of its core. -/
theorem Core.popBeat_spec (j : Job) (i : Nat) (b : Beat) :
    mget [] (k.popBeat j i q b).queues q = (mget [] k.queues q).drop 1 ∧
      mget 0 ((k.popBeat j i q b).slot j.replay).popped q = mget 0 (k.slot j.replay).popped q + 1 ∧
      (k.popBeat j i q b).jobs = k.jobs.map (fun y => if y.id = j.id then y.take i b else y) ∧ (k.popBeat j i q b).faulted = k.faulted := by
  refine ⟨mget_mput_self, ?_, rfl, rfl⟩
  change mget 0 (mget freshSlotR (mput k.slots (j.replay % 4) _) (j.replay % 4)).popped q = _
  rw [mget_mput_self]
  exact mget_bump

/-- What a push changes of its core. -/
def Core.pushed (k : Core) (j : Job) (q : Nat) (rest : List (List Byte)) (b : Beat) : Core :=
  let k := k.onJob j.id fun j => { j with pushes := rest, pos := j.pos + 1 }
  ({ k with queues := mput k.queues q (mget [] k.queues q ++ [b]) } : Core).countPush j.replay q

theorem Core.pushed_spec (j : Job) (rest : List (List Byte)) (b : Beat) :
    mget [] (k.pushed j q rest b).queues q = mget [] k.queues q ++ [b] ∧
      mget 0 ((k.pushed j q rest b).slot j.replay).pushed q = mget 0 (k.slot j.replay).pushed q + 1 ∧ (k.pushed j q rest b).faulted = k.faulted := by
  refine ⟨mget_mput_self, ?_, rfl⟩
  change mget 0 (mget freshSlotR (mput k.slots (j.replay % 4) _) (j.replay % 4)).pushed q = _
  rw [mget_mput_self]
  exact mget_bump

theorem State.pushStep_of_result {j : Job} {data : List Byte} {rest : List (List Byte)} (hroom : (mget [] (s.core d c).queues q).length < 32)
    (hjob : ((s.core d c).jobs.find? fun y => decide (y.pushQ = some q) && (s.core d c).pushesLeft y) = some j) (hload : opc j.word ≠ opLOAD)
    (hcall : opc j.word ≠ opOCALL) (hpushes : j.pushes = data :: rest) (hemits : emits j.word = none) :
    ∃ u : State, s.pushStep d c q = u ∧ u.core d c = (s.core d c).pushed j q rest ⟨padTo 64 0 data, rest.isEmpty && j.formed, none⟩ ∧
      u = { s with cores := u.cores } := by
  unfold State.pushStep
  dsimp only
  rw [if_neg (by omega), hjob]
  dsimp only
  rw [if_neg hload, hpushes]
  dsimp only
  rw [if_neg hcall]
  unfold State.pushBeat
  dsimp only
  rw [hemits, ite_self]
  dsimp only
  refine ⟨_, rfl, ?_, rfl⟩
  rw [State.core_onCore_self, State.core_onCore_self]
  rfl

/-! ### Tokens (R175, R176) -/

/-- A core with a token credited. -/
def Core.credited (k : Core) (x : Credit) : Core := ({ k with counters := bump k.counters x.cls } : Core).countEmit x.replay x.cls

theorem exec_tokenCredit_of {x : Credit} {rest : List Credit} (hcredits : (s.core d c).credits = x :: rest) (hfault : (s.core d c).faulted = none) :
    exec (.tokenCredit d c) s = .next (if ((((s.onCore d c fun k => { k with credits := rest }).credit d c x.cls x.replay x.x x.index).core d c).faulted.isSome) then
      (s.onCore d c fun k => { k with credits := rest }).credit d c x.cls x.replay x.x x.index
      else ((s.onCore d c fun k => { k with credits := rest }).credit d c x.cls x.replay x.x x.index).settle d c) := by
  change execTokenCredit d c s = _
  unfold execTokenCredit
  refine congrArg Host.Outcome.next ?_
  rw [hcredits]
  exact if_neg (by simp [hfault])

theorem State.credit_of_room {x : Credit} (h : mget 0 (s.core d c).counters x.cls < mget 0 (s.core d c).bounds x.cls) :
    s.credit d c x.cls x.replay x.x x.index = s.onCore d c (·.credited x) := if_neg (by omega)

theorem State.credit_of_overflow {x : Credit} (h : mget 0 (s.core d c).bounds x.cls ≤ mget 0 (s.core d c).counters x.cls) :
    s.credit d c x.cls x.replay x.x x.index = s.streamFault d c 2 x.x 0 x.cls x.index x.replay := if_pos h

end Queues

/-- Settles O33: a step pops, then pushes, and a core with neither settles. -/
theorem queuesAndTokensCount : Obligations.QueuesAndTokensCount := by
  unfold Obligations.QueuesAndTokensCount
  refine ⟨?step, ?pops, ?underflow, ?pushes, ?neither, ?credits, ?overflow⟩
  case step =>
    intro s d c q k hq hk hfault
    subst hk
    exact exec_queueBeatAccept_of hq hfault
  case pops =>
    intro s d c q i k j b rest hq hk hfault hpop hnow hbeat hstore hpusher
    subst hk
    obtain ⟨hqueue, hcount, hjobs, hfault'⟩ := (s.core d c).popBeat_spec (q := q) j i b
    rw [← State.core_onCore_self d c fun k => k.popBeat j i q b] at hqueue hcount hjobs hfault'
    refine ⟨_, (exec_queueBeatAccept_of hq hfault).trans (congrArg Host.Outcome.next ?_), ?_, hcount, State.onCore_frame ..⟩
    · rw [State.popStep_of_beat hpop hnow hbeat hstore]
      refine State.pushAfter_of_pushed (hfault'.trans hfault) (State.pushStep_of_noPusher fun y hy => ?_) (hfault'.trans hfault)
      rw [hjobs] at hy
      obtain ⟨z, hz, rfl⟩ := List.mem_map.1 hy
      split
      · exact hpusher z hz
      · exact hpusher z hz
    · rw [hqueue, hbeat]
      rfl
  case underflow =>
    intro s d c q i k j hq hk _ _ hfault hpop hnow hbeat hpending
    subst hk
    rw [exec_queueBeatAccept_of hq hfault, State.popStep_of_underflow hpop hnow hbeat hpending,
      State.pushAfter_of_faulted (by rw [State.streamFault_core hfault]; exact Core.stopped_faulted hfault)]
  case pushes =>
    intro s d c q k j data rest hq hk hfault hpop hroom hjob hload hcall hpushes hemits
    subst hk
    obtain ⟨u, hpush, hcore, hframe⟩ := State.pushStep_of_result hroom hjob hload hcall hpushes hemits
    obtain ⟨hqueue, hcount, hfault'⟩ := (s.core d c).pushed_spec (q := q) j rest ⟨padTo 64 0 data, rest.isEmpty && j.formed, none⟩
    rw [← hcore] at hqueue hcount hfault'
    refine ⟨u, (exec_queueBeatAccept_of hq hfault).trans (congrArg Host.Outcome.next ?_), hqueue, hcount, hframe⟩
    rw [State.popStep_of_noPopper hpop]
    exact State.pushAfter_of_pushed hfault hpush (hfault'.trans hfault)
  case neither =>
    intro s d c q k hq hk hfault hpop hpush
    subst hk
    rw [exec_queueBeatAccept_of hq hfault, State.popStep_of_noPopper hpop]
    exact congrArg Host.Outcome.next (State.pushAfter_of_pushed hfault (hpush.elim State.pushStep_of_full State.pushStep_of_noPusher) hfault)
  case credits =>
    intro s d c x rest hcredits hfault hroom
    have hroom' : mget 0 ((s.onCore d c fun k => { k with credits := rest }).core d c).counters x.cls <
        mget 0 ((s.onCore d c fun k => { k with credits := rest }).core d c).bounds x.cls := by
      rw [State.core_onCore_self]
      exact hroom
    have hexec := exec_tokenCredit_of hcredits hfault
    rw [State.credit_of_room hroom', State.core_onCore_self, State.core_onCore_self, if_neg (by simp [Core.credited, Core.countEmit, Core.onSlot, hfault])]
      at hexec
    refine ⟨_, hexec, ?_, ?_, rfl⟩
    all_goals rw [State.core_onCore_self, State.core_onCore_self]
    · rfl
    · exact mget_bump
  case overflow =>
    intro s d c x rest hcredits hfault hfull
    have hfull' : mget 0 ((s.onCore d c fun k => { k with credits := rest }).core d c).bounds x.cls ≤
        mget 0 ((s.onCore d c fun k => { k with credits := rest }).core d c).counters x.cls := by
      rw [State.core_onCore_self]
      exact hfull
    have hfault' : ((s.onCore d c fun k => { k with credits := rest }).core d c).faulted = none := by
      rw [State.core_onCore_self]
      exact hfault
    have hexec := exec_tokenCredit_of hcredits hfault
    rw [State.credit_of_overflow hfull', State.streamFault_core hfault', Core.stopped_faulted hfault', if_pos (by rfl)] at hexec
    refine ⟨_, hexec, ?_, ?_⟩
    all_goals rw [State.streamFault_core hfault']
    · exact Core.stopped_faulted hfault'
    · rw [State.core_onCore_self]
      rfl

end Sys2Proof.Machine

/-! Stream faults and stalls (R165, R182 to R184, R287, R288). -/

namespace Sys2Proof.Machine

open Sys2Proof Enc7

section Stalls

variable {s t : State} {k : Core} {d c q : Nat}

theorem State.recordedInfo_fld {info replay : Nat} (f : RF) (hf : f.reg = .SFE_FAULT_INFO) (hc : c < 64) {t : State}
    (hreg : t.reg d .SFE_FAULT_INFO c 0 = (s.recordStream d c info replay).reg d .SFE_FAULT_INFO c 0) :
    t.fld d c 0 f = bits (info % 2 ^ 32) f.hi f.lo := by
  rw [State.fld, hf, hreg, State.recordStream_info _ _ hc]

/-- What SFE_FAULT_INFO reads after a fault that recorded it (R184). -/
theorem State.recordedInfo {kind cls index replay : Nat} {x : Bool} (hc : c < 64) (hkind : kind < 8) (hq : q < 32) (hcls : cls < 16) {t : State}
    (hreg : t.reg d .SFE_FAULT_INFO c 0 = (s.recordStream d c (faultInfo kind x q cls index) replay).reg d .SFE_FAULT_INFO c 0) :
    t.fld d c 0 SFE_FAULT_INFO.VALID = 1 ∧ t.fld d c 0 SFE_FAULT_INFO.KIND = kind ∧ t.fld d c 0 SFE_FAULT_INFO.INDEX = index % 4096 := by
  obtain ⟨hvalid, hkinds, hindex⟩ := faultInfo_fields (x := x) (index := index) hkind hq hcls
  exact ⟨(State.recordedInfo_fld SFE_FAULT_INFO.VALID rfl hc hreg).trans hvalid, (State.recordedInfo_fld SFE_FAULT_INFO.KIND rfl hc hreg).trans hkinds,
    (State.recordedInfo_fld SFE_FAULT_INFO.INDEX rfl hc hreg).trans hindex⟩

/-- A state with what its streams wait on latched, and the stall record kept (R288). -/
def State.stallLatched (s : State) (d c info a x : Nat) : State :=
  (((s.setReg d .SYNC_STALL_INFO c 0 (BitVec.ofNat 32 info)).setReg d .SYNC_STALL_ARG_A c 0 (BitVec.ofNat 32 a)).setReg
    d .SYNC_STALL_ARG_X c 0 (BitVec.ofNat 32 x)).onCc d c fun m => { m.took 20 with stall := (s.core d c).stallRecord info a x }

theorem exec_syncStall_of (hstate : (s.core d c).sfeState = 1 ∨ (s.core d c).sfeState = 2) : exec (.syncStall d c) s =
    .next ((s.stallLatched d c ((s.core d c).stallInfo d c) ((s.core d c).waitCode d c false).2 ((s.core d c).waitCode d c true).2).coreFault d c 0x4703
      ((s.core d c).stallInfo d c)) :=
  congrArg Host.Outcome.next (State.when_pos (decide_eq_true hstate))

theorem State.stallLatched_core (info a x : Nat) :
    (s.stallLatched d c info a x).core d c = { s.core d c with cc := { (s.core d c).cc.took 20 with stall := (s.core d c).stallRecord info a x } } :=
  State.core_onCore_self ..

theorem State.onCc_reg (f : Ctl → Ctl) (r : Reg) (u i : Nat) : (s.onCc d c f).reg d r u i = s.reg d r u i := rfl

theorem State.stallLatched_info (info a x : Nat) (hc : c < 64) :
    ((s.stallLatched d c info a x).reg d .SYNC_STALL_INFO c 0).toNat = info % 2 ^ 32 := by
  have hx : regOff .SYNC_STALL_INFO c 0 ≠ regOff .SYNC_STALL_ARG_X c 0 := by
    revert c
    decide
  have ha : regOff .SYNC_STALL_INFO c 0 ≠ regOff .SYNC_STALL_ARG_A c 0 := by
    revert c
    decide
  rw [State.stallLatched, State.onCc_reg, State.reg_setReg_ne (regKey_ne hx), State.reg_setReg_ne (regKey_ne ha), State.reg_setReg_self]
  rfl

end Stalls

/-- Settles O34. -/
theorem streamFaultsStopBothStreams : Obligations.StreamFaultsStopBothStreams := by
  unfold Obligations.StreamFaultsStopBothStreams
  refine ⟨?fault, ?word, ?alone, ?stall⟩
  case fault =>
    intro s d c kind x q cls index replay _ hc _ hfault hkind hq hcls hreplay
    obtain ⟨hsa, hsx, hjobs, habort, -, -⟩ := (s.core d c).stopped_spec (0x4300 + kind)
    have hlog := regOff_streamRegs hc
    have hreg : (s.streamFault d c kind x q cls index replay).reg d .SFE_FAULT_INFO c 0 =
        (s.recordStream d c (faultInfo kind x q cls index) replay).reg d .SFE_FAULT_INFO c 0 := by
      rw [State.streamFault_of_running hfault, State.coreFault_reg (hlog _ (by decide))]
    obtain ⟨hvalid, hkinds, hindex⟩ := State.recordedInfo hc hkind hq hcls hreg
    refine ⟨_, rfl, ?_, ?_, ?_, ?_, ?_, hvalid, hkinds, hindex, ?_, fun hnone => ?_, ?_⟩
    · rw [State.streamFault_core hfault]
      exact Core.stopped_faulted hfault
    · rw [State.streamFault_core hfault]
      exact hsa
    · rw [State.streamFault_core hfault]
      exact hsx
    · rw [State.streamFault_core hfault]
      exact hjobs
    · rw [State.streamFault_core hfault]
      exact habort
    · rw [State.streamFault_of_running hfault, State.coreFault_reg (hlog _ (by decide)), State.recordStream_replay]
      exact Nat.mod_eq_of_lt hreplay
    · rw [State.streamFault_of_running hfault]
      exact State.coreFault_mem hnone
    · exact (State.streamFault_keeps (F := oneOf [.flash, .fcu, .regs, .mem, .cores]) .rfl rfl rfl rfl rfl rfl).eq_graft
  case word =>
    intro s d c q cls x k hk htask
    subst hk
    exact congrArg Host.Outcome.next ((if_pos rfl).trans (if_pos htask))
  case alone =>
    intro s d c q cls x k _ hc hk htask
    subst hk
    have hexec : exec (.streamFault d c 7 x q cls) s = .next (((s.countFld d c 0 SPM_ECC_COUNT.UNCORRECTABLE 1).recordStream d c
        (faultInfo 7 x 0 0 ((s.core d c).readerOf x).1) ((s.core d c).readerOf x).2).raise d 0x4307 (.core c) 0
        (faultInfo 7 x 0 0 ((s.core d c).readerOf x).1 + ((s.core d c).readerOf x).2 * 2 ^ 32)) :=
      congrArg Host.Outcome.next ((if_pos rfl).trans (if_neg (by simp [htask])))
    obtain ⟨hvalid, hkinds, -⟩ := State.recordedInfo (s := s.countFld d c 0 SPM_ECC_COUNT.UNCORRECTABLE 1) (d := d) (x := x)
      (index := ((s.core d c).readerOf x).1) (replay := ((s.core d c).readerOf x).2) hc (kind := 7) (by decide) (q := 0) (by decide) (cls := 0) (by decide)
      (State.raise_reg (regOff_streamRegs hc _ (by decide)) 0x4307 (.core c) 0
        (faultInfo 7 x 0 0 ((s.core d c).readerOf x).1 + ((s.core d c).readerOf x).2 * 2 ^ 32))
    refine ⟨_, hexec, (State.raise_keepsFaultParts ..).frame .cores rfl, hvalid, hkinds, ?_⟩
    rw [State.raise_frame]
    rfl
  case stall =>
    intro s d c _ hc hstate hfault
    generalize hinfo : (s.core d c).stallInfo d c = info
    have hexec := exec_syncStall_of hstate
    rw [hinfo] at hexec
    generalize ((s.core d c).waitCode d c false).2 = a at hexec
    generalize ((s.core d c).waitCode d c true).2 = b at hexec
    have hcore : (s.stallLatched d c info a b).core d c = _ := State.stallLatched_core info a b
    obtain ⟨hsa, hsx, -, habort, -, -⟩ := ((s.stallLatched d c info a b).core d c).stopped_spec 0x4703
    refine ⟨_, hexec, ?_, ?_, ?_, ?_, ?_, fun hnone => ?_, ?_⟩
    · rw [State.coreFault_core]
      exact Core.stopped_faulted (by rw [hcore]; exact hfault)
    · rw [State.coreFault_core]
      exact hsa
    · rw [State.coreFault_core]
      exact hsx
    · rw [State.coreFault_core]
      exact habort
    · rw [State.coreFault_reg (regOff_streamRegs hc _ (by decide)), State.stallLatched_info _ _ _ hc]
    · exact State.coreFault_mem (by rw [hcore]; exact hnone)
    · rw [State.coreFault_frame]
      rfl

end Sys2Proof.Machine

/-! The instructions of the execute stream and the mirage check (R118, R174, R175, R205 to R208, R220, R226, R231, R250, R251). -/

namespace Sys2Proof.Machine

open Sys2Proof Enc7

section Execute

variable {s t : State} {k : Core} {d c : Nat}

/-! ### Issue to an engine (R174, R175) -/

/-- A core whose execute stream has issued job `j`. -/
def Core.issuedJob (k : Core) (j : Job) : Core := (k.issued true).addJob j

theorem Core.issued_counters {x : Bool} {t : Nat} (h : requires (k.next x) = some t) :
    mget 0 (k.issued x).counters t = mget 0 k.counters t - 1 := by
  have hcounters : (k.issued x).counters = (k.consume (k.stream x).replay (k.next x)).counters := by
    unfold Core.issued
    cases x <;> rfl
  rw [hcounters, Core.consume, h]
  exact mget_mput_self

theorem Core.issuedJob_spec (j : Job) : (k.issuedJob j).jobs = k.jobs ++ [j] ∧ (k.issuedJob j).sx.pc = k.sx.pc + 1 ∧
    (∀ t, requires (k.next true) = some t → mget 0 (k.issuedJob j).counters t = mget 0 k.counters t - 1) := by
  refine ⟨congrArg (· ++ [j]) (k.issued_jobs true), ?_, fun t ht => Core.issued_counters ht⟩
  unfold Core.issuedJob
  rw [Core.issued_frame]
  rfl

theorem State.issueX_of {o : Nat} {fnOk : Nat → Bool} {base arg : Core → Nat → Nat} (hissues : (s.core d c).issues true o = true)
    (hfn : fnOk ((s.core d c).next true) = true) (hfree : (s.core d c).engineFree (engineOf ((s.core d c).next true)) = true) :
    s.issueX d c o fnOk base arg = (s.onCore d c fun k => k.issuedJob ((s.core d c).newJob true (base (s.core d c) ((s.core d c).next true))
      (arg (s.core d c) ((s.core d c).next true)) false [])).settle d c := by
  unfold State.issueX
  dsimp only
  rw [State.when_pos (by rw [hissues, hfn, hfree]; rfl)]
  rfl

/-- The instructions of the vector engine and their function codes (R205). -/
def vopCodes : List ((Nat → Nat → Instr) × Nat) :=
  [(Instr.vadd, 0x01), (Instr.vsub, 0x02), (Instr.vmul, 0x03), (Instr.vfma, 0x04), (Instr.vmax, 0x05), (Instr.vmin, 0x06), (Instr.vaddi, 0x07),
    (Instr.vmuli, 0x08), (Instr.vexp, 0x09), (Instr.vrecip, 0x0A), (Instr.vrsqrt, 0x0B), (Instr.vact, 0x0C), (Instr.vcmp, 0x0D), (Instr.vsel, 0x0E),
    (Instr.vcopy, 0x0F), (Instr.vred, 0x10), (Instr.vsoftmax, 0x11), (Instr.vcvt, 0x12), (Instr.vperm, 0x13)]

theorem exec_vop : ∀ p ∈ vopCodes, exec (p.1 d c) s = .next (s.issueVop d c p.2) := by
  unfold vopCodes
  simp only [List.forall_mem_cons, List.not_mem_nil, false_implies, implies_true, and_true]
  and_intros <;> rfl

/-! ### OCALL and its return (R250, R251) -/

/-- The call that the execute stream's OCALL makes next. -/
def Core.nextCall (k : Core) : Call :=
  ⟨0, oId (k.next true), k.preg k.sx.replay (oArgp (k.next true)), k.sx.replay, none, 0, false, 0, false, none, none⟩

/-- The job of the OCALL that the execute stream takes next. -/
def Core.callJob (k : Core) : Job := k.newJob true 0 (k.preg k.sx.replay (oArgp (k.next true))) false []

/-- A core to whose dispatcher a call is due. -/
def Core.calling (k : Core) (x : Call) : Core := { k with cc := { k.cc with due := some x } }

/-- A core whose OCALL `j` has made call `x`. -/
def Core.called (k : Core) (j : Job) (x : Call) : Core :=
  ((k.issuedJob j).calling x).dispatch

theorem exec_ocall_of (hissues : (s.core d c).issues true opOCALL = true) :
    exec (.ocall d c) s = .next (s.onCore d c fun k => k.called (s.core d c).callJob (s.core d c).nextCall) :=
  congrArg Host.Outcome.next (State.when_pos hissues)

theorem Core.takes_call {x : Call} (hcall : k.cc.call = none) (hdue : k.cc.due = some x) : k.takes 22 false = true := by
  unfold Core.takes Core.mie Core.mip
  rw [bit_eq_testBit, bit_eq_testBit, testBit_ofBitSet, testBit_ofBitSet, hcall, hdue]
  simp

/-- A free dispatcher takes the OCALL that is due (R245, R250). -/
theorem Core.dispatch_of_due {x : Call} (hpatch : k.patchDue = none) (hcall : k.cc.call = none) (hdue : k.cc.due = some x) :
    k.dispatch = { k with cc := { (k.cc.took 22) with call := some x, due := none, lastSource := x.source, lastId := x.id } } := by
  unfold Core.dispatch
  rw [hpatch, hdue]
  exact if_pos (Core.takes_call hcall hdue)

theorem Core.issuedJob_frame (j : Job) : k.issuedJob j = { k with
    slots := (k.issued true).slots, counters := (k.issued true).counters, sx := { k.sx with pc := k.sx.pc + 1 }, jobs := k.jobs ++ [j]
    jobNext := k.jobNext + 1 } := by
  unfold Core.issuedJob
  rw [Core.issued_frame]
  rfl

theorem Core.called_spec (hissues : k.issues true opOCALL = true) (hcall : k.cc.call = none) (hpatch : k.patchDue = none) :
    (k.called k.callJob k.nextCall).inOcall = true ∧ (k.called k.callJob k.nextCall).sx.pc = k.sx.pc + 1 ∧
      (k.called k.callJob k.nextCall).cc.lastId = oId (k.next true) ∧ (k.called k.callJob k.nextCall).cc.lastSource = 0 ∧
      (k.called k.callJob k.nextCall).cc.call = some k.nextCall := by
  obtain ⟨-, -, -, -, -, hop, -⟩ := Core.issues_iff.1 hissues
  have hop : opc k.callJob.word = opOCALL := hop
  generalize hj : k.callJob = j at *
  have hx : j.x = true := by rw [← hj]; rfl
  obtain ⟨hjobs, hpc, -⟩ := k.issuedJob_spec j
  have hfree : (k.issuedJob j).patchDue = none ∧ (k.issuedJob j).cc.call = none := by
    rw [Core.issuedJob_frame]
    exact ⟨hpatch, hcall⟩
  unfold Core.called
  rw [Core.dispatch_of_due (k := (k.issuedJob j).calling k.nextCall) hfree.1 hfree.2 rfl]
  refine ⟨?_, hpc, rfl, rfl, rfl⟩
  change (k.issuedJob j).jobs.any _ = true
  rw [hjobs]
  simp [hop, hx]

theorem Core.dispatch_call_of_none (hcall : k.cc.call = none) (hdue : k.cc.due = none) : k.dispatch.cc.call = none := by
  unfold Core.dispatch
  rw [hdue]
  split
  · exact hcall
  · dsimp only
    split
    · exact hcall
    · exact hcall

/-- A core whose OCALL has returned: it retires, and its token is due. -/
def Core.returned (k : Core) (j : Job) : Core :=
  (({ k with jobs := k.jobs.filter (·.id ≠ j.id), cc := { k.cc with call := none } } : Core).due j.word j.replay true j.index).dispatch

theorem exec_ocallReturn_of {x : Call} {j : Job} (hcall : (s.core d c).cc.call = some x) (hjob : (s.core d c).ocallJob = some j)
    (hsource : x.source = 0) (hfault : (s.core d c).faulted = none) (hhold : (s.core d c).cc.hold = none) (hstatus : x.status = some 0)
    (hpushes : j.pushes = []) (hqueue : queueOff j x = none) :
    exec (.ocallReturn d c 0) s = .next ((s.onCore d c (·.returned j)).settle d c) := by
  have hheld : (s.core d c).cc.held = false := by
    unfold Ctl.held
    rw [hhold]
  change execOcallReturn d c 0 s = _
  unfold execOcallReturn
  refine congrArg Host.Outcome.next ?_
  dsimp only
  rw [hcall, hjob]
  dsimp only
  rw [if_neg (by simp [hsource, hfault, hheld]), if_neg (by simp), if_pos ⟨hstatus, hpushes⟩, hqueue]
  rfl

theorem Core.due_credits {w r i t : Nat} {x : Bool} (h : emits w = some t) : (k.due w r x i).credits = k.credits ++ [⟨t, r, x, i⟩] := by
  rw [Core.due, h]

theorem Core.returned_spec (j : Job) : (k.returned j).jobs = k.jobs.filter (fun i => i.id ≠ j.id) ∧
    (k.cc.due = none → (k.returned j).cc.call = none) ∧
    (∀ t, emits j.word = some t → (⟨t, j.replay, true, j.index⟩ : Credit) ∈ (k.returned j).credits) := by
  unfold Core.returned
  refine ⟨?_, fun hdue => Core.dispatch_call_of_none ?_ ?_, fun t ht => ?_⟩
  · rw [Core.dispatch_frame, Core.due_frame]
  · rw [Core.due_frame]
  · rw [Core.due_frame]
    exact hdue
  · rw [Core.dispatch_frame]
    dsimp only
    rw [Core.due_credits ht]
    exact List.mem_append_right _ (List.mem_singleton.2 rfl)

/-! ### The mirage check (R118, R226) -/

theorem exec_mirageCheck_of {x : Check} {rest : List Check} (hchecks : (s.core d c).checks = x :: rest) : exec (.mirageCheck d c) s =
    .next (if x.fails then ((s.onCore d c fun k => { k with checks := rest }).settle d c).raiseAndReact d 0x8203 (.core c) (s.core d c).taskNo
        (x.index % 4096 + x.replay * 2 ^ 12)
      else ((s.onCore d c fun k => { k with checks := rest }).settle d c).countFld d c 0 ME_MIRAGE_CHECKED.COUNT 1) := by
  change execMirageCheck d c s = _
  unfold execMirageCheck
  refine congrArg Host.Outcome.next ?_
  dsimp only
  rw [hchecks]

/-- Outside a block nothing follows where no job and no signal is under way. -/
theorem State.settle_of_outside (hjobs : (s.core d c).jobs = []) (hsignals : (s.core d c).signals = []) (hblock : (s.core d c).sa.inBlock = false) :
    s.settle d c = s := by
  rw [State.settle_of_noJobs hjobs, State.settleCore_of_noJobs hjobs, Core.signalDue_of_noSignals hsignals]
  exact State.checkReplays_of_outside hblock

theorem State.countFld_mirage : (s.countFld d c 0 ME_MIRAGE_CHECKED.COUNT 1).fld d c 0 ME_MIRAGE_CHECKED.COUNT =
    min (2 ^ 32 - 1) (s.fld d c 0 ME_MIRAGE_CHECKED.COUNT + 1) := by
  rw [State.countFld, State.fld_setFld_self (by decide) (by decide)]
  generalize s.fld d c 0 ME_MIRAGE_CHECKED.COUNT = n
  change satTo (2 ^ 32 - 1) (n + 1) % 2 ^ 32 = _
  unfold satTo
  split <;> omega

end Execute

/-- Settles O35. -/
theorem executeInstructionsIssue : Obligations.ExecuteInstructionsIssue := by
  unfold Obligations.ExecuteInstructionsIssue
  refine ⟨?vop, ?mma, ?gather, ?call, ?returns, ?passes, ?counts, ?fails⟩
  case vop =>
    intro p hp s d c k hk hissues hfn hfree
    subst hk
    have hexec := exec_vop p hp (s := s) (d := d) (c := c)
    rw [State.issueVop, State.issueX_of hissues (decide_eq_true hfn) hfree] at hexec
    obtain ⟨hjobs, hpc, hcounters⟩ := (s.core d c).issuedJob_spec ((s.core d c).newJob true 0 ((s.core d c).preg (s.core d c).sx.replay
      (vVl ((s.core d c).next true) % 64)) false [])
    rw [← State.core_onCore_self d c (·.issuedJob _)] at hjobs hpc hcounters
    exact ⟨_, _, hexec, hjobs, rfl, rfl, rfl, rfl, rfl, hpc, hcounters, State.onCore_frame ..⟩
  case mma =>
    intro s d c k hk hissues hfree
    subst hk
    have hexec : exec (.mma d c) s = .next _ := congrArg Host.Outcome.next (State.issueX_of hissues rfl hfree)
    obtain ⟨hjobs, hpc, -⟩ := (s.core d c).issuedJob_spec ((s.core d c).newJob true 0 0 false [])
    rw [← State.core_onCore_self d c (·.issuedJob _)] at hjobs hpc
    exact ⟨_, _, hexec, hjobs, rfl, rfl, rfl, hpc, State.onCore_frame ..⟩
  case gather =>
    intro s d c k hk hissues hfree
    subst hk
    have hexec : exec (.vgather d c) s = .next _ := congrArg Host.Outcome.next (State.issueX_of hissues rfl hfree)
    obtain ⟨hjobs, hpc, -⟩ := (s.core d c).issuedJob_spec ((s.core d c).newJob true
      (plusOff ((s.core d c).preg (s.core d c).sx.replay (gTpreg ((s.core d c).next true))) (gToff ((s.core d c).next true)))
      ((s.core d c).preg (s.core d c).sx.replay (gXpreg ((s.core d c).next true))) false [])
    rw [← State.core_onCore_self d c (·.issuedJob _)] at hjobs hpc
    exact ⟨_, _, hexec, hjobs, rfl, rfl, rfl, rfl, hpc, State.onCore_frame ..⟩
  case call =>
    intro s d c k hk hissues hcall hpatch
    subst hk
    obtain ⟨hin, hpc, hlast, hsource, hnow⟩ := (s.core d c).called_spec hissues hcall hpatch
    rw [← State.core_onCore_self d c fun k => k.called (s.core d c).callJob (s.core d c).nextCall] at hin hpc hlast hsource hnow
    exact ⟨_, exec_ocall_of hissues, hin, hpc, hlast, hsource, hnow, State.onCore_frame ..⟩
  case returns =>
    intro s d c k x j hk hcall hjob hsource hfault hhold hstatus hpushes hqueue
    subst hk
    obtain ⟨hjobs, hnone, hcredits⟩ := (s.core d c).returned_spec j
    rw [← State.core_onCore_self d c (·.returned j)] at hjobs hnone hcredits
    exact ⟨_, exec_ocallReturn_of hcall hjob hsource hfault hhold hstatus hpushes hqueue, hjobs, hnone, hcredits, State.onCore_frame ..⟩
  case passes =>
    intro s d c x rest hchecks hfails
    rw [exec_mirageCheck_of hchecks, if_neg (by simp [hfails])]
  case counts =>
    intro s d c x rest hchecks hfails hjobs hsignals hblock
    have hcore := State.core_onCore_self (s := s) d c fun k => { k with checks := rest }
    have hsettle := State.settle_of_outside (s := s.onCore d c fun k => { k with checks := rest }) (d := d) (c := c)
      (by rw [hcore]; exact hjobs) (by rw [hcore]; exact hsignals) (by rw [hcore]; exact hblock)
    refine ⟨_, (exec_mirageCheck_of hchecks).trans (congrArg Host.Outcome.next ((if_neg (by simp [hfails])).trans
      (congrArg (fun u : State => u.countFld d c 0 ME_MIRAGE_CHECKED.COUNT 1) hsettle))), ?_, rfl, State.countFld_mirage⟩
    exact congrArg Core.checks hcore
  case fails =>
    intro s d c x rest hchecks hfails
    rw [exec_mirageCheck_of hchecks, if_pos hfails]

end Sys2Proof.Machine

/-! What the vector engine computes on INT32 lanes, and the blocked formats (R99 to R103, R206, R228). -/

namespace Sys2Proof.Machine

open Sys2Proof

section Lanes

/-! ### Packed numbers -/

theorem drop_flatMap_leBytes {α : Type} (f : α → Nat) (n : Nat) (l : List α) (j : Nat) :
    (l.flatMap fun x => leBytes n (f x)).drop (j * n) = (l.drop j).flatMap fun x => leBytes n (f x) := by
  induction l generalizing j with
  | nil => simp
  | cons x l ih =>
    cases j with
    | zero => simp
    | succ j =>
      rw [List.flatMap_cons, Nat.succ_mul, Nat.add_comm, List.drop_append, List.drop_eq_nil_of_le (by simp), length_leBytes, Nat.add_sub_cancel_left, ih]
      rfl

/-- The `j`-th of numbers packed `n` bytes each. -/
theorem field_flatMap_leBytes {α : Type} (f : α → Nat) (n : Nat) {l : List α} {j : Nat} {x : α} (h : l[j]? = some x) :
    field (l.flatMap fun x => leBytes n (f x)) (j * n) n = f x % 2 ^ (8 * n) := by
  obtain ⟨hj, rfl⟩ := List.getElem?_eq_some_iff.1 h
  have hpacked : ((l.flatMap fun x => leBytes n (f x)).drop (j * n)) = leBytes n (f l[j]) ++ (l.drop (j + 1)).flatMap fun x => leBytes n (f x) := by
    rw [drop_flatMap_leBytes, List.drop_eq_getElem_cons hj, List.flatMap_cons]
  rw [field, hpacked, ← List.drop_zero (l := _ ++ _)]
  exact field_leBytes_append n _ _

/-! ### Lanes (R206, R228) -/

/-- What lane `j` of vector `i` of a lane-wise function holds, with its flags. -/
def laneOut (w vl i j : Nat) (a b c : List Byte) : Nat × List Enc7.Flag :=
  if j < vl then Enc7.laneResult 3 (Enc7.vFn w) (Enc7.vImm w) (field a ((i * 64 + j) * 4) 4) (field b ((i * 64 + j) * 4) 4)
    (field c ((i * 64 + j) * 4) 4) (i * 64 + j)
  else (0, [])

theorem elementwise_lane {w vl i j : Nat} (a b c : List Byte) (ht : Enc7.vType w = 3) (hj : j < 64) :
    field (Enc7.elementwise w vl i a b c).bytes (j * 4) 4 = (laneOut w vl i j a b c).1 % 2 ^ 32 := by
  unfold Enc7.elementwise
  dsimp only
  rw [ht, show Enc7.laneBytes 3 = 4 from rfl]
  refine field_flatMap_leBytes (fun r : Nat × List Enc7.Flag => r.1) 4 (x := laneOut w vl i j a b c) ?_
  simp [Enc7.lanes, hj, laneOut]

/-- The lane-wise functions run as such; a clamped VL adds a flag alone. -/
theorem vop_bytes_of_elementwise {w slot free i : Nat} (a b c : List Byte) (hfn : Enc7.vFn w < 0x10) :
    (Enc7.vop w slot free i a b c).bytes = (Enc7.elementwise w (Enc7.vopVl w slot).1 i a b c).bytes := by
  unfold Enc7.vop
  dsimp only
  have hother : Enc7.vFn w ≠ 0x10 ∧ Enc7.vFn w ≠ 0x11 ∧ Enc7.vFn w ≠ 0x12 ∧ Enc7.vFn w ≠ 0x13 := by omega
  obtain ⟨hred, hsoftmax, hcvt, hperm⟩ := hother
  rw [if_neg hred, if_neg hsoftmax, if_neg hcvt, if_neg hperm]
  split <;> rfl

theorem vop_lane {w slot free i j : Nat} (a b c : List Byte) (ht : Enc7.vType w = 3) (hj : j < 64) (hfn : Enc7.vFn w < 0x10) :
    field (Enc7.vop w slot free i a b c).bytes (j * 4) 4 = (laneOut w (Enc7.vopVl w slot).1 i j a b c).1 % 2 ^ 32 := by
  rw [vop_bytes_of_elementwise a b c hfn, elementwise_lane a b c ht hj]

/-- The difference, by the cases of the function: the kernel does not evaluate the sum of an open term and 2^32. -/
theorem intFn_sub (imm a b : Nat) : Enc7.intFn 2 imm a b = (a + 2 ^ 32 - b) % 2 ^ 32 := by
  unfold Enc7.intFn
  split <;> simp_all

theorem intFn_cases (imm a b : Nat) : Enc7.intFn 1 imm a b = (a + b) % 2 ^ 32 ∧ Enc7.intFn 2 imm a b = (a + 2 ^ 32 - b) % 2 ^ 32 ∧
    Enc7.intFn 3 imm a b = a * b % 2 ^ 32 ∧ Enc7.intFn 5 imm a b = (if toSigned 32 a < toSigned 32 b then b else a) ∧
    Enc7.intFn 6 imm a b = (if toSigned 32 a < toSigned 32 b then a else b) ∧ Enc7.intFn 7 imm a b = (a + imm) % 2 ^ 32 ∧
    Enc7.intFn 8 imm a b = a * imm % 2 ^ 32 := ⟨rfl, intFn_sub imm a b, rfl, rfl, rfl, rfl, rfl⟩

theorem mod_word_lt (n : Nat) : n % 2 ^ 32 < 2 ^ 32 := Nat.mod_lt _ (Nat.two_pow_pos 32)

/-- The functions on INT32 lanes wrap modulo 2^32. -/
theorem intFn_lt {fn imm a b : Nat} (ha : a < 2 ^ 32) (hb : b < 2 ^ 32) : Enc7.intFn fn imm a b < 2 ^ 32 := by
  have hpick : ∀ p : Prop, [Decidable p] → (if p then a else b) < 2 ^ 32 ∧ (if p then b else a) < 2 ^ 32 := fun p _ => by
    split
    · exact ⟨ha, hb⟩
    · exact ⟨hb, ha⟩
  unfold Enc7.intFn
  split
  · exact mod_word_lt _
  · exact mod_word_lt _
  · exact mod_word_lt _
  · exact (hpick _).2
  · exact (hpick _).1
  · exact mod_word_lt _
  · exact mod_word_lt _
  · exact ha

theorem laneResult_int {fn imm a b c p : Nat} (hfn : fn ≠ 0x0D ∧ fn ≠ 0x0E ∧ fn ≠ 0x0F) :
    (Enc7.laneResult 3 fn imm a b c p).1 = Enc7.intFn fn imm a b := by
  unfold Enc7.laneResult
  rw [if_neg hfn.1, if_neg hfn.2.1, if_neg hfn.2.2, if_pos rfl]

theorem laneResult_copy {imm a b c p : Nat} : (Enc7.laneResult 3 0x0F imm a b c p).1 = a := rfl

theorem vop_int_lane {w slot free i j : Nat} (a b c : List Byte) (ht : Enc7.vType w = 3) (hj : j < 64) (hvl : j < (Enc7.vopVl w slot).1)
    (hfn : Enc7.vFn w < 0x0D) :
    field (Enc7.vop w slot free i a b c).bytes (j * 4) 4 =
      Enc7.intFn (Enc7.vFn w) (Enc7.vImm w) (field a ((i * 64 + j) * 4) 4) (field b ((i * 64 + j) * 4) 4) := by
  rw [vop_lane a b c ht hj (by omega), laneOut, if_pos hvl, laneResult_int ⟨by omega, by omega, by omega⟩]
  exact Nat.mod_eq_of_lt (intFn_lt (field_lt a _ 4) (field_lt b _ 4))

/-! ### Blocked formats (R99 to R103) -/

theorem Enc.codes_getElem? {c : Enc} {bs : List Byte} {n i : Nat} (hc : c ≠ .kt) (hi : i < n) :
    (c.codes bs n)[i]? = some (leNat (bs.take (c.bytes n)) / 2 ^ (c.width * i) % 2 ^ c.width) := by
  unfold Enc.codes
  rw [if_neg hc]
  simp [hi, Nat.shiftRight_eq_div_pow]

theorem ktTrits_of_trits {t0 t1 t2 t3 t4 : Nat} (h0 : t0 < 3) (h1 : t1 < 3) (h2 : t2 < 3) (h3 : t3 < 3) (h4 : t4 < 3) :
    ktTrits (t0 + 3 * t1 + 9 * t2 + 27 * t3 + 81 * t4) = [t0, t1, t2, t3, t4] := by
  unfold ktTrits
  rw [if_neg (by omega)]
  congr 1
  · omega
  congr 1
  · omega
  congr 1
  · omega
  congr 1
  · omega
  congr 1
  omega

theorem ktTrits_of_reserved {b : Nat} (h : 0xF3 ≤ b) : ∀ t ∈ ktTrits b, Enc.kt.value t = .nan := by
  unfold ktTrits
  rw [if_pos h]
  simp [Enc.value]

theorem Num.mul_nan (x : Num) : x.mul .nan = .nan := by cases x <;> rfl

theorem e4m3Decode_of_nan {b : Byte} (h : b = 0x7F ∨ b = 0xFF) : e4m3Decode b.toNat = .nan := by
  rcases h with rfl | rfl <;> rfl

/-- A K2 block whose scale is NaN reads as NaNs (R102). -/
theorem k2_elems_of_nanScale {bs scales : List Byte} {b0 n i : Nat} (hi : i < n)
    (h : scales[i / 32]?.getD 0 = 0x7F ∨ scales[i / 32]?.getD 0 = 0xFF) : ((Enc.k2.elems bs scales b0 n)[i]?.map Elem.num) = some .nan := by
  unfold Enc.elems
  rw [List.getElem?_map, List.getElem?_zipIdx, Enc.codes_getElem? (by decide) hi]
  simp only [Option.map_some, Nat.zero_add]
  have hscale : Enc.k2.scale (scales[i / Enc.k2.block]?.getD 0).toNat = .nan := e4m3Decode_of_nan h
  rw [if_pos (by decide)]
  simp only [Elem.num, hscale]
  exact congrArg some (Num.mul_nan _)

end Lanes

/-- Settles O36. -/
theorem lanesAndFormatsCompute : Obligations.LanesAndFormatsCompute := by
  unfold Obligations.LanesAndFormatsCompute
  refine ⟨?lanes, fun c bs n i => Enc.codes_getElem?, fun t0 t1 t2 t3 t4 => ktTrits_of_trits, fun b h _ => ktTrits_of_reserved h,
    fun e he => if_neg (by omega), rfl, rfl, rfl, fun bs scales b0 n i => k2_elems_of_nanScale, rfl⟩
  intro w slot free a b c i j vl x y r ht hj hvl hx hy hr
  subst hvl hx hy hr
  obtain ⟨hadd, hsub, hmul, hmax, hmin, haddi, hmuli⟩ :=
    intFn_cases (Enc7.vImm w) (field a ((i * 64 + j) * 4) 4) (field b ((i * 64 + j) * 4) 4)
  refine ⟨fun hfn hout => ?_, fun hin => ⟨fun h => ?_, fun h => ?_, fun h => ?_, fun h => ?_, fun h => ?_, fun h => ?_, fun h => ?_, fun h => ?_⟩⟩
  · rw [vop_lane a b c ht hj hfn, laneOut, if_neg (by omega)]
    exact Nat.zero_mod _
  · rw [vop_int_lane a b c ht hj hin (by omega), h, hadd]
  · rw [vop_int_lane a b c ht hj hin (by omega), h, hsub]
  · rw [vop_int_lane a b c ht hj hin (by omega), h, hmul]
  · rw [vop_int_lane a b c ht hj hin (by omega), h, hmax]
  · rw [vop_int_lane a b c ht hj hin (by omega), h, hmin]
  · rw [vop_int_lane a b c ht hj hin (by omega), h, haddi]
  · rw [vop_int_lane a b c ht hj hin (by omega), h, hmuli]
  · rw [vop_lane a b c ht hj (by omega), laneOut, if_pos hin, h, laneResult_copy]
    exact Nat.mod_eq_of_lt (field_lt a _ 4)

end Sys2Proof.Machine

/-! The control core's memory, registers and faults; the Xkeavo instructions (R168, R236, R239 to R241, R278 to R280, R283). -/

namespace Sys2Proof.Machine

open Sys2Proof Enc7

section ControlCore

variable {s t : State} {k : Core} {m : Ctl} {d c : Nat}

/-! ### Data memory and general registers (R236) -/

theorem Ctl.bytes_write {a : Nat} {bs : List Byte} (hwf : mwf blankByte m.dmem = true) (ha : a + bs.length ≤ 0x10000) :
    (m.write a bs).bytes a bs.length = bs := by
  have hall : bs.take (0x10000 - a) = bs := List.take_of_length_le (by omega)
  unfold Ctl.bytes Ctl.write
  rw [hall]
  apply List.ext_getElem
  · simp
  · intro i hi hi'
    rw [List.getElem_map, List.getElem_range]
    exact mget_writeCells_in hwf hi'

theorem Ctl.x_setX_self {n v : Nat} (hn : n ≠ 0) (hlen : n < m.xregs.length) : (m.setX n v).x n = v % 2 ^ 32 := by
  unfold Ctl.setX Ctl.x
  rw [if_neg hn, if_neg hn]
  simp [hlen]

theorem Ctl.x_setX_zero (m : Ctl) (n : Nat) : (m.setX n 0).x n = 0 := by
  unfold Ctl.x Ctl.setX
  by_cases hn : n = 0
  · rw [if_pos hn]
  · rw [if_neg hn, if_neg hn]
    dsimp only
    rw [List.getElem?_set_self']
    cases m.xregs[n]? <;> rfl

/-- Writing a general register leaves the control core's other parts. -/
theorem Ctl.setX_frame (n v : Nat) : m.setX n v = { m with xregs := (m.setX n v).xregs } := by
  unfold Ctl.setX
  split <;> rfl

theorem Ctl.setX_length (n v : Nat) : (m.setX n v).xregs.length = m.xregs.length := by
  unfold Ctl.setX
  split
  · rfl
  · exact List.length_set

theorem State.onCc_core (f : Ctl → Ctl) : (s.onCc d c f).core d c = { s.core d c with cc := f (s.core d c).cc } := State.core_onCore_self ..

/-- A core of which general register `n` holds `v`. -/
def Core.withX (k : Core) (n v : Nat) : Core := { k with cc := k.cc.setX n v }

theorem Core.withX_pushesFrom (n v : Nat) (x : Bool) (q fuel i : Nat) : (k.withX n v).pushesFrom x q fuel i = k.pushesFrom x q fuel i := by
  induction fuel generalizing i with
  | zero => rfl
  | succ fuel ih =>
    rw [Core.pushesFrom, Core.pushesFrom, ih]
    rfl

theorem Core.withX_toPush (n v : Nat) (x : Bool) (q r : Nat) : (k.withX n v).toPush x q r = k.toPush x q r := by
  have hstream : ∀ y, (k.withX n v).stream y = k.stream y := fun y => by cases y <;> rfl
  unfold Core.toPush Core.produces Core.blockStart
  simp only [Core.withX_pushesFrom, hstream]

theorem Core.withX_pending (n v q r : Nat) : (k.withX n v).pending q r = k.pending q r := by
  unfold Core.pending
  rw [Core.withX_toPush, Core.withX_toPush]
  rfl

theorem Core.withX_ocallJob (n v : Nat) : (k.withX n v).ocallJob = k.ocallJob := rfl

theorem State.xkeavo_eq (rs1 v : Nat) (f : Nat → State → State) :
    s.xkeavo d c rs1 v f = f (((s.core d c).cc.setX rs1 v).x rs1) (s.onCore d c (·.withX rs1 v)) := by
  unfold State.xkeavo
  dsimp only
  rw [State.onCc_core]
  rfl

theorem Core.routine_spec {x : Call} (h : k.routine = some x) :
    k.cc.call = some x ∧ x.status = none ∧ k.cc.held = false ∧ k.faulted = none := by
  unfold Core.routine at h
  split at h
  · next y hcall =>
    simp only [Option.ite_none_right_eq_some, Bool.and_eq_true, Option.isNone_iff_eq_none, Bool.not_eq_true', Option.some.injEq] at h
    obtain ⟨⟨⟨hstatus, hheld⟩, hfault⟩, rfl⟩ := h
    exact ⟨hcall, hstatus, hheld, hfault⟩
  · cases h

theorem Core.holdsOn_of_routine {x : Call} {off : Nat} (h : k.routine = some x) : holdsOn k.cc.hold off = none := by
  obtain ⟨-, -, hheld, -⟩ := Core.routine_spec h
  unfold Ctl.held at hheld
  unfold holdsOn
  split
  · next o cons hhold =>
    rw [hhold] at hheld
    cases hheld
  · rfl

/-! ### Illegal operands (R239) -/

/-- A core whose dispatcher a fault has stopped. -/
def Core.failed (k : Core) : Core := { k with cc := { k.cc with mode := 4 } }

theorem State.setReg_core (r : Reg) (u i : Nat) (w : Word) (d' c' : Nat) : (s.setReg d r u i w).core d' c' = s.core d' c' := rfl

theorem State.ccFault_core (kind id detail replay : Nat) :
    (s.ccFault d c kind id detail replay).core d c = (s.core d c).failed.stopped (0x4600 + kind) := by
  unfold State.ccFault
  dsimp only
  rw [State.coreFault_core, State.onCc_core, State.setReg_core, State.setReg_core]
  rfl

theorem State.illegalX_core {x : Call} (hcall : (s.core d c).cc.call = some x) (hfault : (s.core d c).faulted = none) :
    (s.illegalX d c).core d c = (s.core d c).failed.stopped 0x4601 := by
  have hfresh : s.fresh.2.core d c = s.core d c := rfl
  unfold State.illegalX
  dsimp only
  rw [if_neg (by simp [hfault]), hcall]
  dsimp only
  rw [State.oasisFail, State.ccFault_core, hfresh]

/-! ### Pops (R168, R239, R240) -/

/-- What a KPOP writes to rd: the sideband of its beat. -/
def Beat.sideband (b : Beat) : Nat := flag b.last * 32 + (match b.tok with | some t => 16 + t | none => 0)

/-- A core whose routine `x` has popped beat `b` into the 64 bytes at `a`. -/
def Core.kpopped (k : Core) (x : Call) (q a rd : Nat) (b : Beat) (rest : List Beat) : Core :=
  let k := { k with
    queues := mput k.queues q rest
    cc := { (k.cc.write a b.data).setX rd b.sideband with call := some (k.callPops x q b.last), hold := none } }
  if x.source = 0 then k.countPop x.replay q else k

theorem Core.kpopped_spec (x : Call) (q a rd : Nat) (b : Beat) (rest : List Beat) :
    mget [] (k.kpopped x q a rd b rest).queues q = rest ∧
      (k.kpopped x q a rd b rest).cc = { (k.cc.write a b.data).setX rd b.sideband with call := some (k.callPops x q b.last), hold := none } := by
  unfold Core.kpopped
  dsimp only
  split
  · exact ⟨mget_mput_self, rfl⟩
  · exact ⟨mget_mput_self, rfl⟩

theorem exec_kpop_of_beat {rd rs1 imm v a : Nat} {x : Call} {b : Beat} {rest : List Beat} (hroutine : (s.core d c).routine = some x)
    (ha : a = ((s.core d c).cc.setX rs1 v).x rs1) (halign : a % 64 = 0) (hsize : a + 64 ≤ 0x10000) (himm : imm < 32)
    (hbeat : mget [] (s.core d c).queues imm = b :: rest) :
    exec (.kpop d c ⟨rs1, v⟩ ⟨rd, imm⟩) s =
      .next (((s.onCore d c (·.withX rs1 v)).onCore d c (·.kpopped x imm a rd b rest)).settle d c) := by
  have hq : imm % 32 = imm := Nat.mod_eq_of_lt himm
  have hcore := State.core_onCore_self (s := s) d c (·.withX rs1 v)
  have hbeat' : mget [] ((s.onCore d c (·.withX rs1 v)).core d c).queues imm = b :: rest := by
    rw [hcore]
    exact hbeat
  change execKpop d c ⟨rs1, v⟩ ⟨rd, imm⟩ s = _
  unfold execKpop
  refine congrArg Host.Outcome.next ?_
  rw [hroutine]
  dsimp only
  rw [State.xkeavo_eq, ← ha, hq, if_neg (by omega), hbeat']
  rfl

theorem exec_kpop_of_empty {rd rs1 imm v a : Nat} {x : Call} (hroutine : (s.core d c).routine = some x)
    (ha : a = ((s.core d c).cc.setX rs1 v).x rs1) (halign : a % 64 = 0) (hsize : a + 64 ≤ 0x10000) (himm : imm < 32)
    (hempty : mget [] (s.core d c).queues imm = []) :
    exec (.kpop d c ⟨rs1, v⟩ ⟨rd, imm⟩) s = .next (if (s.core d c).pending imm x.replay then
      (s.onCore d c (·.withX rs1 v)).onCc d c fun m => { m with hold := some (.pop imm) }
      else (s.onCore d c (·.withX rs1 v)).streamFault d c 1 true imm 0 (match (s.core d c).ocallJob with | some j => j.index | none => 0) x.replay) := by
  have hq : imm % 32 = imm := Nat.mod_eq_of_lt himm
  have hcore := State.core_onCore_self (s := s) d c (·.withX rs1 v)
  have hempty' : mget [] ((s.onCore d c (·.withX rs1 v)).core d c).queues imm = [] := by
    rw [hcore]
    exact hempty
  have hpending : ((s.onCore d c (·.withX rs1 v)).core d c).pending imm x.replay = (s.core d c).pending imm x.replay := by
    rw [hcore, Core.withX_pending]
  have hjob : ((s.onCore d c (·.withX rs1 v)).core d c).ocallJob = (s.core d c).ocallJob := by
    rw [hcore, Core.withX_ocallJob]
  change execKpop d c ⟨rs1, v⟩ ⟨rd, imm⟩ s = _
  unfold execKpop
  refine congrArg Host.Outcome.next ?_
  rw [hroutine]
  dsimp only
  rw [State.xkeavo_eq, ← ha, hq, if_neg (by omega), hempty', hpending, hjob] <;> rfl

end ControlCore

end Sys2Proof.Machine

/-! Pushes, parameters, summaries, waits, signals and barriers of the control core (R168, R239 to R241, R278 to R280, R283). -/

namespace Sys2Proof.Machine

open Sys2Proof Enc7

section Xkeavo

variable {s t : State} {k : Core} {m : Ctl} {d c off : Nat}

/-! ### Pushes (R168, R239, R240) -/

/-- The beat that a KPUSH of the 64 bytes at `a` adds, with no token. -/
def Core.pushBeatOf (k : Core) (a side : Nat) : Beat := ⟨k.cc.bytes a 64, bit side 0, none⟩

/-- A core whose routine `x` has pushed beat `b`. -/
def Core.kpushed (k : Core) (x : Call) (q : Nat) (b : Beat) : Core :=
  let k := { k with
    queues := mput k.queues q (mget [] k.queues q ++ [b])
    cc := { k.cc with call := some (k.callPushes x q b.last), hold := none } }
  if x.source = 0 then k.countPush x.replay q else k

theorem Core.kpushed_spec (x : Call) (q : Nat) (b : Beat) : mget [] (k.kpushed x q b).queues q = mget [] k.queues q ++ [b] ∧
    (k.kpushed x q b).cc = { k.cc with call := some (k.callPushes x q b.last), hold := none } ∧ (k.kpushed x q b).faulted = k.faulted := by
  unfold Core.kpushed
  dsimp only
  split
  · exact ⟨mget_mput_self, rfl, rfl⟩
  · exact ⟨mget_mput_self, rfl, rfl⟩

theorem exec_kpush_of_illegal {rd rs1 v q side : Nat} {x : Call} (hroutine : (s.core d c).routine = some x)
    (h : ((s.core d c).cc.setX rs1 v).x rs1 % 64 ≠ 0 ∨ 0x10000 < ((s.core d c).cc.setX rs1 v).x rs1 + 64 ∨ 64 ≤ side ∨ rd ≠ 0) :
    exec (.kpush d c rd rs1 v q side) s = .next ((s.onCore d c (·.withX rs1 v)).illegalX d c) := by
  change execKpush d c rd rs1 v q side s = _
  unfold execKpush
  refine congrArg Host.Outcome.next ?_
  rw [hroutine]
  dsimp only
  rw [State.xkeavo_eq]
  exact if_pos h

theorem Core.withX_queues (n v : Nat) : (k.withX n v).queues = k.queues := rfl

theorem Core.withX_faulted (n v : Nat) : (k.withX n v).faulted = k.faulted := rfl

theorem Ctl.setX_bytes (n v a len : Nat) : (m.setX n v).bytes a len = m.bytes a len := by
  unfold Ctl.bytes
  rw [Ctl.setX_frame]

theorem Core.withX_pushBeatOf (n v a side : Nat) : (k.withX n v).pushBeatOf a side = k.pushBeatOf a side := by
  have hbytes : (k.withX n v).cc.bytes a 64 = k.cc.bytes a 64 := Ctl.setX_bytes n v a 64
  unfold Core.pushBeatOf
  rw [hbytes]

theorem exec_kpush_of_full {rs1 v a q side : Nat} {x : Call} (hroutine : (s.core d c).routine = some x)
    (ha : a = ((s.core d c).cc.setX rs1 v).x rs1) (halign : a % 64 = 0) (hsize : a + 64 ≤ 0x10000) (hq : q < 32) (hside : side < 64)
    (hfull : 32 ≤ (mget [] (s.core d c).queues q).length) : exec (.kpush d c 0 rs1 v q side) s =
      .next ((s.onCore d c (·.withX rs1 v)).onCc d c fun m => { m with hold := some (.push q) }) := by
  have hmod : q % 32 = q := Nat.mod_eq_of_lt hq
  change execKpush d c 0 rs1 v q side s = _
  unfold execKpush
  refine congrArg Host.Outcome.next ?_
  rw [hroutine]
  dsimp only
  rw [State.xkeavo_eq, ← ha, hmod, if_neg (by omega), State.core_onCore_self, Core.withX_queues]
  exact if_pos hfull

theorem exec_kpush_of_room {rs1 v a q side : Nat} {x : Call} (hroutine : (s.core d c).routine = some x)
    (ha : a = ((s.core d c).cc.setX rs1 v).x rs1) (halign : a % 64 = 0) (hsize : a + 64 ≤ 0x10000) (hq : q < 32) (hside : side < 64)
    (htoken : bit side 1 = false) (hroom : (mget [] (s.core d c).queues q).length < 32) : exec (.kpush d c 0 rs1 v q side) s =
      .next (((s.onCore d c (·.withX rs1 v)).onCore d c (·.kpushed x q ((s.core d c).pushBeatOf a side))).settle d c) := by
  have hmod : q % 32 = q := Nat.mod_eq_of_lt hq
  obtain ⟨-, -, -, hfault⟩ := Core.routine_spec hroutine
  have hcore := State.core_onCore_self (s := s) d c (·.withX rs1 v)
  have hbeat : ((s.onCore d c (·.withX rs1 v)).core d c).pushBeatOf a side = (s.core d c).pushBeatOf a side := by
    rw [hcore, Core.withX_pushBeatOf]
  have hroom' : ¬32 ≤ (mget [] ((s.onCore d c (·.withX rs1 v)).core d c).queues q).length := by
    rw [hcore, Core.withX_queues]
    omega
  change execKpush d c 0 rs1 v q side s = _
  unfold execKpush
  refine congrArg Host.Outcome.next ?_
  rw [hroutine]
  dsimp only
  rw [State.xkeavo_eq, ← ha, hmod, htoken, if_neg (by omega), if_neg hroom']
  rw [← hbeat]
  generalize hu : (s.onCore d c (·.withX rs1 v)).onCore d c
    (·.kpushed x q (((s.onCore d c (·.withX rs1 v)).core d c).pushBeatOf a side)) = u
  have hsame : (u.core d c).faulted = none := by
    obtain ⟨-, -, hsame⟩ := ((s.core d c).withX rs1 v).kpushed_spec x q ((s.core d c).pushBeatOf a side)
    rw [← hu, State.core_onCore_self, hbeat, hcore, hsame, Core.withX_faulted, hfault]
  have hgo : (if (u.core d c).faulted.isSome = true then u else u.settle d c) = u.settle d c :=
    if_neg (by rw [hsame]; exact Bool.false_ne_true)
  rw [← hgo, ← hu]
  rfl

/-! ### Parameters (R239, R240) -/

theorem Core.withX_bytes (n v a len : Nat) : (k.withX n v).cc.bytes a len = k.cc.bytes a len := Ctl.setX_bytes n v a len

theorem exec_kpwr_of {rs1 v n a side : Nat} (ha : a = ((s.core d c).cc.setX rs1 v).x rs1) (hn : n < 64) (hsize : a + 8 ≤ 0x10000)
    (hside : side < 4) (hslot : ¬(bit side 1 = true ∧ (bit side 0 = true ∨ (s.core d c).patchDue.isNone = true))) :
    ∃ t, exec (.kpwr d c rs1 v n side) s = .next t ∧
      t.core d c = ((s.core d c).withX rs1 v).kpwr (leNat ((s.core d c).cc.bytes a 8)) n (bit side 0) (bit side 1) ∧
      t = { s with cores := t.cores } := by
  have hmod : n % 64 = n := Nat.mod_eq_of_lt hn
  have hcore := State.core_onCore_self (s := s) d c (·.withX rs1 v)
  have hslot' : ¬(bit side 1 = true ∧ (bit side 0 = true ∨ ((s.onCore d c (·.withX rs1 v)).core d c).patchDue.isNone = true)) := by
    rw [hcore]
    exact hslot
  refine ⟨_, congrArg Host.Outcome.next ((State.xkeavo_eq ..).trans (if_neg ?_)), ?_, rfl⟩
  · rw [← ha]
    rintro (h | h | h)
    · omega
    · omega
    · exact hslot' h
  · rw [State.core_onCore_self, hcore, ← ha, hmod, Core.withX_bytes]

theorem Core.kpwr_param_outside {v n : Nat} (ha : k.sa.inBlock = false) (hx : k.sx.inBlock = false) :
    k.kpwr v n false false = { k with params := k.params.set n v } := by
  unfold Core.kpwr
  rw [ha, hx]
  rfl

theorem Core.kpwr_param_inside {v n : Nat} (h : k.sa.inBlock = true ∨ k.sx.inBlock = true) :
    k.kpwr v n false false = { k with params := k.params.set n v, written := insertNat n k.written } := by
  have hin : (k.sa.inBlock || k.sx.inBlock) = true := by simpa using h
  unfold Core.kpwr
  rw [hin]
  rfl

theorem Core.kpwr_slot {v n r : Nat} (h : k.patchDue = some r) :
    ((k.kpwr v n false true).slot r).params = (k.slot r).params.set n v ∧ (k.kpwr v n false true).params = k.params ∧
      (k.kpwr v n false true).strides = k.strides := by
  unfold Core.kpwr
  rw [h]
  refine ⟨?_, rfl, rfl⟩
  change (mget freshSlotR (mput k.slots (r % 4) _) (r % 4)).params = _
  rw [mget_mput_self]

theorem exec_kprd_of {rs1 v imm a w : Nat} (ha : a = ((s.core d c).cc.setX rs1 v).x rs1) (hsize : a + 8 ≤ 0x10000) (himm : imm < 128)
    (hword : (if 64 ≤ imm then (s.core d c).strides[imm - 64]? else (s.core d c).params[imm]?) = some w) (hw : w < 2 ^ 64)
    (hwf : mwf blankByte (s.core d c).cc.dmem = true) :
    ∃ t, exec (.kprd d c rs1 imm v) s = .next t ∧ leNat ((t.core d c).cc.bytes a 8) = w ∧ (t.core d c).params = (s.core d c).params ∧
      (t.core d c).strides = (s.core d c).strides ∧ t = { s with cores := t.cores } := by
  have hcore := State.core_onCore_self (s := s) d c (·.withX rs1 v)
  have hbit : bit imm 6 = decide (64 ≤ imm) := by
    rw [bit_eq_testBit, Nat.testBit_eq_decide_div_mod_eq]
    by_cases h : 64 ≤ imm
    · rw [decide_eq_true h]
      exact decide_eq_true (by omega)
    · rw [decide_eq_false h]
      exact decide_eq_false (by omega)
  have hread : ((if bit imm 6 then (s.core d c).strides else (s.core d c).params)[imm % 64]?).getD 0 = w := by
    rw [hbit]
    by_cases h : 64 ≤ imm
    · rw [if_pos h] at hword
      rw [if_pos (decide_eq_true h), show imm % 64 = imm - 64 by omega, hword]
      rfl
    · rw [if_neg h] at hword
      rw [if_neg (by simp [h]), show imm % 64 = imm by omega, hword]
      rfl
  refine ⟨_, congrArg Host.Outcome.next ((State.xkeavo_eq ..).trans (if_neg ?_)), ?_, ?_, ?_, rfl⟩
  · rw [← ha]
    omega
  · rw [State.core_onCore_self, hcore, ← ha]
    change leNat (((s.core d c).cc.setX rs1 v).write a (leBytes 8
      (((if bit imm 6 then (s.core d c).strides else (s.core d c).params)[imm % 64]?).getD 0)) |>.bytes a 8) = w
    rw [hread]
    have hback := Ctl.bytes_write (m := (s.core d c).cc.setX rs1 v) (a := a) (bs := leBytes 8 w) (by rw [Ctl.setX_frame]; exact hwf)
      (by rw [length_leBytes]; exact hsize)
    rw [length_leBytes] at hback
    rw [hback, leNat_leBytes]
    exact Nat.mod_eq_of_lt hw
  · rw [State.core_onCore_self, hcore]
    rfl
  · rw [State.core_onCore_self, hcore]
    rfl

end Xkeavo

end Sys2Proof.Machine

/-! Summaries, waits, signals and barriers of the control core, and its Xkeavo instructions as a whole (R239 to R241, R278 to R283). -/

namespace Sys2Proof.Machine

open Sys2Proof Enc7

section XkeavoSync

variable {s t : State} {k : Core} {m : Ctl} {d c off : Nat}

/-! ### Summaries (R241) -/

theorem exec_ksumpop_eq (rd : Nat) : exec (.ksumpop ⟨d, c⟩ ⟨rd, 0⟩) s =
    .next ((s.onCc d c fun m => { m with fifo := m.fifo.drop 1 }.setX rd (flag (!m.fifo.isEmpty))).settle d c) := rfl

theorem Ctl.setX_fifo (n v : Nat) : (m.setX n v).fifo = m.fifo := by rw [Ctl.setX_frame]

/-! ### Waits and signals (R278 to R280) -/

theorem exec_kwait_of {rs1 v imm : Nat} {x : Call} (hroutine : (s.core d c).routine = some x)
    (hoff : off = ((s.core d c).cc.setX rs1 v).x rs1) (halign : off % 64 = 0) (hsize : off < spmSize) (himm : imm < 2) :
    exec (.kwait d c ⟨rs1, v⟩ imm) s = .next ((s.onCore d c (·.withX rs1 v)).onCore d c fun k =>
      if k.isFull off then k.passCc off (bit imm 0) else { k with cc := { k.cc with hold := some (.word off (bit imm 0)) } }) := by
  change execKwait d c ⟨rs1, v⟩ imm s = _
  unfold execKwait
  refine congrArg Host.Outcome.next ?_
  rw [hroutine]
  dsimp only
  rw [State.xkeavo_eq, ← hoff]
  exact if_neg (by omega)

theorem Core.withX_isFull (n v : Nat) : (k.withX n v).isFull off = k.isFull off := rfl

theorem Core.passCc_spec (cons : Bool) (hfull : k.isFull off = true) :
    (k.passCc off cons).cc.hold = none ∧ (k.passCc off cons).isFull off = !cons := by
  cases cons
  · exact ⟨rfl, hfull⟩
  · exact ⟨rfl, Core.isFull_setWord false⟩

theorem exec_ksignal_of {rs1 v : Nat} {x : Call} (hroutine : (s.core d c).routine = some x)
    (hoff : off = ((s.core d c).cc.setX rs1 v).x rs1) (halign : off % 64 = 0) (hsize : off < spmSize) :
    exec (.ksignal d c ⟨⟨rs1, v⟩, 0⟩) s = .next ((s.onCore d c (·.withX rs1 v)).signalWord d c off) := by
  change execKsignal d c ⟨⟨rs1, v⟩, 0⟩ s = _
  unfold execKsignal
  refine congrArg Host.Outcome.next ?_
  rw [hroutine]
  dsimp only
  rw [State.xkeavo_eq, ← hoff]
  exact if_neg (by omega)

theorem Ctl.setX_hold (n v : Nat) : (m.setX n v).hold = m.hold := by rw [Ctl.setX_frame]

theorem Core.withX_ccHold (n v : Nat) : (k.withX n v).cc.hold = k.cc.hold := Ctl.setX_hold n v

theorem Core.withX_hold (n v : Nat) : (k.withX n v).hold = k.hold := rfl

theorem State.signalWord_of_free (hfull : (s.core d c).isFull off = false) (hold : (s.core d c).hold = none)
    (hcc : holdsOn (s.core d c).cc.hold off = none) : s.signalWord d c off = s.onCore d c (·.setWord off true) := by
  rw [State.signalWord, if_neg (Bool.eq_false_iff.1 hfull)]
  refine State.releaseWord_of_free ?_ ?_
  all_goals rw [State.core_onCore_self]
  · exact hold
  · exact hcc

/-! ### Barriers (R282, R283) -/

/-- A core whose control core waits to arrive at the word at `off`. -/
def Core.arriving (k : Core) (rs1 v off mask : Nat) : Core :=
  { k with cc := { k.cc.setX rs1 v with hold := some (.arrive off mask) } }

theorem exec_kbarrier_of {rs1 v mask : Nat} {x : Call} (hroutine : (s.core d c).routine = some x)
    (hoff : off = ((s.core d c).cc.setX rs1 v).x rs1) (halign : off % 64 = 0) (hsize : off < spmSize) (hmask : mask < 16) :
    exec (.kbarrier d c ⟨rs1, v⟩ mask) s =
      .next (((s.onCore d c (·.withX rs1 v)).onCc d c fun m => { m with hold := some (.arrive off mask) }).ccArrives d c off) := by
  change execKbarrier d c ⟨rs1, v⟩ mask s = _
  unfold execKbarrier
  refine congrArg Host.Outcome.next ?_
  rw [hroutine]
  dsimp only
  rw [State.xkeavo_eq, ← hoff]
  exact if_neg (by omega)

/-- What a control core does after its arrival at the word at `off`. -/
def State.ccGo (s : State) (d c off : Nat) : Option State → State
  | none => s
  | some t => if (t.core d c).faulted.isSome then t else t.onCc d c fun x => { x with hold := some (.barrier off) }

theorem State.ccArrives_eq {mask : Nat} (hhold : (s.core d c).cc.hold = some (.arrive off mask)) :
    s.ccArrives d c off = s.ccGo d c off (s.arrive d c off 3 mask) := by
  unfold State.ccArrives
  rw [hhold]
  refine (if_pos rfl).trans ?_
  generalize s.arrive d c off 3 mask = r
  cases r <;> rfl

theorem State.ccGo_of_running (hfault : (t.core d c).faulted = none) :
    s.ccGo d c off (some t) = t.onCc d c fun x => { x with hold := some (.barrier off) } := if_neg (by simp [hfault])

theorem State.onCc_barrier {f : Ctl → Ctl} : (s.onCc d c f).barrier d c off = s.barrier d c off := State.onCore_barrier

theorem Barrier.arrives_three (b : Barrier) (m : Nat) :
    b.arrives 3 m = if b.arrived + 8 = m then ⟨b.round, m, 0, m, 0⟩ else ⟨b.round, m, b.arrived + 8, 0, 0⟩ := rfl

theorem Core.Released.faulted {l : Core} {full : Bool} (h : (k.setWord off full).Released l) : l.faulted = k.faulted := h.queues.2.2

theorem Core.arriving_spec (k : Core) (rs1 v off mask : Nat) : (k.arriving rs1 v off mask).cc.hold = some (.arrive off mask) ∧
    (k.arriving rs1 v off mask).full = k.full ∧ (k.arriving rs1 v off mask).faulted = k.faulted := ⟨rfl, rfl, rfl⟩

/-- KBARRIER in two steps: the control core waits to arrive, and arrives where the word is not full. -/
theorem exec_kbarrier_steps {rs1 v mask : Nat} {x : Call} (hroutine : (s.core d c).routine = some x)
    (hoff : off = ((s.core d c).cc.setX rs1 v).x rs1) (halign : off % 64 = 0) (hsize : off < spmSize) (hmask : mask < 16) :
    ∃ u : State, exec (.kbarrier d c ⟨rs1, v⟩ mask) s = .next (u.ccArrives d c off) ∧ u.core d c = (s.core d c).arriving rs1 v off mask ∧
      u.barrier d c off = s.barrier d c off ∧ u.corePresent d c = s.corePresent d c ∧ u.mem = s.mem ∧ u = { s with cores := u.cores } := by
  refine ⟨_, exec_kbarrier_of hroutine hoff halign hsize hmask, ?_, State.onCc_barrier.trans State.onCore_barrier, rfl, rfl, rfl⟩
  rw [State.onCc_core, State.core_onCore_self]
  rfl

end XkeavoSync

/-- Settles O37: each instruction by what it does to its core. -/
theorem xkeavoInstructionsRun : Obligations.XkeavoInstructionsRun := by
  unfold Obligations.XkeavoInstructionsRun
  refine ⟨?pop, ?popWait, ?push, ?pushWait, ?illegal, ?kpwr, ?kprd, ?sum, ?noSum, ?kwait, ?ksignal, ?arrive, ?arriveWait⟩
  case pop =>
    intro s d c rd rs1 imm v a k x b rest hk hroutine ha halign hsize himm hrd hregs hbeat hlen hwf
    subst hk
    have hcore := State.core_onCore_self (s := s) d c (·.withX rs1 v)
    obtain ⟨hqueue, hcc⟩ := ((s.core d c).withX rs1 v).kpopped_spec x imm a rd b rest
    rw [← hcore, ← State.core_onCore_self d c (·.kpopped x imm a rd b rest)] at hqueue hcc
    have hback : ((((s.core d c).cc.setX rs1 v).write a b.data).setX rd b.sideband).bytes a 64 = b.data := by
      have hwrite := Ctl.bytes_write (m := (s.core d c).cc.setX rs1 v) (a := a) (bs := b.data) (by rw [Ctl.setX_frame]; exact hwf) (by omega)
      rw [hlen] at hwrite
      rw [Ctl.setX_bytes, hwrite]
    refine ⟨_, exec_kpop_of_beat hroutine ha halign hsize himm hbeat, hqueue, ?_, ?_, fun hne => ?_, rfl⟩
    · rw [hcc, hcore]
      exact hback
    · rw [hcc]
    · rw [hcc, hcore]
      refine (Ctl.x_setX_self (m := ((s.core d c).cc.setX rs1 v).write a b.data) hne ?_).trans ?_
      · have hlength : (((s.core d c).cc.setX rs1 v).write a b.data).xregs.length = 32 := (Ctl.setX_length rs1 v).trans hregs
        omega
      · unfold Beat.sideband
        cases b.last <;> rfl
  case popWait =>
    intro s d c rd rs1 imm v a k x hk hroutine ha halign hsize himm hempty
    subst hk
    have hcore := State.core_onCore_self (s := s) d c (·.withX rs1 v)
    obtain ⟨-, -, -, hfault⟩ := Core.routine_spec hroutine
    have hexec := exec_kpop_of_empty (rd := rd) hroutine ha halign hsize himm hempty
    refine ⟨fun hpending => ?_, fun hpending => ?_⟩
    · rw [if_pos hpending] at hexec
      refine ⟨_, hexec, ?_, ?_, rfl⟩
      · rw [State.onCc_core]
      · rw [State.onCc_core, hcore]
        rfl
    · rw [if_neg (Bool.eq_false_iff.1 hpending)] at hexec
      have hfault' : ((s.onCore d c (·.withX rs1 v)).core d c).faulted = none := by rw [hcore, Core.withX_faulted, hfault]
      obtain ⟨hsa, hsx, -⟩ := ((s.onCore d c (·.withX rs1 v)).core d c).stopped_spec (0x4300 + 1)
      refine ⟨_, hexec, ?_, ?_, ?_⟩
      all_goals rw [State.streamFault_core hfault']
      · exact Core.stopped_faulted hfault'
      · exact hsa
      · exact hsx
  case push =>
    intro s d c rs1 v a q side k x hk hroutine ha halign hsize hq hside htoken hroom
    subst hk
    have hcore := State.core_onCore_self (s := s) d c (·.withX rs1 v)
    obtain ⟨hqueue, hcc, -⟩ := ((s.core d c).withX rs1 v).kpushed_spec x q ((s.core d c).pushBeatOf a side)
    rw [← hcore, ← State.core_onCore_self d c (·.kpushed x q ((s.core d c).pushBeatOf a side))] at hqueue hcc
    refine ⟨_, exec_kpush_of_room hroutine ha halign hsize hq hside htoken hroom, ?_, ?_, fun hsource hout => ?_, rfl⟩
    · rw [hqueue, hcore]
      rfl
    · rw [hcc]
    · rw [hcc, hcore]
      have hqueues : ((s.core d c).withX rs1 v).ocallQueues = (s.core d c).ocallQueues := by
        unfold Core.ocallQueues
        rw [Core.withX_ocallJob]
      have hq1 : (s.core d c).ocallQueues.2.2.1 = true := congrArg Prod.fst hout
      have hq2 : (s.core d c).ocallQueues.2.2.2 = q := congrArg Prod.snd hout
      unfold Core.callPushes
      dsimp only
      rw [hqueues, hq1, hq2, if_neg (by simp [hsource])]
      simp [Core.pushBeatOf]
  case pushWait =>
    intro s d c rs1 v a q side k x hk hroutine ha halign hsize hq hside hfull
    subst hk
    refine ⟨_, exec_kpush_of_full hroutine ha halign hsize hq hside hfull, ?_, ?_, rfl⟩
    · rw [State.onCc_core]
    · rw [State.onCc_core, State.core_onCore_self]
      rfl
  case illegal =>
    intro s d c rd rs1 v q side k x hk hroutine h
    subst hk
    have hcore := State.core_onCore_self (s := s) d c (·.withX rs1 v)
    obtain ⟨hcall, -, -, hfault⟩ := Core.routine_spec hroutine
    have hcall' : ((s.onCore d c (·.withX rs1 v)).core d c).cc.call = some x := by
      rw [hcore, Core.withX, Ctl.setX_frame]
      exact hcall
    have hfault' : ((s.onCore d c (·.withX rs1 v)).core d c).faulted = none := by rw [hcore, Core.withX_faulted, hfault]
    obtain ⟨-, -, -, habort, -, -⟩ := ((s.onCore d c (·.withX rs1 v)).core d c).failed.stopped_spec 0x4601
    refine ⟨_, exec_kpush_of_illegal hroutine (by omega), ?_, ?_, ?_⟩
    all_goals rw [State.illegalX_core hcall' hfault']
    · exact Core.stopped_faulted hfault'
    · rfl
    · exact habort
  case kpwr =>
    intro s d c rs1 v n a w k hk ha hn hsize hw
    subst hk hw
    refine ⟨?_, fun hsa hsx => ?_, fun hin => ?_, fun r hr => ?_⟩
    · obtain ⟨t, hexec, hcore, hframe⟩ := exec_kpwr_of (s := s) (side := 1) ha hn hsize (by decide) (by rintro ⟨h, -⟩; exact absurd h (by decide))
      exact ⟨t, hexec, hcore, hframe⟩
    · obtain ⟨t, hexec, hcore, hframe⟩ := exec_kpwr_of (s := s) (side := 0) ha hn hsize (by decide) (by rintro ⟨h, -⟩; exact absurd h (by decide))
      exact ⟨t, hexec, hcore.trans (Core.kpwr_param_outside hsa hsx), hframe⟩
    · obtain ⟨t, hexec, hcore, hframe⟩ := exec_kpwr_of (s := s) (side := 0) ha hn hsize (by decide) (by rintro ⟨h, -⟩; exact absurd h (by decide))
      exact ⟨t, hexec, hcore.trans (Core.kpwr_param_inside hin), hframe⟩
    · obtain ⟨t, hexec, hcore, hframe⟩ := exec_kpwr_of (s := s) (side := 2) ha hn hsize (by decide)
        (by rintro ⟨-, h | h⟩; · exact absurd h (by decide)
            · rw [hr] at h; cases h)
      obtain ⟨hslot, hparams, hstrides⟩ := Core.kpwr_slot (k := (s.core d c).withX rs1 v) (v := leNat ((s.core d c).cc.bytes a 8)) (n := n) hr
      refine ⟨t, hexec, ?_, ?_, ?_, hframe⟩
      all_goals rw [hcore]
      · exact hslot
      · exact hparams
      · exact hstrides
  case kprd =>
    intro s d c rs1 imm v a w k hk ha hsize himm hword hw hwf
    subst hk
    exact exec_kprd_of ha hsize himm hword hw hwf
  case sum =>
    intro s d c rd v rest hfifo hrd hregs
    refine ⟨_, exec_ksumpop_eq rd, ?_, fun hne => ?_, rfl⟩
    · rw [State.onCc_core, Ctl.setX_fifo, hfifo]
      rfl
    · rw [State.onCc_core, hfifo]
      exact Ctl.x_setX_self hne (by rw [hregs]; exact hrd)
  case noSum =>
    intro s d c rd hfifo _
    refine ⟨_, exec_ksumpop_eq rd, ?_, ?_, rfl⟩
    · rw [State.onCc_core, Ctl.setX_fifo, hfifo]
      rfl
    · rw [State.onCc_core, hfifo]
      exact Ctl.x_setX_zero _ rd
  case kwait =>
    intro s d c rs1 imm v off k x hk hroutine hoff halign hsize himm
    subst hk
    refine ⟨_, exec_kwait_of hroutine hoff halign hsize himm, rfl, fun hfull => ?_, fun hfull => ?_⟩
    · rw [State.core_onCore_self, State.core_onCore_self, if_pos (by rw [Core.withX_isFull]; exact hfull)]
      exact Core.passCc_spec _ (by rw [Core.withX_isFull]; exact hfull)
    · rw [State.core_onCore_self, State.core_onCore_self, if_neg (by rw [Core.withX_isFull]; exact Bool.eq_false_iff.1 hfull)]
      exact ⟨rfl, rfl⟩
  case ksignal =>
    intro s d c rs1 v off k x hk hroutine hoff halign hsize hfull hhold
    subst hk
    have hcore := State.core_onCore_self (s := s) d c (·.withX rs1 v)
    have hword := State.signalWord_of_free (s := s.onCore d c (·.withX rs1 v)) (d := d) (c := c) (off := off)
      (by rw [hcore, Core.withX_isFull]; exact hfull) (by rw [hcore]; exact hhold)
      (by rw [hcore, Core.withX_ccHold]; exact Core.holdsOn_of_routine hroutine)
    refine ⟨_, (exec_ksignal_of hroutine hoff halign hsize).trans (congrArg Host.Outcome.next hword), ?_, rfl⟩
    rw [State.core_onCore_self]
    exact Core.isFull_setWord true
  case arrive =>
    intro s d c rs1 mask v off k x b hk hroutine hoff halign hsize hmask hpres hwf hb hlegal hfull hp hnew hagree
    subst hk hb
    obtain ⟨-, -, -, hfault⟩ := Core.routine_spec hroutine
    obtain ⟨u, hu, hcore, hbar, hpres', hmem, -⟩ := exec_kbarrier_steps hroutine hoff halign hsize hmask
    obtain ⟨harriving, hfulls, hfaults⟩ := (s.core d c).arriving_spec rs1 v off mask
    have hsize' : off + 64 ≤ spmSize := by
      unfold spmSize at *
      omega
    obtain ⟨t, harrive, hword, hrel, -, -⟩ := State.arrived_of_open (s := u) (off := off) (d := d) (c := c) (p := 3) (m := mask) (hpres'.trans hpres)
      (by rw [hmem]; exact hwf) hsize' halign (by decide) hmask (by rw [hbar]; exact hlegal)
      (by rw [hcore, Core.isFull_of_full_eq hfulls]; exact hfull) hp (by rw [hbar]; exact hnew) (by rw [hbar]; exact hagree)
    have hfault' : (t.core d c).faulted = none := by rw [hrel.faulted, hcore, hfaults, hfault]
    rw [State.ccArrives_eq (by rw [hcore]; exact harriving), harrive, State.ccGo_of_running hfault'] at hu
    refine ⟨_, hu, ?_, ?_⟩
    · rw [State.onCc_core]
    · rw [State.onCc_barrier, hword, hbar, Barrier.arrives_three]
  case arriveWait =>
    intro s d c rs1 mask v off k x hk hroutine hoff halign hsize hmask hlegal hfull
    subst hk
    obtain ⟨u, hu, hcore, hbar, -, hmem, hframe⟩ := exec_kbarrier_steps hroutine hoff halign hsize hmask
    obtain ⟨harriving, hfulls, -⟩ := (s.core d c).arriving_spec rs1 v off mask
    rw [State.ccArrives_eq (by rw [hcore]; exact harriving), State.arrive_of_full (by rw [hbar]; exact hlegal)
      (by rw [hcore, Core.isFull_of_full_eq hfulls]; exact hfull)] at hu
    exact ⟨u, hu, by rw [hcore]; exact harriving, hmem, hframe⟩

end Sys2Proof.Machine

/-! Control lists (R120, R242 to R244). -/

namespace Sys2Proof.Machine

open Sys2Proof Enc7

section Lists

variable {s t : State} {d c : Nat}

theorem State.listStep_of {op : Nat} {f : List Byte → State → State} (hmode : (s.core d c).cc.mode = 1) (hcall : (s.core d c).cc.call = none)
    (hfault : (s.core d c).faulted = none) (hop : enOp (s.core d c).cc.entryBytes = op) :
    s.listStep d c op f = f (s.core d c).cc.entryBytes s :=
  State.when_pos (by simp [hmode, hcall, hfault, hop])

/-- A task with a core noted as done, where the core runs it. -/
def Task.noteDone (task : Option Nat) (place : Nat) (t : Task) : Task := if task = some t.id then { t with done := insertNat place t.done } else t

theorem Task.noteDone_spec {task : Option Nat} {place : Nat} {x : Task} (h : task = some x.id) :
    (x.noteDone task place).id = x.id ∧ place ∈ (x.noteDone task place).done := by
  unfold Task.noteDone
  rw [if_pos h]
  exact ⟨rfl, mem_insertNat.2 (.inl rfl)⟩

theorem State.coreDone_tasks (s : State) (d c : Nat) : (s.coreDone d c).ldr.tasks = s.ldr.tasks.map (Task.noteDone (s.core d c).task (d * 64 + c)) := rfl

theorem State.coreDone_core (s : State) (d c d' c' : Nat) : (s.coreDone d c).core d' c' = s.core d' c' := rfl

theorem exec_done_of (hmode : (s.core d c).cc.mode = 1) (hcall : (s.core d c).cc.call = none) (hfault : (s.core d c).faulted = none)
    (hop : enOp (s.core d c).cc.entryBytes = 7) (hchecks : (s.core d c).checks = []) (hde0 : (s.core d c).de0 = []) (hde1 : (s.core d c).de1 = []) :
    exec (.done d c) s = .next ((s.onCc d c fun m => { m with mode := 0, counters := [] }).coreDone d c) :=
  congrArg Host.Outcome.next ((State.listStep_of hmode hcall hfault hop).trans (if_pos (by rw [hchecks, hde0, hde1]; rfl)))

theorem exec_branch_of (hmode : (s.core d c).cc.mode = 1) (hcall : (s.core d c).cc.call = none) (hfault : (s.core d c).faulted = none)
    (hop : enOp (s.core d c).cc.entryBytes = 2) : exec (.branch d c) s = .next (match (s.core d c).cc.fifo with
      | [] => s.ccFault d c 3 0 (s.core d c).cc.entry 0
      | sum :: rest => (s.onCc d c fun m => { m with
          fifo := rest
          entry := if branchTaken (enA (s.core d c).cc.entryBytes) (enC (s.core d c).cc.entryBytes) sum then enB (s.core d c).cc.entryBytes
          else m.entry + 1 }).settle d c) := by
  refine congrArg Host.Outcome.next ((State.listStep_of hmode hcall hfault hop).trans ?_)
  dsimp only
  cases (s.core d c).cc.fifo <;> rfl

/-- A dispatcher after a LOOP (R243). -/
def Ctl.looped (m : Ctl) (e : List Byte) : Ctl :=
  if (mfind m.counters (enA e)).getD (enC e - 1) = 0 then { m with counters := mdel m.counters (enA e), entry := m.entry + 1 }
  else { m with counters := mput m.counters (enA e) ((mfind m.counters (enA e)).getD (enC e - 1) - 1), entry := enB e }

theorem Ctl.looped_of_succ {m : Ctl} {e : List Byte} {v : Nat} (h : (mfind m.counters (enA e)).getD (enC e - 1) = v + 1) :
    m.looped e = { m with counters := mput m.counters (enA e) v, entry := enB e } := by
  unfold Ctl.looped
  rw [h]
  exact if_neg (Nat.succ_ne_zero v)

theorem Ctl.looped_of_zero {m : Ctl} {e : List Byte} (h : (mfind m.counters (enA e)).getD (enC e - 1) = 0) :
    m.looped e = { m with counters := mdel m.counters (enA e), entry := m.entry + 1 } := if_pos h

theorem exec_loop_of (hmode : (s.core d c).cc.mode = 1) (hcall : (s.core d c).cc.call = none) (hfault : (s.core d c).faulted = none)
    (hop : enOp (s.core d c).cc.entryBytes = 4) : exec (.loop d c) s = .next (s.onCc d c (·.looped (s.core d c).cc.entryBytes)) :=
  congrArg Host.Outcome.next (State.listStep_of hmode hcall hfault hop)

/-! ### Conditions of BRANCH (R243) -/

theorem branchTaken_compare (c v : Nat) : branchTaken 2 c v = decide (v % 2 ^ 32 = c) ∧ branchTaken 3 c v = decide (v % 2 ^ 32 ≠ c) ∧
    branchTaken 4 c v = decide (v % 2 ^ 32 < c) ∧ branchTaken 5 c v = decide (c ≤ v % 2 ^ 32) := by
  have hlow : bits v 31 0 = v % 2 ^ 32 := by rw [bits_eq, Nat.pow_zero, Nat.div_one]
  unfold branchTaken
  dsimp only
  rw [hlow]
  exact ⟨rfl, rfl, rfl, rfl⟩

theorem branchTaken_flags (c v : Nat) : branchTaken 1 c v = !branchTaken 0 c v := by
  unfold branchTaken
  simp

theorem branchTaken_of_unused {a : Nat} (h : 8 ≤ a) (c v : Nat) : branchTaken a c v = false := by
  obtain ⟨n, rfl⟩ := Nat.exists_eq_add_of_le h
  rw [Nat.add_comm]
  rfl

end Lists

/-- Settles O38. -/
theorem controlListsRun : Obligations.ControlListsRun := by
  unfold Obligations.ControlListsRun
  refine ⟨?entries, fun a c v => ?conditions⟩
  case entries =>
    intro s d c k e hk he hmode hcall hfault
    subst hk he
    refine ⟨fun hop => ?run, fun hop v rest hfifo => ?branch, fun hop hfifo => ?empty, fun hop => ?jump, fun hop => ?loop, fun hop => ?call,
      fun hop hsa hsx => ?setp, fun hop hchecks hde0 hde1 => ?done⟩
    case run =>
      refine ⟨_, congrArg Host.Outcome.next (State.listStep_of hmode hcall hfault hop), ?_, ?_, ?_, rfl⟩
      all_goals rw [State.core_onCore_self]
    case branch =>
      rw [exec_branch_of hmode hcall hfault hop, hfifo]
    case empty =>
      rw [exec_branch_of hmode hcall hfault hop, hfifo]
    case jump => exact congrArg Host.Outcome.next (State.listStep_of hmode hcall hfault hop)
    case loop =>
      refine ⟨_, exec_loop_of hmode hcall hfault hop, rfl, fun v hv => ?_, fun hv => ?_⟩
      all_goals rw [State.onCc_core]
      · exact Ctl.looped_of_succ hv
      · exact Ctl.looped_of_zero hv
    case call => exact congrArg Host.Outcome.next (State.listStep_of hmode hcall hfault hop)
    case setp =>
      refine congrArg Host.Outcome.next ((State.listStep_of hmode hcall hfault hop).trans (congrArg (fun k => { s with cores := mput s.cores (d * 64 + c) k }) ?_))
      dsimp only
      rw [Core.kpwr_param_outside hsa hsx]
      rfl
    case done =>
      refine ⟨_, exec_done_of hmode hcall hfault hop hchecks hde0 hde1, ?_, rfl, fun x hx htask => ?_⟩
      · rw [State.coreDone_core, State.onCc_core]
      · have htask' : ((s.onCc d c fun m => { m with mode := 0, counters := [] }).core d c).task = some x.id := by
          rw [State.onCc_core]
          exact htask
        obtain ⟨hid, hdone⟩ := Task.noteDone_spec (place := d * 64 + c) htask'
        rw [State.coreDone_tasks]
        exact ⟨_, List.mem_map_of_mem hx, hid, hdone⟩
  case conditions =>
    obtain ⟨h2, h3, h4, h5⟩ := branchTaken_compare c v
    refine ⟨h2, h4, ?_, branchTaken_flags c v, ?_, fun h => branchTaken_of_unused h c v⟩
    · rw [h5, h4, ← decide_not]
      exact decide_eq_decide.2 Nat.not_lt.symm
    · rw [h3, h2, ← decide_not]

end Sys2Proof.Machine

/-! The general routines of the control core (R245, R247, R248, R250, R252). -/

namespace Sys2Proof.Machine

open Sys2Proof Enc7

section Numbers

/-! ### The order of FP32 values -/

/-- A value as an extended real; a NaN has none and stands at 0. -/
noncomputable def numKey : Num → EReal
  | .nan => 0
  | .inf neg => if neg then ⊥ else ⊤
  | .fin neg m e => ((Num.signed neg m : ℝ) * (2 : ℝ) ^ e : ℝ)

theorem signed_scale (neg : Bool) (m : Nat) {e g : Int} (h : g ≤ e) :
    (Num.signed neg m : ℝ) * (2 : ℝ) ^ e = (Num.signed neg (m * 2 ^ (e - g).toNat) : ℝ) * (2 : ℝ) ^ g := by
  have hsplit : (2 : ℝ) ^ e = (2 : ℝ) ^ (e - g).toNat * (2 : ℝ) ^ g := by
    rw [← zpow_natCast, ← zpow_add₀ (by norm_num), Int.toNat_of_nonneg (by omega)]
    congr 1
    omega
  rw [hsplit]
  cases neg <;> simp [Num.signed] <;> ring

theorem num_lt_iff_key {x y : Num} (hx : x.isNan = false) (hy : y.isNan = false) : x.lt y = true ↔ numKey x < numKey y := by
  cases x with
  | nan => cases hx
  | inf a =>
    cases y with
    | nan => cases hy
    | inf b => cases a <;> cases b <;> simp [Num.lt, numKey]
    | fin b n f => cases a <;> simp [Num.lt, numKey, EReal.bot_lt_coe, -EReal.coe_mul]
  | fin a m e =>
    cases y with
    | nan => cases hy
    | inf b => cases b <;> simp [Num.lt, numKey, EReal.coe_lt_top, -EReal.coe_mul]
    | fin b n f =>
      have hpos : (0 : ℝ) < (2 : ℝ) ^ min e f := zpow_pos (by norm_num) _
      simp only [Num.lt, numKey, decide_eq_true_eq]
      rw [signed_scale a m (min_le_left e f), signed_scale b n (min_le_right e f), EReal.coe_lt_coe_iff, mul_lt_mul_iff_left₀ hpos, Int.cast_lt]

/-- What `argBest` finds, where the comparison is that of a key: the first of the greatest. -/
theorem argBest_spec {β : Type} [LinearOrder β] {key : Nat → β} {lt : Nat → Nat → Bool} {ws : List Nat}
    (hlt : ∀ a ∈ ws, ∀ b ∈ ws, (lt a b = true ↔ key a < key b)) (hne : ws ≠ []) :
    ∃ v, ws[argBest lt ws]? = some v ∧ (∀ w ∈ ws, key w ≤ key v) ∧ ∀ (j w : Nat), j < argBest lt ws → ws[j]? = some w → key w < key v := by
  induction ws with
  | nil => exact absurd rfl hne
  | cons x xs ih =>
    rw [argBest]
    cases xs with
    | nil => exact ⟨x, rfl, by simp, fun j w hj => absurd hj (Nat.not_lt_zero j)⟩
    | cons y ys =>
      obtain ⟨v, hv, hmax, hfirst⟩ := ih (fun a ha b hb => hlt a (List.mem_cons_of_mem x ha) b (List.mem_cons_of_mem x hb)) (List.cons_ne_nil y ys)
      have hmem : v ∈ y :: ys := List.mem_of_getElem? hv
      rw [hv]
      dsimp only
      by_cases hless : lt x v = true
      · have hkey := (hlt x List.mem_cons_self v (List.mem_cons_of_mem x hmem)).1 hless
        rw [if_pos hless]
        refine ⟨v, hv, fun w hw => ?_, fun j w hj hw => ?_⟩
        · rcases List.mem_cons.1 hw with rfl | hw
          · exact hkey.le
          · exact hmax w hw
        · cases j with
          | zero =>
            obtain rfl : x = w := by simpa using hw
            exact hkey
          | succ j => exact hfirst j w (by omega) hw
      · have hkey := not_lt.1 fun h => hless ((hlt x List.mem_cons_self v (List.mem_cons_of_mem x hmem)).2 h)
        rw [if_neg hless]
        refine ⟨x, rfl, fun w hw => ?_, fun j w hj => absurd hj (Nat.not_lt_zero j)⟩
        rcases List.mem_cons.1 hw with rfl | hw
        · exact le_rfl
        · exact (hmax w hw).trans hkey

end Numbers

section Rows

/-! ### Beats and rows -/

theorem toBeats_spec (n : Nat) {bs : List Byte} {fuel : Nat} (hlen : bs.length = 64 * n) (hfuel : n < fuel) :
    (toBeats bs fuel).length = n ∧ ∀ b ∈ toBeats bs fuel, b.length = 64 := by
  induction n generalizing bs fuel with
  | zero =>
    obtain rfl : bs = [] := List.length_eq_zero_iff.1 hlen
    cases fuel <;> simp [toBeats]
  | succ n ih =>
    cases fuel with
    | zero => omega
    | succ fuel =>
      have hne : bs.isEmpty = false := by
        cases bs with
        | nil => simp at hlen
        | cons => rfl
      obtain ⟨hlength, hbeats⟩ := ih (bs := bs.drop 64) (fuel := fuel) (by rw [List.length_drop]; omega) (by omega)
      rw [toBeats, hne]
      refine ⟨by rw [if_neg Bool.false_ne_true, List.length_cons, hlength], fun b hb => ?_⟩
      rw [if_neg Bool.false_ne_true] at hb
      rcases List.mem_cons.1 hb with rfl | hb
      · unfold padTo
        rw [List.length_take, List.length_append, List.length_replicate]
        omega
      · exact hbeats b hb

theorem rowsOf_flatten {n : Nat} (hn : 0 < n) {fuel : Nat} {ws : List Nat} (h : ws.length ≤ fuel) : (rowsOf n fuel ws).flatten = ws := by
  induction fuel generalizing ws with
  | zero =>
    obtain rfl : ws = [] := List.length_eq_zero_iff.1 (by omega)
    rfl
  | succ fuel ih =>
    rw [rowsOf]
    cases ws with
    | nil => rfl
    | cons w ws =>
      rw [if_neg (by simp), List.flatten_cons, ih (by rw [List.length_drop]; simp only [List.length_cons] at *; omega), List.take_append_drop]

theorem normRowOf_length (layer : Bool) (eps : Nat) (row : List Nat) : (normRowOf layer eps row).length = row.length := by
  unfold normRowOf
  dsimp only
  split
  · simp
  · cases layer <;> simp

theorem normRowOf_of_nan {layer : Bool} {eps : Nat} {row : List Nat} (h : ∃ w ∈ row, (f32 w).isNan = true) :
    normRowOf layer eps row = List.replicate row.length nan32 := by
  obtain ⟨w, hw, hnan⟩ := h
  unfold normRowOf
  dsimp only
  rw [if_pos (List.any_eq_true.2 ⟨f32 w, List.mem_map_of_mem hw, hnan⟩), List.map_const']

theorem length_flatMap_of_length {α β : Type} {f : List α → List β} (hf : ∀ l, (f l).length = l.length) (ls : List (List α)) :
    (ls.flatMap f).length = ls.flatten.length := by
  induction ls with
  | nil => rfl
  | cons l ls ih => rw [List.flatMap_cons, List.flatten_cons, List.length_append, List.length_append, ih, hf]

theorem length_flatMap_leBytes (n : Nat) (ws : List Nat) : (ws.flatMap (leBytes n)).length = n * ws.length := by
  induction ws with
  | nil => rfl
  | cons w ws ih => rw [List.flatMap_cons, List.length_append, ih, length_leBytes, List.length_cons, Nat.mul_succ, Nat.add_comm]

end Rows

end Sys2Proof.Machine

/-! Settling O39: routines and interrupts of the control core (R245, R247, R248, R250, R252). -/

namespace Sys2Proof.Machine

open Sys2Proof Enc7

section Routines

/-! ### Routines by their ID -/

variable {s : State} {d c id : Nat} {x : Call}

theorem State.inRoutine_of {f : Call → State → State} (hroutine : (s.core d c).routine = some x) (hid : x.id = id) : s.inRoutine d c id f = f x s := by
  unfold State.inRoutine
  rw [hroutine]
  exact if_pos hid

/-- What a token routine does with its logits (R247). -/
theorem State.tokenRoutine_of {pick : Call → State → List Nat → Nat × State} {ws : List Nat} (hroutine : (s.core d c).routine = some x) (hid : x.id = id)
    (hinput : (s.core d c).ocallInput = some ws) : s.tokenRoutine d c id pick =
      if ws.any f32IsNan then s.routineEnds d c 1
      else if ws.all (· = negInf32) then s.routinePushes d c (laneZero 0xFFFFFFFF)
      else (pick x s ws).2.routinePushes d c (laneZero (pick x s ws).1) := by
  unfold State.tokenRoutine
  rw [State.inRoutine_of hroutine hid]
  dsimp only
  rw [hinput]

/-- Logits without a NaN, one of them unmasked: the routine pushes the index that it picks. -/
theorem State.tokenRoutine_picks {pick : Call → State → List Nat → Nat × State} {ws : List Nat} (hroutine : (s.core d c).routine = some x) (hid : x.id = id)
    (hinput : (s.core d c).ocallInput = some ws) (hnan : ∀ w ∈ ws, f32IsNan w = false) (hopen : ∃ w ∈ ws, w ≠ negInf32) :
    s.tokenRoutine d c id pick = (pick x s ws).2.routinePushes d c (laneZero (pick x s ws).1) := by
  obtain ⟨w, hw, hw'⟩ := hopen
  rw [State.tokenRoutine_of hroutine hid hinput, if_neg, if_neg]
  · simpa using ⟨w, hw, hw'⟩
  · simpa using hnan

/-- A NaN among the logits ends either token routine with status 1; logits that are all masked push no index. -/
theorem State.tokenRoutine_fails {pick : Call → State → List Nat → Nat × State} {ws : List Nat} (hroutine : (s.core d c).routine = some x) (hid : x.id = id)
    (hinput : (s.core d c).ocallInput = some ws) : ((∃ w ∈ ws, f32IsNan w = true) → s.tokenRoutine d c id pick = s.routineEnds d c 1) ∧
      ((∀ w ∈ ws, w = negInf32) → s.tokenRoutine d c id pick = s.routinePushes d c (laneZero 0xFFFFFFFF)) := by
  rw [State.tokenRoutine_of hroutine hid hinput]
  refine ⟨fun h => if_pos (List.any_eq_true.2 h), fun h => ?_⟩
  rw [if_neg, if_pos (List.all_eq_true.2 fun w hw => decide_eq_true (h w hw))]
  have hmasked : f32IsNan negInf32 = false := by decide +kernel
  rw [List.any_eq_true]
  rintro ⟨w, hw, hnan⟩
  rw [h w hw, hmasked] at hnan
  cases hnan

end Routines

section Picks

/-! ### The index that SAMPLE picks (R247) -/

theorem getElem?_of_mem_indicesOf {α : Type} {p : α → Bool} {l : List α} {i : Nat} (h : i ∈ indicesOf p l) : ∃ a, l[i]? = some a ∧ p a = true := by
  unfold indicesOf at h
  obtain ⟨⟨a, j⟩, hmem, rfl⟩ := List.mem_map.1 h
  obtain ⟨hmem, hp⟩ := List.mem_filter.1 hmem
  exact ⟨a, List.mem_zipIdx_iff_getElem?.1 hmem, hp⟩

theorem indicesOf_ne_nil {α : Type} {p : α → Bool} {l : List α} (h : ∃ a ∈ l, p a = true) : indicesOf p l ≠ [] := by
  obtain ⟨a, ha, hp⟩ := h
  obtain ⟨i, hi⟩ := List.mem_iff_getElem?.1 ha
  exact List.ne_nil_of_mem (List.mem_map.2 ⟨(a, i), List.mem_filter.2 ⟨List.mem_zipIdx_iff_getElem?.2 hi, hp⟩, rfl⟩)

/-- An index taken modulo the number of unmasked logits is that of an unmasked one. -/
theorem getElem?_indicesOf_mod {p : Nat → Bool} {ws : List Nat} (h : ∃ w ∈ ws, p w = true) (n : Nat) :
    ∃ w, ws[((indicesOf p ws)[n % (indicesOf p ws).length]?).getD 0]? = some w ∧ p w = true := by
  have hlen : n % (indicesOf p ws).length < (indicesOf p ws).length := Nat.mod_lt _ (List.length_pos_iff.2 (indicesOf_ne_nil h))
  rw [List.getElem?_eq_getElem hlen]
  exact getElem?_of_mem_indicesOf (List.getElem_mem hlen)

end Picks

section Ends

/-! ### Ends of routines and interrupts -/

variable {s : State} {d c : Nat} {x : Call}

theorem State.routineEnds_ocall {st : Nat} (hcall : (s.core d c).cc.call = some x) (hsource : x.source = 0) :
    s.routineEnds d c st = s.onCc d c fun m => { m with call := some { x with status := some st } } := by
  unfold State.routineEnds
  rw [hcall]
  exact if_pos hsource

theorem Core.dispatch_of_patches {k : Core} (h : k.patchDue.isSome = true) : k.dispatch = k := if_pos h

theorem State.onCore_congr {f g : Core → Core} (h : f (s.core d c) = g (s.core d c)) : s.onCore d c f = s.onCore d c g := by
  unfold State.onCore
  rw [h]

/-- A CALL that ends lets the control list go on (R243); with patches due the dispatcher takes nothing else. -/
theorem State.routineEnds_call (hcall : (s.core d c).cc.call = some x) (hsource : x.source = 1) (hpatch : (s.core d c).patchDue.isSome = true) :
    s.routineEnds d c 0 = s.onCc d c fun m => { m with call := none, entry := m.entry + 1 } := by
  unfold State.routineEnds
  rw [hcall]
  dsimp only
  rw [if_neg (by rw [hsource]; decide), if_pos rfl, hsource]
  unfold State.onCc
  exact State.onCore_congr (Core.dispatch_of_patches hpatch)

theorem State.post_ends {dd kk slot : Nat} {last : Bool} {a : Nat} {b : List Byte} {u : State} (hb : b = (s.core d c).cc.bytes a 32)
    (hpend : s.writePending (.cc d c) = false) (hkind : field b 0x0C 1 = 1) (hdd : dd = field b 0x0E 1 / 4) (hkk : kk = field b 0x0E 1 % 4)
    (hslot : slot = field b 0x0D 1) (hpost : s.post (senderCc d c) dd kk slot (field b 0 8) (field b 8 4) = (u, .ok)) :
    s.postTry d c a last = u.postEnds d c a 0 := by
  unfold State.postTry
  dsimp only
  rw [hpend, ← hb, hkind]
  rw [if_neg Bool.false_ne_true, if_neg (by decide), if_pos rfl]
  dsimp only
  rw [← hdd, ← hkk, ← hslot, hpost]

/-- A core to which the status of a failed transfer of its own is due (R245). -/
def Core.dmaNoted (k : Core) (st : Nat) : Core := { k with cc := { k.cc with dmaDue := some (k.cc.dmaDue.getD st) } }

/-- A core with a failed transfer of its own. -/
def Core.dmaFailed (k : Core) (st : Nat) : Core := (k.dmaNoted st).dispatch

theorem Core.takes_dma {k : Core} (hdue : k.cc.dmaDue.isSome = true) : k.takes 18 false = k.cc.call.isNone := by
  unfold Core.takes Core.mie Core.mip
  rw [bit_eq_testBit, bit_eq_testBit, testBit_ofBitSet, testBit_ofBitSet, hdue]
  cases k.cc.call <;> simp

theorem Core.dispatch_of_dma {k : Core} (hpatch : k.patchDue = none) (hdue : k.cc.due = none) (hdma : k.cc.dmaDue.isSome = true) : k.dispatch =
    if k.cc.call.isNone then { k with cc := { (k.cc.took 18) with dmaStatus := k.cc.dmaDue, dmaDue := none } } else k := by
  unfold Core.dispatch
  rw [hpatch, hdue, Core.takes_dma hdma]
  rfl

theorem Core.dmaFailed_cc {k : Core} {st : Nat} (hpatch : k.patchDue = none) (hdue : k.cc.due = none) (hdma : k.cc.dmaDue = none) :
    (k.cc.call = none → (k.dmaFailed st).cc = { k.cc with dmaStatus := some st, mcause := 2 ^ 31 + 18 }) ∧
      (k.cc.call.isSome = true → (k.dmaFailed st).cc = { k.cc with dmaDue := some st }) := by
  unfold Core.dmaFailed
  rw [Core.dispatch_of_dma (k := k.dmaNoted st) hpatch hdue rfl]
  have hnoted : (k.dmaNoted st).cc.dmaDue = some st := by
    unfold Core.dmaNoted
    rw [hdma]
    rfl
  have hcall : (k.dmaNoted st).cc.call = k.cc.call := rfl
  rw [hcall]
  refine ⟨fun h => ?_, fun h => ?_⟩
  · rw [if_pos (Option.isNone_iff_eq_none.2 h), hnoted, ← hdma]
    rfl
  · rw [if_neg (by simp [Option.isSome_iff_ne_none.1 h])]
    change ({ k.cc with dmaDue := some (k.cc.dmaDue.getD st) } : Ctl) = _
    rw [hdma]
    rfl

/-- A core whose control core takes the interrupt of an abort. -/
def Core.aborted (k : Core) : Core :=
  { k.abortCc with cc := k.abortCc.cc.took (if k.takes 16 false then 16 else if k.takes 17 false then 17 else 23) }

/-- A stream fault's abort shows as the stream fault's interrupt (R245). -/
theorem Core.takes_streamFault {k : Core} {f : Nat} (hdue : k.cc.abortDue = true) (hfault : k.faulted = some f) (hf : f / 256 = 0x43) : k.takes 16 false = true := by
  unfold Core.takes Core.mie Core.mip
  rw [bit_eq_testBit, bit_eq_testBit, testBit_ofBitSet, testBit_ofBitSet, hdue, hfault]
  simp [hf]

theorem State.kvUnwait_core (s : State) (d c d' c' : Nat) : (s.kvUnwait d c).core d' c' = s.core d' c' :=
  congrArg (mget freshCore · (d' * 64 + c')) ((State.kvUnwait_keeps (F := oneOf [.mem, .kv]) .rfl rfl rfl).frame .cores rfl)

theorem exec_ccAbortInterrupt_of (hdue : (s.core d c).cc.abortDue = true) :
    exec (.ccAbortInterrupt d c) s = .next ((s.kvUnwait d c).onCore d c (·.aborted)) := congrArg Host.Outcome.next (State.when_pos hdue)

end Ends

/-- Settles O39: each routine's result follows from its operands, an OCALL's end keeps its status and a CALL's lets the list go on, and the interrupts
empty what they abandon. -/
theorem routinesEndWithTheirStatus : Obligations.RoutinesEndWithTheirStatus := by
  refine ⟨?_, ?_, ?_, ?_, ?_, ?_, ?_, ?_, ?_, ?_, ?_, ?_, ?_⟩
  · intro s d c x hroutine hid hsource
    exact congrArg Host.Outcome.next ((State.inRoutine_of hroutine hid).trans (if_neg hsource))
  · intro s d c x hroutine hid hsource
    exact congrArg Host.Outcome.next ((State.inRoutine_of hroutine hid).trans (if_pos hsource))
  · intro s d c x hroutine hid
    exact congrArg Host.Outcome.next (State.inRoutine_of hroutine hid)
  · intro p hp s d c x ws hroutine hid hinput
    rcases List.mem_cons.1 hp with rfl | hp
    · obtain ⟨hnan, hmasked⟩ := State.tokenRoutine_fails hroutine hid hinput
      exact ⟨fun h => congrArg Host.Outcome.next (hnan h), fun h => congrArg Host.Outcome.next (hmasked h)⟩
    · obtain rfl := List.mem_singleton.1 hp
      obtain ⟨hnan, hmasked⟩ := State.tokenRoutine_fails hroutine hid hinput
      exact ⟨fun h => congrArg Host.Outcome.next (hnan h), fun h => congrArg Host.Outcome.next (hmasked h)⟩
  · intro s d c x ws hroutine hid hinput hnan hopen
    obtain ⟨w, hw, hunmasked⟩ := hopen
    have hlt : ∀ a ∈ ws, ∀ b ∈ ws, ((f32 a).lt (f32 b) = true ↔ numKey (f32 a) < numKey (f32 b)) := fun a ha b hb => num_lt_iff_key (hnan a ha) (hnan b hb)
    obtain ⟨v, hv, hmax, hfirst⟩ := argBest_spec (key := fun a => numKey (f32 a)) hlt (List.ne_nil_of_mem hw)
    refine ⟨_, congrArg Host.Outcome.next (State.tokenRoutine_picks hroutine hid hinput hnan ⟨w, hw, hunmasked⟩), (List.getElem?_eq_some_iff.1 hv).1, ?_, ?_⟩
    · intro j v' w' hv' hw'
      obtain rfl : v = v' := Option.some.inj (hv.symm.trans hv')
      exact Bool.eq_false_iff.2 fun h => absurd ((hlt _ (List.mem_of_getElem? hv) _ (List.mem_of_getElem? hw')).1 h) (not_lt.2 (hmax _ (List.mem_of_getElem? hw')))
    · intro j v' w' hj hv' hw'
      obtain rfl : v = v' := Option.some.inj (hv.symm.trans hv')
      exact (hlt _ (List.mem_of_getElem? hw') _ (List.mem_of_getElem? hv)).2 (hfirst j w' hj hw')
  · intro s d c x ws hroutine hid hinput hnan hopen
    have hidx := getElem?_indicesOf_mod (p := fun w => decide (w ≠ negInf32)) (ws := ws) (by simpa using hopen)
      (Config.sampleIndex ws ((s.core d c).cc.bytes x.arg 64) (s.core d c).cc.seed s.fresh.1)
    obtain ⟨w, hw, hne⟩ := hidx
    exact ⟨_, w, congrArg Host.Outcome.next (State.tokenRoutine_picks hroutine hid hinput hnan hopen), hw, of_decide_eq_true hne⟩
  · intro p hp s d c n x ws hroutine hid hinput hlen
    have hnorm : s.normFallback d c p.2 = s.routinePushes d c (toBeats (((rowsOf (Config.normRow ((s.core d c).cc.bytes x.arg 64) + 1) ws.length ws).flatMap
        (normRowOf (p.2 = 0x021) (Config.normEps ((s.core d c).cc.bytes x.arg 64) % 2 ^ 32))).flatMap (leBytes 4)) (ws.length / 16 + 1)) := by
      unfold State.normFallback
      rw [State.inRoutine_of hroutine hid]
      dsimp only
      rw [hinput]
    have hexec : exec (p.1 d c) s = .next (s.normFallback d c p.2) := by
      rcases List.mem_cons.1 hp with rfl | hp
      · rfl
      · obtain rfl := List.mem_singleton.1 hp
        rfl
    rw [hexec, hnorm]
    refine ⟨_, rfl, toBeats_spec n ?_ (by omega)⟩
    rw [length_flatMap_leBytes, length_flatMap_of_length (normRowOf_length _ _), rowsOf_flatten (Nat.succ_pos _) le_rfl, hlen]
    omega
  · exact fun layer eps row => ⟨normRowOf_length layer eps row, normRowOf_of_nan⟩
  · intro s d c st x hcall
    refine ⟨State.routineEnds_ocall hcall, ?_⟩
    rintro hsource rfl hpatch
    exact State.routineEnds_call hcall hsource hpatch
  · intro s d c x hroutine hid hbad
    exact congrArg Host.Outcome.next ((State.inRoutine_of hroutine hid).trans (if_pos hbad))
  · intro s d c dd kk slot x b u hroutine hid hb hok harg hpend hkind hdd hkk hslot hpost
    refine ⟨fun htries => ?_, fun last htries => ?_⟩
    · refine congrArg Host.Outcome.next ((State.inRoutine_of hroutine hid).trans ?_)
      rw [if_neg (by rw [← hb, hok]; simp [harg]), if_pos htries]
      exact State.post_ends hb hpend hkind hdd hkk hslot hpost
    · refine congrArg Host.Outcome.next ((State.inRoutine_of hroutine hid).trans ?_)
      rw [if_neg htries]
      exact State.post_ends hb hpend hkind hdd hkk hslot hpost
  · rintro s d c st de1 k rfl hst hpatch hdue hdma
    refine ⟨s.onCore d c (·.dmaFailed st), congrArg Host.Outcome.next (State.whenP_pos hst), rfl, ?_⟩
    rw [State.core_onCore_self]
    exact Core.dmaFailed_cc hpatch hdue hdma
  · intro s d c hdue
    refine ⟨_, exec_ccAbortInterrupt_of hdue, ?_⟩
    have hkeeps := State.kvUnwait_keeps (d := d) (c := c) (F := oneOf [.mem, .kv]) (.rfl (s := s)) rfl rfl
    rw [State.core_onCore_self, State.kvUnwait_core]
    refine ⟨rfl, rfl, rfl, rfl, fun f hfault hf => ?_, hkeeps.frame .regs rfl, hkeeps.frame .sent rfl⟩
    change 2 ^ 31 + (if (s.core d c).takes 16 false then 16 else _) = _
    rw [if_pos (Core.takes_streamFault hdue hfault hf)]

end Sys2Proof.Machine

/-! The bytes of memory that two states share, and the moves of transfers (R266 to R269). -/

namespace Sys2Proof.Machine

open Sys2Proof Enc7

/-- Two states whose bytes and poison stand alike and are placed alike. -/
structure State.SameBytes (s t : State) : Prop where
  cells : t.mem.cells = s.mem.cells
  poison : t.mem.poison = s.mem.poison
  fuses : t.fuses = s.fuses
  lost : ∀ k, (t.stack k).lost = (s.stack k).lost

namespace State.SameBytes

variable {s t : State}

theorem rfl : s.SameBytes s := ⟨.refl _, .refl _, .refl _, fun _ => .refl _⟩

theorem trans {u : State} (a : s.SameBytes t) (b : t.SameBytes u) : s.SameBytes u :=
  ⟨b.cells.trans a.cells, b.poison.trans a.poison, b.fuses.trans a.fuses, fun k => (b.lost k).trans (a.lost k)⟩

theorem of_sameMemory (h : s.SameMemory t) : s.SameBytes t := ⟨congrArg Memory.cells h.mem, congrArg Memory.poison h.mem, h.fuses, h.lost⟩

theorem resolve (h : s.SameBytes t) (a : Nat) : t.resolve a = s.resolve a := by
  unfold State.resolve State.spmAt State.corePresent
  rw [h.fuses]

theorem noStorage (h : s.SameBytes t) (p : Nat) : t.noStorage p = s.noStorage p := by
  rw [State.noStorage, h.lost, State.noStorage]

theorem byteAt (h : s.SameBytes t) (l : Loc) : t.byteAt l = s.byteAt l := by
  unfold State.byteAt
  rw [h.cells]

theorem readBytes (h : s.SameBytes t) (a n : Nat) : t.readBytes a n = s.readBytes a n := by
  unfold State.readBytes State.readByte
  simp only [h.resolve, h.byteAt]

theorem readNat (h : s.SameBytes t) (a n : Nat) : t.readNat a n = s.readNat a n := by
  rw [State.readNat, h.readBytes, State.readNat]

theorem poisonedAt (h : s.SameBytes t) (a : Nat) : t.poisonedAt a = s.poisonedAt a := by
  unfold State.poisonedAt State.linePoisoned
  simp only [h.resolve, h.noStorage, h.poison]

theorem anyPoison (h : s.SameBytes t) (a n : Nat) : t.anyPoison a n = s.anyPoison a n := by
  unfold State.anyPoison
  simp only [h.poisonedAt]

theorem writePiece (h : s.SameBytes t) (a : Nat) (data : List Byte) (poison : Bool) :
    (s.writePiece a data poison).SameBytes (t.writePiece a data poison) := by
  unfold State.writePiece State.writeLine
  simp only [h.resolve, h.noStorage]
  split
  · split
    · exact h
    · refine ⟨?_, ?_, h.fuses, h.lost⟩
      · exact congrArg (writeCells · _ data) h.cells
      · dsimp only [State.onMem]
        rw [h.poison]
  · exact ⟨congrArg (writeCells · _ data) h.cells, h.poison, h.fuses, h.lost⟩
  · exact h

theorem writePieces (h : s.SameBytes t) (poison : Bool) (ps : List (Nat × Nat)) (data : List Byte) :
    (s.writePieces poison ps data).SameBytes (t.writePieces poison ps data) := by
  induction ps generalizing s t data with
  | nil => exact h
  | cons p ps ih => exact ih (h.writePiece ..) _

theorem writeBytes (h : s.SameBytes t) (a : Nat) (data : List Byte) : (s.writeBytes a data).SameBytes (t.writeBytes a data) :=
  h.writePieces ..

theorem putPieces (h : s.SameBytes t) (ps : List (Nat × Nat)) (data : List Byte) : (s.putPieces ps data).SameBytes (t.putPieces ps data) := by
  induction ps generalizing s t data with
  | nil => exact h
  | cons p ps ih => exact ih (h.writeBytes ..) _

/-! ### What a transfer reads of memory -/

variable (x : Xfer)

theorem gatherIndex (h : s.SameBytes t) : t.gatherIndex x = s.gatherIndex x := by
  funext j
  unfold State.gatherIndex
  rw [h.readNat]

theorem gatherStop (h : s.SameBytes t) : t.gatherStop x = s.gatherStop x := by
  unfold State.gatherStop State.indexPoisoned
  simp only [h.anyPoison, h.gatherIndex]

theorem gatherServed (h : s.SameBytes t) : t.gatherServed x = s.gatherServed x := by rw [State.gatherServed, h.gatherStop, State.gatherServed]

theorem moves (h : s.SameBytes t) : t.moves x = s.moves x := by
  unfold State.moves
  rw [h.gatherServed, h.gatherIndex]

end State.SameBytes

section Enqueue

variable {s : State}

/-- The requests of served lines leave bytes and poison. -/
theorem State.enqueue_sameBytes (ag : Agent) (write : Bool) (ps : List (Nat × Nat)) : s.SameBytes (s.enqueue ag write ps) := by
  have hkeeps : Keeps (oneOf [.mem, .banks]) s (s.enqueue ag write ps) := State.enqueue_keeps .rfl rfl rfl
  obtain ⟨hcells, hpoison, -, -, -⟩ := s.enqueue_served ag write ps
  exact ⟨hcells, hpoison, hkeeps.frame .fuses rfl, fun k => congrArg Stack.lost (State.stack_of_stackMap_eq (hkeeps.frame .stackMap rfl) k)⟩

theorem State.enqueue_cores (ag : Agent) (write : Bool) (ps : List (Nat × Nat)) : (s.enqueue ag write ps).cores = s.cores :=
  (State.enqueue_keeps (F := oneOf [.mem, .banks]) .rfl rfl rfl).frame .cores rfl

theorem State.putPieces_cores (ps : List (Nat × Nat)) (data : List Byte) : (s.putPieces ps data).cores = s.cores :=
  (State.putPieces_keeps (F := oneOf [.mem]) .rfl rfl).frame .cores rfl

theorem State.putPieces_sameBytes {t : State} (h : s.SameBytes t) (ps : List (Nat × Nat)) (data : List Byte) :
    (s.putPieces ps data).SameBytes (t.putPieces ps data) := h.putPieces ps data

end Enqueue

section Items

/-! ### Items of an engine -/

variable {s : State} {d c : Nat} {de1 : Bool}

/-- An engine's item replaced by its image where it has the identity. -/
def Xfer.at_ (id : Nat) (f : Xfer → Xfer) (x : Xfer) : Xfer := if x.id = id then f x else x

theorem Xfer.at_self (f : Xfer → Xfer) (x : Xfer) : x.at_ x.id f = f x := if_pos rfl

theorem State.onXfer_engine (id : Nat) (f : Xfer → Xfer) :
    ((s.onXfer d c de1 id f).core d c).engine de1 = ((s.core d c).engine de1).map (Xfer.at_ id f) := by
  unfold State.onXfer
  rw [State.core_onCore_self]
  cases de1 <;> rfl

theorem State.onXfer_item {n : Nat} {x : Xfer} (h : ((s.core d c).engine de1)[n]? = some x) (f : Xfer → Xfer) :
    (((s.onXfer d c de1 x.id f).core d c).engine de1)[n]? = some (f x) := by
  rw [State.onXfer_engine, List.getElem?_map, h, Option.map_some, Xfer.at_self]

/-- An item's replacement where the cores are those of an earlier state. -/
theorem State.onXfer_item_of_cores {t : State} {n : Nat} {x : Xfer} (h : ((s.core d c).engine de1)[n]? = some x) (hcores : t.cores = s.cores)
    (f : Xfer → Xfer) : (((t.onXfer d c de1 x.id f).core d c).engine de1)[n]? = some (f x) :=
  State.onXfer_item (by rw [State.core_of_cores_eq hcores, h]) f

theorem Core.runnable_spec {k : Core} {n type : Nat} {x : Xfer} (h : k.runnable de1 n type = some x) :
    (k.engine de1)[n]? = some x ∧ x.type = type ∧ x.walk = none ∧ x.marker = none := by
  unfold Core.runnable at h
  split at h
  · next y hy =>
    simp only [Option.ite_none_right_eq_some, Bool.and_eq_true, decide_eq_true_eq, Option.isNone_iff_eq_none, Option.some.injEq] at h
    obtain ⟨⟨⟨⟨⟨hwalk, hmarker⟩, -⟩, htype⟩, -⟩, rfl⟩ := h
    exact ⟨hy, htype, hwalk, hmarker⟩
  · cases h

theorem Core.runnable_of_fenced {k : Core} {n type : Nat} (h : k.unfenced de1 n = false) : k.runnable de1 n type = none := by
  unfold Core.runnable
  rw [h]
  split
  · simp
  · rfl

end Items

section Moves

/-! ### Moves made within the module -/

variable {s t : State} {d c : Nat} {de1 : Bool} {x : Xfer}

theorem State.applyMoves_eq (src : State → Move → List Byte) (ms : List Move) :
    s.applyMoves src ms = ms.foldl (fun (u : State) m => u.writeBytes m.dst.1 (src u m)) s := by
  induction ms generalizing s with
  | nil => rfl
  | cons m ms ih => exact ih

theorem State.applyMoves_cores (src : State → Move → List Byte) (ms : List Move) : (s.applyMoves src ms).cores = s.cores := by
  induction ms generalizing s with
  | nil => rfl
  | cons m ms ih =>
    rw [State.applyMoves, ih]
    exact (State.writeBytes_keeps (F := oneOf [.mem]) .rfl rfl).frame .cores rfl

/-- The bytes that a move within the module writes: zeros, or its source as it stood before a same-layout copy and as it stands during any other
(R268). -/
def Move.bytesFrom (same : Bool) (s u : State) (m : Move) : List Byte :=
  match m.src with
  | some q => (if same then s else u).readBytes q.1 q.2
  | none => List.replicate m.dst.2 0

theorem State.SameBytes.bytesFrom {s' t' : State} (hs : s.SameBytes t) (hu : s'.SameBytes t') (same : Bool) (m : Move) :
    m.bytesFrom same t t' = m.bytesFrom same s s' := by
  unfold Move.bytesFrom
  cases m.src with
  | none => rfl
  | some q =>
    cases same
    · exact hu.readBytes q.1 q.2
    · exact hs.readBytes q.1 q.2

theorem State.moveBytes_of_local (hsrc : tSpace x.src = 0) (u : State) (m : Move) : s.moveBytes d c de1 x u m = m.bytesFrom x.sameLayout s u := by
  unfold State.moveBytes Move.bytesFrom State.srcLocal
  cases m.src with
  | none => rfl
  | some q => simp [hsrc]

/-- The moves made in two states of equal bytes leave equal bytes. -/
theorem State.SameBytes.madeMoves (hs : s.SameBytes t) (same : Bool) {s' t' : State} (h : s'.SameBytes t') (ms : List Move) :
    (ms.foldl (fun (u : State) m => u.writeBytes m.dst.1 (m.bytesFrom same s u)) s').SameBytes
      (ms.foldl (fun (u : State) m => u.writeBytes m.dst.1 (m.bytesFrom same t u)) t') := by
  induction ms generalizing s' t' with
  | nil => exact h
  | cons m ms ih =>
    refine ih ?_
    dsimp only
    rw [hs.bytesFrom h]
    exact h.writeBytes ..

theorem State.moveStatus_of_clean (hsrc : tSpace x.src = 0) {m : Move} (hclean : ∀ q, m.src = some q → s.anyPoison q.1 q.2 = false) :
    s.moveStatus d c de1 x m = 0 := by
  unfold State.moveStatus State.srcLocal
  cases h : m.src with
  | none => rfl
  | some q => simp [hsrc, hclean q h]

/-- A transfer that has made its moves. -/
def Xfer.moved (flags count bytes : Nat) (y : Xfer) : Xfer :=
  { y with ran := true, status := 0, reason := 0, flags := flags, bytes := bytes, count := count, next := 1 }

theorem State.runMoves_of_clean {flags count : Nat} (hsrc : tSpace x.src = 0) (hdst : tSpace x.dst = 0) (hstop : x.type = 3 → s.gatherStop x = none)
    (hclean : ∀ m ∈ s.moves x, ∀ q, m.src = some q → s.anyPoison q.1 q.2 = false) : s.runMoves d c de1 x flags count =
      (s.applyMoves (fun t m => s.moveBytes d c de1 x t m) (s.moves x)).onXfer d c de1 x.id (Xfer.moved flags count (piecesLen ((s.moves x).map (·.dst)))) := by
  have hbad : (s.moves x).findIdx? (fun m => decide (s.moveStatus d c de1 x m ≠ 0)) = none := by
    rw [List.findIdx?_eq_none_iff]
    intro m hm
    rw [State.moveStatus_of_clean hsrc (hclean m hm)]
    rfl
  unfold State.runMoves
  dsimp only
  rw [hbad, hdst]
  dsimp only [Option.bind]
  cases hgather : s.gatherStop x with
  | none => rfl
  | some j =>
    have htype : decide (x.type = 3) = false := decide_eq_false fun h => by simp [hstop h] at hgather
    dsimp only
    rw [htype]
    rfl

end Moves

end Sys2Proof.Machine

/-! Transfers accepted and run (R131, R197, R262, R266 to R270). -/

namespace Sys2Proof.Machine

open Sys2Proof Enc7

section Run

variable {s : State} {d c n : Nat} {de1 : Bool} {x : Xfer}

/-! ### COPY, PERMUTE and GATHER -/

/-- The count of indices out of range that a transfer's record holds (R269). -/
def State.outOf (s : State) (x : Xfer) : Nat := if x.type = 3 then s.gatherOut x else 0

/-- The requests of a transfer's pieces joined to their banks. -/
def State.xferQueued (s : State) (d c : Nat) (de1 : Bool) (src dst idx : List (Nat × Nat)) : State :=
  ((s.enqueue (.engine d c (4 + flag de1)) false idx).enqueue (.engine d c (4 + flag de1)) false src).enqueue (.engine d c (4 + flag de1)) true dst

theorem State.xferQueued_sameBytes (src dst idx : List (Nat × Nat)) : s.SameBytes (s.xferQueued d c de1 src dst idx) :=
  ((s.enqueue_sameBytes ..).trans (State.enqueue_sameBytes ..)).trans (State.enqueue_sameBytes ..)

theorem State.xferQueued_cores (src dst idx : List (Nat × Nat)) : (s.xferQueued d c de1 src dst idx).cores = s.cores := by
  rw [State.xferQueued, State.enqueue_cores, State.enqueue_cores, State.enqueue_cores]

theorem State.xferMove_of_local {src dst idx : List (Nat × Nat)} (hdst : tSpace x.dst = 0) (hstop : x.type = 3 → s.gatherStop x = none) :
    s.xferMove d c de1 x src dst idx = ((s.xferQueued d c de1 src dst idx).runMoves d c de1 x
      (flag (decide (s.outOf x ≠ 0)) + 16 * flag (s.reconRead (src ++ idx))) (s.outOf x)).dropReqs (dmaOwns d c de1 x.id) := by
  unfold State.xferMove
  extract_lets out recon strict e t u
  have hstrict : strict = false := by
    by_cases h : x.type = 3
    · simp [strict, hstop h]
    · simp [strict, h]
  have hu : u = t.dropReqs (dmaOwns d c de1 x.id) := if_neg (by rw [hdst]; decide)
  rw [hstrict, Bool.false_and, if_neg Bool.false_ne_true, hu]
  rfl

/-- A transfer whose pieces are ready and clean makes its moves, and nothing else of memory changes. -/
theorem State.xferMove_of_clean {src dst idx : List (Nat × Nat)} (hitem : ((s.core d c).engine de1)[n]? = some x) (hsrc : tSpace x.src = 0) (hdst : tSpace x.dst = 0)
    (hstop : x.type = 3 → s.gatherStop x = none) (hclean : ∀ m ∈ s.moves x, ∀ q, m.src = some q → s.anyPoison q.1 q.2 = false) :
    (s.xferMove d c de1 x src dst idx).mem.cells =
        ((s.moves x).foldl (fun (u : State) m => u.writeBytes m.dst.1 (m.bytesFrom x.sameLayout s u)) s).mem.cells ∧
      (((s.xferMove d c de1 x src dst idx).core d c).engine de1)[n]? = some (x.moved (flag (decide (s.outOf x ≠ 0)) + 16 * flag (s.reconRead (src ++ idx)))
        (s.outOf x) (piecesLen ((s.moves x).map (·.dst)))) := by
  rw [State.xferMove_of_local hdst hstop]
  have hbytes : s.SameBytes (s.xferQueued d c de1 src dst idx) := State.xferQueued_sameBytes src dst idx
  have hcores : (s.xferQueued d c de1 src dst idx).cores = s.cores := State.xferQueued_cores src dst idx
  generalize s.xferQueued d c de1 src dst idx = e at *
  have hmoves : e.moves x = s.moves x := hbytes.moves x
  rw [State.runMoves_of_clean hsrc hdst (fun h => (hbytes.gatherStop x).trans (hstop h))
    (fun m hm q hq => (hbytes.anyPoison _ _).trans (hclean m (hmoves ▸ hm) q hq)), hmoves]
  constructor
  · change (e.applyMoves _ (s.moves x)).mem.cells = _
    rw [State.applyMoves_eq]
    simp only [State.moveBytes_of_local hsrc]
    exact (hbytes.madeMoves x.sameLayout hbytes (s.moves x)).cells
  · exact State.onXfer_item_of_cores hitem ((State.applyMoves_cores ..).trans hcores) _

theorem State.walkReady_nil (write : Bool) : s.walkReady d c [] write = true := rfl

theorem State.peerStatus_of_none {id : Nat} (h : s.reqsOf (dmaOwns d c de1 id) = []) : s.peerStatus d c de1 id = some 0 := by
  unfold State.peerStatus
  rw [h]
  rfl

theorem State.targetStatus_of_none {id : Nat} (h : s.reqsOf (dmaOwns d c de1 id) = []) : s.targetStatus d c de1 id = 0 := by
  have hnone : s.reqsOf (fun o => dmaOwns d c de1 id o && decide (o.1 = 11)) = [] := by
    refine List.filter_eq_nil_iff.2 fun q hq hown => ?_
    exact List.filter_eq_nil_iff.1 h q hq (Bool.and_eq_true_iff.1 hown).1
  unfold State.targetStatus
  rw [hnone]
  rfl

/-- The pieces of indices that a transfer reads. -/
def Xfer.idxPieces (x : Xfer) (type : Nat) : List (Nat × Nat) := if type = 3 then [(tBase x.idx, 4 * x.gathered)] else []

theorem State.runXfer_of_ready {type : Nat} (hrun : (s.core d c).runnable de1 n type = some x) (hnext : x.next ≠ 1) (hsrc : tSpace x.src = 0)
    (hdst : tSpace x.dst = 0) (hreqs : s.reqsOf (dmaOwns d c de1 x.id) = [])
    (hstopped : s.stoppedPieces (s.fetches x ++ (s.moves x).map (·.dst) ++ x.idxPieces type) = false)
    (hidx : s.walkReady d c (x.idxPieces type) false = true) (hsrcs : s.walkReady d c (s.fetches x) false = true)
    (hdsts : s.walkReady d c ((s.moves x).map (·.dst)) true = true) :
    s.runXfer d c de1 n type = s.xferMove d c de1 x (s.fetches x) ((s.moves x).map (·.dst)) (x.idxPieces type) := by
  unfold Xfer.idxPieces at *
  unfold State.runXfer
  rw [hrun]
  dsimp only
  rw [if_neg hnext, hidx, Bool.not_true, if_neg Bool.false_ne_true]
  have hask : ∀ src dst, s.xferAsk d c de1 x src dst = s := fun src dst => by
    unfold State.xferAsk
    rw [hsrc, hdst]
    rfl
  have hlocal : s.srcLocal (s.core d c).taskNo x (s.fetches x) = some (s.fetches x) := by
    unfold State.srcLocal
    rw [hsrc]
    rfl
  rw [hask, hsrc, hdst, if_neg (by decide), hlocal]
  dsimp only
  rw [State.peerStatus_of_none hreqs, State.targetStatus_of_none hreqs]
  dsimp only
  rw [if_neg (by decide : ¬0 = 2), hstopped, if_neg Bool.false_ne_true, hsrcs, hdsts]
  rfl

/-! ### FILL -/

theorem exec_dmaFill_of {ps : List (Nat × Nat)} {first : Nat} (hrun : (s.core d c).runnable de1 n 4 = some x) (hnext : x.next ≠ 1) (hdst : tSpace x.dst = 0)
    (hps : ps = x.dstSlice.flatten) (hfirst : first = (ps.headD (0, 0)).1) (hstopped : s.stoppedPieces ps = false) (hready : s.walkReady d c ps true = true) :
    exec (.dmaFill d c de1 n) s = .next (((s.enqueue (.engine d c (4 + flag de1)) true ps).putPieces ps (ps.flatMap fun q => (List.range q.2).map fun i =>
      ((((x.desc.drop 0x28).take 8)[(((q.1 + i : Nat) : Int) - first).emod 8 |>.toNat]?).getD 0))).onXfer d c de1 x.id
        fun y => { y with ran := true, bytes := piecesLen ps }) := by
  change execDmaFill d c de1 n s = _
  unfold execDmaFill
  refine congrArg Host.Outcome.next ?_
  rw [hrun]
  dsimp only
  rw [← hps, ← hfirst, if_neg hnext, hdst, if_neg (by decide), hstopped, if_neg Bool.false_ne_true, hready, Bool.not_true, if_neg Bool.false_ne_true]

/-! ### BSEQ -/

/-- What the acceptance of a sequence keeps: the jobs, the identities given and the bytes. -/
structure State.SameSeqs (s t : State) : Prop where
  seqs : t.seqs = s.seqs
  seqNext : t.seqNext = s.seqNext
  cells : t.mem.cells = s.mem.cells

theorem State.SameSeqs.trans {t u : State} (a : s.SameSeqs t) (b : t.SameSeqs u) : s.SameSeqs u :=
  ⟨b.seqs.trans a.seqs, b.seqNext.trans a.seqNext, b.cells.trans a.cells⟩

theorem State.SameSeqs.of_keeps {F : Part → Bool} {t : State} (h : Keeps F s t) (hseqs : F .seqs = false) (hnext : F .seqNext = false) (hmem : F .mem = false) :
    s.SameSeqs t := ⟨h.frame .seqs hseqs, h.frame .seqNext hnext, congrArg Memory.cells (h.frame .mem hmem)⟩

theorem State.issueSnoops_sameSeqs (xs : List Snoop) : s.SameSeqs (s.issueSnoops xs) := by
  rw [State.issueSnoops_frame]
  exact ⟨rfl, rfl, rfl⟩

theorem State.acceptSeq_counts {src : Agent} {desc inline : List Byte} {slot : Option (Nat × Nat)} {xfer : Option Nat} {keep : Bool} :
    (s.acceptSeq src desc inline slot xfer keep).seqs.length = s.seqs.length + 1 ∧ (s.acceptSeq src desc inline slot xfer keep).seqNext = s.seqNext + 1 ∧
      (s.acceptSeq src desc inline slot xfer keep).mem.cells = s.mem.cells := by
  suffices h : ∃ j, ({ s with seqs := s.seqs ++ [j], seqNext := s.seqNext + 1 } : State).SameSeqs (s.acceptSeq src desc inline slot xfer keep) by
    obtain ⟨j, hseqs, hnext, hcells⟩ := h
    exact ⟨by rw [hseqs, List.length_append, List.length_singleton], hnext, hcells⟩
  unfold State.acceptSeq
  extract_lets D bad goesOn j t u
  refine ⟨j, ?_⟩
  have hchains : t.SameSeqs u := by
    by_cases h : goesOn = true
    · have hu : u = { t with baus := u.baus } := by
        unfold u
        rw [if_pos h]
      rw [hu]
      exact ⟨rfl, rfl, rfl⟩
    · by_cases hx : xfer.isSome = true
      · have hu : u = t.endChains fun b => b.chainOf src xfer := (if_neg h).trans (if_pos hx)
        rw [hu]
        exact .of_keeps (F := oneOf [.banks, .baus]) (State.endChains_keeps .rfl rfl rfl) rfl rfl rfl
      · have hu : u = t := (if_neg h).trans (if_neg hx)
        rw [hu]
        exact ⟨rfl, rfl, rfl⟩
  refine hchains.trans ?_
  cases bad with
  | some b => exact ⟨rfl, rfl, rfl⟩
  | none =>
    dsimp only
    rename_i v
    have hv : u.SameSeqs v := (State.SameSeqs.of_keeps (F := oneOf [.power, .stackMap]) (State.seqArrives_keeps .rfl rfl rfl) rfl rfl rfl).trans
      (State.issueSnoops_sameSeqs _)
    refine hv.trans ?_
    split
    · exact ⟨rfl, rfl, rfl⟩
    · exact .of_keeps (F := oneOf [.banks]) (State.drive_keeps .rfl rfl) rfl rfl rfl

/-- The descriptor after the one that a BSEQ forwards continues its chain. -/
def State.keepsChain (s : State) (x : Xfer) (q : Desc) : Bool :=
  decide (x.next + 1 < x.nouter) && (⟨s.readBytes (x.nextAt + 64 + inlineLen q) 64⟩ : Desc).cont &&
    decide ((⟨s.readBytes (x.nextAt + 64 + inlineLen q) 64⟩ : Desc).bank = q.bank)

theorem exec_bseq_of_next {q : Desc} (hrun : (s.core d c).runnable de1 n 5 = some x) (hseq : x.seq = none) (hstatus : x.status = 0) (hnext : x.next < x.nouter)
    (hq : q = ⟨s.readBytes x.nextAt 64⟩) (hspm : inSpm d c x.nextAt (64 + inlineLen q) = true) (hwin : s.seqWindows d c (.engine d c (4 + flag de1)) x.id q = true) :
    exec (.bseq d c de1 n) s = .next ((s.acceptSeq (.engine d c (4 + flag de1)) q.bytes (s.readBytes (x.nextAt + 64) (inlineLen q)) none (some x.id)
      (s.keepsChain x q)).onXfer d c de1 x.id fun y => { y with next := y.next + 1, nextAt := y.nextAt + 64 + inlineLen q, seq := some s.seqNext }) := by
  subst hq
  change execBseq d c de1 n s = _
  unfold execBseq
  refine congrArg Host.Outcome.next ?_
  rw [hrun]
  dsimp only
  rw [hseq, if_neg (by decide), if_neg (by omega), hspm, hwin]
  rfl

theorem exec_bseq_of_over (hrun : (s.core d c).runnable de1 n 5 = some x) (hseq : x.seq = none) (hover : x.nouter ≤ x.next ∨ x.status ≠ 0) :
    exec (.bseq d c de1 n) s = .next (s.bseqEnds d c de1 x id) := by
  change execBseq d c de1 n s = _
  unfold execBseq
  refine congrArg Host.Outcome.next ?_
  rw [hrun]
  dsimp only
  rw [hseq, if_neg (by decide), if_pos hover]

/-! ### XFER -/

/-- The transfer of a descriptor, with the tensor descriptors as they stand. -/
def Core.newXfer (k : Core) (desc : List Byte) : Xfer :=
  { walkXfer k.xferNext 0 k.sa.pc k.sa.replay with
    desc := desc
    src := mget [] k.desc (field desc 2 1)
    dst := mget [] k.desc (field desc 3 1)
    idx := mget [] k.desc (field desc 4 1)
    walk := none
    fence := xferFence (k.next false)
    tok := emits (k.next false)
    nextAt := field desc 0x28 8
    count := if field desc 0 1 = 5 then 0xFFFFFFFF else 0 }

/-- A transfer with the outcome of its checks (R262). -/
def Xfer.checked (x : Xfer) (bad : Option Nat) : Xfer := { x with ran := bad.isSome, status := if bad.isSome then 3 else 0, reason := bad.getD 0 }

/-- A core whose access stream has handed a transfer to an engine. -/
def Core.handed (k : Core) (de1 : Bool) (x : Xfer) : Core :=
  let k := { k.issued false with xferNext := k.xferNext + 1 }
  if de1 then { k with de1 := k.de1 ++ [x] } else { k with de0 := k.de0 ++ [x] }

theorem Core.handed_spec (k : Core) (x : Xfer) : (k.handed de1 x).engine de1 = k.engine de1 ++ [x] ∧ (k.handed de1 x).sa.pc = k.sa.pc + 1 := by
  unfold Core.handed
  rw [Core.issued_frame]
  cases de1 <;> exact ⟨rfl, rfl⟩

theorem exec_xfer_of {k : Core} {w a : Nat} (hk : k = s.core d c) (hissues : k.issues false opXFER = true) (hw : w = k.next false)
    (hroom : k.engineItems (xferEngine w) < 16) (hde1 : xferEngine w = true → s.de1Present d c = true)
    (ha : a = plusOff (k.preg k.sa.replay (xferPreg w)) (xferOffset w)) (halign : a % 64 = 0) (hspm : inSpm d c a 64 = true) (hwin : k.windowed a 64 = true) :
    exec (.xfer d c) s = .next (s.onCore d c fun k => k.handed (xferEngine w)
      (((s.core d c).newXfer (s.readBytes a 64)).checked (((s.core d c).newXfer (s.readBytes a 64)).check d c))) := by
  subst hk hw
  have hpresent : (!xferEngine ((s.core d c).next false) || s.de1Present d c) = true := by
    cases h : xferEngine ((s.core d c).next false) with
    | false => rfl
    | true => rw [hde1 h]; rfl
  refine congrArg Host.Outcome.next ((State.when_pos ?_).trans ?_)
  · rw [hissues, decide_eq_true hroom, hpresent]
    rfl
  · dsimp only
    rw [← ha, hspm, hwin, decide_eq_true halign]
    rfl

end Run

end Sys2Proof.Machine

/-! Settling O40: the completion of a transfer (R272, R273, R275, R280). -/

namespace Sys2Proof.Machine

open Sys2Proof Enc7

section Completion

variable {s : State} {d c n : Nat} {de1 : Bool} {x : Xfer}

/-- A core from whose engine a transfer has gone, its token due. -/
def Core.xferGone (k : Core) (de1 : Bool) (x : Xfer) : Core :=
  let k := if de1 then { k with de1 := k.de1.filter (·.id ≠ x.id) } else { k with de0 := k.de0.filter (·.id ≠ x.id) }
  match x.tok with
  | some t => { k with credits := k.credits ++ [(⟨t, x.replay, false, x.index⟩ : Credit)] }
  | none => k

/-- The credit that is due for a transfer's token. -/
def Xfer.tokenDue (x : Xfer) : List Credit :=
  match x.tok with
  | some t => [⟨t, x.replay, false, x.index⟩]
  | none => []

theorem Core.xferGone_spec (k : Core) (de1 : Bool) (x : Xfer) : (k.xferGone de1 x).engine de1 = (k.engine de1).filter (fun y => y.id ≠ x.id) ∧
    (k.xferGone de1 x).credits = k.credits ++ x.tokenDue ∧
    (k.xferGone de1 x).faulted = k.faulted ∧ (k.xferGone de1 x).full = k.full ∧ (k.xferGone de1 x).hold = k.hold ∧ (k.xferGone de1 x).cc = k.cc := by
  unfold Core.xferGone Xfer.tokenDue
  cases x.tok with
  | none => cases de1 <;> exact ⟨rfl, (List.append_nil _).symm, rfl, rfl, rfl, rfl⟩
  | some t => cases de1 <;> exact ⟨rfl, rfl, rfl, rfl, rfl, rfl⟩

/-- The state with a status other than OK kept in the engine's error registers, unless they hold one (R275). -/
def State.xferLogged (s : State) (d c e : Nat) (x : Xfer) : State :=
  if x.status = 0 ∨ s.fld d c e DE_ERROR.VALID = 1 then s
  else (s.setReg d .DE_ERROR c e (BitVec.ofNat 32 (2 ^ 31 + x.status * 2 ^ 24 + x.reason))).setReg d .DE_ERROR_TAG c e (BitVec.ofNat 32 x.tag)

/-- The state in which a transfer that has run is gone and accounted for. -/
def State.xferLeft (s : State) (d c : Nat) (de1 : Bool) (x : Xfer) : State :=
  ((s.onCore d c (·.xferGone de1 x)).countFld d c (flag de1) DE_BYTES.BYTES (x.bytes / 64)).xferLogged d c (flag de1) x

theorem State.xferLogged_keeps (e : Nat) : Keeps (oneOf [.regs]) s (s.xferLogged d c e x) := by
  unfold State.xferLogged
  split
  · exact .rfl
  · exact State.setReg_keeps (State.setReg_keeps .rfl rfl) rfl

theorem State.xferLeft_keeps : Keeps (oneOf [.regs]) (s.onCore d c (·.xferGone de1 x)) (s.xferLeft d c de1 x) :=
  (State.countFld_keeps .rfl rfl : Keeps (oneOf [.regs]) _ _).trans (State.xferLogged_keeps _)

theorem State.xferLeft_core : (s.xferLeft d c de1 x).core d c = (s.core d c).xferGone de1 x := by
  rw [State.core_of_cores_eq (State.xferLeft_keeps.frame .cores rfl), State.core_onCore_self]

theorem State.xferLeft_eq : s.xferLeft d c de1 x = { s with cores := (s.xferLeft d c de1 x).cores, regs := (s.xferLeft d c de1 x).regs } := by
  have h : s.xferLeft d c de1 x = { s.onCore d c (·.xferGone de1 x) with regs := (s.xferLeft d c de1 x).regs } := State.xferLeft_keeps.eq_graft
  have hcores : (s.xferLeft d c de1 x).cores = (s.onCore d c (·.xferGone de1 x)).cores := State.xferLeft_keeps.frame .cores rfl
  rw [hcores]
  exact h

theorem State.xferLeft_sameBytes : s.SameBytes (s.xferLeft d c de1 x) := by
  rw [State.xferLeft_eq]
  exact ⟨rfl, rfl, rfl, fun _ => rfl⟩

/-- The state with the record of a transfer written where its descriptor asks for one. -/
def State.xferRecorded (s : State) (d c : Nat) (de1 : Bool) (x : Xfer) : State :=
  if x.records && x.cmplOk d c then (s.xferLeft d c de1 x).writeBytes x.cmpl x.record else s.xferLeft d c de1 x

theorem State.xferRecorded_core : (s.xferRecorded d c de1 x).core d c = (s.core d c).xferGone de1 x := by
  unfold State.xferRecorded
  split
  · rw [State.core_of_cores_eq ((State.writeBytes_keeps (F := oneOf [.mem]) .rfl rfl).frame .cores rfl), State.xferLeft_core]
  · exact State.xferLeft_core

theorem State.xferRecorded_cells (hok : x.cmplOk d c = true) :
    (s.xferRecorded d c de1 x).mem.cells = (if x.records then s.writeBytes x.cmpl x.record else s).mem.cells := by
  unfold State.xferRecorded
  rw [hok, Bool.and_true]
  split
  · exact (State.xferLeft_sameBytes.writeBytes ..).cells
  · exact State.xferLeft_sameBytes.cells

/-- The completion record, byte by byte (R272). -/
theorem Xfer.record_eq (x : Xfer) : x.record = leBytes 2 x.tag ++ leBytes 1 x.status ++ leBytes 1 x.flags ++ leBytes 2 x.reason ++ leBytes 2 0 ++
    leBytes 4 (min 0xFFFFFFFF x.bytes) ++ leBytes 4 x.count ++ List.replicate 48 0 := by
  have hsat : satTo 0xFFFFFFFF x.bytes = min 0xFFFFFFFF x.bytes := by
    unfold satTo
    split <;> omega
  rw [Xfer.record, hsat]

/-- What may complete (R272): item `n` of an engine, a transfer that has run and before which no fence stands, of a core that no fault has stopped. -/
structure State.Completes (s : State) (d c : Nat) (de1 : Bool) (n : Nat) (x : Xfer) : Prop where
  item : ((s.core d c).engine de1)[n]? = some x
  ran : x.ran = true
  walk : x.walk = none
  marker : x.marker = none
  seq : x.seq = none
  unfenced : (s.core d c).unfenced de1 n = true
  running : (s.core d c).faulted = none

theorem State.Completes.gone (h : s.Completes d c de1 n x) : ((s.core d c).xferGone de1 x).faulted = none := by
  obtain ⟨-, -, hfault, -⟩ := (s.core d c).xferGone_spec de1 x
  rw [hfault, h.running]

/-- The state's core goes on, unless a fault has stopped it. -/
def State.goesOn (s : State) (d c : Nat) : State := if (s.core d c).faulted.isSome then s else s.settle d c

theorem State.goesOn_of_running (h : (s.core d c).faulted = none) : s.goesOn d c = s.settle d c := if_neg (by simp [h])

theorem State.Completes.exec_of (h : s.Completes d c de1 n x) : exec (.transferComplete d c de1 n) s = .next
    ((if x.signals && x.cmplOk d c then (s.xferRecorded d c de1 x).signalWord d c (x.cmpl - spmBase d c) else s.xferRecorded d c de1 x).goesOn d c) := by
  obtain ⟨hitem, hran, hwalk, hmarker, hseq, hfence, -⟩ := h
  change execTransferComplete d c de1 n s = _
  unfold execTransferComplete
  refine congrArg Host.Outcome.next ?_
  rw [hitem]
  dsimp only
  rw [State.when_pos (by simp [hran, hwalk, hmarker, hseq, hfence])]
  rfl

/-- A transfer that signals no word completes, and its core goes on. -/
theorem State.Completes.unsignalled (h : s.Completes d c de1 n x) (hsignals : x.signals = false) :
    exec (.transferComplete d c de1 n) s = .next ((s.xferRecorded d c de1 x).settle d c) := by
  rw [h.exec_of, hsignals, Bool.false_and, if_neg Bool.false_ne_true, State.goesOn_of_running]
  rw [State.xferRecorded_core, h.gone]

theorem State.xferRecorded_of_none (hrecords : x.records = false) : s.xferRecorded d c de1 x = s.xferLeft d c de1 x :=
  if_neg (by simp [hrecords])

theorem State.Completes.isFull (off : Nat) : ((s.xferRecorded d c de1 x).core d c).isFull off = (s.core d c).isFull off := by
  obtain ⟨-, -, -, hfull, -⟩ := (s.core d c).xferGone_spec de1 x
  rw [State.xferRecorded_core, Core.isFull_of_full_eq hfull]

/-- A signal of an empty word leaves memory and stops no core. -/
theorem State.signalWord_of_empty {off : Nat} (hfull : (s.core d c).isFull off = false) : (s.signalWord d c off).mem = s.mem ∧
    ((s.signalWord d c off).core d c).faulted = (s.core d c).faulted := by
  have heq : s.signalWord d c off = (s.onCore d c (·.setWord off true)).releaseWord d c off := if_neg (Bool.eq_false_iff.1 hfull)
  rw [heq]
  constructor
  · exact (State.releaseWord_keeps (F := oneOf [.free, .cores]) .rfl rfl rfl).frame .mem rfl
  · have h := State.releaseWord_released (s.onCore d c (·.setWord off true)) d c off
    rw [State.core_onCore_self] at h
    exact h.faulted

/-! ### The error registers (R275) -/

theorem regOff_deError {e : Nat} (hc : c < 64) (he : e < 2) : regOff .DE_ERROR c e ≠ regOff .DE_BYTES c e ∧ regOff .DE_ERROR c e ≠ regOff .DE_ERROR_TAG c e := by
  have h : ∀ e < 2, regOff .DE_ERROR c e ≠ regOff .DE_BYTES c e ∧ regOff .DE_ERROR c e ≠ regOff .DE_ERROR_TAG c e := by
    revert c
    decide
  exact h e he

theorem State.xferLeft_error (hc : c < 64) (hstatus : x.status ≠ 0) (hvalid : s.fld d c (flag de1) DE_ERROR.VALID = 0) :
    (s.xferLeft d c de1 x).reg d .DE_ERROR c (flag de1) = BitVec.ofNat 32 (2 ^ 31 + x.status * 2 ^ 24 + x.reason) := by
  obtain ⟨hbytes, htag⟩ := regOff_deError (e := flag de1) hc (by cases de1 <;> decide)
  unfold State.xferLeft State.xferLogged
  rw [if_neg, State.reg_setReg_ne (regKey_ne htag), State.reg_setReg_self]
  have hfld : ((s.onCore d c (·.xferGone de1 x)).countFld d c (flag de1) DE_BYTES.BYTES (x.bytes / 64)).fld d c (flag de1) DE_ERROR.VALID = 0 :=
    (State.fld_setFld_ne (regKey_ne hbytes)).trans hvalid
  rw [hfld]
  omega

theorem deError_fields {status reason : Nat} (hs : status < 8) (hr : reason < 2 ^ 16) :
    bits (BitVec.ofNat 32 (2 ^ 31 + status * 2 ^ 24 + reason)).toNat 31 31 = 1 ∧ bits (BitVec.ofNat 32 (2 ^ 31 + status * 2 ^ 24 + reason)).toNat 26 24 = status ∧
      bits (BitVec.ofNat 32 (2 ^ 31 + status * 2 ^ 24 + reason)).toNat 15 0 = reason := by
  rw [BitVec.toNat_ofNat, bits_eq, bits_eq, bits_eq]
  omega

end Completion

section Settled

theorem flag_decide_ne (n : Nat) : flag (decide (n ≠ 0)) = if n = 0 then 0 else 1 := by
  by_cases h : n = 0 <;> simp [h, flag]

theorem mul_flag (b : Bool) : 16 * flag b = if b then 16 else 0 := by cases b <;> rfl

/-- Settles O40: an engine takes a descriptor as it stands, runs it in its order, and completes it by record, word and error registers. -/
theorem transfersMoveTheirBytesInOrder : Obligations.TransfersMoveTheirBytesInOrder := by
  refine ⟨⟨?_, ?_, ?_, ?_, ?_, ?_⟩, ?_, ?_, ?_, ?_, ?_, ?_⟩
  · intro s d c k w a hk hissues hw hroom hde1 ha halign hspm hwin
    have hexec := exec_xfer_of hk hissues hw hroom hde1 ha halign hspm hwin
    subst hk hw
    obtain ⟨hengine, hpc⟩ := Core.handed_spec (de1 := xferEngine ((s.core d c).next false)) (s.core d c)
      (((s.core d c).newXfer (s.readBytes a 64)).checked (((s.core d c).newXfer (s.readBytes a 64)).check d c))
    refine ⟨_, ((s.core d c).newXfer (s.readBytes a 64)).checked (((s.core d c).newXfer (s.readBytes a 64)).check d c), hexec, ?_, rfl, rfl, rfl, rfl, rfl, rfl, rfl, rfl, rfl, ?_, rfl⟩
    · rw [State.core_onCore_self, hengine]
    · rw [State.core_onCore_self, hpc]
  · intro p hp s d c n out de1 x ms ix hrun hnext hsrc hdst hreqs hms hix hout hstop hstopped hidx hsrcs hdsts hclean
    have hexec : exec (p.1 d c de1 n) s = .next (s.runXfer d c de1 n p.2) := by
      simp only [List.mem_cons, List.not_mem_nil, or_false] at hp
      rcases hp with rfl | rfl | rfl <;> rfl
    obtain ⟨hitem, htype, -, -⟩ := Core.runnable_spec hrun
    subst hms hix
    have hstop' : x.type = 3 → s.gatherStop x = none := fun h => hstop (htype.symm.trans h)
    obtain ⟨hcells, hdone⟩ := State.xferMove_of_clean (src := s.fetches x) (dst := (s.moves x).map (·.dst)) (idx := x.idxPieces p.2) hitem hsrc hdst hstop' hclean
    have hcount : s.outOf x = out := by rw [hout, State.outOf, htype]
    refine ⟨_, hexec.trans (congrArg Host.Outcome.next (State.runXfer_of_ready hrun hnext hsrc hdst hreqs hstopped hidx hsrcs hdsts)), hcells, ?_⟩
    rw [hdone, hcount, flag_decide_ne, mul_flag]
    rfl
  · intro s d c n de1 x ps first hrun hnext hdst hps hfirst hstopped hready
    obtain ⟨hitem, -, -, -⟩ := Core.runnable_spec hrun
    refine ⟨_, exec_dmaFill_of hrun hnext hdst hps hfirst hstopped hready, ?_, ?_⟩
    · exact ((s.enqueue_sameBytes _ true ps).putPieces ps _).cells
    · exact State.onXfer_item_of_cores hitem ((State.putPieces_cores ..).trans (State.enqueue_cores ..)) _
  · intro s d c n de1 x q hrun hseq hstatus hnext hq hspm hwin
    obtain ⟨hitem, -, -, -⟩ := Core.runnable_spec hrun
    refine ⟨_, _, exec_bseq_of_next hrun hseq hstatus hnext hq hspm hwin, ?_, ?_, State.onXfer_item_of_cores hitem ?_ _, rfl, rfl, rfl, ?_⟩
    · exact State.acceptSeq_counts.1
    · exact State.acceptSeq_counts.2.1
    · exact (State.acceptSeq_keeps (F := oneOf [.free, .sent, .power, .mem, .stackMap, .banks, .baus, .seqs, .seqNext, .fab]) .rfl rfl rfl rfl rfl rfl rfl rfl rfl rfl
        rfl).frame .cores rfl
    · exact State.acceptSeq_counts.2.2
  · intro s d c n de1 x hrun hseq hover
    obtain ⟨hitem, -, -, -⟩ := Core.runnable_spec hrun
    have hkeeps : Keeps (oneOf [.banks, .baus]) s (s.endChains fun b => b.chainOf (.engine d c (4 + flag de1)) (some x.id)) := State.endChains_keeps .rfl rfl rfl
    refine ⟨_, exec_bseq_of_over hrun hseq hover, State.onXfer_item_of_cores hitem (hkeeps.frame .cores rfl) _, ?_⟩
    unfold State.bseqEnds
    rw [hkeeps.eq_graft]
    rfl
  · intro p hp s d c n de1 hfence
    simp only [List.mem_cons, List.not_mem_nil, or_false] at hp
    have hnone := fun type => Core.runnable_of_fenced (type := type) hfence
    have hrun : ∀ type, s.runXfer d c de1 n type = s := fun type => by
      unfold State.runXfer
      rw [hnone]
    rcases hp with rfl | rfl | rfl | rfl | rfl
    · exact congrArg Host.Outcome.next (hrun 1)
    · exact congrArg Host.Outcome.next (hrun 2)
    · exact congrArg Host.Outcome.next (hrun 3)
    · change execDmaFill d c de1 n s = _
      unfold execDmaFill
      rw [hnone]
    · change execBseq d c de1 n s = _
      unfold execBseq
      rw [hnone]
  · intro s d c n de1 x hitem hran hwalk hmarker hseq hfence hfault hrecords hsignals
    have h : s.Completes d c de1 n x := ⟨hitem, hran, hwalk, hmarker, hseq, hfence, hfault⟩
    obtain ⟨hengine, hcredits, -⟩ := (s.core d c).xferGone_spec de1 x
    refine ⟨_, (h.unsignalled hsignals).trans (by rw [State.xferRecorded_of_none hrecords]), ?_, ?_, State.xferLeft_eq⟩
    · rw [State.xferLeft_core, hengine]
    · rw [State.xferLeft_core, hcredits]
      unfold Xfer.tokenDue
      cases x.tok <;> rfl
  · intro s d c n de1 x hitem hran hwalk hmarker hseq hfence hfault hrecords hsignals hok
    have h : s.Completes d c de1 n x := ⟨hitem, hran, hwalk, hmarker, hseq, hfence, hfault⟩
    refine ⟨_, h.unsignalled hsignals, ?_⟩
    rw [State.xferRecorded_cells hok, if_pos hrecords, x.record_eq]
  · intro s d c n de1 x hitem hran hwalk hmarker hseq hfence hfault hsignals hok hempty
    have h : s.Completes d c de1 n x := ⟨hitem, hran, hwalk, hmarker, hseq, hfence, hfault⟩
    have hword := (State.Completes.isFull (s := s) (de1 := de1) (x := x) (x.cmpl - spmBase d c)).trans hempty
    obtain ⟨hmem, hstops⟩ := State.signalWord_of_empty hword
    refine ⟨(s.xferRecorded d c de1 x).signalWord d c (x.cmpl - spmBase d c), ?_, ?_, fun hold hcc => ?_⟩
    · rw [h.exec_of, hsignals, hok, Bool.and_self, if_pos rfl, State.goesOn_of_running]
      rw [hstops, State.xferRecorded_core, h.gone]
    · rw [hmem, State.xferRecorded_cells hok]
    · obtain ⟨-, -, -, -, hhold, hctl⟩ := (s.core d c).xferGone_spec de1 x
      rw [State.signalWord_of_free hword (by rw [State.xferRecorded_core, hhold, hold]) (by rw [State.xferRecorded_core, hctl, hcc]; rfl), State.core_onCore_self]
      exact Core.isFull_setWord true
  · intro s d c n de1 x hitem hran hwalk hmarker hseq hfence hfault hsignals hok hfull
    have h : s.Completes d c de1 n x := ⟨hitem, hran, hwalk, hmarker, hseq, hfence, hfault⟩
    have hword := (State.Completes.isFull (s := s) (de1 := de1) (x := x) (x.cmpl - spmBase d c)).trans hfull
    have hsignal : (s.xferRecorded d c de1 x).signalWord d c (x.cmpl - spmBase d c) = (s.xferRecorded d c de1 x).coreFault d c 0x4701 0 := if_pos hword
    have hstops : (((s.xferRecorded d c de1 x).coreFault d c 0x4701 0).core d c).faulted = some 0x4701 := by
      rw [State.coreFault_core]
      exact Core.stopped_faulted (by rw [State.xferRecorded_core, h.gone])
    refine ⟨(s.xferRecorded d c de1 x).coreFault d c 0x4701 0, ?_, hstops, ?_⟩
    · rw [h.exec_of, hsignals, hok, Bool.and_self, if_pos rfl, hsignal]
      exact congrArg Host.Outcome.next (if_pos (by rw [hstops]; rfl))
    · obtain ⟨hsa, hsx, -⟩ := ((s.xferRecorded d c de1 x).core d c).stopped_spec 0x4701
      rw [State.coreFault_core]
      exact ⟨hsa, hsx⟩
  · intro s d c n de1 x hd hc hitem hran hwalk hmarker hseq hfence hfault hrecords hsignals hstatus hstatus' hreason hvalid
    have h : s.Completes d c de1 n x := ⟨hitem, hran, hwalk, hmarker, hseq, hfence, hfault⟩
    have hreg := State.xferLeft_error (de1 := de1) hc (Nat.pos_iff_ne_zero.1 hstatus) hvalid
    obtain ⟨hv, hs, hr⟩ := deError_fields hstatus' hreason
    refine ⟨_, (h.unsignalled hsignals).trans (by rw [State.xferRecorded_of_none hrecords]), ?_, ?_, ?_⟩
    · exact (congrArg (fun w : Word => bits w.toNat 31 31) hreg).trans hv
    · exact (congrArg (fun w : Word => bits w.toNat 26 24) hreg).trans hs
    · exact (congrArg (fun w : Word => bits w.toNat 15 0) hreg).trans hr
  · intro s d c n de1 hfence
    change execTransferComplete d c de1 n s = _
    unfold execTransferComplete
    refine congrArg Host.Outcome.next ?_
    cases hitem : ((s.core d c).engine de1)[n]? with
    | none => rfl
    | some x => exact State.when_neg (by simp [hfence])

end Settled

end Sys2Proof.Machine

/-! Posts to mailboxes, and what hosts do with their slots (R51, R290 to R295, R301). -/

namespace Sys2Proof.Machine

open Sys2Proof

section Posts

variable {s u : State} {d k n sender pointer tag : Nat} {r : PostResult}

/-! ### How a post ends (R292, R293) -/

/-- The state with a notice put in an empty slot. -/
def State.fillSlot (s : State) (d k n pointer tag sender : Nat) : State :=
  { s with notices := s.notices ++ [⟨d, k, n, leBytes 8 pointer ++ leBytes 4 tag ++ leBytes 4 sender⟩] }

theorem State.post_of_admitted (hmode : s.power.mode = .ready) (hslot : slotExists d k n = true) (hmay : s.mayPost (s.binding d k n) sender = true)
    (hempty : s.noticeAt d k n = none) : s.post sender d k n pointer tag = ((s.fillSlot d k n pointer tag sender).doorbell d k n, .ok) := by
  unfold State.post
  rw [hmode, if_neg (by decide), hslot, hmay, if_neg (by decide), hempty]
  rfl

theorem State.post_of_full (hmode : s.power.mode = .ready) (hslot : slotExists d k n = true) (hmay : s.mayPost (s.binding d k n) sender = true)
    (hfull : s.noticeAt d k n ≠ none) : s.post sender d k n pointer tag = (s.countReject d k MBX_REJECT.FULL, .full) := by
  unfold State.post
  rw [hmode, if_neg (by decide), hslot, hmay, if_neg (by decide), if_pos (Option.isSome_iff_ne_none.2 hfull)]

theorem State.post_of_denied (hmode : s.power.mode = .ready) (h : slotExists d k n = false ∨ s.mayPost (s.binding d k n) sender = false) :
    s.post sender d k n pointer tag = (s.countReject d k MBX_REJECT.DENIED, .denied) := by
  unfold State.post
  rw [hmode, if_neg (by decide), if_pos]
  rcases h with h | h <;> rw [h]
  · rfl
  · exact Bool.or_true _

theorem State.doorbell_notices : (s.doorbell d k n).notices = s.notices :=
  (State.doorbell_keeps (F := oneOf [.sent, .power, .mem, .ports]) .rfl rfl rfl rfl rfl).frame .notices rfl

theorem State.countReject_eq (f : RF) : s.countReject d k f = { s with regs := (s.countReject d k f).regs } :=
  (State.countReject_keeps (F := oneOf [.regs]) .rfl rfl).eq_graft

/-- A post leaves the notices that are kept. -/
theorem State.post_kept (h : s.post sender d k n pointer tag = (u, r)) : u.kept = s.kept :=
  (State.post_keeps_of (F := oneOf [.sent, .power, .regs, .mem, .ports, .notices]) .rfl h rfl rfl rfl rfl rfl rfl).frame .kept rfl

/-- A post that fails in a module that is Ready leaves it Ready. -/
theorem State.post_ready (hmode : s.power.mode = .ready) (h : s.post sender d k n pointer tag = (u, r)) (hr : r ≠ .ok) : u.power.mode = .ready := by
  have hcount : ∀ f, (s.countReject d k f).power = s.power := fun f => by rw [State.countReject_eq]
  unfold State.post at h
  rw [hmode, if_neg (by decide)] at h
  split_ifs at h
  · obtain ⟨rfl, rfl⟩ := Prod.mk.inj h
    rw [hcount, hmode]
  · obtain ⟨rfl, rfl⟩ := Prod.mk.inj h
    rw [hcount, hmode]
  · exact absurd (Prod.mk.inj h).2.symm hr

/-! ### Senders (R291) -/

theorem sender_fields {kind d c : Nat} (hkind : kind < 16) (hd : d < 8) (hc : c < 64) :
    bits (kind * 2 ^ 28 + d * 2 ^ 25 + c * 2 ^ 16) 31 28 = kind ∧ bits (kind * 2 ^ 28 + d * 2 ^ 25 + c * 2 ^ 16) 27 25 = d ∧
      bits (kind * 2 ^ 28 + d * 2 ^ 25 + c * 2 ^ 16) 21 16 = c ∧ bits (kind * 2 ^ 28 + d * 2 ^ 25 + c * 2 ^ 16) 17 16 = c % 4 := by
  rw [bits_eq, bits_eq, bits_eq, bits_eq]
  omega

theorem senderWriter_of_firmware {w : Nat} (h : senderKind w = 1) : senderWriter w = .cc (bits w 27 25) (bits w 21 16) := by
  unfold senderWriter
  rw [h]
  rfl

theorem senderWriter_of_sequencer {w : Nat} (h : senderKind w = 2) : senderWriter w = .aseq (bits w 27 25) (bits w 17 16) := by
  unfold senderWriter
  rw [h]
  rfl

theorem senderCc_spec {d c : Nat} (hd : d < 8) (hc : c < 64) : senderKind (senderCc d c) = 1 ∧ senderWriter (senderCc d c) = .cc d c := by
  obtain ⟨hkind, hdie, hcore, -⟩ := sender_fields (kind := 1) (by decide) hd hc
  have hkind : senderKind (senderCc d c) = 1 := hkind
  have hdie : bits (senderCc d c) 27 25 = d := hdie
  have hcore : bits (senderCc d c) 21 16 = c := hcore
  refine ⟨hkind, ?_⟩
  rw [senderWriter_of_firmware hkind, hdie, hcore]

theorem senderAseq_spec {d q : Nat} (hd : d < 8) (hq : q < 4) : senderKind (senderAseq d q) = 2 ∧ senderWriter (senderAseq d q) = .aseq d q := by
  obtain ⟨hkind, hdie, -, hseq⟩ := sender_fields (kind := 2) (c := q) (by decide) hd (by omega)
  have hkind : senderKind (senderAseq d q) = 2 := hkind
  have hdie : bits (senderAseq d q) 27 25 = d := hdie
  have hseq : bits (senderAseq d q) 17 16 = q := hseq.trans (Nat.mod_eq_of_lt hq)
  refine ⟨hkind, ?_⟩
  rw [senderWriter_of_sequencer hkind, hdie, hseq]

/-! ### Posts of the module's own senders (R51, R293) -/

theorem State.postNotice_pending (hmode : s.power.mode = .ready) (hpend : s.writePending (senderWriter sender) = true) (dest : Dest) :
    s.postNotice sender dest pointer tag = { s with kept := s.kept ++ [⟨sender, dest, pointer, tag⟩] } :=
  if_pos ⟨by rw [hmode]; decide, hpend⟩

/-- Where no write of the sender waits, a local post is delivered or refused. -/
theorem State.postNotice_local (hmode : s.power.mode = .ready) (hpend : s.writePending (senderWriter sender) = false)
    (hpost : s.post sender d k n pointer tag = (u, r)) : s.postNotice sender (.local_ d k n) pointer tag =
      if r = .ok then u else u.refused ⟨sender, .local_ d k n, pointer, tag⟩ fun s => { s with kept := s.kept ++ [⟨sender, .local_ d k n, pointer, tag⟩] } := by
  unfold State.postNotice
  dsimp only
  rw [if_neg (by simp [hpend]), hpost]
  cases r with
  | ok => rfl
  | full => exact if_neg (by rw [State.post_ready hmode hpost (by decide)]; decide)
  | denied => exact if_neg (by rw [State.post_ready hmode hpost (by decide)]; decide)

theorem State.refused_of_firmware {dest : Dest} {keep : State → State} (h : senderKind sender = 1) :
    s.refused ⟨sender, dest, pointer, tag⟩ keep = { s with sent := s.sent ++ [.reply (senderWriter sender) .busError] } := if_pos h

theorem State.refused_of_hardware {dest : Dest} {keep : State → State} (h : senderKind sender ≠ 1) : s.refused ⟨sender, dest, pointer, tag⟩ keep = keep s :=
  if_neg h

theorem exec_noticePost_cc {e c : Nat} : exec (.noticePost (.cc e c) d k n pointer tag) s = .next (s.postNotice (senderCc e c) (.local_ d k n) pointer tag) := rfl

theorem exec_noticePost_aseq {e q : Nat} : exec (.noticePost (.aseq e q) d k n pointer tag) s = .next (s.postNotice (senderAseq e q) (.local_ d k n) pointer tag) :=
  rfl

/-! ### Kept notices (R293) -/

theorem exec_noticeRepost_first {i : Nat} (hkept : s.kept[i]? = some ⟨sender, .local_ d k n, pointer, tag⟩) (hfirst : ∀ y ∈ s.kept.take i, y.sender ≠ sender)
    (hpend : s.writePending (senderWriter sender) = false) (hempty : s.noticeAt d k n = none) (hpost : s.post sender d k n pointer tag = (u, .ok)) :
    exec (.noticeRepost i) s = .next { u with kept := s.kept.eraseIdx i } := by
  change execNoticeRepost i s = _
  refine congrArg Host.Outcome.next ?_
  have hnone : (s.kept.take i).any (fun y => decide (y.sender = sender)) = false := by simpa using hfirst
  unfold State.repost
  rw [hkept]
  dsimp only
  rw [hnone, hpend, if_neg (by decide), hempty, if_neg (by simp), hpost]
  dsimp only
  rw [State.post_kept hpost]

theorem exec_noticeRepost_full {i : Nat} (hkept : s.kept[i]? = some ⟨sender, .local_ d k n, pointer, tag⟩) (hkind : senderKind sender ≠ 1)
    (hfull : s.noticeAt d k n ≠ none) : exec (.noticeRepost i) s = .next s := by
  change execNoticeRepost i s = _
  refine congrArg Host.Outcome.next ?_
  unfold State.repost
  rw [hkept]
  dsimp only
  split
  · rfl
  · exact if_pos ⟨hkind, Option.isSome_iff_ne_none.2 hfull⟩

end Posts

section Hosts

/-! ### Hosts (R294, R295, R301) -/

variable {s : State} {d k n port off rid : Nat}

/-- What a host reads of its compare-and-swap (R295). -/
def PostResult.reply : PostResult → Reply
  | .ok => .data (List.replicate 16 0) []
  | .full => .abort
  | .denied => .unsupported

theorem exec_hostCasPost_of {swap : Nat} (hport : port < 8) (hmode : s.power.mode = .ready) (halign : off % 16 = 0) (hoff : off < 0x20100)
    (hslot : (d, k, n) = regionSlot off) {u : State} {r : PostResult} (hpost : s.post (senderHost port rid) d k n (swap % 2 ^ 64) (swap / 2 ^ 64 % 2 ^ 32) = (u, r)) :
    exec (.hostCasPost port off 32 0 swap rid) s = .next (u.send (.reply (.host port rid) r.reply)) := by
  change execHostCasPost port off 32 0 swap rid s = _
  refine congrArg Host.Outcome.next ((State.whenP_pos ⟨hport, by rw [hmode]; decide, by rw [hmode]; decide⟩).trans ?_)
  unfold State.hostCas
  rw [← hslot]
  dsimp only
  rw [hmode, if_neg (by decide), if_neg (by omega), hpost]
  cases r <;> rfl

theorem State.post_mem_ports (hmode : s.power.mode = .ready) {sender pointer tag : Nat} (hslot : slotExists d k n = true) (hmay : s.mayPost (s.binding d k n) sender = true)
    (hempty : s.noticeAt d k n = none) : (s.post sender d k n pointer tag).1.notices = s.notices ++ [⟨d, k, n, leBytes 8 pointer ++ leBytes 4 tag ++ leBytes 4 sender⟩] := by
  rw [State.post_of_admitted hmode hslot hmay hempty]
  exact State.doorbell_notices

theorem State.access_mailbox {op : AccessOp} (hmode : s.power.mode = .ready) (hheld : ∀ h ∈ s.mem.held, ∀ i, h.ag ≠ .host port i) (hoff : off < 0x20000)
    (hlen : opLen op = 16) : ∃ um, s.access ⟨.host port 0, .bar 0 (0x100000 + off), op⟩ = s.mailboxAccess ⟨.host port 0, .bar 0 (0x100000 + off), op⟩ port off um := by
  have hwaits : s.portWaits ⟨.host port 0, .bar 0 (0x100000 + off), op⟩ = false := by
    have hnone : s.mem.held.any (fun h => (match h.ag with | .host q _ => decide (q = port) | _ => false) && ioTarget h.tgt && opWrites h.op) = false := by
      refine List.any_eq_false.2 fun h hh => ?_
      split
      · next q i hag =>
        have hq : q ≠ port := fun hq => hheld h hh i (hq ▸ hag)
        simp [hq]
      · simp
    unfold State.portWaits
    dsimp only
    exact Bool.and_eq_false_iff.2 (.inr hnone)
  unfold State.access
  rw [hmode, if_neg (by decide), if_neg (by decide), hwaits, if_neg Bool.false_ne_true]
  dsimp only
  rw [if_pos rfl]
  unfold State.accessBar0
  dsimp only
  rw [hlen, if_neg (by omega), if_neg (by omega), if_neg (by omega), if_pos (by omega)]
  exact ⟨_, by rw [Nat.add_sub_cancel_left]⟩

theorem State.answer_host (x : HeldAccess) (hx : x.ag = .host port rid) (a : Reply) :
    s.answer x a = { s with sent := s.sent ++ [.reply (.host port rid) a] } := by
  unfold State.answer
  dsimp only
  rw [hx]
  rfl

theorem State.mailboxAccess_read {um : State} {tgt : Target} (halign : off % 16 = 0) (hoff : off < 0x20000) (hslot : (d, k, n) = regionSlot off)
    (hown : s.hostSlot port d k n = true) : s.mailboxAccess ⟨.host port 0, tgt, .read 16 0⟩ port off um = { s with
      sent := s.sent ++ [.reply (.host port 0) (.data (match s.noticeAt d k n with | some z => z.bytes | none => List.replicate 16 0) [])] } := by
  unfold State.mailboxAccess
  rw [← hslot]
  dsimp only
  rw [if_neg (by omega), hown, decide_eq_true halign, if_pos (by decide), State.answer_host _ rfl] <;> rfl

theorem State.mailboxAccess_free {um : State} {tgt : Target} (halign : off % 16 = 0) (hoff : off < 0x20000) (hslot : (d, k, n) = regionSlot off)
    (hown : s.hostSlot port d k n = true) : s.mailboxAccess ⟨.host port 0, tgt, .write (List.replicate 16 0) false⟩ port off um =
      { s.emptySlot d k n with sent := s.sent ++ [.reply (.host port 0) .done] } := by
  unfold State.mailboxAccess
  rw [← hslot]
  dsimp only
  rw [if_neg (by rw [List.length_replicate]; omega), hown, decide_eq_true halign, if_pos (by decide), State.answer_host _ rfl] <;> rfl

theorem State.noticeAt_emptySlot : (s.emptySlot d k n).noticeAt d k n = none := by
  refine List.find?_eq_none.2 fun x hx => ?_
  have h := (List.mem_filter.1 hx).2
  simpa only [Bool.not_eq_true', Bool.not_eq_true] using h

theorem State.mem_emptySlot {z : Notice} (hz : z ∈ s.notices) (h : (z.d, z.k, z.n) ≠ (d, k, n)) : z ∈ (s.emptySlot d k n).notices := by
  refine List.mem_filter.2 ⟨hz, ?_⟩
  simp only [Bool.not_eq_true', Bool.and_eq_false_iff, decide_eq_false_iff_not]
  by_contra hsame
  simp only [not_or, not_not] at hsame
  obtain ⟨⟨rfl, rfl⟩, rfl⟩ := hsame
  exact h rfl

theorem State.dietime_latched (d : Nat) : ((s.setFld d 0 0 MBX_DIETIME_HI.COUNT (s.time d / 2 ^ 32)).reg d .MBX_DIETIME_HI 0 0).toNat =
    s.time d / 2 ^ 32 % 2 ^ 32 := by
  have h := State.fld_setFld_self (s := s) (d := d) (u := 0) (i := 0) (f := MBX_DIETIME_HI.COUNT) (v := s.time d / 2 ^ 32) (by decide) (by decide)
  rw [State.fld, bits_eq] at h
  have hlt := ((s.setFld d 0 0 MBX_DIETIME_HI.COUNT (s.time d / 2 ^ 32)).reg d .MBX_DIETIME_HI 0 0).isLt
  change _ / 2 ^ 0 % 2 ^ 32 = _ % 2 ^ 32 at h
  rw [pow_zero, Nat.div_one] at h
  exact (Nat.mod_eq_of_lt hlt).symm.trans h

end Hosts

end Sys2Proof.Machine

/-! Settling O41: notices posted, and notices taken (R245, R294, R314, R323). -/

namespace Sys2Proof.Machine

open Sys2Proof

section Taken

variable {s t : State} {d k : Nat} {x : Notice}

/-! ### Effects that wait for memory -/

/-- What an effect that used lines obtained from hosts leaves, but for those lines (R56). -/
theorem State.useObtained_frame (a n : Nat) : s.useObtained a n =
    { s with mem := { s.mem with obtained := (s.useObtained a n).mem.obtained, owned := (s.useObtained a n).mem.owned } } := rfl

/-- An effect whose one access can be served takes place. -/
theorem State.withMem_of_ready {ag : Agent} {a n : Nat} {w : Bool} {f : State → State} (h : s.ready ag a n w = true) :
    s.withMem ag [(a, n, w)] f = (f s).useObtained a n := if_pos (by simp [h])

theorem State.SameMemory.seen (h : s.SameMemory t) (hfree : t.free = s.free) (a n : Nat) : t.seen a n = s.seen a n := by
  unfold State.seen
  rw [hfree]
  simp only [h.poisonedAt, h.readBytes]

/-! ### Attention sequencers (R323, R326) -/

/-- The step of a notice, before its rows are read. -/
def State.newStep (s : State) (d k : Nat) (x : Notice) : Step where
  d := d
  k := k
  id := s.kv.stepNext
  pointer := x.pointer
  tag := x.tag
  sender := x.sender
  header := s.seen x.pointer 64
  model := ((s.slotModel d k x.n).getD (kvModel 0 [])).addr
  rows := []
  failed := none
  ended := false

/-- The failure of precedence 1 that a step has (R325). -/
def State.stepFailed (s : State) (d k : Nat) (x : Notice) : Option Nat :=
  if (s.newStep d k x).headerBad ((s.slotModel d k x.n).getD (kvModel 0 [])).layers then some 0x0002
  else if !s.posterReaches x.sender (s.newStep d k x).rowsAddr (32 * (s.newStep d k x).nrows) then some 0x0008 else none

/-- The step of a notice with its rows as read. -/
def State.readStep (s : State) (d k : Nat) (x : Notice) : Step :=
  { s.newStep d k x with
    rows := if (s.stepFailed d k x).isSome then [] else (List.range (s.newStep d k x).nrows).map fun i => freshRow (s.seen ((s.newStep d k x).rowsAddr + 32 * i) 32)
    failed := s.stepFailed d k x }

/-- The state with a step accepted. -/
def State.stepTaken (s : State) (d k : Nat) (x : Notice) : State :=
  (s.emptySlot d k x.n).onKv fun y => { y with steps := s.liveSteps ++ [s.readStep d k x], stepNext := y.stepNext + 1 }

theorem State.aseqTake_of (hnext : s.nextNotice d k 1 0 = some x)
    (hroom : (s.liveSteps.filter fun y => y.d = d && y.k = k).length < 256) (hmode : s.power.mode ≠ .safe) : s.aseqTake d k =
      if !s.posterReaches x.sender x.pointer 64 then (s.emptySlot d k x.n).mapErr (.aseq d k) false x.pointer
      else s.withMem (.aseq d k) [(x.pointer, 64, false)] fun s => s.stepTaken d k x := by
  unfold State.aseqTake
  rw [hnext]
  dsimp only
  rw [if_neg (by rintro (h | h); exacts [absurd h (by omega), hmode h])]
  rfl

/-! ### Control cores (R245, R314) -/

/-- The call of KV_SERVICE for a notice. -/
def Notice.call (x : Notice) : Call := ⟨2, 0x100, x.pointer, 0, some (x.n, x.bytes), 0, false, 0, false, none, none⟩

/-- The state with a notice taken and KV_SERVICE called for it. -/
def State.called (s : State) (d c : Nat) (x : Notice) : State :=
  (s.emptySlot d (c / 16) x.n).onCc d c fun m => { m.took 19 with call := some x.call, lastSource := 2, lastId := 0x100 }

/-- A record whose OP the routine does not serve completes at once. -/
def State.calledOrDone (s : State) (d c : Nat) : State :=
  match s.kvReq d c with
  | some q => if 1 ≤ q.op ∧ q.op ≤ 6 then s else s.kvDone q 3 0x0002
  | none => s

theorem State.ccTake_of {c : Nat} (hnext : s.nextNotice d (c / 16) 0 (c % 16) = some x) (hpresent : s.corePresent d c = true)
    (htakes : (s.core d c).takes 19 true = true) (hdue : (s.core d c).cc.due = none) (hfault : (s.core d c).faulted = none)
    (hpatch : (s.core d c).patchDue = none) (hmode : s.power.mode ≠ .safe) : s.ccTake d c =
      if !s.posterReaches x.sender x.pointer 64 then (s.emptySlot d (c / 16) x.n).mapErr (.cc d c) false x.pointer
      else s.withMem (.cc d c) [(x.pointer, 64, false)] fun s => (s.called d c x).calledOrDone d c := by
  unfold State.ccTake
  dsimp only
  rw [hnext]
  dsimp only
  rw [hpresent, htakes, hdue, hfault, hpatch, decide_eq_false hmode, if_neg (by decide)]
  rfl

theorem State.called_sameMemory (c : Nat) : s.SameMemory (s.called d c x) := ⟨rfl, rfl, fun _ => rfl⟩

theorem State.called_call (c : Nat) : ((s.called d c x).core d c).cc.call = some x.call := by
  unfold State.called
  rw [State.onCc_core]

/-- The request that a control core serves after taking a notice is its record. -/
theorem State.kvReq_called {c : Nat} {q : KvReq} (h : (s.called d c x).kvReq d c = some q) : q.rec_ = s.seen x.pointer 64 := by
  unfold State.kvReq at h
  split at h
  · next y hy =>
    obtain rfl : x.call = y := Option.some.inj ((s.called_call c).symm.trans (Core.routine_spec hy).1)
    have hnote : x.call.notice = some (x.n, x.bytes) := rfl
    rw [hnote] at h
    dsimp only at h
    rw [if_pos ⟨rfl, rfl⟩] at h
    rw [← Option.some.inj h]
    exact (s.called_sameMemory c).seen rfl x.pointer 64
  · cases h

theorem State.calledOrDone_of_served {c : Nat} (h1 : 1 ≤ field (s.seen x.pointer 64) 0 1) (h6 : field (s.seen x.pointer 64) 0 1 ≤ 6) :
    (s.called d c x).calledOrDone d c = s.called d c x := by
  unfold State.calledOrDone
  split
  · next q hq =>
    refine if_pos ?_
    unfold KvReq.op
    rw [State.kvReq_called hq]
    exact ⟨h1, h6⟩
  · rfl

theorem exec_ccTake {i : Nat} (hi : i < 16) {c : Instr} (hc : c = .noticeTake d k i ∨ c = .ccNoticeDispatch d (16 * k + i)) :
    exec c s = .next (s.ccTake d (16 * k + i)) := by
  rcases hc with rfl | rfl
  · exact congrArg Host.Outcome.next (if_pos hi)
  · rfl

theorem exec_aseqTake : exec (.noticeTake d k 16) s = .next (s.aseqTake d k) := rfl

end Taken

/-- Settles O41: a post fills an empty slot that admits it, fails otherwise, and waits for the sender's writes; a notice taken empties its slot. -/
theorem noticesFillSlotsAndStartWork : Obligations.NoticesFillSlotsAndStartWork := by
  refine ⟨⟨?_, ?_, ?_, ?_, ?_, ?_, ?_, ?_, ?_, ?_, ?_, ?_⟩, ?_, ?_, ?_⟩
  · intro s d k n from_ pointer tag hmode hslot hmay hempty
    exact ⟨congrArg Prod.snd (State.post_of_admitted hmode hslot hmay hempty), State.post_mem_ports hmode hslot hmay hempty⟩
  · intro s d k n from_ pointer tag hmode hslot hmay hfull
    rw [State.post_of_full hmode hslot hmay hfull]
    exact ⟨rfl, State.countReject_eq _⟩
  · intro s d k n from_ pointer tag hmode h
    rw [State.post_of_denied hmode h]
    exact ⟨rfl, State.countReject_eq _⟩
  · intro s u d c d' k n pointer tag r hd hc hmode hpend hpost
    obtain ⟨hkind, hwriter⟩ := senderCc_spec hd hc
    rw [exec_noticePost_cc, State.postNotice_local hmode (by rw [hwriter, hpend]) hpost, State.refused_of_firmware hkind, hwriter]
  · intro s u d q d' k n pointer tag r hd hq hmode hpend hpost
    obtain ⟨hkind, hwriter⟩ := senderAseq_spec hd hq
    rw [exec_noticePost_aseq, State.postNotice_local hmode (by rw [hwriter, hpend]) hpost, State.refused_of_hardware (by rw [hkind]; decide)]
  · intro s d c d' k n pointer tag hd hc hmode hpend
    obtain ⟨-, hwriter⟩ := senderCc_spec hd hc
    rw [exec_noticePost_cc, State.postNotice_pending hmode (by rw [hwriter, hpend])]
  · exact fun s d c e d' k n pointer tag => rfl
  · exact fun s u i d k n from_ pointer tag hkept hfirst hpend hempty hpost => exec_noticeRepost_first hkept hfirst hpend hempty hpost
  · exact fun s i d k n from_ pointer tag hkept hkind hfull => exec_noticeRepost_full hkept hkind hfull
  · intro s port off swap rid d k n hport hmode halign hoff hslot
    cases hpost : s.post (senderHost port rid) d k n (swap % 2 ^ 64) (swap / 2 ^ 64 % 2 ^ 32) with
    | mk u r =>
      refine ⟨_, exec_hostCasPost_of hport hmode halign hoff hslot hpost, fun hexists hmay hempty => ?_, fun hexists hmay hfull => ?_⟩
      · have hnotices := State.post_mem_ports (pointer := swap % 2 ^ 64) (tag := swap / 2 ^ 64 % 2 ^ 32) hmode hexists hmay hempty
        rw [hpost] at hnotices
        obtain ⟨-, rfl⟩ := Prod.mk.inj (hpost.symm.trans (State.post_of_admitted hmode hexists hmay hempty))
        exact ⟨List.getLast?_concat, hnotices⟩
      · obtain ⟨rfl, rfl⟩ := Prod.mk.inj (hpost.symm.trans (State.post_of_full hmode hexists hmay hfull))
        rw [State.countReject_eq]
        exact ⟨rfl, rfl⟩
  · intro s port off d k n hport hmode hheld halign hoff hslot hown
    constructor
    · obtain ⟨um, haccess⟩ := State.access_mailbox (op := .read 16 0) hmode hheld hoff rfl
      exact congrArg Host.Outcome.next ((State.whenP_pos hport).trans (haccess.trans (State.mailboxAccess_read halign hoff hslot hown)))
    · obtain ⟨um, haccess⟩ := State.access_mailbox (op := .write (List.replicate 16 0) false) hmode hheld hoff rfl
      refine ⟨_, congrArg Host.Outcome.next ((State.whenP_pos hport).trans (haccess.trans (State.mailboxAccess_free halign hoff hslot hown))), ?_, rfl, ?_⟩
      · exact State.noticeAt_emptySlot
      · exact fun z hz hne => State.mem_emptySlot hz hne
  · intro s d hd
    exact ⟨_, congrArg Host.Outcome.next (State.whenP_pos hd), s.dietime_latched d, rfl⟩
  · intro s d k x hnext hroom hmode hreach hready
    have htake : s.aseqTake d k = (s.stepTaken d k x).useObtained x.pointer 64 := by
      rw [State.aseqTake_of hnext hroom hmode, hreach, if_neg (by decide), State.withMem_of_ready hready]
    refine ⟨_, s.readStep d k x, exec_aseqTake.trans (congrArg Host.Outcome.next htake), rfl, rfl, rfl, rfl, rfl, rfl, rfl, rfl, rfl, ?_, ?_, rfl, ?_, rfl, rfl⟩
    · intro m hm
      have hfailed : (s.readStep d k x).failed = s.stepFailed d k x := rfl
      have hmodel : (s.readStep d k x).model = ((s.slotModel d k x.n).getD (kvModel 0 [])).addr := rfl
      rw [hfailed, hmodel]
      unfold State.stepFailed
      rw [hm]
      exact ⟨rfl, rfl⟩
    · intro hnone
      have hfailed : s.stepFailed d k x = none := hnone
      change (if (s.stepFailed d k x).isSome then [] else _) = _
      rw [hfailed]
      rfl
    · exact State.noticeAt_emptySlot
  · intro s d k i x c hi hk hc hnext hpresent htakes hdue hfault hpatch hmode
    have hdiv : (16 * k + i) / 16 = k := by omega
    have hmod : (16 * k + i) % 16 = i := by omega
    have htake := State.ccTake_of (c := 16 * k + i) (by rw [hdiv, hmod]; exact hnext) hpresent htakes hdue hfault hpatch hmode
    rw [exec_ccTake hi hc, htake]
    refine ⟨fun hreach hready h1 h6 => ?_, fun hreach => ?_⟩
    · rw [hreach, if_neg (by decide), State.withMem_of_ready hready, State.calledOrDone_of_served h1 h6]
      refine ⟨_, rfl, ?_, ?_, rfl, rfl⟩
      · exact s.called_call (16 * k + i)
      · change ((s.emptySlot d ((16 * k + i) / 16) x.n).noticeAt d k x.n) = none
        rw [hdiv]
        exact State.noticeAt_emptySlot
    · rw [hreach, Bool.not_false, if_pos rfl, hdiv]
  · intro s d k x hnext hroom hmode hreach
    rw [exec_aseqTake, State.aseqTake_of hnext hroom hmode, hreach, Bool.not_false, if_pos rfl]

end Sys2Proof.Machine

/-! Settling O42: attention steps (R38, R40, R316, R325, R326, R330, R332). -/

namespace Sys2Proof.Machine

open Sys2Proof

section Steps

variable {s : State} {d k n : Nat} {x : Step}

/-! ### Steps that run, and steps that are held -/

theorem State.stepRun_of {kind : Nat} (hat : s.stepAt d k n = some x) (hkind : x.kind = kind) (hfailed : x.failed = none) (hmode : s.power.mode ≠ .safe) :
    s.stepRun d k n kind = if s.stepHeld x then s else (List.range x.rows.length).foldl (fun s i => s.rowRun x i 10) s := by
  unfold State.stepRun
  rw [hat]
  dsimp only
  refine if_congr ?_ rfl rfl
  simp [hkind, hfailed, hmode]

theorem exec_stepRun : ∀ p ∈ [(Instr.stepDecode, 1), (Instr.stepAttend, 2), (Instr.stepAppend, 3)], exec (p.1 d k n) s = .next (s.stepRun d k n p.2) := by
  intro p hp
  simp only [List.mem_cons, List.not_mem_nil, or_false] at hp
  rcases hp with rfl | rfl | rfl <;> rfl

/-! ### Failures of rows (R325) -/

/-- A failure of higher precedence number leaves the one that a row has. -/
theorem StepRow.fail_fail (w : StepRow) {a a' : Nat} (b c b' c' : Nat) (h : a < a') : (w.fail a b c).fail a' b' c' = w.fail a b c := by
  have hprec : ¬a' < (w.fail a b c).prec := by
    unfold StepRow.fail
    split
    · exact Nat.not_lt.2 h.le
    · omega
  exact if_neg hprec

theorem State.rowNext_of_failed_check {w : StepRow} {i : Nat} {f : Nat × Nat × Nat} (hphase : w.phase = 0) (hprec : w.prec = 99)
    (hcheck : s.rowCheck x i w = some f) : s.rowNext x i w = s.onRow x.id i fun w => w.fail f.1 f.2.1 f.2.2 := by
  unfold State.rowNext
  dsimp only
  rw [hphase, if_neg (by decide), if_neg (by omega), hcheck]
  rfl

theorem State.rowNext_of_append {w : StepRow} {i : Nat} (hphase : w.phase = 3) (hprec : w.prec = 99) : s.rowNext x i w = s.appendToken x i w := by
  unfold State.rowNext
  dsimp only
  rw [hphase, if_neg (by decide), if_neg (by omega)]
  rfl

/-! ### Effects over several accesses -/

theorem State.withMem_of_all {ag : Agent} {ps : List (Nat × Nat × Bool)} {f : State → State} (h : ∀ p ∈ ps, s.ready ag p.1 p.2.1 p.2.2 = true) :
    s.withMem ag ps f = ps.foldl (fun s p => s.useObtained p.1 p.2.1) (f s) := if_pos (List.all_eq_true.2 h)

/-- Lines used up leave the bytes of memory and the KV manager. -/
theorem State.foldl_useObtained (ps : List (Nat × Nat × Bool)) : (ps.foldl (fun s p => s.useObtained p.1 p.2.1) s).mem.cells = s.mem.cells ∧
    (ps.foldl (fun s p => s.useObtained p.1 p.2.1) s).kv = s.kv := by
  induction ps generalizing s with
  | nil => exact ⟨rfl, rfl⟩
  | cons p ps ih => exact ih

/-- The append of a row's token where LENGTH stands as the row found it (R39, R326). -/
theorem State.appendToken_of {i : Nat} {w : StepRow} {m : KvModel} {r : SeqRow} {ws : List (Nat × List Byte)} {acc : List (Nat × Nat × Bool)}
    (hm : m = s.model x.model) (hr : r = s.seqRow m w.seq) (hws : ws = s.appendWrites x w m r)
    (hacc : acc = (w.kvAddr, kvPitch m * (m.ngroups * m.h * 2), false) :: ws.map (fun y => (y.1, y.2.length, true))) :
    (r.length = w.length → (∀ a ∈ acc, s.ready (.aseq x.d x.k) a.1 a.2.1 a.2.2 = true) →
      s.appendToken x i w = acc.foldl (fun s a => s.useObtained a.1 a.2.1)
        (((ws.foldl (fun s y => s.writeBytes y.1 y.2) s).setRow r 0 4 (r.length + 1)).onRow x.id i fun w => { w with phase := 4, appended := true, length := r.length + 1 })) ∧
    (r.length ≠ w.length → s.appendToken x i w = s.onRow x.id i fun w => { w with phase := 1 }) := by
  unfold State.appendToken
  dsimp only
  rw [← hm, ← hr, ← hws, ← hacc]
  refine ⟨fun hlen hready => ?_, fun hlen => if_pos hlen⟩
  rw [if_neg (not_not.2 hlen), State.withMem_of_all hready]

/-! ### Pages that open (R316) -/

theorem exec_kvAllocPage_of {c i : Nat} {w : StepRow} (hrow : s.allocRow d (c / 16) = some (x, i, w)) (hpresent : s.corePresent d c = true)
    (hcall : (s.core d c).cc.call = none) : exec (.kvAllocPage d c) s = .next
      (if (s.seqRow (s.model x.model) w.seq).length ≠ w.length then s.onRow x.id i fun w => { w with phase := 1 }
      else s.orStarve x i (s.model x.model) (s.allocPages (s.model x.model) (s.seqRow (s.model x.model) w.seq) w.seq
        ((s.seqRow (s.model x.model) w.seq).length / 256) (s.newPlanes (s.model x.model) (s.seqRow (s.model x.model) w.seq) w.seq
          ((s.seqRow (s.model x.model) w.seq).length / 256))) [] fun s => s.onRow x.id i fun w => { w with phase := 3 }) := by
  change execKvAllocPage d c s = _
  unfold execKvAllocPage
  refine congrArg Host.Outcome.next ?_
  rw [hrow]
  exact State.when_pos (by simp [hpresent, hcall])

/-! ### Core mode (R332) -/

theorem getElem?_modAt_none {α : Type} {f : α → α} {l : List α} {i j : Nat} (h : l[j]? = none) : (modAt f l i)[j]? = none := by
  induction l generalizing i j with
  | nil => exact h
  | cons a l ih =>
    cases j with
    | zero => simp at h
    | succ j =>
      cases i with
      | zero => exact h
      | succ i => exact ih h

/-- A field of one bit holds 0 or 1. -/
theorem State.fld_lt_two {u i : Nat} {f : RF} (h : f.hi = f.lo) : s.fld d u i f < 2 := by
  have hwidth : f.hi + 1 - f.lo = 1 := by omega
  rw [State.fld, bits_eq, hwidth]
  exact Nat.mod_lt _ (by decide)

/-- A row's partial or failure from one range of pages. -/
def StepRow.addRange (head : Nat) (r : Except Nat Partial) (w : StepRow) : StepRow :=
  match r with
  | .ok p => { w with parts := w.parts ++ [(⟨head, 2, 0, p⟩ : RowPart)] }
  | .error why => seqFail w 4 why

theorem StepRow.fail_core (w : StepRow) (a b c : Nat) : (w.fail a b c).core = w.core := by
  unfold StepRow.fail
  split <;> rfl

theorem seqFail_core (w : StepRow) (status reason : Nat) : (seqFail w status reason).core = w.core := by
  unfold seqFail
  split_ifs
  · rfl
  · exact w.fail_core ..
  · exact w.fail_core ..
  · exact w.fail_core ..

theorem StepRow.addRange_core (head : Nat) (r : Except Nat Partial) (w : StepRow) : (w.addRange head r).core = w.core := by
  cases r with
  | ok p => rfl
  | error why => exact seqFail_core w 4 why

theorem StepRow.foldl_addRange_core {α : Type} (head : Nat) (f : α → StepRow → Except Nat Partial) (l : List α) (w : StepRow) :
    (l.foldl (fun w a => w.addRange head (f a w)) w).core = w.core := by
  induction l generalizing w with
  | nil => rfl
  | cons a l ih => rw [List.foldl_cons, ih, StepRow.addRange_core]

/-- The pages of a row's first query head in core mode. -/
def StepRow.headPages (w : StepRow) (t : HeadPage) : List HeadPage := w.core.filter fun y => y.head = t.head

/-- A row after one of its query heads has run in core mode. -/
def State.coreRow (s : State) (x : Step) (w : StepRow) (t : HeadPage) (v : StepRow) : StepRow :=
  (blocksOf (((w.headPages t).length + popCount 16 (s.fld x.d x.k 0 ASEQ_CORES.MASK) - 1) / popCount 16 (s.fld x.d x.k 0 ASEQ_CORES.MASK)) (w.headPages t).length
    (w.headPages t)).foldl (fun v ts => v.addRange t.head (s.coreRange x v (s.model x.model) (s.seqRow (s.model x.model) w.seq) ts))
    { v with core := v.core.filter fun y => y.head ≠ t.head }

theorem State.coreRow_core (w : StepRow) (t : HeadPage) (v : StepRow) : (s.coreRow x w t v).core = v.core.filter fun y => y.head ≠ t.head :=
  StepRow.foldl_addRange_core ..

theorem State.coreMode_of {i : Nat} {w : StepRow} {t : HeadPage} {rest : List HeadPage} (hcore : w.core = t :: rest)
    (hmask : popCount 16 (s.fld x.d x.k 0 ASEQ_CORES.MASK) ≠ 0) : s.coreMode x i w =
      s.withMem (.engine x.d (16 * x.k) 4) ((w.headPages t).map fun y => (s.frameAddr y.frame, s.slotLen y.frame, false)) fun u =>
        u.onRow x.id i (State.coreRow s x w t) := by
  unfold State.coreMode
  dsimp only
  rw [hcore]
  dsimp only [List.head?]
  rw [if_neg hmask, ← hcore]
  rfl

/-- A head that has run in core mode is on no row of the step's place any more. -/
theorem State.onRow_coreRow {i : Nat} {w : StepRow} {t : HeadPage} : ∀ z ∈ (s.onRow x.id i (s.coreRow x w t)).kv.steps, z.id = x.id →
    ∀ v, z.rows[i]? = some v → ∀ y ∈ v.core, y.head ≠ t.head := by
  intro z hz hid v hv y hy
  obtain ⟨z', -, rfl⟩ := List.mem_map.1 (show z ∈ s.kv.steps.map _ from hz)
  have hid' : z'.id = x.id := by
    by_cases h : z'.id = x.id
    · exact h
    · exact absurd (by rwa [if_neg h] at hid) h
  rw [if_pos hid'] at hv
  change (modAt (s.coreRow x w t) z'.rows i)[i]? = some v at hv
  cases h : z'.rows[i]? with
  | none => rw [getElem?_modAt_none h] at hv; cases hv
  | some w' =>
    obtain rfl : s.coreRow x w t w' = v := Option.some.inj ((getElem?_modAt_self h).symm.trans hv)
    rw [State.coreRow_core] at hy
    exact of_decide_eq_true (List.mem_filter.1 hy).2

/-! ### Completion (R38, R325, R326) -/

/-- The state with a step's outcome written into its rows and its header. -/
def State.outcomeWritten (s : State) (x : Step) : State :=
  (((s.failedRows x).foldl (fun s a => s.writeBytes (a + 4) (leBytes 1 3 ++ leBytes 1 0 ++ leBytes 2 0x0002)) s).writeBytes
    (x.pointer + 0x20) (leBytes 1 x.outcome.1)).writeBytes (x.pointer + 0x22) (leBytes 2 x.outcome.2.1 ++ leBytes 2 x.outcome.2.2)

/-- The state with a failure kept in the sequencer's error register, unless it holds one. -/
def State.outcomeLatched (s : State) (d k : Nat) (o : Nat × Nat × Nat) : State :=
  if o.1 = 0 ∨ s.fld d k 0 ASEQ_ERR.VALID = 1 then s else s.setReg d .ASEQ_ERR k 0 (BitVec.ofNat 32 (2 ^ 31 + o.1 * 2 ^ 24 + o.2.1))

/-- The state with a step ended and its completion notice sent. -/
def State.stepEnded (s : State) (d k : Nat) (x : Step) : State :=
  (x.rows.foldl (fun s w => s.endClosing w.seq) (s.onStep x.id fun y => { y with ended := true })).replyIf (senderAseq d k) x.reply x.pointer x.tag

theorem exec_stepComplete_of (hat : s.stepAt d k n = some x) (hended : x.ended = false) (hrows : ∀ w ∈ x.rows, w.phase = 9)
    (hready : ∀ a ∈ (x.pointer, 64, true) :: (s.failedRows x).map (fun a => (a, 32, true)), s.ready (.aseq d k) a.1 a.2.1 a.2.2 = true) :
    exec (.stepComplete d k n) s = .next (((x.pointer, 64, true) :: (s.failedRows x).map (fun a => (a, 32, true))).foldl (fun s a => s.useObtained a.1 a.2.1)
      (((s.outcomeWritten x).outcomeLatched d k x.outcome).stepEnded d k x)) := by
  have hall : (x.rows.all fun w => decide (w.phase = 9)) = true := by simpa using hrows
  change execStepComplete d k n s = _
  unfold execStepComplete
  refine congrArg Host.Outcome.next ?_
  rw [hat]
  dsimp only
  rw [State.when_pos (by rw [hended, hall]; rfl)]
  exact State.withMem_of_all hready

theorem Step.outcome_ok (hfailed : x.failed = none) (hrows : ∀ w ∈ x.rows, w.status = 0) : x.outcome = (0, 0, 0) := by
  have hnone : x.rows.filter (fun w => decide (w.status ≠ 0)) = [] := List.filter_eq_nil_iff.2 fun w hw => by simp [hrows w hw]
  unfold Step.outcome
  rw [hfailed]
  dsimp only
  rw [hnone]

end Steps

/-- Settles O42: rows run by their events unless an earlier step holds them, and a step that is done writes its outcome before it lets others go on. -/
theorem attentionStepsRunTheirRows : Obligations.AttentionStepsRunTheirRows := by
  refine ⟨?_, ?_, ?_, ?_, ?_, ?_, ?_, ?_, ?_, ?_, ?_⟩
  · intro p hp s d k n x hat hkind hfailed hmode
    rw [exec_stepRun p hp, State.stepRun_of hat hkind hfailed hmode]
    exact ⟨fun h => by rw [h, if_neg Bool.false_ne_true], fun h => by rw [h, if_pos rfl]⟩
  · intro s x y v w hy hd hk hid hlayer hfailed hv hw hseq
    refine List.any_eq_true.2 ⟨y, hy, ?_⟩
    rw [decide_eq_true ⟨hd, hk, hid, hlayer⟩, hfailed]
    exact List.any_eq_true.2 ⟨w, hw, List.any_eq_true.2 ⟨v, hv, decide_eq_true hseq.symm⟩⟩
  · intro s y hy h
    refine List.mem_filter.2 ⟨hy, ?_⟩
    rcases h with h | h <;> simp [h]
  · exact fun s x i w f hphase hprec hcheck => State.rowNext_of_failed_check hphase hprec hcheck
  · exact fun w a b c a' b' c' h => w.fail_fail b c b' c' h
  · intro s x i w m r ws acc hphase hprec hm hr hws hacc
    rw [State.rowNext_of_append hphase hprec]
    exact State.appendToken_of hm hr hws hacc
  · rintro s d c i x w m r got hrow hpresent hcall rfl rfl rfl
    rw [exec_kvAllocPage_of hrow hpresent hcall]
    refine ⟨fun hlen => ?_, fun hlen => by rw [if_pos hlen]⟩
    rw [if_neg (not_not.2 hlen)]
    unfold State.orStarve
    refine ⟨fun u hu => ?_, fun p hp hfree => ?_, fun p hp hfree => ?_⟩
    · rw [hu]
      rfl
    · rw [hp]
      exact congrArg Host.Outcome.next (if_pos hfree)
    · rw [hp]
      exact congrArg Host.Outcome.next (if_neg (Bool.eq_false_iff.1 hfree))
  · intro s d k n i x hat
    change execPartialMerge d k n i s = _
    unfold execPartialMerge
    rw [hat]
  · intro s d k n i x w t rest hat hrow hcore hmask hready
    have hexec : exec (.coreMode d k n i) s = .next (s.coreMode x i w) := by
      change execCoreMode d k n i s = _
      unfold execCoreMode
      rw [hat]
      dsimp only
      rw [hrow]
    rw [hexec, State.coreMode_of hcore hmask, State.withMem_of_all]
    · obtain ⟨hcells, hkv⟩ := State.foldl_useObtained (s := s.onRow x.id i (s.coreRow x w t))
        ((w.headPages t).map fun y => (s.frameAddr y.frame, s.slotLen y.frame, false))
      refine ⟨_, rfl, hcells, ?_⟩
      rw [hkv]
      exact State.onRow_coreRow
    · intro p hp
      obtain ⟨y, hy, rfl⟩ := List.mem_map.1 hp
      exact hready y (List.mem_filter.1 hy).1
  · rintro s v u d k n x bad acc hat hended hrows rfl rfl hready rfl hkeep hlatch
    rw [exec_stepComplete_of hat hended hrows hready]
    have hu : u = (s.outcomeWritten x).outcomeLatched d k x.outcome := by
      unfold State.outcomeLatched
      by_cases h : x.outcome.1 = 0 ∨ (s.outcomeWritten x).fld d k 0 ASEQ_ERR.VALID = 1
      · rw [if_pos h]
        exact hkeep h
      · have hvalid : (s.outcomeWritten x).fld d k 0 ASEQ_ERR.VALID < 2 := State.fld_lt_two rfl
        rw [if_neg h]
        exact hlatch (fun h0 => h (.inl h0)) (by rw [not_or] at h; exact (by omega : (s.outcomeWritten x).fld d k 0 ASEQ_ERR.VALID = 0))
    rw [hu]
    rfl
  · exact fun x hfailed hrows => Step.outcome_ok hfailed hrows

end Sys2Proof.Machine

/-! Settling O43: requests to the KV service (R312 to R316). -/

namespace Sys2Proof.Machine

open Sys2Proof

section Requests

variable {s : State} {d c op : Nat} {state : Option Nat} {q : KvReq} {m : KvModel}

/-- A request of its operation that fails a check completes with what the check gives. -/
theorem State.kvServe_of_failed {f : KvReq → KvModel → SeqRow → State → State} {st why : Nat} (hreq : s.kvReq d c = some q) (hop : q.op = op)
    (hready : s.ready (.cc d c) q.pointer 64 true = true) (hcheck : s.kvCheck q state = some (st, why)) :
    s.kvServe d c op state f = (s.kvDone q st why).useObtained q.pointer 64 := by
  unfold State.kvServe
  rw [hreq]
  dsimp only
  rw [if_neg (not_not.2 hop), State.withMem_of_ready hready, hcheck]

/-- A request of its operation that passes its checks is carried out with its model and row. -/
theorem State.kvServe_of_passed {f : KvReq → KvModel → SeqRow → State → State} (hreq : s.kvReq d c = some q) (hop : q.op = op)
    (hready : s.ready (.cc d c) q.pointer 64 true = true) (hcheck : s.kvCheck q state = none) (hmodel : q.model = some m) :
    s.kvServe d c op state f = (f q m (s.seqRow m q.seq) s).useObtained q.pointer 64 := by
  unfold State.kvServe
  rw [hreq]
  dsimp only
  rw [if_neg (not_not.2 hop), State.withMem_of_ready hready, hcheck, hmodel]

theorem exec_kvCommand {p : (Nat → Nat → Instr) × Nat × Option Nat}
    (hp : p ∈ [(Instr.kvOpen, 1, some 0), (Instr.reserve, 2, some 1), (Instr.commit, 3, some 1), (Instr.share, 4, some 0), (Instr.kvFree, 5, none), (Instr.kvPrefetch, 6, some 2)]) :
    ∃ f, exec (p.1 d c) s = .next (s.kvServe d c p.2.1 p.2.2 f) := by
  simp only [List.mem_cons, List.not_mem_nil, or_false] at hp
  rcases hp with rfl | rfl | rfl | rfl | rfl | rfl
  · change ∃ f, execKvOpen d c s = _
    exact ⟨_, by unfold execKvOpen; rfl⟩
  · change ∃ f, execReserve d c s = _
    exact ⟨_, by unfold execReserve; rfl⟩
  · change ∃ f, execCommit d c s = _
    exact ⟨_, by unfold execCommit; rfl⟩
  · change ∃ f, execShare d c s = _
    exact ⟨_, by unfold execShare; rfl⟩
  · change ∃ f, execKvFree d c s = _
    exact ⟨_, by unfold execKvFree; rfl⟩
  · change ∃ f, execKvPrefetch d c s = _
    exact ⟨_, by unfold execKvPrefetch; rfl⟩

/-! ### RESERVE (R314, R315) -/

/-- The pages of a RESERVE, by plane. -/
def KvReq.plan (q : KvReq) (m : KvModel) (r : SeqRow) : List (Nat × Nat) := (List.range m.planes).flatMap fun p => (q.newPages r).map fun n => (p, n)

/-- What a RESERVE that may take its frames does. -/
def State.reserved (s : State) (d c : Nat) (q : KvReq) (m : KvModel) (r : SeqRow) : State :=
  match s.reserveAll m r q.seq (q.plan m r) with
  | .error p => if s.mayFree m p then s.starve m p else s.kvDone q 5 0x0063
  | .ok (t, addrs) =>
    let bytes := frameList (q.listWords r) (q.listWords r - (q.newPages r).length) addrs m.planes
    s.withMem (.cc d c) [(q.list, bytes.length, true)] fun _ => ((t.writeBytes q.list bytes).setRow r 0x18 4 (r.reserved + q.n)).kvDone q 0 0

theorem exec_reserve_of {r : SeqRow} (hreq : s.kvReq d c = some q) (hop : q.op = 2) (hready : s.ready (.cc d c) q.pointer 64 true = true)
    (hcheck : s.kvCheck q (some 1) = none) (hmodel : q.model = some m) (hr : r = s.seqRow m q.seq) (hwin : r.windowed = true → r.reserved = 0)
    (hlen : r.reserved + q.n ≤ 1048576) (hmax : r.windowed = false → ∀ n ∈ q.newPages r, n < r.pagesMax) :
    exec (.reserve d c) s = .next ((s.reserved d c q m r).useObtained q.pointer 64) := by
  have hpages : (!r.windowed && (q.newPages r).any (fun n => decide (r.pagesMax ≤ n))) = false := by
    cases h : r.windowed with
    | true => rfl
    | false => simpa using hmax h
  refine congrArg Host.Outcome.next ((State.kvServe_of_passed hreq hop hready hcheck hmodel).trans ?_)
  dsimp only
  rw [← hr, if_neg (by omega), hpages, if_neg Bool.false_ne_true, if_neg (by rintro ⟨h, h'⟩; exact h' (hwin h))]
  rfl

/-! ### SHARE (R312, R317) -/

theorem exec_share_of {v w : State} {src : SeqRow} {pages : List PageId} (hreq : s.kvReq d c = some q) (hop : q.op = 4)
    (hready : s.ready (.cc d c) q.pointer 64 true = true) (hcheck : s.kvCheck q (some 0) = none) (hmodel : q.model = some m) (hsrc : src = s.seqRow m q.aux)
    (hlen : q.n ≤ src.length) (hwin : src.windowed = false)
    (hpages : pages = ((List.range m.planes).flatMap fun p => (List.range ((q.n + 255) / 256)).map fun i => (⟨q.aux, p, i⟩ : PageId)))
    (hpoison : ∀ pg ∈ pages, enPoison (s.entryWord pg) = false) (hgather : s.gatherPages q pages = (v, true))
    (hpresent : ∀ pg ∈ pages, enPresent (v.entryWord pg) = true) (hopen : v.openRow m (s.seqRow m q.seq) src.flags src.pagesMax 0 src.home q.n q.n 2 = some w) :
    exec (.share d c) s = .next (((pages.foldl (fun s pg =>
      (s.addRef (enFrame (s.entryWord pg))).setEntry { pg with seq := q.seq } (wordPresent (enFrame (s.entryWord pg))) 0 0) w).kvDone q 0 0).useObtained
        q.pointer 64) := by
  have hclean : pages.any (fun pg => enPoison (s.entryWord pg)) = false := List.any_eq_false.2 fun pg hpg => by simp [hpoison pg hpg]
  have hspilled : pages.any (fun pg => decide (v.entryWord pg = wordSpilled)) = false := by
    have hword : enPresent wordSpilled = false := by decide +kernel
    refine List.any_eq_false.2 fun pg hpg h => ?_
    have hpg' := hpresent pg hpg
    rw [of_decide_eq_true h, hword] at hpg'
    cases hpg'
  have hthere : pages.any (fun pg => !enPresent (v.entryWord pg)) = false := List.any_eq_false.2 fun pg hpg => by simp [hpresent pg hpg]
  refine congrArg Host.Outcome.next ((State.kvServe_of_passed hreq hop hready hcheck hmodel).trans ?_)
  dsimp only
  rw [← hsrc, ← hpages, if_neg (by omega), hwin, if_neg Bool.false_ne_true, hclean, if_neg Bool.false_ne_true, hgather]
  dsimp only
  rw [Bool.not_true, if_neg Bool.false_ne_true, hspilled, if_neg Bool.false_ne_true, hthere, if_neg Bool.false_ne_true, hopen]

end Requests

/-- Settles O43: a request ends with the first check that it fails, or is carried out, waits or is refused. -/
theorem kvRequestsAreServed : Obligations.KvRequestsAreServed := by
  refine ⟨?_, ?_, ?_, ?_, ?_, ?_, ?_⟩
  · intro p hp s d c q st why hreq hop hready hcheck
    obtain ⟨f, hexec⟩ := exec_kvCommand (s := s) (d := d) (c := c) hp
    rw [hexec, State.kvServe_of_failed hreq hop hready hcheck]
  · intro s v d c q m hreq hop hready hcheck hmodel hopen
    refine congrArg Host.Outcome.next ((State.kvServe_of_passed hreq hop hready hcheck hmodel).trans ?_)
    rw [hopen]
  · intro s d c q m r got hreq hop hready hcheck hmodel hr hwin hlen hmax hgot
    rw [exec_reserve_of hreq hop hready hcheck hmodel hr hwin hlen hmax]
    have hplan : got = s.reserveAll m r q.seq (q.plan m r) := hgot
    unfold State.reserved
    rw [← hplan]
    refine ⟨?_, fun p hp hfree => ?_, fun p hp hfree => ?_⟩
    · rintro v addrs bytes rfl rfl hlist
      dsimp only
      rw [State.withMem_of_ready hlist]
    · rw [hp]
      dsimp only
      rw [if_pos hfree]
    · rw [hp]
      dsimp only
      rw [if_neg (Bool.eq_false_iff.1 hfree)]
  · intro s v d c q m r hreq hop hready hcheck hmodel hr hwin hlen hv
    refine congrArg Host.Outcome.next ((State.kvServe_of_passed hreq hop hready hcheck hmodel).trans ?_)
    have hlast : (!r.windowed && decide (r.reserved < q.n)) = false := by rw [decide_eq_false (by omega), Bool.and_false]
    dsimp only
    rw [← hr, if_neg (by rintro ⟨h, h'⟩; exact h' (hwin h)), hlast, if_neg Bool.false_ne_true, ← hv]
  · intro s v w d c q m src pages hreq hop hready hcheck hmodel hsrc hlen hwin hpages hpoison hgather hpresent hopen
    exact exec_share_of hreq hop hready hcheck hmodel hsrc hlen hwin hpages hpoison hgather hpresent hopen
  · intro s d c q m hreq hop hready hcheck hmodel
    exact congrArg Host.Outcome.next (State.kvServe_of_passed hreq hop hready hcheck hmodel)
  · intro s v d c q m ok hreq hop hready hcheck hmodel hask
    have hserve := State.kvServe_of_passed (f := fun q m r s =>
      let pages := seqPages m r q.seq
      let a := s.askPages pages
      if !a.2 then a.1.kvDone q 5 0x0063 else if pages.any a.1.kv.wanted.contains then a.1 else a.1.kvDone q 0 0) hreq hop hready hcheck hmodel
    dsimp only at hserve
    rw [hask] at hserve
    refine ⟨?_, ?_⟩
    · rintro rfl hwanted
      have hnone : (seqPages m (s.seqRow m q.seq) q.seq).any v.kv.wanted.contains = false := List.any_eq_false.2 fun pg hpg => by simpa using hwanted pg hpg
      rw [Bool.not_true, if_neg Bool.false_ne_true, hnone, if_neg Bool.false_ne_true] at hserve
      exact congrArg Host.Outcome.next hserve
    · rintro rfl
      rw [Bool.not_false, if_pos rfl] at hserve
      exact congrArg Host.Outcome.next hserve

end Sys2Proof.Machine

/-! What operations on frames, page-table entries and look-aside buffers keep of the KV manager (R309 to R311, R317, R322). -/

namespace Sys2Proof.Machine

open Sys2Proof

section Frames

variable {s t : State} {d f : Nat} {pg : PageId}

@[simp] theorem State.setFd_kv (f off n v : Nat) : (s.setFd f off n v).kv = s.kv :=
  (State.setFd_keeps (F := oneOf [.mem]) .rfl rfl).frame .kv rfl

@[simp] theorem State.setEntry_kv (pg : PageId) (word slot crc : Nat) : (s.setEntry pg word slot crc).kv = s.kv :=
  (State.setEntry_keeps (F := oneOf [.mem]) .rfl rfl).frame .kv rfl

@[simp] theorem State.setRow_kv (r : SeqRow) (off n v : Nat) : (s.setRow r off n v).kv = s.kv :=
  (State.setRow_keeps (F := oneOf [.mem]) .rfl rfl).frame .kv rfl

theorem State.writeBytes_kv (a : Nat) (data : List Byte) : (s.writeBytes a data).kv = s.kv :=
  (State.writeBytes_keeps (F := oneOf [.mem]) .rfl rfl).frame .kv rfl

theorem State.pin_of_unused (h : s.fdState f ≠ 2) : s.pin f = none := if_neg h

/-! ### Look-aside buffers (R311) -/

/-- The buffers of a state from which an entry has been invalidated in the first `n`. -/
structure State.Invalidated (s : State) (pg : PageId) (n : Nat) (t : State) : Prop where
  gone : ∀ c < n, mget [] t.kv.labs c = (mget [] s.kv.labs c).filter (· ≠ pg)
  rest : ∀ c, n ≤ c → mget [] t.kv.labs c = mget [] s.kv.labs c
  frame : t = { s with regs := t.regs, kv := { s.kv with labs := t.kv.labs } }

/-- One buffer's entry invalidated, and counted where it stood there. -/
def State.invalidateIn (pg : PageId) (s : State) (c : Nat) : State :=
  if (mget [] s.kv.labs c).contains pg then
    (s.countFld (c / 4) (c % 4) 0 KVM_LAB_STAT.INVALS 1).onKv fun x => { x with labs := mput x.labs c ((mget [] x.labs c).filter (· ≠ pg)) }
  else s

theorem State.invalidateIn_self (c : Nat) : mget [] (s.invalidateIn pg c).kv.labs c = (mget [] s.kv.labs c).filter (· ≠ pg) := by
  unfold State.invalidateIn
  split
  · exact mget_mput_self
  · next h =>
    refine (List.filter_eq_self.2 fun q hq => ?_).symm
    have hne : q ≠ pg := fun heq => h (by simpa [heq] using hq)
    simpa using hne

theorem State.invalidateIn_ne {b c : Nat} (h : b ≠ c) : mget [] (s.invalidateIn pg c).kv.labs b = mget [] s.kv.labs b := by
  unfold State.invalidateIn
  split
  · exact mget_mput_ne h
  · rfl

theorem State.invalidateIn_frame (c : Nat) : s.invalidateIn pg c = { s with regs := (s.invalidateIn pg c).regs, kv := { s.kv with labs := (s.invalidateIn pg c).kv.labs } } := by
  unfold State.invalidateIn
  split <;> rfl

theorem State.labInvalidate_invalidated (pg : PageId) : s.Invalidated pg 32 (s.labInvalidate pg) := by
  have heq : s.labInvalidate pg = (List.range 32).foldl (State.invalidateIn pg) s := rfl
  rw [heq]
  generalize 32 = n
  induction n with
  | zero => exact ⟨fun c hc => absurd hc (Nat.not_lt_zero c), fun _ _ => rfl, rfl⟩
  | succ n ih =>
    rw [List.range_succ, List.foldl_append, List.foldl_cons, List.foldl_nil]
    generalize (List.range n).foldl (State.invalidateIn pg) s = u at ih ⊢
    obtain ⟨hgone, hrest, hframe⟩ := ih
    refine ⟨fun c hc => ?_, fun c hc => ?_, ?_⟩
    · by_cases h : c = n
      · subst h
        rw [State.invalidateIn_self, hrest c le_rfl]
      · rw [State.invalidateIn_ne h, hgone c (by omega)]
    · rw [State.invalidateIn_ne (by omega), hrest c (by omega)]
    · rw [State.invalidateIn_frame, hframe]

theorem State.Invalidated.not_mem {n c : Nat} (h : s.Invalidated pg n t) (hc : c < n) : pg ∉ mget [] t.kv.labs c := by
  rw [h.gone c hc]
  simp

/-! ### What tells whether the far tier is reachable (R322) -/

theorem State.reclaim_unreachable (f : Nat) : (s.reclaim f).kv.unreachable = s.kv.unreachable := by
  unfold State.reclaim
  simp

theorem State.Invalidated.kv {n : Nat} (h : s.Invalidated pg n t) : t.kv = { s.kv with labs := t.kv.labs } := congrArg State.kv h.frame

theorem State.labInvalidate_kv (pg : PageId) : (s.labInvalidate pg).kv = { s.kv with labs := (s.labInvalidate pg).kv.labs } :=
  (s.labInvalidate_invalidated pg).kv

theorem State.labInvalidate_unreachable (pg : PageId) : (s.labInvalidate pg).kv.unreachable = s.kv.unreachable := by rw [State.labInvalidate_kv]

theorem State.dropRef_unreachable (f : Nat) : (s.dropRef f).kv.unreachable = s.kv.unreachable := by
  unfold State.dropRef
  dsimp only
  split_ifs
  · rw [State.reclaim_unreachable, State.setFd_kv]
  · rw [State.setFd_kv, State.setFd_kv]
  · split
    · simp
    · rw [State.setFd_kv]
  · rw [State.setFd_kv]

theorem State.dropEntry_unreachable (pg : PageId) : (s.dropEntry pg).kv.unreachable = s.kv.unreachable := by
  unfold State.dropEntry
  dsimp only
  split
  · rfl
  · split
    · rw [State.dropRef_unreachable, State.onKv_kv, State.setEntry_kv]
      dsimp only
      rw [State.labInvalidate_unreachable]
    · split <;> simp [State.freeSlot]

theorem State.endClosing_unreachable (seq : Nat) : (s.endClosing seq).kv.unreachable = s.kv.unreachable := by
  unfold State.endClosing
  split
  · rfl
  · dsimp only
    split
    · simp
    · rfl

theorem State.afterJob_unreachable (pg : PageId) : (s.afterJob pg).kv.unreachable = s.kv.unreachable := by
  unfold State.afterJob
  split
  · split
    · rw [State.endClosing_unreachable, State.dropEntry_unreachable]
    · rfl
  · rfl

theorem State.abandonJob_unreachable (j : FarJob) : (s.abandonJob j).kv.unreachable = s.kv.unreachable := by
  unfold State.abandonJob
  dsimp only
  rw [State.afterJob_unreachable]
  have hend : (s.endJob j).kv.unreachable = s.kv.unreachable := rfl
  split
  · simp [State.freeSlot, hend]
  · rw [State.reclaim_unreachable, State.setEntry_kv, hend]

theorem State.foldl_abandonJob_unreachable (js : List FarJob) : (js.foldl (fun s j => s.abandonJob j) s).kv.unreachable = s.kv.unreachable := by
  induction js generalizing s with
  | nil => rfl
  | cons j js ih => rw [List.foldl_cons, ih, State.abandonJob_unreachable]

/-- A tier that exists is unreachable after FAR_TIER_UNREACHABLE. -/
theorem State.farUnreachable_spec (h : s.far.isSome = true) : s.farUnreachable.kv.unreachable = true := by
  have hsome : s.far.isNone = false := by
    cases hf : s.far with
    | none => simp [hf] at h
    | some x => rfl
  unfold State.farUnreachable
  split
  · next hkeep =>
    rcases hkeep with hkeep | hkeep
    · rw [hsome] at hkeep
      cases hkeep
    · exact hkeep
  · dsimp only
    rw [State.foldl_abandonJob_unreachable]
    rfl

theorem State.farUnreachable_of_none (h : s.far = none) : s.farUnreachable = s := if_pos (.inl (by rw [h]; rfl))

end Frames

end Sys2Proof.Machine

/-! Settling O44: pages pinned, copied, spilled and returned (R62, R256, R310, R311, R316, R317, R320 to R322, R428). -/

namespace Sys2Proof.Machine

open Sys2Proof

section Routines

variable {s u v : State} {d c f e n : Nat} {x : Call} {pg : PageId} {m : KvModel} {r : SeqRow}

/-! ### Routines that streams call (R256, R316) -/

theorem State.kvRoutine_of {id : Nat} {g : Call → State → State} (hroutine : (s.core d c).routine = some x) (hid : x.id = id) (hsource : x.source ≠ 2) :
    s.kvRoutine d c id g = g x s := by
  unfold State.kvRoutine
  rw [hroutine]
  exact if_pos ⟨hid, hsource⟩

/-- The page that a KV_FRAME_DESC names. -/
def Call.page (x : Call) : PageId := ⟨bits x.arg 63 48, bits x.arg 47 32, bits x.arg 27 16⟩

/-- What KV_FRAME_DESC does with a frame in place: its checks, then the pin and the entry (R256, R262). -/
def State.describeFrame (s : State) (d c : Nat) (x : Call) (m : KvModel) (pg : PageId) : State :=
  if let some why := s.frameDescBad (enFrame (s.entryWord pg)) (frameDesc m (s.frameAddr (enFrame (s.entryWord pg)))) then s.kvRoutineEnds d c x why
  else
    match (s.walk d (c / 16) pg).2.pin (enFrame (s.entryWord pg)) with
    | none => s
    | some s' =>
      ((s'.dropDynamic d c (bits x.arg 7 0)).onCore d c fun k => { k with
        desc := mput k.desc (bits x.arg 7 0) (frameDesc m (s'.frameAddr (enFrame (s.entryWord pg))))
        dpins := mput k.dpins (bits x.arg 7 0) (enFrame (s.entryWord pg)) }).kvRoutineEnds d c x 0

theorem enPresent_facts {w : Nat} (h : enPresent w = true) : w ≠ 0 ∧ w ≠ wordSpilled := by
  have hzero : enPresent 0 = false := by decide +kernel
  have hspilled : enPresent wordSpilled = false := by decide +kernel
  refine ⟨?_, ?_⟩
  · rintro rfl
    rw [hzero] at h
    cases h
  · rintro rfl
    rw [hspilled] at h
    cases h

theorem exec_kvFrameDesc_of (hroutine : (s.core d c).routine = some x) (hid : x.id = 0x102) (hsource : x.source ≠ 2) (hpg : pg = x.page)
    (hmodel : s.modelOf pg.seq = some m) (he : 0xC0 ≤ bits x.arg 7 0) (hstate : (s.seqRow m pg.seq).state ≠ 0) (hplane : pg.plane < m.planes)
    (hindex : pg.index < (s.seqRow m pg.seq).pagesMax) (hpresent : enPresent (s.entryWord pg) = true) (hpoison : enPoison (s.entryWord pg) = false)
    (hbusy : (s.core d c).entryBusy (bits x.arg 7 0) = false) : exec (.kvFrameDesc d c) s = .next (s.describeFrame d c x m pg) := by
  obtain ⟨hzero, hspilled⟩ := enPresent_facts hpresent
  refine congrArg Host.Outcome.next ((State.kvRoutine_of hroutine hid hsource).trans ?_)
  subst hpg
  unfold State.describeFrame
  dsimp only [Call.page] at *
  rw [hmodel]
  dsimp only
  rw [if_neg (by omega), hpoison, if_neg Bool.false_ne_true, if_neg (fun h => hspilled h.1), hpresent, Bool.not_true, if_neg Bool.false_ne_true, hbusy,
    if_neg Bool.false_ne_true] <;> rfl

theorem State.describeFrame_of_good (hgood : s.frameDescBad (enFrame (s.entryWord pg)) (frameDesc m (s.frameAddr (enFrame (s.entryWord pg)))) = none)
    (hpin : (s.walk d (c / 16) pg).2.pin (enFrame (s.entryWord pg)) = some v) : s.describeFrame d c x m pg =
      ((v.dropDynamic d c (bits x.arg 7 0)).onCore d c fun k => { k with
        desc := mput k.desc (bits x.arg 7 0) (frameDesc m (v.frameAddr (enFrame (s.entryWord pg))))
        dpins := mput k.dpins (bits x.arg 7 0) (enFrame (s.entryWord pg)) }).kvRoutineEnds d c x 0 := by
  unfold State.describeFrame
  rw [hgood, hpin]

theorem State.describeFrame_of_bad {why : Nat}
    (hbad : s.frameDescBad (enFrame (s.entryWord pg)) (frameDesc m (s.frameAddr (enFrame (s.entryWord pg)))) = some why) :
    s.describeFrame d c x m pg = s.kvRoutineEnds d c x why := by
  unfold State.describeFrame
  rw [hbad]

theorem exec_kvReleaseDesc_of (hroutine : (s.core d c).routine = some x) (hid : x.id = 0x103) (hsource : x.source ≠ 2)
    (hbusy : (s.core d c).entryBusy (bits x.arg 7 0) = false) :
    exec (.kvReleaseDesc d c) s = .next ((s.dropDynamic d c (bits x.arg 7 0)).kvRoutineEnds d c x 0) :=
  congrArg Host.Outcome.next ((State.kvRoutine_of hroutine hid hsource).trans (if_neg (Bool.eq_false_iff.1 hbusy)))

theorem exec_kvPostStep_of {slot : Nat} {b : List Byte} (hroutine : (s.core d c).routine = some x) (hid : x.id = 0x104) (hsource : x.source ≠ 2)
    (hb : b = (s.core d c).cc.bytes x.arg 18) (hslot : slot = field b 16 2) (hcluster : slot / 256 < 4)
    (hrecv : bindRecv (s.binding d (slot / 256) (slot % 256)) = 1)
    (hpost : s.post (senderCc d c) d (slot / 256) (slot % 256) (field b 0 8) (field b 8 4) = (u, .ok)) :
    exec (.kvPostStep d c) s = .next (u.kvRoutineEnds d c x 0) := by
  refine congrArg Host.Outcome.next ((State.kvRoutine_of hroutine hid hsource).trans ?_)
  dsimp only
  rw [← hb, ← hslot, if_neg (by rintro (h | h); exacts [absurd h (by omega), h hrecv]), hpost]

/-! ### Pins and copies (R310, R317) -/

theorem exec_framePin_of {pool bank band slot : Nat} (hat : s.frameAt pool bank band slot = some f) :
    exec (.framePin pool bank band slot) s = .next ((s.pin f).getD s) := by
  change execFramePin pool bank band slot s = _
  unfold execFramePin
  rw [hat]

theorem exec_frameUnpin_of {pool bank band slot : Nat} (hat : s.frameAt pool bank band slot = some f) (hpins : s.pinsOf f ≠ 0) :
    exec (.frameUnpin pool bank band slot) s = .next (s.unpin f) := by
  change execFrameUnpin pool bank band slot s = _
  unfold execFrameUnpin
  rw [hat]
  exact congrArg Host.Outcome.next (if_pos hpins)

theorem exec_copyOnWrite_of {model seq plane page : Nat} (hin : s.pageIn model seq plane page = some (m, r, pg)) (hpresent : enPresent (s.entryWord pg) = true) :
    exec (.copyOnWrite model seq plane page) s = .next (if 1 < s.refs (enFrame (s.entryWord pg)) then (s.copyOnWrite m r.start page pg).getD s else s) := by
  change execCopyOnWrite model seq plane page s = _
  unfold execCopyOnWrite
  rw [hin]
  dsimp only
  refine congrArg Host.Outcome.next (if_congr ?_ rfl rfl)
  exact and_iff_right hpresent

theorem exec_labInvalidate_of {model seq plane page : Nat} (hin : s.pageIn model seq plane page = some (m, r, pg)) :
    exec (.labInvalidate model seq plane page) s = .next (s.labInvalidate pg) := by
  change execLabInvalidate model seq plane page s = _
  unfold execLabInvalidate
  rw [hin]

end Routines

section FarTier

variable {s u v : State} {d f n : Nat} {j : FarJob}

/-! ### Spills (R62, R320) -/

/-- The page whose frame a die spills. -/
def State.spillPage (s : State) (f : Nat) : PageId := ⟨s.fd f 0x0C 2, s.fd f 2 2, s.fd f 0x0E 2 % 4096⟩

/-- The state with the die's engine noted as spilling while it is below its watermark. -/
def State.spillNoted (s : State) (d : Nat) : State :=
  if s.poolFree d < s.fld d 0 0 KVM_POOL_LOW.LOW then s.onKv fun x => { x with spilling := insertNat d x.spilling } else s

/-- The state with frame and entry marked as moving, in no look-aside buffer. -/
def State.spillMarked (s : State) (d f : Nat) : State :=
  (((s.spillNoted d).setFd f 0 1 3).setEntry (s.spillPage f) wordSpilling 0 0).labInvalidate (s.spillPage f)

/-- The state with a spill begun, of page `n` as its sequence counts it. -/
def State.spillBegun (s : State) (d f slot n : Nat) : State :=
  (s.spillMarked d f).addJob d true (s.spillPage f) n f slot (crc32c (s.readBytes (s.frameAddr f) (s.slotLen f)))

theorem State.farWrite_kv (id at_ : Nat) (data : List Byte) : (s.farWrite d id at_ data).kv = s.kv :=
  (State.farWrite_keeps (F := oneOf [.free, .sent, .fab]) .rfl rfl rfl rfl).frame .kv rfl

theorem State.spillMarked_kv : ∃ k : Kv, k.farJobs = s.kv.farJobs ∧ k.farNext = s.kv.farNext ∧ k.farUsed = s.kv.farUsed ∧
    (s.spillMarked d f).kv = { k with labs := (s.spillMarked d f).kv.labs } := by
  have hnoted : (s.spillNoted d).kv.farJobs = s.kv.farJobs ∧ (s.spillNoted d).kv.farNext = s.kv.farNext ∧ (s.spillNoted d).kv.farUsed = s.kv.farUsed := by
    unfold State.spillNoted
    split <;> exact ⟨rfl, rfl, rfl⟩
  obtain ⟨hjobs, hnext, hused⟩ := hnoted
  refine ⟨(s.spillNoted d).kv, hjobs, hnext, hused, ?_⟩
  have h := State.labInvalidate_kv (s := ((s.spillNoted d).setFd f 0 1 3).setEntry (s.spillPage f) wordSpilling 0 0) (s.spillPage f)
  rw [State.setEntry_kv, State.setFd_kv] at h
  unfold State.spillMarked
  exact h

/-- The state with a spill begun and, unless its slot is poisoned, its writes on their way. -/
def State.spillSent (s : State) (d f slot n : Nat) : State :=
  if (s.spillMarked d f).slotPoisoned f then s.spillBegun d f slot n
  else (s.spillBegun d f slot n).farWrite d (s.spillMarked d f).kv.farNext ((s.spillMarked d f).farSlotAddr slot) (s.readBytes (s.frameAddr f) (s.slotLen f))

theorem State.spillSent_kv {slot : Nat} : (s.spillSent d f slot n).kv = (s.spillBegun d f slot n).kv := by
  unfold State.spillSent
  split
  · rfl
  · exact State.farWrite_kv ..

theorem exec_spillStart_of {slot : Nat} (hd : d < 8) (hmode : s.power.mode ≠ .safe) (hopen : s.tierOpen d = true) (hdue : s.spillDue d = true)
    (hnext : s.spillNext d = some f) (hslot : s.farSlot d = some slot) (hready : s.ready (.kvm d) (s.frameAddr f) (s.slotLen f) false = true) :
    ∃ n, exec (.spillStart d) s = .next ((s.spillSent d f slot n).useObtained (s.frameAddr f) (s.slotLen f)) := by
  have hcond : (decide (d < 8 ∧ s.power.mode ≠ .safe) && s.tierOpen d && s.spillDue d) = true := by
    rw [decide_eq_true ⟨hd, hmode⟩, hopen, hdue]
    rfl
  change ∃ n, execSpillStart d s = _
  unfold execSpillStart
  rw [State.when_pos hcond, hnext, hslot]
  dsimp only
  rw [State.withMem_of_ready hready]
  unfold State.spillSent State.spillBegun State.spillMarked State.spillNoted State.spillPage
  exact ⟨_, rfl⟩

end FarTier

end Sys2Proof.Machine

/-! Settling O44: what comes back from the far tier (R320 to R322, R428). -/

namespace Sys2Proof.Machine

open Sys2Proof

section Returns

variable {s u : State} {d n : Nat} {j : FarJob} {pg : PageId}

theorem State.addJob_farJobs {spill : Bool} {f slot crc : Nat} : (s.addJob d spill pg n f slot crc).kv.farJobs =
    s.kv.farJobs ++ [⟨s.kv.farNext, d, spill, pg, n, f, slot, s.time d, crc⟩] := rfl

theorem State.addJob_labs {spill : Bool} {f slot crc : Nat} : (s.addJob d spill pg n f slot crc).kv.labs = s.kv.labs := rfl

theorem State.addJob_farUsed {spill : Bool} {f slot crc : Nat} : (s.addJob d spill pg n f slot crc).kv.farUsed = insertNat slot s.kv.farUsed := rfl

theorem State.useObtained_kv {a n : Nat} : (s.useObtained a n).kv = s.kv := rfl

/-- The page whose frame is marked stands in no look-aside buffer (R62). -/
theorem State.spillMarked_gone {f c : Nat} (hc : c < 32) : s.spillPage f ∉ mget [] (s.spillMarked d f).kv.labs c := by
  unfold State.spillMarked
  exact (State.labInvalidate_invalidated (s.spillPage f)).not_mem hc

/-! ### Spills that complete (R320, R428) -/

theorem exec_spillComplete_poisoned (hjob : (s.farJobs d true)[n]? = some j) (hpoison : s.slotPoisoned j.frame = true)
    (hstate : (s.abandonJob j).fdState j.frame = 2) : exec (.spillComplete d n) s = .next ((s.abandonJob j).setFd j.frame 1 1 1) := by
  change execSpillComplete d n s = _
  unfold execSpillComplete
  rw [hjob]
  dsimp only
  rw [if_pos hpoison, if_pos hstate]

/-- The state with a spill done: its page spilled, its frame free. -/
def State.spilled (s : State) (d : Nat) (j : FarJob) : State :=
  (((((s.endJob j).setEntry j.page wordSpilled j.slot j.crc).reclaim j.frame).countFld d 0 0 KVM_FAR_COUNT.SPILLED 1).spillSated d).afterJob j.page

theorem exec_spillComplete_of (hjob : (s.farJobs d true)[n]? = some j) (hpoison : s.slotPoisoned j.frame = false)
    (hturn : s.farJobs d false = [] ∨ s.spillOld d = true) {st : Nat} {data : List Byte} (hresult : s.farResult j.id = some (st, data)) :
    exec (.spillComplete d n) s = .next (if st = 0 then s.spilled d j else s.farUnreachable) := by
  have hgo : (!(s.farJobs d false).isEmpty && !s.spillOld d) = false := by
    rcases hturn with h | h
    · rw [h]
      rfl
    · rw [h]
      exact Bool.and_false _
  change execSpillComplete d n s = _
  unfold execSpillComplete
  rw [hjob]
  dsimp only
  rw [if_neg (Bool.eq_false_iff.1 hpoison), hgo, if_neg Bool.false_ne_true, hresult]
  cases st with
  | zero => rfl
  | succ st => rfl

/-! ### Prefetches (R321, R322) -/

theorem exec_prefetchStart_of {model seq plane page : Nat} {m : KvModel} {r : SeqRow} (hmode : s.power.mode ≠ .safe)
    (hin : s.pageIn model seq plane page = some (m, r, pg)) :
    exec (.prefetchStart model seq plane page) s = .next (if s.kv.wanted.contains pg then (s.askPage pg).getD s else s) := by
  refine congrArg Host.Outcome.next ((State.whenP_pos hmode).trans ?_)
  rw [hin]

theorem State.askPage_of_fetch (hword : s.entryWord pg = wordSpilled) (hreach : s.kv.unreachable = false) (hfetch : s.fetch pg = some u) :
    s.askPage pg = some u := by
  unfold State.askPage
  rw [hword, hreach, if_neg (by simp), hfetch]

/-- The state with a prefetch over whose data differ from what was spilled. -/
def State.fetchPoisoned (s : State) (d : Nat) (j : FarJob) : State :=
  ((((((s.endJob j).setEntry j.page wordPoisoned 0 0).reclaim j.frame).freeSlot j.slot).countFld d 0 0 KVM_CRC_ERR.COUNT 1).raise d 0x4801 .die 0 0).afterJob j.page

/-- The bytes that a prefetch returns: a host's as they come, a peer's as its responses hold them. -/
def State.fetchedBytes (s : State) (data old : List Byte) : List Byte := match s.farPort with | some _ => data | none => old

theorem exec_prefetchComplete_of {data old bytes : List Byte} (hjob : (s.farJobs d false)[n]? = some j) (hold : s.spillOld d = false)
    (hresult : s.farResult j.id = some (0, old)) (hbytes : bytes = s.fetchedBytes data old) (hlen : bytes.length = s.slotLen j.frame) :
    exec (.prefetchComplete d n data) s = .next (if crc32c bytes ≠ s.entryCrc j.page then s.fetchPoisoned d j
      else s.withMem (.kvm d) [(s.frameAddr j.frame, bytes.length, true)] fun t => ((((((t.endJob j).writeBytes (s.frameAddr j.frame) bytes).setFd j.frame 0 1 2).setEntry
        j.page (wordPresent j.frame) 0 0).freeSlot j.slot).countFld d 0 0 KVM_FAR_COUNT.FETCHED 1).afterJob j.page) := by
  change execPrefetchComplete d n data s = _
  unfold execPrefetchComplete
  rw [hjob]
  dsimp only
  rw [hold, if_neg Bool.false_ne_true, hresult]
  dsimp only
  unfold State.fetchPoisoned
  unfold State.fetchedBytes at hbytes
  cases hport : s.farPort with
  | none =>
    rw [hport] at hbytes
    subst hbytes
    dsimp only
    rw [if_neg (not_not.2 hlen)]
  | some p =>
    rw [hport] at hbytes
    subst hbytes
    dsimp only
    rw [if_neg (not_not.2 hlen)]

theorem exec_prefetchComplete_refused {data old : List Byte} {st : Nat} (hjob : (s.farJobs d false)[n]? = some j) (hold : s.spillOld d = false)
    (hresult : s.farResult j.id = some (st, old)) (hst : st ≠ 0) : exec (.prefetchComplete d n data) s = .next s.farUnreachable := by
  change execPrefetchComplete d n data s = _
  unfold execPrefetchComplete
  rw [hjob]
  dsimp only
  rw [hold, if_neg Bool.false_ne_true, hresult]
  cases st with
  | zero => exact absurd rfl hst
  | succ st => rfl

theorem State.fetchedBytes_eq {data old bytes : List Byte} (h : (s.farPort.isSome = true ∧ bytes = data) ∨ (s.farPort = none ∧ bytes = old)) :
    bytes = s.fetchedBytes data old := by
  unfold State.fetchedBytes
  rcases h with ⟨hport, rfl⟩ | ⟨hport, rfl⟩
  · obtain ⟨p, hp⟩ := Option.isSome_iff_exists.1 hport
    rw [hp]
  · rw [hport]

/-! ### Probes (R322) -/

theorem exec_farTierProbe_of {ok : Bool} (hdown : s.kv.unreachable = true) (hended : s.causeEnded = true) : exec (.farTierProbe ok) s =
    .next (match s.far with
      | some (.host p, b, _) => if ok then (s.send (.hostRead p b 4)).onKv fun x => { x with unreachable := false } else s.send (.hostRead p b 4)
      | some (.peer m, b, _) =>
        (match (s.reqsOf (· == probeOwner)).head? with
         | none => s.requestRead 0 0x4C (carAddr m 0 0x50) b 64 probeOwner
         | some q => match q.result with
           | none => s
           | some (st, _) => if st = 0 then (s.dropReqs (· == probeOwner)).onKv fun x => { x with unreachable := false } else s.dropReqs (· == probeOwner))
      | none => s) := congrArg Host.Outcome.next (State.when_pos (by rw [hdown, hended]; rfl))

/-- A state's tier reachable exactly where a probe's response is OK. -/
theorem State.probed_eq {t : State} (hdown : t.kv.unreachable = true) (st : Nat) :
    (if st = 0 then t.onKv fun x => { x with unreachable := false } else t) = { t with kv := { t.kv with unreachable := st != 0 } } := by
  cases st with
  | zero => rfl
  | succ st =>
    rw [if_neg (Nat.succ_ne_zero st)]
    have hne : (st + 1 != 0) = true := rfl
    rw [hne, ← hdown]

end Returns

/-- Settles O44: descriptors, pins and copies follow the frames' states, and the far tier takes and returns pages whole. -/
theorem pagesArePinnedCopiedSpilledAndReturned : Obligations.PagesArePinnedCopiedSpilledAndReturned := by
  refine ⟨⟨?_, ?_, ?_, ?_, ?_, ?_, ?_⟩, ?_, ?_, ?_, ?_, ?_, ?_, ?_, ?_, ?_⟩
  · rintro s d c f x pg e m hroutine hid hsource hpg rfl hmodel he hstate hplane hindex hpresent hpoison hbusy rfl
    rw [exec_kvFrameDesc_of hroutine hid hsource hpg hmodel he hstate hplane hindex hpresent hpoison hbusy]
    exact ⟨fun v hgood hpin => congrArg Host.Outcome.next (State.describeFrame_of_good hgood hpin), fun why hbad => by rw [State.describeFrame_of_bad hbad]⟩
  · intro s d c x hroutine hid hsource hbusy
    rw [exec_kvReleaseDesc_of hroutine hid hsource hbusy]
    unfold State.dropDynamic
    exact ⟨fun f hf => by rw [hf], fun hf => by rw [hf]⟩
  · intro s u d c slot x b hroutine hid hsource hb hslot hcluster hrecv hpost
    exact exec_kvPostStep_of hroutine hid hsource hb hslot hcluster hrecv hpost
  · intro s pool bank band slot f hat
    rw [exec_framePin_of hat]
    exact ⟨fun u hu => by rw [hu]; rfl, fun hf => by rw [State.pin_of_unused hf]; rfl, fun hpins => exec_frameUnpin_of hat hpins⟩
  · intro s u model seq plane page m r pg hin hpresent
    rw [exec_copyOnWrite_of hin hpresent]
    exact ⟨fun hrefs hcopy => by rw [if_pos hrefs, hcopy]; rfl, fun hrefs => by rw [if_neg (Nat.not_lt.2 hrefs)]⟩
  · intro s model seq plane page m r pg hin
    have h := s.labInvalidate_invalidated pg
    refine ⟨_, exec_labInvalidate_of hin, fun c hc => ⟨h.not_mem hc, fun q hq => ?_⟩, h.frame⟩
    rw [h.gone c hc]
    simp [hq]
  · exact fun s f hf => State.pin_of_unused hf
  · intro s d f slot hd hmode hopen hdue hnext hslot hready
    obtain ⟨n, hexec⟩ := exec_spillStart_of hd hmode hopen hdue hnext hslot hready
    obtain ⟨k, hjobs, hfar, hused, hkv⟩ := State.spillMarked_kv (s := s) (d := d) (f := f)
    have hsent : ((s.spillSent d f slot n).useObtained (s.frameAddr f) (s.slotLen f)).kv = (s.spillBegun d f slot n).kv :=
      State.useObtained_kv.trans State.spillSent_kv
    have hbegun : (s.spillBegun d f slot n).kv.farJobs = (s.spillMarked d f).kv.farJobs ++ [⟨(s.spillMarked d f).kv.farNext, d, true, s.spillPage f, n, f, slot,
      (s.spillMarked d f).time d, crc32c (s.readBytes (s.frameAddr f) (s.slotLen f))⟩] := State.addJob_farJobs
    have hlabs : (s.spillBegun d f slot n).kv.labs = (s.spillMarked d f).kv.labs := State.addJob_labs
    have hslots : (s.spillBegun d f slot n).kv.farUsed = insertNat slot (s.spillMarked d f).kv.farUsed := State.addJob_farUsed
    have hmarked : (s.spillMarked d f).kv.farJobs = s.kv.farJobs := by rw [hkv, hjobs]
    have hid : (s.spillMarked d f).kv.farNext = s.kv.farNext := by rw [hkv, hfar]
    refine ⟨_, ⟨(s.spillMarked d f).kv.farNext, d, true, s.spillPage f, n, f, slot, (s.spillMarked d f).time d, crc32c (s.readBytes (s.frameAddr f) (s.slotLen f))⟩,
      hexec, ?_, rfl, rfl, rfl, rfl, ?_, rfl, rfl, ?_, fun c hc => ?_⟩
    · rw [hsent, hbegun, hmarked]
    · dsimp only
      exact hid
    · rw [hsent, hslots]
      exact mem_insertNat.2 (.inl rfl)
    · rw [hsent, hlabs]
      exact State.spillMarked_gone hc
  · intro s d n j hjob
    refine ⟨fun hpoison hstate => exec_spillComplete_poisoned hjob hpoison hstate, fun hpoison hturn => ⟨fun data hresult => ?_, fun st data hst hresult => ?_⟩⟩
    · rw [exec_spillComplete_of hjob hpoison hturn hresult, if_pos rfl]
      rfl
    · rw [exec_spillComplete_of hjob hpoison hturn hresult, if_neg hst]
  · intro s u model seq plane page m r pg hmode hin
    rw [exec_prefetchStart_of hmode hin]
    exact ⟨fun hwanted hask => by rw [if_pos (List.contains_iff_mem.2 hwanted), hask]; rfl,
      fun hwanted => by rw [if_neg (fun h => hwanted (List.contains_iff_mem.1 h))]⟩
  · exact fun s pg hword hreach u hfetch => State.askPage_of_fetch hword hreach hfetch
  · intro s d n j data old bytes hjob hold hresult hport hlen
    rw [exec_prefetchComplete_of hjob hold hresult (State.fetchedBytes_eq hport) hlen]
    refine ⟨fun hcrc => ?_, fun hcrc hready => ?_⟩
    · rw [if_pos hcrc]
      rfl
    · rw [if_neg (not_not.2 hcrc), State.withMem_of_ready hready]
  · exact fun s d n st j data old hjob hold hresult hst => exec_prefetchComplete_refused hjob hold hresult hst
  · intro s
    refine ⟨fun hfar => ⟨s.farUnreachable, rfl, State.farUnreachable_spec hfar, ?_⟩, fun hfar => congrArg Host.Outcome.next (State.farUnreachable_of_none hfar)⟩
    exact (State.farUnreachable_keeps (F := oneOf [.regs, .mem, .kv, .fab]) .rfl rfl rfl rfl rfl).frame .sent rfl
  · intro s p b rest hdown hended hfar
    rw [exec_farTierProbe_of hdown hended, exec_farTierProbe_of hdown hended, hfar]
    exact ⟨rfl, rfl⟩
  · intro s m b rest ok hdown hended hfar
    rw [exec_farTierProbe_of hdown hended, hfar]
    refine ⟨fun hnone => by rw [hnone]; rfl, fun q qs st data hreqs hresult => ?_⟩
    rw [hreqs]
    dsimp only [List.head?]
    rw [hresult]
    exact congrArg Host.Outcome.next (State.probed_eq (t := s.dropReqs (· == probeOwner)) hdown st)

end Sys2Proof.Machine

/-! The loader (R335 to R355): requests are taken from the waiting notices, and each ends as its task's state decides. Settles O45. -/

namespace Sys2Proof.Machine

open Sys2Proof

section Loader

variable {s v : State} {x : Notice} {q : LdrCmd} {y z : Task} {r : LdrReq}

/-! ### Requests taken (R335, R337) -/

/-- The notice that the loader takes next: the first in its slots, with its record in its poster's reach and ready, and no LOAD under way. -/
structure State.Takes (s : State) (x : Notice) (q : LdrCmd) : Prop where
  first : (s.notices.find? fun y => y.d = 8) = some x
  mode : s.power.mode ≠ .safe
  free : ∀ t ∈ s.ldr.tasks, t.state ≠ .loading
  reach : s.posterReaches x.sender x.pointer 128 = true
  ready : s.ready .loader x.pointer 128 true = true
  cmd : q = ⟨x, s.seen x.pointer 128⟩

theorem State.Takes.noLoad (h : s.Takes x q) : (s.ldr.tasks.find? fun t => t.state = .loading) = none :=
  List.find?_eq_none.2 fun t ht hload => h.free t ht (of_decide_eq_true hload)

theorem State.Takes.noLoading (h : s.Takes x q) : (s.ldr.tasks.any fun t => decide (t.state = .loading)) = false :=
  List.any_eq_false.2 fun t ht => by simpa using h.free t ht

/-- A request that an operation takes empties its slot, and its effect follows. -/
theorem State.ldrTake_of {op : Nat → Bool} {f : LdrCmd → State → State} (h : s.Takes x q) (hop : op q.op = true) (hfield : q.fieldBad = false) :
    s.ldrTake op f = (f q (s.emptySlot 8 0 x.n)).useObtained x.pointer 128 := by
  unfold State.ldrTake
  rw [h.first]
  dsimp only
  rw [if_neg (not_or.2 ⟨h.mode, Bool.eq_false_iff.1 h.noLoading⟩), if_neg (by rw [h.reach]; decide), State.withMem_of_ready h.ready, ← h.cmd,
    if_neg (by rw [hop]; decide), hfield, if_neg Bool.false_ne_true]

/-- A request on a task by its owner, in a state that its operation lists. -/
theorem State.ldrOwned_of {states : List TaskState} {f : Task → State → State} (htask : s.task q.task = some y) (howner : y.owner = posterOwner q.x.sender)
    (hstate : states.contains y.state = true) : s.ldrOwned q states f = f y s := by
  unfold State.ldrOwned
  rw [htask]
  dsimp only
  rw [if_neg (not_not.2 howner), hstate, if_neg (by decide)]

theorem State.emptySlot_task (d k n id : Nat) : (s.emptySlot d k n).task id = s.task id := rfl

/-! ### LOAD (R345 to R349) -/

theorem exec_ldrLoad_taken {fill : List (List Byte)} (h : s.Takes x q) (hop : q.op = 1) (hfield : q.fieldBad = false) :
    exec (.ldrLoad fill) s = .next (((s.emptySlot 8 0 x.n).ldrBegin q).useObtained x.pointer 128) := by
  change execLdrLoad fill s = _
  unfold execLdrLoad
  rw [h.noLoad]
  exact congrArg Host.Outcome.next (State.ldrTake_of h (by rw [hop]; rfl) hfield)

theorem State.ldrBegin_of {i : Nat} (hop : q.op = 1) (hmem : s.allMem q.addr q.bytes = true) (hreach : s.posterReaches q.x.sender q.addr q.bytes = true)
    (hid : ((List.range 64).find? fun i => !s.ldr.tasks.any fun t => t.id = i + 1) = some i) (harea : s.areaUsed + q.bytes ≤ s.loaderArea.2) :
    s.ldrBegin q = { s with ldr := { s.ldr with tasks := s.ldr.tasks ++ [freshTask (i + 1) q (s.seen q.addr q.bytes)] } } := by
  unfold State.ldrBegin
  rw [if_neg (not_not.2 hop), hmem, hreach, if_neg (by decide), hid]
  exact if_neg (Nat.not_lt.2 harea)

theorem exec_ldrLoad_decides {fill : List (List Byte)} (hload : (s.ldr.tasks.find? fun t => t.state = .loading) = some y) (hreq : y.load = some r)
    (hready : s.ready .loader r.pointer 128 true = true) : exec (.ldrLoad fill) s = .next ((s.ldrDecide y r fill).useObtained r.pointer 128) := by
  change execLdrLoad fill s = _
  unfold execLdrLoad
  rw [hload]
  dsimp only
  rw [hreq]
  exact congrArg Host.Outcome.next (State.withMem_of_ready hready)

theorem State.ldrDecide_rejected {fill : List (List Byte)} {why : Reject} (h : s.verify y.image y.image.length s.loaderArea.2 = some why) :
    s.ldrDecide y r fill =
      ({ s with ldr := { s.ldr with tasks := s.ldr.tasks.filter (fun t => t.id ≠ y.id), rejLast := why.code } } : State).ldrReply r 5 0x0070 why.report := by
  unfold State.ldrDecide
  rw [h]
  rfl

theorem State.ldrDecide_accepted {fill : List (List Byte)} {p : Plan} (h : s.verify y.image y.image.length s.loaderArea.2 = none) (hplan : s.plan y.image = .ok p) :
    s.ldrDecide y r fill = s.withRanges .loader (p.ranges y.owner (imgEntries y.image 3).zipIdx) fun s => s.ldrAccept y r p fill := by
  unfold State.ldrDecide
  rw [h, hplan]

/-- States that differ in lines obtained from hosts alone. -/
def State.DiffersInLines (t u : State) : Prop := t = { u with mem := { u.mem with obtained := t.mem.obtained, owned := t.mem.owned } }

theorem State.DiffersInLines.useObtained {t u : State} (h : t.DiffersInLines u) (a n : Nat) : (t.useObtained a n).DiffersInLines u := by
  unfold State.DiffersInLines at h
  rw [h]
  rfl

theorem State.DiffersInLines.ldr {t u : State} (h : t.DiffersInLines u) : t.ldr = u.ldr := by
  unfold State.DiffersInLines at h
  rw [h]

/-- An effect on ranges that are ready takes place. -/
theorem State.withRanges_of_ready {ag : Agent} {ps : List (Nat × Nat × Bool)} {f : State → State} (h : ∀ p ∈ ps, s.rangeReady ag p.1 p.2.1 p.2.2 = true) :
    (s.withRanges ag ps f).DiffersInLines (f s) := by
  unfold State.withRanges
  rw [if_pos (List.all_eq_true.2 h)]
  generalize f s = t
  have key : ∀ (ps : List (Nat × Nat × Bool)) (u : State), u.DiffersInLines t → (ps.foldl (fun s p => s.onMem fun m => { m with
      obtained := m.obtained.filter fun l => (cellOffset p.1 p.2.1 (l * 64)).isNone
      owned := m.owned.filter fun l => (cellOffset p.1 p.2.1 (l * 64)).isNone }) u).DiffersInLines t := by
    intro ps
    induction ps with
    | nil => exact fun u hu => hu
    | cons p ps ih =>
      intro u hu
      refine ih _ ?_
      unfold State.DiffersInLines at hu
      rw [hu]
      rfl
  exact key ps t rfl

/-! ### What an accepted task is (R349) -/

/-- The task that a LOAD leaves. -/
def Task.accepted (y : Task) (p : Plan) (models : List Nat) : Task :=
  { y with
    state := .loaded
    bases := p.bases
    moved := p.moved
    buffer := p.buffer
    halves := if p.buffer.isSome then [⟨none, false, 0⟩, ⟨none, false, 0⟩] else []
    models := models
    load := none }

/-- The tasks of a state written over by one of them. -/
theorem State.mem_onTask {t : Task} (hy : y ∈ s.ldr.tasks) : t ∈ (s.onTask y.id fun _ => t).ldr.tasks :=
  List.mem_map.2 ⟨y, hy, if_pos rfl⟩

theorem State.putModels_ldr (bs : List (List Byte)) : (s.putModels bs).1.ldr = s.ldr :=
  (State.putModels_keeps (F := oneOf [.regs, .mem, .kv]) .rfl rfl rfl rfl).frame .ldr rfl

theorem State.fillAll_ldr (owner : Nat) (p : Plan) (as : List (List Byte × Nat)) (fill : List (List Byte)) : (s.fillAll owner p as fill).ldr = s.ldr :=
  (State.fillAll_keeps (F := oneOf [.free, .sent, .mem, .fab]) .rfl rfl rfl rfl rfl).frame .ldr rfl

theorem State.ldrReply_ldr (r : LdrReq) (status reason : Nat) (report : List Byte) : (s.ldrReply r status reason report).ldr = s.ldr :=
  (State.ldrReply_keeps (F := oneOf [.free, .sent, .power, .regs, .mem, .ports, .notices, .kept, .fab]) .rfl rfl rfl rfl rfl rfl rfl rfl rfl rfl).frame .ldr rfl

theorem State.foldl_onCore_ldr {α : Type} (l : List α) (d c : α → Nat) (f : α → Core → Core) :
    (l.foldl (fun s k => s.onCore (d k) (c k) (f k)) s).ldr = s.ldr := by
  induction l generalizing s with
  | nil => rfl
  | cons k l ih => exact ih

theorem State.ite_fresh_ldr {c : Prop} [Decidable c] (u : State) : (if c then u else u.fresh.2).ldr = u.ldr := by
  split <;> rfl

theorem State.ldrAccept_task {p : Plan} {fill : List (List Byte)} (hy : y ∈ s.ldr.tasks) :
    y.accepted p (s.putModels (imgEntries y.image 4)).2 ∈ (s.ldrAccept y r p fill).ldr.tasks := by
  unfold State.ldrAccept
  dsimp only
  rw [State.ldrReply_ldr]
  have hfill : ((s.putModels (imgEntries y.image 4)).1.fillAll y.owner p (imgEntries y.image 3).zipIdx fill).ldr = s.ldr :=
    (State.fillAll_ldr ..).trans (State.putModels_ldr _)
  have hdone : y.accepted p (s.putModels (imgEntries y.image 4)).2 ∈
      (((s.putModels (imgEntries y.image 4)).1.fillAll y.owner p (imgEntries y.image 3).zipIdx fill).onTask y.id fun _ =>
        y.accepted p (s.putModels (imgEntries y.image 4)).2).ldr.tasks := State.mem_onTask (by rw [hfill]; exact hy)
  rw [State.ite_fresh_ldr, State.foldl_onCore_ldr]
  exact hdone

/-! ### START, RELEASE and ABORT (R351, R353, R355) -/

theorem exec_ldrStart_of (h : s.Takes x q) (hfield : q.fieldBad = false) (htask : s.task q.task = some y) (howner : y.owner = posterOwner x.sender)
    (hstate : y.state = .loaded) (hop : q.op = 2) (hv : v = s.emptySlot 8 0 x.n) :
    (v.startBlocked y = none → exec .ldrStart s =
      .next (((v.startCores y).onTask y.id fun t => { t with state := .running, start := some q.req, done := [] }).useObtained x.pointer 128)) ∧
    (∀ fault d c, v.startBlocked y = some (fault, d, c) →
      exec .ldrStart s = .next ((v.ldrReply q.req 5 0x0077 (runReport fault d c 0 0 [])).useObtained x.pointer 128)) := by
  subst hv
  have hq : q.x = x := by rw [h.cmd]
  have hown : (s.emptySlot 8 0 x.n).task q.task = some y := htask
  have hlist : [TaskState.loaded].contains y.state = true := by rw [hstate]; rfl
  have htaken : ∀ f : LdrCmd → Task → State → State, s.ldrTake (fun op => decide (op = 2)) (fun q s => s.ldrOwned q [.loaded] (f q)) = (f q y (s.emptySlot 8 0 x.n)).useObtained x.pointer 128 :=
    fun f => (State.ldrTake_of h (decide_eq_true hop) hfield).trans (by rw [State.ldrOwned_of hown (by rw [hq]; exact howner) hlist])
  refine ⟨fun hfree => congrArg Host.Outcome.next ((htaken _).trans ?_), fun fault d c hblocked => congrArg Host.Outcome.next ((htaken _).trans ?_)⟩
  · rw [hfree]
  · rw [hblocked]

theorem exec_ldrRelease_of (h : s.Takes x q) (hfield : q.fieldBad = false) (htask : s.task q.task = some y) (howner : y.owner = posterOwner x.sender)
    (hstate : y.state = .loaded) (hop : q.op = 4) :
    exec .ldrRelease s = .next ((((s.emptySlot 8 0 x.n).freeTask y.id).ldrReply q.req 0 0 []).useObtained x.pointer 128) := by
  have hq : q.x = x := by rw [h.cmd]
  have hown : (s.emptySlot 8 0 x.n).task q.task = some y := htask
  have hlist : [TaskState.loaded].contains y.state = true := by rw [hstate]; rfl
  refine congrArg Host.Outcome.next ((State.ldrTake_of h (decide_eq_true hop) hfield).trans ?_)
  rw [State.ldrOwned_of hown (by rw [hq]; exact howner) hlist]

/-- What an ABORT does to its task, by the task's state. -/
def State.aborted (s : State) (q : LdrCmd) (y : Task) : State :=
  match y.state with
  | .loading => ((match y.load with | some r => s.ldrReply r 5 0x0071 [] | none => s).dropTask y.id).ldrReply q.req 0 0 []
  | .running => s.onTask y.id fun t => { t with aborts := t.aborts ++ [q.req] }
  | _ => s.ldrReply q.req 0 0 []

theorem exec_ldrAbort_of (hwait : s.abortWaiting = some q) (hmode : s.power.mode ≠ .safe) (htask : s.task q.task = some y)
    (hready : s.ready .loader q.req.pointer 128 true = true) (hload : ∀ r, y.load = some r → s.ready .loader r.pointer 128 true = true) (hfield : q.fieldBad = false)
    (howner : y.owner = posterOwner q.x.sender) (hstate : y.state ≠ .aborting) :
    exec .ldrAbort s = .next (y.load.toList.foldl (fun s r => s.useObtained r.pointer 128) (((s.emptySlot 8 0 q.x.n).aborted q y).useObtained q.req.pointer 128)) := by
  have hlist : [TaskState.loading, .loaded, .running].contains y.state = true := by
    cases hs : y.state with
    | loading | loaded | running => rfl
    | aborting => exact absurd hs hstate
  have hall : ∀ p ∈ (q.req :: y.load.toList).map (fun q => (q.pointer, 128, true)), s.ready .loader p.1 p.2.1 p.2.2 = true := by
    intro p hp
    obtain ⟨r, hr, rfl⟩ := List.mem_map.1 hp
    rcases List.mem_cons.1 hr with rfl | hr
    · exact hready
    · exact hload r (Option.mem_toList.1 hr)
  change execLdrAbort s = _
  unfold execLdrAbort
  rw [hwait]
  dsimp only
  rw [if_neg hmode, htask, show (some y).bind (·.load) = y.load from rfl]
  unfold State.ldrReplies
  rw [State.withMem_of_all hall, hfield, if_neg Bool.false_ne_true, State.ldrOwned_of (s := s.emptySlot 8 0 q.x.n) htask howner hlist, List.map_cons, List.foldl_cons, List.foldl_map]
  unfold State.aborted
  rfl

/-! ### The ends of a run (R351 to R353) -/

theorem exec_runEnd_of {id : Nat} (htask : s.task id = some y) (hstate : y.state = .running) (hdone : y.allDone = true) (hstart : y.start = some r)
    (haborts : y.aborts = []) (hready : s.ready .loader r.pointer 128 true = true) :
    exec (.runEnd id) s = .next (((s.finishRun id).ldrReply r 0 0 cleanReport).useObtained r.pointer 128) := by
  change execRunEnd id s = _
  unfold execRunEnd
  rw [htask]
  dsimp only
  rw [State.when_pos (by rw [hstate, hdone]; rfl), hstart, haborts]
  exact congrArg Host.Outcome.next (State.withMem_of_ready hready)

/-- What TASK_ABORT answers for an aborting task. -/
def State.answerAbort (s : State) (id : Nat) (z : Task) : State :=
  z.aborts.foldl (fun s q => s.ldrReply q 0 0 [])
    (match z.start with | some q => (s.finishRun id).ldrReply q 5 (if field z.report 0 2 = 0 then 0x0075 else 0x0074) z.report | none => s.finishRun id)

/-- A run that an ABORT or a fault ends is aborted, and its requests answered once their records can be written. -/
theorem exec_taskAbort_of {id fault d c : Nat} {report : List Byte} (htask : s.task id = some y) (hstate : y.state = .running) (hdone : y.allDone = false)
    (hwhy : (fault = 0 ∧ y.aborts.isEmpty = false ∧ report = cleanReport) ∨
      (fault ≠ 0 ∧ (d, c) ∈ y.cores ∧ (s.core d c).faulted = some fault ∧ report = s.faultReport fault d c))
    (hv : v = (s.abortRun id).onTask id fun t => { t with report := report }) (hz : v.task id = some z) (haborting : z.state = .aborting)
    (hready : ∀ r ∈ z.start.toList ++ z.aborts, v.ready .loader r.pointer 128 true = true) :
    exec (.taskAbort id fault d c) s =
      .next ((z.start.toList ++ z.aborts).foldl (fun s r => s.useObtained r.pointer 128) (v.answerAbort id z)) := by
  have hbegin : (if y.state = .running ∧ y.allDone = false then
      (if fault = 0 ∧ y.aborts.isEmpty = false then (s.abortRun id).onTask id fun t => { t with report := cleanReport }
       else if fault ≠ 0 ∧ y.cores.contains (d, c) = true ∧ (s.core d c).faulted = some fault then
        (s.abortRun id).onTask id fun t => { t with report := s.faultReport fault d c }
       else s) else s) = v := by
    rw [if_pos ⟨hstate, hdone⟩, hv]
    rcases hwhy with ⟨hzero, hab, rfl⟩ | ⟨hne, hmem, hfault, rfl⟩
    · rw [if_pos ⟨hzero, hab⟩]
    · rw [if_neg (fun h => hne h.1), if_pos ⟨hne, List.contains_iff_mem.2 hmem, hfault⟩]
  have hall : ∀ p ∈ (z.start.toList ++ z.aborts).map (fun q => (q.pointer, 128, true)), v.ready .loader p.1 p.2.1 p.2.2 = true := by
    intro p hp
    obtain ⟨r, hr, rfl⟩ := List.mem_map.1 hp
    exact hready r hr
  change execTaskAbort id fault d c s = _
  unfold execTaskAbort
  rw [htask]
  dsimp only
  rw [hbegin, hz]
  dsimp only
  rw [State.when_pos (decide_eq_true haborting)]
  unfold State.ldrReplies State.answerAbort
  rw [State.withMem_of_all hall, List.foldl_map] <;> rfl

end Loader

end Sys2Proof.Machine

/-! Settling O45: the stream buffer's fetch, and the loader's operations together. -/

namespace Sys2Proof.Machine

open Sys2Proof

section Fetches

variable {s : State}

theorem exec_streamBufferFetch_of {id alloc base half i : Nat} {data : List Byte} {y : Task} (htask : s.task id = some y) (hbuffer : y.buffer = some (base, half))
    (hhalf : (y.halves.findIdx? fun h => decide (h.alloc = some alloc) && h.fetching) = some i) :
    exec (.streamBufferFetch id alloc data) s = .next (s.withRanges (.kvm ((y.cores.headD (0, 0)).1)) [(base + i * half, half, true)] fun s =>
      (s.fillRange (base + i * half) half data).onTask id fun t => { t with halves := modAt (fun h => { h with fetching := false }) t.halves i }) := by
  change execStreamBufferFetch id alloc data s = _
  unfold execStreamBufferFetch
  rw [htask]
  dsimp only
  rw [hbuffer, hhalf]

end Fetches

/-- Settles O45: a request ends as its task's state decides, and a run ends in the answers to its START and its ABORTs. -/
theorem tasksAreLoadedRunAndEnded : Obligations.TasksAreLoadedRunAndEnded := by
  refine ⟨⟨?_, ?_, ?_, ?_⟩, ?_, ?_, ?_, ?_, ?_, ?_⟩
  · exact fun s x q fill hfirst hmode hfree hreach hready hq hop hfield => exec_ldrLoad_taken ⟨hfirst, hmode, hfree, hreach, hready, hq⟩ hop hfield
  · exact fun s q i hop hmem hreach hid harea => ⟨_, State.ldrBegin_of hop hmem hreach hid harea, rfl, rfl, rfl, rfl, rfl⟩
  · intro s x q fill r hload hreq hready hbad
    rw [exec_ldrLoad_decides hload hreq hready, State.ldrDecide_rejected hbad]
  · intro s x q fill p hload hreq hready hgood hplan hranges
    have hlines := State.withRanges_of_ready (f := fun s => s.ldrAccept x q p fill) hranges
    rw [← State.ldrDecide_accepted hgood hplan] at hlines
    have hused := hlines.useObtained q.pointer 128
    refine ⟨_, _, exec_ldrLoad_decides hload hreq hready, hused, rfl, x.accepted p (s.putModels (imgEntries x.image 4)).2, ?_, rfl, rfl, rfl, rfl, rfl⟩
    rw [hused.ldr]
    exact State.ldrAccept_task (List.mem_of_find?_eq_some hload)
  · intro s v x q y hfirst hmode hfree hreach hready hq hfield hv htask howner hstate
    have htakes : s.Takes x q := ⟨hfirst, hmode, hfree, hreach, hready, hq⟩
    refine ⟨fun hop => (exec_ldrStart_of htakes hfield htask howner hstate hop hv).1, fun hop => (exec_ldrStart_of htakes hfield htask howner hstate hop hv).2,
      fun hop => ?_⟩
    rw [hv]
    exact exec_ldrRelease_of htakes hfield htask howner hstate hop
  · intro s q y hwait hmode htask hready hload hfield howner
    have hexec := exec_ldrAbort_of hwait hmode htask hready hload hfield howner
    unfold State.aborted at hexec
    refine ⟨fun hstate => ?_, fun hstate => ?_, fun r hstate hreq => ?_⟩
    · rw [hexec (by rw [hstate]; decide), hstate]
    · rw [hexec (by rw [hstate]; decide), hstate]
    · rw [hexec (by rw [hstate]; decide), hstate, hreq]
      rfl
  · exact fun s id y r htask hstate hdone hstart haborts hready => exec_runEnd_of htask hstate hdone hstart haborts hready
  · intro s v id fault d c y z r htask hstate hdone hne hcore hfault _ _ hv hz haborting hstart haborts hreport hfield hready
    rw [exec_taskAbort_of htask hstate hdone (.inr ⟨hne, hcore, hfault, rfl⟩) hv hz haborting (by simpa [hstart, haborts] using hready)]
    unfold State.answerAbort
    rw [hstart, haborts, if_neg hfield, hreport]
    rfl
  · intro s v id d c y z r q htask hstate hdone _ habort hv hz haborting hstart haborts hreport hready hready'
    rw [exec_taskAbort_of htask hstate hdone (.inl ⟨rfl, by rw [habort]; rfl, rfl⟩) hv hz haborting (by simpa [hstart, haborts] using ⟨hready, hready'⟩)]
    unfold State.answerAbort
    rw [hstart, haborts, hreport, if_pos (by decide)]
    rfl
  · intro s id alloc base half i data y htask hbuffer hhalf hready
    exact ⟨_, _, exec_streamBufferFetch_of htask hbuffer hhalf, State.withRanges_of_ready (by simpa using hready), rfl⟩

end Sys2Proof.Machine

/-! The lane groups: ports, engines and lanes read back what is written to them (R28, R361), and sending flits leaves what a port is to its peer. -/

namespace Sys2Proof.Machine

open Sys2Proof

section Groups

variable {s t u : State} {p q e n i : Nat}

/-! ### What is written reads back -/

theorem State.fport_onFPort_self (f : FPort → FPort) : (s.onFPort p f).fport p = f (s.fport p) := mget_mput_self

theorem State.fport_onFPort_ne (f : FPort → FPort) (h : q ≠ p) : (s.onFPort p f).fport q = s.fport q := mget_mput_ne h

theorem State.lane_onLane_self (f : Lane → Lane) : (s.onLane e n f).lane e n = f (s.lane e n) := mget_mput_self

theorem State.lane_onLane_ne {e' n' : Nat} (f : Lane → Lane) (h : e' * 64 + n' ≠ e * 64 + n) : (s.onLane e n f).lane e' n' = s.lane e' n' := mget_mput_ne h

theorem State.lane_eq {e' n' : Nat} (h : e' * 64 + n' = e * 64 + n) : s.lane e' n' = s.lane e n := congrArg (mget freshLane s.fab.lanes) h

/-- A lane after a write to one: written too where it is the same lane. -/
theorem State.lane_onLane {e' n' : Nat} (f : Lane → Lane) :
    (s.onLane e n f).lane e' n' = if e' * 64 + n' = e * 64 + n then f (s.lane e n) else s.lane e' n' := by
  split
  next h => rw [State.lane_eq h, State.lane_onLane_self]
  next h => exact State.lane_onLane_ne f h

theorem State.engine_onEngine_self (f : Engine → Engine) : (s.onEngine e f).engine e = f (s.engine e) := mget_mput_self

theorem State.lane_congr (h : t.fab.lanes = s.fab.lanes) (e n : Nat) : t.lane e n = s.lane e n := congrArg (mget freshLane · (e * 64 + n)) h

theorem State.engine_congr (h : t.fab.engines = s.fab.engines) (e : Nat) : t.engine e = s.engine e := congrArg (mget freshEngine · e) h

theorem State.physOf_congr (h : t.engine e = s.engine e) (i : Nat) : t.physOf e i = s.physOf e i := congrArg (fun x : Engine => (x.map[i]?).getD i) h

theorem State.logicalOf_congr (h : t.engine e = s.engine e) (n : Nat) : t.logicalOf e n = s.logicalOf e n :=
  congrArg (fun x : Engine => (List.range 32).find? fun i => decide ((x.map[i]?).getD i = n)) h

theorem State.portLanes_congr (h : t.fab.engines = s.fab.engines) (hhalf : (t.fport p).half = (s.fport p).half) : t.portLanes p = s.portLanes p := by
  unfold State.portLanes State.physOf State.engine
  rw [h, hhalf]

/-! ### Logical lanes -/

theorem State.logicalOf_lt (h : s.logicalOf e n = some i) : i < 32 := List.mem_range.1 (List.mem_of_find?_eq_some h)

theorem State.physOf_logicalOf (h : s.logicalOf e n = some i) : s.physOf e i = n := by simpa using List.find?_some h

theorem State.logicalOf_physOf (hi : i < 32) : (s.logicalOf e (s.physOf e i)).isSome = true :=
  List.find?_isSome.2 ⟨i, List.mem_range.2 hi, decide_eq_true rfl⟩

theorem State.logicalOf_eq_none : s.logicalOf e n = none ↔ ∀ i < 32, s.physOf e i ≠ n := by
  unfold State.logicalOf
  simp

theorem State.physOf_mapLane_self (hmap : (s.engine e).map.length = 32) (hi : i < 32) (n : Nat) : (s.mapLane e i n).physOf e i = n := by
  unfold State.mapLane State.physOf
  rw [State.engine_onEngine_self]
  simp [hmap, hi]

theorem State.physOf_mapLane_ne {j : Nat} (hj : j ≠ i) (n : Nat) : (s.mapLane e i n).physOf e j = s.physOf e j := by
  unfold State.mapLane State.physOf
  rw [State.engine_onEngine_self]
  dsimp only
  rw [List.getElem?_set_ne (Ne.symm hj)]

/-- The lanes of a fabric port, of its one engine and in its one third of the logical lanes (R28). -/
theorem State.mem_portLanes (hp : p < 48) {en : Nat × Nat} (h : en ∈ s.portLanes p) : ∃ j, j < 8 ∧ en = (p / 3, s.physOf (p / 3) (portBase p + j)) ∧
    (∀ h, (s.fport p).half = some h → j / 4 = h) := by
  unfold State.portLanes portEngines at h
  rw [if_pos hp, List.flatMap_singleton] at h
  obtain ⟨j, hj, rfl⟩ := List.mem_map.1 h
  obtain ⟨hlt, hhalf⟩ := List.mem_filter.1 hj
  refine ⟨j, List.mem_range.1 hlt, rfl, fun h hh => ?_⟩
  rw [hh] at hhalf
  exact of_decide_eq_true hhalf

theorem State.mem_portLanes_iff (hp : p < 48) {en : Nat × Nat} : en ∈ s.portLanes p ↔ ∃ j, j < 8 ∧ en = (p / 3, s.physOf (p / 3) (portBase p + j)) ∧
    (∀ h, (s.fport p).half = some h → j / 4 = h) := by
  refine ⟨State.mem_portLanes hp, ?_⟩
  rintro ⟨j, hj, rfl, hhalf⟩
  unfold State.portLanes portEngines
  rw [if_pos hp, List.flatMap_singleton]
  refine List.mem_map.2 ⟨j, List.mem_filter.2 ⟨List.mem_range.2 hj, ?_⟩, rfl⟩
  cases hh : (s.fport p).half with
  | none => rfl
  | some h => exact decide_eq_true (hhalf h hh)

theorem groupPort_lt (hi : i < 24) (he : e < 16) : groupPort e i < 48 := by
  unfold groupPort
  rw [if_pos hi]
  omega

theorem groupPort_div (hi : i < 24) : groupPort e i / 3 = e := by
  unfold groupPort
  rw [if_pos hi]
  omega

theorem portBase_lt (hp : p < 48) {j : Nat} (hj : j < 8) : portBase p + j < 24 := by
  unfold portBase
  rw [if_pos hp]
  omega

/-! ### Sending flits and frames -/

/-- What a port is to its peer: everything but what waits to leave, what is outstanding and its credits. -/
def FPort.link (x : FPort) : FPort := { x with out := [], credits := [], txNext := 0, flits := [] }

/-- States whose fabrics differ in the traffic of their ports alone. -/
structure State.SameLinks (s t : State) : Prop where
  fab : t.fab = { s.fab with ports := t.fab.ports }
  link : ∀ p, (t.fport p).link = (s.fport p).link

namespace State.SameLinks

theorem refl (s : State) : s.SameLinks s := ⟨rfl, fun _ => rfl⟩

theorem trans (h : s.SameLinks t) (k : t.SameLinks u) : s.SameLinks u :=
  ⟨by rw [k.fab, h.fab], fun p => (k.link p).trans (h.link p)⟩

theorem of_fab (h : t.fab = s.fab) : s.SameLinks t := ⟨by rw [h], fun p => congrArg (fun x : Fabric => (mget freshFPort x.ports p).link) h⟩

theorem lanes (h : s.SameLinks t) : t.fab.lanes = s.fab.lanes := by rw [h.fab]
theorem engines (h : s.SameLinks t) : t.fab.engines = s.fab.engines := by rw [h.fab]
theorem down (h : s.SameLinks t) : t.fab.down = s.fab.down := by rw [h.fab]
theorem reqs (h : s.SameLinks t) : t.fab.reqs = s.fab.reqs := by rw [h.fab]
theorem colls (h : s.SameLinks t) : t.fab.colls = s.fab.colls := by rw [h.fab]

theorem onFPort {f : FPort → FPort} (hf : ∀ x, (f x).link = x.link) : s.SameLinks (s.onFPort p f) := by
  refine ⟨rfl, fun q => ?_⟩
  by_cases h : q = p
  · rw [h, State.fport_onFPort_self, hf]
  · rw [State.fport_onFPort_ne f h]

/-- Marks of modules set alike. -/
theorem onDown (h : s.SameLinks t) (g : Fabric → List Nat) :
    (s.onFab fun x => { x with down := g t.fab }).SameLinks (t.onFab fun x => { x with down := g x }) := by
  refine ⟨?_, h.link⟩
  change ({ t.fab with down := g t.fab } : Fabric) = { s.fab with ports := t.fab.ports, down := g t.fab }
  rw [h.fab]

theorem phase (h : s.SameLinks t) (p : Nat) : (t.fport p).phase = (s.fport p).phase :=
  show (t.fport p).link.phase = (s.fport p).link.phase from congrArg FPort.phase (h.link p)
theorem rate (h : s.SameLinks t) (p : Nat) : (t.fport p).rate = (s.fport p).rate :=
  show (t.fport p).link.rate = (s.fport p).link.rate from congrArg FPort.rate (h.link p)
theorem half (h : s.SameLinks t) (p : Nat) : (t.fport p).half = (s.fport p).half :=
  show (t.fport p).link.half = (s.fport p).link.half from congrArg FPort.half (h.link p)
theorem swap (h : s.SameLinks t) (p : Nat) : (t.fport p).swap = (s.fport p).swap :=
  show (t.fport p).link.swap = (s.fport p).link.swap from congrArg FPort.swap (h.link p)
theorem naked (h : s.SameLinks t) (p : Nat) : (t.fport p).naked = (s.fport p).naked :=
  show (t.fport p).link.naked = (s.fport p).link.naked from congrArg FPort.naked (h.link p)
theorem epoch (h : s.SameLinks t) (p : Nat) : (t.fport p).epoch = (s.fport p).epoch :=
  show (t.fport p).link.epoch = (s.fport p).link.epoch from congrArg FPort.epoch (h.link p)
theorem lane (h : s.SameLinks t) (e n : Nat) : t.lane e n = s.lane e n := State.lane_congr h.lanes e n
theorem engine (h : s.SameLinks t) (e : Nat) : t.engine e = s.engine e := State.engine_congr h.engines e
theorem portLanes (h : s.SameLinks t) (p : Nat) : t.portLanes p = s.portLanes p := State.portLanes_congr h.engines (h.half p)

theorem foldl {α : Type} {f : State → α → State} (hf : ∀ (u : State) (a : α), u.SameLinks (f u a)) (l : List α) (s : State) : s.SameLinks (l.foldl f s) := by
  induction l generalizing s with
  | nil => exact refl s
  | cons a l ih => exact (hf s a).trans (ih _)

end State.SameLinks

theorem State.sendFlit_sameLinks (data : Bool) (payload : List Byte) (nak : Bool) : s.SameLinks (s.sendFlit p data payload nak) :=
  State.SameLinks.trans (t := s.onFPort p fun x => { x with txNext := (x.txNext + 1) % 4096, flits := x.flits ++ [⟨(s.fport p).txNext, data, padTo 240 0 payload⟩] })
    (.onFPort (by exact fun _ => rfl)) (.of_fab rfl)

theorem State.sendFlits_sameLinks (n : Nat) (bs : List Byte) : s.SameLinks (s.sendFlits p n bs) := by
  induction n generalizing s bs with
  | zero => exact .refl s
  | succ n ih =>
    unfold State.sendFlits
    split
    · exact .refl s
    · exact (State.sendFlit_sameLinks ..).trans (ih _)

theorem State.queueFrame_sameLinks (f : List Byte) (vc : Nat) (from_ : Option (Nat × Nat × Nat)) : s.SameLinks (s.queueFrame p f vc from_) := by
  unfold State.queueFrame
  exact .onFPort (by exact fun _ => rfl)

theorem State.freeBuffer_sameLinks (from_ : Option (Nat × Nat × Nat)) (units : Nat) : s.SameLinks (s.freeBuffer from_ units) := by
  unfold State.freeBuffer
  split
  · split
    · exact State.queueFrame_sameLinks ..
    · exact .refl s
  · exact .refl s

theorem State.pump_sameLinks (n : Nat) : s.SameLinks (s.pump p n) := by
  induction n generalizing s with
  | zero => exact .refl s
  | succ n ih =>
    unfold State.pump
    dsimp only
    split
    · exact .refl s
    · split
      · exact .refl s
      · split
        · exact .refl s
        · refine State.SameLinks.trans ?_ ih
          refine State.SameLinks.trans ?_ (State.freeBuffer_sameLinks ..)
          exact State.SameLinks.trans (.onFPort (by exact fun _ => rfl)) (State.sendFlits_sameLinks ..)

theorem State.pumpAll_sameLinks : s.SameLinks s.pumpAll := .foldl (fun _ _ => State.pump_sameLinks _) _ s

theorem State.forwardTo_sameLinks (f : List Byte) (from_ : Option (Nat × Nat × Nat)) : s.SameLinks (s.forwardTo f from_) := by
  unfold State.forwardTo
  dsimp only
  split
  · exact .onFPort (by exact fun _ => rfl)
  · split
    · exact State.freeBuffer_sameLinks ..
    · split
      · exact (State.queueFrame_sameLinks ..).trans State.pumpAll_sameLinks
      · exact State.freeBuffer_sameLinks ..

theorem State.forward_sameLinks (f : List Byte) (from_ : Option (Nat × Nat × Nat)) : s.SameLinks (s.forward f from_) := by
  unfold State.forward
  dsimp only
  split
  · split
    · exact (State.freeBuffer_sameLinks ..).trans (State.forwardTo_sameLinks ..)
    · exact State.freeBuffer_sameLinks ..
  · exact State.forwardTo_sameLinks ..

end Groups

end Sys2Proof.Machine

/-! Training (R370, R371): what a port and its lanes are once it starts again, answers and comes up. -/

namespace Sys2Proof.Machine

open Sys2Proof

section Training

variable {s t u : State} {p q e n i : Nat}

/-! ### Folds over lanes, and folds that send -/

/-- Lanes written to one after another. -/
def State.onLanes (s : State) (l : List (Nat × Nat)) (f : Lane → Lane) : State := l.foldl (fun s en => s.onLane en.1 en.2 f) s

theorem State.onLanes_frame (l : List (Nat × Nat)) (f : Lane → Lane) : s.onLanes l f = { s with fab := { s.fab with lanes := (s.onLanes l f).fab.lanes } } := by
  unfold State.onLanes
  induction l generalizing s with
  | nil => rfl
  | cons en l ih =>
    rw [List.foldl_cons, ih]
    rfl

/-- What a write leaves as it is in every lane stays. -/
theorem State.onLanes_same {α : Type} (g : Lane → α) {f : Lane → Lane} (hf : ∀ x, g (f x) = g x) (l : List (Nat × Nat)) (e n : Nat) :
    g ((s.onLanes l f).lane e n) = g (s.lane e n) := by
  unfold State.onLanes
  induction l generalizing s with
  | nil => rfl
  | cons en l ih =>
    rw [List.foldl_cons, ih, State.lane_onLane]
    split
    next h => rw [hf, State.lane_eq h]
    next h => rfl

/-- What a write makes of every lane, every lane written is. -/
theorem State.onLanes_all {P : Lane → Prop} {f : Lane → Lane} (hf : ∀ x, P (f x)) {l : List (Nat × Nat)} {en : Nat × Nat} (h : en ∈ l) :
    P ((s.onLanes l f).lane en.1 en.2) := by
  have hkeep : ∀ (l : List (Nat × Nat)) (s : State), P (s.lane en.1 en.2) → P ((s.onLanes l f).lane en.1 en.2) := by
    unfold State.onLanes
    intro l
    induction l with
    | nil => exact fun s hs => hs
    | cons a l ih =>
      intro s hs
      rw [List.foldl_cons]
      refine ih _ ?_
      rw [State.lane_onLane]
      split
      · exact hf _
      · exact hs
  induction l generalizing s with
  | nil => cases h
  | cons a l ih =>
    unfold State.onLanes
    rw [List.foldl_cons]
    rcases List.mem_cons.1 h with rfl | h
    · exact hkeep l _ (by rw [State.lane_onLane_self]; exact hf _)
    · exact ih h

/-- A state after sends alone, which takes none of them back. -/
structure State.Sends (s t : State) : Prop where
  frame : t = { s with sent := t.sent }
  more : ∀ x ∈ s.sent, x ∈ t.sent

namespace State.Sends

theorem refl (s : State) : s.Sends s := ⟨rfl, fun _ h => h⟩

theorem send (x : Sent) : s.Sends (s.send x) := ⟨rfl, fun _ h => List.mem_append_left _ h⟩

theorem trans (h : s.Sends t) (k : t.Sends u) : s.Sends u := by
  refine ⟨?_, fun x hx => k.more x (h.more x hx)⟩
  rw [k.frame, h.frame]

theorem fab (h : s.Sends t) : t.fab = s.fab := by rw [h.frame]

theorem foldl {α : Type} {g : State → α → State} (hg : ∀ (u : State) (a : α), u.Sends (g u a)) (l : List α) (s : State) : s.Sends (l.foldl g s) := by
  induction l generalizing s with
  | nil => exact refl s
  | cons a l ih => exact (hg s a).trans (ih _)

/-- What one of a run of sends adds, whatever was sent before, the run adds. -/
theorem mem_foldl {α : Type} {g : State → α → State} (hg : ∀ (u : State) (a : α), u.Sends (g u a)) {l : List α} {a : α} (ha : a ∈ l) {x : Sent}
    (hx : ∀ u : State, s.Sends u → x ∈ (g u a).sent) : x ∈ (l.foldl g s).sent := by
  induction l generalizing s with
  | nil => cases ha
  | cons b l ih =>
    rw [List.foldl_cons]
    rcases List.mem_cons.1 ha with rfl | ha
    · exact (foldl hg l _).more x (hx s (refl s))
    · exact ih ha fun u hu => hx u ((hg s b).trans hu)

end State.Sends

theorem State.sendTs1_sends (e n eq count : Nat) : s.Sends (s.sendTs1 p e n eq count) := .send _

theorem State.sendBlocks_sends (mk : Nat → Nat → List Byte) : s.Sends (s.sendBlocks p mk) := .foldl (fun _ _ => .send _) _ s

theorem State.mem_sendBlocks {mk : Nat → Nat → List Byte} {en : Nat × Nat} (h : en ∈ s.portLanes p) : Sent.block en.1 en.2 (mk en.1 en.2) ∈ (s.sendBlocks p mk).sent :=
  State.Sends.mem_foldl (fun _ _ => .send _) h fun _ _ => List.mem_append_right _ (List.mem_singleton.2 rfl)

/-! ### A port that goes down or starts again (R371, R421) -/

/-- A port as it is when it goes down or starts again. -/
def FPort.restarted (x : FPort) (phase : PortPhase) : FPort := { freshFPort with phase := phase, epoch := x.epoch, half := x.half }

theorem State.linkLost_sameLinks (phase : PortPhase) : (s.onFPort p fun x => x.restarted phase).SameLinks (s.linkLost p phase) := by
  unfold State.linkLost
  refine .foldl (fun u o => ?_) _ _
  split
  · exact State.freeBuffer_sameLinks ..
  · exact State.forward_sameLinks ..

/-- A port that trains from step 2 (R371): fresh but for its epoch and its half, its lanes cleared but for their light and their failures, and every
other port and every engine as it was. -/
structure State.Retrained (s t : State) (p : Nat) : Prop where
  self : (t.fport p).link = ((s.fport p).restarted .training).link
  other : ∀ q, q ≠ p → (t.fport q).link = (s.fport q).link
  engines : t.fab.engines = s.fab.engines
  lit : ∀ e n, (t.lane e n).lit = (s.lane e n).lit
  failed : ∀ e n, (t.lane e n).failed = (s.lane e n).failed
  cleared : ∀ en ∈ s.portLanes p, (t.lane en.1 en.2).ts1 = false ∧ (t.lane en.1 en.2).ts2 = 0 ∧ (t.lane en.1 en.2).am = none
  asks : ∀ en ∈ s.portLanes p, (s.lane en.1 en.2).lit = true →
    Sent.block en.1 en.2 (s.tsBlock 3 en.1 en.2 ((s.logicalOf en.1 en.2).getD en.2) 2 0 0xFFFF) ∈ t.sent
  frame : t = { s with sent := t.sent, fab := t.fab }

theorem State.Retrained.phase (h : s.Retrained t p) : (t.fport p).phase = .training :=
  show (t.fport p).link.phase = _ by rw [h.self]; rfl

theorem State.Retrained.rate (h : s.Retrained t p) : (t.fport p).rate = false :=
  show (t.fport p).link.rate = _ by rw [h.self]; rfl

theorem State.Retrained.half (h : s.Retrained t p) : (t.fport p).half = (s.fport p).half :=
  show (t.fport p).link.half = _ by rw [h.self]; rfl

/-- A lane cleared for training. -/
def Lane.cleared (l : Lane) : Lane := { l with ts1 := false, countdown := false, eqOk := false, ts2 := 0, am := none, aligned := false, eidle := false }

theorem State.clearLanes_eq : s.clearLanes p = s.onLanes (s.portLanes p) Lane.cleared := rfl

theorem State.trainPort_retrained : s.Retrained (s.trainPort p) p := by
  have hlost : (s.onFPort p fun x => x.restarted .training).SameLinks (s.linkLost p .training) := State.linkLost_sameLinks .training
  have hself : ((s.linkLost p .training).fport p).link = ((s.fport p).restarted .training).link := by
    rw [hlost.link, State.fport_onFPort_self]
  have hhalf : ((s.linkLost p .training).fport p).half = (s.fport p).half :=
    show ((s.linkLost p .training).fport p).link.half = _ by rw [hself]; rfl
  have hother : ∀ q, q ≠ p → ((s.linkLost p .training).fport q).link = (s.fport q).link := fun q hq => by
    rw [hlost.link, State.fport_onFPort_ne _ hq]
  have hlanes : (s.linkLost p .training).portLanes p = s.portLanes p := State.portLanes_congr hlost.engines hhalf
  have hlane : ∀ e n, (s.linkLost p .training).lane e n = s.lane e n := fun e n => State.lane_congr hlost.lanes e n
  have hclear := State.onLanes_frame (s := s.linkLost p .training) (s.portLanes p) Lane.cleared
  have hcleared : (s.linkLost p .training).clearLanes p = (s.linkLost p .training).onLanes (s.portLanes p) Lane.cleared := by
    rw [State.clearLanes_eq, hlanes]
  generalize hu : (s.linkLost p .training).onLanes (s.portLanes p) Lane.cleared = u at hclear hcleared
  have hports : ∀ q, u.fport q = (s.linkLost p .training).fport q := fun q => by rw [hclear]; rfl
  have hengines : u.fab.engines = s.fab.engines := (show u.fab.engines = (s.linkLost p .training).fab.engines by rw [hclear]).trans hlost.engines
  have hsame : ∀ {α : Type} (g : Lane → α), (∀ x, g x.cleared = g x) → ∀ e n, g (u.lane e n) = g (s.lane e n) := fun g hg e n => by
    rw [← hu, State.onLanes_same g hg, hlane]
  have hulanes : u.portLanes p = s.portLanes p := State.portLanes_congr hengines ((congrArg FPort.half (hports p)).trans hhalf)
  have hg : ∀ (v : State) (en : Nat × Nat), v.Sends (if (v.lane en.1 en.2).lit = true then v.sendTs1 p en.1 en.2 0 0xFFFF else v) := fun v en => by
    split
    · exact State.sendTs1_sends ..
    · exact .refl v
  have hsends := State.Sends.foldl hg (s.portLanes p) u
  have htrain : s.trainPort p = (s.portLanes p).foldl (fun s en => if (s.lane en.1 en.2).lit then s.sendTs1 p en.1 en.2 0 0xFFFF else s) u := by
    unfold State.trainPort
    dsimp only
    rw [hcleared, hulanes]
  rw [htrain]
  have hfab := hsends.fab
  refine ⟨?_, fun q hq => ?_, ?_, fun e n => ?_, fun e n => ?_, fun en hen => ?_, fun en hen hlit => ?_, ?_⟩
  · rw [State.fport, hfab, ← State.fport, hports, hself]
  · rw [State.fport, hfab, ← State.fport, hports, hother q hq]
  · rw [hfab, hengines]
  · rw [State.lane, hfab, ← State.lane]
    exact hsame Lane.lit (fun _ => rfl) e n
  · rw [State.lane, hfab, ← State.lane]
    exact hsame Lane.failed (fun _ => rfl) e n
  · rw [State.lane, hfab, ← State.lane, ← hu]
    exact State.onLanes_all (P := fun l => l.ts1 = false ∧ l.ts2 = 0 ∧ l.am = none) (fun _ => ⟨rfl, rfl, rfl⟩) hen
  · refine State.Sends.mem_foldl hg hen fun v hv => ?_
    have hvlit : (v.lane en.1 en.2).lit = true := by
      rw [State.lane, hv.fab, ← State.lane, hsame Lane.lit (fun _ => rfl), hlit]
    have hvrate : (v.fport p).rate = false := by
      rw [State.fport, hv.fab, ← State.fport, hports]
      exact show ((s.linkLost p .training).fport p).link.rate = _ by rw [hself]; rfl
    have hvlogical : v.logicalOf en.1 en.2 = s.logicalOf en.1 en.2 :=
      State.logicalOf_congr (State.engine_congr ((congrArg Fabric.engines hv.fab).trans hengines) _) _
    have hmodule : v.moduleNo = s.moduleNo := by
      have hcfg : (s.linkLost p .training).cfg = s.cfg :=
        (State.linkLost_keeps (F := oneOf [.sent, .fab]) .rfl rfl rfl).frame .cfg rfl
      unfold State.moduleNo State.entries
      rw [hv.frame, hclear]
      dsimp only
      rw [hcfg]
    rw [if_pos hvlit]
    refine List.mem_append_right _ (List.mem_singleton.2 ?_)
    rw [hvrate, hvlogical]
    unfold State.tsBlock
    rw [hmodule]
    rfl
  · rw [← htrain]
    exact (State.trainPort_keeps (F := oneOf [.sent, .fab]) .rfl rfl rfl).eq_graft

/-! ### A port that comes up (R370, R412) -/

/-- A port as it comes up. -/
def FPort.raised (x : FPort) : FPort :=
  { x with phase := .up, swap := none, txNext := 0, rxNext := 0, flits := [], naked := false, resends := 0, rxBytes := [], credits := [] }

theorem State.portUp_sameLinks : ∃ l, ((s.onFPort p FPort.raised).onFab fun x => { x with down := l }).SameLinks (s.portUp p) := by
  unfold State.portUp
  dsimp only
  split
  · exact ⟨_, (((State.queueFrame_sameLinks (s := s.onFPort p FPort.raised) _ _ _).onDown _).trans (State.queueFrame_sameLinks ..)).trans State.pumpAll_sameLinks⟩
  · refine ⟨s.fab.down, ?_⟩
    exact (State.queueFrame_sameLinks (s := s.onFPort p FPort.raised) ..).trans State.pumpAll_sameLinks

/-- What step 5 of R370 asks of a port. -/
def State.mayRise (s : State) (p : Nat) : Prop :=
  p < 48 ∧ (s.fport p).phase = .training ∧ (s.fport p).rate = true ∧ (s.fport p).eq = true ∧
    (((s.portLanes p).map fun en => s.lane en.1 en.2).head?.bind (·.am)).isSome = true ∧
    (((s.portLanes p).map fun en => s.lane en.1 en.2).all fun l =>
      decide (16 ≤ l.ts2 ∧ l.am = ((s.portLanes p).map fun en => s.lane en.1 en.2).head?.bind (·.am))) = true

theorem State.tryUp_of (h : s.mayRise p) : s.tryUp p = s.portUp p := if_pos h

theorem State.tryUp_of_not (h : ¬s.mayRise p) : s.tryUp p = s := if_neg h

theorem State.tryUp_lanes : (s.tryUp p).fab.lanes = s.fab.lanes := by
  by_cases h : s.mayRise p
  · obtain ⟨l, hsame⟩ := State.portUp_sameLinks (s := s) (p := p)
    rw [State.tryUp_of h, hsame.lanes]
    rfl
  · rw [State.tryUp_of_not h]

theorem State.tryUp_phase_of (h : s.mayRise p) : ((s.tryUp p).fport p).phase = .up := by
  obtain ⟨l, hsame⟩ := State.portUp_sameLinks (s := s) (p := p)
  have hself : (((s.onFPort p FPort.raised).onFab fun x => { x with down := l }).fport p) = FPort.raised (s.fport p) := State.fport_onFPort_self (s := s) FPort.raised
  rw [State.tryUp_of h, hsame.phase, hself]
  rfl

/-! ### Answers to TS1 (R370) -/

/-- A port's state but for whether its end is equalised, with the lanes and engines. -/
structure State.SameButEq (s t : State) (p : Nat) : Prop where
  lanes : t.fab.lanes = s.fab.lanes
  engines : t.fab.engines = s.fab.engines
  self : ∃ b, t.fport p = { s.fport p with eq := b }

theorem State.SameButEq.trans (h : s.SameButEq t p) (k : t.SameButEq u p) : s.SameButEq u p := by
  obtain ⟨a, ha⟩ := h.self
  obtain ⟨b, hb⟩ := k.self
  exact ⟨k.lanes.trans h.lanes, k.engines.trans h.engines, b, by rw [hb, ha]⟩

theorem State.SameButEq.of_fab (h : t.fab = s.fab) : s.SameButEq t p :=
  ⟨congrArg Fabric.lanes h, congrArg Fabric.engines h, (s.fport p).eq, congrArg (fun x : Fabric => mget freshFPort x.ports p) h⟩

theorem State.sendTs2_fab : (s.sendTs2 p).fab = s.fab := (State.sendBlocks_sends _).fab

/-- TS2 sent or not, a port and its lanes stay. -/
theorem State.SameButEq.sendTs2_if {c : Prop} [Decidable c] (h : s.SameButEq t p) : s.SameButEq (if c then t.sendTs2 p else t) p := by
  split
  · exact h.trans (.of_fab State.sendTs2_fab)
  · exact h

theorem State.answerTs1_same : s.SameButEq (s.answerTs1 p e n) p := by
  have heq : ∀ b : Bool, s.SameButEq (s.fresh.2.onFPort p fun x => { x with eq := x.eq || b }) p := fun b => ⟨rfl, rfl, _, State.fport_onFPort_self _⟩
  unfold State.answerTs1
  dsimp only
  by_cases hrate : (s.fport p).rate = true
  · rw [if_pos hrate]
    exact State.SameButEq.sendTs2_if ((heq _).trans (.of_fab rfl))
  · rw [if_neg hrate]
    exact .of_fab rfl

theorem State.foldl_answerTs1_same (l : List (Nat × Nat)) : s.SameButEq (l.foldl (fun s en => s.answerTs1 p en.1 en.2) s) p := by
  induction l generalizing s with
  | nil => exact .of_fab rfl
  | cons en l ih => exact State.answerTs1_same.trans ih

end Training

end Sys2Proof.Machine

/-! Settling O46: lanes train into ports (R370, R371, R406). -/

namespace Sys2Proof.Machine

open Sys2Proof

/-- What a command leaves, it leaves in the state that it leads to. -/
theorem Good.keeps {F : Part → Bool} {s t : State} {o : Host.Outcome State Fault Refusal} (h : Good F s o) (ho : o = .next t) : Keeps F s t := by
  obtain ⟨u, hu, hkeeps⟩ := h
  cases hu.symm.trans ho
  exact hkeeps

section Trains

variable {s t u : State} {p e lane i : Nat} {b : List Byte}

theorem State.blockOn_spec {ty : Nat} (h : s.blockOn e lane ty b = true) : e < 16 ∧ lane < 36 ∧ (s.lane e lane).lit = true := by
  unfold State.blockOn at h
  obtain ⟨h, hlit⟩ := Bool.and_eq_true_iff.1 h
  obtain ⟨he, hl, _⟩ := of_decide_eq_true h
  exact ⟨he, hl, hlit⟩

theorem State.logicalOf_onLane {e' n' : Nat} (f : Lane → Lane) (n : Nat) : (s.onLane e' n' f).logicalOf e n = s.logicalOf e n := rfl

theorem State.logicalOf_onFPort (f : FPort → FPort) (n : Nat) : (s.onFPort p f).logicalOf e n = s.logicalOf e n := rfl

theorem State.portLanes_onFPort {f : FPort → FPort} (hf : ∀ x, (f x).half = x.half) : (s.onFPort p f).portLanes p = s.portLanes p :=
  State.portLanes_congr rfl (by rw [State.fport_onFPort_self, hf])

/-! ### Light (R370) -/

/-- A lane that sees light. -/
def State.litLane (s : State) (e lane : Nat) : State := s.onLane e lane fun l => { l with lit := true }

theorem State.litLane_lane : (s.litLane e lane).lane e lane = { s.lane e lane with lit := true } := State.lane_onLane_self _

theorem exec_lightDetect_spare (he : e < 16) (hl : lane < 36) (hlasers : s.boot.lasersOn = true) (hlit : (s.lane e lane).lit = false)
    (hlogical : s.logicalOf e lane = none) :
    exec (.lightDetect e lane) s =
      .next (if s.boot.lasersLocked then (s.litLane e lane).send (.block e lane (s.tsBlock 3 e lane lane 2 0 0xFFFF)) else s.litLane e lane) := by
  refine congrArg Host.Outcome.next ((State.whenP_pos ⟨he, hl, hlasers, hlit⟩).trans ?_)
  dsimp only
  rw [State.logicalOf_onLane, hlogical]
  rfl

theorem exec_lightDetect_trains (he : e < 16) (hl : lane < 36) (hlasers : s.boot.lasersOn = true) (hlit : (s.lane e lane).lit = false)
    (hlogical : s.logicalOf e lane = some i) (hp : p = groupPort e i) (hmay : s.mayTrain p = true) (hdown : (s.fport p).phase = .down) :
    exec (.lightDetect e lane) s = .next (((s.litLane e lane).onFPort p fun x => { x with phase := .training }).sendTs1 p e lane 0 0xFFFF) := by
  refine congrArg Host.Outcome.next ((State.whenP_pos ⟨he, hl, hlasers, hlit⟩).trans ?_)
  dsimp only
  rw [State.logicalOf_onLane, hlogical]
  dsimp only
  rw [← hp]
  have hmay' : (s.litLane e lane).mayTrain p = true := hmay
  have hdown' : ((s.litLane e lane).fport p).phase = .down := hdown
  unfold State.litLane at *
  rw [if_pos hmay', if_pos hdown', if_pos (by rw [State.fport_onFPort_self])]

/-! ### TS1 (R370, R406) -/

/-- What a TS1 notes in its lane. -/
def Lane.noted (l : Lane) (b : List Byte) : Lane :=
  { l with ts1 := true, countdown := decide (field b 9 2 ≠ 0xFFFF), eqOk := decide (field b 8 1 = 0), ts2 := 0 }

theorem exec_ts1_of (hb : s.blockOn e lane 3 b = true) (hlogical : s.logicalOf e lane = some i) (hmay : s.mayTrain (groupPort e i) = true) :
    exec (.ts1 e lane b) s = .next (s.takeTs1 (groupPort e i) e lane b) := by
  have hspare : (s.freeSpares e).contains lane = false := by
    refine Bool.eq_false_iff.2 fun h => ?_
    have hfree := (List.mem_filter.1 (List.contains_iff_mem.1 h)).2
    rw [hlogical] at hfree
    simp at hfree
  refine congrArg Host.Outcome.next ((State.when_pos hb).trans ?_)
  dsimp only
  rw [if_neg (by rw [hspare]; simp), hlogical]
  exact if_pos hmay

theorem State.takeTs1_named (hphase : (s.fport p).phase = .down ∨ (s.fport p).phase = .training ∨ (s.fport p).phase = .miscabled)
    (hnamed : p < 48 → s.namedPeer p = some (bits (field b 1 2) 13 0) ∧ bits (field b 1 2) 15 14 = 0) :
    s.takeTs1 p e lane b = ((s.onFPort p fun x => x.learn b).onLane e lane fun l => l.noted b).answerTs1 p e lane := by
  have hgood : ¬(p < 48 ∧ (s.namedPeer p ≠ some (bits (field b 1 2) 13 0) ∨ bits (field b 1 2) 15 14 ≠ 0)) := by
    rintro ⟨hp, hbad | hbad⟩
    · exact hbad (hnamed hp).1
    · exact hbad (hnamed hp).2
  unfold State.takeTs1
  dsimp only
  rcases hphase with h | h | h
  · rw [h]
    exact if_neg hgood
  · rw [h]
    exact if_neg hgood
  · rw [h]
    exact if_neg hgood

theorem State.takeTs1_miscabled {m : Nat} (hp : p < 48) (hphase : (s.fport p).phase = .down ∨ (s.fport p).phase = .training) (hm : m = bits (field b 1 2) 13 0)
    (hbad : s.namedPeer p ≠ some m ∨ bits (field b 1 2) 15 14 ≠ 0) :
    s.takeTs1 p e lane b = (s.onFPort p fun x => { x.learn b with phase := .miscabled }).raise (p / 6) 0x4A01 (.fport (p % 6)) 0 m := by
  subst hm
  unfold State.takeTs1
  dsimp only
  rcases hphase with h | h
  · rw [h]
    refine (if_pos ⟨hp, hbad⟩).trans ?_
    dsimp only
    rw [if_neg (by rw [h]; decide)]
  · rw [h]
    refine (if_pos ⟨hp, hbad⟩).trans ?_
    dsimp only
    rw [if_neg (by rw [h]; decide)]

/-! ### The rate change (R370 step 3) -/

/-- A lane after the rate change. -/
def Lane.changed (l : Lane) (mode : Nat) : Lane := { l with countdown := false, eqOk := decide (mode ≠ 0), ts2 := 0, am := none }

/-- What the rate change makes of a port: a host port is up, a keep-alive port is equalised, and a fabric port goes on to equalise. -/
def State.rateChanged (s : State) (p : Nat) : State :=
  if 48 ≤ p then (s.onLanes (s.portLanes p) fun l => l.changed (s.modeOf p)).onFPort p fun x => { x with rate := true, phase := .up }
  else if s.modeOf p ≠ 0 then
    ((s.onLanes (s.portLanes p) fun l => l.changed (s.modeOf p)).onFPort p fun x => { x with rate := true, eq := true }).sendTs2 p
  else (s.portLanes p).foldl (fun s en => s.answerTs1 p en.1 en.2)
    ((s.onLanes (s.portLanes p) fun l => l.changed (s.modeOf p)).onFPort p fun x => { x with rate := true })

theorem exec_rateChange_of (hp : p < 56) (hphase : (s.fport p).phase = .training) (hrate : (s.fport p).rate = false)
    (hready : ∀ en ∈ s.portLanes p, (s.lane en.1 en.2).ts1 = true ∧ (s.lane en.1 en.2).countdown = true) : exec (.rateChange p) s = .next (s.rateChanged p) := by
  have hall : ((s.portLanes p).all fun en => (s.lane en.1 en.2).ts1 && (s.lane en.1 en.2).countdown) = true :=
    List.all_eq_true.2 fun en hen => Bool.and_eq_true_iff.2 (hready en hen)
  refine congrArg Host.Outcome.next ((State.whenP_pos ⟨hp, hphase, hrate, hall⟩).trans ?_)
  have hlanes : (s.onLanes (s.portLanes p) fun l => l.changed (s.modeOf p)).portLanes p = s.portLanes p := by
    rw [State.onLanes_frame]
    rfl
  unfold State.rateChanged
  dsimp only
  have hfold : (s.portLanes p).foldl (fun s_1 en => s_1.onLane en.1 en.2 fun l =>
      { l with countdown := false, eqOk := decide (s.modeOf p ≠ 0), ts2 := 0, am := none }) s = s.onLanes (s.portLanes p) fun l => l.changed (s.modeOf p) := rfl
  have hrated : ((s.onLanes (s.portLanes p) fun l => l.changed (s.modeOf p)).onFPort p fun x => { x with rate := true }).portLanes p = s.portLanes p :=
    
    (State.portLanes_onFPort (by exact fun _ => rfl)).trans hlanes
  rw [hfold, hrated]

theorem State.rateChanged_frame (hp : p < 56) (hphase : (s.fport p).phase = .training) (hrate : (s.fport p).rate = false)
    (hready : ∀ en ∈ s.portLanes p, (s.lane en.1 en.2).ts1 = true ∧ (s.lane en.1 en.2).countdown = true) :
    s.rateChanged p = { s with free := (s.rateChanged p).free, sent := (s.rateChanged p).sent, fab := (s.rateChanged p).fab } :=
  ((execRateChange_good (F := oneOf [.free, .sent, .fab]) rfl rfl rfl).keeps (exec_rateChange_of hp hphase hrate hready)).eq_graft

theorem State.rateChanged_spec (hphase : (s.fport p).phase = .training) : ((s.rateChanged p).fport p).rate = true ∧
    ((s.rateChanged p).fport p).phase = (if 48 ≤ p then .up else .training) ∧ (p < 48 → s.modeOf p ≠ 0 → ((s.rateChanged p).fport p).eq = true) ∧
    ∀ en ∈ s.portLanes p, ((s.rateChanged p).lane en.1 en.2).countdown = false ∧ ((s.rateChanged p).lane en.1 en.2).ts2 = 0 := by
  have hall : ∀ en ∈ s.portLanes p, ((s.onLanes (s.portLanes p) fun l => l.changed (s.modeOf p)).lane en.1 en.2).countdown = false ∧
      ((s.onLanes (s.portLanes p) fun l => l.changed (s.modeOf p)).lane en.1 en.2).ts2 = 0 := fun en hen =>
    State.onLanes_all (P := fun l => l.countdown = false ∧ l.ts2 = 0) (fun _ => ⟨rfl, rfl⟩) hen
  have hport : (s.onLanes (s.portLanes p) fun l => l.changed (s.modeOf p)).fport p = s.fport p := by
    rw [State.onLanes_frame]
    rfl
  unfold State.rateChanged
  by_cases hp : 48 ≤ p
  · rw [if_pos hp, if_pos hp, State.fport_onFPort_self]
    exact ⟨rfl, rfl, fun h => absurd hp (Nat.not_le.2 h), hall⟩
  rw [if_neg hp, if_neg hp]
  by_cases hmode : s.modeOf p ≠ 0
  · rw [if_pos hmode]
    unfold State.fport State.lane
    rw [State.sendTs2_fab]
    unfold State.lane at hall
    have hself := State.fport_onFPort_self (s := s.onLanes (s.portLanes p) fun l => l.changed (s.modeOf p)) (p := p) fun x => { x with rate := true, eq := true }
    unfold State.fport at hself
    rw [hself]
    exact ⟨rfl, (congrArg FPort.phase hport).trans hphase, fun _ _ => rfl, hall⟩
  · rw [if_neg hmode]
    have hsame := State.foldl_answerTs1_same (p := p) (s.portLanes p) (s := (s.onLanes (s.portLanes p) fun l => l.changed (s.modeOf p)).onFPort p fun x =>
      { x with rate := true })
    obtain ⟨b, hb⟩ := hsame.self
    rw [State.fport_onFPort_self, hport] at hb
    rw [hb]
    refine ⟨rfl, hphase, fun _ h => absurd h hmode, fun en hen => ?_⟩
    rw [State.lane_congr hsame.lanes]
    exact hall en hen

/-! ### TS2 and markers (R366, R370 step 5) -/

theorem exec_ts2_of (hb : s.blockOn e lane 4 b = true) (hlogical : s.logicalOf e lane = some i) (hphase : (s.fport (groupPort e i)).phase = .training)
    (hrate : (s.fport (groupPort e i)).rate = true) :
    exec (.ts2 e lane b) s = .next ((s.onLane e lane fun l => { l with ts2 := satTo 16 (l.ts2 + 1) }).tryUp (groupPort e i)) := by
  refine congrArg Host.Outcome.next ((State.when_pos hb).trans ?_)
  rw [hlogical]
  exact State.whenP_pos ⟨hphase, hrate⟩

theorem satTo_eq_min (b n : Nat) : satTo b n = min b n := by
  unfold satTo
  split <;> omega

/-- With a marker count on every lane of a trained port, the sixteenth TS2 of the last lane lets it come up. -/
theorem State.mayRise_of {a : Nat} (hp : p < 48) (hphase : (s.fport p).phase = .training) (hrate : (s.fport p).rate = true) (heq : (s.fport p).eq = true)
    (hmem : (e, lane) ∈ s.portLanes p) (hts2 : 15 ≤ (s.lane e lane).ts2)
    (hall : ∀ en ∈ s.portLanes p, (s.lane en.1 en.2).am = some a ∧ (en ≠ (e, lane) → 16 ≤ (s.lane en.1 en.2).ts2)) :
    (s.onLane e lane fun l => { l with ts2 := satTo 16 (l.ts2 + 1) }).mayRise p := by
  have hlane : ∀ en ∈ s.portLanes p, ((s.onLane e lane fun l => { l with ts2 := satTo 16 (l.ts2 + 1) }).lane en.1 en.2).am = some a ∧
      16 ≤ ((s.onLane e lane fun l => { l with ts2 := satTo 16 (l.ts2 + 1) }).lane en.1 en.2).ts2 := by
    intro en hen
    obtain ⟨ham, hmore⟩ := hall en hen
    rw [State.lane_onLane]
    split
    next h =>
      rw [← State.lane_eq h, satTo_eq_min]
      rw [← State.lane_eq h] at hts2
      exact ⟨ham, by dsimp only; omega⟩
    next h => exact ⟨ham, hmore fun heq => h (by rw [heq])⟩
  have hlanes : (s.onLane e lane fun l => { l with ts2 := satTo 16 (l.ts2 + 1) }).portLanes p = s.portLanes p := rfl
  have hv : ((s.onLane e lane fun l => { l with ts2 := satTo 16 (l.ts2 + 1) }).fport p).phase = .training ∧
      ((s.onLane e lane fun l => { l with ts2 := satTo 16 (l.ts2 + 1) }).fport p).rate = true ∧
      ((s.onLane e lane fun l => { l with ts2 := satTo 16 (l.ts2 + 1) }).fport p).eq = true := ⟨hphase, hrate, heq⟩
  unfold State.mayRise
  rw [hlanes]
  generalize (s.onLane e lane fun l => { l with ts2 := satTo 16 (l.ts2 + 1) }) = v at *
  have hne : s.portLanes p ≠ [] := fun h => by simp [h] at hmem
  obtain ⟨first, rest, hlist⟩ := List.exists_cons_of_ne_nil hne
  have hhead : ((s.portLanes p).map fun en => v.lane en.1 en.2).head?.bind (·.am) = some a := by
    rw [hlist]
    exact (hlane first (by rw [hlist]; exact List.mem_cons_self)).1
  refine ⟨hp, hv.1, hv.2.1, hv.2.2, by rw [hhead]; rfl, List.all_eq_true.2 fun l hl => ?_⟩
  obtain ⟨en, hen, rfl⟩ := List.mem_map.1 hl
  rw [hhead]
  exact decide_eq_true ⟨(hlane en hen).2, (hlane en hen).1⟩

theorem exec_am_of (hb : s.blockOn e lane 2 b = true) (hlogical : s.logicalOf e lane = some i) (hphase : (s.fport (groupPort e i)).phase ≠ .training) :
    exec (.am e lane b) s = .next (s.onLane e lane fun l => { l with am := some (field b 2 2) }) := by
  refine congrArg Host.Outcome.next ((State.when_pos hb).trans ?_)
  dsimp only
  rw [State.logicalOf_onLane, hlogical]
  dsimp only
  split
  · exact State.tryUp_of_not fun h => hphase h.2.1
  · rfl

/-! ### Lanes and ports that do not train in time (R371) -/

/-- A failed lane is no spare, and a lane that carries a logical lane was none before it failed. -/
theorem State.freeSpares_failLane (h : (s.logicalOf e lane).isSome = true) : (s.failLane e lane).freeSpares e = s.freeSpares e := by
  unfold State.freeSpares
  refine List.filter_congr fun n _ => ?_
  have hlogical : (s.failLane e lane).logicalOf e n = s.logicalOf e n := rfl
  rw [hlogical]
  by_cases hn : n = lane
  · rw [hn, Option.isNone_eq_false_iff.2 h]
    simp
  · have hlane : (s.failLane e lane).lane e n = s.lane e n := State.lane_onLane_ne _ (by omega)
    rw [hlane]
    rfl

theorem exec_laneTrainTimeout_of {x : Nat} (he : e < 16) (hl : lane < 36) (hgood : (s.lane e lane).failed = false) (hlogical : s.logicalOf e lane = some i)
    (hphase : (s.fport (groupPort e i)).phase = .training) (hspare : (s.freeSpares e).head? = some x) :
    exec (.laneTrainTimeout e lane) s = .next (if (((s.failLane e lane).mapLane e i x).lane e x).lit then
      ((s.failLane e lane).mapLane e i x).sendTs1 (groupPort e i) e x 0 0xFFFF else (s.failLane e lane).mapLane e i x) := by
  refine congrArg Host.Outcome.next ((State.whenP_pos ⟨he, hl, hgood⟩).trans ?_)
  rw [hlogical]
  refine (State.whenP_pos hphase).trans ?_
  dsimp only
  rw [State.freeSpares_failLane (by rw [hlogical]; rfl), hspare]

theorem State.laneTrainTimeout_spec {x : Nat} (hi : i < 32) (hmap : (s.engine e).map.length = 32) :
    (((s.failLane e lane).mapLane e i x).lane e lane).failed = true ∧ ((s.failLane e lane).mapLane e i x).physOf e i = x ∧
      ∀ j, j ≠ i → ((s.failLane e lane).mapLane e i x).physOf e j = s.physOf e j := by
  have hlane : ((s.failLane e lane).mapLane e i x).lane e lane = (s.failLane e lane).lane e lane := rfl
  refine ⟨?_, State.physOf_mapLane_self hmap hi x, fun j hj => State.physOf_mapLane_ne hj x⟩
  rw [hlane]
  unfold State.failLane
  rw [State.lane_onLane_self]

end Trains

/-- Settles O46: light, TS1, the rate change, TS2 and markers take a lane group from dark to up. -/
theorem lanesTrainIntoPorts : Obligations.LanesTrainIntoPorts := by
  refine ⟨?_, ?_, ?_, ?_, ?_, ?_, ?_, ?_, ?_, ?_⟩
  · intro s e lane he hl hlasers hlit hlogical
    refine ⟨_, exec_lightDetect_spare he hl hlasers hlit hlogical, ?_⟩
    split
    · exact ⟨State.litLane_lane, rfl, rfl⟩
    · exact ⟨State.litLane_lane, rfl, rfl⟩
  · intro s e lane i he hl hlasers hlit hlogical hmay hdown
    refine ⟨_, exec_lightDetect_trains he hl hlasers hlit hlogical rfl hmay hdown, State.litLane_lane, ?_, ?_, rfl⟩
    · exact congrArg FPort.phase (State.fport_onFPort_self (s := s.litLane e lane) fun x => { x with phase := .training })
    · unfold State.sendTs1
      dsimp only
      rw [State.fport_onFPort_self, State.logicalOf_onFPort]
      unfold State.litLane
      rw [State.logicalOf_onLane, hlogical]
      rfl
  · intro s e lane i p b hb hlogical hp hmay hphase hnamed
    subst hp
    have hexec := exec_ts1_of hb hlogical hmay
    rw [State.takeTs1_named hphase hnamed] at hexec
    have hsame := State.answerTs1_same (p := groupPort e i) (e := e) (n := lane)
      (s := (s.onFPort (groupPort e i) fun x => x.learn b).onLane e lane fun l => l.noted b)
    obtain ⟨eq, heq⟩ := hsame.self
    have hself : ((s.onFPort (groupPort e i) fun x => x.learn b).onLane e lane fun l => l.noted b).fport (groupPort e i) = (s.fport (groupPort e i)).learn b :=
      State.fport_onFPort_self fun x => x.learn b
    rw [hself] at heq
    refine ⟨_, hexec, ?_, ?_, ?_, ?_, ?_, ?_⟩
    · rw [heq]
      rfl
    · rw [heq]
      rfl
    · rw [heq]
      rfl
    · rw [heq]
      rfl
    · rw [State.lane_congr hsame.lanes, State.lane_onLane_self]
      rfl
    · exact (State.answerTs1_keeps (F := oneOf [.free, .sent, .fab]) (State.onLane_keeps (State.onFPort_keeps .rfl rfl) rfl) rfl rfl rfl).eq_graft
  · intro s e lane i p m b hb hlogical hp hmay hlt hphase hm hbad
    subst hp
    have hexec := exec_ts1_of hb hlogical hmay
    rw [State.takeTs1_miscabled hlt hphase hm hbad] at hexec
    refine ⟨_, hexec, ?_, ?_, rfl⟩
    · rw [State.fport_onFPort_self]
    · rw [State.fport_onFPort_self, hm]
      rfl
  · intro s p hp hphase hrate hready
    obtain ⟨h1, h2, h3, h4⟩ := State.rateChanged_spec hphase
    exact ⟨_, exec_rateChange_of hp hphase hrate hready, h1, h2, h3, h4, State.rateChanged_frame hp hphase hrate hready⟩
  · intro s e lane i p b hb hlogical hp hphase hrate
    subst hp
    refine ⟨_, exec_ts2_of hb hlogical hphase hrate, ?_, fun hnot => ?_, ?_, ?_⟩
    · rw [State.lane_congr State.tryUp_lanes, State.lane_onLane_self, satTo_eq_min]
    · rw [State.tryUp_of_not ?_]
      · exact hphase
      · rintro ⟨hlt, _, _, heq, _⟩
        rcases hnot with h | h
        · exact Bool.false_ne_true (h.symm.trans heq)
        · exact absurd h (Nat.not_le.2 hlt)
    · rintro ⟨a, hlt, heq, hmem, hts2, hall⟩
      exact State.tryUp_phase_of (State.mayRise_of hlt hphase hrate heq hmem hts2 hall)
    · exact (State.tryUp_keeps (F := oneOf [.sent, .fab]) (State.onLane_keeps .rfl rfl) rfl rfl).eq_graft
  · intro s e lane i b hb hlogical hphase
    exact ⟨_, exec_am_of hb hlogical hphase, State.lane_onLane_self _, rfl⟩
  · intro s e lane he hl
    exact ⟨_, congrArg Host.Outcome.next (State.whenP_pos ⟨he, hl⟩), State.lane_onLane_self _, rfl⟩
  · intro s e lane i x p he hl hgood hlogical hp hphase hmap hspare
    subst hp
    obtain ⟨hfailed, hself, hother⟩ := State.laneTrainTimeout_spec (x := x) (lane := lane) (State.logicalOf_lt hlogical) hmap
    refine ⟨_, exec_laneTrainTimeout_of he hl hgood hlogical hphase hspare, ?_⟩
    split
    · exact ⟨hfailed, hself, hother, rfl⟩
    · exact ⟨hfailed, hself, hother, rfl⟩
  · intro s p hp hphase
    have h := State.trainPort_retrained (s := s) (p := p)
    exact ⟨_, congrArg Host.Outcome.next (State.whenP_pos ⟨hp, hphase⟩), h.phase, h.rate, h.cleared, h.asks, h.frame⟩

end Sys2Proof.Machine

/-! Settling O47: replay, wake and the lanes of host ports (R368, R380, R381). -/

namespace Sys2Proof.Machine

open Sys2Proof

section Replay

variable {s t u : State} {p e lane i : Nat}

/-- Flits sent again, in order (R368). -/
theorem State.foldl_sendFlits (fls : List Flit) (ack : Nat) : fls.foldl (fun s fl => s.send (.flit p (flitBytes fl ack false))) s =
    { s with sent := s.sent ++ fls.map fun fl => Sent.flit p (flitBytes fl ack false) } := by
  induction fls generalizing s with
  | nil => simp
  | cons fl fls ih =>
    rw [List.foldl_cons, ih]
    simp [State.send]

/-- The state with a replay counted. -/
def State.replayed (s : State) (p : Nat) : State := (s.onFPort p fun x => { x with resends := x.resends + 1 }).oeCount (p / 3) OE_REPLAY.REPLAYS

theorem State.replayed_fport : (s.replayed p).fport p = { s.fport p with resends := (s.fport p).resends + 1 } :=
  (congrArg (fun x : Fabric => mget freshFPort x.ports p) State.countFld_fab).trans (State.fport_onFPort_self _)

theorem State.replayPort_again (hflits : (s.fport p).flits ≠ []) (hfew : (s.fport p).resends < 8) : s.replayPort p =
    { s.replayed p with sent := s.sent ++ (s.fport p).flits.map fun fl => Sent.flit p (flitBytes fl (s.fport p).ack false) } := by
  have hempty : (s.fport p).flits.isEmpty = false := by simpa using hflits
  have hsent : (s.replayed p).sent = s.sent := (State.countFld_keeps (F := oneOf [.regs, .fab]) (State.onFPort_keeps .rfl rfl) rfl).frame .sent rfl
  unfold State.replayPort
  dsimp only
  rw [hempty, if_neg Bool.false_ne_true, if_neg (Nat.not_le.2 hfew)]
  change (s.replayed p).resendFlits p = _
  unfold State.resendFlits
  dsimp only
  rw [State.foldl_sendFlits, State.replayed_fport, hsent]
  rfl

theorem State.replayPort_retrains (hflits : (s.fport p).flits ≠ []) (hmany : 8 ≤ (s.fport p).resends) : s.replayPort p = s.retrainPort p := by
  have hempty : (s.fport p).flits.isEmpty = false := by simpa using hflits
  unfold State.replayPort
  dsimp only
  rw [hempty, if_neg Bool.false_ne_true, if_pos hmany]

theorem State.retrainPort_of (hp : p < 48) : s.retrainPort p = (s.countFld (p / 6) (p % 6 / 3) 0 OE_REPLAY.RETRAINS 1).trainPort p := if_neg (Nat.not_le.2 hp)

end Replay

section Wake

variable {s t u : State} {p q e lane i : Nat}

/-- A fold over ports that ends where its step on one of them leads, if every step keeps that (the wake of R381). -/
theorem foldl_reaches {g : State → Nat → State} {Before After : State → Prop} (hstep : ∀ u, Before u → After (g u p)) (hbefore : ∀ u q, Before u → q ≠ p → Before (g u q))
    (hafter : ∀ u q, After u → After (g u q)) {l : List Nat} (h : p ∈ l) (hs : Before s) : After (l.foldl g s) := by
  have hkeep : ∀ (l : List Nat) (s : State), After s → After (l.foldl g s) := by
    intro l
    induction l with
    | nil => exact fun s hs => hs
    | cons q l ih => exact fun s hs => ih _ (hafter s q hs)
  induction l generalizing s with
  | nil => cases h
  | cons q l ih =>
    rw [List.foldl_cons]
    by_cases hq : q = p
    · rw [hq]
      exact hkeep l _ (hstep s hs)
    · exact ih ((List.mem_cons.1 h).resolve_left (Ne.symm hq)) (hbefore s q hs hq)

/-- WAKE on the first lane of a port. -/
def State.sendWake (s : State) (p : Nat) : State := match (s.portLanes p).head? with | some en => s.send (.block en.1 en.2 (ctlBlock 9 [])) | none => s

theorem State.sendWake_fport : (s.sendWake p).fport q = s.fport q := by
  unfold State.sendWake
  cases (s.portLanes p).head? <;> rfl

/-- A wake of one port: WAKE on its first lane, and its lanes retrained from step 3 of R370. -/
def State.wakePort (s : State) (p : Nat) : State :=
  if (s.fport p).phase = .keepAlive then
    let s := ((s.sendWake p).clearLanes p).onFPort p fun x => { x with phase := .training, rate := false, eq := true }
    let f := s.fresh
    (f.2.portLanes p).foldl (fun s en => (s.onLane en.1 en.2 fun l => { l with ts1 := true }).sendTs1 p en.1 en.2 0 (f.1 % 0xFFFF)) f.2
  else s

theorem State.fport_foldl_lanes {α : Type} {g : State → α → State} (hg : ∀ (u : State) (a : α) (q : Nat), (g u a).fport q = u.fport q) (l : List α) (q : Nat) :
    (l.foldl g s).fport q = s.fport q := by
  induction l generalizing s with
  | nil => rfl
  | cons a l ih => rw [List.foldl_cons, ih, hg]

theorem State.fresh_fport : s.fresh.2.fport q = s.fport q := rfl

theorem State.wakePort_fport : ((s.wakePort p).fport q).phase = if q = p ∧ (s.fport p).phase = .keepAlive then .training else (s.fport q).phase := by
  unfold State.wakePort
  by_cases h : (s.fport p).phase = .keepAlive
  · rw [if_pos h]
    dsimp only
    rw [State.fport_foldl_lanes (by exact fun _ _ _ => rfl)]
    have hclear : ∀ u : State, (u.clearLanes p).fport = u.fport := fun u => by
      rw [State.clearLanes_eq, State.onLanes_frame]
      rfl
    rw [State.fresh_fport]
    by_cases hq : q = p
    · rw [hq, State.fport_onFPort_self, if_pos ⟨rfl, h⟩]
    · rw [State.fport_onFPort_ne _ hq, if_neg fun h => hq h.1, hclear, State.sendWake_fport]
  · rw [if_neg h, if_neg fun k => h k.2]

theorem State.wakePorts_phase (hp : p < 48) (h : (s.fport p).phase = .keepAlive) : (s.wakePorts.fport p).phase = .training := by
  have hmem : p ∈ List.range 48 := List.mem_range.2 hp
  unfold State.wakePorts
  generalize List.range 48 = l at hmem ⊢
  change (State.fport (List.foldl _ _ _) p).phase = _
  refine foldl_reaches (p := p) (Before := fun u => (u.fport p).phase = .keepAlive) (After := fun u => (u.fport p).phase = .training) (fun u hu => ?_) (fun u q hu hq => ?_)
    (fun u q hu => ?_) hmem h
  · change ((u.wakePort p).fport p).phase = _
    rw [State.wakePort_fport, if_pos ⟨rfl, hu⟩]
  · change ((u.wakePort q).fport p).phase = _
    rw [State.wakePort_fport, if_neg fun k => hq k.1.symm, hu]
  · change ((u.wakePort q).fport p).phase = _
    rw [State.wakePort_fport]
    split
    · rfl
    · exact hu

theorem State.wakeUp_dormant (hmode : s.power.mode = .dormant) : s.wakeUp =
    ({ s with power := { s.power with mode := .waking, phasesOn := 18, heldWork := false } } : State).wakeStacks.wakePorts := if_pos hmode

end Wake

/-- Settles O47: a port without ACK progress replays or trains anew, a WAKE wakes the module, and host lanes report their receivers. -/
theorem portsReplayAndWake : Obligations.PortsReplayAndWake := by
  refine ⟨?_, ?_, ?_, ?_, ?_⟩
  · intro s p hp hphase hflits hfew
    have hexec : exec (.replayTimeout p) s = .next (s.replayPort p) := congrArg Host.Outcome.next (State.whenP_pos ⟨hp, hphase⟩)
    rw [State.replayPort_again hflits hfew] at hexec
    refine ⟨_, hexec, State.replayed_fport, rfl, ?_, ?_⟩
    · have hdie : p / 3 / 2 = p / 6 := Nat.div_div_eq_div_mul p 3 2
      change (s.countFld (p / 3 / 2) (p / 3 % 2) 0 OE_REPLAY.REPLAYS 1).regs = _
      rw [hdie]
    · rw [← State.replayPort_again hflits hfew]
      exact (State.replayPort_keeps (F := oneOf [.sent, .regs, .fab]) .rfl rfl rfl rfl).eq_graft
  · intro s p hp hphase hflits hmany
    have hexec : exec (.replayTimeout p) s = .next (s.replayPort p) := congrArg Host.Outcome.next (State.whenP_pos ⟨hp, .inl hphase⟩)
    rw [State.replayPort_retrains hflits hmany, State.retrainPort_of hp] at hexec
    refine ⟨_, hexec, State.trainPort_retrained.phase, ?_, ?_⟩
    · exact (State.trainPort_keeps (F := oneOf [.sent, .fab]) .rfl rfl rfl).frame .regs rfl
    · exact (State.trainPort_keeps (F := oneOf [.sent, .regs, .fab]) (State.countFld_keeps .rfl rfl) rfl rfl).eq_graft
  · intro s p hp hphase hmode
    have hexec : exec (.wakeBlock p) s = .next s.wakeUp := congrArg Host.Outcome.next (State.whenP_pos ⟨hp, hphase⟩)
    refine ⟨_, hexec, ?_, ?_, ?_⟩
    · rw [State.wakeUp_dormant hmode]
      exact (State.wakePorts_keeps (F := oneOf [.free, .sent, .stackMap, .ports, .fab]) (State.wakeStacks_keeps .rfl rfl) rfl rfl rfl rfl).frame .power rfl
    · rw [State.wakeUp_dormant hmode]
      refine State.wakePorts_phase hp ?_
      have hfab : ∀ u : State, u.wakeStacks.fab = u.fab := fun u => (State.wakeStacks_keeps (F := oneOf [.stackMap]) .rfl rfl).frame .fab rfl
      unfold State.fport
      rw [hfab]
      exact hphase
    · exact (State.wakeUp_keeps (F := oneOf [.free, .sent, .power, .stackMap, .ports, .fab]) .rfl rfl rfl rfl rfl rfl rfl).frame .mem rfl
  · intro s e lane i he hl hlit hlogical hi hrate
    have hexec : exec (.blockAlignmentFound e lane) s = .next ((s.onLane e lane fun l => { l with aligned := true }).onPort (e / 2) fun x =>
        { x with lanesSeen := hostLane e i :: x.lanesSeen.filter (· ≠ hostLane e i) }) := by
      refine congrArg Host.Outcome.next ((State.whenP_pos ⟨he, hl, hlit⟩).trans ?_)
      rw [hlogical]
      exact State.whenP_pos ⟨hi, hrate⟩
    refine ⟨_, hexec, State.lane_onLane_self fun l => { l with aligned := true }, ?_, rfl⟩
    rw [State.port_onPort_self]
    exact List.mem_cons_self
  · intro s e lane he hl haligned
    exact ⟨⟨_, congrArg Host.Outcome.next (State.whenP_pos ⟨he, hl, haligned⟩), State.lane_onLane_self fun l => { l with eidle := true }, rfl⟩,
      _, congrArg Host.Outcome.next (State.whenP_pos ⟨he, hl, haligned⟩), State.lane_onLane_self fun l => { l with eidle := false }, rfl⟩

end Sys2Proof.Machine

/-! Swaps, calibrations and lasers (R372 to R379): what each makes of the lanes and the map. -/

namespace Sys2Proof.Machine

open Sys2Proof

section Swaps

variable {s t u : State} {p q e n i x : Nat}

/-! ### Lanes that have failed -/

theorem State.engine_onEngine {e' : Nat} (f : Engine → Engine) : (s.onEngine e f).engine e' = if e' = e then f (s.engine e) else s.engine e' := by
  split
  next h => rw [h, State.engine_onEngine_self]
  next h => exact mget_mput_ne h

theorem State.failLane_lane : (s.failLane e n).lane e n = { freshLane with failed := true, fails := (s.lane e n).fails + 1 } := State.lane_onLane_self _

theorem State.failLane_lane_ne {n' : Nat} (h : n' ≠ n) : (s.failLane e n).lane e n' = s.lane e n' := State.lane_onLane_ne _ (by omega)

/-- A group's broken lane, where one lane of it alone has failed. -/
theorem State.brokenLane_of (hmem : (e, n) ∈ s.portLanes p) (hlogical : s.logicalOf e n = some i) (hfailed : (s.lane e n).failed = true)
    (honly : ∀ en ∈ s.portLanes p, (s.lane en.1 en.2).failed = true → en = (e, n)) : s.brokenLane p = some (e, i, n) := by
  have hfind : ((s.portLanes p).find? fun en => (s.lane en.1 en.2).failed) = some (e, n) := by
    cases h : (s.portLanes p).find? fun en => (s.lane en.1 en.2).failed with
    | none =>
      have hgood := List.find?_eq_none.1 h (e, n) hmem
      exact absurd hfailed hgood
    | some en =>
      have hbroken := List.find?_some h
      rw [honly en (List.mem_of_find?_eq_some h) hbroken]
  unfold State.brokenLane
  rw [hfind, Option.bind_some, hlogical]
  rfl

theorem State.brokenLane_none (h : ∀ en ∈ s.portLanes p, (s.lane en.1 en.2).failed = false) : s.brokenLane p = none := by
  unfold State.brokenLane
  rw [List.find?_eq_none.2 fun en hen => by rw [h en hen]; decide]
  rfl

/-- A group without a broken lane asks for nothing. -/
theorem State.repairPort_whole (h : s.brokenLane p = none) : s.repairPort p = s := by
  unfold State.repairPort
  dsimp only
  rw [h]
  split <;> rfl

/-! ### A swap asked for (R373 step 1) -/

theorem State.raise_fab {d code : Nat} {un : FaultUnit} {a b : Nat} : (s.raise d code un a b).fab = s.fab :=
  (State.raise_keeps (F := oneOf [.flash, .fcu, .regs]) .rfl rfl rfl rfl).frame .fab rfl

/-- A request for a swap of this end. -/
def swapRequest (i x epoch reason : Nat) : List Byte := ctlBlock 5 (leBytes 1 i ++ leBytes 1 x ++ leBytes 1 epoch ++ leBytes 1 reason)

/-- A port with a swap noted, under its next epoch. -/
def FPort.asks (f : FPort) (w : Swap) : FPort := { f with epoch := (f.epoch + 1) % 256, swap := some w }

/-- The state with a swap noted in its port and logged. -/
def State.swapNoted (s : State) (p e i old x reason : Nat) : State :=
  ((s.nextEpoch p).onFPort p fun f => { f with swap := some ⟨i, old, x, reason⟩ }).raise (e / 2) 0x0901 (.oe (e % 2)) 0 i

theorem State.swapNoted_fport {old reason : Nat} : (s.swapNoted p e i old x reason).fport p = (s.fport p).asks ⟨i, old, x, reason⟩ := by
  unfold State.swapNoted
  rw [State.fport, State.raise_fab, ← State.fport, State.fport_onFPort_self]
  unfold State.nextEpoch
  rw [State.fport_onFPort_self]
  rfl

/-- What a request for a swap does: the port's epoch and swap, and the request on the group's healthy lanes. -/
structure State.SwapAsked (s t : State) (p e i old x reason : Nat) : Prop where
  port : t.fport p = (s.fport p).asks ⟨i, old, x, reason⟩
  lanes : t.fab.lanes = s.fab.lanes
  engines : t.fab.engines = s.fab.engines
  asks : ∀ en ∈ s.portLanes p, en.1 = e → (s.lane en.1 en.2).failed = false → Sent.block en.1 en.2 (swapRequest i x (t.fport p).epoch reason) ∈ t.sent

theorem State.requestSwap_asked {old reason : Nat} : s.SwapAsked (s.requestSwap p e i old x reason) p e i old x reason := by
  have hfab : (s.swapNoted p e i old x reason).fab = ((s.nextEpoch p).onFPort p fun f => { f with swap := some ⟨i, old, x, reason⟩ }).fab := State.raise_fab
  have hlanes : (s.swapNoted p e i old x reason).fab.lanes = s.fab.lanes := by rw [hfab]; rfl
  have hengines : (s.swapNoted p e i old x reason).fab.engines = s.fab.engines := by rw [hfab]; rfl
  have hport := State.swapNoted_fport (s := s) (p := p) (e := e) (i := i) (old := old) (x := x) (reason := reason)
  have hmine : (s.swapNoted p e i old x reason).portLanes p = s.portLanes p := State.portLanes_congr hengines (by rw [hport]; rfl)
  let g := fun (v : State) (en : Nat × Nat) =>
    if en.1 = e ∧ (v.lane en.1 en.2).failed = false then v.send (.block en.1 en.2 (swapRequest i x ((s.swapNoted p e i old x reason).fport p).epoch reason)) else v
  have heq : s.requestSwap p e i old x reason = ((s.swapNoted p e i old x reason).portLanes p).foldl g (s.swapNoted p e i old x reason) := rfl
  have hg : ∀ (v : State) (en : Nat × Nat), v.Sends (g v en) := fun v en => by
    dsimp only [g]
    split
    · exact .send _
    · exact .refl v
  have hsends := State.Sends.foldl hg (s.portLanes p) (s.swapNoted p e i old x reason)
  rw [heq, hmine]
  refine ⟨?_, ?_, ?_, fun en hen he hgood => ?_⟩
  · rw [State.fport, hsends.fab, ← State.fport, hport]
  · rw [hsends.fab, hlanes]
  · rw [hsends.fab, hengines]
  · refine State.Sends.mem_foldl hg hen fun v hv => ?_
    have hv : (v.lane en.1 en.2).failed = false := by
      rw [State.lane_congr ((congrArg Fabric.lanes hv.fab).trans hlanes), hgood]
    dsimp only [g]
    rw [if_pos ⟨he, hv⟩]
    refine List.mem_append_right _ (List.mem_singleton.2 ?_)
    rw [State.fport, hsends.fab]
    rfl

/-! ### Repair leaves failures as they are -/

/-- States with the same failed lanes, and the same lasers. -/
structure State.SameFailures (s t : State) : Prop where
  failed : ∀ e n, (t.lane e n).failed = (s.lane e n).failed
  dark : ∀ e, (t.engine e).dark = (s.engine e).dark
  relock : ∀ e, (t.engine e).relock = (s.engine e).relock

namespace State.SameFailures

theorem refl (s : State) : s.SameFailures s := ⟨fun _ _ => rfl, fun _ => rfl, fun _ => rfl⟩

theorem trans (h : s.SameFailures t) (k : t.SameFailures u) : s.SameFailures u :=
  ⟨fun e n => (k.failed e n).trans (h.failed e n), fun e => (k.dark e).trans (h.dark e), fun e => (k.relock e).trans (h.relock e)⟩

theorem of_eq (hlanes : t.fab.lanes = s.fab.lanes) (hengines : t.fab.engines = s.fab.engines) : s.SameFailures t :=
  ⟨fun e n => by rw [State.lane_congr hlanes], fun e => by rw [State.engine_congr hengines], fun e => by rw [State.engine_congr hengines]⟩

theorem of_fab (h : t.fab = s.fab) : s.SameFailures t := of_eq (congrArg Fabric.lanes h) (congrArg Fabric.engines h)

theorem of_sameLinks (h : s.SameLinks t) : s.SameFailures t := of_eq h.lanes h.engines

theorem of_retrained (h : s.Retrained t p) : s.SameFailures t :=
  ⟨h.failed, fun e => by rw [State.engine_congr h.engines], fun e => by rw [State.engine_congr h.engines]⟩

theorem onEngine {f : Engine → Engine} (hdark : ∀ x, (f x).dark = x.dark) (hrelock : ∀ x, (f x).relock = x.relock) : s.SameFailures (s.onEngine e f) := by
  refine ⟨fun _ _ => rfl, fun e' => ?_, fun e' => ?_⟩
  · rw [State.engine_onEngine]
    split
    next h => rw [hdark, h]
    next h => rfl
  · rw [State.engine_onEngine]
    split
    next h => rw [hrelock, h]
    next h => rfl

theorem foldl {α : Type} {g : State → α → State} (hg : ∀ (u : State) (a : α), u.SameFailures (g u a)) (l : List α) (s : State) : s.SameFailures (l.foldl g s) := by
  induction l generalizing s with
  | nil => exact refl s
  | cons a l ih => exact (hg s a).trans (ih _)

end State.SameFailures

theorem State.onFPort_sameFailures (f : FPort → FPort) : s.SameFailures (s.onFPort p f) := .of_eq rfl rfl

theorem State.requestSwap_sameFailures {old reason : Nat} : s.SameFailures (s.requestSwap p e i old x reason) :=
  .of_eq State.requestSwap_asked.lanes State.requestSwap_asked.engines

theorem State.linkLost_sameFailures {phase : PortPhase} : s.SameFailures (s.linkLost p phase) :=
  State.SameFailures.trans (t := s.onFPort p fun x => x.restarted phase) (.of_eq rfl rfl) (.of_sameLinks (State.linkLost_sameLinks phase))

theorem State.retrainPort_sameFailures : s.SameFailures (s.retrainPort p) := by
  unfold State.retrainPort
  split
  · exact .refl s
  · exact State.SameFailures.trans (.of_fab State.countFld_fab) (.of_retrained State.trainPort_retrained)

theorem State.narrowPort_sameFailures : s.SameFailures (s.narrowPort p e i) := by
  unfold State.narrowPort
  dsimp only
  split
  · split
    · exact State.SameFailures.trans (State.SameFailures.trans (State.onFPort_sameFailures _) (.of_fab State.raise_fab)) State.retrainPort_sameFailures
    · exact (State.SameFailures.of_fab State.raise_fab).trans State.linkLost_sameFailures
  · exact (State.SameFailures.of_fab State.raise_fab).trans (.of_fab State.onPort_fab)

theorem State.repairPort_sameFailures : s.SameFailures (s.repairPort p) := by
  unfold State.repairPort
  dsimp only
  split
  · exact .refl s
  · split
    · exact .refl s
    · split
      · exact State.SameFailures.trans (.onEngine (by exact fun _ => rfl) (by exact fun _ => rfl)) State.requestSwap_sameFailures
      · split
        · exact State.requestSwap_sameFailures
        · exact State.narrowPort_sameFailures

/-! ### A lane moved to a spare (R373) -/

/-- An engine whose logical lane moves. -/
def Engine.moved (g : Engine) (i x : Nat) : Engine := { g with map := g.map.set i x }

/-- A group whose lane moved to a healthy spare has no broken lane, where its others had none. -/
theorem State.brokenLane_moved (hi : i < 24) (he : e < 16) (hp : p = groupPort e i) (hmap : (s.engine e).map.length = 32) (hnodup : (s.engine e).map.Nodup)
    (hengine : u.engine e = (s.engine e).moved i x) (hhalf : (u.fport p).half = (s.fport p).half) (hx : (u.lane e x).failed = false)
    (hgood : ∀ en ∈ s.portLanes p, en.2 ≠ s.physOf e i → (u.lane en.1 en.2).failed = false) : u.brokenLane p = none := by
  have hlt : p < 48 := hp ▸ groupPort_lt hi he
  have hdiv : p / 3 = e := hp ▸ groupPort_div hi
  refine State.brokenLane_none fun en hen => ?_
  obtain ⟨j, hj, rfl, hin⟩ := State.mem_portLanes hlt hen
  rw [hdiv]
  have hk := portBase_lt hlt hj
  generalize hkdef : portBase p + j = k at hk
  by_cases hki : k = i
  · have hphys : u.physOf e k = x := by
      unfold State.physOf
      rw [hengine, hki]
      simp [Engine.moved, hmap, Nat.lt_trans hi (by decide : 24 < 32)]
    rw [hphys, hx]
  · have hphys : u.physOf e k = s.physOf e k := by
      unfold State.physOf
      rw [hengine]
      unfold Engine.moved
      dsimp only
      rw [List.getElem?_set_ne (Ne.symm hki)]
    have hne : s.physOf e k ≠ s.physOf e i := by
      have hk32 : k < (s.engine e).map.length := by omega
      have hi32 : i < (s.engine e).map.length := by omega
      unfold State.physOf
      rw [List.getElem?_eq_getElem hk32, List.getElem?_eq_getElem hi32]
      exact fun h => hki ((List.Nodup.getElem_inj_iff hnodup).1 h)
    rw [hphys]
    refine hgood (e, s.physOf e k) ((State.mem_portLanes_iff hlt).2 ⟨j, hj, by rw [hdiv, hkdef], fun h hh => hin h (hhalf.trans hh)⟩) hne

theorem State.swapped_of (hp : p < 48) : s.swapped p e i x = (s.mapLane e i x).oeCount e OE_SWAP_COUNT.FAULT := by
  unfold State.swapped
  exact if_pos hp

theorem State.swapped_fab (hp : p < 48) : (s.swapped p e i x).fab = (s.mapLane e i x).fab := by
  rw [State.swapped_of hp]
  exact State.countFld_fab

theorem State.mapLane_engine : (s.mapLane e i x).engine e = (s.engine e).moved i x := State.engine_onEngine_self _

end Swaps

end Sys2Proof.Machine

/-! Failed lanes are swapped for spares, and calibrated lanes move away and back (R372 to R379). -/

namespace Sys2Proof.Machine

open Sys2Proof

section Lanes

variable {s t u v : State} {p q e lane n i x : Nat} {b : List Byte}

/-! ### A lane declared failed (R372) -/

/-- What a lane's failure leaves: a lane that carries a logical lane has its group repaired. -/
def State.laneFailed (s : State) (e lane : Nat) : State :=
  match s.logicalOf e lane with
  | none => s.failLane e lane
  | some i => (if 24 ≤ i then (s.failLane e lane).onPort (e / 2) fun x => { x with lanesSeen := x.lanesSeen.filter (· ≠ hostLane e i) }
      else s.failLane e lane).repairPort (groupPort e i)

theorem exec_laneFail_of (he : e < 16) (hl : lane < 36) (hlasers : s.boot.lasersOn = true) (hgood : (s.lane e lane).failed = false)
    (hheld : (s.engine e).held.contains (lane % 4) = false) (hcal : (s.engine e).cal = none) :
    exec (.laneFail e lane) s = .next (s.laneFailed e lane) := by
  refine congrArg Host.Outcome.next ((State.whenP_pos ⟨he, hl, hlasers, hgood, hheld⟩).trans ?_)
  have hcal' : ((s.failLane e lane).engine e).cal = none := hcal
  have hlogical : (s.failLane e lane).logicalOf e lane = s.logicalOf e lane := rfl
  dsimp only
  rw [hcal']
  dsimp only
  rw [hlogical]
  unfold State.laneFailed
  cases s.logicalOf e lane <;> rfl

/-- A lane that fails in a group with a spare for it asks for that spare. -/
theorem State.repairPort_asks (hmem : (e, lane) ∈ s.portLanes p) (hlogical : s.logicalOf e lane = some i) (hup : (s.fport p).phase = .up)
    (hswap : (s.fport p).swap = none) (hfailed : (s.lane e lane).failed = true) (honly : ∀ en ∈ s.portLanes p, (s.lane en.1 en.2).failed = true → en = (e, lane))
    (hcal : (s.engine e).cal = none) (hspare : (s.freeSpares e).head? = some x) : s.repairPort p = s.requestSwap p e i lane x 1 := by
  have hreturns : (s.engine e).returns i lane = none := by
    unfold Engine.returns
    rw [hcal]
  unfold State.repairPort
  dsimp only
  rw [if_neg (by rw [hswap, hup]; simp), State.brokenLane_of hmem hlogical hfailed honly]
  dsimp only
  rw [hreturns]
  dsimp only
  rw [hspare]

/-- In a group of healthy lanes, the lane that fails is the one that has. -/
theorem State.failLane_only (hp : p < 48) (he : e = p / 3) (hgood : ∀ en ∈ s.portLanes p, (s.lane en.1 en.2).failed = false) :
    ∀ en ∈ (s.failLane e lane).portLanes p, ((s.failLane e lane).lane en.1 en.2).failed = true → en = (e, lane) := by
  intro en hen hfailed
  obtain ⟨j, hj, rfl, _⟩ := State.mem_portLanes hp hen
  rw [← he] at hen hfailed ⊢
  by_cases h : (s.failLane e lane).physOf e (portBase p + j) = lane
  · rw [h]
  · have hkeep := State.failLane_lane_ne (s := s) (e := e) h
    have hwas := hgood _ hen
    dsimp only at hfailed hwas
    rw [hkeep] at hfailed
    exact absurd (hwas.symm.trans hfailed) Bool.false_ne_true

/-! ### Requests and answers of the peer (R373) -/

/-- The state with a lane of this end moved to a spare at the peer's request. -/
def State.takenSwap (s : State) (p e i x ep : Nat) : State :=
  (((if (s.lane e (s.physOf e i)).failed then s else s.failLane e (s.physOf e i)).onFPort p fun f => { f with swap := none, epoch := ep }).swapped p e i x).raise
    (e / 2) 0x0901 (.oe (e % 2)) 0 i

/-- The state with the markers and the answer of a swap sent. -/
def State.answeredSwap (s : State) (p e i x : Nat) (b : List Byte) : State :=
  ((List.range 4).foldl (fun u k => u.send (.block e x (ctlBlock 2 (leBytes 1 i ++ leBytes 2 (s.fresh.1 + k))))) s.fresh.2).sendBlocks p
    fun _ _ => ctlBlock 6 ((b.drop 1).take 4)

/-- A swap request that a port of this end takes. -/
structure State.TakesSwap (s : State) (p e i x ep : Nat) (b : List Byte) : Prop where
  engine : e < 16
  len : b.length = 32
  type : field b 0 1 = 5
  logical : field b 1 1 = i
  spare : field b 2 1 = x
  epoch : field b 3 1 = ep
  lt : i < 24
  port : p = groupPort e i
  up : (s.fport p).phase = .up
  quiet : (s.fport p).swap = none
  newer : newer (s.fport p).epoch ep = true
  free : s.logicalOf e x = none
  cal : (s.engine e).cal = none

theorem exec_swapReq_of {ep : Nat} (h : s.TakesSwap p e i x ep b) (hx : x < 36) :
    exec (.swapReq e b) s = .next (((s.takenSwap p e i x ep).answeredSwap p e i x b).repairPort p) := by
  obtain ⟨he, hlen, hty, hi, hsp, hep, hlt, hp, hup, hswap, hnew, hfree, hcal⟩ := h
  subst hi hsp hep hp
  have hok : (decide (field b 1 1 < 32 ∧ field b 2 1 < 36 ∧ ((s.fport (groupPort e (field b 1 1))).phase = .up ∨ (s.fport (groupPort e (field b 1 1))).phase = .keepAlive)) &&
      (newer (s.fport (groupPort e (field b 1 1))).epoch (field b 3 1) ||
        ((s.fport (groupPort e (field b 1 1))).swap.isSome && decide (field b 3 1 = (s.fport (groupPort e (field b 1 1))).epoch))) &&
      (s.logicalOf e (field b 2 1)).isNone && !((s.fport (groupPort e (field b 1 1))).swap.isSome && s.standsOver (groupPort e (field b 1 1)) e)) = true := by
    rw [hswap, hnew, hfree, decide_eq_true ⟨Nat.lt_trans hlt (by decide), hx, .inl hup⟩]
    rfl
  refine congrArg Host.Outcome.next ((State.whenP_pos ⟨he, hlen, hty⟩).trans ((State.when_pos hok).trans ?_))
  have hcal' : ((if (s.lane e (s.physOf e (field b 1 1))).failed = true then s else s.failLane e (s.physOf e (field b 1 1))).engine e).cal = none := by
    split
    · exact hcal
    · exact hcal
  dsimp only
  rw [hcal']
  rfl

/-- What a swap taken at the peer's request leaves (R373 step 2). -/
theorem State.takenSwap_spec {ep : Nat} (hp : p < 48) : (s.takenSwap p e i x ep).engine e = (s.engine e).moved i x ∧
    (s.takenSwap p e i x ep).fport p = { s.fport p with swap := none, epoch := ep } ∧
    ((s.takenSwap p e i x ep).lane e (s.physOf e i)).failed = true ∧
    ∀ n, n ≠ s.physOf e i → ((s.takenSwap p e i x ep).lane e n).failed = (s.lane e n).failed := by
  generalize hw : (if (s.lane e (s.physOf e i)).failed = true then s else s.failLane e (s.physOf e i)) = w
  have hengine : w.engine e = s.engine e := by
    rw [← hw]
    split <;> rfl
  have hport : w.fport p = s.fport p := by
    rw [← hw]
    split <;> rfl
  have hlane : (w.lane e (s.physOf e i)).failed = true := by
    rw [← hw]
    split
    next h => exact h
    next => rw [State.failLane_lane]
  have hothers : ∀ n, n ≠ s.physOf e i → w.lane e n = s.lane e n := fun n hn => by
    rw [← hw]
    split
    · rfl
    · exact State.failLane_lane_ne hn
  have hfab : (s.takenSwap p e i x ep).fab = ((w.onFPort p fun f => { f with swap := none, epoch := ep }).mapLane e i x).fab := by
    unfold State.takenSwap
    rw [hw, State.raise_fab, State.swapped_fab hp]
  refine ⟨?_, ?_, ?_, fun n hn => ?_⟩
  · rw [State.engine_congr (congrArg Fabric.engines hfab), State.mapLane_engine, ← hengine]
    rfl
  · rw [State.fport, hfab, ← hport]
    exact State.fport_onFPort_self (s := w) fun f => { f with swap := none, epoch := ep }
  · rw [State.lane_congr (congrArg Fabric.lanes hfab)]
    exact hlane
  · rw [State.lane_congr (congrArg Fabric.lanes hfab), ← hothers n hn]
    rfl

theorem State.foldl_send_fab {α : Type} {g : State → α → Sent} (l : List α) : (l.foldl (fun u a => u.send (g u a)) s).fab = s.fab :=
  (State.Sends.foldl (fun _ _ => .send _) l s).fab

theorem State.answeredSwap_fab : (s.answeredSwap p e i x b).fab = s.fab :=
  (State.sendBlocks_sends _).fab.trans (State.foldl_send_fab (List.range 4))

theorem State.mem_answeredSwap {en : Nat × Nat} (h : en ∈ s.portLanes p) :
    Sent.block en.1 en.2 (ctlBlock 6 ((b.drop 1).take 4)) ∈ (s.answeredSwap p e i x b).sent := by
  refine State.mem_sendBlocks ?_
  have hfab : ((List.range 4).foldl (fun u k => u.send (.block e x (ctlBlock 2 (leBytes 1 i ++ leBytes 2 (s.fresh.1 + k))))) s.fresh.2).fab = s.fab :=
    State.foldl_send_fab (List.range 4)
  rw [State.portLanes_congr (congrArg Fabric.engines hfab) (congrArg (fun x : Fabric => (mget freshFPort x.ports p).half) hfab)]
  exact h

theorem State.lane_onFPort (f : FPort → FPort) : (s.onFPort p f).lane e n = s.lane e n := rfl

theorem State.lane_mapLane : (s.mapLane e i x).lane q n = s.lane q n := rfl

theorem FPort.link_half (f : FPort) : f.link.half = f.half := rfl

theorem FPort.link_swap (f : FPort) : f.link.swap = f.swap := rfl

theorem FPort.link_naked (f : FPort) : f.link.naked = f.naked := rfl

theorem State.engine_onFPort (f : FPort → FPort) : (s.onFPort p f).engine e = s.engine e := rfl

/-- The state with a swap of this end done, and a NAK sent (R373 step 4). -/
def State.endedSwap (s : State) (p e i x : Nat) : State := (((s.onFPort p fun f => { f with swap := none }).swapped p e i x).sendNak p).pumpAll

theorem exec_swapAck_of {w : Swap} (he : e < 16) (hlen : b.length = 32) (hty : field b 0 1 = 6) (hi : field b 1 1 = i) (hlt : i < 24) (hp : p = groupPort e i)
    (hswap : (s.fport p).swap = some w) (hlogical : w.logical = i) (hold : w.old = s.physOf e i) (hspare : w.spare = field b 2 1)
    (hepoch : (s.fport p).epoch = field b 3 1) : exec (.swapAck e b) s = .next ((s.endedSwap p e i w.spare).repairPort p) := by
  subst hi hp
  refine congrArg Host.Outcome.next ((State.whenP_pos ⟨he, hlen, hty⟩).trans ?_)
  dsimp only
  rw [hswap]
  refine (State.whenP_pos ⟨Nat.lt_trans hlt (by decide), hlogical, hold, hspare, hepoch⟩).trans ?_
  rw [if_pos (groupPort_lt hlt he)]
  rfl

theorem State.endedSwap_spec (hp : p < 48) (hflits : (s.fport p).flits.length < 2048) : (s.endedSwap p e i x).engine e = (s.engine e).moved i x ∧
    ((s.endedSwap p e i x).fport p).half = (s.fport p).half ∧ ((s.endedSwap p e i x).fport p).swap = none ∧ ((s.endedSwap p e i x).fport p).naked = true ∧
    ∀ n, (s.endedSwap p e i x).lane e n = s.lane e n := by
  generalize hw : (s.onFPort p fun f => { f with swap := none }).swapped p e i x = w
  have hfab : w.fab = ((s.onFPort p fun f => { f with swap := none }).mapLane e i x).fab := by rw [← hw, State.swapped_fab hp]
  have hport : w.fport p = { s.fport p with swap := none } := by
    rw [State.fport, hfab]
    exact State.fport_onFPort_self (s := s) fun f => { f with swap := none }
  have hnak : w.sendNak p = (w.sendFlit p false [] true).onFPort p fun x => { x with naked := true } := by
    unfold State.sendNak
    exact if_neg (by rw [hport]; exact Nat.not_le.2 hflits)
  have hsent : w.SameLinks (w.sendFlit p false [] true) := State.sendFlit_sameLinks ..
  have hpump : (w.sendNak p).SameLinks (s.endedSwap p e i x) := by
    unfold State.endedSwap
    rw [hw]
    exact State.pumpAll_sameLinks
  have hself : ((s.endedSwap p e i x).fport p).link = { w.fport p with naked := true }.link := by
    rw [hpump.link, hnak, State.fport_onFPort_self]
    exact congrArg (fun x : FPort => { x with naked := true }) (hsent.link p)
  have hlink : ((s.endedSwap p e i x).fport p).link = { s.fport p with swap := none, naked := true }.link := by rw [hself, hport]
  refine ⟨?_, ?_, ?_, ?_, fun n => ?_⟩
  · rw [hpump.engine, hnak, State.engine_onFPort, hsent.engine, State.engine_congr (congrArg Fabric.engines hfab), State.mapLane_engine, State.engine_onFPort]
  · rw [← FPort.link_half, hlink, FPort.link_half]
  · rw [← FPort.link_swap, hlink, FPort.link_swap]
  · rw [← FPort.link_naked, hlink, FPort.link_naked]
  · rw [hpump.lane, hnak, State.lane_onFPort, hsent.lane, State.lane_congr (congrArg Fabric.lanes hfab), State.lane_mapLane, State.lane_onFPort]

end Lanes

end Sys2Proof.Machine

/-! Settling O48: calibrations (R379), lasers (R378), and the swaps of failed lanes together. -/

namespace Sys2Proof.Machine

open Sys2Proof

section Calibrations

variable {s t u v : State} {p q e lane n i x w : Nat} {b : List Byte}

/-- A fold that leaves the state as it is. -/
theorem foldl_idle {α : Type} {g : State → α → State} {l : List α} (h : ∀ a ∈ l, g s a = s) : l.foldl g s = s := by
  induction l with
  | nil => rfl
  | cons a l ih => rw [List.foldl_cons, h a List.mem_cons_self, ih fun b hb => h b (List.mem_cons_of_mem a hb)]

theorem State.retestLane_healthy (h : (s.lane e n).failed = false) : s.retestLane e n = s := by
  unfold State.retestLane
  dsimp only
  rw [if_neg (by rw [h]; simp)]

/-- The map after a move of this end. -/
theorem State.moveLane_engine : (s.moveLane e i x).engine e = (s.engine e).moved i x := by
  have hblocks : ∀ (v : State) (q : Nat) (mk : Nat → Nat → List Byte), (v.sendBlocks q mk).engine e = v.engine e := fun v q mk =>
    State.engine_congr (congrArg Fabric.engines (State.sendBlocks_sends mk).fab) e
  have hcount : ∀ v : State, (v.oeCount e OE_SWAP_COUNT.CAL).engine e = v.engine e := fun v => State.engine_congr (congrArg Fabric.engines State.countFld_fab) e
  unfold State.moveLane
  dsimp only
  rw [hcount, State.mapLane_engine, hblocks]
  rfl

theorem State.physOf_of_moved (h : t.engine e = (s.engine e).moved i x) (hmap : (s.engine e).map.length = 32) (hi : i < 32) : t.physOf e i = x := by
  unfold State.physOf
  rw [h]
  simp [Engine.moved, hmap, hi]

/-- The next calibration under way: its lane on the spare. -/
def State.calibrating (s : State) (e i x : Nat) : State :=
  (s.moveLane e i x).onEngine e fun g => { g with cal := some ⟨i, s.physOf e i, x, false⟩, calNext := (i + 1) % 32 }

theorem exec_calibrationStep_of {y : Nat} {rest : List Nat} (he : e < 16) (hlocked : s.boot.lasersLocked = true)
    (hperiod : s.fld (e / 2) (e % 2) 0 OE_CAL_CFG.PERIOD ≠ 0) (hcal : (s.engine e).cal = none) (hgood : ∀ n, n < 36 → (s.lane e n).failed = false)
    (hnext : ((List.range 32).map fun j => ((s.engine e).calNext + j) % 32).find? (s.laneActive e) = some i) (hfree : s.freeSpares e = x :: y :: rest) :
    exec (.calibrationStep e) s = .next (s.calibrating e i x) := by
  have hretest : (List.range 36).foldl (fun s n => s.retestLane e n) s = s := foldl_idle fun n hn => State.retestLane_healthy (hgood n (List.mem_range.1 hn))
  refine congrArg Host.Outcome.next ((State.whenP_pos ⟨he, hlocked, hperiod, hcal⟩).trans ?_)
  dsimp only
  rw [hretest, hnext, hfree]
  rfl

theorem exec_calibrationComplete_of {c : Calibration} (hcal : (s.engine e).cal = some c) (hmine : c.byPeer = false) :
    exec (.calibrationComplete e) s = .next ((s.moveLane e c.logical c.own).onEngine e fun g => { g with cal := none }) := by
  change execCalibrationComplete e s = _
  unfold execCalibrationComplete
  rw [hcal]
  exact congrArg Host.Outcome.next (State.whenP_pos hmine)

/-- What a move of the peer leaves. -/
def State.peerMoved (s : State) (e i x ep : Nat) : State :=
  (((s.onFPort (groupPort e i) fun f => { f with epoch := ep }).oeCount e OE_SWAP_COUNT.CAL).mapLane e i x).onEngine e fun g =>
    { g with cal := match g.cal with
        | some c => if c.byPeer && decide (c.logical = i ∧ c.own = x) then none else some c
        | none => some ⟨i, s.physOf e i, x, true⟩ }

theorem exec_calMove_of (he : e < 16) (hlen : b.length = 32) (hty : field b 0 1 = 7) (hi : field b 1 1 = i) (hx : field b 2 1 = x) (hlt : i < 32) (hxlt : x < 36)
    (hnew : newer (s.fport (groupPort e i)).epoch (field b 3 1) = true) (hfree : s.logicalOf e x = none) :
    exec (.calMove e b) s = .next (s.peerMoved e i x (field b 3 1)) := by
  subst hi hx
  refine congrArg Host.Outcome.next ((State.whenP_pos ⟨he, hlen, hty⟩).trans ((State.when_pos ?_).trans rfl))
  rw [hnew, hfree, decide_eq_true ⟨hlt, hxlt⟩]
  rfl

theorem State.peerMoved_spec {ep : Nat} (hcal : (s.engine e).cal = none) :
    (s.peerMoved e i x ep).engine e = { (s.engine e).moved i x with cal := some ⟨i, s.physOf e i, x, true⟩ } ∧ ((s.peerMoved e i x ep).fport (groupPort e i)).epoch = ep := by
  generalize hv : (s.onFPort (groupPort e i) fun f => { f with epoch := ep }).oeCount e OE_SWAP_COUNT.CAL = v
  have hfab : v.fab = (s.onFPort (groupPort e i) fun f => { f with epoch := ep }).fab := by
    rw [← hv]
    exact State.countFld_fab
  have hengine : v.engine e = s.engine e := State.engine_congr (congrArg Fabric.engines hfab) e
  have hport : v.fport (groupPort e i) = { s.fport (groupPort e i) with epoch := ep } := by
    rw [State.fport, hfab]
    exact State.fport_onFPort_self (s := s) fun f => { f with epoch := ep }
  have hmoved : (v.mapLane e i x).engine e = (s.engine e).moved i x := by rw [State.mapLane_engine, hengine]
  have hnone : ((v.mapLane e i x).engine e).cal = none := by
    rw [hmoved]
    exact hcal
  unfold State.peerMoved
  rw [hv]
  refine ⟨?_, ?_⟩
  · rw [State.engine_onEngine_self, hnone, hmoved]
  · exact congrArg FPort.epoch hport

end Calibrations

section Lasers

variable {s t u v : State} {p q e lane n i x w : Nat} {b : List Byte}

/-- HOLD sent on the lanes of an engine's port that the wavelength does not carry (R378). -/
def State.sendHold (s : State) (e w p : Nat) : State :=
  if (s.fport p).phase = .up then
    (s.portLanes p).foldl (fun s en => if en.1 = e ∧ en.2 % 4 ≠ w then s.send (.block e en.2 (ctlBlock 8 (leBytes 1 w ++ leBytes 2 40))) else s) s
  else s

theorem State.hold_sends (e w : Nat) (u : State) (en : Nat × Nat) :
    u.Sends (if en.1 = e ∧ en.2 % 4 ≠ w then u.send (.block e en.2 (ctlBlock 8 (leBytes 1 w ++ leBytes 2 40))) else u) := by
  split
  · exact .send _
  · exact .refl u

theorem State.sendHold_sends (e w : Nat) (u : State) (p : Nat) : u.Sends (u.sendHold e w p) := by
  unfold State.sendHold
  split
  · exact .foldl (State.hold_sends e w) _ u
  · exact .refl u

theorem State.mem_sendHold {en : Nat × Nat} (hup : (s.fport p).phase = .up) (hmem : en ∈ s.portLanes p) (he : en.1 = e) (hw : en.2 % 4 ≠ w) :
    Sent.block en.1 en.2 (ctlBlock 8 (leBytes 1 w ++ leBytes 2 40)) ∈ (s.sendHold e w p).sent := by
  unfold State.sendHold
  rw [if_pos hup]
  refine State.Sends.mem_foldl (State.hold_sends e w) hmem fun u _ => ?_
  rw [if_pos ⟨he, hw⟩, he]
  exact List.mem_append_right _ (List.mem_singleton.2 rfl)

/-- The groups of an engine. -/
def engineGroups (e : Nat) : List Nat := [3 * e, 3 * e + 1, 3 * e + 2, 48 + e / 2]

/-- The state with the first failure of a wavelength's laser logged. -/
def State.laserLogged (s : State) (e : Nat) : State := s.fresh.2.raise (e / 2) 0x0902 (.oe (e % 2)) 0 (s.fresh.1 % 65536)

/-- The state with HOLD out and the wavelength on its spare laser. -/
def State.laserSwitched (s : State) (e w : Nat) : State :=
  ((engineGroups e).foldl (fun u => u.sendHold e w) (s.laserLogged e)).onEngine e fun g => { g with spare := g.spare ++ [w], relock := g.relock ++ [w] }

theorem exec_laserFail_first (he : e < 16) (hw : w < 4) (hlasers : s.boot.lasersOn = true) (hdark : w ∉ (s.engine e).dark) (hspare : w ∉ (s.engine e).spare) :
    exec (.laserFail e w) s = .next (s.laserSwitched e w) := by
  have hdark' : (s.engine e).dark.contains w = false := Bool.eq_false_iff.2 fun h => hdark (List.contains_iff_mem.1 h)
  refine congrArg Host.Outcome.next ((State.whenP_pos ⟨he, hw, hlasers, hdark'⟩).trans ?_)
  unfold State.laserSwitched engineGroups State.laserLogged State.sendHold
  dsimp only
  rw [if_neg fun h => hspare (List.contains_iff_mem.1 h)]

theorem State.onEngine_sent (f : Engine → Engine) : (s.onEngine e f).sent = s.sent := rfl

theorem State.onEngine_lanes (f : Engine → Engine) : (s.onEngine e f).fab.lanes = s.fab.lanes := rfl

theorem State.laserSwitched_spec : ((s.laserSwitched e w).engine e) = { s.engine e with spare := (s.engine e).spare ++ [w], relock := (s.engine e).relock ++ [w] } ∧
    (s.laserSwitched e w).fab.lanes = s.fab.lanes ∧
    ∀ p ∈ engineGroups e, (s.fport p).phase = .up → ∀ en ∈ s.portLanes p, en.1 = e → en.2 % 4 ≠ w →
      Sent.block en.1 en.2 (ctlBlock 8 (leBytes 1 w ++ leBytes 2 40)) ∈ (s.laserSwitched e w).sent := by
  have hlogged : (s.laserLogged e).fab = s.fab := State.raise_fab
  have hsends := State.Sends.foldl (State.sendHold_sends e w) (engineGroups e) (s.laserLogged e)
  have hfab := hsends.fab.trans hlogged
  unfold State.laserSwitched
  generalize hr : (engineGroups e).foldl (fun u => u.sendHold e w) (s.laserLogged e) = r at hfab
  refine ⟨?_, ?_, fun p hp hup en hen he hw => ?_⟩
  · rw [State.engine_onEngine_self, State.engine_congr (congrArg Fabric.engines hfab)]
  · exact (State.onEngine_lanes _).trans (congrArg Fabric.lanes hfab)
  · rw [State.onEngine_sent, ← hr]
    refine State.Sends.mem_foldl (State.sendHold_sends e w) hp fun u hu => ?_
    have hufab := hu.fab.trans hlogged
    have hport : u.fport p = s.fport p := congrArg (fun x : Fabric => mget freshFPort x.ports p) hufab
    refine State.mem_sendHold (by rw [hport, hup]) ?_ he hw
    rw [State.portLanes_congr (congrArg Fabric.engines hufab) (congrArg FPort.half hport)]
    exact hen

/-- An engine with a wavelength dark. -/
def Engine.darkened (x : Engine) (w : Nat) : Engine :=
  { x with
    dark := x.dark ++ [w]
    relock := x.relock.filter (· ≠ w)
    cal := match x.cal with | some c => if c.own % 4 = w then none else some c | none => none }

/-- The state with a wavelength dark: its lanes fail. -/
def State.laserDark (s : State) (e w : Nat) : State :=
  let s := s.onEngine e fun x => x.darkened w
  ((List.range 36).filter fun n => n % 4 = w && !(s.lane e n).failed).foldl (fun s n => s.failLane e n) s

theorem exec_laserFail_second (he : e < 16) (hw : w < 4) (hlasers : s.boot.lasersOn = true) (hdark : w ∉ (s.engine e).dark) (hspare : w ∈ (s.engine e).spare) :
    exec (.laserFail e w) s = .next ((engineGroups e).foldl (fun s p => s.repairPort p) (s.laserDark e w)) := by
  have hdark' : (s.engine e).dark.contains w = false := Bool.eq_false_iff.2 fun h => hdark (List.contains_iff_mem.1 h)
  refine congrArg Host.Outcome.next ((State.whenP_pos ⟨he, hw, hlasers, hdark'⟩).trans ?_)
  exact if_pos (List.contains_iff_mem.2 hspare)

/-- Failing lanes leaves engines as they are, keeps lanes that have failed, and fails each lane named. -/
theorem State.foldl_failLane (l : List Nat) : (l.foldl (fun s n => s.failLane e n) s).fab.engines = s.fab.engines ∧
    (∀ n, (s.lane e n).failed = true → ((l.foldl (fun s n => s.failLane e n) s).lane e n).failed = true) ∧
    ∀ n ∈ l, ((l.foldl (fun s n => s.failLane e n) s).lane e n).failed = true := by
  induction l generalizing s with
  | nil => exact ⟨rfl, fun _ h => h, fun _ h => absurd h List.not_mem_nil⟩
  | cons m l ih =>
    obtain ⟨hengines, hkeep, hall⟩ := ih (s := s.failLane e m)
    have hm : ((s.failLane e m).lane e m).failed = true := by rw [State.failLane_lane]
    rw [List.foldl_cons]
    refine ⟨hengines, fun n hn => hkeep n ?_, fun n hn => ?_⟩
    · by_cases h : n = m
      · rw [h, hm]
      · rw [State.failLane_lane_ne h, hn]
    · rcases List.mem_cons.1 hn with rfl | hn
      · exact hkeep n hm
      · exact hall n hn

theorem State.laserDark_spec : w ∈ ((s.laserDark e w).engine e).dark ∧ w ∉ ((s.laserDark e w).engine e).relock ∧
    ∀ n, n < 36 → n % 4 = w → ((s.laserDark e w).lane e n).failed = true := by
  unfold State.laserDark
  generalize hv : (s.onEngine e fun x => x.darkened w) = v
  have hdark : w ∈ (v.engine e).dark := by
    rw [← hv, State.engine_onEngine_self]
    exact List.mem_append_right _ (List.mem_singleton.2 rfl)
  have hrelock : w ∉ (v.engine e).relock := by
    rw [← hv, State.engine_onEngine_self]
    exact fun h => of_decide_eq_true (List.mem_filter.1 h).2 rfl
  dsimp only
  obtain ⟨hengines, hkeep, hall⟩ := State.foldl_failLane (s := v) (e := e) ((List.range 36).filter fun n => n % 4 = w && !(v.lane e n).failed)
  have hengine := State.engine_congr hengines e
  refine ⟨by rw [hengine]; exact hdark, by rw [hengine]; exact hrelock, fun n hn hmod => ?_⟩
  by_cases hfailed : (v.lane e n).failed = true
  · exact hkeep n hfailed
  · exact hall n (List.mem_filter.2 ⟨List.mem_range.2 hn, by simp [hmod, hfailed]⟩)

end Lasers

end Sys2Proof.Machine

/-! Settling O48. -/

namespace Sys2Proof.Machine

open Sys2Proof

section Frames

variable {s : State} {p e lane i x w : Nat} {b : List Byte}

theorem State.takenSwap_mem {ep : Nat} : (s.takenSwap p e i x ep).mem = s.mem := by
  have hfail : (if (s.lane e (s.physOf e i)).failed = true then s else s.failLane e (s.physOf e i)).mem = s.mem := by
    split <;> rfl
  unfold State.takenSwap
  exact ((State.raise_keeps (F := oneOf [.sent, .flash, .fcu, .regs, .fab]) (State.swapped_keeps (State.onFPort_keeps .rfl rfl) rfl rfl rfl) rfl rfl rfl).frame .mem rfl).trans hfail

theorem State.answeredSwap_mem : (s.answeredSwap p e i x b).mem = s.mem := by
  have hsends : ((List.range 4).foldl (fun u k => u.send (.block e x (ctlBlock 2 (leBytes 1 i ++ leBytes 2 (s.fresh.1 + k))))) s.fresh.2).mem = s.fresh.2.mem := by
    rw [(State.Sends.foldl (fun _ _ => .send _) (List.range 4) s.fresh.2).frame]
  unfold State.answeredSwap
  exact ((State.sendBlocks_keeps (F := oneOf [.sent]) .rfl rfl).frame .mem rfl).trans hsends

theorem State.endedSwap_keeps {F : Part → Bool} (hsent : F .sent = true) (hregs : F .regs = true) (hfab : F .fab = true) : Keeps F s (s.endedSwap p e i x) :=
  State.pumpAll_keeps (State.sendNak_keeps (State.swapped_keeps (State.onFPort_keeps .rfl hfab) hsent hregs hfab) hsent hfab) hsent hfab

theorem State.endedSwap_regs (hp : p < 48) : (s.endedSwap p e i x).regs = (s.countFld (e / 2) (e % 2) 0 OE_SWAP_COUNT.FAULT 1).regs := by
  have hpump : ∀ v : State, (v.sendNak p).pumpAll.regs = v.regs := fun v =>
    (State.pumpAll_keeps (F := oneOf [.sent, .fab]) (State.sendNak_keeps .rfl rfl rfl) rfl rfl).frame .regs rfl
  unfold State.endedSwap
  rw [hpump, State.swapped_of hp]
  rfl

end Frames

section Parts

variable {s : State} {p e lane i x w : Nat} {b : List Byte}

/-- A failed lane of an up port asks for the lowest free spare (R372, R373). -/
theorem exec_laneFail_asks (he : e < 16) (hl : lane < 36) (hlasers : s.boot.lasersOn = true) (hgood : (s.lane e lane).failed = false)
    (hheld : (s.engine e).held.contains (lane % 4) = false) (hcal : (s.engine e).cal = none) (hlogical : s.logicalOf e lane = some i) (hi : i < 24) (hp : p = groupPort e i)
    (hup : (s.fport p).phase = .up) (hswap : (s.fport p).swap = none) (hmem : (e, lane) ∈ s.portLanes p)
    (hothers : ∀ en ∈ s.portLanes p, (s.lane en.1 en.2).failed = false) (hspare : (s.freeSpares e).head? = some x) :
    exec (.laneFail e lane) s = .next ((s.failLane e lane).requestSwap p e i lane x 1) := by
  have hlt : p < 48 := hp ▸ groupPort_lt hi he
  have hdiv : e = p / 3 := by rw [hp, groupPort_div hi]
  have hasks : (s.failLane e lane).repairPort p = (s.failLane e lane).requestSwap p e i lane x 1 :=
    State.repairPort_asks hmem hlogical hup hswap (by rw [State.failLane_lane]) (State.failLane_only hlt hdiv hothers) hcal
      (by rw [State.freeSpares_failLane (by rw [hlogical]; rfl), hspare])
  rw [exec_laneFail_of he hl hlasers hgood hheld hcal]
  unfold State.laneFailed
  rw [hlogical]
  dsimp only
  rw [if_neg (Nat.not_le.2 hi), ← hp, hasks]

/-- A lane's request of the peer leaves the group whole. -/
theorem exec_swapReq_whole {ep : Nat} (h : s.TakesSwap p e i x ep b) (hx : x < 36) (hmap : (s.engine e).map.length = 32) (hnodup : (s.engine e).map.Nodup)
    (hspare : (s.lane e x).failed = false) (hothers : ∀ en ∈ s.portLanes p, en.2 ≠ s.physOf e i → (s.lane en.1 en.2).failed = false) :
    exec (.swapReq e b) s = .next ((s.takenSwap p e i x ep).answeredSwap p e i x b) := by
  have hlt : p < 48 := h.port ▸ groupPort_lt h.lt h.engine
  have hdiv : p / 3 = e := by rw [h.port, groupPort_div h.lt]
  obtain ⟨hengine, hport, hold, hkeep⟩ := State.takenSwap_spec (s := s) (e := e) (i := i) (x := x) (ep := ep) hlt
  have hx' : x ≠ s.physOf e i := fun heq => State.logicalOf_eq_none.1 h.free i (Nat.lt_trans h.lt (by decide)) heq.symm
  have hwhole : (s.takenSwap p e i x ep).brokenLane p = none := by
    refine State.brokenLane_moved (s := s) h.lt h.engine h.port hmap hnodup hengine (by rw [hport]) (by rw [hkeep x hx', hspare]) fun en hen hne => ?_
    obtain ⟨j, hj, rfl, _⟩ := State.mem_portLanes hlt hen
    rw [hdiv] at hen hne ⊢
    have hgood := hothers _ hen hne
    dsimp only at hgood hne ⊢
    rw [hkeep _ hne, hgood]
  rw [exec_swapReq_of h hx, State.repairPort_whole]
  have hfab := State.answeredSwap_fab (s := s.takenSwap p e i x ep) (p := p) (e := e) (i := i) (x := x) (b := b)
  have hengines := congrArg Fabric.engines hfab
  unfold State.brokenLane at hwhole ⊢
  rw [State.portLanes_congr hengines (congrArg (fun x : Fabric => (mget freshFPort x.ports p).half) hfab)]
  have hlanes : (fun en : Nat × Nat => (((s.takenSwap p e i x ep).answeredSwap p e i x b).lane en.1 en.2).failed) =
      fun en => ((s.takenSwap p e i x ep).lane en.1 en.2).failed := funext fun en => by rw [State.lane_congr (congrArg Fabric.lanes hfab)]
  rw [hlanes]
  cases hfind : ((s.takenSwap p e i x ep).portLanes p).find? fun en => ((s.takenSwap p e i x ep).lane en.1 en.2).failed with
  | none => rfl
  | some en =>
    rw [hfind, Option.bind_some] at hwhole
    rw [Option.bind_some, State.logicalOf_congr (State.engine_congr hengines _)]
    exact hwhole

/-- The answer that ends a swap of this end leaves the group whole. -/
theorem exec_swapAck_whole {sw : Swap} (he : e < 16) (hlen : b.length = 32) (hty : field b 0 1 = 6) (hi : field b 1 1 = i) (hlt : i < 24) (hp : p = groupPort e i)
    (hswap : (s.fport p).swap = some sw) (hlogical : sw.logical = i) (hold : sw.old = s.physOf e i) (hspare : sw.spare = field b 2 1)
    (hepoch : (s.fport p).epoch = field b 3 1) (hmap : (s.engine e).map.length = 32) (hnodup : (s.engine e).map.Nodup)
    (hgood : (s.lane e sw.spare).failed = false) (hothers : ∀ en ∈ s.portLanes p, en.2 ≠ sw.old → (s.lane en.1 en.2).failed = false)
    (hflits : (s.fport p).flits.length < 2048) : exec (.swapAck e b) s = .next (s.endedSwap p e i sw.spare) := by
  have hp48 : p < 48 := hp ▸ groupPort_lt hlt he
  have hdiv : p / 3 = e := by rw [hp, groupPort_div hlt]
  obtain ⟨hengine, hhalf, _, _, hlane⟩ := State.endedSwap_spec (s := s) (e := e) (i := i) (x := sw.spare) hp48 hflits
  rw [exec_swapAck_of he hlen hty hi hlt hp hswap hlogical hold hspare hepoch, State.repairPort_whole]
  refine State.brokenLane_moved (s := s) hlt he hp hmap hnodup hengine hhalf (by rw [hlane, hgood]) fun en hen hne => ?_
  obtain ⟨j, hj, rfl, _⟩ := State.mem_portLanes hp48 hen
  rw [hdiv] at hen hne ⊢
  have hgood := hothers _ hen (by rw [hold]; exact hne)
  dsimp only at hgood ⊢
  rw [hlane, hgood]

/-- Without a spare a port narrows to its healthy half and trains anew (R376). -/
theorem State.narrowPort_half {h : Nat} (hp : p < 48) (hhalf : (s.fport p).half = none) (hh : h < 2)
    (hgood : ∀ k, k < 2 → ((List.range 4).all fun j => !(s.lane e (s.physOf e (portBase p + 4 * k + j))).failed) = decide (k = h)) :
    ((s.narrowPort p e i).fport p).half = some h ∧ ((s.narrowPort p e i).fport p).phase = .training := by
  have hfind : [0, 1].find? (fun k => (List.range 4).all fun j => !(s.lane e (s.physOf e (portBase p + 4 * k + j))).failed) = some h := by
    rw [List.find?_cons, hgood 0 (by decide), List.find?_cons, hgood 1 (by decide)]
    rcases (by omega : h = 0 ∨ h = 1) with rfl | rfl <;> rfl
  have hnarrow : s.narrowPort p e i = ((s.onFPort p fun x => { x with half := some h }).raise (e / 2) 0x4901 (.oe (e % 2)) 0 i).retrainPort p := by
    unfold State.narrowPort
    dsimp only
    rw [if_pos hp, hhalf]
    dsimp only
    rw [hfind]
  rw [hnarrow, State.retrainPort_of hp]
  refine ⟨?_, State.trainPort_retrained.phase⟩
  rw [State.trainPort_retrained.half, State.fport, State.countFld_fab, State.raise_fab, ← State.fport, State.fport_onFPort_self]

/-! ### Lasers (R361, R378) -/

theorem State.mem_engineGroups (hp : p = 3 * e ∨ p = 3 * e + 1 ∨ p = 3 * e + 2) : p ∈ engineGroups e := by
  unfold engineGroups
  rcases hp with rfl | rfl | rfl <;> simp

theorem State.laserSwitched_frame : s.laserSwitched e w =
    { s with free := (s.laserSwitched e w).free, sent := (s.laserSwitched e w).sent, flash := (s.laserSwitched e w).flash, fcu := (s.laserSwitched e w).fcu, regs := (s.laserSwitched e w).regs, fab := (s.laserSwitched e w).fab } := by
  have hlogged : s.laserLogged e = { s with free := (s.laserLogged e).free, flash := (s.laserLogged e).flash, fcu := (s.laserLogged e).fcu, regs := (s.laserLogged e).regs } := (State.raise_keeps (F := oneOf [.free, .flash, .fcu, .regs]) (State.fresh_keeps .rfl rfl) rfl rfl rfl).eq_graft
  have hsends := State.Sends.foldl (State.sendHold_sends e w) (engineGroups e) (s.laserLogged e)
  unfold State.laserSwitched
  generalize (engineGroups e).foldl (fun u => u.sendHold e w) (s.laserLogged e) = r at hsends
  rw [hsends.frame, hlogged]
  rfl

theorem laserFail_switches (he : e < 16) (hw : w < 4) (hlasers : s.boot.lasersOn = true) (hdark : w ∉ (s.engine e).dark) (hspare : w ∉ (s.engine e).spare) :
    ∃ t, exec (.laserFail e w) s = .next t ∧ (t.engine e).spare = (s.engine e).spare ++ [w] ∧ (t.engine e).relock = (s.engine e).relock ++ [w] ∧
      (∀ p, p = 3 * e ∨ p = 3 * e + 1 ∨ p = 3 * e + 2 → (s.fport p).phase = .up → ∀ en ∈ s.portLanes p, en.2 % 4 ≠ w →
        Sent.block en.1 en.2 (ctlBlock 8 (leBytes 1 w ++ leBytes 2 40)) ∈ t.sent) ∧ t.fab.lanes = s.fab.lanes ∧
      t = { s with free := t.free, sent := t.sent, flash := t.flash, fcu := t.fcu, regs := t.regs, fab := t.fab } := by
  obtain ⟨hengine, hlanes, hholds⟩ := State.laserSwitched_spec (s := s) (e := e) (w := w)
  have hexec := exec_laserFail_first he hw hlasers hdark hspare
  have hframe := State.laserSwitched_frame (s := s) (e := e) (w := w)
  generalize s.laserSwitched e w = t at *
  refine ⟨t, hexec, by rw [hengine], by rw [hengine], fun p hp hup en hen hmod => ?_, hlanes, hframe⟩
  have hdiv : p / 3 = e := by omega
  obtain ⟨j, _, rfl, _⟩ := State.mem_portLanes (by omega) hen
  exact hholds p (State.mem_engineGroups hp) hup _ hen hdiv hmod

theorem laserFail_darkens (he : e < 16) (hw : w < 4) (hlasers : s.boot.lasersOn = true) (hdark : w ∉ (s.engine e).dark) (hspare : w ∈ (s.engine e).spare) :
    ∃ t, exec (.laserFail e w) s = .next t ∧ w ∈ (t.engine e).dark ∧ w ∉ (t.engine e).relock ∧ (∀ n, n < 36 → n % 4 = w → (t.lane e n).failed = true) ∧
      t.mem = s.mem := by
  obtain ⟨hd, hr, hf⟩ := State.laserDark_spec (s := s) (e := e) (w := w)
  have hsame := State.SameFailures.foldl (g := fun s p => s.repairPort p) (fun _ _ => State.repairPort_sameFailures) (engineGroups e) (s.laserDark e w)
  have hexec := exec_laserFail_second he hw hlasers hdark hspare
  have hmem := ((execLaserFail_good (F := oneOf [.free, .sent, .flash, .fcu, .regs, .ports, .fab]) rfl rfl rfl rfl rfl rfl rfl).keeps hexec).frame .mem rfl
  generalize (engineGroups e).foldl (fun s p => s.repairPort p) (s.laserDark e w) = t at *
  exact ⟨t, hexec, by rw [hsame.dark]; exact hd, by rw [hsame.relock]; exact hr, fun n hn hmod => by rw [hsame.failed]; exact hf n hn hmod, hmem⟩

end Parts

/-- Settles O48: failed lanes are swapped, calibrated lanes move and return, and wavelengths change lasers. -/
theorem failedLanesAndLasersAreReplaced : Obligations.FailedLanesAndLasersAreReplaced := by
  refine ⟨⟨?_, ?_, ?_, ?_, ?_, ?_, ?_, ?_⟩, ?_, ?_, ?_, ?_, ?_⟩
  · intro s e lane i x p he hl hlasers hgood hheld hcal hlogical hi hp hup hswap hmem hothers hspare
    have hasked := State.requestSwap_asked (s := s.failLane e lane) (p := p) (e := e) (i := i) (old := lane) (x := x) (reason := 1)
    have hlt : p < 48 := hp ▸ groupPort_lt hi he
    refine ⟨_, exec_laneFail_asks he hl hlasers hgood hheld hcal hlogical hi hp hup hswap hmem hothers hspare, ?_, ?_, ?_, fun en hen hne => ?_, ?_⟩
    · rw [State.lane_congr hasked.lanes, State.failLane_lane]
    · rw [hasked.port]
      rfl
    · rw [hasked.port]
      rfl
    · obtain ⟨j, hj, rfl, _⟩ := State.mem_portLanes hlt hen
      have hdiv : p / 3 = e := by rw [hp, groupPort_div hi]
      rw [hdiv] at hen hne ⊢
      have hphys : s.physOf e (portBase p + j) ≠ lane := fun h => hne (by rw [h])
      have hgood := hothers _ hen
      dsimp only at hgood
      rw [← State.failLane_lane_ne hphys] at hgood
      exact hasked.asks (e, s.physOf e (portBase p + j)) hen rfl hgood
    · exact (State.requestSwap_keeps (F := oneOf [.sent, .flash, .fcu, .regs, .fab]) (State.failLane_keeps .rfl rfl) rfl rfl rfl rfl rfl).eq_graft
  · intro s e lane he hl hlasers hgood hheld hcal hlogical
    rw [exec_laneFail_of he hl hlasers hgood hheld hcal]
    unfold State.laneFailed
    rw [hlogical]
    exact ⟨_, rfl, State.failLane_lane, rfl⟩
  · intro s e i x ep p b he hlen hty hi hx hep hlt hxlt hp hup hswap hnew hfree hcal hmap hnodup hgood hothers
    have h : s.TakesSwap p e i x ep b := ⟨he, hlen, hty, hi, hx, hep, hlt, hp, hup, hswap, hnew, hfree, hcal⟩
    have hp48 : p < 48 := hp ▸ groupPort_lt hlt he
    have hfab := State.answeredSwap_fab (s := s.takenSwap p e i x ep) (p := p) (e := e) (i := i) (x := x) (b := b)
    obtain ⟨hengine, hport, hold, hkeep⟩ := State.takenSwap_spec (s := s) (e := e) (i := i) (x := x) (ep := ep) hp48
    have hport' : ((s.takenSwap p e i x ep).answeredSwap p e i x b).fport p = { s.fport p with swap := none, epoch := ep } := by
      rw [State.fport, hfab]
      exact hport
    refine ⟨_, exec_swapReq_whole h hxlt hmap hnodup hgood hothers, ?_, ?_, ?_, ?_, fun en hen => ?_, ?_⟩
    · exact State.physOf_of_moved ((State.engine_congr (congrArg Fabric.engines hfab) e).trans hengine) hmap (Nat.lt_trans hlt (by decide))
    · rw [State.lane_congr (congrArg Fabric.lanes hfab), hold]
    · rw [hport']
    · rw [hport']
    · rw [State.portLanes_congr (congrArg Fabric.engines hfab) (congrArg (fun x : Fabric => (mget freshFPort x.ports p).half) hfab)] at hen
      exact State.mem_answeredSwap hen
    · rw [State.answeredSwap_mem, State.takenSwap_mem]
  · intro s e i p b sw he hlen hty hi hlt hp hup hswap hlogical hold hspare hepoch hxlt hmap hnodup hfree hgood hothers hflits
    have hp48 : p < 48 := hp ▸ groupPort_lt hlt he
    obtain ⟨hengine, hhalf, hquiet, hnaked, hlane⟩ := State.endedSwap_spec (s := s) (e := e) (i := i) (x := sw.spare) hp48 hflits
    exact ⟨_, exec_swapAck_whole he hlen hty hi hlt hp hswap hlogical hold hspare hepoch hmap hnodup hgood hothers hflits,
      State.physOf_of_moved hengine hmap (Nat.lt_trans hlt (by decide)), hquiet, hnaked, State.endedSwap_regs hp48,
      (State.endedSwap_keeps (F := oneOf [.sent, .regs, .fab]) rfl rfl rfl).eq_graft⟩
  · exact fun s e p i h hp hhalf hh hgood => State.narrowPort_half hp hhalf hh hgood
  · intro s e i x y rest he hlocked hperiod hcal hmap hgood hnext hfree
    have hi : i < 32 := by
      obtain ⟨j, _, hj⟩ := List.mem_map.1 (List.mem_of_find?_eq_some hnext)
      omega
    have hmoved : (s.calibrating e i x).engine e = { (s.engine e).moved i x with cal := some ⟨i, s.physOf e i, x, false⟩, calNext := (i + 1) % 32 } := by
      unfold State.calibrating
      rw [State.engine_onEngine_self, State.moveLane_engine]
    refine ⟨_, exec_calibrationStep_of he hlocked hperiod hcal hgood hnext hfree, ?_, ?_, ?_, ?_⟩
    · unfold State.physOf
      rw [hmoved]
      simp [Engine.moved, hmap, hi]
    · rw [hmoved]
    · rw [hmoved]
    · exact (State.onEngine_keeps (F := oneOf [.free, .sent, .regs, .fab]) (State.moveLane_keeps .rfl rfl rfl rfl rfl) rfl).eq_graft
  · intro s e c hcal hmine hi hmap
    refine ⟨_, exec_calibrationComplete_of hcal hmine, ?_, ?_, ?_⟩
    · unfold State.physOf
      rw [State.engine_onEngine_self, State.moveLane_engine]
      simp [Engine.moved, hmap, hi]
    · rw [State.engine_onEngine_self]
    · exact (State.onEngine_keeps (F := oneOf [.free, .sent, .regs, .fab]) (State.moveLane_keeps .rfl rfl rfl rfl rfl) rfl).eq_graft
  · intro s e i x b he hlen hty hi hx hlt hxlt hnew hfree hcal hmap
    obtain ⟨hengine, hepoch⟩ := State.peerMoved_spec (s := s) (e := e) (i := i) (x := x) (ep := field b 3 1) hcal
    refine ⟨_, exec_calMove_of he hlen hty hi hx hlt hxlt hnew hfree, ?_, ?_, hepoch, ?_⟩
    · unfold State.physOf
      rw [hengine]
      simp [Engine.moved, hmap, hlt]
    · rw [hengine]
    · exact (State.onEngine_keeps (F := oneOf [.regs, .fab]) (State.mapLane_keeps (State.oeCount_keeps (State.onFPort_keeps .rfl rfl) rfl) rfl) rfl).eq_graft
  · exact fun s e w he hw hlasers hdark hspare => laserFail_switches he hw hlasers hdark hspare
  · exact fun s e w he hw hlasers hdark hspare => laserFail_darkens he hw hlasers hdark hspare
  · intro s e w he hrelock
    refine ⟨_, congrArg Host.Outcome.next (State.whenP_pos ⟨he, List.contains_iff_mem.2 hrelock⟩), ?_, ?_⟩
    · rw [State.pumpAll_sameLinks.engine, State.engine_onEngine_self]
    · exact (State.pumpAll_keeps (F := oneOf [.sent, .fab]) (State.onEngine_keeps .rfl rfl) rfl rfl).eq_graft
  · intro s e w b he hlen hty hw hlt hheld
    have hheld' : (s.engine e).held.contains (field b 1 1) = false := Bool.eq_false_iff.2 fun h => hheld (hw ▸ List.contains_iff_mem.1 h)
    refine ⟨_, congrArg Host.Outcome.next (State.whenP_pos ⟨he, hlen, hty, by rw [hw]; exact hlt, hheld'⟩), ?_, rfl⟩
    rw [State.engine_onEngine_self, hw]
  · intro s e w he
    exact ⟨_, congrArg Host.Outcome.next (State.whenP_pos he), State.engine_onEngine_self _, rfl⟩

end Sys2Proof.Machine

/-! Settling O49: host links, decoders, resets and Bus Master Enable (R58, R59, R387 to R397). -/

namespace Sys2Proof.Machine

open Sys2Proof

section Owners

variable {s : State} {id p : Nat} {x : Task}

/-! ### The tasks of a port end with its reset (R356) -/

/-- The tasks of a state, as their identities and owners. -/
def State.owners (s : State) : List (Nat × Nat) := s.ldr.tasks.map fun t => (t.id, t.owner)

theorem State.onTask_owners {f : Task → Task} (hid : ∀ t, (f t).id = t.id) (howner : ∀ t, (f t).owner = t.owner) : (s.onTask id f).owners = s.owners := by
  unfold State.owners State.onTask
  rw [List.map_map]
  refine List.map_congr_left fun t _ => ?_
  dsimp only [Function.comp_apply]
  split
  · rw [hid, howner]
  · rfl

theorem State.owners_congr {t : State} (h : t.ldr = s.ldr) : t.owners = s.owners := congrArg (fun x : Loader => x.tasks.map fun t : Task => (t.id, t.owner)) h

theorem State.unbind_ldr : (s.unbind x).ldr = s.ldr := (State.unbind_keeps (F := oneOf [.regs, .notices]) .rfl rfl rfl).frame .ldr rfl

theorem State.freeModels_ldr (st : Nat → Bool) : (s.freeModels x st).ldr = s.ldr :=
  (State.freeModels_keeps (F := oneOf [.regs, .mem, .kv]) .rfl rfl rfl rfl).frame .ldr rfl

theorem State.foldl_ldr {α : Type} {g : State → α → State} (hg : ∀ (u : State) (a : α), (g u a).ldr = u.ldr) (l : List α) : (l.foldl g s).ldr = s.ldr := by
  induction l generalizing s with
  | nil => rfl
  | cons a l ih => rw [List.foldl_cons, ih, hg]

theorem State.abortCore_ldr (d c : Nat) : (s.abortCore d c).ldr = s.ldr :=
  (State.abortCore_keeps (F := oneOf [.mem, .banks, .baus, .seqs, .cores, .kv, .fab]) .rfl rfl rfl rfl rfl rfl rfl rfl).frame .ldr rfl

theorem State.dropDescs_ldr (d c : Nat) : (s.dropDescs d c).ldr = s.ldr := (State.dropDescs_keeps (F := oneOf [.mem, .cores, .kv]) .rfl rfl rfl rfl).frame .ldr rfl

theorem State.abortRun_owners : (s.abortRun id).owners = s.owners := by
  unfold State.abortRun
  cases s.task id with
  | none => rfl
  | some t =>
    dsimp only
    rw [State.owners_congr (State.freeModels_ldr _), State.owners_congr (State.foldl_ldr (fun _ _ => State.abortCore_ldr _ _) _), State.owners_congr State.unbind_ldr]
    exact State.onTask_owners (fun _ => rfl) fun _ => rfl

theorem State.finishRun_owners : (s.finishRun id).owners = s.owners := by
  unfold State.finishRun
  cases s.task id with
  | none => rfl
  | some t =>
    dsimp only
    rw [State.onTask_owners (by exact fun _ => rfl) (by exact fun _ => rfl), State.owners_congr (State.foldl_ldr ?_ _)]
    · split
      · exact State.owners_congr State.unbind_ldr
      · rfl
    · exact fun u dc => State.dropDescs_ldr dc.1 dc.2

/-- The owners left once a task is gone. -/
def ownersBut (id : Nat) (os : List (Nat × Nat)) : List (Nat × Nat) := os.filter fun o => o.1 ≠ id

theorem State.owners_gone : ({ s with ldr := { s.ldr with tasks := s.ldr.tasks.filter fun t => t.id ≠ id } } : State).owners = ownersBut id s.owners := by
  unfold ownersBut State.owners
  rw [List.filter_map]
  rfl

theorem State.freeTask_owners : (s.freeTask id).owners = ownersBut id s.owners := by
  unfold State.freeTask
  cases htask : s.task id with
  | none =>
    unfold ownersBut State.owners
    refine (List.filter_eq_self.2 fun o ho => ?_).symm
    obtain ⟨t, ht, rfl⟩ := List.mem_map.1 ho
    have hne := List.find?_eq_none.1 htask t ht
    simpa using hne
  | some t =>
    dsimp only
    rw [State.owners_gone, State.owners_congr (State.foldl_ldr (by exact fun _ _ => rfl) _)]
    exact congrArg (ownersBut id) (State.owners_congr (State.freeModels_ldr _))

theorem State.endPortTask_owners : (s.endPortTask x).owners = ownersBut x.id s.owners := by
  unfold State.endPortTask
  cases x.state with
  | loading => exact State.owners_gone
  | running =>
    dsimp only
    rw [State.freeTask_owners, State.finishRun_owners, State.abortRun_owners]
  | aborting =>
    dsimp only
    rw [State.freeTask_owners, State.finishRun_owners]
  | loaded => exact State.freeTask_owners

theorem State.mem_foldl_endPortTask {o : Nat × Nat} (l : List Task) (h : o ∈ (l.foldl (fun s t => s.endPortTask t) s).owners) :
    o ∈ s.owners ∧ ∀ t ∈ l, o.1 ≠ t.id := by
  induction l generalizing s with
  | nil => exact ⟨h, fun _ ht => absurd ht List.not_mem_nil⟩
  | cons x l ih =>
    obtain ⟨hin, hall⟩ := ih h
    rw [State.endPortTask_owners] at hin
    obtain ⟨hmem, hne⟩ := List.mem_filter.1 hin
    refine ⟨hmem, fun t ht => ?_⟩
    rcases List.mem_cons.1 ht with rfl | ht
    · exact of_decide_eq_true hne
    · exact hall t ht

/-- No task of a port outlives the end of the port's work. -/
theorem State.abortPortWork_owner {y : Task} (hy : y ∈ (s.abortPortWork p).ldr.tasks) : y.owner ≠ senderHost p 0 := by
  intro howner
  have hfold : (y.id, y.owner) ∈ ((s.ldr.tasks.filter fun t => t.owner = senderHost p 0).foldl (fun s t => s.endPortTask t) s).owners := by
    refine List.mem_map.2 ⟨y, ?_, rfl⟩
    exact hy
  obtain ⟨hmem, hall⟩ := State.mem_foldl_endPortTask _ hfold
  obtain ⟨z, hz, heq⟩ := List.mem_map.1 hmem
  obtain ⟨hid, hzowner⟩ := Prod.mk.inj heq
  exact hall z (List.mem_filter.2 ⟨hz, decide_eq_true (hzowner.trans howner)⟩) hid.symm

/-- A port without tasks loses its slots and its mailboxes alone. -/
theorem State.abortPortWork_of (h : ∀ y ∈ s.ldr.tasks, y.owner ≠ senderHost p 0) : s.abortPortWork p = (s.resetSlots p).resetMailboxes p := by
  have hnone : (s.ldr.tasks.filter fun t => t.owner = senderHost p 0) = [] := List.filter_eq_nil_iff.2 fun y hy => by simpa using h y hy
  unfold State.abortPortWork
  rw [hnone]
  rfl

end Owners

section Resets

variable {s : State} {p : Nat}

theorem State.resetSlots_slots {x : Nat × SeqSlot} (h : x ∈ (s.resetSlots p).slots) : s.ownsSlot p (x.1 / 4096) (x.1 % 4096) = false := by
  have hx := (List.mem_filter.1 h).2
  simpa using hx

theorem State.resetMailboxes_notices {x : Notice} (h : x ∈ (s.resetMailboxes p).notices) : s.hostSlot p x.d x.k x.n = false := by
  have hx := (List.mem_filter.1 h).2
  simpa using hx

theorem State.dropHeld_held {x : HeldAccess} (h : x ∈ (s.dropHeld p).mem.held) (rid : Nat) : x.ag ≠ .host p rid := by
  intro heq
  have hx := (List.mem_filter.1 h).2
  rw [heq] at hx
  simp at hx

theorem State.dropDir_dir {x : DirEntry} (h : x ∈ (s.dropDir p).mem.dir) : ∀ q ∈ x.ports, q.1 ≠ p := by
  obtain ⟨y, _, rfl⟩ := List.mem_map.1 (List.mem_filter.1 h).1
  intro q hq
  simpa using (List.mem_filter.1 hq).2

theorem State.dropDir_snoops {x : Snoop} (h : x ∈ (s.dropDir p).mem.snoops) : x.port ≠ p := by
  simpa using (List.mem_filter.1 h).2

end Resets

end Sys2Proof.Machine

/-! Settling O49: links, decoders, Bus Master Enable and the resets together. -/

namespace Sys2Proof.Machine

open Sys2Proof

section Links

variable {s : State} {p partner speed width n : Nat}

/-- A port whose link has come up. -/
def HostPort.linked (x : HostPort) (proto speed width : Nat) (below ready : Bool) : HostPort :=
  { x with
    proto := proto
    speed := if (proto = 3 ∨ proto = 4 ∨ proto = 1) ∧ 5 < speed then 5 else speed
    width := width
    ioOnly := below
    memInfoValid := true
    memActive := ready }

/-- Whether a port trains below its configuration with a shared window (R59). -/
def State.linksBelow (s : State) (p proto : Nat) : Bool :=
  decide ((proto = 3 ∨ proto = 4) ∧ (s.fld p 0 0 HP_CFG.ALLOWED = 0 ∨ s.fld p 0 0 HP_CFG.ALLOWED = 3)) && s.windowShared p

/-- The state with a host link up. -/
def State.hostLinked (s : State) (p proto speed width : Nat) : State :=
  s.onPort p fun x => x.linked proto speed width (s.linksBelow p proto) (decide (s.power.mode = .ready))

theorem exec_hostLinkUp_of (hp : p < 8) (hpartner : partner ≤ 4) (hlow : 1 ≤ speed) (hhigh : speed ≤ 6) (hwidth : [1, 2, 4, 8, 16].contains width = true)
    (hlasers : s.boot.lasersOn = true) (hheld : (s.port p).heldDown = false) (hproto : (s.port p).proto = 0) :
    exec (.hostLinkUp p partner speed width) s = .next (
      if s.linksBelow p (trainedProto (s.fld p 0 0 HP_CFG.ALLOWED) partner speed) then
        (s.hostLinked p (trainedProto (s.fld p 0 0 HP_CFG.ALLOWED) partner speed) speed width).raise p 0x4B01 .die 0 0
      else s.hostLinked p (trainedProto (s.fld p 0 0 HP_CFG.ALLOWED) partner speed) speed width) :=
  congrArg Host.Outcome.next (State.whenP_pos ⟨hp, hpartner, hlow, hhigh, hwidth, hlasers, hheld, hproto⟩)

theorem State.port_congr {t : State} (h : t.ports = s.ports) (p : Nat) : t.port p = s.port p := congrArg (mget freshPort · p) h

theorem State.raise_ports {d code : Nat} {un : FaultUnit} {a b : Nat} : (s.raise d code un a b).ports = s.ports :=
  (State.raise_keeps (F := oneOf [.flash, .fcu, .regs]) .rfl rfl rfl rfl).frame .ports rfl

theorem State.linksBelow_iff (proto : Nat) : s.linksBelow p proto = true ↔
    (proto = 3 ∨ proto = 4) ∧ (s.fld p 0 0 HP_CFG.ALLOWED = 0 ∨ s.fld p 0 0 HP_CFG.ALLOWED = 3) ∧ s.windowShared p = true := by
  unfold State.linksBelow
  rw [Bool.and_eq_true, decide_eq_true_iff, and_assoc]

/-- What a link that comes up leaves in its port (R387, R388, R392). -/
theorem hostLinkUp_links {proto : Nat} (hp : p < 8) (hpartner : partner ≤ 4) (hlow : 1 ≤ speed) (hhigh : speed ≤ 6) (hwidth : [1, 2, 4, 8, 16].contains width = true)
    (hlasers : s.boot.lasersOn = true) (hheld : (s.port p).heldDown = false) (hzero : (s.port p).proto = 0)
    (hproto : proto = trainedProto (s.fld p 0 0 HP_CFG.ALLOWED) partner speed) :
    ∃ t, exec (.hostLinkUp p partner speed width) s = .next t ∧ (t.port p).proto = proto ∧ (t.port p).width = width ∧ (t.port p).memInfoValid = true ∧
      (t.port p).speed = (if (proto = 1 ∨ proto = 3 ∨ proto = 4) ∧ 5 < speed then 5 else speed) ∧ ((t.port p).memActive = true ↔ s.power.mode = .ready) ∧
      ((t.port p).ioOnly = true ↔ (proto = 3 ∨ proto = 4) ∧ (s.fld p 0 0 HP_CFG.ALLOWED = 0 ∨ s.fld p 0 0 HP_CFG.ALLOWED = 3) ∧ s.windowShared p = true) ∧
      ((t.port p).ioOnly = false → t = { s with ports := t.ports }) ∧ t = { s with ports := t.ports, regs := t.regs, flash := t.flash, fcu := t.fcu } := by
  have hexec := exec_hostLinkUp_of hp hpartner hlow hhigh hwidth hlasers hheld hzero
  rw [← hproto] at hexec
  have hport : (s.hostLinked p proto speed width).port p = (s.port p).linked proto speed width (s.linksBelow p proto) (decide (s.power.mode = .ready)) :=
    State.port_onPort_self _ _
  have hspeed : (proto = 3 ∨ proto = 4 ∨ proto = 1) ↔ (proto = 1 ∨ proto = 3 ∨ proto = 4) := by omega
  have hlinked : ∀ t : State, t.port p = (s.port p).linked proto speed width (s.linksBelow p proto) (decide (s.power.mode = .ready)) →
      (t.port p).proto = proto ∧ (t.port p).width = width ∧ (t.port p).memInfoValid = true ∧
      (t.port p).speed = (if (proto = 1 ∨ proto = 3 ∨ proto = 4) ∧ 5 < speed then 5 else speed) ∧ ((t.port p).memActive = true ↔ s.power.mode = .ready) ∧
      ((t.port p).ioOnly = true ↔ (proto = 3 ∨ proto = 4) ∧ (s.fld p 0 0 HP_CFG.ALLOWED = 0 ∨ s.fld p 0 0 HP_CFG.ALLOWED = 3) ∧ s.windowShared p = true) := by
    intro t ht
    rw [ht]
    refine ⟨rfl, rfl, rfl, ?_, decide_eq_true_iff, State.linksBelow_iff proto⟩
    unfold HostPort.linked
    simp only [hspeed]
  cases hbelow : s.linksBelow p proto with
  | false =>
    rw [hbelow, if_neg Bool.false_ne_true] at hexec
    obtain ⟨h1, h2, h3, h4, h5, h6⟩ := hlinked _ hport
    exact ⟨_, hexec, h1, h2, h3, h4, h5, h6, fun _ => rfl, rfl⟩
  | true =>
    rw [hbelow, if_pos rfl] at hexec
    have hraised : ((s.hostLinked p proto speed width).raise p 0x4B01 .die 0 0).port p = _ := (State.port_congr State.raise_ports p).trans hport
    obtain ⟨h1, h2, h3, h4, h5, h6⟩ := hlinked _ hraised
    refine ⟨_, hexec, h1, h2, h3, h4, h5, h6, fun hno => ?_, ?_⟩
    · rw [hraised] at hno
      exact absurd (hbelow.symm.trans hno) (by decide)
    · exact (State.raise_keeps (F := oneOf [.ports, .flash, .fcu, .regs]) (State.onPort_keeps .rfl rfl) rfl rfl rfl).eq_graft

theorem trainedProto_table {allowed : Nat} (hpartner : partner ≤ 4) (hallowed : allowed ≤ 3) :
    (trainedProto allowed partner speed = 5 ↔ allowed = 3 ∧ partner = 4 ∧ speed = 6) ∧
    (trainedProto allowed partner speed = 3 ↔ 1 ≤ allowed ∧ 2 ≤ partner ∧ (allowed = 1 ∨ partner = 2)) ∧
    (trainedProto allowed partner speed = 1 ∨ trainedProto allowed partner speed = 2 ↔ allowed = 0 ∨ partner ≤ 1) := by
  unfold trainedProto
  dsimp only
  refine ⟨?_, ?_, ?_⟩ <;> split_ifs <;> omega

/-! ### Decoders (R58, R391) -/

theorem exec_hdmDecoderCommit_of {base size ways gran skip : Nat} (hp : p < 8) (hn : n < 4) (hnone : mfind (s.port p).decoders n = none)
    (hproto : (s.port p).proto = 4 ∨ (s.port p).proto = 5) : exec (.hdmDecoderCommit p n base size ways gran skip) s =
      .next (s.onPort p fun x => { x with decoders := mput x.decoders n ⟨base, size, ways, gran, skip, s.commitOk p n ⟨base, size, ways, gran, skip, true, false⟩,
        !s.commitOk p n ⟨base, size, ways, gran, skip, true, false⟩⟩ }) := by
  refine congrArg Host.Outcome.next ((State.whenP_pos ⟨hp, hn, by rw [hnone]; rfl⟩).trans ?_)
  dsimp only
  rw [if_neg (by omega), decide_eq_true hproto, Bool.true_and]
  cases s.commitOk p n ⟨base, size, ways, gran, skip, true, false⟩ <;> rfl

theorem exec_hdmDecoderCommit_locked {base size ways gran skip : Nat} {x : Decoder} (hfind : mfind (s.port p).decoders n = some x) (hlocked : x.committed = true) :
    exec (.hdmDecoderCommit p n base size ways gran skip) s = .next s :=
  congrArg Host.Outcome.next (State.whenP_neg fun h => by
    obtain ⟨_, _, hopen⟩ := h
    rw [hfind] at hopen
    simp [hlocked] at hopen)

/-! ### Bus Master Enable (R395) -/

theorem State.foldl_sendMsix (l : List Nat) : l.foldl (fun s v => s.send (.msix p v)) s = { s with sent := s.sent ++ l.map fun v => Sent.msix p v } := by
  induction l generalizing s with
  | nil => simp
  | cons v l ih =>
    rw [List.foldl_cons, ih]
    simp [State.send]

theorem exec_busMasterEnable_on (hp : p < 8) : exec (.busMasterEnableWrite p true) s =
    .next { s.onPort p (fun x => { x with busMaster := true, msixPending := [] }) with sent := s.sent ++ (s.port p).msixPending.map fun v => Sent.msix p v } := by
  refine congrArg Host.Outcome.next ((State.whenP_pos hp).trans ?_)
  exact State.foldl_sendMsix _

theorem exec_busMasterEnable_off (hp : p < 8) : exec (.busMasterEnableWrite p false) s = .next (if s.farPort = some p then
    (s.onPort p fun x => { x with busMaster := false }).farUnreachable else s.onPort p fun x => { x with busMaster := false }) :=
  congrArg Host.Outcome.next (State.whenP_pos hp)

theorem State.far_of_farPort (h : s.farPort = some p) : s.far.isSome = true := by
  unfold State.farPort at h
  cases hfar : s.far with
  | none =>
    rw [hfar] at h
    cases h
  | some x => rfl

theorem State.farUnreachable_ports : s.farUnreachable.ports = s.ports :=
  (State.farUnreachable_keeps (F := oneOf [.regs, .mem, .kv, .fab]) .rfl rfl rfl rfl rfl).frame .ports rfl

/-- Bus Master Enable cleared on the far tier's port makes the tier unreachable (R322, R395). -/
theorem busMasterEnable_off_far (hp : p < 8) (hfar : s.farPort = some p) :
    ∃ t, exec (.busMasterEnableWrite p false) s = .next t ∧ t.kv.unreachable = true ∧ (t.port p).busMaster = false := by
  have hexec := exec_busMasterEnable_off (s := s) hp
  rw [if_pos hfar] at hexec
  have hport := State.port_onPort_self (s := s) p fun x => { x with busMaster := false }
  have hsome : (s.onPort p fun x => { x with busMaster := false }).far.isSome = true := State.far_of_farPort hfar
  generalize s.onPort p (fun x => { x with busMaster := false }) = u at *
  exact ⟨_, hexec, State.farUnreachable_spec hsome, by rw [State.port_congr State.farUnreachable_ports, hport]⟩

/-! ### Resets (R397) -/

/-- A port whose link is down after a hot reset. -/
def HostPort.reset (x : HostPort) : HostPort :=
  { x with proto := 0, speed := 0, width := 0, ioOnly := false, decoders := [], range1 := 0, flip := none, lanesSeen := [] }

/-- The state with a port's directory entries and held accesses dropped. -/
def State.dropPort (s : State) (p : Nat) : State := (s.dropDir p).dropHeld p

/-- The state with a port's slots and mailboxes emptied. -/
def State.emptyPort (s : State) (p : Nat) : State := (s.resetSlots p).resetMailboxes p

theorem State.resetPort_ports : ((s.dropPort p).emptyPort p).ports = s.ports := rfl

theorem State.resetPort_cells : ((s.dropPort p).emptyPort p).mem.cells = s.mem.cells := rfl

theorem State.resetPort_frame {f : HostPort → HostPort} : ((s.onPort p f).dropPort p).emptyPort p =
    { s with ports := (((s.onPort p f).dropPort p).emptyPort p).ports, mem := (((s.onPort p f).dropPort p).emptyPort p).mem,
             notices := (((s.onPort p f).dropPort p).emptyPort p).notices, slots := (((s.onPort p f).dropPort p).emptyPort p).slots,
             seqs := (((s.onPort p f).dropPort p).emptyPort p).seqs } :=
  (State.resetMailboxes_keeps (F := oneOf [.ports, .mem, .notices, .slots, .seqs])
    (State.resetSlots_keeps (State.dropHeld_keeps (State.dropDir_keeps (State.onPort_keeps .rfl rfl) rfl) rfl) rfl rfl) rfl).eq_graft

theorem exec_hotReset_of (hp : p < 8) (h : ∀ y ∈ s.ldr.tasks, y.owner ≠ senderHost p 0) :
    exec (.hotReset p) s = .next (((s.onPort p HostPort.reset).dropPort p).emptyPort p) :=
  congrArg Host.Outcome.next ((State.whenP_pos hp).trans (State.abortPortWork_of h))

theorem exec_flr_of (hp : p < 8) (h : ∀ y ∈ s.ldr.tasks, y.owner ≠ senderHost p 0) : exec (.flr p) s = .next ((s.dropHeld p).emptyPort p) :=
  congrArg Host.Outcome.next ((State.whenP_pos hp).trans (State.abortPortWork_of h))

theorem exec_cxlReset_of (hp : p < 8) (h : ∀ y ∈ s.ldr.tasks, y.owner ≠ senderHost p 0) : exec (.cxlReset p) s = .next ((s.dropPort p).emptyPort p) :=
  congrArg Host.Outcome.next ((State.whenP_pos hp).trans (State.abortPortWork_of h))

theorem exec_resets {c : Instr} (hp : p < 8) (hc : c = .hotReset p ∨ c = .flr p ∨ c = .cxlReset p) : ∃ u : State, exec c s = .next (u.abortPortWork p) := by
  rcases hc with rfl | rfl | rfl
  · exact ⟨_, congrArg Host.Outcome.next (State.whenP_pos hp)⟩
  · exact ⟨_, congrArg Host.Outcome.next (State.whenP_pos hp)⟩
  · exact ⟨_, congrArg Host.Outcome.next (State.whenP_pos hp)⟩

/-- A hot reset leaves the port down and nothing of it in the directory, the queues, the mailboxes and the slots (R397). -/
theorem hotReset_resets (hp : p < 8) (htasks : ∀ y ∈ s.ldr.tasks, y.owner ≠ senderHost p 0) :
    ∃ t, exec (.hotReset p) s = .next t ∧ (t.port p).proto = 0 ∧ (t.port p).decoders = [] ∧ (t.port p).range1 = 0 ∧ (t.port p).flip = none ∧
      (∀ q, q ≠ p → t.port q = s.port q) ∧ (∀ x ∈ t.mem.dir, ∀ q ∈ x.ports, q.1 ≠ p) ∧ (∀ x ∈ t.mem.snoops, x.port ≠ p) ∧
      (∀ x ∈ t.mem.held, ∀ rid, x.ag ≠ .host p rid) ∧ t.mem.cells = s.mem.cells ∧
      (∀ x ∈ t.notices, s.hostSlot p x.d x.k x.n = false) ∧ (∀ x ∈ t.slots, s.ownsSlot p (x.1 / 4096) (x.1 % 4096) = false) ∧
      t = { s with ports := t.ports, mem := t.mem, notices := t.notices, slots := t.slots, seqs := t.seqs } := by
  have hself : ((s.onPort p HostPort.reset).dropPort p |>.emptyPort p).port p = (s.port p).reset :=
    (State.port_congr State.resetPort_ports p).trans (State.port_onPort_self ..)
  refine ⟨_, exec_hotReset_of hp htasks, ?_, ?_, ?_, ?_, fun q hq => ?_, fun x hx => ?_, fun x hx => ?_, fun x hx rid => ?_, State.resetPort_cells, fun x hx => ?_, fun x hx => ?_,
    State.resetPort_frame⟩
  · rw [hself]
    rfl
  · rw [hself]
    rfl
  · rw [hself]
    rfl
  · rw [hself]
    rfl
  · exact (State.port_congr State.resetPort_ports q).trans (State.port_onPort_ne _ hq)
  · exact State.dropDir_dir (s := s.onPort p HostPort.reset) hx
  · exact State.dropDir_snoops (s := s.onPort p HostPort.reset) hx
  · exact State.dropHeld_held (s := (s.onPort p HostPort.reset).dropDir p) hx rid
  · exact State.resetMailboxes_notices (s := ((s.onPort p HostPort.reset).dropPort p).resetSlots p) hx
  · exact State.resetSlots_slots (s := (s.onPort p HostPort.reset).dropPort p) hx

end Links

/-- Settles O49: links come up as their ports allow, decoders lock once committed, and a reset ends the work of its port. -/
theorem hostPortsComeUpAndReset : Obligations.HostPortsComeUpAndReset := by
  refine ⟨?_, ?_, ?_, ?_, ?_, ?_, ?_, ?_, ?_, ?_, ?_⟩
  · exact fun s p partner speed width proto hp hpartner hlow hhigh hwidth hlasers hheld hzero hproto =>
      hostLinkUp_links hp hpartner hlow hhigh hwidth hlasers hheld hzero hproto
  · exact fun allowed partner speed _ _ hpartner hallowed => trainedProto_table hpartner hallowed
  · intro s p n base size ways gran skip ok hp hn hnone hproto hok
    refine ⟨_, exec_hdmDecoderCommit_of hp hn hnone hproto, ?_, rfl⟩
    rw [State.port_onPort_self, ← hok]
    exact mfind_mput_self
  · exact fun s p n base size ways gran skip x hfind hlocked => exec_hdmDecoderCommit_locked hfind hlocked
  · exact fun s p hp htasks => hotReset_resets hp htasks
  · intro s p hp htasks
    exact ⟨_, exec_flr_of hp htasks, rfl, rfl, fun x hx rid => State.dropHeld_held (s := s) hx rid,
      fun x hx => State.resetMailboxes_notices (s := (s.dropHeld p).resetSlots p) hx, rfl⟩
  · intro s p hp htasks
    exact ⟨_, exec_cxlReset_of hp htasks, rfl, fun x hx => State.dropDir_dir (s := s) hx, fun x hx rid => State.dropHeld_held (s := s.dropDir p) hx rid, rfl, rfl⟩
  · intro s p c hp hc
    obtain ⟨u, hu⟩ := exec_resets (s := s) hp hc
    exact ⟨_, hu, fun y hy => State.abortPortWork_owner hy⟩
  · exact fun s p hp hfar => ⟨⟨_, congrArg Host.Outcome.next (State.whenP_pos ⟨hp, hfar⟩), State.farUnreachable_spec (State.far_of_farPort hfar)⟩,
      busMasterEnable_off_far hp hfar⟩
  · intro s p hp hfar
    have hexec := exec_busMasterEnable_off (s := s) hp
    rw [if_neg hfar] at hexec
    exact ⟨congrArg Host.Outcome.next (State.whenP_neg fun h => hfar h.2), hexec⟩
  · intro s p hp
    exact ⟨_, exec_busMasterEnable_on hp, State.port_onPort_self (s := s) p fun x => { x with busMaster := true, msixPending := [] }, rfl, rfl⟩

end Sys2Proof.Machine

/-! Settling O50: bias flips, page by page (R394). -/

namespace Sys2Proof.Machine

open Sys2Proof

section Flips

variable {s t : State} {p page : Nat} {f : Flip} {dev : Bool}

/-! ### START (R394, steps 2 and 3) -/

/-- What START makes of a port, by the direction asked for. -/
def State.started (s : State) (p : Nat) (dev : Bool) : State := s.cfgWrite p 3 0x14 (if dev then 3 else 1)

theorem State.started_eq : s.started p dev = (if (s.port p).flip.isSome then s else s.onPort p fun x => { x with biasTarget := dev }).biasStart p := by
  unfold State.started State.cfgWrite
  cases dev with
  | true => rfl
  | false => rfl

theorem State.biasStart_of (hflip : (s.port p).flip = none) (hbias : biasPort (s.port p) = true)
    (hrange : ((s.port p).biasPage + (s.port p).biasCount + 1) * 4096 ≤ dpaSize (s.window p)) :
    s.biasStart p = s.onPort p fun x => { x with flip := some ⟨x.biasTarget, x.biasPage, x.biasPage + x.biasCount⟩, biasDone := 0 } := by
  unfold State.biasStart
  dsimp only
  rw [hflip, hbias, decide_eq_false (Nat.not_lt.2 hrange)]
  rfl

theorem State.biasStart_range (hflip : (s.port p).flip = none)
    (hbad : biasPort (s.port p) = false ∨ dpaSize (s.window p) < ((s.port p).biasPage + (s.port p).biasCount + 1) * 4096) :
    s.biasStart p = s.onPort p fun x => { x with errRange := true } := by
  have hyes : (!biasPort (s.port p) || decide (dpaSize (s.window p) < ((s.port p).biasPage + (s.port p).biasCount + 1) * 4096)) = true := by
    rcases hbad with h | h
    · exact Bool.or_eq_true_iff.2 (.inl (congrArg not h))
    · exact Bool.or_eq_true_iff.2 (.inr (decide_eq_true h))
  unfold State.biasStart
  dsimp only
  rw [hflip, if_neg (by simp), if_pos hyes]

theorem State.started_of (hflip : (s.port p).flip = none) (hbias : biasPort (s.port p) = true)
    (hrange : ((s.port p).biasPage + (s.port p).biasCount + 1) * 4096 ≤ dpaSize (s.window p)) :
    s.started p dev = (s.onPort p fun x => { x with biasTarget := dev }).onPort p fun x =>
      { x with flip := some ⟨x.biasTarget, x.biasPage, x.biasPage + x.biasCount⟩, biasDone := 0 } := by
  have hport := State.port_onPort_self (s := s) p fun x => { x with biasTarget := dev }
  rw [State.started_eq, hflip, Option.isSome_none, if_neg Bool.false_ne_true]
  exact State.biasStart_of (by rw [hport, hflip]) (by rw [hport]; exact hbias) (by rw [hport]; exact hrange)

theorem State.started_range (hflip : (s.port p).flip = none)
    (hbad : biasPort (s.port p) = false ∨ dpaSize (s.window p) < ((s.port p).biasPage + (s.port p).biasCount + 1) * 4096) :
    s.started p dev = (s.onPort p fun x => { x with biasTarget := dev }).onPort p fun x => { x with errRange := true } := by
  have hport := State.port_onPort_self (s := s) p fun x => { x with biasTarget := dev }
  rw [State.started_eq, hflip, Option.isSome_none, if_neg Bool.false_ne_true]
  exact State.biasStart_range (by rw [hport, hflip]) (by rw [hport]; exact hbad)

theorem State.started_busy (hflip : (s.port p).flip.isSome = true) : s.started p dev = s.onPort p fun x => { x with errBusy := true } := by
  rw [State.started_eq, hflip, if_pos rfl]
  unfold State.biasStart
  dsimp only
  rw [if_pos hflip]

theorem exec_biasFlipDevice_of (hp : p < 8) : exec (.biasFlipDevice p) s = .next ((s.started p true).flipAsk p) := congrArg Host.Outcome.next (State.whenP_pos hp)

theorem exec_biasFlipHost_of (hp : p < 8) : exec (.biasFlipHost p) s = .next (s.started p false) := congrArg Host.Outcome.next (State.whenP_pos hp)

theorem State.port_onPort_onPort (f g : HostPort → HostPort) : ((s.onPort p f).onPort p g).port p = g (f (s.port p)) := by
  rw [State.port_onPort_self, State.port_onPort_self]

/-! ### Requests for a page's lines -/

theorem State.flipAsk_of (hflip : (s.port p).flip = some f) (hdev : f.toDevice = true) : s.flipAsk p =
    s.issueSnoops (((s.pageLines p f.next).filter fun q => !s.mem.owned.contains (q / 64)).map fun q => ⟨p, q / 64, .rdOwn⟩) := by
  unfold State.flipAsk State.flipPage
  rw [hflip]
  dsimp only [Option.map_some]
  rw [hdev]

/-- Asking leaves everything but what was asked for. -/
theorem State.flipAsk_frame : s.flipAsk p = { s with sent := (s.flipAsk p).sent, mem := { s.mem with snoops := (s.flipAsk p).mem.snoops } } := by
  unfold State.flipAsk
  split
  · exact State.issueSnoops_frame _
  · rfl

theorem State.flipAsk_port : (s.flipAsk p).port p = s.port p := by rw [State.flipAsk_frame]; rfl

theorem State.pageFlips_device : s.pageFlips p page true = true ↔ ∀ q ∈ s.pageLines p page, q / 64 ∈ s.mem.owned := by
  unfold State.pageFlips
  rw [if_pos rfl, List.all_eq_true]
  simp only [List.contains_iff_mem]

theorem State.pageFlips_host : s.pageFlips p page false = true ↔ ∀ q ∈ s.pageLines p page, s.seqHolds (bankOf q) = false := by
  unfold State.pageFlips
  rw [if_neg Bool.false_ne_true, List.all_eq_true]
  simp only [Bool.not_eq_true']

/-! ### A page that flips -/

theorem exec_biasPageFlipped_of (hflip : (s.port p).flip = some f) (h : s.pageFlips p f.next f.toDevice = true) :
    exec (.biasPageFlipped p) s = .next ((s.flipDone p).flipAsk p) := by
  change execBiasPageFlipped p s = _
  unfold execBiasPageFlipped State.flipPage
  rw [hflip]
  exact congrArg Host.Outcome.next (State.when_pos h)

theorem exec_biasPageFlipped_waits (hflip : (s.port p).flip = some f) (h : s.pageFlips p f.next f.toDevice = false) : exec (.biasPageFlipped p) s = .next s := by
  change execBiasPageFlipped p s = _
  unfold execBiasPageFlipped State.flipPage
  rw [hflip]
  exact congrArg Host.Outcome.next (State.when_neg h)

theorem State.flipDone_spec (hflip : (s.port p).flip = some f) :
    (s.flipDone p).port p = { s.port p with
      devBias := (f.next, f.next, f.toDevice) :: (s.port p).devBias
      biasDone := (s.port p).biasDone + 1
      flip := if f.next < f.last then some { f with next := f.next + 1 } else none } ∧
    s.flipDone p = { s with ports := (s.flipDone p).ports, mem := { s.mem with obtained := (s.flipDone p).mem.obtained, owned := (s.flipDone p).mem.owned } } := by
  unfold State.flipDone
  rw [hflip]
  exact ⟨State.port_onPort_self .., rfl⟩

end Flips

/-- Settles O50: START takes the pages named, and each page flips once nothing of the other side stands in it. -/
theorem biasFlipsPageByPage : Obligations.BiasFlipsPageByPage := by
  refine ⟨?_, ?_, ?_, ?_, ?_, ?_⟩
  · intro s p hp hflip hbias hrange
    have hself : ∀ dev, (s.started p dev).port p =
        { s.port p with biasTarget := dev, flip := some ⟨dev, (s.port p).biasPage, (s.port p).biasPage + (s.port p).biasCount⟩, biasDone := 0 } := fun dev => by
      rw [State.started_of hflip hbias hrange, State.port_onPort_onPort]
    have hframe : ∀ dev, s.started p dev = { s with ports := (s.started p dev).ports } := fun dev => by
      rw [State.started_of hflip hbias hrange]
      rfl
    refine ⟨⟨_, exec_biasFlipDevice_of hp, ?_, ?_, fun q hq hnot => ?_, ?_⟩, _, exec_biasFlipHost_of hp, ?_, ?_, hframe false⟩
    · rw [State.flipAsk_port, hself]
    · rw [State.flipAsk_port, hself]
    · rw [State.flipAsk_of (by rw [hself]) rfl]
      refine State.mem_snoops_issueSnoops (List.mem_map.2 ⟨q, List.mem_filter.2 ⟨?_, ?_⟩, rfl⟩)
      · rw [hframe]
        exact hq
      · rw [hframe]
        simpa using hnot
    · rw [State.flipAsk_frame, hframe]
    · rw [hself]
    · rw [hself]
  · intro s p hp hflip hbad
    have hself : ∀ dev, (s.started p dev).port p = { s.port p with biasTarget := dev, errRange := true } := fun dev => by
      rw [State.started_range hflip hbad, State.port_onPort_onPort]
    have hframe : ∀ dev, s.started p dev = { s with ports := (s.started p dev).ports } := fun dev => by
      rw [State.started_range hflip hbad]
      rfl
    have hidle : (s.started p true).flipAsk p = s.started p true := by
      unfold State.flipAsk State.flipPage
      rw [hself, hflip]
      rfl
    refine ⟨⟨_, exec_biasFlipDevice_of hp, ?_, ?_⟩, _, exec_biasFlipHost_of hp, hself false, hframe false⟩
    · rw [hidle, hself]
    · rw [hidle]
      exact hframe true
  · intro s p hp hflip
    have hself : ∀ dev, (s.started p dev).port p = { s.port p with errBusy := true } := fun dev => by
      rw [State.started_busy hflip, State.port_onPort_self]
    refine ⟨⟨_, exec_biasFlipDevice_of hp, ?_, ?_⟩, _, exec_biasFlipHost_of hp, hself false, ?_⟩
    · rw [State.flipAsk_port, hself]
    · rw [State.flipAsk_frame, State.started_busy hflip]
      rfl
    · rw [State.started_busy hflip]
      rfl
  · intro s p f hflip h
    obtain ⟨hself, hframe⟩ := State.flipDone_spec hflip
    refine ⟨_, exec_biasPageFlipped_of hflip h, ?_, ?_, ?_, ?_⟩
    · rw [State.flipAsk_port, hself]
    · rw [State.flipAsk_port, hself]
    · rw [State.flipAsk_port, hself]
    · rw [State.flipAsk_frame, hframe]
  · exact fun s p f hflip h => exec_biasPageFlipped_waits hflip h
  · exact fun s p page => ⟨State.pageFlips_device, State.pageFlips_host⟩

end Sys2Proof.Machine

/-! Settling O51: transfers of images and records over DOE (R437, R438, R450 to R453). -/

namespace Sys2Proof.Machine

open Sys2Proof

section Transfers

variable {s : State} {p kind n : Nat} {x : Transfer} {sigOk : Bool} {b img : List Byte}

/-! ### BEGIN (R451) -/

/-- Whether a transfer of another port runs. -/
def State.otherTransfers (s : State) (p : Nat) : Bool := match s.boot.transfer with | some t => decide (t.path ≠ p) | none => false

theorem State.otherTransfers_false (h : ∀ x, s.boot.transfer = some x → x.path = p) : s.otherTransfers p = false := by
  unfold State.otherTransfers
  cases htransfer : s.boot.transfer with
  | none => rfl
  | some x => exact decide_eq_false (not_not.2 (h x htransfer))

theorem State.otherTransfers_true (htransfer : s.boot.transfer = some x) (hpath : x.path ≠ p) : s.otherTransfers p = true := by
  unfold State.otherTransfers
  rw [htransfer]
  exact decide_eq_true hpath

/-- The state with a transfer begun. -/
def State.begun (s : State) (p kind n : Nat) : State :=
  s.onBoot fun b => { b with transfer := some ⟨p, kind, n, []⟩, staged := if kind = 1 then none else b.staged }

theorem exec_begin_eq (hserved : s.doeServed p = true) : exec (.begin p kind n) s = .next (
    if s.otherTransfers p then s.doeAnswer p 1 kind 2 0
    else if kind ≠ 1 ∧ kind ≠ 2 ∨ transferMax kind < n then s.doeAnswer p 1 kind 3 0x0002
    else (s.begun p kind n).doeAnswer p 1 kind 0 0) := congrArg Host.Outcome.next (State.when_pos hserved)

/-! ### DATA (R451) -/

theorem exec_data_eq {off : Nat} (hserved : s.doeServed x.path = true) (htransfer : s.boot.transfer = some x) : exec (.data x.path x.kind off b) s = .next (
    if off = x.got.length ∧ 4 ≤ b.length ∧ b.length ≤ 4096 ∧ x.got.length + b.length ≤ x.total then
      (s.onBoot fun y => { y with transfer := some { x with got := x.got ++ b } }).doeAnswer x.path 2 x.kind 0 0
    else s.doeAnswer x.path 2 x.kind 3 0x0002) := by
  refine congrArg Host.Outcome.next ((State.when_pos hserved).trans ?_)
  rw [htransfer]
  dsimp only
  by_cases h : off = x.got.length ∧ 4 ≤ b.length ∧ b.length ≤ 4096 ∧ x.got.length + b.length ≤ x.total
  · rw [if_pos h, if_pos ⟨rfl, rfl, h⟩]
  · rw [if_neg h, if_neg (fun k => h k.2.2), if_neg (not_not.2 rfl)]

/-! ### END (R435, R437, R438, R450) -/

theorem exec_transferEnd_eq {r : Option Record} (hserved : s.doeServed x.path = true) (htransfer : s.boot.transfer = some x) (hkind : x.kind = kind) :
    exec (.transferEnd x.path kind sigOk r) s = .next (if kind = 1 then (s.onBoot fun b => { b with transfer := none }).endImage x sigOk
      else (s.onBoot fun b => { b with transfer := none }).endRecord x sigOk r) := by
  refine congrArg Host.Outcome.next ((State.when_pos hserved).trans ?_)
  rw [htransfer]
  dsimp only
  rw [if_neg (not_not.2 rfl), if_neg (not_not.2 hkind)]

/-- An image is staged where it verifies and its SVN is not below the floor; otherwise the staging memory is empty. -/
theorem State.endImage_spec (hlen : x.got.length = x.total) : (s.endImage x sigOk).boot =
      { s.boot with staged := if fwAccepted x.got sigOk = true ∧ s.fuses.svnFloor ≤ fwSvn x.got then some x.got else none } ∧
    s.endImage x sigOk = { s with boot := (s.endImage x sigOk).boot, sent := (s.endImage x sigOk).sent } := by
  unfold State.endImage
  by_cases hgood : fwAccepted x.got sigOk = true
  · rw [hgood, if_neg (by simp [hlen])]
    by_cases hold : fwSvn x.got < s.fuses.svnFloor
    · rw [if_pos hold, if_neg (fun h => absurd h.2 (Nat.not_le.2 hold))]
      exact ⟨rfl, rfl⟩
    · rw [if_neg hold, if_pos ⟨rfl, Nat.not_lt.1 hold⟩]
      exact ⟨rfl, rfl⟩
  · rw [Bool.eq_false_iff.2 hgood, if_pos (.inr rfl), if_neg (fun h => Bool.false_ne_true h.1)]
    exact ⟨rfl, rfl⟩

/-- The owner digest once a record is stored: burned by the first (R438). -/
def Fuses.burned (f : Fuses) (r : Record) : Fuses :=
  match f.ownerDigest with | none => { f with ownerDigest := some (Config.sha3 (ownerKey0 r)) } | some _ => f

theorem Fuses.burned_spec (f : Fuses) (r : Record) : (f.burned r).ownerDigest = (if f.ownerDigest = none then some (Config.sha3 (ownerKey0 r)) else f.ownerDigest) ∧
    f.burned r = { f with ownerDigest := (f.burned r).ownerDigest } := by
  unfold Fuses.burned
  cases h : f.ownerDigest with
  | none => exact ⟨rfl, rfl⟩
  | some k => exact ⟨h, rfl⟩

theorem State.endRecord_of {r : Record} (hlen : x.got.length = x.total) (htrusted : recordTrusted s.fuses r sigOk = true) (hsections : sectionFault r = none) :
    s.endRecord x sigOk (some r) =
      ({ s with fuses := s.fuses.burned r, flash := { s.flash with record := some r, recordBytes := x.got } } : State).doeAnswer x.path 3 2 0 0 := by
  unfold State.endRecord Fuses.burned
  dsimp only
  rw [if_pos ⟨hlen, htrusted, hsections⟩]
  cases s.fuses.ownerDigest <;> rfl

theorem State.endRecord_untrusted {r : Option Record} (h : ∀ y, r = some y → recordTrusted s.fuses y sigOk = false) :
    s.endRecord x sigOk r = s.doeAnswer x.path 3 2 3 0x0098 := by
  unfold State.endRecord
  cases r with
  | none => rfl
  | some y =>
    refine if_neg fun hgood => ?_
    obtain ⟨_, htrusted, _⟩ := hgood
    exact Bool.false_ne_true ((h y rfl).symm.trans htrusted)

/-! ### The boot ROM's image (R452) -/

theorem exec_recoveryImage_eq (hstaged : s.boot.staged = some img) (hrom : s.romTakesImage = true) (hpost : s.boot.recoveryPost = none) :
    exec (.recoveryImage sigOk) s = .next (if s.fwRuns img sigOk then ({ s with flash := { s.flash with fw := img } } : State).moduleReset 3 .booting
      else { s with boot := { s.boot with staged := none, recoveryPost := none } }) := by
  change execRecoveryImage sigOk s = _
  unfold execRecoveryImage
  rw [hstaged]
  dsimp only
  rw [State.when_pos hrom, hpost]
  cases s.fwRuns img sigOk
  · rfl
  · rfl

end Transfers

/-- Settles O51: a transfer stages or stores what its bytes are, once they are trusted. -/
theorem transfersStageAndStore : Obligations.TransfersStageAndStore := by
  refine ⟨?_, ?_, ?_, ?_, ?_, ?_, ?_, ?_, ?_, ?_, ?_⟩
  · intro s p kind n hserved hmine hkind hsize
    have hexec := exec_begin_eq (kind := kind) (n := n) hserved
    rw [State.otherTransfers_false hmine, if_neg Bool.false_ne_true, if_neg (by omega)] at hexec
    exact ⟨_, hexec, rfl, rfl, rfl⟩
  · intro s p kind n x hserved htransfer hpath
    rw [exec_begin_eq hserved, State.otherTransfers_true htransfer hpath, if_pos rfl]
  · intro s p kind n hserved hmine hbad
    rw [exec_begin_eq hserved, State.otherTransfers_false hmine, if_neg Bool.false_ne_true, if_pos hbad]
  · intro s b x hserved htransfer hmin hmax htotal
    have hexec := exec_data_eq (off := x.got.length) (b := b) hserved htransfer
    rw [if_pos ⟨rfl, hmin, hmax, htotal⟩] at hexec
    exact ⟨_, hexec, rfl, rfl, rfl⟩
  · intro s off b x hserved htransfer hoff
    rw [exec_data_eq hserved htransfer, if_neg fun h => hoff h.1]
  · intro s sigOk r x hserved htransfer hkind hlen
    have hexec := exec_transferEnd_eq (sigOk := sigOk) (r := r) hserved htransfer hkind
    rw [if_pos rfl] at hexec
    obtain ⟨hboot, hframe⟩ := State.endImage_spec (s := s.onBoot fun b => { b with transfer := none }) (sigOk := sigOk) hlen
    refine ⟨_, hexec, ?_, ?_, ?_, ?_⟩
    · rw [hboot]
      rfl
    · rw [hboot]
      rfl
    · rw [hframe]
      rfl
    · rw [hframe]
      rfl
  · intro s sigOk r x hserved htransfer hkind hlen htrusted hsections
    have hexec := exec_transferEnd_eq (sigOk := sigOk) (r := some r) hserved htransfer hkind
    rw [if_neg (by decide), State.endRecord_of (s := s.onBoot fun b => { b with transfer := none }) hlen htrusted hsections] at hexec
    obtain ⟨hdigest, hfuses⟩ := Fuses.burned_spec s.fuses r
    exact ⟨_, hexec, rfl, rfl, hfuses, hdigest, rfl⟩
  · intro s sigOk r x hserved htransfer hkind hbad
    have hexec := exec_transferEnd_eq (sigOk := sigOk) (r := r) hserved htransfer hkind
    rw [if_neg (by decide), State.endRecord_untrusted (s := s.onBoot fun b => { b with transfer := none }) hbad] at hexec
    exact ⟨_, hexec, rfl, rfl, rfl⟩
  · exact fun s p kind hserved => congrArg Host.Outcome.next (State.when_pos hserved)
  · intro s sigOk img hstaged hrom hpost hruns
    rw [exec_recoveryImage_eq hstaged hrom hpost, if_pos hruns]
  · intro s sigOk img hstaged hrom hpost hruns
    rw [exec_recoveryImage_eq hstaged hrom hpost, hruns, if_neg Bool.false_ne_true]

end Sys2Proof.Machine

/-! Settling O52: attestation and the I3C address (R448, R449, R500). -/

namespace Sys2Proof.Machine

open Sys2Proof

section Attestation

variable {s : State} {p n : Nat} {f : State → State}

theorem State.spdmAt_of (hserved : s.spdmServed p = true) (hstage : n ≤ mget 0 s.mgmt.spdm p) : s.spdmAt p n f = f s := by
  unfold State.spdmAt
  rw [State.when_pos hserved, if_neg (Nat.not_lt.2 hstage)]

theorem State.spdmAt_early (hserved : s.spdmServed p = true) (hstage : mget 0 s.mgmt.spdm p < n) :
    s.spdmAt p n f = s.send (.doe p [0x13, 0x7F, 0x04, 0]) := by
  unfold State.spdmAt
  rw [State.when_pos hserved, if_pos hstage]

theorem State.mget_spdmStage : mget 0 (s.spdmStage p n).mgmt.spdm p = n := by
  exact mget_mput_self

/-- GET_CERTIFICATE answers its header of eight bytes and the bytes asked for (R448). -/
theorem exec_getCertificate_eq {off len : Nat} (hserved : s.spdmServed p = true) (hstage : mget 0 s.mgmt.spdm p = 3) :
    exec (.getCertificate p 0 off len) s = .next (s.send (.doe p ([0x13, 0x02, 0, 0] ++ leBytes 2 ((s.flash.cert.drop off).take len).length ++
      leBytes 2 (s.flash.cert.length - off - ((s.flash.cert.drop off).take len).length) ++ (s.flash.cert.drop off).take len))) :=
  congrArg Host.Outcome.next ((State.spdmAt_of hserved hstage.ge).trans (if_pos rfl))

theorem exec_challenge_eq (hserved : s.spdmServed p = true) (hstage : mget 0 s.mgmt.spdm p = 3) :
    exec (.challenge p 0) s = .next (s.fresh.2.send (.doe p ([0x13, 0x03, 0, 1] ++ leBytes 32 (Config.sha3 s.flash.cert) ++ leBytes 2420 s.fresh.1))) :=
  congrArg Host.Outcome.next ((State.spdmAt_of hserved hstage.ge).trans (if_pos rfl))

theorem exec_getMeasurements_count (hserved : s.spdmServed p = true) (hstage : mget 0 s.mgmt.spdm p = 3) :
    exec (.getMeasurements p 0) s = .next (s.send (.doe p [0x13, 0x60, 6, 0])) :=
  congrArg Host.Outcome.next ((State.spdmAt_of hserved hstage.ge).trans (if_pos rfl))

theorem exec_getMeasurements_block {i : Nat} (hserved : s.spdmServed p = true) (hstage : mget 0 s.mgmt.spdm p = 3) (hpos : 1 ≤ i) (hle : i ≤ 6) :
    exec (.getMeasurements p i) s = .next (s.fresh.2.send (.doe p ([0x13, 0x60, 0, 0, BitVec.ofNat 8 i] ++ s.measurement i ++ leBytes 2420 s.fresh.1))) :=
  congrArg Host.Outcome.next ((State.spdmAt_of hserved hstage.ge).trans ((if_neg (by omega)).trans (if_pos hle)))

end Attestation

/-- Settles O52: each request is answered at its stage of the connection, and the dynamic address is taken once. -/
theorem attestationAnswersAndAddressIsTaken : Obligations.AttestationAnswersAndAddressIsTaken := by
  refine ⟨?_, ?_, ?_, ?_, ?_, ?_, ?_⟩
  · intro s p n c hc hserved hstage
    simp only [List.mem_cons, Prod.mk.injEq, List.not_mem_nil, or_false] at hc
    rcases hc with ⟨rfl, rfl⟩ | ⟨rfl, rfl⟩ | ⟨rfl, rfl⟩ | ⟨rfl, rfl⟩ | ⟨rfl, rfl⟩
    all_goals exact congrArg Host.Outcome.next (State.spdmAt_early hserved hstage)
  · intro s p hserved
    exact ⟨_, congrArg Host.Outcome.next (State.spdmAt_of hserved (Nat.zero_le _)), State.mget_spdmStage (s := s), rfl, rfl⟩
  · intro s p hserved hstage
    refine ⟨_, congrArg Host.Outcome.next (State.spdmAt_of hserved hstage.ge), ?_, rfl, rfl⟩
    exact (State.mget_spdmStage (s := s)).trans (by rw [hstage]; rfl)
  · intro s p hserved hstage
    exact ⟨_, congrArg Host.Outcome.next (State.spdmAt_of hserved hstage), State.mget_spdmStage (s := s), rfl, rfl⟩
  · intro s p off len hserved hstage
    refine ⟨congrArg Host.Outcome.next (State.spdmAt_of hserved hstage.ge), ⟨_, ?_, exec_getCertificate_eq hserved hstage⟩,
      ⟨_, _, _, exec_challenge_eq hserved hstage, rfl, length_leBytes _ _, rfl⟩, exec_getMeasurements_count hserved hstage, fun i hpos hle =>
      ⟨_, _, _, exec_getMeasurements_block hserved hstage hpos hle, rfl, length_leBytes _ _, rfl⟩⟩
    rw [List.length_append, List.length_append, length_leBytes, length_leBytes]
    rfl
  · intro s hmode hdynamic
    exact ⟨congrArg Host.Outcome.next (State.whenP_pos ⟨hmode, hdynamic⟩), fun a ha => congrArg Host.Outcome.next (State.whenP_pos ⟨hmode, hdynamic, ha⟩)⟩
  · intro s a x hdynamic
    have htaken : s.power.i3cDynamic ≠ none := by
      rw [hdynamic]
      exact Option.some_ne_none x
    exact ⟨congrArg Host.Outcome.next (State.whenP_neg fun h => htaken h.2), congrArg Host.Outcome.next (State.whenP_neg fun h => htaken h.2.1)⟩

end Sys2Proof.Machine

/-! What the management commands share: the splice of an answer, who is served, and how a request completes (R442 to R444). -/

namespace Sys2Proof.Machine

open Sys2Proof

/-! ### Splices -/

section Splices

variable {α : Type} {l new : List α} {off : Nat}

theorem length_splice (h : off + new.length ≤ l.length) : (splice l off new).length = l.length := by
  rw [splice, List.length_append, List.length_append, List.length_take, List.length_take, List.length_drop]
  omega

/-- Inside the list, the new entries stand whole between what stood before and behind them. -/
theorem splice_of_le (h : off + new.length ≤ l.length) : splice l off new = l.take off ++ (new ++ l.drop (off + new.length)) := by
  rw [splice, List.take_of_length_le (by omega : new.length ≤ l.length - off), List.append_assoc]

theorem drop_splice (h : off + new.length ≤ l.length) : (splice l off new).drop off = new ++ l.drop (off + new.length) := by
  have hlen : (l.take off).length = off := List.length_take_of_le (by omega)
  rw [splice_of_le h, List.drop_append_of_le_length hlen.ge, List.drop_eq_nil_of_le hlen.le, List.nil_append]

end Splices

section FieldsOfSplices

variable {l new : List Byte} {off o n : Nat}

theorem field_splice_self (hn : new.length = n) (h : off + new.length ≤ l.length) : field (splice l off new) off n = leNat new := by
  rw [← hn, field, drop_splice h, List.take_append_of_le_length le_rfl, List.take_length]

theorem field_splice_before (h : off + new.length ≤ l.length) (hn : o + n ≤ off) : field (splice l off new) o n = field l o n := by
  have hlen : (l.take off).length = off := List.length_take_of_le (by omega)
  rw [field, field, splice_of_le h, List.drop_append_of_le_length (by omega), List.take_append_of_le_length (by rw [List.length_drop]; omega),
    List.drop_take, List.take_take, Nat.min_eq_left (by omega)]

theorem field_splice_behind (h : off + new.length ≤ l.length) (hn : off + new.length ≤ o) : field (splice l off new) o n = field l o n := by
  have hsplit : o = off + (o - off) := by omega
  have hrest : o - off = new.length + (o - off - new.length) := by omega
  rw [field, field, hsplit, ← List.drop_drop, drop_splice h, hrest, ← List.drop_drop, List.drop_left, List.drop_drop]
  congr 3
  omega

end FieldsOfSplices

/-- The answer's STATUS, REASON and RESULT read back, and its NONCE is the request's. -/
theorem field_mgmtAnswer {b : List Byte} (st reason result : Nat) (hlen : b.length = 64) :
    field (mgmtAnswer b st reason result) 4 1 = st % 2 ^ 8 ∧ field (mgmtAnswer b st reason result) 6 2 = reason % 2 ^ 16 ∧
      field (mgmtAnswer b st reason result) 0x10 8 = result % 2 ^ 64 ∧ field (mgmtAnswer b st reason result) 0x18 8 = field b 0x18 8 := by
  unfold mgmtAnswer
  have hst := length_leBytes 1 st
  have hreason := length_leBytes 2 reason
  have hresult := length_leBytes 8 result
  have hstBack := leNat_leBytes 1 st
  have hreasonBack := leNat_leBytes 2 reason
  have hresultBack := leNat_leBytes 8 result
  generalize leBytes 1 st = x at *
  generalize leBytes 2 reason = y at *
  generalize leBytes 8 result = z at *
  have h1 : (splice b 0x04 x).length = 64 := (length_splice (by omega)).trans hlen
  have h2 : (splice (splice b 0x04 x) 0x06 y).length = 64 := (length_splice (by omega)).trans h1
  refine ⟨?_, ?_, ?_, ?_⟩
  · rw [field_splice_before (by omega) (by omega), field_splice_before (by omega) (by omega), field_splice_self hst (by omega), hstBack]
  · rw [field_splice_before (by omega) (by omega), field_splice_self hreason (by omega), hreasonBack]
  · rw [field_splice_self hresult (by omega), hresultBack]
  · rw [field_splice_behind (by omega) (by omega), field_splice_behind (by omega) (by omega), field_splice_behind (by omega) (by omega)]

section Requests

variable {s t : State} {q : MgmtReq} {qs : List MgmtReq} {op : Nat} {f : MgmtReq → State → State}

/-! ### Who is served (R444, R466) -/

theorem State.mgmtServe_of (hhead : s.mgmt.queue.head? = some q) (hop : q.op = op) (hready : s.power.mode = .ready) (hpresent : s.unitPresent q.kind q.unit = some true) :
    s.mgmtServe op f = f q s := by
  unfold State.mgmtServe State.mgmtHead
  rw [hhead]
  dsimp only
  rw [if_neg (not_not.2 hop), if_neg (fun h => by rw [hready] at h; exact absurd h.1 (by decide)), hpresent]

theorem State.mgmtServe_absent (hhead : s.mgmt.queue.head? = some q) (hop : q.op = op) (hready : s.power.mode = .ready) (habsent : s.unitPresent q.kind q.unit = some false) :
    s.mgmtServe op f = s.mgmtComplete 1 0 0 := by
  unfold State.mgmtServe State.mgmtHead
  rw [hhead]
  dsimp only
  rw [if_neg (not_not.2 hop), if_neg (fun h => by rw [hready] at h; exact absurd h.1 (by decide)), habsent]

theorem State.mgmtServe_unknown (hhead : s.mgmt.queue.head? = some q) (hop : q.op = op) (hready : s.power.mode = .ready) (hunknown : s.unitPresent q.kind q.unit = none) :
    s.mgmtServe op f = s.mgmtComplete 3 0x0002 0 := by
  unfold State.mgmtServe State.mgmtHead
  rw [hhead]
  dsimp only
  rw [if_neg (not_not.2 hop), if_neg (fun h => by rw [hready] at h; exact absurd h.1 (by decide)), hunknown]

theorem State.mgmtServe_safe (hhead : s.mgmt.queue.head? = some q) (hop : q.op = op) (hsafe : s.power.mode = .safe) (htsense : op ≠ 5) (hreset : op ≠ 8) :
    s.mgmtServe op f = s.mgmtComplete 5 0x00A0 0 := by
  unfold State.mgmtServe State.mgmtHead
  rw [hhead]
  exact (if_neg (not_not.2 hop)).trans (if_pos ⟨hsafe, htsense, hreset⟩)

/-! ### How a request completes (R442, R443) -/

/-- The answer to a request of a host, in the record that it names. -/
def State.mgmtAnswered (s : State) (q : MgmtReq) (st reason result : Nat) : State :=
  let r := mgmtAnswer q.bytes st reason result
  ((s.writeBytes (q.addr + 0x04) ((r.drop 0x04).take 4)).writeBytes (q.addr + 0x10) ((r.drop 0x10).take 8)).setFld 0 0 0 BTS_MGMT_STATUS.DONE 1

theorem State.mgmtComplete_i3c (st reason result : Nat) (hqueue : s.mgmt.queue = q :: qs) (hport : q.port = none) :
    s.mgmtComplete st reason result = { s with mgmt := { s.mgmt with queue := qs }, sent := s.sent ++ [.i3c (mgmtAnswer q.bytes st reason result)] } := by
  unfold State.mgmtComplete
  rw [hqueue]
  dsimp only
  rw [hport]
  rfl

theorem State.mgmtComplete_host (st reason result : Nat) (hqueue : s.mgmt.queue = q :: qs) (hport : q.port ≠ none) :
    s.mgmtComplete st reason result = (s.onMgmt fun m => { m with queue := qs }).mgmtAnswered q st reason result := by
  unfold State.mgmtComplete
  rw [hqueue]
  dsimp only
  cases hp : q.port with
  | none => exact absurd hp hport
  | some p => rfl

theorem State.mgmtAnswered_keeps {F : Part → Bool} (q : MgmtReq) (st reason result : Nat) (h : Keeps F t s) (f_mem : F .mem = true) (f_regs : F .regs = true) :
    Keeps F t (s.mgmtAnswered q st reason result) :=
  State.setFld_keeps (State.writeBytes_keeps (State.writeBytes_keeps h f_mem) f_mem) f_regs

theorem State.mgmtAnswered_done (q : MgmtReq) (st reason result : Nat) : (s.mgmtAnswered q st reason result).fld 0 0 0 BTS_MGMT_STATUS.DONE = 1 :=
  State.fld_setFld_self (Nat.le_refl _) (by decide)

/-- Completion takes the head from the queue. -/
theorem State.mgmtComplete_mgmt (st reason result : Nat) (hqueue : s.mgmt.queue = q :: qs) : (s.mgmtComplete st reason result).mgmt = { s.mgmt with queue := qs } := by
  by_cases hport : q.port = none
  · rw [State.mgmtComplete_i3c st reason result hqueue hport]
  · rw [State.mgmtComplete_host st reason result hqueue hport]
    exact (State.mgmtAnswered_keeps (F := oneOf [.mem, .regs]) q st reason result .rfl rfl rfl).frame .mgmt rfl

/-- Completion touches memory, registers, the queue and what is sent alone. -/
theorem State.mgmtComplete_touches (st reason result : Nat) : Keeps (oneOf [.mgmt, .mem, .regs, .sent]) s (s.mgmtComplete st reason result) :=
  State.mgmtComplete_keeps .rfl rfl rfl rfl rfl

end Requests

end Sys2Proof.Machine

/-! Settling O56: management requests are served in order (R442, R443, R444, R466). -/

namespace Sys2Proof.Machine

open Sys2Proof

section Arrivals

variable {s : State} {p : Nat} {v : Word} {q : MgmtReq} {qs : List MgmtReq}

/-! ### Registers of a map error -/

/-- Registers at other offsets are other registers, whatever their dies. -/
theorem regKey_ne_of_off {d d' u i u' i' : Nat} {r r' : Reg} (hoff : regOff r' u' i' ≠ regOff r u i) (h : regOff r u i < 2 ^ 28) (h' : regOff r' u' i' < 2 ^ 28) :
    regKey d' r' u' i' ≠ regKey d r u i := by
  by_cases hd : d' = d
  · rw [hd]
    exact regKey_ne hoff
  · exact regKey_ne_of_die hd h h'

/-- The registers in which a map error is noted are others than BTS_MGMT_STATUS. -/
theorem State.fld_setFld_mapErr (d v : Nat) {f g : RF} (hf : f.reg ∈ [Reg.NOC_MAPERR_INFO, .NOC_MAPERR_ADDR_LO, .NOC_MAPERR_ADDR_HI]) (hg : g.reg = .BTS_MGMT_STATUS) :
    (s.setFld d 0 0 f v).fld 0 0 0 g = s.fld 0 0 0 g := by
  refine State.fld_setFld_ne ?_
  rw [hg]
  generalize f.reg = r at hf
  simp only [List.mem_cons, List.not_mem_nil, or_false] at hf
  obtain rfl | rfl | rfl := hf
  all_goals exact regKey_ne_of_off (by decide) (by decide) (by decide)

theorem State.mapErr_fld (ag : Agent) (w : Bool) (a : Nat) {g : RF} (hg : g.reg = .BTS_MGMT_STATUS) : (s.mapErr ag w a).fld 0 0 0 g = s.fld 0 0 0 g := by
  unfold State.mapErr
  by_cases hvalid : s.fld (agentDie ag) 0 0 NOC_MAPERR_INFO.VALID = 1
  · rw [if_pos hvalid, State.fld_setFld_mapErr _ _ (by decide) hg]
  · rw [if_neg hvalid]
    dsimp only
    rw [State.fld_setFld_mapErr _ _ (by decide) hg, State.fld_setFld_mapErr _ _ (by decide) hg, State.fld_setFld_mapErr _ _ (by decide) hg,
      State.fld_setFld_mapErr _ _ (by decide) hg, State.fld_setFld_mapErr _ _ (by decide) hg, State.fld_setFld_mapErr _ _ (by decide) hg]

/-- A request that joins an empty queue stands there alone. -/
theorem State.onMgmt_queue_append (hqueue : s.mgmt.queue = []) :
    (s.onMgmt fun m => { m with queue := m.queue ++ [q] }) = { s with mgmt := { s.mgmt with queue := [q] } } := by
  change ({ s with mgmt := { s.mgmt with queue := s.mgmt.queue ++ [q] } } : State) = _
  rw [hqueue]
  rfl

/-! ### A host's GO (R442) -/

/-- The state in which a GO could not read its record. -/
def State.mgmtUnread (s : State) (p a : Nat) : State :=
  ((s.setFld 0 0 0 BTS_MGMT_STATUS.ERR_ADDR 1).setFld 0 0 0 BTS_MGMT_STATUS.DONE 1).mapErr (.host p 0) false a

theorem State.mgmtUnread_fld (p a : Nat) : (s.mgmtUnread p a).fld 0 0 0 BTS_MGMT_STATUS.ERR_ADDR = 1 ∧ (s.mgmtUnread p a).fld 0 0 0 BTS_MGMT_STATUS.DONE = 1 := by
  unfold State.mgmtUnread
  rw [State.mapErr_fld _ _ _ rfl, State.mapErr_fld _ _ _ rfl,
    State.fld_setFld_other (f := BTS_MGMT_STATUS.DONE) (g := BTS_MGMT_STATUS.ERR_ADDR) (by decide) (by decide) rfl (.inl (by decide))]
  exact ⟨State.fld_setFld_self (f := BTS_MGMT_STATUS.ERR_ADDR) (by decide) (by decide), State.fld_setFld_self (f := BTS_MGMT_STATUS.DONE) (by decide) (by decide)⟩

theorem State.mgmtUnread_frame (p a : Nat) : s.mgmtUnread p a = { s with regs := (s.mgmtUnread p a).regs } :=
  (State.mapErr_keeps (F := oneOf [.regs]) (State.setFld_keeps (State.setFld_keeps .rfl rfl) rfl) rfl).eq_graft

/-- The signature that a record names, where the port reads it. -/
def State.mgmtSig (s : State) (p a : Nat) : Option (List Byte) :=
  if s.hostReads p (field (s.seen a 64) 0x20 8) 2420 then some (s.seen (field (s.seen a 64) 0x20 8) 2420) else none

theorem exec_mgmtGo_eq (hp : p < 8) (hregs : s.fld p 0 0 HP_CFG.REGS = 2) (hgo : bit v.toNat 0 = true) (hready : s.power.mode = .ready) :
    exec (.mgmtGo p v) s = .next (s.mgmtGo p).mgmtReserved := by
  refine congrArg Host.Outcome.next (State.whenP_pos ⟨hp, hregs, hgo, ?_⟩)
  rw [hready]
  decide

theorem State.mgmtGo_busy (hqueue : s.mgmt.queue = q :: qs) (hport : q.port.isSome = true) : s.mgmtGo p = s.setFld 0 0 0 BTS_MGMT_STATUS.ERR_BUSY 1 := by
  refine if_pos ?_
  rw [hqueue, List.any_cons, hport, Bool.true_or]

theorem State.mgmtGo_unread {a : Nat} (hqueue : s.mgmt.queue = []) (ha : a = s.fld 0 0 0 BTS_MGMT_ADDR_LO.ADDR + s.fld 0 0 0 BTS_MGMT_ADDR_HI.ADDR * 2 ^ 32)
    (hread : s.hostReads p a 64 = false) : s.mgmtGo p = s.mgmtUnread p a := by
  unfold State.mgmtGo State.mgmtUnread
  rw [hqueue, List.any_nil, if_neg Bool.false_ne_true, ← ha]
  exact if_pos (by rw [hread]; rfl)

theorem State.mgmtGo_queued {a : Nat} (hqueue : s.mgmt.queue = []) (ha : a = s.fld 0 0 0 BTS_MGMT_ADDR_LO.ADDR + s.fld 0 0 0 BTS_MGMT_ADDR_HI.ADDR * 2 ^ 32)
    (hread : s.hostReads p a 64 = true) : s.mgmtGo p = { s with mgmt := { s.mgmt with queue := [⟨some p, a, s.seen a 64, s.mgmtSig p a⟩] } } := by
  unfold State.mgmtGo
  rw [hqueue, List.any_nil, if_neg Bool.false_ne_true, ← ha]
  refine (if_neg (by rw [hread]; exact Bool.false_ne_true)).trans ?_
  rw [State.onMgmt_queue_append hqueue]
  rfl

/-! ### Operations that no command serves (R444) -/

theorem State.mgmtReserved_none (hqueue : s.mgmt.queue = []) : s.mgmtReserved = s := by
  unfold State.mgmtReserved State.mgmtHead
  rw [hqueue]
  rfl

theorem State.mgmtReserved_of_op (hqueue : s.mgmt.queue = q :: qs) (hpos : 1 ≤ q.op) (hle : q.op ≤ 8) : s.mgmtReserved = s := by
  unfold State.mgmtReserved State.mgmtHead
  rw [hqueue]
  exact if_neg (by omega)

theorem State.mgmtReserved_of_reserved (hqueue : s.mgmt.queue = q :: qs) (hop : q.op = 0 ∨ 8 < q.op) : s.mgmtReserved = s.mgmtComplete 3 0x0002 0 := by
  unfold State.mgmtReserved State.mgmtHead
  rw [hqueue]
  exact if_pos hop

/-! ### Requests over I3C (R442) -/

theorem State.mgmtI3c_queue {b sig : List Byte} (hqueue : s.mgmt.queue = []) :
    s.mgmtI3c b sig = { s with mgmt := { s.mgmt with queue := [⟨none, 0, padTo 64 0 b, some sig⟩] } } := by
  unfold State.mgmtI3c
  exact State.onMgmt_queue_append hqueue

theorem exec_mctpManagement_eq {b sig : List Byte} (hmode : s.power.mode ≠ .off) (hqueue : s.mgmt.queue = []) : exec (.mctpManagement b sig) s =
    .next ({ s with mgmt := { s.mgmt with queue := [⟨none, 0, padTo 64 0 b, some sig⟩] } } : State).mgmtReserved := by
  rw [← State.mgmtI3c_queue hqueue]
  exact congrArg Host.Outcome.next (State.whenP_pos hmode)

/-! ### The command of an operation -/

theorem exec_of_op {c : Instr} {op : Nat}
    (hc : (c, op) ∈ [(Instr.mgmtStop, 1), (.mgmtStart, 2), (.set true, 3), (.selftest, 4), (.tsense, 5), (.fwCommit true, 6), (.svnCommit true, 7), (.reset true, 8)]) :
    ∃ f, ∀ s, exec c s = .next (s.mgmtServe op f) := by
  simp only [List.mem_cons, Prod.mk.injEq, List.not_mem_nil, or_false] at hc
  rcases hc with ⟨rfl, rfl⟩ | ⟨rfl, rfl⟩ | ⟨rfl, rfl⟩ | ⟨rfl, rfl⟩ | ⟨rfl, rfl⟩ | ⟨rfl, rfl⟩ | ⟨rfl, rfl⟩ | ⟨rfl, rfl⟩
  all_goals exact ⟨_, fun s => rfl⟩

end Arrivals

/-- Settles O56: requests join the queue, are answered in order, and complete in their record or over I3C. -/
theorem managementIsServedInOrder : Obligations.ManagementIsServedInOrder := by
  refine ⟨?_, ?_, ?_, ?_, ?_, fun b st reason result hlen => field_mgmtAnswer st reason result hlen, ?_, ?_⟩
  · intro s p a v hp hregs hgo hready hqueue ha
    refine ⟨fun hread hpos hle => ⟨s.mgmtSig p a, ?_⟩, fun hread => ?_⟩
    · rw [exec_mgmtGo_eq hp hregs hgo hready, State.mgmtGo_queued hqueue ha hread, State.mgmtReserved_of_op (q := ⟨some p, a, s.seen a 64, s.mgmtSig p a⟩) (qs := []) rfl hpos hle]
    · obtain ⟨haddr, hdone⟩ := State.mgmtUnread_fld (s := s) p a
      refine ⟨s.mgmtUnread p a, ?_, haddr, hdone, State.mgmtUnread_frame p a⟩
      rw [exec_mgmtGo_eq hp hregs hgo hready, State.mgmtGo_unread hqueue ha hread, State.mgmtReserved_none]
      rw [State.mgmtUnread_frame]
      exact hqueue
  · intro s p v q qs hp hregs hgo hready hqueue hport hpos hle
    rw [exec_mgmtGo_eq hp hregs hgo hready, State.mgmtGo_busy hqueue hport, State.mgmtReserved_of_op (s := s.setFld 0 0 0 BTS_MGMT_STATUS.ERR_BUSY 1) hqueue hpos hle]
  · intro s b sig hmode hqueue hpos hle
    rw [exec_mctpManagement_eq hmode hqueue, State.mgmtReserved_of_op (q := ⟨none, 0, padTo 64 0 b, some sig⟩) (qs := []) rfl hpos hle]
  · intro s b sig hmode hqueue hop
    rw [exec_mctpManagement_eq hmode hqueue, State.mgmtReserved_of_reserved (q := ⟨none, 0, padTo 64 0 b, some sig⟩) (qs := []) rfl hop,
      State.mgmtComplete_i3c (q := ⟨none, 0, padTo 64 0 b, some sig⟩) (qs := []) 3 0x0002 0 rfl rfl]
    refine congrArg Host.Outcome.next ?_
    rw [← hqueue]
  · intro s q qs st reason result hqueue
    refine ⟨fun hport => State.mgmtComplete_i3c st reason result hqueue hport, fun hport => ⟨_, rfl, State.mgmtComplete_mgmt st reason result hqueue, ?_, ?_⟩⟩
    · rw [State.mgmtComplete_host st reason result hqueue hport]
      exact State.mgmtAnswered_done q st reason result
    · rw [State.mgmtComplete_host st reason result hqueue hport]
      exact (State.mgmtAnswered_keeps (F := oneOf [.mgmt, .mem, .regs]) q st reason result (State.onMgmt_keeps .rfl rfl) rfl rfl).eq_graft
  · intro s op c q hc hhead hop hready
    obtain ⟨f, hexec⟩ := exec_of_op hc
    exact ⟨fun habsent => (hexec s).trans (congrArg Host.Outcome.next (State.mgmtServe_absent hhead hop hready habsent)),
      fun hunknown => (hexec s).trans (congrArg Host.Outcome.next (State.mgmtServe_unknown hhead hop hready hunknown))⟩
  · intro s op c q hc hhead hop hsafe
    simp only [List.mem_cons, Prod.mk.injEq, List.not_mem_nil, or_false] at hc
    have hop5 : op ≠ 5 := by omega
    have hop8 : op ≠ 8 := by omega
    obtain ⟨f, hexec⟩ := exec_of_op (c := c) (op := op) (by
      simp only [List.mem_cons, Prod.mk.injEq, List.not_mem_nil, or_false]
      tauto)
    exact (hexec s).trans (congrArg Host.Outcome.next (State.mgmtServe_safe hhead hop hsafe hop5 hop8))

end Sys2Proof.Machine

/-! Settling O58: requests that the owner signs (R21, R436, R444, R450, R454). -/

namespace Sys2Proof.Machine

open Sys2Proof

section Signed

variable {s : State} {q : MgmtReq} {sigOk : Bool} {f : State → State}

/-! ### Who may sign (R442, R444) -/

theorem State.mgmtSigned_refused (h : q.sig = none ∨ sigOk = false ∨ (s.entries 0x0009).length ≤ q.key) : s.mgmtSigned q sigOk f = s.mgmtComplete 5 0x0090 0 := by
  refine if_pos ?_
  rcases h with hsig | hbad | hkey
  · exact .inl (by rw [hsig]; rfl)
  · exact .inr (.inl (by rw [hbad]; rfl))
  · exact .inr (.inr (.inr hkey))

theorem State.mgmtSigned_good (hsig : q.sig ≠ none) (hgood : sigOk = true) (hle : q.key ≤ 3) (hkey : q.key < (s.entries 0x0009).length) :
    s.mgmtSigned q sigOk f = if q.nonce ≤ s.flash.nonce then s.mgmtComplete 5 0x0094 0 else f { s with flash := { s.flash with nonce := q.nonce } } := by
  refine if_neg ?_
  rw [hgood, Option.isNone_iff_eq_none]
  rintro (hnone | hbad | hbig | hshort)
  · exact hsig hnone
  · exact Bool.false_ne_true hbad
  · omega
  · omega

/-- The command of a signed operation that `sigOk` tells of. -/
theorem exec_of_signed_op {c : Instr} {op : Nat} (hc : (c, op) ∈ [(Instr.set sigOk, 3), (.fwCommit sigOk, 6), (.svnCommit sigOk, 7), (.reset sigOk, 8)]) :
    ∃ g : MgmtReq → State → State, ∀ s, exec c s = .next (s.mgmtServe op fun q s => s.mgmtSigned q sigOk (g q)) := by
  simp only [List.mem_cons, Prod.mk.injEq, List.not_mem_nil, or_false] at hc
  rcases hc with ⟨rfl, rfl⟩ | ⟨rfl, rfl⟩ | ⟨rfl, rfl⟩ | ⟨rfl, rfl⟩
  all_goals exact ⟨_, fun s => rfl⟩

/-- A request whose signature and nonce are accepted, at the queue's head. -/
structure State.Accepts (s : State) (q : MgmtReq) : Prop where
  head : s.mgmt.queue.head? = some q
  ready : s.power.mode = .ready
  present : s.unitPresent q.kind q.unit = some true
  sig : q.sig ≠ none
  keyLe : q.key ≤ 3
  key : q.key < (s.entries 0x0009).length
  nonce : s.flash.nonce < q.nonce

theorem State.Accepts.serve (h : s.Accepts q) {op : Nat} (hop : q.op = op) {g : MgmtReq → State → State} :
    s.mgmtServe op (fun q s => s.mgmtSigned q true (g q)) = g q { s with flash := { s.flash with nonce := q.nonce } } := by
  rw [State.mgmtServe_of h.head hop h.ready h.present, State.mgmtSigned_good h.sig rfl h.keyLe h.key, if_neg (Nat.not_le.2 h.nonce)]

end Signed

/-! ### The operations -/

section Operations

variable {s v : State} {q : MgmtReq}

/-- SET once its signature is accepted (R21, R444). -/
def State.setServed (s : State) (q : MgmtReq) : State :=
  match regAt (bits q.reg 27 0) with
  | none => s.mgmtComplete 3 0x0091 0
  | some (r, u, i) =>
    if protectedReg r then s.mgmtComplete 5 0x0093 0
    else if !s.unitStopped q.kind q.unit then s.mgmtComplete 5 0x0092 0
    else if !hasRwl r.row.fields || !unitOwns q.kind q.unit (bits q.reg 30 28) r u then s.mgmtComplete 3 0x0091 0
    else if !legalWrite r q.value then s.mgmtComplete 3 0x0002 0
    else (s.setReg (bits q.reg 30 28) r u i (BitVec.ofNat 32 (mergeWrite r.row.fields true (s.reg (bits q.reg 30 28) r u i).toNat q.value))).mgmtComplete 0 0 0

theorem State.setServed_protected {r : Reg} {u i : Nat} (hreg : regAt (bits q.reg 27 0) = some (r, u, i)) (hprotected : protectedReg r = true) :
    s.setServed q = s.mgmtComplete 5 0x0093 0 := by
  unfold State.setServed
  rw [hreg]
  exact if_pos hprotected

theorem State.setServed_running {r : Reg} {u i : Nat} (hreg : regAt (bits q.reg 27 0) = some (r, u, i)) (hfree : protectedReg r = false)
    (hruns : s.unitStopped q.kind q.unit = false) : s.setServed q = s.mgmtComplete 5 0x0092 0 := by
  unfold State.setServed
  rw [hreg]
  dsimp only
  rw [hfree, if_neg Bool.false_ne_true, hruns]
  exact if_pos rfl

theorem State.setServed_of {r : Reg} {u i : Nat} (hreg : regAt (bits q.reg 27 0) = some (r, u, i)) (hfree : protectedReg r = false)
    (hstopped : s.unitStopped q.kind q.unit = true) (hrwl : hasRwl r.row.fields = true) (howns : unitOwns q.kind q.unit (bits q.reg 30 28) r u = true)
    (hlegal : legalWrite r q.value = true) : s.setServed q = (s.setReg (bits q.reg 30 28) r u i
      (BitVec.ofNat 32 (mergeWrite r.row.fields true (s.reg (bits q.reg 30 28) r u i).toNat q.value))).mgmtComplete 0 0 0 := by
  unfold State.setServed
  rw [hreg]
  dsimp only
  rw [hfree, if_neg Bool.false_ne_true, hstopped, hrwl, howns, hlegal]
  rfl

theorem exec_set_eq (h : s.Accepts q) (hop : q.op = 3) (hv : v = { s with flash := { s.flash with nonce := q.nonce } }) :
    exec (.set true) s = .next (v.setServed q) := by
  subst hv
  exact congrArg Host.Outcome.next (h.serve hop (g := fun q s => s.setServed q))

/-- FW_COMMIT once its signature is accepted (R450). -/
theorem exec_fwCommit_none (h : s.Accepts q) (hop : q.op = 6) (hv : v = { s with flash := { s.flash with nonce := q.nonce } }) (hstaged : s.boot.staged = none) :
    exec (.fwCommit true) s = .next (v.mgmtComplete 5 0x009A 0) := by
  subst hv
  refine congrArg Host.Outcome.next ((h.serve hop).trans ?_)
  dsimp only
  rw [hstaged]

theorem exec_fwCommit_some {img : List Byte} (h : s.Accepts q) (hop : q.op = 6) (hv : v = { s with flash := { s.flash with nonce := q.nonce } })
    (hstaged : s.boot.staged = some img) (hvalue : q.value = fwSvn img) :
    exec (.fwCommit true) s = .next (({ v with flash := { v.flash with fw := img } } : State).mgmtComplete 0 0 0) := by
  subst hv
  refine congrArg Host.Outcome.next ((h.serve hop).trans ?_)
  dsimp only
  rw [hstaged]
  exact if_pos hvalue

/-- SVN_COMMIT once its signature is accepted (R436). -/
theorem exec_svnCommit_eq (h : s.Accepts q) (hop : q.op = 7) (hv : v = { s with flash := { s.flash with nonce := q.nonce } }) :
    exec (.svnCommit true) s = .next (if q.value = fwSvn s.boot.imageHeader then
      (if s.fuses.svnFloor < fwSvn s.boot.imageHeader then v.withSvn (2 ^ fwSvn s.boot.imageHeader - 1) else v).mgmtComplete 0 0 0
      else v.mgmtComplete 3 0x0002 0) := by
  subst hv
  exact congrArg Host.Outcome.next (h.serve hop)

theorem exec_reset_eq (h : s.Accepts q) (hop : q.op = 8) (hv : v = { s with flash := { s.flash with nonce := q.nonce } }) :
    exec (.reset true) s = .next ((v.mgmtComplete 0 0 0).moduleReset 2 .booting) := by
  subst hv
  exact congrArg Host.Outcome.next (h.serve hop)

end Operations

/-- Settles O58: a signed request takes effect where its signature verifies and its nonce is new. -/
theorem signedRequestsTakeEffect : Obligations.SignedRequestsTakeEffect := by
  refine ⟨fun s op sigOk c q hc hhead hop hready hpresent => ?_, fun s v q hhead hready hpresent hsig hle hkey hnonce hv => ?_⟩
  · obtain ⟨g, hexec⟩ := exec_of_signed_op hc
    refine ⟨fun hbad => ?_, fun hsig hgood hle hkey hnonce => ?_⟩
    · rw [hexec, State.mgmtServe_of hhead hop hready hpresent, State.mgmtSigned_refused hbad]
    · rw [hexec, State.mgmtServe_of hhead hop hready hpresent, State.mgmtSigned_good hsig hgood hle hkey, if_pos hnonce]
  · have haccepts : s.Accepts q := ⟨hhead, hready, hpresent, hsig, hle, hkey, hnonce⟩
    have hregs : ∀ d r u i, v.reg d r u i = s.reg d r u i := by
      rw [hv]
      exact fun _ _ _ _ => rfl
    have hstops : v.unitStopped q.kind q.unit = s.unitStopped q.kind q.unit := by
      rw [hv]
      rfl
    refine ⟨fun r u i hop hreg => ⟨fun hprotected => ?_, fun hfree hruns => ?_, fun hfree hstopped hrwl howns hlegal => ?_⟩,
      fun hop hstaged => exec_fwCommit_none haccepts hop hv hstaged, fun img hop hstaged hvalue => exec_fwCommit_some haccepts hop hv hstaged hvalue,
      fun hop hvalue hfloor hmax => ?_, fun hop hvalue => ?_, fun hop => exec_reset_eq haccepts hop hv⟩
    · rw [exec_set_eq haccepts hop hv, State.setServed_protected hreg hprotected]
    · rw [exec_set_eq haccepts hop hv, State.setServed_running hreg hfree (hstops.trans hruns)]
    · rw [exec_set_eq haccepts hop hv, State.setServed_of hreg hfree (hstops.trans hstopped) hrwl howns hlegal, hregs]
    · refine ⟨v.withSvn (2 ^ fwSvn s.boot.imageHeader - 1), ?_, rfl, ?_⟩
      · rw [exec_svnCommit_eq haccepts hop hv, if_pos hvalue, if_pos (hvalue ▸ hfloor)]
      · rw [Fuses.svnFloor_of_svnBits_ones (n := fwSvn s.boot.imageHeader) rfl, ← hvalue]
        exact Nat.min_eq_right hmax
    · rw [exec_svnCommit_eq haccepts hop hv, if_neg hvalue]

end Sys2Proof.Machine

/-! Settling O57, first part: STOP and START (R444, R445). -/

namespace Sys2Proof.Machine

open Sys2Proof

section StopAndStart

variable {s u : State} {q : MgmtReq} {qs : List MgmtReq} {k n : Nat}

/-! ### The list of stopped units -/

/-- The state with a unit listed as stopped. -/
def State.markStopped (s : State) (k n : Nat) : State :=
  if s.unitStopped k n then s else s.onMgmt fun m => { m with stopped := m.stopped ++ [⟨k, n⟩] }

theorem State.markStopped_keeps (k n : Nat) : Keeps (oneOf [.mgmt]) s (s.markStopped k n) := by
  unfold State.markStopped
  by_cases h : s.unitStopped k n = true
  · rw [if_pos h]
    exact .rfl
  · rw [if_neg h]
    exact State.onMgmt_keeps .rfl rfl

theorem State.markStopped_queue : (s.markStopped k n).mgmt.queue = s.mgmt.queue := by
  unfold State.markStopped
  by_cases h : s.unitStopped k n = true
  · rw [if_pos h]
  · rw [if_neg h]
    rfl

theorem State.markStopped_stopped : (s.markStopped k n).unitStopped k n = true := by
  unfold State.markStopped
  by_cases h : s.unitStopped k n = true
  · rw [if_pos h, h]
  · rw [if_neg h]
    exact List.contains_iff_mem.2 (List.mem_append_right _ (List.mem_singleton.2 rfl))

/-- The state with a unit off the list of stopped units. -/
def State.markStarted (s : State) (k n : Nat) : State := s.onMgmt fun m => { m with stopped := m.stopped.filter (· ≠ ⟨k, n⟩) }

theorem State.markStarted_stopped : (s.markStarted k n).unitStopped k n = false := by
  refine Bool.eq_false_iff.2 fun h => ?_
  have hmem := List.contains_iff_mem.1 h
  exact of_decide_eq_true (List.mem_filter.1 hmem).2 rfl

/-! ### What STOP and START do to the unit -/

/-- A unit brought to its stop: a port's link goes down, a stack goes to sleep. -/
def State.haltUnit (s : State) (k n : Nat) : State :=
  if k = 1 then (s.onPort n fun p => { p with heldDown := true }).hotReset n
  else if k = 2 then s.fabricDown n
  else if k = 3 then s.onStack n fun st => { st with stopped := true, sr := if st.sr = .awake then .waiting else st.sr }
  else s

/-- A unit brought back to work. -/
def State.resumeUnit (s : State) (k n : Nat) : State :=
  if k = 1 then s.onPort n fun p => { p with heldDown := false }
  else if k = 2 then s.fabricRestart n
  else if k = 3 then s.onStack n fun st => { st with stopped := false, sr := match st.sr with | .asleep => .waking | .waiting => .awake | x => x }
  else s

theorem State.haltUnit_mgmt : (s.haltUnit k n).mgmt = s.mgmt := by
  unfold State.haltUnit
  by_cases h1 : k = 1
  · rw [if_pos h1]
    exact (State.hotReset_keeps (F := oneOf [.regs, .mem, .banks, .baus, .seqs, .slots, .ports, .cores, .notices, .kv, .ldr, .fab])
      (State.onPort_keeps .rfl rfl) rfl rfl rfl rfl rfl rfl rfl rfl rfl rfl rfl rfl).frame .mgmt rfl
  · rw [if_neg h1]
    by_cases h2 : k = 2
    · rw [if_pos h2]
      exact (State.fabricDown_keeps (F := oneOf [.sent, .fab]) .rfl rfl rfl).frame .mgmt rfl
    · rw [if_neg h2]
      by_cases h3 : k = 3
      · rw [if_pos h3]
        rfl
      · rw [if_neg h3]

/-- A port that is stopped is held down, and its link is down (R397, R445). -/
theorem State.haltUnit_port (n : Nat) : ((s.haltUnit 1 n).port n).heldDown = true ∧ ((s.haltUnit 1 n).port n).proto = 0 := by
  have hself := State.port_onPort_self (s := s) n fun p => { p with heldDown := true }
  have hreset := State.port_onPort_self (s := s.onPort n fun p => { p with heldDown := true }) n HostPort.reset
  rw [hself] at hreset
  have hports : (s.haltUnit 1 n).ports = ((s.onPort n fun p => { p with heldDown := true }).onPort n HostPort.reset).ports :=
    (State.abortPortWork_keeps (F := oneOf [.regs, .mem, .banks, .baus, .seqs, .slots, .cores, .notices, .kv, .ldr, .fab])
      (State.dropHeld_keeps (State.dropDir_keeps .rfl rfl) rfl) rfl rfl rfl rfl rfl rfl rfl rfl rfl rfl rfl).frame .ports rfl
  rw [State.port_congr hports, hreset]
  exact ⟨rfl, rfl⟩

theorem State.haltUnit_fport (n : Nat) : ((s.haltUnit 2 n).fport n).phase = .down :=
  ((State.linkLost_sameLinks .down).phase n).trans (congrArg FPort.phase (State.fport_onFPort_self (s := s) (p := n) fun x => x.restarted .down))

theorem State.haltUnit_stack (n : Nat) : ((s.haltUnit 3 n).stack n).stopped = true ∧ ((s.haltUnit 3 n).stack n).sr ≠ .awake := by
  have hself := State.stack_onStack_self (s := s) n fun st => { st with stopped := true, sr := if st.sr = .awake then .waiting else st.sr }
  refine ⟨congrArg Stack.stopped hself, ?_⟩
  rw [show ((s.haltUnit 3 n).stack n).sr = _ from congrArg Stack.sr hself]
  by_cases hawake : (s.stack n).sr = .awake
  · simp [hawake]
  · simp [hawake]

theorem State.resumeUnit_stack (n : Nat) :
    ((s.resumeUnit 3 n).stack n).stopped = false ∧ ((s.resumeUnit 3 n).stack n).sr ≠ .asleep ∧ ((s.resumeUnit 3 n).stack n).sr ≠ .waiting := by
  have hself := State.stack_onStack_self (s := s) n fun st => { st with stopped := false, sr := match st.sr with | .asleep => .waking | .waiting => .awake | x => x }
  refine ⟨congrArg Stack.stopped hself, ?_⟩
  rw [show ((s.resumeUnit 3 n).stack n).sr = _ from congrArg Stack.sr hself]
  dsimp only
  cases (s.stack n).sr <;> decide

theorem State.resumeUnit_port (n : Nat) : ((s.resumeUnit 1 n).port n).heldDown = false :=
  congrArg HostPort.heldDown (State.port_onPort_self (s := s) n fun p => { p with heldDown := false })

/-! ### The completed request -/

theorem State.mgmtComplete_ports (st reason result : Nat) : (s.mgmtComplete st reason result).ports = s.ports :=
  (State.mgmtComplete_touches st reason result).frame .ports rfl

theorem State.mgmtComplete_stack (st reason result n : Nat) : (s.mgmtComplete st reason result).stack n = s.stack n :=
  congrArg (fun m => mget freshStack m n) ((State.mgmtComplete_touches (s := s) st reason result).frame .stackMap rfl)

theorem State.mgmtComplete_fport (st reason result n : Nat) : (s.mgmtComplete st reason result).fport n = s.fport n :=
  congrArg (fun x : Fabric => mget freshFPort x.ports n) ((State.mgmtComplete_touches (s := s) st reason result).frame .fab rfl)

theorem State.mgmtComplete_unitStopped (st reason result : Nat) (hqueue : s.mgmt.queue = q :: qs) :
    (s.mgmtComplete st reason result).unitStopped k n = s.unitStopped k n := by
  unfold State.unitStopped
  rw [State.mgmtComplete_mgmt st reason result hqueue]

theorem State.mgmtComplete_queue (st reason result : Nat) (hqueue : s.mgmt.queue = q :: qs) : (s.mgmtComplete st reason result).mgmt.queue = qs := by
  rw [State.mgmtComplete_mgmt st reason result hqueue]

/-! ### The commands -/

section Served

variable (hqueue : s.mgmt.queue = q :: qs) (hready : s.power.mode = .ready) (hpresent : s.unitPresent q.kind q.unit = some true)

include hqueue in
theorem State.head_of_queue : s.mgmt.queue.head? = some q := by
  rw [hqueue]
  rfl

include hqueue hready hpresent

theorem exec_mgmtStop_inUse (hop : q.op = 1) (hkind : q.kind ≠ 6) (huse : s.unitInUse q.kind q.unit = true) :
    exec .mgmtStop s = .next (s.mgmtComplete 5 0x0097 0) :=
  congrArg Host.Outcome.next ((State.mgmtServe_of (State.head_of_queue hqueue) hop hready hpresent).trans ((if_neg hkind).trans (if_pos huse)))

theorem exec_mgmtStop_eq (hop : q.op = 1) (hkind : q.kind ≠ 6) (huse : s.unitInUse q.kind q.unit = false) (hstate : ¬(q.kind = 3 ∧ (s.stack q.unit).state = 2)) :
    exec .mgmtStop s = .next (((s.markStopped q.kind q.unit).haltUnit q.kind q.unit).mgmtComplete 0 0 0) :=
  congrArg Host.Outcome.next ((State.mgmtServe_of (State.head_of_queue hqueue) hop hready hpresent).trans
    ((if_neg hkind).trans ((if_neg (by rw [huse]; exact Bool.false_ne_true)).trans (if_neg hstate))))

theorem exec_mgmtStart_eq (hop : q.op = 2) (hkind : q.kind ≠ 6) :
    exec .mgmtStart s = .next (((s.markStarted q.kind q.unit).resumeUnit q.kind q.unit).mgmtComplete 0 0 0) :=
  congrArg Host.Outcome.next ((State.mgmtServe_of (State.head_of_queue hqueue) hop hready hpresent).trans (if_neg hkind))

omit hready hpresent in
/-- Once halted, a unit is listed as stopped and its request is gone. -/
theorem State.halted_mgmt : (((s.markStopped k n).haltUnit k n).mgmtComplete 0 0 0).unitStopped k n = true ∧
    (((s.markStopped k n).haltUnit k n).mgmtComplete 0 0 0).mgmt.queue = qs := by
  have hmgmt : ((s.markStopped k n).haltUnit k n).mgmt = (s.markStopped k n).mgmt := State.haltUnit_mgmt
  have hq : ((s.markStopped k n).haltUnit k n).mgmt.queue = q :: qs := by rw [hmgmt, State.markStopped_queue, hqueue]
  refine ⟨?_, State.mgmtComplete_queue 0 0 0 hq⟩
  rw [State.mgmtComplete_unitStopped 0 0 0 hq, State.unitStopped, hmgmt]
  exact State.markStopped_stopped

omit hready hpresent in
theorem State.resumed_mgmt (hmgmt : ((s.markStarted k n).resumeUnit k n).mgmt = (s.markStarted k n).mgmt) :
    (((s.markStarted k n).resumeUnit k n).mgmtComplete 0 0 0).unitStopped k n = false ∧
    (((s.markStarted k n).resumeUnit k n).mgmtComplete 0 0 0).mgmt.queue = qs := by
  have hq : ((s.markStarted k n).resumeUnit k n).mgmt.queue = q :: qs := by
    rw [hmgmt]
    exact hqueue
  refine ⟨?_, State.mgmtComplete_queue 0 0 0 hq⟩
  rw [State.mgmtComplete_unitStopped 0 0 0 hq, State.unitStopped, hmgmt]
  exact State.markStarted_stopped

end Served

/-- Ports and stacks are in use by no task. -/
theorem State.unitInUse_other (hcluster : k ≠ 4) (hcore : k ≠ 5) : s.unitInUse k n = false := (if_neg hcluster).trans (if_neg hcore)

end StopAndStart

/-! ### STOP and START, unit by unit -/

section Units

variable {s : State} {q : MgmtReq} {qs : List MgmtReq} (hqueue : s.mgmt.queue = q :: qs) (hready : s.power.mode = .ready)
  (hpresent : s.unitPresent q.kind q.unit = some true)

include hqueue hready hpresent

theorem mgmtStop_compute (hop : q.op = 1) (hkind : q.kind = 4 ∨ q.kind = 5) (huse : s.unitInUse q.kind q.unit = false) (hruns : s.unitStopped q.kind q.unit = false) :
    exec .mgmtStop s = .next (({ s with mgmt := { s.mgmt with stopped := s.mgmt.stopped ++ [⟨q.kind, q.unit⟩] } } : State).mgmtComplete 0 0 0) := by
  have hmark : s.markStopped q.kind q.unit = { s with mgmt := { s.mgmt with stopped := s.mgmt.stopped ++ [⟨q.kind, q.unit⟩] } } :=
    if_neg (by rw [hruns]; exact Bool.false_ne_true)
  have hhalt : (s.markStopped q.kind q.unit).haltUnit q.kind q.unit = s.markStopped q.kind q.unit :=
    (if_neg (by omega)).trans ((if_neg (by omega)).trans (if_neg (by omega)))
  rw [exec_mgmtStop_eq hqueue hready hpresent hop (by omega) huse (by omega), hhalt, hmark]

theorem mgmtStop_port (hop : q.op = 1) (hkind : q.kind = 1) :
    ∃ t, exec .mgmtStop s = .next t ∧ (t.port q.unit).heldDown = true ∧ (t.port q.unit).proto = 0 ∧ t.unitStopped 1 q.unit = true ∧ t.mgmt.queue = qs := by
  have hexec := exec_mgmtStop_eq hqueue hready hpresent hop (by omega) (State.unitInUse_other (by omega) (by omega)) (by omega)
  rw [hkind] at hexec
  obtain ⟨hdown, hproto⟩ := State.haltUnit_port (s := s.markStopped 1 q.unit) q.unit
  refine ⟨_, hexec, ?_, ?_, State.halted_mgmt hqueue⟩
  · rw [State.port_congr (State.mgmtComplete_ports 0 0 0), hdown]
  · rw [State.port_congr (State.mgmtComplete_ports 0 0 0), hproto]

theorem mgmtStop_fport (hop : q.op = 1) (hkind : q.kind = 2) :
    ∃ t, exec .mgmtStop s = .next t ∧ (t.fport q.unit).phase = .down ∧ t.unitStopped 2 q.unit = true ∧ t.mgmt.queue = qs := by
  have hexec := exec_mgmtStop_eq hqueue hready hpresent hop (by omega) (State.unitInUse_other (by omega) (by omega)) (by omega)
  rw [hkind] at hexec
  refine ⟨_, hexec, ?_, State.halted_mgmt hqueue⟩
  rw [State.mgmtComplete_fport, State.haltUnit_fport]

theorem mgmtStop_stack (hop : q.op = 1) (hkind : q.kind = 3) (hstate : (s.stack q.unit).state ≠ 2) :
    ∃ t, exec .mgmtStop s = .next t ∧ (t.stack q.unit).stopped = true ∧ (t.stack q.unit).sr ≠ .awake ∧ t.unitStopped 3 q.unit = true ∧ t.mgmt.queue = qs := by
  have hexec := exec_mgmtStop_eq hqueue hready hpresent hop (by omega) (State.unitInUse_other (by omega) (by omega)) (fun h => hstate h.2)
  rw [hkind] at hexec
  obtain ⟨hstopped, hsr⟩ := State.haltUnit_stack (s := s.markStopped 3 q.unit) q.unit
  refine ⟨_, hexec, ?_, ?_, State.halted_mgmt hqueue⟩
  · rw [State.mgmtComplete_stack, hstopped]
  · rw [State.mgmtComplete_stack]
    exact hsr

theorem mgmtStart_compute (hop : q.op = 2) (hkind : q.kind = 4 ∨ q.kind = 5) :
    exec .mgmtStart s = .next (({ s with mgmt := { s.mgmt with stopped := s.mgmt.stopped.filter (· ≠ ⟨q.kind, q.unit⟩) } } : State).mgmtComplete 0 0 0) := by
  have hresume : (s.markStarted q.kind q.unit).resumeUnit q.kind q.unit = s.markStarted q.kind q.unit :=
    (if_neg (by omega)).trans ((if_neg (by omega)).trans (if_neg (by omega)))
  rw [exec_mgmtStart_eq hqueue hready hpresent hop (by omega), hresume]
  rfl

theorem mgmtStart_port (hop : q.op = 2) (hkind : q.kind = 1) :
    ∃ t, exec .mgmtStart s = .next t ∧ (t.port q.unit).heldDown = false ∧ t.unitStopped 1 q.unit = false ∧ t.mgmt.queue = qs := by
  have hexec := exec_mgmtStart_eq hqueue hready hpresent hop (by omega)
  rw [hkind] at hexec
  refine ⟨_, hexec, ?_, State.resumed_mgmt hqueue rfl⟩
  rw [State.port_congr (State.mgmtComplete_ports 0 0 0), State.resumeUnit_port]

theorem mgmtStart_stack (hop : q.op = 2) (hkind : q.kind = 3) :
    ∃ t, exec .mgmtStart s = .next t ∧ (t.stack q.unit).stopped = false ∧ (t.stack q.unit).sr ≠ .asleep ∧ (t.stack q.unit).sr ≠ .waiting ∧ t.unitStopped 3 q.unit = false ∧
      t.mgmt.queue = qs := by
  have hexec := exec_mgmtStart_eq hqueue hready hpresent hop (by omega)
  rw [hkind] at hexec
  obtain ⟨hstopped, hasleep, hwaiting⟩ := State.resumeUnit_stack (s := s.markStarted 3 q.unit) q.unit
  refine ⟨_, hexec, ?_, ?_, ?_, State.resumed_mgmt hqueue rfl⟩
  · rw [State.mgmtComplete_stack, hstopped]
  · rw [State.mgmtComplete_stack]
    exact hasleep
  · rw [State.mgmtComplete_stack]
    exact hwaiting

end Units

end Sys2Proof.Machine

/-! Settling O57, second part: SELFTEST and TSENSE (R446, R447). -/

namespace Sys2Proof.Machine

open Sys2Proof

section Tests

variable {s : State} {q : MgmtReq} {qs : List MgmtReq}

/-! ### SELFTEST begins (R447) -/

/-- SELFTEST of a unit in service while no test of management runs. -/
def State.startTest (s : State) (q : MgmtReq) : State :=
  if q.kind = 2 then (s.portSelftest q.unit).fresh.2.mgmtComplete 0 0 ((s.portSelftest q.unit).fresh.1 % 256)
  else if q.kind = 5 then
    s.onMgmt fun m => { m with tests := m.tests ++ [⟨⟨5, q.unit⟩, false, true, s.coreIdle (q.unit / 64) (q.unit % 64)⟩] }
  else if q.kind = 3 then
    (if bit q.reg 0 then
      (if (s.stack q.unit).stopped then s.onMgmt fun m => { m with tests := m.tests ++ [⟨⟨3, q.unit⟩, true, true, true⟩] }
       else s.mgmtComplete 2 0x0096 0)
     else s.onMgmt fun m => { m with tests := m.tests ++ [⟨⟨3, q.unit⟩, false, true, true⟩] })
  else s.mgmtComplete 3 0x0002 0

theorem exec_selftest_eq (hqueue : s.mgmt.queue = q :: qs) (hop : q.op = 4) (hready : s.power.mode = .ready) (hpresent : s.unitPresent q.kind q.unit = some true)
    (hnone : ∀ x ∈ s.mgmt.tests, x.byMgmt = false) : exec .selftest s = .next (s.startTest q) := by
  refine congrArg Host.Outcome.next ((State.mgmtServe_of (State.head_of_queue hqueue) hop hready hpresent).trans (if_neg ?_))
  rw [List.any_eq_true]
  rintro ⟨x, hx, hby⟩
  exact Bool.false_ne_true ((hnone x hx).symm.trans hby)

theorem State.startTest_core (hkind : q.kind = 5) : s.startTest q =
    { s with mgmt := { s.mgmt with tests := s.mgmt.tests ++ [⟨⟨5, q.unit⟩, false, true, s.coreIdle (q.unit / 64) (q.unit % 64)⟩] } } :=
  (if_neg (by omega)).trans (if_pos hkind)

theorem State.startTest_memory (hkind : q.kind = 3) (hmemory : bit q.reg 0 = true) : s.startTest q =
    if (s.stack q.unit).stopped then { s with mgmt := { s.mgmt with tests := s.mgmt.tests ++ [⟨⟨3, q.unit⟩, true, true, true⟩] } } else s.mgmtComplete 2 0x0096 0 :=
  (if_neg (by omega)).trans ((if_neg (by omega)).trans ((if_pos hkind).trans (if_pos hmemory)))

theorem State.startTest_module (hkind : q.kind = 6) : s.startTest q = s.mgmtComplete 3 0x0002 0 :=
  (if_neg (by omega)).trans ((if_neg (by omega)).trans (if_neg (by omega)))

theorem State.startTest_fport (hqueue : s.mgmt.queue = q :: qs) (hkind : q.kind = 2) : (s.startTest q).mgmt.queue = qs := by
  have hmgmt : (s.portSelftest q.unit).mgmt = s.mgmt :=
    (State.portSelftest_keeps (F := oneOf [.free, .sent, .regs, .fab]) .rfl rfl rfl rfl rfl).frame .mgmt rfl
  have hq : (s.portSelftest q.unit).fresh.2.mgmt.queue = q :: qs := (congrArg Mgmt.queue hmgmt).trans hqueue
  rw [show s.startTest q = _ from if_pos hkind]
  exact State.mgmtComplete_queue 0 0 _ hq

/-! ### Tests end (R447) -/

theorem exec_selftestIdleWaitExpiry_busy {d c : Nat} {x : SelfTest}
    (hfind : (s.mgmt.tests.find? fun y => y.unit = ⟨5, d * 64 + c⟩ && y.byMgmt && !y.started) = some x) (hidle : s.coreIdle d c = false) :
    exec (.selftestIdleWaitExpiry d c) s = .next (({ s with mgmt := { s.mgmt with tests := s.mgmt.tests.filter (· ≠ x) } } : State).mgmtComplete 5 0x0095 0) := by
  change execSelftestIdleWaitExpiry d c s = _
  unfold execSelftestIdleWaitExpiry
  rw [hfind]
  refine congrArg Host.Outcome.next (if_neg ?_)
  rw [show (s.onMgmt fun m => { m with tests := m.tests.filter (· ≠ x) }).coreIdle d c = s.coreIdle d c from rfl, hidle]
  exact Bool.false_ne_true

/-- The dies that the destructive test found bad, retired one after another. -/
def State.retireDies (s : State) (stk : Nat) (dies : List Nat) : State :=
  dies.foldl (fun s d => if d < 16 then s.retireDie stk d else if d = 16 then s.parityDieFails stk else s) s

theorem State.retireDies_keeps (stk : Nat) (dies : List Nat) : Keeps (oneOf [.flash, .fcu, .regs, .stackMap]) s (s.retireDies stk dies) := by
  unfold State.retireDies
  induction dies generalizing s with
  | nil => exact .rfl
  | cons d dies ih =>
    refine Keeps.trans ?_ ih
    dsimp only
    by_cases h16 : d < 16
    · rw [if_pos h16]
      exact State.retireDie_keeps .rfl rfl rfl rfl rfl
    · rw [if_neg h16]
      by_cases hp : d = 16
      · rw [if_pos hp]
        exact State.parityDieFails_keeps .rfl rfl rfl rfl rfl
      · rw [if_neg hp]
        exact .rfl

/-- The state with a stack's memory cleared. -/
def State.clearStack (s : State) (stk : Nat) : State :=
  s.onMem fun m => { m with
    cells := m.cells.filter fun c => !(placedBase ≤ c.1 && c.1 < 0x140000000000 && placedStack c.1 = stk)
    poison := m.poison.filter fun l => placedStack (l * 64) ≠ stk }

theorem State.clearStack_byteAt {stk a : Nat} (hwf : s.mem.wf = true) (hbase : placedBase ≤ a) (htop : a < 0x140000000000) (hstack : placedStack a = stk) :
    (s.clearStack stk).byteAt (.mem a) = blankByte := by
  have hcells := mget_filter_key (State.cells_wf hwf) (fun c => !(placedBase ≤ c && c < 0x140000000000 && placedStack c = stk)) a
  refine hcells.trans (if_neg ?_)
  simp [hbase, htop, hstack]

theorem exec_memorySelftestDone_eq {k : Nat} {dies : List Nat} {x : SelfTest} (hfind : (s.mgmt.tests.find? fun y => y.unit = ⟨3, k⟩ && y.memory) = some x) :
    exec (.memorySelftestDone k dies) s = .next (((({ s with mgmt := { s.mgmt with tests := s.mgmt.tests.filter (· ≠ x) } } : State).retireDies k dies).clearStack k).mgmtComplete
      0 0 (ofBitSet (dies.filter (· < 17)))) := by
  change execMemorySelftestDone k dies s = _
  unfold execMemorySelftestDone
  rw [hfind]
  rfl

/-- The destructive test leaves the stack blank and answers with the dies that failed. -/
theorem memorySelftestDone_clears {k : Nat} {dies : List Nat} {x : SelfTest} (hwf : s.mem.wf = true)
    (hfind : (s.mgmt.tests.find? fun y => y.unit = ⟨3, k⟩ && y.memory) = some x) (hqueue : s.mgmt.queue = q :: qs) (hport : q.port = none) :
    ∃ t, exec (.memorySelftestDone k dies) s = .next t ∧ t.mgmt = { s.mgmt with tests := s.mgmt.tests.filter (· ≠ x), queue := qs } ∧
      Sent.i3c (mgmtAnswer q.bytes 0 0 (ofBitSet (dies.filter (· < 17)))) ∈ t.sent ∧
      ∀ a, placedBase ≤ a → a < 0x140000000000 → placedStack a = k → t.byteAt (.mem a) = blankByte := by
  have hexec := exec_memorySelftestDone_eq (dies := dies) hfind
  have hkeeps := State.retireDies_keeps (s := { s with mgmt := { s.mgmt with tests := s.mgmt.tests.filter (· ≠ x) } }) k dies
  generalize ({ s with mgmt := { s.mgmt with tests := s.mgmt.tests.filter (· ≠ x) } } : State).retireDies k dies = u at *
  have hmgmt : (u.clearStack k).mgmt = { s.mgmt with tests := s.mgmt.tests.filter (· ≠ x) } := hkeeps.frame .mgmt rfl
  have hmem : u.mem = s.mem := hkeeps.frame .mem rfl
  have hq : (u.clearStack k).mgmt.queue = q :: qs := by
    rw [hmgmt]
    exact hqueue
  rw [State.mgmtComplete_i3c 0 0 _ hq hport] at hexec
  refine ⟨_, hexec, ?_, List.mem_append_right _ (List.mem_singleton.2 rfl), fun a hbase htop hstack => ?_⟩
  · rw [hmgmt]
  · exact State.clearStack_byteAt (s := u) (by rw [hmem]; exact hwf) hbase htop hstack

/-! ### TSENSE (R446) -/

theorem State.mgmtServe_tsense {f : MgmtReq → State → State} (hhead : s.mgmt.queue.head? = some q) (hop : q.op = 5) (hpresent : s.unitPresent q.kind q.unit = some true) :
    s.mgmtServe 5 f = f q s := by
  unfold State.mgmtServe State.mgmtHead
  rw [hhead]
  dsimp only
  rw [if_neg (not_not.2 hop), if_neg (fun h => h.2.1 rfl), hpresent]

theorem State.mem_demand (d i : Nat) (who : DemandBy) : (⟨d, i, who⟩ : Demand) ∈ (s.demand d [i] who).power.demands := by
  change _ ∈ s.power.demands ++ [_].filter fun x => !s.power.demands.contains x
  by_cases h : (⟨d, i, who⟩ : Demand) ∈ s.power.demands
  · exact List.mem_append_left _ h
  · refine List.mem_append_right _ (List.mem_filter.2 ⟨List.mem_singleton.2 rfl, ?_⟩)
    rw [Bool.not_eq_true', Bool.eq_false_iff]
    exact fun hmem => h (List.contains_iff_mem.1 hmem)

theorem exec_tsense_eq (hhead : s.mgmt.queue.head? = some q) (hop : q.op = 5) (hpresent : s.unitPresent q.kind q.unit = some true) (hrails : s.power.rails = true) :
    exec .tsense s = .next (s.demand (s.hottest q.kind q.unit).1 [(s.hottest q.kind q.unit).2] .mgmt) :=
  congrArg Host.Outcome.next ((State.mgmtServe_tsense hhead hop hpresent).trans (if_pos hrails))

end Tests

/-- Settles O57: units stop, start and are tested as their kinds decide. -/
theorem unitsAreStoppedStartedAndTested : Obligations.UnitsAreStoppedStartedAndTested := by
  refine ⟨?_, ?_, ?_, fun s d c x hfind hidle => exec_selftestIdleWaitExpiry_busy hfind hidle, fun s k dies x q qs hwf hfind hqueue hport =>
    memorySelftestDone_clears hwf hfind hqueue hport, fun s q hhead hop hpresent hrails =>
    ⟨_, exec_tsense_eq hhead hop hpresent hrails, State.mem_demand .., rfl⟩⟩
  · exact fun s q qs hqueue hop hready hpresent hkind => ⟨fun huse => exec_mgmtStop_inUse hqueue hready hpresent hop hkind huse,
      fun hcompute huse hruns => mgmtStop_compute hqueue hready hpresent hop hcompute huse hruns, fun hport => mgmtStop_port hqueue hready hpresent hop hport,
      fun hfport => mgmtStop_fport hqueue hready hpresent hop hfport, fun hstack hstate => mgmtStop_stack hqueue hready hpresent hop hstack hstate⟩
  · exact fun s q qs hqueue hop hready hpresent => ⟨fun hcompute => mgmtStart_compute hqueue hready hpresent hop hcompute,
      fun hport => mgmtStart_port hqueue hready hpresent hop hport, fun hstack => mgmtStart_stack hqueue hready hpresent hop hstack⟩
  · intro s q qs hqueue hop hready hpresent hnone
    have hexec := exec_selftest_eq hqueue hop hready hpresent hnone
    refine ⟨fun hkind => ?_, fun hkind hmemory hruns => ?_, fun hkind hmemory hstopped => ?_, fun hkind => ⟨_, hexec, State.startTest_fport hqueue hkind⟩, fun hkind => ?_⟩
    · rw [hexec, State.startTest_core hkind]
    · rw [hexec, State.startTest_memory hkind hmemory, hruns, if_neg Bool.false_ne_true]
    · rw [hexec, State.startTest_memory hkind hmemory, if_pos hstopped]
    · rw [hexec, State.startTest_module hkind]

end Sys2Proof.Machine

/-! Settling O59: writes of registers (R19 to R22, R385). -/

namespace Sys2Proof.Machine

open Sys2Proof

/-! ### The bits of a write -/

section Fields

variable {fs : List RegField} {f : RegField} {k : Nat}

/-- A mask holds the bits of the fields whose access is listed. -/
theorem testBit_fieldMask (accs : List Access) (fs : List RegField) (k : Nat) :
    (fieldMask accs fs).testBit k = fs.any fun f => accs.contains f.acc && decide (f.lo ≤ k ∧ k ≤ f.hi) := by
  induction fs with
  | nil => exact Nat.zero_testBit k
  | cons f fs ih =>
    rw [fieldMask, Nat.testBit_or, ih, List.any_cons]
    congr 1
    by_cases hacc : f.acc ∈ accs
    · have hrange : f.lo ≤ k ∧ k - f.lo < f.hi + 1 - f.lo ↔ f.lo ≤ k ∧ k ≤ f.hi := by omega
      rw [List.contains_iff_mem.2 hacc, if_pos rfl, Bool.true_and, Nat.testBit_mul_two_pow, Nat.testBit_two_pow_sub_one, ← Bool.decide_and]
      exact decide_eq_decide.2 hrange
    · have hnot : accs.contains f.acc = false := Bool.eq_false_iff.2 fun h => hacc (List.contains_iff_mem.1 h)
      rw [hnot, if_neg Bool.false_ne_true, Bool.false_and, Nat.zero_testBit]

/-- Whether no two fields of a register share a bit. -/
def fieldsApart (fs : List RegField) : Bool := fs.all fun f => fs.all fun g => decide (f = g ∨ f.hi < g.lo ∨ g.hi < f.lo)

theorem reg_fieldsApart (r : Reg) : fieldsApart r.row.fields = true := by
  cases r <;> rfl

/-- In a field's own bits a mask says whether the field's access is listed. -/
theorem testBit_fieldMask_of_mem (hapart : fieldsApart fs = true) (hf : f ∈ fs) (hlo : f.lo ≤ k) (hhi : k ≤ f.hi) (accs : List Access) :
    (fieldMask accs fs).testBit k = accs.contains f.acc := by
  rw [testBit_fieldMask, Bool.eq_iff_iff, List.any_eq_true]
  constructor
  · rintro ⟨g, hg, hmask⟩
    rw [Bool.and_eq_true, decide_eq_true_eq] at hmask
    obtain ⟨hacc, hglo, hghi⟩ := hmask
    have hfg := of_decide_eq_true (List.all_eq_true.1 (List.all_eq_true.1 hapart f hf) g hg)
    have heq : f = g := by
      rcases hfg with heq | hbelow | habove
      · exact heq
      · omega
      · omega
    rw [heq]
    exact hacc
  · intro hacc
    exact ⟨f, hf, by rw [hacc, Bool.true_and]; exact decide_eq_true ⟨hlo, hhi⟩⟩

/-- A bit of a register after a write: taken from the value where its field takes it, and lost where its field loses it. -/
theorem testBit_mergeWrite (rwl : Bool) (old v : Nat) : (mergeWrite fs rwl old v).testBit k =
    ((if (fieldMask (if rwl then [.rw, .rwl] else [.rw]) fs).testBit k then v.testBit k else old.testBit k) &&
      !(v.testBit k && (fieldMask [.rw1c] fs).testBit k)) := by
  unfold mergeWrite
  simp only [Nat.testBit_xor, Nat.testBit_or, Nat.testBit_and]
  generalize (fieldMask (if rwl then [.rw, .rwl] else [.rw]) fs).testBit k = take
  generalize (fieldMask [.rw1c] fs).testBit k = clear
  cases take <;> cases clear <;> cases old.testBit k <;> cases v.testBit k <;> rfl

theorem testBit_mergeWrite_of_mem (hapart : fieldsApart fs = true) (hf : f ∈ fs) (hlo : f.lo ≤ k) (hhi : k ≤ f.hi) (rwl : Bool) (old v : Nat) :
    (mergeWrite fs rwl old v).testBit k = (match f.acc with
      | .ro => old.testBit k
      | .rw => v.testBit k
      | .rw1c => old.testBit k && !v.testBit k
      | .wo => old.testBit k
      | .rwl => if rwl then v.testBit k else old.testBit k) := by
  rw [testBit_mergeWrite, testBit_fieldMask_of_mem hapart hf hlo hhi, testBit_fieldMask_of_mem hapart hf hlo hhi]
  cases f.acc with
  | rw1c => cases rwl <;> simp
  | _ => cases rwl <;> simp

end Fields

section Writes

variable {s : State} {d u i v : Nat} {r q : Reg} {port : Option Nat}

/-- A bit outside every field that reads as stored reads 0 (R19). -/
theorem State.regValue_testBit {k : Nat} (hout : ∀ f ∈ r.row.fields, f.acc ≠ .wo → k < f.lo ∨ f.hi < k) : (s.regValue d r u i).testBit k = false := by
  have hmask : (fieldMask [.ro, .rw, .rw1c, .rwl] r.row.fields).testBit k = false := by
    rw [testBit_fieldMask, List.any_eq_false]
    intro f hf hbit
    rw [Bool.and_eq_true, decide_eq_true_eq] at hbit
    obtain ⟨hacc, hlo, hhi⟩ := hbit
    have hwo : f.acc ≠ .wo := by
      intro hwo
      rw [hwo] at hacc
      exact absurd hacc (by decide)
    rcases hout f hf hwo with hbelow | habove
    · omega
    · omega
  unfold State.regValue
  by_cases hd0 : (r.row.d0 && decide (d ≠ 0)) = true
  · rw [if_pos hd0, Nat.zero_testBit]
  · rw [if_neg hd0]
    dsimp only
    rw [Nat.testBit_and, hmask, Bool.and_false]

/-! ### A word of a register that acts by its access types alone -/

/-- The register's word merged as its access types say. -/
def State.merged (s : State) (d : Nat) (r : Reg) (u i v : Nat) : State :=
  s.setReg d r u i (BitVec.ofNat 32 (mergeWrite r.row.fields (!s.boot.locked) (s.reg d r u i).toNat v))

theorem State.regWrite_plain (hready : s.power.mode = .ready) (hd0 : r.row.d0 = true → d = 0) (hblock : s.absentBlock d r u = false)
    (hde1 : s.absentDe1 d r u i = false) (hr : r ∉ [Reg.PTM_TSENSE_REQ, .FCU_PIN_HOLD, .PTM_STATE_CTL, .BTS_MGMT_CTL, .BTS_MGMT_ADDR_LO]) :
    s.regWrite port d r u i v = if legalWrite r v then if bit v 31 then (s.merged d r u i v).clearRecord d r u i else s.merged d r u i v else s := by
  have hacts : ¬(r.row.d0 && decide (d ≠ 0)) = true := by
    rw [Bool.and_eq_true, decide_eq_true_eq]
    exact fun h => h.2 (hd0 h.1)
  have hsafe : ¬(s.power.mode = .safe ∧ r ≠ .FCU_PIN_HOLD) := by
    rw [hready]
    exact fun h => absurd h.1 (by decide)
  have hpresent : ¬(s.absentBlock d r u || s.absentDe1 d r u i) = true := by
    rw [hblock, hde1]
    exact Bool.false_ne_true
  unfold State.regWrite
  rw [if_neg hacts, if_neg hsafe, if_neg hpresent]
  split
  · exact absurd (by decide) hr
  · exact absurd (by decide) hr
  · exact absurd (by decide) hr
  · exact absurd (by decide) hr
  · exact absurd (by decide) hr
  · rfl

theorem State.clearRecord_of_nil (hnil : recordRegs r = []) : s.clearRecord d r u i = s := by
  have hr : r ≠ .NOC_MAPERR_INFO := by
    rintro rfl
    cases hnil
  unfold State.clearRecord
  rw [hnil, if_neg hr]
  rfl

/-- Registers set to 0 one after another read 0. -/
theorem State.foldl_clear_reg {qs : List Reg} (hq : q ∈ qs ∨ s.reg d q u i = 0) : (qs.foldl (fun s q => s.setReg d q u i 0) s).reg d q u i = 0 := by
  induction qs generalizing s with
  | nil => exact hq.resolve_left List.not_mem_nil
  | cons p ps ih =>
    refine ih ?_
    by_cases hkey : regKey d q u i = regKey d p u i
    · right
      unfold State.reg State.setReg
      dsimp only
      rw [hkey, mget_mput_self]
    · rw [State.reg_setReg_ne hkey]
      refine hq.imp_left fun hmem => ?_
      refine (List.mem_cons.1 hmem).resolve_left ?_
      rintro rfl
      exact hkey rfl

theorem State.clearRecord_reg (hq : q ∈ recordRegs r) : (s.clearRecord d r u i).reg d q u i = 0 := State.foldl_clear_reg (.inl hq)

theorem State.clearRecord_frame : s.clearRecord d r u i = { s with regs := (s.clearRecord d r u i).regs } :=
  (State.clearRecord_keeps (F := oneOf [.regs]) .rfl rfl).eq_graft

end Writes

section Commands

variable {s : State} {ag : Agent} {d off u i : Nat} {r : Reg} {v : Word}

/-! ### A word of register space -/

/-- The host port that an agent's accesses come through. -/
def agentPort : Agent → Option Nat
  | .host p _ => some p
  | _ => none

theorem opLen_word : opLen (.write (leBytes 4 v.toNat) false) = 4 := length_leBytes 4 v.toNat

/-- The write of a word at a register's offset by an agent whose access reaches register space. -/
theorem State.accessReg_named {tgt : Target} (hreg : regAt off = some (r, u, i)) (halign : off % 4 = 0) :
    s.accessReg ⟨ag, tgt, .write (leBytes 4 v.toNat) false⟩ d off = (s.regWrite (agentPort ag) d r u i v.toNat).answer ⟨ag, tgt, .write (leBytes 4 v.toNat) false⟩ .done := by
  have hval : leNat (leBytes 4 v.toNat) = v.toNat := (leNat_leBytes 4 v.toNat).trans (Nat.mod_eq_of_lt v.isLt)
  unfold State.accessReg
  rw [if_neg (fun h => h.elim (fun h => h halign) fun h => h opLen_word), hreg]
  dsimp only
  rw [hval]
  cases ag <;> rfl

theorem State.accessReg_unnamed {tgt : Target} (hnone : regAt off = none) (halign : off % 4 = 0) :
    s.accessReg ⟨ag, tgt, .write (leBytes 4 v.toNat) false⟩ d off =
      s.unmapped ⟨ag, tgt, .write (leBytes 4 v.toNat) false⟩ false true (0x3F0000000000 + d * 2 ^ 28 + off) := by
  unfold State.accessReg
  rw [if_neg (fun h => h.elim (fun h => h halign) fun h => h opLen_word), hnone]

theorem regAt_aligned (h : regAt off = some (r, u, i)) : off % 4 = 0 := by
  by_contra hoff
  exact Option.some_ne_none _ (h.symm.trans (if_neg hoff))

theorem resolve_register (hd : d < 8) (hoff : off < 2 ^ 28) : s.resolve (0x3F0000000000 + d * 2 ^ 28 + off) = .reg d off := by
  have hdie : (0x3F0000000000 + d * 2 ^ 28 + off - 0x3F0000000000) / 2 ^ 28 = d := by omega
  have hoffset : (0x3F0000000000 + d * 2 ^ 28 + off) % 2 ^ 28 = off := by omega
  unfold State.resolve
  rw [if_neg (by omega), if_neg (by omega), if_neg (by omega), if_neg (by omega), if_neg (by omega), if_neg (by omega), if_neg (by omega), if_neg (by omega),
    if_pos (by omega), hdie, hoffset]

theorem exec_registerWrite_internal (hready : s.power.mode = .ready) (hag : agentInternal ag = true) (hd : d < 8) (hoff : off < 2 ^ 28) :
    exec (.registerWrite ag (0x3F0000000000 + d * 2 ^ 28 + off) v) s =
      .next (s.accessReg ⟨ag, .phys (0x3F0000000000 + d * 2 ^ 28 + off), .write (leBytes 4 v.toNat) false⟩ d off) := by
  have haccess := State.access_phys_of_internal (s := s) (0x3F0000000000 + d * 2 ^ 28 + off) (.write (leBytes 4 v.toNat) false)
    (by rw [hready]; decide) (by rw [hready]; decide) hag
  rw [if_neg (by rw [hready]; decide), State.accessPhys_reg hag (resolve_register hd hoff)] at haccess
  refine congrArg Host.Outcome.next ((State.whenP_pos (by omega)).trans (Eq.trans ?_ haccess))
  cases ag with
  | host => cases hag
  | _ => rfl

theorem exec_registerWrite_host {p rid o : Nat} (hready : s.power.mode = .ready) (hheld : ∀ h ∈ s.mem.held, ∀ n, h.ag ≠ .host p n) (ho : o < 0x80000000) :
    exec (.registerWrite (.host p rid) (0x3F0000000000 + o) v) s =
      .next (s.accessBarReg ⟨.host p rid, .bar 0 (0x80000000 + o), .write (leBytes 4 v.toNat) false⟩ p o) := by
  have haccess := State.access_barReg_of_host (s := s) rid o (.write (leBytes 4 v.toNat) false) (by rw [hready]; decide) (by rw [hready]; decide) hheld
  refine congrArg Host.Outcome.next ((State.whenP_pos (by omega)).trans (Eq.trans ?_ haccess))
  dsimp only
  rw [Nat.add_sub_cancel_left]

/-- Who writes a register: an agent of the module, or a host whose port has HP_CFG.REGS 2 and no access that waits. -/
def State.writesRegs (s : State) (ag : Agent) : Prop :=
  agentInternal ag = true ∨ ∃ p rid, ag = .host p rid ∧ s.fld p 0 0 HP_CFG.REGS = 2 ∧ ∀ h ∈ s.mem.held, ∀ n, h.ag ≠ .host p n

/-- A word written at a register's address is the register's write, answered. -/
theorem exec_registerWrite_eq (hready : s.power.mode = .ready) (hd : d < 8) (hoff : off < 2 ^ 28) (hreg : regAt off = some (r, u, i)) (hag : s.writesRegs ag) :
    ∃ port x, x.ag = ag ∧ (agentInternal x.ag = true ∨ ∃ p rid, x.ag = .host p rid) ∧
      exec (.registerWrite ag (0x3F0000000000 + d * 2 ^ 28 + off) v) s = .next ((s.regWrite port d r u i v.toNat).answer x .done) := by
  have halign := regAt_aligned hreg
  rcases hag with hinternal | ⟨p, rid, rfl, hregs, hheld⟩
  · refine ⟨agentPort ag, ⟨ag, .phys (0x3F0000000000 + d * 2 ^ 28 + off), .write (leBytes 4 v.toNat) false⟩, rfl, .inl hinternal, ?_⟩
    rw [exec_registerWrite_internal hready hinternal hd hoff, State.accessReg_named hreg halign]
  · refine ⟨some p, ⟨.host p rid, .bar 0 (0x80000000 + (d * 2 ^ 28 + off)), .write (leBytes 4 v.toNat) false⟩, rfl, .inr ⟨p, rid, rfl⟩, ?_⟩
    have hdie : (d * 2 ^ 28 + off) / 2 ^ 28 = d := by omega
    have hoffset : (d * 2 ^ 28 + off) % 2 ^ 28 = off := by omega
    rw [Nat.add_assoc, exec_registerWrite_host hready hheld (by omega)]
    unfold State.accessBarReg
    rw [hregs, if_neg (by omega), if_neg (fun h => absurd h.1 (by decide)), hdie, hoffset, State.accessReg_named hreg halign]
    rfl

theorem State.answer_done {x : HeldAccess} (h : agentInternal x.ag = true ∨ ∃ p rid, x.ag = .host p rid) (y : Reply) :
    s.answer x y = { s with sent := s.sent ++ [.reply x.ag y] } := by
  rcases h with hinternal | ⟨p, rid, hhost⟩
  · exact State.answer_of_internal hinternal y
  · rw [State.answer_of_host hhost, hhost]

theorem exec_registerWrite_readOnly {p rid o : Nat} (hready : s.power.mode = .ready) (ho : o < 0x80000000) (hregs : s.fld p 0 0 HP_CFG.REGS = 1)
    (hheld : ∀ h ∈ s.mem.held, ∀ n, h.ag ≠ .host p n) :
    exec (.registerWrite (.host p rid) (0x3F0000000000 + o) v) s = .next { s with sent := s.sent ++ [.reply (.host p rid) .unsupported] } := by
  rw [exec_registerWrite_host hready hheld ho]
  unfold State.accessBarReg
  rw [hregs, if_neg (by omega), if_pos ⟨rfl, rfl⟩, State.answer_of_host rfl]

theorem exec_registerWrite_unnamed (hready : s.power.mode = .ready) (hag : agentInternal ag = true) (hd : d < 8) (hoff : off < 2 ^ 28) (halign : off % 4 = 0)
    (hnone : regAt off = none) : ∃ t, exec (.registerWrite ag (0x3F0000000000 + d * 2 ^ 28 + off) v) s = .next t ∧ t.sent = s.sent ++ [.reply ag .busError] ∧
      t = { s with regs := t.regs, sent := t.sent } := by
  have hreply : unmappedReply ag false true 4 = .busError := by
    cases ag with
    | host => cases hag
    | peer => cases hag
    | _ => rfl
  have hmap := (State.mapErr_keeps (F := oneOf [.regs]) (s := s) (ag := ag) (write := true) (a := 0x3F0000000000 + d * 2 ^ 28 + off) .rfl rfl).eq_graft
  have hexec := exec_registerWrite_internal (v := v) hready hag hd hoff
  rw [State.accessReg_unnamed hnone halign] at hexec
  unfold State.unmapped at hexec
  rw [State.answer_of_internal hag] at hexec
  refine ⟨_, hexec, ?_, ?_⟩
  · change (s.mapErr ag true (0x3F0000000000 + d * 2 ^ 28 + off)).sent ++ [.reply ag (unmappedReply ag false true (leBytes 4 v.toNat).length)] = _
    rw [hmap, length_leBytes, hreply]
    rfl
  · change ({ s.mapErr ag true (0x3F0000000000 + d * 2 ^ 28 + off) with sent := _ } : State) = _
    rw [hmap]
    rfl

end Commands

/-- Settles O59: a word is taken field by field, or discarded whole, and by the agents that may write. -/
theorem registerWritesFollowTheirAccess : Obligations.RegisterWritesFollowTheirAccess := by
  refine ⟨?_, fun s p rid o v hready ho hregs hheld => exec_registerWrite_readOnly hready ho hregs hheld,
    fun s ag d off v hready hag hd hoff halign hnone => exec_registerWrite_unnamed hready hag hd hoff halign hnone,
    fun r f rwl old v k hf hlo hhi => testBit_mergeWrite_of_mem (reg_fieldsApart r) hf hlo hhi rwl old v,
    fun s d u i k r hout => State.regValue_testBit hout⟩
  intro s w ag d off u i r v hready hd hoff hreg hag hd0 hblock hde1 hr hw
  obtain ⟨port, x, hx, hagent, hexec⟩ := exec_registerWrite_eq (v := v) hready hd hoff hreg hag
  rw [State.regWrite_plain hready hd0 hblock hde1 hr, State.answer_done hagent, hx] at hexec
  refine ⟨fun hlegal hplain => ?_, fun hlegal hvalid => ?_, fun hillegal => ?_⟩
  · rw [hexec, if_pos hlegal, hw]
    rcases hplain with hvalid | hnil
    · rw [hvalid, if_neg Bool.false_ne_true]
      rfl
    · rw [State.clearRecord_of_nil hnil, ite_self]
      rfl
  · rw [if_pos hlegal, if_pos hvalid] at hexec
    refine ⟨_, hexec, fun q hq => State.clearRecord_reg hq, ?_⟩
    rw [State.clearRecord_frame]
    rfl
  · rw [hexec, hillegal, if_neg Bool.false_ne_true]

end Sys2Proof.Machine

/-! Frames as they are delivered (R409, R414, R415), and O54: requests of other modules (R409, R411, R417). -/

namespace Sys2Proof.Machine

open Sys2Proof

section Delivery

variable {s : State} {p ty : Nat} {f : List Byte} {c : Instr} {from_ : Option (Nat × Nat × Nat)}

/-! ### What reaches its receiver -/

theorem State.frameIn_of_frameOn (h : s.frameOn p ty f) : s.frameIn p ty f = (s.recvFrame p f (arrivedOn p f)).pumpAll := State.whenP_pos h

/-- The command of a frame type. -/
theorem exec_frame (hc : (c, ty) ∈ [(Instr.read p f, 0x01), (.write p f, 0x02), (.notice p f, 0x03), (.readRsp p f, 0x11), (.writeRsp p f, 0x12),
      (.noticeRsp p f, 0x13), (.coll p f, 0x21), (.credit p f, 0x31), (.down p f, 0x32), (.up p f, 0x33)]) :
    exec c s = .next (s.frameIn p ty f) ∧ frameTypes.contains ty = true := by
  simp only [List.mem_cons, Prod.mk.injEq, List.not_mem_nil, or_false] at hc
  rcases hc with ⟨rfl, rfl⟩ | ⟨rfl, rfl⟩ | ⟨rfl, rfl⟩ | ⟨rfl, rfl⟩ | ⟨rfl, rfl⟩ | ⟨rfl, rfl⟩ | ⟨rfl, rfl⟩ | ⟨rfl, rfl⟩ | ⟨rfl, rfl⟩ | ⟨rfl, rfl⟩
  all_goals exact ⟨rfl, rfl⟩

/-- A frame whose type and class agree and that did not come too far is taken up by its receiver when it is for this module. -/
theorem State.recvFrame_of_checks (hon : s.frameOn p ty f) (hty : frameTypes.contains ty = true) (hclass : frClass f = classOf ty) (hhops : bits (frHops f) 3 0 ≤ 6)
    (hsource : bits (frHops f) 3 0 = 1 → carModule (frSrc f) = (s.fport p).peer) (hdst : carModule (frDst f) = s.moduleNo) :
    s.recvFrame p f from_ = s.deliver p f from_ := by
  obtain ⟨hp, -, -, -, htype⟩ := hon
  unfold State.recvFrame
  rw [htype, hty, hclass, if_neg (by simp; omega), if_neg (fun h => h.2.2 (hsource h.2.1)), if_pos hdst]

/-- A frame that the receiver's checks pass goes to its agent. -/
theorem State.frameIn_of_delivers (h : s.delivers p ty f) (hty : frameTypes.contains ty = true) :
    s.frameIn p ty f = (s.deliver p f (arrivedOn p f)).pumpAll := by
  obtain ⟨hon, hclass, hhops, hsource, hdst, -, -⟩ := h
  rw [State.frameIn_of_frameOn hon, State.recvFrame_of_checks hon hty hclass hhops hsource hdst]

/-! ### Requests (R417) -/

theorem State.deliver_request (h : s.delivers p ty f) (hclass : classOf ty = 0) : s.deliver p f from_ = (s.recvRequest f).freeBuffer from_ (frUnits f) := by
  obtain ⟨⟨-, -, -, -, htype⟩, hcls, -, -, -, hecrc, hagent⟩ := h
  unfold State.deliver
  rw [if_neg (not_not.2 hecrc), htype, hagent, if_neg (by decide), if_pos (hcls.trans hclass)]

/-- What follows the receipt of a request: its buffer is freed and ports send what they can. -/
def State.afterRequest (s : State) (p : Nat) (f : List Byte) : State := (s.freeBuffer (arrivedOn p f) (frUnits f)).pumpAll

theorem exec_request (hc : (c, ty) ∈ [(Instr.read p f, 0x01), (.write p f, 0x02), (.notice p f, 0x03)]) (h : s.delivers p ty f) :
    exec c s = .next ((s.recvRequest f).afterRequest p f) := by
  simp only [List.mem_cons, Prod.mk.injEq, List.not_mem_nil, or_false] at hc
  rcases hc with ⟨rfl, rfl⟩ | ⟨rfl, rfl⟩ | ⟨rfl, rfl⟩
  all_goals exact congrArg Host.Outcome.next ((State.frameIn_of_delivers h rfl).trans (congrArg State.pumpAll (State.deliver_request h rfl)))

theorem State.afterRequest_keeps {F : Part → Bool} {t : State} (h : Keeps F t s) (f_sent : F .sent = true) (f_fab : F .fab = true) : Keeps F t (s.afterRequest p f) :=
  State.pumpAll_keeps (State.freeBuffer_keeps h f_fab) f_sent f_fab

/-- A response, and what follows the receipt of its request, is traffic alone. -/
theorem State.answered_keeps (f g : List Byte) : Keeps (oneOf [.free, .sent, .fab]) s ((s.sendFrame g).afterRequest p f) :=
  State.afterRequest_keeps (State.sendFrame_keeps .rfl rfl rfl rfl) rfl rfl

theorem State.responded_keeps (f g : List Byte) (st : Nat) : Keeps (oneOf [.free, .sent, .fab]) s ((s.respond g st).afterRequest p f) := State.answered_keeps ..

theorem State.heldWork_of_ready (hready : s.power.mode = .ready) : s.heldWork = s := by
  refine if_neg ?_
  rw [hready]
  decide

theorem State.recvRequest_of_partition (hready : s.power.mode = .ready) (hpart : s.partitionOk (frSrc f) = true) :
    s.recvRequest f = if frType f = 3 then s.recvNotice f else s.recvMemory f := by
  unfold State.recvRequest
  rw [hpart, if_neg (by rw [hready]; decide), if_neg (by decide)]
  dsimp only
  rw [State.heldWork_of_ready hready]

theorem State.recvRequest_denied (hready : s.power.mode = .ready) (hpart : s.partitionOk (frSrc f) = false) :
    s.recvRequest f = (s.countFld (carDie (frDst f)) 0 0 CF_DENIED.PARTITION 1).respond f 3 := by
  unfold State.recvRequest
  rw [hpart, if_neg (by rw [hready]; decide), if_pos (by decide)]

/-! ### READ and WRITE (R411) -/

section Memory

variable {a : Nat} {ag : Agent} {op : AccessOp} {src d tag : Nat}

theorem State.access_memory_of_peer (hready : s.power.mode = .ready) (hreach : s.reachable (.peer src d tag) a (opLen op) = true)
    (hreg : ∀ d off, s.resolve a ≠ .reg d off) (hseqw : ∀ d off, s.resolve a ≠ .seqw d off) :
    s.access ⟨.peer src d tag, .phys a, op⟩ = s.accessPieces ⟨.peer src d tag, .phys a, op⟩ false (piecesOf a (opLen op)) := by
  have haccess : s.access ⟨.peer src d tag, .phys a, op⟩ = s.accessPhys ⟨.peer src d tag, .phys a, op⟩ a := by
    unfold State.access
    rw [hready]
    rfl
  rw [haccess]
  unfold State.accessPhys
  dsimp only
  rw [hreach]
  split
  · next h => exact absurd h (hreg _ _)
  · next h => exact absurd h (hseqw _ _)
  · exact if_pos rfl

theorem State.reaches_of_reachable {n : Nat} (hreach : s.reachable ag a n = true) : ∀ p ∈ piecesOf a n, s.reaches ag (s.resolve p.1) = true := by
  unfold State.reachable at hreach
  rw [Bool.and_eq_true] at hreach
  exact List.all_eq_true.1 hreach.1

/-- The answer to a peer is a reply and a frame that carries it (R411). -/
theorem State.answer_peer (tgtAddr : Nat) (op : AccessOp) (r : Reply) :
    ∃ g, s.answer ⟨.peer src d tag, .phys tgtAddr, op⟩ r = (s.send (.reply (.peer src d tag) r)).sendFrame g := ⟨_, rfl⟩

/-- A reply given stays given through what follows the request. -/
theorem State.mem_sent_answered (x : Sent) (f g : List Byte) : x ∈ (((s.send x).sendFrame g).afterRequest p f).sent :=
  (State.answered_keeps f g).sent.subset (List.mem_append_right _ (List.mem_singleton.2 rfl))

/-- A peer's read of lines that are served (R411). -/
theorem State.access_read_peer {n : Nat} (hag : ag = .peer src d tag) (hready : s.power.mode = .ready) (hn : 0 < n) (hreach : s.reachable ag a n = true)
    (hstop : ∀ q ∈ s.memLines a n, (s.stack (placedStack q)).stopped = false) (hserve : s.ready ag a n false = true) (hclean : s.anyPoison a n = false) :
    ∃ u : State, ∃ g : List Byte, s.Served u ∧ s.access ⟨ag, .phys a, .read n 0⟩ = (u.send (.reply ag (.data (s.readBytes a n) []))).sendFrame g := by
  subst hag
  have hpieces := State.reaches_of_reachable hreach
  have hok := State.pieceOk_of_reached hpieces hstop
  have hall : (piecesOf a n).filter (s.pieceOk (.peer src d tag)) = piecesOf a n := List.filter_eq_self.2 hok
  obtain ⟨hreg, hseqw⟩ := State.resolve_of_reached (State.reached_head hn hpieces)
  have hserved := State.accessPieces_served (s := s) (x := ⟨.peer src d tag, .phys a, .read n 0⟩) (ps := piecesOf a n) (.inr hready) rfl
    (by rw [hall]; simpa using piecesOf_ne_nil hn) (.inl (List.all_eq_true.2 hok)) (by rw [hall]; exact State.lines_of_ready hserve)
  rw [State.noteMiss_of_reached hpieces, hall] at hserved
  have hawake := s.keepAwake_interrupted (piecesOf a n)
  generalize s.keepAwake (piecesOf a n) = u at hserved hawake
  have hclean' : u.anyPoison a n = false := by rw [hawake.sameMemory.anyPoison, hclean]
  rw [State.serve_read_answer hok fun p hp => by simpa using List.any_eq_false.1 hclean' p hp] at hserved
  have hbytes : ((piecesOf a n).flatMap fun p => u.seen p.1 p.2).take n = s.readBytes a n := by
    rw [State.seen_pieces hclean', hawake.sameMemory.readBytes]
    exact List.take_of_length_le (by simp [State.readBytes])
  rw [hbytes] at hserved
  obtain ⟨g, hanswer⟩ := State.answer_peer (s := u.enqueue (.peer src d tag) false ((piecesOf a n).filter (s.pieceOk (.peer src d tag)))) (src := src) (d := d)
    (tag := tag) a (.read n 0) (.data (s.readBytes a n) [])
  exact ⟨_, g, hawake.served.trans (State.enqueue_served ..), (State.access_memory_of_peer hready hreach hreg hseqw).trans (hserved.trans hanswer)⟩

/-- A peer's write of lines that are served (R411). -/
theorem State.access_write_peer {b : List Byte} (hag : ag = .peer src d tag) (hready : s.power.mode = .ready) (hn : 0 < b.length) (hreach : s.reachable ag a b.length = true)
    (hstop : ∀ q ∈ s.memLines a b.length, (s.stack (placedStack q)).stopped = false) (hserve : s.ready ag a b.length true = true) :
    ∃ v u : State, ∃ g : List Byte, v.mem = (s.writePieces false (piecesOf a b.length) b).mem ∧ v.regs = s.regs ∧ v.Served u ∧
      s.access ⟨ag, .phys a, .write b false⟩ = (u.send (.reply ag .done)).sendFrame g := by
  subst hag
  have hpieces := State.reaches_of_reachable hreach
  have hok := State.pieceOk_of_reached hpieces hstop
  have hall : (piecesOf a b.length).filter (s.pieceOk (.peer src d tag)) = piecesOf a b.length := List.filter_eq_self.2 hok
  have hmap : (piecesOf a b.length).map (fun p => if s.pieceOk (.peer src d tag) p then p else (noAddr, p.2)) = piecesOf a b.length :=
    (List.map_congr_left fun p hp => if_pos (hok p hp)).trans (List.map_id _)
  obtain ⟨hreg, hseqw⟩ := State.resolve_of_reached (State.reached_head hn hpieces)
  have hserved := State.accessPieces_served (s := s) (x := ⟨.peer src d tag, .phys a, .write b false⟩) (ps := piecesOf a b.length) (.inr hready) rfl
    (by rw [hall]; simpa using piecesOf_ne_nil hn) (.inr rfl) (by rw [hall]; exact State.lines_of_ready hserve)
  rw [State.noteMiss_of_reached hpieces, hall] at hserved
  have hawake := s.keepAwake_interrupted (piecesOf a b.length)
  generalize s.keepAwake (piecesOf a b.length) = u at hserved hawake
  have hdone : u.serve ⟨.peer src d tag, .phys a, .write b false⟩ false (piecesOf a b.length) (s.pieceOk (.peer src d tag))
      (unmappedReply (.peer src d tag) false true b.length) =
      ((u.writePieces false (piecesOf a b.length) b).enqueue (.peer src d tag) true (piecesOf a b.length)).answer ⟨.peer src d tag, .phys a, .write b false⟩ .done := by
    unfold State.serve
    dsimp only
    rw [hmap, hall, List.all_eq_true.2 hok]
    rfl
  have hwrite : Keeps (oneOf [.mem]) u (u.writePieces false (piecesOf a b.length) b) := State.writePieces_keeps .rfl rfl
  obtain ⟨g, hanswer⟩ := State.answer_peer (s := (u.writePieces false (piecesOf a b.length) b).enqueue (.peer src d tag) true (piecesOf a b.length)) (src := src) (d := d)
    (tag := tag) a (.write b false) .done
  exact ⟨_, _, g, (hawake.sameMemory.writePieces false (piecesOf a b.length) b).mem, (hwrite.frame .regs rfl).trans hawake.served.regs, State.enqueue_served ..,
    (State.access_memory_of_peer hready hreach hreg hseqw).trans (hserved.trans (hdone.trans hanswer))⟩

end Memory

/-! ### The requests -/

theorem read_served {d a n : Nat} {ag : Agent} (h : s.delivers p 0x01 f) (hready : s.power.mode = .ready) (hpart : s.partitionOk (frSrc f) = true)
    (hd : d = carDie (frDst f)) (ha : a = frAddr f) (halign : a % 64 = 0) (hn : n = 64 * (bits (frOpt f) 4 0 + 1)) (hag : ag = .peer (frSrc f) d (frTag f))
    (hreach : s.reachable ag a n = true) (hstop : ∀ q ∈ s.memLines a n, (s.stack (placedStack q)).stopped = false) (hserve : s.ready ag a n false = true)
    (hclean : s.anyPoison a n = false) :
    ∃ t, exec (.read p f) s = .next t ∧ Sent.reply ag (.data (s.readBytes a n) []) ∈ t.sent ∧ t.mem.cells = s.mem.cells ∧ t.mem.poison = s.mem.poison ∧
      t.regs = s.regs := by
  obtain ⟨u, g, hu, haccess⟩ := State.access_read_peer hag hready (by omega) hreach hstop hserve hclean
  have htype : frType f = 1 := h.1.2.2.2.2
  have hexec := exec_request (ty := 0x01) (c := .read p f) List.mem_cons_self h
  have hrecv : s.recvMemory f = s.access ⟨ag, .phys a, .read n 0⟩ := by
    unfold State.recvMemory
    rw [hag, hd, hn]
    dsimp only
    rw [← ha, if_neg (not_not.2 halign), if_pos htype]
  rw [State.recvRequest_of_partition hready hpart, if_neg (by omega), hrecv, haccess] at hexec
  have hkeeps := State.answered_keeps (s := u.send (.reply ag (.data (s.readBytes a n) []))) (p := p) f g
  exact ⟨_, hexec, State.mem_sent_answered _ f g, (congrArg Memory.cells (hkeeps.frame .mem rfl)).trans hu.cells,
    (congrArg Memory.poison (hkeeps.frame .mem rfl)).trans hu.poison, (hkeeps.frame .regs rfl).trans hu.regs⟩

theorem write_served {d a : Nat} {b : List Byte} {ag : Agent} (h : s.delivers p 0x02 f) (hready : s.power.mode = .ready) (hpart : s.partitionOk (frSrc f) = true)
    (hrecovery : s.boot.recovery = false) (hd : d = carDie (frDst f)) (ha : a = frAddr f) (halign : a % 64 = 0) (hb : b = frPayload f)
    (hag : ag = .peer (frSrc f) d (frTag f)) (hreach : s.reachable ag a b.length = true)
    (hstop : ∀ q ∈ s.memLines a b.length, (s.stack (placedStack q)).stopped = false) (hserve : s.ready ag a b.length true = true) :
    ∃ t, exec (.write p f) s = .next t ∧ Sent.reply ag .done ∈ t.sent ∧ t.mem.cells = (s.writePieces false (piecesOf a b.length) b).mem.cells ∧
      t.mem.poison = (s.writePieces false (piecesOf a b.length) b).mem.poison ∧ t.regs = s.regs := by
  obtain ⟨-, -, hlen, -, htype⟩ := h.1
  have hpos : 0 < b.length := by
    rw [hb, frPayload, List.length_drop]
    omega
  obtain ⟨v, u, g, hmem, hregs, hu, haccess⟩ := State.access_write_peer hag hready hpos hreach hstop hserve
  have hexec := exec_request (ty := 0x02) (c := .write p f) (by simp) h
  have hrecv : s.recvMemory f = s.access ⟨ag, .phys a, .write b false⟩ := by
    unfold State.recvMemory
    rw [hag, hd, hb]
    dsimp only
    rw [← ha, if_neg (not_not.2 halign), if_neg (by omega), hrecovery, Bool.false_and, if_neg Bool.false_ne_true]
  rw [State.recvRequest_of_partition hready hpart, if_neg (by omega), hrecv, haccess] at hexec
  have hkeeps := State.answered_keeps (s := u.send (.reply ag .done)) (p := p) f g
  refine ⟨_, hexec, State.mem_sent_answered _ f g, (congrArg Memory.cells (hkeeps.frame .mem rfl)).trans (hu.cells.trans ?_),
    (congrArg Memory.poison (hkeeps.frame .mem rfl)).trans (hu.poison.trans ?_), (hkeeps.frame .regs rfl).trans (hu.regs.trans hregs)⟩
  · rw [hmem]
  · rw [hmem]

theorem State.recvNotice_of_post {u : State} {d k n : Nat} {r : PostResult} (hrecovery : s.boot.recovery = false)
    (hslot : noticeSlot (carDie (frDst f)) (carAgent (frDst f)) (frOpt f) = (d, k, n))
    (hpost : s.post (senderPeer (frSrc f)) d k n (field (frPayload f) 0 8) (field (frPayload f) 8 4) = (u, r)) : ∃ st, s.recvNotice f = u.respond f st := by
  unfold State.recvNotice
  rw [hslot]
  dsimp only
  rw [if_neg (by rw [hrecovery]; exact fun h => Bool.false_ne_true h.1), hpost]
  cases r with
  | ok => exact ⟨0, rfl⟩
  | full => exact ⟨2, rfl⟩
  | denied => exact ⟨3, rfl⟩

end Delivery

/-- Settles O54: what a peer may reach it reads, writes and posts to; any other request is counted. -/
theorem peersReadWriteAndPost : Obligations.PeersReadWriteAndPost := by
  refine ⟨?_, ?_, ?_, ?_⟩
  · exact fun s p d a n f ag h hready hpart hd ha halign hn hag hreach hstop hserve hclean =>
      read_served h hready hpart hd ha halign hn hag hreach hstop hserve hclean
  · exact fun s p d a f b ag h hready hpart hrecovery hd ha halign hb hag hreach hstop hserve =>
      write_served h hready hpart hrecovery hd ha halign hb hag hreach hstop hserve
  · intro s u p d k n f r h hready hpart hrecovery hslot hpost
    obtain ⟨st, hnotice⟩ := State.recvNotice_of_post hrecovery hslot hpost
    have hexec := exec_request (ty := 0x03) (c := .notice p f) (by simp) h
    rw [State.recvRequest_of_partition hready hpart, if_pos h.1.2.2.2.2, hnotice] at hexec
    exact ⟨_, hexec, (State.responded_keeps f f st).eq_graft⟩
  · intro s p ty d f c hc h hready hd hpart
    have hexec := exec_request hc h
    rw [State.recvRequest_denied hready hpart, ← hd] at hexec
    have hkeeps := State.responded_keeps (s := s.countFld d 0 0 CF_DENIED.PARTITION 1) (p := p) f f 3
    exact ⟨_, hexec, hkeeps.frame .regs rfl, (State.afterRequest_keeps (F := oneOf [.free, .sent, .regs, .fab])
      (State.respond_keeps (State.countFld_keeps .rfl rfl) rfl rfl rfl) rfl rfl).eq_graft⟩

end Sys2Proof.Machine

/-! What traffic leaves of the fabric: the marks of modules and the collectives (R418 to R422, R427). -/

namespace Sys2Proof.Machine

open Sys2Proof

section Members

variable {s t u : State}

/-- States with the same modules marked down, the same running collectives and the same frames waiting for one. -/
structure State.SameMembers (s t : State) : Prop where
  down : t.fab.down = s.fab.down
  colls : t.fab.colls = s.fab.colls
  collBuf : t.fab.collBuf = s.fab.collBuf

namespace State.SameMembers

theorem refl (s : State) : s.SameMembers s := ⟨rfl, rfl, rfl⟩

theorem trans (h : s.SameMembers t) (k : t.SameMembers u) : s.SameMembers u :=
  ⟨k.down.trans h.down, k.colls.trans h.colls, k.collBuf.trans h.collBuf⟩

theorem of_fab (h : t.fab = s.fab) : s.SameMembers t := ⟨by rw [h], by rw [h], by rw [h]⟩

theorem of_links (h : s.SameLinks t) : s.SameMembers t := ⟨by rw [h.fab], by rw [h.fab], by rw [h.fab]⟩

theorem of_keeps {F : Part → Bool} (h : Keeps F s t) (hfab : F .fab = false) : s.SameMembers t := of_fab (h.frame .fab hfab)

theorem foldl {α : Type} {f : State → α → State} (hf : ∀ (u : State) (a : α), u.SameMembers (f u a)) (l : List α) (s : State) : s.SameMembers (l.foldl f s) := by
  induction l generalizing s with
  | nil => exact refl s
  | cons a l ih => exact (hf s a).trans (ih _)

end State.SameMembers

/-! ### Frames sent (R418) -/

theorem State.chooseRoute_sameMembers (f : List Byte) (g : Nat) : s.SameMembers (s.chooseRoute f g).1 :=
  .of_keeps (State.chooseRoute_keeps (F := oneOf [.free]) .rfl rfl) rfl

theorem State.sendFrame_sameMembers (f : List Byte) : s.SameMembers (s.sendFrame f) := by
  unfold State.sendFrame
  split
  · exact (State.chooseRoute_sameMembers ..).trans (.of_links (State.forward_sameLinks ..))
  · exact .of_links (State.forward_sameLinks ..)

theorem State.request_sameMembers (d agent kind dst opt addr len : Nat) (payload : List Byte) (owner : Nat × Nat × Nat × Nat) :
    s.SameMembers (s.request d agent kind dst opt addr len payload owner) :=
  State.SameMembers.trans (t := s.onFab fun x => { x with
    reqs := x.reqs ++ [⟨s.fab.tagNext % 65536, d, agent, kind, dst, addr, len, owner, none⟩], tagNext := s.fab.tagNext % 65536 + 1 }) ⟨rfl, rfl, rfl⟩
    (State.sendFrame_sameMembers _)

/-! ### Notices sent (R293) -/

theorem State.post_sameMembers (sender d k n pointer tag : Nat) : s.SameMembers (s.post sender d k n pointer tag).1 :=
  .of_keeps (State.post_keeps (F := oneOf [.sent, .power, .regs, .mem, .ports, .notices]) .rfl rfl rfl rfl rfl rfl rfl) rfl

theorem State.refused_sameMembers (x : Kept) : s.SameMembers (if s.power.mode = .safe then s else s.refused x fun s => { s with kept := s.kept ++ [x] }) := by
  unfold State.refused
  split
  · exact .refl s
  · split
    · exact .of_fab rfl
    · exact .of_fab rfl

theorem State.postNotice_sameMembers (sender : Nat) (dest : Dest) (pointer tag : Nat) : s.SameMembers (s.postNotice sender dest pointer tag) := by
  unfold State.postNotice
  dsimp only
  by_cases hwait : s.power.mode ≠ .safe ∧ s.writePending (senderWriter sender) = true
  · rw [if_pos hwait]
    exact .of_fab rfl
  · rw [if_neg hwait]
    cases dest with
    | local_ d k n =>
      have hpost := s.post_sameMembers sender d k n pointer tag
      rcases hr : s.post sender d k n pointer tag with ⟨t, r⟩
      rw [hr] at hpost
      dsimp only
      rw [hr]
      cases r with
      | ok => exact hpost
      | full => exact hpost.trans (State.refused_sameMembers _)
      | denied => exact hpost.trans (State.refused_sameMembers _)
    | caravan m d a slot =>
      dsimp only
      split
      · exact .refl s
      · exact State.request_sameMembers ..

theorem State.replyIf_sameMembers (sender target pointer tag : Nat) : s.SameMembers (s.replyIf sender target pointer tag) := by
  unfold State.replyIf State.replyTo
  split
  · split
    · exact State.postNotice_sameMembers ..
    · exact .refl s
  · exact .refl s

/-! ### Collectives that end (R427) -/

variable {c : Coll}

theorem State.reportColl_sameMembers (c : Coll) (status reason : Nat) : s.SameMembers (s.reportColl c status reason) :=
  State.SameMembers.trans (.of_keeps (State.writeBytes_keeps (F := oneOf [.mem]) (State.writeBytes_keeps .rfl rfl) rfl) rfl) (State.replyIf_sameMembers ..)

theorem State.endColl_members (status reason : Nat) : (s.endColl c status reason).fab.down = s.fab.down ∧
    (s.endColl c status reason).fab.colls = s.fab.colls.filter fun y => !(y.d = c.d && y.group = c.group && y.collId = c.collId) := by
  have h := State.reportColl_sameMembers (s := s.onFab fun x => { x with colls := x.colls.filter fun y => !(y.d = c.d && y.group = c.group && y.collId = c.collId) })
    c status reason
  exact ⟨h.down, h.colls⟩

/-- An ended collective runs no more. -/
theorem State.endColl_ends {y : Coll} {status reason : Nat} (hy : y ∈ (s.endColl c status reason).fab.colls) :
    ¬(y.d = c.d ∧ y.group = c.group ∧ y.collId = c.collId) := by
  rw [(State.endColl_members status reason).2] at hy
  have hkept := (List.mem_filter.1 hy).2
  rintro ⟨hd, hgroup, hid⟩
  rw [hd, hgroup, hid] at hkept
  simp at hkept

/-! ### A far tier that is lost (R428) -/

theorem State.abandonJob_down (j : FarJob) : (s.abandonJob j).fab.down = s.fab.down := by
  have hend : (s.endJob j).fab.down = s.fab.down := rfl
  unfold State.abandonJob
  dsimp only
  refine (congrArg Fabric.down ((State.afterJob_keeps (F := oneOf [.regs, .mem, .kv]) .rfl rfl rfl rfl).frame .fab rfl)).trans ?_
  split
  · exact (congrArg Fabric.down ((State.freeSlot_keeps (F := oneOf [.mem, .kv]) (State.setEntry_keeps (State.setFd_keeps .rfl rfl) rfl) rfl).frame .fab rfl)).trans hend
  · exact (congrArg Fabric.down ((State.reclaim_keeps (F := oneOf [.mem, .kv]) (State.setEntry_keeps .rfl rfl) rfl rfl).frame .fab rfl)).trans hend

theorem State.farUnreachable_down : s.farUnreachable.fab.down = s.fab.down := by
  unfold State.farUnreachable
  split
  · rfl
  · exact List.foldlRecOn (motive := fun u : State => u.fab.down = s.fab.down) _ _ rfl fun u hu j _ => (State.abandonJob_down j).trans hu

/-! ### Marks of modules (R422) -/

theorem State.spread_sameLinks (ty m : Nat) : s.SameLinks (s.spread ty m) := by
  unfold State.spread
  refine State.SameLinks.trans (.foldl (fun u p => ?_) _ s) State.pumpAll_sameLinks
  split
  · exact State.queueFrame_sameLinks ..
  · exact .refl u

theorem State.rerouteFrom_sameLinks (m : Nat) : s.SameLinks (s.rerouteFrom m) := by
  unfold State.rerouteFrom
  refine .foldl (fun u p => ?_) _ s
  dsimp only
  split
  · refine State.SameLinks.trans (t := u.onFPort p fun x => { x with out := [] }) (.onFPort (by exact fun _ => rfl)) (.foldl (fun v o => ?_) _ _)
    split
    · exact State.freeBuffer_sameLinks ..
    · exact State.forward_sameLinks ..
  · exact .refl u

theorem State.moduleLost_down (m : Nat) : (s.moduleLost m).fab.down = s.fab.down := by
  unfold State.moduleLost
  dsimp only
  have hcolls : ∀ l : List Coll, (l.foldl (fun s c => s.endColl c 5 0x0050) s).fab.down = s.fab.down := fun l =>
    List.foldlRecOn (motive := fun u : State => u.fab.down = s.fab.down) _ _ rfl fun u hu c _ => (State.endColl_members 5 0x0050).1.trans hu
  split
  · split
    · exact State.farUnreachable_down.trans (hcolls _)
    · exact hcolls _
  · exact hcolls _

/-- A module that goes down is marked, and no mark is lost (R422). -/
theorem State.recvDown_down {p m : Nat} {f : List Byte} (hhops : bits (frHops f) 3 0 = 1) (hm : m = field (frPayload f) 0 2) (hself : m ≠ s.moduleNo) :
    m ∈ (s.recvDown p f).fab.down ∧ ∀ n ∈ s.fab.down, n ∈ (s.recvDown p f).fab.down := by
  unfold State.recvDown
  dsimp only
  rw [← hm]
  by_cases hmarked : s.fab.down.contains m = true
  · rw [if_pos (.inr (.inr hmarked))]
    exact ⟨List.contains_iff_mem.1 hmarked, fun n hn => hn⟩
  · rw [if_neg (fun h => h.elim (fun h => h hhops) fun h => h.elim hself hmarked)]
    have hspread : ∀ v : State, (if p < 48 ∧ globalPort p = true then v.spread 0x32 m else v).fab.down = v.fab.down := fun v => by
      split
      · exact (State.spread_sameLinks ..).down
      · rfl
    rw [State.moduleLost_down, (State.rerouteFrom_sameLinks m).down, hspread]
    exact ⟨List.mem_append_right _ (List.mem_singleton.2 rfl), fun n hn => List.mem_append_left _ hn⟩

/-- A module that comes back is marked no more (R422). -/
theorem State.recvUp_down {p m : Nat} {f : List Byte} (hhops : bits (frHops f) 3 0 = 1) (hm : m = field (frPayload f) 0 2) :
    (s.recvUp p f).fab.down = s.fab.down.filter (· ≠ m) := by
  unfold State.recvUp
  dsimp only
  rw [← hm]
  by_cases hmarked : s.fab.down.contains m = true
  · rw [if_neg (fun h => h.elim (fun h => h hhops) fun h => Bool.false_ne_true (h.symm.trans hmarked))]
    split
    · exact (State.spread_sameLinks ..).down
    · exact State.pumpAll_sameLinks.down
  · rw [if_pos (.inr (Bool.eq_false_iff.2 hmarked))]
    refine (List.filter_eq_self.2 fun n hn => decide_eq_true ?_).symm
    rintro rfl
    exact hmarked (List.contains_iff_mem.2 hn)

end Members

end Sys2Proof.Machine

/-! Settling O53, first part: frames as they arrive (R409, R412, R414 to R418, R422, R466). -/

namespace Sys2Proof.Machine

open Sys2Proof

section Frames

variable {s : State} {p ty : Nat} {f : List Byte} {c : Instr} {from_ : Option (Nat × Nat × Nat)}

/-- The commands of frames and their types. -/
def frameCommands (p : Nat) (f : List Byte) : List (Instr × Nat) :=
  [(.read p f, 0x01), (.write p f, 0x02), (.notice p f, 0x03), (.readRsp p f, 0x11), (.writeRsp p f, 0x12),
    (.noticeRsp p f, 0x13), (.coll p f, 0x21), (.credit p f, 0x31), (.down p f, 0x32), (.up p f, 0x33)]

/-- What follows a frame that its port took is traffic alone. -/
theorem State.freed_keeps_of {F : Part → Bool} {t : State} (units : Nat) (h : Keeps F t s) (f_sent : F .sent = true) (f_fab : F .fab = true) :
    Keeps F t (s.freeBuffer from_ units).pumpAll := State.pumpAll_keeps (State.freeBuffer_keeps h f_fab) f_sent f_fab

theorem State.freed_keeps (units : Nat) : Keeps (oneOf [.sent, .fab]) s (s.freeBuffer from_ units).pumpAll := State.freed_keeps_of units .rfl rfl rfl

theorem State.freed_sameLinks (units : Nat) : s.SameLinks (s.freeBuffer from_ units).pumpAll :=
  (State.freeBuffer_sameLinks ..).trans State.pumpAll_sameLinks

/-! ### Frames that the checks stop (R409, R415) -/

theorem exec_frame_wrongClass (hc : (c, ty) ∈ frameCommands p f) (hon : s.frameOn p ty f) (hclass : frClass f ≠ classOf ty) :
    exec c s = .next (((s.countFld (p / 6) 0 0 CF_DENIED.DISCARD 1).freeBuffer (arrivedOn p f) (frUnits f)).pumpAll) := by
  obtain ⟨hexec, -⟩ := exec_frame (s := s) hc
  obtain ⟨hp, -, -, -, htype⟩ := id hon
  have hdie : portDie p = p / 6 := if_pos hp
  rw [hexec, State.frameIn_of_frameOn hon]
  unfold State.recvFrame
  rw [htype, if_pos (.inr (.inl hclass)), hdie]

theorem State.deliver_badCheck (hp : p < 48) (hecrc : frEcrc f ≠ field f 0x1C 4) : s.deliver p f from_ =
    ((s.countFld (carDie (frDst f)) 0 0 CF_ERR.ECRC 1).raise (carDie (frDst f)) 0x4A02 (.fport (p % 6)) 0 (s.fport p).peer).freeBuffer from_ (frUnits f) := by
  unfold State.deliver
  rw [if_pos hecrc, if_pos hp]

theorem exec_frame_badCheck (hc : (c, ty) ∈ frameCommands p f) (hon : s.frameOn p ty f) (hclass : frClass f = classOf ty) (hhops : bits (frHops f) 3 0 ≤ 6)
    (hsource : bits (frHops f) 3 0 = 1 → carModule (frSrc f) = (s.fport p).peer) (hdst : carModule (frDst f) = s.moduleNo) (hecrc : frEcrc f ≠ field f 0x1C 4) :
    exec c s = .next ((((s.countFld (carDie (frDst f)) 0 0 CF_ERR.ECRC 1).raise (carDie (frDst f)) 0x4A02 (.fport (p % 6)) 0 (s.fport p).peer).freeBuffer
      (arrivedOn p f) (frUnits f)).pumpAll) := by
  obtain ⟨hexec, hty⟩ := exec_frame (s := s) hc
  rw [hexec, State.frameIn_of_frameOn hon, State.recvFrame_of_checks hon hty hclass hhops hsource hdst, State.deliver_badCheck hon.1 hecrc]

/-! ### Frames delivered to link agents and requesters -/

/-- What a die does with a frame that is no request. -/
def State.taken (s : State) (p ty : Nat) (f : List Byte) (from_ : Option (Nat × Nat × Nat)) : State :=
  if ty = 0x21 then s.recvColl (carDie (frDst f)) f from_
  else if ty = 0x31 then s.recvCredit p f
  else if ty = 0x32 then (s.recvDown p f).freeBuffer from_ (frUnits f)
  else if ty = 0x33 then (s.recvUp p f).freeBuffer from_ (frUnits f)
  else (s.recvResponse f).freeBuffer from_ (frUnits f)

theorem State.deliver_taken (h : s.delivers p ty f) (hclass : classOf ty ≠ 0) (hmode : s.power.mode = .safe → ty = 0x31) : s.deliver p f from_ = s.taken p ty f from_ := by
  obtain ⟨⟨-, -, -, -, htype⟩, hcls, -, -, -, hecrc, hagent⟩ := h
  unfold State.deliver
  rw [if_neg (not_not.2 hecrc), htype, hagent, if_neg (by decide), if_neg (by rw [hcls]; exact hclass), if_neg (fun h => h.2 (hmode h.1))]
  rfl

theorem exec_frame_taken (hc : (c, ty) ∈ frameCommands p f) (h : s.delivers p ty f) (hclass : classOf ty ≠ 0) (hmode : s.power.mode = .safe → ty = 0x31) :
    exec c s = .next (s.taken p ty f (arrivedOn p f)).pumpAll := by
  obtain ⟨hexec, hty⟩ := exec_frame (s := s) hc
  rw [hexec, State.frameIn_of_delivers h hty, State.deliver_taken h hclass hmode]

/-! ### CREDIT (R412) -/

/-- Units added to the credits of each class and channel, one after another. -/
def addCredits (g : Nat → Nat) (n : Nat) (m : NMap Nat) : NMap Nat := (List.range n).foldl (fun m i => mput m i (mget 0 m i + g i)) m

theorem mget_addCredits (g : Nat → Nat) (n : Nat) (m : NMap Nat) (i : Nat) : mget 0 (addCredits g n m) i = mget 0 m i + (if i < n then g i else 0) := by
  unfold addCredits
  induction n with
  | zero => rfl
  | succ n ih =>
    rw [List.range_succ, List.foldl_append, List.foldl_cons, List.foldl_nil]
    by_cases hi : i = n
    · subst hi
      rw [mget_mput_self, ih, if_neg (Nat.lt_irrefl i), if_pos (Nat.lt_succ_self i), Nat.add_zero]
    · rw [mget_mput_ne hi, ih]
      congr 1
      by_cases hlt : i < n
      · rw [if_pos hlt, if_pos (by omega)]
      · rw [if_neg hlt, if_neg (by omega)]

theorem State.pump_of_empty (hout : (s.fport p).out = []) : s.pump p 1 = s := by
  unfold State.pump
  dsimp only
  rw [hout]
  split
  · rfl
  · rfl

/-- Ports without frames send nothing. -/
theorem State.pumpAll_of_empty (h : ∀ q, (s.fport q).out = []) : s.pumpAll = s := by
  unfold State.pumpAll
  induction s.fab.ports.map (·.1) with
  | nil => rfl
  | cons q l ih =>
    rw [List.foldl_cons, h q]
    exact (congrArg (fun u => l.foldl _ u) (State.pump_of_empty (h q))).trans ih

/-- Credits that change while no port has a frame send nothing. -/
theorem State.pumpAll_of_credits (h : ∀ q, (s.fport q).out = []) (g : NMap Nat → NMap Nat) :
    (s.onFPort p fun x => { x with credits := g x.credits }).pumpAll = s.onFPort p fun x => { x with credits := g x.credits } := by
  refine State.pumpAll_of_empty fun q => ?_
  by_cases hq : q = p
  · rw [hq, State.fport_onFPort_self]
    exact h p
  · rw [State.fport_onFPort_ne _ hq, h q]

theorem State.credits_onFPort (g : NMap Nat → NMap Nat) : ((s.onFPort p fun x => { x with credits := g x.credits }).fport p).credits = g (s.fport p).credits := by
  rw [State.fport_onFPort_self]

theorem State.recvCredit_eq : s.recvCredit p f =
    (s.onFPort p fun x => { x with credits := addCredits (fun i => field (frPayload f) (2 * i) 2) 12 x.credits }).pumpAll := by
  unfold State.recvCredit addCredits
  rfl

theorem State.recvCredit_of_empty (h : ∀ q, (s.fport q).out = []) : s.recvCredit p f =
    s.onFPort p fun x => { x with credits := addCredits (fun i => field (frPayload f) (2 * i) 2) 12 x.credits } :=
  State.recvCredit_eq.trans (State.pumpAll_of_credits h (addCredits (fun i => field (frPayload f) (2 * i) 2) 12))

theorem credit_adds (h : s.delivers p 0x31 f) (hout : ∀ q, (s.fport q).out = []) :
    ∃ t, exec (.credit p f) s = .next t ∧ (∀ i, i < 12 → mget 0 (t.fport p).credits i = mget 0 (s.fport p).credits i + field (frPayload f) (2 * i) 2) ∧
      t = { s with sent := t.sent, fab := t.fab } := by
  have hexec := exec_frame_taken (c := .credit p f) (by simp [frameCommands]) h (by decide) fun _ => rfl
  have htaken : s.taken p 0x31 f (arrivedOn p f) = s.recvCredit p f := rfl
  rw [htaken, State.recvCredit_of_empty hout] at hexec
  rw [State.pumpAll_of_credits hout] at hexec
  refine ⟨_, hexec, fun i hi => ?_, rfl⟩
  rw [State.credits_onFPort, mget_addCredits, if_pos hi]

/-! ### DOWN and UP (R422) -/

theorem down_marks {m : Nat} (h : s.delivers p 0x32 f) (hmode : s.power.mode ≠ .safe) (hhops : bits (frHops f) 3 0 = 1) (hm : m = field (frPayload f) 0 2)
    (hself : m ≠ s.moduleNo) : ∃ t, exec (.down p f) s = .next t ∧ m ∈ t.fab.down ∧ ∀ n ∈ s.fab.down, n ∈ t.fab.down := by
  have hexec := exec_frame_taken (c := .down p f) (by simp [frameCommands]) h (by decide) fun hsafe => absurd hsafe hmode
  have htaken : s.taken p 0x32 f (arrivedOn p f) = (s.recvDown p f).freeBuffer (arrivedOn p f) (frUnits f) := rfl
  rw [htaken] at hexec
  have hlinks := State.freed_sameLinks (s := s.recvDown p f) (from_ := arrivedOn p f) (frUnits f)
  obtain ⟨hmem, hmore⟩ := State.recvDown_down (s := s) (p := p) hhops hm hself
  refine ⟨_, hexec, ?_, fun n hn => ?_⟩
  · rw [hlinks.down]
    exact hmem
  · rw [hlinks.down]
    exact hmore n hn

theorem up_clears {m : Nat} (h : s.delivers p 0x33 f) (hmode : s.power.mode ≠ .safe) (hhops : bits (frHops f) 3 0 = 1) (hm : m = field (frPayload f) 0 2) :
    ∃ t, exec (.up p f) s = .next t ∧ m ∉ t.fab.down ∧ (∀ n ∈ s.fab.down, n ≠ m → n ∈ t.fab.down) ∧ t = { s with sent := t.sent, fab := t.fab } := by
  have hexec := exec_frame_taken (c := .up p f) (by simp [frameCommands]) h (by decide) fun hsafe => absurd hsafe hmode
  have htaken : s.taken p 0x33 f (arrivedOn p f) = (s.recvUp p f).freeBuffer (arrivedOn p f) (frUnits f) := rfl
  rw [htaken] at hexec
  have hdown := (State.freed_sameLinks (s := s.recvUp p f) (from_ := arrivedOn p f) (frUnits f)).down.trans (State.recvUp_down (s := s) (p := p) hhops hm)
  refine ⟨_, hexec, ?_, fun n hn hne => ?_, ?_⟩
  · rw [hdown]
    exact fun hmem => of_decide_eq_true (List.mem_filter.1 hmem).2 rfl
  · rw [hdown]
    exact List.mem_filter.2 ⟨hn, decide_eq_true hne⟩
  · exact ((State.recvUp_keeps (F := oneOf [.sent, .fab]) .rfl rfl rfl).trans (State.freed_keeps _)).eq_graft

/-! ### Responses (R293, R416) -/

/-- The open request that a response answers. -/
def State.answeredReq (s : State) (ty : Nat) (f : List Byte) : Option CReq :=
  s.fab.reqs.find? fun r => r.result.isNone && decide (r.tag = frTag f ∧ r.dst = frSrc f ∧ rspType r.kind = ty)

theorem exec_response {q : CReq} (hc : (c, ty) ∈ [(Instr.readRsp p f, 0x11), (.writeRsp p f, 0x12), (.noticeRsp p f, 0x13)]) (h : s.delivers p ty f) (hmode : s.power.mode ≠ .safe)
    (hfind : s.answeredReq ty f = some q) : exec c s = .next ((s.endRequest q (frStatus f) (frPayload f)).freeBuffer (arrivedOn p f) (frUnits f)).pumpAll := by
  have htype : frType f = ty := h.1.2.2.2.2
  have hrecv : s.recvResponse f = s.endRequest q (frStatus f) (frPayload f) := by
    unfold State.recvResponse
    unfold State.answeredReq at hfind
    rw [htype, hfind]
  simp only [List.mem_cons, Prod.mk.injEq, List.not_mem_nil, or_false] at hc
  have hall : (c, ty) ∈ frameCommands p f ∧ classOf ty ≠ 0 ∧ s.taken p ty f (arrivedOn p f) = (s.recvResponse f).freeBuffer (arrivedOn p f) (frUnits f) := by
    rcases hc with ⟨rfl, rfl⟩ | ⟨rfl, rfl⟩ | ⟨rfl, rfl⟩
    all_goals exact ⟨by simp [frameCommands], by decide, rfl⟩
  obtain ⟨hcommand, hclass, htaken⟩ := hall
  rw [exec_frame_taken hcommand h hclass fun hsafe => absurd hsafe hmode, htaken, hrecv]

theorem State.endRequest_other {q : CReq} (howner : q.owner.1 ≠ 9) (status : Nat) (data : List Byte) : s.endRequest q status data =
    s.onFab fun x => { x with reqs := x.reqs.map fun y => if y.tag = q.tag then { y with result := some (status, data) } else y } := if_neg howner

/-- The notice that a response turned away, to be posted again. -/
def CReq.again (q : CReq) : Kept := ⟨q.owner.2.1, .caravan (carModule q.dst) (carDie q.dst) (carAgent q.dst) q.addr, q.owner.2.2.1, q.owner.2.2.2⟩

theorem State.endRequest_notice {q : CReq} (howner : q.owner.1 = 9) (hmode : s.power.mode ≠ .safe) (status : Nat) (data : List Byte) : s.endRequest q status data =
    { s with fab := { s.fab with reqs := s.fab.reqs.filter fun y => y.tag ≠ q.tag }, kept := if status = 0 then s.kept else s.kept ++ [q.again] } := by
  unfold State.endRequest
  rw [if_pos howner]
  dsimp only
  by_cases hstatus : status = 0
  · rw [if_pos (.inl hstatus), if_pos hstatus]
    rfl
  · rw [if_neg (fun h => h.elim hstatus hmode), if_neg hstatus]
    rfl

end Frames

/-- The clauses of frames as they arrive. -/
theorem framesAreCheckedAndDelivered : (∀ (s : State) (p ty : Nat) (f : List Byte) (c : Instr), (c, ty) ∈ frameCommands p f → s.frameOn p ty f → frClass f ≠ classOf ty →
      ∃ t, exec c s = .next t ∧ t.regs = (s.countFld (p / 6) 0 0 CF_DENIED.DISCARD 1).regs ∧ t = { s with regs := t.regs, sent := t.sent, fab := t.fab }) ∧
    (∀ (s : State) (p ty d : Nat) (f : List Byte) (c : Instr), (c, ty) ∈ frameCommands p f → s.frameOn p ty f → frClass f = classOf ty → bits (frHops f) 3 0 ≤ 6 →
      (bits (frHops f) 3 0 = 1 → carModule (frSrc f) = (s.fport p).peer) → carModule (frDst f) = s.moduleNo → d = carDie (frDst f) → frEcrc f ≠ field f 0x1C 4 →
      ∃ t u : State, exec c s = .next t ∧ u = (s.countFld d 0 0 CF_ERR.ECRC 1).raise d 0x4A02 (.fport (p % 6)) 0 (s.fport p).peer ∧
        t = { u with sent := t.sent, fab := t.fab }) := by
  refine ⟨fun s p ty f c hc hon hclass => ?_, fun s p ty d f c hc hon hclass hhops hsource hdst hd hecrc => ?_⟩
  · have hkeeps := State.freed_keeps (s := s.countFld (p / 6) 0 0 CF_DENIED.DISCARD 1) (from_ := arrivedOn p f) (frUnits f)
    exact ⟨_, exec_frame_wrongClass hc hon hclass, hkeeps.frame .regs rfl,
      (State.freed_keeps_of (F := oneOf [.regs, .sent, .fab]) _ (State.countFld_keeps .rfl rfl) rfl rfl).eq_graft⟩
  · subst hd
    exact ⟨_, _, exec_frame_badCheck hc hon hclass hhops hsource hdst hecrc, rfl, (State.freed_keeps _).eq_graft⟩

theorem response_ends {s : State} {p ty : Nat} {f : List Byte} {q : CReq} {c : Instr} (hc : (c, ty) ∈ [(Instr.readRsp p f, 0x11), (.writeRsp p f, 0x12)])
    (h : s.delivers p ty f) (hmode : s.power.mode ≠ .safe) (hfind : s.answeredReq ty f = some q) (howner : q.owner.1 ≠ 9) :
    ∃ t, exec c s = .next t ∧ t.fab.reqs = s.fab.reqs.map (fun r => if r.tag = q.tag then { r with result := some (frStatus f, frPayload f) } else r) ∧
      t = { s with sent := t.sent, fab := t.fab } := by
  have hexec := exec_response (c := c) (by
    simp only [List.mem_cons, List.not_mem_nil, or_false] at hc ⊢
    exact hc.imp_right .inl) h hmode hfind
  rw [State.endRequest_other howner] at hexec
  exact ⟨_, hexec, (State.freed_sameLinks _).reqs, ((State.onFab_keeps (F := oneOf [.sent, .fab]) .rfl rfl).trans (State.freed_keeps _)).eq_graft⟩

theorem notice_response_ends {s : State} {p : Nat} {f : List Byte} {q : CReq} (h : s.delivers p 0x13 f) (hmode : s.power.mode ≠ .safe)
    (hfind : s.answeredReq 0x13 f = some q) (howner : q.owner.1 = 9) :
    ∃ t, exec (.noticeRsp p f) s = .next t ∧ t.fab.reqs = s.fab.reqs.filter (fun r => r.tag ≠ q.tag) ∧
      t.kept = (if frStatus f = 0 then s.kept else s.kept ++ [q.again]) ∧ t = { s with sent := t.sent, kept := t.kept, fab := t.fab } := by
  have hexec := exec_response (c := .noticeRsp p f) (by simp) h hmode hfind
  rw [State.endRequest_notice howner hmode] at hexec
  have hkeeps := State.freed_keeps (from_ := arrivedOn p f) (frUnits f)
    (s := { s with fab := { s.fab with reqs := s.fab.reqs.filter fun y => y.tag ≠ q.tag }, kept := if frStatus f = 0 then s.kept else s.kept ++ [q.again] })
  refine ⟨_, hexec, (State.freed_sameLinks _).reqs, hkeeps.frame .kept rfl, ?_⟩
  rw [hkeeps.eq_graft]
  rfl

end Sys2Proof.Machine

/-! Settling O53, second part: flits, promotion and timeouts (R367, R368, R413, R416). -/

namespace Sys2Proof.Machine

open Sys2Proof

section Flits

variable {s : State} {p : Nat} {b : List Byte}

/-! ### Flits that are not accepted (R368) -/

/-- A flit that is out of order, or whose check fails. -/
def State.refusesFlit (s : State) (p : Nat) (b : List Byte) : Prop := crc32c (b.take 252) ≠ field b 252 4 ∨ bits (field b 240 2) 11 0 ≠ (s.fport p).rxNext

theorem exec_flitReceive_eq (hp : p < 48) (hlen : b.length = 256) (hup : (s.fport p).phase = .up) : exec (.flitReceive p b) s = .next (s.takeFlit p b) :=
  congrArg Host.Outcome.next (State.whenP_pos ⟨hp, hlen, .inl hup⟩)

theorem State.takeFlit_refused (hswap : (s.fport p).swap = none) (hbad : s.refusesFlit p b) :
    s.takeFlit p b = if (s.fport p).naked || s.nakHeld p then s else s.sendNak p := by
  unfold State.takeFlit
  dsimp only
  rw [hswap, if_neg (by decide)]
  exact if_pos hbad

/-- The NAK's flit, with the number of the last flit accepted. -/
theorem State.sendNak_spec (hflits : (s.fport p).flits.length < 2048) : ((s.sendNak p).fport p).rxNext = (s.fport p).rxNext ∧ ((s.sendNak p).fport p).naked = true ∧
    (s.sendNak p).sent = s.sent ++ [.flit p (flitBytes ⟨(s.fport p).txNext, false, padTo 240 0 []⟩ (s.fport p).ack true)] := by
  have hnak : s.sendNak p = (s.sendFlit p false [] true).onFPort p fun x => { x with naked := true } := if_neg (Nat.not_le.2 hflits)
  have hlinks : s.SameLinks (s.sendFlit p false [] true) := State.sendFlit_sameLinks ..
  have hself : (s.sendNak p).fport p = { (s.sendFlit p false [] true).fport p with naked := true } := by rw [hnak, State.fport_onFPort_self]
  refine ⟨?_, ?_, ?_⟩
  · rw [hself]
    exact show ((s.sendFlit p false [] true).fport p).link.rxNext = (s.fport p).link.rxNext by rw [hlinks.link]
  · rw [hself]
  · rw [hnak]
    rfl

theorem flit_draws_nak (hp : p < 48) (hlen : b.length = 256) (hup : (s.fport p).phase = .up) (hswap : (s.fport p).swap = none) (hbad : s.refusesFlit p b)
    (hnaked : (s.fport p).naked = false) (hheld : (s.engine (p / 3)).held = []) (hflits : (s.fport p).flits.length < 2048) :
    ∃ t, exec (.flitReceive p b) s = .next t ∧ (t.fport p).rxNext = (s.fport p).rxNext ∧ (t.fport p).naked = true ∧
      t.sent = s.sent ++ [.flit p (flitBytes ⟨(s.fport p).txNext, false, padTo 240 0 []⟩ (s.fport p).ack true)] ∧ t = { s with sent := t.sent, fab := t.fab } := by
  have hbar : s.nakHeld p = false := by
    unfold State.nakHeld
    rw [hheld]
    rfl
  have hexec := exec_flitReceive_eq hp hlen hup
  rw [State.takeFlit_refused hswap hbad, hnaked, hbar, if_neg (by decide)] at hexec
  obtain ⟨hrx, hnak, hsent⟩ := State.sendNak_spec hflits
  exact ⟨_, hexec, hrx, hnak, hsent, (State.sendNak_keeps (F := oneOf [.sent, .fab]) .rfl rfl rfl).eq_graft⟩

theorem flit_after_nak (hp : p < 48) (hlen : b.length = 256) (hup : (s.fport p).phase = .up) (hswap : (s.fport p).swap = none) (hbad : s.refusesFlit p b)
    (hnaked : (s.fport p).naked = true) : exec (.flitReceive p b) s = .next s := by
  rw [exec_flitReceive_eq hp hlen hup, State.takeFlit_refused hswap hbad, hnaked, Bool.true_or, if_pos rfl]

/-! ### A null flit in order (R367) -/

/-- The port of a flit accepted. -/
def FPort.accepted (x : FPort) : FPort := { x with rxNext := (x.rxNext + 1) % 4096, naked := false }

/-- The state once a flit is accepted and what it acknowledges is freed. -/
def State.acked (s : State) (p : Nat) (b : List Byte) : State :=
  if bit (field b 242 2) 12 then (s.onFPort p FPort.accepted).takeAck p (bits (field b 242 2) 11 0) (bit (field b 242 2) 13) else s.onFPort p FPort.accepted

theorem State.takeFlit_null (hswap : (s.fport p).swap = none) (hgood : ¬s.refusesFlit p b) (hnull : bits (field b 240 2) 15 12 ≠ 0) :
    s.takeFlit p b = (s.acked p b).pump p (((s.acked p b).fport p).out.length + 1) := by
  unfold State.takeFlit State.acked
  dsimp only
  rw [hswap, if_neg (by decide)]
  exact (if_neg hgood).trans (if_pos hnull)

theorem State.takeAck_fport (ack : Nat) : ((s.takeAck p ack false).fport p).rxNext = (s.fport p).rxNext ∧ ((s.takeAck p ack false).fport p).naked = (s.fport p).naked := by
  unfold State.takeAck
  dsimp only
  rw [if_neg (by decide)]
  split
  · rw [State.fport_onFPort_self]
    exact ⟨rfl, rfl⟩
  · exact ⟨rfl, rfl⟩

theorem State.acked_fport (hnak : bit (field b 242 2) 13 = false) :
    ((s.acked p b).fport p).rxNext = ((s.fport p).rxNext + 1) % 4096 ∧ ((s.acked p b).fport p).naked = false := by
  have hself : (s.onFPort p FPort.accepted).fport p = (s.fport p).accepted := State.fport_onFPort_self ..
  unfold State.acked
  rw [hnak]
  split
  · obtain ⟨hrx, hnaked⟩ := State.takeAck_fport (s := s.onFPort p FPort.accepted) (p := p) (bits (field b 242 2) 11 0)
    rw [hrx, hnaked, hself]
    exact ⟨rfl, rfl⟩
  · rw [hself]
    exact ⟨rfl, rfl⟩

theorem State.acked_keeps (hnak : bit (field b 242 2) 13 = false) : Keeps (oneOf [.sent, .fab]) s (s.acked p b) := by
  have hstart : Keeps (oneOf [.sent, .fab]) s (s.onFPort p FPort.accepted) := State.onFPort_keeps .rfl rfl
  unfold State.acked
  rw [hnak]
  split
  · refine hstart.trans ?_
    unfold State.takeAck
    dsimp only
    rw [if_neg (by decide)]
    split
    · exact State.onFPort_keeps .rfl rfl
    · exact .rfl
  · exact hstart

theorem null_flit_accepted (hp : p < 48) (hlen : b.length = 256) (hup : (s.fport p).phase = .up) (hswap : (s.fport p).swap = none)
    (hcrc : crc32c (b.take 252) = field b 252 4) (hseq : bits (field b 240 2) 11 0 = (s.fport p).rxNext) (hnull : bits (field b 240 2) 15 12 ≠ 0)
    (hnak : bit (field b 242 2) 13 = false) :
    ∃ t, exec (.flitReceive p b) s = .next t ∧ (t.fport p).rxNext = ((s.fport p).rxNext + 1) % 4096 ∧ (t.fport p).naked = false ∧
      t = { s with sent := t.sent, fab := t.fab } := by
  have hexec := exec_flitReceive_eq hp hlen hup
  rw [State.takeFlit_null hswap (fun h => h.elim (fun h => h hcrc) fun h => h hseq) hnull] at hexec
  obtain ⟨hrx, hnaked⟩ := State.acked_fport (s := s) (p := p) hnak
  have hkeeps := State.acked_keeps (s := s) (p := p) hnak
  generalize s.acked p b = u at *
  have hlinks := State.pump_sameLinks (s := u) (p := p) ((u.fport p).out.length + 1)
  refine ⟨_, hexec, ?_, ?_, (hkeeps.trans (State.pump_keeps .rfl rfl rfl)).eq_graft⟩
  · exact (show ((u.pump p ((u.fport p).out.length + 1)).fport p).link.rxNext = (u.fport p).link.rxNext by rw [hlinks.link]).trans hrx
  · exact (hlinks.naked p).trans hnaked

/-! ### Promotion (R413) -/

/-- What no port's sending changes: a port that carries no frames. -/
structure State.Silent (s t : State) (p : Nat) : Prop where
  port : t.fport p = s.fport p
  silent : t.portCarries p = false

variable {t u : State} {q : Nat}

theorem State.Silent.trans (h : s.Silent t p) (k : t.Silent u p) : s.Silent u p := ⟨k.port.trans h.port, k.silent⟩

theorem State.Silent.of_ports (hsilent : s.portCarries p = false) (hport : t.fport p = s.fport p) (hmgmt : t.mgmt = s.mgmt) (hdown : t.fab.down = s.fab.down) :
    s.Silent t p := by
  refine ⟨hport, ?_⟩
  unfold State.portCarries at hsilent ⊢
  rw [hport, hmgmt, hdown]
  exact hsilent

theorem State.Silent.refl (hsilent : s.portCarries p = false) : s.Silent s p := ⟨rfl, hsilent⟩

theorem State.onFPort_silent {f : FPort → FPort} (hsilent : s.portCarries p = false) (hq : p ≠ q) : s.Silent (s.onFPort q f) p :=
  .of_ports hsilent (State.fport_onFPort_ne f hq) rfl rfl

theorem State.freeBuffer_silent (hsilent : s.portCarries p = false) (from_ : Option (Nat × Nat × Nat)) (units : Nat) : s.Silent (s.freeBuffer from_ units) p := by
  unfold State.freeBuffer
  split
  · next r cls vc =>
    split
    · next hcarries =>
      have hr : p ≠ r := by
        rintro rfl
        exact Bool.false_ne_true (hsilent.symm.trans hcarries)
      unfold State.queueFrame
      exact State.onFPort_silent hsilent hr
    · exact .refl hsilent
  · exact .refl hsilent

theorem State.sendFlit_silent (hsilent : s.portCarries p = false) (hq : p ≠ q) (data : Bool) (payload : List Byte) (nak : Bool) :
    s.Silent (s.sendFlit q data payload nak) p := by
  have hport : (s.onFPort q fun x => { x with
      txNext := (x.txNext + 1) % 4096, flits := x.flits ++ [⟨(s.fport q).txNext, data, padTo 240 0 payload⟩] }).fport p = s.fport p := State.fport_onFPort_ne _ hq
  exact .of_ports hsilent hport rfl rfl

theorem State.sendFlits_silent (hsilent : s.portCarries p = false) (hq : p ≠ q) (n : Nat) (bs : List Byte) : s.Silent (s.sendFlits q n bs) p := by
  induction n generalizing s bs with
  | zero => exact .refl hsilent
  | succ n ih =>
    unfold State.sendFlits
    split
    · exact .refl hsilent
    · have hone := State.sendFlit_silent hsilent hq true (bs.take 240) false
      exact hone.trans (ih hone.silent _)

theorem State.pump_silent (hsilent : s.portCarries p = false) (n : Nat) : s.Silent (s.pump q n) p := by
  induction n generalizing s with
  | zero => exact .refl hsilent
  | succ n ih =>
    unfold State.pump
    dsimp only
    split
    · exact .refl hsilent
    · next hsends =>
      have hq : p ≠ q := by
        rintro rfl
        rw [hsilent] at hsends
        exact hsends rfl
      split
      · exact .refl hsilent
      · next o _ =>
        split
        · exact .refl hsilent
        · have htaken : s.Silent (s.onFPort q fun x => { x with
              out := dropFirst (· == o) x.out
              credits := mput x.credits (3 * frClass o.bytes + o.vc)
                (mget 0 x.credits (3 * frClass o.bytes + o.vc) - if frType o.bytes = 0x31 then 0 else frUnits o.bytes) }) p := State.onFPort_silent hsilent hq
          have hsent := htaken.trans (State.sendFlits_silent htaken.silent hq (flitsOf o.bytes) (hopped o.bytes (globalPort q)))
          have hfreed := hsent.trans (State.freeBuffer_silent hsent.silent o.from_ (frUnits o.bytes))
          exact hfreed.trans (ih hfreed.silent)

theorem State.pumpAll_silent (hsilent : s.portCarries p = false) : s.Silent s.pumpAll p := by
  unfold State.pumpAll
  exact List.foldlRecOn (motive := fun u : State => s.Silent u p) _ _ (.refl hsilent) fun u hu q _ => hu.trans (State.pump_silent hu.silent _)

/-- A frame promoted (R413). -/
def OutFrame.promoted (o : OutFrame) : OutFrame := { o with bytes := splice o.bytes 0x18 (leBytes 1 (setBits (frHops o.bytes) 7 7 1)) }

theorem frame_promoted {n : Nat} (hp : p < 48) (hn : n < (s.fport p).out.length) (hsilent : s.portCarries p = false) :
    ∃ t, exec (.framePromote p n) s = .next t ∧ (∀ o, (s.fport p).out[n]? = some o → (t.fport p).out[n]? = some o.promoted) ∧
      t = { s with sent := t.sent, fab := t.fab } := by
  have hexec : exec (.framePromote p n) s = .next (s.onFPort p fun x => { x with out := modAt OutFrame.promoted x.out n }).pumpAll :=
    congrArg Host.Outcome.next (State.whenP_pos ⟨hp, hn⟩)
  have hself := State.fport_onFPort_self (s := s) (p := p) fun x => { x with out := modAt OutFrame.promoted x.out n }
  have hstill : (s.onFPort p fun x => { x with out := modAt OutFrame.promoted x.out n }).portCarries p = false := by
    unfold State.portCarries at hsilent ⊢
    rw [hself]
    exact hsilent
  refine ⟨_, hexec, fun o ho => ?_, (State.pumpAll_keeps (F := oneOf [.sent, .fab]) (State.onFPort_keeps .rfl rfl) rfl rfl).eq_graft⟩
  rw [(State.pumpAll_silent hstill).port, hself]
  exact getElem?_modAt_self ho

/-! ### Timeouts (R416) -/

theorem request_timeout {n : Nat} {r : CReq} (hn : s.fab.reqs[n]? = some r) (hopen : r.result = none) (howner : r.owner.1 ≠ 9) :
    ∃ t, exec (.requestTimeout n) s = .next t ∧ t.regs = (s.countFld r.d 0 0 CF_ERR.TIMEOUT 1).regs ∧
      t.fab.reqs = s.fab.reqs.map (fun y => if y.tag = r.tag then { y with result := some (5, []) } else y) ∧ t = { s with regs := t.regs, fab := t.fab } := by
  have hexec : exec (.requestTimeout n) s = .next ((s.countFld r.d 0 0 CF_ERR.TIMEOUT 1).endRequest r 5 []) := by
    change execRequestTimeout n s = _
    unfold execRequestTimeout
    rw [hn]
    exact congrArg Host.Outcome.next (State.whenP_pos hopen)
  rw [State.endRequest_other howner] at hexec
  exact ⟨_, hexec, rfl, rfl, (State.onFab_keeps (F := oneOf [.regs, .fab]) (State.countFld_keeps .rfl rfl) rfl).eq_graft⟩

end Flits

/-- Settles O53: frames and flits are checked where they arrive, and what passes is delivered. -/
theorem framesAndFlitsAreCheckedAndDelivered : Obligations.FramesAndFlitsAreCheckedAndDelivered := by
  obtain ⟨hclass, hcheck⟩ := framesAreCheckedAndDelivered
  refine ⟨⟨hclass, hcheck, ?_, ?_, ?_, ?_, ?_⟩, ?_, ?_, ?_, ?_, ?_⟩
  · exact fun s p f h hout => credit_adds h hout
  · exact fun s p m f h hmode hhops hm hself => down_marks h hmode hhops hm hself
  · exact fun s p m f h hmode hhops hm => up_clears h hmode hhops hm
  · exact fun s p ty f q c hc h hmode hfind howner => response_ends hc h hmode hfind howner
  · exact fun s p f q h hmode hfind howner => notice_response_ends h hmode hfind howner
  · exact fun s p b hp hlen hup hswap hbad hnaked hheld hflits => flit_draws_nak hp hlen hup hswap hbad hnaked hheld hflits
  · exact fun s p b hp hlen hup hswap hbad hnaked => flit_after_nak hp hlen hup hswap hbad hnaked
  · exact fun s p b hp hlen hup hswap hcrc hseq hnull hnak => null_flit_accepted hp hlen hup hswap hcrc hseq hnull hnak
  · exact fun s p n hp hn hsilent => frame_promoted hp hn hsilent
  · exact fun s n q hn hopen howner => request_timeout hn hopen howner

end Sys2Proof.Machine

/-! Settling O55: collectives (R423 to R427). -/

namespace Sys2Proof.Machine

open Sys2Proof

/-! ### Arithmetic of a collective (R424) -/

theorem combine_int32 (a b : Nat) : combine 0xC 0 a b = (a + b) % 2 ^ 32 ∧ toSigned 32 (combine 0xC 1 a b) = max (toSigned 32 a) (toSigned 32 b) ∧
    toSigned 32 (combine 0xC 2 a b) = min (toSigned 32 a) (toSigned 32 b) := by
  have hmax : combine 0xC 1 a b = if toSigned 32 a ≤ toSigned 32 b then b else a := rfl
  have hmin : combine 0xC 2 a b = if toSigned 32 a ≤ toSigned 32 b then a else b := rfl
  refine ⟨rfl, ?_, ?_⟩
  · rw [hmax, apply_ite (toSigned 32), max_def]
  · rw [hmin, apply_ite (toSigned 32), min_def]

/-- Every element of an ALLREDUCE lies in one chunk. -/
theorem Coll.chunk_unique {c : Coll} {i : Nat} (hop : c.op = 1) (hp : 0 < c.p) (hi : i < c.count) : ∃ k, k < c.p ∧ (c.chunk k).1 ≤ i ∧ i < (c.chunk k).1 + (c.chunk k).2 ∧
    ∀ m, m < c.p → (c.chunk m).1 ≤ i ∧ i < (c.chunk m).1 + (c.chunk m).2 → m = k := by
  have hchunk : ∀ k, c.chunk k = (k * ((c.count + c.p - 1) / c.p), min ((c.count + c.p - 1) / c.p) (c.count - k * ((c.count + c.p - 1) / c.p))) := fun k => if_pos hop
  have hcover : c.count ≤ c.p * ((c.count + c.p - 1) / c.p) := by
    have hdiv := Nat.div_add_mod (c.count + c.p - 1) c.p
    have hmod := Nat.mod_lt (c.count + c.p - 1) hp
    omega
  generalize (c.count + c.p - 1) / c.p = q at hchunk hcover
  have hq : 0 < q := by
    rcases Nat.eq_zero_or_pos q with hzero | hpos
    · rw [hzero, Nat.mul_zero] at hcover
      omega
    · exact hpos
  have hlow : i / q * q ≤ i := Nat.div_mul_le_self i q
  have hhigh : i < i / q * q + q := by
    have := Nat.lt_div_mul_add (a := i) hq
    omega
  refine ⟨i / q, Nat.div_lt_of_lt_mul (by rw [Nat.mul_comm]; omega), ?_, ?_, fun m hm hin => ?_⟩
  · rw [hchunk]
    exact hlow
  · rw [hchunk]
    dsimp only
    omega
  · rw [hchunk] at hin
    obtain ⟨hfrom, hto⟩ := hin
    dsimp only at hfrom hto
    refine (Nat.div_eq_of_lt_le hfrom ?_).symm
    rw [Nat.succ_mul]
    omega

section Start

variable {s : State} {d n op : Nat} {x : Notice} {k : Coll}

/-! ### Start (R423, R427) -/

/-- The collective that a notice of a die's engine asks for. -/
def State.collOfNotice (s : State) (d n : Nat) (x : Notice) : Coll where
  d := d
  slot := n
  pointer := x.pointer
  tag := x.tag
  sender := x.sender
  desc := s.seen x.pointer 64
  p := (s.collMembers (field (s.seen x.pointer 64) 3 1)).length
  index := (s.memberIndex d (field (s.seen x.pointer 64) 3 1)).getD 0
  phase := 0
  step := 0
  chunks := []
  got := []
  part := Partial.empty 0
  kids := []

/-- A collective completed with the first fault of its descriptor, or started. -/
def State.tryColl (s : State) (n : Nat) (k : Coll) : State :=
  match s.collFault k (s.memberIndex k.d k.group).isSome with
  | some (st, reason) => (s.emptySlot k.d 4 n).reportColl k st reason
  | none => s.withMem (.coll k.d) [(k.src, k.srcBytes, false), (k.dst, k.dstBytes, true)] fun s => (s.emptySlot k.d 4 n).runColl k

theorem State.startColl_of (hnotice : s.noticeAt d 4 n = some x) (hmode : s.power.mode ≠ .safe) (hroom : (s.fab.colls.filter fun y => y.d = d).length < 16)
    (hreach : s.posterReaches x.sender x.pointer 64 = true) (hready : s.ready (.coll d) x.pointer 64 true = true) (hop : (s.collOfNotice d n x).op = op) :
    s.startColl d n op = (s.tryColl n (s.collOfNotice d n x)).useObtained x.pointer 64 := by
  unfold State.startColl
  rw [hnotice]
  dsimp only
  rw [if_neg (fun h => h.elim hmode fun h => absurd hroom (Nat.not_lt.2 h)), hreach, if_neg (by decide), State.withMem_of_ready hready]
  exact congrArg (fun u : State => u.useObtained x.pointer 64) (if_neg (not_not.2 (.inl hop)))

theorem State.tryColl_fault {st reason : Nat} (hfault : s.collFault k (s.memberIndex k.d k.group).isSome = some (st, reason)) :
    s.tryColl n k = (s.emptySlot k.d 4 n).reportColl k st reason := by
  unfold State.tryColl
  rw [hfault]

theorem State.tryColl_runs (hfault : s.collFault k (s.memberIndex k.d k.group).isSome = none) (hsrc : s.ready (.coll k.d) k.src k.srcBytes false = true)
    (hdst : s.ready (.coll k.d) k.dst k.dstBytes true = true) :
    s.tryColl n k = (((s.emptySlot k.d 4 n).runColl k).useObtained k.src k.srcBytes).useObtained k.dst k.dstBytes := by
  unfold State.tryColl
  rw [hfault]
  dsimp only
  rw [State.withMem_of_all]
  · rfl
  · intro r hr
    simp only [List.mem_cons, List.not_mem_nil, or_false] at hr
    rcases hr with rfl | rfl
    · exact hsrc
    · exact hdst

/-- The commands that start collectives. -/
theorem exec_startColl {c : Instr} (hc : (c, op) ∈ [(Instr.allreduce d n, 1), (.reducescatter d n, 2), (.allgather d n, 3), (.headmerge d n, 4)]) :
    exec c s = .next (s.startColl d n op) := by
  simp only [List.mem_cons, Prod.mk.injEq, List.not_mem_nil, or_false] at hc
  rcases hc with ⟨rfl, rfl⟩ | ⟨rfl, rfl⟩ | ⟨rfl, rfl⟩ | ⟨rfl, rfl⟩
  all_goals rfl

/-- A collective is what its notice asks for when its fields are. -/
theorem State.eq_collOfNotice (hd : k.d = d) (hslot : k.slot = n) (hpointer : k.pointer = x.pointer) (htag : k.tag = x.tag) (hsender : k.sender = x.sender)
    (hdesc : k.desc = s.seen x.pointer 64) (hp : k.p = (s.collMembers k.group).length) (hindex : k.index = (s.memberIndex d k.group).getD 0) (hphase : k.phase = 0)
    (hstep : k.step = 0) (hchunks : k.chunks = []) (hgot : k.got = []) (hpart : k.part = Partial.empty 0) (hkids : k.kids = []) : k = s.collOfNotice d n x := by
  have hgroup : k.group = field (s.seen x.pointer 64) 3 1 := congrArg (fun b => field b 3 1) hdesc
  rw [hgroup] at hp hindex
  obtain ⟨kd, kslot, kpointer, ktag, ksender, kdesc, kp, kindex, kphase, kstep, kchunks, kgot, kpart, kkids⟩ := k
  dsimp only at *
  subst hd hslot hpointer htag hsender hdesc hp hindex hphase hstep hchunks hgot hpart hkids
  rfl

end Start

section Progress

variable {s : State} {p d i : Nat} {f : List Byte} {k : Coll}

/-! ### A member's frame (R426) -/

/-- With nothing waiting, a frame of a running collective that is not early is acted on at once. -/
theorem State.recvColl_now {from_ : Option (Nat × Nat × Nat)} (hbuf : s.fab.collBuf = []) (hcoll : s.collOf d f = some k) (hearly : k.early f = false) :
    ∃ u : State, s.SameLinks u ∧ s.recvColl d f from_ = u.takeColl k f ∧ Keeps (oneOf [.sent, .fab]) s u := by
  have hlinks := State.freeBuffer_sameLinks (s := s) from_ (frUnits f)
  have hfree : Keeps (oneOf [.sent, .fab]) s (s.freeBuffer from_ (frUnits f)) := State.freeBuffer_keeps .rfl rfl
  have hqueued : ((s.onFab fun x => { x with collBuf := x.collBuf ++ [⟨d, f, from_⟩] }).fab.collBuf) = [⟨d, f, from_⟩] := by
    change s.fab.collBuf ++ [_] = _
    rw [hbuf, List.nil_append]
  have hback : (s.onFab fun x => { x with collBuf := x.collBuf ++ [⟨d, f, from_⟩] }).onFab (fun y => { y with collBuf := dropFirst (· == ⟨d, f, from_⟩) y.collBuf }) = s := by
    change ({ s with fab := { s.fab with collBuf := dropFirst (· == ⟨d, f, from_⟩) (s.fab.collBuf ++ [⟨d, f, from_⟩]) } } : State) = s
    rw [hbuf, List.nil_append, dropFirst, if_pos (by simp), ← hbuf]
  have hfirst : (s.onFab fun x => { x with collBuf := x.collBuf ++ [⟨d, f, from_⟩] }).collReady d [⟨d, f, from_⟩] = some ⟨d, f, from_⟩ := by
    unfold State.collReady
    dsimp only
    rw [if_neg (not_not.2 rfl), show (s.onFab fun x => { x with collBuf := x.collBuf ++ [⟨d, f, from_⟩] }).collOf d f = some k from hcoll]
    dsimp only
    rw [hearly, if_neg Bool.false_ne_true]
  have hstill : (s.freeBuffer from_ (frUnits f)).collOf d f = some k := by
    unfold State.collOf at hcoll ⊢
    rw [hlinks.colls]
    exact hcoll
  refine ⟨s.freeBuffer from_ (frUnits f), hlinks, ?_, hfree⟩
  unfold State.recvColl
  dsimp only
  rw [hqueued]
  unfold State.drainColl
  dsimp only
  rw [hqueued, hfirst]
  dsimp only
  rw [hback, hstill]
  rfl

theorem exec_coll_now (h : s.delivers p 0x21 f) (hready : s.power.mode = .ready) (hd : d = carDie (frDst f)) (hbuf : s.fab.collBuf = []) (hcoll : s.collOf d f = some k)
    (hearly : k.early f = false) : ∃ u : State, s.SameLinks u ∧ Keeps (oneOf [.sent, .fab]) s u ∧ exec (.coll p f) s = .next (u.takeColl k f).pumpAll := by
  subst hd
  have hexec := exec_frame_taken (c := .coll p f) (by simp [frameCommands]) h (by decide) fun hsafe => by
    rw [hready] at hsafe
    cases hsafe
  have htaken : s.taken p 0x21 f (arrivedOn p f) = s.recvColl (carDie (frDst f)) f (arrivedOn p f) := rfl
  obtain ⟨u, hlinks, hrecv, hkeeps⟩ := State.recvColl_now (from_ := arrivedOn p f) hbuf hcoll hearly
  rw [htaken, hrecv] at hexec
  exact ⟨u, hlinks, hkeeps, hexec⟩

theorem State.collFrom_congr {u : State} (hkeeps : Keeps (oneOf [.sent, .fab]) s u) : u.collFrom k f = s.collFrom k f := by
  unfold State.collFrom State.collMembers State.collGroups State.entries
  rw [show u.cfg = s.cfg from hkeeps.frame .cfg rfl]

/-- An abort of a member ends the collective (R427). -/
theorem coll_abort_ends (h : s.delivers p 0x21 f) (hready : s.power.mode = .ready) (hd : d = carDie (frDst f)) (hbuf : s.fab.collBuf = []) (hcoll : s.collOf d f = some k)
    (hfrom : s.collFrom k f = some i) (habort : collOpt f = 3) :
    ∃ t, exec (.coll p f) s = .next t ∧ ∀ y ∈ t.fab.colls, ¬(y.d = k.d ∧ y.group = k.group ∧ y.collId = k.collId) := by
  have hearly : k.early f = false := by
    unfold Coll.early
    rw [habort]
    simp
  obtain ⟨u, hlinks, hkeeps, hexec⟩ := exec_coll_now h hready hd hbuf hcoll hearly
  have htake : u.takeColl k f = (u.sendAborts k (k.onward i)).endColl k 3 0x0080 := by
    unfold State.takeColl
    rw [State.collFrom_congr hkeeps, hfrom]
    exact if_pos habort
  rw [htake] at hexec
  refine ⟨_, hexec, fun y hy => ?_⟩
  rw [State.pumpAll_sameLinks.colls] at hy
  exact State.endColl_ends hy

/-- The partial of a child merged while another child's is missing (R425). -/
theorem coll_child_merged {j : Nat} (h : s.delivers p 0x21 f) (hready : s.power.mode = .ready) (hd : d = carDie (frDst f)) (hbuf : s.fab.collBuf = [])
    (hcoll : s.collOf d f = some k) (hfrom : s.collFrom k f = some i) (hagrees : k.agrees f = true) (hop : k.op = 4) (hopt : collOpt f = 2) (hi : i ∈ k.children)
    (hnew : i ∉ k.kids) (hj : j ∈ k.children) (hji : j ≠ i) (hmissing : j ∉ k.kids) :
    ∃ t, exec (.coll p f) s = .next t ∧ t.fab.colls = (s.fab.colls.map fun y => if y.d = k.d ∧ y.group = k.group ∧ y.collId = k.collId then
      { k with kids := k.kids ++ [i], part := k.part.merge 12 (recordPartial k.count ((frPayload f).drop 64)) } else y) ∧ t = { s with sent := t.sent, fab := t.fab } := by
  have hearly : k.early f = false := by
    unfold Coll.early
    rw [hop]
    simp
  obtain ⟨u, hlinks, hkeeps, hexec⟩ := exec_coll_now h hready hd hbuf hcoll hearly
  have hwaits : ¬(k.children.all (k.kids ++ [i]).contains) = true := by
    intro hall
    have hmem := List.contains_iff_mem.1 (List.all_eq_true.1 hall j hj)
    rcases List.mem_append.1 hmem with hold | hone
    · exact hmissing hold
    · exact hji (List.mem_singleton.1 hone)
  have htake : u.takeColl k f = u.onColl k fun _ => { k with kids := k.kids ++ [i], part := k.part.merge 12 (recordPartial k.count ((frPayload f).drop 64)) } := by
    unfold State.takeColl
    rw [State.collFrom_congr hkeeps, hfrom]
    dsimp only
    rw [if_neg (by rw [hopt]; decide), hagrees, if_neg (by decide), if_pos hop,
      if_pos ⟨hopt, List.contains_iff_mem.2 hi, Bool.eq_false_iff.2 fun h => hnew (List.contains_iff_mem.1 h)⟩]
    exact if_neg hwaits
  rw [htake] at hexec
  refine ⟨_, hexec, ?_, (hkeeps.trans (State.pumpAll_keeps (State.onFab_keeps .rfl rfl) rfl rfl)).eq_graft⟩
  rw [State.pumpAll_sameLinks.colls]
  change u.fab.colls.map _ = _
  rw [hlinks.colls]

/-- A collective that times out is ended REFUSED (R427). -/
theorem collTimeout_ends {n : Nat} (hn : (s.fab.colls.filter fun c => c.d = d)[n]? = some k) : exec (.collTimeout d n) s = .next (s.endColl k 5 0x0050) ∧
    ∀ y ∈ (s.endColl k 5 0x0050).fab.colls, ¬(y.d = d ∧ y.group = k.group ∧ y.collId = k.collId) := by
  have hdie : k.d = d := of_decide_eq_true (List.mem_filter.1 (List.mem_of_getElem? hn)).2
  refine ⟨?_, fun y hy => ?_⟩
  · change execCollTimeout d n s = _
    unfold execCollTimeout
    rw [hn]
  · rw [← hdie]
    exact State.endColl_ends hy

end Progress

/-- Settles O55: a collective starts or completes with its first fault, merges what its members send, and ends by a timeout or an abort. -/
theorem collectivesStartMergeAndEnd : Obligations.CollectivesStartMergeAndEnd := by
  refine ⟨?_, ?_, ?_, ?_, fun a b _ _ => combine_int32 a b, fun c i hop hp hi => Coll.chunk_unique hop hp hi⟩
  · intro s d n op x k c hc hnotice hmode hroom hreach hready hd hslot hpointer htag hsender hdesc hop hp hindex hphase hstep hchunks hgot hpart hkids
    have hk := State.eq_collOfNotice hd hslot hpointer htag hsender hdesc hp hindex hphase hstep hchunks hgot hpart hkids
    have hstart := State.startColl_of hnotice hmode hroom hreach hready (hk ▸ hop)
    rw [← hk] at hstart
    rw [exec_startColl hc, hstart]
    subst hd
    refine ⟨fun hfault hsrc hdst => ?_, fun st reason hfault => ?_⟩
    · rw [State.tryColl_runs hfault hsrc hdst]
    · rw [State.tryColl_fault hfault]
  · exact fun s d n k hn => collTimeout_ends hn
  · exact fun s p d i f k h hready hd hbuf hcoll hfrom habort => coll_abort_ends h hready hd hbuf hcoll hfrom habort
  · exact fun s p d i j f k h hready hd hbuf hcoll hfrom hagrees hop hopt hi hnew hj hji hmissing =>
      coll_child_merged h hready hd hbuf hcoll hfrom hagrees hop hopt hi hnew hj hji hmissing

end Sys2Proof.Machine
